-- ==== Sys2Proof/Word.lean ====
section
/-! DEFINITION. The word types, the keyed store every sparse part of the state uses, and the
shape of a register field as the register tables of the spec give it. -/

namespace Sys2Proof

/-- A register word: every register access is 32 bits wide (R13). -/
abbrev Word := BitVec 32

/-- A byte of a file, a frame or a buffer. -/
abbrev Byte := BitVec 8

/-- Sparse data by key, keys strictly rising, no entry equal to what an unlisted key reads as. -/
abbrev Map (α : Type) := List (Nat × α)

/-- The access codes of R10. -/
inductive Acc where
  | rw | rwi | ro | cor | wo
  deriving DecidableEq, Repr

/-- One row of a register table: byte offset, lowest bit, width, access code, reset value,
whether it is block-only (R59), whether the encodings outside `enc` are reserved (R12, refused at
the write) or only out of range (R70, refused at prepare), and the admitted ranges (empty: all). -/
structure Fld where
  off : Nat
  lsb : Nat
  width : Nat
  acc : Acc
  reset : Nat
  blockOnly : Bool
  encReserved : Bool
  enc : List (Nat × Nat)
  deriving DecidableEq, Repr

end Sys2Proof
end

