-- ==== Sys2Proof/Machine/Regs.lean ====
section
/-! DEFINITION. The register tables of the spec, one `Fld` per row: offset, bits, access code,
reset value, block-only mark and admitted encodings. Array rows take their index. -/

namespace Sys2Proof.Machine.Reg

/-- CTRL.INPUT of a capture chain at reset: the auxiliary chains 48 to 55 take input k (R242). -/
def chainInputReset (c : Nat) : Nat := if 48 ≤ c then c - 48 else 0

/-- DECIM.R of a capture chain at reset: MIC 16, ISNS and VSNS 64, AUX 32 (R242). -/
def chainDecimReset (c : Nat) : Nat := if c < 16 then 0x10 else if c < 48 then 0x40 else 0x20

/-- QUEUE[q].USE at reset (R320). -/
def queueUseReset (q : Nat) : Nat :=
  match q with
  | 7 => 2
  | 6 => 3
  | 5 => 1
  | 4 => 4
  | _ => 0

/-- PRIO[m][t] at reset (R385): targets 0 and 1 are DRAM, 2 to 9 SRAM, 10 and 11 REGFAB and
GREENROOM. -/
def priorityReset (m t : Nat) : Nat :=
  let row : Nat × Nat × Nat :=
    match m with
    | 0 | 1 => (15, 15, 0)
    | 2 | 3 => (13, 14, 0)
    | 4 => (14, 14, 0)
    | 5 => (9, 10, 15)
    | 6 | 7 => (8, 8, 12)
    | 8 => (14, 13, 0)
    | 9 => (12, 12, 0)
    | 10 => (10, 11, 0)
    | 11 => (6, 6, 0)
    | _ => (4, 4, 0)
  if t < 2 then row.1 else if t < 10 then row.2.1 else row.2.2

/-- PARK[t] at reset (R385). -/
def parkReset (t : Nat) : Nat :=
  if t = 0 then 0 else if t = 1 then 1 else if t < 10 then t % 2 else 5

/-! Update (R65, R443) -/

def Update.UPD_STROBE : Fld :=
  ⟨0x040, 0, 32, .wo, 0, false, false, []⟩
def Update.UPD_AT_LO : Fld :=
  ⟨0x044, 0, 32, .rwi, 0, false, false, []⟩
def Update.UPD_AT_HI : Fld :=
  ⟨0x048, 0, 32, .rwi, 0, false, false, []⟩
def Update.UPD_SERIAL : Fld :=
  ⟨0x04c, 0, 32, .ro, 0, false, false, []⟩
def Update.UPD_RESULT_PAGE : Fld :=
  ⟨0x050, 0, 12, .ro, 0, false, false, []⟩
def Update.UPD_RESULT_REASON : Fld :=
  ⟨0x050, 16, 8, .ro, 0, false, false, []⟩
def Update.UPD_RESULT_STATE : Fld :=
  ⟨0x050, 28, 4, .ro, 0, false, false, []⟩
def Update.UPD_APPLIED_AT_LO : Fld :=
  ⟨0x054, 0, 32, .ro, 0, false, false, []⟩
def Update.UPD_APPLIED_AT_HI : Fld :=
  ⟨0x058, 0, 32, .ro, 0, false, false, []⟩
def Update.UPD_DISCARD : Fld :=
  ⟨0x05c, 0, 32, .wo, 0, false, false, []⟩
def Update.UPD_CANCEL : Fld :=
  ⟨0x060, 0, 32, .wo, 0, false, false, []⟩
def Update.COMMIT_SERIAL : Fld :=
  ⟨0x064, 0, 32, .ro, 0, false, false, []⟩
def Update.PENDING_GROUPS : Fld :=
  ⟨0x068, 0, 32, .ro, 0, false, false, []⟩
def Update.UG_CFG_KIND (g : Nat) : Fld :=
  ⟨(0x080 + 4 * g), 0, 2, .rwi, 1, false, true, [(0, 2)]⟩
def Update.UG_CFG_OWNER (g : Nat) : Fld :=
  ⟨(0x080 + 4 * g), 8, 3, .rwi, 0, false, false, []⟩
def Update.UG_CFG_SHARED (g : Nat) : Fld :=
  ⟨(0x080 + 4 * g), 16, 1, .rwi, 0, false, false, []⟩
def Update.UG_CFG_PENDING (g : Nat) : Fld :=
  ⟨(0x080 + 4 * g), 31, 1, .ro, 0, false, false, []⟩
def Update.HOLD_COUNT : Fld :=
  ⟨0x070, 0, 12, .ro, 0, false, false, []⟩
def Update.HOLD_FIRST : Fld :=
  ⟨0x074, 0, 12, .ro, 0, false, false, []⟩
def Update.HOLD_SERIAL : Fld :=
  ⟨0x078, 0, 32, .ro, 0, false, false, []⟩

/-- Every field of Update (R65, R443). -/
def Update.fields : List Fld :=
  [Update.UPD_STROBE, Update.UPD_AT_LO, Update.UPD_AT_HI, Update.UPD_SERIAL, Update.UPD_RESULT_PAGE, Update.UPD_RESULT_REASON, Update.UPD_RESULT_STATE, Update.UPD_APPLIED_AT_LO] ++
  [Update.UPD_APPLIED_AT_HI, Update.UPD_DISCARD, Update.UPD_CANCEL, Update.COMMIT_SERIAL, Update.PENDING_GROUPS, Update.HOLD_COUNT, Update.HOLD_FIRST, Update.HOLD_SERIAL] ++
  (List.range 32).map Update.UG_CFG_KIND ++
  (List.range 32).map Update.UG_CFG_OWNER ++
  (List.range 32).map Update.UG_CFG_SHARED ++
  (List.range 32).map Update.UG_CFG_PENDING

/-! Device (R77) -/

def Device.VARIANT_CODE : Fld :=
  ⟨0x040, 0, 12, .ro, 0x960, false, false, []⟩
def Device.VARIANT_STEPPING : Fld :=
  ⟨0x040, 16, 8, .ro, 0xb1, false, false, []⟩
def Device.FW_RELEASE_MINOR : Fld :=
  ⟨0x044, 0, 8, .ro, 0, false, false, []⟩
def Device.FW_RELEASE_MAJOR : Fld :=
  ⟨0x044, 8, 8, .ro, 0, false, false, []⟩
def Device.FW_RELEASE_BUILD : Fld :=
  ⟨0x044, 16, 16, .ro, 0, false, false, []⟩
def Device.UNITS_A_OBJECTS : Fld :=
  ⟨0x048, 0, 11, .ro, 0x400, false, false, []⟩
def Device.UNITS_A_OUTPUTS : Fld :=
  ⟨0x048, 16, 10, .ro, 0x200, false, false, []⟩
def Device.UNITS_B_BUSES : Fld :=
  ⟨0x04c, 0, 7, .ro, 0x40, false, false, []⟩
def Device.UNITS_B_TDM : Fld :=
  ⟨0x04c, 8, 5, .ro, 0x10, false, false, []⟩
def Device.UNITS_B_AESRX : Fld :=
  ⟨0x04c, 16, 4, .ro, 8, false, false, []⟩
def Device.UNITS_B_AESTX : Fld :=
  ⟨0x04c, 20, 4, .ro, 8, false, false, []⟩
def Device.UNITS_B_ETH : Fld :=
  ⟨0x04c, 24, 3, .ro, 4, false, false, []⟩
def Device.UNITS_C_PS : Fld :=
  ⟨0x050, 0, 5, .ro, 0x10, false, false, []⟩
def Device.UNITS_C_PDM : Fld :=
  ⟨0x050, 8, 5, .ro, 0x10, false, false, []⟩
def Device.UNITS_C_SEATS : Fld :=
  ⟨0x050, 16, 4, .ro, 8, false, false, []⟩
def Device.UNITS_C_PROMPTERS : Fld :=
  ⟨0x050, 20, 4, .ro, 8, false, false, []⟩
def Device.UNITS_C_BINAURAL : Fld :=
  ⟨0x050, 24, 1, .ro, 1, false, false, []⟩
def Device.UNITS_C_LOCKSTEP : Fld :=
  ⟨0x050, 25, 1, .ro, 1, false, false, []⟩
def Device.PATH_POOL : Fld :=
  ⟨0x054, 0, 17, .ro, 0x10000, false, false, []⟩
def Device.TAP_POOL : Fld :=
  ⟨0x058, 0, 23, .ro, 0x400000, false, false, []⟩
def Device.DRAM_MIB : Fld :=
  ⟨0x05c, 0, 16, .ro, 0x4000, false, false, []⟩
def Device.DRAM_ECC_ON : Fld :=
  ⟨0x05c, 16, 1, .ro, 0, false, false, []⟩
def Device.NOW_OBJECTS : Fld :=
  ⟨0x060, 0, 11, .ro, 0x400, false, false, []⟩
def Device.NOW_OUTPUTS : Fld :=
  ⟨0x060, 16, 10, .ro, 0x200, false, false, []⟩
def Device.NOW_PATHS : Fld :=
  ⟨0x064, 0, 17, .ro, 0x10000, false, false, []⟩
def Device.SERIAL_LO : Fld :=
  ⟨0x068, 0, 32, .ro, 0, false, false, []⟩
def Device.SERIAL_HI : Fld :=
  ⟨0x06c, 0, 32, .ro, 0, false, false, []⟩
def Device.FUSE_MAP : Fld :=
  ⟨0x070, 0, 32, .ro, 0, false, false, []⟩

/-- Every field of Device (R77). -/
def Device.fields : List Fld :=
  [Device.VARIANT_CODE, Device.VARIANT_STEPPING, Device.FW_RELEASE_MINOR, Device.FW_RELEASE_MAJOR, Device.FW_RELEASE_BUILD, Device.UNITS_A_OBJECTS, Device.UNITS_A_OUTPUTS, Device.UNITS_B_BUSES] ++
  [Device.UNITS_B_TDM, Device.UNITS_B_AESRX, Device.UNITS_B_AESTX, Device.UNITS_B_ETH, Device.UNITS_C_PS, Device.UNITS_C_PDM, Device.UNITS_C_SEATS, Device.UNITS_C_PROMPTERS] ++
  [Device.UNITS_C_BINAURAL, Device.UNITS_C_LOCKSTEP, Device.PATH_POOL, Device.TAP_POOL, Device.DRAM_MIB, Device.DRAM_ECC_ON, Device.NOW_OBJECTS, Device.NOW_OUTPUTS] ++
  [Device.NOW_PATHS, Device.SERIAL_LO, Device.SERIAL_HI, Device.FUSE_MAP]

/-! Obj (R81) -/

def Obj.CTRL_ACTIVE : Fld :=
  ⟨0x00, 0, 1, .rw, 0, false, false, []⟩
def Obj.CTRL_CLASS : Fld :=
  ⟨0x00, 1, 2, .rw, 1, true, true, [(0, 2)]⟩
def Obj.CTRL_LAW : Fld :=
  ⟨0x00, 3, 3, .rw, 0, true, true, [(0, 4)]⟩
def Obj.CTRL_MOTION_MODE : Fld :=
  ⟨0x00, 6, 2, .rw, 0, true, true, [(0, 2)]⟩
def Obj.CTRL_MUTE : Fld :=
  ⟨0x00, 8, 1, .rw, 0, false, false, []⟩
def Obj.CTRL_INVERT : Fld :=
  ⟨0x00, 9, 1, .rw, 0, false, false, []⟩
def Obj.CTRL_INTERP : Fld :=
  ⟨0x00, 10, 1, .rw, 0, true, false, []⟩
def Obj.SOURCE_TYPE : Fld :=
  ⟨0x04, 0, 4, .rw, 0, false, true, [(0, 6)]⟩
def Obj.SOURCE_UNIT : Fld :=
  ⟨0x04, 4, 8, .rw, 0, false, false, []⟩
def Obj.SOURCE_CHANNEL : Fld :=
  ⟨0x04, 12, 6, .rw, 0, false, false, []⟩
def Obj.GAIN : Fld :=
  ⟨0x08, 0, 32, .rw, 0x10000000, false, false, []⟩
def Obj.RAMP_GAIN : Fld :=
  ⟨0x0c, 0, 16, .rw, 0x50, false, false, []⟩
def Obj.RAMP_POS : Fld :=
  ⟨0x0c, 16, 16, .rw, 0x50, false, false, []⟩
def Obj.POS_X : Fld :=
  ⟨0x10, 0, 32, .rw, 0, false, false, []⟩
def Obj.POS_Y : Fld :=
  ⟨0x14, 0, 32, .rw, 0, false, false, []⟩
def Obj.POS_Z : Fld :=
  ⟨0x18, 0, 32, .rw, 0, false, false, []⟩
def Obj.PAN_SPREAD : Fld :=
  ⟨0x1c, 0, 16, .rw, 0, false, false, [(0, 46080)]⟩
def Obj.PAN_ZONE_MASK : Fld :=
  ⟨0x1c, 16, 16, .rw, 0xffff, false, false, []⟩
def Obj.EQ_SET : Fld :=
  ⟨0x20, 0, 12, .rw, 0, false, false, []⟩
def Obj.EQ_SECTION_EN : Fld :=
  ⟨0x20, 16, 8, .rw, 0, false, false, []⟩
def Obj.MOTION_ENTRY : Fld :=
  ⟨0x24, 0, 16, .rw, 0, false, false, []⟩
def Obj.MOTION_CMD : Fld :=
  ⟨0x24, 16, 2, .rw, 0, false, true, [(0, 2)]⟩
def Obj.FLAGS_SET : Fld :=
  ⟨0x28, 0, 8, .wo, 0, false, false, []⟩
def Obj.FLAGS_CLR : Fld :=
  ⟨0x28, 8, 8, .wo, 0, false, false, []⟩
def Obj.FLAGS_STATE : Fld :=
  ⟨0x28, 16, 8, .ro, 0, false, false, []⟩
def Obj.CTX_STATE : Fld :=
  ⟨0x2c, 0, 3, .ro, 0, false, false, []⟩
def Obj.CTX_LOOP_DEPTH : Fld :=
  ⟨0x2c, 4, 3, .ro, 0, false, false, []⟩
def Obj.CTX_FAULT : Fld :=
  ⟨0x2c, 8, 4, .ro, 0, false, false, []⟩
def Obj.CTX_PC : Fld :=
  ⟨0x2c, 16, 16, .ro, 0, false, false, []⟩
def Obj.CUR_X : Fld :=
  ⟨0x30, 0, 32, .ro, 0, false, false, []⟩
def Obj.CUR_Y : Fld :=
  ⟨0x34, 0, 32, .ro, 0, false, false, []⟩
def Obj.CUR_Z : Fld :=
  ⟨0x38, 0, 32, .ro, 0, false, false, []⟩
def Obj.EVT_CODE : Fld :=
  ⟨0x3c, 0, 8, .cor, 0, false, false, []⟩
def Obj.EVT_COUNT : Fld :=
  ⟨0x3c, 8, 8, .cor, 0, false, false, []⟩
def Obj.EVT_FLAGS : Fld :=
  ⟨0x3c, 16, 7, .cor, 0, false, false, []⟩
def Obj.EVT_EN : Fld :=
  ⟨0x40, 16, 7, .rwi, 0, false, false, []⟩
def Obj.PEAK : Fld :=
  ⟨0x44, 0, 32, .cor, 0, false, false, []⟩
def Obj.PATHS_GRANTED : Fld :=
  ⟨0x48, 0, 9, .ro, 0, false, false, []⟩
def Obj.PATHS_WANTED : Fld :=
  ⟨0x48, 16, 9, .ro, 0, false, false, []⟩
def Obj.PATHS_DRAINING : Fld :=
  ⟨0x48, 31, 1, .ro, 0, false, false, []⟩

/-- Every field of Obj (R81). -/
def Obj.fields : List Fld :=
  [Obj.CTRL_ACTIVE, Obj.CTRL_CLASS, Obj.CTRL_LAW, Obj.CTRL_MOTION_MODE, Obj.CTRL_MUTE, Obj.CTRL_INVERT, Obj.CTRL_INTERP, Obj.SOURCE_TYPE] ++
  [Obj.SOURCE_UNIT, Obj.SOURCE_CHANNEL, Obj.GAIN, Obj.RAMP_GAIN, Obj.RAMP_POS, Obj.POS_X, Obj.POS_Y, Obj.POS_Z] ++
  [Obj.PAN_SPREAD, Obj.PAN_ZONE_MASK, Obj.EQ_SET, Obj.EQ_SECTION_EN, Obj.MOTION_ENTRY, Obj.MOTION_CMD, Obj.FLAGS_SET, Obj.FLAGS_CLR] ++
  [Obj.FLAGS_STATE, Obj.CTX_STATE, Obj.CTX_LOOP_DEPTH, Obj.CTX_FAULT, Obj.CTX_PC, Obj.CUR_X, Obj.CUR_Y, Obj.CUR_Z] ++
  [Obj.EVT_CODE, Obj.EVT_COUNT, Obj.EVT_FLAGS, Obj.EVT_EN, Obj.PEAK, Obj.PATHS_GRANTED, Obj.PATHS_WANTED, Obj.PATHS_DRAINING]

/-! Layout (R127) -/

def Layout.SEL : Fld :=
  ⟨0x040, 0, 2, .rw, 0, true, false, []⟩
def Layout.STATUS_ACTIVE_SLOT : Fld :=
  ⟨0x044, 0, 2, .ro, 0, false, false, []⟩
def Layout.STATUS_ACTIVE_VALID : Fld :=
  ⟨0x044, 2, 1, .ro, 0, false, false, []⟩
def Layout.STATUS_ARMED_SLOT : Fld :=
  ⟨0x044, 4, 2, .ro, 0, false, false, []⟩
def Layout.STATUS_ARMED : Fld :=
  ⟨0x044, 6, 1, .ro, 0, false, false, []⟩
def Layout.STATUS_SLOT_VALID : Fld :=
  ⟨0x044, 8, 4, .ro, 0, false, false, []⟩
def Layout.STATUS_SLOT_HELD : Fld :=
  ⟨0x044, 12, 4, .ro, 0, false, false, []⟩
def Layout.STATUS_CONVERTING : Fld :=
  ⟨0x044, 16, 1, .ro, 0, false, false, []⟩
def Layout.CONVERT_LEFT : Fld :=
  ⟨0x048, 0, 11, .ro, 0, false, false, []⟩
def Layout.SLOT_ID (n : Nat) : Fld :=
  ⟨(0x050 + 4 * n), 0, 32, .ro, 0, false, false, []⟩
def Layout.SLOT_INFO_SPEAKERS (n : Nat) : Fld :=
  ⟨(0x060 + 4 * n), 0, 10, .ro, 0, false, false, []⟩
def Layout.SLOT_INFO_VIRTUAL (n : Nat) : Fld :=
  ⟨(0x060 + 4 * n), 10, 7, .ro, 0, false, false, []⟩
def Layout.SLOT_INFO_TRIANGLES (n : Nat) : Fld :=
  ⟨(0x060 + 4 * n), 17, 12, .ro, 0, false, false, []⟩

/-- Every field of Layout (R127). -/
def Layout.fields : List Fld :=
  [Layout.SEL, Layout.STATUS_ACTIVE_SLOT, Layout.STATUS_ACTIVE_VALID, Layout.STATUS_ARMED_SLOT, Layout.STATUS_ARMED, Layout.STATUS_SLOT_VALID, Layout.STATUS_SLOT_HELD, Layout.STATUS_CONVERTING] ++
  [Layout.CONVERT_LEFT] ++
  (List.range 4).map Layout.SLOT_ID ++
  (List.range 4).map Layout.SLOT_INFO_SPEAKERS ++
  (List.range 4).map Layout.SLOT_INFO_VIRTUAL ++
  (List.range 4).map Layout.SLOT_INFO_TRIANGLES

/-! Pan (R128) -/

def Pan.SOUND_SPEED : Fld :=
  ⟨0x040, 0, 32, .rw, 0x1570000, true, false, [(13107200, 32768000)]⟩
def Pan.LOAD_LAST : Fld :=
  ⟨0x048, 0, 8, .ro, 0, false, false, []⟩
def Pan.LOAD_PEAK : Fld :=
  ⟨0x048, 8, 8, .cor, 0, false, false, []⟩
def Pan.EVALS : Fld :=
  ⟨0x04c, 0, 32, .ro, 0, false, false, []⟩

/-- Every field of Pan (R128). -/
def Pan.fields : List Fld :=
  [Pan.SOUND_SPEED, Pan.LOAD_LAST, Pan.LOAD_PEAK, Pan.EVALS]

/-! Path (R169) -/

def Path.POOL_CFG_LEAD_RESERVE : Fld :=
  ⟨0x040, 0, 17, .rw, 0x2000, true, false, []⟩
def Path.POOL_CFG_LEAD_SPILL : Fld :=
  ⟨0x040, 24, 1, .rw, 0, true, false, []⟩
def Path.GROWTH : Fld :=
  ⟨0x044, 0, 8, .rw, 0x10, false, false, [(0, 128)]⟩
def Path.USE_LEAD : Fld :=
  ⟨0x048, 0, 17, .ro, 0, false, false, []⟩
def Path.USE_TOTAL : Fld :=
  ⟨0x04c, 0, 17, .ro, 0, false, false, []⟩
def Path.USE_PEAK : Fld :=
  ⟨0x050, 0, 17, .cor, 0, false, false, []⟩
def Path.USE_FAR : Fld :=
  ⟨0x054, 0, 17, .ro, 0, false, false, []⟩
def Path.STARVED_LAST : Fld :=
  ⟨0x058, 0, 11, .ro, 0, false, false, []⟩
def Path.STARVED_COUNT : Fld :=
  ⟨0x05c, 0, 32, .ro, 0, false, false, []⟩
def Path.CLAMP_COUNT : Fld :=
  ⟨0x060, 0, 32, .ro, 0, false, false, []⟩
def Path.FAR_REQUESTS : Fld :=
  ⟨0x064, 0, 32, .ro, 0, false, false, []⟩
def Path.FETCH_LAST : Fld :=
  ⟨0x068, 0, 16, .ro, 0, false, false, []⟩
def Path.FETCH_PEAK : Fld :=
  ⟨0x068, 16, 16, .cor, 0, false, false, []⟩
def Path.ACC_SAT_COUNT : Fld :=
  ⟨0x06c, 0, 32, .ro, 0, false, false, []⟩
def Path.D_MAX : Fld :=
  ⟨0x070, 0, 16, .ro, 0x7fec, false, false, []⟩
def Path.NEAR_LIMIT : Fld :=
  ⟨0x074, 0, 10, .ro, 0x3d8, false, false, []⟩

/-- Every field of Path (R169). -/
def Path.fields : List Fld :=
  [Path.POOL_CFG_LEAD_RESERVE, Path.POOL_CFG_LEAD_SPILL, Path.GROWTH, Path.USE_LEAD, Path.USE_TOTAL, Path.USE_PEAK, Path.USE_FAR, Path.STARVED_LAST] ++
  [Path.STARVED_COUNT, Path.CLAMP_COUNT, Path.FAR_REQUESTS, Path.FETCH_LAST, Path.FETCH_PEAK, Path.ACC_SAT_COUNT, Path.D_MAX, Path.NEAR_LIMIT]

/-! Bus (R176) -/

def Bus.CTRL_ACTIVE : Fld :=
  ⟨0x00, 0, 1, .rw, 0, false, false, []⟩
def Bus.CTRL_MUTE : Fld :=
  ⟨0x00, 1, 1, .rw, 0, false, false, []⟩
def Bus.CTRL_INVERT : Fld :=
  ⟨0x00, 2, 1, .rw, 0, false, false, []⟩
def Bus.GAIN : Fld :=
  ⟨0x04, 0, 32, .rw, 0x10000000, false, false, []⟩
def Bus.RAMP_GAIN : Fld :=
  ⟨0x08, 0, 16, .rw, 0x50, false, false, []⟩
def Bus.EQ_SET : Fld :=
  ⟨0x0c, 0, 12, .rw, 0, false, false, []⟩
def Bus.EQ_SECTION_EN : Fld :=
  ⟨0x0c, 16, 8, .rw, 0, false, false, []⟩
def Bus.DIRECT_OUT : Fld :=
  ⟨0x10, 0, 10, .rw, 0, false, false, []⟩
def Bus.DIRECT_EN : Fld :=
  ⟨0x10, 15, 1, .rw, 0, false, false, []⟩
def Bus.DIRECT_GAIN : Fld :=
  ⟨0x14, 0, 32, .rw, 0x10000000, false, false, []⟩
def Bus.PEAK : Fld :=
  ⟨0x18, 0, 32, .cor, 0, false, false, []⟩
def Bus.OVER_COUNT : Fld :=
  ⟨0x1c, 0, 32, .ro, 0, false, false, []⟩
def Bus.EVT_FLAGS : Fld :=
  ⟨0x20, 16, 2, .cor, 0, false, false, []⟩
def Bus.EVT_EN : Fld :=
  ⟨0x24, 16, 2, .rwi, 0, false, false, []⟩

/-- Every field of Bus (R176). -/
def Bus.fields : List Fld :=
  [Bus.CTRL_ACTIVE, Bus.CTRL_MUTE, Bus.CTRL_INVERT, Bus.GAIN, Bus.RAMP_GAIN, Bus.EQ_SET, Bus.EQ_SECTION_EN, Bus.DIRECT_OUT] ++
  [Bus.DIRECT_EN, Bus.DIRECT_GAIN, Bus.PEAK, Bus.OVER_COUNT, Bus.EVT_FLAGS, Bus.EVT_EN]

/-! Route (R179) -/

def Route.CTRL_ENABLE : Fld :=
  ⟨0x00, 0, 1, .rw, 0, false, false, []⟩
def Route.CTRL_INVERT : Fld :=
  ⟨0x00, 1, 1, .rw, 0, false, false, []⟩
def Route.SRC_TYPE : Fld :=
  ⟨0x04, 0, 4, .rw, 0, false, true, [(0, 6), (8, 8)]⟩
def Route.SRC_UNIT : Fld :=
  ⟨0x04, 4, 10, .rw, 0, false, false, []⟩
def Route.SRC_CHANNEL : Fld :=
  ⟨0x04, 14, 6, .rw, 0, false, false, []⟩
def Route.DEST_INDEX : Fld :=
  ⟨0x08, 0, 10, .rw, 0, false, false, []⟩
def Route.DEST_KIND : Fld :=
  ⟨0x08, 12, 1, .rw, 0, false, false, []⟩
def Route.GAIN : Fld :=
  ⟨0x0c, 0, 32, .rw, 0x10000000, false, false, []⟩
def Route.RAMP_GAIN : Fld :=
  ⟨0x10, 0, 16, .rw, 0x50, false, false, []⟩
def Route.STATE_FADING : Fld :=
  ⟨0x14, 0, 1, .ro, 0, false, false, []⟩
def Route.STATE_LIVE : Fld :=
  ⟨0x14, 1, 1, .ro, 0, false, false, []⟩

/-- Every field of Route (R179). -/
def Route.fields : List Fld :=
  [Route.CTRL_ENABLE, Route.CTRL_INVERT, Route.SRC_TYPE, Route.SRC_UNIT, Route.SRC_CHANNEL, Route.DEST_INDEX, Route.DEST_KIND, Route.GAIN] ++
  [Route.RAMP_GAIN, Route.STATE_FADING, Route.STATE_LIVE]

/-! Render (R182, R380) -/

def Render.ROUTE_FADE : Fld :=
  ⟨0x080, 0, 16, .rw, 0x28, false, false, [(0, 800)]⟩
def Render.BM_GROUP_FC (g : Nat) : Fld :=
  ⟨(0x090 + 4 * g), 0, 8, .rw, 0x50, true, false, [(40, 200)]⟩
def Render.CFG_RATE : Fld :=
  ⟨0x040, 0, 1, .rw, 0, true, false, []⟩
def Render.CFG_BLOCK : Fld :=
  ⟨0x040, 1, 2, .rw, 1, true, false, []⟩
def Render.CTRL_RUN : Fld :=
  ⟨0x044, 0, 1, .rwi, 0, false, false, []⟩
def Render.CTRL_RESET : Fld :=
  ⟨0x044, 1, 1, .wo, 0, false, false, []⟩
def Render.STATE : Fld :=
  ⟨0x044, 4, 2, .ro, 0, false, false, []⟩
def Render.RUN_ID : Fld :=
  ⟨0x048, 0, 32, .ro, 0, false, false, []⟩
def Render.OVERRUN_COUNT : Fld :=
  ⟨0x04c, 0, 32, .ro, 0, false, false, []⟩
def Render.SLACK_LAST : Fld :=
  ⟨0x050, 0, 16, .ro, 0, false, false, []⟩
def Render.SLACK_MIN : Fld :=
  ⟨0x050, 16, 16, .cor, 0xffff, false, false, []⟩
def Render.EXTRA_CUT : Fld :=
  ⟨0x054, 0, 32, .ro, 0, false, false, []⟩
def Render.LEAD_OUTPUTS : Fld :=
  ⟨0x058, 0, 10, .ro, 0, false, false, []⟩
def Render.LEAD_BROKEN : Fld :=
  ⟨0x058, 16, 10, .ro, 0, false, false, []⟩
def Render.LEAD_FIRST : Fld :=
  ⟨0x05c, 0, 10, .ro, 0, false, false, []⟩
def Render.LEAD_REASON : Fld :=
  ⟨0x05c, 16, 4, .ro, 0, false, false, []⟩
def Render.LEAD_QUALIFIED : Fld :=
  ⟨0x05c, 24, 1, .ro, 0, false, false, []⟩

/-- Every field of Render (R182, R380). -/
def Render.fields : List Fld :=
  [Render.ROUTE_FADE, Render.CFG_RATE, Render.CFG_BLOCK, Render.CTRL_RUN, Render.CTRL_RESET, Render.STATE, Render.RUN_ID, Render.OVERRUN_COUNT] ++
  [Render.SLACK_LAST, Render.SLACK_MIN, Render.EXTRA_CUT, Render.LEAD_OUTPUTS, Render.LEAD_BROKEN, Render.LEAD_FIRST, Render.LEAD_REASON, Render.LEAD_QUALIFIED] ++
  (List.range 8).map Render.BM_GROUP_FC

/-! Out (R186, R213, R269) -/

def Out.CTRL_ACTIVE : Fld :=
  ⟨0x00, 0, 1, .rw, 0, false, false, []⟩
def Out.CTRL_MUTE : Fld :=
  ⟨0x00, 1, 1, .rw, 0, false, false, []⟩
def Out.CTRL_INVERT : Fld :=
  ⟨0x00, 2, 1, .rw, 0, false, false, []⟩
def Out.BM_ROLE : Fld :=
  ⟨0x00, 4, 2, .rw, 0, true, true, [(0, 2)]⟩
def Out.BM_GROUP : Fld :=
  ⟨0x00, 8, 3, .rw, 0, true, false, []⟩
def Out.LIM_LOOKAHEAD : Fld :=
  ⟨0x00, 12, 1, .rw, 0, true, false, []⟩
def Out.DYN_EN : Fld :=
  ⟨0x00, 13, 1, .rw, 0, false, false, []⟩
def Out.GAIN : Fld :=
  ⟨0x04, 0, 32, .rw, 0x10000000, false, false, []⟩
def Out.RAMP_GAIN : Fld :=
  ⟨0x08, 0, 16, .rw, 0x50, false, false, []⟩
def Out.EQ_SET : Fld :=
  ⟨0x0c, 0, 10, .rw, 0, false, false, []⟩
def Out.EQ_SECTION_EN : Fld :=
  ⟨0x0c, 16, 16, .rw, 0, false, false, []⟩
def Out.LIM_CEILING : Fld :=
  ⟨0x10, 0, 8, .rw, 4, false, false, [(0, 160)]⟩
def Out.LIM_RELEASE : Fld :=
  ⟨0x10, 16, 10, .rw, 0x32, false, false, [(10, 1000)]⟩
def Out.DYN_THRESH : Fld :=
  ⟨0x14, 0, 8, .rw, 0x50, false, false, [(0, 240)]⟩
def Out.DYN_RATIO : Fld :=
  ⟨0x14, 8, 8, .rw, 0x10, false, false, [(4, 80)]⟩
def Out.DYN_ATTACK : Fld :=
  ⟨0x14, 16, 8, .rw, 8, false, false, [(1, 255)]⟩
def Out.DYN_RELEASE : Fld :=
  ⟨0x14, 24, 8, .rw, 0x19, false, false, [(1, 255)]⟩
def Out.ANN_GAIN : Fld :=
  ⟨0x18, 0, 32, .rw, 0, false, false, []⟩
def Out.PEAK : Fld :=
  ⟨0x1c, 0, 32, .cor, 0, false, false, []⟩
def Out.LIMIT_COUNT : Fld :=
  ⟨0x20, 0, 32, .ro, 0, false, false, []⟩
def Out.OVER_COUNT : Fld :=
  ⟨0x24, 0, 32, .ro, 0, false, false, []⟩
def Out.EVT_FLAGS : Fld :=
  ⟨0x28, 16, 3, .cor, 0, false, false, []⟩
def Out.EVT_EN : Fld :=
  ⟨0x2c, 16, 3, .rwi, 0, false, false, []⟩
def Out.CORR_SEL : Fld :=
  ⟨0x40, 0, 2, .rw, 0, true, true, [(0, 2)]⟩
def Out.CORR_POLICY : Fld :=
  ⟨0x40, 4, 1, .rw, 1, true, false, []⟩
def Out.CORR_WARM : Fld :=
  ⟨0x40, 8, 1, .rwi, 0, false, false, []⟩
def Out.CORR_XFADE : Fld :=
  ⟨0x40, 16, 16, .rw, 0x190, false, false, [(0, 8000)]⟩
def Out.STATUS_LIVE : Fld :=
  ⟨0x44, 0, 2, .ro, 0, false, false, []⟩
def Out.STATUS_FADING : Fld :=
  ⟨0x44, 2, 1, .ro, 0, false, false, []⟩
def Out.STATUS_BANK0 : Fld :=
  ⟨0x44, 4, 2, .ro, 0, false, false, []⟩
def Out.STATUS_BANK1 : Fld :=
  ⟨0x44, 6, 2, .ro, 0, false, false, []⟩
def Out.BANK0_TAG : Fld :=
  ⟨0x48, 0, 32, .ro, 0, false, false, []⟩
def Out.BANK1_TAG : Fld :=
  ⟨0x4c, 0, 32, .ro, 0, false, false, []⟩
def Out.BANK0_INFO_TAPS : Fld :=
  ⟨0x50, 0, 16, .ro, 0, false, false, []⟩
def Out.BANK0_INFO_FORM : Fld :=
  ⟨0x50, 16, 2, .ro, 0, false, false, []⟩
def Out.BANK0_INFO_SPAN : Fld :=
  ⟨0x50, 24, 4, .ro, 0, false, false, []⟩
def Out.BANK1_INFO : Fld :=
  ⟨0x54, 0, 28, .ro, 0, false, false, []⟩
def Out.DELAY : Fld :=
  ⟨0x58, 0, 24, .ro, 0, false, false, []⟩
def Out.PEAK_TAP : Fld :=
  ⟨0x5c, 0, 16, .ro, 0, false, false, []⟩
def Out.PROT_PROFILE : Fld :=
  ⟨0x60, 0, 6, .rw, 0, false, true, [(0, 47)]⟩
def Out.PROT_X_EN : Fld :=
  ⟨0x60, 8, 1, .rw, 0, false, false, []⟩
def Out.PROT_T_EN : Fld :=
  ⟨0x60, 9, 1, .rw, 0, false, false, []⟩
def Out.PROT_LOOKAHEAD : Fld :=
  ⟨0x60, 10, 1, .rw, 0, true, false, []⟩
def Out.PSTAT_THERM : Fld :=
  ⟨0x64, 0, 2, .ro, 0, false, false, []⟩
def Out.PSTAT_XLIM : Fld :=
  ⟨0x64, 2, 1, .ro, 0, false, false, []⟩
def Out.PSTAT_CLOSED : Fld :=
  ⟨0x64, 3, 1, .ro, 0, false, false, []⟩
def Out.PSTAT_LOCAL : Fld :=
  ⟨0x64, 4, 1, .ro, 0, false, false, []⟩
def Out.T_COIL : Fld :=
  ⟨0x68, 0, 16, .ro, 0x1900, false, false, []⟩
def Out.T_MAG : Fld :=
  ⟨0x68, 16, 16, .ro, 0x1900, false, false, []⟩
def Out.ATTEN_TH : Fld :=
  ⟨0x6c, 0, 16, .ro, 0, false, false, []⟩
def Out.ATTEN_X : Fld :=
  ⟨0x6c, 16, 16, .ro, 0, false, false, []⟩
def Out.EXC_PEAK : Fld :=
  ⟨0x70, 0, 16, .cor, 0, false, false, []⟩
def Out.XLIM_COUNT : Fld :=
  ⟨0x74, 0, 32, .ro, 0, false, false, []⟩
def Out.FOLD_COUNT : Fld :=
  ⟨0x78, 0, 32, .ro, 0, false, false, []⟩
def Out.PEVT_FLAGS : Fld :=
  ⟨0x7c, 16, 5, .cor, 0, false, false, []⟩
def Out.PEVT_EN : Fld :=
  ⟨0x7c, 24, 5, .rwi, 0, false, false, []⟩

/-- Every field of Out (R186, R213, R269). -/
def Out.fields : List Fld :=
  [Out.CTRL_ACTIVE, Out.CTRL_MUTE, Out.CTRL_INVERT, Out.BM_ROLE, Out.BM_GROUP, Out.LIM_LOOKAHEAD, Out.DYN_EN, Out.GAIN] ++
  [Out.RAMP_GAIN, Out.EQ_SET, Out.EQ_SECTION_EN, Out.LIM_CEILING, Out.LIM_RELEASE, Out.DYN_THRESH, Out.DYN_RATIO, Out.DYN_ATTACK] ++
  [Out.DYN_RELEASE, Out.ANN_GAIN, Out.PEAK, Out.LIMIT_COUNT, Out.OVER_COUNT, Out.EVT_FLAGS, Out.EVT_EN, Out.CORR_SEL] ++
  [Out.CORR_POLICY, Out.CORR_WARM, Out.CORR_XFADE, Out.STATUS_LIVE, Out.STATUS_FADING, Out.STATUS_BANK0, Out.STATUS_BANK1, Out.BANK0_TAG] ++
  [Out.BANK1_TAG, Out.BANK0_INFO_TAPS, Out.BANK0_INFO_FORM, Out.BANK0_INFO_SPAN, Out.BANK1_INFO, Out.DELAY, Out.PEAK_TAP, Out.PROT_PROFILE] ++
  [Out.PROT_X_EN, Out.PROT_T_EN, Out.PROT_LOOKAHEAD, Out.PSTAT_THERM, Out.PSTAT_XLIM, Out.PSTAT_CLOSED, Out.PSTAT_LOCAL, Out.T_COIL] ++
  [Out.T_MAG, Out.ATTEN_TH, Out.ATTEN_X, Out.EXC_PEAK, Out.XLIM_COUNT, Out.FOLD_COUNT, Out.PEVT_FLAGS, Out.PEVT_EN]

/-! Monitor (R194) -/

def Monitor.CTRL_TAP : Fld :=
  ⟨0x040, 0, 1, .rw, 0, false, false, []⟩
def Monitor.CTRL_MUTE : Fld :=
  ⟨0x040, 1, 1, .rw, 0, false, false, []⟩
def Monitor.CTRL_HRIR_SEL : Fld :=
  ⟨0x040, 4, 1, .rw, 0, true, false, []⟩
def Monitor.DEST_TDM : Fld :=
  ⟨0x044, 0, 4, .rw, 0, true, false, []⟩
def Monitor.DEST_SLOT_L : Fld :=
  ⟨0x044, 8, 5, .rw, 0, true, false, []⟩
def Monitor.DEST_SLOT_R : Fld :=
  ⟨0x044, 16, 5, .rw, 1, true, false, []⟩
def Monitor.GAIN : Fld :=
  ⟨0x048, 0, 32, .rw, 0x10000000, false, false, []⟩
def Monitor.HEAD_YAW : Fld :=
  ⟨0x050, 0, 32, .rwi, 0, false, false, []⟩
def Monitor.HEAD_PITCH : Fld :=
  ⟨0x054, 0, 32, .rwi, 0, false, false, []⟩
def Monitor.HEAD_ROLL : Fld :=
  ⟨0x058, 0, 32, .rwi, 0, false, false, []⟩
def Monitor.VIRT_OUT (v : Nat) : Fld :=
  ⟨(0x060 + 8 * v), 0, 10, .rw, 0, false, false, []⟩
def Monitor.VIRT_EN (v : Nat) : Fld :=
  ⟨(0x060 + 8 * v), 15, 1, .rw, 0, false, false, []⟩
def Monitor.VIRT_AZ (v : Nat) : Fld :=
  ⟨(0x064 + 8 * v), 0, 16, .rw, 0, false, false, []⟩
def Monitor.VIRT_EL (v : Nat) : Fld :=
  ⟨(0x064 + 8 * v), 16, 16, .rw, 0, false, false, []⟩
def Monitor.STATUS_SLOT_VALID : Fld :=
  ⟨0x300, 0, 2, .ro, 0, false, false, []⟩
def Monitor.STATUS_ACTIVE_SLOT : Fld :=
  ⟨0x300, 2, 1, .ro, 0, false, false, []⟩
def Monitor.STATUS_TAPS : Fld :=
  ⟨0x300, 16, 11, .ro, 0, false, false, []⟩

/-- Every field of Monitor (R194). -/
def Monitor.fields : List Fld :=
  [Monitor.CTRL_TAP, Monitor.CTRL_MUTE, Monitor.CTRL_HRIR_SEL, Monitor.DEST_TDM, Monitor.DEST_SLOT_L, Monitor.DEST_SLOT_R, Monitor.GAIN, Monitor.HEAD_YAW] ++
  [Monitor.HEAD_PITCH, Monitor.HEAD_ROLL, Monitor.STATUS_SLOT_VALID, Monitor.STATUS_ACTIVE_SLOT, Monitor.STATUS_TAPS] ++
  (List.range 64).map Monitor.VIRT_OUT ++
  (List.range 64).map Monitor.VIRT_EN ++
  (List.range 64).map Monitor.VIRT_AZ ++
  (List.range 64).map Monitor.VIRT_EL

/-! Curtain (R204) -/

def Curtain.CTRL_CLOSE : Fld :=
  ⟨0x040, 0, 1, .wo, 0, false, false, []⟩
def Curtain.CTRL_RELEASE : Fld :=
  ⟨0x040, 1, 1, .wo, 0, false, false, []⟩
def Curtain.CTRL_AUTO_RELEASE : Fld :=
  ⟨0x040, 4, 1, .rwi, 0, false, false, []⟩
def Curtain.CTRL_ANNOUNCE : Fld :=
  ⟨0x040, 5, 1, .rw, 0, true, false, []⟩
def Curtain.CTRL_THERM_EN : Fld :=
  ⟨0x040, 6, 1, .rwi, 1, false, false, []⟩
def Curtain.CTRL_PIN_EN : Fld :=
  ⟨0x040, 7, 1, .rwi, 1, false, false, []⟩
def Curtain.OPEN_RAMP : Fld :=
  ⟨0x044, 0, 16, .rwi, 0xfa0, false, false, []⟩
def Curtain.STATUS_STATE : Fld :=
  ⟨0x048, 0, 2, .ro, 0, false, false, []⟩
def Curtain.STATUS_CAUSE : Fld :=
  ⟨0x048, 8, 4, .ro, 0, false, false, []⟩
def Curtain.GAIN : Fld :=
  ⟨0x04c, 0, 32, .ro, 0x10000000, false, false, []⟩
def Curtain.CLOSED_AT_LO : Fld :=
  ⟨0x050, 0, 32, .ro, 0, false, false, []⟩
def Curtain.CLOSED_AT_HI : Fld :=
  ⟨0x054, 0, 32, .ro, 0, false, false, []⟩

/-- Every field of Curtain (R204). -/
def Curtain.fields : List Fld :=
  [Curtain.CTRL_CLOSE, Curtain.CTRL_RELEASE, Curtain.CTRL_AUTO_RELEASE, Curtain.CTRL_ANNOUNCE, Curtain.CTRL_THERM_EN, Curtain.CTRL_PIN_EN, Curtain.OPEN_RAMP, Curtain.STATUS_STATE] ++
  [Curtain.STATUS_CAUSE, Curtain.GAIN, Curtain.CLOSED_AT_LO, Curtain.CLOSED_AT_HI]

/-! Correct (R215) -/

def Correct.POOL_USED : Fld :=
  ⟨0x040, 0, 23, .ro, 0, false, false, []⟩
def Correct.STORE_USED : Fld :=
  ⟨0x044, 0, 24, .ro, 0, false, false, []⟩
def Correct.LOAD_LAST : Fld :=
  ⟨0x048, 0, 8, .ro, 0, false, false, []⟩
def Correct.LOAD_PEAK : Fld :=
  ⟨0x048, 8, 8, .cor, 0, false, false, []⟩
def Correct.COUNT_FADING : Fld :=
  ⟨0x04c, 0, 10, .ro, 0, false, false, []⟩
def Correct.COUNT_WARM : Fld :=
  ⟨0x04c, 16, 10, .ro, 0, false, false, []⟩
def Correct.SWAP_COUNT : Fld :=
  ⟨0x050, 0, 32, .ro, 0, false, false, []⟩
def Correct.SAT_COUNT : Fld :=
  ⟨0x054, 0, 32, .ro, 0, false, false, []⟩
def Correct.RESTORE_KEPT : Fld :=
  ⟨0x058, 0, 10, .ro, 0, false, false, []⟩
def Correct.RESTORE_DROPPED : Fld :=
  ⟨0x058, 16, 10, .ro, 0, false, false, []⟩

/-- Every field of Correct (R215). -/
def Correct.fields : List Fld :=
  [Correct.POOL_USED, Correct.STORE_USED, Correct.LOAD_LAST, Correct.LOAD_PEAK, Correct.COUNT_FADING, Correct.COUNT_WARM, Correct.SWAP_COUNT, Correct.SAT_COUNT] ++
  [Correct.RESTORE_KEPT, Correct.RESTORE_DROPPED]

/-! Capture (R241, R242) -/

def Capture.SERVICE_DONE : Fld :=
  ⟨0x040, 0, 1, .wo, 0, false, false, []⟩
def Capture.SERVICE_STATE : Fld :=
  ⟨0x040, 8, 2, .ro, 1, false, false, []⟩
def Capture.CLK_EN_PDM0 : Fld :=
  ⟨0x044, 0, 1, .rwi, 0, false, false, []⟩
def Capture.CLK_EN_PDM1 : Fld :=
  ⟨0x044, 1, 1, .rwi, 0, false, false, []⟩
def Capture.CLK_EN_SNS0 : Fld :=
  ⟨0x044, 2, 1, .rwi, 0, false, false, []⟩
def Capture.CLK_EN_SNS1 : Fld :=
  ⟨0x044, 3, 1, .rwi, 0, false, false, []⟩
def Capture.CHAIN_EVT_LO : Fld :=
  ⟨0x048, 0, 32, .ro, 0, false, false, []⟩
def Capture.CHAIN_EVT_HI : Fld :=
  ⟨0x04c, 0, 32, .ro, 0, false, false, []⟩
def Capture.C2M_ACTIVE : Fld :=
  ⟨0x050, 0, 3, .ro, 0, false, false, []⟩
def Capture.SCAN_VALUE (a : Nat) (i : Nat) : Fld :=
  ⟨(0x80 + 16 * a + 4 * (i / 2)), (16 * (i % 2)), 16, .ro, 0, false, false, []⟩
def Capture.CH_CTRL_EN (c : Nat) : Fld :=
  ⟨(0x100 + 0x20 * c + 0x00), 0, 1, .rw, 0, true, false, []⟩
def Capture.CH_CTRL_TEST (c : Nat) : Fld :=
  ⟨(0x100 + 0x20 * c + 0x00), 1, 1, .rw, 0, false, false, []⟩
def Capture.CH_CTRL_SCMODE (c : Nat) : Fld :=
  ⟨(0x100 + 0x20 * c + 0x00), 2, 1, .rw, 0, true, false, []⟩
def Capture.CH_CTRL_DCB (c : Nat) : Fld :=
  ⟨(0x100 + 0x20 * c + 0x00), 4, 2, .rw, 0, false, true, [(0, 2)]⟩
def Capture.CH_CTRL_DCB_FC (c : Nat) : Fld :=
  ⟨(0x100 + 0x20 * c + 0x00), 8, 3, .rw, 0, false, true, [(0, 4)]⟩
def Capture.CH_CTRL_INPUT (c : Nat) : Fld :=
  ⟨(0x100 + 0x20 * c + 0x00), 16, 4, .rw, (chainInputReset c), true, true, [(0, 10)]⟩
def Capture.CH_DECIM_R (c : Nat) : Fld :=
  ⟨(0x100 + 0x20 * c + 0x04), 0, 10, .rw, (chainDecimReset c), true, false, [(8, 512)]⟩
def Capture.CH_DECIM_HB_COUNT (c : Nat) : Fld :=
  ⟨(0x100 + 0x20 * c + 0x04), 12, 2, .rw, 2, true, true, [(0, 2)]⟩
def Capture.CH_DECIM_FIR_EN (c : Nat) : Fld :=
  ⟨(0x100 + 0x20 * c + 0x04), 16, 1, .rw, 1, true, false, []⟩
def Capture.CH_SCAN_LEN (c : Nat) : Fld :=
  ⟨(0x100 + 0x20 * c + 0x04), 24, 3, .rw, 1, true, false, []⟩
def Capture.CH_GAIN (c : Nat) : Fld :=
  ⟨(0x100 + 0x20 * c + 0x08), 0, 32, .rw, 0x10000000, false, false, []⟩
def Capture.CH_SCAN_LIST (c : Nat) : Fld :=
  ⟨(0x100 + 0x20 * c + 0x0c), 0, 32, .rw, 0, true, false, []⟩
def Capture.CH_STATUS_VALID (c : Nat) : Fld :=
  ⟨(0x100 + 0x20 * c + 0x10), 0, 1, .ro, 0, false, false, []⟩
def Capture.CH_STATUS_LINEAR (c : Nat) : Fld :=
  ⟨(0x100 + 0x20 * c + 0x10), 1, 1, .ro, 0, false, false, []⟩
def Capture.CH_STATUS_SWITCHING (c : Nat) : Fld :=
  ⟨(0x100 + 0x20 * c + 0x10), 2, 1, .ro, 0, false, false, []⟩
def Capture.CH_STATUS_SERVICE (c : Nat) : Fld :=
  ⟨(0x100 + 0x20 * c + 0x10), 4, 4, .ro, 0, false, false, []⟩
def Capture.CH_STATUS_GROUP_DELAY (c : Nat) : Fld :=
  ⟨(0x100 + 0x20 * c + 0x14), 0, 24, .ro, 0, false, false, []⟩
def Capture.CH_STATUS_GD_MIN (c : Nat) : Fld :=
  ⟨(0x100 + 0x20 * c + 0x18), 0, 24, .ro, 0, false, false, []⟩
def Capture.CH_PEAK (c : Nat) : Fld :=
  ⟨(0x100 + 0x20 * c + 0x1c), 0, 16, .cor, 0, false, false, []⟩
def Capture.CH_EVT_FLAGS (c : Nat) : Fld :=
  ⟨(0x100 + 0x20 * c + 0x1c), 16, 4, .cor, 0, false, false, []⟩
def Capture.CH_EVT_EN (c : Nat) : Fld :=
  ⟨(0x100 + 0x20 * c + 0x1c), 24, 4, .rwi, 0, false, false, []⟩

/-- Every field of Capture (R241, R242). -/
def Capture.fields : List Fld :=
  [Capture.SERVICE_DONE, Capture.SERVICE_STATE, Capture.CLK_EN_PDM0, Capture.CLK_EN_PDM1, Capture.CLK_EN_SNS0, Capture.CLK_EN_SNS1, Capture.CHAIN_EVT_LO, Capture.CHAIN_EVT_HI] ++
  [Capture.C2M_ACTIVE] ++
  (List.range 8).flatMap (fun a => (List.range 8).map (Capture.SCAN_VALUE a)) ++
  (List.range 56).map Capture.CH_CTRL_EN ++
  (List.range 56).map Capture.CH_CTRL_TEST ++
  (List.range 56).map Capture.CH_CTRL_SCMODE ++
  (List.range 56).map Capture.CH_CTRL_DCB ++
  (List.range 56).map Capture.CH_CTRL_DCB_FC ++
  (List.range 56).map Capture.CH_CTRL_INPUT ++
  (List.range 56).map Capture.CH_DECIM_R ++
  (List.range 56).map Capture.CH_DECIM_HB_COUNT ++
  (List.range 56).map Capture.CH_DECIM_FIR_EN ++
  (List.range 56).map Capture.CH_SCAN_LEN ++
  (List.range 56).map Capture.CH_GAIN ++
  (List.range 56).map Capture.CH_SCAN_LIST ++
  (List.range 56).map Capture.CH_STATUS_VALID ++
  (List.range 56).map Capture.CH_STATUS_LINEAR ++
  (List.range 56).map Capture.CH_STATUS_SWITCHING ++
  (List.range 56).map Capture.CH_STATUS_SERVICE ++
  (List.range 56).map Capture.CH_STATUS_GROUP_DELAY ++
  (List.range 56).map Capture.CH_STATUS_GD_MIN ++
  (List.range 56).map Capture.CH_PEAK ++
  (List.range 56).map Capture.CH_EVT_FLAGS ++
  (List.range 56).map Capture.CH_EVT_EN

/-! Measure (R246, R259) -/

def Measure.GEN_CTRL_TYPE (g : Nat) : Fld :=
  ⟨(0x200 + 0x20 * g + 0x00), 0, 3, .rw, 0, false, true, [(0, 4)]⟩
def Measure.GEN_CTRL_RUN (g : Nat) : Fld :=
  ⟨(0x200 + 0x20 * g + 0x00), 8, 1, .rw, 0, false, false, []⟩
def Measure.GEN_CTRL_HELD (g : Nat) : Fld :=
  ⟨(0x200 + 0x20 * g + 0x00), 12, 1, .ro, 0, false, false, []⟩
def Measure.GEN_LEVEL (g : Nat) : Fld :=
  ⟨(0x200 + 0x20 * g + 0x04), 0, 32, .rw, 0x8000000, false, false, [(0, 268435456)]⟩
def Measure.GEN_F1 (g : Nat) : Fld :=
  ⟨(0x200 + 0x20 * g + 0x08), 0, 32, .rw, 0x3e80000, false, false, []⟩
def Measure.GEN_F2 (g : Nat) : Fld :=
  ⟨(0x200 + 0x20 * g + 0x0c), 0, 32, .rw, 0x4e200000, false, false, []⟩
def Measure.GEN_LENGTH (g : Nat) : Fld :=
  ⟨(0x200 + 0x20 * g + 0x10), 0, 5, .rw, 0x10, false, false, []⟩
def Measure.GEN_SEED (g : Nat) : Fld :=
  ⟨(0x200 + 0x20 * g + 0x14), 0, 32, .rw, 1, false, false, []⟩
def Measure.GEN_FADE (g : Nat) : Fld :=
  ⟨(0x200 + 0x20 * g + 0x18), 0, 16, .rw, 0x50, false, false, []⟩
def Measure.GEN_POS (g : Nat) : Fld :=
  ⟨(0x200 + 0x20 * g + 0x1c), 0, 32, .ro, 0, false, false, []⟩
def Measure.STATE : Fld :=
  ⟨0x040, 0, 3, .ro, 0, false, false, []⟩
def Measure.HANDLE : Fld :=
  ⟨0x044, 0, 32, .ro, 0, false, false, []⟩
def Measure.STEP_DONE : Fld :=
  ⟨0x048, 0, 32, .ro, 0, false, false, []⟩
def Measure.STEP_TOTAL : Fld :=
  ⟨0x04c, 0, 32, .ro, 0, false, false, []⟩
def Measure.NOW_OUTPUT : Fld :=
  ⟨0x050, 0, 10, .ro, 0, false, false, []⟩
def Measure.NOW_SET : Fld :=
  ⟨0x050, 16, 2, .ro, 0, false, false, []⟩
def Measure.NOW_PLAY : Fld :=
  ⟨0x050, 20, 8, .ro, 0, false, false, []⟩
def Measure.FRAMES_USED : Fld :=
  ⟨0x054, 0, 32, .ro, 0, false, false, []⟩
def Measure.FRAMES_SKIPPED : Fld :=
  ⟨0x058, 0, 32, .ro, 0, false, false, []⟩

/-- Every field of Measure (R246, R259). -/
def Measure.fields : List Fld :=
  [Measure.STATE, Measure.HANDLE, Measure.STEP_DONE, Measure.STEP_TOTAL, Measure.NOW_OUTPUT, Measure.NOW_SET, Measure.NOW_PLAY, Measure.FRAMES_USED] ++
  [Measure.FRAMES_SKIPPED] ++
  (List.range 16).map Measure.GEN_CTRL_TYPE ++
  (List.range 16).map Measure.GEN_CTRL_RUN ++
  (List.range 16).map Measure.GEN_CTRL_HELD ++
  (List.range 16).map Measure.GEN_LEVEL ++
  (List.range 16).map Measure.GEN_F1 ++
  (List.range 16).map Measure.GEN_F2 ++
  (List.range 16).map Measure.GEN_LENGTH ++
  (List.range 16).map Measure.GEN_SEED ++
  (List.range 16).map Measure.GEN_FADE ++
  (List.range 16).map Measure.GEN_POS

/-! Protect (R262, R270) -/

def Protect.P_F0 (p : Nat) : Fld :=
  ⟨(0x100 + 0x20 * p + 0x00), 0, 16, .rw, 0x320, false, false, [(160, 16000)]⟩
def Protect.P_QTS (p : Nat) : Fld :=
  ⟨(0x100 + 0x20 * p + 0x00), 16, 16, .rw, 0xb50, false, false, [(820, 16384)]⟩
def Protect.P_KX (p : Nat) : Fld :=
  ⟨(0x100 + 0x20 * p + 0x04), 0, 32, .rw, 0xa0000, false, false, []⟩
def Protect.P_XMAX (p : Nat) : Fld :=
  ⟨(0x100 + 0x20 * p + 0x08), 0, 16, .rw, 0x500, false, false, [(26, 25600)]⟩
def Protect.P_X_RELEASE (p : Nat) : Fld :=
  ⟨(0x100 + 0x20 * p + 0x08), 16, 16, .rw, 0x32, false, false, [(1, 1000)]⟩
def Protect.P_P_FS (p : Nat) : Fld :=
  ⟨(0x100 + 0x20 * p + 0x0c), 0, 16, .rw, 0x640, false, false, []⟩
def Protect.P_COIL (p : Nat) : Fld :=
  ⟨(0x100 + 0x20 * p + 0x0c), 16, 1, .rw, 0, false, false, []⟩
def Protect.P_RTH_VC (p : Nat) : Fld :=
  ⟨(0x100 + 0x20 * p + 0x10), 0, 16, .rw, 0x200, false, false, []⟩
def Protect.P_TAU_VC (p : Nat) : Fld :=
  ⟨(0x100 + 0x20 * p + 0x10), 16, 16, .rw, 0x800, false, false, [(26, 65280)]⟩
def Protect.P_RTH_MAG (p : Nat) : Fld :=
  ⟨(0x100 + 0x20 * p + 0x14), 0, 16, .rw, 0x180, false, false, []⟩
def Protect.P_TAU_MAG (p : Nat) : Fld :=
  ⟨(0x100 + 0x20 * p + 0x14), 16, 16, .rw, 0x12c, false, false, [(1, 65535)]⟩
def Protect.P_T_FOLD (p : Nat) : Fld :=
  ⟨(0x100 + 0x20 * p + 0x18), 0, 8, .rw, 0x96, false, false, [(40, 240)]⟩
def Protect.P_T_MAX (p : Nat) : Fld :=
  ⟨(0x100 + 0x20 * p + 0x18), 8, 8, .rw, 0xb4, false, false, []⟩
def Protect.P_RE0 (p : Nat) : Fld :=
  ⟨(0x100 + 0x20 * p + 0x1c), 0, 16, .rw, 0x600, false, false, []⟩
def Protect.T_AMB : Fld :=
  ⟨0x040, 0, 16, .rwi, 0x1900, false, false, []⟩
def Protect.COUNT_XLIM : Fld :=
  ⟨0x044, 0, 10, .ro, 0, false, false, []⟩
def Protect.COUNT_FOLD : Fld :=
  ⟨0x044, 16, 10, .ro, 0, false, false, []⟩
def Protect.COUNT_SHUT : Fld :=
  ⟨0x048, 0, 10, .ro, 0, false, false, []⟩
def Protect.T_HOT : Fld :=
  ⟨0x04c, 0, 16, .ro, 0x1900, false, false, []⟩
def Protect.HOT_OUT : Fld :=
  ⟨0x050, 0, 10, .ro, 0, false, false, []⟩

/-- Every field of Protect (R262, R270). -/
def Protect.fields : List Fld :=
  [Protect.T_AMB, Protect.COUNT_XLIM, Protect.COUNT_FOLD, Protect.COUNT_SHUT, Protect.T_HOT, Protect.HOT_OUT] ++
  (List.range 48).map Protect.P_F0 ++
  (List.range 48).map Protect.P_QTS ++
  (List.range 48).map Protect.P_KX ++
  (List.range 48).map Protect.P_XMAX ++
  (List.range 48).map Protect.P_X_RELEASE ++
  (List.range 48).map Protect.P_P_FS ++
  (List.range 48).map Protect.P_COIL ++
  (List.range 48).map Protect.P_RTH_VC ++
  (List.range 48).map Protect.P_TAU_VC ++
  (List.range 48).map Protect.P_RTH_MAG ++
  (List.range 48).map Protect.P_TAU_MAG ++
  (List.range 48).map Protect.P_T_FOLD ++
  (List.range 48).map Protect.P_T_MAX ++
  (List.range 48).map Protect.P_RE0

/-! PsGlobal (R287) -/

def PsGlobal.M_MAX : Fld :=
  ⟨0x040, 0, 16, .rw, 0x7ae1, false, false, [(16384, 32113)]⟩
def PsGlobal.SUPPLY_CHAIN (g : Nat) : Fld :=
  ⟨(0x44 + 0xc * g), 0, 6, .rw, 0x3f, false, true, [(48, 55), (63, 63)]⟩
def PsGlobal.SUPPLY_SCALE (g : Nat) : Fld :=
  ⟨(0x48 + 0xc * g), 0, 32, .rw, 0x640000, false, false, []⟩
def PsGlobal.SUPPLY_NOMINAL (g : Nat) : Fld :=
  ⟨(0x4c + 0xc * g), 0, 32, .rw, 0x300000, false, false, []⟩
def PsGlobal.STAGGER (k : Nat) : Fld :=
  ⟨(0x060 + 4 * k), 0, 12, .rw, (250 * k), true, false, [(0, 3999)]⟩
def PsGlobal.RUNNING : Fld :=
  ⟨0x0a0, 0, 16, .ro, 0, false, false, []⟩
def PsGlobal.LATCHED : Fld :=
  ⟨0x0a0, 16, 16, .ro, 0, false, false, []⟩
def PsGlobal.V_SUP0 : Fld :=
  ⟨0x0a4, 0, 16, .ro, 0, false, false, []⟩
def PsGlobal.V_SUP1 : Fld :=
  ⟨0x0a4, 16, 16, .ro, 0, false, false, []⟩

/-- Every field of PsGlobal (R287). -/
def PsGlobal.fields : List Fld :=
  [PsGlobal.M_MAX, PsGlobal.RUNNING, PsGlobal.LATCHED, PsGlobal.V_SUP0, PsGlobal.V_SUP1] ++
  (List.range 2).map PsGlobal.SUPPLY_CHAIN ++
  (List.range 2).map PsGlobal.SUPPLY_SCALE ++
  (List.range 2).map PsGlobal.SUPPLY_NOMINAL ++
  (List.range 16).map PsGlobal.STAGGER

/-! Ps (R288) -/

def Ps.CTRL_RECOVER : Fld :=
  ⟨0x040, 1, 1, .wo, 0, false, false, []⟩
def Ps.CTRL_PILOT_EN : Fld :=
  ⟨0x040, 2, 1, .rw, 1, false, false, []⟩
def Ps.CTRL_FF_EN : Fld :=
  ⟨0x040, 3, 1, .rw, 1, false, false, []⟩
def Ps.CTRL_CLOSED_EN : Fld :=
  ⟨0x040, 4, 1, .rw, 1, false, false, []⟩
def Ps.SOURCE (k : Nat) : Fld :=
  ⟨0x044, 0, 10, .rw, k, true, false, []⟩
def Ps.ILIM : Fld :=
  ⟨0x048, 0, 16, .rw, 0x6000, false, false, []⟩
def Ps.DEADTIME : Fld :=
  ⟨0x04c, 0, 8, .rw, 0x10, true, false, [(6, 154)]⟩
def Ps.V_FS : Fld :=
  ⟨0x050, 0, 32, .rw, 0x320000, false, false, []⟩
def Ps.ISNS_SCALE : Fld :=
  ⟨0x054, 0, 32, .rw, 0x140000, false, false, []⟩
def Ps.VSNS_SCALE : Fld :=
  ⟨0x058, 0, 32, .rw, 0x640000, false, false, []⟩
def Ps.RETRY_EN : Fld :=
  ⟨0x05c, 0, 1, .rwi, 0, false, false, []⟩
def Ps.RETRY_DELAY : Fld :=
  ⟨0x05c, 4, 7, .rwi, 10, false, false, [(1, 100)]⟩
def Ps.RETRY_MAX : Fld :=
  ⟨0x05c, 16, 4, .rwi, 8, false, false, [(1, 8)]⟩
def Ps.RAMP : Fld :=
  ⟨0x060, 0, 16, .rw, 0x320, false, false, []⟩
def Ps.STATE : Fld :=
  ⟨0x100, 0, 3, .ro, 0, false, false, []⟩
def Ps.LATCH_CAUSE : Fld :=
  ⟨0x100, 4, 3, .ro, 0, false, false, []⟩
def Ps.FAULT_PIN : Fld :=
  ⟨0x100, 8, 1, .ro, 0, false, false, []⟩
def Ps.LIMITING : Fld :=
  ⟨0x100, 9, 1, .ro, 0, false, false, []⟩
def Ps.ATTEMPTS : Fld :=
  ⟨0x100, 12, 4, .ro, 0, false, false, []⟩
def Ps.CONSEC : Fld :=
  ⟨0x100, 16, 6, .ro, 0, false, false, []⟩
def Ps.R_COIL : Fld :=
  ⟨0x104, 0, 16, .ro, 0, false, false, []⟩
def Ps.R_VALID : Fld :=
  ⟨0x104, 16, 1, .ro, 0, false, false, []⟩
def Ps.R_AGE : Fld :=
  ⟨0x104, 24, 8, .ro, 0, false, false, []⟩
def Ps.I_PEAK : Fld :=
  ⟨0x108, 0, 16, .cor, 0, false, false, []⟩
def Ps.LIMIT_COUNT : Fld :=
  ⟨0x10c, 0, 32, .ro, 0, false, false, []⟩
def Ps.LATCH_COUNT : Fld :=
  ⟨0x110, 0, 32, .ro, 0, false, false, []⟩
def Ps.LATCHED_AT_LO : Fld :=
  ⟨0x114, 0, 32, .ro, 0, false, false, []⟩
def Ps.LATCHED_AT_HI : Fld :=
  ⟨0x118, 0, 32, .ro, 0, false, false, []⟩

/-- Every field of Ps (R288). -/
def Ps.fields (k : Nat) : List Fld :=
  [Ps.CTRL_RECOVER, Ps.CTRL_PILOT_EN, Ps.CTRL_FF_EN, Ps.CTRL_CLOSED_EN, Ps.ILIM, Ps.DEADTIME, Ps.V_FS, Ps.ISNS_SCALE] ++
  [Ps.VSNS_SCALE, Ps.RETRY_EN, Ps.RETRY_DELAY, Ps.RETRY_MAX, Ps.RAMP, Ps.STATE, Ps.LATCH_CAUSE, Ps.FAULT_PIN] ++
  [Ps.LIMITING, Ps.ATTEMPTS, Ps.CONSEC, Ps.R_COIL, Ps.R_VALID, Ps.R_AGE, Ps.I_PEAK, Ps.LIMIT_COUNT] ++
  [Ps.LATCH_COUNT, Ps.LATCHED_AT_LO, Ps.LATCHED_AT_HI] ++
  [Ps.SOURCE k]

/-! Tdm (R312) -/

def Tdm.RX_CFG_EN : Fld :=
  ⟨0x40, 0, 1, .rw, 0, true, false, []⟩
def Tdm.TX_CFG_EN : Fld :=
  ⟨0x60, 0, 1, .rw, 0, true, false, []⟩
def Tdm.RX_CFG_FORMAT : Fld :=
  ⟨0x40, 1, 2, .rw, 0, true, true, [(0, 2)]⟩
def Tdm.TX_CFG_FORMAT : Fld :=
  ⟨0x60, 1, 2, .rw, 0, true, true, [(0, 2)]⟩
def Tdm.RX_CFG_MASTER : Fld :=
  ⟨0x40, 3, 1, .rw, 0, true, false, []⟩
def Tdm.TX_CFG_MASTER : Fld :=
  ⟨0x60, 3, 1, .rw, 0, true, false, []⟩
def Tdm.RX_CFG_CLKSRC : Fld :=
  ⟨0x40, 4, 2, .rw, 0, true, false, []⟩
def Tdm.TX_CFG_CLKSRC : Fld :=
  ⟨0x60, 4, 2, .rw, 0, true, false, []⟩
def Tdm.RX_CFG_SLOTS : Fld :=
  ⟨0x40, 6, 5, .rw, 1, true, false, [(1, 31)]⟩
def Tdm.TX_CFG_SLOTS : Fld :=
  ⟨0x60, 6, 5, .rw, 1, true, false, [(1, 31)]⟩
def Tdm.RX_CFG_WIDTH : Fld :=
  ⟨0x40, 12, 2, .rw, 2, true, true, [(0, 2)]⟩
def Tdm.TX_CFG_WIDTH : Fld :=
  ⟨0x60, 12, 2, .rw, 2, true, true, [(0, 2)]⟩
def Tdm.RX_CFG_DATA_BITS : Fld :=
  ⟨0x40, 14, 2, .rw, 1, true, true, [(0, 2)]⟩
def Tdm.TX_CFG_DATA_BITS : Fld :=
  ⟨0x60, 14, 2, .rw, 1, true, true, [(0, 2)]⟩
def Tdm.RX_CFG_FS_INV : Fld :=
  ⟨0x40, 16, 1, .rw, 0, true, false, []⟩
def Tdm.TX_CFG_FS_INV : Fld :=
  ⟨0x60, 16, 1, .rw, 0, true, false, []⟩
def Tdm.RX_CFG_BCLK_INV : Fld :=
  ⟨0x40, 17, 1, .rw, 0, true, false, []⟩
def Tdm.TX_CFG_BCLK_INV : Fld :=
  ⟨0x60, 17, 1, .rw, 0, true, false, []⟩
def Tdm.RX_CFG_FS_DELAY : Fld :=
  ⟨0x40, 18, 1, .rw, 1, true, false, []⟩
def Tdm.TX_CFG_FS_DELAY : Fld :=
  ⟨0x60, 18, 1, .rw, 1, true, false, []⟩
def Tdm.RX_CFG_FS_WIDTH : Fld :=
  ⟨0x40, 19, 2, .rw, 0, true, true, [(0, 2)]⟩
def Tdm.TX_CFG_FS_WIDTH : Fld :=
  ⟨0x60, 19, 2, .rw, 0, true, true, [(0, 2)]⟩
def Tdm.RX_CFG_ASRC : Fld :=
  ⟨0x40, 21, 1, .rw, 1, true, false, []⟩
def Tdm.TX_CFG_ASRC : Fld :=
  ⟨0x60, 21, 1, .rw, 1, true, false, []⟩
def Tdm.RX_CFG_BCLK_DIV : Fld :=
  ⟨0x40, 24, 8, .rw, 15, true, false, []⟩
def Tdm.TX_CFG_BCLK_DIV : Fld :=
  ⟨0x60, 24, 8, .rw, 15, true, false, []⟩
def Tdm.RX_MASK : Fld :=
  ⟨0x044, 0, 32, .rw, 0, false, false, []⟩
def Tdm.RX_RAMP : Fld :=
  ⟨0x048, 0, 16, .rw, 0x10, false, false, []⟩
def Tdm.TX_MASK : Fld :=
  ⟨0x064, 0, 32, .rw, 0, false, false, []⟩
def Tdm.TX_RAMP : Fld :=
  ⟨0x068, 0, 16, .rw, 0x10, false, false, []⟩
def Tdm.IDLE_DRIVE : Fld :=
  ⟨0x06c, 0, 1, .rw, 0, false, false, []⟩
def Tdm.TX_MAP (s : Nat) : Fld :=
  ⟨(0x080 + 4 * s), 0, 10, .rw, 0, false, false, []⟩
def Tdm.STATUS_RX_STATE : Fld :=
  ⟨0x100, 0, 3, .ro, 0, false, false, []⟩
def Tdm.STATUS_RX_SYNC : Fld :=
  ⟨0x100, 4, 1, .ro, 0, false, false, []⟩
def Tdm.STATUS_TX_STATE : Fld :=
  ⟨0x100, 8, 3, .ro, 0, false, false, []⟩
def Tdm.STATUS_TX_SYNC : Fld :=
  ⟨0x100, 12, 1, .ro, 0, false, false, []⟩
def Tdm.RX_RATE : Fld :=
  ⟨0x104, 0, 32, .ro, 0, false, false, []⟩
def Tdm.TX_RATE : Fld :=
  ⟨0x108, 0, 32, .ro, 0, false, false, []⟩
def Tdm.RX_RATIO : Fld :=
  ⟨0x10c, 0, 32, .ro, 0, false, false, []⟩
def Tdm.TX_RATIO : Fld :=
  ⟨0x110, 0, 32, .ro, 0, false, false, []⟩
def Tdm.RX_BAD : Fld :=
  ⟨0x114, 0, 32, .ro, 0, false, false, []⟩
def Tdm.TX_BAD : Fld :=
  ⟨0x118, 0, 32, .ro, 0, false, false, []⟩
def Tdm.RX_STOPS : Fld :=
  ⟨0x11c, 0, 16, .ro, 0, false, false, []⟩
def Tdm.TX_STOPS : Fld :=
  ⟨0x11c, 16, 16, .ro, 0, false, false, []⟩

/-- Every field of Tdm (R312). -/
def Tdm.fields : List Fld :=
  [Tdm.RX_CFG_EN, Tdm.TX_CFG_EN, Tdm.RX_CFG_FORMAT, Tdm.TX_CFG_FORMAT, Tdm.RX_CFG_MASTER, Tdm.TX_CFG_MASTER, Tdm.RX_CFG_CLKSRC, Tdm.TX_CFG_CLKSRC] ++
  [Tdm.RX_CFG_SLOTS, Tdm.TX_CFG_SLOTS, Tdm.RX_CFG_WIDTH, Tdm.TX_CFG_WIDTH, Tdm.RX_CFG_DATA_BITS, Tdm.TX_CFG_DATA_BITS, Tdm.RX_CFG_FS_INV, Tdm.TX_CFG_FS_INV] ++
  [Tdm.RX_CFG_BCLK_INV, Tdm.TX_CFG_BCLK_INV, Tdm.RX_CFG_FS_DELAY, Tdm.TX_CFG_FS_DELAY, Tdm.RX_CFG_FS_WIDTH, Tdm.TX_CFG_FS_WIDTH, Tdm.RX_CFG_ASRC, Tdm.TX_CFG_ASRC] ++
  [Tdm.RX_CFG_BCLK_DIV, Tdm.TX_CFG_BCLK_DIV, Tdm.RX_MASK, Tdm.RX_RAMP, Tdm.TX_MASK, Tdm.TX_RAMP, Tdm.IDLE_DRIVE, Tdm.STATUS_RX_STATE] ++
  [Tdm.STATUS_RX_SYNC, Tdm.STATUS_TX_STATE, Tdm.STATUS_TX_SYNC, Tdm.RX_RATE, Tdm.TX_RATE, Tdm.RX_RATIO, Tdm.TX_RATIO, Tdm.RX_BAD] ++
  [Tdm.TX_BAD, Tdm.RX_STOPS, Tdm.TX_STOPS] ++
  (List.range 32).map Tdm.TX_MAP

/-! AesRx (R313) -/

def AesRx.CTRL_EN : Fld :=
  ⟨0x040, 0, 1, .rw, 0, true, false, []⟩
def AesRx.CTRL_DEEMPH : Fld :=
  ⟨0x040, 1, 2, .rw, 1, false, true, [(0, 2)]⟩
def AesRx.CTRL_NA_DETECT : Fld :=
  ⟨0x040, 3, 1, .rw, 1, false, false, []⟩
def AesRx.CTRL_NA_CAPTURE : Fld :=
  ⟨0x040, 4, 1, .rw, 0, false, false, []⟩
def AesRx.CTRL_VALIDITY_MUTE : Fld :=
  ⟨0x040, 5, 1, .rw, 0, false, false, []⟩
def AesRx.RAMP : Fld :=
  ⟨0x044, 0, 16, .rw, 0x10, false, false, []⟩
def AesRx.NA_BUF_LO : Fld :=
  ⟨0x048, 0, 32, .rwi, 0, false, false, []⟩
def AesRx.NA_BUF_HI : Fld :=
  ⟨0x04c, 0, 32, .rwi, 0, false, false, []⟩
def AesRx.NA_BUF_SIZE : Fld :=
  ⟨0x050, 0, 24, .rwi, 0, false, false, []⟩
def AesRx.NA_RDPTR : Fld :=
  ⟨0x054, 0, 24, .rwi, 0, false, false, []⟩
def AesRx.NA_WRPTR : Fld :=
  ⟨0x058, 0, 24, .ro, 0, false, false, []⟩
def AesRx.STATE : Fld :=
  ⟨0x100, 0, 3, .ro, 0, false, false, []⟩
def AesRx.NONAUDIO : Fld :=
  ⟨0x100, 4, 1, .ro, 0, false, false, []⟩
def AesRx.NA_SOURCE : Fld :=
  ⟨0x100, 5, 1, .ro, 0, false, false, []⟩
def AesRx.CONSUMER : Fld :=
  ⟨0x100, 6, 1, .ro, 0, false, false, []⟩
def AesRx.CS_CRC_ERR : Fld :=
  ⟨0x100, 7, 1, .ro, 0, false, false, []⟩
def AesRx.EMPH : Fld :=
  ⟨0x100, 8, 2, .ro, 0, false, false, []⟩
def AesRx.DEEMPH_ACTIVE : Fld :=
  ⟨0x100, 10, 1, .ro, 0, false, false, []⟩
def AesRx.RATE : Fld :=
  ⟨0x104, 0, 32, .ro, 0, false, false, []⟩
def AesRx.RATIO : Fld :=
  ⟨0x108, 0, 32, .ro, 0, false, false, []⟩
def AesRx.BAD : Fld :=
  ⟨0x10c, 0, 32, .ro, 0, false, false, []⟩
def AesRx.CS_A (i : Nat) : Fld :=
  ⟨(0x110 + 4 * i), 0, 32, .ro, 0, false, false, []⟩
def AesRx.CS_B (i : Nat) : Fld :=
  ⟨(0x128 + 4 * i), 0, 32, .ro, 0, false, false, []⟩
def AesRx.BURST_PC : Fld :=
  ⟨0x140, 0, 16, .ro, 0, false, false, []⟩
def AesRx.BURST_PD : Fld :=
  ⟨0x140, 16, 16, .ro, 0, false, false, []⟩

/-- Every field of AesRx (R313). -/
def AesRx.fields : List Fld :=
  [AesRx.CTRL_EN, AesRx.CTRL_DEEMPH, AesRx.CTRL_NA_DETECT, AesRx.CTRL_NA_CAPTURE, AesRx.CTRL_VALIDITY_MUTE, AesRx.RAMP, AesRx.NA_BUF_LO, AesRx.NA_BUF_HI] ++
  [AesRx.NA_BUF_SIZE, AesRx.NA_RDPTR, AesRx.NA_WRPTR, AesRx.STATE, AesRx.NONAUDIO, AesRx.NA_SOURCE, AesRx.CONSUMER, AesRx.CS_CRC_ERR] ++
  [AesRx.EMPH, AesRx.DEEMPH_ACTIVE, AesRx.RATE, AesRx.RATIO, AesRx.BAD, AesRx.BURST_PC, AesRx.BURST_PD] ++
  (List.range 6).map AesRx.CS_A ++
  (List.range 6).map AesRx.CS_B

/-! AesTx (R314) -/

def AesTx.CTRL_EN : Fld :=
  ⟨0x040, 0, 1, .rw, 0, true, false, []⟩
def AesTx.CTRL_AUTO_RATE : Fld :=
  ⟨0x040, 1, 1, .rw, 1, false, false, []⟩
def AesTx.SRC_A : Fld :=
  ⟨0x044, 0, 10, .rw, 0, false, false, []⟩
def AesTx.SRC_B : Fld :=
  ⟨0x048, 0, 10, .rw, 0, false, false, []⟩
def AesTx.CS_A (i : Nat) : Fld :=
  ⟨(0x050 + 4 * i), 0, 32, .rw, 0, false, false, []⟩
def AesTx.CS_B (i : Nat) : Fld :=
  ⟨(0x068 + 4 * i), 0, 32, .rw, 0, false, false, []⟩
def AesTx.STATE : Fld :=
  ⟨0x100, 0, 2, .ro, 0, false, false, []⟩
def AesTx.CS_BLOCKS : Fld :=
  ⟨0x104, 0, 32, .ro, 0, false, false, []⟩

/-- Every field of AesTx (R314). -/
def AesTx.fields : List Fld :=
  [AesTx.CTRL_EN, AesTx.CTRL_AUTO_RATE, AesTx.SRC_A, AesTx.SRC_B, AesTx.STATE, AesTx.CS_BLOCKS] ++
  (List.range 6).map AesTx.CS_A ++
  (List.range 6).map AesTx.CS_B

/-! Asrc (R315) -/

def Asrc.CH_USED : Fld :=
  ⟨0x040, 0, 11, .ro, 0, false, false, []⟩
def Asrc.LOAD_LAST : Fld :=
  ⟨0x044, 0, 8, .ro, 0, false, false, []⟩
def Asrc.LOAD_PEAK : Fld :=
  ⟨0x044, 8, 8, .cor, 0, false, false, []⟩

/-- Every field of Asrc (R315). -/
def Asrc.fields : List Fld :=
  [Asrc.CH_USED, Asrc.LOAD_LAST, Asrc.LOAD_PEAK]

/-! Clocks (R315) -/

def Clocks.MCLKOUT_SEL (i : Nat) : Fld :=
  ⟨(0x100 + 4 * i), 0, 3, .rw, 0, true, true, [(0, 4)]⟩
def Clocks.MCLKIN_FREQ (i : Nat) : Fld :=
  ⟨(0x108 + 4 * i), 0, 32, .ro, 0, false, false, []⟩

/-- Every field of Clocks (R315). -/
def Clocks.fields : List Fld :=
  (List.range 2).map Clocks.MCLKOUT_SEL ++
  (List.range 2).map Clocks.MCLKIN_FREQ

/-! Streams (R325) -/

def Streams.STREAM_EVT_LO : Fld :=
  ⟨0x060, 0, 32, .ro, 0, false, false, []⟩
def Streams.STREAM_EVT_HI : Fld :=
  ⟨0x064, 0, 32, .ro, 0, false, false, []⟩
def Streams.CH_USED : Fld :=
  ⟨0x068, 0, 12, .ro, 0, false, false, []⟩
def Streams.WINDOW_BASE : Fld :=
  ⟨0x50, 3, 3, .rwi, 0, false, false, []⟩

/-- Every field of Streams (R325). -/
def Streams.fields : List Fld :=
  [Streams.STREAM_EVT_LO, Streams.STREAM_EVT_HI, Streams.CH_USED, Streams.WINDOW_BASE]

/-! Ingress (R326) -/

def Ingress.CTRL_ENABLE : Fld :=
  ⟨0x00, 0, 1, .rw, 0, false, false, []⟩
def Ingress.CTRL_PORT : Fld :=
  ⟨0x00, 1, 2, .rw, 0, true, false, []⟩
def Ingress.CTRL_FORMAT : Fld :=
  ⟨0x00, 3, 2, .rw, 0, true, true, [(0, 2)]⟩
def Ingress.CTRL_DOMAIN : Fld :=
  ⟨0x00, 5, 2, .rw, 0, false, true, [(0, 2)]⟩
def Ingress.CTRL_CB_ELIM : Fld :=
  ⟨0x00, 7, 1, .rw, 0, false, false, []⟩
def Ingress.FMT_CHANNELS : Fld :=
  ⟨0x04, 0, 7, .rw, 1, true, false, [(1, 64)]⟩
def Ingress.FMT_SAMPLE : Fld :=
  ⟨0x04, 8, 2, .rw, 1, true, false, []⟩
def Ingress.FMT_SPF : Fld :=
  ⟨0x04, 16, 7, .rw, 6, true, false, []⟩
def Ingress.STREAM_ID_LO : Fld :=
  ⟨0x08, 0, 32, .rw, 0, false, false, []⟩
def Ingress.STREAM_ID_HI : Fld :=
  ⟨0x0c, 0, 32, .rw, 0, false, false, []⟩
def Ingress.DEST_IP : Fld :=
  ⟨0x10, 0, 32, .rw, 0, false, false, []⟩
def Ingress.UDP_DPORT : Fld :=
  ⟨0x14, 0, 16, .rw, 0x138c, false, false, []⟩
def Ingress.SRC_IP : Fld :=
  ⟨0x18, 0, 32, .rw, 0, false, false, []⟩
def Ingress.SSRC : Fld :=
  ⟨0x1c, 0, 32, .rw, 0, false, false, []⟩
def Ingress.PT : Fld :=
  ⟨0x20, 0, 7, .rw, 0x60, false, false, []⟩
def Ingress.RTP_OFFSET : Fld :=
  ⟨0x24, 0, 32, .rw, 0, false, false, []⟩
def Ingress.OFFSET : Fld :=
  ⟨0x28, 0, 16, .rw, 0, false, false, []⟩
def Ingress.STATE : Fld :=
  ⟨0x40, 0, 2, .ro, 0, false, false, []⟩
def Ingress.ALT_DOMAIN : Fld :=
  ⟨0x40, 4, 1, .ro, 0, false, false, []⟩
def Ingress.PACKETS : Fld :=
  ⟨0x44, 0, 32, .ro, 0, false, false, []⟩
def Ingress.LOST : Fld :=
  ⟨0x48, 0, 32, .ro, 0, false, false, []⟩
def Ingress.LATE : Fld :=
  ⟨0x4c, 0, 32, .ro, 0, false, false, []⟩
def Ingress.EARLY : Fld :=
  ⟨0x50, 0, 32, .ro, 0, false, false, []⟩
def Ingress.FORMAT_ERR : Fld :=
  ⟨0x54, 0, 32, .ro, 0, false, false, []⟩
def Ingress.CB_DUPS : Fld :=
  ⟨0x58, 0, 32, .ro, 0, false, false, []⟩
def Ingress.MARGIN : Fld :=
  ⟨0x5c, 0, 16, .ro, 0, false, false, []⟩
def Ingress.CRF_PHASE : Fld :=
  ⟨0x60, 0, 32, .ro, 0, false, false, []⟩
def Ingress.EVT_FLAGS : Fld :=
  ⟨0x64, 16, 6, .cor, 0, false, false, []⟩
def Ingress.EVT_EN : Fld :=
  ⟨0x68, 16, 6, .rwi, 0, false, false, []⟩

/-- Every field of Ingress (R326). -/
def Ingress.fields : List Fld :=
  [Ingress.CTRL_ENABLE, Ingress.CTRL_PORT, Ingress.CTRL_FORMAT, Ingress.CTRL_DOMAIN, Ingress.CTRL_CB_ELIM, Ingress.FMT_CHANNELS, Ingress.FMT_SAMPLE, Ingress.FMT_SPF] ++
  [Ingress.STREAM_ID_LO, Ingress.STREAM_ID_HI, Ingress.DEST_IP, Ingress.UDP_DPORT, Ingress.SRC_IP, Ingress.SSRC, Ingress.PT, Ingress.RTP_OFFSET] ++
  [Ingress.OFFSET, Ingress.STATE, Ingress.ALT_DOMAIN, Ingress.PACKETS, Ingress.LOST, Ingress.LATE, Ingress.EARLY, Ingress.FORMAT_ERR] ++
  [Ingress.CB_DUPS, Ingress.MARGIN, Ingress.CRF_PHASE, Ingress.EVT_FLAGS, Ingress.EVT_EN]

/-! Egress (R330) -/

def Egress.CTRL_ENABLE : Fld :=
  ⟨0x00, 0, 1, .rw, 0, false, false, []⟩
def Egress.CTRL_PORT : Fld :=
  ⟨0x00, 1, 2, .rw, 0, true, false, []⟩
def Egress.CTRL_FORMAT : Fld :=
  ⟨0x00, 3, 2, .rw, 0, true, true, [(0, 2)]⟩
def Egress.CTRL_QUEUE : Fld :=
  ⟨0x00, 5, 3, .rw, 6, true, false, []⟩
/-- Code 3 names no class and is taken as reserved (DESIGN CHOICE, log entry 27: the table does not mark it). -/
def Egress.CTRL_CLASS : Fld :=
  ⟨0x00, 8, 2, .rw, 1, true, true, [(0, 2)]⟩
def Egress.CTRL_SR_A : Fld :=
  ⟨0x00, 10, 1, .rw, 0, true, false, []⟩
def Egress.CTRL_CB_TAG : Fld :=
  ⟨0x00, 11, 1, .rw, 0, true, false, []⟩
def Egress.CTRL_TAGGED : Fld :=
  ⟨0x00, 12, 1, .rw, 1, true, false, []⟩
def Egress.FMT_CHANNELS : Fld :=
  ⟨0x04, 0, 7, .rw, 1, true, false, [(1, 64)]⟩
def Egress.FMT_SAMPLE : Fld :=
  ⟨0x04, 8, 2, .rw, 1, true, false, []⟩
def Egress.FMT_SPF : Fld :=
  ⟨0x04, 16, 7, .rw, 6, true, false, []⟩
def Egress.FMT_CRF_INTERVAL : Fld :=
  ⟨0x04, 24, 8, .rw, 0xa0, false, false, [(1, 255)]⟩
def Egress.FIRST_OUT : Fld :=
  ⟨0x08, 0, 10, .rw, 0, false, false, []⟩
def Egress.STREAM_ID_LO : Fld :=
  ⟨0x0c, 0, 32, .rw, 0, false, false, []⟩
def Egress.STREAM_ID_HI : Fld :=
  ⟨0x10, 0, 32, .rw, 0, false, false, []⟩
def Egress.DMAC_LO : Fld :=
  ⟨0x14, 0, 32, .rw, 0, false, false, []⟩
def Egress.DMAC_HI : Fld :=
  ⟨0x18, 0, 16, .rw, 0, false, false, []⟩
def Egress.VID : Fld :=
  ⟨0x1c, 0, 12, .rw, 2, false, false, []⟩
def Egress.PCP : Fld :=
  ⟨0x1c, 13, 3, .rw, 3, false, false, []⟩
def Egress.DEST_IP : Fld :=
  ⟨0x20, 0, 32, .rw, 0, false, false, []⟩
def Egress.UDP_DPORT : Fld :=
  ⟨0x24, 0, 16, .rw, 0x138c, false, false, []⟩
def Egress.UDP_SPORT : Fld :=
  ⟨0x24, 16, 16, .rw, 0x138c, false, false, []⟩
def Egress.PT : Fld :=
  ⟨0x28, 0, 7, .rw, 0x60, false, false, []⟩
def Egress.TTL : Fld :=
  ⟨0x28, 8, 8, .rw, 0x20, false, false, []⟩
def Egress.DSCP : Fld :=
  ⟨0x28, 16, 6, .rw, 0x22, false, false, []⟩
def Egress.SSRC : Fld :=
  ⟨0x2c, 0, 32, .rw, 0, false, false, []⟩
def Egress.RTP_OFFSET : Fld :=
  ⟨0x30, 0, 32, .rw, 0, false, false, []⟩
def Egress.PRESENT_OFFSET : Fld :=
  ⟨0x34, 0, 32, .rw, 0x1e8480, false, false, [(0, 50000000)]⟩
def Egress.STATE : Fld :=
  ⟨0x40, 0, 2, .ro, 0, false, false, []⟩
def Egress.PACKETS : Fld :=
  ⟨0x44, 0, 32, .ro, 0, false, false, []⟩
def Egress.DROPS : Fld :=
  ⟨0x48, 0, 32, .ro, 0, false, false, []⟩
def Egress.LAST_SEQ : Fld :=
  ⟨0x4c, 0, 16, .ro, 0, false, false, []⟩
def Egress.EVT_FLAGS : Fld :=
  ⟨0x64, 16, 2, .cor, 0, false, false, []⟩
def Egress.EVT_EN : Fld :=
  ⟨0x68, 16, 2, .rwi, 0, false, false, []⟩

/-- Every field of Egress (R330). -/
def Egress.fields : List Fld :=
  [Egress.CTRL_ENABLE, Egress.CTRL_PORT, Egress.CTRL_FORMAT, Egress.CTRL_QUEUE, Egress.CTRL_CLASS, Egress.CTRL_SR_A, Egress.CTRL_CB_TAG, Egress.CTRL_TAGGED] ++
  [Egress.FMT_CHANNELS, Egress.FMT_SAMPLE, Egress.FMT_SPF, Egress.FMT_CRF_INTERVAL, Egress.FIRST_OUT, Egress.STREAM_ID_LO, Egress.STREAM_ID_HI, Egress.DMAC_LO] ++
  [Egress.DMAC_HI, Egress.VID, Egress.PCP, Egress.DEST_IP, Egress.UDP_DPORT, Egress.UDP_SPORT, Egress.PT, Egress.TTL] ++
  [Egress.DSCP, Egress.SSRC, Egress.RTP_OFFSET, Egress.PRESENT_OFFSET, Egress.STATE, Egress.PACKETS, Egress.DROPS, Egress.LAST_SEQ] ++
  [Egress.EVT_FLAGS, Egress.EVT_EN]

/-! EthCls (R334) -/

def EthCls.CFG_DEFAULT : Fld :=
  ⟨0x040, 0, 1, .rw, 1, false, false, []⟩
def EthCls.CFG_DEFAULT_XQ : Fld :=
  ⟨0x040, 1, 2, .rw, 0, false, false, []⟩
def EthCls.LENGTH : Fld :=
  ⟨0x044, 0, 9, .rw, 1, false, false, [(1, 256)]⟩
def EthCls.WINDOW : Fld :=
  ⟨0x050, 0, 1, .rwi, 0, false, false, []⟩
def EthCls.MASK (m : Nat) : Fld :=
  ⟨(0x080 + 4 * m), 0, 32, .rw, 0xffffffff, false, false, []⟩
def EthCls.COUNT (i : Nat) : Fld :=
  ⟨(0x0c0 + 4 * i), 0, 32, .ro, 0, false, false, []⟩
def EthCls.DEFAULT_HITS : Fld :=
  ⟨0x100, 0, 32, .ro, 0, false, false, []⟩

/-- Every field of EthCls (R334). -/
def EthCls.fields : List Fld :=
  [EthCls.CFG_DEFAULT, EthCls.CFG_DEFAULT_XQ, EthCls.LENGTH, EthCls.WINDOW, EthCls.DEFAULT_HITS] ++
  (List.range 16).map EthCls.MASK ++
  (List.range 16).map EthCls.COUNT

/-! EthGate (R339) -/

def EthGate.GCL_EN : Fld :=
  ⟨0x040, 0, 1, .rw, 0, false, false, []⟩
def EthGate.IDLE_STATES : Fld :=
  ⟨0x040, 8, 8, .rw, 0xff, false, false, []⟩
def EthGate.BASE_SEC_LO : Fld :=
  ⟨0x044, 0, 32, .rw, 0, false, false, []⟩
def EthGate.BASE_SEC_HI : Fld :=
  ⟨0x048, 0, 16, .rw, 0, false, false, []⟩
def EthGate.BASE_NS : Fld :=
  ⟨0x04c, 0, 30, .rw, 0, false, false, []⟩
def EthGate.CYCLE_NS : Fld :=
  ⟨0x050, 0, 30, .rw, 0xf4240, false, false, [(1000, 1000000000)]⟩
def EthGate.LIST_LEN : Fld :=
  ⟨0x054, 0, 9, .rw, 1, false, false, [(1, 256)]⟩
def EthGate.IDLE_SLOPE (q : Nat) : Fld :=
  ⟨(0x060 + 4 * q), 0, 25, .rw, 0, false, false, []⟩
def EthGate.HI_CREDIT (q : Nat) : Fld :=
  ⟨(0x080 + 4 * q), 0, 32, .ro, 0, false, false, []⟩
def EthGate.LO_CREDIT (q : Nat) : Fld :=
  ⟨(0x0a0 + 4 * q), 0, 32, .ro, 0, false, false, []⟩
def EthGate.OPER_ENTRY : Fld :=
  ⟨0x100, 0, 8, .ro, 0, false, false, []⟩
def EthGate.CHANGE_PENDING : Fld :=
  ⟨0x100, 8, 1, .ro, 0, false, false, []⟩
def EthGate.CHANGE_SEC_LO : Fld :=
  ⟨0x104, 0, 32, .ro, 0, false, false, []⟩
def EthGate.CHANGE_SEC_HI : Fld :=
  ⟨0x108, 0, 32, .ro, 0, false, false, []⟩
def EthGate.CHANGE_NS : Fld :=
  ⟨0x10c, 0, 32, .ro, 0, false, false, []⟩
def EthGate.CYCLES : Fld :=
  ⟨0x110, 0, 32, .ro, 0, false, false, []⟩
def EthGate.ENTRY_STATES (e : Nat) : Fld :=
  ⟨(0x400 + 4 * e), 0, 8, .rw, 0xff, false, false, []⟩
def EthGate.ENTRY_INTERVAL (e : Nat) : Fld :=
  ⟨(0x400 + 4 * e), 8, 24, .rw, 0x1e848, false, false, [(1, 16777215)]⟩

/-- Every field of EthGate (R339). -/
def EthGate.fields : List Fld :=
  [EthGate.GCL_EN, EthGate.IDLE_STATES, EthGate.BASE_SEC_LO, EthGate.BASE_SEC_HI, EthGate.BASE_NS, EthGate.CYCLE_NS, EthGate.LIST_LEN, EthGate.OPER_ENTRY] ++
  [EthGate.CHANGE_PENDING, EthGate.CHANGE_SEC_LO, EthGate.CHANGE_SEC_HI, EthGate.CHANGE_NS, EthGate.CYCLES] ++
  (List.range 8).map EthGate.IDLE_SLOPE ++
  (List.range 8).map EthGate.HI_CREDIT ++
  (List.range 8).map EthGate.LO_CREDIT ++
  (List.range 256).map EthGate.ENTRY_STATES ++
  (List.range 256).map EthGate.ENTRY_INTERVAL

/-! EthMac (R345) -/

def EthMac.CFG_EN : Fld :=
  ⟨0x040, 0, 1, .rw, 0, true, false, []⟩
def EthMac.CFG_MODE : Fld :=
  ⟨0x040, 1, 3, .rw, 1, true, false, []⟩
def EthMac.CFG_FEC : Fld :=
  ⟨0x040, 4, 2, .rw, 0, true, false, []⟩
def EthMac.CFG_AN : Fld :=
  ⟨0x040, 6, 1, .rw, 1, true, false, []⟩
def EthMac.MAC_LO : Fld :=
  ⟨0x044, 0, 32, .rw, 0, false, false, []⟩
def EthMac.MAC_HI : Fld :=
  ⟨0x048, 0, 16, .rw, 0, false, false, []⟩
def EthMac.IPV4_ADDR : Fld :=
  ⟨0x04c, 0, 32, .rw, 0, false, false, []⟩
def EthMac.MTU : Fld :=
  ⟨0x050, 0, 14, .rw, 0x5dc, true, false, [(1500, 9000)]⟩
def EthMac.PAUSE_RX_EN : Fld :=
  ⟨0x054, 0, 1, .rw, 1, false, false, []⟩
def EthMac.PAUSE_EXEMPT : Fld :=
  ⟨0x054, 1, 1, .rw, 0, false, false, []⟩
def EthMac.PAUSE_TX_MODE : Fld :=
  ⟨0x054, 2, 2, .rw, 0, false, false, []⟩
def EthMac.PAUSE_TX_PCP : Fld :=
  ⟨0x054, 8, 8, .rw, 15, false, false, []⟩
def EthMac.TX_QUANTA : Fld :=
  ⟨0x054, 16, 16, .rw, 0xffff, false, false, []⟩
def EthMac.WATER_HIGH : Fld :=
  ⟨0x058, 0, 16, .rw, 0xc0, false, false, []⟩
def EthMac.WATER_LOW : Fld :=
  ⟨0x058, 16, 16, .rw, 0x40, false, false, []⟩
def EthMac.QUEUE_PCP (q : Nat) : Fld :=
  ⟨(0x060 + 4 * q), 0, 3, .rw, q, true, false, []⟩
/-- Codes 5 to 7 name no use and are taken as reserved (DESIGN CHOICE, log entry 27: the table does not mark them). -/
def EthMac.QUEUE_USE (q : Nat) : Fld :=
  ⟨(0x060 + 4 * q), 4, 3, .rw, (queueUseReset q), true, true, [(0, 4)]⟩
def EthMac.XQ_SEAT (i : Nat) : Fld :=
  ⟨(0x80 + 0x20 * i), 0, 3, .rw, 0, false, false, []⟩
def EthMac.XQ_EN (i : Nat) : Fld :=
  ⟨(0x80 + 0x20 * i), 8, 1, .rw, 0, false, false, []⟩
def EthMac.XQ_BASE_LO (i : Nat) : Fld :=
  ⟨(0x84 + 0x20 * i), 0, 32, .rwi, 0, false, false, []⟩
def EthMac.XQ_BASE_HI (i : Nat) : Fld :=
  ⟨(0x88 + 0x20 * i), 0, 32, .rwi, 0, false, false, []⟩
def EthMac.XQ_SIZE (i : Nat) : Fld :=
  ⟨(0x8c + 0x20 * i), 0, 24, .rwi, 0, false, false, []⟩
def EthMac.XQ_RDPTR (i : Nat) : Fld :=
  ⟨(0x90 + 0x20 * i), 0, 24, .rwi, 0, false, false, []⟩
def EthMac.XQ_WRPTR (i : Nat) : Fld :=
  ⟨(0x94 + 0x20 * i), 0, 24, .ro, 0, false, false, []⟩
def EthMac.XTX_DATA : Fld :=
  ⟨0x100, 0, 32, .wo, 0, false, false, []⟩
def EthMac.XTX_SEND_LENGTH : Fld :=
  ⟨0x104, 0, 14, .wo, 0, false, false, []⟩
def EthMac.XTX_SEND_QUEUE : Fld :=
  ⟨0x104, 16, 3, .wo, 0, false, false, []⟩
def EthMac.MDIO_CMD : Fld :=
  ⟨0x108, 0, 32, .rwi, 0, false, false, []⟩
def EthMac.MDIO_DATA : Fld :=
  ⟨0x10c, 0, 16, .ro, 0, false, false, []⟩
def EthMac.STATUS_LINK : Fld :=
  ⟨0x140, 0, 1, .ro, 0, false, false, []⟩
def EthMac.STATUS_MODE : Fld :=
  ⟨0x140, 1, 3, .ro, 0, false, false, []⟩
def EthMac.STATUS_REMOTE_FAULT : Fld :=
  ⟨0x140, 4, 1, .ro, 0, false, false, []⟩
def EthMac.STATUS_PAUSED : Fld :=
  ⟨0x140, 8, 8, .ro, 0, false, false, []⟩
def EthMac.STATUS_ABOVE_HIGH : Fld :=
  ⟨0x140, 16, 1, .ro, 0, false, false, []⟩
def EthMac.STATUS_MDIO_BUSY : Fld :=
  ⟨0x140, 17, 1, .ro, 0, false, false, []⟩
def EthMac.BRIDGE_EN : Fld :=
  ⟨0x144, 0, 1, .rw, 0, true, false, []⟩
def EthMac.BRIDGE_CUT_THROUGH : Fld :=
  ⟨0x144, 1, 1, .rw, 1, true, false, []⟩

/-- Every field of EthMac (R345). -/
def EthMac.fields : List Fld :=
  [EthMac.CFG_EN, EthMac.CFG_MODE, EthMac.CFG_FEC, EthMac.CFG_AN, EthMac.MAC_LO, EthMac.MAC_HI, EthMac.IPV4_ADDR, EthMac.MTU] ++
  [EthMac.PAUSE_RX_EN, EthMac.PAUSE_EXEMPT, EthMac.PAUSE_TX_MODE, EthMac.PAUSE_TX_PCP, EthMac.TX_QUANTA, EthMac.WATER_HIGH, EthMac.WATER_LOW, EthMac.XTX_DATA] ++
  [EthMac.XTX_SEND_LENGTH, EthMac.XTX_SEND_QUEUE, EthMac.MDIO_CMD, EthMac.MDIO_DATA, EthMac.STATUS_LINK, EthMac.STATUS_MODE, EthMac.STATUS_REMOTE_FAULT, EthMac.STATUS_PAUSED] ++
  [EthMac.STATUS_ABOVE_HIGH, EthMac.STATUS_MDIO_BUSY, EthMac.BRIDGE_EN, EthMac.BRIDGE_CUT_THROUGH] ++
  (List.range 8).map EthMac.QUEUE_PCP ++
  (List.range 8).map EthMac.QUEUE_USE ++
  (List.range 4).map EthMac.XQ_SEAT ++
  (List.range 4).map EthMac.XQ_EN ++
  (List.range 4).map EthMac.XQ_BASE_LO ++
  (List.range 4).map EthMac.XQ_BASE_HI ++
  (List.range 4).map EthMac.XQ_SIZE ++
  (List.range 4).map EthMac.XQ_RDPTR ++
  (List.range 4).map EthMac.XQ_WRPTR

/-! Time (R369) -/

def Time.CFG_EN : Fld :=
  ⟨0x040, 0, 1, .rw, 0, false, false, []⟩
def Time.CFG_PROFILE (inst : Nat) : Fld :=
  ⟨0x040, 1, 3, .rw, (if inst = 0 then 3 else 4), false, true, [(0, 4)]⟩
def Time.CFG_PORT (inst : Nat) : Fld :=
  ⟨0x040, 4, 3, .rw, inst, false, true, [(0, 4)]⟩
def Time.CFG_TRANSPORT : Fld :=
  ⟨0x040, 7, 1, .rw, 1, false, false, []⟩
def Time.CFG_SLAVE_ONLY : Fld :=
  ⟨0x040, 8, 1, .rw, 1, false, false, []⟩
def Time.CFG_ONE_STEP : Fld :=
  ⟨0x040, 9, 1, .rw, 1, false, false, []⟩
def Time.CFG_DOMAIN (inst : Nat) : Fld :=
  ⟨0x040, 16, 8, .rw, (if inst = 0 then 0x7f else 0), false, false, []⟩
def Time.PRIORITY1 : Fld :=
  ⟨0x044, 0, 8, .rw, 0x80, false, false, []⟩
def Time.PRIORITY2 : Fld :=
  ⟨0x044, 8, 8, .rw, 0x80, false, false, []⟩
def Time.CLOCK_CLASS : Fld :=
  ⟨0x044, 16, 8, .rw, 0xf8, false, false, []⟩
def Time.ACCURACY : Fld :=
  ⟨0x044, 24, 8, .rw, 0xfe, false, false, []⟩
def Time.LOG_SYNC : Fld :=
  ⟨0x048, 0, 8, .rw, 0xfd, false, false, []⟩
def Time.LOG_ANNOUNCE : Fld :=
  ⟨0x048, 8, 8, .rw, 0, false, false, []⟩
def Time.LOG_DELAY_REQ : Fld :=
  ⟨0x048, 16, 8, .rw, 0, false, false, []⟩
def Time.ANNOUNCE_TIMEOUT : Fld :=
  ⟨0x048, 24, 4, .rw, 3, false, false, [(2, 10)]⟩
def Time.ASYMMETRY : Fld :=
  ⟨0x04c, 0, 32, .rw, 0, false, false, []⟩
def Time.PORT_STATE : Fld :=
  ⟨0x100, 0, 4, .ro, 0, false, false, []⟩
def Time.PORT_STATE_B : Fld :=
  ⟨0x100, 4, 4, .ro, 0, false, false, []⟩
def Time.SERVO : Fld :=
  ⟨0x100, 8, 2, .ro, 0, false, false, []⟩
def Time.GM_ID_LO : Fld :=
  ⟨0x104, 0, 32, .ro, 0, false, false, []⟩
def Time.GM_ID_HI : Fld :=
  ⟨0x108, 0, 32, .ro, 0, false, false, []⟩
def Time.STEPS_REMOVED : Fld :=
  ⟨0x10c, 0, 16, .ro, 0, false, false, []⟩
def Time.GM_CLASS : Fld :=
  ⟨0x10c, 16, 8, .ro, 0, false, false, []⟩
def Time.OFFSET_LO : Fld :=
  ⟨0x110, 0, 32, .ro, 0, false, false, []⟩
def Time.OFFSET_HI : Fld :=
  ⟨0x114, 0, 32, .ro, 0, false, false, []⟩
def Time.MEAN_DELAY : Fld :=
  ⟨0x118, 0, 32, .ro, 0, false, false, []⟩
def Time.RATE_RATIO : Fld :=
  ⟨0x11c, 0, 32, .ro, 0, false, false, []⟩
def Time.FREQ : Fld :=
  ⟨0x120, 0, 32, .ro, 0, false, false, []⟩
def Time.ANN_TIMEOUTS : Fld :=
  ⟨0x134, 0, 32, .ro, 0, false, false, []⟩
def Time.GM_CHANGES : Fld :=
  ⟨0x138, 0, 32, .ro, 0, false, false, []⟩

/-- Every field of Time (R369). -/
def Time.fields (k : Nat) : List Fld :=
  [Time.CFG_EN, Time.CFG_TRANSPORT, Time.CFG_SLAVE_ONLY, Time.CFG_ONE_STEP, Time.PRIORITY1, Time.PRIORITY2, Time.CLOCK_CLASS, Time.ACCURACY] ++
  [Time.LOG_SYNC, Time.LOG_ANNOUNCE, Time.LOG_DELAY_REQ, Time.ANNOUNCE_TIMEOUT, Time.ASYMMETRY, Time.PORT_STATE, Time.PORT_STATE_B, Time.SERVO] ++
  [Time.GM_ID_LO, Time.GM_ID_HI, Time.STEPS_REMOVED, Time.GM_CLASS, Time.OFFSET_LO, Time.OFFSET_HI, Time.MEAN_DELAY, Time.RATE_RATIO] ++
  [Time.FREQ, Time.ANN_TIMEOUTS, Time.GM_CHANGES] ++
  [Time.CFG_PROFILE k, Time.CFG_PORT k, Time.CFG_DOMAIN k]

/-! MediaClk (R370) -/

def MediaClk.SEL : Fld :=
  ⟨0x040, 0, 1, .rw, 0, true, false, []⟩
def MediaClk.AUTO_SWITCH : Fld :=
  ⟨0x040, 1, 1, .rwi, 1, false, false, []⟩
def MediaClk.REALIGN : Fld :=
  ⟨0x040, 2, 1, .wo, 0, false, false, []⟩
def MediaClk.MAX_SLEW : Fld :=
  ⟨0x044, 0, 14, .rwi, 0xc8, false, false, [(1, 10000)]⟩
def MediaClk.JUMP_THRESH : Fld :=
  ⟨0x048, 0, 14, .rwi, 10, false, false, [(1, 10000)]⟩
def MediaClk.STATE : Fld :=
  ⟨0x100, 0, 3, .ro, 0, false, false, []⟩
def MediaClk.ACTIVE_SEL : Fld :=
  ⟨0x100, 4, 1, .ro, 0, false, false, []⟩
def MediaClk.INTER_VALID : Fld :=
  ⟨0x100, 5, 1, .ro, 0, false, false, []⟩
def MediaClk.HELD_OFFSET_LO : Fld :=
  ⟨0x104, 0, 32, .ro, 0, false, false, []⟩
def MediaClk.HELD_OFFSET_HI : Fld :=
  ⟨0x108, 0, 32, .ro, 0, false, false, []⟩
def MediaClk.INTER_OFFSET_LO : Fld :=
  ⟨0x10c, 0, 32, .ro, 0, false, false, []⟩
def MediaClk.INTER_OFFSET_HI : Fld :=
  ⟨0x110, 0, 32, .ro, 0, false, false, []⟩
def MediaClk.FREQ_ADJ : Fld :=
  ⟨0x114, 0, 32, .ro, 0, false, false, []⟩
def MediaClk.HOLDOVER_MS : Fld :=
  ⟨0x118, 0, 32, .ro, 0, false, false, []⟩
def MediaClk.SWITCH_COUNT : Fld :=
  ⟨0x11c, 0, 32, .ro, 0, false, false, []⟩
def MediaClk.M0_LO : Fld :=
  ⟨0x120, 0, 32, .ro, 0, false, false, []⟩
def MediaClk.M0_HI : Fld :=
  ⟨0x124, 0, 32, .ro, 0, false, false, []⟩
def MediaClk.RSI_LO : Fld :=
  ⟨0x128, 0, 32, .ro, 0, false, false, []⟩
def MediaClk.RSI_HI : Fld :=
  ⟨0x12c, 0, 32, .ro, 0, false, false, []⟩

/-- Every field of MediaClk (R370). -/
def MediaClk.fields : List Fld :=
  [MediaClk.SEL, MediaClk.AUTO_SWITCH, MediaClk.REALIGN, MediaClk.MAX_SLEW, MediaClk.JUMP_THRESH, MediaClk.STATE, MediaClk.ACTIVE_SEL, MediaClk.INTER_VALID] ++
  [MediaClk.HELD_OFFSET_LO, MediaClk.HELD_OFFSET_HI, MediaClk.INTER_OFFSET_LO, MediaClk.INTER_OFFSET_HI, MediaClk.FREQ_ADJ, MediaClk.HOLDOVER_MS, MediaClk.SWITCH_COUNT, MediaClk.M0_LO] ++
  [MediaClk.M0_HI, MediaClk.RSI_LO, MediaClk.RSI_HI]

/-! Tsq (R371) -/

def Tsq.Q_CFG_EN (p : Nat) : Fld :=
  ⟨(0x100 + 0x40 * p + 0x00), 0, 1, .rwi, 1, false, false, []⟩
def Tsq.Q_CFG_HOST_MODE (p : Nat) : Fld :=
  ⟨(0x100 + 0x40 * p + 0x00), 1, 1, .rwi, 0, false, false, []⟩
def Tsq.Q_RX_LAT (p : Nat) : Fld :=
  ⟨(0x100 + 0x40 * p + 0x04), 0, 32, .rwi, 0, false, false, []⟩
def Tsq.Q_TX_LAT (p : Nat) : Fld :=
  ⟨(0x100 + 0x40 * p + 0x08), 0, 32, .rwi, 0, false, false, []⟩
def Tsq.Q_ENTRY_W0 (p : Nat) : Fld :=
  ⟨(0x100 + 0x40 * p + 0x10), 0, 32, .ro, 0, false, false, []⟩
def Tsq.Q_ENTRY_W1 (p : Nat) : Fld :=
  ⟨(0x100 + 0x40 * p + 0x14), 0, 32, .ro, 0, false, false, []⟩
def Tsq.Q_ENTRY_W2 (p : Nat) : Fld :=
  ⟨(0x100 + 0x40 * p + 0x18), 0, 32, .ro, 0, false, false, []⟩
def Tsq.Q_ENTRY_W3 (p : Nat) : Fld :=
  ⟨(0x100 + 0x40 * p + 0x1c), 0, 32, .ro, 0, false, false, []⟩
def Tsq.Q_LEVEL (p : Nat) : Fld :=
  ⟨(0x100 + 0x40 * p + 0x20), 0, 7, .ro, 0, false, false, []⟩
def Tsq.Q_OVF_COUNT (p : Nat) : Fld :=
  ⟨(0x100 + 0x40 * p + 0x24), 0, 32, .ro, 0, false, false, []⟩
def Tsq.Q_LOST_RUN (p : Nat) : Fld :=
  ⟨(0x100 + 0x40 * p + 0x28), 0, 16, .ro, 0, false, false, []⟩

/-- Every field of Tsq (R371). -/
def Tsq.fields : List Fld :=
  (List.range 4).map Tsq.Q_CFG_EN ++
  (List.range 4).map Tsq.Q_CFG_HOST_MODE ++
  (List.range 4).map Tsq.Q_RX_LAT ++
  (List.range 4).map Tsq.Q_TX_LAT ++
  (List.range 4).map Tsq.Q_ENTRY_W0 ++
  (List.range 4).map Tsq.Q_ENTRY_W1 ++
  (List.range 4).map Tsq.Q_ENTRY_W2 ++
  (List.range 4).map Tsq.Q_ENTRY_W3 ++
  (List.range 4).map Tsq.Q_LEVEL ++
  (List.range 4).map Tsq.Q_OVF_COUNT ++
  (List.range 4).map Tsq.Q_LOST_RUN

/-! Ringmaster (R379) -/

def Ringmaster.EXTRA_RES : Fld :=
  ⟨0x040, 0, 6, .rwi, 10, false, false, [(0, 50)]⟩
def Ringmaster.READY_NOW : Fld :=
  ⟨0x044, 0, 13, .ro, 0, false, false, []⟩
def Ringmaster.READY_PEAK : Fld :=
  ⟨0x044, 16, 13, .cor, 0, false, false, []⟩
def Ringmaster.LOAD_LAST (g : Nat) : Fld :=
  ⟨(0x048 + 4 * g), 0, 8, .ro, 0, false, false, []⟩
def Ringmaster.LOAD_PEAK (g : Nat) : Fld :=
  ⟨(0x048 + 4 * g), 8, 8, .cor, 0, false, false, []⟩
def Ringmaster.LOAD_EXTRA (g : Nat) : Fld :=
  ⟨(0x048 + 4 * g), 16, 8, .ro, 0, false, false, []⟩
def Ringmaster.LEAD_DONE_LAST : Fld :=
  ⟨0x060, 0, 16, .ro, 0, false, false, []⟩
def Ringmaster.LEAD_DONE_PEAK : Fld :=
  ⟨0x060, 16, 16, .cor, 0, false, false, []⟩
def Ringmaster.LEAD_WAIT_PEAK : Fld :=
  ⟨0x064, 0, 16, .cor, 0, false, false, []⟩
def Ringmaster.GRANTS : Fld :=
  ⟨0x068, 0, 32, .ro, 0, false, false, []⟩

/-- Every field of Ringmaster (R379). -/
def Ringmaster.fields : List Fld :=
  [Ringmaster.EXTRA_RES, Ringmaster.READY_NOW, Ringmaster.READY_PEAK, Ringmaster.LEAD_DONE_LAST, Ringmaster.LEAD_DONE_PEAK, Ringmaster.LEAD_WAIT_PEAK, Ringmaster.GRANTS] ++
  (List.range 6).map Ringmaster.LOAD_LAST ++
  (List.range 6).map Ringmaster.LOAD_PEAK ++
  (List.range 6).map Ringmaster.LOAD_EXTRA

/-! Trace (R383) -/

def Trace.STATE : Fld :=
  ⟨0x040, 0, 2, .ro, 0, false, false, []⟩
def Trace.WRPTR : Fld :=
  ⟨0x044, 0, 27, .ro, 0, false, false, []⟩
def Trace.WRAPS : Fld :=
  ⟨0x048, 0, 32, .ro, 0, false, false, []⟩
def Trace.DROPPED : Fld :=
  ⟨0x04c, 0, 32, .ro, 0, false, false, []⟩

/-- Every field of Trace (R383). -/
def Trace.fields : List Fld :=
  [Trace.STATE, Trace.WRPTR, Trace.WRAPS, Trace.DROPPED]

/-! BusMatrix (R387) -/

def BusMatrix.AGE_LIMIT : Fld :=
  ⟨0x040, 0, 16, .rwi, 0x1000, false, false, [(64, 65535)]⟩
def BusMatrix.PARK (t : Nat) : Fld :=
  ⟨(0x060 + 4 * t), 0, 4, .rwi, (parkReset t), false, false, []⟩
def BusMatrix.PRIO (m : Nat) (t : Nat) : Fld :=
  ⟨(0x100 + 8 * m + 4 * (t / 8)), (4 * (t % 8)), 4, .rwi, (priorityReset m t), false, false, []⟩
def BusMatrix.HOLD_COUNT (m : Nat) : Fld :=
  ⟨(0x180 + 4 * m), 0, 32, .ro, 0, false, false, []⟩
def BusMatrix.WAIT_PEAK (m : Nat) : Fld :=
  ⟨(0x1c0 + 4 * m), 0, 16, .cor, 0, false, false, []⟩

/-- Every field of BusMatrix (R387). -/
def BusMatrix.fields : List Fld :=
  [BusMatrix.AGE_LIMIT] ++
  (List.range 12).map BusMatrix.PARK ++
  (List.range 13).flatMap (fun a => (List.range 12).map (BusMatrix.PRIO a)) ++
  (List.range 13).map BusMatrix.HOLD_COUNT ++
  (List.range 13).map BusMatrix.WAIT_PEAK

/-! Seat (R397) -/

def Seat.BIND_KIND : Fld :=
  ⟨0x040, 0, 2, .rwi, 0, false, false, []⟩
def Seat.BIND_INDEX : Fld :=
  ⟨0x040, 2, 2, .rwi, 0, false, false, []⟩
def Seat.SD_UDP_PORT : Fld :=
  ⟨0x044, 0, 16, .rwi, 0xbdec, false, false, []⟩
def Seat.SD_PEER_IP : Fld :=
  ⟨0x048, 0, 32, .ro, 0, false, false, []⟩
def Seat.SD_PEER_PORT : Fld :=
  ⟨0x04c, 0, 16, .ro, 0, false, false, []⟩
def Seat.SD_SESSION : Fld :=
  ⟨0x050, 0, 32, .ro, 0, false, false, []⟩
def Seat.CTRL_SEAT_RESET : Fld :=
  ⟨0x054, 0, 1, .wo, 0, false, false, []⟩
def Seat.CTRL_SLEEP_REQ : Fld :=
  ⟨0x054, 1, 1, .rwi, 0, false, false, []⟩
def Seat.STATUS_SLEEP_ACK : Fld :=
  ⟨0x058, 0, 1, .ro, 0, false, false, []⟩
def Seat.STATUS_ATTACHED : Fld :=
  ⟨0x058, 1, 1, .ro, 0, false, false, []⟩
def Seat.STATUS_HOST_LOST : Fld :=
  ⟨0x058, 2, 1, .ro, 0, false, false, []⟩
def Seat.STATUS_KEY_VALID : Fld :=
  ⟨0x058, 3, 1, .ro, 0, false, false, []⟩
def Seat.STATUS_RESETTING : Fld :=
  ⟨0x058, 4, 1, .ro, 0, false, false, []⟩
def Seat.STATUS_IN_FLIGHT : Fld :=
  ⟨0x058, 8, 7, .ro, 0, false, false, []⟩
def Seat.GRACE_LEFT : Fld :=
  ⟨0x05c, 0, 14, .ro, 0, false, false, []⟩
def Seat.SQ_BASE_LO (i : Nat) : Fld :=
  ⟨(0x060 + 0x20 * i), 0, 32, .rwi, 0, false, false, []⟩
def Seat.SQ_BASE_HI (i : Nat) : Fld :=
  ⟨(0x064 + 0x20 * i), 0, 32, .rwi, 0, false, false, []⟩
def Seat.SQ_SIZE (i : Nat) : Fld :=
  ⟨(0x068 + 0x20 * i), 0, 9, .rwi, 0, false, false, []⟩
def Seat.SQ_EN (i : Nat) : Fld :=
  ⟨(0x068 + 0x20 * i), 12, 1, .rwi, 0, false, false, []⟩
def Seat.SQ_CQ (i : Nat) : Fld :=
  ⟨(0x068 + 0x20 * i), 16, 2, .rwi, i, false, false, []⟩
def Seat.SQ_TAIL (i : Nat) : Fld :=
  ⟨(0x06c + 0x20 * i), 0, 8, .rwi, 0, false, false, []⟩
def Seat.SQ_HEAD (i : Nat) : Fld :=
  ⟨(0x070 + 0x20 * i), 0, 8, .ro, 0, false, false, []⟩
def Seat.SQ_ERR (i : Nat) : Fld :=
  ⟨(0x074 + 0x20 * i), 0, 4, .ro, 0, false, false, []⟩
def Seat.CQ_BASE_LO (i : Nat) : Fld :=
  ⟨(0x0e0 + 0x20 * i), 0, 32, .rwi, 0, false, false, []⟩
def Seat.CQ_BASE_HI (i : Nat) : Fld :=
  ⟨(0x0e4 + 0x20 * i), 0, 32, .rwi, 0, false, false, []⟩
def Seat.CQ_SIZE (i : Nat) : Fld :=
  ⟨(0x0e8 + 0x20 * i), 0, 9, .rwi, 0, false, false, []⟩
def Seat.CQ_EN (i : Nat) : Fld :=
  ⟨(0x0e8 + 0x20 * i), 12, 1, .rwi, 0, false, false, []⟩
def Seat.CQ_HEAD (i : Nat) : Fld :=
  ⟨(0x0ec + 0x20 * i), 0, 8, .rwi, 0, false, false, []⟩
def Seat.CQ_TAIL (i : Nat) : Fld :=
  ⟨(0x0f0 + 0x20 * i), 0, 8, .ro, 0, false, false, []⟩
def Seat.CQ_PHASE (i : Nat) : Fld :=
  ⟨(0x0f0 + 0x20 * i), 16, 1, .ro, 1, false, false, []⟩
def Seat.SD_AUTH_FAILS : Fld :=
  ⟨0x160, 0, 32, .ro, 0, false, false, []⟩
def Seat.SD_REPLAYS : Fld :=
  ⟨0x164, 0, 32, .ro, 0, false, false, []⟩

/-- Every field of Seat (R397). -/
def Seat.fields : List Fld :=
  [Seat.BIND_KIND, Seat.BIND_INDEX, Seat.SD_UDP_PORT, Seat.SD_PEER_IP, Seat.SD_PEER_PORT, Seat.SD_SESSION, Seat.CTRL_SEAT_RESET, Seat.CTRL_SLEEP_REQ] ++
  [Seat.STATUS_SLEEP_ACK, Seat.STATUS_ATTACHED, Seat.STATUS_HOST_LOST, Seat.STATUS_KEY_VALID, Seat.STATUS_RESETTING, Seat.STATUS_IN_FLIGHT, Seat.GRACE_LEFT, Seat.SD_AUTH_FAILS] ++
  [Seat.SD_REPLAYS] ++
  (List.range 4).map Seat.SQ_BASE_LO ++
  (List.range 4).map Seat.SQ_BASE_HI ++
  (List.range 4).map Seat.SQ_SIZE ++
  (List.range 4).map Seat.SQ_EN ++
  (List.range 4).map Seat.SQ_CQ ++
  (List.range 4).map Seat.SQ_TAIL ++
  (List.range 4).map Seat.SQ_HEAD ++
  (List.range 4).map Seat.SQ_ERR ++
  (List.range 4).map Seat.CQ_BASE_LO ++
  (List.range 4).map Seat.CQ_BASE_HI ++
  (List.range 4).map Seat.CQ_SIZE ++
  (List.range 4).map Seat.CQ_EN ++
  (List.range 4).map Seat.CQ_HEAD ++
  (List.range 4).map Seat.CQ_TAIL ++
  (List.range 4).map Seat.CQ_PHASE

/-! Prompter (R438) -/

def Prompter.CTRL_START : Fld :=
  ⟨0x040, 0, 1, .wo, 0, false, false, []⟩
def Prompter.CTRL_STOP : Fld :=
  ⟨0x040, 1, 1, .wo, 0, false, false, []⟩
def Prompter.ENTRY : Fld :=
  ⟨0x044, 0, 12, .rwi, 0, false, false, []⟩
def Prompter.FLAGS_SET : Fld :=
  ⟨0x048, 0, 16, .wo, 0, false, false, []⟩
def Prompter.FLAGS_CLR : Fld :=
  ⟨0x04c, 0, 16, .wo, 0, false, false, []⟩
def Prompter.FLAGS : Fld :=
  ⟨0x050, 0, 16, .ro, 0, false, false, []⟩
def Prompter.FLAG_ACCEPT : Fld :=
  ⟨0x054, 0, 8, .rwi, 0, false, false, []⟩
def Prompter.STATE : Fld :=
  ⟨0x060, 0, 3, .ro, 0, false, false, []⟩
def Prompter.WAIT_KIND : Fld :=
  ⟨0x060, 4, 4, .ro, 0, false, false, []⟩
def Prompter.FAULT : Fld :=
  ⟨0x060, 8, 4, .ro, 0, false, false, []⟩
def Prompter.PC : Fld :=
  ⟨0x060, 16, 12, .ro, 0, false, false, []⟩
def Prompter.CALL_DEPTH : Fld :=
  ⟨0x064, 0, 4, .ro, 0, false, false, []⟩
def Prompter.LOOP_DEPTH : Fld :=
  ⟨0x064, 4, 3, .ro, 0, false, false, []⟩
def Prompter.MARK_LO : Fld :=
  ⟨0x068, 0, 32, .ro, 0, false, false, []⟩
def Prompter.MARK_HI : Fld :=
  ⟨0x06c, 0, 32, .ro, 0, false, false, []⟩
def Prompter.TARGET_LO : Fld :=
  ⟨0x070, 0, 32, .ro, 0, false, false, []⟩
def Prompter.TARGET_HI : Fld :=
  ⟨0x074, 0, 32, .ro, 0, false, false, []⟩
def Prompter.STROBE_SERIAL : Fld :=
  ⟨0x078, 0, 32, .ro, 0, false, false, []⟩
def Prompter.STROBE_PAGE : Fld :=
  ⟨0x07c, 0, 12, .ro, 0, false, false, []⟩
def Prompter.STROBE_REASON : Fld :=
  ⟨0x07c, 16, 8, .ro, 0, false, false, []⟩
def Prompter.STROBE_STATE : Fld :=
  ⟨0x07c, 28, 4, .ro, 0, false, false, []⟩
def Prompter.STROBE_APPLIED_AT_LO : Fld :=
  ⟨0x080, 0, 32, .ro, 0, false, false, []⟩
def Prompter.STROBE_APPLIED_AT_HI : Fld :=
  ⟨0x084, 0, 32, .ro, 0, false, false, []⟩
def Prompter.SIGNAL_CODE : Fld :=
  ⟨0x088, 0, 8, .cor, 0, false, false, []⟩
def Prompter.SIGNAL_COUNT : Fld :=
  ⟨0x088, 8, 8, .cor, 0, false, false, []⟩
def Prompter.SIGNAL_AT_LO : Fld :=
  ⟨0x08c, 0, 32, .ro, 0, false, false, []⟩
def Prompter.SIGNAL_AT_HI : Fld :=
  ⟨0x090, 0, 32, .ro, 0, false, false, []⟩
def Prompter.INSTR_LAST : Fld :=
  ⟨0x094, 0, 7, .ro, 0, false, false, []⟩
def Prompter.INSTR_PEAK : Fld :=
  ⟨0x094, 8, 7, .cor, 0, false, false, []⟩

/-- Every field of Prompter (R438). -/
def Prompter.fields : List Fld :=
  [Prompter.CTRL_START, Prompter.CTRL_STOP, Prompter.ENTRY, Prompter.FLAGS_SET, Prompter.FLAGS_CLR, Prompter.FLAGS, Prompter.FLAG_ACCEPT, Prompter.STATE] ++
  [Prompter.WAIT_KIND, Prompter.FAULT, Prompter.PC, Prompter.CALL_DEPTH, Prompter.LOOP_DEPTH, Prompter.MARK_LO, Prompter.MARK_HI, Prompter.TARGET_LO] ++
  [Prompter.TARGET_HI, Prompter.STROBE_SERIAL, Prompter.STROBE_PAGE, Prompter.STROBE_REASON, Prompter.STROBE_STATE, Prompter.STROBE_APPLIED_AT_LO, Prompter.STROBE_APPLIED_AT_HI, Prompter.SIGNAL_CODE] ++
  [Prompter.SIGNAL_COUNT, Prompter.SIGNAL_AT_LO, Prompter.SIGNAL_AT_HI, Prompter.INSTR_LAST, Prompter.INSTR_PEAK]

/-! PrompterGlobal (R439) -/

def PrompterGlobal.GPIO_POL : Fld :=
  ⟨0x040, 0, 16, .rwi, 0, false, false, []⟩
def PrompterGlobal.GPIO_LEVEL : Fld :=
  ⟨0x044, 0, 16, .ro, 0, false, false, []⟩
def PrompterGlobal.GPIO_EDGE_DIR : Fld :=
  ⟨0x048, 0, 16, .ro, 0, false, false, []⟩
def PrompterGlobal.DEBOUNCE (k : Nat) : Fld :=
  ⟨(0x080 + 4 * k), 0, 8, .rwi, 0x10, false, false, []⟩
def PrompterGlobal.EDGE_AT_LO (k : Nat) : Fld :=
  ⟨(0x0c0 + 8 * k), 0, 32, .ro, 0, false, false, []⟩
def PrompterGlobal.EDGE_AT_HI (k : Nat) : Fld :=
  ⟨(0x0c4 + 8 * k), 0, 32, .ro, 0, false, false, []⟩
def PrompterGlobal.TC_EN : Fld :=
  ⟨0x180, 0, 1, .rwi, 0, false, false, []⟩
def PrompterGlobal.TC_LOCKED : Fld :=
  ⟨0x184, 0, 1, .ro, 0, false, false, []⟩
def PrompterGlobal.TC_REVERSE : Fld :=
  ⟨0x184, 1, 1, .ro, 0, false, false, []⟩
def PrompterGlobal.TC_RATE : Fld :=
  ⟨0x184, 2, 2, .ro, 0, false, false, []⟩
def PrompterGlobal.TC_LABEL : Fld :=
  ⟨0x188, 0, 32, .ro, 0, false, false, []⟩
def PrompterGlobal.TC_EDGE_LO : Fld :=
  ⟨0x18c, 0, 32, .ro, 0, false, false, []⟩
def PrompterGlobal.TC_EDGE_HI : Fld :=
  ⟨0x190, 0, 32, .ro, 0, false, false, []⟩
def PrompterGlobal.TC_ERROR : Fld :=
  ⟨0x194, 0, 32, .ro, 0, false, false, []⟩
def PrompterGlobal.TC_USERBITS : Fld :=
  ⟨0x198, 0, 32, .ro, 0, false, false, []⟩

/-- Every field of PrompterGlobal (R439). -/
def PrompterGlobal.fields : List Fld :=
  [PrompterGlobal.GPIO_POL, PrompterGlobal.GPIO_LEVEL, PrompterGlobal.GPIO_EDGE_DIR, PrompterGlobal.TC_EN, PrompterGlobal.TC_LOCKED, PrompterGlobal.TC_REVERSE, PrompterGlobal.TC_RATE, PrompterGlobal.TC_LABEL] ++
  [PrompterGlobal.TC_EDGE_LO, PrompterGlobal.TC_EDGE_HI, PrompterGlobal.TC_ERROR, PrompterGlobal.TC_USERBITS] ++
  (List.range 16).map PrompterGlobal.DEBOUNCE ++
  (List.range 16).map PrompterGlobal.EDGE_AT_LO ++
  (List.range 16).map PrompterGlobal.EDGE_AT_HI

/-! CallSeat (R460) -/

def CallSeat.CFG_GATE : Fld :=
  ⟨0x040, 0, 1, .rwi, 1, false, false, []⟩
def CallSeat.CFG_DELIVERY : Fld :=
  ⟨0x040, 1, 1, .rwi, 1, false, false, []⟩
def CallSeat.CFG_STORM_EN : Fld :=
  ⟨0x040, 4, 1, .rwi, 1, false, false, []⟩
def CallSeat.EOI : Fld :=
  ⟨0x044, 0, 11, .wo, 0, false, false, []⟩
def CallSeat.WINDOW : Fld :=
  ⟨0x048, 0, 3, .rwi, 0, false, false, []⟩
def CallSeat.STORM_LIMIT : Fld :=
  ⟨0x04c, 0, 16, .rwi, 0x200, false, false, [(16, 65535)]⟩
def CallSeat.VEC_MASK_LO : Fld :=
  ⟨0x060, 0, 32, .rwi, 0, false, false, []⟩
def CallSeat.VEC_MASK_HI : Fld :=
  ⟨0x064, 0, 32, .rwi, 0, false, false, []⟩
def CallSeat.VEC_PEND_LO : Fld :=
  ⟨0x068, 0, 32, .ro, 0, false, false, []⟩
def CallSeat.VEC_PEND_HI : Fld :=
  ⟨0x06c, 0, 32, .ro, 0, false, false, []⟩
def CallSeat.VEC_INSERVICE_LO : Fld :=
  ⟨0x070, 0, 32, .ro, 0, false, false, []⟩
def CallSeat.VEC_INSERVICE_HI : Fld :=
  ⟨0x074, 0, 32, .ro, 0, false, false, []⟩
def CallSeat.VEC_STORM_LO : Fld :=
  ⟨0x078, 0, 32, .cor, 0, false, false, []⟩
def CallSeat.VEC_STORM_HI : Fld :=
  ⟨0x07c, 0, 32, .cor, 0, false, false, []⟩
def CallSeat.MOD_COUNT (v : Nat) : Fld :=
  ⟨(0x100 + 4 * v), 0, 8, .rwi, 1, false, false, [(1, 255)]⟩
def CallSeat.MOD_HOLDOFF (v : Nat) : Fld :=
  ⟨(0x100 + 4 * v), 16, 10, .rwi, 0, false, false, [(0, 1000)]⟩
def CallSeat.VEC_SRC_SOURCE (v : Nat) : Fld :=
  ⟨(0x200 + 4 * v), 0, 11, .ro, 0, false, false, []⟩
def CallSeat.VEC_SRC_VALID (v : Nat) : Fld :=
  ⟨(0x200 + 4 * v), 15, 1, .ro, 0, false, false, []⟩

/-- Every field of CallSeat (R460). -/
def CallSeat.fields : List Fld :=
  [CallSeat.CFG_GATE, CallSeat.CFG_DELIVERY, CallSeat.CFG_STORM_EN, CallSeat.EOI, CallSeat.WINDOW, CallSeat.STORM_LIMIT, CallSeat.VEC_MASK_LO, CallSeat.VEC_MASK_HI] ++
  [CallSeat.VEC_PEND_LO, CallSeat.VEC_PEND_HI, CallSeat.VEC_INSERVICE_LO, CallSeat.VEC_INSERVICE_HI, CallSeat.VEC_STORM_LO, CallSeat.VEC_STORM_HI] ++
  (List.range 64).map CallSeat.MOD_COUNT ++
  (List.range 64).map CallSeat.MOD_HOLDOFF ++
  (List.range 64).map CallSeat.VEC_SRC_SOURCE ++
  (List.range 64).map CallSeat.VEC_SRC_VALID

/-! Greenroom (R471) -/

def Greenroom.PWR_TARGET : Fld :=
  ⟨0x040, 0, 2, .rwi, 0, false, true, [(0, 0), (2, 3)]⟩
def Greenroom.PWR_STATE : Fld :=
  ⟨0x044, 0, 2, .ro, 0, false, false, []⟩
def Greenroom.PWR_REFUSE : Fld :=
  ⟨0x044, 8, 4, .ro, 0, false, false, []⟩
def Greenroom.CLK_SRC_SEL : Fld :=
  ⟨0x048, 0, 1, .rwi, 0, false, false, []⟩
def Greenroom.CLK_ON_RC : Fld :=
  ⟨0x048, 4, 1, .ro, 0, false, false, []⟩
def Greenroom.WAKE_PULSE : Fld :=
  ⟨0x04c, 0, 1, .wo, 0, false, false, []⟩
def Greenroom.WAKE_IN : Fld :=
  ⟨0x04c, 8, 1, .ro, 0, false, false, []⟩
def Greenroom.WAKE_DRIVEN : Fld :=
  ⟨0x04c, 9, 3, .ro, 0, false, false, []⟩
def Greenroom.WAKE_CAUSE_ENTRY : Fld :=
  ⟨0x050, 0, 6, .ro, 0, false, false, []⟩
def Greenroom.WAKE_CAUSE_VALID : Fld :=
  ⟨0x050, 7, 1, .ro, 0, false, false, []⟩
def Greenroom.BMC_ALERT_EN : Fld :=
  ⟨0x054, 0, 9, .rwi, 0, false, false, []⟩
def Greenroom.GPIO_DEBOUNCE : Fld :=
  ⟨0x058, 0, 8, .rwi, 0x42, false, false, [(1, 255)]⟩
def Greenroom.WATCH_SOURCE (e : Nat) : Fld :=
  ⟨(0x080 + 4 * e), 0, 11, .rwi, 0, false, false, []⟩
def Greenroom.WATCH_SEATS (e : Nat) : Fld :=
  ⟨(0x080 + 4 * e), 16, 8, .rwi, 0, false, false, []⟩
def Greenroom.WATCH_MODULE (e : Nat) : Fld :=
  ⟨(0x080 + 4 * e), 24, 1, .rwi, 0, false, false, []⟩
def Greenroom.WATCH_EN (e : Nat) : Fld :=
  ⟨(0x080 + 4 * e), 31, 1, .rwi, 0, false, false, []⟩
def Greenroom.WATCH_HIT : Fld :=
  ⟨0x100, 0, 32, .cor, 0, false, false, []⟩
def Greenroom.GPIO_EDGE : Fld :=
  ⟨0x104, 0, 16, .cor, 0, false, false, []⟩

/-- Every field of Greenroom (R471). -/
def Greenroom.fields : List Fld :=
  [Greenroom.PWR_TARGET, Greenroom.PWR_STATE, Greenroom.PWR_REFUSE, Greenroom.CLK_SRC_SEL, Greenroom.CLK_ON_RC, Greenroom.WAKE_PULSE, Greenroom.WAKE_IN, Greenroom.WAKE_DRIVEN] ++
  [Greenroom.WAKE_CAUSE_ENTRY, Greenroom.WAKE_CAUSE_VALID, Greenroom.BMC_ALERT_EN, Greenroom.GPIO_DEBOUNCE, Greenroom.WATCH_HIT, Greenroom.GPIO_EDGE] ++
  (List.range 32).map Greenroom.WATCH_SOURCE ++
  (List.range 32).map Greenroom.WATCH_SEATS ++
  (List.range 32).map Greenroom.WATCH_MODULE ++
  (List.range 32).map Greenroom.WATCH_EN

/-! Jack (R472) -/

def Jack.J_CTRL_EN (j : Nat) : Fld :=
  ⟨(0x40 + 0x20 * j + 0x00), 0, 1, .rwi, 0, false, false, []⟩
def Jack.J_CTRL_MICBIAS (j : Nat) : Fld :=
  ⟨(0x40 + 0x20 * j + 0x00), 1, 2, .rwi, 1, false, true, [(0, 2)]⟩
def Jack.J_CTRL_DET_POL (j : Nat) : Fld :=
  ⟨(0x40 + 0x20 * j + 0x00), 3, 1, .rwi, 0, false, false, []⟩
def Jack.J_DEBOUNCE_INSERT (j : Nat) : Fld :=
  ⟨(0x40 + 0x20 * j + 0x04), 0, 8, .rwi, 0x64, false, false, [(1, 255)]⟩
def Jack.J_DEBOUNCE_BUTTON (j : Nat) : Fld :=
  ⟨(0x40 + 0x20 * j + 0x04), 8, 8, .rwi, 0x1e, false, false, [(1, 255)]⟩
def Jack.J_STATUS_INSERTED (j : Nat) : Fld :=
  ⟨(0x40 + 0x20 * j + 0x08), 0, 1, .ro, 0, false, false, []⟩
def Jack.J_STATUS_ACCESSORY (j : Nat) : Fld :=
  ⟨(0x40 + 0x20 * j + 0x08), 1, 3, .ro, 0, false, false, []⟩
def Jack.J_STATUS_BUTTON (j : Nat) : Fld :=
  ⟨(0x40 + 0x20 * j + 0x08), 4, 3, .ro, 0, false, false, []⟩
def Jack.J_STATUS_MICBIAS_ON (j : Nat) : Fld :=
  ⟨(0x40 + 0x20 * j + 0x08), 8, 1, .ro, 0, false, false, []⟩
def Jack.J_MIC_LEVEL (j : Nat) : Fld :=
  ⟨(0x40 + 0x20 * j + 0x0c), 0, 12, .ro, 0, false, false, []⟩
def Jack.J_DET_LEVEL (j : Nat) : Fld :=
  ⟨(0x40 + 0x20 * j + 0x0c), 16, 12, .ro, 0, false, false, []⟩
def Jack.J_EVT_FLAGS (j : Nat) : Fld :=
  ⟨(0x40 + 0x20 * j + 0x10), 0, 5, .cor, 0, false, false, []⟩
def Jack.SAR (c : Nat) : Fld :=
  ⟨(0x80 + 4 * c), 0, 12, .ro, 0, false, false, []⟩

/-- Every field of Jack (R472). -/
def Jack.fields : List Fld :=
  (List.range 2).map Jack.J_CTRL_EN ++
  (List.range 2).map Jack.J_CTRL_MICBIAS ++
  (List.range 2).map Jack.J_CTRL_DET_POL ++
  (List.range 2).map Jack.J_DEBOUNCE_INSERT ++
  (List.range 2).map Jack.J_DEBOUNCE_BUTTON ++
  (List.range 2).map Jack.J_STATUS_INSERTED ++
  (List.range 2).map Jack.J_STATUS_ACCESSORY ++
  (List.range 2).map Jack.J_STATUS_BUTTON ++
  (List.range 2).map Jack.J_STATUS_MICBIAS_ON ++
  (List.range 2).map Jack.J_MIC_LEVEL ++
  (List.range 2).map Jack.J_DET_LEVEL ++
  (List.range 2).map Jack.J_EVT_FLAGS ++
  (List.range 8).map Jack.SAR

/-! Twin (R506) -/

def Twin.CFG_MODE : Fld :=
  ⟨0x040, 0, 2, .rwi, 0, false, true, [(0, 2)]⟩
def Twin.CFG_AUTO_JOIN : Fld :=
  ⟨0x040, 4, 1, .rwi, 0, false, false, []⟩
def Twin.CFG_AUTO_TAKE : Fld :=
  ⟨0x040, 5, 1, .rwi, 1, false, false, []⟩
def Twin.CFG_CB_DUAL : Fld :=
  ⟨0x040, 6, 1, .rwi, 0, false, false, []⟩
def Twin.CLAIM_UND : Fld :=
  ⟨0x044, 0, 8, .rwi, 0x40, false, false, []⟩
def Twin.CLAIM_PRI : Fld :=
  ⟨0x044, 8, 8, .rwi, 0xc0, false, false, []⟩
def Twin.CLAIM_TAKE : Fld :=
  ⟨0x044, 16, 8, .rwi, 0xe0, false, false, []⟩
def Twin.CLAIM_NOW : Fld :=
  ⟨0x048, 0, 8, .ro, 0, false, false, []⟩
def Twin.CLAIM_SEEN : Fld :=
  ⟨0x048, 8, 8, .ro, 0, false, false, []⟩
def Twin.CLAIM_PEER : Fld :=
  ⟨0x048, 16, 8, .ro, 0, false, false, []⟩
def Twin.CLAIM_PEER_VALID : Fld :=
  ⟨0x048, 24, 1, .ro, 0, false, false, []⟩
def Twin.CLAIM_EGRESS_OPEN : Fld :=
  ⟨0x048, 25, 1, .ro, 0, false, false, []⟩
def Twin.STATE : Fld :=
  ⟨0x04c, 0, 4, .ro, 0, false, false, []⟩
def Twin.ROLE : Fld :=
  ⟨0x04c, 4, 1, .ro, 0, false, false, []⟩
def Twin.TWINID : Fld :=
  ⟨0x04c, 5, 1, .ro, 0, false, false, []⟩
def Twin.PEERPRES : Fld :=
  ⟨0x04c, 6, 1, .ro, 0, false, false, []⟩
def Twin.NET_HB_OK : Fld :=
  ⟨0x04c, 7, 1, .ro, 0, false, false, []⟩
def Twin.NET_HB_EN : Fld :=
  ⟨0x050, 0, 1, .rwi, 0, false, false, []⟩
def Twin.NET_HB_PORT : Fld :=
  ⟨0x050, 1, 2, .rwi, 0, false, false, []⟩
def Twin.NET_HB_DMAC_LO : Fld :=
  ⟨0x054, 0, 32, .rwi, 0, false, false, []⟩
def Twin.NET_HB_DMAC_HI : Fld :=
  ⟨0x058, 0, 16, .rwi, 0, false, false, []⟩
def Twin.PAIR_ID : Fld :=
  ⟨0x05c, 0, 32, .rwi, 0, false, false, []⟩
def Twin.SNAP_PERIOD : Fld :=
  ⟨0x060, 0, 16, .rwi, 0x3e8, false, false, [(100, 60000)]⟩
def Twin.VERIFY_BLOCKS : Fld :=
  ⟨0x064, 0, 16, .rwi, 0x1000, false, false, [(256, 65535)]⟩
def Twin.MIRROR_TDM : Fld :=
  ⟨0x068, 0, 16, .rwi, 0, false, false, []⟩
def Twin.SNAP_ID : Fld :=
  ⟨0x070, 0, 32, .ro, 0, false, false, []⟩
def Twin.SNAP_AGE : Fld :=
  ⟨0x074, 0, 32, .ro, 0xffffffff, false, false, []⟩
def Twin.LAG : Fld :=
  ⟨0x078, 0, 16, .ro, 0, false, false, []⟩
def Twin.DIVERGE_COUNT : Fld :=
  ⟨0x07c, 0, 32, .ro, 0, false, false, []⟩
def Twin.REPAIR_SAMPLES : Fld :=
  ⟨0x080, 0, 32, .ro, 0, false, false, []⟩
def Twin.REPAIR_SHORT : Fld :=
  ⟨0x084, 0, 32, .ro, 0, false, false, []⟩
def Twin.TAKEOVER_COUNT : Fld :=
  ⟨0x088, 0, 32, .ro, 0, false, false, []⟩
def Twin.EVENT_AT_LO : Fld :=
  ⟨0x08c, 0, 32, .ro, 0, false, false, []⟩
def Twin.EVENT_AT_HI : Fld :=
  ⟨0x090, 0, 32, .ro, 0, false, false, []⟩
def Twin.STREAM_MAC_LO (p : Nat) : Fld :=
  ⟨(0x0a0 + 0x10 * p), 0, 32, .rwi, 0, false, false, []⟩
def Twin.STREAM_MAC_HI (p : Nat) : Fld :=
  ⟨(0x0a4 + 0x10 * p), 0, 16, .rwi, 0, false, false, []⟩
def Twin.STREAM_IP (p : Nat) : Fld :=
  ⟨(0x0a8 + 0x10 * p), 0, 32, .rwi, 0, false, false, []⟩

/-- Every field of Twin (R506). -/
def Twin.fields : List Fld :=
  [Twin.CFG_MODE, Twin.CFG_AUTO_JOIN, Twin.CFG_AUTO_TAKE, Twin.CFG_CB_DUAL, Twin.CLAIM_UND, Twin.CLAIM_PRI, Twin.CLAIM_TAKE, Twin.CLAIM_NOW] ++
  [Twin.CLAIM_SEEN, Twin.CLAIM_PEER, Twin.CLAIM_PEER_VALID, Twin.CLAIM_EGRESS_OPEN, Twin.STATE, Twin.ROLE, Twin.TWINID, Twin.PEERPRES] ++
  [Twin.NET_HB_OK, Twin.NET_HB_EN, Twin.NET_HB_PORT, Twin.NET_HB_DMAC_LO, Twin.NET_HB_DMAC_HI, Twin.PAIR_ID, Twin.SNAP_PERIOD, Twin.VERIFY_BLOCKS] ++
  [Twin.MIRROR_TDM, Twin.SNAP_ID, Twin.SNAP_AGE, Twin.LAG, Twin.DIVERGE_COUNT, Twin.REPAIR_SAMPLES, Twin.REPAIR_SHORT, Twin.TAKEOVER_COUNT] ++
  [Twin.EVENT_AT_LO, Twin.EVENT_AT_HI] ++
  (List.range 4).map Twin.STREAM_MAC_LO ++
  (List.range 4).map Twin.STREAM_MAC_HI ++
  (List.range 4).map Twin.STREAM_IP

/-! Ndodom (R507) -/

def Ndodom.CFG_EN : Fld :=
  ⟨0x040, 0, 1, .rwi, 1, false, false, []⟩
def Ndodom.CFG_LANE_EN : Fld :=
  ⟨0x040, 1, 2, .rwi, 3, false, false, []⟩
def Ndodom.STATUS_LINK : Fld :=
  ⟨0x044, 0, 1, .ro, 0, false, false, []⟩
def Ndodom.STATUS_LANES_UP : Fld :=
  ⟨0x044, 1, 2, .ro, 0, false, false, []⟩
def Ndodom.STATUS_TRAINING : Fld :=
  ⟨0x044, 3, 1, .ro, 0, false, false, []⟩
def Ndodom.PEER_VARIANT : Fld :=
  ⟨0x048, 0, 32, .ro, 0, false, false, []⟩
def Ndodom.PEER_FW : Fld :=
  ⟨0x04c, 0, 32, .ro, 0, false, false, []⟩
def Ndodom.PEER_SERIAL_LO : Fld :=
  ⟨0x050, 0, 32, .ro, 0, false, false, []⟩
def Ndodom.PEER_SERIAL_HI : Fld :=
  ⟨0x054, 0, 32, .ro, 0, false, false, []⟩
def Ndodom.LATENCY : Fld :=
  ⟨0x058, 0, 16, .ro, 0, false, false, []⟩
def Ndodom.LOAD_LAST : Fld :=
  ⟨0x05c, 0, 8, .ro, 0, false, false, []⟩
def Ndodom.LOAD_PEAK : Fld :=
  ⟨0x05c, 8, 8, .cor, 0, false, false, []⟩
def Ndodom.CRC_ERRORS : Fld :=
  ⟨0x060, 0, 32, .ro, 0, false, false, []⟩
def Ndodom.RETRIES : Fld :=
  ⟨0x064, 0, 32, .ro, 0, false, false, []⟩
def Ndodom.LINK_DOWNS : Fld :=
  ⟨0x068, 0, 32, .ro, 0, false, false, []⟩

/-- Every field of Ndodom (R507). -/
def Ndodom.fields : List Fld :=
  [Ndodom.CFG_EN, Ndodom.CFG_LANE_EN, Ndodom.STATUS_LINK, Ndodom.STATUS_LANES_UP, Ndodom.STATUS_TRAINING, Ndodom.PEER_VARIANT, Ndodom.PEER_FW, Ndodom.PEER_SERIAL_LO] ++
  [Ndodom.PEER_SERIAL_HI, Ndodom.LATENCY, Ndodom.LOAD_LAST, Ndodom.LOAD_PEAK, Ndodom.CRC_ERRORS, Ndodom.RETRIES, Ndodom.LINK_DOWNS]

/-! Dramc (R518) -/

def Dramc.NRR_K : Fld :=
  ⟨0x040, 0, 5, .rwi, 11, false, false, [(8, 16)]⟩
def Dramc.SCRUB_HOURS : Fld :=
  ⟨0x040, 8, 8, .rwi, 0x18, false, false, [(1, 168)]⟩
def Dramc.POOL_SIZE : Fld :=
  ⟨0x044, 0, 16, .ro, 0, false, false, []⟩
def Dramc.STATUS_TRAINED : Fld :=
  ⟨0x048, 0, 1, .ro, 0, false, false, []⟩
def Dramc.STATUS_ECC_ON : Fld :=
  ⟨0x048, 1, 1, .ro, 0, false, false, []⟩
def Dramc.STATUS_REFRESH_2X : Fld :=
  ⟨0x048, 2, 1, .ro, 0, false, false, []⟩
def Dramc.STATUS_FULL_RETRAIN : Fld :=
  ⟨0x048, 3, 1, .ro, 0, false, false, []⟩
def Dramc.CE_COUNT : Fld :=
  ⟨0x04c, 0, 32, .ro, 0, false, false, []⟩
def Dramc.UE_COUNT : Fld :=
  ⟨0x050, 0, 32, .ro, 0, false, false, []⟩
def Dramc.CE_ADDR_LO : Fld :=
  ⟨0x054, 0, 32, .ro, 0, false, false, []⟩
def Dramc.CE_ADDR_HI : Fld :=
  ⟨0x058, 0, 2, .ro, 0, false, false, []⟩
def Dramc.UE_ADDR_LO : Fld :=
  ⟨0x05c, 0, 32, .ro, 0, false, false, []⟩
def Dramc.UE_ADDR_HI : Fld :=
  ⟨0x060, 0, 2, .ro, 0, false, false, []⟩
def Dramc.UE_REGION : Fld :=
  ⟨0x064, 0, 3, .ro, 0, false, false, []⟩
def Dramc.UE_UNIT : Fld :=
  ⟨0x064, 16, 10, .ro, 0, false, false, []⟩
def Dramc.NRR_COUNT : Fld :=
  ⟨0x068, 0, 32, .ro, 0, false, false, []⟩
def Dramc.SCRUB_PASSES : Fld :=
  ⟨0x06c, 0, 32, .ro, 0, false, false, []⟩
def Dramc.STORM_LIMIT : Fld :=
  ⟨0x070, 0, 16, .rwi, 0x100, false, false, [(1, 65535)]⟩
def Dramc.BW_LAST : Fld :=
  ⟨0x074, 0, 8, .ro, 0, false, false, []⟩
def Dramc.BW_PEAK : Fld :=
  ⟨0x074, 8, 8, .cor, 0, false, false, []⟩

/-- Every field of Dramc (R518). -/
def Dramc.fields : List Fld :=
  [Dramc.NRR_K, Dramc.SCRUB_HOURS, Dramc.POOL_SIZE, Dramc.STATUS_TRAINED, Dramc.STATUS_ECC_ON, Dramc.STATUS_REFRESH_2X, Dramc.STATUS_FULL_RETRAIN, Dramc.CE_COUNT] ++
  [Dramc.UE_COUNT, Dramc.CE_ADDR_LO, Dramc.CE_ADDR_HI, Dramc.UE_ADDR_LO, Dramc.UE_ADDR_HI, Dramc.UE_REGION, Dramc.UE_UNIT, Dramc.NRR_COUNT] ++
  [Dramc.SCRUB_PASSES, Dramc.STORM_LIMIT, Dramc.BW_LAST, Dramc.BW_PEAK]

/-! Health (R527) -/

def Health.WARN_TEMP : Fld :=
  ⟨0x040, 0, 8, .rwi, 0x64, false, false, []⟩
def Health.THROTTLE_EN : Fld :=
  ⟨0x044, 0, 1, .rwi, 0, false, false, []⟩
def Health.THROTTLE_TEMP : Fld :=
  ⟨0x044, 8, 8, .rwi, 0x6e, false, false, [(106, 114)]⟩
def Health.AVS_MODE : Fld :=
  ⟨0x048, 0, 1, .rwi, 0, false, false, []⟩
def Health.AVS_FIXED_MV : Fld :=
  ⟨0x048, 6, 10, .rwi, 0x2ee, false, false, [(700, 850)]⟩
def Health.AVS_ADDR : Fld :=
  ⟨0x048, 16, 7, .rwi, 0x40, false, false, []⟩
def Health.CORE_MV : Fld :=
  ⟨0x04c, 0, 10, .ro, 0, false, false, []⟩
def Health.TEMP_HOT : Fld :=
  ⟨0x050, 0, 16, .ro, 0x1900, false, false, []⟩
def Health.TEMP_HOT_SENSOR : Fld :=
  ⟨0x050, 16, 4, .ro, 0, false, false, []⟩
def Health.TEMP_PEAK : Fld :=
  ⟨0x054, 0, 16, .cor, 0x1900, false, false, []⟩
def Health.STATE_THERM : Fld :=
  ⟨0x058, 0, 2, .ro, 0, false, false, []⟩
def Health.STATE_THROTTLED : Fld :=
  ⟨0x058, 2, 1, .ro, 0, false, false, []⟩
def Health.STATE_AVS_HOLD : Fld :=
  ⟨0x058, 3, 1, .ro, 0, false, false, []⟩
def Health.VMON_FLAGS : Fld :=
  ⟨0x05c, 0, 12, .cor, 0, false, false, []⟩
def Health.SRAM_CE_COUNT : Fld :=
  ⟨0x060, 0, 32, .ro, 0, false, false, []⟩
def Health.SRAM_UE_COUNT : Fld :=
  ⟨0x064, 0, 32, .ro, 0, false, false, []⟩
def Health.TEMP (i : Nat) : Fld :=
  ⟨(0x080 + 4 * i), 0, 16, .ro, 0x1900, false, false, []⟩
def Health.VMON (m : Nat) : Fld :=
  ⟨(0x0c0 + 4 * m), 0, 12, .ro, 0, false, false, []⟩
def Health.RO_COUNT (r : Nat) : Fld :=
  ⟨(0x100 + 4 * r), 0, 16, .ro, 0, false, false, []⟩

/-- Every field of Health (R527). -/
def Health.fields : List Fld :=
  [Health.WARN_TEMP, Health.THROTTLE_EN, Health.THROTTLE_TEMP, Health.AVS_MODE, Health.AVS_FIXED_MV, Health.AVS_ADDR, Health.CORE_MV, Health.TEMP_HOT] ++
  [Health.TEMP_HOT_SENSOR, Health.TEMP_PEAK, Health.STATE_THERM, Health.STATE_THROTTLED, Health.STATE_AVS_HOLD, Health.VMON_FLAGS, Health.SRAM_CE_COUNT, Health.SRAM_UE_COUNT] ++
  (List.range 16).map Health.TEMP ++
  (List.range 12).map Health.VMON ++
  (List.range 8).map Health.RO_COUNT

/-! Reset (R544) -/

def Reset.CTRL_WARM : Fld :=
  ⟨0x040, 0, 1, .wo, 0, false, false, []⟩
def Reset.CTRL_COMMIT_ROLLBACK : Fld :=
  ⟨0x040, 1, 1, .wo, 0, false, false, []⟩
def Reset.CAUSE : Fld :=
  ⟨0x044, 0, 4, .ro, 0, false, false, []⟩
def Reset.FALLBACK : Fld :=
  ⟨0x044, 8, 1, .ro, 0, false, false, []⟩
def Reset.FLASH_RELOAD : Fld :=
  ⟨0x044, 9, 1, .ro, 0, false, false, []⟩
def Reset.BOOT_BOOTSEL : Fld :=
  ⟨0x048, 0, 2, .ro, 0, false, false, []⟩
def Reset.BOOT_SLOT : Fld :=
  ⟨0x048, 4, 1, .ro, 0, false, false, []⟩
def Reset.BOOT_STAGE : Fld :=
  ⟨0x048, 8, 4, .ro, 0, false, false, []⟩
def Reset.ROLLBACK_FUSED : Fld :=
  ⟨0x04c, 0, 7, .ro, 0, false, false, []⟩
def Reset.ROLLBACK_IMAGE : Fld :=
  ⟨0x04c, 16, 7, .ro, 0, false, false, []⟩
def Reset.BOOT_MS : Fld :=
  ⟨0x050, 0, 16, .ro, 0, false, false, []⟩
def Reset.WARM_COUNT : Fld :=
  ⟨0x054, 0, 32, .ro, 0, false, false, []⟩
def Reset.DEFCFG_LOADED : Fld :=
  ⟨0x058, 0, 1, .ro, 0, false, false, []⟩
def Reset.DEFCFG_FAILED : Fld :=
  ⟨0x058, 1, 1, .ro, 0, false, false, []⟩
def Reset.DEFCFG_INDEX : Fld :=
  ⟨0x058, 16, 16, .ro, 0, false, false, []⟩
def Reset.PUSH_LEN : Fld :=
  ⟨0x080, 0, 23, .rwi, 0, false, false, []⟩
def Reset.PUSH_GO : Fld :=
  ⟨0x084, 0, 1, .wo, 0, false, false, []⟩
def Reset.PUSH_STATE : Fld :=
  ⟨0x088, 0, 3, .ro, 0, false, false, []⟩

/-- Every field of Reset (R544). -/
def Reset.fields : List Fld :=
  [Reset.CTRL_WARM, Reset.CTRL_COMMIT_ROLLBACK, Reset.CAUSE, Reset.FALLBACK, Reset.FLASH_RELOAD, Reset.BOOT_BOOTSEL, Reset.BOOT_SLOT, Reset.BOOT_STAGE] ++
  [Reset.ROLLBACK_FUSED, Reset.ROLLBACK_IMAGE, Reset.BOOT_MS, Reset.WARM_COUNT, Reset.DEFCFG_LOADED, Reset.DEFCFG_FAILED, Reset.DEFCFG_INDEX, Reset.PUSH_LEN] ++
  [Reset.PUSH_GO, Reset.PUSH_STATE]

/-! EthStat (R344) -/

def EthStat.COUNTER (i : Nat) : Fld :=
  ⟨(0x100 + 4 * i), 0, 32, .ro, 0, false, false, []⟩
def EthStat.HALF_LO : Fld :=
  ⟨0x40, 0, 32, .cor, 0, false, false, []⟩
def EthStat.HALF_HI : Fld :=
  ⟨0x44, 0, 32, .cor, 0, false, false, []⟩

/-- Every field of EthStat (R344). -/
def EthStat.fields : List Fld :=
  [EthStat.HALF_LO, EthStat.HALF_HI] ++
  (List.range 48).map EthStat.COUNTER

/-! RoutePage (R52) -/

def RoutePage.WINDOW_BASE : Fld :=
  ⟨0x50, 3, 6, .rwi, 0, false, false, []⟩

/-- Every field of RoutePage (R52). -/
def RoutePage.fields : List Fld :=
  [RoutePage.WINDOW_BASE]

/-! Hdr (R46) -/

def Hdr.ENABLE : Fld :=
  ⟨0x8, 0, 1, .rw, 0, false, false, []⟩
def Hdr.BLOCK_RESET : Fld :=
  ⟨0x8, 1, 1, .wo, 0, false, false, []⟩
def Hdr.UPD_GROUP : Fld :=
  ⟨0x8, 8, 8, .rwi, 0, false, false, []⟩
def Hdr.LOCK : Fld :=
  ⟨0x8, 31, 1, .rwi, 0, false, false, []⟩
def Hdr.EVENTS : Fld :=
  ⟨0xc, 0, 31, .cor, 0, false, false, []⟩
def Hdr.STAGED_PENDING : Fld :=
  ⟨0xc, 31, 1, .ro, 0, false, false, []⟩
def Hdr.INT_SRC : Fld :=
  ⟨0x10, 0, 32, .ro, 0, false, false, []⟩
def Hdr.INT_EN : Fld :=
  ⟨0x14, 0, 32, .rwi, 0, false, false, []⟩
def Hdr.INT_PEND : Fld :=
  ⟨0x18, 0, 32, .ro, 0, false, false, []⟩
def Hdr.OWNER_SEAT : Fld :=
  ⟨0x1c, 0, 3, .ro, 0, false, false, []⟩
def Hdr.OWNER_SHARED : Fld :=
  ⟨0x1c, 8, 1, .ro, 0, false, false, []⟩
def Hdr.APPLIED_COMMIT : Fld :=
  ⟨0x20, 0, 32, .ro, 0, false, false, []⟩
def Hdr.COPY_AGE : Fld :=
  ⟨0x24, 0, 8, .ro, 0, false, false, []⟩
def Hdr.ERR_OFFSET : Fld :=
  ⟨0x28, 0, 12, .cor, 0, false, false, []⟩
def Hdr.ERR_REASON : Fld :=
  ⟨0x28, 16, 8, .cor, 0, false, false, []⟩
def Hdr.ERR_SEAT : Fld :=
  ⟨0x28, 27, 3, .cor, 0, false, false, []⟩
def Hdr.ERR_MULTI : Fld :=
  ⟨0x28, 30, 1, .cor, 0, false, false, []⟩
def Hdr.ERR_VALID : Fld :=
  ⟨0x28, 31, 1, .cor, 0, false, false, []⟩

/-- Every field of Hdr (R46). -/
def Hdr.fields : List Fld :=
  [Hdr.ENABLE, Hdr.BLOCK_RESET, Hdr.UPD_GROUP, Hdr.LOCK, Hdr.EVENTS, Hdr.STAGED_PENDING, Hdr.INT_SRC, Hdr.INT_EN] ++
  [Hdr.INT_PEND, Hdr.OWNER_SEAT, Hdr.OWNER_SHARED, Hdr.APPLIED_COMMIT, Hdr.COPY_AGE, Hdr.ERR_OFFSET, Hdr.ERR_REASON, Hdr.ERR_SEAT] ++
  [Hdr.ERR_MULTI, Hdr.ERR_VALID]

end Sys2Proof.Machine.Reg
end

