-- ==== Sys2Proof/Machine/Store.lean ====
section
/-! DEFINITION. The keyed store: read, write and its canonical form. -/

namespace Sys2Proof

/-- What key `k` reads as; an unlisted key reads as `d`. Keys rise, so the search ends at the first greater one. -/
def Map.get {α : Type} (d : α) (k : Nat) : Map α → α
  | [] => d
  | (k', v) :: m => if k < k' then d else if k = k' then v else Map.get d k m

/-- Write `v` at key `k`. Writing `d` removes the entry, so equal stores are equal lists. -/
def Map.put {α : Type} [DecidableEq α] (d : α) (k : Nat) (v : α) : Map α → Map α
  | [] => if v = d then [] else [(k, v)]
  | (k', v') :: m =>
    if k < k' then (if v = d then (k', v') :: m else (k, v) :: (k', v') :: m)
    else if k = k' then (if v = d then m.dropWhile (fun e => e.1 ≤ k) else (k, v) :: m)
    else (k', v') :: Map.put d k v m

/-- Every entry lies above `lo` (when given), keys rise strictly and no entry equals `d`. -/
def Map.wfFrom {α : Type} [DecidableEq α] (d : α) : Option Nat → Map α → Bool
  | _, [] => true
  | lo, (k, v) :: m =>
    (match lo with
      | none => true
      | some l => decide (l < k)) && decide (v ≠ d) && Map.wfFrom d (some k) m

/-- The canonical form of a store. -/
def Map.wf {α : Type} [DecidableEq α] (d : α) (m : Map α) : Bool := Map.wfFrom d none m

/-- The entries that a read can find: each key is greater than every key before it. -/
def Map.rising {α : Type} : Option Nat → Map α → Map α
  | _, [] => []
  | lo, (k, v) :: m =>
    if (match lo with
      | none => true
      | some l => decide (l < k)) then (k, v) :: Map.rising (some k) m else Map.rising lo m

/-- Keep only the entries whose key satisfies `p`. -/
def Map.only {α : Type} (p : Nat → Bool) (m : Map α) : Map α := (m.rising none).filter (fun e => p e.1)

/-- Drop every entry whose key satisfies `p`: those keys then read as the default. -/
def Map.drop {α : Type} (p : Nat → Bool) (m : Map α) : Map α := Map.only (fun k => !p k) m

/-- Change every entry. -/
def Map.update {α : Type} [DecidableEq α] (d : α) (f : α → α) (m : Map α) : Map α :=
  ((m.rising none).map (fun e => (e.1, f e.2))).filter (fun e => e.2 ≠ d)

/-- Set or clear membership of a number in a list kept as a set. -/
def setMem (x : Nat) (on : Bool) (l : List Nat) : List Nat :=
  if on then (if x ∈ l then l else x :: l) else l.filter (· ≠ x)

end Sys2Proof
end

