-- ==== Sys2Proof/Terms.lean ====
section
/-! DEFINITION. The data that commands carry: pages and records, writers, ports, messages. -/

namespace Sys2Proof

/-- A register page or a record with an owner and an update group of its own (R43, R51, R53). -/
inductive Blk where
  | device | update | clocks | health | resetPage | greenroom | callGlobal | curtain | busMatrix
  | dramc | ringmaster | trace | twin | ndodom | mailbox
  | seat (s : Nat) | callSeat (s : Nat) | tdm (k : Nat) | aesRx (k : Nat) | aesTx (k : Nat)
  | ethMac (p : Nat) | ethCls (p : Nat) | ethGate (p : Nat) | ethStat (p : Nat)
  | time (i : Nat) | mediaClk | tsq | inPage (n : Nat) | egPage (n : Nat)
  | render | layout | pan | path | correct | measure | capture | protect | psGlobal | monitor
  | jack | prompterGlobal | asrc | prompter (s : Nat)
  | objPage (n : Nat) | outPage (n : Nat) | busPage (n : Nat) | routePage (n : Nat) | ps (k : Nat)
  /-- Object record n (R79). -/
  | obj (n : Nat)
  /-- Output record n. -/
  | out (n : Nat)
  /-- Bus record n. -/
  | bus (n : Nat)
  /-- Direct route r, shown through a window (R52). -/
  | route (r : Nat)
  /-- Ingress stream n, shown through a window (R325). -/
  | ingress (n : Nat)
  /-- Egress stream n, shown through a window (R325). -/
  | egress (n : Nat)
  /-- The bank of the UPDATE page that seat s reads (R65). -/
  | updateBank (s : Nat)
  deriving DecidableEq, Repr

/-- Who makes a register access. -/
inductive Writer where
  /-- A host on seat s, over PCIe or Stagedoor. -/
  | seat (s : Nat)
  /-- The Prompter of seat s (R431). -/
  | prompter (s : Nat)
  /-- The BMC target of the greenroom (R473). -/
  | bmc
  deriving DecidableEq, Repr

/-- A section of a TDM port, or an AES3 receiver (R298). -/
inductive Port where
  | tdmRx (k : Nat)
  | tdmTx (k : Nat)
  | aesRx (k : Nat)
  deriving DecidableEq, Repr

/-- What a received PTP message establishes at its instance (R360). Times in 2^-16 ns. -/
inductive PtpMsg where
  /-- A Sync, with its Follow_Up if it is two-step: the receive stamp on instance time less the origin
  timestamp and corrections. -/
  | sync (d : Int)
  /-- An Announce: grandmaster, steps removed, its class, and the port state the profile's best master
  clock algorithm then gives (R351, R369). -/
  | announce (gm steps cls state : Nat)
  /-- The end of a delay measurement: the mean path delay. -/
  | delay (mean : Nat)
  /-- The end of a peer delay measurement: the mean path delay and the neighbour rate ratio - 1 in
  2^-16 ppb. -/
  | peerDelay (mean : Nat) (ratio : Int)
  deriving DecidableEq, Repr

/-- How a frame was received (R344). -/
inductive RxErr where
  | none
  | fcs
  | code
  /-- The host-data buffer was full. -/
  | overrun
  deriving DecidableEq, Repr

end Sys2Proof
end

