-- ==== Sys2Proof/Machine/Units.lean ====
section
/-! DEFINITION. The register window: where each page and record lies, its type, its class, its
fields, and how an address resolves (R1, R5, R43 to R46, R51 to R53, R79, R325). -/

namespace Sys2Proof

/-- LEVEL word w of the CALLBOARD global page (R461). -/
def Machine.Reg.CallGlobal.LEVEL (w : Nat) : Fld := ⟨0x100 + 4 * w, 0, 32, .ro, 0, false, false, []⟩

/-- Where a page or record keeps its words: its window address, or, for records shown through a
window and for the banks of the UPDATE page, a place beyond the 16 MiB window. -/
def Blk.base : Blk → Nat
  | .device => 0x000000 | .update => 0x001000 | .clocks => 0x003000 | .health => 0x004000
  | .resetPage => 0x005000 | .greenroom => 0x006000 | .callGlobal => 0x007000
  | .curtain => 0x008000 | .busMatrix => 0x009000 | .dramc => 0x00A000
  | .ringmaster => 0x00B000 | .trace => 0x00C000 | .twin => 0x00D000 | .ndodom => 0x00E000
  | .mailbox => 0x00F000
  | .seat s => 0x010000 + 0x1000 * s | .callSeat s => 0x018000 + 0x1000 * s
  | .tdm k => 0x020000 + 0x1000 * k | .aesRx k => 0x030000 + 0x1000 * k
  | .aesTx k => 0x038000 + 0x1000 * k
  | .ethMac p => 0x040000 + 0x1000 * p | .ethCls p => 0x044000 + 0x1000 * p
  | .ethGate p => 0x048000 + 0x1000 * p | .ethStat p => 0x04C000 + 0x1000 * p
  | .time i => 0x050000 + 0x1000 * i | .mediaClk => 0x052000 | .tsq => 0x053000
  | .inPage n => 0x054000 + 0x1000 * n | .egPage n => 0x058000 + 0x1000 * n
  | .render => 0x060000 | .layout => 0x061000 | .pan => 0x062000 | .path => 0x063000
  | .correct => 0x064000 | .measure => 0x065000 | .capture => 0x066000 | .protect => 0x067000
  | .psGlobal => 0x068000 | .monitor => 0x069000 | .jack => 0x06A000
  | .prompterGlobal => 0x06B000 | .asrc => 0x06C000 | .prompter s => 0x070000 + 0x1000 * s
  | .objPage n => 0x100000 + 0x1000 * n | .outPage n => 0x180000 + 0x1000 * n
  | .busPage n => 0x1C0000 + 0x1000 * n | .routePage n => 0x1C8000 + 0x1000 * n
  | .ps k => 0x1D0000 + 0x1000 * k
  | .obj n => 0x100400 + 0x1000 * (n / 8) + 0x80 * (n % 8)
  | .out n => 0x180400 + 0x1000 * (n / 8) + 0x80 * (n % 8)
  | .bus n => 0x1C0400 + 0x1000 * (n / 8) + 0x80 * (n % 8)
  | .route r => 0x2200000 + 0x80 * r
  | .ingress n => 0x2400000 + 0x80 * n
  | .egress n => 0x2500000 + 0x80 * n
  | .updateBank s => 0x2000000 + 0x1000 * s

/-- The page whose header, ERR_LOG and events serve a page or record. -/
def Blk.page : Blk → Blk
  | .obj n => .objPage (n / 8)
  | .out n => .outPage (n / 8)
  | .bus n => .busPage (n / 8)
  | .route r => .routePage (r / 512)
  | .ingress n => .inPage (n / 64)
  | .egress n => .egPage (n / 64)
  | .updateBank _ => .update
  | b => b

/-- A record of a table page, with an owner and a group of its own (R51, R53). -/
def Blk.isRecord : Blk → Bool
  | .obj _ | .out _ | .bus _ | .route _ | .ingress _ | .egress _ => true
  | _ => false

/-- PAGE_ID.BLOCK_TYPE and PAGE_ID.INSTANCE (R43). -/
def Blk.ident : Blk → Nat × Nat
  | .device => (0x0001, 0) | .update | .updateBank _ => (0x0002, 0)
  | .clocks => (0x0004, 0) | .health => (0x0005, 0) | .resetPage => (0x0006, 0)
  | .greenroom => (0x0007, 0) | .callGlobal => (0x0008, 0) | .curtain => (0x0009, 0)
  | .busMatrix => (0x000A, 0) | .dramc => (0x000B, 0) | .ringmaster => (0x000C, 0)
  | .trace => (0x000D, 0) | .twin => (0x000E, 0) | .ndodom => (0x000F, 0)
  | .mailbox => (0x0010, 0) | .seat s => (0x0003, s) | .callSeat s => (0x0011, s)
  | .tdm k => (0x0020, k) | .aesRx k => (0x0021, k) | .aesTx k => (0x0022, k)
  | .ethMac p => (0x0030, p) | .ethCls p => (0x0031, p) | .ethGate p => (0x0032, p)
  | .ethStat p => (0x0033, p) | .time i => (0x0040, i) | .mediaClk => (0x0041, 0)
  | .tsq => (0x0042, 0) | .inPage n => (0x0043, n) | .egPage n => (0x0044, n)
  | .ingress n => (0x0043, n / 64) | .egress n => (0x0044, n / 64)
  | .render => (0x0050, 0) | .layout => (0x0051, 0) | .pan => (0x0052, 0) | .path => (0x0053, 0)
  | .correct => (0x0054, 0) | .measure => (0x0055, 0) | .capture => (0x0056, 0)
  | .protect => (0x0057, 0) | .psGlobal => (0x0058, 0) | .monitor => (0x0059, 0)
  | .jack => (0x005A, 0) | .prompterGlobal => (0x005B, 0) | .asrc => (0x005C, 0)
  | .prompter s => (0x005D, s) | .objPage n => (0x0060, n) | .outPage n => (0x0061, n)
  | .busPage n => (0x0062, n) | .routePage n => (0x0063, n)
  | .obj n => (0x0060, n / 8) | .out n => (0x0061, n / 8) | .bus n => (0x0062, n / 8)
  | .route r => (0x0063, r / 512) | .ps k => (0x0064, k)

/-- The ownership classes of R43 and R50. -/
inductive OwnerClass where
  /-- DEVICE: read-only to all seats. -/
  | readOnly
  /-- UPDATE: every seat writes its own bank. -/
  | banked
  | house
  | seat (s : Nat)
  | assignable
  deriving DecidableEq, Repr

def Blk.ownerClass : Blk → OwnerClass
  | .device => .readOnly
  | .update | .updateBank _ => .banked
  | .seat s | .callSeat s | .prompter s => .seat s
  | .tdm _ | .aesRx _ | .aesTx _ | .ethMac _ | .ethCls _ | .ethGate _ | .ethStat _ | .inPage _
  | .egPage _ | .monitor | .objPage _ | .outPage _ | .busPage _ | .routePage _ | .ps _
  | .obj _ | .out _ | .bus _ | .route _ | .ingress _ | .egress _ => .assignable
  | _ => .house

/-- The page whose OWNER governs a page: the MAC page for the pages of one Ethernet port (R43). -/
def Blk.ownerPage : Blk → Blk
  | .ethCls p | .ethGate p | .ethStat p => .ethMac p
  | b => b

/-- The chapter's fields of a page or record; the header comes on top. -/
def Blk.fields : Blk → List Fld
  | .device => Machine.Reg.Device.fields
  | .update => Machine.Reg.Update.fields
  | .updateBank _ => Machine.Reg.Update.fields
  | .clocks => Machine.Reg.Clocks.fields
  | .health => Machine.Reg.Health.fields
  | .resetPage => Machine.Reg.Reset.fields
  | .greenroom => Machine.Reg.Greenroom.fields
  | .curtain => Machine.Reg.Curtain.fields
  | .busMatrix => Machine.Reg.BusMatrix.fields
  | .dramc => Machine.Reg.Dramc.fields
  | .ringmaster => Machine.Reg.Ringmaster.fields
  | .trace => Machine.Reg.Trace.fields
  | .twin => Machine.Reg.Twin.fields
  | .ndodom => Machine.Reg.Ndodom.fields
  | .seat _ => Machine.Reg.Seat.fields
  | .callSeat _ => Machine.Reg.CallSeat.fields
  | .tdm _ => Machine.Reg.Tdm.fields
  | .aesRx _ => Machine.Reg.AesRx.fields
  | .aesTx _ => Machine.Reg.AesTx.fields
  | .ethMac _ => Machine.Reg.EthMac.fields
  | .ethCls _ => Machine.Reg.EthCls.fields
  | .ethGate _ => Machine.Reg.EthGate.fields
  | .ethStat _ => Machine.Reg.EthStat.fields
  | .time i => Machine.Reg.Time.fields i
  | .mediaClk => Machine.Reg.MediaClk.fields
  | .tsq => Machine.Reg.Tsq.fields
  | .inPage _ | .egPage _ => Machine.Reg.Streams.fields
  | .render => Machine.Reg.Render.fields
  | .layout => Machine.Reg.Layout.fields
  | .pan => Machine.Reg.Pan.fields
  | .path => Machine.Reg.Path.fields
  | .correct => Machine.Reg.Correct.fields
  | .measure => Machine.Reg.Measure.fields
  | .capture => Machine.Reg.Capture.fields
  | .protect => Machine.Reg.Protect.fields
  | .psGlobal => Machine.Reg.PsGlobal.fields
  | .monitor => Machine.Reg.Monitor.fields
  | .jack => Machine.Reg.Jack.fields
  | .prompterGlobal => Machine.Reg.PrompterGlobal.fields
  | .asrc => Machine.Reg.Asrc.fields
  | .prompter _ => Machine.Reg.Prompter.fields
  | .routePage _ => Machine.Reg.RoutePage.fields
  | .ps k => Machine.Reg.Ps.fields k
  | .obj _ => Machine.Reg.Obj.fields
  | .out _ => Machine.Reg.Out.fields
  | .bus _ => Machine.Reg.Bus.fields
  | .route _ => Machine.Reg.Route.fields
  | .ingress _ => Machine.Reg.Ingress.fields
  | .egress _ => Machine.Reg.Egress.fields
  | .callGlobal => (List.range 64).map Machine.Reg.CallGlobal.LEVEL
  | .mailbox | .objPage _ | .outPage _ | .busPage _ => []

/-- Header fields and chapter fields together: what a read of the word or a commit looks at. -/
def Blk.allFields (b : Blk) : List Fld :=
  if b.isRecord then b.fields else Machine.Reg.Hdr.fields ++ b.fields

/-- The three models of R1. -/
inductive Model where
  | m960 | m940 | m920
  deriving DecidableEq, Repr

namespace Model

/-- Pick the figure of the model. -/
def pick {α : Type} (m : Model) (a b c : α) : α :=
  match m with
  | .m960 => a
  | .m940 => b
  | .m920 => c

def code (m : Model) : Nat := m.pick 0x960 0x940 0x920
def objects (m : Model) : Nat := m.pick 1024 512 256
def outputs (m : Model) : Nat := m.pick 512 256 128
def paths (m : Model) : Nat := m.pick 65536 32768 16384
def taps (m : Model) : Nat := m.pick 4194304 2097152 1048576
def buses (m : Model) : Nat := m.pick 64 64 32
def tdms (m : Model) : Nat := m.pick 16 8 4
def aes (m : Model) : Nat := m.pick 8 4 2
def eths (m : Model) : Nat := m.pick 4 2 2
def pss (m : Model) : Nat := m.pick 16 8 0
def pdms (m : Model) : Nat := m.pick 16 8 4
def monitor (m : Model) : Bool := m.pick true true false
def lockstep (m : Model) : Bool := m.pick true false false
def dramMiB (m : Model) : Nat := m.pick 16384 8192 4096
def seats (m : Model) : Nat := m.pick 8 8 4
def prompters (m : Model) : Nat := m.pick 8 8 4

/-- BIND of a seat without a boot configuration: KIND in [1:0], INDEX in [3:2] (R395). -/
def bindDefault (m : Model) (seat : Nat) : Nat :=
  let per := m.seats / 2
  if seat < per then 1 + 4 * seat else if seat < m.seats then 2 + 4 * (seat - per) else 0

end Model

/-- Does the model carry the unit (R1, R2)? The PSGLOBAL page of a 920, which has no power-bridge channel, counts as the
page of an absent unit (DESIGN CHOICE, log entry 27: R287 says only that the fields of absent channels read 0). -/
def Blk.present (m : Model) : Blk → Bool
  | .seat s | .callSeat s | .updateBank s => s < m.seats
  | .prompter s => s < m.prompters
  | .tdm k => k < m.tdms
  | .aesRx k | .aesTx k => k < m.aes
  | .ethMac p | .ethCls p | .ethGate p | .ethStat p => p < m.eths
  | .time i => i < 2
  | .inPage n | .egPage n => n < 4
  | .ingress n | .egress n => n < 256
  | .monitor => m.monitor
  | .objPage n => 8 * n < m.objects
  | .obj n => n < m.objects
  | .outPage n => 8 * n < m.outputs
  | .out n => n < m.outputs
  | .busPage n => 8 * n < m.buses
  | .bus n => n < m.buses
  | .routePage n => n < 4
  | .route r => r < 2048
  | .ps k => k < m.pss
  | .psGlobal => 0 < m.pss
  | _ => true

/-- Every page and record that has an update group, in address order. -/
def allBlks : List Blk :=
  [.device, .update, .clocks, .health, .resetPage, .greenroom, .callGlobal, .curtain, .busMatrix, .dramc,
   .ringmaster, .trace, .twin, .ndodom, .mailbox] ++
  (List.range 8).map .seat ++ (List.range 8).map .callSeat ++ (List.range 16).map .tdm ++
  (List.range 8).map .aesRx ++ (List.range 8).map .aesTx ++ (List.range 4).map .ethMac ++
  (List.range 4).map .ethCls ++ (List.range 4).map .ethGate ++ (List.range 4).map .ethStat ++
  [.time 0, .time 1, .mediaClk, .tsq] ++
  (List.range 4).flatMap (fun p => Blk.inPage p :: (List.range 64).map (fun i => .ingress (64 * p + i))) ++
  (List.range 4).flatMap (fun p => Blk.egPage p :: (List.range 64).map (fun i => .egress (64 * p + i))) ++
  [.render, .layout, .pan, .path, .correct, .measure, .capture, .protect, .psGlobal, .monitor,
   .jack, .prompterGlobal, .asrc] ++
  (List.range 8).map .prompter ++
  (List.range 128).flatMap (fun p => Blk.objPage p :: (List.range 8).map (fun i => .obj (8 * p + i))) ++
  (List.range 64).flatMap (fun p => Blk.outPage p :: (List.range 8).map (fun i => .out (8 * p + i))) ++
  (List.range 8).flatMap (fun p => Blk.busPage p :: (List.range 8).map (fun i => .bus (8 * p + i))) ++
  (List.range 4).flatMap (fun p => Blk.routePage p :: (List.range 512).map (fun i => .route (512 * p + i))) ++
  (List.range 16).map .ps

/-- The records of a table page. -/
def recordsOf : Blk → List Blk
  | .objPage n => (List.range 8).map (fun i => .obj (8 * n + i))
  | .outPage n => (List.range 8).map (fun i => .out (8 * n + i))
  | .busPage n => (List.range 8).map (fun i => .bus (8 * n + i))
  | .routePage n => (List.range 512).map (fun i => .route (512 * n + i))
  | .inPage n => (List.range 64).map (fun i => .ingress (64 * n + i))
  | .egPage n => (List.range 64).map (fun i => .egress (64 * n + i))
  | _ => []

/-- The page at a page index (address >> 12) of the window (R43); `self` is the reading seat. -/
def pageAt (self : Nat) (pi : Nat) : Option Blk :=
  if pi = 0x02 then some (.seat self)
  else if pi < 0x10 then
    [Blk.device, .update, .update, .clocks, .health, .resetPage, .greenroom, .callGlobal,
     .curtain, .busMatrix, .dramc, .ringmaster, .trace, .twin, .ndodom, .mailbox][pi]?
  else if pi < 0x18 then some (.seat (pi - 0x10))
  else if pi < 0x20 then some (.callSeat (pi - 0x18))
  else if pi < 0x30 then some (.tdm (pi - 0x20))
  else if pi < 0x38 then some (.aesRx (pi - 0x30))
  else if pi < 0x40 then some (.aesTx (pi - 0x38))
  else if pi < 0x44 then some (.ethMac (pi - 0x40))
  else if pi < 0x48 then some (.ethCls (pi - 0x44))
  else if pi < 0x4C then some (.ethGate (pi - 0x48))
  else if pi < 0x50 then some (.ethStat (pi - 0x4C))
  else if pi < 0x52 then some (.time (pi - 0x50))
  else if pi = 0x52 then some .mediaClk
  else if pi = 0x53 then some .tsq
  else if pi < 0x58 then some (.inPage (pi - 0x54))
  else if pi < 0x5C then some (.egPage (pi - 0x58))
  else if 0x60 ≤ pi ∧ pi < 0x6D then
    [Blk.render, .layout, .pan, .path, .correct, .measure, .capture, .protect, .psGlobal,
     .monitor, .jack, .prompterGlobal, .asrc][pi - 0x60]?
  else if 0x70 ≤ pi ∧ pi < 0x78 then some (.prompter (pi - 0x70))
  else if 0x100 ≤ pi ∧ pi < 0x180 then some (.objPage (pi - 0x100))
  else if 0x180 ≤ pi ∧ pi < 0x1C0 then some (.outPage (pi - 0x180))
  else if 0x1C0 ≤ pi ∧ pi < 0x1C8 then some (.busPage (pi - 0x1C0))
  else if 0x1C8 ≤ pi ∧ pi < 0x1CC then some (.routePage (pi - 0x1C8))
  else if 0x1D0 ≤ pi ∧ pi < 0x1E0 then some (.ps (pi - 0x1D0))
  else none

/-- The bits of a value in its field's place. -/
def Fld.place (f : Fld) (v : Nat) : Nat := (v % 2 ^ f.width) <<< f.lsb

/-- The bits of a word that belong to a field. -/
def Fld.of (f : Fld) (w : Word) : Nat := (w.toNat >>> f.lsb) % 2 ^ f.width

/-- May the field take the value (R12)? -/
def Fld.admits (f : Fld) (v : Nat) : Bool := f.enc.isEmpty || f.enc.any (fun r => r.1 ≤ v && v ≤ r.2)

/-- The seat that a writer speaks for. -/
def Writer.seatOf : Writer → Nat
  | .seat n => n
  | .prompter n => n
  | .bmc => 0

/-- Where a reader's latch and holding register are kept (R13, R60). -/
def Writer.code : Writer → Nat
  | .seat n => n
  | .prompter n => 8 + n
  | .bmc => 16

/-- MiB of the general pool: what the regions leave (R36). -/
def Model.poolMiB (m : Model) (ecc lockstep : Bool) : Nat :=
  (if ecc then m.dramMiB / 8 * 7 else m.dramMiB) - m.pick 896 576 416 - (if lockstep then 2048 else 0)

/-- The words whose reset value depends on the model: POOL_SIZE (R36), BIND (R395) and LEAD_RESERVE (R164), as a
register store. -/
def bootWords (m : Model) : Map Word :=
  (Blk.dramc.base + 0x44, BitVec.ofNat 32 (m.poolMiB false false)) ::
  ((List.range 8).filter (· < m.seats)).map (fun s => ((Blk.seat s).base + 0x40, BitVec.ofNat 32 (m.bindDefault s))) ++
  (match m with
    | .m960 => []
    | .m940 => [(Blk.path.base + 0x40, 0x3000#32)]
    | .m920 => [(Blk.path.base + 0x40, 0x2800#32)])

end Sys2Proof
end

