-- ==== Sys2Proof/Machine/Types.lean ====
section
/-! DEFINITION. The types the state is made of, one section per part of the module. -/

namespace Sys2Proof.Machine

/-- A store of register words. Each word is held as its difference (exclusive or) from its reset
value, so an unlisted word reads as its reset value. -/
abbrev RegMap := Map Word

/-- A posted write or clear on its way to a slow clock domain (R63, R64). -/
inductive PostedOp where
  /-- An RWI write of a word. -/
  | write (off : Nat) (data : Word)
  /-- A clear of COR bits, tagged with the refresh of the copy that was read. -/
  | clear (off : Nat) (bits : Word) (tag : Nat)
  deriving DecidableEq, Repr

/-- A posted operation and the unit it goes to. -/
structure Posted where
  blk : Blk
  op : PostedOp
  seat : Nat
  /-- The tick at which it was posted: a write lives 1 ms (R64). -/
  tick : Nat := 0
  deriving DecidableEq, Repr

/-- Who strobed a commit: a seat through the UPDATE page, or the seat's Prompter (R430). -/
inductive Strober where
  | seat
  | prompter
  | defaultConfig
  /-- The principal of a LOCKSTEP pair, on its understudy (R492). -/
  | peer
  deriving DecidableEq, Repr

/-- A commit between its acceptance and the application of its last unit (R67 to R74). -/
structure Commit where
  serial : Nat
  seat : Nat
  by_ : Strober
  mask : Nat
  /-- UPD_AT latched at the strobe (R68). -/
  at_ : Nat
  /-- A Prompter strobe with BASE NEXT: it has no apply sample of its own (R430). -/
  next : Bool := false
  /-- Kind of each named group, latched at the strobe: 0 SAMPLE, 1 BLOCK, 2 IMMEDIATE. -/
  kinds : List (Nat × Nat)
  /-- The pages and records that take part (R73). -/
  blks : List Blk
  /-- Their staged values at the strobe (R68). -/
  vals : RegMap
  /-- The group of each unit, by its base. -/
  grp : Map Nat := []
  /-- Those whose STAGED_PENDING was set at the strobe (R57). -/
  wasPending : List Blk
  /-- A FILTER_SWAP's strobe: its groups are BLOCK, and its apply sample counts all the same (R225). -/
  timed : Bool := false
  /-- Prepare has passed (R70). -/
  prepared : Bool := false
  /-- The apply sample of R69, once prepare has passed. -/
  applyAt : Nat := 0
  /-- Prepare ended after UPD_AT (R71). -/
  late : Bool := false
  /-- The render-domain units have applied; only slow-domain units are left (R71). -/
  applied : Bool := false
  /-- The tick at which they did (R441). -/
  tick : Nat := 0
  /-- Slow-domain units that have not applied yet. -/
  waiting : List Blk := []
  /-- Units that could not apply (R74). -/
  lost : List Blk := []
  /-- Page of a unit that could not apply on the peer (R492). -/
  peerLost : Option Nat := none
  deriving DecidableEq, Repr

/-- The register fabric: both views, the mirror copies, ownership, and the commits. -/
structure Fabric where
  /-- Staged values of RW and RWI fields (R56). -/
  stg : RegMap := []
  /-- Active values of every field, and the RO and COR fields (R56). -/
  act : RegMap := []
  /-- The mirror copies of the slow-domain regions (R61). -/
  mir : RegMap := []
  /-- Owner of each record: [2:0] SEAT, [3] SHARED (R51). -/
  recOwner : Map Nat := []
  /-- Update group of each record (R51). -/
  recGroup : Map Nat := []
  /-- STAGED_PENDING of each page or record (R57). -/
  stagedPending : Map Bool := []
  /-- The words latched by a low-word read, per reader: addresses and values (R13, R348). -/
  latch : Map (List (Nat × Nat)) := []
  /-- The low word a seat wrote to a 64-bit RWI field: its address + 1 and its value (R60). -/
  holding : Map (Nat × Nat) := []
  /-- Refreshes of each mirror copy so far (R61). -/
  refreshTag : Map Nat := []
  /-- Media strobe count at the last refresh of each mirror copy (R62). -/
  refreshedAt : Map Nat := []
  /-- For each event bit of a slow domain, the first refresh that shows its last recording (R63). -/
  evMark : Map Nat := []
  /-- Writes and clears posted to slow domains and not yet taken (R64). -/
  posted : List Posted := []
  /-- Commits from acceptance until their last unit has applied, oldest first. -/
  commits : List Commit := []
  /-- COMMIT_SERIAL: the last serial assigned (R67). -/
  serial : Nat := 0
  /-- Serial of each seat's last strobe; 0 when it was refused (R591). -/
  lastStrobe : Map Nat := []
  /-- BLOCK_RESETs accepted and waiting for the boundary or the slow clock, with the render sample index
  at the write (R48). -/
  resets : List (Blk × Nat) := []
  /-- Units in fault-hold and the serial of the commit that left them behind (R442, R443). -/
  held : List (Blk × Nat) := []
  /-- STATE of the last strobe of the default configuration (R543). -/
  defcfg : Nat := 0
  /-- The word each reader's last register read returned (the module's answer on the bus). -/
  answer : Map Nat := []
  deriving DecidableEq, Repr


/-! Objects and motion (R79 to R115) -/

/-- A point or vector, each component in Q16.16 (R93). -/
structure V3 where
  x : Int := 0
  y : Int := 0
  z : Int := 0
  deriving DecidableEq, Repr

/-- The gain of an object, bus, route or output under R87. -/
structure GainStage where
  /-- Gain applied at the last sample, Q4.28. -/
  last : Int := 0
  /-- The ramp: first value, last value, first sample, length. -/
  from_ : Int := 0
  to_ : Int := 0
  start : Nat := 0
  n : Nat := 0
  /-- Polarity in use. -/
  inv : Bool := false
  /-- An inversion waiting for the zero: the polarity to take and the gain to ramp back to. -/
  flip : Option (Bool × Int) := none
  deriving DecidableEq, Repr

/-- One biquad section: direct form I state and its cross-fade (R89, R90). -/
structure Section where
  x1 : Int := 0
  x2 : Int := 0
  y1 : Int := 0
  y2 : Int := 0
  /-- SECTION_EN as last taken. -/
  on : Bool := false
  /-- First sample of the running cross-fade. -/
  fade : Option Nat := none
  deriving DecidableEq, Repr

/-- An input as SOURCE or SRC names it (R83, R179). -/
structure Source where
  type : Nat := 0
  unit : Nat := 0
  chan : Nat := 0
  deriving DecidableEq, Repr

/-- The present input and the fading-out input (R84). -/
structure InputSel where
  cur : Source := {}
  old : Option Source := none
  start : Nat := 0
  n : Nat := 0
  deriving DecidableEq, Repr

/-- CTX.STATE (R81). -/
inductive CtxState where
  | idle | running | waitTime | waitFlag | halted | fault
  deriving DecidableEq, Repr

/-- What a segment does (R106). Targets are already offset by ORIGIN. -/
inductive SegKind where
  | hold
  | move (p1 : V3) (smooth : Bool)
  | curve (p1 t0 t1 : V3)
  | orbit (plane : Nat) (c : V3) (omega climb : Int)
  /-- Until a target sample, once it is known. -/
  | waitTime (target : Nat)
  /-- Until motion flag k reads 1 at a boundary. -/
  | waitFlag (k : Nat) (clear : Bool)
  deriving DecidableEq, Repr

/-- The segment in progress: its first sample, length and start position (R102). -/
structure Segment where
  kind : SegKind
  s0 : Nat
  n : Nat
  p0 : V3
  deriving DecidableEq, Repr

/-- The jitter overlay (R109). -/
structure Jitter where
  on : Bool := false
  /-- Gliding to zero, after which it turns off. -/
  closing : Bool := false
  amp : V3 := {}
  start : Nat := 0
  n : Nat := 0
  from_ : V3 := {}
  to_ : V3 := {}
  deriving DecidableEq, Repr

/-- A Trapeze context (R101). -/
structure Ctx where
  state : CtxState := .idle
  pc : Nat := 0
  /-- The word at which the last START began. -/
  entry : Nat := 0
  /-- Loop stack, top first: the address after the LOOP and the iterations left (0: for ever). -/
  loops : List (Nat × Nat) := []
  fault : Nat := 0
  lfsr : Word := 0
  origin : V3 := {}
  timescale : Nat := 0x10000
  jitter : Jitter := {}
  seg : Option Segment := none
  /-- The sample at which the next instruction executes. -/
  at_ : Nat := 0
  /-- The trajectory position, without overlay and offset. -/
  p : V3 := {}
  deriving DecidableEq, Repr

/-- A linear ramp of position (R96). -/
structure PosRamp where
  from_ : V3 := {}
  to_ : V3 := {}
  start : Nat := 0
  n : Nat := 0
  deriving DecidableEq, Repr

/-- The engine state of one object besides its records (R84 to R115). -/
structure ObjEngine where
  /-- Rendering: ENABLE and CTRL.ACTIVE were both 1 at the last sample. -/
  live : Bool := false
  /-- Deactivated and still draining; the first sample of zero gain (R86). -/
  draining : Option Nat := none
  gain : GainStage := {}
  input : InputSel := {}
  eqSet : Nat := 0
  sections : Map Section := []
  /-- History samples before this one read as zero (R86). -/
  histFrom : Nat := 0
  near : Map Int := []
  far : Map Int := []
  mode : Nat := 0
  direct : PosRamp := {}
  offset : PosRamp := {}
  /-- The position held while no context drives it. -/
  held : V3 := {}
  ctx : Ctx := {}
  /-- START (true) and STOP commands with their apply samples, not yet taken (R592). -/
  cmds : List (Bool × Nat) := []
  /-- Motion flag writes not yet latched (R110). -/
  flagSet : Nat := 0
  flagClr : Nat := 0
  /-- Positions at the last two evaluated boundaries, and the later boundary's sample (R98). -/
  pb : V3 := {}
  pb1 : V3 := {}
  pbAt : Nat := 0
  /-- Motion flags as the last block that the Trapeze evaluated left them, and the sets and clears latched at boundaries
  since, oldest first: the block that begins there, flags set, flags cleared (R110). -/
  flagsAt : Nat := 0
  latches : List (Nat × Nat × Nat) := []
  /-- An activation the Trapeze has not evaluated yet: its sample (R86). -/
  activatedAt : Option Nat := none
  /-- Relocations not yet evaluated: their samples (R99). -/
  relocs : List Nat := []
  deriving DecidableEq, Repr

/-- A region of motion program memory (R112). -/
structure Region where
  base : Nat
  words : Nat
  seat : Nat
  deriving DecidableEq, Repr

/-- Motion program memory and the object EQ set store (R88, R112). -/
structure Motion where
  mem : Map Word := []
  regions : List Region := []
  /-- Words of the object EQ sets: set k, word w at 40 k + w; an unlisted word reads 0. -/
  eqStore : Map Word := []
  deriving DecidableEq, Repr


/-! Layouts, pan results and paths (R117 to R173) -/

/-- A loudspeaker record (R121); aim in Q2.30. -/
structure Speaker where
  pos : V3
  aim : V3
  output : Nat
  zone : Nat
  trimGain : Nat
  trimDelay : Nat
  deriving DecidableEq, Repr

/-- A virtual loudspeaker: position and (real loudspeaker, weight) terms (R122). -/
structure VirtualSpeaker where
  pos : V3
  terms : List (Nat × Nat)
  deriving DecidableEq, Repr

/-- A decoder: order and rows of (loudspeaker, 16 coefficients) (R125). -/
structure Decoder where
  order : Nat
  rows : List (Nat × List Int)
  deriving DecidableEq, Repr

/-- A compiled layout (R120 to R125). -/
structure Layout where
  id : Word := 0
  amplitude : Bool := false
  innerRadius : Nat := 0
  rRef : Nat := 0
  rMin : Nat := 0
  alpha : Nat := 0
  focusMax : Nat := 1
  focusMin : Nat := 1
  visAngle : Nat := 0
  taper : Nat := 0
  gainFloor : Nat := 0
  delayBias : Nat := 0
  speakers : List Speaker := []
  virtuals : List VirtualSpeaker := []
  /-- Vertex codes: a real loudspeaker's number, or 0x200 + v. -/
  triangles : List (Nat × Nat × Nat) := []
  /-- Bed maps: for each channel its (vertex code, weight) terms. -/
  beds : List (List (List (Nat × Nat))) := []
  decoders : List Decoder := []
  deriving DecidableEq, Repr

/-- The layout slots and the two banks (R117, R132 to R135). -/
structure Layouts where
  /-- Compiled layouts in slots 0 to 3. -/
  slots : Map Layout := []
  /-- The bank the pan engines read, with its slot. -/
  active : Option (Nat × Layout) := none
  /-- The idle bank, once a layout has been armed in it. -/
  armed : Option (Nat × Layout) := none
  /-- The previous layout's bank, held until its fades end. -/
  old : Option (Nat × Layout) := none
  /-- A copy into the idle bank in progress: slot, COMMIT flag, seat, SQ and tag of the command. -/
  arming : Option (Nat × Bool × Nat × Nat × Nat) := none
  /-- Objects still to convert, in conversion order; `converting` until CONVERT_DONE. -/
  converting : Bool := false
  /-- t_a: the boundary at which the new SEL applied. -/
  tA : Nat := 0
  left : List Nat := []
  deriving DecidableEq, Repr

/-- One selected loudspeaker of an evaluation (R137). -/
structure PanGain where
  spk : Nat
  out : Nat
  gain : Nat
  delay : Nat
  pol : Bool := false
  /-- AMBI: the decoder row; each row is a path of its own (R144). -/
  row : Nat := 0
  deriving DecidableEq, Repr

/-- A path for one block (R151). -/
structure Path where
  spk : Nat
  out : Nat
  pol : Bool
  gs : Nat
  ge : Nat
  ts : Nat
  te : Nat
  /-- Dropped out of its set, ramping to zero (R137). -/
  releasing : Bool := false
  far : Bool := false
  clamped : Bool := false
  /-- Not kept by a starved object: it renders nothing in this block (R166). -/
  cut : Bool := false
  /-- Pool units it holds (R171). -/
  units : List Nat := []
  /-- AMBI: the decoder row (R144). -/
  row : Nat := 0
  /-- First history sample of the window that its slots of the prefetch buffer hold, or await (R159, R160). -/
  window : Option Int := none
  deriving DecidableEq, Repr

/-- One path set of an object: while it fades in from a sample, while it fades out, and the first
sample at which it is gone (R99, R100, R152). -/
structure PathSet where
  paths : List Path := []
  fadeIn : Option (Nat × Nat) := none
  fadeOut : Option (Nat × Nat) := none
  endAt : Option Nat := none
  /-- Derived under a law whose gains are normalised (POINT, DISTANCE, HYBRID), and by plain sums (R138, R166). -/
  panned : Bool := true
  amplitude : Bool := false
  /-- Derived on the bank of the previous layout (R134). -/
  oldBank : Bool := false
  deriving DecidableEq, Repr

/-- The paths of one object (R136, R137, R159, R165). -/
structure ObjPaths where
  /-- The present set first, then fading-out sets. -/
  sets : List PathSet := []
  /-- The kept result of the last evaluation (R136). -/
  result : Option (List PanGain) := none
  /-- A new set starts in the block under way: the sample of its fade (R134). -/
  newSet : Option Nat := none
  /-- BED and AMBI: something the result depends on has changed (R136). -/
  dirty : Bool := true
  /-- Still on the old bank (R134). -/
  onOld : Bool := false
  wanted : Nat := 0
  entitled : Nat := 0
  /-- Slices of the block in progress already rendered (R159). -/
  slice : Nat := 0
  /-- Far requests outstanding for the next slice, by their first sample, in the order of issue (R161). -/
  fetching : List Int := []
  deriving DecidableEq, Repr

/-- Path stage state besides the objects' own (R159, R165 to R171). -/
structure PathStage where
  objs : Map ObjPaths := []
  /-- Pool unit in use: the object that holds it plus one (R171). -/
  pool : Map Nat := []
  /-- The path-table window, word w of unit i at 4 i + w (R171). -/
  table : Map Word := []
  /-- Output accumulators: OUT n, sample j of the block at 64 n + j; the exact sum, that is
  A + guard * 2^48 (R167). -/
  acc : Map Int := []
  /-- The prefetch buffer: 32 samples (128 bytes) for each pool unit, word w of unit i at 32 i + w (R159). -/
  prefetch : Map Int := []
  /-- Longest far request of the block under way, render cycles (R169). -/
  fetchMax : Nat := 0
  /-- Bus accumulators, in the same form. -/
  busAcc : Map Int := []
  /-- The block plus 1 for which each job ran last: Trapeze job of OBJ n at n, pan job at 1,024 + n,
  route job of OUT n at 2,048 + n and of BUS n at 3,072 + n, bus job at 4,096 + n. -/
  jobs : Map Nat := []
  deriving DecidableEq, Repr

/-! Buses, direct routes, outputs, correction, protection, the monitor and the curtain (R174 to
R228, R261 to R291) -/

/-- The fading-out part of a route, frozen at its change (R183). -/
structure RouteOld where
  src : Source
  toBus : Bool
  dest : Nat
  gain : Int
  inv : Bool
  start : Nat
  n : Nat
  deriving DecidableEq, Repr

/-- A direct route, or a bus direct output, at the end of the last block (R183 to R185). -/
structure RouteEngine where
  on : Bool := false
  src : Source := {}
  toBus : Bool := false
  dest : Nat := 0
  gain : GainStage := {}
  /-- First sample and length of the fade-in of the present part. -/
  fade : Option (Nat × Nat) := none
  old : Option RouteOld := none
  deriving DecidableEq, Repr

/-- A mix bus (R176 to R178). -/
structure BusEngine where
  live : Bool := false
  gain : GainStage := {}
  sections : Map Section := []
  direct : RouteEngine := {}
  deriving DecidableEq, Repr

/-- A correction bank (R206, R213, R214): its state code, its taps with GAIN applied. -/
structure Bank where
  state : Nat := 0
  tag : Word := 0
  taps : List Int := []
  form : Nat := 0
  delay : Nat := 0
  peakTap : Nat := 0
  /-- Taps held while LOADING, installed at INSTALL. -/
  staged : List Int := []
  deriving DecidableEq, Repr

/-- A running cross-fade of a correction stage (R222): the old selection, its first sample, N. -/
structure CorrFade where
  old : Nat
  start : Nat
  n : Nat
  deriving DecidableEq, Repr

/-- The committed filter record (R227): the words of the active view that hold SEL, POLICY and XFADE, the CRCs of the
spectra of both banks of an output, and a CRC of its own. -/
structure CorrRecord where
  words : List (Nat × Word) := []
  crcs : Map (Word × Word) := []
  crc : Word := 0
  deriving DecidableEq, Repr

/-- The correction stage of an output (R206 to R228). -/
structure Corr where
  bank0 : Bank := {}
  bank1 : Bank := {}
  live : Nat := 0
  /-- The swap sample of `live`, and the selection before it: jobs render behind the boundary. -/
  since : Nat := 0
  before : Nat := 0
  fade : Option CorrFade := none
  /-- Input samples, sample i at i mod 65,536, and the first one since the delay lines cleared. -/
  hist : Map Int := []
  histFrom : Nat := 0
  /-- Bank (0 or 1) being warmed and the boundary at which that began (R223). -/
  warming : Option (Nat × Nat) := none
  /-- First sample plus 1 of the last group completed, by 16 * bank + segment. -/
  seg : Map Nat := []
  /-- The block whose head has been computed, plus 1. -/
  head : Nat := 0
  deriving DecidableEq, Repr

/-- PSTAT.THERM (R266, R267). -/
inductive Therm where
  | normal | fold | shutdown | restart
  deriving DecidableEq, Repr

/-- The protection stage of an output (R261 to R268). Temperatures in 2^-16 K, attenuation in
2^-16 dB. -/
structure Prot where
  exc : Section := {}
  exc2 : Section := {}
  /-- The last L_p samples of (u', x_u, r), newest first. -/
  ahead : List (Int × Int × Nat) := []
  gx : Nat := 0x10000000
  dVc : Int := 0
  dMag : Int := 0
  atten : Nat := 0
  therm : Therm := .normal
  gth : GainStage := { last := 0x10000000, from_ := 0x10000000, to_ := 0x10000000 }
  /-- Least G_x in the block under way. -/
  gxMin : Nat := 0x10000000
  /-- Accepted resistance temperature waiting for the next boundary, and the tick of the last one. -/
  measured : Option Int := none
  measuredAt : Option Nat := none
  /-- In LOCKSTEP: closed-loop powers and resistance temperatures, each with the block at whose release both twins use it
  (R290). -/
  powers : List (Nat × Int) := []
  temps : List (Nat × Int) := []
  deriving DecidableEq, Repr

/-- An output's shaping chain (R186 to R193). -/
structure OutEngine where
  live : Bool := false
  /-- Deactivated: the first sample of zero gain. -/
  falling : Option Nat := none
  gain : GainStage := {}
  sections : Map Section := []
  /-- The high-pass of a MAIN. -/
  hp0 : Section := {}
  hp1 : Section := {}
  /-- The detector of R191. -/
  env : Nat := 0
  /-- Samples after the stages of SHAPE_PRE, sample j of the block at j. -/
  pre : Map Int := []
  /-- Samples after biquads, for the monitor tap (after output gain), at j. -/
  tap : Map Int := []
  /-- Samples after the correction stage, at j. -/
  post : Map Int := []
  /-- The block plus 1 whose SHAPE_PRE, and whose SHAPE_POST, has run. -/
  preDone : Nat := 0
  postDone : Nat := 0
  corr : Corr := {}
  prot : Prot := {}
  /-- Final limiter: the last L inputs, newest first, and G. -/
  ahead : List Int := []
  lim : Nat := 0x10000000
  /-- Announcement: its gain and its limiter (R201). -/
  ann : GainStage := {}
  annLim : Nat := 0x10000000
  annOn : Bool := false
  /-- Egress samples of the block, at j, and the monitor tap after the curtain gain. -/
  egress : Map Int := []
  /-- Last sample emitted, and whether the next block fades in (R24). -/
  last : Int := 0
  fadeIn : Bool := false
  deriving DecidableEq, Repr

/-- A bass-management group (R189): the exact sum of the block and its low-pass. -/
structure BassGroup where
  sum : Map Int := []
  lp0 : Section := {}
  lp1 : Section := {}
  /-- Low-passed samples of the block, and the block plus 1 they belong to. -/
  low : Map Int := []
  done : Nat := 0
  deriving DecidableEq, Repr

/-- STATUS.STATE of the curtain (R204). -/
inductive CurtainPhase where
  | isOpen | closing | closed | opening
  deriving DecidableEq, Repr

/-- The safety curtain (R199 to R204). -/
structure Curtain where
  phase : CurtainPhase := .isOpen
  /-- Gain at the start of the running ramp, its first sample and length. -/
  from_ : Nat := 0x10000000
  start : Nat := 0
  n : Nat := 1
  /-- A cause has been latched; the ramp begins with the next released block, or the one the principal names (R200, R203). -/
  due : Bool := false
  /-- A release has been accepted: opening begins with the first released block from this one on (R202, R203). -/
  openAt : Option Nat := none
  /-- Tick at which the last cause cleared. -/
  clearedAt : Option Nat := none
  /-- EMGMUTE_B is low: as the pin stands, and as it has stood for 100 microseconds. -/
  raw : Bool := false
  pin : Bool := false
  /-- Tick of its last change. -/
  rawAt : Nat := 0
  /-- A critical thermal event is raised. -/
  therm : Bool := false
  /-- The closing block the principal named (R203). -/
  named : Option Nat := none
  deriving DecidableEq, Repr

/-- An HRIR set (R197). -/
structure Hrir where
  taps : Nat := 0
  rate : Nat := 0
  dirs : List (Int × Int) := []
  irs : List (List Int × List Int) := []
  deriving DecidableEq, Repr

/-- The binaural monitor (R194 to R198). -/
structure MonitorEngine where
  slots : Map Hrir := []
  /-- Head rotation as read at the last block boundary: HEAD_YAW, HEAD_PITCH, HEAD_ROLL (R195). -/
  head : Int × Int × Int := (0, 0, 0)
  /-- Selected pair of each virtual loudspeaker, 1,024 x slot + grid direction + 1, now and in the block before. -/
  sel : Map Nat := []
  was : Map Nat := []
  gain : GainStage := {}
  /-- Tap samples of outputs: output n, sample i at 2,048 n + i mod 2,048. -/
  hist : Map Int := []
  deriving DecidableEq, Repr

/-- PSk STATE (R288). -/
inductive PsState where
  | off | running | latched | retryWait | recovering | thermalOff
  deriving DecidableEq, Repr

/-- A change of a gate pin (0 AH, 1 AL, 2 BH, 3 BL) at an instant in edge periods after the media strobe (R274, R275). -/
structure GateEdge where
  pin : Nat
  high : Bool
  at_ : Nat
  deriving DecidableEq, Repr

/-- What the four gate pins of a channel do (R277). -/
inductive GateDrive where
  | low | floating | freewheel | switching
  deriving DecidableEq, Repr

/-- The demodulation of v and i at 8 Hz against the pilot that began at `from_`: samples so far, and the two parts of each
(R279). -/
structure Demod where
  from_ : Nat := 0
  n : Nat := 0
  vRe : Int := 0
  vIm : Int := 0
  iRe : Int := 0
  iIm : Int := 0
  deriving DecidableEq, Repr

/-- A local channel (R272 to R290). -/
structure PsEngine where
  state : PsState := .off
  /-- PSk_FAULT_B is low. -/
  faultPin : Bool := false
  /-- The sense bitstream has made no transition for 64 sense periods (R278). -/
  stuck : Bool := false
  /-- The carrier period under way contains a limit action (R283). -/
  limitNow : Bool := false
  /-- Permission to switch; it begins with the next carrier period (R277). -/
  start : Bool := false
  /-- The gate pins switch. -/
  switching : Bool := false
  /-- Fade-in of the feed, once it has begun (R277). -/
  feed : GainStage := {}
  feeding : Bool := false
  /-- Samples at the interpolator input, newest first (R273). -/
  fed : List Int := []
  /-- Modulation index of the two half-periods of the carrier period under way, in units of 2^-31,
  and the carrier count below which the high sides of legs A and B are on in each (R275, R276). -/
  mod0 : Int := 0
  mod1 : Int := 0
  legs : List Nat := []
  /-- The gate changes of the carrier period under way; a limit action holds the bridge in its low side (R282). -/
  gates : List GateEdge := []
  freewheel : Bool := false
  /-- The window of R279 under way, and one that is complete. -/
  demod : Demod := {}
  window : Option Demod := none
  /-- Tick at which RETRY_WAIT ends, and at which the present clean running began. -/
  waitEnd : Nat := 0
  cleanFrom : Option Nat := none
  /-- Tick of the last accepted resistance estimate since the channel started (R279). -/
  rAt : Option Nat := none
  /-- Render sample at which the pilot last began to run, while it runs (R279). -/
  pilotFrom : Option Nat := none
  src : InputSel := {}
  deriving DecidableEq, Repr

/-- The thermal states of an output as they are copied to DRAM once per second (R268). -/
structure ThermalCopy where
  dVc : Int := 0
  dMag : Int := 0
  atten : Nat := 0
  therm : Therm := .normal
  deriving DecidableEq, Repr

/-! Scheduling, the trace and the bus matrix (R373 to R393) -/

/-- Job types of R373. -/
inductive JobKind where
  | trapeze | pan | path | route | bus | shapePre | convHead | convSeg | shapePost | opStep | command
  deriving DecidableEq, Repr

/-- A job: its type, its flow (R374), its block and its slice or piece. -/
structure Job where
  kind : JobKind
  flow : Nat
  block : Nat
  slice : Nat := 0
  deriving DecidableEq, Repr

/-- An item of a ready list (R375). -/
structure Ready where
  cls : Nat
  job : Job
  /-- Order in which it became ready, and when, in media strobes. -/
  order : Nat
  tick : Nat := 0
  deriving DecidableEq, Repr

/-- A job in service. -/
structure Service where
  engine : Nat
  cls : Nat
  job : Job
  /-- Granted in a Lead phase. -/
  lead : Bool := false
  deriving DecidableEq, Repr

/-- A running trace (R383). -/
structure TraceRun where
  seat : Nat
  tag : Nat
  ring : Bool
  classes : Nat
  types : Nat
  first : Nat
  last : Nat
  size : Nat
  handle : Nat
  records : Nat := 0
  deriving DecidableEq, Repr

/-- A request at the bus matrix (R385, R386). -/
structure MatrixReq where
  master : Nat
  target : Nat
  write : Bool
  /-- Held back under rule 2 or 3 of R386. -/
  held : Bool := false
  /-- It has waited AGE_LIMIT cycles. -/
  aged : Bool := false
  deriving DecidableEq, Repr

/-- The Ringmaster, the trace and the bus matrix. -/
structure Sched where
  ready : List Ready := []
  service : List Service := []
  /-- Engines that have asked and stall without a grant, in the order of their asks (R27). -/
  stalled : List Nat := []
  order : Nat := 0
  /-- The Lead phase is open (R376). -/
  leadPhase : Bool := false
  /-- Share of Extra in force, percent (R377). -/
  extraRes : Nat := 10
  /-- Lead outputs of the block (R378) and those whose Extra contributions are cut. -/
  leadOuts : List Nat := []
  cutOuts : List Nat := []
  trace : Option TraceRun := none
  /-- Records staged and not yet written out, eight words each, oldest first. -/
  staged : List (List Word) := []
  seq : Nat := 0
  /-- Render cycles each engine group has spent in the block, and on Extra items. -/
  busy : Map Nat := []
  busyExtra : Map Nat := []
  /-- Requests waiting at the bus matrix, oldest first, and the master each target served last. -/
  waiting : List MatrixReq := []
  served : Map Nat := []
  deriving DecidableEq, Repr

/-! The test access port (R570) -/

/-- The states of the TAP controller of IEEE 1149.1. -/
inductive TapState where
  | testLogicReset | runTestIdle
  | selectDr | captureDr | shiftDr | exit1Dr | pauseDr | exit2Dr | updateDr
  | selectIr | captureIr | shiftIr | exit1Ir | pauseIr | exit2Ir | updateIr
  deriving DecidableEq, Repr

/-- The test logic: TRST_B, which its pull-down holds low, the controller, whether IDCODE is the instruction, and the
bits in the register between TDI and TDO, the next to leave first. -/
structure Tap where
  trstB : Bool := false
  state : TapState := .testLogicReset
  idcode : Bool := true
  shift : List Bool := []
  deriving DecidableEq, Repr

/-! Capture chains, generators, campaigns and probes (R229 to R260) -/

/-- Where a chain stands in the change of R237. A ramp carries its first sample, and the ramp down the set chosen at
its boundary; the stages fill until the data of the new set reach the output. -/
inductive ChainPhase where
  | off
  | down (start : Nat) (linear : Bool)
  | fill
  | up (start : Nat)
  | settled
  deriving DecidableEq, Repr

/-- How a chain is configured: R, HB_COUNT, FIR_EN and SCMODE (R242). -/
structure ChainCfg where
  r : Nat := 0
  hb : Nat := 0
  fir : Bool := false
  scm : Bool := false
  deriving DecidableEq, Repr

/-- The states of the stages of a chain (R232), newest first: the modulator's bits and what HB1, HB2 and the FIR took
in. -/
structure ChainStages where
  bits : List Bool := []
  hb1 : List Int := []
  hb2 : List Int := []
  fir : List Int := []
  deriving DecidableEq, Repr

/-- A capture chain. -/
structure ChainEngine where
  phase : ChainPhase := .off
  /-- The configuration that its stages run. -/
  cfg : ChainCfg := {}
  stages : ChainStages := {}
  /-- The two integrators of an auxiliary chain's modulator (R240). -/
  integrators : Int × Int := (0, 0)
  /-- The render sample index at which the first output of this configuration left, and the outputs since (R238). -/
  since : Option (Nat × Nat) := none
  /-- The linear-phase set is in use. -/
  linear : Bool := false
  /-- The DC estimate e of R235. -/
  dc : Int := 0
  /-- No transition for 1,024 modulator periods (R243). -/
  stuck : Bool := false
  /-- RECOVERY on a sense chain after a latch-off of its channel (R281). -/
  psRecovery : Bool := false
  /-- Named by a CAPTURE_TO_MEMORY with MEASURE, or a campaign or probe: how many; and how many of them with KEEP_DCB. -/
  measure : Nat := 0
  keepDcb : Nat := 0
  /-- Scan entry of the single-cycle mode (R240). -/
  scan : Nat := 0
  /-- The newest render samples at which it delivered, newest first: whether VALID was 1, and CLIP or OVER occurred. -/
  marks : List (Nat × Bool × Bool) := []
  /-- VALID at the end of the last sample. -/
  valid : Bool := false
  deriving DecidableEq, Repr

/-- An excitation generator (R246): first sample of its run, and the noise register. -/
structure GenEngine where
  start : Option Nat := none
  lfsr : Word := 1
  deriving DecidableEq, Repr

/-- A sample of a chain as a capture takes it: its timestamp, whether that is CORRECTED, and whether VALID was 0 and
CLIP or OVER occurred (R238, R244). -/
structure Captured where
  x : Int := 0
  stamp : Nat := 0
  corrected : Bool := false
  gap : Bool := false
  clip : Bool := false
  deriving DecidableEq, Repr

/-- A CAPTURE_TO_MEMORY (R244, R245). -/
structure C2m where
  seat : Nat
  tag : Nat
  ring : Bool
  measure : Bool
  mask : Nat
  size : Nat
  start : Option Nat
  handle : Nat
  /-- C2M_START has happened, at which render sample. -/
  on : Bool := false
  from_ : Nat := 0
  /-- Samples of each chain's record under way, oldest first. -/
  taken : Map (List Captured) := []
  /-- Bytes written, and where the oldest whole record of a ring begins. -/
  pos : Nat := 0
  oldest : Nat := 0
  wrapped : Bool := false
  /-- Offsets of the whole records held, oldest first. -/
  recs : List Nat := []
  cancelled : Bool := false
  deriving DecidableEq, Repr

/-- A campaign descriptor (R247). -/
structure CampDesc where
  outs : List Nat := []
  sets : List Nat := []
  exc : Nat := 1
  averages : Nat := 1
  level : Nat := 0
  f1 : Nat := 0
  f2 : Nat := 0
  excLog2 : Nat := 12
  irLog2 : Nat := 10
  postCorr : Bool := false
  pauseAtSet : Bool := false
  keepDcb : Bool := false
  gap : Nat := 0
  fade : Nat := 0
  pre : Nat := 0
  seed : Nat := 1
  crc : Word := 0
  deriving DecidableEq, Repr

/-- What a campaign is doing (R249, R259). -/
inductive CampPhase where
  | check | prepare | measure | waitCurtain | finish | held | ended
  deriving DecidableEq, Repr

/-- A campaign (R247 to R255). -/
structure Campaign where
  desc : CampDesc
  handle : Nat
  seat : Nat
  tag : Nat
  buffer : Nat
  rate : Nat
  phase : CampPhase := .check
  stepDone : Nat := 0
  /-- Measurement step under way; the first sample of its run of plays (none: not playing), the plays
  complete when that run began, and the plays complete now. -/
  step : Nat := 0
  stepStart : Option Nat := none
  playBase : Nat := 0
  play : Nat := 0
  /-- Time zero of the step's first play. -/
  t0 : Nat := 0
  /-- First sample of the hold of the named outputs, and of its release (R251). -/
  holdFrom : Option Nat := none
  holdTo : Option Nat := none
  /-- The generator held. -/
  gen : Nat := 0
  /-- Captured samples of the step: play p, chain c, position k in the play at 2^24 (64 p + c) + k. -/
  capture : Map Int := []
  /-- Chains that clipped or were stuck in the step, as masks; output inactive at its start. -/
  clipped : Nat := 0
  stuck : Nat := 0
  inactive : Bool := false
  /-- Chains that clipped in the play under way, as a mask; a discarded play loses its clips. -/
  runClipped : Nat := 0
  /-- The plays of the step that are captured: the place of each in its own run. -/
  plays : List Nat := []
  /-- The step at whose beginning the campaign has waited for OP_RESUME (R249). -/
  waited : Option Nat := none
  /-- The step before, waiting for its deconvolution: step, T0, and the same of it. -/
  decon : Option (Nat × Nat) := none
  deconPlays : List Nat := []
  deconBase : Nat := 0
  deconCapture : Map Int := []
  deconClipped : Nat := 0
  deconStuck : Nat := 0
  deconInactive : Bool := false
  /-- The step whose records are written and whose journal write is due (R254). -/
  due : Option Nat := none
  /-- Step whose records are rewritten with REDONE. -/
  redone : Option Nat := none
  deriving DecidableEq, Repr

/-- What a campaign puts into its outputs, sample by sample (R250, R251): the LOCKSTEP principal forwards it (R248). -/
structure Excitation where
  desc : CampDesc := {}
  step : Nat := 0
  stepStart : Option Nat := none
  playBase : Nat := 0
  holdFrom : Option Nat := none
  holdTo : Option Nat := none
  deriving DecidableEq, Repr

/-- One copy of the campaign journal (R254). -/
structure Journal where
  seq : Nat := 0
  handle : Nat := 0
  seat : Nat := 0
  desc : CampDesc := {}
  buffer : Nat := 0
  rate : Nat := 0
  stepDone : Nat := 0
  /-- The CRC-32 held with the copy. -/
  crc : Word := 0
  deriving DecidableEq, Repr

/-- A probe (R256 to R258). -/
structure Probe where
  outs : List (Nat × Nat)
  mask : Nat
  post : Bool
  exponential : Bool
  keepDcb : Bool
  frames : Nat
  gate : Nat
  report : Nat
  seat : Nat
  tag : Nat
  buffer : Nat
  /-- Accepted frames since the last report, and of each reference, and reports written. -/
  since : Nat := 0
  accepted : Map Nat := []
  reports : Nat := 0
  lastEnd : Nat := 0
  /-- First sample of the first frame, once chains and references are ready; frames so far. -/
  start : Option Nat := none
  index : Nat := 0
  /-- Reference samples: reference o, sample i at 65,536 o + i mod 65,536. -/
  hist : Map Int := []
  /-- Chain samples: the m-th chain of the mask, sample i at 65,536 m + i mod 65,536. -/
  chainHist : Map Int := []
  /-- G_xx of reference o at bin k, at 8,192 o + k; G_yy and the two parts of G_xy of the pair (o, m) at bin k, at
  8,192 (16 o + m) + k (R257). -/
  gxx : Map Int := []
  gyy : Map Int := []
  gxyRe : Map Int := []
  gxyIm : Map Int := []
  /-- The sample after the last one at which the curtain was not OPEN, or a chain was not good. -/
  badUntil : Nat := 0
  /-- PROBE_STOP asked: (seat, tag) of the stopping command. -/
  stopping : Option (Nat × Nat) := none
  deriving DecidableEq, Repr

/-- The measurement engine. -/
structure Measurement where
  campaign : Option Campaign := none
  /-- The two copies of the journal; none while nothing is written there. -/
  journal0 : Option Journal := none
  journal1 : Option Journal := none
  probe : Option Probe := none
  gens : Map GenEngine := []
  /-- The last campaign handle assigned. -/
  handle : Nat := 0
  c2m : List C2m := []
  /-- RECOVERY holds device-wide (R236). -/
  recovery : Bool := false
  startup : Bool := true
  deriving DecidableEq, Repr


/-! The render core's clocking (R19 to R25, R31, R380) -/

/-- Render state besides the RENDER page (R19 to R25). -/
structure Render where
  /-- Media sample strobes since power-on: the model's measure of time. -/
  tick : Nat := 0
  /-- The render sample index (R31). -/
  rsi : Nat := 0
  /-- M0 of R350. -/
  m0 : Nat := 0
  /-- A start is waiting for its M0 strobe (R381). -/
  starting : Bool := false
  /-- RUN = 0 was written: stop at the next boundary (R381). -/
  stopping : Bool := false
  /-- CTRL.RESET was written: render reset at the next boundary (R380). -/
  resetting : Bool := false
  /-- The block released last, and whether one has been (R20). -/
  block : Nat := 0
  released : Bool := false
  /-- The first tick at which a start that waits may come (R445). -/
  startTick : Nat := 0
  /-- Outputs are silent until this block after a restart (R23). -/
  silentUntil : Nat := 0
  /-- The deadline of that block has passed (R20). -/
  late : Bool := false
  /-- Block boundary at which the render reset under way ends (R445). -/
  resetEnd : Nat := 0
  deriving DecidableEq, Repr

/-- A change of active values, kept while jobs may still render samples before it. -/
structure Change where
  sample : Nat
  blk : Blk
  /-- The words of the page or record before the change. -/
  old : RegMap
  deriving DecidableEq, Repr

/-! TDM and AES3 ports (R292 to R316) -/

/-- Section states (R298). -/
inductive PortPhase where
  | off | unlocked | locking | locked | syncWait
  deriving DecidableEq, Repr

/-- A TDM section or an AES3 receiver (R293 to R303). -/
structure PortState where
  phase : PortPhase := .off
  /-- Media-synchronous (R295). -/
  sync : Bool := false
  /-- First phase of the frame sync against the media strobe, in 1/256 frame, and the tick since which
  the phase has stayed by it. -/
  phase0 : Option Nat := none
  since : Nat := 0
  /-- Measured frame rate and the rate at lock, Q24.8 Hz. -/
  rate : Nat := 0
  lockRate : Nat := 0
  /-- A large rate change to report at the relock (R302). -/
  rateChange : Bool := false
  /-- Consecutive good frames, and which of the last 64 frames were bad, newest first. -/
  good : Nat := 0
  lately : List Bool := []
  /-- Good frames, newest first, as far as the last 256, and bad ones not yet replaced; how many of the newest samples of
  each channel stand for bad ones, where not all are good (R299, R305). -/
  frames : List (List Int) := []
  bads : Nat := 0
  gaps : List Nat := []
  /-- A frame has come since the last media strobe (bypass). -/
  fresh : Bool := false
  /-- Tick of the last frame-sync edge, and tick and render sample of the last good one. -/
  edge : Option Nat := none
  goodAt : Nat := 0
  lastRsi : Nat := 0
  /-- The input is being filled by reflection (R300). -/
  filling : Bool := false
  /-- Gain of the whole section. -/
  env : GainStage := {}
  /-- Slots enabled at the last frame edge, and their gains (R303). -/
  mask : Nat := 0
  slots : Map GainStage := []
  /-- What each transmit slot carries (R304). -/
  routes : Map InputSel := []
  /-- The slots of the frame on the transmit pin: a code of DATA_BITS, or none at high impedance. -/
  sent : List (Option Int) := []
  deriving DecidableEq, Repr

/-- An AES3 receiver besides its section (R305 to R309). -/
structure AesState where
  port : PortState := {}
  /-- The last subframe held Pa; words of the burst header still to come. -/
  pa : Bool := false
  header : Nat := 0
  /-- Frames since the last burst preamble. -/
  sincePa : Nat := 0
  /-- The accepted channel status of subframes A and B says non-audio; codes 50/15 emphasis. -/
  naA : Bool := false
  naB : Bool := false
  emA : Bool := false
  emB : Bool := false
  /-- Gain of the non-audio mute. -/
  na : GainStage := { last := 0x10000000, from_ := 0x10000000, to_ := 0x10000000 }
  /-- De-emphasis sections: channel c, section j at 2 c + j. -/
  sections : Map Section := []
  deriving DecidableEq, Repr

/-- An AES3 transmitter (R310). -/
structure AesTxState where
  srcA : InputSel := {}
  srcB : InputSel := {}
  /-- Channel status in use: six words of A, six of B. -/
  cs : List Word := []
  /-- 24-bit codes of the frame on the pin. -/
  sent : Option (Int × Int) := none
  deriving DecidableEq, Repr

/-! Network time (R348 to R372). Times in 2^-16 ns. -/

/-- A PTP instance (R360). -/
structure Inst where
  /-- Instance time less device time. -/
  off : Int := 0
  /-- Consecutive Syncs within 1 us, and consecutive ones beyond JUMP_THRESH. -/
  near : Nat := 0
  far : Nat := 0
  /-- The servo has reached LOCKED and has gone no further than COASTING since. -/
  locked : Bool := false
  /-- Ticks of the last Sync, and of the last Announce, announce timeout or start of service (R360). -/
  syncAt : Nat := 0
  annAt : Nat := 0
  /-- Messages sent, by kind: 0 Sync, 1 Announce, 2 delay request. -/
  sent : Map Nat := []
  /-- The stamp of the last event message of each kind that left, in instance time (R355). -/
  stamps : Map Int := []
  /-- A two-step Sync that waits for its Follow_Up: port, sequence, receipt on instance time, frame, and
  the receipt in ns of device time. -/
  twoStep : Option (Nat × Nat × Int × List Byte × Nat) := none
  deriving DecidableEq, Repr

/-- Losses of a timestamp queue that wait for a marker: MSG_TYPE, DOMAIN, SEQ_ID, count (R358). -/
structure LostRun where
  type : Nat
  domain : Nat
  seq : Nat
  count : Nat
  deriving DecidableEq, Repr

/-- The transmit timestamp queue of a port (R357). -/
structure TsQueue where
  /-- Entries, oldest first, each of four words. -/
  entries : List (List Word) := []
  runs : List LostRun := []
  /-- The entry latched by the last read of ENTRY_W0. -/
  latched : List Word := []
  /-- Host PTP event frames sent and not yet stamped: MSG_TYPE, DOMAIN, SEQ_ID. -/
  sent : List (Nat × Nat × Nat) := []
  deriving DecidableEq, Repr

/-- Device time and the media clock (R350, R360 to R368). -/
structure TimeState where
  /-- Media sample number of the last strobe; device time then is m / f_s. -/
  m : Nat := 0
  /-- The held offset H. -/
  h : Int := 0
  /-- H and the tick at which the running slew began. -/
  slew : Option (Int × Nat) := none
  instA : Inst := {}
  instB : Inst := {}
  /-- A switch waiting for the next block boundary: the instance, and whether it is a first lock. -/
  switch : Option (Nat × Bool) := none
  /-- Tick at which the HOLDOVER began that HOLDOVER_MS counts from. -/
  holdFrom : Option Nat := none
  /-- T_B - T_A at the last 16 Syncs of the slower instance, newest first (R365). -/
  inter : List Int := []
  /-- A realignment waiting for the next block boundary (R364). -/
  realign : Bool := false
  tsq : Map TsQueue := []
  deriving DecidableEq, Repr

/-! Seats, commands and long operations (R394 to R424) -/

/-- The state of a long operation (R410). -/
inductive OpState where
  | queued | running | suspended
  deriving DecidableEq, Repr

/-- A command in flight (R400, R401, R410). -/
structure Cmd where
  seat : Nat
  sq : Nat
  tag : Nat
  opcode : Nat
  /-- Word 0 of its entry: flags FENCE, KEEP_PARTIAL and F0 to F3 are read from it. -/
  word0 : Word
  context : Word
  params : List Word
  /-- Its opcode has begun. -/
  started : Bool := false
  state : OpState := .queued
  /-- Its long-operation slot (R374). -/
  slot : Nat := 0
  accepted : Bool := false
  /-- Its final completion has been made and waits to be written. -/
  final : Bool := false
  steps : Nat := 0
  /-- Suspension asked for at the next step boundary. -/
  suspend : Bool := false
  /-- Cancellation asked for, with KEEP_PARTIAL. -/
  cancel : Option Bool := none
  /-- Data staged by its FETCH step. -/
  bytes : List Byte := []
  /-- Bytes an UPLOAD has received so far, by offset. -/
  upload : Map (Option Byte) := []
  /-- What the operation keeps between steps. -/
  work : List Nat := []
  /-- Controlling commands that complete when this one suspends or ends: (seat, tag). -/
  waiters : List (Nat × Nat) := []
  /-- Its tag was already in flight: it completes at once with BAD_PARAM (R401). -/
  bad : Bool := false
  /-- A load that the principal forwarded: the tag of the principal's command (R488). -/
  peer : Option Nat := none
  /-- Tick of its fetch, or of the last byte of its UPLOAD (R405). -/
  upAt : Nat := 0
  deriving DecidableEq, Repr

/-- A completion entry before it is written (R402). -/
structure Completion where
  cq : Nat
  sq : Nat
  tag : Nat
  context : Word
  status : Nat
  r0 : Word := 0
  r1 : Word := 0
  interim : Bool := false
  /-- It ends the command whose tag was already in flight (R401). -/
  dup : Bool := false
  deriving DecidableEq, Repr

/-- A Stagedoor message the module has sent or is to send (R419, R423). -/
structure SdMessage where
  type : Nat
  seq : Nat
  payload : List Word
  /-- Tick at which it was last sent. -/
  sentAt : Nat
  deriving DecidableEq, Repr

/-- The Stagedoor session of a seat (R420 to R423). -/
structure SdState where
  key : Option (List Byte) := none
  /-- The key is also in flash (R420). -/
  persisted : Bool := false
  session : Nat := 0
  /-- Highest sequence accepted, and those accepted among the 64 below it. -/
  highest : Nat := 0
  window : List Nat := []
  /-- Highest received in order: what ACK carries. -/
  inOrder : Nat := 0
  txSeq : Nat := 0
  /-- COMPLETE and EVENT messages not yet acknowledged, oldest first. -/
  unacked : List SdMessage := []
  /-- Messages that wait for a place among the 64 outstanding ones: type and payload. -/
  waiting : List (Nat × List Word) := []
  /-- Tick of the last KEEPALIVE the module sent of its own accord. -/
  keptAt : Nat := 0
  /-- Tick of the last authenticated message (R414). -/
  heardAt : Nat := 0
  /-- The session ends once the completion of this tag has been sent (R425). -/
  endAfter : Option Nat := none
  deriving DecidableEq, Repr

/-- A seat (R394 to R416). -/
structure SeatState where
  cmds : List Cmd := []
  /-- Completions made and not yet written, in the order they arose. -/
  done : List Completion := []
  /-- The submission queue served last (R399). -/
  lastSq : Nat := 3
  /-- Tick at which the grace period ends. -/
  graceEnd : Nat := 0
  /-- Tick at which SLEEP_REQ was last set (R462). -/
  sleepAt : Nat := 0
  /-- Submission rings of a Stagedoor seat: ring i, entry k at 256 i + k. -/
  sdRing : Map (List Word) := []
  sd : SdState := {}
  /-- Tags and queues recorded at a warm reset (R417), and the attachment then. -/
  aborted : List (Nat × Nat) := []
  wasBind : Nat := 0
  deriving DecidableEq, Repr

/-- A buffer of the general pool (R406). -/
structure Buffer where
  seat : Nat := 0
  size : Nat := 0
  /-- Bytes by offset; an unlisted one reads 0. -/
  data : Map Byte := []
  /-- Used by a HELD campaign: a seat reset keeps it (R416). -/
  held : Bool := false
  deriving DecidableEq, Repr

/-- The general pool (R36, R38, R406). -/
structure Pool where
  bufs : Map Buffer := []
  /-- The last handle assigned. -/
  handle : Nat := 0
  /-- Bytes taken by running operations besides the buffers: (seat, tag, bytes). -/
  taken : List (Nat × Nat × Nat) := []
  deriving DecidableEq, Repr

/-- The PCIe links, and whose turn it is to fetch (R394, R399, R414). -/
structure Hosts where
  upA : Bool := false
  upB : Bool := false
  /-- PERST_B of the link has asserted since it was last up. -/
  perstA : Bool := false
  perstB : Bool := false
  /-- The seat served last. -/
  lastSeat : Nat := 7
  deriving DecidableEq, Repr

/-! Ethernet (R317 to R347) -/

/-- The header of an egress stream packet (R323, R330, R333, R495). -/
structure StreamHead where
  dmac : Nat := 0
  smac : Nat := 0
  /-- PCP and VID of the VLAN tag. -/
  vlan : Option (Nat × Nat) := none
  /-- Sequence number of the R-TAG. -/
  rtag : Option Nat := none
  /-- STREAM_ID of AAF and CRF, SSRC of AES67. -/
  id : Nat := 0
  /-- AES67: source and destination address, source and destination port, payload type, TTL, DSCP. -/
  ip : List Nat := []
  deriving DecidableEq, Repr

/-- What a transmit frame carries. -/
inductive TxBody where
  /-- A host frame, destination MAC first, without FCS (R338). -/
  | host (bytes : List Byte)
  /-- A frame forwarded across the bridge pair, received at a time in ns; with an inverted FCS (R343). -/
  | bridge (bytes : List Byte) (stomped : Bool) (rx : Nat)
  /-- Packet k of an egress stream: sequence number, timestamp, tu, mr, and its samples or times. -/
  | stream (n k seq ts : Nat) (tu mr : Bool) (data : List Int) (head : StreamHead := {})
  /-- A message of a PTP instance: 0 Sync, 1 Announce, 2 delay request, 3 Delay_Resp, 4 Pdelay_Resp, 5 Follow_Up,
  6 Pdelay_Resp_Follow_Up (R351). Its timestamp field in whole ns, correctionField in 2^-16 ns, and for an answer the
  receipt of the request in 2^-16 ns of instance time (R349, R356). -/
  | ptp (i kind seq : Nat) (stamp : Nat := 0) (corr : Int := 0) (rx : Int := 0)
  /-- A Stagedoor message of a seat: header fields and payload (R419). -/
  | stagedoor (seat type flags seq ack session : Nat) (payload : List Word)
  /-- A network heartbeat of the twin (R486). -/
  | heartbeat (bytes : List Byte)
  deriving DecidableEq, Repr

/-- A frame in a transmit queue; its length with FCS. -/
structure TxFrame where
  len : Nat
  body : TxBody
  /-- Already counted in TX_GATE_HOLD. -/
  held : Bool := false
  /-- A retained packet sent when egress opens: its queue's credit stays 0 (R497). -/
  retained : Bool := false
  deriving DecidableEq, Repr

/-- A port's MAC, gates and classifier. Times in ns of device time, credits in 10^-6 bit. -/
structure EthPort where
  queues : Map (List TxFrame) := []
  /-- When the pause of each paused queue began, in ns, and its time in quanta. -/
  quanta : Map (Nat × Nat) := []
  /-- PAUSE frames received and not yet acted on: when they ended, and a link time, or a time for each priority named. -/
  pauses : List (Nat × Option Nat × List (Option Nat)) := []
  /-- The last PAUSE sent: the priorities of a priority PAUSE, and its quanta. -/
  pauseTx : Option (Option Nat × Nat) := none
  credit : Map Int := []
  creditAt : Nat := 0
  txEnd : Nat := 0
  /-- The frame started last and its queue. -/
  wire : Option (Nat × TxFrame) := none
  /-- The operational gate list: (states, interval in ns), the cycle, and where it stands. -/
  gcl : Option (List (Nat × Nat)) := none
  cycle : Nat := 0
  entry : Nat := 0
  entryEnd : Nat := 0
  cycleEnd : Nat := 0
  /-- Change time of a committed list. -/
  change : Option Nat := none
  xtx : List Byte := []
  mdio : Option Word := none
  /-- The one-step channels: the time from which channel i, of instance i, is free again (R356). -/
  oneStep : Map Nat := []
  /-- Where the classification under way stands: the instruction to execute. -/
  clsPc : Option Nat := none
  /-- The last frame was marked for the greenroom wake match. -/
  wakeMark : Bool := false
  deriving DecidableEq, Repr

/-- An ingress stream (R327 to R333). -/
structure IngState where
  /-- Frames delivered and not yet taken, oldest first, with their receive stamps in ns. -/
  inbox : List (List Byte × Nat) := []
  /-- The render rate of the commit that set the stream. -/
  rate : Nat := 0
  /-- Received samples, as intervals of render sample indices, newest first. -/
  got : List (Nat × Nat) := []
  lastEnd : Nat := 0
  seq : Option Nat := none
  /-- First sample of the running fade-in. -/
  fade : Option Nat := none
  /-- Tick of the last packet, and the margins of the last second that none after them is below, newest first, with
  their ticks (R327). -/
  at_ : Nat := 0
  margins : List (Nat × Int) := []
  /-- Whole samples of O in use (R366). -/
  shift : Int := 0
  /-- 802.1CB recovery: last sequence, the accepted ones among the 32 before it (distances), tick. -/
  cbSeq : Option Nat := none
  cbHist : List Nat := []
  cbAt : Nat := 0
  deriving DecidableEq, Repr

/-- An egress stream (R331). -/
structure EgState where
  /-- The next packet number. -/
  next : Option Nat := none
  rate : Nat := 0
  /-- Packets of configurations that a commit has ended: the next one, their span, and the first media sample number of
  the new configuration, before which they end (R71). -/
  before : List (Nat × Nat × Nat) := []
  /-- Packets kept while egress is closed, oldest first, and the last departure the principal
  reported (R497). -/
  kept : List TxFrame := []
  departed : Option Nat := none
  deriving DecidableEq, Repr

/-- The network side. -/
structure Net where
  ports : Map EthPort := []
  ing : Map IngState := []
  eg : Map EgState := []
  /-- The mr bit of egress AAF (R322). -/
  mr : Bool := false
  deriving DecidableEq, Repr


/-! Cues, contacts, timecode and snapshots (R426 to R448) -/

/-- A Prompter besides its page (R426 to R435). -/
structure PrompterEngine where
  /-- Call stack and loop stack (address, iterations left, 0: for ever), top first. -/
  calls : List Nat := []
  loops : List (Nat × Nat) := []
  /-- First sample of the run that began the wait under way. -/
  wait : Option Nat := none
  /-- Stamp of the edge a WAIT_GPIO has seen. -/
  edge : Option Nat := none
  /-- A START (true) or STOP waiting for the next block boundary. -/
  ask : Option Bool := none
  /-- Block plus 1 of the last run, instructions it has executed, and whether it has ended. -/
  run : Nat := 0
  used : Nat := 0
  runOver : Bool := false
  /-- Cue flags cleared in the run of block `clearedIn` - 1. -/
  cleared : Nat := 0
  clearedIn : Nat := 0
  deriving DecidableEq, Repr

/-- A contact input (R436): raw level, debounced level before POL, and the stamp of a change under
debounce. -/
structure GpioPin where
  raw : Bool := false
  level : Bool := false
  /-- The level as the greenroom has sensed it. -/
  green : Bool := false
  /-- A change under debounce: its stamp, and the tick of that strobe. -/
  since : Option Nat := none
  tick : Nat := 0
  deriving DecidableEq, Repr

/-- The timecode reader (R437): consecutive words, frame number and stamp (1/256 render sample) of the
last one, the measured frame period, and missing words in a row. -/
structure TcReader where
  words : Nat := 0
  frame : Option Nat := none
  stamp : Nat := 0
  period : Option Int := none
  missed : Nat := 0
  deriving DecidableEq, Repr

/-- A snapshot image (R446). -/
structure Image where
  id : Nat
  rate : Nat
  history : Bool
  act : RegMap
  recOwner : Map Nat
  recGroup : Map Nat
  motion : Motion
  cue : Map Word
  layouts : Layouts
  outEq : Map Word
  objs : Map ObjEngine
  paths : Map ObjPaths
  routes : Map RouteEngine
  buses : Map BusEngine
  outs : Map OutEngine
  bass : Map BassGroup
  prompters : Map PrompterEngine
  chains : Map ChainEngine
  deriving DecidableEq, Repr

/-- A RESTORE that waits for its block boundary, or whose outputs ramp up again (R448). -/
structure RestoreRun where
  image : Image
  seat : Nat
  tag : Nat
  serial : Nat
  /-- The boundary of APPLY, and whether it has passed. -/
  at_ : Nat
  applied : Bool := false
  /-- Length of the ramp up. -/
  up : Nat := 0
  deriving DecidableEq, Repr

/-- Snapshot slots, the image being copied, and images written out (R446 to R448). -/
structure Snapshots where
  slot0 : Option Image := none
  slot1 : Option Image := none
  /-- The last id given. -/
  id : Nat := 0
  copying : Option Image := none
  written : List Image := []
  restore : Option RestoreRun := none
  deriving DecidableEq, Repr

/-! Interrupts and the greenroom (R450 to R477) -/

/-- A vector of a seat (R452 to R457). -/
structure Vec where
  /-- The source it is in service for. -/
  service : Option Nat := none
  /-- Arrivals since its last delivery, and whether HOLDOFF has passed since the first of them. -/
  count : Nat := 0
  heldOff : Bool := false
  /-- Tick of the first of those arrivals. -/
  since : Nat := 0
  /-- PIN mode: it has driven the pin since it became ready. -/
  told : Bool := false
  /-- Ticks of its deliveries in the last 1 ms, newest first. -/
  times : List Nat := []
  deriving DecidableEq, Repr

/-- What the Callboard keeps for a seat besides its page. -/
structure CallState where
  vecs : Map Vec := []
  /-- MAP: the byte of each source (R460). -/
  map : Map Nat := []
  /-- SEATIRQ_B is driven low. -/
  pin : Bool := false
  /-- The last doorbell, vector and source, and how many there have been. -/
  bell : Option (Nat × Nat) := none
  bells : Nat := 0
  deriving DecidableEq, Repr

/-- The greenroom besides its pages (R466 to R476). -/
structure Green where
  /-- The crystal oscillates. -/
  crystal : Bool := false
  /-- The last four codes of each microphone, newest first, and classifications tried. -/
  mic : Map (List Nat) := []
  tries : Map Nat := []
  /-- Tick from which the 50 ms before a classification count. -/
  classAt : Map Nat := []
  /-- The side of its threshold a jack's detect level is on (0 not converted yet, 1 below, 2 above), and
  the tick since which it is there. -/
  det : Map (Nat × Nat) := []
  /-- The band a jack's microphone level is in (0 none, 1 to 4 buttons A to D, 5 headset), and the tick
  since which it is there. -/
  band : Map (Nat × Nat) := []
  /-- Tick at which a pulse on WAKE_B ends. -/
  pulseEnd : Option Nat := none
  /-- Seats whose wake path is driven. -/
  wakes : List Nat := []
  /-- Answer to the last BMC transaction: the words read, and whether it was refused. -/
  answer : List Word := []
  nack : Bool := false
  /-- Entry into a low-power state: 2 STANDBY, 3 DORMANT, and the first sample of its ramp. -/
  entry : Option (Nat × Nat) := none
  /-- A watch source that can wake the module came during the entry. -/
  abort : Bool := false
  /-- The slot that holds the state saved for STANDBY. -/
  saved : Option Nat := none
  deriving DecidableEq, Repr

/-! Twins (R478 to R508) -/

/-- A sample of an input, as Source names it, at a render sample. -/
structure InSample where
  type : Nat
  unit : Nat
  chan : Nat
  at_ : Nat
  v : Int
  deriving DecidableEq, Repr

/-- What an OWNERSHIP_SET says (R396). -/
structure OwnSet where
  kind : Nat
  first : Nat
  count : Nat
  seat : Nat
  shared : Bool
  deriving DecidableEq, Repr

/-- A register write that acts at a later boundary (R492). -/
structure LaterWrite where
  at_ : Nat
  seat : Nat
  addr : Nat
  data : Word
  deriving DecidableEq, Repr

/-- The samples of a block that a unit holds of an input: a bitmap and their CRC (R490). -/
structure Holding where
  src : Source
  bits : Nat
  crc : Nat
  deriving DecidableEq, Repr

/-- A commit as the input journal keeps it (R37, R492). -/
structure JournalCommit where
  serial : Nat
  seat : Nat
  mask : Nat
  applyAt : Nat
  vals : List (Nat × Word)
  deriving DecidableEq, Repr

/-- One block of the twin input journal (R37). -/
structure JournalBlock where
  block : Nat
  /-- Its first render sample index. -/
  rsi : Nat
  /-- Every render-rate input sample that the render may read. -/
  samples : List InSample
  /-- The samples still missing after repair: a bitmap for each stream that lacks some (R490). -/
  missing : List (Nat × Nat) := []
  /-- The commits that apply in it, and the immediate writes that act at its end. -/
  commits : List JournalCommit := []
  writes : List LaterWrite := []
  deriving DecidableEq, Repr

/-- A frame of the Ndodom link (R485). -/
inductive PeerFrame where
  /-- Who the peer is and how it is configured: DEVICE words 0x040 and 0x044, serial, MODE, render rate
  and block codes (R503, R507). -/
  | identity (variant fw serial mode rate block : Nat)
  /-- Row 1: state, role, claim, serial, render sample index, M0, block of the output CRC, the CRC,
  curtain causes, device time in 2^-16 ns. -/
  | heartbeat (state role claim serial rsi m0 block crc causes : Nat) (time : Int)
  /-- Row 2: what the unit holds of a block. -/
  | holdings (block : Nat) (held : List Holding)
  /-- Samples shipped. -/
  | repair (block : Nat) (samples : List InSample)
  /-- Row 3: the last packet of each stream that has left (R495). -/
  | departures (last : List (Nat × Nat))
  /-- Row 4: a commit: serial, seat, mask, UPD_AT, captured values (R492). -/
  | commit (serial seat mask at_ : Nat) (vals : List (Nat × Word))
  /-- The understudy's prepare of a commit: it failed with a reason on a page, or passed (0). -/
  | prepared (serial reason page : Nat)
  /-- The commit's apply sample, once it has passed prepare on both; none: it is withdrawn, or failed. -/
  | commitAt (serial : Nat) (at_ : Option Nat)
  /-- A unit of a commit was lost on the peer. -/
  | unitLost (serial page : Nat)
  /-- An immediate write, and the boundary at which it acts. -/
  | write (seat addr : Nat) (data : Word) (at_ : Nat)
  /-- An OWNERSHIP_SET and its boundary (R396). -/
  | ownership (set : OwnSet) (at_ : Nat)
  /-- Motion flags of an object set and cleared (R110). -/
  | flags (n set clr : Nat)
  /-- Curtain causes recognised, and the closing block named (R203). -/
  | curtain (causes : Nat) (named : Option Nat)
  /-- A release of the curtain, with the block that opens it. -/
  | release (block : Nat)
  /-- A Prompter's context at a boundary: STATE, PC, call stack, loop stack, mark, flags (R440). -/
  | prompter (n state pc : Nat) (calls : List Nat) (loops : List (Nat × Nat)) (mark flags : Nat)
  /-- A local channel has latched, and its recovery (R290). -/
  | latch (k cause : Nat)
  | recover (k : Nat)
  /-- A resistance temperature and a block's closed-loop power of an output, and the block at whose release both use it
  (R290). -/
  | resistance (n : Nat) (t : Int) (at_ : Nat)
  | power (n : Nat) (p : Int) (at_ : Nat)
  /-- A switch of the selected time instance (R372). -/
  | select (i : Nat)
  /-- Row 5: mirrored input samples: type, unit, channel, render sample, value (R491). -/
  | mirrored (samples : List InSample)
  /-- Row 6: a file of a load: its seat, tag, opcode, parameters, bytes (R488). -/
  | file (seat tag opcode : Nat) (word0 : Word) (params : List Word) (bytes : List Byte)
  /-- The understudy has transformed the last entry of a FILTER_LOAD; the boundary at which both install it (R488). -/
  | transformed (seat tag : Nat)
  | install (seat tag at_ : Nat)
  /-- What the principal's campaign puts into its outputs (R248). -/
  | excite (e : Option Excitation)
  /-- A sealed snapshot. -/
  | snapshot (im : Image)
  /-- A journaled block (R37, R503). -/
  | journal (block : JournalBlock)
  /-- A join begins; static content is complete; the pair is joined; it fails. -/
  | join
  | contentDone (slots : Map Hrir)
  | joined
  | joinFailed
  /-- The understudy starts again from the freeze (R494). -/
  | resync
  /-- DETACH; HANDOVER at a boundary. -/
  | detach
  | handover (at_ : Nat)
  deriving DecidableEq, Repr

/-- The twin logic besides its pages. -/
structure TwinState where
  /-- Frames to the peer, oldest first. -/
  out : List PeerFrame := []
  /-- The excitation that the principal has forwarded (R248). -/
  excite : Option Excitation := none
  /-- PEERPRES_B is low. -/
  peerpres : Bool := false
  /-- MODE in force: a change while attached acts after DETACH (R506). -/
  mode : Nat := 0
  /-- A peer with the same claim and serial bits is on Ndodom (R481). -/
  tie : Bool := false
  /-- The takeover under way is from a state without a running render (R500), and the snapshot is
  restored. -/
  cold : Bool := false
  restored : Bool := false
  /-- The last completed claim cycle returned the unit's own arbitration word; its tick. -/
  won : Bool := false
  cycleAt : Nat := 0
  /-- Principal by takeover until the end of its next join. -/
  byTake : Bool := false
  /-- A heartbeat has come since the last check; consecutive checks without one; Ndodom loss. -/
  hb : Bool := false
  misses : Nat := 0
  /-- Media sample number of the last heartbeats sent, and the boundary last checked for the peer's (R486). -/
  sentAt : Option Nat := none
  checkedAt : Option Nat := none
  hbLost : Bool := true
  /-- Tick of the last Ndodom heartbeat, and of the last claim over Ndodom that bars egress. -/
  hbAt : Nat := 0
  barred : Option Nat := none
  /-- Peer: MODE, rate and block codes, state, serial, render sample index, M0. -/
  peerMode : Nat := 0
  peerRate : Nat := 0
  peerBlock : Nat := 0
  peerState : Nat := 0
  peerSerial : Nat := 0
  peerRsi : Nat := 0
  peerM0 : Nat := 0
  /-- Peer device time less own device time, 2^-16 ns. -/
  peerTime : Int := 0
  /-- Tick of the last network heartbeat. -/
  netAt : Nat := 0
  /-- The JOIN under way: seat and tag of its command (none: AUTO_JOIN), the tick of its start. -/
  join : Option (Option (Nat × Nat) × Nat) := none
  /-- RESYNC and TAKEOVER commands waiting: seat and tag. -/
  resync : Option (Nat × Nat) := none
  take : Option (Nat × Nat) := none
  /-- HANDOVER: its boundary, and seat and tag on the principal. -/
  handover : Option (Nat × Option (Nat × Nat)) := none
  /-- DETACH at the next boundary: seat and tag on the unit that issued it. -/
  detach : Option (Option (Nat × Nat)) := none
  /-- Journaled blocks not yet rendered, oldest first. -/
  journal : List JournalBlock := []
  /-- The journal of the unit's own inputs: the last 2 s, oldest first (R37). -/
  ring : List JournalBlock := []
  /-- Immediate writes that acted at the last boundary. -/
  acted : List LaterWrite := []
  /-- Own output CRCs by block, newest first, as far as the last 8; the peer's, likewise. -/
  crcs : List (Nat × Nat) := []
  peerCrcs : List (Nat × Nat) := []
  /-- Matching blocks in VERIFY. -/
  matched : Nat := 0
  /-- RESYNC waits for its snapshot (R494). -/
  awaiting : Bool := false
  /-- Ticks of the last snapshot shipped and of its freeze; a commit applied since. -/
  shipAt : Nat := 0
  freezeAt : Option Nat := none
  commitSince : Bool := false
  /-- A snapshot is to be frozen and shipped at the next release (R503). -/
  freeze : Bool := false
  /-- Writes, and ownership changes, that act at a later boundary (R492, R396). -/
  later : List LaterWrite := []
  ownLater : List (Nat × OwnSet) := []
  /-- Commits that wait for the peer's prepare, and the answers that have come. -/
  prepared : List (Nat × Nat × Nat) := []
  /-- Departures to report. -/
  sentSeq : Map Nat := []
  /-- FILTER_LOADs, by seat and tag, whose last entry the understudy has transformed; those whose INSTALL has its
  boundary (R488). -/
  transformed : List (Nat × Nat) := []
  installs : List (Nat × Nat × Nat) := []
  deriving DecidableEq, Repr

/-! Memory and health monitors (R509 to R528) -/

/-- The DRAM controller and the monitors besides their pages. -/
structure Monitors where
  /-- Sensors 14 and 15 ask for the halved interval; it changes at the next refresh. -/
  want2x : Bool := false
  /-- A refresh stall is under way. -/
  stall : Bool := false
  /-- ZQ latches per channel, the delay tap of each channel, and moves for the next stall. -/
  zq : Map Nat := []
  taps : Map Int := []
  tapMove : Map Int := []
  /-- Ticks of corrected errors in the last 1 ms, newest first. -/
  ces : List Nat := []
  /-- Journal blocks lost to an error; operations to fail with DEGRADED: (seat, tag). -/
  degraded : List (Nat × Nat) := []
  /-- Objects (false) and outputs (true) to rebuild at the next block boundary (R519). -/
  rebuild : List (Bool × Nat) := []
  /-- WARNING, THROTTLE and CRITICAL in force. -/
  warn : Bool := false
  throttle : Bool := false
  critical : Bool := false
  /-- Ticks since which the hottest temperature has stayed below the clear level of WARNING (0), THROTTLE (1) and
  CRITICAL (2). -/
  cool : Map Nat := []
  /-- THERMTRIP_B is low; REFCLK has stopped (R523, R559). -/
  tripped : Bool := false
  refclkLost : Bool := false
  /-- Adaptive VDD_CORE: the value wanted, mV. -/
  want : Nat := 0
  /-- The PMBus request under way: the voltage (none: VOUT_MODE is read), and failures so far. -/
  pmb : Option (Option Nat × Nat) := none
  /-- VOUT_MODE has been read, and a voltage waiting for its request. -/
  voutMode : Bool := false
  next : Option Nat := none
  deriving DecidableEq, Repr

/-! Reset and boot (R529 to R546) -/

/-- A boot configuration (R534). -/
structure BootCfg where
  valid : Bool := false
  seq : Nat := 0
  slot : Nat := 0
  /-- Functions on links A and B; 0 without a valid copy. -/
  pfA : Nat := 0
  pfB : Nat := 0
  ecc : Bool := false
  defcfg : Bool := false
  defcfgOnWarm : Bool := false
  twinMode : Nat := 0
  bind : List Nat := []
  defcfgLen : Nat := 0
  sdPort : Nat := 48620
  ipv4 : List Nat := []
  deriving DecidableEq, Repr

/-- What a reset of the module runs through. -/
structure Boot where
  /-- Bytes of the QSPI flash; an unlisted byte reads 0xFF. -/
  flash : Map Byte := []
  /-- The key store in flash: the persisted Stagedoor key of each seat (R420, R533). -/
  keys : Map (List Byte) := []
  /-- Fused rollback count. -/
  fused : Nat := 0
  bootsel : Nat := 0
  twinid : Bool := false
  cfg : BootCfg := {}
  /-- Reset in progress: none after FIRMWARE_UP; true for a warm reset. -/
  warm : Option Bool := some false
  /-- A good image is loaded: its RELEASE and ROLLBACK. -/
  image : Option (Nat × Nat) := none
  /-- Boot configuration and image as they were loaded, for a warm reset. -/
  loadedSlot : Nat := 0
  /-- Bytes of the push window. -/
  window : Map Byte := []
  /-- The default configuration under replay: record, and how many there are. -/
  replay : Option (Nat × Nat) := none
  /-- The record under way has begun; the status of its command once it has ended. -/
  busy : Bool := false
  result : Option Nat := none
  /-- Tick at which it began. -/
  since : Nat := 0
  deriving DecidableEq, Repr

end Sys2Proof.Machine
end

