-- ==== Sys2Proof/Syntax.lean ====
section
/-! DEFINITION. The commands the block takes: one constructor per row of the opcode table. -/

namespace Sys2Proof

open Sys2Proof.Machine (PeerFrame)

/-- The commands the block takes: one constructor per row of the opcode table. -/
inductive Instr where
  /-- REGISTER_WRITE (R50): A 32-bit write to a register that has no row of its own is checked for alignment, ownership, lock, encoding and kind, then staged or applied at once. -/
  | registerWrite (w : Writer) (addr : Nat) (data : Word) (aligned : Bool)
  /-- LOW_WORD_READ (R13): A read of the low word of a 64-bit value latches the high word in the reading seat's latch. -/
  | lowWordRead (w : Writer) (addr : Nat)
  /-- CLEARING_READ (R55): A read of a COR field by the owner or house seat clears it for every seat, and on a mirror page posts a tagged clear to the slow domain. -/
  | clearingRead (w : Writer) (addr : Nat)
  /-- MIRROR_REFRESH (R61): A slow clock domain refreshes the mirror copy of its register region and applies posted clears tagged with earlier refreshes. -/
  | mirrorRefresh (b : Blk) (tx : Bool)
  /-- SLOW_WRITE_LOST (R64): A posted slow-domain write whose clock has not run within 1 ms is dropped and logged. -/
  | slowWriteLost (b : Blk)
  /-- BLOCK_RESET (R48): A BLOCK_RESET write returns the unit's internal state to reset at the next block boundary or within two slow-domain edges, keeping configuration. -/
  | blockReset (w : Writer) (b : Blk)
  /-- SAMPLE_STROBE (R31): The media sample strobe advances the render sample index by one. -/
  | sampleStrobe
  /-- RELEASE (R19): At the block boundary the ingress allowance has ended and the Ringmaster releases the jobs of the block. -/
  | release
  /-- OUTPUT_CUTOFF (R378): At the deadline minus B/4 samples each Lead output's SHAPE_PRE job becomes ready, omitting outstanding Extra contributions. -/
  | outputCutoff
  /-- DEADLINE (R20): At the deadline of block b no further job of block b is granted and ready items are withdrawn except Trapeze and pan jobs. -/
  | deadline
  /-- ENGINE_ASK (R375): An engine asks the Ringmaster with its job types and is granted the first eligible item of the highest class, or stalls. -/
  | engineAsk (engine : Nat) (left : Nat) (wait : Nat)
  /-- JOB_RETIRE (R375): A job retires, its flow's next job becomes ready, far fetches may issue, and a trace record is written. -/
  | jobRetire (engine : Nat) (time : Nat) (wait : Nat) (run : Nat) (since : Nat)
  /-- TRAPEZE_JOB (R98): The Trapeze evaluates an object's position for the next block boundary, executing at most 16 instructions. -/
  | trapezeJob (n : Nat) (b : Nat)
  /-- PAN_JOB (R136): A pan engine evaluates an object's law against the active layout and pairs the result with the previous one into paths. -/
  | panJob (n : Nat) (b : Nat)
  /-- PATH_JOB (R159): A path engine renders every path of an object for one slice into the output accumulators. -/
  | pathJob (n : Nat) (b : Nat) (slice : Nat)
  /-- FAR_FETCH_DONE (R161): Far-history fetch requests of an object's slice complete, making its path job ready. -/
  | farFetchDone (n : Nat) (cycles : Nat)
  /-- FETCH_LATE (R162): A far request that takes longer than 2 µs sets FETCH_LATE. -/
  | fetchLate (n : Nat)
  /-- ROUTE_JOB (R181): Routes and bus direct outputs of a destination are added into its accumulator on the path engines. -/
  | routeJob (toBus : Bool) (dest : Nat) (b : Nat)
  /-- BUS_JOB (R177): A bus is summed, inverted, equalised, scaled and saturated to form the bus signal. -/
  | busJob (n : Nat) (b : Nat)
  /-- SHAPE_PRE_JOB (R187): An output's gain, biquads, bass management and dynamics run on its accumulated sum. -/
  | shapePreJob (n : Nat) (b : Nat)
  /-- CONV_HEAD_JOB (R208): The time-domain head of an output's correction filter runs on the block's input. -/
  | convHeadJob (n : Nat) (b : Nat)
  /-- CONV_SEG_JOB (R208): A frequency-domain segment group of an output's correction filter is computed. -/
  | convSegJob (n : Nat) (bank : Nat) (k : Nat) (start : Nat)
  /-- SHAPE_POST_JOB (R261): An output's protection stage, final limiter and curtain gain run and the egress sample is formed. -/
  | shapePostJob (n : Nat) (b : Nat)
  /-- OP_STEP (R410): A step of a long operation completes, at which suspend and cancel requests take effect. -/
  | opStep (seat : Nat) (tag : Nat) (data : List Byte)
  /-- UPD_STROBE (R67): A strobe write is refused or accepted, assigned a serial and captures the staged values of the named groups. -/
  | updStrobe (seat : Nat) (mask : Word)
  /-- PREPARE_DONE (R70): Prepare of a commit ends, passing to PENDING or failing the commit everywhere. -/
  | prepareDone (serial : Nat)
  /-- COMMIT_APPLY (R71): At the apply sample every unit of the commit takes its captured values and the page's APPLIED_COMMIT takes the serial. -/
  | commitApply (serial : Nat)
  /-- SLOW_UNIT_APPLY (R71): A TDM section or slow-domain unit applies a commit at an edge of its own clock at or after the apply sample. -/
  | slowUnitApply (serial : Nat) (b : Blk)
  /-- UNIT_LOST (R441): A unit that has not applied by the apply sample plus one block and two slow periods is lost and the commit becomes SPLIT. -/
  | unitLost (serial : Nat) (b : Blk)
  /-- UPD_DISCARD (R75): Staged values of the writer's pages in the named groups are set equal to active. -/
  | updDiscard (seat : Nat) (mask : Word)
  /-- UPD_CANCEL (R75): A pending commit naming the group is withdrawn if early enough and reads CANCELLED. -/
  | updCancel (seat : Nat) (mask : Word)
  /-- MOTION_START (R101): MOTION.CMD START restarts the Trapeze context at the apply sample from MOTION.ENTRY. -/
  | motionStart (n : Nat) (sa : Nat)
  /-- MOTION_STOP (R101): MOTION.CMD STOP halts the context and holds the position at the apply sample. -/
  | motionStop (n : Nat) (sa : Nat)
  /-- MOTION_FLAGS_SET (R110): A FLAGS.SET write sets motion flags, latched at the next block boundary. -/
  | motionFlagsSet (n : Nat) (flags : Nat)
  /-- MOTION_FLAGS_CLR (R110): A FLAGS.CLR write clears motion flags, latched at the next block boundary. -/
  | motionFlagsClr (n : Nat) (flags : Nat)
  /-- DRAINED (R86): Draining ends when no path reads a history sample written with non-zero gain, and the paths are released. -/
  | drained (n : Nat)
  /-- SEGMENT_END (R102): A motion segment's N samples elapse or its wait target is reached, and the next instruction executes. -/
  | segmentEnd (n : Nat)
  /-- JITTER_INTERVAL_END (R109): A jitter interval ends and a new overlay target is drawn from the LFSR. -/
  | jitterIntervalEnd (n : Nat)
  /-- TRAPEZE_HALT (R107): HALT sets the context HALTED, holding P, and with NOTIFY raises event 0xFF. -/
  | trapezeHalt (n : Nat)
  /-- HOLD (R106): HOLD begins a segment that keeps P0 for N samples. -/
  | hold (n : Nat)
  /-- MOVE (R106): MOVE begins a linear or smooth segment toward a target. -/
  | move (n : Nat)
  /-- CURVE (R106): CURVE begins a cubic Hermite segment to a target with given tangents. -/
  | curve (n : Nat)
  /-- ORBIT (R106): ORBIT begins a circular segment about a centre in a chosen plane. -/
  | orbit (n : Nat)
  /-- JITTER (R109): JITTER sets the amplitudes and interval of the random overlay and starts a glide. -/
  | jitter (n : Nat)
  /-- WAITT (R106): WAITT holds the position until a target render sample or TAI time. -/
  | waitt (n : Nat)
  /-- WAITE (R106): WAITE holds the position until a motion flag reads 1 at a block boundary. -/
  | waite (n : Nat)
  /-- SETP_SEED (R107): SETP SEED loads the LFSR. -/
  | setpSeed (n : Nat)
  /-- SETP_ORIGIN (R107): SETP ORIGIN sets ORIGIN for later instructions. -/
  | setpOrigin (n : Nat)
  /-- SETP_TIMESCALE (R107): SETP TIMESCALE sets the factor for later durations. -/
  | setpTimescale (n : Nat)
  /-- TRAPEZE_LOOP (R107): LOOP pushes the next address and count, or faults on overflow. -/
  | trapezeLoop (n : Nat)
  /-- ENDL (R107): ENDL counts the top loop down and returns or pops, or faults on underflow. -/
  | endl (n : Nat)
  /-- TRAPEZE_JUMP (R107): JUMP continues at the instruction's address plus an offset. -/
  | trapezeJump (n : Nat)
  /-- TRAPEZE_EVENT (R107): EVENT raises an object program event with its code. -/
  | trapezeEvent (n : Nat)
  /-- MOTION_LOAD (R112): MOTION_LOAD checks a program, allocates granules first fit and writes it. -/
  | motionLoad (seat : Nat) (tag : Nat) (data : List Byte)
  /-- MOTION_FREE (R113): MOTION_LOAD with FREE frees a region unless referenced. -/
  | motionFree (seat : Nat) (tag : Nat)
  /-- EQ_SET_LOAD (R88): EQ_SET_LOAD writes coefficient sets into the object or output EQ store unless referenced. -/
  | eqSetLoad (seat : Nat) (tag : Nat) (data : List Byte)
  /-- OBJ_BULK (R408): OBJ_BULK stages values into a run of object records after checking all of them. -/
  | objBulk (seat : Nat) (tag : Nat) (data : List Byte)
  /-- LAYOUT_LOAD (R131): LAYOUT_LOAD fetches, checks and compiles a layout file into a slot. -/
  | layoutLoad (seat : Nat) (tag : Nat)
  /-- LAYOUT_SELECT (R132): LAYOUT_SELECT checks a slot and begins copying it into the idle bank. -/
  | layoutSelect (seat : Nat) (tag : Nat)
  /-- ARMED (R132): The layout copy into the idle bank ends, the slot is armed and with COMMIT SEL is strobed. -/
  | armed
  /-- PATH_SET_FADE_END (R135): A fading-out path set reaches zero and its paths and, for the last conversion fade, the old bank are released. -/
  | pathSetFadeEnd (n : Nat)
  /-- ROUTE_FADE_END (R183): A route cross-fade ends and the old route part is dropped. -/
  | routeFadeEnd (r : Nat)
  /-- OUTPUT_RAMP_ZERO (R187): An output's deactivation ramp reaches zero, its chain states clear and egress carries zero. -/
  | outputRampZero (n : Nat)
  /-- EMGMUTE_CHANGE (R199): EMGMUTE_B changes level and starts the 100 µs recognition timer. -/
  | emgmuteChange (low : Bool)
  /-- PIN_CAUSE (R199): EMGMUTE_B has stayed low or high for 100 µs and cause PIN is latched or cleared. -/
  | pinCause
  /-- CLOSE (R199): A house-seat write of CTRL.CLOSE raises curtain cause HOST. -/
  | close
  /-- RELEASE_WRITE (R202): A write of CTRL.RELEASE opens the curtain if no cause is present, or is refused. -/
  | releaseWrite
  /-- AUTO_RELEASE (R202): With AUTO_RELEASE, 1 s after the last cause cleared the curtain is released. -/
  | autoRelease
  /-- CURTAIN_CLOSED (R200): The curtain gain reaches zero and STATE becomes CLOSED. -/
  | curtainClosed
  /-- OPENED (R202): The opening ramp reaches 1 and STATE becomes OPEN. -/
  | opened
  /-- PEER_CURTAIN_REPORT (R203): In LOCKSTEP a twin's cause report arrives and the principal names the closing block. -/
  | peerCurtainReport (present : Bool) (named : Option Nat)
  /-- HRIR_LOAD (R198): HRIR_LOAD fetches, checks and transforms an HRIR file into a slot. -/
  | hrirLoad (seat : Nat) (tag : Nat)
  /-- FILTER_LOAD (R219): FILTER_LOAD fetches, checks and transforms filters and installs them in banks at one boundary. -/
  | filterLoad (seat : Nat) (tag : Nat)
  /-- FILTER_SWAP (R225): FILTER_SWAP warms target banks, waits for them and strobes a commit of SEL at the apply sample. -/
  | filterSwap (seat : Nat) (tag : Nat)
  /-- CORR_WARM (R223): A write of CORR.WARM starts or stops computing the idle bank alongside the selected one. -/
  | corrWarm (n : Nat) (on : Bool)
  /-- BANK_WARM (R223): Every segment of a warming bank has completed a group and the bank becomes WARM. -/
  | bankWarm (n : Nat)
  /-- SWAPPED (R222): A correction cross-fade ends, the old bank becomes idle and SWAPPED is set. -/
  | swapped (n : Nat)
  /-- SERVICE_DONE (R236): A write of SERVICE.DONE ends service reasons STARTUP and RECOVERY. -/
  | serviceDone
  /-- SWITCHED (R237): A chain's filter-set change ends with its ramp up and SWITCHED is set. -/
  | switched (c : Nat)
  /-- CHAIN_OUTPUT_SAMPLE (R232): A capture chain produces a decimated output sample, checking for OVER and CLIP. For each
  modulator period of the output period, oldest first, `pin` holds the levels of the chain's pin at the rising and at the
  falling edge of its clock, and `aux`, for an auxiliary chain, the levels of AUXAIN 0 to 7, JACK0_MIC and JACK1_MIC in
  2^-31 of full scale (R229, R230, R242). -/
  | chainOutputSample (c : Nat) (pin : List (Bool × Bool)) (aux : List (List Int))
  /-- STUCK (R243): A bitstream without transition for 1,024 modulator periods sets STUCK and the chain outputs zero. -/
  | stuck (c : Nat) (on : Bool)
  /-- SCAN_SWITCH (R240): An SCMODE chain completes an output period and switches to the next scan input. -/
  | scanSwitch (c : Nat)
  /-- CAPTURE_TO_MEMORY (R244): CAPTURE_TO_MEMORY starts recording up to 16 chains into a general-pool buffer. -/
  | captureToMemory (seat : Nat) (tag : Nat)
  /-- C2M_START (R245): A capture's start sample is reached and recording begins. -/
  | c2mStart (seat : Nat) (tag : Nat)
  /-- C2M_DONE (R245): A one-shot capture fills its buffer and completes. -/
  | c2mDone (seat : Nat) (tag : Nat)
  /-- CAMPAIGN_START (R249): CAMPAIGN_START fetches and checks a descriptor and begins a measurement campaign. -/
  | campaignStart (seat : Nat) (tag : Nat)
  /-- CAMPAIGN_RESUME (R255): CAMPAIGN_RESUME checks completed records and resumes a HELD campaign. -/
  | campaignResume (seat : Nat) (tag : Nat)
  /-- CAMPAIGN_DISCARD (R255): CAMPAIGN_RESUME with DISCARD releases a HELD campaign. -/
  | campaignDiscard (seat : Nat) (tag : Nat)
  /-- PLAY_END (R250): An excitation play and its gap end and the next play or step follows. -/
  | playEnd
  /-- DECONVOLUTION_DONE (R250): The deconvolution of a step ends and its IR records are written. -/
  | deconvolutionDone
  /-- JOURNAL_WRITE (R254): A campaign journal copy write ends, making the step complete. -/
  | journalWrite
  /-- PROBE_START (R258): PROBE_START fetches and checks a probe descriptor and begins programme correlation. -/
  | probeStart (seat : Nat) (tag : Nat)
  /-- PROBE_STOP (R258): PROBE_STOP writes a final report and completes the probe. -/
  | probeStop (seat : Nat) (tag : Nat)
  /-- PROBE_FRAME (R257): A probe frame ends and is accepted or refused and accumulated. -/
  | probeFrame
  /-- PROBE_REPORT (R258): REPORT accepted frames have accumulated and a report is written to a slot. -/
  | probeReport
  /-- THERMAL_PERSIST (R268): Once per second the thermal states are copied to DRAM. -/
  | thermalPersist
  /-- LIMIT_ACTION (R282): The fast-path current exceeds ILIM at a sense edge and the high sides fall for the half-period. -/
  | limitAction (k : Nat) (ix : Int)
  /-- FAULT_PIN_LOW (R282): PSk_FAULT_B falls while the channel runs and acts as a limit action. -/
  | faultPinLow (k : Nat) (low : Bool)
  /-- CARRIER_PERIOD_END (R283): A carrier period ends and CONSEC is counted or reset. -/
  | carrierPeriodEnd (k : Nat) (c : Nat) (peak : Nat)
  /-- STUCK_SENSE (R278): The sense bitstream has no transition for 64 sense periods and the channel latches with cause SENSE. -/
  | stuckSense (k : Nat) (on : Bool)
  /-- RECOVER (R284): A write of CTRL.RECOVER starts recovery if its conditions hold, or is refused. -/
  | recover (k : Nat)
  /-- RETRY_WAIT_END (R285): An automatic retry wait ends and recovery is attempted or the wait repeats. -/
  | retryWaitEnd (k : Nat)
  /-- RECOVERED (R284): A recovering channel's fade-in ends and it becomes RUNNING. -/
  | recovered (k : Nat)
  /-- ATTEMPTS_CLEAR (R285): After 60 s of clean running ATTEMPTS returns to 0. -/
  | attemptsClear (k : Nat)
  /-- RESISTANCE_WINDOW (R279): A 1 s pilot window ends and a coil resistance estimate is formed and accepted or not. `re` and
  `im` say how the parts of Z round to the units of R_COIL, which the spec leaves open. -/
  | resistanceWindow (k : Nat) (re im : Int)
  /-- TDM_FRAME (R299): A TDM section receives or sends a frame, discarding and replacing bad frames. -/
  | tdmFrame (p : Port) (bits : Nat) (pulse : Bool) (phase : Nat) (slots : List Int)
  /-- STOP (R300): Missing frame syncs or bad frames declare a stop, the section goes UNLOCKED and fades. -/
  | stop (p : Port)
  /-- LOCKING (R301): After 64 consecutive good frames a section enters LOCKING. -/
  | locking (p : Port) (rate : Nat)
  /-- LOCK (R301): The ASRC locks or a bypassed section has SYNC and the section enters LOCKED and ramps up. -/
  | lock (p : Port)
  /-- SYNC_ACQUIRE (R295): A section's frame-sync phase has stayed within 1/16 frame for 1 s and SYNC is acquired. -/
  | syncAcquire (p : Port)
  /-- RATE_MEASURE (R302): The frame rate is measured over 64 frames and tracked or treated as a stop. -/
  | rateMeasure (p : Port) (rate : Nat)
  /-- AES3_FRAME (R305): An AES3 receiver takes a frame, checking parity, preambles, validity and burst preambles. -/
  | aes3Frame (k : Nat) (bad : Bool) (a : Nat) (b : Nat) (va : Bool) (vb : Bool)
  /-- CS_BLOCK (R306): A 192-frame channel-status block completes and is accepted or counted as CRC error. -/
  | csBlock (k : Nat) (sub : Bool) (bs : List Byte)
  /-- AUDIO (R308): PCM channel status and 8,192 frames without preamble return the pair to audio. -/
  | audio (k : Nat)
  /-- CS_APPLIED (R310): A transmitter channel-status change applies at the next Z preamble. -/
  | csApplied (k : Nat)
  /-- MCLKIN_MEASURE (R311): Each MCLKIN frequency is measured every 10 ms. -/
  | mclkinMeasure (ix : Nat) (freq : Nat)
  /-- ETH_RX_FRAME (R319): A received frame with good FCS goes to the first consumer that claims it, else to the classifier. -/
  | ethRxFrame (p : Nat) (t : Nat) (f : List Byte) (err : RxErr)
  /-- PAUSE_RX (R341): A received PAUSE or priority PAUSE sets or replaces the pause time of affected queues. -/
  | pauseRx (p : Nat)
  /-- PAUSE_EXPIRE (R341): A pause time runs out and the affected queues may send again. -/
  | pauseExpire (p : Nat) (q : Nat)
  /-- HIGH_WATER (R342): The host-data receive buffer passes WATER.HIGH and PAUSE frames are sent. -/
  | highWater (p : Nat)
  /-- PAUSE_TX_REPEAT (R342): Every TX_QUANTA/2 quanta above WATER.LOW the PAUSE frame is repeated, or a zero PAUSE is sent. -/
  | pauseTxRepeat (p : Nat) (above : Bool)
  /-- STREAM_PACKET_RX (R327): An ingress stream packet is checked and its samples placed by presentation time. -/
  | streamPacketRx (n : Nat)
  /-- STALLED (R328): An ingress stream without packets for 4 packet times and 2 blocks enters STALLED. -/
  | stalled (n : Nat)
  /-- CLASSIFIER_HALT (R335): Classifier HALT takes the default action. -/
  | classifierHalt (p : Nat) (pc : Nat) (t : Nat) (f : List Byte)
  /-- CLASSIFIER_MATCH (R335): Classifier MATCH tests a masked field and continues or skips. -/
  | classifierMatch (p : Nat) (pc : Nat) (t : Nat) (f : List Byte)
  /-- CLASSIFIER_NMATCH (R335): Classifier NMATCH tests a masked field inverted. -/
  | classifierNmatch (p : Nat) (pc : Nat) (t : Nat) (f : List Byte)
  /-- CLASSIFIER_RANGE (R335): Classifier RANGE tests a field against a range. -/
  | classifierRange (p : Nat) (pc : Nat) (t : Nat) (f : List Byte)
  /-- CLASSIFIER_SKIP (R335): Classifier SKIP skips instructions. -/
  | classifierSkip (p : Nat) (pc : Nat) (t : Nat) (f : List Byte)
  /-- CLASSIFIER_STREAM (R335): Classifier STREAM delivers the frame to an ingress stream. -/
  | classifierStream (p : Nat) (pc : Nat) (t : Nat) (f : List Byte)
  /-- CLASSIFIER_LOOKUP (R335): Classifier LOOKUP delivers to the matching enabled stream of the port or continues. -/
  | classifierLookup (p : Nat) (pc : Nat) (t : Nat) (f : List Byte)
  /-- CLASSIFIER_HOST (R335): Classifier HOST delivers the frame to an exception queue. -/
  | classifierHost (p : Nat) (pc : Nat) (t : Nat) (f : List Byte)
  /-- CLASSIFIER_COUNT (R335): Classifier COUNT increments a counter and continues. -/
  | classifierCount (p : Nat) (pc : Nat) (t : Nat) (f : List Byte)
  /-- CLASSIFIER_DROP (R335): Classifier DROP discards the local copy and may withhold forwarding. -/
  | classifierDrop (p : Nat) (pc : Nat) (t : Nat) (f : List Byte)
  /-- CLASSIFIER_WAKE (R335): Classifier WAKE marks the frame for the greenroom wake match. -/
  | classifierWake (p : Nat) (pc : Nat) (t : Nat) (f : List Byte)
  /-- XTX_SEND (R338): A write of XTX_SEND queues the frame written to XTX_DATA, or sets XTX_ERR. -/
  | xtxSend (p : Nat) (len : Nat) (q : Nat)
  /-- STREAM_PACKET_ENQUEUE (R331): An egress stream packet enters its queue once its block's output jobs retire. -/
  | streamPacketEnqueue (n : Nat)
  /-- FRAME_START (R321): The MAC starts the next frame from the highest-numbered eligible queue. -/
  | frameStart (p : Nat) (t : Nat)
  /-- GATE_ENTRY_CHANGE (R340): A gate-control-list entry interval ends and the next entry's gate states apply. -/
  | gateEntryChange (p : Nat)
  /-- GCL_CHANGE (R340): A committed gate list becomes operational at its change time. -/
  | gclChange (p : Nat)
  /-- LINK_UP (R318): A port's link comes up. -/
  | linkUp (p : Nat)
  /-- LINK_DOWN (R347): A port's link goes down, ending pauses and discarding egress packets. -/
  | linkDown (p : Nat)
  /-- MDIO_CMD (R345): A write of MDIO_CMD starts an MDIO transaction. -/
  | mdioCmd (p : Nat) (w : Word)
  /-- MDIO_DONE (R345): An MDIO transaction ends and MDIO_DATA holds the read value. -/
  | mdioDone (p : Nat) (data : Nat)
  /-- PTP_RX (R360): A PTP message reaches its instance and the servo, BMCA or delay measurement is updated. -/
  | ptpRx (ix : Nat) (msg : PtpMsg)
  /-- COASTING (R360): Four Sync intervals without a Sync make the servo COASTING. -/
  | coasting (ix : Nat)
  /-- ANN_TIMEOUT (R365): An instance reaches its announce timeout and the module switches domain or enters HOLDOVER. -/
  | annTimeout (ix : Nat)
  /-- FREERUN (R367): After 60 s of holdover the media clock state becomes FREERUN. -/
  | freerun
  /-- INSTANCE_LOCKED (R368): An instance reaches LOCKED in HOLDOVER or FREERUN and is selected at the next boundary. -/
  | instanceLocked (ix : Nat)
  /-- SLEW_DONE (R363): The held offset slews to zero. -/
  | slewDone
  /-- REALIGN (R364): A write of REALIGN steps device time and restarts the render with a new M0. -/
  | realign
  /-- TX_STAMP (R357): A host PTP event frame departs and its stamp enters the timestamp queue, or a loss is recorded. -/
  | txStamp (p : Nat) (sec : Nat) (ns : Nat) (frac : Nat)
  /-- ENTRY_W0_READ (R359): A read of ENTRY_W0 latches the head timestamp-queue entry. -/
  | entryW0Read (p : Nat)
  /-- ENTRY_W3_READ (R359): A read of ENTRY_W3 by the house seat removes the head entry, inserting any waiting LOST marker. -/
  | entryW3Read (seat : Nat) (p : Nat)
  /-- RUN (R381): RENDER.CTRL.RUN = 1 starts the render at a new M0 with a render reset. -/
  | run
  /-- RENDER_STOP (R381): RENDER.CTRL.RUN = 0 stops the render at the next boundary, withdrawing pending commits. -/
  | renderStop
  /-- RENDER_RESET (R380): CTRL.RESET performs a render reset at the next block boundary. -/
  | renderReset
  /-- TRACE_START (R383): TRACE_START allocates a trace ring and begins recording matching jobs. -/
  | traceStart (seat : Nat) (tag : Nat)
  /-- TRACE_STOP (R383): TRACE_STOP flushes the staging buffer and completes the trace. -/
  | traceStop (seat : Nat) (tag : Nat)
  /-- MATRIX_REQUEST (R385): A master's memory request is arbitrated at its target by priority, parking and hold rules. -/
  | matrixRequest (m : Nat) (t : Nat) (write : Bool) (unacked : Bool) (room : Bool) (waited : Nat)
  /-- AGED (R385): A request waits AGE_LIMIT target cycles and counts as priority 15. -/
  | aged (m : Nat) (t : Nat)
  /-- NOP (R407): NOP completes with OK. -/
  | nop (seat : Nat) (tag : Nat)
  /-- IDENTIFY (R407): IDENTIFY returns DEVICE words and optionally copies them out. -/
  | identify (seat : Nat) (tag : Nat)
  /-- SYNC (R407): SYNC retires once every earlier command of the seat has retired. -/
  | sync (seat : Nat) (tag : Nat)
  /-- SNAPSHOT (R447): SNAPSHOT freezes the module state at a boundary and copies it to a slot or buffer. -/
  | snapshot (seat : Nat) (tag : Nat)
  /-- RESTORE (R448): RESTORE fetches and checks an image and applies it at a boundary with a fade. -/
  | restore (seat : Nat) (tag : Nat)
  /-- OFFLINE_RENDER (R409): OFFLINE_RENDER renders objects through a snapshot configuration from buffer to buffer. -/
  | offlineRender (seat : Nat) (tag : Nat)
  /-- CUE_LOAD (R434): CUE_LOAD checks and writes cue program words into the seat's region. -/
  | cueLoad (seat : Nat) (tag : Nat) (data : List Byte)
  /-- OWNERSHIP_SET (R396): OWNERSHIP_SET assigns units to a seat and discards their staged values. -/
  | ownershipSet (seat : Nat) (tag : Nat)
  /-- KEY_SET (R420): KEY_SET installs a Stagedoor key for a seat, optionally in flash, ending its session. -/
  | keySet (seat : Nat) (tag : Nat)
  /-- KEY_CLEAR (R420): KEY_SET with CLEAR removes a seat's key. -/
  | keyClear (seat : Nat) (tag : Nat)
  /-- FW_UPDATE (R539): FW_UPDATE checks and writes a signed image into the idle flash slot and optionally activates it. -/
  | fwUpdate (seat : Nat) (tag : Nat)
  /-- OP_SUSPEND (R412): OP_SUSPEND suspends a long operation at once or at its next step boundary. -/
  | opSuspend (seat : Nat) (tag : Nat)
  /-- OP_RESUME (R412): OP_RESUME returns a suspended operation to running or queued. -/
  | opResume (seat : Nat) (tag : Nat)
  /-- OP_CANCEL (R412): OP_CANCEL ends a long operation at once or at its next step boundary. -/
  | opCancel (seat : Nat) (tag : Nat)
  /-- OP_QUERY_STATE (R413): OP_QUERY STATE returns a target's state, opcode and steps completed. -/
  | opQueryState (seat : Nat) (tag : Nat)
  /-- OP_QUERY_COPY (R413): OP_QUERY COPY copies bytes from a buffer to host memory. -/
  | opQueryCopy (seat : Nat) (tag : Nat)
  /-- OP_QUERY_RELEASE (R413): OP_QUERY RELEASE frees a buffer unless in use. -/
  | opQueryRelease (seat : Nat) (tag : Nat)
  /-- JOIN (R503): TWIN_CONTROL JOIN checks the peer and joins it as understudy. -/
  | join (seat : Nat) (tag : Nat)
  /-- DETACH (R505): TWIN_CONTROL DETACH ends the pairing at the next block boundary. -/
  | detach (seat : Nat) (tag : Nat)
  /-- HANDOVER (R504): TWIN_CONTROL HANDOVER schedules a role swap at a named boundary. -/
  | handover (seat : Nat) (tag : Nat)
  /-- TAKEOVER (R496): TWIN_CONTROL TAKEOVER forces the understudy to take over. -/
  | takeover (seat : Nat) (tag : Nat)
  /-- RESYNC (R502): TWIN_CONTROL RESYNC resynchronises a LOCKSTEP understudy. -/
  | resync (seat : Nat) (tag : Nat)
  /-- SQ_ENABLE (R398): Setting SQ or CQ EN checks SIZE and BASE and zeroes the ring pointers. -/
  | sqEnable (seat : Nat) (ix : Nat) (cq : Bool) (on : Bool)
  /-- SQ_TAIL (R399): An SQ TAIL doorbell write submits entries, or stops the queue when out of range. -/
  | sqTail (seat : Nat) (ix : Nat) (v : Nat)
  /-- CQ_HEAD (R402): A CQ HEAD doorbell write frees completion entries. -/
  | cqHead (seat : Nat) (ix : Nat) (v : Nat)
  /-- COMMAND_FETCH (R399): The module fetches a submission entry when a seat has fewer than 64 commands in flight and starts it. -/
  | commandFetch (entry : List Word) (fault : Bool)
  /-- COMPLETION_WRITE (R402): A completion is written to its CQ once there is room, or waits and sets CQ_STALL. -/
  | completionWrite (seat : Nat) (ix : Nat) (fault : Bool)
  /-- BIND (R395): A house-seat write of SEAT.BIND rebinds a seat and resets it. -/
  | bind (seat : Nat) (kind : Nat) (index : Nat)
  /-- SEAT_RESET (R416): A seat reset abandons commands, disables queues, releases buffers and resets the seat's vectors and Prompter. -/
  | seatReset (seat : Nat)
  /-- FUNCTION_LEVEL_RESET (R416): A function-level reset of a seat's PCIe function performs a seat reset. -/
  | functionLevelReset (link : Nat) (fn : Nat)
  /-- PCIE_LINK_DOWN (R414): A PCIe link's data link layer goes down or PERST_B asserts and host loss begins for its seats. -/
  | pcieLinkDown (link : Nat) (perst : Bool)
  /-- STAGEDOOR_SILENCE (R414): 3 s without an authenticated Stagedoor message begins host loss. -/
  | stagedoorSilence (seat : Nat)
  /-- GRACE_EXPIRE (R414): The 10 s grace period ends and the seat's suspended operations are cancelled. -/
  | graceExpire (seat : Nat)
  /-- PCIE_LINK_UP (R415): A PCIe link comes up, returning the host or performing a seat reset after PERST_B. -/
  | pcieLinkUp (link : Nat)
  /-- UPLOAD_TIMEOUT (R405): An UPLOAD source receives no byte for 10 s and the command completes with TIMEOUT. -/
  | uploadTimeout (seat : Nat) (tag : Nat)
  /-- STAGEDOOR_READ (R424): An authenticated READ message reads registers, upload or buffer space and is answered. -/
  | stagedoorRead (p : Nat) (ip : Nat) (udp : Nat) (msg : List Byte)
  /-- STAGEDOOR_WRITE (R424): An authenticated WRITE message writes registers or upload space and is answered. -/
  | stagedoorWrite (p : Nat) (ip : Nat) (udp : Nat) (msg : List Byte)
  /-- STAGEDOOR_SUBMIT (R424): An authenticated SUBMIT message places entries into an SQ. -/
  | stagedoorSubmit (p : Nat) (ip : Nat) (udp : Nat) (msg : List Byte)
  /-- KEEPALIVE (R421): An authenticated KEEPALIVE is acknowledged, and a hello begins a session. -/
  | keepalive (p : Nat) (ip : Nat) (udp : Nat) (msg : List Byte)
  /-- STAGEDOOR_RESEND (R423): Every 50 ms unacknowledged COMPLETE and EVENT messages are resent. -/
  | stagedoorResend (seat : Nat)
  /-- KEEPALIVE_SEND (R423): Every 500 ms the module sends a KEEPALIVE. -/
  | keepaliveSend (seat : Nat)
  /-- PROMPTER_RUN (R426): Once per block a Prompter executes instructions until a wait, HALT, fault or 64 instructions. -/
  | prompterRun (n : Nat)
  /-- CUE_HALT (R431): Prompter HALT halts, and with NOTIFY signals code 0xFF. -/
  | cueHalt (n : Nat)
  /-- WAIT_TIME (R429): WAIT_TIME waits until the target sample of a device time is below the horizon and sets the mark. -/
  | waitTime (n : Nat)
  /-- WAIT_RSI (R429): WAIT_RSI waits for an absolute or relative render sample index and sets the mark. -/
  | waitRsi (n : Nat)
  /-- WAIT_TC (R429): WAIT_TC waits for a timecode label's predicted frame start. -/
  | waitTc (n : Nat)
  /-- WAIT_GPIO (R429): WAIT_GPIO waits for a debounced edge of a pin and marks its stamp. -/
  | waitGpio (n : Nat)
  /-- WAIT_FLAG (R429): WAIT_FLAG waits for a cue flag and optionally clears it. -/
  | waitFlag (n : Nat)
  /-- STROBE (R430): Prompter STROBE commits named groups with its own apply sample. -/
  | strobe (n : Nat)
  /-- CUE_WRITE (R431): Prompter WRITE stores a value or masked bits into the seat's register window. -/
  | cueWrite (n : Nat)
  /-- CUE_MOTION_SET (R431): Prompter MOTION SET sets motion flags of a run of owned objects. -/
  | cueMotionSet (n : Nat)
  /-- CUE_MOTION_CLEAR (R431): Prompter MOTION CLEAR clears motion flags of a run of owned objects. -/
  | cueMotionClear (n : Nat)
  /-- SIGNAL_HOST (R431): SIGNAL HOST sets event SIGNAL with a code and records the mark. -/
  | signalHost (n : Nat)
  /-- SIGNAL_FLAG (R431): SIGNAL FLAG sets a cue flag of a Prompter that accepts this seat. -/
  | signalFlag (n : Nat)
  /-- BRANCH_IF (R432): BRANCH_IF branches on a flag, pin, strobe result or clock condition, waiting while a strobe is unresolved. -/
  | branchIf (n : Nat)
  /-- CUE_JUMP (R428): Prompter JUMP continues at an offset. -/
  | cueJump (n : Nat)
  /-- CALL (R432): CALL pushes the next address on the call stack. -/
  | call (n : Nat)
  /-- RET (R432): RET pops the call stack. -/
  | ret (n : Nat)
  /-- CUE_LOOP (R432): LOOP begin pushes a count and address on the loop stack. -/
  | cueLoop (n : Nat)
  /-- CUE_LOOP_END (R432): LOOP END counts the top entry down and returns or pops. -/
  | cueLoopEnd (n : Nat)
  /-- PROMPTER_START (R435): CTRL.START starts the Prompter at ENTRY at the next block boundary. -/
  | prompterStart (n : Nat)
  /-- PROMPTER_STOP (R435): CTRL.STOP sets the Prompter IDLE at the next boundary. -/
  | prompterStop (n : Nat)
  /-- CUE_FLAGS_SET (R429): A write of FLAGS_SET sets cue flags. -/
  | cueFlagsSet (n : Nat) (bits : Nat)
  /-- CUE_FLAGS_CLR (R429): A write of FLAGS_CLR clears cue flags. -/
  | cueFlagsClr (n : Nat) (bits : Nat)
  /-- GPIO_CHANGE (R436): A GPIO input changes level and its debounce starts. -/
  | gpioChange (k : Nat) (level : Bool)
  /-- DEBOUNCED_EDGE (R436): A GPIO level change has lasted DEBOUNCE and is recorded as an edge stamped at its start. -/
  | debouncedEdge (k : Nat)
  /-- TC_WORD (R437): A timecode word is received and stamped, updating lock, prediction and jumps. -/
  | tcWord (label : Nat) (stamp : Nat) (rate : Nat) (reverse : Bool) (user : Nat)
  /-- TC_LOSS (R437): Two missing or invalid timecode words lose LOCKED. -/
  | tcLoss
  /-- SOURCE_CHANGE (R450): A source level change reaches the Callboard and updates pending vectors and the watch list. -/
  | sourceChange (src : Nat)
  /-- HOLDOFF_EXPIRE (R453): A vector's HOLDOFF time passes since its first arrival and the vector becomes ready. -/
  | holdoffExpire (seat : Nat) (v : Nat)
  /-- DELIVERY (R455): A ready vector drives its pin or sends a doorbell and enters service. -/
  | delivery (seat : Nat) (v : Nat)
  /-- EOI (R456): A write of EOI ends service or resends a still-pending source. -/
  | eoi (seat : Nat) (src : Nat)
  /-- GATE (R459): A write of CFG.GATE stops or resumes delivery, delivering ready vectors on return. -/
  | gate (seat : Nat) (on : Bool)
  /-- SLEEP_REQ (R462): A write of SLEEP_REQ = 1 stops fetching and begins the sleep handshake. -/
  | sleepReq (seat : Nat)
  /-- SLEEP_ACK (R462): Issued writes have drained, pending vectors are delivered and SLEEP_ACK is set. -/
  | sleepAck (seat : Nat) (expired : Bool)
  /-- SLEEP_END (R464): A write of SLEEP_REQ = 0 clears SLEEP_ACK, releases wake paths and writes held completions. -/
  | sleepEnd (seat : Nat)
  /-- CLK_FAIL (R466): Four RC periods without a crystal edge switch the greenroom to RC. -/
  | clkFail
  /-- SAR_CONVERSION (R468): The greenroom SAR converts a channel every 64 greenroom periods. -/
  | sarConversion (c : Nat) (code : Nat)
  /-- INSERT (R469): A jack's detect level past threshold for DEBOUNCE.INSERT sets INSERTED and may turn bias on. -/
  | insert (j : Nat)
  /-- ACCESSORY (R469): 50 ms after insertion the mic level is averaged and the accessory classified or remeasured. -/
  | accessory (j : Nat)
  /-- REMOVE (R469): The detect level returns for 20 ms and the jack is removed. -/
  | remove (j : Nat)
  /-- PRESS (R470): A headset mic level in a button band for DEBOUNCE.BUTTON sets BUTTON. -/
  | press (j : Nat)
  /-- BUTTON_RELEASE (R470): A return to the headset band for DEBOUNCE.BUTTON clears BUTTON. -/
  | buttonRelease (j : Nat)
  /-- BMC_WRITE (R473): A BMC I2C write transaction writes a permitted greenroom field or is NACKed. -/
  | bmcWrite (off : Nat) (words : List Word)
  /-- BMC_READ (R473): A BMC I2C read transaction returns greenroom or jack words without clearing. -/
  | bmcRead (off : Nat) (n : Nat)
  /-- WAKE_PULSE (R471): A write of WAKE.PULSE drives WAKE_B low for 1 ms. -/
  | wakePulse
  /-- PWR_TARGET_STANDBY (R475): PWR.TARGET = STANDBY is refused or begins STANDBY entry. -/
  | pwrTargetStandby
  /-- PWR_TARGET_DORMANT (R474): PWR.TARGET = DORMANT is refused or powers down all but the greenroom. -/
  | pwrTargetDormant
  /-- PWR_TARGET_ACTIVE (R476): A write of PWR.TARGET = ACTIVE from low power wakes the module. -/
  | pwrTargetActive
  /-- WAKE_IN (R476): WAKE_B held low from outside for 1 ms wakes the module. -/
  | wakeIn (low : Bool)
  /-- MODULE_WAKE (R476): A module wake relocks, restores state and reaches QUIET, or boots from DORMANT. -/
  | moduleWake (cause : Nat)
  /-- GREENROOM_GPIO_EDGE (R467): A GPIO edge sensed by the greenroom after GPIO_DEBOUNCE sets GPIO_EDGE. -/
  | greenroomGpioEdge (k : Nat)
  /-- MODE (R478): A write of TWIN.CFG.MODE leaving OFF sets the first role from TWINID. -/
  | mode (mode : Nat)
  /-- CLAIM_CYCLE (R480): A claim cycle on CLAIM_B arbitrates claims and serials, opening or closing egress. -/
  | claimCycle (claim : Nat) (serial : Nat)
  /-- CLAIM_SEEN_TIMEOUT (R480): No claim cycle completes for 100 µs and CLAIM.SEEN reads 0. -/
  | claimSeenTimeout
  /-- PEERPRES_CHANGE (R483): PEERPRES_B changes level, enabling Ndodom training or ungating egress. -/
  | peerpresChange (low : Bool)
  /-- NDODOM_UP (R484): The Ndodom link completes training. -/
  | ndodomUp (lanes : Nat) (latency : Nat)
  /-- NDODOM_DOWN (R484): Ndodom has no valid frame for 2 µs and is declared down. -/
  | ndodomDown
  /-- LANE_LOST (R484): One Ndodom lane fails and the link continues on the other. -/
  | laneLost (lane : Nat)
  /-- NDODOM_FRAME (R485): An Ndodom frame arrives carrying heartbeat, repair, departure reports, forwarded configuration or bulk data. -/
  | ndodomFrame (f : PeerFrame)
  /-- HEARTBEAT_SEND (R486): At each device-time block boundary each unit sends Ndodom and network heartbeats. -/
  | heartbeatSend
  /-- HEARTBEAT_CHECK (R486): 2 µs after each boundary a unit checks for the peer's heartbeat, declaring loss on the third miss. -/
  | heartbeatCheck
  /-- NET_HB_RX (R486): A network heartbeat frame of the pair is received. -/
  | netHbRx (pair : Nat) (serial : Nat)
  /-- NET_HB_LOST (R486): Three blocks without a network heartbeat declare network heartbeat loss. -/
  | netHbLost
  /-- AUTO_TAKEOVER (R496): All takeover conditions hold and the understudy enters TAKING and raises its claim. -/
  | autoTakeover
  /-- EGRESS_OPEN (R497): A taking unit's claim wins and egress opens, resending retained stream packets. -/
  | egressOpen
  /-- COLD_TAKEOVER_RESTORE (R500): A takeover from a COLD state restores the newest snapshot and restarts the render. -/
  | coldTakeoverRestore
  /-- HOLDINGS (R490): At t0 + 1 block + 10 µs each unit sends its input holdings and repairs are shipped. -/
  | holdings (b : Nat)
  /-- DEPARTURE_REPORT (R495): Every 10 µs the principal reports each stream's last departed packet. -/
  | departureReport
  /-- OUTPUT_CRC_COMPARE (R494): The peer's output CRC of a block is compared and divergence starts RESYNC. -/
  | outputCrcCompare (b : Nat)
  /-- SNAP_PERIOD (R487): In COLD the principal ships a snapshot every SNAP_PERIOD and after commits. -/
  | snapPeriod
  /-- REPLAY_CAUGHT_UP (R503): A replaying understudy catches up with the principal and enters VERIFY. -/
  | replayCaughtUp
  /-- JOINED (R503): VERIFY_BLOCKS matching CRCs complete and the pair enters LOCK_UND and LOCK_PRI. -/
  | joined
  /-- HANDOVER_BOUNDARY (R504): At the handover boundary egress moves to the former understudy and claims swap. -/
  | handoverBoundary
  /-- REFRESH (R510): Every tREFI an all-bank refresh stalls DRAM on both channels. -/
  | refresh
  /-- ZQ_LATCH (R511): Every 64 ms the ZQ latch is issued within a refresh stall. -/
  | zqLatch (ch : Nat)
  /-- WCK_MEASURE (R511): Every 16 ms the WCK-to-DQ interval is measured within a refresh stall and delays adjusted. -/
  | wckMeasure (ch : Nat) (drift : Int)
  /-- ROW_ACTIVATE (R512): A DRAM row activate may refresh neighbouring rows by a random draw. -/
  | rowActivate
  /-- PATROL_SCRUB (R516): The patrol scrubber reads and corrects DRAM words. -/
  | patrolScrub (addr : Nat) (err : Nat) (region : Nat) (unit : Nat) (pass : Bool)
  /-- SRAM_SCRUB (R519): The SRAM scrubber reads words, correcting or handling uncorrected errors. -/
  | sramScrub (part : Nat) (err : Nat) (unit : Nat)
  /-- TEMP_SAMPLE (R521): Every 100 µs the sensors are sampled and warning, throttle, critical or refresh thresholds act. -/
  | tempSample (temps : List Int)
  /-- THRESHOLD_CLEAR (R521): The hottest temperature has stayed below a clear level for 1 s and the action clears. -/
  | thresholdClear (level : Nat)
  /-- THERMAL_TRIP (R523): A sensor comparator reaches 125 °C and THERMTRIP_B asserts, stopping gates and PLLs. -/
  | thermalTrip
  /-- VMON_SAMPLE (R524): Every 1 ms each rail is sampled and windows are checked. -/
  | vmonSample (mv : List Nat)
  /-- RO_SAMPLE (R525): Every 1 ms the ring oscillators are counted and VDD_CORE may step up. -/
  | roSample (counts : List Nat)
  /-- AVS_RECOMPUTE (R525): Every 10 ms the adaptive VDD_CORE target is recomputed. -/
  | avsRecompute (want : Nat)
  /-- PMBUS_REQUEST_DONE (R526): A PMBus VOUT request completes, is retried or sets AVS_FAIL. -/
  | pmbusRequestDone (ok : Bool)
  /-- AVS (R527): A write of the AVS register requests a new voltage setting and clears AVS_HOLD. -/
  | avs (data : Word)
  /-- POWER_ON_RESET (R529): PWRON_B low resets everything but the greenroom; its rise latches straps and starts the boot. -/
  | powerOnReset (bootsel : Nat) (twinid : Bool)
  /-- RESET_B_LOW (R529): RESET_B held low for 1 µs causes a warm reset. -/
  | resetBLow
  /-- WARM (R541): A write of RESET.CTRL.WARM causes a warm reset keeping DRAM. -/
  | warm
  /-- WATCHDOG_EXPIRE (R529): The firmware watchdog is not served for 1 s and a warm reset follows. -/
  | watchdogExpire
  /-- COMMIT_ROLLBACK (R536): A write of COMMIT_ROLLBACK raises the fused rollback count to the running image's. -/
  | commitRollback
  /-- PUSH_GO (R538): A write of PUSH.GO makes the boot ROM check a pushed image and boot it. -/
  | pushGo
  /-- TRAINING_DONE (R513): DRAM training ends, or fails and stops the boot. -/
  | trainingDone (ok : Bool) (full : Bool)
  /-- IMAGE_CHECK (R537): The boot ROM checks image slots and boots one, falls back or stops. -/
  | imageCheck
  /-- FIRMWARE_UP (R540): The firmware has started, bound seats and set BOOTED. -/
  | firmwareUp (ms : Nat) (good : Bool)
  /-- DEFCFG_WRITE (R543): A default-configuration WRITE record writes a register as SEAT 0. -/
  | defcfgWrite
  /-- DEFCFG_STROBE (R543): A default-configuration STROBE record commits groups and waits for the result. -/
  | defcfgStrobe
  /-- DEFCFG_COMMAND (R543): A default-configuration COMMAND record runs a load or select command from flash. -/
  | defcfgCommand
  /-- WAIT_LOCK (R543): A WAIT_LOCK record waits for media clock lock or its timeout. -/
  | waitLock (expired : Bool)
  /-- DEFCFG_END (R543): An END record completes the replay and sets DEFCFG_DONE. -/
  | defcfgEnd
  /-- REFCLK_LOSS (R559): REFCLK stops for more than 1 µs and gates and egress pins go low until power-on reset. -/
  | refclkLoss
  /-- LANE_BACK (R507): A failed Ndodom lane returns, the link resumes on both lanes and event LANE_BACK is set. -/
  | laneBack
  /-- CRYSTAL_OSCILLATES (R466): The greenroom crystal starts to oscillate and the greenroom moves from its RC oscillator to the crystal. -/
  | crystalOscillates
  /-- STANDBY_ENTERED (R475): STANDBY entry completes: the links and cores have powered down, DRAM is in self-refresh and PWR.STATE reads STANDBY. -/
  | standbyEntered
  /-- JOIN_TIMEOUT (R502): No peer in WAIT is seen within 1 s of a JOIN, and the command completes with TIMEOUT. -/
  | joinTimeout
  /-- PTP_MESSAGE_SEND (R351): At the end of its LOG_SYNC, LOG_ANNOUNCE or delay-request interval, a PTP instance sends its Sync, Announce, Delay_Req or Pdelay_Req, stamped through its one-step channel or its internal capture. -/
  | ptpMessageSend (ix : Nat) (kind : Nat)
  deriving DecidableEq, Repr

end Sys2Proof
end

