-- ==== Sys2Proof/Decode.lean ====
section
/-! DEFINITION. The words of the opcode table. The table of this block gives no row any bits: a command is named,
not encoded. -/

namespace Sys2Proof

/-- The command that a word spells: no row has bits, so no word spells one. -/
def decodeTableWord (_nbits _w : Nat) : Option Instr := none

end Sys2Proof
end

