-- ==== Sys2Proof/Config.lean ====
section
/-! DEFINITION. What the spec leaves open: constants without a body, so that nothing can be proved
of their values. Each is named in the assumption log. -/

namespace Sys2Proof.Config

/-- The n-th value the spec leaves open in a run (entry 2 of the log). -/
opaque free : Nat → Nat

/-- The last bit of a quotient whose rounding the spec does not state. -/
opaque roundUp : Int → Int → Bool

/-- R273: the interpolated sample at half-period `h` of a render sample, from f_s and the samples at the
interpolator input, newest first; units of 2^-31. -/
opaque interpolator : Nat → List Int → Nat → Int

/-- R276: the modulation index at a supply of 0 V, from the sample and V_FS; used only within the limits. -/
opaque zeroSupply : Int → Int → Int

/-- R297: one output sample of an ASRC, from the ratio (Q8.24), its render sample and the phase of its frame in 1/256
frame, and the input history, newest first. -/
opaque asrc : Nat → Nat → Nat → List Int → Int

/-- R307: coefficients (Q2.30) of de-emphasis biquad j at f_s. -/
opaque deemphasis : Nat → Nat → List Int

/-- R360: how far the servo of an unselected instance moves its time against device time at a Sync, from
the instance and its offset from the master; 2^-16 ns. -/
opaque servoStep : Nat → Int → Int

/-- R339: hiCredit and loCredit in bits, from MTU, idle slope and port rate in kbit/s. -/
opaque creditBounds : Nat → Nat → Nat → Nat × Int

/-- R209: the error of the stage's block arithmetic at a sample, in units of 2^-31, from the output, the taps and the
input before the 64-sample group that holds it, newest first; used only within the stated bound. -/
opaque convolutionError : Nat → List Int → (Nat → Int) → Nat → Int

/-- R227: the CRC of a bank's spectra, from its taps. -/
opaque spectraCrc : List Int → Word

/-- R246: PINK at sample n, Q1.31, from LEVEL, SEED and n. -/
opaque pink : Nat → Nat → Nat → Int

/-- R246: which of the two readings of an MLS polynomial the register takes. -/
opaque mlsReciprocal : Bool

/-- R232: the coefficients of the capture chains, in units of 2^-31: the linear-phase set by stage (2 to 4) and distance
from the centre tap; the minimum-phase set by stage and tap. -/
opaque linearTap : Nat → Nat → Int
opaque minimumTap : Nat → Nat → Int

/-- R232: fraction bits that the stages of a chain carry beyond those of a sample. -/
opaque chainGuard : Nat

/-- R229, R240: one period of an auxiliary chain's modulator: its bit and its two integrators, from the integrators and
the level of its input. -/
opaque modulator : Int → Int → Int → Bool × Int × Int

/-- R252: the shape of the taper over one sixth of an octave: the gain in 2^-96 at a place in it, 0 to 2^96. -/
opaque taper : Int → Int

/-- R252: the response in a bin, by its number, in which the excitation has no energy: the two parts in 2^-96. -/
opaque emptyBin : Nat → Int × Int

/-- R253: the EXP of a record, from the samples of its response in 2^-96. -/
opaque irExp : List Int → Int

/-- R253: the SNR field of a record whose samples are all zero, where the ratio is 0 / 0. -/
opaque silentSnr : List Nat → Nat

/-- R257: whether the Hann window of a frame ends on its zero. -/
opaque hannSymmetric : Bool

/-- R257: γ² in 2^-96 in a bin, by its number, in which the chain has no energy and the reference has, where the ratio
is 0 / 0. -/
opaque silentCoherence : Nat → Int

/-- R447: byte k of the snapshot image with an id. -/
opaque imageByte : Nat → Nat → Byte

/-- R570: what the instruction register (true) and the data register of an instruction other than IDCODE capture, the bit
next to leave first; and whether the bits in the instruction register select IDCODE. -/
opaque tapCapture : Bool → List Bool
opaque tapSelectsIdcode : List Bool → Bool

/-- R77: this module's serial number (64 bits) and its raw fuse word. -/
opaque serial : Nat
opaque fuseMap : Nat

/-- R535: the fused hash of the Muiraco key, as a number. -/
opaque keyHash : Nat

/-- R525: the fused target count of the process monitors. -/
opaque roTarget : Nat

end Sys2Proof.Config
end

