-- ==== Sys2Proof/Machine/Arith.lean ====
section
/-! DEFINITION. Arithmetic the chapters share: rounding, saturation, fields of words, checksums. -/

namespace Sys2Proof

/-- Round `a / b` to nearest with ties rounded up (R87, R155), for b > 0. -/
def roundDiv (a b : Int) : Int := (2 * a + b).fdiv (2 * b)

/-- Drop `k` fraction bits, to nearest with ties rounded up. -/
def roundShift (a : Int) (k : Nat) : Int := (a + 2 ^ (k - 1)).fdiv (2 ^ k)

/-- Clamp into [lo, hi]. -/
def clampInt (lo hi a : Int) : Int := if a < lo then lo else if hi < a then hi else a

/-- Saturate to Q1.31. -/
def satQ31 (a : Int) : Int := clampInt (-(2 ^ 31)) (2 ^ 31 - 1) a

/-- Saturate to Q17.31: 65,536 full scale (R168). -/
def satQ17 (a : Int) : Int := clampInt (-(2 ^ 47)) (2 ^ 47 - 1) a

/-- A word read as a signed number of `n` bits. -/
def signed (n : Nat) (v : Nat) : Int := if v < 2 ^ (n - 1) then v else (v : Int) - 2 ^ n

/-- A signed number as a word of `n` bits. -/
def unsigned (n : Nat) (v : Int) : Nat := (v % (2 ^ n : Int)).toNat

/-- A value the spec fixes up to its last bit: exact when the quotient is exact, otherwise one of
the two neighbours, which one being left open (entry 7 of the log). -/
def roundOpen (a b : Int) : Int :=
  if a % b = 0 then a / b else a.fdiv b + (if Config.roundUp a b then 1 else 0)

/-- Absolute value as a number. -/
def absNat (a : Int) : Nat := a.natAbs

/-- One bit of a number. -/
def bitOf (v i : Nat) : Bool := v.testBit i

/-- Bits [msb:lsb] of a word. -/
def bitsOf (w : Word) (msb lsb : Nat) : Nat := (w.toNat >>> lsb) % 2 ^ (msb - lsb + 1)

/-- Little-endian word from four bytes. -/
def word32 (b : List Byte) : Word :=
  match b with
  | b0 :: b1 :: b2 :: b3 :: _ => b3 ++ b2 ++ b1 ++ b0
  | _ => 0

/-- The bytes of a word, lowest address first. -/
def bytesOf (w : Word) : List Byte :=
  [w.extractLsb' 0 8, w.extractLsb' 8 8, w.extractLsb' 16 8, w.extractLsb' 24 8]

/-- Little-endian number of `n` bytes at offset `off`; bytes past the end read 0. -/
def leAt (f : List Byte) (off n : Nat) : Nat :=
  ((f.drop off).take n).foldr (fun b acc => b.toNat + 256 * acc) 0

/-- Big-endian number of `n` bytes at offset `off`. -/
def beAt (f : List Byte) (off n : Nat) : Nat :=
  ((f.drop off).take n).foldl (fun acc b => 256 * acc + b.toNat) 0

/-- One bit step of the reflected CRC-32 of IEEE 802.3. -/
def crcStep (c : BitVec 32) : BitVec 32 :=
  if c.getLsbD 0 then (c >>> 1) ^^^ 0xEDB88320#32 else c >>> 1

/-- CRC-32 (IEEE 802.3 polynomial) of a byte string. -/
def crc32 (f : List Byte) : Word :=
  ~~~(f.foldl (fun c b =>
    crcStep (crcStep (crcStep (crcStep (crcStep (crcStep (crcStep (crcStep
      (c ^^^ (b.zeroExtend 32)))))))))) 0xFFFFFFFF#32)

/-- CRC-32 of a file with the 4-byte field at `off` taken as 0. -/
def crcWithout (f : List Byte) (off : Nat) : Word :=
  crc32 (f.take off ++ List.replicate (min 4 (f.length - off)) 0#8 ++ f.drop (off + 4))

/-- The 32-bit Galois register of R109. -/
def galois32 (s : Word) : Word :=
  if s.getLsbD 0 then (s >>> 1) ^^^ 0x80200003#32 else s >>> 1

/-- Repeat a step n times. -/
def iter {α : Type} (f : α → α) : Nat → α → α
  | 0, a => a
  | n + 1, a => iter f n (f a)

/-- Is v in one of the ranges (no ranges: any value)? -/
def inRanges (v : Nat) (l : List (Nat × Nat)) : Bool :=
  l.isEmpty || l.any (fun r => r.1 ≤ v && v ≤ r.2)

end Sys2Proof
end

