-- ==== Sys2Proof/Machine/Formulas.lean ====
section
/-! DEFINITION. The formulas of the spec that name roots, powers, logarithms and angles: evaluated in fixed point
with 96 fraction bits, far finer than any result, and then rounded. The spec gives the formulas and not the last
bit of a result, which is left open (log entry 7). -/

namespace Sys2Proof.Machine

open Sys2Proof

/-! Elementary functions; a number x stands for x / 2^96 -/

def fxOne : Int := 2 ^ 96
def fxPi : Int := 248902613312231085230521944622
def fxLn2 : Int := 54916777467707473351141471128
def fxLn10 : Int := 182429585950654714090129938606

def fxMul (a b : Int) : Int := (a * b).fdiv fxOne

/-- The quotient of two whole numbers, or of two fixed-point numbers. -/
def fxDiv (a b : Int) : Int := (a * fxOne).fdiv b

/-- Integer square root, bit by bit from the top. -/
def isqrt (n : Nat) : Nat :=
  let top := n.log2 / 2
  (List.range (top + 1)).foldl (fun r k =>
    let t := r + 2 ^ (top - k)
    if t * t ≤ n then t else r) 0

def fxSqrt (x : Int) : Int := isqrt (x.toNat * 2 ^ 96)

/-- The root of a whole number. -/
def fxRoot (n : Int) : Int := isqrt (n.toNat * 2 ^ 192)

/-- exp, by halving the argument into the range of the series. -/
def fxExp (x : Int) : Int :=
  let k := x.fdiv fxLn2
  let r := x - k * fxLn2
  let e := (List.range 40).foldr (fun j acc => fxOne + (fxMul r acc).fdiv (j + 1)) fxOne
  if 0 ≤ k then e * 2 ^ k.toNat else e.fdiv (2 ^ (-k).toNat)

/-- The natural logarithm of a positive number. -/
def fxLn (x : Int) : Int :=
  let k : Int := (x.toNat.log2 : Int) - 96
  let m := if 0 ≤ k then x.fdiv (2 ^ k.toNat) else x * 2 ^ (-k).toNat
  let z := fxDiv (m - fxOne) (m + fxOne)
  let z2 := fxMul z z
  let s := (List.range 40).foldr (fun j acc => fxOne.fdiv (2 * j + 1) + fxMul z2 acc) 0
  2 * fxMul z s + k * fxLn2

/-- num / den of a full turn, in radians. -/
def fxTurn (num den : Int) : Int := (2 * fxPi * (num % den)).fdiv den

def fxSin (x : Int) : Int :=
  let x2 := fxMul x x
  fxMul x ((List.range 45).foldr (fun j acc => fxOne - (fxMul x2 acc).fdiv ((2 * j + 2) * (2 * j + 3))) fxOne)

def fxCos (x : Int) : Int :=
  let x2 := fxMul x x
  (List.range 45).foldr (fun j acc => fxOne - (fxMul x2 acc).fdiv ((2 * j + 1) * (2 * j + 2))) fxOne

/-- The arc tangent of y / x for x, y ≥ 0, not both 0: the angle is halved twice, then the series is summed. -/
def fxAtan (y x : Int) : Int :=
  let half := fun (t : Int) => fxDiv t (fxOne + fxSqrt (fxOne + fxMul t t))
  let r := fxSqrt (fxMul x x + fxMul y y)
  let t := half (half (fxDiv y (r + x)))
  let t2 := fxMul t t
  8 * fxMul t ((List.range 45).foldr (fun j acc => fxOne.fdiv (2 * j + 1) - fxMul t2 acc) 0)

/-- The angle, 0 to π, whose sine and cosine are in the ratio y : x, for y ≥ 0. -/
def fxAngle (y x : Int) : Int :=
  if y = 0 ∧ x = 0 then 0 else if 0 ≤ x then fxAtan y x else fxPi - fxAtan y (-x)

/-! Rounding a result -/

/-- A result in units of 2^-k: the whole number it meets within the evaluation's own error, otherwise one of its two
neighbours, which one being open. -/
def fxTo (k : Nat) (x : Int) : Int :=
  let y := x * 2 ^ k
  let q := roundDiv y fxOne
  if absNat (y - q * fxOne) < 2 ^ 48 then q else roundOpen y fxOne

/-- A result rounded to the nearest whole number, where the spec says so; at an exact tie the side is open. -/
def fxNearest (x : Int) : Int :=
  let h := roundDiv (2 * x) fxOne
  if absNat (2 * x - h * fxOne) < 2 ^ 48 then roundOpen h 2 else roundDiv x fxOne

/-! Vectors -/

def V3.dot (a b : V3) : Int := a.x * b.x + a.y * b.y + a.z * b.z

def V3.cross (a b : V3) : V3 :=
  ⟨a.y * b.z - a.z * b.y, a.z * b.x - a.x * b.z, a.x * b.y - a.y * b.x⟩

/-- The determinant of three vectors. -/
def V3.det (a b c : V3) : Int := a.dot (b.cross c)

/-- A vector of length 1, its components in fixed point. -/
def V3.unit (a : V3) : V3 :=
  let r := fxRoot (a.dot a)
  ⟨fxDiv (a.x * fxOne) r, fxDiv (a.y * fxOne) r, fxDiv (a.z * fxOne) r⟩

/-- The angle between two vectors of any length, in radians. -/
def V3.angle (a b : V3) : Int :=
  let c := a.cross b
  fxAngle (fxRoot (c.dot c)) (a.dot b * fxOne)

/-- The unit vector of an azimuth and an elevation in 2^-16 degree (R94). -/
def fxDirection (az el : Int) : V3 :=
  let t := fun (a : Int) => fxTurn a (360 * 65536)
  ⟨fxMul (fxCos (t el)) (fxSin (t az)), fxMul (fxCos (t el)) (fxCos (t az)), fxSin (t el)⟩

/-- Do two directions lie within 0.1 degree of each other (R126, R197)? -/
def V3.near (a b : V3) : Bool := 1800 * a.angle b ≤ fxPi

/-- R106: the plane vector (d1, d2) turned by num / den degrees. -/
def rotateBy (d1 d2 num den : Int) : Int × Int :=
  let a := fxTurn num (360 * den)
  (fxTo 0 (d1 * fxCos a - d2 * fxSin a), fxTo 0 (d1 * fxSin a + d2 * fxCos a))

/-- R94: the Cartesian point of (r, az, el), each rounded to nearest. -/
def spherical (r az el : Int) : V3 :=
  let d := fxDirection az el
  ⟨fxNearest (r * d.x), fxNearest (r * d.y), fxNearest (r * d.z)⟩

/-- The solid angle of a triangle seen from the origin, for vertices counter-clockwise from outside. -/
def solidAngle (a b c : V3) : Int :=
  let a := a.unit
  let b := b.unit
  let c := c.unit
  let f := fun (u v : V3) => (u.dot v).fdiv fxOne
  2 * fxAngle (max 0 ((a.det b c).fdiv (fxOne * fxOne))) (fxOne + f a b + f b c + f c a)

/-- R126: do the solid angles of the triangles sum to 4 π within 0.1 %? -/
def solidAnglesClose (l : List (V3 × V3 × V3)) : Bool :=
  1000 * absNat ((l.map (fun t => solidAngle t.1 t.2.1 t.2.2)).sum - 4 * fxPi) ≤ 4 * fxPi

/-- R140: the components of direction `d` in the vertices of a triangle, Q4.28. -/
def triangleSolve (a b c d : V3) : List Int :=
  let D := a.det b c
  let len := fxRoot (d.dot d)
  let g := fun (u : V3) (n : Int) => fxTo 28 (fxDiv (fxMul (fxRoot (u.dot u)) (fxDiv n D)) len)
  [g a (d.det b c), g b (a.det d c), g c (a.det b d)]

/-- R140: direction m of the ring of six about a direction, for an effective spread in Q8.8 degrees. -/
def ringDirection (d : V3) (spread m : Nat) : V3 :=
  let d := d.unit
  let e1 : V3 := if d.x = 0 ∧ d.y = 0 then ⟨fxOne, 0, 0⟩ else V3.unit ⟨-d.y, d.x, 0⟩
  let e2 := d.cross e1
  let h := fxTurn spread (2 * 360 * 256)
  let u := fxTurn m 6
  let f := fun (a b c : Int) =>
    fxMul (fxCos h) a + fxMul (fxSin h) (fxMul (fxCos u) b + fxMul (fxSin u) (c.fdiv fxOne))
  ⟨f d.x e1.x e2.x, f d.y e1.y e2.y, f d.z e1.z e2.z⟩

/-- R140: 180 × (1 - |P| / INNER_RADIUS), Q8.8 degrees. -/
def innerSpread (p : V3) (radius : Nat) : Nat :=
  (fxTo 8 (180 * (fxOne - (fxRoot (p.dot p)).fdiv radius))).toNat

/-- R138 stage 3: gain g of a list normalised, Q4.28. -/
def normalised (amplitude : Bool) (gs : List Nat) (g : Nat) : Nat :=
  (if amplitude then fxTo 28 (fxDiv g gs.sum)
   else fxTo 28 (fxDiv (g * fxOne) (fxRoot (((gs.map (fun x => x * x)).sum : Nat) : Int)))).toNat

/-- (a / r)^(alpha / 2) for alpha 0, 1 or 2, with r given in fixed point (R141). -/
def distancePower (alpha a : Nat) (r : Int) : Int :=
  let q := fxDiv (a * fxOne) r
  if alpha = 0 then fxOne else if alpha = 1 then fxSqrt q else q

/-- R141: the distance factor D, Q4.28. -/
def distanceFactor (alpha rRef : Nat) (p : V3) : Nat :=
  (fxTo 28 (min fxOne (distancePower alpha rRef (fxRoot (p.dot p))))).toNat

/-- R141: the unit gain of a focus member, Q4.28, from v (Q4.28) and L - P. -/
def focusGain (v alpha rRef rMin : Nat) (d : V3) : Nat :=
  (fxTo 0 (v * distancePower alpha rRef (max (fxRoot (d.dot d)) (rMin * fxOne)))).toNat

/-- The angle between two vectors in 2^-48 degree (R138, R141). -/
def angleBetween (a b : V3) : Nat := (roundDiv (180 * 2 ^ 48 * a.angle b) fxPi).toNat

/-- R166: the renormalisation factor of a starved set, Q4.28, before its limit. -/
def starveFactor (amplitude : Bool) (wanted kept : List Nat) : Nat :=
  let sq := fun (l : List Nat) => (((l.map (fun x => x * x)).sum : Nat) : Int)
  (if amplitude then fxTo 28 (fxDiv wanted.sum kept.sum)
   else fxTo 28 (fxSqrt (fxDiv (sq wanted) (sq kept)))).toNat

/-! Dynamics and limiting -/

/-- 1 - exp(-num / den); 1 where den is 0. -/
def approach (num den : Int) : Int := if den = 0 then fxOne else fxOne - fxExp (-(fxDiv num den))

/-- R191: the detector coefficient, Q4.28, from a time constant in microseconds. -/
def detectorCoeff (us fs : Nat) : Nat := (fxTo 28 (approach 1000000 (us * fs))).toNat

/-- 10^(-n / d). -/
def tenTo (n d : Nat) : Int := fxExp (-((fxLn10 * n).fdiv d))

/-- R191: the compressor gain, Q4.28: e in 2^-31, the threshold in 0.25 dB below full scale, the ratio in Q6.2. -/
def compressor (e thresh rat : Nat) : Nat :=
  let t := tenTo thresh 80
  let x : Int := e * 2 ^ 65
  if x ≤ t ∨ rat = 0 then 2 ^ 28
  else (fxTo 28 (fxExp ((fxLn (fxDiv x t) * (4 - (rat : Int))).fdiv rat))).toNat

/-- R192: a = 1 - exp(-1 / (T f_s)), Q4.28, from T in ms. -/
def limiterRelease (ms fs : Nat) : Nat := (fxTo 28 (approach 1000 (ms * fs))).toNat

/-- R192: the ceiling in units of 2^-31 of full scale, from LIM.CEILING. -/
def limiterCeiling (code : Nat) : Nat := (fxTo 31 (tenTo code 160)).toNat

/-- A second-order section by the bilinear transform, prewarped at its corner f (Hz, over `scale`), with 1 / Q in fixed
point: b0, b1, b2, a1, a2 in Q2.30. -/
def bilinear (high : Bool) (f scale fs : Nat) (invQ : Int) : List Int :=
  let w := fxTurn f (2 * scale * fs)
  let k := fxDiv (fxSin w) (fxCos w)
  let k2 := fxMul k k
  let n := fxOne + fxMul k invQ + k2
  let q := fun (a : Int) => fxTo 30 (fxDiv a n)
  let b := if high then fxOne else k2
  [q b, q (if high then -2 * b else 2 * b), q b, q (2 * (k2 - fxOne)), q (fxOne - fxMul k invQ + k2)]

/-- R189: the second-order Butterworth section at FC; the flag chooses the high-pass. -/
def butterworth (high : Bool) (fc fs : Nat) : List Int := bilinear high fc 1 fs (fxRoot 2)

/-- R263: the low-pass H from F0 (Q12.4) and QTS (Q4.12). -/
def excursionSection (f0 qts fs : Nat) : List Int := bilinear false f0 16 fs (fxDiv 4096 qts)

/-- R265: one block of a thermal node, in 2^-16 K, from its time constant in 2^-8 s and P R. -/
def thermalNode (tau block fs : Nat) (pr old : Int) : Int :=
  fxTo 0 (old * fxOne + approach (256 * block) (tau * fs) * (pr - old))

/-- R266: 10^(-A / 20), Q4.28, from A in 2^-16 dB. -/
def dbGain (a : Nat) : Nat := (fxTo 28 (tenTo a (20 * 65536))).toNat

/-- R269: attenuation in 1/16 dB of a gain in Q4.28; a gain of 0 saturates. -/
def gainDb (g : Nat) : Nat :=
  if g = 0 then 0xFFFF else (fxTo 0 (fxDiv (-320 * fxLn (fxDiv g (2 ^ 28))) fxLn10)).toNat

/-- R279: the pilot at f_s, n samples after it began to run: an 8 Hz sine at -60 dBFS, from phase 0. -/
def pilotAt (fs n : Nat) : Int := fxTo 31 ((fxSin (fxTurn (8 * n) fs)).fdiv 1000)

/-- R280: T_meas in 2^-16 degree; the flag says aluminium. -/
def coilTemperature (r re0 : Nat) (aluminium : Bool) : Int :=
  fxTo 16 (25 * fxOne + fxDiv (((r : Int) - re0) * 100000) (re0 * (if aluminium then 403 else 393)))

/-- R235: one step of the DC estimate at the resolution of the samples. -/
def dcStep (e x : Int) (fc fout : Nat) : Int := fxTo 0 (e * fxOne + (2 * fxPi * fc).fdiv fout * (x - e))

/-! Excitations (R246) -/

/-- SINE at sample n, Q1.31: LEVEL in Q4.28, F1 in Q16.16 Hz. -/
def sineAt (level f1 fs n : Nat) : Int := fxTo 3 (level * fxSin (fxTurn (f1 * n) (65536 * fs)))

/-- The raised cosine at sample m of a fade of n samples. -/
def raisedCosine (m n : Nat) : Int := if n ≤ m then fxOne else (fxOne - fxCos (fxTurn m (2 * n))).fdiv 2

/-- SWEEP at sample n of its period, Q1.31; FADE in samples. -/
def sweepAt (level f1 f2 lenLog2 fade fs n : Nat) : Int :=
  let len : Nat := 2 ^ lenLog2
  let ln := fxLn (fxDiv f2 f1)
  let turns := fxMul (fxDiv (f1 * len * fxOne) (65536 * fs * ln)) (fxExp ((ln * n).fdiv len) - fxOne)
  let w := fxMul (raisedCosine n fade) (raisedCosine (len - n) fade)
  fxTo 3 (level * fxMul w (fxSin (fxTurn turns fxOne)))

/-! Spectra (R252, R257); a complex number is the pair of its parts -/

/-- Bin `k` of the discrete transform of `n` numbers. -/
def dftBin (n : Nat) (x : Nat → Int) (k : Int) : Int × Int :=
  (List.range n).foldl (fun a (m : Nat) =>
    let t := fxTurn (k * m) n
    (a.1 + x m * fxCos t, a.2 - x m * fxSin t)) (0, 0)

/-- y / x. -/
def complexDiv (y x : Int × Int) : Int × Int :=
  let d := x.1 ^ 2 + x.2 ^ 2
  (fxDiv (y.1 * x.1 + y.2 * x.2) d, fxDiv (y.2 * x.1 - y.1 * x.2) d)

/-- x turned by num / den of a full turn. -/
def complexTurn (x : Int × Int) (num den : Int) : Int × Int :=
  let t := fxTurn num den
  (fxMul x.1 (fxCos t) - fxMul x.2 (fxSin t), fxMul x.1 (fxSin t) + fxMul x.2 (fxCos t))

/-- R252: the weight of frequency `f`: 1 from `lo` to `hi`, tapering to 0 over one sixth of an octave outside. -/
def bandWeight (lo hi f : Int) : Int :=
  if lo ≤ f ∧ f ≤ hi then fxOne
  else if f ≤ 0 then 0
  else
    let p := fxDiv (6 * fxLn (if f < lo then fxDiv lo f else fxDiv f hi)) fxLn2
    if fxOne ≤ p then 0 else clampInt 0 fxOne (Config.taper p)

/-- R252: the band in which the division is exact: F1 and F2 (Q16.16 Hz) moved inwards by one sixth of an octave for a
SWEEP, 10 Hz to 0.45 f_s otherwise. -/
def measuredBand (sweep : Bool) (f1 f2 fs : Nat) : Int × Int :=
  let step := fxExp (fxLn2.fdiv 6)
  if sweep then (fxMul ((f1 : Int) * 2 ^ 80) step, fxDiv ((f2 : Int) * 2 ^ 80) step)
  else (10 * fxOne, (45 * (fs : Int) * fxOne).fdiv 100)

/-- R252: the response at sample `m` from time zero, in 2^-96: capture `y` divided by excitation `x`, both of period `n`, the
capture lying `shift` / 256 sample late. -/
def responseAt (n fs : Nat) (band : Int × Int) (shift : Nat) (y x : Nat → Int) (m : Int) : Int :=
  let sum := (List.range n).foldl (fun (a : Int) k =>
    let k' : Int := if 2 * k ≤ n then k else k - (n : Int)
    let w := bandWeight band.1 band.2 (((absNat k' * fs : Nat) : Int) * fxOne / n)
    if w = 0 then a
    else
      let X := dftBin n x k'
      let h := if X = (0, 0) then Config.emptyBin k else complexDiv (complexTurn (dftBin n y k') (k' * shift) (256 * n)) X
      a + (complexTurn (fxMul w h.1, fxMul w h.2) (k' * m) n).1) 0
  sum.fdiv n

/-- R257: the Hann window over 8,192 samples. -/
def hann (m : Nat) : Int := (fxOne - fxCos (fxTurn m (if Config.hannSymmetric then 8191 else 8192))).fdiv 2

/-- The IEEE 754 binary32 pattern of a number in 2^-96; which neighbour a number between two takes is open. -/
def binary32 (x : Int) : Word :=
  if x = 0 then 0#32
  else
    let n := absNat x
    let m := if n.log2 ≤ 23 then (n : Int) * 2 ^ (23 - n.log2) else roundOpen n (2 ^ (n.log2 - 23) : Nat)
    let e := (n.log2 : Int) - 96 + 127
    let w : Int := if e ≤ 0 then 0 else if 254 < e then 0x7F800000 else min 0x7F800000 ((e - 1) * 2 ^ 23 + m)
    BitVec.ofInt 32 (w + (if x < 0 then 2 ^ 31 else 0))

/-! The binaural monitor (R195) and impulse responses (R253) -/

/-- A direction seen from the head: the rotation is undone as yaw, then pitch, then roll (2^-16 degree each). -/
def seenFrom (yaw pitch roll : Int) (v : V3) : V3 :=
  let turn := fun (a p q : Int) =>
    let t := fxTurn a (360 * 65536)
    (fxMul p (fxCos t) - fxMul q (fxSin t), fxMul p (fxSin t) + fxMul q (fxCos t))
  let (x, y) := turn yaw v.x v.y
  let (z, y) := turn pitch v.z y
  let (x, z) := turn roll x z
  ⟨x, y, z⟩

/-- The index of the grid direction (Q8.8) nearest to a direction, the lower index on a tie. -/
def nearestDirection (v : V3) (l : List (Int × Int)) : Nat :=
  (l.zipIdx.foldl (fun (best : Option (Int × Nat)) (e : (Int × Int) × Nat) =>
    let c := (fxDirection (256 * e.1.1) (256 * e.1.2)).dot v
    match best with
    | some b => if b.1 + 2 ^ 136 < c then some (c, e.2) else best
    | none => some (c, e.2)) none).elim 0 (·.2)

/-- R195: the grid direction for a virtual loudspeaker (2^-16 degree) under a head rotation. -/
def hrirNearest (az el yaw pitch roll : Int) (l : List (Int × Int)) : Nat :=
  nearestDirection (seenFrom yaw pitch roll (fxDirection az el)) l

/-- R197: are two direction entries (Q8.8) within 0.1 degree? -/
def hrirClose (a b : Int × Int) : Bool :=
  (fxDirection (256 * a.1) (256 * a.2)).near (fxDirection (256 * b.1) (256 * b.2))

/-- R253: SNR of an impulse response in dB, saturating at 255. -/
def irSnr (xs : List Int) : Nat :=
  let peak := xs.foldl (fun m x => max m (absNat x)) 0
  let tail := xs.drop (xs.length - xs.length / 8)
  let power := (tail.map (fun x => absNat x ^ 2)).sum
  if power = 0 then 255
  else min 255 (fxTo 0 (fxDiv (10 * fxLn (fxDiv (peak ^ 2 * tail.length : Nat) power)) fxLn10)).toNat

/-- R253: the index of the largest magnitude, the first of equal ones. -/
def irPeak (xs : List Int) : Nat :=
  let peak := xs.foldl (fun m x => max m (absNat x)) 0
  xs.findIdx (fun x => absNat x = peak)

end Sys2Proof.Machine
end

