-- ==== Sys2Proof/Machine/State.lean ====
section
/-! DEFINITION. The state of the module: everything the spec gives it, as plain data, and its
value right after a power-on reset. -/

namespace Sys2Proof.Machine

/-- Why the block stops. No command of this block stops it with a fault. -/
inductive Fault where
  /-- Raised by no meaning: every command of the spec has an effect (safe). -/
  | none
  deriving DecidableEq, Repr

/-- Why a command has no meaning. -/
inductive Refusal where
  /-- Raised by the dispatcher for a command without a meaning yet (safe). -/
  | notModelled (mnemonic : String)
  deriving DecidableEq, Repr

/-- The state of the module. -/
structure State where
  /-- The model (R1). -/
  model : Model := .m960
  fab : Fabric := {}
  render : Render := {}
  /-- Changes of active values, newest first. -/
  changes : List Change := []
  objs : Map ObjEngine := []
  motion : Motion := {}
  layouts : Layouts := {}
  paths : PathStage := {}
  /-- Render-rate samples of every input: streams, port slots, buses, generators, chains. -/
  samples : Map Int := []
  routes : Map RouteEngine := []
  buses : Map BusEngine := []
  outs : Map OutEngine := []
  /-- Bass-management groups 0 to 7. -/
  bass : Map BassGroup := []
  /-- Words of the output EQ sets: set k, word w at 80 k + w; an unlisted word reads 0 (R188). -/
  outEq : Map Word := []
  /-- The committed filter record: SEL, POLICY, XFADE of each output (R227). -/
  corrRecord : Option CorrRecord := none
  curtain : Curtain := {}
  monitor : MonitorEngine := {}
  ps : Map PsEngine := []
  /-- The copy of the thermal states in DRAM (R268). -/
  thermals : Map ThermalCopy := []
  tdmRx : Map PortState := []
  tdmTx : Map PortState := []
  aesRx : Map AesState := []
  aesTx : Map AesTxState := []
  time : TimeState := {}
  net : Net := {}
  sched : Sched := {}
  seats : Map SeatState := []
  hosts : Hosts := {}
  pool : Pool := {}
  chains : Map ChainEngine := []
  measure : Measurement := {}
  /-- Bytes the module has written to host memory: seat s, bus address a at 2^64 s + a. -/
  hostMem : Map Byte := []
  twin : TwinState := {}
  /-- Cue program memory: word w of SEAT s at 4,096 s + w (R428). -/
  cue : Map Word := []
  prompters : Map PrompterEngine := []
  gpio : Map GpioPin := []
  tc : TcReader := {}
  snaps : Snapshots := {}
  /-- Levels of the sources as the Callboard last took them: source n at n, or at 2,048 (s + 1) + n in
  the copy of seat s. -/
  levels : Map Bool := []
  call : Map CallState := []
  green : Green := {}
  mon : Monitors := {}
  boot : Boot := {}
  tap : Tap := {}
  /-- How many values the spec leaves open have been taken so far (the model's own counter). -/
  free : Nat := 0
  /-- Commands waiting, first in, first out. -/
  pending : List Instr := []
  deriving DecidableEq, Repr

/-- The machine right after a power-on reset: a 960 (DESIGN CHOICE, log entry 3), every register
at its reset value with RESET.CAUSE reading POWER_ON (R544), every queue empty. -/
def State.reset : State :=
  { fab := { act := (Blk.resetPage.base + Reg.Reset.CAUSE.off, 1#32) :: bootWords .m960, stg := bootWords .m960 } }

end Sys2Proof.Machine
end

