-- ==== Sys2Proof/Machine/Ops.lean ====
section
/-! DEFINITION. The shared operations over the register fabric and the clocking state. -/

namespace Sys2Proof.Machine

open Sys2Proof

/-- What a meaning answers. -/
abbrev Res := Host.Outcome State Fault Refusal

/-! Field access -/

/-- The bits of a field within its word. -/
def fldMask (f : Fld) : Word := BitVec.ofNat 32 ((2 ^ f.width - 1) <<< f.lsb)

/-- The value of field `f` of the unit at `base` in a register store. -/
def regGet (m : RegMap) (base : Nat) (f : Fld) : Nat :=
  ((Map.get 0#32 (base + f.off) m >>> f.lsb).toNat % 2 ^ f.width) ^^^ f.reset

/-- Write field `f` of the unit at `base`; the value is taken modulo the field's width. -/
def regPut (m : RegMap) (base : Nat) (f : Fld) (v : Nat) : RegMap :=
  let w := Map.get 0#32 (base + f.off) m
  Map.put 0#32 (base + f.off)
    ((w &&& ~~~(fldMask f)) ||| (BitVec.ofNat 32 (((v % 2 ^ f.width) ^^^ f.reset) <<< f.lsb) &&& fldMask f)) m

/-- The active value of a field: what the hardware uses, or what hardware last wrote (R56). -/
def State.fld (s : State) (b : Blk) (f : Fld) : Nat := regGet s.fab.act b.base f

/-- The staged value of a field (R56). -/
def State.stg (s : State) (b : Blk) (f : Fld) : Nat := regGet s.fab.stg b.base f

/-- A one-bit field of the active view. -/
def State.bit (s : State) (b : Blk) (f : Fld) : Bool := s.fld b f ≠ 0

/-- Replace the active store. -/
def State.withAct (s : State) (m : RegMap) : State := { s with fab := { s.fab with act := m } }

/-- Replace the staged store. -/
def State.withStg (s : State) (m : RegMap) : State := { s with fab := { s.fab with stg := m } }

/-- The hardware writes a field: RO, COR and live fields, and active values at an apply. -/
def State.set (s : State) (b : Blk) (f : Fld) (v : Nat) : State :=
  s.withAct (regPut s.fab.act b.base f v)

/-- Write a staged value. -/
def State.setStg (s : State) (b : Blk) (f : Fld) (v : Nat) : State :=
  s.withStg (regPut s.fab.stg b.base f v)

/-- Write a field whose two views are the same (RWI, or an immediate page) (R56, R60). -/
def State.setBoth (s : State) (b : Blk) (f : Fld) (v : Nat) : State :=
  (s.set b f v).setStg b f v

/-- Hardware writes a one-bit field. -/
def State.setBit (s : State) (b : Blk) (f : Fld) (v : Bool) : State := s.set b f (if v then 1 else 0)

/-- A 64-bit value held in a low and a high word. -/
def State.fld64 (s : State) (b : Blk) (lo hi : Fld) : Nat := s.fld b lo + 2 ^ 32 * s.fld b hi

/-- Hardware writes a 64-bit value. -/
def State.set64 (s : State) (b : Blk) (lo hi : Fld) (v : Nat) : State :=
  (s.set b lo (v % 2 ^ 32)).set b hi (v / 2 ^ 32)

/-- A counter that wraps at its width. -/
def State.count (s : State) (b : Blk) (f : Fld) (by_ : Nat := 1) : State :=
  s.set b f ((s.fld b f + by_) % 2 ^ f.width)

/-- A counter that saturates at its width. -/
def State.countSat (s : State) (b : Blk) (f : Fld) (by_ : Nat := 1) : State :=
  s.set b f (min (s.fld b f + by_) (2 ^ f.width - 1))

/-- A peak register. -/
def State.peak (s : State) (b : Blk) (f : Fld) (v : Nat) : State :=
  s.set b f (max (s.fld b f) (min v (2 ^ f.width - 1)))

/-! Sticky bits and events -/

/-- Where the refresh mark of an event bit is kept (R63). -/
def evKey (b : Blk) (f : Fld) (i : Nat) : Nat := (b.base + f.off) * 64 + f.lsb + i

/-- Is the field in a mirrored region (R61)? -/
def mirrored (b : Blk) (off : Nat) : Bool :=
  match b with
  | .greenroom | .jack => true
  | .tdm _ => 0x100 ≤ off && off < 0x120
  | .aesRx _ => 0x100 ≤ off && off < 0x148
  | .aesTx _ => off = 0x100
  | .ps _ => 0x100 ≤ off && off < 0x120
  | _ => false

/-- Does the page hold a mirrored region (COPY_AGE.MIRROR, R61)? -/
def Blk.hasMirror : Blk → Bool
  | .greenroom | .jack | .tdm _ | .aesRx _ | .aesTx _ | .ps _ => true
  | _ => false

/-- Set bit `i` of a sticky field. In a mirrored region the recording is marked with the first
refresh that will show it, so that a clear posted earlier leaves it (R63). -/
def State.stick (s : State) (b : Blk) (f : Fld) (i : Nat) : State :=
  let s := s.set b f (s.fld b f ||| 2 ^ i)
  if mirrored b f.off then
    let mark := s.fab.evMark.put 0 (evKey b f i) (Map.get 0 b.base s.fab.refreshTag + 1)
    { s with fab := { s.fab with evMark := mark } }
  else s

/-- Set PAGE_STAT.EVENTS bit `i` of a page (R46). -/
def State.event (s : State) (b : Blk) (i : Nat) : State := s.stick b Reg.Hdr.EVENTS i

/-- ERR_LOG of a page holds the first rejected write; later ones set MULTI (R47). -/
def State.logErr (s : State) (page : Blk) (off reason seat : Nat) : State :=
  if s.bit page Reg.Hdr.ERR_VALID then s.set page Reg.Hdr.ERR_MULTI 1
  else
    (((s.set page Reg.Hdr.ERR_OFFSET (off % 4096)).set page Reg.Hdr.ERR_REASON reason).set page
      Reg.Hdr.ERR_SEAT seat).set page Reg.Hdr.ERR_VALID 1

/-! Values the spec leaves open -/

/-- The next open value. -/
def State.fresh (s : State) : Nat × State := (Config.free s.free, { s with free := s.free + 1 })

/-! Status that follows the engines

Each meaning answers a state in which the registers that only report an engine's state agree with it. -/

/-- Is a commit pending (from acceptance until it applies, fails or is withdrawn)? -/
def Commit.pending (c : Commit) : Bool := !c.applied

/-- PENDING_GROUPS: the groups of the commits that are pending (R65). -/
def State.pendingGroups (s : State) : Nat :=
  s.fab.commits.foldl (fun m c => if c.pending then m ||| c.mask else m) 0

/-- STATUS.STATE of the CURTAIN page (R205). -/
def CurtainPhase.code : CurtainPhase → Nat
  | .isOpen => 0
  | .closing => 1
  | .closed => 2
  | .opening => 3

/-- A curtain that is due to close shows CLOSING. -/
def Curtain.code (c : Curtain) : Nat := if c.due then 1 else c.phase.code

/-- Is the unit an understudy (states 8 to 0xE)? -/
def undState (c : Nat) : Bool := 8 ≤ c && c ≤ 0xE

/-- The tag of a command of the default configuration, beyond every host's tag; it writes no completion
(R543). Tags above it belong to loads that the twin forwards (R488). -/
def bootTag : Nat := 0x10000

/-- Commands in flight (R400). -/
def SeatState.flight (q : SeatState) : Nat := (q.cmds.filter (·.tag < bootTag)).length

/-- STATUS.IN_FLIGHT of one seat (R397, R400). -/
def State.showFlight (s : State) (q : Nat) : State :=
  s.set (.seat q) Reg.Seat.STATUS_IN_FLIGHT (Map.get ({} : SeatState) q s.seats).flight

/-- PENDING_GROUPS (R65), READY.NOW (R379), CURTAIN STATUS.STATE (R205) and TWIN ROLE (R506) as the engines are. -/
def State.showEngines (s : State) : State :=
  (((s.set .update Reg.Update.PENDING_GROUPS s.pendingGroups).set .ringmaster Reg.Ringmaster.READY_NOW
    s.sched.ready.length).set .curtain Reg.Curtain.STATUS_STATE s.curtain.code).setBit .twin Reg.Twin.ROLE
    (undState (s.fld .twin Reg.Twin.STATE))

/-- The status registers as the engines are, with IN_FLIGHT of every seat (R397). -/
def State.settled (s : State) : State := (List.range 8).foldl State.showFlight s.showEngines

/-- A command is done: the answer of a meaning. -/
def settle (s : State) : Res := .next s.settled

/-! Configuration of the render -/

/-- f_s: 48,000 or 96,000 Hz (R380). -/
def State.fs (s : State) : Nat := if s.fld .render Reg.Render.CFG_RATE = 1 then 96000 else 48000

/-- f_s / 48,000. -/
def State.rateMul (s : State) : Nat := if s.fld .render Reg.Render.CFG_RATE = 1 then 2 else 1

/-- The block size B (R380). -/
def State.blockSize (s : State) : Nat := 8 * 2 ^ s.fld .render Reg.Render.CFG_BLOCK

/-- A ramp or fade count of 0.125 ms as samples: 6 at 48 kHz, 12 at 96 kHz (R87). -/
def State.rampSamples (s : State) (count : Nat) : Nat := count * 6 * s.rateMul

/-- Is the render running (RENDER.STATE)? -/
def State.running (s : State) : Bool := s.fld .render Reg.Render.STATE = 1

/-- Is the render stopped (R72)? -/
def State.stopped (s : State) : Bool := s.fld .render Reg.Render.STATE = 0

/-- Does the render sample index advance: the render runs or is being reset (R380)? -/
def State.clocked (s : State) : Bool := s.fld .render Reg.Render.STATE ≠ 0

/-- Objects at the current render rate (R3). -/
def State.nowObjects (s : State) : Nat := s.model.objects / s.rateMul
def State.nowOutputs (s : State) : Nat := s.model.outputs / s.rateMul
def State.nowPaths (s : State) : Nat := s.model.paths / s.rateMul

/-! Values at a sample: jobs render behind the commits (R31, R71) -/

/-- The words of a unit as they were at render sample `i`. -/
def State.wordsAt (s : State) (b : Blk) (i : Nat) : RegMap :=
  s.changes.foldl (fun m c => if c.blk = b ∧ i < c.sample then c.old else m) s.fab.act

/-- The active value of a field at render sample `i`. -/
def State.fldAt (s : State) (b : Blk) (f : Fld) (i : Nat) : Nat := regGet (s.wordsAt b i) b.base f

/-- The words of the unit before the change that applied at sample `i`, if one did. -/
def State.changedAt (s : State) (b : Blk) (i : Nat) : Option RegMap :=
  (s.changes.reverse.find? (fun c => c.blk = b ∧ c.sample = i)).map (·.old)

/-- Record that the active words of a unit change at a sample. -/
def State.noteChange (s : State) (b : Blk) (sample : Nat) : State :=
  { s with changes :=
      { sample := sample, blk := b,
        old := Map.only (fun k => b.base ≤ k ∧ k < b.base + (if b.isRecord then 0x80 else 0x800)) s.fab.act }
        :: s.changes }

/-! Ownership and groups -/

/-- The update group of a page or record: 0 to 31, or 0xFF for immediate (R46, R51). -/
def State.groupOf (s : State) (b : Blk) : Nat :=
  if b.isRecord then Map.get 0 b.base s.fab.recGroup else s.fld b Reg.Hdr.UPD_GROUP

/-- The owning seat of an assignable page or record, and whether it is shared (R50, R51). -/
def State.ownerOf (s : State) (b : Blk) : Nat × Bool :=
  if b.isRecord then
    let o := Map.get 0 b.base s.fab.recOwner
    (o % 8, o.testBit 3)
  else (s.fld b.ownerPage Reg.Hdr.OWNER_SEAT, s.bit b.ownerPage Reg.Hdr.OWNER_SHARED)

/-- May the seat write the page or record (R50)? -/
def State.mayWrite (s : State) (seat : Nat) (b : Blk) : Bool :=
  match b.ownerClass with
  | .readOnly => false
  | .banked => true
  | .house => seat = 0
  | .seat t => seat = t || seat = 0
  | .assignable => seat = 0 || (s.ownerOf b).1 = seat || (s.ownerOf b).2

/-- Does a seat own a unit, or may it use it as shared (R175, R407)? The house seat has no more than that. -/
def State.owns (s : State) (seat : Nat) (b : Blk) : Bool := (s.ownerOf b).1 = seat || (s.ownerOf b).2

/-- May the seat use update group `g`: it owns it, it is shared, or the seat is the house (R67)? -/
def State.mayUseGroup (s : State) (seat g : Nat) : Bool :=
  seat = 0 || s.fld .update (Reg.Update.UG_CFG_OWNER g) = seat
    || s.bit .update (Reg.Update.UG_CFG_SHARED g)

/-- Does the seat count as owner for a clearing read: the named owner or the house seat (R55)? ERR_LOG of the UPDATE page
is common to all seats and has no single owner: a clearing read by any seat clears it (DESIGN CHOICE, log entry 27). -/
def State.clears (s : State) (seat : Nat) (b : Blk) : Bool :=
  match b.ownerClass with
  | .readOnly | .house => seat = 0
  | .banked => true
  | .seat t => seat = t || seat = 0
  | .assignable => seat = 0 || (s.ownerOf b).1 = seat

/-- STAGED_PENDING of a page or record. -/
def State.isPending (s : State) (b : Blk) : Bool := Map.get false b.base s.fab.stagedPending

def State.setPending (s : State) (b : Blk) (v : Bool) : State :=
  { s with fab := { s.fab with stagedPending := s.fab.stagedPending.put false b.base v } }

/-- Staged values of a unit become its active values (R54, R57, R75). -/
def State.discardStaged (s : State) (b : Blk) : State :=
  (b.allFields.foldl (fun s f => if f.acc = .rw then s.setStg b f (s.fld b f) else s) s).setPending b false

/-! The twin link -/

/-- A LOCKSTEP principal that forwards (R290, R492): LOCK_PRI, and JOIN_PRI, since what it ships must stay current. -/
def State.lockPri (s : State) : Bool :=
  let st := s.fld .twin Reg.Twin.STATE
  st = 0x4 || (st = 0x2 && s.twin.mode = 2)

/-- Have the PLLs stopped for good: a thermal trip, or no reference clock (R523, R559)? -/
def State.dead (s : State) : Bool := s.mon.tripped || s.mon.refclkLost

/-- A LOCKSTEP understudy that renders: REPLAY, VERIFY, LOCK_UND or RESYNC. -/
def State.lockUnd (s : State) : Bool := [0xA, 0xB, 0xD, 0xE].contains (s.fld .twin Reg.Twin.STATE)

/-- A message to the peer, while the twins are in lock. -/
def State.tellPeer (s : State) (m : PeerFrame) : State :=
  if s.lockPri || s.lockUnd then { s with twin := { s.twin with out := s.twin.out ++ [m] } } else s

/-- A frame is queued to the peer while the link is up. -/
def State.toPeer (s : State) (f : PeerFrame) : State :=
  if s.bit .ndodom Reg.Ndodom.STATUS_LINK then { s with twin := { s.twin with out := s.twin.out ++ [f] } } else s

/-! Engine state of objects and paths -/

def State.obj (s : State) (n : Nat) : ObjEngine := Map.get {} n s.objs

def State.setObj (s : State) (n : Nat) (o : ObjEngine) : State :=
  { s with objs := s.objs.put {} n o }

def State.pathsOf (s : State) (n : Nat) : ObjPaths := Map.get {} n s.paths.objs

def State.setPathsOf (s : State) (n : Nat) (p : ObjPaths) : State :=
  { s with paths := { s.paths with objs := s.paths.objs.put {} n p } }

/-- Set a sticky object event and its page's level (R111). -/
def State.objEvent (s : State) (n bit : Nat) : State := s.stick (.obj n) Reg.Obj.EVT_FLAGS bit

/-- A program event of an object: CODE takes the code and COUNT rises (R111). -/
def State.objProgramEvent (s : State) (n code : Nat) : State :=
  ((s.set (.obj n) Reg.Obj.EVT_CODE code).countSat (.obj n) Reg.Obj.EVT_COUNT).objEvent n 0

/-- An object renders while its page's ENABLE and its CTRL.ACTIVE are 1 (R80). -/
def State.objActive (s : State) (n : Nat) : Bool :=
  s.bit (Blk.obj n).page Reg.Hdr.ENABLE && s.bit (.obj n) Reg.Obj.CTRL_ACTIVE

/-- An output is active while its page's ENABLE and its CTRL.ACTIVE are 1 (R186). -/
def State.outActive (s : State) (n : Nat) : Bool :=
  s.bit (Blk.out n).page Reg.Hdr.ENABLE && s.bit (.out n) Reg.Out.CTRL_ACTIVE

/-- A bus is active while its page's ENABLE and its CTRL.ACTIVE are 1 (R176). -/
def State.busActive (s : State) (n : Nat) : Bool :=
  s.bit (Blk.bus n).page Reg.Hdr.ENABLE && s.bit (.bus n) Reg.Bus.CTRL_ACTIVE

/-! The gain stage of R87 -/

/-- The gain of a ramp at sample `i`, Q4.28, rounded to nearest with ties up (R87). -/
def GainStage.at_ (g : GainStage) (i : Nat) : Int :=
  if g.n = 0 then g.to_
  else if i < g.start then g.from_
  else g.from_ + roundDiv ((g.to_ - g.from_) * (min (i - g.start + 1) g.n : Nat)) g.n

/-- A new target: the ramp starts from the gain applied at the sample before. While an inversion is
pending the new ramp leads to the zero, and the target is the gain to ramp back to. -/
def GainStage.retarget (g : GainStage) (i : Nat) (target : Int) (n : Nat) : GainStage :=
  match g.flip with
  | some (p, _) => { g with from_ := g.last, to_ := 0, start := i, n := n, flip := some (p, target) }
  | none => { g with from_ := g.last, to_ := target, start := i, n := n }

/-- An INVERT change: ramp to 0, invert at the zero, ramp back (R87). -/
def GainStage.invert (g : GainStage) (i : Nat) (inv : Bool) (target : Int) (n : Nat) : GainStage :=
  { g with from_ := g.last, to_ := 0, start := i, n := n, flip := some (inv, target) }

/-- Advance to sample `i`: take a pending inversion at the zero, and note the gain applied. -/
def GainStage.tick (g : GainStage) (i : Nat) : GainStage :=
  let g := match g.flip with
    | some (p, t) =>
      if g.start + g.n ≤ i then
        { g with inv := p, from_ := 0, to_ := t, start := g.start + g.n, flip := none }
      else g
    | none => g
  { g with last := g.at_ i }

/-- The polarity a stage is heading for. -/
def GainStage.wantInv (g : GainStage) : Bool := (g.flip.map (·.1)).getD g.inv

/-- The gain a stage is heading for. -/
def GainStage.wantGain (g : GainStage) : Int := (g.flip.map (·.2)).getD g.to_

/-- Follow a record: a change of polarity or of target at sample `i` starts a ramp of `n` samples
(R87, R184). -/
def GainStage.follow (g : GainStage) (i n : Nat) (inv : Bool) (target : Int) : GainStage :=
  if g.wantInv ≠ inv then g.invert i inv target n
  else if g.wantGain ≠ target then g.retarget i target n
  else g

/-- A stage that stands at a gain. -/
def GainStage.at0 (inv : Bool) (g : Int) : GainStage := { last := g, from_ := g, to_ := g, inv := inv }

/-- The first sample of zero gain of a ramp to 0 over `n` samples that starts at `i` from gain `g`, with the rounding
of R87 (R86): the least i + j with |g| (j + 1) / n nearer to |g| than to |g| - 1. -/
def zeroFrom (g : Int) (i n : Nat) : Nat :=
  let a := 2 * absNat g
  if n = 0 ∨ a = 0 then i
  else if 0 < g then i + (n - (n + a - 1) / a) else i + (n - n / a - 1)

/-- Has the ramp reached its end at sample `i`, with no inversion pending? -/
def GainStage.settled (g : GainStage) (i : Nat) : Bool := g.flip.isNone && g.start + g.n ≤ i + 1

/-- Apply a gain to a sample with `frac` fraction bits kept: product in Q4.28, rounded to nearest
with ties up. -/
def applyGain (x g : Int) : Int := roundShift (x * g) 28

/-! Biquads (R88, R89) -/

/-- The five coefficients of section `j` of a set at word `base` of a store; set 0 of the object
store passes the signal (R88). -/
def eqCoeff (store : Map Word) (base j : Nat) : Int × Int × Int × Int × Int :=
  let c := fun k => signed 32 (Map.get 0#32 (base + 5 * j + k) store).toNat
  (c 0, c 1, c 2, c 3, c 4)

/-- The pass-through section: b0 = 1.0 in Q2.30. -/
def eqPass : Int × Int × Int × Int × Int := (0x40000000, 0, 0, 0, 0)

/-- One sample through a biquad in direct form I: the exact sum, rounded once, saturated by `sat`;
the new section, the output and whether it saturated (R89). -/
def Section.run (c : Int × Int × Int × Int × Int) (sat : Int → Int) (q : Section) (x : Int) :
    Section × Int × Bool :=
  let (b0, b1, b2, a1, a2) := c
  let y := roundShift (b0 * x + b1 * q.x1 + b2 * q.x2 - a1 * q.y1 - a2 * q.y2) 30
  let y' := sat y
  ({ q with x1 := x, x2 := q.x1, y1 := y', y2 := q.y1 }, y', y ≠ y')

/-- One sample through a section with its enable and its 2 ms cross-fade (R89, R90): `n` is the
length of the cross-fade in samples. -/
def Section.step (c : Int × Int × Int × Int × Int) (sat : Int → Int) (n i : Nat) (q : Section) (x : Int) :
    Section × Int × Bool :=
  match q.fade with
  | some f =>
    let (q', y, clip) := q.run c sat x
    let j := min (i - f + 1) n
    let out := if q.on then x + roundDiv ((y - x) * j) n else y + roundDiv ((x - y) * j) n
    let q' := if n ≤ i - f + 1 then
        (if q.on then { q' with fade := none } else { on := false }) else q'
    (q', out, clip)
  | none =>
    if q.on then q.run c sat x else ({ q with x1 := 0, x2 := 0, y1 := 0, y2 := 0 }, x, false)

/-- A change of the enable bit starts the cross-fade; a newly enabled section starts from zero
state (R90). -/
def Section.enable (on : Bool) (i : Nat) (q : Section) : Section :=
  if on = q.on then q
  else if on then { on := true, fade := some i } else { q with on := false, fade := some i }

/-- The sections of a chain that does not run: no change of a bit is heard, so that none cross-fades (R90). -/
def sectionsAt (en count : Nat) : Map Section :=
  (List.range count).foldl (fun (q : Map Section) j => q.put {} j { on := en.testBit j }) []

/-- The sections of a chain that runs take the enable bits. -/
def sectionsTake (q : Map Section) (en count i : Nat) : Map Section :=
  (List.range count).foldl (fun q j => q.put {} j ((Map.get ({} : Section) j q).enable (en.testBit j) i)) q

/-! Route cross-fade (R182, R183) -/

/-- The route cross-fade time in samples, as active at sample `i`. -/
def State.routeFade (s : State) (i : Nat) : Nat :=
  s.rampSamples (s.fldAt .render Reg.Render.ROUTE_FADE i)

/-- The linear equal-gain mix of two values during a fade at its `j`-th sample (R183), rounded to nearest with ties up
(DESIGN CHOICE, log entry 28: the rules of the fades state no rounding). -/
def mixFade (old new : Int) (j n : Nat) : Int :=
  if n ≤ j + 1 then new else roundDiv (old * (n - (j + 1) : Nat) + new * (j + 1 : Nat)) n

/-! Render-rate inputs (R15, R37, R83) -/

/-- Where sample `i` of an input is kept; the buffer holds the last 4,096 samples. -/
def sampleKey (src : Source) (i : Nat) : Nat :=
  ((src.type * 1024 + src.unit) * 64 + src.chan) * 4096 + i % 4096

def State.sample (s : State) (src : Source) (i : Nat) : Int :=
  Map.get 0 (sampleKey src i) s.samples

def State.putSample (s : State) (src : Source) (i : Nat) (v : Int) : State :=
  { s with samples := s.samples.put 0 (sampleKey src i) v }

/-- The samples that outputs have emitted are dropped: ports, streams and local channels send zero from here (R22, R23). -/
def State.muteOutputs (s : State) : State :=
  { s with samples := Map.drop (fun k => decide (k / 268435456 = 9)) s.samples }

/-- The value an object or route takes from a source at sample `i` (R83). A bus is available one
block later (R16); UNIT and CHANNEL are ignored where R83 says so. -/
def State.sourceAt (s : State) (src : Source) (i : Nat) : Int :=
  match src.type with
  | 0 => 0
  | 4 => if i < s.blockSize then 0 else s.sample { type := 4, unit := src.unit } (i - s.blockSize)
  | 5 => s.sample { type := 5, unit := src.unit } i
  | 6 => s.sample { type := 6, unit := src.unit } i
  | _ => s.sample src i

/-- The first sample of block `b`. -/
def State.blockStart (s : State) (b : Nat) : Nat := b * s.blockSize

/-- The samples of block `b`, in order. -/
def State.blockSamples (s : State) (b : Nat) : List Nat :=
  (List.range s.blockSize).map (s.blockStart b + ·)

/-- The second block boundary from now (R492). -/
def State.secondBoundary (s : State) : Nat := (s.render.rsi / s.blockSize + 2) * s.blockSize

end Sys2Proof.Machine
end

