-- ==== Sys2Proof/Machine/Sched.lean ====
section
/-! DEFINITION. The Ringmaster's ready lists and grants: which jobs there are, when an item becomes ready, which engine is
granted it, and which jobs are in service (R27, R373 to R377). -/

namespace Sys2Proof.Machine

open Sys2Proof

/-! Engines and items (R373, R374) -/

/-- Engine group of an engine number of R382, if there is such an engine. -/
def engineGroup (e : Nat) : Option Nat :=
  let g := e / 16
  if e % 16 < [4, 8, 8, 16, 16, 4].getD g 0 then some g else none

/-- The job types an engine group serves. -/
def serves (g : Nat) : JobKind → Bool
  | .trapeze => g = 0
  | .pan => g = 1
  | .path | .route => g = 2
  | .bus | .shapePre | .shapePost => g = 3
  | .convHead | .convSeg => g = 4
  | .opStep => 3 ≤ g
  | .command => g = 5

/-- Code of a job type. -/
def JobKind.code : JobKind → Nat
  | .trapeze => 0x01 | .pan => 0x02 | .path => 0x03 | .route => 0x04 | .bus => 0x05
  | .shapePre => 0x06 | .convHead => 0x07 | .convSeg => 0x08 | .shapePost => 0x09
  | .opStep => 0x10 | .command => 0x11

/-- Longest length in render cycles (R373). -/
def JobKind.longest (k : JobKind) (B : Nat) : Nat :=
  match k with
  | .trapeze => 700 | .pan => 1000 | .path => 4608 | .route => 1200 | .bus => 1100
  | .shapePre | .shapePost => 30 * B + 120
  | .convHead => 16 * B + 40
  | .convSeg | .opStep => 2048
  | .command => 0

/-- Does a job belong to a block's rendering? -/
def JobKind.render : JobKind → Bool
  | .opStep | .command => false
  | _ => true

/-- Render cycles of one block: those of R18, five sixths of them while throttled (R522). -/
def State.blockCycles (s : State) : Nat :=
  s.blockSize * 25000 / s.rateMul * (if s.bit .health Reg.Health.STATE_THROTTLED then 5 else 6) / 6

/-- Render cycles in units of 0.1 us (R379, R522). -/
def State.tenthUs (s : State) (cycles : Nat) : Nat := cycles / (if s.bit .health Reg.Health.STATE_THROTTLED then 100 else 120)

/-- Is an item or a job of the flow ready or in service? -/
def State.flowBusy (s : State) (flow : Nat) : Bool :=
  s.sched.ready.any (fun r => r.job.flow = flow) || s.sched.service.any (fun v => v.job.flow = flow)

/-- READY.NOW follows the lists. -/
def State.setReady (s : State) (l : List Ready) : State :=
  ({ s with sched := { s.sched with ready := l } }).set .ringmaster Reg.Ringmaster.READY_NOW l.length

/-- An item becomes ready: a flow has at most one ready item at a time (R374, R375). -/
def State.pushReady (s : State) (cls : Nat) (j : Job) : State :=
  if s.sched.ready.any (fun r => r.job.flow = j.flow) then s
  else
    let n := s.sched.ready.length + 1
    let s := { s with sched := { s.sched with
      ready := s.sched.ready ++ [({ cls := cls, job := j, order := s.sched.order, tick := s.render.tick } : Ready)], order := s.sched.order + 1 } }
    (s.set .ringmaster Reg.Ringmaster.READY_NOW n).peak .ringmaster Reg.Ringmaster.READY_PEAK n

/-! Grants (R375 to R377) -/

/-- May an item be granted to an engine of group `g`, with `left` render cycles to the next release? -/
def State.eligible (s : State) (g left : Nat) (r : Ready) : Bool :=
  serves g r.job.kind && !(s.sched.service.any (fun v => v.job.flow = r.job.flow)) &&
    (!r.job.kind.render || (!s.render.late && (r.job.block = s.render.block || r.job.kind = .trapeze || r.job.kind = .pan ||
      (r.job.kind = .convSeg && s.render.block ≤ r.job.block + 1)))) &&
    (r.cls ≠ 2 || g = 5 || (!s.sched.leadPhase && r.job.kind.longest s.blockSize ≤ left))

/-- Is the item granted before another one of its class? -/
def Ready.first (a b : Ready) : Bool :=
  a.job.block < b.job.block || (a.job.block = b.job.block &&
    (a.order < b.order || (a.order = b.order && a.job.flow ≤ b.job.flow)))

/-- The item an engine is granted. -/
def State.choose (s : State) (g left : Nat) : Option Ready :=
  let es := s.sched.ready.filter (s.eligible g left)
  let best := fun (c : Nat) => (es.filter (·.cls = c)).foldl (fun (m : Option Ready) r =>
    match m with
    | none => some r
    | some x => if x.first r then some x else some r) none
  let share := decide (Map.get 0 g s.sched.busyExtra * 100 < s.sched.extraRes * (s.blockCycles *
    [4, 8, 8, 16, 16, 4].getD g 0))
  match best 0 with
  | some r => some r
  | none =>
    if share && g < 5 then (best 2 <|> best 1) else (best 1 <|> best 2)

/-- Is the opcode a long operation (R407)? -/
def isLong (opcode : Nat) : Bool :=
  [0x10, 0x20, 0x28, 0x30, 0x31, 0x32, 0x40, 0x41, 0x48, 0x50, 0x68].contains opcode

/-- A QUEUED long operation is RUNNING from its first engine grant on (R410). -/
def Cmd.runs (flow : Nat) (c : Cmd) : Cmd :=
  if isLong c.opcode && c.started && !c.final && c.state = .queued && 0x3000 + c.slot = flow then { c with state := .running } else c

/-- The operation of a flow has been granted an engine. -/
def State.opRuns (s : State) (flow : Nat) : State :=
  { s with seats := s.seats.map (fun q => (q.1, { q.2 with cmds := q.2.cmds.map (Cmd.runs flow) })) }

/-- An engine is granted an item that has waited `wait` render cycles. -/
def State.grant (s : State) (engine wait : Nat) (r : Ready) : State :=
  let s := s.setReady (s.sched.ready.filter (fun x => x.job.flow ≠ r.job.flow))
  let v : Service := { engine := engine, cls := r.cls, job := r.job, lead := s.sched.leadPhase }
  let s := { s with sched := { s.sched with
    service := s.sched.service ++ [v], stalled := s.sched.stalled.filter (· ≠ engine) } }
  let s := if r.job.kind = .opStep then s.opRuns r.job.flow else s
  let s := if r.cls = 0 then s.peak .ringmaster Reg.Ringmaster.LEAD_WAIT_PEAK wait else s
  s.count .ringmaster Reg.Ringmaster.GRANTS

/-- An engine asks (R375): `left` render cycles remain before the next release, and an item that it is
granted has waited `wait` cycles. Without an eligible item it stalls until one comes (R27). -/
def State.ask (s : State) (engine left wait : Nat) : State :=
  match engineGroup engine with
  | none => s
  | some g =>
    if s.sched.service.any (·.engine = engine) then s
    else
      match s.choose g left with
      | none => { s with sched := { s.sched with stalled := s.sched.stalled.filter (· ≠ engine) ++ [engine] } }
      | some r => s.grant engine wait r

/-- Render cycles that remain at least before the next release, as far as the strobes tell (R376); while no render runs
none comes. -/
def State.cyclesLeft (s : State) : Nat :=
  let B := s.blockSize
  if !s.running then 2 ^ 32
  else if s.render.released && s.render.rsi / B = s.render.block + 1 then
    (B - 1 - s.render.rsi % B) * (s.blockCycles / B) + 24000 * (s.blockCycles / B) * s.rateMul / 25000
  else 0

/-- Engines that stall are granted what has become eligible, in the order in which they asked (R27, R375). -/
def State.dispatch (s : State) : State :=
  s.sched.stalled.foldl (fun s e =>
    match engineGroup e with
    | none => s
    | some g => match s.choose g s.cyclesLeft with
      | none => s
      | some r => s.grant e 0 r) s

/-! Jobs in service -/

/-- Has a job been granted and not yet retired (R27)? `slice` tells the jobs of one flow apart. -/
def State.granted (s : State) (k : JobKind) (flow b : Nat) (slice : Nat := 0) : Bool :=
  s.sched.service.any (fun v => v.job = { kind := k, flow := flow, block := b, slice := slice })

/-- The same for a job that belongs to no block. -/
def State.serving (s : State) (k : JobKind) (flow : Nat) : Bool :=
  s.sched.service.any (fun v => v.job.kind = k && v.job.flow = flow)

/-- A job in service that runs once in its block: `key` names it (PathStage.jobs), `b` is its block. -/
def State.once (s : State) (k : JobKind) (flow key b : Nat) (f : State → State) : State :=
  if s.granted k flow b && s.render.released && b ≤ s.render.block && Map.get 0 key s.paths.jobs ≤ b then
    f { s with paths := { s.paths with jobs := s.paths.jobs.put 0 key (b + 1) } }
  else s

end Sys2Proof.Machine
end

