-- ==== Sys2Proof/Machine/Commands.lean ====
section
/-! DEFINITION. Commands in flight: their completions, long operations, buffers and data sources
(R400 to R413). -/

namespace Sys2Proof.Machine

open Sys2Proof

/-! Status codes (R403) -/

namespace Status

def ok : Nat := 0x00
def absentUnit : Nat := 0x01
def notOwner : Nat := 0x02
def badParam : Nat := 0x03
def rateMismatch : Nat := 0x04
def noCapacity : Nat := 0x05
def cancelled : Nat := 0x06
def suspended : Nat := 0x07
def resetAborted : Nat := 0x08
def journalInvalid : Nat := 0x09
def busy : Nat := 0x0A
def timeout : Nat := 0x0B
def authFail : Nat := 0x0C
def degraded : Nat := 0x0D
def notPrincipal : Nat := 0x0E

end Status

/-! Seats and their commands -/

def State.seat (s : State) (n : Nat) : SeatState := Map.get ({} : SeatState) n s.seats

/-- Replace a seat; STATUS.IN_FLIGHT follows (R397, R400). -/
def State.setSeat (s : State) (n : Nat) (v : SeatState) : State :=
  { s with seats := s.seats.put {} n v }.set (.seat n) Reg.Seat.STATUS_IN_FLIGHT v.flight

/-- The command of a seat with a tag, if it is in flight. -/
def State.cmdOf (s : State) (seat tag : Nat) : Option Cmd :=
  (s.seat seat).cmds.find? (fun c => c.tag = tag && !c.bad)

/-- Replace a command of a seat. -/
def State.setCmd (s : State) (c : Cmd) : State :=
  let q := s.seat c.seat
  s.setSeat c.seat { q with cmds := q.cmds.map (fun d => if d.tag = c.tag && !d.bad then c else d) }

/-- A parameter word, 0 when absent. -/
def Cmd.p (c : Cmd) (k : Nat) : Word := c.params.getD k 0#32

/-- A parameter as a number. -/
def Cmd.n (c : Cmd) (k : Nat) : Nat := (c.p k).toNat

/-- Opcode flag Fk (R401). -/
def Cmd.flag (c : Cmd) (k : Nat) : Bool := c.word0.getLsbD (10 + k)

/-- KEEP_PARTIAL of the entry. -/
def Cmd.keep (c : Cmd) : Bool := c.word0.getLsbD 9

/-- FENCE of the entry. -/
def Cmd.fence (c : Cmd) : Bool := c.word0.getLsbD 8

/-- The completion queue of a submission queue (R397). -/
def State.cqOf (s : State) (seat sq : Nat) : Nat := s.fld (.seat seat) (Reg.Seat.SQ_CQ sq)

/-- Add a completion to those waiting to be written (R402). -/
def State.post (s : State) (c : Cmd) (status r0 r1 : Nat) (interim : Bool) : State :=
  let q := s.seat c.seat
  if bootTag ≤ c.tag then s
  else s.setSeat c.seat { q with done := q.done ++ [{
    cq := s.cqOf c.seat c.sq, sq := c.sq, tag := c.tag, context := c.context, status := status,
    r0 := BitVec.ofNat 32 r0, r1 := BitVec.ofNat 32 r1, interim := interim, dup := c.bad }] }

/-- The working memory of a command goes back to the general pool (R38). -/
def State.freePool (s : State) (seat tag : Nat) : State :=
  { s with pool := { s.pool with taken := s.pool.taken.filter (fun t => t.1 ≠ seat || t.2.1 ≠ tag) } }

/-- A command ends: its final completion is made and its working memory goes back (R401, R410). -/
def State.finish1 (s : State) (seat tag status r0 r1 : Nat) : State :=
  match s.cmdOf seat tag with
  | none => s
  | some c =>
    if c.final then s
    else if bootTag ≤ tag then
      let q := s.seat seat
      let s := s.setSeat seat { q with cmds := q.cmds.filter (·.tag ≠ tag) }
      { s.freePool seat tag with boot := if tag = bootTag then { s.boot with result := some status } else s.boot }
    else
      let s := s.post c status r0 r1 false
      (s.setCmd { c with started := true, final := true, waiters := [], bytes := [], work := [] }).freePool seat tag

/-- As above, and the controlling commands that wait for its end complete (R412). -/
def State.finish (s : State) (seat tag status : Nat) (r0 r1 : Nat := 0) : State :=
  let ws := ((s.cmdOf seat tag).map (·.waiters)).getD []
  ws.foldl (fun s w => s.finish1 w.1 w.2 Status.ok 0 0) (s.finish1 seat tag status r0 r1)

/-- A long operation passes its checking step: its acceptance is written (R410). -/
def State.accept (s : State) (seat tag : Nat) (r0 r1 : Nat := 0) : State :=
  match s.cmdOf seat tag with
  | some c => if c.accepted then s else (s.post c Status.ok r0 r1 true).setCmd { c with accepted := true }
  | none => s

/-- Has a command retired: completion or acceptance written (R401)? -/
def SeatState.retired (q : SeatState) (c : Cmd) : Bool :=
  c.accepted && !(q.done.any (fun d => d.tag = c.tag && d.interim))

/-- The commands of a seat that were fetched before one, in order. -/
def SeatState.before (q : SeatState) (tag : Nat) : List Cmd :=
  q.cmds.takeWhile (fun c => c.tag ≠ tag || c.bad)

/-- May the command start: earlier commands of its queue have started, and under FENCE retired
(R401)? -/
def State.mayStart (s : State) (c : Cmd) : Bool :=
  let q := s.seat c.seat
  let earlier := (q.before c.tag).filter (fun d => d.sq = c.sq)
  earlier.all (fun d => d.started || d.final) && (!c.fence || earlier.all q.retired)

/-- Does the COMMAND job of the command's seat run (R28)? A command of the default configuration belongs to no seat's
flow. -/
def State.commandGranted (s : State) (c : Cmd) : Bool := bootTag ≤ c.tag || s.serving .command (0x3800 + c.seat)

/-- Run the opcode of a command in flight that has not started: `f` is what the opcode does. -/
def State.command (s : State) (seat tag opcode : Nat) (f : Cmd → State → State) : State :=
  match s.cmdOf seat tag with
  | some c =>
    if c.opcode = opcode ∧ !c.started ∧ !c.final ∧ s.mayStart c ∧ s.commandGranted c then
      let c := { c with started := true }
      (f c (s.setCmd c)).dispatch
    else s
  | none => s

/-- An opcode only the house seat may issue (R407). -/
def houseOnly (f : Cmd → State → State) (c : Cmd) (s : State) : State :=
  if c.seat = 0 then f c s else s.finish c.seat c.tag Status.notOwner

/-- The long-operation slots in use (R374): there are 512, as many as commands in flight (R400). -/
def State.slotsUsed (s : State) : List Nat :=
  s.seats.flatMap (fun q => (q.2.cmds.filter (fun c => isLong c.opcode && c.started && !c.final)).map (·.slot))

def State.freeSlot (s : State) : Nat :=
  ((List.range 512).find? (fun k => !s.slotsUsed.contains k)).getD 0

/-- A long operation is QUEUED with its slot until its first engine grant (R410). -/
def State.begin_ (s : State) (c : Cmd) (work : List Nat := []) : State :=
  let k := s.freeSlot
  (s.setCmd { c with work := work, slot := k }).pushReady 2
    { kind := .opStep, flow := 0x3000 + k, block := s.render.block }

/-- A step ends. A suspension asked for takes effect at this boundary (R410, R412). -/
def State.stepped (s : State) (seat tag : Nat) : State :=
  match s.cmdOf seat tag with
  | none => s
  | some c =>
    if c.final then s
    else
      let c := { c with steps := c.steps + 1 }
      if c.suspend then
        -- An OP_CANCEL that waits too waits on for the end.
        let (ends, ws) := c.waiters.partition (fun w => (s.cmdOf w.1 w.2).any (·.opcode = 0x72))
        let s := (s.setCmd { c with state := .suspended, suspend := false, waiters := ends }).post c
          Status.suspended 0 0 true
        ws.foldl (fun s w => s.finish1 w.1 w.2 Status.ok 0 0) s
      else s.setCmd c

/-! The general pool (R36, R38, R406) -/

/-- Bytes of the general pool: what R36 leaves, less what buffers and operations hold. The pool's
size is DRAMC.POOL_SIZE, in MiB. -/
def State.poolFree (s : State) : Nat :=
  let size := s.fld .dramc Reg.Dramc.POOL_SIZE * 2 ^ 20
  let held := s.pool.bufs.foldl (fun a e => a + e.2.size) 0 + s.pool.taken.foldl (fun a t => a + t.2.2) 0
  size - held

/-- Take working memory for a command (R38). -/
def State.takePool (s : State) (seat tag bytes : Nat) : Option State :=
  if bytes ≤ s.poolFree then
    some { s with pool := { s.pool with taken := (seat, tag, bytes) :: s.pool.taken } }
  else none

/-- Allocate a buffer; its handle (R406). -/
def State.newBuffer (s : State) (seat size : Nat) : Option (Nat × State) :=
  if s.poolFree < size then none
  else
    let h := (s.pool.handle + 1) % 2 ^ 32
    let h := if h = 0 then 1 else h
    some (h, { s with pool := { s.pool with handle := h, bufs := s.pool.bufs.put {} h { seat := seat, size := size } } })

def State.buffer (s : State) (h : Nat) : Option Buffer :=
  if s.pool.bufs.any (·.1 = h) then some (Map.get ({} : Buffer) h s.pool.bufs) else none

/-- Write bytes into a buffer from an offset. -/
def State.bufWrite (s : State) (h off : Nat) (bs : List Byte) : State :=
  match s.buffer h with
  | none => s
  | some b =>
    let data := (bs.zipIdx.filter (fun e => off + e.2 < b.size)).foldl
      (fun (m : Map Byte) (e : Byte × Nat) => m.put 0#8 (off + e.2) e.1) b.data
    { s with pool := { s.pool with bufs := s.pool.bufs.put {} h { b with data := data } } }

/-- Bytes of a buffer. -/
def Buffer.read (b : Buffer) (off n : Nat) : List Byte :=
  (List.range n).map (fun k => Map.get 0#8 (off + k) b.data)

/-- Write words, little-endian. -/
def State.bufWords (s : State) (h off : Nat) (ws : List Word) : State := s.bufWrite h off (ws.flatMap bytesOf)

/-- Release a buffer. -/
def State.freeBuffer (s : State) (h : Nat) : State :=
  { s with pool := { s.pool with bufs := s.pool.bufs.put {} h {} } }

/-- Write bytes to host memory. -/
def State.hostWriteBytes (s : State) (seat addr : Nat) (bs : List Byte) : State :=
  { s with hostMem := bs.zipIdx.foldl (fun (m : Map Byte) (e : Byte × Nat) => m.put 0#8 (2 ^ 64 * seat + addr + e.2) e.1) s.hostMem }

/-- A principal joined to a peer, or joining one, forwards what its loads install (R488). -/
def State.forwardFile (s : State) (c : Cmd) (bs : List Byte) : State :=
  let st := s.fld .twin Reg.Twin.STATE
  if 2 ≤ st ∧ st ≤ 4 ∧ s.bit .ndodom Reg.Ndodom.STATUS_LINK then
    { s with twin := { s.twin with out := s.twin.out ++ [.file c.seat c.tag c.opcode c.word0 c.params bs] } }
  else s

/-! The transmit queues of the Ethernet ports (R320) -/

def State.eth (s : State) (p : Nat) : EthPort := Map.get ({} : EthPort) p s.net.ports

def State.setEth (s : State) (p : Nat) (e : EthPort) : State :=
  { s with net := { s.net with ports := s.net.ports.put ({} : EthPort) p e } }

def State.hasEth (s : State) (p : Nat) : Bool := p < s.model.eths

def State.queueUse (s : State) (p q : Nat) : Nat := s.fld (.ethMac p) (Reg.EthMac.QUEUE_USE q)

def EthPort.queue (e : EthPort) (q : Nat) : List TxFrame := Map.get [] q e.queues

def EthPort.setQueue (e : EthPort) (q : Nat) (l : List TxFrame) : EthPort := { e with queues := e.queues.put [] q l }

/-- A frame joins a queue. -/
def State.enqueue (s : State) (p q : Nat) (f : TxFrame) : State :=
  let e := s.eth p
  s.setEth p (e.setQueue q (e.queue q ++ [f]))

/-- The lowest-numbered queue of use CONTROL. -/
def State.controlQueue (s : State) (p : Nat) : Option Nat := (List.range 8).find? (fun q => s.queueUse p q = 1)

/-! Stagedoor messages of the module (R419, R423) -/

/-- Is the seat bound to Stagedoor? -/
def State.isStagedoor (s : State) (seat : Nat) : Bool := s.fld (.seat seat) Reg.Seat.BIND_KIND = 3

/-- Number a COMPLETE (4) or EVENT (5) message and put it among the outstanding ones. -/
def SdState.number (d : SdState) (type : Nat) (payload : List Word) (tick : Nat) : SdState :=
  let m : SdMessage := { type := type, seq := d.txSeq + 1, payload := payload, sentAt := tick }
  { d with txSeq := d.txSeq + 1, unacked := d.unacked ++ [m] }

/-- A message of the module goes to a CONTROL queue of the seat's port; its ACK is the highest sequence
received in order, or another that the message calls for (R418, R419). -/
def State.sdFrame (s : State) (seat type flags seq : Nat) (payload : List Word) (ack : Option Nat := none) : State :=
  let p := s.fld (.seat seat) Reg.Seat.BIND_INDEX
  let d := (s.seat seat).sd
  match s.controlQueue p with
  | some q =>
    if s.hasEth p then
      s.enqueue p q { len := 86 + 4 * payload.length,
                      body := .stagedoor seat type flags seq (ack.getD d.inOrder) d.session payload }
    else s
  | none => s

/-- A COMPLETE or EVENT message is numbered and sent. -/
def State.sdPut (s : State) (seat type : Nat) (payload : List Word) : State :=
  let q := s.seat seat
  let d := q.sd.number type payload s.render.tick
  (s.setSeat seat { q with sd := d }).sdFrame seat type 0 d.txSeq payload

/-- Queue a COMPLETE or EVENT message: at most 64 are outstanding, later ones wait, and all wait while
the seat sleeps (R423, R462). Without a session nothing is sent. -/
def State.sdSend (s : State) (seat type : Nat) (payload : List Word) : State :=
  let q := s.seat seat
  let d := q.sd
  if d.session = 0 then s
  else if d.unacked.length < 64 && d.waiting.isEmpty && !s.bit (.seat seat) Reg.Seat.STATUS_SLEEP_ACK then
    s.sdPut seat type payload
  else s.setSeat seat { q with sd := { d with waiting := d.waiting ++ [(type, payload)] } }

/-- An EVENT record: kind 1 DOORBELL, 2 EXCEPTION, 3 NONAUDIO, and its body (R424). -/
def State.sdEvent (s : State) (seat kind : Nat) (body : List Word) : State :=
  s.sdSend seat 5 (BitVec.ofNat 32 (kind + (4 + 4 * body.length) * 2 ^ 16) :: body)

/-- Waiting messages take the places that are free. -/
def State.sdFlush (s : State) (seat : Nat) : State :=
  let q := s.seat seat
  let n := 64 - q.sd.unacked.length
  if s.bit (.seat seat) Reg.Seat.STATUS_SLEEP_ACK then s
  else
    let s := s.setSeat seat { q with sd := { q.sd with waiting := q.sd.waiting.drop n } }
    (q.sd.waiting.take n).foldl (fun s m => s.sdPut seat m.1 m.2) s

/-! Data sources and destinations (R405) -/

/-- The source descriptor at parameter `k`: its kind and length, and the fault of the descriptor
itself if it has one. -/
def State.sourceFault (s : State) (c : Cmd) (k : Nat) : Option Nat :=
  let kind := c.n k % 4
  if c.n k / 4 ≠ 0 ∨ c.n (k + 3) % 4 ≠ 0 then some Status.badParam
  else match kind with
    | 0 => if s.isStagedoor c.seat && c.tag < bootTag then some Status.badParam else none
    | 1 =>
      match s.buffer (c.n (k + 1)) with
      | none => some Status.badParam
      | some b =>
        if c.seat ≠ 0 ∧ b.seat ≠ c.seat then some Status.notOwner
        else if b.size < c.n (k + 2) + c.n (k + 3) then some Status.badParam else none
    | 2 => if s.isStagedoor c.seat then none else some Status.badParam
    | _ => some Status.badParam

/-- The bytes of a source: host bytes come with the step that reads them, buffer bytes from the pool,
upload bytes once all have arrived (none: still waiting). -/
def State.sourceBytes (s : State) (c : Cmd) (k : Nat) (host : List Byte) : Option (List Byte) :=
  let len := c.n (k + 3)
  match c.n k % 4 with
  | 0 => some ((List.range len).map (fun j => host.getD j 0#8))
  | 1 => (s.buffer (c.n (k + 1))).map (fun b => b.read (c.n (k + 2)) len)
  | _ =>
    let bs := (List.range len).map (fun j => Map.get none j c.upload)
    if bs.all (·.isSome) then some (bs.map (·.getD 0#8)) else none

/-- The FETCH step of a long operation: its file is staged; an UPLOAD waits until it is whole. -/
def State.fetchStep (s : State) (c : Cmd) (k : Nat) (host : List Byte) : State :=
  match s.sourceBytes c k host with
  | some bs => (s.setCmd { c with bytes := bs }).stepped c.seat c.tag
  | none => s

/-- Start a long operation that stages the file of the SRC at `k`: the descriptor is checked and the
staging taken from the general pool (R38, R405). -/
def State.startLoad (s : State) (c : Cmd) (k : Nat) : State :=
  match s.sourceFault c k with
  | some e => s.finish c.seat c.tag e
  | none =>
    match s.takePool c.seat c.tag (c.n (k + 3)) with
    | none => s.finish c.seat c.tag Status.noCapacity
    | some s => s.begin_ c

/-- Write out data to a destination descriptor at `k` (R405): host memory, or a buffer, allocated
when its handle is 0. The answer names the buffer. -/
def State.writeDst (s : State) (c : Cmd) (k : Nat) (bs : List Byte) : Option (Nat × State) :=
  let off := c.n (k + 2)
  match c.n k % 4 with
  | 0 => some (0, s.hostWriteBytes c.seat (c.n (k + 1) + 2 ^ 32 * off) bs)
  | 1 =>
    if c.n (k + 1) = 0 then
      (s.newBuffer c.seat bs.length).map (fun (h, s) => (h, s.bufWrite h 0 bs))
    else some (c.n (k + 1), s.bufWrite (c.n (k + 1)) off bs)
  | _ => none

/-- The last write of an operation that set memory aside for its answer when it began: the place is there (R38). -/
def State.writeHeld (s : State) (c : Cmd) (k : Nat) (bs : List Byte) : Option (Nat × State) :=
  (s.freePool c.seat c.tag).writeDst c k bs

/-- The fault of a destination descriptor. -/
def State.dstFault (s : State) (c : Cmd) (k : Nat) : Option Nat :=
  match c.n k % 4 with
  | 0 => if s.isStagedoor c.seat || c.n (k + 3) % 4 ≠ 0 then some Status.badParam else none
  | 1 =>
    if c.n (k + 1) = 0 then none
    else match s.buffer (c.n (k + 1)) with
      | none => some Status.badParam
      | some b =>
        if c.seat ≠ 0 ∧ b.seat ≠ c.seat then some Status.notOwner
        else if b.size < c.n (k + 2) + c.n (k + 3) then some Status.badParam else none
  | _ => some Status.badParam

end Sys2Proof.Machine
end

