-- ==== Sys2Proof/Machine/Motion.lean ====
section
/-! DEFINITION. Trapeze motion programs (R95 to R115): decoding, the instructions, the evaluation of
a block, the motion commands. -/

namespace Sys2Proof.Machine

open Sys2Proof

/-- A decoded motion instruction (R105). -/
inductive TrapInstr where
  | halt (notify : Bool)
  | hold (d : Nat)
  | move (p : V3) (d : Nat) (smooth : Bool)
  | curve (p t0 t1 : V3) (d : Nat)
  | orbit (plane : Nat) (c : V3) (omega climb : Int) (d : Nat)
  | jitter (amp : V3) (interval : Nat)
  | waitRsi (target : Nat)
  | waitTai (ns : Nat)
  | waitFlag (k : Nat) (clear : Bool)
  | seed (s : Word)
  | origin (p : V3)
  | timescale (q : Nat)
  | loop (count : Nat)
  | endl
  | jump (offset : Int)
  | event (code : Nat)
  deriving DecidableEq, Repr

/-- A signed Q16.16 operand. -/
def q16 (w : Word) : Int := signed 32 w.toNat

/-- The instruction at word `a` of `mem`, with the words it takes; none where the word is no valid
instruction start: a reserved opcode, a wrong NOPS, a reserved bit, a negative duration or
amplitude, a parameter out of range (R105, R107, R109, R112). -/
def trapDecode (mem : Map Word) (a : Nat) : Option (TrapInstr × Nat) :=
  let at_ := fun k => Map.get 0#32 (a + k) mem
  let w := at_ 0
  let op := bitsOf w 31 26
  let nops := bitsOf w 25 22
  let mode := bitsOf w 21 16
  let imm := bitsOf w 15 0
  let v := fun k => V3.mk (q16 (at_ k)) (q16 (at_ (k + 1))) (q16 (at_ (k + 2)))
  let dur := fun k => (at_ k).toNat
  let ok := fun (c : Bool) (i : TrapInstr) => if c then some (i, nops + 1) else none
  match op with
  | 0x00 => ok (nops = 0 && mode < 2 && imm = 0) (.halt (mode = 1))
  | 0x01 => ok (nops = 1 && mode = 0 && imm = 0 && dur 1 < 2 ^ 31) (.hold (dur 1))
  | 0x02 => ok (nops = 4 && mode < 2 && imm = 0 && dur 4 < 2 ^ 31) (.move (v 1) (dur 4) (mode = 1))
  | 0x03 => ok (nops = 10 && mode = 0 && imm = 0 && dur 10 < 2 ^ 31) (.curve (v 1) (v 4) (v 7) (dur 10))
  | 0x04 => ok (nops = 6 && mode < 3 && imm = 0 && dur 6 < 2 ^ 31)
      (.orbit mode (v 1) (q16 (at_ 4)) (q16 (at_ 5)) (dur 6))
  | 0x05 => ok (nops = 4 && mode = 0 && imm = 0 && dur 1 < 2 ^ 31 && dur 2 < 2 ^ 31 && dur 3 < 2 ^ 31
      && 0x28F ≤ dur 4 && dur 4 < 2 ^ 31) (.jitter (v 1) (dur 4))
  | 0x06 =>
    if mode = 0 then ok (nops = 2 && imm = 0) (.waitRsi ((at_ 1).toNat + 2 ^ 32 * (at_ 2).toNat))
    else ok (nops = 3 && mode = 1 && imm = 0)
      (.waitTai (((at_ 1).toNat + 2 ^ 32 * (at_ 2).toNat) * 10 ^ 9 + (at_ 3).toNat))
  | 0x07 => ok (nops = 0 && mode < 2 && imm < 8) (.waitFlag imm (mode = 1))
  | 0x08 =>
    match imm with
    | 0 => ok (nops = 1 && mode = 0) (.seed (at_ 1))
    | 1 => ok (nops = 3 && mode = 0) (.origin (v 1))
    | 2 => ok (nops = 1 && mode = 0 && 0x100 ≤ dur 1 && dur 1 ≤ 0x1000000) (.timescale (dur 1))
    | _ => none
  | 0x09 => ok (nops = 0 && mode = 0) (.loop imm)
  | 0x0A => ok (nops = 0 && mode = 0 && imm = 0) .endl
  | 0x0B => ok (nops = 0 && mode = 0) (.jump (signed 16 imm))
  | 0x0C => ok (nops = 0 && mode = 0 && imm < 0xFF) (.event imm)
  | _ => none

/-! Vectors -/

def V3.add (a b : V3) : V3 := ⟨a.x + b.x, a.y + b.y, a.z + b.z⟩
def V3.sub (a b : V3) : V3 := ⟨a.x - b.x, a.y - b.y, a.z - b.z⟩
def V3.map (f : Int → Int) (a : V3) : V3 := ⟨f a.x, f a.y, f a.z⟩
def V3.map2 (f : Int → Int → Int) (a b : V3) : V3 := ⟨f a.x b.x, f a.y b.y, f a.z b.z⟩

/-- Positions saturate at the limits of R93 (R108). -/
def V3.sat (a : V3) : V3 := a.map (clampInt (-(2 ^ 31)) (2 ^ 31 - 1))

/-- The straight line from `a` to `b` at k / n (R96, R98). -/
def V3.lerp (a b : V3) (k n : Nat) : V3 :=
  if n = 0 then b else a.map2 (fun p q => p + roundOpen ((q - p) * k) n) b

/-- A position ramp at sample `i` (R96). -/
def PosRamp.at_ (r : PosRamp) (i : Nat) : V3 := r.from_.lerp r.to_ (min (i - r.start) r.n) r.n

/-! Segments -/

/-- A duration in samples: floor(d × TIMESCALE × f_s + 0.5) (R102). -/
def durSamples (fs scale d : Nat) : Nat := (2 * d * scale * fs + 2 ^ 32) / 2 ^ 33

/-- A turn in a plane: exact at multiples of 90 degrees. -/
def turn (d1 d2 num den : Int) : Int × Int :=
  if d1 = 0 ∧ d2 = 0 then (0, 0)
  else if num % (360 * den) = 0 then (d1, d2)
  else if num % (360 * den) = 90 * den then (-d2, d1)
  else if num % (360 * den) = 180 * den then (-d1, -d2)
  else if num % (360 * den) = 270 * den then (d2, -d1)
  else rotateBy d1 d2 num den

/-- The position of a segment `k` samples after its start (R106). -/
def Segment.pos (g : Segment) (fs k : Nat) : V3 :=
  let n : Int := g.n
  let k : Int := (min k g.n : Nat)
  match g.kind with
  | .hold | .waitTime _ | .waitFlag _ _ => g.p0
  | .move p1 smooth =>
    if g.n = 0 then p1
    else if smooth then g.p0.map2 (fun a b => a + roundOpen ((b - a) * (3 * k ^ 2 * n - 2 * k ^ 3)) (n ^ 3)) p1
    else g.p0.map2 (fun a b => a + roundOpen ((b - a) * k) n) p1
  | .curve p1 t0 t1 =>
    if g.n = 0 then p1
    else
      let f := fun (a b u w : Int) =>
        roundOpen (((2 * k ^ 3 - 3 * k ^ 2 * n + n ^ 3) * a + (3 * k ^ 2 * n - 2 * k ^ 3) * b) * fs
          + ((k ^ 3 - 2 * k ^ 2 * n + k * n ^ 2) * u + (k ^ 3 - k ^ 2 * n) * w) * n) (n ^ 3 * fs)
      ⟨f g.p0.x p1.x t0.x t1.x, f g.p0.y p1.y t0.y t1.y, f g.p0.z p1.z t0.z t1.z⟩
  | .orbit plane c omega climb =>
    let w := fun (a : Int) => a + roundOpen (climb * k) fs
    let t := fun (d1 d2 : Int) => turn d1 d2 (omega * k) (65536 * fs)
    match plane with
    | 0 =>
      let (e1, e2) := t (g.p0.y - c.y) (g.p0.x - c.x)
      ⟨c.x + e2, c.y + e1, w g.p0.z⟩
    | 1 =>
      let (e1, e2) := t (g.p0.y - c.y) (g.p0.z - c.z)
      ⟨w g.p0.x, c.y + e1, c.z + e2⟩
    | _ =>
      let (e1, e2) := t (g.p0.x - c.x) (g.p0.z - c.z)
      ⟨c.x + e1, w g.p0.y, c.z + e2⟩

/-- Where the segment ends, if that is known: `now` is the first sample of the block under
evaluation and `flags` the motion flags latched there (R102, R106). -/
def Segment.endAt (g : Segment) (now flags : Nat) : Option Nat :=
  match g.kind with
  | .waitTime target => some (max g.s0 target)
  | .waitFlag k _ => if g.s0 ≤ now ∧ flags.testBit k then some now else none
  | _ => some (g.s0 + g.n)

/-! Jitter overlay (R109) -/

/-- The overlay at sample `i`: a smooth glide. -/
def Jitter.at_ (j : Jitter) (i : Nat) : V3 :=
  if !j.on then {}
  else
    let n : Int := j.n
    let k : Int := (min (i - j.start) j.n : Nat)
    if j.n = 0 then j.to_
    else j.from_.map2 (fun a b => a + roundOpen ((b - a) * (3 * k ^ 2 * n - 2 * k ^ 3)) (n ^ 3)) j.to_

/-- One axis: step the register 16 times and read its top 16 bits as signed Q1.15. -/
def drawAxis (amp : Int) (s : Word) : Int × Word :=
  let s := iter galois32 16 s
  (roundOpen (signed 16 (bitsOf s 31 16) * amp) (2 ^ 15), s)

/-- A new target, one axis at a time, x then y then z. -/
def drawTarget (amp : V3) (s : Word) : V3 × Word :=
  let (x, s) := drawAxis amp.x s
  let (y, s) := drawAxis amp.y s
  let (z, s) := drawAxis amp.z s
  (⟨x, y, z⟩, s)

/-- The end of a jitter interval: turn off after a closing glide, else draw the next target. -/
def Ctx.intervalEnd (c : Ctx) : Ctx :=
  let j := c.jitter
  if j.closing then { c with jitter := {} }
  else
    let (t, s) := drawTarget j.amp c.lfsr
    { c with lfsr := s, jitter := { j with start := j.start + j.n, from_ := j.to_, to_ := t } }

/-- At most `fuel` interval ends up to sample `i`. -/
def Ctx.jitterRun : Nat → Ctx → Nat → Ctx
  | 0, c, _ => c
  | fuel + 1, c, i =>
    if c.jitter.on ∧ 0 < c.jitter.n ∧ c.jitter.start + c.jitter.n ≤ i then Ctx.jitterRun fuel c.intervalEnd i else c

/-- Take every interval end up to sample `i`; only a running or waiting context draws. -/
def Ctx.jitterTo (c : Ctx) (i : Nat) : Ctx := Ctx.jitterRun (i - c.jitter.start) c i

/-- HALT, STOP and FAULT freeze the overlay at its present value. -/
def Ctx.freeze (c : Ctx) (i : Nat) : Ctx :=
  let v := c.jitter.at_ i
  { c with jitter := { c.jitter with from_ := v, to_ := v, start := i, n := 0 } }

/-! Execution -/

/-- What executing an instruction raises besides its effect on the context. -/
inductive TrapEffect where
  | none
  | program (code : Nat)
  | fault
  deriving DecidableEq, Repr

/-- The context enters FAULT with a code, holding its position (R108). -/
def Ctx.toFault (c : Ctx) (code : Nat) : Ctx × TrapEffect :=
  ({ c.freeze c.at_ with state := .fault, fault := code, seg := .none }, .fault)

/-- The region of motion program memory that holds a word; granule 0 is a region of its own
(R108, R112). -/
def Motion.regionOf (m : Motion) (a : Nat) : Option (Nat × Nat) :=
  if a < 64 then some (0, 64)
  else (m.regions.find? (fun r => r.base ≤ a ∧ a < r.base + r.words)).map (fun r => (r.base, r.words))

def inRegion (r : Option (Nat × Nat)) (a : Int) : Bool :=
  match r with
  | some (b, n) => (b : Int) ≤ a && a < (b + n : Nat)
  | none => false

/-- The context's state while its segment is in progress. -/
def SegKind.state : SegKind → CtxState
  | .waitTime _ => .waitTime
  | .waitFlag _ _ => .waitFlag
  | _ => .running

/-- Begin a segment at the sample the context has reached. -/
def Ctx.begin_ (c : Ctx) (kind : SegKind) (n : Nat) : Ctx :=
  { c with seg := some { kind := kind, s0 := c.at_, n := n, p0 := c.p }, state := kind.state }

/-- Continue at `pc` when it lies in the program's region, else FAULT with code REGION. -/
def Ctx.goto (c : Ctx) (r : Option (Nat × Nat)) (pc : Int) : Ctx × TrapEffect :=
  if inRegion r pc then ({ c with pc := pc.toNat }, .none) else c.toFault 3

/-- Execute one decoded instruction that stood at `own`, with CTX.PC already at the next one in sequence.
`taiRsi` turns a TAI time into its render sample (R106, R107). -/
def Ctx.exec1 (fs : Nat) (taiRsi : Nat → Nat) (r : Option (Nat × Nat)) (own : Nat) (c : Ctx) (i : TrapInstr) :
    Ctx × TrapEffect :=
  let go := fun (c : Ctx) => (c, TrapEffect.none)
  let dur := durSamples fs c.timescale
  match i with
  | .halt notify =>
    ({ c.freeze c.at_ with state := .halted, seg := none }, if notify then .program 0xFF else .none)
  | .hold d => go (c.begin_ .hold (dur d))
  | .move p d smooth => go (c.begin_ (.move (p.add c.origin) smooth) (dur d))
  | .curve p t0 t1 d => go (c.begin_ (.curve (p.add c.origin) t0 t1) (dur d))
  | .orbit plane ctr omega climb d => go (c.begin_ (.orbit plane (ctr.add c.origin) omega climb) (dur d))
  | .jitter amp d =>
    let c := c.jitterTo c.at_
    let now := c.jitter.at_ c.at_
    if amp = {} then
      if c.jitter.on then
        go { c with jitter :=
          { on := true, closing := true, start := c.at_, n := dur d, from_ := now, to_ := {} } }
      else go c
    else
      let (t, s) := drawTarget amp c.lfsr
      go { c with lfsr := s, jitter :=
        { on := true, amp := amp, start := c.at_, n := dur d, from_ := now, to_ := t } }
  | .waitRsi target => go (c.begin_ (.waitTime target) 0)
  | .waitTai ns => go (c.begin_ (.waitTime (taiRsi ns)) 0)
  | .waitFlag k clear => go (c.begin_ (.waitFlag k clear) 0)
  | .seed s => go { c with lfsr := if s = 0 then 1 else s }
  | .origin p => go { c with origin := p }
  | .timescale q => go { c with timescale := q }
  | .loop count =>
    if 4 ≤ c.loops.length then c.toFault 1
    else go { c with loops := (c.pc, count) :: c.loops }
  | .endl =>
    match c.loops with
    | [] => c.toFault 2
    | (a, n) :: rest =>
      if n = 0 then c.goto r a
      else if 1 < n then { c with loops := (a, n - 1) :: rest }.goto r a
      else go { c with loops := rest }
  | .jump off => c.goto r (own + off)
  | .event code => (c, .program code)

/-- Fetch, decode and execute the instruction at the program counter (R103, R108). The program's region is the one
that holds the entry of its START. -/
def Ctx.execute (m : Motion) (fs : Nat) (taiRsi : Nat → Nat) (c : Ctx) : Ctx × TrapEffect :=
  let r := m.regionOf c.entry
  let c := c.jitterTo c.at_
  if !inRegion r c.pc then c.toFault 3
  else
    match trapDecode m.mem c.pc with
    | none => c.toFault 4
    | some (i, len) =>
      if inRegion r (c.pc + len - 1 : Nat) then { c with pc := c.pc + len }.exec1 fs taiRsi r c.pc i
      else c.toFault 4

/-- The segment in progress ends at sample `e`: the context stands at its end position, which saturates (R108). -/
def Ctx.segEnd (fs : Nat) (c : Ctx) (g : Segment) (e : Nat) : Ctx :=
  { c with seg := none, at_ := e, p := (g.pos fs (e - g.s0)).sat, state := .running }

/-- What an evaluation gathers: the context, motion flags, events raised, relocations, SLIP. -/
structure TrapRun where
  ctx : Ctx
  flags : Nat
  effects : List TrapEffect := []
  relocs : List Nat := []
  slip : Bool := false
  deriving DecidableEq, Repr

/-- A MOVE or CURVE of zero duration steps the position (R99). -/
def Segment.steps (g : Segment) : Bool :=
  match g.kind with
  | .move p1 _ => g.n = 0 && decide (p1 ≠ g.p0)
  | .curve p1 _ _ => g.n = 0 && decide (p1 ≠ g.p0)
  | _ => false

/-- Evaluate a context from sample `s0` to the boundary `s1`, with `budget` instructions left
(R102, R103). `fuel` bounds the steps: each instruction ends at most one segment. -/
def TrapRun.eval (m : Motion) (fs : Nat) (taiRsi : Nat → Nat) (s0 s1 : Nat) :
    Nat → Nat → TrapRun → TrapRun
  | 0, _, r => r
  | fuel + 1, budget, r =>
    let c := r.ctx
    match c.state with
    | .idle | .halted | .fault => r
    | _ =>
      match c.seg with
      | some g =>
        match g.endAt s0 r.flags with
        | some e =>
          if e < s1 then
            let flags := match g.kind with
              | .waitFlag k true => if r.flags.testBit k then r.flags - 2 ^ k else r.flags
              | _ => r.flags
            TrapRun.eval m fs taiRsi s0 s1 fuel budget
              { r with ctx := c.segEnd fs g e, flags := flags,
                       relocs := if g.steps then r.relocs ++ [e] else r.relocs }
          else r
        | none => r
      | none =>
        match budget with
        | 0 => { r with ctx := { c with at_ := s1 }, slip := true }
        | budget + 1 =>
          let (c', e) := c.execute m fs taiRsi
          TrapRun.eval m fs taiRsi s0 s1 fuel budget { r with ctx := c', effects := r.effects ++ [e] }

/-- The trajectory position of a context at the boundary `s1`. -/
def Ctx.posAt (fs : Nat) (c : Ctx) (s1 : Nat) : V3 :=
  match c.seg with
  | some g => (g.pos fs (s1 - g.s0)).sat
  | none => c.p

end Sys2Proof.Machine
end

