-- ==== Sys2Proof/Machine/Objects.lean ====
section
/-! DEFINITION. Objects: their own processing (R83 to R90), position and the Trapeze jobs (R95 to
R115), motion flags and draining. -/

namespace Sys2Proof.Machine

open Sys2Proof

/-! Record values at a sample -/

/-- Does the object render at sample `i` (R80)? -/
def State.objActiveAt (s : State) (n i : Nat) : Bool :=
  s.fldAt (Blk.obj n).page Reg.Hdr.ENABLE i ≠ 0 && s.fldAt (.obj n) Reg.Obj.CTRL_ACTIVE i ≠ 0

/-- SOURCE of the object at sample `i`. -/
def State.objSourceAt (s : State) (n i : Nat) : Source :=
  { type := s.fldAt (.obj n) Reg.Obj.SOURCE_TYPE i, unit := s.fldAt (.obj n) Reg.Obj.SOURCE_UNIT i,
    chan := s.fldAt (.obj n) Reg.Obj.SOURCE_CHANNEL i }

/-- The gain the object is to have: GAIN, or 0 under MUTE (R87). -/
def State.objTargetAt (s : State) (n i : Nat) : Int :=
  if s.fldAt (.obj n) Reg.Obj.CTRL_MUTE i ≠ 0 then 0 else s.fldAt (.obj n) Reg.Obj.GAIN i

def State.objRampAt (s : State) (n i : Nat) : Nat := s.rampSamples (s.fldAt (.obj n) Reg.Obj.RAMP_GAIN i)

/-- POS of the object at sample `i`. -/
def State.objPosAt (s : State) (n i : Nat) : V3 :=
  ⟨signed 32 (s.fldAt (.obj n) Reg.Obj.POS_X i), signed 32 (s.fldAt (.obj n) Reg.Obj.POS_Y i),
   signed 32 (s.fldAt (.obj n) Reg.Obj.POS_Z i)⟩

/-! Input and own processing -/

/-- Activation at sample `i`: the history starts there, the gain ramps from 0 (R86). -/
def ObjEngine.activate (o : ObjEngine) (i : Nat) (src : Source) (inv : Bool) (target : Int) (n : Nat) :
    ObjEngine :=
  { o with live := true, histFrom := i, input := { cur := src }, activatedAt := some i,
           gain := ({ inv := inv } : GainStage).retarget i target n }

/-- Reactivation while draining: the gain ramps back from its present value, through the zero where the polarity has
changed (R86, R87). -/
def ObjEngine.reactivate (o : ObjEngine) (i : Nat) (inv : Bool) (target : Int) (n : Nat) : ObjEngine :=
  { o with live := true, draining := none
           gain := if o.gain.wantInv ≠ inv then o.gain.invert i inv target n else o.gain.retarget i target n }

/-- A draining object goes on to 0; a change of polarity starts a new ramp there (R87). -/
def ObjEngine.drain (o : ObjEngine) (i : Nat) (inv : Bool) (n : Nat) : ObjEngine :=
  if o.gain.wantInv = inv then o
  else { o with draining := some (zeroFrom o.gain.last i n), gain := o.gain.invert i inv 0 n }

/-- Deactivation at sample `i`: the gain ramps to 0 and draining begins (R86). -/
def ObjEngine.deactivate (o : ObjEngine) (i n : Nat) : ObjEngine :=
  { o with live := false, draining := some (zeroFrom o.gain.last i n), gain := o.gain.retarget i 0 n }

/-- A source change: the present input fades out and the new one in; an earlier fade ends at once
(R84). -/
def InputSel.change (q : InputSel) (i n : Nat) (src : Source) : InputSel :=
  if src = q.cur then q else { cur := src, old := some q.cur, start := i, n := n }

/-- The input of the object at sample `i`, mixed during a source fade (R84). -/
def State.inputAt (s : State) (q : InputSel) (i : Nat) : Int :=
  let new := s.sourceAt q.cur i
  match q.old with
  | some o => if q.n ≤ i - q.start then new else mixFade (s.sourceAt o i) new (i - q.start) q.n
  | none => new

/-- Coefficients of section `j` of object EQ set `k` (R88). -/
def Motion.objEq (m : Motion) (k j : Nat) : Int × Int × Int × Int × Int :=
  if k = 0 then eqPass else eqCoeff m.eqStore (40 * k) j

/-- A sample through the eight sections in ascending order; whether any saturated (R85). -/
def eqChain (coeff : Nat → Int × Int × Int × Int × Int) (sat : Int → Int) (n i count : Nat)
    (q : Map Section) (x : Int) : Map Section × Int × Bool :=
  (List.range count).foldl (fun (acc : Map Section × Int × Bool) j =>
    let (q, x, clip) := acc
    let (sec, y, c) := (Map.get ({} : Section) j q).step (coeff j) sat n i x
    (q.put {} j sec, y, clip || c)) (q, x, false)

/-- Take the changes of the record that apply at sample `i` (R84 to R90). -/
def State.objChangesAt (s : State) (n i : Nat) (o : ObjEngine) : ObjEngine :=
  let act := s.objActiveAt n i
  let target := s.objTargetAt n i
  let ramp := s.objRampAt n i
  let inv := s.fldAt (.obj n) Reg.Obj.CTRL_INVERT i ≠ 0
  let en := s.fldAt (.obj n) Reg.Obj.EQ_SECTION_EN i
  if !act && !o.live && o.draining.isNone then o
  else
    let o := { o with eqSet := s.fldAt (.obj n) Reg.Obj.EQ_SET i }
    if !o.live && o.draining.isNone then
      { (o.activate i (s.objSourceAt n i) inv target ramp) with sections := sectionsAt en 8 }
    else
      let o := { o with
        sections := sectionsTake o.sections en 8 i
        input := o.input.change i (s.routeFade i) (s.objSourceAt n i) }
      if act && !o.live then o.reactivate i inv target ramp
      else if !act && o.live then o.deactivate i ramp
      else if o.live then { o with gain := o.gain.follow i ramp inv target }
      else o.drain i inv ramp

/-- One render sample of an object: source, polarity, sections, gain, history (R85). The result is
the engine, the magnitude of the source sample and whether a stage saturated. The inversion of -1.0, which Q1.31 cannot
hold, saturates (DESIGN CHOICE, log entry 28). -/
def State.objSample (s : State) (n i : Nat) (o : ObjEngine) : ObjEngine × Nat × Bool :=
  let o := s.objChangesAt n i o
  if !o.live && o.draining.isNone then (o, 0, false)
  else
    let g := o.gain.tick i
    let x := s.inputAt o.input i
    let xp := if g.inv then satQ31 (-x) else x
    let (secs, y, clip) := eqChain (s.motion.objEq o.eqSet) satQ31 (96 * s.rateMul) i 8 o.sections xp
    let z := applyGain y g.last
    let z' := satQ31 z
    ({ o with gain := g, sections := secs, near := o.near.put 0 (i % 1024) z',
              far := o.far.put 0 (i % 32768) z' }, absNat x, clip || z ≠ z')

/-- The near history of an object at sample `i`; zero before the activation (R86, R157). -/
def ObjEngine.hist (o : ObjEngine) (i : Int) : Int :=
  if i < o.histFrom then 0 else Map.get 0 (i.toNat % 1024) o.near

/-- Write block `b` of an object's input into its histories (R19, R85). -/
def State.objInput (s : State) (n b : Nat) : State :=
  (s.blockSamples b).foldl (fun s i =>
    let (o, mag, clip) := s.objSample n i (s.obj n)
    let s := (s.setObj n o).peak (.obj n) Reg.Obj.PEAK mag
    let s := s.setBit (.obj n) Reg.Obj.PATHS_DRAINING o.draining.isSome
    if clip then s.objEvent n 3 else s) s

/-! The Trapeze -/

/-- The render sample of a TAI time: the first sample whose media time is at or after it (R106,
R350). -/
def State.rsiOfTime (s : State) (ns : Nat) : Nat := (ns * s.fs + 999999999) / 1000000000 - s.render.m0

/-- A context gone to IDLE; CTX.PC, CTX.LOOP_DEPTH and CTX.FAULT keep what they showed. -/
def Ctx.toIdle (c : Ctx) : Ctx := { pc := c.pc, entry := c.entry, loops := c.loops, fault := c.fault }

/-- Show a context in CTX (R81); in DIRECT mode it reads idle with PC 0 (R101). -/
def State.showCtx (s : State) (n : Nat) (c : Ctx) : State :=
  let code := match c.state with
    | .idle => 0
    | .running => 1
    | .waitTime => 2
    | .waitFlag => 3
    | .halted => 4
    | .fault => 5
  (((s.set (.obj n) Reg.Obj.CTX_STATE code).set (.obj n) Reg.Obj.CTX_LOOP_DEPTH c.loops.length).set
    (.obj n) Reg.Obj.CTX_FAULT c.fault).set (.obj n) Reg.Obj.CTX_PC c.pc

/-- Store a context of an object and show it. -/
def State.setCtx (s : State) (n : Nat) (c : Ctx) : State :=
  (s.setObj n { s.obj n with ctx := c }).showCtx n c

/-- Raise what an instruction raised (R108, R111). -/
def State.trapEffect (s : State) (n : Nat) (e : TrapEffect) : State :=
  match e with
  | .none => s
  | .program code => s.objProgramEvent n code
  | .fault => s.objEvent n 2

/-- The position P of an object at sample `i`, before saturation: its mode's trajectory, with the
overlay and the offset (R95, R109). -/
def ObjEngine.position (o : ObjEngine) (fs i : Nat) : V3 :=
  let traj := match o.ctx.state with
    | .idle => o.held
    | _ => o.ctx.posAt fs i
  match o.mode with
  | 0 => o.direct.at_ i
  | 1 => traj.add (o.ctx.jitter.at_ i)
  | _ => (traj.add (o.ctx.jitter.at_ i)).add (o.offset.at_ i)

/-- Start the context at sample `sa` from position `p` (R101). -/
def Ctx.start (n entry sa : Nat) (p : V3) : Ctx :=
  { state := .running, pc := entry, entry := entry, lfsr := BitVec.ofNat 32 (n + 1), at_ := sa, p := p }

/-- The mode in use in a block changed at its first sample `s0` (R97): the committed POS counts as a newly committed
value, which relocates where it steps (R99). -/
def State.modeChange (s : State) (n s0 mode : Nat) (o : ObjEngine) : ObjEngine :=
  if mode = o.mode then o
  else
    let np := s.rampSamples (s.fldAt (.obj n) Reg.Obj.RAMP_POS s0)
    let pos := s.objPosAt n s0
    let steps := fun (from_ : V3) => if np = 0 ∧ pos ≠ from_ then o.relocs ++ [s0] else o.relocs
    match mode with
    | 0 => { o with mode := 0, ctx := {}, held := o.pb1, relocs := steps o.pb1
                    direct := { from_ := o.pb1, to_ := pos, start := s0, n := np } }
    | 1 => { o with mode := 1, ctx := o.ctx.toIdle, held := o.pb1 }
    | m => { o with mode := m, ctx := o.ctx.toIdle, held := o.pb1, relocs := steps {}
                    offset := { from_ := {}, to_ := pos, start := s0, n := np } }

/-- New POS values that apply at sample `i` start their ramp; with no ramp they relocate (R96,
R99). -/
def State.posChange (s : State) (n i : Nat) (o : ObjEngine) : ObjEngine :=
  let pos := s.objPosAt n i
  let np := s.rampSamples (s.fldAt (.obj n) Reg.Obj.RAMP_POS i)
  let r := fun (q : PosRamp) => ({ from_ := q.at_ i, to_ := pos, start := i, n := np } : PosRamp)
  let reloc := if np = 0 then o.relocs ++ [i] else o.relocs
  match o.mode with
  | 0 => if o.direct.to_ = pos then o else { o with direct := r o.direct, relocs := reloc }
  | 1 => o
  | _ => if o.offset.to_ = pos then o else { o with offset := r o.offset, relocs := reloc }

/-- The position as R98 interpolates it: inside the block from `s0` to `s1`, where `p1` is the position at `s1`, or in
the block before it, which is already evaluated. -/
def ObjEngine.interpolated (o : ObjEngine) (s0 s1 i : Nat) (p1 : V3) : V3 :=
  let B := s1 - s0
  if i ≤ s0 then o.pb.lerp o.pb1 (i + B - s0) B else o.pb1.lerp p1 (i - s0) B

/-- Evaluate up to a sample, within what is left of the block's 16 instructions (R103). -/
def State.trapEval (s : State) (s0 stop : Nat) (r : TrapRun) : TrapRun :=
  TrapRun.eval s.motion s.fs s.rsiOfTime s0 stop 64 (16 - r.effects.length) r

/-- Take a START or STOP with apply sample `sa` (R101, R592). -/
def State.takeCmd (s : State) (n s0 s1 : Nat) (r : TrapRun) (cmd : Bool × Nat) : TrapRun :=
  let o := { s.obj n with ctx := r.ctx }
  if o.mode = 0 then r
  else
    let (start, sa) := cmd
    let old := s.trapEval s0 s1 r
    let p1 := (({ o with ctx := old.ctx.jitterTo s1 }).position s.fs s1).sat
    let p := o.interpolated s0 s1 sa p1
    let p := if o.mode = 2 then p.sub (o.offset.at_ sa) else p
    let before := s.trapEval s0 sa r
    if start then
      { before with ctx := Ctx.start n (s.fldAt (.obj n) Reg.Obj.MOTION_ENTRY sa) sa p }
    else
      let c := (before.ctx.jitterTo sa).freeze sa
      { before with ctx := { c with state := .halted, seg := none, at_ := sa,
                                    p := p.sub (c.jitter.at_ sa) } }

/-- Sets and clears latched at one boundary: a set and a clear leave the flag cleared (R110). -/
def latchOver (flags : Nat) (l : Nat × Nat × Nat) : Nat := (flags ||| l.2.1) &&& (255 - l.2.2)

/-- The motion flags of an object: what FLAGS.STATE shows, and what a block's evaluation sees at its first sample. -/
def ObjEngine.flagsNow (o : ObjEngine) : Nat := o.latches.foldl latchOver o.flagsAt
def ObjEngine.flagsIn (o : ObjEngine) (b : Nat) : Nat := (o.latches.filter (·.1 ≤ b)).foldl latchOver o.flagsAt

/-- FLAGS.STATE follows. -/
def State.showFlags (s : State) (n : Nat) : State := s.set (.obj n) Reg.Obj.FLAGS_STATE (s.obj n).flagsNow

/-- CUR shows a position. -/
def State.showCur (s : State) (n : Nat) (p : V3) : State :=
  ((s.set (.obj n) Reg.Obj.CUR_X (unsigned 32 p.x)).set (.obj n) Reg.Obj.CUR_Y (unsigned 32 p.y)).set
    (.obj n) Reg.Obj.CUR_Z (unsigned 32 p.z)

/-- The position that CUR shows. -/
def State.curPos (s : State) (n : Nat) : V3 :=
  ⟨signed 32 (s.fld (.obj n) Reg.Obj.CUR_X), signed 32 (s.fld (.obj n) Reg.Obj.CUR_Y), signed 32 (s.fld (.obj n) Reg.Obj.CUR_Z)⟩

/-- An activation at sample `i` that the Trapeze has not evaluated: a DIRECT object appears at POS, which relocates it
where that is a place other than CUR (R86, R99). -/
def State.appear (s : State) (n : Nat) (o : ObjEngine) : ObjEngine :=
  match o.activatedAt with
  | none => o
  | some i =>
    let pos := s.objPosAt n i
    if o.mode ≠ 0 then { o with activatedAt := none }
    else { o with activatedAt := none, direct := { to_ := pos, start := i }
                  relocs := if pos = s.curPos n then o.relocs else o.relocs ++ [i] }

/-- The Trapeze evaluates object `n` for block `b` (R98): the position at the next boundary. -/
def State.trapezeJob (s : State) (n b : Nat) : State :=
  let s0 := s.blockStart b
  let s1 := s0 + s.blockSize
  let o := s.appear n (s.modeChange n s0 (s.fldAt (.obj n) Reg.Obj.CTRL_MOTION_MODE s0) (s.obj n))
  let o := (s.blockSamples b).foldl (fun o i =>
    if (s.changedAt (.obj n) i).isSome then s.posChange n i o else o) o
  let s := s.setObj n o
  let now := o.cmds.filter (fun c => c.2 < s1)
  let run : TrapRun := { ctx := o.ctx, flags := o.flagsIn b }
  let run := s.trapEval s0 s1 (now.foldl (s.takeCmd n s0 s1) run)
  let ctx := run.ctx.jitterTo s1
  let ctx := if o.mode = 0 then {} else ctx
  let o := { o with ctx := ctx, cmds := o.cmds.filter (fun c => s1 ≤ c.2)
                    flagsAt := run.flags, latches := o.latches.filter (fun l => b < l.1)
                    relocs := o.relocs ++ run.relocs }
  let p := (o.position s.fs s1).sat
  let o := { o with pb := o.pb1, pb1 := p, pbAt := s1 }
  let s := (s.setObj n o).showCtx n ctx
  let s := run.effects.foldl (fun s e => s.trapEffect n e) s
  let s := if run.slip then s.objEvent n 1 else s
  (s.showFlags n).showCur n p

def execTrapezeJob (n b : Nat) (s : State) : Res := settle (s.once .trapeze n n b (·.trapezeJob n b))

/-! The instructions as steps of their own -/

/-- Execute the instruction at the context's program counter when it is one that `p` admits and no
segment is in progress (R103, R107). -/
def State.trapStep (s : State) (n : Nat) (p : TrapInstr → Bool) : State :=
  let c := (s.obj n).ctx
  if c.state = .running ∧ c.seg = none then
    match trapDecode s.motion.mem c.pc with
    | some (i, _) =>
      if p i then
        let (c, e) := c.execute s.motion s.fs s.rsiOfTime
        (s.setCtx n c).trapEffect n e
      else s
    | none => s
  else s

def execTrapezeHalt (n : Nat) (s : State) : Res :=
  settle (s.trapStep n fun | .halt _ => true | _ => false)

def execHold (n : Nat) (s : State) : Res :=
  settle (s.trapStep n fun | .hold _ => true | _ => false)

def execMove (n : Nat) (s : State) : Res :=
  settle (s.trapStep n fun | .move _ _ _ => true | _ => false)

def execCurve (n : Nat) (s : State) : Res :=
  settle (s.trapStep n fun | .curve _ _ _ _ => true | _ => false)

def execOrbit (n : Nat) (s : State) : Res :=
  settle (s.trapStep n fun | .orbit _ _ _ _ _ => true | _ => false)

def execJitter (n : Nat) (s : State) : Res :=
  settle (s.trapStep n fun | .jitter _ _ => true | _ => false)

def execWaitt (n : Nat) (s : State) : Res :=
  settle (s.trapStep n fun | .waitRsi _ => true | .waitTai _ => true | _ => false)

def execWaite (n : Nat) (s : State) : Res :=
  settle (s.trapStep n fun | .waitFlag _ _ => true | _ => false)

def execSetpSeed (n : Nat) (s : State) : Res :=
  settle (s.trapStep n fun | .seed _ => true | _ => false)

def execSetpOrigin (n : Nat) (s : State) : Res :=
  settle (s.trapStep n fun | .origin _ => true | _ => false)

def execSetpTimescale (n : Nat) (s : State) : Res :=
  settle (s.trapStep n fun | .timescale _ => true | _ => false)

def execTrapezeLoop (n : Nat) (s : State) : Res :=
  settle (s.trapStep n fun | .loop _ => true | _ => false)

def execEndl (n : Nat) (s : State) : Res :=
  settle (s.trapStep n fun | .endl => true | _ => false)

def execTrapezeJump (n : Nat) (s : State) : Res :=
  settle (s.trapStep n fun | .jump _ => true | _ => false)

def execTrapezeEvent (n : Nat) (s : State) : Res :=
  settle (s.trapStep n fun | .event _ => true | _ => false)

/-- A segment's samples have elapsed, or its wait target is reached (R102): the context stands at
the segment's end. A WAITE ends at the boundary whose latched flags show its flag. -/
def execSegmentEnd (n : Nat) (s : State) : Res :=
  let o := s.obj n
  let flags := o.flagsNow
  match o.ctx.seg with
  | some g =>
    match g.endAt s.render.rsi flags with
    | some e =>
      if e ≤ s.render.rsi then
        let s := s.setCtx n (o.ctx.segEnd s.fs g e)
        let s := if g.steps then s.setObj n { s.obj n with relocs := o.relocs ++ [e] } else s
        match g.kind with
        | .waitFlag k true =>
          settle ((s.setObj n { s.obj n with flagsAt := o.flagsNow &&& (255 - 2 ^ k), latches := [] }).showFlags n)
        | _ => settle s
      else settle s
    | none => settle s
  | none => settle s

/-- A jitter interval ends: the next target is drawn, or a closing glide turns the overlay off
(R109). -/
def execJitterIntervalEnd (n : Nat) (s : State) : Res :=
  let c := (s.obj n).ctx
  if c.jitter.on ∧ 0 < c.jitter.n ∧ c.jitter.start + c.jitter.n ≤ s.render.rsi then
    settle (s.setCtx n c.intervalEnd)
  else settle s

/-! START, STOP and motion flags -/

/-- A command of MOTION.CMD reaches the context with its apply sample (R82, R101, R592). -/
def State.motionCmd (s : State) (n : Nat) (start : Bool) (sa : Nat) : State :=
  let s := s.set (.obj n) Reg.Obj.MOTION_CMD (if start then 1 else 2)
  if s.fld (.obj n) Reg.Obj.CTRL_MOTION_MODE = 0 then s
  else s.setObj n { s.obj n with cmds := (s.obj n).cmds ++ [(start, sa)] }

def execMotionStart (n sa : Nat) (s : State) : Res := settle (s.motionCmd n true sa)

def execMotionStop (n sa : Nat) (s : State) : Res := settle (s.motionCmd n false sa)

/-- Motion flags to set and to clear, latched at the next boundary; a LOCKSTEP principal forwards them (R110). -/
def State.motionFlags (s : State) (n set clr : Nat) : State :=
  let o := s.obj n
  let s := if s.lockPri then s.tellPeer (.flags n set clr) else s
  s.setObj n { o with flagSet := o.flagSet ||| set % 256, flagClr := o.flagClr ||| clr % 256 }

def execMotionFlagsSet (n flags : Nat) (s : State) : Res := settle (s.motionFlags n flags 0)

def execMotionFlagsClr (n flags : Nat) (s : State) : Res := settle (s.motionFlags n 0 flags)

/-- At the first sample of block `b` the flag writes reach FLAGS.STATE; a set and a clear leave it cleared (R110). What
no evaluation takes within 4 blocks is folded in. -/
def State.latchFlags (s : State) (b n : Nat) : State :=
  let o := s.obj n
  if o.flagSet = 0 ∧ o.flagClr = 0 then s
  else
    let (old, new) := o.latches.partition (fun l => l.1 + 4 < b)
    (s.setObj n { o with flagsAt := old.foldl latchOver o.flagsAt, latches := new ++ [(b, o.flagSet, o.flagClr)]
                         flagSet := 0, flagClr := 0 }).showFlags n

/-- The place that an object holds while no program moves it: its last position, without the offset that goes on. -/
def ObjEngine.lastPlace (o : ObjEngine) : V3 := if o.mode = 2 then o.pb1.sub (o.offset.at_ o.pbAt) else o.pb1

/-- An object whose context the render's stop or BLOCK_RESET sends to IDLE (R115): the position is held. -/
def ObjEngine.idle (o : ObjEngine) : ObjEngine := { o with ctx := o.ctx.toIdle, held := o.lastPlace }

/-- BLOCK_RESET clears the loop stack besides (R115). -/
def ObjEngine.blockReset (o : ObjEngine) : ObjEngine :=
  let o := o.idle
  { o with ctx := { o.ctx with loops := [] } }

/-- At its boundary BLOCK_RESET clears the flags, and the commands of before it are gone; later ones stand (R115). -/
def State.resetFlags (s : State) (n i : Nat) : State :=
  let o := s.obj n
  (s.setObj n { o with cmds := o.cmds.filter (fun c => i ≤ c.2), flagSet := 0, flagClr := 0
                       latches := o.latches ++ [(i / s.blockSize, 0, 255)] }).showFlags n

end Sys2Proof.Machine
end

