-- ==== Sys2Proof/Machine/LayoutFile.lean ====
section
/-! DEFINITION. The layout file: its checks and its compiled form (R120 to R126, R594). -/

namespace Sys2Proof.Machine

open Sys2Proof

/-- The first faulty field of a list of (fault?, byte offset): the one at the lowest offset. -/
def firstFault (l : List (Bool × Nat)) : Option Nat := ((l.filter (·.1)).map (·.2)).min?

/-- A reserved field of `n` bytes holds something else than zero (log entry 8). -/
def reservedFault (f : List Byte) (off n : Nat) : Bool × Nat := (((f.drop off).take n).any (· ≠ 0), off)

/-! Counts and places of the sections -/

def layoutSpk (f : List Byte) : Nat := leAt f 0x08 2
def layoutVirt (f : List Byte) : Nat := leAt f 0x0A 2
def layoutTri (f : List Byte) : Nat := leAt f 0x0C 2
def layoutBeds (f : List Byte) : Nat := leAt f 0x0E 1
def layoutDecs (f : List Byte) : Nat := leAt f 0x0F 1

def spkOff (i : Nat) : Nat := 0x40 + 48 * i
def virtOff (f : List Byte) (v : Nat) : Nat := spkOff (layoutSpk f) + 80 * v
def triOff (f : List Byte) (t : Nat) : Nat := virtOff f (layoutVirt f) + 8 * t

/-- Offsets of the bed maps, and where the decoders begin. -/
def bedOffs (f : List Byte) : List Nat × Nat :=
  (List.range (layoutBeds f)).foldl (fun (acc : List Nat × Nat) _ =>
    (acc.1 ++ [acc.2], acc.2 + 4 + 64 * (leAt f acc.2 4 % 128))) ([], triOff f (layoutTri f))

/-- Offsets of the decoders, and where the file ends. -/
def decOffs (f : List Byte) : List Nat × Nat :=
  (List.range (layoutDecs f)).foldl (fun (acc : List Nat × Nat) _ =>
    (acc.1 ++ [acc.2], acc.2 + 4 + 68 * (leAt f acc.2 4 / 256 % 128))) ([], (bedOffs f).2)

/-! Step CHECK: header, length and CRC -/

def layoutHeaderFault (f : List Byte) : Option Nat :=
  firstFault (([(leAt f 0 4 ≠ 0x4C595446, 0), (leAt f 4 2 ≠ 1, 4), (1 < leAt f 6 2, 6),
    (layoutSpk f < 1 || 512 < layoutSpk f, 8), (64 < layoutVirt f, 0x0A),
    (layoutTri f < 4 || 2048 < layoutTri f, 0x0C), (16 < layoutBeds f, 0x0E), (4 < layoutDecs f, 0x0F),
    (16 * 65536 < leAt f 0x10 4, 0x10),
    (leAt f 0x14 4 * 10 < 65536 || 1000 * 65536 < leAt f 0x14 4, 0x14),
    (leAt f 0x18 4 * 10 < 65536 || 100 * 65536 < leAt f 0x18 4, 0x18),
    (2 < leAt f 0x1C 1, 0x1C), (leAt f 0x1D 1 < 1 || 64 < leAt f 0x1D 1, 0x1D),
    (leAt f 0x1E 1 < 1 || leAt f 0x1D 1 < leAt f 0x1E 1, 0x1E), (leAt f 0x1F 1 ≠ 0, 0x1F),
    (leAt f 0x20 2 < 256 || 180 * 256 < leAt f 0x20 2, 0x20), (leAt f 0x20 2 < leAt f 0x22 2, 0x22),
    (0x1000000 < leAt f 0x24 4, 0x24), (0x800000 < leAt f 0x28 4, 0x28), reservedFault f 0x2C 16] : List (Bool × Nat)))

def layoutCheckFault (f : List Byte) : Option Nat :=
  if f.length < 0x40 then
    (match firstFault [(leAt f 0 4 ≠ 0x4C595446, 0), (leAt f 4 2 ≠ 1, 4)] with
      | some o => some o
      | none => some f.length)
  else
    match layoutHeaderFault f with
    | some o => some o
    | none =>
      if (decOffs f).2 ≠ f.length then some (min f.length (decOffs f).2)
      else if (crcWithout f 0x3C).toNat ≠ leAt f 0x3C 4 then some 0x3C
      else none

/-! Step POINTS: loudspeaker and virtual records -/

def v3At (f : List Byte) (off : Nat) : V3 :=
  ⟨signed 32 (leAt f off 4), signed 32 (leAt f (off + 4) 4), signed 32 (leAt f (off + 8) 4)⟩

/-- AIM is neither zero nor of unit length within 2^−12 (Q2.30). -/
def aimBad (a : V3) : Bool :=
  a ≠ {} && (a.dot a < 4095 ^ 2 * 2 ^ 36 || 4097 ^ 2 * 2 ^ 36 < a.dot a)

/-- Within 0.1 m of the origin. -/
def nearOrigin (a : V3) : Bool := 100 * a.dot a ≤ 2 ^ 32

def spkAt (f : List Byte) (i : Nat) : Speaker :=
  let o := spkOff i
  { pos := v3At f o, aim := v3At f (o + 0x0C), output := leAt f (o + 0x18) 4 % 1024,
    zone := leAt f (o + 0x18) 4 / 65536 % 16, trimGain := leAt f (o + 0x1C) 4,
    trimDelay := leAt f (o + 0x20) 4 }

/-- A term of R122: target code and weight. -/
def termAt (f : List Byte) (o : Nat) : Nat × Nat := (leAt f o 2, leAt f (o + 4) 4)

def virtAt (f : List Byte) (v : Nat) : VirtualSpeaker :=
  let o := virtOff f v
  { pos := v3At f o, terms := (List.range (leAt f (o + 0x0C) 4 % 16)).map (fun k => termAt f (o + 0x10 + 8 * k)) }

/-- Do two directions lie within 0.1 degree of each other? -/
def directionsNear (a b : V3) : Bool := 0 < a.dot b && a.near b

/-- The record offsets of the vertices, in vertex order: real, then virtual. -/
def vertexRecs (f : List Byte) : List (Nat × V3 × Nat) :=
  (List.range (layoutSpk f)).map (fun i => (i, v3At f (spkOff i), spkOff i)) ++
  (List.range (layoutVirt f)).map (fun v => (0x200 + v, v3At f (virtOff f v), virtOff f v))

def layoutPointsFault (f : List Byte) : Option Nat :=
  let n := layoutSpk f
  let spk := (List.range n).flatMap (fun i =>
    let s := spkAt f i
    let o := spkOff i
    ([(nearOrigin s.pos, o), (aimBad s.aim, o + 0x0C), (511 < s.output, o + 0x18),
     (leAt f (o + 0x18) 4 ≠ s.output + 65536 * s.zone, o + 0x18),
     ((List.range i).any (fun j => (spkAt f j).output = s.output), o + 0x18),
     (0x12C000 < s.trimDelay, o + 0x20), reservedFault f (o + 0x24) 12] : List (Bool × Nat)))
  let virt := (List.range (layoutVirt f)).flatMap (fun v =>
    let o := virtOff f v
    let c := leAt f (o + 0x0C) 4
    ([(nearOrigin (v3At f o), o), (c < 1 || 8 < c, o + 0x0C)] : List (Bool × Nat)) ++
    (List.range 8).flatMap (fun k =>
      let e := o + 0x10 + 8 * k
      [((if k < c then n ≤ leAt f e 2 || leAt f (e + 2) 2 ≠ 0 else leAt f e 4 ≠ 0), e),
       (c ≤ k && leAt f (e + 4) 4 ≠ 0, e + 4)]))
  let vs := vertexRecs f
  let close := vs.flatMap (fun b =>
    [((vs.takeWhile (fun a => a.1 ≠ b.1)).any (fun a => directionsNear a.2.1 b.2.1), b.2.2)])
  firstFault (spk ++ virt ++ close)

/-! Step MESH -/

def triAt (f : List Byte) (t : Nat) : Nat × Nat × Nat :=
  let o := triOff f t
  (leAt f o 2, leAt f (o + 2) 2, leAt f (o + 4) 2)

/-- Position of a vertex code, if it exists. -/
def vertexPos (f : List Byte) (c : Nat) : Option V3 :=
  ((vertexRecs f).find? (fun v => v.1 = c)).map (fun v => v.2.1)

/-- The undirected edges of a triangle. -/
def triEdges (t : Nat × Nat × Nat) : List (Nat × Nat) :=
  let e := fun a b : Nat => (min a b, max a b)
  [e t.1 t.2.1, e t.2.1 t.2.2, e t.2.2 t.1]

def triCcw (a b c : V3) : Bool := 0 < a.det b c

def layoutMeshFault (f : List Byte) : Option Nat :=
  let ts := (List.range (layoutTri f)).map (fun t => (triAt f t, triOff f t))
  let pos := fun c => (vertexPos f c).getD {}
  let edges := ts.flatMap (fun t => triEdges t.1)
  let per := ts.flatMap (fun (t, o) =>
    [((vertexPos f t.1).isNone, o), ((vertexPos f t.2.1).isNone, o + 2), ((vertexPos f t.2.2).isNone, o + 4),
     (leAt f (o + 6) 2 ≠ 0, o + 6),
     ([t.1, t.2.1, t.2.2].all (fun c => (vertexPos f c).isSome) && !triCcw (pos t.1) (pos t.2.1) (pos t.2.2), o)])
  let unused := (vertexRecs f).map (fun v =>
    (!ts.any (fun t => t.1.1 = v.1 || t.1.2.1 = v.1 || t.1.2.2 = v.1), v.2.2))
  let closed := ts.map (fun (t, o) => ((triEdges t).any (fun e => edges.count e ≠ 2), o))
  match firstFault (per ++ unused ++ closed) with
  | some o => some o
  | none =>
    if solidAnglesClose (ts.map (fun t => (pos t.1.1, pos t.1.2.1, pos t.1.2.2))) then none
    else some (triOff f 0)

/-! Step MAPS: bed maps and decoders -/

def bedTermsAt (f : List Byte) (o : Nat) : List (Nat × Nat) :=
  ((List.range 8).map (fun k => termAt f (o + 8 * k))).filter (fun t => t.1 ≠ 0xFFFF)

def bedAt (f : List Byte) (o : Nat) : List (List (Nat × Nat)) :=
  (List.range (leAt f o 4 % 128)).map (fun c => bedTermsAt f (o + 4 + 64 * c))

def decAt (f : List Byte) (o : Nat) : Decoder :=
  { order := leAt f o 4 % 4,
    rows := (List.range (leAt f o 4 / 256 % 128)).map (fun r =>
      (leAt f (o + 4 + 68 * r) 2,
       (List.range 16).map (fun k => signed 32 (leAt f (o + 8 + 68 * r + 4 * k) 4)))) }

def layoutMapsFault (f : List Byte) : Option Nat :=
  let n := layoutSpk f
  let code := fun c => c < n || (0x200 ≤ c && c < 0x200 + layoutVirt f)
  let beds := (bedOffs f).1.flatMap (fun o =>
    let ch := leAt f o 4
    (ch < 1 || 64 < ch, o) ::
    (List.range (8 * (ch % 128))).flatMap (fun k =>
      let e := o + 4 + 8 * k
      let unused := decide (leAt f e 2 = 0xFFFF)
      [((!unused && !code (leAt f e 2)) || leAt f (e + 2) 2 ≠ 0, e), (unused && leAt f (e + 4) 4 ≠ 0, e + 4)]))
  let decs := (decOffs f).1.flatMap (fun o =>
    let h := leAt f o 4
    let order := h % 4
    let rows := h / 256 % 128
    ([(order = 0, o), (rows < 1 || 64 < rows || h ≠ order + 256 * rows, o)] : List (Bool × Nat)) ++
    (List.range rows).flatMap (fun r =>
      let e := o + 4 + 68 * r
      (n ≤ leAt f e 2 || leAt f (e + 2) 2 ≠ 0, e) ::
      (List.range 16).map (fun k => ((order + 1) ^ 2 ≤ k && leAt f (e + 4 + 4 * k) 4 ≠ 0, e + 4 + 4 * k))))
  firstFault (beds ++ decs)

/-- The compiled layout of a file that passed its checks. -/
def layoutCompile (f : List Byte) : Layout :=
  { id := BitVec.ofNat 32 (leAt f 0x3C 4), amplitude := leAt f 6 2 % 2 = 1,
    innerRadius := leAt f 0x10 4, rRef := leAt f 0x14 4, rMin := leAt f 0x18 4,
    alpha := leAt f 0x1C 1, focusMax := leAt f 0x1D 1, focusMin := leAt f 0x1E 1,
    visAngle := leAt f 0x20 2, taper := leAt f 0x22 2, gainFloor := leAt f 0x24 4,
    delayBias := leAt f 0x28 4,
    speakers := (List.range (layoutSpk f)).map (spkAt f),
    virtuals := (List.range (layoutVirt f)).map (virtAt f),
    triangles := (List.range (layoutTri f)).map (triAt f),
    beds := (bedOffs f).1.map (bedAt f), decoders := (decOffs f).1.map (decAt f) }

end Sys2Proof.Machine
end

