-- ==== Sys2Proof/Machine/Pan.lean ====
section
/-! DEFINITION. The pan laws (R136 to R147): the gains and delays an evaluation yields. -/

namespace Sys2Proof.Machine

open Sys2Proof

/-- |v| × f_s / c in units of 1/256 sample, rounded to nearest (R139). -/
def distDelay (fs c : Nat) (v : V3) : Nat :=
  (isqrt (4 * (v.dot v).toNat * (256 * fs) ^ 2) + c) / (2 * c)

/-- max(0, |p| − |l|) × f_s / c in units of 1/256 sample, rounded to nearest (R142). -/
def diffDelay (fs c : Nat) (p l : V3) : Nat :=
  let root := fun (v : V3) => isqrt ((v.dot v).toNat * 2 ^ 64)
  let d := root p - root l
  (2 * d * 256 * fs + c * 2 ^ 32) / (2 * c * 2 ^ 32)

/-- Gains by vertex code: add `g` to a code. -/
def addGain (code g : Nat) (l : Map Nat) : Map Nat := l.put 0 code (Map.get 0 code l + g)

/-! POINT -/

def Layout.vertex (l : Layout) (c : Nat) : V3 :=
  if c < 0x200 then (l.speakers[c]?.map (·.pos)).getD {} else (l.virtuals[c - 0x200]?.map (·.pos)).getD {}

/-- The components of a direction in a triangle, Q4.28. -/
def Layout.solve (l : Layout) (d : V3) (t : Nat × Nat × Nat) : List Int :=
  triangleSolve (l.vertex t.1) (l.vertex t.2.1) (l.vertex t.2.2) d

def leastOf (l : List Int) : Int := l.foldl min (l.headD 0)

/-- The triangle that holds a direction: the lowest-numbered with no negative component, else the
one whose least component is largest (R140). -/
def Layout.triangleFor (l : Layout) (d : V3) : Option ((Nat × Nat × Nat) × List Int) :=
  let all := l.triangles.map (fun t => (t, l.solve d t))
  match all.find? (fun t => t.2.all (0 ≤ ·)) with
  | some t => some t
  | none => all.foldl (fun best t =>
      match best with
      | none => some t
      | some b => if leastOf b.2 < leastOf t.2 then some t else some b) none

/-- Gains of one direction, negative components set to 0. -/
def Layout.dirGains (l : Layout) (d : V3) : Map Nat :=
  match l.triangleFor d with
  | some (t, g) =>
    let v := fun k => ((g[k]?).getD 0).toNat
    addGain t.2.2 (v 2) (addGain t.2.1 (v 1) (addGain t.1 (v 0) []))
  | none => []

/-- The object's direction: P, or +z at the origin. -/
def direction (p : V3) : V3 := if p = {} then ⟨0, 0, 65536⟩ else p

/-- The effective spread, Q8.8 degrees (R140). -/
def Layout.spread (l : Layout) (p : V3) (spread : Nat) : Nat :=
  if 0 < l.innerRadius ∧ p.dot p < (l.innerRadius : Int) ^ 2 then
    max spread (if p = {} then 180 * 256 else innerSpread p l.innerRadius)
  else spread

/-- The POINT unit gains by vertex code (R140). -/
def Layout.point (l : Layout) (p : V3) (spread : Nat) : Map Nat :=
  let d := direction p
  let s := l.spread p spread
  if s = 0 then l.dirGains d
  else
    (d :: (List.range 6).map (fun m => ringDirection d s m)).foldl (fun acc d =>
      (l.dirGains d).foldl (fun acc e => addGain e.1 e.2 acc) acc) []

/-! The final stages of R138 -/

/-- Stage 1: fold the virtual loudspeakers onto their targets. -/
def Layout.fold (l : Layout) (g : Map Nat) : Map Nat :=
  g.foldl (fun acc e =>
    if e.1 < 0x200 then addGain e.1 e.2 acc
    else
      (((l.virtuals[e.1 - 0x200]?).map (·.terms)).getD []).foldl (fun acc t =>
        addGain t.1 (roundOpen ((e.2 * t.2 : Nat) : Int) (2 ^ 28)).toNat acc) acc) []

/-- Is loudspeaker k in an admitted zone? -/
def Layout.admits (l : Layout) (mask k : Nat) : Bool :=
  match l.speakers[k]? with
  | some s => mask.testBit s.zone
  | none => false

/-- Stage 3: normalise; a single gain becomes 1 under either norm. -/
def Layout.norm (l : Layout) (g : List (Nat × Nat)) : List (Nat × Nat) :=
  match g with
  | [(k, _)] => [(k, 2 ^ 28)]
  | _ => g.map (fun e => (e.1, normalised l.amplitude (g.map (·.2)) e.2))

/-- The 64 largest gains, the lower loudspeaker number winning a tie, in loudspeaker order. -/
def cap64 (g : List (Nat × Nat)) : List (Nat × Nat) :=
  g.filter (fun e => (g.countP (fun x => e.2 < x.2 || (x.2 = e.2 && x.1 < e.1))) < 64)

/-- Events of the PAN page an evaluation raises (R128). -/
structure PanEvents where
  cap : Bool := false
  zone : Bool := false
  fill : Bool := false
  deriving DecidableEq, Repr

/-- Stage 4: floor and cap; survivors are renormalised when a gain was dropped and the law has a
stage 3. -/
def Layout.floorCap (l : Layout) (renorm : Bool) (g : List (Nat × Nat)) : List (Nat × Nat) × Bool :=
  let kept := g.filter (fun e => l.gainFloor ≤ e.2)
  let capped := cap64 kept
  (if renorm && capped.length < g.length then l.norm capped else capped, decide (64 < kept.length))

/-- Stages 2 to 5 for the gains of real loudspeakers (R138). `nearest` is the fallback of stage 2. -/
def Layout.finish (l : Layout) (mask : Nat) (fallback renorm : Bool) (nearest : List Nat)
    (dist : Nat) (g : Map Nat) : List (Nat × Nat) × PanEvents :=
  let admitted := g.filter (fun e => l.admits mask e.1 && e.2 ≠ 0)
  let any := (List.range l.speakers.length).any (l.admits mask)
  let (g, zone) :=
    if admitted.isEmpty && fallback then
      (match nearest.head? with
        | some k => ([(k, 2 ^ 28)], true)
        | none => ([], true))
    else (admitted, !any)
  let g := if renorm then l.norm g else g
  let (g, cap) := l.floorCap renorm g
  let trim := fun k => ((l.speakers[k]?).map (·.trimGain)).getD 0
  let scale := fun (a b : Nat) =>
    if b = 2 ^ 28 then a else (roundOpen ((a * b : Nat) : Int) (2 ^ 28)).toNat
  (g.map (fun e => (e.1, scale (scale e.2 dist) (trim e.1))), { cap := cap, zone := zone })

/-- The admitted loudspeaker nearest in angle to a direction, the lower number winning a tie. -/
def Layout.nearestAngle (l : Layout) (mask : Nat) (d : V3) : List Nat :=
  let c := (List.range l.speakers.length).filter (l.admits mask)
  let a := fun k => angleBetween d (l.vertex k)
  match c.foldl (fun best k =>
      match best with
      | none => some k
      | some b => if a k < a b then some k else some b) none with
  | some k => [k]
  | none => []

/-- D of R141: 1 at the origin, within R_REF, or with ALPHA 0. -/
def Layout.distance (l : Layout) (p : V3) : Nat :=
  if p = {} ∨ l.alpha = 0 ∨ p.dot p ≤ (l.rRef : Int) ^ 2 then 2 ^ 28
  else distanceFactor l.alpha l.rRef p

/-! DISTANCE -/

/-- v_k of R141, Q4.28. -/
def Layout.visibility (l : Layout) (p : V3) (s : Speaker) : Nat :=
  if p = s.pos then 2 ^ 28
  else
    let aim := if s.aim = {} then s.pos.map (fun x => -x) else s.aim
    let phi := angleBetween (s.pos.sub p) aim
    let vis := l.visAngle * 2 ^ 40
    let taper := l.taper * 2 ^ 40
    if vis ≤ phi then 0
    else if phi ≤ vis - taper then 2 ^ 28
    else (roundOpen (((vis - phi) * 2 ^ 28 : Nat) : Int) taper).toNat

/-- The focus set: (loudspeaker, v), and whether step 2 filled it (R141). -/
def Layout.focus (l : Layout) (p : V3) (mask : Nat) : List (Nat × Nat) × Bool :=
  let d := fun (k : Nat) => let v := (l.vertex k).sub p; v.dot v
  let adm := (List.range l.speakers.length).filter (l.admits mask)
  let near := adm.mergeSort (fun a b => d a < d b || (d a = d b && a ≤ b))
  let vis := fun (k : Nat) => ((l.speakers[k]?).map (l.visibility p)).getD 0
  let seen := (near.filter (fun k => 0 < vis k)).take l.focusMax
  let rest := (near.filter (fun k => k ∉ seen)).take (l.focusMin - seen.length)
  (seen.map (fun k => (k, vis k)) ++ rest.map (fun k => (k, 2 ^ 28)), !rest.isEmpty)

/-! Evaluation of an object -/

/-- Law delay to served units: bias, floor at 0, trim (R139); `mul` is f_s / 48,000. -/
def Layout.biased (l : Layout) (mul k delay : Nat) : Nat :=
  (delay - l.delayBias * mul) + (((l.speakers[k]?).map (·.trimDelay)).getD 0) * mul

def Layout.out (l : Layout) (k : Nat) : Nat := ((l.speakers[k]?).map (·.output)).getD 0

/-- Build the result from final gains and law delays; a gain of 0 is not selected (R137). -/
def Layout.result (l : Layout) (mul : Nat) (delay : Nat → Nat) (g : List (Nat × Nat)) : List PanGain :=
  (g.filter (fun e => e.2 ≠ 0)).map (fun e =>
    { spk := e.1, out := l.out e.1, gain := e.2, delay := l.biased mul e.1 (delay e.1) })

/-- Evaluate a law at a position: LAW, SPREAD (or selector), ZONE_MASK; for AMBI the member's ACN
and the leader's selector (R140 to R144). -/
def Layout.evaluate (l : Layout) (fs c law spread mask acn ambiSel : Nat) (p : V3) :
    List PanGain × PanEvents :=
  let mul := fs / 48000
  match law with
  | 0 =>
    let (g, e) := l.finish mask true true (l.nearestAngle mask (direction p)) (2 ^ 28) (l.fold (l.point p spread))
    (l.result mul (fun _ => 0) g, e)
  | 1 =>
    let (set, fill) := l.focus p mask
    let g := set.foldl (fun acc (k, v) =>
      addGain k (focusGain v l.alpha l.rRef l.rMin ((l.vertex k).sub p)) acc) []
    let (g, e) := l.finish mask false true [] (l.distance p) g
    (l.result mul (fun k => distDelay fs c ((l.vertex k).sub p)) g, { e with fill := fill })
  | 2 =>
    let (g, e) := l.finish mask true true (l.nearestAngle mask (direction p)) (l.distance p) (l.fold (l.point p spread))
    (l.result mul (fun k => diffDelay fs c p (l.vertex k)) g, e)
  | 3 =>
    let terms := ((l.beds[spread % 16]?).bind (fun b => b[spread / 256 % 64]?)).getD []
    let g := l.fold (terms.foldl (fun acc t => addGain t.1 t.2 acc) [])
    let (g, e) := l.finish mask false false [] (2 ^ 28) g
    (l.result mul (fun _ => 0) g, e)
  | _ =>
    match l.decoders[ambiSel % 4]? with
    | none => ([], {})
    | some d =>
      ((d.rows.zipIdx.filterMap (fun ((k, cs), row) =>
        let co := (cs[acn]?).getD 0
        let g := (roundOpen ((absNat co * (((l.speakers[k]?).map (·.trimGain)).getD 0) : Nat) : Int) (2 ^ 28)).toNat
        if co = 0 || g = 0 then none
        else some { spk := k, out := l.out k, gain := g, delay := l.biased mul k 0, pol := co < 0, row := row })), {})

end Sys2Proof.Machine
end

