-- ==== Sys2Proof/Machine/Paths.lean ====
section
/-! DEFINITION. Pan jobs, path sets, the path pool and path rendering (R134 to R173). -/

namespace Sys2Proof.Machine

open Sys2Proof

/-! Limits -/

/-- D_min in units of 1/256 sample (R153). -/
def dMin (eight : Bool) : Nat := if eight then 1024 else 512

/-- D_max in units of 1/256 sample (R153). -/
def State.dMax (s : State) : Nat := (32764 - s.blockSize) * 256

/-- N_near in units of 1/256 sample (R158). -/
def State.nNear (s : State) : Nat := 1020 * 256 - 576 * s.blockSize

/-- A slice is min(B, 16) samples (R159). -/
def State.sliceSize (s : State) : Nat := min s.blockSize 16

/-- Pool units a path of the object takes (R157, R165). -/
def State.unitsPer (s : State) (n i : Nat) : Nat :=
  if s.fldAt (.obj n) Reg.Obj.CTRL_INTERP i ≠ 0 then 2 else 1

/-! Fades of path sets (R152) -/

/-- The j-th fade factor as a fraction: (numerator, denominator). -/
def fadeFrac (start n i : Nat) : Nat × Nat :=
  if n = 0 then (if start ≤ i then 1 else 0, 1)
  else if i < start then (0, n) else (min (i - start + 1) n, n)

/-- The fade factor of a set at sample `i`; a set that has ended contributes nothing. -/
def PathSet.factor (q : PathSet) (i : Nat) : Nat × Nat :=
  if (q.endAt.map (fun e => decide (e ≤ i))).getD false then (0, 1)
  else match q.fadeOut, q.fadeIn with
    | some (st, n), f =>
      if i < st then (f.map (fun g => fadeFrac g.1 g.2 i)).getD (1, 1)
      else let (a, b) := fadeFrac st n i; (b - a, b)
    | none, some (st, n) => fadeFrac st n i
    | none, none => (1, 1)

/-- Freeze a set at the values it rendered last (R134, R137): released paths go. A delay below D_min moves there (R173). -/
def PathSet.freeze (dmin : Nat) (q : PathSet) : PathSet :=
  let kept := q.paths.filter (fun p => !p.releasing && !p.cut)
  { q with paths := kept.map (fun p => { p with gs := p.ge, ts := p.te, te := max dmin p.te, clamped := false }) }

/-- A present set becomes the fading-out set at sample `r` (R99, R100). -/
def PathSet.out (q : PathSet) (r n : Nat) : PathSet :=
  { q with fadeOut := some (r, n), endAt := some (n + r) }

/-! Relocations that the record brings (R96, R99, R147) -/

/-- Does the change that applies at sample `i` relocate the object by its law or selector? -/
def State.lawReloc (s : State) (n i : Nat) : Bool :=
  let law := s.fldAt (.obj n) Reg.Obj.CTRL_LAW i
  let own := match s.changedAt (.obj n) i with
    | some old =>
      let was := fun f => regGet old (Blk.obj n).base f
      was Reg.Obj.CTRL_LAW ≠ law ||
        (law = 3 && was Reg.Obj.PAN_SPREAD ≠ s.fldAt (.obj n) Reg.Obj.PAN_SPREAD i)
    | none => false
  let lead := 16 * (n / 16)
  let led := law = 4 && match s.changedAt (.obj lead) i with
    | some old => regGet old (Blk.obj lead).base Reg.Obj.PAN_SPREAD ≠
        s.fldAt (.obj lead) Reg.Obj.PAN_SPREAD i
    | none => false
  own || led

/-- Does the position reach the paths under the law in force at sample `i` (R146)? -/
def State.placed (s : State) (n i : Nat) : Bool := s.fldAt (.obj n) Reg.Obj.CTRL_LAW i ≤ 2

/-- Does the change that applies at sample `i` step the object's position (R99)? -/
def State.posReloc (s : State) (n i : Nat) : Bool :=
  match s.changedAt (.obj n) i with
  | some old =>
    s.fldAt (.obj n) Reg.Obj.RAMP_POS i = 0 && s.fldAt (.obj n) Reg.Obj.CTRL_MOTION_MODE i ≠ 1 &&
      (regGet old (Blk.obj n).base Reg.Obj.POS_X ≠ s.fldAt (.obj n) Reg.Obj.POS_X i ||
       regGet old (Blk.obj n).base Reg.Obj.POS_Y ≠ s.fldAt (.obj n) Reg.Obj.POS_Y i ||
       regGet old (Blk.obj n).base Reg.Obj.POS_Z ≠ s.fldAt (.obj n) Reg.Obj.POS_Z i)
  | none => false

/-- Did ZONE_MASK change at sample `i` (R136)? -/
def State.zoneChanged (s : State) (n i : Nat) : Bool :=
  match s.changedAt (.obj n) i with
  | some old => regGet old (Blk.obj n).base Reg.Obj.PAN_ZONE_MASK ≠ s.fldAt (.obj n) Reg.Obj.PAN_ZONE_MASK i
  | none => false

/-! Allocation at the release (R164, R165) -/

/-- The objects that hold or want paths, in ascending order. -/
def State.pathObjects (s : State) : List Nat :=
  (s.objs.filter (fun e => e.2.live || e.2.draining.isSome)).map (·.1)

/-- The class of an object in block `b`. -/
def State.classAt (s : State) (n i : Nat) : Nat := s.fldAt (.obj n) Reg.Obj.CTRL_CLASS i

/-- cap of R165. -/
def State.pathCap (s : State) (n i : Nat) : Nat := 128 * s.unitsPer n i

/-- The request Q of an object for block `b` (R165 step 1). -/
def State.pathRequest (s : State) (n b : Nat) : Nat :=
  let s0 := s.blockStart b
  let u := s.unitsPer n s0
  let starts := (s.pathsOf n).newSet.isSome || (s.obj n).activatedAt.isSome ||
    (s.blockSamples b).any (fun i => s.lawReloc n i || (s.placed n i && s.posReloc n i))
  min (128 * u) ((s.pathsOf n).wanted + s.fld .path Reg.Path.GROWTH + (if starts then 64 * u else 0))

/-- One segment shared among the objects it serves: (object, entitlement), and what is left (R165
steps 2 and 3). -/
def segmentShare (cap : Nat → Nat) (q : List (Nat × Nat)) (seg : Nat) : List (Nat × Nat) × Nat :=
  let sum := q.foldl (fun a e => a + e.2) 0
  if sum ≤ seg then
    let add := if q.isEmpty then 0 else (seg - sum) / q.length
    let e := q.map (fun e => (e.1, min (cap e.1) (e.2 + add)))
    (e, seg - e.foldl (fun a e => a + e.2) 0)
  else
    let (e, left) := q.foldl (fun (acc : List (Nat × Nat) × Nat) e =>
      let g := min e.2 acc.2
      (acc.1 ++ [(e.1, g)], acc.2 - g)) ([], seg)
    (e, left)

/-- The entitlements of block `b` (R165). The pool settings are those at the release (R170). -/
def State.entitlements (s : State) (b : Nat) : List (Nat × Nat) :=
  let s0 := s.blockStart b
  let ns := s.pathObjects
  let req := fun c => (ns.filter (fun n => s.classAt n s0 = c)).map (fun n => (n, s.pathRequest n b))
  let leadSeg := s.fld .path Reg.Path.POOL_CFG_LEAD_RESERVE
  let cap := fun n => s.pathCap n s0
  let (lead, _) := segmentShare cap (req 0) leadSeg
  let common := s.nowPaths - leadSeg
  let (lead, common) :=
    if s.fld .path Reg.Path.POOL_CFG_LEAD_SPILL = 0 then (lead, common)
    else lead.foldl (fun (acc : List (Nat × Nat) × Nat) e =>
      let q := s.pathRequest e.1 b
      let more := min (q - e.2) acc.2
      (acc.1 ++ [(e.1, e.2 + more)], acc.2 - more)) ([], common)
  lead ++ (segmentShare cap (req 1 ++ req 2) common).1

/-- The allocator fixes every entitlement at the release of block `b` (R165). -/
def State.allocate (s : State) (b : Nat) : State :=
  (s.entitlements b).foldl (fun s e => s.setPathsOf e.1 { s.pathsOf e.1 with entitled := e.2 }) s

/-! Starvation (R166) -/

/-- Compare two fractions. -/
def fracLt (a b : Nat × Nat) : Bool := a.1 * b.2 < b.1 * a.2

/-- Strength of a path of a set in block [s0, s1). -/
def PathSet.strength (q : PathSet) (s0 s1 : Nat) (p : Path) : Nat × Nat :=
  let f0 := q.factor s0
  let f1 := q.factor (s1 - 1)
  let a := (p.gs * f0.1, f0.2)
  let c := (p.ge * f1.1, f1.2)
  if fracLt a c then c else a

/-- Keep the strongest `keep` paths of all sets: the marks of the paths to cut, by (set, path)
index. Ties go to the lower output, then the earlier set (R166). -/
def strongest (keep s0 s1 : Nat) (sets : List PathSet) : List (Nat × Nat) :=
  let all := (sets.zipIdx.flatMap (fun (q, k) => q.paths.zipIdx.map (fun (p, j) => (q.strength s0 s1 p, p.out, k, j))))
  let sorted := all.mergeSort (fun a b =>
    fracLt b.1 a.1 || (!fracLt a.1 b.1 && (a.2.1 < b.2.1 || (a.2.1 = b.2.1 && a.2.2.1 ≤ b.2.2.1))))
  (sorted.take keep).map (fun e => (e.2.2.1, e.2.2.2))

/-- Cut the paths outside the kept ones and renormalise each panned set (R166). -/
def starve (keep s0 s1 : Nat) (sets : List PathSet) : List PathSet :=
  let kept := strongest keep s0 s1 sets
  sets.zipIdx.map (fun (q, k) =>
    let marked := q.paths.zipIdx.map (fun (p, j) => { p with cut := !(kept.contains (k, j)) })
    let live := (marked.filter (fun p => !p.cut)).map (·.ge)
    if q.panned && live.any (· ≠ 0) then
      let f := starveFactor q.amplitude (marked.map (·.ge)) live
      { q with paths := marked.map (fun p =>
          if p.cut then p else { p with ge := (roundOpen ((p.ge * min f (4 * 2 ^ 28) : Nat) : Int) (2 ^ 28)).toNat }) }
    else { q with paths := marked })

/-! The pool (R171) -/

def PathStage.free (q : PathStage) (units : List Nat) : PathStage :=
  { q with pool := units.foldl (fun m u => m.put 0 u 0) q.pool,
           table := units.foldl (fun t u => (List.range 4).foldl (fun t w => t.put 0#32 (4 * u + w) 0#32) t) q.table }

/-- Are `per` units from `u` on free below `limit`? -/
def unitsFree (pool : Map Nat) (per limit u : Nat) : Bool :=
  (List.range per).all (fun k => u + k < limit && Map.get 0 (u + k) pool = 0)

/-- The lowest free unit, or pair of units, below `limit`. -/
def lowestFree (pool : Map Nat) (per limit : Nat) : Option Nat := (List.range limit).find? (unitsFree pool per limit)

/-- Give units to the kept paths of an object that hold none, or too few or too many since the interpolator changed: a
path keeps its first unit where it can (R171, R173). A path that finds none is cut. -/
def grantUnits (obj per limit : Nat) (pool : Map Nat) (ps : List Path) : Map Nat × List Path :=
  ps.foldl (fun (acc : Map Nat × List Path) p =>
    if p.cut || p.units.length = per then (acc.1, acc.2 ++ [p])
    else
      let pool := p.units.foldl (fun m u => m.put 0 u 0) acc.1
      match (p.units.head?.filter (unitsFree pool per limit)) <|> lowestFree pool per limit with
      | some u =>
        let us := (List.range per).map (u + ·)
        (us.foldl (fun m v => m.put 0 v (obj + 1)) pool, acc.2 ++ [{ p with units := us, window := none }])
      | none => (pool, acc.2 ++ [{ p with units := [], cut := true }])) (pool, [])

/-- The units that path sets hold. -/
def unitsOf (sets : List PathSet) : List Nat := sets.flatMap (fun q => q.paths.flatMap (·.units))

/-- Release the units of paths that are gone or cut, then grant (R171). -/
def State.regrant (s : State) (n per : Nat) (old new : List PathSet) : State × List PathSet :=
  let new := new.map (fun q => { q with paths := q.paths.map (fun (p : Path) => if p.cut then { p with units := [] } else p) })
  let st := s.paths.free ((unitsOf old).filter (fun u => !((unitsOf new).contains u)))
  let (pool, sets) := new.foldl (fun (acc : Map Nat × List PathSet) q =>
    let (pool, ps) := grantUnits n per s.nowPaths acc.1 q.paths
    (pool, acc.2 ++ [{ q with paths := ps }])) (st.pool, [])
  let st := st.free ((unitsOf new).filter (fun u => !((unitsOf sets).contains u)))
  ({ s with paths := { st with pool := pool } }, sets)

/-! Layout banks (R117, R134, R135) -/

/-- The layout an object is evaluated on in the block that starts at `s0` (R134). -/
def State.layoutFor (s : State) (old : Bool) (s0 : Nat) : Option Layout :=
  if old || s0 < s.layouts.tA then (s.layouts.old <|> (if old then s.layouts.active else none)).map (·.2)
  else s.layouts.active.map (·.2)

/-- Are the pan engines working (R119)? -/
def State.panOn (s : State) (i : Nat) : Bool :=
  s.fldAt .layout Reg.Hdr.ENABLE i ≠ 0 && s.fldAt .pan Reg.Hdr.ENABLE i ≠ 0

/-- Show the slots and banks (R127). -/
def State.showLayouts (s : State) : State :=
  let l := s.layouts
  let held := fun (k : Nat) =>
    (l.active.map (·.1) = some k) || (l.armed.map (·.1) = some k) || (l.old.map (·.1) = some k)
  let s := s.set .layout Reg.Layout.STATUS_ACTIVE_SLOT ((l.active.map (·.1)).getD 0)
  let s := s.setBit .layout Reg.Layout.STATUS_ACTIVE_VALID l.active.isSome
  let s := match l.armed with
    | some (k, _) => s.set .layout Reg.Layout.STATUS_ARMED_SLOT k
    | none => s
  let s := s.setBit .layout Reg.Layout.STATUS_ARMED l.armed.isSome
  let s := s.set .layout Reg.Layout.STATUS_SLOT_VALID
    ((List.range 4).foldl (fun a k => if l.slots.any (·.1 = k) then a + 2 ^ k else a) 0)
  let s := s.set .layout Reg.Layout.STATUS_SLOT_HELD
    ((List.range 4).foldl (fun a k => if held k then a + 2 ^ k else a) 0)
  let s := s.setBit .layout Reg.Layout.STATUS_CONVERTING l.converting
  let s := s.set .layout Reg.Layout.CONVERT_LEFT l.left.length
  (List.range 4).foldl (fun s k =>
    let y := Map.get ({} : Layout) k l.slots
    (((s.set .layout (Reg.Layout.SLOT_ID k) y.id.toNat).set .layout (Reg.Layout.SLOT_INFO_SPEAKERS k)
      y.speakers.length).set .layout (Reg.Layout.SLOT_INFO_VIRTUAL k) y.virtuals.length).set .layout
      (Reg.Layout.SLOT_INFO_TRIANGLES k) y.triangles.length) s

/-- The old bank is released once no object holds a path set derived on it (R135). -/
def State.releaseOldBank (s : State) : State :=
  if s.layouts.converting || s.paths.objs.any (fun e => e.2.onOld || e.2.sets.any (·.oldBank)) then s
  else ({ s with layouts := { s.layouts with old := none } }).showLayouts

/-- One object's conversion starts at the first sample of the block (R134). -/
def State.convertObj (s : State) (n s0 : Nat) : State :=
  if (s.pathsOf n).onOld then s.setPathsOf n { s.pathsOf n with newSet := some s0, onOld := false } else s

/-- The conversions of block `b`: at most 256 objects; when none is left, CONVERT_DONE (R134,
R135). -/
def State.convert (s : State) (b : Nat) : State :=
  if !s.layouts.converting || s.blockStart b < s.layouts.tA then s
  else if s.layouts.left.isEmpty then
    (({ s with layouts := { s.layouts with converting := false } }).event .layout 1).releaseOldBank.showLayouts
  else
    let now := s.layouts.left.take 256
    let s := now.foldl (fun s n => s.convertObj n (s.blockStart b)) s
    ({ s with layouts := { s.layouts with left := s.layouts.left.drop 256 } }).showLayouts

/-! The pan job -/

/-- The end delay of a path: requested, limited to [D_min, D_max], then clamped about its start; with
the flags DELAY_LIMIT and CLAMP (R153, R154). -/
def endDelay (dmin dmax b256 : Nat) (start : Option Nat) (want : Nat) : Nat × Bool × Bool :=
  let t := max dmin (min want dmax)
  match start with
  | none => (t, decide (dmax < want), false)
  | some ts =>
    if ts + b256 < t then (ts + b256, decide (dmax < want), true)
    else if t + b256 < ts then (ts - b256, decide (dmax < want), true)
    else (t, decide (dmax < want), false)

/-- A fresh set from a result: start values equal end values (R137). -/
def freshPaths (dmin dmax : Nat) (r : List PanGain) : List Path :=
  r.map (fun g =>
    let t := (endDelay dmin dmax 0 none g.delay).1
    { spk := g.spk, row := g.row, out := g.out, pol := g.pol, gs := g.gain, ge := g.gain, ts := t, te := t })

/-- Pair a result with the paths that rendered in the block before (R137, R153, R154); under AMBI each decoder row is a
path of its own. -/
def pairPaths (dmin dmax b256 : Nat) (old : List Path) (r : List PanGain) : List Path :=
  let old := old.filter (fun p => !p.releasing && !p.cut)
  let kept := r.map (fun g =>
    match old.find? (fun p => p.spk = g.spk && p.row = g.row) with
    | some p =>
      let (t, _, c) := endDelay dmin dmax b256 (some p.te) g.delay
      { p with out := g.out, pol := g.pol, gs := p.ge, ge := g.gain, ts := p.te, te := t, clamped := c }
    | none =>
      let t := (endDelay dmin dmax b256 none g.delay).1
      { spk := g.spk, row := g.row, out := g.out, pol := g.pol, gs := 0, ge := g.gain, ts := t, te := t })
  let gone := (old.filter (fun p => !(r.any (fun g => g.spk = p.spk && g.row = p.row)))).map
    (fun p => { p with gs := p.ge, ge := 0, ts := p.te, te := max dmin p.te, releasing := true, clamped := false })
  kept ++ gone

/-- Relocate at sample `r`: the present set fades out over `n` samples and a new one in; an older fading set ends at once
(R99, R100). -/
def relocate (dmin r n : Nat) (new : PathSet) (sets : List PathSet) : List PathSet :=
  let new := { new with fadeIn := some (r, n) }
  match sets with
  | [] => [new]
  | cur :: old => new :: (cur.freeze dmin).out r n :: old.map (fun q => { q with endAt := some (min r (q.endAt.getD r)) })

/-- Drop the sets that have ended by sample `i`. -/
def liveSets (i : Nat) (sets : List PathSet) : List PathSet :=
  sets.filter (fun q => (q.endAt.map (fun e => decide (i < e))).getD true)

/-- The law of an object evaluated at the end of a block, and its events. -/
def State.evaluate (s : State) (n s0 s1 : Nat) (l : Layout) (p : V3) : List PanGain × PanEvents :=
  let law := s.fldAt (.obj n) Reg.Obj.CTRL_LAW (s1 - 1)
  let spread := if law = 3 then s.fldAt (.obj n) Reg.Obj.PAN_SPREAD (s1 - 1)
    else s.fldAt (.obj n) Reg.Obj.PAN_SPREAD (if s.fldAt (.obj n) Reg.Obj.CTRL_LAW s1 = law then s1 else s1 - 1)
  let lead := 16 * (n / 16)
  let _ := s0
  l.evaluate s.fs (s.fldAt .pan Reg.Pan.SOUND_SPEED (s1 - 1)) law spread
    (s.fldAt (.obj n) Reg.Obj.PAN_ZONE_MASK s1) (n % 16)
    (s.fldAt (.obj lead) Reg.Obj.PAN_SPREAD (s1 - 1)) p

/-- Report the events of an evaluation and of its delays (R128, R153, R154). -/
def State.panEvents (s : State) (n : Nat) (e : PanEvents) (limit : Bool) (clamps : Nat) : State :=
  let s := if e.cap then s.event .pan 0 else s
  let s := if e.zone then s.event .pan 1 else s
  let s := if e.fill then s.event .pan 2 else s
  let s := if limit then s.event .path 2 else s
  if clamps = 0 then s
  else ((s.event .path 1).objEvent n 4).count .path Reg.Path.CLAMP_COUNT clamps

/-- The object holds no paths (R119). They may have been the last on the old bank (R135). -/
def State.dropPaths (s : State) (n : Nat) : State :=
  let q := s.pathsOf n
  let s := { s with paths := s.paths.free (unitsOf q.sets) }
  let s := s.setPathsOf n { q with sets := [], result := none, newSet := none, wanted := 0, dirty := true }
  ((s.set (.obj n) Reg.Obj.PATHS_WANTED 0).set (.obj n) Reg.Obj.PATHS_GRANTED 0).releaseOldBank

/-- A pan engine's job for object `n` in block `b` (R136, R137, R166). -/
def State.panJob (s : State) (n b : Nat) : State :=
  let s0 := s.blockStart b
  let B := s.blockSize
  let s1 := s0 + B
  let o := s.obj n
  let q := s.pathsOf n
  if !o.live && o.draining.isNone then s
  else if !s.panOn s0 then (s.setObj n { o with relocs := [] }).dropPaths n
  else
    let law := s.fldAt (.obj n) Reg.Obj.CTRL_LAW (s1 - 1)
    let moves := o.relocs.filter (fun i => i < s1 && s.placed n i)
    let own := moves ++ (s.blockSamples b).filter (fun i => s.lawReloc n i)
    let relocs := ((own ++ q.newSet.toList).mergeSort (· ≤ ·)).eraseDups
    -- From t_a on, an object not yet converted that relocates converts out of turn (R150).
    let late := q.onOld && decide (s.layouts.tA ≤ s0) && !own.isEmpty
    let onOld := q.onOld && !late
    match s.layoutFor onOld s0 with
    | none => (s.setObj n { o with relocs := [] }).dropPaths n
    | some l =>
      let zone := law ≠ 4 && ((List.range B).map (s0 + 1 + ·)).any (s.zoneChanged n)
      let again := law ≤ 2 || q.dirty || zone || q.result.isNone || !relocs.isEmpty
      let (r, e) := if again then s.evaluate n s0 s1 l o.pb1 else (q.result.getD [], {})
      let u := s.unitsPer n s0
      let dmin := dMin (u = 2)
      let dmax := s.dMax
      let live := match liveSets s0 q.sets with
        | [] => []
        | c :: old => c :: old.map (PathSet.freeze dmin)
      let new : PathSet := { paths := freshPaths dmin dmax r, panned := law ≤ 2, amplitude := l.amplitude }
      let sets := match relocs, q.result, live with
        | [], some _, c :: old => { c with paths := pairPaths dmin dmax (64 * B) c.paths r } :: old
        | [], _, _ => [new]
        | _, _, [] => if moves.isEmpty then [new] else moves.foldl (fun sets i => relocate dmin i (s.routeFade i) new sets) []
        | rs, _, sets => rs.foldl (fun sets i => relocate dmin i (s.routeFade i) new sets) sets
      let sets := if late || q.newSet.isSome then
          (match sets with
            | c :: old => c :: old.map (fun t => { t with oldBank := true })
            | [] => [])
        else sets
      let wanted := u * (sets.foldl (fun a t => a + t.paths.length) 0)
      let starved := decide (q.entitled < wanted)
      let sets := if starved then starve (q.entitled / u) s0 s1 sets
        else sets.map (fun t => { t with paths := t.paths.map (fun p => { p with cut := false }) })
      let near := s.nNear
      let sets := sets.map (fun t => { t with paths := t.paths.map (fun p => { p with far := near < p.ts }) })
      let (s, sets) := s.regrant n u q.sets sets
      let granted := sets.foldl (fun a t => a + u * (t.paths.filter (fun p => !p.cut)).length) 0
      let clamps := sets.foldl (fun a t => a + (t.paths.filter (fun p => p.clamped)).length) 0
      let limit := r.any (fun g => dmax < g.delay)
      let s := (s.setObj n { o with relocs := o.relocs.filter (s1 ≤ ·) }).setPathsOf n
        { q with sets := sets, result := some r, newSet := none, dirty := false, onOld := onOld,
                 wanted := wanted, slice := 0 }
      let s := if late then
          ({ s with layouts := { s.layouts with left := s.layouts.left.filter (· ≠ n) } }).showLayouts
        else s
      let s := if q.sets.any (·.oldBank) then s.releaseOldBank else s
      let s := s.panEvents n e limit clamps
      let s := if again then s.count .pan Reg.Pan.EVALS else s
      let s := (s.set (.obj n) Reg.Obj.PATHS_WANTED (min wanted 0x1FF)).set (.obj n)
        Reg.Obj.PATHS_GRANTED (min granted 0x1FF)
      if starved then
        ((s.objEvent n 5).event .path 0).count .path Reg.Path.STARVED_COUNT
      else s

def execPanJob (n b : Nat) (s : State) : Res := settle (s.once .pan n (1024 + n) b (·.panJob n b))

/-! Rendering a path (R155 to R157) -/

/-- Lagrange coefficient c_m at k / 256 over the points lo to hi, rounded in Q2.30 (R156). -/
def lagrange (lo hi m : Int) (k : Nat) : Int :=
  let pts := (List.range (hi - lo + 1).toNat).map (fun (j : Nat) => lo + (j : Int))
  let (num, den) := (pts.filter (· ≠ m)).foldl (fun (acc : Int × Int) i =>
    (acc.1 * ((k : Int) - 256 * i), acc.2 * (256 * (m - i)))) (1, 1)
  if den < 0 then roundDiv (-num * 2 ^ 30) (-den) else roundDiv (num * 2 ^ 30) den

/-- The interpolated value v, Q3.31 (R156); `x i` is the history. -/
def interpolate (eight : Bool) (x : Int → Int) (t : Int) : Int :=
  let n := t.fdiv 256
  let k := (t - 256 * n).toNat
  let lo : Int := if eight then -3 else -1
  let hi : Int := if eight then 4 else 2
  let pts := (List.range (hi - lo + 1).toNat).map (fun (j : Nat) => lo + (j : Int))
  roundShift (pts.foldl (fun a m => a + lagrange lo hi m k * x (n + m)) 0) 30

/-- The gain of a path at the j-th sample of a block of `B`, times the fade factor (R155). -/
def Path.gainAt (p : Path) (B j : Nat) (f : Nat × Nat) : Int :=
  roundDiv (((p.gs : Int) * B + ((p.ge : Int) - p.gs) * j) * f.1) (B * f.2)

/-- The delay of a path at the j-th sample, units of 1/256 sample (R155). -/
def Path.delayAt (p : Path) (B j : Nat) : Int :=
  roundDiv ((p.ts : Int) * B + ((p.te : Int) - p.ts) * j) B

/-- The history a path reads: the near ring, or its window in the prefetch buffer; zero before the activation (R86, R157
to R159). -/
def Path.hist (p : Path) (buffer : Map Int) (o : ObjEngine) (i : Int) : Int :=
  if p.far then
    (if i < o.histFrom then 0 else Map.get 0 (32 * p.units.headD 0 + (i - p.window.getD i).toNat) buffer)
  else o.hist i

/-- The contribution of a path at sample `i`, the j-th of the block (R156, R157). -/
def Path.contribution (p : Path) (eight : Bool) (buffer : Map Int) (o : ObjEngine) (B i j : Nat) (f : Nat × Nat) : Int :=
  let v := interpolate eight (p.hist buffer o) (256 * (i : Int) - p.delayAt B j)
  let w := v * p.gainAt B j f
  roundShift (if p.pol then -w else w) 28

/-- Add to an output's accumulator (R167). -/
def State.accumulate (s : State) (out j : Nat) (v : Int) : State :=
  { s with paths := { s.paths with acc := s.paths.acc.put 0 (64 * out + j) (Map.get 0 (64 * out + j) s.paths.acc + v) } }

/-- May work of block `b` still count: it is the block released last and its deadline has not passed
(R20, R24)? -/
def State.inTime (s : State) (b : Nat) : Bool :=
  s.render.released && s.render.block = b && !s.render.late

/-- A path job: every path of the object for one slice (R159). It is granted only when the fetches
of its far paths have arrived (R161). An Extra object gives nothing to an output it was cut from
(R378). -/
def State.pathJob (s : State) (n b slice : Nat) : State :=
  let q := s.pathsOf n
  let S := s.sliceSize
  let B := s.blockSize
  let s0 := s.blockStart b
  if !q.fetching.isEmpty || !s.inTime b || slice ≠ q.slice || B ≤ slice * S then s
  else
    let o := s.obj n
    let extra := s.classAt n s0 = 2
    let eight := s.unitsPer n s0 = 2
    let s := q.sets.foldl (fun s t => t.paths.foldl (fun s p =>
      if p.cut || (extra && s.sched.cutOuts.contains p.out) then s
      else (List.range S).foldl (fun s k =>
        let j := slice * S + k
        s.accumulate p.out j (p.contribution eight s.paths.prefetch o B (s0 + j) j (t.factor (s0 + j)))) s) s) s
    s.setPathsOf n { s.pathsOf n with slice := slice + 1 }

def execPathJob (n b slice : Nat) (s : State) : Res := settle (if s.granted .path n b slice then s.pathJob n b slice else s)

/-! Far fetches (R160 to R162) -/

/-- The first sample that the slice whose first read point is `t0` can read, and the start of its fetch, a multiple of 8
samples. -/
def farLo (eight : Bool) (t0 : Int) : Int := t0.fdiv 256 - (if eight then 3 else 1)
def farFirst (eight : Bool) (t0 : Int) : Int := 8 * (farLo eight t0).fdiv 8

/-- The 64-byte requests of a far path's slice, by their first sample (R160). -/
def farRequests (eight : Bool) (S : Nat) (t0 : Int) : List Int :=
  let hi := farLo eight t0 + ((5 * (S - 1) / 4 : Nat) : Int) + (if eight then 8 else 4)
  let first := farFirst eight t0
  (List.range ((hi - first) / 16 + 1).toNat).map (fun (k : Nat) => first + 16 * (k : Int))

/-- Read point of a path's slice that begins at sample `i` with delay `d`, and the window it then needs. -/
def Path.windowAt (p : Path) (i : Nat) (d : Int) : Int := farFirst (p.units.length = 2) (256 * (i : Int) - d)

/-- Issue the fetches of the paths that `pick` names for a slice that begins at sample `i`: requests of one object for one
address are merged (R160). -/
def State.fetchPaths (s : State) (n i : Nat) (pick : PathSet → Path → Bool) (delay : Path → Int) : State :=
  let q := s.pathsOf n
  let reqs := (q.sets.flatMap (fun t => (t.paths.filter (pick t)).flatMap (fun p =>
    farRequests (p.units.length = 2) s.sliceSize (256 * (i : Int) - delay p)))).eraseDups
  let sets := q.sets.map (fun t => { t with paths := t.paths.map (fun (p : Path) =>
    if pick t p then { p with window := some (p.windowAt i (delay p)) } else p) })
  (s.count .path Reg.Path.FAR_REQUESTS reqs.length).setPathsOf n { q with sets := sets, fetching := q.fetching ++ reqs }

/-- For a later slice of block `b`, when the slice before it has retired (R161). -/
def State.issueFetch (s : State) (n b slice : Nat) : State :=
  let j := slice * s.sliceSize
  s.fetchPaths n (s.blockStart b + j) (fun _ p => p.far && !p.cut) (fun p => p.delayAt s.blockSize j)

/-- For the first slice of block `b`, when the last slice before it has retired: paths on their way out and sets that end
with the block before need nothing (R161). -/
def State.issueFirst (s : State) (n b : Nat) : State :=
  let i := s.blockStart b
  s.fetchPaths n i (fun t p => decide (s.nNear < p.te) && !p.cut && !p.releasing &&
    (t.endAt.map (fun e => decide (i < e))).getD true) (fun p => p.te)

/-- For the paths that the evaluation of block `b` created, and any whose window is not that of its first slice, when the
pan job retires (R161). -/
def State.issueNewFetch (s : State) (n b : Nat) : State :=
  let i := s.blockStart b
  s.fetchPaths n i (fun _ p => p.far && !p.cut && p.window ≠ some (p.windowAt i p.ts)) (fun p => p.ts)

/-- The data of a request arrives in the slots of every path whose window holds it. -/
def State.fetched (s : State) (n : Nat) (a : Int) : State :=
  let far := (s.obj n).far
  let buf := (s.pathsOf n).sets.foldl (fun m t => t.paths.foldl (fun m p =>
    match p.window with
    | none => m
    | some w => ((List.range 16).map (fun k => a + (k : Int))).foldl (fun m i =>
        if w ≤ i && i < w + 32 * (p.units.length : Int) then
          m.put 0 (32 * p.units.headD 0 + (i - w).toNat) (Map.get 0 (i % 32768).toNat far)
        else m) m) m) s.paths.prefetch
  { s with paths := { s.paths with prefetch := buf } }

/-- Every request outstanding is answered. -/
def State.fetchedAll (s : State) (n : Nat) : State :=
  let q := s.pathsOf n
  q.fetching.foldl (fun s a => s.fetched n a) (s.setPathsOf n { q with fetching := [] })

/-- A far request has been outstanding for more than 2 microseconds (R162). -/
def execFetchLate (n : Nat) (s : State) : Res :=
  settle (if (s.pathsOf n).fetching.isEmpty then s else s.event .path 4)

/-- Write the window entries of an object's paths when its last slice of block `b` retires (R171). -/
def State.writeTable (s : State) (n b : Nat) : State :=
  let q := s.pathsOf n
  let s0 := s.blockStart b
  let s1 := s0 + s.blockSize
  let cls := s.classAt n s0
  let table := q.sets.zipIdx.foldl (fun tb (t, k) => t.paths.foldl (fun tb p =>
    let f := t.factor (s1 - 1)
    let ge := (roundDiv ((p.ge : Int) * f.1) f.2).toNat
    p.units.zipIdx.foldl (fun tb (u, c) =>
      let w0 := n % 1024 + 2 ^ 10 + (if c = 1 then 2 ^ 11 else 0) + (if k = 0 then 0 else 2 ^ 12) +
        (if p.far then 2 ^ 13 else 0) + (if p.pol then 2 ^ 14 else 0) +
        (if p.releasing then 2 ^ 15 else 0) + (p.out % 512) * 2 ^ 16 + cls % 4 * 2 ^ 25 +
        (if p.clamped then 2 ^ 27 else 0)
      (((tb.put 0#32 (4 * u) (BitVec.ofNat 32 w0)).put 0#32 (4 * u + 1) (BitVec.ofNat 32 ge)).put 0#32
        (4 * u + 2) (BitVec.ofNat 32 (p.te % 2 ^ 24))).put 0#32 (4 * u + 3)
        (BitVec.ofNat 32 (p.ts % 2 ^ 24 + b % 256 * 2 ^ 24))) tb) tb) s.paths.table
  { s with paths := { s.paths with table := table } }

/-! Ends of fades and draining -/

/-- A path set's fade-out ends: its paths and units go, and the old bank when it was the last on it
(R99, R135, R171). -/
def execPathSetFadeEnd (n : Nat) (s : State) : Res :=
  let q := s.pathsOf n
  let keep := liveSets (s.blockStart s.render.block) q.sets
  let s := { s with paths := s.paths.free ((unitsOf q.sets).filter (fun u => !((unitsOf keep).contains u))) }
  settle (s.setPathsOf n { q with sets := keep }).releaseOldBank

/-- Can no path of the object read a sample written with a non-zero gain any more, at the last
evaluated boundary (R86)? -/
def State.drained (s : State) (n : Nat) : Bool :=
  let o := s.obj n
  let eight := s.unitsPer n o.pbAt = 2
  match o.draining with
  | none => false
  | some z => (s.pathsOf n).sets.all (fun t => t.paths.all (fun p =>
      p.releasing || p.cut ||
        decide ((z : Int) ≤ (256 * (o.pbAt : Int) - p.te).fdiv 256 - (if eight then 3 else 1))))

/-- Draining ends: paths are released and DRAINED is set (R86). -/
def execDrained (n : Nat) (s : State) : Res :=
  if s.drained n then
    let s := s.setObj n { s.obj n with draining := none, sections := [], near := [], far := [] }
    let s := ((s.setPathsOf n { s.pathsOf n with onOld := false }).dropPaths n).setBit (.obj n) Reg.Obj.PATHS_DRAINING false
    settle (s.objEvent n 6)
  else settle s

/-- What the last block granted, at the next release (R169). -/
def State.pathReport (s : State) : State :=
  let lead := s.paths.objs.foldl (fun a e =>
    if s.classAt e.1 (s.blockStart s.render.block) = 0 then a + s.fld (.obj e.1) Reg.Obj.PATHS_GRANTED else a) 0
  let total := s.paths.objs.foldl (fun a e => a + s.fld (.obj e.1) Reg.Obj.PATHS_GRANTED) 0
  let far := s.paths.objs.foldl (fun a e => a + e.2.sets.foldl (fun a t =>
    t.paths.foldl (fun a p => if p.far && !p.cut then a + p.units.length else a) a) 0) 0
  let starved := (s.paths.objs.filter (fun e => e.2.entitled < e.2.wanted)).length
  let s := s.set .path Reg.Path.USE_LEAD lead
  let s := s.set .path Reg.Path.USE_TOTAL total
  let s := s.peak .path Reg.Path.USE_PEAK total
  let s := s.set .path Reg.Path.USE_FAR far
  let s := s.set .path Reg.Path.STARVED_LAST starved
  let m := min s.paths.fetchMax 0xFFFF
  let s := (s.set .path Reg.Path.FETCH_LAST m).peak .path Reg.Path.FETCH_PEAK m
  { s with paths := { s.paths with fetchMax := 0 } }

/-- Every path is released and every accumulator and history cleared (R173). -/
def State.clearPaths (s : State) : State :=
  let s := { s with paths := {} }
  let s := s.objs.foldl (fun s e => s.setObj e.1 { e.2 with near := [], far := [], relocs := [] }) s
  { s with layouts := { s.layouts with converting := false, left := [], old := none } }.showLayouts

end Sys2Proof.Machine
end

