-- ==== Sys2Proof/Machine/Mix.lean ====
section
/-! DEFINITION. Mix buses and direct routes (R176 to R185, R593). -/

namespace Sys2Proof.Machine

open Sys2Proof

/-- A saturating peak value in unsigned Q16.16 of full scale of a Q17.31 magnitude (R193). -/
def peakQ16 (x : Int) : Nat := min (roundShift (absNat x : Int) 15).toNat 0xFFFFFFFF

/-! Routes -/

/-- What a route names at sample `i`: enabled, source, to a bus, destination. -/
def State.routeAt (s : State) (r i : Nat) : Bool × Source × Bool × Nat :=
  let f := fun x => s.fldAt (.route r) x i
  (f Reg.Route.CTRL_ENABLE ≠ 0 && s.fldAt (Blk.route r).page Reg.Hdr.ENABLE i ≠ 0,
   { type := f Reg.Route.SRC_TYPE, unit := f Reg.Route.SRC_UNIT, chan := f Reg.Route.SRC_CHANNEL },
   f Reg.Route.DEST_KIND ≠ 0, f Reg.Route.DEST_INDEX)

/-- The sample a route's source carries at `i` (R180). -/
def State.routeSource (s : State) (src : Source) (i : Nat) : Int :=
  if src.type = 8 then (s.obj src.unit).hist i else s.sourceAt src i

/-- One sample of a route engine: route changes cross-fade, gain changes ramp (R183 to R185). -/
def RouteEngine.step (e : RouteEngine) (i : Nat) (on : Bool) (src : Source) (toBus : Bool) (dest : Nat)
    (fade ramp : Nat) (inv : Bool) (target : Int) : RouteEngine :=
  let e := { e with old := e.old.bind (fun o => if o.start + o.n ≤ i then none else some o) }
  if on ≠ e.on || (on && (src ≠ e.src || toBus ≠ e.toBus || dest ≠ e.dest)) then
    let old := if e.on then
        some { src := e.src, toBus := e.toBus, dest := e.dest, gain := e.gain.at_ i, inv := e.gain.inv,
               start := i, n := fade : RouteOld }
      else none
    { on := on, src := src, toBus := toBus, dest := dest, gain := GainStage.at0 inv target,
      fade := some (i, fade), old := old }
  else if on then { e with gain := (e.gain.follow i ramp inv target).tick i }
  else e

/-- Advance a route's engine to sample `i`. -/
def State.routeStep (s : State) (r i : Nat) (e : RouteEngine) : RouteEngine :=
  let (on, src, toBus, dest) := s.routeAt r i
  e.step i on src toBus dest (s.routeFade i) (s.rampSamples (s.fldAt (.route r) Reg.Route.RAMP_GAIN i))
    (s.fldAt (.route r) Reg.Route.CTRL_INVERT i ≠ 0) (s.fldAt (.route r) Reg.Route.GAIN i)

/-- The exact product of sample, gain, fade factor and polarity, rounded once (R178). -/
def mixTerm (x g : Int) (inv : Bool) (f : Nat × Nat) : Int :=
  let p := x * g * f.1
  roundDiv (if inv then -p else p) (2 ^ 28 * f.2)

/-- What a route engine adds to a destination at sample `i`. -/
def RouteEngine.term (e : RouteEngine) (x : Source → Int) (toBus : Bool) (dest i : Nat) : Int :=
  let cur := if e.on && e.toBus = toBus && e.dest = dest then
      mixTerm (x e.src) (e.gain.at_ i) e.gain.inv
        ((e.fade.map (fun f => fadeFrac f.1 f.2 i)).getD (1, 1))
    else 0
  let old := match e.old with
    | some o =>
      if o.toBus = toBus ∧ o.dest = dest then
        let (a, b) := fadeFrac o.start o.n i
        mixTerm (x o.src) o.gain o.inv (b - a, b)
      else 0
    | none => 0
  cur + old

def State.route (s : State) (r : Nat) : RouteEngine := Map.get ({} : RouteEngine) r s.routes

/-- Add to a bus accumulator. -/
def State.accumulateBus (s : State) (bus j : Nat) (v : Int) : State :=
  { s with paths := { s.paths with busAcc := s.paths.busAcc.put 0 (64 * bus + j) (Map.get 0 (64 * bus + j) s.paths.busAcc + v) } }

/-- The contributions of every route to one destination in block `b` (R181): each route is replayed
from its engine at the block's start. -/
def State.routeJob (s : State) (toBus : Bool) (dest b : Nat) : State :=
  if !s.inTime b then s
  else
    let s0 := s.blockStart b
    (List.range 2048).foldl (fun s r =>
      ((s.blockSamples b).foldl (fun (acc : State × RouteEngine) i =>
        let e := acc.1.routeStep r i acc.2
        let v := e.term (fun src => s.routeSource src i) toBus dest i
        let s' := if v = 0 then acc.1
          else if toBus then acc.1.accumulateBus dest (i - s0) v else acc.1.accumulate dest (i - s0) v
        (s', e)) (s, s.route r)).1) s

def execRouteJob (toBus : Bool) (dest b : Nat) (s : State) : Res :=
  settle (s.once .route ((if toBus then 0x600 else 0x400) + dest) ((if toBus then 3072 else 2048) + dest) b (·.routeJob toBus dest b))

/-- Every route engine passes block `b`, and STATE shows the block (R179). -/
def State.passRoutes (s : State) (b : Nat) : State :=
  (List.range 2048).foldl (fun s r =>
    let e0 := s.route r
    let (e, live) := (s.blockSamples b).foldl (fun (acc : RouteEngine × Bool) i =>
      let e := s.routeStep r i acc.1
      (e, acc.2 || e.on || e.old.isSome)) (e0, false)
    let last := s.blockStart b + s.blockSize - 1
    let fading := e.old.any (fun o => last + 1 < o.start + o.n) ||
      (e.on && e.fade.any (fun f => last + 1 < f.1 + f.2))
    if e = e0 && !live && s.fld (.route r) Reg.Route.STATE_LIVE = 0 then s
    else ({ s with routes := s.routes.put {} r e }.setBit (.route r) Reg.Route.STATE_LIVE live).setBit
      (.route r) Reg.Route.STATE_FADING fading) s

/-- A route's cross-fade reaches its end: the fading-out part goes (R183). -/
def execRouteFadeEnd (r : Nat) (s : State) : Res :=
  let e := s.route r
  match e.old with
  | some o =>
    if o.start + o.n ≤ s.blockStart s.render.block then
      settle (({ s with routes := s.routes.put {} r { e with old := none } }).setBit (.route r)
        Reg.Route.STATE_FADING false)
    else settle s
  | none => settle s

/-! Buses -/

def State.busEngine (s : State) (n : Nat) : BusEngine := Map.get ({} : BusEngine) n s.buses

/-- Is a bus active at sample `i` (R176, R593)? -/
def State.busActiveAt (s : State) (n i : Nat) : Bool :=
  s.fldAt (.bus n) Reg.Bus.CTRL_ACTIVE i ≠ 0 && s.fldAt (Blk.bus n).page Reg.Hdr.ENABLE i ≠ 0

/-- Does a bus run in block `b`: it is active in it, or was and still falls? -/
def State.busRuns (s : State) (n b : Nat) : Bool :=
  (s.busEngine n).live || (s.busEngine n).gain.last ≠ 0 || (s.blockSamples b).any (s.busActiveAt n)

/-- The announcement bus of the model (R201). -/
def State.annBus (s : State) : Nat := s.model.buses - 1

/-- Is the announcement bus in use at sample `i`? -/
def State.announceAt (s : State) (i : Nat) : Bool := s.fldAt .curtain Reg.Curtain.CTRL_ANNOUNCE i ≠ 0

/-- Report a saturation event of a bus (R177). -/
def State.busEvent (s : State) (n bit : Nat) : State := s.stick (.bus n) Reg.Bus.EVT_FLAGS bit

/-- A bus that neither acts nor falls: it carries nothing. -/
def BusEngine.idle (e : BusEngine) : Bool := !e.live && e.gain.last = 0

/-- One sample of a bus (R177): the engine, the bus signal, the magnitude before step 5, and whether
steps 5 and 3 saturated. -/
def State.busSample (s : State) (n i : Nat) (sum : Int) (e : BusEngine) :
    BusEngine × Int × Nat × Bool × Bool :=
  let f := fun x => s.fldAt (.bus n) x i
  let act := s.busActiveAt n i
  let ramp := s.rampSamples (f Reg.Bus.RAMP_GAIN)
  let inv := f Reg.Bus.CTRL_INVERT ≠ 0
  let target : Int := if !act || f Reg.Bus.CTRL_MUTE ≠ 0 then 0 else f Reg.Bus.GAIN
  let g := if act && e.idle then ({ inv := inv } : GainStage).retarget i target ramp
    else e.gain.follow i ramp inv target
  let g := g.tick i
  let en := f Reg.Bus.EQ_SECTION_EN
  let secs := if e.idle then sectionsAt en 8 else sectionsTake e.sections en 8 i
  let x := if g.inv then -sum else sum
  let (secs, y, clip) := eqChain (s.motion.objEq (f Reg.Bus.EQ_SET)) satQ17 (96 * s.rateMul) i 8 secs x
  let z := applyGain y g.last
  let z' := satQ31 z
  ({ e with live := act, gain := g, sections := secs }, z', absNat z, z ≠ z', clip)

/-- A bus's job for block `b`: form its signal and add its direct output (R177, R178). -/
def State.busJob (s : State) (n b : Nat) : State :=
  if !s.inTime b then s
  else
    let s0 := s.blockStart b
    let (s, e, sat) := (s.blockSamples b).foldl (fun (acc : State × BusEngine × Bool) i =>
      let (s, e, sat) := acc
      let j := i - s0
      let idle := e.idle
      let (e, y, mag, o, clip) := s.busSample n i (Map.get 0 (64 * n + j) s.paths.busAcc) e
      let s := s.putSample { type := 4, unit := n } i y
      let s := s.peak (.bus n) Reg.Bus.PEAK (peakQ16 mag)
      let s := if clip then s.busEvent n 1 else s
      let f := fun x => s.fldAt (.bus n) x i
      -- The announcement bus feeds no direct output while ANNOUNCE is 1 (R201).
      let on := f Reg.Bus.DIRECT_EN ≠ 0 && !(n = s.annBus && s.announceAt i)
      let src : Source := { type := 4, unit := n }
      let d0 : RouteEngine := if idle then
          { on := on, src := src, dest := f Reg.Bus.DIRECT_OUT, gain := GainStage.at0 false (f Reg.Bus.DIRECT_GAIN) }
        else e.direct
      let d := d0.step i on src false (f Reg.Bus.DIRECT_OUT) (s.routeFade i)
        (s.rampSamples (f Reg.Bus.RAMP_GAIN)) false (f Reg.Bus.DIRECT_GAIN)
      let outs := (if d.on then [d.dest] else []) ++ (d.old.map (·.dest)).toList
      let s := outs.eraseDups.foldl (fun s o => s.accumulate o j (d.term (fun _ => y) false o i)) s
      (s, { e with direct := d }, sat || o)) (s, s.busEngine n, false)
    let s := { s with buses := s.buses.put {} n e }
    if sat then (s.busEvent n 0).count (.bus n) Reg.Bus.OVER_COUNT else s

def execBusJob (n b : Nat) (s : State) : Res := settle (s.once .bus (0x600 + n) (4096 + n) b (·.busJob n b))

end Sys2Proof.Machine
end

