-- ==== Sys2Proof/Machine/Banks.lean ====
section
/-! DEFINITION. The correction banks of an output: what they are, and what the registers show of them (R206, R207, R211,
R213 to R215, R222). -/

namespace Sys2Proof.Machine

open Sys2Proof

def State.out (s : State) (n : Nat) : OutEngine := Map.get ({} : OutEngine) n s.outs

def State.setOut (s : State) (n : Nat) (e : OutEngine) : State := { s with outs := s.outs.put {} n e }

def Corr.bank (c : Corr) (k : Nat) : Bank := if k = 0 then c.bank0 else c.bank1

def Corr.setBank (c : Corr) (k : Nat) (b : Bank) : Corr :=
  if k = 0 then { c with bank0 := b } else { c with bank1 := b }

/-- Covered length L of a filter of T taps (R207). -/
def coveredLength (t : Nat) : Nat :=
  ((List.range 10).map (fun k => 64 * 2 ^ k)).find? (fun l => t ≤ l) |>.getD 32768

/-- Segments used: log2(L) - 6. -/
def spanOf (t : Nat) : Nat := Nat.log2 (coveredLength t) - 6

def Bank.usable (b : Bank) : Bool := b.state = 2 || b.state = 3

/-- A WARM bank is VALID again. -/
def Bank.cool (b : Bank) : Bank := if b.state = 3 then { b with state := 2 } else b

/-- Both banks cool. -/
def Corr.cool (c : Corr) : Corr := { c with bank0 := c.bank0.cool, bank1 := c.bank1.cool }

/-- A running cross-fade ends with the new bank in place: the old one is idle and VALID (R222). -/
def Corr.fadeEnd (c : Corr) : Corr := if c.fade.isSome then { c.cool with fade := none } else c

/-- Delay lines and head states clear from sample `i`, and a running fade ends (R187, R227, R228). -/
def Corr.clear (c : Corr) (i : Nat) : Corr := { c.fadeEnd with hist := [], histFrom := i, seg := [], head := 0 }

/-- Warming restarts at sample `i`: what had been computed for an idle bank is gone (R227, R228). -/
def Corr.rewarm (c : Corr) (i : Nat) : Corr :=
  match ([0, 1] : List Nat).find? (fun k => c.live ≠ k + 1 && (c.bank k).state = 3) with
  | some k => { c.setBank k (c.bank k).cool with warming := some (k, i) }
  | none => { c with warming := c.warming.map (fun w => (w.1, i)) }

/-! What the registers show -/

/-- BANKk_INFO as one word: TAPS, FORM, SPAN (R213). -/
def Bank.info (b : Bank) : Nat :=
  if b.usable then b.taps.length % 65536 + 65536 * b.form + 2 ^ 24 * spanOf b.taps.length else 0

/-- The selection in use: an output whose selected bank is not usable counts as bypassed (R206). -/
def Corr.inUse (c : Corr) (sel : Nat) : Nat := if sel = 0 || (c.bank (sel - 1)).usable then sel else 0

/-- The live bank of a correction stage, if it is not in bypass. -/
def Corr.liveBank (c : Corr) : Option Bank :=
  if c.inUse c.live = 0 then none else some (c.bank (c.live - 1))

/-- The output record fields of R213. -/
def State.showCorr (s : State) (n : Nat) : State :=
  let c := (s.out n).corr
  let b := Blk.out n
  let i0 := c.bank0.info
  let s := s.set b Reg.Out.STATUS_LIVE (c.inUse c.live)
  let s := s.setBit b Reg.Out.STATUS_FADING c.fade.isSome
  let s := s.set b Reg.Out.STATUS_BANK0 c.bank0.state
  let s := s.set b Reg.Out.STATUS_BANK1 c.bank1.state
  let s := s.set b Reg.Out.BANK0_TAG (if c.bank0.usable then c.bank0.tag.toNat else 0)
  let s := s.set b Reg.Out.BANK1_TAG (if c.bank1.usable then c.bank1.tag.toNat else 0)
  let s := s.set b Reg.Out.BANK0_INFO_TAPS (i0 % 65536)
  let s := s.set b Reg.Out.BANK0_INFO_FORM (i0 / 65536 % 4)
  let s := s.set b Reg.Out.BANK0_INFO_SPAN (i0 / 2 ^ 24)
  let s := s.set b Reg.Out.BANK1_INFO c.bank1.info
  let s := s.set b Reg.Out.DELAY ((c.liveBank.map (·.delay)).getD 0)
  s.set b Reg.Out.PEAK_TAP ((c.liveBank.map (·.peakTap)).getD 0)

/-- Covered length a selection takes from the tap pool (R211). -/
def State.selLength (s : State) (n sel : Nat) : Nat :=
  if sel = 0 then 0
  else
    let b := (s.out n).corr.bank (sel - 1)
    if b.usable then coveredLength b.taps.length else 0

/-- Taps the monitor takes while it is enabled: 2 x TAPS for each virtual loudspeaker in use (R196);
the arguments are ENABLE, the HRIR slot and the loudspeakers in use. -/
def State.monitorTaps (s : State) (en : Bool) (slot virt : Nat) : Nat :=
  if en then 2 * (Map.get ({} : Hrir) slot s.monitor.slots).taps * virt else 0

/-- Enabled virtual loudspeakers of a register store (R194). -/
def virtUsed (get : Fld → Nat) : Nat :=
  ((List.range 64).filter (fun v => get (Reg.Monitor.VIRT_EN v) ≠ 0)).length

/-- POOL_USED: taps of the selected banks and of the monitor (R211, R215). -/
def State.tapsUsed (s : State) : Nat :=
  s.outs.foldl (fun a e => a + s.selLength e.1 e.2.corr.live) 0 +
    s.monitorTaps (s.bit .monitor Reg.Hdr.ENABLE) (s.fld .monitor Reg.Monitor.CTRL_HRIR_SEL)
      (virtUsed (s.fld .monitor))

/-- Covered length a bank takes from the coefficient store: every bank that is not EMPTY (R211). -/
def Bank.stored (b : Bank) : Nat :=
  if b.state = 0 then 0 else coveredLength (if b.state = 1 then b.staged.length else b.taps.length)

def State.storeUsed (s : State) : Nat :=
  s.outs.foldl (fun a e => a + e.2.corr.bank0.stored + e.2.corr.bank1.stored) 0

/-- The CORRECT page's counts (R215). -/
def State.showCorrect (s : State) : State :=
  let s := s.set .correct Reg.Correct.POOL_USED s.tapsUsed
  let s := s.set .correct Reg.Correct.STORE_USED s.storeUsed
  let s := s.set .correct Reg.Correct.COUNT_FADING (s.outs.filter (fun e => e.2.corr.fade.isSome)).length
  s.set .correct Reg.Correct.COUNT_WARM
    (s.outs.filter (fun e => e.2.corr.bank0.state = 3 || e.2.corr.bank1.state = 3)).length

/-- Replace an output's correction stage. -/
def State.setCorr (s : State) (n : Nat) (c : Corr) : State :=
  ((s.setOut n { s.out n with corr := c }).showCorr n).showCorrect

/-- What the end of a cross-fade does besides, where a change of the stage from `was` ended one: WARM clears, FADING and
the counts follow, and SWAPPED is set (R222). -/
def State.fadeEnded (s : State) (n : Nat) (was : Corr) : State :=
  if was.fade.isSome && (s.out n).corr.fade.isNone then
    (((s.setBoth (.out n) Reg.Out.CORR_WARM 0).showCorr n).showCorrect).event .correct 1
  else s

end Sys2Proof.Machine
end

