-- ==== Sys2Proof/Machine/Capture.lean ====
section
/-! DEFINITION. Capture chains, CAPTURE_TO_MEMORY and the excitation generators (R229 to R246). -/

namespace Sys2Proof.Machine

open Sys2Proof

/-! The chain's configuration (R229, R232, R239) -/

/-- Is the chain present on the model (R229)? -/
def chainPresent (m : Model) (c : Nat) : Bool :=
  if c < 16 then c < m.pdms
  else if c < 48 then c % 16 < m.pss
  else c < 56

/-- Modulator clock in hertz. -/
def fMod (c : Nat) : Nat := if c < 16 then 3072000 else if c < 48 then 12288000 else 6144000

/-- R, HB_COUNT and FIR_EN of a chain. -/
def State.decim (s : State) (c : Nat) : Nat × Nat × Nat :=
  (s.fld .capture (Reg.Capture.CH_DECIM_R c), s.fld .capture (Reg.Capture.CH_DECIM_HB_COUNT c),
   s.fld .capture (Reg.Capture.CH_DECIM_FIR_EN c))

def State.scMode (s : State) (c : Nat) : Bool := s.bit .capture (Reg.Capture.CH_CTRL_SCMODE c)

/-- Modulator periods per output sample. -/
def periods (scm : Bool) (r hb : Nat) : Nat := if scm then r else r * 2 ^ hb

/-- Does a configuration run at a rate (R233)? -/
def rateIs (fs c : Nat) (scm : Bool) (r hb : Nat) : Bool := !scm && periods scm r hb * fs = fMod c

/-- Is the chain a render-rate chain (R233)? -/
def State.renderRate (s : State) (c : Nat) : Bool :=
  let (r, hb, _) := s.decim c
  rateIs s.fs c (s.scMode c) r hb

/-- A group delay in 1/256 render sample: `hb1`, `hb2` and `fir` are the stages' delays (R239). -/
def groupDelay (fs c r hb fir : Nat) (scm : Bool) (hb1 hb2 firD : Nat) : Nat :=
  let num := if scm then (r - 1)
    else 2 * (2 * (r - 1)) + 2 * (if hb = 2 then hb1 * r else 0) +
      (if 1 ≤ hb then hb2 * r * 2 ^ hb else 0) + 2 * (fir * firD * r * 2 ^ hb)
  (roundDiv (256 * fs * num : Nat) (2 * fMod c)).toNat

/-- GROUP_DELAY and GD_MIN of the chain's active configuration. -/
def State.delays (s : State) (c : Nat) : Nat × Nat :=
  let (r, hb, f) := s.decim c
  (groupDelay s.fs c r hb f (s.scMode c) 15 39 15, groupDelay s.fs c r hb f (s.scMode c) 3 6 2)

def State.chain (s : State) (c : Nat) : ChainEngine := Map.get ({} : ChainEngine) c s.chains

def State.setChain (s : State) (c : Nat) (e : ChainEngine) : State := { s with chains := s.chains.put {} c e }

/-- The configuration that the chain's stages run. -/
def State.chainCfg (s : State) (c : Nat) : ChainCfg :=
  let (r, hb, f) := s.decim c
  { r := r, hb := hb, fir := f ≠ 0, scm := s.scMode c }

/-- Does the chain's modulator clock run (R230)? The modulators of the auxiliary chains are inside. -/
def State.chainClocked (s : State) (c : Nat) : Bool :=
  if c < 8 then s.bit .capture Reg.Capture.CLK_EN_PDM0
  else if c < 16 then s.bit .capture Reg.Capture.CLK_EN_PDM1
  else if 48 ≤ c then true
  else if c % 16 < 8 then s.bit .capture Reg.Capture.CLK_EN_SNS0
  else s.bit .capture Reg.Capture.CLK_EN_SNS1

/-! The stages (R232, R240) -/

/-- The sums over every run of `r` neighbours of a list. -/
def movingSums (r : Nat) (l : List Int) : List Int :=
  (List.range (l.length + 1 - r)).map (fun k => ((l.drop k).take r).sum)

/-- Stage 1: four cascaded moving averages of length R over the modulator's bits, full scale being a stream of ones;
none while they fill. -/
def cascade (r : Nat) (bits : List Bool) : Option Int :=
  if bits.length < 4 * r - 3 then none
  else
    let l := (bits.take (4 * r - 3)).map (fun b => if b then (1 : Int) else -1)
    let sum := (movingSums r (movingSums r (movingSums r (movingSums r l)))).sum
    some (roundOpen (sum * 2 ^ (31 + Config.chainGuard)) (r ^ 4 : Nat))

/-- Tap `k` of stage 2 (HB1), 3 (HB2) or 4 (FIR) of a set, in units of 2^-31. The linear-phase taps are symmetric; those of
a half-band are 1/2 in the centre and 0 at every other even distance from it. -/
def stageTap (linear : Bool) (stage k : Nat) : Int :=
  let centre := if stage = 3 then 39 else 15
  if linear then
    let d := absNat ((k : Int) - centre)
    if stage < 4 ∧ d = 0 then 2 ^ 30 else if stage < 4 ∧ d % 2 = 0 then 0 else Config.linearTap stage d
  else Config.minimumTap stage k

def stageLength (stage : Nat) : Nat := if stage = 3 then 79 else 31

/-- What a stage gives of its newest inputs: nothing while it fills. -/
def stageOut (linear : Bool) (stage : Nat) (h : List Int) : Option Int :=
  if h.length < stageLength stage then none
  else some (roundOpen (h.zipIdx.map (fun e => e.1 * stageTap linear stage e.2)).sum (2 ^ 31))

/-- A stage takes in a sample, where the stage before has one. -/
def stageTake (stage : Nat) (h : List Int) (x : Option Int) : List Int :=
  match x with
  | some x => (x :: h).take (stageLength stage)
  | none => h

/-- A half-band stage: of two inputs, one output. -/
def halfBand (linear : Bool) (stage : Nat) (h : List Int) : List (Option Int) → List Int × List (Option Int)
  | a :: b :: l =>
    let h := stageTake stage (stageTake stage h a) b
    let (h', ys) := halfBand linear stage h l
    (h', stageOut linear stage h :: ys)
  | _ => (h, [])

/-- The bits of one output period, oldest first, through stages 1 to 4, or through the one moving average of the
single-cycle mode (R240): the states, and the output, none while the stages fill. -/
def ChainStages.run (q : ChainStages) (cfg : ChainCfg) (linear : Bool) (bits : List Bool) : ChainStages × Option Int :=
  let older := q.bits
  let q := { q with bits := (bits.reverse ++ older).take (max (4 * cfg.r) 512) }
  if cfg.scm then
    (q, some (roundOpen ((bits.map (fun b => if b then (1 : Int) else -1)).sum * 2 ^ (31 + Config.chainGuard)) cfg.r))
  else
    let m := 2 ^ cfg.hb
    let x1 := (List.range m).map (fun j => cascade cfg.r ((bits.take ((j + 1) * cfg.r)).reverse ++ older))
    let (h1, x2) := if cfg.hb = 2 then halfBand linear 2 q.hb1 x1 else (q.hb1, x1)
    let (h2, x3) := if 1 ≤ cfg.hb then halfBand linear 3 q.hb2 x2 else (q.hb2, x2)
    let y := x3.headD none
    let h3 := if cfg.fir then stageTake 4 q.fir y else q.fir
    ({ q with hb1 := h1, hb2 := h2, fir := h3 }, if cfg.fir then (if y.isSome then stageOut linear 4 h3 else none) else y)

/-- OVER (R243): some 256 neighbouring modulator periods, ending in the newest `n`, hold more than 15/16 ones or zeros. -/
def overRun (bits : List Bool) (n : Nat) : Bool :=
  (List.range n).any (fun k =>
    let w := (bits.drop k).take 256
    let ones := w.count true
    w.length = 256 && (240 < ones || ones < 16))

/-- The input of an auxiliary chain (R240, R242): of the scan list in the single-cycle mode. -/
def State.auxInput (s : State) (c : Nat) : Nat :=
  if s.scMode c then s.fld .capture (Reg.Capture.CH_SCAN_LIST c) / 16 ^ (s.chain c).scan % 16
  else s.fld .capture (Reg.Capture.CH_CTRL_INPUT c)

/-- The bits of the modulator in the periods of a command, oldest first. A microphone's pin gives the level at the rising
and at the falling edge of its clock, and an even chain takes the first (R230); a sense pin gives one level; an auxiliary
chain's modulator takes the level of the input that is selected, AUX_VREF being zero. -/
def State.chainBits (s : State) (c n : Nat) (pin : List (Bool × Bool)) (aux : List (List Int)) : List Bool × (Int × Int) :=
  let e := s.chain c
  if c < 48 then
    ((List.range n).map (fun k =>
      let l := pin.getD k (false, false)
      if c < 16 ∧ c % 2 = 1 then l.2 else l.1), e.integrators)
  else
    let input := s.auxInput c
    ((List.range n).map (fun k => aux.getD k [])).foldl (fun (a : List Bool × (Int × Int)) l =>
      let (b, u, v) := Config.modulator a.2.1 a.2.2 (if input < 10 then l.getD input 0 else 0)
      (a.1 ++ [b], (u, v))) ([], e.integrators)

/-! Service (R236, R237) -/

/-- The service reasons that hold, as STATUS.SERVICE shows them (R236). -/
def State.reasons (s : State) (c : Nat) : Nat :=
  let e := s.chain c
  (if s.measure.startup then 1 else 0) + (if s.measure.recovery || e.psRecovery then 2 else 0) +
    (if s.bit .capture (Reg.Capture.CH_CTRL_TEST c) then 4 else 0) + (if e.measure ≠ 0 then 8 else 0)

/-- SERVICE.STATE; a change sets event SERVICE (R241). -/
def State.serviceState (s : State) : State :=
  let v := (if s.measure.startup then 1 else 0) + (if s.measure.recovery then 2 else 0)
  if v = s.fld .capture Reg.Capture.SERVICE_STATE then s
  else (s.set .capture Reg.Capture.SERVICE_STATE v).event .capture 1

/-- RECOVERY begins: the end of a render reset, or a takeover (R236). -/
def State.beginRecovery (s : State) : State :=
  { s with measure := { s.measure with recovery := true } }.serviceState

/-- A chain event; CHAIN becomes pending on the page (R241, R243). -/
def State.chainEvent (s : State) (c bit : Nat) : State :=
  let s := s.stick .capture (Reg.Capture.CH_EVT_FLAGS c) bit
  if (s.fld .capture (Reg.Capture.CH_EVT_EN c)).testBit bit then s.event .capture 0 else s

def ChainPhase.switching : ChainPhase → Bool
  | .down _ _ | .fill | .up _ => true
  | _ => false

/-- Does the output of the chain carry data (R230, R237, R243)? -/
def State.chainCarries (s : State) (c : Nat) : Bool :=
  let e := s.chain c
  e.phase = .settled && !e.stuck && s.chainClocked c

/-- Show a chain's status (R242). -/
def State.showChain (s : State) (c : Nat) : State :=
  let e := s.chain c
  let (gd, gm) := s.delays c
  let on := e.phase ≠ .off
  let s := s.setBit .capture (Reg.Capture.CH_STATUS_VALID c) (s.chainCarries c)
  let s := s.setBit .capture (Reg.Capture.CH_STATUS_LINEAR c) (on && e.linear)
  let s := s.setBit .capture (Reg.Capture.CH_STATUS_SWITCHING c) e.phase.switching
  let s := s.set .capture (Reg.Capture.CH_STATUS_SERVICE c) (if on then s.reasons c else 0)
  let s := s.set .capture (Reg.Capture.CH_STATUS_GROUP_DELAY c) (if on then gd else 0)
  s.set .capture (Reg.Capture.CH_STATUS_GD_MIN c) (if on then gm else 0)

/-- CLK_EN is written: VALID follows the clocks, and the outputs of a chain that stands still are counted anew. -/
def State.clocksWritten (s : State) : State :=
  (s.chains.map (·.1)).foldl (fun s c =>
    (if s.chainClocked c then s else s.setChain c { s.chain c with since := none }).showChain c) s

/-- A chain that starts, or starts again, with empty stages: the reasons and service stand (R237, R260). -/
def ChainEngine.refill (e : ChainEngine) (cfg : ChainCfg) (linear : Bool) : ChainEngine :=
  { phase := .fill, cfg := cfg, linear := linear, measure := e.measure, keepDcb := e.keepDcb, psRecovery := e.psRecovery }

/-- A chain at a block boundary: it starts, stops, takes a changed configuration, or begins a change of set (R237). In the
single-cycle mode there is no set to change. -/
def State.chainBoundary (s : State) (c i : Nat) : State :=
  if !chainPresent s.model c then s
  else
    let e := s.chain c
    let on := s.bit .capture (Reg.Capture.CH_CTRL_EN c)
    let want := s.reasons c ≠ 0
    let cfg := s.chainCfg c
    let e' : ChainEngine :=
      if !on then (if e.phase = .off then e else { measure := e.measure, keepDcb := e.keepDcb, psRecovery := e.psRecovery })
      else if e.phase = .off || e.cfg ≠ cfg then { e.refill cfg want with dc := e.dc }
      else if e.phase = .settled && want ≠ e.linear then
        (if cfg.scm then { e with linear := want } else { e with phase := .down i want })
      else e
    if e' = e && e.phase = .off then s else (s.setChain c e').showChain c

/-- Every chain at a block boundary. -/
def State.chainsBoundary (s : State) (i : Nat) : State :=
  (List.range 56).foldl (fun s c => s.chainBoundary c i) s

/-- 1 ms of render samples. -/
def State.ms (s : State) : Nat := 48 * s.rateMul

/-- The chain's phase at sample `i`, where `full` says that its stages have data, and the fade of its output as a fraction:
the half-band and FIR states are cleared for the other set where the ramp down ends (R237). -/
def ChainEngine.at_ (e : ChainEngine) (n i : Nat) (full : Bool) : ChainEngine × Nat × Nat :=
  match e.phase with
  | .off => (e, 0, 1)
  | .settled => (e, 1, 1)
  | .down st want =>
    if i < st + n then (e, n - (i - st + 1), n)
    else ({ e with linear := want, phase := .fill, stages := { e.stages with hb1 := [], hb2 := [], fir := [] } }, 0, 1)
  | .fill => if full then ({ e with phase := .up i }, 1, n) else (e, 0, 1)
  | .up st => (e, min (i - st + 1) n, n)

/-- Cut-off frequency of the DC blocker, Hz (R242). -/
def dcbHertz (code : Nat) : Nat := [1, 2, 5, 10, 20].getD code 1

/-- The DC blocker (R235): the new estimate and the output. -/
def State.dcBlock (s : State) (c : Nat) (e : ChainEngine) (x : Int) : Int × Int :=
  let (r, hb, _) := s.decim c
  let fo := fMod c / periods (s.scMode c) r hb
  let frozen := e.measure ≠ 0 && e.keepDcb = 0
  let mode := s.fld .capture (Reg.Capture.CH_CTRL_DCB c)
  if mode = 1 ∨ frozen then (e.dc, satQ31 (x - e.dc))
  else if mode = 2 then (0, x)
  else
    let d := dcStep e.dc x (dcbHertz (s.fld .capture (Reg.Capture.CH_CTRL_DCB_FC c))) fo
    (d, satQ31 (x - d))

/-! CAPTURE_TO_MEMORY records (R244, R245) -/

/-- The timestamp of a sample that leaves at an instant in 1/256 render sample, and whether it is CORRECTED (R238); 64
bits. -/
def State.timestamp (s : State) (c instant : Nat) : Nat × Bool :=
  if (s.chain c).linear then (((instant : Int) - (s.delays c).1).emod (2 ^ 64) |>.toNat, true) else (instant % 2 ^ 64, false)

/-- The instant at which output `k` after the first of a chain leaves: its outputs follow each other on the media clock
(R229, R238), and the instant is rounded to nearest. -/
def State.outputInstant (s : State) (c first k : Nat) : Nat :=
  let e := (s.chain c).cfg
  256 * first + (roundDiv (256 * s.fs * k * periods e.scm e.r e.hb : Nat) (fMod c)).toNat

/-- Write a record into a capture's buffer. A ring overwrites its oldest records; a one-shot whose
buffer cannot take the record is full. -/
def State.c2mRecord (s : State) (q : C2m) (words : List Word) : State × C2m :=
  let len := 4 * words.length
  if q.cancelled then (s, q)
  else if q.pos + len ≤ q.size then
    let s := s.bufWords q.handle q.pos words
    let recs := (if q.wrapped then q.recs.filter (fun o => o < q.pos || q.pos + len ≤ o) else q.recs) ++ [q.pos]
    (s, { q with pos := q.pos + len, recs := recs, oldest := recs.headD 0 })
  else if q.ring ∧ len ≤ q.size then
    let s := s.event .capture 3
    let s := s.bufWords q.handle 0 words
    let recs := (q.recs.filter (fun o => len ≤ o && o < q.pos)) ++ [0]
    (s, { q with pos := len, wrapped := true, recs := recs, oldest := recs.headD 0 })
  else (s, { q with cancelled := !q.ring })

/-- A record of chain `c`: its words (R244). The samples of a gap are zero. -/
def recordWords (c : Nat) (l : List Captured) : List Word :=
  let h := l.headD {}
  let gap := l.any (·.gap)
  let w0 := c + (if h.corrected then 256 else 0) + (if gap then 512 else 0) + (if l.any (·.clip) then 1024 else 0) +
    l.length % 65536 * 65536
  [BitVec.ofNat 32 w0, 0#32, BitVec.ofNat 32 h.stamp, BitVec.ofNat 32 (h.stamp / 2 ^ 32)] ++
    l.map (fun x => if x.gap then 0#32 else BitVec.ofInt 32 x.x)

/-- Samples in a record: a block of a render-rate chain, 16 of any other (R244). -/
def State.recordLength (s : State) (c : Nat) : Nat := if s.renderRate c then s.blockSize else 16

/-- Give a sample of chain `c` that left at render sample `i` to every capture that names it and has begun by then; a record
that is whole goes into the buffer. -/
def State.c2mTake (s : State) (c i : Nat) (x : Captured) : State :=
  let (s, qs) := s.measure.c2m.foldl (fun (acc : State × List C2m) q =>
    if q.on && q.mask.testBit c && q.from_ ≤ i then
      let l := Map.get [] c q.taken ++ [x]
      if l.length < s.recordLength c then (acc.1, acc.2 ++ [{ q with taken := q.taken.put [] c l }])
      else
        let (s, q) := acc.1.c2mRecord { q with taken := q.taken.put [] c [] } (recordWords c l)
        (s, acc.2 ++ [q])
    else (acc.1, acc.2 ++ [q])) (s, [])
  { s with measure := { s.measure with c2m := qs } }

/-- What a chain delivered at render sample `i`: VALID, and CLIP or OVER; none where it delivered nothing. -/
def ChainEngine.mark (e : ChainEngine) (i : Nat) : Option (Bool × Bool) :=
  (e.marks.find? (fun m => m.1 = i)).map (·.2)

/-- At the release of block `b`, the captures take the samples of the render-rate chains (R244). -/
def State.c2mBlock (s : State) (b : Nat) : State :=
  let cs := (List.range 56).filter (fun c => s.renderRate c && s.measure.c2m.any (fun q => q.on && q.mask.testBit c))
  (s.blockSamples b).foldl (fun s i =>
    cs.foldl (fun s c =>
      let m := ((s.chain c).mark i).getD (false, false)
      let (ts, cor) := s.timestamp c (256 * i)
      s.c2mTake c i { x := s.sample { type := 6, unit := c } i, stamp := ts, corrected := cor, gap := !m.1, clip := m.2 }) s) s

/-! Steps of chains -/

/-- The whole group delay of a chain in samples. -/
def State.delaySamples (s : State) (c : Nat) : Nat := (s.delays c).1 / 256

/-- A chain that a campaign or probe runs with clips, is stuck or is not VALID at sample `i` (R253, R257, R260). A clip
counts for the step to whose capture the sample belongs, and goes with a play that is discarded. -/
def State.markChain (s : State) (c i : Nat) (clip stuck bad : Bool) : State :=
  let m := s.measure
  let s := match m.campaign with
    | some q =>
      let named := fun (step : Nat) => (q.desc.sets.getD (step / q.desc.outs.length) 0).testBit c
      match q.stepStart with
      | some st =>
        if st + s.delaySamples c ≤ i then
          if named q.step ∧ (clip ∨ stuck) then
            let q := { q with runClipped := if clip then q.runClipped ||| 2 ^ c else q.runClipped,
                              stuck := if stuck then q.stuck ||| 2 ^ c else q.stuck }
            let s := { s with measure := { m with campaign := some q } }
            if clip then s.event .measure 4 else s
          else s
        else match q.decon with
          | some (step, _) =>
            if named step ∧ clip ∧ q.playBase = 0 then
              { s with measure := { m with campaign := some { q with deconClipped := q.deconClipped ||| 2 ^ c } } }.event .measure 4
            else s
          | none => s
      | none => s
    | none => s
  match s.measure.probe with
  | some p =>
    if p.mask.testBit c ∧ (bad ∨ clip) then
      { s with measure := { s.measure with probe := some { p with badUntil := i + 1 } } }
    else s
  | none => s

/-- Is a capture chain an object or route source? The understudy then uses the principal's samples (R491). -/
def State.chainUsed (s : State) (c : Nat) : Bool :=
  (List.range s.model.objects).any (fun n =>
    s.fld (.obj n) Reg.Obj.SOURCE_TYPE = 6 && s.fld (.obj n) Reg.Obj.SOURCE_UNIT = c) ||
  (List.range 2048).any (fun r => s.bit (.route r) Reg.Route.CTRL_ENABLE &&
    s.fld (.route r) Reg.Route.SRC_TYPE = 6 && s.fld (.route r) Reg.Route.SRC_UNIT = c)

/-- A chain delivers an output sample (R232, R235, R240, R243) of one output period. -/
def State.chainSample (s : State) (c : Nat) (pin : List (Bool × Bool)) (aux : List (List Int)) : State :=
  if !chainPresent s.model c || (s.chain c).phase = .off || !s.chainClocked c then s
  else
    let i := s.render.rsi
    let e := s.chain c
    let cfg := e.cfg
    let n := periods cfg.scm cfg.r cfg.hb
    let (bits, integ) := s.chainBits c n pin aux
    let (st, x) := e.stages.run cfg e.linear bits
    let clipped := overRun st.bits n
    let (e, f, m) := { e with stages := st, integrators := integ }.at_ s.ms i x.isSome
    let g := roundOpen (x.getD 0 * s.fld .capture (Reg.Capture.CH_GAIN c)) (2 ^ (28 + Config.chainGuard))
    let g' := satQ31 g
    let (d, y) := s.dcBlock c e g'
    let y := if e.stuck then 0 else roundDiv (y * f) m
    let ok := e.phase = .settled && !e.stuck
    let clip := clipped || g ≠ g'
    let first := (e.since.map (·.1)).getD i
    let k := (e.since.map (fun q => q.2 + 1)).getD 0
    let e := { e with dc := d, valid := ok, since := some (first, k), marks := ((i, ok, clip) :: e.marks).take 256 }
    let s := s.setChain c e
    let s := if clipped then s.chainEvent c 0 else s
    let s := if g ≠ g' then s.chainEvent c 1 else s
    let s := s.markChain c i clip e.stuck (!ok)
    let s := s.peak .capture (Reg.Capture.CH_PEAK c) (absNat y / 2 ^ 16)
    let s := s.showChain c
    if s.renderRate c then (if s.lockUnd && s.chainUsed c then s else s.putSample { type := 6, unit := c } i y)
    else
      let s := if cfg.scm then s.set .capture (Reg.Capture.SCAN_VALUE (c - 48) e.scan) (unsigned 32 y / 2 ^ 16) else s
      let (ts, cor) := s.timestamp c (s.outputInstant c first k)
      s.c2mTake c i { x := if cfg.scm then 16 * y.fdiv 16 + (e.scan : Int) else y, stamp := ts, corrected := cor
                      gap := !ok, clip := clip }

def execChainOutputSample (c : Nat) (pin : List (Bool × Bool)) (aux : List (List Int)) (s : State) : Res :=
  settle (s.chainSample c pin aux)

/-- The bitstream has made no transition for 1,024 modulator periods, or makes one again (R243). -/
def execStuck (c : Nat) (on : Bool) (s : State) : Res :=
  let e := s.chain c
  if e.phase = .off || !s.chainClocked c then settle s
  else
    let s := (s.setChain c { e with stuck := on }).showChain c
    let s := if on && !e.stuck then s.chainEvent c 2 else s
    -- VSNSk STUCK while its channel runs is event SENSE of PSk (R289).
    let q := Map.get ({} : PsEngine) (c - 32) s.ps
    settle (if on && 32 ≤ c && c < 48 && (q.state = .running || q.state = .recovering) then s.event (.ps (c - 32)) 3 else s)

/-- At an output period boundary the single-cycle scan moves to its next input, and the modulator's integrators are cleared
(R240). -/
def execScanSwitch (c : Nat) (s : State) : Res :=
  let e := s.chain c
  if s.scMode c ∧ e.phase ≠ .off then
    let len := s.fld .capture (Reg.Capture.CH_SCAN_LEN c)
    -- SCAN.LEN holds 1 to 8 in three bits: 0 stands for 8.
    let len := if len = 0 then 8 else len
    settle (s.setChain c { e with scan := (e.scan + 1) % len, integrators := (0, 0) })
  else settle s

/-- The change of R237 ends: event SWITCHED. -/
def execSwitched (c : Nat) (s : State) : Res :=
  let e := s.chain c
  match e.phase with
  | .up st =>
    if st + s.ms ≤ s.render.rsi + 1 then
      settle (((s.setChain c { e with phase := .settled }).showChain c).chainEvent c 3)
    else settle s
  | _ => settle s

/-- The house seat writes SERVICE.DONE: STARTUP and RECOVERY end (R236). -/
def State.serviceDone (s : State) : State :=
  { s with measure := { s.measure with startup := false, recovery := false } }.serviceState

def execServiceDone (s : State) : Res := settle s.serviceDone

/-! CAPTURE_TO_MEMORY -/

/-- Chains of a mask, ascending. -/
def chainsOf (mask : Nat) : List Nat := (List.range 56).filter mask.testBit

/-- Name the chains of a mask in MEASURE service, or let them go (R236). -/
def State.chainService (s : State) (mask : Nat) (on keep : Bool) : State :=
  (chainsOf mask).foldl (fun s c =>
    let e := s.chain c
    let k := if keep then 1 else 0
    s.setChain c { e with measure := if on then e.measure + 1 else e.measure - 1
                          keepDcb := if on then e.keepDcb + k else e.keepDcb - k }) s

/-- Why a command may not name the chains of a mask (R231, R233). -/
def State.chainsFault (s : State) (mask : Nat) (renderOnly : Bool) : Option Nat :=
  if (chainsOf mask).any (fun c => !chainPresent s.model c) then some Status.absentUnit
  else if (chainsOf mask).any (fun c => !s.bit .capture (Reg.Capture.CH_CTRL_EN c)) then some Status.badParam
  else if renderOnly ∧ (chainsOf mask).any (fun c => !s.renderRate c) then some Status.rateMismatch
  else none

/-- CAPTURE_TO_MEMORY begins (R244): its checks and its buffer. -/
def State.captureToMemory (c : Cmd) (s : State) : State :=
  let mask := c.n 0 + 2 ^ 32 * c.n 1
  let start := c.n 3 + 2 ^ 32 * c.n 4
  if 2 ^ 56 ≤ mask ∨ mask = 0 ∨ 16 < (chainsOf mask).length ∨ c.n 2 = 0 then
    s.finish c.seat c.tag Status.badParam
  else if 4 ≤ s.measure.c2m.length then s.finish c.seat c.tag Status.busy
  else match s.chainsFault mask false with
    | some e => s.finish c.seat c.tag e
    | none =>
      match s.newBuffer c.seat (c.n 2) with
      | none => s.finish c.seat c.tag Status.noCapacity
      | some (h, s) =>
        let q : C2m := {
          seat := c.seat, tag := c.tag, ring := c.flag 0, measure := c.flag 1, mask := mask,
          size := c.n 2, start := if start = 2 ^ 64 - 1 then none else some start, handle := h }
        let s := { s with measure := { s.measure with c2m := s.measure.c2m ++ [q] } }
        let s := s.set .capture Reg.Capture.C2M_ACTIVE s.measure.c2m.length
        if q.measure then s.chainService mask true false else s

def execCaptureToMemory (seat tag : Nat) (s : State) : Res :=
  settle (s.command seat tag 0x38 State.captureToMemory)

/-- Recording begins: at the named sample, or at a block boundary if none is named or it has passed, after any change of
R237 (R245). -/
def execC2mStart (seat tag : Nat) (s : State) : Res :=
  let qs := s.measure.c2m.map (fun q =>
    if q.seat = seat ∧ q.tag = tag ∧ !q.on ∧
        (q.start = some s.render.rsi ∨ (q.start.getD 0 ≤ s.render.rsi ∧ s.render.rsi % s.blockSize = 0)) ∧
        (!q.measure || (chainsOf q.mask).all (fun c => (s.chain c).phase = .settled && (s.chain c).linear))
    then { q with on := true, from_ := s.render.rsi } else q)
  settle { s with measure := { s.measure with c2m := qs } }

/-- A capture ends: its completion, and its chains leave MEASURE (R244, R245). -/
def State.c2mEnd (s : State) (q : C2m) (status : Nat) : State :=
  let s := { s with measure := { s.measure with c2m := s.measure.c2m.filter (fun r => r.seat ≠ q.seat || r.tag ≠ q.tag) } }
  let s := s.set .capture Reg.Capture.C2M_ACTIVE s.measure.c2m.length
  let s := if q.measure then s.chainService q.mask false false else s
  let s := s.event .capture 2
  if q.ring then s.finish q.seat q.tag status q.handle q.oldest
  else s.finish q.seat q.tag status q.pos q.handle

/-- A one-shot buffer is full, or a cancelled capture reaches the next boundary (R244, R245). -/
def execC2mDone (seat tag : Nat) (s : State) : Res :=
  match s.measure.c2m.find? (fun q => q.seat = seat && q.tag = tag) with
  | none => settle s
  | some q =>
    let asked := ((s.cmdOf seat tag).map (·.cancel.isSome)).getD false
    if asked ∧ s.render.rsi % s.blockSize = 0 then settle (s.c2mEnd q Status.cancelled)
    else if q.cancelled ∨ (!q.ring ∧ q.pos = q.size) then settle (s.c2mEnd q Status.ok)
    else settle s

/-! Generators (R246) -/

/-- The exponents of the MLS polynomials besides the order. -/
def mlsTaps (order : Nat) : List Nat :=
  match order with
  | 10 => [7] | 11 => [9] | 12 => [11, 10, 4] | 13 => [12, 11, 8] | 14 => [13, 12, 2] | 15 => [14]
  | _ => [15, 13, 4]

/-- The first n + 1 bits of the sequence, newest first: the register starts with every bit 1. -/
def mlsBits (order : Nat) (taps : List Nat) : Nat → List Bool
  | 0 => List.replicate order true
  | n + 1 =>
    let w := mlsBits order taps n
    (taps.foldl (fun b t => b ^^ w.getD (t - 1) false) (w.getD (order - 1) false)) :: w.take (order - 1)

/-- Bit n of the MLS: the bit shifted out of the register. -/
def mlsBit (order n : Nat) : Bool :=
  let taps := if Config.mlsReciprocal then (mlsTaps order).map (order - ·) else mlsTaps order
  (mlsBits order taps (n % (2 ^ order - 1))).getD (order - 1) false

/-- An excitation's sample n, Q1.31, from its parameters (R246, R250). -/
def excitation (fs type level f1 f2 length seed fade n : Nat) : Int :=
  satQ31 (match type with
  | 1 => sineAt level f1 fs n
  | 2 => clampInt (-(8 * level : Nat)) (8 * level : Nat) (Config.pink level (if seed = 0 then 1 else seed) n)
  | 3 => if mlsBit length n then (8 * level : Nat) else -((8 * level : Nat) : Int)
  | 4 => sweepAt level f1 f2 length fade fs (n % 2 ^ length)
  | _ => 0)

/-- The period of a generator in samples, for POS; 0 where it has none. -/
def genPeriod (type length : Nat) : Nat :=
  match type with
  | 3 => 2 ^ length - 1
  | 4 => 2 ^ length
  | _ => 0

/-- A generator at sample `i`: RUN starts it from phase 0 at its apply sample. -/
def State.genStep (s : State) (g i : Nat) : State :=
  let f := fun x => s.fldAt .measure x i
  let e := Map.get ({} : GenEngine) g s.measure.gens
  let run := f (Reg.Measure.GEN_CTRL_RUN g) ≠ 0 && f (Reg.Measure.GEN_CTRL_TYPE g) ≠ 0
  if !run then
    if e.start.isNone then s
    else { s with measure := { s.measure with gens := s.measure.gens.put {} g {} } }
  else
    let st := e.start.getD i
    let n := i - st
    let len := f (Reg.Measure.GEN_LENGTH g)
    let y := excitation s.fs (f (Reg.Measure.GEN_CTRL_TYPE g)) (f (Reg.Measure.GEN_LEVEL g))
      (f (Reg.Measure.GEN_F1 g)) (f (Reg.Measure.GEN_F2 g)) len (f (Reg.Measure.GEN_SEED g))
      (s.rampSamples (f (Reg.Measure.GEN_FADE g))) n
    let p := genPeriod (f (Reg.Measure.GEN_CTRL_TYPE g)) len
    let s := { s with measure := { s.measure with gens := s.measure.gens.put {} g { e with start := some st } } }
    (s.putSample { type := 5, unit := g } i y).set .measure (Reg.Measure.GEN_POS g) (if p = 0 then n else n % p)

/-- Every generator over block `b`. -/
def State.genBlock (s : State) (b : Nat) : State :=
  (s.blockSamples b).foldl (fun s i => (List.range 16).foldl (fun s g => s.genStep g i) s) s

end Sys2Proof.Machine
end

