-- ==== Sys2Proof/Machine/Outputs.lean ====
section
/-! DEFINITION. The shaping chain of an output: gain, biquads, bass management, dynamics, correction,
the protection stage and the final limiter (R17, R186 to R193, R206 to R224, R251, R261 to R267). -/

namespace Sys2Proof.Machine

open Sys2Proof

/-- Unity in Q4.28. -/
def unity : Nat := 0x10000000

/-- Is output `n` active at sample `i` (R186, R593)? -/
def State.outActiveAt (s : State) (n i : Nat) : Bool :=
  s.fldAt (.out n) Reg.Out.CTRL_ACTIVE i ≠ 0 && s.fldAt (Blk.out n).page Reg.Hdr.ENABLE i ≠ 0

/-- Does an output render in block `b`: it is active in it, or was and still falls? -/
def State.outRuns (s : State) (n b : Nat) : Bool :=
  (s.out n).live || (s.out n).falling.isSome || (s.blockSamples b).any (s.outActiveAt n)

def State.outEvent (s : State) (n bit : Nat) : State := s.stick (.out n) Reg.Out.EVT_FLAGS bit

def State.protEvent (s : State) (n bit : Nat) : State := s.stick (.out n) Reg.Out.PEVT_FLAGS bit

/-- A look-ahead of 0.5 ms in samples (R192, R261). -/
def State.lookahead (s : State) (on : Bool) : Nat := if on then 24 * s.rateMul else 0

/-- The chain's states clear: from here the output carries zero (R187); a correction fade ends with
the new bank in place (R228). Thermal states are kept. -/
def OutEngine.clear (e : OutEngine) (i : Nat) : OutEngine :=
  { e with
    sections := [], hp0 := {}, hp1 := {}, env := 0, ahead := [], lim := unity, annLim := unity,
    corr := { e.corr.clear i with warming := none, head := e.corr.head },
    prot := { e.prot with exc := {}, exc2 := {}, ahead := [], gx := unity } }

/-! The excitation of a campaign (R250, R251) -/

/-- E: samples of one play without its gap; of one period of the register or the noise (R250). -/
def CampDesc.period (d : CampDesc) : Nat :=
  match d.exc with
  | 1 => 2 ^ d.excLog2
  | 2 => 2 ^ d.excLog2 - 1
  | _ => 2 ^ d.irLog2

/-- Samples of the GAP at a rate. -/
def CampDesc.gapSamples (d : CampDesc) (mul : Nat) : Nat := d.gap * 48 * mul

/-- Where sample `k` of a run that began with `base` plays complete stands: its play and the position
in it; a SWEEP play carries its gap, the first period of MLS and PINK is discarded. -/
def CampDesc.place (d : CampDesc) (mul base k : Nat) : Option (Nat × Nat) :=
  let e := d.period
  if d.exc = 1 then
    let g := e + d.gapSamples mul
    if base + k / g < d.averages then some (base + k / g, k % g) else none
  else if e ≤ k ∧ base + k / e ≤ d.averages then some (base + k / e - 1, k % e)
  else none

/-- Samples of a run of plays, its gap included, up to the end of play `p`. -/
def CampDesc.playEnd (d : CampDesc) (mul base p : Nat) : Nat :=
  let e := d.period
  if d.exc = 1 then (p + 1 - base) * (e + d.gapSamples mul)
  else (p + 2 - base) * e + (if p + 1 = d.averages then d.gapSamples mul else 0)

/-- The excitation at the k-th sample of a run. -/
def CampDesc.at_ (d : CampDesc) (fs base k : Nat) : Int :=
  let mul := fs / 48000
  if d.exc = 1 then
    match d.place mul base k with
    | some (_, p) => if p < d.period then excitation fs 4 d.level d.f1 d.f2 d.excLog2 d.seed (d.fade * 6 * mul) p else 0
    | none => 0
  else if k < (d.averages - base + 1) * d.period then
    excitation fs (if d.exc = 2 then 3 else 2) d.level d.f1 d.f2 d.excLog2 d.seed 0 k
  else 0

/-- Output and set of measurement step i (R249). -/
def CampDesc.stepOut (d : CampDesc) (i : Nat) : Nat := d.outs.getD (i % d.outs.length) 0
def CampDesc.stepSet (d : CampDesc) (i : Nat) : Nat := i / d.outs.length

/-- What the campaign puts into its outputs: nothing while no run of plays is under way. -/
def Campaign.excitation (q : Campaign) : Excitation :=
  { desc := q.desc, step := q.step, stepStart := q.stepStart, playBase := q.playBase, holdFrom := q.holdFrom, holdTo := q.holdTo }

/-- The excitation of the module's own campaign, or, on a LOCKSTEP understudy, the one the principal forwards (R248). -/
def State.excites (s : State) : Option Excitation :=
  if s.lockUnd then s.twin.excite else s.measure.campaign.map Campaign.excitation

/-- The chain signal at an injection point of output `n` (R251): replaced while the output is held,
with a fade of 5 ms at the two boundaries. -/
def State.inject (s : State) (n i : Nat) (post : Bool) (x : Int) : Int :=
  match s.excites with
  | none => x
  | some c =>
    match c.holdFrom with
    | none => x
    | some h =>
      if !c.desc.outs.contains n || c.desc.postCorr ≠ post || i < h then x
      else
        let exc := match c.stepStart with
          | some st => if c.desc.stepOut c.step = n ∧ st ≤ i then c.desc.at_ s.fs c.playBase (i - st) else 0
          | none => 0
        let m := 240 * s.rateMul
        match c.holdTo with
        | some t => if t ≤ i then mixFade exc x (i - t) m else mixFade x exc (i - h) m
        | none => mixFade x exc (i - h) m

/-! Gain to dynamics -/

/-- Coefficients from a list. -/
def coeffs (l : List Int) : Int × Int × Int × Int × Int :=
  (l.getD 0 0, l.getD 1 0, l.getD 2 0, l.getD 3 0, l.getD 4 0)

/-- Coefficients of section `j` of output EQ set `k` (R188). -/
def State.outEqAt (s : State) (k j : Nat) : Int × Int × Int × Int × Int :=
  if k = 0 then eqPass else eqCoeff s.outEq (80 * k) j

/-- The gain stage and activation of an output at sample `i` (R187). -/
def State.outGain (s : State) (n i : Nat) (e : OutEngine) : OutEngine :=
  let f := fun x => s.fldAt (.out n) x i
  let act := s.outActiveAt n i
  let ramp := s.rampSamples (f Reg.Out.RAMP_GAIN)
  let inv := f Reg.Out.CTRL_INVERT ≠ 0
  let target : Int := if f Reg.Out.CTRL_MUTE ≠ 0 then 0 else f Reg.Out.GAIN
  let e :=
    if act && !e.live then
      match e.falling with
      | some z =>
        -- A STOPPED output that changes its filter starts from zero states even then (R224).
        let anew := e.corr.since = i && e.corr.live ≠ e.corr.before && f Reg.Out.CORR_POLICY = 0
        if i ≤ z && !anew then { e with live := true, falling := none, gain := e.gain.retarget i target ramp }
        else { e.clear i with
                 live := true, falling := none,
                 gain := ({ inv := inv } : GainStage).retarget i target ramp }
      | none => { e.clear i with
                 live := true,
                 gain := ({ inv := inv } : GainStage).retarget i target ramp }
    else if !act && e.live then
      { e with live := false, falling := some (zeroFrom e.gain.last i ramp), gain := e.gain.retarget i 0 ramp }
    else if e.live then { e with gain := e.gain.follow i ramp inv target }
    else e
  { e with gain := e.gain.tick i }

/-- The dynamics stage (R191): the detector and the gain. -/
def State.dynamics (s : State) (n i : Nat) (env : Nat) (x : Int) : Nat × Int :=
  let f := fun y => s.fldAt (.out n) y i
  if f Reg.Out.DYN_EN = 0 then (0, x)
  else
    let m := absNat x
    let a := if env < m then detectorCoeff (125 * f Reg.Out.DYN_ATTACK) s.fs
      else detectorCoeff (4000 * f Reg.Out.DYN_RELEASE) s.fs
    let env := (roundOpen ((env : Int) * 2 ^ 28 + (a : Int) * ((m : Int) - env)) (2 ^ 28)).toNat
    let g := compressor env (f Reg.Out.DYN_THRESH) (f Reg.Out.DYN_RATIO)
    (env, satQ17 (roundOpen (x * g) (2 ^ 28)))

def State.bassGroup (s : State) (g : Nat) : BassGroup := Map.get ({} : BassGroup) g s.bass

/-- The crossover frequency of a group at sample `i`. -/
def State.bassFc (s : State) (g i : Nat) : Nat := s.fldAt .render (Reg.Render.BM_GROUP_FC g) i

/-- Two cascaded Butterworth sections (R189); whether either saturated. -/
def crossover (hp : Bool) (fc fs : Nat) (a b : Section) (x : Int) : Section × Section × Int × Bool :=
  let c := coeffs (butterworth hp fc fs)
  let (a, y, c0) := a.run c satQ17 x
  let (b, z, c1) := b.run c satQ17 y
  (a, b, z, c0 || c1)

/-- The active SUBs of a group at sample `i`. -/
def State.subsOf (s : State) (g i : Nat) : List Nat :=
  (List.range 512).filter (fun n => s.outActiveAt n i && s.fldAt (.out n) Reg.Out.BM_ROLE i = 2 &&
    s.fldAt (.out n) Reg.Out.BM_GROUP i = g)

/-- The group sum passes once through the low-pass, after every MAIN of the block (R189). -/
def State.bassLow (s : State) (g b : Nat) : State :=
  let q := s.bassGroup g
  if q.done = b + 1 then s
  else
    let s0 := s.blockStart b
    let (q, clip) := (s.blockSamples b).foldl (fun (acc : BassGroup × Bool) i =>
      let (q, clip) := acc
      let x := Map.get 0 (i - s0) q.sum
      let x' := satQ17 x
      let (a, c, y, k) := crossover false (s.bassFc g i) s.fs q.lp0 q.lp1 x'
      ({ q with lp0 := a, lp1 := c, low := q.low.put 0 (i - s0) y }, clip || k || x ≠ x')) (q, false)
    let s := { s with bass := s.bass.put {} g { q with done := b + 1 } }
    if clip then (s.subsOf g s0).foldl (fun s n => s.outEvent n 2) s else s

/-- Bass management of one sample (R189). -/
def State.bassStage (s : State) (n i j : Nat) (e : OutEngine) (x : Int) : State × OutEngine × Int :=
  let g := s.fldAt (.out n) Reg.Out.BM_GROUP i
  match s.fldAt (.out n) Reg.Out.BM_ROLE i with
  | 1 =>
    let q := s.bassGroup g
    let s := { s with bass := s.bass.put {} g { q with sum := q.sum.put 0 j (Map.get 0 j q.sum + x) } }
    let (a, b, y, clip) := crossover true (s.bassFc g i) s.fs e.hp0 e.hp1 x
    (if clip then s.outEvent n 2 else s, { e with hp0 := a, hp1 := b }, y)
  | 2 => (s, e, satQ17 (x + Map.get 0 j (s.bassGroup g).low))
  | _ => (s, e, x)

/-- The SHAPE_PRE job (R168, R187 to R191): accumulator to dynamics, and the PRE_CORR injection. -/
def State.shapePre (s : State) (n b : Nat) : State :=
  let e0 := s.out n
  let s0 := s.blockStart b
  if !s.inTime b || e0.preDone = b + 1 then s
  else
    let s := if s.fldAt (.out n) Reg.Out.BM_ROLE s0 = 2 then s.bassLow (s.fldAt (.out n) Reg.Out.BM_GROUP s0) b else s
    let (s, e, sat) := (s.blockSamples b).foldl (fun (acc : State × OutEngine × Bool) i =>
      let (s, e, sat) := acc
      let j := i - s0
      let still := !e.live && e.falling.all (· < i)
      let e := s.outGain n i e
      let sum := Map.get 0 (64 * n + j) s.paths.acc
      let x := satQ17 sum
      let x' := if e.gain.inv then -x else x
      let p := applyGain x' e.gain.last
      let p' := satQ17 p
      let f := fun y => s.fldAt (.out n) y i
      let en := f Reg.Out.EQ_SECTION_EN
      let secs := if still then sectionsAt en 16 else sectionsTake e.sections en 16 i
      let (secs, y, clip) := eqChain (s.outEqAt (f Reg.Out.EQ_SET)) satQ17 (96 * s.rateMul) i 16 secs p'
      let e := { e with sections := secs, tap := e.tap.put 0 j p' }
      let (s, e, z) := s.bassStage n i j e y
      let (env, w) := s.dynamics n i e.env z
      let w := s.inject n i false w
      let e := { e with env := env, pre := e.pre.put 0 j w }
      let s := if clip then s.outEvent n 2 else s
      (s, e, sat || sum ≠ x || p ≠ p')) (s, e0, false)
    let e := { e with preDone := b + 1 }
    let corr := { e.corr with hist := (s.blockSamples b).foldl (fun (h : Map Int) i =>
      h.put 0 (i % 65536) (Map.get 0 (i - s0) e.pre)) e.corr.hist }
    let s := (s.setOut n { e with corr := corr }).fadeEnded n e0.corr
    if sat then (s.event .path 3).count .path Reg.Path.ACC_SAT_COUNT else s

def execShapePreJob (n b : Nat) (s : State) : Res :=
  settle (if s.granted .shapePre (0x400 + n) b then s.shapePre n b else s)

/-- A deactivation ramp reaches 0: the chain's states clear (R187). -/
def execOutputRampZero (n : Nat) (s : State) : Res :=
  let e := s.out n
  match e.falling with
  | some z =>
    if z ≤ s.blockStart s.render.block then
      settle ((s.setOut n { e.clear z with falling := none, pre := [], tap := [], egress := [] }).fadeEnded n e.corr)
    else settle s
  | none => settle s

/-! Correction (R206 to R224) -/

/-- Input of the correction stage at sample `i` (Int: may lie before the start). -/
def Corr.input (c : Corr) (i : Int) : Int :=
  if i < c.histFrom then 0 else Map.get 0 (i.toNat % 65536) c.hist

/-- The head: taps 0 to 63, exact and rounded once (R209). -/
def Corr.headAt (c : Corr) (b : Bank) (i : Nat) : Int :=
  roundShift ((b.taps.take 64).zipIdx.foldl (fun a e => a + e.1 * c.input ((i : Int) - e.2)) 0) 31

/-- The error of the segments' block arithmetic at sample `i`: over each group of 64 samples, the smallest that a segment
has, it stays below -125 dBFS RMS, 1,207 units of 2^-31, and it follows from the taps and from the input before the
group (R209; the spec gives the arithmetic no more closely: log entry 11). -/
def Corr.blockError (c : Corr) (b : Bank) (n i : Nat) : Int :=
  let g := i / 64 * 64
  let reach := 3 * coveredLength b.taps.length / 2
  let e := Config.convolutionError n b.taps (fun d => if d < reach then c.input ((g : Int) - 1 - d) else 0)
  if ((List.range 64).map (fun j => absNat (e (g + j)) ^ 2)).sum ≤ 64 * 1207 ^ 2 then e i else 0

/-- The segments: taps 64 and above (R209). -/
def Corr.segmentsAt (c : Corr) (b : Bank) (n i : Nat) : Int :=
  if b.taps.length ≤ 64 then 0
  else
    roundShift ((b.taps.zipIdx.drop 64).foldl (fun a e => a + e.1 * c.input ((i : Int) - e.2)) 0) 31 + c.blockError b n i

/-- What a selection contributes: bypass, or a usable bank (R206). Whether the sum saturated. -/
def Corr.select (c : Corr) (sel n i : Nat) (x : Int) : Int × Bool :=
  let b := c.bank (sel - 1)
  if sel = 0 || !b.usable then (x, false)
  else
    let y := c.headAt b i + c.segmentsAt b n i
    (satQ17 y, y ≠ satQ17 y)

/-- The stage's output, with its cross-fade (R206, R222). Before the swap sample the earlier selection
is in use. -/
def Corr.stage (c : Corr) (n i : Nat) (x : Int) : Int × Bool :=
  if i < c.since then c.select c.before n i x
  else
    let (y, s1) := c.select c.live n i x
    match c.fade with
    | some f =>
      let (o, s0) := c.select f.old n i x
      (mixFade o y (i - f.start) f.n, s0 || s1)
    | none => (y, s1)

/-- First sample of the group of segment size P that holds sample `i` (R208). -/
def groupStart (n P i : Nat) : Int := (i : Int) - (((i : Int) - 64 * n) % P)

/-- Have the segments of a bank that block [s0, ..) needs been computed (R208)? A group that begins
before the delay lines hold anything needs nothing. -/
def Corr.ready (c : Corr) (n k s0 : Nat) : Bool :=
  let b := c.bank k
  !b.usable || (List.range (spanOf b.taps.length)).all (fun j =>
    let g := groupStart n (64 * 2 ^ j) s0
    decide (g ≤ c.histFrom) || decide (g + 1 ≤ Map.get 0 (16 * k + (j + 1)) c.seg))

/-- The selections that block [s0, ..) runs. -/
def Corr.selections (c : Corr) (s0 : Nat) : List Nat :=
  if s0 < c.since then [c.before] else c.live :: (c.fade.map (·.old)).toList

/-- May the correction of block `b` be completed: the head has run and the segments are there? -/
def Corr.complete (c : Corr) (n b s0 : Nat) : Bool :=
  decide (c.head = b + 1) && (c.selections s0).all (fun k => k = 0 || c.ready n (k - 1) s0)

/-- The head of block `b` (R208). -/
def execConvHeadJob (n b : Nat) (s : State) : Res :=
  let e := s.out n
  if s.granted .convHead (0x400 + n) b ∧ s.inTime b ∧ e.preDone = b + 1 then settle (s.setOut n { e with corr := { e.corr with head := b + 1 } })
  else settle s

/-- The banks whose groups are computed after the correction job of the block that starts at `s0`: those in use and one
that is warming or WARM (R208, R223). -/
def Corr.computes (c : Corr) (s0 : Nat) : List Nat :=
  ([0, 1] : List Nat).filter (fun k => (c.bank k).usable &&
    ((c.selections s0).contains (k + 1) || c.warming.any (·.1 = k) || (c.bank k).state = 3))

/-- Jobs into which a group of segment `k` is cut, at most 2,048 render cycles each (R212, R373). -/
def segPieces (k : Nat) : Nat :=
  let P := 2 ^ (k + 5)
  (P * (k + 6) / 2 + P + 64 + 2047) / 2048

/-- The `piece`-th job for segment `k` of a bank of output `n`, after the correction job of block `b`. -/
def segJob (n b bank k piece : Nat) : Job :=
  { kind := .convSeg, flow := 0x1000 + 16 * n + k, block := b, slice := 128 * bank + piece }

/-- A group of segment `k` (1 to 9) of a bank is computed by the last of its jobs: it begins at sample `start`, and every
input it needs lies before that (R208). -/
def execConvSegJob (n bank k start : Nat) (s : State) : Res :=
  let e := s.out n
  let b := e.corr.bank bank
  let j := segJob n (start / s.blockSize - 1) bank k (segPieces k - 1)
  if b.usable ∧ 1 ≤ k ∧ k ≤ spanOf b.taps.length ∧ groupStart n (64 * 2 ^ (k - 1)) start = start ∧
      start ≤ e.preDone * s.blockSize ∧ s.granted .convSeg j.flow j.block j.slice then
    let seg := e.corr.seg.put 0 (16 * bank + k) (start + 1)
    settle (s.setOut n { e with corr := { e.corr with seg := seg } })
  else settle s

/-! Protection and limiting -/

/-- The law of R192 and R264: `ahead` holds (value, r) newest first, the present one included; the
least weighted gain over the look-ahead. -/
def lookGain (L : Nat) (rs : List Nat) : Nat :=
  (rs.take (L + 1)).zipIdx.foldl (fun m (r, d) => min m (r + (roundOpen (((unity - r) * (L - d) : Nat) : Int) (L + 1 : Nat)).toNat)) unity

/-- G[n] from R[n] and G[n-1]. -/
def nextGain (r g a : Nat) : Nat := min r (g + (roundOpen (((unity - g) * min a unity : Nat) : Int) unity).toNat)

/-- r = min(1, limit / |x|) in Q4.28. -/
def ratio (limit x : Nat) : Nat := if x ≤ limit then unity else (roundOpen ((limit * unity : Nat) : Int) x).toNat

/-- A profile's field at sample `i`. -/
def State.profile (s : State) (p : Nat) (f : Nat → Fld) (i : Nat) : Nat := s.fldAt .protect (f p) i

/-- One sample of the protection stage (R261 to R264): the new state, y_p, the magnitude of the second
model in 1/65,536 mm, and G_x. -/
def State.protSample (s : State) (n i : Nat) (q : Prot) (u : Int) : Prot × Int × Nat :=
  let f := fun x => s.fldAt (.out n) x i
  let p := f Reg.Out.PROT_PROFILE
  let pf := fun g => s.profile p g i
  let q := { q with gth := q.gth.tick i }
  let acts := f Reg.Out.PROT_T_EN ≠ 0 || q.therm = .shutdown || q.therm = .restart || q.gth.to_ = (unity : Int)
  let gth : Int := if acts then q.gth.last else unity
  let u' := roundOpen (u * gth) (2 ^ 28)
  let c := coeffs (excursionSection (pf Reg.Protect.P_F0) (pf Reg.Protect.P_QTS) s.fs)
  let (e1, h, _) := q.exc.run c satQ17 u'
  let kx := pf Reg.Protect.P_KX
  let xu := roundOpen (h * kx) (2 ^ 31)
  let xmax := pf Reg.Protect.P_XMAX * 256
  let r := ratio xmax (absNat xu)
  let L := s.lookahead (f Reg.Out.PROT_LOOKAHEAD ≠ 0)
  let all := (u', xu, r) :: q.ahead
  let g := nextGain (lookGain L (all.map (fun e => e.2.2))) q.gx (limiterRelease (pf Reg.Protect.P_X_RELEASE) s.fs)
  let use := if f Reg.Out.PROT_X_EN ≠ 0 then g else unity
  let late := (all[L]?).map (·.1) |>.getD 0
  let y := satQ31 (roundOpen (late * use) (2 ^ 28))
  let (e2, h2, _) := q.exc2.run c satQ17 y
  let x2 := absNat (roundOpen (h2 * kx) (2 ^ 31))
  ({ q with exc := e1, exc2 := e2, ahead := all.take L, gx := g, gxMin := min q.gxMin use }, y, x2)

/-- The final limiter (R192): new state, output, and whether G fell below 1. -/
def limit (ceil a L : Nat) (ahead : List Int) (g : Nat) (x : Int) : List Int × Nat × Int × Bool :=
  let all := x :: ahead
  let g := nextGain (lookGain L (all.map (fun v => ratio ceil (absNat v)))) g a
  let late := (all[L]?).getD 0
  (all.take L, g, satQ31 (clampInt (-(ceil : Int)) ceil (roundOpen (late * g) (2 ^ 28))), g < unity)

/-! The curtain's gain (R200, R202) -/

/-- The curtain gain at sample `i`, Q4.28. STATE reads CLOSED or OPEN from the release of the block in which the
ramp ends (R204's example), so the samples of that block still follow it. -/
def Curtain.gainAt (c : Curtain) (i : Nat) : Nat :=
  match c.phase with
  | .closed | .closing =>
    if i < c.start then c.from_ else c.from_ - (roundDiv ((unity * (i - c.start + 1) : Nat) : Int) c.n).toNat
  | .isOpen | .opening =>
    if i < c.start then c.from_
    else if c.n = 0 then unity
    else min unity (c.from_ + (roundDiv (((unity - c.from_) * (i - c.start + 1) : Nat) : Int) c.n).toNat)

/-- One sample after the final limiter: curtain, and the announcement with its own limiter (R201).
The second sample is the curtained one, for the monitor. -/
def State.afterLimiter (s : State) (n i : Nat) (e : OutEngine) (y : Int) : OutEngine × Int × Int :=
  let f := fun x => s.fldAt (.out n) x i
  let z := roundOpen (y * s.curtain.gainAt i) (2 ^ 28)
  let ann := s.announceAt i
  let target : Int := if ann && e.live && f Reg.Out.CTRL_MUTE = 0 then f Reg.Out.ANN_GAIN else 0
  let ramp := if ann = e.annOn then s.rampSamples (f Reg.Out.RAMP_GAIN) else s.routeFade i
  let g := (e.ann.follow i ramp false target).tick i
  let e := { e with ann := g, annOn := ann }
  if g.last = 0 && !(ann && f Reg.Out.ANN_GAIN ≠ 0) then (e, z, z)
  else
    let a := roundOpen (s.sample { type := 4, unit := s.annBus } i * g.last) (2 ^ 28)
    let (_, lg, w, _) := limit (limiterCeiling (f Reg.Out.LIM_CEILING)) (limiterRelease (f Reg.Out.LIM_RELEASE) s.fs) 0 []
      e.annLim (z + a)
    ({ e with annLim := lg }, w, z)

/-- The SHAPE_POST job (R201, R261 to R264, R192, R193): correction result to curtain. -/
def State.shapePost (s : State) (n b : Nat) : State :=
  let e0 := s.out n
  let s0 := s.blockStart b
  if !s.inTime b || e0.preDone ≠ b + 1 || e0.postDone = b + 1 || !e0.corr.complete n b s0 then s
  else
    let (s, e, sat, above, lim, xover) := (s.blockSamples b).foldl
      (fun (acc : State × OutEngine × Bool × Bool × Bool × Bool) i =>
        let (s, e, sat, above, lim, xover) := acc
        let j := i - s0
        let f := fun x => s.fldAt (.out n) x i
        let (u, c) := e.corr.stage n i (Map.get 0 j e.pre)
        let u := s.inject n i true u
        let e := { e with post := e.post.put 0 j u }
        let (q, yp, x2) := s.protSample n i e.prot u
        let s := s.peak (.out n) Reg.Out.EXC_PEAK ((x2 + 255) / 256)
        let xo := x2 > s.profile (f Reg.Out.PROT_PROFILE) Reg.Protect.P_XMAX i * 256
        let s := s.peak (.out n) Reg.Out.PEAK (peakQ16 yp)
        let (ah, g, y, l) := limit (limiterCeiling (f Reg.Out.LIM_CEILING))
          (limiterRelease (f Reg.Out.LIM_RELEASE) s.fs) (s.lookahead (f Reg.Out.LIM_LOOKAHEAD ≠ 0)) e.ahead e.lim yp
        let e := { e with prot := q, ahead := ah, lim := g }
        let (e, w, z) := s.afterLimiter n i e y
        let w := if e.live || e.falling.any (fun t => i < t) then w else 0
        let e := { e with egress := e.egress.put 0 j w }
        let e := if s.fldAt .monitor Reg.Monitor.CTRL_TAP i ≠ 0 then { e with tap := e.tap.put 0 j z } else e
        (s, e, sat || c, above || 2 ^ 31 < absNat yp, lim || l, xover || xo))
      (s, { e0 with prot := { e0.prot with gxMin := unity } }, false, false, false, false)
    let s := s.setOut n { e with postDone := b + 1 }
    let xl := e.prot.gxMin < unity
    let s := s.setBit (.out n) Reg.Out.PSTAT_XLIM xl
    let s := s.set (.out n) Reg.Out.ATTEN_X (if xl then min (gainDb e.prot.gxMin) 0xFFFF else 0)
    let s := if xl then (s.protEvent n 0).count (.out n) Reg.Out.XLIM_COUNT else s
    let s := if xover then s.protEvent n 1 else s
    let s := if sat then (s.event .correct 2).count .correct Reg.Correct.SAT_COUNT else s
    let s := if lim then (s.outEvent n 0).count (.out n) Reg.Out.LIMIT_COUNT else s
    if above then (s.outEvent n 1).count (.out n) Reg.Out.OVER_COUNT else s

def execShapePostJob (n b : Nat) (s : State) : Res :=
  settle (if s.granted .shapePost (0x400 + n) b then s.shapePost n b else s)

/-! Emission at the deadline (R24) -/

/-- The sample an output emits at `i`, for streams, ports and local channels. -/
def State.egressAt (s : State) (n i : Nat) : Int := s.sample { type := 9, unit := n } i

/-- Gain of every output around a RESTORE: to zero over 5 ms ending at the boundary of APPLY, silent for
one block, then up over the cross-fade time (R448). -/
def State.restoreGain (s : State) (i : Nat) : Int :=
  match s.snaps.restore with
  | none => unity
  | some r =>
    let d := s.fs / 200
    let up := r.at_ + s.blockSize
    if i + d < r.at_ then unity
    else if i < r.at_ then roundDiv ((unity * (r.at_ - (i + 1)) : Nat) : Int) d
    else if i < up then 0
    else if r.up ≤ i - up + 1 then unity
    else roundDiv ((unity * (i - up + 1) : Nat) : Int) r.up

/-- The ramp to zero of an entry into a low-power state: 5 ms (R475). -/
def State.powerGain (s : State) (i : Nat) : Int :=
  match s.green.entry with
  | none => unity
  | some (_, st) =>
    let d := s.fs / 200
    if i < st then unity
    else if d ≤ i - st + 1 then 0
    else roundDiv ((unity * (d - (i - st + 1)) : Nat) : Int) d

/-- Emit block `b` of an output: the retired block, faded in after a miss, or the last sample faded to
zero; whether the deadline was missed (R24). In a second missed block in a row the sample that was emitted last is the
already faded one, so that the fade does not start again (DESIGN CHOICE, log entry 28). -/
def State.emit (s : State) (n b : Nat) : State × Bool :=
  let e := s.out n
  let s0 := s.blockStart b
  let B := s.blockSize
  if !s.outRuns n b && e.postDone ≠ b + 1 then (s.setOut n { e with last := 0, fadeIn := false }, false)
  else
    let ok := e.postDone = b + 1
    let silent := b < s.render.silentUntil
    let s := (s.blockSamples b).foldl (fun s i =>
      let j := i - s0
      let v : Int := if silent then 0
        else if ok then
          let x := Map.get 0 j e.egress
          if e.fadeIn then roundDiv (x * (j + 1 : Nat)) B else x
        else roundDiv (e.last * (B - (j + 1) : Nat)) B
      let v := if s.snaps.restore.isNone then v else applyGain v (s.restoreGain i)
      let v := if s.green.entry.isNone then v else applyGain v (s.powerGain i)
      s.putSample { type := 9, unit := n } i v) s
    (s.setOut n { e with last := s.egressAt n (s0 + B - 1), fadeIn := !ok }, !ok)

end Sys2Proof.Machine
end

