-- ==== Sys2Proof/Machine/Protect.lean ====
section
/-! DEFINITION. The thermal model of the outputs and the local channels (R265 to R291). -/

namespace Sys2Proof.Machine

open Sys2Proof

/-! Twin modes the local channels ask for -/

/-! The channels -/

def State.psOf (s : State) (k : Nat) : PsEngine := Map.get ({} : PsEngine) k s.ps

/-- STATE codes (R288). -/
def PsState.code : PsState → Nat
  | .off => 0 | .running => 1 | .latched => 2 | .retryWait => 3 | .recovering => 4 | .thermalOff => 5

/-- The channel runs: RUNNING or RECOVERING. -/
def PsEngine.runs (e : PsEngine) : Bool := e.state = .running || e.state = .recovering

/-- Replace a channel; STATE and the PSGLOBAL masks follow (R287, R288). -/
def State.setPs (s : State) (k : Nat) (e : PsEngine) : State :=
  let s := { s with ps := s.ps.put ({} : PsEngine) k e }
  let s := (s.set (.ps k) Reg.Ps.STATE e.state.code).setBit (.ps k) Reg.Ps.FAULT_PIN e.faultPin
  let mask := fun (p : PsEngine → Bool) =>
    (List.range 16).foldl (fun m j => if p (s.psOf j) then m + 2 ^ j else m) 0
  (s.set .psGlobal Reg.PsGlobal.RUNNING (mask PsEngine.runs)).set .psGlobal Reg.PsGlobal.LATCHED
    (mask (fun e => e.state = .latched || e.state = .retryWait))

/-- Both ENABLE bits of a channel are 1 (R272). -/
def State.psOn (s : State) (k : Nat) : Bool :=
  s.bit .psGlobal Reg.Hdr.ENABLE && s.bit (.ps k) Reg.Hdr.ENABLE

/-- The output that feeds a channel. -/
def State.psSource (s : State) (k : Nat) : Nat := s.fld (.ps k) (Reg.Ps.SOURCE k)

/-- RECOVERY on the sense chains of a channel (R281). -/
def State.psRecovery (s : State) (k : Nat) (on : Bool) : State :=
  [16 + k, 32 + k].foldl (fun s c => s.setChain c { s.chain c with psRecovery := on }) s

/-- The gates go low and the feed stops, its interpolator cleared (R277, R283). -/
def PsEngine.stopped (e : PsEngine) (st : PsState) : PsEngine :=
  { e with state := st, start := false, switching := false, feeding := false, feed := {}, fed := []
           mod0 := 0, mod1 := 0, legs := [], gates := [], freewheel := false, demod := {}, window := none
           cleanFrom := none, pilotFrom := none, limitNow := false }

/-- A channel starts: it switches from its next carrier period (R277). -/
def State.psStart (s : State) (k : Nat) (st : PsState) : State :=
  let e := s.psOf k
  let src := { type := 9, unit := s.psSource k : Source }
  let s := s.set (.ps k) Reg.Ps.R_VALID 0
  let s := s.setPs k { e.stopped st with
    start := true, rAt := none, src := { cur := src }
    cleanFrom := if st = .running then some s.render.tick else none }
  if st = .running then s.psRecovery k false else s

/-- ENABLE changed (R272, R291): a channel starts, or is OFF with ATTEMPTS and LATCH_CAUSE cleared. -/
def State.psEnable (s : State) (k : Nat) : State :=
  let e := s.psOf k
  if s.psOn k then (if e.state = .off then s.psStart k .running else s)
  else if e.state = .off then s
  else
    let s := ((s.set (.ps k) Reg.Ps.ATTEMPTS 0).set (.ps k) Reg.Ps.LATCH_CAUSE 0).set (.ps k) Reg.Ps.CONSEC 0
    (s.setPs k (e.stopped .off)).psRecovery k false

/-- Every channel of the model. -/
def State.psEnables (s : State) : State := (List.range s.model.pss).foldl State.psEnable s

/-! Latch-off and recovery (R282 to R286) -/

/-- 1 s in media sample strobes. -/
def State.second (s : State) : Nat := s.fs

/-- A channel latches off (R283, R285): `cause` is CURRENT 1, FAULT_PIN 2 or SENSE 3. -/
def State.latch (s : State) (k cause : Nat) : State :=
  let e := s.psOf k
  let en := s.bit (.ps k) Reg.Ps.RETRY_EN
  let left := s.fld (.ps k) Reg.Ps.ATTEMPTS < s.fld (.ps k) Reg.Ps.RETRY_MAX
  let st := if en && left then PsState.retryWait else .latched
  let e := { e.stopped st with
    waitEnd := s.render.tick + s.fld (.ps k) Reg.Ps.RETRY_DELAY * s.second / 10 }
  let s := (s.setPs k e).set (.ps k) Reg.Ps.LATCH_CAUSE cause
  let s := (s.set64 (.ps k) Reg.Ps.LATCHED_AT_LO Reg.Ps.LATCHED_AT_HI (s.render.rsi + 1)).count (.ps k) Reg.Ps.LATCH_COUNT
  let s := (s.event (.ps k) 0).psRecovery k true
  if en && !left then s.event (.ps k) 7 else s

/-- A limit action in the carrier period under way (R282, R283). -/
def State.limitAction (s : State) (k : Nat) (current : Bool) : State :=
  let e := s.psOf k
  if !e.switching then s
  else
    let s := (s.set (.ps k) Reg.Ps.LIMITING 1).event (.ps k) 1
    if e.limitNow then s.setPs k { e with freewheel := true }
    else
      let n := s.fld (.ps k) Reg.Ps.CONSEC + 1
      let s := (s.setPs k { e with limitNow := true, freewheel := true }).set (.ps k) Reg.Ps.CONSEC (min n 32)
      let s := s.count (.ps k) Reg.Ps.LIMIT_COUNT
      if 32 ≤ n then (let cause := if current then 1 else 2
        (s.latch k cause).tellPeer (.latch k cause)) else s

/-- `i` is i_f at a sense edge, in 64ths of its range: -32 to 32 (R278). -/
def execLimitAction (k : Nat) (i : Int) (s : State) : Res :=
  let m := absNat i * 1024
  let s := if k < s.model.pss then s.peak (.ps k) Reg.Ps.I_PEAK m else s
  settle (if k < s.model.pss ∧ s.fld (.ps k) Reg.Ps.ILIM < m then s.limitAction k true else s)

/-- PSk_FAULT_B falls, or rises again. -/
def execFaultPinLow (k : Nat) (low : Bool) (s : State) : Res :=
  if s.model.pss ≤ k then settle s
  else
    let s := s.setPs k { s.psOf k with faultPin := low }
    settle (if low then s.limitAction k false else s)

/-- The sense bitstream has made no transition for 64 sense periods, or makes one again: a running
channel latches at once (R278, R283). -/
def execStuckSense (k : Nat) (on : Bool) (s : State) : Res :=
  if s.model.pss ≤ k then settle s
  else
    let e := s.psOf k
    let s := s.setPs k { e with stuck := on }
    settle (if on && e.runs then ((s.latch k 3).event (.ps k) 3).tellPeer (.latch k 3) else s)

/-- The conditions of R284 besides STATE. -/
def State.mayRecover (s : State) (k : Nat) : Bool :=
  let e := s.psOf k
  !e.faultPin && !e.stuck && (s.out (s.psSource k)).prot.therm ≠ .shutdown

/-- A write of CTRL.RECOVER (R284). -/
def State.recover (s : State) (k : Nat) : State :=
  let e := s.psOf k
  if (e.state = .latched ∨ e.state = .retryWait) ∧ s.mayRecover k then
    (let s := (s.set (.ps k) Reg.Ps.ATTEMPTS 0).psStart k .recovering
     if s.lockPri then s.tellPeer (.recover k) else s)
  else s.event (.ps k) 6

def execRecover (k : Nat) (s : State) : Res := settle (if k < s.model.pss then s.recover k else s)

/-- RETRY_WAIT ends (R285). -/
def execRetryWaitEnd (k : Nat) (s : State) : Res :=
  let e := s.psOf k
  if e.state = .retryWait ∧ e.waitEnd ≤ s.render.tick then
    let s := s.countSat (.ps k) Reg.Ps.ATTEMPTS
    if s.mayRecover k then settle (s.psStart k .recovering)
    else if s.fld (.ps k) Reg.Ps.ATTEMPTS < s.fld (.ps k) Reg.Ps.RETRY_MAX then
      settle (s.setPs k { e with waitEnd := s.render.tick + s.fld (.ps k) Reg.Ps.RETRY_DELAY * s.second / 10 })
    else settle ((s.setPs k { e with state := .latched }).event (.ps k) 7)
  else settle s

/-- The fade-in of a recovering channel ends (R284). -/
def execRecovered (k : Nat) (s : State) : Res :=
  let e := s.psOf k
  if e.state = .recovering ∧ e.feeding ∧ e.feed.start + e.feed.n ≤ s.render.rsi + 1 then
    settle (((s.setPs k { e with state := .running, cleanFrom := some s.render.tick }).event (.ps k) 5).psRecovery k false)
  else settle s

/-- 60 s of RUNNING without a latch-off (R285). -/
def execAttemptsClear (k : Nat) (s : State) : Res :=
  let e := s.psOf k
  match e.cleanFrom with
  | some t =>
    if e.state = .running ∧ t + 60 * s.second ≤ s.render.tick then settle (s.set (.ps k) Reg.Ps.ATTEMPTS 0)
    else settle s
  | none => settle s

/-! The modulator (R273 to R277) -/

/-- The VALID render-rate AUX chain that SUPPLY[g].CHAIN names. -/
def State.supplyChain (s : State) (g : Nat) : Option Nat :=
  let c := s.fld .psGlobal (Reg.PsGlobal.SUPPLY_CHAIN g)
  if 48 ≤ c ∧ c < 56 ∧ s.chainCarries c ∧ s.renderRate c then some c else none

/-- V_sup of a group in 2^-16 V, with or without feed-forward (R276). -/
def State.supply (s : State) (g : Nat) (ff : Bool) : Int :=
  match s.supplyChain g with
  | some c =>
    if ff then roundOpen (s.sample { type := 6, unit := c } (((s.chain c).marks.head?.map (·.1)).getD 0) * s.fld .psGlobal (Reg.PsGlobal.SUPPLY_SCALE g)) (2 ^ 31)
    else s.fld .psGlobal (Reg.PsGlobal.SUPPLY_NOMINAL g)
  | none => s.fld .psGlobal (Reg.PsGlobal.SUPPLY_NOMINAL g)

/-- The modulation index of a half-period, and whether it was limited (R276); at a supply of 0 V the quotient has no value. -/
def modIndex (y vfs vsup mmax : Int) : Int × Bool :=
  if vsup = 0 then (clampInt (-mmax) mmax (Config.zeroSupply y vfs), true)
  else
    let m := roundOpen (y * vfs) vsup
    (clampInt (-mmax) mmax m, m < -mmax || mmax < m)

/-- The count below which a leg's high side is on (R275). -/
def legCount (m : Int) : Nat := (roundDiv (2000 * (2 ^ 31 + m)) (2 ^ 32)).toNat

/-- The gate changes of one leg in a carrier period that begins at `base` (R275): the high side is on below count `n0` while
the count rises to 2,000, and below `n1` while it falls. The command that turns off falls at the edge, and the other
rises DEADTIME later. -/
def legEdges (leg base dead n0 n1 : Nat) : List GateEdge :=
  [ { pin := 2 * leg, high := false, at_ := base + n0 }, { pin := 2 * leg + 1, high := true, at_ := base + n0 + dead },
    { pin := 2 * leg + 1, high := false, at_ := base + 4000 - n1 }, { pin := 2 * leg, high := true, at_ := base + 4000 - n1 + dead } ]

/-- A carrier period ends and the next one begins (R274 to R277, R283); `c` numbers the periods within
a sample, `peak` is the largest |i_f| of the period in 64ths of its range. -/
def State.carrier (s : State) (k c peak : Nat) : State :=
  let e := s.psOf k
  let s := s.peak (.ps k) Reg.Ps.I_PEAK (peak * 1024)
  let s := s.setBit (.ps k) Reg.Ps.LIMITING e.limitNow
  let s := if e.limitNow then s else s.set (.ps k) Reg.Ps.CONSEC 0
  let e := { e with limitNow := false, freewheel := false, gates := [], switching := e.switching || (e.start && e.runs), start := false }
  if !e.switching then s.setPs k e
  else
    let g := if k < 8 then 0 else 1
    let ff := s.bit (.ps k) Reg.Ps.CTRL_FF_EN
    let f := fun (y : Int) => modIndex y (s.fld (.ps k) Reg.Ps.V_FS) (s.supply g ff) (s.fld .psGlobal Reg.PsGlobal.M_MAX * 2 ^ 16)
    let (m0, l0) := f (Config.interpolator s.fs e.fed (2 * c))
    let (m1, l1) := f (Config.interpolator s.fs e.fed (2 * c + 1))
    let base := s.fld .psGlobal (Reg.PsGlobal.STAGGER k) + 4000 * c
    let dead := s.fld (.ps k) Reg.Ps.DEADTIME
    let s := s.setPs k { e with
      mod0 := m0, mod1 := m1, legs := [legCount m0, legCount (-m0), legCount m1, legCount (-m1)]
      gates := legEdges 0 base dead (legCount m0) (legCount m1) ++ legEdges 1 base dead (legCount (-m0)) (legCount (-m1)) }
    let noChain := ff && s.fld .psGlobal (Reg.PsGlobal.SUPPLY_CHAIN g) ≠ 0x3F && (s.supplyChain g).isNone
    let s := if l0 || l1 || noChain then s.event (.ps k) 4 else s
    if e.faultPin then s.limitAction k false else s

def execCarrierPeriodEnd (k c peak : Nat) (s : State) : Res :=
  settle (if k < s.model.pss then s.carrier k c peak else s)

/-- May the pilot run (R279)? -/
def State.pilotOn (s : State) (k : Nat) : Bool :=
  let n := s.psSource k
  (s.psOf k).state = .running && s.bit (.ps k) Reg.Ps.CTRL_PILOT_EN && s.outActive n &&
    !s.bit (.out n) Reg.Out.CTRL_MUTE && s.curtain.phase = .isOpen

/-- One sample at the interpolator input of a channel (R272, R273, R277): `i` is the render sample
index of the media strobe; the sample emitted there is that of R389. -/
def State.psSample (s : State) (k i : Nat) : State :=
  let e := s.psOf k
  if e.state = .off && e.fed.isEmpty then s
  else
    let late := 2 * s.blockSize + 4 * s.rateMul
    let want : Source := { type := 9, unit := s.psSource k }
    let e := if e.src.cur = want then e else { e with src := e.src.change i (s.routeFade i) want }
    let e := if s.running && i % s.blockSize = 0 && e.switching && !e.feeding then
        { e with feeding := true, feed := ({} : GainStage).retarget i unity (s.rampSamples (s.fld (.ps k) Reg.Ps.RAMP)) }
      else e
    let on := s.running && e.runs && e.feeding
    let e := { e with feed := if on then e.feed.tick i else e.feed }
    let x := if on && late ≤ i then
        let src : InputSel := { e.src with start := e.src.start - late }
        applyGain (s.inputAt src (i - late)) e.feed.last
      else 0
    let e := { e with pilotFrom := if s.pilotOn k then some (e.pilotFrom.getD i) else none }
    let x := match e.pilotFrom with
      | some p => x + pilotAt s.fs (i - p)
      | none => x
    { s with ps := s.ps.put ({} : PsEngine) k { e with fed := (x :: e.fed).take 40 } }

/-- Every channel at a media sample strobe; V_SUP shows the supply in use (R287). -/
def State.psStrobe (s : State) (i : Nat) : State :=
  if s.model.pss = 0 then s
  else
    let s := (List.range s.model.pss).foldl (fun s k => s.psSample k i) s
    let volts := fun g =>
      let ff := (List.range 8).any (fun j => s.bit (.ps (8 * g + j)) Reg.Ps.CTRL_FF_EN)
      min ((s.supply g ff / 4096).toNat) 0xFFFF
    (s.set .psGlobal Reg.PsGlobal.V_SUP0 (volts 0)).set .psGlobal Reg.PsGlobal.V_SUP1 (volts 1)

/-! The thermal model (R265 to R268, R279, R280, R290) -/

/-- The enabled channel that an output feeds. -/
def State.psFed (s : State) (n : Nat) : Option Nat :=
  (List.range s.model.pss).find? (fun k => s.psOn k && s.psSource k = n)

/-- Is closed loop in use for a channel (R279)? -/
def State.closedLoop (s : State) (k : Nat) : Bool :=
  s.bit (.ps k) Reg.Ps.CTRL_CLOSED_EN &&
    [16 + k, 32 + k].all (fun c => s.bit .capture (Reg.Capture.CH_CTRL_EN c) && s.renderRate c && s.chainCarries c)

/-- Were both sense chains of a channel VALID at every sample of block `b` (R281, R291)? -/
def State.sensed (s : State) (k b : Nat) : Bool :=
  [16 + k, 32 + k].all (fun c => (s.blockSamples b).all (fun i => ((s.chain c).mark i).any (·.1)))

/-- Measured power of a block in 2^-16 W (R279). -/
def State.closedPower (s : State) (k b : Nat) : Int :=
  let sum := (s.blockSamples b).foldl (fun a i =>
    a + s.sample { type := 6, unit := 16 + k } i * s.sample { type := 6, unit := 32 + k } i) 0
  roundOpen (sum * s.fld (.ps k) Reg.Ps.ISNS_SCALE * s.fld (.ps k) Reg.Ps.VSNS_SCALE * 2 ^ 16) (s.blockSize * 2 ^ 94)

/-- The demodulation of R279 over block `b`: each window of 1 s of samples is complete in itself, and a block without closed
loop breaks it. -/
def State.psDemod (s : State) (k b : Nat) : State :=
  let e := s.psOf k
  match e.pilotFrom with
  | none => if e.demod = {} then s else { s with ps := s.ps.put ({} : PsEngine) k { e with demod := {} } }
  | some p =>
    let e := if s.closedLoop k && s.sensed k b then
        (s.blockSamples b).foldl (fun (e : PsEngine) i =>
          if i < p then e
          else
            let d := if e.demod.from_ = p then e.demod else { from_ := p }
            let t := fxTurn (8 * (i - p)) s.fs
            let v := s.sample { type := 6, unit := 32 + k } i
            let x := s.sample { type := 6, unit := 16 + k } i
            let d := { d with n := d.n + 1, vRe := d.vRe + v * fxCos t, vIm := d.vIm - v * fxSin t
                              iRe := d.iRe + x * fxCos t, iIm := d.iIm - x * fxSin t }
            if d.n < s.fs then { e with demod := d } else { e with demod := { from_ := p }, window := some d }) e
      else { e with demod := {} }
    { s with ps := s.ps.put ({} : PsEngine) k e }

/-- Open-loop power of a block in 2^-16 W, from the sum of squares of its egress samples (R265). -/
def openPower (pfs B power : Nat) : Int := roundOpen (pfs * power * 2 ^ 12 : Nat) (B * 2 ^ 62 : Nat)

/-- The thermal gain ramps to a target from sample `i` over `n` samples. -/
def Prot.ramp (q : Prot) (i n : Nat) (target : Int) : Prot := { q with gth := q.gth.retarget i target n }

/-- PSTAT.THERM codes (R269). -/
def Therm.code : Therm → Nat
  | .normal => 0 | .fold => 1 | .shutdown => 2 | .restart => 3

/-- Temperatures, in 2^-16 degree. -/
def State.ambient (s : State) : Int := signed 16 (s.fld .protect Reg.Protect.T_AMB) * 256

def State.showTherm (s : State) (n : Nat) (q : Prot) : State :=
  let t := fun (v : Int) => unsigned 16 (clampInt (-32768) 32767 (roundOpen v 256))
  let s := s.set (.out n) Reg.Out.PSTAT_THERM q.therm.code
  let s := s.set (.out n) Reg.Out.T_COIL (t (s.ambient + q.dMag + q.dVc))
  let s := s.set (.out n) Reg.Out.T_MAG (t (s.ambient + q.dMag))
  s.set (.out n) Reg.Out.ATTEN_TH (if q.therm = .shutdown then 0xFFFF else min (roundOpen q.atten 4096).toNat 0xFFFF)

/-- R266 and R267 at a block boundary whose block begins at `s0`: A, G_th and THERM_STATE; the events
of the output. `tc` is T_coil. -/
def State.foldBack (s : State) (s0 : Nat) (tEn : Bool) (fold tmax : Int) (tc : Int) (q : Prot) : Prot × List Nat :=
  let B := s.blockSize
  let five := 240 * s.rateMul
  let gain := fun (a : Nat) => ((dbGain a : Nat) : Int)
  match q.therm with
  | .shutdown =>
    if tEn && tc ≤ fold - 10 * 2 ^ 16 then
      ({ q with therm := .restart, atten := 20 * 2 ^ 16 }.ramp (s0 + B) five (roundDiv (2 ^ 28) 10), [])
    else (q, [])
  | st =>
    if tEn && tmax ≤ tc then ({ q with therm := .shutdown }.ramp (s0 + B) five 0, [3])
    else
      let a : Int :=
        if fold < tc then (q.atten : Int) + roundOpen (6 * min (5 * 2 ^ 16) (tc - fold) * B) (5 * s.fs)
        else if tc < fold - 2 * 2 ^ 16 then max 0 ((q.atten : Int) - roundOpen (2 ^ 16 * B) s.fs)
        else q.atten
      let a := a.toNat
      let st' := if st = .restart then (if a = 0 then Therm.normal else .restart)
        else if a = 0 then .normal else .fold
      let busy := s0 < q.gth.start + q.gth.n
      let q' := { q with atten := a, therm := st' }
      let q' := if tEn && !busy && gain a ≠ q.gth.to_ then q'.ramp s0 B (gain a) else q'
      (q', (if st = .restart && a = 0 then [4] else []) ++ (if q.atten = 0 && a ≠ 0 then [2] else []))

/-- The thermal model of an output at the release of block `b`, from block b - 1. -/
def State.thermal (s : State) (n b : Nat) : State :=
  let e := s.out n
  let q := e.prot
  let s0 := s.blockStart b
  let p := s.fld (.out n) Reg.Out.PROT_PROFILE
  let B := s.blockSize
  let squares := if b = 0 then 0 else (s.blockSamples (b - 1)).foldl (fun a i => a + absNat (s.egressAt n i) ^ 2) 0
  let isOpen := openPower (s.fld .protect (Reg.Protect.P_P_FS p)) B squares
  let ch := s.psFed n
  let measured := match ch with
    | some k => if b ≠ 0 && s.closedLoop k && s.sensed k (b - 1) then some (s.closedPower k (b - 1)) else none
    | none => none
  let lock := s.lockPri || s.lockUnd
  -- Both twins use what the principal measured two boundaries earlier (R290).
  let due := fun (l : List (Nat × Int)) => (l.find? (·.1 = b)).map (·.2)
  let s := match measured with
    | some x => if s.lockPri then s.tellPeer (.power n x (b + 2)) else s
    | none => s
  let use := if lock then due q.powers else measured
  let later := fun (l : List (Nat × Int)) => if lock then l.filter (fun e => b < e.1) else []
  let pw := use.getD isOpen
  let step := fun (tau rth : Nat) (old : Int) => thermalNode tau B s.fs (roundOpen (pw * rth) 256) old
  let dMag := step (s.fld .protect (Reg.Protect.P_TAU_MAG p) * 256) (s.fld .protect (Reg.Protect.P_RTH_MAG p)) q.dMag
  let dVc := match (if lock then due q.temps else q.measured) with
    | some t => t - s.ambient - dMag
    | none => step (s.fld .protect (Reg.Protect.P_TAU_VC p)) (s.fld .protect (Reg.Protect.P_RTH_VC p)) q.dVc
  let own := match measured with
    | some x => if s.lockPri then [(b + 2, x)] else []
    | none => []
  let q := { q with dMag := dMag, dVc := dVc, measured := none, powers := later q.powers ++ own, temps := later q.temps }
  let tEn := s.bit (.out n) Reg.Out.PROT_T_EN
  let (q, evs) := s.foldBack s0 tEn (s.fld .protect (Reg.Protect.P_T_FOLD p) * 2 ^ 16)
    (s.fld .protect (Reg.Protect.P_T_MAX p) * 2 ^ 16) (s.ambient + dMag + dVc) q
  let was := e.prot.therm
  let s := (s.setOut n { e with prot := q }).showTherm n q
  let s := evs.foldl (fun s v => s.protEvent n v) s
  let s := if evs.contains 3 then s.event .protect 0 else s
  let s := if evs.contains 2 then s.event .protect 1 else s
  let s := if q.atten ≠ 0 || q.therm = .shutdown then s.count (.out n) Reg.Out.FOLD_COUNT else s
  let recent := q.measuredAt.any (fun t => s.render.tick < t + 2 * s.second)
  let s := s.setBit (.out n) Reg.Out.PSTAT_CLOSED recent
  let s := s.setBit (.out n) Reg.Out.PSTAT_LOCAL (ch.any (fun k => (s.psOf k).runs))
  match ch with
  | none => s
  | some k =>
    let c := s.psOf k
    let s := if (s.chain (32 + k)).stuck && c.runs then s.event (.ps k) 3 else s
    let s := match c.rAt with
      | some t => s.set (.ps k) Reg.Ps.R_AGE (min ((s.render.tick - t) / s.second) 255)
      | none => s
    if q.therm = .shutdown && c.runs && q.gth.to_ = 0 && q.gth.start + q.gth.n ≤ s0 then
      (s.setPs k (c.stopped .thermalOff)).event (.ps k) 2
    else if was = .shutdown && q.therm = .restart && c.state = .thermalOff then s.psStart k .running
    else s

/-- All outputs, and the PROTECT page's counts (R270). With no active output the spec gives T_HOT and
HOT_OUT no value. -/
def State.thermals_ (s : State) (b : Nat) : State :=
  let s := if b = 0 then s else (List.range s.model.pss).foldl (fun s k => s.psDemod k (b - 1)) s
  let s := (List.range s.model.outputs).foldl (fun s n => s.thermal n b) s
  let ns := List.range s.model.outputs
  let s := s.set .protect Reg.Protect.COUNT_XLIM (ns.filter (fun n => s.bit (.out n) Reg.Out.PSTAT_XLIM)).length
  let s := s.set .protect Reg.Protect.COUNT_FOLD (ns.filter (fun n => (s.out n).prot.atten ≠ 0)).length
  let s := s.set .protect Reg.Protect.COUNT_SHUT (ns.filter (fun n => (s.out n).prot.therm = .shutdown)).length
  match ns.filter s.outActive with
  | [] =>
    let (v, s) := s.fresh
    let (w, s) := s.fresh
    (s.set .protect Reg.Protect.T_HOT v).set .protect Reg.Protect.HOT_OUT w
  | n :: rest =>
    let t := fun n => signed 16 (s.fld (.out n) Reg.Out.T_COIL)
    let hot := rest.foldl (fun m k => if t m < t k then k else m) n
    (s.set .protect Reg.Protect.T_HOT (unsigned 16 (t hot))).set .protect Reg.Protect.HOT_OUT hot

/-- T_EN cleared at sample `i` (R291), and the gain that no longer acts is 1. -/
def State.thermOff (s : State) (n i : Nat) : State :=
  let e := s.out n
  let q := e.prot
  let unit : GainStage := { last := unity, from_ := unity, to_ := unity }
  let q := match q.therm with
    | .shutdown | .restart => { q with therm := .normal, atten := 0 }.ramp i (240 * s.rateMul) unity
    | _ => { q with gth := unit }
  (s.setOut n { e with prot := q }).showTherm n q

/-- The thermal states are copied to DRAM (R268). -/
def State.thermalPersist (s : State) : State :=
  { s with thermals := s.outs.foldl (fun (m : Map ThermalCopy) (e : Nat × OutEngine) =>
      let q := e.2.prot
      m.put {} e.1 { dVc := q.dVc, dMag := q.dMag, atten := q.atten, therm := q.therm }) [] }

def execThermalPersist (s : State) : Res := settle s.thermalPersist

/-- After a warm reset the states come from the last copy, unless its CRC is bad (R268). -/
def State.thermalRestore (s : State) (bad : Bool) : State :=
  if bad then
    ((List.range s.model.outputs).foldl (fun s n => s.showTherm n {}) s).event .protect 2
  else
    (List.range s.model.outputs).foldl (fun s n =>
      let t := Map.get ({} : ThermalCopy) n s.thermals
      let g : Int := if t.therm = .shutdown then 0 else if t.atten = 0 then unity else dbGain t.atten
      let q : Prot := { dVc := t.dVc, dMag := t.dMag, atten := t.atten, therm := t.therm,
                        gth := { last := g, from_ := g, to_ := g } }
      (s.setOut n { s.out n with prot := q }).showTherm n q) s

/-- Z = V_8 / I_8 of a window, scaled by a voltage and a current: its parts over a common denominator, in 2^-8 ohm (R279). -/
def Demod.impedance (d : Demod) (vScale iScale : Nat) : Int × Int × Int :=
  ((d.vRe * d.iRe + d.vIm * d.iIm) * vScale * 256, (d.vIm * d.iRe - d.vRe * d.iIm) * vScale * 256,
   (d.iRe ^ 2 + d.iIm ^ 2) * iScale)

/-- Is an estimate accepted, for a cold resistance in 2^-8 ohm (R279)? -/
def acceptedZ (re im : Int) (re0 : Nat) : Bool :=
  4 * (absNat im : Int) ≤ re && (re0 : Int) ≤ 2 * re && re ≤ 3 * (re0 : Int)

/-- A part of a quotient in whole units: exact, or the neighbour that `up` names (log entry 7). -/
def openPart (x den up : Int) : Int := if x % den = 0 then x / den else x.fdiv den + clampInt 0 1 up

/-- A resistance window of 1 s ends (R279, R280); `upRe` and `upIm` say how the parts of Z round. -/
def State.resistance (s : State) (k : Nat) (upRe upIm : Int) : State :=
  let n := s.psSource k
  let p := s.fld (.out n) Reg.Out.PROT_PROFILE
  let re0 := s.fld .protect (Reg.Protect.P_RE0 p)
  let e := s.psOf k
  match e.window with
  | none => s
  | some d =>
    let s := s.setPs k { e with window := none }
    let (re, im, den) := d.impedance (s.fld (.ps k) Reg.Ps.VSNS_SCALE) (s.fld (.ps k) Reg.Ps.ISNS_SCALE)
    if !s.closedLoop k || den ≤ 0 || !acceptedZ (openPart re den upRe) (openPart im den upIm) re0 then s
    else
      let r := min (openPart re den upRe).toNat 0xFFFF
      let s := ((s.set (.ps k) Reg.Ps.R_COIL r).set (.ps k) Reg.Ps.R_VALID 1).set (.ps k) Reg.Ps.R_AGE 0
      let s := s.setPs k { s.psOf k with rAt := some s.render.tick }
      let t := coilTemperature r re0 (s.bit .protect (Reg.Protect.P_COIL p))
      let o := s.out n
      -- The second boundary from here, as a block whose release uses it (R290).
      let at_ := s.render.rsi / s.blockSize + 1
      if s.lockUnd then s
      else
        let q := { o.prot with measuredAt := some s.render.tick }
        let q := if s.lockPri then { q with temps := q.temps ++ [(at_, t)] } else { q with measured := some t }
        (s.setOut n { o with prot := q }).tellPeer (.resistance n t at_)

def execResistanceWindow (k : Nat) (upRe upIm : Int) (s : State) : Res :=
  settle (if k < s.model.pss then s.resistance k upRe upIm else s)

/-- Render reset and rate change: running channels switch at m = 0 until rendering resumes (R291). -/
def State.psRenderReset (s : State) : State :=
  { s with ps := Map.update ({} : PsEngine) (fun e => { e with fed := [], feeding := false, feed := {} }) s.ps }

end Sys2Proof.Machine
end

