-- ==== Sys2Proof/Machine/Ports.lean ====
section
/-! DEFINITION. TDM sections, AES3 receivers and transmitters, and the media clock pins (R292 to
R316, R389). -/

namespace Sys2Proof.Machine

open Sys2Proof

/-! Access -/

def State.port (s : State) : Port → PortState
  | .tdmRx k => Map.get ({} : PortState) k s.tdmRx
  | .tdmTx k => Map.get ({} : PortState) k s.tdmTx
  | .aesRx k => (Map.get ({} : AesState) k s.aesRx).port

def portCode : PortPhase → Nat
  | .off => 0 | .unlocked => 1 | .locking => 2 | .locked => 3 | .syncWait => 4

def portBlk : Port → Blk
  | .tdmRx k | .tdmTx k => .tdm k
  | .aesRx k => .aesRx k

/-- Is the page of the section in fault-hold: it delivers zero, or sends zero bits (R442)? -/
def State.portHeld (s : State) (p : Port) : Bool := s.fab.held.any (fun h => h.1 = portBlk p)

/-- A field of a section by its direction; AES3 receivers have a page of their own. -/
def portPick (p : Port) (rx tx aes : Fld) : Fld :=
  match p with
  | .tdmRx _ => rx
  | .tdmTx _ => tx
  | .aesRx _ => aes

/-- Replace a section; STATE and SYNC follow (R312, R313). -/
def State.setPort (s : State) (p : Port) (e : PortState) : State :=
  let s := match p with
    | .tdmRx k => { s with tdmRx := s.tdmRx.put ({} : PortState) k e }
    | .tdmTx k => { s with tdmTx := s.tdmTx.put ({} : PortState) k e }
    | .aesRx k => { s with aesRx := s.aesRx.put ({} : AesState) k { Map.get ({} : AesState) k s.aesRx with port := e } }
  let s := s.set (portBlk p) (portPick p Reg.Tdm.STATUS_RX_STATE Reg.Tdm.STATUS_TX_STATE Reg.AesRx.STATE) (portCode e.phase)
  match p with
  | .tdmRx k => s.setBit (.tdm k) Reg.Tdm.STATUS_RX_SYNC e.sync
  | .tdmTx k => s.setBit (.tdm k) Reg.Tdm.STATUS_TX_SYNC e.sync
  | .aesRx _ => s

def State.aes (s : State) (k : Nat) : AesState := Map.get ({} : AesState) k s.aesRx

def State.setAes (s : State) (k : Nat) (e : AesState) : State := { s with aesRx := s.aesRx.put ({} : AesState) k e }

/-- Does the model carry the section? -/
def State.hasPort (s : State) (p : Port) : Bool := (portBlk p).present s.model

/-- PAGE_STAT.EVENTS bits of a section: 0 UNLOCK, 1 LOCK, 2 BAD_FRAME, 3 RATE_CHANGE, 4 RANGE. -/
def State.portEvent (s : State) (p : Port) (kind : Nat) : State :=
  match p with
  | .tdmRx k => s.event (.tdm k) (if kind = 4 then 9 else kind)
  | .tdmTx k => s.event (.tdm k) (if kind = 4 then 9 else 4 + kind)
  | .aesRx k => s.event (.aesRx k) (if kind = 4 then 8 else kind)

def State.portEn (s : State) (p : Port) : Bool :=
  s.bit (portBlk p) (portPick p Reg.Tdm.RX_CFG_EN Reg.Tdm.TX_CFG_EN Reg.AesRx.CTRL_EN)

/-- AES3 receivers always use the ASRC (R296). -/
def State.portAsrc (s : State) : Port → Bool
  | .tdmRx k => s.bit (.tdm k) Reg.Tdm.RX_CFG_ASRC
  | .tdmTx k => s.bit (.tdm k) Reg.Tdm.TX_CFG_ASRC
  | .aesRx _ => true

/-- Slots of a frame. -/
def State.portSlots (s : State) : Port → Nat
  | .tdmRx k => s.fld (.tdm k) Reg.Tdm.RX_CFG_SLOTS + 1
  | .tdmTx k => s.fld (.tdm k) Reg.Tdm.TX_CFG_SLOTS + 1
  | .aesRx _ => 2

/-- Bits of WIDTH and DATA_BITS codes (R312). -/
def tdmBits (code : Nat) : Nat := [16, 24, 32].getD code 32

/-- Bit clocks of a good frame, and DATA_BITS. -/
def State.portFrame (s : State) (p : Port) : Nat × Nat :=
  let f := fun rx tx => s.fld (portBlk p) (portPick p rx tx rx)
  (s.portSlots p * tdmBits (f Reg.Tdm.RX_CFG_WIDTH Reg.Tdm.TX_CFG_WIDTH),
    tdmBits (f Reg.Tdm.RX_CFG_DATA_BITS Reg.Tdm.TX_CFG_DATA_BITS))

/-- The frequency that a master section divides, in Hz; a slave has none, and LINK is for receive sections, which then
follow their transmit section (R293). -/
def State.portClock (s : State) (p : Port) : Option Nat :=
  let f := fun rx tx => s.fld (portBlk p) (portPick p rx tx rx)
  match p with
  | .aesRx _ => none
  | _ =>
    if f Reg.Tdm.RX_CFG_MASTER Reg.Tdm.TX_CFG_MASTER = 0 then none
    else match f Reg.Tdm.RX_CFG_CLKSRC Reg.Tdm.TX_CFG_CLKSRC with
      | 0 => some 49152000
      | 3 => none
      | i => some (s.fld .clocks (Reg.Clocks.MCLKIN_FREQ (i - 1)))

/-- What it divides it by for its bit clock. -/
def State.portDivider (s : State) (p : Port) : Nat :=
  s.fld (portBlk p) (portPick p Reg.Tdm.RX_CFG_BCLK_DIV Reg.Tdm.TX_CFG_BCLK_DIV Reg.Tdm.RX_CFG_BCLK_DIV) + 1

/-- The frame rate of a section in the configuration, Q24.8 Hz: set by its divider, or as measured. -/
def State.sectionRate (s : State) (p : Port) : Nat :=
  match s.portClock p with
  | some f => f * 256 / (s.portDivider p * (s.portFrame p).1)
  | none => if (s.port p).phase = .off then 0 else (s.port p).rate

/-- A receive section with CLKSRC = LINK: its transmit section gives its clocks. -/
def State.portLink (s : State) : Port → Bool
  | .tdmRx k => s.fld (.tdm k) Reg.Tdm.RX_CFG_CLKSRC = 3
  | _ => false

/-- A master section clocked from MEDIA. -/
def State.portMedia (s : State) (p : Port) : Bool :=
  match p with
  | .aesRx _ => false
  | _ => s.bit (portBlk p) (portPick p Reg.Tdm.RX_CFG_MASTER Reg.Tdm.TX_CFG_MASTER Reg.Tdm.RX_CFG_MASTER) &&
      s.fld (portBlk p) (portPick p Reg.Tdm.RX_CFG_CLKSRC Reg.Tdm.TX_CFG_CLKSRC Reg.Tdm.RX_CFG_CLKSRC) = 0

/-- And at the render rate (R295). -/
def State.mediaSync (s : State) (p : Port) : Bool :=
  s.portMedia p && s.fs * (s.portDivider p * (s.portFrame p).1) = 49152000

/-- The section's ramp in render samples (R303). -/
def State.portRamp (s : State) (p : Port) : Nat :=
  s.rampSamples (s.fld (portBlk p) (portPick p Reg.Tdm.RX_RAMP Reg.Tdm.TX_RAMP Reg.AesRx.RAMP))

/-- Slots enabled; both channels of a receiver. -/
def State.portMask (s : State) : Port → Nat
  | .tdmRx k => s.fld (.tdm k) Reg.Tdm.RX_MASK
  | .tdmTx k => s.fld (.tdm k) Reg.Tdm.TX_MASK
  | .aesRx _ => 3

/-- Port rate over render rate as Q8.24, and whether it lies within 1/4 to 4 (R297). -/
def portRatio (fs rate : Nat) : Nat × Bool :=
  ((roundOpen ((rate * 2 ^ 16 : Nat) : Int) fs).toNat, fs * 256 ≤ 4 * rate && rate ≤ 4 * fs * 256)

/-- RATE and RATIO registers. -/
def State.showRate (s : State) (p : Port) (rate : Nat) : State :=
  let s := s.set (portBlk p) (portPick p Reg.Tdm.RX_RATE Reg.Tdm.TX_RATE Reg.AesRx.RATE) rate
  if s.portAsrc p then
    s.set (portBlk p) (portPick p Reg.Tdm.RX_RATIO Reg.Tdm.TX_RATIO Reg.AesRx.RATIO) (portRatio s.fs rate).1
  else s

/-- Is the egress of this twin open (R481, R483)? -/
def State.egressOpen (s : State) : Bool :=
  if s.fld .twin Reg.Twin.STATE = 0 then !s.twin.peerpres else s.bit .twin Reg.Twin.CLAIM_EGRESS_OPEN

/-- What the gate pins of channel `k` do (R277, R282, R290): a closed twin lets them float, with weak pull-downs. -/
def State.gateDrive (s : State) (k : Nat) : GateDrive :=
  let e := s.psOf k
  if !e.switching then (if s.egressOpen || s.mon.tripped || s.mon.refclkLost then .low else .floating)
  else if !s.egressOpen then .floating
  else if e.freewheel then .freewheel
  else .switching

/-! States of a section (R300 to R302) -/

/-- The render sample at which a change of a section's gain begins: the next one. -/
def State.nextSample (s : State) : Nat := s.render.rsi + 1

/-- 2 ms of render samples. -/
def State.fade2ms (s : State) : Nat := 96 * s.rateMul

/-- The section enters LOCKED: its audio ramps up (R301). -/
def State.portLock (s : State) (p : Port) : State :=
  let e := s.port p
  let i := s.nextSample
  let mask := s.portMask p
  let env : GainStage := e.env.retarget i unity (s.portRamp p)
  let s := s.setPort p { e with
    phase := .locked, lockRate := e.rate, filling := false, env := env, mask := mask, rateChange := false
    slots := ((List.range (s.portSlots p)).filter mask.testBit).foldl (fun (m : Map GainStage) j =>
      m.put {} j ({ last := unity, from_ := unity, to_ := unity } : GainStage)) [] }
  let s := s.portEvent p 1
  if e.rateChange then s.portEvent p 3 else s

/-- SYNC is lost (R295). -/
def State.syncLost (s : State) (p : Port) : State :=
  let e := s.port p
  let s := s.setPort p { e with sync := false, phase0 := none }
  match p with
  | .tdmRx k | .tdmTx k => if e.sync then s.event (.tdm k) 8 else s
  | .aesRx _ => s

/-- A bypassed section fades and waits for SYNC (R302). -/
def State.toSyncWait (s : State) (p : Port) : State :=
  let s := s.syncLost p
  let e := s.port p
  if e.phase = .locked then
    s.setPort p { e with phase := .syncWait, filling := true, env := e.env.retarget s.nextSample 0 s.fade2ms }
  else s

/-- A stop of one section (R300): its input is filled by reflection and its audio fades, for an ASRC
section from the render sample that carries the first missing frame. -/
def State.stop1 (s : State) (p : Port) : State :=
  let e := s.port p
  if e.phase = .off || e.phase = .unlocked then s
  else
    let miss := if e.rate = 0 then 1 else (s.fs * 256 + e.rate - 1) / e.rate
    let start := if s.portAsrc p then max s.nextSample (e.lastRsi + miss + (288 * s.rateMul + 9) / 10) else s.nextSample
    let env := if e.filling then e.env else e.env.retarget start 0 s.fade2ms
    let s := s.syncLost p
    let e := s.port p
    let s := s.setPort p { e with
      phase := .unlocked, good := 0, lately := [], bads := 0, gaps := [], filling := true, env := env
      slots := e.slots.update {} (fun g => GainStage.at0 g.inv g.last)
      sent := e.sent.map (fun v => if s.egressOpen then some 0 else v) }
    let s := match p with
      | .tdmRx k => s.count (.tdm k) Reg.Tdm.RX_STOPS
      | .tdmTx k => s.count (.tdm k) Reg.Tdm.TX_STOPS
      | .aesRx _ => s
    s.portEvent p 0

/-- A stop; a receive section with CLKSRC = LINK stops with its transmit section (R316). -/
def State.portStop (s : State) (p : Port) : State :=
  let s := s.stop1 p
  match p with
  | .tdmTx k => if s.fld (.tdm k) Reg.Tdm.RX_CFG_CLKSRC = 3 then s.stop1 (.tdmRx k) else s
  | _ => s

/-- Four and a half measured frame periods have passed since the last good edge, or 3 of the last 64 frames were bad
(R300). -/
def State.stopDue (s : State) (p : Port) : Bool :=
  let e := s.port p
  9 * s.fs * 256 ≤ 2 * e.rate * (s.render.tick - e.goodAt) || 3 ≤ e.lately.count true

def execStop (p : Port) (s : State) : Res := settle (if s.hasPort p && s.stopDue p then s.portStop p else s)

/-- The frame rates a section takes (R292, R305). -/
def portAccepts (p : Port) (rate : Nat) : Bool :=
  match p with
  | .aesRx _ => 28000 * 256 ≤ rate && rate ≤ 200000 * 256
  | _ => 8000 * 256 ≤ rate && rate ≤ 192000 * 256

/-- 64 consecutive good frames, at a measured rate in Q24.8 Hz (R301, R302). -/
def execLocking (p : Port) (rate : Nat) (s : State) : Res :=
  let e := s.port p
  if !s.hasPort p || e.phase ≠ .unlocked || e.good < 64 || !portAccepts p rate then settle s
  else
    let s := (s.setPort p { e with rate := rate }).showRate p rate
    if s.portAsrc p then
      if (portRatio s.fs rate).2 then settle (s.setPort p { s.port p with phase := .locking })
      else settle (s.portEvent p 4)
    else if e.sync then settle (s.portLock p)
    else settle (s.setPort p { s.port p with phase := .syncWait })

/-- The ASRC has locked (R301). -/
def execLock (p : Port) (s : State) : Res :=
  if s.hasPort p ∧ (s.port p).phase = .locking then settle (s.portLock p) else settle s

/-- SYNC is acquired (R295): at once by a master clocked from MEDIA. -/
def execSyncAcquire (p : Port) (s : State) : Res :=
  let e := s.port p
  let isTdm : Bool := match p with
    | .aesRx _ => false
    | _ => true
  if s.hasPort p ∧ isTdm ∧ e.phase ≠ .off ∧ !e.sync ∧ e.phase0.isSome ∧
      (s.mediaSync p ∨ (e.rate = s.fs * 256 ∧ e.since + s.second ≤ s.render.tick)) then
    let s := s.setPort p { e with sync := true }
    settle (if e.phase = .syncWait then s.portLock p else s)
  else settle s

/-- The frame rate measured over 64 frames (R302). -/
def State.portMeasure (s : State) (p : Port) (rate : Nat) : State :=
  let e := s.port p
  match e.phase with
  | .locked =>
    if s.portAsrc p then
      let d := absNat ((rate : Int) - e.lockRate)
      if 20 * d ≤ e.lockRate then
        let s := if rate = e.rate then s else s.syncLost p
        (s.setPort p { s.port p with rate := rate }).showRate p rate
      else
        let s := s.portStop p
        s.setPort p { s.port p with rateChange := true }
    else if rate = e.lockRate then (s.setPort p { e with rate := rate }).showRate p rate
    else ((s.setPort p { e with rate := rate }).showRate p rate).toSyncWait p
  | .syncWait => (s.setPort p { e with rate := rate }).showRate p rate
  | _ => s

def execRateMeasure (p : Port) (rate : Nat) (s : State) : Res :=
  settle (if s.hasPort p then s.portMeasure p rate else s)

/-! Frames -/

/-- Replace the `gap` samples of channel `c` behind the newest frame by linear interpolation between the good ones either
side (R299). -/
def mendGap (frames : List (List Int)) (c gap : Nat) : List (List Int) :=
  let at_ := fun m => (frames.getD m []).getD c 0
  let a := at_ (gap + 1)
  frames.zipIdx.map (fun (f, m) =>
    if 1 ≤ m ∧ m ≤ gap then f.set c (a + roundOpen ((at_ 0 - a) * (gap + 1 - m : Nat)) (gap + 1)) else f)

/-- A good frame joins the history, in which a channel may be bad alone (R305). In ASRC use bad samples are replaced once
the next good one of their channel is there (R299). -/
def PortState.take (e : PortState) (asrc : Bool) (x : List (Option Int)) : PortState :=
  let last := e.frames.headD (x.map (·.getD 0))
  let now := x.zipIdx.map (fun (v, c) => v.getD (last.getD c 0))
  let lost := if asrc && !e.frames.isEmpty then e.bads else 0
  let frames := now :: (List.replicate lost last ++ e.frames)
  let gap := fun c => e.gaps.getD c 0 + lost
  let frames := x.zipIdx.foldl (fun l (v, c) => if v.isSome && 0 < gap c then mendGap l c (gap c) else l) frames
  let gaps := x.zipIdx.map (fun (v, c) => if v.isSome then 0 else gap c + 1)
  { e with frames := frames.take 256, bads := 0, gaps := if gaps.all (· = 0) then [] else gaps, fresh := true }

/-- Note a frame as good or bad. -/
def PortState.note (e : PortState) (bad : Bool) : PortState :=
  { e with good := if bad then 0 else e.good + 1, lately := (bad :: e.lately).take 64,
           bads := if bad then e.bads + 1 else e.bads, fresh := true }

/-- A bad frame is discarded and counted (R299). -/
def State.badFrame (s : State) (p : Port) (note : Bool) : State :=
  let s := if note then s.setPort p ((s.port p).note true) else s
  (s.count (portBlk p) (portPick p Reg.Tdm.RX_BAD Reg.Tdm.TX_BAD Reg.AesRx.BAD)).portEvent p 2

/-- The phase of a good frame-sync edge, in 1/256 frame (R295). -/
def State.portPhase (s : State) (p : Port) (phase : Nat) : State :=
  let e := s.port p
  match e.phase0 with
  | none => s.setPort p { e with phase0 := some phase, since := s.render.tick }
  | some f =>
    let d := (phase + 512 - f) % 256
    let d := min d (256 - d)
    if e.sync then
      if 64 < d then (if s.portAsrc p then s.syncLost p else s.toSyncWait p) else s
    else if 16 < d then s.setPort p { e with phase0 := some phase, since := s.render.tick }
    else s

/-- A mask change takes effect at a frame-sync edge: slots ramp in or out (R303). -/
def State.portMasks (s : State) (p : Port) : State :=
  let e := s.port p
  let want := s.portMask p
  let i := match p with
    | .tdmTx _ => s.render.rsi
    | _ => s.nextSample
  let n := s.portRamp p
  if want = e.mask then s
  else
    let slots := (List.range (s.portSlots p)).foldl (fun (m : Map GainStage) j =>
      if want.testBit j = e.mask.testBit j then m
      else m.put {} j ((Map.get ({} : GainStage) j m).retarget i (if want.testBit j then unity else 0) n)) e.slots
    s.setPort p { e with mask := want, slots := slots }

/-- The sample an output egress carries at a media strobe (R389). -/
def State.portDelay (s : State) : Nat := 2 * s.blockSize + 4 * s.rateMul

/-- What transmit slot `j` of port `k` carries: a monitor channel or its output (R304). -/
def State.slotSource (s : State) (k j : Nat) : Source :=
  let mon := s.bit .monitor Reg.Hdr.ENABLE && s.fld .monitor Reg.Monitor.DEST_TDM = k
  if mon && s.fld .monitor Reg.Monitor.DEST_SLOT_L = j then { type := 10, chan := 0 }
  else if mon && s.fld .monitor Reg.Monitor.DEST_SLOT_R = j then { type := 10, chan := 1 }
  else { type := 9, unit := s.fld (.tdm k) (Reg.Tdm.TX_MAP j) }

/-- An egress source at render sample `i`, through the ASRC when one is in use (R297, R304). -/
def State.egressInput (s : State) (q : InputSel) (asrc : Bool) (ratio i phase : Nat) : Int :=
  let d := s.portDelay
  if i < d then 0
  else
    let q := { q with start := q.start - d }
    if asrc then
      let hist := (List.range 128).map (fun m => if i < d + m then 0 else s.inputAt q (i - d - m))
      Config.asrc ratio i phase hist
    else s.inputAt q (i - d)

/-- A code of `bits` bits: rounded to nearest, ties up, saturated (R294). -/
def portCodeOf (bits : Nat) (x : Int) : Int :=
  if 32 ≤ bits then satQ31 x
  else clampInt (-(2 ^ (bits - 1))) (2 ^ (bits - 1) - 1) (roundShift x (32 - bits))

/-- A frame of a transmit section goes out (R294, R303, R304). -/
def State.portSend (s : State) (k phase : Nat) : State :=
  let p := Port.tdmTx k
  let e := s.port p
  let i := s.render.rsi
  let bits := (s.portFrame p).2
  let hiz := s.bit (.tdm k) Reg.Tdm.IDLE_DRIVE
  let asrc := s.portAsrc p
  let ratio := (portRatio s.fs e.rate).1
  let env := (e.env.tick i).last
  let n := s.routeFade i
  let step := fun (acc : Map InputSel × List (Option Int)) j =>
    let want := s.slotSource k j
    let q := Map.get ({} : InputSel) j acc.1
    let q := if q.cur = want then q else q.change i n want
    let g := Map.get ({} : GainStage) j e.slots
    let on := e.mask.testBit j || i < g.start + g.n
    let v := if on then
        let x := s.egressInput q asrc ratio i phase
        some (if s.portHeld p then 0 else portCodeOf bits (applyGain (applyGain x (g.at_ i)) env))
      else if hiz then none else some 0
    (acc.1.put {} j q, acc.2 ++ [v])
  let (routes, sent) := (List.range (s.portSlots p)).foldl step (e.routes, [])
  let sent := if s.egressOpen then sent else sent.map (fun _ => none)
  s.setPort p { e with routes := routes, sent := sent, env := e.env.tick i }

/-- A frame-sync edge of a section (R294, R295, R299, R303): `bits` bit clocks since the last edge, the
pulse of the right width or not, its phase in 1/256 frame, and the received slots as codes of
DATA_BITS. -/
def State.tdmFrame (s : State) (p : Port) (bits : Nat) (pulse : Bool) (phase : Nat) (slots : List Int) : State :=
  let e := s.port p
  let s := s.setPort p { e with edge := some s.render.tick }
  if e.phase = .off then s
  else
    let (len, data) := s.portFrame p
    let s := if bits = len && pulse then
        let x := (List.range (s.portSlots p)).map (fun j => some (slots.getD j 0 * 2 ^ (32 - data)))
        let e := (s.port p).note false
        let back := e.filling && e.phase = .locked
        let e := { e.take (s.portAsrc p) x with
          goodAt := s.render.tick, lastRsi := s.render.rsi, filling := e.filling && !back }
        let e := if back then { e with env := e.env.retarget s.nextSample unity (s.portRamp p) } else e
        ((s.setPort p e).portPhase p phase).portMasks p
      else s.badFrame p true
    let s := if s.mediaSync p && !(s.port p).sync then
        let s := s.setPort p { s.port p with sync := true }
        if (s.port p).phase = .syncWait then s.portLock p else s
      else s
    match p with
    | .tdmTx k => s.portSend k phase
    | _ => s

def execTdmFrame (p : Port) (bits : Nat) (pulse : Bool) (phase : Nat) (slots : List Int) (s : State) : Res :=
  match p with
  | .aesRx _ => settle s
  | _ => settle (if s.hasPort p then s.tdmFrame p bits pulse phase slots else s)

/-! Receive sections at a media strobe (R296, R297, R300) -/

/-- History of a channel, newest first, with the frames missing since the last good one filled by
reflection: sample L + m is sample L - m. -/
def PortState.history (e : PortState) (c missing : Nat) : List Int :=
  let h := e.frames.map (fun f => f.getD c 0)
  if e.filling then ((List.range missing).map (fun m => h.getD (missing - m) 0)) ++ h else h

/-- One channel of a section at render sample `i`. -/
def State.portChannel (s : State) (p : Port) (e : PortState) (c i : Nat) : Int :=
  let since := i - e.lastRsi
  let missing := min 255 (since * e.rate / (s.fs * 256))
  let h := e.history c (if s.portAsrc p then missing else min 255 (since - 1))
  if s.portAsrc p then Config.asrc (portRatio s.fs e.rate).1 i 0 h else h.headD 0

/-- A receive section delivers its render samples. -/
def State.portStrobe (s : State) (p : Port) (i : Nat) : State :=
  let e := s.port p
  if e.phase = .off && e.env.last = 0 then s
  else
    let e := if !s.portAsrc p && e.phase = .locked && !e.fresh && !e.filling then
        { e with filling := true, env := e.env.retarget i 0 s.fade2ms }
      else e
    let env := e.env.tick i
    let slots := Map.update ({} : GainStage) (GainStage.tick · i) e.slots
    let e := { e with fresh := false, env := env, slots := slots }
    let s := s.setPort p e
    (List.range (s.portSlots p)).foldl (fun s c =>
      let g := (Map.get ({} : GainStage) c slots).last
      let x := if env.last = 0 || g = 0 || s.portHeld p then 0
        else applyGain (applyGain (s.portChannel p e c i) g) env.last
      match p with
      | .aesRx k =>
        let a := s.aes k
        let em := (s.fld (.aesRx k) Reg.AesRx.CTRL_DEEMPH = 2) ||
          (s.fld (.aesRx k) Reg.AesRx.CTRL_DEEMPH = 1 && (if c = 0 then a.emA else a.emB))
        let na := a.na.tick i
        let (q, y) := (List.range 2).foldl (fun (acc : Map Section × Int) j =>
          let sec := (Map.get ({} : Section) (2 * c + j) acc.1).enable em i
          let (sec, y, _) := sec.step (coeffs (Config.deemphasis s.fs j)) satQ31 (96 * s.rateMul) i acc.2
          (acc.1.put {} (2 * c + j) sec, y)) (a.sections, x)
        let s := s.setAes k { a with na := na, sections := q }
        let s := s.setBit (.aesRx k) Reg.AesRx.DEEMPH_ACTIVE (em || (c = 1 && s.bit (.aesRx k) Reg.AesRx.DEEMPH_ACTIVE))
        s.putSample { type := 3, unit := k, chan := c } i (applyGain y na.last)
      | .tdmRx k => s.putSample { type := 2, unit := k, chan := c } i x
      | .tdmTx _ => s) s

/-- An AES3 transmitter sends its frame (R310, R389). -/
def State.aesSend (s : State) (k i : Nat) : State :=
  let e := Map.get ({} : AesTxState) k s.aesTx
  if !s.bit (.aesTx k) Reg.AesTx.CTRL_EN then
    if e.sent.isNone then s.set (.aesTx k) Reg.AesTx.STATE 0
    else { s with aesTx := s.aesTx.put ({} : AesTxState) k { e with sent := none } }.set (.aesTx k) Reg.AesTx.STATE 0
  else
    let n := s.routeFade i
    let next := fun (q : InputSel) (f : Fld) =>
      let want : Source := { type := 9, unit := s.fld (.aesTx k) f }
      if q.cur = want then q else q.change i n want
    let a := next e.srcA Reg.AesTx.SRC_A
    let b := next e.srcB Reg.AesTx.SRC_B
    let v := fun q => portCodeOf 24 (s.egressInput q false 0 i 0)
    let e := { e with srcA := a, srcB := b, sent := if s.egressOpen then some (v a, v b) else none }
    { s with aesTx := s.aesTx.put ({} : AesTxState) k e }.set (.aesTx k) Reg.AesTx.STATE (if s.egressOpen then 1 else 2)

/-- Every port at a media sample strobe. -/
def State.portsStrobe (s : State) (i : Nat) : State :=
  let s := (List.range s.model.tdms).foldl (fun s k => s.portStrobe (.tdmRx k) i) s
  (List.range s.model.aes).foldl (fun s k => (s.portStrobe (.aesRx k) i).aesSend k i) s

/-! AES3 reception (R305 to R309) -/

/-- A word of non-audio payload goes to the owner's ring, or in an EVENT message (R309). -/
def State.naWord (s : State) (k : Nat) (w : Word) : State :=
  let seat := (s.ownerOf (.aesRx k)).1
  if s.isStagedoor seat then s.sdEvent seat 3 [w]
  else
    let size := s.fld (.aesRx k) Reg.AesRx.NA_BUF_SIZE
    let wr := s.fld (.aesRx k) Reg.AesRx.NA_WRPTR
    let next := if size ≤ wr + 4 then 0 else wr + 4
    if size = 0 then s
    else if next = s.fld (.aesRx k) Reg.AesRx.NA_RDPTR then s.event (.aesRx k) 7
    else
      (s.hostWriteBytes seat (s.fld64 (.aesRx k) Reg.AesRx.NA_BUF_LO Reg.AesRx.NA_BUF_HI + wr) (bytesOf w)).set
        (.aesRx k) Reg.AesRx.NA_WRPTR next

/-- The pair becomes non-audio: both channels ramp to 0 over 0.5 ms (R308). -/
def State.toNonAudio (s : State) (k source : Nat) : State :=
  if s.bit (.aesRx k) Reg.AesRx.NONAUDIO then s
  else
    let a := s.aes k
    let s := s.setAes k { a with na := a.na.retarget s.nextSample 0 (24 * s.rateMul) }
    ((s.set (.aesRx k) Reg.AesRx.NONAUDIO 1).set (.aesRx k) Reg.AesRx.NA_SOURCE source).event (.aesRx k) 4

/-- One subframe is searched for burst preambles. -/
def State.burst (s : State) (k : Nat) (x : Nat) : State :=
  let a := s.aes k
  let hi := x / 256 % 65536
  let s := if a.header = 2 then s.set (.aesRx k) Reg.AesRx.BURST_PC hi
    else if a.header = 1 then s.set (.aesRx k) Reg.AesRx.BURST_PD hi else s
  let det := s.bit (.aesRx k) Reg.AesRx.CTRL_NA_DETECT
  if det && a.pa && hi = 0x4E1F then
    (s.setAes k { a with pa := false, header := 2, sincePa := 0 }).toNonAudio k 1
  else s.setAes k { a with pa := hi = 0xF872, header := a.header - 1 }

/-- The receiver copies a subframe received while NONAUDIO reads 1 (R309). -/
def State.naCopy (s : State) (k x sub : Nat) : State :=
  if s.bit (.aesRx k) Reg.AesRx.NONAUDIO && s.bit (.aesRx k) Reg.AesRx.CTRL_NA_CAPTURE then
    s.naWord k (BitVec.ofNat 32 (x % 2 ^ 24 + sub * 2 ^ 24 + (if x / 256 % 65536 = 0xF872 then 2 ^ 25 else 0)))
  else s

/-- A frame of an AES3 receiver (R299, R305, R308, R309): parity, biphase and preambles right or not,
the 24-bit audio fields and the validity bits of subframes A and B. -/
def State.aes3Frame (s : State) (k : Nat) (bad : Bool) (a b : Nat) (va vb : Bool) : State :=
  let p := Port.aesRx k
  let e := s.port p
  let s := s.setPort p { e with edge := some s.render.tick }
  if e.phase = .off then s
  else if bad then s.badFrame p true
  else
    let mute := s.bit (.aesRx k) Reg.AesRx.CTRL_VALIDITY_MUTE
    let e := (s.port p).note false
    let x := fun (v : Nat) (inv : Bool) => if mute && inv then none else some (signed 24 (v % 2 ^ 24) * 256)
    let s := s.setPort p { e.take true [x a va, x b vb] with goodAt := s.render.tick, lastRsi := s.render.rsi }
    let s := if mute && (va || vb) then s.badFrame p false else s
    let s := ((s.burst k a).naCopy k a 0 |>.burst k b).naCopy k b 1
    let q := s.aes k
    s.setAes k { q with sincePa := q.sincePa + 1 }

def execAes3Frame (k : Nat) (bad : Bool) (a b : Nat) (va vb : Bool) (s : State) : Res :=
  settle (if s.hasPort (.aesRx k) then s.aes3Frame k bad a b va vb else s)

/-- The CRCC of bytes 0 to 22 of professional channel status, as AES3 has it. -/
def crcc (bs : List Byte) : Byte :=
  (bs.take 23).foldl (fun c b =>
    (List.range 8).foldl (fun (c : Byte) _ => if c.getLsbD 0 then (c >>> 1) ^^^ 0xB8#8 else c >>> 1) (c ^^^ b)) 0xFF#8

/-- Words of a channel-status block. -/
def csWords (bs : List Byte) : List Word := (List.range 6).map (fun i => word32 ((bs.drop (4 * i)) ++ [0, 0, 0, 0]))

/-- A channel-status block of subframe A or B completes (R306 to R308). -/
def State.csBlock (s : State) (k : Nat) (sub : Bool) (bs : List Byte) : State :=
  let consumer := leAt bs 0 1 % 2 = 0
  if (s.port (.aesRx k)).phase = .off then s
  else if !consumer && bs.getD 23 0 ≠ crcc bs then s.set (.aesRx k) Reg.AesRx.CS_CRC_ERR 1
  else
    let f := fun i => if sub then Reg.AesRx.CS_B i else Reg.AesRx.CS_A i
    let ws := csWords bs
    let same := ws.zipIdx.all (fun (w, i) => s.fld (.aesRx k) (f i) = w.toNat)
    let s := ws.zipIdx.foldl (fun s (w, i) => s.set (.aesRx k) (f i) w.toNat) s
    let s := if same then s else s.event (.aesRx k) 6
    let s := (s.set (.aesRx k) Reg.AesRx.CS_CRC_ERR 0).setBit (.aesRx k) Reg.AesRx.CONSUMER consumer
    let b0 := leAt bs 0 1
    let em := if consumer then (match b0 / 8 % 8 with | 0 => 0 | 1 => 1 | _ => 3)
      else (match b0 / 4 % 8 with | 0 => 0 | 1 => 0 | 3 => 1 | 7 => 2 | _ => 3)
    let s := s.set (.aesRx k) Reg.AesRx.EMPH em
    let na := b0 / 2 % 2 = 1
    let a := s.aes k
    let a := if sub then { a with naB := na, emB := em = 1 } else { a with naA := na, emA := em = 1 }
    let s := s.setAes k a
    if na && s.bit (.aesRx k) Reg.AesRx.CTRL_NA_DETECT then s.toNonAudio k 0 else s

def execCsBlock (k : Nat) (sub : Bool) (bs : List Byte) (s : State) : Res :=
  settle (if s.hasPort (.aesRx k) then s.csBlock k sub bs else s)

/-- The pair returns to audio (R308). -/
def execAudio (k : Nat) (s : State) : Res :=
  let a := s.aes k
  if s.hasPort (.aesRx k) ∧ s.bit (.aesRx k) Reg.AesRx.NONAUDIO ∧ !a.naA ∧ !a.naB ∧ 8192 ≤ a.sincePa then
    let s := s.setAes k { a with na := a.na.retarget s.nextSample unity (s.portRamp (.aesRx k)) }
    settle ((s.set (.aesRx k) Reg.AesRx.NONAUDIO 0).event (.aesRx k) 5)
  else settle s

/-! AES3 transmission and the media clock pins -/

/-- Channel status to send: byte 23 computed for professional format, the rate code written with
AUTO_RATE (R310). -/
def State.csToSend (s : State) (k : Nat) : List Word :=
  let auto := s.bit (.aesTx k) Reg.AesTx.CTRL_AUTO_RATE
  let one := fun (f : Nat → Fld) =>
    let bs := (List.range 6).flatMap (fun i => bytesOf (BitVec.ofNat 32 (s.fld (.aesTx k) (f i))))
    let set := fun (l : List Byte) i (v : Nat) => l.set i (BitVec.ofNat 8 v)
    let bs := if auto then
        let b0 := leAt bs 0 1 % 64 + (if s.rateMul = 1 then 0x80 else 0)
        let b4 := leAt bs 4 1
        let b4 := b4 - b4 / 8 % 16 * 8 + (if s.rateMul = 1 then 0 else 2 * 8)
        set (set bs 0 b0) 4 b4
      else bs
    csWords (if leAt bs 0 1 % 2 = 1 then bs.set 23 (crcc bs) else bs)
  one Reg.AesTx.CS_A ++ one Reg.AesTx.CS_B

/-- A Z preamble of a transmitter: a block is complete, and a changed channel status applies. -/
def execCsApplied (k : Nat) (s : State) : Res :=
  let e := Map.get ({} : AesTxState) k s.aesTx
  if Blk.present s.model (.aesTx k) ∧ s.bit (.aesTx k) Reg.AesTx.CTRL_EN then
    let s := s.count (.aesTx k) Reg.AesTx.CS_BLOCKS
    let cs := s.csToSend k
    settle (if e.cs = cs then s
      else { s with aesTx := s.aesTx.put ({} : AesTxState) k { e with cs := cs } }.event (.aesTx k) 0)
  else settle s

/-- The frequency on a clock input, in Hz (R311). -/
def execMclkinMeasure (i : Nat) (freq : Nat) (s : State) : Res :=
  settle (if i < 2 then s.set .clocks (Reg.Clocks.MCLKIN_FREQ i) (if freq < 1000000 then 0 else freq) else s)

/-! Configuration (R297, R312, R316) -/

/-- Port channels in ASRC use, with the words a store gives (R297). -/
def asrcUse (m : RegMap) (model : Model) : Nat :=
  let get := fun (b : Blk) (f : Fld) => regGet m b.base f
  let bits := fun (n mask : Nat) => ((List.range n).filter mask.testBit).length
  (List.range model.tdms).foldl (fun a k =>
    let b := Blk.tdm k
    a + (if get b Reg.Tdm.RX_CFG_EN = 1 ∧ get b Reg.Tdm.RX_CFG_ASRC = 1 then
          bits (get b Reg.Tdm.RX_CFG_SLOTS + 1) (get b Reg.Tdm.RX_MASK) else 0) +
        (if get b Reg.Tdm.TX_CFG_EN = 1 ∧ get b Reg.Tdm.TX_CFG_ASRC = 1 then
          bits (get b Reg.Tdm.TX_CFG_SLOTS + 1) (get b Reg.Tdm.TX_MASK) else 0))
    ((List.range model.aes).foldl (fun a k => a + (if get (.aesRx k) Reg.AesRx.CTRL_EN = 1 then 2 else 0)) 0)

/-- The configuration of a section was applied, with the words before it: a changed section starts
again from UNLOCKED, but one set to bypass with SYNC stays locked. -/
def State.portConfig (s : State) (p : Port) (old : RegMap) : State :=
  let b := portBlk p
  let on := s.portEn p
  let e := s.port p
  let same := fun (rx tx : Fld) => regGet old b.base (portPick p rx tx rx) = s.fld b (portPick p rx tx rx)
  let kept := match p with
    | .aesRx _ => true
    | _ => same Reg.Tdm.RX_CFG_FORMAT Reg.Tdm.TX_CFG_FORMAT && same Reg.Tdm.RX_CFG_MASTER Reg.Tdm.TX_CFG_MASTER &&
        same Reg.Tdm.RX_CFG_CLKSRC Reg.Tdm.TX_CFG_CLKSRC && same Reg.Tdm.RX_CFG_SLOTS Reg.Tdm.TX_CFG_SLOTS &&
        same Reg.Tdm.RX_CFG_WIDTH Reg.Tdm.TX_CFG_WIDTH && same Reg.Tdm.RX_CFG_BCLK_DIV Reg.Tdm.TX_CFG_BCLK_DIV &&
        same Reg.Tdm.RX_CFG_FS_INV Reg.Tdm.TX_CFG_FS_INV && same Reg.Tdm.RX_CFG_BCLK_INV Reg.Tdm.TX_CFG_BCLK_INV &&
        same Reg.Tdm.RX_CFG_FS_DELAY Reg.Tdm.TX_CFG_FS_DELAY && same Reg.Tdm.RX_CFG_FS_WIDTH Reg.Tdm.TX_CFG_FS_WIDTH &&
        (same Reg.Tdm.RX_CFG_ASRC Reg.Tdm.TX_CFG_ASRC || (e.sync && e.phase = .locked && !s.portAsrc p))
  let s := if !on then
      (if e.phase = .off then s else (s.syncLost p).setPort p { e with
        phase := .off, sync := false, phase0 := none, sent := [], env := e.env.retarget s.nextSample 0 0 })
    else if e.phase = .off || !kept then
      (s.syncLost p).setPort p {
        phase := .unlocked, edge := e.edge, goodAt := e.goodAt, lastRsi := e.lastRsi, rate := e.rate, filling := true
        env := e.env.retarget s.nextSample 0 s.fade2ms, frames := e.frames, slots := e.slots, mask := e.mask
        routes := e.routes, sent := e.sent }
    else if e.phase = .unlocked then s.setPort p { e with mask := s.portMask p } else s
  s.set .asrc Reg.Asrc.CH_USED (min (asrcUse s.fab.act s.model) 2047)

/-- BLOCK_RESET of a port page (R316): counters and ASRC state clear, and the section relocks. -/
def State.portReset (s : State) (p : Port) : State :=
  let e := s.port p
  let s := s.set (portBlk p) (portPick p Reg.Tdm.RX_BAD Reg.Tdm.TX_BAD Reg.AesRx.BAD) 0
  let s := match p with
    | .tdmRx k => s.set (.tdm k) Reg.Tdm.RX_STOPS 0
    | .tdmTx k => s.set (.tdm k) Reg.Tdm.TX_STOPS 0
    | .aesRx _ => s
  if e.phase = .off then s
  else (s.syncLost p).setPort p {
    phase := .unlocked, edge := e.edge, mask := s.portMask p, routes := e.routes, sent := e.sent }

/-- Render reset and render-rate change (R316): a section locked to the render rate before relocks, or waits for
SYNC at the new one; a reset that leaves the rate as it was leaves the section as it is. -/
def State.portRender (s : State) (p : Port) : State :=
  let e := s.port p
  if e.phase ≠ .locked then s
  else if s.portAsrc p then
    if s.fld (portBlk p) (portPick p Reg.Tdm.RX_RATIO Reg.Tdm.TX_RATIO Reg.AesRx.RATIO) = (portRatio s.fs e.rate).1 then s
    else ((s.syncLost p).setPort p { e with phase := .locking, sync := false, phase0 := none, env := {} }).showRate p e.rate
  else if e.rate = s.fs * 256 then s
  else
    let s := s.syncLost p
    s.setPort p { s.port p with phase := .syncWait, env := {} }

def State.portsRender (s : State) : State :=
  let s := (List.range s.model.tdms).foldl (fun s k => (s.portRender (.tdmRx k)).portRender (.tdmTx k)) s
  (List.range s.model.aes).foldl (fun s k => s.portRender (.aesRx k)) s

/-- Does the section itself get no clock (R300, R316): for a master none where its source is absent, for a slave no
frame-sync edge for four and a half periods? -/
def State.ownClockAbsent (s : State) (p : Port) : Bool :=
  let e := s.port p
  match s.portClock p, e.edge with
  | some f, _ => f = 0
  | none, none => true
  | none, some t =>
    let r := if e.rate = 0 then 8000 * 256 else e.rate
    9 * s.fs * 256 < (s.render.tick - t) * 2 * r

/-- Is the clock of a section absent? With CLKSRC = LINK it is that of the transmit section, while that runs (R293). -/
def State.clockAbsent (s : State) (p : Port) : Bool :=
  if s.portLink p then
    let q := Port.tdmTx (match p with
      | .tdmRx k | .tdmTx k | .aesRx k => k)
    !s.portEn q || s.ownClockAbsent q
  else s.ownClockAbsent p

/-- The pins of every port float at once when egress closes (R304, R316). -/
def State.floatPins (s : State) : State :=
  { s with
    tdmTx := s.tdmTx.update ({} : PortState) (fun e => { e with sent := e.sent.map (fun _ => none) })
    aesTx := s.aesTx.update ({} : AesTxState) (fun e => { e with sent := none }) }

end Sys2Proof.Machine
end

