-- ==== Sys2Proof/Machine/Strobe.lean ====
section
/-! DEFINITION. Strobes: acceptance, capture, refusal, cancel and discard, and where a commit's
result is shown (R65 to R76, R430, R443, R591). -/

namespace Sys2Proof.Machine

open Sys2Proof

/-- UPD_RESULT.STATE codes (R66). -/
def updIdle : Nat := 0
def updPreparing : Nat := 1
def updPending : Nat := 2
def updApplied : Nat := 3
def updFailed : Nat := 4
def updSplit : Nat := 5
def updRefused : Nat := 6
def updCancelled : Nat := 7

/-- UPD_RESULT.REASON codes (R66). -/
def rNone : Nat := 0
def rBadValue : Nat := 1
def rNoCapacity : Nat := 2
def rRateMismatch : Nat := 3
def rKindConflict : Nat := 4
def rNotOwner : Nat := 5
def rGroupPending : Nat := 6
def rClockAbsent : Nat := 7
def rNotPrincipal : Nat := 8
def rLate : Nat := 9
def rUnitLost : Nat := 10

/-- Bit g of a mask names group g. -/
def groupsOf (mask : Nat) : List Nat := (List.range 32).filter mask.testBit

/-- Words of a unit kept beside its page: where they start and how many bytes. The classifier
program of a port is staged and committed with its page (R334, R336). -/
def extraOf : Blk → Nat × Nat
  | .ethCls p => (0x2600000 + 0x1000 * p, 0x800)
  | _ => (0, 0)

/-- Does a key of a register store belong to the unit? -/
def ownsKey (b : Blk) (k : Nat) : Bool :=
  (b.base ≤ k && k < b.base + (if b.isRecord then 0x80 else 0x800)) ||
    ((extraOf b).1 ≤ k && k < (extraOf b).1 + (extraOf b).2)

/-- The present pages and records that a mask names (R68, R73). -/
def State.members (s : State) (mask : Nat) : List Blk :=
  allBlks.filter (fun b => b.present s.model && s.groupOf b < 32 && mask.testBit (s.groupOf b))

/-- PENDING_GROUPS and UG_CFG.PENDING follow the commits in flight (R65). -/
def State.showPending (s : State) : State :=
  let mask := s.pendingGroups
  (List.range 32).foldl (fun s g => s.setBit .update (Reg.Update.UG_CFG_PENDING g) (mask.testBit g))
    (s.set .update Reg.Update.PENDING_GROUPS mask)

/-- HOLD.COUNT, HOLD.FIRST and HOLD.SERIAL (R443). -/
def State.showHeld (s : State) : State :=
  let pages := (s.fab.held.map (fun h => h.1.page.base / 4096)).eraseDups
  let first := pages.foldl min 0xFFFFFF
  let ser := ((s.fab.held.find? (fun h => h.1.page.base / 4096 = first)).map (·.2)).getD 0
  ((s.set .update Reg.Update.HOLD_COUNT pages.length).set .update Reg.Update.HOLD_FIRST
    (if pages.isEmpty then 0 else first)).set .update Reg.Update.HOLD_SERIAL ser

/-- Key of the strober whose last strobe a result belongs to (R591). -/
def Strober.key (by_ : Strober) (seat : Nat) : Nat :=
  match by_ with
  | .seat => seat
  | .prompter => 8 + seat
  | .defaultConfig | .peer => 0

/-- The event a result raises (R76, R430): the UPDATE page of the seat, or its PROMPTER page. -/
def State.resultEvent (s : State) (by_ : Strober) (seat state reason : Nat) : State :=
  let bad := state = updFailed || state = updRefused || state = updCancelled
  match by_ with
  | .peer => s
  | .prompter =>
    let s := if reason = rLate then s.event (.prompter seat) 6 else s
    if state = updApplied then s.event (.prompter seat) 3
    else if bad then s.event (.prompter seat) 4
    else if state = updSplit then s.event (.prompter seat) 5 else s
  | _ =>
    if state = updApplied then s.event (.updateBank seat) 0
    else if bad then s.event (.updateBank seat) 1
    else if state = updSplit then s.event (.updateBank seat) 2 else s

/-- Show the state of a strobe where its strober looks: serial 0 is a refused one (R430, R591). -/
def State.report (s : State) (by_ : Strober) (seat serial state reason page : Nat) : State :=
  let s := if by_ = .defaultConfig then { s with fab := { s.fab with defcfg := state } } else s
  let s := s.resultEvent by_ seat state reason
  if by_ = .peer || Map.get 0 (by_.key seat) s.fab.lastStrobe ≠ serial then s
  else
    match by_ with
    | .prompter =>
      ((s.set (.prompter seat) Reg.Prompter.STROBE_STATE state).set (.prompter seat)
        Reg.Prompter.STROBE_REASON reason).set (.prompter seat) Reg.Prompter.STROBE_PAGE page
    | _ =>
      ((s.set (.updateBank seat) Reg.Update.UPD_RESULT_STATE state).set (.updateBank seat)
        Reg.Update.UPD_RESULT_REASON reason).set (.updateBank seat) Reg.Update.UPD_RESULT_PAGE page

/-- UPD_APPLIED_AT of the last accepted strobe (R591). -/
def State.reportAppliedAt (s : State) (c : Commit) (at_ : Nat) : State :=
  match c.by_ with
  | .peer => s
  | .prompter =>
    if s.fld (.prompter c.seat) Reg.Prompter.STROBE_SERIAL = c.serial then
      s.set64 (.prompter c.seat) Reg.Prompter.STROBE_APPLIED_AT_LO Reg.Prompter.STROBE_APPLIED_AT_HI at_
    else s
  | _ =>
    if s.fld (.updateBank c.seat) Reg.Update.UPD_SERIAL = c.serial then
      s.set64 (.updateBank c.seat) Reg.Update.UPD_APPLIED_AT_LO Reg.Update.UPD_APPLIED_AT_HI at_
    else s

/-- Serials run from 1 and wrap from 0xFFFF_FFFF to 1 (R67). -/
def nextSerial (n : Nat) : Nat := if n = 0xFFFFFFFF then 1 else n + 1

/-- Is the unit a LOCKSTEP understudy, which accepts no strobe (R492, R493)? -/
def State.isUnderstudy (s : State) : Bool :=
  s.twin.mode = 2 && s.fld .twin Reg.Twin.ROLE = 1

/-- Why a strobe is refused, if it is (R67, R492). Where two reasons hold at once the spec does not
say which is given: an open choice. -/
def State.strobeRefusal (s : State) (seat mask : Nat) : Option Nat × State :=
  let notOwner := (groupsOf mask).any (fun g => !s.mayUseGroup seat g)
  let pending := s.fab.commits.any (fun c => c.pending && c.mask &&& mask ≠ 0)
  if s.isUnderstudy then (some rNotPrincipal, s)
  else if notOwner && pending then
    let (v, s) := s.fresh
    (some (if v % 2 = 0 then rNotOwner else rGroupPending), s)
  else if notOwner then (some rNotOwner, s)
  else if pending then (some rGroupPending, s)
  else (none, s)

/-- Note whose strobe was the last, with its serial (0: refused), and where it accepted one, its
serial and a cleared apply sample (R591). -/
def State.noteStrobe (s : State) (by_ : Strober) (seat serial : Nat) : State :=
  let s := { s with fab := { s.fab with lastStrobe := s.fab.lastStrobe.put 0 (by_.key seat) serial } }
  if serial = 0 then s
  else
    match by_ with
    | .prompter =>
      (s.set (.prompter seat) Reg.Prompter.STROBE_SERIAL serial).set64 (.prompter seat)
        Reg.Prompter.STROBE_APPLIED_AT_LO Reg.Prompter.STROBE_APPLIED_AT_HI 0
    | _ =>
      (s.set (.updateBank seat) Reg.Update.UPD_SERIAL serial).set64 (.updateBank seat)
        Reg.Update.UPD_APPLIED_AT_LO Reg.Update.UPD_APPLIED_AT_HI 0

/-- What a commit captures (R68): the staged values of every unit of its groups, and their kinds. -/
def State.capture (s : State) (by_ : Strober) (seat mask at_ serial : Nat) : Commit :=
  let blks := s.members mask
  { serial := serial, seat := seat, by_ := by_, mask := mask, at_ := at_
    kinds := (groupsOf mask).map (fun g => (g, s.fld .update (Reg.Update.UG_CFG_KIND g)))
    blks := blks, vals := Map.only (fun k => blks.any (ownsKey · k)) s.fab.stg
    grp := blks.foldl (fun (m : Map Nat) b => m.put 0 b.base (s.groupOf b)) []
    wasPending := blks.filter s.isPending }

/-- A strobe (R67, R68, R430): refused, or accepted with the next serial and the staged values of
every page and record of the named groups captured. The answer's serial is 0 when refused. -/
def State.strobe (s : State) (by_ : Strober) (seat mask at_ : Nat) : State × Nat :=
  if mask % 2 ^ 32 = 0 then (s, 0)
  else
    match s.strobeRefusal seat mask with
    | (some r, s) => ((s.noteStrobe by_ seat 0).report by_ seat 0 updRefused r 0, 0)
    | (none, s) =>
      let serial := nextSerial s.fab.serial
      let c := s.capture by_ seat mask at_ serial
      let s := s.tellPeer (.commit serial seat mask at_ c.vals)
      let s := { s with fab := { s.fab with serial := serial, commits := s.fab.commits ++ [c] } }
      let s := c.wasPending.foldl (fun s b => s.setPending b false) s
      let s := (s.set .update Reg.Update.COMMIT_SERIAL serial).showPending
      ((s.noteStrobe by_ seat serial).report by_ seat serial updPreparing rNone 0, serial)

/-- A host strobe: UPD_AT of the seat is latched (R68). -/
def execUpdStrobe (seat : Nat) (mask : Word) (s : State) : Res :=
  settle (s.strobe .seat seat mask.toNat
    (s.fld64 (.updateBank seat) Reg.Update.UPD_AT_LO Reg.Update.UPD_AT_HI)).1

/-- A commit ends without applying: its captured pages keep their staged values and their
STAGED_PENDING is set again (R57, R70, R75). -/
def State.endCommit (s : State) (c : Commit) (state reason page : Nat) : State :=
  let s := { s with fab := { s.fab with commits := s.fab.commits.filter (·.serial ≠ c.serial) } }
  let s := c.wasPending.foldl (fun s b => s.setPending b true) s
  let s := if c.by_ = .peer then s else s.tellPeer (.commitAt c.serial none)
  (s.showPending).report c.by_ c.seat c.serial state reason page

/-- May the commit still be withdrawn: while PREPARING always, else at least one sample period before
its apply sample (R75)? -/
def State.cancellable (s : State) (c : Commit) : Bool :=
  c.pending && (!c.prepared || s.stopped || s.render.rsi + 1 < c.applyAt)

/-- UPD_CANCEL: withdraw every pending commit that names a group the writer may use (R75). -/
def State.cancelGroups (s : State) (seat mask : Nat) : State :=
  let gs := (groupsOf mask).filter (s.mayUseGroup seat)
  (s.fab.commits.filter (fun c => gs.any c.mask.testBit && s.cancellable c)).foldl
    (fun s c => s.endCommit c updCancelled rNone 0) s

def execUpdCancel (seat : Nat) (mask : Word) (s : State) : Res := settle (s.cancelGroups seat mask.toNat)

/-- Staged values of a page or record, and of the words beside it, are discarded. -/
def State.discardAll (s : State) (b : Blk) : State :=
  let s := s.discardStaged b
  if (extraOf b).2 = 0 then s
  else
    let inside := fun k => decide ((extraOf b).1 ≤ k ∧ k < (extraOf b).1 + (extraOf b).2)
    s.withStg ((Map.only inside s.fab.act).foldl (fun (m : RegMap) (e : Nat × Word) => m.put 0#32 e.1 e.2)
      (Map.drop inside s.fab.stg))

/-- UPD_DISCARD (R75): the house seat acts on every page and record of the groups, another seat on
those it may write. -/
def execUpdDiscard (seat : Nat) (mask : Word) (s : State) : Res :=
  let gs := (groupsOf mask.toNat).foldl (fun m g => if s.mayUseGroup seat g then m ||| 2 ^ g else m) 0
  settle (((s.members gs).filter (fun b => seat = 0 || s.mayWrite seat b)).foldl State.discardAll s)

end Sys2Proof.Machine
end

