-- ==== Sys2Proof/Machine/Time.lean ====
section
/-! DEFINITION. PTP instances, device time, the media clock and the timestamp queues (R348 to R372). -/

namespace Sys2Proof.Machine

open Sys2Proof

/-! Instances -/

def State.inst (s : State) (i : Nat) : Inst := if i = 0 then s.time.instA else s.time.instB

def State.setInst (s : State) (i : Nat) (v : Inst) : State :=
  if i = 0 then { s with time := { s.time with instA := v } } else { s with time := { s.time with instB := v } }

/-- SERVO codes (R369): 0 IDLE, 1 LOCKING, 2 LOCKED, 3 COASTING. -/
def State.servo (s : State) (i : Nat) : Nat := s.fld (.time i) Reg.Time.SERVO

/-- The instance device time follows. -/
def State.selInst (s : State) : Nat := s.fld .mediaClk Reg.MediaClk.ACTIVE_SEL

/-- Device time at the last strobe, in ns (R350). -/
def State.deviceNs (s : State) : Nat := s.time.m * 1000000000 / s.fs

/-- Device time at the next strobe, in ns. -/
def State.nextNs (s : State) : Nat := (s.time.m + 1) * 1000000000 / s.fs

/-- Device time at the last strobe, in 2^-16 ns (R350). -/
def State.device (s : State) : Int := (s.time.m * 1000000000 * 65536 / s.fs : Nat)

/-- Show H (R370). -/
def State.showH (s : State) : State :=
  s.set64 .mediaClk Reg.MediaClk.HELD_OFFSET_LO Reg.MediaClk.HELD_OFFSET_HI (unsigned 64 s.time.h)

def State.mediaState (s : State) (v : Nat) : State := s.set .mediaClk Reg.MediaClk.STATE v

/-- H has a new value: it slews, or is held (R363). -/
def State.newH (s : State) (h : Int) : State :=
  let s := { s with time := { s.time with h := h, slew := none } }.showH
  if h = 0 then s.mediaState 1
  else if (absNat h) ≤ s.fld .mediaClk Reg.MediaClk.MAX_SLEW * 1000 * 65536 then
    { s with time := { s.time with slew := some (h, s.render.tick) } }.mediaState 2
  else (s.mediaState 4).event .mediaClk 4

/-- Device time steps by `d`, which no render sees: the media sample number follows (R361). -/
def State.stepDevice (s : State) (d : Int) : State :=
  let t := s.device + d
  let m := (-((-(t * s.fs)).fdiv (1000000000 * 65536))).toNat
  { s with time := { s.time with
    m := m, instA := { s.time.instA with off := s.time.instA.off - d }, instB := { s.time.instB with off := s.time.instB.off - d } } }

/-- H is 0 while no render runs: device time steps by what H was, to the time of the selected instance (R361). -/
def State.zeroH (s : State) : State :=
  if s.time.h = 0 then s
  else
    let s := s.stepDevice s.time.h
    let s := { s with time := { s.time with h := 0, slew := none } }.showH
    if s.fld .mediaClk Reg.MediaClk.STATE = 2 ∨ s.fld .mediaClk Reg.MediaClk.STATE = 4 then s.mediaState 1 else s

/-- The stream's DOMAIN names the instance that is not selected. -/
def State.altDomain (s : State) (n : Nat) : Bool :=
  let d := s.fld (.ingress n) Reg.Ingress.CTRL_DOMAIN
  d ≠ 0 && d ≠ s.selInst + 1

/-- Whole samples between the unselected domain and device time: O rounded (R366). -/
def State.domainShift (s : State) (n : Nat) : Int :=
  if s.altDomain n then
    let o := signed 64 (s.fld64 .mediaClk Reg.MediaClk.INTER_OFFSET_LO Reg.MediaClk.INTER_OFFSET_HI)
    let k := roundDiv (o * s.fs) (65536 * 1000000000)
    if s.selInst = 0 then -k else k
  else 0

/-- A switch of the selected instance applies: O is rounded anew for every stream (R366). -/
def State.streamsSwitch (s : State) : State :=
  (s.net.ing.map (·.1)).foldl (fun s n =>
    let s := s.setBit (.ingress n) Reg.Ingress.ALT_DOMAIN (s.bit (.ingress n) Reg.Ingress.CTRL_ENABLE && s.altDomain n)
    let e : IngState := Map.get {} n s.net.ing
    { s with net := { s.net with ing := s.net.ing.put {} n { e with shift := s.domainShift n } } }) s

/-- No render runs, and none restarts: what waits for a block boundary acts at once. -/
def State.restful (s : State) : Bool := s.stopped && !s.render.starting

/-- Does device time follow an instance: LOCKED, SLEWING or OFFSET_HELD (R361, R367)? -/
def State.deviceFollows (s : State) (i : Nat) : Bool :=
  let st := s.fld .mediaClk Reg.MediaClk.STATE
  i = s.selInst && (st = 1 || st = 2 || st = 4)

/-- The instance becomes the selected one (R365, R368): `first` on a lock out of HOLDOVER or FREERUN. -/
def State.selectInst (s : State) (i : Nat) (first : Bool) : State :=
  let was := s.selInst
  let s := s.set .mediaClk Reg.MediaClk.ACTIVE_SEL i
  let off := (s.inst i).off
  let s := if s.stopped then (s.stepDevice off).newH 0 else s.newH off
  let s := if was ≠ i then (s.count .mediaClk Reg.MediaClk.SWITCH_COUNT).event .mediaClk 0 else s
  let s := if first then s.event .mediaClk 3 else s
  let s := { s with time := { s.time with switch := none, holdFrom := none } }.streamsSwitch
  if s.lockPri then s.tellPeer (.select i) else s

/-- A switch that waits is taken: at a block boundary, or at once while no render runs. -/
def State.takeSwitch (s : State) : State :=
  match s.time.switch with
  | some (i, first) => s.selectInst i first
  | none => s

/-- The instance time steps by `d` (R360, R361). -/
def State.instStep (s : State) (i : Nat) (d : Int) : State :=
  let v := s.inst i
  let s := s.event (.time i) 5
  if s.deviceFollows i && s.stopped then (s.stepDevice d).setInst i { v with near := 0, far := 0 }
  else
    let t := s.setInst i { v with off := v.off + d, near := 0, far := 0 }
    if s.deviceFollows i then t.newH (s.time.h + d) else t

/-- LOG_SYNC as a signed number. -/
def State.logSync (s : State) (i : Nat) : Int := signed 8 (s.fld (.time i) Reg.Time.LOG_SYNC)

/-- Ticks in `n` intervals of 2^`log` seconds. -/
def State.intervals (s : State) (n : Nat) (log : Int) : Nat :=
  n * s.second * 2 ^ log.toNat / 2 ^ (-log).toNat

/-- INTER_VALID: both instances LOCKED, and the 16 values within 100 ns (R365). -/
def State.showInter (s : State) : State :=
  let l := s.time.inter
  s.setBit .mediaClk Reg.MediaClk.INTER_VALID (s.servo 0 = 2 && s.servo 1 = 2 && l.length = 16 &&
    l.foldl max (l.headD 0) - l.foldl min (l.headD 0) ≤ 100 * 65536)

/-- SERVO of an instance changes (R369): LOCKED and UNLOCKED tell when it locks, and when it falls to IDLE or LOCKING
after that. -/
def State.servoTo (s : State) (i now : Nat) : State :=
  let was := s.servo i
  let v := s.inst i
  let lost := v.locked && (now = 0 || now = 1)
  let s := s.set (.time i) Reg.Time.SERVO now
  let s := s.setInst i { v with locked := now = 2 || (v.locked && !lost) }
  let s := if now = 2 ∧ was ≠ 2 then s.event (.time i) 0 else s
  (if lost then s.event (.time i) 1 else s).showInter

/-- The inter-domain offset at a Sync of the slower instance (R365). -/
def State.interOffset (s : State) (i : Nat) : State :=
  let slower := if s.logSync 0 > s.logSync 1 then 0 else 1
  if i ≠ slower then s
  else
    let l := (((s.inst 1).off - (s.inst 0).off) :: s.time.inter).take 16
    let s := { s with time := { s.time with inter := l } }
    let mean := roundOpen (l.foldl (· + ·) 0) l.length
    (s.set64 .mediaClk Reg.MediaClk.INTER_OFFSET_LO Reg.MediaClk.INTER_OFFSET_HI (unsigned 64 mean)).showInter

/-- A Sync reaches its instance (R354, R360). -/
def State.ptpSync (s : State) (i : Nat) (d : Int) : State :=
  let o := d - s.fld (.time i) Reg.Time.MEAN_DELAY - signed 32 (s.fld (.time i) Reg.Time.ASYMMETRY)
  let s := s.set64 (.time i) Reg.Time.OFFSET_LO Reg.Time.OFFSET_HI (unsigned 64 o)
  let (f, s) := s.fresh
  let s := s.set (.time i) Reg.Time.FREQ f
  let s := if s.deviceFollows i then
      let (g, s) := s.fresh
      s.set .mediaClk Reg.MediaClk.FREQ_ADJ g
    else s
  let v := s.inst i
  let jump : Int := s.fld .mediaClk Reg.MediaClk.JUMP_THRESH * 1000 * 65536
  let near := if absNat o ≤ 65536000 then v.near + 1 else 0
  let far := if jump < absNat o then v.far + 1 else 0
  let moved := if s.deviceFollows i then v.off else v.off - Config.servoStep i o
  let s := s.setInst i { v with near := near, far := far, off := moved, syncAt := s.render.tick }
  let s := s.servoTo i (if 16 ≤ near ∨ s.servo i = 2 then 2 else 1)
  let s := if far = 4 then s.instStep i (-o) else s
  s.interOffset i

/-- An Announce, received on ETH3 of the bridge pair or not (R351, R369). `st` is what the best master clock algorithm
makes of the port; a slave-only instance never becomes master, and listens. -/
def State.ptpAnnounce (s : State) (i gm steps cls st : Nat) (far : Bool) : State :=
  let was := s.fld64 (.time i) Reg.Time.GM_ID_LO Reg.Time.GM_ID_HI
  let s := s.setInst i { s.inst i with annAt := s.render.tick }
  let s := s.set64 (.time i) Reg.Time.GM_ID_LO Reg.Time.GM_ID_HI gm
  let s := (s.set (.time i) Reg.Time.STEPS_REMOVED steps).set (.time i) Reg.Time.GM_CLASS cls
  let s := if was = gm % 2 ^ 64 then s else (s.count (.time i) Reg.Time.GM_CHANGES).event (.time i) 3
  let f := if far then Reg.Time.PORT_STATE_B else Reg.Time.PORT_STATE
  let st := if s.bit (.time i) Reg.Time.CFG_SLAVE_ONLY ∧ st % 8 = 5 then 2 else st % 8
  if s.fld (.time i) f = st then s else (s.set (.time i) f st).event (.time i) 4

def execPtpRx (i : Nat) (msg : PtpMsg) (s : State) : Res :=
  if 2 ≤ i ∨ !s.bit (.time i) Reg.Time.CFG_EN then settle s
  else
    match msg with
    | .sync d => settle (s.ptpSync i d)
    | .announce gm steps cls st => settle (s.ptpAnnounce i gm steps cls st false)
    | .delay mean => settle (s.set (.time i) Reg.Time.MEAN_DELAY mean)
    | .peerDelay mean ratio =>
      settle ((s.set (.time i) Reg.Time.MEAN_DELAY mean).set (.time i) Reg.Time.RATE_RATIO (unsigned 32 ratio))

/-- Four Sync intervals without a Sync (R360). -/
def execCoasting (i : Nat) (s : State) : Res :=
  if i < 2 ∧ (s.servo i = 1 ∨ s.servo i = 2) ∧ (s.inst i).syncAt + s.intervals 4 (s.logSync i) ≤ s.render.tick then
    settle (s.servoTo i 3)
  else settle s

/-- The selected instance is lost and no switch follows (R367). -/
def State.holdover (s : State) : State :=
  if s.deviceFollows s.selInst then
    let s := { s with time := { s.time with slew := none, holdFrom := some s.render.tick } }
    ((s.mediaState 3).set .mediaClk Reg.MediaClk.HOLDOVER_MS 0).event .mediaClk 1
  else s

/-- An instance goes IDLE, its master lost (R360, R365, R367, R372). -/
def State.instLost (s : State) (i : Nat) : State :=
  let s := (s.servoTo i 0)
  let s := s.setInst i { s.inst i with near := 0, far := 0 }
  -- A switch to this instance, not yet taken, no longer follows.
  let gone := s.time.switch.any (fun w => w.1 = i)
  let s := if gone then { s with time := { s.time with switch := none } } else s
  if i ≠ s.selInst then (if gone then s.holdover else s)
  else if s.deviceFollows i && s.bit .mediaClk Reg.MediaClk.AUTO_SWITCH && s.servo (1 - i) = 2 then
    let s := { s with time := { s.time with switch := some (1 - i, false) } }
    if s.restful then s.takeSwitch else s
  else s.holdover

/-- The announce receipt timeout of an instance, in ticks. -/
def State.annWait (s : State) (i : Nat) : Nat :=
  s.intervals (s.fld (.time i) Reg.Time.ANNOUNCE_TIMEOUT) (signed 8 (s.fld (.time i) Reg.Time.LOG_ANNOUNCE))

/-- An instance reaches its announce timeout (R351, R360). -/
def State.annTimeout (s : State) (i : Nat) : State :=
  let s := (s.count (.time i) Reg.Time.ANN_TIMEOUTS).event (.time i) 2
  (s.setInst i { s.inst i with annAt := s.render.tick }).instLost i

def execAnnTimeout (i : Nat) (s : State) : Res :=
  if i < 2 ∧ s.bit (.time i) Reg.Time.CFG_EN ∧ (s.inst i).annAt + s.annWait i ≤ s.render.tick then settle (s.annTimeout i)
  else settle s

/-- 60 s of HOLDOVER (R367). -/
def execFreerun (s : State) : Res :=
  if s.fld .mediaClk Reg.MediaClk.STATE = 3 ∧ s.time.holdFrom.any (fun t => t + 60 * s.second ≤ s.render.tick) then
    settle ((s.mediaState 0).event .mediaClk 2)
  else settle s

/-- An instance is LOCKED in HOLDOVER or FREERUN (R368). -/
def execInstanceLocked (i : Nat) (s : State) : Res :=
  let st := s.fld .mediaClk Reg.MediaClk.STATE
  if i < 2 ∧ s.servo i = 2 ∧ (st = 0 ∨ st = 3) ∧ s.time.switch = none ∧ (s.bit .mediaClk Reg.MediaClk.AUTO_SWITCH ∨ i = s.selInst) then
    let s := { s with time := { s.time with switch := some (i, true) } }
    settle (if s.restful then s.takeSwitch else s)
  else settle s

/-- The held offset has slewed to zero (R363). -/
def execSlewDone (s : State) : Res :=
  if s.time.slew.isSome ∧ s.time.h = 0 then
    settle (({ s with time := { s.time with slew := none } }.mediaState 1).event .mediaClk 6)
  else settle s

/-- A write of REALIGN (R364, R372). While no render runs H is 0 already. -/
def State.realign (s : State) : State :=
  if s.servo s.selInst = 0 ∨ s.servo s.selInst = 3 then s.event .mediaClk 4
  else if s.restful then s.event .mediaClk 5
  else { s with time := { s.time with realign := true } }

def execRealign (s : State) : Res := settle s.realign

/-- Time at a media sample strobe: H slews at 0.5 ppm of elapsed time (R362, R363). -/
def State.timeStrobe (s : State) : State :=
  let s := { s with time := { s.time with m := s.time.m + 1 } }
  let s := match s.time.slew with
    | some (h0, t) =>
      let by_ := roundOpen (32768000 * ((s.render.tick - t : Nat) : Int)) s.fs
      let h : Int := if h0 < 0 then min 0 (h0 + by_) else max 0 (h0 - by_)
      let d := h - s.time.h
      { s with time := { s.time with
        h := h, instA := { s.time.instA with off := s.time.instA.off + d }
        instB := { s.time.instB with off := s.time.instB.off + d } } }.showH
    | none => s
  let s := s.set64 .mediaClk Reg.MediaClk.RSI_LO Reg.MediaClk.RSI_HI s.render.rsi
  match s.time.holdFrom with
  | some t => s.set .mediaClk Reg.MediaClk.HOLDOVER_MS (min ((s.render.tick - t) * 1000 / s.second) 0xFFFFFFFF)
  | none => s

/-- A change of render rate or a realignment takes a new M0 (R350): device time keeps its value, or
steps by H. -/
def State.newRate (s : State) (fs : Nat) : State :=
  let m := (s.time.m * fs + s.fs - 1) / s.fs
  { s with time := { s.time with m := m } }

/-- Device time after power-on and warm reset: 0 s in FREERUN, no instance locked (R367, R372). -/
def State.timeRestart (s : State) : State :=
  let s := { s with time := {} }
  let s := (List.range 2).foldl (fun s i => (s.set (.time i) Reg.Time.SERVO 0).set (.time i) Reg.Time.PORT_STATE 0) s
  (s.mediaState 0).showH

/-! The timestamp queues (R355 to R359) -/

def State.tsQueue (s : State) (p : Nat) : TsQueue := Map.get ({} : TsQueue) p s.time.tsq

/-- Replace a port's queue; LEVEL, LOST_RUN and the head entry follow. -/
def State.setTsQueue (s : State) (p : Nat) (q : TsQueue) : State :=
  let s := { s with time := { s.time with tsq := s.time.tsq.put ({} : TsQueue) p q } }
  let e := q.entries.headD []
  let w := fun k => (e.getD k 0#32).toNat
  let s := ((s.set .tsq (Reg.Tsq.Q_ENTRY_W0 p) (w 0)).set .tsq (Reg.Tsq.Q_ENTRY_W1 p) (w 1))
  let s := ((s.set .tsq (Reg.Tsq.Q_ENTRY_W2 p) (w 2)).set .tsq (Reg.Tsq.Q_ENTRY_W3 p) (w 3))
  (s.set .tsq (Reg.Tsq.Q_LEVEL p) q.entries.length).set .tsq (Reg.Tsq.Q_LOST_RUN p)
    (q.runs.foldl (fun a r => a + r.count) 0)

/-- Word 0 of an entry: KIND 1 STAMP, 2 LOST (R357). -/
def tsWord0 (type domain seq kind : Nat) : Word :=
  BitVec.ofNat 32 (type % 16 + kind * 16 + domain % 256 * 256 + seq % 65536 * 65536)

/-- The marker of a run (R358). -/
def LostRun.entry (r : LostRun) : List Word := [tsWord0 r.type r.domain r.seq 2, BitVec.ofNat 32 r.count, 0, 0]

/-- A lost stamp joins the last run, or starts a new one. -/
def TsQueue.lose (q : TsQueue) (type domain seq : Nat) : TsQueue :=
  match q.runs.reverse with
  | r :: rest =>
    if r.count < 65535 then { q with runs := rest.reverse ++ [{ r with count := r.count + 1 }] }
    else { q with runs := q.runs ++ [{ type := type, domain := domain, seq := seq, count := 1 }] }
  | [] => { q with runs := [{ type := type, domain := domain, seq := seq, count := 1 }] }

/-- A marker of the oldest run enters when there is room. -/
def TsQueue.mark (q : TsQueue) : TsQueue :=
  match q.runs with
  | r :: rest => if q.entries.length < 64 then { q with entries := q.entries ++ [r.entry], runs := rest } else q
  | [] => q

/-- The oldest host event frame departs at a time (R357, R358): its stamp is recorded, or lost. -/
def State.txStamp (s : State) (p sec ns frac : Nat) : State :=
  let q := s.tsQueue p
  match q.sent with
  | [] => s
  | (type, domain, seq) :: rest =>
    let q := { q with sent := rest }
    if !s.bit .tsq (Reg.Tsq.Q_CFG_EN p) then s.setTsQueue p q
    else
      let q := q.mark
      if q.entries.length < 64 ∧ q.runs.isEmpty then
        -- The stamp is the ball time plus TX_LAT (R354).
        let x : Int := ((sec * 1000000000 + ns % 2 ^ 30) * 65536 + frac % 65536 : Nat) + signed 32 (s.fld .tsq (Reg.Tsq.Q_TX_LAT p))
        let (sec, ns, frac) := (x.toNat / 65536 / 1000000000, x.toNat / 65536 % 1000000000, x.toNat % 65536)
        let e := [tsWord0 type domain seq 1, BitVec.ofNat 32 sec,
          BitVec.ofNat 32 (sec / 2 ^ 32 % 65536 + frac * 65536), BitVec.ofNat 32 ns]
        (s.setTsQueue p { q with entries := q.entries ++ [e] }).event .tsq (4 + p)
      else
        ((s.setTsQueue p (q.lose type domain seq)).count .tsq (Reg.Tsq.Q_OVF_COUNT p)).event .tsq p

def execTxStamp (p sec ns frac : Nat) (s : State) : Res :=
  settle (if p < s.model.eths then s.txStamp p sec ns frac else s)

/-- A read of ENTRY_W0 latches the head entry (R359). -/
def State.entryW0 (s : State) (p : Nat) : State :=
  let q := s.tsQueue p
  s.setTsQueue p { q with latched := q.entries.headD [0, 0, 0, 0] }

def execEntryW0Read (p : Nat) (s : State) : Res := settle (if p < s.model.eths then s.entryW0 p else s)

/-- A read of ENTRY_W3: the house seat's removes the head entry, and a waiting marker enters. -/
def State.entryW3 (s : State) (seat p : Nat) : State :=
  let q := s.tsQueue p
  if seat ≠ 0 || q.entries.isEmpty then s else s.setTsQueue p { q with entries := q.entries.drop 1 }.mark

def execEntryW3Read (seat p : Nat) (s : State) : Res := settle (if p < s.model.eths then s.entryW3 seat p else s)

end Sys2Proof.Machine
end

