-- ==== Sys2Proof/Machine/Net.lean ====
section
/-! DEFINITION. Frames on the Ethernet ports: statistics, the classifier, exception queues, PAUSE, gates,
shapers and transmission (R317 to R347). -/

namespace Sys2Proof.Machine

open Sys2Proof

/-! Access -/

/-- Add to statistics counter `i`; bit 31 becoming 1 sets its HALF bit (R344). -/
def State.stat (s : State) (p i : Nat) (n : Nat := 1) : State :=
  let was := s.fld (.ethStat p) (Reg.EthStat.COUNTER i)
  let now := (was + n) % 2 ^ 32
  let s := s.set (.ethStat p) (Reg.EthStat.COUNTER i) now
  if was < 2 ^ 31 ∧ 2 ^ 31 ≤ now then
    if i < 32 then s.stick (.ethStat p) Reg.EthStat.HALF_LO i else s.stick (.ethStat p) Reg.EthStat.HALF_HI (i - 32)
  else s

/-- Bit rate of a port in Mbit/s (R317). -/
def State.ethMbps (s : State) (p : Nat) : Nat := [25000, 10000, 5000, 2500, 1000].getD (s.fld (.ethMac p) Reg.EthMac.CFG_MODE) 10000

def State.ethMtu (s : State) (p : Nat) : Nat := s.fld (.ethMac p) Reg.EthMac.MTU

/-- The bin of a frame size among the seven size counters. -/
def sizeBin (n : Nat) : Nat :=
  if n ≤ 64 then 0 else if n < 128 then 1 else if n < 256 then 2 else if n < 512 then 3
  else if n < 1024 then 4 else if n < 1519 then 5 else 6

/-! Frames: destination MAC first, without FCS -/

/-- VLAN tag, R-TAG sequence number, EtherType after the tags, and the offset of what follows it. -/
def l2 (f : List Byte) : Option Nat × Option Nat × Nat × Nat :=
  let (vlan, o) : Option Nat × Nat := if beAt f 12 2 = 0x8100 then (some (beAt f 14 2), 16) else (none, 12)
  if beAt f o 2 = 0xF1C1 then (vlan, some (beAt f (o + 4) 2), beAt f (o + 6) 2, o + 8)
  else (vlan, none, beAt f o 2, o + 2)

/-- The EtherType after any VLAN tag, and the offset of what follows (R335). -/
def ethType (f : List Byte) : Nat × Nat :=
  let o := if beAt f 12 2 = 0x8100 then 16 else 12
  (beAt f o 2, o + 2)

/-- Offset of the UDP header of an IPv4 frame, after the tags. -/
def udpOff (f : List Byte) : Option Nat :=
  let (_, _, t, o) := l2 f
  if t = 0x0800 ∧ beAt f (o + 9) 1 = 17 ∧ o + 28 ≤ f.length then some (o + beAt f o 1 % 16 * 4) else none

/-- A classifier FIELD of a frame, if it contains it (R335). -/
def clsField (code : Nat) (f : List Byte) : Option Nat :=
  let (_, _, t, o) := l2 f
  let avtp := t = 0x22F0 ∧ o + 12 ≤ f.length
  let ip := t = 0x0800 ∧ o + 20 ≤ f.length
  match code with
  | 0x0 => some (beAt f 0 4)
  | 0x1 => some (beAt f 4 2 * 65536)
  | 0x2 => some (ethType f).1
  | 0x3 => if beAt f 12 2 = 0x8100 then some (beAt f 14 2) else none
  | 0x4 => if avtp then some (beAt f (o + 4) 4) else none
  | 0x5 => if avtp then some (beAt f (o + 8) 4) else none
  | 0x6 => if avtp then some (beAt f o 1) else none
  | 0x7 => if ip then some (beAt f (o + 16) 4) else none
  | 0x8 => if ip ∧ beAt f (o + 9) 1 = 17 then some (beAt f (o + beAt f o 1 % 16 * 4) 4) else none
  | _ => none

/-! The classifier (R334 to R337) -/

/-- How a classification ends. -/
inductive ClsEnd where
  | default
  | stream (n : Nat)
  | host (xq : Nat)
  | drop (noForward : Bool)
  deriving DecidableEq, Repr

/-- Where it stands: at an instruction, or ended. -/
inductive ClsNext where
  | at_ (pc : Nat)
  | done (e : ClsEnd)
  deriving DecidableEq, Repr

/-- Words of instruction `pc` of a port's program. -/
def State.clsInstr (s : State) (p pc : Nat) : Word × Word :=
  let base := (extraOf (.ethCls p)).1 + 8 * pc
  (Map.get 0#32 base s.fab.act, Map.get 0#32 (base + 4) s.fab.act)

/-- The enabled ingress stream of a port whose filters match a frame (R335). -/
def State.clsLookup (s : State) (p : Nat) (f : List Byte) : Option Nat :=
  let (_, _, t, o) := l2 f
  (List.range 256).find? (fun n =>
    let g := fun x => s.fld (.ingress n) x
    g Reg.Ingress.CTRL_ENABLE = 1 && g Reg.Ingress.CTRL_PORT = p &&
      (if g Reg.Ingress.CTRL_FORMAT = 1 then
        match udpOff f with
        | some u =>
          beAt f (o + 16) 4 = g Reg.Ingress.DEST_IP && beAt f (u + 2) 2 = g Reg.Ingress.UDP_DPORT &&
            (g Reg.Ingress.SRC_IP = 0 || beAt f (o + 12) 4 = g Reg.Ingress.SRC_IP) &&
            (g Reg.Ingress.SSRC = 0 || beAt f (u + 16) 4 = g Reg.Ingress.SSRC)
        | none => false
      else
        t = 0x22F0 && beAt f (o + 4) 4 = g Reg.Ingress.STREAM_ID_HI && beAt f (o + 8) 4 = g Reg.Ingress.STREAM_ID_LO &&
          beAt f o 1 = (if g Reg.Ingress.CTRL_FORMAT = 2 then 4 else 2)))

/-- One instruction (R335, R336). Falling off the end takes the default action. -/
def State.clsStep (s : State) (p pc : Nat) (f : List Byte) : State × ClsNext :=
  let len := s.fld (.ethCls p) Reg.EthCls.LENGTH
  if len ≤ pc then (s, .done .default)
  else
    let (w0, w1) := s.clsInstr p pc
    let op := bitsOf w0 31 28
    let v := clsField (bitsOf w0 27 24) f
    let imm := bitsOf w0 15 0
    let next := ClsNext.at_ (pc + 1)
    let skip := ClsNext.at_ (pc + 1 + bitsOf w0 23 16)
    let mask := s.fld (.ethCls p) (Reg.EthCls.MASK (imm % 16))
    let hit := v.any (fun x => x &&& mask = w1.toNat)
    match op with
    | 0x1 => (s, if hit then next else skip)
    | 0x2 => (s, if hit then skip else next)
    | 0x3 => (s, if v.any (fun x => imm ≤ x % 65536 && x % 65536 ≤ w1.toNat % 65536) then next else skip)
    | 0x4 => (s, skip)
    | 0x5 =>
      let n := w1.toNat % 256
      (s, .done (if s.bit (.ingress n) Reg.Ingress.CTRL_ENABLE then .stream n else .default))
    | 0x6 => (s, match s.clsLookup p f with
      | some n => .done (.stream n)
      | none => next)
    | 0x7 => (s, .done (.host (w1.toNat % 4)))
    | 0x8 => (s.count (.ethCls p) (Reg.EthCls.COUNT (imm % 16)), next)
    | 0x9 => (s, .done (.drop (imm % 2 = 1)))
    | 0xA =>
      if p = 0 then ((s.setEth p { s.eth p with wakeMark := true }).event .greenroom 5, next) else (s, next)
    | _ => (s, .done .default)

/-- The record of a frame in an exception queue: header, frame, FCS, padding (R337). -/
def xqRecord (p pc t : Nat) (f : List Byte) : List Byte :=
  let whole := f ++ bytesOf (crc32 f)
  let w0 := BitVec.ofNat 32 (whole.length % 2 ^ 14 + p * 2 ^ 16 + pc % 256 * 2 ^ 24)
  let pad := (8 - whole.length % 8) % 8
  bytesOf w0 ++ bytesOf 0#32 ++ bytesOf (BitVec.ofNat 32 (t / 1000000000)) ++
    bytesOf (BitVec.ofNat 32 (t % 1000000000)) ++ whole ++ List.replicate pad 0#8

/-- A frame goes to an exception queue (R337). -/
def State.xqWrite (s : State) (p xq pc t : Nat) (f : List Byte) : State :=
  let b := Blk.ethMac p
  if !s.bit b (Reg.EthMac.XQ_EN xq) then s
  else
    let seat := s.fld b (Reg.EthMac.XQ_SEAT xq)
    let bs := xqRecord p pc t f
    if s.isStagedoor seat then
      (s.sdEvent seat 2 ((List.range (bs.length / 4)).map (fun k => word32 (bs.drop (4 * k))))).event b 1
    else
      let size := s.fld b (Reg.EthMac.XQ_SIZE xq)
      let wr := s.fld b (Reg.EthMac.XQ_WRPTR xq)
      let used := (wr + size - s.fld b (Reg.EthMac.XQ_RDPTR xq)) % max size 1
      if size ≤ used + bs.length then s.event b 2
      else
        let base := s.fld64 b (Reg.EthMac.XQ_BASE_LO xq) (Reg.EthMac.XQ_BASE_HI xq)
        let s := bs.zipIdx.foldl (fun s (v, k) => s.hostWriteBytes seat (base + (wr + k) % size) [v]) s
        (s.set b (Reg.EthMac.XQ_WRPTR xq) ((wr + bs.length) % size)).event b 1

/-- A frame is delivered to an ingress stream: its packet waits for the stream's step. -/
def State.toStream (s : State) (n t : Nat) (f : List Byte) : State :=
  let e := Map.get ({} : IngState) n s.net.ing
  { s with net := { s.net with ing := s.net.ing.put ({} : IngState) n { e with inbox := e.inbox ++ [(f, t)] } } }

/-- The end of a classification: the local copy's fate. -/
def State.clsDeliver (s : State) (p pc t : Nat) (f : List Byte) (e : ClsEnd) : State :=
  match e with
  | .default =>
    let s := (s.count (.ethCls p) Reg.EthCls.DEFAULT_HITS).event (.ethCls p) 0
    if s.bit (.ethCls p) Reg.EthCls.CFG_DEFAULT then s.xqWrite p (s.fld (.ethCls p) Reg.EthCls.CFG_DEFAULT_XQ) pc t f
    else s.stat p 22
  | .stream n => s.toStream n t f
  | .host xq => s.xqWrite p xq pc t f
  | .drop _ => s.stat p 22

/-- A frame goes through the program from an instruction; whether forwarding is withheld. -/
def State.classify : Nat → State → Nat → Nat → Nat → List Byte → State × Bool
  | 0, s, p, pc, t, f => (s.clsDeliver p pc t f .default, false)
  | fuel + 1, s, p, pc, t, f =>
    match s.clsStep p pc f with
    | (s, .at_ next) => State.classify fuel s p next t f
    | (s, .done e) => (s.clsDeliver p pc t f e, match e with
      | .drop b => b
      | _ => false)

/-- One instruction as a step of its own: it must stand at `pc` with the opcode. -/
def State.clsRow (s : State) (p pc t : Nat) (f : List Byte) (op : Nat) : State :=
  if !s.hasEth p || s.fld (.ethCls p) Reg.EthCls.LENGTH ≤ pc || bitsOf (s.clsInstr p pc).1 31 28 ≠ op then s
  else
    match s.clsStep p pc f with
    | (s, .at_ next) => s.setEth p { s.eth p with clsPc := some next }
    | (s, .done e) => (s.clsDeliver p pc t f e).setEth p { (s.clsDeliver p pc t f e).eth p with clsPc := none }

def execClassifierHalt (p pc t : Nat) (f : List Byte) (s : State) : Res := settle (s.clsRow p pc t f 0x0)
def execClassifierMatch (p pc t : Nat) (f : List Byte) (s : State) : Res := settle (s.clsRow p pc t f 0x1)
def execClassifierNmatch (p pc t : Nat) (f : List Byte) (s : State) : Res := settle (s.clsRow p pc t f 0x2)
def execClassifierRange (p pc t : Nat) (f : List Byte) (s : State) : Res := settle (s.clsRow p pc t f 0x3)
def execClassifierSkip (p pc t : Nat) (f : List Byte) (s : State) : Res := settle (s.clsRow p pc t f 0x4)
def execClassifierStream (p pc t : Nat) (f : List Byte) (s : State) : Res := settle (s.clsRow p pc t f 0x5)
def execClassifierLookup (p pc t : Nat) (f : List Byte) (s : State) : Res := settle (s.clsRow p pc t f 0x6)
def execClassifierHost (p pc t : Nat) (f : List Byte) (s : State) : Res := settle (s.clsRow p pc t f 0x7)
def execClassifierCount (p pc t : Nat) (f : List Byte) (s : State) : Res := settle (s.clsRow p pc t f 0x8)
def execClassifierDrop (p pc t : Nat) (f : List Byte) (s : State) : Res := settle (s.clsRow p pc t f 0x9)
def execClassifierWake (p pc t : Nat) (f : List Byte) (s : State) : Res := settle (s.clsRow p pc t f 0xA)

/-! Gates and shapers (R339, R340) -/

/-- The gate states in force. -/
def State.gates (s : State) (p : Nat) : Nat :=
  let e := s.eth p
  match e.gcl with
  | some l => (l.getD e.entry (0xFF, 0)).1
  | none => s.fld (.ethGate p) Reg.EthGate.IDLE_STATES

/-- The gate list that the page holds: states and intervals in ns (R339). -/
def State.gateList (s : State) (p : Nat) : List (Nat × Nat) :=
  (List.range (min (s.fld (.ethGate p) Reg.EthGate.LIST_LEN) 256)).map (fun k =>
    (s.fld (.ethGate p) (Reg.EthGate.ENTRY_STATES k), 8 * s.fld (.ethGate p) (Reg.EthGate.ENTRY_INTERVAL k)))

/-- The entries of one cycle: cut at its end, or the last one held to it (R340). -/
def cycleOf : Nat → List (Nat × Nat) → List (Nat × Nat)
  | _, [] => []
  | left, x :: l => if l.isEmpty || left ≤ x.2 then [(x.1, left)] else x :: cycleOf (left - x.2) l

/-- How long the gate of queue `q` stays open through entries that repeat (none: for ever). -/
def openRun (q : Nat) (l cycle : List (Nat × Nat)) : Option Nat :=
  if cycle.all (fun x => x.1.testBit q) && l.all (fun x => x.1.testBit q) then none
  else some (((l ++ cycle).takeWhile (fun x => x.1.testBit q)).foldl (fun a x => a + x.2) 0)

/-- ns from `t` until the open gate of queue `q` next closes (none: it never does); a list that awaits its change time cuts
the one in force. -/
def State.gateLeft (s : State) (p q t : Nat) : Option Nat :=
  let e := s.eth p
  let now := match e.gcl with
    | none => none
    | some l => let c := cycleOf e.cycle l
      (openRun q (c.drop (e.entry + 1)) c).map (e.entryEnd - t + ·)
  match e.change with
  | some c =>
    if now.all (c - t < ·) then
      (openRun q [] (cycleOf (s.fld (.ethGate p) Reg.EthGate.CYCLE_NS) (s.gateList p))).map (c - t + ·)
    else now
  | none => now

/-- Is the queue shaped? Its idle slope in kbit/s. -/
def State.slope (s : State) (p q : Nat) : Nat := s.fld (.ethGate p) (Reg.EthGate.IDLE_SLOPE q)

def EthPort.paused (e : EthPort) (q : Nat) : Bool := (Map.get (0, 0) q e.quanta).2 ≠ 0

/-- A quantum of 512 bit times, in ps (R341). -/
def State.quantumPs (s : State) (p : Nat) : Nat := 512000000 / s.ethMbps p

/-- When the pause of a queue runs out, in ps. -/
def State.pauseEnd (s : State) (p q : Nat) : Nat :=
  let (t, n) := Map.get (0, 0) q (s.eth p).quanta
  1000 * t + n * s.quantumPs p

/-- Quanta of a queue's pause that have passed at `t`. -/
def State.pauseSpent (s : State) (p q t : Nat) : Nat :=
  let (from_, n) := Map.get (0, 0) q (s.eth p).quanta
  min n (1000 * (t - from_) / s.quantumPs p)

/-- Credits of the shaped queues at time `t` (R340): a waiting queue, or one in debt, gains its idle
slope while its gate is open, it is not paused and it is not sending; an empty queue holds no credit. -/
def State.creditTo (s : State) (p t : Nat) : State :=
  let e := s.eth p
  let g := s.gates p
  let credit := (List.range 8).foldl (fun (m : Map Int) q =>
    if s.slope p q = 0 then m
    else
      let from_ := if e.wire.any (fun w => w.1 = q) then max e.creditAt e.txEnd else e.creditAt
      let dt := t - from_
      let c := Map.get 0 q m
      let waits := !(e.queue q).isEmpty
      let c' := if g.testBit q && !e.paused q && (waits || c < 0) then c + (s.slope p q * dt : Nat) else c
      let hi : Int := s.fld (.ethGate p) (Reg.EthGate.HI_CREDIT q) * 1000000
      let c' := min c' (max hi c)
      let c' := if waits then c' else min c' 0
      m.put 0 q c') e.credit
  s.setEth p { e with credit := credit, creditAt := max t e.creditAt }

/-- HI_CREDIT and LO_CREDIT from MTU (R339). -/
def State.showCredits (s : State) (p : Nat) : State :=
  (List.range 8).foldl (fun s q =>
    let v := s.slope p q
    let (hi, lo) := if v = 0 then (0, (0 : Int)) else Config.creditBounds (s.ethMtu p) v (s.ethMbps p * 1000)
    (s.set (.ethGate p) (Reg.EthGate.HI_CREDIT q) hi).set (.ethGate p) (Reg.EthGate.LO_CREDIT q) (unsigned 32 lo)) s

/-- The gate page was committed, with its words before: a changed list awaits its change time, or the gates go idle
(R340). A commit that leaves the list as it was does not start it again (log entry 28). -/
def State.gateCommit (s : State) (p : Nat) (old : RegMap) : State :=
  let b := Blk.ethGate p
  let s := s.showCredits p
  let e := s.eth p
  let same := b.allFields.all (fun f => f.acc ≠ .rw || (0x60 ≤ f.off && f.off < 0x80) || regGet old b.base f = s.fld b f)
  if same then s
  else if !s.bit b Reg.EthGate.GCL_EN then
    (s.setEth p { e with gcl := none, change := none }).set b Reg.EthGate.CHANGE_PENDING 0
  else
    let now := s.deviceNs
    let base := s.fld64 b Reg.EthGate.BASE_SEC_LO Reg.EthGate.BASE_SEC_HI * 1000000000 + s.fld b Reg.EthGate.BASE_NS
    let cyc := max 1 (s.fld b Reg.EthGate.CYCLE_NS)
    let at_ := if now ≤ base then base else base + (now - base + cyc - 1) / cyc * cyc
    let s := (s.setEth p { e with change := some at_ }).set b Reg.EthGate.CHANGE_PENDING 1
    let s := s.set64 b Reg.EthGate.CHANGE_SEC_LO Reg.EthGate.CHANGE_SEC_HI (at_ / 1000000000)
    let s := s.set b Reg.EthGate.CHANGE_NS (at_ % 1000000000)
    if base < now then s.event b 1 else s

/-- An entry ends no later than its cycle; the last one holds to the cycle's end. -/
def EthPort.enter (e : EthPort) (l : List (Nat × Nat)) (k start : Nat) : EthPort :=
  let stop := start + (l.getD k (0, 0)).2
  { e with entry := k, entryEnd := if k + 1 = l.length then e.cycleEnd else min stop e.cycleEnd }

/-- A committed list becomes operational at its change time (R340). -/
def execGclChange (p : Nat) (s : State) : Res :=
  let b := Blk.ethGate p
  let e := s.eth p
  match e.change with
  | some t =>
    if !s.hasEth p || s.nextNs ≤ t then settle s
    else
      let s := s.creditTo p t
      let l := s.gateList p
      let cyc := s.fld b Reg.EthGate.CYCLE_NS
      let e := { s.eth p with gcl := some l, change := none, cycle := cyc, cycleEnd := t + cyc }
      let s := s.setEth p (e.enter l 0 t)
      settle ((((s.set b Reg.EthGate.CHANGE_PENDING 0).set b Reg.EthGate.OPER_ENTRY 0).count b Reg.EthGate.CYCLES).event b 0)
  | none => settle s

/-- The interval of an entry ends (R340). -/
def execGateEntryChange (p : Nat) (s : State) : Res :=
  let b := Blk.ethGate p
  let e := s.eth p
  match e.gcl with
  | some l =>
    if !s.hasEth p || s.nextNs ≤ e.entryEnd then settle s
    else
      let t := e.entryEnd
      let s := s.creditTo p t
      let e := s.eth p
      if e.entry + 1 < l.length ∧ t < e.cycleEnd then
        settle ((s.setEth p (e.enter l (e.entry + 1) t)).set b Reg.EthGate.OPER_ENTRY (e.entry + 1))
      else
        let e := { e with cycleEnd := e.cycleEnd + e.cycle }
        settle (((s.setEth p (e.enter l 0 t)).set b Reg.EthGate.OPER_ENTRY 0).count b Reg.EthGate.CYCLES)
  | none => settle s

/-! Transmission (R320, R321, R338, R355) -/

/-- Time that `n` bytes take at the rate of a port, in ns. -/
def State.bitsNs (s : State) (p n : Nat) : Nat := (n * 8000 + s.ethMbps p - 1) / s.ethMbps p

/-- A frame of `n` bytes with FCS takes this long on the wire, in ns with its preamble and gap. -/
def State.wireNs (s : State) (p n : Nat) : Nat := s.bitsNs p (n + 20)

/-- A host PTP event frame: offset of its PTP header (R355). -/
def hostPtp (f : List Byte) : Option Nat :=
  let (_, _, t, o) := l2 f
  let h := if t = 0x88F7 then some o
    else match udpOff f with
      | some u => if beAt f (u + 2) 2 = 319 then some (u + 8) else none
      | none => none
  match h with
  | some k => if beAt f k 1 % 16 ≤ 3 then some k else none
  | none => none

/-- Offset of the PTP header of a PTP frame (R319). -/
def ptpFrame (f : List Byte) : Option Nat :=
  let (_, _, t, o) := l2 f
  if t = 0x88F7 then some o
  else match udpOff f with
    | some u => if beAt f (u + 2) 2 = 319 ∨ beAt f (u + 2) 2 = 320 then some (u + 8) else none
    | none => none

/-- Is instance `i` a time-aware relay on the bridge pair for a domain (R352)? -/
def State.isRelay (s : State) (i domain : Nat) : Bool :=
  s.bit (.time i) Reg.Time.CFG_EN && s.fld (.time i) (Reg.Time.CFG_PROFILE i) = 0 &&
    s.fld (.time i) (Reg.Time.CFG_PORT i) = 4 && s.fld (.time i) (Reg.Time.CFG_DOMAIN i) = domain

/-- Bytes with a number added, modulo its size, at an offset (big-endian). -/
def beAdd (f : List Byte) (k n : Nat) (v : Int) : List Byte :=
  let x := unsigned (8 * n) (beAt f k n + v)
  f.take k ++ (List.range n).map (fun j => BitVec.ofNat 8 (x / 256 ^ (n - 1 - j))) ++ f.drop (k + n)

/-- UDP checksum 0, in a UDP/IPv4 frame whose contents change in flight (R355). -/
def noChecksum (f : List Byte) : List Byte :=
  match udpOff f with
  | some u => f.take (u + 6) ++ [0, 0] ++ f.drop (u + 8)
  | none => f

/-- A number is added to the correctionField of a PTP header at `h`. -/
def addCorrection (f : List Byte) (h : Nat) (v : Int) : List Byte := noChecksum (beAdd f (h + 8) 8 v)

/-- RX_LAT or TX_LAT of a port, in 2^-16 ns (R354, R371). -/
def State.latOf (s : State) (p : Nat) (f : Nat → Fld) : Int := signed 32 (s.fld .tsq (f p))

/-- The receive stamp of a frame whose message timestamp point passes the balls at `t` ns, in 2^-16 ns of device time
(R354). -/
def State.rxTime (s : State) (p t : Nat) : Int := (t * 65536 : Nat) - s.latOf p Reg.Tsq.Q_RX_LAT

/-- The transmit stamp of a frame that starts at `t` ns: its message timestamp point is 64 bit times later (R354). -/
def State.txTime (s : State) (p t : Nat) : Int :=
  (t * 65536 : Nat) + roundOpen (64000 * 65536) (s.ethMbps p) + s.latOf p Reg.Tsq.Q_TX_LAT

/-- HOST_MODE CORRECT: the departure time less the originTimestamp is added to correctionField (R355). -/
def State.ptpCorrect (s : State) (p : Nat) (f : List Byte) (k t : Nat) : List Byte :=
  let origin : Nat := (beAt f (k + 34) 6 * 1000000000 + beAt f (k + 40) 4) * 65536
  addCorrection f k (s.txTime p t - origin)

/-- A PTP event frame forwarded across the pair: the residence time, from its receipt at `rx` on the other port to its
departure from port `p` at `t`, is added to correctionField; a relay applies its rate ratio and the upstream link delay
too (R355). -/
def State.residence (s : State) (p : Nat) (f : List Byte) (rx t : Nat) : List Byte :=
  match ptpFrame f with
  | some h =>
    if beAt f h 1 % 16 ≤ 3 then
      let r : Int := s.txTime p t - s.rxTime (5 - p) rx
      addCorrection f h (match [0, 1].find? (fun i => s.isRelay i (beAt f (h + 4) 1)) with
        | some i => r + roundOpen (r * signed 32 (s.fld (.time i) Reg.Time.RATE_RATIO)) (65536 * 1000000000) +
            s.fld (.time i) Reg.Time.MEAN_DELAY
        | none => r)
    else f
  | none => f

/-- Does an instance send one-step (R355)? -/
def State.oneStepOn (s : State) (i : Nat) : Bool := s.bit (.time i) Reg.Time.CFG_ONE_STEP

/-- A PTP message of an instance joins the CONTROL queue of a port (R320). -/
def State.ptpEnqueue (s : State) (p : Nat) (body : TxBody) : State :=
  match s.controlQueue p with
  | some q => if s.hasEth p then s.enqueue p q { len := 90, body := body } else s
  | none => s

/-- The one-step channel that a frame needs: that of its instance, for a Sync or a Pdelay_Resp (R355, R356). -/
def State.oneStepOf (s : State) (f : TxFrame) : Option Nat :=
  match f.body with
  | .ptp i kind .. => if (kind = 0 || kind = 4) && s.oneStepOn i then some i else none
  | _ => none

/-- What a frame's departure does besides the statistics. The stamp of an event message goes into its one-step channel,
or into the instance's own state and the message that follows it (R355, R356). -/
def State.departed (s : State) (p t : Nat) (f : TxFrame) : State :=
  let onWire := fun (s : State) (body : TxBody) =>
    let e := s.eth p
    s.setEth p { e with wire := e.wire.map (fun w => (w.1, { w.2 with body := body })) }
  match f.body with
  | .stream n k seq .. =>
    let s := (s.count (.egress n) Reg.Egress.PACKETS).set (.egress n) Reg.Egress.LAST_SEQ (seq % 65536)
    { s with twin := { s.twin with sentSeq := s.twin.sentSeq.put 0 n (k + 1) } }
  | .ptp i kind seq stamp corr rx =>
    let at_ := s.txTime p t + (s.inst i).off
    let s := if kind = 0 || kind = 2 || kind = 4 then
        s.setInst i { s.inst i with stamps := (s.inst i).stamps.put 0 kind at_ } else s
    if kind = 0 then
      (if s.oneStepOn i then onWire s (.ptp i kind seq (at_ / 65536).toNat (corr + at_ % 65536))
       else s.ptpEnqueue p (.ptp i 5 seq (at_ / 65536).toNat (at_ % 65536)))
    else if kind = 4 then
      (if s.oneStepOn i then onWire s (.ptp i kind seq stamp (corr + (at_ - rx)) rx)
       else s.ptpEnqueue p (.ptp i 6 seq (at_ / 65536).toNat (at_ % 65536)))
    else s
  | .host bytes =>
    match hostPtp bytes with
    | some k =>
      if s.bit .tsq (Reg.Tsq.Q_CFG_HOST_MODE p) then onWire s (.host (s.ptpCorrect p bytes k t))
      else
        let q := s.tsQueue p
        s.setTsQueue p { q with sent := q.sent ++ [(beAt bytes k 1 % 16, beAt bytes (k + 4) 1, beAt bytes (k + 30) 2)] }
    | none => s
  | .bridge bytes stomped rx =>
    let s := (onWire s (.bridge (s.residence p bytes rx t) stomped rx)).stat p 42
    if stomped then s.stat p 43 else s
  | _ => s

/-- The bytes of a frame held as bytes. -/
def TxFrame.bytes (f : TxFrame) : List Byte :=
  match f.body with
  | .host b => b
  | .bridge b _ _ => b
  | .heartbeat b => b
  | _ => []

/-- Unicast, multicast or broadcast, as 0, 1, 2 (R344). -/
def castOf (f : List Byte) : Nat :=
  if beAt f 0 6 = 2 ^ 48 - 1 then 2 else if beAt f 0 1 % 2 = 1 then 1 else 0

/-- The same of a transmit frame: a stream's goes to its destination, PTP messages are multicast. -/
def State.txCast (s : State) (f : TxFrame) : Nat :=
  match f.body with
  | .stream n .. =>
    if s.fld (.egress n) Reg.Egress.CTRL_FORMAT = 1 then
      (if s.fld (.egress n) Reg.Egress.DEST_IP / 2 ^ 28 = 14 then 1 else 0)
    else
      let hi := s.fld (.egress n) Reg.Egress.DMAC_HI
      if hi = 0xFFFF ∧ s.fld (.egress n) Reg.Egress.DMAC_LO = 0xFFFFFFFF then 2 else hi / 256 % 2
  | .ptp .. => 1
  | .stagedoor .. => 0
  | _ => castOf f.bytes

/-- Does a transmit frame carry a VLAN tag? -/
def State.txTagged (s : State) (f : TxFrame) : Bool :=
  match f.body with
  | .stream n .. => s.bit (.egress n) Reg.Egress.CTRL_TAGGED
  | _ => beAt f.bytes 12 2 = 0x8100

/-- Is the frame's gate time enough: does it end before the gate of its queue next closes? -/
def State.fits (s : State) (p q t : Nat) (f : TxFrame) : Bool :=
  match s.gateLeft p q t with
  | none => true
  | some left => s.wireNs p f.len ≤ left

/-- The MAC starts the next frame at time `t`, from the highest-numbered eligible queue (R321). -/
def State.frameStart (s : State) (p t : Nat) : State :=
  let s := s.creditTo p t
  let e := s.eth p
  if !s.bit (.ethMac p) Reg.EthMac.STATUS_LINK || t < e.txEnd then s
  else
    let g := s.gates p
    -- A frame waits in its queue until its one-step channel is free (R356).
    let free := fun q => ((e.queue q).head?.bind s.oneStepOf).all (fun c => Map.get 0 c e.oneStep ≤ t)
    let paused := fun q => e.paused q && 1000 * t < s.pauseEnd p q
    let ready := fun q => !(e.queue q).isEmpty && g.testBit q && !paused q &&
      (s.slope p q = 0 || 0 ≤ Map.get 0 q e.credit) && free q
    -- A head frame that cannot fit before its gate closes blocks its own queue.
    let s := (List.range 8).foldl (fun s q =>
      match e.queue q with
      | f :: rest =>
        if ready q && !s.fits p q t f && !f.held then
          (s.setEth p ((s.eth p).setQueue q ({ f with held := true } :: rest))).stat p 39
        else s
      | [] => s) s
    let e := s.eth p
    match ((List.range 8).reverse.find? (fun q => ready q && (e.queue q).head?.any (s.fits p q t ·))) with
    | none => s
    | some q =>
      match e.queue q with
      | [] => s
      | f :: rest =>
        let dur := s.wireNs p f.len
        let debt : Int := (s.slope p q : Int) - s.ethMbps p * 1000
        let e := e.setQueue q rest
        let e := { e with
          wire := some (q, f), txEnd := t + dur
          oneStep := match s.oneStepOf f with
            | some c => e.oneStep.put 0 c (t + dur)
            | none => e.oneStep
          credit := if s.slope p q = 0 then e.credit else e.credit.put 0 q
            (if f.retained then 0 else Map.get 0 q e.credit + debt * dur) }
        let s := s.setEth p e
        let s := (s.stat p 24 f.len).stat p 25
        let s := s.stat p (26 + s.txCast f)
        let s := if s.txTagged f then s.stat p 31 else s
        (s.stat p (32 + sizeBin f.len)).departed p t f

def execFrameStart (p t : Nat) (s : State) : Res := settle (if s.hasEth p then s.frameStart p t else s)

/-- A write of XTX_SEND (R338). -/
def State.xtxSend (s : State) (p len q : Nat) : State :=
  let e := s.eth p
  let s := s.setEth p { e with xtx := [] }
  if e.xtx.length < len ∨ s.queueUse p q ≠ 0 ∨ len < 60 ∨ s.ethMtu p + 18 < len then s.event (.ethMac p) 3
  else s.enqueue p q { len := len + 4, body := .host (e.xtx.take len) }

def execXtxSend (p len q : Nat) (s : State) : Res := settle (if s.hasEth p then s.xtxSend p len (q % 8) else s)

/-- A word written to XTX_DATA: the FIFO holds 9,216 bytes (R338). -/
def State.xtxData (s : State) (p : Nat) (w : Word) : State :=
  let e := s.eth p
  if e.xtx.length + 4 ≤ 9216 then s.setEth p { e with xtx := e.xtx ++ bytesOf w } else s

/-- PORT_STATE of an instance at a port: that of ETH3 on the bridge pair is a field of its own (R369). -/
def State.ptpPortState (s : State) (i p : Nat) : Fld :=
  if p = 3 ∧ s.fld (.time i) (Reg.Time.CFG_PORT i) = 4 then Reg.Time.PORT_STATE_B else Reg.Time.PORT_STATE

/-- Is an instance master at a port? -/
def State.ptpMaster (s : State) (i p : Nat) : Bool := s.fld (.time i) (s.ptpPortState i p) = 5

/-- A PTP instance sends at the end of an interval (R351, R352): 0 Sync, 1 Announce, 2 delay request. A
slave-only instance never becomes master. -/
def State.ptpSend (s : State) (i kind : Nat) : State :=
  let port := s.fld (.time i) (Reg.Time.CFG_PORT i)
  let ports := (if port = 4 then [2, 3] else [port]).filter (fun p => kind = 2 || s.ptpMaster i p)
  if !s.bit (.time i) Reg.Time.CFG_EN || ports.isEmpty then s
  else
    let v := s.inst i
    let seq := Map.get 0 kind v.sent
    let s := s.setInst i { v with sent := v.sent.put 0 kind ((seq + 1) % 65536) }
    ports.foldl (fun s p => s.ptpEnqueue p (.ptp i kind seq)) s

def execPtpMessageSend (i kind : Nat) (s : State) : Res := settle (if i < 2 ∧ kind < 3 then s.ptpSend i kind else s)

/-! PAUSE (R341, R342) -/

/-- STATUS.PAUSED follows the pauses. -/
def State.showPaused (s : State) (p : Nat) : State :=
  let e := s.eth p
  s.set (.ethMac p) Reg.EthMac.STATUS_PAUSED
    ((List.range 8).foldl (fun m q => if e.paused q then m + 2 ^ q else m) 0)

/-- A PAUSE frame whose reception ended at `t` acts: a link time, or a time for each priority it names. -/
def State.pauseRx (s : State) (p t : Nat) (link : Option Nat) (prio : List (Option Nat)) : State :=
  if !s.bit (.ethMac p) Reg.EthMac.PAUSE_RX_EN then s
  else
    let s := s.creditTo p t
    let timeOf := fun q => match link with
      | some t => some t
      | none => (prio[s.fld (.ethMac p) (Reg.EthMac.QUEUE_PCP q)]?).join
    let exempt := fun q => s.bit (.ethMac p) Reg.EthMac.PAUSE_EXEMPT && (s.queueUse p q = 2 || s.queueUse p q = 3)
    let hitExempt := (List.range 8).any (fun q => exempt q && (timeOf q).any (· ≠ 0))
    let s := (List.range 8).foldl (fun s q =>
      match timeOf q with
      | some n =>
        if exempt q then s
        else
          let s := s.stat p 40 (s.pauseSpent p q t)
          s.setEth p { s.eth p with quanta := (s.eth p).quanta.put (0, 0) q (if n = 0 then (0, 0) else (t, n)) }
      | none => s) s
    let s := if hitExempt then s.stat p 41 else s
    s.showPaused p

/-- The oldest PAUSE frame received acts. -/
def execPauseRx (p : Nat) (s : State) : Res :=
  match (s.eth p).pauses with
  | (t, link, prio) :: rest => settle ((s.setEth p { s.eth p with pauses := rest }).pauseRx p t link prio)
  | [] => settle s

/-- A pause time runs out. -/
def execPauseExpire (p q : Nat) (s : State) : Res :=
  if s.hasEth p ∧ (s.eth p).paused q ∧ s.pauseEnd p q ≤ 1000 * s.nextNs then
    let n := (Map.get (0, 0) q (s.eth p).quanta).2
    let s := s.creditTo p (s.pauseEnd p q / 1000)
    let e := s.eth p
    settle (((s.setEth p { e with quanta := e.quanta.put (0, 0) q (0, 0) }).stat p 40 n).showPaused p)
  else settle s

/-- The module sends a PAUSE with `quanta`, past gates and queues, at the next frame boundary (R342). -/
def State.sendPause (s : State) (p quanta : Nat) : State :=
  let send := fun (prio : Option Nat) =>
    let e := s.eth p
    s.setEth p { e with pauseTx := some (prio, quanta), txEnd := max e.txEnd s.deviceNs + s.wireNs p 64 }
  match s.fld (.ethMac p) Reg.EthMac.PAUSE_TX_MODE with
  | 1 => (send none).stat p 29
  | 2 => (send (some (s.fld (.ethMac p) Reg.EthMac.PAUSE_TX_PCP))).stat p 30
  | _ => s

/-- The host-data receive buffer passes WATER.HIGH (R342). -/
def execHighWater (p : Nat) (s : State) : Res :=
  if s.hasEth p ∧ !s.bit (.ethMac p) Reg.EthMac.STATUS_ABOVE_HIGH then
    settle (((s.set (.ethMac p) Reg.EthMac.STATUS_ABOVE_HIGH 1).event (.ethMac p) 4).sendPause p
      (s.fld (.ethMac p) Reg.EthMac.TX_QUANTA))
  else settle s

/-- TX_QUANTA / 2 quanta later: repeated while above WATER.LOW, else ended with time 0 (R342). -/
def execPauseTxRepeat (p : Nat) (above : Bool) (s : State) : Res :=
  if s.hasEth p ∧ s.bit (.ethMac p) Reg.EthMac.STATUS_ABOVE_HIGH then
    if above then settle (s.sendPause p (s.fld (.ethMac p) Reg.EthMac.TX_QUANTA))
    else settle ((s.set (.ethMac p) Reg.EthMac.STATUS_ABOVE_HIGH 0).sendPause p 0)
  else settle s

/-! Link and management (R318, R345, R347) -/

/-- Every pause of a port ends. -/
def State.endPauses (s : State) (p : Nat) : State :=
  let s := (List.range 8).foldl (fun s q => s.stat p 40 (s.pauseSpent p q s.deviceNs)) s
  (s.setEth p { s.eth p with quanta := [], pauses := [] }).showPaused p

def execLinkUp (p : Nat) (s : State) : Res :=
  if s.hasEth p ∧ s.bit (.ethMac p) Reg.EthMac.CFG_EN ∧ !s.bit (.ethMac p) Reg.EthMac.STATUS_LINK then
    settle (((s.set (.ethMac p) Reg.EthMac.STATUS_LINK 1).set (.ethMac p) Reg.EthMac.STATUS_MODE
      (s.fld (.ethMac p) Reg.EthMac.CFG_MODE)).event (.ethMac p) 0)
  else settle s

/-- Egress stream packets of a port are discarded into DROPS (R331). -/
def State.dropStreams (s : State) (p : Nat) : State :=
  let e := s.eth p
  let isStream := fun (f : TxFrame) => match f.body with
    | .stream .. => true
    | _ => false
  let gone := (List.range 8).flatMap (fun q => (e.queue q).filter isStream)
  let e := (List.range 8).foldl (fun (e : EthPort) q => e.setQueue q ((e.queue q).filter (fun f => !isStream f))) e
  gone.foldl (fun s f => match f.body with
    | .stream n .. => (s.count (.egress n) Reg.Egress.DROPS).stick (.egress n) Reg.Egress.EVT_FLAGS 0
    | _ => s) (s.setEth p e)

def State.linkDown (s : State) (p : Nat) : State :=
  if s.bit (.ethMac p) Reg.EthMac.STATUS_LINK then
    ((((s.set (.ethMac p) Reg.EthMac.STATUS_LINK 0).endPauses p).dropStreams p).stat p 45).event (.ethMac p) 0
  else s

def execLinkDown (p : Nat) (s : State) : Res := settle (if s.hasEth p then s.linkDown p else s)

/-- A write of MDIO_CMD starts a transaction (ETH2 and ETH3). -/
def State.mdioCmd (s : State) (p : Nat) (w : Word) : State :=
  if p < 2 then s
  else (s.setEth p { s.eth p with mdio := some w }).set (.ethMac p) Reg.EthMac.STATUS_MDIO_BUSY 1

def execMdioCmd (p : Nat) (w : Word) (s : State) : Res := settle (if s.hasEth p then s.mdioCmd p w else s)

/-- A transaction ends; a read leaves its data. Read is op 0x2 of clause 22, 0x2 and 0x3 of clause 45. -/
def execMdioDone (p data : Nat) (s : State) : Res :=
  match (s.eth p).mdio with
  | some w =>
    if !s.hasEth p then settle s
    else
      let op := bitsOf w 11 10
      let rd := op = 2 || (w.getLsbD 12 && op = 3)
      let s := (s.setEth p { s.eth p with mdio := none }).set (.ethMac p) Reg.EthMac.STATUS_MDIO_BUSY 0
      let s := if rd then s.set (.ethMac p) Reg.EthMac.MDIO_DATA data else s
      settle (s.event (.ethMac p) 5)
  | none => settle s

/-- BLOCK_RESET of the MAC page (R347): pauses, exception pointers and FIFOs clear, the link retrains. -/
def State.macReset (s : State) (p : Nat) : State :=
  let s := (s.linkDown p).endPauses p
  let s := (List.range 4).foldl (fun s i =>
    (s.setBoth (.ethMac p) (Reg.EthMac.XQ_RDPTR i) 0).set (.ethMac p) (Reg.EthMac.XQ_WRPTR i) 0) s
  s.setEth p { gcl := (s.eth p).gcl, cycle := (s.eth p).cycle, entry := (s.eth p).entry,
               entryEnd := (s.eth p).entryEnd, cycleEnd := (s.eth p).cycleEnd, change := (s.eth p).change }

/-! Reception (R318, R319, R343) -/

/-- Size with FCS, and the MAC client data of a frame. -/
def clientData (f : List Byte) : Nat :=
  let (_, _, _, o) := l2 f
  f.length - o

/-- Times of a received PAUSE frame: link, or per priority under its enable vector. -/
def pauseTimes (f : List Byte) : Option (Option Nat × List (Option Nat)) :=
  let (t, o) := ethType f
  if t ≠ 0x8808 then none
  else if beAt f o 2 = 0x0001 then some (some (beAt f (o + 2) 2), [])
  else if beAt f o 2 = 0x0101 then
    let en := beAt f (o + 2) 2
    some (none, (List.range 8).map (fun i => if en.testBit i then some (beAt f (o + 4 + 2 * i) 2) else none))
  else none

/-- The bridge partner of a port, while the pair is on (R343). -/
def State.bridgeTo (s : State) (p : Nat) : Option Nat :=
  if s.bit (.ethMac 2) Reg.EthMac.BRIDGE_EN && s.hasEth 3 then (if p = 2 then some 3 else if p = 3 then some 2 else none)
  else none

/-- The receiving port's own MAC address (R345). -/
def State.macOf (s : State) (p : Nat) : Nat :=
  s.fld (.ethMac p) Reg.EthMac.MAC_HI * 2 ^ 32 + s.fld (.ethMac p) Reg.EthMac.MAC_LO

/-- Is a good frame forwarded across the pair, its classification aside? -/
def State.forwards (s : State) (p : Nat) (f : List Byte) : Bool :=
  let d := beAt f 0 6
  (s.bridgeTo p).isSome && d ≠ s.macOf p && !(0x0180C2000000 ≤ d && d ≤ 0x0180C200000F) && (pauseTimes f).isNone

/-- The queue a forwarded frame enters: the highest-numbered whose PCP equals its own. -/
def State.bridgeQueue (s : State) (to_ : Nat) (f : List Byte) : Option Nat :=
  let pcp := if beAt f 12 2 = 0x8100 then beAt f 14 2 / 8192 else 0
  (List.range 8).reverse.find? (fun q => s.fld (.ethMac to_) (Reg.EthMac.QUEUE_PCP q) = pcp)

/-- Forward a frame; `bad` with an inverted FCS, which only cut-through lets happen. -/
def State.forward (s : State) (p rx : Nat) (f : List Byte) (bad : Bool) : State :=
  match s.bridgeTo p with
  | none => s
  | some o =>
    match s.bridgeQueue o f with
    | none => s
    | some q =>
      let cut := s.bit (.ethMac 2) Reg.EthMac.BRIDGE_CUT_THROUGH && s.ethMbps 2 = s.ethMbps 3 &&
        ((s.eth o).queue q).isEmpty && (s.gates o).testBit q &&
        (match s.gateLeft o q s.deviceNs with
          | none => true
          | some left => s.wireNs o (s.ethMtu o + 18) ≤ left)
      if bad && !cut then s else s.enqueue o q { len := f.length + 4, body := .bridge f bad rx }

/-- Counters of a received frame, and whether it is good (R318, R344). -/
def State.rxCount (s : State) (p : Nat) (f : List Byte) (err : RxErr) : State × Bool :=
  let n := f.length + 4
  let s := s.stat p 23 n
  let mtu := s.ethMtu p
  let big := mtu < clientData f
  if n < 64 then (s.stat p (if err = .none then 15 else 17), false)
  else if big then (s.stat p (if err = .none then 16 else 18), false)
  else match err with
    | .fcs => (s.stat p 19, false)
    | .code => (s.stat p 20, false)
    | .overrun => (s.stat p 21, false)
    | .none =>
      let s := (s.stat p 0 n).stat p 1
      let s := s.stat p (2 + castOf f)
      let s := if beAt f 12 2 = 0x8100 then s.stat p 7 else s
      let s := match pauseTimes f with
        | some (some _, _) => s.stat p 5
        | some (none, _) => s.stat p 6
        | none => s
      (s.stat p (8 + sizeBin n), true)

end Sys2Proof.Machine
end

