-- ==== Sys2Proof/Machine/Streams.lean ====
section
/-! DEFINITION. Ingress and egress streams (R322 to R333, R366). -/

namespace Sys2Proof.Machine

open Sys2Proof

def State.ing (s : State) (n : Nat) : IngState := Map.get ({} : IngState) n s.net.ing

def State.setIng (s : State) (n : Nat) (e : IngState) : State :=
  { s with net := { s.net with ing := s.net.ing.put ({} : IngState) n e } }

def State.egr (s : State) (n : Nat) : EgState := Map.get ({} : EgState) n s.net.eg

def State.setEgr (s : State) (n : Nat) (e : EgState) : State :=
  { s with net := { s.net with eg := s.net.eg.put ({} : EgState) n e } }

/-- Media time of media sample number `m`, in ns rounded to nearest (R350). -/
def State.mediaNs (s : State) (m : Nat) : Nat := (2 * m * 1000000000 + s.fs) / (2 * s.fs)

/-- M0 of the run (R350). -/
def State.firstM (s : State) : Nat := s.render.m0

/-- The first render sample not yet released. -/
def State.unreleased (s : State) : Nat := if s.render.released then s.blockStart (s.render.block + 1) else 0

/-! Packets -/

/-- What a stream packet says, once its header has been read. -/
structure StreamPacket where
  seq : Nat
  /-- Modulus of the sequence number. -/
  seqMod : Nat
  /-- Timestamp, if it is valid. -/
  ts : Option Nat
  /-- Samples of each frame, channel by channel, in Q1.31. -/
  data : List (List Int)
  /-- It agrees with the record (R328). -/
  good : Bool
  deriving DecidableEq, Repr

/-- A float32 as Q1.31: beyond full scale saturates, NaN reads 0 (R328). -/
def floatQ31 (w : Nat) : Int :=
  let ex : Nat := w / 2 ^ 23 % 256
  let man : Nat := w % 2 ^ 23
  let mag : Int :=
    if ex = 255 then (if man = 0 then 2 ^ 40 else 0)
    else if ex = 0 then roundOpen man (2 ^ 118)
    else
      let m : Nat := man + 2 ^ 23
      if 119 ≤ ex then min ((m : Int) * 2 ^ (min ex 160 - 119)) (2 ^ 40) else roundOpen m (2 ^ (119 - ex))
  satQ31 (if 2 ^ 31 ≤ w then -mag else mag)

/-- A Q1.31 sample as a float32: nearest, where its mantissa has too few bits. -/
def floatOf (x : Int) : Int :=
  let a := absNat x
  if a = 0 then 0
  else
    let e := Nat.log2 a
    let m := if e ≤ 23 then a * 2 ^ (23 - e) else (roundOpen a (2 ^ (e - 23) : Nat)).toNat
    let (m, e) := if 2 ^ 24 ≤ m then (2 ^ 23, e + 1) else (m, e)
    ((if x < 0 then 2 ^ 31 else 0) + (e + 96) * 2 ^ 23 + (m - 2 ^ 23) : Nat)

/-- A sample of `bytes` bytes at an offset, most significant byte first (R294). -/
def sampleQ31 (float : Bool) (bytes : Nat) (f : List Byte) (o : Nat) : Int :=
  let v := beAt f o bytes
  if float then floatQ31 v else signed 32 (v * 2 ^ (32 - 8 * bytes))

/-- The samples of a payload of `spf` frames of `ch` channels. -/
def payload (float : Bool) (bytes ch spf : Nat) (f : List Byte) (o : Nat) : List (List Int) :=
  (List.range spf).map (fun j => (List.range ch).map (fun c => sampleQ31 float bytes f (o + (j * ch + c) * bytes)))

/-- An AAF packet (IEEE 1722, subtype 0x02) against its record. -/
def State.aafPacket (s : State) (n : Nat) (f : List Byte) : StreamPacket :=
  let (_, _, _, o) := l2 f
  let g := fun x => s.fld (.ingress n) x
  let fmt := [4, 3, 2, 1].getD (g Reg.Ingress.FMT_SAMPLE) 0
  let bytes := [2, 3, 4, 4].getD (g Reg.Ingress.FMT_SAMPLE) 2
  let ch := g Reg.Ingress.FMT_CHANNELS
  let spf := g Reg.Ingress.FMT_SPF
  let nsr := if s.fs = 96000 then 7 else 5
  let good := beAt f (o + 16) 1 = fmt && beAt f (o + 17) 1 / 16 = nsr && beAt f (o + 17) 2 % 1024 = ch &&
    beAt f (o + 20) 2 = ch * spf * bytes && o + 24 + ch * spf * bytes ≤ f.length
  { seq := beAt f (o + 2) 1, seqMod := 256
    ts := if beAt f (o + 1) 1 % 2 = 1 then some (beAt f (o + 12) 4) else none
    data := if good then payload (fmt = 1) bytes ch spf f (o + 24) else []
    good := good }

/-- An AES67 packet (RTP over UDP and IPv4) against its record. -/
def State.rtpPacket (s : State) (n : Nat) (f : List Byte) : StreamPacket :=
  let g := fun x => s.fld (.ingress n) x
  match udpOff f with
  | none => { seq := 0, seqMod := 65536, ts := none, data := [], good := false }
  | some u =>
    let r := u + 8
    let b0 := beAt f r 1
    let h := r + 12 + b0 % 16 * 4
    let h := if b0.testBit 4 then h + 4 + 4 * beAt f (h + 2) 2 else h
    let stop := u + beAt f (u + 4) 2
    let stop := if b0.testBit 5 then stop - beAt f (stop - 1) 1 else stop
    let bytes := if g Reg.Ingress.FMT_SAMPLE = 0 then 2 else 3
    let ch := g Reg.Ingress.FMT_CHANNELS
    let spf := g Reg.Ingress.FMT_SPF
    let good := b0 / 64 = 2 && beAt f (r + 1) 1 % 128 = g Reg.Ingress.PT && h + ch * spf * bytes = stop && stop ≤ f.length
    { seq := beAt f (r + 2) 2, seqMod := 65536, ts := some (beAt f (r + 4) 4)
      data := if good then payload false bytes ch spf f h else [], good := good }

/-- Nominal rate of a CRF packet agrees: type AUDIO_SAMPLE, base frequency, pull 0 (R322). -/
def State.crfGood (s : State) (f : List Byte) : Bool :=
  let (_, _, _, o) := l2 f
  beAt f (o + 3) 1 = 1 && beAt f (o + 12) 4 = s.fs && beAt f (o + 16) 2 % 8 = 0 && 8 ≤ beAt f (o + 16) 2 &&
    beAt f (o + 16) 2 ≤ 64 && o + 20 + beAt f (o + 16) 2 ≤ f.length

/-! Placement (R327, R366) -/

/-- The value nearest `near` whose low 32 bits are `low`. -/
def extend32 (low : Nat) (near : Int) : Int :=
  let d := (low - near) % (2 ^ 32 : Int)
  near + (if d < 2 ^ 31 then d else d - 2 ^ 32)

/-- The render sample that a packet's first sample becomes, for a packet received at `t` ns; one without a timestamp
follows its predecessor, if there is one. -/
def State.placeAt (s : State) (n t : Nat) (pk : StreamPacket) : Option Int :=
  let e := s.ing n
  let off := signed 16 (s.fld (.ingress n) Reg.Ingress.OFFSET)
  match pk.ts with
  | none => if e.lastEnd = 0 then none else some e.lastEnd
  | some ts =>
    let m := if s.fld (.ingress n) Reg.Ingress.CTRL_FORMAT = 1 then
        let now : Int := ((t * s.fs + 500000000) / 1000000000 : Nat)
        extend32 ((ts + 2 ^ 32 - s.fld (.ingress n) Reg.Ingress.RTP_OFFSET) % 2 ^ 32) (now - e.shift) + off
      else
        let p := extend32 ts ((t : Int) - e.shift * 1000000000 / s.fs)
        (2 * p * s.fs + 1000000000).fdiv 2000000000 + off
    some (m + e.shift - s.firstM)

/-- A sticky event of an ingress stream: 0 START, 1 STALL, 2 LOST, 3 LATE, 4 EARLY, 5 FORMAT. -/
def State.ingEvent (s : State) (n i : Nat) : State := s.stick (.ingress n) Reg.Ingress.EVT_FLAGS i

/-- The vector recovery of 802.1CB (R333): does the packet pass? -/
def State.cbRecover (s : State) (n : Nat) (f : List Byte) : State × Bool :=
  match (l2 f).2.1 with
  | none => (s, true)
  | some q =>
    if !s.bit (.ingress n) Reg.Ingress.CTRL_CB_ELIM then (s, true)
    else
      let e := s.ing n
      let port := s.fld (.ingress n) Reg.Ingress.CTRL_PORT
      let take := fun (s : State) (hist : List Nat) (top : Nat) =>
        s.setIng n { s.ing n with cbSeq := some top, cbHist := hist, cbAt := s.render.tick }
      let discard := fun (s : State) => ((s.count (.ingress n) Reg.Ingress.CB_DUPS).stat port 46, false)
      match e.cbSeq with
      | none => (take s [0] q, true)
      | some top =>
        if s.fs / 10 ≤ s.render.tick - e.cbAt then (take s [0] q, true)
        else
          let d := signed 16 ((q + 65536 - top) % 65536)
          if 32 ≤ absNat d then discard s
          else if d ≤ 0 then
            if absNat d ∈ e.cbHist then discard s
            else ((take s (absNat d :: e.cbHist) top).stat port 47, true)
          else
            let hist := 0 :: ((e.cbHist.map (· + absNat d)).filter (· < 32))
            let s := if d = 1 then s else s.stat port 47
            (take s hist q, true)

/-- MARGIN: the least of the last second, signed microseconds. -/
def State.margin (s : State) (n : Nat) (us : Int) : State :=
  let e := s.ing n
  let v := clampInt (-32768) 32767 us
  let l := (s.render.tick, v) :: e.margins.filter (fun m => s.render.tick < m.1 + s.fs && m.2 < v)
  (s.setIng n { e with margins := l }).set (.ingress n) Reg.Ingress.MARGIN (unsigned 16 (l.foldl (fun a m => min a m.2) v))

/-- Packets missing between the last sequence number and this one. -/
def lostBefore (last : Option Nat) (seq m : Nat) : Nat :=
  match last with
  | none => 0
  | some q =>
    let gap := (seq + 2 * m - q - 1) % m
    if gap < m / 2 then gap else 0

/-- Is sample `i` among the received ones? -/
def IngState.has (e : IngState) (i : Nat) : Bool := e.got.any (fun r => r.1 ≤ i && i < r.2)

/-- The samples of an accepted packet take their places from render sample `first` on. -/
def State.place (s : State) (n : Nat) (first : Int) (pk : StreamPacket) : State :=
  let e := s.ing n
  let lo := s.unreleased
  let gap := first ≠ e.lastEnd
  let e := if gap then { e with fade := some first.toNat } else e
  let s := pk.data.zipIdx.foldl (fun s (frame, j) =>
    let i := first + (j : Nat)
    if i < lo then s
    else
      let i := i.toNat
      let s := frame.zipIdx.foldl (fun s (v, c) =>
        let v := match e.fade with
          | some a => if a ≤ i && i < a + 32 then mixFade 0 v (i - a) 32 else v
          | none => v
        s.putSample { type := 1, unit := n, chan := c } i v) s
      s) s
  let stop := (first + pk.data.length).toNat
  let start := max first lo
  let got := if start < stop then (start.toNat, stop) :: e.got else e.got
  s.setIng n { e with got := (got.filter (fun r => lo < r.2 + 4096)).take 64, lastEnd := stop }

/-- The first good packet, or the next one after a stall, makes the stream run (R328, R366). -/
def State.ingRun (s : State) (n : Nat) : State :=
  let st := s.fld (.ingress n) Reg.Ingress.STATE
  let s := s.setIng n { s.ing n with at_ := s.render.tick }
  if st = 2 then s
  else
    let s := s.setIng n { s.ing n with shift := s.domainShift n }
    (s.set (.ingress n) Reg.Ingress.STATE 2).ingEvent n 0

/-- The on-time limit after a block's end, in ns: its release, or for a LOCKSTEP pair the instant at which holdings are
sent (R327, R490). -/
def State.onTime (s : State) : Nat :=
  if s.twin.mode = 2 && [2, 4, 9, 0xA, 0xB, 0xD, 0xE].contains (s.fld .twin Reg.Twin.STATE) then 10000 else 20000

/-- Is the unit an understudy that renders journaled blocks (R501, R503)? -/
def State.replaying (s : State) : Bool :=
  s.fld .twin Reg.Twin.STATE = 0xA || s.fld .twin Reg.Twin.STATE = 0xE

/-- A packet that agrees with the record is placed (R327). An understudy that replays takes its samples from the
journal. -/
def State.takePacket (s : State) (n t : Nat) (pk : StreamPacket) : State :=
  let s := s.ingRun n
  if !s.running || s.replaying then s.count (.ingress n) Reg.Ingress.PACKETS
  else
    match s.placeAt n t pk with
    | none => s.count (.ingress n) Reg.Ingress.PACKETS
    | some first =>
    let last := first + pk.data.length - 1
    let B := s.blockSize
    if (s.unreleased : Int) + 512 - B < last then (s.count (.ingress n) Reg.Ingress.EARLY).ingEvent n 4
    else
      -- The on-time limit of the block that holds the first sample, in ns scaled by f_s.
      let block := first.fdiv B
      let release := (s.firstM + (block + 1) * B) * 1000000000 + s.onTime * s.fs
      let slack := roundOpen (release - (t * s.fs : Nat)) (1000 * s.fs)
      let s := s.margin n slack
      let late := release ≤ (t * s.fs : Nat)
      let s := if late then (s.count (.ingress n) Reg.Ingress.LATE).ingEvent n 3 else s
      (s.count (.ingress n) Reg.Ingress.PACKETS).place n first pk

/-- A CRF packet: its first timestamp against the media time nearest it. -/
def State.takeCrf (s : State) (n : Nat) (f : List Byte) : State :=
  let (_, _, _, o) := l2 f
  let t := beAt f (o + 20) 8
  let m := (2 * t * s.fs + 1000000000) / 2000000000
  let phase := roundOpen ((t * s.fs : Nat) - (m * 1000000000 : Nat) : Int) s.fs
  ((s.ingRun n).set (.ingress n) Reg.Ingress.CRF_PHASE (unsigned 32 phase)).count (.ingress n) Reg.Ingress.PACKETS

/-- The oldest packet delivered to an ingress stream is checked and placed. -/
def State.streamPacket (s : State) (n : Nat) : State :=
  let e := s.ing n
  match e.inbox with
  | [] => s
  | (f, t) :: rest =>
    let s := s.setIng n { e with inbox := rest }
    if s.fld (.ingress n) Reg.Ingress.STATE = 0 then s
    else
      match s.cbRecover n f with
      | (s, false) => s
      | (s, true) =>
        let crf := s.fld (.ingress n) Reg.Ingress.CTRL_FORMAT = 2
        let (_, _, _, o) := l2 f
        let pk : StreamPacket :=
          if crf then { seq := beAt f (o + 2) 1, seqMod := 256, ts := none, data := [], good := s.crfGood f }
          else if s.fld (.ingress n) Reg.Ingress.CTRL_FORMAT = 1 then s.rtpPacket n f else s.aafPacket n f
        let lost := lostBefore (s.ing n).seq pk.seq pk.seqMod
        let s := if lost = 0 then s else (s.count (.ingress n) Reg.Ingress.LOST lost).ingEvent n 2
        let s := s.setIng n { s.ing n with seq := some pk.seq }
        if !pk.good || e.rate ≠ s.fs then (s.count (.ingress n) Reg.Ingress.FORMAT_ERR).ingEvent n 5
        else if crf then s.takeCrf n f
        else s.takePacket n t pk

def execStreamPacketRx (n : Nat) (s : State) : Res := settle (s.streamPacket n)

/-- No packet for the longer of 4 packet times and 2 blocks (R328). -/
def execStalled (n : Nat) (s : State) : Res :=
  let quiet := s.render.tick - (s.ing n).at_
  let pkt := if s.fld (.ingress n) Reg.Ingress.CTRL_FORMAT = 2 then 0 else 4 * s.fld (.ingress n) Reg.Ingress.FMT_SPF
  if n < 256 ∧ s.fld (.ingress n) Reg.Ingress.STATE = 2 ∧ max pkt (2 * s.blockSize) ≤ quiet then
    settle ((s.set (.ingress n) Reg.Ingress.STATE 3).ingEvent n 1)
  else settle s

/-- At the release of block `b` the samples that no packet brought are filled: sample L + m is sample
L - m, faded to zero over the gap or 1 ms, whichever is shorter (R328). -/
def State.streamFill (s : State) (b : Nat) : State :=
  (s.net.ing.map (·.1)).foldl (fun s n =>
    if s.fld (.ingress n) Reg.Ingress.STATE ≠ 2 || s.fld (.ingress n) Reg.Ingress.CTRL_FORMAT = 2 then s
    else
      let e := s.ing n
      let ch := s.fld (.ingress n) Reg.Ingress.FMT_CHANNELS
      (s.blockSamples b).foldl (fun s i =>
        let before := (e.got.filter (fun r => r.2 ≤ i)).foldl (fun a r => max a r.2) 0
        if e.has i || before = 0 then s
        else
          let m := i - before + 1
          let next := (e.got.filter (fun r => i < r.1)).foldl (fun a r => min a r.1) (before + s.fs / 1000)
          let n' := min (next - before) (s.fs / 1000)
          (List.range ch).foldl (fun s c =>
            let src : Source := { type := 1, unit := n, chan := c }
            let x := if m < n' && m < before then s.sample src (before - 1 - m) else 0
            s.putSample src i (if m < n' then roundDiv (x * (n' - m : Nat)) n' else 0)) s) s) s

/-! Egress (R330 to R332) -/

/-- Media samples of one packet of a record. -/
def egSpanOf (g : Fld → Nat) : Nat :=
  if g Reg.Egress.CTRL_FORMAT = 2 then g Reg.Egress.FMT_SPF * g Reg.Egress.FMT_CRF_INTERVAL else g Reg.Egress.FMT_SPF

def State.egSpan (s : State) (n : Nat) : Nat := egSpanOf (s.fld (.egress n))

/-- Frame length with FCS of a packet of a record (R332). -/
def egLenOf (g : Fld → Nat) : Nat :=
  let v := if g Reg.Egress.CTRL_TAGGED = 1 then 4 else 0
  let t := if g Reg.Egress.CTRL_CB_TAG = 1 then 6 else 0
  let spf := g Reg.Egress.FMT_SPF
  let body := match g Reg.Egress.CTRL_FORMAT with
    | 2 => 24 + 8 * spf
    | 1 => 40 + g Reg.Egress.FMT_CHANNELS * spf * (if g Reg.Egress.FMT_SAMPLE = 0 then 2 else 3)
    | _ => 24 + g Reg.Egress.FMT_CHANNELS * spf * [2, 3, 4, 4].getD (g Reg.Egress.FMT_SAMPLE) 2
  max 64 (18 + v + body + t)

def State.egLen (s : State) (n : Nat) : Nat := egLenOf (s.fld (.egress n))

/-- Have the output samples up to render sample `i` been emitted? -/
def State.emitted (s : State) (i : Nat) : Bool :=
  s.render.released &&
    (i < s.blockStart s.render.block || (s.render.late && i < s.blockStart (s.render.block + 1)))

/-- Has the output's job of the block under way, which holds sample `i`, retired? -/
def State.retiredAt (s : State) (out i : Nat) : Bool :=
  s.render.released && i < s.blockStart (s.render.block + 1) && (s.out out).postDone = s.render.block + 1

/-- An output's egress sample, from the block under way where its job has retired. -/
def State.outSample (s : State) (out i : Nat) : Int :=
  if s.emitted i then s.egressAt out i
  else
    let j := i - s.blockStart s.render.block
    let e := s.out out
    let x := Map.get 0 j e.egress
    if s.render.block < s.render.silentUntil then 0
    else if e.fadeIn then roundDiv (x * (j + 1 : Nat)) s.blockSize else x

/-- The record of a stream as a packet whose last media sample is `m - 1` uses it: a commit acts from the first packet
that holds its apply sample (R71). -/
def State.egRec (s : State) (n m : Nat) (x : Fld) : Nat := s.fldAt (.egress n) x (m - 1 - s.firstM)

/-- The next packet of a stream and its span: packets of an ended configuration come first, as far as they hold only
samples before the change. A stream set at another render rate sends nothing (R347). -/
def State.egNext (s : State) (n : Nat) : Option (Nat × Nat) :=
  let e := s.egr n
  match e.before.find? (fun w => w.1 * w.2.1 + w.2.1 ≤ w.2.2) with
  | some (k, S, _) => some (k, S)
  | none => if e.rate = s.fs then e.next.map (fun k => (k, s.egSpan n)) else none

/-- The packet is formed: the next one takes its place. -/
def EgState.formed (e : EgState) : EgState :=
  match e.before.find? (fun w => w.1 * w.2.1 + w.2.1 ≤ w.2.2) with
  | some w => { e with before := (e.before.filter (fun v => v.1 * v.2.1 + v.2.1 ≤ v.2.2)).map (fun v =>
      if v = w then (v.1 + 1, v.2) else v) }
  | none => { e with before := [], next := e.next.map (· + 1) }

/-- May packet `k` enter its queue: are its last samples there? -/
def State.packetReady (s : State) (n k S : Nat) : Bool :=
  let last := k * S + S
  let g := s.egRec n last
  decide (s.firstM < last) &&
    (let i := last - 1 - s.firstM
     s.emitted i || (g Reg.Egress.CTRL_FORMAT ≠ 2 &&
      (List.range (g Reg.Egress.FMT_CHANNELS)).all (fun c => s.retiredAt (g Reg.Egress.FIRST_OUT + c) i)))

/-- The destination MAC address: RFC 1112 forms that of multicast AES67 (R323, R330). -/
def egDmac (g : Fld → Nat) : Nat :=
  let ip := g Reg.Egress.DEST_IP
  if g Reg.Egress.CTRL_FORMAT = 1 && ip / 2 ^ 28 = 14 then 0x01005E000000 + ip % 2 ^ 23
  else g Reg.Egress.DMAC_HI * 2 ^ 32 + g Reg.Egress.DMAC_LO

/-- The header of packet `k` (R323, R330, R333); a pair sends from the addresses of its TWIN pages (R495). -/
def State.egHead (s : State) (g : Fld → Nat) (k : Nat) : StreamHead :=
  let p := g Reg.Egress.CTRL_PORT
  let own := fun (v w : Nat) => if s.twin.mode ≠ 0 && v ≠ 0 then v else w
  let mac := s.fld .twin (Reg.Twin.STREAM_MAC_HI p) * 2 ^ 32 + s.fld .twin (Reg.Twin.STREAM_MAC_LO p)
  let aes67 := g Reg.Egress.CTRL_FORMAT = 1
  { dmac := egDmac g, smac := own mac (s.macOf p)
    vlan := if g Reg.Egress.CTRL_TAGGED = 1 then some (g Reg.Egress.PCP, g Reg.Egress.VID) else none
    rtag := if g Reg.Egress.CTRL_CB_TAG = 1 then some (k % 65536) else none
    id := if aes67 then g Reg.Egress.SSRC else g Reg.Egress.STREAM_ID_HI * 2 ^ 32 + g Reg.Egress.STREAM_ID_LO
    ip := if aes67 then
        [own (s.fld .twin (Reg.Twin.STREAM_IP p)) (s.fld (.ethMac p) Reg.EthMac.IPV4_ADDR), g Reg.Egress.DEST_IP,
          g Reg.Egress.UDP_SPORT, g Reg.Egress.UDP_DPORT, g Reg.Egress.PT, g Reg.Egress.TTL, g Reg.Egress.DSCP]
      else [] }

/-- Packet `k` of a stream, of span `S` (R331). Samples before M0 are of no render: they read 0. -/
def State.egPacket (s : State) (n k S : Nat) : TxFrame :=
  let first := k * S
  let g := s.egRec n (first + S)
  let K := 2 * s.blockSize + S + 6 * s.rateMul
  let st := s.fld .mediaClk Reg.MediaClk.STATE
  let tu := st = 0 || st = 3
  let at_ := fun c j => if first + j < s.firstM then 0 else s.outSample (g Reg.Egress.FIRST_OUT + c) (first + j - s.firstM)
  let samples := (List.range S).flatMap (fun j => (List.range (g Reg.Egress.FMT_CHANNELS)).map (fun c => at_ c j))
  let codes := fun bits => samples.map (portCodeOf bits)
  let head := s.egHead g k
  let body := match g Reg.Egress.CTRL_FORMAT with
    | 2 => TxBody.stream n k (k % 256) 0 tu s.net.mr
        ((List.range (g Reg.Egress.FMT_SPF)).map (fun j =>
          (s.mediaNs (first + j * g Reg.Egress.FMT_CRF_INTERVAL) : Int))) head
    | 1 => TxBody.stream n k (k % 65536) ((first + K + g Reg.Egress.RTP_OFFSET) % 2 ^ 32) tu s.net.mr
        (codes (if g Reg.Egress.FMT_SAMPLE = 0 then 16 else 24)) head
    | _ => TxBody.stream n k (k % 256) ((s.mediaNs (first + K) + g Reg.Egress.PRESENT_OFFSET) % 2 ^ 32) tu s.net.mr
        (if g Reg.Egress.FMT_SAMPLE = 3 then samples.map floatOf else codes ([16, 24, 32].getD (g Reg.Egress.FMT_SAMPLE) 16)) head
  { len := egLenOf g, body := body }

/-- A packet is discarded (R331). -/
def State.egDrop (s : State) (n : Nat) : State :=
  (s.count (.egress n) Reg.Egress.DROPS).stick (.egress n) Reg.Egress.EVT_FLAGS 0

/-- Is a frame a packet of stream `n`? -/
def TxFrame.ofStream (n : Nat) (f : TxFrame) : Bool :=
  match f.body with
  | .stream m .. => m = n
  | _ => false

/-- The number of a stream's packet. -/
def TxFrame.packet (f : TxFrame) : Nat :=
  match f.body with
  | .stream _ k .. => k
  | _ => 0

/-- Is stream `n`'s egress open? A LOCKSTEP understudy with CB_DUAL sends tagged streams while all else is gated (R499). -/
def State.egOpen (s : State) (n : Nat) : Bool :=
  s.egressOpen ||
    (s.bit .twin Reg.Twin.CFG_CB_DUAL && s.twin.mode = 2 && s.bit (.egress n) Reg.Egress.CTRL_CB_TAG &&
      (s.fld .twin Reg.Twin.STATE = 0xB || s.fld .twin Reg.Twin.STATE = 0xD))

/-- The packets of the last 4 blocks stay (R495). -/
def State.keptOf (s : State) (kept : List TxFrame) (k S : Nat) : List TxFrame :=
  kept.filter (fun f => (k + 1) * S < (f.packet + 1) * S + 4 * s.blockSize)

/-- The stream's next packet enters its queue (R331); while its egress is closed it is kept (R495, R497). -/
def State.egEnqueue (s : State) (n : Nat) : State :=
  match s.egNext n with
  | none => s
  | some (k, S) =>
    if !s.packetReady n k S then s
    else
      let f := s.egPacket n k S
      let g := s.egRec n (k * S + S)
      let s := s.setEgr n (s.egr n).formed
      let p := g Reg.Egress.CTRL_PORT
      let q := g Reg.Egress.CTRL_QUEUE
      if !s.egOpen n then
        if s.twin.mode = 2 then
          s.setEgr n { s.egr n with kept := s.keptOf (s.egr n).kept k S ++ [f] }
        else s
      else
        let stale := fun (f : TxFrame) => TxFrame.ofStream n f && !f.retained
        let old := ((s.eth p).queue q).filter stale
        let s := old.foldl (fun s _ => s.egDrop n) s
        let s := s.setEth p ((s.eth p).setQueue q (((s.eth p).queue q).filter (fun f => !stale f)))
        if s.bit (.ethMac p) Reg.EthMac.STATUS_LINK then s.enqueue p q f else s.egDrop n

def execStreamPacketEnqueue (n : Nat) (s : State) : Res := settle (s.egEnqueue n)

/-- At a deadline every packet whose samples are out enters its queue (R331). -/
def State.egDue (s : State) : State :=
  (s.net.eg.map (·.1)).foldl (fun s n => iter (fun s => s.egEnqueue n) s.blockSize s) s

/-- STATE of every egress stream follows the twin's egress (R482, R497, R499). -/
def State.egGate (s : State) : State :=
  (s.net.eg.map (·.1)).foldl (fun s n =>
    if s.fld (.egress n) Reg.Egress.STATE = 0 then s
    else if s.egOpen n then s.set (.egress n) Reg.Egress.STATE 1
    else if s.fld (.egress n) Reg.Egress.STATE = 2 then s
    else (s.set (.egress n) Reg.Egress.STATE 2).stick (.egress n) Reg.Egress.EVT_FLAGS 1) s

/-- Egress opens: each stream resumes at L + 3, its kept packets at once and in order (R497). -/
def State.egResume (s : State) : State :=
  (s.net.eg.map (·.1)).foldl (fun s n =>
    let e := s.egr n
    let p := s.fld (.egress n) Reg.Egress.CTRL_PORT
    let q := s.fld (.egress n) Reg.Egress.CTRL_QUEUE
    let due := e.kept.filter (fun f => match f.body, e.departed with
      | .stream _ k .., some l => l + 3 ≤ k
      | _, _ => false)
    let s := s.setEgr n { e with kept := [], departed := none }
    if s.bit (.ethMac p) Reg.EthMac.STATUS_LINK then due.foldl (fun s f => s.enqueue p q { f with retained := true }) s
    else due.foldl (fun s _ => s.egDrop n) s) s.egGate

/-- Channels of the enabled streams of both directions (R325). -/
def State.countChannels (s : State) : State :=
  let tot := fun (dir : Nat → Blk) (en ch : Fld) => (List.range 256).foldl (fun a n =>
    if s.bit (dir n) en then a + s.fld (dir n) ch else a) 0
  let i := tot .ingress Reg.Ingress.CTRL_ENABLE Reg.Ingress.FMT_CHANNELS
  let e := tot .egress Reg.Egress.CTRL_ENABLE Reg.Egress.FMT_CHANNELS
  (List.range 4).foldl (fun s p =>
    (s.set (.inPage p) Reg.Streams.CH_USED i).set (.egPage p) Reg.Streams.CH_USED e) s

/-- An ingress record was committed: `old` holds its words before. -/
def State.ingConfig (s : State) (n : Nat) (old : RegMap) : State :=
  let b := Blk.ingress n
  let was := fun x => regGet old b.base x
  let s := s.setBit b Reg.Ingress.ALT_DOMAIN (s.bit b Reg.Ingress.CTRL_ENABLE && s.altDomain n)
  if !s.bit b Reg.Ingress.CTRL_ENABLE then (s.setIng n {}).set b Reg.Ingress.STATE 0
  else if was Reg.Ingress.CTRL_ENABLE = 0 ∨ was Reg.Ingress.CTRL_PORT ≠ s.fld b Reg.Ingress.CTRL_PORT
      ∨ was Reg.Ingress.CTRL_FORMAT ≠ s.fld b Reg.Ingress.CTRL_FORMAT
      ∨ was Reg.Ingress.FMT_CHANNELS ≠ s.fld b Reg.Ingress.FMT_CHANNELS
      ∨ was Reg.Ingress.FMT_SAMPLE ≠ s.fld b Reg.Ingress.FMT_SAMPLE
      ∨ was Reg.Ingress.FMT_SPF ≠ s.fld b Reg.Ingress.FMT_SPF then
    (s.setIng n { rate := s.fs }).set b Reg.Ingress.STATE 1
  else s.setIng n { s.ing n with rate := s.fs }

/-- An egress stream's next packet is the one that holds media sample `m` (R71). -/
def State.egStart (s : State) (n m : Nat) : State :=
  s.setEgr n { s.egr n with next := some (m / max 1 (s.egSpan n)) }

/-- Packets of the configuration `g` that hold only samples before media sample `m` are still sent. -/
def State.egEnd (s : State) (n m : Nat) (g : Fld → Nat) : State :=
  let e := s.egr n
  s.setEgr n { e with next := none, before := e.before ++ (e.next.map (fun k => (k, egSpanOf g, m))).toList }

/-- An egress record was committed: from the first packet that holds the apply sample (R71). -/
def State.egConfig (s : State) (n : Nat) (old : RegMap) : State :=
  let b := Blk.egress n
  let was := fun x => regGet old b.base x
  let m := s.firstM + s.render.rsi
  if !s.bit b Reg.Egress.CTRL_ENABLE then (s.egEnd n m was).set b Reg.Egress.STATE 0
  else if was Reg.Egress.CTRL_ENABLE = 0 ∨ was Reg.Egress.CTRL_FORMAT ≠ s.fld b Reg.Egress.CTRL_FORMAT
      ∨ egSpanOf was ≠ s.egSpan n then
    let s := (((s.egEnd n m was).set b Reg.Egress.STATE 1).egStart n m)
    (s.setEgr n { s.egr n with rate := s.fs }).egGate
  else (s.setEgr n { s.egr n with rate := s.fs }).egGate

/-- A render starts (again): placement and numbering follow the new M0. -/
def State.streamsRestart (s : State) : State :=
  let s := { s with net := { s.net with
    ing := s.net.ing.update ({} : IngState) (fun e => { e with got := [], lastEnd := 0, fade := none }) } }
  (s.net.eg.map (·.1)).foldl (fun s n =>
    if s.fld (.egress n) Reg.Egress.STATE = 0 then s.setEgr n {}
    else (s.setEgr n { s.egr n with before := [] }).egStart n s.firstM) s

/-- A render reset or rate change toggles the mr bit (R322). -/
def State.toggleMr (s : State) : State := { s with net := { s.net with mr := !s.net.mr } }

end Sys2Proof.Machine
end

