-- ==== Sys2Proof/Machine/Binaural.lean ====
section
/-! DEFINITION. The binaural monitor's head rotation and stereo feed (R194 to R196). -/

namespace Sys2Proof.Machine

open Sys2Proof

/-- The HRIR set in use. -/
def State.hrir (s : State) : Hrir := Map.get {} (s.fld .monitor Reg.Monitor.CTRL_HRIR_SEL) s.monitor.slots

/-- Is virtual loudspeaker `v` in use at sample `i`? -/
def State.virtualOn (s : State) (v i : Nat) : Bool :=
  s.fldAt .monitor Reg.Hdr.ENABLE i ≠ 0 && s.fldAt .monitor (Reg.Monitor.VIRT_EN v) i ≠ 0

/-- At a block boundary the head rotation is read (R195). -/
def State.readHead (s : State) : State :=
  let g := fun x => signed 32 (s.fld .monitor x)
  { s with monitor := { s.monitor with head := (g Reg.Monitor.HEAD_YAW, g Reg.Monitor.HEAD_PITCH, g Reg.Monitor.HEAD_ROLL) } }

/-- For block `b` each virtual loudspeaker takes its nearest grid direction of the set in use, from where it stands at its
first sample there (R195). -/
def State.monitorHead (s : State) (b : Nat) : State :=
  let slot := s.fldAt .monitor Reg.Monitor.CTRL_HRIR_SEL (s.blockStart b)
  let h := Map.get ({} : Hrir) slot s.monitor.slots
  let (yaw, pitch, roll) := s.monitor.head
  let sel := (List.range 64).foldl (fun (m : Map Nat) v =>
    match (s.blockSamples b).find? (s.virtualOn v) with
    | some i =>
      if h.dirs.isEmpty then m
      else
        let az := signed 16 (s.fldAt .monitor (Reg.Monitor.VIRT_AZ v) i) * 256
        let el := signed 16 (s.fldAt .monitor (Reg.Monitor.VIRT_EL v) i) * 256
        m.put 0 v (1024 * slot + hrirNearest az el yaw pitch roll h.dirs + 1)
    | none => m) []
  { s with monitor := { s.monitor with was := s.monitor.sel, sel := sel } }

/-- One ear of one pair: the exact convolution of the tap's history at sample `i`. -/
def Hrir.ear (h : Hrir) (hist : Map Int) (k ear out i : Nat) : Int :=
  let p := h.irs.getD k ([], [])
  ((if ear = 0 then p.1 else p.2).zipIdx).foldl (fun a (c, j) =>
    if i < j then a else a + c * Map.get 0 (2048 * out + (i - j) % 2048) hist) 0

/-- What virtual loudspeaker `v` gives an ear at sample `i` through a selected pair. -/
def MonitorEngine.pair (m : MonitorEngine) (sel ear out i : Nat) : Int :=
  if sel = 0 then 0 else (Map.get ({} : Hrir) ((sel - 1) / 1024) m.slots).ear m.hist ((sel - 1) % 1024) ear out i

/-- The stereo feed of block `b`: pairs cross-fade when their selection has changed, are summed per ear,
scaled by GAIN and saturated (R195, R196). -/
def State.monitorFeed (s : State) (b : Nat) : State :=
  let s0 := s.blockStart b
  let step := fun (s : State) (i : Nat) =>
    if s.fldAt .monitor Reg.Hdr.ENABLE i = 0 then { s with monitor := { s.monitor with gain := {}, hist := [] } }
    else
      let vs := ((List.range 64).filter (fun v => s.virtualOn v i)).map (fun v => (v, s.fldAt .monitor (Reg.Monitor.VIRT_OUT v) i))
      let hist := (vs.map (·.2)).eraseDups.foldl (fun m o =>
        m.put 0 (2048 * o + i % 2048) (Map.get 0 (i - s0) (s.out o).tap)) s.monitor.hist
      let g := s.monitor.gain
      let want : Int := if s.fldAt .monitor Reg.Monitor.CTRL_MUTE i = 1 then 0 else 0x10000000
      let g := if g = {} then { g with last := want, from_ := want, to_ := want }
        else if g.to_ = want then g else g.retarget i want (s.fs / 100)
      let g := g.tick i
      let s := { s with monitor := { s.monitor with hist := hist, gain := g } }
      let m := s.monitor
      (List.range 2).foldl (fun s ear =>
        let sum := vs.foldl (fun (a : Int) (v, o) =>
          let now := Map.get 0 v m.sel
          let was := Map.get 0 v m.was
          let x := m.pair now ear o i
          if was = now ∨ was = 0 then a + x else a + mixFade (m.pair was ear o i) x (i - s0) s.blockSize) 0
        let gain : Int := s.fldAt .monitor Reg.Monitor.GAIN i
        let y := roundOpen (sum * gain * g.last) (2 ^ 87)
        let y' := satQ31 y
        let s := s.putSample { type := 10, chan := ear } i y'
        if y ≠ y' then s.event .monitor 1 else s) s
  (s.blockSamples b).foldl step s

end Sys2Proof.Machine
end

