-- ==== Sys2Proof/Machine/Correct.lean ====
section
/-! DEFINITION. Correction banks: loading, warming and swapping filters (R206 to R228). -/

namespace Sys2Proof.Machine

open Sys2Proof

/-! Held and idle banks (R214) -/

/-- Does a pending commit name bank `k` of the output in SEL? -/
def State.commitNames (s : State) (n k : Nat) : Bool :=
  s.fab.commits.any (fun c => c.pending && c.blks.contains (.out n) &&
    regGet c.vals (Blk.out n).base Reg.Out.CORR_SEL = k + 1)

/-- Is a bank held (R214)? A bank that a split commit's held page names stays held too (R228): its
staged view still names it. -/
def State.bankHeld (s : State) (n k : Nat) : Bool :=
  let c := (s.out n).corr
  c.live = k + 1 || c.fade.any (fun f => f.old = k + 1) || s.stg (.out n) Reg.Out.CORR_SEL = k + 1
    || s.fld (.out n) Reg.Out.CORR_SEL = k + 1 || s.commitNames n k

/-! The filter file (R216 to R218) -/

def filterCount (f : List Byte) : Nat := leAt f 0x06 2
def entryOff (e : Nat) : Nat := 64 + 32 * e

/-- Where the coefficient block of entry `e` must begin. -/
def blockOff (f : List Byte) (e : Nat) : Nat :=
  (List.range e).foldl (fun a k => a + 4 * leAt f (entryOff k + 4) 2) (64 + 32 * filterCount f)

/-- The tap words of an entry, as the file holds them. -/
def entryTaps (f : List Byte) (e : Nat) : List Int :=
  let o := leAt f (entryOff e + 0x14) 4
  (List.range (leAt f (entryOff e + 4) 4)).map (fun j => signed 32 (leAt f (o + 4 * j) 4))

/-- Does an entry's FORM break R226 or the symmetry of R218? -/
def delayBad (f : List Byte) (e : Nat) : Bool :=
  let o := entryOff e
  let t := leAt f (o + 4) 4
  let d := leAt f (o + 0x0C) 4
  match leAt f (o + 8) 4 with
  | 0 => d ≠ 0
  | 1 => d ≠ (t - 1) * 128
  | _ => (t - 1) * 256 < d

/-- The faults of one entry with their offsets, in file order. -/
def entryFaults (f : List Byte) (e : Nat) : List (Bool × Nat) :=
  let o := entryOff e
  let w0 := leAt f o 4
  let t := leAt f (o + 4) 4
  let start := leAt f (o + 0x14) 4
  let out := w0 % 1024
  [ (decide (w0 / 1024 % 64 ≠ 0 ∨ w0 / 2 ^ 18 ≠ 0 ∨ w0 / 65536 % 4 = 3) ||
      (List.range e).any (fun k => leAt f (entryOff k) 4 % 1024 = out), o),
    (decide (t = 0 ∨ (if leAt f 8 2 = 1 then 16384 else 32768) < t), o + 4),
    (decide (3 ≤ leAt f (o + 8) 4) ||
      (leAt f (o + 8) 4 = 1 && entryTaps f e ≠ (entryTaps f e).reverse), o + 8),
    (delayBad f e, o + 0x0C),
    (decide (start ≠ blockOff f e), o + 0x14),
    (decide (crc32 ((f.drop start).take (4 * t)) ≠ BitVec.ofNat 32 (leAt f (o + 0x18) 4)), o + 0x18),
    (decide (leAt f (o + 0x1C) 4 ≠ 0), o + 0x1C) ]

/-- The first faulty field of a filter file (R218). A length that does not end with the last block is
reported at the block's DATA_OFFSET (entry 8 of the log). -/
def filterFault (f : List Byte) : Option Nat :=
  let n := filterCount f
  let head : List (Bool × Nat) :=
    [ (decide (leAt f 0 4 ≠ 0x46494C54), 0), (decide (leAt f 4 2 ≠ 1), 4),
      (decide (n = 0 ∨ 512 < n), 6), (decide (1 < leAt f 8 2), 8), (decide (leAt f 0x0A 2 ≠ 0), 0x0A),
      (decide (leAt f 0x0C 4 = 0), 0x0C), ((f.drop 0x10).take 44 |>.any (· ≠ 0#8), 0x10),
      (decide (crcWithout (f.take (64 + 32 * n)) 0x3C ≠ BitVec.ofNat 32 (leAt f 0x3C 4)), 0x3C) ]
  let tail : List (Bool × Nat) := [(decide (f.length ≠ blockOff f n), entryOff (n - 1) + 0x14)]
  ((head ++ (List.range (min n 512)).flatMap (entryFaults f) ++ tail).find? (·.1)).map (·.2)

/-- The bank an entry goes to, if one is idle (R217, R218). -/
def State.entryBank (s : State) (f : List Byte) (e : Nat) : Option Nat :=
  let w := leAt f (entryOff e) 4
  let n := w % 1024
  match w / 65536 % 4 with
  | 0 => [0, 1].find? (fun k => !s.bankHeld n k)
  | b => if s.bankHeld n (b - 1) then none else some (b - 1)

/-- Store taps that the loads past CHECK will take with the entries they have not transformed yet (R211). -/
def State.storePledged (s : State) (seat tag : Nat) : Nat :=
  let loads := (s.seats.flatMap (fun q => q.2.cmds)).filter (fun c =>
    c.opcode = 0x20 && c.accepted && !c.final && !(c.seat = seat && c.tag = tag))
  (loads.map (fun c => (((List.range (filterCount c.bytes)).drop (c.steps - 2)).map (fun e =>
    let n := leAt c.bytes (entryOff e) 4 % 1024
    coveredLength (leAt c.bytes (entryOff e + 4) 4) - ((s.out n).corr.bank (c.work.getD e 0)).stored)).sum)).sum

/-- Everything R218 refuses a file for: a status and result word 0. -/
def State.filterRefusal (s : State) (seat tag : Nat) (f : List Byte) : Option (Nat × Nat) :=
  match filterFault f with
  | some o => some (Status.badParam, o)
  | none =>
    let es := List.range (filterCount f)
    let outs := es.map (fun e => leAt f (entryOff e) 4 % 1024)
    if leAt f 8 2 ≠ s.fld .render Reg.Render.CFG_RATE then some (Status.rateMismatch, 0)
    else if outs.any (fun n => s.model.outputs ≤ n) then some (Status.absentUnit, 0)
    else if outs.any (fun n => s.nowOutputs ≤ n) then some (Status.noCapacity, 0)
    else if outs.any (fun n => !s.owns seat (.out n)) then some (Status.notOwner, 0)
    else if es.any (fun e => (s.entryBank f e).isNone) then some (Status.busy, 0)
    else
      let freed := es.foldl (fun a e =>
        match s.entryBank f e with
        | some k => a + ((s.out (leAt f (entryOff e) 4 % 1024)).corr.bank k).stored
        | none => a) 0
      let taken := es.foldl (fun a e => a + coveredLength (leAt f (entryOff e + 4) 4)) 0
      if 2 * s.model.taps + freed < s.storeUsed + s.storePledged seat tag + taken then some (Status.noCapacity, 0) else none

/-! FILTER_LOAD (R219, R220) -/

/-- FILTER_LOAD starts: its file is staged in the general pool. -/
def execFilterLoad (seat tag : Nat) (s : State) : Res :=
  settle (s.command seat tag 0x20 (fun c s => s.startLoad c 0))

/-- TRANSFORM of entry `e`: the target bank becomes LOADING and takes the taps with GAIN applied. -/
def State.transformEntry (s : State) (f : List Byte) (e k : Nat) : State :=
  let o := entryOff e
  let n := leAt f o 4 % 1024
  let g : Int := leAt f (o + 0x10) 4
  let raw := entryTaps f e
  let top := raw.foldl (fun m x => max m (absNat x)) 0
  let c := (s.out n).corr
  let seg := Map.drop (fun j => decide (j / 16 = k)) c.seg
  s.setCorr n ({ c with seg := seg }.setBank k { c.bank k with
    state := 1, tag := BitVec.ofNat 32 (leAt f 0x0C 4), form := leAt f (o + 8) 4
    delay := leAt f (o + 0x0C) 4, taps := []
    staged := raw.map (fun x => roundOpen (x * g) (2 ^ 28)),
    peakTap := raw.findIdx (fun x => absNat x = top) })

/-- The CRC of a bank's spectra; 0 for a bank that holds none. -/
def Bank.crc (b : Bank) : Word := if b.usable then Config.spectraCrc b.taps else 0

/-- Is a key of the register store that of an output's CORR word? -/
def isCorrWord (k : Nat) : Bool :=
  0x180000 ≤ k && k < 0x1C0000 && k % 0x80 = 0x40 && 0x400 ≤ k % 0x1000 && k % 0x1000 < 0x800

/-- The CRC of the record itself. -/
def CorrRecord.check (r : CorrRecord) : Word :=
  crc32 (r.words.flatMap (fun e => bytesOf (BitVec.ofNat 32 e.1) ++ bytesOf e.2) ++
    r.crcs.flatMap (fun e => bytesOf (BitVec.ofNat 32 e.1) ++ bytesOf e.2.1 ++ bytesOf e.2.2))

/-- The committed filter record is written (R227). -/
def State.recordFilters (s : State) : State :=
  let r : CorrRecord := { words := Map.only isCorrWord s.fab.act
                          crcs := s.outs.foldl (fun m e => m.put (0, 0) e.1 (e.2.corr.bank0.crc, e.2.corr.bank1.crc)) [] }
  { s with corrRecord := some { r with crc := r.check } }

/-- A LOADING bank becomes VALID, or EMPTY. -/
def State.settleBank (s : State) (n k : Nat) (keep : Bool) : State :=
  let c := (s.out n).corr
  let b := c.bank k
  if b.state ≠ 1 then s
  else s.setCorr n (c.setBank k (if keep then { b with state := 2, taps := b.staged, staged := [] } else {}))

/-- INSTALL of the first `count` entries: banks become VALID, but for an output that has changed owner since CHECK and
whose new owner is not the calling seat. The answer counts the banks installed and tells of a changed owner (R220). -/
def State.installFilters (s : State) (c : Cmd) (count : Nat) : State × Nat × Bool :=
  let (s, k, bad) := (List.range count).foldl (fun (a : State × Nat × Bool) e =>
    let (s, k, bad) := a
    let n := leAt c.bytes (entryOff e) 4 % 1024
    let owner := (s.ownerOf (.out n)).1
    let ok := owner = c.seat || owner = c.work.getD (filterCount c.bytes + e) owner
    let there := decide (((s.out n).corr.bank (c.work.getD e 0)).state = 1)
    (s.settleBank n (c.work.getD e 0) ok, if ok && there then k + 1 else k, bad || !ok)) (s, 0, false)
  (s.recordFilters, k, bad)

/-- A FILTER_LOAD is cancelled: finished entries install under KEEP_PARTIAL, every other bank it made
LOADING becomes EMPTY (R220). -/
def State.cancelFilterLoad (s : State) (c : Cmd) (keep : Bool) : State :=
  let done := c.steps - 2
  if keep then
    let (s, k, _) := s.installFilters c done
    if 0 < k then s.event .correct 0 else s
  else
    (List.range done).foldl (fun s e => s.settleBank (leAt c.bytes (entryOff e) 4 % 1024) (c.work.getD e 0) false) s

/-- May INSTALL run now: at a block boundary while the render is clocked (R219). In LOCKSTEP the principal waits for the
understudy's last TRANSFORM and names the boundary at which both install (R488). -/
def State.mayInstall (s : State) (c : Cmd) : Bool × State :=
  let tag := c.peer.getD c.tag
  let here := !s.clocked || s.render.rsi % s.blockSize = 0
  if !(s.lockPri || (s.lockUnd && c.peer.isSome)) then (here, s)
  else match s.twin.installs.find? (fun e => e.1 = c.seat && e.2.1 = tag) with
    | some e => (here && decide (e.2.2 ≤ s.render.rsi), s)
    | none =>
      let told := s.twin.transformed.contains (c.seat, tag)
      if s.lockPri then
        if told then
          let at_ := s.secondBoundary
          (false, { s with twin := { s.twin with installs := s.twin.installs ++ [(c.seat, tag, at_)] } }.tellPeer
            (.install c.seat tag at_))
        else (false, s)
      else if told then (false, s)
      else (false, { s with twin := { s.twin with transformed := s.twin.transformed ++ [(c.seat, tag)] } }.toPeer
        (.transformed c.seat tag))

/-- A load that has ended needs no boundary any more. -/
def State.forgetInstall (s : State) (c : Cmd) : State :=
  let key := (c.seat, c.peer.getD c.tag)
  { s with twin := { s.twin with
    transformed := s.twin.transformed.filter (· ≠ key), installs := s.twin.installs.filter (fun e => (e.1, e.2.1) ≠ key) } }

/-- One step of FILTER_LOAD (R219). -/
def State.stepFilterLoad (s : State) (c : Cmd) (host : List Byte) : State :=
  if c.steps = 0 then s.fetchStep c 0 host
  else if c.steps = 1 then
    match s.filterRefusal c.seat c.tag c.bytes with
    | some (st, r0) => s.finish c.seat c.tag st r0
    | none =>
      let banks := (List.range (filterCount c.bytes)).map (fun e => (s.entryBank c.bytes e).getD 0)
      let owners := (List.range (filterCount c.bytes)).map (fun e => (s.ownerOf (.out (leAt c.bytes (entryOff e) 4 % 1024))).1)
      let c := { c with work := banks ++ owners }
      ((s.setCmd c).accept c.seat c.tag).stepped c.seat c.tag
  else if c.steps - 2 < filterCount c.bytes then
    (s.transformEntry c.bytes (c.steps - 2) (c.work.getD (c.steps - 2) 0)).stepped c.seat c.tag
  else
    match s.mayInstall c with
    | (false, s) => s
    | (true, s) =>
    let (s, k, bad) := (s.forgetInstall c).installFilters c (filterCount c.bytes)
    let s := if 0 < k then s.event .correct 0 else s
    s.finish c.seat c.tag (if bad then Status.notOwner else Status.ok) k (leAt c.bytes 0x0C 4)

/-! Warming (R223) -/

/-- The bank R223 would warm: the idle VALID bank the output does not select; BANK1 when both are. -/
def State.warmTarget (s : State) (n : Nat) : Option Nat :=
  let c := (s.out n).corr
  [1, 0].find? (fun k => c.live ≠ k + 1 && !s.bankHeld n k && (c.bank k).state = 2)

/-- A write of CORR.WARM (R223): ignored on a STOPPED or an inactive output. -/
def State.corrWarm (s : State) (n : Nat) (on : Bool) : State :=
  if s.fld (.out n) Reg.Out.CORR_POLICY = 1 ∧ s.outActive n then
    s.setBoth (.out n) Reg.Out.CORR_WARM (if on then 1 else 0)
  else s.setBoth (.out n) Reg.Out.CORR_WARM 0

def execCorrWarm (n : Nat) (on : Bool) (s : State) : Res := settle (s.corrWarm n on)

/-- At the block boundary at sample `i` warming starts, or ends where WARM is 0, or the output is STOPPED or inactive, and
no pending commit names the bank (R223). -/
def State.corrBoundary (s : State) (n i : Nat) : State :=
  let c := (s.out n).corr
  if s.bit (.out n) Reg.Out.CORR_WARM && s.fld (.out n) Reg.Out.CORR_POLICY = 1 && s.outActive n then
    if c.warming.isSome || ([0, 1] : List Nat).any (fun k => c.live ≠ k + 1 && (c.bank k).state = 3) then s
    else match s.warmTarget n with
      | some k => s.setCorr n { c with warming := some (k, i) }
      | none => s
  else
    let cools := fun k => (c.bank k).state = 3 && c.fade.isNone && !s.commitNames n k
    if cools 0 || cools 1 || c.warming.isSome then
      let c := [0, 1].foldl (fun (c : Corr) k => if cools k then c.setBank k (c.bank k).cool else c) c
      s.setCorr n { c with warming := none }
    else s

def State.corrsBoundary (s : State) (i : Nat) : State :=
  (s.outs.map (·.1)).foldl (fun s n => s.corrBoundary n i) s

/-- At the first block boundary at which every segment of the warming bank has completed a group that began at or after
the start, the bank becomes WARM (R223). A bank of 64 taps has no segments. -/
def execBankWarm (n : Nat) (s : State) : Res :=
  let c := (s.out n).corr
  match c.warming with
  | some (k, i0) =>
    let b := c.bank k
    let done := (List.range (spanOf b.taps.length)).all (fun j => i0 < Map.get 0 (16 * k + (j + 1)) c.seg)
    if b.state = 2 ∧ i0 ≤ s.render.rsi ∧ s.render.rsi % s.blockSize = 0 ∧ done then
      settle (s.setCorr n { c.setBank k { b with state := 3 } with warming := none })
    else settle s
  | none => settle s

/-! Swaps (R221 to R224) -/

/-- SEL changed at the swap sample `i`: a cross-fade, or an immediate switch (R222, R224). -/
def State.swap (s : State) (n i : Nat) (wasActive : Bool) : State :=
  let c := (s.out n).corr
  let sel := s.fld (.out n) Reg.Out.CORR_SEL
  if sel = c.live then s
  else
    let len := s.rampSamples (s.fld (.out n) Reg.Out.CORR_XFADE)
    let c' := { c with live := sel, since := i, before := c.live }
    let s := s.count .correct Reg.Correct.SWAP_COUNT
    if wasActive && s.fld (.out n) Reg.Out.CORR_POLICY = 1 && 0 < len then
      (s.setCorr n { c' with fade := some { old := c.live, start := i, n := len } }).recordFilters
    else
      let s := s.setBoth (.out n) Reg.Out.CORR_WARM 0
      (s.setCorr n { c'.cool with warming := none }).recordFilters.event .correct 1

/-- A cross-fade has ended: the last of its samples has been rendered. The old bank becomes idle and
VALID and WARM clears (R222). -/
def execSwapped (n : Nat) (s : State) : Res :=
  let e := s.out n
  settle (if e.corr.fade.any (fun f => f.start + f.n ≤ e.postDone * s.blockSize) then
      (s.setOut n { e with corr := e.corr.fadeEnd }).fadeEnded n e.corr
    else s)

/-- Delay lines and head states clear, a running fade ends with the new bank in place and warming
restarts: render reset and BLOCK_RESET (R227, R228). -/
def State.corrClear (s : State) (n i : Nat) : State :=
  let c := (s.out n).corr
  (s.setCorr n ((c.clear i).rewarm i)).fadeEnded n c

/-- A render-rate change empties every bank and puts every output in bypass (R227). -/
def State.corrFlush (s : State) : State :=
  let s := (s.outs.map (·.1)).foldl (fun s n =>
    let c := (s.out n).corr
    let s := s.setBoth (.out n) Reg.Out.CORR_SEL 0
    s.setCorr n { c with bank0 := {}, bank1 := {}, live := 0, fade := none, warming := none }) s
  s.recordFilters.event .correct 4

/-- The firmware's check of one output after a warm reset (R227): LOADING banks become EMPTY, an output whose record and
selected bank check good is restored, with its idle bank where that checks good too; whether the output was kept. -/
def State.corrRestoreOut (s : State) (r : CorrRecord) (n : Nat) : State × Bool :=
  let c := (s.out n).corr
  let crcs := Map.get (0, 0) n r.crcs
  let keep := fun (b : Bank) (crc : Word) => if b.usable && b.crc = crc then { b with state := 2 } else ({} : Bank)
  let c := { c with bank0 := keep c.bank0 crcs.1, bank1 := keep c.bank1 crcs.2, fade := none, warming := none,
                    hist := [], seg := [], head := 0 }
  let was := fun f => regGet r.words (Blk.out n).base f
  let sel := was Reg.Out.CORR_SEL
  if r.crc ≠ r.check || (sel ≠ 0 && !(c.bank (sel - 1)).usable) then
    (s.setCorr n { c with bank0 := {}, bank1 := {}, live := 0 }, false)
  else
    let s := ([Reg.Out.CORR_SEL, Reg.Out.CORR_POLICY, Reg.Out.CORR_XFADE] : List Fld).foldl
      (fun s f => s.setBoth (.out n) f (was f)) s
    (s.setCorr n { c with live := sel }, true)

/-- Every output is checked; those without banks whose record holds nothing but reset values come up as they are. -/
def State.corrRestore (s : State) : State :=
  match s.corrRecord with
  | none => s
  | some r =>
    let ns := (List.range s.model.outputs).filter (fun n =>
      s.outs.any (·.1 = n) || r.words.any (fun e => e.1 = (Blk.out n).base + Reg.Out.CORR_SEL.off))
    let (s, bad) := ns.foldl (fun (a : State × Nat) n =>
      let (s, ok) := a.1.corrRestoreOut r n
      (s, if ok then a.2 else a.2 + 1)) (s, 0)
    let bad := if r.crc = r.check then bad else s.model.outputs
    let s := (s.set .correct Reg.Correct.RESTORE_KEPT (s.model.outputs - bad)).set .correct Reg.Correct.RESTORE_DROPPED bad
    if bad ≠ 0 then s.event .correct 3 else s

end Sys2Proof.Machine
end

