-- ==== Sys2Proof/Machine/Ringmaster.lean ====
section
/-! DEFINITION. The Ringmaster: ready lists, grants, retirement, Lead outputs and the trace; the bus
matrix (R373 to R393). -/

namespace Sys2Proof.Machine

open Sys2Proof

/-! Contributions and Lead outputs (R378) -/

/-- Does an object still owe its paths of the block? Fetches for the next block's first slice hold nothing up. -/
def State.objPending (s : State) (n : Nat) : Bool :=
  s.flowBusy n || (!(s.pathsOf n).fetching.isEmpty && (s.pathsOf n).slice * s.sliceSize < s.blockSize)

/-- Does an object's path set reach an output? -/
def ObjPaths.reaches (q : ObjPaths) (out : Nat) : Bool :=
  q.sets.any (fun t => t.paths.any (fun p => !p.cut && p.out = out))

/-- Objects whose contributions to an output are outstanding: before an object's pan job has retired its
outputs are not known. -/
def State.owing (s : State) (out : Nat) : List Nat :=
  s.pathObjects.filter (fun n => s.objPending n &&
    ((s.pathsOf n).reaches out || Map.get 0 (1024 + n) s.paths.jobs ≤ s.render.block))

/-- The routes enabled at a sample that read an object of type 0x8, with their output. -/
def State.objRoutes (s : State) (i : Nat) : List (Nat × Nat) :=
  (List.range 2048).filterMap (fun r =>
    let (on, src, toBus, dest) := s.routeAt r i
    if on && src.type = 8 && !toBus then some (src.unit, dest) else none)

/-- Lead outputs of the block that starts at sample `i`. -/
def State.leadOutputs (s : State) (i : Nat) : List Nat :=
  let leads := s.pathObjects.filter (fun n => s.classAt n i = 0)
  let routes := (s.objRoutes i).filter (fun r => leads.contains r.1)
  (List.range s.model.outputs).filter (fun o =>
    leads.any (fun n => (s.pathsOf n).reaches o) || routes.any (·.2 = o))

/-! The Lead condition (R388, R390, R392) -/

/-- Enabled class-A streams of a port, or those that carry an output. -/
def State.classA (s : State) : List Nat :=
  (List.range 256).filter (fun n => s.fld (.egress n) Reg.Egress.STATE ≠ 0 && s.bit (.egress n) Reg.Egress.CTRL_SR_A)

def State.carries (s : State) (n out : Nat) : Bool :=
  let a := s.fld (.egress n) Reg.Egress.FIRST_OUT
  a ≤ out && out < a + s.fld (.egress n) Reg.Egress.FMT_CHANNELS

/-- Is the gate of a queue open throughout? -/
def State.gateOpen (s : State) (p q : Nat) : Bool :=
  match (s.eth p).gcl with
  | none => (s.fld (.ethGate p) Reg.EthGate.IDLE_STATES).testBit q
  | some l => l.all (fun x => x.1.testBit q)

/-- Does a port meet R390 for the queue of a stream? -/
def State.drains (s : State) (n : Nat) : Bool :=
  let p := s.fld (.egress n) Reg.Egress.CTRL_PORT
  let q := s.fld (.egress n) Reg.Egress.CTRL_QUEUE
  let own := s.classA.filter (fun m => s.fld (.egress m) Reg.Egress.CTRL_PORT = p)
  let fp := own.foldl (fun a m =>
    let S := max 1 (s.egSpan m)
    a + (s.blockSize + S - 1) / S * (8 * (s.egLen m + 20))) 0
  let slope := s.slope p q
  let rate := s.ethMbps p
  let others := (List.range 8).any (fun k => k ≠ q && (match (s.eth p).gcl with
    | none => (s.fld (.ethGate p) Reg.EthGate.IDLE_STATES).testBit k
    | some l => l.any (fun x => x.1.testBit k)))
  let tint := if others then 8000 * (s.ethMtu p + 48) else 0
  -- In ns, times rate (Mbit/s) and slope (kbit/s).
  decide (0 < slope) && decide (2030 * rate * slope + tint * slope + fp * 1000000 * rate ≤ 100000 * rate * slope) &&
    s.gateOpen p q &&
    (!s.bit (.ethMac p) Reg.EthMac.PAUSE_RX_EN || s.bit (.ethMac p) Reg.EthMac.PAUSE_EXEMPT)

/-- Does a synchronous bypassed TDM section or an AES3 transmitter carry an output? -/
def State.portCarries (s : State) (out : Nat) : Bool :=
  (List.range s.model.tdms).any (fun k =>
    let e := s.port (.tdmTx k)
    e.phase = .locked && e.sync && !s.portAsrc (.tdmTx k) &&
      (List.range (s.portSlots (.tdmTx k))).any (fun j =>
        e.mask.testBit j && s.slotSource k j = { type := 9, unit := out })) ||
  (List.range s.model.aes).any (fun k => s.bit (.aesTx k) Reg.AesTx.CTRL_EN &&
    (s.fld (.aesTx k) Reg.AesTx.SRC_A = out || s.fld (.aesTx k) Reg.AesTx.SRC_B = out))

/-- Are the bus-matrix priorities those that R388 asks for? -/
def State.busPriority (s : State) : Bool :=
  let prio := fun m t => s.fld .busMatrix (Reg.BusMatrix.PRIO m t)
  let own : List (Nat × Nat) := [(0, 15), (1, 15), (4, 14), (8, 14)]
  let rest : List Nat := [2, 3, 5, 6, 7, 9, 10, 11, 12]
  ([0, 1] : List Nat).all (fun t => own.all (fun (m, d) =>
    d ≤ prio m t && rest.all (fun r => prio r t < prio m t)))

/-- Is a correction bank of a form that the bound admits? -/
def Corr.zeroLatency (c : Corr) (sel : Nat) : Bool := c.inUse sel = 0 || (c.bank (sel - 1)).form = 0

/-- The lowest reason code a Lead output fails under, or 0 (R392). -/
def State.leadReason (s : State) (out i : Nat) (units prio : Bool) : Nat :=
  let c := (s.out out).corr
  let leads := s.pathObjects.filter (fun n => s.classAt n i = 0)
  let feeds := leads.filter (fun n => (s.pathsOf n).reaches out) ++
    ((s.objRoutes i).filter (fun r => r.2 = out && leads.contains r.1)).map (·.1)
  let streams := s.classA.filter (fun n => s.carries n out)
  if s.bit (.out out) Reg.Out.LIM_LOOKAHEAD then 1
  else if s.bit (.out out) Reg.Out.PROT_LOOKAHEAD then 2
  else if !(c.zeroLatency c.live && c.fade.all (fun f => c.zeroLatency f.old)) then 3
  else if streams.isEmpty && !s.portCarries out then 4
  else if streams.any (fun n => !s.drains n) then 5
  else if feeds.any (fun n => 4 ≤ s.fld (.obj n) Reg.Obj.SOURCE_TYPE) then 6
  else if !units then 7
  else if !prio then 8
  else 0

/-- The evaluation at the release of the block that starts at sample `i` (R378, R392). -/
def State.leadEvaluate (s : State) (i : Nat) : State :=
  let outs := s.leadOutputs i
  let units := decide (s.fld .path Reg.Path.USE_LEAD ≤ 8192)
  let prio := s.busPriority
  let bad := (outs.map (fun o => (o, s.leadReason o i units prio))).filter (·.2 ≠ 0)
  let was := s.bit .render Reg.Render.LEAD_QUALIFIED
  let now := bad.isEmpty && units
  let s := { s with sched := { s.sched with leadOuts := outs, cutOuts := [] } }
  let s := s.set .render Reg.Render.LEAD_OUTPUTS outs.length
  let s := s.set .render Reg.Render.LEAD_BROKEN bad.length
  let s := s.set .render Reg.Render.LEAD_FIRST ((bad.map (·.1)).headD 0)
  let s := s.set .render Reg.Render.LEAD_REASON ((bad.map (·.2)).headD 0)
  let s := s.setBit .render Reg.Render.LEAD_QUALIFIED now
  if was && !now then s.event .render 2 else s

/-! The jobs that become ready -/

/-- Class of an output's items: Lead for a Lead output, else Ensemble. -/
def State.outClass (s : State) (n : Nat) : Nat := if s.sched.leadOuts.contains n then 0 else 1

/-- The samples of block `b` at which the active view changes, after its first one. -/
def State.blockViews (s : State) (b : Nat) : List Nat :=
  (s.blockStart b :: (s.changes.map (·.sample)).filter (fun i => s.blockStart b < i && i < s.blockStart (b + 1))).eraseDups

/-- Destinations that routes carry into block `b`: to a bus or not, and the number. A cross-fade still carries
the route it leaves (R183). -/
def State.routeDests (s : State) (b : Nat) : List (Bool × Nat) :=
  ((List.range 2048).flatMap (fun r =>
    let e := s.route r
    (if e.on then [(e.toBus, e.dest)] else []) ++ (e.old.map (fun o => (o.toBus, o.dest))).toList ++
      (s.blockViews b).filterMap (fun i =>
        let (on, _, toBus, dest) := s.routeAt r i
        if on then some (toBus, dest) else none))).eraseDups

/-- The MAINs of an output's bass group have all passed bass management in the block (R189). -/
def State.mainsDone (s : State) (n b : Nat) : Bool :=
  let i := s.blockStart b
  s.fldAt (.out n) Reg.Out.BM_ROLE i ≠ 2 ||
    (List.range s.model.outputs).all (fun m =>
      !(s.fldAt (.out m) Reg.Out.BM_ROLE i = 1 && s.fldAt (.out m) Reg.Out.BM_GROUP i = s.fldAt (.out n) Reg.Out.BM_GROUP i &&
        s.outRuns m b) || (s.out m).preDone = b + 1)

/-- Does the announcement of the same block reach an output (R201)? -/
def State.announced (s : State) (out b : Nat) : Bool :=
  (s.blockViews b).any (fun i => s.announceAt i && s.fldAt (.out out) Reg.Out.ANN_GAIN i ≠ 0) || (s.out out).annOn

/-- Do the bus jobs that feed an output remain, that of the announcement bus among them? -/
def State.busOwing (s : State) (out b : Nat) : Bool :=
  (s.busRuns s.annBus b && Map.get 0 (4096 + s.annBus) s.paths.jobs ≠ b + 1 && s.announced out b) ||
  (List.range s.model.buses).any (fun n =>
    let e := (s.busEngine n).direct
    s.busRuns n b && Map.get 0 (4096 + n) s.paths.jobs ≠ b + 1 &&
      ((e.on && e.dest = out) || e.old.any (·.dest = out) || (s.blockViews b).any (fun i =>
        s.fldAt (.bus n) Reg.Bus.DIRECT_EN i ≠ 0 && s.fldAt (.bus n) Reg.Bus.DIRECT_OUT i = out)))

/-- Has the route job of a destination run, where it has one? -/
def State.routed (s : State) (toBus : Bool) (dest b : Nat) : Bool :=
  !(s.routeDests b).contains (toBus, dest) ||
    Map.get 0 ((if toBus then 3072 else 2048) + dest) s.paths.jobs = b + 1

/-- Outputs and buses whose contributions are now complete become ready (R375, R378). -/
def State.wake (s : State) : State :=
  let b := s.render.block
  if !s.render.released || s.render.late then s
  else
    let s := (List.range s.model.buses).foldl (fun s n =>
      if s.busRuns n b && Map.get 0 (4096 + n) s.paths.jobs ≠ b + 1 && s.routed true n b && !s.flowBusy (0x600 + n) then
        s.pushReady 1 { kind := .bus, flow := 0x600 + n, block := b }
      else s) s
    (List.range s.model.outputs).foldl (fun s n =>
      let e := s.out n
      if s.outRuns n b && e.preDone ≠ b + 1 && !s.flowBusy (0x400 + n) && s.routed false n b &&
          s.mainsDone n b && !s.busOwing n b &&
          ((s.owing n).isEmpty || (s.sched.cutOuts.contains n && (s.owing n).all (fun o => s.classAt o (s.blockStart b) = 2))) then
        s.pushReady (s.outClass n) { kind := .shapePre, flow := 0x400 + n, block := b }
      else if e.preDone = b + 1 && e.postDone ≠ b + 1 && !s.flowBusy (0x400 + n) && e.corr.complete n b (s.blockStart b) then
        s.pushReady (s.outClass n) { kind := .shapePost, flow := 0x400 + n, block := b }
      else s) s

/-- Has an object's flow a Trapeze or pan job of an earlier block before it? Such a job stays ready over the deadline and
goes first in its flow (R20). -/
def State.evaluating (s : State) (n : Nat) : Bool :=
  let held := fun (j : Job) => j.flow = n && (j.kind = .trapeze || j.kind = .pan)
  s.sched.ready.any (held ·.job) || s.sched.service.any (held ·.job)

/-- The evaluation of an object for block `b` becomes ready, once its flow has none of an earlier block left. -/
def State.pushTrapeze (s : State) (n b : Nat) : State :=
  if s.evaluating n then s else s.pushReady (s.classAt n (s.blockStart b)) { kind := .trapeze, flow := n, block := b }

/-- The first jobs of a block become ready (R19, R375). -/
def State.firstJobs (s : State) (b : Nat) : State :=
  let first := s.sched.order
  let s := s.pathObjects.foldl (fun s n => s.pushTrapeze n b) s
  let s := (s.routeDests b).foldl (fun s (toBus, d) =>
    s.pushReady (if toBus then 1 else s.outClass d)
      { kind := .route, flow := (if toBus then 0x600 else 0x400) + d, block := b }) s
  -- They become ready at one moment.
  let ready := s.sched.ready.map (fun r => if first ≤ r.order then { r with order := first } else r)
  let s := { s with sched := { s.sched with ready := ready, leadPhase := ready.any (·.cls = 0) } }
  s.wake

/-- The next slice of an object becomes ready once its far data is there (R161). -/
def State.pushSlice (s : State) (n : Nat) : State :=
  let q := s.pathsOf n
  let b := s.render.block
  if s.render.released && !s.render.late && q.fetching.isEmpty && q.slice * s.sliceSize < s.blockSize && !s.flowBusy n &&
      Map.get 0 (1024 + n) s.paths.jobs = b + 1 && q.sets.any (fun t => !t.paths.isEmpty) then
    s.pushReady (s.classAt n (s.blockStart b)) { kind := .path, flow := n, block := b, slice := q.slice }
  else s

/-- A far request of an object arrives after `cycles` render cycles (R161, R162, R169): with the last one
the slice becomes ready. -/
def execFarFetchDone (n cycles : Nat) (s : State) : Res :=
  let q := s.pathsOf n
  match q.fetching with
  | [] => settle s
  | a :: rest =>
    let s := { s with paths := { s.paths with fetchMax := max s.paths.fetchMax cycles } }
    settle (((s.setPathsOf n { q with fetching := rest }).fetched n a).pushSlice n).dispatch

/-! Grants (R375 to R377) -/

def execEngineAsk (engine left wait : Nat) (s : State) : Res := settle (s.ask engine left wait)

/-! The trace (R382, R383) -/

/-- AUX of a record: units a path job renders, or the tag of a command. -/
def State.traceAux (s : State) (j : Job) : Nat :=
  match j.kind with
  | .path => s.fld (.obj j.flow) Reg.Obj.PATHS_GRANTED
  | .opStep =>
    ((s.seats.flatMap (fun q => q.2.cmds)).find? (fun c => isLong c.opcode && c.started && c.slot + 0x3000 = j.flow)).elim 0 (·.tag)
  | .command => ((s.seat (j.flow - 0x3800)).cmds.find? (fun c => !c.final)).elim 0 (·.tag)
  | _ => 0

/-- A record of a retired job is staged; a full staging buffer of 256 KiB drops it (R383). -/
def State.traceRecord (s : State) (v : Service) (time wait run : Nat) : State :=
  match s.sched.trace with
  | none => s
  | some t =>
    let j := v.job
    if s.fld .trace Reg.Trace.STATE ≠ 1 || !t.classes.testBit v.cls || !t.types.testBit j.kind.code || j.flow < t.first
        || t.last < j.flow then s
    else
      let seq := s.sched.seq
      let s := { s with sched := { s.sched with seq := seq + 1 } }
      if 8192 ≤ s.sched.staged.length then (s.count .trace Reg.Trace.DROPPED).event .trace 1
      else
        let late := s.render.late || j.block < s.render.block
        let cut := j.kind = .path && s.sched.cutOuts.any (fun o => (s.pathsOf j.flow).reaches o) && v.cls = 2
        let flags := (if v.lead then 1 else 0) + (if cut then 2 else 0) + (if late && j.kind.render then 4 else 0)
        let w := [time % 2 ^ 32, time / 2 ^ 32 % 65536 + v.engine * 65536 + j.kind.code * 2 ^ 24,
          j.flow % 65536 + v.cls * 65536 + j.slice % 16 * 2 ^ 20 + seq % 256 * 2 ^ 24, wait, run, j.block,
          s.traceAux j, flags]
        { s with sched := { s.sched with staged := s.sched.staged ++ [w.map (BitVec.ofNat 32)] } }

/-- The ring's next place: the write pointer wraps in RING mode (R383). -/
def State.traceWrite (s : State) (t : TraceRun) (r : List Word) : State :=
  let at_ := s.fld .trace Reg.Trace.WRPTR
  let s := s.bufWords t.handle at_ r
  let next := at_ + 32
  let s := if next = t.size then (s.set .trace Reg.Trace.WRPTR 0).count .trace Reg.Trace.WRAPS
    else s.set .trace Reg.Trace.WRPTR next
  { s with sched := { s.sched with trace := some { t with records := t.records + 1 } } }

/-- Offset of the oldest record. -/
def State.traceOldest (s : State) (t : TraceRun) : Nat :=
  if t.size / 32 ≤ t.records then s.fld .trace Reg.Trace.WRPTR else 0

/-- The trace ends: its operation completes with OK (R383). -/
def State.traceEnd (s : State) (full : Bool) : State :=
  match s.sched.trace with
  | none => s
  | some t =>
    let s := s.finish t.seat t.tag Status.ok t.records (if full then 0 else s.traceOldest t)
    let s := { s with sched := { s.sched with trace := none, staged := [] } }
    if full then (s.set .trace Reg.Trace.STATE 3).event .trace 0 else s.set .trace Reg.Trace.STATE 0

/-- The staging buffer is written out, until a ONESHOT ring is full. -/
def State.traceFlush (s : State) : State :=
  let s := s.sched.staged.foldl (fun s r =>
    match s.sched.trace with
    | some t => if !t.ring && t.size / 32 ≤ t.records then s else s.traceWrite t r
    | none => s) s
  let s := { s with sched := { s.sched with staged := [] } }
  match s.sched.trace with
  | some t => if !t.ring && t.size / 32 ≤ t.records then s.traceEnd true else s
  | none => s

/-- TRACE_START (R383, R407): at most one trace runs. -/
def execTraceStart (seat tag : Nat) (s : State) : Res :=
  settle (s.command seat tag 0x50 (fun c s =>
    let lg := c.n 0 / 256 % 8
    if c.n 0 / 8 % 32 ≠ 0 ∨ c.n 0 / 2048 ≠ 0 ∨ 6 < lg then s.finish c.seat c.tag Status.badParam
    else if s.sched.trace.isSome then s.finish c.seat c.tag Status.busy
    else
      match s.newBuffer c.seat (2 ^ (20 + lg)) with
      | none => s.finish c.seat c.tag Status.noCapacity
      | some (h, s) =>
        let t : TraceRun := {
          seat := c.seat, tag := c.tag, ring := c.flag 0, classes := c.n 0 % 8, types := c.n 1
          first := c.n 2 % 65536, last := c.n 2 / 65536, size := 2 ^ (20 + lg), handle := h }
        let s := { s with sched := { s.sched with trace := some t, staged := [], seq := 0 } }
        let s := (s.set .trace Reg.Trace.STATE 1).set .trace Reg.Trace.WRPTR 0
        s.begin_ c [h]))

/-- One step of TRACE_START: its first step is accepted, later ones cover 1 MiB of records each. -/
def State.stepTrace (s : State) (c : Cmd) : State :=
  if c.accepted then
    let s := s.traceFlush.stepped c.seat c.tag
    match s.cmdOf c.seat c.tag with
    | some c => if c.state = .suspended then s.set .trace Reg.Trace.STATE 2 else s
    | none => s
  else (s.accept c.seat c.tag (c.work.headD 0)).stepped c.seat c.tag

/-- The trace stops without writing its staging buffer: cancelled. Its ring goes unless partial results
are kept. -/
def State.cancelTrace (s : State) (c : Cmd) (keep : Bool) : State :=
  let s := if keep then s.traceFlush else s.freeBuffer (c.work.headD 0)
  ({ s with sched := { s.sched with trace := none, staged := [] } }).set .trace Reg.Trace.STATE 0

/-- TRACE_STOP (R383). -/
def execTraceStop (seat tag : Nat) (s : State) : Res :=
  settle (s.command seat tag 0x51 (fun c s =>
    match s.sched.trace with
    | some t =>
      if t.tag = c.n 0 % 65536 ∧ (t.seat = c.seat ∨ c.seat = 0) then
        let s := s.traceFlush
        let s := if s.sched.trace.isSome then s.traceEnd false else s
        s.finish c.seat c.tag Status.ok
      else s.finish c.seat c.tag Status.badParam
    | none =>
      if s.fld .trace Reg.Trace.STATE = 3 then s.finish c.seat c.tag Status.ok
      else s.finish c.seat c.tag Status.badParam))

/-! Retirement (R161, R375) -/

/-- Once the correction job of block `b` has retired, the groups whose last input it held follow in their own flows: those
that begin with the next block (R208). -/
def State.firstSegments (s : State) (n b : Nat) : State :=
  let c := (s.out n).corr
  let g := s.blockStart (b + 1)
  ((List.range 9).map (· + 1)).foldl (fun s k =>
    match (c.computes (s.blockStart b)).filter (fun m => k ≤ spanOf (c.bank m).taps.length) with
    | [] => s
    | m :: _ => if groupStart n (64 * 2 ^ (k - 1)) g = g then s.pushReady 1 (segJob n b m k 0) else s) s

/-- After a job of a segment's flow: the next piece of the group, or the group of the other bank. -/
def State.nextSegment (s : State) (j : Job) : State :=
  let n := (j.flow - 0x1000) / 16
  let k := j.flow % 16
  let c := (s.out n).corr
  let m := j.slice / 128
  if j.slice % 128 + 1 < segPieces k then s.pushReady 1 { j with slice := j.slice + 1 }
  else match (c.computes (s.blockStart j.block)).filter (fun x => m < x && decide (k ≤ spanOf (c.bank x).taps.length)) with
    | [] => s
    | x :: _ => s.pushReady 1 (segJob n j.block x k 0)

/-- The next job of a flow, once one has retired. -/
def State.nextJob (s : State) (v : Service) : State :=
  let j := v.job
  let b := j.block
  let now := b = s.render.block && !s.render.late
  match j.kind with
  | .trapeze => s.pushReady v.cls { j with kind := .pan }
  | .pan =>
    -- A late evaluation is followed by that of the next block, so that no position or path set skips one (R20).
    if b < s.render.block then
      (if s.pathObjects.contains j.flow then (s.pushTrapeze j.flow (b + 1)).wake else s.wake)
    else ((s.issueNewFetch j.flow b).pushSlice j.flow).wake
  | .path =>
    let s := if (j.slice + 1) * s.sliceSize < s.blockSize then s.issueFetch j.flow b (j.slice + 1)
      else (s.writeTable j.flow b).issueFirst j.flow (b + 1)
    (s.pushSlice j.flow).wake
  | .shapePre => if now then (s.pushReady v.cls { j with kind := .convHead }).wake else s
  | .convHead => if now then (s.firstSegments (j.flow - 0x400) b).wake else s
  | .convSeg => (s.nextSegment j).wake
  | .opStep =>
    match (s.seats.flatMap (fun q => q.2.cmds)).find? (fun c => isLong c.opcode && c.started && !c.final && c.slot + 0x3000 = j.flow) with
    | some c => if c.state = .suspended then s else s.pushReady 2 { j with block := s.render.block }
    | none => s
  | .command =>
    if (s.seat (j.flow - 0x3800)).cmds.any (fun c => !c.started && !c.final) then s.pushReady 2 { j with block := s.render.block }
    else s
  | _ => s.wake

/-- The Lead phase ends when every Lead job of the block has retired (R376, R379); `since` render cycles
have passed since the release. -/
def State.endLead (s : State) (since : Nat) : State :=
  let leads := s.pathObjects.filter (fun n => s.classAt n (s.blockStart s.render.block) = 0)
  let open_ := s.sched.ready.any (·.cls = 0) || s.sched.service.any (·.cls = 0) || leads.any s.objPending ||
    s.sched.leadOuts.any (fun o => s.outRuns o s.render.block && (s.out o).postDone ≠ s.render.block + 1)
  if !s.sched.leadPhase || open_ then s
  else
    let t := min (s.tenthUs since) 0xFFFF
    let s := { s with sched := { s.sched with leadPhase := false } }
    let s := (s.set .ringmaster Reg.Ringmaster.LEAD_DONE_LAST t).peak .ringmaster Reg.Ringmaster.LEAD_DONE_PEAK t
    if s.blockCycles * 3 / 4 < since then s.event .ringmaster 0 else s

/-- A job retires (R375): granted at render cycle `time`, after `wait` cycles ready, it ran `run` cycles
and ends `since` cycles after the release. -/
def State.retire (s : State) (engine time wait run since : Nat) : State :=
  match s.sched.service.find? (·.engine = engine) with
  | none => s
  | some v =>
    let g := engine / 16
    let sc := s.sched
    let s := { s with sched := { sc with
      service := sc.service.filter (·.engine ≠ engine)
      busy := sc.busy.put 0 g (Map.get 0 g sc.busy + run)
      busyExtra := if v.cls = 2 then sc.busyExtra.put 0 g (Map.get 0 g sc.busyExtra + run) else sc.busyExtra } }
    let s := s.traceRecord v time wait run
    let s := s.nextJob v
    let s := s.endLead since
    if v.job.kind = .shapePost ∧ v.job.block = s.render.block ∧ !s.render.late then
      let slack := min (s.tenthUs (s.blockCycles - since)) 0xFFFF
      s.set .render Reg.Render.SLACK_LAST slack
    else s

def execJobRetire (engine time wait run since : Nat) (s : State) : Res :=
  settle (s.retire engine time wait run since).dispatch

/-! The output cut-off and the deadline (R20, R378) -/

/-- At the output cut-off of the block under way, a quarter of a block before its deadline. -/
def State.cutoff (s : State) : State :=
  let b := s.render.block
  if !s.render.released || s.render.late || decide (s.render.rsi + s.blockSize / 4 < s.blockStart (b + 2)) then s
  else
    let s := s.sched.leadOuts.foldl (fun s o =>
      let owing := s.owing o
      if (s.out o).preDone = b + 1 || s.sched.cutOuts.contains o ||
          !owing.any (fun n => s.classAt n (s.blockStart b) = 2) then s
      else
        let s := { s with sched := { s.sched with cutOuts := s.sched.cutOuts ++ [o] } }
        (s.count .render Reg.Render.EXTRA_CUT).event .render 1) s
    s.wake

def execOutputCutoff (s : State) : Res := settle s.cutoff.dispatch

/-- Ready items of the block are withdrawn at its deadline, except Trapeze and pan jobs (R20); a segment's group is due
one block later, with the block that its output begins (R208). -/
def State.withdraw (s : State) : State :=
  s.setReady (s.sched.ready.filter (fun r =>
    !r.job.kind.render || r.job.kind = .trapeze || r.job.kind = .pan ||
      (r.job.kind = .convSeg && s.render.block ≤ r.job.block && s.render.released)))

/-- Loads of the block that ends, at the next release (R379). -/
def State.loads (s : State) : State :=
  let s := (List.range 6).foldl (fun s g =>
    let all := max 1 (s.blockCycles * [4, 8, 8, 16, 16, 4].getD g 0)
    let l := min (Map.get 0 g s.sched.busy * 100 / all) 255
    let x := min (Map.get 0 g s.sched.busyExtra * 100 / all) 255
    ((s.set .ringmaster (Reg.Ringmaster.LOAD_LAST g) l).peak .ringmaster (Reg.Ringmaster.LOAD_PEAK g) l).set .ringmaster
      (Reg.Ringmaster.LOAD_EXTRA g) x) s
  let starved := s.sched.ready.any (fun r => r.cls = 2 && 100 * s.blockSize ≤ s.render.tick - r.tick)
  let s := { s with sched := { s.sched with busy := [], busyExtra := [], extraRes := s.fld .ringmaster Reg.Ringmaster.EXTRA_RES } }
  if starved then s.event .ringmaster 1 else s

/-! The bus matrix (R385, R386) -/

/-- Is the master ordered? -/
def orderedMaster (m : Nat) : Bool := m = 5 || m = 6 || m = 7 || m = 8 || m = 9

/-- Effective priority of a waiting request. -/
def State.reqPrio (s : State) (r : MatrixReq) : Nat :=
  if r.aged then 15 else s.fld .busMatrix (Reg.BusMatrix.PRIO r.master r.target)

/-- Requests a target may serve: not held, and the oldest of their master there. -/
def State.reqReady (s : State) (t : Nat) : List MatrixReq :=
  let l := s.sched.waiting.filter (·.target = t)
  (List.range 13).filterMap (fun m => (l.find? (·.master = m)).bind (fun r => if r.held then none else some r))

/-- How far round the rotation of a target a master stands. -/
def State.turn (s : State) (t m : Nat) : Nat := (m + 13 - (Map.get 0 t s.sched.served + 1) % 13) % 13

/-- The request a target serves next: the highest priority, equal ones in rotation. -/
def State.winner (s : State) (t : Nat) : Option MatrixReq :=
  (s.reqReady t).foldl (fun (w : Option MatrixReq) r =>
    match w with
    | none => some r
    | some x =>
      if s.reqPrio x < s.reqPrio r || (s.reqPrio x = s.reqPrio r && s.turn t r.master < s.turn t x.master) then some r
      else some x) none

/-- A request of master `m` reaches target `t`, which then serves one. `unacked`: the master has an
unacknowledged write to another target; `room`: the response credit of rule 3 is there; `waited`: the
target cycles the request served has waited. -/
def State.matrixRequest (s : State) (m t : Nat) (write unacked room : Bool) (waited : Nat) : State :=
  if 13 ≤ m ∨ 12 ≤ t then s
  else
    let held := (orderedMaster m && unacked) || !room
    let s := if held then s.count .busMatrix (Reg.BusMatrix.HOLD_COUNT m) else s
    let free := s.sched.waiting.map (fun r => if r.master = m && !held then { r with held := false } else r)
    let s := { s with sched := { s.sched with waiting := free ++ [{ master := m, target := t, write := write, held := held }] } }
    match s.winner t with
    | none => s
    | some r =>
      let s := { s with sched := { s.sched with
        waiting := s.sched.waiting.erase r, served := s.sched.served.put 0 t r.master } }
      -- A request of any master but the parked one is accepted one cycle after it arrives (R385).
      let waited := if s.fld .busMatrix (Reg.BusMatrix.PARK t) = r.master then waited else max 1 waited
      let s := if !r.aged && s.fld .busMatrix Reg.BusMatrix.AGE_LIMIT ≤ waited then s.event .busMatrix 0 else s
      s.peak .busMatrix (Reg.BusMatrix.WAIT_PEAK r.master) waited

def execMatrixRequest (m t : Nat) (write unacked room : Bool) (waited : Nat) (s : State) : Res :=
  settle (s.matrixRequest m t write unacked room waited)

/-- The oldest waiting request of a master at a target has waited AGE_LIMIT cycles. -/
def execAged (m t : Nat) (s : State) : Res :=
  match s.sched.waiting.find? (fun r => r.master = m && r.target = t && !r.aged) with
  | none => settle s
  | some r =>
    let l := s.sched.waiting.map (fun x => if x = r then { x with aged := true } else x)
    settle (({ s with sched := { s.sched with waiting := l } }).event .busMatrix 0)

end Sys2Proof.Machine
end

