-- ==== Sys2Proof/Machine/Window.lean ====
section
/-! DEFINITION. The register window: what an address names (R42 to R46, R51 to R56, R65, R325, R334). -/

namespace Sys2Proof.Machine

open Sys2Proof

/-- What a word address of the window names. -/
inductive Place where
  /-- A header word of a page. -/
  | header (b : Blk) (off : Nat)
  /-- A record owner or group word of a table page (R51). -/
  | recWord (b : Blk) (off : Nat)
  /-- A word of a page or record: staged view, or the only view. -/
  | word (b : Blk) (off : Nat)
  /-- The same word of the active image. -/
  | image (b : Blk) (off : Nat)
  /-- A word of the classifier program, by its byte offset, staged or active (R334). -/
  | prog (p : Nat) (off : Nat) (active : Bool)
  /-- The image of a record owner or group word in the active view (R56). -/
  | recImage (b : Blk) (off : Nat)
  /-- A word of the MAP entries of a seat's Callboard page (R460), and its image in the active view. -/
  | map (seat w : Nat)
  | mapImage (seat w : Nat)
  /-- Words of the flat arrays (R44). -/
  | motion (w : Nat)
  | cue (w : Nat)
  | table (w : Nat)
  /-- A reserved offset of a page, and an address outside every page. -/
  | reserved (b : Blk) (off : Nat)
  | nowhere
  deriving DecidableEq, Repr

/-- A page of a table of records. -/
def isTable : Blk → Bool
  | .objPage _ | .outPage _ | .busPage _ | .routePage _ | .inPage _ | .egPage _ => true
  | _ => false

/-- Record `i` of a table page: direct routes and streams through their window (R52, R325). -/
def State.recordOf (s : State) (b : Blk) (i : Nat) : Blk :=
  match b with
  | .objPage n => .obj (8 * n + i)
  | .outPage n => .out (8 * n + i)
  | .busPage n => .bus (8 * n + i)
  | .routePage n => .route (512 * n + 8 * s.fld b Reg.RoutePage.WINDOW_BASE + i)
  | .inPage n => .ingress (64 * n + 8 * s.fld b Reg.Streams.WINDOW_BASE + i)
  | .egPage n => .egress (64 * n + 8 * s.fld b Reg.Streams.WINDOW_BASE + i)
  | b => b

/-- Is a word of the UPDATE page the reader's own (R65)? -/
def updateOwn (off : Nat) : Bool :=
  off = 0x0C || off = 0x10 || off = 0x14 || off = 0x18 || (0x40 ≤ off && off < 0x64)

/-- Where the four words of a time value lie in a page: device time in MEDIACLK (R370), instance time in TIMEA and
TIMEB (R369). -/
def timeWords : Blk → Option Nat
  | .mediaClk => some 0x130
  | .time _ => some 0x124
  | _ => none

/-- Which word of a time value lies at an offset (R348). -/
def timeIndex (b : Blk) (off : Nat) : Option Nat :=
  (timeWords b).bind (fun o => if o ≤ off ∧ off < o + 16 then some ((off - o) / 4) else none)

/-- Does the unit have a field in the word at an offset? -/
def hasWord (b : Blk) (off : Nat) : Bool := b.fields.any (·.off = off) || (timeIndex b off).isSome

/-- What an address names for an accessor speaking for seat `self`; the low two bits are ignored. -/
def State.resolve (s : State) (self addr : Nat) : Place :=
  let a := addr / 4 * 4
  if 0x200000 ≤ a ∧ a < 0x240000 then .motion ((a - 0x200000) / 4)
  else if 0x240000 ≤ a ∧ a < 0x260000 then .cue ((a - 0x240000) / 4)
  else if 0x400000 ≤ a ∧ a < 0x500000 then .table ((a - 0x400000) / 4)
  else
    let off := a % 4096
    match pageAt self (a / 4096) with
    | none => .nowhere
    | some .update =>
      let b := if updateOwn off then Blk.updateBank self else .update
      if off < 0x2C then .header b off
      else if hasWord b off then .word b off
      else
        let b := if updateOwn (off - 0x800) then Blk.updateBank self else .update
        if 0x840 ≤ off ∧ hasWord b (off - 0x800) then .image b (off - 0x800) else .reserved .update off
    | some b =>
      if off < 0x2C then .header b off
      else if isTable b then
        if 0x40 ≤ off ∧ off < 0x50 then .recWord b off
        else if 0x840 ≤ off ∧ off < 0x850 then .recImage b (off - 0x800)
        else if 0x400 ≤ off ∧ off < 0x800 then
          let r := s.recordOf b ((off - 0x400) / 0x80)
          if hasWord r (off % 0x80) then .word r (off % 0x80) else .reserved b off
        else if 0xC00 ≤ off then
          let r := s.recordOf b ((off - 0xC00) / 0x80)
          if hasWord r (off % 0x80) then .image r (off % 0x80) else .reserved b off
        else if off < 0x400 ∧ hasWord b off then .word b off
        else if 0x840 ≤ off ∧ off < 0xC00 ∧ hasWord b (off - 0x800) then .image b (off - 0x800)
        else .reserved b off
      else
        match b with
        | .ethCls p =>
          let w := s.fld b Reg.EthCls.WINDOW * 0x400
          if 0x400 ≤ off ∧ off < 0x800 then .prog p (w + off - 0x400) false
          else if 0xC00 ≤ off then .prog p (w + off - 0xC00) true
          else if off < 0x800 ∧ hasWord b off then .word b off
          else if 0x840 ≤ off ∧ hasWord b (off - 0x800) then .image b (off - 0x800)
          else .reserved b off
        | _ =>
          if off < 0x800 ∧ hasWord b off then .word b off
          else match b with
          | .callSeat q =>
            if 0x400 ≤ off ∧ off < 0x500 then .map q ((off - 0x400) / 4)
            else if 0xC00 ≤ off ∧ off < 0xD00 then .mapImage q ((off - 0xC00) / 4)
            else if 0x840 ≤ off ∧ hasWord b (off - 0x800) then .image b (off - 0x800)
            else .reserved b off
          | _ => if 0x840 ≤ off ∧ hasWord b (off - 0x800) then .image b (off - 0x800)
          else .reserved b off

/-- The record whose owner or group byte `k` (0 to 3) of a record word holds (R51). -/
def State.recByte (s : State) (b : Blk) (off k : Nat) : Blk :=
  s.recordOf b ((off - 0x40) / 4 % 2 * 4 + k)

end Sys2Proof.Machine
end

