-- ==== Sys2Proof/Machine/Cue.lean ====
section
/-! DEFINITION. Prompters' registers, contacts and timecode, the encoding of cue programs, CUE_LOAD
(R426 to R439). -/

namespace Sys2Proof.Machine

open Sys2Proof

/-! The Prompter's state -/

def State.pr (s : State) (n : Nat) : PrompterEngine := Map.get ({} : PrompterEngine) n s.prompters

/-- Replace a Prompter; the depths follow. -/
def State.setPr (s : State) (n : Nat) (e : PrompterEngine) : State :=
  let s := { s with prompters := s.prompters.put ({} : PrompterEngine) n e }
  (s.set (.prompter n) Reg.Prompter.CALL_DEPTH e.calls.length).set (.prompter n) Reg.Prompter.LOOP_DEPTH e.loops.length

/-- STATE codes: 0 IDLE, 1 RUNNING, 2 WAITING, 3 HALTED, 4 FAULT. -/
def State.prState (s : State) (n : Nat) : Nat := s.fld (.prompter n) Reg.Prompter.STATE

def State.setPrState (s : State) (n v : Nat) : State := s.set (.prompter n) Reg.Prompter.STATE v

/-- Neither IDLE nor HALTED nor FAULT. -/
def State.prActive (s : State) (n : Nat) : Bool := s.prState n = 1 || s.prState n = 2

def State.prMark (s : State) (n : Nat) : Nat := s.fld64 (.prompter n) Reg.Prompter.MARK_LO Reg.Prompter.MARK_HI

def State.setMark (s : State) (n v : Nat) : State := s.set64 (.prompter n) Reg.Prompter.MARK_LO Reg.Prompter.MARK_HI v

/-- A Prompter enters FAULT (R433). -/
def State.prFault (s : State) (n code : Nat) : State :=
  ((((s.setPrState n 4).set (.prompter n) Reg.Prompter.FAULT code).set (.prompter n) Reg.Prompter.WAIT_KIND 0).event
    (.prompter n) 2).setPr n { s.pr n with wait := none, edge := none, runOver := true }

/-- The index scale restarts: a Prompter that runs faults with RSI_RESTART (R381, R433). -/
def State.promptersRestart (s : State) : State :=
  (List.range s.model.prompters).foldl (fun s n =>
    let s := if s.prActive n then s.prFault n 7 else s
    s.setPr n { s.pr n with run := 0, clearedIn := 0 }) s

/-- CTRL.START and CTRL.STOP wait for the next block boundary; while no render runs there is none. -/
def State.prAsk (s : State) (n : Nat) (start : Bool) : State := s.setPr n { s.pr n with ask := some start }

def execPrompterStart (n : Nat) (s : State) : Res := settle (if n < s.model.prompters then s.prAsk n true else s)

def execPrompterStop (n : Nat) (s : State) : Res := settle (if n < s.model.prompters then s.prAsk n false else s)

/-- Starts and stops are taken at the block boundary whose first sample is `i` (R435). -/
def State.promptersBoundary (s : State) (i : Nat) : State :=
  (List.range s.model.prompters).foldl (fun s n =>
    match (s.pr n).ask with
    | none => s
    | some start =>
      let s := s.setPr n { s.pr n with ask := none, calls := if start then [] else (s.pr n).calls
                                       loops := if start then [] else (s.pr n).loops, wait := none, edge := none }
      let s := (s.set (.prompter n) Reg.Prompter.WAIT_KIND 0).set (.prompter n) Reg.Prompter.FAULT 0
      if start then
        ((s.setPrState n 1).set (.prompter n) Reg.Prompter.PC (s.fld (.prompter n) Reg.Prompter.ENTRY)).setMark n i
      else s.setPrState n 0) s

/-- Set cue flags: a flag cleared in the run under way stays clear (R429). -/
def State.cueFlagsSet (s : State) (n bits : Nat) : State :=
  let e := s.pr n
  let bits := if e.clearedIn = s.render.rsi / s.blockSize + 1 then bits &&& (0xFFFF ^^^ e.cleared) else bits
  s.set (.prompter n) Reg.Prompter.FLAGS (s.fld (.prompter n) Reg.Prompter.FLAGS ||| bits)

/-- Clear cue flags. -/
def State.cueFlagsClr (s : State) (n bits : Nat) : State :=
  let e := s.pr n
  let now := s.render.rsi / s.blockSize + 1
  let s := s.setPr n { e with clearedIn := now, cleared := (if e.clearedIn = now then e.cleared else 0) ||| bits }
  s.set (.prompter n) Reg.Prompter.FLAGS (s.fld (.prompter n) Reg.Prompter.FLAGS &&& (0xFFFF ^^^ (bits % 65536)))

def execCueFlagsSet (n bits : Nat) (s : State) : Res :=
  settle (if n < s.model.prompters then s.cueFlagsSet n (bits % 65536) else s)

def execCueFlagsClr (n bits : Nat) (s : State) : Res :=
  settle (if n < s.model.prompters then s.cueFlagsClr n (bits % 65536) else s)

/-- Every field of a Prompter page at its reset value (R435). -/
def State.resetPage (s : State) (b : Blk) : State :=
  let inside := fun k => decide (b.base + 0x40 ≤ k ∧ k < b.base + 0x800)
  (s.withAct (Map.drop inside s.fab.act)).withStg (Map.drop inside s.fab.stg)

/-- A seat reset's part in its Prompter (R435, R449). -/
def State.prReset (s : State) (n : Nat) : State :=
  { (s.resetPage (.prompter n)) with prompters := s.prompters.put ({} : PrompterEngine) n {} }

/-! Contacts (R436) -/

def State.pin (s : State) (k : Nat) : GpioPin := Map.get ({} : GpioPin) k s.gpio

/-- GPIO.LEVEL: debounced levels after POL. -/
def State.showGpio (s : State) : State :=
  let lv := (List.range 16).foldl (fun m k => if (s.pin k).level then m + 2 ^ k else m) 0
  s.set .prompterGlobal Reg.PrompterGlobal.GPIO_LEVEL (lv ^^^ s.fld .prompterGlobal Reg.PrompterGlobal.GPIO_POL)

/-- A pin changes level: its debounce starts, or a change under debounce is undone. -/
def execGpioChange (k : Nat) (level : Bool) (s : State) : Res :=
  if 16 ≤ k ∨ (s.pin k).raw = level then settle s
  else
    let p := s.pin k
    let since := if level = p.level then none else some (s.render.rsi + 1)
    settle { s with gpio := s.gpio.put ({} : GpioPin) k { p with
      raw := level, since := since, tick := s.render.tick + 1 } }

/-- A change has lasted DEBOUNCE: the edge is recorded, and a Prompter that waits for it sees it. -/
def execDebouncedEdge (k : Nat) (s : State) : Res :=
  let p := s.pin k
  match p.since with
  | none => settle s
  | some at_ =>
    if s.render.tick < p.tick + s.rampSamples (s.fld .prompterGlobal (Reg.PrompterGlobal.DEBOUNCE k)) then settle s
    else
      let s := ({ s with gpio := s.gpio.put ({} : GpioPin) k { p with level := p.raw, since := none } }).showGpio
      let rising := p.raw != (s.fld .prompterGlobal Reg.PrompterGlobal.GPIO_POL).testBit k
      let dir := s.fld .prompterGlobal Reg.PrompterGlobal.GPIO_EDGE_DIR
      let dir := if rising then dir ||| 2 ^ k else dir &&& (0xFFFF ^^^ 2 ^ k)
      let s := s.set .prompterGlobal Reg.PrompterGlobal.GPIO_EDGE_DIR dir
      let s := s.set64 .prompterGlobal (Reg.PrompterGlobal.EDGE_AT_LO k) (Reg.PrompterGlobal.EDGE_AT_HI k) at_
      let s := s.event .prompterGlobal 3
      settle ((List.range s.model.prompters).foldl (fun s n =>
        let e := s.pr n
        let pc := s.fld (.prompter n) Reg.Prompter.PC
        let w := (Map.get 0#32 (4096 * n + pc) s.cue).toNat
        let want := w / 65536 % 4
        match e.wait, e.edge with
        | some from_, none =>
          if s.fld (.prompter n) Reg.Prompter.WAIT_KIND = 4 ∧ w % 16 = k ∧ from_ ≤ at_ ∧
              (want = 2 ∨ (want = 0) = rising) then s.setPr n { e with edge := some at_ }
          else s
        | _, _ => s) s)

/-! Timecode (R437) -/

/-- Frame number of a label at a rate code, and frames in a day. -/
def tcFrame (rate : Nat) (l : Nat) : Nat :=
  let h := l / 2 ^ 24
  let m := l / 65536 % 256
  let sec := l / 256 % 256
  let f := l % 256
  let fps := [24, 25, 30, 30].getD rate 30
  let mins := h * 60 + m
  let n := (mins * 60 + sec) * fps + f
  if rate = 2 then n - 2 * (mins - mins / 10) else n

def tcDay (rate : Nat) : Nat := [24 * 86400, 25 * 86400, 30 * 86400 - 2592, 30 * 86400].getD rate 1

/-- A word of timecode, its bit 0 stamped in 1/256 render sample. -/
def State.tcWord (s : State) (label stamp rate : Nat) (reverse : Bool) (user : Nat) : State :=
  let t := s.tc
  let f := tcFrame rate label % tcDay rate
  let g := Blk.prompterGlobal
  let s := (s.set g Reg.PrompterGlobal.TC_LABEL label).set64 g Reg.PrompterGlobal.TC_EDGE_LO Reg.PrompterGlobal.TC_EDGE_HI stamp
  let s := ((s.set g Reg.PrompterGlobal.TC_RATE rate).setBit g Reg.PrompterGlobal.TC_REVERSE reverse).set g
    Reg.PrompterGlobal.TC_USERBITS user
  let step : Nat := match t.frame with
    | some o => if reverse then (o + tcDay rate - f) % tcDay rate else (f + tcDay rate - o) % tcDay rate
    | none => 1
  let jump := t.frame.isSome && step ≠ 1
  let words := if jump || t.frame.isNone then 1 else t.words + 1
  let period : Option Int := if jump || t.frame.isNone then t.period else some ((stamp : Int) - t.stamp)
  let s := match t.period, jump with
    | some d, false => s.set g Reg.PrompterGlobal.TC_ERROR (unsigned 32 (((stamp : Int) - t.stamp - d) * 256))
    | _, _ => s
  let s := { s with tc := { words := words, frame := some f, stamp := stamp, period := period, missed := 0 } }
  let s := if jump then s.event g 2 else s
  if 8 ≤ words && !s.bit g Reg.PrompterGlobal.TC_LOCKED then (s.set g Reg.PrompterGlobal.TC_LOCKED 1).event g 0 else s

def execTcWord (label stamp rate : Nat) (reverse : Bool) (user : Nat) (s : State) : Res :=
  settle (if s.bit .prompterGlobal Reg.PrompterGlobal.TC_EN && rate < 4 then s.tcWord label stamp rate reverse user else s)

/-- Two words in a row are missing or invalid. -/
def execTcLoss (s : State) : Res :=
  let s' := { s with tc := { s.tc with words := 0, frame := none, period := none } }
  settle (if s.bit .prompterGlobal Reg.PrompterGlobal.TC_LOCKED then
    (s'.set .prompterGlobal Reg.PrompterGlobal.TC_LOCKED 0).event .prompterGlobal 1 else s')

/-! Encoding (R428) -/

/-- A cue instruction. Offsets are signed. -/
inductive CueInstr where
  | halt (notify : Bool)
  | waitTime (sec ns : Nat)
  | waitRsi (at_ : Nat)
  | waitRel (delta : Int)
  | waitTc (atLeast : Bool) (label : Nat)
  | waitGpio (edge pin : Nat)
  | waitFlag (clear : Bool) (k : Nat)
  | strobeMark (mask : Nat) (delta : Int)
  | strobeRsi (mask at_ : Nat)
  | strobeNext (mask : Nat)
  | write (addr value : Nat) (mask : Option Nat)
  | motion (clear : Bool) (first flags count : Nat)
  | signalHost (code : Nat)
  | signalFlag (flag to_ : Nat)
  | branch (off : Int) (cond : Nat) (not_ : Bool)
  | jump (off : Int)
  | call (off : Int)
  | ret
  | loop (count : Nat)
  | loopEnd
  deriving DecidableEq, Repr

/-- Decode the instruction whose words start a list: the instruction and how many words it has; none
where the first word has a reserved opcode, a wrong NOPS or a reserved bit, or names a reserved
condition or code (R428, R432). -/
def cueDecode (ws : List Word) : Option (CueInstr × Nat) :=
  let w := (ws.headD 0#32)
  let op := bitsOf w 31 26
  let nops := bitsOf w 25 22
  let mode := bitsOf w 21 16
  let imm := bitsOf w 15 0
  let x := fun k => (ws.getD (k + 1) 0#32).toNat
  let off := signed 16 imm
  let need := fun (k : Nat) (ok : Bool) (i : CueInstr) => if nops = k && ok then some (i, k + 1) else none
  match op with
  | 0x00 => need 0 (mode < 2 && imm = 0) (.halt (mode = 1))
  | 0x01 => need 3 (mode = 0 && imm = 0) (.waitTime (x 0 + 2 ^ 32 * x 1) (x 2))
  | 0x02 =>
    if mode = 1 then need 1 (imm = 0) (.waitRel (signed 32 (x 0)))
    else need 2 (mode = 0 && imm = 0) (.waitRsi (x 0 + 2 ^ 32 * x 1))
  | 0x03 => need 1 (mode < 2 && imm = 0) (.waitTc (mode = 1) (x 0))
  | 0x04 => need 0 (mode < 3 && imm < 16) (.waitGpio mode imm)
  | 0x05 => need 0 (mode < 2 && imm < 16) (.waitFlag (mode = 1) imm)
  | 0x06 =>
    match mode with
    | 0 => need 2 (imm = 0) (.strobeMark (x 0) (signed 32 (x 1)))
    | 1 => need 3 (imm = 0) (.strobeRsi (x 0) (x 1 + 2 ^ 32 * x 2))
    | 2 => need 1 (imm = 0) (.strobeNext (x 0))
    | _ => none
  | 0x07 =>
    if mode = 1 then need 3 (imm = 0) (.write (x 0) (x 1) (some (x 2)))
    else need 2 (mode = 0 && imm = 0) (.write (x 0) (x 1) none)
  | 0x08 => need 1 (mode < 2 && imm < 1024) (.motion (mode = 1) imm (x 0 % 256) (x 0 / 65536 % 2048))
  | 0x09 =>
    match mode with
    | 0 => need 0 (imm < 0xFF) (.signalHost imm)
    | 1 => need 0 (imm % 256 < 16 && imm / 2048 = 0) (.signalFlag (imm % 16) (imm / 256 % 8))
    | _ => none
  | 0x0A => need 1 (mode = 0 && x 0 % 256 ≤ 0x24) (.branch off (x 0 % 256) ((x 0).testBit 8))
  | 0x0B => need 0 (mode = 0) (.jump off)
  | 0x0C => need 0 (mode = 0) (.call off)
  | 0x0D => need 0 (mode = 0 && imm = 0) .ret
  | 0x0E => if mode = 1 then need 0 (imm = 0) .loopEnd else need 0 (mode = 0) (.loop imm)
  | _ => none

/-! CUE_LOAD (R434) -/

/-- May a WRITE of a cue program name the address: a page or record that a seat may write, RW or RWI,
outside the excluded pages and the flat arrays? -/
def State.cueAddress (s : State) (seat addr : Nat) : Bool :=
  let open_ := fun (b : Blk) => match b with
    | .device | .update | .updateBank _ | .seat _ | .callGlobal | .callSeat _ | .resetPage | .prompterGlobal
    | .prompter _ => false
    | _ => true
  let writable := fun (b : Blk) (off : Nat) =>
    b.allFields.any (fun f => f.off = off && (f.acc = .rw || f.acc = .rwi))
  match s.resolve seat addr with
  | .header b off => open_ b && b.present s.model && writable b off
  | .recWord b off => b.present s.model && 0x48 ≤ off
  | .word b off => open_ b && b.present s.model && writable b off
  | .prog p _ active => !active && p < s.model.eths
  | _ => false

/-- Does an instruction at word `at_` keep to the rules of R434? -/
def State.cueSound (s : State) (seat at_ : Nat) (i : CueInstr) : Bool :=
  let inside := fun (off : Int) => decide (0 ≤ (at_ : Int) + off ∧ (at_ : Int) + off < 4096)
  match i with
  | .branch off _ _ | .jump off | .call off => inside off
  | .write addr _ _ => s.cueAddress seat addr
  | .motion _ _ _ count => decide (1 ≤ count ∧ count ≤ 1024)
  | _ => true

/-- The first bad word of `ws`, loaded at `base`. -/
def State.cueFault (s : State) (seat base : Nat) (ws : List Word) : Nat → Nat → Option Nat
  | 0, _ => none
  | fuel + 1, at_ =>
    if ws.length ≤ at_ then none
    else
      match cueDecode (ws.drop at_) with
      | none => some at_
      | some (i, len) =>
        if ws.length < at_ + len || !s.cueSound seat (base + at_) i then some at_
        else State.cueFault s seat base ws fuel (at_ + len)

/-- Does a range of words hold the PC or a stack address of a Prompter that runs? -/
def State.cueBusy (s : State) (seat base n : Nat) : Bool :=
  let e := s.pr seat
  s.prActive seat && ((s.fld (.prompter seat) Reg.Prompter.PC :: e.calls) ++ e.loops.map (·.1)).any
    (fun a => base ≤ a && a < base + n)

def execCueLoad (seat tag : Nat) (data : List Byte) (s : State) : Res :=
  settle (s.command seat tag 0x59 (fun c s =>
    let base := c.n 0
    let n := c.n 4 / 4
    if 4096 ≤ base ∨ 4096 < base + n then s.finish c.seat c.tag Status.badParam
    else
      match s.sourceFault c 1 with
      | some e => s.finish c.seat c.tag e
      | none =>
        match s.sourceBytes c 1 data with
        | none => s.setCmd { c with started := false }
        | some bs =>
          let ws := (List.range n).map (fun k => word32 (bs.drop (4 * k)))
          match s.cueFault c.seat base ws n 0 with
          | some o => s.finish c.seat c.tag Status.badParam o
          | none =>
            if s.cueBusy c.seat base n then s.finish c.seat c.tag Status.busy
            else
              let cue := ws.zipIdx.foldl (fun (m : Map Word) (w, k) => m.put 0#32 (4096 * c.seat + base + k) w) s.cue
              (({ s with cue := cue }).forwardFile c bs).finish c.seat c.tag Status.ok n))

end Sys2Proof.Machine
end

