-- ==== Sys2Proof/Machine/Measure.lean ====
section
/-! DEFINITION. Measurement campaigns, their journal, and programme correlation (R247 to R260). -/

namespace Sys2Proof.Machine

open Sys2Proof

/-! What the MEASURE page shows (R259) -/

def CampPhase.code : CampPhase → Nat
  | .held => 3
  | .waitCurtain => 4
  | .ended => 0
  | _ => 1

/-- N: the steps of a campaign. -/
def CampDesc.total (d : CampDesc) : Nat := d.outs.length * d.sets.length

/-- The campaign changes; the LOCKSTEP principal forwards what it puts into its outputs (R248). -/
def State.setCampaign (s : State) (c : Option Campaign) : State :=
  let was := s.excites
  let s := { s with measure := { s.measure with campaign := c } }
  if s.lockPri && s.excites ≠ was then s.tellPeer (.excite s.excites) else s

def State.setProbe (s : State) (p : Option Probe) : State :=
  { s with measure := { s.measure with probe := p } }

/-- Is a campaign there that is not over (a HELD one counts)? -/
def State.campaignThere (s : State) : Bool := s.measure.campaign.any (fun c => c.phase ≠ .ended)

def State.showMeasure (s : State) : State :=
  let c := s.measure.campaign.filter (fun c => c.phase ≠ .ended)
  let g := fun (f : Campaign → Nat) => (c.map f).getD 0
  let s := s.set .measure Reg.Measure.STATE
    (match c with | some c => c.phase.code | none => if s.measure.probe.isSome then 2 else 0)
  let s := s.set .measure Reg.Measure.HANDLE (g (·.handle))
  let s := s.set .measure Reg.Measure.STEP_DONE (g (·.stepDone))
  let s := s.set .measure Reg.Measure.STEP_TOTAL (g (fun c => c.desc.total))
  let s := s.set .measure Reg.Measure.NOW_OUTPUT (g (fun c => c.desc.stepOut c.step))
  let s := s.set .measure Reg.Measure.NOW_SET (g (fun c => c.desc.stepSet c.step))
  s.set .measure Reg.Measure.NOW_PLAY (g (·.play))

/-- The first block boundary after the present sample. -/
def State.nextBoundary (s : State) : Nat := (s.render.rsi / s.blockSize + 1) * s.blockSize

/-- The first block boundary at or after a sample. -/
def State.boundaryFrom (s : State) (i : Nat) : Nat := (i + s.blockSize - 1) / s.blockSize * s.blockSize

/-! The campaign descriptor (R247, R248) -/

def campOuts (f : List Byte) : Nat := leAt f 0x06 2
def campMaskOff (f : List Byte) (k : Nat) : Nat := 64 + (2 * campOuts f + 3) / 4 * 4 + 8 * k

def campDesc (f : List Byte) : CampDesc :=
  { outs := (List.range (campOuts f)).map (fun k => leAt f (64 + 2 * k) 2)
    sets := (List.range (leAt f 8 1)).map (fun k => leAt f (campMaskOff f k) 8)
    exc := leAt f 9 1, averages := leAt f 0x0A 2, level := leAt f 0x0C 4, f1 := leAt f 0x10 4
    f2 := leAt f 0x14 4, excLog2 := leAt f 0x18 1, irLog2 := leAt f 0x19 1, postCorr := leAt f 0x1A 1 = 1
    pauseAtSet := leAt f 0x1B 1 % 2 = 1, keepDcb := leAt f 0x1B 1 / 2 % 2 = 1, gap := leAt f 0x1C 2
    fade := leAt f 0x1E 2, pre := leAt f 0x20 2, seed := leAt f 0x24 4, crc := BitVec.ofNat 32 (leAt f 0x3C 4) }

/-- The first fault of a descriptor: a byte offset (R248). A wrong length is reported as R594 reports
it for a layout (entry 8 of the log). -/
def campFault (fs : Nat) (f : List Byte) : Option Nat :=
  let d := campDesc f
  let n := campOuts f
  let exc := d.exc
  let len := campMaskOff f (leAt f 8 1)
  let zeros := fun o k => ((f.drop o).take k).any (· ≠ 0#8)
  let e2 : Bool := match exc with
    | 1 => d.excLog2 < 12 || 20 < d.excLog2
    | 2 => d.excLog2 < 10 || 16 < d.excLog2 || d.excLog2 ≠ d.irLog2
    | _ => d.excLog2 ≠ d.irLog2
  let head : List (Bool × Nat) :=
    [ (decide (leAt f 0 4 ≠ 0x43414D50), 0), (decide (leAt f 4 2 ≠ 1), 4), (decide (n < 1 ∨ 512 < n), 6),
      (decide (leAt f 8 1 < 1 ∨ 4 < leAt f 8 1), 8), (decide (exc < 1 ∨ 3 < exc), 9),
      (decide (d.averages < 1 ∨ 64 < d.averages), 0x0A), (decide (0x10000000 < d.level), 0x0C),
      (decide (exc = 1 ∧ d.f1 < 10 * 65536), 0x10),
      (decide (exc = 1 ∧ (d.f2 ≤ d.f1 ∨ 45 * fs * 65536 < 100 * d.f2)), 0x14), (e2, 0x18),
      (decide (d.irLog2 < 10 ∨ 16 < d.irLog2), 0x19), (decide (1 < leAt f 0x1A 1), 0x1A),
      (decide (3 < leAt f 0x1B 1), 0x1B),
      (decide (60000 < d.gap ∨ (exc ≠ 2 ∧ d.gapSamples (fs / 48000) < 2 ^ d.irLog2)), 0x1C),
      (decide (4096 < d.pre ∨ d.pre % 64 ≠ 0), 0x20), (zeros 0x22 2, 0x22), (zeros 0x28 20, 0x28),
      (decide ((crcWithout f 0x3C).toNat ≠ leAt f 0x3C 4), 0x3C) ]
  let outs : List (Bool × Nat) := (List.range (min n 512)).map (fun k =>
    ((List.range k).any (fun j => d.outs.getD j 0 = d.outs.getD k 0), 64 + 2 * k))
  let pad : List (Bool × Nat) := [(n % 2 = 1 && zeros (64 + 2 * n) 2, 64 + 2 * n)]
  let masks : List (Bool × Nat) := (List.range (min 4 (leAt f 8 1))).map (fun k =>
    let m := leAt f (campMaskOff f k) 8
    (decide (2 ^ 56 ≤ m ∨ 16 < (chainsOf m).length), campMaskOff f k))
  ((head ++ outs ++ pad ++ masks ++ [(decide (f.length ≠ len), min f.length len)]).find? (·.1)).map (·.2)

/-- All chains of a campaign. -/
def CampDesc.chains (d : CampDesc) : Nat := d.sets.foldl (· ||| ·) 0

/-- RB: bytes of an IR record (R253). -/
def CampDesc.recordBytes (d : CampDesc) : Nat := 32 + 4 * (d.pre + 2 ^ d.irLog2)

/-- Byte offset of the record of the `j`-th chain of step `i`. -/
def CampDesc.recordAt (d : CampDesc) (i j : Nat) : Nat :=
  let before := (d.sets.take (d.stepSet i)).foldl (fun a m => a + d.outs.length * (chainsOf m).length) 0
  let own := (chainsOf (d.sets.getD (d.stepSet i) 0)).length
  64 + d.recordBytes * (before + (i % d.outs.length) * own + j)

def CampDesc.bufferBytes (d : CampDesc) : Nat :=
  64 + d.recordBytes * d.sets.foldl (fun a m => a + d.outs.length * (chainsOf m).length) 0

/-- The refusal of R248 after the descriptor's own faults: a status. An absent unit goes before one over capacity (R7). -/
def State.unitsFault (s : State) (seat : Nat) (outs : List Nat) (chains : Nat) : Option Nat :=
  if outs.any (fun n => s.model.outputs ≤ n) then some Status.absentUnit
  else match s.chainsFault chains true with
    | some st => some st
    | none =>
      if outs.any (fun n => s.nowOutputs ≤ n) then some Status.noCapacity
      else if outs.any (fun n => !s.owns seat (.out n)) then some Status.notOwner
      else none

/-! The journal (R254) -/

/-- What a copy holds beside its CRC, as bytes: the model's own order (log entry 28). -/
def Journal.content (j : Journal) : List Byte :=
  let d := j.desc
  let ws := [j.seq, j.handle, j.seat, j.buffer, j.rate, j.stepDone, d.outs.length, d.sets.length, d.exc, d.averages, d.level, d.f1,
    d.f2, d.excLog2, d.irLog2, if d.postCorr then 1 else 0, if d.pauseAtSet then 1 else 0, if d.keepDcb then 1 else 0, d.gap,
    d.fade, d.pre, d.seed, d.crc.toNat] ++ d.outs ++ d.sets.flatMap (fun m => [m, m / 2 ^ 32])
  ws.flatMap (fun w => bytesOf (BitVec.ofNat 32 w))

/-- A copy checks good when the CRC-32 over it is the one it holds. -/
def Journal.good (j : Journal) : Bool := crc32 j.content = j.crc

/-- The journal: the valid copy with the higher sequence number. -/
def Measurement.journal (m : Measurement) : Option Journal :=
  match m.journal0.filter (·.good), m.journal1.filter (·.good) with
  | some a, some b => some (if a.seq < b.seq then b else a)
  | some a, none => some a
  | none, b => b

/-- Write STEP_DONE into the older copy with the next sequence number. -/
def State.writeJournal (s : State) (c : Campaign) (done : Nat) : State :=
  let m := s.measure
  let j : Journal := { seq := (m.journal.map (·.seq)).getD 0 + 1, handle := c.handle, seat := c.seat, desc := c.desc
                       buffer := c.buffer, rate := c.rate, stepDone := done }
  let j := { j with crc := crc32 j.content }
  let newest := m.journal
  { s with measure := if newest.isSome && m.journal0 = newest then { m with journal1 := some j } else { m with journal0 := some j } }

def State.closeJournal (s : State) : State :=
  { s with measure := { s.measure with journal0 := none, journal1 := none } }

/-! Beginning, holding and releasing -/

def execCampaignStart (seat tag : Nat) (s : State) : Res :=
  settle (s.command seat tag 0x30 (fun c s =>
    if s.campaignThere || s.measure.probe.isSome then s.finish c.seat c.tag Status.busy else s.startLoad c 0))

/-- CHECK of a campaign (R248, R249). -/
def State.campaignCheck (s : State) (c : Cmd) : State :=
  let d := campDesc c.bytes
  let fail := fun st r0 => s.finish c.seat c.tag st r0
  match campFault s.fs c.bytes with
  | some o => fail Status.badParam o
  | none =>
    match s.unitsFault c.seat d.outs d.chains with
    | some st => fail st 0
    | none =>
        if s.campaignThere || s.measure.probe.isSome then fail Status.busy 0
        else
          match s.newBuffer c.seat d.bufferBytes with
          | none => fail Status.noCapacity 0
          | some (b, s) =>
            let h := s.measure.handle % (2 ^ 32 - 1) + 1
            let (g, s) := s.fresh
            let rate := s.fld .render Reg.Render.CFG_RATE
            let q : Campaign := { desc := d, handle := h, seat := c.seat, tag := c.tag, buffer := b, rate := rate,
                                  gen := g % 16 }
            let s := { s with measure := { s.measure with handle := h } }
            let s := s.bufWords b 0 ([0x49525342#32, BitVec.ofNat 32 (1 + 65536 * rate), BitVec.ofNat 32 h,
              BitVec.ofNat 32 d.recordBytes, d.crc])
            let s := ((s.setCampaign (some q)).writeJournal q 0).showMeasure
            (s.accept c.seat c.tag 0 h).stepped c.seat c.tag

/-- PREPARE begins: the chains enter MEASURE service, a generator and the named outputs are held from
the next boundary (R249, R251). -/
def State.campaignPrepare (s : State) (q : Campaign) : State :=
  let s := s.chainService q.desc.chains true q.desc.keepDcb
  let s := s.setBit .measure (Reg.Measure.GEN_CTRL_HELD q.gen) true
  (s.setCampaign (some { q with phase := .prepare, holdFrom := some s.nextBoundary, holdTo := none })).showMeasure

/-- Outputs, chains and generator are released; the campaign is over, or HELD. -/
def State.campaignRelease (s : State) (q : Campaign) (held : Bool) : State :=
  let s := if q.holdFrom.isSome then s.chainService q.desc.chains false q.desc.keepDcb else s
  let s := s.setBit .measure (Reg.Measure.GEN_CTRL_HELD q.gen) false
  let q := { q with
    phase := if held then .held else .ended, stepStart := none, capture := [], plays := [], decon := none
    deconCapture := [], deconPlays := [], due := none, holdTo := if q.holdFrom.isSome then some s.nextBoundary else none }
  let bufs := match s.buffer q.buffer with
    | some b => s.pool.bufs.put ({} : Buffer) q.buffer { b with held := held }
    | none => s.pool.bufs
  let s := { s with pool := { s.pool with bufs := bufs } }
  (s.setCampaign (some q)).showMeasure

/-- A campaign ends before its time: cancelled, or stopped by a changed owner or render rate. With
`keep` it stays HELD, else its buffer and journal are released (R249, R255, R260). -/
def State.campaignStop (s : State) (q : Campaign) (keep : Bool) (status : Nat) : State :=
  let s := s.campaignRelease q keep
  let s := if keep then s else (s.freeBuffer q.buffer).closeJournal
  s.finish q.seat q.tag status

/-- The plays of the present step begin at a boundary. -/
def State.campaignPlay (s : State) (q : Campaign) (at_ : Nat) : State :=
  (s.setCampaign (some { q with
    phase := .measure, stepStart := some at_, playBase := q.play, runClipped := 0
    t0 := if q.play = 0 then at_ else q.t0
    inactive := if q.play = 0 then !s.outActive (q.desc.stepOut q.step) else q.inactive })).showMeasure

/-- The measurement goes on with step `q.step`: the plays begin at the first boundary at or after `from_`, or the campaign
suspends itself once before a new set, or it has measured all (R249, R250). -/
def State.campaignNext (s : State) (q : Campaign) (from_ : Nat) : State :=
  if q.desc.total ≤ q.step then (s.setCampaign (some { q with phase := .finish, stepStart := none })).showMeasure
  else if q.desc.pauseAtSet ∧ 0 < q.step ∧ q.step % q.desc.outs.length = 0 ∧ q.waited ≠ some q.step then
    match s.cmdOf q.seat q.tag with
    | some c =>
      let s := (s.setCmd { c with state := .suspended, suspend := false }).post c Status.suspended 0 0 true
      ((s.setCampaign (some { q with phase := .measure, stepStart := none, waited := some q.step })).event .measure 1).showMeasure
    | none => s
  else s.campaignPlay q (s.boundaryFrom (max from_ s.render.rsi))

/-- OP_RESUME of a campaign: it goes on with the step before which it was suspended. -/
def State.campaignResumed (s : State) (seat tag : Nat) : State :=
  match s.measure.campaign with
  | some q =>
    if q.seat = seat ∧ q.tag = tag ∧ q.phase = .measure ∧ q.stepStart.isNone then s.campaignNext q s.nextBoundary else s
  | none => s

/-! Plays and steps (R250, R260) -/

/-- Where the captured sample of chain `c` at position `k` of play `p` is kept. -/
def captureKey (p c k : Nat) : Nat := 2 ^ 24 * (64 * p + c) + k

/-- The capture of one sample of a chain: the group delay moves it back (R252). A sample that still belongs to the last
play of the step before is kept there. -/
def Campaign.take (q : Campaign) (mul c gd i : Nat) (x : Int) : Campaign :=
  match q.stepStart with
  | none => q
  | some st =>
    let k := (i : Int) - st - gd
    if 0 ≤ k then
      match q.desc.place mul q.playBase k.toNat with
      | some (p, pos) => { q with capture := q.capture.put 0 (captureKey p c pos) x }
      | none => q
    else if q.playBase = 0 ∧ q.decon.isSome then
      match q.desc.place mul q.deconBase ((q.desc.playEnd mul q.deconBase (q.desc.averages - 1) : Int) + k).toNat with
      | some (p, pos) => { q with deconCapture := q.deconCapture.put 0 (captureKey p c pos) x }
      | none => q
    else q

/-- Capture block `b` of every chain of the running step. -/
def State.measureBlock (s : State) (b : Nat) : State :=
  match s.measure.campaign with
  | none => s
  | some q =>
    if q.phase ≠ .measure then s
    else
      let cs := chainsOf (q.desc.sets.getD (q.desc.stepSet q.step) 0)
      let q := cs.foldl (fun q c =>
        (s.blockSamples b).foldl (fun (q : Campaign) i =>
          q.take s.rateMul c (s.delaySamples c) i (s.sample { type := 6, unit := c } i)) q) q
      s.setCampaign (some q)

/-- A play and its gap have ended (R250): the next follows, or the step ends, its capture goes to
deconvolution and the next step follows. Suspend and cancel act at the step's end; a changed owner of
a held output ends the campaign there (R260). -/
def State.playOver (s : State) (q : Campaign) : State :=
  match q.stepStart with
  | none => s
  | some st =>
    if q.phase ≠ .measure || s.render.rsi < st + q.desc.playEnd s.rateMul q.playBase q.play then s
    else if q.play + 1 < q.desc.averages then
      (s.setCampaign (some { q with play := q.play + 1, plays := q.plays ++ [q.play - q.playBase]
                                    clipped := q.clipped ||| q.runClipped, runClipped := 0 })).showMeasure
    else if q.decon.isSome then s
    else
      let ended := st + q.desc.playEnd s.rateMul q.playBase q.play
      let q := { q with
        decon := some (q.step, q.t0), deconCapture := q.capture
        deconPlays := q.plays ++ [q.play - q.playBase], deconBase := q.playBase, deconClipped := q.clipped ||| q.runClipped
        deconStuck := q.stuck, deconInactive := q.inactive, capture := [], plays := [], clipped := 0, runClipped := 0
        stuck := 0, step := q.step + 1, play := 0, playBase := 0, stepStart := none }
      let s := (s.setCampaign (some q)).stepped q.seat q.tag
      match s.cmdOf q.seat q.tag with
      | none => s
      | some c =>
        if c.cancel.isSome then s.campaignStop q (c.cancel = some true || c.keep) Status.cancelled
        else if q.desc.outs.any (fun n => !s.owns q.seat (.out n)) then s.campaignStop q true Status.notOwner
        else if c.state = .suspended then s.showMeasure
        else s.campaignNext q ended

def execPlayEnd (s : State) : Res :=
  match s.measure.campaign with
  | some q => settle (s.playOver q)
  | none => settle s

/-- The curtain as a campaign sees it, at a block's release: a play that it closes on is discarded, and
restarts at the next boundary once it is OPEN (R260). -/
def State.campaignCurtain (s : State) : State :=
  match s.measure.campaign with
  | none => s
  | some q =>
    if q.phase = .measure ∧ q.stepStart.isSome ∧ s.curtain.phase ≠ .isOpen then
      (s.setCampaign (some { q with
        phase := .waitCurtain, stepStart := none, runClipped := 0
        capture := q.capture.filter (fun e => e.1 / 2 ^ 30 ≠ q.play) })).showMeasure
    else if q.phase = .waitCurtain ∧ s.curtain.phase = .isOpen then s.campaignPlay q s.nextBoundary
    else s

/-! Deconvolution and records (R252, R253) -/

/-- The period of the transform of a step: a play of SWEEP with its gap, a period of the register or the noise. -/
def CampDesc.span (d : CampDesc) (mul : Nat) : Nat := if d.exc = 1 then d.period + d.gapSamples mul else d.period

/-- The captured plays of chain `c`, summed. -/
def Campaign.captured (q : Campaign) (c pos : Nat) : Int :=
  ((List.range q.desc.averages).map (fun p => Map.get 0 (captureKey p c pos) q.deconCapture)).sum

/-- What was played in these plays, summed likewise. -/
def Campaign.played (q : Campaign) (fs pos : Nat) : Int :=
  let d := q.desc
  let n := d.span (fs / 48000)
  (q.deconPlays.map (fun j => d.at_ fs 0 ((if d.exc = 1 then j else j + 1) * n + pos))).sum

/-- The samples of an impulse response in 2^-96: sample PRE is time zero (R252). -/
def State.impulseResponse (s : State) (q : Campaign) (c : Nat) : List Int :=
  let d := q.desc
  (List.range (d.pre + 2 ^ d.irLog2)).map (fun (k : Nat) =>
    responseAt (d.span s.rateMul) s.fs (measuredBand (d.exc = 1) d.f1 d.f2 s.fs) ((s.delays c).1 % 256) (q.captured c)
      (q.played s.fs) ((k : Int) - d.pre))

/-- A sample of a response as a word of a record: sample value = word × 2^EXP, saturated (R253). -/
def irWord (exp x : Int) : Word :=
  let (num, den) : Int × Nat := if exp < 0 then (x * 2 ^ (31 + (-exp).toNat), 2 ^ 96) else (x * 2 ^ 31, 2 ^ (96 + exp.toNat))
  BitVec.ofInt 32 (satQ31 (roundOpen num den))

/-- The words of the IR record of chain `c` for a step, and whether it carries LOW_SNR (R253). -/
def State.irRecord (s : State) (q : Campaign) (i t0 c : Nat) : List Word × Bool :=
  let d := q.desc
  let zero := q.deconInactive || q.deconStuck.testBit c
  let h := if zero then List.replicate (d.pre + 2 ^ d.irLog2) 0 else s.impulseResponse q c
  let exp := if zero then 0 else signed 8 (unsigned 8 (Config.irExp h))
  let samples := h.map (irWord exp)
  let xs := samples.map (fun w => w.toInt)
  -- A response of zeros has no ratio of peak to noise.
  let snr := if xs.all (· = 0) then Config.silentSnr [c, i] % 256 else irSnr xs
  let low := q.deconStuck.testBit c || snr < 30
  let flags := (if q.deconClipped.testBit c then 1 else 0) + (if low then 2 else 0) +
    (if q.deconInactive then 4 else 0) + (if q.redone = some i then 8 else 0)
  let head := [BitVec.ofNat 32 (d.stepOut i + 65536 * c + 2 ^ 24 * d.stepSet i), BitVec.ofNat 32 i,
    BitVec.ofNat 32 (unsigned 8 exp + 256 * snr + 65536 * flags), BitVec.ofNat 32 (irPeak xs),
    BitVec.ofNat 32 t0, BitVec.ofNat 32 (t0 / 2 ^ 32), BitVec.ofNat 32 d.averages]
  (head ++ [crc32 ((head ++ samples).flatMap bytesOf)] ++ samples, low)

/-- The deconvolution of a step ends: its records are in the buffer. -/
def execDeconvolutionDone (s : State) : Res :=
  match s.measure.campaign with
  | none => settle s
  | some q =>
    match q.decon with
    | none => settle s
    | some (i, t0) =>
      let cs := chainsOf (q.desc.sets.getD (q.desc.stepSet i) 0)
      let (s, low) := cs.zipIdx.foldl (fun (a : State × Bool) (e : Nat × Nat) =>
        let (ws, l) := a.1.irRecord q i t0 e.1
        (a.1.bufWords q.buffer (q.desc.recordAt i e.2) ws, a.2 || l)) (s, false)
      let s := if low then s.event .measure 5 else s
      settle (s.setCampaign (some { q with
        decon := none, deconPlays := [], deconCapture := [], deconClipped := 0, deconStuck := 0,
        deconInactive := false, due := some i }))

/-- The journal write of a step whose records are in DRAM ends: the step is complete (R254). -/
def execJournalWrite (s : State) : Res :=
  match s.measure.campaign with
  | none => settle s
  | some q =>
    match q.due with
    | some i =>
      let q := { q with stepDone := i + 1, due := none }
      settle (((s.writeJournal q q.stepDone).setCampaign (some q)).showMeasure.event .measure 0)
    | none => settle s

/-- Do the records of a step check good, as CAMPAIGN_RESUME asks (R255)? -/
def State.recordGood (s : State) (q : Campaign) (i : Nat) : Bool :=
  match s.buffer q.buffer with
  | none => false
  | some b =>
    (List.range (chainsOf (q.desc.sets.getD (q.desc.stepSet i) 0)).length).all (fun j =>
      let r := b.read (q.desc.recordAt i j) q.desc.recordBytes
      (crc32 (r.take 28 ++ r.drop 32)).toNat = leAt r 28 4)

/-- PREPARE, then FINISH. -/
def State.campaignStep (s : State) (q : Campaign) : State :=
  match q.phase with
  | .check => s.campaignPrepare q
  | .prepare =>
    if (chainsOf q.desc.chains).all (fun c => (s.chain c).phase = .settled && (s.chain c).linear) then
      (s.campaignNext { q with phase := .measure } s.render.rsi).stepped q.seat q.tag
    else s
  | .measure => s.playOver q
  | .finish =>
    if q.decon.isSome ∨ q.due.isSome then s
    else
      let s := (s.campaignRelease q false).closeJournal.event .measure 2
      s.finish q.seat q.tag Status.ok q.desc.total q.buffer
  | _ => s

def State.stepCampaign (s : State) (c : Cmd) (host : List Byte) : State :=
  if c.steps = 0 then s.fetchStep c 0 host
  else if c.steps = 1 then s.campaignCheck c
  else match s.measure.campaign with
    | some q => if q.seat = c.seat ∧ q.tag = c.tag then s.campaignStep q else s
    | none => s

/-! CAMPAIGN_RESUME (R255) -/

/-- Why a HELD campaign cannot be resumed or discarded by a command. -/
def State.resumeFault (s : State) (c : Cmd) : Option Nat :=
  match s.measure.journal, s.measure.campaign with
  | some _, some q =>
    if q.phase ≠ .held then some Status.busy
    else if q.handle ≠ c.n 0 then some Status.badParam
    else if c.seat ≠ 0 ∧ c.seat ≠ q.seat then some Status.notOwner
    else none
  | _, _ => some Status.journalInvalid

def execCampaignResume (seat tag : Nat) (s : State) : Res :=
  match s.cmdOf seat tag with
  | none => settle s
  | some c =>
    if c.flag 0 then settle s
    else settle (s.command seat tag 0x31 (fun c s =>
      match s.resumeFault c with
      | some e => s.finish c.seat c.tag e
      | none =>
        if s.measure.probe.isSome then s.finish c.seat c.tag Status.busy
        else if s.measure.campaign.any (fun q => q.rate ≠ s.fld .render Reg.Render.CFG_RATE) then
          s.finish c.seat c.tag Status.rateMismatch
        else s.begin_ c))

/-- The steps of CAMPAIGN_RESUME: first the check of the completed steps' records, then those of R249
from PREPARE. -/
def State.stepResume (s : State) (c : Cmd) : State :=
  match s.measure.campaign with
  | none => s
  | some q =>
    if c.steps = 0 then
      let bad := (List.range q.stepDone).find? (fun i => !s.recordGood q i)
      let r := bad.getD q.stepDone
      let q := { q with
        seat := c.seat, tag := c.tag, phase := .check, step := r, play := 0, redone := bad
        holdFrom := none, holdTo := none }
      (((s.setCampaign (some q)).showMeasure).accept c.seat c.tag 0 r).stepped c.seat c.tag
    else if q.seat = c.seat ∧ q.tag = c.tag then s.campaignStep q
    else s

/-- CAMPAIGN_RESUME with DISCARD: the held campaign is released. -/
def execCampaignDiscard (seat tag : Nat) (s : State) : Res :=
  match s.cmdOf seat tag with
  | none => settle s
  | some c =>
    if !c.flag 0 then settle s
    else settle (s.command seat tag 0x31 (fun c s =>
      match s.resumeFault c, s.measure.campaign with
      | some e, _ => s.finish c.seat c.tag e
      | none, some q =>
        (((s.freeBuffer q.buffer).closeJournal.setCampaign none).showMeasure).finish c.seat c.tag Status.ok
      | none, none => s.finish c.seat c.tag Status.journalInvalid))

/-! What other happenings do to a campaign -/

/-- OP_CANCEL, a grace period or a seat reset ends a campaign that waits between steps. -/
def State.cancelCampaign (s : State) (c : Cmd) (keep : Bool) : State :=
  match s.measure.campaign with
  | some q =>
    if q.seat = c.seat ∧ q.tag = c.tag then
      let s := s.campaignRelease q keep
      if keep then s else ((s.freeBuffer q.buffer).closeJournal.setCampaign none).showMeasure
    else s
  | none => s

/-- A render-rate change stops it at once; it is then HELD (R255). -/
def State.campaignRate (s : State) : State :=
  match s.measure.campaign with
  | some q => if q.phase = .held ∨ q.phase = .ended then s else s.campaignStop q true Status.rateMismatch
  | none => s

/-- A render reset during a step repeats it from its first play, once the render runs again from sample `from_` (R255). -/
def State.campaignReset (s : State) (from_ : Nat) : State :=
  match s.measure.campaign with
  | some q =>
    let fresh := { q with play := 0, playBase := 0, plays := [], capture := [], clipped := 0, runClipped := 0, stuck := 0 }
    if q.phase = .measure ∧ q.stepStart.isSome then s.campaignPlay fresh (s.boundaryFrom from_)
    else if q.phase = .waitCurtain then (s.setCampaign (some fresh)).showMeasure
    else s
  | none => s

/-- The firmware after a warm reset: a campaign whose journal is good is HELD, a probe is lost. -/
def State.measureRestart (s : State) : State :=
  let s := s.setProbe none
  match s.measure.journal with
  | some j =>
    let q : Campaign := { desc := j.desc, handle := j.handle, seat := j.seat, tag := 0, buffer := j.buffer
                          rate := j.rate, phase := .held, stepDone := j.stepDone }
    (s.setCampaign (some q)).showMeasure
  | none => (s.setCampaign none).showMeasure

/-! Probes (R256 to R258) -/

def probeCount (f : List Byte) : Nat := leAt f 6 1

def probeFault (f : List Byte) : Option Nat :=
  let n := probeCount f
  let m := leAt f 8 8
  let len := 64 + 8 * n
  let zeros := fun o k => ((f.drop o).take k).any (· ≠ 0#8)
  let head : List (Bool × Nat) :=
    [ (decide (leAt f 0 4 ≠ 0x50524F42), 0), (decide (leAt f 4 2 ≠ 1), 4), (decide (n < 1 ∨ 16 < n), 6),
      (decide (1 < leAt f 7 1), 7), (decide (2 ^ 56 ≤ m ∨ m = 0 ∨ 16 < (chainsOf m).length), 8),
      (decide (1 < leAt f 0x10 1), 0x10), (decide (leAt f 0x11 1 ≠ 0 ∧ leAt f 0x11 1 ≠ 2), 0x11),
      (decide (if leAt f 0x10 1 = 1 then leAt f 0x12 2 < 2 ∨ 4096 < leAt f 0x12 2 else leAt f 0x12 2 ≠ 0), 0x12),
      (decide (120 * 256 < leAt f 0x14 2), 0x14), (decide (leAt f 0x16 2 < 1 ∨ 4096 < leAt f 0x16 2), 0x16),
      (zeros 0x18 36, 0x18), (decide ((crcWithout f 0x3C).toNat ≠ leAt f 0x3C 4), 0x3C) ]
  let outs : List (Bool × Nat) := (List.range (min n 16)).flatMap (fun k =>
    [ (decide (leAt f (64 + 8 * k) 4 / 1024 ≠ 0) ||
        (List.range k).any (fun j => leAt f (64 + 8 * j) 4 = leAt f (64 + 8 * k) 4), 64 + 8 * k),
      (decide (leAt f (68 + 8 * k) 4 / 2 ^ 15 ≠ 0), 68 + 8 * k) ])
  ((head ++ outs ++ [(decide (f.length ≠ len), min f.length len)]).find? (·.1)).map (·.2)

def execProbeStart (seat tag : Nat) (s : State) : Res :=
  settle (s.command seat tag 0x32 (fun c s =>
    if s.campaignThere || s.measure.probe.isSome then s.finish c.seat c.tag Status.busy else s.startLoad c 0))

/-- Bytes of a report slot: N_OUT x N_CH pair records of 49,184 bytes after a header of 64. -/
def slotBytes (outs chains : Nat) : Nat := 64 + outs * chains * 49184

/-- CHECK of a probe (R256): its descriptor, its units, and a buffer of two report slots. -/
def State.probeCheck (s : State) (c : Cmd) : State :=
  let f := c.bytes
  let outs := (List.range (probeCount f)).map (fun k => (leAt f (64 + 8 * k) 4 % 1024, leAt f (68 + 8 * k) 4 % 32768))
  let mask := leAt f 8 8
  let fail := fun st r0 => s.finish c.seat c.tag st r0
  match probeFault f with
  | some o => fail Status.badParam o
  | none =>
    match s.unitsFault c.seat (outs.map (·.1)) mask with
    | some st => fail st 0
    | none =>
        if s.campaignThere || s.measure.probe.isSome then fail Status.busy 0
        else
          match s.newBuffer c.seat (2 * slotBytes outs.length (chainsOf mask).length) with
          | none => fail Status.noCapacity 0
          | some (b, s) =>
            let p : Probe := {
              outs := outs, mask := mask, post := leAt f 7 1 = 1, exponential := leAt f 0x10 1 = 1
              keepDcb := leAt f 0x11 1 = 2, frames := leAt f 0x12 2, gate := leAt f 0x14 2, report := leAt f 0x16 2
              seat := c.seat, tag := c.tag, buffer := b }
            let s := (s.setProbe (some p)).showMeasure
            let s := (s.set .measure Reg.Measure.FRAMES_USED 0).set .measure Reg.Measure.FRAMES_SKIPPED 0
            ((s.chainService mask true p.keepDcb).accept c.seat c.tag b 0).stepped c.seat c.tag

/-- Keep block `b` of the references, and note whether the curtain was OPEN (R257). -/
def State.probeBlock (s : State) (b : Nat) : State :=
  match s.measure.probe with
  | none => s
  | some p =>
    let s0 := s.blockStart b
    let chainHist := (chainsOf p.mask).zipIdx.foldl (fun (m : Map Int) (e : Nat × Nat) =>
      (s.blockSamples b).foldl (fun (m : Map Int) i =>
        m.put 0 (65536 * e.2 + i % 65536) (s.sample { type := 6, unit := e.1 } i)) m) p.chainHist
    let hist := p.outs.zipIdx.foldl (fun (m : Map Int) (e : (Nat × Nat) × Nat) =>
      let o := s.out e.1.1
      (s.blockSamples b).foldl (fun (m : Map Int) i =>
        m.put 0 (65536 * e.2 + i % 65536) (Map.get 0 (i - s0) (if p.post then o.post else o.pre))) m) p.hist
    let bad := if s.curtain.phase = .isOpen then p.badUntil else s0 + s.blockSize
    s.setProbe (some { p with hist := hist, chainHist := chainHist, badUntil := max p.badUntil bad })

/-- Is the RMS of a reference frame at or above -GATE dBFS (R257)? The threshold is taken from the dB
table. -/
def Probe.loud (p : Probe) (o first : Nat) : Bool :=
  let d := (p.outs.getD o (0, 0)).2
  let e := (List.range 8192).foldl (fun a k =>
    if first + k < d then a else a + absNat (Map.get 0 (65536 * o + (first + k - d) % 65536) p.hist) ^ 2) 0
  let t := dbGain (p.gate * 256)
  8192 * t ^ 2 * 2 ^ 6 ≤ e

/-- Sample `k` of the frame that begins at `first`, of reference `o`, taken D_o samples earlier, and of the m-th chain. -/
def Probe.reference (p : Probe) (o first k : Nat) : Int :=
  let d := (p.outs.getD o (0, 0)).2
  if first + k < d then 0 else Map.get 0 (65536 * o + (first + k - d) % 65536) p.hist

def Probe.chainSample (p : Probe) (m first k : Nat) : Int := Map.get 0 (65536 * m + (first + k) % 65536) p.chainHist

/-- An average takes in the value of a new frame: a sum for LINEAR, weight 1/FRAMES for EXPONENTIAL (R257). -/
def Probe.average (p : Probe) (old new : Int) : Int := if p.exponential then old + (new - old).fdiv p.frames else old + new

/-- A frame that is accepted for reference `o` enters G_xx, and G_yy and G_xy = X* × Y of its pairs, bin by bin (R257). -/
def Probe.accumulate (p : Probe) (o first : Nat) : Probe :=
  (List.range 4097).foldl (fun (p : Probe) (k : Nat) =>
    let x := dftBin 8192 (fun n => p.reference o first n * hann n) k
    let p := { p with gxx := p.gxx.put 0 (8192 * o + k) (p.average (Map.get 0 (8192 * o + k) p.gxx) (fxMul x.1 x.1 + fxMul x.2 x.2)) }
    (List.range (chainsOf p.mask).length).foldl (fun (p : Probe) m =>
      let y := dftBin 8192 (fun n => p.chainSample m first n * hann n) k
      let key := 8192 * (16 * o + m) + k
      { p with gyy := p.gyy.put 0 key (p.average (Map.get 0 key p.gyy) (fxMul y.1 y.1 + fxMul y.2 y.2))
               gxyRe := p.gxyRe.put 0 key (p.average (Map.get 0 key p.gxyRe) (fxMul x.1 y.1 + fxMul x.2 y.2))
               gxyIm := p.gxyIm.put 0 key (p.average (Map.get 0 key p.gxyIm) (fxMul x.1 y.2 - fxMul x.2 y.1)) }) p) p

/-- A frame of 8,192 samples ends (R257); frames start every 4,096 samples. -/
def execProbeFrame (s : State) : Res :=
  match s.measure.probe with
  | none => settle s
  | some p =>
    match p.start with
    | none => settle s
    | some st =>
      let first := st + 4096 * p.index
      let suspended := (s.cmdOf p.seat p.tag).all (fun c => c.state ≠ .running)
      if s.blockStart s.render.block < first + 8192 then settle s
      else if suspended then settle (s.setProbe (some { p with index := p.index + 1 }))
      else
        let good := p.badUntil ≤ first
        let oks := (List.range p.outs.length).filter (fun o => good && p.loud o first)
        let acc := oks.foldl (fun (m : Map Nat) o => m.put 0 o (Map.get 0 o m + 1)) p.accepted
        let s := s.count .measure Reg.Measure.FRAMES_USED oks.length
        let s := s.count .measure Reg.Measure.FRAMES_SKIPPED (p.outs.length - oks.length)
        let p := oks.foldl (fun p o => p.accumulate o first) p
        settle (s.setProbe (some { p with
          index := p.index + 1, accepted := acc,
          since := if oks.isEmpty then p.since else p.since + 1, lastEnd := first + 8192 }))

/-- The three numbers of a bin of the pair of reference `o` and the m-th chain: the parts of H1 and γ² (R257). -/
def Probe.bin (p : Probe) (o m k : Nat) : List Word :=
  let key := 8192 * (16 * o + m) + k
  let xx := Map.get 0 (8192 * o + k) p.gxx
  let yy := Map.get 0 key p.gyy
  let re := Map.get 0 key p.gxyRe
  let im := Map.get 0 key p.gxyIm
  if xx = 0 then [0#32, 0#32, 0#32]
  else [binary32 (fxDiv re xx), binary32 (fxDiv im xx),
    binary32 (if yy = 0 then Config.silentCoherence k else fxDiv (re ^ 2 + im ^ 2) (xx * yy))]

/-- The words of a report: header, then the pairs, output-major (R258). -/
def Probe.reportWords (p : Probe) : List Word :=
  let n := p.reports + 1
  let head := [0x50525054#32, BitVec.ofNat 32 n, BitVec.ofNat 32 p.lastEnd, BitVec.ofNat 32 (p.lastEnd / 2 ^ 32)] ++
    List.replicate 12 0#32
  head ++ p.outs.zipIdx.flatMap (fun (e : (Nat × Nat) × Nat) =>
    let cnt := Map.get 0 e.2 p.accepted
    (chainsOf p.mask).zipIdx.flatMap (fun (c : Nat × Nat) =>
      [BitVec.ofNat 32 (e.1.1 + 65536 * c.1), BitVec.ofNat 32 cnt, 0#32, 0#32] ++
        (List.range 4097).flatMap (p.bin e.2 c.2) ++ [0#32]))

/-- Write a report into the next of the two slots. -/
def State.writeReport (s : State) (p : Probe) : State :=
  let slot := p.reports % 2 * slotBytes p.outs.length (chainsOf p.mask).length
  let s := s.bufWords p.buffer slot p.reportWords
  (s.setProbe (some { p with since := 0, reports := p.reports + 1 })).event .measure 3

/-- A cancelled probe: its buffer goes unless it is kept. -/
def State.cancelProbe (s : State) (c : Cmd) (keep : Bool) : State :=
  match s.measure.probe with
  | some p =>
    if p.seat = c.seat ∧ p.tag = c.tag then
      let s := ((s.chainService p.mask false p.keepDcb).setProbe none).showMeasure
      if keep then s else s.freeBuffer p.buffer
    else s
  | none => s

/-- REPORT accepted frames have accumulated: a report is written; this ends a step, at which a suspension
or a cancellation takes effect. -/
def execProbeReport (s : State) : Res :=
  match s.measure.probe with
  | none => settle s
  | some p =>
    if p.report ≤ p.since then
      let s := s.writeReport p
      match s.cmdOf p.seat p.tag with
      | none => settle s
      | some c =>
        match c.cancel with
        | some keep => settle ((s.cancelProbe c (keep || c.keep)).finish c.seat c.tag Status.cancelled p.reports)
        | none => settle (s.stepped p.seat p.tag)
    else settle s

/-- The probe ends: its chains leave MEASURE service. -/
def State.probeEnd (s : State) (p : Probe) (status : Nat) : State :=
  let s := ((s.chainService p.mask false p.keepDcb).setProbe none).showMeasure
  s.finish p.seat p.tag status p.reports

/-- PROBE_STOP (R258): a final report, and both commands complete. -/
def execProbeStop (seat tag : Nat) (s : State) : Res :=
  settle (s.command seat tag 0x33 (fun c s =>
    match s.measure.probe with
    | some p =>
      if p.seat = c.seat ∧ p.tag = c.n 0 then
        let s := s.writeReport p
        match s.measure.probe with
        | some p => (s.probeEnd p Status.ok).finish c.seat c.tag Status.ok
        | none => s
      else s.finish c.seat c.tag Status.badParam
    | none => s.finish c.seat c.tag Status.badParam))

def State.stepProbe (s : State) (c : Cmd) (host : List Byte) : State :=
  if c.steps = 0 then s.fetchStep c 0 host
  else if c.steps = 1 then s.probeCheck c
  else match s.measure.probe with
    | some p =>
      if p.start.isNone ∧ (chainsOf p.mask).all (fun k => (s.chain k).phase = .settled && (s.chain k).linear) then
        (s.setProbe (some { p with start := some s.nextBoundary })).stepped c.seat c.tag
      else s
    | none => s

end Sys2Proof.Machine
end

