-- ==== Sys2Proof/Machine/Snapshot.lean ====
section
/-! DEFINITION. SNAPSHOT and RESTORE (R445 to R448). -/

namespace Sys2Proof.Machine

open Sys2Proof

/-- Bytes of an image (R445). -/
def State.imageSize (s : State) (history : Bool) : Nat :=
  4 * 2 ^ 20 + 12 * 1024 * s.nowObjects + 40 * 1024 * s.nowOutputs + 64 * s.nowPaths +
    (if history then 128 * 1024 * s.nowObjects else 0)

/-- Steps of 8 MiB. -/
def copySteps (n : Nat) : Nat := (n + 2 ^ 23 - 1) / 2 ^ 23

/-- The state an image holds, at this instant (R446). -/
def State.image (s : State) (history : Bool) : Image :=
  let objs := if history then s.objs else s.objs.update {} (fun o => { o with near := [], far := [] })
  { id := 0, rate := s.fs, history := history, act := s.fab.act, recOwner := s.fab.recOwner, recGroup := s.fab.recGroup
    motion := s.motion, cue := s.cue, layouts := s.layouts, outEq := s.outEq, objs := objs, paths := s.paths.objs
    routes := s.routes, buses := s.buses, outs := s.outs, bass := s.bass, prompters := s.prompters
    chains := if history then s.chains else [] }

/-- Is a SNAPSHOT or RESTORE of another command in flight (R411)? -/
def State.snapBusy (s : State) (c : Cmd) : Bool :=
  s.seats.any (fun q => q.2.cmds.any (fun d =>
    (d.opcode = 0x40 || d.opcode = 0x41) && d.started && !d.final && !(d.seat = c.seat && d.tag = c.tag)))

def execSnapshot (seat tag : Nat) (s : State) : Res :=
  settle (s.command seat tag 0x40 (fun c s =>
    let size := s.imageSize (c.flag 0)
    if 2 ≤ c.n 0 then s.finish c.seat c.tag Status.badParam
    else if s.snapBusy c then s.finish c.seat c.tag Status.busy
    else if c.n 0 = 1 then
      match s.dstFault c 1 with
      | some e => s.finish c.seat c.tag e
      | none =>
        if c.n 4 < size then s.finish c.seat c.tag Status.badParam
        else if c.n 1 % 4 = 1 ∧ c.n 2 = 0 then
          match s.takePool c.seat c.tag size with
          | none => s.finish c.seat c.tag Status.noCapacity
          | some s => s.begin_ c
        else s.begin_ c
    else s.begin_ c))

/-- The older slot: an empty one first, else the one with the lower id. -/
def State.olderSlot (s : State) : Nat :=
  match s.snaps.slot0, s.snaps.slot1 with
  | none, _ => 0
  | some _, none => 1
  | some a, some b => if a.id ≤ b.id then 0 else 1

def Snapshots.setSlot (p : Snapshots) (k : Nat) (i : Option Image) : Snapshots :=
  if k = 0 then { p with slot0 := i } else { p with slot1 := i }

/-- One step of SNAPSHOT: FREEZE at a block boundary, COPY per 8 MiB, SEAL (R447). -/
def State.stepSnapshot (s : State) (c : Cmd) : State :=
  let size := s.imageSize (c.flag 0)
  match s.snaps.copying with
  | none =>
    if s.clocked && s.render.rsi % s.blockSize ≠ 0 then s
    else
      let slot := s.olderSlot
      let p := { s.snaps with copying := some (s.image (c.flag 0)) }
      let p := if c.n 0 = 0 then p.setSlot slot none else p
      let s := { s with snaps := p }
      let s := s.setCmd { c with work := [slot] }
      (s.accept c.seat c.tag).stepped c.seat c.tag
  | some im =>
    if c.steps ≤ copySteps size then s.stepped c.seat c.tag
    else
      let id := if s.snaps.id + 1 < 2 ^ 32 then s.snaps.id + 1 else 1
      let im := { im with id := id }
      let p := { s.snaps with copying := none, id := id }
      let p := if c.n 0 = 0 then p.setSlot (c.work.headD 0) (some im) else { p with written := p.written ++ [im] }
      let s := { s with snaps := p }
      if c.n 0 = 0 then s.finish c.seat c.tag Status.ok id size
      else
        match s.writeHeld c 1 ((List.range size).map (Config.imageByte id)) with
        | some (_, s) => s.finish c.seat c.tag Status.ok id size
        | none => s.finish c.seat c.tag Status.noCapacity

/-- The snapshot under way is given up. -/
def State.cancelSnapshot (s : State) : State := { s with snaps := { s.snaps with copying := none } }

def execRestore (seat tag : Nat) (s : State) : Res :=
  settle (s.command seat tag 0x41 (houseOnly (fun c s =>
    if s.snapBusy c then s.finish c.seat c.tag Status.busy
    else if c.n 0 = 0 then s.startLoad c 1
    else s.begin_ c)))

/-- The image a RESTORE names: by its id, or as bytes of an image that was written out. -/
def State.findImage (s : State) (c : Cmd) : Option Image :=
  let all := s.snaps.slot0.toList ++ s.snaps.slot1.toList
  if c.n 0 ≠ 0 then all.find? (·.id = c.n 0)
  else s.snaps.written.find? (fun im => c.bytes = (List.range c.bytes.length).map (Config.imageByte im.id))

/-- Pages whose configuration an image does not carry: queues, Callboard, greenroom and twin (R446). -/
def restored : Blk → Bool
  | .device | .updateBank _ | .seat _ | .callGlobal | .callSeat _ | .greenroom | .jack | .twin | .ndodom
  | .mailbox | .resetPage => false
  | _ => true

/-- Fields that show a Trapeze or Prompter context (R446). -/
def contextField : Blk → Fld → Bool
  | .obj _, f => [Reg.Obj.FLAGS_STATE, Reg.Obj.CTX_STATE, Reg.Obj.CTX_LOOP_DEPTH, Reg.Obj.CTX_FAULT, Reg.Obj.CTX_PC,
      Reg.Obj.CUR_X, Reg.Obj.CUR_Y, Reg.Obj.CUR_Z].contains f
  | .prompter _, f => [Reg.Prompter.FLAGS, Reg.Prompter.STATE, Reg.Prompter.WAIT_KIND, Reg.Prompter.FAULT, Reg.Prompter.PC,
      Reg.Prompter.CALL_DEPTH, Reg.Prompter.LOOP_DEPTH, Reg.Prompter.MARK_LO, Reg.Prompter.MARK_HI,
      Reg.Prompter.TARGET_LO, Reg.Prompter.TARGET_HI].contains f
  | _, _ => false

/-- The configuration of an image becomes the active and staged view of a unit; CTRL.RUN follows the render as
it is. -/
def State.restoreBlk (s : State) (im : Image) (b : Blk) (serial : Nat) : State :=
  let s := b.allFields.foldl (fun s f =>
    if ((f.acc = .rw || f.acc = .rwi) && !(b = .render && f = Reg.Render.CTRL_RUN)) || contextField b f then
      s.setBoth b f (regGet im.act b.base f)
    else s) s
  let s := (extraOf b).2 |> fun n => (List.range (n / 4)).foldl (fun s k =>
    let a := (extraOf b).1 + 4 * k
    let w := Map.get 0#32 a im.act
    (s.withAct (s.fab.act.put 0#32 a w)).withStg (s.fab.stg.put 0#32 a w)) s
  let s := s.setPending b false
  if b.isRecord then s else s.set b Reg.Hdr.APPLIED_COMMIT serial

/-- An output of an image: its bank by reference, its thermal state the loudspeaker's; whether it comes
up in bypass. -/
def restoreOut (now im : OutEngine) : OutEngine × Bool :=
  let sel := im.corr.live
  let mine := now.corr.bank (sel - 1)
  let lost := sel ≠ 0 && !(mine.usable && mine.tag = (im.corr.bank (sel - 1)).tag)
  ({ im with
    corr := { now.corr with live := if lost then 0 else sel, fade := none, hist := im.corr.hist, histFrom := im.corr.histFrom
                            seg := [], head := 0 }
    prot := { im.prot with dVc := now.prot.dVc, dMag := now.prot.dMag, atten := now.prot.atten, therm := now.prot.therm }
    preDone := 0, postDone := 0 }, lost)

/-- Update-group configuration of an image (R446). -/
def State.restoreGroups (s : State) (im : Image) : State :=
  (List.range 32).foldl (fun s g =>
    [Reg.Update.UG_CFG_KIND g, Reg.Update.UG_CFG_OWNER g, Reg.Update.UG_CFG_SHARED g].foldl (fun s f =>
      s.setBoth .update f (regGet im.act Blk.update.base f)) s) s

/-- The pool units that the paths of an image hold. -/
def poolOf (paths : Map ObjPaths) : Map Nat :=
  paths.foldl (fun (m : Map Nat) (e : Nat × ObjPaths) =>
    (e.2.sets.flatMap (fun t => t.paths.flatMap (·.units))).foldl (fun m u => m.put 0 u (e.1 + 1)) m) []

/-- APPLY at its boundary (R448). -/
def State.restoreApply (s : State) (r : RestoreRun) : State :=
  let im := r.image
  let blks := allBlks.filter (fun b => b.present s.model && restored b)
  let s := blks.foldl (fun s b => s.noteChange b s.render.rsi) s
  let s := (blks.foldl (fun s b => s.restoreBlk im b r.serial) s).restoreGroups im
  let outs := im.outs.map (fun (e : Nat × OutEngine) => (e.1, restoreOut (s.out e.1) e.2))
  let lost := (outs.filter (fun (e : Nat × OutEngine × Bool) => e.2.2)).length
  let objs := im.objs.foldl (fun (m : Map ObjEngine) (e : Nat × ObjEngine) =>
    let now := s.obj e.1
    m.put {} e.1 (if im.history then e.2 else { e.2 with near := now.near, far := now.far })) []
  let s := { s with
    fab := { s.fab with recOwner := im.recOwner, recGroup := im.recGroup, held := [] }
    motion := im.motion, cue := im.cue, layouts := im.layouts, outEq := im.outEq, objs := objs
    paths := { s.paths with objs := im.paths, pool := poolOf im.paths }
    routes := im.routes, buses := im.buses, bass := im.bass
    outs := outs.foldl (fun (m : Map OutEngine) (e : Nat × OutEngine × Bool) => m.put {} e.1 e.2.1) []
    prompters := im.prompters
    chains := if im.history then im.chains else s.chains }
  let s := s.showHeld.showLayouts
  let s := s.finish r.seat r.tag (if lost = 0 then Status.ok else Status.degraded) r.serial lost
  { s with snaps := { s.snaps with restore := some { r with applied := true } } }

/-- At a block boundary, or at once while no render runs: APPLY, and the end of the ramp up. -/
def State.restoreBoundary (s : State) : State :=
  match s.snaps.restore with
  | none => s
  | some r =>
    if !r.applied && (s.render.rsi = r.at_ || s.stopped) then
      let s := s.restoreApply r
      if s.stopped then { s with snaps := { s.snaps with restore := none } } else s
    else if r.applied && r.at_ + 4 * s.blockSize + r.up ≤ s.render.rsi then { s with snaps := { s.snaps with restore := none } }
    else s

/-- One step of RESTORE: FETCH, CHECK, LOAD per 8 MiB, APPLY (R448). -/
def State.stepRestore (s : State) (c : Cmd) (host : List Byte) : State :=
  match c.steps with
  | 0 => if c.n 0 = 0 then s.fetchStep c 1 host else s.stepped c.seat c.tag
  | 1 =>
    match s.findImage c with
    | none => s.finish c.seat c.tag Status.badParam
    | some im =>
      if im.rate ≠ s.fs then s.finish c.seat c.tag Status.rateMismatch
      else (s.accept c.seat c.tag).stepped c.seat c.tag
  | k =>
    match s.findImage c with
    | none => s.finish c.seat c.tag Status.badParam
    | some im =>
      if k < 2 + copySteps (s.imageSize im.history) then s.stepped c.seat c.tag
      else if s.snaps.restore.isSome then s
      else
        let B := s.blockSize
        let at_ := (s.render.rsi + s.fs / 200 + B) / B * B
        let serial := nextSerial s.fab.serial
        let r : RestoreRun := {
          image := im, seat := c.seat, tag := c.tag, serial := serial, at_ := at_, up := s.routeFade s.render.rsi }
        let s := { s with fab := { s.fab with serial := serial }, snaps := { s.snaps with restore := some r } }
        let s := s.set .update Reg.Update.COMMIT_SERIAL serial
        if s.stopped then s.restoreBoundary else s

/-- A RESTORE that has not applied is given up. -/
def State.cancelRestore (s : State) : State := { s with snaps := { s.snaps with restore := none } }

end Sys2Proof.Machine
end

