-- ==== Sys2Proof/Machine/Callboard.lean ====
section
/-! DEFINITION. The Callboard: source levels, vectors, moderation, delivery, the storm guard and seat
sleep (R450 to R465). -/

namespace Sys2Proof.Machine

open Sys2Proof

/-! Source levels (R450, R451) -/

/-- Are any of the given event bits pending? Bit `j` of an INT_SRC value follows them. -/
def follows (ev j : Nat) (bits : List Nat) : Nat := if bits.any ev.testBit then 2 ^ j else 0

/-- Bits of the members of a list that hold, by position. -/
def flagsOf (l : List Bool) : Nat := l.zipIdx.foldl (fun a (e : Bool × Nat) => if e.1 then a + 2 ^ e.2 else a) 0

/-- Has a stream an enabled event? -/
def State.ingressEvent (s : State) (n : Nat) : Bool :=
  s.fld (.ingress n) Reg.Ingress.EVT_FLAGS &&& s.fld (.ingress n) Reg.Ingress.EVT_EN ≠ 0

def State.egressEvent (s : State) (n : Nat) : Bool :=
  s.fld (.egress n) Reg.Egress.EVT_FLAGS &&& s.fld (.egress n) Reg.Egress.EVT_EN ≠ 0

/-- Object event source 1,024 + n (R111). -/
def State.objSource (s : State) (n : Nat) : Bool :=
  s.fld (.obj n) Reg.Obj.EVT_FLAGS &&& s.fld (.obj n) Reg.Obj.EVT_EN ≠ 0

/-- While CQ j of a seat holds entries beyond its HEAD doorbell, or, while the seat sleeps, a completion
is held for it (R397, R463). -/
def State.cqSource (s : State) (seat j : Nat) : Bool :=
  s.fld (.seat seat) (Reg.Seat.CQ_TAIL j) ≠ s.fld (.seat seat) (Reg.Seat.CQ_HEAD j) ||
    (s.bit (.seat seat) Reg.Seat.STATUS_SLEEP_ACK && (s.seat seat).done.any (·.cq = j))

/-- INT_SRC of a page, live. Where the chapter of a page gives no bits, they mirror its events. -/
def State.intSrc (s : State) (b : Blk) : Nat :=
  let ev := s.fld b Reg.Hdr.EVENTS
  match b with
  | .objPage n => flagsOf ((List.range 8).map (fun (i : Nat) => s.objSource (8 * n + i)))
  | .busPage n => flagsOf ((List.range 8).map (fun (i : Nat) =>
      decide (s.fld (.bus (8 * n + i)) Reg.Bus.EVT_FLAGS &&& s.fld (.bus (8 * n + i)) Reg.Bus.EVT_EN ≠ 0)))
  | .outPage n =>
    flagsOf ((List.range 8).map (fun (i : Nat) =>
        decide (s.fld (.out (8 * n + i)) Reg.Out.EVT_FLAGS &&& s.fld (.out (8 * n + i)) Reg.Out.EVT_EN ≠ 0)) ++
      (List.range 8).map (fun (i : Nat) =>
        decide (s.fld (.out (8 * n + i)) Reg.Out.PEVT_FLAGS &&& s.fld (.out (8 * n + i)) Reg.Out.PEVT_EN ≠ 0)))
  | .inPage n => flagsOf [(List.range 64).any (fun (i : Nat) => s.ingressEvent (64 * n + i))]
  | .egPage n => flagsOf [(List.range 64).any (fun (i : Nat) => s.egressEvent (64 * n + i))]
  | .ethStat p => flagsOf [s.fld (.ethStat p) Reg.EthStat.HALF_LO ≠ 0 || s.fld (.ethStat p) Reg.EthStat.HALF_HI ≠ 0]
  | .seat n => flagsOf ((List.range 4).map (s.cqSource n)) + follows ev 4 [0] + follows ev 5 [1] +
      follows ev 6 [2] + follows ev 7 [5] + follows ev 8 [3, 4]
  | .tdm _ => follows ev 0 [0, 1] + follows ev 1 [2] + follows ev 2 [3] + follows ev 3 [4, 5] +
      follows ev 4 [6] + follows ev 5 [7] + follows ev 6 [8] + follows ev 7 [9]
  | .aesRx _ => follows ev 0 [0, 1, 3, 8] + follows ev 1 [2] + follows ev 2 [4, 5] + follows ev 3 [6, 7]
  | .ps _ => follows ev 0 [0, 5, 6, 7] + follows ev 1 [1] + follows ev 2 [2] + follows ev 3 [3, 4]
  | .prompter _ => follows ev 0 [0] + follows ev 1 [1, 2] + follows ev 2 [3] + follows ev 3 [4, 5] +
      follows ev 4 [6, 7] + follows ev 5 [8]
  | .greenroom => follows ev 0 [0, 1, 2] + flagsOf [false, s.curtain.raw] + follows ev 2 [3] + follows ev 3 [4] +
      follows ev 4 [6] + follows ev 5 [7] + follows ev 6 [5] + follows ev 7 [8] +
      2 ^ 16 * s.fld .greenroom Reg.Greenroom.GPIO_EDGE
  | .jack =>
    let f := fun (j : Nat) => s.fld .jack (Reg.Jack.J_EVT_FLAGS j)
    follows (f 0) 0 [0, 1, 2] + follows (f 0) 1 [3, 4] + follows (f 1) 2 [0, 1, 2] + follows (f 1) 3 [3, 4]
  | .device => flagsOf [s.bit .device Reg.Hdr.ERR_VALID]
  | _ => ev

/-- Is a cause of the page asserted and enabled, among the bits of a mask? -/
def State.causes_ (s : State) (b : Blk) (mask : Nat) : Bool :=
  s.intSrc b &&& s.fld b Reg.Hdr.INT_EN &&& mask ≠ 0

/-- Is bit `j` of the page's causes asserted and enabled? -/
def State.cause (s : State) (b : Blk) (j : Nat) : Bool := s.causes_ b (2 ^ j)

def allBits : Nat := 0xFFFFFFFF

/-- System sources (R451). -/
def State.systemLevel (s : State) (n seat : Nat) : Bool :=
  match n with
  | 0 => s.bit .device Reg.Hdr.ERR_VALID
  | 1 => s.cause (.updateBank seat) 1
  | 2 => s.cause (.updateBank seat) 2
  | 3 => s.cause (.updateBank seat) 0
  | 4 => s.cause .render 0
  | 5 => s.causes_ .health allBits
  | 6 => s.causes_ .curtain allBits
  | 7 => seat = 0 && (List.range 8).any (fun q => (s.intSrc (.seat q)).testBit 8)
  | 9 => s.causes_ .prompterGlobal allBits
  | 10 => s.causes_ .ndodom allBits
  | 11 => s.causes_ .dramc allBits
  | 12 => s.causes_ .clocks allBits
  | 13 => s.causes_ .mailbox allBits
  | 14 => s.causes_ .resetPage allBits
  | 15 => s.causes_ .twin allBits
  | 16 => s.cause (.callSeat seat) 0
  | _ => false

/-- Ethernet sources of port `p` (R346). -/
def State.ethLevel (s : State) (p j : Nat) : Bool :=
  match j with
  | 0 => s.causes_ (.ethMac p) 0b100001
  | 1 => s.causes_ (.ethMac p) 0b001110
  | 2 => s.cause (.ethMac p) 4
  | 3 => s.cause (.ethCls p) 0
  | 4 => s.causes_ (.ethGate p) 0b11
  | 5 => s.cause (.ethStat p) 0
  | 6 => (List.range 256).any (fun n => s.fld (.ingress n) Reg.Ingress.CTRL_PORT = p && s.ingressEvent n)
  | 7 => (List.range 256).any (fun n => s.fld (.egress n) Reg.Egress.CTRL_PORT = p && s.egressEvent n)
  | _ => false

/-- Sources 384 to 575: time, render, measurement (R451). -/
def State.renderLevel (s : State) (n : Nat) : Bool :=
  match n with
  | 384 => s.causes_ (.time 0) allBits
  | 385 => s.causes_ (.time 1) allBits
  | 386 => s.causes_ .mediaClk allBits
  | 388 | 389 | 390 | 391 => s.causes_ .tsq (2 ^ (n - 388) + 2 ^ (n - 384))
  | 448 => s.causes_ .render 0b110
  | 449 => s.causes_ .ringmaster allBits
  | 450 => s.causes_ .trace allBits
  | 451 => s.causes_ .busMatrix allBits
  | 452 => s.causes_ .layout allBits
  | 453 => s.causes_ .pan allBits
  | 454 => s.causes_ .path allBits
  | 455 => (List.range 64).any (fun k => s.causes_ (.outPage k) 0xFF)
  | 456 => (List.range 8).any (fun k => s.causes_ (.busPage k) allBits)
  | 457 => s.causes_ .monitor allBits
  | 458 => s.causes_ .protect allBits
  | 459 => (List.range 64).any (fun k => s.causes_ (.outPage k) 0xFF00)
  | 512 => s.causes_ .correct allBits
  | 513 => s.causes_ .measure allBits
  | 514 => s.causes_ .capture allBits
  | _ => false

/-- Greenroom and jack sources (R451, R471, R472). -/
def State.greenLevel (s : State) (n : Nat) : Bool :=
  if n < 708 then s.cause .greenroom (n - 704)
  else if n < 712 then s.cause .jack (n - 708)
  else if n < 716 then s.cause .greenroom (n - 708)
  else s.cause .greenroom (n - 700)

/-- Is source `n` asserted, in the copy of a seat? -/
def State.sourceLevel (s : State) (n seat : Nat) : Bool :=
  if n < 64 then s.systemLevel n seat
  else if n < 128 then s.cause (.seat ((n - 64) / 8)) (n % 8)
  else if n < 256 then s.cause (.tdm ((n - 128) / 8)) (n % 8)
  else if n < 288 then s.cause (.aesRx ((n - 256) / 4)) (n % 4)
  else if n < 320 then n % 4 = 0 && s.cause (.aesTx ((n - 288) / 4)) 0
  else if n < 384 then s.ethLevel ((n - 320) / 16) (n % 16)
  else if n < 576 then s.renderLevel n
  else if n < 640 then s.cause (.ps ((n - 576) / 4)) (n % 4)
  else if n < 704 then n % 8 < 6 && s.cause (.prompter ((n - 640) / 8)) (n % 8)
  else if n < 732 then s.greenLevel n
  else if n < 1024 then false
  else s.objSource (n - 1024)

/-- Sources that assert separately for each seat; 7 goes to SEAT 0 alone. -/
def banked (n : Nat) : Bool := n = 1 || n = 2 || n = 3 || n = 7 || n = 16

/-! Vectors (R452 to R457) -/

def State.callOf (s : State) (seat : Nat) : CallState := Map.get ({} : CallState) seat s.call

def State.setCall (s : State) (seat : Nat) (c : CallState) : State :=
  { s with call := s.call.put {} seat c }

def State.vec (s : State) (seat v : Nat) : Vec := Map.get ({} : Vec) v (s.callOf seat).vecs

/-- The level of a source as the Callboard last took it. -/
def State.levelOf (s : State) (n seat : Nat) : Bool :=
  Map.get false (if banked n then 2048 * (seat + 1) + n else n) s.levels

/-- The vector a seat maps a source to, if it maps it. -/
def State.vectorOf (s : State) (seat n : Nat) : Option Nat :=
  let m := Map.get 0 n (s.callOf seat).map
  if m.testBit 7 then some (m % 64) else none

/-- The sources pending on vector `v` of a seat, lowest first (R452). -/
def State.pendingOn (s : State) (seat v : Nat) : List Nat :=
  ((s.callOf seat).map.map (·.1)).filter (fun n => s.vectorOf seat n = some v && s.levelOf n seat)

/-- A one-bit entry of a pair of 32-bit words. -/
def State.bit64 (s : State) (b : Blk) (lo hi : Fld) (v : Nat) : Bool := (s.fld64 b lo hi).testBit v

def State.put64 (s : State) (b : Blk) (lo hi : Fld) (v : Nat) (on : Bool) : State :=
  let w := s.fld64 b lo hi
  s.set64 b lo hi (if w.testBit v = on then w else if on then w + 2 ^ v else w - 2 ^ v)

def State.masked (s : State) (seat v : Nat) : Bool :=
  s.bit64 (.callSeat seat) Reg.CallSeat.VEC_MASK_LO Reg.CallSeat.VEC_MASK_HI v

def State.doorbells (s : State) (seat : Nat) : Bool := s.bit (.callSeat seat) Reg.CallSeat.CFG_DELIVERY

def State.asleep (s : State) (seat : Nat) : Bool := s.bit (.seat seat) Reg.Seat.STATUS_SLEEP_ACK

/-- Is vector `v` ready (R453)? `now` leaves moderation aside (R462). -/
def State.vecReady (s : State) (seat v : Nat) (now : Bool := false) : Bool :=
  let w := s.vec seat v
  let b := Blk.callSeat seat
  !(s.pendingOn seat v).isEmpty && !s.masked seat v && s.bit b Reg.CallSeat.CFG_GATE && !s.asleep seat &&
    !(s.doorbells seat && w.service.isSome) &&
    (now || (0 < w.count && (s.fld b (Reg.CallSeat.MOD_COUNT v) ≤ w.count ||
      s.fld b (Reg.CallSeat.MOD_HOLDOFF v) = 0 || w.heldOff)))

/-- VEC_PEND, VEC_INSERVICE and VEC_SRC follow the vector (R460). -/
def State.showVec (s : State) (seat v : Nat) : State :=
  let b := Blk.callSeat seat
  let w := s.vec seat v
  let p := s.pendingOn seat v
  let s := s.put64 b Reg.CallSeat.VEC_PEND_LO Reg.CallSeat.VEC_PEND_HI v (!p.isEmpty)
  let s := s.put64 b Reg.CallSeat.VEC_INSERVICE_LO Reg.CallSeat.VEC_INSERVICE_HI v w.service.isSome
  let src := w.service.getD (p.headD 0)
  (s.set b (Reg.CallSeat.VEC_SRC_SOURCE v) src).setBit b (Reg.CallSeat.VEC_SRC_VALID v)
    (!p.isEmpty || w.service.isSome)

def State.setVec (s : State) (seat v : Nat) (w : Vec) : State :=
  let c := s.callOf seat
  (s.setCall seat { c with vecs := c.vecs.put {} v w }).showVec seat v

/-- Does any vector of the seat have a pending source; is any ready? -/
def State.anyPending (s : State) (seat : Nat) : Bool :=
  (List.range 64).any (fun v => !(s.pendingOn seat v).isEmpty)

def State.anyReady (s : State) (seat : Nat) : Bool := (List.range 64).any (fun v => s.vecReady seat v)

/-- SEATIRQ_B is released when nothing is pending any more, and by a write that removes the last ready
vector (R454, R458). -/
def State.releasePin (s : State) (seat : Nat) (write : Bool) : State :=
  let c := s.callOf seat
  let keep := s.anyPending seat && !(write && !s.anyReady seat)
  s.setCall seat { c with pin := c.pin && keep }

/-- The set of pending sources of a vector may have changed: new ones arrive, and counting restarts
when the last one has cleared (R452, R454). `before` lists those pending until now. -/
def State.arrivals (s : State) (seat v : Nat) (before : List Nat) : State :=
  let now := s.pendingOn seat v
  let w := s.vec seat v
  let new := (now.filter (fun n => !before.contains n)).length
  let w := if w.count = 0 && 0 < new then { w with since := s.render.tick } else w
  let w := { w with count := w.count + new }
  let w := if now.isEmpty then { w with count := 0, heldOff := false, told := false } else w
  (s.setVec seat v w).releasePin seat false

/-! The watch list (R463, R467) -/

/-- Sources the greenroom observes itself. -/
def greenSource (n : Nat) : Bool := (705 ≤ n && n ≤ 713) || (716 ≤ n && n ≤ 731)

/-- Is the module in STANDBY or DORMANT? -/
def State.lowPower (s : State) : Bool := 2 ≤ s.fld .greenroom Reg.Greenroom.PWR_STATE

/-- WAKE.DRIVEN follows the seats that need their wake path and a pulse under way (R463, R471). -/
def State.showWake (s : State) : State :=
  let kind := fun (q : Nat) => s.fld (.seat q) Reg.Seat.BIND_KIND
  let w := s.green.wakes
  s.set .greenroom Reg.Greenroom.WAKE_DRIVEN (flagsOf [w.any (kind · = 1), w.any (kind · = 2),
    w.any (kind · = 3) || s.green.pulseEnd.isSome])

def State.wakeSeat (s : State) (seat : Nat) : State :=
  { s with green := { s.green with wakes := (seat :: s.green.wakes).eraseDups } }.showWake

def State.wakeDone (s : State) (seat : Nat) : State :=
  { s with green := { s.green with wakes := s.green.wakes.filter (· ≠ seat) } }.showWake

/-- A source newly asserts: the enabled entries that name it fire (R463, R467). -/
def State.watch (s : State) (n : Nat) : State :=
  if s.lowPower && !greenSource n then s
  else
    (List.range 32).foldl (fun s e =>
      if s.bit .greenroom (Reg.Greenroom.WATCH_EN e) && s.fld .greenroom (Reg.Greenroom.WATCH_SOURCE e) = n then
        let s := s.stick .greenroom Reg.Greenroom.WATCH_HIT e
        let seats := s.fld .greenroom (Reg.Greenroom.WATCH_SEATS e)
        let s := if s.lowPower then s
          else ((List.range 8).filter (fun q => seats.testBit q && s.asleep q)).foldl State.wakeSeat s
        if s.green.entry.isSome && s.bit .greenroom (Reg.Greenroom.WATCH_MODULE e) && greenSource n then
          { s with green := { s.green with abort := true } }
        else s
      else s) s

/-! Commands -/

/-- A change of level reaches one copy: pending sets move, and a rise fires the watch list. -/
def State.takeLevel (s : State) (n key : Nat) (level : Bool) (seats : List Nat) : State :=
  let was := Map.get false key s.levels
  let before := seats.map (fun q => (q, (s.vectorOf q n).map (fun v => (v, s.pendingOn q v))))
  let s := { s with levels := s.levels.put false key level }
  let s := before.foldl (fun s (e : Nat × Option (Nat × List Nat)) =>
    match e.2 with
    | some (v, p) => s.arrivals e.1 v p
    | none => s) s
  if level && !was then s.watch n else s

/-- The level of a source reaches the Callboard (R450): every seat's copy of a banked one. -/
def State.sourceChange (s : State) (n : Nat) : State :=
  if 2048 ≤ n then s
  else if banked n then
    (List.range 8).foldl (fun s q => s.takeLevel n (2048 * (q + 1) + n) (s.sourceLevel n q) [q]) s
  else
    let level := s.sourceLevel n 0
    let s := s.takeLevel n n level (List.range 8)
    let w := s.fld .callGlobal (Reg.CallGlobal.LEVEL (n / 32))
    s.set .callGlobal (Reg.CallGlobal.LEVEL (n / 32))
      (if w.testBit (n % 32) = level then w else if level then w + 2 ^ (n % 32) else w - 2 ^ (n % 32))

/-- The source of a CQ for which a completion is held while its seat sleeps; the watch list takes it even
where the CQ already held entries (R463). -/
def State.heldSource (s : State) (n : Nat) : Bool :=
  let q := (n - 64) / 8
  64 ≤ n && n < 128 && n % 8 < 4 && s.asleep q && !s.green.wakes.contains q &&
    (s.seat q).done.any (·.cq = n % 8) && s.levelOf n 0 && s.sourceLevel n 0

def execSourceChange (src : Nat) (s : State) : Res :=
  settle (if s.heldSource src then (s.sourceChange src).watch src else s.sourceChange src)

/-- Can `n` µs have passed since the first arrival on a vector? Ticks count them, so the first and the last
may each be partly gone. -/
def State.heldFor (s : State) (w : Vec) (n : Nat) : Bool := n * s.fs ≤ (s.render.tick + 1 - w.since) * 1000000

/-- HOLDOFF has passed since the first arrival (R453). -/
def execHoldoffExpire (seat v : Nat) (s : State) : Res :=
  let w := s.vec seat v
  settle (
    if v < 64 && 0 < w.count && s.heldFor w (s.fld (.callSeat seat) (Reg.CallSeat.MOD_HOLDOFF v)) then
      s.setVec seat v { w with heldOff := true }
    else s)

/-- Ticks in 1 ms. -/
def State.msTicks (s : State) : Nat := s.fs / 1000

/-- The storm guard (R457). -/
def State.storm (s : State) (seat v : Nat) : State :=
  let b := Blk.callSeat seat
  let w := s.vec seat v
  let recent := w.times.filter (fun t => s.render.tick < t + s.msTicks)
  if s.bit b Reg.CallSeat.CFG_STORM_EN && s.bit b Reg.CallSeat.CFG_GATE &&
      s.fld b Reg.CallSeat.STORM_LIMIT ≤ recent.length then
    let s := s.put64 b Reg.CallSeat.VEC_MASK_LO Reg.CallSeat.VEC_MASK_HI v true
    let s := s.setStg b Reg.CallSeat.VEC_MASK_LO (s.fld b Reg.CallSeat.VEC_MASK_LO)
    let s := s.setStg b Reg.CallSeat.VEC_MASK_HI (s.fld b Reg.CallSeat.VEC_MASK_HI)
    let s := s.stick b (if v < 32 then Reg.CallSeat.VEC_STORM_LO else Reg.CallSeat.VEC_STORM_HI) (v % 32)
    (s.event b 0).releasePin seat true
  else s

/-- A doorbell goes out for a source: a PCIe seat's MSI-X write, or a Stagedoor EVENT record (R455). -/
def State.doorbell (s : State) (seat v n : Nat) : State :=
  let c := s.callOf seat
  let s := s.setCall seat { c with bell := some (v, n), bells := c.bells + 1 }
  if s.isStagedoor seat then s.sdEvent seat 1 [BitVec.ofNat 32 n] else s

/-- A ready vector is delivered by its pin or by a doorbell (R454, R455). -/
def State.deliver (s : State) (seat v : Nat) (now : Bool) : State :=
  if !s.vecReady seat v now then s
  else
    let w := s.vec seat v
    let times := s.render.tick :: w.times.filter (fun t => s.render.tick < t + s.msTicks)
    if s.doorbells seat then
      let n := (s.pendingOn seat v).headD 0
      ((s.doorbell seat v n).setVec seat v
        { w with service := some n, count := 0, heldOff := false, times := times }).storm seat v
    else
      let c := s.callOf seat
      let s := s.setCall seat { c with pin := true }
      if w.told then s else (s.setVec seat v { w with told := true, times := times }).storm seat v

/-- Every ready vector of a seat is delivered. -/
def State.deliverAll (s : State) (seat : Nat) (now : Bool) : State :=
  (List.range 64).foldl (fun s v => s.deliver seat v now) s

def execDelivery (seat v : Nat) (s : State) : Res := settle (if v < 64 then s.deliver seat v false else s)

/-- May a doorbell of a vector pass its decision point (R458)? -/
def State.mayRing (s : State) (seat v : Nat) : Bool :=
  s.doorbells seat && !s.masked seat v && s.bit (.callSeat seat) Reg.CallSeat.CFG_GATE && !s.asleep seat

/-- A write of EOI (R456). Sources pending when service ends count as arrivals not yet delivered; so does
the source itself where an enable holds its doorbell back (R458). -/
def State.eoi (s : State) (seat src : Nat) : State :=
  match (List.range 64).find? (fun v => (s.vec seat v).service = some src) with
  | none => s
  | some v =>
    let w := s.vec seat v
    let p := s.pendingOn seat v
    if p.contains src && s.mayRing seat v then
      ((s.doorbell seat v src).setVec seat v { w with
        times := s.render.tick :: w.times.filter (fun t => s.render.tick < t + s.msTicks) }).storm seat v
    else
      let first := if w.count = 0 then s.render.tick else w.since
      s.setVec seat v { w with service := none, count := max w.count p.length, since := first }

def execEoi (seat src : Nat) (s : State) : Res := settle (s.eoi seat src)

/-- After a change of GATE or of a mask: the pin may be released, and storms deferred while GATE was 0
act (R457, R458, R459). -/
def State.gated (s : State) (seat : Nat) : State :=
  let s := s.releasePin seat true
  if s.bit (.callSeat seat) Reg.CallSeat.CFG_GATE then
    ((List.range 64).filter (fun v => !(s.vec seat v).times.isEmpty)).foldl (fun s v => s.storm seat v) s
  else s

/-- A write of CFG.GATE; on its return every ready vector is delivered (R459). -/
def execGate (seat : Nat) (on : Bool) (s : State) : Res :=
  let s := (s.setBoth (.callSeat seat) Reg.CallSeat.CFG_GATE (if on then 1 else 0)).gated seat
  settle (if on then s.deliverAll seat false else s)

/-- A write of a MAP word: four entries (R460). -/
def State.mapWrite (s : State) (seat first : Nat) (data : Word) : State :=
  (List.range 4).foldl (fun s k =>
    let n := first + k
    let byte := (data.toNat / 256 ^ k) % 256 &&& 0xBF
    let c := s.callOf seat
    let old := s.vectorOf seat n
    let vs := (old.toList ++ (if byte.testBit 7 then [byte % 64] else [])).eraseDups
    let before := vs.map (fun v => (v, s.pendingOn seat v))
    let s := s.setCall seat { c with map := c.map.put 0 n byte }
    (before.foldl (fun s (e : Nat × List Nat) => s.arrivals seat e.1 e.2) s).releasePin seat true) s

/-! Sleep (R462 to R464) -/

/-- SLEEP_REQ = 1: fetching stops, and the handshake runs from here. -/
def State.sleepReq (s : State) (seat : Nat) : State :=
  let again := s.bit (.seat seat) Reg.Seat.CTRL_SLEEP_REQ
  let s := s.setBoth (.seat seat) Reg.Seat.CTRL_SLEEP_REQ 1
  if again then s else s.setSeat seat { s.seat seat with sleepAt := s.render.tick }

def execSleepReq (seat : Nat) (s : State) : Res := settle (s.sleepReq seat)

/-- Issued writes have drained (for a Stagedoor seat every message is acknowledged, or 200 ms have
passed): pending vectors are delivered without moderation and SLEEP_ACK is set (R462). -/
def execSleepAck (seat : Nat) (expired : Bool) (s : State) : Res :=
  let b := Blk.seat seat
  settle (
    if s.bit b Reg.Seat.CTRL_SLEEP_REQ && !s.asleep seat &&
        (!s.isStagedoor seat || (s.seat seat).sd.unacked.isEmpty ||
          (expired && (s.seat seat).sleepAt + s.fs / 5 ≤ s.render.tick + 1)) then
      let s := s.deliverAll seat true
      let c := s.callOf seat
      (s.setCall seat { c with pin := false }).set b Reg.Seat.STATUS_SLEEP_ACK 1
    else s)

/-- SLEEP_REQ and SLEEP_ACK clear, the wake path is released, and held messages go out. -/
def State.sleepClear (s : State) (seat : Nat) : State :=
  let s := s.setBoth (.seat seat) Reg.Seat.CTRL_SLEEP_REQ 0
  let s := s.set (.seat seat) Reg.Seat.STATUS_SLEEP_ACK 0
  (s.wakeDone seat).sdFlush seat

/-- A write of SLEEP_REQ = 0: every vector then ready is delivered (R462, R464). -/
def State.sleepEnd (s : State) (seat : Nat) : State := (s.sleepClear seat).deliverAll seat false

def execSleepEnd (seat : Nat) (s : State) : Res := settle (s.sleepEnd seat)

/-- A seat reset, or BLOCK_RESET of the page: service ends, counts and timers clear (R460). -/
def State.callReset (s : State) (seat : Nat) (all : Bool) : State :=
  let c := s.callOf seat
  let s := s.setCall seat (if all then {} else { c with vecs := [], pin := false })
  let s := if all then s.resetPage (.callSeat seat)
    else (s.set (.callSeat seat) Reg.CallSeat.VEC_STORM_LO 0).set (.callSeat seat) Reg.CallSeat.VEC_STORM_HI 0
  (List.range 64).foldl (fun s v => s.showVec seat v) s

end Sys2Proof.Machine
end

