-- ==== Sys2Proof/Machine/CurtainUnit.lean ====
section
/-! DEFINITION. The safety curtain (R199 to R205). -/

namespace Sys2Proof.Machine

open Sys2Proof

/-- STATUS.CAUSE: bit 0 PIN, 1 THERM, 2 HOST, 3 PEER (R204). -/
def State.causes (s : State) : Nat := s.fld .curtain Reg.Curtain.STATUS_CAUSE

/-- Replace the curtain; STATUS.STATE follows. -/
def State.setCurtain (s : State) (c : Curtain) : State :=
  { s with curtain := c }.set .curtain Reg.Curtain.STATUS_STATE c.code

/-- Does the curtain stand open, or is it opening, with no closing due? -/
def Curtain.canClose (c : Curtain) : Bool := (c.phase = .isOpen || c.phase = .opening) && !c.due

/-- In LOCKSTEP each twin reports its causes, and the principal names the closing block: the first one released at
least 5 microseconds later. The model's time does not resolve these, so whether that is the next block or the one
after it is open (R203, log entry 12). -/
def State.reportCauses (s : State) : State :=
  let own := s.causes % 8
  if s.lockPri then
    let c := s.curtain
    let (v, s) := s.fresh
    let named := if c.due then
        c.named.orElse (fun _ => some (s.render.block + 1 + v % 2)) else none
    { s with curtain := { c with named := named } }.tellPeer (.curtain own named)
  else s.tellPeer (.curtain own none)

/-- A cause is present: a curtain that is not closing is due to close, at once in STATE, and a release before it is void
(R199, R202). -/
def State.latchCause (s : State) : State :=
  let c := { s.curtain with clearedAt := none, openAt := none }
  if c.canClose then (s.setCurtain { c with due := true }).event .curtain 0 else s.setCurtain c

/-- Set STATUS.CAUSE; when the last cause clears, its time is kept for AUTO_RELEASE (R199, R202). -/
def State.setCauses (s : State) (v : Nat) : State :=
  let old := s.causes
  let s := s.set .curtain Reg.Curtain.STATUS_CAUSE v
  let s := if old ≠ 0 ∧ v = 0 then { s with curtain := { s.curtain with clearedAt := some s.render.tick } }
    else if v ≠ 0 then s.latchCause
    else s
  if (s.lockPri || s.lockUnd) && old % 8 ≠ v % 8 then s.reportCauses else s

/-- PIN and THERM follow their inputs and their enables; HOST and PEER stay (R199, R205). -/
def State.curtainCauses (s : State) : State :=
  let pin := s.curtain.pin && s.bit .curtain Reg.Curtain.CTRL_PIN_EN
  let therm := s.curtain.therm && s.bit .curtain Reg.Curtain.CTRL_THERM_EN
  s.setCauses ((if pin then 1 else 0) + (if therm then 2 else 0) + 4 * (s.causes / 4))

/-- EMGMUTE_B changes level; the causes follow once the level has lasted 100 microseconds (R199). -/
def execEmgmuteChange (low : Bool) (s : State) : Res :=
  settle (if s.curtain.raw = low then s else { s with curtain := { s.curtain with raw := low, rawAt := s.render.tick } })

/-- EMGMUTE_B has kept its level for 100 microseconds: cause PIN becomes present, or clears (R199). Ticks count them;
the first and the last may each be partly gone. -/
def execPinCause (s : State) : Res :=
  settle (
    if 100 * s.fs ≤ (s.render.tick + 1 - s.curtain.rawAt) * 1000000 then
      { s with curtain := { s.curtain with pin := s.curtain.raw } }.curtainCauses
    else s)

/-- A critical thermal event is raised or withdrawn (R199, R522). -/
def State.thermEvent (s : State) (on : Bool) : State :=
  { s with curtain := { s.curtain with therm := on } }.curtainCauses

/-- The house seat writes CTRL.CLOSE (R199). -/
def State.curtainClose (s : State) : State := s.setCauses (s.causes ||| 4)

def execClose (s : State) : Res := settle s.curtainClose

/-- A release is accepted: HOST clears and opening begins with the first block released from block `b` on (R199, R202). -/
def State.acceptRelease (s : State) (b : Nat) : State :=
  let s := s.setCauses (s.causes &&& 3)
  if s.curtain.canClose then s
  else { s with curtain := { s.curtain with openAt := s.curtain.openAt <|> some b } }

/-- In LOCKSTEP a release is forwarded like a commit: both twins open at the block that begins at the second boundary
(R203, R492). -/
def State.openCurtain (s : State) : State :=
  if s.lockPri then
    let b := s.secondBoundary / s.blockSize
    (s.acceptRelease b).tellPeer (.release b)
  else s.acceptRelease 0

/-- The house seat writes CTRL.RELEASE: refused while a cause other than HOST, which a release
clears, is present (R199, R202). -/
def State.curtainRelease (s : State) : State := if s.causes &&& 11 ≠ 0 then s.event .curtain 2 else s.openCurtain

def execReleaseWrite (s : State) : Res := settle s.curtainRelease

/-- CTRL.CLOSE and CTRL.RELEASE in one write (R205). -/
def State.curtainCtrl (s : State) (close release : Bool) : State :=
  if close then (if release then s.curtainClose.event .curtain 2 else s.curtainClose)
  else if release then s.curtainRelease else s

/-- 1 s after the last cause cleared, AUTO_RELEASE releases (R202); an understudy follows its principal. -/
def execAutoRelease (s : State) : Res :=
  settle (match s.curtain.clearedAt with
  | some t =>
    if s.bit .curtain Reg.Curtain.CTRL_AUTO_RELEASE && s.causes = 0 && t + s.fs ≤ s.render.tick && !s.lockUnd then
      s.openCurtain
    else s
  | none => s)

/-- The other twin reports its causes, and the principal the closing block (R203). -/
def State.peerCauses (s : State) (present : Bool) (named : Option Nat) : State :=
  let v := (s.causes &&& 7) + (if present then 8 else 0)
  let s := s.setCauses v
  if s.lockPri then (if present then s.reportCauses else s)
  else { s with curtain := { s.curtain with named := if s.curtain.due then named <|> s.curtain.named else none } }

def execPeerCurtainReport (present : Bool) (named : Option Nat) (s : State) : Res := settle (s.peerCauses present named)

/-- A closing that is due begins at the first sample of the first block released after the cause, whether it is still
present or not, and opening of the first released after a release (R200, R202, R203). -/
def State.curtainBlock (s : State) (b : Nat) : State :=
  let s0 := s.blockStart b
  let c := s.curtain
  let g := c.gainAt (s0 - 1)
  let s :=
    if c.due then
      if (c.named.map (fun n => decide (n ≤ b))).getD true then
        let c := { c with phase := .closing, from_ := if c.phase = .isOpen then unity else g, start := s0,
                          n := 240 * s.rateMul, due := false, named := none }
        (s.setCurtain c).set64 .curtain Reg.Curtain.CLOSED_AT_LO Reg.Curtain.CLOSED_AT_HI s0
      else s
    else if c.openAt.any (· ≤ b) && s.causes = 0 && !c.canClose then
      s.setCurtain { c with phase := .opening, from_ := if c.phase = .closed then 0 else g, start := s0,
                            n := s.rampSamples (s.fld .curtain Reg.Curtain.OPEN_RAMP), openAt := none }
    else s
  s.set .curtain Reg.Curtain.GAIN (s.curtain.gainAt s0)

/-- The last sample of the block released last. -/
def State.lastReleased (s : State) : Nat := s.blockStart s.render.block + s.blockSize - 1

/-- The curtain gain reaches 0 (R200). -/
def execCurtainClosed (s : State) : Res :=
  if s.curtain.phase = .closing ∧ s.curtain.gainAt s.lastReleased = 0 then
    settle (s.setCurtain { s.curtain with phase := .closed })
  else settle s

/-- The curtain gain reaches 1: event OPENED (R202). -/
def execOpened (s : State) : Res :=
  if s.curtain.phase = .opening ∧ !s.curtain.due ∧ s.curtain.gainAt s.lastReleased = unity then
    settle ((s.setCurtain { s.curtain with phase := .isOpen }).event .curtain 1)
  else settle s

end Sys2Proof.Machine
end

