-- ==== Sys2Proof/Machine/Greenroom.lean ====
section
/-! DEFINITION. The greenroom: its clock, the SAR converter, jack sensing, edges and the wake pins
(R466 to R472). -/

namespace Sys2Proof.Machine

open Sys2Proof

/-! Clock (R466) -/

/-- CLK.ON_RC follows the selection and the crystal. -/
def State.greenClock (s : State) : State :=
  s.setBit .greenroom Reg.Greenroom.CLK_ON_RC (s.bit .greenroom Reg.Greenroom.CLK_SRC_SEL || !s.green.crystal)

/-- Four RC periods without a crystal edge. -/
def execClkFail (s : State) : Res :=
  settle (
    if s.green.crystal && !s.bit .greenroom Reg.Greenroom.CLK_SRC_SEL then
      (({ s with green := { s.green with crystal := false } }).greenClock).event .greenroom 2
    else { s with green := { s.green with crystal := false } })

def execCrystalOscillates (s : State) : Res :=
  settle ({ s with green := { s.green with crystal := true } }).greenClock

/-! Jacks (R468 to R472) -/

/-- Ticks counted from `since`, when `ms` milliseconds can have passed: the first and the last may each be
partly gone. -/
def State.passedMs (s : State) (since ms : Nat) : Bool := ms * s.fs ≤ (s.render.tick + 1 - since) * 1000

/-- The button a headset level means: A 1, B 2, C 3, D 4 (R469). -/
def buttonOf (code : Nat) : Option Nat :=
  if code < 159 then some 1
  else if 250 ≤ code ∧ code ≤ 432 then some 2
  else if 501 ≤ code ∧ code ≤ 728 then some 3
  else if 910 ≤ code ∧ code ≤ 1365 then some 4
  else none

/-- The band of a microphone level: a button, 5 the headset itself, 0 outside every band (R470). -/
def micBand (code : Nat) : Nat :=
  (buttonOf code).getD (if 1479 ≤ code ∧ code ≤ 3071 then 5 else 0)

/-- A level found in a class: where it was not there before, it is there from now on. -/
def standing (m : Map (Nat × Nat)) (j cls tick : Nat) : Map (Nat × Nat) :=
  if (Map.get (0, 0) j m).1 = cls then m else m.put (0, 0) j (cls, tick)

/-- Is the module still to classify what is plugged into a jack, with 50 ms of bias gone? -/
def State.classifying (s : State) (j : Nat) : Bool :=
  s.fld .jack (Reg.Jack.J_STATUS_ACCESSORY j) = 4 && !s.lowPower && s.passedMs (Map.get 0 j s.green.classAt) 50

/-- A conversion of channel `c`; channel 7 reads 0 (R468). The first four of a microphone from 50 ms on serve its
classification (R469). -/
def execSarConversion (c code : Nat) (s : State) : Res :=
  let code := if c = 7 then 0 else code % 4096
  let s := if c < 8 then s.set .jack (Reg.Jack.SAR c) code else s
  let g := s.green
  let tick := s.render.tick
  settle (
    if c < 2 then
      { (s.set .jack (Reg.Jack.J_DET_LEVEL c) code) with
        green := { g with det := standing g.det c (if code < 2048 then 1 else 2) tick } }
    else if c < 4 then
      let j := c - 2
      let l := Map.get [] j g.mic
      let mic := if s.classifying j && l.length < 4 then g.mic.put [] j (code :: l) else g.mic
      { (s.set .jack (Reg.Jack.J_MIC_LEVEL j) code) with
        green := { g with mic := mic, band := standing g.band j (micBand code) tick } }
    else s)

/-- The side of its threshold on which the detect level of a jack says that it is inserted. -/
def State.plugSide (s : State) (j : Nat) : Nat := if s.bit .jack (Reg.Jack.J_CTRL_DET_POL j) then 2 else 1

/-- Has the detect level of a jack stood past its threshold, or (`out`) back, for `ms`? -/
def State.detStood (s : State) (j : Nat) (out : Bool) (ms : Nat) : Bool :=
  let d := Map.get (0, 0) j s.green.det
  d.1 = (if out then 3 - s.plugSide j else s.plugSide j) && s.passedMs d.2 ms

/-- The bias of a jack: ON, or AUTO while `auto` asks for it; off in STANDBY and DORMANT (R468, R469). -/
def State.bias (s : State) (j : Nat) (auto : Bool) : State :=
  let mode := s.fld .jack (Reg.Jack.J_CTRL_MICBIAS j)
  s.setBit .jack (Reg.Jack.J_STATUS_MICBIAS_ON j) (!s.lowPower && (mode = 2 || (mode = 1 && auto)))

/-- AUTO wants the bias while a jack is being classified and for a headset. -/
def State.autoBias (s : State) (j : Nat) : Bool :=
  let a := s.fld .jack (Reg.Jack.J_STATUS_ACCESSORY j)
  a = 4 || a = 2

/-- After a module wake the bias returns, and classifications that waited for it start (R477). -/
def State.jackWake (s : State) (j : Nat) : State :=
  let g := s.green
  ({ s with green := { g with mic := g.mic.put [] j [], classAt := g.classAt.put 0 j s.render.tick } }).bias j (s.autoBias j)

/-- The detect level has stood past its threshold for DEBOUNCE.INSERT (R469). -/
def execInsert (j : Nat) (s : State) : Res :=
  settle (
    if j < 2 && s.bit .jack (Reg.Jack.J_CTRL_EN j) && !s.bit .jack (Reg.Jack.J_STATUS_INSERTED j) &&
        s.detStood j false (s.fld .jack (Reg.Jack.J_DEBOUNCE_INSERT j)) then
      let s := (s.set .jack (Reg.Jack.J_STATUS_INSERTED j) 1).stick .jack (Reg.Jack.J_EVT_FLAGS j) 0
      let s := (s.bias j true).set .jack (Reg.Jack.J_STATUS_ACCESSORY j) 4
      { s with green := { s.green with
        mic := s.green.mic.put [] j [], tries := s.green.tries.put 0 j 0
        classAt := s.green.classAt.put 0 j s.render.tick } }
    else s)

/-- The averaged level of four conversions: HEADPHONE 1, HEADSET 2, LINE 3, or between classes. The sum
is compared, so that no rounding enters. -/
def accessoryOf (sum : Nat) : Option Nat :=
  if sum < 4 * 228 then some 1
  else if 4 * 1479 ≤ sum ∧ sum < 4 * 3072 then some 2
  else if 4 * 3072 ≤ sum then some 3
  else none

/-- Classification 50 ms after insertion or after the last attempt, for at most 1 s: 20 attempts
(R469). -/
def execAccessory (j : Nat) (s : State) : Res :=
  let l := Map.get [] j s.green.mic
  settle (
    if j < 2 && s.fld .jack (Reg.Jack.J_STATUS_ACCESSORY j) = 4 && s.bit .jack (Reg.Jack.J_STATUS_INSERTED j) &&
        l.length = 4 && !s.lowPower then
      let t := Map.get 0 j s.green.tries + 1
      let s := { s with green := { s.green with
        mic := s.green.mic.put [] j [], tries := s.green.tries.put 0 j t
        classAt := s.green.classAt.put 0 j s.render.tick } }
      match (accessoryOf (l.foldl (· + ·) 0)).or (if 20 ≤ t then some 3 else none) with
      | none => s
      | some a =>
        let s := (s.set .jack (Reg.Jack.J_STATUS_ACCESSORY j) a).stick .jack (Reg.Jack.J_EVT_FLAGS j) 2
        s.bias j (a = 2)
    else s)

/-- The detect level has returned for 20 ms; a press ends first (R469, R470). -/
def execRemove (j : Nat) (s : State) : Res :=
  settle (
    if j < 2 && s.bit .jack (Reg.Jack.J_STATUS_INSERTED j) && s.detStood j true 20 then
      let s := if s.fld .jack (Reg.Jack.J_STATUS_BUTTON j) ≠ 0 then
          (s.set .jack (Reg.Jack.J_STATUS_BUTTON j) 0).stick .jack (Reg.Jack.J_EVT_FLAGS j) 4
        else s
      let s := (s.set .jack (Reg.Jack.J_STATUS_INSERTED j) 0).set .jack (Reg.Jack.J_STATUS_ACCESSORY j) 0
      (s.bias j false).stick .jack (Reg.Jack.J_EVT_FLAGS j) 1
    else s)

def State.headset (s : State) (j : Nat) : Bool := j < 2 && s.fld .jack (Reg.Jack.J_STATUS_ACCESSORY j) = 2

/-- The band the microphone of a headset has stood in for DEBOUNCE.BUTTON (R470). -/
def State.stoodIn (s : State) (j : Nat) : Nat :=
  let b := Map.get (0, 0) j s.green.band
  if s.headset j && s.passedMs b.2 (s.fld .jack (Reg.Jack.J_DEBOUNCE_BUTTON j)) then b.1 else 0

def execPress (j : Nat) (s : State) : Res :=
  let k := s.stoodIn j
  settle (
    if 0 < k && k < 5 && s.fld .jack (Reg.Jack.J_STATUS_BUTTON j) ≠ k then
      (s.set .jack (Reg.Jack.J_STATUS_BUTTON j) k).stick .jack (Reg.Jack.J_EVT_FLAGS j) 3
    else s)

/-- A return to the headset band ends a press (R470). -/
def execButtonRelease (j : Nat) (s : State) : Res :=
  settle (
    if s.stoodIn j = 5 && s.fld .jack (Reg.Jack.J_STATUS_BUTTON j) ≠ 0 then
      (s.set .jack (Reg.Jack.J_STATUS_BUTTON j) 0).stick .jack (Reg.Jack.J_EVT_FLAGS j) 4
    else s)

/-! Edges and pins (R467, R471) -/

/-- A pin has stood at a level the greenroom has not sensed yet for GPIO_DEBOUNCE of its periods (R467). -/
def execGreenroomGpioEdge (k : Nat) (s : State) : Res :=
  let p := s.pin k
  settle (
    if k < 16 && p.raw != p.green &&
        s.fld .greenroom Reg.Greenroom.GPIO_DEBOUNCE * s.fs ≤ (s.render.tick + 1 - p.tick) * 32768 then
      ({ s with gpio := s.gpio.put ({} : GpioPin) k { p with green := p.raw } }).stick .greenroom Reg.Greenroom.GPIO_EDGE k
    else s)

/-- A write of WAKE.PULSE drives WAKE_B low for 1 ms. -/
def State.wakePulse (s : State) : State :=
  { s with green := { s.green with pulseEnd := some (s.render.tick + s.msTicks) } }.showWake

def execWakePulse (s : State) : Res := settle s.wakePulse

/-- The pulse ends with the media strobe at which 1 ms has passed. -/
def State.pulseTick (s : State) : State :=
  match s.green.pulseEnd with
  | some e => if e ≤ s.render.tick then { s with green := { s.green with pulseEnd := none } }.showWake else s
  | none => s

end Sys2Proof.Machine
end

