-- ==== Sys2Proof/Machine/Loads.lean ====
section
/-! DEFINITION. The load commands: layouts, HRIR sets, motion programs, EQ sets and bulk staging of
object records (R88, R91, R112, R113, R130 to R132, R197, R198, R408). -/

namespace Sys2Proof.Machine

open Sys2Proof

/-- Words of a file, little-endian. -/
def fileWords (f : List Byte) : List Word :=
  (List.range (f.length / 4)).map (fun k => BitVec.ofNat 32 (leAt f (4 * k) 4))

/-- A run of words as a store from key `base` on. -/
def wordsFrom (base : Nat) (ws : List Word) : Map Word :=
  (ws.zipIdx.filter (fun e => e.1 ≠ 0#32)).map (fun e => (base + e.2, e.1))

/-- A command that reads the source at parameter `k` and is not a long operation: it runs once its
bytes are there (an UPLOAD waits for them), and ends at a faulty descriptor (R405). -/
def State.withSource (s : State) (seat tag opcode k : Nat) (host : List Byte)
    (f : Cmd → List Byte → State → State) : State :=
  match s.cmdOf seat tag with
  | none => s
  | some c =>
    match s.sourceFault c k with
    | some e => s.command seat tag opcode (fun c s => s.finish c.seat c.tag e)
    | none =>
      match s.sourceBytes c k host with
      | none => s
      | some bs => s.command seat tag opcode (fun c s => f c bs s)

/-! Writing one field as a register write does (R56, R57, R60) -/

/-- A write of an RW field by its owner: staged in a group, at once on a page or record whose group
is 0xFF. -/
def State.stageFld (s : State) (b : Blk) (f : Fld) (v : Nat) : State :=
  if s.groupOf b = 0xFF then
    if s.fld b f = v % 2 ^ f.width then s
    else (s.noteChange b (s.render.rsi + 1)).setBoth b f v
  else (s.setStg b f v).setPending b true

/-! LAYOUT_LOAD (R131) -/

/-- SLOT_HELD of a slot (R127). -/
def State.slotHeld (s : State) (k : Nat) : Bool :=
  let l := s.layouts
  l.active.any (·.1 = k) || l.armed.any (·.1 = k) || l.old.any (·.1 = k)

def execLayoutLoad (seat tag : Nat) (s : State) : Res :=
  settle (s.command seat tag 0x10 (houseOnly (fun c s =>
    if 4 ≤ c.n 0 then s.finish c.seat c.tag Status.badParam
    else if s.slotHeld (c.n 0) then s.finish c.seat c.tag Status.busy
    else s.startLoad c 1)))

/-- One step of LAYOUT_LOAD. -/
def State.stepLayoutLoad (s : State) (c : Cmd) (host : List Byte) : State :=
  let check := fun (r : Option Nat) (s : State) =>
    match r with
    | some o => s.finish c.seat c.tag Status.badParam o
    | none => s.stepped c.seat c.tag
  match c.steps with
  | 0 => s.fetchStep c 1 host
  | 1 =>
    match layoutCheckFault c.bytes with
    | some o => s.finish c.seat c.tag Status.badParam o
    | none => (s.accept c.seat c.tag).stepped c.seat c.tag
  | 2 => check (layoutPointsFault c.bytes) s
  | 3 => check (layoutMeshFault c.bytes) s
  | 4 => check (layoutMapsFault c.bytes) s
  | _ =>
    let l := layoutCompile c.bytes
    let s := ({ s with layouts := { s.layouts with slots := s.layouts.slots.put {} (c.n 0) l } }).showLayouts
    s.finish c.seat c.tag Status.ok (c.n 0) l.id.toNat

/-! LAYOUT_SELECT and the copy into the idle bank (R132) -/

/-- Is a commit that changes SEL preparing or pending? -/
def State.selCommit (s : State) : Bool :=
  s.fab.commits.any (fun c => c.pending && c.blks.contains .layout &&
    regGet c.vals Blk.layout.base Reg.Layout.SEL ≠ s.fld .layout Reg.Layout.SEL)

/-- The copy into the idle bank begins: another slot that was armed there is displaced (R133). -/
def execLayoutSelect (seat tag : Nat) (s : State) : Res :=
  settle (s.command seat tag 0x11 (houseOnly (fun c s =>
    let k := c.n 0
    let l := s.layouts
    let done := fun st => s.finish c.seat c.tag st
    if 4 ≤ k || (c.flag 0 && s.groupOf .layout = 0xFF) || !l.slots.any (·.1 = k) then done Status.badParam
    else if l.converting || l.old.isSome || s.selCommit || l.arming.isSome then done Status.busy
    else if l.active.any (·.1 = k) then done Status.ok
    else ({ s with layouts := { l with
      armed := l.armed.filter (·.1 = k), arming := some (k, c.flag 0, c.seat, c.sq, c.tag) } }).showLayouts)))

/-- The copy ends: the slot is armed, and with COMMIT the new SEL is strobed for the house seat. -/
def execArmed (s : State) : Res :=
  match s.layouts.arming with
  | none => settle s
  | some (k, commit, seat, _, tag) =>
    let l := Map.get ({} : Layout) k s.layouts.slots
    let s := ({ s with layouts := { s.layouts with arming := none, armed := some (k, l) } }).showLayouts.event .layout 0
    if commit then
      let s := s.stageFld .layout Reg.Layout.SEL k
      let (s, serial) := s.strobe .seat 0 (2 ^ s.groupOf .layout)
        (s.fld64 (.updateBank 0) Reg.Update.UPD_AT_LO Reg.Update.UPD_AT_HI)
      settle (s.finish seat tag Status.ok 0 serial)
    else settle (s.finish seat tag Status.ok)

/-! HRIR_LOAD (R197, R198) -/

def hrirDirs (f : List Byte) : List (Int × Int) :=
  (List.range (leAt f 6 2)).map (fun k => (signed 16 (leAt f (32 + 4 * k) 2), signed 16 (leAt f (34 + 4 * k) 2)))

/-- The first faulty field of an HRIR file. A wrong length is reported as R594 reports it for a
layout (entry 8 of the log). -/
def hrirFault (f : List Byte) : Option Nat :=
  let n := leAt f 6 2
  let t := leAt f 8 2
  let len := 32 + 4 * n + 8 * n * t
  let ds := hrirDirs f
  let near : List (Bool × Nat) := (List.range (min n 1024)).map (fun k =>
    ((List.range k).any (fun j => hrirClose (ds.getD j (0, 0)) (ds.getD k (0, 0))), 32 + 4 * k))
  (([ (decide (leAt f 0 4 ≠ 0x48524952), 0), (decide (leAt f 4 2 ≠ 1), 4), (decide (n < 1 ∨ 1024 < n), 6),
      (decide (t < 64 ∨ 1024 < t ∨ t % 64 ≠ 0), 8), (decide (1 < leAt f 0x0A 2), 0x0A),
      ((f.drop 0x0C).take 16 |>.any (· ≠ 0#8), 0x0C), (decide (f.length ≠ len), min f.length len),
      (decide ((crcWithout f 0x1C).toNat ≠ leAt f 0x1C 4), 0x1C) ] ++ near).find? (·.1)).map (·.2)

def hrirOf (f : List Byte) : Hrir :=
  let n := leAt f 6 2
  let t := leAt f 8 2
  let at_ := fun o => (List.range t).map (fun j => signed 32 (leAt f (o + 4 * j) 4))
  { taps := t, rate := leAt f 0x0A 2, dirs := hrirDirs f
    irs := (List.range n).map (fun k => (at_ (32 + 4 * n + 8 * t * k), at_ (32 + 4 * n + 8 * t * k + 4 * t))) }

/-- The MONITOR page's status (R194). -/
def State.showMonitor (s : State) : State :=
  let sel := s.fld .monitor Reg.Monitor.CTRL_HRIR_SEL
  let valid := fun k => if s.monitor.slots.any (·.1 = k) then 2 ^ k else 0
  ((s.set .monitor Reg.Monitor.STATUS_SLOT_VALID (valid 0 + valid 1)).set .monitor
    Reg.Monitor.STATUS_ACTIVE_SLOT sel).set .monitor Reg.Monitor.STATUS_TAPS
    (Map.get ({} : Hrir) sel s.monitor.slots).taps

def execHrirLoad (seat tag : Nat) (s : State) : Res :=
  settle (s.command seat tag 0x28 (fun c s =>
    let k := c.n 0
    if 2 ≤ k then s.finish c.seat c.tag Status.badParam
    else if !s.model.monitor then s.finish c.seat c.tag Status.absentUnit
    else if !s.owns c.seat .monitor then s.finish c.seat c.tag Status.notOwner
    else if s.fld .monitor Reg.Monitor.CTRL_HRIR_SEL = k ∨ s.stg .monitor Reg.Monitor.CTRL_HRIR_SEL = k then
      s.finish c.seat c.tag Status.busy
    else s.startLoad c 1))

/-- One step of HRIR_LOAD: FETCH, CHECK, TRANSFORM, INSTALL. -/
def State.stepHrirLoad (s : State) (c : Cmd) (host : List Byte) : State :=
  match c.steps with
  | 0 => s.fetchStep c 1 host
  | 1 =>
    match hrirFault c.bytes with
    | some o => s.finish c.seat c.tag Status.badParam o
    | none => (s.accept c.seat c.tag).stepped c.seat c.tag
  | 2 => s.stepped c.seat c.tag
  | _ =>
    let h := hrirOf c.bytes
    let s := { s with monitor := { s.monitor with slots := s.monitor.slots.put {} (c.n 0) h } }
    (s.showMonitor.event .monitor 0).finish c.seat c.tag Status.ok h.dirs.length h.taps

/-! MOTION_LOAD (R112, R113) -/

/-- The instruction starts of a program of `n` words, in order, up to the first word that is none; that
word, if there is one; the loops left open, innermost first, and the first loop nested too deep. -/
def scanMotion (mem : Map Word) (n : Nat) : Nat → Nat → List Nat → List Nat → Option Nat →
    List Nat × Option Nat × List Nat × Option Nat
  | 0, _, starts, open_, deep => (starts, none, open_, deep)
  | fuel + 1, a, starts, open_, deep =>
    if n ≤ a then (starts, none, open_, deep)
    else
      match trapDecode mem a with
      | none => (starts, some a, open_, deep)
      | some (i, len) =>
        if n < a + len then (starts, some a, open_, deep)
        else
          match i with
          | .loop _ =>
            scanMotion mem n fuel (a + len) (starts ++ [a]) (a :: open_)
              (if 4 ≤ open_.length then some (deep.getD a) else deep)
          | .endl => scanMotion mem n fuel (a + len) (starts ++ [a]) open_.tail deep
          | _ => scanMotion mem n fuel (a + len) (starts ++ [a]) open_ deep

/-- The first bad word of a program (R112); words after the program in its last granule are HALT. -/
def motionFault (ws : List Word) : Option Nat :=
  let n := ws.length
  let mem := wordsFrom 0 ws
  let (starts, bad, open_, deep) := scanMotion mem n n 0 [] [] none
  let known := bad.getD n
  let size : Int := ((n + 63) / 64 * 64 : Nat)
  let jumps := starts.filter (fun a =>
    match trapDecode mem a with
    | some (.jump off, _) =>
      let t := (a : Int) + off
      t < 0 || size ≤ t || (t < known && !starts.contains t.toNat)
    | _ => false)
  let cands := bad.toList ++ deep.toList ++ jumps ++ (if bad.isNone then open_.reverse.take 1 else [])
  if n = 0 then some 0 else cands.foldl (fun (m : Option Nat) a => some (min a (m.getD a))) none

/-- First fit over the granules 1 to 1,023. -/
def Motion.fit (m : Motion) (granules : Nat) : Option Nat :=
  let busy := fun g => m.regions.any (fun r => r.base ≤ 64 * g && 64 * g < r.base + r.words)
  (List.range 1024).find? (fun g => 1 ≤ g && g + granules ≤ 1024 && (List.range granules).all (fun k => !busy (g + k)))

/-- MOTION_LOAD: check, allocate, write. -/
def State.motionLoad (s : State) (c : Cmd) (f : List Byte) : State :=
  let ws := fileWords f
  match motionFault ws with
  | some o => s.finish c.seat c.tag Status.badParam o
  | none =>
    let g := (ws.length + 63) / 64
    match s.motion.fit g with
    | none => s.finish c.seat c.tag Status.noCapacity
    | some at_ =>
      let base := 64 * at_
      let mem := (ws ++ List.replicate (64 * g - ws.length) 0#32).zipIdx.foldl
        (fun (m : Map Word) (e : Word × Nat) => m.put 0#32 (base + e.2) e.1) s.motion.mem
      let regions := s.motion.regions ++ [{ base := base, words := 64 * g, seat := c.seat }]
      let s := { s with motion := { s.motion with mem := mem, regions := regions } }
      (s.forwardFile c f).finish c.seat c.tag Status.ok base

def execMotionLoad (seat tag : Nat) (data : List Byte) (s : State) : Res :=
  match s.cmdOf seat tag with
  | some c => if c.flag 0 then settle s else settle (s.withSource seat tag 0x58 1 data (fun c f s => s.motionLoad c f))
  | none => settle s

/-- Is a region in use: an ENTRY of either view or a program counter lies in it (R113)? -/
def State.regionUsed (s : State) (r : Region) : Bool :=
  let inside := fun a => decide (r.base ≤ a ∧ a < r.base + r.words)
  (List.range s.model.objects).any (fun n =>
    inside (s.fld (.obj n) Reg.Obj.MOTION_ENTRY) || inside (s.stg (.obj n) Reg.Obj.MOTION_ENTRY)
      || inside (s.obj n).ctx.pc)

/-- MOTION_LOAD with FREE. -/
def execMotionFree (seat tag : Nat) (s : State) : Res :=
  match s.cmdOf seat tag with
  | none => settle s
  | some c =>
    if !c.flag 0 then settle s
    else settle (s.command seat tag 0x58 (fun c s =>
      match s.motion.regions.find? (fun r => r.base = c.n 0) with
      | none => s.finish c.seat c.tag Status.badParam
      | some r =>
        if c.seat ≠ 0 ∧ c.seat ≠ r.seat then s.finish c.seat c.tag Status.notOwner
        else if s.regionUsed r then s.finish c.seat c.tag Status.busy
        else
          let s := { s with motion := { s.motion with regions := s.motion.regions.filter (·.base ≠ r.base) } }
          (s.forwardFile c []).finish c.seat c.tag Status.ok (r.words / 64)))

/-! EQ_SET_LOAD (R88, R91, R188) -/

/-- Is a set in use: the active or staged view of an object or output record names it? -/
def State.eqSetUsed (s : State) (outputStore : Bool) (k : Nat) : Bool :=
  let names := fun (b : Blk) (f : Fld) => s.fld b f = k || s.stg b f = k ||
    s.fab.commits.any (fun c => c.pending && c.blks.contains b && regGet c.vals b.base f = k)
  if outputStore then (List.range s.model.outputs).any (fun n => names (.out n) Reg.Out.EQ_SET)
  else (List.range s.model.objects).any (fun n => names (.obj n) Reg.Obj.EQ_SET) ||
    (List.range s.model.buses).any (fun n => names (.bus n) Reg.Bus.EQ_SET)

def State.eqSetLoad (s : State) (c : Cmd) (f : List Byte) : State :=
  let w := c.n 0
  let first := w % 4096
  let count := w / 65536 % 4096
  let outStore := decide (2 ^ 31 ≤ w)
  let per := if outStore then 80 else 40
  let sets := if outStore then 1024 else 4096
  if w / 4096 % 16 ≠ 0 ∨ w / 2 ^ 28 % 8 ≠ 0 ∨ count = 0 ∨ sets < first + count ∨ f.length ≠ 4 * per * count then
    s.finish c.seat c.tag Status.badParam
  else if first = 0 || (List.range count).any (fun k => s.eqSetUsed outStore (first + k)) then
    s.finish c.seat c.tag Status.busy
  else
    let put := fun (m : Map Word) => (fileWords f).zipIdx.foldl
      (fun (m : Map Word) (e : Word × Nat) => m.put 0#32 (per * first + e.2) e.1) m
    let s := if outStore then { s with outEq := put s.outEq }
      else { s with motion := { s.motion with eqStore := put s.motion.eqStore } }
    (s.forwardFile c f).finish c.seat c.tag Status.ok count

def execEqSetLoad (seat tag : Nat) (data : List Byte) (s : State) : Res :=
  settle (s.withSource seat tag 0x22 1 data (fun c f s => s.eqSetLoad c f))

/-! OBJ_BULK (R94, R408) -/

/-- The position words of an entry, from spherical values with the flag; none where out of range. -/
def bulkPos (spherical : Bool) (w : List Word) : Option V3 :=
  let q := fun k => signed 32 (w.getD k 0#32).toNat
  if !spherical then some ⟨q 2, q 3, q 4⟩
  else if q 2 < 0 ∨ q 4 < -(90 * 65536) ∨ 90 * 65536 < q 4 then none
  else
    some (Sys2Proof.Machine.spherical (q 2) (q 3) (q 4)).sat

/-- Is a value of an entry out of range for a record? SPREAD is a selector under BED and AMBI. -/
def State.bulkBad (s : State) (n fields : Nat) (spherical : Bool) (w : List Word) : Bool :=
  let v := fun k => (w.getD k 0#32).toNat
  let law := s.stg (.obj n) Reg.Obj.CTRL_LAW
  (fields.testBit 1 && (bulkPos spherical w).isNone) ||
    ((fields.testBit 3 || fields.testBit 4) && (v 6 &&& 0xFFFFFEFE) ≠ 0) ||
    (fields.testBit 5 && law < 3 && 46080 < v 5 % 65536) || (fields.testBit 6 && 4096 ≤ v 7)

/-- Stage an entry's values into a record. -/
def State.bulkStage (s : State) (n fields : Nat) (spherical : Bool) (w : List Word) : State :=
  let b := Blk.obj n
  let v := fun k => (w.getD k 0#32).toNat
  let on := fun (k : Nat) (s : State) (f : State → State) => if fields.testBit k then f s else s
  let s := on 0 s (fun s => s.stageFld b Reg.Obj.GAIN (v 0))
  let s := on 1 s (fun s =>
    match bulkPos spherical w with
    | some p => ((s.stageFld b Reg.Obj.POS_X (unsigned 32 p.x)).stageFld b Reg.Obj.POS_Y (unsigned 32 p.y)).stageFld b
        Reg.Obj.POS_Z (unsigned 32 p.z)
    | none => s)
  let s := on 2 s (fun s => (s.stageFld b Reg.Obj.RAMP_GAIN (v 1 % 65536)).stageFld b Reg.Obj.RAMP_POS (v 1 / 65536))
  let s := on 3 s (fun s => s.stageFld b Reg.Obj.CTRL_MUTE (v 6 / 256 % 2))
  let s := on 4 s (fun s => s.stageFld b Reg.Obj.CTRL_ACTIVE (v 6 % 2))
  let s := on 5 s (fun s => (s.stageFld b Reg.Obj.PAN_SPREAD (v 5 % 65536)).stageFld b Reg.Obj.PAN_ZONE_MASK (v 5 / 65536))
  on 6 s (fun s => s.stageFld b Reg.Obj.EQ_SET (v 7))

/-- Every record is checked before any is written. A locked page counts as one the seat may not
write (R49). -/
def State.objBulk (s : State) (c : Cmd) (f : List Byte) : State :=
  let first := c.n 0 % 2048
  let count := c.n 0 / 65536 % 2048
  let fields := c.n 1
  let sph := c.flag 0
  let entry := fun k =>
    if c.flag 1 then (List.range 8).map (fun j => BitVec.ofNat 32 (leAt f (32 * k + 4 * j) 4))
    else (c.params.drop 2).take 8
  let ks := List.range count
  if c.n 0 / 2048 % 32 ≠ 0 ∨ c.n 0 / 2 ^ 27 ≠ 0 ∨ count = 0 ∨ 1024 < count ∨ 1024 < first + count ∨ 128 ≤ fields
      ∨ (c.flag 1 ∧ f.length < 32 * count) then
    s.finish c.seat c.tag Status.badParam
  else if s.model.objects < first + count then s.finish c.seat c.tag Status.absentUnit
  else if ks.any (fun k => !s.owns c.seat (.obj (first + k)) ||
      (c.seat ≠ 0 && s.bit (Blk.obj (first + k)).page Reg.Hdr.LOCK)) then
    s.finish c.seat c.tag Status.notOwner
  else if ks.any (fun k => s.bulkBad (first + k) fields sph (entry k)) then s.finish c.seat c.tag Status.badParam
  else
    (ks.foldl (fun s k => s.bulkStage (first + k) fields sph (entry k)) s).finish c.seat c.tag Status.ok count

def execObjBulk (seat tag : Nat) (data : List Byte) (s : State) : Res :=
  match s.cmdOf seat tag with
  | none => settle s
  | some c =>
    if c.flag 1 then settle (s.withSource seat tag 0x18 10 data (fun c f s => s.objBulk c f))
    else settle (s.command seat tag 0x18 (fun c s => s.objBulk c []))

/-! FILTER_SWAP (R225) -/

/-- The outputs a FILTER_SWAP names. -/
def swapOuts (c : Cmd) : List Nat := (List.range (c.n 0 / 65536 % 1024)).map (c.n 0 % 1024 + ·)

/-- Would R223 warm the target bank of an output? -/
def State.swapWarms (s : State) (n target : Nat) : Bool :=
  s.fld (.out n) Reg.Out.CORR_POLICY = 1 && s.outActive n && target ≠ 0 &&
    (s.warmTarget n = some (target - 1) || (s.out n).corr.warming.any (·.1 = target - 1))

/-- Does the swap still wait for an output: its target bank warms and is not WARM yet? -/
def State.swapWaits (s : State) (n target : Nat) : Bool := s.bit (.out n) Reg.Out.CORR_WARM && s.swapWarms n target

/-- The checks, and WARM on each output that R223 would warm. The command then waits. -/
def State.swapStart (s : State) (c : Cmd) : State :=
  let ns := swapOuts c
  let bad := ns.isEmpty || decide (c.n 0 / 1024 % 64 ≠ 0 ∨ c.n 0 / 2 ^ 26 ≠ 0 ∨ 3 ≤ c.n 1)
  let kind := fun n => s.fld .update (Reg.Update.UG_CFG_KIND (s.groupOf (.out n)))
  if bad then s.finish c.seat c.tag Status.badParam
  else if ns.any (fun n => s.model.outputs ≤ n) then s.finish c.seat c.tag Status.absentUnit
  else if ns.any (fun n => s.nowOutputs ≤ n) then s.finish c.seat c.tag Status.noCapacity
  else if ns.any (fun n => !s.owns c.seat (.out n)) then s.finish c.seat c.tag Status.notOwner
  else if ns.any (fun n => 32 ≤ s.groupOf (.out n) || kind n ≠ 1) then s.finish c.seat c.tag Status.badParam
  else ns.foldl (fun s n => if s.swapWarms n (c.n 1) then s.corrWarm n true else s) s

/-- Once every target is WARM: SEL is staged on every output and their groups are strobed. -/
def State.swapFinish (s : State) (c : Cmd) : State :=
  let ns := swapOuts c
  if c.final || ns.any (fun n => s.swapWaits n (c.n 1)) then s
  else
    let s := ns.foldl (fun s n => s.stageFld (.out n) Reg.Out.CORR_SEL (c.n 1)) s
    let mask := ns.foldl (fun m n => m ||| 2 ^ s.groupOf (.out n)) 0
    let at_ := c.n 2 + 2 ^ 32 * c.n 3
    let s := s.set64 (.updateBank c.seat) Reg.Update.UPD_AT_LO Reg.Update.UPD_AT_HI at_
    let (s, serial) := s.strobe .seat c.seat mask at_
    let s := { s with fab := { s.fab with commits := s.fab.commits.map (fun (d : Commit) =>
      if d.serial = serial then { d with timed := true } else d) } }
    s.finish c.seat c.tag Status.ok ns.length serial

/-- FILTER_SWAP: the command begins, or, once begun, goes on when its targets are warm. -/
def execFilterSwap (seat tag : Nat) (s : State) : Res :=
  match s.cmdOf seat tag with
  | none => settle s
  | some c =>
    if c.opcode ≠ 0x21 then settle s
    else
      let s := if c.started then s else s.command seat tag 0x21 (fun c s => s.swapStart c)
      match s.cmdOf seat tag with
      | some c => if c.started then settle (s.swapFinish c) else settle s
      | none => settle s

end Sys2Proof.Machine
end

