-- ==== Sys2Proof/Machine/Crypto.lean ====
section
/-! DEFINITION. The published functions the spec names: SHA-256, HMAC-SHA-256 (R420) and ECDSA over
P-256 (R535). -/

namespace Sys2Proof.Machine

open Sys2Proof

/-- The first 64 primes. -/
def shaPrimes : List Nat := (List.range 312).filter (fun n => 2 ≤ n && (List.range n).all (fun d => d < 2 || n % d ≠ 0))

/-- The largest number whose `e`-th power is at most `x`, below 2^`bits`, bit by bit from the top. -/
def rootFloor (e x bits : Nat) : Nat :=
  (List.range bits).foldl (fun r k => if (r + 2 ^ (bits - 1 - k)) ^ e ≤ x then r + 2 ^ (bits - 1 - k) else r) 0

/-- The first 32 bits of the fraction of the `e`-th root of a prime. -/
def rootFraction (e p : Nat) : Word := BitVec.ofNat 32 (rootFloor e (p * 2 ^ (32 * e)) 40)

/-- The hash value that SHA-256 begins with, from square roots: words A, B, C, D and words E, F, G, H. -/
def shaInit : List Word × List Word :=
  (((shaPrimes.take 4).map (rootFraction 2)), (((shaPrimes.drop 4).take 4).map (rootFraction 2)))

/-- A word turned right by three distances, the results added without carry. -/
def turned (x : Word) (i j k : Nat) : Word := x.rotateRight i ^^^ (x.rotateRight j ^^^ x.rotateRight k)

/-- The 64 rounds of a block. `w` holds the next 16 words of the schedule; `u` and `v` hold words A to D and E to H, each
the newest of its sequence first. -/
def shaRounds : List Nat → List Word → List Word × List Word → List Word × List Word
  | [], _, uv => uv
  | p :: ps, w, (u, v) =>
    let W := fun k => w.getD k 0#32
    let low := (W 1).rotateRight 7 ^^^ ((W 1).rotateRight 18 ^^^ (W 1 >>> 3))
    let high := (W 14).rotateRight 17 ^^^ ((W 14).rotateRight 19 ^^^ (W 14 >>> 10))
    let U := fun k => u.getD k 0#32
    let V := fun k => v.getD k 0#32
    let choice := V 2 ^^^ (V 0 &&& (V 1 ^^^ V 2))
    let most := (U 0 &&& (U 1 ||| U 2)) ||| (U 1 &&& U 2)
    let t := rootFraction 3 p + W 0 + (V 3 + choice + turned (V 0) 6 11 25)
    shaRounds ps (w.drop 1 ++ [W 0 + low + (W 9 + high)])
      ((t + (most + turned (U 0) 2 13 22)) :: u.take 3, (U 3 + t) :: v.take 3)

/-- A block of 16 words enters the hash value. -/
def shaBlock (h : List Word × List Word) (block : List Word) : List Word × List Word :=
  let r := shaRounds shaPrimes block h
  (h.1.zipWith (· + ·) r.1, h.2.zipWith (· + ·) r.2)

/-- A number as big-endian bytes. -/
def beBytes (n v : Nat) : List Byte := (List.range n).map (fun k => BitVec.ofNat 8 (v / 256 ^ (n - 1 - k)))

/-- The number that big-endian bytes spell. -/
def beNat (bs : List Byte) : Nat := bs.foldl (fun a b => a * 256 + b.toNat) 0

/-- Blocks of 16 big-endian words. -/
def shaBlocks : Nat → List Byte → List (List Word)
  | 0, _ => []
  | n + 1, bs => (List.range 16).map (fun k => BitVec.ofNat 32 (beNat ((bs.drop (4 * k)).take 4))) :: shaBlocks n (bs.drop 64)

/-- SHA-256: the message, a one bit, zeros, and the message's length in the last 64 bits of the last block. -/
def sha256 (m : List Byte) : List Byte :=
  let blocks := m.length / 64 + (if m.length % 64 < 56 then 1 else 2)
  let tail := 0x80#8 :: beBytes (64 * blocks - (m.length + 1)) (8 * m.length)
  let h := (shaBlocks blocks (m ++ tail)).foldl shaBlock shaInit
  (h.1 ++ h.2).flatMap (fun w => beBytes 4 w.toNat)

/-- HMAC-SHA-256 with a key of at most 64 bytes (RFC 2104). -/
def hmac (key m : List Byte) : List Byte :=
  let k := key ++ List.replicate (64 - key.length) 0#8
  sha256 (k.map (· ^^^ 0x5C#8) ++ sha256 (k.map (· ^^^ 0x36#8) ++ m))

namespace P256

def p : Nat := 2 ^ 256 - 2 ^ 224 + 2 ^ 192 + 2 ^ 96 - 1
def n : Nat := 0xffffffff00000000ffffffffffffffffbce6faada7179e84f3b9cac2fc632551
def b : Nat := 0x5ac635d8aa3a93e7b3ebbd55769886bc651d06b0cc53b0f63bce3c3e27d2604b
def g : Nat × Nat :=
  (0x6b17d1f2e12c4247f8bce6e563a440f277037d812deb33a0f4a13945d898c296,
   0x4fe342e2fe1a7f9b8ee7eb4a7c0f9e162bce33576b315ececbb6406837bf51f5)

/-- x^e mod m, over the low `k` bits of e. -/
def pow (m x e : Nat) : Nat → Nat
  | 0 => 1
  | k + 1 => let h := pow m (x * x % m) (e / 2) k
             if e % 2 = 1 then x * h % m else h

/-- The inverse modulo a prime. -/
def inv (m x : Nat) : Nat := pow m (x % m) (m - 2) 256

/-- The sum of two points; none is the point at infinity. -/
def add : Option (Nat × Nat) → Option (Nat × Nat) → Option (Nat × Nat)
  | none, q => q
  | q, none => q
  | some (x1, y1), some (x2, y2) =>
    if x1 = x2 ∧ (y1 + y2) % p = 0 then none
    else
      let l := if x1 = x2 then (3 * x1 * x1 + (p - 3)) * inv p (2 * y1) % p
        else (y2 + p - y1) * inv p (x2 + p - x1) % p
      let x3 := (l * l + 2 * p - x1 - x2) % p
      some (x3, (l * (x1 + p - x3) + p - y1) % p)

/-- k times a point, over the low `i` bits of k. -/
def mul (k : Nat) (q : Option (Nat × Nat)) : Nat → Option (Nat × Nat)
  | 0 => none
  | i + 1 => let h := mul (k / 2) (add q q) i
             if k % 2 = 1 then add q h else h

/-- Does a signature verify against a public key and a digest? -/
def verify (x y digest r s : Nat) : Bool :=
  let on := x < p && y < p && (y * y) % p = (x * x * x + (p - 3) * x + b) % p
  let w := inv n s
  on && 0 < r && r < n && 0 < s && s < n &&
    match add (mul (digest * w % n) (some g) 256) (mul (r * w % n) (some (x, y)) 256) with
    | some (x1, _) => x1 % n = r
    | none => false

end P256

end Sys2Proof.Machine
end

