-- ==== Sys2Proof/Machine/Twin.lean ====
section
/-! DEFINITION. Twins: roles and states, claims, egress gating, the link, heartbeats, takeover, and
the TWIN_CONTROL commands (R478 to R508). What arrives from the peer is in TwinRx. -/

namespace Sys2Proof.Machine

open Sys2Proof

/-! States and claims (R478, R479, R481, R501) -/

namespace Tw

def off : Nat := 0x0
def alone : Nat := 0x1
def joinPri : Nat := 0x2
def coldPri : Nat := 0x3
def lockPri : Nat := 0x4
def wait : Nat := 0x8
def ship : Nat := 0x9
def replay : Nat := 0xA
def verify : Nat := 0xB
def coldUnd : Nat := 0xC
def lockUnd : Nat := 0xD
def resync : Nat := 0xE
def taking : Nat := 0xF

end Tw

def State.tw (s : State) : Nat := s.fld .twin Reg.Twin.STATE

/-- Is the unit joined to a peer or joining it? -/
def State.attached (s : State) : Bool := [2, 3, 4, 9, 0xA, 0xB, 0xC, 0xD, 0xE].contains s.tw

/-- Does the state's Egress column read open (R501)? -/
def openState (c : Nat) : Bool := [1, 2, 3, 4, 0xF].contains c

/-- The claim of R479. -/
def State.claim (s : State) : Nat :=
  let c := s.tw
  if c = Tw.off then 0
  else if undState c then s.fld .twin Reg.Twin.CLAIM_UND
  else if c = Tw.taking || s.twin.byTake then s.fld .twin Reg.Twin.CLAIM_TAKE
  else s.fld .twin Reg.Twin.CLAIM_PRI

/-- The arbitration word of a claim and a serial (R480). -/
def arbWord (claim serial : Nat) : Nat := claim * 2 ^ 16 + serial % 2 ^ 16

def State.ownWord (s : State) : Nat := arbWord s.claim Config.serial

/-- May egress be open: the state, the last claim cycle, and no higher or equal claim over Ndodom
within 3 blocks (R481)? -/
def State.mayOpen (s : State) : Bool :=
  openState s.tw && s.twin.won && !s.twin.tie &&
    match s.twin.barred with
    | some t => t + 3 * s.blockSize ≤ s.render.tick
    | none => true

/-- Egress closes at once when it may not be open (R481, R482). -/
def State.gateEgress (s : State) : State :=
  if s.bit .twin Reg.Twin.CLAIM_EGRESS_OPEN && !s.mayOpen then
    (s.set .twin Reg.Twin.CLAIM_EGRESS_OPEN 0).egGate.floatPins
  else s

/-- Egress opens; streams resume with their kept packets (R481, R497). -/
def State.openEgress (s : State) : State :=
  if !s.bit .twin Reg.Twin.CLAIM_EGRESS_OPEN && s.mayOpen then
    (s.set .twin Reg.Twin.CLAIM_EGRESS_OPEN 1).egResume
  else s

/-- Enter a state: STATE, ROLE and CLAIM.NOW follow, and egress closes where it must. -/
def State.enter (s : State) (c : Nat) : State :=
  let s := (s.set .twin Reg.Twin.STATE c).setBit .twin Reg.Twin.ROLE (undState c)
  (s.set .twin Reg.Twin.CLAIM_NOW s.claim).gateEgress.egGate

/-- A RESYNC command ends. -/
def State.resyncEnds (s : State) (status : Nat) : State :=
  match s.twin.resync with
  | some (seat, tag) => { s with twin := { s.twin with resync := none } }.finish seat tag status
  | none => s

/-- An understudy gives up rendering and waits: its render stops at the next boundary (R501). A RESYNC that can no longer
reach LOCK_UND ends as a join that fails does. -/
def State.toWait (s : State) : State :=
  let s := s.resyncEnds Status.timeout
  let s := { s with twin := { s.twin with journal := [], matched := 0 } }
  let s := if s.clocked then { s with render := { s.render with stopping := true } } else s
  s.enter Tw.wait

/-- A write of CFG.MODE takes force: at once, or after DETACH while attached (R478, R506). -/
def State.modeSet (s : State) : State :=
  let m := s.fld .twin Reg.Twin.CFG_MODE
  if s.attached || m = s.twin.mode then s
  else
    let was := s.twin.mode
    let s := { s with twin := { s.twin with mode := m } }
    if m = 0 then (s.enter Tw.off).egGate
    else if was = 0 then s.enter (if s.bit .twin Reg.Twin.TWINID then Tw.wait else Tw.alone)
    else s

def execMode (mode : Nat) (s : State) : Res :=
  settle (
    if 3 ≤ mode then s.logErr .twin 0x40 4 0
    else if mode = 2 && !s.model.lockstep then s.logErr .twin 0x40 1 0
    else (s.setBoth .twin Reg.Twin.CFG_MODE mode).modeSet)

/-! Claim cycles (R480, R501) -/

/-- The JOIN under way ends for its command, if it has one. -/
def State.joinEnds (s : State) (status : Nat) (r0 r1 : Nat := 0) : State :=
  match s.twin.join with
  | none => s
  | some (c, _) =>
    let s := { s with twin := { s.twin with join := none } }
    match c with
    | some (seat, tag) => s.finish seat tag status r0 r1
    | none => s

/-- A HANDOVER that its boundary can no longer serve ends as one issued there would. -/
def State.handoverEnds (s : State) : State :=
  let h := s.twin.handover
  let s := { s with twin := { s.twin with handover := none } }
  match h with
  | some (_, some (seat, tag)) => s.finish seat tag Status.busy
  | _ => s

/-- A principal that loses a claim cycle is deposed (R501). -/
def State.deposed (s : State) : State :=
  let lock := s.tw = Tw.lockPri && s.bit .ndodom Reg.Ndodom.STATUS_LINK
  let s := { s with twin := { s.twin with byTake := false } }
  let s := (s.joinEnds Status.timeout).handoverEnds
  (if lock then s.enter Tw.lockUnd else s.toWait).event .twin 6

/-- CLAIM.SEEN changes: greenroom source 713 (R480). -/
def State.seen (s : State) (v : Nat) : State :=
  if s.fld .twin Reg.Twin.CLAIM_SEEN = v then s
  else (s.set .twin Reg.Twin.CLAIM_SEEN v).event .greenroom 7

/-- A claim cycle completes: `claim` and `serial` are those of the highest other unit that took part,
0 and 0 when there was none (R480). -/
def execClaimCycle (claim serial : Nat) (s : State) : Res :=
  let other := arbWord (claim % 256) serial
  let wire := max s.ownWord other
  let won := s.claim ≠ 0 && wire = s.ownWord
  let s := { (s.seen (if s.claim = 0 && claim = 0 then 0 else wire / 2 ^ 16)) with
    twin := { s.twin with won := won, cycleAt := s.render.tick } }
  settle (
    if !won && openState s.tw && s.tw ≠ Tw.taking then s.deposed
    else if won && s.tw ≠ Tw.taking then s.gateEgress.openEgress
    else s.gateEgress)

/-- No cycle has completed for 100 microseconds. Ticks count them; the first and the last may each be partly gone. -/
def execClaimSeenTimeout (s : State) : Res :=
  settle (if 100 * s.fs ≤ (s.render.tick + 1 - s.twin.cycleAt) * 1000000 then s.seen 0 else s)

/-! The link (R483, R484, R507) -/

/-- The link trains while PEERPRES_B is low and CFG.EN is 1. -/
def State.training (s : State) : State :=
  s.setBit .ndodom Reg.Ndodom.STATUS_TRAINING
    (s.twin.peerpres && s.bit .ndodom Reg.Ndodom.CFG_EN && !s.bit .ndodom Reg.Ndodom.STATUS_LINK)

/-- DEVICE words 0x040 and 0x044. -/
def State.variantWord (s : State) : Nat :=
  s.fld .device Reg.Device.VARIANT_CODE * 2 ^ Reg.Device.VARIANT_CODE.lsb +
    s.fld .device Reg.Device.VARIANT_STEPPING * 2 ^ Reg.Device.VARIANT_STEPPING.lsb

def State.releaseWord (s : State) : Nat :=
  s.fld .device Reg.Device.FW_RELEASE_MINOR * 2 ^ Reg.Device.FW_RELEASE_MINOR.lsb +
    s.fld .device Reg.Device.FW_RELEASE_MAJOR * 2 ^ Reg.Device.FW_RELEASE_MAJOR.lsb +
    s.fld .device Reg.Device.FW_RELEASE_BUILD * 2 ^ Reg.Device.FW_RELEASE_BUILD.lsb

/-- What a unit tells its peer of itself before they join (R503, R507). -/
def State.identity (s : State) : PeerFrame :=
  .identity s.variantWord s.releaseWord Config.serial (s.fld .twin Reg.Twin.CFG_MODE)
    (s.fld .render Reg.Render.CFG_RATE) (s.fld .render Reg.Render.CFG_BLOCK)

/-- Training ends: `lanes` of the lanes in use are up, and `latency` is the one-way time in ns (R484). -/
def execNdodomUp (lanes latency : Nat) (s : State) : Res :=
  let lanes := lanes &&& s.fld .ndodom Reg.Ndodom.CFG_LANE_EN
  settle (
    if s.bit .ndodom Reg.Ndodom.STATUS_TRAINING && lanes ≠ 0 then
      let s := ((s.set .ndodom Reg.Ndodom.STATUS_LINK 1).set .ndodom Reg.Ndodom.STATUS_LANES_UP lanes).training
      let s := (s.set .ndodom Reg.Ndodom.LATENCY (min latency 65535)).event .ndodom 0
      { s with twin := { s.twin with out := [] } }.toPeer s.identity
    else s)

/-- The link is lost: a principal is alone again, a COLD understudy and one that is joining wait
(R501, R503). A DETACH under way still completes at its boundary. -/
def State.peerGone (s : State) : State :=
  let c := s.tw
  let s := s.handoverEnds
  if c = Tw.joinPri then (s.enter Tw.alone).joinEnds Status.timeout
  else if c = Tw.coldPri || c = Tw.lockPri then s.enter Tw.alone
  else if c = Tw.coldUnd || c = Tw.ship || c = Tw.replay then s.toWait
  else s

def State.linkLost (s : State) : State :=
  if s.bit .ndodom Reg.Ndodom.STATUS_LINK then
    let s := ((s.set .ndodom Reg.Ndodom.STATUS_LINK 0).set .ndodom Reg.Ndodom.STATUS_LANES_UP 0).training
    let s := (s.count .ndodom Reg.Ndodom.LINK_DOWNS).event .ndodom 1
    { s with twin := { s.twin with out := [] } }.peerGone
  else s.training

def execNdodomDown (s : State) : Res := settle s.linkLost

/-- One lane fails and the link goes on with the other (R484). -/
def execLaneLost (lane : Nat) (s : State) : Res :=
  let up := s.fld .ndodom Reg.Ndodom.STATUS_LANES_UP
  settle (if lane < 2 && up = 3 then (s.set .ndodom Reg.Ndodom.STATUS_LANES_UP (2 - lane)).event .ndodom 2 else s)

def execLaneBack (s : State) : Res :=
  let up := s.fld .ndodom Reg.Ndodom.STATUS_LANES_UP
  settle (
    if (up = 1 || up = 2) && s.fld .ndodom Reg.Ndodom.CFG_LANE_EN = 3 then
      (s.set .ndodom Reg.Ndodom.STATUS_LANES_UP 3).event .ndodom 3
    else s)

/-- PEERPRES_B changes level (R483). -/
def execPeerpresChange (low : Bool) (s : State) : Res :=
  settle (
    if s.twin.peerpres = low then s
    else
      let s := { s with twin := { s.twin with peerpres := low } }
      let s := (s.setBit .twin Reg.Twin.PEERPRES low).event .greenroom 6
      (if low then s.training else s.linkLost).egGate)

/-! Heartbeats (R485, R486) -/

/-- The bytes of a network heartbeat frame, without FCS (R486). -/
def State.netHeartbeat (s : State) : List Byte :=
  let p := s.fld .twin Reg.Twin.NET_HB_PORT
  let dmac := s.fld64 .twin Reg.Twin.NET_HB_DMAC_LO Reg.Twin.NET_HB_DMAC_HI
  let body := beBytes 4 (s.fld .twin Reg.Twin.PAIR_ID) ++ beBytes 8 Config.serial ++ beBytes 1 s.claim ++
    beBytes 1 (s.tw + 16 * s.fld .twin Reg.Twin.ROLE) ++ beBytes 8 s.render.rsi
  beBytes 6 dmac ++ beBytes 6 (s.macOf p) ++ beBytes 2 0x88B5 ++ body ++ List.replicate (46 - body.length) 0#8

/-- The output CRC of a block: every active output's egress samples as Q1.31 words, ascending (R494). -/
def State.outputCrc (s : State) (b : Nat) : Nat :=
  let outs := ((List.range s.nowOutputs).filter s.outActive)
  (crc32 (outs.flatMap (fun n => (s.blockSamples b).flatMap (fun i =>
    bytesOf (BitVec.ofInt 32 (s.sample { type := 9, unit := n } i)))))).toNat

/-- The output CRC of block `b` is kept, as far as the last 8 blocks. -/
def State.keepCrc (s : State) (b : Nat) : State :=
  if s.twin.mode = 2 then { s with twin := { s.twin with crcs := ((b, s.outputCrc b) :: s.twin.crcs).take 8 } } else s

/-- At each block boundary of device time both heartbeats are sent (R486). A unit that is not attached says what it is
beside them, so that the conditions of a join are those of its moment. -/
def execHeartbeatSend (s : State) : Res :=
  settle (
    if s.twin.mode = 0 || s.time.m % s.blockSize ≠ 0 || s.twin.sentAt = some s.time.m then s
    else
      let s := { s with twin := { s.twin with sentAt := some s.time.m } }
      let s := if s.attached then s else s.toPeer s.identity
      let (b, crc) := s.twin.crcs.headD (0, 0)
      let s := s.toPeer (.heartbeat s.tw (s.fld .twin Reg.Twin.ROLE) s.claim Config.serial s.render.rsi s.render.m0
        b crc s.causes s.device)
      if s.bit .twin Reg.Twin.NET_HB_EN then
        let p := s.fld .twin Reg.Twin.NET_HB_PORT
        match s.controlQueue p with
        | some q => if s.hasEth p then s.enqueue p q { len := 64, body := .heartbeat s.netHeartbeat } else s
        | none => s
      else s)

/-- Has the network heartbeat been lost? Always while NET_HB.EN is 0 (R486). -/
def State.netLost (s : State) : Bool := !(s.bit .twin Reg.Twin.NET_HB_EN && s.bit .twin Reg.Twin.NET_HB_OK)

/-- The three conditions of a takeover (R496). -/
def State.takeConds (s : State) : List Bool :=
  [s.twin.hbLost, s.netLost, decide (s.fld .twin Reg.Twin.CLAIM_SEEN ≤ s.claim)]

/-- 2 microseconds after each boundary (R486), once for each; loss at the third check in a row that finds none. -/
def execHeartbeatCheck (s : State) : Res :=
  let n := s.time.m / s.blockSize
  let s0 := s
  let s := { s with twin := { s.twin with checkedAt := some n } }
  settle (
    if s0.twin.mode = 0 || s0.twin.checkedAt = some n then s0
    else if s.twin.hb then { s with twin := { s.twin with hb := false, misses := 0, hbLost := false } }
    else
      let n := s.twin.misses + 1
      let s := { s with twin := { s.twin with misses := n, hbLost := s.twin.hbLost || 3 ≤ n } }
      if n ≠ 3 then s
      else
        let s := s.set .twin Reg.Twin.CLAIM_PEER_VALID 0
        let some_ := undState s.tw && !(s.takeConds.all id)
        let s := if some_ then s.event .twin 1 else s
        if !s.netLost && [Tw.lockUnd, Tw.verify, Tw.resync].contains s.tw then s.toWait else s)

/-- A heartbeat frame of the pair arrives from the network (R486). -/
def State.netHbRx (s : State) (pair serial : Nat) : State :=
  if pair = s.fld .twin Reg.Twin.PAIR_ID && serial ≠ Config.serial && s.bit .twin Reg.Twin.NET_HB_EN then
    { (s.set .twin Reg.Twin.NET_HB_OK 1) with twin := { s.twin with netAt := s.render.tick } }
  else s

def execNetHbRx (pair serial : Nat) (s : State) : Res := settle (s.netHbRx pair serial)

def execNetHbLost (s : State) : Res :=
  settle (
    if s.bit .twin Reg.Twin.NET_HB_OK && s.twin.netAt + 3 * s.blockSize ≤ s.render.tick then
      let s := (s.set .twin Reg.Twin.NET_HB_OK 0).event .twin 2
      if undState s.tw && !(s.takeConds.all id) then s.event .twin 1 else s
    else s)

/-! Takeover (R496, R497, R500) -/

/-- The newest sealed snapshot the unit holds. -/
def State.newestImage (s : State) : Option Image :=
  match s.snaps.slot0, s.snaps.slot1 with
  | some a, some b => some (if a.id ≤ b.id then b else a)
  | some a, none => some a
  | none, b => b

/-- Forwarded FILTER_LOADs end and their LOADING banks become EMPTY (R508). -/
def State.endForwarded (s : State) : State :=
  let cs := s.seats.flatMap (fun (e : Nat × SeatState) => e.2.cmds.filter (fun c => c.peer.isSome && c.opcode = 0x20))
  cs.foldl (fun s c => (s.cancelFilterLoad c false).finish c.seat c.tag Status.cancelled) s

/-- The unit enters TAKING and raises its claim. -/
def State.takeOver (s : State) : State :=
  let cold := !(s.tw = Tw.verify || s.tw = Tw.lockUnd)
  let s := (s.resyncEnds Status.timeout).endForwarded
  let s := { s with twin := { s.twin with cold := cold, restored := false, handover := none, won := false } }
  s.enter Tw.taking

def execAutoTakeover (s : State) : Res :=
  settle (if undState s.tw && s.bit .twin Reg.Twin.CFG_AUTO_TAKE && s.takeConds.all id then s.takeOver else s)

/-- The end of a TAKEOVER command. -/
def State.takeEnds (s : State) (status r0 : Nat) : State :=
  match s.twin.take with
  | some (seat, tag) => { s with twin := { s.twin with take := none } }.finish seat tag status r0
  | none => s

/-- A takeover from a state without a running render restores the newest snapshot; the render starts at
the next M0 (R500). -/
def execColdTakeoverRestore (s : State) : Res :=
  settle (
    if s.tw = Tw.taking && s.twin.cold && !s.twin.restored then
      match s.newestImage with
      | none => (s.toWait.event .twin 11).takeEnds Status.badParam 6
      | some im =>
        let r : RestoreRun := { image := im, seat := 8, tag := 0, serial := s.fab.serial, at_ := s.render.rsi,
                                up := s.routeFade s.render.rsi }
        let s := s.restoreApply r
        { s with render := { s.render with starting := true, stopping := false }
                 twin := { s.twin with restored := true } }
    else s)

/-- The claim has won: egress opens and the unit is principal (R496, R497). -/
def execEgressOpen (s : State) : Res :=
  settle (
    if s.tw = Tw.taking && s.mayOpen && (!s.twin.cold || (s.twin.restored && s.running)) then
      let s := { s with twin := { s.twin with byTake := true } }
      let s := (s.enter Tw.alone).openEgress
      let s := (s.setCauses (s.causes &&& 7)).event .twin 5
      let s := (s.count .twin Reg.Twin.TAKEOVER_COUNT).set64 .twin Reg.Twin.EVENT_AT_LO Reg.Twin.EVENT_AT_HI s.render.rsi
      (s.beginRecovery).takeEnds Status.ok 0
    else s)

/-! COLD snapshots, holdings, departures and the output CRC (R487, R490, R494, R495) -/

/-- A snapshot is shipped: its image, and SNAP_ID. -/
def State.shipImage (s : State) (history : Bool) : State :=
  let id := if s.snaps.id + 1 < 2 ^ 32 then s.snaps.id + 1 else 1
  let im := { s.image history with id := id }
  let s := { s with snaps := { s.snaps with id := id }
                    twin := { s.twin with shipAt := s.render.tick, freezeAt := some s.render.tick, commitSince := false } }
  (s.set .twin Reg.Twin.SNAP_ID id).toPeer (.snapshot im)

/-- A release ends the work of the block before: the snapshot that a join or a resynchronisation waits for is frozen
(R494, R503). -/
def State.freezeShip (s : State) : State :=
  if s.twin.freeze then { s with twin := { s.twin with freeze := false } }.shipImage true else s

/-- SNAP_PERIOD has passed, or a commit has applied since the last one (R487). -/
def execSnapPeriod (s : State) : Res :=
  settle (
    if s.tw = Tw.coldPri &&
        (s.twin.commitSince || s.twin.shipAt + s.fld .twin Reg.Twin.SNAP_PERIOD * s.msTicks ≤ s.render.tick) then
      s.shipImage false
    else s)

/-- SNAP_AGE, ms since the freeze (R506). -/
def State.snapAge (s : State) : Nat :=
  match s.twin.freezeAt with
  | some t => min ((s.render.tick - t) / s.msTicks) 0xFFFFFFFF
  | none => 0xFFFFFFFF

/-- The samples of block `b` that an enabled stream holds: a bitmap (R490). -/
def State.heldBits (s : State) (n b : Nat) : Nat :=
  flagsOf ((s.blockSamples b).map (fun i => (s.ing n).got.any (fun g => g.1 ≤ i && i < g.2)))

/-- The inputs whose samples the twins compare: enabled streams, and port sections that each reads from its own
pins (R490, R491). -/
def State.comparedInputs (s : State) : List Source :=
  ((List.range 256).filter (fun n => s.bit (.ingress n) Reg.Ingress.CTRL_ENABLE)).flatMap (fun n =>
    (List.range (s.fld (.ingress n) Reg.Ingress.FMT_CHANNELS)).map (fun c => ({ type := 1, unit := n, chan := c } : Source))) ++
  ((List.range s.model.tdms).filter (fun k => s.portEn (.tdmRx k) && !s.portAsrc (.tdmRx k) &&
    !(s.fld .twin Reg.Twin.MIRROR_TDM).testBit k)).flatMap (fun k =>
      ((List.range 64).filter (s.portMask (.tdmRx k)).testBit).map (fun c => ({ type := 2, unit := k, chan := c } : Source))) ++
  ((List.range s.model.aes).filter (fun k => s.portEn (.aesRx k) && !s.portAsrc (.aesRx k))).flatMap (fun k =>
    [{ type := 3, unit := k, chan := 0 }, { type := 3, unit := k, chan := 1 }])

/-- The samples of a block that the unit holds of an input: a locked section holds every one. -/
def State.heldOf (s : State) (src : Source) (b : Nat) : Nat :=
  match src.type with
  | 1 => s.heldBits src.unit b
  | 2 => if (s.port (.tdmRx src.unit)).phase = .locked then 2 ^ s.blockSize - 1 else 0
  | _ => if (s.port (.aesRx src.unit)).phase = .locked then 2 ^ s.blockSize - 1 else 0

/-- What the unit holds of block `b`. -/
def State.holdings (s : State) (b : Nat) : List Holding :=
  s.comparedInputs.map (fun src =>
    let bits := s.heldOf src b
    let vals := ((s.blockSamples b).zipIdx.filter (fun (e : Nat × Nat) => bits.testBit e.2)).flatMap (fun (e : Nat × Nat) =>
      bytesOf (BitVec.ofInt 32 (s.sample src e.1)))
    ({ src := src, bits := bits, crc := (crc32 vals).toNat } : Holding))

/-- LOCKSTEP: this unit's holdings of block `b`, which has just ended, go to the peer (R490). An understudy that
replays the journal has none of its own. -/
def execHoldings (b : Nat) (s : State) : Res :=
  settle (
    if (s.lockPri || s.tw = Tw.verify || s.tw = Tw.lockUnd) && s.running && s.render.rsi / s.blockSize = b + 1 then
      s.toPeer (.holdings b (s.holdings b))
    else s)

/-- The principal's report: the last packet of each stream that has left (R495). -/
def execDepartureReport (s : State) : Res :=
  settle (if s.lockPri then s.toPeer (.departures (s.twin.sentSeq.map (fun e => (e.1, e.2 - 1)))) else s)

/-- The understudy starts the join steps again from the freeze (R494). -/
def State.toResync (s : State) : State :=
  ({ s with twin := { s.twin with journal := [], matched := 0, crcs := [], awaiting := true } }.enter Tw.resync).toPeer .resync

/-- The CRCs of block `b` are compared, in REPLAY as soon as that block has been rendered (R494, R503). -/
def execOutputCrcCompare (b : Nat) (s : State) : Res :=
  let own := s.twin.crcs.lookup b
  let peer := s.twin.peerCrcs.lookup b
  settle (
    match own, peer with
    | some x, some y =>
      let c := s.tw
      let s := { s with twin := { s.twin with peerCrcs := s.twin.peerCrcs.filter (·.1 ≠ b) } }
      if !(s.lockPri || s.lockUnd) then s
      else if x = y then
        if c = Tw.verify then { s with twin := { s.twin with matched := s.twin.matched + 1 } } else s
      else
        let s := (s.event .twin 4).count .twin Reg.Twin.DIVERGE_COUNT
        let s := s.set64 .twin Reg.Twin.EVENT_AT_LO Reg.Twin.EVENT_AT_HI (s.blockStart b)
        if s.lockUnd then s.toResync else s
    | _, _ => s)

/-- The replaying understudy has no journaled block left: VERIFY (R503). -/
def execReplayCaughtUp (s : State) : Res :=
  settle (
    if (s.tw = Tw.replay || s.tw = Tw.resync) && s.twin.journal.isEmpty && !s.twin.awaiting && s.running then
      let s := { s with twin := { s.twin with matched := 0 }
                        render := { s.render with rsi := max s.render.rsi s.twin.peerRsi, m0 := s.twin.peerM0 } }
      (s.set .twin Reg.Twin.LAG 0).enter Tw.verify
    else s)

/-- Every CRC of VERIFY_BLOCKS blocks has matched: the pair is joined (R503). -/
def execJoined (s : State) : Res :=
  settle (
    if s.tw = Tw.verify && s.fld .twin Reg.Twin.VERIFY_BLOCKS ≤ s.twin.matched then
      (((s.enter Tw.lockUnd).event .twin 3).toPeer .joined).resyncEnds Status.ok
    else s)

/-! TWIN_CONTROL (R502 to R505) -/

/-- The command of an action: 0x78, from the house seat, with the action in P0 [3:0]. -/
def State.twinControl (s : State) (seat tag action : Nat) (f : Cmd → State → State) : State :=
  match s.cmdOf seat tag with
  | some c => if c.n 0 % 16 = action then s.command seat tag 0x78 (houseOnly f) else s
  | none => s

/-- Is a peer in WAIT seen on Ndodom? -/
def State.peerWaits (s : State) : Bool :=
  s.bit .ndodom Reg.Ndodom.STATUS_LINK && s.bit .twin Reg.Twin.CLAIM_PEER_VALID && s.twin.peerState = Tw.wait

/-- The first condition of R503 that fails. -/
def State.joinFault (s : State) : Option Nat :=
  let code := Reg.Device.VARIANT_CODE
  let pv := s.fld .ndodom Reg.Ndodom.PEER_VARIANT
  let pf := s.fld .ndodom Reg.Ndodom.PEER_FW
  let part := fun (w : Nat) (f : Fld) => w / 2 ^ f.lsb % 2 ^ f.width
  let media := s.fld .mediaClk Reg.MediaClk.STATE
  if part pv code ≠ s.fld .device code then some 1
  else if part pv Reg.Device.VARIANT_STEPPING ≠ s.fld .device Reg.Device.VARIANT_STEPPING ∨
      part pf Reg.Device.FW_RELEASE_MAJOR ≠ s.fld .device Reg.Device.FW_RELEASE_MAJOR ∨
      part pf Reg.Device.FW_RELEASE_MINOR ≠ s.fld .device Reg.Device.FW_RELEASE_MINOR then some 2
  else if s.twin.peerMode ≠ s.twin.mode then some 3
  else if s.twin.peerRate ≠ s.fld .render Reg.Render.CFG_RATE ∨
      s.twin.peerBlock ≠ s.fld .render Reg.Render.CFG_BLOCK ∨ !s.running then some 4
  else if media ≠ 1 ∧ media ≠ 2 then some 5
  else none

/-- The checks of a join, and its start: the static content and a snapshot are shipped (R503). -/
def State.joinStart (s : State) : State :=
  match s.joinFault with
  | some e => s.joinEnds Status.badParam e
  | none =>
    let s := ((s.enter Tw.joinPri).toPeer .join).toPeer (.contentDone s.monitor.slots)
    if s.twin.mode = 2 then { s with twin := { s.twin with freeze := true } } else s.shipImage false

/-- A waiting JOIN, or AUTO_JOIN, when a peer in WAIT is seen (R502). -/
def State.joinSeen (s : State) : State :=
  if s.tw = Tw.alone && s.peerWaits then
    match s.twin.join with
    | some _ => s.joinStart
    | none =>
      if s.bit .twin Reg.Twin.CFG_AUTO_JOIN then
        { s with twin := { s.twin with join := some (none, s.render.tick) } }.joinStart
      else s
  else s

def execJoin (seat tag : Nat) (s : State) : Res :=
  let bad := match s.cmdOf seat tag with
    | some c => c.n 0 % 16 = 0 || 5 < c.n 0 % 16
    | none => false
  settle (
    if bad then s.command seat tag 0x78 (houseOnly (fun c s => s.finish c.seat c.tag Status.badParam))
    else s.twinControl seat tag 1 (fun c s =>
      if undState s.tw then s.finish c.seat c.tag Status.notPrincipal
      else if s.tw ≠ Tw.alone || s.twin.join.isSome then s.finish c.seat c.tag Status.busy
      else { s with twin := { s.twin with join := some (some (c.seat, c.tag), s.render.tick) } }.joinSeen))

/-- No peer in WAIT has been seen within 1 s (R502). -/
def execJoinTimeout (s : State) : Res :=
  settle (
    match s.twin.join with
    | some (_, t) => if s.tw = Tw.alone && t + s.fs ≤ s.render.tick then s.joinEnds Status.timeout else s
    | none => s)

/-- The principal's side of a completed join: R0 the time in ms, R1 the peer's serial; DEGRADED on one
lane (R502, R503). A principal that was joined already sees its understudy back from RESYNC. -/
def State.joinDone (s : State) : State :=
  if s.tw = Tw.joinPri then
    let ms := match s.twin.join with
      | some (_, t) => (s.render.tick - t) * 1000 / s.fs
      | none => 0
    let s := { s with twin := { s.twin with byTake := false } }
    let s := (s.enter (if s.twin.mode = 2 then Tw.lockPri else Tw.coldPri)).event .twin 3
    s.joinEnds (if s.fld .ndodom Reg.Ndodom.STATUS_LANES_UP = 3 then Status.ok else Status.degraded) ms
      (s.twin.peerSerial % 2 ^ 32)
  else if s.tw = Tw.lockPri then s.event .twin 3
  else s

/-- DETACH waits for the next block boundary (R505). -/
def execDetach (seat tag : Nat) (s : State) : Res :=
  settle (s.twinControl seat tag 2 (fun c s =>
    if !s.attached then s.finish c.seat c.tag Status.busy
    else { s with twin := { s.twin with detach := some (some (c.seat, c.tag)) } }.toPeer .detach))

/-- DETACH takes effect at a block boundary, on either unit (R505). -/
def State.detachNow (s : State) : State :=
  match s.twin.detach with
  | none => s
  | some c =>
    let s := { s with twin := { s.twin with detach := none } }
    let s := if undState s.tw then s.toWait else s.enter Tw.alone
    let s := (s.event .twin 8).modeSet
    match c with
    | some (seat, tag) => s.finish seat tag Status.ok
    | none => s

/-- HANDOVER names a boundary, or takes the one 8 blocks ahead (R502, R504). -/
def execHandover (seat tag : Nat) (s : State) : Res :=
  settle (s.twinControl seat tag 3 (fun c s =>
    let B := s.blockSize
    let x := c.n 1 + 2 ^ 32 * c.n 2
    let at_ := if x = 0 then (s.render.rsi / B + 8) * B else x
    if s.tw ≠ Tw.lockPri || s.twin.handover.isSome then s.finish c.seat c.tag Status.busy
    else if at_ % B ≠ 0 || at_ < s.render.rsi + 2 * B then s.finish c.seat c.tag Status.badParam
    else { s with twin := { s.twin with handover := some (at_, some (c.seat, c.tag)) } }.toPeer (.handover at_)))

/-- At the boundary the roles swap (R504). -/
def State.handoverNow (s : State) : State :=
  match s.twin.handover with
  | some (at_, c) =>
    if at_ ≤ s.render.rsi then
      let s := { s with twin := { s.twin with handover := none, byTake := false } }
      let s :=
        if s.tw = Tw.lockPri then s.enter Tw.lockUnd
        else if s.tw = Tw.lockUnd then
          let s := { (s.enter Tw.lockPri) with twin := { s.twin with won := true, barred := none } }
          s.openEgress
        else s
      let s := (s.event .twin 7).set64 .twin Reg.Twin.EVENT_AT_LO Reg.Twin.EVENT_AT_HI at_
      match c with
      | some (seat, tag) => s.finish seat tag Status.ok
      | none => s
    else s
  | none => s

def execHandoverBoundary (s : State) : Res := settle s.handoverNow

/-- TAKEOVER without the first two conditions of R496; egress still waits for the claim. -/
def execTakeover (seat tag : Nat) (s : State) : Res :=
  settle (s.twinControl seat tag 4 (fun c s =>
    if !undState s.tw then s.finish c.seat c.tag Status.busy
    else if !(s.tw = Tw.verify || s.tw = Tw.lockUnd) && s.newestImage.isNone then
      s.finish c.seat c.tag Status.badParam 6
    else { s with twin := { s.twin with take := some (c.seat, c.tag) } }.takeOver))

def execResync (seat tag : Nat) (s : State) : Res :=
  settle (s.twinControl seat tag 5 (fun c s =>
    if s.tw = Tw.verify || s.tw = Tw.lockUnd then
      { s with twin := { s.twin with resync := some (c.seat, c.tag) } }.toResync
    else s.finish c.seat c.tag Status.busy))

end Sys2Proof.Machine
end

