-- ==== Sys2Proof/Machine/Boot.lean ====
section
/-! DEFINITION. Reset and boot: what each reset keeps, the flash, signed images, start-up, and firmware
updates (R529 to R542). -/

namespace Sys2Proof.Machine

open Sys2Proof

/-! Flash (R533 to R535) -/

def State.flashAt (s : State) (off n : Nat) : List Byte := (List.range n).map (fun k => Map.get 0xFF#8 (off + k) s.boot.flash)

def State.flashWrite (s : State) (off : Nat) (bs : List Byte) : State :=
  let m := bs.zipIdx.foldl (fun (m : Map Byte) (e : Byte × Nat) => m.put 0xFF#8 (off + e.2) e.1) s.boot.flash
  { s with boot := { s.boot with flash := m } }

/-- The two copies of the boot configuration. -/
def bootCopy (k : Nat) : Nat := 0x1000 * k

/-- A copy of the boot configuration, if its MAGIC and CRC check good (R534). -/
def parseBoot (f : List Byte) : Option BootCfg :=
  if leAt f 0 4 = 0x42434647 ∧ leAt f 0xFFC 4 = (crc32 (f.take 0xFFC)).toNat then
    let flags := leAt f 0x0A 1
    let pf := leAt f 0x09 1
    some { valid := true, seq := leAt f 4 4, slot := leAt f 8 1 % 2, pfA := pf % 16, pfB := pf / 16
           ecc := flags.testBit 0, defcfg := flags.testBit 1, defcfgOnWarm := flags.testBit 2, twinMode := flags / 8 % 4
           bind := (List.range 8).map (fun k => leAt f (0x0C + k) 1), defcfgLen := leAt f 0x14 4, sdPort := leAt f 0x18 2
           ipv4 := (List.range 4).map (fun k => leAt f (0x1C + 4 * k) 4) }
  else none

/-- The boot configuration in use: the valid copy with the higher SEQ, else the bracketed values. -/
def State.bootConfig (s : State) : BootCfg :=
  match parseBoot (s.flashAt (bootCopy 0) 4096), parseBoot (s.flashAt (bootCopy 1) 4096) with
  | some a, some b => if a.seq < b.seq then b else a
  | some a, none => a
  | none, some b => b
  | none, none => {}

/-- The older copy takes SEQ + 1 and a new ACTIVE_SLOT (R534, R539). -/
def State.writeBootSlot (s : State) (slot : Nat) : State :=
  let a := parseBoot (s.flashAt (bootCopy 0) 4096)
  let b := parseBoot (s.flashAt (bootCopy 1) 4096)
  let newer := match a, b with
    | some x, some y => if x.seq < y.seq then 1 else 0
    | none, some _ => 1
    | _, _ => 0
  let old := s.flashAt (bootCopy newer) 4096
  let pf := s.model.seats / 2
  let base := if a.isSome || b.isSome then old
    else bytesOf 0x42434647 ++ List.replicate 5 0#8 ++ [BitVec.ofNat 8 (pf + 16 * pf), 0, 0] ++
      (List.range 8).map (fun k => BitVec.ofNat 8 (s.model.bindDefault k)) ++ List.replicate 4 0#8 ++
      [0xEC, 0xBD] ++ List.replicate (4096 - 26) 0#8
  let seq := if a.isSome || b.isSome then leAt old 4 4 + 1 else 1
  let f := base.take 4 ++ bytesOf (BitVec.ofNat 32 seq) ++ [BitVec.ofNat 8 slot] ++ (base.drop 9).take (0xFFC - 9)
  s.flashWrite (bootCopy (1 - newer)) (f ++ bytesOf (crc32 f))

def imageSlot (k : Nat) : Nat := 0x00100000 + 0x00400000 * k

/-- Why an image does not check good: 1 its signature or digest, 2 its key, 3 its rollback index (R535,
R539). -/
def imageFault (fused : Nat) (f : List Byte) : Option Nat :=
  let key := (f.drop 0x10).take 64
  let len := leAt f 0x0C 4
  if beNat (sha256 key) ≠ Config.keyHash then some 2
  else if leAt f 0 4 ≠ 0x4D465752 ∨ 4190208 < len ∨ sha256 ((f.drop 4096).take len) ≠ (f.drop 0x50).take 32 ∨
      !P256.verify (beAt f 0x10 32) (beAt f 0x30 32) (beNat (sha256 (f.take 0x70))) (beAt f 0x70 32) (beAt f 0x90 32) then
    some 1
  else if leAt f 8 1 < fused then some 3
  else none

/-- RELEASE and ROLLBACK of an image. -/
def imageOf (f : List Byte) : Nat × Nat := (leAt f 4 4, leAt f 8 1)

/-! Resets (R529 to R531, R541) -/

/-- The words of a page, header included. -/
def pageWords (b : Blk) (m : RegMap) : RegMap := Map.only (fun k => decide (b.base ≤ k ∧ k < b.base + 0x1000)) m

/-- The state a reset starts from: the model, its flash and fuses, the pins as they stand, what the
module has written outside itself, and the model's own fields. -/
def State.blank (s : State) : State :=
  { model := s.model, free := s.free, pending := s.pending, hostMem := s.hostMem
    fab := { act := bootWords s.model, stg := bootWords s.model }
    boot := { flash := s.boot.flash, keys := s.boot.keys, fused := s.boot.fused, bootsel := s.boot.bootsel, twinid := s.boot.twinid }
    curtain := { raw := s.curtain.raw }
    gpio := s.gpio.update {} (fun p => { raw := p.raw, since := if p.raw then some 0 else none, tick := s.render.tick })
    twin := { peerpres := s.twin.peerpres }
    snaps := { written := s.snaps.written }
    render := { tick := s.render.tick } }

/-- The greenroom and jack pages and their state are kept (R466). -/
def State.keepGreen (s old : State) : State :=
  let keep := fun (new was : RegMap) => ((pageWords .greenroom was) ++ (pageWords .jack was)).foldl
    (fun (m : RegMap) (e : Nat × Word) => m.put 0#32 e.1 e.2) new
  { s with
    tap := old.tap
    fab := { s.fab with act := keep s.fab.act old.fab.act, stg := keep s.fab.stg old.fab.stg, mir := keep s.fab.mir old.fab.mir
                        refreshTag := old.fab.refreshTag, evMark := old.fab.evMark }
    green := { old.green with entry := none, abort := false, saved := none }
    gpio := old.gpio.update {} (fun p =>
      { raw := p.raw, green := p.green, since := if p.raw then some 0 else none, tick := s.render.tick }) }

/-- Fields a reset sets besides the reset values: CAUSE, the straps, the fuses and the pins. -/
def State.resetFields (s : State) (cause : Nat) : State :=
  let s := ((s.set .resetPage Reg.Reset.CAUSE cause).set .resetPage Reg.Reset.BOOT_BOOTSEL s.boot.bootsel).set .resetPage
    Reg.Reset.ROLLBACK_FUSED s.boot.fused
  (s.setBit .twin Reg.Twin.TWINID s.boot.twinid).setBit .twin Reg.Twin.PEERPRES s.twin.peerpres

/-- A power-on reset, or a wake from DORMANT, which keeps the greenroom. The boot ROM reads the boot
configuration (R529, R530, R540). -/
def State.powerOn (s : State) (bootsel : Nat) (twinid dormant : Bool) : State :=
  let n := s.blank
  let n := { n with boot := { n.boot with bootsel := bootsel % 4, twinid := twinid } }
  let n := if dormant then n.keepGreen s else n
  let n := { n with boot := { n.boot with cfg := n.bootConfig, warm := some false } }
  let n := n.setBit .dramc Reg.Dramc.STATUS_ECC_ON n.boot.cfg.ecc
  n.resetFields (if dormant then 7 else 1)

/-- PWRON_B falls and rises; the straps are latched at the rise. -/
def execPowerOnReset (bootsel : Nat) (twinid : Bool) (s : State) : Res := settle (s.powerOn bootsel twinid false)

/-- What an output keeps across a warm reset: its correction banks (R227). -/
def keepOut (o : OutEngine) : OutEngine := { corr := { bank0 := o.corr.bank0, bank1 := o.corr.bank1 } }

/-- What a seat keeps: the record of its commands in flight and its binding (R417). -/
def State.keepSeat (s : State) (n : Nat) : SeatState :=
  let q := s.seat n
  { aborted := (q.cmds.filter (·.tag < bootTag)).map (fun c => (c.tag, c.sq))
    wasBind := s.fld (.seat n) Reg.Seat.BIND_KIND + 4 * s.fld (.seat n) Reg.Seat.BIND_INDEX }

/-- A warm reset (R529, R541) of a module that still can run; from STANDBY only RESET_B brings one, and DORMANT has
nothing to keep. One that comes while a power-on reset has not reached FIRMWARE_UP starts that boot again. -/
def State.warmReset (s : State) (cause : Nat) : State :=
  let stage := s.fld .resetPage Reg.Reset.BOOT_STAGE
  let power := s.fld .greenroom Reg.Greenroom.PWR_STATE
  let booting := s.boot.warm = some false
  if stage = 8 || stage = 9 || s.dead || power = 3 || (power = 2 && cause ≠ 2) then s
  else
    let n := (s.blank).keepGreen s
    let j := s.measure.journal
    let bufs := match j with
      | some j => s.pool.bufs.filter (fun (e : Nat × Buffer) => e.1 = j.buffer)
      | none => ([] : Map Buffer)
    let n := { n with
      boot := { n.boot with cfg := n.bootConfig, warm := some !booting, image := if booting then none else s.boot.image, loadedSlot := s.boot.loadedSlot }
      outs := s.outs.update {} keepOut, corrRecord := s.corrRecord, thermals := s.thermals
      measure := { journal0 := s.measure.journal0, journal1 := s.measure.journal1, handle := s.measure.handle }
      pool := { bufs := bufs.map (fun (e : Nat × Buffer) => (e.1, { e.2 with held := true })), handle := s.pool.handle }
      snaps := { slot0 := s.snaps.slot0, slot1 := s.snaps.slot1, id := s.snaps.id, written := s.snaps.written }
      seats := ((List.range 8).map (fun k => (k, s.keepSeat k))).filter (fun (e : Nat × SeatState) => e.2 ≠ ({} : SeatState))
      hosts := { s.hosts with lastSeat := 7 }
      mon := { taps := s.mon.taps } }
    let n := Reg.Twin.fields.foldl (fun n f => if f.acc = .rw || f.acc = .rwi then n.setBoth .twin f (s.fld .twin f) else n) n
    let n := n.setBit .dramc Reg.Dramc.STATUS_ECC_ON (s.bit .dramc Reg.Dramc.STATUS_ECC_ON)
    let n := n.set .dramc Reg.Dramc.SCRUB_PASSES (s.fld .dramc Reg.Dramc.SCRUB_PASSES)
    let n := n.set .greenroom Reg.Greenroom.PWR_STATE 1
    (n.set .resetPage Reg.Reset.WARM_COUNT ((s.fld .resetPage Reg.Reset.WARM_COUNT + 1) % 2 ^ 32)).resetFields cause

/-- RESET_B low for at least 1 microsecond; a write of CTRL.WARM; 1 s without service. -/
def execResetBLow (s : State) : Res := settle (s.warmReset 2)
def execWarm (s : State) : Res := settle (s.warmReset 3)
def execWatchdogExpire (s : State) : Res := settle (s.warmReset 4)

/-- The ROM or the firmware raises the fused rollback count to the running image's (R536). -/
def State.commitRollback (s : State) : State :=
  match s.boot.image with
  | some (_, r) =>
    if s.bit .resetPage Reg.Reset.FALLBACK || s.boot.warm.isSome then s
    else
      let v := max s.boot.fused (min r 64)
      ({ s with boot := { s.boot with fused := v } }.set .resetPage Reg.Reset.ROLLBACK_FUSED v).event .resetPage 4
  | none => s

def execCommitRollback (s : State) : Res := settle s.commitRollback

/-! Start-up (R537, R538, R540 to R542) -/

/-- DRAM training ends: `full` for full training. Saved values that fail lead to full training, which
keeps the contents; full training that fails stops the boot (R513, R542). -/
def execTrainingDone (ok full : Bool) (s : State) : Res :=
  settle (
    if s.boot.warm.isNone || s.bit .dramc Reg.Dramc.STATUS_TRAINED ||
        s.fld .resetPage Reg.Reset.BOOT_STAGE = 8 || s.dead then s
    else
      let s := s.setBit .dramc Reg.Dramc.STATUS_FULL_RETRAIN full
      if ok then
        let s := s.set .dramc Reg.Dramc.STATUS_TRAINED 1
        if s.boot.warm = some true then s
        else if s.boot.bootsel = 1 || s.boot.bootsel = 2 then
          (s.set .resetPage Reg.Reset.BOOT_STAGE 0xA).set .resetPage Reg.Reset.PUSH_STATE 1
        else s.set .resetPage Reg.Reset.BOOT_STAGE 2
      else if full then ((s.set .dramc Reg.Dramc.STATUS_TRAINED 0).set .resetPage Reg.Reset.BOOT_STAGE 8).event .dramc 4
      else s)

/-- An image of a slot becomes the one to run. -/
def State.takeImage (s : State) (k : Nat) (f : List Byte) : State :=
  { (s.set .resetPage Reg.Reset.BOOT_SLOT k) with boot := { s.boot with image := some (imageOf f), loadedSlot := k } }

/-- The ROM checks the slots: the active one, else the other, else it waits for a push or stops (R537). -/
def State.bootSlots (s : State) : State :=
  let k := s.boot.cfg.slot
  let f := s.flashAt (imageSlot k) 0x400000
  if (imageFault s.boot.fused f).isNone then s.takeImage k f
  else
    let g := s.flashAt (imageSlot (1 - k)) 0x400000
    if (imageFault s.boot.fused g).isNone then
      ((s.set .resetPage Reg.Reset.FALLBACK 1).event .resetPage 1).takeImage (1 - k) g
    else if s.boot.bootsel = 3 && s.boot.warm = some false then
      ({ s with boot := { s.boot with image := none } }.set .resetPage Reg.Reset.BOOT_STAGE 0xA).set .resetPage Reg.Reset.PUSH_STATE 1
    else { s with boot := { s.boot with image := none } }.set .resetPage Reg.Reset.BOOT_STAGE 9

def execImageCheck (s : State) : Res :=
  settle (
    if s.boot.warm = some false && s.fld .resetPage Reg.Reset.BOOT_STAGE = 2 && !s.dead then
      (s.set .resetPage Reg.Reset.BOOT_STAGE 3).bootSlots
    else s)

/-- A write of PUSH.GO: the pushed image is checked (R538). -/
def State.pushGo (s : State) : State :=
  let st := s.fld .resetPage Reg.Reset.PUSH_STATE
  if s.boot.warm = some false && s.fld .resetPage Reg.Reset.BOOT_STAGE = 0xA && (st = 1 || st = 3) && !s.dead then
    let f := (List.range (s.fld .resetPage Reg.Reset.PUSH_LEN)).map (fun k => Map.get 0#8 k s.boot.window)
    if (imageFault s.boot.fused f).isSome then s.set .resetPage Reg.Reset.PUSH_STATE 3
    else
      let s := { s with boot := { s.boot with image := some (imageOf f) } }
      (s.set .resetPage Reg.Reset.PUSH_STATE 4).set .resetPage Reg.Reset.BOOT_STAGE 3
  else s

def execPushGo (s : State) : Res := settle s.pushGo

/-- Functions exposed on a link (R394, R534). -/
def State.functions (s : State) (link : Nat) : Nat :=
  if s.boot.cfg.valid then (if link = 1 then s.boot.cfg.pfA else s.boot.cfg.pfB) else s.model.seats / 2

/-- May a seat be bound so: to no attachment, an exposed function or a present port (R395)? -/
def State.bindable (s : State) (kind index : Nat) : Bool :=
  match kind with
  | 0 => true
  | 1 => index < s.functions 1
  | 2 => index < s.functions 2
  | _ => index < s.model.eths

/-- Seats are bound, keys and addresses installed (R395, R534, R540). -/
def State.bindSeats (s : State) : State :=
  let c := s.boot.cfg
  let s := (List.range s.model.seats).foldl (fun s k =>
    let v := if c.valid then c.bind.getD k 0 else s.model.bindDefault k
    let s := ((s.setBoth (.seat k) Reg.Seat.BIND_KIND (v % 4)).setBoth (.seat k) Reg.Seat.BIND_INDEX (v / 4 % 4)).setBoth
      (.seat k) Reg.Seat.SD_UDP_PORT c.sdPort
    let q := s.seat k
    let key := Map.get [] k s.boot.keys
    let s := s.setSeat k { q with
      sd := { q.sd with key := if key.isEmpty then none else some key, persisted := !key.isEmpty }
      aborted := if q.wasBind = v % 16 then q.aborted else [] }
    s.setBit (.seat k) Reg.Seat.STATUS_KEY_VALID !key.isEmpty) s
  (List.range s.model.eths).foldl (fun s p => s.setBoth (.ethMac p) Reg.EthMac.IPV4_ADDR (c.ipv4.getD p 0)) s

/-- The general pool at render start (R36). -/
def State.poolSize (s : State) : State :=
  s.set .dramc Reg.Dramc.POOL_SIZE
    (s.model.poolMiB (s.bit .dramc Reg.Dramc.STATUS_ECC_ON) (s.twin.mode = 2))

/-- Counts of the DEVICE page for the model (R77). -/
def State.showDevice (s : State) : State :=
  let m := s.model
  let put := fun (s : State) (e : Fld × Nat) => s.set .device e.1 e.2
  let rel := (s.boot.image.map (·.1)).getD 0
  let flds := [(Reg.Device.VARIANT_CODE, m.code), (Reg.Device.UNITS_A_OBJECTS, m.objects), (Reg.Device.UNITS_A_OUTPUTS, m.outputs),
     (Reg.Device.UNITS_B_BUSES, m.buses), (Reg.Device.UNITS_B_TDM, m.tdms), (Reg.Device.UNITS_B_AESRX, m.aes),
     (Reg.Device.UNITS_B_AESTX, m.aes), (Reg.Device.UNITS_B_ETH, m.eths), (Reg.Device.UNITS_C_PS, m.pss),
     (Reg.Device.UNITS_C_PDM, m.pdms), (Reg.Device.UNITS_C_SEATS, m.seats), (Reg.Device.UNITS_C_PROMPTERS, m.prompters)] ++
    [(Reg.Device.UNITS_C_BINAURAL, if m.monitor then 1 else 0), (Reg.Device.UNITS_C_LOCKSTEP, if m.lockstep then 1 else 0),
     (Reg.Device.PATH_POOL, m.paths), (Reg.Device.TAP_POOL, m.taps), (Reg.Device.DRAM_MIB, m.dramMiB),
     (Reg.Device.DRAM_ECC_ON, s.fld .dramc Reg.Dramc.STATUS_ECC_ON), (Reg.Device.NOW_OBJECTS, s.nowObjects),
     (Reg.Device.NOW_OUTPUTS, s.nowOutputs), (Reg.Device.NOW_PATHS, s.nowPaths), (Reg.Device.FW_RELEASE_MINOR, rel % 256),
     (Reg.Device.FW_RELEASE_MAJOR, rel / 256 % 256), (Reg.Device.FW_RELEASE_BUILD, rel / 65536)]
  flds.foldl put s

def defcfgAt : Nat := 0x00A00000

/-- The header of the default configuration starts the replay, or stops it before its first record
(R543). -/
def State.defcfgStart (s : State) : State :=
  let f := s.flashAt defcfgAt s.boot.cfg.defcfgLen
  if leAt f 0 4 = 0x44464346 ∧ 64 ≤ f.length ∧ leAt f 0x3C 4 = (crcWithout f 0x3C).toNat then
    { s with boot := { s.boot with replay := some (0, leAt f 4 4), busy := false, result := none, since := s.render.tick } }
  else ((s.set .resetPage Reg.Reset.DEFCFG_FAILED 1).set .resetPage Reg.Reset.DEFCFG_INDEX 0).event .resetPage 3

/-- What a warm restart brings back from DRAM (R227, R255, R268, R541). -/
def State.warmRestore (s : State) : State := (s.corrRestore.thermalRestore false).measureRestart

/-- The firmware is up, `ms` after the reset was released; at a warm reset `good` says that the copy of
the image in DRAM checks good (R540, R541). -/
def execFirmwareUp (ms : Nat) (good : Bool) (s : State) : Res :=
  settle (
    if s.boot.warm.isNone || !s.bit .dramc Reg.Dramc.STATUS_TRAINED || s.dead then s
    else
      let warm := s.boot.warm = some true
      let s :=
        if warm && (!good || s.boot.cfg.slot ≠ s.boot.loadedSlot) then (s.set .resetPage Reg.Reset.FLASH_RELOAD 1).bootSlots
        else s
      match s.boot.image with
      | none => s
      | some (_, rollback) =>
        let s := { s with boot := { s.boot with warm := none, window := [] } }
        let s := (s.set .resetPage Reg.Reset.BOOT_STAGE 4).set .resetPage Reg.Reset.BOOT_MS (min ms 65535)
        let s := ((s.set .resetPage Reg.Reset.ROLLBACK_IMAGE rollback).set .resetPage Reg.Reset.PUSH_STATE 0).setBoth
          .resetPage Reg.Reset.PUSH_LEN 0
        let s := if warm then s else s.setBoth .twin Reg.Twin.CFG_MODE s.boot.cfg.twinMode
        let s := (s.bindSeats.modeSet).poolSize.showDevice.training
        let s := (s.set .greenroom Reg.Greenroom.PWR_STATE 1).event .resetPage 0
        let s := if warm then s.warmRestore else s
        let s := { s with mon := { s.mon with pmb := some (none, 0) } }
        if s.boot.cfg.defcfg && (!warm || s.boot.cfg.defcfgOnWarm) then s.defcfgStart else s)

/-! FW_UPDATE (R539) -/

/-- A further one is BUSY (R411). -/
def execFwUpdate (seat tag : Nat) (s : State) : Res :=
  settle (s.command seat tag 0x68 (houseOnly (fun c s =>
    if s.seats.any (fun q => q.2.cmds.any (fun d => d.opcode = 0x68 && d.started && !d.final &&
        !(d.seat = c.seat && d.tag = c.tag))) then s.finish c.seat c.tag Status.busy
    else s.startLoad c 0)))

/-- One step: FETCH, CHECK, WRITE 0 to 15, VERIFY, ACTIVATE. -/
def State.stepFwUpdate (s : State) (c : Cmd) (host : List Byte) : State :=
  let k := 1 - s.fld .resetPage Reg.Reset.BOOT_SLOT
  let rel := leAt c.bytes 4 4
  match c.steps with
  | 0 => s.fetchStep c 0 host
  | 1 =>
    match imageFault s.boot.fused c.bytes with
    | some e => s.finish c.seat c.tag Status.authFail 0 e
    | none =>
      let s := s.flashWrite (imageSlot k) (List.replicate 4096 0xFF#8)
      (s.accept c.seat c.tag).stepped c.seat c.tag
  | n =>
    if n < 18 then
      let j := n - 2
      let piece := (c.bytes.drop (0x40000 * j)).take 0x40000
      (s.flashWrite (imageSlot k + 0x40000 * j) (piece ++ List.replicate (0x40000 - piece.length) 0xFF#8)).stepped c.seat c.tag
    else if n = 18 then
      match imageFault s.boot.fused (s.flashAt (imageSlot k) 0x400000) with
      | some e => (s.flashWrite (imageSlot k) (List.replicate 4096 0xFF#8)).finish c.seat c.tag Status.authFail 0 e
      | none => if c.flag 0 then s.stepped c.seat c.tag else s.finish c.seat c.tag Status.ok rel
    else (s.writeBootSlot k).finish c.seat c.tag Status.ok rel

/-- A cancel after CHECK leaves the target slot invalid. -/
def State.cancelFwUpdate (s : State) (c : Cmd) : State :=
  let k := 1 - s.fld .resetPage Reg.Reset.BOOT_SLOT
  if 2 ≤ c.steps then s.flashWrite (imageSlot k) (List.replicate 4096 0xFF#8) else s

end Sys2Proof.Machine
end

