-- ==== Sys2Proof/Machine/Power.lean ====
section
/-! DEFINITION. Power states: refusals, entry into STANDBY and DORMANT, module wake (R474 to R476). -/

namespace Sys2Proof.Machine

open Sys2Proof

/-- Reasons to refuse STANDBY or DORMANT (R474). -/
def State.pwrReasons (s : State) : List Nat :=
  (if s.seats.any (fun q => !q.2.cmds.isEmpty) || s.measure.campaign.any (fun c => c.phase = .held) then [1] else []) ++
  (if (List.range 7).any (fun k => s.fld (.seat (k + 1)) Reg.Seat.BIND_KIND ≠ 0 &&
      s.bit (.seat (k + 1)) Reg.Seat.STATUS_ATTACHED && !s.asleep (k + 1)) then [2] else []) ++
  (if s.twin.mode ≠ 0 then [3] else []) ++
  (if (List.range 32).any (fun e => s.bit .greenroom (Reg.Greenroom.WATCH_EN e) &&
      s.bit .greenroom (Reg.Greenroom.WATCH_MODULE e) &&
      s.sourceLevel (s.fld .greenroom (Reg.Greenroom.WATCH_SOURCE e)) 0) then [4] else [])

def State.refusePower (s : State) (reason : Nat) : State :=
  (s.set .greenroom Reg.Greenroom.PWR_REFUSE reason).event .greenroom 1

/-- Everything but the greenroom powers down; DRAM contents are lost (R474). -/
def State.dormant (s : State) : State :=
  let n := (s.blank).keepGreen s
  let n := { n with boot := { n.boot with warm := none } }
  (n.resetFields (s.fld .resetPage Reg.Reset.CAUSE)).set .greenroom Reg.Greenroom.PWR_STATE 3

/-- A write of PWR.TARGET = STANDBY or DORMANT (R474, R475). Where several reasons hold, which one is shown
is open. -/
def State.lowerPower (s : State) (target : Nat) : State :=
  let s := s.setBoth .greenroom Reg.Greenroom.PWR_TARGET target
  if s.lowPower || s.green.entry.isSome then s
  else
    match s.pwrReasons with
    | [] =>
      if target = 3 then s.dormant
      else { s with green := { s.green with entry := some (2, s.render.rsi), abort := false } }
    | [r] => s.refusePower r
    | rs => let (v, s) := s.fresh; s.refusePower (rs.getD (v % rs.length) 0)

def execPwrTargetStandby (s : State) : Res := settle (s.lowerPower 2)
def execPwrTargetDormant (s : State) : Res := settle (s.lowerPower 3)

/-- At a block boundary: the outputs have ramped to zero and the render is to stop (R475). -/
def State.entryBoundary (s : State) : State :=
  match s.green.entry with
  | some (_, st) =>
    if s.clocked && st + s.fs / 200 ≤ s.render.rsi then { s with render := { s.render with stopping := true } } else s
  | none => s

/-- The last step of the entry: the state is saved and the module is in STANDBY; a wake source that came
meanwhile has aborted it (R475). -/
def execStandbyEntered (s : State) : Res :=
  settle (
    if s.green.entry.isNone || !s.stopped then s
    else if s.green.abort then
      ({ s with green := { s.green with entry := none, abort := false } }.set .greenroom Reg.Greenroom.PWR_STATE 1).refusePower 4
    else
      let k := s.olderSlot
      let id := if s.snaps.id + 1 < 2 ^ 32 then s.snaps.id + 1 else 1
      let s := { s with
        snaps := { s.snaps.setSlot k (some { s.image false with id := id }) with id := id }
        green := { s.green with entry := none, saved := some k } }
      let s := s.set .greenroom Reg.Greenroom.PWR_STATE 2
      (s.bias 0 false).bias 1 false)

/-- Histories are not saved for STANDBY. -/
def State.dropHistories (s : State) : State :=
  { s with objs := s.objs.update {} (fun o => { o with near := [], far := [] }) }

/-- A module wake: `cause` as WAKE_CAUSE.ENTRY codes it (R476). Without REFCLK, or after a trip, none is possible (R574). -/
def State.moduleWake (s : State) (cause : Nat) : State :=
  if !s.lowPower || s.dead then s
  else
    let s := if s.fld .greenroom Reg.Greenroom.PWR_STATE = 3 then s.powerOn s.boot.bootsel s.boot.twinid true
      else { s.dropHistories with green := { s.green with saved := none } }
    let s := (s.set .greenroom Reg.Greenroom.PWR_STATE 1).event .greenroom 0
    let s := (s.jackWake 0).jackWake 1
    let s := (s.set .greenroom Reg.Greenroom.WAKE_CAUSE_ENTRY cause).set .greenroom Reg.Greenroom.WAKE_CAUSE_VALID 1
    if cause < 32 then
      let seats := s.fld .greenroom (Reg.Greenroom.WATCH_SEATS cause)
      ((List.range 8).filter seats.testBit).foldl State.wakeSeat s
    else s

/-- A watch entry, or a wake cause that has stood, wakes the module. -/
def execModuleWake (cause : Nat) (s : State) : Res :=
  settle (
    if cause < 32 then
      let src := s.fld .greenroom (Reg.Greenroom.WATCH_SOURCE cause)
      if s.bit .greenroom (Reg.Greenroom.WATCH_EN cause) && s.bit .greenroom (Reg.Greenroom.WATCH_MODULE cause) &&
          greenSource src && s.sourceLevel src 0 then
        s.moduleWake cause
      else s
    else if cause = 0x20 && s.bit .greenroom Reg.Greenroom.WAKE_IN then s.moduleWake cause
    else if cause = 0x21 && s.fld .greenroom Reg.Greenroom.PWR_TARGET = 0 then s.moduleWake cause
    else s)

/-- A write of PWR.TARGET = ACTIVE: it wakes a module in low power and else is ignored (R474, R476). -/
def execPwrTargetActive (s : State) : Res :=
  settle ((s.setBoth .greenroom Reg.Greenroom.PWR_TARGET 0).moduleWake 0x21)

/-- WAKE_B as driven from outside, once low for 1 ms or once high again; ignored while the module drives it
in STANDBY and DORMANT (R476). -/
def execWakeIn (low : Bool) (s : State) : Res :=
  let driven := (s.fld .greenroom Reg.Greenroom.WAKE_DRIVEN).testBit 2
  settle (
    if !low then s.set .greenroom Reg.Greenroom.WAKE_IN 0
    else if s.lowPower && driven then s
    else ((s.set .greenroom Reg.Greenroom.WAKE_IN 1).event .greenroom 3).moduleWake 0x20)

end Sys2Proof.Machine
end

