-- ==== Sys2Proof/Machine/Monitors.lean ====
section
/-! DEFINITION. The DRAM controller, ECC and SRAM protection, temperature, voltage and process
monitors, and loss of the reference clock (R510 to R527, R559). -/

namespace Sys2Proof.Machine

open Sys2Proof

/-- The monitors run in ACTIVE and QUIET (R520). -/
def State.watching (s : State) : Bool := !s.dead && !s.lowPower

/-! Refresh and calibration (R510 to R512) -/

/-- A refresh stall begins: the interval follows sensors 14 and 15, and delays found off at the last
measurement move by one tap (R510, R511). -/
def execRefresh (s : State) : Res :=
  settle (
    if !s.watching then s
    else
      let was := s.bit .dramc Reg.Dramc.STATUS_REFRESH_2X
      let taps := s.mon.tapMove.foldl (fun (m : Map Int) (e : Nat × Int) => m.put 0 e.1 (Map.get 0 e.1 m + e.2)) s.mon.taps
      let s := { s with mon := { s.mon with stall := true, taps := taps, tapMove := [] } }
      let s := s.setBit .dramc Reg.Dramc.STATUS_REFRESH_2X s.mon.want2x
      if s.mon.want2x && !was then s.event .dramc 3 else s)

/-- The ZQ latch of a channel, within a refresh stall (R511). -/
def execZqLatch (ch : Nat) (s : State) : Res :=
  settle (
    if s.mon.stall && ch < 2 then
      { s with mon := { s.mon with zq := s.mon.zq.put 0 ch (Map.get 0 ch s.mon.zq + 1) } }
    else s)

/-- A measurement of the interval oscillator of a channel: the drift, in 1/256 tap. Beyond half a tap the
delays move by one tap within the next stall (R511). -/
def execWckMeasure (ch : Nat) (drift : Int) (s : State) : Res :=
  settle (
    if s.mon.stall && ch < 2 then
      let v : Int := if 128 < drift then 1 else if drift < -128 then -1 else 0
      { s with mon := { s.mon with tapMove := s.mon.tapMove.put 0 ch v } }
    else s)

/-- A row activate refreshes its two neighbours where the draw says so: with probability 2^-k, from an
LFSR that the spec leaves open (R512). An activate comes outside every stall. -/
def execRowActivate (s : State) : Res :=
  settle (
    if !s.watching then s
    else
      let s := { s with mon := { s.mon with stall := false } }
      let (v, s) := s.fresh
      if v % 2 ^ s.fld .dramc Reg.Dramc.NRR_K = 0 then s.count .dramc Reg.Dramc.NRR_COUNT 2 else s)

/-! ECC (R515 to R517) -/

/-- A single-bit error, corrected; more than STORM_LIMIT within 1 ms are a storm (R516). -/
def State.corrected (s : State) (addr : Nat) : State :=
  let ces := s.render.tick :: s.mon.ces.filter (fun t => s.render.tick < t + s.msTicks)
  let s := { s with mon := { s.mon with ces := ces } }
  let s := ((s.count .dramc Reg.Dramc.CE_COUNT).set64 .dramc Reg.Dramc.CE_ADDR_LO Reg.Dramc.CE_ADDR_HI
    (addr % 2 ^ 34)).event .dramc 0
  if s.fld .dramc Reg.Dramc.STORM_LIMIT < ces.length then s.event .dramc 2 else s

/-- The burst's samples read as zero: 16 samples of the object's far history, at an open place. -/
def State.farLost (s : State) (n : Nat) : State :=
  let (v, s) := s.fresh
  let o := s.obj n
  let a := v % 2048 * 16
  s.setObj n { o with far := Map.drop (fun k => decide (a ≤ k ∧ k < a + 16)) o.far }

/-- Taps of a bank read as zero. -/
def Bank.zeroed (b : Bank) (lo hi : Nat) : Bank :=
  { b with taps := b.taps.zipIdx.map (fun (e : Int × Nat) => if lo ≤ e.2 ∧ e.2 < hi then 0 else e.1) }

/-- The segment that holds the word contributes zero until its bank is reloaded: an open bank, and an open segment among
those that lie in DRAM, 4 and above (R210, R517). -/
def State.segmentLost (s : State) (n : Nat) : State :=
  let (v, s) := s.fresh
  let c := (s.out n).corr
  let k := v % 2
  let b := c.bank k
  let span := spanOf b.taps.length
  if span < 4 then s
  else
    let j := 4 + v / 2 % (span - 3)
    s.setCorr n (c.setBank k (b.zeroed (2 ^ (j + 5)) (2 ^ (j + 6))))

/-- A word of the heads and segments 1 to 3 of a bank reads as zero, an open one of the 512 taps that lie in SRAM, until
the bank is loaded again (R210, R519). -/
def State.headLost (s : State) (n : Nat) : State :=
  let (v, s) := s.fresh
  let c := (s.out n).corr
  let j := v / 2 % 512
  s.setCorr n (c.setBank (v % 2) ((c.bank (v % 2)).zeroed j (j + 1)))

/-- A word of a stream buffer reads as zero: an open sample of the stream's channels within the last 1,024. -/
def State.bufferLost (s : State) (n : Nat) : State :=
  let (v, s) := s.fresh
  let chan := v % max 1 (s.fld (.ingress n) Reg.Ingress.FMT_CHANNELS)
  let i := s.render.rsi - v / 64 % 1024
  s.putSample { type := 1, unit := n, chan := chan } i 0

/-- What an uncorrected error does, by region; the unit is an object, an output, a slot, or for the general
pool 65,536 x seat + tag of the operation that reads the word (R517). -/
def State.uncorrected (s : State) (addr region unit_ : Nat) : State :=
  let named := region = 1 || region = 2
  let s := (s.count .dramc Reg.Dramc.UE_COUNT).set64 .dramc Reg.Dramc.UE_ADDR_LO Reg.Dramc.UE_ADDR_HI (addr % 2 ^ 34)
  let s := ((s.set .dramc Reg.Dramc.UE_REGION region).set .dramc Reg.Dramc.UE_UNIT (if named then unit_ else 0)).event
    .dramc 1
  match region with
  | 1 => if unit_ < s.model.objects then s.farLost unit_ else s
  | 2 => if unit_ < s.model.outputs then s.segmentLost unit_ else s
  | 3 => { s with snaps := s.snaps.setSlot (unit_ % 2) none }
  | 4 => { s with twin := { s.twin with
      journal := s.twin.journal.filter (·.block ≠ unit_), ring := s.twin.ring.filter (·.block ≠ unit_) } }
  | 5 => s.warmReset 5
  | 6 => { s with mon := { s.mon with degraded := (unit_ / 65536, unit_ % 65536) :: s.mon.degraded } }
  | _ => s

/-- The patrol scrubber, or any other read, finds no error (0), a corrected one (1) or an uncorrected one
(2); `pass` ends a pass. Without ECC no error is detected (R515). -/
def execPatrolScrub (addr err region unit : Nat) (pass : Bool) (s : State) : Res :=
  settle (
    if !s.watching || !s.bit .dramc Reg.Dramc.STATUS_ECC_ON then s
    else
      let s := if pass then s.count .dramc Reg.Dramc.SCRUB_PASSES else s
      if err = 1 then s.corrected addr
      else if err = 2 ∧ 1 ≤ region ∧ region ≤ 7 then s.uncorrected addr region unit
      else s)

/-! SRAM (R519) -/

/-- The contexts that use a lost program word go to FAULT with code WORD: motion context n, or the Prompter
of seat n - 1,024. -/
def State.wordLost (s : State) (n : Nat) : State :=
  if n < 1024 then
    let o := s.obj n
    match o.ctx.state with
    | .idle | .halted | .fault => s
    | _ => s.setCtx n (o.ctx.toFault 4).1
  else if s.prActive (n - 1024) then s.prFault (n - 1024) 6 else s

/-- The scrubber, or an access, finds no error (0), a corrected one (1) or an uncorrected one (2) in a
partition: 0 near history of object `unit`, convolution heads of output `unit` - 1,024, or the buffer of ingress stream
`unit` - 2,048; 1 tables and state, of object `unit` or of output `unit` - 1,024; 2 scheduler and program memory; 3 Exlos
memory. -/
def execSramScrub (part err unit : Nat) (s : State) : Res :=
  settle (
    if !s.watching then s
    else if err = 1 then (s.count .health Reg.Health.SRAM_CE_COUNT).event .health 6
    else if err = 2 then
      let s := (s.count .health Reg.Health.SRAM_UE_COUNT).event .health 7
      match part with
      | 0 =>
        if unit < s.model.objects then
          let (v, s) := s.fresh
          let o := s.obj unit
          s.setObj unit { o with near := o.near.put 0 (v % 1024) 0 }
        else if 1024 ≤ unit && unit < 1024 + s.model.outputs then s.headLost (unit - 1024)
        else if 2048 ≤ unit && unit < 2304 then s.bufferLost (unit - 2048)
        else s
      | 1 =>
        if unit < s.model.objects || (1024 ≤ unit && unit < 1024 + s.model.outputs) then
          { s with mon := { s.mon with rebuild := s.mon.rebuild ++ [(decide (1024 ≤ unit), unit % 1024)] } }
        else s
      | 2 => s.wordLost unit
      | 3 => s.warmReset 6
      | _ => s
    else s)

/-- At the block boundary at sample `i` the state of a lost object or output is rebuilt: its filters and
models start from zero, and it is silent and then fades in (R519, R24). -/
def State.rebuild (s : State) (i : Nat) : State :=
  let l := s.mon.rebuild
  let s := { s with mon := { s.mon with rebuild := [] } }
  l.foldl (fun s (e : Bool × Nat) =>
    let n := e.2
    if e.1 then
      let q := s.out n
      s.setOut n { q with sections := [], hp0 := {}, hp1 := {}, env := 0, lim := unity, ahead := [],
                          prot := { measuredAt := q.prot.measuredAt }, last := 0, fadeIn := true }
    else
      let o := s.obj n
      let g := o.gain
      s.setObj n { o with
        sections := []
        histFrom := i
        gain := { g with last := 0, from_ := 0, start := i + s.blockSize, n := max g.n s.blockSize } }) s

/-! Temperature (R520 to R523) -/

/-- STATE.THERM: 2 CRITICAL, 1 WARNING, 0 NORMAL. -/
def State.showThermal (s : State) : State :=
  s.set .health Reg.Health.STATE_THERM (if s.mon.critical then 2 else if s.mon.warn then 1 else 0)

/-- The hottest of sensors 0 to 13 and the lowest sensor that holds it, Q8.8. -/
def hottest (temps : List Int) : Int × Nat :=
  (temps.take 14).zipIdx.foldl (fun (a : Int × Nat) (e : Int × Nat) => if a.1 < e.1 then e else a) (temps.headD 0, 0)

/-- THROTTLE takes effect, or ends, at a block boundary (R522). -/
def State.throttleBoundary (s : State) : State :=
  let was := s.bit .health Reg.Health.STATE_THROTTLED
  if was = s.mon.throttle then s
  else
    let s := s.setBit .health Reg.Health.STATE_THROTTLED s.mon.throttle
    if was then s else s.event .health 3

/-- The level an action clears below: 0 WARNING, 1 THROTTLE, 2 CRITICAL (R521). -/
def State.clearLevel (s : State) (level : Nat) : Nat :=
  match level with
  | 0 => s.fld .health Reg.Health.WARN_TEMP - 5
  | 1 => s.fld .health Reg.Health.THROTTLE_TEMP - 5
  | _ => 108

/-- One more than the ticks since which the hottest temperature has stayed below each clear level. -/
def State.coolSince (s : State) (hot : Int) : Map Nat :=
  (List.range 3).foldl (fun (m : Map Nat) (k : Nat) =>
    if hot < (s.clearLevel k : Int) * 256 then
      (if (m.lookup k).isSome then m else m.put 0 k (s.render.tick + 1))
    else m.filter (fun (e : Nat × Nat) => e.1 ≠ k)) s.mon.cool

/-- The sensors are sampled: sixteen readings in Q8.8 degrees (R520, R521). -/
def execTempSample (temps : List Int) (s : State) : Res :=
  settle (
    if !s.watching || temps.length ≠ 16 then s
    else
      let code := fun (t : Int) => (t % 65536).toNat
      let s := temps.zipIdx.foldl (fun s (e : Int × Nat) => s.set .health (Reg.Health.TEMP e.2) (code e.1)) s
      let (hot, k) := hottest temps
      let s := (s.set .health Reg.Health.TEMP_HOT (code hot)).set .health Reg.Health.TEMP_HOT_SENSOR k
      let s := if signed 16 (s.fld .health Reg.Health.TEMP_PEAK) < hot then s.set .health Reg.Health.TEMP_PEAK (code hot) else s
      let t14 := temps.getD 14 0
      let t15 := temps.getD 15 0
      let want := if 85 * 256 < t14 ∨ 85 * 256 < t15 then true
        else if t14 ≤ 82 * 256 ∧ t15 ≤ 82 * 256 then false else s.mon.want2x
      let s := { s with mon := { s.mon with want2x := want, cool := s.coolSince hot } }
      let reach := fun (v : Nat) => decide ((v : Int) * 256 ≤ hot)
      let s := if !s.mon.warn && reach (s.fld .health Reg.Health.WARN_TEMP) then
          ({ s with mon := { s.mon with warn := true } }.event .health 0).event .greenroom 8
        else s
      let s := if !s.mon.throttle && s.bit .health Reg.Health.THROTTLE_EN && reach (s.fld .health Reg.Health.THROTTLE_TEMP) then
          let s := { s with mon := { s.mon with throttle := true } }
          if s.clocked then s else s.throttleBoundary
        else s
      let s := if !s.mon.critical && reach 115 then
          (({ s with mon := { s.mon with critical := true } }.thermEvent true).event .health 1).event .greenroom 8
        else s
      s.showThermal)

/-- Has the hottest temperature stayed below the clear level of an action for 1 s? -/
def State.cooled (s : State) (level : Nat) : Bool :=
  match s.mon.cool.lookup level with
  | some t => s.fs ≤ s.render.tick + 2 - t
  | none => false

/-- The hottest temperature has stayed below the clear level of an action for 1 s: 0 WARNING, 1 THROTTLE,
2 CRITICAL (R521). -/
def execThresholdClear (level : Nat) (s : State) : Res :=
  settle (
    if !s.cooled level then s
    else if level = 0 && s.mon.warn then { s with mon := { s.mon with warn := false } }.showThermal
    else if level = 1 && s.mon.throttle then
      let s := { s with mon := { s.mon with throttle := false } }
      if s.clocked then s else s.throttleBoundary
    else if level = 2 && s.mon.critical then
      (({ s with mon := { s.mon with critical := false } }.thermEvent false).event .health 2).showThermal
    else s)

/-- Every gate pin goes low (R277). -/
def State.gatesLow (s : State) : State :=
  (List.range s.model.pss).foldl (fun s k =>
    let e := s.psOf k
    s.setPs k { e with switching := false, start := false, legs := [], gates := [], freewheel := false }) s

/-- A comparator trips in every state but DORMANT: THERMTRIP_B is low until a power-on reset, the gates are
low and the PLLs stop; DRAM contents are lost with the supplies (R523). -/
def execThermalTrip (s : State) : Res :=
  settle (
    if s.fld .greenroom Reg.Greenroom.PWR_STATE = 3 || s.mon.tripped then s
    else { s with mon := { s.mon with tripped := true, pmb := none, next := none } }.gatesLow)

/-- REFCLK has stopped for more than 1 microsecond: gates and egress data pins are low until PWRON_B (R559). -/
def execRefclkLoss (s : State) : Res :=
  let s := { s with mon := { s.mon with refclkLost := true } }.gatesLow
  settle { s with
    tdmTx := s.tdmTx.update ({} : PortState) (fun p => { p with sent := p.sent.map (fun v => v.map (fun _ => 0)) })
    aesTx := s.aesTx.update ({} : AesTxState) (fun p => { p with sent := p.sent.map (fun _ => (0, 0)) }) }

/-! Voltage and process (R524 to R526) -/

/-- The window of a rail in mV; VDD_CORE has one once a value has been requested. -/
def State.railWindow (s : State) (m : Nat) : Option (Nat × Nat) :=
  if m = 0 then
    let v := s.fld .health Reg.Health.CORE_MV
    if v = 0 then none else some (v - 25, v + 25)
  else
    ([(760, 840), (760, 840), (810, 890), (1140, 1260), (810, 890), (1710, 1890), (1710, 1890), (1710, 1890),
      (1000, 1100), (860, 950), (470, 530)] : List (Nat × Nat))[m - 1]?

/-- The twelve rails are sampled, in units of 2 mV (R524). -/
def execVmonSample (mv : List Nat) (s : State) : Res :=
  settle (
    if !s.watching || mv.length ≠ 12 then s
    else mv.zipIdx.foldl (fun s (e : Nat × Nat) =>
      let s := s.set .health (Reg.Health.VMON e.2) e.1
      match s.railWindow e.2 with
      | some (lo, hi) =>
        if 2 * e.1 < lo ∨ hi < 2 * e.1 then (s.stick .health Reg.Health.VMON_FLAGS e.2).event .health 4 else s
      | none => s) s)

/-- The next PMBus request goes out: first VOUT_MODE is read, then the voltage waiting is written (R526). -/
def State.pmbusNext (s : State) : State :=
  if s.mon.pmb.isSome || s.dead || s.boot.warm.isSome || s.bit .health Reg.Health.STATE_AVS_HOLD then s
  else
    match s.mon.next with
    | none => s
    | some v =>
      if s.mon.voutMode then
        { s with mon := { s.mon with pmb := some (some v, 0), next := none } }.set .health Reg.Health.CORE_MV v
      else { s with mon := { s.mon with pmb := some (none, 0) } }

/-- A value for VDD_CORE is wanted from the regulator; on AVS_HOLD no request is made. -/
def State.requestCore (s : State) (mv : Nat) : State :=
  if s.bit .health Reg.Health.STATE_AVS_HOLD then s
  else { s with mon := { s.mon with next := some mv } }.pmbusNext

/-- A request ends; without acknowledge, or with a failed check, it is retried twice (R526). -/
def execPmbusRequestDone (ok : Bool) (s : State) : Res :=
  settle (
    match s.mon.pmb with
    | none => s
    | some (v, fails) =>
      if ok then
        { s with mon := { s.mon with pmb := none, voutMode := s.mon.voutMode || v.isNone } }.pmbusNext
      else if fails < 2 then { s with mon := { s.mon with pmb := some (v, fails + 1) } }
      else ({ s with mon := { s.mon with pmb := none, next := none } }.set .health Reg.Health.STATE_AVS_HOLD 1).event
        .health 5)

/-- The value that adaptive scaling moves by one step of 5 mV, or the first it requests. -/
def State.coreStep (s : State) (up down : Bool) : State :=
  let v := s.fld .health Reg.Health.CORE_MV
  if v = 0 then (if s.mon.want = 0 then s else s.requestCore s.mon.want)
  else if up then (if v + 5 ≤ 850 then s.requestCore (v + 5) else s)
  else if down then (if 700 + 5 ≤ v then s.requestCore (v - 5) else s)
  else s

/-- The process monitors are counted: below 1.01 x the target VDD_CORE steps up, else it moves by at most
one step towards the value last computed (R525). -/
def execRoSample (counts : List Nat) (s : State) : Res :=
  settle (
    if !s.watching || counts.length ≠ 8 then s
    else
      let s := counts.zipIdx.foldl (fun s (e : Nat × Nat) => s.set .health (Reg.Health.RO_COUNT e.2) e.1) s
      if s.bit .health Reg.Health.AVS_MODE || s.boot.warm.isSome then s
      else
        let slow := counts.foldl min (counts.headD 0)
        let v := s.fld .health Reg.Health.CORE_MV
        if 100 * slow < 101 * Config.roTarget then s.coreStep true false
        else s.coreStep (decide (v < s.mon.want)) (decide (s.mon.want ≠ 0 ∧ s.mon.want < v)))

/-- The adaptive value is computed anew: the lowest step at which the slowest count is at least 1.03 x the
target, as measured outside the model (R525). -/
def execAvsRecompute (want : Nat) (s : State) : Res :=
  settle (
    if !s.watching || s.bit .health Reg.Health.AVS_MODE || want % 5 ≠ 0 || want < 700 || 850 < want then s
    else { s with mon := { s.mon with want := want } })

/-- A write of AVS clears AVS_HOLD; in FIXED mode it requests FIXED_MV once (R525, R527). -/
def State.avsWritten (s : State) : State :=
  let s := s.set .health Reg.Health.STATE_AVS_HOLD 0
  if s.bit .health Reg.Health.AVS_MODE then s.requestCore (s.fld .health Reg.Health.AVS_FIXED_MV) else s

end Sys2Proof.Machine
end

