-- ==== Sys2Proof/Machine/Run.lean ====
section
/-! DEFINITION. Starting, stopping and resetting the render (R22, R23, R173, R205, R364, R380, R381). -/

namespace Sys2Proof.Machine

open Sys2Proof

/-! What a render reset clears -/

/-- A stage stands at the gain it was heading for: no ramp of the old index scale survives. -/
def GainStage.settle (g : GainStage) : GainStage := GainStage.at0 g.wantInv g.wantGain

/-- A section without its history. -/
def Section.clear (q : Section) : Section := { on := q.on }

/-- An object after a render reset at sample `i` (R115, R173): its context is idle, its histories are
empty, and it stands at its committed position or at the origin, whether it is active or not. -/
def ObjEngine.renderReset (o : ObjEngine) (i mode : Nat) (pos : V3) (restart : Bool) : ObjEngine :=
  let p : V3 := if mode = 1 then {} else pos
  let e : ObjEngine := {
    mode := mode, ctx := if mode = 0 then {} else o.ctx.toIdle
    flagSet := o.flagSet, flagClr := o.flagClr, flagsAt := o.flagsNow
    direct := { to_ := if mode = 0 then pos else {}, start := i }
    offset := { to_ := if mode = 2 then pos else {}, start := i }
    pb := p, pb1 := p, pbAt := i }
  if !o.live then e
  else
    { e with
      live := true, eqSet := o.eqSet, histFrom := i, input := { cur := o.input.cur }
      gain := if restart then o.gain.settle else o.gain
      sections := o.sections.update {} Section.clear }

/-- A route or bus direct output: fades end with the new route in place (R205). -/
def RouteEngine.renderReset (e : RouteEngine) (restart : Bool) : RouteEngine :=
  { e with fade := none, old := none, gain := if restart then e.gain.settle else e.gain }

def BusEngine.renderReset (e : BusEngine) (restart : Bool) : BusEngine :=
  { live := e.live, gain := if restart then e.gain.settle else e.gain
    sections := e.sections.update {} Section.clear, direct := e.direct.renderReset restart }

/-- An output: chain and delay-line states clear, banks and thermal states are kept (R205, R227, R268). -/
def OutEngine.renderReset (e : OutEngine) (i : Nat) (restart : Bool) : OutEngine :=
  let secs := e.sections.update {} Section.clear
  let was := e.corr
  let e := e.clear i
  let c := (was.clear i).rewarm i
  let c := if restart then { c with since := 0, before := c.live } else c
  { e with
    sections := secs, corr := c, pre := [], tap := [], post := [], egress := [], preDone := 0, postDone := 0
    falling := none, last := 0, fadeIn := false
    gain := if restart then e.gain.settle else e.gain
    ann := if restart then e.ann.settle else e.ann
    prot := if restart then { e.prot with gth := e.prot.gth.settle, powers := [], temps := [] } else e.prot }

/-- Accumulators, histories, bus sums, route fades and chain states clear; contexts go idle. -/
def State.clearRender (s : State) (i : Nat) (restart : Bool) : State :=
  let s := s.clearPaths
  let s := (s.objs.map (·.1)).foldl (fun s n =>
    let mode := min (s.fld (.obj n) Reg.Obj.CTRL_MOTION_MODE) 2
    let pos : V3 := ⟨signed 32 (s.fld (.obj n) Reg.Obj.POS_X), signed 32 (s.fld (.obj n) Reg.Obj.POS_Y),
      signed 32 (s.fld (.obj n) Reg.Obj.POS_Z)⟩
    let s := s.setObj n ((s.obj n).renderReset i mode pos restart)
    let s := (s.showFlags n).showCur n (s.obj n).pb1
    ((s.set (.obj n) Reg.Obj.PATHS_WANTED 0).set (.obj n) Reg.Obj.PATHS_GRANTED 0).showCtx n (s.obj n).ctx) s
  let s := { s with
    routes := s.routes.update {} (RouteEngine.renderReset · restart)
    buses := s.buses.update {} (BusEngine.renderReset · restart)
    bass := [], changes := [] }
  let s := (s.outs.map (·.1)).foldl (fun s n =>
    let was := (s.out n).corr
    (((s.setOut n ((s.out n).renderReset i restart)).showCorr n).showCorrect).fadeEnded n was) s
  let s := { s with render := { s.render with released := false, late := false, block := i / s.blockSize } }
  (s.withdraw.psRenderReset.portsRender).toggleMr.muteOutputs

/-- What else holds sample indices of the old scale starts afresh: the ramp of the curtain goes on from
where it stood, ports, chains, generators and the monitor feed stand where they were heading. -/
def State.rebase (s : State) : State :=
  let c := s.curtain
  let c := { c with from_ := c.gainAt s.lastReleased, start := 0, openAt := c.openAt.map (fun _ => 0), named := none }
  let still := fun (q : InputSel) => ({ cur := q.cur } : InputSel)
  let port := fun (p : PortState) => { p with
    lastRsi := 0, slots := p.slots.update {} GainStage.settle, routes := p.routes.update {} still }
  { s with
    curtain := c
    fab := { s.fab with resets := s.fab.resets.map (fun r => (r.1, 0)) }
    samples := []
    tdmRx := s.tdmRx.update {} port
    tdmTx := s.tdmTx.update {} port
    aesRx := s.aesRx.update {} (fun a => { a with port := port a.port, na := a.na.settle })
    aesTx := s.aesTx.update {} (fun a => { a with srcA := still a.srcA, srcB := still a.srcB })
    chains := s.chains.update {} (fun e => { e with
      since := none, marks := []
      phase := match e.phase with
        | .down _ l => .down 0 l
        | .up _ => .up 0
        | p => p })
    monitor := { s.monitor with hist := [], gain := s.monitor.gain.settle }
    ps := s.ps.update {} (fun e => { e with src := still e.src, pilotFrom := none })
    gpio := s.gpio.update {} (fun p => { p with since := p.since.map (fun _ => 0) })
    tc := {}
    snaps := { s.snaps with restore := s.snaps.restore.bind (fun r => if r.applied then none else some r) }
    twin := { s.twin with ring := [], acted := []
                          excite := s.twin.excite.map (fun e => { e with
                            stepStart := none, holdTo := none
                            holdFrom := if e.holdTo.isSome then none else e.holdFrom.map (fun _ => 0) })
                          later := s.twin.later.map (fun w => { w with at_ := 0 })
                          ownLater := s.twin.ownLater.map (fun w => (0, w.2)) }
    measure := { s.measure with
      gens := []
      campaign := s.measure.campaign.map (fun q => { q with
        holdFrom := if q.holdTo.isSome then none else q.holdFrom.map (fun _ => 0), holdTo := none })
      probe := s.measure.probe.map (fun p => { p with start := none, hist := [], badUntil := 0 }) } }

/-! Stop, start, reset -/

/-- The render stops: every target on the old scale ends (R381). A commit that applies at the boundary, by its
serial, is the exception. -/
def State.stopRender (s : State) (except : Nat) : State :=
  let s := (s.fab.commits.filter (fun c => c.pending && c.serial ≠ except)).foldl
    (fun s c => s.endCommit c updCancelled rNone 0) s
  let s := s.promptersRestart
  let s := (s.objs.map (·.1)).foldl (fun s n => (s.setObj n { (s.obj n).idle with cmds := [] }).showCtx n (s.obj n).ctx.toIdle) s
  let s := (s.measure.c2m.filter (fun q => !q.on)).foldl (fun s q => s.c2mEnd q Status.cancelled) s
  let s := (if s.time.realign then { s with time := { s.time with realign := false } }.event .mediaClk 5 else s).zeroH
  let s := (s.set .render Reg.Render.STATE 0).withdraw
  let s := { s with render := { s.render with stopping := false, resetting := false, released := false, late := false } }
  (s.restoreBoundary.muteOutputs).set .greenroom Reg.Greenroom.PWR_STATE 1

/-- A takeover from a state without a render keeps the Trapeze contexts of the snapshot (R500); what a segment has
behind it on the old index scale the spec does not say, and it starts anew on the new one. -/
def State.keepContexts (s : State) (was : Map ObjEngine) : State :=
  was.foldl (fun s (e : Nat × ObjEngine) =>
    let c := { e.2.ctx with at_ := 0, seg := e.2.ctx.seg.map (fun g => { g with s0 := 0 }) }
    let s := s.setCtx e.1 c
    s.setObj e.1 { s.obj e.1 with held := e.2.held }) s

/-- The render starts at media sample M0, the one of this strobe (R350, R381). -/
def State.startRender (s : State) : State :=
  let kept := s.objs
  let cold := s.fld .twin Reg.Twin.STATE = 0xF && s.twin.cold
  let s := s.rebase
  let s := { s with render := { s.render with starting := false, rsi := 0, m0 := s.time.m } }
  let s := (s.clearRender 0 true).streamsRestart
  let s := if cold then s.keepContexts kept else s
  let s := ((s.set .render Reg.Render.STATE 1).count .render Reg.Render.RUN_ID).set .greenroom Reg.Greenroom.PWR_STATE 0
  let s := s.set64 .mediaClk Reg.MediaClk.M0_LO Reg.MediaClk.M0_HI s.time.m
  (s.poolSize.beginRecovery).campaignReset (s.render.silentUntil * s.blockSize)

/-- CTRL.RUN is written (R381). The render does not start in a low-power state, nor without its clocks. -/
def State.runWrite (s : State) (on : Bool) : State :=
  let s := s.setBoth .render Reg.Render.CTRL_RUN (if on then 1 else 0)
  if on then
    if s.clocked then { s with render := { s.render with stopping := false } }
    else if s.lowPower || s.dead || s.green.entry.isSome then s
    else { s with render := { s.render with starting := true, silentUntil := 0, startTick := 0 } }
  else
    let s := { s with render := { s.render with starting := false, stopping := s.clocked } }
    -- A switch that waited for a restart waits no longer.
    if s.stopped then s.takeSwitch else s

def execRun (s : State) : Res := settle (s.runWrite true)
def execRenderStop (s : State) : Res := settle (s.runWrite false)

/-- CTRL.RESET is written: the render is reset at the next block boundary (R380). -/
def State.resetWrite (s : State) : State := { s with render := { s.render with resetting := s.clocked } }

def execRenderReset (s : State) : Res := settle s.resetWrite

/-- Samples that clearing the far history takes: 3.4 ms for 1,024 objects (R445). -/
def State.clearTime (s : State) : Nat := (34 * s.fs * s.nowObjects + 10239999) / 10240000

/-- A render reset at the boundary at sample `i`: the index goes on, and the render rests for two blocks and
the time that clearing the far history takes (R445). -/
def State.renderReset (s : State) (i : Nat) : State :=
  let s := (s.clearRender i false).set .render Reg.Render.STATE 2
  { s with render := { s.render with resetting := false, resetEnd := i + 2 * s.blockSize + s.clearTime } }.campaignReset
    (i + 2 * s.blockSize + s.clearTime)

/-- The reset under way ends at a block boundary, and RECOVERY begins (R236). -/
def State.resetDone (s : State) (i : Nat) : State :=
  if s.fld .render Reg.Render.STATE = 2 && s.render.resetEnd ≤ i then
    ({ s with render := { s.render with block := i / s.blockSize } }.set .render Reg.Render.STATE 1).beginRecovery
  else s

/-- The render stops and starts again on a new scale, once the reset has cleared the far history: render-rate
change (R23) and realignment (R364). Every output is silent until the second block. -/
def State.restartRender (s : State) (except : Nat) : State :=
  let s := s.stopRender except
  { s with render := { s.render with starting := true, silentUntil := 1, startTick := s.render.tick + s.clearTime } }

/-- REALIGN acts at a block boundary: the render stops, which steps device time by H, and starts again (R361, R364). -/
def State.realignBoundary (s : State) : State :=
  if s.time.realign && !s.render.stopping then s.restartRender 0 else s

end Sys2Proof.Machine
end

