-- ==== Sys2Proof/Machine/BlockReset.lean ====
section
/-! DEFINITION. BLOCK_RESET by unit, and the end of fault-hold (R48, R115, R150, R173, R205, R228, R260, R291, R316,
R347, R372, R393, R442, R460, R508, R518, R527, R545). -/

namespace Sys2Proof.Machine

open Sys2Proof

/-- The sections of a unit. -/
def sectionsOf : Blk → List Port
  | .tdm k => [.tdmRx k, .tdmTx k]
  | .aesRx k => [.aesRx k]
  | _ => []

/-- A unit leaves fault-hold; its sections unmute over their ramps (R442). -/
def State.unhold (s : State) (b : Blk) : State :=
  if s.fab.held.any (·.1 = b) then
    let s := { s with fab := { s.fab with held := s.fab.held.filter (·.1 ≠ b) } }
    let s := (sectionsOf b).foldl (fun s p =>
      let e := s.port p
      if e.phase = .locked then
        s.setPort p { e with env := ({} : GainStage).retarget s.nextSample unity (s.portRamp p) }
      else s) s
    s.showHeld
  else s

/-! What clears -/

/-- Counters and peaks of a page or record that a clearing read does not clear. -/
def counters : Blk → List Fld
  | .pan => [Reg.Pan.EVALS]
  | .path => [Reg.Path.STARVED_LAST, Reg.Path.STARVED_COUNT, Reg.Path.CLAMP_COUNT, Reg.Path.FAR_REQUESTS, Reg.Path.ACC_SAT_COUNT]
  | .bus _ => [Reg.Bus.OVER_COUNT]
  | .out _ => [Reg.Out.LIMIT_COUNT, Reg.Out.OVER_COUNT, Reg.Out.XLIM_COUNT, Reg.Out.FOLD_COUNT]
  | .correct => [Reg.Correct.SWAP_COUNT, Reg.Correct.SAT_COUNT]
  | .measure => [Reg.Measure.FRAMES_USED, Reg.Measure.FRAMES_SKIPPED]
  | .protect => [Reg.Protect.COUNT_XLIM, Reg.Protect.COUNT_FOLD, Reg.Protect.COUNT_SHUT]
  | .ps _ => [Reg.Ps.LIMIT_COUNT, Reg.Ps.LATCH_COUNT]
  | .aesTx _ => [Reg.AesTx.CS_BLOCKS]
  | .ethCls _ => (List.range 16).map Reg.EthCls.COUNT ++ [Reg.EthCls.DEFAULT_HITS]
  | .ethStat _ => (List.range 48).map Reg.EthStat.COUNTER
  | .ethGate _ => [Reg.EthGate.CYCLES]
  | .time _ => [Reg.Time.ANN_TIMEOUTS, Reg.Time.GM_CHANGES]
  | .mediaClk => [Reg.MediaClk.SWITCH_COUNT]
  | .ingress _ => [Reg.Ingress.PACKETS, Reg.Ingress.LOST, Reg.Ingress.LATE, Reg.Ingress.EARLY, Reg.Ingress.FORMAT_ERR,
      Reg.Ingress.CB_DUPS]
  | .egress _ => [Reg.Egress.PACKETS, Reg.Egress.DROPS]
  | .ringmaster => [Reg.Ringmaster.GRANTS]
  | .render => [Reg.Render.OVERRUN_COUNT, Reg.Render.EXTRA_CUT]
  | .trace => [Reg.Trace.WRAPS, Reg.Trace.DROPPED]
  | .busMatrix => (List.range 13).map Reg.BusMatrix.HOLD_COUNT
  | .prompter _ => [Reg.Prompter.SIGNAL_COUNT]
  | .twin => [Reg.Twin.DIVERGE_COUNT, Reg.Twin.REPAIR_SAMPLES, Reg.Twin.REPAIR_SHORT, Reg.Twin.TAKEOVER_COUNT]
  | .ndodom => [Reg.Ndodom.CRC_ERRORS, Reg.Ndodom.RETRIES, Reg.Ndodom.LINK_DOWNS]
  | .dramc => [Reg.Dramc.CE_COUNT, Reg.Dramc.UE_COUNT, Reg.Dramc.NRR_COUNT, Reg.Dramc.SCRUB_PASSES]
  | .health => [Reg.Health.SRAM_CE_COUNT, Reg.Health.SRAM_UE_COUNT]
  | _ => []

/-- Sticky events and COR peaks of a unit; ERR_LOG is not among them. -/
def stickies (b : Blk) : List Fld :=
  (if b.isRecord then [] else [Reg.Hdr.EVENTS]) ++ b.fields.filter (·.acc = .cor)

/-- Counters, peaks and sticky events of a unit return to their reset values. -/
def State.clearCounts (s : State) (b : Blk) : State :=
  (counters b ++ stickies b).foldl (fun s f => s.set b f f.reset) s

/-! What resets besides -/

/-- An object: its context goes idle, history and EQ states clear, and its position is held (R115). -/
def State.resetObj (s : State) (n i : Nat) : State :=
  let o := (s.obj n).blockReset
  (s.setObj n { o with
    sections := o.sections.update {} Section.clear, histFrom := i, near := [], far := [] }).showCtx n o.ctx

/-- An output: its chain, its excursion model and limiters, its correction delay lines; gains and thermal states are
kept (R205, R228, R291). -/
def State.resetOut (s : State) (n i : Nat) : State :=
  let e := s.out n
  let c := e.clear i
  (s.setOut n { c with sections := e.sections.update {} Section.clear, corr := e.corr }).corrClear n i

/-- A bus: its EQ sections (R205). -/
def State.resetBus (s : State) (n : Nat) : State :=
  let e := s.busEngine n
  { s with buses := s.buses.put {} n { e with sections := e.sections.update {} Section.clear } }

/-- A chain that is on refills (R237, R260). -/
def State.resetChain (s : State) (c : Nat) : State :=
  let e := s.chain c
  if e.phase = .off then s else (s.setChain c (e.refill e.cfg e.linear)).showChain c

/-- Every object's kept path result is dropped (R150). -/
def State.dropResults (s : State) : State :=
  let objs := s.paths.objs.update {} (fun q => { q with result := none, dirty := true })
  { s with paths := { s.paths with objs := objs } }

/-- Timestamp queues: entries, runs and counts clear (R372). -/
def State.resetTsq (s : State) : State :=
  (List.range 4).foldl (fun s p =>
    (s.setTsQueue p {}).set .tsq (Reg.Tsq.Q_OVF_COUNT p) 0) s

/-- What BLOCK_RESET of a page clears at its instant, at sample `i`: counters, peaks and sticky events, and the flags and
commands of objects (R48, R115, R545). -/
def State.resetMarks (s : State) (b : Blk) (i : Nat) : State :=
  let clear := fun (s : State) => (b :: recordsOf b).foldl State.clearCounts s
  match b with
  | .device | .update | .updateBank _ | .seat _ | .resetPage | .callSeat _ => s
  | .objPage n => (List.range 8).foldl (fun s k => s.resetFlags (8 * n + k) i) s
  | _ => clear s

/-- What it does to the engines behind the page, from sample `i` on. -/
def State.resetEngines (s : State) (b : Blk) (i : Nat) : State :=
  let s := s.unhold b
  match b with
  | .objPage n => (List.range 8).foldl (fun s k => s.resetObj (8 * n + k) i) s
  | .outPage n => (List.range 8).foldl (fun s k => s.resetOut (8 * n + k) i) s
  | .busPage n => (List.range 8).foldl (fun s k => s.resetBus (8 * n + k)) s
  | .pan => s.dropResults
  | .capture => (List.range 56).foldl (fun s c => s.resetChain c) s
  | .tdm k => (s.portReset (.tdmRx k)).portReset (.tdmTx k)
  | .aesRx k => s.portReset (.aesRx k)
  | .ethMac p => s.macReset p
  | .tsq => s.resetTsq
  | .callSeat q => s.callReset q false
  | _ => s

/-- The effect of BLOCK_RESET on a page, acting at sample `i` (R545). -/
def State.blockReset (s : State) (b : Blk) (i : Nat) : State := (s.resetMarks b i).resetEngines b i

/-! When it acts -/

/-- The pages of the render domain: they reset at the next block boundary (R48). -/
def renderDomain : Blk → Bool
  | .objPage _ | .outPage _ | .busPage _ | .routePage _ | .render | .layout | .pan | .path | .correct | .measure
  | .capture | .protect | .monitor | .ringmaster | .busMatrix | .trace | .curtain | .asrc => true
  | _ => false

/-- At the block boundary at sample `i` the queued resets of the render domain that were written since the boundary before
clear what their pages show (R48). -/
def State.resetsBoundary (s : State) (i : Nat) : State :=
  (s.fab.resets.filter (fun (r : Blk × Nat) => renderDomain r.1 && r.2 < i && i ≤ r.2 + s.blockSize)).foldl
    (fun s (r : Blk × Nat) => s.resetMarks r.1 i) s

/-- The engines behind them start afresh with the block that begins there, once it is released. -/
def State.blockResets (s : State) (i : Nat) : State :=
  let due := s.fab.resets.filter (fun (r : Blk × Nat) => renderDomain r.1 && r.2 < i)
  let s := { s with fab := { s.fab with resets := s.fab.resets.filter (fun (r : Blk × Nat) => !(renderDomain r.1 && r.2 < i)) } }
  due.foldl (fun s (r : Blk × Nat) => s.resetEngines r.1 i) s

/-- BLOCK_RESET is written on a page: it acts at a block boundary, at an edge of the slow clock, or at once. While the
render is stopped its pages reset at once. -/
def State.askReset (s : State) (b : Blk) : State :=
  if (renderDomain b && s.clocked) || Blk.hasMirror b then
    if s.fab.resets.any (·.1 = b) then s
    else { s with fab := { s.fab with resets := s.fab.resets ++ [(b, s.render.rsi)] } }
  else s.blockReset b s.render.rsi

end Sys2Proof.Machine
end

