-- ==== Sys2Proof/Machine/Release.lean ====
section
/-! DEFINITION. The block: its release and its deadline (R19, R20, R24, R25). -/

namespace Sys2Proof.Machine

open Sys2Proof

/-- Does an object render in block `b`? -/
def State.objRuns (s : State) (n b : Nat) : Bool :=
  (s.obj n).live || (s.obj n).draining.isSome || (s.blockSamples b).any (s.objActiveAt n)

/-! The deadline -/

/-- The deadline of the block released last: outputs emit, a miss counts once, ready items are withdrawn
(R20, R24, R25). The monitor feed and the packets that are due follow. -/
def State.deadline (s : State) : State :=
  if !s.render.released || s.render.late then s
  else
    let b := s.render.block
    let (s, missed) := (List.range s.model.outputs).foldl (fun (acc : State × Bool) n =>
      let e := acc.1.out n
      if acc.1.outRuns n b || e.last ≠ 0 || e.fadeIn then
        let (s, m) := acc.1.emit n b
        (s, acc.2 || m)
      else acc) (s, false)
    let s := if missed then
        ((s.set .render Reg.Render.SLACK_LAST 0).count .render Reg.Render.OVERRUN_COUNT).event .render 0
      else s
    let s := s.set .render Reg.Render.SLACK_MIN
      (min (s.fld .render Reg.Render.SLACK_MIN) (s.fld .render Reg.Render.SLACK_LAST))
    let s := { s.withdraw with render := { s.render with late := true } }
    ((s.monitorFeed b).egDue).keepCrc b

/-! Inputs that a pair shares (R37, R491) -/

/-- Samples of some channels of a block. -/
def State.samplesOf (s : State) (b : Nat) (srcs : List Source) : List InSample :=
  srcs.flatMap (fun src => (s.blockSamples b).map (fun i =>
    ({ type := src.type, unit := src.unit, chan := src.chan, at_ := i, v := s.sample src i } : InSample)))

/-- Enabled slots of a TDM receive section; channels of an AES3 receiver. -/
def State.tdmSources (s : State) (k : Nat) : List Source :=
  ((List.range 64).filter (fun c => (s.portMask (.tdmRx k)).testBit c)).map (fun c => { type := 2, unit := k, chan := c })

def State.aesSources (s : State) (k : Nat) : List Source :=
  if s.portEn (.aesRx k) then [{ type := 3, unit := k, chan := 0 }, { type := 3, unit := k, chan := 1 }] else []

def State.chainSources (s : State) : List Source :=
  ((List.range 56).filter s.renderRate).map (fun c => { type := 6, unit := c })

/-- Every input the journal keeps (R37). -/
def State.journalSources (s : State) : List Source :=
  ((List.range 256).filter (fun n => s.bit (.ingress n) Reg.Ingress.CTRL_ENABLE)).flatMap (fun n =>
    (List.range (s.fld (.ingress n) Reg.Ingress.FMT_CHANNELS)).map (fun c => ({ type := 1, unit := n, chan := c } : Source))) ++
  ((List.range s.model.tdms).filter (fun k => s.portEn (.tdmRx k))).flatMap s.tdmSources ++
  (List.range s.model.aes).flatMap s.aesSources ++ s.chainSources

/-- The inputs for which the understudy uses the principal's samples (R491). -/
def State.mirroredSources (s : State) : List Source :=
  ((List.range s.model.tdms).filter (fun k => s.portEn (.tdmRx k) &&
    (s.portAsrc (.tdmRx k) || (s.fld .twin Reg.Twin.MIRROR_TDM).testBit k))).flatMap s.tdmSources ++
  ((List.range s.model.aes).filter (fun k => s.portAsrc (.aesRx k))).flatMap s.aesSources ++
  s.chainSources.filter (fun src => s.chainUsed src.unit)

/-- Block `b` as the journal keeps it (R37). -/
def State.journalBlock (s : State) (b : Nat) : JournalBlock :=
  let lacks := fun n => (2 ^ s.blockSize - 1) ^^^ s.heldBits n b
  let streams := (List.range 256).filter (fun n => s.bit (.ingress n) Reg.Ingress.CTRL_ENABLE && lacks n ≠ 0)
  let here := s.fab.commits.filter (fun c => c.prepared && s.blockStart b ≤ c.applyAt && c.applyAt < s.blockStart (b + 1))
  { block := b, rsi := s.blockStart b, samples := s.samplesOf b s.journalSources
    missing := streams.map (fun n => (n, lacks n))
    commits := here.map (fun c => { serial := c.serial, seat := c.seat, mask := c.mask, applyAt := c.applyAt, vals := c.vals })
    writes := s.twin.acted }

/-- A LOCKSTEP unit that is attached keeps the last 2 s of its inputs (R37, R487). -/
def State.keepJournal (s : State) (b : Nat) : State :=
  if s.twin.mode = 2 && s.attached then
    let l := s.twin.ring ++ [s.journalBlock b]
    { s with twin := { s.twin with ring := l.drop (l.length - 2 * s.fs / s.blockSize) } }
  else { s with twin := { s.twin with ring := [] } }

/-- A LOCKSTEP principal sends its mirrored inputs, and the journal while the understudy needs it. -/
def State.shareInputs (s : State) (b : Nat) : State :=
  if s.twin.mode ≠ 2 then s
  else
    let s := if s.lockPri then s.toPeer (.mirrored (s.samplesOf b s.mirroredSources)) else s
    if s.tw = Tw.joinPri || (s.tw = Tw.lockPri && s.twin.peerState = Tw.resync) then
      s.toPeer (.journal (s.journalBlock b))
    else s

/-! The release -/

/-- ASRC channels in use and their load, as a share of the 1,024 that the engines carry; the spec gives the
load of a channel no figure, so the percentage is an open value (R297, R315). -/
def State.asrcLoad (s : State) : State :=
  let tdm := fun (p : Port) => if s.portEn p && s.portAsrc p then
    ((List.range 64).filter (fun c => (s.portMask p).testBit c)).length else 0
  let used := (List.range s.model.tdms).foldl (fun a k => a + tdm (.tdmRx k) + tdm (.tdmTx k)) 0 +
    2 * ((List.range s.model.aes).filter (fun k => s.portEn (.aesRx k))).length
  let (v, s) := s.fresh
  let l := if used = 0 then 0 else v % 101
  ((s.set .asrc Reg.Asrc.CH_USED used).set .asrc Reg.Asrc.LOAD_LAST l).peak .asrc Reg.Asrc.LOAD_PEAK l

/-- A load percentage of the block that ends, with its peak: the busy share of DRAM (R518) and of the twin link are
measurements the spec gives no rule for. -/
def State.measuredLoad (s : State) (b : Blk) (last peak : Fld) : State :=
  let (v, s) := s.fresh
  (s.set b last (v % 101)).peak b peak (v % 101)

/-- The load of an engine group of R379 as another page shows it: that of the pan engines (R128), and that of the
convolution engines (R215). -/
def State.groupLoad (s : State) (g : Nat) (b : Blk) (last peak : Fld) : State :=
  let v := min 100 (s.fld .ringmaster (Reg.Ringmaster.LOAD_LAST g))
  (s.set b last v).peak b peak v

def State.measuredLoads (s : State) : State :=
  let s := (s.groupLoad 1 .pan Reg.Pan.LOAD_LAST Reg.Pan.LOAD_PEAK).groupLoad 4 .correct Reg.Correct.LOAD_LAST Reg.Correct.LOAD_PEAK
  let s := s.measuredLoad .dramc Reg.Dramc.BW_LAST Reg.Dramc.BW_PEAK
  if s.bit .ndodom Reg.Ndodom.STATUS_LINK then s.measuredLoad .ndodom Reg.Ndodom.LOAD_LAST Reg.Ndodom.LOAD_PEAK
  else s.set .ndodom Reg.Ndodom.LOAD_LAST 0

/-- Changes of active values that no job can still look back to are forgotten. -/
def State.forget (s : State) (b : Nat) : State :=
  { s with changes := s.changes.filter (fun c => s.blockStart b < c.sample + 2 * s.blockSize) }

/-- The release of block `b`, at its end (R19): the deadline of the block before, the inputs, and the work
that is fixed at a release. -/
def State.release (s : State) (b : Nat) : State :=
  let i := s.blockStart (b + 1)
  let s := s.deadline.blockResets (s.blockStart b)
  let s := if s.render.released && 0 < b then (s.pathReport.passRoutes (b - 1)).probeBlock (b - 1) else s
  let s := (s.freezeShip.streamFill b).genBlock b
  let s := (s.shareInputs b).keepJournal b
  let s := ((List.range s.model.objects).filter (fun n => s.objRuns n b)).foldl (fun s n => s.objInput n b) s
  let s := ((s.chainsBoundary i).monitorHead b).c2mBlock b
  let s := ((s.measureBlock b).campaignCurtain).convert b
  let s := s.allocate b
  let s := { s with paths := { s.paths with acc := [], busAcc := [] }
                    bass := s.bass.update {} (fun q => { q with sum := [] }) }
  let s := ((s.thermals_ b).curtainBlock b).loads
  let s := s.asrcLoad.measuredLoads
  let s := { s with render := { s.render with block := b, released := true, late := false } }
  (((s.leadEvaluate (s.blockStart b)).firstJobs b).forget b).dispatch

end Sys2Proof.Machine
end

