-- ==== Sys2Proof/Machine/Offline.lean ====
section
/-! DEFINITION. OFFLINE_RENDER (R409). -/

namespace Sys2Proof.Machine

open Sys2Proof

/-- Objects and outputs that the command names: first and count. -/
def Cmd.offObjs (c : Cmd) : Nat × Nat := (c.n 1 % 2 ^ 11, c.n 1 / 2 ^ 16 % 2 ^ 11)
def Cmd.offOuts (c : Cmd) : Nat × Nat := (c.n 3 % 2 ^ 10, c.n 3 / 2 ^ 16 % 2 ^ 10)

/-- The image it names; none with id 0, the active configuration. -/
def State.offImage (s : State) (c : Cmd) : Option Image :=
  (s.snaps.slot0.toList ++ s.snaps.slot1.toList).find? (·.id = c.n 0)

/-- What is wrong with the parameters. -/
def State.offFault (s : State) (c : Cmd) : Option Nat :=
  let (o0, on) := c.offObjs
  let (p0, pn) := c.offOuts
  let n := c.n 2
  let reserved := fun (k lo : Nat) => c.n k ≠ c.n k % 2 ^ lo + c.n k / 2 ^ 16 % 2 ^ lo * 2 ^ 16
  if reserved 1 11 ∨ reserved 3 10 ∨ n = 0 ∨ 2 ^ 24 < n ∨ on = 0 ∨ pn = 0 then some Status.badParam
  else if s.model.objects < o0 + on ∨ s.model.outputs < p0 + pn then some Status.absentUnit
  else if s.nowObjects < o0 + on ∨ s.nowOutputs < p0 + pn then some Status.noCapacity
  else if (List.range on).any (fun k => !s.owns c.seat (.obj (o0 + k))) ||
      (List.range pn).any (fun k => !s.owns c.seat (.out (p0 + k))) then some Status.notOwner
  else if c.n 0 ≠ 0 ∧ (s.offImage c).isNone then some Status.badParam
  else
    match s.sourceFault c 4, s.dstFault c 8 with
    | some e, _ => some e
    | none, some e => some e
    | none, none => if c.n 7 ≠ 4 * on * n ∨ c.n 11 < 4 * pn * n then some Status.badParam else none

def execOfflineRender (seat tag : Nat) (s : State) : Res :=
  settle (s.command seat tag 0x48 (fun c s =>
    match s.offFault c with
    | some e => s.finish c.seat c.tag e
    | none =>
      match s.takePool c.seat c.tag (c.n 7 + 4 * c.offOuts.2 * c.n 2) with
      | none => s.finish c.seat c.tag Status.noCapacity
      | some s => s.begin_ c))

/-- A copy of the machine that holds the configuration and nothing of the live render: every engine stands
where the configuration puts it, and each named object takes its input from a channel of its own. -/
def State.offMachine (s : State) (c : Cmd) : State :=
  let (o0, on) := c.offObjs
  let base := match s.offImage c with
    | some im => s.restoreApply { image := im, seat := 8, tag := 0, serial := 0, at_ := 0 }
    | none => s
  let base := { base with
    changes := [], samples := [], curtain := {}, sched := {}, measure := {}, twin := {}, green := {}
    snaps := { base.snaps with restore := none }, paths := {}, bass := []
    render := { released := true } }
  let base := base.set .curtain Reg.Curtain.CTRL_ANNOUNCE 0
  let objs := (List.range on).foldl (fun (m : Map ObjEngine) k =>
    let n := o0 + k
    let o := base.obj n
    let o : ObjEngine := {
      live := base.objActive n, eqSet := o.eqSet, mode := o.mode, direct := o.direct, offset := o.offset
      held := o.held, pb := o.pb1, pb1 := o.pb1
      sections := o.sections.update {} Section.clear
      input := { cur := { type := 1, unit := k / 64, chan := k % 64 } }
      gain := GainStage.at0 (base.bit (.obj n) Reg.Obj.CTRL_INVERT) (base.objTargetAt n 0) }
    m.put {} n o) ([] : Map ObjEngine)
  let base := (List.range on).foldl (fun (s : State) k =>
    let b := Blk.obj (o0 + k)
    ((s.set b Reg.Obj.SOURCE_TYPE 1).set b Reg.Obj.SOURCE_UNIT (k / 64)).set b Reg.Obj.SOURCE_CHANNEL (k % 64)) base
  { base with
    objs := objs
    routes := (List.range 2048).foldl (fun (m : Map RouteEngine) r =>
      let (act, src, toBus, dest) := base.routeAt r 0
      m.put {} r (if act then { on := true, src := src, toBus := toBus, dest := dest
                                gain := GainStage.at0 (base.bit (.route r) Reg.Route.CTRL_INVERT) (base.fld (.route r) Reg.Route.GAIN) }
                  else {})) []
    buses := (List.range base.model.buses).foldl (fun (m : Map BusEngine) n =>
      let b := Blk.bus n
      let act := base.busActive n
      let g : Int := if base.bit b Reg.Bus.CTRL_MUTE then 0 else base.fld b Reg.Bus.GAIN
      m.put {} n (if act then {
          live := true, gain := GainStage.at0 (base.bit b Reg.Bus.CTRL_INVERT) g
          sections := (base.busEngine n).sections.update {} Section.clear
          direct := if base.bit b Reg.Bus.DIRECT_EN then {
              on := true, src := { type := 4, unit := n }, dest := base.fld b Reg.Bus.DIRECT_OUT
              gain := GainStage.at0 false (base.fld b Reg.Bus.DIRECT_GAIN) } else {} }
        else {})) []
    outs := (List.range base.model.outputs).foldl (fun (m : Map OutEngine) n =>
      let e := base.out n
      let b := Blk.out n
      let g : Int := if base.bit b Reg.Out.CTRL_MUTE then 0 else base.fld b Reg.Out.GAIN
      let q := { (e.renderReset 0 true) with
        live := base.outActive n, gain := GainStage.at0 (base.bit b Reg.Out.CTRL_INVERT) g, ann := {}, annOn := false }
      m.put {} n q) [] }

/-- Correction segments of the banks in use take their groups in time: the answer is exact whatever the order. -/
def OutEngine.segmentsDone (e : OutEngine) (s0 : Nat) : OutEngine :=
  let seg := (List.range 32).foldl (fun (m : Map Nat) k => m.put 0 k (s0 + 1)) e.corr.seg
  { e with corr := { e.corr with seg := seg } }

/-- One block of the copy: the stages in their order (R14). -/
def State.offBlock (s : State) (b : Nat) : State :=
  let s := { s with
    render := { s.render with block := b, released := true, late := false }
    paths := { s.paths with acc := [], busAcc := [] }
    bass := s.bass.update {} (fun q => { q with sum := [] }) }
  let objs := s.objs.map (·.1)
  let s := objs.foldl (fun s n => s.objInput n b) s
  let s := s.allocate b
  let s := objs.foldl (fun s n =>
    let s := (s.panJob n b).issueNewFetch n b
    (List.range (s.blockSize / s.sliceSize)).foldl (fun s k =>
      let s := if k = 0 then s else s.issueFetch n b k
      (s.fetchedAll n).pathJob n b k) s) s
  let s := (s.routeDests b).foldl (fun s d => s.routeJob d.1 d.2 b) s
  let s := ((List.range s.model.buses).filter (fun n => s.busRuns n b)).foldl (fun s n => s.busJob n b) s
  let s := s.passRoutes b
  let outs := (List.range s.model.outputs).filter (fun n => s.outRuns n b)
  let subs := outs.filter (fun n => s.fld (.out n) Reg.Out.BM_ROLE = 2)
  let s := (outs.filter (fun n => !subs.contains n) ++ subs).foldl (fun s n => s.shapePre n b) s
  outs.foldl (fun s n =>
    let e := s.out n
    let s := s.setOut n ({ e with corr := { e.corr with head := b + 1 } }.segmentsDone (s.blockStart b))
    s.shapePost n b) s

/-- The samples of block `b` of the input file, each object's on its own channel. -/
def State.offInput (s : State) (c : Cmd) (b : Nat) : State :=
  let on := c.offObjs.2
  (s.blockSamples b).foldl (fun s i =>
    if c.n 2 ≤ i then s
    else (List.range on).foldl (fun s k =>
      s.putSample { type := 1, unit := k / 64, chan := k % 64 } i (signed 32 (leAt c.bytes (4 * (on * i + k)) 4))) s) s

/-- The whole output, sample-major, as Q1.31 words. -/
def State.offRender (s : State) (c : Cmd) : List Word :=
  let (p0, pn) := c.offOuts
  let m := s.offMachine c
  let blocks := List.range ((c.n 2 + m.blockSize - 1) / m.blockSize)
  let (_, words) := blocks.foldl (fun (acc : State × List Word) b =>
    let m := (acc.1.offInput c b).offBlock b
    let ws := ((m.blockSamples b).filter (· < c.n 2)).flatMap (fun i =>
      (List.range pn).map (fun k =>
        let e := m.out (p0 + k)
        BitVec.ofInt 32 (if e.postDone = b + 1 then Map.get 0 (i - m.blockStart b) e.egress else 0)))
    (m, acc.2 ++ ws)) (m, [])
  words

/-- One step: FETCH, a RENDER step per 1,024 samples, FINISH, where the answer is written. -/
def State.stepOffline (s : State) (c : Cmd) (host : List Byte) : State :=
  if c.steps = 0 then
    match s.sourceBytes c 4 host with
    | some bs => ((s.setCmd { c with bytes := bs }).accept c.seat c.tag).stepped c.seat c.tag
    | none => s
  else if c.steps < 1 + (c.n 2 + 1023) / 1024 then s.stepped c.seat c.tag
  else
    match s.writeHeld c 8 ((s.offRender c).flatMap bytesOf) with
    | some (_, s) => s.finish c.seat c.tag Status.ok (c.n 2)
    | none => s.finish c.seat c.tag Status.noCapacity

end Sys2Proof.Machine
end

