-- ==== Sys2Proof/Machine/LongOps.lean ====
section
/-! DEFINITION. Long operations: their steps, and the commands that suspend, resume, cancel and query
them (R410 to R413). -/

namespace Sys2Proof.Machine

open Sys2Proof

/-- Bytes a step of a command of the default configuration reads from flash (R543); a host's bytes come
with the step. -/
def State.stepBytes (s : State) (c : Cmd) (host : List Byte) : List Byte :=
  if c.tag = bootTag then s.flashAt (c.n 14) (c.n 15) else host

/-- One step of an operation, as the chapter that gives it says. -/
def State.runStep (s : State) (c : Cmd) (host : List Byte) : State :=
  if c.opcode = 0x10 then s.stepLayoutLoad c host
  else if c.opcode = 0x20 then s.stepFilterLoad c host
  else if c.opcode = 0x28 then s.stepHrirLoad c host
  else if c.opcode = 0x30 then s.stepCampaign c host
  else if c.opcode = 0x31 then s.stepResume c
  else if c.opcode = 0x32 then s.stepProbe c host
  else if c.opcode = 0x40 then s.stepSnapshot c
  else if c.opcode = 0x41 then s.stepRestore c host
  else if c.opcode = 0x48 then s.stepOffline c host
  else if c.opcode = 0x50 then s.stepTrace c
  else s.stepFwUpdate c host

/-- What an operation gives back, or keeps under KEEP_PARTIAL, when it is given up (R220, R249, R412). -/
def State.giveUp (s : State) (c : Cmd) (keep : Bool) : State :=
  if !c.started then s
  else if c.opcode = 0x20 then s.cancelFilterLoad c keep
  else if c.opcode = 0x30 ∨ c.opcode = 0x31 then s.cancelCampaign c keep
  else if c.opcode = 0x32 then s.cancelProbe c keep
  else if c.opcode = 0x40 then s.cancelSnapshot
  else if c.opcode = 0x41 then s.cancelRestore
  else if c.opcode = 0x50 then s.cancelTrace c keep
  else if c.opcode = 0x68 then s.cancelFwUpdate c
  else s

/-- An operation is cancelled: its final completion carries CANCELLED. -/
def State.cancelOp (s : State) (c : Cmd) (keep : Bool) : State :=
  (s.giveUp c (keep || c.keep)).finish c.seat c.tag Status.cancelled

/-- After a step: an error in its memory ends it with DEGRADED (R519), a cancellation asked for with
CANCELLED. -/
def State.stepEnd (s : State) (seat tag before : Nat) : State :=
  match s.cmdOf seat tag with
  | none => s
  | some c =>
    if c.final ∨ c.steps = before then s
    else if s.mon.degraded.contains (seat, tag) then
      let s := { s with mon := { s.mon with degraded := s.mon.degraded.filter (· ≠ (seat, tag)) } }
      (s.giveUp c c.keep).finish seat tag Status.degraded
    else match c.cancel with
      | some keep => s.cancelOp c keep
      | none => s

/-- A layout, filter or HRIR file goes to the peer once it has passed CHECK (R488); `c` is the load before its
step. -/
def State.forwardChecked (s : State) (c : Cmd) : State :=
  if !c.accepted && (c.opcode = 0x10 || c.opcode = 0x20 || c.opcode = 0x28) then
    match s.cmdOf c.seat c.tag with
    | some d => if d.accepted then s.forwardFile d d.bytes else s
    | none => s
  else s

/-- A step of a long operation completes (R410). The first one makes it RUNNING; a suspended operation
takes no step. `data` is what the step read from host memory. -/
def execOpStep (seat tag : Nat) (data : List Byte) (s : State) : Res :=
  settle (match s.cmdOf seat tag with
  | none => s
  | some c =>
    if isLong c.opcode ∧ c.started ∧ !c.final ∧ c.state ≠ .suspended ∧ s.serving .opStep (0x3000 + c.slot) then
      let c := { c with state := .running }
      let s := s.setCmd c
      let s := (s.runStep c (s.stepBytes c data)).forwardChecked c
      s.stepEnd seat tag c.steps
    else s)

/-! Controlling commands (R412) -/

/-- The target a controlling command names: seat and tag; none where it may not name that
seat or sets a bit that means nothing. -/
def Cmd.target (c : Cmd) : Option (Nat × Nat) :=
  let t := c.n 0
  if t / 2 ^ 26 ≠ 0 ∨ t / 2 ^ 20 % 16 ≠ 0 ∨ (c.opcode ≠ 0x73 ∧ t / 2 ^ 24 ≠ 0) then none
  else if t.testBit 19 then (if c.seat = 0 then some (t / 65536 % 8, t % 65536) else none)
  else some (c.seat, t % 65536)

/-- The command in flight that a controlling command names. It is in flight until its final completion is
written (R400), so also while that completion waits. -/
def State.targetOf (s : State) (c : Cmd) : Option Cmd :=
  match c.target with
  | none => none
  | some (q, t) => s.cmdOf q t

/-- Why a controlling command finds no target: OTHER from another seat than SEAT 0 is NOT_OWNER (R407, R412),
anything else BAD_PARAM. -/
def Cmd.noTarget (c : Cmd) : Nat :=
  if (c.n 0).testBit 19 ∧ c.seat ≠ 0 then Status.notOwner else Status.badParam

/-- A controlling command on a long operation in flight; otherwise it completes with `Cmd.noTarget`. An operation
that has ended takes no more: the command completes at once (DEDUCED, log entry 19). -/
def State.control (s : State) (seat tag opcode : Nat) (f : Cmd → Cmd → State → State) : State :=
  s.command seat tag opcode (fun c s =>
    match s.targetOf c with
    | none => s.finish c.seat c.tag c.noTarget
    | some t =>
      if isLong t.opcode then (if t.final then s.finish c.seat c.tag Status.ok else f c t s)
      else s.finish c.seat c.tag Status.badParam)

/-- An operation that has not run yet, or waits, is suspended at once (R412). -/
def State.suspendNow (s : State) (t : Cmd) : State :=
  (s.setCmd { t with state := .suspended, suspend := false }).post t Status.suspended 0 0 true

def execOpSuspend (seat tag : Nat) (s : State) : Res :=
  settle (s.control seat tag 0x70 (fun c t s =>
    match t.state with
    | .queued => (s.suspendNow t).finish c.seat c.tag Status.ok
    | .running => s.setCmd { t with suspend := true, waiters := t.waiters ++ [(c.seat, c.tag)] }
    | .suspended => s.finish c.seat c.tag Status.ok))

/-- A suspended operation goes on: RUNNING from its next step, or QUEUED if it never ran. -/
def State.resumeOp (s : State) (t : Cmd) : State :=
  if t.state = .suspended then
    let s := s.setCmd { t with state := if t.steps = 0 then .queued else .running, upAt := s.render.tick }
    if t.started then
      (s.campaignResumed t.seat t.tag).pushReady 2 { kind := .opStep, flow := 0x3000 + t.slot, block := s.render.block }
    else s
  else s

def execOpResume (seat tag : Nat) (s : State) : Res :=
  settle (s.control seat tag 0x71 (fun c t s => (s.resumeOp t).finish c.seat c.tag Status.ok))

/-- OP_CANCEL: at once on an operation that waits, else at its next step boundary. It also ends a capture
to memory (R244). -/
def execOpCancel (seat tag : Nat) (s : State) : Res :=
  settle (s.command seat tag 0x72 (fun c s =>
    match s.targetOf c with
    | none => s.finish c.seat c.tag c.noTarget
    | some t =>
      if (isLong t.opcode ∨ t.opcode = 0x38) ∧ t.final then s.finish c.seat c.tag Status.ok
      else if isLong t.opcode ∨ t.opcode = 0x38 then
        let t := { t with cancel := some c.keep, waiters := t.waiters ++ [(c.seat, c.tag)] }
        let s := s.setCmd t
        if isLong t.opcode ∧ t.state ≠ .running then s.cancelOp t c.keep else s
      else s.finish c.seat c.tag Status.badParam))

/-! OP_QUERY (R413) -/

def Cmd.queryMode (c : Cmd) : Nat := c.n 0 / 2 ^ 24 % 4

def stateCode : OpState → Nat
  | .queued => 0
  | .running => 1
  | .suspended => 2

/-- MODE STATE: the state, opcode and steps of any command in flight. A command that takes no steps is RUNNING
once it has started. -/
def State.queryState (s : State) (c : Cmd) : State :=
  match s.targetOf c with
  | none => s.finish c.seat c.tag c.noTarget
  | some t =>
    s.finish c.seat c.tag Status.ok
      (stateCode (if t.started && !isLong t.opcode then .running else t.state) + 256 * t.opcode + (if t.accepted then 65536 else 0)) t.steps

/-- Run an OP_QUERY in one of its modes. MODE 3 is reserved (R401). -/
def State.query (s : State) (seat tag mode : Nat) (f : Cmd → State → State) : State :=
  match s.cmdOf seat tag with
  | none => s
  | some c =>
    if c.queryMode = mode then s.command seat tag 0x73 f
    else s

def execOpQueryState (seat tag : Nat) (s : State) : Res :=
  settle (s.query seat tag 0 (fun c s => s.queryState c))

/-- Who may read, name or release a buffer (R406). -/
def State.bufferFault (s : State) (seat h : Nat) : Option Nat :=
  match s.buffer h with
  | none => some Status.badParam
  | some b => if seat ≠ 0 ∧ b.seat ≠ seat then some Status.notOwner else none

/-- MODE COPY: bytes of a buffer go to host memory. A word with an uncorrectable error ends it with
DEGRADED and the byte offset (R519). -/
def execOpQueryCopy (seat tag : Nat) (s : State) : Res :=
  settle (s.query seat tag 1 (fun c s =>
    if s.isStagedoor c.seat then s.finish c.seat c.tag Status.badParam
    else match s.bufferFault c.seat (c.n 1), s.buffer (c.n 1) with
      | none, some b =>
        if b.size < c.n 2 + c.n 3 then s.finish c.seat c.tag Status.badParam
        else if s.mon.degraded.contains (c.seat, c.tag) then
          let (off, s) := s.fresh
          let off := c.n 2 + 4 * (off % max 1 (c.n 3 / 4))
          let s := { s with mon := { s.mon with degraded := s.mon.degraded.filter (· ≠ (c.seat, c.tag)) } }
          s.finish c.seat c.tag Status.degraded 0 off
        else
          (s.hostWriteBytes c.seat (c.n 4 + 2 ^ 32 * c.n 5) (b.read (c.n 2) (c.n 3))).finish c.seat c.tag Status.ok (c.n 3)
      | some e, _ => s.finish c.seat c.tag e
      | none, none => s))

/-- Where a long operation has its source and destination descriptors (R407). -/
def Cmd.descriptors (c : Cmd) : List Nat :=
  if [0x20, 0x30, 0x32, 0x68].contains c.opcode then [0]
  else if c.opcode = 0x48 then [4, 8]
  else if c.opcode = 0x41 then (if c.n 0 = 0 then [1] else [])
  else if c.opcode = 0x40 then (if c.n 0 = 1 then [1] else [])
  else if c.opcode = 0x10 ∨ c.opcode = 0x28 then [1]
  else []

/-- Does an operation in flight or a HELD campaign use the buffer (R413)? -/
def State.bufferUsed (s : State) (h : Nat) : Bool :=
  (s.measure.campaign.any (fun q => q.buffer = h && q.phase ≠ .ended)) ||
  (s.measure.probe.any (·.buffer = h)) || (s.measure.c2m.any (·.handle = h)) ||
  (s.sched.trace.any (·.handle = h)) ||
  s.seats.any (fun q => q.2.cmds.any (fun d => isLong d.opcode && d.started && !d.final && d.descriptors.any (fun k =>
    d.n k % 4 = 1 && d.n (k + 1) = h)))

def execOpQueryRelease (seat tag : Nat) (s : State) : Res :=
  settle (s.query seat tag 2 (fun c s =>
    match s.bufferFault c.seat (c.n 1) with
    | some e => s.finish c.seat c.tag e
    | none =>
      if s.bufferUsed (c.n 1) then s.finish c.seat c.tag Status.busy
      else (s.freeBuffer (c.n 1)).finish c.seat c.tag Status.ok))

end Sys2Proof.Machine
end

