-- ==== Sys2Proof/Machine/Seats.lean ====
section
/-! DEFINITION. Seats: queues, fetching, completions, the short commands, ownership, host loss and seat
reset (R394 to R405, R414 to R417). -/

namespace Sys2Proof.Machine

open Sys2Proof

/-! Attachments (R394, R395) -/

def State.bindKind (s : State) (seat : Nat) : Nat := s.fld (.seat seat) Reg.Seat.BIND_KIND
def State.bindIndex (s : State) (seat : Nat) : Nat := s.fld (.seat seat) Reg.Seat.BIND_INDEX

/-- Is the PCIe link (1: A, 2: B) up? -/
def State.linkUp (s : State) (link : Nat) : Bool := if link = 1 then s.hosts.upA else s.hosts.upB

def State.hostLost (s : State) (seat : Nat) : Bool := s.bit (.seat seat) Reg.Seat.STATUS_HOST_LOST

/-- Is the attachment up: the PCIe link, or a Stagedoor session whose keepalive is current (R397)? -/
def State.isAttached (s : State) (seat : Nat) : Bool :=
  match s.bindKind seat with
  | 0 => false
  | 3 => (s.seat seat).sd.session ≠ 0 && !s.hostLost seat
  | k => s.linkUp k

/-- STATUS.ATTACHED follows. -/
def State.showAttached (s : State) (seat : Nat) : State :=
  s.setBit (.seat seat) Reg.Seat.STATUS_ATTACHED (s.isAttached seat)

/-! Rings (R398, R399, R402) -/

/-- The rest of a queue's enabling, its SIZE and BASE being written: pointers to zero, PHASE to 1; or
BAD_CONFIG. The base of a Stagedoor seat is ignored (R424). -/
def State.ringEnable (s : State) (seat i : Nat) (cq : Bool) : State :=
  let b := Blk.seat seat
  let size := s.fld b (if cq then Reg.Seat.CQ_SIZE i else Reg.Seat.SQ_SIZE i)
  let base := s.fld b (if cq then Reg.Seat.CQ_BASE_LO i else Reg.Seat.SQ_BASE_LO i)
  let good := 2 ≤ size && size ≤ 256 && (base % 4096 = 0 || s.isStagedoor seat)
  if cq then
    if good then
      (((s.setBoth b (Reg.Seat.CQ_HEAD i) 0).set b (Reg.Seat.CQ_TAIL i) 0).set b (Reg.Seat.CQ_PHASE i) 1).setBoth b
        (Reg.Seat.CQ_EN i) 1
    else s.setBoth b (Reg.Seat.CQ_EN i) 0
  else if good then
    (((s.setBoth b (Reg.Seat.SQ_TAIL i) 0).set b (Reg.Seat.SQ_HEAD i) 0).set b (Reg.Seat.SQ_ERR i) 0).setBoth b
      (Reg.Seat.SQ_EN i) 1
  else (s.set b (Reg.Seat.SQ_ERR i) 3).setBoth b (Reg.Seat.SQ_EN i) 0

/-- The completions of the commands that a warm reset aborted are made when CQ 0 is first enabled; what
their CONTEXT words hold is open (R417). -/
def State.abortedPosts (s : State) (seat : Nat) : State :=
  let q := s.seat seat
  let s := s.setSeat seat { q with aborted := [] }
  q.aborted.foldl (fun s e =>
    let (v, s) := s.fresh
    let q := s.seat seat
    s.setSeat seat { q with done := q.done ++ [({
      cq := 0, sq := e.2, tag := e.1, context := BitVec.ofNat 32 v, status := Status.resetAborted } : Completion)] }) s

/-- A write of the EN bit of a queue (R398). -/
def State.ringWrite (s : State) (seat i : Nat) (cq on : Bool) : State :=
  let b := Blk.seat seat
  let en := if cq then Reg.Seat.CQ_EN i else Reg.Seat.SQ_EN i
  if on then
    if s.bit b en then s
    else
      let s := s.ringEnable seat i cq
      if cq && i = 0 && s.bit b en then s.abortedPosts seat else s
  else s.setBoth b en 0

def execSqEnable (seat i : Nat) (cq on : Bool) (s : State) : Res :=
  settle (if seat < s.model.seats && i < 4 then s.ringWrite seat i cq on else s)

/-- A ring stops: a doorbell out of range, or a bus error (R399). A completion queue has no ERR. -/
def State.ringStop (s : State) (seat i : Nat) (cq : Bool) (err : Nat) : State :=
  let b := Blk.seat seat
  let s := if cq then s.setBoth b (Reg.Seat.CQ_EN i) 0
    else (s.setBoth b (Reg.Seat.SQ_EN i) 0).set b (Reg.Seat.SQ_ERR i) err
  s.event b 0

/-- A TAIL doorbell (R399). -/
def State.sqTail (s : State) (seat i v : Nat) : State :=
  let b := Blk.seat seat
  let s := s.setBoth b (Reg.Seat.SQ_TAIL i) v
  if s.bit b (Reg.Seat.SQ_EN i) && s.fld b (Reg.Seat.SQ_SIZE i) ≤ v % 256 then s.ringStop seat i false 1 else s

def execSqTail (seat i v : Nat) (s : State) : Res :=
  settle (if seat < s.model.seats && i < 4 then s.sqTail seat i v else s)

/-- A HEAD doorbell frees entries of a completion queue (R402). -/
def State.cqHead (s : State) (seat i v : Nat) : State := s.setBoth (.seat seat) (Reg.Seat.CQ_HEAD i) v

def execCqHead (seat i v : Nat) (s : State) : Res :=
  settle (if seat < s.model.seats && i < 4 then s.cqHead seat i v else s)

/-! Fetching (R399 to R401, R404) -/

/-- Opcodes with the flags each has (R407). -/
def opcodes : List (Nat × Nat) :=
  [(0x01, 0), (0x02, 0), (0x03, 0), (0x10, 0), (0x11, 1), (0x18, 3), (0x20, 0), (0x21, 0), (0x22, 0), (0x28, 0),
   (0x30, 0), (0x31, 1), (0x32, 0), (0x33, 0), (0x38, 3), (0x40, 1), (0x41, 0), (0x48, 0), (0x50, 1), (0x51, 0)] ++
  [(0x58, 1), (0x59, 0), (0x60, 0), (0x61, 3), (0x68, 1), (0x70, 0), (0x71, 0), (0x72, 0), (0x73, 0), (0x78, 0)]

/-- Is the entry well formed: a known opcode, no reserved flag, a known mode of OP_QUERY (R401)? -/
def Cmd.wellFormed (c : Cmd) : Bool :=
  match opcodes.find? (·.1 = c.opcode) with
  | none => false
  | some (_, flags) =>
    (c.word0.toNat / 2 ^ 10 % 64 ||| flags) = flags && (c.opcode ≠ 0x73 || c.queryMode < 3)

/-- What a LOCKSTEP understudy accepts (R404). -/
def Cmd.forUnderstudy (c : Cmd) : Bool :=
  c.opcode = 0x01 || c.opcode = 0x02 || c.opcode = 0x03 || c.opcode = 0x78 || (c.opcode = 0x73 && c.queryMode < 2)

/-- Has the submission queue an entry to fetch? -/
def State.sqReady (s : State) (seat i : Nat) : Bool :=
  let b := Blk.seat seat
  s.bit b (Reg.Seat.SQ_EN i) && s.fld b (Reg.Seat.SQ_HEAD i) ≠ s.fld b (Reg.Seat.SQ_TAIL i)

/-- Are the queues of the seat fetched: it is bound, its host is there, it does not go to sleep, and fewer
than 64 commands are in flight (R394, R400, R414, R462)? -/
def State.fetches (s : State) (seat : Nat) : Bool :=
  seat < s.model.seats && s.bindKind seat ≠ 0 && !s.hostLost seat &&
    !s.bit (.seat seat) Reg.Seat.CTRL_SLEEP_REQ && (s.seat seat).flight < 64

/-- The submission queue of a seat whose turn it is. -/
def State.sqTurn (s : State) (seat : Nat) : Option Nat :=
  if s.fetches seat then
    (List.range 4).map (fun k => ((s.seat seat).lastSq + 1 + k) % 4) |>.find? (s.sqReady seat)
  else none

/-- Seat and queue whose turn it is: the seats in rotation, and the queues of a seat in rotation. -/
def State.fetchTurn (s : State) : Option (Nat × Nat) :=
  (List.range 8).findSome? (fun k =>
    let seat := (s.hosts.lastSeat + 1 + k) % 8
    (s.sqTurn seat).map (fun i => (seat, i)))

/-- The source descriptor of a command that reads a file and is not a long operation. -/
def Cmd.shortSource (c : Cmd) : Option Nat :=
  if c.opcode = 0x22 ∨ (c.opcode = 0x58 ∧ !c.flag 0) ∨ c.opcode = 0x59 then some 1
  else if c.opcode = 0x18 ∧ c.flag 1 then some 10
  else none

/-- The source descriptor of a command that reads a file (R404). -/
def Cmd.sourceAt (c : Cmd) : Option Nat :=
  match c.shortSource with
  | some k => some k
  | none =>
    if [0x20, 0x30, 0x32, 0x68].contains c.opcode then some 0
    else if [0x10, 0x28, 0x41].contains c.opcode then some 1
    else if c.opcode = 0x48 then some 4
    else none

/-- Room for an UPLOAD comes from the general pool (R405). -/
def State.takeUpload (s : State) (c : Cmd) : State :=
  match c.shortSource with
  | some k =>
    if c.n k % 4 = 2 ∧ (s.sourceFault c k).isNone then
      match s.takePool c.seat c.tag (c.n (k + 3)) with
      | some s => s
      | none => s.finish c.seat c.tag Status.noCapacity
    else s
  | none => s

/-- An entry enters flight (R400, R401). -/
def State.take (s : State) (seat sq : Nat) (entry : List Word) : State :=
  let w := entry.getD 0 0#32
  let q := s.seat seat
  let c : Cmd := {
    seat := seat, sq := sq, tag := w.toNat / 65536, opcode := w.toNat % 256, word0 := w
    context := entry.getD 1 0#32, params := (entry.drop 2).take 14, upAt := s.render.tick }
  if q.cmds.any (·.tag = c.tag) then
    let c := { c with bad := true, started := true, final := true }
    (s.setSeat seat { q with cmds := q.cmds ++ [c] }).post c Status.badParam 0 0xFFFFFFFF false
  else
    let s := s.setSeat seat { q with cmds := q.cmds ++ [c] }
    if !c.wellFormed then s.finish seat c.tag Status.badParam
    else if s.isUnderstudy && !c.forUnderstudy then s.finish seat c.tag Status.notPrincipal
    else ((s.takeUpload c).pushReady 2 { kind := .command, flow := 0x3800 + seat, block := s.render.block }).dispatch

/-- The module fetches the next entry: `entry` is what host memory holds there, `fault` a bus error; a
Stagedoor seat's entries are in the module. -/
def execCommandFetch (entry : List Word) (fault : Bool) (s : State) : Res :=
  settle (match s.fetchTurn with
  | none => s
  | some (seat, i) =>
    let b := Blk.seat seat
    let head := s.fld b (Reg.Seat.SQ_HEAD i)
    let size := s.fld b (Reg.Seat.SQ_SIZE i)
    let s := { s with hosts := { s.hosts with lastSeat := seat } }
    let q := s.seat seat
    let s := s.setSeat seat { q with lastSq := i }
    if s.isStagedoor seat then
      (s.set b (Reg.Seat.SQ_HEAD i) ((head + 1) % size)).take seat i (Map.get [] (256 * i + head) q.sdRing)
    else if fault then s.ringStop seat i false 2
    else (s.set b (Reg.Seat.SQ_HEAD i) ((head + 1) % size)).take seat i entry)

/-! Completions (R402) -/

/-- Is the completion queue full? -/
def State.cqFull (s : State) (seat i : Nat) : Bool :=
  let b := Blk.seat seat
  (s.fld b (Reg.Seat.CQ_TAIL i) + 1) % s.fld b (Reg.Seat.CQ_SIZE i) = s.fld b (Reg.Seat.CQ_HEAD i)

/-- The four words of an entry. -/
def Completion.words (d : Completion) (phase : Bool) : List Word :=
  [d.r0, d.r1, d.context, BitVec.ofNat 32 (d.tag + 2 ^ 16 * d.status + 2 ^ 24 * d.sq +
    (if d.interim then 2 ^ 28 else 0) + (if phase then 2 ^ 31 else 0))]

/-- The session of a Stagedoor seat ends: its receive window, its numbering and its messages go (R421). -/
def State.endSession (s : State) (seat : Nat) : State :=
  let q := s.seat seat
  let s := s.setSeat seat { q with sd := { key := q.sd.key, persisted := q.sd.persisted, heardAt := q.sd.heardAt } }
  (s.set (.seat seat) Reg.Seat.SD_SESSION 0).showAttached seat

/-- A completion has been written: it waits no more, and a final one ends its command's flight. -/
def State.written (s : State) (seat : Nat) (d : Completion) : State :=
  let q := s.seat seat
  let s := s.setSeat seat { q with
    done := q.done.erase d
    cmds := if d.interim then q.cmds else q.cmds.filter (fun c => c.tag ≠ d.tag || c.bad ≠ d.dup) }
  if (s.seat seat).sd.endAfter = some d.tag && !d.interim then s.endSession seat else s

/-- The oldest completion for a queue is written, when there is room; a full queue stalls it. A Stagedoor
seat's goes out in a COMPLETE message, of which 64 may be outstanding (R423). `fault` is a bus error. -/
def execCompletionWrite (seat i : Nat) (fault : Bool) (s : State) : Res :=
  let b := Blk.seat seat
  settle (match (s.seat seat).done.find? (·.cq = i) with
  | none => s
  | some d =>
    if seat ≥ s.model.seats || s.hostLost seat || s.asleep seat then s
    else if s.isStagedoor seat then
      let sd := (s.seat seat).sd
      if sd.session = 0 then s
      else if 64 ≤ sd.unacked.length || !sd.waiting.isEmpty then s.event b 1
      else (s.sdSend seat 4 (d.words (s.bit b (Reg.Seat.CQ_PHASE i)))).written seat d
    else if !s.isAttached seat || !s.bit b (Reg.Seat.CQ_EN i) then s
    else if s.cqFull seat i then s.event b 1
    else if fault then s.ringStop seat i true 2
    else
      let tail := s.fld b (Reg.Seat.CQ_TAIL i)
      let phase := s.bit b (Reg.Seat.CQ_PHASE i)
      let base := s.fld64 b (Reg.Seat.CQ_BASE_LO i) (Reg.Seat.CQ_BASE_HI i)
      let next := (tail + 1) % s.fld b (Reg.Seat.CQ_SIZE i)
      let s := s.hostWriteBytes seat (base + 16 * tail) ((d.words phase).flatMap bytesOf)
      let s := s.set b (Reg.Seat.CQ_TAIL i) next
      let s := if next = 0 then s.setBit b (Reg.Seat.CQ_PHASE i) !phase else s
      s.written seat d)

/-! NOP, IDENTIFY, SYNC (R407) -/

def execNop (seat tag : Nat) (s : State) : Res :=
  settle (s.command seat tag 0x01 (fun c s => s.finish c.seat c.tag Status.ok))

/-- The DEVICE page: counts of the model, and what fuses and flash say of the module (R77). -/
def State.deviceImage (s : State) : State :=
  ((s.showDevice.set .device Reg.Device.SERIAL_LO (Config.serial % 2 ^ 32)).set .device Reg.Device.SERIAL_HI
    (Config.serial / 2 ^ 32 % 2 ^ 32)).set .device Reg.Device.FUSE_MAP (Config.fuseMap % 2 ^ 32)

/-- The word of a unit at an offset: the fields that lie in it. -/
def wordIn (m : RegMap) (b : Blk) (off : Nat) : Nat :=
  b.allFields.foldl (fun w f => if f.off = off then w ||| regGet m b.base f <<< f.lsb else w) 0

def State.deviceWord (s : State) (off : Nat) : Nat := wordIn s.deviceImage.fab.act .device off

/-- IDENTIFY: words 0x040 and 0x044 of DEVICE, and 0x040 to 0x07F to a destination of 64 bytes. -/
def State.identify (s : State) (c : Cmd) : State :=
  let done := fun (s : State) => s.finish c.seat c.tag Status.ok (s.deviceWord 0x40) (s.deviceWord 0x44)
  if c.n 3 = 0 then done s
  else if c.n 3 ≠ 64 then s.finish c.seat c.tag Status.badParam
  else match s.dstFault c 0 with
    | some e => s.finish c.seat c.tag e
    | none =>
      match s.writeDst c 0 ((List.range 16).flatMap (fun k => bytesOf (BitVec.ofNat 32 (s.deviceWord (0x40 + 4 * k))))) with
      | some (_, s) => done s
      | none => s.finish c.seat c.tag Status.noCapacity

def execIdentify (seat tag : Nat) (s : State) : Res :=
  settle (s.command seat tag 0x02 (fun c s => s.identify c))

/-- SYNC begins with the count of commands it waits for, and ends once each of them has retired. -/
def State.sync (s : State) (c : Cmd) : State :=
  let q := s.seat c.seat
  let open_ := ((q.before c.tag).filter (fun d => !q.retired d)).length
  if c.started then
    if open_ = 0 ∧ !c.final then s.finish c.seat c.tag Status.ok (c.work.headD 0) else s
  else s.command c.seat c.tag 0x03 (fun c s =>
    if open_ = 0 then s.finish c.seat c.tag Status.ok 0 else s.setCmd { c with work := [open_] })

def execSync (seat tag : Nat) (s : State) : Res :=
  settle (match s.cmdOf seat tag with
  | some c => if c.opcode = 0x03 then s.sync c else s
  | none => s)

/-! OWNERSHIP_SET (R54, R396) -/

/-- The unit of a KIND code. -/
def ownUnit (kind n : Nat) : Option Blk :=
  match kind with
  | 0x0 => some (.obj n)
  | 0x1 => some (.out n)
  | 0x2 => some (.bus n)
  | 0x3 => some (.route n)
  | 0x4 => some (.ingress n)
  | 0x5 => some (.egress n)
  | 0x6 => some (.tdm n)
  | 0x7 => some (.aesRx n)
  | 0x8 => some (.aesTx n)
  | 0x9 => some (.ethMac n)
  | 0xA => some (.ps n)
  | 0xB => if n = 0 then some .monitor else none
  | _ => none

/-- The pages that change hands with a unit: an ETH unit carries its four. -/
def ownPages : Blk → List Blk
  | .ethMac p => [.ethMac p, .ethCls p, .ethGate p, .ethStat p]
  | b => [b]

/-- A unit gets its owner. Where the owning seat changes, staged values are discarded, the group becomes
UG0, and both seats have event OWNERSHIP. A change of SHARED alone is no change of owner (DESIGN CHOICE, log entry 27). -/
def State.setOwner (s : State) (b : Blk) (seat : Nat) (shared : Bool) : State :=
  let was := (s.ownerOf b).1
  let s := if b.isRecord then
      { s with fab := { s.fab with recOwner := s.fab.recOwner.put 0 b.base (seat + if shared then 8 else 0) } }
    else (s.set b Reg.Hdr.OWNER_SEAT seat).setBit b Reg.Hdr.OWNER_SHARED shared
  if was = seat then s
  else
    let s := (ownPages b).foldl (fun s b =>
      let s := s.discardAll b
      if b.isRecord then { s with fab := { s.fab with recGroup := s.fab.recGroup.put 0 b.base 0 } }
      else s.setBoth b Reg.Hdr.UPD_GROUP 0) s
    let s := match b with
      | .out n => s.setBoth (.out n) Reg.Out.CORR_WARM 0
      | _ => s
    (s.event (.seat was) 2).event (.seat seat) 2

/-- The units a set names. -/
def OwnSet.units (o : OwnSet) : List (Option Blk) := (List.range o.count).map (fun k => ownUnit o.kind (o.first + k))

/-- Ownership changes; the count of units whose owner or sharing differs from before. -/
def State.applyOwn (s : State) (o : OwnSet) : State × Nat :=
  o.units.foldl (fun (a : State × Nat) u =>
    match u with
    | none => a
    | some b =>
      if a.1.ownerOf b = (o.seat, o.shared) then a else (a.1.setOwner b o.seat o.shared, a.2 + 1)) (s, 0)

/-- OWNERSHIP_SET: in LOCKSTEP it is forwarded and applies on both units at one boundary. -/
def State.ownershipSet (s : State) (c : Cmd) : State :=
  let o : OwnSet := { kind := c.n 0, first := c.n 1, count := c.n 2, seat := c.n 3 % 8, shared := (c.n 3).testBit 8 }
  if 0xB < o.kind ∨ (c.n 3 / 8 % 32 ≠ 0) ∨ c.n 3 / 512 ≠ 0 then s.finish c.seat c.tag Status.badParam
  else if 4096 < o.first + o.count ∨ s.model.seats ≤ o.seat ∨
      o.units.any (fun u => u.all (fun b => !b.present s.model)) then
    s.finish c.seat c.tag Status.absentUnit
  else
    let (t, n) := s.applyOwn o
    if s.lockPri then
      let at_ := s.secondBoundary
      let s := (s.toPeer (.ownership o at_))
      { s with twin := { s.twin with ownLater := s.twin.ownLater ++ [(at_, o)] } }.finish c.seat c.tag Status.ok n
    else t.finish c.seat c.tag Status.ok n

def execOwnershipSet (seat tag : Nat) (s : State) : Res :=
  settle (s.command seat tag 0x60 (houseOnly (fun c s => s.ownershipSet c)))

/-! KEY_SET (R420) -/

/-- The session of the named seat ends, after the completion where the seat gave the command itself over
Stagedoor (R425). -/
def State.keyDone (s : State) (c : Cmd) (seat : Nat) : State :=
  let s := s.finish c.seat c.tag Status.ok
  if seat = c.seat && s.isStagedoor seat && (s.seat seat).sd.session ≠ 0 then
    let q := s.seat seat
    s.setSeat seat { q with sd := { q.sd with endAfter := some c.tag } }
  else s.endSession seat

/-- A KEY_SET whose seat the module has; CLEAR tells the two rows apart. -/
def State.keyCommand (s : State) (seat tag : Nat) (clear : Bool) (f : Cmd → State → State) : State :=
  match s.cmdOf seat tag with
  | none => s
  | some c =>
    if c.flag 0 ≠ clear then s
    else s.command seat tag 0x61 (houseOnly (fun c s =>
      if 8 ≤ c.n 0 then s.finish c.seat c.tag Status.badParam
      else if s.model.seats ≤ c.n 0 then s.finish c.seat c.tag Status.absentUnit
      else f c s))

/-- The key store in flash. -/
def State.putKey (s : State) (seat : Nat) (key : List Byte) : State :=
  { s with boot := { s.boot with keys := s.boot.keys.put [] seat key } }

def execKeySet (seat tag : Nat) (s : State) : Res :=
  settle (s.keyCommand seat tag false (fun c s =>
    let t := c.n 0
    let key := ((c.params.drop 1).take 8).flatMap bytesOf
    let q := s.seat t
    let s := s.setSeat t { q with sd := { q.sd with key := some key, persisted := q.sd.persisted || c.flag 1 } }
    let s := if c.flag 1 then s.putKey t key else s
    (s.set (.seat t) Reg.Seat.STATUS_KEY_VALID 1).keyDone c t))

/-- KEY_SET with CLEAR: the key goes, in flash too. -/
def execKeyClear (seat tag : Nat) (s : State) : Res :=
  settle (s.keyCommand seat tag true (fun c s =>
    let t := c.n 0
    let q := s.seat t
    let s := s.setSeat t { q with sd := { q.sd with key := none, persisted := false } }
    ((s.putKey t []).set (.seat t) Reg.Seat.STATUS_KEY_VALID 0).keyDone c t))

/-! Host loss and return (R414, R415) -/

/-- Host loss begins. -/
def State.loseHost (s : State) (seat : Nat) : State :=
  let b := Blk.seat seat
  if s.hostLost seat then s.showAttached seat
  else
    let s := (s.set b Reg.Seat.STATUS_HOST_LOST 1).event b 3
    let s := s.set b Reg.Seat.GRACE_LEFT 10000
    let q := s.seat seat
    let s := s.setSeat seat { q with graceEnd := s.render.tick + 10 * s.fs }
    let ops := q.cmds.filter (fun c => isLong c.opcode && !c.final)
    -- An UPLOAD that waits for its bytes has no step boundary before them (R425).
    let stuck := fun (c : Cmd) => c.steps = 0 && c.sourceAt.any (fun k => c.n k % 4 = 2 && (s.sourceBytes c k []).isNone)
    (ops.foldl (fun s c =>
      match c.state with
      | .queued => s.suspendNow c
      | .running => if stuck c then s.suspendNow c else s.setCmd { c with suspend := true }
      | .suspended => s) s).showAttached seat

/-- The host returns. -/
def State.hostBack (s : State) (seat : Nat) : State :=
  let b := Blk.seat seat
  if s.hostLost seat then
    let q := s.seat seat
    -- The 10 s of an UPLOAD count while the seat is attached (R405).
    let s := s.setSeat seat { q with graceEnd := 0, cmds := q.cmds.map (fun c => { c with upAt := s.render.tick }) }
    (((s.set b Reg.Seat.STATUS_HOST_LOST 0).set b Reg.Seat.GRACE_LEFT 0).event b 4).showAttached seat
  else s.showAttached seat

/-- Seats bound to a PCIe link. -/
def State.seatsOn (s : State) (link : Nat) : List Nat := (List.range s.model.seats).filter (fun q => s.bindKind q = link)

/-- The data link layer of a link goes down, or its PERST_B asserts. -/
def execPcieLinkDown (link : Nat) (perst : Bool) (s : State) : Res :=
  settle (
    if link = 1 ∨ link = 2 then
      let h := s.hosts
      let s := { s with hosts :=
        if link = 1 then { h with upA := false, perstA := h.perstA || perst }
        else { h with upB := false, perstB := h.perstB || perst } }
      (s.seatsOn link).foldl State.loseHost s
    else s)

/-- 3 s have passed without an authenticated message. -/
def execStagedoorSilence (seat : Nat) (s : State) : Res :=
  settle (
    if seat < s.model.seats && s.isStagedoor seat && (s.seat seat).sd.session ≠ 0 &&
        (s.seat seat).sd.heardAt + 3 * s.fs ≤ s.render.tick then s.loseHost seat
    else s)

/-- The grace period ends: every suspended operation is cancelled, keeping partial results only where its
own entry says so. -/
def execGraceExpire (seat : Nat) (s : State) : Res :=
  settle (
    if s.hostLost seat && 0 < (s.seat seat).graceEnd && (s.seat seat).graceEnd ≤ s.render.tick then
      let q := s.seat seat
      let s := (s.setSeat seat { q with graceEnd := 0 }).set (.seat seat) Reg.Seat.GRACE_LEFT 0
      (q.cmds.filter (fun c => c.state = .suspended && !c.final)).foldl (fun s c => s.cancelOp c false) s
    else s)

/-- An UPLOAD has received no byte for 10 s while its seat is attached (R405). -/
def execUploadTimeout (seat tag : Nat) (s : State) : Res :=
  settle (match s.cmdOf seat tag with
  | none => s
  | some c =>
    match c.sourceAt with
    | none => s
    | some k =>
      if c.final ∨ c.state = .suspended ∨ c.n k % 4 ≠ 2 ∨ (s.sourceBytes c k []).isSome ∨ !s.isAttached seat ∨
          s.render.tick < c.upAt + 10 * s.fs ∨ (isLong c.opcode ∧ 0 < c.steps) then s
      else s.finish seat tag Status.timeout)

/-! Seat reset (R416) -/

/-- Captures to memory of a seat end without a completion. -/
def State.dropCaptures (s : State) (seat : Nat) : State :=
  let gone := s.measure.c2m.filter (·.seat = seat)
  let s := { s with measure := { s.measure with c2m := s.measure.c2m.filter (·.seat ≠ seat) } }
  let s := s.set .capture Reg.Capture.C2M_ACTIVE s.measure.c2m.length
  gone.foldl (fun s q => if q.measure then s.chainService q.mask false false else s) s

/-- Twin actions go on; the command that asked for one is gone. -/
def State.dropTwinCommands (s : State) (seat : Nat) : State :=
  let t := s.twin
  let mine := fun (c : Option (Nat × Nat)) => if c.any (fun e => e.1 = seat) then none else c
  { s with twin := { t with
    join := t.join.map (fun j => (mine j.1, j.2)), resync := mine t.resync, take := mine t.take
    handover := t.handover.map (fun h => (h.1, mine h.2)), detach := t.detach.map mine } }

/-- The seat's buffers are released, but for those of a HELD campaign. -/
def State.dropBuffers (s : State) (seat : Nat) : State :=
  let keep := fun (e : Nat × Buffer) =>
    e.2.seat ≠ seat || e.2.held || s.measure.campaign.any (fun q => q.buffer = e.1 && q.phase = .held)
  { s with pool := { s.pool with
    bufs := s.pool.bufs.filter keep, taken := s.pool.taken.filter (fun t => t.1 ≠ seat || bootTag ≤ t.2.1) } }

/-- A seat's commands are gone: no other waits to complete them, and those of other seats that waited for the end of
one of them complete (R412). -/
def State.dropWaiters (s : State) (seat : Nat) : State :=
  let ws := (s.seat seat).cmds.flatMap (·.waiters)
  let s := { s with seats := s.seats.map (fun q =>
    (q.1, { q.2 with cmds := q.2.cmds.map (fun c => { c with waiters := c.waiters.filter (·.1 ≠ seat) }) })) }
  (ws.filter (·.1 ≠ seat)).foldl (fun s w => s.finish1 w.1 w.2 Status.ok 0 0) s

def State.seatReset (s : State) (seat : Nat) : State :=
  let b := Blk.seat seat
  let ops := (s.seat seat).cmds.filter (fun c => isLong c.opcode && c.started && !c.final && decide (c.tag < bootTag))
  let s := ops.foldl (fun s c => s.giveUp c c.keep) s
  let s := (((s.dropCaptures seat).dropTwinCommands seat).dropBuffers seat).dropWaiters seat
  let q := s.seat seat
  let s := s.setSeat seat { q with
    cmds := q.cmds.filter (bootTag ≤ ·.tag), done := [], sdRing := [], lastSq := 3 }
  let s := (List.range 4).foldl (fun s i =>
    let s := ((s.setBoth b (Reg.Seat.SQ_EN i) 0).setBoth b (Reg.Seat.SQ_TAIL i) 0).set b (Reg.Seat.SQ_HEAD i) 0
    (((s.setBoth b (Reg.Seat.CQ_EN i) 0).setBoth b (Reg.Seat.CQ_HEAD i) 0).set b (Reg.Seat.CQ_TAIL i) 0).set b
      (Reg.Seat.CQ_PHASE i) 1) s
  let s := { s with mon := { s.mon with degraded := s.mon.degraded.filter (·.1 ≠ seat) } }
  let s := ((s.endSession seat).sleepClear seat).callReset seat true
  if seat < s.model.prompters then s.prReset seat else s

/-- A write of SEAT.CTRL.SEAT_RESET by the seat or the house seat. -/
def execSeatReset (seat : Nat) (s : State) : Res := settle (if seat < s.model.seats then s.seatReset seat else s)

/-- A function-level reset of a PCIe function: of the seat bound to it. -/
def execFunctionLevelReset (link fn : Nat) (s : State) : Res :=
  settle (((s.seatsOn link).filter (fun q => s.bindIndex q = fn && (link = 1 || link = 2))).foldl State.seatReset s)

/-- A PCIe link comes up: the hosts return, and after a PERST_B assertion their seats are reset. -/
def execPcieLinkUp (link : Nat) (s : State) : Res :=
  settle (
    if link = 1 ∨ link = 2 then
      let h := s.hosts
      let perst := if link = 1 then h.perstA else h.perstB
      let s := { s with hosts :=
        if link = 1 then { h with upA := true, perstA := false } else { h with upB := true, perstB := false } }
      (s.seatsOn link).foldl (fun s q => if perst then (s.hostBack q).seatReset q else s.hostBack q) s
    else s)

/-- A write of BIND by the house seat: rejected for a function that is not exposed or an absent port, else
the seat is bound anew and reset (R395). -/
def State.bindWrite (s : State) (seat kind index writer : Nat) : State :=
  let b := Blk.seat seat
  if s.bindable kind index then
    let s := (s.setBoth b Reg.Seat.BIND_KIND kind).setBoth b Reg.Seat.BIND_INDEX index
    let s := s.seatReset seat
    let s := ((s.set b Reg.Seat.STATUS_HOST_LOST 0).set b Reg.Seat.GRACE_LEFT 0)
    (s.showAttached seat).showWake
  else s.logErr b 0x40 4 writer

def execBind (seat kind index : Nat) (s : State) : Res :=
  settle (if seat < s.model.seats then s.bindWrite seat (kind % 4) (index % 4) 0 else s)

end Sys2Proof.Machine
end

