-- ==== Sys2Proof/Machine/Prepare.lean ====
section
/-! DEFINITION. Prepare: what makes a commit fail (R5 to R7, R70, R72 and the chapters' own checks). -/

namespace Sys2Proof.Machine

open Sys2Proof

/-- A failed check: the page that holds the value, the reason, and whether it names an absent unit (R5). -/
structure Bad where
  page : Nat
  reason : Nat
  absent : Bool := false
  deriving DecidableEq, Repr

/-- The page index of a unit's page. -/
def pageIndex (b : Blk) : Nat := b.page.base / 4096

/-- Does the commit capture the unit? -/
def Commit.has (c : Commit) (b : Blk) : Bool := c.blks.contains b

/-- The captured unit that holds the configuration of `b`: its record, else its page. -/
def Commit.holder (c : Commit) (b : Blk) : Option Blk :=
  if c.has b then some b else if c.has b.page then some b.page else none

/-! The configuration that a commit leaves -/

/-- RW fields of a unit taken from other words. MOTION.CMD shows the command that last applied (R82). -/
def takeFields (act vals : RegMap) (b : Blk) : RegMap :=
  b.allFields.foldl (fun m f =>
    if f.acc = .rw && !(f = Reg.Obj.MOTION_CMD && regGet vals b.base f = 0) then
      regPut m b.base f (regGet vals b.base f) else m) act

/-- And the words beside its page. -/
def takeUnit (act vals : RegMap) (b : Blk) : RegMap :=
  let m := takeFields act vals b
  if (extraOf b).2 = 0 then m
  else
    let inside := fun k => decide ((extraOf b).1 ≤ k ∧ k < (extraOf b).1 + (extraOf b).2)
    (Map.only inside vals).foldl (fun (m : RegMap) (e : Nat × Word) => m.put 0#32 e.1 e.2) (Map.drop inside m)

/-- Does the commit change the render rate; the block size? -/
def Commit.newRate (c : Commit) (s : State) : Bool :=
  c.has .render && regGet c.vals Blk.render.base Reg.Render.CFG_RATE ≠ s.fld .render Reg.Render.CFG_RATE

def Commit.newBlock (c : Commit) (s : State) : Bool :=
  c.has .render && regGet c.vals Blk.render.base Reg.Render.CFG_BLOCK ≠ s.fld .render Reg.Render.CFG_BLOCK

/-- A render-rate chain carried to the other rate: HB_COUNT and R (R234); none when it cannot be. -/
def carried (up : Bool) (r hb : Nat) : Option (Nat × Nat) :=
  if up then
    if 0 < hb then some (r, hb - 1) else if r % 2 = 0 ∧ 16 ≤ r then some (r / 2, 0) else none
  else if hb < 2 then some (r, hb + 1) else if r ≤ 256 then some (2 * r, hb) else none

/-- The chains as a rate change leaves them: each render-rate chain at the old rate is carried (R234). -/
def State.carryChains (s : State) (chains : List Nat) (up : Bool) (both : Bool) : State :=
  chains.foldl (fun s c =>
    match carried up (s.fld .capture (Reg.Capture.CH_DECIM_R c)) (s.fld .capture (Reg.Capture.CH_DECIM_HB_COUNT c)) with
    | none => s
    | some (r, hb) =>
      let s := (s.set .capture (Reg.Capture.CH_DECIM_R c) r).set .capture (Reg.Capture.CH_DECIM_HB_COUNT c) hb
      if both then (s.setStg .capture (Reg.Capture.CH_DECIM_R c) r).setStg .capture (Reg.Capture.CH_DECIM_HB_COUNT c) hb
      else s) s

/-- The present render-rate chains. -/
def State.rateChains (s : State) : List Nat :=
  (List.range 56).filter (fun c => chainPresent s.model c && s.renderRate c)

/-- The machine with the active view that the commit leaves. The ingress streams it sets have the render's rate (R329). -/
def State.after (s : State) (c : Commit) : State :=
  let rates := fun (t : State) => c.blks.foldl (fun t b => match b with
    | .ingress n => t.setIng n { t.ing n with rate := t.fs }
    | _ => t) t
  let t := s.withAct (c.blks.foldl (fun m b => takeUnit m c.vals b) s.fab.act)
  if c.newRate s then
    let old := t.set .render Reg.Render.CFG_RATE (s.fld .render Reg.Render.CFG_RATE)
    rates (t.carryChains old.rateChains (t.fld .render Reg.Render.CFG_RATE = 1) false)
  else rates t

/-! Sources and destinations (R83, R174, R175, R231) -/

/-- What is wrong with the place a source names: nothing, or BAD_VALUE, for an absent unit or not. `t` is the
machine the commit leaves. -/
def State.sourceAbsent (t : State) (src : Source) : Option Bool :=
  match src.type with
  | 0 => none
  | 1 => if 256 ≤ src.unit ∨ t.fld (.ingress src.unit) Reg.Ingress.FMT_CHANNELS ≤ src.chan then some false else none
  | 2 =>
    if 16 ≤ src.unit then some false
    else if t.model.tdms ≤ src.unit then some true
    else if t.fld (.tdm src.unit) Reg.Tdm.RX_CFG_SLOTS < src.chan then some false else none
  | 3 =>
    if 8 ≤ src.unit ∨ 1 < src.chan then some false
    else if t.model.aes ≤ src.unit then some true else none
  | 4 => if 64 ≤ src.unit then some false else if t.model.buses ≤ src.unit then some true else none
  | 5 => if 16 ≤ src.unit then some false else none
  | 6 =>
    if 56 ≤ src.unit then some false
    else if !chainPresent t.model src.unit then some true
    else if t.bit .capture (Reg.Capture.CH_CTRL_EN src.unit) then none else some false
  | 8 => if t.model.objects ≤ src.unit then some true else none
  | _ => some false

/-- Is the input at the render rate and synchronous (R174, R233, R296, R329)? -/
def State.sourceInRate (t : State) (src : Source) : Bool :=
  match src.type with
  | 1 => !t.altDomain src.unit && (!t.bit (.ingress src.unit) Reg.Ingress.CTRL_ENABLE || (t.ing src.unit).rate = t.fs)
  | 2 => t.portAsrc (.tdmRx src.unit) || (t.port (.tdmRx src.unit)).sync
  | 6 => t.renderRate src.unit
  | _ => true

/-- The record or page whose owner owns a source; none for generators and chains (R175). -/
def sourceUnit (src : Source) : Option Blk :=
  match src.type with
  | 1 => some (.ingress src.unit)
  | 2 => some (.tdm src.unit)
  | 3 => some (.aesRx src.unit)
  | 4 => some (.bus src.unit)
  | 8 => some (.obj src.unit)
  | _ => none

/-- Shorthands for lists of failed checks. -/
def badIf (cond : Bool) (b : Blk) (reason : Nat) : List Bad := if cond then [{ page := pageIndex b, reason := reason }] else []
def absentIf (cond : Bool) (b : Blk) : List Bad :=
  if cond then [{ page := pageIndex b, reason := rBadValue, absent := true }] else []

/-- The checks of a source's place. -/
def State.badSource (t : State) (b : Blk) (src : Source) : List Bad :=
  match t.sourceAbsent src with
  | none => []
  | some a => [{ page := pageIndex b, reason := rBadValue, absent := a }]

/-! Every field (R12, R59, R70) -/

/-- The kind of the group a captured unit belongs to. -/
def Commit.kindOf (c : Commit) (b : Blk) : Nat :=
  ((c.kinds.find? (fun k => k.1 = Map.get 0 b.base c.grp)).map (·.2)).getD 1

/-- PAN.SPREAD is a selector under BED and AMBI, whose own checks apply (R143, R144). -/
def isSelector (b : Blk) (f : Fld) (vals : RegMap) : Bool :=
  f = Reg.Obj.PAN_SPREAD && 3 ≤ regGet vals b.base Reg.Obj.CTRL_LAW

/-- Ranges, and block-only fields outside BLOCK groups. -/
def State.badFields (s : State) (c : Commit) (b : Blk) : List Bad :=
  (b.allFields.filter (·.acc = .rw)).flatMap (fun f =>
    let v := regGet c.vals b.base f
    badIf (!f.enc.isEmpty && !inRanges v f.enc && !isSelector b f c.vals) b rBadValue ++
    badIf (f.blockOnly && v ≠ s.fld b f && c.kindOf b ≠ 1) b rKindConflict)

/-! Objects (R83, R92, R114, R138, R143 to R145) -/

/-- May MOTION.ENTRY of an object be `e` (R114)? -/
def State.entryGood (s : State) (n e : Nat) : Bool :=
  e < 64 || s.motion.regions.any (fun r => r.seat = (s.ownerOf (.obj n)).1 && r.base ≤ e && e < r.base + r.words &&
    (scanMotion s.motion.mem (r.base + r.words) r.words r.base [] [] none).1.contains e)

/-- The layout that BED_SEL and AMBI_SEL are checked against: the one the commit leaves selected and enabled. -/
def State.layoutLeft (t : State) : Option Layout :=
  let sel := t.fld .layout Reg.Layout.SEL
  if !t.bit .layout Reg.Hdr.ENABLE then none
  else match t.layouts.active, t.layouts.armed with
    | some (k, l), a => if k = sel then some l else (a.filter (·.1 = sel)).map (·.2)
    | none, a => (a.filter (·.1 = sel)).map (·.2)

/-- Is the BED_SEL of an object valid in a layout (R143)? -/
def Layout.bedGood (l : Layout) (sel : Nat) : Bool :=
  sel % 16 < l.beds.length && sel / 256 % 64 < (l.beds.getD (sel % 16) []).length &&
    sel = sel % 16 + 256 * (sel / 256 % 64)

/-- Is an AMBI_SEL valid in a layout (R145)? -/
def Layout.ambiGood (l : Layout) (sel : Nat) : Bool := sel < min 4 l.decoders.length

/-- The checks of an active object's selectors; they count against unit `b`. While no layout is selected and enabled,
only a member's leader is checked. -/
def State.badSelectors (t : State) (n : Nat) (b : Blk) : List Bad :=
  let law := t.fld (.obj n) Reg.Obj.CTRL_LAW
  let lead := 16 * (n / 16)
  let sel := t.fld (.obj lead) Reg.Obj.PAN_SPREAD
  let ambi := t.objActive n && law = 4
  badIf (ambi && t.fld (.obj lead) Reg.Obj.CTRL_LAW ≠ 4) b rBadValue ++
  match t.layoutLeft with
  | none => []
  | some l =>
    let order := ((l.decoders[sel]?).map (·.order)).getD 0
    badIf (t.objActive n && law = 3 && !l.bedGood (t.fld (.obj n) Reg.Obj.PAN_SPREAD)) b rBadValue ++
    badIf (ambi && (!l.ambiGood sel || (n % 16 < (order + 1) * (order + 1) &&
      t.fld (.obj n) Reg.Obj.CTRL_CLASS ≠ t.fld (.obj lead) Reg.Obj.CTRL_CLASS))) b rBadValue

/-- SOURCE of an object in a configuration. -/
def State.objSourceNow (t : State) (n : Nat) : Source :=
  { type := t.fld (.obj n) Reg.Obj.SOURCE_TYPE, unit := t.fld (.obj n) Reg.Obj.SOURCE_UNIT,
    chan := t.fld (.obj n) Reg.Obj.SOURCE_CHANNEL }

/-- The checks of an object record: of a captured one, and of one that its page's ENABLE activates (R80). -/
def State.badObj (s t : State) (c : Commit) (n : Nat) : List Bad :=
  let b := Blk.obj n
  let src := t.objSourceNow n
  let law := t.fld b Reg.Obj.CTRL_LAW
  t.badSource b src ++
  badIf (c.has b && !s.entryGood n (regGet c.vals b.base Reg.Obj.MOTION_ENTRY)) b rBadValue ++
  badIf ((law = 0 || law = 2) && t.fld b Reg.Obj.PAN_ZONE_MASK = 0) b rBadValue ++
  badIf (t.objActive n && !t.sourceInRate src) b rRateMismatch ++
  (List.range 16).flatMap (fun m =>
    t.badSelectors (16 * (n / 16) + m) ((c.holder (.obj (16 * (n / 16) + m))).getD b))

/-- The objects the commit leaves active, in class Lead. -/
def State.leads (t : State) : List Nat :=
  (List.range t.model.objects).filter (fun n => t.objActive n && t.fld (.obj n) Reg.Obj.CTRL_CLASS = 0)

/-- R92: at most 256 active Lead objects. -/
def State.badLeads (s t : State) (c : Commit) : List Bad :=
  let l := t.leads
  if l.length ≤ 256 then []
  else
    let was := s.leads
    (l.filter (fun n => !was.contains n)).flatMap (fun n =>
      match c.holder (.obj n) with
      | some b => badIf true b rNoCapacity
      | none => [])

/-! Capacity at the rate the commit leaves (R6, R23, R119, R133, R170, R174) -/

/-- Does a route act: its page's ENABLE and its own (R593)? -/
def State.routeOn (t : State) (r : Nat) : Bool :=
  t.bit (Blk.route r).page Reg.Hdr.ENABLE && t.bit (.route r) Reg.Route.CTRL_ENABLE

/-- Does a route that acts name a unit over capacity? -/
def State.routeOver (t : State) (r : Nat) : Bool :=
  let b := Blk.route r
  let src := t.fld b Reg.Route.SRC_UNIT
  let dest := t.fld b Reg.Route.DEST_INDEX
  t.routeOn r && ((t.fld b Reg.Route.SRC_TYPE = 8 && t.nowObjects ≤ src && src < t.model.objects) ||
    (t.fld b Reg.Route.DEST_KIND ≠ 1 && t.nowOutputs ≤ dest && dest < t.model.outputs))

/-- Is the direct output of a bus in use (R178, R201)? -/
def State.directUsed (t : State) (n : Nat) : Bool :=
  t.bit (.bus n) Reg.Bus.DIRECT_EN && t.busActive n && !(n = t.annBus && t.bit .curtain Reg.Curtain.CTRL_ANNOUNCE)

/-- Does it name an output over capacity? -/
def State.directOver (t : State) (n : Nat) : Bool :=
  let out := t.fld (.bus n) Reg.Bus.DIRECT_OUT
  t.directUsed n && t.nowOutputs ≤ out && out < t.model.outputs

/-- Units that the commit leaves in use above the capacity of the rate: on the page that brings them into use,
else on RENDER. -/
def State.badCapacity (t : State) (c : Commit) : List Bad :=
  let excess := fun (b : Blk) => match c.holder b with
    | some h => badIf true h rNoCapacity
    | none => badIf (c.has .render) .render rNoCapacity
  ((List.range 2048).filter t.routeOver).flatMap (fun r => excess (.route r)) ++
  ((List.range t.model.buses).filter t.directOver).flatMap (fun n => excess (.bus n)) ++
  ((List.range t.model.objects).filter (fun n => t.nowObjects ≤ n && t.objActive n)).flatMap (fun n => excess (.obj n)) ++
  ((List.range t.model.outputs).filter (fun n => t.nowOutputs ≤ n && t.outActive n)).flatMap (fun n => excess (.out n))

/-- LAYOUT and PATH. -/
def State.badLayout (s t : State) (c : Commit) : List Bad :=
  let sel := t.fld .layout Reg.Layout.SEL
  let newSel := sel ≠ s.fld .layout Reg.Layout.SEL
  let on := t.bit .layout Reg.Hdr.ENABLE && !s.bit .layout Reg.Hdr.ENABLE
  let armed := s.layouts.armed.filter (·.1 = sel)
  let active := s.layouts.active.filter (·.1 = sel)
  let left := ((if newSel then armed else active <|> armed).map (·.2))
  let outs := (left.map (fun l => l.speakers.map (·.output))).getD []
  (if c.has .layout then
    badIf (newSel && (armed.isNone || s.layouts.converting)) .layout rBadValue ++
    badIf (on && armed.isNone && active.isNone) .layout rBadValue ++
    absentIf ((newSel || on) && outs.any (fun o => t.model.outputs ≤ o)) .layout ++
    badIf ((newSel || on) && outs.any (fun o => t.nowOutputs ≤ o && o < t.model.outputs)) .layout rNoCapacity ++
    (if newSel || on then
      (List.range t.model.objects).flatMap (fun n => t.badSelectors n ((c.holder (.obj n)).getD .layout))
    else [])
  else []) ++
  badIf (c.newRate s && outs.any (fun o => t.nowOutputs ≤ o)) (if c.has .layout then .layout else .render) rNoCapacity ++
  (let bad := t.nowPaths < t.fld .path Reg.Path.POOL_CFG_LEAD_RESERVE
   if c.has .path then badIf bad .path rBadValue else badIf (bad && c.newRate s) .render rBadValue)

/-! Routes and buses (R174, R175, R178, R201) -/

/-- Does a route lead from the announcement bus to an output (R201)? -/
def State.announces (t : State) (r : Nat) : Bool :=
  let b := Blk.route r
  t.bit .curtain Reg.Curtain.CTRL_ANNOUNCE && t.fld b Reg.Route.SRC_TYPE = 4 && t.fld b Reg.Route.SRC_UNIT = t.annBus &&
    t.fld b Reg.Route.DEST_KIND ≠ 1

/-- The commit that sets ANNOUNCE fails for the routes that act and are not captured with it (R201). -/
def State.badAnnounce (s t : State) (c : Commit) : List Bad :=
  badIf (c.has .curtain && !s.bit .curtain Reg.Curtain.CTRL_ANNOUNCE &&
    (List.range 2048).any (fun r => !c.has (.route r) && t.routeOn r && t.announces r)) .curtain rBadValue

def State.badRoute (t : State) (r : Nat) : List Bad :=
  let b := Blk.route r
  let src : Source := { type := t.fld b Reg.Route.SRC_TYPE, unit := t.fld b Reg.Route.SRC_UNIT,
                        chan := t.fld b Reg.Route.SRC_CHANNEL }
  let toBus := t.fld b Reg.Route.DEST_KIND = 1
  let dest := t.fld b Reg.Route.DEST_INDEX
  let seat := (t.ownerOf b).1
  let destUnit := if toBus then Blk.bus dest else .out dest
  let absent := decide ((if toBus then t.model.buses else t.model.outputs) ≤ dest)
  t.badSource b src ++ absentIf absent b ++
  badIf (t.announces r) b rBadValue ++
  (if t.routeOn r then
    badIf (!t.sourceInRate src) b rRateMismatch ++
    badIf (((sourceUnit src).map (t.owns seat)).getD true = false || !t.owns seat destUnit) b rNotOwner
  else [])

def State.badBus (t : State) (n : Nat) : List Bad :=
  let b := Blk.bus n
  let out := t.fld b Reg.Bus.DIRECT_OUT
  absentIf (t.model.outputs ≤ out) b ++
  badIf (t.directUsed n && !t.owns (t.ownerOf b).1 (.out out)) b rNotOwner

/-! Outputs (R190, R211, R221 to R224) and the monitor (R196) -/

/-- A change of correction selection. -/
def State.badSel (s t : State) (n : Nat) : List Bad :=
  let b := Blk.out n
  let sel := t.fld b Reg.Out.CORR_SEL
  let q := (s.out n).corr
  let bank := q.bank (sel - 1)
  let was := s.outActive n
  if sel = s.fld b Reg.Out.CORR_SEL then []
  else badIf ((sel ≠ 0 && !bank.usable) || q.fade.isSome ||
    (if t.fld b Reg.Out.CORR_POLICY = 1 then was && sel ≠ 0 && bank.state ≠ 3 else was)) b rBadValue

/-- Has a bass-management group an active SUB? -/
def State.hasSub (t : State) (g : Nat) : Bool :=
  (List.range t.model.outputs).any (fun n =>
    t.outActive n && t.fld (.out n) Reg.Out.BM_ROLE = 2 && t.fld (.out n) Reg.Out.BM_GROUP = g)

/-- R190: an active MAIN of a group without an active SUB. It counts against its own page where that is captured,
else against the captured outputs that leave the group. -/
def State.badMains (s t : State) (c : Commit) : List Bad :=
  let lone := (List.range 8).filter (fun g => !t.hasSub g)
  let mains := (List.range t.model.outputs).filter (fun n =>
    t.outActive n && t.fld (.out n) Reg.Out.BM_ROLE = 1 && lone.contains (t.fld (.out n) Reg.Out.BM_GROUP))
  mains.flatMap (fun n =>
    match c.holder (.out n) with
    | some h => badIf true h rBadValue
    | none =>
      let g := t.fld (.out n) Reg.Out.BM_GROUP
      (List.range t.model.outputs).flatMap (fun k =>
        if s.outActive k && s.fld (.out k) Reg.Out.BM_ROLE = 2 && s.fld (.out k) Reg.Out.BM_GROUP = g then
          match c.holder (.out k) with
          | some h => badIf true h rBadValue
          | none => []
        else []))

/-- Taps the monitor takes in a configuration. -/
def State.monitorUse (t : State) : Nat :=
  t.monitorTaps (t.bit .monitor Reg.Hdr.ENABLE) (t.fld .monitor Reg.Monitor.CTRL_HRIR_SEL) (virtUsed (t.fld .monitor))

/-- Taps that a configuration takes from the pool (R211). -/
def State.tapUse (s t : State) : Nat :=
  (s.outs.map (·.1)).foldl (fun a n => a + s.selLength n (t.fld (.out n) Reg.Out.CORR_SEL)) 0 + t.monitorUse

/-- The machine with the commits that have passed prepare applied, in the order of their apply samples: they hold what
they have been granted. -/
def State.afterPending (s : State) : State :=
  (((s.fab.commits.filter (fun c => c.prepared && !c.applied)).insertionSort (fun a b => a.applyAt ≤ b.applyAt)).foldl
    (fun t c => t.after c) s)

/-- R211: the tap pool after the commit, whether it applies before or after those that are pending; it counts against
the captured units that take more than before. -/
def State.badTaps (s t : State) (c : Commit) : List Bad :=
  let outs := (s.outs.map (·.1))
  if s.tapUse t ≤ s.model.taps && s.tapUse (s.afterPending.after c) ≤ s.model.taps then []
  else
    outs.flatMap (fun n => badIf (c.has (.out n) &&
      s.selLength n (s.fld (.out n) Reg.Out.CORR_SEL) < s.selLength n (t.fld (.out n) Reg.Out.CORR_SEL)) (.out n) rNoCapacity) ++
    badIf (c.has .monitor && s.monitorUse < t.monitorUse) .monitor rNoCapacity

def State.badMonitor (s t : State) (c : Commit) : List Bad :=
  let b := Blk.monitor
  let on := t.bit b Reg.Hdr.ENABLE
  let k := t.fld b Reg.Monitor.DEST_TDM
  let h := t.hrir
  let wrong := on && h.taps ≠ 0 && h.rate ≠ t.fld .render Reg.Render.CFG_RATE
  (if c.has b then
    absentIf (t.model.tdms ≤ k) b ++
    badIf (k < t.model.tdms && (t.fld (.tdm k) Reg.Tdm.TX_CFG_SLOTS < t.fld b Reg.Monitor.DEST_SLOT_L ||
      t.fld (.tdm k) Reg.Tdm.TX_CFG_SLOTS < t.fld b Reg.Monitor.DEST_SLOT_R) && on) b rBadValue ++
    badIf (on && (!(t.port (.tdmTx k)).sync || wrong)) b rRateMismatch ++
    (List.range 64).flatMap (fun v =>
      let o := t.fld b (Reg.Monitor.VIRT_OUT v)
      let el := signed 16 (t.fld b (Reg.Monitor.VIRT_EL v))
      absentIf (t.model.outputs ≤ o) b ++ badIf (el < -23040 || 23040 < el) b rBadValue ++
      badIf (on && t.bit b (Reg.Monitor.VIRT_EN v) && t.nowOutputs ≤ o && o < t.model.outputs) b rNoCapacity)
  else badIf (c.newRate s && wrong) .render rRateMismatch)

/-! Chains, generators, profiles, channels (R231 to R234, R240, R246, R262, R272, R287) -/

/-- The chains that hold a role reserved to render-rate chains in the configuration `t` (R233). -/
def State.chainRoles (t : State) : List Nat :=
  let objs := ((List.range t.model.objects).filter (fun n => t.objActive n && (t.objSourceNow n).type = 6)).map
    (fun n => (t.objSourceNow n).unit)
  let routes := ((List.range 2048).filter (fun r => t.routeOn r &&
    t.fld (.route r) Reg.Route.SRC_TYPE = 6)).map (fun r => t.fld (.route r) Reg.Route.SRC_UNIT)
  let camp := ((t.measure.campaign.filter (·.phase ≠ .ended)).map (fun q => (List.range 56).filter q.desc.chains.testBit)).getD []
  let probe := (t.measure.probe.map (fun p => (List.range 56).filter p.mask.testBit)).getD []
  let supply := (List.range 2).map (fun g => t.fld .psGlobal (Reg.PsGlobal.SUPPLY_CHAIN g))
  objs ++ routes ++ camp ++ probe ++ supply

/-- Is a chain named by a campaign, a probe or a capture to memory? -/
def State.chainNamed (s : State) (c : Nat) : Bool :=
  (s.measure.campaign.any (fun q => q.phase ≠ .ended && q.desc.chains.testBit c)) ||
    s.measure.probe.any (fun p => p.mask.testBit c) || s.measure.c2m.any (fun q => q.mask.testBit c)

def State.badCapture (s t : State) (c : Commit) : List Bad :=
  let b := Blk.capture
  let lost := fun (k : Nat) => s.renderRate k && !t.renderRate k
  let roles := if c.has b || c.newRate s then t.chainRoles.filter (fun k => decide (k < 56) && lost k) else []
  badIf (!roles.isEmpty) (if c.newRate s then .render else b) rRateMismatch ++
  (if c.has b then
    ((List.range 56).filter (chainPresent t.model)).flatMap (fun k =>
      let (r, hb, _) := t.decim k
      let scm := t.scMode k
      badIf (!scm && (192000 * periods false r hb < fMod k || fMod k % periods false r hb ≠ 0)) b rBadValue ++
      badIf (scm && (k < 48 || r < 64)) b rBadValue ++
      badIf (s.bit b (Reg.Capture.CH_CTRL_EN k) && !t.bit b (Reg.Capture.CH_CTRL_EN k) && s.chainNamed k) b rBadValue)
  else [])

def State.badMeasure (t : State) : List Bad :=
  (List.range 16).flatMap (fun g =>
    let b := Blk.measure
    let ty := t.fld b (Reg.Measure.GEN_CTRL_TYPE g)
    let f1 := t.fld b (Reg.Measure.GEN_F1 g)
    let f2 := t.fld b (Reg.Measure.GEN_F2 g)
    let len := t.fld b (Reg.Measure.GEN_LENGTH g)
    badIf (ty = 4 && (f1 < 10 * 65536 || f2 ≤ f1 || 45 * t.fs * 65536 < 100 * f2 || len < 12 || 20 < len)) b rBadValue ++
    badIf (ty = 3 && (len < 10 || 16 < len)) b rBadValue)

def State.badProtect (t : State) : List Bad :=
  (List.range 48).flatMap (fun p =>
    badIf (t.fld .protect (Reg.Protect.P_T_MAX p) < t.fld .protect (Reg.Protect.P_T_FOLD p) + 10) .protect rBadValue)

/-- A channel's supply chain: none, or a render-rate AUX chain. -/
def State.badSupply (s t : State) : List Bad :=
  let b := Blk.psGlobal
  (List.range 2).flatMap (fun g =>
    let k := t.fld b (Reg.PsGlobal.SUPPLY_CHAIN g)
    badIf (k ≠ 0x3F && (k < 48 || 55 < k || !t.renderRate k)) b rBadValue) ++
  (List.range t.model.pss).flatMap (fun k =>
    badIf (t.fld b (Reg.PsGlobal.STAGGER k) ≠ s.fld b (Reg.PsGlobal.STAGGER k) && (s.psOf k).runs) b rBadValue)

/-- The channels: their feeding outputs and their sense clocks. A pair that shares an output counts against
whichever of its pages is captured. -/
def State.badPs (s t : State) (c : Commit) : List Bad :=
  let on := (List.range t.model.pss).filter t.psOn
  (List.range t.model.pss).flatMap (fun k =>
    let b := Blk.ps k
    match (if c.has b then some b else if c.has .psGlobal then some .psGlobal else none) with
    | none => []
    | some h =>
      let src := t.psSource k
      let clk := t.bit .capture (if k < 8 then Reg.Capture.CLK_EN_SNS0 else Reg.Capture.CLK_EN_SNS1)
      absentIf (h = b && t.model.outputs ≤ src) b ++
      badIf (t.psOn k && !s.psOn k && !clk) h rBadValue ++
      badIf (t.psOn k && on.any (fun j => j ≠ k && t.psSource j = src)) h rBadValue ++
      badIf (t.psOn k && t.nowOutputs ≤ src && src < t.model.outputs) h rNoCapacity)

/-! Ports (R292 to R297, R304, R310, R316) -/

/-- The words that set up a section. -/
def sectionWords (p : Port) (f : Fld) : Bool :=
  match p with
  | .tdmRx _ => 0x40 ≤ f.off && f.off < 0x60
  | .tdmTx _ => 0x60 ≤ f.off && f.off < 0x100
  | .aesRx _ => true

/-- Does the commit change the section's configuration? -/
def State.sectionChanges (s t : State) (p : Port) : Bool :=
  let b := portBlk p
  b.fields.any (fun f => f.acc = .rw && sectionWords p f && t.fld b f ≠ s.fld b f)

/-- Does it change more than the masks, which apply without a clock too (R316)? -/
def State.sectionReconf (s t : State) (p : Port) : Bool :=
  let b := portBlk p
  b.fields.any (fun f => f.acc = .rw && sectionWords p f && f ≠ Reg.Tdm.RX_MASK && f ≠ Reg.Tdm.TX_MASK &&
    t.fld b f ≠ s.fld b f)

/-- The limits of R292, whether or not the section runs. -/
def State.badSection (t : State) (p : Port) : List Bad :=
  let b := portBlk p
  let get := fun (rx tx : Fld) => t.fld b (portPick p rx tx rx)
  let bits := (t.portFrame p).1
  let limits := match t.portClock p with
    | some f => let d := t.portDivider p
      f ≠ 0 && (49152000 * d < f || f < 8000 * (d * bits) || 192000 * (d * bits) < f)
    | none => 49152000 * 256 < t.sectionRate p * bits
  match p with
  | .aesRx _ => []
  | _ =>
    badIf (get Reg.Tdm.RX_CFG_FORMAT Reg.Tdm.TX_CFG_FORMAT < 2 && get Reg.Tdm.RX_CFG_SLOTS Reg.Tdm.TX_CFG_SLOTS ≠ 1) b rBadValue ++
    badIf (tdmBits (get Reg.Tdm.RX_CFG_WIDTH Reg.Tdm.TX_CFG_WIDTH) < tdmBits (get Reg.Tdm.RX_CFG_DATA_BITS Reg.Tdm.TX_CFG_DATA_BITS)) b rBadValue ++
    badIf ((match p with
      | .tdmTx k => t.fld (.tdm k) Reg.Tdm.TX_CFG_CLKSRC = 3
      | _ => false) || limits) b rBadValue

/-- Does the commit set bypass, or name a bypassed section as a destination of outputs (R296)? -/
def State.bypassNamed (s t : State) (p : Port) : Bool :=
  !t.portAsrc p && (s.portAsrc p ||
    (match p with
     | .tdmTx k => (List.range 32).any (fun j => s.fld (.tdm k) (Reg.Tdm.TX_MAP j) ≠ t.fld (.tdm k) (Reg.Tdm.TX_MAP j))
     | _ => false))

/-- Rates and clocks of a section. -/
def State.badRate (s t : State) (c : Commit) (p : Port) : List Bad :=
  let b := portBlk p
  let rate := t.sectionRate p
  let ratio := t.portEn p && t.portAsrc p && rate ≠ 0 && !(portRatio t.fs rate).2
  if c.has b then
    badIf (ratio || (s.bypassNamed t p && !(s.port p).sync)) b rRateMismatch ++
    badIf (t.portEn p && (s.sectionReconf t p || s.portHeld p) && t.clockAbsent p) b rClockAbsent
  else badIf (ratio && c.newRate s) .render rRateMismatch

/-- The outputs that a port page names. -/
def State.badTdmMap (t : State) (k : Nat) : List Bad :=
  let b := Blk.tdm k
  (List.range 32).flatMap (fun j =>
    let o := t.fld b (Reg.Tdm.TX_MAP j)
    absentIf (t.model.outputs ≤ o) b ++
    badIf (t.portEn (.tdmTx k) && (t.fld b Reg.Tdm.TX_MASK).testBit j && j < t.portSlots (.tdmTx k) &&
      t.nowOutputs ≤ o && o < t.model.outputs) b rNoCapacity)

def State.badAesTx (t : State) (k : Nat) : List Bad :=
  let b := Blk.aesTx k
  [Reg.AesTx.SRC_A, Reg.AesTx.SRC_B].flatMap (fun f =>
    absentIf (t.model.outputs ≤ t.fld b f) b ++
    badIf (t.bit b Reg.AesTx.CTRL_EN && t.nowOutputs ≤ t.fld b f && t.fld b f < t.model.outputs) b rNoCapacity)

/-- R297: 1,024 port channels in ASRC use; it counts against the captured ports. -/
def State.badAsrc (s t : State) (c : Commit) : List Bad :=
  if asrcUse t.fab.act t.model ≤ 1024 then []
  else (c.blks.filter (fun b => (sectionsOf b).any (s.sectionChanges t))).flatMap (fun b => badIf true b rNoCapacity)

/-! Network (R317, R322, R323, R329, R332, R336, R340) and time (R351, R352, R370) -/

def State.badMac (t : State) (p : Nat) : List Bad :=
  let b := Blk.ethMac p
  let mode := t.fld b Reg.EthMac.CFG_MODE
  let fec := t.fld b Reg.EthMac.CFG_FEC
  let modes := if p < 2 then mode < 2 else 1 ≤ mode ∧ mode < 5
  let fecs := fec = 0 ∨ (fec = 1 ∧ mode < 2) ∨ (fec = 2 ∧ mode = 0)
  badIf (!(decide modes && decide fecs)) b rBadValue ++
  absentIf ((List.range 4).any (fun i => t.model.seats ≤ t.fld b (Reg.EthMac.XQ_SEAT i))) b

def State.badGate (t : State) (p : Nat) (b : Blk) : List Bad :=
  badIf ((List.range 8).any (fun q => t.ethMbps p * 1000 < t.slope p q)) b rBadValue

/-- The program of a port: no reserved code, no skip beyond its end, no stream of another port. -/
def State.badProgram (t : State) (p : Nat) : List Bad :=
  let len := t.fld (.ethCls p) Reg.EthCls.LENGTH
  (List.range len).flatMap (fun pc =>
    let (w, operand) := t.clsInstr p pc
    let op := bitsOf w 31 28
    let skips := op = 1 || op = 2 || op = 3 || op = 4
    badIf (0xA < op || ((op = 1 || op = 2 || op = 3) && 8 < bitsOf w 27 24) ||
      (skips && len < pc + 1 + bitsOf w 23 16) ||
      (op = 5 && t.fld (.ingress (operand.toNat % 256)) Reg.Ingress.CTRL_PORT ≠ p)) (.ethCls p) rBadValue)

/-- Samples per packet that a format admits: AAF 2 to 64, AES67 its packet times, CRF 1 to 8. -/
def State.spfGood (t : State) (format spf : Nat) : Bool :=
  match format with
  | 0 => 2 ≤ spf && spf ≤ 64
  | 1 => [6, 12, 16, 48].any (fun k => k * t.rateMul = spf)
  | _ => 1 ≤ spf && spf ≤ 8

/-- Channels of the enabled streams of a direction. -/
def State.streamChannels (t : State) (b : Nat → Blk) (en channels : Fld) : Nat :=
  (List.range 256).foldl (fun a n => if t.bit (b n) en then a + t.fld (b n) channels else a) 0

def State.badIngress (t : State) (n : Nat) : List Bad :=
  let b := Blk.ingress n
  let format := t.fld b Reg.Ingress.CTRL_FORMAT
  let named := t.altDomain n &&
    ((List.range t.model.objects).any (fun k => t.objActive k && (t.objSourceNow k).type = 1 && (t.objSourceNow k).unit = n) ||
      (List.range 2048).any (fun r => t.routeOn r && t.fld (.route r) Reg.Route.SRC_TYPE = 1 &&
        t.fld (.route r) Reg.Route.SRC_UNIT = n))
  absentIf (t.model.eths ≤ t.fld b Reg.Ingress.CTRL_PORT) b ++
  badIf (!t.spfGood format (t.fld b Reg.Ingress.FMT_SPF) || (format = 1 && 1 < t.fld b Reg.Ingress.FMT_SAMPLE)) b rBadValue ++
  badIf named b rRateMismatch

/-- The checks of one egress record, those of R332 where the commit leaves it enabled; they count against unit
`h`. Outputs that are present and over capacity fail for want of capacity (R6) as much as by R332: which of the two
reasons is given is open (log entry 12). -/
def State.badEgress (t : State) (n : Nat) (h : Blk) : List Bad :=
  let b := Blk.egress n
  let g := fun x => t.fld b x
  let p := g Reg.Egress.CTRL_PORT
  let format := g Reg.Egress.CTRL_FORMAT
  let cls := g Reg.Egress.CTRL_CLASS
  let spf := g Reg.Egress.FMT_SPF
  let body := match format with
    | 2 => 24 + 8 * spf
    | 1 => 40 + g Reg.Egress.FMT_CHANNELS * spf * (if g Reg.Egress.FMT_SAMPLE = 0 then 2 else 3)
    | _ => 24 + g Reg.Egress.FMT_CHANNELS * spf * [2, 3, 4, 4].getD (g Reg.Egress.FMT_SAMPLE) 2
  let use := t.queueUse p (g Reg.Egress.CTRL_QUEUE)
  let last := g Reg.Egress.FIRST_OUT + (if format = 2 then 1 else g Reg.Egress.FMT_CHANNELS)
  let above := g Reg.Egress.CTRL_ENABLE = 1 && format ≠ 2 && t.nowOutputs < last
  absentIf (t.model.eths ≤ p || t.model.outputs < last) h ++
  badIf (above && last ≤ t.model.outputs) h rNoCapacity ++
  badIf (!t.spfGood format spf || (format = 1 && 1 < g Reg.Egress.FMT_SAMPLE)) h rBadValue ++
  badIf (g Reg.Egress.CTRL_ENABLE = 1 && (t.ethMtu p < body || use ≠ cls + 2 || above ||
    (g Reg.Egress.CTRL_SR_A = 1 &&
      (cls ≠ 0 || use ≠ 2 || t.slope p (g Reg.Egress.CTRL_QUEUE) = 0 || spf ≠ 6 * t.rateMul)))) h rBadValue

/-- Does the summed wire load of a shaped queue exceed its slope? Packets per second are f_s / `S`. -/
def State.overSlope (t : State) (p q : Nat) : Bool :=
  let mine := (List.range 256).filter (fun n => t.bit (.egress n) Reg.Egress.CTRL_ENABLE &&
    t.fld (.egress n) Reg.Egress.CTRL_PORT = p && t.fld (.egress n) Reg.Egress.CTRL_QUEUE = q)
  let load := mine.foldl (fun (a : Nat × Nat) n =>
    let S := max 1 (t.egSpan n)
    (a.1 * S + 8 * (t.egLen n + 20) * t.fs * a.2, a.2 * S)) (0, 1)
  t.slope p q ≠ 0 && t.slope p q * 1000 * load.2 < load.1

/-- What the commit leaves of the egress side of a port: streams already enabled are checked against changed MTU,
queue uses and slopes too. -/
def State.badEgressPort (t : State) (c : Commit) (p : Nat) : List Bad :=
  let h := if c.has (.ethMac p) then some (Blk.ethMac p) else if c.has (.ethGate p) then some (.ethGate p) else none
  let mine := (List.range 256).filter (fun n => t.bit (.egress n) Reg.Egress.CTRL_ENABLE &&
    t.fld (.egress n) Reg.Egress.CTRL_PORT = p)
  (match h with
    | some h => (mine.filter (fun n => !c.has (.egress n))).flatMap (fun n => t.badEgress n h)
    | none => []) ++
  ((List.range 8).filter (t.overSlope p)).flatMap (fun q =>
    (mine.filter (fun n => c.has (.egress n) && t.fld (.egress n) Reg.Egress.CTRL_QUEUE = q)).flatMap
      (fun n => badIf true (.egress n) rNoCapacity) ++
    (h.map (fun h => badIf true h rNoCapacity)).getD [])

/-- At most 2,048 channels in each direction. -/
def State.badChannels (s t : State) (c : Commit) : List Bad :=
  (if 2048 < t.streamChannels .ingress Reg.Ingress.CTRL_ENABLE Reg.Ingress.FMT_CHANNELS then
    ((List.range 256).filter (fun n => c.has (.ingress n) && t.bit (.ingress n) Reg.Ingress.CTRL_ENABLE &&
      (!s.bit (.ingress n) Reg.Ingress.CTRL_ENABLE ||
        s.fld (.ingress n) Reg.Ingress.FMT_CHANNELS < t.fld (.ingress n) Reg.Ingress.FMT_CHANNELS))).flatMap
      (fun n => badIf true (.ingress n) rNoCapacity)
  else []) ++
  (if 2048 < t.streamChannels .egress Reg.Egress.CTRL_ENABLE Reg.Egress.FMT_CHANNELS then
    ((List.range 256).filter (fun n => c.has (.egress n) && t.bit (.egress n) Reg.Egress.CTRL_ENABLE &&
      (!s.bit (.egress n) Reg.Egress.CTRL_ENABLE ||
        s.fld (.egress n) Reg.Egress.FMT_CHANNELS < t.fld (.egress n) Reg.Egress.FMT_CHANNELS))).flatMap
      (fun n => badIf true (.egress n) rNoCapacity)
  else [])

/-- The row of each profile: LOG_SYNC from, to, LOG_ANNOUNCE from, to, transports (0 Layer 2, 1 UDP). -/
def profileRow (k : Nat) : Int × Int × Int × Int × List Nat :=
  match k with
  | 0 => (-5, 0, -3, 3, [0])
  | 1 | 2 => (-4, 1, 0, 4, [0, 1])
  | 3 => (-4, 1, 0, 4, [1])
  | _ => (-7, -1, -3, 1, [1])

def State.badTime (t : State) (i : Nat) : List Bad :=
  let b := Blk.time i
  let g := fun x => t.fld b x
  let (s0, s1, a0, a1, tr) := profileRow (g (Reg.Time.CFG_PROFILE i))
  let sync := signed 8 (g Reg.Time.LOG_SYNC)
  let ann := signed 8 (g Reg.Time.LOG_ANNOUNCE)
  let port := g (Reg.Time.CFG_PORT i)
  let other := 1 - i
  absentIf ((port < 4 && t.model.eths ≤ port) || (port = 4 && t.model.eths < 4)) b ++
  badIf (127 < g (Reg.Time.CFG_DOMAIN i) || sync < s0 || s1 < sync || ann < a0 || a1 < ann ||
    !tr.contains (g Reg.Time.CFG_TRANSPORT) || (port = 4 && !t.bit (.ethMac 2) Reg.EthMac.BRIDGE_EN) ||
    (port = t.fld (.time other) (Reg.Time.CFG_PORT other) &&
      g (Reg.Time.CFG_DOMAIN i) = t.fld (.time other) (Reg.Time.CFG_DOMAIN other))) b rBadValue

/-! The result -/

/-- The records that a commit activates by their page's ENABLE alone: a change of ENABLE acts on each as its own
change would, so it is checked as that change would be (R80, R593). -/
def State.enabledBy (s t : State) (c : Commit) (b : Blk) : List Blk :=
  if t.bit b Reg.Hdr.ENABLE && !s.bit b Reg.Hdr.ENABLE then (recordsOf b).filter (!c.has ·) else []

/-- The checks that belong to one captured unit. -/
def State.badUnit (s t : State) (c : Commit) (b : Blk) : List Bad :=
  match b with
  | .obj n => s.badObj t c n
  | .objPage _ => (s.enabledBy t c b).flatMap (fun u => match u with
    | .obj n => if t.objActive n then s.badObj t c n else []
    | _ => [])
  | .route r => t.badRoute r
  | .routePage _ => (s.enabledBy t c b).flatMap (fun u => match u with
    | .route r => if t.routeOn r then t.badRoute r else []
    | _ => [])
  | .bus n => t.badBus n
  | .busPage _ => (s.enabledBy t c b).flatMap (fun u => match u with
    | .bus n => if t.busActive n then t.badBus n else []
    | _ => [])
  | .out n => s.badSel t n
  | .measure => t.badMeasure
  | .protect => t.badProtect
  | .psGlobal => s.badSupply t
  | .tdm k => t.badSection (.tdmRx k) ++ t.badSection (.tdmTx k) ++ t.badTdmMap k
  | .aesTx k => t.badAesTx k
  | .ethMac p => t.badMac p ++ t.badGate p b
  | .ethGate p => t.badGate p b
  | .ethCls p => t.badProgram p
  | .ingress n => t.badIngress n
  | .egress n => t.badEgress n b
  | .time i => t.badTime i
  | .mediaClk => badIf (t.fld b Reg.MediaClk.SEL ≠ s.fld b Reg.MediaClk.SEL && s.servo (t.fld b Reg.MediaClk.SEL) ≠ 2) b rBadValue
  | _ => []

/-- Every port of the model. -/
def State.allPorts (s : State) : List Port :=
  (List.range s.model.tdms).flatMap (fun k => [Port.tdmRx k, .tdmTx k]) ++ (List.range s.model.aes).map .aesRx

/-- Every failed check of a commit. -/
def State.failures (s : State) (c : Commit) : List Bad :=
  let t := s.after c
  c.blks.flatMap (fun b => s.badFields c b ++ s.badUnit t c b) ++
  s.badAnnounce t c ++ s.badLeads t c ++ t.badCapacity c ++ s.badLayout t c ++ s.badMains t c ++ s.badTaps t c ++ s.badMonitor t c ++
  s.badCapture t c ++ s.badPs t c ++ s.allPorts.flatMap (fun p => s.badRate t c p) ++ s.badAsrc t c ++
  s.badChannels t c ++ (List.range s.model.eths).flatMap (fun p => t.badEgressPort c p)

/-- REASON and PAGE of a failed prepare: the lowest-addressed failing page. A commit that names an absent unit does not fail
for want of capacity: where its lowest page fails for nothing else, it is BAD_VALUE on the page of the absent one (R5, R7).
Which of several reasons of one page is given is open. -/
def State.verdict (s : State) (l : List Bad) : (Nat × Nat) × State :=
  let low := fun (l : List Bad) => l.foldl (fun a b => min a b.page) 0xFFFFFF
  let p := low l
  let gone := l.filter (·.absent)
  let rs := (((l.filter (·.page = p)).map (·.reason)).filter (fun r => gone.isEmpty || r ≠ rNoCapacity)).eraseDups
  match rs with
  | [] => (if gone.isEmpty then (rNone, 0) else (rBadValue, low gone), s)
  | [r] => ((r, p), s)
  | r :: _ =>
    let (v, s) := s.fresh
    ((rs.getD (v % rs.length) r, p), s)

end Sys2Proof.Machine
end

