-- ==== Sys2Proof/Machine/Commit.lean ====
section
/-! DEFINITION. The end of prepare, the application of a commit and of its slow-domain units, and units that are lost
(R22, R23, R68 to R74, R82, R119, R134, R234, R441 to R444, R492). -/

namespace Sys2Proof.Machine

open Sys2Proof

/-! The apply sample -/

/-- The first multiple of `m` at or after `i`. -/
def roundUpTo (m i : Nat) : Nat := (i + m - 1) / m * m

/-- The apply sample of a commit whose prepare has just passed, and whether it is late (R22, R23, R69, R71, R72).
A block boundary is one of the block size in force now: a change of block size that is still pending is not counted
(DESIGN CHOICE, log entry 28). The commit of a FILTER_SWAP lands at the first boundary at or after its apply sample, as
R225's example shows (DEDUCED, log entry 28). -/
def State.applySample (s : State) (c : Commit) : Nat × Bool :=
  let p := s.render.rsi + 1
  let sample := c.kinds.any (·.2 = 0)
  let sample := sample || c.timed
  let base := if sample && !c.next then max c.at_ p else p
  let block := c.kinds.any (·.2 = 1)
  let step := if c.newBlock s && !c.newRate s then 64 else s.blockSize
  if s.stopped then (s.render.rsi, false)
  else (if block then roundUpTo step base else base, sample && !c.next && c.at_ < p)

/-- Replace a commit in flight. -/
def State.setCommit (s : State) (c : Commit) : State :=
  { s with fab := { s.fab with commits := s.fab.commits.map (fun d => if d.serial = c.serial then c else d) } }

/-- The commit in flight with a serial. -/
def State.commitOf (s : State) (serial : Nat) : Option Commit := s.fab.commits.find? (·.serial = serial)

/-- Prepare has passed: the commit is PENDING for its apply sample. -/
def State.prepared (s : State) (c : Commit) : State :=
  let (i, late) := s.applySample c
  let s := s.setCommit { c with prepared := true, applyAt := i, late := late }
  (s.tellPeer (.commitAt c.serial (some i))).report c.by_ c.seat c.serial updPending rNone 0

/-- Prepare ends. In LOCKSTEP the understudy's prepare is part of it, and its answer must have come (R492). -/
def execPrepareDone (serial : Nat) (s : State) : Res :=
  match s.commitOf serial with
  | none => settle s
  | some c =>
    if c.prepared || c.applied || c.by_ = .peer then settle s
    else
      let answer := s.twin.prepared.find? (·.1 = serial)
      if s.lockPri && answer.isNone then settle s
      else
        let peer := match answer with
          | some (_, r, p) => if s.lockPri && r ≠ rNone then [{ page := p, reason := r : Bad }] else []
          | none => []
        let s := { s with twin := { s.twin with prepared := s.twin.prepared.filter (·.1 ≠ serial) } }
        match s.failures c ++ peer with
        | [] => settle (s.prepared c)
        | bad => let ((r, p), s) := s.verdict bad
          settle (s.endCommit c updFailed r p)

/-! What the application of a unit starts -/

/-- A change of SEL, or the enabling of LAYOUT, at sample `i`: the armed bank becomes active, and the objects that
render convert from the old one (R134). -/
def State.selectLayout (s : State) (i : Nat) : State :=
  let sel := s.fld .layout Reg.Layout.SEL
  match s.layouts.armed with
  | some (k, l) =>
    if k ≠ sel then s
    else
      let live := (List.range s.model.objects).filter (fun n =>
        (s.obj n).live || (s.obj n).draining.isSome || s.objActiveAt n (i - 1))
      let order := [0, 1, 2].flatMap (fun cls => live.filter (fun n => min 2 (s.fld (.obj n) Reg.Obj.CTRL_CLASS) = cls))
      let conv := s.layouts.active.isSome && !s.stopped
      let s := { s with layouts := { s.layouts with
        active := some (k, l), armed := none, old := if conv then s.layouts.active else none
        converting := conv, tA := i, left := if conv then order else [] } }
      let s := if conv then order.foldl (fun s n => s.setPathsOf n { s.pathsOf n with onOld := true }) s
        else s.pathObjects.foldl (fun s n => s.setPathsOf n { s.pathsOf n with result := none, dirty := true }) s
      s.showLayouts
  | none => s

/-- The configuration of a PTP instance: a change starts it afresh, and out of service it has lost its master. -/
def State.timeConfig (s : State) (i : Nat) (old : RegMap) : State :=
  let b := Blk.time i
  let was := fun x => regGet old b.base x
  let same := [Reg.Time.CFG_PROFILE i, Reg.Time.CFG_PORT i, Reg.Time.CFG_DOMAIN i, Reg.Time.CFG_TRANSPORT].all
    (fun f => was f = s.fld b f)
  let fresh := !(was Reg.Time.CFG_EN = 1 && s.bit b Reg.Time.CFG_EN && same)
  let s := if was Reg.Time.CFG_EN = 1 && fresh then
      let s := if s.servo i = 0 then s else s.instLost i
      (s.set b Reg.Time.PORT_STATE 0).set b Reg.Time.PORT_STATE_B 0
    else s
  if fresh && s.bit b Reg.Time.CFG_EN then s.setInst i { s.inst i with annAt := s.render.tick } else s

/-- What follows from new active values of a unit at sample `i`; `was` is the machine before, `old` the unit's words
then. Values that jobs and engines read by sample need nothing here. -/
def State.applied (s was : State) (b : Blk) (old : RegMap) (i : Nat) : State :=
  let changed := fun (f : Fld) => decide (regGet old b.base f ≠ s.fld b f)
  match b with
  | .out n =>
    let s := if changed Reg.Out.CORR_SEL then s.swap n i (was.outActive n) else s
    if changed Reg.Out.PROT_T_EN && !s.bit b Reg.Out.PROT_T_EN then s.thermOff n i else s
  | .layout => if changed Reg.Layout.SEL || changed Reg.Hdr.ENABLE then s.selectLayout i else s
  | .capture => (List.range 56).foldl (fun s c => if chainPresent s.model c then s.showChain c else s) s
  | .psGlobal => s.psEnables
  | .ps k => s.psEnable k
  | .monitor => s.showMonitor.showCorrect
  | .tdm k => (s.portConfig (.tdmRx k) old).portConfig (.tdmTx k) old
  | .aesRx k => s.portConfig (.aesRx k) old
  | .ethMac p =>
    let s := if changed Reg.EthMac.CFG_EN || changed Reg.EthMac.CFG_MODE || changed Reg.EthMac.CFG_FEC then s.linkDown p else s
    s.showCredits p
  | .ethGate p => s.gateCommit p old
  | .ingress n => (s.ingConfig n old).countChannels
  | .egress n => (s.egConfig n old).countChannels
  | .time k => s.timeConfig k old
  | .mediaClk => if changed Reg.MediaClk.SEL then s.selectInst (s.fld b Reg.MediaClk.SEL) false else s
  | _ => s

/-- The words of a unit in the active view. -/
def State.unitWords (s : State) (b : Blk) : RegMap := Map.only (ownsKey b) s.fab.act

/-- New active words of a unit, in force from sample `i` on. -/
def State.newWords (s : State) (b : Blk) (act : RegMap) (i : Nat) : State :=
  if act = s.fab.act then s else ((s.noteChange b i).withAct act)

/-- A unit of a commit applies at sample `i`: its captured values become active, a captured MOTION.CMD takes effect,
its page shows the serial, and fault-hold ends (R73, R82, R442). -/
def State.applyUnit (s was : State) (c : Commit) (i : Nat) (b : Blk) : State :=
  let old := s.unitWords b
  let s := s.newWords b (takeUnit s.fab.act c.vals b) i
  let s := if c.by_ = .peer then s.withStg (takeUnit s.fab.stg c.vals b) else s
  let s := match b with
    | .obj n =>
      let cmd := regGet c.vals b.base Reg.Obj.MOTION_CMD
      if cmd = 1 ∨ cmd = 2 then (s.motionCmd n (cmd = 1) i).setStg b Reg.Obj.MOTION_CMD 0 else s
    | _ => s
  let s := (s.applied was b old i).unhold b
  s.set b.page Reg.Hdr.APPLIED_COMMIT c.serial

/-! The commit applies -/

/-- Does the unit wait for an edge of a clock of its own (R71, R441)? The greenroom and jack pages always do; a port
page does for a section that runs and changes, or is in fault-hold; a change that needs no clock does not wait for an
absent one (R316). -/
def State.waitsForClock (s : State) (c : Commit) (b : Blk) : Bool :=
  let t := s.withAct (takeUnit s.fab.act c.vals b)
  match b with
  | .greenroom | .jack => t.fab.act ≠ s.fab.act
  | _ => (sectionsOf b).any (fun p =>
      (s.sectionChanges t p || s.portHeld p) && (s.portEn p || t.portEn p) &&
        ((t.portEn p && (s.sectionReconf t p || s.portHeld p)) || !t.clockAbsent p))

/-- The commit's result is final once its slowest unit has applied or is lost (R441). -/
def State.finalResult (s : State) (c : Commit) : State :=
  if !c.waiting.isEmpty then s.setCommit c
  else
    let s := { s with fab := { s.fab with commits := s.fab.commits.filter (·.serial ≠ c.serial) } }
    let pages := c.lost.map pageIndex ++ c.peerLost.toList
    match pages with
    | [] => s.report c.by_ c.seat c.serial updApplied (if c.late then rLate else rNone) 0
    | p :: ps => s.report c.by_ c.seat c.serial updSplit rUnitLost (ps.foldl min p)

/-- Before the units of a rate-change commit: the campaign stops, the render stops at this boundary, device time is
counted at the new rate (R23, R255, R350). -/
def State.rateStop (s : State) (c : Commit) : State :=
  let s := s.campaignRate
  let s := if s.clocked then s.restartRender c.serial else s
  s.newRate (if regGet c.vals Blk.render.base Reg.Render.CFG_RATE = 1 then 96000 else 48000)

/-- After them: chains are carried, banks are flushed, sections relock (R227, R234, R316). -/
def State.rateDone (s : State) (was : Nat) : State :=
  let old := s.set .render Reg.Render.CFG_RATE was
  let s := s.carryChains old.rateChains (s.fld .render Reg.Render.CFG_RATE = 1) true
  let s := (List.range 56).foldl (fun s c => if chainPresent s.model c then s.showChain c else s) s
  let s := if s.render.starting then { s with render := { s.render with startTick := s.render.tick + s.clearTime } } else s
  (s.corrFlush.portsRender).showDevice

/-- The render-domain units apply at the apply sample; slow-domain units follow at edges of their own clocks. -/
def State.applyCommit (s : State) (c : Commit) : State :=
  let was := s
  let rate := c.newRate s
  let block := c.newBlock s && !rate && s.clocked
  let i := if s.stopped then s.render.rsi else c.applyAt
  let slow := c.blks.filter (s.waitsForClock c)
  let s := if rate then s.rateStop c else s
  let s := (c.blks.filter (fun b => !slow.contains b)).foldl (fun s b => s.applyUnit was c i b) s
  let s := if rate then s.rateDone (was.fld .render Reg.Render.CFG_RATE) else s
  let s := if block then s.renderReset i else s
  let c := { c with applied := true, applyAt := i, tick := s.render.tick, waiting := slow }
  let s := { s with twin := { s.twin with commitSince := true } }
  ((s.setCommit c).showPending.reportAppliedAt c i).finalResult c

/-- The apply sample has come; while no render runs a commit applies as soon as prepare has passed (R71, R72). -/
def execCommitApply (serial : Nat) (s : State) : Res :=
  match s.commitOf serial with
  | some c => settle (if c.prepared && !c.applied && (s.stopped || c.applyAt ≤ s.render.rsi) then s.applyCommit c else s)
  | none => settle s

/-- A slow-domain unit applies at an edge of its clock. -/
def execSlowUnitApply (serial : Nat) (b : Blk) (s : State) : Res :=
  match s.commitOf serial with
  | some c =>
    if c.applied && c.waiting.contains b then
      let s := s.applyUnit s c s.nextSample b
      settle (s.finalResult { c with waiting := c.waiting.filter (· ≠ b) })
    else settle s
  | none => settle s

/-- A unit has not applied within its window: fault-hold, with the captured values staged (R442). The window is at least
one block; the two periods of the slow clock are the sender's. -/
def execUnitLost (serial : Nat) (b : Blk) (s : State) : Res :=
  match s.commitOf serial with
  | some c =>
    if c.applied && c.waiting.contains b && c.tick + s.blockSize ≤ s.render.tick then
      let s := (s.withStg (takeFields s.fab.stg c.vals b)).setPending b true
      let s := { s with fab := { s.fab with held := (s.fab.held.filter (fun (h : Blk × Nat) => h.1 ≠ b)) ++ [(b, serial)] } }.showHeld
      let s := s.tellPeer (.unitLost serial (pageIndex b))
      settle (s.finalResult { c with waiting := c.waiting.filter (· ≠ b), lost := c.lost ++ [b] })
    else settle s
  | none => settle s

end Sys2Proof.Machine
end

