-- ==== Sys2Proof/Machine/Access.lean ====
section
/-! DEFINITION. Register accesses: what a read returns and clears, which writes are refused and why, what an accepted
write does, and mirror pages (R5, R12, R13, R42 to R65, R171, R348, R357 to R359, R431, R478, R492). -/

namespace Sys2Proof.Machine

open Sys2Proof

/-! Words -/

/-- The fields of a unit in the word at an offset. -/
def wordFields (b : Blk) (off : Nat) : List Fld := b.allFields.filter (·.off = off)

/-- Is a field read through the mirror copy (R61)? Of the header, events and INT_SRC of the greenroom and its jacks are
copies; STATE of a TDM section and of an AES3 receiver is not (R312, R313). -/
def copied (b : Blk) (f : Fld) : Bool :=
  mirrored b f.off &&
  match b with
  | .greenroom | .jack => f = Reg.Hdr.EVENTS || f = Reg.Hdr.INT_SRC || 0x40 ≤ f.off
  | .tdm _ => f ≠ Reg.Tdm.STATUS_RX_STATE && f ≠ Reg.Tdm.STATUS_TX_STATE
  | .aesRx _ => f ≠ Reg.AesRx.STATE
  | _ => true

/-- The words that a read of a low word latches: 64-bit values, time values and timestamp entries (R13, R348, R359). -/
def latchedWith (b : Blk) (off : Nat) : List Nat :=
  let pair := fun (l : List (Fld × Fld)) => ((l.filter (fun e => e.1.off = off)).map (fun e => e.2.off)).eraseDups
  if timeIndex b off = some 0 then [off + 4, off + 8, off + 12]
  else match b with
  | .updateBank _ => pair [(Reg.Update.UPD_AT_LO, Reg.Update.UPD_AT_HI), (Reg.Update.UPD_APPLIED_AT_LO, Reg.Update.UPD_APPLIED_AT_HI)]
  | .device => pair [(Reg.Device.SERIAL_LO, Reg.Device.SERIAL_HI)]
  | .curtain => pair [(Reg.Curtain.CLOSED_AT_LO, Reg.Curtain.CLOSED_AT_HI)]
  | .ps _ => pair [(Reg.Ps.LATCHED_AT_LO, Reg.Ps.LATCHED_AT_HI)]
  | .aesRx _ => pair [(Reg.AesRx.NA_BUF_LO, Reg.AesRx.NA_BUF_HI)]
  | .ingress _ => pair [(Reg.Ingress.STREAM_ID_LO, Reg.Ingress.STREAM_ID_HI)]
  | .egress _ => pair [(Reg.Egress.STREAM_ID_LO, Reg.Egress.STREAM_ID_HI)]
  | .ethGate _ => pair [(Reg.EthGate.BASE_SEC_LO, Reg.EthGate.BASE_SEC_HI), (Reg.EthGate.BASE_SEC_LO, Reg.EthGate.BASE_NS),
      (Reg.EthGate.CHANGE_SEC_LO, Reg.EthGate.CHANGE_SEC_HI), (Reg.EthGate.CHANGE_SEC_LO, Reg.EthGate.CHANGE_NS)]
  | .ethMac _ => pair ((List.range 4).map (fun i => (Reg.EthMac.XQ_BASE_LO i, Reg.EthMac.XQ_BASE_HI i)))
  | .time _ => pair [(Reg.Time.GM_ID_LO, Reg.Time.GM_ID_HI), (Reg.Time.OFFSET_LO, Reg.Time.OFFSET_HI)]
  | .mediaClk => pair [(Reg.MediaClk.HELD_OFFSET_LO, Reg.MediaClk.HELD_OFFSET_HI), (Reg.MediaClk.INTER_OFFSET_LO, Reg.MediaClk.INTER_OFFSET_HI),
        (Reg.MediaClk.M0_LO, Reg.MediaClk.M0_HI), (Reg.MediaClk.RSI_LO, Reg.MediaClk.RSI_HI)]
  | .seat _ => pair ((List.range 4).flatMap (fun i =>
      [(Reg.Seat.SQ_BASE_LO i, Reg.Seat.SQ_BASE_HI i), (Reg.Seat.CQ_BASE_LO i, Reg.Seat.CQ_BASE_HI i)]))
  | .prompter _ => pair [(Reg.Prompter.MARK_LO, Reg.Prompter.MARK_HI), (Reg.Prompter.TARGET_LO, Reg.Prompter.TARGET_HI),
      (Reg.Prompter.STROBE_APPLIED_AT_LO, Reg.Prompter.STROBE_APPLIED_AT_HI), (Reg.Prompter.SIGNAL_AT_LO, Reg.Prompter.SIGNAL_AT_HI)]
  | .prompterGlobal => pair ((Reg.PrompterGlobal.TC_EDGE_LO, Reg.PrompterGlobal.TC_EDGE_HI) ::
      (List.range 16).map (fun k => (Reg.PrompterGlobal.EDGE_AT_LO k, Reg.PrompterGlobal.EDGE_AT_HI k)))
  | .tsq => pair ((List.range 4).flatMap (fun p => [(Reg.Tsq.Q_ENTRY_W0 p, Reg.Tsq.Q_ENTRY_W1 p),
      (Reg.Tsq.Q_ENTRY_W0 p, Reg.Tsq.Q_ENTRY_W2 p), (Reg.Tsq.Q_ENTRY_W0 p, Reg.Tsq.Q_ENTRY_W3 p)]))
  | .twin => pair [(Reg.Twin.EVENT_AT_LO, Reg.Twin.EVENT_AT_HI)]
  | .ndodom => pair [(Reg.Ndodom.PEER_SERIAL_LO, Reg.Ndodom.PEER_SERIAL_HI)]
  | .dramc => pair [(Reg.Dramc.CE_ADDR_LO, Reg.Dramc.CE_ADDR_HI), (Reg.Dramc.UE_ADDR_LO, Reg.Dramc.UE_ADDR_HI)]
  | _ => []

/-! Values that follow the machine -/

/-- COPY_AGE.AGE: nominal slow periods since the copies of the page were refreshed (R62). A port's period is that of its
own frames, by its measured rate; the rate of a transmitter is f_s (R310). -/
def State.copyAge (s : State) (b : Blk) : Nat :=
  -- 2^8 times the rate at which the copies are refreshed; a section without a measured rate counts render samples
  let age := fun k rate => min 255 ((s.render.tick - Map.get 0 k s.fab.refreshedAt) *
    (if rate = 0 then s.fs * 256 else rate) / (s.fs * 256))
  match b with
  | .greenroom | .jack => age b.base (32768 * 256)
  | .ps _ => age b.base (768000 * 256)
  | .tdm _ => max (age b.base (s.fld b Reg.Tdm.RX_RATE)) (age (b.base + 1) (s.fld b Reg.Tdm.TX_RATE))
  | .aesRx _ => age b.base (s.fld b Reg.AesRx.RATE)
  | .aesTx _ => age b.base 0
  | _ => 0

/-- PAGE_CAP: of an object page, the records within the present capacity and bit 8; of PATH, bit 0. -/
def State.pageCap (s : State) (b : Blk) : Nat :=
  match b with
  | .objPage n => 256 + (List.range 8).foldl (fun m i => if 8 * n + i < s.nowObjects then m + 2 ^ i else m) 0
  | .path => 1
  | _ => 0

/-- STAGED_PENDING of a page: its own, or that of a record in it (R57). The banks of UPDATE show that of its one page. -/
def State.pagePending (s : State) (b : Blk) : Bool := s.isPending b.page || (recordsOf b).any s.isPending

/-- A mask of the positions below `n` where `p` holds. -/
def maskOf (n : Nat) (p : Nat → Bool) : Nat := (List.range n).foldl (fun m i => if p i then m + 2 ^ i else m) 0

/-- Live registers brought up to date: those that follow other state without a command of their own. -/
def State.live (s : State) (b : Blk) : State :=
  match b with
  | .device => s.deviceImage
  | .path => (s.set .path Reg.Path.D_MAX (s.dMax / 256)).set .path Reg.Path.NEAR_LIMIT (s.nNear / 256)
  | .twin => s.set .twin Reg.Twin.SNAP_AGE s.snapAge
  | .seat n =>
    let e := (s.seat n).graceEnd
    if e = 0 then s else s.set b Reg.Seat.GRACE_LEFT ((e - s.render.tick + s.msTicks - 1) / s.msTicks)
  | .capture =>
    let m := maskOf 56 (fun c => s.fld b (Reg.Capture.CH_EVT_FLAGS c) &&& s.fld b (Reg.Capture.CH_EVT_EN c) ≠ 0)
    (s.set b Reg.Capture.CHAIN_EVT_LO (m % 2 ^ 32)).set b Reg.Capture.CHAIN_EVT_HI (m / 2 ^ 32)
  | .inPage n =>
    let m := maskOf 64 (fun i => s.ingressEvent (64 * n + i))
    (s.set b Reg.Streams.STREAM_EVT_LO (m % 2 ^ 32)).set b Reg.Streams.STREAM_EVT_HI (m / 2 ^ 32)
  | .egPage n =>
    let m := maskOf 64 (fun i => s.egressEvent (64 * n + i))
    (s.set b Reg.Streams.STREAM_EVT_LO (m % 2 ^ 32)).set b Reg.Streams.STREAM_EVT_HI (m / 2 ^ 32)
  | .mediaClk => (s.set64 b Reg.MediaClk.M0_LO Reg.MediaClk.M0_HI s.render.m0).set64 b Reg.MediaClk.RSI_LO
      Reg.MediaClk.RSI_HI s.render.rsi
  | _ => s

/-- Word `k` of a time value in 2^-16 ns: seconds low and high, nanoseconds, fraction (R348). -/
def timeWord (t : Int) (k : Nat) : Nat :=
  let n := t.toNat
  match k with
  | 0 => n / 65536000000000 % 2 ^ 32
  | 1 => n / 65536000000000 / 2 ^ 32
  | 2 => n / 65536 % 1000000000
  | _ => n % 65536

/-- The time value that a page holds: instance time, or device time (R348, R361). -/
def State.timeOf (s : State) (b : Blk) : Int :=
  match b with
  | .time i => s.device + (s.inst i).off
  | _ => s.device

/-- A header word (R46). -/
def State.headerWord (s : State) (b : Blk) (off : Nat) : Nat :=
  let src := if copied b Reg.Hdr.INT_SRC then regGet s.fab.mir b.base Reg.Hdr.INT_SRC else s.intSrc b
  let stored := (wordFields b off).foldl (fun w f =>
    w + f.place (match f.acc with
      | .wo => 0
      | .rw => s.stg b f
      | _ => if copied b f then regGet s.fab.mir b.base f else s.fld b f)) 0
  match off with
  | 0x000 => b.ident.1 * 65536 + b.ident.2 * 256 + 1
  | 0x004 => s.pageCap b
  | 0x00C => stored % 2 ^ 31 + (if s.pagePending b then 2 ^ 31 else 0)
  | 0x010 => src
  | 0x018 => src &&& s.fld b Reg.Hdr.INT_EN
  | 0x01C => Reg.Hdr.OWNER_SEAT.place (s.fld b.ownerPage Reg.Hdr.OWNER_SEAT) +
      Reg.Hdr.OWNER_SHARED.place (s.fld b.ownerPage Reg.Hdr.OWNER_SHARED)
  | 0x024 => s.copyAge b + (if Blk.hasMirror b then 2 ^ 31 else 0)
  | _ => stored

/-- A word of a unit in its staged or its active view (R56). -/
def State.wordOf (s : State) (b : Blk) (off : Nat) (active : Bool) : Nat :=
  match timeIndex b off with
  | some k => timeWord (s.timeOf b) k
  | none =>
    let s := s.live b
    (wordFields b off).foldl (fun w f =>
      w + f.place (match f.acc with
        | .wo => 0
        | .rw => if active then s.fld b f else s.stg b f
        | _ => if copied b f then regGet s.fab.mir b.base f else s.fld b f)) 0

/-- Owner and group words of a table page (R51). -/
def State.recWord (s : State) (b : Blk) (off : Nat) : Nat :=
  (List.range 4).foldl (fun w k =>
    let r := s.recByte b off k
    let o := s.ownerOf r
    w + (if off < 0x48 then o.1 + (if o.2 then 8 else 0) else s.groupOf r) * 256 ^ k) 0

/-- A word of TSQ for a port, of PSGLOBAL for a channel, or of CAPTURE for a chain, that the model lacks (R231, R287,
R371). -/
def State.absentWord (s : State) (b : Blk) (off : Nat) : Bool :=
  match b with
  | .tsq => 0x100 + 0x40 * s.model.eths ≤ off
  | .psGlobal => 0x60 + 4 * s.model.pss ≤ off && off < 0xA0
  | .capture => 0x100 ≤ off && off < 0x800 && !chainPresent s.model ((off - 0x100) / 0x20)
  | _ => false

/-- Word `w` of the MAP entries of seat `q`, through its window (R460). -/
def State.mapWord (s : State) (q w : Nat) : Nat :=
  if q < s.model.seats then
    (List.range 4).foldl (fun v k =>
      v + Map.get 0 (256 * s.fld (.callSeat q) Reg.CallSeat.WINDOW + 4 * w + k) (s.callOf q).map * 256 ^ k) 0
  else 0

/-- What a read of a place shows. -/
def State.readPlace (s : State) (seat : Nat) : Place → Nat
  | .header b off => if b.page.present s.model || off = 0x28 then s.headerWord b off else 0
  | .recWord b off | .recImage b off => if b.page.present s.model then s.recWord b off else 0
  | .word b off =>
    if !b.page.present s.model || s.absentWord b off then 0
    else match b with
      | .callGlobal =>
        if 0x100 ≤ off && off < 0x200 then
          (List.range 32).foldl (fun m k =>
            let n := 8 * (off - 0x100) + k
            if Map.get false (2048 * (seat + 1) + n) s.levels then m + 2 ^ k else m) 0
        else s.wordOf b off false
      | _ => s.wordOf b off false
  | .image b off => if b.page.present s.model && !s.absentWord b off then s.wordOf b off true else 0
  | .prog p off active =>
    if p < s.model.eths then (Map.get 0#32 ((extraOf (.ethCls p)).1 + off) (if active then s.fab.act else s.fab.stg)).toNat else 0
  | .map q w | .mapImage q w => s.mapWord q w
  | .motion w => (Map.get 0#32 w s.motion.mem).toNat
  | .cue w => (Map.get 0#32 w s.cue).toNat
  | .table w => (Map.get 0#32 w s.paths.table).toNat
  | .reserved _ _ | .nowhere => 0

/-- What a clearing read leaves: COR fields at their reset values, and, for a mirrored field, the copy cleared and a clear
posted to the slow domain (R55, R63). -/
def State.clearWord (s : State) (seat : Nat) (b : Blk) (off : Nat) : State :=
  if !s.clears seat b then s
  else
    let cor := (wordFields b off).filter (·.acc = .cor)
    let (copy, own) := cor.partition (copied b)
    let s := own.foldl (fun s f => s.set b f f.reset) s
    if copy.isEmpty then s
    else
      let bits := copy.foldl (fun w f => w + f.place (regGet s.fab.mir b.base f)) 0
      let mir := copy.foldl (fun m f => regPut m b.base f f.reset) s.fab.mir
      let op := PostedOp.clear off (BitVec.ofNat 32 bits) (Map.get 0 b.base s.fab.refreshTag)
      let p : Posted := { blk := b, op := op, seat := seat, tick := s.render.tick }
      { s with fab := { s.fab with mir := mir, posted := s.fab.posted ++ [p] } }

/-- What a read does besides returning its word. -/
def State.readEffect (s : State) (seat : Nat) : Place → State
  | .header b off => s.clearWord seat b off
  | .word .tsq off =>
    match (List.range 4).find? (fun p => off = (Reg.Tsq.Q_ENTRY_W0 p).off || off = (Reg.Tsq.Q_ENTRY_W3 p).off) with
    | some p => if off = (Reg.Tsq.Q_ENTRY_W0 p).off then s.entryW0 p else s.entryW3 seat p
    | none => s.clearWord seat .tsq off
  | .word b off => if b.page.present s.model then s.clearWord seat b off else s
  | _ => s

/-- Words, by their distance from a low word, that its read latches. -/
def placeLatch : Place → List Nat
  | .word b off | .image b off => (latchedWith b off).map (· - off)
  | _ => []

/-- A register read by a host: the word, latches and clears; the answer is kept as the word the reader got. -/
def State.hostRead (s : State) (w : Writer) (addr : Nat) : State :=
  let seat := w.seatOf
  if s.model.seats ≤ seat then s
  else
    let a := addr / 4 * 4
    let p := s.resolve seat a
    let held := Map.get [] w.code s.fab.latch
    let live := s.readPlace seat p
    let v := ((held.find? (·.1 = a)).map (·.2)).getD live
    let with_ := placeLatch p
    let held := if with_.isEmpty then held.filter (·.1 ≠ a)
      else with_.map (fun d => (a + d, s.readPlace seat (s.resolve seat (a + d))))
    let s := s.readEffect seat p
    { s with fab := { s.fab with latch := s.fab.latch.put [] w.code held, answer := s.fab.answer.put 0 w.code v } }

def execLowWordRead (w : Writer) (addr : Nat) (s : State) : Res := settle (s.hostRead w addr)

def execClearingRead (w : Writer) (addr : Nat) (s : State) : Res := settle (s.hostRead w addr)

/-! Which writes are refused -/

/-- Reason codes of ERR_LOG (R47). -/
def eAbsent : Nat := 1
def eNotOwner : Nat := 2
def eLocked : Nat := 3
def eEncoding : Nat := 4
def eOffset : Nat := 5
def eKind : Nat := 6
def eGroup : Nat := 7
def ePartial : Nat := 8
def eSlowLost : Nat := 9
def eNotPrincipal : Nat := 10

/-- The reasons of a list that hold. -/
def reasonsOf (l : List (Bool × Nat)) : List Nat := ((l.filter (·.1)).map (·.2)).eraseDups

/-- Why a page refuses a writer; of an absent unit nothing else is said. -/
def State.pageReasons (s : State) (seat : Nat) (b : Blk) (aligned : Bool) : List Nat :=
  if !b.page.present s.model then [eAbsent]
  else reasonsOf [(!aligned, ePartial), (s.isUnderstudy && restored b, eNotPrincipal), (!s.mayWrite seat b, eNotOwner),
    (seat ≠ 0 && s.bit b.page Reg.Hdr.LOCK, eLocked)]

/-- Can any field of the word be written? -/
def writable (fs : List Fld) : Bool := fs.any (fun f => f.acc = .rw || f.acc = .rwi || f.acc = .wo)

/-- Fields of the word that only the house seat may change, or only the owner of the group (R46, R65, R395). UPD_GROUP of
the banked UPDATE page is the house seat's too (DESIGN CHOICE, log entry 27: the spec names no writer). -/
def State.houseRefusal (s : State) (seat : Nat) (b : Blk) (fs : List Fld) (data : Word) : Bool :=
  let changes := fun (f : Fld) => fs.contains f && f.of data ≠ s.fld b f
  let lock := !b.isRecord && changes Reg.Hdr.LOCK
  match b with
  | .update => lock || fs.contains Reg.Hdr.UPD_GROUP || (List.range 32).any (fun g =>
      changes (Reg.Update.UG_CFG_OWNER g) || changes (Reg.Update.UG_CFG_SHARED g) ||
        (changes (Reg.Update.UG_CFG_KIND g) && s.fld b (Reg.Update.UG_CFG_OWNER g) ≠ seat))
  | .seat _ => lock || [Reg.Seat.BIND_KIND, Reg.Seat.BIND_INDEX, Reg.Seat.SD_UDP_PORT].any changes
  | _ => lock

/-- The record of CAPTURE, or of a generator, that the word belongs to is absent, or held by a campaign (R5, R246). -/
def State.recordRefusal (s : State) (b : Blk) (off : Nat) : Option Nat :=
  match b with
  | .capture => if 0x100 ≤ off && !chainPresent s.model ((off - 0x100) / 0x20) then some eAbsent else none
  | .measure =>
    if 0x200 ≤ off && off < 0x400 && s.bit b (Reg.Measure.GEN_CTRL_HELD ((off - 0x200) / 0x20)) then some eNotOwner else none
  | _ => none

/-- Does the word hold the update group of a page? -/
def changesGroup (b : Blk) (fs : List Fld) : Bool := !b.isRecord && fs.contains Reg.Hdr.UPD_GROUP

/-- The update group that decides how the RW fields of a write are taken: the one the write sets, if it sets one
(R60). -/
def State.writeGroup (s : State) (b : Blk) (fs : List Fld) (data : Word) : Nat :=
  if changesGroup b fs then Reg.Hdr.UPD_GROUP.of data else s.groupOf b

/-- Does a word of SCAN.LIST hold a reserved entry (R242)? The entries are coded as CTRL.INPUT. -/
def badScan (b : Blk) (fs : List Fld) (data : Word) : Bool :=
  b = .capture && (List.range 56).any (fun c => fs.contains (Reg.Capture.CH_SCAN_LIST c)) &&
    (List.range 8).any (fun k => 0xA < data.toNat / 16 ^ k % 16)

/-- A reserved encoding, or a value out of range that no prepare would see (R12). -/
def State.badEncoding (s : State) (b : Blk) (fs : List Fld) (data : Word) : Bool :=
  let now := s.writeGroup b fs data = 0xFF
  fs.any (fun f => !f.admits (f.of data) &&
    ((f.acc = .rw && (f.encReserved || now)) || f.acc = .rwi)) ||
  badScan b fs data || (changesGroup b fs && 0x20 ≤ Reg.Hdr.UPD_GROUP.of data && Reg.Hdr.UPD_GROUP.of data < 0xFF) ||
  (b = .twin && fs.contains Reg.Twin.CLAIM_UND &&
    !(0 < Reg.Twin.CLAIM_UND.of data && Reg.Twin.CLAIM_UND.of data < Reg.Twin.CLAIM_PRI.of data &&
      Reg.Twin.CLAIM_PRI.of data < Reg.Twin.CLAIM_TAKE.of data))

/-- Why a write of a word of a unit is refused besides what its page says. -/
def State.wordReasons (s : State) (seat : Nat) (b : Blk) (off : Nat) (data : Word) : List Nat :=
  let fs := wordFields b off
  let group := s.writeGroup b fs data
  if s.recordRefusal b off = some eAbsent then [eAbsent]
  else reasonsOf [((s.recordRefusal b off).isSome, eNotOwner), (seat ≠ 0 && s.houseRefusal seat b fs data, eNotOwner),
    (b = .twin && fs.contains Reg.Twin.CFG_MODE && Reg.Twin.CFG_MODE.of data = 2 && !s.model.lockstep, eAbsent),
    (s.badEncoding b fs data, eEncoding),
    (group = 0xFF && fs.any (fun f => f.acc = .rw && f.blockOnly && f.of data ≠ s.stg b f), eKind),
    (changesGroup b fs && group < 0x20 && group ≠ s.groupOf b && !s.mayUseGroup seat group, eGroup)]

/-- Why a write of the group bytes of a table page is refused (R51): only the bytes it changes count. -/
def State.groupReasons (s : State) (seat : Nat) (b : Blk) (off : Nat) (data : Word) : List Nat :=
  let changed := ((List.range 4).map (fun k => (s.recByte b off k, data.toNat / 256 ^ k % 256))).filter
    (fun (e : Blk × Nat) => e.2 ≠ s.groupOf e.1)
  reasonsOf [(s.isUnderstudy, eNotPrincipal), (changed.any (fun e => seat ≠ 0 && (s.ownerOf e.1).1 ≠ seat), eNotOwner),
    (seat ≠ 0 && s.bit b Reg.Hdr.LOCK, eLocked), (changed.any (fun e => 0x20 ≤ e.2 && e.2 < 0xFF), eEncoding),
    (changed.any (fun e => e.2 < 0x20 && !s.mayUseGroup seat e.2), eGroup)]

/-- The reason given: where several hold the spec does not say which. -/
def State.pick (s : State) (rs : List Nat) : Nat × State :=
  match rs with
  | [r] => (r, s)
  | _ => let (v, s) := s.fresh; (rs.getD (v % rs.length) 0, s)

/-! What an accepted write does -/

/-- Values that apply on their own, at the first sample after the write (R60). -/
def State.applyNow (s : State) (b : Blk) (vals : List (Fld × Nat)) : State :=
  let was := s
  let i := s.nextSample
  let old := s.unitWords b
  let act := vals.foldl (fun m e => if e.1 = Reg.Obj.MOTION_CMD then m else regPut m b.base e.1 e.2) s.fab.act
  let s := s.newWords b act i
  let s := vals.foldl (fun s e => s.setStg b e.1 (if e.1 = Reg.Obj.MOTION_CMD then 0 else e.2)) s
  let s := match b with
    | .obj n =>
      match vals.find? (fun (e : Fld × Nat) => e.1 = Reg.Obj.MOTION_CMD) with
      | some (_, v) => if v = 1 ∨ v = 2 then s.motionCmd n (v = 1) i else s
      | none => s
    | _ => s
  s.applied was b old i

/-- The 64-bit RWI fields, and the 64-bit RW fields, which are taken as RWI on an immediate page (R60). -/
def wide : Blk → List (Fld × Fld)
  | .ingress _ => [(Reg.Ingress.STREAM_ID_LO, Reg.Ingress.STREAM_ID_HI)]
  | .egress _ => [(Reg.Egress.STREAM_ID_LO, Reg.Egress.STREAM_ID_HI)]
  | .ethGate _ => [(Reg.EthGate.BASE_SEC_LO, Reg.EthGate.BASE_SEC_HI)]
  | .updateBank _ => [(Reg.Update.UPD_AT_LO, Reg.Update.UPD_AT_HI)]
  | .aesRx _ => [(Reg.AesRx.NA_BUF_LO, Reg.AesRx.NA_BUF_HI)]
  | .ethMac _ => (List.range 4).map (fun i => (Reg.EthMac.XQ_BASE_LO i, Reg.EthMac.XQ_BASE_HI i))
  | .seat _ => (List.range 4).flatMap (fun i =>
      [(Reg.Seat.SQ_BASE_LO i, Reg.Seat.SQ_BASE_HI i), (Reg.Seat.CQ_BASE_LO i, Reg.Seat.CQ_BASE_HI i)])
  | _ => []

/-- The values that a write of a field puts in force: the low word of a 64-bit field waits for its high word in the
holding register of the writer (R60). -/
def State.takeWide (s : State) (w : Writer) (b : Blk) (f : Fld) (v : Nat) : State × List (Fld × Nat) :=
  match (wide b).find? (fun e => e.1 = f || e.2 = f) with
  | some (lo, hi) =>
    if f = lo then
      ({ s with fab := { s.fab with holding := s.fab.holding.put (0, 0) w.code (b.base + lo.off + 1, v) } }, [])
    else
      let h := Map.get (0, 0) w.code s.fab.holding
      if h.1 = b.base + lo.off + 1 then
        ({ s with fab := { s.fab with holding := s.fab.holding.put (0, 0) w.code (0, 0) } }, [(lo, h.2), (hi, v)])
      else (s, [(hi, v)])
  | none => (s, [(f, v)])

/-- `takeWide` over the values of a word. -/
def State.takeWides (s : State) (w : Writer) (b : Blk) (vals : List (Fld × Nat)) : State × List (Fld × Nat) :=
  vals.foldl (fun (a : State × List (Fld × Nat)) e => let (s, l) := a.1.takeWide w b e.1 e.2; (s, a.2 ++ l)) (s, [])

/-- An RWI value takes force (R60). -/
def State.putRwi (s : State) (w : Writer) (b : Blk) (f : Fld) (v : Nat) : State :=
  let (s, l) := s.takeWide w b f v
  l.foldl (fun s e => s.setBoth b e.1 e.2) s

/-- What follows a write of RWI fields of a word. -/
def State.rwiDone (s : State) (b : Blk) (off : Nat) (data : Word) (seat : Nat) : State :=
  match b with
  | .render => if off = 0x44 then s.runWrite (Reg.Render.CTRL_RUN.of data = 1) else s
  | .out n => if off = 0x40 then s.corrWarm n (Reg.Out.CORR_WARM.of data = 1) else s
  | .capture => if off = 0x44 then s.clocksWritten else s
  | .curtain => if off = 0x40 then s.curtainCauses else s
  | .ethMac p => if off = 0x108 then s.mdioCmd p data else s
  | .seat n =>
    if off = 0x40 && seat = 0 then s.bindWrite n (Reg.Seat.BIND_KIND.of data) (Reg.Seat.BIND_INDEX.of data) seat
    else if off = 0x54 then
      (if Reg.Seat.CTRL_SLEEP_REQ.of data = 1 then s.sleepReq n else s.sleepEnd n)
    else
      (List.range 4).foldl (fun s i =>
        if off = (Reg.Seat.SQ_EN i).off then s.ringWrite n i false ((Reg.Seat.SQ_EN i).of data = 1)
        else if off = (Reg.Seat.CQ_EN i).off then s.ringWrite n i true ((Reg.Seat.CQ_EN i).of data = 1)
        else if off = (Reg.Seat.SQ_TAIL i).off then s.sqTail n i ((Reg.Seat.SQ_TAIL i).of data)
        else if off = (Reg.Seat.CQ_HEAD i).off then s.cqHead n i ((Reg.Seat.CQ_HEAD i).of data)
        else s) s
  | .prompterGlobal =>
    let s := if off = 0x40 then s.showGpio else s
    if off = 0x180 && data.toNat % 2 = 0 then s.set b Reg.PrompterGlobal.TC_LOCKED 0 else s
  | .callSeat n => if off = 0x40 || off = 0x60 || off = 0x64 then s.gated n else s
  | .twin =>
    if off = 0x40 then s.modeSet.egGate
    else if off = 0x44 then s.set .twin Reg.Twin.CLAIM_NOW s.claim
    else s
  | .ndodom => if off = 0x40 then s.training else s
  | .health => if off = 0x48 then s.avsWritten else s
  | _ => s

/-- RWI fields whose write has an effect of its own in place of a plain store. -/
def ownEffect (b : Blk) (f : Fld) : Bool :=
  match b with
  | .render => f = Reg.Render.CTRL_RUN
  | .out _ => f = Reg.Out.CORR_WARM
  | .seat _ => [Reg.Seat.BIND_KIND, Reg.Seat.BIND_INDEX, Reg.Seat.CTRL_SLEEP_REQ].contains f ||
      (List.range 4).any (fun i => f = Reg.Seat.SQ_EN i || f = Reg.Seat.CQ_EN i || f = Reg.Seat.SQ_TAIL i || f = Reg.Seat.CQ_HEAD i)
  | .resetPage => f = Reg.Reset.PUSH_LEN
  | _ => false

/-- What follows RWI values of the greenroom and its jacks in the slow domain (R61, R64). -/
def State.slowDone (s : State) (b : Blk) (off : Nat) (data : Word) : State :=
  match b with
  | .greenroom =>
    if off = 0x40 then
      (let t := Reg.Greenroom.PWR_TARGET.of data
       if t = 0 then (s.setBoth b Reg.Greenroom.PWR_TARGET 0).moduleWake 0x21 else s.lowerPower t)
    else if off = 0x48 then s.greenClock
    else if off = 0x4C && data.toNat.testBit 0 then s.wakePulse
    else s
  | .jack => (List.range 2).foldl (fun s j =>
      if off = (Reg.Jack.J_CTRL_EN j).off then s.bias j (s.autoBias j) else s) s
  | _ => s

/-- Does the write of a word go to a slow domain (R64)? All of the greenroom and its jacks beyond the header, and the RWI
fields of AES3 receivers and of power-bridge channels. -/
def slowWord (b : Blk) (off : Nat) : Bool :=
  0x40 ≤ off && match b with
  | .greenroom | .jack => true
  | .aesRx _ | .ps _ => (wordFields b off).any (·.acc = .rwi)
  | _ => false

/-- A posted write reaches its slow domain. -/
def State.slowWrite (s : State) (b : Blk) (off : Nat) (data : Word) : State :=
  let fs := (wordFields b off).filter (fun f => f.acc = .rwi && f ≠ Reg.Greenroom.PWR_TARGET)
  (fs.foldl (fun s f => s.setBoth b f (f.of data)) s).slowDone b off data

/-- Write-only fields act (R65, R76, R82, R99, R110, R199, R236, R284, R338, R364, R380, R396, R429, R435, R456, R536,
R538). -/
def State.strobes (s : State) (b : Blk) (off : Nat) (data : Word) : State :=
  let on := fun (f : Fld) => off = f.off && f.of data ≠ 0
  match b with
  | .updateBank n =>
    if off = 0x40 then
      (s.strobe .seat n data.toNat (s.fld64 b Reg.Update.UPD_AT_LO Reg.Update.UPD_AT_HI)).1
    else if off = 0x5C then
      (let gs := (groupsOf data.toNat).foldl (fun m g => if s.mayUseGroup n g then m ||| 2 ^ g else m) 0
       ((s.members gs).filter (fun u => n = 0 || s.mayWrite n u)).foldl State.discardAll s)
    else if off = 0x60 then s.cancelGroups n data.toNat
    else s
  | .obj n => if off = 0x28 then s.motionFlags n (Reg.Obj.FLAGS_SET.of data) (Reg.Obj.FLAGS_CLR.of data) else s
  | .render => if on Reg.Render.CTRL_RESET then s.resetWrite else s
  | .curtain => if off = 0x40 then s.curtainCtrl (on Reg.Curtain.CTRL_CLOSE) (on Reg.Curtain.CTRL_RELEASE) else s
  | .capture => if on Reg.Capture.SERVICE_DONE then s.serviceDone else s
  | .ps k => if on Reg.Ps.CTRL_RECOVER then s.recover k else s
  | .ethMac p =>
    if off = 0x100 then s.xtxData p data
    else if off = 0x104 then s.xtxSend p (Reg.EthMac.XTX_SEND_LENGTH.of data) (Reg.EthMac.XTX_SEND_QUEUE.of data)
    else s
  | .mediaClk => if on Reg.MediaClk.REALIGN then s.realign else s
  | .seat n => if on Reg.Seat.CTRL_SEAT_RESET then s.seatReset n else s
  | .prompter n =>
    if off = 0x40 then
      (let start := on Reg.Prompter.CTRL_START
       let stop := on Reg.Prompter.CTRL_STOP
       if start && stop then
         (let (v, s) := s.fresh
          s.prAsk n (v % 2 = 0))
       else if start then s.prAsk n true
       else if stop then s.prAsk n false else s)
    else if off = 0x48 then s.cueFlagsSet n (data.toNat % 65536)
    else if off = 0x4C then s.cueFlagsClr n (data.toNat % 65536)
    else s
  | .callSeat n => if off = 0x44 then s.eoi n (Reg.CallSeat.EOI.of data) else s
  | .resetPage =>
    let s := if on Reg.Reset.CTRL_COMMIT_ROLLBACK then s.commitRollback else s
    let s := if on Reg.Reset.CTRL_WARM then s.warmReset 3 else s
    if on Reg.Reset.PUSH_GO then s.pushGo
    else if off = 0x80 && s.fld b Reg.Reset.BOOT_STAGE = 0xA then s.setBoth b Reg.Reset.PUSH_LEN (Reg.Reset.PUSH_LEN.of data)
    else s
  | _ => s

/-- The RWI and immediate part of a write of a word. -/
def State.putNow (s : State) (w : Writer) (b : Blk) (off : Nat) (data : Word) : State :=
  let fs := wordFields b off
  let s := (fs.filter (fun f => f.acc = .rwi && !ownEffect b f)).foldl (fun s f => s.putRwi w b f (f.of data)) s
  let s := if s.groupOf b = 0xFF then
      (let rw := (fs.filter (fun f => f.acc = .rw && !(f.blockOnly && f.of data ≠ s.fld b f))).map (fun f => (f, f.of data))
       let (s, rw) := s.takeWides w b rw
       if rw.isEmpty then s else s.applyNow b rw)
    else s
  s.rwiDone b off data w.seatOf

/-- The staged part of a write: RW fields of a unit whose group is 0 to 31 (R56, R57). -/
def State.putStaged (s : State) (b : Blk) (off : Nat) (data : Word) : State :=
  let rw := (wordFields b off).filter (·.acc = .rw)
  if s.groupOf b = 0xFF || rw.isEmpty then s
  else (rw.foldl (fun s f => s.setStg b f (f.of data)) s).setPending b true

/-- In LOCKSTEP an immediate write acts on both twins at the second block boundary (R492). -/
def State.laterOnBoth (s : State) (seat addr : Nat) (data : Word) : State :=
  let at_ := s.secondBoundary
  let w : LaterWrite := { at_ := at_, seat := seat, addr := addr, data := data }
  let s := { s with twin := { s.twin with later := s.twin.later ++ [w] } }
  s.tellPeer (.write seat addr data at_)

/-- A write is posted to its slow domain (R64); the words of a 64-bit field go together (R60). -/
def State.postWrite (s : State) (w : Writer) (b : Blk) (off : Nat) (data : Word) : State :=
  let fs := (wordFields b off).filter (fun f => (wide b).any (fun e => e.1 = f || e.2 = f))
  let (s, l) := s.takeWides w b (fs.map (fun f => (f, f.of data)))
  let words := if fs.isEmpty then [(off, data)] else l.map (fun e => (e.1.off, BitVec.ofNat 32 (e.1.place e.2)))
  let ps := words.map (fun e => ({ blk := b, op := .write e.1 e.2, seat := w.seatOf, tick := s.render.tick } : Posted))
  { s with fab := { s.fab with posted := s.fab.posted ++ ps } }

/-- An accepted write of a word of a unit. -/
def State.putWord (s : State) (w : Writer) (b : Blk) (off addr : Nat) (data : Word) : State :=
  let fs := wordFields b off
  if slowWord b off then s.postWrite w b off data
  else
    let now := fs.any (·.acc = .rwi) || (s.writeGroup b fs data = 0xFF && fs.any (·.acc = .rw))
    let s := if now && s.lockPri && restored b then
        (if changesGroup b fs then s.laterOnBoth w.seatOf addr data else (s.laterOnBoth w.seatOf addr data).putStaged b off data)
      else (s.putNow w b off data).putStaged b off data
    let s := s.strobes b off data
    if !b.isRecord && off = 8 && Reg.Hdr.BLOCK_RESET.of data = 1 then s.askReset b else s

/-- Group bytes take force (R51). -/
def State.putGroups (s : State) (b : Blk) (off : Nat) (data : Word) : State :=
  (List.range 4).foldl (fun s k =>
    { s with fab := { s.fab with recGroup := s.fab.recGroup.put 0 (s.recByte b off k).base (data.toNat / 256 ^ k % 256) } }) s

/-- A word of the classifier program: staged, or in force at once (R334). -/
def State.putProg (s : State) (p off : Nat) (data : Word) : State :=
  let k := (extraOf (.ethCls p)).1 + off
  let s := s.withStg (s.fab.stg.put 0#32 k data)
  if s.groupOf (.ethCls p) = 0xFF then s.withAct (s.fab.act.put 0#32 k data) else s.setPending (.ethCls p) true

/-- A refused write: the page logs it (R47). -/
def State.refuse (s : State) (page : Blk) (off : Nat) (rs : List Nat) (seat : Nat) : State × Bool :=
  let (r, s) := s.pick rs
  (s.logErr page off r seat, false)

/-- A write that nothing refuses acts; its answer's second part says whether it was refused (false: refused). -/
def State.unless (s : State) (page : Blk) (off : Nat) (rs : List Nat) (seat : Nat) (act : State → State) : State × Bool :=
  if rs.isEmpty then (act s, true) else s.refuse page off rs seat

/-- A write of a place. R47 has writes to RO fields ignored and not logged: of a word that holds only RO fields this goes
before ownership and LOCK, and an offset of the active view takes it too, with or without a field beneath it (DESIGN
CHOICE, log entry 27). -/
def State.writePlace (s : State) (w : Writer) (addr : Nat) (data : Word) (aligned : Bool) : Place → State × Bool :=
  let seat := w.seatOf
  let off := addr % 4096
  let unit := fun (b : Blk) (o : Nat) =>
    let here := b.page.present s.model && aligned
    if here && s.recordRefusal b o ≠ some eAbsent && (!writable (wordFields b o) || s.absentWord b o) then (s, true)
    else s.unless b.page off
      ((s.pageReasons seat b aligned ++ (if here then s.wordReasons seat b o data else [])).eraseDups) seat
      (fun s => s.putWord w b o addr data)
  let loose := fun (page : Blk) (r : Nat) => s.refuse page addr (reasonsOf [(!aligned, ePartial), (true, r)]) seat
  fun
  | .header b o => unit b o
  | .word b o => unit b o
  | .recWord b o =>
    if !b.present s.model then s.refuse b o [eAbsent] seat
    else if aligned && o < 0x48 then (s, true)
    else s.unless b o ((if aligned then [] else [ePartial]) ++ (if o < 0x48 then [] else s.groupReasons seat b o data)) seat
      (fun s => if s.lockPri then s.laterOnBoth seat addr data else s.putGroups b o data)
  | .recImage b o | .image b o =>
    if b.page.present s.model && aligned then (s, true)
    else s.unless b.page off (s.pageReasons seat b aligned) seat (fun s => let _ := o; s)
  | .prog p o active =>
    let b := Blk.ethCls p
    if active && b.present s.model && aligned then (s, true)
    else s.unless b off (s.pageReasons seat b aligned) seat (fun s =>
      if s.lockPri && s.groupOf b = 0xFF then s.laterOnBoth seat addr data else s.putProg p o data)
  | .map q k =>
    let b := Blk.callSeat q
    s.unless b off (s.pageReasons seat b aligned) seat (fun s =>
      s.mapWrite q (256 * s.fld b Reg.CallSeat.WINDOW + 4 * k) data)
  | .mapImage q k =>
    let b := Blk.callSeat q
    if b.present s.model && aligned then (s, true)
    else s.unless b off (s.pageReasons seat b aligned) seat (fun s => let _ := k; s)
  | .motion _ => loose .path eNotOwner
  | .cue _ => loose .prompterGlobal eNotOwner
  | .table _ => loose .path eOffset
  | .reserved b o =>
    let here := b.present s.model
    if 0x840 ≤ o && here && aligned then (s, true)
    else s.refuse b o ((s.pageReasons seat b aligned ++ (if here then [eOffset] else [])).eraseDups) seat
  | .nowhere => loose .device eOffset

/-- A word of the image window of push mode (R538). -/
def State.pushWord (s : State) (addr : Nat) (data : Word) : State :=
  let k := addr / 4 * 4 - 0x400000
  let win := (bytesOf data).zipIdx.foldl (fun (m : Map Byte) e => m.put 0#8 (k + e.2) e.1) s.boot.window
  { s with boot := { s.boot with window := win } }

/-- Is the module in push mode (R538)? -/
def State.pushMode (s : State) : Bool := s.boot.warm = some false && s.fld .resetPage Reg.Reset.BOOT_STAGE = 0xA

/-- A register write; the answer's second part says whether it was taken. -/
def State.tryWrite (s : State) (w : Writer) (addr : Nat) (data : Word) (aligned : Bool := true) : State × Bool :=
  if s.model.seats ≤ w.seatOf || 0x1000000 ≤ addr then (s, true)
  else if s.pushMode && w.seatOf = 0 && aligned && 0x400000 ≤ addr && addr < 0x800000 then (s.pushWord addr data, true)
  else s.writePlace w addr data aligned (s.resolve w.seatOf addr)

def State.hostWrite (s : State) (w : Writer) (addr : Nat) (data : Word) (aligned : Bool := true) : State :=
  (s.tryWrite w addr data aligned).1

def execRegisterWrite (w : Writer) (addr : Nat) (data : Word) (aligned : Bool) (s : State) : Res :=
  settle (s.hostWrite w addr data aligned)

/-- HEALTH.AVS is written by the house seat. -/
def execAvs (data : Word) (s : State) : Res := settle (s.hostWrite (.seat 0) (Blk.health.base + 0x48) data)

/-- A write that was put off to a block boundary acts (R492). -/
def State.laterWrite (s : State) (w : LaterWrite) : State :=
  match s.resolve w.seat w.addr with
  | .header b off | .word b off =>
    let t := s.putNow (.seat w.seat) b off w.data
    if s.lockPri && changesGroup b (wordFields b off) then t.putStaged b off w.data else t
  | .recWord b off => s.putGroups b off w.data
  | .prog p off _ => s.putProg p off w.data
  | _ => s

/-! BLOCK_RESET as a command -/

/-- PAGE_CTRL.BLOCK_RESET of a page is written: by its owner or the house seat (R48). On a SHARED page any seat that may
write it counts as its owner (DESIGN CHOICE, log entry 27). -/
def execBlockReset (w : Writer) (b : Blk) (s : State) : Res :=
  settle (
    if b.isRecord || b.base ≥ 0x2000000 then s
    else (s.unless b.page 8 (s.pageReasons w.seatOf b true) w.seatOf (·.askReset b)).1)

/-! Mirror pages -/

/-- A posted operation reaches its domain (R63, R64): a write within 1 ms, or it is dropped and logged. -/
def State.takePosted (s : State) (p : Posted) : State :=
  let b := p.blk
  match p.op with
  | .write off data =>
    if s.render.tick ≤ p.tick + s.msTicks then s.slowWrite b off data else s.logErr b off eSlowLost p.seat
  | .clear off bits tag =>
    ((wordFields b off).filter (fun f => f.acc = .cor && copied b f)).foldl (fun s f =>
      let shown := f.of bits
      if f = Reg.Ps.I_PEAK then (if s.fld b f = shown then s.set b f f.reset else s)
      else
        let gone := maskOf f.width (fun i => shown.testBit i && Map.get 0 (evKey b f i) s.fab.evMark ≤ tag)
        s.set b f (s.fld b f ^^^ (s.fld b f &&& gone))) s

/-- Is the field of a TDM page one of its transmit section? -/
def txField (f : Fld) : Bool :=
  [Reg.Tdm.TX_RATE, Reg.Tdm.TX_RATIO, Reg.Tdm.TX_BAD, Reg.Tdm.TX_STOPS, Reg.Tdm.STATUS_TX_SYNC].contains f

/-- An edge of the slow clock: resets, writes and clears act, then the copy is taken (R48, R61 to R64). -/
def State.mirrorRefresh (s : State) (b : Blk) (tx : Bool) : State :=
  let s := if s.fab.resets.any (·.1 = b) then
      ({ s with fab := { s.fab with resets := s.fab.resets.filter (fun (r : Blk × Nat) => r.1 ≠ b) } } : State).blockReset b
        s.nextSample
    else s
  let due := s.fab.posted.filter (·.blk = b)
  let s := { s with fab := { s.fab with posted := s.fab.posted.filter (·.blk ≠ b) } }
  let s := due.foldl State.takePosted s
  let isTdm := match b with
    | .tdm _ => true
    | _ => false
  let fs := (b.allFields.filter (copied b)).filter (fun f => !isTdm || txField f = tx)
  let mir := fs.foldl (fun m f => regPut m b.base f (if f = Reg.Hdr.INT_SRC then s.intSrc b else s.fld b f)) s.fab.mir
  let k := b.base + (if isTdm && tx then 1 else 0)
  { s with fab := { s.fab with
    mir := mir, refreshTag := s.fab.refreshTag.put 0 k (Map.get 0 k s.fab.refreshTag + 1)
    refreshedAt := s.fab.refreshedAt.put 0 k s.render.tick } }

def execMirrorRefresh (b : Blk) (tx : Bool) (s : State) : Res :=
  settle (if Blk.hasMirror b && b.present s.model then s.mirrorRefresh b tx else s)

/-- The slow clock has not run for 1 ms since a write was posted: the write is dropped and logged (R64). -/
def execSlowWriteLost (b : Blk) (s : State) : Res :=
  let isWrite := fun (p : Posted) => p.blk = b && p.tick + s.msTicks ≤ s.render.tick && (match p.op with
    | .write _ _ => true
    | .clear _ _ _ => false)
  match s.fab.posted.find? isWrite with
  | some p =>
    let off := match p.op with
      | .write off _ | .clear off _ _ => off
    settle ({ s with fab := { s.fab with posted := s.fab.posted.erase p } }.logErr b off eSlowLost p.seat)
  | none => settle s

end Sys2Proof.Machine
end

