-- ==== Sys2Proof/Machine/Prompter.lean ====
section
/-! DEFINITION. The Prompters' runs and their instruction set (R426 to R433, R440). -/

namespace Sys2Proof.Machine

open Sys2Proof

/-! A run (R426, R427) -/

/-- May a Prompter run: active, on a clocked render, and not on a LOCKSTEP understudy (R440)? -/
def State.prMay (s : State) (n : Nat) : Bool :=
  n < s.model.prompters && s.clocked && s.prActive n && !s.isUnderstudy

/-- The block in progress. -/
def State.prBlock (s : State) : Nat := s.render.rsi / s.blockSize

/-- A run begins at the first instruction executed in a block. -/
def State.prBegin (s : State) (n : Nat) : State :=
  let e := s.pr n
  if e.run = s.prBlock + 1 then s else s.setPr n { e with run := s.prBlock + 1, used := 0, runOver := false }

/-- Targets below the horizon are satisfied. -/
def State.horizon (s : State) : Nat := (s.prBlock + 3) * s.blockSize

def State.setPc (s : State) (n pc : Nat) : State := s.set (.prompter n) Reg.Prompter.PC pc

/-- Execution goes on at a word, or faults outside the region (R433). -/
def State.prGoto (s : State) (n : Nat) (pc : Int) : State :=
  if 0 ≤ pc ∧ pc < 4096 then s.setPc n pc.toNat else s.prFault n 5

/-- The wait at the PC is not satisfied: the run ends. -/
def State.prWait (s : State) (n kind : Nat) (target : Option Nat) : State :=
  let e := s.pr n
  let b := Blk.prompter n
  let s := s.setPr n { e with wait := some (e.wait.getD (s.prBlock * s.blockSize)), runOver := true }
  let s := ((s.setPrState n 2).set b Reg.Prompter.WAIT_KIND kind)
  s.set64 b Reg.Prompter.TARGET_LO Reg.Prompter.TARGET_HI (target.getD 0)

/-- A wait, if there was one, is over. -/
def State.prGo (s : State) (n : Nat) : State :=
  ((s.setPr n { s.pr n with wait := none, edge := none }).setPrState n 1).set (.prompter n) Reg.Prompter.WAIT_KIND 0

/-- A wait with a target sample, if known: satisfied below the horizon, and the mark is then the target. -/
def State.prUntil (s : State) (n kind : Nat) (next : Int) (target : Option Nat) : State :=
  match target with
  | some t => if t < s.horizon then ((s.prGo n).setMark n t).prGoto n next else s.prWait n kind target
  | none => s.prWait n kind none

/-! Targets (R429) -/

/-- First render sample whose media time is at or after a device time in ns (R350, R361). -/
def State.timeTarget (s : State) (t : Nat) : Nat := (t * s.fs + 999999999) / 1000000000 - s.render.m0

/-- Predicted sample of a timecode label, while the reader is LOCKED and plays forward (R437). -/
def State.tcTarget (s : State) (atLeast : Bool) (label : Nat) : Option Nat :=
  let g := Blk.prompterGlobal
  let rate := s.fld g Reg.PrompterGlobal.TC_RATE
  let want := tcFrame rate label
  match s.tc.frame, s.tc.period with
  | some f, some d =>
    if !s.bit g Reg.PrompterGlobal.TC_LOCKED || s.bit g Reg.PrompterGlobal.TC_REVERSE then none
    else
      let ahead := if atLeast && want ≤ f then 0 else (want + tcDay rate - f) % tcDay rate
      some (roundDiv (s.tc.stamp + ahead * d) 256).toNat
  | _, _ => none

/-! Actions (R430 to R432) -/

/-- A STROBE of the seat's groups for an apply sample, or for the first one after prepare. -/
def State.prStrobe (s : State) (n mask at_ : Nat) (next : Bool) : State :=
  let (s, serial) := s.strobe .prompter n mask at_
  if next && serial ≠ 0 then
    { s with fab := { s.fab with commits := s.fab.commits.map (fun c => if c.serial = serial then { c with next := true } else c) } }
  else s

/-- A WRITE; under a mask the other bits keep the value the address shows. -/
def State.prWrite (s : State) (n addr value : Nat) (mask : Option Nat) : State :=
  let v := match mask with
    | none => value
    | some m => (s.readPlace n (s.resolve n addr) &&& (0xFFFFFFFF ^^^ m)) ||| (value &&& m)
  match s.tryWrite (.prompter n) addr (BitVec.ofNat 32 v) (addr % 4 = 0) with
  | (s, true) => s
  | (s, false) => s.event (.prompter n) 8

/-- MOTION over a run of objects; those the seat may not use are skipped. -/
def State.prMotion (s : State) (n : Nat) (clear : Bool) (first flags count : Nat) : State :=
  (List.range count).foldl (fun s k =>
    let o := first + k
    if o < s.nowObjects && s.mayWrite n (.obj o) then s.motionFlags o (if clear then 0 else flags) (if clear then flags else 0)
    else s.event (.prompter n) 8) s

/-- SIGNAL to the host. -/
def State.prSignal (s : State) (n code : Nat) : State :=
  let b := Blk.prompter n
  let s := ((s.event b 0).set b Reg.Prompter.SIGNAL_CODE code).countSat b Reg.Prompter.SIGNAL_COUNT
  s.set64 b Reg.Prompter.SIGNAL_AT_LO Reg.Prompter.SIGNAL_AT_HI (s.prMark n)

/-- SIGNAL to another Prompter, which must admit this seat. -/
def State.prSignalFlag (s : State) (n flag to_ : Nat) : State :=
  if to_ < s.model.prompters && (s.fld (.prompter to_) Reg.Prompter.FLAG_ACCEPT).testBit n then s.cueFlagsSet to_ (2 ^ flag)
  else s.event (.prompter n) 8

/-- Does a condition hold (R432)? -/
def State.prCond (s : State) (n cond : Nat) : Bool :=
  let strobe := s.fld (.prompter n) Reg.Prompter.STROBE_STATE
  let media := s.fld .mediaClk Reg.MediaClk.STATE
  if cond < 0x10 then (s.fld (.prompter n) Reg.Prompter.FLAGS).testBit cond
  else if cond < 0x20 then (s.fld .prompterGlobal Reg.PrompterGlobal.GPIO_LEVEL).testBit (cond - 0x10)
  else if cond = 0x20 then strobe = updApplied
  else if cond = 0x21 then strobe = updFailed || strobe = updRefused || strobe = updCancelled
  else if cond = 0x22 then strobe = updSplit
  else if cond = 0x23 then s.bit .prompterGlobal Reg.PrompterGlobal.TC_LOCKED
  else media = 1 || media = 2

/-- Does a condition on the last STROBE have to wait for its result? -/
def State.condWaits (s : State) (n cond : Nat) : Bool :=
  let strobe := s.fld (.prompter n) Reg.Prompter.STROBE_STATE
  0x20 ≤ cond && cond ≤ 0x22 && (strobe = updPreparing || strobe = updPending)

/-- CALL; where its stack is full and its target outside the region, which fault is given is open. -/
def State.prCall (s : State) (n : Nat) (next target : Int) : State :=
  let e := s.pr n
  let full := decide (8 ≤ e.calls.length)
  let out := decide (target < 0 ∨ 4096 ≤ target)
  if full && out then
    let (v, s) := s.fresh
    s.prFault n (if v % 2 = 0 then 1 else 5)
  else if full then s.prFault n 1
  else (s.setPr n { e with calls := next.toNat :: e.calls }).prGoto n target

/-- RET. -/
def State.prRet (s : State) (n : Nat) : State :=
  let e := s.pr n
  match e.calls with
  | a :: rest => (s.setPr n { e with calls := rest }).prGoto n a
  | [] => s.prFault n 2

/-- LOOP begin. -/
def State.prLoop (s : State) (n : Nat) (next : Int) (count : Nat) : State :=
  let e := s.pr n
  if 4 ≤ e.loops.length then s.prFault n 3
  else (s.setPr n { e with loops := (next.toNat, count) :: e.loops }).prGoto n next

/-- LOOP END: back while iterations remain or the count was 0, else on. -/
def State.prLoopEnd (s : State) (n : Nat) (next : Int) : State :=
  let e := s.pr n
  match e.loops with
  | [] => s.prFault n 4
  | (a, left) :: rest =>
    if left = 0 then s.prGoto n a
    else if left = 1 then (s.setPr n { e with loops := rest }).prGoto n next
    else (s.setPr n { e with loops := (a, left - 1) :: rest }).prGoto n a

/-- HALT; the PC names the next word. -/
def State.prHalt (s : State) (n pc : Nat) (notify : Bool) : State :=
  let s := if notify then s.prSignal n 0xFF else s
  let s := if pc + 1 < 4096 then s.setPc n (pc + 1) else s
  ((s.setPrState n 3).event (.prompter n) 1).setPr n { s.pr n with runOver := true }

/-- One instruction of `len` words at `pc`. -/
def State.prExec (s : State) (n pc len : Nat) (i : CueInstr) : State :=
  let next : Int := ((pc + len : Nat) : Int)
  let to_ := fun (off : Int) => (pc : Int) + off
  let on := fun (s : State) => s.prGoto n next
  let mark : Int := s.prMark n
  let first := s.prBlock * s.blockSize
  match i with
  | .halt notify => s.prHalt n pc notify
  | .waitTime sec ns => s.prUntil n 1 next (some (s.timeTarget (sec * 1000000000 + ns)))
  | .waitRsi at_ => s.prUntil n 2 next (some at_)
  | .waitRel d => s.prUntil n 2 next (some (mark + d).toNat)
  | .waitTc atLeast label => s.prUntil n 3 next (s.tcTarget atLeast label)
  | .waitGpio _ _ =>
    match (s.pr n).edge with
    | some t => ((s.prGo n).setMark n t).prGoto n next
    | none => s.prWait n 4 none
  | .waitFlag clear k =>
    if (s.fld (.prompter n) Reg.Prompter.FLAGS).testBit k then
      let s := (s.prGo n).setMark n first
      (if clear then s.cueFlagsClr n (2 ^ k) else s).prGoto n next
    else s.prWait n 5 none
  | .strobeMark mask d => on (s.prStrobe n mask (mark + d).toNat false)
  | .strobeRsi mask at_ => on (s.prStrobe n mask at_ false)
  | .strobeNext mask => on (s.prStrobe n mask 0 true)
  | .write addr value mask => on (s.prWrite n addr value mask)
  | .motion clear o flags count => if 1 ≤ count ∧ count ≤ 1024 then on (s.prMotion n clear o flags count) else s.prFault n 6
  | .signalHost code => on (s.prSignal n code)
  | .signalFlag flag t => on (s.prSignalFlag n flag t)
  | .branch off cond not_ =>
    if s.condWaits n cond then s.prWait n 6 none
    else (s.prGo n).prGoto n (if s.prCond n cond != not_ then to_ off else next)
  | .jump off => s.prGoto n (to_ off)
  | .call off => s.prCall n next (to_ off)
  | .ret => s.prRet n
  | .loop count => s.prLoop n next count
  | .loopEnd => s.prLoopEnd n next

/-! Steps -/

/-- The row of the command table an instruction belongs to: its opcode, and a mode where rows differ by it. -/
def CueInstr.row : CueInstr → Nat × Nat
  | .halt _ => (0x00, 0)
  | .waitTime .. => (0x01, 0)
  | .waitRsi _ | .waitRel _ => (0x02, 0)
  | .waitTc .. => (0x03, 0)
  | .waitGpio .. => (0x04, 0)
  | .waitFlag .. => (0x05, 0)
  | .strobeMark .. | .strobeRsi .. | .strobeNext _ => (0x06, 0)
  | .write .. => (0x07, 0)
  | .motion clear .. => (0x08, if clear then 1 else 0)
  | .signalHost _ => (0x09, 0)
  | .signalFlag .. => (0x09, 1)
  | .branch .. => (0x0A, 0)
  | .jump _ => (0x0B, 0)
  | .call _ => (0x0C, 0)
  | .ret => (0x0D, 0)
  | .loop _ => (0x0E, 0)
  | .loopEnd => (0x0E, 1)

/-- The words at the PC; the region ends at word 4,095. -/
def State.prWords (s : State) (n pc : Nat) : List Word :=
  (List.range 5).map (fun k => if pc + k < 4096 then Map.get 0#32 (4096 * n + pc + k) s.cue else 0#32)

/-- The end of a run, if it has ended: SLIP at its 64th instruction with more to do; and the counts (R426, R438). -/
def State.prAfter (s : State) (n : Nat) : State :=
  let e := s.pr n
  let b := Blk.prompter n
  let s := if e.used = 64 && !e.runOver then (s.setPr n { e with runOver := true }).event b 7 else s
  if (s.pr n).runOver then (s.set b Reg.Prompter.INSTR_LAST e.used).peak b Reg.Prompter.INSTR_PEAK e.used else s

/-- One instruction of the run of the block in progress; of one row of the table only, where one is named. -/
def State.prStep (s : State) (n : Nat) (row : Option (Nat × Nat)) : State :=
  if !s.prMay n then s
  else
    let t := s.prBegin n
    let e := t.pr n
    if e.runOver || 64 ≤ e.used then s
    else
      let pc := t.fld (.prompter n) Reg.Prompter.PC
      let u := t.setPr n { e with used := e.used + 1 }
      match cueDecode (t.prWords n pc) with
      | none => if row.isSome then s else (u.prFault n 6).prAfter n
      | some (i, len) =>
        if row.isSome && row ≠ some i.row then s
        else if 4096 < pc + len then (u.prFault n 5).prAfter n
        else (u.prExec n pc len i).prAfter n

/-- The run of a block: instructions until one ends it. -/
def State.prRun (s : State) (n : Nat) : State := iter (fun s => s.prStep n none) 64 s

def execPrompterRun (n : Nat) (s : State) : Res := settle (s.prRun n)
def execCueHalt (n : Nat) (s : State) : Res := settle (s.prStep n (some (0x00, 0)))
def execWaitTime (n : Nat) (s : State) : Res := settle (s.prStep n (some (0x01, 0)))
def execWaitRsi (n : Nat) (s : State) : Res := settle (s.prStep n (some (0x02, 0)))
def execWaitTc (n : Nat) (s : State) : Res := settle (s.prStep n (some (0x03, 0)))
def execWaitGpio (n : Nat) (s : State) : Res := settle (s.prStep n (some (0x04, 0)))
def execWaitFlag (n : Nat) (s : State) : Res := settle (s.prStep n (some (0x05, 0)))
def execStrobe (n : Nat) (s : State) : Res := settle (s.prStep n (some (0x06, 0)))
def execCueWrite (n : Nat) (s : State) : Res := settle (s.prStep n (some (0x07, 0)))
def execCueMotionSet (n : Nat) (s : State) : Res := settle (s.prStep n (some (0x08, 0)))
def execCueMotionClear (n : Nat) (s : State) : Res := settle (s.prStep n (some (0x08, 1)))
def execSignalHost (n : Nat) (s : State) : Res := settle (s.prStep n (some (0x09, 0)))
def execSignalFlag (n : Nat) (s : State) : Res := settle (s.prStep n (some (0x09, 1)))
def execBranchIf (n : Nat) (s : State) : Res := settle (s.prStep n (some (0x0A, 0)))
def execCueJump (n : Nat) (s : State) : Res := settle (s.prStep n (some (0x0B, 0)))
def execCall (n : Nat) (s : State) : Res := settle (s.prStep n (some (0x0C, 0)))
def execRet (n : Nat) (s : State) : Res := settle (s.prStep n (some (0x0D, 0)))
def execCueLoop (n : Nat) (s : State) : Res := settle (s.prStep n (some (0x0E, 0)))
def execCueLoopEnd (n : Nat) (s : State) : Res := settle (s.prStep n (some (0x0E, 1)))

/-! Contexts (R440) -/

/-- At a block boundary a LOCKSTEP principal forwards every Prompter's context. -/
def State.prContexts (s : State) : State :=
  if !s.lockPri then s
  else (List.range s.model.prompters).foldl (fun s n =>
    let e := s.pr n
    let b := Blk.prompter n
    s.tellPeer (.prompter n (s.prState n) (s.fld b Reg.Prompter.PC) e.calls e.loops (s.prMark n) (s.fld b Reg.Prompter.FLAGS))) s

end Sys2Proof.Machine
end

