-- ==== Sys2Proof/Machine/Block.lean ====
section
/-! DEFINITION. The media sample strobe, the block boundary, and the release and deadline of a block (R19, R20, R31, R350). -/

namespace Sys2Proof.Machine

open Sys2Proof

/-! The block boundary -/

/-- Does a commit of MEDIACLK.SEL apply at this boundary? It governs over an automatic switch (R372). -/
def State.selCommitHere (s : State) : Bool :=
  s.fab.commits.any (fun c => c.pending && c.prepared && c.applyAt ≤ s.render.rsi && c.blks.contains .mediaClk &&
    regGet c.vals Blk.mediaClk.base Reg.MediaClk.SEL ≠ s.fld .mediaClk Reg.MediaClk.SEL)

/-- A switch of the selected instance that waits for the boundary (R365). -/
def State.switchBoundary (s : State) : State :=
  if s.time.switch.isNone || s.selCommitHere then s else s.takeSwitch

/-- Writes and ownership changes whose boundary has come (R396, R492). -/
def State.laterBoundary (s : State) : State :=
  let i := s.render.rsi
  let (now, then_) := s.twin.later.partition (·.at_ ≤ i)
  let (own, ownThen) := s.twin.ownLater.partition (·.1 ≤ i)
  let s := { s with twin := { s.twin with later := then_, ownLater := ownThen, acted := now } }
  let s := now.foldl State.laterWrite s
  own.foldl (fun s o => (s.applyOwn o.2).1) s

/-- What happens at the block boundary at the current sample. -/
def State.boundary (s : State) : State :=
  let i := s.render.rsi
  let s := ((s.resetDone i).switchBoundary).realignBoundary
  if s.stopped then s
  else
    let s := ((((s.resetsBoundary i).promptersBoundary i).prContexts).restoreBoundary).readHead.corrsBoundary i
    let s := (s.objs.map (·.1)).foldl (fun s n => s.latchFlags (i / s.blockSize) n) s
    let s := ((s.entryBoundary.detachNow).handoverNow).laterBoundary
    let s := (s.rebuild i).throttleBoundary
    let s := if s.render.resetting then s.renderReset i else s
    if s.render.stopping then ((s.resetsBoundary (i + 1)).blockResets (i + 1)).stopRender 0 else s

/-! The strobe -/

/-- The render sample index counts strobes while the render is clocked; an understudy that replays takes it from the
journal. Samples of half a window ago are forgotten. -/
def State.advance (s : State) : State :=
  if s.clocked && !s.replaying then
    let i := s.render.rsi + 1
    { s with render := { s.render with rsi := i }
             samples := Map.drop (fun k => decide (k % 4096 = (i + 2048) % 4096)) s.samples }
  else s

/-- A start that waits begins at a media sample number that is a multiple of 64 (R350, R381). -/
def State.startHere (s : State) : State :=
  if s.render.starting && s.render.startTick ≤ s.render.tick && s.time.m % 64 = 0 then
    -- A switch that a restart kept waiting applies at the boundary that restarts the render (R372).
    s.startRender.takeSwitch.promptersBoundary 0
  else s

/-- One media sample strobe. Without its clocks the module has none; in a low-power state only the greenroom's time
goes on. -/
def execSampleStrobe (s : State) : Res :=
  settle (
    let t := { s with render := { s.render with tick := s.render.tick + 1 } }
    if s.dead then s
    else if s.lowPower then t.pulseTick
    else
      let s := t.advance.timeStrobe.pulseTick
      let s := (s.portsStrobe s.render.rsi).psStrobe s.render.rsi
      let s := if s.clocked && !s.replaying && s.render.rsi % s.blockSize = 0 then s.boundary else s
      s.startHere)

/-! Release and deadline -/

/-- What a journaled block brings besides its samples: which of them were missing, and the commits and writes that have
not come by themselves (R37, R492). -/
def State.journalTake (s : State) (j : JournalBlock) : State :=
  let streams := ((j.samples.filter (·.type = 1)).map (·.unit)).eraseDups
  let s := streams.foldl (fun s n =>
    let bits := (j.missing.lookup n).getD 0
    let held := ((s.blockSamples j.block).zipIdx.filter (fun (e : Nat × Nat) => !bits.testBit e.2)).map (fun e => (e.1, e.1 + 1))
    s.setIng n { s.ing n with got := held.reverse ++ (s.ing n).got }) s
  let s := j.commits.foldl (fun (s : State) (c : JournalCommit) =>
    if s.fab.serial < c.serial then
      let d := { s.capture .peer c.seat c.mask c.applyAt c.serial with
        vals := c.vals, wasPending := [], prepared := true, applyAt := c.applyAt }
      { s with fab := { s.fab with serial := c.serial, commits := s.fab.commits ++ [d] } }
    else s) s
  let new := j.writes.filter (fun w => !s.twin.later.contains w)
  { s with twin := { s.twin with later := s.twin.later ++ new } }

/-- An understudy that replays takes the next journaled block as its input (R503). -/
def State.replayBlock (s : State) : State :=
  match s.twin.journal with
  | [] => s
  | j :: rest =>
    let s := (j.samples.foldl (fun (s : State) (x : InSample) =>
      s.putSample { type := x.type, unit := x.unit, chan := x.chan } x.at_ x.v) s).journalTake j
    let s := { s with twin := { s.twin with journal := rest }
                      render := { s.render with rsi := s.blockStart (j.block + 1), m0 := s.twin.peerM0 } }
    ((s.set .twin Reg.Twin.LAG (min rest.length 0xFFFF)).boundary).release j.block

/-- 20 microseconds after a block boundary the block that ended is released. -/
def execRelease (s : State) : Res :=
  settle (
    if !s.running || s.dead then s
    else if s.replaying then s.replayBlock
    else
      let n := s.render.rsi / s.blockSize
      if n ≤ s.render.block + (if s.render.released then 1 else 0) then s else s.release (n - 1))

/-- The deadline of a block comes two blocks after its first sample, at the release of the next one (R19); its end is
taken first. -/
def execDeadline (s : State) : Res :=
  settle (if s.running && !s.dead && s.blockStart (s.render.block + 2) ≤ s.render.rsi then s.deadline else s)

end Sys2Proof.Machine
end

