-- ==== Sys2Proof/Machine/Bmc.lean ====
section
/-! DEFINITION. The BMC target of the greenroom (R473). -/

namespace Sys2Proof.Machine

open Sys2Proof

/-- The place of a BMC offset: 0x0000 to 0x0FFF GREENROOM, 0x1000 to 0x1FFF JACK. -/
def bmcPlace (off : Nat) : Option (Blk × Nat) :=
  if off % 4 ≠ 0 then none
  else if off < 0x1000 then some (.greenroom, off)
  else if off < 0x2000 then some (.jack, off - 0x1000)
  else none

/-- What the BMC may write: PWR.TARGET, WAKE.PULSE, BMC.ALERT_EN and the watch list. -/
def bmcMay (off : Nat) (data : Word) : Bool :=
  (off = 0x40 && Reg.Greenroom.PWR_TARGET.of data ≠ 1) || off = 0x4C || off = 0x54 || (0x80 ≤ off && off < 0x100 && off % 4 = 0)

/-- A permitted write acts at once in the greenroom domain, where the target lives; each sets BMC_WRITE. -/
def State.bmcWord (s : State) (off : Nat) (data : Word) : State :=
  if s.green.nack then s
  else if bmcMay off data then (s.slowWrite .greenroom off data).event .greenroom 4
  else { s with green := { s.green with nack := true } }

/-- BMC_ALERT_B is driven low. -/
def State.bmcAlert (s : State) : Bool :=
  s.fld .greenroom Reg.Hdr.EVENTS &&& s.fld .greenroom Reg.Greenroom.BMC_ALERT_EN ≠ 0

/-- A write transaction: words from an offset on; the first one that may not be written is refused. -/
def execBmcWrite (off : Nat) (words : List Word) (s : State) : Res :=
  let s := { s with green := { s.green with nack := false, answer := [] } }
  settle (words.zipIdx.foldl (fun s e => s.bmcWord (off + 4 * e.2) e.1) s)

/-- A read transaction: words as the greenroom domain holds them, with nothing cleared. -/
def execBmcRead (off n : Nat) (s : State) : Res :=
  let now := { s with fab := { s.fab with mir := s.fab.act } }
  let word := fun k => match bmcPlace (off + 4 * k) with
    | some (b, o) => BitVec.ofNat 32 (now.readPlace 0 (now.resolve 0 (b.base + o)))
    | none => 0#32
  settle { s with green := { s.green with nack := (bmcPlace off).isNone, answer := (List.range n).map word } }

end Sys2Proof.Machine
end

