-- ==== Sys2Proof/Machine/DefCfg.lean ====
section
/-! DEFINITION. The replay of the default configuration, record by record, as SEAT 0 (R543). -/

namespace Sys2Proof.Machine

open Sys2Proof

/-- The state a meaning answers. -/
def Res.stateOr (s : State) : Res → State
  | .next t => t
  | _ => s

/-- Word `k` of record `i`. -/
def State.defWord (s : State) (i k : Nat) : Nat := leAt (s.flashAt (defcfgAt + 64 + 32 * i) 32) (4 * k) 4

/-- A record stops the replay. -/
def State.defFail (s : State) (i : Nat) : State :=
  let s := (s.set .resetPage Reg.Reset.DEFCFG_FAILED 1).set .resetPage Reg.Reset.DEFCFG_INDEX i
  { (s.event .resetPage 3) with boot := { s.boot with replay := none, busy := false, result := none } }

/-- The next record. -/
def State.defNext (s : State) (i n : Nat) : State :=
  { s with boot := { s.boot with replay := some (i + 1, n), busy := false, result := none, since := s.render.tick } }

/-- The record under replay, where it has the KIND of a row; a reserved KIND stops the replay at any row. -/
def State.defRow (s : State) (kind : Nat) (f : Nat → Nat → State) : State :=
  match s.boot.replay with
  | none => s
  | some (i, n) =>
    if n ≤ i || s.boot.warm.isSome || s.dead then s
    else
      let k := s.defWord i 0 % 256
      if k < 1 ∨ 5 < k then s.defFail i
      else if k = kind then f i n else s

def execDefcfgWrite (s : State) : Res :=
  settle (s.defRow 1 (fun i n =>
    let addr := s.defWord i 1
    match s.tryWrite (.seat 0) addr (BitVec.ofNat 32 (s.defWord i 2)) (addr % 4 = 0) with
    | (s, true) => s.defNext i n
    | (s, false) => s.defFail i))

/-- A STROBE record strobes, and then waits for its result. -/
def execDefcfgStrobe (s : State) : Res :=
  settle (s.defRow 2 (fun i n =>
    let s := if s.boot.busy then s
      else
        let s := { s with fab := { s.fab with defcfg := updIdle }, boot := { s.boot with busy := true } }
        let (s, serial) := s.strobe .defaultConfig 0 (s.defWord i 1) 0
        { s with fab := { s.fab with commits := s.fab.commits.map (fun c => if c.serial = serial then { c with next := true } else c) } }
    if s.fab.defcfg = updApplied ∨ s.defWord i 1 = 0 then s.defNext i n
    else if s.fab.defcfg = updPreparing ∨ s.fab.defcfg = updPending then s
    else s.defFail i))

/-- The command a COMMAND record stands for: its file comes from flash. -/
def State.defCommand (s : State) (i : Nat) : Cmd :=
  let w := s.defWord i 0
  let c : Cmd := {
    seat := 0, sq := 4, tag := bootTag, opcode := w / 256 % 256
    word0 := BitVec.ofNat 32 (w / 256 % 256 + w / 2 ^ 16 % 16 * 2 ^ 10), context := 0#32
    params := [BitVec.ofNat 32 (s.defWord i 1)], upAt := s.render.tick }
  let ps := BitVec.ofNat 32 (s.defWord i 1) :: List.replicate 13 0#32
  let ps := match c.sourceAt with
    | some k => (ps.set k 0#32).set (k + 3) (BitVec.ofNat 32 (s.defWord i 3))
    | none => ps
  { c with params := ps ++ [BitVec.ofNat 32 (s.defWord i 2), BitVec.ofNat 32 (s.defWord i 3)] }

/-- The opcode of such a command begins, or runs where it is short. -/
def State.defBegin (s : State) (c : Cmd) : State :=
  let file := s.flashAt (c.n 14) (c.n 15)
  match c.opcode with
  | 0x10 => Res.stateOr s (execLayoutLoad 0 bootTag s)
  | 0x11 => Res.stateOr s (execLayoutSelect 0 bootTag s)
  | 0x20 => Res.stateOr s (execFilterLoad 0 bootTag s)
  | 0x28 => Res.stateOr s (execHrirLoad 0 bootTag s)
  | 0x22 => Res.stateOr s (execEqSetLoad 0 bootTag file s)
  | 0x58 => Res.stateOr s (if c.flag 0 then execMotionFree 0 bootTag s else execMotionLoad 0 bootTag file s)
  | _ => Res.stateOr s (execCueLoad 0 bootTag file s)

/-- A COMMAND record issues its command, and then waits for its end. -/
def execDefcfgCommand (s : State) : Res :=
  settle (s.defRow 3 (fun i n =>
    let c := s.defCommand i
    if !s.boot.busy && !([0x10, 0x11, 0x20, 0x28, 0x22, 0x58, 0x59].contains c.opcode && c.wellFormed) then s.defFail i
    else
      let s := if s.boot.busy then s
        else
          let q := s.seat 0
          let s := { s.setSeat 0 { q with cmds := q.cmds ++ [c] } with boot := { s.boot with busy := true, result := none } }
          s.defBegin c
      match s.boot.result with
      | none => s
      | some status => if status = Status.ok then s.defNext i n else s.defFail i))

/-- A WAIT_LOCK record: `expired` when its timeout has passed. Ticks count it; the first and the last may each be partly
gone. -/
def execWaitLock (expired : Bool) (s : State) : Res :=
  settle (s.defRow 4 (fun i n =>
    let media := s.fld .mediaClk Reg.MediaClk.STATE
    let over_ := s.defWord i 1 * s.fs ≤ (s.render.tick + 1 - s.boot.since) * 1000
    if media = 1 ∨ media = 2 ∨ (expired ∧ over_) then s.defNext i n else s))

def execDefcfgEnd (s : State) : Res :=
  settle (s.defRow 5 (fun _ _ =>
    let s := (s.set .resetPage Reg.Reset.DEFCFG_LOADED 1).event .resetPage 2
    { s with boot := { s.boot with replay := none } }))

end Sys2Proof.Machine
end

