-- ==== Sys2Proof/Machine/Stagedoor.lean ====
section
/-! DEFINITION. Stagedoor: authenticated messages of hosts on the network, sessions, resending and keepalives
(R418 to R424). -/

namespace Sys2Proof.Machine

open Sys2Proof

/-! Messages (R419, R420) -/

/-- A host's message: its header fields and its payload bytes. -/
structure SdHead where
  type : Nat
  seat : Nat
  seq : Nat
  ack : Nat
  session : Nat
  payload : List Byte
  deriving DecidableEq, Repr

/-- A well-formed message of a host: header, payload, tag. -/
def sdParse (msg : List Byte) : Option SdHead :=
  let len := beAt msg 6 2
  if beAt msg 0 2 = 0x5344 ∧ beAt msg 2 1 = 1 ∧ [1, 2, 3, 6].contains (beAt msg 3 1) ∧ beAt msg 5 1 < 4 ∧
      len % 4 = 0 ∧ len ≤ 8192 ∧ beAt msg 20 4 = 0 ∧ msg.length = 24 + len + 16 then
    some { type := beAt msg 3 1, seat := beAt msg 4 1, seq := beAt msg 8 4, ack := beAt msg 12 4,
           session := beAt msg 16 4, payload := (msg.drop 24).take len }
  else none

/-- The tag of a header and payload. -/
def sdTag (key body : List Byte) : List Byte := (hmac key body).take 16

/-- A message as it goes out. -/
def sdSpell (key : List Byte) (seat type flags seq ack session : Nat) (payload : List Word) : List Byte :=
  let body := beBytes 2 0x5344 ++ beBytes 1 1 ++ beBytes 1 type ++ beBytes 1 seat ++ beBytes 1 flags ++
    beBytes 2 (4 * payload.length) ++ beBytes 4 seq ++ beBytes 4 ack ++ beBytes 4 session ++ beBytes 4 0 ++
    payload.flatMap bytesOf
  body ++ sdTag key body

/-- Is a seat bound to Stagedoor on a port? -/
def State.sdBound (s : State) (p seat : Nat) : Bool :=
  seat < s.model.seats && s.isStagedoor seat && s.bindIndex seat = p

/-- A message is dropped, counted, and reported (R420, R422). -/
def State.sdReject (s : State) (seat : Nat) (counter : Fld) : State := (s.count (.seat seat) counter).event (.seat seat) 5

def State.sdOf (s : State) (seat : Nat) : SdState := (s.seat seat).sd
def State.setSd (s : State) (seat : Nat) (d : SdState) : State := s.setSeat seat { s.seat seat with sd := d }

/-- The module numbers a message of its own that is not resent, and sends it (R423). -/
def State.sdNumbered (s : State) (seat type flags : Nat) (payload : List Word) (ack : Option Nat := none) : State :=
  let d := s.sdOf seat
  if d.session = 0 then s
  else (s.setSd seat { d with txSeq := d.txSeq + 1 }).sdFrame seat type flags (d.txSeq + 1) payload ack

/-! Sessions (R421, R422) -/

/-- An authenticated message: the host is there, and its address is the peer's (R397, R414, R415). -/
def State.sdHeard (s : State) (seat ip udp : Nat) : State :=
  let s := s.setSd seat { s.sdOf seat with heardAt := s.render.tick }
  ((s.set (.seat seat) Reg.Seat.SD_PEER_IP ip).set (.seat seat) Reg.Seat.SD_PEER_PORT udp).hostBack seat

/-- A hello begins a session where there is none, and is answered in any case. -/
def State.sdHello (s : State) (seat : Nat) : State :=
  let s := if (s.sdOf seat).session ≠ 0 then s
    else
      let (v, s) := s.fresh
      let session := v % (2 ^ 32 - 1) + 1
      let d := s.sdOf seat
      let s := s.setSd seat { key := d.key, persisted := d.persisted, heardAt := d.heardAt, session := session,
                              keptAt := s.render.tick }
      (s.set (.seat seat) Reg.Seat.SD_SESSION session).showAttached seat
  (s.sdNumbered seat 6 1 [] (some (s.sdOf seat).highest)).sdFlush seat

/-- May a message of the current session with this sequence number be accepted? -/
def SdState.fresh (d : SdState) (seq : Nat) : Bool :=
  d.highest < seq || (seq < d.highest && d.highest ≤ seq + 64 && !d.window.contains seq)

/-- Its acceptance: the window moves, and the highest received in order with it. -/
def SdState.accept (d : SdState) (seq : Nat) : SdState :=
  let highest := max d.highest seq
  let window := (seq :: d.window).filter (highest ≤ · + 64)
  { d with highest := highest, window := window
           inOrder := iter (fun k => if window.contains (k + 1) then k + 1 else k) 65 d.inOrder }

/-- Its ACK covers messages of the module. -/
def SdState.acked (d : SdState) (ack : Nat) : SdState := { d with unacked := d.unacked.filter (ack < ·.seq) }

/-! What messages do (R424) -/

/-- The answer to a READ or WRITE: RESPONSE, with ERROR where it is refused. -/
def State.sdAnswer (s : State) (seat type : Nat) (payload : Option (List Word)) : State :=
  match payload with
  | some ws => s.sdNumbered seat type 1 ws
  | none => s.sdNumbered seat type 3 []

/-- Words of the payload. -/
def SdHead.word (m : SdHead) (k : Nat) : Nat := (word32 (m.payload.drop (4 * k))).toNat

/-- Count of a READ or WRITE, where it is in range. -/
def SdHead.count (m : SdHead) : Option Nat :=
  let n := m.word 0 / 2 ^ 16
  if 12 ≤ m.payload.length ∧ 1 ≤ n ∧ n ≤ 256 then some n else none

/-- Registers read one after another, each with its effects. -/
def State.sdRegisters (s : State) (seat addr n : Nat) : State × List Word :=
  (List.range n).foldl (fun (acc : State × List Word) k =>
    let s := acc.1.hostRead (.seat seat) (addr + 4 * k)
    (s, acc.2 ++ [BitVec.ofNat 32 (Map.get 0 (Writer.seat seat).code s.fab.answer)])) (s, [])

def State.sdRead (s : State) (m : SdHead) : State :=
  let a := m.word 1
  match m.count, m.word 0 % 4 with
  | some n, 0 =>
    if a % 4 = 0 ∧ a + 4 * n ≤ 0x1000000 then
      let (s, ws) := s.sdRegisters m.seat a n
      s.sdAnswer m.seat 1 (some ws)
    else s.sdAnswer m.seat 1 none
  | some n, 1 =>
    -- Upload space reads what the UPLOAD has received.
    s.sdAnswer m.seat 1 (match s.cmdOf m.seat (m.word 2) with
    | some c =>
      let bs := (List.range (4 * n)).map (fun k => Map.get none (a + k) c.upload)
      if !c.final && bs.all (·.isSome) then some ((List.range n).map (fun k => word32 ((bs.drop (4 * k)).map (·.getD 0#8)))) else none
    | none => none)
  | some n, 2 =>
    s.sdAnswer m.seat 1 (match s.buffer (m.word 2) with
    | some b =>
      if (m.seat = 0 ∨ b.seat = m.seat) ∧ a + 4 * n ≤ b.size then
        some ((List.range n).map (fun k => word32 (b.read (a + 4 * k) 4)))
      else none
    | none => none)
  | _, _ => s.sdAnswer m.seat 1 none

/-- Bytes of the UPLOAD source of the command with a tag, in any order; false past its length, or without
such a command. -/
def State.sdUpload (s : State) (seat tag off : Nat) (bs : List Byte) : State × Bool :=
  match s.cmdOf seat tag with
  | some c =>
    match c.sourceAt with
    | some k =>
      if c.final ∨ c.n k % 4 ≠ 2 ∨ c.n (k + 3) < off + bs.length then (s, false)
      else
        let up := bs.zipIdx.foldl (fun (m : Map (Option Byte)) e => m.put none (off + e.2) (some e.1)) c.upload
        (s.setCmd { c with upload := up, upAt := s.render.tick }, true)
    | none => (s, false)
  | none => (s, false)

def State.sdWrite (s : State) (m : SdHead) : State :=
  let a := m.word 1
  match m.count, m.word 0 % 4 with
  | some n, 0 =>
    if a % 4 = 0 ∧ a + 4 * n ≤ 0x1000000 ∧ m.payload.length = 12 + 4 * n then
      let (s, good) := (List.range n).foldl (fun (acc : State × Bool) k =>
        let (s, g) := acc.1.tryWrite (.seat m.seat) (a + 4 * k) (BitVec.ofNat 32 (m.word (3 + k)))
        (s, acc.2 && g)) (s, true)
      s.sdAnswer m.seat 2 (if good then some [] else none)
    else s.sdAnswer m.seat 2 none
  | some n, 1 =>
    if m.payload.length = 12 + 4 * n then
      let (s, good) := s.sdUpload m.seat (m.word 2) a (m.payload.drop 12)
      s.sdAnswer m.seat 2 (if good then some [] else none)
    else s.sdAnswer m.seat 2 none
  | _, _ => s.sdAnswer m.seat 2 none

/-- One entry goes to the end of a queue; a full queue refuses it, and an EVENT reports that. -/
def State.sdEntry (s : State) (seat i : Nat) (entry : List Word) : State :=
  let b := Blk.seat seat
  let size := s.fld b (Reg.Seat.SQ_SIZE i)
  let tail := s.fld b (Reg.Seat.SQ_TAIL i)
  if (tail + 1) % max size 1 = s.fld b (Reg.Seat.SQ_HEAD i) then s.sdEvent seat 1 [BitVec.ofNat 32 (64 + 8 * seat + 4)]
  else
    let q := s.seat seat
    (s.setSeat seat { q with sdRing := q.sdRing.put [] (256 * i + tail) entry }).setBoth b (Reg.Seat.SQ_TAIL i) ((tail + 1) % size)

/-- SUBMIT places its entries in an enabled queue. -/
def State.sdSubmit (s : State) (m : SdHead) : State :=
  let i := m.word 0 % 4
  let n := m.word 0 / 2 ^ 8 % 32
  if 1 ≤ n ∧ n ≤ 16 ∧ m.payload.length = 4 + 64 * n ∧ s.bit (.seat m.seat) (Reg.Seat.SQ_EN i) then
    (List.range n).foldl (fun s e =>
      s.sdEntry m.seat i ((List.range 16).map (fun k => BitVec.ofNat 32 (m.word (1 + 16 * e + k))))) s
  else s

/-- An accepted message acts. -/
def State.sdAct (s : State) (m : SdHead) : State :=
  match m.type with
  | 1 => s.sdRead m
  | 2 => s.sdWrite m
  | 3 => s.sdSubmit m
  | _ => s

/-- A UDP payload from an address and port reaches the Stagedoor engine of port `p`; `kinds` are the types the
command stands for. -/
def State.sdReceive (s : State) (kinds : List Nat) (p ip udp : Nat) (msg : List Byte) : State :=
  match sdParse msg with
  | none => s
  | some m =>
    if !kinds.contains m.type then s
    else match (List.range s.model.seats).find? (s.sdBound p) with
    | none => s
    | some first =>
      let good := match (s.sdOf m.seat).key with
        | some key => s.sdBound p m.seat && s.bit (.seat m.seat) Reg.Seat.STATUS_KEY_VALID &&
            sdTag key (msg.take (msg.length - 16)) = msg.drop (msg.length - 16)
        | none => false
      if !good then s.sdReject (if m.seat < s.model.seats then m.seat else first) Reg.Seat.SD_AUTH_FAILS
      else
        let s := s.sdHeard m.seat ip udp
        let d := s.sdOf m.seat
        if m.type = 6 ∧ m.session = 0 then s.sdHello m.seat
        else if d.session = 0 ∨ m.session ≠ d.session ∨ !d.fresh m.seq then s.sdReject m.seat Reg.Seat.SD_REPLAYS
        else (((s.setSd m.seat ((d.accept m.seq).acked m.ack)).sdAct m).sdFlush m.seat)

def execStagedoorRead (p ip udp : Nat) (msg : List Byte) (s : State) : Res := settle (s.sdReceive [1] p ip udp msg)
def execStagedoorWrite (p ip udp : Nat) (msg : List Byte) (s : State) : Res := settle (s.sdReceive [2] p ip udp msg)
def execStagedoorSubmit (p ip udp : Nat) (msg : List Byte) (s : State) : Res := settle (s.sdReceive [3] p ip udp msg)
def execKeepalive (p ip udp : Nat) (msg : List Byte) (s : State) : Res := settle (s.sdReceive [6] p ip udp msg)

/-! What the module sends again, and of its own accord (R423) -/

/-- 50 ms after its last sending, each unacknowledged COMPLETE and EVENT message goes out again, with its original
sequence number. -/
def execStagedoorResend (seat : Nat) (s : State) : Res :=
  settle (
    if s.model.seats ≤ seat || !s.isStagedoor seat then s
    else
      let d := s.sdOf seat
      let due := fun (m : SdMessage) => m.sentAt + s.fs / 20 ≤ s.render.tick
      let t := s.setSd seat { d with unacked := d.unacked.map (fun m => if due m then { m with sentAt := s.render.tick } else m) }
      (d.unacked.filter due).foldl (fun s m => s.sdFrame seat m.type 0 m.seq m.payload) t)

/-- 500 ms after the last one a KEEPALIVE goes out. -/
def execKeepaliveSend (seat : Nat) (s : State) : Res :=
  settle (
    let d := s.sdOf seat
    if s.model.seats ≤ seat || !s.isStagedoor seat || d.session = 0 || s.render.tick < d.keptAt + s.fs / 2 then s
    else (s.setSd seat { d with keptAt := s.render.tick }).sdNumbered seat 6 0 [])

end Sys2Proof.Machine
end

