-- ==== Sys2Proof/Machine/EthRx.lean ====
section
/-! DEFINITION. Reception of Ethernet frames: which consumer takes a frame, and what crosses the bridge pair
(R318, R319, R343, R344, R353). -/

namespace Sys2Proof.Machine

open Sys2Proof

/-! PTP messages (R351 to R355) -/

/-- The enabled instance that runs a domain on a port, with the transport of its profile. -/
def State.ptpInstance (s : State) (p : Nat) (udp : Bool) (domain : Nat) : Option Nat :=
  [0, 1].find? (fun i =>
    let port := s.fld (.time i) (Reg.Time.CFG_PORT i)
    s.bit (.time i) Reg.Time.CFG_EN && (port = p || (port = 4 && (p = 2 || p = 3))) &&
      s.fld (.time i) (Reg.Time.CFG_DOMAIN i) = domain && s.bit (.time i) Reg.Time.CFG_TRANSPORT = udp)

/-- A time-aware relay sends a Sync on, one-step, from the other port (R352). -/
def State.relaySync (s : State) (i p rx : Nat) (f : List Byte) (domain : Nat) : State :=
  match s.bridgeTo p with
  | some o =>
    if s.isRelay i domain then
      match s.controlQueue o with
      | some q => s.enqueue o q { len := f.length + 4, body := .bridge f false rx }
      | none => s
    else s
  | none => s

/-- Origin time plus corrections of a Sync or Follow_Up, in 2^-16 ns. -/
def ptpOrigin (f : List Byte) (h : Nat) : Int := ((beAt f (h + 34) 6 * 1000000000 + beAt f (h + 40) 4) * 65536 : Nat)
def ptpCorr (f : List Byte) (h : Nat) : Int := signed 64 (beAt f (h + 8) 8)

/-- A Sync with its Follow_Up folded in: a one-step Sync. -/
def oneStep (sync fu : List Byte) (h h' : Nat) : List Byte :=
  let f := sync.take (h + 34) ++ (fu.drop (h' + 34)).take 10 ++ sync.drop (h + 44)
  let f := beAdd f (h + 8) 8 (ptpCorr fu h')
  noChecksum (f.take (h + 6) ++ [BitVec.ofNat 8 (beAt f (h + 6) 1 &&& 0xFD)] ++ f.drop (h + 7))

/-- An instance answers a request with its sequence number: kind 3 Delay_Resp, 4 Pdelay_Resp. `at_` is the receipt on
instance time. A one-step Pdelay_Resp says it in its correctionField alone (R356). -/
def State.ptpReply (s : State) (i p kind seq : Nat) (at_ : Int) : State :=
  if kind = 4 && s.oneStepOn i then s.ptpEnqueue p (.ptp i kind seq 0 0 at_)
  else s.ptpEnqueue p (.ptp i kind seq (at_ / 65536).toNat (at_ % 65536) at_)

/-- A message of a domain that instance `i` runs, its header at `h`, received at the balls at `rx` ns of device time
(R354). What the
best master clock algorithm and the delay measurements give is a free value. -/
def State.ptpMessage (s : State) (i p rx : Nat) (f : List Byte) (h : Nat) : State :=
  let v := s.inst i
  let local_ : Int := s.rxTime p rx + v.off
  let seq := beAt f (h + 30) 2
  let domain := beAt f (h + 4) 1
  match beAt f h 1 % 16 with
  | 0x0 =>
    if (beAt f (h + 6) 1).testBit 1 then s.setInst i { v with twoStep := some (p, seq, local_, f, rx) }
    else (s.ptpSync i (local_ - ptpOrigin f h - ptpCorr f h)).relaySync i p rx f domain
  | 0x8 =>
    match v.twoStep with
    | some (q, sq, at_, sync, rx') =>
      if q = p ∧ sq = seq then
        let hs := (ptpFrame sync).getD 0
        let s := s.setInst i { v with twoStep := none }
        (s.ptpSync i (at_ - ptpOrigin f h - ptpCorr f h - ptpCorr sync hs)).relaySync i p rx' (oneStep sync f hs h) domain
      else s
    | none => s
  | 0xB =>
    let (st, s) := s.fresh
    s.ptpAnnounce i (beAt f (h + 53) 8) (beAt f (h + 61) 2) (beAt f (h + 48) 1) st (s.ptpPortState i p = Reg.Time.PORT_STATE_B)
  | 0x1 => if s.ptpMaster i p then s.ptpReply i p 3 seq local_ else s
  | 0x2 => s.ptpReply i p 4 seq local_
  | 0x9 =>
    let (d, s) := s.fresh
    s.set (.time i) Reg.Time.MEAN_DELAY d
  | 0x3 =>
    let (d, s) := s.fresh
    let (r, s) := s.fresh
    (s.set (.time i) Reg.Time.MEAN_DELAY d).set (.time i) Reg.Time.RATE_RATIO r
  | _ => s

/-- A PTP frame: to its instance; a management or signalling message, and a frame of a domain that none runs and
that is not forwarded, to exception queue XQ0 (R353). -/
def State.ptpFrameRx (s : State) (p rx : Nat) (f : List Byte) (h : Nat) : State :=
  let type := beAt f h 1 % 16
  if type = 0xC ∨ type = 0xD then s.xqWrite p 0 0 rx f
  else match s.ptpInstance p (decide ((l2 f).2.2.1 ≠ 0x88F7)) (beAt f (h + 4) 1) with
  | some i => s.ptpMessage i p rx f h
  | none => if s.forwards p f then s else s.xqWrite p 0 0 rx f

/-! Consumers (R319) -/

/-- A Stagedoor message: the addresses and the UDP payload (R418). -/
def State.sdClaims (s : State) (p : Nat) (f : List Byte) : Option (Nat × Nat × List Byte) :=
  match udpOff f with
  | some u =>
    let (_, _, _, o) := l2 f
    let len := beAt f (u + 4) 2
    let msg := (f.drop (u + 8)).take (len - 8)
    if beAt f (o + 16) 4 = s.fld (.ethMac p) Reg.EthMac.IPV4_ADDR ∧ beAt msg 0 2 = 0x5344 ∧
        (List.range s.model.seats).any (fun q => s.sdBound p q && s.fld (.seat q) Reg.Seat.SD_UDP_PORT = beAt f (u + 2) 2) then
      some (beAt f (o + 12) 4, beAt f u 2, msg)
    else none
  | none => none

/-- A good frame goes to the first consumer that claims it; whether the classifier withholds its forwarding. -/
def State.consume (s : State) (p t stamp : Nat) (f : List Byte) : State × Bool :=
  let (type, o) := ethType f
  if type = 0x8808 then
    (match pauseTimes f with
    | some times => s.setEth p { s.eth p with pauses := (s.eth p).pauses ++ [(t + s.bitsNs p (f.length + 4), times)] }
    | none => s, false)
  else match ptpFrame f with
  | some h => (s.ptpFrameRx p t f h, false)
  | none =>
    match s.sdClaims p f with
    | some (ip, udp, msg) => (s.sdReceive [1, 2, 3, 6] p ip udp msg, false)
    | none =>
      if type = 0x88B5 ∧ beAt f o 4 = s.fld .twin Reg.Twin.PAIR_ID ∧ beAt f (o + 4) 8 ≠ Config.serial then
        (s.netHbRx (beAt f o 4) (beAt f (o + 4) 8), false)
      else (s.setEth p { s.eth p with wakeMark := false, clsPc := none }).classify 256 p 0 stamp f

/-- A frame, destination MAC first and without FCS, whose message timestamp point
passes the balls at `t` ns of device time (R354). -/
def execEthRxFrame (p t : Nat) (f : List Byte) (err : RxErr) (s : State) : Res :=
  settle (
    if !s.hasEth p || !s.bit (.ethMac p) Reg.EthMac.STATUS_LINK then s
    else match s.rxCount p f err with
    | (s, false) => if err = .fcs && s.forwards p f then s.forward p t f true else s
    | (s, true) =>
      let fwd := s.forwards p f
      -- The stamp that streams and exception queues take is corrected by RX_LAT (R354).
      let stamp := s.rxTime p t / 65536
      let (s, held) := s.consume p t stamp.toNat f
      if fwd && !held then s.forward p t f false else s)

end Sys2Proof.Machine
end

