-- ==== Sys2Proof/Machine/TwinRx.lean ====
section
/-! DEFINITION. What arrives from the peer over Ndodom (R110, R203, R290, R372, R396, R440, R481, R485 to R495, R503 to
R505). -/

namespace Sys2Proof.Machine

open Sys2Proof

/-! Heartbeats (R481, R486, R489) -/

/-- The understudy's device time follows the principal's, corrected for the link's latency; a difference within one sample
period is not resolved. -/
def State.followTime (s : State) (t : Int) : State :=
  let d := t + 65536 * (s.fld .ndodom Reg.Ndodom.LATENCY : Int) - s.device
  if s.twin.mode = 2 && undState s.tw && s.fs * absNat d > 1000000000 * 65536 then s.stepDevice d else s

/-- Another claim over Ndodom bars egress for 3 blocks when it is higher, or equal with a higher serial; an equal one
with equal serial bits is a tie (R481). -/
def State.peerClaim (s : State) (claim serial : Nat) : State :=
  let s := s.set .twin Reg.Twin.CLAIM_PEER claim
  let tie := s.claim ≠ 0 && claim = s.claim && serial % 65536 = Config.serial % 65536
  let bar := s.claim < claim || (claim = s.claim && Config.serial < serial)
  let s := if tie && !s.twin.tie then s.event .twin 9 else s
  let t := s.twin
  { s with twin := { t with tie := tie, barred := if bar then some s.render.tick else t.barred } }.gateEgress

/-- How many of the peer's CRCs are kept: 8, or as many blocks as a replaying understudy can lag behind (R503). -/
def State.crcDepth (s : State) : Nat := if s.replaying then 2 * s.fs / s.blockSize + 8 else 8

/-- A heartbeat arrives (R486). -/
def State.heartbeatRx (s : State) (state claim serial rsi m0 block crc causes : Nat) (time : Int) : State :=
  let new := !s.bit .twin Reg.Twin.CLAIM_PEER_VALID
  let s := s.set .twin Reg.Twin.CLAIM_PEER_VALID 1
  let s := if new then s.event .twin 0 else s
  let t := s.twin
  let s := { s with twin := { t with
    hb := true, hbAt := s.render.tick, peerState := state, peerSerial := serial, peerRsi := rsi, peerM0 := m0
    peerTime := time - s.device, peerCrcs := ((block, crc) :: t.peerCrcs.filter (·.1 ≠ block)).take s.crcDepth } }
  let s := (s.peerClaim claim serial).followTime time
  let s := if (s.lockPri || s.lockUnd) && (causes % 8 ≠ 0) ≠ s.causes.testBit 3 then s.peerCauses (causes % 8 ≠ 0) s.curtain.named
    else s
  s.joinSeen

/-! Inputs (R490, R491, R503) -/

/-- Does a Lead object take the stream as its source? -/
def State.leadStream (s : State) (n : Nat) : Bool :=
  (List.range s.model.objects).any (fun k => s.objActive k && s.fld (.obj k) Reg.Obj.CTRL_CLASS = 0 &&
    s.fld (.obj k) Reg.Obj.SOURCE_TYPE = 1 && s.fld (.obj k) Reg.Obj.SOURCE_UNIT = n)

/-- What the peer lacks of block `b`: Lead streams first, then by number. Where both hold the same samples and their
CRCs differ, the principal's are taken. -/
def State.repairs (s : State) (b : Nat) (peer : List Holding) : List InSample :=
  let lead := fun (h : Holding) => h.src.type = 1 && s.leadStream h.src.unit
  let (first, rest) := (s.holdings b).partition lead
  (first ++ rest).flatMap (fun h =>
    let need := match peer.find? (·.src = h.src) with
      | none => h.bits
      | some p => if s.lockPri && p.bits = h.bits && p.crc ≠ h.crc then h.bits else h.bits &&& (h.bits ^^^ p.bits)
    ((s.blockSamples b).zipIdx.filter (fun (e : Nat × Nat) => need.testBit e.2)).map (fun (e : Nat × Nat) =>
      ({ type := h.src.type, unit := h.src.unit, chan := h.src.chan, at_ := e.1, v := s.sample h.src e.1 } : InSample)))

/-- Holdings arrive: samples only this unit holds are shipped, within 32 KiB (R490). -/
def State.holdingsRx (s : State) (b : Nat) (peer : List Holding) : State :=
  let xs := s.repairs b peer
  let cap := 8192
  let short := xs.length - cap
  let s := if xs.isEmpty then s else s.toPeer (.repair b (xs.take cap))
  if short = 0 then s else (s.count .twin Reg.Twin.REPAIR_SHORT short).event .twin 10

/-- A sample of an input arrives from the peer. -/
def State.takeSample (s : State) (x : InSample) : State :=
  s.putSample { type := x.type, unit := x.unit, chan := x.chan } x.at_ x.v

def State.repairRx (s : State) (xs : List InSample) : State :=
  let s := xs.foldl (fun (s : State) (x : InSample) =>
    let s := s.takeSample x
    if x.type = 1 then
      (let e := s.ing x.unit
       s.setIng x.unit { e with got := (x.at_, x.at_ + 1) :: e.got })
    else s) s
  s.count .twin Reg.Twin.REPAIR_SAMPLES xs.length

/-- A journaled block; more than 2 s of them end the join (R503). -/
def State.journalRx (s : State) (b : JournalBlock) : State :=
  if [Tw.replay, Tw.resync].contains s.tw then
    let j := s.twin.journal ++ [b]
    if 2 * s.fs < j.length * s.blockSize then (s.toPeer .joinFailed).toWait
    else { s with twin := { s.twin with journal := j } }.set .twin Reg.Twin.LAG (min j.length 0xFFFF)
  else s

/-! Commits (R492) -/

/-- A forwarded change of the layout finds its layout armed (R492). -/
def State.armFor (s : State) (vals : RegMap) : State :=
  let k := regGet vals Blk.layout.base Reg.Layout.SEL
  match s.layouts.slots.lookup k with
  | some l => if k ≠ s.fld .layout Reg.Layout.SEL then { s with layouts := { s.layouts with armed := some (k, l) } } else s
  | none => s

/-- A commit of the principal is prepared here too, and the answer goes back. Before the understudy holds the
principal's state it has nothing to object with. -/
def State.commitRx (s : State) (serial seat mask at_ : Nat) (vals : RegMap) : State :=
  if s.twin.mode ≠ 2 || !undState s.tw then s
  else
    let c := { s.capture .peer seat mask at_ serial with vals := vals, wasPending := [] }
    let s := if c.has .layout then s.armFor vals else s
    let s := { s with fab := { s.fab with serial := serial, commits := s.fab.commits ++ [c] } }
    let s := (s.set .update Reg.Update.COMMIT_SERIAL serial).showPending
    if s.tw = Tw.wait || s.tw = Tw.ship then s.toPeer (.prepared serial rNone 0)
    else match s.failures c with
      | [] => s.toPeer (.prepared serial rNone 0)
      | bad =>
        let ((r, p), s) := s.verdict bad
        s.toPeer (.prepared serial r p)

/-- The apply sample of a forwarded commit, or its end. -/
def State.commitAtRx (s : State) (serial : Nat) (at_ : Option Nat) : State :=
  match s.commitOf serial with
  | some c =>
    if c.by_ ≠ .peer then s
    else match at_ with
      | some i => s.setCommit { c with prepared := true, applyAt := i }
      | none => s.endCommit c updCancelled rNone 0
  | none => s

/-- A unit of a commit was lost on the peer (R74, R492). -/
def State.unitLostRx (s : State) (serial page : Nat) : State :=
  match s.commitOf serial with
  | some c => s.setCommit { c with peerLost := some (min page (c.peerLost.getD page)) }
  | none => s

/-! Files (R488) -/

/-- A pseudo-command of the understudy: its tag lies above those of hosts and of the default configuration. -/
def State.peerCmd (s : State) (seat peer opcode : Nat) (word0 : Word) (params : List Word) (bs : List Byte) : Cmd :=
  let tag := (s.seat seat).cmds.foldl (fun m c => max m (c.tag + 1)) (bootTag + 1)
  { seat := seat, sq := 0, tag := tag, opcode := opcode, word0 := word0, context := 0, params := params
    started := true, accepted := true, steps := 1, bytes := bs, peer := some peer }

/-- A forwarded file: a load's remaining steps run here; words are written at once. -/
def State.fileRx (s : State) (seat peer opcode : Nat) (word0 : Word) (params : List Word) (bs : List Byte) : State :=
  let c := s.peerCmd seat peer opcode word0 params bs
  let q := s.seat seat
  let t := s.setSeat seat { q with cmds := q.cmds ++ [c] }
  if opcode = 0x10 || opcode = 0x20 || opcode = 0x28 then t
  else if opcode = 0x22 then t.eqSetLoad c bs
  else if opcode = 0x58 then
    (if c.flag 0 then { s with motion := { s.motion with regions := s.motion.regions.filter (·.base ≠ c.n 0) } }
     else t.motionLoad c bs)
  else if opcode = 0x59 then
    (let ws := (List.range (bs.length / 4)).map (fun k => word32 (bs.drop (4 * k)))
     { s with cue := ws.zipIdx.foldl (fun (m : Map Word) (e : Word × Nat) => m.put 0#32 (4096 * seat + c.n 0 + e.2) e.1) s.cue })
  else s

/-! Snapshots (R487, R500, R503) -/

/-- A COLD snapshot goes to the older slot. -/
def State.storeImage (s : State) (im : Image) : State :=
  let s := { s with snaps := s.snaps.setSlot s.olderSlot (some im) }
  let s := { s with snaps := { s.snaps with id := max s.snaps.id im.id }, twin := { s.twin with freezeAt := some s.render.tick } }
  s.set .twin Reg.Twin.SNAP_ID im.id

/-- A LOCKSTEP understudy takes the principal's state as its own. -/
def State.becomeImage (s : State) (im : Image) : State :=
  let blks := allBlks.filter (fun b => b.present s.model && restored b)
  let s := blks.foldl (fun s b => s.restoreBlk im b (regGet im.act b.base Reg.Hdr.APPLIED_COMMIT)) s
  let s := s.restoreGroups im
  let serial := regGet im.act Blk.update.base Reg.Update.COMMIT_SERIAL
  let s := { s with
    fab := { s.fab with recOwner := im.recOwner, recGroup := im.recGroup, held := [], serial := max serial s.fab.serial }
    motion := im.motion, cue := im.cue, layouts := im.layouts, outEq := im.outEq, objs := im.objs
    paths := { objs := im.paths, pool := poolOf im.paths, table := s.paths.table }
    routes := im.routes, buses := im.buses, bass := im.bass, outs := im.outs, prompters := im.prompters
    chains := im.chains, changes := [] }
  let s := { s with render := { s.render with
    starting := false, stopping := false, resetting := false, released := false, late := false, m0 := s.twin.peerM0 } }
  let s := (s.outs.map (·.1)).foldl State.showCorr s
  let s := { s with twin := { s.twin with journal := [], matched := 0, crcs := [], awaiting := false } }
  ((((s.set .update Reg.Update.COMMIT_SERIAL s.fab.serial).set .render Reg.Render.STATE 1).set .twin
    Reg.Twin.SNAP_ID im.id).showHeld).showLayouts

def State.snapshotRx (s : State) (im : Image) : State :=
  let c := s.tw
  if s.twin.mode = 2 then
    if c = Tw.ship then (s.becomeImage im).enter Tw.replay
    else if c = Tw.resync then s.becomeImage im
    else s
  else if c = Tw.ship then
    (((s.storeImage im).enter Tw.coldUnd).event .twin 3).toPeer .joined
  else if c = Tw.coldUnd then s.storeImage im
  else s

/-! Prompter contexts (R440) -/

def State.contextRx (s : State) (n state pc : Nat) (calls : List Nat) (loops : List (Nat × Nat)) (mark flags : Nat) : State :=
  let b := Blk.prompter n
  let s := s.setPr n { s.pr n with calls := calls, loops := loops }
  let s := ((s.set b Reg.Prompter.STATE state).set b Reg.Prompter.PC pc).set b Reg.Prompter.CALL_DEPTH calls.length
  ((s.set b Reg.Prompter.LOOP_DEPTH loops.length).set b Reg.Prompter.FLAGS flags).set64 b Reg.Prompter.MARK_LO
    Reg.Prompter.MARK_HI mark

/-! Protection data (R290) -/

def State.setProt (s : State) (n : Nat) (f : Prot → Prot) : State :=
  s.setOut n { s.out n with prot := f (s.out n).prot }

/-! The frame -/

/-- What a frame from the peer does. -/
def State.frameRx (s : State) : PeerFrame → State
  | .identity variant fw serial mode rate block =>
    let s := (s.set .ndodom Reg.Ndodom.PEER_VARIANT variant).set .ndodom Reg.Ndodom.PEER_FW fw
    let s := s.set64 .ndodom Reg.Ndodom.PEER_SERIAL_LO Reg.Ndodom.PEER_SERIAL_HI serial
    { s with twin := { s.twin with peerMode := mode, peerRate := rate, peerBlock := block, peerSerial := serial } }
  | .heartbeat state _ claim serial rsi m0 block crc causes time =>
    s.heartbeatRx state claim serial rsi m0 block crc causes time
  | .holdings b held => if s.lockPri || s.lockUnd then s.holdingsRx b held else s
  | .repair _ xs => if s.lockPri || s.lockUnd then s.repairRx xs else s
  | .departures last =>
    if s.lockUnd then last.foldl (fun s (e : Nat × Nat) => s.setEgr e.1 { s.egr e.1 with departed := some e.2 }) s else s
  | .commit serial seat mask at_ vals => s.commitRx serial seat mask at_ vals
  | .prepared serial r p => { s with twin := { s.twin with prepared := s.twin.prepared ++ [(serial, r, p)] } }
  | .commitAt serial at_ => s.commitAtRx serial at_
  | .unitLost serial page => s.unitLostRx serial page
  | .write seat addr data at_ =>
    let w : LaterWrite := { at_ := at_, seat := seat, addr := addr, data := data }
    if undState s.tw then { s with twin := { s.twin with later := s.twin.later ++ [w] } } else s
  | .ownership o at_ => if undState s.tw then { s with twin := { s.twin with ownLater := s.twin.ownLater ++ [(at_, o)] } } else s
  | .flags n set clr => if s.lockUnd then s.motionFlags n set clr else s
  | .curtain causes named => s.peerCauses (causes % 8 ≠ 0) named
  | .release b => if s.lockUnd then s.acceptRelease b else s
  | .prompter n state pc calls loops mark flags => if undState s.tw then s.contextRx n state pc calls loops mark flags else s
  | .latch k cause => if (s.psOf k).runs then s.latch k cause else s
  | .recover k => if s.lockUnd then s.recover k else s
  | .resistance n t at_ =>
    if s.lockUnd then s.setProt n (fun q => { q with temps := q.temps ++ [(at_, t)], measuredAt := some s.render.tick }) else s
  | .power n p at_ => if s.lockUnd then s.setProt n (fun q => { q with powers := q.powers ++ [(at_, p)] }) else s
  | .select i => if s.lockUnd then s.selectInst (i % 2) false else s
  | .mirrored xs => if undState s.tw then xs.foldl State.takeSample s else s
  | .file seat tag opcode word0 params bs => if undState s.tw then s.fileRx seat tag opcode word0 params bs else s
  | .transformed seat tag =>
    if s.lockPri then { s with twin := { s.twin with transformed := s.twin.transformed ++ [(seat, tag)] } } else s
  | .install seat tag at_ =>
    if s.lockUnd then { s with twin := { s.twin with installs := s.twin.installs ++ [(seat, tag, at_)] } } else s
  | .excite e => if s.lockUnd then { s with twin := { s.twin with excite := e } } else s
  | .snapshot im => s.snapshotRx im
  | .journal b => s.journalRx b
  | .join => if s.tw = Tw.wait then { s with twin := { s.twin with journal := [] } }.enter Tw.ship else s
  | .contentDone slots => if s.tw = Tw.ship then { s with monitor := { s.monitor with slots := slots } }.showMonitor else s
  | .joined => s.joinDone
  | .joinFailed => if s.tw = Tw.joinPri then (s.enter Tw.alone).joinEnds Status.timeout else s
  | .resync => if s.lockPri then { s with twin := { s.twin with freeze := true } } else s
  | .detach => if s.attached then { s with twin := { s.twin with detach := some none } } else s
  | .handover at_ => if s.tw = Tw.lockUnd then { s with twin := { s.twin with handover := some (at_, none) } } else s

/-- A frame arrives over Ndodom while the link is up (R485). -/
def execNdodomFrame (f : PeerFrame) (s : State) : Res :=
  settle (if s.bit .ndodom Reg.Ndodom.STATUS_LINK then s.frameRx f else s)

end Sys2Proof.Machine
end

