-- ==== Sys2Proof/Machine/Dispatch.lean ====
section
/-! DEFINITION. One arm per command: the meaning it calls. -/

namespace Sys2Proof.Machine

def exec (i : Instr) (s : State) : Host.Outcome State Fault Refusal :=
  match i with
  | .registerWrite w addr data aligned => Sys2Proof.Machine.execRegisterWrite w addr data aligned s
  | .lowWordRead w addr => Sys2Proof.Machine.execLowWordRead w addr s
  | .clearingRead w addr => Sys2Proof.Machine.execClearingRead w addr s
  | .mirrorRefresh b tx => Sys2Proof.Machine.execMirrorRefresh b tx s
  | .slowWriteLost b => Sys2Proof.Machine.execSlowWriteLost b s
  | .blockReset w b => Sys2Proof.Machine.execBlockReset w b s
  | .sampleStrobe => Sys2Proof.Machine.execSampleStrobe s
  | .release => Sys2Proof.Machine.execRelease s
  | .outputCutoff => Sys2Proof.Machine.execOutputCutoff s
  | .deadline => Sys2Proof.Machine.execDeadline s
  | .engineAsk engine left wait => Sys2Proof.Machine.execEngineAsk engine left wait s
  | .jobRetire engine time wait run since => Sys2Proof.Machine.execJobRetire engine time wait run since s
  | .trapezeJob n b => Sys2Proof.Machine.execTrapezeJob n b s
  | .panJob n b => Sys2Proof.Machine.execPanJob n b s
  | .pathJob n b slice => Sys2Proof.Machine.execPathJob n b slice s
  | .farFetchDone n cycles => Sys2Proof.Machine.execFarFetchDone n cycles s
  | .fetchLate n => Sys2Proof.Machine.execFetchLate n s
  | .routeJob toBus dest b => Sys2Proof.Machine.execRouteJob toBus dest b s
  | .busJob n b => Sys2Proof.Machine.execBusJob n b s
  | .shapePreJob n b => Sys2Proof.Machine.execShapePreJob n b s
  | .convHeadJob n b => Sys2Proof.Machine.execConvHeadJob n b s
  | .convSegJob n bank k start => Sys2Proof.Machine.execConvSegJob n bank k start s
  | .shapePostJob n b => Sys2Proof.Machine.execShapePostJob n b s
  | .opStep seat tag data => Sys2Proof.Machine.execOpStep seat tag data s
  | .updStrobe seat mask => Sys2Proof.Machine.execUpdStrobe seat mask s
  | .prepareDone serial => Sys2Proof.Machine.execPrepareDone serial s
  | .commitApply serial => Sys2Proof.Machine.execCommitApply serial s
  | .slowUnitApply serial b => Sys2Proof.Machine.execSlowUnitApply serial b s
  | .unitLost serial b => Sys2Proof.Machine.execUnitLost serial b s
  | .updDiscard seat mask => Sys2Proof.Machine.execUpdDiscard seat mask s
  | .updCancel seat mask => Sys2Proof.Machine.execUpdCancel seat mask s
  | .motionStart n sa => Sys2Proof.Machine.execMotionStart n sa s
  | .motionStop n sa => Sys2Proof.Machine.execMotionStop n sa s
  | .motionFlagsSet n flags => Sys2Proof.Machine.execMotionFlagsSet n flags s
  | .motionFlagsClr n flags => Sys2Proof.Machine.execMotionFlagsClr n flags s
  | .drained n => Sys2Proof.Machine.execDrained n s
  | .segmentEnd n => Sys2Proof.Machine.execSegmentEnd n s
  | .jitterIntervalEnd n => Sys2Proof.Machine.execJitterIntervalEnd n s
  | .trapezeHalt n => Sys2Proof.Machine.execTrapezeHalt n s
  | .hold n => Sys2Proof.Machine.execHold n s
  | .move n => Sys2Proof.Machine.execMove n s
  | .curve n => Sys2Proof.Machine.execCurve n s
  | .orbit n => Sys2Proof.Machine.execOrbit n s
  | .jitter n => Sys2Proof.Machine.execJitter n s
  | .waitt n => Sys2Proof.Machine.execWaitt n s
  | .waite n => Sys2Proof.Machine.execWaite n s
  | .setpSeed n => Sys2Proof.Machine.execSetpSeed n s
  | .setpOrigin n => Sys2Proof.Machine.execSetpOrigin n s
  | .setpTimescale n => Sys2Proof.Machine.execSetpTimescale n s
  | .trapezeLoop n => Sys2Proof.Machine.execTrapezeLoop n s
  | .endl n => Sys2Proof.Machine.execEndl n s
  | .trapezeJump n => Sys2Proof.Machine.execTrapezeJump n s
  | .trapezeEvent n => Sys2Proof.Machine.execTrapezeEvent n s
  | .motionLoad seat tag data => Sys2Proof.Machine.execMotionLoad seat tag data s
  | .motionFree seat tag => Sys2Proof.Machine.execMotionFree seat tag s
  | .eqSetLoad seat tag data => Sys2Proof.Machine.execEqSetLoad seat tag data s
  | .objBulk seat tag data => Sys2Proof.Machine.execObjBulk seat tag data s
  | .layoutLoad seat tag => Sys2Proof.Machine.execLayoutLoad seat tag s
  | .layoutSelect seat tag => Sys2Proof.Machine.execLayoutSelect seat tag s
  | .armed => Sys2Proof.Machine.execArmed s
  | .pathSetFadeEnd n => Sys2Proof.Machine.execPathSetFadeEnd n s
  | .routeFadeEnd r => Sys2Proof.Machine.execRouteFadeEnd r s
  | .outputRampZero n => Sys2Proof.Machine.execOutputRampZero n s
  | .emgmuteChange low => Sys2Proof.Machine.execEmgmuteChange low s
  | .pinCause => Sys2Proof.Machine.execPinCause s
  | .close => Sys2Proof.Machine.execClose s
  | .releaseWrite => Sys2Proof.Machine.execReleaseWrite s
  | .autoRelease => Sys2Proof.Machine.execAutoRelease s
  | .curtainClosed => Sys2Proof.Machine.execCurtainClosed s
  | .opened => Sys2Proof.Machine.execOpened s
  | .peerCurtainReport present named => Sys2Proof.Machine.execPeerCurtainReport present named s
  | .hrirLoad seat tag => Sys2Proof.Machine.execHrirLoad seat tag s
  | .filterLoad seat tag => Sys2Proof.Machine.execFilterLoad seat tag s
  | .filterSwap seat tag => Sys2Proof.Machine.execFilterSwap seat tag s
  | .corrWarm n on => Sys2Proof.Machine.execCorrWarm n on s
  | .bankWarm n => Sys2Proof.Machine.execBankWarm n s
  | .swapped n => Sys2Proof.Machine.execSwapped n s
  | .serviceDone => Sys2Proof.Machine.execServiceDone s
  | .switched c => Sys2Proof.Machine.execSwitched c s
  | .chainOutputSample c pin aux => Sys2Proof.Machine.execChainOutputSample c pin aux s
  | .stuck c on => Sys2Proof.Machine.execStuck c on s
  | .scanSwitch c => Sys2Proof.Machine.execScanSwitch c s
  | .captureToMemory seat tag => Sys2Proof.Machine.execCaptureToMemory seat tag s
  | .c2mStart seat tag => Sys2Proof.Machine.execC2mStart seat tag s
  | .c2mDone seat tag => Sys2Proof.Machine.execC2mDone seat tag s
  | .campaignStart seat tag => Sys2Proof.Machine.execCampaignStart seat tag s
  | .campaignResume seat tag => Sys2Proof.Machine.execCampaignResume seat tag s
  | .campaignDiscard seat tag => Sys2Proof.Machine.execCampaignDiscard seat tag s
  | .playEnd => Sys2Proof.Machine.execPlayEnd s
  | .deconvolutionDone => Sys2Proof.Machine.execDeconvolutionDone s
  | .journalWrite => Sys2Proof.Machine.execJournalWrite s
  | .probeStart seat tag => Sys2Proof.Machine.execProbeStart seat tag s
  | .probeStop seat tag => Sys2Proof.Machine.execProbeStop seat tag s
  | .probeFrame => Sys2Proof.Machine.execProbeFrame s
  | .probeReport => Sys2Proof.Machine.execProbeReport s
  | .thermalPersist => Sys2Proof.Machine.execThermalPersist s
  | .limitAction k ix => Sys2Proof.Machine.execLimitAction k ix s
  | .faultPinLow k low => Sys2Proof.Machine.execFaultPinLow k low s
  | .carrierPeriodEnd k c peak => Sys2Proof.Machine.execCarrierPeriodEnd k c peak s
  | .stuckSense k on => Sys2Proof.Machine.execStuckSense k on s
  | .recover k => Sys2Proof.Machine.execRecover k s
  | .retryWaitEnd k => Sys2Proof.Machine.execRetryWaitEnd k s
  | .recovered k => Sys2Proof.Machine.execRecovered k s
  | .attemptsClear k => Sys2Proof.Machine.execAttemptsClear k s
  | .resistanceWindow k re im => Sys2Proof.Machine.execResistanceWindow k re im s
  | .tdmFrame p bits pulse phase slots => Sys2Proof.Machine.execTdmFrame p bits pulse phase slots s
  | .stop p => Sys2Proof.Machine.execStop p s
  | .locking p rate => Sys2Proof.Machine.execLocking p rate s
  | .lock p => Sys2Proof.Machine.execLock p s
  | .syncAcquire p => Sys2Proof.Machine.execSyncAcquire p s
  | .rateMeasure p rate => Sys2Proof.Machine.execRateMeasure p rate s
  | .aes3Frame k bad a b va vb => Sys2Proof.Machine.execAes3Frame k bad a b va vb s
  | .csBlock k sub bs => Sys2Proof.Machine.execCsBlock k sub bs s
  | .audio k => Sys2Proof.Machine.execAudio k s
  | .csApplied k => Sys2Proof.Machine.execCsApplied k s
  | .mclkinMeasure ix freq => Sys2Proof.Machine.execMclkinMeasure ix freq s
  | .ethRxFrame p t f err => Sys2Proof.Machine.execEthRxFrame p t f err s
  | .pauseRx p => Sys2Proof.Machine.execPauseRx p s
  | .pauseExpire p q => Sys2Proof.Machine.execPauseExpire p q s
  | .highWater p => Sys2Proof.Machine.execHighWater p s
  | .pauseTxRepeat p above => Sys2Proof.Machine.execPauseTxRepeat p above s
  | .streamPacketRx n => Sys2Proof.Machine.execStreamPacketRx n s
  | .stalled n => Sys2Proof.Machine.execStalled n s
  | .classifierHalt p pc t f => Sys2Proof.Machine.execClassifierHalt p pc t f s
  | .classifierMatch p pc t f => Sys2Proof.Machine.execClassifierMatch p pc t f s
  | .classifierNmatch p pc t f => Sys2Proof.Machine.execClassifierNmatch p pc t f s
  | .classifierRange p pc t f => Sys2Proof.Machine.execClassifierRange p pc t f s
  | .classifierSkip p pc t f => Sys2Proof.Machine.execClassifierSkip p pc t f s
  | .classifierStream p pc t f => Sys2Proof.Machine.execClassifierStream p pc t f s
  | .classifierLookup p pc t f => Sys2Proof.Machine.execClassifierLookup p pc t f s
  | .classifierHost p pc t f => Sys2Proof.Machine.execClassifierHost p pc t f s
  | .classifierCount p pc t f => Sys2Proof.Machine.execClassifierCount p pc t f s
  | .classifierDrop p pc t f => Sys2Proof.Machine.execClassifierDrop p pc t f s
  | .classifierWake p pc t f => Sys2Proof.Machine.execClassifierWake p pc t f s
  | .xtxSend p len q => Sys2Proof.Machine.execXtxSend p len q s
  | .streamPacketEnqueue n => Sys2Proof.Machine.execStreamPacketEnqueue n s
  | .frameStart p t => Sys2Proof.Machine.execFrameStart p t s
  | .gateEntryChange p => Sys2Proof.Machine.execGateEntryChange p s
  | .gclChange p => Sys2Proof.Machine.execGclChange p s
  | .linkUp p => Sys2Proof.Machine.execLinkUp p s
  | .linkDown p => Sys2Proof.Machine.execLinkDown p s
  | .mdioCmd p w => Sys2Proof.Machine.execMdioCmd p w s
  | .mdioDone p data => Sys2Proof.Machine.execMdioDone p data s
  | .ptpRx ix msg => Sys2Proof.Machine.execPtpRx ix msg s
  | .coasting ix => Sys2Proof.Machine.execCoasting ix s
  | .annTimeout ix => Sys2Proof.Machine.execAnnTimeout ix s
  | .freerun => Sys2Proof.Machine.execFreerun s
  | .instanceLocked ix => Sys2Proof.Machine.execInstanceLocked ix s
  | .slewDone => Sys2Proof.Machine.execSlewDone s
  | .realign => Sys2Proof.Machine.execRealign s
  | .txStamp p sec ns frac => Sys2Proof.Machine.execTxStamp p sec ns frac s
  | .entryW0Read p => Sys2Proof.Machine.execEntryW0Read p s
  | .entryW3Read seat p => Sys2Proof.Machine.execEntryW3Read seat p s
  | .run => Sys2Proof.Machine.execRun s
  | .renderStop => Sys2Proof.Machine.execRenderStop s
  | .renderReset => Sys2Proof.Machine.execRenderReset s
  | .traceStart seat tag => Sys2Proof.Machine.execTraceStart seat tag s
  | .traceStop seat tag => Sys2Proof.Machine.execTraceStop seat tag s
  | .matrixRequest m t write unacked room waited => Sys2Proof.Machine.execMatrixRequest m t write unacked room waited s
  | .aged m t => Sys2Proof.Machine.execAged m t s
  | .nop seat tag => Sys2Proof.Machine.execNop seat tag s
  | .identify seat tag => Sys2Proof.Machine.execIdentify seat tag s
  | .sync seat tag => Sys2Proof.Machine.execSync seat tag s
  | .snapshot seat tag => Sys2Proof.Machine.execSnapshot seat tag s
  | .restore seat tag => Sys2Proof.Machine.execRestore seat tag s
  | .offlineRender seat tag => Sys2Proof.Machine.execOfflineRender seat tag s
  | .cueLoad seat tag data => Sys2Proof.Machine.execCueLoad seat tag data s
  | .ownershipSet seat tag => Sys2Proof.Machine.execOwnershipSet seat tag s
  | .keySet seat tag => Sys2Proof.Machine.execKeySet seat tag s
  | .keyClear seat tag => Sys2Proof.Machine.execKeyClear seat tag s
  | .fwUpdate seat tag => Sys2Proof.Machine.execFwUpdate seat tag s
  | .opSuspend seat tag => Sys2Proof.Machine.execOpSuspend seat tag s
  | .opResume seat tag => Sys2Proof.Machine.execOpResume seat tag s
  | .opCancel seat tag => Sys2Proof.Machine.execOpCancel seat tag s
  | .opQueryState seat tag => Sys2Proof.Machine.execOpQueryState seat tag s
  | .opQueryCopy seat tag => Sys2Proof.Machine.execOpQueryCopy seat tag s
  | .opQueryRelease seat tag => Sys2Proof.Machine.execOpQueryRelease seat tag s
  | .join seat tag => Sys2Proof.Machine.execJoin seat tag s
  | .detach seat tag => Sys2Proof.Machine.execDetach seat tag s
  | .handover seat tag => Sys2Proof.Machine.execHandover seat tag s
  | .takeover seat tag => Sys2Proof.Machine.execTakeover seat tag s
  | .resync seat tag => Sys2Proof.Machine.execResync seat tag s
  | .sqEnable seat ix cq on => Sys2Proof.Machine.execSqEnable seat ix cq on s
  | .sqTail seat ix v => Sys2Proof.Machine.execSqTail seat ix v s
  | .cqHead seat ix v => Sys2Proof.Machine.execCqHead seat ix v s
  | .commandFetch entry fault => Sys2Proof.Machine.execCommandFetch entry fault s
  | .completionWrite seat ix fault => Sys2Proof.Machine.execCompletionWrite seat ix fault s
  | .bind seat kind index => Sys2Proof.Machine.execBind seat kind index s
  | .seatReset seat => Sys2Proof.Machine.execSeatReset seat s
  | .functionLevelReset link fn => Sys2Proof.Machine.execFunctionLevelReset link fn s
  | .pcieLinkDown link perst => Sys2Proof.Machine.execPcieLinkDown link perst s
  | .stagedoorSilence seat => Sys2Proof.Machine.execStagedoorSilence seat s
  | .graceExpire seat => Sys2Proof.Machine.execGraceExpire seat s
  | .pcieLinkUp link => Sys2Proof.Machine.execPcieLinkUp link s
  | .uploadTimeout seat tag => Sys2Proof.Machine.execUploadTimeout seat tag s
  | .stagedoorRead p ip udp msg => Sys2Proof.Machine.execStagedoorRead p ip udp msg s
  | .stagedoorWrite p ip udp msg => Sys2Proof.Machine.execStagedoorWrite p ip udp msg s
  | .stagedoorSubmit p ip udp msg => Sys2Proof.Machine.execStagedoorSubmit p ip udp msg s
  | .keepalive p ip udp msg => Sys2Proof.Machine.execKeepalive p ip udp msg s
  | .stagedoorResend seat => Sys2Proof.Machine.execStagedoorResend seat s
  | .keepaliveSend seat => Sys2Proof.Machine.execKeepaliveSend seat s
  | .prompterRun n => Sys2Proof.Machine.execPrompterRun n s
  | .cueHalt n => Sys2Proof.Machine.execCueHalt n s
  | .waitTime n => Sys2Proof.Machine.execWaitTime n s
  | .waitRsi n => Sys2Proof.Machine.execWaitRsi n s
  | .waitTc n => Sys2Proof.Machine.execWaitTc n s
  | .waitGpio n => Sys2Proof.Machine.execWaitGpio n s
  | .waitFlag n => Sys2Proof.Machine.execWaitFlag n s
  | .strobe n => Sys2Proof.Machine.execStrobe n s
  | .cueWrite n => Sys2Proof.Machine.execCueWrite n s
  | .cueMotionSet n => Sys2Proof.Machine.execCueMotionSet n s
  | .cueMotionClear n => Sys2Proof.Machine.execCueMotionClear n s
  | .signalHost n => Sys2Proof.Machine.execSignalHost n s
  | .signalFlag n => Sys2Proof.Machine.execSignalFlag n s
  | .branchIf n => Sys2Proof.Machine.execBranchIf n s
  | .cueJump n => Sys2Proof.Machine.execCueJump n s
  | .call n => Sys2Proof.Machine.execCall n s
  | .ret n => Sys2Proof.Machine.execRet n s
  | .cueLoop n => Sys2Proof.Machine.execCueLoop n s
  | .cueLoopEnd n => Sys2Proof.Machine.execCueLoopEnd n s
  | .prompterStart n => Sys2Proof.Machine.execPrompterStart n s
  | .prompterStop n => Sys2Proof.Machine.execPrompterStop n s
  | .cueFlagsSet n bits => Sys2Proof.Machine.execCueFlagsSet n bits s
  | .cueFlagsClr n bits => Sys2Proof.Machine.execCueFlagsClr n bits s
  | .gpioChange k level => Sys2Proof.Machine.execGpioChange k level s
  | .debouncedEdge k => Sys2Proof.Machine.execDebouncedEdge k s
  | .tcWord label stamp rate reverse user => Sys2Proof.Machine.execTcWord label stamp rate reverse user s
  | .tcLoss => Sys2Proof.Machine.execTcLoss s
  | .sourceChange src => Sys2Proof.Machine.execSourceChange src s
  | .holdoffExpire seat v => Sys2Proof.Machine.execHoldoffExpire seat v s
  | .delivery seat v => Sys2Proof.Machine.execDelivery seat v s
  | .eoi seat src => Sys2Proof.Machine.execEoi seat src s
  | .gate seat on => Sys2Proof.Machine.execGate seat on s
  | .sleepReq seat => Sys2Proof.Machine.execSleepReq seat s
  | .sleepAck seat expired => Sys2Proof.Machine.execSleepAck seat expired s
  | .sleepEnd seat => Sys2Proof.Machine.execSleepEnd seat s
  | .clkFail => Sys2Proof.Machine.execClkFail s
  | .sarConversion c code => Sys2Proof.Machine.execSarConversion c code s
  | .insert j => Sys2Proof.Machine.execInsert j s
  | .accessory j => Sys2Proof.Machine.execAccessory j s
  | .remove j => Sys2Proof.Machine.execRemove j s
  | .press j => Sys2Proof.Machine.execPress j s
  | .buttonRelease j => Sys2Proof.Machine.execButtonRelease j s
  | .bmcWrite off words => Sys2Proof.Machine.execBmcWrite off words s
  | .bmcRead off n => Sys2Proof.Machine.execBmcRead off n s
  | .wakePulse => Sys2Proof.Machine.execWakePulse s
  | .pwrTargetStandby => Sys2Proof.Machine.execPwrTargetStandby s
  | .pwrTargetDormant => Sys2Proof.Machine.execPwrTargetDormant s
  | .pwrTargetActive => Sys2Proof.Machine.execPwrTargetActive s
  | .wakeIn low => Sys2Proof.Machine.execWakeIn low s
  | .moduleWake cause => Sys2Proof.Machine.execModuleWake cause s
  | .greenroomGpioEdge k => Sys2Proof.Machine.execGreenroomGpioEdge k s
  | .mode mode => Sys2Proof.Machine.execMode mode s
  | .claimCycle claim serial => Sys2Proof.Machine.execClaimCycle claim serial s
  | .claimSeenTimeout => Sys2Proof.Machine.execClaimSeenTimeout s
  | .peerpresChange low => Sys2Proof.Machine.execPeerpresChange low s
  | .ndodomUp lanes latency => Sys2Proof.Machine.execNdodomUp lanes latency s
  | .ndodomDown => Sys2Proof.Machine.execNdodomDown s
  | .laneLost lane => Sys2Proof.Machine.execLaneLost lane s
  | .ndodomFrame f => Sys2Proof.Machine.execNdodomFrame f s
  | .heartbeatSend => Sys2Proof.Machine.execHeartbeatSend s
  | .heartbeatCheck => Sys2Proof.Machine.execHeartbeatCheck s
  | .netHbRx pair serial => Sys2Proof.Machine.execNetHbRx pair serial s
  | .netHbLost => Sys2Proof.Machine.execNetHbLost s
  | .autoTakeover => Sys2Proof.Machine.execAutoTakeover s
  | .egressOpen => Sys2Proof.Machine.execEgressOpen s
  | .coldTakeoverRestore => Sys2Proof.Machine.execColdTakeoverRestore s
  | .holdings b => Sys2Proof.Machine.execHoldings b s
  | .departureReport => Sys2Proof.Machine.execDepartureReport s
  | .outputCrcCompare b => Sys2Proof.Machine.execOutputCrcCompare b s
  | .snapPeriod => Sys2Proof.Machine.execSnapPeriod s
  | .replayCaughtUp => Sys2Proof.Machine.execReplayCaughtUp s
  | .joined => Sys2Proof.Machine.execJoined s
  | .handoverBoundary => Sys2Proof.Machine.execHandoverBoundary s
  | .refresh => Sys2Proof.Machine.execRefresh s
  | .zqLatch ch => Sys2Proof.Machine.execZqLatch ch s
  | .wckMeasure ch drift => Sys2Proof.Machine.execWckMeasure ch drift s
  | .rowActivate => Sys2Proof.Machine.execRowActivate s
  | .patrolScrub addr err region unit pass => Sys2Proof.Machine.execPatrolScrub addr err region unit pass s
  | .sramScrub part err unit => Sys2Proof.Machine.execSramScrub part err unit s
  | .tempSample temps => Sys2Proof.Machine.execTempSample temps s
  | .thresholdClear level => Sys2Proof.Machine.execThresholdClear level s
  | .thermalTrip => Sys2Proof.Machine.execThermalTrip s
  | .vmonSample mv => Sys2Proof.Machine.execVmonSample mv s
  | .roSample counts => Sys2Proof.Machine.execRoSample counts s
  | .avsRecompute want => Sys2Proof.Machine.execAvsRecompute want s
  | .pmbusRequestDone ok => Sys2Proof.Machine.execPmbusRequestDone ok s
  | .avs data => Sys2Proof.Machine.execAvs data s
  | .powerOnReset bootsel twinid => Sys2Proof.Machine.execPowerOnReset bootsel twinid s
  | .resetBLow => Sys2Proof.Machine.execResetBLow s
  | .warm => Sys2Proof.Machine.execWarm s
  | .watchdogExpire => Sys2Proof.Machine.execWatchdogExpire s
  | .commitRollback => Sys2Proof.Machine.execCommitRollback s
  | .pushGo => Sys2Proof.Machine.execPushGo s
  | .trainingDone ok full => Sys2Proof.Machine.execTrainingDone ok full s
  | .imageCheck => Sys2Proof.Machine.execImageCheck s
  | .firmwareUp ms good => Sys2Proof.Machine.execFirmwareUp ms good s
  | .defcfgWrite => Sys2Proof.Machine.execDefcfgWrite s
  | .defcfgStrobe => Sys2Proof.Machine.execDefcfgStrobe s
  | .defcfgCommand => Sys2Proof.Machine.execDefcfgCommand s
  | .waitLock expired => Sys2Proof.Machine.execWaitLock expired s
  | .defcfgEnd => Sys2Proof.Machine.execDefcfgEnd s
  | .refclkLoss => Sys2Proof.Machine.execRefclkLoss s
  | .laneBack => Sys2Proof.Machine.execLaneBack s
  | .crystalOscillates => Sys2Proof.Machine.execCrystalOscillates s
  | .standbyEntered => Sys2Proof.Machine.execStandbyEntered s
  | .joinTimeout => Sys2Proof.Machine.execJoinTimeout s
  | .ptpMessageSend ix kind => Sys2Proof.Machine.execPtpMessageSend ix kind s

end Sys2Proof.Machine
end

