-- ==== Sys2Proof/Machine/Tap.lean ====
section
/-! DEFINITION. The test access port (R570). No row of the opcode table clocks it: its pull-down holds TRST_B low, and these
are the operations of its pins (log entry 29). -/

namespace Sys2Proof.Machine

open Sys2Proof

/-- IDCODE of stepping B1, on every model. -/
def tapIdcode : Word := 0x29600C4B#32

/-- The next state of the controller at a rising edge of TCK, from TMS (IEEE 1149.1). -/
def TapState.next (tms : Bool) : TapState → TapState
  | .testLogicReset => if tms then .testLogicReset else .runTestIdle
  | .runTestIdle => if tms then .selectDr else .runTestIdle
  | .selectDr => if tms then .selectIr else .captureDr
  | .captureDr => if tms then .exit1Dr else .shiftDr
  | .shiftDr => if tms then .exit1Dr else .shiftDr
  | .exit1Dr => if tms then .updateDr else .pauseDr
  | .pauseDr => if tms then .exit2Dr else .pauseDr
  | .exit2Dr => if tms then .updateDr else .shiftDr
  | .updateDr => if tms then .selectDr else .runTestIdle
  | .selectIr => if tms then .testLogicReset else .captureIr
  | .captureIr => if tms then .exit1Ir else .shiftIr
  | .shiftIr => if tms then .exit1Ir else .shiftIr
  | .exit1Ir => if tms then .updateIr else .pauseIr
  | .pauseIr => if tms then .exit2Ir else .pauseIr
  | .exit2Ir => if tms then .updateIr else .shiftIr
  | .updateIr => if tms then .selectDr else .runTestIdle

/-- TRST_B low resets the test logic at once. -/
def Tap.reset (_ : Tap) : Tap := {}

/-- A rising edge of TCK: what the state does, then the next state. A register shifts by one bit from TDI. Which codes the
other instructions have, how long theirs and the instruction register are, and what they capture the spec does not say. -/
def Tap.clock (t : Tap) (tms tdi : Bool) : Tap :=
  if !t.trstB then t.reset
  else
    let shifted := t.shift.drop 1 ++ [tdi]
    let t := match t.state with
      | .testLogicReset => { t with idcode := true, shift := [] }
      | .captureDr => { t with shift := if t.idcode then (List.range 32).map tapIdcode.getLsbD else Config.tapCapture false }
      | .captureIr => { t with shift := Config.tapCapture true }
      | .shiftDr | .shiftIr => { t with shift := shifted }
      | .updateIr => { t with idcode := Config.tapSelectsIdcode t.shift }
      | _ => t
    { t with state := t.state.next tms, idcode := t.idcode || (t.state.next tms == TapState.testLogicReset) }

/-- TDO while a register shifts: the bit next to leave. -/
def Tap.tdo (t : Tap) : Option Bool := if t.state = TapState.shiftDr ∨ t.state = TapState.shiftIr then t.shift.head? else none

/-- TRST_B changes. -/
def State.trst (s : State) (level : Bool) : State :=
  { s with tap := if level then { s.tap with trstB := true } else s.tap.reset }

/-- The module operates normally only while TRST_B is low or the TAP is in Test-Logic-Reset. -/
def State.operatesNormally (s : State) : Bool := !s.tap.trstB || (s.tap.state == TapState.testLogicReset)

end Sys2Proof.Machine
end

