-- ==== Sys2Proof/Safety.lean ====
section
/-! DEFINITION. What counts as a safe run: every command answers a next state, and the registers that report an engine's
state agree with it. Also the words in which the statements say what a command answers and what it leaves alone. -/

namespace Sys2Proof.Machine

open Sys2Proof

/-- Command `c` answers a next state in `s`, and `P` holds of it. -/
def Answers (c : Instr) (s : State) (P : State → Prop) : Prop := ∃ t, exec c s = .next t ∧ P t

/-- The words whose fields only report an engine's state; every command leaves them up to date. -/
def statusWords : List Nat :=
  [Blk.update.base + Reg.Update.PENDING_GROUPS.off, Blk.ringmaster.base + Reg.Ringmaster.READY_NOW.off,
   Blk.curtain.base + Reg.Curtain.STATUS_STATE.off, Blk.twin.base + Reg.Twin.ROLE.off] ++
  (List.range 8).map (fun q => (Blk.seat q).base + Reg.Seat.STATUS_IN_FLIGHT.off)

/-- PENDING_GROUPS names the groups of the pending commits (R65), READY.NOW counts the ready items (R379), the curtain's
STATUS.STATE is its state (R205), TWIN ROLE is 1 in the understudy's states (R506), and IN_FLIGHT of each seat counts its
commands in flight (R397, R400); each within the width of its field. -/
def Reports (s : State) : Prop :=
  s.fld .update Reg.Update.PENDING_GROUPS = s.pendingGroups % 2 ^ 32 ∧
  s.fld .ringmaster Reg.Ringmaster.READY_NOW = s.sched.ready.length % 2 ^ 13 ∧
  s.fld .curtain Reg.Curtain.STATUS_STATE = s.curtain.code ∧
  s.fld .twin Reg.Twin.ROLE = (if undState (s.fld .twin Reg.Twin.STATE) then 1 else 0) ∧
  ∀ q, q < 8 → s.fld (.seat q) Reg.Seat.STATUS_IN_FLIGHT = (Map.get ({} : SeatState) q s.seats).flight % 2 ^ 7

/-- A safe step: the block answers a next state, and the status registers agree with the engines in it. -/
def SafeStep (s : State) : Prop := ∃ t, step s = .next t ∧ Reports t

/-- A safe run of `n` steps. -/
def SafeRun : Nat → State → Prop
  | 0, s => Reports s
  | n + 1, s => Reports s ∧ ∃ t, step s = .next t ∧ SafeRun n t

/-- Active register words other than `ws` and the status words are the same in both states. -/
def SameWords (s t : State) (ws : List Nat) : Prop :=
  ∀ k, k ∉ ws → k ∉ statusWords → Map.get 0#32 k t.fab.act = Map.get 0#32 k s.fab.act

/-- The states differ in nothing but the active register words `ws` and the status words. -/
def OnlyWords (s t : State) (ws : List Nat) : Prop :=
  { t with fab := { t.fab with act := s.fab.act } } = s ∧ SameWords s t ws

/-- The address of a register word: the word of field `f` of unit `b`. -/
def wordAt (b : Blk) (f : Fld) : Nat := b.base + f.off

/-- Object `n`'s context runs with no segment under way, and at its program counter stands instruction `i` of `len` words,
all in the region of its program; no interval of its jitter overlay ends at the sample it has reached (R102, R103, R109). -/
def TrapAt (s : State) (n : Nat) (i : TrapInstr) (len : Nat) : Prop :=
  let c := (s.obj n).ctx
  c.state = .running ∧ c.seg = none ∧ trapDecode s.motion.mem c.pc = some (i, len) ∧
  inRegion (s.motion.regionOf c.entry) c.pc = true ∧ inRegion (s.motion.regionOf c.entry) (c.pc + len - 1 : Nat) = true ∧
  (c.jitter.on = false ∨ c.jitter.n = 0 ∨ c.at_ < c.jitter.start + c.jitter.n)

/-- Object `n`'s context has become `c`; CTX shows its PC and loop depth; no other object's engine changes, and no
register word but the object's CTX and FAULT words and `ws`. -/
def CtxBecomes (s t : State) (n : Nat) (c : Ctx) (ws : List Nat) : Prop :=
  (t.obj n).ctx = c ∧ (∀ m, m ≠ n → t.obj m = s.obj m) ∧
  t.fld (.obj n) Reg.Obj.CTX_PC = c.pc % 2 ^ Reg.Obj.CTX_PC.width ∧
  t.fld (.obj n) Reg.Obj.CTX_LOOP_DEPTH = c.loops.length % 2 ^ Reg.Obj.CTX_LOOP_DEPTH.width ∧
  OnlyWords { s with objs := t.objs } t (wordAt (.obj n) Reg.Obj.CTX_STATE :: wordAt (.obj n) Reg.Obj.CTX_PC ::
    wordAt (.obj n) Reg.Obj.CTX_FAULT :: wordAt (.obj n) Reg.Obj.CTX_LOOP_DEPTH :: ws)

/-- The command `c` of a seat is in flight under its tag, has not begun, and may: the COMMAND job of its seat is in
service (R28, R400, R401). -/
def Issued (s : State) (c : Cmd) (opcode : Nat) : Prop :=
  s.cmdOf c.seat c.tag = some c ∧ c.opcode = opcode ∧ c.started = false ∧ c.final = false ∧ c.bad = false ∧
  c.waiters = [] ∧ s.mayStart c = true ∧ s.commandGranted c = true ∧ c.tag < bootTag ∧ c.seat < 8 ∧ c.state = .queued ∧ c.sq < 4

/-- The completion entry of a command (R402). -/
def completionOf (s : State) (c : Cmd) (status r0 r1 : Nat) (interim : Bool) : Completion :=
  { cq := s.cqOf c.seat c.sq, sq := c.sq, tag := c.tag, context := c.context, status := status
    r0 := BitVec.ofNat 32 r0, r1 := BitVec.ofNat 32 r1, interim := interim, dup := c.bad }

/-- The command has ended: its final completion, with this status and these results, is the last of those its seat has
waiting to be written, and the command is final (R401, R402). -/
def Completes (s t : State) (c : Cmd) (status r0 r1 : Nat) : Prop :=
  (t.seat c.seat).done = (s.seat c.seat).done ++ [completionOf s c status r0 r1 false] ∧
  ∃ d, t.cmdOf c.seat c.tag = some d ∧ d.final = true

/-- The command has become a long operation: it is started and holds a slot, whose flow has an item on the ready lists
or, granted to an engine that had stalled, in service, and it is QUEUED or, once granted, RUNNING; no completion is made
yet (R27, R374, R375, R410). -/
def Queued (s t : State) (c : Cmd) : Prop :=
  (t.seat c.seat).done = (s.seat c.seat).done ∧
  ∃ d, t.cmdOf c.seat c.tag = some d ∧ d.started = true ∧ d.final = false ∧ (d.state = .queued ∨ d.state = .running) ∧
    t.flowBusy (0x3000 + d.slot) = true

end Sys2Proof.Machine
end

