-- ==== Sys2Proof/Certificates/Slice0/Obligations.lean ====
section
/-! DEFINITION. The statements about the machine: what each command does to the state the spec names, what it leaves
alone, and what holds of every step. -/

open Sys2Proof Sys2Proof.Machine

/-- Step takes the command at the front of the queue and answers what exec answers on the queue's rest; with none waiting it
answers the state as it is (log entry 6). -/
def Obligations.StepRunsTheFrontCommand : Prop :=
  (∀ (c : Instr) (rest : List Instr) (s : State), s.pending = c :: rest → step s = exec c { s with pending := rest }) ∧
  ∀ s : State, s.pending = [] → step s = .next s

/-- The invariant of `EveryStepKeepsTheStatusRegisters` holds at reset. -/
def Obligations.ResetHasTrueStatusRegisters : Prop := Reports State.reset

/-- PENDING_GROUPS (R65), READY.NOW (R379), CURTAIN STATUS.STATE (R205), TWIN ROLE (R506) and IN_FLIGHT (R397, R400) stay what
the engines are, over every command. -/
def Obligations.EveryStepKeepsTheStatusRegisters : Prop :=
  ∀ s t : State, Reports s → step s = .next t → Reports t

/-- No command of the table stops the block, with any operands, in any state: a run of any length is safe. -/
def Obligations.EveryRunIsSafe : Prop := ∀ (n : Nat) (s : State), Reports s → SafeRun n s

/-- What a reset leaves in the registers that the chapters give reset values for. -/
def Obligations.ResetLeavesStatedValues : Prop :=
  let s := State.reset
  s.fld .render Reg.Render.STATE = 0 ∧ s.fs = 48000 ∧ s.blockSize = 16 ∧
  s.curtain.phase = .isOpen ∧ s.fld .curtain Reg.Curtain.STATUS_STATE = 0 ∧
  (∀ n, n < 1024 → s.ownerOf (.obj n) = (0, false) ∧ s.groupOf (.obj n) = 0) ∧
  (∀ g, g < 32 → s.fld .update (Reg.Update.UG_CFG_KIND g) = 1) ∧
  s.fab.commits = [] ∧ s.pending = [] ∧ s.seats = []

/-- A write to the staged view by the house seat (R56, R57). -/
def Obligations.StagedObjectGainWaitsForItsCommit : Prop :=
  ∀ (s : State) (n : Nat) (data : Word), n < s.model.objects → s.pushMode = false → s.isUnderstudy = false →
    s.groupOf (.obj n) ≠ 0xFF →
    Answers (.registerWrite (.seat 0) (wordAt (.obj n) Reg.Obj.GAIN) data true) s (fun t =>
      t.stg (.obj n) Reg.Obj.GAIN = data.toNat ∧ t.isPending (.obj n) = true ∧
      (∀ k, k ≠ wordAt (.obj n) Reg.Obj.GAIN → Map.get 0#32 k t.fab.stg = Map.get 0#32 k s.fab.stg) ∧
      (∀ b, b.base ≠ (Blk.obj n).base → t.isPending b = s.isPending b) ∧ SameWords s t [] ∧
      { t with fab := { t.fab with stg := s.fab.stg, act := s.fab.act, stagedPending := s.fab.stagedPending } } = s)

/-- Refused writes (R47, R50): no other word, staged value or engine state changes. -/
def Obligations.RefusedWriteChangesOnlyTheErrorLog : Prop :=
  ∀ (s : State) (w : Writer) (addr : Nat) (data : Word) (aligned : Bool), (s.tryWrite w addr data aligned).2 = false →
    Answers (.registerWrite w addr data aligned) s (fun t => ∃ page : Blk,
      OnlyWords { s with free := t.free } t [wordAt page Reg.Hdr.ERR_VALID])

/-- The ownership rule on an assignable record (R50, R47). -/
def Obligations.NonOwnerCannotWriteAnObject : Prop :=
  ∀ (s : State) (n seat : Nat) (data : Word), n < s.model.objects → seat ≠ 0 → seat < s.model.seats →
    s.isUnderstudy = false → s.ownerOf (.obj n) = ((s.ownerOf (.obj n)).1, false) → (s.ownerOf (.obj n)).1 ≠ seat →
    s.bit (.objPage (n / 8)) Reg.Hdr.LOCK = false → s.bit (.objPage (n / 8)) Reg.Hdr.ERR_VALID = false →
    Answers (.registerWrite (.seat seat) (wordAt (.obj n) Reg.Obj.GAIN) data true) s (fun t =>
      let p := Blk.objPage (n / 8)
      t.fld p Reg.Hdr.ERR_VALID = 1 ∧ t.fld p Reg.Hdr.ERR_REASON = eNotOwner ∧ t.fld p Reg.Hdr.ERR_SEAT = seat ∧
      t.fld p Reg.Hdr.ERR_OFFSET = 0x400 + 0x80 * (n % 8) + 8 ∧
      t.stg (.obj n) Reg.Obj.GAIN = s.stg (.obj n) Reg.Obj.GAIN ∧ t.fld (.obj n) Reg.Obj.GAIN = s.fld (.obj n) Reg.Obj.GAIN ∧
      OnlyWords s t [wordAt p Reg.Hdr.ERR_VALID])

/-- Reads by a seat (R13, R55). -/
def Obligations.ReadsAnswerLatchAndClear : Prop :=
  (∀ (s : State) (seat addr : Nat), seat < s.model.seats → 4 ∣ addr → Map.get [] seat s.fab.latch = [] →
    Answers (.lowWordRead (.seat seat) addr) s (fun t =>
      Map.get 0 seat t.fab.answer = s.readPlace seat (s.resolve seat addr) ∧
      Map.get [] seat t.fab.latch = (placeLatch (s.resolve seat addr)).map (fun d =>
        (addr + d, s.readPlace seat (s.resolve seat (addr + d)))) ∧
      ∀ q, q ≠ seat → Map.get [] q t.fab.latch = Map.get [] q s.fab.latch ∧ Map.get 0 q t.fab.answer = Map.get 0 q s.fab.answer)) ∧
  (∀ (s : State) (seat addr : Nat) (b : Blk), seat < s.model.seats → 4 ∣ addr → s.resolve seat addr = .header b 0x00C →
    Blk.hasMirror b = false →
    Answers (.clearingRead (.seat seat) addr) s (fun t =>
      t.fld b Reg.Hdr.EVENTS = (if s.clears seat b then 0 else s.fld b Reg.Hdr.EVENTS) ∧
      SameWords s t [wordAt b Reg.Hdr.EVENTS] ∧
      { t with fab := { t.fab with act := s.fab.act, latch := s.fab.latch, answer := s.fab.answer } } = s))

/-- The slow-domain copies and PAGE_CTRL.BLOCK_RESET (R48, R61, R62, R64, R545). -/
def Obligations.MirrorsLostWritesAndBlockResets : Prop :=
  (∀ (s : State) (b : Blk) (tx : Bool), b = .greenroom ∨ b = .jack → s.fab.posted = [] → s.fab.resets = [] →
    Answers (.mirrorRefresh b tx) s (fun t =>
      regGet t.fab.mir b.base Reg.Hdr.EVENTS = s.fld b Reg.Hdr.EVENTS ∧
      Map.get 0 b.base t.fab.refreshedAt = s.render.tick ∧
      Map.get 0 b.base t.fab.refreshTag = Map.get 0 b.base s.fab.refreshTag + 1 ∧ SameWords s t [])) ∧
  (∀ (s : State) (b : Blk) (off : Nat) (data : Word) (seat tick : Nat) (rest : List Posted),
    s.fab.posted = { blk := b, op := .write off data, seat := seat, tick := tick } :: rest → tick + s.msTicks ≤ s.render.tick →
    s.bit b Reg.Hdr.ERR_VALID = false → Answers (.slowWriteLost b) s (fun t =>
      t.fab.posted = rest ∧ t.fld b Reg.Hdr.ERR_VALID = 1 ∧ t.fld b Reg.Hdr.ERR_REASON = eSlowLost ∧
      SameWords s t [wordAt b Reg.Hdr.ERR_VALID])) ∧
  (∀ (s : State) (b : Blk), renderDomain b = true → b.page = b → b.present s.model = true → s.clocked = true →
    s.isUnderstudy = false → s.fab.resets = [] →
    Answers (.blockReset (.seat 0) b) s (fun t => t.fab.resets = [(b, s.render.rsi)] ∧ SameWords s t [])) ∧
  (∀ (s : State) (i : Nat), i < 2 → s.isUnderstudy = false → s.fab.held = [] →
    Answers (.blockReset (.seat 0) (.time i)) s (fun t =>
      t.fld (.time i) Reg.Time.ANN_TIMEOUTS = 0 ∧ t.fld (.time i) Reg.Time.GM_CHANGES = 0 ∧
      t.fld (.time i) Reg.Hdr.EVENTS = 0))

/-- UPD_STROBE (R67, R68, R591); serials as the registers show them, modulo 2^32. -/
def Obligations.StrobeCapturesOrIsRefused : Prop :=
  ∀ (s : State) (seat : Nat) (mask : Word), seat < 8 → s.isUnderstudy = false →
    let busy := ∃ c ∈ s.fab.commits, c.applied = false ∧ c.mask &&& mask.toNat ≠ 0
    let usable := ∀ g, g < 32 → mask.toNat.testBit g = true → s.mayUseGroup seat g = true
    (mask = 0#32 → Answers (.updStrobe seat mask) s (fun t => OnlyWords s t [])) ∧
    (mask ≠ 0#32 → usable → ¬ busy → Answers (.updStrobe seat mask) s (fun t =>
      ∃ c : Commit, t.fab.commits = s.fab.commits ++ [c] ∧ c.serial = nextSerial s.fab.serial ∧ t.fab.serial = c.serial ∧
        c.seat = seat ∧ c.by_ = .seat ∧ c.mask = mask.toNat ∧ c.prepared = false ∧ c.applied = false ∧
        c.at_ = s.fld64 (.updateBank seat) Reg.Update.UPD_AT_LO Reg.Update.UPD_AT_HI ∧
        (∀ g k, (g, k) ∈ c.kinds ↔ g < 32 ∧ mask.toNat.testBit g = true ∧ k = s.fld .update (Reg.Update.UG_CFG_KIND g)) ∧
        (∀ b, b ∈ c.blks ↔ b ∈ allBlks ∧ b.present s.model = true ∧ s.groupOf b < 32 ∧
          mask.toNat.testBit (s.groupOf b) = true) ∧
        (∀ b ∈ c.blks, ∀ k, ownsKey b k = true → Map.get 0#32 k c.vals = Map.get 0#32 k s.fab.stg) ∧
        (∀ b ∈ c.blks, t.isPending b = false) ∧ (∀ k, Map.get 0#32 k t.fab.stg = Map.get 0#32 k s.fab.stg) ∧
        t.fld (.updateBank seat) Reg.Update.UPD_SERIAL = c.serial % 2 ^ 32 ∧
        t.fld .update Reg.Update.COMMIT_SERIAL = c.serial % 2 ^ 32 ∧
        t.fld (.updateBank seat) Reg.Update.UPD_RESULT_STATE = updPreparing)) ∧
    (mask ≠ 0#32 → (usable → busy) → (busy → usable) → Answers (.updStrobe seat mask) s (fun t =>
      t.fab.commits = s.fab.commits ∧ t.fab.serial = s.fab.serial ∧ t.fab.stg = s.fab.stg ∧
      t.fab.stagedPending = s.fab.stagedPending ∧
      t.fld (.updateBank seat) Reg.Update.UPD_RESULT_STATE = updRefused ∧
      (usable → t.fld (.updateBank seat) Reg.Update.UPD_RESULT_REASON = rGroupPending) ∧
      (¬ busy → t.fld (.updateBank seat) Reg.Update.UPD_RESULT_REASON = rNotOwner)))

/-- PREPARE_DONE (R69 to R72). -/
def Obligations.PrepareFixesTheApplySample : Prop :=
  ∀ (s : State) (serial : Nat) (c : Commit), s.commitOf serial = some c → c.prepared = false → c.applied = false →
    c.by_ = .seat → c.next = false → c.timed = false → c.seat < 8 → s.lockPri = false → s.twin.prepared = [] →
    let p := s.render.rsi + 1
    let sample := ∃ g, (g, 0) ∈ c.kinds
    let block := ∃ g, (g, 1) ∈ c.kinds
    (s.failures c = [] → Answers (.prepareDone serial) s (fun t => ∃ (i : Nat) (late : Bool),
      t.commitOf serial = some { c with prepared := true, applyAt := i, late := late } ∧
      (s.stopped = true → i = s.render.rsi ∧ late = false) ∧
      (s.stopped = false → c.newBlock s = false → ∃ base, (sample → base = max c.at_ p) ∧ (¬ sample → base = p) ∧
        (¬ block → i = base) ∧ (block → base ≤ i ∧ i < base + s.blockSize ∧ i % s.blockSize = 0) ∧
        (late = true ↔ sample ∧ c.at_ < p)) ∧
      (Map.get 0 c.seat s.fab.lastStrobe = serial →
        t.fld (.updateBank c.seat) Reg.Update.UPD_RESULT_STATE = updPending))) ∧
    (∀ bad, s.failures c = [bad] → bad.absent = false → bad.reason < 256 → bad.page < 4096 →
      Answers (.prepareDone serial) s (fun t =>
      t.commitOf serial = none ∧ (∀ b ∈ c.wasPending, t.isPending b = true) ∧
      (Map.get 0 c.seat s.fab.lastStrobe = serial →
        t.fld (.updateBank c.seat) Reg.Update.UPD_RESULT_STATE = updFailed ∧
        t.fld (.updateBank c.seat) Reg.Update.UPD_RESULT_REASON = bad.reason ∧
        t.fld (.updateBank c.seat) Reg.Update.UPD_RESULT_PAGE = bad.page)))

/-- COMMIT_APPLY of a commit of one object record that commands no motion (R71 to R73). -/
def Obligations.CommitApplyTakesTheCapturedValues : Prop :=
  ∀ (s : State) (serial n : Nat) (c : Commit), s.commitOf serial = some c → c.prepared = true → c.applied = false →
    c.blks = [.obj n] → n < 1024 → c.by_ = .seat → c.seat < 8 → c.waiting = [] → c.lost = [] → c.peerLost = none →
    regGet c.vals (Blk.obj n).base Reg.Obj.MOTION_CMD = 0 →
    (s.stopped = true ∨ c.applyAt ≤ s.render.rsi → Answers (.commitApply serial) s (fun t =>
      (∀ f ∈ (Blk.obj n).allFields, f.acc = .rw → f ≠ Reg.Obj.MOTION_CMD →
        t.fld (.obj n) f = regGet c.vals (Blk.obj n).base f) ∧
      t.fld (.objPage (n / 8)) Reg.Hdr.APPLIED_COMMIT = serial % 2 ^ 32 ∧ t.commitOf serial = none ∧
      t.objs = s.objs ∧ t.fab.stg = s.fab.stg ∧
      (Map.get 0 c.seat s.fab.lastStrobe = serial →
        t.fld (.updateBank c.seat) Reg.Update.UPD_RESULT_STATE = updApplied ∧
        t.fld (.updateBank c.seat) Reg.Update.UPD_RESULT_REASON = (if c.late then rLate else rNone)))) ∧
    (s.stopped = false → s.render.rsi < c.applyAt → Answers (.commitApply serial) s (OnlyWords s · []))

/-- SLOW_UNIT_APPLY and UNIT_LOST of the last unit that waits (R71, R74, R441, R442). -/
def Obligations.SlowUnitsApplyOrAreHeld : Prop :=
  ∀ (s : State) (serial : Nat) (c : Commit), s.commitOf serial = some c → c.applied = true → c.waiting = [.greenroom] →
    c.by_ = .seat → c.seat < 8 → c.lost = [] → c.peerLost = none → Map.get 0 c.seat s.fab.lastStrobe = serial →
    Answers (.slowUnitApply serial .greenroom) s (fun t =>
      (∀ f ∈ Blk.greenroom.allFields, f.acc = .rw → t.fld .greenroom f = regGet c.vals Blk.greenroom.base f) ∧
      t.fld .greenroom Reg.Hdr.APPLIED_COMMIT = serial % 2 ^ 32 ∧ t.commitOf serial = none ∧
      t.fld (.updateBank c.seat) Reg.Update.UPD_RESULT_STATE = updApplied) ∧
    (c.tick + s.blockSize ≤ s.render.tick → Answers (.unitLost serial .greenroom) s (fun t =>
      (Blk.greenroom, serial) ∈ t.fab.held ∧ t.isPending .greenroom = true ∧
      (∀ f ∈ Blk.greenroom.allFields, t.fld .greenroom f = s.fld .greenroom f) ∧
      (∀ f ∈ Blk.greenroom.allFields, f.acc = .rw → t.stg .greenroom f = regGet c.vals Blk.greenroom.base f) ∧
      t.fld (.updateBank c.seat) Reg.Update.UPD_RESULT_STATE = updSplit ∧
      t.fld (.updateBank c.seat) Reg.Update.UPD_RESULT_REASON = rUnitLost ∧
      t.fld (.updateBank c.seat) Reg.Update.UPD_RESULT_PAGE = Blk.greenroom.base / 4096 % 2 ^ 12 ∧
      t.commitOf serial = none))

/-- UPD_DISCARD and UPD_CANCEL (R75). -/
def Obligations.DiscardAndCancel : Prop :=
  (∀ (s : State) (mask : Word), Answers (.updDiscard 0 mask) s (fun t =>
    (∀ n, n < s.model.objects → s.groupOf (.obj n) < 32 → mask.toNat.testBit (s.groupOf (.obj n)) = true →
      t.stg (.obj n) Reg.Obj.GAIN = s.fld (.obj n) Reg.Obj.GAIN ∧ t.isPending (.obj n) = false) ∧
    OnlyWords { s with fab := { s.fab with stg := t.fab.stg, stagedPending := t.fab.stagedPending } } t [])) ∧
  (∀ (s : State) (seat : Nat) (mask : Word), seat < 8 → Answers (.updCancel seat mask) s (fun t =>
    (∀ c ∈ s.fab.commits, c.applied = false →
      (c.prepared = false ∨ s.stopped = true ∨ s.render.rsi + 1 < c.applyAt) →
      (∃ g, g < 32 ∧ mask.toNat.testBit g = true ∧ s.mayUseGroup seat g = true ∧ c.mask.testBit g = true) →
      c ∉ t.fab.commits ∧ ∀ b ∈ c.wasPending, t.isPending b = true) ∧
    (∀ c ∈ s.fab.commits, c.mask &&& mask.toNat = 0 → (∀ d ∈ s.fab.commits, d ≠ c → d.serial ≠ c.serial) →
      c ∈ t.fab.commits) ∧
    t.fab.stg = s.fab.stg))

/-- SAMPLE_STROBE (R31, R350), RELEASE (R19) and DEADLINE (R20). -/
def Obligations.StrobeReleaseAndDeadline : Prop :=
  (∀ s : State, s.dead = false → s.lowPower = false → s.render.starting = false →
    (s.clocked = true → s.replaying = false → (s.render.rsi + 1) % s.blockSize ≠ 0 →
      Answers .sampleStrobe s (fun t =>
        t.render = { s.render with tick := s.render.tick + 1, rsi := s.render.rsi + 1 } ∧ t.time.m = s.time.m + 1 ∧
        t.objs = s.objs ∧ t.fab.stg = s.fab.stg ∧ t.fab.commits = s.fab.commits)) ∧
    (s.stopped = true → Answers .sampleStrobe s (fun t =>
        t.render = { s.render with tick := s.render.tick + 1 } ∧ t.time.m = s.time.m + 1))) ∧
  (∀ s : State, s.running = true → s.dead = false → s.replaying = false →
    let n := s.render.rsi / s.blockSize
    let due := s.render.block + (if s.render.released then 1 else 0) < n
    (due → Answers .release s (fun t => t.render.block = n - 1 ∧ t.render.released = true ∧ t.render.late = false ∧
      t.paths.acc = [] ∧ t.paths.busAcc = [])) ∧
    (¬ due → Answers .release s (OnlyWords s · []))) ∧
  (∀ s : State, s.running = true → s.dead = false → s.render.released = true →
    let due := s.blockStart (s.render.block + 2) ≤ s.render.rsi
    (due → s.render.late = false → Answers .deadline s (fun t => t.render.late = true ∧
      ∀ r ∈ t.sched.ready, r.job.kind.render = true → r.job.kind = .trapeze ∨ r.job.kind = .pan ∨
        (r.job.kind = .convSeg ∧ s.render.block ≤ r.job.block))) ∧
    (¬ due ∨ s.render.late = true → Answers .deadline s (OnlyWords s · [])))

/-- RENDER.CTRL (R380, R381). -/
def Obligations.RunStopAndReset : Prop :=
  (∀ s : State, s.clocked = false → s.lowPower = false → s.dead = false → s.green.entry = none → Answers .run s (fun t =>
    t.fld .render Reg.Render.CTRL_RUN = 1 ∧ t.stg .render Reg.Render.CTRL_RUN = 1 ∧
    t.render = { s.render with starting := true, silentUntil := 0, startTick := 0 } ∧
    OnlyWords { s with render := t.render, fab := { s.fab with stg := t.fab.stg } } t [wordAt .render Reg.Render.CTRL_RUN])) ∧
  (∀ s : State, s.clocked = true → Answers .run s (fun t =>
    t.fld .render Reg.Render.CTRL_RUN = 1 ∧ t.render = { s.render with stopping := false } ∧
    OnlyWords { s with render := t.render, fab := { s.fab with stg := t.fab.stg } } t [wordAt .render Reg.Render.CTRL_RUN])) ∧
  (∀ s : State, s.clocked = true ∨ s.time.switch = none → Answers .renderStop s (fun t =>
    t.fld .render Reg.Render.CTRL_RUN = 0 ∧ t.stg .render Reg.Render.CTRL_RUN = 0 ∧
    t.render = { s.render with starting := false, stopping := s.clocked } ∧
    OnlyWords { s with render := t.render, fab := { s.fab with stg := t.fab.stg } } t [wordAt .render Reg.Render.CTRL_RUN])) ∧
  (∀ (s : State) (i : Nat) (first : Bool), s.stopped = true → s.time.switch = some (i, first) → Answers .renderStop s (fun t =>
    let u := s.setBoth .render Reg.Render.CTRL_RUN 0
    OnlyWords ({ u with render := { s.render with starting := false, stopping := false } }.selectInst i first) t [])) ∧
  (∀ s : State, Answers .renderReset s (fun t => OnlyWords { s with render := { s.render with resetting := s.clocked } } t []))

/-- The segment instructions (R102, R106). -/
def Obligations.MotionSegmentsBegin : Prop :=
  ∀ (s : State) (n len : Nat),
    let c := (s.obj n).ctx
    let length := fun d N => 2 ^ 33 * N ≤ 2 * d * c.timescale * s.fs + 2 ^ 32 ∧ 2 * d * c.timescale * s.fs + 2 ^ 32 < 2 ^ 33 * (N + 1)
    let begins := fun (i : Instr) (d : Nat) (k : SegKind) => Answers i s (fun t => ∃ N, length d N ∧
      CtxBecomes s t n { c with pc := c.pc + len, seg := some { kind := k, s0 := c.at_, n := N, p0 := c.p } } [] ∧
      t.fld (.obj n) Reg.Obj.CTX_STATE = 1)
    (∀ d, TrapAt s n (.hold d) len → begins (.hold n) d .hold) ∧
    (∀ p d smooth, TrapAt s n (.move p d smooth) len → begins (.move n) d (.move (p.add c.origin) smooth)) ∧
    (∀ p t0 t1 d, TrapAt s n (.curve p t0 t1 d) len → begins (.curve n) d (.curve (p.add c.origin) t0 t1)) ∧
    (∀ plane q w climb d, TrapAt s n (.orbit plane q w climb d) len →
      begins (.orbit n) d (.orbit plane (q.add c.origin) w climb))

/-- WAITT, WAITE, HALT, JITTER and SETP (R106, R107, R109). -/
def Obligations.WaitsHaltJitterAndParameters : Prop :=
  ∀ (s : State) (n len : Nat),
    let c := (s.obj n).ctx
    let next := { c with pc := c.pc + len }
    let stands := fun k => some ({ kind := k, s0 := c.at_, n := 0, p0 := c.p } : Segment)
    (∀ target, TrapAt s n (.waitRsi target) len → Answers (.waitt n) s (fun t =>
      CtxBecomes s t n { next with seg := stands (.waitTime target), state := .waitTime } [] ∧ t.fld (.obj n) Reg.Obj.CTX_STATE = 2)) ∧
    (∀ ns, TrapAt s n (.waitTai ns) len → Answers (.waitt n) s (fun t =>
      CtxBecomes s t n { next with seg := stands (.waitTime (s.rsiOfTime ns)), state := .waitTime } [])) ∧
    (∀ k clear, TrapAt s n (.waitFlag k clear) len → Answers (.waite n) s (fun t =>
      CtxBecomes s t n { next with seg := stands (.waitFlag k clear), state := .waitFlag } [] ∧
      t.fld (.obj n) Reg.Obj.CTX_STATE = 3)) ∧
    (TrapAt s n (.halt false) len → Answers (.trapezeHalt n) s (fun t =>
      CtxBecomes s t n { next.freeze c.at_ with state := .halted, seg := none } [] ∧ t.fld (.obj n) Reg.Obj.CTX_STATE = 4)) ∧
    (TrapAt s n (.halt true) len → Answers (.trapezeHalt n) s (fun t =>
      (t.obj n).ctx.state = .halted ∧ t.fld (.obj n) Reg.Obj.EVT_CODE = 0xFF ∧
      t.fld (.obj n) Reg.Obj.EVT_FLAGS = s.fld (.obj n) Reg.Obj.EVT_FLAGS ||| 1)) ∧
    (∀ d, TrapAt s n (.jitter {} d) len → c.jitter.on = false → Answers (.jitter n) s (CtxBecomes s · n next [])) ∧
    (∀ d, TrapAt s n (.jitter {} d) len → c.jitter.on = true → Answers (.jitter n) s (fun t =>
      (t.obj n).ctx.jitter.closing = true ∧ (t.obj n).ctx.jitter.to_ = {} ∧ (t.obj n).ctx.lfsr = c.lfsr ∧
      (t.obj n).ctx.jitter.from_ = c.jitter.at_ c.at_ ∧ (t.obj n).ctx.jitter.start = c.at_)) ∧
    (∀ amp d, TrapAt s n (.jitter amp d) len → amp ≠ {} → Answers (.jitter n) s (fun t =>
      (t.obj n).ctx.jitter.on = true ∧ (t.obj n).ctx.jitter.amp = amp ∧ (t.obj n).ctx.jitter.start = c.at_ ∧
      (t.obj n).ctx.jitter.from_ = c.jitter.at_ c.at_ ∧ (t.obj n).ctx.jitter.to_ = (drawTarget amp c.lfsr).1 ∧
      (t.obj n).ctx.lfsr = (drawTarget amp c.lfsr).2 ∧ (t.obj n).ctx.pc = c.pc + len)) ∧
    (∀ v, TrapAt s n (.seed v) len → Answers (.setpSeed n) s (CtxBecomes s · n { next with lfsr := if v = 0 then 1 else v } [])) ∧
    (∀ p, TrapAt s n (.origin p) len → Answers (.setpOrigin n) s (CtxBecomes s · n { next with origin := p } [])) ∧
    (∀ q, TrapAt s n (.timescale q) len → Answers (.setpTimescale n) s (CtxBecomes s · n { next with timescale := q } []))

/-- LOOP, ENDL, JUMP and EVENT, with their faults (R107, R108, R111). -/
def Obligations.LoopsJumpsAndEvents : Prop :=
  ∀ (s : State) (n len : Nat),
    let c := (s.obj n).ctx
    let next := { c with pc := c.pc + len }
    let region := s.motion.regionOf c.entry
    let faults := fun (i : Instr) (code : Nat) => Answers i s (fun t => (t.obj n).ctx.state = .fault ∧ (t.obj n).ctx.p = c.p ∧
      t.fld (.obj n) Reg.Obj.CTX_STATE = 5 ∧ t.fld (.obj n) Reg.Obj.CTX_FAULT = code ∧
      t.fld (.obj n) Reg.Obj.EVT_FLAGS = s.fld (.obj n) Reg.Obj.EVT_FLAGS ||| 4)
    (∀ k, TrapAt s n (.loop k) len → c.loops.length < 4 →
      Answers (.trapezeLoop n) s (CtxBecomes s · n { next with loops := (c.pc + len, k) :: c.loops } [])) ∧
    (∀ k, TrapAt s n (.loop k) len → 4 ≤ c.loops.length → faults (.trapezeLoop n) 1) ∧
    (∀ a rest, TrapAt s n .endl len → c.loops = (a, 0) :: rest → inRegion region a = true →
      Answers (.endl n) s (CtxBecomes s · n { c with pc := a } [])) ∧
    (∀ a k rest, TrapAt s n .endl len → c.loops = (a, k) :: rest → 1 < k → inRegion region a = true →
      Answers (.endl n) s (CtxBecomes s · n { c with pc := a, loops := (a, k - 1) :: rest } [])) ∧
    (∀ a rest, TrapAt s n .endl len → c.loops = (a, 1) :: rest →
      Answers (.endl n) s (CtxBecomes s · n { next with loops := rest } [])) ∧
    (TrapAt s n .endl len → c.loops = [] → faults (.endl n) 2) ∧
    (∀ off, TrapAt s n (.jump off) len → inRegion region (c.pc + off) = true →
      Answers (.trapezeJump n) s (CtxBecomes s · n { c with pc := ((c.pc : Int) + off).toNat } [])) ∧
    (∀ off, TrapAt s n (.jump off) len → inRegion region (c.pc + off) = false → faults (.trapezeJump n) 3) ∧
    (∀ code, TrapAt s n (.event code) len → Answers (.trapezeEvent n) s (fun t =>
      (t.obj n).ctx = next ∧ t.fld (.obj n) Reg.Obj.EVT_CODE = code % 256 ∧
      t.fld (.obj n) Reg.Obj.EVT_COUNT = min (s.fld (.obj n) Reg.Obj.EVT_COUNT + 1) (2 ^ Reg.Obj.EVT_COUNT.width - 1) ∧
      t.fld (.obj n) Reg.Obj.EVT_FLAGS = s.fld (.obj n) Reg.Obj.EVT_FLAGS ||| 1))

/-- MOTION_START to DRAINED (R82, R86, R101, R102, R109, R110). -/
def Obligations.MotionCommandsAndEnds : Prop :=
  ∀ (s : State) (n : Nat),
    let o := s.obj n
    (∀ sa, s.fld (.obj n) Reg.Obj.CTRL_MOTION_MODE ≠ 0 →
      Answers (.motionStart n sa) s (fun t => t.obj n = { o with cmds := o.cmds ++ [(true, sa)] } ∧
        t.fld (.obj n) Reg.Obj.MOTION_CMD = 1 ∧ OnlyWords { s with objs := t.objs } t [wordAt (.obj n) Reg.Obj.MOTION_CMD]) ∧
      Answers (.motionStop n sa) s (fun t => t.obj n = { o with cmds := o.cmds ++ [(false, sa)] } ∧
        t.fld (.obj n) Reg.Obj.MOTION_CMD = 2 ∧ OnlyWords { s with objs := t.objs } t [wordAt (.obj n) Reg.Obj.MOTION_CMD])) ∧
    (∀ sa, s.fld (.obj n) Reg.Obj.CTRL_MOTION_MODE = 0 → Answers (.motionStart n sa) s (fun t =>
      t.fld (.obj n) Reg.Obj.MOTION_CMD = 1 ∧ OnlyWords s t [wordAt (.obj n) Reg.Obj.MOTION_CMD])) ∧
    (∀ flags, s.lockPri = false →
      Answers (.motionFlagsSet n flags) s (fun t => t.obj n = { o with flagSet := o.flagSet ||| flags % 256 } ∧
        OnlyWords { s with objs := t.objs } t []) ∧
      Answers (.motionFlagsClr n flags) s (fun t => t.obj n = { o with flagClr := o.flagClr ||| flags % 256 } ∧
        OnlyWords { s with objs := t.objs } t [])) ∧
    (∀ g, o.ctx.seg = some g → (g.kind = .hold ∨ ∃ p smooth, g.kind = .move p smooth) →
      (g.s0 + g.n ≤ s.render.rsi → Answers (.segmentEnd n) s (fun t => (t.obj n).ctx =
        { o.ctx with state := .running, seg := none, at_ := g.s0 + g.n, p := (g.pos s.fs g.n).sat })) ∧
      (s.render.rsi < g.s0 + g.n → Answers (.segmentEnd n) s (OnlyWords s · []))) ∧
    (o.ctx.jitter.on = true → 0 < o.ctx.jitter.n → o.ctx.jitter.start + o.ctx.jitter.n ≤ s.render.rsi →
      (o.ctx.jitter.closing = true → Answers (.jitterIntervalEnd n) s (fun t => (t.obj n).ctx = { o.ctx with jitter := {} })) ∧
      (o.ctx.jitter.closing = false → Answers (.jitterIntervalEnd n) s (fun t => (t.obj n).ctx = { o.ctx with
        lfsr := (drawTarget o.ctx.jitter.amp o.ctx.lfsr).2
        jitter := { o.ctx.jitter with start := o.ctx.jitter.start + o.ctx.jitter.n, from_ := o.ctx.jitter.to_
                                      to_ := (drawTarget o.ctx.jitter.amp o.ctx.lfsr).1 } }))) ∧
    (s.drained n = true → Answers (.drained n) s (fun t => (t.obj n).draining = none ∧ (t.obj n).near = [] ∧
      (t.obj n).far = [] ∧ (t.pathsOf n).sets = [] ∧ (t.fld (.obj n) Reg.Obj.EVT_FLAGS).testBit 6 = true ∧
      t.fld (.obj n) Reg.Obj.PATHS_GRANTED = 0))

/-- TRAPEZE_JOB (R96, R98), and that the jobs of a block run once in it. -/
def Obligations.TrapezeJobAndOnceABlock : Prop :=
  (∀ (s : State) (n b : Nat), s.granted .trapeze n b = true → s.render.released = true → b ≤ s.render.block →
    Map.get 0 n s.paths.jobs ≤ b → (s.obj n).mode = 0 → s.fldAt (.obj n) Reg.Obj.CTRL_MOTION_MODE (s.blockStart b) = 0 → (s.obj n).activatedAt = none →
    (s.obj n).cmds = [] → (∀ i ∈ s.blockSamples b, s.changedAt (.obj n) i = none) →
    Answers (.trapezeJob n b) s (fun t =>
      let p := ((s.obj n).direct.at_ (s.blockStart b + s.blockSize)).sat
      (t.obj n).pb1 = p ∧ (t.obj n).pb = (s.obj n).pb1 ∧ (t.obj n).pbAt = s.blockStart b + s.blockSize ∧ (t.obj n).ctx = {} ∧
      t.fld (.obj n) Reg.Obj.CUR_X = unsigned 32 p.x ∧ t.fld (.obj n) Reg.Obj.CUR_Y = unsigned 32 p.y ∧
      t.fld (.obj n) Reg.Obj.CUR_Z = unsigned 32 p.z ∧ Map.get 0 n t.paths.jobs = b + 1)) ∧
  (∀ (s : State) (n b : Nat) (toBus : Bool),
    let idle := fun (kind : JobKind) (flow key : Nat) => s.granted kind flow b = false ∨ s.render.released = false ∨
      s.render.block < b ∨ b < Map.get 0 key s.paths.jobs
    (idle .trapeze n n → Answers (.trapezeJob n b) s (OnlyWords s · [])) ∧
    (idle .pan n (1024 + n) → Answers (.panJob n b) s (OnlyWords s · [])) ∧
    (idle .route ((if toBus then 0x600 else 0x400) + n) ((if toBus then 3072 else 2048) + n) →
      Answers (.routeJob toBus n b) s (OnlyWords s · [])) ∧
    (idle .bus (0x600 + n) (4096 + n) → Answers (.busJob n b) s (OnlyWords s · [])))

/-- PAN_JOB, PATH_JOB, FAR_FETCH_DONE, FETCH_LATE (R119, R136, R155 to R169). -/
def Obligations.PanAndPathJobs : Prop :=
  (∀ (s : State) (n b : Nat), s.granted .pan n b = true → s.render.released = true → b ≤ s.render.block →
    Map.get 0 (1024 + n) s.paths.jobs ≤ b → (s.obj n).live = true →
    (s.panOn (s.blockStart b) = false → Answers (.panJob n b) s (fun t => (t.pathsOf n).sets = [] ∧
      t.fld (.obj n) Reg.Obj.PATHS_WANTED = 0 ∧ t.fld (.obj n) Reg.Obj.PATHS_GRANTED = 0)) ∧
    (∀ l, s.panOn (s.blockStart b) = true → s.pathsOf n = {} → s.layoutFor false (s.blockStart b) = some l →
      (s.obj n).relocs = [] → (∀ i ∈ s.blockSamples b, s.lawReloc n i = false) →
      Answers (.panJob n b) s (fun t =>
        let r := (s.evaluate n (s.blockStart b) (s.blockStart b + s.blockSize) l (s.obj n).pb1).1
        (t.pathsOf n).result = some r ∧ (t.pathsOf n).wanted = s.unitsPer n (s.blockStart b) * r.length ∧
        (t.pathsOf n).dirty = false ∧ t.fld .pan Reg.Pan.EVALS = (s.fld .pan Reg.Pan.EVALS + 1) % 2 ^ 32))) ∧
  (∀ (s : State) (n b slice : Nat) (p : Path), s.granted .path n b slice = true → s.inTime b = true → (s.pathsOf n).fetching = [] →
    slice = (s.pathsOf n).slice → slice * s.sliceSize < s.blockSize →
    (s.pathsOf n).sets = [{ paths := [p] }] → p.cut = false → s.sched.cutOuts = [] →
    Answers (.pathJob n b slice) s (fun t => (t.pathsOf n).slice = slice + 1 ∧
      ∀ j, j < 64 → ∀ o, Map.get 0 (64 * o + j) t.paths.acc = Map.get 0 (64 * o + j) s.paths.acc +
        (if o = p.out ∧ slice * s.sliceSize ≤ j ∧ j < (slice + 1) * s.sliceSize then
          p.contribution (s.unitsPer n (s.blockStart b) = 2) s.paths.prefetch (s.obj n) s.blockSize (s.blockStart b + j) j (1, 1)
        else 0))) ∧
  (∀ (s : State) (n cycles : Nat) (a : Int) (rest : List Int), (s.pathsOf n).fetching = a :: rest →
    Answers (.farFetchDone n cycles) s (fun t => (t.pathsOf n).fetching = rest ∧
      t.paths.fetchMax = max s.paths.fetchMax cycles ∧
      ∀ (p : Path) (w : Int) (u : Nat), (s.pathsOf n).sets = [{ paths := [p] }] → p.window = some w → p.units = [u] → w ≤ a →
        ∀ k : Nat, k < 16 → a + k < w + 32 →
          Map.get 0 (32 * u + (a + k - w).toNat) t.paths.prefetch = Map.get 0 ((a + k) % 32768).toNat (s.obj n).far) ∧
    Answers (.fetchLate n) s (fun t => t.fld .path Reg.Hdr.EVENTS = s.fld .path Reg.Hdr.EVENTS ||| 16 ∧
      OnlyWords s t [wordAt .path Reg.Hdr.EVENTS]))

/-- ROUTE_JOB and BUS_JOB (R177, R178, R181). -/
def Obligations.RouteAndBusJobs : Prop :=
  (∀ (s : State) (dest b r : Nat) (src : Source) (inv : Bool) (g : Int), s.granted .route (0x400 + dest) b = true →
    s.inTime b = true → Map.get 0 (2048 + dest) s.paths.jobs ≤ b → r < 2048 →
    s.route r = { on := true, src := src, toBus := false, dest := dest, gain := { last := g, from_ := g, to_ := g, inv := inv } } →
    (∀ i ∈ s.blockSamples b, s.routeAt r i = (true, src, false, dest) ∧ s.fldAt (.route r) Reg.Route.GAIN i = g ∧
      (s.fldAt (.route r) Reg.Route.CTRL_INVERT i ≠ 0 ↔ inv = true)) →
    (∀ q, q < 2048 → q ≠ r → (s.route q).on = false ∧ (s.route q).old = none ∧
      ∀ i ∈ s.blockSamples b, (s.routeAt q i).1 = false) →
    Answers (.routeJob false dest b) s (fun t => Map.get 0 (2048 + dest) t.paths.jobs = b + 1 ∧
      ∀ j, j < 64 → ∀ o, Map.get 0 (64 * o + j) t.paths.acc = Map.get 0 (64 * o + j) s.paths.acc +
        (if o = dest ∧ j < s.blockSize then
          roundShift (if inv then -(s.routeSource src (s.blockStart b + j) * g) else s.routeSource src (s.blockStart b + j) * g) 28
        else 0))) ∧
  (∀ (s : State) (n b : Nat) (inv : Bool) (g : Int), s.granted .bus (0x600 + n) b = true → s.inTime b = true →
    Map.get 0 (4096 + n) s.paths.jobs ≤ b →
    s.busEngine n = { live := true, gain := { last := g, from_ := g, to_ := g, inv := inv } } →
    (∀ i ∈ s.blockSamples b, s.busActiveAt n i = true ∧ s.fldAt (.bus n) Reg.Bus.GAIN i = g ∧
      s.fldAt (.bus n) Reg.Bus.CTRL_MUTE i = 0 ∧ (s.fldAt (.bus n) Reg.Bus.CTRL_INVERT i ≠ 0 ↔ inv = true) ∧
      s.fldAt (.bus n) Reg.Bus.EQ_SECTION_EN i = 0 ∧ s.fldAt (.bus n) Reg.Bus.DIRECT_EN i = 0) →
    Answers (.busJob n b) s (fun t => Map.get 0 (4096 + n) t.paths.jobs = b + 1 ∧
      ∀ j, j < s.blockSize → t.sample { type := 4, unit := n } (s.blockStart b + j) =
        satQ31 (roundShift ((if inv then -(Map.get 0 (64 * n + j) s.paths.busAcc) else Map.get 0 (64 * n + j) s.paths.busAcc) * g) 28)))

/-- SHAPE_PRE, CONV_HEAD, CONV_SEG, SHAPE_POST, OUTPUT_RAMP_ZERO, OUTPUT_CUTOFF (R168, R187, R192, R208). -/
def Obligations.OutputJobs : Prop :=
  (∀ (s : State) (n b : Nat) (g : Int), s.granted .shapePre (0x400 + n) b = true → s.inTime b = true →
    (s.out n).preDone ≠ b + 1 → (s.out n).live = true →
    (s.out n).gain = { last := g, from_ := g, to_ := g } → (s.out n).sections = [] → s.excites = none →
    (∀ i ∈ s.blockSamples b, s.outActiveAt n i = true ∧ s.fldAt (.out n) Reg.Out.GAIN i = g ∧
      s.fldAt (.out n) Reg.Out.CTRL_MUTE i = 0 ∧ s.fldAt (.out n) Reg.Out.CTRL_INVERT i = 0 ∧
      s.fldAt (.out n) Reg.Out.EQ_SECTION_EN i = 0 ∧ s.fldAt (.out n) Reg.Out.BM_ROLE i = 0 ∧
      s.fldAt (.out n) Reg.Out.DYN_EN i = 0) →
    Answers (.shapePreJob n b) s (fun t => (t.out n).preDone = b + 1 ∧
      ∀ j, j < s.blockSize → Map.get 0 j (t.out n).pre =
        satQ17 (roundShift (satQ17 (Map.get 0 (64 * n + j) s.paths.acc) * g) 28))) ∧
  (∀ (s : State) (n b : Nat), s.granted .convHead (0x400 + n) b = true → s.inTime b = true → (s.out n).preDone = b + 1 →
    Answers (.convHeadJob n b) s (fun t => (t.out n).corr = { (s.out n).corr with head := b + 1 } ∧
      OnlyWords { s with outs := t.outs } t [])) ∧
  (∀ (s : State) (n bank k start : Nat), ((s.out n).corr.bank bank).usable = true → 1 ≤ k →
    k ≤ spanOf ((s.out n).corr.bank bank).taps.length → ((start : Int) - 64 * n) % (64 * 2 ^ (k - 1)) = 0 →
    start ≤ (s.out n).preDone * s.blockSize →
    s.granted .convSeg (segJob n (start / s.blockSize - 1) bank k (segPieces k - 1)).flow (start / s.blockSize - 1)
      (segJob n (start / s.blockSize - 1) bank k (segPieces k - 1)).slice = true →
    Answers (.convSegJob n bank k start) s (fun t => Map.get 0 (16 * bank + k) (t.out n).corr.seg = start + 1 ∧
      OnlyWords { s with outs := t.outs } t [])) ∧
  (∀ (s : State) (n b : Nat), s.granted .shapePost (0x400 + n) b = true → s.inTime b = true → (s.out n).preDone = b + 1 →
    (s.out n).postDone ≠ b + 1 →
    (s.out n).corr.complete n b (s.blockStart b) = true → s.curtain.phase = .isOpen → s.curtain.n = 0 → s.curtain.from_ = unity →
    (s.out n).ann = {} → (s.out n).annOn = false →
    (∀ i ∈ s.blockSamples b, s.announceAt i = false) →
    Answers (.shapePostJob n b) s (fun t => (t.out n).postDone = b + 1 ∧
      ∀ j, j < s.blockSize → absNat (Map.get 0 j (t.out n).egress) ≤
        limiterCeiling (s.fldAt (.out n) Reg.Out.LIM_CEILING (s.blockStart b + j)))) ∧
  (∀ (s : State) (n z : Nat), (s.out n).falling = some z → z ≤ s.blockStart s.render.block → (s.out n).corr.fade = none →
    Answers (.outputRampZero n) s (fun t => (t.out n).falling = none ∧ (t.out n).sections = [] ∧ (t.out n).egress = [] ∧
      (t.out n).prot.dVc = (s.out n).prot.dVc ∧ (t.out n).prot.dMag = (s.out n).prot.dMag ∧
      OnlyWords { s with outs := t.outs } t [])) ∧
  (∀ (s : State), s.render.released = true →
    s.render.late = true ∨ s.render.rsi + s.blockSize / 4 < s.blockStart (s.render.block + 2) → s.sched.stalled = [] →
    Answers .outputCutoff s (OnlyWords s · [])) ∧
  (∀ (s : State) (o n : Nat), s.render.released = true → s.render.late = false →
    s.blockStart (s.render.block + 2) ≤ s.render.rsi + s.blockSize / 4 → s.sched.leadOuts = [o] → s.sched.cutOuts = [] →
    (s.out o).preDone ≠ s.render.block + 1 → n ∈ s.owing o → s.classAt n (s.blockStart s.render.block) = 2 →
    Answers .outputCutoff s (fun t => t.sched.cutOuts = [o] ∧
      t.fld .render Reg.Render.EXTRA_CUT = (s.fld .render Reg.Render.EXTRA_CUT + 1) % 2 ^ Reg.Render.EXTRA_CUT.width ∧
      (t.fld .render Reg.Hdr.EVENTS).testBit 1 = true))

/-- ENGINE_ASK and JOB_RETIRE (R375, R376). -/
def Obligations.GrantsAndRetirement : Prop :=
  (∀ (s : State) (engine left wait g : Nat), engineGroup engine = some g → (∀ v ∈ s.sched.service, v.engine ≠ engine) →
    let granted := fun (r : Ready) (t : State) =>
      t.sched.service = s.sched.service ++ [{ engine := engine, cls := r.cls, job := r.job, lead := s.sched.leadPhase }] ∧
      (∀ x ∈ t.sched.ready, x.job.flow ≠ r.job.flow) ∧
      t.fld .ringmaster Reg.Ringmaster.GRANTS = (s.fld .ringmaster Reg.Ringmaster.GRANTS + 1) % 2 ^ 32
    ((∃ r ∈ s.sched.ready, s.eligible g left r = true ∧ r.cls = 0) → Answers (.engineAsk engine left wait) s (fun t =>
      ∃ r ∈ s.sched.ready, s.eligible g left r = true ∧ r.cls = 0 ∧ granted r t)) ∧
    (∀ r, s.sched.ready = [r] → r.cls ≤ 2 → s.eligible g left r = true → Answers (.engineAsk engine left wait) s (granted r)) ∧
    ((∀ r ∈ s.sched.ready, s.eligible g left r = false) → Answers (.engineAsk engine left wait) s
      (OnlyWords { s with sched := { s.sched with stalled := s.sched.stalled.filter (· ≠ engine) ++ [engine] } } · [])) ∧
    (∀ r, r.cls = 2 → g ≠ 5 → s.sched.leadPhase = true ∨ left < r.job.kind.longest s.blockSize → s.eligible g left r = false)) ∧
  (∀ (s : State) (engine time wait run since : Nat) (v : Service), s.sched.service = [v] → v.engine = engine →
    v.job.kind = .trapeze → s.sched.trace = none → s.sched.stalled = [] → (∀ r ∈ s.sched.ready, r.job.flow ≠ v.job.flow) →
    Answers (.jobRetire engine time wait run since) s (fun t => t.sched.service = [] ∧
      Map.get 0 (engine / 16) t.sched.busy = Map.get 0 (engine / 16) s.sched.busy + run ∧
      ∃ r ∈ t.sched.ready, r.cls = v.cls ∧ r.job = { v.job with kind := .pan }))

/-- MATRIX_REQUEST and AGED (R385, R386). -/
def Obligations.MatrixRequests : Prop :=
  (∀ (s : State) (m t : Nat) (write unacked room : Bool) (waited : Nat), m < 13 → t < 12 → s.sched.waiting = [] →
    let held := (m ∈ [5, 6, 7, 8, 9] ∧ unacked = true) ∨ room = false
    let after := if s.fld .busMatrix (Reg.BusMatrix.PARK t) = m then waited else max 1 waited
    (¬ held → after < s.fld .busMatrix Reg.BusMatrix.AGE_LIMIT → Answers (.matrixRequest m t write unacked room waited) s (fun u =>
      u.sched = { s.sched with served := s.sched.served.put 0 t m } ∧
      u.fld .busMatrix (Reg.BusMatrix.WAIT_PEAK m) =
        max (s.fld .busMatrix (Reg.BusMatrix.WAIT_PEAK m)) (min after (2 ^ (Reg.BusMatrix.WAIT_PEAK m).width - 1)) ∧
      OnlyWords { s with sched := u.sched } u [wordAt .busMatrix (Reg.BusMatrix.WAIT_PEAK m)])) ∧
    (held → Answers (.matrixRequest m t write unacked room waited) s (fun u =>
      u.sched.waiting = [{ master := m, target := t, write := write, held := true }] ∧
      u.fld .busMatrix (Reg.BusMatrix.HOLD_COUNT m) =
        (s.fld .busMatrix (Reg.BusMatrix.HOLD_COUNT m) + 1) % 2 ^ (Reg.BusMatrix.HOLD_COUNT m).width))) ∧
  (∀ (s : State) (m t : Nat) (write unacked room : Bool) (waited : Nat), 13 ≤ m ∨ 12 ≤ t →
    Answers (.matrixRequest m t write unacked room waited) s (OnlyWords s · [])) ∧
  (∀ (s : State) (m t : Nat) (write held : Bool),
    s.sched.waiting = [{ master := m, target := t, write := write, held := held }] →
    Answers (.aged m t) s (fun u => u.sched.waiting = [{ master := m, target := t, write := write, held := held, aged := true }] ∧
      (u.fld .busMatrix Reg.Hdr.EVENTS).testBit 0 = true ∧
      OnlyWords { s with sched := u.sched } u [wordAt .busMatrix Reg.Hdr.EVENTS]))

/-- TRACE_START, OP_STEP, TRACE_STOP (R383, R410). -/
def Obligations.TraceCommands : Prop :=
  (∀ (s : State) (c : Cmd), Issued s c 0x50 → c.n 0 / 8 % 32 = 0 → c.n 0 / 2048 = 0 → c.n 0 / 256 % 8 ≤ 6 →
    let size := 2 ^ (20 + c.n 0 / 256 % 8)
    (s.sched.trace = none → size ≤ s.poolFree → Answers (.traceStart c.seat c.tag) s (fun t => Queued s t c ∧
      t.fld .trace Reg.Trace.STATE = 1 ∧ t.fld .trace Reg.Trace.WRPTR = 0 ∧ ∃ q, t.sched.trace = some q ∧ q.seat = c.seat ∧
      q.tag = c.tag ∧ q.ring = c.flag 0 ∧ q.classes = c.n 0 % 8 ∧ q.types = c.n 1 ∧ q.first = c.n 2 % 65536 ∧
      q.last = c.n 2 / 65536 ∧ q.size = size ∧ (Map.get ({} : Buffer) q.handle t.pool.bufs).seat = c.seat ∧
      (Map.get ({} : Buffer) q.handle t.pool.bufs).size = size)) ∧
    (s.sched.trace.isSome = true → Answers (.traceStart c.seat c.tag) s (fun t => Completes s t c Status.busy 0 0))) ∧
  (∀ (s : State) (c : Cmd) (data : List Byte), s.cmdOf c.seat c.tag = some c → c.opcode = 0x50 → c.bad = false →
    c.started = true → c.final = false → c.suspend = false → c.cancel = none → c.accepted = false → c.tag < bootTag → c.seat < 8 →
    s.serving .opStep (0x3000 + c.slot) = true →
    (s.mon.degraded.contains (c.seat, c.tag) = false → c.state ≠ .suspended → Answers (.opStep c.seat c.tag data) s (fun t =>
      (t.seat c.seat).done = (s.seat c.seat).done ++ [completionOf s c Status.ok (c.work.headD 0) 0 true] ∧
      ∃ d, t.cmdOf c.seat c.tag = some d ∧ d.state = .running ∧ d.accepted = true ∧ d.steps = c.steps + 1 ∧ d.final = false)) ∧
    (c.state = .suspended → Answers (.opStep c.seat c.tag data) s (OnlyWords s · []))) ∧
  (∀ (s : State) (c d : Cmd) (q : TraceRun), Issued s c 0x51 → s.sched.trace = some q → q.ring = true → s.sched.staged = [] →
    c.n 0 % 65536 = q.tag → q.seat = c.seat ∨ c.seat = 0 → (q.seat, q.tag) ≠ (c.seat, c.tag) → q.seat < 8 →
    s.cmdOf q.seat q.tag = some d → d.seat = q.seat → d.final = false → d.waiters = [] → d.tag < bootTag →
    Answers (.traceStop c.seat c.tag) s (fun t => t.sched.trace = none ∧ t.fld .trace Reg.Trace.STATE = 0 ∧
      completionOf s c Status.ok 0 0 false ∈ (t.seat c.seat).done ∧
      completionOf s d Status.ok q.records (if q.size / 32 ≤ q.records then s.fld .trace Reg.Trace.WRPTR else 0) false ∈
        (t.seat q.seat).done))

/-- NOP, IDENTIFY, SYNC, and house-only opcodes (R407). -/
def Obligations.ShortCommands : Prop :=
  (∀ (s : State) (c : Cmd), Issued s c 0x01 → Answers (.nop c.seat c.tag) s (fun t => Completes s t c Status.ok 0 0 ∧
    OnlyWords { s with seats := t.seats, pool := t.pool, sched := t.sched } t
      [wordAt .ringmaster Reg.Ringmaster.GRANTS, wordAt .ringmaster Reg.Ringmaster.LEAD_WAIT_PEAK])) ∧
  (∀ (s : State) (c : Cmd), Issued s c 0x02 →
    (c.n 3 = 0 → Answers (.identify c.seat c.tag) s (fun t =>
      Completes s t c Status.ok (s.deviceWord 0x40) (s.deviceWord 0x44))) ∧
    (c.n 3 ≠ 0 → c.n 3 ≠ 64 → Answers (.identify c.seat c.tag) s (fun t => Completes s t c Status.badParam 0 0))) ∧
  (∀ (s : State) (c : Cmd), Issued s c 0x03 →
    let earlier := ((s.seat c.seat).before c.tag).filter (fun d => !(s.seat c.seat).retired d)
    (earlier = [] → Answers (.sync c.seat c.tag) s (fun t => Completes s t c Status.ok 0 0)) ∧
    (earlier ≠ [] → Answers (.sync c.seat c.tag) s (fun t => (t.seat c.seat).done = (s.seat c.seat).done ∧
      t.cmdOf c.seat c.tag = some { c with started := true, work := [earlier.length] }))) ∧
  (∀ (s : State) (c : Cmd) (k : Nat), s.cmdOf c.seat c.tag = some c → c.opcode = 0x03 → c.started = true → c.final = false →
    c.waiters = [] → c.tag < bootTag → c.seat < 8 → c.work = [k] →
    (∀ d ∈ (s.seat c.seat).before c.tag, (s.seat c.seat).retired d = true) →
    Answers (.sync c.seat c.tag) s (fun t => Completes s t c Status.ok k 0)) ∧
  (∀ (s : State) (c : Cmd), c.seat ≠ 0 →
    (Issued s c 0x60 → Answers (.ownershipSet c.seat c.tag) s (fun t => Completes s t c Status.notOwner 0 0)) ∧
    (Issued s c 0x61 → c.flag 0 = false → Answers (.keySet c.seat c.tag) s (fun t => Completes s t c Status.notOwner 0 0)) ∧
    (Issued s c 0x61 → c.flag 0 = true → Answers (.keyClear c.seat c.tag) s (fun t => Completes s t c Status.notOwner 0 0)) ∧
    (Issued s c 0x10 → Answers (.layoutLoad c.seat c.tag) s (fun t => Completes s t c Status.notOwner 0 0)) ∧
    (Issued s c 0x11 → Answers (.layoutSelect c.seat c.tag) s (fun t => Completes s t c Status.notOwner 0 0)))

/-- OWNERSHIP_SET (R54, R396), KEY_SET and KEY_CLEAR (R420). -/
def Obligations.OwnershipAndKeys : Prop :=
  (∀ (s : State) (c : Cmd) (n q : Nat) (shared : Bool), Issued s c 0x60 → c.seat = 0 → s.lockPri = false → c.n 0 = 0 → c.n 1 = n →
    c.n 2 = 1 → c.n 3 = q + (if shared then 256 else 0) → q < s.model.seats →
    (n < s.model.objects → Answers (.ownershipSet c.seat c.tag) s (fun t => t.ownerOf (.obj n) = (q, shared) ∧
      Completes s t c Status.ok (if s.ownerOf (.obj n) = (q, shared) then 0 else 1) 0 ∧
      ((s.ownerOf (.obj n)).1 ≠ q → t.groupOf (.obj n) = 0 ∧ t.isPending (.obj n) = false ∧
        t.stg (.obj n) Reg.Obj.GAIN = s.fld (.obj n) Reg.Obj.GAIN ∧
        (t.fld (.seat q) Reg.Hdr.EVENTS).testBit 2 = true ∧
        (t.fld (.seat (s.ownerOf (.obj n)).1) Reg.Hdr.EVENTS).testBit 2 = true))) ∧
    (s.model.objects ≤ n → Answers (.ownershipSet c.seat c.tag) s (fun t => Completes s t c Status.absentUnit 0 0 ∧
      t.fab.recOwner = s.fab.recOwner))) ∧
  (∀ (s : State) (c : Cmd) (q : Nat), Issued s c 0x61 → c.seat = 0 → c.n 0 = q → q < s.model.seats → c.flag 0 = false →
    Answers (.keySet c.seat c.tag) s (fun t =>
      (t.seat q).sd.key = some (((c.params.drop 1).take 8).flatMap bytesOf) ∧ t.fld (.seat q) Reg.Seat.STATUS_KEY_VALID = 1 ∧
      Map.get [] q t.boot.keys = (if c.flag 1 then ((c.params.drop 1).take 8).flatMap bytesOf else Map.get [] q s.boot.keys) ∧
      Completes s t c Status.ok 0 0 ∧ (q ≠ 0 → (t.seat q).sd.session = 0))) ∧
  (∀ (s : State) (c : Cmd) (q : Nat), Issued s c 0x61 → c.seat = 0 → c.n 0 = q → q < s.model.seats → c.flag 0 = true →
    Answers (.keyClear c.seat c.tag) s (fun t => (t.seat q).sd.key = none ∧ t.fld (.seat q) Reg.Seat.STATUS_KEY_VALID = 0 ∧
      Map.get [] q t.boot.keys = [] ∧ Completes s t c Status.ok 0 0 ∧ (q ≠ 0 → (t.seat q).sd.session = 0)))

/-- OP_SUSPEND, OP_RESUME, OP_CANCEL (R412). -/
def Obligations.SuspendResumeCancel : Prop :=
  ∀ (s : State) (c : Cmd) (tag : Nat), c.n 0 = tag → tag < 65536 →
    (s.cmdOf c.seat tag = none →
      (Issued s c 0x70 → Answers (.opSuspend c.seat c.tag) s (fun t => Completes s t c Status.badParam 0 0)) ∧
      (Issued s c 0x71 → Answers (.opResume c.seat c.tag) s (fun t => Completes s t c Status.badParam 0 0)) ∧
      (Issued s c 0x72 → Answers (.opCancel c.seat c.tag) s (fun t => Completes s t c Status.badParam 0 0))) ∧
    (∀ d : Cmd, s.cmdOf c.seat tag = some d → d.seat = c.seat → tag ≠ c.tag → isLong d.opcode = true → d.final = false →
      d.waiters = [] →
      (Issued s c 0x70 →
        (d.state = .queued → Answers (.opSuspend c.seat c.tag) s (fun t =>
          t.cmdOf c.seat tag = some { d with state := .suspended, suspend := false } ∧
          (t.seat c.seat).done = (s.seat c.seat).done ++
            [completionOf s d Status.suspended 0 0 true, completionOf s c Status.ok 0 0 false])) ∧
        (d.state = .running → Answers (.opSuspend c.seat c.tag) s (fun t =>
          t.cmdOf c.seat tag = some { d with suspend := true, waiters := [(c.seat, c.tag)] } ∧
          (t.seat c.seat).done = (s.seat c.seat).done)) ∧
        (d.state = .suspended → Answers (.opSuspend c.seat c.tag) s (fun t =>
          t.cmdOf c.seat tag = some d ∧ Completes s t c Status.ok 0 0))) ∧
      (Issued s c 0x71 → d.state = .suspended → Answers (.opResume c.seat c.tag) s (fun t => Completes s t c Status.ok 0 0 ∧
          ∃ x, t.cmdOf c.seat tag = some { d with state := x, upAt := s.render.tick } ∧ (0 < d.steps → x = .running) ∧
            (d.steps = 0 → x = .queued ∨ x = .running) ∧ (d.steps = 0 → s.sched.stalled = [] → x = .queued))) ∧
      (Issued s c 0x72 →
        (d.state ≠ .running → d.opcode = 0x10 ∨ d.opcode = 0x28 ∨ d.opcode = 0x48 → Answers (.opCancel c.seat c.tag) s (fun t =>
          (t.seat c.seat).done = (s.seat c.seat).done ++
            [completionOf s d Status.cancelled 0 0 false, completionOf s c Status.ok 0 0 false])) ∧
        (d.state = .running → Answers (.opCancel c.seat c.tag) s (fun t =>
          t.cmdOf c.seat tag = some { d with cancel := some c.keep, waiters := [(c.seat, c.tag)] } ∧
          (t.seat c.seat).done = (s.seat c.seat).done))))

/-- OP_QUERY (R413). -/
def Obligations.Queries : Prop :=
  (∀ (s : State) (c d : Cmd) (tag : Nat), Issued s c 0x73 → c.n 0 = tag → tag < 65536 → s.cmdOf c.seat tag = some d → tag ≠ c.tag →
    isLong d.opcode = true → Answers (.opQueryState c.seat c.tag) s (fun t => Completes s t c Status.ok
      ((match d.state with
        | .queued => 0
        | .running => 1
        | .suspended => 2) + 256 * d.opcode + (if d.accepted then 65536 else 0)) d.steps)) ∧
  (∀ (s : State) (c : Cmd) (b : Buffer), Issued s c 0x73 → c.queryMode = 1 → s.buffer (c.n 1) = some b → b.seat = c.seat →
    (s.isStagedoor c.seat = false → c.n 2 + c.n 3 ≤ b.size → s.mon.degraded.contains (c.seat, c.tag) = false →
      Answers (.opQueryCopy c.seat c.tag) s (fun t => Completes s t c Status.ok (c.n 3) 0 ∧
        ∀ k, k < c.n 3 → Map.get 0#8 (2 ^ 64 * c.seat + (c.n 4 + 2 ^ 32 * c.n 5) + k) t.hostMem = Map.get 0#8 (c.n 2 + k) b.data)) ∧
    (s.isStagedoor c.seat = true ∨ b.size < c.n 2 + c.n 3 → Answers (.opQueryCopy c.seat c.tag) s (fun t =>
      Completes s t c Status.badParam 0 0 ∧ t.hostMem = s.hostMem))) ∧
  (∀ (s : State) (c : Cmd) (b : Buffer), Issued s c 0x73 → c.queryMode = 2 → s.buffer (c.n 1) = some b →
    (b.seat = c.seat →
      (s.bufferUsed (c.n 1) = true → Answers (.opQueryRelease c.seat c.tag) s (fun t => Completes s t c Status.busy 0 0 ∧
        t.pool.bufs = s.pool.bufs)) ∧
      (s.bufferUsed (c.n 1) = false → Answers (.opQueryRelease c.seat c.tag) s (fun t => Completes s t c Status.ok 0 0 ∧
        Map.get ({} : Buffer) (c.n 1) t.pool.bufs = {}))) ∧
    (b.seat ≠ c.seat → c.seat ≠ 0 → Answers (.opQueryRelease c.seat c.tag) s (fun t => Completes s t c Status.notOwner 0 0 ∧
      t.pool.bufs = s.pool.bufs)))

/-- MOTION_LOAD and its FREE (R112, R113). -/
def Obligations.MotionLoads : Prop :=
  (∀ (s : State) (c : Cmd) (data f : List Byte), Issued s c 0x58 → c.flag 0 = false → s.sourceFault c 1 = none →
    s.sourceBytes c 1 data = some f →
    let ws := fileWords f
    let g := (ws.length + 63) / 64
    (∀ at_, motionFault ws = none → s.motion.fit g = some at_ → Answers (.motionLoad c.seat c.tag data) s (fun t =>
      Completes s t c Status.ok (64 * at_) 0 ∧
      t.motion.regions = s.motion.regions ++ [{ base := 64 * at_, words := 64 * g, seat := c.seat }] ∧
      (∀ r ∈ s.motion.regions, ∀ k, k < g → ¬(r.base ≤ 64 * (at_ + k) ∧ 64 * (at_ + k) < r.base + r.words)) ∧
      (∀ a, Map.get 0#32 a t.motion.mem =
        if 64 * at_ ≤ a ∧ a < 64 * at_ + 64 * g then ws.getD (a - 64 * at_) 0#32 else Map.get 0#32 a s.motion.mem))) ∧
    (∀ o, motionFault ws = some o → Answers (.motionLoad c.seat c.tag data) s (fun t =>
      Completes s t c Status.badParam o 0 ∧ t.motion = s.motion)) ∧
    (motionFault ws = none → s.motion.fit g = none → Answers (.motionLoad c.seat c.tag data) s (fun t =>
      Completes s t c Status.noCapacity 0 0 ∧ t.motion = s.motion))) ∧
  (∀ (s : State) (c : Cmd) (r : Region), Issued s c 0x58 → c.flag 0 = true → s.motion.regions = [r] → c.n 0 = r.base → r.seat = c.seat →
    (s.regionUsed r = false → Answers (.motionFree c.seat c.tag) s (fun t => Completes s t c Status.ok (r.words / 64) 0 ∧
      t.motion.regions = [] ∧ t.motion.mem = s.motion.mem)) ∧
    (s.regionUsed r = true → Answers (.motionFree c.seat c.tag) s (fun t => Completes s t c Status.busy 0 0 ∧ t.motion = s.motion)))

/-- EQ_SET_LOAD (R88, R91, R188) and OBJ_BULK (R94). -/
def Obligations.EqAndBulkLoads : Prop :=
  (∀ (s : State) (c : Cmd) (data f : List Byte) (first count : Nat) (out : Bool), Issued s c 0x22 → s.sourceFault c 1 = none →
    s.sourceBytes c 1 data = some f → c.n 0 = first + 65536 * count + (if out then 2 ^ 31 else 0) →
    let per := if out then 80 else 40
    let store := fun (s : State) => if out then s.outEq else s.motion.eqStore
    let other := fun (s : State) => if out then s.motion.eqStore else s.outEq
    0 < count → count < 4096 → first + count ≤ (if out then 1024 else 4096) → f.length = 4 * per * count →
    (0 < first → (∀ k, k < count → s.eqSetUsed out (first + k) = false) → Answers (.eqSetLoad c.seat c.tag data) s (fun t =>
      Completes s t c Status.ok count 0 ∧ other t = other s ∧
      ∀ w, Map.get 0#32 w (store t) = if per * first ≤ w ∧ w < per * (first + count) then
        (fileWords f).getD (w - per * first) 0#32 else Map.get 0#32 w (store s))) ∧
    (first = 0 ∨ (∃ k, k < count ∧ s.eqSetUsed out (first + k) = true) → Answers (.eqSetLoad c.seat c.tag data) s (fun t =>
      Completes s t c Status.busy 0 0 ∧ store t = store s ∧ other t = other s))) ∧
  (∀ (s : State) (c : Cmd) (n : Nat), Issued s c 0x18 → c.flag 1 = false → c.n 0 = n + 65536 → n < 1024 → c.n 1 = 1 →
    (n < s.model.objects → s.owns c.seat (.obj n) = true → s.bit (.objPage (n / 8)) Reg.Hdr.LOCK = false →
      s.groupOf (.obj n) ≠ 0xFF → Answers (.objBulk c.seat c.tag []) s (fun t => Completes s t c Status.ok 1 0 ∧
        t.stg (.obj n) Reg.Obj.GAIN = c.n 2 ∧ t.isPending (.obj n) = true ∧
        SameWords s t [wordAt .ringmaster Reg.Ringmaster.GRANTS, wordAt .ringmaster Reg.Ringmaster.LEAD_WAIT_PEAK])) ∧
    (n < s.model.objects → s.owns c.seat (.obj n) = false → Answers (.objBulk c.seat c.tag []) s (fun t =>
      Completes s t c Status.notOwner 0 0 ∧ t.fab.stg = s.fab.stg)) ∧
    (s.model.objects ≤ n → Answers (.objBulk c.seat c.tag []) s (fun t =>
      Completes s t c Status.absentUnit 0 0 ∧ t.fab.stg = s.fab.stg)))

/-- LAYOUT_LOAD, HRIR_LOAD, LAYOUT_SELECT, ARMED (R131, R132, R198). -/
def Obligations.LayoutAndHrirLoads : Prop :=
  (∀ (s : State) (c : Cmd), s.sourceFault c 1 = none → c.n 4 ≤ s.poolFree →
    (Issued s c 0x10 → c.seat = 0 → c.n 0 < 4 →
      (s.slotHeld (c.n 0) = false → Answers (.layoutLoad c.seat c.tag) s (fun t => Queued s t c ∧
        t.pool.taken = (c.seat, c.tag, c.n 4) :: s.pool.taken)) ∧
      (s.slotHeld (c.n 0) = true → Answers (.layoutLoad c.seat c.tag) s (fun t => Completes s t c Status.busy 0 0))) ∧
    (Issued s c 0x28 → c.n 0 < 2 → s.model.monitor = true → s.owns c.seat .monitor = true →
      let named := s.fld .monitor Reg.Monitor.CTRL_HRIR_SEL = c.n 0 ∨ s.stg .monitor Reg.Monitor.CTRL_HRIR_SEL = c.n 0
      (¬ named → Answers (.hrirLoad c.seat c.tag) s (fun t => Queued s t c ∧
        t.pool.taken = (c.seat, c.tag, c.n 4) :: s.pool.taken)) ∧
      (named → Answers (.hrirLoad c.seat c.tag) s (fun t => Completes s t c Status.busy 0 0)))) ∧
  (∀ (s : State) (c : Cmd), Issued s c 0x11 → c.seat = 0 → c.n 0 < 4 → s.layouts.slots.any (·.1 = c.n 0) = true →
    c.flag 0 = false → s.layouts.converting = false → s.layouts.old = none → s.selCommit = false → s.layouts.arming = none →
    (s.layouts.active.any (·.1 = c.n 0) = false → Answers (.layoutSelect c.seat c.tag) s (fun t =>
      t.layouts = { s.layouts with armed := s.layouts.armed.filter (·.1 = c.n 0)
                                   arming := some (c.n 0, false, c.seat, c.sq, c.tag) } ∧
      (t.seat c.seat).done = (s.seat c.seat).done)) ∧
    (s.layouts.active.any (·.1 = c.n 0) = true → Answers (.layoutSelect c.seat c.tag) s (fun t =>
      t.layouts = s.layouts ∧ Completes s t c Status.ok 0 0))) ∧
  (∀ (s : State) (c : Cmd) (k : Nat), k < 4 → s.layouts.arming = some (k, false, c.seat, c.sq, c.tag) →
    s.cmdOf c.seat c.tag = some c → c.final = false → c.waiters = [] → c.tag < bootTag → c.seat < 8 → c.sq < 4 →
    Answers .armed s (fun t => t.layouts.arming = none ∧
      t.layouts.armed = some (k, Map.get ({} : Layout) k s.layouts.slots) ∧
      t.fld .layout Reg.Layout.STATUS_ARMED_SLOT = k ∧ t.fld .layout Reg.Layout.STATUS_ARMED = 1 ∧
      (t.fld .layout Reg.Hdr.EVENTS).testBit 0 = true ∧ Completes s t c Status.ok 0 0))

/-- Correction warming and swaps (R222, R223, R225), FILTER_LOAD (R219), fade ends (R135, R183). -/
def Obligations.FiltersAndFadeEnds : Prop :=
  (∀ (s : State) (n : Nat) (on : Bool), Answers (.corrWarm n on) s (fun t =>
    t.fld (.out n) Reg.Out.CORR_WARM =
      (if on = true ∧ s.fld (.out n) Reg.Out.CORR_POLICY = 1 ∧ s.outActive n = true then 1 else 0) ∧
    OnlyWords { s with fab := { s.fab with stg := t.fab.stg } } t [wordAt (.out n) Reg.Out.CORR_WARM])) ∧
  (∀ (s : State) (n k i0 : Nat), k < 2 → (s.out n).corr.warming = some (k, i0) → ((s.out n).corr.bank k).state = 2 →
    i0 ≤ s.render.rsi → s.render.rsi % s.blockSize = 0 →
    (∀ j, j < spanOf ((s.out n).corr.bank k).taps.length → i0 < Map.get 0 (16 * k + (j + 1)) (s.out n).corr.seg) →
    Answers (.bankWarm n) s (fun t =>
      (t.out n).corr = { (s.out n).corr.setBank k { (s.out n).corr.bank k with state := 3 } with warming := none } ∧
      t.fld (.out n) (if k = 0 then Reg.Out.STATUS_BANK0 else Reg.Out.STATUS_BANK1) = 3 ∧ ∀ m, m ≠ n → t.out m = s.out m)) ∧
  (∀ (s : State) (n : Nat) (f : CorrFade), (s.out n).corr.fade = some f → f.start + f.n ≤ (s.out n).postDone * s.blockSize →
    Answers (.swapped n) s (fun t => (t.out n).corr.fade = none ∧ (t.out n).corr.live = (s.out n).corr.live ∧
      (∀ k, k < 2 → ((t.out n).corr.bank k).state =
        (if ((s.out n).corr.bank k).state = 3 then 2 else ((s.out n).corr.bank k).state)) ∧
      t.fld (.out n) Reg.Out.CORR_WARM = 0 ∧ t.fld (.out n) Reg.Out.STATUS_FADING = 0 ∧
      t.fld .correct Reg.Hdr.EVENTS = s.fld .correct Reg.Hdr.EVENTS ||| 2)) ∧
  (∀ (s : State) (c : Cmd), Issued s c 0x20 → s.sourceFault c 0 = none → c.n 3 ≤ s.poolFree →
    Answers (.filterLoad c.seat c.tag) s (fun t => Queued s t c ∧ t.pool.taken = (c.seat, c.tag, c.n 3) :: s.pool.taken)) ∧
  (∀ (s : State) (c : Cmd) (n : Nat), Issued s c 0x21 → c.n 0 = n + 65536 → n < s.model.outputs → n < s.nowOutputs → c.n 1 < 3 →
    s.owns c.seat (.out n) = true → s.groupOf (.out n) < 32 →
    s.fld .update (Reg.Update.UG_CFG_KIND (s.groupOf (.out n))) = 1 →
    (s.swapWarms n (c.n 1) = true → Answers (.filterSwap c.seat c.tag) s (fun t =>
      t.fld (.out n) Reg.Out.CORR_WARM = 1 ∧ (t.seat c.seat).done = (s.seat c.seat).done ∧
      t.cmdOf c.seat c.tag = some { c with started := true })) ∧
    (s.swapWarms n (c.n 1) = false → Answers (.filterSwap c.seat c.tag) s (fun t =>
      t.stg (.out n) Reg.Out.CORR_SEL = c.n 1 ∧ ∃ serial, Completes s t c Status.ok 1 serial))) ∧
  (∀ (s : State) (n : Nat), Answers (.pathSetFadeEnd n) s (fun t =>
    let kept := liveSets (s.blockStart s.render.block) (s.pathsOf n).sets
    (t.pathsOf n).sets.map (fun q => (q.fadeIn, q.fadeOut, q.endAt, q.paths.length)) =
      kept.map (fun q => (q.fadeIn, q.fadeOut, q.endAt, q.paths.length)) ∧ ∀ m, m ≠ n → t.pathsOf m = s.pathsOf m)) ∧
  (∀ (s : State) (r : Nat) (o : RouteOld), (s.route r).old = some o → o.start + o.n ≤ s.blockStart s.render.block →
    Answers (.routeFadeEnd r) s (fun t => t.route r = { s.route r with old := none } ∧ (∀ q, q ≠ r → t.route q = s.route q) ∧
      t.fld (.route r) Reg.Route.STATE_FADING = 0 ∧
      OnlyWords { s with routes := t.routes } t [wordAt (.route r) Reg.Route.STATE_FADING]))

/-- The safety curtain (R199 to R205): each command answers a next state; a cause that appears makes a closing due, which
begins at the next release whether it is still present or not. -/
def Obligations.SafetyCurtain : Prop :=
  (∀ (s : State) (low : Bool), Answers (.emgmuteChange low) s (OnlyWords { s with
    curtain := if s.curtain.raw = low then s.curtain else { s.curtain with raw := low, rawAt := s.render.tick } } · [])) ∧
  (∀ s : State,
    let kept := 100 * s.fs ≤ (s.render.tick + 1 - s.curtain.rawAt) * 1000000
    let after := fun (c : Curtain) (v : Nat) =>
      if v ≠ 0 then { c with clearedAt := none, openAt := none, due := c.due || c.phase = .isOpen || c.phase = .opening }
      else if s.causes ≠ 0 then { c with clearedAt := some s.render.tick } else c
    let takes := fun (c : Curtain) (v : Nat) (t : State) => t.causes = v ∧ t.curtain = after c v ∧
      t.fld .curtain Reg.Hdr.EVENTS = (if v ≠ 0 ∧ s.curtain.canClose = true then s.fld .curtain Reg.Hdr.EVENTS ||| 1
        else s.fld .curtain Reg.Hdr.EVENTS) ∧
      OnlyWords { s with curtain := t.curtain } t [wordAt .curtain Reg.Curtain.STATUS_CAUSE, wordAt .curtain Reg.Hdr.EVENTS]
    (¬ kept → Answers .pinCause s (OnlyWords s · [])) ∧
    (s.lockPri = false → s.lockUnd = false →
      (kept → Answers .pinCause s (takes { s.curtain with pin := s.curtain.raw }
        ((if s.curtain.raw = true ∧ s.bit .curtain Reg.Curtain.CTRL_PIN_EN = true then 1 else 0) +
          (if s.curtain.therm = true ∧ s.bit .curtain Reg.Curtain.CTRL_THERM_EN = true then 2 else 0) + 4 * (s.causes / 4)))) ∧
      Answers .close s (takes s.curtain (s.causes ||| 4)) ∧
      (s.causes &&& 11 ≠ 0 → Answers .releaseWrite s (fun t =>
        t.fld .curtain Reg.Hdr.EVENTS = s.fld .curtain Reg.Hdr.EVENTS ||| 4 ∧
        OnlyWords s t [wordAt .curtain Reg.Hdr.EVENTS])) ∧
      (s.causes &&& 11 = 0 → Answers .releaseWrite s (fun t => t.causes = 0 ∧
        t.curtain = (if s.curtain.canClose = true then after s.curtain 0
          else { after s.curtain 0 with openAt := s.curtain.openAt <|> some 0 }) ∧
        OnlyWords { s with curtain := t.curtain } t [wordAt .curtain Reg.Curtain.STATUS_CAUSE]))) ∧
    (∀ (present : Bool) (named : Option Nat), s.lockPri = false → Answers (.peerCurtainReport present named) s (fun t =>
      let v := (s.causes &&& 7) + (if present then 8 else 0)
      t.causes = v ∧ t.curtain = { after s.curtain v with
        named := if (after s.curtain v).due = true then named <|> s.curtain.named else none } ∧
      OnlyWords { s with curtain := t.curtain } t
        [wordAt .curtain Reg.Curtain.STATUS_CAUSE, wordAt .curtain Reg.Hdr.EVENTS]))) ∧
  (∀ (s : State) (at_ : Nat), s.curtain.clearedAt = some at_ → s.bit .curtain Reg.Curtain.CTRL_AUTO_RELEASE = true → s.causes = 0 →
    at_ + s.fs ≤ s.render.tick → s.curtain.canClose = false → s.lockPri = false →
    (s.lockUnd = false → Answers .autoRelease s
      (OnlyWords { s with curtain := { s.curtain with openAt := s.curtain.openAt <|> some 0 } } · [])) ∧
    (s.lockUnd = true → Answers .autoRelease s (OnlyWords s · []))) ∧
  (∀ s : State, s.curtain.phase = .closing → s.curtain.gainAt s.lastReleased = 0 → Answers .curtainClosed s (fun t =>
    t.fld .curtain Reg.Curtain.STATUS_STATE = 2 ∧
    OnlyWords { s with curtain := { s.curtain with phase := .closed } } t [])) ∧
  (∀ s : State, s.curtain.phase = .opening → s.curtain.due = false → s.curtain.gainAt s.lastReleased = unity →
    Answers .opened s (fun t =>
      t.fld .curtain Reg.Curtain.STATUS_STATE = 0 ∧ t.fld .curtain Reg.Hdr.EVENTS = s.fld .curtain Reg.Hdr.EVENTS ||| 2 ∧
      OnlyWords { s with curtain := { s.curtain with phase := .isOpen } } t [wordAt .curtain Reg.Hdr.EVENTS]))

/-- Capture chains (R230 to R243) and CAPTURE_TO_MEMORY (R244, R245): each command answers a next state. The rounding of the
gain product is open (log entry 7). -/
def Obligations.CaptureChains : Prop :=
  (∀ (s : State) (c : Nat) (pin : List (Bool × Bool)) (aux : List (List Int)) (x : Int), c < 48 → chainPresent s.model c = true →
    s.chainClocked c = true → (s.chain c).phase = .settled → (s.chain c).stuck = false → (s.chain c).measure = 0 →
    s.renderRate c = true → s.fld .capture (Reg.Capture.CH_CTRL_DCB c) = 2 → s.lockUnd = false →
    let e := s.chain c
    let n := periods e.cfg.scm e.cfg.r e.cfg.hb
    let out := e.stages.run e.cfg e.linear (s.chainBits c n pin aux).1
    out.2 = some x → Answers (.chainOutputSample c pin aux) s (fun t =>
      let g := roundOpen (x * s.fld .capture (Reg.Capture.CH_GAIN c)) (2 ^ (28 + Config.chainGuard))
      t.sample { type := 6, unit := c } s.render.rsi = satQ31 g ∧ (t.chain c).stages = out.1 ∧ (t.chain c).valid = true ∧
      t.fld .capture (Reg.Capture.CH_STATUS_VALID c) = 1 ∧
      (overRun out.1.bits n = true → (t.fld .capture (Reg.Capture.CH_EVT_FLAGS c)).testBit 0 = true) ∧
      (g ≠ satQ31 g → (t.fld .capture (Reg.Capture.CH_EVT_FLAGS c)).testBit 1 = true))) ∧
  (∀ (s : State) (c : Nat) (pin : List (Bool × Bool)) (aux : List (List Int)) (on : Bool),
    s.chainClocked c = false ∨ (s.chain c).phase = .off →
    Answers (.chainOutputSample c pin aux) s (OnlyWords s · []) ∧ Answers (.stuck c on) s (OnlyWords s · [])) ∧
  (∀ (s : State) (c : Nat) (on : Bool), c < 56 → (s.chain c).phase ≠ .off → s.chainClocked c = true → Answers (.stuck c on) s (fun t =>
    t.chain c = { s.chain c with stuck := on } ∧
    t.fld .capture (Reg.Capture.CH_STATUS_VALID c) = (if (s.chain c).phase = .settled ∧ on = false then 1 else 0) ∧
    (on = true → (s.chain c).stuck = false → (t.fld .capture (Reg.Capture.CH_EVT_FLAGS c)).testBit 2 = true))) ∧
  (∀ (s : State) (c : Nat), s.scMode c = true → (s.chain c).phase ≠ .off → Answers (.scanSwitch c) s (fun t =>
    let len := s.fld .capture (Reg.Capture.CH_SCAN_LEN c)
    t.chain c = { s.chain c with scan := ((s.chain c).scan + 1) % (if len = 0 then 8 else len), integrators := (0, 0) } ∧
    OnlyWords { s with chains := t.chains } t [])) ∧
  (∀ (s : State) (c st : Nat), c < 56 → (s.chain c).phase = .up st → st + s.ms ≤ s.render.rsi + 1 → Answers (.switched c) s (fun t =>
    t.chain c = { s.chain c with phase := .settled } ∧ t.fld .capture (Reg.Capture.CH_STATUS_SWITCHING c) = 0 ∧
    (t.fld .capture (Reg.Capture.CH_EVT_FLAGS c)).testBit 3 = true)) ∧
  (∀ s : State, Answers .serviceDone s (fun t => t.fld .capture Reg.Capture.SERVICE_STATE = 0 ∧
    (s.fld .capture Reg.Capture.SERVICE_STATE ≠ 0 →
      t.fld .capture Reg.Hdr.EVENTS = s.fld .capture Reg.Hdr.EVENTS ||| 2) ∧
    OnlyWords { s with measure := { s.measure with startup := false, recovery := false } } t
      [wordAt .capture Reg.Capture.SERVICE_STATE, wordAt .capture Reg.Hdr.EVENTS])) ∧
  (∀ (s : State) (c : Cmd), Issued s c 0x38 → let mask := c.n 0 + 2 ^ 32 * c.n 1
    0 < mask → mask < 2 ^ 56 → (chainsOf mask).length ≤ 16 → c.n 2 ≠ 0 →
    (s.measure.c2m.length < 4 → s.chainsFault mask false = none → c.n 2 ≤ s.poolFree → c.flag 1 = false →
      Answers (.captureToMemory c.seat c.tag) s (fun t => ∃ q : C2m, t.measure.c2m = s.measure.c2m ++ [q] ∧
        q.mask = mask ∧ q.size = c.n 2 ∧ q.on = false ∧ q.seat = c.seat ∧ q.tag = c.tag ∧
        t.buffer q.handle = some { seat := c.seat, size := c.n 2 } ∧
        t.fld .capture Reg.Capture.C2M_ACTIVE = s.measure.c2m.length + 1)) ∧
    (4 ≤ s.measure.c2m.length → Answers (.captureToMemory c.seat c.tag) s (fun t =>
      Completes s t c Status.busy 0 0 ∧ t.measure = s.measure))) ∧
  (∀ (s : State) (q : C2m), s.measure.c2m = [q] → q.on = false → q.measure = false →
    q.start = some s.render.rsi ∨ (q.start.getD 0 ≤ s.render.rsi ∧ s.render.rsi % s.blockSize = 0) →
    Answers (.c2mStart q.seat q.tag) s
      (OnlyWords { s with measure := { s.measure with c2m := [{ q with on := true, from_ := s.render.rsi }] } } · [])) ∧
  (∀ (s : State) (c : Cmd) (q : C2m), s.measure.c2m = [q] → q.seat = c.seat → q.tag = c.tag → q.measure = false → q.ring = false →
    q.pos = q.size → s.cmdOf c.seat c.tag = some c → c.cancel = none → c.final = false → c.waiters = [] → c.tag < bootTag →
    c.seat < 8 → c.sq < 4 → Answers (.c2mDone c.seat c.tag) s (fun t => t.measure.c2m = [] ∧
      Completes s t c Status.ok q.pos q.handle ∧ t.fld .capture Reg.Capture.C2M_ACTIVE = 0 ∧
      t.fld .capture Reg.Hdr.EVENTS = s.fld .capture Reg.Hdr.EVENTS ||| 4))

/-- Campaigns (R247 to R255): each command answers a next state. -/
def Obligations.Campaigns : Prop :=
  (∀ (s : State) (c : Cmd), Issued s c 0x30 →
    (s.campaignThere = false → s.measure.probe = none → s.sourceFault c 0 = none → c.n 3 ≤ s.poolFree →
      Answers (.campaignStart c.seat c.tag) s (fun t => Queued s t c ∧ t.measure = s.measure)) ∧
    (s.campaignThere = true ∨ s.measure.probe ≠ none →
      Answers (.campaignStart c.seat c.tag) s (fun t => Completes s t c Status.busy 0 0 ∧ t.measure = s.measure))) ∧
  (∀ (s : State) (q : Campaign) (st : Nat), s.measure.campaign = some q → q.phase = .measure → q.stepStart = some st →
    st + q.desc.playEnd s.rateMul q.playBase q.play ≤ s.render.rsi → q.play + 1 < q.desc.averages →
    Answers .playEnd s (fun t => t.measure = { s.measure with campaign := some { q with
        play := q.play + 1, plays := q.plays ++ [q.play - q.playBase], clipped := q.clipped ||| q.runClipped, runClipped := 0 } } ∧
      t.fld .measure Reg.Measure.NOW_PLAY = (q.play + 1) % 2 ^ Reg.Measure.NOW_PLAY.width ∧
      t.pool = s.pool ∧ t.seats = s.seats)) ∧
  (∀ (s : State) (q : Campaign) (i t0 : Nat), s.measure.campaign = some q → q.decon = some (i, t0) →
    Answers .deconvolutionDone s (fun t => t.measure = { s.measure with campaign := some { q with
        decon := none, deconPlays := [], deconCapture := [], deconClipped := 0, deconStuck := 0, deconInactive := false
        due := some i } } ∧
      t.seats = s.seats ∧ ∀ h, h ≠ q.buffer → t.buffer h = s.buffer h)) ∧
  (∀ (s : State) (q : Campaign) (i : Nat), s.measure.campaign = some q → q.phase ≠ .ended → q.due = some i →
    Answers .journalWrite s (fun t => t.measure.campaign = some { q with stepDone := i + 1, due := none } ∧
      (∃ j, t.measure.journal = some j ∧ j.stepDone = i + 1 ∧ j.handle = q.handle ∧ j.buffer = q.buffer ∧
        j.seq = (s.measure.journal.map (·.seq)).getD 0 + 1) ∧
      t.fld .measure Reg.Measure.STEP_DONE = (i + 1) % 2 ^ Reg.Measure.STEP_DONE.width ∧
      t.fld .measure Reg.Hdr.EVENTS = s.fld .measure Reg.Hdr.EVENTS ||| 1)) ∧
  (∀ (s : State) (c : Cmd), Issued s c 0x31 →
    (∀ q, s.measure.campaign = some q → q.phase = .held → q.handle = c.n 0 → q.seat = c.seat → s.measure.journal ≠ none →
      (c.flag 0 = false → s.measure.probe = none → q.rate = s.fld .render Reg.Render.CFG_RATE →
        Answers (.campaignResume c.seat c.tag) s (fun t => Queued s t c ∧ t.measure = s.measure)) ∧
      (c.flag 0 = true → Answers (.campaignDiscard c.seat c.tag) s (fun t => t.measure.campaign = none ∧
        t.measure.journal = none ∧ Map.get ({} : Buffer) q.buffer t.pool.bufs = {} ∧ Completes s t c Status.ok 0 0))) ∧
    (s.measure.campaign = none ∨ s.measure.journal = none →
      (c.flag 0 = false → Answers (.campaignResume c.seat c.tag) s (fun t => Completes s t c Status.journalInvalid 0 0)) ∧
      (c.flag 0 = true → Answers (.campaignDiscard c.seat c.tag) s (fun t => Completes s t c Status.journalInvalid 0 0 ∧
        t.measure = s.measure))))

/-- Probes (R256 to R258): each command answers a next state. -/
def Obligations.Probes : Prop :=
  (∀ (s : State) (c : Cmd), Issued s c 0x32 →
    (s.campaignThere = false → s.measure.probe = none → s.sourceFault c 0 = none → c.n 3 ≤ s.poolFree →
      Answers (.probeStart c.seat c.tag) s (fun t => Queued s t c ∧ t.measure = s.measure)) ∧
    (s.campaignThere = true ∨ s.measure.probe ≠ none →
      Answers (.probeStart c.seat c.tag) s (fun t => Completes s t c Status.busy 0 0 ∧ t.measure = s.measure))) ∧
  (∀ (s : State) (p : Probe) (st : Nat) (c : Cmd), s.measure.probe = some p → p.start = some st →
    s.cmdOf p.seat p.tag = some c → c.state = .running →
    let first := st + 4096 * p.index
    first + 8192 ≤ s.blockStart s.render.block →
    Answers .probeFrame s (fun t =>
      let oks := (List.range p.outs.length).filter (fun o => decide (p.badUntil ≤ first) && p.loud o first)
      t.fld .measure Reg.Measure.FRAMES_USED = (s.fld .measure Reg.Measure.FRAMES_USED + oks.length) % 2 ^ 32 ∧
      t.fld .measure Reg.Measure.FRAMES_SKIPPED =
        (s.fld .measure Reg.Measure.FRAMES_SKIPPED + (p.outs.length - oks.length)) % 2 ^ 32 ∧
      (∃ u, t.measure.probe = some u ∧ u.index = p.index + 1 ∧ u.reports = p.reports ∧
        u.since = (if oks = [] then p.since else p.since + 1)) ∧
      OnlyWords { s with measure := t.measure } t
        [wordAt .measure Reg.Measure.FRAMES_USED, wordAt .measure Reg.Measure.FRAMES_SKIPPED])) ∧
  (∀ (s : State) (p : Probe), s.measure.probe = some p → p.report ≤ p.since →
    (∀ c, s.cmdOf p.seat p.tag = some c → c.cancel = none) →
    Answers .probeReport s (fun t => t.measure.probe = some { p with since := 0, reports := p.reports + 1 } ∧
      t.fld .measure Reg.Hdr.EVENTS = s.fld .measure Reg.Hdr.EVENTS ||| 8)) ∧
  (∀ (s : State) (c : Cmd), Issued s c 0x33 →
    (∀ (p : Probe) (d : Cmd), s.measure.probe = some p → p.seat = c.seat → p.tag = c.n 0 → s.cmdOf c.seat p.tag = some d →
      d.seat = c.seat → d.final = false → d.waiters = [] → p.tag < bootTag → p.tag ≠ c.tag → d.sq < 4 →
      Answers (.probeStop c.seat c.tag) s (fun t => t.measure.probe = none ∧
        (t.seat c.seat).done = (s.seat c.seat).done ++
          [completionOf s d Status.ok (p.reports + 1) 0 false, completionOf s c Status.ok 0 0 false])) ∧
    (s.measure.probe = none → Answers (.probeStop c.seat c.tag) s (fun t => Completes s t c Status.badParam 0 0)))

/-- Local channels and the thermal copy (R268, R274 to R288): each command answers a next state. -/
def Obligations.LocalChannels : Prop :=
  (∀ s : State, Map.wf ({} : OutEngine) s.outs = true → Answers .thermalPersist s (fun t =>
    (∀ n, let q := (s.out n).prot
      Map.get ({} : ThermalCopy) n t.thermals = { dVc := q.dVc, dMag := q.dMag, atten := q.atten, therm := q.therm }) ∧
    OnlyWords { s with thermals := t.thermals } t [])) ∧
  (∀ (s : State) (k : Nat), k < s.model.pss → k < 16 → s.lockPri = false → s.lockUnd = false →
    let e := s.psOf k
    let latched := fun (t : State) (cause : Nat) => (t.psOf k).switching = false ∧ (t.psOf k).legs = [] ∧
      (t.psOf k).state = (if s.bit (.ps k) Reg.Ps.RETRY_EN = true ∧
        s.fld (.ps k) Reg.Ps.ATTEMPTS < s.fld (.ps k) Reg.Ps.RETRY_MAX then .retryWait else .latched) ∧
      t.fld (.ps k) Reg.Ps.STATE = (t.psOf k).state.code ∧ t.fld (.ps k) Reg.Ps.LATCH_CAUSE = cause ∧
      t.fld (.ps k) Reg.Ps.LATCHED_AT_LO = (s.render.rsi + 1) % 2 ^ 32 ∧ (t.fld (.ps k) Reg.Hdr.EVENTS).testBit 0 = true
    (∀ i : Int, s.fld (.ps k) Reg.Ps.ILIM < absNat i * 1024 → e.switching = true → e.limitNow = false →
      let n := s.fld (.ps k) Reg.Ps.CONSEC + 1
      (n < 32 → Answers (.limitAction k i) s (fun t => t.psOf k = { e with limitNow := true, freewheel := true } ∧
        t.fld (.ps k) Reg.Ps.CONSEC = n ∧ t.fld (.ps k) Reg.Ps.LIMITING = 1 ∧
        t.fld (.ps k) Reg.Ps.LIMIT_COUNT = (s.fld (.ps k) Reg.Ps.LIMIT_COUNT + 1) % 2 ^ 32 ∧
        (t.fld (.ps k) Reg.Hdr.EVENTS).testBit 1 = true)) ∧
      (32 ≤ n → Answers (.limitAction k i) s (fun t => latched t 1))) ∧
    (∀ i : Int, absNat i * 1024 ≤ s.fld (.ps k) Reg.Ps.ILIM → Answers (.limitAction k i) s
      (OnlyWords s · [wordAt (.ps k) Reg.Ps.I_PEAK])) ∧
    (∀ low : Bool, e.switching = false → Answers (.faultPinLow k low) s (fun t => t.psOf k = { e with faultPin := low } ∧
      t.fld (.ps k) Reg.Ps.FAULT_PIN = (if low then 1 else 0))) ∧
    (e.switching = true → e.limitNow = false → 31 ≤ s.fld (.ps k) Reg.Ps.CONSEC →
      Answers (.faultPinLow k true) s (fun t => latched t 2)) ∧
    (∀ on : Bool, on = false ∨ e.runs = false → Answers (.stuckSense k on) s (fun t => t.psOf k = { e with stuck := on })) ∧
    (e.runs = true → Answers (.stuckSense k true) s (fun t => latched t 3 ∧ (t.fld (.ps k) Reg.Hdr.EVENTS).testBit 3 = true)) ∧
    (∀ c peak : Nat, e.switching = false → e.start = false → Answers (.carrierPeriodEnd k c peak) s (fun t =>
      t.psOf k = { e with limitNow := false, freewheel := false, gates := [] } ∧ t.fld (.ps k) Reg.Ps.LIMITING = (if e.limitNow then 1 else 0) ∧
      t.fld (.ps k) Reg.Ps.CONSEC = (if e.limitNow then s.fld (.ps k) Reg.Ps.CONSEC else 0))) ∧
    (∀ c peak : Nat, e.start = true → e.runs = true → e.faultPin = false → Answers (.carrierPeriodEnd k c peak) s (fun t =>
      (t.psOf k).switching = true ∧ (t.psOf k).start = false ∧ (t.psOf k).legs.length = 4 ∧ (t.psOf k).gates.length = 8)) ∧
    (e.state = .latched ∨ e.state = .retryWait → s.mayRecover k = true → Answers (.recover k) s (fun t =>
      (t.psOf k).state = .recovering ∧ (t.psOf k).start = true ∧ t.fld (.ps k) Reg.Ps.STATE = 4 ∧
      t.fld (.ps k) Reg.Ps.ATTEMPTS = 0)) ∧
    (e.state = .off ∨ e.state = .running ∨ s.mayRecover k = false → Answers (.recover k) s (fun t => t.ps = s.ps ∧
      (t.fld (.ps k) Reg.Hdr.EVENTS).testBit 6 = true)) ∧
    (e.state = .retryWait → e.waitEnd ≤ s.render.tick → s.mayRecover k = true → Answers (.retryWaitEnd k) s (fun t =>
      (t.psOf k).state = .recovering ∧ t.fld (.ps k) Reg.Ps.ATTEMPTS =
        min (s.fld (.ps k) Reg.Ps.ATTEMPTS + 1) (2 ^ Reg.Ps.ATTEMPTS.width - 1))) ∧
    (e.state = .recovering → e.feeding = true → e.feed.start + e.feed.n ≤ s.render.rsi + 1 → Answers (.recovered k) s (fun t =>
      t.psOf k = { e with state := .running, cleanFrom := some s.render.tick } ∧ t.fld (.ps k) Reg.Ps.STATE = 1 ∧
      (t.fld (.ps k) Reg.Hdr.EVENTS).testBit 5 = true ∧ (t.chain (16 + k)).psRecovery = false ∧
      (t.chain (32 + k)).psRecovery = false)) ∧
    (∀ at_ : Nat, e.cleanFrom = some at_ → e.state = .running → at_ + 60 * s.second ≤ s.render.tick →
      Answers (.attemptsClear k) s (fun t => t.fld (.ps k) Reg.Ps.ATTEMPTS = 0 ∧
        OnlyWords s t [wordAt (.ps k) Reg.Ps.ATTEMPTS])) ∧
    (e.window = none → ∀ re im : Int, Answers (.resistanceWindow k re im) s (OnlyWords s · [])) ∧
    (∀ (d : Demod) (re im : Int), e.window = some d →
      let z := d.impedance (s.fld (.ps k) Reg.Ps.VSNS_SCALE) (s.fld (.ps k) Reg.Ps.ISNS_SCALE)
      let r := openPart z.1 z.2.2 re
      let x := openPart z.2.1 z.2.2 im
      let re0 : Int := s.fld .protect (Reg.Protect.P_RE0 (s.fld (.out (s.psSource k)) Reg.Out.PROT_PROFILE))
      let accepted := 0 < z.2.2 ∧ 4 * (absNat x : Int) ≤ r ∧ re0 ≤ 2 * r ∧ r ≤ 3 * re0
      (s.closedLoop k = true → accepted → Answers (.resistanceWindow k re im) s (fun t =>
          t.fld (.ps k) Reg.Ps.R_COIL = min r.toNat 0xFFFF ∧ t.fld (.ps k) Reg.Ps.R_VALID = 1 ∧ (t.psOf k).window = none ∧
          (t.psOf k).rAt = some s.render.tick ∧ (t.out (s.psSource k)).prot.measuredAt = some s.render.tick)) ∧
      (s.closedLoop k = false ∨ ¬ accepted → Answers (.resistanceWindow k re im) s (fun t =>
          t.psOf k = { e with window := none } ∧ t.outs = s.outs ∧
          t.fld (.ps k) Reg.Ps.R_COIL = s.fld (.ps k) Reg.Ps.R_COIL ∧
          t.fld (.ps k) Reg.Ps.R_VALID = s.fld (.ps k) Reg.Ps.R_VALID))))

/-- TDM and AES3 sections (R294 to R302): each command answers a next state. -/
def Obligations.PortSections : Prop :=
  (∀ (s : State) (k bits phase : Nat) (pulse : Bool) (slots : List Int), s.hasPort (.tdmRx k) = true → s.mediaSync (.tdmRx k) = false →
    let p := Port.tdmRx k
    let e := s.port p
    let f := s.portFrame p
    (e.phase = .unlocked → e.sync = false → e.bads = 0 → e.gaps = [] → bits = f.1 → pulse = true →
      Answers (.tdmFrame p bits pulse phase slots) s (fun t => (t.port p).good = e.good + 1 ∧
        (t.port p).frames = ((List.range (s.portSlots p)).map (fun j => slots.getD j 0 * 2 ^ (32 - f.2)) :: e.frames).take 256 ∧
        (t.port p).lastRsi = s.render.rsi ∧ (t.port p).goodAt = s.render.tick ∧ (t.port p).edge = some s.render.tick ∧
        t.fld (.tdm k) Reg.Tdm.RX_BAD = s.fld (.tdm k) Reg.Tdm.RX_BAD)) ∧
    (e.phase ≠ .off → bits ≠ f.1 ∨ pulse = false → Answers (.tdmFrame p bits pulse phase slots) s (fun t =>
      (t.port p).good = 0 ∧ (t.port p).frames = e.frames ∧
      t.fld (.tdm k) Reg.Tdm.RX_BAD = (s.fld (.tdm k) Reg.Tdm.RX_BAD + 1) % 2 ^ Reg.Tdm.RX_BAD.width ∧
      (t.fld (.tdm k) Reg.Hdr.EVENTS).testBit 2 = true))) ∧
  (∀ (s : State) (k : Nat), s.hasPort (.tdmRx k) = true → let p := Port.tdmRx k
    let e := s.port p
    (e.phase = .off ∨ e.phase = .unlocked ∨ s.stopDue p = false → Answers (.stop p) s (OnlyWords s · [])) ∧
    (e.phase = .locked → s.stopDue p = true → Answers (.stop p) s (fun t => (t.port p).phase = .unlocked ∧ (t.port p).filling = true ∧
      (t.port p).sync = false ∧ (e.filling = false → e.env.flip = none → (t.port p).env.to_ = 0) ∧
      t.fld (.tdm k) Reg.Tdm.STATUS_RX_STATE = 1 ∧
      t.fld (.tdm k) Reg.Tdm.RX_STOPS = (s.fld (.tdm k) Reg.Tdm.RX_STOPS + 1) % 2 ^ Reg.Tdm.RX_STOPS.width ∧
      (t.fld (.tdm k) Reg.Hdr.EVENTS).testBit 0 = true)) ∧
    (∀ rate : Nat, e.phase = .unlocked → 64 ≤ e.good → s.portAsrc p = true → 8000 * 256 ≤ rate → rate ≤ 192000 * 256 →
      ((portRatio s.fs rate).2 = true → Answers (.locking p rate) s (fun t =>
        t.port p = { e with rate := rate, phase := .locking } ∧ t.fld (.tdm k) Reg.Tdm.STATUS_RX_STATE = 2)) ∧
      ((portRatio s.fs rate).2 = false → Answers (.locking p rate) s (fun t => t.port p = { e with rate := rate } ∧
        (t.fld (.tdm k) Reg.Hdr.EVENTS).testBit 9 = true))) ∧
    (e.phase = .locking → Answers (.lock p) s (fun t => (t.port p).phase = .locked ∧ (t.port p).lockRate = e.rate ∧
      t.fld (.tdm k) Reg.Tdm.STATUS_RX_STATE = 3 ∧ (t.fld (.tdm k) Reg.Hdr.EVENTS).testBit 1 = true)) ∧
    (e.phase ≠ .off → e.sync = false → e.phase0.isSome = true → s.mediaSync p = true ∨
        (e.rate = s.fs * 256 ∧ e.since + s.second ≤ s.render.tick) →
      Answers (.syncAcquire p) s (fun t => (t.port p).sync = true ∧ t.fld (.tdm k) Reg.Tdm.STATUS_RX_SYNC = 1 ∧
        (t.port p).phase = (if e.phase = .syncWait then .locked else e.phase))) ∧
    (∀ rate : Nat, e.phase = .locked → s.portAsrc p = true → let d := absNat ((rate : Int) - e.lockRate)
      (20 * d ≤ e.lockRate → Answers (.rateMeasure p rate) s (fun t =>
        t.port p = (if rate = e.rate then e else { e with rate := rate, sync := false, phase0 := none }) ∧
        t.fld (.tdm k) Reg.Tdm.RX_RATE = rate % 2 ^ Reg.Tdm.RX_RATE.width)) ∧
      (e.lockRate < 20 * d → Answers (.rateMeasure p rate) s (fun t => (t.port p).phase = .unlocked ∧
        (t.port p).rateChange = true ∧ t.fld (.tdm k) Reg.Tdm.STATUS_RX_STATE = 1))))

/-- AES3 and clock inputs (R305 to R311): each command answers a next state. The code of CRCC is AES3's (log entry 9). -/
def Obligations.AesAndClocks : Prop :=
  (∀ (s : State) (k : Nat), s.hasPort (.aesRx k) = true → let p := Port.aesRx k
    let e := s.port p
    e.phase ≠ .off →
    (∀ (a b : Nat) (va vb : Bool), Answers (.aes3Frame k true a b va vb) s (fun t => (t.port p).good = 0 ∧
      (t.port p).frames = e.frames ∧
      t.fld (.aesRx k) Reg.AesRx.BAD = (s.fld (.aesRx k) Reg.AesRx.BAD + 1) % 2 ^ Reg.AesRx.BAD.width ∧
      (t.fld (.aesRx k) Reg.Hdr.EVENTS).testBit 2 = true)) ∧
    (∀ (a b : Nat) (va vb : Bool), e.bads = 0 → e.gaps = [] → s.bit (.aesRx k) Reg.AesRx.CTRL_VALIDITY_MUTE = false →
      Answers (.aes3Frame k false a b va vb) s (fun t => (t.port p).good = e.good + 1 ∧
        (t.port p).frames = ([signed 24 (a % 2 ^ 24) * 256, signed 24 (b % 2 ^ 24) * 256] :: e.frames).take 256)) ∧
    (∀ (sub : Bool) (bs : List Byte), leAt bs 0 1 % 2 = 0 → Answers (.csBlock k sub bs) s (fun t =>
      (∀ i, i < 6 → t.fld (.aesRx k) (if sub then Reg.AesRx.CS_B i else Reg.AesRx.CS_A i) = ((csWords bs).getD i 0#32).toNat) ∧
      t.fld (.aesRx k) Reg.AesRx.CONSUMER = 1 ∧ t.fld (.aesRx k) Reg.AesRx.CS_CRC_ERR = 0)) ∧
    (∀ (sub : Bool) (bs : List Byte), leAt bs 0 1 % 2 = 1 → bs.getD 23 0 ≠ crcc bs → Answers (.csBlock k sub bs) s (fun t =>
      t.fld (.aesRx k) Reg.AesRx.CS_CRC_ERR = 1 ∧ OnlyWords s t [wordAt (.aesRx k) Reg.AesRx.CS_CRC_ERR])) ∧
    (s.bit (.aesRx k) Reg.AesRx.NONAUDIO = true → (s.aes k).naA = false → (s.aes k).naB = false → 8192 ≤ (s.aes k).sincePa →
      Answers (.audio k) s (fun t => t.fld (.aesRx k) Reg.AesRx.NONAUDIO = 0 ∧
        (t.fld (.aesRx k) Reg.Hdr.EVENTS).testBit 5 = true))) ∧
  (∀ (s : State) (k : Nat), Blk.present s.model (.aesTx k) = true → s.bit (.aesTx k) Reg.AesTx.CTRL_EN = true →
    Answers (.csApplied k) s (fun t => (Map.get ({} : AesTxState) k t.aesTx).cs = s.csToSend k ∧
      t.fld (.aesTx k) Reg.AesTx.CS_BLOCKS = (s.fld (.aesTx k) Reg.AesTx.CS_BLOCKS + 1) % 2 ^ Reg.AesTx.CS_BLOCKS.width ∧
      ((Map.get ({} : AesTxState) k s.aesTx).cs ≠ s.csToSend k → (t.fld (.aesTx k) Reg.Hdr.EVENTS).testBit 0 = true))) ∧
  (∀ (s : State) (ix freq : Nat), ix < 2 → Answers (.mclkinMeasure ix freq) s (fun t =>
    t.fld .clocks (Reg.Clocks.MCLKIN_FREQ ix) = (if freq < 1000000 then 0 else freq) % 2 ^ (Reg.Clocks.MCLKIN_FREQ ix).width ∧
    OnlyWords s t [wordAt .clocks (Reg.Clocks.MCLKIN_FREQ ix)]))

/-- The classifier's instruction set (R334 to R337). -/
def Obligations.ClassifierInstructions : Prop :=
  ∀ (s : State) (p pc at_ : Nat) (f : List Byte), p < 4 → s.hasEth p = true → pc < s.fld (.ethCls p) Reg.EthCls.LENGTH →
    let w0 := (s.clsInstr p pc).1
    let w1 := (s.clsInstr p pc).2
    let op := bitsOf w0 31 28
    let imm := bitsOf w0 15 0
    let v := clsField (bitsOf w0 27 24) f
    let hit := ∃ x, v = some x ∧ x &&& s.fld (.ethCls p) (Reg.EthCls.MASK (imm % 16)) = w1.toNat
    let goes := fun (k : Nat) (t : State) => t.eth p = { s.eth p with clsPc := some k } ∧ OnlyWords { s with net := t.net } t []
    let gets := fun (n : Nat) (t : State) => (t.eth p).clsPc = none ∧ (Map.get ({} : IngState) n t.net.ing).inbox =
      (Map.get ({} : IngState) n s.net.ing).inbox ++ [(f, at_)]
    let skip := pc + 1 + bitsOf w0 23 16
    let default := fun (t : State) => (t.eth p).clsPc = none ∧ t.fld (.ethCls p) Reg.EthCls.DEFAULT_HITS =
        (s.fld (.ethCls p) Reg.EthCls.DEFAULT_HITS + 1) % 2 ^ Reg.EthCls.DEFAULT_HITS.width ∧
      (t.fld (.ethCls p) Reg.Hdr.EVENTS).testBit 0 = true
    (op = 0 → Answers (.classifierHalt p pc at_ f) s default) ∧
    (op = 1 → (hit → Answers (.classifierMatch p pc at_ f) s (goes (pc + 1))) ∧
      (¬ hit → Answers (.classifierMatch p pc at_ f) s (goes skip))) ∧
    (op = 2 → (hit → Answers (.classifierNmatch p pc at_ f) s (goes skip)) ∧
      (¬ hit → Answers (.classifierNmatch p pc at_ f) s (goes (pc + 1)))) ∧
    (op = 3 → let within := ∃ x, v = some x ∧ imm ≤ x % 65536 ∧ x % 65536 ≤ w1.toNat % 65536
      (within → Answers (.classifierRange p pc at_ f) s (goes (pc + 1))) ∧
      (¬ within → Answers (.classifierRange p pc at_ f) s (goes skip))) ∧
    (op = 4 → Answers (.classifierSkip p pc at_ f) s (goes skip)) ∧
    (op = 5 → let n := w1.toNat % 256
      (s.bit (.ingress n) Reg.Ingress.CTRL_ENABLE = true → Answers (.classifierStream p pc at_ f) s (gets n)) ∧
      (s.bit (.ingress n) Reg.Ingress.CTRL_ENABLE = false → Answers (.classifierStream p pc at_ f) s default)) ∧
    (op = 6 → (∀ n, s.clsLookup p f = some n → Answers (.classifierLookup p pc at_ f) s (gets n)) ∧
      (s.clsLookup p f = none → Answers (.classifierLookup p pc at_ f) s (goes (pc + 1)))) ∧
    (op = 7 → s.bit (.ethMac p) (Reg.EthMac.XQ_EN (w1.toNat % 4)) = false → Answers (.classifierHost p pc at_ f) s (fun t =>
      t.eth p = { s.eth p with clsPc := none } ∧ OnlyWords { s with net := t.net } t [])) ∧
    (op = 8 → Answers (.classifierCount p pc at_ f) s (fun t => (t.eth p).clsPc = some (pc + 1) ∧
      t.fld (.ethCls p) (Reg.EthCls.COUNT (imm % 16)) =
        (s.fld (.ethCls p) (Reg.EthCls.COUNT (imm % 16)) + 1) % 2 ^ (Reg.EthCls.COUNT (imm % 16)).width ∧
      OnlyWords { s with net := t.net } t [wordAt (.ethCls p) (Reg.EthCls.COUNT (imm % 16))])) ∧
    (op = 9 → Answers (.classifierDrop p pc at_ f) s (fun t => (t.eth p).clsPc = none ∧
      t.fld (.ethStat p) (Reg.EthStat.COUNTER 22) = (s.fld (.ethStat p) (Reg.EthStat.COUNTER 22) + 1) % 2 ^ 32 ∧
      t.net.ing = s.net.ing)) ∧
    (op = 10 → (p = 0 → Answers (.classifierWake p pc at_ f) s (fun t => (t.eth p).wakeMark = true ∧
        (t.eth p).clsPc = some (pc + 1) ∧ (t.fld .greenroom Reg.Hdr.EVENTS).testBit 5 = true)) ∧
      (p ≠ 0 → Answers (.classifierWake p pc at_ f) s (goes (pc + 1))))

/-- Links, PAUSE, XTX, MDIO and reception (R318, R338 to R345). -/
def Obligations.EthernetPorts : Prop :=
  ∀ (s : State) (p : Nat), p < 4 → s.hasEth p = true → let m := Blk.ethMac p
    let counted := fun (t : State) (i n : Nat) =>
      t.fld (.ethStat p) (Reg.EthStat.COUNTER i) = (s.fld (.ethStat p) (Reg.EthStat.COUNTER i) + n) % 2 ^ 32
    let event := fun (t : State) (i : Nat) => (t.fld m Reg.Hdr.EVENTS).testBit i = true
    (s.bit m Reg.EthMac.CFG_EN = true → s.bit m Reg.EthMac.STATUS_LINK = false → Answers (.linkUp p) s (fun t =>
      t.bit m Reg.EthMac.STATUS_LINK = true ∧ t.fld m Reg.EthMac.STATUS_MODE = s.fld m Reg.EthMac.CFG_MODE ∧ event t 0 ∧
      OnlyWords s t [wordAt m Reg.EthMac.STATUS_LINK, wordAt m Reg.EthMac.STATUS_MODE, wordAt m Reg.Hdr.EVENTS])) ∧
    (s.bit m Reg.EthMac.STATUS_LINK = true → Answers (.linkDown p) s (fun t => t.bit m Reg.EthMac.STATUS_LINK = false ∧
      (t.eth p).quanta = [] ∧ (t.eth p).pauses = [] ∧ t.fld m Reg.EthMac.STATUS_PAUSED = 0 ∧ counted t 45 1 ∧ event t 0)) ∧
    (s.bit m Reg.EthMac.STATUS_LINK = false → Answers (.linkDown p) s (OnlyWords s · [])) ∧
    (∀ (at_ tm : Nat) (rest : List (Nat × Option Nat × List (Option Nat))), (s.eth p).pauses = (at_, some tm, []) :: rest →
      (s.bit m Reg.EthMac.PAUSE_RX_EN = true → s.bit m Reg.EthMac.PAUSE_EXEMPT = false → Answers (.pauseRx p) s (fun t =>
        (∀ q, q < 8 → Map.get (0, 0) q (t.eth p).quanta = (if tm = 0 then (0, 0) else (at_, tm))) ∧ (t.eth p).pauses = rest ∧
        (tm ≠ 0 → t.fld m Reg.EthMac.STATUS_PAUSED = 255))) ∧
      (s.bit m Reg.EthMac.PAUSE_RX_EN = false → Answers (.pauseRx p) s (fun t =>
        t.eth p = { s.eth p with pauses := rest } ∧ OnlyWords { s with net := t.net } t []))) ∧
    (∀ q : Nat, q < 8 → (s.eth p).paused q = true →
      (s.pauseEnd p q ≤ 1000 * s.nextNs → Answers (.pauseExpire p q) s (fun t =>
        (t.eth p).paused q = false ∧ counted t 40 (Map.get (0, 0) q (s.eth p).quanta).2 ∧
        ∀ r, r ≠ q → Map.get (0, 0) r (t.eth p).quanta = Map.get (0, 0) r (s.eth p).quanta)) ∧
      (1000 * s.nextNs < s.pauseEnd p q → Answers (.pauseExpire p q) s (OnlyWords s · []))) ∧
    (s.fld m Reg.EthMac.PAUSE_TX_MODE = 1 →
      (s.bit m Reg.EthMac.STATUS_ABOVE_HIGH = false → Answers (.highWater p) s (fun t =>
        t.bit m Reg.EthMac.STATUS_ABOVE_HIGH = true ∧ event t 4 ∧
        (t.eth p).pauseTx = some (none, s.fld m Reg.EthMac.TX_QUANTA) ∧ counted t 29 1)) ∧
      (s.bit m Reg.EthMac.STATUS_ABOVE_HIGH = true → Answers (.pauseTxRepeat p false) s (fun t =>
          t.bit m Reg.EthMac.STATUS_ABOVE_HIGH = false ∧ (t.eth p).pauseTx = some (none, 0) ∧ counted t 29 1) ∧
        Answers (.pauseTxRepeat p true) s (fun t => t.bit m Reg.EthMac.STATUS_ABOVE_HIGH = true ∧
          (t.eth p).pauseTx = some (none, s.fld m Reg.EthMac.TX_QUANTA) ∧ counted t 29 1))) ∧
    (∀ len q : Nat, q < 8 →
      let good := len ≤ (s.eth p).xtx.length ∧ s.queueUse p q = 0 ∧ 60 ≤ len ∧ len ≤ s.ethMtu p + 18
      (good → Answers (.xtxSend p len q) s (fun t => (t.eth p).xtx = [] ∧
        (t.eth p).queue q = (s.eth p).queue q ++ [{ len := len + 4, body := .host ((s.eth p).xtx.take len) }] ∧
        OnlyWords { s with net := t.net } t [])) ∧
      (¬ good → Answers (.xtxSend p len q) s (fun t => t.eth p = { s.eth p with xtx := [] } ∧ event t 3 ∧
        OnlyWords { s with net := t.net } t [wordAt m Reg.Hdr.EVENTS]))) ∧
    (∀ w : Word, (2 ≤ p → Answers (.mdioCmd p w) s (fun t => t.eth p = { s.eth p with mdio := some w } ∧
        t.bit m Reg.EthMac.STATUS_MDIO_BUSY = true)) ∧ (p < 2 → Answers (.mdioCmd p w) s (OnlyWords s · [])) ∧
      ∀ data : Nat, (s.eth p).mdio = some w → Answers (.mdioDone p data) s (fun t =>
        t.eth p = { s.eth p with mdio := none } ∧ t.bit m Reg.EthMac.STATUS_MDIO_BUSY = false ∧ event t 5 ∧
        t.fld m Reg.EthMac.MDIO_DATA = (if bitsOf w 11 10 = 2 ∨ (w.getLsbD 12 = true ∧ bitsOf w 11 10 = 3)
          then data % 2 ^ Reg.EthMac.MDIO_DATA.width else s.fld m Reg.EthMac.MDIO_DATA))) ∧
    (∀ (at_ : Nat) (f : List Byte), s.bit m Reg.EthMac.STATUS_LINK = true → 60 ≤ f.length → clientData f ≤ s.ethMtu p →
      (s.forwards p f = false → Answers (.ethRxFrame p at_ f .fcs) s (fun t => counted t 19 1 ∧ counted t 23 (f.length + 4) ∧
        t.net = s.net)) ∧
      (∀ times, (ethType f).1 = 0x8808 → pauseTimes f = some times → Answers (.ethRxFrame p at_ f .none) s (fun t =>
        t.eth p = { s.eth p with pauses := (s.eth p).pauses ++ [(at_ + s.bitsNs p (f.length + 4), times)] } ∧ counted t 1 1 ∧ counted t 19 0)))

/-- Transmission selection and gates (R321, R339, R340). -/
def Obligations.TransmissionAndGates : Prop :=
  ∀ (s : State) (p : Nat), p < 4 → s.hasEth p = true → let e := s.eth p
    let g := Blk.ethGate p
    (∀ (at_ q : Nat) (f : TxFrame) (rest : List TxFrame), s.bit (.ethMac p) Reg.EthMac.STATUS_LINK = true → e.txEnd ≤ at_ → e.gcl = none → e.change = none →
      q < 8 → e.queue q = f :: rest → (∀ r, q < r → r < 8 → e.queue r = []) →
      (s.fld g Reg.EthGate.IDLE_STATES).testBit q = true → e.paused q = false → s.slope p q = 0 →
      (∀ c, s.oneStepOf f = some c → Map.get 0 c e.oneStep ≤ at_) →
      let sends := fun (i seq : Nat) => ∃ stamp corr rx, f.body = .ptp i 0 seq stamp corr rx
      let stamped := fun (i : Nat) => s.txTime p at_ + (s.inst i).off
      (∀ i seq, i < 2 → sends i seq → s.oneStepOn i = false → ∀ c, s.controlQueue p = some c →
        Answers (.frameStart p at_) s (fun t => (t.eth p).queue c = (if c = q then rest else e.queue c) ++
          [{ len := 90, body := .ptp i 5 seq (stamped i / 65536).toNat (stamped i % 65536) }])) ∧
      Answers (.frameStart p at_) s (fun t => (t.eth p).txEnd = at_ + s.wireNs p f.len ∧
        (t.eth p).wire.map (·.1) = some q ∧
        ((∀ i kind seq stamp corr rx, f.body ≠ .ptp i kind seq stamp corr rx) ∨ s.controlQueue p = none →
          (t.eth p).queue q = rest ∧ ∀ r, r ≠ q → (t.eth p).queue r = e.queue r) ∧
        (∀ i seq stamp corr rx, i < 2 → f.body = .ptp i 0 seq stamp corr rx → s.oneStepOn i = true →
          (t.eth p).queue q = rest ∧ (t.eth p).wire = some (q, { f with
            body := .ptp i 0 seq (stamped i / 65536).toNat (corr + stamped i % 65536) }) ∧
          Map.get 0 i (t.eth p).oneStep = at_ + s.wireNs p f.len) ∧
        t.fld (.ethStat p) (Reg.EthStat.COUNTER 24) = (s.fld (.ethStat p) (Reg.EthStat.COUNTER 24) + f.len) % 2 ^ 32 ∧
        t.fld (.ethStat p) (Reg.EthStat.COUNTER 25) = (s.fld (.ethStat p) (Reg.EthStat.COUNTER 25) + 1) % 2 ^ 32)) ∧
    (∀ l : List (Nat × Nat), e.gcl = some l → e.entryEnd < s.nextNs →
      (e.entry + 1 < l.length → e.entryEnd < e.cycleEnd → Answers (.gateEntryChange p) s (fun t =>
        (t.eth p).entry = e.entry + 1 ∧ (t.eth p).cycleEnd = e.cycleEnd ∧ (t.eth p).gcl = some l ∧
        t.fld g Reg.EthGate.OPER_ENTRY = (e.entry + 1) % 2 ^ Reg.EthGate.OPER_ENTRY.width)) ∧
      (l.length ≤ e.entry + 1 ∨ e.cycleEnd ≤ e.entryEnd → Answers (.gateEntryChange p) s (fun t =>
        (t.eth p).entry = 0 ∧ (t.eth p).cycleEnd = e.cycleEnd + e.cycle ∧ t.fld g Reg.EthGate.OPER_ENTRY = 0 ∧
        t.fld g Reg.EthGate.CYCLES = (s.fld g Reg.EthGate.CYCLES + 1) % 2 ^ Reg.EthGate.CYCLES.width))) ∧
    (∀ at_ : Nat, e.change = some at_ → at_ < s.nextNs → Answers (.gclChange p) s (fun t => (t.eth p).entry = 0 ∧ (t.eth p).change = none ∧
      (t.eth p).gcl = some ((List.range (min (s.fld g Reg.EthGate.LIST_LEN) 256)).map (fun k =>
        (s.fld g (Reg.EthGate.ENTRY_STATES k), 8 * s.fld g (Reg.EthGate.ENTRY_INTERVAL k)))) ∧
      (t.eth p).cycleEnd = at_ + s.fld g Reg.EthGate.CYCLE_NS ∧
      t.fld g Reg.EthGate.CHANGE_PENDING = 0 ∧ t.fld g Reg.EthGate.OPER_ENTRY = 0 ∧
      t.fld g Reg.EthGate.CYCLES = (s.fld g Reg.EthGate.CYCLES + 1) % 2 ^ Reg.EthGate.CYCLES.width ∧
      (t.fld g Reg.Hdr.EVENTS).testBit 0 = true))

/-- Ingress and egress streams (R322 to R333). -/
def Obligations.Streams : Prop :=
  (∀ (s : State) (n at_ : Nat) (f : List Byte) (rest : List (List Byte × Nat)), n < 256 → (s.ing n).inbox = (f, at_) :: rest →
    let b := Blk.ingress n
    (s.fld b Reg.Ingress.STATE = 0 → Answers (.streamPacketRx n) s (fun t => t.ing n = { s.ing n with inbox := rest } ∧
      OnlyWords { s with net := t.net } t [])) ∧
    (∀ q : Nat, s.fld b Reg.Ingress.STATE ≠ 0 → s.bit b Reg.Ingress.CTRL_CB_ELIM = true → (l2 f).2.1 = some q → q < 65536 →
      (s.ing n).cbSeq = some q → 0 ∈ (s.ing n).cbHist → s.render.tick - (s.ing n).cbAt < s.fs / 10 →
      Answers (.streamPacketRx n) s (fun t => t.ing n = { s.ing n with inbox := rest } ∧
        t.fld b Reg.Ingress.CB_DUPS = (s.fld b Reg.Ingress.CB_DUPS + 1) % 2 ^ Reg.Ingress.CB_DUPS.width ∧
        t.fld b Reg.Ingress.PACKETS = s.fld b Reg.Ingress.PACKETS ∧ t.samples = s.samples)) ∧
    (s.fld b Reg.Ingress.STATE ≠ 0 → s.bit b Reg.Ingress.CTRL_CB_ELIM = false → s.fld b Reg.Ingress.CTRL_FORMAT = 0 →
      let pk := s.aafPacket n f
      (pk.good = false ∨ (s.ing n).rate ≠ s.fs → Answers (.streamPacketRx n) s (fun t => (t.ing n).seq = some pk.seq ∧ (t.ing n).inbox = rest ∧
        t.fld b Reg.Ingress.FORMAT_ERR = (s.fld b Reg.Ingress.FORMAT_ERR + 1) % 2 ^ Reg.Ingress.FORMAT_ERR.width ∧
        (t.fld b Reg.Ingress.EVT_FLAGS).testBit 5 = true ∧ t.samples = s.samples)) ∧
      (pk.good = true → (s.ing n).rate = s.fs → s.running = false → Answers (.streamPacketRx n) s (fun t => (t.ing n).seq = some pk.seq ∧
        (t.ing n).inbox = rest ∧ t.fld b Reg.Ingress.STATE = 2 ∧
        t.fld b Reg.Ingress.PACKETS = (s.fld b Reg.Ingress.PACKETS + 1) % 2 ^ Reg.Ingress.PACKETS.width ∧
        (s.fld b Reg.Ingress.STATE ≠ 2 → (t.fld b Reg.Ingress.EVT_FLAGS).testBit 0 = true))))) ∧
  (∀ (s : State) (n : Nat), n < 256 → s.fld (.ingress n) Reg.Ingress.STATE = 2 →
    (s.fld (.ingress n) Reg.Ingress.CTRL_FORMAT ≠ 2 →
      4 * s.fld (.ingress n) Reg.Ingress.FMT_SPF ≤ s.render.tick - (s.ing n).at_) →
    2 * s.blockSize ≤ s.render.tick - (s.ing n).at_ →
    Answers (.stalled n) s (fun t => t.fld (.ingress n) Reg.Ingress.STATE = 3 ∧
      (t.fld (.ingress n) Reg.Ingress.EVT_FLAGS).testBit 1 = true ∧
      OnlyWords s t [wordAt (.ingress n) Reg.Ingress.STATE, wordAt (.ingress n) Reg.Ingress.EVT_FLAGS])) ∧
  (∀ (s : State) (n : Nat), n < 256 → s.egNext n = none → Answers (.streamPacketEnqueue n) s (OnlyWords s · [])) ∧
  (∀ (s : State) (n k span : Nat), n < 256 → s.egNext n = some (k, span) →
    let g := s.egRec n (k * span + span)
    let p := g Reg.Egress.CTRL_PORT
    let q := g Reg.Egress.CTRL_QUEUE
    (s.packetReady n k span = false → Answers (.streamPacketEnqueue n) s (OnlyWords s · [])) ∧
    (s.packetReady n k span = true → s.egOpen n = true → s.bit (.ethMac p) Reg.EthMac.STATUS_LINK = true → p < 4 →
      Answers (.streamPacketEnqueue n) s (fun t => t.egr n = (s.egr n).formed ∧
        (t.eth p).queue q = ((s.eth p).queue q).filter (fun f => !(TxFrame.ofStream n f && !f.retained)) ++ [s.egPacket n k span] ∧
        ∀ r, r ≠ q → (t.eth p).queue r = (s.eth p).queue r)) ∧
    (s.packetReady n k span = true → s.egOpen n = false → s.twin.mode = 2 →
      Answers (.streamPacketEnqueue n) s (fun t =>
        t.egr n = { (s.egr n).formed with kept := s.keptOf (s.egr n).kept k span ++ [s.egPacket n k span] } ∧
        t.net.ports = s.net.ports ∧ OnlyWords { s with net := t.net } t [])))

/-- PTP instances and the media clock (R351 to R369). -/
def Obligations.TimeInstances : Prop :=
  (∀ (s : State) (ix : Nat), ix < 2 → s.bit (.time ix) Reg.Time.CFG_EN = true → let b := Blk.time ix
    (∀ d : Int, (s.inst ix).far < 3 → Answers (.ptpRx ix (.sync d)) s (fun t =>
      let o := d - s.fld b Reg.Time.MEAN_DELAY - signed 32 (s.fld b Reg.Time.ASYMMETRY)
      let near := if absNat o ≤ 65536000 then (s.inst ix).near + 1 else 0
      t.fld64 b Reg.Time.OFFSET_LO Reg.Time.OFFSET_HI = unsigned 64 o ∧
      t.servo ix = (if 16 ≤ near ∨ s.servo ix = 2 then 2 else 1) ∧ (t.inst ix).near = near)) ∧
    (∀ gm steps cls st : Nat, gm < 2 ^ 64 → Answers (.ptpRx ix (.announce gm steps cls st)) s (fun t =>
      t.fld64 b Reg.Time.GM_ID_LO Reg.Time.GM_ID_HI = gm ∧
      t.fld b Reg.Time.STEPS_REMOVED = steps % 2 ^ Reg.Time.STEPS_REMOVED.width ∧
      t.fld b Reg.Time.GM_CLASS = cls % 2 ^ Reg.Time.GM_CLASS.width ∧
      t.fld b Reg.Time.PORT_STATE = (if s.bit b Reg.Time.CFG_SLAVE_ONLY = true ∧ st % 8 = 5 then 2 else st % 8) ∧
      (s.fld64 b Reg.Time.GM_ID_LO Reg.Time.GM_ID_HI ≠ gm → (t.fld b Reg.Hdr.EVENTS).testBit 3 = true ∧
        t.fld b Reg.Time.GM_CHANGES = (s.fld b Reg.Time.GM_CHANGES + 1) % 2 ^ Reg.Time.GM_CHANGES.width))) ∧
    (∀ mean : Nat, Answers (.ptpRx ix (.delay mean)) s (fun t =>
      t.fld b Reg.Time.MEAN_DELAY = mean % 2 ^ Reg.Time.MEAN_DELAY.width ∧ OnlyWords s t [wordAt b Reg.Time.MEAN_DELAY])) ∧
    ((s.inst ix).annAt + s.annWait ix ≤ s.render.tick → Answers (.annTimeout ix) s (fun t => t.servo ix = 0 ∧ (t.fld b Reg.Hdr.EVENTS).testBit 2 = true ∧
      t.fld b Reg.Time.ANN_TIMEOUTS = (s.fld b Reg.Time.ANN_TIMEOUTS + 1) % 2 ^ Reg.Time.ANN_TIMEOUTS.width ∧
      (ix = s.selInst → s.bit .mediaClk Reg.MediaClk.AUTO_SWITCH = false → s.fld .mediaClk Reg.MediaClk.STATE = 1 →
        t.fld .mediaClk Reg.MediaClk.STATE = 3 ∧ t.fld .mediaClk Reg.MediaClk.HOLDOVER_MS = 0 ∧
        t.time.holdFrom = some s.render.tick ∧ (t.fld .mediaClk Reg.Hdr.EVENTS).testBit 1 = true))) ∧
    (s.servo ix = 1 ∨ s.servo ix = 2 →
      ((s.inst ix).syncAt + s.intervals 4 (s.logSync ix) ≤ s.render.tick → Answers (.coasting ix) s (fun t => t.servo ix = 3 ∧
        OnlyWords s t [wordAt b Reg.Time.SERVO, wordAt .mediaClk Reg.MediaClk.INTER_VALID])) ∧
      (s.render.tick < (s.inst ix).syncAt + s.intervals 4 (s.logSync ix) → Answers (.coasting ix) s (OnlyWords s · []))) ∧
    (s.servo ix = 2 → s.fld .mediaClk Reg.MediaClk.STATE = 0 ∨ s.fld .mediaClk Reg.MediaClk.STATE = 3 →
      ix = s.selInst ∨ s.bit .mediaClk Reg.MediaClk.AUTO_SWITCH = true → s.time.switch = none →
      s.restful = false → Answers (.instanceLocked ix) s
        (OnlyWords { s with time := { s.time with switch := some (ix, true) } } · []))) ∧
  (∀ (s : State) (since : Nat), s.fld .mediaClk Reg.MediaClk.STATE = 3 → s.time.holdFrom = some since →
    since + 60 * s.second ≤ s.render.tick →
    Answers .freerun s (fun t => t.fld .mediaClk Reg.MediaClk.STATE = 0 ∧
      t.fld .mediaClk Reg.Hdr.EVENTS = s.fld .mediaClk Reg.Hdr.EVENTS ||| 4 ∧
      OnlyWords s t [wordAt .mediaClk Reg.MediaClk.STATE, wordAt .mediaClk Reg.Hdr.EVENTS])) ∧
  (∀ s : State, s.time.slew.isSome = true → s.time.h = 0 → Answers .slewDone s (fun t =>
    t.fld .mediaClk Reg.MediaClk.STATE = 1 ∧ t.fld .mediaClk Reg.Hdr.EVENTS = s.fld .mediaClk Reg.Hdr.EVENTS ||| 64 ∧
    t.time = { s.time with slew := none })) ∧
  (∀ s : State,
    (s.servo s.selInst = 0 ∨ s.servo s.selInst = 3 → Answers .realign s (fun t =>
      t.fld .mediaClk Reg.Hdr.EVENTS = s.fld .mediaClk Reg.Hdr.EVENTS ||| 16 ∧
      OnlyWords s t [wordAt .mediaClk Reg.Hdr.EVENTS])) ∧
    (s.servo s.selInst = 1 ∨ s.servo s.selInst = 2 →
      (s.restful = false → Answers .realign s (OnlyWords { s with time := { s.time with realign := true } } · [])) ∧
      (s.restful = true → Answers .realign s (fun t => t.fld .mediaClk Reg.Hdr.EVENTS = s.fld .mediaClk Reg.Hdr.EVENTS ||| 32 ∧
        OnlyWords s t [wordAt .mediaClk Reg.Hdr.EVENTS]))))

/-- Timestamp queues (R355 to R359) and PTP messages (R351). The size of a PTP frame is the model's (log entry 9). -/
def Obligations.TimestampsAndMessages : Prop :=
  (∀ (s : State) (p : Nat), p < s.model.eths → p < 4 → let q := s.tsQueue p
    (∀ (type domain seq sec ns frac : Nat) (rest : List (Nat × Nat × Nat)), q.sent = (type, domain, seq) :: rest →
      s.bit .tsq (Reg.Tsq.Q_CFG_EN p) = true → q.runs = [] →
      let x := (((sec * 1000000000 + ns % 2 ^ 30) * 65536 + frac % 65536 : Nat) + signed 32 (s.fld .tsq (Reg.Tsq.Q_TX_LAT p))).toNat
      let ball := x / 65536
      (q.entries.length < 64 → Answers (.txStamp p sec ns frac) s (fun t =>
        t.tsQueue p = { q with sent := rest, entries := q.entries ++ [[tsWord0 type domain seq 1,
          BitVec.ofNat 32 (ball / 1000000000), BitVec.ofNat 32 (ball / 1000000000 / 2 ^ 32 % 65536 + x % 65536 * 65536),
          BitVec.ofNat 32 (ball % 1000000000)]] } ∧
        t.fld .tsq (Reg.Tsq.Q_LEVEL p) = q.entries.length + 1 ∧
        t.fld .tsq Reg.Hdr.EVENTS = s.fld .tsq Reg.Hdr.EVENTS ||| 2 ^ (4 + p))) ∧
      (64 ≤ q.entries.length → Answers (.txStamp p sec ns frac) s (fun t => (t.tsQueue p).entries = q.entries ∧
        (t.tsQueue p).runs = [{ type := type, domain := domain, seq := seq, count := 1 }] ∧
        t.fld .tsq (Reg.Tsq.Q_OVF_COUNT p) =
          (s.fld .tsq (Reg.Tsq.Q_OVF_COUNT p) + 1) % 2 ^ (Reg.Tsq.Q_OVF_COUNT p).width ∧
        t.fld .tsq Reg.Hdr.EVENTS = s.fld .tsq Reg.Hdr.EVENTS ||| 2 ^ p))) ∧
    Answers (.entryW0Read p) s (fun t => t.tsQueue p = { q with latched := q.entries.headD [0, 0, 0, 0] } ∧
      ∀ r, r ≠ p → t.tsQueue r = s.tsQueue r) ∧
    (∀ (seat : Nat), seat ≠ 0 → Answers (.entryW3Read seat p) s (OnlyWords s · [])) ∧
    (∀ (e : List Word) (rest : List (List Word)), q.entries = e :: rest → q.runs = [] → Answers (.entryW3Read 0 p) s (fun t =>
      t.tsQueue p = { q with entries := rest } ∧ t.fld .tsq (Reg.Tsq.Q_LEVEL p) = rest.length % 2 ^ 7))) ∧
  (∀ (s : State) (ix kind q : Nat), ix < 2 → kind < 3 → s.bit (.time ix) Reg.Time.CFG_EN = true →
    kind = 2 ∨ s.fld (.time ix) Reg.Time.PORT_STATE = 5 →
    let p := s.fld (.time ix) (Reg.Time.CFG_PORT ix)
    p ≠ 4 → s.hasEth p = true → s.controlQueue p = some q → Answers (.ptpMessageSend ix kind) s (fun t =>
      (t.eth p).queue q = (s.eth p).queue q ++ [{ len := 90, body := .ptp ix kind (Map.get 0 kind (s.inst ix).sent) }] ∧
      Map.get 0 kind (t.inst ix).sent = (Map.get 0 kind (s.inst ix).sent + 1) % 65536 ∧ SameWords s t []))

/-- SNAPSHOT and RESTORE (R445, R447), OFFLINE_RENDER (R409), FW_UPDATE (R539), CUE_LOAD (R428). -/
def Obligations.GlobalOperations : Prop :=
  (∀ (s : State) (c : Cmd), Issued s c 0x40 → c.n 0 = 0 →
    (s.snapBusy c = false → Answers (.snapshot c.seat c.tag) s (fun t => Queued s t c ∧ t.snaps = s.snaps)) ∧
    (s.snapBusy c = true → Answers (.snapshot c.seat c.tag) s (fun t => Completes s t c Status.busy 0 0 ∧ t.snaps = s.snaps))) ∧
  (∀ (s : State) (c : Cmd), Issued s c 0x41 → c.n 0 ≠ 0 →
    (c.seat = 0 → s.snapBusy c = false → Answers (.restore c.seat c.tag) s (fun t => Queued s t c ∧ t.fab.stg = s.fab.stg)) ∧
    (c.seat = 0 → s.snapBusy c = true → Answers (.restore c.seat c.tag) s (fun t => Completes s t c Status.busy 0 0)) ∧
    (c.seat ≠ 0 → Answers (.restore c.seat c.tag) s (fun t => Completes s t c Status.notOwner 0 0))) ∧
  (∀ (s : State) (c : Cmd), Issued s c 0x48 →
    (s.offFault c = none → c.n 7 + 4 * c.offOuts.2 * c.n 2 ≤ s.poolFree → Answers (.offlineRender c.seat c.tag) s (fun t =>
      Queued s t c ∧ t.pool.taken = (c.seat, c.tag, c.n 7 + 4 * c.offOuts.2 * c.n 2) :: s.pool.taken ∧ t.samples = s.samples)) ∧
    (∀ e, s.offFault c = some e → Answers (.offlineRender c.seat c.tag) s (fun t => Completes s t c e 0 0))) ∧
  (∀ (s : State) (c : Cmd), Issued s c 0x68 →
    (c.seat = 0 → (∀ q ∈ s.seats, ∀ d ∈ q.2.cmds, d.opcode ≠ 0x68 ∨ (d.seat = c.seat ∧ d.tag = c.tag)) →
      s.sourceFault c 0 = none → c.n 3 ≤ s.poolFree → Answers (.fwUpdate c.seat c.tag) s (fun t => Queued s t c ∧
        t.boot = s.boot)) ∧
    (c.seat ≠ 0 → Answers (.fwUpdate c.seat c.tag) s (fun t => Completes s t c Status.notOwner 0 0 ∧ t.boot = s.boot))) ∧
  (∀ (s : State) (c : Cmd) (data bs : List Byte), Issued s c 0x59 → let base := c.n 0
    let n := c.n 4 / 4
    let ws := (List.range n).map (fun k => word32 (bs.drop (4 * k)))
    base < 4096 → base + n ≤ 4096 → s.sourceFault c 1 = none → s.sourceBytes c 1 data = some bs →
    (s.cueFault c.seat base ws n 0 = none → s.cueBusy c.seat base n = false → Answers (.cueLoad c.seat c.tag data) s (fun t =>
      Completes s t c Status.ok n 0 ∧ ∀ a, Map.get 0#32 a t.cue =
        if 4096 * c.seat + base ≤ a ∧ a < 4096 * c.seat + base + n then ws.getD (a - (4096 * c.seat + base)) 0#32
        else Map.get 0#32 a s.cue)) ∧
    (∀ o, s.cueFault c.seat base ws n 0 = some o → Answers (.cueLoad c.seat c.tag data) s (fun t =>
      Completes s t c Status.badParam o 0 ∧ t.cue = s.cue)))

/-- TWIN_CONTROL (R502 to R505). -/
def Obligations.TwinControl : Prop :=
  ∀ (s : State) (c : Cmd), Issued s c 0x78 → c.seat = 0 →
    let waits := fun (t : State) => (t.seat c.seat).done = (s.seat c.seat).done
    (c.n 0 % 16 = 1 →
      (s.tw = Tw.alone → s.twin.join = none → s.peerWaits = true → s.joinFault = none → s.twin.mode = 2 →
        Answers (.join c.seat c.tag) s (fun t => t.tw = Tw.joinPri ∧ t.twin.freeze = true ∧ waits t ∧
          t.twin.join = some (some (c.seat, c.tag), s.render.tick))) ∧
      (s.tw = Tw.alone → s.twin.join = none → s.peerWaits = false → Answers (.join c.seat c.tag) s (fun t =>
        t.twin = { s.twin with join := some (some (c.seat, c.tag), s.render.tick) } ∧ t.tw = s.tw ∧ waits t)) ∧
      (undState s.tw = true → Answers (.join c.seat c.tag) s (fun t => Completes s t c Status.notPrincipal 0 0)) ∧
      (undState s.tw = false → s.tw ≠ Tw.alone ∨ s.twin.join ≠ none →
        Answers (.join c.seat c.tag) s (fun t => Completes s t c Status.busy 0 0 ∧ t.twin = s.twin))) ∧
    (c.n 0 % 16 = 2 →
      (s.attached = true → Answers (.detach c.seat c.tag) s (fun t => t.twin.detach = some (some (c.seat, c.tag)) ∧
        t.tw = s.tw ∧ waits t)) ∧
      (s.attached = false → Answers (.detach c.seat c.tag) s (fun t => Completes s t c Status.busy 0 0 ∧ t.twin = s.twin))) ∧
    (c.n 0 % 16 = 3 →
      (∀ at_, s.tw = Tw.lockPri → s.twin.handover = none → c.n 1 + 2 ^ 32 * c.n 2 = at_ → at_ ≠ 0 → at_ % s.blockSize = 0 →
        s.render.rsi + 2 * s.blockSize ≤ at_ → Answers (.handover c.seat c.tag) s (fun t =>
          t.twin.handover = some (at_, some (c.seat, c.tag)) ∧ t.tw = s.tw ∧ waits t)) ∧
      (s.tw ≠ Tw.lockPri → Answers (.handover c.seat c.tag) s (fun t => Completes s t c Status.busy 0 0 ∧ t.twin = s.twin))) ∧
    (c.n 0 % 16 = 4 →
      (s.tw = Tw.verify ∨ s.tw = Tw.lockUnd → s.twin.resync = none → (∀ q ∈ s.seats, ∀ d ∈ q.2.cmds, d.peer = none) →
        Answers (.takeover c.seat c.tag) s (fun t => t.tw = Tw.taking ∧
        t.twin.take = some (c.seat, c.tag) ∧ t.twin.cold = false ∧ waits t)) ∧
      (undState s.tw = false → Answers (.takeover c.seat c.tag) s (fun t => Completes s t c Status.busy 0 0 ∧ t.twin = s.twin))) ∧
    (c.n 0 % 16 = 5 →
      (s.tw = Tw.verify ∨ s.tw = Tw.lockUnd → Answers (.resync c.seat c.tag) s (fun t => t.tw = Tw.resync ∧
        t.twin.resync = some (c.seat, c.tag) ∧ t.twin.journal = [] ∧ waits t)) ∧
      (s.tw ≠ Tw.verify → s.tw ≠ Tw.lockUnd → Answers (.resync c.seat c.tag) s (fun t =>
        Completes s t c Status.busy 0 0 ∧ t.twin = s.twin)))

/-- Queues of a seat (R397 to R405). -/
def Obligations.SeatQueues : Prop :=
  (∀ (s : State) (seat i : Nat), seat < s.model.seats → seat < 8 → i < 4 → let b := Blk.seat seat
    let staged := fun (t : State) => { s with fab := { s.fab with stg := t.fab.stg } }
    let size := s.fld b (Reg.Seat.SQ_SIZE i)
    (∀ v, (s.bit b (Reg.Seat.SQ_EN i) = false ∨ v % 256 < size → Answers (.sqTail seat i v) s (fun t =>
        t.fld b (Reg.Seat.SQ_TAIL i) = v % 256 ∧ OnlyWords (staged t) t [wordAt b (Reg.Seat.SQ_TAIL i)])) ∧
      (s.bit b (Reg.Seat.SQ_EN i) = true → size ≤ v % 256 → Answers (.sqTail seat i v) s (fun t =>
        t.bit b (Reg.Seat.SQ_EN i) = false ∧ t.fld b (Reg.Seat.SQ_ERR i) = 1 ∧ (t.fld b Reg.Hdr.EVENTS).testBit 0 = true)) ∧
      Answers (.cqHead seat i v) s (fun t => t.fld b (Reg.Seat.CQ_HEAD i) = v % 256 ∧
        OnlyWords (staged t) t [wordAt b (Reg.Seat.CQ_HEAD i)])) ∧
    Answers (.sqEnable seat i false false) s (fun t => t.bit b (Reg.Seat.SQ_EN i) = false ∧
      OnlyWords (staged t) t [wordAt b (Reg.Seat.SQ_EN i)]) ∧
    (s.bit b (Reg.Seat.SQ_EN i) = false → s.fld b (Reg.Seat.SQ_BASE_LO i) % 4096 = 0 →
      (2 ≤ size → size ≤ 256 → Answers (.sqEnable seat i false true) s (fun t => t.bit b (Reg.Seat.SQ_EN i) = true ∧
        t.fld b (Reg.Seat.SQ_TAIL i) = 0 ∧ t.fld b (Reg.Seat.SQ_HEAD i) = 0 ∧ t.fld b (Reg.Seat.SQ_ERR i) = 0)) ∧
      (size < 2 ∨ 256 < size → Answers (.sqEnable seat i false true) s (fun t => t.bit b (Reg.Seat.SQ_EN i) = false ∧
        t.fld b (Reg.Seat.SQ_ERR i) = 3))) ∧
    (s.bit b (Reg.Seat.CQ_EN i) = false → s.fld b (Reg.Seat.CQ_BASE_LO i) % 4096 = 0 → 2 ≤ s.fld b (Reg.Seat.CQ_SIZE i) →
      s.fld b (Reg.Seat.CQ_SIZE i) ≤ 256 → Answers (.sqEnable seat i true true) s (fun t =>
        t.bit b (Reg.Seat.CQ_EN i) = true ∧ t.fld b (Reg.Seat.CQ_HEAD i) = 0 ∧ t.fld b (Reg.Seat.CQ_TAIL i) = 0 ∧
        t.fld b (Reg.Seat.CQ_PHASE i) = 1))) ∧
  (∀ (s : State) (seat i : Nat) (entry : List Word), s.fetchTurn = some (seat, i) → s.isStagedoor seat = false →
    let b := Blk.seat seat
    let w := entry.getD 0 0#32
    let c : Cmd := { seat := seat, sq := i, tag := w.toNat / 65536, opcode := w.toNat % 256, word0 := w,
                     context := entry.getD 1 0#32, params := (entry.drop 2).take 14, upAt := s.render.tick }
    (c.wellFormed = true → s.isUnderstudy = false → c.shortSource = none → (s.seat seat).cmds.any (·.tag = c.tag) = false →
      s.sched.stalled = [] →
      Answers (.commandFetch entry false) s (fun t => (t.seat seat).cmds = (s.seat seat).cmds ++ [c] ∧
        (t.seat seat).done = (s.seat seat).done ∧ (t.seat seat).lastSq = i ∧
        t.fld b (Reg.Seat.SQ_HEAD i) = (s.fld b (Reg.Seat.SQ_HEAD i) + 1) % s.fld b (Reg.Seat.SQ_SIZE i) % 256)) ∧
    Answers (.commandFetch entry true) s (fun t => (t.seat seat).cmds = (s.seat seat).cmds ∧
      t.bit b (Reg.Seat.SQ_EN i) = false ∧ t.fld b (Reg.Seat.SQ_ERR i) = 2 ∧ (t.fld b Reg.Hdr.EVENTS).testBit 0 = true)) ∧
  (∀ (s : State) (seat i : Nat) (d : Completion), seat < s.model.seats → seat < 8 → i < 4 →
    (s.seat seat).done.find? (·.cq = i) = some d → s.hostLost seat = false → s.asleep seat = false →
    s.isStagedoor seat = false → s.isAttached seat = true → s.bit (.seat seat) (Reg.Seat.CQ_EN i) = true →
    let b := Blk.seat seat
    let tail := s.fld b (Reg.Seat.CQ_TAIL i)
    (s.cqFull seat i = true → Answers (.completionWrite seat i false) s (fun t => t.seat seat = s.seat seat ∧
      t.hostMem = s.hostMem ∧ (t.fld b Reg.Hdr.EVENTS).testBit 1 = true)) ∧
    (s.cqFull seat i = false → (s.seat seat).sd.endAfter = none → Answers (.completionWrite seat i false) s (fun t =>
      (t.seat seat).done = (s.seat seat).done.erase d ∧
      (d.interim = false → ∀ c ∈ (t.seat seat).cmds, ¬ (c.tag = d.tag ∧ c.bad = d.dup)) ∧
      t.fld b (Reg.Seat.CQ_TAIL i) = (tail + 1) % s.fld b (Reg.Seat.CQ_SIZE i) % 256 ∧
      ∀ k, k < 16 → Map.get 0#8 (2 ^ 64 * seat + (s.fld64 b (Reg.Seat.CQ_BASE_LO i) (Reg.Seat.CQ_BASE_HI i) + 16 * tail) + k)
        t.hostMem = ((d.words (s.bit b (Reg.Seat.CQ_PHASE i))).flatMap bytesOf).getD k 0#8))) ∧
  (∀ (s : State) (c : Cmd) (k : Nat), s.cmdOf c.seat c.tag = some c → c.final = false → c.waiters = [] → c.tag < bootTag →
    c.seat < 8 → c.state ≠ .suspended → c.sourceAt = some k → c.n k % 4 = 2 → s.sourceBytes c k [] = none → s.isAttached c.seat = true →
    c.upAt + 10 * s.fs ≤ s.render.tick → c.steps = 0 →
    Answers (.uploadTimeout c.seat c.tag) s (fun t => Completes s t c Status.timeout 0 0))

/-- Binding, seat reset and host loss (R395, R414 to R416). -/
def Obligations.SeatsAndHosts : Prop :=
  let cleared := fun (t : State) (seat : Nat) => (t.seat seat).done = [] ∧ (∀ c ∈ (t.seat seat).cmds, bootTag ≤ c.tag) ∧
    (t.seat seat).sd.session = 0 ∧ ∀ i, i < 4 → t.bit (.seat seat) (Reg.Seat.SQ_EN i) = false ∧
      t.bit (.seat seat) (Reg.Seat.CQ_EN i) = false ∧ t.fld (.seat seat) (Reg.Seat.SQ_TAIL i) = 0 ∧
      t.fld (.seat seat) (Reg.Seat.SQ_HEAD i) = 0
  (∀ (s : State) (seat : Nat), seat < s.model.seats → seat < 8 →
    Answers (.seatReset seat) s (fun t => cleared t seat) ∧
    (∀ kind index : Nat, kind < 4 → index < 4 →
      (s.bindable kind index = true → Answers (.bind seat kind index) s (fun t => cleared t seat ∧
        t.fld (.seat seat) Reg.Seat.BIND_KIND = kind ∧ t.fld (.seat seat) Reg.Seat.BIND_INDEX = index ∧
        t.hostLost seat = false)) ∧
      (s.bindable kind index = false → Answers (.bind seat kind index) s (fun t =>
        OnlyWords s t [wordAt (.seat seat) Reg.Hdr.ERR_VALID] ∧ t.fld (.seat seat) Reg.Hdr.ERR_VALID = 1))) ∧
    (s.isStagedoor seat = true → (s.seat seat).sd.session ≠ 0 → (s.seat seat).sd.heardAt + 3 * s.fs ≤ s.render.tick →
      s.hostLost seat = false → Answers (.stagedoorSilence seat) s (fun t => t.hostLost seat = true ∧
        t.fld (.seat seat) Reg.Seat.GRACE_LEFT = 10000 ∧ (t.fld (.seat seat) Reg.Hdr.EVENTS).testBit 3 = true)) ∧
    (s.hostLost seat = true → 0 < (s.seat seat).graceEnd → (s.seat seat).graceEnd ≤ s.render.tick →
      (∀ c ∈ (s.seat seat).cmds, c.state ≠ .suspended ∨ c.final = true) →
      Answers (.graceExpire seat) s (fun t => (t.seat seat).graceEnd = 0 ∧ t.fld (.seat seat) Reg.Seat.GRACE_LEFT = 0 ∧
        (t.seat seat).cmds = (s.seat seat).cmds))) ∧
  (∀ (s : State) (link fn q : Nat), link = 1 ∨ link = 2 → (s.seatsOn link).filter (fun q => s.bindIndex q = fn) = [q] →
    Answers (.functionLevelReset link fn) s (fun t => exec (.seatReset q) s = .next t)) ∧
  (∀ (s : State) (link q : Nat) (perst : Bool), link = 1 ∨ link = 2 → q < 8 → s.seatsOn link = [q] →
    Answers (.pcieLinkDown link perst) s (fun t => t.linkUp link = false ∧ t.hostLost q = true ∧
      (s.hostLost q = false → t.fld (.seat q) Reg.Seat.GRACE_LEFT = 10000 ∧
        (t.fld (.seat q) Reg.Hdr.EVENTS).testBit 3 = true)) ∧
    ((if link = 1 then s.hosts.perstA else s.hosts.perstB) = false → s.hostLost q = true →
      Answers (.pcieLinkUp link) s (fun t => t.linkUp link = true ∧ t.hostLost q = false ∧
        (t.seat q).graceEnd = 0 ∧ (t.seat q).cmds = (s.seat q).cmds.map (fun c => { c with upAt := s.render.tick }) ∧
        (t.fld (.seat q) Reg.Hdr.EVENTS).testBit 4 = true)))

/-- Messages of hosts on the network, and what the module sends (R418 to R424). -/
def Obligations.Stagedoor : Prop :=
  let tagged := fun (s : State) (p : Nat) (msg : List Byte) (m : SdHead) => s.sdBound p m.seat = true ∧
    s.bit (.seat m.seat) Reg.Seat.STATUS_KEY_VALID = true ∧ ∃ key, (s.sdOf m.seat).key = some key ∧
      sdTag key (msg.take (msg.length - 16)) = msg.drop (msg.length - 16)
  let accepted := fun (s : State) (p : Nat) (msg : List Byte) (m : SdHead) => sdParse msg = some m ∧ tagged s p msg m ∧
    (s.sdOf m.seat).session ≠ 0 ∧ m.session = (s.sdOf m.seat).session ∧ (s.sdOf m.seat).fresh m.seq = true ∧
    (s.sdOf m.seat).waiting = []
  let after := fun (s : State) (m : SdHead) =>
    { ((s.sdOf m.seat).accept m.seq).acked m.ack with heardAt := s.render.tick }
  (∀ (s : State) (p ip udp : Nat) (msg : List Byte) (m : SdHead) (c : Instr), sdParse msg = some m →
    (m.type, c) ∈ [(1, .stagedoorRead p ip udp msg), (2, .stagedoorWrite p ip udp msg), (3, .stagedoorSubmit p ip udp msg),
      (6, .keepalive p ip udp msg)] →
    let b := Blk.seat m.seat
    (¬ tagged s p msg m → m.seat < s.model.seats → (∃ q, s.sdBound p q = true) → Answers c s (fun t =>
      t.fld b Reg.Seat.SD_AUTH_FAILS = (s.fld b Reg.Seat.SD_AUTH_FAILS + 1) % 2 ^ Reg.Seat.SD_AUTH_FAILS.width ∧
      t.fld b Reg.Hdr.EVENTS = s.fld b Reg.Hdr.EVENTS ||| 2 ^ 5 ∧
      OnlyWords s t [wordAt b Reg.Seat.SD_AUTH_FAILS, wordAt b Reg.Hdr.EVENTS])) ∧
    (tagged s p msg m → (m.session = 0 → m.type ≠ 6) →
      (m.session ≠ (s.sdOf m.seat).session ∨ (s.sdOf m.seat).session = 0 ∨ (s.sdOf m.seat).fresh m.seq = false) →
      Answers c s (fun t => t.sdOf m.seat = { s.sdOf m.seat with heardAt := s.render.tick } ∧
        t.fld b Reg.Seat.SD_REPLAYS = (s.fld b Reg.Seat.SD_REPLAYS + 1) % 2 ^ Reg.Seat.SD_REPLAYS.width ∧
        (t.fld b Reg.Hdr.EVENTS).testBit 5 = true))) ∧
  (∀ (s : State) (p ip udp : Nat) (msg : List Byte) (m : SdHead), sdParse msg = some m → tagged s p msg m → m.type = 6 →
    m.session = 0 → (s.sdOf m.seat).waiting = [] →
    ((s.sdOf m.seat).session = 0 → Answers (.keepalive p ip udp msg) s (fun t => (t.sdOf m.seat).session ≠ 0 ∧
      t.fld (.seat m.seat) Reg.Seat.SD_SESSION = (t.sdOf m.seat).session ∧ (t.sdOf m.seat).highest = 0 ∧
      (t.sdOf m.seat).window = [] ∧ (t.sdOf m.seat).unacked = [] ∧ (t.sdOf m.seat).txSeq = 1)) ∧
    ((s.sdOf m.seat).session ≠ 0 → Answers (.keepalive p ip udp msg) s (fun t =>
      t.sdOf m.seat = { s.sdOf m.seat with heardAt := s.render.tick, txSeq := (s.sdOf m.seat).txSeq + 1 }))) ∧
  (∀ (s : State) (p ip udp : Nat) (msg : List Byte) (m : SdHead), accepted s p msg m →
    let d := after s m
    (m.type = 6 → Answers (.keepalive p ip udp msg) s (fun t => t.sdOf m.seat = d)) ∧
    (∀ (n q : Nat) (b : Buffer), m.type = 1 → m.count = some n → m.word 0 % 4 = 2 → s.buffer (m.word 2) = some b →
      b.seat = m.seat → m.word 1 + 4 * n ≤ b.size → s.controlQueue p = some q → s.hasEth p = true →
      let ws := (List.range n).map (fun k => word32 (b.read (m.word 1 + 4 * k) 4))
      Answers (.stagedoorRead p ip udp msg) s (fun t => t.sdOf m.seat = { d with txSeq := d.txSeq + 1 } ∧
        (t.eth p).queue q = (s.eth p).queue q ++
          [{ len := 86 + 4 * n, body := .stagedoor m.seat 1 1 (d.txSeq + 1) d.inOrder d.session ws }])) ∧
    (∀ (n k : Nat) (u : Cmd), m.type = 2 → m.count = some n → m.word 0 % 4 = 1 → m.payload.length = 12 + 4 * n →
      s.cmdOf m.seat (m.word 2) = some u → u.seat = m.seat → u.sourceAt = some k → u.final = false → u.n k % 4 = 2 →
      m.word 1 + 4 * n ≤ u.n (k + 3) →
      Answers (.stagedoorWrite p ip udp msg) s (fun t => t.sdOf m.seat = { d with txSeq := d.txSeq + 1 } ∧
        ∃ v, t.cmdOf m.seat (m.word 2) = some v ∧ v.upAt = s.render.tick ∧
          ∀ j, j < 4 * n → Map.get none (m.word 1 + j) v.upload = m.payload[12 + j]?)) ∧
    (let i := m.word 0 % 4
      let b := Blk.seat m.seat
      let tail := s.fld b (Reg.Seat.SQ_TAIL i)
      m.type = 3 → m.word 0 / 2 ^ 8 % 32 = 1 → m.payload.length = 68 → s.bit b (Reg.Seat.SQ_EN i) = true →
      2 ≤ s.fld b (Reg.Seat.SQ_SIZE i) → (tail + 1) % s.fld b (Reg.Seat.SQ_SIZE i) ≠ s.fld b (Reg.Seat.SQ_HEAD i) →
      Answers (.stagedoorSubmit p ip udp msg) s (fun t => t.sdOf m.seat = d ∧
        Map.get [] (256 * i + tail) (t.seat m.seat).sdRing =
          (List.range 16).map (fun k => BitVec.ofNat 32 (m.word (1 + k))) ∧
        t.fld b (Reg.Seat.SQ_TAIL i) = (tail + 1) % s.fld b (Reg.Seat.SQ_SIZE i) % 256))) ∧
  (∀ (s : State) (seat : Nat), seat < s.model.seats → s.isStagedoor seat = true →
    let d := s.sdOf seat
    let p := s.bindIndex seat
    (∀ (m : SdMessage) (q : Nat), d.unacked = [m] → m.sentAt + s.fs / 20 ≤ s.render.tick → s.controlQueue p = some q →
      s.hasEth p = true → Answers (.stagedoorResend seat) s (fun t =>
        t.sdOf seat = { d with unacked := [{ m with sentAt := s.render.tick }] } ∧
        (t.eth p).queue q = (s.eth p).queue q ++
          [{ len := 86 + 4 * m.payload.length, body := .stagedoor seat m.type 0 m.seq d.inOrder d.session m.payload }] ∧
        OnlyWords { s with net := t.net, seats := t.seats } t [])) ∧
    (d.session ≠ 0 → d.keptAt + s.fs / 2 ≤ s.render.tick → Answers (.keepaliveSend seat) s (fun t =>
      t.sdOf seat = { d with keptAt := s.render.tick, txSeq := d.txSeq + 1 } ∧
      OnlyWords { s with net := t.net, seats := t.seats } t [])))

/-- The Prompters, and the contacts and timecode they read (R426 to R437). -/
def Obligations.PromptersContactsAndTimecode : Prop :=
  let blk := Blk.prompter
  let pc := fun (s : State) (n : Nat) => s.fld (blk n) Reg.Prompter.PC
  (∀ (s : State) (n len : Nat) (i : CueInstr), s.prMay n = true →
    cueDecode (s.prWords n (pc s n)) = some (i, len) → pc s n + len < 4096 →
    ((s.prBegin n).pr n).used < 63 → ((s.prBegin n).pr n).runOver = false →
    let at_ := pc s n
    let next := at_ + len
    let e := s.pr n
    let mark := s.prMark n
    let only := fun (t : State) (ws : List Nat) => (∀ m, m ≠ n → t.pr m = s.pr m) ∧
      OnlyWords { s with prompters := t.prompters } t (wordAt (blk n) Reg.Prompter.STATE ::
        wordAt (blk n) Reg.Prompter.CALL_DEPTH :: ws)
    let marks := [wordAt (blk n) Reg.Prompter.MARK_LO, wordAt (blk n) Reg.Prompter.MARK_HI]
    let goes := fun (t : State) (to_ : Nat) => pc t n = to_ ∧ t.prState n = s.prState n ∧
      (t.pr n).used = ((s.prBegin n).pr n).used + 1
    let passed := fun (target : Nat) (t : State) => pc t n = next ∧ t.prState n = 1 ∧
      t.fld (blk n) Reg.Prompter.WAIT_KIND = 0 ∧ t.prMark n = target
    let waits := fun (kind : Nat) (target : Option Nat) (t : State) => pc t n = at_ ∧ t.prState n = 2 ∧
      t.fld (blk n) Reg.Prompter.WAIT_KIND = kind ∧ t.prMark n = mark ∧
      t.fld64 (blk n) Reg.Prompter.TARGET_LO Reg.Prompter.TARGET_HI = target.getD 0
    let timed := fun (c : Instr) (kind target : Nat) => target < 2 ^ 64 →
      (target < s.horizon → Answers c s (fun t => passed target t ∧ only t marks)) ∧
      (s.horizon ≤ target → Answers c s (waits kind (some target)))
    let faults := fun (code : Nat) (t : State) => t.prState n = 4 ∧ t.fld (blk n) Reg.Prompter.FAULT = code ∧
      (t.fld (blk n) Reg.Hdr.EVENTS).testBit 2 = true
    let inside := fun (off : Int) (p : Nat) => (at_ : Int) + off = p ∧ p < 4096
    (∀ b, i = .halt b →
      Answers (.cueHalt n) s (fun t => t.prState n = 3 ∧ pc t n = at_ + 1 ∧ (t.fld (blk n) Reg.Hdr.EVENTS).testBit 1 = true ∧
        (b = true → t.fld (blk n) Reg.Prompter.SIGNAL_CODE = 0xFF ∧ (t.fld (blk n) Reg.Hdr.EVENTS).testBit 0 = true)) ∧
      Answers (.prompterRun n) s (fun t => exec (.cueHalt n) s = .next t)) ∧
    (∀ sec ns, i = .waitTime sec ns → timed (.waitTime n) 1 (s.timeTarget (sec * 1000000000 + ns))) ∧
    (∀ a, i = .waitRsi a → timed (.waitRsi n) 2 a) ∧
    (∀ a, i = .waitRsi a → a < 2 ^ 64 → s.horizon ≤ a →
      Answers (.prompterRun n) s (fun t => exec (.waitRsi n) s = .next t)) ∧
    (∀ d, i = .waitRel d → timed (.waitRsi n) 2 ((mark : Int) + d).toNat) ∧
    (∀ g l, i = .waitTc g l → (∀ a, s.tcTarget g l = some a → timed (.waitTc n) 3 a) ∧
      (s.tcTarget g l = none → Answers (.waitTc n) s (waits 3 none))) ∧
    (∀ g k, i = .waitGpio g k → (∀ a, e.edge = some a → a < 2 ^ 64 → Answers (.waitGpio n) s (passed a)) ∧
      (e.edge = none → Answers (.waitGpio n) s (waits 4 none))) ∧
    (∀ g k, i = .waitFlag g k →
      ((s.fld (blk n) Reg.Prompter.FLAGS).testBit k = true → s.prBlock * s.blockSize < 2 ^ 64 →
        Answers (.waitFlag n) s (fun t => passed (s.prBlock * s.blockSize) t ∧
          (t.fld (blk n) Reg.Prompter.FLAGS).testBit k = !g)) ∧
      ((s.fld (blk n) Reg.Prompter.FLAGS).testBit k = false → Answers (.waitFlag n) s (waits 5 none))) ∧
    (∀ (mask a : Nat) (w : Bool), (∃ d, i = .strobeMark mask d ∧ a = ((mark : Int) + d).toNat ∧ w = false) ∨
        (i = .strobeRsi mask a ∧ w = false) ∨ (i = .strobeNext mask ∧ a = 0 ∧ w = true) → mask % 2 ^ 32 ≠ 0 →
      (∀ g, g < 32 → mask.testBit g = true → s.mayUseGroup n g = true) →
      (∀ c ∈ s.fab.commits, (c.pending = false ∨ c.mask &&& mask = 0) ∧ c.serial ≠ nextSerial s.fab.serial) →
      Answers (.strobe n) s (fun t => goes t next ∧ t.fld (blk n) Reg.Prompter.STROBE_STATE = updPreparing ∧
        ∃ c, t.fab.commits = s.fab.commits ++ [c] ∧ c.serial = nextSerial s.fab.serial ∧ c.seat = n ∧ c.by_ = .prompter ∧
          c.mask = mask ∧ c.at_ = a ∧ c.next = w)) ∧
    (∀ addr value, i = .write addr value none →
      let u := (s.prBegin n).setPr n { (s.prBegin n).pr n with used := ((s.prBegin n).pr n).used + 1 }
      let r := u.tryWrite (.prompter n) addr (BitVec.ofNat 32 value) (addr % 4 = 0)
      (r.2 = true → Answers (.cueWrite n) s (fun t => t = ((r.1.prGoto n next).prAfter n).settled)) ∧
      (r.2 = false → Answers (.cueWrite n) s (fun t => goes t next ∧ (t.fld (blk n) Reg.Hdr.EVENTS).testBit 8 = true))) ∧
    (∀ clear o flags count, i = .motion clear o flags count → 1 ≤ count → count ≤ 1024 → o + count ≤ s.nowObjects →
      s.lockPri = false → (∀ k, o ≤ k → k < o + count → s.mayWrite n (.obj k) = true) →
      Answers (if clear then .cueMotionClear n else .cueMotionSet n) s (fun t => goes t next ∧
        (∀ k, o ≤ k → k < o + count → t.obj k = if clear then { s.obj k with flagClr := (s.obj k).flagClr ||| flags % 256 }
          else { s.obj k with flagSet := (s.obj k).flagSet ||| flags % 256 }) ∧
        (∀ k, k < o ∨ o + count ≤ k → t.obj k = s.obj k) ∧
        t.fld (blk n) Reg.Hdr.EVENTS = s.fld (blk n) Reg.Hdr.EVENTS)) ∧
    (∀ code, i = .signalHost code → Answers (.signalHost n) s (fun t => goes t next ∧
      (t.fld (blk n) Reg.Hdr.EVENTS).testBit 0 = true ∧ t.fld (blk n) Reg.Prompter.SIGNAL_CODE = code ∧
      t.fld64 (blk n) Reg.Prompter.SIGNAL_AT_LO Reg.Prompter.SIGNAL_AT_HI = mark)) ∧
    (∀ flag to_, i = .signalFlag flag to_ →
      let admits := to_ < s.model.prompters ∧ (s.fld (blk to_) Reg.Prompter.FLAG_ACCEPT).testBit n = true
      (admits → (s.pr to_).clearedIn ≠ s.prBlock + 1 → Answers (.signalFlag n) s (fun t => goes t next ∧
        t.fld (blk to_) Reg.Prompter.FLAGS = s.fld (blk to_) Reg.Prompter.FLAGS ||| 2 ^ flag ∧
        only t [wordAt (blk to_) Reg.Prompter.FLAGS])) ∧
      (¬ admits → Answers (.signalFlag n) s (fun t => goes t next ∧ (t.fld (blk n) Reg.Hdr.EVENTS).testBit 8 = true))) ∧
    (∀ off cond inv, i = .branch off cond inv →
      (s.condWaits n cond = true → Answers (.branchIf n) s (waits 6 none)) ∧
      (∀ p, s.condWaits n cond = false → (if s.prCond n cond != inv then inside off p else p = next) →
        Answers (.branchIf n) s (fun t => pc t n = p ∧ t.prState n = 1 ∧ only t []))) ∧
    (∀ off p, i = .jump off → inside off p → Answers (.cueJump n) s (fun t => goes t p ∧ only t [])) ∧
    (∀ off, i = .jump off → (at_ : Int) + off < 0 ∨ 4096 ≤ (at_ : Int) + off → Answers (.cueJump n) s (faults 5)) ∧
    (∀ off p, i = .call off → inside off p →
      (e.calls.length < 8 → Answers (.call n) s (fun t => goes t p ∧ (t.pr n).calls = next :: e.calls ∧
        t.fld (blk n) Reg.Prompter.CALL_DEPTH = e.calls.length + 1 ∧ only t [])) ∧
      (8 ≤ e.calls.length → Answers (.call n) s (faults 1))) ∧
    (i = .ret → (∀ a rest, e.calls = a :: rest → a < 4096 → Answers (.ret n) s (fun t => goes t a ∧ (t.pr n).calls = rest ∧
        only t [])) ∧
      (e.calls = [] → Answers (.ret n) s (faults 2))) ∧
    (∀ count, i = .loop count →
      (e.loops.length < 4 → Answers (.cueLoop n) s (fun t => goes t next ∧ (t.pr n).loops = (next, count) :: e.loops ∧
        only t [])) ∧
      (4 ≤ e.loops.length → Answers (.cueLoop n) s (faults 3))) ∧
    (i = .loopEnd → (e.loops = [] → Answers (.cueLoopEnd n) s (faults 4)) ∧
      ∀ a left rest, e.loops = (a, left) :: rest → a < 4096 → Answers (.cueLoopEnd n) s (fun t => only t [] ∧
        (left = 1 → goes t next ∧ (t.pr n).loops = rest) ∧ (left ≠ 1 → goes t a ∧ (t.pr n).loops = (a, left - 1) :: rest)))) ∧
  (∀ (s : State) (n : Nat), s.prMay n = false → Answers (.prompterRun n) s (OnlyWords s · [])) ∧
  (∀ (s : State) (n bits : Nat), n < s.model.prompters →
    Answers (.prompterStart n) s (fun t => (t.pr n).ask = some true ∧ t.prState n = s.prState n) ∧
    Answers (.prompterStop n) s (fun t => (t.pr n).ask = some false ∧ t.prState n = s.prState n) ∧
    ((s.pr n).clearedIn ≠ s.prBlock + 1 → Answers (.cueFlagsSet n bits) s (fun t =>
      t.fld (blk n) Reg.Prompter.FLAGS = s.fld (blk n) Reg.Prompter.FLAGS ||| bits % 65536 ∧
      OnlyWords s t [wordAt (blk n) Reg.Prompter.FLAGS])) ∧
    Answers (.cueFlagsClr n bits) s (fun t => ∀ k, (t.fld (blk n) Reg.Prompter.FLAGS).testBit k =
      ((s.fld (blk n) Reg.Prompter.FLAGS).testBit k && !(bits % 65536).testBit k))) ∧
  (∀ (s : State) (k : Nat) (level : Bool), k < 16 → (s.pin k).raw ≠ level → Answers (.gpioChange k level) s (fun t =>
    t.pin k = { s.pin k with
      raw := level, tick := s.render.tick + 1, since := if level = (s.pin k).level then none else some (s.render.rsi + 1) } ∧
    OnlyWords { s with gpio := t.gpio } t [])) ∧
  (∀ (s : State) (k a : Nat), k < 16 → (s.pin k).since = some a → a < 2 ^ 64 →
    let g := Blk.prompterGlobal
    let high := (s.pin k).raw != (s.fld g Reg.PrompterGlobal.GPIO_POL).testBit k
    (s.pin k).tick + s.rampSamples (s.fld g (Reg.PrompterGlobal.DEBOUNCE k)) ≤ s.render.tick → Answers (.debouncedEdge k) s (fun t =>
      t.pin k = { s.pin k with level := (s.pin k).raw, since := none } ∧
      (t.fld g Reg.PrompterGlobal.GPIO_LEVEL).testBit k = high ∧ (t.fld g Reg.PrompterGlobal.GPIO_EDGE_DIR).testBit k = high ∧
      t.fld64 g (Reg.PrompterGlobal.EDGE_AT_LO k) (Reg.PrompterGlobal.EDGE_AT_HI k) = a ∧
      (t.fld g Reg.Hdr.EVENTS).testBit 3 = true)) ∧
  (∀ (s : State) (label stamp rate user : Nat) (reverse : Bool), rate < 4 →
    let g := Blk.prompterGlobal
    let f := tcFrame rate label % tcDay rate
    let day := tcDay rate
    s.bit g Reg.PrompterGlobal.TC_EN = true → Answers (.tcWord label stamp rate reverse user) s (fun t =>
      t.fld g Reg.PrompterGlobal.TC_LABEL = label % 2 ^ 32 ∧ t.fld g Reg.PrompterGlobal.TC_RATE = rate ∧
      t.tc.frame = some f ∧ t.tc.stamp = stamp ∧
      (s.tc.frame = none → t.tc.words = 1) ∧
      (∀ o, s.tc.frame = some o → (if reverse then (o + day - f) % day else (f + day - o) % day) = 1 →
        t.tc.words = s.tc.words + 1 ∧ t.tc.period = some ((stamp : Int) - s.tc.stamp) ∧
        (s.tc.words = 7 → t.bit g Reg.PrompterGlobal.TC_LOCKED = true)) ∧
      (∀ o, s.tc.frame = some o → (if reverse then (o + day - f) % day else (f + day - o) % day) ≠ 1 →
        t.tc.words = 1 ∧ (t.fld g Reg.Hdr.EVENTS).testBit 2 = true))) ∧
  (∀ s : State, s.bit .prompterGlobal Reg.PrompterGlobal.TC_LOCKED = true → Answers .tcLoss s (fun t =>
    t.bit .prompterGlobal Reg.PrompterGlobal.TC_LOCKED = false ∧ t.tc.words = 0 ∧ t.tc.frame = none ∧
    (t.fld .prompterGlobal Reg.Hdr.EVENTS).testBit 1 = true))

/-- The Callboard's commands (R450 to R464). -/
def Obligations.Callboard : Prop :=
  (∀ (s : State) (src : Nat), src < 2048 →
    (banked src = false → Answers (.sourceChange src) s (fun t =>
      (∀ q, t.levelOf src q = s.sourceLevel src 0) ∧
      (t.fld .callGlobal (Reg.CallGlobal.LEVEL (src / 32))).testBit (src % 32) = s.sourceLevel src 0 ∧
      (s.sourceLevel src 0 = true → ∀ q v, q < 8 → s.vectorOf q src = some v →
        (t.fld64 (.callSeat q) Reg.CallSeat.VEC_PEND_LO Reg.CallSeat.VEC_PEND_HI).testBit v = true) ∧
      (s.sourceLevel src 0 = false → (∀ q, q < 8 → s.vectorOf q src = none) →
        OnlyWords { s with levels := t.levels } t [wordAt .callGlobal (Reg.CallGlobal.LEVEL (src / 32))]))) ∧
    (banked src = true → Answers (.sourceChange src) s (fun t => ∀ q, q < 8 → t.levelOf src q = s.sourceLevel src q))) ∧
  (∀ (s : State) (seat v : Nat), seat < 8 → v < 64 →
    let b := Blk.callSeat seat
    let w := s.vec seat v
    let n := (s.pendingOn seat v).headD 0
    let over_ := s.heldFor w (s.fld b (Reg.CallSeat.MOD_HOLDOFF v))
    (0 < w.count → over_ = true → Answers (.holdoffExpire seat v) s (fun t => t.vec seat v = { w with heldOff := true })) ∧
    (w.count = 0 ∨ over_ = false → Answers (.holdoffExpire seat v) s (OnlyWords s · [])) ∧
    (s.vecReady seat v = false → Answers (.delivery seat v) s (OnlyWords s · [])) ∧
    (s.vecReady seat v = true → s.doorbells seat = true → Answers (.delivery seat v) s (fun t =>
      (t.callOf seat).bell = some (v, n) ∧ (t.callOf seat).bells = (s.callOf seat).bells + 1 ∧
      (t.vec seat v).service = some n ∧ (t.vec seat v).count = 0 ∧
      (t.fld64 b Reg.CallSeat.VEC_INSERVICE_LO Reg.CallSeat.VEC_INSERVICE_HI).testBit v = true ∧
      (s.bit b Reg.CallSeat.CFG_STORM_EN = true →
        s.fld b Reg.CallSeat.STORM_LIMIT ≤ 1 + (w.times.filter (fun a => decide (s.render.tick < a + s.msTicks))).length →
        t.masked seat v = true ∧ (t.fld b Reg.Hdr.EVENTS).testBit 0 = true ∧
        (t.fld64 b Reg.CallSeat.VEC_STORM_LO Reg.CallSeat.VEC_STORM_HI).testBit v = true))) ∧
    (s.vecReady seat v = true → s.doorbells seat = false → s.bit b Reg.CallSeat.CFG_STORM_EN = false →
      Answers (.delivery seat v) s (fun t => (t.callOf seat).pin = true ∧ (t.vec seat v).told = true ∧
        (t.callOf seat).bells = (s.callOf seat).bells))) ∧
  (∀ (s : State) (seat src : Nat), seat < 8 →
    ((∀ v, v < 64 → (s.vec seat v).service ≠ some src) → Answers (.eoi seat src) s (OnlyWords s · [])) ∧
    (∀ v, v < 64 → (s.vec seat v).service = some src → (∀ u, u < 64 → u ≠ v → (s.vec seat u).service ≠ some src) →
      (src ∈ s.pendingOn seat v → s.mayRing seat v = true → Answers (.eoi seat src) s (fun t =>
        (t.vec seat v).service = some src ∧
        (t.callOf seat).bell = some (v, src) ∧ (t.callOf seat).bells = (s.callOf seat).bells + 1)) ∧
      (src ∉ s.pendingOn seat v ∨ s.mayRing seat v = false → Answers (.eoi seat src) s (fun t =>
        (t.vec seat v).service = none ∧ (t.callOf seat).bells = (s.callOf seat).bells ∧
        (t.vec seat v).count = max (s.vec seat v).count (s.pendingOn seat v).length ∧
        (t.fld64 (.callSeat seat) Reg.CallSeat.VEC_INSERVICE_LO Reg.CallSeat.VEC_INSERVICE_HI).testBit v = false)))) ∧
  (∀ (s : State) (seat : Nat), seat < s.model.seats → seat < 8 →
    let g := Reg.CallSeat.CFG_GATE
    let b := Blk.seat seat
    let staged := fun (t : State) => { s with fab := { s.fab with stg := t.fab.stg } }
    Answers (.gate seat false) s (fun t => t.bit (.callSeat seat) g = false ∧ (t.callOf seat).pin = false) ∧
    (s.doorbells seat = true → s.bit (.callSeat seat) Reg.CallSeat.CFG_STORM_EN = false →
      Answers (.gate seat true) s (fun t => t.bit (.callSeat seat) g = true ∧
        ∀ v, v < 64 → (s.setBoth (.callSeat seat) g 1).vecReady seat v = true → (t.vec seat v).service.isSome = true)) ∧
    Answers (.sleepReq seat) s (fun t => t.bit b Reg.Seat.CTRL_SLEEP_REQ = true ∧
      (∀ q, t.seat q = if q = seat ∧ s.bit b Reg.Seat.CTRL_SLEEP_REQ = false then
        { s.seat q with sleepAt := s.render.tick } else s.seat q) ∧
      OnlyWords { staged t with seats := t.seats } t [wordAt b Reg.Seat.CTRL_SLEEP_REQ]) ∧
    (∀ expired : Bool, s.bit b Reg.Seat.CTRL_SLEEP_REQ = true → s.asleep seat = false →
      s.isStagedoor seat = false ∨ (s.seat seat).sd.unacked = [] ∨
        (expired = true ∧ (s.seat seat).sleepAt + s.fs / 5 ≤ s.render.tick + 1) →
      Answers (.sleepAck seat expired) s (fun t => t.asleep seat = true ∧ (t.callOf seat).pin = false)) ∧
    (∀ expired : Bool, s.bit b Reg.Seat.CTRL_SLEEP_REQ = false → Answers (.sleepAck seat expired) s (OnlyWords s · [])) ∧
    Answers (.sleepEnd seat) s (fun t => t.asleep seat = false ∧ t.bit b Reg.Seat.CTRL_SLEEP_REQ = false ∧
      seat ∉ t.green.wakes))

/-- The greenroom domain and the power states (R466 to R476). -/
def Obligations.GreenroomJacksAndPower : Prop :=
  let g := Blk.greenroom
  let ev := fun (t : State) (i : Nat) => (t.fld g Reg.Hdr.EVENTS).testBit i = true
  (∀ s : State,
    (s.green.crystal = true → s.bit g Reg.Greenroom.CLK_SRC_SEL = false → Answers .clkFail s (fun t =>
      t.green = { s.green with crystal := false } ∧ t.bit g Reg.Greenroom.CLK_ON_RC = true ∧ ev t 2)) ∧
    (s.green.crystal = false ∨ s.bit g Reg.Greenroom.CLK_SRC_SEL = true → Answers .clkFail s (fun t =>
      t.green = { s.green with crystal := false } ∧ OnlyWords { s with green := t.green } t [])) ∧
    Answers .crystalOscillates s (fun t => t.green = { s.green with crystal := true } ∧
      t.bit g Reg.Greenroom.CLK_ON_RC = s.bit g Reg.Greenroom.CLK_SRC_SEL) ∧
    Answers .wakePulse s (fun t => t.green = { s.green with pulseEnd := some (s.render.tick + s.msTicks) } ∧
      (t.fld g Reg.Greenroom.WAKE_DRIVEN).testBit 2 = true) ∧
    (∀ k, k < 16 →
      let sensed := s.fld g Reg.Greenroom.GPIO_DEBOUNCE * s.fs ≤ (s.render.tick + 1 - (s.pin k).tick) * 32768
      ((s.pin k).raw ≠ (s.pin k).green → sensed → Answers (.greenroomGpioEdge k) s (fun t =>
        t.fld g Reg.Greenroom.GPIO_EDGE = s.fld g Reg.Greenroom.GPIO_EDGE ||| 2 ^ k ∧
        t.pin k = { s.pin k with green := (s.pin k).raw } ∧
        OnlyWords { s with gpio := t.gpio } t [wordAt g Reg.Greenroom.GPIO_EDGE])) ∧
      ((s.pin k).raw = (s.pin k).green ∨ ¬ sensed → Answers (.greenroomGpioEdge k) s (OnlyWords s · []))) ∧
    (∀ c code : Nat, c < 8 → Answers (.sarConversion c code) s (fun t =>
      let v := if c = 7 then 0 else code % 4096
      t.fld .jack (Reg.Jack.SAR c) = v ∧
      (c < 2 → t.fld .jack (Reg.Jack.J_DET_LEVEL c) = v ∧ (Map.get (0, 0) c t.green.det).1 = if v < 2048 then 1 else 2) ∧
      ∀ j, c = j + 2 → j < 2 → t.fld .jack (Reg.Jack.J_MIC_LEVEL j) = v ∧ (Map.get (0, 0) j t.green.band).1 = micBand v ∧
        Map.get [] j t.green.mic =
          if s.classifying j = true ∧ (Map.get [] j s.green.mic).length < 4 then v :: Map.get [] j s.green.mic
          else Map.get [] j s.green.mic)) ∧
    (∀ off data, bmcMay off data = false → Answers (.bmcWrite off [data]) s (fun t => t.green.nack = true ∧
      OnlyWords { s with green := t.green } t [])) ∧
    (∀ (e : Nat) (data : Word), e < 32 → Answers (.bmcWrite (0x80 + 4 * e) [data]) s (fun t => t.green.nack = false ∧
      t.fld g (Reg.Greenroom.WATCH_SOURCE e) = data.toNat % 2 ^ 11 ∧
      t.fld g (Reg.Greenroom.WATCH_SEATS e) = data.toNat / 2 ^ 16 % 2 ^ 8 ∧
      t.bit g (Reg.Greenroom.WATCH_MODULE e) = data.getLsbD 24 ∧ t.bit g (Reg.Greenroom.WATCH_EN e) = data.getLsbD 31 ∧
      ev t 4)) ∧
    (∀ off n : Nat, Answers (.bmcRead off n) s (fun t => t.green.nack = (bmcPlace off).isNone ∧
      t.green.answer.length = n ∧ OnlyWords { s with green := t.green } t []))) ∧
  (∀ (s : State) (j : Nat), j < 2 →
    let fld := fun (t : State) (f : Nat → Fld) => t.fld .jack (f j)
    let jev := fun (t : State) (i : Nat) => (t.fld .jack (Reg.Jack.J_EVT_FLAGS j)).testBit i = true
    let inserted := s.bit .jack (Reg.Jack.J_STATUS_INSERTED j)
    let mode := fld s Reg.Jack.J_CTRL_MICBIAS
    let l := Map.get [] j s.green.mic
    let stood := s.detStood j false (fld s Reg.Jack.J_DEBOUNCE_INSERT)
    let tries := Map.get 0 j s.green.tries + 1
    (s.bit .jack (Reg.Jack.J_CTRL_EN j) = true → inserted = false → stood = true → Answers (.insert j) s (fun t =>
      fld t Reg.Jack.J_STATUS_INSERTED = 1 ∧ fld t Reg.Jack.J_STATUS_ACCESSORY = 4 ∧ jev t 0 ∧
      (fld t Reg.Jack.J_STATUS_MICBIAS_ON = if s.lowPower = false ∧ (mode = 1 ∨ mode = 2) then 1 else 0) ∧
      Map.get 0 j t.green.tries = 0 ∧ Map.get [] j t.green.mic = [] ∧ Map.get 0 j t.green.classAt = s.render.tick)) ∧
    (inserted = false ∧ (s.bit .jack (Reg.Jack.J_CTRL_EN j) = false ∨ stood = false) →
      Answers (.insert j) s (OnlyWords s · [])) ∧
    (inserted = true → fld s Reg.Jack.J_STATUS_ACCESSORY = 4 → l.length = 4 → s.lowPower = false →
      let class_ := (accessoryOf (l.foldl (· + ·) 0)).or (if 20 ≤ tries then some 3 else none)
      (class_ = none → Answers (.accessory j) s (fun t => fld t Reg.Jack.J_STATUS_ACCESSORY = 4 ∧
        Map.get 0 j t.green.tries = tries ∧ OnlyWords { s with green := t.green } t [])) ∧
      (∀ a, class_ = some a → Answers (.accessory j) s (fun t => fld t Reg.Jack.J_STATUS_ACCESSORY = a ∧ jev t 2 ∧
        (fld t Reg.Jack.J_STATUS_MICBIAS_ON = if mode = 2 ∨ (mode = 1 ∧ a = 2) then 1 else 0)))) ∧
    (inserted = true → s.detStood j true 20 = true → Answers (.remove j) s (fun t => fld t Reg.Jack.J_STATUS_INSERTED = 0 ∧
      fld t Reg.Jack.J_STATUS_ACCESSORY = 0 ∧ fld t Reg.Jack.J_STATUS_BUTTON = 0 ∧ jev t 1 ∧
      (fld s Reg.Jack.J_STATUS_BUTTON ≠ 0 → jev t 4))) ∧
    (∀ k, s.stoodIn j = k → 1 ≤ k → k ≤ 4 → fld s Reg.Jack.J_STATUS_BUTTON ≠ k →
      Answers (.press j) s (fun t => fld t Reg.Jack.J_STATUS_BUTTON = k ∧ jev t 3)) ∧
    (s.stoodIn j = 0 ∨ 5 ≤ s.stoodIn j → Answers (.press j) s (OnlyWords s · [])) ∧
    (s.stoodIn j = 5 → fld s Reg.Jack.J_STATUS_BUTTON ≠ 0 →
      Answers (.buttonRelease j) s (fun t => fld t Reg.Jack.J_STATUS_BUTTON = 0 ∧ jev t 4)) ∧
    (s.stoodIn j ≠ 5 → Answers (.buttonRelease j) s (OnlyWords s · []))) ∧
  (∀ s : State, s.lowPower = false → s.green.entry = none →
    (s.pwrReasons = [] → Answers .pwrTargetStandby s (fun t =>
        t.green = { s.green with entry := some (2, s.render.rsi), abort := false } ∧ t.fld g Reg.Greenroom.PWR_TARGET = 2) ∧
      Answers .pwrTargetDormant s (fun t => t.fld g Reg.Greenroom.PWR_STATE = 3 ∧ t.pool.bufs = [] ∧ t.stopped = true)) ∧
    (∀ (r : Nat) (c : Instr), s.pwrReasons = [r] → c = .pwrTargetStandby ∨ c = .pwrTargetDormant → Answers c s (fun t =>
      t.fld g Reg.Greenroom.PWR_REFUSE = r ∧ ev t 1 ∧ t.fld g Reg.Greenroom.PWR_STATE = s.fld g Reg.Greenroom.PWR_STATE ∧
      t.green = s.green)) ∧
    Answers .pwrTargetActive s (fun t => t.fld g Reg.Greenroom.PWR_TARGET = 0 ∧
      OnlyWords { s with fab := { s.fab with stg := t.fab.stg } } t [wordAt g Reg.Greenroom.PWR_TARGET])) ∧
  (∀ (s : State) (e : Nat × Nat), s.green.entry = some e → s.stopped = true →
    (s.green.abort = false → Answers .standbyEntered s (fun t => t.fld g Reg.Greenroom.PWR_STATE = 2 ∧
      t.green.entry = none ∧ t.green.saved = some s.olderSlot)) ∧
    (s.green.abort = true → Answers .standbyEntered s (fun t => t.fld g Reg.Greenroom.PWR_STATE = 1 ∧
      t.green.entry = none ∧ t.fld g Reg.Greenroom.PWR_REFUSE = 4 ∧ ev t 1))) ∧
  (∀ s : State, s.green.entry = none → Answers .standbyEntered s (OnlyWords s · [])) ∧
  (∀ s : State,
    let woken := fun (cause : Nat) (t : State) => t.fld g Reg.Greenroom.PWR_STATE = 1 ∧ ev t 0 ∧
      t.fld g Reg.Greenroom.WAKE_CAUSE_ENTRY = cause ∧ t.fld g Reg.Greenroom.WAKE_CAUSE_VALID = 1
    (s.lowPower = true → s.dead = false → Answers .pwrTargetActive s (woken 0x21)) ∧
    (s.lowPower = true → s.dead = false → (s.fld g Reg.Greenroom.WAKE_DRIVEN).testBit 2 = false → Answers (.wakeIn true) s (woken 0x20)) ∧
    (s.lowPower = false → Answers (.wakeIn true) s (fun t => t.fld g Reg.Greenroom.WAKE_IN = 1 ∧ ev t 3)) ∧
    Answers (.wakeIn false) s (fun t => t.fld g Reg.Greenroom.WAKE_IN = 0 ∧ OnlyWords s t [wordAt g Reg.Greenroom.WAKE_IN]) ∧
    (∀ e, e < 32 → s.bit g (Reg.Greenroom.WATCH_EN e) = true → s.bit g (Reg.Greenroom.WATCH_MODULE e) = true →
      let src := s.fld g (Reg.Greenroom.WATCH_SOURCE e)
      greenSource src = true → s.sourceLevel src 0 = true →
      (s.lowPower = true → s.dead = false → Answers (.moduleWake e) s (woken e)) ∧
      (s.fld g Reg.Greenroom.PWR_STATE = 2 → s.dead = false → Answers (.moduleWake e) s (fun t =>
        ∀ q, q < 8 → (s.fld g (Reg.Greenroom.WATCH_SEATS e)).testBit q = true → q ∈ t.green.wakes)) ∧
      (s.lowPower = false ∨ s.dead = true → Answers (.moduleWake e) s (OnlyWords s · []))))

/-- Twin states and the Ndodom link (R478 to R508). -/
def Obligations.TwinsAndNdodom : Prop :=
  let w := Blk.twin
  let n := Blk.ndodom
  let ev := fun (t : State) (b : Blk) (i : Nat) => (t.fld b Reg.Hdr.EVENTS).testBit i = true
  let onlyTwin := fun (s t : State) => OnlyWords { s with twin := t.twin } t []
  (∀ (s : State) (m : Nat),
    (3 ≤ m ∨ (m = 2 ∧ s.model.lockstep = false) → s.bit w Reg.Hdr.ERR_VALID = false → Answers (.mode m) s (fun t =>
      t.fld w Reg.Hdr.ERR_REASON = (if 3 ≤ m then eEncoding else eAbsent) ∧ OnlyWords s t [wordAt w Reg.Hdr.ERR_VALID])) ∧
    (m < 2 ∨ (m = 2 ∧ s.model.lockstep = true) →
      (s.attached = true ∨ m = s.twin.mode → Answers (.mode m) s (fun t => t.fld w Reg.Twin.CFG_MODE = m ∧
        t.twin = s.twin ∧ t.tw = s.tw)) ∧
      (s.attached = false → m ≠ s.twin.mode → Answers (.mode m) s (fun t => t.fld w Reg.Twin.CFG_MODE = m ∧
        t.twin.mode = m ∧ t.tw = if m = 0 then Tw.off
          else if s.twin.mode = 0 then (if s.bit w Reg.Twin.TWINID then Tw.wait else Tw.alone) else s.tw)))) ∧
  (∀ (s : State) (claim serial : Nat), claim < 256 →
    let won := decide (s.claim ≠ 0 ∧ arbWord claim serial ≤ s.ownWord)
    Answers (.claimCycle claim serial) s (fun t => t.twin.won = won ∧ t.twin.cycleAt = s.render.tick ∧
      t.fld w Reg.Twin.CLAIM_SEEN = (if s.claim = 0 ∧ claim = 0 then 0 else max s.ownWord (arbWord claim serial) / 2 ^ 16 % 256) ∧
      (won = false → openState s.tw = true → s.tw ≠ Tw.taking → ev t w 6 ∧ t.bit w Reg.Twin.CLAIM_EGRESS_OPEN = false ∧
        t.tw = if s.tw = Tw.lockPri ∧ s.bit n Reg.Ndodom.STATUS_LINK = true then Tw.lockUnd else Tw.wait) ∧
      (won = true → openState s.tw = true → s.tw ≠ Tw.taking → s.twin.tie = false → s.twin.barred = none →
        t.bit w Reg.Twin.CLAIM_EGRESS_OPEN = true ∧ t.tw = s.tw))) ∧
  (∀ s : State,
    let passed := 100 * s.fs ≤ (s.render.tick + 1 - s.twin.cycleAt) * 1000000
    (passed → Answers .claimSeenTimeout s (fun t => t.fld w Reg.Twin.CLAIM_SEEN = 0 ∧
      (s.fld w Reg.Twin.CLAIM_SEEN ≠ 0 → ev t .greenroom 7))) ∧
    (¬ passed → Answers .claimSeenTimeout s (OnlyWords s · []))) ∧
  (∀ (s : State) (low : Bool), s.twin.peerpres ≠ low → Answers (.peerpresChange low) s (fun t => t.twin.peerpres = low ∧
    t.bit w Reg.Twin.PEERPRES = low ∧ ev t .greenroom 6 ∧
    (low = true → t.bit n Reg.Ndodom.STATUS_TRAINING = (s.bit n Reg.Ndodom.CFG_EN && !s.bit n Reg.Ndodom.STATUS_LINK)) ∧
    (low = false → t.bit n Reg.Ndodom.STATUS_LINK = false ∧ t.bit n Reg.Ndodom.STATUS_TRAINING = false))) ∧
  (∀ (s : State) (lanes latency : Nat),
    let up := lanes &&& s.fld n Reg.Ndodom.CFG_LANE_EN
    (s.bit n Reg.Ndodom.STATUS_TRAINING = true → up ≠ 0 → Answers (.ndodomUp lanes latency) s (fun t =>
      t.bit n Reg.Ndodom.STATUS_LINK = true ∧ t.fld n Reg.Ndodom.STATUS_LANES_UP = up ∧
      t.bit n Reg.Ndodom.STATUS_TRAINING = false ∧ t.fld n Reg.Ndodom.LATENCY = min latency 65535 ∧ ev t n 0 ∧
      t.twin.out = [s.identity])) ∧
    (s.bit n Reg.Ndodom.STATUS_TRAINING = false ∨ up = 0 → Answers (.ndodomUp lanes latency) s (OnlyWords s · []))) ∧
  (∀ (s : State) (lane : Nat),
    (s.bit n Reg.Ndodom.STATUS_LINK = true → Answers .ndodomDown s (fun t => t.bit n Reg.Ndodom.STATUS_LINK = false ∧
      t.fld n Reg.Ndodom.STATUS_LANES_UP = 0 ∧ ev t n 1 ∧
      t.fld n Reg.Ndodom.LINK_DOWNS = (s.fld n Reg.Ndodom.LINK_DOWNS + 1) % 2 ^ 32 ∧
      t.tw = if s.tw = Tw.joinPri ∨ s.tw = Tw.coldPri ∨ s.tw = Tw.lockPri then Tw.alone
        else if s.tw = Tw.coldUnd ∨ s.tw = Tw.ship ∨ s.tw = Tw.replay then Tw.wait else s.tw)) ∧
    (lane < 2 → s.fld n Reg.Ndodom.STATUS_LANES_UP = 3 → Answers (.laneLost lane) s (fun t =>
      t.fld n Reg.Ndodom.STATUS_LANES_UP = 2 - lane ∧ ev t n 2)) ∧
    (s.fld n Reg.Ndodom.STATUS_LANES_UP = 1 ∨ s.fld n Reg.Ndodom.STATUS_LANES_UP = 2 → s.fld n Reg.Ndodom.CFG_LANE_EN = 3 →
      Answers .laneBack s (fun t => t.fld n Reg.Ndodom.STATUS_LANES_UP = 3 ∧ ev t n 3))) ∧
  (∀ s : State, s.bit n Reg.Ndodom.STATUS_LINK = false → ∀ f, Answers (.ndodomFrame f) s (OnlyWords s · [])) ∧
  (∀ s : State, s.bit n Reg.Ndodom.STATUS_LINK = true →
    (∀ v fw serial m rate block : Nat, Answers (.ndodomFrame (.identity v fw serial m rate block)) s (fun t =>
      t.fld n Reg.Ndodom.PEER_VARIANT = v % 2 ^ 32 ∧ t.fld n Reg.Ndodom.PEER_FW = fw % 2 ^ 32 ∧
      t.twin = { s.twin with peerMode := m, peerRate := rate, peerBlock := block, peerSerial := serial })) ∧
    (s.tw = Tw.wait → Answers (.ndodomFrame .join) s (fun t => t.tw = Tw.ship ∧ t.twin.journal = [])) ∧
    (s.attached = true → Answers (.ndodomFrame .detach) s (fun t => t.twin = { s.twin with detach := some none } ∧
      onlyTwin s t)) ∧
    (∀ at_, s.tw = Tw.lockUnd → Answers (.ndodomFrame (.handover at_)) s (fun t =>
      t.twin = { s.twin with handover := some (at_, none) } ∧ onlyTwin s t)) ∧
    (∀ x : InSample, undState s.tw = true → Answers (.ndodomFrame (.mirrored [x])) s (fun t =>
      t.sample { type := x.type, unit := x.unit, chan := x.chan } x.at_ = x.v ∧ OnlyWords { s with samples := t.samples } t [])) ∧
    (s.tw = Tw.joinPri → s.twin.join = none → Answers (.ndodomFrame .joined) s (fun t => ev t w 3 ∧
      t.twin.byTake = false ∧ t.tw = if s.twin.mode = 2 then Tw.lockPri else Tw.coldPri)) ∧
    (s.tw = Tw.lockPri → Answers (.ndodomFrame .joined) s (fun t => ev t w 3 ∧ OnlyWords s t [wordAt w Reg.Hdr.EVENTS])) ∧
    (s.lockPri = true → Answers (.ndodomFrame .resync) s (fun t => t.twin = { s.twin with freeze := true } ∧ onlyTwin s t))) ∧
  (∀ s : State,
    let beat := PeerFrame.heartbeat s.tw (s.fld w Reg.Twin.ROLE) s.claim Config.serial s.render.rsi s.render.m0
      (s.twin.crcs.headD (0, 0)).1 (s.twin.crcs.headD (0, 0)).2 s.causes s.device
    let p := s.fld w Reg.Twin.NET_HB_PORT
    let old := s.twin
    let m := s.time.m
    let said := (if s.attached = true then [] else [s.identity]) ++ [beat]
    let check := some (m / s.blockSize)
    (old.mode = 0 → Answers .heartbeatSend s (OnlyWords s · []) ∧ Answers .heartbeatCheck s (OnlyWords s · [])) ∧
    (m % s.blockSize ≠ 0 ∨ old.sentAt = some m → Answers .heartbeatSend s (OnlyWords s · [])) ∧
    (old.checkedAt = check → Answers .heartbeatCheck s (OnlyWords s · [])) ∧
    (old.mode ≠ 0 → s.bit n Reg.Ndodom.STATUS_LINK = true → m % s.blockSize = 0 → old.sentAt ≠ some m →
      (s.bit w Reg.Twin.NET_HB_EN = false → Answers .heartbeatSend s (fun t =>
        t.twin = { old with sentAt := some m, out := old.out ++ said } ∧ onlyTwin s t)) ∧
      (∀ q, s.bit w Reg.Twin.NET_HB_EN = true → s.controlQueue p = some q → s.hasEth p = true →
        Answers .heartbeatSend s (fun t => t.twin = { old with sentAt := some m, out := old.out ++ said } ∧
          (t.eth p).queue q = (s.eth p).queue q ++ [{ len := 64, body := .heartbeat s.netHeartbeat }]))) ∧
    (old.mode ≠ 0 → old.checkedAt ≠ check →
      (old.hb = true → Answers .heartbeatCheck s (fun t =>
        t.twin = { old with checkedAt := check, hb := false, misses := 0, hbLost := false } ∧ onlyTwin s t)) ∧
      (old.hb = false → old.misses ≠ 2 → Answers .heartbeatCheck s (fun t =>
        t.twin = { old with checkedAt := check, misses := old.misses + 1, hbLost := old.hbLost || decide (3 ≤ old.misses + 1) } ∧
        onlyTwin s t)) ∧
      (old.hb = false → old.misses = 2 → Answers .heartbeatCheck s (fun t => t.twin.hbLost = true ∧
        t.bit w Reg.Twin.CLAIM_PEER_VALID = false ∧ (undState s.tw = false → t.tw = s.tw))))) ∧
  (∀ (s : State) (pair serial : Nat),
    let ours := pair = s.fld w Reg.Twin.PAIR_ID ∧ serial ≠ Config.serial ∧ s.bit w Reg.Twin.NET_HB_EN = true
    (ours → Answers (.netHbRx pair serial) s (fun t => t.bit w Reg.Twin.NET_HB_OK = true ∧
      t.twin = { s.twin with netAt := s.render.tick })) ∧
    (¬ ours → Answers (.netHbRx pair serial) s (OnlyWords s · [])) ∧
    (s.bit w Reg.Twin.NET_HB_OK = true → s.twin.netAt + 3 * s.blockSize ≤ s.render.tick → Answers .netHbLost s (fun t =>
      t.bit w Reg.Twin.NET_HB_OK = false ∧ ev t w 2))) ∧
  (∀ s : State,
    let take := undState s.tw = true ∧ s.bit w Reg.Twin.CFG_AUTO_TAKE = true ∧ s.takeConds.all id = true
    (take → Answers .autoTakeover s (fun t => t.tw = Tw.taking ∧
      t.twin.cold = decide (s.tw ≠ Tw.verify ∧ s.tw ≠ Tw.lockUnd) ∧ t.bit w Reg.Twin.CLAIM_EGRESS_OPEN = false)) ∧
    (¬ take → Answers .autoTakeover s (OnlyWords s · [])) ∧
    (s.tw = Tw.taking → s.mayOpen = true → s.twin.cold = false ∨ (s.twin.restored = true ∧ s.running = true) →
      Answers .egressOpen s (fun t => t.tw = Tw.alone ∧ t.bit w Reg.Twin.CLAIM_EGRESS_OPEN = true ∧ t.twin.byTake = true ∧
        ev t w 5 ∧ t.fld w Reg.Twin.TAKEOVER_COUNT = (s.fld w Reg.Twin.TAKEOVER_COUNT + 1) % 2 ^ 32)) ∧
    (s.tw ≠ Tw.taking → Answers .egressOpen s (OnlyWords s · []) ∧ Answers .coldTakeoverRestore s (OnlyWords s · [])) ∧
    (s.tw = Tw.taking → s.twin.cold = true → s.twin.restored = false →
      (s.newestImage = none → Answers .coldTakeoverRestore s (fun t => t.tw = Tw.wait ∧ ev t w 11)) ∧
      (s.newestImage ≠ none → Answers .coldTakeoverRestore s (fun t => t.twin.restored = true ∧
        t.render.starting = true)))) ∧
  (∀ (s : State) (b : Nat), s.bit n Reg.Ndodom.STATUS_LINK = true →
    let id := if s.snaps.id + 1 < 2 ^ 32 then s.snaps.id + 1 else 1
    (s.lockPri = true ∨ s.tw = Tw.verify ∨ s.tw = Tw.lockUnd → s.running = true → s.render.rsi / s.blockSize = b + 1 →
      Answers (.holdings b) s (fun t =>
        t.twin = { s.twin with out := s.twin.out ++ [.holdings b (s.holdings b)] } ∧ onlyTwin s t)) ∧
    (s.render.rsi / s.blockSize ≠ b + 1 → Answers (.holdings b) s (OnlyWords s · [])) ∧
    (s.lockPri = true → Answers .departureReport s (fun t => t.twin = { s.twin with
      out := s.twin.out ++ [.departures (s.twin.sentSeq.map (fun e => (e.1, e.2 - 1)))] } ∧ onlyTwin s t)) ∧
    (s.tw = Tw.coldPri → s.twin.commitSince = true ∨
        s.twin.shipAt + s.fld w Reg.Twin.SNAP_PERIOD * s.msTicks ≤ s.render.tick → Answers .snapPeriod s (fun t =>
        t.snaps.id = id ∧ t.fld w Reg.Twin.SNAP_ID = id ∧ t.twin.commitSince = false ∧ t.twin.shipAt = s.render.tick ∧
        t.twin.out = s.twin.out ++ [.snapshot { s.image false with id := id }])) ∧
    (s.tw = Tw.verify → s.fld w Reg.Twin.VERIFY_BLOCKS ≤ s.twin.matched → Answers .joined s (fun t => t.tw = Tw.lockUnd ∧
      ev t w 3 ∧ t.twin.out = s.twin.out ++ [.joined]))) ∧
  (∀ (s : State) (b x y : Nat), s.twin.crcs.lookup b = some x → s.twin.peerCrcs.lookup b = some y →
    (x = y → s.tw = Tw.verify → Answers (.outputCrcCompare b) s (fun t => t.twin.matched = s.twin.matched + 1 ∧
      onlyTwin s t)) ∧
    (x ≠ y → s.lockPri = true ∨ s.lockUnd = true → Answers (.outputCrcCompare b) s (fun t =>
      ev t w 4 ∧ t.fld w Reg.Twin.DIVERGE_COUNT = (s.fld w Reg.Twin.DIVERGE_COUNT + 1) % 2 ^ 32 ∧
      t.tw = if s.lockUnd then Tw.resync else s.tw))) ∧
  (∀ s : State,
    (s.tw = Tw.replay ∨ s.tw = Tw.resync → s.twin.journal = [] → s.twin.awaiting = false → s.running = true →
      Answers .replayCaughtUp s (fun t =>
      t.tw = Tw.verify ∧ t.twin.matched = 0 ∧ t.fld w Reg.Twin.LAG = 0 ∧
      t.render.rsi = max s.render.rsi s.twin.peerRsi)) ∧
    (∀ (c : Cmd) (a : Nat), s.twin.join = some (some (c.seat, c.tag), a) → s.tw = Tw.alone → a + s.fs ≤ s.render.tick →
      s.cmdOf c.seat c.tag = some c → c.final = false → c.waiters = [] → c.tag < bootTag → c.seat < 8 → c.sq < 4 →
      Answers .joinTimeout s (fun t => t.twin.join = none ∧ Completes s t c Status.timeout 0 0)) ∧
    (∀ at_ : Nat, s.twin.handover = some (at_, none) →
      (s.render.rsi < at_ → Answers .handoverBoundary s (OnlyWords s · [])) ∧
      (at_ ≤ s.render.rsi → s.tw = Tw.lockPri → Answers .handoverBoundary s (fun t => t.tw = Tw.lockUnd ∧ ev t w 7 ∧
        t.bit w Reg.Twin.CLAIM_EGRESS_OPEN = false ∧ t.twin.handover = none)) ∧
      (at_ ≤ s.render.rsi → s.tw = Tw.lockUnd → s.twin.tie = false → Answers .handoverBoundary s (fun t =>
        t.tw = Tw.lockPri ∧ ev t w 7 ∧ t.bit w Reg.Twin.CLAIM_EGRESS_OPEN = true ∧ t.twin.handover = none))))

/-- The DRAM controller and the health monitors (R510 to R527, R559). -/
def Obligations.MemoryAndHealthMonitors : Prop :=
  let d := Blk.dramc
  let h := Blk.health
  let ev := fun (t : State) (b : Blk) (i : Nat) => (t.fld b Reg.Hdr.EVENTS).testBit i = true
  (∀ (s : State) (c : Instr), s.watching = false → (∃ addr err region unit pass temps mv, c ∈ [.refresh, .rowActivate,
      .patrolScrub addr err region unit pass, .sramScrub addr err unit, .tempSample temps, .vmonSample mv, .roSample mv,
      .avsRecompute unit]) → Answers c s (OnlyWords s · [])) ∧
  (∀ s : State, s.watching = true →
    (Answers .refresh s (fun t => t.mon.stall = true ∧ t.mon.tapMove = [] ∧
      t.bit d Reg.Dramc.STATUS_REFRESH_2X = s.mon.want2x ∧
      (∀ ch v, s.mon.tapMove = [(ch, v)] → Map.get 0 ch t.mon.taps = Map.get 0 ch s.mon.taps + v) ∧
      (s.mon.want2x = true → s.bit d Reg.Dramc.STATUS_REFRESH_2X = false → ev t d 3))) ∧
    Answers .rowActivate s (fun t => t.mon = { s.mon with stall := false } ∧
      (t.fld d Reg.Dramc.NRR_COUNT = s.fld d Reg.Dramc.NRR_COUNT ∨
        t.fld d Reg.Dramc.NRR_COUNT = (s.fld d Reg.Dramc.NRR_COUNT + 2) % 2 ^ 32)) ∧
    (∀ addr err region unit pass, s.bit d Reg.Dramc.STATUS_ECC_ON = false →
      Answers (.patrolScrub addr err region unit pass) s (OnlyWords s · [])) ∧
    (s.bit d Reg.Dramc.STATUS_ECC_ON = true → ∀ addr region unit : Nat,
      Answers (.patrolScrub addr 0 region unit true) s (fun t =>
        t.fld d Reg.Dramc.SCRUB_PASSES = (s.fld d Reg.Dramc.SCRUB_PASSES + 1) % 2 ^ 32 ∧
        OnlyWords s t [wordAt d Reg.Dramc.SCRUB_PASSES]) ∧
      Answers (.patrolScrub addr 1 region unit false) s (fun t =>
        t.fld d Reg.Dramc.CE_COUNT = (s.fld d Reg.Dramc.CE_COUNT + 1) % 2 ^ 32 ∧
        t.fld64 d Reg.Dramc.CE_ADDR_LO Reg.Dramc.CE_ADDR_HI = addr % 2 ^ 34 ∧ ev t d 0 ∧
        (s.fld d Reg.Dramc.STORM_LIMIT ≤ (s.mon.ces.filter (fun a => decide (s.render.tick < a + s.msTicks))).length →
          ev t d 2)) ∧
      (∀ n, n < s.model.objects → n < 1024 → Answers (.patrolScrub addr 2 1 n false) s (fun t =>
        t.fld d Reg.Dramc.UE_COUNT = (s.fld d Reg.Dramc.UE_COUNT + 1) % 2 ^ 32 ∧ t.fld d Reg.Dramc.UE_REGION = 1 ∧
        t.fld d Reg.Dramc.UE_UNIT = n ∧ ev t d 1 ∧ (∀ m, m ≠ n → t.obj m = s.obj m) ∧
        ∀ k, Map.get 0 k (t.obj n).far = 0 ∨ Map.get 0 k (t.obj n).far = Map.get 0 k (s.obj n).far)) ∧
      Answers (.patrolScrub addr 2 3 0 false) s (fun t => t.snaps.slot0 = none ∧ t.snaps.slot1 = s.snaps.slot1 ∧
        t.fld d Reg.Dramc.UE_REGION = 3 ∧ ev t d 1) ∧
      Answers (.patrolScrub addr 2 6 unit false) s (fun t =>
        t.mon.degraded = (unit / 65536, unit % 65536) :: s.mon.degraded ∧ t.fld d Reg.Dramc.UE_REGION = 6 ∧ ev t d 1)) ∧
    (∀ part unit : Nat,
      Answers (.sramScrub part 1 unit) s (fun t =>
        t.fld h Reg.Health.SRAM_CE_COUNT = (s.fld h Reg.Health.SRAM_CE_COUNT + 1) % 2 ^ 32 ∧ ev t h 6 ∧
        OnlyWords s t [wordAt h Reg.Health.SRAM_CE_COUNT, wordAt h Reg.Hdr.EVENTS]) ∧
      (unit < s.model.objects ∨ (1024 ≤ unit ∧ unit < 1024 + s.model.outputs) → Answers (.sramScrub 1 2 unit) s (fun t =>
        t.fld h Reg.Health.SRAM_UE_COUNT = (s.fld h Reg.Health.SRAM_UE_COUNT + 1) % 2 ^ 32 ∧ ev t h 7 ∧
        t.mon.rebuild = s.mon.rebuild ++ [(decide (1024 ≤ unit), unit % 1024)])) ∧
      (unit < 1024 → (s.obj unit).ctx.state = .running → Answers (.sramScrub 2 2 unit) s (fun t =>
        (t.obj unit).ctx.state = .fault ∧ t.fld (.obj unit) Reg.Obj.CTX_FAULT = 4 ∧ ev t h 7))) ∧
    (∀ temps : List Int, temps.length ≠ 16 → Answers (.tempSample temps) s (OnlyWords s · [])) ∧
    (∀ temps : List Int, temps.length = 16 →
      let hot := (hottest temps).1
      let crit := s.mon.critical || decide (115 * 256 ≤ hot)
      let warn := s.mon.warn || decide ((s.fld h Reg.Health.WARN_TEMP : Int) * 256 ≤ hot)
      Answers (.tempSample temps) s (fun t =>
        (∀ i, i < 16 → t.fld h (Reg.Health.TEMP i) = (temps.getD i 0 % 65536).toNat) ∧
        t.fld h Reg.Health.TEMP_HOT = (hot % 65536).toNat ∧ t.fld h Reg.Health.TEMP_HOT_SENSOR = (hottest temps).2 ∧
        t.mon.warn = warn ∧ t.mon.critical = crit ∧
        t.mon.throttle = (s.mon.throttle || (s.bit h Reg.Health.THROTTLE_EN &&
          decide ((s.fld h Reg.Health.THROTTLE_TEMP : Int) * 256 ≤ hot))) ∧
        t.fld h Reg.Health.STATE_THERM = (if crit then 2 else if warn then 1 else 0) ∧
        (s.mon.warn = false → warn = true → ev t h 0 ∧ ev t .greenroom 8) ∧
        (s.mon.critical = false → crit = true → ev t h 1 ∧ t.curtain.therm = true))) ∧
    (∀ mv : List Nat, mv.length = 12 → Answers (.vmonSample mv) s (fun t => ∀ m, m < 12 →
      t.fld h (Reg.Health.VMON m) = mv.getD m 0 % 2 ^ 12 ∧
      ∀ lo hi, s.railWindow m = some (lo, hi) → 2 * mv.getD m 0 < lo ∨ hi < 2 * mv.getD m 0 →
        (t.fld h Reg.Health.VMON_FLAGS).testBit m = true ∧ ev t h 4)) ∧
    (∀ counts : List Nat, counts.length = 8 → Answers (.roSample counts) s (fun t =>
      (∀ r, r < 8 → t.fld h (Reg.Health.RO_COUNT r) = counts.getD r 0 % 2 ^ 16) ∧
      (s.bit h Reg.Health.AVS_MODE = true → t.mon = s.mon) ∧
      (let v := s.fld h Reg.Health.CORE_MV
       s.bit h Reg.Health.AVS_MODE = false → s.boot.warm = none → 100 * counts.foldl min (counts.headD 0) < 101 * Config.roTarget →
        s.bit h Reg.Health.STATE_AVS_HOLD = false → s.mon.pmb = none → s.mon.voutMode = true → v ≠ 0 → v + 5 ≤ 850 →
        t.fld h Reg.Health.CORE_MV = v + 5 ∧ t.mon.pmb = some (some (v + 5), 0)))) ∧
    (∀ want, let fits := s.bit h Reg.Health.AVS_MODE = false ∧ want % 5 = 0 ∧ 700 ≤ want ∧ want ≤ 850
      (fits → Answers (.avsRecompute want) s (fun t => t.mon = { s.mon with want := want } ∧
        OnlyWords { s with mon := t.mon } t [])) ∧
      (¬ fits → Answers (.avsRecompute want) s (OnlyWords s · [])))) ∧
  (∀ (s : State) (ch : Nat) (drift : Int),
    (s.mon.stall = true → ch < 2 →
      Answers (.zqLatch ch) s (fun t => t.mon = { s.mon with zq := s.mon.zq.put 0 ch (Map.get 0 ch s.mon.zq + 1) } ∧
        OnlyWords { s with mon := t.mon } t []) ∧
      Answers (.wckMeasure ch drift) s (fun t =>
        Map.get 0 ch t.mon.tapMove = (if 128 < drift then 1 else if drift < -128 then -1 else 0) ∧
        OnlyWords { s with mon := t.mon } t [])) ∧
    (s.mon.stall = false → Answers (.zqLatch ch) s (OnlyWords s · []) ∧ Answers (.wckMeasure ch drift) s (OnlyWords s · []))) ∧
  (∀ s : State,
    (s.mon.warn = true → s.cooled 0 = true → Answers (.thresholdClear 0) s (fun t =>
      t.mon = { s.mon with warn := false } ∧ t.fld h Reg.Health.STATE_THERM = if s.mon.critical then 2 else 0)) ∧
    (s.mon.throttle = true → s.cooled 1 = true → Answers (.thresholdClear 1) s (fun t =>
      t.mon = { s.mon with throttle := false } ∧ (s.clocked = false → t.bit h Reg.Health.STATE_THROTTLED = false))) ∧
    (s.mon.critical = true → s.cooled 2 = true → Answers (.thresholdClear 2) s (fun t => t.mon = { s.mon with critical := false } ∧
      ev t h 2 ∧ t.curtain.therm = false ∧ t.fld h Reg.Health.STATE_THERM = if s.mon.warn then 1 else 0)) ∧
    (∀ k, s.cooled k = false ∨ (k = 0 ∧ s.mon.warn = false) ∨ (k = 1 ∧ s.mon.throttle = false) ∨
        (k = 2 ∧ s.mon.critical = false) → Answers (.thresholdClear k) s (OnlyWords s · []))) ∧
  (∀ s : State,
    (s.fld .greenroom Reg.Greenroom.PWR_STATE ≠ 3 → s.mon.tripped = false → Answers .thermalTrip s (fun t =>
      t.mon = { s.mon with tripped := true, pmb := none, next := none } ∧
      ∀ k, k < s.model.pss → (t.psOf k).switching = false ∧ (t.psOf k).legs = [])) ∧
    (s.fld .greenroom Reg.Greenroom.PWR_STATE = 3 ∨ s.mon.tripped = true → Answers .thermalTrip s (OnlyWords s · [])) ∧
    Answers .refclkLoss s (fun t => t.mon = { s.mon with refclkLost := true } ∧
      (∀ k, k < s.model.pss → (t.psOf k).switching = false) ∧ ∀ e ∈ t.tdmTx, ∀ v ∈ e.2.sent, v = none ∨ v = some 0)) ∧
  (∀ (s : State) (v : Option Nat) (fails : Nat), s.mon.pmb = some (v, fails) → s.mon.next = none →
    Answers (.pmbusRequestDone true) s (fun t => t.mon = { s.mon with pmb := none, voutMode := s.mon.voutMode || v.isNone } ∧
      OnlyWords { s with mon := t.mon } t []) ∧
    (fails < 2 → Answers (.pmbusRequestDone false) s (fun t => t.mon = { s.mon with pmb := some (v, fails + 1) } ∧
      OnlyWords { s with mon := t.mon } t [])) ∧
    (2 ≤ fails → Answers (.pmbusRequestDone false) s (fun t => t.mon.pmb = none ∧
      t.bit h Reg.Health.STATE_AVS_HOLD = true ∧ ev t h 5))) ∧
  (∀ (s : State) (ok : Bool), s.mon.pmb = none → Answers (.pmbusRequestDone ok) s (OnlyWords s · [])) ∧
  (∀ (s : State) (data : Word), s.isUnderstudy = false → s.lockPri = false → s.pushMode = false →
    700 ≤ data.toNat / 64 % 1024 → data.toNat / 64 % 1024 ≤ 850 → Answers (.avs data) s (fun t =>
      t.bit h Reg.Health.AVS_MODE = data.getLsbD 0 ∧ t.fld h Reg.Health.AVS_FIXED_MV = data.toNat / 64 % 1024 ∧
      t.bit h Reg.Health.STATE_AVS_HOLD = false))

/-- Resets and boot (R529 to R543), and the test access port: TRST_B resets it, and IDCODE leaves it bit 0 first (R570). -/
def Obligations.ResetBootAndDefaultConfiguration : Prop :=
  let r := Blk.resetPage
  let ev := fun (t : State) (i : Nat) => (t.fld r Reg.Hdr.EVENTS).testBit i = true
  let stage := fun (t : State) => t.fld r Reg.Reset.BOOT_STAGE
  (∀ s : State, (s.trst false).tap = {} ∧ (s.trst false).operatesNormally = true) ∧
  (∀ (t : Tap) (first : Bool) (bits : List Bool), t.trstB = true → t.state = .captureDr → t.idcode = true → bits.length < 32 →
    (bits.foldl (fun q d => q.clock false d) (t.clock false first)).tdo = some (tapIdcode.getLsbD bits.length)) ∧
  (∀ (s : State) (bootsel : Nat) (twinid : Bool), Answers (.powerOnReset bootsel twinid) s (fun t =>
    t.fld r Reg.Reset.CAUSE = 1 ∧ t.fld r Reg.Reset.BOOT_BOOTSEL = bootsel % 4 ∧ t.bit .twin Reg.Twin.TWINID = twinid ∧
    t.boot.flash = s.boot.flash ∧ t.boot.keys = s.boot.keys ∧ t.boot.warm = some false ∧ t.fab.commits = [] ∧ t.seats = [] ∧
    t.snaps.slot0 = none ∧ t.stopped = true ∧ t.fld r Reg.Reset.ROLLBACK_FUSED = s.boot.fused % 2 ^ Reg.Reset.ROLLBACK_FUSED.width)) ∧
  (∀ s : State,
    let may := fun (pin : Bool) => stage s ≠ 8 ∧ stage s ≠ 9 ∧ s.dead = false ∧ s.fld .greenroom Reg.Greenroom.PWR_STATE ≠ 3 ∧
      (pin = false → s.fld .greenroom Reg.Greenroom.PWR_STATE ≠ 2)
    let warm := fun (cause : Nat) (t : State) => t.fld r Reg.Reset.CAUSE = cause ∧
      t.fld r Reg.Reset.WARM_COUNT = (s.fld r Reg.Reset.WARM_COUNT + 1) % 2 ^ 32 ∧
      t.boot.warm = some (decide (s.boot.warm ≠ some false)) ∧ (s.boot.warm ≠ some false → t.boot.image = s.boot.image) ∧
      t.boot.flash = s.boot.flash ∧ t.snaps.slot0 = s.snaps.slot0 ∧ t.snaps.slot1 = s.snaps.slot1 ∧
      t.thermals = s.thermals ∧ t.layouts.slots = [] ∧ t.fab.commits = [] ∧ t.stopped = true ∧
      (∀ n, (t.out n).corr.bank0 = (s.out n).corr.bank0 ∧ (t.out n).corr.bank1 = (s.out n).corr.bank1) ∧
      (∀ q, (t.seat q).cmds = []) ∧ t.fld .twin Reg.Twin.CFG_MODE = s.fld .twin Reg.Twin.CFG_MODE ∧
      ∀ e, e < 32 → t.fld .greenroom (Reg.Greenroom.WATCH_SOURCE e) = s.fld .greenroom (Reg.Greenroom.WATCH_SOURCE e)
    (may true → Answers .resetBLow s (warm 2)) ∧
    (may false → Answers .warm s (warm 3) ∧ Answers .watchdogExpire s (warm 4) ∧
      (∀ unit, Answers (.sramScrub 3 2 unit) s (fun t => t.fld r Reg.Reset.CAUSE = 6)) ∧
      (∀ addr unit pass, s.bit .dramc Reg.Dramc.STATUS_ECC_ON = true →
        Answers (.patrolScrub addr 2 5 unit pass) s (fun t => t.fld r Reg.Reset.CAUSE = 5))) ∧
    (¬ may true → Answers .resetBLow s (OnlyWords s · [])) ∧
    (¬ may false → ∀ c, c ∈ [.warm, .watchdogExpire] → Answers c s (OnlyWords s · []))) ∧
  (∀ s : State,
    (∀ release rollback, s.boot.image = some (release, rollback) → s.bit r Reg.Reset.FALLBACK = false → s.boot.warm = none →
      Answers .commitRollback s (fun t => t.boot = { s.boot with fused := max s.boot.fused (min rollback 64) } ∧ ev t 4)) ∧
    (s.bit r Reg.Reset.FALLBACK = true → Answers .commitRollback s (OnlyWords s · [])) ∧
    (∀ (ok full : Bool) (w : Bool), s.boot.warm = some w → s.bit .dramc Reg.Dramc.STATUS_TRAINED = false → stage s ≠ 8 →
      s.dead = false →
      (ok = true → Answers (.trainingDone ok full) s (fun t => t.bit .dramc Reg.Dramc.STATUS_TRAINED = true ∧
        stage t = (if w then stage s else if s.boot.bootsel = 1 ∨ s.boot.bootsel = 2 then 0xA else 2) ∧
        (w = false → s.boot.bootsel = 1 ∨ s.boot.bootsel = 2 → t.fld r Reg.Reset.PUSH_STATE = 1))) ∧
      (ok = false → full = true → Answers (.trainingDone ok full) s (fun t => stage t = 8 ∧
        (t.fld .dramc Reg.Hdr.EVENTS).testBit 4 = true)) ∧
      (ok = false → full = false → Answers (.trainingDone ok full) s (fun t => stage t = stage s ∧
        t.bit .dramc Reg.Dramc.STATUS_TRAINED = false))) ∧
    (let k := s.boot.cfg.slot
     let f := s.flashAt (imageSlot k) 0x400000
     let g := s.flashAt (imageSlot (1 - k)) 0x400000
     s.boot.warm = some false → stage s = 2 → k < 2 → s.dead = false →
      (imageFault s.boot.fused f = none → Answers .imageCheck s (fun t => stage t = 3 ∧ t.fld r Reg.Reset.BOOT_SLOT = k ∧
        t.boot.image = some (imageOf f) ∧ t.fld r Reg.Reset.FALLBACK = s.fld r Reg.Reset.FALLBACK)) ∧
      (imageFault s.boot.fused f ≠ none → imageFault s.boot.fused g = none → Answers .imageCheck s (fun t => stage t = 3 ∧
        t.fld r Reg.Reset.BOOT_SLOT = 1 - k ∧ t.boot.image = some (imageOf g) ∧ t.bit r Reg.Reset.FALLBACK = true ∧ ev t 1)) ∧
      (imageFault s.boot.fused f ≠ none → imageFault s.boot.fused g ≠ none → Answers .imageCheck s (fun t =>
        stage t = (if s.boot.bootsel = 3 then 0xA else 9) ∧ t.boot.image = none))) ∧
    (let f := (List.range (s.fld r Reg.Reset.PUSH_LEN)).map (fun k => Map.get 0#8 k s.boot.window)
     s.boot.warm = some false → s.dead = false → stage s = 0xA → s.fld r Reg.Reset.PUSH_STATE = 1 ∨ s.fld r Reg.Reset.PUSH_STATE = 3 →
      (imageFault s.boot.fused f = none → Answers .pushGo s (fun t => t.fld r Reg.Reset.PUSH_STATE = 4 ∧ stage t = 3 ∧
        t.boot = { s.boot with image := some (imageOf f) })) ∧
      (imageFault s.boot.fused f ≠ none → Answers .pushGo s (fun t => t.fld r Reg.Reset.PUSH_STATE = 3 ∧ stage t = 0xA ∧
        t.boot = s.boot))) ∧
    (∀ (ms : Nat) (good w : Bool) (image : Nat × Nat), s.boot.warm = some w → s.bit .dramc Reg.Dramc.STATUS_TRAINED = true →
      s.dead = false → s.boot.image = some image → s.boot.cfg.defcfg = false →
      (w = true → good = true ∧ s.boot.cfg.slot = s.boot.loadedSlot) →
      Answers (.firmwareUp ms good) s (fun t => t.boot.warm = none ∧ stage t = 4 ∧ t.fld r Reg.Reset.BOOT_MS = min ms 65535 ∧
        ev t 0 ∧ t.fld .greenroom Reg.Greenroom.PWR_STATE = 1 ∧
        ∀ q, q < s.model.seats → q < 8 → t.fld (.seat q) Reg.Seat.BIND_KIND =
          (if s.boot.cfg.valid then s.boot.cfg.bind.getD q 0 else s.model.bindDefault q) % 4)) ∧
    (∀ ms good, s.boot.warm = none → Answers (.firmwareUp ms good) s (OnlyWords s · []))) ∧
  (∀ (s : State) (i n : Nat), s.boot.replay = some (i, n) → i < n → s.boot.warm = none → s.dead = false →
    let kind := s.defWord i 0 % 256
    let mask := s.defWord i 1
    let rows : List (Nat × Instr) :=
      [(1, .defcfgWrite), (2, .defcfgStrobe), (3, .defcfgCommand), (4, .waitLock false), (4, .waitLock true), (5, .defcfgEnd)]
    let goesOn := fun (t : State) => t.boot.replay = some (i + 1, n) ∧ t.boot.busy = false
    let fails := fun (t : State) => t.boot.replay = none ∧ t.fld r Reg.Reset.DEFCFG_FAILED = 1 ∧
      t.fld r Reg.Reset.DEFCFG_INDEX = i % 2 ^ Reg.Reset.DEFCFG_INDEX.width ∧ ev t 3
    (∀ row ∈ rows, (kind < 1 ∨ 5 < kind → Answers row.2 s fails) ∧
      (1 ≤ kind → kind ≤ 5 → kind ≠ row.1 → Answers row.2 s (OnlyWords s · []))) ∧
    (kind = 1 →
      let u := s.tryWrite (.seat 0) mask (BitVec.ofNat 32 (s.defWord i 2)) (mask % 4 = 0)
      (u.2 = true → Answers .defcfgWrite s (fun t => goesOn t ∧ t = (u.1.defNext i n).settled)) ∧
      (u.2 = false → Answers .defcfgWrite s fails)) ∧
    (kind = 2 →
      (s.boot.busy = false → mask ≠ 0 → s.isUnderstudy = false →
        (∀ c ∈ s.fab.commits, (c.pending = false ∨ c.mask &&& mask = 0) ∧ c.serial ≠ nextSerial s.fab.serial) →
        Answers .defcfgStrobe s (fun t => t.boot.replay = s.boot.replay ∧ t.boot.busy = true ∧
          ∃ c, t.fab.commits = s.fab.commits ++ [c] ∧ c.seat = 0 ∧ c.by_ = .defaultConfig ∧ c.mask = mask ∧ c.next = true)) ∧
      (s.boot.busy = true → s.fab.defcfg = updApplied → Answers .defcfgStrobe s goesOn) ∧
      (s.boot.busy = true → mask ≠ 0 → s.fab.defcfg ∉ [updApplied, updPreparing, updPending] →
        Answers .defcfgStrobe s fails)) ∧
    (kind = 3 →
      (let c := s.defCommand i
       s.boot.busy = false → c.opcode = 0x20 → c.wellFormed = true → c.n 3 % 4 = 0 → c.n 3 ≤ s.poolFree →
        (∀ d ∈ (s.seat 0).cmds, d.tag ≠ bootTag ∧ d.sq < 4) → Answers .defcfgCommand s (fun t =>
          t.boot.replay = s.boot.replay ∧ t.boot.busy = true ∧
          ∃ d, t.cmdOf 0 bootTag = some d ∧ d.opcode = 0x20 ∧ d.started = true ∧ d.params = c.params)) ∧
      (s.boot.busy = false → (s.defCommand i).opcode ∉ [0x10, 0x11, 0x20, 0x28, 0x22, 0x58, 0x59] →
        Answers .defcfgCommand s fails) ∧
      (s.boot.busy = true → s.boot.result = none → Answers .defcfgCommand s (OnlyWords s · [])) ∧
      (s.boot.busy = true → s.boot.result = some Status.ok → Answers .defcfgCommand s goesOn) ∧
      (∀ e, s.boot.busy = true → s.boot.result = some e → e ≠ Status.ok → Answers .defcfgCommand s fails)) ∧
    (kind = 4 → let locked := s.fld .mediaClk Reg.MediaClk.STATE = 1 ∨ s.fld .mediaClk Reg.MediaClk.STATE = 2
      let passed := mask * s.fs ≤ (s.render.tick + 1 - s.boot.since) * 1000
      ∀ expired : Bool, (locked ∨ (expired = true ∧ passed) → Answers (.waitLock expired) s goesOn) ∧
        (¬ locked → expired = false ∨ ¬ passed → Answers (.waitLock expired) s (OnlyWords s · []))) ∧
    (kind = 5 → Answers .defcfgEnd s (fun t => t.boot.replay = none ∧ t.fld r Reg.Reset.DEFCFG_LOADED = 1 ∧ ev t 2))) ∧
  (∀ (s : State) (c : Instr), s.boot.replay = none ∨ s.dead = true →
    c ∈ [.defcfgWrite, .defcfgStrobe, .defcfgCommand, .waitLock false, .waitLock true, .defcfgEnd] →
    Answers c s (OnlyWords s · []))
end

