-- ==== Sys2Proof/Laws/Maps.lean ====
section
/-! SUPPORT. The keyed store: what a read finds after a change, and that every change keeps the canonical form. -/

namespace Sys2Proof

variable {α : Type}

@[simp] theorem Map.get_nil (d : α) (k : Nat) : Map.get d k [] = d := rfl

theorem Map.get_cons (d : α) (k k' : Nat) (v : α) (m : Map α) :
    Map.get d k ((k', v) :: m) = if k < k' then d else if k = k' then v else Map.get d k m := rfl

/-- A looser bound still bounds. -/
theorem Map.wfFrom_weaken [DecidableEq α] (d : α) (m : Map α) (lo lo' : Option Nat)
    (h : Map.wfFrom d lo m = true) (hl : ∀ l', lo' = some l' → ∃ l, lo = some l ∧ l' ≤ l) :
    Map.wfFrom d lo' m = true := by
  cases m with
  | nil => rfl
  | cons e m =>
    obtain ⟨k, v⟩ := e
    simp only [Map.wfFrom, Bool.and_eq_true] at h ⊢
    refine ⟨⟨?_, h.1.2⟩, h.2⟩
    cases lo' with
    | none => rfl
    | some l' =>
      obtain ⟨l, rfl, hle⟩ := hl l' rfl
      have h1 := h.1.1
      simp only [decide_eq_true_eq] at h1 ⊢
      omega

/-- Entries with keys up to `j` at the front of a store say nothing about a greater key. -/
theorem Map.get_dropWhile (d : α) (j k : Nat) (h : j < k) :
    ∀ m : Map α, Map.get d k (m.dropWhile (fun e => e.1 ≤ j)) = Map.get d k m := by
  intro m
  induction m with
  | nil => rfl
  | cons e m ih =>
    obtain ⟨k', v⟩ := e
    rw [List.dropWhile_cons]
    split
    · rename_i hle
      simp only [decide_eq_true_eq] at hle
      rw [ih, Map.get_cons, if_neg (by omega), if_neg (by omega)]
    · rfl

/-- Once they are gone, keys up to `j` read as the default. -/
theorem Map.get_dropWhile_le (d : α) (j k : Nat) (h : k ≤ j) :
    ∀ m : Map α, Map.get d k (m.dropWhile (fun e => e.1 ≤ j)) = d := by
  intro m
  induction m with
  | nil => rfl
  | cons e m ih =>
    obtain ⟨k', v⟩ := e
    rw [List.dropWhile_cons]
    split
    · exact ih
    · rename_i hle
      simp only [decide_eq_true_eq] at hle
      rw [Map.get_cons, if_pos (by omega)]

/-- A read after a write to the same key gives the value written. -/
@[simp] theorem Map.get_put_same [DecidableEq α] (d : α) (k : Nat) (v : α) :
    ∀ m : Map α, Map.get d k (m.put d k v) = v := by
  intro m
  induction m with
  | nil =>
    simp only [Map.put]
    split <;> simp_all [Map.get]
  | cons e m ih =>
    obtain ⟨k', v'⟩ := e
    simp only [Map.put]
    split
    · split
      · rename_i hlt hv
        rw [Map.get_cons, if_pos hlt, hv]
      · simp [Map.get_cons]
    · split
      · split
        · rename_i hv
          rw [Map.get_dropWhile_le d k k (Nat.le_refl _), hv]
        · simp [Map.get_cons]
      · rw [Map.get_cons, if_neg ‹_›, if_neg ‹_›]
        exact ih

/-- A write leaves every other key alone. -/
theorem Map.get_put_other [DecidableEq α] (d : α) (k j : Nat) (v : α) (hj : j ≠ k) :
    ∀ m : Map α, Map.get d j (m.put d k v) = Map.get d j m := by
  intro m
  induction m with
  | nil =>
    simp only [Map.put]
    split
    · rfl
    · rw [Map.get_cons, if_neg hj]
      split <;> rfl
  | cons e m ih =>
    obtain ⟨k', v'⟩ := e
    simp only [Map.put]
    split
    · split
      · rfl
      · rw [Map.get_cons, if_neg hj]
        split
        · rw [Map.get_cons, if_pos (by omega)]
        · rfl
    · split
      · rename_i heq
        subst heq
        split
        · rw [Map.get_cons, if_neg hj]
          split
          · exact Map.get_dropWhile_le d k j (by omega) m
          · exact Map.get_dropWhile d k j (by omega) m
        · rw [Map.get_cons, Map.get_cons, if_neg hj, if_neg hj]
      · rw [Map.get_cons, Map.get_cons, ih]

/-- Both at once. -/
theorem Map.get_put [DecidableEq α] (d : α) (k j : Nat) (v : α) (m : Map α) :
    Map.get d j (m.put d k v) = if j = k then v else Map.get d j m := by
  split
  · rename_i h
    rw [h, Map.get_put_same]
  · rename_i h
    exact Map.get_put_other d k j v h m

/-- Dropping a front of small keys keeps the canonical form. -/
theorem Map.wfFrom_dropWhile [DecidableEq α] (d : α) (j : Nat) :
    ∀ (m : Map α) (lo : Option Nat), Map.wfFrom d lo m = true →
      Map.wfFrom d lo (m.dropWhile (fun e => e.1 ≤ j)) = true := by
  intro m
  induction m with
  | nil => intros; rfl
  | cons e m ih =>
    obtain ⟨k', v⟩ := e
    intro lo h
    rw [List.dropWhile_cons]
    split
    · apply ih
      simp only [Map.wfFrom, Bool.and_eq_true] at h
      refine Map.wfFrom_weaken d m (some k') lo h.2 ?_
      intro l hl
      subst hl
      have h1 := h.1.1
      simp only [decide_eq_true_eq] at h1
      exact ⟨k', rfl, Nat.le_of_lt h1⟩
    · exact h

/-- A write keeps the canonical form above any bound below its key. -/
theorem Map.wfFrom_put [DecidableEq α] (d : α) (k : Nat) (v : α) :
    ∀ (m : Map α) (lo : Option Nat), Map.wfFrom d lo m = true → (∀ l, lo = some l → l < k) →
      Map.wfFrom d lo (m.put d k v) = true := by
  intro m
  induction m with
  | nil =>
    intro lo _ hl
    simp only [Map.put]
    split
    · rfl
    · rename_i hv
      cases lo with
      | none => simp [Map.wfFrom, hv]
      | some l => simp [Map.wfFrom, hv, hl l rfl]
  | cons e m ih =>
    obtain ⟨k', v'⟩ := e
    intro lo h hl
    have h0 := h
    simp only [Map.wfFrom, Bool.and_eq_true] at h
    simp only [Map.put]
    split
    · split
      · exact h0
      · rename_i hlt hv
        cases lo with
        | none => simp [Map.wfFrom, hv, hlt, h.2, by simpa using h.1.2]
        | some l => simp [Map.wfFrom, hv, hlt, h.2, hl l rfl, by simpa using h.1.2]
    · split
      · rename_i heq
        subst heq
        split
        · refine Map.wfFrom_dropWhile d k m lo (Map.wfFrom_weaken d m (some k) lo h.2 ?_)
          intro l hl'
          exact ⟨k, rfl, Nat.le_of_lt (hl l hl')⟩
        · rename_i hv
          simp only [Map.wfFrom, Bool.and_eq_true]
          exact ⟨⟨h.1.1, by simp [hv]⟩, h.2⟩
      · simp only [Map.wfFrom, Bool.and_eq_true]
        refine ⟨h.1, ih (some k') h.2 ?_⟩
        intro l hl'
        cases hl'
        omega

/-- A write keeps the canonical form. -/
theorem Map.wf_put [DecidableEq α] (d : α) (k : Nat) (v : α) (m : Map α) (h : m.wf d = true) :
    (m.put d k v).wf d = true := Map.wfFrom_put d k v m none h (by simp)

/-- Is a key above a bound? -/
def Map.above (lo : Option Nat) (k : Nat) : Bool :=
  match lo with
  | none => true
  | some l => decide (l < k)

theorem Map.rising_cons (lo : Option Nat) (k : Nat) (v : α) (m : Map α) :
    Map.rising lo ((k, v) :: m) = if Map.above lo k then (k, v) :: Map.rising (some k) m else Map.rising lo m := rfl

/-- A canonical store has no entry that a read cannot find. -/
theorem Map.rising_of_wf [DecidableEq α] (d : α) :
    ∀ (m : Map α) (lo : Option Nat), Map.wfFrom d lo m = true → Map.rising lo m = m := by
  intro m
  induction m with
  | nil => intros; rfl
  | cons e m ih =>
    obtain ⟨k, v⟩ := e
    intro lo h
    simp only [Map.wfFrom, Bool.and_eq_true] at h
    have ha : Map.above lo k = true := h.1.1
    rw [Map.rising_cons, if_pos ha, ih (some k) h.2]

/-- At or below a bound nothing is found above it. -/
theorem Map.get_rising_below (d : α) (p : Nat → Bool) (k : Nat) :
    ∀ (m : Map α) (l : Nat), k ≤ l → Map.get d k ((Map.rising (some l) m).filter (fun e => p e.1)) = d := by
  intro m
  induction m with
  | nil => intros; rfl
  | cons e m ih =>
    obtain ⟨k', v⟩ := e
    intro l hl
    rw [Map.rising_cons]
    split
    · rename_i ha
      simp only [Map.above, decide_eq_true_eq] at ha
      rw [List.filter_cons]
      split
      · rw [Map.get_cons, if_pos (by omega)]
      · exact ih k' (by omega)
    · exact ih l hl

/-- What a restricted store reads as, above a bound. -/
theorem Map.get_rising_only (d : α) (p : Nat → Bool) (k : Nat) :
    ∀ (m : Map α) (lo : Option Nat), Map.above lo k = true →
      Map.get d k ((Map.rising lo m).filter (fun e => p e.1)) = if p k then Map.get d k m else d := by
  intro m
  induction m with
  | nil => intros; simp [Map.rising]
  | cons e m ih =>
    obtain ⟨k', v⟩ := e
    intro lo hk
    rw [Map.rising_cons, Map.get_cons]
    split
    · rename_i ha
      rw [List.filter_cons]
      by_cases hlt : k < k'
      · rw [if_pos hlt]
        split
        · rw [Map.get_cons, if_pos hlt]; split <;> rfl
        · rw [Map.get_rising_below d p k m k' (by omega)]; split <;> rfl
      · by_cases he : k = k'
        · subst he
          rw [if_neg hlt, if_pos rfl]
          by_cases hp : p k
          · simp [hp, Map.get_cons]
          · simp [hp, Map.get_rising_below d p k m k (by omega)]
        · rw [if_neg hlt, if_neg he]
          have ih' := ih (some k') (by simp only [Map.above, decide_eq_true_eq]; omega)
          split
          · rw [Map.get_cons, if_neg hlt, if_neg he, ih']
          · exact ih'
    · rename_i ha
      have h1 : ¬ k < k' ∧ k ≠ k' := by
        cases lo with
        | none => exact absurd rfl ha
        | some l =>
          simp only [Map.above, decide_eq_true_eq] at ha hk
          omega
      rw [if_neg h1.1, if_neg h1.2]
      exact ih lo hk

/-- What a restricted store reads as. -/
theorem Map.get_only (d : α) (p : Nat → Bool) (k : Nat) (m : Map α) :
    Map.get d k (m.only p) = if p k then Map.get d k m else d := Map.get_rising_only d p k m none rfl

/-- What a store with some keys dropped reads as. -/
theorem Map.get_drop (d : α) (p : Nat → Bool) (k : Nat) (m : Map α) :
    Map.get d k (m.drop p) = if p k then d else Map.get d k m := by
  rw [Map.drop, Map.get_only]
  by_cases hp : p k <;> simp [hp]

/-- Entries left out keep the canonical form. -/
theorem Map.wfFrom_filter [DecidableEq α] (d : α) (p : Nat × α → Bool) :
    ∀ (m : Map α) (lo : Option Nat), Map.wfFrom d lo m = true → Map.wfFrom d lo (m.filter p) = true := by
  intro m
  induction m with
  | nil => intros; rfl
  | cons e m ih =>
    obtain ⟨k, v⟩ := e
    intro lo h
    have h' := h
    simp only [Map.wfFrom, Bool.and_eq_true] at h
    rw [List.filter_cons]
    split
    · simp only [Map.wfFrom, Bool.and_eq_true]
      exact ⟨h.1, ih (some k) h.2⟩
    · apply ih
      refine Map.wfFrom_weaken d m (some k) lo h.2 ?_
      intro l hl
      subst hl
      have h1 := h.1.1
      simp only [decide_eq_true_eq] at h1
      exact ⟨k, rfl, Nat.le_of_lt h1⟩

theorem Map.wf_only [DecidableEq α] (d : α) (p : Nat → Bool) (m : Map α) (h : m.wf d = true) :
    (m.only p).wf d = true := by
  have hr : Map.rising none m = m := Map.rising_of_wf d m none h
  unfold Map.only Map.wf
  rw [hr]
  exact Map.wfFrom_filter d _ m none h

theorem Map.wf_drop [DecidableEq α] (d : α) (p : Nat → Bool) (m : Map α) (h : m.wf d = true) :
    (m.drop p).wf d = true := Map.wf_only d _ m h

/-- The filtered image of a canonical store is canonical. -/
theorem Map.wfFrom_image [DecidableEq α] (d : α) (f : α → α) :
    ∀ (m : Map α) (lo : Option Nat), Map.wfFrom d lo m = true →
      Map.wfFrom d lo ((m.map (fun e => (e.1, f e.2))).filter (fun e => e.2 ≠ d)) = true := by
  intro m
  induction m with
  | nil => intros; rfl
  | cons e m ih =>
    obtain ⟨k, v⟩ := e
    intro lo h
    simp only [Map.wfFrom, Bool.and_eq_true] at h
    simp only [List.map_cons, List.filter_cons] at ih ⊢
    split
    · rename_i hv
      simp only [Map.wfFrom, Bool.and_eq_true]
      exact ⟨⟨h.1.1, hv⟩, ih (some k) h.2⟩
    · apply ih
      refine Map.wfFrom_weaken d m (some k) lo h.2 ?_
      intro l hl
      subst hl
      have h1 := h.1.1
      simp only [decide_eq_true_eq] at h1
      exact ⟨k, rfl, Nat.le_of_lt h1⟩

theorem Map.wf_update [DecidableEq α] (d : α) (f : α → α) (m : Map α) (h : m.wf d = true) :
    (m.update d f).wf d = true := by
  have hr : Map.rising none m = m := Map.rising_of_wf d m none h
  unfold Map.update Map.wf
  rw [hr]
  exact Map.wfFrom_image d f m none h

/-- At or below a bound an image finds nothing above it. -/
theorem Map.get_image_below [DecidableEq α] (d : α) (f : α → α) (k : Nat) :
    ∀ (m : Map α) (l : Nat), k ≤ l →
      Map.get d k (((Map.rising (some l) m).map (fun e => (e.1, f e.2))).filter (fun e => e.2 ≠ d)) = d := by
  intro m
  induction m with
  | nil => intros; rfl
  | cons e m ih =>
    obtain ⟨k', v⟩ := e
    intro l hl
    rw [Map.rising_cons]
    split
    · rename_i ha
      simp only [Map.above, decide_eq_true_eq] at ha
      rw [List.map_cons, List.filter_cons]
      split
      · rw [Map.get_cons, if_pos (by omega)]
      · exact ih k' (by omega)
    · exact ih l hl

theorem Map.get_image [DecidableEq α] (d : α) (f : α → α) (hf : f d = d) (k : Nat) :
    ∀ (m : Map α) (lo : Option Nat), Map.above lo k = true →
      Map.get d k (((Map.rising lo m).map (fun e => (e.1, f e.2))).filter (fun e => e.2 ≠ d)) = f (Map.get d k m) := by
  intro m
  induction m with
  | nil => intros; simp [Map.rising, hf]
  | cons e m ih =>
    obtain ⟨k', v⟩ := e
    intro lo hk
    rw [Map.rising_cons, Map.get_cons]
    split
    · rename_i ha
      rw [List.map_cons, List.filter_cons]
      by_cases hlt : k < k'
      · rw [if_pos hlt, hf]
        split
        · rw [Map.get_cons, if_pos hlt]
        · exact Map.get_image_below d f k m k' (by omega)
      · by_cases he : k = k'
        · subst he
          rw [if_neg hlt, if_pos rfl]
          split
          · simp [Map.get_cons]
          · rename_i hv
            simp only [ne_eq, decide_not, Bool.not_eq_eq_eq_not, Bool.not_true, decide_eq_false_iff_not,
              Classical.not_not] at hv
            rw [Map.get_image_below d f k m k (by omega), hv]
        · rw [if_neg hlt, if_neg he]
          have ih' := ih (some k') (by simp only [Map.above, decide_eq_true_eq]; omega)
          split
          · rw [Map.get_cons, if_neg hlt, if_neg he, ih']
          · exact ih'
    · rename_i ha
      have h1 : ¬ k < k' ∧ k ≠ k' := by
        cases lo with
        | none => exact absurd rfl ha
        | some l =>
          simp only [Map.above, decide_eq_true_eq] at ha hk
          omega
      rw [if_neg h1.1, if_neg h1.2]
      exact ih lo hk

/-- What a changed store reads as: an unlisted key keeps the default. -/
theorem Map.get_update [DecidableEq α] (d : α) (f : α → α) (hf : f d = d) (k : Nat) (m : Map α) :
    Map.get d k (m.update d f) = f (Map.get d k m) := Map.get_image d f hf k m none rfl

theorem Map.wf_nil [DecidableEq α] (d : α) : Map.wf d ([] : Map α) = true := rfl

end Sys2Proof
end

