-- ==== Sys2Proof/Laws/Regs.lean ====
section
/-! SUPPORT. Register fields: a field reads back what was written to it, and a write of one field leaves every other
field and every other word alone. -/

namespace Sys2Proof.Machine

open Sys2Proof

/-- A field that lies within its word and whose reset value fits it. -/
def Fits (f : Fld) : Prop := f.lsb + f.width ≤ 32 ∧ f.reset < 2 ^ f.width

theorem fldMask_bit (f : Fld) (j : Nat) :
    (fldMask f).getLsbD j = (decide (j < 32) && (decide (f.lsb ≤ j) && decide (j < f.lsb + f.width))) := by
  simp only [fldMask, BitVec.getLsbD_ofNat, Nat.testBit_shiftLeft, Nat.testBit_two_pow_sub_one]
  by_cases h : f.lsb ≤ j
  · have : (j - f.lsb < f.width) ↔ (j < f.lsb + f.width) := by omega
    simp [h, this]
  · simp [h]

/-- The word after a field was written. -/
theorem regPut_word (m : RegMap) (base : Nat) (f : Fld) (v k : Nat) :
    Map.get 0#32 k (regPut m base f v) =
      if k = base + f.off then
        (Map.get 0#32 (base + f.off) m &&& ~~~(fldMask f)) |||
          (BitVec.ofNat 32 (((v % 2 ^ f.width) ^^^ f.reset) <<< f.lsb) &&& fldMask f)
      else Map.get 0#32 k m := Map.get_put _ _ _ _ _

/-- A field reads back what was written to it, within its width. -/
theorem regGet_regPut_same (m : RegMap) (base : Nat) (f : Fld) (v : Nat) (hf : Fits f) :
    regGet (regPut m base f v) base f = v % 2 ^ f.width := by
  have key : (Map.get 0#32 (base + f.off) (regPut m base f v) >>> f.lsb).toNat % 2 ^ f.width =
      (v % 2 ^ f.width) ^^^ f.reset := by
    apply Nat.eq_of_testBit_eq
    intro i
    rw [Nat.testBit_mod_two_pow]
    have hx : ((v % 2 ^ f.width) ^^^ f.reset) < 2 ^ f.width :=
      Nat.xor_lt_two_pow (Nat.mod_lt _ (Nat.two_pow_pos _)) hf.2
    by_cases hi : i < f.width
    · have h32 : f.lsb + i < 32 := by have := hf.1; omega
      rw [regPut_word, if_pos rfl]
      simp only [hi, decide_true, Bool.true_and]
      rw [BitVec.testBit_toNat, BitVec.getLsbD_ushiftRight, BitVec.getLsbD_or, BitVec.getLsbD_and, BitVec.getLsbD_and,
        BitVec.getLsbD_not, fldMask_bit, BitVec.getLsbD_ofNat, Nat.testBit_shiftLeft]
      simp [h32, hi]
    · simp only [hi, decide_false, Bool.false_and]
      symm
      exact Nat.testBit_lt_two_pow (Nat.lt_of_lt_of_le hx (Nat.pow_le_pow_right (by decide) (by omega)))
  simp only [regGet]
  rw [key, Nat.xor_assoc, Nat.xor_self, Nat.xor_zero]

/-- A write of another word leaves a field alone. -/
theorem regGet_regPut_word (m : RegMap) (base base' : Nat) (f f' : Fld) (v : Nat)
    (h : base' + f'.off ≠ base + f.off) : regGet (regPut m base f v) base' f' = regGet m base' f' := by
  simp only [regGet, regPut_word, if_neg h]

/-- A write of other bits of the same word leaves a field alone. -/
theorem regGet_regPut_bits (m : RegMap) (base base' : Nat) (f f' : Fld) (v : Nat)
    (h : f.lsb + f.width ≤ f'.lsb ∨ f'.lsb + f'.width ≤ f.lsb) :
    regGet (regPut m base f v) base' f' = regGet m base' f' := by
  by_cases hk : base' + f'.off = base + f.off
  · have key : (Map.get 0#32 (base' + f'.off) (regPut m base f v) >>> f'.lsb).toNat % 2 ^ f'.width =
        (Map.get 0#32 (base' + f'.off) m >>> f'.lsb).toNat % 2 ^ f'.width := by
      apply Nat.eq_of_testBit_eq
      intro i
      rw [Nat.testBit_mod_two_pow, Nat.testBit_mod_two_pow]
      by_cases hi : i < f'.width
      · rw [regPut_word, if_pos hk, ← hk]
        simp only [hi, decide_true, Bool.true_and]
        rw [BitVec.testBit_toNat, BitVec.testBit_toNat, BitVec.getLsbD_ushiftRight, BitVec.getLsbD_ushiftRight,
          BitVec.getLsbD_or, BitVec.getLsbD_and, BitVec.getLsbD_and, BitVec.getLsbD_not, fldMask_bit]
        have : ¬(f.lsb ≤ f'.lsb + i ∧ f'.lsb + i < f.lsb + f.width) := by omega
        by_cases h32 : f'.lsb + i < 32
        · by_cases h1 : f.lsb ≤ f'.lsb + i
          · have h2 : ¬(f'.lsb + i < f.lsb + f.width) := fun h2 => this ⟨h1, h2⟩
            simp [h32, h2]
          · simp [h32, h1]
        · rw [BitVec.getLsbD_of_ge _ _ (by omega)]
          simp [h32]
      · simp [hi]
    simp only [regGet]
    rw [key]
  · exact regGet_regPut_word m base base' f f' v hk

/-- A field write keeps the canonical form of a register store. -/
theorem regPut_wf (m : RegMap) (base : Nat) (f : Fld) (v : Nat) (h : m.wf 0#32 = true) :
    (regPut m base f v).wf 0#32 = true := Map.wf_put _ _ _ _ h

/-- A field value fits its width. -/
theorem regGet_lt (m : RegMap) (base : Nat) (f : Fld) (hf : Fits f) : regGet m base f < 2 ^ f.width :=
  Nat.xor_lt_two_pow (Nat.mod_lt _ (Nat.two_pow_pos _)) hf.2

/-! The same of the active view of a state -/

theorem State.fld_set_same (s : State) (b : Blk) (f : Fld) (v : Nat) (hf : Fits f) :
    (s.set b f v).fld b f = v % 2 ^ f.width := regGet_regPut_same _ _ _ _ hf

theorem State.fld_set_word (s : State) (b b' : Blk) (f f' : Fld) (v : Nat)
    (h : b'.base + f'.off ≠ b.base + f.off) : (s.set b f v).fld b' f' = s.fld b' f' :=
  regGet_regPut_word _ _ _ _ _ _ h

theorem State.fld_set_bits (s : State) (b b' : Blk) (f f' : Fld) (v : Nat)
    (h : f.lsb + f.width ≤ f'.lsb ∨ f'.lsb + f'.width ≤ f.lsb) : (s.set b f v).fld b' f' = s.fld b' f' :=
  regGet_regPut_bits _ _ _ _ _ _ h

theorem State.stg_setStg_same (s : State) (b : Blk) (f : Fld) (v : Nat) (hf : Fits f) :
    (s.setStg b f v).stg b f = v % 2 ^ f.width := regGet_regPut_same _ _ _ _ hf

theorem State.stg_setStg_word (s : State) (b b' : Blk) (f f' : Fld) (v : Nat)
    (h : b'.base + f'.off ≠ b.base + f.off) : (s.setStg b f v).stg b' f' = s.stg b' f' :=
  regGet_regPut_word _ _ _ _ _ _ h

theorem State.stg_setStg_bits (s : State) (b b' : Blk) (f f' : Fld) (v : Nat)
    (h : f.lsb + f.width ≤ f'.lsb ∨ f'.lsb + f'.width ≤ f.lsb) : (s.setStg b f v).stg b' f' = s.stg b' f' :=
  regGet_regPut_bits _ _ _ _ _ _ h

/-- Both a 0 and a 1 read back from a one-bit field. -/
theorem State.bit_setBit_same (s : State) (b : Blk) (f : Fld) (v : Bool) (hf : Fits f) (h1 : f.width = 1) :
    (s.setBit b f v).bit b f = v := by
  simp only [State.bit, State.setBit, State.fld_set_same _ _ _ _ hf, h1]
  cases v <;> decide

end Sys2Proof.Machine
end

