-- ==== Sys2Proof/Laws/State.lean ====
section
/-! SUPPORT. What each update of the state leaves alone, field by field. -/

set_option Elab.async false

namespace Sys2Proof.Machine

open Sys2Proof

variable (s : State)

/-! `State.withAct` -/
@[simp] theorem State.withAct_model (m : RegMap) : (s.withAct m).model = s.model := rfl
@[simp] theorem State.withAct_render (m : RegMap) : (s.withAct m).render = s.render := rfl
@[simp] theorem State.withAct_changes (m : RegMap) : (s.withAct m).changes = s.changes := rfl
@[simp] theorem State.withAct_objs (m : RegMap) : (s.withAct m).objs = s.objs := rfl
@[simp] theorem State.withAct_motion (m : RegMap) : (s.withAct m).motion = s.motion := rfl
@[simp] theorem State.withAct_layouts (m : RegMap) : (s.withAct m).layouts = s.layouts := rfl
@[simp] theorem State.withAct_paths (m : RegMap) : (s.withAct m).paths = s.paths := rfl
@[simp] theorem State.withAct_samples (m : RegMap) : (s.withAct m).samples = s.samples := rfl
@[simp] theorem State.withAct_routes (m : RegMap) : (s.withAct m).routes = s.routes := rfl
@[simp] theorem State.withAct_buses (m : RegMap) : (s.withAct m).buses = s.buses := rfl
@[simp] theorem State.withAct_outs (m : RegMap) : (s.withAct m).outs = s.outs := rfl
@[simp] theorem State.withAct_bass (m : RegMap) : (s.withAct m).bass = s.bass := rfl
@[simp] theorem State.withAct_outEq (m : RegMap) : (s.withAct m).outEq = s.outEq := rfl
@[simp] theorem State.withAct_corrRecord (m : RegMap) : (s.withAct m).corrRecord = s.corrRecord := rfl
@[simp] theorem State.withAct_tap (m : RegMap) : (s.withAct m).tap = s.tap := rfl
@[simp] theorem State.withAct_curtain (m : RegMap) : (s.withAct m).curtain = s.curtain := rfl
@[simp] theorem State.withAct_monitor (m : RegMap) : (s.withAct m).monitor = s.monitor := rfl
@[simp] theorem State.withAct_ps (m : RegMap) : (s.withAct m).ps = s.ps := rfl
@[simp] theorem State.withAct_thermals (m : RegMap) : (s.withAct m).thermals = s.thermals := rfl
@[simp] theorem State.withAct_tdmRx (m : RegMap) : (s.withAct m).tdmRx = s.tdmRx := rfl
@[simp] theorem State.withAct_tdmTx (m : RegMap) : (s.withAct m).tdmTx = s.tdmTx := rfl
@[simp] theorem State.withAct_aesRx (m : RegMap) : (s.withAct m).aesRx = s.aesRx := rfl
@[simp] theorem State.withAct_aesTx (m : RegMap) : (s.withAct m).aesTx = s.aesTx := rfl
@[simp] theorem State.withAct_time (m : RegMap) : (s.withAct m).time = s.time := rfl
@[simp] theorem State.withAct_net (m : RegMap) : (s.withAct m).net = s.net := rfl
@[simp] theorem State.withAct_sched (m : RegMap) : (s.withAct m).sched = s.sched := rfl
@[simp] theorem State.withAct_seats (m : RegMap) : (s.withAct m).seats = s.seats := rfl
@[simp] theorem State.withAct_hosts (m : RegMap) : (s.withAct m).hosts = s.hosts := rfl
@[simp] theorem State.withAct_pool (m : RegMap) : (s.withAct m).pool = s.pool := rfl
@[simp] theorem State.withAct_chains (m : RegMap) : (s.withAct m).chains = s.chains := rfl
@[simp] theorem State.withAct_measure (m : RegMap) : (s.withAct m).measure = s.measure := rfl
@[simp] theorem State.withAct_hostMem (m : RegMap) : (s.withAct m).hostMem = s.hostMem := rfl
@[simp] theorem State.withAct_twin (m : RegMap) : (s.withAct m).twin = s.twin := rfl
@[simp] theorem State.withAct_cue (m : RegMap) : (s.withAct m).cue = s.cue := rfl
@[simp] theorem State.withAct_prompters (m : RegMap) : (s.withAct m).prompters = s.prompters := rfl
@[simp] theorem State.withAct_gpio (m : RegMap) : (s.withAct m).gpio = s.gpio := rfl
@[simp] theorem State.withAct_tc (m : RegMap) : (s.withAct m).tc = s.tc := rfl
@[simp] theorem State.withAct_snaps (m : RegMap) : (s.withAct m).snaps = s.snaps := rfl
@[simp] theorem State.withAct_levels (m : RegMap) : (s.withAct m).levels = s.levels := rfl
@[simp] theorem State.withAct_call (m : RegMap) : (s.withAct m).call = s.call := rfl
@[simp] theorem State.withAct_green (m : RegMap) : (s.withAct m).green = s.green := rfl
@[simp] theorem State.withAct_mon (m : RegMap) : (s.withAct m).mon = s.mon := rfl
@[simp] theorem State.withAct_boot (m : RegMap) : (s.withAct m).boot = s.boot := rfl
@[simp] theorem State.withAct_free (m : RegMap) : (s.withAct m).free = s.free := rfl
@[simp] theorem State.withAct_pending (m : RegMap) : (s.withAct m).pending = s.pending := rfl
@[simp] theorem State.withAct_fab_stg (m : RegMap) : (s.withAct m).fab.stg = s.fab.stg := rfl
@[simp] theorem State.withAct_fab_mir (m : RegMap) : (s.withAct m).fab.mir = s.fab.mir := rfl
@[simp] theorem State.withAct_fab_recOwner (m : RegMap) : (s.withAct m).fab.recOwner = s.fab.recOwner := rfl
@[simp] theorem State.withAct_fab_recGroup (m : RegMap) : (s.withAct m).fab.recGroup = s.fab.recGroup := rfl
@[simp] theorem State.withAct_fab_stagedPending (m : RegMap) : (s.withAct m).fab.stagedPending = s.fab.stagedPending := rfl
@[simp] theorem State.withAct_fab_latch (m : RegMap) : (s.withAct m).fab.latch = s.fab.latch := rfl
@[simp] theorem State.withAct_fab_holding (m : RegMap) : (s.withAct m).fab.holding = s.fab.holding := rfl
@[simp] theorem State.withAct_fab_refreshTag (m : RegMap) : (s.withAct m).fab.refreshTag = s.fab.refreshTag := rfl
@[simp] theorem State.withAct_fab_refreshedAt (m : RegMap) : (s.withAct m).fab.refreshedAt = s.fab.refreshedAt := rfl
@[simp] theorem State.withAct_fab_evMark (m : RegMap) : (s.withAct m).fab.evMark = s.fab.evMark := rfl
@[simp] theorem State.withAct_fab_posted (m : RegMap) : (s.withAct m).fab.posted = s.fab.posted := rfl
@[simp] theorem State.withAct_fab_commits (m : RegMap) : (s.withAct m).fab.commits = s.fab.commits := rfl
@[simp] theorem State.withAct_fab_serial (m : RegMap) : (s.withAct m).fab.serial = s.fab.serial := rfl
@[simp] theorem State.withAct_fab_lastStrobe (m : RegMap) : (s.withAct m).fab.lastStrobe = s.fab.lastStrobe := rfl
@[simp] theorem State.withAct_fab_resets (m : RegMap) : (s.withAct m).fab.resets = s.fab.resets := rfl
@[simp] theorem State.withAct_fab_held (m : RegMap) : (s.withAct m).fab.held = s.fab.held := rfl
@[simp] theorem State.withAct_fab_defcfg (m : RegMap) : (s.withAct m).fab.defcfg = s.fab.defcfg := rfl
@[simp] theorem State.withAct_fab_answer (m : RegMap) : (s.withAct m).fab.answer = s.fab.answer := rfl

/-! `State.withStg` -/
@[simp] theorem State.withStg_model (m : RegMap) : (s.withStg m).model = s.model := rfl
@[simp] theorem State.withStg_render (m : RegMap) : (s.withStg m).render = s.render := rfl
@[simp] theorem State.withStg_changes (m : RegMap) : (s.withStg m).changes = s.changes := rfl
@[simp] theorem State.withStg_objs (m : RegMap) : (s.withStg m).objs = s.objs := rfl
@[simp] theorem State.withStg_motion (m : RegMap) : (s.withStg m).motion = s.motion := rfl
@[simp] theorem State.withStg_layouts (m : RegMap) : (s.withStg m).layouts = s.layouts := rfl
@[simp] theorem State.withStg_paths (m : RegMap) : (s.withStg m).paths = s.paths := rfl
@[simp] theorem State.withStg_samples (m : RegMap) : (s.withStg m).samples = s.samples := rfl
@[simp] theorem State.withStg_routes (m : RegMap) : (s.withStg m).routes = s.routes := rfl
@[simp] theorem State.withStg_buses (m : RegMap) : (s.withStg m).buses = s.buses := rfl
@[simp] theorem State.withStg_outs (m : RegMap) : (s.withStg m).outs = s.outs := rfl
@[simp] theorem State.withStg_bass (m : RegMap) : (s.withStg m).bass = s.bass := rfl
@[simp] theorem State.withStg_outEq (m : RegMap) : (s.withStg m).outEq = s.outEq := rfl
@[simp] theorem State.withStg_corrRecord (m : RegMap) : (s.withStg m).corrRecord = s.corrRecord := rfl
@[simp] theorem State.withStg_tap (m : RegMap) : (s.withStg m).tap = s.tap := rfl
@[simp] theorem State.withStg_curtain (m : RegMap) : (s.withStg m).curtain = s.curtain := rfl
@[simp] theorem State.withStg_monitor (m : RegMap) : (s.withStg m).monitor = s.monitor := rfl
@[simp] theorem State.withStg_ps (m : RegMap) : (s.withStg m).ps = s.ps := rfl
@[simp] theorem State.withStg_thermals (m : RegMap) : (s.withStg m).thermals = s.thermals := rfl
@[simp] theorem State.withStg_tdmRx (m : RegMap) : (s.withStg m).tdmRx = s.tdmRx := rfl
@[simp] theorem State.withStg_tdmTx (m : RegMap) : (s.withStg m).tdmTx = s.tdmTx := rfl
@[simp] theorem State.withStg_aesRx (m : RegMap) : (s.withStg m).aesRx = s.aesRx := rfl
@[simp] theorem State.withStg_aesTx (m : RegMap) : (s.withStg m).aesTx = s.aesTx := rfl
@[simp] theorem State.withStg_time (m : RegMap) : (s.withStg m).time = s.time := rfl
@[simp] theorem State.withStg_net (m : RegMap) : (s.withStg m).net = s.net := rfl
@[simp] theorem State.withStg_sched (m : RegMap) : (s.withStg m).sched = s.sched := rfl
@[simp] theorem State.withStg_seats (m : RegMap) : (s.withStg m).seats = s.seats := rfl
@[simp] theorem State.withStg_hosts (m : RegMap) : (s.withStg m).hosts = s.hosts := rfl
@[simp] theorem State.withStg_pool (m : RegMap) : (s.withStg m).pool = s.pool := rfl
@[simp] theorem State.withStg_chains (m : RegMap) : (s.withStg m).chains = s.chains := rfl
@[simp] theorem State.withStg_measure (m : RegMap) : (s.withStg m).measure = s.measure := rfl
@[simp] theorem State.withStg_hostMem (m : RegMap) : (s.withStg m).hostMem = s.hostMem := rfl
@[simp] theorem State.withStg_twin (m : RegMap) : (s.withStg m).twin = s.twin := rfl
@[simp] theorem State.withStg_cue (m : RegMap) : (s.withStg m).cue = s.cue := rfl
@[simp] theorem State.withStg_prompters (m : RegMap) : (s.withStg m).prompters = s.prompters := rfl
@[simp] theorem State.withStg_gpio (m : RegMap) : (s.withStg m).gpio = s.gpio := rfl
@[simp] theorem State.withStg_tc (m : RegMap) : (s.withStg m).tc = s.tc := rfl
@[simp] theorem State.withStg_snaps (m : RegMap) : (s.withStg m).snaps = s.snaps := rfl
@[simp] theorem State.withStg_levels (m : RegMap) : (s.withStg m).levels = s.levels := rfl
@[simp] theorem State.withStg_call (m : RegMap) : (s.withStg m).call = s.call := rfl
@[simp] theorem State.withStg_green (m : RegMap) : (s.withStg m).green = s.green := rfl
@[simp] theorem State.withStg_mon (m : RegMap) : (s.withStg m).mon = s.mon := rfl
@[simp] theorem State.withStg_boot (m : RegMap) : (s.withStg m).boot = s.boot := rfl
@[simp] theorem State.withStg_free (m : RegMap) : (s.withStg m).free = s.free := rfl
@[simp] theorem State.withStg_pending (m : RegMap) : (s.withStg m).pending = s.pending := rfl
@[simp] theorem State.withStg_fab_act (m : RegMap) : (s.withStg m).fab.act = s.fab.act := rfl
@[simp] theorem State.withStg_fab_mir (m : RegMap) : (s.withStg m).fab.mir = s.fab.mir := rfl
@[simp] theorem State.withStg_fab_recOwner (m : RegMap) : (s.withStg m).fab.recOwner = s.fab.recOwner := rfl
@[simp] theorem State.withStg_fab_recGroup (m : RegMap) : (s.withStg m).fab.recGroup = s.fab.recGroup := rfl
@[simp] theorem State.withStg_fab_stagedPending (m : RegMap) : (s.withStg m).fab.stagedPending = s.fab.stagedPending := rfl
@[simp] theorem State.withStg_fab_latch (m : RegMap) : (s.withStg m).fab.latch = s.fab.latch := rfl
@[simp] theorem State.withStg_fab_holding (m : RegMap) : (s.withStg m).fab.holding = s.fab.holding := rfl
@[simp] theorem State.withStg_fab_refreshTag (m : RegMap) : (s.withStg m).fab.refreshTag = s.fab.refreshTag := rfl
@[simp] theorem State.withStg_fab_refreshedAt (m : RegMap) : (s.withStg m).fab.refreshedAt = s.fab.refreshedAt := rfl
@[simp] theorem State.withStg_fab_evMark (m : RegMap) : (s.withStg m).fab.evMark = s.fab.evMark := rfl
@[simp] theorem State.withStg_fab_posted (m : RegMap) : (s.withStg m).fab.posted = s.fab.posted := rfl
@[simp] theorem State.withStg_fab_commits (m : RegMap) : (s.withStg m).fab.commits = s.fab.commits := rfl
@[simp] theorem State.withStg_fab_serial (m : RegMap) : (s.withStg m).fab.serial = s.fab.serial := rfl
@[simp] theorem State.withStg_fab_lastStrobe (m : RegMap) : (s.withStg m).fab.lastStrobe = s.fab.lastStrobe := rfl
@[simp] theorem State.withStg_fab_resets (m : RegMap) : (s.withStg m).fab.resets = s.fab.resets := rfl
@[simp] theorem State.withStg_fab_held (m : RegMap) : (s.withStg m).fab.held = s.fab.held := rfl
@[simp] theorem State.withStg_fab_defcfg (m : RegMap) : (s.withStg m).fab.defcfg = s.fab.defcfg := rfl
@[simp] theorem State.withStg_fab_answer (m : RegMap) : (s.withStg m).fab.answer = s.fab.answer := rfl

/-! `State.set` -/
@[simp] theorem State.set_model (b : Blk) (f : Fld) (v : Nat) : (s.set b f v).model = s.model := rfl
@[simp] theorem State.set_render (b : Blk) (f : Fld) (v : Nat) : (s.set b f v).render = s.render := rfl
@[simp] theorem State.set_changes (b : Blk) (f : Fld) (v : Nat) : (s.set b f v).changes = s.changes := rfl
@[simp] theorem State.set_objs (b : Blk) (f : Fld) (v : Nat) : (s.set b f v).objs = s.objs := rfl
@[simp] theorem State.set_motion (b : Blk) (f : Fld) (v : Nat) : (s.set b f v).motion = s.motion := rfl
@[simp] theorem State.set_layouts (b : Blk) (f : Fld) (v : Nat) : (s.set b f v).layouts = s.layouts := rfl
@[simp] theorem State.set_paths (b : Blk) (f : Fld) (v : Nat) : (s.set b f v).paths = s.paths := rfl
@[simp] theorem State.set_samples (b : Blk) (f : Fld) (v : Nat) : (s.set b f v).samples = s.samples := rfl
@[simp] theorem State.set_routes (b : Blk) (f : Fld) (v : Nat) : (s.set b f v).routes = s.routes := rfl
@[simp] theorem State.set_buses (b : Blk) (f : Fld) (v : Nat) : (s.set b f v).buses = s.buses := rfl
@[simp] theorem State.set_outs (b : Blk) (f : Fld) (v : Nat) : (s.set b f v).outs = s.outs := rfl
@[simp] theorem State.set_bass (b : Blk) (f : Fld) (v : Nat) : (s.set b f v).bass = s.bass := rfl
@[simp] theorem State.set_outEq (b : Blk) (f : Fld) (v : Nat) : (s.set b f v).outEq = s.outEq := rfl
@[simp] theorem State.set_corrRecord (b : Blk) (f : Fld) (v : Nat) : (s.set b f v).corrRecord = s.corrRecord := rfl
@[simp] theorem State.set_tap (b : Blk) (f : Fld) (v : Nat) : (s.set b f v).tap = s.tap := rfl
@[simp] theorem State.set_curtain (b : Blk) (f : Fld) (v : Nat) : (s.set b f v).curtain = s.curtain := rfl
@[simp] theorem State.set_monitor (b : Blk) (f : Fld) (v : Nat) : (s.set b f v).monitor = s.monitor := rfl
@[simp] theorem State.set_ps (b : Blk) (f : Fld) (v : Nat) : (s.set b f v).ps = s.ps := rfl
@[simp] theorem State.set_thermals (b : Blk) (f : Fld) (v : Nat) : (s.set b f v).thermals = s.thermals := rfl
@[simp] theorem State.set_tdmRx (b : Blk) (f : Fld) (v : Nat) : (s.set b f v).tdmRx = s.tdmRx := rfl
@[simp] theorem State.set_tdmTx (b : Blk) (f : Fld) (v : Nat) : (s.set b f v).tdmTx = s.tdmTx := rfl
@[simp] theorem State.set_aesRx (b : Blk) (f : Fld) (v : Nat) : (s.set b f v).aesRx = s.aesRx := rfl
@[simp] theorem State.set_aesTx (b : Blk) (f : Fld) (v : Nat) : (s.set b f v).aesTx = s.aesTx := rfl
@[simp] theorem State.set_time (b : Blk) (f : Fld) (v : Nat) : (s.set b f v).time = s.time := rfl
@[simp] theorem State.set_net (b : Blk) (f : Fld) (v : Nat) : (s.set b f v).net = s.net := rfl
@[simp] theorem State.set_sched (b : Blk) (f : Fld) (v : Nat) : (s.set b f v).sched = s.sched := rfl
@[simp] theorem State.set_seats (b : Blk) (f : Fld) (v : Nat) : (s.set b f v).seats = s.seats := rfl
@[simp] theorem State.set_hosts (b : Blk) (f : Fld) (v : Nat) : (s.set b f v).hosts = s.hosts := rfl
@[simp] theorem State.set_pool (b : Blk) (f : Fld) (v : Nat) : (s.set b f v).pool = s.pool := rfl
@[simp] theorem State.set_chains (b : Blk) (f : Fld) (v : Nat) : (s.set b f v).chains = s.chains := rfl
@[simp] theorem State.set_measure (b : Blk) (f : Fld) (v : Nat) : (s.set b f v).measure = s.measure := rfl
@[simp] theorem State.set_hostMem (b : Blk) (f : Fld) (v : Nat) : (s.set b f v).hostMem = s.hostMem := rfl
@[simp] theorem State.set_twin (b : Blk) (f : Fld) (v : Nat) : (s.set b f v).twin = s.twin := rfl
@[simp] theorem State.set_cue (b : Blk) (f : Fld) (v : Nat) : (s.set b f v).cue = s.cue := rfl
@[simp] theorem State.set_prompters (b : Blk) (f : Fld) (v : Nat) : (s.set b f v).prompters = s.prompters := rfl
@[simp] theorem State.set_gpio (b : Blk) (f : Fld) (v : Nat) : (s.set b f v).gpio = s.gpio := rfl
@[simp] theorem State.set_tc (b : Blk) (f : Fld) (v : Nat) : (s.set b f v).tc = s.tc := rfl
@[simp] theorem State.set_snaps (b : Blk) (f : Fld) (v : Nat) : (s.set b f v).snaps = s.snaps := rfl
@[simp] theorem State.set_levels (b : Blk) (f : Fld) (v : Nat) : (s.set b f v).levels = s.levels := rfl
@[simp] theorem State.set_call (b : Blk) (f : Fld) (v : Nat) : (s.set b f v).call = s.call := rfl
@[simp] theorem State.set_green (b : Blk) (f : Fld) (v : Nat) : (s.set b f v).green = s.green := rfl
@[simp] theorem State.set_mon (b : Blk) (f : Fld) (v : Nat) : (s.set b f v).mon = s.mon := rfl
@[simp] theorem State.set_boot (b : Blk) (f : Fld) (v : Nat) : (s.set b f v).boot = s.boot := rfl
@[simp] theorem State.set_free (b : Blk) (f : Fld) (v : Nat) : (s.set b f v).free = s.free := rfl
@[simp] theorem State.set_pending (b : Blk) (f : Fld) (v : Nat) : (s.set b f v).pending = s.pending := rfl
@[simp] theorem State.set_fab_stg (b : Blk) (f : Fld) (v : Nat) : (s.set b f v).fab.stg = s.fab.stg := rfl
@[simp] theorem State.set_fab_mir (b : Blk) (f : Fld) (v : Nat) : (s.set b f v).fab.mir = s.fab.mir := rfl
@[simp] theorem State.set_fab_recOwner (b : Blk) (f : Fld) (v : Nat) : (s.set b f v).fab.recOwner = s.fab.recOwner := rfl
@[simp] theorem State.set_fab_recGroup (b : Blk) (f : Fld) (v : Nat) : (s.set b f v).fab.recGroup = s.fab.recGroup := rfl
@[simp] theorem State.set_fab_stagedPending (b : Blk) (f : Fld) (v : Nat) : (s.set b f v).fab.stagedPending = s.fab.stagedPending := rfl
@[simp] theorem State.set_fab_latch (b : Blk) (f : Fld) (v : Nat) : (s.set b f v).fab.latch = s.fab.latch := rfl
@[simp] theorem State.set_fab_holding (b : Blk) (f : Fld) (v : Nat) : (s.set b f v).fab.holding = s.fab.holding := rfl
@[simp] theorem State.set_fab_refreshTag (b : Blk) (f : Fld) (v : Nat) : (s.set b f v).fab.refreshTag = s.fab.refreshTag := rfl
@[simp] theorem State.set_fab_refreshedAt (b : Blk) (f : Fld) (v : Nat) : (s.set b f v).fab.refreshedAt = s.fab.refreshedAt := rfl
@[simp] theorem State.set_fab_evMark (b : Blk) (f : Fld) (v : Nat) : (s.set b f v).fab.evMark = s.fab.evMark := rfl
@[simp] theorem State.set_fab_posted (b : Blk) (f : Fld) (v : Nat) : (s.set b f v).fab.posted = s.fab.posted := rfl
@[simp] theorem State.set_fab_commits (b : Blk) (f : Fld) (v : Nat) : (s.set b f v).fab.commits = s.fab.commits := rfl
@[simp] theorem State.set_fab_serial (b : Blk) (f : Fld) (v : Nat) : (s.set b f v).fab.serial = s.fab.serial := rfl
@[simp] theorem State.set_fab_lastStrobe (b : Blk) (f : Fld) (v : Nat) : (s.set b f v).fab.lastStrobe = s.fab.lastStrobe := rfl
@[simp] theorem State.set_fab_resets (b : Blk) (f : Fld) (v : Nat) : (s.set b f v).fab.resets = s.fab.resets := rfl
@[simp] theorem State.set_fab_held (b : Blk) (f : Fld) (v : Nat) : (s.set b f v).fab.held = s.fab.held := rfl
@[simp] theorem State.set_fab_defcfg (b : Blk) (f : Fld) (v : Nat) : (s.set b f v).fab.defcfg = s.fab.defcfg := rfl
@[simp] theorem State.set_fab_answer (b : Blk) (f : Fld) (v : Nat) : (s.set b f v).fab.answer = s.fab.answer := rfl

/-! `State.setStg` -/
@[simp] theorem State.setStg_model (b : Blk) (f : Fld) (v : Nat) : (s.setStg b f v).model = s.model := rfl
@[simp] theorem State.setStg_render (b : Blk) (f : Fld) (v : Nat) : (s.setStg b f v).render = s.render := rfl
@[simp] theorem State.setStg_changes (b : Blk) (f : Fld) (v : Nat) : (s.setStg b f v).changes = s.changes := rfl
@[simp] theorem State.setStg_objs (b : Blk) (f : Fld) (v : Nat) : (s.setStg b f v).objs = s.objs := rfl
@[simp] theorem State.setStg_motion (b : Blk) (f : Fld) (v : Nat) : (s.setStg b f v).motion = s.motion := rfl
@[simp] theorem State.setStg_layouts (b : Blk) (f : Fld) (v : Nat) : (s.setStg b f v).layouts = s.layouts := rfl
@[simp] theorem State.setStg_paths (b : Blk) (f : Fld) (v : Nat) : (s.setStg b f v).paths = s.paths := rfl
@[simp] theorem State.setStg_samples (b : Blk) (f : Fld) (v : Nat) : (s.setStg b f v).samples = s.samples := rfl
@[simp] theorem State.setStg_routes (b : Blk) (f : Fld) (v : Nat) : (s.setStg b f v).routes = s.routes := rfl
@[simp] theorem State.setStg_buses (b : Blk) (f : Fld) (v : Nat) : (s.setStg b f v).buses = s.buses := rfl
@[simp] theorem State.setStg_outs (b : Blk) (f : Fld) (v : Nat) : (s.setStg b f v).outs = s.outs := rfl
@[simp] theorem State.setStg_bass (b : Blk) (f : Fld) (v : Nat) : (s.setStg b f v).bass = s.bass := rfl
@[simp] theorem State.setStg_outEq (b : Blk) (f : Fld) (v : Nat) : (s.setStg b f v).outEq = s.outEq := rfl
@[simp] theorem State.setStg_corrRecord (b : Blk) (f : Fld) (v : Nat) : (s.setStg b f v).corrRecord = s.corrRecord := rfl
@[simp] theorem State.setStg_tap (b : Blk) (f : Fld) (v : Nat) : (s.setStg b f v).tap = s.tap := rfl
@[simp] theorem State.setStg_curtain (b : Blk) (f : Fld) (v : Nat) : (s.setStg b f v).curtain = s.curtain := rfl
@[simp] theorem State.setStg_monitor (b : Blk) (f : Fld) (v : Nat) : (s.setStg b f v).monitor = s.monitor := rfl
@[simp] theorem State.setStg_ps (b : Blk) (f : Fld) (v : Nat) : (s.setStg b f v).ps = s.ps := rfl
@[simp] theorem State.setStg_thermals (b : Blk) (f : Fld) (v : Nat) : (s.setStg b f v).thermals = s.thermals := rfl
@[simp] theorem State.setStg_tdmRx (b : Blk) (f : Fld) (v : Nat) : (s.setStg b f v).tdmRx = s.tdmRx := rfl
@[simp] theorem State.setStg_tdmTx (b : Blk) (f : Fld) (v : Nat) : (s.setStg b f v).tdmTx = s.tdmTx := rfl
@[simp] theorem State.setStg_aesRx (b : Blk) (f : Fld) (v : Nat) : (s.setStg b f v).aesRx = s.aesRx := rfl
@[simp] theorem State.setStg_aesTx (b : Blk) (f : Fld) (v : Nat) : (s.setStg b f v).aesTx = s.aesTx := rfl
@[simp] theorem State.setStg_time (b : Blk) (f : Fld) (v : Nat) : (s.setStg b f v).time = s.time := rfl
@[simp] theorem State.setStg_net (b : Blk) (f : Fld) (v : Nat) : (s.setStg b f v).net = s.net := rfl
@[simp] theorem State.setStg_sched (b : Blk) (f : Fld) (v : Nat) : (s.setStg b f v).sched = s.sched := rfl
@[simp] theorem State.setStg_seats (b : Blk) (f : Fld) (v : Nat) : (s.setStg b f v).seats = s.seats := rfl
@[simp] theorem State.setStg_hosts (b : Blk) (f : Fld) (v : Nat) : (s.setStg b f v).hosts = s.hosts := rfl
@[simp] theorem State.setStg_pool (b : Blk) (f : Fld) (v : Nat) : (s.setStg b f v).pool = s.pool := rfl
@[simp] theorem State.setStg_chains (b : Blk) (f : Fld) (v : Nat) : (s.setStg b f v).chains = s.chains := rfl
@[simp] theorem State.setStg_measure (b : Blk) (f : Fld) (v : Nat) : (s.setStg b f v).measure = s.measure := rfl
@[simp] theorem State.setStg_hostMem (b : Blk) (f : Fld) (v : Nat) : (s.setStg b f v).hostMem = s.hostMem := rfl
@[simp] theorem State.setStg_twin (b : Blk) (f : Fld) (v : Nat) : (s.setStg b f v).twin = s.twin := rfl
@[simp] theorem State.setStg_cue (b : Blk) (f : Fld) (v : Nat) : (s.setStg b f v).cue = s.cue := rfl
@[simp] theorem State.setStg_prompters (b : Blk) (f : Fld) (v : Nat) : (s.setStg b f v).prompters = s.prompters := rfl
@[simp] theorem State.setStg_gpio (b : Blk) (f : Fld) (v : Nat) : (s.setStg b f v).gpio = s.gpio := rfl
@[simp] theorem State.setStg_tc (b : Blk) (f : Fld) (v : Nat) : (s.setStg b f v).tc = s.tc := rfl
@[simp] theorem State.setStg_snaps (b : Blk) (f : Fld) (v : Nat) : (s.setStg b f v).snaps = s.snaps := rfl
@[simp] theorem State.setStg_levels (b : Blk) (f : Fld) (v : Nat) : (s.setStg b f v).levels = s.levels := rfl
@[simp] theorem State.setStg_call (b : Blk) (f : Fld) (v : Nat) : (s.setStg b f v).call = s.call := rfl
@[simp] theorem State.setStg_green (b : Blk) (f : Fld) (v : Nat) : (s.setStg b f v).green = s.green := rfl
@[simp] theorem State.setStg_mon (b : Blk) (f : Fld) (v : Nat) : (s.setStg b f v).mon = s.mon := rfl
@[simp] theorem State.setStg_boot (b : Blk) (f : Fld) (v : Nat) : (s.setStg b f v).boot = s.boot := rfl
@[simp] theorem State.setStg_free (b : Blk) (f : Fld) (v : Nat) : (s.setStg b f v).free = s.free := rfl
@[simp] theorem State.setStg_pending (b : Blk) (f : Fld) (v : Nat) : (s.setStg b f v).pending = s.pending := rfl
@[simp] theorem State.setStg_fab_act (b : Blk) (f : Fld) (v : Nat) : (s.setStg b f v).fab.act = s.fab.act := rfl
@[simp] theorem State.setStg_fab_mir (b : Blk) (f : Fld) (v : Nat) : (s.setStg b f v).fab.mir = s.fab.mir := rfl
@[simp] theorem State.setStg_fab_recOwner (b : Blk) (f : Fld) (v : Nat) : (s.setStg b f v).fab.recOwner = s.fab.recOwner := rfl
@[simp] theorem State.setStg_fab_recGroup (b : Blk) (f : Fld) (v : Nat) : (s.setStg b f v).fab.recGroup = s.fab.recGroup := rfl
@[simp] theorem State.setStg_fab_stagedPending (b : Blk) (f : Fld) (v : Nat) : (s.setStg b f v).fab.stagedPending = s.fab.stagedPending := rfl
@[simp] theorem State.setStg_fab_latch (b : Blk) (f : Fld) (v : Nat) : (s.setStg b f v).fab.latch = s.fab.latch := rfl
@[simp] theorem State.setStg_fab_holding (b : Blk) (f : Fld) (v : Nat) : (s.setStg b f v).fab.holding = s.fab.holding := rfl
@[simp] theorem State.setStg_fab_refreshTag (b : Blk) (f : Fld) (v : Nat) : (s.setStg b f v).fab.refreshTag = s.fab.refreshTag := rfl
@[simp] theorem State.setStg_fab_refreshedAt (b : Blk) (f : Fld) (v : Nat) : (s.setStg b f v).fab.refreshedAt = s.fab.refreshedAt := rfl
@[simp] theorem State.setStg_fab_evMark (b : Blk) (f : Fld) (v : Nat) : (s.setStg b f v).fab.evMark = s.fab.evMark := rfl
@[simp] theorem State.setStg_fab_posted (b : Blk) (f : Fld) (v : Nat) : (s.setStg b f v).fab.posted = s.fab.posted := rfl
@[simp] theorem State.setStg_fab_commits (b : Blk) (f : Fld) (v : Nat) : (s.setStg b f v).fab.commits = s.fab.commits := rfl
@[simp] theorem State.setStg_fab_serial (b : Blk) (f : Fld) (v : Nat) : (s.setStg b f v).fab.serial = s.fab.serial := rfl
@[simp] theorem State.setStg_fab_lastStrobe (b : Blk) (f : Fld) (v : Nat) : (s.setStg b f v).fab.lastStrobe = s.fab.lastStrobe := rfl
@[simp] theorem State.setStg_fab_resets (b : Blk) (f : Fld) (v : Nat) : (s.setStg b f v).fab.resets = s.fab.resets := rfl
@[simp] theorem State.setStg_fab_held (b : Blk) (f : Fld) (v : Nat) : (s.setStg b f v).fab.held = s.fab.held := rfl
@[simp] theorem State.setStg_fab_defcfg (b : Blk) (f : Fld) (v : Nat) : (s.setStg b f v).fab.defcfg = s.fab.defcfg := rfl
@[simp] theorem State.setStg_fab_answer (b : Blk) (f : Fld) (v : Nat) : (s.setStg b f v).fab.answer = s.fab.answer := rfl

/-! `State.setBoth` -/
@[simp] theorem State.setBoth_model (b : Blk) (f : Fld) (v : Nat) : (s.setBoth b f v).model = s.model := rfl
@[simp] theorem State.setBoth_render (b : Blk) (f : Fld) (v : Nat) : (s.setBoth b f v).render = s.render := rfl
@[simp] theorem State.setBoth_changes (b : Blk) (f : Fld) (v : Nat) : (s.setBoth b f v).changes = s.changes := rfl
@[simp] theorem State.setBoth_objs (b : Blk) (f : Fld) (v : Nat) : (s.setBoth b f v).objs = s.objs := rfl
@[simp] theorem State.setBoth_motion (b : Blk) (f : Fld) (v : Nat) : (s.setBoth b f v).motion = s.motion := rfl
@[simp] theorem State.setBoth_layouts (b : Blk) (f : Fld) (v : Nat) : (s.setBoth b f v).layouts = s.layouts := rfl
@[simp] theorem State.setBoth_paths (b : Blk) (f : Fld) (v : Nat) : (s.setBoth b f v).paths = s.paths := rfl
@[simp] theorem State.setBoth_samples (b : Blk) (f : Fld) (v : Nat) : (s.setBoth b f v).samples = s.samples := rfl
@[simp] theorem State.setBoth_routes (b : Blk) (f : Fld) (v : Nat) : (s.setBoth b f v).routes = s.routes := rfl
@[simp] theorem State.setBoth_buses (b : Blk) (f : Fld) (v : Nat) : (s.setBoth b f v).buses = s.buses := rfl
@[simp] theorem State.setBoth_outs (b : Blk) (f : Fld) (v : Nat) : (s.setBoth b f v).outs = s.outs := rfl
@[simp] theorem State.setBoth_bass (b : Blk) (f : Fld) (v : Nat) : (s.setBoth b f v).bass = s.bass := rfl
@[simp] theorem State.setBoth_outEq (b : Blk) (f : Fld) (v : Nat) : (s.setBoth b f v).outEq = s.outEq := rfl
@[simp] theorem State.setBoth_corrRecord (b : Blk) (f : Fld) (v : Nat) : (s.setBoth b f v).corrRecord = s.corrRecord := rfl
@[simp] theorem State.setBoth_tap (b : Blk) (f : Fld) (v : Nat) : (s.setBoth b f v).tap = s.tap := rfl
@[simp] theorem State.setBoth_curtain (b : Blk) (f : Fld) (v : Nat) : (s.setBoth b f v).curtain = s.curtain := rfl
@[simp] theorem State.setBoth_monitor (b : Blk) (f : Fld) (v : Nat) : (s.setBoth b f v).monitor = s.monitor := rfl
@[simp] theorem State.setBoth_ps (b : Blk) (f : Fld) (v : Nat) : (s.setBoth b f v).ps = s.ps := rfl
@[simp] theorem State.setBoth_thermals (b : Blk) (f : Fld) (v : Nat) : (s.setBoth b f v).thermals = s.thermals := rfl
@[simp] theorem State.setBoth_tdmRx (b : Blk) (f : Fld) (v : Nat) : (s.setBoth b f v).tdmRx = s.tdmRx := rfl
@[simp] theorem State.setBoth_tdmTx (b : Blk) (f : Fld) (v : Nat) : (s.setBoth b f v).tdmTx = s.tdmTx := rfl
@[simp] theorem State.setBoth_aesRx (b : Blk) (f : Fld) (v : Nat) : (s.setBoth b f v).aesRx = s.aesRx := rfl
@[simp] theorem State.setBoth_aesTx (b : Blk) (f : Fld) (v : Nat) : (s.setBoth b f v).aesTx = s.aesTx := rfl
@[simp] theorem State.setBoth_time (b : Blk) (f : Fld) (v : Nat) : (s.setBoth b f v).time = s.time := rfl
@[simp] theorem State.setBoth_net (b : Blk) (f : Fld) (v : Nat) : (s.setBoth b f v).net = s.net := rfl
@[simp] theorem State.setBoth_sched (b : Blk) (f : Fld) (v : Nat) : (s.setBoth b f v).sched = s.sched := rfl
@[simp] theorem State.setBoth_seats (b : Blk) (f : Fld) (v : Nat) : (s.setBoth b f v).seats = s.seats := rfl
@[simp] theorem State.setBoth_hosts (b : Blk) (f : Fld) (v : Nat) : (s.setBoth b f v).hosts = s.hosts := rfl
@[simp] theorem State.setBoth_pool (b : Blk) (f : Fld) (v : Nat) : (s.setBoth b f v).pool = s.pool := rfl
@[simp] theorem State.setBoth_chains (b : Blk) (f : Fld) (v : Nat) : (s.setBoth b f v).chains = s.chains := rfl
@[simp] theorem State.setBoth_measure (b : Blk) (f : Fld) (v : Nat) : (s.setBoth b f v).measure = s.measure := rfl
@[simp] theorem State.setBoth_hostMem (b : Blk) (f : Fld) (v : Nat) : (s.setBoth b f v).hostMem = s.hostMem := rfl
@[simp] theorem State.setBoth_twin (b : Blk) (f : Fld) (v : Nat) : (s.setBoth b f v).twin = s.twin := rfl
@[simp] theorem State.setBoth_cue (b : Blk) (f : Fld) (v : Nat) : (s.setBoth b f v).cue = s.cue := rfl
@[simp] theorem State.setBoth_prompters (b : Blk) (f : Fld) (v : Nat) : (s.setBoth b f v).prompters = s.prompters := rfl
@[simp] theorem State.setBoth_gpio (b : Blk) (f : Fld) (v : Nat) : (s.setBoth b f v).gpio = s.gpio := rfl
@[simp] theorem State.setBoth_tc (b : Blk) (f : Fld) (v : Nat) : (s.setBoth b f v).tc = s.tc := rfl
@[simp] theorem State.setBoth_snaps (b : Blk) (f : Fld) (v : Nat) : (s.setBoth b f v).snaps = s.snaps := rfl
@[simp] theorem State.setBoth_levels (b : Blk) (f : Fld) (v : Nat) : (s.setBoth b f v).levels = s.levels := rfl
@[simp] theorem State.setBoth_call (b : Blk) (f : Fld) (v : Nat) : (s.setBoth b f v).call = s.call := rfl
@[simp] theorem State.setBoth_green (b : Blk) (f : Fld) (v : Nat) : (s.setBoth b f v).green = s.green := rfl
@[simp] theorem State.setBoth_mon (b : Blk) (f : Fld) (v : Nat) : (s.setBoth b f v).mon = s.mon := rfl
@[simp] theorem State.setBoth_boot (b : Blk) (f : Fld) (v : Nat) : (s.setBoth b f v).boot = s.boot := rfl
@[simp] theorem State.setBoth_free (b : Blk) (f : Fld) (v : Nat) : (s.setBoth b f v).free = s.free := rfl
@[simp] theorem State.setBoth_pending (b : Blk) (f : Fld) (v : Nat) : (s.setBoth b f v).pending = s.pending := rfl
@[simp] theorem State.setBoth_fab_mir (b : Blk) (f : Fld) (v : Nat) : (s.setBoth b f v).fab.mir = s.fab.mir := rfl
@[simp] theorem State.setBoth_fab_recOwner (b : Blk) (f : Fld) (v : Nat) : (s.setBoth b f v).fab.recOwner = s.fab.recOwner := rfl
@[simp] theorem State.setBoth_fab_recGroup (b : Blk) (f : Fld) (v : Nat) : (s.setBoth b f v).fab.recGroup = s.fab.recGroup := rfl
@[simp] theorem State.setBoth_fab_stagedPending (b : Blk) (f : Fld) (v : Nat) : (s.setBoth b f v).fab.stagedPending = s.fab.stagedPending := rfl
@[simp] theorem State.setBoth_fab_latch (b : Blk) (f : Fld) (v : Nat) : (s.setBoth b f v).fab.latch = s.fab.latch := rfl
@[simp] theorem State.setBoth_fab_holding (b : Blk) (f : Fld) (v : Nat) : (s.setBoth b f v).fab.holding = s.fab.holding := rfl
@[simp] theorem State.setBoth_fab_refreshTag (b : Blk) (f : Fld) (v : Nat) : (s.setBoth b f v).fab.refreshTag = s.fab.refreshTag := rfl
@[simp] theorem State.setBoth_fab_refreshedAt (b : Blk) (f : Fld) (v : Nat) : (s.setBoth b f v).fab.refreshedAt = s.fab.refreshedAt := rfl
@[simp] theorem State.setBoth_fab_evMark (b : Blk) (f : Fld) (v : Nat) : (s.setBoth b f v).fab.evMark = s.fab.evMark := rfl
@[simp] theorem State.setBoth_fab_posted (b : Blk) (f : Fld) (v : Nat) : (s.setBoth b f v).fab.posted = s.fab.posted := rfl
@[simp] theorem State.setBoth_fab_commits (b : Blk) (f : Fld) (v : Nat) : (s.setBoth b f v).fab.commits = s.fab.commits := rfl
@[simp] theorem State.setBoth_fab_serial (b : Blk) (f : Fld) (v : Nat) : (s.setBoth b f v).fab.serial = s.fab.serial := rfl
@[simp] theorem State.setBoth_fab_lastStrobe (b : Blk) (f : Fld) (v : Nat) : (s.setBoth b f v).fab.lastStrobe = s.fab.lastStrobe := rfl
@[simp] theorem State.setBoth_fab_resets (b : Blk) (f : Fld) (v : Nat) : (s.setBoth b f v).fab.resets = s.fab.resets := rfl
@[simp] theorem State.setBoth_fab_held (b : Blk) (f : Fld) (v : Nat) : (s.setBoth b f v).fab.held = s.fab.held := rfl
@[simp] theorem State.setBoth_fab_defcfg (b : Blk) (f : Fld) (v : Nat) : (s.setBoth b f v).fab.defcfg = s.fab.defcfg := rfl
@[simp] theorem State.setBoth_fab_answer (b : Blk) (f : Fld) (v : Nat) : (s.setBoth b f v).fab.answer = s.fab.answer := rfl

/-! `State.setBit` -/
@[simp] theorem State.setBit_model (b : Blk) (f : Fld) (v : Bool) : (s.setBit b f v).model = s.model := rfl
@[simp] theorem State.setBit_render (b : Blk) (f : Fld) (v : Bool) : (s.setBit b f v).render = s.render := rfl
@[simp] theorem State.setBit_changes (b : Blk) (f : Fld) (v : Bool) : (s.setBit b f v).changes = s.changes := rfl
@[simp] theorem State.setBit_objs (b : Blk) (f : Fld) (v : Bool) : (s.setBit b f v).objs = s.objs := rfl
@[simp] theorem State.setBit_motion (b : Blk) (f : Fld) (v : Bool) : (s.setBit b f v).motion = s.motion := rfl
@[simp] theorem State.setBit_layouts (b : Blk) (f : Fld) (v : Bool) : (s.setBit b f v).layouts = s.layouts := rfl
@[simp] theorem State.setBit_paths (b : Blk) (f : Fld) (v : Bool) : (s.setBit b f v).paths = s.paths := rfl
@[simp] theorem State.setBit_samples (b : Blk) (f : Fld) (v : Bool) : (s.setBit b f v).samples = s.samples := rfl
@[simp] theorem State.setBit_routes (b : Blk) (f : Fld) (v : Bool) : (s.setBit b f v).routes = s.routes := rfl
@[simp] theorem State.setBit_buses (b : Blk) (f : Fld) (v : Bool) : (s.setBit b f v).buses = s.buses := rfl
@[simp] theorem State.setBit_outs (b : Blk) (f : Fld) (v : Bool) : (s.setBit b f v).outs = s.outs := rfl
@[simp] theorem State.setBit_bass (b : Blk) (f : Fld) (v : Bool) : (s.setBit b f v).bass = s.bass := rfl
@[simp] theorem State.setBit_outEq (b : Blk) (f : Fld) (v : Bool) : (s.setBit b f v).outEq = s.outEq := rfl
@[simp] theorem State.setBit_corrRecord (b : Blk) (f : Fld) (v : Bool) : (s.setBit b f v).corrRecord = s.corrRecord := rfl
@[simp] theorem State.setBit_tap (b : Blk) (f : Fld) (v : Bool) : (s.setBit b f v).tap = s.tap := rfl
@[simp] theorem State.setBit_curtain (b : Blk) (f : Fld) (v : Bool) : (s.setBit b f v).curtain = s.curtain := rfl
@[simp] theorem State.setBit_monitor (b : Blk) (f : Fld) (v : Bool) : (s.setBit b f v).monitor = s.monitor := rfl
@[simp] theorem State.setBit_ps (b : Blk) (f : Fld) (v : Bool) : (s.setBit b f v).ps = s.ps := rfl
@[simp] theorem State.setBit_thermals (b : Blk) (f : Fld) (v : Bool) : (s.setBit b f v).thermals = s.thermals := rfl
@[simp] theorem State.setBit_tdmRx (b : Blk) (f : Fld) (v : Bool) : (s.setBit b f v).tdmRx = s.tdmRx := rfl
@[simp] theorem State.setBit_tdmTx (b : Blk) (f : Fld) (v : Bool) : (s.setBit b f v).tdmTx = s.tdmTx := rfl
@[simp] theorem State.setBit_aesRx (b : Blk) (f : Fld) (v : Bool) : (s.setBit b f v).aesRx = s.aesRx := rfl
@[simp] theorem State.setBit_aesTx (b : Blk) (f : Fld) (v : Bool) : (s.setBit b f v).aesTx = s.aesTx := rfl
@[simp] theorem State.setBit_time (b : Blk) (f : Fld) (v : Bool) : (s.setBit b f v).time = s.time := rfl
@[simp] theorem State.setBit_net (b : Blk) (f : Fld) (v : Bool) : (s.setBit b f v).net = s.net := rfl
@[simp] theorem State.setBit_sched (b : Blk) (f : Fld) (v : Bool) : (s.setBit b f v).sched = s.sched := rfl
@[simp] theorem State.setBit_seats (b : Blk) (f : Fld) (v : Bool) : (s.setBit b f v).seats = s.seats := rfl
@[simp] theorem State.setBit_hosts (b : Blk) (f : Fld) (v : Bool) : (s.setBit b f v).hosts = s.hosts := rfl
@[simp] theorem State.setBit_pool (b : Blk) (f : Fld) (v : Bool) : (s.setBit b f v).pool = s.pool := rfl
@[simp] theorem State.setBit_chains (b : Blk) (f : Fld) (v : Bool) : (s.setBit b f v).chains = s.chains := rfl
@[simp] theorem State.setBit_measure (b : Blk) (f : Fld) (v : Bool) : (s.setBit b f v).measure = s.measure := rfl
@[simp] theorem State.setBit_hostMem (b : Blk) (f : Fld) (v : Bool) : (s.setBit b f v).hostMem = s.hostMem := rfl
@[simp] theorem State.setBit_twin (b : Blk) (f : Fld) (v : Bool) : (s.setBit b f v).twin = s.twin := rfl
@[simp] theorem State.setBit_cue (b : Blk) (f : Fld) (v : Bool) : (s.setBit b f v).cue = s.cue := rfl
@[simp] theorem State.setBit_prompters (b : Blk) (f : Fld) (v : Bool) : (s.setBit b f v).prompters = s.prompters := rfl
@[simp] theorem State.setBit_gpio (b : Blk) (f : Fld) (v : Bool) : (s.setBit b f v).gpio = s.gpio := rfl
@[simp] theorem State.setBit_tc (b : Blk) (f : Fld) (v : Bool) : (s.setBit b f v).tc = s.tc := rfl
@[simp] theorem State.setBit_snaps (b : Blk) (f : Fld) (v : Bool) : (s.setBit b f v).snaps = s.snaps := rfl
@[simp] theorem State.setBit_levels (b : Blk) (f : Fld) (v : Bool) : (s.setBit b f v).levels = s.levels := rfl
@[simp] theorem State.setBit_call (b : Blk) (f : Fld) (v : Bool) : (s.setBit b f v).call = s.call := rfl
@[simp] theorem State.setBit_green (b : Blk) (f : Fld) (v : Bool) : (s.setBit b f v).green = s.green := rfl
@[simp] theorem State.setBit_mon (b : Blk) (f : Fld) (v : Bool) : (s.setBit b f v).mon = s.mon := rfl
@[simp] theorem State.setBit_boot (b : Blk) (f : Fld) (v : Bool) : (s.setBit b f v).boot = s.boot := rfl
@[simp] theorem State.setBit_free (b : Blk) (f : Fld) (v : Bool) : (s.setBit b f v).free = s.free := rfl
@[simp] theorem State.setBit_pending (b : Blk) (f : Fld) (v : Bool) : (s.setBit b f v).pending = s.pending := rfl
@[simp] theorem State.setBit_fab_stg (b : Blk) (f : Fld) (v : Bool) : (s.setBit b f v).fab.stg = s.fab.stg := rfl
@[simp] theorem State.setBit_fab_mir (b : Blk) (f : Fld) (v : Bool) : (s.setBit b f v).fab.mir = s.fab.mir := rfl
@[simp] theorem State.setBit_fab_recOwner (b : Blk) (f : Fld) (v : Bool) : (s.setBit b f v).fab.recOwner = s.fab.recOwner := rfl
@[simp] theorem State.setBit_fab_recGroup (b : Blk) (f : Fld) (v : Bool) : (s.setBit b f v).fab.recGroup = s.fab.recGroup := rfl
@[simp] theorem State.setBit_fab_stagedPending (b : Blk) (f : Fld) (v : Bool) : (s.setBit b f v).fab.stagedPending = s.fab.stagedPending := rfl
@[simp] theorem State.setBit_fab_latch (b : Blk) (f : Fld) (v : Bool) : (s.setBit b f v).fab.latch = s.fab.latch := rfl
@[simp] theorem State.setBit_fab_holding (b : Blk) (f : Fld) (v : Bool) : (s.setBit b f v).fab.holding = s.fab.holding := rfl
@[simp] theorem State.setBit_fab_refreshTag (b : Blk) (f : Fld) (v : Bool) : (s.setBit b f v).fab.refreshTag = s.fab.refreshTag := rfl
@[simp] theorem State.setBit_fab_refreshedAt (b : Blk) (f : Fld) (v : Bool) : (s.setBit b f v).fab.refreshedAt = s.fab.refreshedAt := rfl
@[simp] theorem State.setBit_fab_evMark (b : Blk) (f : Fld) (v : Bool) : (s.setBit b f v).fab.evMark = s.fab.evMark := rfl
@[simp] theorem State.setBit_fab_posted (b : Blk) (f : Fld) (v : Bool) : (s.setBit b f v).fab.posted = s.fab.posted := rfl
@[simp] theorem State.setBit_fab_commits (b : Blk) (f : Fld) (v : Bool) : (s.setBit b f v).fab.commits = s.fab.commits := rfl
@[simp] theorem State.setBit_fab_serial (b : Blk) (f : Fld) (v : Bool) : (s.setBit b f v).fab.serial = s.fab.serial := rfl
@[simp] theorem State.setBit_fab_lastStrobe (b : Blk) (f : Fld) (v : Bool) : (s.setBit b f v).fab.lastStrobe = s.fab.lastStrobe := rfl
@[simp] theorem State.setBit_fab_resets (b : Blk) (f : Fld) (v : Bool) : (s.setBit b f v).fab.resets = s.fab.resets := rfl
@[simp] theorem State.setBit_fab_held (b : Blk) (f : Fld) (v : Bool) : (s.setBit b f v).fab.held = s.fab.held := rfl
@[simp] theorem State.setBit_fab_defcfg (b : Blk) (f : Fld) (v : Bool) : (s.setBit b f v).fab.defcfg = s.fab.defcfg := rfl
@[simp] theorem State.setBit_fab_answer (b : Blk) (f : Fld) (v : Bool) : (s.setBit b f v).fab.answer = s.fab.answer := rfl

/-! `State.set64` -/
@[simp] theorem State.set64_model (b : Blk) (lo hi : Fld) (v : Nat) : (s.set64 b lo hi v).model = s.model := rfl
@[simp] theorem State.set64_render (b : Blk) (lo hi : Fld) (v : Nat) : (s.set64 b lo hi v).render = s.render := rfl
@[simp] theorem State.set64_changes (b : Blk) (lo hi : Fld) (v : Nat) : (s.set64 b lo hi v).changes = s.changes := rfl
@[simp] theorem State.set64_objs (b : Blk) (lo hi : Fld) (v : Nat) : (s.set64 b lo hi v).objs = s.objs := rfl
@[simp] theorem State.set64_motion (b : Blk) (lo hi : Fld) (v : Nat) : (s.set64 b lo hi v).motion = s.motion := rfl
@[simp] theorem State.set64_layouts (b : Blk) (lo hi : Fld) (v : Nat) : (s.set64 b lo hi v).layouts = s.layouts := rfl
@[simp] theorem State.set64_paths (b : Blk) (lo hi : Fld) (v : Nat) : (s.set64 b lo hi v).paths = s.paths := rfl
@[simp] theorem State.set64_samples (b : Blk) (lo hi : Fld) (v : Nat) : (s.set64 b lo hi v).samples = s.samples := rfl
@[simp] theorem State.set64_routes (b : Blk) (lo hi : Fld) (v : Nat) : (s.set64 b lo hi v).routes = s.routes := rfl
@[simp] theorem State.set64_buses (b : Blk) (lo hi : Fld) (v : Nat) : (s.set64 b lo hi v).buses = s.buses := rfl
@[simp] theorem State.set64_outs (b : Blk) (lo hi : Fld) (v : Nat) : (s.set64 b lo hi v).outs = s.outs := rfl
@[simp] theorem State.set64_bass (b : Blk) (lo hi : Fld) (v : Nat) : (s.set64 b lo hi v).bass = s.bass := rfl
@[simp] theorem State.set64_outEq (b : Blk) (lo hi : Fld) (v : Nat) : (s.set64 b lo hi v).outEq = s.outEq := rfl
@[simp] theorem State.set64_corrRecord (b : Blk) (lo hi : Fld) (v : Nat) : (s.set64 b lo hi v).corrRecord = s.corrRecord := rfl
@[simp] theorem State.set64_tap (b : Blk) (lo hi : Fld) (v : Nat) : (s.set64 b lo hi v).tap = s.tap := rfl
@[simp] theorem State.set64_curtain (b : Blk) (lo hi : Fld) (v : Nat) : (s.set64 b lo hi v).curtain = s.curtain := rfl
@[simp] theorem State.set64_monitor (b : Blk) (lo hi : Fld) (v : Nat) : (s.set64 b lo hi v).monitor = s.monitor := rfl
@[simp] theorem State.set64_ps (b : Blk) (lo hi : Fld) (v : Nat) : (s.set64 b lo hi v).ps = s.ps := rfl
@[simp] theorem State.set64_thermals (b : Blk) (lo hi : Fld) (v : Nat) : (s.set64 b lo hi v).thermals = s.thermals := rfl
@[simp] theorem State.set64_tdmRx (b : Blk) (lo hi : Fld) (v : Nat) : (s.set64 b lo hi v).tdmRx = s.tdmRx := rfl
@[simp] theorem State.set64_tdmTx (b : Blk) (lo hi : Fld) (v : Nat) : (s.set64 b lo hi v).tdmTx = s.tdmTx := rfl
@[simp] theorem State.set64_aesRx (b : Blk) (lo hi : Fld) (v : Nat) : (s.set64 b lo hi v).aesRx = s.aesRx := rfl
@[simp] theorem State.set64_aesTx (b : Blk) (lo hi : Fld) (v : Nat) : (s.set64 b lo hi v).aesTx = s.aesTx := rfl
@[simp] theorem State.set64_time (b : Blk) (lo hi : Fld) (v : Nat) : (s.set64 b lo hi v).time = s.time := rfl
@[simp] theorem State.set64_net (b : Blk) (lo hi : Fld) (v : Nat) : (s.set64 b lo hi v).net = s.net := rfl
@[simp] theorem State.set64_sched (b : Blk) (lo hi : Fld) (v : Nat) : (s.set64 b lo hi v).sched = s.sched := rfl
@[simp] theorem State.set64_seats (b : Blk) (lo hi : Fld) (v : Nat) : (s.set64 b lo hi v).seats = s.seats := rfl
@[simp] theorem State.set64_hosts (b : Blk) (lo hi : Fld) (v : Nat) : (s.set64 b lo hi v).hosts = s.hosts := rfl
@[simp] theorem State.set64_pool (b : Blk) (lo hi : Fld) (v : Nat) : (s.set64 b lo hi v).pool = s.pool := rfl
@[simp] theorem State.set64_chains (b : Blk) (lo hi : Fld) (v : Nat) : (s.set64 b lo hi v).chains = s.chains := rfl
@[simp] theorem State.set64_measure (b : Blk) (lo hi : Fld) (v : Nat) : (s.set64 b lo hi v).measure = s.measure := rfl
@[simp] theorem State.set64_hostMem (b : Blk) (lo hi : Fld) (v : Nat) : (s.set64 b lo hi v).hostMem = s.hostMem := rfl
@[simp] theorem State.set64_twin (b : Blk) (lo hi : Fld) (v : Nat) : (s.set64 b lo hi v).twin = s.twin := rfl
@[simp] theorem State.set64_cue (b : Blk) (lo hi : Fld) (v : Nat) : (s.set64 b lo hi v).cue = s.cue := rfl
@[simp] theorem State.set64_prompters (b : Blk) (lo hi : Fld) (v : Nat) : (s.set64 b lo hi v).prompters = s.prompters := rfl
@[simp] theorem State.set64_gpio (b : Blk) (lo hi : Fld) (v : Nat) : (s.set64 b lo hi v).gpio = s.gpio := rfl
@[simp] theorem State.set64_tc (b : Blk) (lo hi : Fld) (v : Nat) : (s.set64 b lo hi v).tc = s.tc := rfl
@[simp] theorem State.set64_snaps (b : Blk) (lo hi : Fld) (v : Nat) : (s.set64 b lo hi v).snaps = s.snaps := rfl
@[simp] theorem State.set64_levels (b : Blk) (lo hi : Fld) (v : Nat) : (s.set64 b lo hi v).levels = s.levels := rfl
@[simp] theorem State.set64_call (b : Blk) (lo hi : Fld) (v : Nat) : (s.set64 b lo hi v).call = s.call := rfl
@[simp] theorem State.set64_green (b : Blk) (lo hi : Fld) (v : Nat) : (s.set64 b lo hi v).green = s.green := rfl
@[simp] theorem State.set64_mon (b : Blk) (lo hi : Fld) (v : Nat) : (s.set64 b lo hi v).mon = s.mon := rfl
@[simp] theorem State.set64_boot (b : Blk) (lo hi : Fld) (v : Nat) : (s.set64 b lo hi v).boot = s.boot := rfl
@[simp] theorem State.set64_free (b : Blk) (lo hi : Fld) (v : Nat) : (s.set64 b lo hi v).free = s.free := rfl
@[simp] theorem State.set64_pending (b : Blk) (lo hi : Fld) (v : Nat) : (s.set64 b lo hi v).pending = s.pending := rfl
@[simp] theorem State.set64_fab_stg (b : Blk) (lo hi : Fld) (v : Nat) : (s.set64 b lo hi v).fab.stg = s.fab.stg := rfl
@[simp] theorem State.set64_fab_mir (b : Blk) (lo hi : Fld) (v : Nat) : (s.set64 b lo hi v).fab.mir = s.fab.mir := rfl
@[simp] theorem State.set64_fab_recOwner (b : Blk) (lo hi : Fld) (v : Nat) : (s.set64 b lo hi v).fab.recOwner = s.fab.recOwner := rfl
@[simp] theorem State.set64_fab_recGroup (b : Blk) (lo hi : Fld) (v : Nat) : (s.set64 b lo hi v).fab.recGroup = s.fab.recGroup := rfl
@[simp] theorem State.set64_fab_stagedPending (b : Blk) (lo hi : Fld) (v : Nat) : (s.set64 b lo hi v).fab.stagedPending = s.fab.stagedPending := rfl
@[simp] theorem State.set64_fab_latch (b : Blk) (lo hi : Fld) (v : Nat) : (s.set64 b lo hi v).fab.latch = s.fab.latch := rfl
@[simp] theorem State.set64_fab_holding (b : Blk) (lo hi : Fld) (v : Nat) : (s.set64 b lo hi v).fab.holding = s.fab.holding := rfl
@[simp] theorem State.set64_fab_refreshTag (b : Blk) (lo hi : Fld) (v : Nat) : (s.set64 b lo hi v).fab.refreshTag = s.fab.refreshTag := rfl
@[simp] theorem State.set64_fab_refreshedAt (b : Blk) (lo hi : Fld) (v : Nat) : (s.set64 b lo hi v).fab.refreshedAt = s.fab.refreshedAt := rfl
@[simp] theorem State.set64_fab_evMark (b : Blk) (lo hi : Fld) (v : Nat) : (s.set64 b lo hi v).fab.evMark = s.fab.evMark := rfl
@[simp] theorem State.set64_fab_posted (b : Blk) (lo hi : Fld) (v : Nat) : (s.set64 b lo hi v).fab.posted = s.fab.posted := rfl
@[simp] theorem State.set64_fab_commits (b : Blk) (lo hi : Fld) (v : Nat) : (s.set64 b lo hi v).fab.commits = s.fab.commits := rfl
@[simp] theorem State.set64_fab_serial (b : Blk) (lo hi : Fld) (v : Nat) : (s.set64 b lo hi v).fab.serial = s.fab.serial := rfl
@[simp] theorem State.set64_fab_lastStrobe (b : Blk) (lo hi : Fld) (v : Nat) : (s.set64 b lo hi v).fab.lastStrobe = s.fab.lastStrobe := rfl
@[simp] theorem State.set64_fab_resets (b : Blk) (lo hi : Fld) (v : Nat) : (s.set64 b lo hi v).fab.resets = s.fab.resets := rfl
@[simp] theorem State.set64_fab_held (b : Blk) (lo hi : Fld) (v : Nat) : (s.set64 b lo hi v).fab.held = s.fab.held := rfl
@[simp] theorem State.set64_fab_defcfg (b : Blk) (lo hi : Fld) (v : Nat) : (s.set64 b lo hi v).fab.defcfg = s.fab.defcfg := rfl
@[simp] theorem State.set64_fab_answer (b : Blk) (lo hi : Fld) (v : Nat) : (s.set64 b lo hi v).fab.answer = s.fab.answer := rfl

/-! `State.count` -/
@[simp] theorem State.count_model (b : Blk) (f : Fld) (v : Nat) : (s.count b f v).model = s.model := rfl
@[simp] theorem State.count_render (b : Blk) (f : Fld) (v : Nat) : (s.count b f v).render = s.render := rfl
@[simp] theorem State.count_changes (b : Blk) (f : Fld) (v : Nat) : (s.count b f v).changes = s.changes := rfl
@[simp] theorem State.count_objs (b : Blk) (f : Fld) (v : Nat) : (s.count b f v).objs = s.objs := rfl
@[simp] theorem State.count_motion (b : Blk) (f : Fld) (v : Nat) : (s.count b f v).motion = s.motion := rfl
@[simp] theorem State.count_layouts (b : Blk) (f : Fld) (v : Nat) : (s.count b f v).layouts = s.layouts := rfl
@[simp] theorem State.count_paths (b : Blk) (f : Fld) (v : Nat) : (s.count b f v).paths = s.paths := rfl
@[simp] theorem State.count_samples (b : Blk) (f : Fld) (v : Nat) : (s.count b f v).samples = s.samples := rfl
@[simp] theorem State.count_routes (b : Blk) (f : Fld) (v : Nat) : (s.count b f v).routes = s.routes := rfl
@[simp] theorem State.count_buses (b : Blk) (f : Fld) (v : Nat) : (s.count b f v).buses = s.buses := rfl
@[simp] theorem State.count_outs (b : Blk) (f : Fld) (v : Nat) : (s.count b f v).outs = s.outs := rfl
@[simp] theorem State.count_bass (b : Blk) (f : Fld) (v : Nat) : (s.count b f v).bass = s.bass := rfl
@[simp] theorem State.count_outEq (b : Blk) (f : Fld) (v : Nat) : (s.count b f v).outEq = s.outEq := rfl
@[simp] theorem State.count_corrRecord (b : Blk) (f : Fld) (v : Nat) : (s.count b f v).corrRecord = s.corrRecord := rfl
@[simp] theorem State.count_tap (b : Blk) (f : Fld) (v : Nat) : (s.count b f v).tap = s.tap := rfl
@[simp] theorem State.count_curtain (b : Blk) (f : Fld) (v : Nat) : (s.count b f v).curtain = s.curtain := rfl
@[simp] theorem State.count_monitor (b : Blk) (f : Fld) (v : Nat) : (s.count b f v).monitor = s.monitor := rfl
@[simp] theorem State.count_ps (b : Blk) (f : Fld) (v : Nat) : (s.count b f v).ps = s.ps := rfl
@[simp] theorem State.count_thermals (b : Blk) (f : Fld) (v : Nat) : (s.count b f v).thermals = s.thermals := rfl
@[simp] theorem State.count_tdmRx (b : Blk) (f : Fld) (v : Nat) : (s.count b f v).tdmRx = s.tdmRx := rfl
@[simp] theorem State.count_tdmTx (b : Blk) (f : Fld) (v : Nat) : (s.count b f v).tdmTx = s.tdmTx := rfl
@[simp] theorem State.count_aesRx (b : Blk) (f : Fld) (v : Nat) : (s.count b f v).aesRx = s.aesRx := rfl
@[simp] theorem State.count_aesTx (b : Blk) (f : Fld) (v : Nat) : (s.count b f v).aesTx = s.aesTx := rfl
@[simp] theorem State.count_time (b : Blk) (f : Fld) (v : Nat) : (s.count b f v).time = s.time := rfl
@[simp] theorem State.count_net (b : Blk) (f : Fld) (v : Nat) : (s.count b f v).net = s.net := rfl
@[simp] theorem State.count_sched (b : Blk) (f : Fld) (v : Nat) : (s.count b f v).sched = s.sched := rfl
@[simp] theorem State.count_seats (b : Blk) (f : Fld) (v : Nat) : (s.count b f v).seats = s.seats := rfl
@[simp] theorem State.count_hosts (b : Blk) (f : Fld) (v : Nat) : (s.count b f v).hosts = s.hosts := rfl
@[simp] theorem State.count_pool (b : Blk) (f : Fld) (v : Nat) : (s.count b f v).pool = s.pool := rfl
@[simp] theorem State.count_chains (b : Blk) (f : Fld) (v : Nat) : (s.count b f v).chains = s.chains := rfl
@[simp] theorem State.count_measure (b : Blk) (f : Fld) (v : Nat) : (s.count b f v).measure = s.measure := rfl
@[simp] theorem State.count_hostMem (b : Blk) (f : Fld) (v : Nat) : (s.count b f v).hostMem = s.hostMem := rfl
@[simp] theorem State.count_twin (b : Blk) (f : Fld) (v : Nat) : (s.count b f v).twin = s.twin := rfl
@[simp] theorem State.count_cue (b : Blk) (f : Fld) (v : Nat) : (s.count b f v).cue = s.cue := rfl
@[simp] theorem State.count_prompters (b : Blk) (f : Fld) (v : Nat) : (s.count b f v).prompters = s.prompters := rfl
@[simp] theorem State.count_gpio (b : Blk) (f : Fld) (v : Nat) : (s.count b f v).gpio = s.gpio := rfl
@[simp] theorem State.count_tc (b : Blk) (f : Fld) (v : Nat) : (s.count b f v).tc = s.tc := rfl
@[simp] theorem State.count_snaps (b : Blk) (f : Fld) (v : Nat) : (s.count b f v).snaps = s.snaps := rfl
@[simp] theorem State.count_levels (b : Blk) (f : Fld) (v : Nat) : (s.count b f v).levels = s.levels := rfl
@[simp] theorem State.count_call (b : Blk) (f : Fld) (v : Nat) : (s.count b f v).call = s.call := rfl
@[simp] theorem State.count_green (b : Blk) (f : Fld) (v : Nat) : (s.count b f v).green = s.green := rfl
@[simp] theorem State.count_mon (b : Blk) (f : Fld) (v : Nat) : (s.count b f v).mon = s.mon := rfl
@[simp] theorem State.count_boot (b : Blk) (f : Fld) (v : Nat) : (s.count b f v).boot = s.boot := rfl
@[simp] theorem State.count_free (b : Blk) (f : Fld) (v : Nat) : (s.count b f v).free = s.free := rfl
@[simp] theorem State.count_pending (b : Blk) (f : Fld) (v : Nat) : (s.count b f v).pending = s.pending := rfl
@[simp] theorem State.count_fab_stg (b : Blk) (f : Fld) (v : Nat) : (s.count b f v).fab.stg = s.fab.stg := rfl
@[simp] theorem State.count_fab_mir (b : Blk) (f : Fld) (v : Nat) : (s.count b f v).fab.mir = s.fab.mir := rfl
@[simp] theorem State.count_fab_recOwner (b : Blk) (f : Fld) (v : Nat) : (s.count b f v).fab.recOwner = s.fab.recOwner := rfl
@[simp] theorem State.count_fab_recGroup (b : Blk) (f : Fld) (v : Nat) : (s.count b f v).fab.recGroup = s.fab.recGroup := rfl
@[simp] theorem State.count_fab_stagedPending (b : Blk) (f : Fld) (v : Nat) : (s.count b f v).fab.stagedPending = s.fab.stagedPending := rfl
@[simp] theorem State.count_fab_latch (b : Blk) (f : Fld) (v : Nat) : (s.count b f v).fab.latch = s.fab.latch := rfl
@[simp] theorem State.count_fab_holding (b : Blk) (f : Fld) (v : Nat) : (s.count b f v).fab.holding = s.fab.holding := rfl
@[simp] theorem State.count_fab_refreshTag (b : Blk) (f : Fld) (v : Nat) : (s.count b f v).fab.refreshTag = s.fab.refreshTag := rfl
@[simp] theorem State.count_fab_refreshedAt (b : Blk) (f : Fld) (v : Nat) : (s.count b f v).fab.refreshedAt = s.fab.refreshedAt := rfl
@[simp] theorem State.count_fab_evMark (b : Blk) (f : Fld) (v : Nat) : (s.count b f v).fab.evMark = s.fab.evMark := rfl
@[simp] theorem State.count_fab_posted (b : Blk) (f : Fld) (v : Nat) : (s.count b f v).fab.posted = s.fab.posted := rfl
@[simp] theorem State.count_fab_commits (b : Blk) (f : Fld) (v : Nat) : (s.count b f v).fab.commits = s.fab.commits := rfl
@[simp] theorem State.count_fab_serial (b : Blk) (f : Fld) (v : Nat) : (s.count b f v).fab.serial = s.fab.serial := rfl
@[simp] theorem State.count_fab_lastStrobe (b : Blk) (f : Fld) (v : Nat) : (s.count b f v).fab.lastStrobe = s.fab.lastStrobe := rfl
@[simp] theorem State.count_fab_resets (b : Blk) (f : Fld) (v : Nat) : (s.count b f v).fab.resets = s.fab.resets := rfl
@[simp] theorem State.count_fab_held (b : Blk) (f : Fld) (v : Nat) : (s.count b f v).fab.held = s.fab.held := rfl
@[simp] theorem State.count_fab_defcfg (b : Blk) (f : Fld) (v : Nat) : (s.count b f v).fab.defcfg = s.fab.defcfg := rfl
@[simp] theorem State.count_fab_answer (b : Blk) (f : Fld) (v : Nat) : (s.count b f v).fab.answer = s.fab.answer := rfl

/-! `State.countSat` -/
@[simp] theorem State.countSat_model (b : Blk) (f : Fld) (v : Nat) : (s.countSat b f v).model = s.model := rfl
@[simp] theorem State.countSat_render (b : Blk) (f : Fld) (v : Nat) : (s.countSat b f v).render = s.render := rfl
@[simp] theorem State.countSat_changes (b : Blk) (f : Fld) (v : Nat) : (s.countSat b f v).changes = s.changes := rfl
@[simp] theorem State.countSat_objs (b : Blk) (f : Fld) (v : Nat) : (s.countSat b f v).objs = s.objs := rfl
@[simp] theorem State.countSat_motion (b : Blk) (f : Fld) (v : Nat) : (s.countSat b f v).motion = s.motion := rfl
@[simp] theorem State.countSat_layouts (b : Blk) (f : Fld) (v : Nat) : (s.countSat b f v).layouts = s.layouts := rfl
@[simp] theorem State.countSat_paths (b : Blk) (f : Fld) (v : Nat) : (s.countSat b f v).paths = s.paths := rfl
@[simp] theorem State.countSat_samples (b : Blk) (f : Fld) (v : Nat) : (s.countSat b f v).samples = s.samples := rfl
@[simp] theorem State.countSat_routes (b : Blk) (f : Fld) (v : Nat) : (s.countSat b f v).routes = s.routes := rfl
@[simp] theorem State.countSat_buses (b : Blk) (f : Fld) (v : Nat) : (s.countSat b f v).buses = s.buses := rfl
@[simp] theorem State.countSat_outs (b : Blk) (f : Fld) (v : Nat) : (s.countSat b f v).outs = s.outs := rfl
@[simp] theorem State.countSat_bass (b : Blk) (f : Fld) (v : Nat) : (s.countSat b f v).bass = s.bass := rfl
@[simp] theorem State.countSat_outEq (b : Blk) (f : Fld) (v : Nat) : (s.countSat b f v).outEq = s.outEq := rfl
@[simp] theorem State.countSat_corrRecord (b : Blk) (f : Fld) (v : Nat) : (s.countSat b f v).corrRecord = s.corrRecord := rfl
@[simp] theorem State.countSat_tap (b : Blk) (f : Fld) (v : Nat) : (s.countSat b f v).tap = s.tap := rfl
@[simp] theorem State.countSat_curtain (b : Blk) (f : Fld) (v : Nat) : (s.countSat b f v).curtain = s.curtain := rfl
@[simp] theorem State.countSat_monitor (b : Blk) (f : Fld) (v : Nat) : (s.countSat b f v).monitor = s.monitor := rfl
@[simp] theorem State.countSat_ps (b : Blk) (f : Fld) (v : Nat) : (s.countSat b f v).ps = s.ps := rfl
@[simp] theorem State.countSat_thermals (b : Blk) (f : Fld) (v : Nat) : (s.countSat b f v).thermals = s.thermals := rfl
@[simp] theorem State.countSat_tdmRx (b : Blk) (f : Fld) (v : Nat) : (s.countSat b f v).tdmRx = s.tdmRx := rfl
@[simp] theorem State.countSat_tdmTx (b : Blk) (f : Fld) (v : Nat) : (s.countSat b f v).tdmTx = s.tdmTx := rfl
@[simp] theorem State.countSat_aesRx (b : Blk) (f : Fld) (v : Nat) : (s.countSat b f v).aesRx = s.aesRx := rfl
@[simp] theorem State.countSat_aesTx (b : Blk) (f : Fld) (v : Nat) : (s.countSat b f v).aesTx = s.aesTx := rfl
@[simp] theorem State.countSat_time (b : Blk) (f : Fld) (v : Nat) : (s.countSat b f v).time = s.time := rfl
@[simp] theorem State.countSat_net (b : Blk) (f : Fld) (v : Nat) : (s.countSat b f v).net = s.net := rfl
@[simp] theorem State.countSat_sched (b : Blk) (f : Fld) (v : Nat) : (s.countSat b f v).sched = s.sched := rfl
@[simp] theorem State.countSat_seats (b : Blk) (f : Fld) (v : Nat) : (s.countSat b f v).seats = s.seats := rfl
@[simp] theorem State.countSat_hosts (b : Blk) (f : Fld) (v : Nat) : (s.countSat b f v).hosts = s.hosts := rfl
@[simp] theorem State.countSat_pool (b : Blk) (f : Fld) (v : Nat) : (s.countSat b f v).pool = s.pool := rfl
@[simp] theorem State.countSat_chains (b : Blk) (f : Fld) (v : Nat) : (s.countSat b f v).chains = s.chains := rfl
@[simp] theorem State.countSat_measure (b : Blk) (f : Fld) (v : Nat) : (s.countSat b f v).measure = s.measure := rfl
@[simp] theorem State.countSat_hostMem (b : Blk) (f : Fld) (v : Nat) : (s.countSat b f v).hostMem = s.hostMem := rfl
@[simp] theorem State.countSat_twin (b : Blk) (f : Fld) (v : Nat) : (s.countSat b f v).twin = s.twin := rfl
@[simp] theorem State.countSat_cue (b : Blk) (f : Fld) (v : Nat) : (s.countSat b f v).cue = s.cue := rfl
@[simp] theorem State.countSat_prompters (b : Blk) (f : Fld) (v : Nat) : (s.countSat b f v).prompters = s.prompters := rfl
@[simp] theorem State.countSat_gpio (b : Blk) (f : Fld) (v : Nat) : (s.countSat b f v).gpio = s.gpio := rfl
@[simp] theorem State.countSat_tc (b : Blk) (f : Fld) (v : Nat) : (s.countSat b f v).tc = s.tc := rfl
@[simp] theorem State.countSat_snaps (b : Blk) (f : Fld) (v : Nat) : (s.countSat b f v).snaps = s.snaps := rfl
@[simp] theorem State.countSat_levels (b : Blk) (f : Fld) (v : Nat) : (s.countSat b f v).levels = s.levels := rfl
@[simp] theorem State.countSat_call (b : Blk) (f : Fld) (v : Nat) : (s.countSat b f v).call = s.call := rfl
@[simp] theorem State.countSat_green (b : Blk) (f : Fld) (v : Nat) : (s.countSat b f v).green = s.green := rfl
@[simp] theorem State.countSat_mon (b : Blk) (f : Fld) (v : Nat) : (s.countSat b f v).mon = s.mon := rfl
@[simp] theorem State.countSat_boot (b : Blk) (f : Fld) (v : Nat) : (s.countSat b f v).boot = s.boot := rfl
@[simp] theorem State.countSat_free (b : Blk) (f : Fld) (v : Nat) : (s.countSat b f v).free = s.free := rfl
@[simp] theorem State.countSat_pending (b : Blk) (f : Fld) (v : Nat) : (s.countSat b f v).pending = s.pending := rfl
@[simp] theorem State.countSat_fab_stg (b : Blk) (f : Fld) (v : Nat) : (s.countSat b f v).fab.stg = s.fab.stg := rfl
@[simp] theorem State.countSat_fab_mir (b : Blk) (f : Fld) (v : Nat) : (s.countSat b f v).fab.mir = s.fab.mir := rfl
@[simp] theorem State.countSat_fab_recOwner (b : Blk) (f : Fld) (v : Nat) : (s.countSat b f v).fab.recOwner = s.fab.recOwner := rfl
@[simp] theorem State.countSat_fab_recGroup (b : Blk) (f : Fld) (v : Nat) : (s.countSat b f v).fab.recGroup = s.fab.recGroup := rfl
@[simp] theorem State.countSat_fab_stagedPending (b : Blk) (f : Fld) (v : Nat) : (s.countSat b f v).fab.stagedPending = s.fab.stagedPending := rfl
@[simp] theorem State.countSat_fab_latch (b : Blk) (f : Fld) (v : Nat) : (s.countSat b f v).fab.latch = s.fab.latch := rfl
@[simp] theorem State.countSat_fab_holding (b : Blk) (f : Fld) (v : Nat) : (s.countSat b f v).fab.holding = s.fab.holding := rfl
@[simp] theorem State.countSat_fab_refreshTag (b : Blk) (f : Fld) (v : Nat) : (s.countSat b f v).fab.refreshTag = s.fab.refreshTag := rfl
@[simp] theorem State.countSat_fab_refreshedAt (b : Blk) (f : Fld) (v : Nat) : (s.countSat b f v).fab.refreshedAt = s.fab.refreshedAt := rfl
@[simp] theorem State.countSat_fab_evMark (b : Blk) (f : Fld) (v : Nat) : (s.countSat b f v).fab.evMark = s.fab.evMark := rfl
@[simp] theorem State.countSat_fab_posted (b : Blk) (f : Fld) (v : Nat) : (s.countSat b f v).fab.posted = s.fab.posted := rfl
@[simp] theorem State.countSat_fab_commits (b : Blk) (f : Fld) (v : Nat) : (s.countSat b f v).fab.commits = s.fab.commits := rfl
@[simp] theorem State.countSat_fab_serial (b : Blk) (f : Fld) (v : Nat) : (s.countSat b f v).fab.serial = s.fab.serial := rfl
@[simp] theorem State.countSat_fab_lastStrobe (b : Blk) (f : Fld) (v : Nat) : (s.countSat b f v).fab.lastStrobe = s.fab.lastStrobe := rfl
@[simp] theorem State.countSat_fab_resets (b : Blk) (f : Fld) (v : Nat) : (s.countSat b f v).fab.resets = s.fab.resets := rfl
@[simp] theorem State.countSat_fab_held (b : Blk) (f : Fld) (v : Nat) : (s.countSat b f v).fab.held = s.fab.held := rfl
@[simp] theorem State.countSat_fab_defcfg (b : Blk) (f : Fld) (v : Nat) : (s.countSat b f v).fab.defcfg = s.fab.defcfg := rfl
@[simp] theorem State.countSat_fab_answer (b : Blk) (f : Fld) (v : Nat) : (s.countSat b f v).fab.answer = s.fab.answer := rfl

/-! `State.peak` -/
@[simp] theorem State.peak_model (b : Blk) (f : Fld) (v : Nat) : (s.peak b f v).model = s.model := rfl
@[simp] theorem State.peak_render (b : Blk) (f : Fld) (v : Nat) : (s.peak b f v).render = s.render := rfl
@[simp] theorem State.peak_changes (b : Blk) (f : Fld) (v : Nat) : (s.peak b f v).changes = s.changes := rfl
@[simp] theorem State.peak_objs (b : Blk) (f : Fld) (v : Nat) : (s.peak b f v).objs = s.objs := rfl
@[simp] theorem State.peak_motion (b : Blk) (f : Fld) (v : Nat) : (s.peak b f v).motion = s.motion := rfl
@[simp] theorem State.peak_layouts (b : Blk) (f : Fld) (v : Nat) : (s.peak b f v).layouts = s.layouts := rfl
@[simp] theorem State.peak_paths (b : Blk) (f : Fld) (v : Nat) : (s.peak b f v).paths = s.paths := rfl
@[simp] theorem State.peak_samples (b : Blk) (f : Fld) (v : Nat) : (s.peak b f v).samples = s.samples := rfl
@[simp] theorem State.peak_routes (b : Blk) (f : Fld) (v : Nat) : (s.peak b f v).routes = s.routes := rfl
@[simp] theorem State.peak_buses (b : Blk) (f : Fld) (v : Nat) : (s.peak b f v).buses = s.buses := rfl
@[simp] theorem State.peak_outs (b : Blk) (f : Fld) (v : Nat) : (s.peak b f v).outs = s.outs := rfl
@[simp] theorem State.peak_bass (b : Blk) (f : Fld) (v : Nat) : (s.peak b f v).bass = s.bass := rfl
@[simp] theorem State.peak_outEq (b : Blk) (f : Fld) (v : Nat) : (s.peak b f v).outEq = s.outEq := rfl
@[simp] theorem State.peak_corrRecord (b : Blk) (f : Fld) (v : Nat) : (s.peak b f v).corrRecord = s.corrRecord := rfl
@[simp] theorem State.peak_tap (b : Blk) (f : Fld) (v : Nat) : (s.peak b f v).tap = s.tap := rfl
@[simp] theorem State.peak_curtain (b : Blk) (f : Fld) (v : Nat) : (s.peak b f v).curtain = s.curtain := rfl
@[simp] theorem State.peak_monitor (b : Blk) (f : Fld) (v : Nat) : (s.peak b f v).monitor = s.monitor := rfl
@[simp] theorem State.peak_ps (b : Blk) (f : Fld) (v : Nat) : (s.peak b f v).ps = s.ps := rfl
@[simp] theorem State.peak_thermals (b : Blk) (f : Fld) (v : Nat) : (s.peak b f v).thermals = s.thermals := rfl
@[simp] theorem State.peak_tdmRx (b : Blk) (f : Fld) (v : Nat) : (s.peak b f v).tdmRx = s.tdmRx := rfl
@[simp] theorem State.peak_tdmTx (b : Blk) (f : Fld) (v : Nat) : (s.peak b f v).tdmTx = s.tdmTx := rfl
@[simp] theorem State.peak_aesRx (b : Blk) (f : Fld) (v : Nat) : (s.peak b f v).aesRx = s.aesRx := rfl
@[simp] theorem State.peak_aesTx (b : Blk) (f : Fld) (v : Nat) : (s.peak b f v).aesTx = s.aesTx := rfl
@[simp] theorem State.peak_time (b : Blk) (f : Fld) (v : Nat) : (s.peak b f v).time = s.time := rfl
@[simp] theorem State.peak_net (b : Blk) (f : Fld) (v : Nat) : (s.peak b f v).net = s.net := rfl
@[simp] theorem State.peak_sched (b : Blk) (f : Fld) (v : Nat) : (s.peak b f v).sched = s.sched := rfl
@[simp] theorem State.peak_seats (b : Blk) (f : Fld) (v : Nat) : (s.peak b f v).seats = s.seats := rfl
@[simp] theorem State.peak_hosts (b : Blk) (f : Fld) (v : Nat) : (s.peak b f v).hosts = s.hosts := rfl
@[simp] theorem State.peak_pool (b : Blk) (f : Fld) (v : Nat) : (s.peak b f v).pool = s.pool := rfl
@[simp] theorem State.peak_chains (b : Blk) (f : Fld) (v : Nat) : (s.peak b f v).chains = s.chains := rfl
@[simp] theorem State.peak_measure (b : Blk) (f : Fld) (v : Nat) : (s.peak b f v).measure = s.measure := rfl
@[simp] theorem State.peak_hostMem (b : Blk) (f : Fld) (v : Nat) : (s.peak b f v).hostMem = s.hostMem := rfl
@[simp] theorem State.peak_twin (b : Blk) (f : Fld) (v : Nat) : (s.peak b f v).twin = s.twin := rfl
@[simp] theorem State.peak_cue (b : Blk) (f : Fld) (v : Nat) : (s.peak b f v).cue = s.cue := rfl
@[simp] theorem State.peak_prompters (b : Blk) (f : Fld) (v : Nat) : (s.peak b f v).prompters = s.prompters := rfl
@[simp] theorem State.peak_gpio (b : Blk) (f : Fld) (v : Nat) : (s.peak b f v).gpio = s.gpio := rfl
@[simp] theorem State.peak_tc (b : Blk) (f : Fld) (v : Nat) : (s.peak b f v).tc = s.tc := rfl
@[simp] theorem State.peak_snaps (b : Blk) (f : Fld) (v : Nat) : (s.peak b f v).snaps = s.snaps := rfl
@[simp] theorem State.peak_levels (b : Blk) (f : Fld) (v : Nat) : (s.peak b f v).levels = s.levels := rfl
@[simp] theorem State.peak_call (b : Blk) (f : Fld) (v : Nat) : (s.peak b f v).call = s.call := rfl
@[simp] theorem State.peak_green (b : Blk) (f : Fld) (v : Nat) : (s.peak b f v).green = s.green := rfl
@[simp] theorem State.peak_mon (b : Blk) (f : Fld) (v : Nat) : (s.peak b f v).mon = s.mon := rfl
@[simp] theorem State.peak_boot (b : Blk) (f : Fld) (v : Nat) : (s.peak b f v).boot = s.boot := rfl
@[simp] theorem State.peak_free (b : Blk) (f : Fld) (v : Nat) : (s.peak b f v).free = s.free := rfl
@[simp] theorem State.peak_pending (b : Blk) (f : Fld) (v : Nat) : (s.peak b f v).pending = s.pending := rfl
@[simp] theorem State.peak_fab_stg (b : Blk) (f : Fld) (v : Nat) : (s.peak b f v).fab.stg = s.fab.stg := rfl
@[simp] theorem State.peak_fab_mir (b : Blk) (f : Fld) (v : Nat) : (s.peak b f v).fab.mir = s.fab.mir := rfl
@[simp] theorem State.peak_fab_recOwner (b : Blk) (f : Fld) (v : Nat) : (s.peak b f v).fab.recOwner = s.fab.recOwner := rfl
@[simp] theorem State.peak_fab_recGroup (b : Blk) (f : Fld) (v : Nat) : (s.peak b f v).fab.recGroup = s.fab.recGroup := rfl
@[simp] theorem State.peak_fab_stagedPending (b : Blk) (f : Fld) (v : Nat) : (s.peak b f v).fab.stagedPending = s.fab.stagedPending := rfl
@[simp] theorem State.peak_fab_latch (b : Blk) (f : Fld) (v : Nat) : (s.peak b f v).fab.latch = s.fab.latch := rfl
@[simp] theorem State.peak_fab_holding (b : Blk) (f : Fld) (v : Nat) : (s.peak b f v).fab.holding = s.fab.holding := rfl
@[simp] theorem State.peak_fab_refreshTag (b : Blk) (f : Fld) (v : Nat) : (s.peak b f v).fab.refreshTag = s.fab.refreshTag := rfl
@[simp] theorem State.peak_fab_refreshedAt (b : Blk) (f : Fld) (v : Nat) : (s.peak b f v).fab.refreshedAt = s.fab.refreshedAt := rfl
@[simp] theorem State.peak_fab_evMark (b : Blk) (f : Fld) (v : Nat) : (s.peak b f v).fab.evMark = s.fab.evMark := rfl
@[simp] theorem State.peak_fab_posted (b : Blk) (f : Fld) (v : Nat) : (s.peak b f v).fab.posted = s.fab.posted := rfl
@[simp] theorem State.peak_fab_commits (b : Blk) (f : Fld) (v : Nat) : (s.peak b f v).fab.commits = s.fab.commits := rfl
@[simp] theorem State.peak_fab_serial (b : Blk) (f : Fld) (v : Nat) : (s.peak b f v).fab.serial = s.fab.serial := rfl
@[simp] theorem State.peak_fab_lastStrobe (b : Blk) (f : Fld) (v : Nat) : (s.peak b f v).fab.lastStrobe = s.fab.lastStrobe := rfl
@[simp] theorem State.peak_fab_resets (b : Blk) (f : Fld) (v : Nat) : (s.peak b f v).fab.resets = s.fab.resets := rfl
@[simp] theorem State.peak_fab_held (b : Blk) (f : Fld) (v : Nat) : (s.peak b f v).fab.held = s.fab.held := rfl
@[simp] theorem State.peak_fab_defcfg (b : Blk) (f : Fld) (v : Nat) : (s.peak b f v).fab.defcfg = s.fab.defcfg := rfl
@[simp] theorem State.peak_fab_answer (b : Blk) (f : Fld) (v : Nat) : (s.peak b f v).fab.answer = s.fab.answer := rfl

/-! `State.stick` -/
@[simp] theorem State.stick_model (b : Blk) (f : Fld) (i : Nat) : (s.stick b f i).model = s.model := by unfold State.stick; dsimp only; split <;> rfl
@[simp] theorem State.stick_render (b : Blk) (f : Fld) (i : Nat) : (s.stick b f i).render = s.render := by unfold State.stick; dsimp only; split <;> rfl
@[simp] theorem State.stick_changes (b : Blk) (f : Fld) (i : Nat) : (s.stick b f i).changes = s.changes := by unfold State.stick; dsimp only; split <;> rfl
@[simp] theorem State.stick_objs (b : Blk) (f : Fld) (i : Nat) : (s.stick b f i).objs = s.objs := by unfold State.stick; dsimp only; split <;> rfl
@[simp] theorem State.stick_motion (b : Blk) (f : Fld) (i : Nat) : (s.stick b f i).motion = s.motion := by unfold State.stick; dsimp only; split <;> rfl
@[simp] theorem State.stick_layouts (b : Blk) (f : Fld) (i : Nat) : (s.stick b f i).layouts = s.layouts := by unfold State.stick; dsimp only; split <;> rfl
@[simp] theorem State.stick_paths (b : Blk) (f : Fld) (i : Nat) : (s.stick b f i).paths = s.paths := by unfold State.stick; dsimp only; split <;> rfl
@[simp] theorem State.stick_samples (b : Blk) (f : Fld) (i : Nat) : (s.stick b f i).samples = s.samples := by unfold State.stick; dsimp only; split <;> rfl
@[simp] theorem State.stick_routes (b : Blk) (f : Fld) (i : Nat) : (s.stick b f i).routes = s.routes := by unfold State.stick; dsimp only; split <;> rfl
@[simp] theorem State.stick_buses (b : Blk) (f : Fld) (i : Nat) : (s.stick b f i).buses = s.buses := by unfold State.stick; dsimp only; split <;> rfl
@[simp] theorem State.stick_outs (b : Blk) (f : Fld) (i : Nat) : (s.stick b f i).outs = s.outs := by unfold State.stick; dsimp only; split <;> rfl
@[simp] theorem State.stick_bass (b : Blk) (f : Fld) (i : Nat) : (s.stick b f i).bass = s.bass := by unfold State.stick; dsimp only; split <;> rfl
@[simp] theorem State.stick_outEq (b : Blk) (f : Fld) (i : Nat) : (s.stick b f i).outEq = s.outEq := by unfold State.stick; dsimp only; split <;> rfl
@[simp] theorem State.stick_corrRecord (b : Blk) (f : Fld) (i : Nat) : (s.stick b f i).corrRecord = s.corrRecord := by unfold State.stick; dsimp only; split <;> rfl
@[simp] theorem State.stick_tap (b : Blk) (f : Fld) (i : Nat) : (s.stick b f i).tap = s.tap := by unfold State.stick; dsimp only; split <;> rfl
@[simp] theorem State.stick_curtain (b : Blk) (f : Fld) (i : Nat) : (s.stick b f i).curtain = s.curtain := by unfold State.stick; dsimp only; split <;> rfl
@[simp] theorem State.stick_monitor (b : Blk) (f : Fld) (i : Nat) : (s.stick b f i).monitor = s.monitor := by unfold State.stick; dsimp only; split <;> rfl
@[simp] theorem State.stick_ps (b : Blk) (f : Fld) (i : Nat) : (s.stick b f i).ps = s.ps := by unfold State.stick; dsimp only; split <;> rfl
@[simp] theorem State.stick_thermals (b : Blk) (f : Fld) (i : Nat) : (s.stick b f i).thermals = s.thermals := by unfold State.stick; dsimp only; split <;> rfl
@[simp] theorem State.stick_tdmRx (b : Blk) (f : Fld) (i : Nat) : (s.stick b f i).tdmRx = s.tdmRx := by unfold State.stick; dsimp only; split <;> rfl
@[simp] theorem State.stick_tdmTx (b : Blk) (f : Fld) (i : Nat) : (s.stick b f i).tdmTx = s.tdmTx := by unfold State.stick; dsimp only; split <;> rfl
@[simp] theorem State.stick_aesRx (b : Blk) (f : Fld) (i : Nat) : (s.stick b f i).aesRx = s.aesRx := by unfold State.stick; dsimp only; split <;> rfl
@[simp] theorem State.stick_aesTx (b : Blk) (f : Fld) (i : Nat) : (s.stick b f i).aesTx = s.aesTx := by unfold State.stick; dsimp only; split <;> rfl
@[simp] theorem State.stick_time (b : Blk) (f : Fld) (i : Nat) : (s.stick b f i).time = s.time := by unfold State.stick; dsimp only; split <;> rfl
@[simp] theorem State.stick_net (b : Blk) (f : Fld) (i : Nat) : (s.stick b f i).net = s.net := by unfold State.stick; dsimp only; split <;> rfl
@[simp] theorem State.stick_sched (b : Blk) (f : Fld) (i : Nat) : (s.stick b f i).sched = s.sched := by unfold State.stick; dsimp only; split <;> rfl
@[simp] theorem State.stick_seats (b : Blk) (f : Fld) (i : Nat) : (s.stick b f i).seats = s.seats := by unfold State.stick; dsimp only; split <;> rfl
@[simp] theorem State.stick_hosts (b : Blk) (f : Fld) (i : Nat) : (s.stick b f i).hosts = s.hosts := by unfold State.stick; dsimp only; split <;> rfl
@[simp] theorem State.stick_pool (b : Blk) (f : Fld) (i : Nat) : (s.stick b f i).pool = s.pool := by unfold State.stick; dsimp only; split <;> rfl
@[simp] theorem State.stick_chains (b : Blk) (f : Fld) (i : Nat) : (s.stick b f i).chains = s.chains := by unfold State.stick; dsimp only; split <;> rfl
@[simp] theorem State.stick_measure (b : Blk) (f : Fld) (i : Nat) : (s.stick b f i).measure = s.measure := by unfold State.stick; dsimp only; split <;> rfl
@[simp] theorem State.stick_hostMem (b : Blk) (f : Fld) (i : Nat) : (s.stick b f i).hostMem = s.hostMem := by unfold State.stick; dsimp only; split <;> rfl
@[simp] theorem State.stick_twin (b : Blk) (f : Fld) (i : Nat) : (s.stick b f i).twin = s.twin := by unfold State.stick; dsimp only; split <;> rfl
@[simp] theorem State.stick_cue (b : Blk) (f : Fld) (i : Nat) : (s.stick b f i).cue = s.cue := by unfold State.stick; dsimp only; split <;> rfl
@[simp] theorem State.stick_prompters (b : Blk) (f : Fld) (i : Nat) : (s.stick b f i).prompters = s.prompters := by unfold State.stick; dsimp only; split <;> rfl
@[simp] theorem State.stick_gpio (b : Blk) (f : Fld) (i : Nat) : (s.stick b f i).gpio = s.gpio := by unfold State.stick; dsimp only; split <;> rfl
@[simp] theorem State.stick_tc (b : Blk) (f : Fld) (i : Nat) : (s.stick b f i).tc = s.tc := by unfold State.stick; dsimp only; split <;> rfl
@[simp] theorem State.stick_snaps (b : Blk) (f : Fld) (i : Nat) : (s.stick b f i).snaps = s.snaps := by unfold State.stick; dsimp only; split <;> rfl
@[simp] theorem State.stick_levels (b : Blk) (f : Fld) (i : Nat) : (s.stick b f i).levels = s.levels := by unfold State.stick; dsimp only; split <;> rfl
@[simp] theorem State.stick_call (b : Blk) (f : Fld) (i : Nat) : (s.stick b f i).call = s.call := by unfold State.stick; dsimp only; split <;> rfl
@[simp] theorem State.stick_green (b : Blk) (f : Fld) (i : Nat) : (s.stick b f i).green = s.green := by unfold State.stick; dsimp only; split <;> rfl
@[simp] theorem State.stick_mon (b : Blk) (f : Fld) (i : Nat) : (s.stick b f i).mon = s.mon := by unfold State.stick; dsimp only; split <;> rfl
@[simp] theorem State.stick_boot (b : Blk) (f : Fld) (i : Nat) : (s.stick b f i).boot = s.boot := by unfold State.stick; dsimp only; split <;> rfl
@[simp] theorem State.stick_free (b : Blk) (f : Fld) (i : Nat) : (s.stick b f i).free = s.free := by unfold State.stick; dsimp only; split <;> rfl
@[simp] theorem State.stick_pending (b : Blk) (f : Fld) (i : Nat) : (s.stick b f i).pending = s.pending := by unfold State.stick; dsimp only; split <;> rfl
@[simp] theorem State.stick_fab_stg (b : Blk) (f : Fld) (i : Nat) : (s.stick b f i).fab.stg = s.fab.stg := by unfold State.stick; dsimp only; split <;> rfl
@[simp] theorem State.stick_fab_mir (b : Blk) (f : Fld) (i : Nat) : (s.stick b f i).fab.mir = s.fab.mir := by unfold State.stick; dsimp only; split <;> rfl
@[simp] theorem State.stick_fab_recOwner (b : Blk) (f : Fld) (i : Nat) : (s.stick b f i).fab.recOwner = s.fab.recOwner := by unfold State.stick; dsimp only; split <;> rfl
@[simp] theorem State.stick_fab_recGroup (b : Blk) (f : Fld) (i : Nat) : (s.stick b f i).fab.recGroup = s.fab.recGroup := by unfold State.stick; dsimp only; split <;> rfl
@[simp] theorem State.stick_fab_stagedPending (b : Blk) (f : Fld) (i : Nat) : (s.stick b f i).fab.stagedPending = s.fab.stagedPending := by unfold State.stick; dsimp only; split <;> rfl
@[simp] theorem State.stick_fab_latch (b : Blk) (f : Fld) (i : Nat) : (s.stick b f i).fab.latch = s.fab.latch := by unfold State.stick; dsimp only; split <;> rfl
@[simp] theorem State.stick_fab_holding (b : Blk) (f : Fld) (i : Nat) : (s.stick b f i).fab.holding = s.fab.holding := by unfold State.stick; dsimp only; split <;> rfl
@[simp] theorem State.stick_fab_refreshTag (b : Blk) (f : Fld) (i : Nat) : (s.stick b f i).fab.refreshTag = s.fab.refreshTag := by unfold State.stick; dsimp only; split <;> rfl
@[simp] theorem State.stick_fab_refreshedAt (b : Blk) (f : Fld) (i : Nat) : (s.stick b f i).fab.refreshedAt = s.fab.refreshedAt := by unfold State.stick; dsimp only; split <;> rfl
@[simp] theorem State.stick_fab_posted (b : Blk) (f : Fld) (i : Nat) : (s.stick b f i).fab.posted = s.fab.posted := by unfold State.stick; dsimp only; split <;> rfl
@[simp] theorem State.stick_fab_commits (b : Blk) (f : Fld) (i : Nat) : (s.stick b f i).fab.commits = s.fab.commits := by unfold State.stick; dsimp only; split <;> rfl
@[simp] theorem State.stick_fab_serial (b : Blk) (f : Fld) (i : Nat) : (s.stick b f i).fab.serial = s.fab.serial := by unfold State.stick; dsimp only; split <;> rfl
@[simp] theorem State.stick_fab_lastStrobe (b : Blk) (f : Fld) (i : Nat) : (s.stick b f i).fab.lastStrobe = s.fab.lastStrobe := by unfold State.stick; dsimp only; split <;> rfl
@[simp] theorem State.stick_fab_resets (b : Blk) (f : Fld) (i : Nat) : (s.stick b f i).fab.resets = s.fab.resets := by unfold State.stick; dsimp only; split <;> rfl
@[simp] theorem State.stick_fab_held (b : Blk) (f : Fld) (i : Nat) : (s.stick b f i).fab.held = s.fab.held := by unfold State.stick; dsimp only; split <;> rfl
@[simp] theorem State.stick_fab_defcfg (b : Blk) (f : Fld) (i : Nat) : (s.stick b f i).fab.defcfg = s.fab.defcfg := by unfold State.stick; dsimp only; split <;> rfl
@[simp] theorem State.stick_fab_answer (b : Blk) (f : Fld) (i : Nat) : (s.stick b f i).fab.answer = s.fab.answer := by unfold State.stick; dsimp only; split <;> rfl

/-! `State.event` -/
@[simp] theorem State.event_model (b : Blk) (i : Nat) : (s.event b i).model = s.model := by simp [State.event]
@[simp] theorem State.event_render (b : Blk) (i : Nat) : (s.event b i).render = s.render := by simp [State.event]
@[simp] theorem State.event_changes (b : Blk) (i : Nat) : (s.event b i).changes = s.changes := by simp [State.event]
@[simp] theorem State.event_objs (b : Blk) (i : Nat) : (s.event b i).objs = s.objs := by simp [State.event]
@[simp] theorem State.event_motion (b : Blk) (i : Nat) : (s.event b i).motion = s.motion := by simp [State.event]
@[simp] theorem State.event_layouts (b : Blk) (i : Nat) : (s.event b i).layouts = s.layouts := by simp [State.event]
@[simp] theorem State.event_paths (b : Blk) (i : Nat) : (s.event b i).paths = s.paths := by simp [State.event]
@[simp] theorem State.event_samples (b : Blk) (i : Nat) : (s.event b i).samples = s.samples := by simp [State.event]
@[simp] theorem State.event_routes (b : Blk) (i : Nat) : (s.event b i).routes = s.routes := by simp [State.event]
@[simp] theorem State.event_buses (b : Blk) (i : Nat) : (s.event b i).buses = s.buses := by simp [State.event]
@[simp] theorem State.event_outs (b : Blk) (i : Nat) : (s.event b i).outs = s.outs := by simp [State.event]
@[simp] theorem State.event_bass (b : Blk) (i : Nat) : (s.event b i).bass = s.bass := by simp [State.event]
@[simp] theorem State.event_outEq (b : Blk) (i : Nat) : (s.event b i).outEq = s.outEq := by simp [State.event]
@[simp] theorem State.event_corrRecord (b : Blk) (i : Nat) : (s.event b i).corrRecord = s.corrRecord := by simp [State.event]
@[simp] theorem State.event_tap (b : Blk) (i : Nat) : (s.event b i).tap = s.tap := by simp [State.event]
@[simp] theorem State.event_curtain (b : Blk) (i : Nat) : (s.event b i).curtain = s.curtain := by simp [State.event]
@[simp] theorem State.event_monitor (b : Blk) (i : Nat) : (s.event b i).monitor = s.monitor := by simp [State.event]
@[simp] theorem State.event_ps (b : Blk) (i : Nat) : (s.event b i).ps = s.ps := by simp [State.event]
@[simp] theorem State.event_thermals (b : Blk) (i : Nat) : (s.event b i).thermals = s.thermals := by simp [State.event]
@[simp] theorem State.event_tdmRx (b : Blk) (i : Nat) : (s.event b i).tdmRx = s.tdmRx := by simp [State.event]
@[simp] theorem State.event_tdmTx (b : Blk) (i : Nat) : (s.event b i).tdmTx = s.tdmTx := by simp [State.event]
@[simp] theorem State.event_aesRx (b : Blk) (i : Nat) : (s.event b i).aesRx = s.aesRx := by simp [State.event]
@[simp] theorem State.event_aesTx (b : Blk) (i : Nat) : (s.event b i).aesTx = s.aesTx := by simp [State.event]
@[simp] theorem State.event_time (b : Blk) (i : Nat) : (s.event b i).time = s.time := by simp [State.event]
@[simp] theorem State.event_net (b : Blk) (i : Nat) : (s.event b i).net = s.net := by simp [State.event]
@[simp] theorem State.event_sched (b : Blk) (i : Nat) : (s.event b i).sched = s.sched := by simp [State.event]
@[simp] theorem State.event_seats (b : Blk) (i : Nat) : (s.event b i).seats = s.seats := by simp [State.event]
@[simp] theorem State.event_hosts (b : Blk) (i : Nat) : (s.event b i).hosts = s.hosts := by simp [State.event]
@[simp] theorem State.event_pool (b : Blk) (i : Nat) : (s.event b i).pool = s.pool := by simp [State.event]
@[simp] theorem State.event_chains (b : Blk) (i : Nat) : (s.event b i).chains = s.chains := by simp [State.event]
@[simp] theorem State.event_measure (b : Blk) (i : Nat) : (s.event b i).measure = s.measure := by simp [State.event]
@[simp] theorem State.event_hostMem (b : Blk) (i : Nat) : (s.event b i).hostMem = s.hostMem := by simp [State.event]
@[simp] theorem State.event_twin (b : Blk) (i : Nat) : (s.event b i).twin = s.twin := by simp [State.event]
@[simp] theorem State.event_cue (b : Blk) (i : Nat) : (s.event b i).cue = s.cue := by simp [State.event]
@[simp] theorem State.event_prompters (b : Blk) (i : Nat) : (s.event b i).prompters = s.prompters := by simp [State.event]
@[simp] theorem State.event_gpio (b : Blk) (i : Nat) : (s.event b i).gpio = s.gpio := by simp [State.event]
@[simp] theorem State.event_tc (b : Blk) (i : Nat) : (s.event b i).tc = s.tc := by simp [State.event]
@[simp] theorem State.event_snaps (b : Blk) (i : Nat) : (s.event b i).snaps = s.snaps := by simp [State.event]
@[simp] theorem State.event_levels (b : Blk) (i : Nat) : (s.event b i).levels = s.levels := by simp [State.event]
@[simp] theorem State.event_call (b : Blk) (i : Nat) : (s.event b i).call = s.call := by simp [State.event]
@[simp] theorem State.event_green (b : Blk) (i : Nat) : (s.event b i).green = s.green := by simp [State.event]
@[simp] theorem State.event_mon (b : Blk) (i : Nat) : (s.event b i).mon = s.mon := by simp [State.event]
@[simp] theorem State.event_boot (b : Blk) (i : Nat) : (s.event b i).boot = s.boot := by simp [State.event]
@[simp] theorem State.event_free (b : Blk) (i : Nat) : (s.event b i).free = s.free := by simp [State.event]
@[simp] theorem State.event_pending (b : Blk) (i : Nat) : (s.event b i).pending = s.pending := by simp [State.event]
@[simp] theorem State.event_fab_stg (b : Blk) (i : Nat) : (s.event b i).fab.stg = s.fab.stg := by simp [State.event]
@[simp] theorem State.event_fab_mir (b : Blk) (i : Nat) : (s.event b i).fab.mir = s.fab.mir := by simp [State.event]
@[simp] theorem State.event_fab_recOwner (b : Blk) (i : Nat) : (s.event b i).fab.recOwner = s.fab.recOwner := by simp [State.event]
@[simp] theorem State.event_fab_recGroup (b : Blk) (i : Nat) : (s.event b i).fab.recGroup = s.fab.recGroup := by simp [State.event]
@[simp] theorem State.event_fab_stagedPending (b : Blk) (i : Nat) : (s.event b i).fab.stagedPending = s.fab.stagedPending := by simp [State.event]
@[simp] theorem State.event_fab_latch (b : Blk) (i : Nat) : (s.event b i).fab.latch = s.fab.latch := by simp [State.event]
@[simp] theorem State.event_fab_holding (b : Blk) (i : Nat) : (s.event b i).fab.holding = s.fab.holding := by simp [State.event]
@[simp] theorem State.event_fab_refreshTag (b : Blk) (i : Nat) : (s.event b i).fab.refreshTag = s.fab.refreshTag := by simp [State.event]
@[simp] theorem State.event_fab_refreshedAt (b : Blk) (i : Nat) : (s.event b i).fab.refreshedAt = s.fab.refreshedAt := by simp [State.event]
@[simp] theorem State.event_fab_posted (b : Blk) (i : Nat) : (s.event b i).fab.posted = s.fab.posted := by simp [State.event]
@[simp] theorem State.event_fab_commits (b : Blk) (i : Nat) : (s.event b i).fab.commits = s.fab.commits := by simp [State.event]
@[simp] theorem State.event_fab_serial (b : Blk) (i : Nat) : (s.event b i).fab.serial = s.fab.serial := by simp [State.event]
@[simp] theorem State.event_fab_lastStrobe (b : Blk) (i : Nat) : (s.event b i).fab.lastStrobe = s.fab.lastStrobe := by simp [State.event]
@[simp] theorem State.event_fab_resets (b : Blk) (i : Nat) : (s.event b i).fab.resets = s.fab.resets := by simp [State.event]
@[simp] theorem State.event_fab_held (b : Blk) (i : Nat) : (s.event b i).fab.held = s.fab.held := by simp [State.event]
@[simp] theorem State.event_fab_defcfg (b : Blk) (i : Nat) : (s.event b i).fab.defcfg = s.fab.defcfg := by simp [State.event]
@[simp] theorem State.event_fab_answer (b : Blk) (i : Nat) : (s.event b i).fab.answer = s.fab.answer := by simp [State.event]

/-! `State.logErr` -/
@[simp] theorem State.logErr_model (b : Blk) (off r q : Nat) : (s.logErr b off r q).model = s.model := by unfold State.logErr; split <;> rfl
@[simp] theorem State.logErr_render (b : Blk) (off r q : Nat) : (s.logErr b off r q).render = s.render := by unfold State.logErr; split <;> rfl
@[simp] theorem State.logErr_changes (b : Blk) (off r q : Nat) : (s.logErr b off r q).changes = s.changes := by unfold State.logErr; split <;> rfl
@[simp] theorem State.logErr_objs (b : Blk) (off r q : Nat) : (s.logErr b off r q).objs = s.objs := by unfold State.logErr; split <;> rfl
@[simp] theorem State.logErr_motion (b : Blk) (off r q : Nat) : (s.logErr b off r q).motion = s.motion := by unfold State.logErr; split <;> rfl
@[simp] theorem State.logErr_layouts (b : Blk) (off r q : Nat) : (s.logErr b off r q).layouts = s.layouts := by unfold State.logErr; split <;> rfl
@[simp] theorem State.logErr_paths (b : Blk) (off r q : Nat) : (s.logErr b off r q).paths = s.paths := by unfold State.logErr; split <;> rfl
@[simp] theorem State.logErr_samples (b : Blk) (off r q : Nat) : (s.logErr b off r q).samples = s.samples := by unfold State.logErr; split <;> rfl
@[simp] theorem State.logErr_routes (b : Blk) (off r q : Nat) : (s.logErr b off r q).routes = s.routes := by unfold State.logErr; split <;> rfl
@[simp] theorem State.logErr_buses (b : Blk) (off r q : Nat) : (s.logErr b off r q).buses = s.buses := by unfold State.logErr; split <;> rfl
@[simp] theorem State.logErr_outs (b : Blk) (off r q : Nat) : (s.logErr b off r q).outs = s.outs := by unfold State.logErr; split <;> rfl
@[simp] theorem State.logErr_bass (b : Blk) (off r q : Nat) : (s.logErr b off r q).bass = s.bass := by unfold State.logErr; split <;> rfl
@[simp] theorem State.logErr_outEq (b : Blk) (off r q : Nat) : (s.logErr b off r q).outEq = s.outEq := by unfold State.logErr; split <;> rfl
@[simp] theorem State.logErr_corrRecord (b : Blk) (off r q : Nat) : (s.logErr b off r q).corrRecord = s.corrRecord := by unfold State.logErr; split <;> rfl
@[simp] theorem State.logErr_tap (b : Blk) (off r q : Nat) : (s.logErr b off r q).tap = s.tap := by unfold State.logErr; split <;> rfl
@[simp] theorem State.logErr_curtain (b : Blk) (off r q : Nat) : (s.logErr b off r q).curtain = s.curtain := by unfold State.logErr; split <;> rfl
@[simp] theorem State.logErr_monitor (b : Blk) (off r q : Nat) : (s.logErr b off r q).monitor = s.monitor := by unfold State.logErr; split <;> rfl
@[simp] theorem State.logErr_ps (b : Blk) (off r q : Nat) : (s.logErr b off r q).ps = s.ps := by unfold State.logErr; split <;> rfl
@[simp] theorem State.logErr_thermals (b : Blk) (off r q : Nat) : (s.logErr b off r q).thermals = s.thermals := by unfold State.logErr; split <;> rfl
@[simp] theorem State.logErr_tdmRx (b : Blk) (off r q : Nat) : (s.logErr b off r q).tdmRx = s.tdmRx := by unfold State.logErr; split <;> rfl
@[simp] theorem State.logErr_tdmTx (b : Blk) (off r q : Nat) : (s.logErr b off r q).tdmTx = s.tdmTx := by unfold State.logErr; split <;> rfl
@[simp] theorem State.logErr_aesRx (b : Blk) (off r q : Nat) : (s.logErr b off r q).aesRx = s.aesRx := by unfold State.logErr; split <;> rfl
@[simp] theorem State.logErr_aesTx (b : Blk) (off r q : Nat) : (s.logErr b off r q).aesTx = s.aesTx := by unfold State.logErr; split <;> rfl
@[simp] theorem State.logErr_time (b : Blk) (off r q : Nat) : (s.logErr b off r q).time = s.time := by unfold State.logErr; split <;> rfl
@[simp] theorem State.logErr_net (b : Blk) (off r q : Nat) : (s.logErr b off r q).net = s.net := by unfold State.logErr; split <;> rfl
@[simp] theorem State.logErr_sched (b : Blk) (off r q : Nat) : (s.logErr b off r q).sched = s.sched := by unfold State.logErr; split <;> rfl
@[simp] theorem State.logErr_seats (b : Blk) (off r q : Nat) : (s.logErr b off r q).seats = s.seats := by unfold State.logErr; split <;> rfl
@[simp] theorem State.logErr_hosts (b : Blk) (off r q : Nat) : (s.logErr b off r q).hosts = s.hosts := by unfold State.logErr; split <;> rfl
@[simp] theorem State.logErr_pool (b : Blk) (off r q : Nat) : (s.logErr b off r q).pool = s.pool := by unfold State.logErr; split <;> rfl
@[simp] theorem State.logErr_chains (b : Blk) (off r q : Nat) : (s.logErr b off r q).chains = s.chains := by unfold State.logErr; split <;> rfl
@[simp] theorem State.logErr_measure (b : Blk) (off r q : Nat) : (s.logErr b off r q).measure = s.measure := by unfold State.logErr; split <;> rfl
@[simp] theorem State.logErr_hostMem (b : Blk) (off r q : Nat) : (s.logErr b off r q).hostMem = s.hostMem := by unfold State.logErr; split <;> rfl
@[simp] theorem State.logErr_twin (b : Blk) (off r q : Nat) : (s.logErr b off r q).twin = s.twin := by unfold State.logErr; split <;> rfl
@[simp] theorem State.logErr_cue (b : Blk) (off r q : Nat) : (s.logErr b off r q).cue = s.cue := by unfold State.logErr; split <;> rfl
@[simp] theorem State.logErr_prompters (b : Blk) (off r q : Nat) : (s.logErr b off r q).prompters = s.prompters := by unfold State.logErr; split <;> rfl
@[simp] theorem State.logErr_gpio (b : Blk) (off r q : Nat) : (s.logErr b off r q).gpio = s.gpio := by unfold State.logErr; split <;> rfl
@[simp] theorem State.logErr_tc (b : Blk) (off r q : Nat) : (s.logErr b off r q).tc = s.tc := by unfold State.logErr; split <;> rfl
@[simp] theorem State.logErr_snaps (b : Blk) (off r q : Nat) : (s.logErr b off r q).snaps = s.snaps := by unfold State.logErr; split <;> rfl
@[simp] theorem State.logErr_levels (b : Blk) (off r q : Nat) : (s.logErr b off r q).levels = s.levels := by unfold State.logErr; split <;> rfl
@[simp] theorem State.logErr_call (b : Blk) (off r q : Nat) : (s.logErr b off r q).call = s.call := by unfold State.logErr; split <;> rfl
@[simp] theorem State.logErr_green (b : Blk) (off r q : Nat) : (s.logErr b off r q).green = s.green := by unfold State.logErr; split <;> rfl
@[simp] theorem State.logErr_mon (b : Blk) (off r q : Nat) : (s.logErr b off r q).mon = s.mon := by unfold State.logErr; split <;> rfl
@[simp] theorem State.logErr_boot (b : Blk) (off r q : Nat) : (s.logErr b off r q).boot = s.boot := by unfold State.logErr; split <;> rfl
@[simp] theorem State.logErr_free (b : Blk) (off r q : Nat) : (s.logErr b off r q).free = s.free := by unfold State.logErr; split <;> rfl
@[simp] theorem State.logErr_pending (b : Blk) (off r q : Nat) : (s.logErr b off r q).pending = s.pending := by unfold State.logErr; split <;> rfl
@[simp] theorem State.logErr_fab_stg (b : Blk) (off r q : Nat) : (s.logErr b off r q).fab.stg = s.fab.stg := by unfold State.logErr; split <;> rfl
@[simp] theorem State.logErr_fab_mir (b : Blk) (off r q : Nat) : (s.logErr b off r q).fab.mir = s.fab.mir := by unfold State.logErr; split <;> rfl
@[simp] theorem State.logErr_fab_recOwner (b : Blk) (off r q : Nat) : (s.logErr b off r q).fab.recOwner = s.fab.recOwner := by unfold State.logErr; split <;> rfl
@[simp] theorem State.logErr_fab_recGroup (b : Blk) (off r q : Nat) : (s.logErr b off r q).fab.recGroup = s.fab.recGroup := by unfold State.logErr; split <;> rfl
@[simp] theorem State.logErr_fab_stagedPending (b : Blk) (off r q : Nat) : (s.logErr b off r q).fab.stagedPending = s.fab.stagedPending := by unfold State.logErr; split <;> rfl
@[simp] theorem State.logErr_fab_latch (b : Blk) (off r q : Nat) : (s.logErr b off r q).fab.latch = s.fab.latch := by unfold State.logErr; split <;> rfl
@[simp] theorem State.logErr_fab_holding (b : Blk) (off r q : Nat) : (s.logErr b off r q).fab.holding = s.fab.holding := by unfold State.logErr; split <;> rfl
@[simp] theorem State.logErr_fab_refreshTag (b : Blk) (off r q : Nat) : (s.logErr b off r q).fab.refreshTag = s.fab.refreshTag := by unfold State.logErr; split <;> rfl
@[simp] theorem State.logErr_fab_refreshedAt (b : Blk) (off r q : Nat) : (s.logErr b off r q).fab.refreshedAt = s.fab.refreshedAt := by unfold State.logErr; split <;> rfl
@[simp] theorem State.logErr_fab_evMark (b : Blk) (off r q : Nat) : (s.logErr b off r q).fab.evMark = s.fab.evMark := by unfold State.logErr; split <;> rfl
@[simp] theorem State.logErr_fab_posted (b : Blk) (off r q : Nat) : (s.logErr b off r q).fab.posted = s.fab.posted := by unfold State.logErr; split <;> rfl
@[simp] theorem State.logErr_fab_commits (b : Blk) (off r q : Nat) : (s.logErr b off r q).fab.commits = s.fab.commits := by unfold State.logErr; split <;> rfl
@[simp] theorem State.logErr_fab_serial (b : Blk) (off r q : Nat) : (s.logErr b off r q).fab.serial = s.fab.serial := by unfold State.logErr; split <;> rfl
@[simp] theorem State.logErr_fab_lastStrobe (b : Blk) (off r q : Nat) : (s.logErr b off r q).fab.lastStrobe = s.fab.lastStrobe := by unfold State.logErr; split <;> rfl
@[simp] theorem State.logErr_fab_resets (b : Blk) (off r q : Nat) : (s.logErr b off r q).fab.resets = s.fab.resets := by unfold State.logErr; split <;> rfl
@[simp] theorem State.logErr_fab_held (b : Blk) (off r q : Nat) : (s.logErr b off r q).fab.held = s.fab.held := by unfold State.logErr; split <;> rfl
@[simp] theorem State.logErr_fab_defcfg (b : Blk) (off r q : Nat) : (s.logErr b off r q).fab.defcfg = s.fab.defcfg := by unfold State.logErr; split <;> rfl
@[simp] theorem State.logErr_fab_answer (b : Blk) (off r q : Nat) : (s.logErr b off r q).fab.answer = s.fab.answer := by unfold State.logErr; split <;> rfl

/-! `State.setPending` -/
@[simp] theorem State.setPending_model (b : Blk) (v : Bool) : (s.setPending b v).model = s.model := rfl
@[simp] theorem State.setPending_render (b : Blk) (v : Bool) : (s.setPending b v).render = s.render := rfl
@[simp] theorem State.setPending_changes (b : Blk) (v : Bool) : (s.setPending b v).changes = s.changes := rfl
@[simp] theorem State.setPending_objs (b : Blk) (v : Bool) : (s.setPending b v).objs = s.objs := rfl
@[simp] theorem State.setPending_motion (b : Blk) (v : Bool) : (s.setPending b v).motion = s.motion := rfl
@[simp] theorem State.setPending_layouts (b : Blk) (v : Bool) : (s.setPending b v).layouts = s.layouts := rfl
@[simp] theorem State.setPending_paths (b : Blk) (v : Bool) : (s.setPending b v).paths = s.paths := rfl
@[simp] theorem State.setPending_samples (b : Blk) (v : Bool) : (s.setPending b v).samples = s.samples := rfl
@[simp] theorem State.setPending_routes (b : Blk) (v : Bool) : (s.setPending b v).routes = s.routes := rfl
@[simp] theorem State.setPending_buses (b : Blk) (v : Bool) : (s.setPending b v).buses = s.buses := rfl
@[simp] theorem State.setPending_outs (b : Blk) (v : Bool) : (s.setPending b v).outs = s.outs := rfl
@[simp] theorem State.setPending_bass (b : Blk) (v : Bool) : (s.setPending b v).bass = s.bass := rfl
@[simp] theorem State.setPending_outEq (b : Blk) (v : Bool) : (s.setPending b v).outEq = s.outEq := rfl
@[simp] theorem State.setPending_corrRecord (b : Blk) (v : Bool) : (s.setPending b v).corrRecord = s.corrRecord := rfl
@[simp] theorem State.setPending_tap (b : Blk) (v : Bool) : (s.setPending b v).tap = s.tap := rfl
@[simp] theorem State.setPending_curtain (b : Blk) (v : Bool) : (s.setPending b v).curtain = s.curtain := rfl
@[simp] theorem State.setPending_monitor (b : Blk) (v : Bool) : (s.setPending b v).monitor = s.monitor := rfl
@[simp] theorem State.setPending_ps (b : Blk) (v : Bool) : (s.setPending b v).ps = s.ps := rfl
@[simp] theorem State.setPending_thermals (b : Blk) (v : Bool) : (s.setPending b v).thermals = s.thermals := rfl
@[simp] theorem State.setPending_tdmRx (b : Blk) (v : Bool) : (s.setPending b v).tdmRx = s.tdmRx := rfl
@[simp] theorem State.setPending_tdmTx (b : Blk) (v : Bool) : (s.setPending b v).tdmTx = s.tdmTx := rfl
@[simp] theorem State.setPending_aesRx (b : Blk) (v : Bool) : (s.setPending b v).aesRx = s.aesRx := rfl
@[simp] theorem State.setPending_aesTx (b : Blk) (v : Bool) : (s.setPending b v).aesTx = s.aesTx := rfl
@[simp] theorem State.setPending_time (b : Blk) (v : Bool) : (s.setPending b v).time = s.time := rfl
@[simp] theorem State.setPending_net (b : Blk) (v : Bool) : (s.setPending b v).net = s.net := rfl
@[simp] theorem State.setPending_sched (b : Blk) (v : Bool) : (s.setPending b v).sched = s.sched := rfl
@[simp] theorem State.setPending_seats (b : Blk) (v : Bool) : (s.setPending b v).seats = s.seats := rfl
@[simp] theorem State.setPending_hosts (b : Blk) (v : Bool) : (s.setPending b v).hosts = s.hosts := rfl
@[simp] theorem State.setPending_pool (b : Blk) (v : Bool) : (s.setPending b v).pool = s.pool := rfl
@[simp] theorem State.setPending_chains (b : Blk) (v : Bool) : (s.setPending b v).chains = s.chains := rfl
@[simp] theorem State.setPending_measure (b : Blk) (v : Bool) : (s.setPending b v).measure = s.measure := rfl
@[simp] theorem State.setPending_hostMem (b : Blk) (v : Bool) : (s.setPending b v).hostMem = s.hostMem := rfl
@[simp] theorem State.setPending_twin (b : Blk) (v : Bool) : (s.setPending b v).twin = s.twin := rfl
@[simp] theorem State.setPending_cue (b : Blk) (v : Bool) : (s.setPending b v).cue = s.cue := rfl
@[simp] theorem State.setPending_prompters (b : Blk) (v : Bool) : (s.setPending b v).prompters = s.prompters := rfl
@[simp] theorem State.setPending_gpio (b : Blk) (v : Bool) : (s.setPending b v).gpio = s.gpio := rfl
@[simp] theorem State.setPending_tc (b : Blk) (v : Bool) : (s.setPending b v).tc = s.tc := rfl
@[simp] theorem State.setPending_snaps (b : Blk) (v : Bool) : (s.setPending b v).snaps = s.snaps := rfl
@[simp] theorem State.setPending_levels (b : Blk) (v : Bool) : (s.setPending b v).levels = s.levels := rfl
@[simp] theorem State.setPending_call (b : Blk) (v : Bool) : (s.setPending b v).call = s.call := rfl
@[simp] theorem State.setPending_green (b : Blk) (v : Bool) : (s.setPending b v).green = s.green := rfl
@[simp] theorem State.setPending_mon (b : Blk) (v : Bool) : (s.setPending b v).mon = s.mon := rfl
@[simp] theorem State.setPending_boot (b : Blk) (v : Bool) : (s.setPending b v).boot = s.boot := rfl
@[simp] theorem State.setPending_free (b : Blk) (v : Bool) : (s.setPending b v).free = s.free := rfl
@[simp] theorem State.setPending_pending (b : Blk) (v : Bool) : (s.setPending b v).pending = s.pending := rfl
@[simp] theorem State.setPending_fab_stg (b : Blk) (v : Bool) : (s.setPending b v).fab.stg = s.fab.stg := rfl
@[simp] theorem State.setPending_fab_act (b : Blk) (v : Bool) : (s.setPending b v).fab.act = s.fab.act := rfl
@[simp] theorem State.setPending_fab_mir (b : Blk) (v : Bool) : (s.setPending b v).fab.mir = s.fab.mir := rfl
@[simp] theorem State.setPending_fab_recOwner (b : Blk) (v : Bool) : (s.setPending b v).fab.recOwner = s.fab.recOwner := rfl
@[simp] theorem State.setPending_fab_recGroup (b : Blk) (v : Bool) : (s.setPending b v).fab.recGroup = s.fab.recGroup := rfl
@[simp] theorem State.setPending_fab_latch (b : Blk) (v : Bool) : (s.setPending b v).fab.latch = s.fab.latch := rfl
@[simp] theorem State.setPending_fab_holding (b : Blk) (v : Bool) : (s.setPending b v).fab.holding = s.fab.holding := rfl
@[simp] theorem State.setPending_fab_refreshTag (b : Blk) (v : Bool) : (s.setPending b v).fab.refreshTag = s.fab.refreshTag := rfl
@[simp] theorem State.setPending_fab_refreshedAt (b : Blk) (v : Bool) : (s.setPending b v).fab.refreshedAt = s.fab.refreshedAt := rfl
@[simp] theorem State.setPending_fab_evMark (b : Blk) (v : Bool) : (s.setPending b v).fab.evMark = s.fab.evMark := rfl
@[simp] theorem State.setPending_fab_posted (b : Blk) (v : Bool) : (s.setPending b v).fab.posted = s.fab.posted := rfl
@[simp] theorem State.setPending_fab_commits (b : Blk) (v : Bool) : (s.setPending b v).fab.commits = s.fab.commits := rfl
@[simp] theorem State.setPending_fab_serial (b : Blk) (v : Bool) : (s.setPending b v).fab.serial = s.fab.serial := rfl
@[simp] theorem State.setPending_fab_lastStrobe (b : Blk) (v : Bool) : (s.setPending b v).fab.lastStrobe = s.fab.lastStrobe := rfl
@[simp] theorem State.setPending_fab_resets (b : Blk) (v : Bool) : (s.setPending b v).fab.resets = s.fab.resets := rfl
@[simp] theorem State.setPending_fab_held (b : Blk) (v : Bool) : (s.setPending b v).fab.held = s.fab.held := rfl
@[simp] theorem State.setPending_fab_defcfg (b : Blk) (v : Bool) : (s.setPending b v).fab.defcfg = s.fab.defcfg := rfl
@[simp] theorem State.setPending_fab_answer (b : Blk) (v : Bool) : (s.setPending b v).fab.answer = s.fab.answer := rfl

/-! `State.setObj` -/
@[simp] theorem State.setObj_model (n : Nat) (o : ObjEngine) : (s.setObj n o).model = s.model := rfl
@[simp] theorem State.setObj_fab (n : Nat) (o : ObjEngine) : (s.setObj n o).fab = s.fab := rfl
@[simp] theorem State.setObj_render (n : Nat) (o : ObjEngine) : (s.setObj n o).render = s.render := rfl
@[simp] theorem State.setObj_changes (n : Nat) (o : ObjEngine) : (s.setObj n o).changes = s.changes := rfl
@[simp] theorem State.setObj_motion (n : Nat) (o : ObjEngine) : (s.setObj n o).motion = s.motion := rfl
@[simp] theorem State.setObj_layouts (n : Nat) (o : ObjEngine) : (s.setObj n o).layouts = s.layouts := rfl
@[simp] theorem State.setObj_paths (n : Nat) (o : ObjEngine) : (s.setObj n o).paths = s.paths := rfl
@[simp] theorem State.setObj_samples (n : Nat) (o : ObjEngine) : (s.setObj n o).samples = s.samples := rfl
@[simp] theorem State.setObj_routes (n : Nat) (o : ObjEngine) : (s.setObj n o).routes = s.routes := rfl
@[simp] theorem State.setObj_buses (n : Nat) (o : ObjEngine) : (s.setObj n o).buses = s.buses := rfl
@[simp] theorem State.setObj_outs (n : Nat) (o : ObjEngine) : (s.setObj n o).outs = s.outs := rfl
@[simp] theorem State.setObj_bass (n : Nat) (o : ObjEngine) : (s.setObj n o).bass = s.bass := rfl
@[simp] theorem State.setObj_outEq (n : Nat) (o : ObjEngine) : (s.setObj n o).outEq = s.outEq := rfl
@[simp] theorem State.setObj_corrRecord (n : Nat) (o : ObjEngine) : (s.setObj n o).corrRecord = s.corrRecord := rfl
@[simp] theorem State.setObj_tap (n : Nat) (o : ObjEngine) : (s.setObj n o).tap = s.tap := rfl
@[simp] theorem State.setObj_curtain (n : Nat) (o : ObjEngine) : (s.setObj n o).curtain = s.curtain := rfl
@[simp] theorem State.setObj_monitor (n : Nat) (o : ObjEngine) : (s.setObj n o).monitor = s.monitor := rfl
@[simp] theorem State.setObj_ps (n : Nat) (o : ObjEngine) : (s.setObj n o).ps = s.ps := rfl
@[simp] theorem State.setObj_thermals (n : Nat) (o : ObjEngine) : (s.setObj n o).thermals = s.thermals := rfl
@[simp] theorem State.setObj_tdmRx (n : Nat) (o : ObjEngine) : (s.setObj n o).tdmRx = s.tdmRx := rfl
@[simp] theorem State.setObj_tdmTx (n : Nat) (o : ObjEngine) : (s.setObj n o).tdmTx = s.tdmTx := rfl
@[simp] theorem State.setObj_aesRx (n : Nat) (o : ObjEngine) : (s.setObj n o).aesRx = s.aesRx := rfl
@[simp] theorem State.setObj_aesTx (n : Nat) (o : ObjEngine) : (s.setObj n o).aesTx = s.aesTx := rfl
@[simp] theorem State.setObj_time (n : Nat) (o : ObjEngine) : (s.setObj n o).time = s.time := rfl
@[simp] theorem State.setObj_net (n : Nat) (o : ObjEngine) : (s.setObj n o).net = s.net := rfl
@[simp] theorem State.setObj_sched (n : Nat) (o : ObjEngine) : (s.setObj n o).sched = s.sched := rfl
@[simp] theorem State.setObj_seats (n : Nat) (o : ObjEngine) : (s.setObj n o).seats = s.seats := rfl
@[simp] theorem State.setObj_hosts (n : Nat) (o : ObjEngine) : (s.setObj n o).hosts = s.hosts := rfl
@[simp] theorem State.setObj_pool (n : Nat) (o : ObjEngine) : (s.setObj n o).pool = s.pool := rfl
@[simp] theorem State.setObj_chains (n : Nat) (o : ObjEngine) : (s.setObj n o).chains = s.chains := rfl
@[simp] theorem State.setObj_measure (n : Nat) (o : ObjEngine) : (s.setObj n o).measure = s.measure := rfl
@[simp] theorem State.setObj_hostMem (n : Nat) (o : ObjEngine) : (s.setObj n o).hostMem = s.hostMem := rfl
@[simp] theorem State.setObj_twin (n : Nat) (o : ObjEngine) : (s.setObj n o).twin = s.twin := rfl
@[simp] theorem State.setObj_cue (n : Nat) (o : ObjEngine) : (s.setObj n o).cue = s.cue := rfl
@[simp] theorem State.setObj_prompters (n : Nat) (o : ObjEngine) : (s.setObj n o).prompters = s.prompters := rfl
@[simp] theorem State.setObj_gpio (n : Nat) (o : ObjEngine) : (s.setObj n o).gpio = s.gpio := rfl
@[simp] theorem State.setObj_tc (n : Nat) (o : ObjEngine) : (s.setObj n o).tc = s.tc := rfl
@[simp] theorem State.setObj_snaps (n : Nat) (o : ObjEngine) : (s.setObj n o).snaps = s.snaps := rfl
@[simp] theorem State.setObj_levels (n : Nat) (o : ObjEngine) : (s.setObj n o).levels = s.levels := rfl
@[simp] theorem State.setObj_call (n : Nat) (o : ObjEngine) : (s.setObj n o).call = s.call := rfl
@[simp] theorem State.setObj_green (n : Nat) (o : ObjEngine) : (s.setObj n o).green = s.green := rfl
@[simp] theorem State.setObj_mon (n : Nat) (o : ObjEngine) : (s.setObj n o).mon = s.mon := rfl
@[simp] theorem State.setObj_boot (n : Nat) (o : ObjEngine) : (s.setObj n o).boot = s.boot := rfl
@[simp] theorem State.setObj_free (n : Nat) (o : ObjEngine) : (s.setObj n o).free = s.free := rfl
@[simp] theorem State.setObj_pending (n : Nat) (o : ObjEngine) : (s.setObj n o).pending = s.pending := rfl

/-! `State.setPathsOf` -/
@[simp] theorem State.setPathsOf_model (n : Nat) (p : ObjPaths) : (s.setPathsOf n p).model = s.model := rfl
@[simp] theorem State.setPathsOf_fab (n : Nat) (p : ObjPaths) : (s.setPathsOf n p).fab = s.fab := rfl
@[simp] theorem State.setPathsOf_render (n : Nat) (p : ObjPaths) : (s.setPathsOf n p).render = s.render := rfl
@[simp] theorem State.setPathsOf_changes (n : Nat) (p : ObjPaths) : (s.setPathsOf n p).changes = s.changes := rfl
@[simp] theorem State.setPathsOf_objs (n : Nat) (p : ObjPaths) : (s.setPathsOf n p).objs = s.objs := rfl
@[simp] theorem State.setPathsOf_motion (n : Nat) (p : ObjPaths) : (s.setPathsOf n p).motion = s.motion := rfl
@[simp] theorem State.setPathsOf_layouts (n : Nat) (p : ObjPaths) : (s.setPathsOf n p).layouts = s.layouts := rfl
@[simp] theorem State.setPathsOf_samples (n : Nat) (p : ObjPaths) : (s.setPathsOf n p).samples = s.samples := rfl
@[simp] theorem State.setPathsOf_routes (n : Nat) (p : ObjPaths) : (s.setPathsOf n p).routes = s.routes := rfl
@[simp] theorem State.setPathsOf_buses (n : Nat) (p : ObjPaths) : (s.setPathsOf n p).buses = s.buses := rfl
@[simp] theorem State.setPathsOf_outs (n : Nat) (p : ObjPaths) : (s.setPathsOf n p).outs = s.outs := rfl
@[simp] theorem State.setPathsOf_bass (n : Nat) (p : ObjPaths) : (s.setPathsOf n p).bass = s.bass := rfl
@[simp] theorem State.setPathsOf_outEq (n : Nat) (p : ObjPaths) : (s.setPathsOf n p).outEq = s.outEq := rfl
@[simp] theorem State.setPathsOf_corrRecord (n : Nat) (p : ObjPaths) : (s.setPathsOf n p).corrRecord = s.corrRecord := rfl
@[simp] theorem State.setPathsOf_tap (n : Nat) (p : ObjPaths) : (s.setPathsOf n p).tap = s.tap := rfl
@[simp] theorem State.setPathsOf_curtain (n : Nat) (p : ObjPaths) : (s.setPathsOf n p).curtain = s.curtain := rfl
@[simp] theorem State.setPathsOf_monitor (n : Nat) (p : ObjPaths) : (s.setPathsOf n p).monitor = s.monitor := rfl
@[simp] theorem State.setPathsOf_ps (n : Nat) (p : ObjPaths) : (s.setPathsOf n p).ps = s.ps := rfl
@[simp] theorem State.setPathsOf_thermals (n : Nat) (p : ObjPaths) : (s.setPathsOf n p).thermals = s.thermals := rfl
@[simp] theorem State.setPathsOf_tdmRx (n : Nat) (p : ObjPaths) : (s.setPathsOf n p).tdmRx = s.tdmRx := rfl
@[simp] theorem State.setPathsOf_tdmTx (n : Nat) (p : ObjPaths) : (s.setPathsOf n p).tdmTx = s.tdmTx := rfl
@[simp] theorem State.setPathsOf_aesRx (n : Nat) (p : ObjPaths) : (s.setPathsOf n p).aesRx = s.aesRx := rfl
@[simp] theorem State.setPathsOf_aesTx (n : Nat) (p : ObjPaths) : (s.setPathsOf n p).aesTx = s.aesTx := rfl
@[simp] theorem State.setPathsOf_time (n : Nat) (p : ObjPaths) : (s.setPathsOf n p).time = s.time := rfl
@[simp] theorem State.setPathsOf_net (n : Nat) (p : ObjPaths) : (s.setPathsOf n p).net = s.net := rfl
@[simp] theorem State.setPathsOf_sched (n : Nat) (p : ObjPaths) : (s.setPathsOf n p).sched = s.sched := rfl
@[simp] theorem State.setPathsOf_seats (n : Nat) (p : ObjPaths) : (s.setPathsOf n p).seats = s.seats := rfl
@[simp] theorem State.setPathsOf_hosts (n : Nat) (p : ObjPaths) : (s.setPathsOf n p).hosts = s.hosts := rfl
@[simp] theorem State.setPathsOf_pool (n : Nat) (p : ObjPaths) : (s.setPathsOf n p).pool = s.pool := rfl
@[simp] theorem State.setPathsOf_chains (n : Nat) (p : ObjPaths) : (s.setPathsOf n p).chains = s.chains := rfl
@[simp] theorem State.setPathsOf_measure (n : Nat) (p : ObjPaths) : (s.setPathsOf n p).measure = s.measure := rfl
@[simp] theorem State.setPathsOf_hostMem (n : Nat) (p : ObjPaths) : (s.setPathsOf n p).hostMem = s.hostMem := rfl
@[simp] theorem State.setPathsOf_twin (n : Nat) (p : ObjPaths) : (s.setPathsOf n p).twin = s.twin := rfl
@[simp] theorem State.setPathsOf_cue (n : Nat) (p : ObjPaths) : (s.setPathsOf n p).cue = s.cue := rfl
@[simp] theorem State.setPathsOf_prompters (n : Nat) (p : ObjPaths) : (s.setPathsOf n p).prompters = s.prompters := rfl
@[simp] theorem State.setPathsOf_gpio (n : Nat) (p : ObjPaths) : (s.setPathsOf n p).gpio = s.gpio := rfl
@[simp] theorem State.setPathsOf_tc (n : Nat) (p : ObjPaths) : (s.setPathsOf n p).tc = s.tc := rfl
@[simp] theorem State.setPathsOf_snaps (n : Nat) (p : ObjPaths) : (s.setPathsOf n p).snaps = s.snaps := rfl
@[simp] theorem State.setPathsOf_levels (n : Nat) (p : ObjPaths) : (s.setPathsOf n p).levels = s.levels := rfl
@[simp] theorem State.setPathsOf_call (n : Nat) (p : ObjPaths) : (s.setPathsOf n p).call = s.call := rfl
@[simp] theorem State.setPathsOf_green (n : Nat) (p : ObjPaths) : (s.setPathsOf n p).green = s.green := rfl
@[simp] theorem State.setPathsOf_mon (n : Nat) (p : ObjPaths) : (s.setPathsOf n p).mon = s.mon := rfl
@[simp] theorem State.setPathsOf_boot (n : Nat) (p : ObjPaths) : (s.setPathsOf n p).boot = s.boot := rfl
@[simp] theorem State.setPathsOf_free (n : Nat) (p : ObjPaths) : (s.setPathsOf n p).free = s.free := rfl
@[simp] theorem State.setPathsOf_pending (n : Nat) (p : ObjPaths) : (s.setPathsOf n p).pending = s.pending := rfl

/-! `State.putSample` -/
@[simp] theorem State.putSample_model (src : Source) (i : Nat) (v : Int) : (s.putSample src i v).model = s.model := rfl
@[simp] theorem State.putSample_fab (src : Source) (i : Nat) (v : Int) : (s.putSample src i v).fab = s.fab := rfl
@[simp] theorem State.putSample_render (src : Source) (i : Nat) (v : Int) : (s.putSample src i v).render = s.render := rfl
@[simp] theorem State.putSample_changes (src : Source) (i : Nat) (v : Int) : (s.putSample src i v).changes = s.changes := rfl
@[simp] theorem State.putSample_objs (src : Source) (i : Nat) (v : Int) : (s.putSample src i v).objs = s.objs := rfl
@[simp] theorem State.putSample_motion (src : Source) (i : Nat) (v : Int) : (s.putSample src i v).motion = s.motion := rfl
@[simp] theorem State.putSample_layouts (src : Source) (i : Nat) (v : Int) : (s.putSample src i v).layouts = s.layouts := rfl
@[simp] theorem State.putSample_paths (src : Source) (i : Nat) (v : Int) : (s.putSample src i v).paths = s.paths := rfl
@[simp] theorem State.putSample_routes (src : Source) (i : Nat) (v : Int) : (s.putSample src i v).routes = s.routes := rfl
@[simp] theorem State.putSample_buses (src : Source) (i : Nat) (v : Int) : (s.putSample src i v).buses = s.buses := rfl
@[simp] theorem State.putSample_outs (src : Source) (i : Nat) (v : Int) : (s.putSample src i v).outs = s.outs := rfl
@[simp] theorem State.putSample_bass (src : Source) (i : Nat) (v : Int) : (s.putSample src i v).bass = s.bass := rfl
@[simp] theorem State.putSample_outEq (src : Source) (i : Nat) (v : Int) : (s.putSample src i v).outEq = s.outEq := rfl
@[simp] theorem State.putSample_corrRecord (src : Source) (i : Nat) (v : Int) : (s.putSample src i v).corrRecord = s.corrRecord := rfl
@[simp] theorem State.putSample_tap (src : Source) (i : Nat) (v : Int) : (s.putSample src i v).tap = s.tap := rfl
@[simp] theorem State.putSample_curtain (src : Source) (i : Nat) (v : Int) : (s.putSample src i v).curtain = s.curtain := rfl
@[simp] theorem State.putSample_monitor (src : Source) (i : Nat) (v : Int) : (s.putSample src i v).monitor = s.monitor := rfl
@[simp] theorem State.putSample_ps (src : Source) (i : Nat) (v : Int) : (s.putSample src i v).ps = s.ps := rfl
@[simp] theorem State.putSample_thermals (src : Source) (i : Nat) (v : Int) : (s.putSample src i v).thermals = s.thermals := rfl
@[simp] theorem State.putSample_tdmRx (src : Source) (i : Nat) (v : Int) : (s.putSample src i v).tdmRx = s.tdmRx := rfl
@[simp] theorem State.putSample_tdmTx (src : Source) (i : Nat) (v : Int) : (s.putSample src i v).tdmTx = s.tdmTx := rfl
@[simp] theorem State.putSample_aesRx (src : Source) (i : Nat) (v : Int) : (s.putSample src i v).aesRx = s.aesRx := rfl
@[simp] theorem State.putSample_aesTx (src : Source) (i : Nat) (v : Int) : (s.putSample src i v).aesTx = s.aesTx := rfl
@[simp] theorem State.putSample_time (src : Source) (i : Nat) (v : Int) : (s.putSample src i v).time = s.time := rfl
@[simp] theorem State.putSample_net (src : Source) (i : Nat) (v : Int) : (s.putSample src i v).net = s.net := rfl
@[simp] theorem State.putSample_sched (src : Source) (i : Nat) (v : Int) : (s.putSample src i v).sched = s.sched := rfl
@[simp] theorem State.putSample_seats (src : Source) (i : Nat) (v : Int) : (s.putSample src i v).seats = s.seats := rfl
@[simp] theorem State.putSample_hosts (src : Source) (i : Nat) (v : Int) : (s.putSample src i v).hosts = s.hosts := rfl
@[simp] theorem State.putSample_pool (src : Source) (i : Nat) (v : Int) : (s.putSample src i v).pool = s.pool := rfl
@[simp] theorem State.putSample_chains (src : Source) (i : Nat) (v : Int) : (s.putSample src i v).chains = s.chains := rfl
@[simp] theorem State.putSample_measure (src : Source) (i : Nat) (v : Int) : (s.putSample src i v).measure = s.measure := rfl
@[simp] theorem State.putSample_hostMem (src : Source) (i : Nat) (v : Int) : (s.putSample src i v).hostMem = s.hostMem := rfl
@[simp] theorem State.putSample_twin (src : Source) (i : Nat) (v : Int) : (s.putSample src i v).twin = s.twin := rfl
@[simp] theorem State.putSample_cue (src : Source) (i : Nat) (v : Int) : (s.putSample src i v).cue = s.cue := rfl
@[simp] theorem State.putSample_prompters (src : Source) (i : Nat) (v : Int) : (s.putSample src i v).prompters = s.prompters := rfl
@[simp] theorem State.putSample_gpio (src : Source) (i : Nat) (v : Int) : (s.putSample src i v).gpio = s.gpio := rfl
@[simp] theorem State.putSample_tc (src : Source) (i : Nat) (v : Int) : (s.putSample src i v).tc = s.tc := rfl
@[simp] theorem State.putSample_snaps (src : Source) (i : Nat) (v : Int) : (s.putSample src i v).snaps = s.snaps := rfl
@[simp] theorem State.putSample_levels (src : Source) (i : Nat) (v : Int) : (s.putSample src i v).levels = s.levels := rfl
@[simp] theorem State.putSample_call (src : Source) (i : Nat) (v : Int) : (s.putSample src i v).call = s.call := rfl
@[simp] theorem State.putSample_green (src : Source) (i : Nat) (v : Int) : (s.putSample src i v).green = s.green := rfl
@[simp] theorem State.putSample_mon (src : Source) (i : Nat) (v : Int) : (s.putSample src i v).mon = s.mon := rfl
@[simp] theorem State.putSample_boot (src : Source) (i : Nat) (v : Int) : (s.putSample src i v).boot = s.boot := rfl
@[simp] theorem State.putSample_free (src : Source) (i : Nat) (v : Int) : (s.putSample src i v).free = s.free := rfl
@[simp] theorem State.putSample_pending (src : Source) (i : Nat) (v : Int) : (s.putSample src i v).pending = s.pending := rfl

/-! `State.noteChange` -/
@[simp] theorem State.noteChange_model (b : Blk) (i : Nat) : (s.noteChange b i).model = s.model := rfl
@[simp] theorem State.noteChange_fab (b : Blk) (i : Nat) : (s.noteChange b i).fab = s.fab := rfl
@[simp] theorem State.noteChange_render (b : Blk) (i : Nat) : (s.noteChange b i).render = s.render := rfl
@[simp] theorem State.noteChange_objs (b : Blk) (i : Nat) : (s.noteChange b i).objs = s.objs := rfl
@[simp] theorem State.noteChange_motion (b : Blk) (i : Nat) : (s.noteChange b i).motion = s.motion := rfl
@[simp] theorem State.noteChange_layouts (b : Blk) (i : Nat) : (s.noteChange b i).layouts = s.layouts := rfl
@[simp] theorem State.noteChange_paths (b : Blk) (i : Nat) : (s.noteChange b i).paths = s.paths := rfl
@[simp] theorem State.noteChange_samples (b : Blk) (i : Nat) : (s.noteChange b i).samples = s.samples := rfl
@[simp] theorem State.noteChange_routes (b : Blk) (i : Nat) : (s.noteChange b i).routes = s.routes := rfl
@[simp] theorem State.noteChange_buses (b : Blk) (i : Nat) : (s.noteChange b i).buses = s.buses := rfl
@[simp] theorem State.noteChange_outs (b : Blk) (i : Nat) : (s.noteChange b i).outs = s.outs := rfl
@[simp] theorem State.noteChange_bass (b : Blk) (i : Nat) : (s.noteChange b i).bass = s.bass := rfl
@[simp] theorem State.noteChange_outEq (b : Blk) (i : Nat) : (s.noteChange b i).outEq = s.outEq := rfl
@[simp] theorem State.noteChange_corrRecord (b : Blk) (i : Nat) : (s.noteChange b i).corrRecord = s.corrRecord := rfl
@[simp] theorem State.noteChange_tap (b : Blk) (i : Nat) : (s.noteChange b i).tap = s.tap := rfl
@[simp] theorem State.noteChange_curtain (b : Blk) (i : Nat) : (s.noteChange b i).curtain = s.curtain := rfl
@[simp] theorem State.noteChange_monitor (b : Blk) (i : Nat) : (s.noteChange b i).monitor = s.monitor := rfl
@[simp] theorem State.noteChange_ps (b : Blk) (i : Nat) : (s.noteChange b i).ps = s.ps := rfl
@[simp] theorem State.noteChange_thermals (b : Blk) (i : Nat) : (s.noteChange b i).thermals = s.thermals := rfl
@[simp] theorem State.noteChange_tdmRx (b : Blk) (i : Nat) : (s.noteChange b i).tdmRx = s.tdmRx := rfl
@[simp] theorem State.noteChange_tdmTx (b : Blk) (i : Nat) : (s.noteChange b i).tdmTx = s.tdmTx := rfl
@[simp] theorem State.noteChange_aesRx (b : Blk) (i : Nat) : (s.noteChange b i).aesRx = s.aesRx := rfl
@[simp] theorem State.noteChange_aesTx (b : Blk) (i : Nat) : (s.noteChange b i).aesTx = s.aesTx := rfl
@[simp] theorem State.noteChange_time (b : Blk) (i : Nat) : (s.noteChange b i).time = s.time := rfl
@[simp] theorem State.noteChange_net (b : Blk) (i : Nat) : (s.noteChange b i).net = s.net := rfl
@[simp] theorem State.noteChange_sched (b : Blk) (i : Nat) : (s.noteChange b i).sched = s.sched := rfl
@[simp] theorem State.noteChange_seats (b : Blk) (i : Nat) : (s.noteChange b i).seats = s.seats := rfl
@[simp] theorem State.noteChange_hosts (b : Blk) (i : Nat) : (s.noteChange b i).hosts = s.hosts := rfl
@[simp] theorem State.noteChange_pool (b : Blk) (i : Nat) : (s.noteChange b i).pool = s.pool := rfl
@[simp] theorem State.noteChange_chains (b : Blk) (i : Nat) : (s.noteChange b i).chains = s.chains := rfl
@[simp] theorem State.noteChange_measure (b : Blk) (i : Nat) : (s.noteChange b i).measure = s.measure := rfl
@[simp] theorem State.noteChange_hostMem (b : Blk) (i : Nat) : (s.noteChange b i).hostMem = s.hostMem := rfl
@[simp] theorem State.noteChange_twin (b : Blk) (i : Nat) : (s.noteChange b i).twin = s.twin := rfl
@[simp] theorem State.noteChange_cue (b : Blk) (i : Nat) : (s.noteChange b i).cue = s.cue := rfl
@[simp] theorem State.noteChange_prompters (b : Blk) (i : Nat) : (s.noteChange b i).prompters = s.prompters := rfl
@[simp] theorem State.noteChange_gpio (b : Blk) (i : Nat) : (s.noteChange b i).gpio = s.gpio := rfl
@[simp] theorem State.noteChange_tc (b : Blk) (i : Nat) : (s.noteChange b i).tc = s.tc := rfl
@[simp] theorem State.noteChange_snaps (b : Blk) (i : Nat) : (s.noteChange b i).snaps = s.snaps := rfl
@[simp] theorem State.noteChange_levels (b : Blk) (i : Nat) : (s.noteChange b i).levels = s.levels := rfl
@[simp] theorem State.noteChange_call (b : Blk) (i : Nat) : (s.noteChange b i).call = s.call := rfl
@[simp] theorem State.noteChange_green (b : Blk) (i : Nat) : (s.noteChange b i).green = s.green := rfl
@[simp] theorem State.noteChange_mon (b : Blk) (i : Nat) : (s.noteChange b i).mon = s.mon := rfl
@[simp] theorem State.noteChange_boot (b : Blk) (i : Nat) : (s.noteChange b i).boot = s.boot := rfl
@[simp] theorem State.noteChange_free (b : Blk) (i : Nat) : (s.noteChange b i).free = s.free := rfl
@[simp] theorem State.noteChange_pending (b : Blk) (i : Nat) : (s.noteChange b i).pending = s.pending := rfl

theorem State.foldl_showFlight_shape (l : List Nat) : ∃ m, l.foldl State.showFlight s = s.withAct m := by
  induction l generalizing s with
  | nil => exact ⟨s.fab.act, rfl⟩
  | cons q l ih =>
    obtain ⟨m, h⟩ := ih (s.showFlight q)
    exact ⟨m, by rw [List.foldl_cons, h]; rfl⟩

/-- Bringing the status registers up to date changes nothing but active words. -/
theorem State.settled_shape : ∃ m, s.settled = s.withAct m := by
  obtain ⟨m, h⟩ := s.showEngines.foldl_showFlight_shape (List.range 8)
  exact ⟨m, h⟩

/-! `State.settled` -/
@[simp] theorem State.settled_model : (s.settled).model = s.model := by obtain ⟨m, h⟩ := s.settled_shape; rw [h]; rfl
@[simp] theorem State.settled_render : (s.settled).render = s.render := by obtain ⟨m, h⟩ := s.settled_shape; rw [h]; rfl
@[simp] theorem State.settled_changes : (s.settled).changes = s.changes := by obtain ⟨m, h⟩ := s.settled_shape; rw [h]; rfl
@[simp] theorem State.settled_objs : (s.settled).objs = s.objs := by obtain ⟨m, h⟩ := s.settled_shape; rw [h]; rfl
@[simp] theorem State.settled_motion : (s.settled).motion = s.motion := by obtain ⟨m, h⟩ := s.settled_shape; rw [h]; rfl
@[simp] theorem State.settled_layouts : (s.settled).layouts = s.layouts := by obtain ⟨m, h⟩ := s.settled_shape; rw [h]; rfl
@[simp] theorem State.settled_paths : (s.settled).paths = s.paths := by obtain ⟨m, h⟩ := s.settled_shape; rw [h]; rfl
@[simp] theorem State.settled_samples : (s.settled).samples = s.samples := by obtain ⟨m, h⟩ := s.settled_shape; rw [h]; rfl
@[simp] theorem State.settled_routes : (s.settled).routes = s.routes := by obtain ⟨m, h⟩ := s.settled_shape; rw [h]; rfl
@[simp] theorem State.settled_buses : (s.settled).buses = s.buses := by obtain ⟨m, h⟩ := s.settled_shape; rw [h]; rfl
@[simp] theorem State.settled_outs : (s.settled).outs = s.outs := by obtain ⟨m, h⟩ := s.settled_shape; rw [h]; rfl
@[simp] theorem State.settled_bass : (s.settled).bass = s.bass := by obtain ⟨m, h⟩ := s.settled_shape; rw [h]; rfl
@[simp] theorem State.settled_outEq : (s.settled).outEq = s.outEq := by obtain ⟨m, h⟩ := s.settled_shape; rw [h]; rfl
@[simp] theorem State.settled_corrRecord : (s.settled).corrRecord = s.corrRecord := by obtain ⟨m, h⟩ := s.settled_shape; rw [h]; rfl
@[simp] theorem State.settled_tap : (s.settled).tap = s.tap := by obtain ⟨m, h⟩ := s.settled_shape; rw [h]; rfl
@[simp] theorem State.settled_curtain : (s.settled).curtain = s.curtain := by obtain ⟨m, h⟩ := s.settled_shape; rw [h]; rfl
@[simp] theorem State.settled_monitor : (s.settled).monitor = s.monitor := by obtain ⟨m, h⟩ := s.settled_shape; rw [h]; rfl
@[simp] theorem State.settled_ps : (s.settled).ps = s.ps := by obtain ⟨m, h⟩ := s.settled_shape; rw [h]; rfl
@[simp] theorem State.settled_thermals : (s.settled).thermals = s.thermals := by obtain ⟨m, h⟩ := s.settled_shape; rw [h]; rfl
@[simp] theorem State.settled_tdmRx : (s.settled).tdmRx = s.tdmRx := by obtain ⟨m, h⟩ := s.settled_shape; rw [h]; rfl
@[simp] theorem State.settled_tdmTx : (s.settled).tdmTx = s.tdmTx := by obtain ⟨m, h⟩ := s.settled_shape; rw [h]; rfl
@[simp] theorem State.settled_aesRx : (s.settled).aesRx = s.aesRx := by obtain ⟨m, h⟩ := s.settled_shape; rw [h]; rfl
@[simp] theorem State.settled_aesTx : (s.settled).aesTx = s.aesTx := by obtain ⟨m, h⟩ := s.settled_shape; rw [h]; rfl
@[simp] theorem State.settled_time : (s.settled).time = s.time := by obtain ⟨m, h⟩ := s.settled_shape; rw [h]; rfl
@[simp] theorem State.settled_net : (s.settled).net = s.net := by obtain ⟨m, h⟩ := s.settled_shape; rw [h]; rfl
@[simp] theorem State.settled_sched : (s.settled).sched = s.sched := by obtain ⟨m, h⟩ := s.settled_shape; rw [h]; rfl
@[simp] theorem State.settled_seats : (s.settled).seats = s.seats := by obtain ⟨m, h⟩ := s.settled_shape; rw [h]; rfl
@[simp] theorem State.settled_hosts : (s.settled).hosts = s.hosts := by obtain ⟨m, h⟩ := s.settled_shape; rw [h]; rfl
@[simp] theorem State.settled_pool : (s.settled).pool = s.pool := by obtain ⟨m, h⟩ := s.settled_shape; rw [h]; rfl
@[simp] theorem State.settled_chains : (s.settled).chains = s.chains := by obtain ⟨m, h⟩ := s.settled_shape; rw [h]; rfl
@[simp] theorem State.settled_measure : (s.settled).measure = s.measure := by obtain ⟨m, h⟩ := s.settled_shape; rw [h]; rfl
@[simp] theorem State.settled_hostMem : (s.settled).hostMem = s.hostMem := by obtain ⟨m, h⟩ := s.settled_shape; rw [h]; rfl
@[simp] theorem State.settled_twin : (s.settled).twin = s.twin := by obtain ⟨m, h⟩ := s.settled_shape; rw [h]; rfl
@[simp] theorem State.settled_cue : (s.settled).cue = s.cue := by obtain ⟨m, h⟩ := s.settled_shape; rw [h]; rfl
@[simp] theorem State.settled_prompters : (s.settled).prompters = s.prompters := by obtain ⟨m, h⟩ := s.settled_shape; rw [h]; rfl
@[simp] theorem State.settled_gpio : (s.settled).gpio = s.gpio := by obtain ⟨m, h⟩ := s.settled_shape; rw [h]; rfl
@[simp] theorem State.settled_tc : (s.settled).tc = s.tc := by obtain ⟨m, h⟩ := s.settled_shape; rw [h]; rfl
@[simp] theorem State.settled_snaps : (s.settled).snaps = s.snaps := by obtain ⟨m, h⟩ := s.settled_shape; rw [h]; rfl
@[simp] theorem State.settled_levels : (s.settled).levels = s.levels := by obtain ⟨m, h⟩ := s.settled_shape; rw [h]; rfl
@[simp] theorem State.settled_call : (s.settled).call = s.call := by obtain ⟨m, h⟩ := s.settled_shape; rw [h]; rfl
@[simp] theorem State.settled_green : (s.settled).green = s.green := by obtain ⟨m, h⟩ := s.settled_shape; rw [h]; rfl
@[simp] theorem State.settled_mon : (s.settled).mon = s.mon := by obtain ⟨m, h⟩ := s.settled_shape; rw [h]; rfl
@[simp] theorem State.settled_boot : (s.settled).boot = s.boot := by obtain ⟨m, h⟩ := s.settled_shape; rw [h]; rfl
@[simp] theorem State.settled_free : (s.settled).free = s.free := by obtain ⟨m, h⟩ := s.settled_shape; rw [h]; rfl
@[simp] theorem State.settled_pending : (s.settled).pending = s.pending := by obtain ⟨m, h⟩ := s.settled_shape; rw [h]; rfl
@[simp] theorem State.settled_fab_stg : (s.settled).fab.stg = s.fab.stg := by obtain ⟨m, h⟩ := s.settled_shape; rw [h]; rfl
@[simp] theorem State.settled_fab_mir : (s.settled).fab.mir = s.fab.mir := by obtain ⟨m, h⟩ := s.settled_shape; rw [h]; rfl
@[simp] theorem State.settled_fab_recOwner : (s.settled).fab.recOwner = s.fab.recOwner := by obtain ⟨m, h⟩ := s.settled_shape; rw [h]; rfl
@[simp] theorem State.settled_fab_recGroup : (s.settled).fab.recGroup = s.fab.recGroup := by obtain ⟨m, h⟩ := s.settled_shape; rw [h]; rfl
@[simp] theorem State.settled_fab_stagedPending : (s.settled).fab.stagedPending = s.fab.stagedPending := by obtain ⟨m, h⟩ := s.settled_shape; rw [h]; rfl
@[simp] theorem State.settled_fab_latch : (s.settled).fab.latch = s.fab.latch := by obtain ⟨m, h⟩ := s.settled_shape; rw [h]; rfl
@[simp] theorem State.settled_fab_holding : (s.settled).fab.holding = s.fab.holding := by obtain ⟨m, h⟩ := s.settled_shape; rw [h]; rfl
@[simp] theorem State.settled_fab_refreshTag : (s.settled).fab.refreshTag = s.fab.refreshTag := by obtain ⟨m, h⟩ := s.settled_shape; rw [h]; rfl
@[simp] theorem State.settled_fab_refreshedAt : (s.settled).fab.refreshedAt = s.fab.refreshedAt := by obtain ⟨m, h⟩ := s.settled_shape; rw [h]; rfl
@[simp] theorem State.settled_fab_evMark : (s.settled).fab.evMark = s.fab.evMark := by obtain ⟨m, h⟩ := s.settled_shape; rw [h]; rfl
@[simp] theorem State.settled_fab_posted : (s.settled).fab.posted = s.fab.posted := by obtain ⟨m, h⟩ := s.settled_shape; rw [h]; rfl
@[simp] theorem State.settled_fab_commits : (s.settled).fab.commits = s.fab.commits := by obtain ⟨m, h⟩ := s.settled_shape; rw [h]; rfl
@[simp] theorem State.settled_fab_serial : (s.settled).fab.serial = s.fab.serial := by obtain ⟨m, h⟩ := s.settled_shape; rw [h]; rfl
@[simp] theorem State.settled_fab_lastStrobe : (s.settled).fab.lastStrobe = s.fab.lastStrobe := by obtain ⟨m, h⟩ := s.settled_shape; rw [h]; rfl
@[simp] theorem State.settled_fab_resets : (s.settled).fab.resets = s.fab.resets := by obtain ⟨m, h⟩ := s.settled_shape; rw [h]; rfl
@[simp] theorem State.settled_fab_held : (s.settled).fab.held = s.fab.held := by obtain ⟨m, h⟩ := s.settled_shape; rw [h]; rfl
@[simp] theorem State.settled_fab_defcfg : (s.settled).fab.defcfg = s.fab.defcfg := by obtain ⟨m, h⟩ := s.settled_shape; rw [h]; rfl
@[simp] theorem State.settled_fab_answer : (s.settled).fab.answer = s.fab.answer := by obtain ⟨m, h⟩ := s.settled_shape; rw [h]; rfl

/-! What the updates write -/

@[simp] theorem State.withAct_fab_act (m : RegMap) : (s.withAct m).fab.act = m := rfl
@[simp] theorem State.withStg_fab_stg (m : RegMap) : (s.withStg m).fab.stg = m := rfl

/-- The engine state of an object reads back. -/
@[simp] theorem State.obj_setObj (n : Nat) (o : ObjEngine) : (s.setObj n o).obj n = o := by
  simp only [State.obj, State.setObj]
  exact Map.get_put_same _ _ _ _

/-- That of any other object stays. -/
theorem State.obj_setObj_other (n j : Nat) (o : ObjEngine) (h : j ≠ n) : (s.setObj n o).obj j = s.obj j := by
  simp only [State.obj, State.setObj]
  exact Map.get_put_other _ _ _ _ h _

@[simp] theorem State.pathsOf_setPathsOf (n : Nat) (p : ObjPaths) : (s.setPathsOf n p).pathsOf n = p := by
  simp only [State.pathsOf, State.setPathsOf]
  exact Map.get_put_same _ _ _ _

theorem State.pathsOf_setPathsOf_other (n j : Nat) (p : ObjPaths) (h : j ≠ n) :
    (s.setPathsOf n p).pathsOf j = s.pathsOf j := by
  simp only [State.pathsOf, State.setPathsOf]
  exact Map.get_put_other _ _ _ _ h _

/-- A sample reads back. -/
@[simp] theorem State.sample_putSample (src : Source) (i : Nat) (v : Int) :
    (s.putSample src i v).sample src i = v := by
  simp only [State.sample, State.putSample]
  exact Map.get_put_same _ _ _ _

end Sys2Proof.Machine
end

