-- ==== Sys2Proof/Laws/Settled.lean ====
section
/-! SUPPORT. What every command does at its end: the status registers are brought up to date, and nothing else
changes. -/

namespace Sys2Proof.Machine

open Sys2Proof

/-- A written field changes its own word only. -/
theorem State.set_word (s : State) (b : Blk) (f : Fld) (v k : Nat) (h : k ≠ b.base + f.off) :
    Map.get 0#32 k (s.set b f v).fab.act = Map.get 0#32 k s.fab.act := Map.get_put_other _ _ _ _ h _

theorem State.showFlight_fold_word (l : List Nat) (s : State) (k : Nat)
    (h : ∀ q ∈ l, k ≠ (Blk.seat q).base + Reg.Seat.STATUS_IN_FLIGHT.off) :
    Map.get 0#32 k (l.foldl State.showFlight s).fab.act = Map.get 0#32 k s.fab.act := by
  induction l generalizing s with
  | nil => rfl
  | cons q l ih =>
    rw [List.foldl_cons, ih _ (fun r hr => h r (List.mem_cons_of_mem _ hr))]
    exact State.set_word _ _ _ _ _ (h q List.mem_cons_self)

/-- Words other than the status words are left alone. -/
theorem State.settled_word (s : State) (k : Nat) (h : k ∉ statusWords) :
    Map.get 0#32 k s.settled.fab.act = Map.get 0#32 k s.fab.act := by
  simp only [statusWords, List.mem_append, List.mem_cons, List.mem_map, not_or, not_exists, not_and,
    List.not_mem_nil, not_false_eq_true, and_true] at h
  obtain ⟨⟨h1, h2, h3, h4⟩, h5⟩ := h
  unfold State.settled
  rw [State.showFlight_fold_word _ _ _ (fun q hq he => h5 q hq he.symm)]
  unfold State.showEngines State.setBit
  rw [State.set_word _ _ _ _ _ h4, State.set_word _ _ _ _ _ h3, State.set_word _ _ _ _ _ h2, State.set_word _ _ _ _ _ h1]

/-- Fields outside the status words keep their values at a command's end. -/
theorem State.settled_fld (s : State) (b : Blk) (f : Fld) (h : b.base + f.off ∉ statusWords) :
    s.settled.fld b f = s.fld b f := by
  simp only [State.fld, regGet, State.settled_word _ _ h]

theorem State.settled_bit (s : State) (b : Blk) (f : Fld) (h : b.base + f.off ∉ statusWords) :
    s.settled.bit b f = s.bit b f := by simp only [State.bit, State.settled_fld _ _ _ h]

/-- Staged values are left alone. -/
@[simp] theorem State.settled_stg (s : State) (b : Blk) (f : Fld) : s.settled.stg b f = s.stg b f := by
  simp only [State.stg, State.settled_fab_stg]

/-- Bringing the status registers up to date changes nothing else. -/
theorem State.settled_only (s : State) : OnlyWords s s.settled [] := by
  refine ⟨?_, fun k _ h => State.settled_word s k h⟩
  obtain ⟨m, h⟩ := s.settled_shape
  rw [h]
  rfl

/-- Every meaning ends in `settle`: it answers a next state. -/
theorem settle_eq (s : State) : settle s = .next s.settled := rfl

/-! `OnlyWords` along a chain of field writes -/

theorem OnlyWords.refl (s : State) (ws : List Nat) : OnlyWords s s ws := ⟨rfl, fun _ _ _ => rfl⟩

theorem OnlyWords.trans {s t u : State} {ws : List Nat} (h1 : OnlyWords s t ws) (h2 : OnlyWords t u ws) :
    OnlyWords s u ws := by
  refine ⟨?_, fun k hk hs => (h2.2 k hk hs).trans (h1.2 k hk hs)⟩
  have a := h1.1
  have b := h2.1
  rw [← b] at a
  exact a

theorem OnlyWords.mono {s t : State} {ws vs : List Nat} (h : OnlyWords s t ws) (hs : ∀ k ∈ ws, k ∈ vs) :
    OnlyWords s t vs := ⟨h.1, fun k hk => h.2 k (fun hm => hk (hs k hm))⟩

theorem OnlyWords.set (s : State) (b : Blk) (f : Fld) (v : Nat) : OnlyWords s (s.set b f v) [wordAt b f] := by
  refine ⟨rfl, fun k hk _ => State.set_word s b f v k ?_⟩
  intro he
  exact hk (by simp [wordAt, he])

theorem OnlyWords.settled {s t : State} {ws : List Nat} (h : OnlyWords s t ws) : OnlyWords s t.settled ws :=
  h.trans ((State.settled_only t).mono (by simp))

/-- An answer's frame: field writes of the words `ws`, then the status registers. -/
theorem OnlyWords.set_in {s t : State} {ws : List Nat} (h : OnlyWords s t ws) (b : Blk) (f : Fld) (v : Nat)
    (hm : wordAt b f ∈ ws) : OnlyWords s (t.set b f v) ws :=
  h.trans ((OnlyWords.set t b f v).mono (by intro k hk; simp only [List.mem_singleton] at hk; rw [hk]; exact hm))

/-! The status registers agree with the engines -/

/-- IN_FLIGHT words of seats leave every other field alone. -/
theorem State.fold_showFlight_fld (l : List Nat) (s : State) (b : Blk) (f : Fld)
    (h : ∀ q ∈ l, b.base + f.off ≠ (Blk.seat q).base + Reg.Seat.STATUS_IN_FLIGHT.off) :
    (l.foldl State.showFlight s).fld b f = s.fld b f := by
  simp only [State.fld, regGet, State.showFlight_fold_word _ _ _ h]

/-- A field outside the seats' STATUS words, at a command's end. -/
theorem State.settled_fld_engines (s : State) (b : Blk) (f : Fld)
    (h : ∀ q ∈ List.range 8, b.base + f.off ≠ (Blk.seat q).base + Reg.Seat.STATUS_IN_FLIGHT.off) :
    s.settled.fld b f = s.showEngines.fld b f := State.fold_showFlight_fld _ _ _ _ h

/-- IN_FLIGHT of each seat in a list, once all of them are shown. -/
theorem State.fold_showFlight_flight (l : List Nat) (hn : l.Nodup) : ∀ (s : State) (q : Nat), q ∈ l →
    (l.foldl State.showFlight s).fld (.seat q) Reg.Seat.STATUS_IN_FLIGHT =
      (Map.get ({} : SeatState) q s.seats).flight % 2 ^ 7 := by
  induction l with
  | nil => intro s q h; cases h
  | cons p l ih =>
    intro s q h
    rw [List.foldl_cons]
    have hn' := List.nodup_cons.mp hn
    rcases List.mem_cons.mp h with rfl | h
    · rw [State.fold_showFlight_fld]
      · exact State.fld_set_same _ _ _ _ ⟨by decide, by decide⟩
      · intro r hr he
        simp only [Blk.base] at he
        have : q = r := by omega
        exact hn'.1 (this ▸ hr)
    · exact ih hn'.2 (s.showFlight p) q h

/-- At a command's end the status registers agree with the engines. -/
theorem State.settled_reports (s : State) : Reports s.settled := by
  refine ⟨?_, ?_, ?_, ?_, ?_⟩
  · rw [State.settled_fld_engines _ _ _ (by decide)]
    unfold State.showEngines State.setBit
    rw [State.fld_set_word _ _ _ _ _ _ (by decide), State.fld_set_word _ _ _ _ _ _ (by decide),
      State.fld_set_word _ _ _ _ _ _ (by decide), State.fld_set_same _ _ _ _ ⟨by decide, by decide⟩]
    have : s.settled.pendingGroups = s.pendingGroups := by simp only [State.pendingGroups, State.settled_fab_commits]
    rw [this]
    rfl
  · rw [State.settled_fld_engines _ _ _ (by decide)]
    unfold State.showEngines State.setBit
    rw [State.fld_set_word _ _ _ _ _ _ (by decide), State.fld_set_word _ _ _ _ _ _ (by decide),
      State.fld_set_same _ _ _ _ ⟨by decide, by decide⟩, State.settled_sched]
    rfl
  · rw [State.settled_fld_engines _ _ _ (by decide)]
    unfold State.showEngines State.setBit
    rw [State.fld_set_word _ _ _ _ _ _ (by decide), State.fld_set_same _ _ _ _ ⟨by decide, by decide⟩,
      State.settled_curtain]
    unfold Curtain.code
    split
    · rfl
    · cases s.curtain.phase <;> rfl
  · have h2 : s.settled.fld .twin Reg.Twin.STATE = s.fld .twin Reg.Twin.STATE := by
      rw [State.settled_fld_engines _ _ _ (by decide)]
      unfold State.showEngines State.setBit
      rw [State.fld_set_bits _ _ _ _ _ _ (by decide), State.fld_set_word _ _ _ _ _ _ (by decide),
        State.fld_set_word _ _ _ _ _ _ (by decide), State.fld_set_word _ _ _ _ _ _ (by decide)]
    rw [h2, State.settled_fld_engines _ _ _ (by decide)]
    unfold State.showEngines State.setBit
    rw [State.fld_set_same _ _ _ _ ⟨by decide, by decide⟩]
    split <;> rfl
  · intro q hq
    rw [State.settled_seats]
    exact State.fold_showFlight_flight (List.range 8) List.nodup_range s.showEngines q (by simpa using hq)

end Sys2Proof.Machine
end

