-- ==== Sys2Proof/Laws/Commands.lean ====
section
/-! SUPPORT. Seats and their commands: what a seat holds after a command of it changed, ended or was queued. -/

namespace Sys2Proof.Machine

open Sys2Proof

/-! One seat replaced -/

@[simp] theorem State.seat_set (s : State) (b : Blk) (f : Fld) (v q : Nat) : (s.set b f v).seat q = s.seat q := rfl

@[simp] theorem State.seat_settled (s : State) (q : Nat) : s.settled.seat q = s.seat q := by
  simp only [State.seat, State.settled_seats]

theorem State.seat_setSeat (s : State) (n m : Nat) (v : SeatState) :
    (s.setSeat n v).seat m = if m = n then v else s.seat m := Map.get_put _ _ _ _ _

@[simp] theorem State.seat_setSeat_same (s : State) (n : Nat) (v : SeatState) : (s.setSeat n v).seat n = v := by
  rw [State.seat_setSeat, if_pos rfl]

/-- A replaced seat changes the seats and its own STATUS word only. -/
theorem State.setSeat_shape (s : State) (n : Nat) (v : SeatState) :
    ∃ m, s.setSeat n v = { s with seats := (s.setSeat n v).seats, fab := { s.fab with act := m } } := ⟨_, rfl⟩

theorem State.setSeat_fld (s : State) (n : Nat) (v : SeatState) (b : Blk) (f : Fld)
    (h : b.base + f.off ≠ (Blk.seat n).base + Reg.Seat.STATUS_IN_FLIGHT.off) : (s.setSeat n v).fld b f = s.fld b f :=
  State.fld_set_word _ _ _ _ _ _ h

/-! Grants leave a seat's completions alone; of its commands they can only make a QUEUED operation RUNNING -/

/-- What a grant leaves of command `c`: all but its state, which may go from QUEUED to RUNNING (R410). -/
def Cmd.Granted (c d : Cmd) : Prop := d = c ∨ (c.state = .queued ∧ d = { c with state := .running })

theorem Cmd.Granted.trans {a b c : Cmd} (h : a.Granted b) (k : b.Granted c) : a.Granted c := by
  rcases h with rfl | ⟨h, rfl⟩
  · exact k
  · rcases k with rfl | ⟨k, _⟩
    · exact .inr ⟨h, rfl⟩
    · cases k

theorem Cmd.granted_runs (flow : Nat) (c : Cmd) : c.Granted (c.runs flow) := by
  unfold Cmd.runs
  split
  · rename_i h
    simp only [Bool.and_eq_true, decide_eq_true_eq] at h
    exact .inr ⟨h.1.2, rfl⟩
  · exact .inl rfl

@[simp] theorem Cmd.runs_tag (flow : Nat) (c : Cmd) : (c.runs flow).tag = c.tag := by unfold Cmd.runs; split <;> rfl

@[simp] theorem Cmd.runs_bad (flow : Nat) (c : Cmd) : (c.runs flow).bad = c.bad := by unfold Cmd.runs; split <;> rfl

theorem State.seat_opRuns (s : State) (flow q : Nat) :
    (s.opRuns flow).seat q = { s.seat q with cmds := (s.seat q).cmds.map (Cmd.runs flow) } := by
  unfold State.seat State.opRuns
  generalize s.seats = l
  induction l with
  | nil => rfl
  | cons e l ih =>
    rw [List.map_cons, Map.get, Map.get]
    split
    · rfl
    · split
      · rfl
      · exact ih

/-- What a grant leaves of the seats. -/
theorem State.seats_grant (s : State) (e w : Nat) (r : Ready) :
    (s.grant e w r).seats = if r.job.kind = .opStep then (s.opRuns r.job.flow).seats else s.seats := by
  unfold State.grant State.opRuns
  dsimp only
  split <;> split <;> rfl

theorem State.seat_grant (s : State) (e w : Nat) (r : Ready) (q : Nat) :
    (s.grant e w r).seat q = s.seat q ∨ (s.grant e w r).seat q = { s.seat q with cmds := (s.seat q).cmds.map (Cmd.runs r.job.flow) } := by
  have h := State.seats_grant s e w r
  split at h
  · refine .inr ?_
    rw [← State.seat_opRuns]
    unfold State.seat
    rw [h]
  · refine .inl ?_
    unfold State.seat
    rw [h]

theorem State.done_grant (s : State) (e w : Nat) (r : Ready) (q : Nat) : ((s.grant e w r).seat q).done = (s.seat q).done := by
  rcases State.seat_grant s e w r q with h | h <;> rw [h]

theorem State.cmdOf_grant (s : State) (e w : Nat) (r : Ready) (q t : Nat) (c : Cmd) (hc : s.cmdOf q t = some c) :
    ∃ d, (s.grant e w r).cmdOf q t = some d ∧ c.Granted d := by
  unfold State.cmdOf at hc ⊢
  rcases State.seat_grant s e w r q with h | h
  · rw [h]
    exact ⟨c, hc, .inl rfl⟩
  · refine ⟨c.runs r.job.flow, ?_, Cmd.granted_runs _ _⟩
    rw [h, List.find?_map]
    have : ((fun d : Cmd => decide (d.tag = t) && !d.bad) ∘ Cmd.runs r.job.flow) = fun d => decide (d.tag = t) && !d.bad := by
      funext d
      simp
    rw [this, hc]
    rfl

@[simp] theorem State.done_dispatch (s : State) (q : Nat) : (s.dispatch.seat q).done = (s.seat q).done := by
  unfold State.dispatch
  generalize s.sched.stalled = l
  induction l generalizing s with
  | nil => rfl
  | cons e l ih =>
    rw [List.foldl_cons, ih]
    split
    · rfl
    · split
      · rfl
      · exact State.done_grant _ _ _ _ _

/-- The command that `dispatch` leaves under a tag. -/
theorem State.cmdOf_dispatch (s : State) (q t : Nat) (c : Cmd) (hc : s.cmdOf q t = some c) :
    ∃ d, s.dispatch.cmdOf q t = some d ∧ c.Granted d := by
  unfold State.dispatch
  generalize s.sched.stalled = l
  induction l generalizing s c with
  | nil => exact ⟨c, hc, .inl rfl⟩
  | cons e l ih =>
    rw [List.foldl_cons]
    split
    · exact ih _ _ hc
    · split
      · exact ih _ _ hc
      · obtain ⟨d, hd, hg⟩ := State.cmdOf_grant s e 0 _ q t c hc
        obtain ⟨d', hd', hg'⟩ := ih _ _ hd
        exact ⟨d', hd', hg.trans hg'⟩

@[simp] theorem State.cmdOf_settled (s : State) (q t : Nat) : s.settled.cmdOf q t = s.cmdOf q t := by
  simp only [State.cmdOf, State.seat_settled]

@[simp] theorem State.seat_freePool (s : State) (a b q : Nat) : (s.freePool a b).seat q = s.seat q := rfl

/-! One command replaced -/

/-- A command found under its tag is one of the seat's, and not one whose tag was already taken. -/
theorem State.cmdOf_some (s : State) (seat tag : Nat) (c : Cmd) (h : s.cmdOf seat tag = some c) :
    c ∈ (s.seat seat).cmds ∧ c.tag = tag ∧ c.bad = false := by
  unfold State.cmdOf at h
  have h1 := List.find?_some h
  have h2 := List.mem_of_find?_eq_some h
  simp only [Bool.and_eq_true, decide_eq_true_eq, Bool.not_eq_eq_eq_not, Bool.not_true] at h1
  exact ⟨h2, h1.1, h1.2⟩

/-- Searching a list in which one entry was replaced finds the new one. -/
theorem find_replaced (l : List Cmd) (c : Cmd) (hb : c.bad = false)
    (h : ∃ d ∈ l, d.tag = c.tag ∧ d.bad = false) :
    (l.map (fun d => if d.tag = c.tag && !d.bad then c else d)).find? (fun d => d.tag = c.tag && !d.bad) = some c := by
  induction l with
  | nil => obtain ⟨d, hd, _⟩ := h; cases hd
  | cons e l ih =>
    rw [List.map_cons, List.find?_cons]
    by_cases he : (decide (e.tag = c.tag) && !e.bad) = true
    · rw [if_pos he]
      simp [hb]
    · rw [if_neg he]
      have : (decide (e.tag = c.tag) && !e.bad) = false := by simpa using he
      rw [this]
      refine ih ?_
      obtain ⟨d, hd, h1, h2⟩ := h
      rcases List.mem_cons.mp hd with rfl | hd
      · exact absurd (by simp [h1, h2]) he
      · exact ⟨d, hd, h1, h2⟩

/-- Another tag is found as before. -/
theorem find_replaced_other (l : List Cmd) (c : Cmd) (tag : Nat) (h : tag ≠ c.tag) :
    (l.map (fun d => if d.tag = c.tag && !d.bad then c else d)).find? (fun d => d.tag = tag && !d.bad) =
      l.find? (fun d => d.tag = tag && !d.bad) := by
  induction l with
  | nil => rfl
  | cons e l ih =>
    rw [List.map_cons, List.find?_cons, List.find?_cons]
    by_cases he : (decide (e.tag = c.tag) && !e.bad) = true
    · rw [if_pos he]
      have h1 : e.tag = c.tag := by
        simp only [Bool.and_eq_true, decide_eq_true_eq] at he
        exact he.1
      have h2 : (decide (c.tag = tag)) = false := by simpa using Ne.symm h
      have h3 : (decide (e.tag = tag)) = false := by rw [h1]; exact h2
      simp only [h2, h3, Bool.false_and]
      exact ih
    · rw [if_neg he, ih]

/-- A replaced command is found under its tag. -/
theorem State.cmdOf_setCmd (s : State) (c c0 : Cmd) (h : s.cmdOf c.seat c.tag = some c0) (hb : c.bad = false) :
    (s.setCmd c).cmdOf c.seat c.tag = some c := by
  have h1 := State.cmdOf_some s _ _ _ h
  unfold State.cmdOf State.setCmd
  simp only [State.seat_setSeat_same]
  exact find_replaced _ _ hb ⟨c0, h1.1, h1.2.1, h1.2.2⟩

/-- Other commands are found as before. -/
theorem State.cmdOf_setCmd_other (s : State) (c : Cmd) (seat tag : Nat) (h : (seat, tag) ≠ (c.seat, c.tag)) :
    (s.setCmd c).cmdOf seat tag = s.cmdOf seat tag := by
  unfold State.cmdOf State.setCmd
  rw [State.seat_setSeat]
  split
  · rename_i hs
    subst hs
    exact find_replaced_other _ _ _ (fun ht => h (by rw [ht]))
  · rfl

@[simp] theorem State.done_setCmd (s : State) (c : Cmd) (q : Nat) : ((s.setCmd c).seat q).done = (s.seat q).done := by
  unfold State.setCmd
  rw [State.seat_setSeat]
  split
  · rename_i h
    rw [h]
  · rfl

/-! A command begins -/

/-- A command that may begin runs what its opcode does. -/
theorem State.command_issued (s : State) (c : Cmd) (opcode : Nat) (f : Cmd → State → State) (h : Issued s c opcode) :
    s.command c.seat c.tag opcode f = (f { c with started := true } (s.setCmd { c with started := true })).dispatch := by
  obtain ⟨h1, h2, h3, h4, _, _, h7, h8, _⟩ := h
  unfold State.command
  rw [h1]
  refine if_pos ⟨h2, ?_, ?_, h7, h8⟩
  · rw [h3]; decide
  · rw [h4]; decide

/-- The queue a completion goes to does not depend on the seats' commands. -/
theorem State.cqOf_setSeat (s : State) (n : Nat) (v : SeatState) (seat sq : Nat) :
    (s.setSeat n v).cqOf seat sq = s.cqOf seat sq := by
  unfold State.cqOf
  refine State.setSeat_fld _ _ _ _ _ ?_
  simp only [Blk.base, Reg.Seat.SQ_CQ, Reg.Seat.STATUS_IN_FLIGHT]
  omega

@[simp] theorem State.cqOf_setCmd (s : State) (c : Cmd) (seat sq : Nat) : (s.setCmd c).cqOf seat sq = s.cqOf seat sq :=
  State.cqOf_setSeat _ _ _ _ _

@[simp] theorem completionOf_setCmd (s : State) (d c : Cmd) (st r0 r1 : Nat) (i : Bool) :
    completionOf (s.setCmd d) c st r0 r1 i = completionOf s c st r0 r1 i := by
  simp only [completionOf, State.cqOf_setCmd]

/-- That a command has begun shows in no completion of it. -/
@[simp] theorem completionOf_started (s : State) (c : Cmd) (st r0 r1 : Nat) (i : Bool) :
    completionOf s { c with started := true } st r0 r1 i = completionOf s c st r0 r1 i := rfl

/-! A command ends -/

/-- A completion joins those of its seat. -/
theorem State.done_post (s : State) (c : Cmd) (st r0 r1 : Nat) (i : Bool) (h : c.tag < bootTag) (q : Nat) :
    ((s.post c st r0 r1 i).seat q).done =
      if q = c.seat then (s.seat q).done ++ [completionOf s c st r0 r1 i] else (s.seat q).done := by
  unfold State.post
  dsimp only
  rw [if_neg (Nat.not_le.mpr h), State.seat_setSeat]
  split
  · rename_i hq
    rw [hq]
    rfl
  · rfl

theorem State.cmds_post (s : State) (c : Cmd) (st r0 r1 : Nat) (i : Bool) (q : Nat) :
    ((s.post c st r0 r1 i).seat q).cmds = (s.seat q).cmds := by
  unfold State.post
  dsimp only
  split
  · rfl
  · rw [State.seat_setSeat]
    split
    · rename_i hq
      rw [hq]
    · rfl

theorem State.cmdOf_post (s : State) (c : Cmd) (st r0 r1 : Nat) (i : Bool) (q t : Nat) :
    (s.post c st r0 r1 i).cmdOf q t = s.cmdOf q t := by
  unfold State.cmdOf
  rw [State.cmds_post]

/-- A command in flight that ends: its completion, its last form, its working memory given back. -/
theorem State.finish1_eq (s : State) (c : Cmd) (st r0 r1 : Nat) (h : s.cmdOf c.seat c.tag = some c) (hf : c.final = false)
    (ht : c.tag < bootTag) :
    s.finish1 c.seat c.tag st r0 r1 =
      ((s.post c st r0 r1 false).setCmd { c with started := true, final := true, waiters := [], bytes := [], work := [] }).freePool
        c.seat c.tag := by
  unfold State.finish1
  rw [h]
  dsimp only
  rw [hf, if_neg (by decide), if_neg (Nat.not_le.mpr ht)]

/-- The completions of a seat after one of its commands ended. -/
theorem State.finish1_done (s : State) (c : Cmd) (st r0 r1 : Nat) (h : s.cmdOf c.seat c.tag = some c) (hf : c.final = false)
    (ht : c.tag < bootTag) (q : Nat) :
    ((s.finish1 c.seat c.tag st r0 r1).seat q).done =
      if q = c.seat then (s.seat q).done ++ [completionOf s c st r0 r1 false] else (s.seat q).done := by
  rw [State.finish1_eq s c st r0 r1 h hf ht]
  rw [State.seat_freePool, State.done_setCmd, State.done_post _ _ _ _ _ _ ht]

/-- The command is final after it ended. -/
theorem State.finish1_cmd (s : State) (c : Cmd) (st r0 r1 : Nat) (h : s.cmdOf c.seat c.tag = some c) (hf : c.final = false)
    (ht : c.tag < bootTag) :
    (s.finish1 c.seat c.tag st r0 r1).cmdOf c.seat c.tag =
      some { c with started := true, final := true, waiters := [], bytes := [], work := [] } := by
  rw [State.finish1_eq s c st r0 r1 h hf ht]
  have hb := (State.cmdOf_some s _ _ _ h).2.2
  have hp : (s.post c st r0 r1 false).cmdOf c.seat c.tag = some c := by rw [State.cmdOf_post, h]
  exact State.cmdOf_setCmd (s.post c st r0 r1 false)
    { c with started := true, final := true, waiters := [], bytes := [], work := [] } c hp hb

/-- A command that no controlling command waits for ends by itself. -/
theorem State.finish_eq (s : State) (seat tag st r0 r1 : Nat) (c : Cmd) (h : s.cmdOf seat tag = some c) (hw : c.waiters = []) :
    s.finish seat tag st r0 r1 = s.finish1 seat tag st r0 r1 := by
  unfold State.finish
  rw [h]
  simp [hw]

/-- A command that begins and ends at once completes. -/
theorem completes_finish (s : State) (c : Cmd) (opcode st r0 r1 : Nat) (h : Issued s c opcode) :
    Completes s (((s.setCmd { c with started := true }).finish c.seat c.tag st r0 r1).dispatch.settled) c st r0 r1 := by
  obtain ⟨h1, _, _, h4, h5, h6, _, _, h8, _⟩ := h
  have hc : (s.setCmd { c with started := true }).cmdOf c.seat c.tag = some { c with started := true } :=
    State.cmdOf_setCmd s { c with started := true } c h1 h5
  rw [State.finish_eq _ _ _ _ _ _ _ hc h6]
  have e : (s.setCmd { c with started := true }).finish1 c.seat c.tag st r0 r1 =
      (s.setCmd { c with started := true }).finish1 ({ c with started := true } : Cmd).seat ({ c with started := true } : Cmd).tag st r0 r1 := rfl
  rw [e]
  have hf := State.finish1_cmd (s.setCmd { c with started := true }) { c with started := true } st r0 r1 hc h4 h8
  obtain ⟨d, hd, hg⟩ := State.cmdOf_dispatch _ _ _ _ hf
  refine ⟨?_, d, ?_, ?_⟩
  · rw [State.seat_settled, State.done_dispatch, State.finish1_done (s.setCmd { c with started := true }) { c with started := true } st r0 r1 hc h4 h8,
      if_pos rfl, State.done_setCmd, completionOf_setCmd, completionOf_started]
  · rw [State.cmdOf_settled]
    exact hd
  · rcases hg with rfl | ⟨_, rfl⟩ <;> rfl

/-! A long operation begins -/

/-- A new item leaves the seats alone. -/
@[simp] theorem State.seats_pushReady (s : State) (cls : Nat) (j : Job) : (s.pushReady cls j).seats = s.seats := by
  unfold State.pushReady
  split <;> rfl

/-- The flow of a pushed item has an item on the ready lists. -/
theorem State.ready_pushReady (s : State) (cls : Nat) (j : Job) :
    (s.pushReady cls j).sched.ready.any (fun r => r.job.flow = j.flow) = true := by
  unfold State.pushReady
  split
  · assumption
  · have : ∀ (x : State) (b : Blk) (f g : Fld) (v w : Nat), ((x.set b f v).peak b g w).sched = x.sched := fun _ _ _ _ _ _ => rfl
    dsimp only
    rw [this]
    simp

/-- A granted flow is in service; another keeps its item or its service. -/
theorem State.flowBusy_grant (s : State) (e w : Nat) (r : Ready) (flow : Nat)
    (h : s.flowBusy flow = true) : (s.grant e w r).flowBusy flow = true := by
  have hs : (s.grant e w r).sched.ready = s.sched.ready.filter (fun x => x.job.flow ≠ r.job.flow) ∧
      (s.grant e w r).sched.service = s.sched.service ++ [{ engine := e, cls := r.cls, job := r.job, lead := s.sched.leadPhase }] := by
    unfold State.grant State.opRuns
    dsimp only
    split <;> split <;> exact ⟨rfl, rfl⟩
  unfold State.flowBusy at h ⊢
  rw [hs.1, hs.2]
  simp only [List.any_append, List.any_cons, List.any_nil, Bool.or_false, Bool.or_eq_true, List.any_eq_true,
    decide_eq_true_eq, List.mem_filter, ne_eq] at h ⊢
  by_cases hf : r.job.flow = flow
  · exact .inr (.inr hf)
  · rcases h with ⟨x, hx, hq⟩ | h
    · exact .inl ⟨x, ⟨hx, fun hc => hf (hc ▸ hq)⟩, hq⟩
    · exact .inr (.inl h)

theorem State.flowBusy_dispatch (s : State) (flow : Nat) (h : s.flowBusy flow = true) : s.dispatch.flowBusy flow = true := by
  unfold State.dispatch
  generalize s.sched.stalled = l
  induction l generalizing s with
  | nil => exact h
  | cons e l ih =>
    rw [List.foldl_cons]
    refine ih _ ?_
    split
    · exact h
    · split
      · exact h
      · exact State.flowBusy_grant _ _ _ _ _ h

@[simp] theorem State.flowBusy_settled (s : State) (flow : Nat) : s.settled.flowBusy flow = s.flowBusy flow := by
  simp only [State.flowBusy, State.settled_sched]

/-- A command that begins a long operation, from a state with the same completions, is queued. -/
theorem queued_begin (s u : State) (c : Cmd) (opcode : Nat) (work : List Nat) (h : Issued s c opcode)
    (hc : u.cmdOf c.seat c.tag = some { c with started := true }) (hd' : (u.seat c.seat).done = (s.seat c.seat).done) :
    Queued s ((u.begin_ { c with started := true } work).dispatch.settled) c := by
  obtain ⟨_, _, _, h4, h5, _, _, _, _, _, h11, _⟩ := h
  unfold State.begin_
  generalize u.freeSlot = slot
  have hs : ∀ (x : State) (cls : Nat) (j : Job) (q : Nat), (x.pushReady cls j).seat q = x.seat q := by
    intro x cls j q
    simp only [State.seat, State.seats_pushReady]
  have hf : ((u.setCmd { c with started := true, work := work, slot := slot }).pushReady 2
      { kind := .opStep, flow := 0x3000 + slot, block := u.render.block }).cmdOf c.seat c.tag =
      some { c with started := true, work := work, slot := slot } := by
    unfold State.cmdOf
    rw [hs]
    exact State.cmdOf_setCmd u { c with started := true, work := work, slot := slot } _ hc h5
  obtain ⟨d, hd, hg⟩ := State.cmdOf_dispatch _ _ _ _ hf
  have hv : d.started = true ∧ d.final = false ∧ (d.state = .queued ∨ d.state = .running) ∧ d.slot = slot := by
    rcases hg with rfl | ⟨_, rfl⟩
    · exact ⟨rfl, h4, .inl h11, rfl⟩
    · exact ⟨rfl, h4, .inr rfl, rfl⟩
  refine ⟨?_, d, ?_, hv.1, hv.2.1, hv.2.2.1, ?_⟩
  · rw [State.seat_settled, State.done_dispatch, hs, State.done_setCmd, hd']
  · rw [State.cmdOf_settled]
    exact hd
  · rw [State.flowBusy_settled, hv.2.2.2]
    refine State.flowBusy_dispatch _ _ ?_
    unfold State.flowBusy
    rw [State.ready_pushReady (u.setCmd { c with started := true, work := work, slot := slot }) 2
      { kind := .opStep, flow := 0x3000 + slot, block := u.render.block }]
    rfl

end Sys2Proof.Machine
end

