-- ==== Sys2Proof/WellFormed.lean ====
section
/-! DEFINITION. The operands that a command may carry: numbers within what the largest model has. A command outside
these names no unit, and its meaning leaves the state of every unit as it is. -/

namespace Sys2Proof

/-- A seat or Prompter number (R394, R426). -/
def okSeat (q : Nat) : Bool := decide (q < 8)

/-- A command tag (R401). -/
def okTag (t : Nat) : Bool := decide (t < 65536)

/-- Who makes an access. -/
def okWriter : Writer → Bool
  | .seat q | .prompter q => okSeat q
  | .bmc => true

/-- A page or record that the largest model has (R1, R5, R43). -/
def okBlk (b : Blk) : Bool := b.present .m960

/-- A section of a TDM port, or an AES3 receiver (R292). -/
def okPort : Port → Bool
  | .tdmRx k | .tdmTx k => decide (k < 16)
  | .aesRx k => decide (k < 8)

/-- An Ethernet frame without its FCS, or the UDP payload of one (R317). -/
def okFrame (f : List Byte) : Bool := decide (14 ≤ f.length ∧ f.length ≤ 9234)

/-- A file of a command (R405). -/
def okFile (f : List Byte) : Bool := decide (f.length < 2 ^ 32)

/-- A channel-status block of AES3 (R306). -/
def okStatus (f : List Byte) : Bool := decide (f.length = 24)

/-- A register address (R42). -/
def okAddr (a : Nat) : Bool := decide (a < 2 ^ 32)

/-- An object (R1). -/
def okObject (n : Nat) : Bool := decide (n < 1024)

/-- An output (R1). -/
def okOutput (n : Nat) : Bool := decide (n < 512)

/-- A bus (R1). -/
def okBus (n : Nat) : Bool := decide (n < 64)

/-- A stream (R325). -/
def okStream (n : Nat) : Bool := decide (n < 256)

/-- A direct route (R179). -/
def okRoute (n : Nat) : Bool := decide (n < 2048)

/-- An Ethernet port (R317). -/
def okEth (p : Nat) : Bool := decide (p < 4)

/-- A classifier instruction (R334). -/
def okPc (pc : Nat) : Bool := decide (pc < 256)

/-- A transmit queue (R320). -/
def okQueue (q : Nat) : Bool := decide (q < 8)

/-- A chain (R229). -/
def okChain (c : Nat) : Bool := decide (c < 56)

/-- A channel of the greenroom converter (R468). -/
def okTap (c : Nat) : Bool := decide (c < 8)

/-- A power-stage channel (R272). -/
def okPs (k : Nat) : Bool := decide (k < 16)

/-- An AES3 port (R292). -/
def okAes (k : Nat) : Bool := decide (k < 8)

/-- A jack (R469). -/
def okJack (j : Nat) : Bool := decide (j < 2)

/-- A contact input (R436). -/
def okPin (k : Nat) : Bool := decide (k < 16)

/-- A PTP instance (R351). -/
def okInstance (n : Nat) : Bool := decide (n < 2)

/-- A queue of a seat (R398). -/
def okRing (n : Nat) : Bool := decide (n < 4)

/-- An interrupt source (R451). -/
def okSource (n : Nat) : Bool := decide (n < 2048)

/-- An interrupt vector (R452). -/
def okVector (v : Nat) : Bool := decide (v < 64)

/-- A submission entry (R401). -/
def okEntry (e : List Word) : Bool := decide (e.length = 16)

/-- A PCIe link (R394). -/
def okLink (n : Nat) : Bool := decide (n = 1 ∨ n = 2)

/-- The readings of the sixteen sensors (R520). -/
def okTemps (l : List Int) : Bool := decide (l.length = 16)

/-- Are the operands of a command within range? -/
def Instr.wellFormed : Instr → Bool
  | .registerWrite w addr _ _ => okWriter w && okAddr addr
  | .lowWordRead w addr => okWriter w && okAddr addr
  | .clearingRead w addr => okWriter w && okAddr addr
  | .mirrorRefresh b _ => okBlk b
  | .slowWriteLost b => okBlk b
  | .blockReset w b => okWriter w && okBlk b
  | .sampleStrobe => true
  | .release => true
  | .outputCutoff => true
  | .deadline => true
  | .engineAsk _ _ _ => true
  | .jobRetire _ _ _ _ _ => true
  | .trapezeJob n _ => okObject n
  | .panJob n _ => okObject n
  | .pathJob n _ _ => okObject n
  | .farFetchDone n _ => okObject n
  | .fetchLate n => okObject n
  | .routeJob _ _ _ => true
  | .busJob n _ => okBus n
  | .shapePreJob n _ => okOutput n
  | .convHeadJob n _ => okOutput n
  | .convSegJob n _ _ _ => okOutput n
  | .shapePostJob n _ => okOutput n
  | .opStep seat tag data => okSeat seat && okTag tag && okFile data
  | .updStrobe seat _ => okSeat seat
  | .prepareDone _ => true
  | .commitApply _ => true
  | .slowUnitApply _ b => okBlk b
  | .unitLost _ b => okBlk b
  | .updDiscard seat _ => okSeat seat
  | .updCancel seat _ => okSeat seat
  | .motionStart n _ => okObject n
  | .motionStop n _ => okObject n
  | .motionFlagsSet n _ => okObject n
  | .motionFlagsClr n _ => okObject n
  | .drained n => okObject n
  | .segmentEnd n => okObject n
  | .jitterIntervalEnd n => okObject n
  | .trapezeHalt n => okObject n
  | .hold n => okObject n
  | .move n => okObject n
  | .curve n => okObject n
  | .orbit n => okObject n
  | .jitter n => okObject n
  | .waitt n => okObject n
  | .waite n => okObject n
  | .setpSeed n => okObject n
  | .setpOrigin n => okObject n
  | .setpTimescale n => okObject n
  | .trapezeLoop n => okObject n
  | .endl n => okObject n
  | .trapezeJump n => okObject n
  | .trapezeEvent n => okObject n
  | .motionLoad seat tag data => okSeat seat && okTag tag && okFile data
  | .motionFree seat tag => okSeat seat && okTag tag
  | .eqSetLoad seat tag data => okSeat seat && okTag tag && okFile data
  | .objBulk seat tag data => okSeat seat && okTag tag && okFile data
  | .layoutLoad seat tag => okSeat seat && okTag tag
  | .layoutSelect seat tag => okSeat seat && okTag tag
  | .armed => true
  | .pathSetFadeEnd n => okObject n
  | .routeFadeEnd r => okRoute r
  | .outputRampZero n => okOutput n
  | .emgmuteChange _ => true
  | .pinCause => true
  | .close => true
  | .releaseWrite => true
  | .autoRelease => true
  | .curtainClosed => true
  | .opened => true
  | .peerCurtainReport _ _ => true
  | .hrirLoad seat tag => okSeat seat && okTag tag
  | .filterLoad seat tag => okSeat seat && okTag tag
  | .filterSwap seat tag => okSeat seat && okTag tag
  | .corrWarm n _ => okOutput n
  | .bankWarm n => okOutput n
  | .swapped n => okOutput n
  | .serviceDone => true
  | .switched c => okChain c
  | .chainOutputSample c _ _ => okChain c
  | .stuck c _ => okChain c
  | .scanSwitch c => okChain c
  | .captureToMemory seat tag => okSeat seat && okTag tag
  | .c2mStart seat tag => okSeat seat && okTag tag
  | .c2mDone seat tag => okSeat seat && okTag tag
  | .campaignStart seat tag => okSeat seat && okTag tag
  | .campaignResume seat tag => okSeat seat && okTag tag
  | .campaignDiscard seat tag => okSeat seat && okTag tag
  | .playEnd => true
  | .deconvolutionDone => true
  | .journalWrite => true
  | .probeStart seat tag => okSeat seat && okTag tag
  | .probeStop seat tag => okSeat seat && okTag tag
  | .probeFrame => true
  | .probeReport => true
  | .thermalPersist => true
  | .limitAction k _ => okPs k
  | .faultPinLow k _ => okPs k
  | .carrierPeriodEnd k _ _ => okPs k
  | .stuckSense k _ => okPs k
  | .recover k => okPs k
  | .retryWaitEnd k => okPs k
  | .recovered k => okPs k
  | .attemptsClear k => okPs k
  | .resistanceWindow k _ _ => okPs k
  | .tdmFrame p _ _ _ _ => okPort p
  | .stop p => okPort p
  | .locking p _ => okPort p
  | .lock p => okPort p
  | .syncAcquire p => okPort p
  | .rateMeasure p _ => okPort p
  | .aes3Frame k _ _ _ _ _ => okAes k
  | .csBlock k _ bs => okAes k && okStatus bs
  | .audio k => okAes k
  | .csApplied k => okAes k
  | .mclkinMeasure _ _ => true
  | .ethRxFrame p _ f _ => okEth p && okFrame f
  | .pauseRx p => okEth p
  | .pauseExpire p q => okEth p && okQueue q
  | .highWater p => okEth p
  | .pauseTxRepeat p _ => okEth p
  | .streamPacketRx n => okStream n
  | .stalled n => okStream n
  | .classifierHalt p pc _ f => okEth p && okPc pc && okFrame f
  | .classifierMatch p pc _ f => okEth p && okPc pc && okFrame f
  | .classifierNmatch p pc _ f => okEth p && okPc pc && okFrame f
  | .classifierRange p pc _ f => okEth p && okPc pc && okFrame f
  | .classifierSkip p pc _ f => okEth p && okPc pc && okFrame f
  | .classifierStream p pc _ f => okEth p && okPc pc && okFrame f
  | .classifierLookup p pc _ f => okEth p && okPc pc && okFrame f
  | .classifierHost p pc _ f => okEth p && okPc pc && okFrame f
  | .classifierCount p pc _ f => okEth p && okPc pc && okFrame f
  | .classifierDrop p pc _ f => okEth p && okPc pc && okFrame f
  | .classifierWake p pc _ f => okEth p && okPc pc && okFrame f
  | .xtxSend p _ q => okEth p && okQueue q
  | .streamPacketEnqueue n => okStream n
  | .frameStart p _ => okEth p
  | .gateEntryChange p => okEth p
  | .gclChange p => okEth p
  | .linkUp p => okEth p
  | .linkDown p => okEth p
  | .mdioCmd p _ => okEth p
  | .mdioDone p _ => okEth p
  | .ptpRx ix _ => okInstance ix
  | .coasting ix => okInstance ix
  | .annTimeout ix => okInstance ix
  | .freerun => true
  | .instanceLocked ix => okInstance ix
  | .slewDone => true
  | .realign => true
  | .txStamp p _ _ _ => okEth p
  | .entryW0Read p => okEth p
  | .entryW3Read seat p => okSeat seat && okEth p
  | .run => true
  | .renderStop => true
  | .renderReset => true
  | .traceStart seat tag => okSeat seat && okTag tag
  | .traceStop seat tag => okSeat seat && okTag tag
  | .matrixRequest _ _ _ _ _ _ => true
  | .aged _ _ => true
  | .nop seat tag => okSeat seat && okTag tag
  | .identify seat tag => okSeat seat && okTag tag
  | .sync seat tag => okSeat seat && okTag tag
  | .snapshot seat tag => okSeat seat && okTag tag
  | .restore seat tag => okSeat seat && okTag tag
  | .offlineRender seat tag => okSeat seat && okTag tag
  | .cueLoad seat tag data => okSeat seat && okTag tag && okFile data
  | .ownershipSet seat tag => okSeat seat && okTag tag
  | .keySet seat tag => okSeat seat && okTag tag
  | .keyClear seat tag => okSeat seat && okTag tag
  | .fwUpdate seat tag => okSeat seat && okTag tag
  | .opSuspend seat tag => okSeat seat && okTag tag
  | .opResume seat tag => okSeat seat && okTag tag
  | .opCancel seat tag => okSeat seat && okTag tag
  | .opQueryState seat tag => okSeat seat && okTag tag
  | .opQueryCopy seat tag => okSeat seat && okTag tag
  | .opQueryRelease seat tag => okSeat seat && okTag tag
  | .join seat tag => okSeat seat && okTag tag
  | .detach seat tag => okSeat seat && okTag tag
  | .handover seat tag => okSeat seat && okTag tag
  | .takeover seat tag => okSeat seat && okTag tag
  | .resync seat tag => okSeat seat && okTag tag
  | .sqEnable seat ix _ _ => okSeat seat && okRing ix
  | .sqTail seat ix _ => okSeat seat && okRing ix
  | .cqHead seat ix _ => okSeat seat && okRing ix
  | .commandFetch entry _ => okEntry entry
  | .completionWrite seat ix _ => okSeat seat && okRing ix
  | .bind seat _ _ => okSeat seat
  | .seatReset seat => okSeat seat
  | .functionLevelReset link _ => okLink link
  | .pcieLinkDown link _ => okLink link
  | .stagedoorSilence seat => okSeat seat
  | .graceExpire seat => okSeat seat
  | .pcieLinkUp link => okLink link
  | .uploadTimeout seat tag => okSeat seat && okTag tag
  | .stagedoorRead p _ _ msg => okEth p && okFrame msg
  | .stagedoorWrite p _ _ msg => okEth p && okFrame msg
  | .stagedoorSubmit p _ _ msg => okEth p && okFrame msg
  | .keepalive p _ _ msg => okEth p && okFrame msg
  | .stagedoorResend seat => okSeat seat
  | .keepaliveSend seat => okSeat seat
  | .prompterRun n => okSeat n
  | .cueHalt n => okSeat n
  | .waitTime n => okSeat n
  | .waitRsi n => okSeat n
  | .waitTc n => okSeat n
  | .waitGpio n => okSeat n
  | .waitFlag n => okSeat n
  | .strobe n => okSeat n
  | .cueWrite n => okSeat n
  | .cueMotionSet n => okSeat n
  | .cueMotionClear n => okSeat n
  | .signalHost n => okSeat n
  | .signalFlag n => okSeat n
  | .branchIf n => okSeat n
  | .cueJump n => okSeat n
  | .call n => okSeat n
  | .ret n => okSeat n
  | .cueLoop n => okSeat n
  | .cueLoopEnd n => okSeat n
  | .prompterStart n => okSeat n
  | .prompterStop n => okSeat n
  | .cueFlagsSet n _ => okSeat n
  | .cueFlagsClr n _ => okSeat n
  | .gpioChange k _ => okPin k
  | .debouncedEdge k => okPin k
  | .tcWord _ _ _ _ _ => true
  | .tcLoss => true
  | .sourceChange src => okSource src
  | .holdoffExpire seat v => okSeat seat && okVector v
  | .delivery seat v => okSeat seat && okVector v
  | .eoi seat src => okSeat seat && okSource src
  | .gate seat _ => okSeat seat
  | .sleepReq seat => okSeat seat
  | .sleepAck seat _ => okSeat seat
  | .sleepEnd seat => okSeat seat
  | .clkFail => true
  | .sarConversion c _ => okTap c
  | .insert j => okJack j
  | .accessory j => okJack j
  | .remove j => okJack j
  | .press j => okJack j
  | .buttonRelease j => okJack j
  | .bmcWrite _ _ => true
  | .bmcRead _ _ => true
  | .wakePulse => true
  | .pwrTargetStandby => true
  | .pwrTargetDormant => true
  | .pwrTargetActive => true
  | .wakeIn _ => true
  | .moduleWake _ => true
  | .greenroomGpioEdge k => okPin k
  | .mode _ => true
  | .claimCycle _ _ => true
  | .claimSeenTimeout => true
  | .peerpresChange _ => true
  | .ndodomUp _ _ => true
  | .ndodomDown => true
  | .laneLost _ => true
  | .ndodomFrame _ => true
  | .heartbeatSend => true
  | .heartbeatCheck => true
  | .netHbRx _ _ => true
  | .netHbLost => true
  | .autoTakeover => true
  | .egressOpen => true
  | .coldTakeoverRestore => true
  | .holdings _ => true
  | .departureReport => true
  | .outputCrcCompare _ => true
  | .snapPeriod => true
  | .replayCaughtUp => true
  | .joined => true
  | .handoverBoundary => true
  | .refresh => true
  | .zqLatch _ => true
  | .wckMeasure _ _ => true
  | .rowActivate => true
  | .patrolScrub _ _ _ _ _ => true
  | .sramScrub _ _ _ => true
  | .tempSample temps => okTemps temps
  | .thresholdClear _ => true
  | .thermalTrip => true
  | .vmonSample _ => true
  | .roSample _ => true
  | .avsRecompute _ => true
  | .pmbusRequestDone _ => true
  | .avs _ => true
  | .powerOnReset _ _ => true
  | .resetBLow => true
  | .warm => true
  | .watchdogExpire => true
  | .commitRollback => true
  | .pushGo => true
  | .trainingDone _ _ => true
  | .imageCheck => true
  | .firmwareUp _ _ => true
  | .defcfgWrite => true
  | .defcfgStrobe => true
  | .defcfgCommand => true
  | .waitLock _ => true
  | .defcfgEnd => true
  | .refclkLoss => true
  | .laneBack => true
  | .crystalOscillates => true
  | .standbyEntered => true
  | .joinTimeout => true
  | .ptpMessageSend ix _ => okInstance ix

/-- The seat that a command comes from or acts for, where it names one. -/
def Instr.seat? : Instr → Option Nat
  | .registerWrite _ _ _ _ => none
  | .lowWordRead _ _ => none
  | .clearingRead _ _ => none
  | .mirrorRefresh _ _ => none
  | .slowWriteLost _ => none
  | .blockReset _ _ => none
  | .sampleStrobe => none
  | .release => none
  | .outputCutoff => none
  | .deadline => none
  | .engineAsk _ _ _ => none
  | .jobRetire _ _ _ _ _ => none
  | .trapezeJob _ _ => none
  | .panJob _ _ => none
  | .pathJob _ _ _ => none
  | .farFetchDone _ _ => none
  | .fetchLate _ => none
  | .routeJob _ _ _ => none
  | .busJob _ _ => none
  | .shapePreJob _ _ => none
  | .convHeadJob _ _ => none
  | .convSegJob _ _ _ _ => none
  | .shapePostJob _ _ => none
  | .opStep seat _ _ => some seat
  | .updStrobe seat _ => some seat
  | .prepareDone _ => none
  | .commitApply _ => none
  | .slowUnitApply _ _ => none
  | .unitLost _ _ => none
  | .updDiscard seat _ => some seat
  | .updCancel seat _ => some seat
  | .motionStart _ _ => none
  | .motionStop _ _ => none
  | .motionFlagsSet _ _ => none
  | .motionFlagsClr _ _ => none
  | .drained _ => none
  | .segmentEnd _ => none
  | .jitterIntervalEnd _ => none
  | .trapezeHalt _ => none
  | .hold _ => none
  | .move _ => none
  | .curve _ => none
  | .orbit _ => none
  | .jitter _ => none
  | .waitt _ => none
  | .waite _ => none
  | .setpSeed _ => none
  | .setpOrigin _ => none
  | .setpTimescale _ => none
  | .trapezeLoop _ => none
  | .endl _ => none
  | .trapezeJump _ => none
  | .trapezeEvent _ => none
  | .motionLoad seat _ _ => some seat
  | .motionFree seat _ => some seat
  | .eqSetLoad seat _ _ => some seat
  | .objBulk seat _ _ => some seat
  | .layoutLoad seat _ => some seat
  | .layoutSelect seat _ => some seat
  | .armed => none
  | .pathSetFadeEnd _ => none
  | .routeFadeEnd _ => none
  | .outputRampZero _ => none
  | .emgmuteChange _ => none
  | .pinCause => none
  | .close => none
  | .releaseWrite => none
  | .autoRelease => none
  | .curtainClosed => none
  | .opened => none
  | .peerCurtainReport _ _ => none
  | .hrirLoad seat _ => some seat
  | .filterLoad seat _ => some seat
  | .filterSwap seat _ => some seat
  | .corrWarm _ _ => none
  | .bankWarm _ => none
  | .swapped _ => none
  | .serviceDone => none
  | .switched _ => none
  | .chainOutputSample _ _ _ => none
  | .stuck _ _ => none
  | .scanSwitch _ => none
  | .captureToMemory seat _ => some seat
  | .c2mStart seat _ => some seat
  | .c2mDone seat _ => some seat
  | .campaignStart seat _ => some seat
  | .campaignResume seat _ => some seat
  | .campaignDiscard seat _ => some seat
  | .playEnd => none
  | .deconvolutionDone => none
  | .journalWrite => none
  | .probeStart seat _ => some seat
  | .probeStop seat _ => some seat
  | .probeFrame => none
  | .probeReport => none
  | .thermalPersist => none
  | .limitAction _ _ => none
  | .faultPinLow _ _ => none
  | .carrierPeriodEnd _ _ _ => none
  | .stuckSense _ _ => none
  | .recover _ => none
  | .retryWaitEnd _ => none
  | .recovered _ => none
  | .attemptsClear _ => none
  | .resistanceWindow _ _ _ => none
  | .tdmFrame _ _ _ _ _ => none
  | .stop _ => none
  | .locking _ _ => none
  | .lock _ => none
  | .syncAcquire _ => none
  | .rateMeasure _ _ => none
  | .aes3Frame _ _ _ _ _ _ => none
  | .csBlock _ _ _ => none
  | .audio _ => none
  | .csApplied _ => none
  | .mclkinMeasure _ _ => none
  | .ethRxFrame _ _ _ _ => none
  | .pauseRx _ => none
  | .pauseExpire _ _ => none
  | .highWater _ => none
  | .pauseTxRepeat _ _ => none
  | .streamPacketRx _ => none
  | .stalled _ => none
  | .classifierHalt _ _ _ _ => none
  | .classifierMatch _ _ _ _ => none
  | .classifierNmatch _ _ _ _ => none
  | .classifierRange _ _ _ _ => none
  | .classifierSkip _ _ _ _ => none
  | .classifierStream _ _ _ _ => none
  | .classifierLookup _ _ _ _ => none
  | .classifierHost _ _ _ _ => none
  | .classifierCount _ _ _ _ => none
  | .classifierDrop _ _ _ _ => none
  | .classifierWake _ _ _ _ => none
  | .xtxSend _ _ _ => none
  | .streamPacketEnqueue _ => none
  | .frameStart _ _ => none
  | .gateEntryChange _ => none
  | .gclChange _ => none
  | .linkUp _ => none
  | .linkDown _ => none
  | .mdioCmd _ _ => none
  | .mdioDone _ _ => none
  | .ptpRx _ _ => none
  | .coasting _ => none
  | .annTimeout _ => none
  | .freerun => none
  | .instanceLocked _ => none
  | .slewDone => none
  | .realign => none
  | .txStamp _ _ _ _ => none
  | .entryW0Read _ => none
  | .entryW3Read seat _ => some seat
  | .run => none
  | .renderStop => none
  | .renderReset => none
  | .traceStart seat _ => some seat
  | .traceStop seat _ => some seat
  | .matrixRequest _ _ _ _ _ _ => none
  | .aged _ _ => none
  | .nop seat _ => some seat
  | .identify seat _ => some seat
  | .sync seat _ => some seat
  | .snapshot seat _ => some seat
  | .restore seat _ => some seat
  | .offlineRender seat _ => some seat
  | .cueLoad seat _ _ => some seat
  | .ownershipSet seat _ => some seat
  | .keySet seat _ => some seat
  | .keyClear seat _ => some seat
  | .fwUpdate seat _ => some seat
  | .opSuspend seat _ => some seat
  | .opResume seat _ => some seat
  | .opCancel seat _ => some seat
  | .opQueryState seat _ => some seat
  | .opQueryCopy seat _ => some seat
  | .opQueryRelease seat _ => some seat
  | .join seat _ => some seat
  | .detach seat _ => some seat
  | .handover seat _ => some seat
  | .takeover seat _ => some seat
  | .resync seat _ => some seat
  | .sqEnable seat _ _ _ => some seat
  | .sqTail seat _ _ => some seat
  | .cqHead seat _ _ => some seat
  | .commandFetch _ _ => none
  | .completionWrite seat _ _ => some seat
  | .bind seat _ _ => some seat
  | .seatReset seat => some seat
  | .functionLevelReset _ _ => none
  | .pcieLinkDown _ _ => none
  | .stagedoorSilence seat => some seat
  | .graceExpire seat => some seat
  | .pcieLinkUp _ => none
  | .uploadTimeout seat _ => some seat
  | .stagedoorRead _ _ _ _ => none
  | .stagedoorWrite _ _ _ _ => none
  | .stagedoorSubmit _ _ _ _ => none
  | .keepalive _ _ _ _ => none
  | .stagedoorResend seat => some seat
  | .keepaliveSend seat => some seat
  | .prompterRun n => some n
  | .cueHalt n => some n
  | .waitTime n => some n
  | .waitRsi n => some n
  | .waitTc n => some n
  | .waitGpio n => some n
  | .waitFlag n => some n
  | .strobe n => some n
  | .cueWrite n => some n
  | .cueMotionSet n => some n
  | .cueMotionClear n => some n
  | .signalHost n => some n
  | .signalFlag n => some n
  | .branchIf n => some n
  | .cueJump n => some n
  | .call n => some n
  | .ret n => some n
  | .cueLoop n => some n
  | .cueLoopEnd n => some n
  | .prompterStart n => some n
  | .prompterStop n => some n
  | .cueFlagsSet n _ => some n
  | .cueFlagsClr n _ => some n
  | .gpioChange _ _ => none
  | .debouncedEdge _ => none
  | .tcWord _ _ _ _ _ => none
  | .tcLoss => none
  | .sourceChange _ => none
  | .holdoffExpire seat _ => some seat
  | .delivery seat _ => some seat
  | .eoi seat _ => some seat
  | .gate seat _ => some seat
  | .sleepReq seat => some seat
  | .sleepAck seat _ => some seat
  | .sleepEnd seat => some seat
  | .clkFail => none
  | .sarConversion _ _ => none
  | .insert _ => none
  | .accessory _ => none
  | .remove _ => none
  | .press _ => none
  | .buttonRelease _ => none
  | .bmcWrite _ _ => none
  | .bmcRead _ _ => none
  | .wakePulse => none
  | .pwrTargetStandby => none
  | .pwrTargetDormant => none
  | .pwrTargetActive => none
  | .wakeIn _ => none
  | .moduleWake _ => none
  | .greenroomGpioEdge _ => none
  | .mode _ => none
  | .claimCycle _ _ => none
  | .claimSeenTimeout => none
  | .peerpresChange _ => none
  | .ndodomUp _ _ => none
  | .ndodomDown => none
  | .laneLost _ => none
  | .ndodomFrame _ => none
  | .heartbeatSend => none
  | .heartbeatCheck => none
  | .netHbRx _ _ => none
  | .netHbLost => none
  | .autoTakeover => none
  | .egressOpen => none
  | .coldTakeoverRestore => none
  | .holdings _ => none
  | .departureReport => none
  | .outputCrcCompare _ => none
  | .snapPeriod => none
  | .replayCaughtUp => none
  | .joined => none
  | .handoverBoundary => none
  | .refresh => none
  | .zqLatch _ => none
  | .wckMeasure _ _ => none
  | .rowActivate => none
  | .patrolScrub _ _ _ _ _ => none
  | .sramScrub _ _ _ => none
  | .tempSample _ => none
  | .thresholdClear _ => none
  | .thermalTrip => none
  | .vmonSample _ => none
  | .roSample _ => none
  | .avsRecompute _ => none
  | .pmbusRequestDone _ => none
  | .avs _ => none
  | .powerOnReset _ _ => none
  | .resetBLow => none
  | .warm => none
  | .watchdogExpire => none
  | .commitRollback => none
  | .pushGo => none
  | .trainingDone _ _ => none
  | .imageCheck => none
  | .firmwareUp _ _ => none
  | .defcfgWrite => none
  | .defcfgStrobe => none
  | .defcfgCommand => none
  | .waitLock _ => none
  | .defcfgEnd => none
  | .refclkLoss => none
  | .laneBack => none
  | .crystalOscillates => none
  | .standbyEntered => none
  | .joinTimeout => none
  | .ptpMessageSend _ _ => none

end Sys2Proof
end

