-- ==== Sys2Proof/Laws/PerInstr.lean ====
section
/-! SUPPORT. Lemmas about commands as syntax, one per constructor. -/

set_option Elab.async false

namespace Sys2Proof.Laws.Operands

open Sys2Proof Sys2Proof.Machine

/-- A well-formed command names a seat only among the eight. -/
def Statement (c : Instr) : Prop := c.wellFormed = true → ∀ q, c.seat? = some q → q < 8

theorem seat_only {q : Nat} (h : okSeat q = true) : q < 8 := of_decide_eq_true h

theorem seat_first {q : Nat} {b : Bool} (h : (okSeat q && b) = true) : q < 8 :=
  of_decide_eq_true (Bool.and_eq_true_iff.mp h).1

theorem seat_left {q : Nat} {b c : Bool} (h : (okSeat q && b && c) = true) : q < 8 :=
  seat_first (Bool.and_eq_true_iff.mp h).1

theorem registerWrite (w : Writer) (addr : Nat) (data : Word) (aligned : Bool) : Statement (.registerWrite w addr data aligned) := fun _ _ e => (nomatch (e : none = some _))
theorem lowWordRead (w : Writer) (addr : Nat) : Statement (.lowWordRead w addr) := fun _ _ e => (nomatch (e : none = some _))
theorem clearingRead (w : Writer) (addr : Nat) : Statement (.clearingRead w addr) := fun _ _ e => (nomatch (e : none = some _))
theorem mirrorRefresh (b : Blk) (tx : Bool) : Statement (.mirrorRefresh b tx) := fun _ _ e => (nomatch (e : none = some _))
theorem slowWriteLost (b : Blk) : Statement (.slowWriteLost b) := fun _ _ e => (nomatch (e : none = some _))
theorem blockReset (w : Writer) (b : Blk) : Statement (.blockReset w b) := fun _ _ e => (nomatch (e : none = some _))
theorem sampleStrobe : Statement (.sampleStrobe) := fun _ _ e => (nomatch (e : none = some _))
theorem release : Statement (.release) := fun _ _ e => (nomatch (e : none = some _))
theorem outputCutoff : Statement (.outputCutoff) := fun _ _ e => (nomatch (e : none = some _))
theorem deadline : Statement (.deadline) := fun _ _ e => (nomatch (e : none = some _))
theorem engineAsk (engine : Nat) (left : Nat) (wait : Nat) : Statement (.engineAsk engine left wait) := fun _ _ e => (nomatch (e : none = some _))
theorem jobRetire (engine : Nat) (time : Nat) (wait : Nat) (run : Nat) (since : Nat) : Statement (.jobRetire engine time wait run since) := fun _ _ e => (nomatch (e : none = some _))
theorem trapezeJob (n : Nat) (b : Nat) : Statement (.trapezeJob n b) := fun _ _ e => (nomatch (e : none = some _))
theorem panJob (n : Nat) (b : Nat) : Statement (.panJob n b) := fun _ _ e => (nomatch (e : none = some _))
theorem pathJob (n : Nat) (b : Nat) (slice : Nat) : Statement (.pathJob n b slice) := fun _ _ e => (nomatch (e : none = some _))
theorem farFetchDone (n : Nat) (cycles : Nat) : Statement (.farFetchDone n cycles) := fun _ _ e => (nomatch (e : none = some _))
theorem fetchLate (n : Nat) : Statement (.fetchLate n) := fun _ _ e => (nomatch (e : none = some _))
theorem routeJob (toBus : Bool) (dest : Nat) (b : Nat) : Statement (.routeJob toBus dest b) := fun _ _ e => (nomatch (e : none = some _))
theorem busJob (n : Nat) (b : Nat) : Statement (.busJob n b) := fun _ _ e => (nomatch (e : none = some _))
theorem shapePreJob (n : Nat) (b : Nat) : Statement (.shapePreJob n b) := fun _ _ e => (nomatch (e : none = some _))
theorem convHeadJob (n : Nat) (b : Nat) : Statement (.convHeadJob n b) := fun _ _ e => (nomatch (e : none = some _))
theorem convSegJob (n : Nat) (bank : Nat) (k : Nat) (start : Nat) : Statement (.convSegJob n bank k start) := fun _ _ e => (nomatch (e : none = some _))
theorem shapePostJob (n : Nat) (b : Nat) : Statement (.shapePostJob n b) := fun _ _ e => (nomatch (e : none = some _))
theorem opStep (seat : Nat) (tag : Nat) (data : List Byte) : Statement (.opStep seat tag data) := fun h _ e => Option.some.inj e ▸ seat_left h
theorem updStrobe (seat : Nat) (mask : Word) : Statement (.updStrobe seat mask) := fun h _ e => Option.some.inj e ▸ seat_only h
theorem prepareDone (serial : Nat) : Statement (.prepareDone serial) := fun _ _ e => (nomatch (e : none = some _))
theorem commitApply (serial : Nat) : Statement (.commitApply serial) := fun _ _ e => (nomatch (e : none = some _))
theorem slowUnitApply (serial : Nat) (b : Blk) : Statement (.slowUnitApply serial b) := fun _ _ e => (nomatch (e : none = some _))
theorem unitLost (serial : Nat) (b : Blk) : Statement (.unitLost serial b) := fun _ _ e => (nomatch (e : none = some _))
theorem updDiscard (seat : Nat) (mask : Word) : Statement (.updDiscard seat mask) := fun h _ e => Option.some.inj e ▸ seat_only h
theorem updCancel (seat : Nat) (mask : Word) : Statement (.updCancel seat mask) := fun h _ e => Option.some.inj e ▸ seat_only h
theorem motionStart (n : Nat) (sa : Nat) : Statement (.motionStart n sa) := fun _ _ e => (nomatch (e : none = some _))
theorem motionStop (n : Nat) (sa : Nat) : Statement (.motionStop n sa) := fun _ _ e => (nomatch (e : none = some _))
theorem motionFlagsSet (n : Nat) (flags : Nat) : Statement (.motionFlagsSet n flags) := fun _ _ e => (nomatch (e : none = some _))
theorem motionFlagsClr (n : Nat) (flags : Nat) : Statement (.motionFlagsClr n flags) := fun _ _ e => (nomatch (e : none = some _))
theorem drained (n : Nat) : Statement (.drained n) := fun _ _ e => (nomatch (e : none = some _))
theorem segmentEnd (n : Nat) : Statement (.segmentEnd n) := fun _ _ e => (nomatch (e : none = some _))
theorem jitterIntervalEnd (n : Nat) : Statement (.jitterIntervalEnd n) := fun _ _ e => (nomatch (e : none = some _))
theorem trapezeHalt (n : Nat) : Statement (.trapezeHalt n) := fun _ _ e => (nomatch (e : none = some _))
theorem hold (n : Nat) : Statement (.hold n) := fun _ _ e => (nomatch (e : none = some _))
theorem move (n : Nat) : Statement (.move n) := fun _ _ e => (nomatch (e : none = some _))
theorem curve (n : Nat) : Statement (.curve n) := fun _ _ e => (nomatch (e : none = some _))
theorem orbit (n : Nat) : Statement (.orbit n) := fun _ _ e => (nomatch (e : none = some _))
theorem jitter (n : Nat) : Statement (.jitter n) := fun _ _ e => (nomatch (e : none = some _))
theorem waitt (n : Nat) : Statement (.waitt n) := fun _ _ e => (nomatch (e : none = some _))
theorem waite (n : Nat) : Statement (.waite n) := fun _ _ e => (nomatch (e : none = some _))
theorem setpSeed (n : Nat) : Statement (.setpSeed n) := fun _ _ e => (nomatch (e : none = some _))
theorem setpOrigin (n : Nat) : Statement (.setpOrigin n) := fun _ _ e => (nomatch (e : none = some _))
theorem setpTimescale (n : Nat) : Statement (.setpTimescale n) := fun _ _ e => (nomatch (e : none = some _))
theorem trapezeLoop (n : Nat) : Statement (.trapezeLoop n) := fun _ _ e => (nomatch (e : none = some _))
theorem endl (n : Nat) : Statement (.endl n) := fun _ _ e => (nomatch (e : none = some _))
theorem trapezeJump (n : Nat) : Statement (.trapezeJump n) := fun _ _ e => (nomatch (e : none = some _))
theorem trapezeEvent (n : Nat) : Statement (.trapezeEvent n) := fun _ _ e => (nomatch (e : none = some _))
theorem motionLoad (seat : Nat) (tag : Nat) (data : List Byte) : Statement (.motionLoad seat tag data) := fun h _ e => Option.some.inj e ▸ seat_left h
theorem motionFree (seat : Nat) (tag : Nat) : Statement (.motionFree seat tag) := fun h _ e => Option.some.inj e ▸ seat_first h
theorem eqSetLoad (seat : Nat) (tag : Nat) (data : List Byte) : Statement (.eqSetLoad seat tag data) := fun h _ e => Option.some.inj e ▸ seat_left h
theorem objBulk (seat : Nat) (tag : Nat) (data : List Byte) : Statement (.objBulk seat tag data) := fun h _ e => Option.some.inj e ▸ seat_left h
theorem layoutLoad (seat : Nat) (tag : Nat) : Statement (.layoutLoad seat tag) := fun h _ e => Option.some.inj e ▸ seat_first h
theorem layoutSelect (seat : Nat) (tag : Nat) : Statement (.layoutSelect seat tag) := fun h _ e => Option.some.inj e ▸ seat_first h
theorem armed : Statement (.armed) := fun _ _ e => (nomatch (e : none = some _))
theorem pathSetFadeEnd (n : Nat) : Statement (.pathSetFadeEnd n) := fun _ _ e => (nomatch (e : none = some _))
theorem routeFadeEnd (r : Nat) : Statement (.routeFadeEnd r) := fun _ _ e => (nomatch (e : none = some _))
theorem outputRampZero (n : Nat) : Statement (.outputRampZero n) := fun _ _ e => (nomatch (e : none = some _))
theorem emgmuteChange (low : Bool) : Statement (.emgmuteChange low) := fun _ _ e => (nomatch (e : none = some _))
theorem pinCause : Statement (.pinCause) := fun _ _ e => (nomatch (e : none = some _))
theorem close : Statement (.close) := fun _ _ e => (nomatch (e : none = some _))
theorem releaseWrite : Statement (.releaseWrite) := fun _ _ e => (nomatch (e : none = some _))
theorem autoRelease : Statement (.autoRelease) := fun _ _ e => (nomatch (e : none = some _))
theorem curtainClosed : Statement (.curtainClosed) := fun _ _ e => (nomatch (e : none = some _))
theorem opened : Statement (.opened) := fun _ _ e => (nomatch (e : none = some _))
theorem peerCurtainReport (present : Bool) (named : Option Nat) : Statement (.peerCurtainReport present named) := fun _ _ e => (nomatch (e : none = some _))
theorem hrirLoad (seat : Nat) (tag : Nat) : Statement (.hrirLoad seat tag) := fun h _ e => Option.some.inj e ▸ seat_first h
theorem filterLoad (seat : Nat) (tag : Nat) : Statement (.filterLoad seat tag) := fun h _ e => Option.some.inj e ▸ seat_first h
theorem filterSwap (seat : Nat) (tag : Nat) : Statement (.filterSwap seat tag) := fun h _ e => Option.some.inj e ▸ seat_first h
theorem corrWarm (n : Nat) (on : Bool) : Statement (.corrWarm n on) := fun _ _ e => (nomatch (e : none = some _))
theorem bankWarm (n : Nat) : Statement (.bankWarm n) := fun _ _ e => (nomatch (e : none = some _))
theorem swapped (n : Nat) : Statement (.swapped n) := fun _ _ e => (nomatch (e : none = some _))
theorem serviceDone : Statement (.serviceDone) := fun _ _ e => (nomatch (e : none = some _))
theorem switched (c : Nat) : Statement (.switched c) := fun _ _ e => (nomatch (e : none = some _))
theorem chainOutputSample (c : Nat) (pin : List (Bool × Bool)) (aux : List (List Int)) : Statement (.chainOutputSample c pin aux) := fun _ _ e => (nomatch (e : none = some _))
theorem stuck (c : Nat) (on : Bool) : Statement (.stuck c on) := fun _ _ e => (nomatch (e : none = some _))
theorem scanSwitch (c : Nat) : Statement (.scanSwitch c) := fun _ _ e => (nomatch (e : none = some _))
theorem captureToMemory (seat : Nat) (tag : Nat) : Statement (.captureToMemory seat tag) := fun h _ e => Option.some.inj e ▸ seat_first h
theorem c2mStart (seat : Nat) (tag : Nat) : Statement (.c2mStart seat tag) := fun h _ e => Option.some.inj e ▸ seat_first h
theorem c2mDone (seat : Nat) (tag : Nat) : Statement (.c2mDone seat tag) := fun h _ e => Option.some.inj e ▸ seat_first h
theorem campaignStart (seat : Nat) (tag : Nat) : Statement (.campaignStart seat tag) := fun h _ e => Option.some.inj e ▸ seat_first h
theorem campaignResume (seat : Nat) (tag : Nat) : Statement (.campaignResume seat tag) := fun h _ e => Option.some.inj e ▸ seat_first h
theorem campaignDiscard (seat : Nat) (tag : Nat) : Statement (.campaignDiscard seat tag) := fun h _ e => Option.some.inj e ▸ seat_first h
theorem playEnd : Statement (.playEnd) := fun _ _ e => (nomatch (e : none = some _))
theorem deconvolutionDone : Statement (.deconvolutionDone) := fun _ _ e => (nomatch (e : none = some _))
theorem journalWrite : Statement (.journalWrite) := fun _ _ e => (nomatch (e : none = some _))
theorem probeStart (seat : Nat) (tag : Nat) : Statement (.probeStart seat tag) := fun h _ e => Option.some.inj e ▸ seat_first h
theorem probeStop (seat : Nat) (tag : Nat) : Statement (.probeStop seat tag) := fun h _ e => Option.some.inj e ▸ seat_first h
theorem probeFrame : Statement (.probeFrame) := fun _ _ e => (nomatch (e : none = some _))
theorem probeReport : Statement (.probeReport) := fun _ _ e => (nomatch (e : none = some _))
theorem thermalPersist : Statement (.thermalPersist) := fun _ _ e => (nomatch (e : none = some _))
theorem limitAction (k : Nat) (ix : Int) : Statement (.limitAction k ix) := fun _ _ e => (nomatch (e : none = some _))
theorem faultPinLow (k : Nat) (low : Bool) : Statement (.faultPinLow k low) := fun _ _ e => (nomatch (e : none = some _))
theorem carrierPeriodEnd (k : Nat) (c : Nat) (peak : Nat) : Statement (.carrierPeriodEnd k c peak) := fun _ _ e => (nomatch (e : none = some _))
theorem stuckSense (k : Nat) (on : Bool) : Statement (.stuckSense k on) := fun _ _ e => (nomatch (e : none = some _))
theorem recover (k : Nat) : Statement (.recover k) := fun _ _ e => (nomatch (e : none = some _))
theorem retryWaitEnd (k : Nat) : Statement (.retryWaitEnd k) := fun _ _ e => (nomatch (e : none = some _))
theorem recovered (k : Nat) : Statement (.recovered k) := fun _ _ e => (nomatch (e : none = some _))
theorem attemptsClear (k : Nat) : Statement (.attemptsClear k) := fun _ _ e => (nomatch (e : none = some _))
theorem resistanceWindow (k : Nat) (re im : Int) : Statement (.resistanceWindow k re im) := fun _ _ e => (nomatch (e : none = some _))
theorem tdmFrame (p : Port) (bits : Nat) (pulse : Bool) (phase : Nat) (slots : List Int) : Statement (.tdmFrame p bits pulse phase slots) := fun _ _ e => (nomatch (e : none = some _))
theorem stop (p : Port) : Statement (.stop p) := fun _ _ e => (nomatch (e : none = some _))
theorem locking (p : Port) (rate : Nat) : Statement (.locking p rate) := fun _ _ e => (nomatch (e : none = some _))
theorem lock (p : Port) : Statement (.lock p) := fun _ _ e => (nomatch (e : none = some _))
theorem syncAcquire (p : Port) : Statement (.syncAcquire p) := fun _ _ e => (nomatch (e : none = some _))
theorem rateMeasure (p : Port) (rate : Nat) : Statement (.rateMeasure p rate) := fun _ _ e => (nomatch (e : none = some _))
theorem aes3Frame (k : Nat) (bad : Bool) (a : Nat) (b : Nat) (va : Bool) (vb : Bool) : Statement (.aes3Frame k bad a b va vb) := fun _ _ e => (nomatch (e : none = some _))
theorem csBlock (k : Nat) (sub : Bool) (bs : List Byte) : Statement (.csBlock k sub bs) := fun _ _ e => (nomatch (e : none = some _))
theorem audio (k : Nat) : Statement (.audio k) := fun _ _ e => (nomatch (e : none = some _))
theorem csApplied (k : Nat) : Statement (.csApplied k) := fun _ _ e => (nomatch (e : none = some _))
theorem mclkinMeasure (ix : Nat) (freq : Nat) : Statement (.mclkinMeasure ix freq) := fun _ _ e => (nomatch (e : none = some _))
theorem ethRxFrame (p : Nat) (t : Nat) (f : List Byte) (err : RxErr) : Statement (.ethRxFrame p t f err) := fun _ _ e => (nomatch (e : none = some _))
theorem pauseRx (p : Nat) : Statement (.pauseRx p) := fun _ _ e => (nomatch (e : none = some _))
theorem pauseExpire (p : Nat) (q : Nat) : Statement (.pauseExpire p q) := fun _ _ e => (nomatch (e : none = some _))
theorem highWater (p : Nat) : Statement (.highWater p) := fun _ _ e => (nomatch (e : none = some _))
theorem pauseTxRepeat (p : Nat) (above : Bool) : Statement (.pauseTxRepeat p above) := fun _ _ e => (nomatch (e : none = some _))
theorem streamPacketRx (n : Nat) : Statement (.streamPacketRx n) := fun _ _ e => (nomatch (e : none = some _))
theorem stalled (n : Nat) : Statement (.stalled n) := fun _ _ e => (nomatch (e : none = some _))
theorem classifierHalt (p : Nat) (pc : Nat) (t : Nat) (f : List Byte) : Statement (.classifierHalt p pc t f) := fun _ _ e => (nomatch (e : none = some _))
theorem classifierMatch (p : Nat) (pc : Nat) (t : Nat) (f : List Byte) : Statement (.classifierMatch p pc t f) := fun _ _ e => (nomatch (e : none = some _))
theorem classifierNmatch (p : Nat) (pc : Nat) (t : Nat) (f : List Byte) : Statement (.classifierNmatch p pc t f) := fun _ _ e => (nomatch (e : none = some _))
theorem classifierRange (p : Nat) (pc : Nat) (t : Nat) (f : List Byte) : Statement (.classifierRange p pc t f) := fun _ _ e => (nomatch (e : none = some _))
theorem classifierSkip (p : Nat) (pc : Nat) (t : Nat) (f : List Byte) : Statement (.classifierSkip p pc t f) := fun _ _ e => (nomatch (e : none = some _))
theorem classifierStream (p : Nat) (pc : Nat) (t : Nat) (f : List Byte) : Statement (.classifierStream p pc t f) := fun _ _ e => (nomatch (e : none = some _))
theorem classifierLookup (p : Nat) (pc : Nat) (t : Nat) (f : List Byte) : Statement (.classifierLookup p pc t f) := fun _ _ e => (nomatch (e : none = some _))
theorem classifierHost (p : Nat) (pc : Nat) (t : Nat) (f : List Byte) : Statement (.classifierHost p pc t f) := fun _ _ e => (nomatch (e : none = some _))
theorem classifierCount (p : Nat) (pc : Nat) (t : Nat) (f : List Byte) : Statement (.classifierCount p pc t f) := fun _ _ e => (nomatch (e : none = some _))
theorem classifierDrop (p : Nat) (pc : Nat) (t : Nat) (f : List Byte) : Statement (.classifierDrop p pc t f) := fun _ _ e => (nomatch (e : none = some _))
theorem classifierWake (p : Nat) (pc : Nat) (t : Nat) (f : List Byte) : Statement (.classifierWake p pc t f) := fun _ _ e => (nomatch (e : none = some _))
theorem xtxSend (p : Nat) (len : Nat) (q : Nat) : Statement (.xtxSend p len q) := fun _ _ e => (nomatch (e : none = some _))
theorem streamPacketEnqueue (n : Nat) : Statement (.streamPacketEnqueue n) := fun _ _ e => (nomatch (e : none = some _))
theorem frameStart (p : Nat) (t : Nat) : Statement (.frameStart p t) := fun _ _ e => (nomatch (e : none = some _))
theorem gateEntryChange (p : Nat) : Statement (.gateEntryChange p) := fun _ _ e => (nomatch (e : none = some _))
theorem gclChange (p : Nat) : Statement (.gclChange p) := fun _ _ e => (nomatch (e : none = some _))
theorem linkUp (p : Nat) : Statement (.linkUp p) := fun _ _ e => (nomatch (e : none = some _))
theorem linkDown (p : Nat) : Statement (.linkDown p) := fun _ _ e => (nomatch (e : none = some _))
theorem mdioCmd (p : Nat) (w : Word) : Statement (.mdioCmd p w) := fun _ _ e => (nomatch (e : none = some _))
theorem mdioDone (p : Nat) (data : Nat) : Statement (.mdioDone p data) := fun _ _ e => (nomatch (e : none = some _))
theorem ptpRx (ix : Nat) (msg : PtpMsg) : Statement (.ptpRx ix msg) := fun _ _ e => (nomatch (e : none = some _))
theorem coasting (ix : Nat) : Statement (.coasting ix) := fun _ _ e => (nomatch (e : none = some _))
theorem annTimeout (ix : Nat) : Statement (.annTimeout ix) := fun _ _ e => (nomatch (e : none = some _))
theorem freerun : Statement (.freerun) := fun _ _ e => (nomatch (e : none = some _))
theorem instanceLocked (ix : Nat) : Statement (.instanceLocked ix) := fun _ _ e => (nomatch (e : none = some _))
theorem slewDone : Statement (.slewDone) := fun _ _ e => (nomatch (e : none = some _))
theorem realign : Statement (.realign) := fun _ _ e => (nomatch (e : none = some _))
theorem txStamp (p : Nat) (sec : Nat) (ns : Nat) (frac : Nat) : Statement (.txStamp p sec ns frac) := fun _ _ e => (nomatch (e : none = some _))
theorem entryW0Read (p : Nat) : Statement (.entryW0Read p) := fun _ _ e => (nomatch (e : none = some _))
theorem entryW3Read (seat : Nat) (p : Nat) : Statement (.entryW3Read seat p) := fun h _ e => Option.some.inj e ▸ seat_first h
theorem run : Statement (.run) := fun _ _ e => (nomatch (e : none = some _))
theorem renderStop : Statement (.renderStop) := fun _ _ e => (nomatch (e : none = some _))
theorem renderReset : Statement (.renderReset) := fun _ _ e => (nomatch (e : none = some _))
theorem traceStart (seat : Nat) (tag : Nat) : Statement (.traceStart seat tag) := fun h _ e => Option.some.inj e ▸ seat_first h
theorem traceStop (seat : Nat) (tag : Nat) : Statement (.traceStop seat tag) := fun h _ e => Option.some.inj e ▸ seat_first h
theorem matrixRequest (m : Nat) (t : Nat) (write : Bool) (unacked : Bool) (room : Bool) (waited : Nat) : Statement (.matrixRequest m t write unacked room waited) := fun _ _ e => (nomatch (e : none = some _))
theorem aged (m : Nat) (t : Nat) : Statement (.aged m t) := fun _ _ e => (nomatch (e : none = some _))
theorem nop (seat : Nat) (tag : Nat) : Statement (.nop seat tag) := fun h _ e => Option.some.inj e ▸ seat_first h
theorem identify (seat : Nat) (tag : Nat) : Statement (.identify seat tag) := fun h _ e => Option.some.inj e ▸ seat_first h
theorem sync (seat : Nat) (tag : Nat) : Statement (.sync seat tag) := fun h _ e => Option.some.inj e ▸ seat_first h
theorem snapshot (seat : Nat) (tag : Nat) : Statement (.snapshot seat tag) := fun h _ e => Option.some.inj e ▸ seat_first h
theorem restore (seat : Nat) (tag : Nat) : Statement (.restore seat tag) := fun h _ e => Option.some.inj e ▸ seat_first h
theorem offlineRender (seat : Nat) (tag : Nat) : Statement (.offlineRender seat tag) := fun h _ e => Option.some.inj e ▸ seat_first h
theorem cueLoad (seat : Nat) (tag : Nat) (data : List Byte) : Statement (.cueLoad seat tag data) := fun h _ e => Option.some.inj e ▸ seat_left h
theorem ownershipSet (seat : Nat) (tag : Nat) : Statement (.ownershipSet seat tag) := fun h _ e => Option.some.inj e ▸ seat_first h
theorem keySet (seat : Nat) (tag : Nat) : Statement (.keySet seat tag) := fun h _ e => Option.some.inj e ▸ seat_first h
theorem keyClear (seat : Nat) (tag : Nat) : Statement (.keyClear seat tag) := fun h _ e => Option.some.inj e ▸ seat_first h
theorem fwUpdate (seat : Nat) (tag : Nat) : Statement (.fwUpdate seat tag) := fun h _ e => Option.some.inj e ▸ seat_first h
theorem opSuspend (seat : Nat) (tag : Nat) : Statement (.opSuspend seat tag) := fun h _ e => Option.some.inj e ▸ seat_first h
theorem opResume (seat : Nat) (tag : Nat) : Statement (.opResume seat tag) := fun h _ e => Option.some.inj e ▸ seat_first h
theorem opCancel (seat : Nat) (tag : Nat) : Statement (.opCancel seat tag) := fun h _ e => Option.some.inj e ▸ seat_first h
theorem opQueryState (seat : Nat) (tag : Nat) : Statement (.opQueryState seat tag) := fun h _ e => Option.some.inj e ▸ seat_first h
theorem opQueryCopy (seat : Nat) (tag : Nat) : Statement (.opQueryCopy seat tag) := fun h _ e => Option.some.inj e ▸ seat_first h
theorem opQueryRelease (seat : Nat) (tag : Nat) : Statement (.opQueryRelease seat tag) := fun h _ e => Option.some.inj e ▸ seat_first h
theorem join (seat : Nat) (tag : Nat) : Statement (.join seat tag) := fun h _ e => Option.some.inj e ▸ seat_first h
theorem detach (seat : Nat) (tag : Nat) : Statement (.detach seat tag) := fun h _ e => Option.some.inj e ▸ seat_first h
theorem handover (seat : Nat) (tag : Nat) : Statement (.handover seat tag) := fun h _ e => Option.some.inj e ▸ seat_first h
theorem takeover (seat : Nat) (tag : Nat) : Statement (.takeover seat tag) := fun h _ e => Option.some.inj e ▸ seat_first h
theorem resync (seat : Nat) (tag : Nat) : Statement (.resync seat tag) := fun h _ e => Option.some.inj e ▸ seat_first h
theorem sqEnable (seat : Nat) (ix : Nat) (cq : Bool) (on : Bool) : Statement (.sqEnable seat ix cq on) := fun h _ e => Option.some.inj e ▸ seat_first h
theorem sqTail (seat : Nat) (ix : Nat) (v : Nat) : Statement (.sqTail seat ix v) := fun h _ e => Option.some.inj e ▸ seat_first h
theorem cqHead (seat : Nat) (ix : Nat) (v : Nat) : Statement (.cqHead seat ix v) := fun h _ e => Option.some.inj e ▸ seat_first h
theorem commandFetch (entry : List Word) (fault : Bool) : Statement (.commandFetch entry fault) := fun _ _ e => (nomatch (e : none = some _))
theorem completionWrite (seat : Nat) (ix : Nat) (fault : Bool) : Statement (.completionWrite seat ix fault) := fun h _ e => Option.some.inj e ▸ seat_first h
theorem bind (seat : Nat) (kind : Nat) (index : Nat) : Statement (.bind seat kind index) := fun h _ e => Option.some.inj e ▸ seat_only h
theorem seatReset (seat : Nat) : Statement (.seatReset seat) := fun h _ e => Option.some.inj e ▸ seat_only h
theorem functionLevelReset (link : Nat) (fn : Nat) : Statement (.functionLevelReset link fn) := fun _ _ e => (nomatch (e : none = some _))
theorem pcieLinkDown (link : Nat) (perst : Bool) : Statement (.pcieLinkDown link perst) := fun _ _ e => (nomatch (e : none = some _))
theorem stagedoorSilence (seat : Nat) : Statement (.stagedoorSilence seat) := fun h _ e => Option.some.inj e ▸ seat_only h
theorem graceExpire (seat : Nat) : Statement (.graceExpire seat) := fun h _ e => Option.some.inj e ▸ seat_only h
theorem pcieLinkUp (link : Nat) : Statement (.pcieLinkUp link) := fun _ _ e => (nomatch (e : none = some _))
theorem uploadTimeout (seat : Nat) (tag : Nat) : Statement (.uploadTimeout seat tag) := fun h _ e => Option.some.inj e ▸ seat_first h
theorem stagedoorRead (p : Nat) (ip : Nat) (udp : Nat) (msg : List Byte) : Statement (.stagedoorRead p ip udp msg) := fun _ _ e => (nomatch (e : none = some _))
theorem stagedoorWrite (p : Nat) (ip : Nat) (udp : Nat) (msg : List Byte) : Statement (.stagedoorWrite p ip udp msg) := fun _ _ e => (nomatch (e : none = some _))
theorem stagedoorSubmit (p : Nat) (ip : Nat) (udp : Nat) (msg : List Byte) : Statement (.stagedoorSubmit p ip udp msg) := fun _ _ e => (nomatch (e : none = some _))
theorem keepalive (p : Nat) (ip : Nat) (udp : Nat) (msg : List Byte) : Statement (.keepalive p ip udp msg) := fun _ _ e => (nomatch (e : none = some _))
theorem stagedoorResend (seat : Nat) : Statement (.stagedoorResend seat) := fun h _ e => Option.some.inj e ▸ seat_only h
theorem keepaliveSend (seat : Nat) : Statement (.keepaliveSend seat) := fun h _ e => Option.some.inj e ▸ seat_only h
theorem prompterRun (n : Nat) : Statement (.prompterRun n) := fun h _ e => Option.some.inj e ▸ seat_only h
theorem cueHalt (n : Nat) : Statement (.cueHalt n) := fun h _ e => Option.some.inj e ▸ seat_only h
theorem waitTime (n : Nat) : Statement (.waitTime n) := fun h _ e => Option.some.inj e ▸ seat_only h
theorem waitRsi (n : Nat) : Statement (.waitRsi n) := fun h _ e => Option.some.inj e ▸ seat_only h
theorem waitTc (n : Nat) : Statement (.waitTc n) := fun h _ e => Option.some.inj e ▸ seat_only h
theorem waitGpio (n : Nat) : Statement (.waitGpio n) := fun h _ e => Option.some.inj e ▸ seat_only h
theorem waitFlag (n : Nat) : Statement (.waitFlag n) := fun h _ e => Option.some.inj e ▸ seat_only h
theorem strobe (n : Nat) : Statement (.strobe n) := fun h _ e => Option.some.inj e ▸ seat_only h
theorem cueWrite (n : Nat) : Statement (.cueWrite n) := fun h _ e => Option.some.inj e ▸ seat_only h
theorem cueMotionSet (n : Nat) : Statement (.cueMotionSet n) := fun h _ e => Option.some.inj e ▸ seat_only h
theorem cueMotionClear (n : Nat) : Statement (.cueMotionClear n) := fun h _ e => Option.some.inj e ▸ seat_only h
theorem signalHost (n : Nat) : Statement (.signalHost n) := fun h _ e => Option.some.inj e ▸ seat_only h
theorem signalFlag (n : Nat) : Statement (.signalFlag n) := fun h _ e => Option.some.inj e ▸ seat_only h
theorem branchIf (n : Nat) : Statement (.branchIf n) := fun h _ e => Option.some.inj e ▸ seat_only h
theorem cueJump (n : Nat) : Statement (.cueJump n) := fun h _ e => Option.some.inj e ▸ seat_only h
theorem call (n : Nat) : Statement (.call n) := fun h _ e => Option.some.inj e ▸ seat_only h
theorem ret (n : Nat) : Statement (.ret n) := fun h _ e => Option.some.inj e ▸ seat_only h
theorem cueLoop (n : Nat) : Statement (.cueLoop n) := fun h _ e => Option.some.inj e ▸ seat_only h
theorem cueLoopEnd (n : Nat) : Statement (.cueLoopEnd n) := fun h _ e => Option.some.inj e ▸ seat_only h
theorem prompterStart (n : Nat) : Statement (.prompterStart n) := fun h _ e => Option.some.inj e ▸ seat_only h
theorem prompterStop (n : Nat) : Statement (.prompterStop n) := fun h _ e => Option.some.inj e ▸ seat_only h
theorem cueFlagsSet (n : Nat) (bits : Nat) : Statement (.cueFlagsSet n bits) := fun h _ e => Option.some.inj e ▸ seat_only h
theorem cueFlagsClr (n : Nat) (bits : Nat) : Statement (.cueFlagsClr n bits) := fun h _ e => Option.some.inj e ▸ seat_only h
theorem gpioChange (k : Nat) (level : Bool) : Statement (.gpioChange k level) := fun _ _ e => (nomatch (e : none = some _))
theorem debouncedEdge (k : Nat) : Statement (.debouncedEdge k) := fun _ _ e => (nomatch (e : none = some _))
theorem tcWord (label : Nat) (stamp : Nat) (rate : Nat) (reverse : Bool) (user : Nat) : Statement (.tcWord label stamp rate reverse user) := fun _ _ e => (nomatch (e : none = some _))
theorem tcLoss : Statement (.tcLoss) := fun _ _ e => (nomatch (e : none = some _))
theorem sourceChange (src : Nat) : Statement (.sourceChange src) := fun _ _ e => (nomatch (e : none = some _))
theorem holdoffExpire (seat : Nat) (v : Nat) : Statement (.holdoffExpire seat v) := fun h _ e => Option.some.inj e ▸ seat_first h
theorem delivery (seat : Nat) (v : Nat) : Statement (.delivery seat v) := fun h _ e => Option.some.inj e ▸ seat_first h
theorem eoi (seat : Nat) (src : Nat) : Statement (.eoi seat src) := fun h _ e => Option.some.inj e ▸ seat_first h
theorem gate (seat : Nat) (on : Bool) : Statement (.gate seat on) := fun h _ e => Option.some.inj e ▸ seat_only h
theorem sleepReq (seat : Nat) : Statement (.sleepReq seat) := fun h _ e => Option.some.inj e ▸ seat_only h
theorem sleepAck (seat : Nat) (expired : Bool) : Statement (.sleepAck seat expired) := fun h _ e => Option.some.inj e ▸ seat_only h
theorem sleepEnd (seat : Nat) : Statement (.sleepEnd seat) := fun h _ e => Option.some.inj e ▸ seat_only h
theorem clkFail : Statement (.clkFail) := fun _ _ e => (nomatch (e : none = some _))
theorem sarConversion (c : Nat) (code : Nat) : Statement (.sarConversion c code) := fun _ _ e => (nomatch (e : none = some _))
theorem insert (j : Nat) : Statement (.insert j) := fun _ _ e => (nomatch (e : none = some _))
theorem accessory (j : Nat) : Statement (.accessory j) := fun _ _ e => (nomatch (e : none = some _))
theorem remove (j : Nat) : Statement (.remove j) := fun _ _ e => (nomatch (e : none = some _))
theorem press (j : Nat) : Statement (.press j) := fun _ _ e => (nomatch (e : none = some _))
theorem buttonRelease (j : Nat) : Statement (.buttonRelease j) := fun _ _ e => (nomatch (e : none = some _))
theorem bmcWrite (off : Nat) (words : List Word) : Statement (.bmcWrite off words) := fun _ _ e => (nomatch (e : none = some _))
theorem bmcRead (off : Nat) (n : Nat) : Statement (.bmcRead off n) := fun _ _ e => (nomatch (e : none = some _))
theorem wakePulse : Statement (.wakePulse) := fun _ _ e => (nomatch (e : none = some _))
theorem pwrTargetStandby : Statement (.pwrTargetStandby) := fun _ _ e => (nomatch (e : none = some _))
theorem pwrTargetDormant : Statement (.pwrTargetDormant) := fun _ _ e => (nomatch (e : none = some _))
theorem pwrTargetActive : Statement (.pwrTargetActive) := fun _ _ e => (nomatch (e : none = some _))
theorem wakeIn (low : Bool) : Statement (.wakeIn low) := fun _ _ e => (nomatch (e : none = some _))
theorem moduleWake (cause : Nat) : Statement (.moduleWake cause) := fun _ _ e => (nomatch (e : none = some _))
theorem greenroomGpioEdge (k : Nat) : Statement (.greenroomGpioEdge k) := fun _ _ e => (nomatch (e : none = some _))
theorem mode (mode : Nat) : Statement (.mode mode) := fun _ _ e => (nomatch (e : none = some _))
theorem claimCycle (claim : Nat) (serial : Nat) : Statement (.claimCycle claim serial) := fun _ _ e => (nomatch (e : none = some _))
theorem claimSeenTimeout : Statement (.claimSeenTimeout) := fun _ _ e => (nomatch (e : none = some _))
theorem peerpresChange (low : Bool) : Statement (.peerpresChange low) := fun _ _ e => (nomatch (e : none = some _))
theorem ndodomUp (lanes : Nat) (latency : Nat) : Statement (.ndodomUp lanes latency) := fun _ _ e => (nomatch (e : none = some _))
theorem ndodomDown : Statement (.ndodomDown) := fun _ _ e => (nomatch (e : none = some _))
theorem laneLost (lane : Nat) : Statement (.laneLost lane) := fun _ _ e => (nomatch (e : none = some _))
theorem ndodomFrame (f : PeerFrame) : Statement (.ndodomFrame f) := fun _ _ e => (nomatch (e : none = some _))
theorem heartbeatSend : Statement (.heartbeatSend) := fun _ _ e => (nomatch (e : none = some _))
theorem heartbeatCheck : Statement (.heartbeatCheck) := fun _ _ e => (nomatch (e : none = some _))
theorem netHbRx (pair : Nat) (serial : Nat) : Statement (.netHbRx pair serial) := fun _ _ e => (nomatch (e : none = some _))
theorem netHbLost : Statement (.netHbLost) := fun _ _ e => (nomatch (e : none = some _))
theorem autoTakeover : Statement (.autoTakeover) := fun _ _ e => (nomatch (e : none = some _))
theorem egressOpen : Statement (.egressOpen) := fun _ _ e => (nomatch (e : none = some _))
theorem coldTakeoverRestore : Statement (.coldTakeoverRestore) := fun _ _ e => (nomatch (e : none = some _))
theorem holdings (b : Nat) : Statement (.holdings b) := fun _ _ e => (nomatch (e : none = some _))
theorem departureReport : Statement (.departureReport) := fun _ _ e => (nomatch (e : none = some _))
theorem outputCrcCompare (b : Nat) : Statement (.outputCrcCompare b) := fun _ _ e => (nomatch (e : none = some _))
theorem snapPeriod : Statement (.snapPeriod) := fun _ _ e => (nomatch (e : none = some _))
theorem replayCaughtUp : Statement (.replayCaughtUp) := fun _ _ e => (nomatch (e : none = some _))
theorem joined : Statement (.joined) := fun _ _ e => (nomatch (e : none = some _))
theorem handoverBoundary : Statement (.handoverBoundary) := fun _ _ e => (nomatch (e : none = some _))
theorem refresh : Statement (.refresh) := fun _ _ e => (nomatch (e : none = some _))
theorem zqLatch (ch : Nat) : Statement (.zqLatch ch) := fun _ _ e => (nomatch (e : none = some _))
theorem wckMeasure (ch : Nat) (drift : Int) : Statement (.wckMeasure ch drift) := fun _ _ e => (nomatch (e : none = some _))
theorem rowActivate : Statement (.rowActivate) := fun _ _ e => (nomatch (e : none = some _))
theorem patrolScrub (addr : Nat) (err : Nat) (region : Nat) (unit : Nat) (pass : Bool) : Statement (.patrolScrub addr err region unit pass) := fun _ _ e => (nomatch (e : none = some _))
theorem sramScrub (part : Nat) (err : Nat) (unit : Nat) : Statement (.sramScrub part err unit) := fun _ _ e => (nomatch (e : none = some _))
theorem tempSample (temps : List Int) : Statement (.tempSample temps) := fun _ _ e => (nomatch (e : none = some _))
theorem thresholdClear (level : Nat) : Statement (.thresholdClear level) := fun _ _ e => (nomatch (e : none = some _))
theorem thermalTrip : Statement (.thermalTrip) := fun _ _ e => (nomatch (e : none = some _))
theorem vmonSample (mv : List Nat) : Statement (.vmonSample mv) := fun _ _ e => (nomatch (e : none = some _))
theorem roSample (counts : List Nat) : Statement (.roSample counts) := fun _ _ e => (nomatch (e : none = some _))
theorem avsRecompute (want : Nat) : Statement (.avsRecompute want) := fun _ _ e => (nomatch (e : none = some _))
theorem pmbusRequestDone (ok : Bool) : Statement (.pmbusRequestDone ok) := fun _ _ e => (nomatch (e : none = some _))
theorem avs (data : Word) : Statement (.avs data) := fun _ _ e => (nomatch (e : none = some _))
theorem powerOnReset (bootsel : Nat) (twinid : Bool) : Statement (.powerOnReset bootsel twinid) := fun _ _ e => (nomatch (e : none = some _))
theorem resetBLow : Statement (.resetBLow) := fun _ _ e => (nomatch (e : none = some _))
theorem warm : Statement (.warm) := fun _ _ e => (nomatch (e : none = some _))
theorem watchdogExpire : Statement (.watchdogExpire) := fun _ _ e => (nomatch (e : none = some _))
theorem commitRollback : Statement (.commitRollback) := fun _ _ e => (nomatch (e : none = some _))
theorem pushGo : Statement (.pushGo) := fun _ _ e => (nomatch (e : none = some _))
theorem trainingDone (ok : Bool) (full : Bool) : Statement (.trainingDone ok full) := fun _ _ e => (nomatch (e : none = some _))
theorem imageCheck : Statement (.imageCheck) := fun _ _ e => (nomatch (e : none = some _))
theorem firmwareUp (ms : Nat) (good : Bool) : Statement (.firmwareUp ms good) := fun _ _ e => (nomatch (e : none = some _))
theorem defcfgWrite : Statement (.defcfgWrite) := fun _ _ e => (nomatch (e : none = some _))
theorem defcfgStrobe : Statement (.defcfgStrobe) := fun _ _ e => (nomatch (e : none = some _))
theorem defcfgCommand : Statement (.defcfgCommand) := fun _ _ e => (nomatch (e : none = some _))
theorem waitLock (expired : Bool) : Statement (.waitLock expired) := fun _ _ e => (nomatch (e : none = some _))
theorem defcfgEnd : Statement (.defcfgEnd) := fun _ _ e => (nomatch (e : none = some _))
theorem refclkLoss : Statement (.refclkLoss) := fun _ _ e => (nomatch (e : none = some _))
theorem laneBack : Statement (.laneBack) := fun _ _ e => (nomatch (e : none = some _))
theorem crystalOscillates : Statement (.crystalOscillates) := fun _ _ e => (nomatch (e : none = some _))
theorem standbyEntered : Statement (.standbyEntered) := fun _ _ e => (nomatch (e : none = some _))
theorem joinTimeout : Statement (.joinTimeout) := fun _ _ e => (nomatch (e : none = some _))
theorem ptpMessageSend (ix : Nat) (kind : Nat) : Statement (.ptpMessageSend ix kind) := fun _ _ e => (nomatch (e : none = some _))

end Sys2Proof.Laws.Operands
end

