-- ==== Sys2Proof/Tests/Slice0.lean ====
section
/-! SUPPORT. The model's own tests: the terms that WellFormed refuses, values of the spec's own examples, and for every
statement with hypotheses a state and operands that meet them, clause by clause.
The clauses of MemoryAndHealthMonitors and ResetBootAndDefaultConfiguration whose hypotheses name Config.roTarget or an
image that checks good have no witness here: no proof can see the value of Config.roTarget or Config.keyHash. -/

namespace Sys2Proof.Tests

-- One theorem at a time: each thread of a parallel check takes a large stack.
set_option Elab.async false

open Sys2Proof Sys2Proof.Machine

/-! Small states -/

/-- Both views of some fields at some values, all else as in `s`. -/
def mk (l : List (Blk × Fld × Nat)) (s : State := {}) : State := l.foldl (fun s e => s.setBoth e.1 e.2.1 e.2.2) s

/-- A render that runs. -/
def run : State := mk [(.render, Reg.Render.STATE, 1)]

/-- A command of a seat, tag 7, with its parameters. -/
def cmd (op : Nat) (params : List Nat := []) (seat : Nat := 0) (flags : Nat := 0) : Cmd :=
  { seat := seat, sq := 0, tag := 7, opcode := op, word0 := BitVec.ofNat 32 (op + 256 * flags), context := 0
    params := params.map (BitVec.ofNat 32) }

/-- A job in service. -/
def served (j : Job) (s : State := {}) : State :=
  { s with sched := { s.sched with service := [{ engine := 0x50, cls := 2, job := j }] } }

/-- Commands in flight of one seat, whose COMMAND job is in service. -/
def flying (cs : List Cmd) (s : State := {}) (seat : Nat := 0) : State :=
  served { kind := .command, flow := 0x3800 + seat, block := 0 } { s with seats := [(seat, { cmds := cs })] }

/-! Ill-formed terms, one for each check of WellFormed -/

theorem test_refuses_writer : (Instr.registerWrite (.seat 8) 0 0 true).wellFormed = false := by decide
theorem test_refuses_address : (Instr.lowWordRead (.prompter 0) (2 ^ 32)).wellFormed = false := by decide
theorem test_refuses_block : (Instr.mirrorRefresh (.out 512) true).wellFormed = false := by decide
theorem test_refuses_seat : (Instr.updStrobe 8 1).wellFormed = false := by decide
theorem test_refuses_tag : (Instr.nop 0 65536).wellFormed = false := by decide
theorem test_refuses_object : (Instr.hold 1024).wellFormed = false := by decide
theorem test_refuses_output : (Instr.shapePreJob 512 0).wellFormed = false := by decide
theorem test_refuses_bus : (Instr.busJob 64 0).wellFormed = false := by decide
theorem test_refuses_stream : (Instr.stalled 256).wellFormed = false := by decide
theorem test_refuses_route : (Instr.routeFadeEnd 2048).wellFormed = false := by decide
theorem test_refuses_eth : (Instr.linkUp 4).wellFormed = false := by decide
theorem test_refuses_pc : (Instr.classifierDrop 0 256 0 (List.replicate 60 0)).wellFormed = false := by decide
theorem test_refuses_frame : (Instr.classifierDrop 0 0 0 []).wellFormed = false := by decide
theorem test_refuses_queue : (Instr.pauseExpire 0 8).wellFormed = false := by decide
theorem test_refuses_chain : (Instr.switched 56).wellFormed = false := by decide
theorem test_refuses_tap : (Instr.sarConversion 8 0).wellFormed = false := by decide
theorem test_refuses_channel : (Instr.recover 16).wellFormed = false := by decide
theorem test_refuses_port : (Instr.stop (.tdmRx 16)).wellFormed = false := by decide
theorem test_refuses_aes : (Instr.audio 8).wellFormed = false := by decide
theorem test_refuses_status : (Instr.csBlock 0 true [0]).wellFormed = false := by decide
theorem test_refuses_jack : (Instr.press 2).wellFormed = false := by decide
theorem test_refuses_pin : (Instr.debouncedEdge 16).wellFormed = false := by decide
theorem test_refuses_instance : (Instr.coasting 2).wellFormed = false := by decide
theorem test_refuses_ring : (Instr.sqTail 0 4 0).wellFormed = false := by decide
theorem test_refuses_source : (Instr.sourceChange 2048).wellFormed = false := by decide
theorem test_refuses_vector : (Instr.delivery 0 64).wellFormed = false := by decide
theorem test_refuses_entry : (Instr.commandFetch [0] false).wellFormed = false := by decide
theorem test_refuses_link : (Instr.pcieLinkUp 3).wellFormed = false := by decide
theorem test_refuses_temps : (Instr.tempSample []).wellFormed = false := by decide
theorem test_accepts_a_write : (Instr.registerWrite (.seat 7) 0x100408 5 true).wellFormed = true := by decide

/-! Values of the spec -/

/-- The example of R94: r = 10, az = 30 degrees, el = 0. -/
theorem test_spherical_example : spherical (10 * 65536) (30 * 65536) 0 = ⟨0x50000, 0x8A906, 0⟩ := by decide +kernel

/-- No row of the table has bits, so no word spells a command. -/
theorem test_no_word_spells_a_command : decodeTableWord 32 0 = none := by decide

/-- RESET.CAUSE reads POWER_ON after a power-on reset (R544). -/
theorem test_reset_cause : State.reset.fld .resetPage Reg.Reset.CAUSE = 1 := by decide +kernel

/-! Steps, reset, the register window and update groups -/

theorem witness_StepRunsTheFrontCommand :
    (∃ (c : Instr) (s : State), s.pending = [c]) ∧ ∃ s : State, s.pending = [] :=
  ⟨⟨.run, { pending := [.run] }, rfl⟩, ⟨{}, rfl⟩⟩

theorem witness_EveryStepKeepsTheStatusRegisters :
    ∃ s t : State, Reports s ∧ s.pending ≠ [] ∧ step s = .next t :=
  ⟨{ State.reset with pending := [.sampleStrobe] }, _, by unfold Reports; decide +kernel, by decide, rfl⟩

theorem witness_EveryRunIsSafe : ∃ s : State, Reports s := ⟨State.reset, by unfold Reports; decide +kernel⟩

theorem witness_StagedObjectGainWaitsForItsCommit :
    ∃ (s : State) (n : Nat), n < s.model.objects ∧ s.pushMode = false ∧ s.isUnderstudy = false ∧ s.groupOf (.obj n) ≠ 0xFF :=
  ⟨{}, 1023, by decide +kernel⟩

theorem witness_RefusedWriteChangesOnlyTheErrorLog :
    ∃ (s : State) (w : Writer) (addr : Nat) (data : Word), (s.tryWrite w addr data true).2 = false :=
  ⟨{}, .seat 3, wordAt (.obj 5) Reg.Obj.GAIN, 1, by decide +kernel⟩

theorem witness_NonOwnerCannotWriteAnObject :
    ∃ (s : State) (n seat : Nat), n < s.model.objects ∧ seat ≠ 0 ∧ seat < s.model.seats ∧ s.isUnderstudy = false ∧
      s.ownerOf (.obj n) = ((s.ownerOf (.obj n)).1, false) ∧ (s.ownerOf (.obj n)).1 ≠ seat ∧
      s.bit (.objPage (n / 8)) Reg.Hdr.LOCK = false ∧ s.bit (.objPage (n / 8)) Reg.Hdr.ERR_VALID = false :=
  ⟨{}, 1023, 7, by decide +kernel⟩

theorem witness_ReadsAnswerLatchAndClear :
    (∃ (s : State) (seat addr : Nat), seat < s.model.seats ∧ 4 ∣ addr ∧ Map.get [] seat s.fab.latch = []) ∧
    (∃ (s : State) (seat addr : Nat) (b : Blk), seat < s.model.seats ∧ 4 ∣ addr ∧ s.resolve seat addr = .header b 0x00C ∧
      Blk.hasMirror b = false) :=
  ⟨⟨{}, 7, 0x100, by decide +kernel⟩, ⟨{}, 7, Blk.render.base + 0x00C, .render, by decide +kernel⟩⟩

theorem witness_MirrorsLostWritesAndBlockResets :
    (∃ s : State, s.fab.posted = [] ∧ s.fab.resets = []) ∧
    (∃ (s : State) (b : Blk) (off : Nat) (data : Word) (seat tick : Nat) (rest : List Posted),
      s.fab.posted = { blk := b, op := .write off data, seat := seat, tick := tick } :: rest ∧ tick + s.msTicks ≤ s.render.tick ∧
      s.bit b Reg.Hdr.ERR_VALID = false) ∧
    (∃ (s : State) (b : Blk), renderDomain b = true ∧ b.page = b ∧ b.present s.model = true ∧ s.clocked = true ∧
      s.isUnderstudy = false ∧ s.fab.resets = []) ∧
    (∃ (s : State) (i : Nat), i < 2 ∧ s.isUnderstudy = false ∧ s.fab.held = []) :=
  ⟨⟨{}, by decide +kernel⟩,
   ⟨{ fab := { posted := [{ blk := .jack, op := .write 0x40 1, seat := 0 }] }, render := { tick := 48 } }, .jack, 0x40, 1, 0, 0, [],
     by decide +kernel⟩,
   ⟨run, .pan, by decide +kernel⟩, ⟨{}, 1, by decide +kernel⟩⟩

/-- A commit of one object that no group refuses. -/
def one (kinds : List (Nat × Nat)) (blks : List Blk) : Commit :=
  { serial := 9, seat := 1, by_ := .seat, mask := 1, at_ := 100, kinds := kinds, blks := blks, vals := [], wasPending := blks }

theorem witness_StrobeCapturesOrIsRefused :
    ∃ s t : State, s.isUnderstudy = false ∧ t.isUnderstudy = false ∧
      (∀ g, g < 32 → (1 : Nat).testBit g = true → s.mayUseGroup 0 g = true) ∧
      (¬ ∃ c ∈ s.fab.commits, c.applied = false ∧ c.mask &&& 1 ≠ 0) ∧
      (∀ g, g < 32 → (1 : Nat).testBit g = true → t.mayUseGroup 0 g = true) ∧
      (∃ c ∈ t.fab.commits, c.applied = false ∧ c.mask &&& 1 ≠ 0) ∧
      (¬ ∀ g, g < 32 → (1 : Nat).testBit g = true → s.mayUseGroup 3 g = true) :=
  ⟨{}, { fab := { commits := [one [(0, 1)] []] } }, by decide +kernel⟩

theorem witness_PrepareFixesTheApplySample :
    (∃ (s : State) (c : Commit), s.commitOf 9 = some c ∧ c.prepared = false ∧ c.applied = false ∧ c.by_ = .seat ∧
      c.next = false ∧ c.timed = false ∧ c.seat < 8 ∧ s.lockPri = false ∧ s.twin.prepared = [] ∧ s.failures c = [] ∧ s.stopped = true) ∧
    (∃ (s : State) (c : Commit), s.commitOf 9 = some c ∧ c.prepared = false ∧ c.applied = false ∧ c.by_ = .seat ∧
      c.next = false ∧ c.timed = false ∧ c.seat < 8 ∧ s.lockPri = false ∧ s.twin.prepared = [] ∧ s.failures c = [] ∧ s.stopped = false ∧
      c.newBlock s = false ∧ (0, 0) ∈ c.kinds ∧ c.at_ < s.render.rsi + 1) ∧
    (∃ (s : State) (c : Commit) (bad : Bad), s.commitOf 9 = some c ∧ c.prepared = false ∧ c.applied = false ∧ c.by_ = .seat ∧
      c.next = false ∧ c.timed = false ∧ c.seat < 8 ∧ s.lockPri = false ∧ s.twin.prepared = [] ∧ s.failures c = [bad] ∧ bad.absent = false ∧
      bad.reason < 256 ∧ bad.page < 4096) := by
  refine ⟨⟨{ fab := { commits := [one [(0, 1)] [.pan]] } }, _, rfl, ?_⟩,
    ⟨{ run with render := { run.render with rsi := 500 }, fab := { run.fab with commits := [one [(0, 0)] [.pan]] } }, _, rfl, ?_⟩,
    ⟨{ fab := { commits := [{ one [(0, 1)] [.layout] with vals := regPut [] Blk.layout.base Reg.Layout.SEL 3 }] } }, _,
      ⟨97, 1, false⟩, rfl, ?_⟩⟩ <;> decide +kernel
/-! Applying commits, the block, and the run of the render -/

/-- A state with one commit, its strobe the last of seat 1. -/
def held (c : Commit) (s : State := {}) : State :=
  { s with fab := { s.fab with commits := [c], lastStrobe := [(1, 9)] } }

theorem witness_CommitApplyTakesTheCapturedValues :
    (∃ (s : State) (c : Commit), s.commitOf 9 = some c ∧ c.prepared = true ∧ c.applied = false ∧ c.blks = [.obj 5] ∧
      c.by_ = .seat ∧ c.seat < 8 ∧ c.waiting = [] ∧ c.lost = [] ∧ c.peerLost = none ∧
      regGet c.vals (Blk.obj 5).base Reg.Obj.MOTION_CMD = 0 ∧ s.stopped = true ∧ Map.get 0 c.seat s.fab.lastStrobe = 9) ∧
    (∃ (s : State) (c : Commit), s.commitOf 9 = some c ∧ c.prepared = true ∧ c.applied = false ∧ c.blks = [.obj 5] ∧
      c.by_ = .seat ∧ c.seat < 8 ∧ c.waiting = [] ∧ c.lost = [] ∧ c.peerLost = none ∧
      regGet c.vals (Blk.obj 5).base Reg.Obj.MOTION_CMD = 0 ∧ s.stopped = false ∧ s.render.rsi < c.applyAt) := by
  refine ⟨⟨held { one [(0, 1)] [.obj 5] with prepared := true }, _, rfl, ?_⟩,
    ⟨held { one [(0, 1)] [.obj 5] with prepared := true, applyAt := 1 } run, _, rfl, ?_⟩⟩ <;> decide +kernel

theorem witness_SlowUnitsApplyOrAreHeld :
    ∃ (s : State) (c : Commit), s.commitOf 9 = some c ∧ c.applied = true ∧ c.waiting = [.greenroom] ∧ c.by_ = .seat ∧
      c.seat < 8 ∧ c.lost = [] ∧ c.peerLost = none ∧ Map.get 0 c.seat s.fab.lastStrobe = 9 ∧
      c.tick + s.blockSize ≤ s.render.tick := by
  refine ⟨held { one [(0, 1)] [.greenroom] with prepared := true, applied := true, waiting := [.greenroom] }
    { render := { tick := 16 } }, _, rfl, ?_⟩
  decide +kernel

theorem witness_DiscardAndCancel :
    (∃ (s : State) (n : Nat), n < s.model.objects ∧ s.groupOf (.obj n) < 32 ∧ (1 : Nat).testBit (s.groupOf (.obj n)) = true) ∧
    (∃ (s : State) (c : Commit), c ∈ s.fab.commits ∧ c.applied = false ∧ s.mayUseGroup 0 0 = true ∧ c.mask.testBit 0 = true ∧
      c.prepared = true ∧ s.stopped = false ∧ s.render.rsi + 1 < c.applyAt) ∧
    (∃ (s : State) (c : Commit), c ∈ s.fab.commits ∧ c.mask &&& 2 = 0) :=
  ⟨⟨{}, 0, by decide +kernel⟩,
   ⟨held { one [(0, 1)] [] with prepared := true, applyAt := 2 } run, { one [(0, 1)] [] with prepared := true, applyAt := 2 },
     by decide +kernel⟩,
   ⟨held (one [(0, 1)] []), one [(0, 1)] [], by decide +kernel⟩⟩

theorem witness_StrobeReleaseAndDeadline :
    (∃ s : State, s.dead = false ∧ s.lowPower = false ∧ s.render.starting = false ∧ s.clocked = true ∧ s.replaying = false ∧
      (s.render.rsi + 1) % s.blockSize ≠ 0) ∧
    (∃ s : State, s.dead = false ∧ s.lowPower = false ∧ s.render.starting = false ∧ s.stopped = true) ∧
    (∃ s : State, s.running = true ∧ s.dead = false ∧ s.replaying = false ∧ s.render.block + 0 < s.render.rsi / s.blockSize ∧
      s.render.released = false) ∧
    (∃ s : State, s.running = true ∧ s.dead = false ∧ s.replaying = false ∧
      ¬ s.render.block + 1 < s.render.rsi / s.blockSize ∧ s.render.released = true ∧ s.render.late = false) ∧
    (∃ s : State, s.running = true ∧ s.dead = false ∧ s.render.released = true ∧
      s.blockStart (s.render.block + 2) ≤ s.render.rsi ∧ s.render.late = false) ∧
    (∃ s : State, s.running = true ∧ s.dead = false ∧ s.render.released = true ∧ s.render.late = true) :=
  ⟨⟨run, by decide +kernel⟩, ⟨{}, by decide +kernel⟩, ⟨{ run with render := { rsi := 16 } }, by decide +kernel⟩,
   ⟨{ run with render := { rsi := 16, released := true } }, by decide +kernel⟩,
   ⟨{ run with render := { rsi := 32, released := true } }, by decide +kernel⟩,
   ⟨{ run with render := { released := true, late := true } }, by decide +kernel⟩⟩

theorem witness_RunStopAndReset :
    (∃ s : State, s.clocked = false ∧ s.lowPower = false ∧ s.dead = false ∧ s.green.entry = none) ∧
    (∃ s : State, s.clocked = true) ∧
    (∃ s : State, s.clocked = true ∨ s.time.switch = none) ∧
    (∃ s : State, s.stopped = true ∧ s.time.switch = some (1, true)) := by
  refine ⟨⟨{}, ?_⟩, ⟨run, ?_⟩, ⟨{}, ?_⟩, ⟨{ time := { switch := some (1, true) } }, ?_⟩⟩ <;> decide +kernel

/-! Motion -/

/-- An instruction word of a motion or a cue program. -/
def ins (op nops mode imm : Nat) : Nat := op * 2 ^ 26 + nops * 2 ^ 22 + mode * 2 ^ 16 + imm

/-- Object 5 runs a program that stands at word 64 of a region of 64 words. -/
def trap (ws : List Nat) (c : Ctx := {}) : State :=
  { motion := { mem := ws.zipIdx.map (fun e => (64 + e.2, BitVec.ofNat 32 e.1)), regions := [{ base := 64, words := 64, seat := 0 }] }
    objs := [(5, { ctx := { c with state := .running, pc := 64, entry := 64 } })] }

theorem witness_MotionSegmentsBegin :
    TrapAt (trap [ins 1 1 0 0, 65536]) 5 (.hold 65536) 2 ∧
    TrapAt (trap [ins 2 4 1 0, 1, 2, 3, 65536]) 5 (.move ⟨1, 2, 3⟩ 65536 true) 5 ∧
    TrapAt (trap [ins 3 10 0 0, 1, 2, 3, 4, 5, 6, 7, 8, 9, 65536]) 5 (.curve ⟨1, 2, 3⟩ ⟨4, 5, 6⟩ ⟨7, 8, 9⟩ 65536) 11 ∧
    TrapAt (trap [ins 4 6 2 0, 1, 2, 3, 4, 5, 65536]) 5 (.orbit 2 ⟨1, 2, 3⟩ 4 5 65536) 7 := by
  unfold TrapAt; and_intros <;> decide +kernel

theorem witness_WaitsHaltJitterAndParameters :
    TrapAt (trap [ins 6 2 0 0, 7, 1]) 5 (.waitRsi (2 ^ 32 + 7)) 3 ∧
    TrapAt (trap [ins 6 3 1 0, 1, 0, 5]) 5 (.waitTai 1000000005) 4 ∧
    TrapAt (trap [ins 7 0 1 7]) 5 (.waitFlag 7 true) 1 ∧
    TrapAt (trap [ins 0 0 0 0]) 5 (.halt false) 1 ∧ TrapAt (trap [ins 0 0 1 0]) 5 (.halt true) 1 ∧
    TrapAt (trap [ins 5 4 0 0, 0, 0, 0, 0x28F]) 5 (.jitter {} 0x28F) 5 ∧
    ((trap [ins 5 4 0 0, 0, 0, 0, 0x28F]).obj 5).ctx.jitter.on = false ∧
    TrapAt (trap [ins 5 4 0 0, 0, 0, 0, 0x28F] { jitter := { on := true } }) 5 (.jitter {} 0x28F) 5 ∧
    ((trap [ins 5 4 0 0, 0, 0, 0, 0x28F] { jitter := { on := true } }).obj 5).ctx.jitter.on = true ∧
    TrapAt (trap [ins 5 4 0 0, 1, 0, 0, 0x28F]) 5 (.jitter ⟨1, 0, 0⟩ 0x28F) 5 ∧
    TrapAt (trap [ins 8 1 0 0, 0]) 5 (.seed 0) 2 ∧ TrapAt (trap [ins 8 3 0 1, 1, 2, 3]) 5 (.origin ⟨1, 2, 3⟩) 4 ∧
    TrapAt (trap [ins 8 1 0 2, 0x1000000]) 5 (.timescale 0x1000000) 2 := by
  unfold TrapAt; and_intros <;> decide +kernel

/-- Four loops open. -/
def deep : Ctx := { loops := [(65, 1), (65, 1), (65, 1), (65, 1)] }

/-- Does a word lie in the region of object 5's program? -/
def in_ (s : State) (a : Int) : Bool := inRegion (s.motion.regionOf (s.obj 5).ctx.entry) a

theorem witness_LoopsJumpsAndEvents :
    TrapAt (trap [ins 9 0 0 0]) 5 (.loop 0) 1 ∧ ((trap [ins 9 0 0 0]).obj 5).ctx.loops.length < 4 ∧
    TrapAt (trap [ins 9 0 0 2] deep) 5 (.loop 2) 1 ∧ 4 ≤ ((trap [ins 9 0 0 2] deep).obj 5).ctx.loops.length ∧
    TrapAt (trap [ins 10 0 0 0] { loops := [(64, 0)] }) 5 .endl 1 ∧ in_ (trap [ins 10 0 0 0]) 64 = true ∧
    TrapAt (trap [ins 10 0 0 0] { loops := [(127, 2)] }) 5 .endl 1 ∧ in_ (trap [ins 10 0 0 0]) 127 = true ∧
    TrapAt (trap [ins 10 0 0 0] { loops := [(64, 1)] }) 5 .endl 1 ∧
    TrapAt (trap [ins 10 0 0 0]) 5 .endl 1 ∧ ((trap [ins 10 0 0 0]).obj 5).ctx.loops = [] ∧
    TrapAt (trap [ins 11 0 0 63]) 5 (.jump 63) 1 ∧ in_ (trap [ins 11 0 0 63]) (64 + 63) = true ∧
    TrapAt (trap [ins 11 0 0 0xFFFF]) 5 (.jump (-1)) 1 ∧ in_ (trap [ins 11 0 0 0xFFFF]) (64 - 1) = false ∧
    TrapAt (trap [ins 12 0 0 0xFE]) 5 (.event 0xFE) 1 := by
  unfold TrapAt; and_intros <;> decide +kernel

theorem witness_MotionCommandsAndEnds :
    (∃ s : State, s.fld (.obj 5) Reg.Obj.CTRL_MOTION_MODE ≠ 0) ∧ (∃ s : State, s.fld (.obj 5) Reg.Obj.CTRL_MOTION_MODE = 0) ∧
    (∃ s : State, s.lockPri = false) ∧
    (∃ (s : State) (g : Segment), (s.obj 5).ctx.seg = some g ∧ g.kind = .hold ∧ g.s0 + g.n ≤ s.render.rsi) ∧
    (∃ (s : State) (g : Segment), (s.obj 5).ctx.seg = some g ∧ g.kind = .move {} true ∧ s.render.rsi < g.s0 + g.n) ∧
    (∃ s : State, (s.obj 5).ctx.jitter.on = true ∧ 0 < (s.obj 5).ctx.jitter.n ∧
      (s.obj 5).ctx.jitter.start + (s.obj 5).ctx.jitter.n ≤ s.render.rsi ∧ (s.obj 5).ctx.jitter.closing = true) ∧
    (∃ s : State, (s.obj 5).ctx.jitter.on = true ∧ 0 < (s.obj 5).ctx.jitter.n ∧
      (s.obj 5).ctx.jitter.start + (s.obj 5).ctx.jitter.n ≤ s.render.rsi ∧ (s.obj 5).ctx.jitter.closing = false) ∧
    (∃ s : State, s.drained 5 = true) :=
  ⟨⟨mk [(.obj 5, Reg.Obj.CTRL_MOTION_MODE, 1)], by decide +kernel⟩, ⟨{}, by decide +kernel⟩, ⟨{}, by decide +kernel⟩,
   ⟨{ objs := [(5, { ctx := { seg := some ⟨.hold, 0, 0, {}⟩ } })] }, ⟨.hold, 0, 0, {}⟩, by decide +kernel⟩,
   ⟨{ objs := [(5, { ctx := { seg := some ⟨.move {} true, 0, 1, {}⟩ } })] }, ⟨.move {} true, 0, 1, {}⟩, by decide +kernel⟩,
   ⟨{ render := { rsi := 1 }, objs := [(5, { ctx := { jitter := { on := true, n := 1, closing := true } } })] }, by decide +kernel⟩,
   ⟨{ render := { rsi := 1 }, objs := [(5, { ctx := { jitter := { on := true, n := 1 } } })] }, by decide +kernel⟩,
   ⟨{ objs := [(5, { draining := some 0 })] }, by decide +kernel⟩⟩

/-! Jobs -/

/-- Block 0 of a run is released. -/
def go : State := { run with render := { released := true } }

theorem witness_TrapezeJobAndOnceABlock :
    (∃ s : State, s.granted .trapeze 5 0 = true ∧ s.render.released = true ∧ 0 ≤ s.render.block ∧ Map.get 0 5 s.paths.jobs ≤ 0 ∧ (s.obj 5).mode = 0 ∧
      s.fldAt (.obj 5) Reg.Obj.CTRL_MOTION_MODE (s.blockStart 0) = 0 ∧ (s.obj 5).activatedAt = none ∧ (s.obj 5).cmds = [] ∧
      (∀ i ∈ s.blockSamples 0, s.changedAt (.obj 5) i = none)) ∧
    (∃ s : State, s.granted .pan 5 0 = false) ∧ (∃ s : State, s.render.released = false) ∧
    (∃ s : State, 0 < Map.get 0 (1024 + 5) s.paths.jobs) :=
  ⟨⟨served { kind := .trapeze, flow := 5, block := 0 } go, by decide +kernel⟩, ⟨{}, by decide +kernel⟩, ⟨{}, by decide +kernel⟩, ⟨{ paths := { jobs := [(1029, 1)] } }, by decide +kernel⟩⟩

/-- Its pan job of object 5 is in service. -/
def panned : State := served { kind := .pan, flow := 5, block := 0 } go

/-- A path of gain 1 in 2^-28 to output 3. -/
def thePath : Path := { spk := 0, out := 3, pol := false, gs := 1, ge := 1, ts := 0, te := 0 }

theorem witness_PanAndPathJobs :
    (∃ s : State, s.granted .pan 5 0 = true ∧ s.render.released = true ∧ 0 ≤ s.render.block ∧
      Map.get 0 (1024 + 5) s.paths.jobs ≤ 0 ∧ (s.obj 5).live = true ∧ s.panOn (s.blockStart 0) = false) ∧
    (∃ (s : State) (l : Layout), s.granted .pan 5 0 = true ∧ s.render.released = true ∧ 0 ≤ s.render.block ∧
      Map.get 0 (1024 + 5) s.paths.jobs ≤ 0 ∧ (s.obj 5).live = true ∧ s.panOn (s.blockStart 0) = true ∧ s.pathsOf 5 = {} ∧ s.layoutFor false (s.blockStart 0) = some l ∧
      (s.obj 5).relocs = [] ∧ (∀ i ∈ s.blockSamples 0, s.lawReloc 5 i = false)) ∧
    (∃ (s : State) (p : Path), s.granted .path 5 0 0 = true ∧ s.inTime 0 = true ∧ (s.pathsOf 5).fetching = [] ∧ 0 = (s.pathsOf 5).slice ∧
      0 * s.sliceSize < s.blockSize ∧ (s.pathsOf 5).sets = [{ paths := [p] }] ∧ p.cut = false ∧ s.sched.cutOuts = []) ∧
    (∃ (s : State) (p : Path), (s.pathsOf 5).fetching = [16] ∧ (s.pathsOf 5).sets = [{ paths := [p] }] ∧ p.window = some 0 ∧
      p.units = [7] ∧ (0 : Int) ≤ 16 ∧ (16 : Int) + (15 : Nat) < 0 + 32) :=
  ⟨⟨{ mk [(.pan, Reg.Hdr.ENABLE, 0)] panned with objs := [(5, { live := true })] }, by decide +kernel⟩,
   ⟨{ mk [(.layout, Reg.Hdr.ENABLE, 1), (.pan, Reg.Hdr.ENABLE, 1)] panned with
      objs := [(5, { live := true })], layouts := { active := some (0, {}) } }, {}, by decide +kernel⟩,
   ⟨{ served { kind := .path, flow := 5, block := 0 } go with paths := { objs := [(5, { sets := [{ paths := [thePath] }] })] } },
     thePath, by decide +kernel⟩,
   ⟨{ paths := { objs := [(5, { fetching := [16], sets := [{ paths := [{ thePath with window := some 0, units := [7] }] }] })] } },
     { thePath with window := some 0, units := [7] }, by decide +kernel⟩⟩

theorem witness_RouteAndBusJobs :
    (∃ s : State, s.granted .route (0x400 + 3) 0 = true ∧ s.inTime 0 = true ∧ Map.get 0 (2048 + 3) s.paths.jobs ≤ 0 ∧
      s.route 7 = { on := true, src := { type := 4 }, dest := 3, gain := { last := 5, from_ := 5, to_ := 5, inv := true } } ∧
      (∀ i ∈ s.blockSamples 0, s.routeAt 7 i = (true, { type := 4 }, false, 3) ∧ s.fldAt (.route 7) Reg.Route.GAIN i = 5 ∧
        s.fldAt (.route 7) Reg.Route.CTRL_INVERT i ≠ 0) ∧
      (∀ q, q < 2048 → q ≠ 7 → (s.route q).on = false ∧ (s.route q).old = none ∧
        ∀ i ∈ s.blockSamples 0, (s.routeAt q i).1 = false)) ∧
    (∃ s : State, s.granted .bus (0x600 + 7) 0 = true ∧ s.inTime 0 = true ∧ Map.get 0 (4096 + 7) s.paths.jobs ≤ 0 ∧
      s.busEngine 7 = { live := true, gain := { last := 5, from_ := 5, to_ := 5 } } ∧
      (∀ i ∈ s.blockSamples 0, s.busActiveAt 7 i = true ∧ s.fldAt (.bus 7) Reg.Bus.GAIN i = 5 ∧
        s.fldAt (.bus 7) Reg.Bus.CTRL_MUTE i = 0 ∧ s.fldAt (.bus 7) Reg.Bus.CTRL_INVERT i = 0 ∧
        s.fldAt (.bus 7) Reg.Bus.EQ_SECTION_EN i = 0 ∧ s.fldAt (.bus 7) Reg.Bus.DIRECT_EN i = 0)) :=
  ⟨⟨{ mk [(.route 7, Reg.Route.CTRL_ENABLE, 1), (.route 7, Reg.Route.CTRL_INVERT, 1), (.route 7, Reg.Route.SRC_TYPE, 4),
        (.route 7, Reg.Route.DEST_INDEX, 3), (.route 7, Reg.Route.GAIN, 5), ((Blk.route 7).page, Reg.Hdr.ENABLE, 1),
        (.render, Reg.Render.CFG_BLOCK, 0)] (served { kind := .route, flow := 0x403, block := 0 } go) with
      routes := [(7, { on := true, src := { type := 4 }, dest := 3, gain := { last := 5, from_ := 5, to_ := 5, inv := true } })] },
     by decide +kernel⟩,
   ⟨{ mk [(.bus 7, Reg.Bus.CTRL_ACTIVE, 1), (.bus 7, Reg.Bus.GAIN, 5), ((Blk.bus 7).page, Reg.Hdr.ENABLE, 1)]
        (served { kind := .bus, flow := 0x607, block := 0 } go) with
      buses := [(7, { live := true, gain := { last := 5, from_ := 5, to_ := 5 } })] }, by decide +kernel⟩⟩

theorem witness_OutputJobs :
    (∃ s : State, s.granted .shapePre 0x403 0 = true ∧ s.inTime 0 = true ∧ (s.out 3).preDone ≠ 0 + 1 ∧ (s.out 3).live = true ∧
      (s.out 3).gain = { last := 5, from_ := 5, to_ := 5 } ∧ (s.out 3).sections = [] ∧ s.excites = none ∧
      (∀ i ∈ s.blockSamples 0, s.outActiveAt 3 i = true ∧ s.fldAt (.out 3) Reg.Out.GAIN i = 5 ∧
        s.fldAt (.out 3) Reg.Out.CTRL_MUTE i = 0 ∧ s.fldAt (.out 3) Reg.Out.CTRL_INVERT i = 0 ∧
        s.fldAt (.out 3) Reg.Out.EQ_SECTION_EN i = 0 ∧ s.fldAt (.out 3) Reg.Out.BM_ROLE i = 0 ∧
        s.fldAt (.out 3) Reg.Out.DYN_EN i = 0)) ∧
    (∃ s : State, s.granted .convHead 0x403 0 = true ∧ s.inTime 0 = true ∧ (s.out 3).preDone = 0 + 1) ∧
    (∃ s : State, s.granted .shapePost 0x403 0 = true ∧ s.inTime 0 = true ∧ (s.out 3).preDone = 0 + 1 ∧ (s.out 3).postDone ≠ 0 + 1 ∧
      (s.out 3).corr.complete 3 0 (s.blockStart 0) = true ∧ s.curtain.phase = .isOpen ∧ s.curtain.n = 0 ∧
      s.curtain.from_ = unity ∧ (s.out 3).ann = {} ∧ (s.out 3).annOn = false ∧
      (∀ i ∈ s.blockSamples 0, s.announceAt i = false)) ∧
    (∃ s : State, s.granted .convSeg (segJob 3 11 1 1 (segPieces 1 - 1)).flow 11 (segJob 3 11 1 1 (segPieces 1 - 1)).slice = true ∧
      192 / s.blockSize - 1 = 11 ∧ ((s.out 3).corr.bank 1).usable = true ∧ 1 ≤ 1 ∧ 1 ≤ spanOf ((s.out 3).corr.bank 1).taps.length ∧
      (((192 : Nat) : Int) - 64 * (3 : Nat)) % (64 * 2 ^ (1 - 1)) = 0 ∧ 192 ≤ (s.out 3).preDone * s.blockSize) ∧
    (∃ s : State, (s.out 3).falling = some 0 ∧ 0 ≤ s.blockStart s.render.block ∧ (s.out 3).corr.fade = none) ∧
    (∃ s : State, s.render.released = true ∧ s.render.late = true ∧ s.sched.stalled = []) ∧
    (∃ s : State, s.render.released = true ∧ s.render.rsi + s.blockSize / 4 < s.blockStart (s.render.block + 2) ∧
      s.sched.stalled = []) ∧
    (∃ s : State, s.render.released = true ∧ s.render.late = false ∧
      s.blockStart (s.render.block + 2) ≤ s.render.rsi + s.blockSize / 4 ∧ s.sched.leadOuts = [3] ∧ s.sched.cutOuts = [] ∧
      (s.out 3).preDone ≠ s.render.block + 1 ∧ 5 ∈ s.owing 3 ∧ s.classAt 5 (s.blockStart s.render.block) = 2) :=
  ⟨⟨{ mk [(.out 3, Reg.Out.CTRL_ACTIVE, 1), (.out 3, Reg.Out.GAIN, 5), ((Blk.out 3).page, Reg.Hdr.ENABLE, 1),
        (.out 3, Reg.Out.CTRL_MUTE, 0)] (served { kind := .shapePre, flow := 0x403, block := 0 } go) with
      outs := [(3, { live := true, gain := { last := 5, from_ := 5, to_ := 5 } })] }, by decide +kernel⟩,
   ⟨{ served { kind := .convHead, flow := 0x403, block := 0 } go with outs := [(3, { preDone := 1 })] }, by decide +kernel⟩,
   ⟨{ served { kind := .shapePost, flow := 0x403, block := 0 } go with
      outs := [(3, { preDone := 1, corr := { head := 1 } })], curtain := { n := 0 } }, by decide +kernel⟩,
   ⟨{ served (segJob 3 11 1 1 (segPieces 1 - 1)) with outs := [(3, { preDone := 12, corr := { bank1 := { state := 2, taps := List.replicate 128 1 } } })] }, by decide +kernel⟩,
   ⟨{ outs := [(3, { falling := some 0 })] }, by decide +kernel⟩,
   ⟨{ render := { released := true, late := true } }, by decide +kernel⟩,
   ⟨{ render := { released := true } }, by decide +kernel⟩,
   ⟨{ mk [(.obj 5, Reg.Obj.CTRL_CLASS, 2)] go with
      render := { go.render with rsi := 28 }
      sched := { leadOuts := [3], ready := [{ cls := 2, job := { kind := .path, flow := 5, block := 0 }, order := 0 }] }
      objs := [(5, { live := true })] }, by decide +kernel⟩⟩
/-! The Ringmaster, the trace and commands of seats -/

theorem witness_GrantsAndRetirement :
    (∃ s : State, engineGroup 0 = some 0 ∧ (∀ v ∈ s.sched.service, v.engine ≠ 0) ∧
      (∃ r ∈ s.sched.ready, s.eligible 0 0 r = true ∧ r.cls = 0)) ∧
    (∃ (s : State) (r : Ready), engineGroup 0x57 = none ∧ engineGroup 0x20 = some 2 ∧ s.sched.service = [] ∧
      s.sched.ready = [r] ∧ r.cls ≤ 2 ∧ s.eligible 2 5000 r = true) ∧
    (∃ s : State, engineGroup 0x53 = some 5 ∧ s.sched.service = [] ∧ (∀ r ∈ s.sched.ready, s.eligible 5 0 r = false)) ∧
    (∃ (s : State) (r : Ready), r.cls = 2 ∧ 2 ≠ 5 ∧ s.sched.leadPhase = true) ∧
    (∃ (s : State) (v : Service), s.sched.service = [v] ∧ v.engine = 0 ∧ v.job.kind = .trapeze ∧ s.sched.trace = none ∧
      s.sched.stalled = [] ∧ (∀ r ∈ s.sched.ready, r.job.flow ≠ v.job.flow)) :=
  ⟨⟨{ go with sched := { ready := [{ cls := 0, job := { kind := .trapeze, flow := 5, block := 0 }, order := 0 }] } },
     by decide +kernel⟩,
   ⟨{ go with sched := { ready := [{ cls := 2, job := { kind := .path, flow := 5, block := 0 }, order := 0 }] } },
     { cls := 2, job := { kind := .path, flow := 5, block := 0 }, order := 0 }, by decide +kernel⟩,
   ⟨{}, by decide +kernel⟩,
   ⟨{ sched := { leadPhase := true } }, { cls := 2, job := { kind := .path, flow := 5, block := 0 }, order := 0 }, by decide +kernel⟩,
   ⟨{ sched := { service := [{ engine := 0, cls := 1, job := { kind := .trapeze, flow := 5, block := 0 } }] } },
     { engine := 0, cls := 1, job := { kind := .trapeze, flow := 5, block := 0 } }, by decide +kernel⟩⟩

theorem witness_MatrixRequests :
    (∃ s : State, 12 < 13 ∧ 11 < 12 ∧ s.sched.waiting = [] ∧ ¬ ((12 ∈ [5, 6, 7, 8, 9] ∧ true = true) ∨ true = false) ∧
      (if s.fld .busMatrix (Reg.BusMatrix.PARK 11) = 12 then 0 else max 1 0) < s.fld .busMatrix Reg.BusMatrix.AGE_LIMIT) ∧
    (∃ s : State, s.sched.waiting = [] ∧ (5 ∈ [5, 6, 7, 8, 9] ∧ true = true)) ∧
    (∃ s : State, s.sched.waiting = [{ master := 1, target := 2, write := false, held := false }]) :=
  ⟨⟨mk [(.busMatrix, Reg.BusMatrix.AGE_LIMIT, 2)], by decide +kernel⟩, ⟨{}, by decide⟩, ⟨{ sched := { waiting := [{ master := 1, target := 2, write := false }] } }, by decide⟩⟩

/-- A ring trace of SEAT 0 under way, of the command with tag 3. -/
def traced : State :=
  flying [cmd 0x51 [3], { cmd 0x50 with tag := 3, started := true, state := .running }]
    { sched := { trace := some ⟨0, 3, true, 7, 0, 0, 0, 2 ^ 20, 1, 0⟩ } }

theorem witness_TraceCommands :
    (∃ (s : State) (c : Cmd), Issued s c 0x50 ∧ c.n 0 / 8 % 32 = 0 ∧ c.n 0 / 2048 = 0 ∧ c.n 0 / 256 % 8 ≤ 6 ∧
      s.sched.trace = none ∧ 2 ^ (20 + c.n 0 / 256 % 8) ≤ s.poolFree) ∧
    (∃ (s : State) (c : Cmd), Issued s c 0x50 ∧ c.n 0 / 8 % 32 = 0 ∧ c.n 0 / 2048 = 0 ∧ c.n 0 / 256 % 8 ≤ 6 ∧
      s.sched.trace.isSome = true) ∧
    (∃ (s : State) (c : Cmd), s.cmdOf c.seat c.tag = some c ∧ c.opcode = 0x50 ∧ c.bad = false ∧ c.started = true ∧
      c.final = false ∧ c.suspend = false ∧ c.cancel = none ∧ c.accepted = false ∧ c.tag < bootTag ∧ c.seat < 8 ∧
      s.serving .opStep (0x3000 + c.slot) = true ∧ s.mon.degraded.contains (c.seat, c.tag) = false ∧ c.state ≠ .suspended) ∧
    (∃ (s : State) (c : Cmd), s.cmdOf c.seat c.tag = some c ∧ c.opcode = 0x50 ∧ c.bad = false ∧ c.started = true ∧
      c.final = false ∧ c.suspend = false ∧ c.cancel = none ∧ c.accepted = false ∧ c.tag < bootTag ∧ c.seat < 8 ∧
      s.serving .opStep (0x3000 + c.slot) = true ∧ c.state = .suspended) ∧
    (∃ (s : State) (c d : Cmd) (q : TraceRun), Issued s c 0x51 ∧ s.sched.trace = some q ∧ q.ring = true ∧ s.sched.staged = [] ∧
      c.n 0 % 65536 = q.tag ∧ (q.seat = c.seat ∨ c.seat = 0) ∧ (q.seat, q.tag) ≠ (c.seat, c.tag) ∧ q.seat < 8 ∧
      s.cmdOf q.seat q.tag = some d ∧ d.seat = q.seat ∧ d.final = false ∧ d.waiters = [] ∧ d.tag < bootTag) := by
  refine ⟨⟨flying [cmd 0x50 [0x607]] (mk [(.dramc, Reg.Dramc.POOL_SIZE, 64)]), cmd 0x50 [0x607], ?_⟩,
    ⟨flying [cmd 0x50] { sched := { trace := some ⟨1, 3, true, 7, 0, 0, 0, 2 ^ 20, 1, 0⟩ } }, cmd 0x50, ?_⟩,
    ⟨served { kind := .opStep, flow := 0x3000, block := 0 } (flying [{ cmd 0x50 with started := true }]), { cmd 0x50 with started := true }, ?_⟩,
    ⟨served { kind := .opStep, flow := 0x3000, block := 0 } (flying [{ cmd 0x50 with started := true, state := .suspended }]), { cmd 0x50 with started := true, state := .suspended }, ?_⟩,
    ⟨traced, cmd 0x51 [3], { cmd 0x50 with tag := 3, started := true, state := .running }, ⟨0, 3, true, 7, 0, 0, 0, 2 ^ 20, 1, 0⟩, ?_⟩⟩
    <;> (try unfold Issued) <;> and_intros <;> decide +kernel

theorem witness_ShortCommands :
    (∃ (s : State) (c : Cmd), Issued s c 0x01) ∧
    (∃ (s : State) (c : Cmd), Issued s c 0x02 ∧ c.n 3 = 0) ∧
    (∃ (s : State) (c : Cmd), Issued s c 0x02 ∧ c.n 3 ≠ 0 ∧ c.n 3 ≠ 64) ∧
    (∃ (s : State) (c : Cmd), Issued s c 0x03 ∧
      ((s.seat c.seat).before c.tag).filter (fun d => !(s.seat c.seat).retired d) = []) ∧
    (∃ (s : State) (c : Cmd), Issued s c 0x03 ∧
      ((s.seat c.seat).before c.tag).filter (fun d => !(s.seat c.seat).retired d) ≠ []) ∧
    (∃ (s : State) (c : Cmd), s.cmdOf c.seat c.tag = some c ∧ c.opcode = 0x03 ∧ c.started = true ∧ c.final = false ∧
      c.waiters = [] ∧ c.tag < bootTag ∧ c.seat < 8 ∧ c.work = [1] ∧
      (∀ d ∈ (s.seat c.seat).before c.tag, (s.seat c.seat).retired d = true)) ∧
    (∃ (s : State) (c : Cmd), c.seat ≠ 0 ∧ Issued s c 0x60) ∧
    (∃ (s : State) (c : Cmd), c.seat ≠ 0 ∧ Issued s c 0x61 ∧ c.flag 0 = false) ∧
    (∃ (s : State) (c : Cmd), c.seat ≠ 0 ∧ Issued s c 0x61 ∧ c.flag 0 = true) ∧
    (∃ (s : State) (c : Cmd), c.seat ≠ 0 ∧ Issued s c 0x10) ∧ (∃ (s : State) (c : Cmd), c.seat ≠ 0 ∧ Issued s c 0x11) := by
  refine ⟨⟨flying [cmd 1], cmd 1, ?_⟩, ⟨flying [cmd 2], cmd 2, ?_⟩, ⟨flying [cmd 2 [0, 0, 0, 63]], cmd 2 [0, 0, 0, 63], ?_⟩,
    ⟨flying [cmd 3], cmd 3, ?_⟩, ⟨flying [{ cmd 1 with tag := 2, started := true }, cmd 3], cmd 3, ?_⟩,
    ⟨flying [{ cmd 3 with started := true, work := [1] }], { cmd 3 with started := true, work := [1] }, ?_⟩,
    ⟨flying [cmd 0x60 [] 3] {} 3, cmd 0x60 [] 3, ?_⟩, ⟨flying [cmd 0x61 [] 3] {} 3, cmd 0x61 [] 3, ?_⟩,
    ⟨flying [cmd 0x61 [] 3 4] {} 3, cmd 0x61 [] 3 4, ?_⟩, ⟨flying [cmd 0x10 [] 3] {} 3, cmd 0x10 [] 3, ?_⟩,
    ⟨flying [cmd 0x11 [] 3] {} 3, cmd 0x11 [] 3, ?_⟩⟩ <;> (try unfold Issued) <;> and_intros <;> decide +kernel

theorem witness_OwnershipAndKeys :
    (∃ (s : State) (c : Cmd), Issued s c 0x60 ∧ c.seat = 0 ∧ s.lockPri = false ∧ c.n 0 = 0 ∧ c.n 1 = 1023 ∧ c.n 2 = 1 ∧
      c.n 3 = 7 + 256 ∧ 7 < s.model.seats ∧ 1023 < s.model.objects ∧ (s.ownerOf (.obj 1023)).1 ≠ 7) ∧
    (∃ (s : State) (c : Cmd), Issued s c 0x60 ∧ c.seat = 0 ∧ s.lockPri = false ∧ c.n 0 = 0 ∧ c.n 1 = 1023 ∧ c.n 2 = 1 ∧
      c.n 3 = 3 ∧ 3 < s.model.seats ∧ s.model.objects ≤ 1023) ∧
    (∃ (s : State) (c : Cmd), Issued s c 0x61 ∧ c.seat = 0 ∧ c.n 0 = 7 ∧ 7 < s.model.seats ∧ c.flag 0 = false) ∧
    (∃ (s : State) (c : Cmd), Issued s c 0x61 ∧ c.seat = 0 ∧ c.n 0 = 0 ∧ 0 < s.model.seats ∧ c.flag 0 = true) := by
  refine ⟨⟨flying [cmd 0x60 [0, 1023, 1, 263]], cmd 0x60 [0, 1023, 1, 263], ?_⟩,
    ⟨flying [cmd 0x60 [0, 1023, 1, 3]] { model := .m940 }, cmd 0x60 [0, 1023, 1, 3], ?_⟩,
    ⟨flying [cmd 0x61 [7]], cmd 0x61 [7], ?_⟩, ⟨flying [cmd 0x61 [0] 0 4], cmd 0x61 [0] 0 4, ?_⟩⟩
    <;> unfold Issued <;> and_intros <;> decide +kernel

/-- A controlling command with tag 7 and, before it, a long operation with tag 3. -/
def pair (op : Nat) (d : Cmd) : State := flying [d, cmd op [3]]

/-- That long operation. -/
def long (op : Nat) (st : OpState) (steps : Nat) : Cmd :=
  { cmd op with tag := 3, started := true, state := st, steps := steps }

theorem witness_SuspendResumeCancel :
    (∃ (s : State) (c : Cmd), c.n 0 = 3 ∧ s.cmdOf c.seat 3 = none ∧ Issued s c 0x70) ∧
    (∃ (s : State) (c : Cmd), c.n 0 = 3 ∧ s.cmdOf c.seat 3 = none ∧ Issued s c 0x71) ∧
    (∃ (s : State) (c : Cmd), c.n 0 = 3 ∧ s.cmdOf c.seat 3 = none ∧ Issued s c 0x72) ∧
    (∀ st : OpState, ∃ (s : State) (c d : Cmd), c.n 0 = 3 ∧ s.cmdOf c.seat 3 = some d ∧ d.seat = c.seat ∧ 3 ≠ c.tag ∧
      isLong d.opcode = true ∧ d.final = false ∧ d.waiters = [] ∧ Issued s c 0x70 ∧ d.state = st) ∧
    (∃ (s : State) (c d : Cmd), c.n 0 = 3 ∧ s.cmdOf c.seat 3 = some d ∧ d.seat = c.seat ∧ 3 ≠ c.tag ∧
      isLong d.opcode = true ∧ d.final = false ∧ d.waiters = [] ∧ Issued s c 0x71 ∧ d.state = .suspended ∧ 0 < d.steps) ∧
    (∃ (s : State) (c d : Cmd), c.n 0 = 3 ∧ s.cmdOf c.seat 3 = some d ∧ d.seat = c.seat ∧ 3 ≠ c.tag ∧
      isLong d.opcode = true ∧ d.final = false ∧ d.waiters = [] ∧ Issued s c 0x71 ∧ d.state = .suspended ∧ d.steps = 0 ∧
      s.sched.stalled = []) ∧
    (∀ st : OpState, ∃ (s : State) (c d : Cmd), c.n 0 = 3 ∧ s.cmdOf c.seat 3 = some d ∧ d.seat = c.seat ∧ 3 ≠ c.tag ∧
      isLong d.opcode = true ∧ d.final = false ∧ d.waiters = [] ∧ Issued s c 0x72 ∧ d.state = st ∧ d.opcode = 0x28) := by
  refine ⟨⟨flying [cmd 0x70 [3]], cmd 0x70 [3], ?_⟩, ⟨flying [cmd 0x71 [3]], cmd 0x71 [3], ?_⟩,
    ⟨flying [cmd 0x72 [3]], cmd 0x72 [3], ?_⟩,
    fun st => ⟨pair 0x70 (long 0x10 st 0), cmd 0x70 [3], long 0x10 st 0, ?_⟩,
    ⟨pair 0x71 (long 0x10 .suspended 1), cmd 0x71 [3], long 0x10 .suspended 1, ?_⟩,
    ⟨pair 0x71 (long 0x10 .suspended 0), cmd 0x71 [3], long 0x10 .suspended 0, ?_⟩,
    fun st => ⟨pair 0x72 (long 0x28 st 0), cmd 0x72 [3], long 0x28 st 0, ?_⟩⟩ <;> unfold Issued
  case refine_4 => cases st <;> and_intros <;> decide +kernel
  case refine_7 => cases st <;> and_intros <;> decide +kernel
  all_goals and_intros <;> decide +kernel

/-- The pool holds buffer 5, of SEAT 3, 64 bytes. -/
def buffered (s : State) : State := { s with pool := { bufs := [(5, { seat := 3, size := 64 })] } }

theorem witness_Queries :
    (∃ (s : State) (c d : Cmd), Issued s c 0x73 ∧ c.n 0 = 3 ∧ s.cmdOf c.seat 3 = some d ∧ 3 ≠ c.tag ∧ isLong d.opcode = true) ∧
    (∃ (s : State) (c : Cmd) (b : Buffer), Issued s c 0x73 ∧ c.queryMode = 1 ∧ s.buffer (c.n 1) = some b ∧ b.seat = c.seat ∧
      s.isStagedoor c.seat = false ∧ c.n 2 + c.n 3 ≤ b.size ∧ s.mon.degraded.contains (c.seat, c.tag) = false) ∧
    (∃ (s : State) (c : Cmd) (b : Buffer), Issued s c 0x73 ∧ c.queryMode = 1 ∧ s.buffer (c.n 1) = some b ∧ b.seat = c.seat ∧
      b.size < c.n 2 + c.n 3) ∧
    (∃ (s : State) (c : Cmd) (b : Buffer), Issued s c 0x73 ∧ c.queryMode = 2 ∧ s.buffer (c.n 1) = some b ∧ b.seat = c.seat ∧
      s.bufferUsed (c.n 1) = true) ∧
    (∃ (s : State) (c : Cmd) (b : Buffer), Issued s c 0x73 ∧ c.queryMode = 2 ∧ s.buffer (c.n 1) = some b ∧ b.seat = c.seat ∧
      s.bufferUsed (c.n 1) = false) ∧
    (∃ (s : State) (c : Cmd) (b : Buffer), Issued s c 0x73 ∧ c.queryMode = 2 ∧ s.buffer (c.n 1) = some b ∧ b.seat ≠ c.seat ∧
      c.seat ≠ 0) := by
  refine ⟨⟨pair 0x73 (long 0x10 .running 1), cmd 0x73 [3], long 0x10 .running 1, ?_⟩,
    ⟨buffered (flying [cmd 0x73 [16777216, 5, 60, 4] 3] {} 3), cmd 0x73 [16777216, 5, 60, 4] 3, { seat := 3, size := 64 }, ?_⟩,
    ⟨buffered (flying [cmd 0x73 [16777216, 5, 60, 8] 3] {} 3), cmd 0x73 [16777216, 5, 60, 8] 3, { seat := 3, size := 64 }, ?_⟩,
    ⟨buffered (flying [cmd 0x73 [33554432, 5] 3] { sched := { trace := some ⟨0, 3, true, 7, 0, 0, 0, 64, 5, 0⟩ } } 3),
      cmd 0x73 [33554432, 5] 3, { seat := 3, size := 64 }, ?_⟩,
    ⟨buffered (flying [cmd 0x73 [33554432, 5] 3] {} 3), cmd 0x73 [33554432, 5] 3, { seat := 3, size := 64 }, ?_⟩,
    ⟨buffered (flying [cmd 0x73 [33554432, 5] 2] {} 2), cmd 0x73 [33554432, 5] 2, { seat := 3, size := 64 }, ?_⟩⟩
    <;> unfold Issued <;> and_intros <;> decide +kernel
/-! Loads, filters, the curtain -/

/-- Motion program memory all taken. -/
def full : Motion := { regions := [{ base := 0, words := 65536, seat := 3 }] }

theorem witness_MotionLoads :
    (∃ (s : State) (c : Cmd) (data f : List Byte) (a : Nat), Issued s c 0x58 ∧ c.flag 0 = false ∧ s.sourceFault c 1 = none ∧
      s.sourceBytes c 1 data = some f ∧ motionFault (fileWords f) = none ∧
      s.motion.fit (((fileWords f).length + 63) / 64) = some a) ∧
    (∃ (s : State) (c : Cmd) (data f : List Byte) (o : Nat), Issued s c 0x58 ∧ c.flag 0 = false ∧ s.sourceFault c 1 = none ∧
      s.sourceBytes c 1 data = some f ∧ motionFault (fileWords f) = some o) ∧
    (∃ (s : State) (c : Cmd) (data f : List Byte), Issued s c 0x58 ∧ c.flag 0 = false ∧ s.sourceFault c 1 = none ∧
      s.sourceBytes c 1 data = some f ∧ motionFault (fileWords f) = none ∧
      s.motion.fit (((fileWords f).length + 63) / 64) = none) ∧
    (∃ (s : State) (c : Cmd) (r : Region), Issued s c 0x58 ∧ c.flag 0 = true ∧ s.motion.regions = [r] ∧ c.n 0 = r.base ∧
      r.seat = c.seat ∧ s.regionUsed r = false) ∧
    (∃ (s : State) (c : Cmd) (r : Region), Issued s c 0x58 ∧ c.flag 0 = true ∧ s.motion.regions = [r] ∧ c.n 0 = r.base ∧
      r.seat = c.seat ∧ s.regionUsed r = true) := by
  refine ⟨⟨flying [cmd 0x58 [0, 0, 0, 0, 4]], cmd 0x58 [0, 0, 0, 0, 4], [0, 0, 0, 0], [0, 0, 0, 0], 1, ?_⟩,
    ⟨flying [cmd 0x58 [0, 0, 0, 0, 4]], cmd 0x58 [0, 0, 0, 0, 4], [255, 255, 255, 255], [255, 255, 255, 255], 0, ?_⟩,
    ⟨flying [cmd 0x58 [0, 0, 0, 0, 4]] { motion := full }, cmd 0x58 [0, 0, 0, 0, 4], [0, 0, 0, 0], [0, 0, 0, 0], ?_⟩,
    ⟨flying [cmd 0x58 [64] 0 4] { motion := { regions := [{ base := 64, words := 64, seat := 0 }] } }, cmd 0x58 [64] 0 4,
      { base := 64, words := 64, seat := 0 }, ?_⟩,
    ⟨flying [cmd 0x58 [64] 0 4] (mk [(.obj 5, Reg.Obj.MOTION_ENTRY, 127)]
      { motion := { regions := [{ base := 64, words := 64, seat := 0 }] } }), cmd 0x58 [64] 0 4,
      { base := 64, words := 64, seat := 0 }, ?_⟩⟩ <;> unfold Issued <;> and_intros <;> decide +kernel

theorem witness_EqAndBulkLoads :
    (∃ (s : State) (c : Cmd) (data f : List Byte), Issued s c 0x22 ∧ s.sourceFault c 1 = none ∧
      s.sourceBytes c 1 data = some f ∧ c.n 0 = 4095 + 65536 * 1 ∧ f.length = 4 * 40 * 1 ∧
      (∀ k, k < 1 → s.eqSetUsed false (4095 + k) = false)) ∧
    (∃ (s : State) (c : Cmd) (data f : List Byte), Issued s c 0x22 ∧ s.sourceFault c 1 = none ∧
      s.sourceBytes c 1 data = some f ∧ c.n 0 = 0 + 65536 * 1 + 2 ^ 31 ∧ f.length = 4 * 80 * 1) ∧
    (∃ (s : State) (c : Cmd), Issued s c 0x18 ∧ c.flag 1 = false ∧ c.n 0 = 1023 + 65536 ∧ c.n 1 = 1 ∧ 1023 < s.model.objects ∧
      s.owns c.seat (.obj 1023) = true ∧ s.bit (.objPage (1023 / 8)) Reg.Hdr.LOCK = false ∧ s.groupOf (.obj 1023) ≠ 0xFF) ∧
    (∃ (s : State) (c : Cmd), Issued s c 0x18 ∧ c.flag 1 = false ∧ c.n 0 = 1023 + 65536 ∧ c.n 1 = 1 ∧ 1023 < s.model.objects ∧
      s.owns c.seat (.obj 1023) = false) ∧
    (∃ (s : State) (c : Cmd), Issued s c 0x18 ∧ c.flag 1 = false ∧ c.n 0 = 1023 + 65536 ∧ c.n 1 = 1 ∧ s.model.objects ≤ 1023) := by
  refine ⟨⟨flying [cmd 0x22 [69631, 0, 0, 0, 160]], cmd 0x22 [69631, 0, 0, 0, 160], List.replicate 160 1, List.replicate 160 1, ?_⟩,
    ⟨flying [cmd 0x22 [2147549184, 0, 0, 0, 320]], cmd 0x22 [2147549184, 0, 0, 0, 320], List.replicate 320 1,
      List.replicate 320 1, ?_⟩,
    ⟨flying [cmd 0x18 [66559, 1]], cmd 0x18 [66559, 1], ?_⟩,
    ⟨flying [cmd 0x18 [66559, 1] 3] {} 3, cmd 0x18 [66559, 1] 3, ?_⟩,
    ⟨flying [cmd 0x18 [66559, 1]] { model := .m920 }, cmd 0x18 [66559, 1], ?_⟩⟩
    <;> unfold Issued <;> and_intros <;> decide +kernel

theorem witness_LayoutAndHrirLoads :
    (∃ (s : State) (c : Cmd), s.sourceFault c 1 = none ∧ c.n 4 ≤ s.poolFree ∧ Issued s c 0x10 ∧ c.seat = 0 ∧ c.n 0 < 4 ∧
      s.slotHeld (c.n 0) = false) ∧
    (∃ (s : State) (c : Cmd), s.sourceFault c 1 = none ∧ c.n 4 ≤ s.poolFree ∧ Issued s c 0x10 ∧ c.seat = 0 ∧ c.n 0 < 4 ∧
      s.slotHeld (c.n 0) = true) ∧
    (∃ (s : State) (c : Cmd), s.sourceFault c 1 = none ∧ c.n 4 ≤ s.poolFree ∧ Issued s c 0x28 ∧ c.n 0 < 2 ∧
      s.model.monitor = true ∧ s.owns c.seat .monitor = true ∧
      ¬ (s.fld .monitor Reg.Monitor.CTRL_HRIR_SEL = c.n 0 ∨ s.stg .monitor Reg.Monitor.CTRL_HRIR_SEL = c.n 0)) ∧
    (∃ (s : State) (c : Cmd), s.sourceFault c 1 = none ∧ c.n 4 ≤ s.poolFree ∧ Issued s c 0x28 ∧ c.n 0 < 2 ∧
      s.model.monitor = true ∧ s.owns c.seat .monitor = true ∧ s.fld .monitor Reg.Monitor.CTRL_HRIR_SEL = c.n 0) ∧
    (∃ (s : State) (c : Cmd), Issued s c 0x11 ∧ c.seat = 0 ∧ c.n 0 < 4 ∧ s.layouts.slots.any (·.1 = c.n 0) = true ∧
      c.flag 0 = false ∧ s.layouts.converting = false ∧ s.layouts.old = none ∧ s.selCommit = false ∧ s.layouts.arming = none ∧
      s.layouts.active.any (·.1 = c.n 0) = false) ∧
    (∃ (s : State) (c : Cmd), Issued s c 0x11 ∧ c.seat = 0 ∧ c.n 0 < 4 ∧ s.layouts.slots.any (·.1 = c.n 0) = true ∧
      c.flag 0 = false ∧ s.layouts.converting = false ∧ s.layouts.old = none ∧ s.selCommit = false ∧ s.layouts.arming = none ∧
      s.layouts.active.any (·.1 = c.n 0) = true) ∧
    (∃ (s : State) (c : Cmd), s.layouts.arming = some (3, false, c.seat, c.sq, c.tag) ∧ s.cmdOf c.seat c.tag = some c ∧
      c.final = false ∧ c.waiters = [] ∧ c.tag < bootTag ∧ c.seat < 8 ∧ c.sq < 4) := by
  refine ⟨⟨flying [cmd 0x10 [3]], cmd 0x10 [3], ?_⟩,
    ⟨flying [cmd 0x10 [3]] { layouts := { active := some (3, {}) } }, cmd 0x10 [3], ?_⟩,
    ⟨flying [cmd 0x28 [1]], cmd 0x28 [1], ?_⟩, ⟨flying [cmd 0x28 [0]], cmd 0x28 [0], ?_⟩,
    ⟨flying [cmd 0x11 [3]] { layouts := { slots := [(3, {})] } }, cmd 0x11 [3], ?_⟩,
    ⟨flying [cmd 0x11 [3]] { layouts := { slots := [(3, {})], active := some (3, {}) } }, cmd 0x11 [3], ?_⟩,
    ⟨flying [cmd 0x11 [3]] { layouts := { arming := some (3, false, 0, 0, 7) } }, cmd 0x11 [3], ?_⟩⟩
    <;> (try unfold Issued) <;> and_intros <;> decide +kernel

/-- Output 3 is active and warms by policy, with bank 1 LOADED. -/
def warmable : State :=
  { mk [(.out 3, Reg.Out.CORR_POLICY, 1), (.out 3, Reg.Out.CTRL_ACTIVE, 1), ((Blk.out 3).page, Reg.Hdr.ENABLE, 1)] with
    outs := [(3, { live := true, corr := { bank1 := { state := 2, taps := [1] } } })] }

theorem witness_FiltersAndFadeEnds :
    (∃ s : State, s.fld (.out 3) Reg.Out.CORR_POLICY = 1 ∧ s.outActive 3 = true) ∧
    (∃ s : State, (s.out 3).corr.warming = some (1, 0) ∧ ((s.out 3).corr.bank 1).state = 2 ∧ 0 ≤ s.render.rsi ∧
      0 < spanOf ((s.out 3).corr.bank 1).taps.length ∧
      (∀ j, j < spanOf ((s.out 3).corr.bank 1).taps.length → 0 < Map.get 0 (16 * 1 + (j + 1)) (s.out 3).corr.seg)) ∧
    (∃ (s : State) (f : CorrFade), (s.out 3).corr.fade = some f ∧ f.start + f.n ≤ (s.out 3).postDone * s.blockSize) ∧
    (∃ (s : State) (c : Cmd), Issued s c 0x20 ∧ s.sourceFault c 0 = none ∧ c.n 3 ≤ s.poolFree) ∧
    (∃ (s : State) (c : Cmd), Issued s c 0x21 ∧ c.n 0 = 3 + 65536 ∧ 3 < s.model.outputs ∧ 3 < s.nowOutputs ∧ c.n 1 < 3 ∧
      s.owns c.seat (.out 3) = true ∧ s.groupOf (.out 3) < 32 ∧
      s.fld .update (Reg.Update.UG_CFG_KIND (s.groupOf (.out 3))) = 1 ∧ s.swapWarms 3 (c.n 1) = true) ∧
    (∃ (s : State) (c : Cmd), Issued s c 0x21 ∧ c.n 0 = 3 + 65536 ∧ 3 < s.model.outputs ∧ 3 < s.nowOutputs ∧ c.n 1 < 3 ∧
      s.owns c.seat (.out 3) = true ∧ s.groupOf (.out 3) < 32 ∧
      s.fld .update (Reg.Update.UG_CFG_KIND (s.groupOf (.out 3))) = 1 ∧ s.swapWarms 3 (c.n 1) = false) ∧
    (∃ (s : State) (o : RouteOld), (s.route 3).old = some o ∧ o.start + o.n ≤ s.blockStart s.render.block) := by
  refine ⟨⟨warmable, ?_⟩,
    ⟨{ outs := [(3, { corr := { warming := some (1, 0), bank1 := { state := 2, taps := List.replicate 128 1 }, seg := [(17, 1)] } })] }, ?_⟩,
    ⟨{ outs := [(3, { corr := { fade := some ⟨0, 0, 0⟩ } })] }, ⟨0, 0, 0⟩, ?_⟩,
    ⟨flying [cmd 0x20], cmd 0x20, ?_⟩, ⟨flying [cmd 0x21 [65539, 2]] warmable, cmd 0x21 [65539, 2], ?_⟩,
    ⟨flying [cmd 0x21 [65539, 0]], cmd 0x21 [65539, 0], ?_⟩,
    ⟨{ routes := [(3, { old := some ⟨{}, false, 0, 0, false, 0, 0⟩ })] }, ⟨{}, false, 0, 0, false, 0, 0⟩, ?_⟩⟩
    <;> (try unfold Issued) <;> and_intros <;> decide +kernel

theorem witness_SafetyCurtain :
    (∃ s : State, ¬ 100 * s.fs ≤ (s.render.tick + 1 - s.curtain.rawAt) * 1000000) ∧
    (∃ s : State, s.lockPri = false ∧ s.lockUnd = false ∧ 100 * s.fs ≤ (s.render.tick + 1 - s.curtain.rawAt) * 1000000) ∧
    (∃ s : State, s.lockPri = false ∧ s.lockUnd = false ∧ s.causes &&& 11 ≠ 0 ∧ s.curtain.canClose = true) ∧
    (∃ s : State, s.lockPri = false ∧ s.lockUnd = false ∧ s.causes &&& 11 = 0 ∧ s.causes ≠ 0 ∧ s.curtain.canClose = false) ∧
    (∃ s : State, s.lockPri = false ∧ s.lockUnd = false ∧ s.causes &&& 11 = 0 ∧ s.curtain.canClose = true) ∧
    (∃ s : State, s.curtain.clearedAt = some 0 ∧ s.bit .curtain Reg.Curtain.CTRL_AUTO_RELEASE = true ∧ s.causes = 0 ∧
      0 + s.fs ≤ s.render.tick ∧ s.curtain.canClose = false ∧ s.lockPri = false ∧ s.lockUnd = false) ∧
    (∃ s : State, s.curtain.clearedAt = some 0 ∧ s.bit .curtain Reg.Curtain.CTRL_AUTO_RELEASE = true ∧ s.causes = 0 ∧
      0 + s.fs ≤ s.render.tick ∧ s.curtain.canClose = false ∧ s.lockPri = false ∧ s.lockUnd = true) ∧
    (∃ s : State, s.curtain.phase = .closing ∧ s.curtain.gainAt s.lastReleased = 0) ∧
    (∃ s : State, s.curtain.phase = .opening ∧ s.curtain.due = false ∧ s.curtain.gainAt s.lastReleased = unity) := by
  refine ⟨⟨{}, ?_⟩, ⟨{ render := { tick := 4 } }, ?_⟩, ⟨mk [(.curtain, Reg.Curtain.STATUS_CAUSE, 8)], ?_⟩,
    ⟨{ mk [(.curtain, Reg.Curtain.STATUS_CAUSE, 4)] with curtain := { phase := .closed } }, ?_⟩, ⟨{}, ?_⟩,
    ⟨{ mk [(.curtain, Reg.Curtain.CTRL_AUTO_RELEASE, 1)] with
       curtain := { phase := .closed, clearedAt := some 0 }, render := { tick := 48000 } }, ?_⟩,
    ⟨{ mk [(.curtain, Reg.Curtain.CTRL_AUTO_RELEASE, 1), (.twin, Reg.Twin.STATE, 0xB), (.twin, Reg.Twin.ROLE, 1)] with
       curtain := { phase := .closed, clearedAt := some 0 }, render := { tick := 48000 }, twin := { mode := 2 } }, ?_⟩,
    ⟨{ curtain := { phase := .closing } }, ?_⟩, ⟨{ curtain := { phase := .opening, from_ := 0 } }, ?_⟩⟩
    <;> and_intros <;> decide +kernel

/-! Capture, measurement, local channels -/

/-- A capture of chain 0 into 64 bytes, of the command of SEAT 0 with tag 9. -/
def taking : C2m := { seat := 0, tag := 9, ring := false, measure := false, mask := 1, size := 64, start := none, handle := 1 }

theorem witness_CaptureChains :
    (∃ s : State, 47 < 48 ∧ chainPresent s.model 47 = true ∧ s.chainClocked 47 = true ∧ (s.chain 47).phase = .settled ∧
      (s.chain 47).stuck = false ∧ (s.chain 47).measure = 0 ∧ s.renderRate 47 = true ∧
      s.fld .capture (Reg.Capture.CH_CTRL_DCB 47) = 2 ∧ s.lockUnd = false ∧
      (let e := s.chain 47
       (e.stages.run e.cfg e.linear (s.chainBits 47 (periods e.cfg.scm e.cfg.r e.cfg.hb) [(true, true)] []).1).2.isSome = true)) ∧
    (∃ s : State, s.chainClocked 47 = false ∧ (s.chain 47).phase = .settled) ∧
    (∃ s : State, (s.chain 55).phase ≠ .off ∧ (s.chain 55).stuck = false ∧ s.chainClocked 55 = true) ∧
    (∃ s : State, s.scMode 55 = true ∧ (s.chain 55).phase ≠ .off) ∧
    (∃ s : State, (s.chain 55).phase = .up 0 ∧ 0 + s.ms ≤ s.render.rsi + 1) ∧
    (∃ s : State, s.fld .capture Reg.Capture.SERVICE_STATE ≠ 0) ∧
    (∃ (s : State) (c : Cmd), Issued s c 0x38 ∧ 0 < c.n 0 + 2 ^ 32 * c.n 1 ∧ c.n 0 + 2 ^ 32 * c.n 1 < 2 ^ 56 ∧
      (chainsOf (c.n 0 + 2 ^ 32 * c.n 1)).length ≤ 16 ∧ c.n 2 ≠ 0 ∧ s.measure.c2m.length < 4 ∧
      s.chainsFault (c.n 0 + 2 ^ 32 * c.n 1) false = none ∧ c.n 2 ≤ s.poolFree ∧ c.flag 1 = false) ∧
    (∃ (s : State) (c : Cmd), Issued s c 0x38 ∧ 0 < c.n 0 + 2 ^ 32 * c.n 1 ∧ c.n 0 + 2 ^ 32 * c.n 1 < 2 ^ 56 ∧
      (chainsOf (c.n 0 + 2 ^ 32 * c.n 1)).length ≤ 16 ∧ c.n 2 ≠ 0 ∧ 4 ≤ s.measure.c2m.length) ∧
    (∃ (s : State) (q : C2m), s.measure.c2m = [q] ∧ q.on = false ∧ q.measure = false ∧ q.start = some s.render.rsi) ∧
    (∃ (s : State) (q : C2m), s.measure.c2m = [q] ∧ q.on = false ∧ q.measure = false ∧ q.start.getD 0 ≤ s.render.rsi ∧
      s.render.rsi % s.blockSize = 0) ∧
    (∃ (s : State) (c : Cmd) (q : C2m), s.measure.c2m = [q] ∧ q.seat = c.seat ∧ q.tag = c.tag ∧ q.measure = false ∧ q.ring = false ∧
      q.pos = q.size ∧ s.cmdOf c.seat c.tag = some c ∧ c.cancel = none ∧ c.final = false ∧ c.waiters = [] ∧ c.tag < bootTag ∧
      c.seat < 8 ∧ c.sq < 4) := by
  refine ⟨⟨{ mk [(.capture, Reg.Capture.CH_CTRL_DCB 47, 2), (.capture, Reg.Capture.CLK_EN_SNS1, 1)] with
       chains := [(47, { phase := .settled, cfg := { r := 1, hb := 0, fir := false, scm := true } })] }, ?_⟩,
    ⟨{ chains := [(47, { phase := .settled })] }, ?_⟩, ⟨{ chains := [(55, { phase := .settled })] }, ?_⟩,
    ⟨{ mk [(.capture, Reg.Capture.CH_CTRL_SCMODE 55, 1)] with chains := [(55, { phase := .settled })] }, ?_⟩,
    ⟨{ chains := [(55, { phase := .up 0 })], render := { rsi := 47 } }, ?_⟩,
    ⟨mk [(.capture, Reg.Capture.SERVICE_STATE, 1)], ?_⟩,
    ⟨flying [cmd 0x38 [1, 0, 64]] (mk [(.capture, Reg.Capture.CH_CTRL_EN 0, 1)] State.reset), cmd 0x38 [1, 0, 64], ?_⟩,
    ⟨flying [cmd 0x38 [1, 0, 64]] { measure := { c2m := List.replicate 4 taking } }, cmd 0x38 [1, 0, 64], ?_⟩,
    ⟨{ measure := { c2m := [{ taking with start := some 5 }] }, render := { rsi := 5 } }, { taking with start := some 5 }, ?_⟩,
    ⟨{ measure := { c2m := [taking] } }, taking, ?_⟩,
    ⟨flying [cmd 0x38] { measure := { c2m := [{ taking with tag := 7, on := true, pos := 64 }] } }, cmd 0x38,
      { taking with tag := 7, on := true, pos := 64 }, ?_⟩⟩
    <;> (try unfold Issued) <;> and_intros <;> decide +kernel

/-- A campaign of one output and one chain, of SEAT 0. -/
def camp : Campaign :=
  { desc := { outs := [0], sets := [1] }, handle := 4, seat := 0, tag := 3, buffer := 5, rate := 0 }

/-- A copy with the CRC of its content checks good. -/
theorem crc_good (j : Journal) : Journal.good { j with crc := crc32 j.content } = true := decide_eq_true rfl

/-- Such a copy of the journal. -/
def theCopy : Journal := { ({ handle := 4, buffer := 5 } : Journal) with crc := crc32 (Journal.content { handle := 4, buffer := 5 }) }

theorem theCopy_good : theCopy.good = true := crc_good _

/-- It is the device's campaign. -/
def camping (q : Campaign) (j : Bool := false) : State :=
  { measure := { campaign := some q, journal0 := if j then some theCopy else none } }

theorem journal_first (q : Campaign) (j : Journal) (h : j.good = true) :
    Measurement.journal { campaign := some q, journal0 := some j } = some j := by
  unfold Measurement.journal
  rw [show Option.filter (fun x : Journal => x.good) (some j) = some j from Option.filter_eq_some_iff.2 ⟨rfl, h⟩]
  rfl

theorem camping_measure (q : Campaign) (cs : List Cmd) :
    (flying cs (camping q true)).measure = { campaign := some q, journal0 := some theCopy } := rfl

theorem camping_journal (q : Campaign) (cs : List Cmd) : (flying cs (camping q true)).measure.journal ≠ none := by
  rw [camping_measure, journal_first q theCopy theCopy_good]
  exact Option.some_ne_none _

theorem witness_Campaigns :
    (∃ (s : State) (c : Cmd), Issued s c 0x30 ∧ s.campaignThere = false ∧ s.measure.probe = none ∧ s.sourceFault c 0 = none ∧
      c.n 3 ≤ s.poolFree) ∧
    (∃ (s : State) (c : Cmd), Issued s c 0x30 ∧ s.campaignThere = true) ∧
    (∃ (s : State) (q : Campaign), s.measure.campaign = some q ∧ q.phase = .measure ∧ q.stepStart = some 0 ∧
      0 + q.desc.playEnd s.rateMul q.playBase q.play ≤ s.render.rsi ∧ q.play + 1 < q.desc.averages) ∧
    (∃ (s : State) (q : Campaign), s.measure.campaign = some q ∧ q.decon = some (0, 0)) ∧
    (∃ (s : State) (q : Campaign), s.measure.campaign = some q ∧ q.phase ≠ .ended ∧ q.due = some 0) ∧
    (∃ (s : State) (c : Cmd), Issued s c 0x31 ∧ s.measure.campaign = none ∧ c.flag 0 = false) ∧
    (∃ (s : State) (c : Cmd), Issued s c 0x31 ∧ s.measure.campaign = none ∧ c.flag 0 = true) := by
  refine ⟨⟨flying [cmd 0x30], cmd 0x30, ?_⟩, ⟨flying [cmd 0x30] (camping camp), cmd 0x30, ?_⟩,
    ⟨{ camping { camp with desc := { averages := 2 }, phase := .measure, stepStart := some 0 } with render := { rsi := 5000 } },
      { camp with desc := { averages := 2 }, phase := .measure, stepStart := some 0 }, ?_⟩,
    ⟨camping { camp with decon := some (0, 0) }, { camp with decon := some (0, 0) }, ?_⟩,
    ⟨camping { camp with due := some 0 }, { camp with due := some 0 }, ?_⟩,
    ⟨flying [cmd 0x31 [4]], cmd 0x31 [4], ?_⟩, ⟨flying [cmd 0x31 [4] 0 4], cmd 0x31 [4] 0 4, ?_⟩⟩
    <;> (try unfold Issued) <;> and_intros <;> decide +kernel

theorem witness_CampaignsHeld :
    (∃ (s : State) (c : Cmd) (q : Campaign), Issued s c 0x31 ∧ s.measure.campaign = some q ∧ q.phase = .held ∧ q.handle = c.n 0 ∧
      q.seat = c.seat ∧ s.measure.journal ≠ none ∧ c.flag 0 = false ∧ s.measure.probe = none ∧
      q.rate = s.fld .render Reg.Render.CFG_RATE) ∧
    (∃ (s : State) (c : Cmd) (q : Campaign), Issued s c 0x31 ∧ s.measure.campaign = some q ∧ q.phase = .held ∧ q.handle = c.n 0 ∧
      q.seat = c.seat ∧ s.measure.journal ≠ none ∧ c.flag 0 = true) := by
  refine ⟨⟨flying [cmd 0x31 [4]] (camping { camp with phase := .held } true), cmd 0x31 [4], { camp with phase := .held }, ?_⟩,
    ⟨flying [cmd 0x31 [4] 0 4] (camping { camp with phase := .held } true), cmd 0x31 [4] 0 4, { camp with phase := .held }, ?_⟩⟩
    <;> unfold Issued <;> and_intros
  all_goals first | exact camping_journal _ _ | decide +kernel

/-- A probe of SEAT 0, the command with tag 3. -/
def probe_ : Probe :=
  { outs := [(0, 0)], mask := 1, post := false, exponential := false, keepDcb := false, frames := 1, gate := 60, report := 0
    seat := 0, tag := 3, buffer := 5, start := some 0 }

/-- It runs, with the commands of SEAT 0 given. -/
def probing (cs : List Cmd) : State := { flying cs with measure := { probe := some probe_ } }

theorem witness_Probes :
    (∃ (s : State) (c : Cmd), Issued s c 0x32 ∧ s.campaignThere = false ∧ s.measure.probe = none ∧ s.sourceFault c 0 = none ∧
      c.n 3 ≤ s.poolFree) ∧
    (∃ (s : State) (c : Cmd), Issued s c 0x32 ∧ s.measure.probe ≠ none) ∧
    (∃ (s : State) (p : Probe) (c : Cmd), s.measure.probe = some p ∧ p.start = some 0 ∧ s.cmdOf p.seat p.tag = some c ∧
      c.state = .running ∧ 0 + 4096 * p.index + 8192 ≤ s.blockStart s.render.block) ∧
    (∃ (s : State) (p : Probe), s.measure.probe = some p ∧ p.report ≤ p.since ∧ s.cmdOf p.seat p.tag = none) ∧
    (∃ (s : State) (c d : Cmd) (p : Probe), Issued s c 0x33 ∧ s.measure.probe = some p ∧ p.seat = c.seat ∧ p.tag = c.n 0 ∧
      s.cmdOf c.seat p.tag = some d ∧ d.seat = c.seat ∧ d.final = false ∧ d.waiters = [] ∧ p.tag < bootTag ∧ p.tag ≠ c.tag ∧
      d.sq < 4) ∧
    (∃ (s : State) (c : Cmd), Issued s c 0x33 ∧ s.measure.probe = none) := by
  refine ⟨⟨flying [cmd 0x32], cmd 0x32, ?_⟩, ⟨probing [cmd 0x32], cmd 0x32, ?_⟩,
    ⟨{ probing [long 0x32 .running 1] with render := { block := 512 } }, probe_, long 0x32 .running 1, ?_⟩,
    ⟨probing [], probe_, ?_⟩, ⟨probing [long 0x32 .running 1, cmd 0x33 [3]], cmd 0x33 [3], long 0x32 .running 1, probe_, ?_⟩,
    ⟨flying [cmd 0x33 [3]], cmd 0x33 [3], ?_⟩⟩ <;> (try unfold Issued) <;> and_intros <;> decide +kernel

/-- Channel 15 with an engine. -/
def chan (e : PsEngine) (l : List (Blk × Fld × Nat) := []) : State := { mk l with ps := [(15, e)] }

/-- A closed loop on channel 15, one window of it complete: V = 60 and I = 10 in phase, of 1 V and 1 A, so 6 ohms. -/
def loop_ (d : Demod := { vRe := 60, iRe := 10 }) : State :=
  { mk [(.ps 15, Reg.Ps.CTRL_CLOSED_EN, 1), (.capture, Reg.Capture.CH_CTRL_EN 31, 1), (.capture, Reg.Capture.CH_CTRL_EN 47, 1),
        (.capture, Reg.Capture.CLK_EN_SNS1, 1), (.ps 15, Reg.Ps.VSNS_SCALE, 256), (.ps 15, Reg.Ps.ISNS_SCALE, 256)] with
    chains := [(31, { phase := .settled }), (47, { phase := .settled })], ps := [(15, { window := some d })] }

theorem witness_LocalChannels :
    (∃ s : State, Map.wf ({} : OutEngine) s.outs = true ∧ s.outs ≠ []) ∧
    (∃ s : State, 15 < s.model.pss ∧ s.lockPri = false ∧ s.lockUnd = false ∧
      s.fld (.ps 15) Reg.Ps.ILIM < absNat (2 ^ 31) * 1024 ∧ (s.psOf 15).switching = true ∧ (s.psOf 15).limitNow = false ∧
      s.fld (.ps 15) Reg.Ps.CONSEC + 1 < 32) ∧
    (∃ s : State, s.fld (.ps 15) Reg.Ps.ILIM < absNat (2 ^ 31) * 1024 ∧ (s.psOf 15).switching = true ∧
      (s.psOf 15).limitNow = false ∧ 32 ≤ s.fld (.ps 15) Reg.Ps.CONSEC + 1) ∧
    (∃ s : State, absNat 0 * 1024 ≤ s.fld (.ps 15) Reg.Ps.ILIM ∧ (s.psOf 15).switching = false ∧ (s.psOf 15).start = false ∧
      (s.psOf 15).runs = false) ∧
    (∃ s : State, (s.psOf 15).runs = true ∧ (s.psOf 15).start = true ∧ (s.psOf 15).faultPin = false) ∧
    (∃ s : State, (s.psOf 15).state = .latched ∧ s.mayRecover 15 = true) ∧
    (∃ s : State, (s.psOf 15).state = .latched ∧ s.mayRecover 15 = false) ∧
    (∃ s : State, (s.psOf 15).state = .retryWait ∧ (s.psOf 15).waitEnd ≤ s.render.tick ∧ s.mayRecover 15 = true) ∧
    (∃ s : State, (s.psOf 15).state = .recovering ∧ (s.psOf 15).feeding = true ∧
      (s.psOf 15).feed.start + (s.psOf 15).feed.n ≤ s.render.rsi + 1) ∧
    (∃ s : State, (s.psOf 15).cleanFrom = some 0 ∧ (s.psOf 15).state = .running ∧ 0 + 60 * s.second ≤ s.render.tick) ∧
    (∃ s : State, (s.psOf 15).window = none) ∧
    (∀ ok : Bool, ∃ (s : State) (d : Demod), (s.psOf 15).window = some d ∧ s.closedLoop 15 = true ∧
      let z := d.impedance (s.fld (.ps 15) Reg.Ps.VSNS_SCALE) (s.fld (.ps 15) Reg.Ps.ISNS_SCALE)
      let re0 : Int := s.fld .protect (Reg.Protect.P_RE0 (s.fld (.out (s.psSource 15)) Reg.Out.PROT_PROFILE))
      decide (0 < z.2.2 ∧ 4 * (absNat (openPart z.2.1 z.2.2 0) : Int) ≤ openPart z.1 z.2.2 0 ∧ re0 ≤ 2 * openPart z.1 z.2.2 0 ∧
        openPart z.1 z.2.2 0 ≤ 3 * re0) = ok) := by
  refine ⟨⟨{ outs := [(3, { live := true })] }, ?_⟩, ⟨chan { switching := true }, ?_⟩,
    ⟨chan { switching := true } [(.ps 15, Reg.Ps.CONSEC, 31)], ?_⟩, ⟨{}, ?_⟩,
    ⟨chan { state := .running, start := true }, ?_⟩, ⟨chan { state := .latched }, ?_⟩,
    ⟨chan { state := .latched, stuck := true }, ?_⟩, ⟨chan { state := .retryWait }, ?_⟩,
    ⟨chan { state := .recovering, feeding := true }, ?_⟩,
    ⟨{ chan { state := .running, cleanFrom := some 0 } with render := { tick := 2880000 } }, ?_⟩, ⟨{}, ?_⟩,
    fun ok => ⟨loop_ (if ok then { vRe := 60, iRe := 10 } else {}), if ok then { vRe := 60, iRe := 10 } else {}, ?_⟩⟩
  case refine_12 => cases ok <;> and_intros <;> decide +kernel
  all_goals and_intros <;> decide +kernel

/-! Ports, Ethernet, streams, time -/

/-- TDM receive section 15 in a state of its own. -/
def sect (e : PortState) (l : List (Blk × Fld × Nat) := []) : State := { mk l with tdmRx := [(15, e)] }

theorem witness_PortSections :
    (∃ s : State, s.hasPort (.tdmRx 15) = true ∧ s.mediaSync (.tdmRx 15) = false ∧ (s.port (.tdmRx 15)).phase = .unlocked ∧
      (s.port (.tdmRx 15)).sync = false ∧ (s.port (.tdmRx 15)).bads = 0 ∧ (s.port (.tdmRx 15)).gaps = [] ∧
      0 < (s.portFrame (.tdmRx 15)).1) ∧
    (∃ s : State, s.hasPort (.tdmRx 15) = true ∧ s.mediaSync (.tdmRx 15) = false ∧ (s.port (.tdmRx 15)).phase ≠ .off ∧
      15 ≠ (s.portFrame (.tdmRx 15)).1) ∧
    (∃ s : State, s.hasPort (.tdmRx 15) = true ∧ (s.port (.tdmRx 15)).phase = .unlocked) ∧
    (∃ s : State, s.hasPort (.tdmRx 15) = true ∧ (s.port (.tdmRx 15)).phase = .locked ∧ s.stopDue (.tdmRx 15) = false) ∧
    (∃ s : State, s.hasPort (.tdmRx 15) = true ∧ (s.port (.tdmRx 15)).phase = .locked ∧ s.stopDue (.tdmRx 15) = true ∧
      (s.port (.tdmRx 15)).filling = false ∧
      (s.port (.tdmRx 15)).env.flip = none) ∧
    (∃ (s : State) (rate : Nat), s.hasPort (.tdmRx 15) = true ∧ (s.port (.tdmRx 15)).phase = .unlocked ∧
      64 ≤ (s.port (.tdmRx 15)).good ∧ s.portAsrc (.tdmRx 15) = true ∧ 8000 * 256 ≤ rate ∧ rate ≤ 192000 * 256 ∧ (portRatio s.fs rate).2 = true) ∧
    (∃ (s : State) (rate : Nat), s.hasPort (.tdmRx 15) = true ∧ (s.port (.tdmRx 15)).phase = .unlocked ∧
      64 ≤ (s.port (.tdmRx 15)).good ∧ s.portAsrc (.tdmRx 15) = true ∧ 8000 * 256 ≤ rate ∧ rate ≤ 192000 * 256 ∧ (portRatio s.fs rate).2 = false) ∧
    (∃ s : State, s.hasPort (.tdmRx 15) = true ∧ (s.port (.tdmRx 15)).phase = .locking) ∧
    (∃ s : State, s.hasPort (.tdmRx 15) = true ∧ (s.port (.tdmRx 15)).phase ≠ .off ∧ (s.port (.tdmRx 15)).sync = false ∧
      (s.port (.tdmRx 15)).phase0.isSome = true ∧ (s.port (.tdmRx 15)).rate = s.fs * 256 ∧
      (s.port (.tdmRx 15)).since + s.second ≤ s.render.tick) ∧
    (∃ (s : State) (rate : Nat), s.hasPort (.tdmRx 15) = true ∧ (s.port (.tdmRx 15)).phase = .locked ∧ s.portAsrc (.tdmRx 15) = true ∧
      20 * absNat ((rate : Int) - (s.port (.tdmRx 15)).lockRate) = (s.port (.tdmRx 15)).lockRate) ∧
    (∃ (s : State) (rate : Nat), s.hasPort (.tdmRx 15) = true ∧ (s.port (.tdmRx 15)).phase = .locked ∧ s.portAsrc (.tdmRx 15) = true ∧
      (s.port (.tdmRx 15)).lockRate < 20 * absNat ((rate : Int) - (s.port (.tdmRx 15)).lockRate)) := by
  refine ⟨⟨sect { phase := .unlocked }, ?_⟩, ⟨sect { phase := .locked }, ?_⟩, ⟨sect { phase := .unlocked }, ?_⟩,
    ⟨sect { phase := .locked, rate := 48000 * 256 }, ?_⟩,
    ⟨{ sect { phase := .locked, rate := 48000 * 256 } with render := { tick := 5 } }, ?_⟩,
    ⟨sect { phase := .unlocked, good := 64 } [(.tdm 15, Reg.Tdm.RX_CFG_ASRC, 1)], 49152000, ?_⟩,
    ⟨sect { phase := .unlocked, good := 64 } [(.tdm 15, Reg.Tdm.RX_CFG_ASRC, 1)], 2048000, ?_⟩,
    ⟨sect { phase := .locking }, ?_⟩,
    ⟨{ sect { phase := .syncWait, phase0 := some 0, rate := 12288000 } with render := { tick := 48000 } }, ?_⟩,
    ⟨sect { phase := .locked, lockRate := 12288000 } [(.tdm 15, Reg.Tdm.RX_CFG_ASRC, 1)], 12902400, ?_⟩,
    ⟨sect { phase := .locked, lockRate := 12288000 } [(.tdm 15, Reg.Tdm.RX_CFG_ASRC, 1)], 12902401, ?_⟩⟩
    <;> and_intros <;> decide +kernel

/-- AES3 receiver 7, unlocked. -/
def aes7 (l : List (Blk × Fld × Nat) := []) : State := { mk l with aesRx := [(7, { port := { phase := .unlocked }, sincePa := 8192 })] }

theorem witness_AesAndClocks :
    (∃ s : State, s.hasPort (.aesRx 7) = true ∧ (s.port (.aesRx 7)).phase ≠ .off ∧ (s.port (.aesRx 7)).bads = 0 ∧
      (s.port (.aesRx 7)).gaps = [] ∧ s.bit (.aesRx 7) Reg.AesRx.CTRL_VALIDITY_MUTE = false) ∧
    (∃ bs : List Byte, bs.length = 24 ∧ leAt bs 0 1 % 2 = 0) ∧
    (∃ bs : List Byte, bs.length = 24 ∧ leAt bs 0 1 % 2 = 1 ∧ bs.getD 23 0 ≠ crcc bs) ∧
    (∃ s : State, s.hasPort (.aesRx 7) = true ∧ (s.port (.aesRx 7)).phase ≠ .off ∧ s.bit (.aesRx 7) Reg.AesRx.NONAUDIO = true ∧
      (s.aes 7).naA = false ∧ (s.aes 7).naB = false ∧ 8192 ≤ (s.aes 7).sincePa) ∧
    (∃ s : State, Blk.present s.model (.aesTx 7) = true ∧ s.bit (.aesTx 7) Reg.AesTx.CTRL_EN = true ∧
      (Map.get ({} : AesTxState) 7 s.aesTx).cs ≠ s.csToSend 7) := by
  refine ⟨⟨aes7, ?_⟩, ⟨List.replicate 24 0, ?_⟩, ⟨1 :: List.replicate 23 0, ?_⟩, ⟨aes7 [(.aesRx 7, Reg.AesRx.NONAUDIO, 1)], ?_⟩,
    ⟨mk [(.aesTx 7, Reg.AesTx.CTRL_EN, 1)], ?_⟩⟩ <;> and_intros <;> decide +kernel

/-- A port 3 whose classifier program is one instruction of two words. -/
def prog (w0 w1 : Nat) (l : List (Blk × Fld × Nat) := []) : State :=
  let s := mk ((.ethCls 3, Reg.EthCls.LENGTH, 1) :: l)
  let b := (extraOf (.ethCls 3)).1
  { s with fab := { s.fab with act := (s.fab.act.put 0#32 b (BitVec.ofNat 32 w0)).put 0#32 (b + 4) (BitVec.ofNat 32 w1) } }

/-- Instruction 0 of port 3 is an `op` on the frame `f` whose field holds `x`. -/
abbrev Cls (s : State) (op : Nat) (f : List Byte) (x : Option Nat) : Prop :=
  s.hasEth 3 = true ∧ 0 < s.fld (.ethCls 3) Reg.EthCls.LENGTH ∧ bitsOf (s.clsInstr 3 0).1 31 28 = op ∧
    clsField (bitsOf (s.clsInstr 3 0).1 27 24) f = x

/-- The mask of instruction 0 of port 3. -/
abbrev clsMask (s : State) : Nat := s.fld (.ethCls 3) (Reg.EthCls.MASK (bitsOf (s.clsInstr 3 0).1 15 0 % 16))

/-- A frame of zeros, and an AVTP frame of stream 0. -/
def zeros : List Byte := List.replicate 60 0
def avtp : List Byte := List.replicate 12 0 ++ [0x22, 0xF0, 2] ++ List.replicate 45 0

theorem witness_ClassifierInstructions :
    (∃ s, Cls s 0 zeros (some 0)) ∧
    (∃ s, Cls s 1 zeros (some 0) ∧ 0 &&& clsMask s = (s.clsInstr 3 0).2.toNat) ∧
    (∃ s, Cls s 1 zeros (some 0) ∧ ¬ 0 &&& clsMask s = (s.clsInstr 3 0).2.toNat) ∧
    (∃ s, Cls s 2 zeros (some 0) ∧ 0 &&& clsMask s = (s.clsInstr 3 0).2.toNat) ∧
    (∃ s, Cls s 2 zeros none) ∧
    (∃ s, Cls s 3 zeros (some 0) ∧ bitsOf (s.clsInstr 3 0).1 15 0 ≤ 0 ∧ 0 ≤ (s.clsInstr 3 0).2.toNat % 65536) ∧
    (∃ s, Cls s 3 zeros (some 0) ∧ ¬ bitsOf (s.clsInstr 3 0).1 15 0 ≤ 0) ∧
    (∃ s, Cls s 4 zeros (some 0)) ∧
    (∃ s, Cls s 5 zeros (some 0) ∧ (s.clsInstr 3 0).2.toNat % 256 = 255 ∧ s.bit (.ingress 255) Reg.Ingress.CTRL_ENABLE = true) ∧
    (∃ s, Cls s 5 zeros (some 0) ∧ (s.clsInstr 3 0).2.toNat % 256 = 255 ∧ s.bit (.ingress 255) Reg.Ingress.CTRL_ENABLE = false) ∧
    (∃ s, Cls s 6 avtp (some 0) ∧ s.clsLookup 3 avtp = some 9) ∧
    (∃ s, Cls s 6 zeros (some 0) ∧ s.clsLookup 3 zeros = none) ∧
    (∃ s, Cls s 7 zeros (some 0) ∧ s.bit (.ethMac 3) (Reg.EthMac.XQ_EN ((s.clsInstr 3 0).2.toNat % 4)) = false) ∧
    (∃ s, Cls s 8 zeros (some 0)) ∧ (∃ s, Cls s 9 zeros (some 0)) ∧ (∃ s, Cls s 10 zeros (some 0)) := by
  refine ⟨⟨prog 0 0, ?_⟩, ⟨prog 0x10000000 0, ?_⟩, ⟨prog 0x10000000 1, ?_⟩, ⟨prog 0x20000000 0, ?_⟩, ⟨prog 0x24000000 0, ?_⟩,
    ⟨prog 0x30000000 0, ?_⟩, ⟨prog 0x30000001 5, ?_⟩, ⟨prog 0x40050000 0, ?_⟩,
    ⟨prog 0x50000000 255 [(.ingress 255, Reg.Ingress.CTRL_ENABLE, 1)], ?_⟩, ⟨prog 0x50000000 255, ?_⟩,
    ⟨prog 0x60000000 0 [(.ingress 9, Reg.Ingress.CTRL_ENABLE, 1), (.ingress 9, Reg.Ingress.CTRL_PORT, 3)], ?_⟩,
    ⟨prog 0x60000000 0, ?_⟩, ⟨prog 0x70000000 3, ?_⟩, ⟨prog 0x8000000F 0, ?_⟩, ⟨prog 0x90000000 0, ?_⟩, ⟨prog 0xA0000000 0, ?_⟩⟩
    <;> and_intros <;> decide +kernel

/-- Port 3 with its MAC in a state. -/
def port3 (e : EthPort) (l : List (Fld × Nat) := []) : State :=
  { mk (l.map (fun x => (.ethMac 3, x))) with net := { ports := [(3, e)] } }

theorem witness_EthernetPorts :
    (∃ s : State, s.hasEth 3 = true ∧ s.bit (.ethMac 3) Reg.EthMac.CFG_EN = true ∧ s.bit (.ethMac 3) Reg.EthMac.STATUS_LINK = false) ∧
    (∃ s : State, s.hasEth 3 = true ∧ s.bit (.ethMac 3) Reg.EthMac.STATUS_LINK = true) ∧
    (∃ s : State, s.hasEth 3 = true ∧ (s.eth 3).pauses = [(0, some 65535, [])] ∧ s.bit (.ethMac 3) Reg.EthMac.PAUSE_RX_EN = true ∧
      s.bit (.ethMac 3) Reg.EthMac.PAUSE_EXEMPT = false) ∧
    (∃ s : State, s.hasEth 3 = true ∧ (s.eth 3).pauses = [(0, some 65535, [])] ∧ s.bit (.ethMac 3) Reg.EthMac.PAUSE_RX_EN = false) ∧
    (∃ s : State, s.hasEth 3 = true ∧ (s.eth 3).paused 7 = true ∧ s.pauseEnd 3 7 ≤ 1000 * s.nextNs) ∧
    (∃ s : State, s.hasEth 3 = true ∧ (s.eth 3).paused 7 = true ∧ 1000 * s.nextNs < s.pauseEnd 3 7) ∧
    (∃ s : State, s.hasEth 3 = true ∧ s.fld (.ethMac 3) Reg.EthMac.PAUSE_TX_MODE = 1 ∧
      s.bit (.ethMac 3) Reg.EthMac.STATUS_ABOVE_HIGH = false) ∧
    (∃ s : State, s.hasEth 3 = true ∧ s.fld (.ethMac 3) Reg.EthMac.PAUSE_TX_MODE = 1 ∧
      s.bit (.ethMac 3) Reg.EthMac.STATUS_ABOVE_HIGH = true) ∧
    (∃ s : State, s.hasEth 3 = true ∧ 60 ≤ (s.eth 3).xtx.length ∧ s.queueUse 3 7 = 0 ∧ 60 ≤ s.ethMtu 3 + 18) ∧
    (∃ s : State, s.hasEth 3 = true ∧ ¬ 61 ≤ (s.eth 3).xtx.length) ∧
    (∃ s : State, s.hasEth 3 = true ∧ (s.eth 3).mdio = some 0#32) ∧
    (∃ (s : State) (f : List Byte), s.hasEth 3 = true ∧ s.bit (.ethMac 3) Reg.EthMac.STATUS_LINK = true ∧ f.length = 60 ∧
      clientData f ≤ s.ethMtu 3 ∧ s.forwards 3 f = false) ∧
    (∃ (s : State) (f : List Byte), s.hasEth 3 = true ∧ s.bit (.ethMac 3) Reg.EthMac.STATUS_LINK = true ∧ f.length = 60 ∧
      clientData f ≤ s.ethMtu 3 ∧ (ethType f).1 = 0x8808 ∧ pauseTimes f = some (some 9, [])) := by
  refine ⟨⟨port3 {} [(Reg.EthMac.CFG_EN, 1)], ?_⟩, ⟨port3 {} [(Reg.EthMac.STATUS_LINK, 1)], ?_⟩,
    ⟨port3 { pauses := [(0, some 65535, [])] } [(Reg.EthMac.PAUSE_RX_EN, 1)], ?_⟩, ⟨port3 { pauses := [(0, some 65535, [])] } [(Reg.EthMac.PAUSE_RX_EN, 0)], ?_⟩,
    ⟨port3 { quanta := [(7, (0, 1))] }, ?_⟩, ⟨port3 { quanta := [(7, (0, 65535))] }, ?_⟩, ⟨port3 {} [(Reg.EthMac.PAUSE_TX_MODE, 1)], ?_⟩,
    ⟨port3 {} [(Reg.EthMac.PAUSE_TX_MODE, 1), (Reg.EthMac.STATUS_ABOVE_HIGH, 1)], ?_⟩,
    ⟨port3 { xtx := zeros } [(Reg.EthMac.MTU, 1500), (Reg.EthMac.QUEUE_USE 7, 0)], ?_⟩, ⟨port3 { xtx := zeros }, ?_⟩, ⟨port3 { mdio := some 0#32 }, ?_⟩,
    ⟨port3 {} [(Reg.EthMac.STATUS_LINK, 1), (Reg.EthMac.MTU, 46)], zeros, ?_⟩,
    ⟨port3 {} [(Reg.EthMac.STATUS_LINK, 1), (Reg.EthMac.MTU, 46)],
      List.replicate 12 0 ++ [0x88, 0x08, 0, 1, 0, 9] ++ List.replicate 42 0, ?_⟩⟩ <;> and_intros <;> decide +kernel

theorem witness_TransmissionAndGates :
    (∃ (s : State) (f : TxFrame), s.hasEth 3 = true ∧ s.bit (.ethMac 3) Reg.EthMac.STATUS_LINK = true ∧ (s.eth 3).txEnd ≤ 0 ∧
      (s.eth 3).gcl = none ∧ (s.eth 3).change = none ∧ (s.eth 3).queue 0 = [f] ∧ (∀ r, r < 8 → 0 < r → (s.eth 3).queue r = []) ∧
      (s.fld (.ethGate 3) Reg.EthGate.IDLE_STATES).testBit 0 = true ∧ (s.eth 3).paused 0 = false ∧ s.slope 3 0 = 0 ∧
      s.oneStepOf f = none) ∧
    (∃ (s : State) (f : TxFrame), s.hasEth 3 = true ∧ s.bit (.ethMac 3) Reg.EthMac.STATUS_LINK = true ∧ (s.eth 3).txEnd ≤ 0 ∧
      (s.eth 3).gcl = none ∧ (s.eth 3).change = none ∧ (s.eth 3).queue 0 = [f] ∧ (∀ r, r < 8 → 0 < r → (s.eth 3).queue r = []) ∧
      (s.fld (.ethGate 3) Reg.EthGate.IDLE_STATES).testBit 0 = true ∧ (s.eth 3).paused 0 = false ∧ s.slope 3 0 = 0 ∧
      f.body = .ptp 1 0 7 ∧ s.oneStepOn 1 = true ∧ s.oneStepOf f = some 1 ∧ Map.get 0 1 (s.eth 3).oneStep = 0) ∧
    (∃ (s : State) (f : TxFrame), s.hasEth 3 = true ∧ s.bit (.ethMac 3) Reg.EthMac.STATUS_LINK = true ∧ (s.eth 3).txEnd ≤ 0 ∧
      (s.eth 3).gcl = none ∧ (s.eth 3).change = none ∧ (s.eth 3).queue 0 = [f] ∧ (∀ r, r < 8 → 0 < r → (s.eth 3).queue r = []) ∧
      (s.fld (.ethGate 3) Reg.EthGate.IDLE_STATES).testBit 0 = true ∧ (s.eth 3).paused 0 = false ∧ s.slope 3 0 = 0 ∧
      f.body = .ptp 1 0 7 ∧ s.oneStepOn 1 = false ∧ s.oneStepOf f = none ∧ s.controlQueue 3 = some 0) ∧
    (∃ (s : State) (l : List (Nat × Nat)), s.hasEth 3 = true ∧ (s.eth 3).gcl = some l ∧ (s.eth 3).entryEnd < s.nextNs ∧
      (s.eth 3).entry + 1 < l.length ∧
      (s.eth 3).entryEnd < (s.eth 3).cycleEnd) ∧
    (∃ (s : State) (l : List (Nat × Nat)), s.hasEth 3 = true ∧ (s.eth 3).gcl = some l ∧ (s.eth 3).entryEnd < s.nextNs ∧
      l.length ≤ (s.eth 3).entry + 1) ∧
    (∃ s : State, s.hasEth 3 = true ∧ (s.eth 3).change = some 0 ∧ 0 < s.nextNs) := by
  refine ⟨⟨(port3 { queues := [(0, [{ len := 64, body := .host [] }])] } [(Reg.EthMac.STATUS_LINK, 1)]).setBoth (.ethGate 3)
      Reg.EthGate.IDLE_STATES 255, { len := 64, body := .host [] }, ?_⟩,
    ⟨((port3 { queues := [(0, [{ len := 64, body := .ptp 1 0 7 }])] } [(Reg.EthMac.STATUS_LINK, 1)]).setBoth (.ethGate 3)
      Reg.EthGate.IDLE_STATES 255).setBoth (.time 1) Reg.Time.CFG_ONE_STEP 1, { len := 64, body := .ptp 1 0 7 }, ?_⟩,
    ⟨((port3 { queues := [(0, [{ len := 64, body := .ptp 1 0 7 }])] } [(Reg.EthMac.STATUS_LINK, 1), (Reg.EthMac.QUEUE_USE 0, 1)]).setBoth
      (.ethGate 3) Reg.EthGate.IDLE_STATES 255).setBoth (.time 1) Reg.Time.CFG_ONE_STEP 0, { len := 64, body := .ptp 1 0 7 }, ?_⟩,
    ⟨port3 { gcl := some [(255, 8), (1, 8)], cycleEnd := 1 }, [(255, 8), (1, 8)], ?_⟩,
    ⟨port3 { gcl := some [(255, 8)] }, [(255, 8)], ?_⟩, ⟨port3 { change := some 0 }, ?_⟩⟩ <;> and_intros <;> decide +kernel

/-- Ingress stream 255 with its record. -/
def str (e : IngState) (l : List (Fld × Nat) := []) : State :=
  { mk (l.map (fun x => (.ingress 255, x))) with net := { ing := [(255, e)] } }

/-- A frame with an R-TAG of sequence number 5. -/
def rtag : List Byte := List.replicate 12 0 ++ [0xF1, 0xC1, 0, 0, 0, 5, 0x22, 0xF0] ++ List.replicate 40 0

/-- An AAF packet of 48 kHz with two channels of one 32-bit sample. -/
def aaf : List Byte :=
  List.replicate 12 0 ++ [0x22, 0xF0, 2] ++ List.replicate 15 0 ++ [2, 0x50, 2, 32, 0, 8] ++ List.replicate 26 0

/-- Egress stream 255 with its record. -/
def eg (e : EgState) (l : List (Blk × Fld × Nat) := []) (r : Bool := true) : State :=
  let s := mk ((.egress 255, Reg.Egress.FMT_SPF, 1) :: l)
  { s with net := { eg := [(255, e)] }, render := { released := r, block := 5 } }

theorem witness_Streams :
    (∃ s : State, (s.ing 255).inbox = [(aaf, 0)] ∧ s.fld (.ingress 255) Reg.Ingress.STATE = 0) ∧
    (∃ s : State, (s.ing 255).inbox = [(rtag, 0)] ∧ s.fld (.ingress 255) Reg.Ingress.STATE ≠ 0 ∧
      s.bit (.ingress 255) Reg.Ingress.CTRL_CB_ELIM = true ∧ (l2 rtag).2.1 = some 5 ∧ (s.ing 255).cbSeq = some 5 ∧
      0 ∈ (s.ing 255).cbHist ∧ s.render.tick - (s.ing 255).cbAt < s.fs / 10) ∧
    (∃ s : State, (s.ing 255).inbox = [(zeros, 0)] ∧ s.fld (.ingress 255) Reg.Ingress.STATE ≠ 0 ∧
      s.bit (.ingress 255) Reg.Ingress.CTRL_CB_ELIM = false ∧ s.fld (.ingress 255) Reg.Ingress.CTRL_FORMAT = 0 ∧
      (s.aafPacket 255 zeros).good = false) ∧
    (∃ s : State, (s.ing 255).inbox = [(aaf, 0)] ∧ s.fld (.ingress 255) Reg.Ingress.STATE = 1 ∧
      s.bit (.ingress 255) Reg.Ingress.CTRL_CB_ELIM = false ∧ s.fld (.ingress 255) Reg.Ingress.CTRL_FORMAT = 0 ∧
      (s.ing 255).rate ≠ s.fs) ∧
    (∃ s : State, (s.ing 255).inbox = [(aaf, 0)] ∧ s.fld (.ingress 255) Reg.Ingress.STATE = 1 ∧
      s.bit (.ingress 255) Reg.Ingress.CTRL_CB_ELIM = false ∧ s.fld (.ingress 255) Reg.Ingress.CTRL_FORMAT = 0 ∧
      (s.aafPacket 255 aaf).good = true ∧ (s.ing 255).rate = s.fs ∧ s.running = false) ∧
    (∃ s : State, s.fld (.ingress 255) Reg.Ingress.STATE = 2 ∧ s.fld (.ingress 255) Reg.Ingress.CTRL_FORMAT ≠ 2 ∧
      4 * s.fld (.ingress 255) Reg.Ingress.FMT_SPF ≤ s.render.tick - (s.ing 255).at_ ∧
      2 * s.blockSize ≤ s.render.tick - (s.ing 255).at_) ∧
    (∃ s : State, s.egNext 255 = none) ∧ (∃ s : State, s.egNext 255 = some (0, 1) ∧ s.packetReady 255 0 1 = false) ∧
    (∃ s : State, s.egNext 255 = some (0, 1) ∧ s.packetReady 255 0 1 = true ∧ s.egOpen 255 = true ∧
      s.bit (.ethMac (s.egRec 255 1 Reg.Egress.CTRL_PORT)) Reg.EthMac.STATUS_LINK = true ∧ s.egRec 255 1 Reg.Egress.CTRL_PORT < 4) ∧
    (∃ s : State, s.egNext 255 = some (0, 1) ∧ s.packetReady 255 0 1 = true ∧ s.egOpen 255 = false ∧ s.twin.mode = 2) := by
  refine ⟨⟨str { inbox := [(aaf, 0)] }, ?_⟩,
    ⟨str { inbox := [(rtag, 0)], cbSeq := some 5, cbHist := [0] } [(Reg.Ingress.STATE, 2), (Reg.Ingress.CTRL_CB_ELIM, 1)], ?_⟩,
    ⟨str { inbox := [(zeros, 0)] } [(Reg.Ingress.STATE, 2), (Reg.Ingress.FMT_CHANNELS, 2), (Reg.Ingress.FMT_SPF, 1)], ?_⟩,
    ⟨str { inbox := [(aaf, 0)], rate := 96000 } [(Reg.Ingress.STATE, 1)], ?_⟩,
    ⟨str { inbox := [(aaf, 0)], rate := 48000 } [(Reg.Ingress.STATE, 1), (Reg.Ingress.FMT_SAMPLE, 2), (Reg.Ingress.FMT_CHANNELS, 2),
      (Reg.Ingress.FMT_SPF, 1)], ?_⟩,
    ⟨{ str {} [(Reg.Ingress.STATE, 2), (Reg.Ingress.FMT_SPF, 6)] with render := { tick := 256 } }, ?_⟩,
    ⟨{}, ?_⟩, ⟨eg { next := some 0, rate := 48000 } [] false, ?_⟩,
    ⟨eg { next := some 0, rate := 48000 } [(.ethMac 0, Reg.EthMac.STATUS_LINK, 1)], ?_⟩,
    ⟨{ eg { next := some 0, rate := 48000 } [(.twin, Reg.Twin.CFG_MODE, 2), (.twin, Reg.Twin.STATE, 1)] with twin := { mode := 2 } }, ?_⟩⟩
    <;> and_intros <;> decide +kernel

/-- PTP instance 1 at a SERVO code, and the media clock at a state. -/
def clk (servo media : Nat) : State :=
  mk [(.time 1, Reg.Time.CFG_EN, 1), (.time 1, Reg.Time.SERVO, servo), (.mediaClk, Reg.MediaClk.STATE, media),
    (.mediaClk, Reg.MediaClk.ACTIVE_SEL, 1)]

theorem witness_TimeInstances :
    (∃ s : State, s.bit (.time 1) Reg.Time.CFG_EN = true ∧ (s.inst 1).far < 3) ∧
    (∃ s : State, s.bit (.time 1) Reg.Time.CFG_EN = true ∧ s.fld64 (.time 1) Reg.Time.GM_ID_LO Reg.Time.GM_ID_HI ≠ 2 ^ 64 - 1) ∧
    (∃ s : State, s.bit (.time 1) Reg.Time.CFG_EN = true ∧ (s.inst 1).annAt + s.annWait 1 ≤ s.render.tick ∧ 1 = s.selInst ∧ s.bit .mediaClk Reg.MediaClk.AUTO_SWITCH = false ∧
      s.fld .mediaClk Reg.MediaClk.STATE = 1) ∧
    (∃ s : State, s.bit (.time 1) Reg.Time.CFG_EN = true ∧ s.servo 1 = 1 ∧
      (s.inst 1).syncAt + s.intervals 4 (s.logSync 1) ≤ s.render.tick) ∧
    (∃ s : State, s.bit (.time 1) Reg.Time.CFG_EN = true ∧ s.servo 1 = 1 ∧
      s.render.tick < (s.inst 1).syncAt + s.intervals 4 (s.logSync 1)) ∧
    (∃ s : State, s.bit (.time 1) Reg.Time.CFG_EN = true ∧ s.servo 1 = 2 ∧ s.fld .mediaClk Reg.MediaClk.STATE = 3 ∧ 1 = s.selInst ∧
      s.time.switch = none ∧ s.restful = false) ∧
    (∃ s : State, s.fld .mediaClk Reg.MediaClk.STATE = 3 ∧ s.time.holdFrom = some 0 ∧ 0 + 60 * s.second ≤ s.render.tick) ∧
    (∃ s : State, s.time.slew.isSome = true ∧ s.time.h = 0) ∧
    (∃ s : State, s.servo s.selInst = 3) ∧ (∃ s : State, s.servo s.selInst = 2 ∧ s.restful = false) ∧
    (∃ s : State, s.servo s.selInst = 2 ∧ s.restful = true) := by
  refine ⟨⟨clk 0 0, ?_⟩, ⟨clk 0 0, ?_⟩,
    ⟨{ (clk 1 1).setBoth .mediaClk Reg.MediaClk.AUTO_SWITCH 0 with render := { tick := 4800000 } }, ?_⟩,
    ⟨{ clk 1 1 with render := { tick := 4800000 } }, ?_⟩, ⟨clk 1 1, ?_⟩,
    ⟨(clk 2 3).setBoth .render Reg.Render.STATE 1, ?_⟩,
    ⟨{ clk 0 3 with
        render := { tick := 2880000 }
        time := { holdFrom := some 0 } }, ?_⟩,
    ⟨{ time := { slew := some (5, 0) } }, ?_⟩, ⟨clk 3 0, ?_⟩, ⟨(clk 2 0).setBoth .render Reg.Render.STATE 1, ?_⟩, ⟨clk 2 0, ?_⟩⟩
    <;> and_intros <;> decide +kernel

/-- The timestamp queue of port 3. -/
def stamps (q : TsQueue) : State := { mk [(.tsq, Reg.Tsq.Q_CFG_EN 3, 1)] with time := { tsq := [(3, q)] } }

theorem witness_TimestampsAndMessages :
    (∃ s : State, 3 < s.model.eths ∧ (s.tsQueue 3).sent = [(0, 0, 65535)] ∧ s.bit .tsq (Reg.Tsq.Q_CFG_EN 3) = true ∧
      (s.tsQueue 3).runs = [] ∧ (s.tsQueue 3).entries.length = 63) ∧
    (∃ s : State, 3 < s.model.eths ∧ (s.tsQueue 3).sent = [(0, 0, 65535)] ∧ s.bit .tsq (Reg.Tsq.Q_CFG_EN 3) = true ∧
      (s.tsQueue 3).runs = [] ∧ (s.tsQueue 3).entries.length = 64) ∧
    (∃ s : State, 3 < s.model.eths ∧ (s.tsQueue 3).entries = [[1#32, 2#32, 3#32, 4#32]] ∧ (s.tsQueue 3).runs = []) ∧
    (∃ s : State, s.bit (.time 1) Reg.Time.CFG_EN = true ∧ s.fld (.time 1) Reg.Time.PORT_STATE = 5 ∧
      s.fld (.time 1) (Reg.Time.CFG_PORT 1) = 3 ∧ s.hasEth 3 = true ∧ s.controlQueue 3 = some 0) := by
  refine ⟨⟨stamps { sent := [(0, 0, 65535)], entries := List.replicate 63 [] }, ?_⟩,
    ⟨stamps { sent := [(0, 0, 65535)], entries := List.replicate 64 [] }, ?_⟩,
    ⟨stamps { entries := [[1#32, 2#32, 3#32, 4#32]] }, ?_⟩,
    ⟨mk [(.time 1, Reg.Time.CFG_EN, 1), (.time 1, Reg.Time.PORT_STATE, 5), (.time 1, Reg.Time.CFG_PORT 1, 3),
      (.ethMac 3, Reg.EthMac.QUEUE_USE 0, 1)], ?_⟩⟩ <;> and_intros <;> decide +kernel

/-! Long operations of SEAT 0, seats, cues, the Callboard, the greenroom -/

/-- A command that has begun, with tag 3, in flight before another. -/
def before (op : Nat) (c : Cmd) (s : State := {}) : State :=
  flying [{ cmd op [] c.seat with tag := 3, started := true }, c] s c.seat

theorem witness_GlobalOperations :
    (∃ (s : State) (c : Cmd), Issued s c 0x40 ∧ c.n 0 = 0 ∧ s.snapBusy c = false) ∧
    (∃ (s : State) (c : Cmd), Issued s c 0x40 ∧ c.n 0 = 0 ∧ s.snapBusy c = true) ∧
    (∃ (s : State) (c : Cmd), Issued s c 0x41 ∧ c.n 0 ≠ 0 ∧ c.seat = 0 ∧ s.snapBusy c = false) ∧
    (∃ (s : State) (c : Cmd), Issued s c 0x41 ∧ c.n 0 ≠ 0 ∧ c.seat = 0 ∧ s.snapBusy c = true) ∧
    (∃ (s : State) (c : Cmd), Issued s c 0x41 ∧ c.n 0 ≠ 0 ∧ c.seat ≠ 0) ∧
    (∃ (s : State) (c : Cmd), Issued s c 0x48 ∧ s.offFault c = none ∧ c.n 7 + 4 * c.offOuts.2 * c.n 2 ≤ s.poolFree) ∧
    (∃ (s : State) (c : Cmd), Issued s c 0x48 ∧ s.offFault c = some Status.badParam) ∧
    (∃ (s : State) (c : Cmd), Issued s c 0x68 ∧ c.seat = 0 ∧
      (∀ q ∈ s.seats, ∀ d ∈ q.2.cmds, d.opcode ≠ 0x68 ∨ (d.seat = c.seat ∧ d.tag = c.tag)) ∧
      s.sourceFault c 0 = none ∧ c.n 3 ≤ s.poolFree) ∧
    (∃ (s : State) (c : Cmd), Issued s c 0x68 ∧ c.seat ≠ 0) ∧
    (∃ (s : State) (c : Cmd) (data bs : List Byte), Issued s c 0x59 ∧ c.n 0 = 4095 ∧ c.n 4 / 4 = 1 ∧ s.sourceFault c 1 = none ∧
      s.sourceBytes c 1 data = some bs ∧ s.cueFault c.seat 4095 [word32 bs] 1 0 = none ∧ s.cueBusy c.seat 4095 1 = false) ∧
    (∃ (s : State) (c : Cmd) (data bs : List Byte), Issued s c 0x59 ∧ c.n 0 = 4095 ∧ c.n 4 / 4 = 1 ∧ s.sourceFault c 1 = none ∧
      s.sourceBytes c 1 data = some bs ∧ s.cueFault c.seat 4095 [word32 bs] 1 0 = some 0) := by
  refine ⟨⟨flying [cmd 0x40 [0]], cmd 0x40 [0], ?_⟩, ⟨before 0x40 (cmd 0x40 [0]), cmd 0x40 [0], ?_⟩,
    ⟨flying [cmd 0x41 [5]], cmd 0x41 [5], ?_⟩, ⟨before 0x40 (cmd 0x41 [5]), cmd 0x41 [5], ?_⟩,
    ⟨flying [cmd 0x41 [5] 7] {} 7, cmd 0x41 [5] 7, ?_⟩,
    ⟨flying [cmd 0x48 [0, 65536, 1, 65536, 0, 0, 0, 4, 0, 0, 0, 4]] (mk [(.dramc, Reg.Dramc.POOL_SIZE, 1)]), cmd 0x48 [0, 65536, 1, 65536, 0, 0, 0, 4, 0, 0, 0, 4], ?_⟩,
    ⟨flying [cmd 0x48], cmd 0x48, ?_⟩, ⟨flying [cmd 0x68], cmd 0x68, ?_⟩, ⟨flying [cmd 0x68 [] 7] {} 7, cmd 0x68 [] 7, ?_⟩,
    ⟨flying [cmd 0x59 [4095, 0, 0, 0, 4]], cmd 0x59 [4095, 0, 0, 0, 4], [0, 0, 0, 0], [0, 0, 0, 0], ?_⟩,
    ⟨flying [cmd 0x59 [4095, 0, 0, 0, 4]], cmd 0x59 [4095, 0, 0, 0, 4], [255, 255, 255, 255], [255, 255, 255, 255], ?_⟩⟩
    <;> unfold Issued <;> and_intros <;> decide +kernel

/-- A TWIN_CONTROL of SEAT 0 with an action, and the twin in a state. -/
def act (a : Nat) : Cmd := cmd 0x78 [a, 1024]
def twin (a tw : Nat) (t : TwinState := {}) (l : List (Blk × Fld × Nat) := []) : State :=
  { flying [act a] (mk ((.twin, Reg.Twin.STATE, tw) :: l)) with twin := t }

/-- What a joining principal sees of a peer like itself. -/
def peer : List (Blk × Fld × Nat) :=
  [(.ndodom, Reg.Ndodom.STATUS_LINK, 1), (.twin, Reg.Twin.CLAIM_PEER_VALID, 1), (.render, Reg.Render.STATE, 1),
    (.mediaClk, Reg.MediaClk.STATE, 2),
    (.ndodom, Reg.Ndodom.PEER_VARIANT, ({} : State).variantWord), (.ndodom, Reg.Ndodom.PEER_FW, ({} : State).releaseWord)]

/-- It waits in LOCKSTEP with this render's rate and block size. -/
def mate : TwinState :=
  { mode := 2, peerMode := 2, peerState := Tw.wait, peerRate := ({} : State).fld .render Reg.Render.CFG_RATE
    peerBlock := ({} : State).fld .render Reg.Render.CFG_BLOCK }

theorem witness_TwinControl :
    (∃ s : State, Issued s (act 1) 0x78 ∧ (act 1).n 0 % 16 = 1 ∧ s.tw = Tw.alone ∧ s.twin.join = none ∧ s.peerWaits = true ∧
      s.joinFault = none ∧ s.twin.mode = 2) ∧
    (∃ s : State, Issued s (act 1) 0x78 ∧ s.tw = Tw.alone ∧ s.twin.join = none ∧ s.peerWaits = false) ∧
    (∃ s : State, Issued s (act 1) 0x78 ∧ undState s.tw = true) ∧
    (∃ s : State, Issued s (act 1) 0x78 ∧ undState s.tw = false ∧ s.tw ≠ Tw.alone) ∧
    (∃ s : State, Issued s (act 2) 0x78 ∧ (act 2).n 0 % 16 = 2 ∧ s.attached = true) ∧
    (∃ s : State, Issued s (act 2) 0x78 ∧ s.attached = false) ∧
    (∃ s : State, Issued s (act 3) 0x78 ∧ (act 3).n 0 % 16 = 3 ∧ s.tw = Tw.lockPri ∧ s.twin.handover = none ∧
      (act 3).n 1 + 2 ^ 32 * (act 3).n 2 = 1024 ∧ 1024 % s.blockSize = 0 ∧ s.render.rsi + 2 * s.blockSize ≤ 1024) ∧
    (∃ s : State, Issued s (act 3) 0x78 ∧ s.tw ≠ Tw.lockPri) ∧
    (∃ s : State, Issued s (act 4) 0x78 ∧ (act 4).n 0 % 16 = 4 ∧ s.tw = Tw.lockUnd ∧ s.twin.resync = none ∧
      (∀ q ∈ s.seats, ∀ d ∈ q.2.cmds, d.peer = none)) ∧
    (∃ s : State, Issued s (act 4) 0x78 ∧ undState s.tw = false) ∧
    (∃ s : State, Issued s (act 5) 0x78 ∧ (act 5).n 0 % 16 = 5 ∧ s.tw = Tw.verify) ∧
    (∃ s : State, Issued s (act 5) 0x78 ∧ s.tw ≠ Tw.verify ∧ s.tw ≠ Tw.lockUnd) := by
  refine ⟨⟨twin 1 1 mate peer, ?_⟩, ⟨twin 1 1, ?_⟩, ⟨twin 1 8, ?_⟩, ⟨twin 1 15, ?_⟩, ⟨twin 2 2, ?_⟩, ⟨twin 2 1, ?_⟩,
    ⟨twin 3 4, ?_⟩, ⟨twin 3 13, ?_⟩, ⟨twin 4 13, ?_⟩, ⟨twin 4 1, ?_⟩, ⟨twin 5 11, ?_⟩, ⟨twin 5 8, ?_⟩⟩
    <;> unfold Issued <;> and_intros <;> decide +kernel

/-- Seat 7 on link B, which is up, with its rings. -/
def host7 (l : List (Fld × Nat) := []) (q : SeatState := {}) : State :=
  { mk (((Reg.Seat.BIND_KIND, 2) :: l).map (fun x => (.seat 7, x))) with seats := [(7, q)], hosts := { upB := true } }

/-- The entry of a NOP with tag 9, and a completion for queue 3. -/
def nop9 : List Word := [BitVec.ofNat 32 (9 * 65536 + 1)]
def done3 : Completion := { cq := 3, sq := 3, tag := 9, context := 0, status := 1 }

/-- Ring 3 of seat 7 with an entry to fetch. -/
def ring : List (Fld × Nat) := [(Reg.Seat.SQ_EN 3, 1), (Reg.Seat.SQ_SIZE 3, 256), (Reg.Seat.SQ_TAIL 3, 1)]

theorem witness_SeatQueues :
    (∃ s : State, 7 < s.model.seats ∧ s.bit (.seat 7) (Reg.Seat.SQ_EN 3) = true ∧ 255 % 256 < s.fld (.seat 7) (Reg.Seat.SQ_SIZE 3)) ∧
    (∃ s : State, 7 < s.model.seats ∧ s.bit (.seat 7) (Reg.Seat.SQ_EN 3) = true ∧ s.fld (.seat 7) (Reg.Seat.SQ_SIZE 3) ≤ 255 % 256) ∧
    (∃ s : State, 7 < s.model.seats ∧ s.bit (.seat 7) (Reg.Seat.SQ_EN 3) = false ∧ s.fld (.seat 7) (Reg.Seat.SQ_BASE_LO 3) % 4096 = 0 ∧
      s.fld (.seat 7) (Reg.Seat.SQ_SIZE 3) = 256) ∧
    (∃ s : State, 7 < s.model.seats ∧ s.bit (.seat 7) (Reg.Seat.SQ_EN 3) = false ∧ s.fld (.seat 7) (Reg.Seat.SQ_BASE_LO 3) % 4096 = 0 ∧
      256 < s.fld (.seat 7) (Reg.Seat.SQ_SIZE 3)) ∧
    (∃ s : State, 7 < s.model.seats ∧ s.bit (.seat 7) (Reg.Seat.CQ_EN 3) = false ∧ s.fld (.seat 7) (Reg.Seat.CQ_BASE_LO 3) % 4096 = 0 ∧
      s.fld (.seat 7) (Reg.Seat.CQ_SIZE 3) = 2) ∧
    (∃ (s : State) (c : Cmd), s.fetchTurn = some (7, 3) ∧ s.isStagedoor 7 = false ∧
      c = { seat := 7, sq := 3, tag := 9, opcode := 1, word0 := nop9.getD 0 0#32, context := nop9.getD 1 0#32
            params := (nop9.drop 2).take 14, upAt := s.render.tick } ∧
      c.wellFormed = true ∧ s.isUnderstudy = false ∧ c.shortSource = none ∧ (s.seat 7).cmds.any (·.tag = c.tag) = false ∧
      s.sched.stalled = []) ∧
    (∃ s : State, 7 < s.model.seats ∧ (s.seat 7).done.find? (·.cq = 3) = some done3 ∧ s.hostLost 7 = false ∧ s.asleep 7 = false ∧
      s.isStagedoor 7 = false ∧ s.isAttached 7 = true ∧ s.bit (.seat 7) (Reg.Seat.CQ_EN 3) = true ∧ s.cqFull 7 3 = true) ∧
    (∃ s : State, 7 < s.model.seats ∧ (s.seat 7).done.find? (·.cq = 3) = some done3 ∧ s.hostLost 7 = false ∧ s.asleep 7 = false ∧
      s.isStagedoor 7 = false ∧ s.isAttached 7 = true ∧ s.bit (.seat 7) (Reg.Seat.CQ_EN 3) = true ∧ s.cqFull 7 3 = false ∧
      (s.seat 7).sd.endAfter = none) ∧
    (∃ (s : State) (c : Cmd), s.cmdOf 7 7 = some c ∧ c.final = false ∧ c.waiters = [] ∧ c.state ≠ .suspended ∧ c.sourceAt = some 0 ∧ c.n 0 % 4 = 2 ∧
      s.sourceBytes c 0 [] = none ∧ s.isAttached 7 = true ∧ c.upAt + 10 * s.fs ≤ s.render.tick ∧ c.steps = 0) := by
  refine ⟨⟨host7 [(Reg.Seat.SQ_EN 3, 1), (Reg.Seat.SQ_SIZE 3, 256)], ?_⟩, ⟨host7 [(Reg.Seat.SQ_EN 3, 1), (Reg.Seat.SQ_SIZE 3, 255)], ?_⟩,
    ⟨host7 [(Reg.Seat.SQ_SIZE 3, 256)], ?_⟩, ⟨host7 [(Reg.Seat.SQ_SIZE 3, 257)], ?_⟩, ⟨host7 [(Reg.Seat.CQ_SIZE 3, 2)], ?_⟩,
    ⟨host7 ring, { seat := 7, sq := 3, tag := 9, opcode := 1, word0 := nop9.getD 0 0#32, context := nop9.getD 1 0#32
                   params := (nop9.drop 2).take 14, upAt := 0 }, ?_⟩,
    ⟨host7 [(Reg.Seat.CQ_EN 3, 1), (Reg.Seat.CQ_SIZE 3, 2), (Reg.Seat.CQ_HEAD 3, 1)] { done := [done3] }, ?_⟩,
    ⟨host7 [(Reg.Seat.CQ_EN 3, 1), (Reg.Seat.CQ_SIZE 3, 3), (Reg.Seat.CQ_HEAD 3, 0)] { done := [done3] }, ?_⟩,
    ⟨{ host7 [] { cmds := [cmd 0x20 [2, 0, 0, 4] 7] } with render := { tick := 480000 } }, cmd 0x20 [2, 0, 0, 4] 7, ?_⟩⟩
    <;> and_intros <;> decide +kernel

theorem witness_SeatsAndHosts :
    (∃ s : State, 7 < s.model.seats ∧ s.bindable 3 3 = true) ∧ (∃ s : State, 7 < s.model.seats ∧ s.bindable 1 3 = false) ∧
    (∃ s : State, 7 < s.model.seats ∧ s.isStagedoor 7 = true ∧ (s.seat 7).sd.session ≠ 0 ∧
      (s.seat 7).sd.heardAt + 3 * s.fs ≤ s.render.tick ∧ s.hostLost 7 = false) ∧
    (∃ s : State, 7 < s.model.seats ∧ s.hostLost 7 = true ∧ 0 < (s.seat 7).graceEnd ∧ (s.seat 7).graceEnd ≤ s.render.tick ∧
      (∀ c ∈ (s.seat 7).cmds, c.state ≠ .suspended ∨ c.final = true)) ∧
    (∃ s : State, (s.seatsOn 2).filter (fun q => s.bindIndex q = 3) = [7]) ∧
    (∃ s : State, s.seatsOn 2 = [7] ∧ s.hostLost 7 = false) ∧
    (∃ s : State, s.seatsOn 2 = [7] ∧ s.hosts.perstB = false ∧ s.hostLost 7 = true) := by
  refine ⟨⟨{}, ?_⟩, ⟨{ boot := { cfg := { valid := true } } }, ?_⟩,
    ⟨{ (host7 [] { sd := { session := 1 } }).setBoth (.seat 7) Reg.Seat.BIND_KIND 3 with render := { tick := 144000 } }, ?_⟩,
    ⟨{ host7 [(Reg.Seat.STATUS_HOST_LOST, 1)] { graceEnd := 1 } with render := { tick := 1 } }, ?_⟩,
    ⟨host7 [(Reg.Seat.BIND_INDEX, 3)], ?_⟩, ⟨host7, ?_⟩, ⟨host7 [(Reg.Seat.STATUS_HOST_LOST, 1)], ?_⟩⟩
    <;> and_intros <;> decide +kernel

/-- A cue word, from its opcode, operand count, mode and immediate. -/
def cw (op nops mode imm : Nat) : Word := BitVec.ofNat 32 (op * 2 ^ 26 + nops * 2 ^ 22 + mode * 2 ^ 16 + imm)

/-- Prompter 0 runs at word 4000, which holds an instruction. -/
def cue (ws : List Word) (e : PrompterEngine := {}) (l : List (Fld × Nat) := []) : State :=
  { mk ((.render, Reg.Render.STATE, 1) :: (.prompter 0, Reg.Prompter.STATE, 1) :: (.prompter 0, Reg.Prompter.PC, 4000) ::
      l.map (fun x => (.prompter 0, x))) with
    cue := (List.range ws.length).map (fun k => (4000 + k, ws.getD k 0#32)), prompters := [(0, e)] }

/-- It may execute the instruction. -/
abbrev Cue (s : State) (i : CueInstr) : Prop :=
  s.prMay 0 = true ∧ (cueDecode (s.prWords 0 (s.fld (.prompter 0) Reg.Prompter.PC))).map (·.1) = some i ∧
    s.fld (.prompter 0) Reg.Prompter.PC = 4000 ∧ ((s.prBegin 0).pr 0).used < 63 ∧ ((s.prBegin 0).pr 0).runOver = false

theorem witness_CueWaits :
    (∃ s, Cue s (.halt true)) ∧
    (∃ s, Cue s (.waitTime 0 1) ∧ s.timeTarget 1 < s.horizon) ∧
    (∃ s, Cue s (.waitTime 1 0) ∧ s.timeTarget 1000000000 < 2 ^ 64 ∧ s.horizon ≤ s.timeTarget 1000000000) ∧
    (∃ s, Cue s (.waitRsi (s.horizon - 1))) ∧ (∃ s, Cue s (.waitRsi s.horizon)) ∧ (∃ s, Cue s (.waitRel (-1))) ∧
    (∃ s, Cue s (.waitTc false 0) ∧ s.tcTarget false 0 = some 0) ∧ (∃ s, Cue s (.waitTc true 0) ∧ s.tcTarget true 0 = none) ∧
    (∃ s, Cue s (.waitGpio 2 15) ∧ (s.pr 0).edge = some 0) ∧ (∃ s, Cue s (.waitGpio 2 15) ∧ (s.pr 0).edge = none) ∧
    (∃ s, Cue s (.waitFlag true 15) ∧ (s.fld (.prompter 0) Reg.Prompter.FLAGS).testBit 15 = true ∧ s.prBlock * s.blockSize < 2 ^ 64) ∧
    (∃ s, Cue s (.waitFlag true 15) ∧ (s.fld (.prompter 0) Reg.Prompter.FLAGS).testBit 15 = false) ∧
    (∃ s, Cue s (.branch (-4000) 0x22 false) ∧ s.condWaits 0 0x22 = true) ∧
    (∃ s, Cue s (.branch (-4000) 0x22 true) ∧ s.condWaits 0 0x22 = false ∧ (s.prCond 0 0x22 != true) = true) ∧
    (∃ s, Cue s (.branch (-4001) 0x24 false) ∧ s.condWaits 0 0x24 = false ∧ (s.prCond 0 0x24 != false) = false) := by
  refine ⟨⟨cue [cw 0 0 1 0], ?_⟩, ⟨cue [cw 1 3 0 0, 0, 0, 1], ?_⟩, ⟨cue [cw 1 3 0 0, 1, 0, 0], ?_⟩,
    ⟨cue [cw 2 2 0 0, BitVec.ofNat 32 (({} : State).horizon - 1), 0], ?_⟩, ⟨cue [cw 2 2 0 0, BitVec.ofNat 32 ({} : State).horizon, 0], ?_⟩,
    ⟨cue [cw 2 1 1 0, 0xFFFFFFFF], ?_⟩,
    ⟨{ (cue [cw 3 1 0 0, 0]).setBoth .prompterGlobal Reg.PrompterGlobal.TC_LOCKED 1 with tc := { frame := some 0, period := some 1 } }, ?_⟩,
    ⟨cue [cw 3 1 1 0, 0], ?_⟩, ⟨cue [cw 4 0 2 15] { edge := some 0 }, ?_⟩, ⟨cue [cw 4 0 2 15], ?_⟩,
    ⟨cue [cw 5 0 1 15] {} [(Reg.Prompter.FLAGS, 0x8000)], ?_⟩, ⟨cue [cw 5 0 1 15], ?_⟩,
    ⟨cue [cw 10 1 0 61536, 0x22] {} [(Reg.Prompter.STROBE_STATE, 1)], ?_⟩, ⟨cue [cw 10 1 0 61536, 0x122], ?_⟩,
    ⟨cue [cw 10 1 0 61535, 0x24], ?_⟩⟩ <;> and_intros <;> decide +kernel

theorem witness_CueActions :
    (∃ s, Cue s (.strobeMark 1 (-1)) ∧ (1 : Nat) % 2 ^ 32 ≠ 0 ∧ s.mayUseGroup 0 0 = true ∧ s.fab.commits = []) ∧
    (∃ s, Cue s (.strobeRsi (2 ^ 31) 4096) ∧ s.mayUseGroup 0 31 = true ∧ s.fab.commits = []) ∧
    (∃ s, Cue s (.strobeNext 1) ∧ s.mayUseGroup 0 0 = true ∧ s.fab.commits = []) ∧
    (∃ s, Cue s (.write (wordAt (.obj 1023) Reg.Obj.CTRL_INVERT) 0 none) ∧
      (s.tryWrite (.prompter 0) (wordAt (.obj 1023) Reg.Obj.CTRL_INVERT) 0#32 true).2 = true) ∧
    (∃ s, Cue s (.write (wordAt (.obj 1023) Reg.Obj.CTRL_INVERT + 1) 0 none) ∧
      (s.tryWrite (.prompter 0) (wordAt (.obj 1023) Reg.Obj.CTRL_INVERT + 1) 0#32 false).2 = false) ∧
    (∃ s, Cue s (.motion false 1023 255 1) ∧ 1023 + 1 ≤ s.nowObjects ∧ s.lockPri = false ∧ s.mayWrite 0 (.obj 1023) = true) ∧
    (∃ s, Cue s (.motion true 0 1 2) ∧ 0 + 2 ≤ s.nowObjects ∧ s.lockPri = false ∧ s.mayWrite 0 (.obj 0) = true ∧
      s.mayWrite 0 (.obj 1) = true) ∧
    (∃ s, Cue s (.signalHost 254)) ∧
    (∃ s, Cue s (.signalFlag 15 7) ∧ 7 < s.model.prompters ∧ (s.fld (.prompter 7) Reg.Prompter.FLAG_ACCEPT).testBit 0 = true ∧
      (s.pr 7).clearedIn ≠ s.prBlock + 1) ∧
    (∃ s, Cue s (.signalFlag 15 7) ∧ ¬ (s.fld (.prompter 7) Reg.Prompter.FLAG_ACCEPT).testBit 0 = true) ∧
    (∃ s, Cue s (.jump (-4000))) ∧ (∃ s, Cue s (.jump (-4001))) ∧
    (∃ s, Cue s (.call 95) ∧ (s.pr 0).calls.length = 7) ∧ (∃ s, Cue s (.call 95) ∧ (s.pr 0).calls.length = 8) ∧
    (∃ s, Cue s .ret ∧ (s.pr 0).calls = [4095]) ∧ (∃ s, Cue s .ret ∧ (s.pr 0).calls = []) ∧
    (∃ s, Cue s (.loop 0) ∧ (s.pr 0).loops.length = 3) ∧ (∃ s, Cue s (.loop 65535) ∧ (s.pr 0).loops.length = 4) ∧
    (∃ s, Cue s .loopEnd ∧ (s.pr 0).loops = [(4095, 1)]) ∧ (∃ s, Cue s .loopEnd ∧ (s.pr 0).loops = [(4095, 2)]) ∧
    (∃ s, Cue s .loopEnd ∧ (s.pr 0).loops = []) := by
  refine ⟨⟨cue [cw 6 2 0 0, 1, 0xFFFFFFFF], ?_⟩, ⟨cue [cw 6 3 1 0, 0x80000000, 4096, 0], ?_⟩, ⟨cue [cw 6 1 2 0, 1], ?_⟩,
    ⟨cue [cw 7 2 0 0, BitVec.ofNat 32 (wordAt (.obj 1023) Reg.Obj.CTRL_INVERT), 0], ?_⟩,
    ⟨cue [cw 7 2 0 0, BitVec.ofNat 32 (wordAt (.obj 1023) Reg.Obj.CTRL_INVERT + 1), 0], ?_⟩,
    ⟨cue [cw 8 1 0 1023, 0x100FF], ?_⟩, ⟨cue [cw 8 1 1 0, 0x20001], ?_⟩, ⟨cue [cw 9 0 0 254], ?_⟩,
    ⟨(cue [cw 9 0 1 (256 * 7 + 15)]).setBoth (.prompter 7) Reg.Prompter.FLAG_ACCEPT 1, ?_⟩, ⟨cue [cw 9 0 1 (256 * 7 + 15)], ?_⟩,
    ⟨cue [cw 11 0 0 61536], ?_⟩, ⟨cue [cw 11 0 0 61535], ?_⟩, ⟨cue [cw 12 0 0 95] { calls := List.replicate 7 0 }, ?_⟩,
    ⟨cue [cw 12 0 0 95] { calls := List.replicate 8 0 }, ?_⟩, ⟨cue [cw 13 0 0 0] { calls := [4095] }, ?_⟩, ⟨cue [cw 13 0 0 0], ?_⟩,
    ⟨cue [cw 14 0 0 0] { loops := List.replicate 3 (0, 0) }, ?_⟩, ⟨cue [cw 14 0 0 65535] { loops := List.replicate 4 (0, 0) }, ?_⟩,
    ⟨cue [cw 14 0 1 0] { loops := [(4095, 1)] }, ?_⟩, ⟨cue [cw 14 0 1 0] { loops := [(4095, 2)] }, ?_⟩, ⟨cue [cw 14 0 1 0], ?_⟩⟩
    <;> and_intros <;> decide +kernel

theorem witness_ContactsAndTimecode :
    (∃ s : State, s.prMay 7 = false) ∧ (∃ s : State, 7 < s.model.prompters ∧ (s.pr 7).clearedIn ≠ s.prBlock + 1) ∧
    (∃ s : State, (s.pin 15).raw ≠ true) ∧
    (∃ s : State, (s.pin 15).since = some 0 ∧
      (s.pin 15).tick + s.rampSamples (s.fld .prompterGlobal (Reg.PrompterGlobal.DEBOUNCE 15)) ≤ s.render.tick) ∧
    (∃ s : State, s.bit .prompterGlobal Reg.PrompterGlobal.TC_EN = true ∧ s.tc.frame = none) ∧
    (∃ s : State, s.bit .prompterGlobal Reg.PrompterGlobal.TC_EN = true ∧ s.tc.frame = some (tcDay 2 - 1) ∧ s.tc.words = 7 ∧
      (tcFrame 2 0 % tcDay 2 + tcDay 2 - (tcDay 2 - 1)) % tcDay 2 = 1) ∧
    (∃ s : State, s.bit .prompterGlobal Reg.PrompterGlobal.TC_EN = true ∧ s.tc.frame = some 0 ∧
      (tcFrame 2 0 % tcDay 2 + tcDay 2 - 0) % tcDay 2 ≠ 1) ∧
    (∃ s : State, s.bit .prompterGlobal Reg.PrompterGlobal.TC_LOCKED = true) := by
  refine ⟨⟨{}, ?_⟩, ⟨{}, ?_⟩, ⟨{}, ?_⟩, ⟨{ gpio := [(15, { raw := true, since := some 0 })], render := { tick := 100000 } }, ?_⟩,
    ⟨mk [(.prompterGlobal, Reg.PrompterGlobal.TC_EN, 1)], ?_⟩,
    ⟨{ mk [(.prompterGlobal, Reg.PrompterGlobal.TC_EN, 1)] with tc := { frame := some (tcDay 2 - 1), words := 7 } }, ?_⟩,
    ⟨{ mk [(.prompterGlobal, Reg.PrompterGlobal.TC_EN, 1)] with tc := { frame := some 0 } }, ?_⟩,
    ⟨mk [(.prompterGlobal, Reg.PrompterGlobal.TC_LOCKED, 1)], ?_⟩⟩ <;> and_intros <;> decide +kernel

/-- Seat 7 maps source 576 to vector 63, where it is pending, with the gate open. -/
def bell (v : Vec) (l : List (Fld × Nat) := []) : State :=
  { mk (((Reg.CallSeat.CFG_GATE, 1) :: l).map (fun x => (.callSeat 7, x))) with
    levels := [(576, true)], call := [(7, { vecs := [(63, v)], map := [(576, 128 + 63)] })] }

theorem witness_Callboard :
    (banked 2047 = false ∧ banked 16 = true) ∧
    (∃ s : State, s.sourceLevel 576 0 = true ∧ s.vectorOf 7 576 = some 63) ∧
    (∃ s : State, s.sourceLevel 2047 0 = false ∧ (∀ q, q < 8 → s.vectorOf q 2047 = none)) ∧
    (∃ s : State, 0 < (s.vec 7 63).count ∧ s.heldFor (s.vec 7 63) (s.fld (.callSeat 7) (Reg.CallSeat.MOD_HOLDOFF 63)) = true) ∧
    (∃ s : State, (s.vec 7 63).count = 0) ∧
    (∃ s : State, s.heldFor (s.vec 7 63) (s.fld (.callSeat 7) (Reg.CallSeat.MOD_HOLDOFF 63)) = false) ∧
    (∃ s : State, s.vecReady 7 63 = false) ∧
    (∃ s : State, s.vecReady 7 63 = true ∧ s.doorbells 7 = true ∧ s.bit (.callSeat 7) Reg.CallSeat.CFG_STORM_EN = true ∧
      s.fld (.callSeat 7) Reg.CallSeat.STORM_LIMIT ≤
        1 + ((s.vec 7 63).times.filter (fun a => decide (s.render.tick < a + s.msTicks))).length) ∧
    (∃ s : State, s.vecReady 7 63 = true ∧ s.doorbells 7 = false ∧ s.bit (.callSeat 7) Reg.CallSeat.CFG_STORM_EN = false) ∧
    (∃ s : State, ∀ v, v < 64 → (s.vec 7 v).service ≠ some 576) ∧
    (∃ s : State, (s.vec 7 63).service = some 576 ∧ (∀ u, u < 64 → u ≠ 63 → (s.vec 7 u).service ≠ some 576) ∧ 576 ∈ s.pendingOn 7 63 ∧
      s.mayRing 7 63 = true) ∧
    (∃ s : State, (s.vec 7 63).service = some 576 ∧ (∀ u, u < 64 → u ≠ 63 → (s.vec 7 u).service ≠ some 576) ∧
      s.mayRing 7 63 = false) ∧
    (∃ s : State, (s.vec 7 63).service = some 9 ∧ (∀ u, u < 64 → u ≠ 63 → (s.vec 7 u).service ≠ some 9) ∧ 9 ∉ s.pendingOn 7 63) ∧
    (∃ s : State, 7 < s.model.seats ∧ s.doorbells 7 = true ∧ s.bit (.callSeat 7) Reg.CallSeat.CFG_STORM_EN = false ∧
      (s.setBoth (.callSeat 7) Reg.CallSeat.CFG_GATE 1).vecReady 7 63 = true) ∧
    (∃ s : State, 7 < s.model.seats ∧ s.bit (.seat 7) Reg.Seat.CTRL_SLEEP_REQ = true ∧ s.asleep 7 = false ∧ s.isStagedoor 7 = false) ∧
    (∃ s : State, 7 < s.model.seats ∧ s.bit (.seat 7) Reg.Seat.CTRL_SLEEP_REQ = true ∧ s.asleep 7 = false ∧ s.isStagedoor 7 = true ∧
      (s.seat 7).sleepAt + s.fs / 5 ≤ s.render.tick + 1) ∧
    (∃ s : State, 7 < s.model.seats ∧ s.bit (.seat 7) Reg.Seat.CTRL_SLEEP_REQ = false) := by
  refine ⟨?_, ⟨((bell {}).setBoth (.ps 0) Reg.Hdr.EVENTS 1).setBoth (.ps 0) Reg.Hdr.INT_EN 1, ?_⟩, ⟨{}, ?_⟩, ⟨bell { count := 1 }, ?_⟩, ⟨bell {}, ?_⟩,
    ⟨bell { count := 1 } [(Reg.CallSeat.MOD_HOLDOFF 63, 255)], ?_⟩, ⟨bell {}, ?_⟩,
    ⟨bell { count := 1, heldOff := true } [(Reg.CallSeat.CFG_DELIVERY, 1), (Reg.CallSeat.CFG_STORM_EN, 1), (Reg.CallSeat.STORM_LIMIT, 1)], ?_⟩,
    ⟨bell { count := 1, heldOff := true } [(Reg.CallSeat.CFG_DELIVERY, 0), (Reg.CallSeat.CFG_STORM_EN, 0)], ?_⟩, ⟨bell {}, ?_⟩,
    ⟨bell { service := some 576 } [(Reg.CallSeat.CFG_DELIVERY, 1)], ?_⟩, ⟨bell { service := some 576 } [(Reg.CallSeat.CFG_DELIVERY, 0)], ?_⟩,
    ⟨bell { service := some 9 }, ?_⟩,
    ⟨bell { count := 1, heldOff := true } [(Reg.CallSeat.CFG_DELIVERY, 1), (Reg.CallSeat.CFG_STORM_EN, 0)], ?_⟩,
    ⟨mk [(.seat 7, Reg.Seat.CTRL_SLEEP_REQ, 1)], ?_⟩,
    ⟨{ mk [(.seat 7, Reg.Seat.CTRL_SLEEP_REQ, 1), (.seat 7, Reg.Seat.BIND_KIND, 3)] with render := { tick := 9600 } }, ?_⟩,
    ⟨{}, ?_⟩⟩ <;> and_intros <;> decide +kernel

/-! The greenroom, the twin, the monitors, resets -/

/-- Jack 1 with fields set. -/
def jack1 (l : List (Fld × Nat)) (g : Green := {}) : State := { mk (l.map (fun x => (.jack, x))) with green := g }

theorem witness_GreenroomAndJacks :
    (∃ s : State, s.green.crystal = true ∧ s.bit .greenroom Reg.Greenroom.CLK_SRC_SEL = false) ∧
    (∃ s : State, s.green.crystal = false) ∧ bmcMay 0x40 64 = true ∧ bmcMay 0x44 0 = false ∧
    (∃ s : State, s.bit .jack (Reg.Jack.J_CTRL_EN 1) = true ∧ s.bit .jack (Reg.Jack.J_STATUS_INSERTED 1) = false ∧
      s.detStood 1 false (s.fld .jack (Reg.Jack.J_DEBOUNCE_INSERT 1)) = true) ∧
    (∃ s : State, s.bit .jack (Reg.Jack.J_CTRL_EN 1) = false ∧ s.bit .jack (Reg.Jack.J_STATUS_INSERTED 1) = false) ∧
    (∃ s : State, s.bit .jack (Reg.Jack.J_STATUS_INSERTED 1) = true ∧ s.fld .jack (Reg.Jack.J_STATUS_ACCESSORY 1) = 4 ∧
      (Map.get [] 1 s.green.mic).length = 4 ∧ s.lowPower = false ∧
      (accessoryOf ((Map.get [] 1 s.green.mic).foldl (· + ·) 0)).or (if 20 ≤ Map.get 0 1 s.green.tries + 1 then some 3 else none) = none) ∧
    (∃ s : State, s.bit .jack (Reg.Jack.J_STATUS_INSERTED 1) = true ∧ s.fld .jack (Reg.Jack.J_STATUS_ACCESSORY 1) = 4 ∧
      (Map.get [] 1 s.green.mic).length = 4 ∧ s.lowPower = false ∧
      (accessoryOf ((Map.get [] 1 s.green.mic).foldl (· + ·) 0)).or (if 20 ≤ Map.get 0 1 s.green.tries + 1 then some 3 else none) = some 3) ∧
    (∃ s : State, s.bit .jack (Reg.Jack.J_STATUS_INSERTED 1) = true ∧ s.detStood 1 true 20 = true ∧ s.fld .jack (Reg.Jack.J_STATUS_BUTTON 1) ≠ 0) ∧
    (∃ s : State, s.stoodIn 1 = 4 ∧ s.fld .jack (Reg.Jack.J_STATUS_BUTTON 1) ≠ 4) ∧
    (∃ s : State, s.stoodIn 1 = 0) ∧
    (∃ s : State, s.stoodIn 1 = 5 ∧ s.fld .jack (Reg.Jack.J_STATUS_BUTTON 1) ≠ 0) ∧
    (∃ s : State, (s.pin 15).raw ≠ (s.pin 15).green ∧
      s.fld .greenroom Reg.Greenroom.GPIO_DEBOUNCE * s.fs ≤ (s.render.tick + 1 - (s.pin 15).tick) * 32768) ∧
    (∃ s : State, (s.pin 15).raw = (s.pin 15).green) := by
  refine ⟨⟨{ green := { crystal := true } }, ?_⟩, ⟨{}, ?_⟩, ?_, ?_,
    ⟨{ jack1 [(Reg.Jack.J_CTRL_EN 1, 1)] { det := [(1, (1, 0))] } with render := { tick := 48000 } }, ?_⟩, ⟨jack1 [], ?_⟩,
    ⟨jack1 [(Reg.Jack.J_STATUS_INSERTED 1, 1), (Reg.Jack.J_STATUS_ACCESSORY 1, 4)] { mic := [(1, [228, 228, 228, 228])] }, ?_⟩,
    ⟨jack1 [(Reg.Jack.J_STATUS_INSERTED 1, 1), (Reg.Jack.J_STATUS_ACCESSORY 1, 4)] { mic := [(1, [228, 228, 228, 228])], tries := [(1, 19)] }, ?_⟩,
    ⟨{ jack1 [(Reg.Jack.J_STATUS_INSERTED 1, 1), (Reg.Jack.J_STATUS_BUTTON 1, 2)] { det := [(1, (2, 0))] } with
       render := { tick := 48000 } }, ?_⟩,
    ⟨{ jack1 [(Reg.Jack.J_STATUS_ACCESSORY 1, 2)] { band := [(1, (4, 0))] } with render := { tick := 48000 } }, ?_⟩, ⟨{}, ?_⟩,
    ⟨{ jack1 [(Reg.Jack.J_STATUS_ACCESSORY 1, 2), (Reg.Jack.J_STATUS_BUTTON 1, 1)] { band := [(1, (5, 0))] } with
       render := { tick := 48000 } }, ?_⟩,
    ⟨{ gpio := [(15, { raw := true })], render := { tick := 48000 } }, ?_⟩, ⟨{}, ?_⟩⟩
    <;> and_intros <;> decide +kernel

/-- The power domain in a state; entry 31 of the watch list watches source 705. -/
def power (v : Nat) (g : Green := {}) (l : List (Fld × Nat) := []) : State :=
  { mk (((Reg.Greenroom.PWR_STATE, v) :: l).map (fun x => (.greenroom, x))) with green := g, curtain := { raw := true } }

theorem witness_Power :
    (∃ s : State, s.lowPower = false ∧ s.green.entry = none ∧ s.pwrReasons = []) ∧
    (∃ s : State, s.lowPower = false ∧ s.green.entry = none ∧ s.pwrReasons = [3]) ∧
    (∃ s : State, s.green.entry = some (2, 0) ∧ s.stopped = true ∧ s.green.abort = false) ∧
    (∃ s : State, s.green.entry = some (2, 0) ∧ s.stopped = true ∧ s.green.abort = true) ∧
    (∃ s : State, s.lowPower = true ∧ s.dead = false ∧ (s.fld .greenroom Reg.Greenroom.WAKE_DRIVEN).testBit 2 = false) ∧
    (∃ s : State, s.bit .greenroom (Reg.Greenroom.WATCH_EN 31) = true ∧ s.bit .greenroom (Reg.Greenroom.WATCH_MODULE 31) = true ∧
      s.fld .greenroom (Reg.Greenroom.WATCH_SOURCE 31) = 705 ∧ greenSource 705 = true ∧ s.sourceLevel 705 0 = true ∧
      s.fld .greenroom Reg.Greenroom.PWR_STATE = 2 ∧ s.lowPower = true ∧ s.dead = false) ∧
    (∃ s : State, s.bit .greenroom (Reg.Greenroom.WATCH_EN 31) = true ∧ s.bit .greenroom (Reg.Greenroom.WATCH_MODULE 31) = true ∧
      s.fld .greenroom (Reg.Greenroom.WATCH_SOURCE 31) = 705 ∧ s.sourceLevel 705 0 = true ∧ s.lowPower = false) := by
  refine ⟨⟨power 1, ?_⟩, ⟨{ power 1 with twin := { mode := 1 } }, ?_⟩, ⟨power 1 { entry := some (2, 0) }, ?_⟩,
    ⟨power 1 { entry := some (2, 0), abort := true }, ?_⟩, ⟨power 3, ?_⟩,
    ⟨power 2 {} [(Reg.Greenroom.WATCH_EN 31, 1), (Reg.Greenroom.WATCH_MODULE 31, 1), (Reg.Greenroom.WATCH_SOURCE 31, 705), (Reg.Hdr.INT_EN, 2)], ?_⟩,
    ⟨power 1 {} [(Reg.Greenroom.WATCH_EN 31, 1), (Reg.Greenroom.WATCH_MODULE 31, 1), (Reg.Greenroom.WATCH_SOURCE 31, 705), (Reg.Hdr.INT_EN, 2)], ?_⟩⟩
    <;> and_intros <;> decide +kernel

/-- The twin in a state, with the link and its fields. -/
def duo (tw : Nat) (t : TwinState := {}) (l : List (Blk × Fld × Nat) := []) : State :=
  { mk ((.twin, Reg.Twin.STATE, tw) :: (.ndodom, Reg.Ndodom.STATUS_LINK, 1) :: l) with twin := t }

theorem witness_TwinStates :
    (∃ s : State, s.bit .twin Reg.Hdr.ERR_VALID = false ∧ s.model.lockstep = false) ∧
    (∃ s : State, s.model.lockstep = true ∧ s.attached = true) ∧
    (∃ s : State, s.model.lockstep = true ∧ s.attached = false ∧ 2 ≠ s.twin.mode) ∧
    (∃ s : State, s.claim = 0 ∧ openState s.tw = true ∧ s.tw ≠ Tw.taking) ∧
    (∃ s : State, s.claim ≠ 0 ∧ arbWord 0 0 ≤ s.ownWord ∧ openState s.tw = true ∧ s.tw ≠ Tw.taking ∧ s.twin.tie = false ∧
      s.twin.barred = none) ∧
    (∃ s : State, s.fld .twin Reg.Twin.CLAIM_SEEN ≠ 0 ∧ 100 * s.fs ≤ (s.render.tick + 1 - s.twin.cycleAt) * 1000000) ∧
    (∃ s : State, ¬ 100 * s.fs ≤ (s.render.tick + 1 - s.twin.cycleAt) * 1000000) ∧ (∃ s : State, s.twin.peerpres ≠ true) ∧
    (∃ s : State, s.bit .ndodom Reg.Ndodom.STATUS_TRAINING = true ∧ 2 &&& s.fld .ndodom Reg.Ndodom.CFG_LANE_EN ≠ 0) ∧
    (∃ s : State, s.bit .ndodom Reg.Ndodom.STATUS_TRAINING = false) ∧
    (∃ s : State, s.bit .ndodom Reg.Ndodom.STATUS_LINK = true) ∧
    (∃ s : State, s.fld .ndodom Reg.Ndodom.STATUS_LANES_UP = 3) ∧
    (∃ s : State, s.fld .ndodom Reg.Ndodom.STATUS_LANES_UP = 2 ∧ s.fld .ndodom Reg.Ndodom.CFG_LANE_EN = 3) ∧
    (∃ s : State, s.bit .ndodom Reg.Ndodom.STATUS_LINK = false) ∧
    (∃ s : State, s.bit .ndodom Reg.Ndodom.STATUS_LINK = true ∧ s.tw = Tw.wait ∧ undState s.tw = true) ∧
    (∃ s : State, s.bit .ndodom Reg.Ndodom.STATUS_LINK = true ∧ s.attached = true ∧ s.tw = Tw.lockUnd) ∧
    (∃ s : State, s.bit .ndodom Reg.Ndodom.STATUS_LINK = true ∧ s.tw = Tw.joinPri ∧ s.twin.join = none) ∧
    (∃ s : State, s.bit .ndodom Reg.Ndodom.STATUS_LINK = true ∧ s.tw = Tw.lockPri ∧ s.lockPri = true) := by
  refine ⟨⟨{ model := .m920 }, ?_⟩, ⟨duo 4, ?_⟩, ⟨duo 1, ?_⟩, ⟨duo 1 {} [(.twin, Reg.Twin.CLAIM_PRI, 0)], ?_⟩,
    ⟨duo 1 {} [(.twin, Reg.Twin.CLAIM_PRI, 255)], ?_⟩, ⟨{ mk [(.twin, Reg.Twin.CLAIM_SEEN, 1)] with render := { tick := 4 } }, ?_⟩, ⟨{}, ?_⟩, ⟨{}, ?_⟩,
    ⟨mk [(.ndodom, Reg.Ndodom.STATUS_TRAINING, 1), (.ndodom, Reg.Ndodom.CFG_LANE_EN, 2)], ?_⟩, ⟨{}, ?_⟩, ⟨duo 0, ?_⟩,
    ⟨mk [(.ndodom, Reg.Ndodom.STATUS_LANES_UP, 3)], ?_⟩,
    ⟨mk [(.ndodom, Reg.Ndodom.STATUS_LANES_UP, 2), (.ndodom, Reg.Ndodom.CFG_LANE_EN, 3)], ?_⟩, ⟨{}, ?_⟩, ⟨duo 8, ?_⟩,
    ⟨duo 13, ?_⟩, ⟨duo 2, ?_⟩, ⟨duo 4, ?_⟩⟩ <;> and_intros <;> decide +kernel

/-- An image of a machine with nothing in it. -/
def blank : Image := ({} : State).image false

theorem witness_TwinRuns :
    (∃ s : State, s.twin.mode ≠ 0 ∧ s.bit .ndodom Reg.Ndodom.STATUS_LINK = true ∧ s.time.m % s.blockSize = 0 ∧
      s.twin.sentAt ≠ some s.time.m ∧ s.bit .twin Reg.Twin.NET_HB_EN = false) ∧
    (∃ s : State, s.time.m % s.blockSize ≠ 0) ∧ (∃ s : State, s.twin.sentAt = some s.time.m) ∧
    (∃ s : State, s.twin.checkedAt = some (s.time.m / s.blockSize)) ∧
    (∃ s : State, s.twin.mode ≠ 0 ∧ s.bit .ndodom Reg.Ndodom.STATUS_LINK = true ∧ s.time.m % s.blockSize = 0 ∧
      s.twin.sentAt ≠ some s.time.m ∧ s.bit .twin Reg.Twin.NET_HB_EN = true ∧
      s.controlQueue (s.fld .twin Reg.Twin.NET_HB_PORT) = some 0 ∧ s.hasEth (s.fld .twin Reg.Twin.NET_HB_PORT) = true) ∧
    (∃ s : State, s.twin.mode ≠ 0 ∧ s.twin.checkedAt ≠ some (s.time.m / s.blockSize) ∧ s.twin.hb = true) ∧
    (∃ s : State, s.twin.mode ≠ 0 ∧ s.twin.checkedAt ≠ some (s.time.m / s.blockSize) ∧ s.twin.hb = false ∧ s.twin.misses ≠ 2) ∧
    (∃ s : State, s.twin.mode ≠ 0 ∧ s.twin.checkedAt ≠ some (s.time.m / s.blockSize) ∧ s.twin.hb = false ∧ s.twin.misses = 2 ∧ undState s.tw = false) ∧
    (∃ s : State, s.bit .twin Reg.Twin.NET_HB_EN = true ∧ Config.serial + 1 ≠ Config.serial) ∧
    (∃ s : State, s.bit .twin Reg.Twin.NET_HB_EN = false) ∧
    (∃ s : State, s.bit .twin Reg.Twin.NET_HB_OK = true ∧ s.twin.netAt + 3 * s.blockSize ≤ s.render.tick) ∧
    (∃ s : State, undState s.tw = true ∧ s.bit .twin Reg.Twin.CFG_AUTO_TAKE = true ∧ s.takeConds.all id = true) ∧
    (∃ s : State, ¬ undState s.tw = true) ∧
    (∃ s : State, s.tw = Tw.taking ∧ s.mayOpen = true ∧ s.twin.cold = false) ∧
    (∃ s : State, s.tw = Tw.taking ∧ s.twin.cold = true ∧ s.twin.restored = false ∧ s.newestImage = none) ∧
    (∃ s : State, s.tw = Tw.taking ∧ s.twin.cold = true ∧ s.twin.restored = false ∧ s.newestImage.isSome = true) ∧
    (∃ s : State, s.bit .ndodom Reg.Ndodom.STATUS_LINK = true ∧ s.lockPri = true ∧ s.running = true ∧
      s.render.rsi / s.blockSize = 4 + 1) ∧
    (∃ s : State, s.bit .ndodom Reg.Ndodom.STATUS_LINK = true ∧ s.render.rsi / s.blockSize ≠ 4 + 1) ∧
    (∃ s : State, s.bit .ndodom Reg.Ndodom.STATUS_LINK = true ∧ s.tw = Tw.coldPri ∧ s.twin.commitSince = true) ∧
    (∃ s : State, s.bit .ndodom Reg.Ndodom.STATUS_LINK = true ∧ s.tw = Tw.verify ∧ s.fld .twin Reg.Twin.VERIFY_BLOCKS ≤ s.twin.matched) ∧
    (∃ s : State, s.twin.crcs.lookup 5 = some 9 ∧ s.twin.peerCrcs.lookup 5 = some 9 ∧ s.tw = Tw.verify) ∧
    (∃ s : State, s.twin.crcs.lookup 5 = some 9 ∧ s.twin.peerCrcs.lookup 5 = some 8 ∧
      s.lockUnd = true) ∧
    (∃ s : State, s.tw = Tw.replay ∧ s.twin.journal = [] ∧ s.twin.awaiting = false ∧ s.running = true) ∧
    (∃ (s : State) (c : Cmd), s.twin.join = some (some (c.seat, c.tag), 0) ∧ s.tw = Tw.alone ∧ 0 + s.fs ≤ s.render.tick ∧
      s.cmdOf c.seat c.tag = some c ∧ c.final = false ∧ c.waiters = [] ∧ c.tag < bootTag ∧ c.seat < 8 ∧ c.sq < 4) ∧
    (∃ s : State, s.twin.handover = some (64, none) ∧ s.render.rsi < 64) ∧
    (∃ s : State, s.twin.handover = some (0, none) ∧ 0 ≤ s.render.rsi ∧ s.tw = Tw.lockPri) ∧
    (∃ s : State, s.twin.handover = some (0, none) ∧ 0 ≤ s.render.rsi ∧ s.tw = Tw.lockUnd ∧ s.twin.tie = false) := by
  refine ⟨⟨duo 1 { mode := 1 } [(.twin, Reg.Twin.NET_HB_EN, 0)], ?_⟩, ⟨{ time := { m := 5 } }, ?_⟩, ⟨duo 1 { sentAt := some 0 }, ?_⟩,
    ⟨duo 1 { checkedAt := some 0 }, ?_⟩,
    ⟨duo 1 { mode := 1 } [(.twin, Reg.Twin.NET_HB_EN, 1), (.twin, Reg.Twin.NET_HB_PORT, 3), (.ethMac 3, Reg.EthMac.QUEUE_USE 0, 1)], ?_⟩,
    ⟨duo 1 { mode := 1, hb := true }, ?_⟩, ⟨duo 1 { mode := 1 }, ?_⟩, ⟨duo 1 { mode := 1, misses := 2 }, ?_⟩,
    ⟨duo 1 {} [(.twin, Reg.Twin.NET_HB_EN, 1)], ?_, Nat.succ_ne_self _⟩, ⟨duo 1 {} [(.twin, Reg.Twin.NET_HB_EN, 0)], ?_⟩,
    ⟨{ duo 1 {} [(.twin, Reg.Twin.NET_HB_OK, 1)] with render := { tick := 384 } }, ?_⟩,
    ⟨duo 8 {} [(.twin, Reg.Twin.CFG_AUTO_TAKE, 1)], ?_⟩, ⟨duo 1, ?_⟩, ⟨duo 15 { won := true }, ?_⟩, ⟨duo 15 { cold := true }, ?_⟩,
    ⟨{ duo 15 { cold := true } with snaps := { slot0 := some blank } }, ?_⟩,
    ⟨{ duo 4 { mode := 2 } [(.render, Reg.Render.STATE, 1), (.render, Reg.Render.CFG_BLOCK, 0)] with render := { rsi := 40 } }, ?_⟩,
    ⟨duo 4, ?_⟩, ⟨duo 3 { commitSince := true }, ?_⟩,
    ⟨duo 11 { matched := 65536 }, ?_⟩, ⟨duo 11 { crcs := [(5, 9)], peerCrcs := [(5, 9)] }, ?_⟩,
    ⟨duo 11 { crcs := [(5, 9)], peerCrcs := [(5, 8)] }, ?_⟩, ⟨duo 10 {} [(.render, Reg.Render.STATE, 1)], ?_⟩,
    ⟨flying [act 1] { duo 1 { join := some (some (0, 7), 0) } with render := { tick := 48000 } }, act 1, ?_⟩,
    ⟨duo 1 { handover := some (64, none) }, ?_⟩, ⟨duo 4 { handover := some (0, none) }, ?_⟩,
    ⟨duo 13 { handover := some (0, none) }, ?_⟩⟩ <;> and_intros <;> decide +kernel

/-- The monitors, with fields of the health page. -/
def mon (m : Monitors) (l : List (Blk × Fld × Nat) := []) : State := { mk l with mon := m }

theorem witness_MemoryAndHealthMonitors :
    (∃ s : State, s.watching = false) ∧
    (∃ s : State, s.watching = true ∧ s.mon.tapMove = [(1, 1)] ∧ s.mon.want2x = true ∧ s.bit .dramc Reg.Dramc.STATUS_REFRESH_2X = false) ∧
    (∃ s : State, s.watching = true ∧ s.bit .dramc Reg.Dramc.STATUS_ECC_ON = false) ∧
    (∃ s : State, s.watching = true ∧ s.bit .dramc Reg.Dramc.STATUS_ECC_ON = true ∧ 1023 < s.model.objects ∧
      s.fld .dramc Reg.Dramc.STORM_LIMIT ≤ (s.mon.ces.filter (fun a => decide (s.render.tick < a + s.msTicks))).length) ∧
    (∃ s : State, s.watching = true ∧ (s.obj 1023).ctx.state = .running) ∧
    (∃ (s : State) (t : List Int), s.watching = true ∧ t.length = 16 ∧ s.mon.warn = false ∧
      (s.fld .health Reg.Health.WARN_TEMP : Int) * 256 ≤ (hottest t).1 ∧ s.mon.critical = false ∧ 115 * 256 ≤ (hottest t).1) ∧
    (∃ (s : State) (mv : List Nat), s.watching = true ∧ mv.length = 12 ∧ s.railWindow 11 = some (470, 530) ∧ 530 < 2 * mv.getD 11 0) ∧
    (∃ (s : State) (counts : List Nat), s.watching = true ∧ counts.length = 8 ∧ s.bit .health Reg.Health.AVS_MODE = true) ∧
    (∃ s : State, s.watching = true ∧ s.bit .health Reg.Health.AVS_MODE = false ∧ 850 % 5 = 0) ∧
    (∃ s : State, s.watching = true ∧ ¬ 855 ≤ 850) ∧
    (∃ s : State, s.mon.stall = true) ∧ (∃ s : State, s.mon.stall = false) ∧
    (∃ s : State, s.mon.warn = true ∧ s.cooled 0 = true) ∧
    (∃ s : State, s.mon.throttle = true ∧ s.cooled 1 = true ∧ s.clocked = false) ∧
    (∃ s : State, s.mon.critical = true ∧ s.cooled 2 = true) ∧ (∃ s : State, s.mon.warn = true ∧ s.cooled 0 = false) ∧
    (∃ s : State, s.mon.warn = false) ∧
    (∃ s : State, s.fld .greenroom Reg.Greenroom.PWR_STATE ≠ 3 ∧ s.mon.tripped = false) ∧
    (∃ s : State, s.mon.tripped = true) ∧
    (∃ s : State, s.mon.pmb = some (none, 1) ∧ s.mon.next = none) ∧ (∃ s : State, s.mon.pmb = some (some 850, 2) ∧ s.mon.next = none) ∧
    (∃ s : State, s.mon.pmb = none) ∧
    (∃ (s : State) (data : Word), s.isUnderstudy = false ∧ s.lockPri = false ∧ s.pushMode = false ∧ data.toNat / 64 % 1024 = 850) := by
  refine ⟨⟨mon { tripped := true }, ?_⟩, ⟨mon { want2x := true, tapMove := [(1, 1)] }, ?_⟩,
    ⟨mon {} [(.dramc, Reg.Dramc.STATUS_ECC_ON, 0)], ?_⟩,
    ⟨mon { ces := [0] } [(.dramc, Reg.Dramc.STATUS_ECC_ON, 1), (.dramc, Reg.Dramc.STORM_LIMIT, 1)], ?_⟩,
    ⟨{ objs := [(1023, { ctx := { state := .running } })] }, ?_⟩, ⟨{}, 127 * 256 :: List.replicate 15 0, ?_⟩,
    ⟨{}, List.replicate 11 0 ++ [266], ?_⟩, ⟨mon {} [(.health, Reg.Health.AVS_MODE, 1)], List.replicate 8 0, ?_⟩,
    ⟨mon {} [(.health, Reg.Health.AVS_MODE, 0)], ?_⟩, ⟨{}, ?_⟩, ⟨mon { stall := true }, ?_⟩, ⟨{}, ?_⟩,
    ⟨{ mon { warn := true, cool := [(0, 1)] } with render := { tick := 48000 } }, ?_⟩,
    ⟨{ mon { throttle := true, cool := [(1, 1)] } with render := { tick := 48000 } }, ?_⟩,
    ⟨{ mon { critical := true, cool := [(2, 1)] } with render := { tick := 48000 } }, ?_⟩, ⟨mon { warn := true }, ?_⟩, ⟨{}, ?_⟩, ⟨{}, ?_⟩, ⟨mon { tripped := true }, ?_⟩, ⟨mon { pmb := some (none, 1) }, ?_⟩,
    ⟨mon { pmb := some (some 850, 2) }, ?_⟩, ⟨{}, ?_⟩, ⟨{}, BitVec.ofNat 32 (64 * 850), ?_⟩⟩ <;> and_intros <;> decide +kernel

/-- A file without the image's magic number does not check good. -/
theorem no_magic_is_bad (n : Nat) (f : List Byte) (h : leAt f 0 4 ≠ 0x4D465752) : imageFault n f ≠ none := by
  have step : ∀ (c : Prop) [Decidable c] (x y : Option Nat), x ≠ none → y ≠ none → (if c then x else y) ≠ none := by
    intro c _ x y hx hy
    split <;> assumption
  unfold imageFault
  apply step
  · simp
  · simp [h]

/-- Erased flash holds no image. -/
theorem erased_flash_is_bad (s : State) (off n : Nat) (h : s.boot.flash = []) (hn : 4 ≤ n) :
    imageFault s.boot.fused (s.flashAt off n) ≠ none := by
  refine no_magic_is_bad _ _ ?_
  have hf : s.flashAt off n = List.replicate n 0xFF#8 := by
    rw [List.eq_replicate_iff]
    refine ⟨by simp [State.flashAt], fun b hb => ?_⟩
    rw [State.flashAt, h, List.mem_map] at hb
    obtain ⟨_, _, rfl⟩ := hb
    rfl
  rw [hf, leAt, List.drop_zero, List.take_replicate, Nat.min_eq_left hn]
  decide

/-- The machine in a reset, or after one, at a boot stage. -/
def boot (b : Boot) (l : List (Fld × Nat) := []) : State := { mk (l.map (fun x => (.resetPage, x))) with boot := b }

theorem witness_ResetAndBoot :
    (∃ s : State, s.boot.warm ≠ some false ∧ s.fld .resetPage Reg.Reset.BOOT_STAGE ≠ 8 ∧ s.fld .resetPage Reg.Reset.BOOT_STAGE ≠ 9 ∧
      s.dead = false ∧ s.lowPower = false ∧ s.bit .dramc Reg.Dramc.STATUS_ECC_ON = true) ∧
    (∃ s : State, s.boot.warm = some false ∧ s.fld .resetPage Reg.Reset.BOOT_STAGE ≠ 8 ∧ s.fld .resetPage Reg.Reset.BOOT_STAGE ≠ 9 ∧
      s.dead = false ∧ s.fld .greenroom Reg.Greenroom.PWR_STATE = 2) ∧
    (∃ s : State, s.fld .resetPage Reg.Reset.BOOT_STAGE = 8) ∧
    (∃ s : State, s.boot.image = some (1, 64) ∧ s.bit .resetPage Reg.Reset.FALLBACK = false ∧ s.boot.warm = none) ∧
    (∃ s : State, s.bit .resetPage Reg.Reset.FALLBACK = true) ∧
    (∃ s : State, s.boot.warm = some true ∧ s.bit .dramc Reg.Dramc.STATUS_TRAINED = false ∧
      s.fld .resetPage Reg.Reset.BOOT_STAGE ≠ 8 ∧ s.dead = false) ∧
    (∃ s : State, s.boot.warm = some false ∧ s.bit .dramc Reg.Dramc.STATUS_TRAINED = false ∧
      s.fld .resetPage Reg.Reset.BOOT_STAGE ≠ 8 ∧ s.dead = false ∧ s.boot.bootsel = 1) ∧
    (∃ s : State, s.boot.warm = some true ∧ s.bit .dramc Reg.Dramc.STATUS_TRAINED = true ∧ s.dead = false ∧
      s.boot.image = some (1, 1) ∧ s.boot.cfg.defcfg = false ∧ s.boot.cfg.slot = s.boot.loadedSlot) ∧
    (∃ s : State, s.boot.warm = none) ∧ (∃ t : Tap, t.trstB = true ∧ t.state = .captureDr ∧ t.idcode = true) := by
  refine ⟨⟨{ boot := { warm := none }, fab := (mk [(.dramc, Reg.Dramc.STATUS_ECC_ON, 1)]).fab }, ?_⟩, ⟨power 2, ?_⟩,
    ⟨boot {} [(Reg.Reset.BOOT_STAGE, 8)], ?_⟩,
    ⟨boot { warm := none, image := some (1, 64) }, ?_⟩, ⟨boot {} [(Reg.Reset.FALLBACK, 1)], ?_⟩, ⟨boot { warm := some true }, ?_⟩,
    ⟨boot { bootsel := 1 }, ?_⟩, ⟨(boot { warm := some true, image := some (1, 1) }).setBoth .dramc Reg.Dramc.STATUS_TRAINED 1, ?_⟩,
    ⟨boot { warm := none }, ?_⟩, ⟨{ trstB := true, state := .captureDr, idcode := true }, ?_⟩⟩ <;> and_intros <;> decide +kernel

theorem witness_ImageChecks :
    (∃ s : State, s.boot.warm = some false ∧ s.fld .resetPage Reg.Reset.BOOT_STAGE = 2 ∧ s.boot.cfg.slot < 2 ∧ s.dead = false ∧
      imageFault s.boot.fused (s.flashAt (imageSlot s.boot.cfg.slot) 0x400000) ≠ none ∧
      imageFault s.boot.fused (s.flashAt (imageSlot (1 - s.boot.cfg.slot)) 0x400000) ≠ none) ∧
    (∃ s : State, s.boot.warm = some false ∧ s.dead = false ∧ s.fld .resetPage Reg.Reset.BOOT_STAGE = 0xA ∧ s.fld .resetPage Reg.Reset.PUSH_STATE = 3 ∧
      imageFault s.boot.fused ((List.range (s.fld .resetPage Reg.Reset.PUSH_LEN)).map (fun k => Map.get 0#8 k s.boot.window)) ≠ none) :=
  ⟨⟨boot {} [(Reg.Reset.BOOT_STAGE, 2)], by decide +kernel, by decide +kernel, by decide +kernel, by decide +kernel,
      erased_flash_is_bad _ _ _ rfl (by decide), erased_flash_is_bad _ _ _ rfl (by decide)⟩,
   ⟨boot {} [(Reg.Reset.BOOT_STAGE, 10), (Reg.Reset.PUSH_STATE, 3)], by decide +kernel, by decide +kernel, by decide +kernel, by decide +kernel,
      no_magic_is_bad _ _ (by decide +kernel)⟩⟩

/-- Record 1 of 3 of the default configuration, four words, under replay. -/
def record (ws : List Word) (b : Boot := {}) (s : State := {}) : State :=
  { s with boot := { b with
    warm := none, replay := some (1, 3)
    flash := ((ws.flatMap bytesOf).zipIdx.map (fun e => (defcfgAt + 96 + e.2, e.1))).filter (fun e => decide (e.2 ≠ 0xFF#8)) } }

/-- The record's kind. -/
abbrev Rec (s : State) (kind : Nat) : Prop := s.boot.replay = some (1, 3) ∧ s.boot.warm = none ∧ s.dead = false ∧ s.defWord 1 0 % 256 = kind

theorem witness_DefaultConfiguration :
    (∃ s, Rec s 255) ∧ (∃ s, Rec s 6) ∧ (∃ s, Rec s 0) ∧
    (∃ s, Rec s 1 ∧ (s.tryWrite (.seat 0) (s.defWord 1 1) (BitVec.ofNat 32 (s.defWord 1 2)) (s.defWord 1 1 % 4 = 0)).2 = true) ∧
    (∃ s, Rec s 1 ∧ (s.tryWrite (.seat 0) (s.defWord 1 1) (BitVec.ofNat 32 (s.defWord 1 2)) (s.defWord 1 1 % 4 = 0)).2 = false) ∧
    (∃ s, Rec s 2 ∧ s.boot.busy = false ∧ s.defWord 1 1 ≠ 0 ∧ s.isUnderstudy = false ∧ s.fab.commits = []) ∧
    (∃ s, Rec s 2 ∧ s.boot.busy = true ∧ s.fab.defcfg = updApplied) ∧
    (∃ s, Rec s 2 ∧ s.boot.busy = true ∧ s.defWord 1 1 ≠ 0 ∧ s.fab.defcfg ∉ [updApplied, updPreparing, updPending]) ∧
    (∃ s, Rec s 3 ∧ s.boot.busy = false ∧ (s.defCommand 1).opcode = 0x20 ∧ (s.defCommand 1).wellFormed = true ∧
      (s.defCommand 1).n 3 % 4 = 0 ∧ (s.defCommand 1).n 3 ≤ s.poolFree ∧ (s.seat 0).cmds = []) ∧
    (∃ s, Rec s 3 ∧ s.boot.busy = false ∧ (s.defCommand 1).opcode ∉ [0x10, 0x11, 0x20, 0x28, 0x22, 0x58, 0x59]) ∧
    (∃ s, Rec s 3 ∧ s.boot.busy = true ∧ s.boot.result = none) ∧ (∃ s, Rec s 3 ∧ s.boot.busy = true ∧ s.boot.result = some Status.ok) ∧
    (∃ s, Rec s 3 ∧ s.boot.busy = true ∧ s.boot.result = some Status.badParam) ∧
    (∃ s, Rec s 4 ∧ s.fld .mediaClk Reg.MediaClk.STATE = 2) ∧
    (∃ s, Rec s 4 ∧ s.fld .mediaClk Reg.MediaClk.STATE = 0 ∧ s.defWord 1 1 * s.fs ≤ (s.render.tick + 1 - s.boot.since) * 1000) ∧
    (∃ s, Rec s 4 ∧ s.fld .mediaClk Reg.MediaClk.STATE = 0 ∧ ¬ s.defWord 1 1 * s.fs ≤ (s.render.tick + 1 - s.boot.since) * 1000) ∧
    (∃ s, Rec s 5) ∧ (∃ s : State, s.boot.replay = none) ∧ (∃ s : State, s.dead = true) := by
  refine ⟨⟨record [], ?_⟩, ⟨record [6], ?_⟩, ⟨record [0], ?_⟩,
    ⟨record [1, BitVec.ofNat 32 (wordAt (.obj 1023) Reg.Obj.CTRL_INVERT), 0, 0], ?_⟩, ⟨record [1, BitVec.ofNat 32 (wordAt (.obj 1023) Reg.Obj.CTRL_INVERT + 1), 0, 0], ?_⟩,
    ⟨record [2, 1, 0, 0], ?_⟩, ⟨record [2, 1, 0, 0] { busy := true } { fab := { defcfg := updApplied } }, ?_⟩,
    ⟨record [2, 1, 0, 0] { busy := true }, ?_⟩, ⟨record [0x2003, 0, 0, 0], ?_⟩, ⟨record [0x6003, 0, 0, 0], ?_⟩,
    ⟨record [0x2003, 0, 0, 0] { busy := true }, ?_⟩, ⟨record [0x2003, 0, 0, 0] { busy := true, result := some Status.ok }, ?_⟩,
    ⟨record [0x2003, 0, 0, 0] { busy := true, result := some Status.badParam }, ?_⟩,
    ⟨record [4, 0, 0, 0] {} (mk [(.mediaClk, Reg.MediaClk.STATE, 2)]), ?_⟩, ⟨record [4, 0, 0, 0] {} (mk [(.mediaClk, Reg.MediaClk.STATE, 0)]), ?_⟩,
    ⟨record [4, 9, 0, 0] {} (mk [(.mediaClk, Reg.MediaClk.STATE, 0)]), ?_⟩,
    ⟨record [5, 0, 0, 0], ?_⟩, ⟨{}, ?_⟩, ⟨mon { tripped := true }, ?_⟩⟩ <;> and_intros <;> decide +kernel

/-! Stagedoor messages -/

/-- SHA-256 of the empty message begins as FIPS 180-4 has it. -/
theorem test_sha256 : (sha256 []).take 4 = [0xE3, 0xB0, 0xC4, 0x42] := by decide +kernel

/-- Seat 7 on port 3 by Stagedoor, with a key, in a session; port 3 has a control queue. -/
def door (session : Nat) (l : List (Fld × Nat) := []) (q : SeatState := {}) : State :=
  { mk ((.ethMac 3, Reg.EthMac.QUEUE_USE 0, 1) :: ((Reg.Seat.BIND_KIND, 3) :: (Reg.Seat.BIND_INDEX, 3) ::
      (Reg.Seat.STATUS_KEY_VALID, 1) :: l).map (fun x => (.seat 7, x))) with
    seats := [(7, { q with sd := { key := some [1, 2, 3, 4], session := session } })] }

/-- A message of seat 7 with sequence number 1, tagged with its key. -/
def sdMsg (type session : Nat) (payload : List Word) : List Byte := sdSpell [1, 2, 3, 4] 7 type 0 1 0 session payload

/-- Its header. -/
def sdIs (type session : Nat) (payload : List Byte) : SdHead := { type := type, seat := 7, seq := 1, ack := 0, session := session, payload := payload }

/-- It is tagged with the key of its seat. -/
abbrev Tagged (s : State) (msg : List Byte) : Prop :=
  s.sdBound 3 7 = true ∧ s.bit (.seat 7) Reg.Seat.STATUS_KEY_VALID = true ∧ (s.sdOf 7).key = some [1, 2, 3, 4] ∧
    sdTag [1, 2, 3, 4] (msg.take (msg.length - 16)) = msg.drop (msg.length - 16)

/-- A state whose session takes it. -/
abbrev Takes (s : State) (msg : List Byte) (m : SdHead) : Prop :=
  sdParse msg = some m ∧ m.seat = 7 ∧ Tagged s msg ∧ (s.sdOf 7).session ≠ 0 ∧ m.session = (s.sdOf 7).session ∧
    (s.sdOf 7).fresh m.seq = true ∧ (s.sdOf 7).waiting = []

/-- The same message with a tag of zeros. -/
def untagged (type : Nat) : List Byte := (sdMsg type 9 []).take 24 ++ List.replicate 16 0

/-- An operation of seat 7 whose source is an UPLOAD of 4 bytes. -/
def uploading : Cmd := cmd 0x20 [2, 0, 0, 4] 7

theorem witness_Stagedoor :
    (∃ s : State, ∀ type ∈ [1, 2, 3, 6], sdParse (untagged type) = some (sdIs type 9 []) ∧ s.sdBound 3 7 = true ∧
      (s.sdOf 7).key = some [1, 2, 3, 4] ∧
      sdTag [1, 2, 3, 4] ((untagged type).take 24) ≠ (untagged type).drop 24) ∧
    (∃ (s : State) (m : SdHead), sdParse (sdMsg 1 9 []) = some m ∧ m.type = 1 ∧ Tagged s (sdMsg 1 9 []) ∧
      m.session ≠ (s.sdOf 7).session) ∧
    (∃ (s : State) (m : SdHead), sdParse (sdMsg 6 0 []) = some m ∧ Tagged s (sdMsg 6 0 []) ∧ m.type = 6 ∧ m.session = 0 ∧
      (s.sdOf 7).waiting = [] ∧ (s.sdOf 7).session = 0) ∧
    (∃ (s : State) (m : SdHead), sdParse (sdMsg 6 0 []) = some m ∧ Tagged s (sdMsg 6 0 []) ∧ m.type = 6 ∧ m.session = 0 ∧
      (s.sdOf 7).waiting = [] ∧ (s.sdOf 7).session ≠ 0) ∧
    (∃ (s : State) (m : SdHead), Takes s (sdMsg 6 9 []) m ∧ m.type = 6) := by
  refine ⟨⟨door 9, ?_⟩, ⟨door 8, sdIs 1 9 [], ?_⟩, ⟨door 0, sdIs 6 0 [], ?_⟩, ⟨door 8, sdIs 6 0 [], ?_⟩,
    ⟨door 9, sdIs 6 9 [], ?_⟩⟩ <;> and_intros <;> decide +kernel

theorem witness_StagedoorMessages :
    (∃ (s : State) (m : SdHead) (b : Buffer), Takes s (sdMsg 1 9 [0x40002, 12, 5]) m ∧ m.type = 1 ∧ m.count = some 4 ∧
      m.word 0 % 4 = 2 ∧ s.buffer (m.word 2) = some b ∧ b.seat = m.seat ∧ m.word 1 + 4 * 4 = b.size ∧
      s.controlQueue 3 = some 0 ∧ s.hasEth 3 = true) ∧
    (∃ (s : State) (m : SdHead), Takes s (sdMsg 2 9 [0x10001, 0, 7, 0xABCD]) m ∧ m.type = 2 ∧ m.count = some 1 ∧
      m.word 0 % 4 = 1 ∧ m.payload.length = 12 + 4 * 1 ∧ s.cmdOf 7 (m.word 2) = some uploading ∧ uploading.seat = m.seat ∧
      uploading.sourceAt = some 0 ∧ uploading.final = false ∧ uploading.n 0 % 4 = 2 ∧ m.word 1 + 4 * 1 = uploading.n 3) ∧
    (∃ (s : State) (m : SdHead), Takes s (sdMsg 3 9 (0x103 :: List.replicate 16 1)) m ∧ m.type = 3 ∧ m.word 0 / 2 ^ 8 % 32 = 1 ∧
      m.payload.length = 68 ∧ m.word 0 % 4 = 3 ∧ s.bit (.seat 7) (Reg.Seat.SQ_EN 3) = true ∧
      s.fld (.seat 7) (Reg.Seat.SQ_SIZE 3) = 2 ∧
      (s.fld (.seat 7) (Reg.Seat.SQ_TAIL 3) + 1) % 2 ≠ s.fld (.seat 7) (Reg.Seat.SQ_HEAD 3)) ∧
    (∃ (s : State) (m : SdMessage), 7 < s.model.seats ∧ s.isStagedoor 7 = true ∧ (s.sdOf 7).unacked = [m] ∧
      m.sentAt + s.fs / 20 ≤ s.render.tick ∧ s.controlQueue (s.bindIndex 7) = some 0 ∧ s.hasEth (s.bindIndex 7) = true) ∧
    (∃ s : State, 7 < s.model.seats ∧ s.isStagedoor 7 = true ∧ (s.sdOf 7).session ≠ 0 ∧
      (s.sdOf 7).keptAt + s.fs / 2 ≤ s.render.tick) := by
  refine ⟨⟨{ door 9 with pool := { bufs := [(5, { seat := 7, size := 28 })] } },
      sdIs 1 9 ([0x40002#32, 12, 5].flatMap bytesOf), { seat := 7, size := 28 }, ?_⟩,
    ⟨door 9 [] { cmds := [uploading] }, sdIs 2 9 ([0x10001#32, 0, 7, 0xABCD].flatMap bytesOf), ?_⟩,
    ⟨door 9 [(Reg.Seat.SQ_EN 3, 1), (Reg.Seat.SQ_SIZE 3, 2)], sdIs 3 9 ((0x103#32 :: List.replicate 16 1).flatMap bytesOf), ?_⟩,
    ⟨{ (door 9).setSd 7 { session := 9, unacked := [⟨4, 1, [], 0⟩] } with render := { tick := 2400 } }, ⟨4, 1, [], 0⟩, ?_⟩,
    ⟨{ door 9 with render := { tick := 24000 } }, ?_⟩⟩ <;> and_intros <;> decide +kernel

end Sys2Proof.Tests
end

section
/-! PROOFS. Reads of the register window by a host: what a read of a place may change besides its answer, and the words
that hold PAGE_STAT (R13, R46, R55). -/

namespace Sys2Proof.Machine

open Sys2Proof

/-! What a read changes -/

/-- Field writes of one unit change active words only. -/
theorem State.foldl_set_shape (b : Blk) (g : Fld → Nat) (l : List Fld) (s : State) :
    ∃ m, l.foldl (fun s f => s.set b f (g f)) s = s.withAct m := by
  induction l generalizing s with
  | nil => exact ⟨s.fab.act, rfl⟩
  | cons f l ih =>
    obtain ⟨m, h⟩ := ih (s.set b f (g f))
    exact ⟨m, by rw [List.foldl_cons, h]; rfl⟩

/-- A clearing read writes active words and mirror copies and posts clears (R55, R63). -/
theorem State.clearWord_shape (s : State) (seat : Nat) (b : Blk) (off : Nat) : ∃ act mir posted,
    s.clearWord seat b off = { s with fab := { s.fab with act := act, mir := mir, posted := posted } } := by
  unfold State.clearWord
  split
  · exact ⟨_, _, _, rfl⟩
  · obtain ⟨m, hm⟩ := State.foldl_set_shape b Fld.reset
      (((wordFields b off).filter (·.acc = .cor)).partition (copied b)).2 s
    simp only [hm]
    split <;> exact ⟨_, _, _, rfl⟩

/-- Replacing a timestamp queue writes the queues and active words only. -/
theorem State.setTsQueue_shape (s : State) (p : Nat) (q : TsQueue) : ∃ act time,
    s.setTsQueue p q = { s with fab := { s.fab with act := act }, time := time } := ⟨_, _, rfl⟩

/-- All that a read of a place can change: active words, mirror copies, posted clears, and the timestamp queues
(R55, R63, R359). -/
theorem State.readEffect_shape (s : State) (seat : Nat) (p : Place) : ∃ act mir posted time,
    s.readEffect seat p =
      { s with fab := { s.fab with act := act, mir := mir, posted := posted }, time := time } := by
  have clear (b : Blk) (off : Nat) : ∃ act mir posted time, s.clearWord seat b off =
      { s with fab := { s.fab with act := act, mir := mir, posted := posted }, time := time } := by
    obtain ⟨act, mir, posted, h⟩ := s.clearWord_shape seat b off
    exact ⟨act, mir, posted, s.time, h⟩
  have queue (p : Nat) (q : TsQueue) : ∃ act mir posted time, s.setTsQueue p q =
      { s with fab := { s.fab with act := act, mir := mir, posted := posted }, time := time } := by
    obtain ⟨act, time, h⟩ := s.setTsQueue_shape p q
    exact ⟨act, s.fab.mir, s.fab.posted, time, h⟩
  unfold State.readEffect
  split
  · exact clear _ _
  · split
    · split
      · exact queue _ _
      · unfold State.entryW3
        dsimp only
        split
        · exact ⟨_, _, _, _, rfl⟩
        · exact queue _ _
    · exact clear _ _
  · split
    · exact clear _ _
    · exact ⟨_, _, _, _, rfl⟩
  · exact ⟨_, _, _, _, rfl⟩

@[simp] theorem State.readEffect_fab_latch (s : State) (seat : Nat) (p : Place) :
    (s.readEffect seat p).fab.latch = s.fab.latch := by
  obtain ⟨act, mir, posted, time, h⟩ := s.readEffect_shape seat p
  rw [h]

@[simp] theorem State.readEffect_fab_answer (s : State) (seat : Nat) (p : Place) :
    (s.readEffect seat p).fab.answer = s.fab.answer := by
  obtain ⟨act, mir, posted, time, h⟩ := s.readEffect_shape seat p
  rw [h]

/-! What a read answers and latches -/

/-- The state with `held` in the latch of a reader and `v` as its answer. -/
def State.withRead (s : State) (w : Writer) (held : List (Nat × Nat)) (v : Nat) : State :=
  { s with fab := { s.fab with latch := s.fab.latch.put [] w.code held, answer := s.fab.answer.put 0 w.code v } }

@[simp] theorem State.withRead_fab_act (s : State) (w : Writer) (held : List (Nat × Nat)) (v : Nat) :
    (s.withRead w held v).fab.act = s.fab.act := rfl
@[simp] theorem State.withRead_fab_latch (s : State) (w : Writer) (held : List (Nat × Nat)) (v : Nat) :
    (s.withRead w held v).fab.latch = s.fab.latch.put [] w.code held := rfl
@[simp] theorem State.withRead_fab_answer (s : State) (w : Writer) (held : List (Nat × Nat)) (v : Nat) :
    (s.withRead w held v).fab.answer = s.fab.answer.put 0 w.code v := rfl

/-- A read by a reader of the model is its place's effect, then a new latch and a new answer. -/
theorem State.hostRead_eq (s : State) (w : Writer) (addr : Nat) (hw : w.seatOf < s.model.seats) :
    ∃ held v, s.hostRead w addr =
      (s.readEffect w.seatOf (s.resolve w.seatOf (addr / 4 * 4))).withRead w held v := by
  unfold State.hostRead
  rw [if_neg (Nat.not_le.mpr hw)]
  exact ⟨_, _, rfl⟩

/-- With nothing latched for the reader, the answer is the word itself, and the latch then holds the words that belong to
it as they were before the read (R13). -/
theorem State.hostRead_of_latch_empty (s : State) (w : Writer) (addr : Nat) (hw : w.seatOf < s.model.seats)
    (ha : 4 ∣ addr) (hl : Map.get [] w.code s.fab.latch = []) :
    s.hostRead w addr = (s.readEffect w.seatOf (s.resolve w.seatOf addr)).withRead w
      ((placeLatch (s.resolve w.seatOf addr)).map
        (fun d => (addr + d, s.readPlace w.seatOf (s.resolve w.seatOf (addr + d)))))
      (s.readPlace w.seatOf (s.resolve w.seatOf addr)) := by
  unfold State.hostRead
  rw [if_neg (Nat.not_le.mpr hw)]
  simp only [Nat.div_mul_cancel ha, hl, List.find?_nil, Option.map_none, Option.getD_none, List.filter_nil]
  cases h : placeLatch (s.resolve w.seatOf addr) <;> rfl

/-! The word of PAGE_STAT -/

/-- What is found, if anything, is a page and not a record. -/
def IsPageIfAny (o : Option Blk) : Prop := ∀ b ∈ o, b.isRecord = false

theorem IsPageIfAny.ite {c : Prop} [Decidable c] {o p : Option Blk} (ho : IsPageIfAny o) (hp : IsPageIfAny p) :
    IsPageIfAny (if c then o else p) := iteInduction (fun _ => ho) (fun _ => hp)

theorem isPageIfAny_getElem? {l : List Blk} {i : Nat} (hl : ∀ b ∈ l, b.isRecord = false) : IsPageIfAny l[i]? :=
  fun b h => hl b (List.mem_of_getElem? h)

theorem isPageIfAny_some {b : Blk} (h : b.isRecord = false) : IsPageIfAny (some b) := by
  rintro c ⟨⟩
  exact h

/-- A page index of the window names a page (R43). -/
theorem pageAt_isPageIfAny (self pi : Nat) : IsPageIfAny (pageAt self pi) := by
  unfold pageAt
  repeat' refine .ite ?_ ?_
  any_goals exact isPageIfAny_getElem? (by decide)
  any_goals exact isPageIfAny_some rfl
  rintro b ⟨⟩

/-- If the place is a header word, then of a page. -/
def Place.HeaderOfPage : Place → Prop
  | .header b _ => b.isRecord = false
  | _ => True

theorem Place.HeaderOfPage.ite {c : Prop} [Decidable c] {p q : Place} (hp : p.HeaderOfPage) (hq : q.HeaderOfPage) :
    Place.HeaderOfPage (if c then p else q) := iteInduction (fun _ => hp) (fun _ => hq)

/-- A header word that an address names is a page's (R43, R46). -/
theorem State.resolve_headerOfPage (s : State) (self addr : Nat) : (s.resolve self addr).HeaderOfPage := by
  unfold State.resolve
  refine .ite trivial (.ite trivial (.ite trivial ?_))
  dsimp only
  have page := pageAt_isPageIfAny self (addr / 4 * 4 / 4096)
  cases h : pageAt self (addr / 4 * 4 / 4096) with
  | none => trivial
  | some b =>
    split
    · next e => cases e
    · have bank : (if updateOwn (addr / 4 * 4 % 4096) = true then Blk.updateBank self else .update).isRecord = false := by
        split <;> rfl
      exact .ite bank (.ite trivial (.ite trivial trivial))
    · next e =>
      cases e
      refine .ite (page b h) (.ite ?_ ?_)
      · repeat' refine .ite ?_ ?_
        all_goals trivial
      · split
        · repeat' refine .ite ?_ ?_
          all_goals trivial
        · refine .ite trivial ?_
          split
          · exact .ite trivial (.ite trivial (.ite trivial trivial))
          · exact .ite trivial trivial

/-- Pages lie at multiples of 4 KiB. -/
theorem Blk.base_page {b : Blk} (h : b.isRecord = false) : b.base % 0x1000 = 0 := by
  cases b <;> simp only [Blk.isRecord, Blk.base, reduceCtorEq] at h ⊢ <;> omega

/-- The chapter's fields of a page lie past its header (R46). -/
theorem Blk.fields_past_header {b : Blk} (h : b.isRecord = false) : b.fields.all (fun f => 0x2C ≤ f.off) = true := by
  cases b
  case time => rfl
  case ps => rfl
  case obj => cases h
  case out => cases h
  case bus => cases h
  case route => cases h
  case ingress => cases h
  case egress => cases h
  all_goals dsimp only [Blk.fields]; decide +kernel

/-- PAGE_STAT of a page holds one field that a read clears: EVENTS (R46). -/
theorem wordFields_pageStat_cor {b : Blk} (h : b.isRecord = false) :
    (wordFields b 0x00C).filter (·.acc = .cor) = [Reg.Hdr.EVENTS] := by
  have chapter : b.fields.filter (·.off = 0x00C) = [] := by
    rw [List.filter_eq_nil_iff]
    intro f hf
    have := List.all_eq_true.mp (Blk.fields_past_header h) f hf
    simp only [decide_eq_true_eq] at this ⊢
    omega
  simp only [wordFields, Blk.allFields, h, Bool.false_eq_true, if_false, List.filter_append, chapter, List.append_nil]
  rfl

/-- EVENTS of a page without a mirrored region is read from the page itself (R61). -/
theorem copied_events_of_not_hasMirror {b : Blk} (h : Blk.hasMirror b = false) : copied b Reg.Hdr.EVENTS = false := by
  have : mirrored b Reg.Hdr.EVENTS.off = false := by
    unfold mirrored
    split
    case h_7 => rfl
    all_goals cases h
  simp only [copied, this, Bool.false_and]

/-- A clearing read of PAGE_STAT clears EVENTS for an owner and the house seat, and does nothing for others (R55). -/
theorem State.clearWord_pageStat (s : State) (seat : Nat) {b : Blk} (h : b.isRecord = false) (hm : Blk.hasMirror b = false) :
    s.clearWord seat b 0x00C = if s.clears seat b then s.set b Reg.Hdr.EVENTS 0 else s := by
  unfold State.clearWord
  cases s.clears seat b
  · rfl
  · have own : [Reg.Hdr.EVENTS].partition (copied b) = ([], [Reg.Hdr.EVENTS]) := by
      simp [copied_events_of_not_hasMirror hm]
    simp only [wordFields_pageStat_cor h, own]
    rfl

/-- No status word is a page's PAGE_STAT word. -/
theorem pageStat_not_statusWord {b : Blk} (h : b.isRecord = false) : b.base + Reg.Hdr.EVENTS.off ∉ statusWords := by
  have status : ∀ k ∈ statusWords, k % 0x1000 ≠ Reg.Hdr.EVENTS.off := by decide
  intro hm
  have := status _ hm
  have := Blk.base_page h
  have : Reg.Hdr.EVENTS.off = 0xC := rfl
  omega

/-! Reads by a seat -/

/-- A read whose place changes only the active words `ws` changes no more than these, the reader's latch and its
answer. -/
theorem OnlyWords.withRead_settled {s u : State} {ws : List Nat} (h : OnlyWords s u ws) (w : Writer)
    (held : List (Nat × Nat)) (v : Nat) :
    SameWords s (u.withRead w held v).settled ws ∧
      { (u.withRead w held v).settled with
        fab := { (u.withRead w held v).settled.fab with
          act := s.fab.act, latch := s.fab.latch, answer := s.fab.answer } } = s := by
  obtain ⟨rest, words⟩ := h
  refine ⟨fun k hk hs => (State.settled_word _ k hs).trans (words k hk hs), ?_⟩
  have latch : u.fab.latch = s.fab.latch := congrArg (·.fab.latch) rest
  have answer : u.fab.answer = s.fab.answer := congrArg (·.fab.answer) rest
  obtain ⟨m, hm⟩ := (u.withRead w held v).settled_shape
  rw [hm, ← latch, ← answer]
  exact rest

theorem State.withRead_fld (s : State) (w : Writer) (held : List (Nat × Nat)) (v : Nat) (b : Blk) (f : Fld) :
    (s.withRead w held v).fld b f = s.fld b f := rfl

/-- A read of a reader whose latch is empty (R13). -/
theorem lowWordRead_answers {s : State} {seat addr : Nat} (hw : seat < s.model.seats) (ha : 4 ∣ addr)
    (hl : Map.get [] seat s.fab.latch = []) :
    Answers (.lowWordRead (.seat seat) addr) s (fun t =>
      Map.get 0 seat t.fab.answer = s.readPlace seat (s.resolve seat addr) ∧
      Map.get [] seat t.fab.latch = (placeLatch (s.resolve seat addr)).map (fun d =>
        (addr + d, s.readPlace seat (s.resolve seat (addr + d)))) ∧
      ∀ q, q ≠ seat → Map.get [] q t.fab.latch = Map.get [] q s.fab.latch ∧
        Map.get 0 q t.fab.answer = Map.get 0 q s.fab.answer) := by
  refine ⟨(s.hostRead (.seat seat) addr).settled, rfl, ?_⟩
  rw [s.hostRead_of_latch_empty (.seat seat) addr hw ha hl]
  simp only [State.settled_fab_latch, State.settled_fab_answer, State.withRead_fab_latch, State.withRead_fab_answer,
    State.readEffect_fab_latch, State.readEffect_fab_answer, Writer.code, Writer.seatOf]
  exact ⟨Map.get_put_same _ _ _ _, Map.get_put_same _ _ _ _,
    fun q hq => ⟨Map.get_put_other _ _ _ _ hq _, Map.get_put_other _ _ _ _ hq _⟩⟩

/-- A read of PAGE_STAT of a page without a mirrored region (R55). -/
theorem clearingRead_pageStat_answers {s : State} {seat addr : Nat} {b : Blk} (hw : seat < s.model.seats) (ha : 4 ∣ addr)
    (hp : s.resolve seat addr = .header b 0x00C) (hm : Blk.hasMirror b = false) :
    Answers (.clearingRead (.seat seat) addr) s (fun t =>
      t.fld b Reg.Hdr.EVENTS = (if s.clears seat b then 0 else s.fld b Reg.Hdr.EVENTS) ∧
      SameWords s t [wordAt b Reg.Hdr.EVENTS] ∧
      { t with fab := { t.fab with act := s.fab.act, latch := s.fab.latch, answer := s.fab.answer } } = s) := by
  have page : b.isRecord = false := by
    have := s.resolve_headerOfPage seat addr
    rwa [hp] at this
  refine ⟨(s.hostRead (.seat seat) addr).settled, rfl, ?_⟩
  obtain ⟨held, v, hr⟩ := s.hostRead_eq (.seat seat) addr hw
  rw [hr, Nat.div_mul_cancel ha]
  simp only [Writer.seatOf, hp, State.readEffect, s.clearWord_pageStat seat page hm]
  rw [State.settled_fld _ _ _ (pageStat_not_statusWord page), State.withRead_fld]
  split
  · exact ⟨State.fld_set_same s b _ 0 ⟨by decide, by decide⟩, (OnlyWords.set s b _ 0).withRead_settled _ held v⟩
  · exact ⟨rfl, (OnlyWords.refl s _).withRead_settled _ held v⟩

/-- Settles O9: a read of a reader with an empty latch, and a read of PAGE_STAT. -/
theorem readsAnswerLatchAndClear : Obligations.ReadsAnswerLatchAndClear :=
  ⟨fun _ _ _ hw ha hl => lowWordRead_answers hw ha hl,
    fun _ _ _ _ hw ha hp hm => clearingRead_pageStat_answers hw ha hp hm⟩

end Sys2Proof.Machine
end

section
/-! PROOFS. The media sample strobe, the release and the deadline of a block: what the work in each of them leaves
alone (R19, R20, R31, R350). -/

namespace Sys2Proof.Machine

open Sys2Proof

/-! A part of the state that a chain of steps keeps -/

/-- A chain of steps keeps what each of its steps keeps. -/
theorem foldl_keeps {σ α β : Type} (view : σ → β) {f : σ → α → σ} {l : List α}
    (h : ∀ s, ∀ a ∈ l, view (f s a) = view s) (s : σ) : view (l.foldl f s) = view s :=
  List.foldlRecOn (motive := fun t => view t = view s) l f rfl (fun t ht a ha => (h t a ha).trans ht)

theorem iter_keeps {σ β : Type} (view : σ → β) {f : σ → σ} (h : ∀ s, view (f s) = view s) (n : Nat) (s : σ) :
    view (iter f n s) = view s := by
  induction n generalizing s with
  | zero => rfl
  | succ n ih => exact (ih (f s)).trans (h s)

/-- A choice keeps what both of its ends have kept. -/
theorem ite_keeps {σ β : Type} (view : σ → β) {c : Prop} [Decidable c] {s t u : σ}
    (ht : view t = view s) (hu : view u = view s) : view (if c then t else u) = view s := by
  split <;> assumption

/-- A step that is taken or not keeps what the step keeps. -/
theorem when_keeps {σ β : Type} (view : σ → β) {c : Prop} [Decidable c] {s t : σ}
    (h : view t = view s) : view (if c then t else s) = view s := ite_keeps view h rfl

/-! The strobe -/

/-- What the strobe's engines leave alone: the model, the clocking state, the media sample number, the objects, the
staged values, the commits, and the RENDER fields that say when a block begins (R31). -/
structure StrobeView where
  model : Model
  render : Render
  mediaSample : Nat
  objs : Map ObjEngine
  staged : RegMap
  commits : List Commit
  block : Nat
  state : Nat

def State.strobeView (s : State) : StrobeView :=
  { model := s.model, render := s.render, mediaSample := s.time.m, objs := s.objs, staged := s.fab.stg
    commits := s.fab.commits, block := s.fld .render Reg.Render.CFG_BLOCK, state := s.fld .render Reg.Render.STATE }

/-- A field outside the RENDER page. -/
def OffRender (b : Blk) (f : Fld) : Prop :=
  b.base + f.off < Blk.render.base ∨ Blk.render.base + 0x1000 ≤ b.base + f.off

theorem State.set_strobeView (s : State) (b : Blk) (f : Fld) (v : Nat) (h : OffRender b f) :
    (s.set b f v).strobeView = s.strobeView := by
  have word (g : Fld) (hg : g.off < 0x1000) : (s.set b f v).fld .render g = s.fld .render g := by
    refine State.fld_set_word _ _ _ _ _ _ ?_
    unfold OffRender at h
    omega
  simp only [State.strobeView, State.set_model, State.set_render, State.set_time, State.set_objs, State.set_fab_stg,
    State.set_fab_commits, word _ (show Reg.Render.CFG_BLOCK.off < 0x1000 by decide),
    word _ (show Reg.Render.STATE.off < 0x1000 by decide)]

theorem State.set64_strobeView (s : State) (b : Blk) (lo hi : Fld) (v : Nat) (hl : OffRender b lo) (hh : OffRender b hi) :
    (s.set64 b lo hi v).strobeView = s.strobeView :=
  (State.set_strobeView _ _ _ _ hh).trans (State.set_strobeView _ _ _ _ hl)

theorem offRender_mediaClk {f : Fld} (h : f.off < 0x1000) : OffRender .mediaClk f :=
  .inl (by simp only [Blk.base]; omega)

theorem State.showH_strobeView (s : State) : s.showH.strobeView = s.strobeView :=
  State.set64_strobeView _ _ _ _ _ (offRender_mediaClk (by decide)) (offRender_mediaClk (by decide))

/-- The media sample number rises by 1; nothing else that the view shows changes (R350). -/
theorem State.timeStrobe_strobeView (s : State) :
    s.timeStrobe.strobeView = { s.strobeView with mediaSample := s.strobeView.mediaSample + 1 } := by
  have rsi (t : State) (v : Nat) :
      (t.set64 .mediaClk Reg.MediaClk.RSI_LO Reg.MediaClk.RSI_HI v).strobeView = t.strobeView :=
    State.set64_strobeView _ _ _ _ _ (offRender_mediaClk (by decide)) (offRender_mediaClk (by decide))
  have holdover (t : State) (v : Nat) : (t.set .mediaClk Reg.MediaClk.HOLDOVER_MS v).strobeView = t.strobeView :=
    State.set_strobeView _ _ _ _ (offRender_mediaClk (by decide))
  unfold State.timeStrobe
  dsimp only
  split <;> split <;> simp only [holdover, rsi, State.showH_strobeView] <;> rfl

theorem State.pulseTick_strobeView (s : State) : s.pulseTick.strobeView = s.strobeView := by
  unfold State.pulseTick
  split
  · split
    · exact State.set_strobeView _ _ _ _ (.inl (by decide))
    · rfl
  · rfl

theorem offRender_port {p : Port} (hp : (portBlk p).base + 0x1000 ≤ Blk.render.base) {f : Fld} (h : f.off < 0x1000) :
    OffRender (portBlk p) f := .inl (by omega)

theorem State.setPort_strobeView (s : State) (p : Port) (e : PortState)
    (hp : (portBlk p).base + 0x1000 ≤ Blk.render.base) : (s.setPort p e).strobeView = s.strobeView := by
  have field (t : State) (f : Fld) (v : Nat) (h : f.off < 0x1000) : (t.set (portBlk p) f v).strobeView = t.strobeView :=
    State.set_strobeView _ _ _ _ (offRender_port hp h)
  unfold State.setPort State.setBit
  cases p with
  | tdmRx k =>
    exact (field _ Reg.Tdm.STATUS_RX_SYNC _ (by decide)).trans (field _ Reg.Tdm.STATUS_RX_STATE _ (by decide))
  | tdmTx k =>
    exact (field _ Reg.Tdm.STATUS_TX_SYNC _ (by decide)).trans (field _ Reg.Tdm.STATUS_TX_STATE _ (by decide))
  | aesRx k => exact field _ Reg.AesRx.STATE _ (by decide)

theorem State.putSample_strobeView (s : State) (src : Source) (i : Nat) (v : Int) :
    (s.putSample src i v).strobeView = s.strobeView := rfl

/-- A port's strobe takes its samples and shows its state (R294, R305). -/
theorem State.portStrobe_strobeView (s : State) (p : Port) (i : Nat)
    (hp : (portBlk p).base + 0x1000 ≤ Blk.render.base) : (s.portStrobe p i).strobeView = s.strobeView := by
  unfold State.portStrobe
  dsimp only
  refine ite_keeps State.strobeView rfl
    ((foldl_keeps State.strobeView (fun t c _ => ?_) _).trans (State.setPort_strobeView _ _ _ hp))
  cases p with
  | tdmRx k => exact State.putSample_strobeView _ _ _ _
  | tdmTx k => rfl
  | aesRx k =>
    exact (State.putSample_strobeView _ _ _ _).trans
      (State.set_strobeView (t.setAes k _) (.aesRx k) Reg.AesRx.DEEMPH_ACTIVE _ (offRender_port hp (by decide)))

theorem State.aesSend_strobeView (s : State) (k i : Nat) (hk : k < 16) : (s.aesSend k i).strobeView = s.strobeView := by
  have state (t : State) (v : Nat) : (t.set (.aesTx k) Reg.AesTx.STATE v).strobeView = t.strobeView :=
    State.set_strobeView _ _ _ _ (.inl (by simp only [Blk.base, Reg.AesTx.STATE]; omega))
  unfold State.aesSend
  dsimp only
  exact ite_keeps State.strobeView (ite_keeps State.strobeView (state _ _) (state _ _)) (state _ _)

theorem State.portsStrobe_strobeView (s : State) (i : Nat) : (s.portsStrobe i).strobeView = s.strobeView := by
  have tdm : s.model.tdms ≤ 16 := by cases s.model <;> decide
  have aes (m : Model) : m.aes ≤ 16 := by cases m <;> decide
  unfold State.portsStrobe
  refine (foldl_keeps State.strobeView (fun t k hk => ?_) _).trans (foldl_keeps State.strobeView (fun t k hk => ?_) _)
  · have : k < 16 := (List.mem_range.mp hk).trans_le (aes _)
    exact (State.aesSend_strobeView _ _ _ this).trans
      (State.portStrobe_strobeView _ _ _ (by simp only [portBlk, Blk.base]; omega))
  · have : k < 16 := (List.mem_range.mp hk).trans_le tdm
    exact State.portStrobe_strobeView _ _ _ (by simp only [portBlk, Blk.base]; omega)

/-- A power-bridge channel takes its sample. -/
theorem State.psSample_strobeView (s : State) (k i : Nat) : (s.psSample k i).strobeView = s.strobeView := by
  unfold State.psSample
  exact ite_keeps State.strobeView rfl rfl

theorem State.psStrobe_strobeView (s : State) (i : Nat) : (s.psStrobe i).strobeView = s.strobeView := by
  have volts (t : State) (f : Fld) (v : Nat) : (t.set .psGlobal f v).strobeView = t.strobeView :=
    State.set_strobeView _ _ _ _ (.inr (by simp only [Blk.base]; omega))
  unfold State.psStrobe
  refine ite_keeps State.strobeView rfl ?_
  exact (volts _ _ _).trans ((volts _ _ _).trans (foldl_keeps State.strobeView (fun t k _ => t.psSample_strobeView k i) s))

/-- The index counts while the render is clocked and does not replay (R31). -/
theorem State.advance_strobeView (s : State) : s.advance.strobeView =
    { s.strobeView with
      render := { s.render with rsi := s.render.rsi + if s.clocked && !s.replaying then 1 else 0 } } := by
  unfold State.advance
  split <;> rfl

/-- The engines' part of a strobe of a module with its clocks: the index, the media sample number, the ports and the
power-bridge channels. -/
def State.strobeEngines (s : State) : State :=
  let t := ({ s with render := { s.render with tick := s.render.tick + 1 } } : State).advance.timeStrobe.pulseTick
  (t.portsStrobe t.render.rsi).psStrobe t.render.rsi

/-- The media sample number and, while the render is clocked, the index rise by 1 (R31, R350). -/
theorem State.strobeEngines_strobeView (s : State) : s.strobeEngines.strobeView =
    { s.strobeView with
      mediaSample := s.time.m + 1
      render := { s.render with
        tick := s.render.tick + 1, rsi := s.render.rsi + if s.clocked && !s.replaying then 1 else 0 } } := by
  unfold State.strobeEngines
  dsimp only
  rw [State.psStrobe_strobeView, State.portsStrobe_strobeView, State.pulseTick_strobeView, State.timeStrobe_strobeView,
    State.advance_strobeView]
  rfl

theorem State.startHere_of_not_starting {s : State} (h : s.render.starting = false) : s.startHere = s := by
  simp only [State.startHere, h, Bool.false_and, Bool.false_eq_true, if_false]

/-- A strobe where no start waits and no block begins is the engines' part alone. -/
theorem execSampleStrobe_of_no_boundary {s : State} (hd : s.dead = false) (hl : s.lowPower = false)
    (hs : s.render.starting = false)
    (hb : s.strobeEngines.clocked = false ∨ s.strobeEngines.render.rsi % s.strobeEngines.blockSize ≠ 0) :
    execSampleStrobe s = .next s.strobeEngines.settled := by
  have render := congrArg StrobeView.render s.strobeEngines_strobeView
  have noBoundary : (s.strobeEngines.clocked && !s.strobeEngines.replaying &&
      decide (s.strobeEngines.render.rsi % s.strobeEngines.blockSize = 0)) = false := by
    rcases hb with hb | hb <;> simp [hb]
  have start : s.strobeEngines.startHere = s.strobeEngines :=
    State.startHere_of_not_starting ((congrArg Render.starting render).trans hs)
  unfold execSampleStrobe
  rw [hd, hl]
  change settle (if (s.strobeEngines.clocked && !s.strobeEngines.replaying &&
      decide (s.strobeEngines.render.rsi % s.strobeEngines.blockSize = 0)) = true
    then s.strobeEngines.boundary else s.strobeEngines).startHere = _
  rw [noBoundary, if_neg Bool.false_ne_true, start]
  rfl

theorem State.blockSize_strobeEngines (s : State) : s.strobeEngines.blockSize = s.blockSize :=
  congrArg (fun v : StrobeView => 8 * 2 ^ v.block) s.strobeEngines_strobeView

theorem State.clocked_strobeEngines (s : State) : s.strobeEngines.clocked = s.clocked :=
  congrArg (fun v : StrobeView => decide (v.state ≠ 0)) s.strobeEngines_strobeView

theorem State.clocked_of_stopped {s : State} (h : s.stopped = true) : s.clocked = false := by
  simpa only [State.clocked, State.stopped, ne_eq, decide_not, Bool.not_eq_false'] using h

/-- A strobe while the render is clocked, inside a block (R31, R350). -/
theorem sampleStrobe_answers_clocked {s : State} (hd : s.dead = false) (hl : s.lowPower = false)
    (hs : s.render.starting = false) (hc : s.clocked = true) (hr : s.replaying = false)
    (hb : (s.render.rsi + 1) % s.blockSize ≠ 0) :
    Answers .sampleStrobe s (fun t =>
      t.render = { s.render with tick := s.render.tick + 1, rsi := s.render.rsi + 1 } ∧ t.time.m = s.time.m + 1 ∧
      t.objs = s.objs ∧ t.fab.stg = s.fab.stg ∧ t.fab.commits = s.fab.commits) := by
  have view := s.strobeEngines_strobeView
  simp only [hc, hr, Bool.not_false, Bool.and_true, if_true] at view
  have rsi : s.strobeEngines.render.rsi = s.render.rsi + 1 := congrArg (fun v : StrobeView => v.render.rsi) view
  refine ⟨_, execSampleStrobe_of_no_boundary hd hl hs (.inr ?_), ?_⟩
  · rwa [State.blockSize_strobeEngines, rsi]
  · simp only [State.settled_render, State.settled_time, State.settled_objs, State.settled_fab_stg,
      State.settled_fab_commits]
    exact ⟨congrArg StrobeView.render view, congrArg StrobeView.mediaSample view, congrArg StrobeView.objs view,
      congrArg StrobeView.staged view, congrArg StrobeView.commits view⟩

/-- A strobe while the render is stopped: the index holds (R380). -/
theorem sampleStrobe_answers_stopped {s : State} (hd : s.dead = false) (hl : s.lowPower = false)
    (hs : s.render.starting = false) (h : s.stopped = true) :
    Answers .sampleStrobe s (fun t =>
      t.render = { s.render with tick := s.render.tick + 1 } ∧ t.time.m = s.time.m + 1) := by
  have hc := State.clocked_of_stopped h
  have view := s.strobeEngines_strobeView
  simp only [hc, Bool.false_and, Bool.false_eq_true, if_false] at view
  refine ⟨_, execSampleStrobe_of_no_boundary hd hl hs (.inl (s.clocked_strobeEngines.trans hc)), ?_⟩
  simp only [State.settled_render, State.settled_time]
  exact ⟨congrArg StrobeView.render view, congrArg StrobeView.mediaSample view⟩

/-! The release -/

/-- What the release sets and the work after it keeps: the clocking state, and the path stage with the accumulators. -/
def State.blockView (s : State) : Render × PathStage := (s.render, s.paths)

theorem State.set_blockView (s : State) (b : Blk) (f : Fld) (v : Nat) : (s.set b f v).blockView = s.blockView := rfl

theorem State.peak_blockView (s : State) (b : Blk) (f : Fld) (v : Nat) : (s.peak b f v).blockView = s.blockView := rfl

theorem State.count_blockView (s : State) (b : Blk) (f : Fld) (n : Nat) : (s.count b f n).blockView = s.blockView := rfl

theorem State.withSched_blockView (s : State) (q : Sched) : ({ s with sched := q } : State).blockView = s.blockView := rfl

theorem State.fresh_blockView (s : State) : s.fresh.2.blockView = s.blockView := rfl

theorem State.event_blockView (s : State) (b : Blk) (i : Nat) : (s.event b i).blockView = s.blockView := by
  simp only [State.blockView, State.event_render, State.event_paths]

theorem State.psDemod_blockView (s : State) (k b : Nat) : (s.psDemod k b).blockView = s.blockView := by
  unfold State.psDemod
  dsimp only
  split
  · exact when_keeps State.blockView rfl
  · rfl

theorem State.tellPeer_blockView (s : State) (m : PeerFrame) : (s.tellPeer m).blockView = s.blockView := by
  unfold State.tellPeer
  split <;> rfl

theorem State.showTherm_blockView (s : State) (n : Nat) (q : Prot) : (s.showTherm n q).blockView = s.blockView := rfl

theorem State.protEvent_blockView (s : State) (n bit : Nat) : (s.protEvent n bit).blockView = s.blockView := by
  simp only [State.blockView, State.protEvent, State.stick_render, State.stick_paths]

theorem State.psStart_blockView (s : State) (k : Nat) (st : PsState) : (s.psStart k st).blockView = s.blockView :=
  ite_keeps State.blockView rfl rfl

theorem State.thermal_blockView (s : State) (n b : Nat) : (s.thermal n b).blockView = s.blockView := by
  unfold State.thermal
  extract_lets _ _ _ _ _ _ _ channel measured _ _ told
  clear_value measured channel
  have hTold : told.blockView = s.blockView := by
    cases measured with
    | none => rfl
    | some x => exact when_keeps State.blockView (State.tellPeer_blockView _ _)
  clear_value told
  split
  extract_lets shown events protect0 protect1 counted _ closed shownLocal
  have hShown : shownLocal.blockView = s.blockView :=
    (State.set_blockView closed _ _ _).trans <| (State.set_blockView counted _ _ _).trans <|
      (when_keeps State.blockView (State.set_blockView protect1 _ _ _)).trans <|
      (when_keeps State.blockView (s := protect0) (State.event_blockView _ _ _)).trans <|
      (when_keeps State.blockView (s := events) (State.event_blockView _ _ _)).trans <|
      (foldl_keeps State.blockView (fun t v _ => t.protEvent_blockView n v) shown).trans <|
      (State.showTherm_blockView _ _ _).trans hTold
  clear_value shownLocal
  split
  · exact hShown
  · extract_lets c stuck aged
    have hAged : aged.blockView = s.blockView := by
      have hStuck : stuck.blockView = s.blockView :=
        (when_keeps State.blockView (State.event_blockView _ _ _)).trans hShown
      unfold aged
      split
      · exact hStuck
      · exact hStuck
    clear_value aged
    exact ite_keeps State.blockView ((State.event_blockView _ _ _).trans hAged)
      ((when_keeps State.blockView (State.psStart_blockView _ _ _)).trans hAged)

/-- The thermal stage of all outputs keeps the block. -/
theorem State.blockView_thermals (s : State) (b : Nat) : (s.thermals_ b).blockView = s.blockView := by
  unfold State.thermals_
  extract_lets demod coils _ xlim fold shut
  have hDemod : demod.blockView = s.blockView :=
    ite_keeps State.blockView rfl (foldl_keeps State.blockView (fun t k _ => t.psDemod_blockView k (b - 1)) s)
  have hShut : shut.blockView = s.blockView :=
    (State.set_blockView fold _ _ _).trans <| (State.set_blockView xlim _ _ _).trans <|
    (State.set_blockView coils _ _ _).trans <|
    (foldl_keeps State.blockView (fun t n _ => t.thermal_blockView n b) demod).trans hDemod
  clear_value shut
  split
  · exact (State.set_blockView _ _ _ _).trans <| (State.set_blockView _ _ _ _).trans <|
      (State.fresh_blockView _).trans <| (State.fresh_blockView _).trans hShut
  · exact (State.set_blockView _ _ _ _).trans <| (State.set_blockView _ _ _ _).trans hShut

theorem State.curtainBlock_blockView (s : State) (b : Nat) : (s.curtainBlock b).blockView = s.blockView := by
  unfold State.curtainBlock
  extract_lets
  exact (State.set_blockView _ _ _ _).trans <| ite_keeps State.blockView
    (when_keeps State.blockView rfl) (when_keeps State.blockView rfl)

theorem State.loads_blockView (s : State) : s.loads.blockView = s.blockView := by
  unfold State.loads
  extract_lets groups starved _ cleared
  have hCleared : cleared.blockView = groups.blockView := State.withSched_blockView _ _
  refine (when_keeps State.blockView (State.event_blockView cleared _ _)).trans (hCleared.trans ?_)
  refine foldl_keeps State.blockView (fun t g _ => ?_) s
  simp only [State.set_blockView, State.peak_blockView]

theorem State.asrcLoad_blockView (s : State) : s.asrcLoad.blockView = s.blockView := rfl

theorem State.measuredLoads_blockView (s : State) : s.measuredLoads.blockView = s.blockView :=
  ite_keeps State.blockView rfl rfl

theorem State.leadEvaluate_blockView (s : State) (i : Nat) : (s.leadEvaluate i).blockView = s.blockView :=
  when_keeps State.blockView (State.event_blockView _ _ _)

theorem State.pushReady_blockView (s : State) (cls : Nat) (j : Job) : (s.pushReady cls j).blockView = s.blockView :=
  ite_keeps State.blockView rfl rfl

theorem State.pushTrapeze_blockView (s : State) (n b : Nat) : (s.pushTrapeze n b).blockView = s.blockView :=
  ite_keeps State.blockView rfl (State.pushReady_blockView _ _ _)

theorem State.wake_blockView (s : State) : s.wake.blockView = s.blockView := by
  unfold State.wake
  extract_lets b buses
  refine ite_keeps State.blockView rfl ((foldl_keeps State.blockView (fun t n _ => ?_) buses).trans
    (foldl_keeps State.blockView (fun t n _ => when_keeps State.blockView (t.pushReady_blockView _ _)) s))
  exact ite_keeps State.blockView (t.pushReady_blockView _ _) (when_keeps State.blockView (t.pushReady_blockView _ _))

theorem State.firstJobs_blockView (s : State) (b : Nat) : (s.firstJobs b).blockView = s.blockView := by
  unfold State.firstJobs
  extract_lets _ trapezes routes ready sched moment
  have hMoment : moment.blockView = routes.blockView := State.withSched_blockView _ _
  exact (State.wake_blockView _).trans <| hMoment.trans <|
    (foldl_keeps State.blockView (fun t _ _ => t.pushReady_blockView _ _) trapezes).trans <|
    (foldl_keeps State.blockView (fun t n _ => t.pushTrapeze_blockView n b) s)

theorem State.forget_blockView (s : State) (b : Nat) : (s.forget b).blockView = s.blockView := rfl

theorem State.opRuns_blockView (s : State) (flow : Nat) : (s.opRuns flow).blockView = s.blockView := rfl

theorem State.grant_blockView (s : State) (e w : Nat) (r : Ready) : (s.grant e w r).blockView = s.blockView := by
  unfold State.grant
  extract_lets listed _ sched granted runs waits
  have hGranted : granted.blockView = s.blockView := rfl
  exact (State.count_blockView waits _ _ _).trans <|
    (when_keeps State.blockView (State.peak_blockView runs _ _ _)).trans <|
    (when_keeps State.blockView (State.opRuns_blockView granted _)).trans hGranted

theorem State.dispatch_blockView (s : State) : s.dispatch.blockView = s.blockView := by
  unfold State.dispatch
  refine foldl_keeps State.blockView (fun t e _ => ?_) s
  split
  · rfl
  · split
    · rfl
    · exact State.grant_blockView _ _ _ _

/-- A released block is open, and every accumulator is empty (R19, R167). -/
theorem State.release_blockView (s : State) (b : Nat) : ∃ (r : Render) (p : PathStage), (s.release b).blockView =
    ({ r with block := b, released := true, late := false }, { p with acc := [], busAcc := [] }) := by
  unfold State.release
  extract_lets _ _ _ _ _ _ _ _ allocated _ emptied loaded measured _ opened
  have hMeasured : measured.blockView = emptied.blockView :=
    (State.measuredLoads_blockView _).trans <| (State.asrcLoad_blockView _).trans <|
    (State.loads_blockView _).trans <| (State.curtainBlock_blockView _ _).trans (State.blockView_thermals _ _)
  have hTail (t : State) (i : Nat) : (((t.leadEvaluate i).firstJobs b).forget b).dispatch.blockView = t.blockView := by
    rw [State.dispatch_blockView, State.forget_blockView, State.firstJobs_blockView, State.leadEvaluate_blockView]
  refine ⟨opened.render, allocated.paths, (hTail _ _).trans ?_⟩
  exact congrArg (Prod.mk opened.render) (congrArg Prod.snd hMeasured)

/-- A release that is due (R19). -/
theorem release_answers_due {s : State} (hr : s.running = true) (hd : s.dead = false) (hp : s.replaying = false)
    (h : s.render.block + (if s.render.released then 1 else 0) < s.render.rsi / s.blockSize) :
    Answers .release s (fun t => t.render.block = s.render.rsi / s.blockSize - 1 ∧ t.render.released = true ∧
      t.render.late = false ∧ t.paths.acc = [] ∧ t.paths.busAcc = []) := by
  obtain ⟨r, p, view⟩ := s.release_blockView (s.render.rsi / s.blockSize - 1)
  refine ⟨(s.release (s.render.rsi / s.blockSize - 1)).settled, ?_, ?_⟩
  · change execRelease s = _
    simp only [execRelease, hr, hd, hp, Bool.not_true, Bool.or_self, Bool.false_eq_true, if_false,
      if_neg (Nat.not_le.mpr h), settle_eq]
  · have render := congrArg Prod.fst view
    have paths := congrArg Prod.snd view
    simp only [State.blockView] at render paths
    simp only [State.settled_render, State.settled_paths, render, paths, and_self]

/-- A release before the boundary it waits for changes nothing. -/
theorem release_answers_not_due {s : State} (hp : s.replaying = false)
    (h : ¬ s.render.block + (if s.render.released then 1 else 0) < s.render.rsi / s.blockSize) :
    Answers .release s (OnlyWords s · []) := by
  refine ⟨s.settled, ?_, s.settled_only⟩
  change execRelease s = _
  simp only [execRelease, hp, Bool.false_eq_true, if_false, if_pos (Nat.not_lt.mp h), ite_self, settle_eq]

/-! The deadline -/

/-- The clocking state and the Ringmaster's items. -/
def State.itemsView (s : State) : Render × Sched := (s.render, s.sched)

theorem State.set_itemsView (s : State) (b : Blk) (f : Fld) (v : Nat) : (s.set b f v).itemsView = s.itemsView := rfl

theorem State.count_itemsView (s : State) (b : Blk) (f : Fld) (n : Nat) : (s.count b f n).itemsView = s.itemsView := rfl

theorem State.stick_itemsView (s : State) (b : Blk) (f : Fld) (i : Nat) : (s.stick b f i).itemsView = s.itemsView := by
  simp only [State.itemsView, State.stick_render, State.stick_sched]

theorem State.setOut_itemsView (s : State) (n : Nat) (e : OutEngine) : (s.setOut n e).itemsView = s.itemsView := rfl

theorem State.putSample_itemsView (s : State) (src : Source) (i : Nat) (v : Int) :
    (s.putSample src i v).itemsView = s.itemsView := rfl

theorem State.emit_itemsView (s : State) (n b : Nat) : (s.emit n b).1.itemsView = s.itemsView := by
  unfold State.emit
  extract_lets e s0 B ok silent out
  have hOut : out.itemsView = s.itemsView :=
    foldl_keeps State.itemsView (fun t i _ => t.putSample_itemsView _ _ _) s
  split
  · rfl
  · exact (State.setOut_itemsView out _ _).trans hOut

theorem State.setEgr_itemsView (s : State) (n : Nat) (e : EgState) : (s.setEgr n e).itemsView = s.itemsView := rfl

theorem State.egDrop_itemsView (s : State) (n : Nat) : (s.egDrop n).itemsView = s.itemsView :=
  (State.stick_itemsView _ _ _ _).trans (State.count_itemsView _ _ _ _)

theorem State.setEth_itemsView (s : State) (p : Nat) (e : EthPort) : (s.setEth p e).itemsView = s.itemsView := rfl

theorem State.enqueue_itemsView (s : State) (p q : Nat) (f : TxFrame) : (s.enqueue p q f).itemsView = s.itemsView := rfl

theorem State.egEnqueue_itemsView (s : State) (n : Nat) : (s.egEnqueue n).itemsView = s.itemsView := by
  unfold State.egEnqueue
  split
  · rfl
  · refine ite_keeps State.itemsView rfl ?_
    extract_lets f g formed p q _ stale old dropped cleared
    have hFormed : formed.itemsView = s.itemsView := State.setEgr_itemsView _ _ _
    have hCleared : cleared.itemsView = formed.itemsView :=
      (State.setEth_itemsView dropped _ _).trans
        (foldl_keeps State.itemsView (fun t _ _ => t.egDrop_itemsView n) formed)
    refine Eq.trans ?_ hFormed
    exact ite_keeps State.itemsView (when_keeps State.itemsView (State.setEgr_itemsView _ _ _))
      (ite_keeps State.itemsView ((State.enqueue_itemsView _ _ _ _).trans hCleared)
        ((State.egDrop_itemsView _ _).trans hCleared))

theorem State.egDue_itemsView (s : State) : s.egDue.itemsView = s.itemsView :=
  foldl_keeps State.itemsView
    (fun t n _ => iter_keeps State.itemsView (fun u => u.egEnqueue_itemsView n) t.blockSize t) s

theorem State.monitorFeed_itemsView (s : State) (b : Nat) : (s.monitorFeed b).itemsView = s.itemsView := by
  unfold State.monitorFeed
  extract_lets s0 step
  refine foldl_keeps State.itemsView (fun t i _ => ?_) s
  refine ite_keeps State.itemsView rfl ?_
  extract_lets vs hist g want g' g'' _ fed m
  have hFed : fed.itemsView = t.itemsView := rfl
  refine (foldl_keeps State.itemsView (fun u ear _ => ?_) fed).trans hFed
  extract_lets sum gain y y' put
  exact (when_keeps State.itemsView (State.stick_itemsView put _ _ _)).trans (State.putSample_itemsView u _ _ _)

theorem State.keepCrc_itemsView (s : State) (b : Nat) : (s.keepCrc b).itemsView = s.itemsView :=
  when_keeps State.itemsView rfl

/-- May an item stay ready once the deadline of block `b` has passed (R20)? -/
def Ready.staysAfter (b : Nat) (released : Bool) (r : Ready) : Bool :=
  !r.job.kind.render || r.job.kind = .trapeze || r.job.kind = .pan ||
    (r.job.kind = .convSeg && b ≤ r.job.block && released)

theorem State.withdraw_itemsView (s : State) : s.withdraw.itemsView =
    (s.render, { s.sched with ready := s.sched.ready.filter (Ready.staysAfter s.render.block s.render.released) }) := rfl

/-- The deadline of a released block: the block is late, and items that its outputs can no longer use are withdrawn. -/
theorem State.deadline_itemsView (s : State) (hr : s.render.released = true) (hl : s.render.late = false) :
    s.deadline.itemsView = ({ s.render with late := true },
      { s.sched with ready := s.sched.ready.filter (Ready.staysAfter s.render.block s.render.released) }) := by
  unfold State.deadline
  rw [if_neg (by simp only [hr, hl, Bool.not_true, Bool.or_self, Bool.false_eq_true, not_false_eq_true])]
  extract_lets b
  split
  next emitted missed hEmitted =>
  have hEmit : emitted.itemsView = s.itemsView := by
    rw [show emitted = (emitted, missed).1 from rfl, ← hEmitted]
    refine foldl_keeps (fun a : State × Bool => a.1.itemsView) (fun a n _ => ?_) (s, false)
    exact when_keeps (fun a : State × Bool => a.1.itemsView) (a.1.emit_itemsView n b)
  extract_lets counted slack _ _ late
  have hSlack : slack.itemsView = s.itemsView :=
    (State.set_itemsView counted _ _ _).trans <|
      (when_keeps State.itemsView ((State.stick_itemsView _ _ _ _).trans <|
        (State.count_itemsView _ _ _ _).trans (State.set_itemsView emitted _ _ _))).trans hEmit
  have hTail : ((late.monitorFeed b).egDue.keepCrc b).itemsView = late.itemsView := by
    rw [State.keepCrc_itemsView, State.egDue_itemsView, State.monitorFeed_itemsView]
  have render : slack.render = s.render := congrArg Prod.fst hSlack
  have sched : slack.sched = s.sched := congrArg Prod.snd hSlack
  have hLate : late.itemsView = ({ slack.render with late := true }, slack.withdraw.sched) := rfl
  have hWithdrawn : slack.withdraw.sched = _ := congrArg Prod.snd slack.withdraw_itemsView
  rw [hTail, hLate, hWithdrawn, render, sched]

/-- What may stay ready after the deadline: of a block's jobs only Trapeze and pan jobs, and correction segments that
only a later block needs. -/
theorem Ready.staysAfter_render {b : Nat} {released : Bool} {r : Ready} (h : r.staysAfter b released = true)
    (hk : r.job.kind.render = true) :
    r.job.kind = .trapeze ∨ r.job.kind = .pan ∨ (r.job.kind = .convSeg ∧ b ≤ r.job.block) := by
  simp only [Ready.staysAfter, hk, Bool.not_true, Bool.false_or, Bool.or_eq_true, Bool.and_eq_true,
    decide_eq_true_eq] at h
  rcases h with (h | h) | ⟨h, -⟩
  · exact .inl h
  · exact .inr (.inl h)
  · exact .inr (.inr h)

/-- A deadline that has come, of a block that is open (R20). -/
theorem deadline_answers_due {s : State} (hr : s.running = true) (hd : s.dead = false)
    (hrel : s.render.released = true) (hdue : s.blockStart (s.render.block + 2) ≤ s.render.rsi)
    (hl : s.render.late = false) :
    Answers .deadline s (fun t => t.render.late = true ∧
      ∀ r ∈ t.sched.ready, r.job.kind.render = true → r.job.kind = .trapeze ∨ r.job.kind = .pan ∨
        (r.job.kind = .convSeg ∧ s.render.block ≤ r.job.block)) := by
  have view := s.deadline_itemsView hrel hl
  have render : s.deadline.render = { s.render with late := true } := congrArg Prod.fst view
  have sched : s.deadline.sched = _ := congrArg Prod.snd view
  refine ⟨s.deadline.settled, ?_, ?_⟩
  · change execDeadline s = _
    simp only [execDeadline, hr, hd, hdue, Bool.not_false, Bool.and_true, decide_true, if_true, settle_eq]
  · simp only [State.settled_render, State.settled_sched, render, sched]
    exact ⟨trivial, fun r hm hk => Ready.staysAfter_render (List.mem_filter.mp hm).2 hk⟩

/-- A deadline that has not come, or a second one, changes nothing. -/
theorem deadline_answers_not_due {s : State}
    (h : ¬ s.blockStart (s.render.block + 2) ≤ s.render.rsi ∨ s.render.late = true) :
    Answers .deadline s (OnlyWords s · []) := by
  refine ⟨s.settled, ?_, s.settled_only⟩
  change settle _ = settle s
  rcases h with h | h
  · simp only [h, decide_false, Bool.and_false, Bool.false_eq_true, if_false]
  · have : s.deadline = s := by simp only [State.deadline, h, Bool.or_true, if_true]
    rw [this, ite_self]

/-- Settles O16: the strobe, by what its engines leave alone; the release, by what follows the emptied accumulators; the
deadline, by what its outputs leave of the items. -/
theorem strobeReleaseAndDeadline : Obligations.StrobeReleaseAndDeadline :=
  ⟨fun _ hd hl hs => ⟨sampleStrobe_answers_clocked hd hl hs, sampleStrobe_answers_stopped hd hl hs⟩,
    fun _ hr hd hp => ⟨release_answers_due hr hd hp, release_answers_not_due hp⟩,
    fun _ hr hd hrel => ⟨deadline_answers_due hr hd hrel, deadline_answers_not_due⟩⟩

end Sys2Proof.Machine
end

section
/-! PROOFS. Every command ends by bringing the status registers up to date, so they agree with the engines at every step of
every run. -/

namespace Sys2Proof.Machine

open Sys2Proof

/-- An answer that is a next state with the status registers brought up to date. -/
def Settles (r : Res) : Prop := ∃ u, r = settle u

/-- A choice settles when both of its ends do. -/
theorem Settles.ite {c : Prop} [Decidable c] {r q : Res} (hr : Settles r) (hq : Settles q) :
    Settles (if c then r else q) := iteInduction (fun _ => hr) (fun _ => hq)

/-- Every command settles: those that do so at once, those with one condition, and those that ask more. -/
theorem exec_settles (c : Instr) (s : State) : Settles (exec c s) := by
  cases c
  case drained | jitterIntervalEnd | convHeadJob | convSegJob | curtainClosed | opened | stuck | scanSwitch | faultPinLow |
      stuckSense | recovered | lock | syncAcquire | audio | csApplied | pauseExpire | highWater | stalled | linkUp | coasting |
      annTimeout | freerun | instanceLocked | slewDone | gpioChange =>
    exact .ite ⟨_, rfl⟩ ⟨_, rfl⟩
  case slowWriteLost | farFetchDone | prepareDone | commitApply | slowUnitApply | unitLost | segmentEnd | motionLoad |
      motionFree | objBulk | armed | routeFadeEnd | outputRampZero | filterSwap | bankWarm | switched | c2mDone |
      campaignResume | campaignDiscard | playEnd | deconvolutionDone | journalWrite | probeFrame | probeReport |
      retryWaitEnd | attemptsClear | tdmFrame | locking | pauseRx | pauseTxRepeat | gateEntryChange | gclChange | mdioDone |
      ptpRx | aged | debouncedEdge =>
    simp only [exec, execSlowWriteLost, execFarFetchDone, execPrepareDone, execCommitApply, execSlowUnitApply, execUnitLost,
      execSegmentEnd, execMotionLoad, execMotionFree, execObjBulk, execArmed, execRouteFadeEnd, execOutputRampZero,
      execFilterSwap, execBankWarm, execSwitched, execC2mDone, execCampaignResume, execCampaignDiscard, execPlayEnd,
      execDeconvolutionDone, execJournalWrite, execProbeFrame, execProbeReport, execRetryWaitEnd, execAttemptsClear,
      execTdmFrame, execLocking, execPauseRx, execPauseTxRepeat, execGateEntryChange, execGclChange, execMdioDone, execPtpRx,
      execAged, execDebouncedEdge]
    repeat' split
    all_goals exact ⟨_, rfl⟩
  all_goals exact ⟨_, rfl⟩

/-- What settles is a next state whose status registers agree with the engines. -/
theorem Settles.reports {r : Res} (h : Settles r) : ∃ t, r = .next t ∧ Reports t := by
  obtain ⟨u, rfl⟩ := h
  exact ⟨u.settled, settle_eq u, u.settled_reports⟩

/-- Every step is safe: a command settles, and an idle block stays as it is. -/
theorem step_safe {s : State} (h : Reports s) : SafeStep s := by
  unfold SafeStep step
  cases s.pending with
  | nil => exact ⟨s, rfl, h⟩
  | cons c rest => exact (exec_settles c _).reports

/-- Settles O2: the fields read in the reset state. -/
theorem resetHasTrueStatusRegisters : Obligations.ResetHasTrueStatusRegisters := by
  unfold Obligations.ResetHasTrueStatusRegisters Reports
  decide +kernel

/-- Settles O3: a step's answer is the one that `step_safe` gives. -/
theorem everyStepKeepsTheStatusRegisters : Obligations.EveryStepKeepsTheStatusRegisters := by
  intro s t h ht
  obtain ⟨u, hu, hr⟩ := step_safe h
  rw [ht] at hu
  cases hu
  exact hr

/-- Settles O4, by induction on the number of steps. -/
theorem everyRunIsSafe : Obligations.EveryRunIsSafe := by
  intro n
  induction n with
  | zero => exact fun _ h => h
  | succ n ih =>
    intro s h
    obtain ⟨t, ht, hr⟩ := step_safe h
    exact ⟨h, t, ht, ih t hr⟩

end Sys2Proof.Machine
end

section
/-! PROOFS. Writes of a word of an object record: where the address leads, what the record refuses, and what an accepted
write stages (R47, R50, R56, R57). -/

namespace Sys2Proof.Machine

open Sys2Proof

theorem Model.objects_le (m : Model) : m.objects ≤ 1024 := by cases m <;> decide

theorem Model.seats_le (m : Model) : m.seats ≤ 8 := by cases m <;> decide

theorem Model.seats_pos (m : Model) : 0 < m.seats := by cases m <;> decide

/-- The page index of an object's record. -/
theorem pageAt_objPage (self : Nat) {p : Nat} (h : p < 128) : pageAt self (0x100 + p) = some (.objPage p) := by
  unfold pageAt
  repeat rw [if_neg (by omega)]
  rw [if_pos (by omega), Nat.add_sub_cancel_left]

/-- The address of a word of an object's record leads to that word, for every reader (R43, R51). -/
theorem State.resolve_obj (s : State) (self : Nat) {n off : Nat} (hn : n < 1024) (ho : off < 0x80) (h4 : off % 4 = 0)
    (hw : hasWord (.obj n) off = true) :
    s.resolve self ((Blk.obj n).base + off) = .word (.obj n) off := by
  have addr : ((Blk.obj n).base + off) / 4 * 4 = (Blk.obj n).base + off := by simp only [Blk.base]; omega
  have index : ((Blk.obj n).base + off) / 4096 = 0x100 + n / 8 := by simp only [Blk.base]; omega
  have offset : ((Blk.obj n).base + off) % 4096 = 0x400 + 0x80 * (n % 8) + off := by simp only [Blk.base]; omega
  have record : s.recordOf (.objPage (n / 8)) ((0x400 + 0x80 * (n % 8) + off - 0x400) / 0x80) = .obj n := by
    simp only [State.recordOf, Blk.obj.injEq]
    omega
  have word : (0x400 + 0x80 * (n % 8) + off) % 0x80 = off := by omega
  unfold State.resolve
  simp only [addr, index, offset, pageAt_objPage self (show n / 8 < 128 by omega), isTable, record, word]
  repeat rw [if_neg (by simp only [Blk.base]; omega)]
  rw [if_neg (by omega), if_pos trivial, if_neg (by omega), if_neg (by omega), if_pos (by omega), if_pos hw]

/-- The word of GAIN holds GAIN alone. -/
theorem wordFields_objGain (n : Nat) : wordFields (.obj n) 8 = [Reg.Obj.GAIN] := rfl

/-- GAIN of a data word is the word. -/
theorem objGain_of (data : Word) : Reg.Obj.GAIN.of data = data.toNat := by
  have := data.isLt
  simp only [Fld.of, Reg.Obj.GAIN, Nat.shiftRight_zero]
  omega

/-- The word of GAIN itself refuses no data. -/
theorem State.wordReasons_objGain (s : State) (seat n : Nat) (data : Word) : s.wordReasons seat (.obj n) 8 data = [] := by
  have house : s.houseRefusal seat (.obj n) [Reg.Obj.GAIN] data = false := rfl
  have encoding : s.badEncoding (.obj n) [Reg.Obj.GAIN] data = false := by
    simp [State.badEncoding, Fld.admits, Reg.Obj.GAIN, badScan, changesGroup, Blk.isRecord]
  have kind : ([Reg.Obj.GAIN].any fun f => f.acc = .rw && f.blockOnly && f.of data ≠ s.stg (.obj n) f) = false := rfl
  have group : changesGroup (.obj n) [Reg.Obj.GAIN] = false := rfl
  simp only [State.wordReasons, wordFields_objGain, State.recordRefusal, reduceCtorEq, if_false, house, encoding, kind,
    group, Option.isSome_none, Bool.and_false, Bool.false_and, decide_false, reasonsOf]
  rfl

/-- A write of GAIN by a seat is refused for what the page says, and for nothing else. -/
theorem State.tryWrite_objGain (s : State) {n seat : Nat} (data : Word) (hn : n < s.model.objects) (hq : seat < s.model.seats) :
    s.tryWrite (.seat seat) (wordAt (.obj n) Reg.Obj.GAIN) data true =
      s.unless (.objPage (n / 8)) (0x400 + 0x80 * (n % 8) + 8) (s.pageReasons seat (.obj n) true).eraseDups seat
        (fun s => s.putWord (.seat seat) (.obj n) 8 (wordAt (.obj n) Reg.Obj.GAIN) data) := by
  have hn' : n < 1024 := hn.trans_le (Model.objects_le _)
  have addr : wordAt (.obj n) Reg.Obj.GAIN = (Blk.obj n).base + 8 := rfl
  have near : (Blk.obj n).base + 8 < 0x400000 := by simp only [Blk.base]; omega
  have offset : ((Blk.obj n).base + 8) % 4096 = 0x400 + 0x80 * (n % 8) + 8 := by simp only [Blk.base]; omega
  have present : (Blk.objPage (n / 8)).present s.model = true := by simp only [Blk.present, decide_eq_true_eq]; omega
  have push : ¬ (s.pushMode && decide (seat = 0) && true && decide (0x400000 ≤ (Blk.obj n).base + 8) &&
      decide ((Blk.obj n).base + 8 < 0x800000)) = true := by
    simp only [Bool.and_eq_true, decide_eq_true_eq, not_and]
    omega
  have inWindow : ¬ (decide (s.model.seats ≤ seat) || decide (0x1000000 ≤ (Blk.obj n).base + 8)) = true := by
    simp only [Bool.or_eq_true, decide_eq_true_eq]
    omega
  rw [addr]
  refine (if_neg inWindow).trans ((if_neg push).trans ?_)
  rw [show s.resolve (Writer.seat seat).seatOf _ = _ from s.resolve_obj seat hn' (by decide) rfl rfl]
  simp only [State.writePlace, Writer.seatOf, Blk.page, present, State.recordRefusal, wordFields_objGain, State.absentWord,
    State.wordReasons_objGain, offset, Bool.and_true, Bool.true_and, if_true, List.append_nil, Bool.or_false]
  exact if_neg (by simp [writable, Reg.Obj.GAIN])

/-- A staged write of GAIN: of a record in an update group it sets the staged value and STAGED_PENDING (R56, R57). -/
theorem State.putWord_objGain (s : State) (w : Writer) (n addr : Nat) (data : Word) (hg : s.groupOf (.obj n) ≠ 0xFF) :
    s.putWord w (.obj n) 8 addr data = (s.setStg (.obj n) Reg.Obj.GAIN data.toNat).setPending (.obj n) true := by
  have rw_ : Reg.Obj.GAIN.acc = .rw := rfl
  simp [State.putWord, slowWord, wordFields_objGain, rw_, State.putNow, State.putStaged, State.rwiDone, State.strobes,
    State.writeGroup, changesGroup, Blk.isRecord, hg, objGain_of]

/-! An accepted write -/

/-- The page of a record refuses the house seat nothing but on an understudy (R50, R493). -/
theorem State.pageReasons_house (s : State) {b : Blk} (hp : b.page.present s.model = true) (hu : s.isUnderstudy = false)
    (hw : s.mayWrite 0 b = true) : s.pageReasons 0 b true = [] := by
  simp only [State.pageReasons, hp, hu, hw, Bool.not_true, Bool.false_eq_true, if_false, Bool.false_and, ne_eq,
    not_true_eq_false, decide_false]
  rfl

/-- STAGED_PENDING of one unit is set; that of the others stays (R57). -/
theorem State.isPending_setPending (s : State) (b c : Blk) (v : Bool) :
    (s.setPending b v).isPending c = if c.base = b.base then v else s.isPending c := Map.get_put _ _ _ _ _

@[simp] theorem State.isPending_settled (s : State) (b : Blk) : s.settled.isPending b = s.isPending b := by
  simp only [State.isPending, State.settled_fab_stagedPending]

/-- Settles O6: the write of the house seat is refused for nothing, and stages the data. -/
theorem stagedObjectGainWaitsForItsCommit : Obligations.StagedObjectGainWaitsForItsCommit := by
  intro s n data hn _ hu hg
  let u := (s.setStg (.obj n) Reg.Obj.GAIN data.toNat).setPending (.obj n) true
  have present : (Blk.obj n).page.present s.model = true := by simp only [Blk.page, Blk.present, decide_eq_true_eq]; omega
  have written : s.hostWrite (.seat 0) (wordAt (.obj n) Reg.Obj.GAIN) data true = u := by
    unfold State.hostWrite
    rw [s.tryWrite_objGain data hn (Model.seats_pos _), s.pageReasons_house present hu rfl]
    exact s.putWord_objGain _ n _ data hg
  refine ⟨u.settled, congrArg settle written, ?_, ?_, ?_, ?_, ?_, ?_⟩
  · rw [State.settled_stg]
    exact (State.stg_setStg_same s _ _ _ ⟨by decide, by decide⟩).trans (Nat.mod_eq_of_lt data.isLt)
  · rw [State.isPending_settled, State.isPending_setPending, if_pos rfl]
  · intro k hk
    rw [State.settled_fab_stg]
    exact Map.get_put_other _ _ _ _ hk _
  · intro b hb
    rw [State.isPending_settled, State.isPending_setPending, if_neg hb]
    rfl
  · exact fun k _ hs => State.settled_word u k hs
  · obtain ⟨m, h⟩ := u.settled_shape
    rw [h]
    rfl

/-! A refused write -/

/-- Seats other than the owner are refused a record that is not shared (R50). -/
theorem State.pageReasons_notOwner (s : State) {b : Blk} {seat : Nat} (hp : b.page.present s.model = true)
    (hu : s.isUnderstudy = false) (hw : s.mayWrite seat b = false) (hl : s.bit b.page Reg.Hdr.LOCK = false) :
    s.pageReasons seat b true = [eNotOwner] := by
  simp only [State.pageReasons, hp, hu, hw, hl, Bool.not_true, Bool.false_eq_true, if_false, Bool.false_and, Bool.and_false,
    Bool.not_false]
  rfl

/-- The status words lie below the object pages. -/
theorem statusWords_below {k : Nat} (h : 0x18000 ≤ k) : k ∉ statusWords := by
  have low : ∀ k ∈ statusWords, k < 0x18000 := by decide
  exact fun hm => Nat.not_lt.mpr h (low k hm)

theorem objPage_not_statusWord (p : Nat) (f : Fld) : (Blk.objPage p).base + f.off ∉ statusWords :=
  statusWords_below (by simp only [Blk.base]; omega)

theorem obj_not_statusWord (n : Nat) (f : Fld) : (Blk.obj n).base + f.off ∉ statusWords :=
  statusWords_below (by simp only [Blk.base]; omega)

/-- The fields of ERR_LOG lie in its one word. -/
theorem State.logErr_only (s : State) (p : Blk) (off reason seat : Nat) :
    OnlyWords s (s.logErr p off reason seat) [wordAt p Reg.Hdr.ERR_VALID] := by
  have field (t : State) (f : Fld) (v : Nat) (h : f.off = Reg.Hdr.ERR_VALID.off) (ht : OnlyWords s t [wordAt p Reg.Hdr.ERR_VALID]) :
      OnlyWords s (t.set p f v) [wordAt p Reg.Hdr.ERR_VALID] :=
    ht.set_in p f v (by simp only [wordAt, h, List.mem_singleton])
  have none := OnlyWords.refl s [wordAt p Reg.Hdr.ERR_VALID]
  unfold State.logErr
  split
  · exact field _ _ _ rfl none
  · exact field _ _ _ rfl (field _ _ _ rfl (field _ _ _ rfl (field _ _ _ rfl none)))

/-- A first rejected write is logged with its reason, its seat and its offset (R47). -/
theorem State.logErr_first (s : State) (p : Blk) {off reason seat : Nat} (h : s.bit p Reg.Hdr.ERR_VALID = false)
    (hr : reason < 256) :
    (s.logErr p off reason seat).fld p Reg.Hdr.ERR_VALID = 1 ∧ (s.logErr p off reason seat).fld p Reg.Hdr.ERR_REASON = reason ∧
      (s.logErr p off reason seat).fld p Reg.Hdr.ERR_SEAT = seat % 8 ∧
      (s.logErr p off reason seat).fld p Reg.Hdr.ERR_OFFSET = off % 4096 := by
  have other (t : State) (f g : Fld) (v : Nat) (hb : f.lsb + f.width ≤ g.lsb ∨ g.lsb + g.width ≤ f.lsb) :
      (t.set p f v).fld p g = t.fld p g := State.fld_set_bits t p p f g v hb
  have same (t : State) (f : Fld) (v : Nat) (hf : Fits f) : (t.set p f v).fld p f = v % 2 ^ f.width :=
    State.fld_set_same t p f v hf
  unfold State.logErr
  rw [h, if_neg Bool.false_ne_true]
  refine ⟨same _ _ _ ⟨by decide, by decide⟩, ?_, ?_, ?_⟩
  · rw [other _ _ _ _ (by decide), other _ _ _ _ (by decide)]
    exact (same _ _ _ ⟨by decide, by decide⟩).trans (Nat.mod_eq_of_lt hr)
  · rw [other _ _ _ _ (by decide)]
    exact same _ _ _ ⟨by decide, by decide⟩
  · rw [other _ _ _ _ (by decide), other _ _ _ _ (by decide), other _ _ _ _ (by decide)]
    exact (same _ _ _ ⟨by decide, by decide⟩).trans (Nat.mod_mod _ _)

/-- The write of a seat that does not own the record is logged and does nothing else (R50). -/
theorem State.hostWrite_objGain_notOwner (s : State) {n seat : Nat} (data : Word) (hn : n < s.model.objects)
    (hq : seat < s.model.seats) (hu : s.isUnderstudy = false) (hw : s.mayWrite seat (.obj n) = false)
    (hl : s.bit (.objPage (n / 8)) Reg.Hdr.LOCK = false) :
    s.hostWrite (.seat seat) (wordAt (.obj n) Reg.Obj.GAIN) data true =
      s.logErr (.objPage (n / 8)) (0x400 + 0x80 * (n % 8) + 8) eNotOwner seat := by
  have present : (Blk.obj n).page.present s.model = true := by simp only [Blk.page, Blk.present, decide_eq_true_eq]; omega
  unfold State.hostWrite
  rw [s.tryWrite_objGain data hn hq, s.pageReasons_notOwner present hu hw hl]
  rfl

/-- What does not depend on the active words is the same where nothing else differs. -/
theorem OnlyWords.keeps {β : Type} {s t : State} {ws : List Nat} (h : OnlyWords s t ws) (view : State → β)
    (hv : ∀ (r : State) (m : RegMap), view (r.withAct m) = view r) : view t = view s :=
  (hv t s.fab.act).symm.trans (congrArg view h.1)

/-- Settles O8: the page refuses the seat, logs it, and nothing else changes. -/
theorem nonOwnerCannotWriteAnObject : Obligations.NonOwnerCannotWriteAnObject := by
  intro s n seat data hn h0 hq hu hshared howner hl hv
  have noWrite : s.mayWrite seat (.obj n) = false := by
    rw [Prod.ext_iff] at hshared
    simp [State.mayWrite, Blk.ownerClass, h0, howner, hshared.2]
  have written := s.hostWrite_objGain_notOwner data hn hq hu noWrite hl
  obtain ⟨valid, reason, by_, offset⟩ := s.logErr_first (.objPage (n / 8)) (off := 0x400 + 0x80 * (n % 8) + 8)
    (reason := eNotOwner) (seat := seat) hv (by decide)
  rw [Nat.mod_eq_of_lt (hq.trans_le (Model.seats_le _))] at by_
  rw [Nat.mod_eq_of_lt (show 0x400 + 0x80 * (n % 8) + 8 < 4096 by omega)] at offset
  have only := (s.logErr_only (.objPage (n / 8)) (0x400 + 0x80 * (n % 8) + 8) eNotOwner seat).settled
  have logged (t : State) (f : Fld) : t.settled.fld (.objPage (n / 8)) f = t.fld (.objPage (n / 8)) f :=
    State.settled_fld t _ f (objPage_not_statusWord _ f)
  have elsewhere : (Blk.obj n).base + Reg.Obj.GAIN.off ∉ [wordAt (.objPage (n / 8)) Reg.Hdr.ERR_VALID] := by
    simp only [wordAt, Blk.base, Reg.Obj.GAIN, Reg.Hdr.ERR_VALID, List.mem_singleton]
    omega
  refine ⟨_, congrArg settle written, ?_⟩
  dsimp only
  simp only [logged]
  refine ⟨valid, reason, by_, offset, ?_, ?_, only⟩
  · simp only [State.stg, only.keeps (·.fab.stg) (fun _ _ => rfl)]
  · simp only [State.fld, regGet, only.2 _ elsewhere (obj_not_statusWord n Reg.Obj.GAIN)]

end Sys2Proof.Machine
end

section
/-! PROOFS. Slow-domain copies, slow writes that are lost, and BLOCK_RESET of a page (R48, R61 to R64, R545). -/

namespace Sys2Proof.Machine

open Sys2Proof

/-! Several fields of a unit written one after the other -/

/-- Fields of a unit in different words, or in different bits of one. -/
abbrev Apart (f g : Fld) : Prop := f.off ≠ g.off ∨ f.lsb + f.width ≤ g.lsb ∨ g.lsb + g.width ≤ f.lsb

theorem regGet_regPut_apart (m : RegMap) (base : Nat) {f g : Fld} (v : Nat) (h : Apart f g) :
    regGet (regPut m base f v) base g = regGet m base g := by
  rcases h with h | h
  · exact regGet_regPut_word m base base f g v (by omega)
  · exact regGet_regPut_bits m base base f g v h

/-- Of fields that lie apart from it, none changes a field. -/
theorem regGet_foldl_regPut_other {l : List Fld} {g : Fld} (hl : ∀ f ∈ l, Apart f g) (v : Fld → Nat) (m : RegMap)
    (base : Nat) : regGet (l.foldl (fun m f => regPut m base f (v f)) m) base g = regGet m base g :=
  foldl_keeps (regGet · base g) (fun m f hf => regGet_regPut_apart m base (v f) (hl f hf)) m

/-- A field among fields that lie apart takes its own value. -/
theorem regGet_foldl_regPut {l : List Fld} {g : Fld} (hg : Fits g) (hm : g ∈ l) (hl : ∀ f ∈ l, f = g ∨ Apart f g)
    (v : Fld → Nat) (m : RegMap) (base : Nat) :
    regGet (l.foldl (fun m f => regPut m base f (v f)) m) base g = v g % 2 ^ g.width := by
  induction l using List.reverseRecOn with
  | nil => cases hm
  | append_singleton l f ih =>
    rw [List.foldl_append, List.foldl_cons, List.foldl_nil]
    by_cases hf : f = g
    · rw [hf]
      exact regGet_regPut_same _ _ _ _ hg
    · have hm' : g ∈ l := by
        rcases List.mem_append.mp hm with h | h
        · exact h
        · exact absurd (List.mem_singleton.mp h).symm hf
      rw [regGet_regPut_apart _ _ _ ((hl f (by simp)).resolve_left hf)]
      exact ih hm' (fun f' h' => hl f' (List.mem_append_left _ h'))

/-! The copy of a page of the greenroom domain -/

/-- EVENTS lies apart from every other field of a page. -/
theorem page_events_apart {b : Blk} (h : b.isRecord = false) :
    ∀ f ∈ b.allFields, f = Reg.Hdr.EVENTS ∨ Apart f Reg.Hdr.EVENTS := by
  have header : ∀ f ∈ Reg.Hdr.fields, f = Reg.Hdr.EVENTS ∨ Apart f Reg.Hdr.EVENTS := by decide
  intro f hf
  simp only [Blk.allFields, h, Bool.false_eq_true, if_false, List.mem_append] at hf
  rcases hf with hf | hf
  · exact header f hf
  · have past := List.all_eq_true.mp (Blk.fields_past_header h) f hf
    simp only [decide_eq_true_eq] at past
    exact .inr (.inl (Nat.ne_of_gt (Nat.lt_of_lt_of_le (by decide) past)))

/-- EVENTS of the greenroom and of its jacks is a copy (R61). -/
theorem greenroom_events_copied {b : Blk} (hb : b = .greenroom ∨ b = .jack) :
    Reg.Hdr.EVENTS ∈ b.allFields.filter (copied b) := by
  have header : Reg.Hdr.EVENTS ∈ Reg.Hdr.fields := by decide
  rcases hb with rfl | rfl <;> exact List.mem_filter.mpr ⟨List.mem_append_left _ header, rfl⟩

/-- A refresh with nothing posted and no reset waiting takes the copies, stamps them and counts itself (R61, R62). -/
theorem State.mirrorRefresh_idle (s : State) {b : Blk} (tx : Bool) (hb : b = .greenroom ∨ b = .jack)
    (hp : s.fab.posted = []) (hr : s.fab.resets = []) :
    let src := ({ s with fab := { s.fab with posted := [] } } : State).intSrc b
    s.mirrorRefresh b tx = { s with fab := { s.fab with
      posted := []
      mir := (b.allFields.filter (copied b)).foldl
        (fun m f => regPut m b.base f (if f = Reg.Hdr.INT_SRC then src else s.fld b f)) s.fab.mir
      refreshTag := s.fab.refreshTag.put 0 b.base (Map.get 0 b.base s.fab.refreshTag + 1)
      refreshedAt := s.fab.refreshedAt.put 0 b.base s.render.tick } } := by
  have all : (b.allFields.filter (copied b)).filter (fun f => !false || txField f = tx) = b.allFields.filter (copied b) :=
    List.filter_eq_self.mpr (fun _ _ => rfl)
  unfold State.mirrorRefresh
  rcases hb with rfl | rfl <;>
    simp only [hp, hr, List.any_nil, List.filter_nil, List.foldl_nil, Bool.false_eq_true, if_false, Bool.false_and,
      Nat.add_zero, all] <;> rfl

/-- MIRROR_REFRESH of a page of the greenroom domain (R61, R62). -/
theorem mirrorRefresh_answers {s : State} {b : Blk} (tx : Bool) (hb : b = .greenroom ∨ b = .jack)
    (hp : s.fab.posted = []) (hr : s.fab.resets = []) :
    Answers (.mirrorRefresh b tx) s (fun t =>
      regGet t.fab.mir b.base Reg.Hdr.EVENTS = s.fld b Reg.Hdr.EVENTS ∧
      Map.get 0 b.base t.fab.refreshedAt = s.render.tick ∧
      Map.get 0 b.base t.fab.refreshTag = Map.get 0 b.base s.fab.refreshTag + 1 ∧ SameWords s t []) := by
  have page : b.isRecord = false := by rcases hb with rfl | rfl <;> rfl
  have due : execMirrorRefresh b tx s = settle (s.mirrorRefresh b tx) := by rcases hb with rfl | rfl <;> rfl
  refine ⟨_, due, ?_⟩
  rw [s.mirrorRefresh_idle tx hb hp hr]
  simp only [State.settled_fab_mir, State.settled_fab_refreshedAt, State.settled_fab_refreshTag, Map.get_put_same,
    true_and]
  refine ⟨?_, fun k _ hs => State.settled_word _ k hs⟩
  rw [regGet_foldl_regPut ⟨by decide, by decide⟩ (greenroom_events_copied hb)
    (fun f hf => page_events_apart page f (List.mem_of_mem_filter hf)), if_neg (by decide)]
  exact Nat.mod_eq_of_lt (regGet_lt _ _ _ ⟨by decide, by decide⟩)

/-! A slow write that is lost -/

/-- No status word is a page's ERR_LOG, nor any word of a record. -/
theorem errLog_not_statusWord (b : Blk) : b.base + 0x28 ∉ statusWords := by
  cases h : b.isRecord with
  | true =>
    refine statusWords_below ?_
    cases b <;> simp only [Blk.isRecord, Blk.base, Bool.false_eq_true] at h ⊢ <;> omega
  | false =>
    have status : ∀ k ∈ statusWords, k % 0x1000 ≠ 0x28 := by decide
    intro hm
    have := status _ hm
    have := Blk.base_page h
    omega

/-- SLOW_WRITE_LOST of the oldest write of a unit, 1 ms after it was posted (R64). -/
theorem slowWriteLost_answers {s : State} {b : Blk} {off : Nat} {data : Word} {seat tick : Nat} {rest : List Posted}
    (hp : s.fab.posted = { blk := b, op := .write off data, seat := seat, tick := tick } :: rest)
    (ht : tick + s.msTicks ≤ s.render.tick) (hv : s.bit b Reg.Hdr.ERR_VALID = false) :
    Answers (.slowWriteLost b) s (fun t =>
      t.fab.posted = rest ∧ t.fld b Reg.Hdr.ERR_VALID = 1 ∧ t.fld b Reg.Hdr.ERR_REASON = eSlowLost ∧
      SameWords s t [wordAt b Reg.Hdr.ERR_VALID]) := by
  let u : State := { s with fab := { s.fab with posted := rest } }
  have lost : execSlowWriteLost b s = settle (u.logErr b off eSlowLost seat) := by
    unfold execSlowWriteLost
    simp only [hp, List.find?_cons, decide_true, ht, Bool.and_self, List.erase_cons_head]
    rfl
  obtain ⟨valid, reason, -⟩ := u.logErr_first b (off := off) (reason := eSlowLost) (seat := seat) hv (by decide)
  have only := (u.logErr_only b off eSlowLost seat).settled
  refine ⟨_, lost, only.keeps (·.fab.posted) (fun _ _ => rfl), ?_, ?_, fun k hk hs => only.2 k hk hs⟩
  · exact (State.settled_fld _ _ _ (errLog_not_statusWord b)).trans valid
  · exact (State.settled_fld _ _ _ (errLog_not_statusWord b)).trans reason

/-! BLOCK_RESET -/

/-- BLOCK_RESET of a page by the house seat is asked for (R48). -/
theorem execBlockReset_house (s : State) {b : Blk} (hr : b.isRecord = false) (hb : b.base < 0x2000000)
    (hc : b.ownerClass ≠ .readOnly) (hp : b.page.present s.model = true) (hu : s.isUnderstudy = false) :
    execBlockReset (.seat 0) b s = settle (s.askReset b) := by
  have writes : s.mayWrite 0 b = true := by
    unfold State.mayWrite
    split <;> simp_all
  unfold execBlockReset
  simp only [hr, Bool.false_or, ge_iff_le, decide_eq_true_eq, Nat.not_le.mpr hb, if_false, Writer.seatOf,
    s.pageReasons_house hp hu writes, State.unless, List.isEmpty_nil, if_true]

/-- The pages of the render domain that a model carries lie in the window, and the house seat may write them. -/
theorem renderDomain_page {b : Blk} {m : Model} (h : renderDomain b = true) (hp : b.present m = true) :
    b.isRecord = false ∧ b.base < 0x2000000 ∧ b.ownerClass ≠ .readOnly := by
  have objects := Model.objects_le m
  have outputs : m.outputs ≤ 512 := by cases m <;> decide
  have buses : m.buses ≤ 64 := by cases m <;> decide
  cases b <;> simp only [renderDomain, Bool.false_eq_true] at h <;>
    simp only [Blk.isRecord, Blk.base, Blk.ownerClass, Blk.present, decide_eq_true_eq, ne_eq, reduceCtorEq,
      not_false_eq_true, and_true, true_and] at hp ⊢ <;> omega

/-- BLOCK_RESET of a page of the render domain waits for the block boundary (R48). -/
theorem blockReset_answers_render {s : State} {b : Blk} (hd : renderDomain b = true) (hpage : b.page = b)
    (hp : b.present s.model = true) (hc : s.clocked = true) (hu : s.isUnderstudy = false) (hr : s.fab.resets = []) :
    Answers (.blockReset (.seat 0) b) s (fun t => t.fab.resets = [(b, s.render.rsi)] ∧ SameWords s t []) := by
  obtain ⟨record, window, house⟩ := renderDomain_page hd hp
  refine ⟨_, execBlockReset_house s record window house (hpage.symm ▸ hp) hu, ?_⟩
  simp only [State.askReset, hd, hc, Bool.and_self, Bool.true_or, if_true, hr, List.any_nil, Bool.false_eq_true, if_false,
    List.nil_append]
  exact ⟨State.settled_fab_resets _, fun k _ hs => State.settled_word _ k hs⟩

/-- BLOCK_RESET of a TIME page clears its two counters and its events, and has no engine behind it (R545). -/
theorem State.blockReset_time (s : State) (i r : Nat) (hh : s.fab.held = []) : s.blockReset (.time i) r =
    ((s.set (.time i) Reg.Time.ANN_TIMEOUTS 0).set (.time i) Reg.Time.GM_CHANGES 0).set (.time i) Reg.Hdr.EVENTS 0 := by
  have cleared : counters (.time i) ++ stickies (.time i) = [Reg.Time.ANN_TIMEOUTS, Reg.Time.GM_CHANGES, Reg.Hdr.EVENTS] := rfl
  have marks : s.resetMarks (.time i) r = s.clearCounts (.time i) := rfl
  have unheld (t : State) (ht : t.fab.held = []) : t.unhold (.time i) = t := by
    simp only [State.unhold, ht, List.any_nil, Bool.false_eq_true, if_false]
  unfold State.blockReset State.resetEngines
  rw [marks]
  unfold State.clearCounts
  rw [cleared]
  exact unheld _ hh

/-- BLOCK_RESET of a TIME page acts at once (R48). -/
theorem blockReset_answers_time {s : State} {i : Nat} (hi : i < 2) (hu : s.isUnderstudy = false) (hh : s.fab.held = []) :
    Answers (.blockReset (.seat 0) (.time i)) s (fun t =>
      t.fld (.time i) Reg.Time.ANN_TIMEOUTS = 0 ∧ t.fld (.time i) Reg.Time.GM_CHANGES = 0 ∧
      t.fld (.time i) Reg.Hdr.EVENTS = 0) := by
  have window : (Blk.time i).base < 0x2000000 := by simp only [Blk.base]; omega
  have shown (t : State) (f : Fld) : t.settled.fld (.time i) f = t.fld (.time i) f :=
    State.settled_fld t _ f (statusWords_below (by simp only [Blk.base]; omega))
  have same (t : State) (f : Fld) (hf : Fits f) : (t.set (.time i) f 0).fld (.time i) f = 0 :=
    (State.fld_set_same t _ f 0 hf).trans (Nat.zero_mod _)
  have other (t : State) (f g : Fld) (h : Apart f g) : (t.set (.time i) f 0).fld (.time i) g = t.fld (.time i) g :=
    regGet_regPut_apart _ _ _ h
  refine ⟨_, execBlockReset_house s rfl window (fun h => nomatch h) (decide_eq_true hi) hu, ?_⟩
  rw [show s.askReset (.time i) = s.blockReset (.time i) s.render.rsi from rfl, s.blockReset_time i _ hh]
  simp only [shown]
  refine ⟨?_, ?_, same _ _ ⟨by decide, by decide⟩⟩
  · rw [other _ _ _ (by decide), other _ _ _ (by decide)]
    exact same _ _ ⟨by decide, by decide⟩
  · rw [other _ _ _ (by decide)]
    exact same _ _ ⟨by decide, by decide⟩

/-- Settles O10: the copy, the lost write, and the two resets. -/
theorem mirrorsLostWritesAndBlockResets : Obligations.MirrorsLostWritesAndBlockResets :=
  ⟨fun _ _ tx hb hp hr => mirrorRefresh_answers tx hb hp hr, fun _ _ _ _ _ _ _ hp ht hv => slowWriteLost_answers hp ht hv,
    fun _ _ hd hpage hp hc hu hr => blockReset_answers_render hd hpage hp hc hu hr,
    fun _ _ hi hu hh => blockReset_answers_time hi hu hh⟩

end Sys2Proof.Machine
end

section
/-! PROOFS. Strobes of a seat: what is accepted and captured, what is refused, and what the registers of the seat's bank
show (R57, R65 to R68, R591). -/

namespace Sys2Proof.Machine

open Sys2Proof

/-! Frames of register words -/

/-- A field outside the words that changed keeps its value. -/
theorem OnlyWords.fld_eq {s t : State} {ws : List Nat} (h : OnlyWords s t ws) {b : Blk} {f : Fld} (hw : wordAt b f ∉ ws)
    (hs : wordAt b f ∉ statusWords) : t.fld b f = s.fld b f := by
  have word := h.2 _ hw hs
  simp only [State.fld, regGet]
  rw [show b.base + f.off = wordAt b f from rfl, word]

/-- What differs in active words only is a replaced active store. -/
theorem OnlyWords.shape {s t : State} {ws : List Nat} (h : OnlyWords s t ws) : t = s.withAct t.fab.act := by
  rw [← h.1]
  rfl

/-- A chain of steps that each change only the words `ws` changes only these. -/
theorem OnlyWords.foldl {α : Type} {ws : List Nat} {f : State → α → State} {l : List α}
    (h : ∀ s, ∀ a ∈ l, OnlyWords s (f s a) ws) (s : State) : OnlyWords s (l.foldl f s) ws :=
  List.foldlRecOn (motive := fun t => OnlyWords s t ws) l f (OnlyWords.refl s ws) (fun t ht a ha => ht.trans (h t a ha))

/-! STAGED_PENDING of several units -/

/-- Units whose STAGED_PENDING is set one after the other: nothing else changes (R57). -/
theorem State.foldl_setPending_shape (v : Bool) (l : List Blk) (s : State) :
    ∃ p, l.foldl (fun s b => s.setPending b v) s = { s with fab := { s.fab with stagedPending := p } } := by
  induction l generalizing s with
  | nil => exact ⟨s.fab.stagedPending, rfl⟩
  | cons b l ih =>
    obtain ⟨p, h⟩ := ih (s.setPending b v)
    exact ⟨p, h⟩

/-- A unit among them, or one that had that value before, has it after. -/
theorem State.isPending_foldl_setPending (v : Bool) {b : Blk} (l : List Blk) (s : State) (h : b ∈ l ∨ s.isPending b = v) :
    (l.foldl (fun s b => s.setPending b v) s).isPending b = v := by
  induction l generalizing s with
  | nil => exact h.resolve_left List.not_mem_nil
  | cons c l ih =>
    refine ih _ ?_
    rw [State.isPending_setPending]
    rcases h with h | h
    · rcases List.mem_cons.mp h with rfl | h
      · exact .inr (if_pos rfl)
      · exact .inl h
    · exact .inr (by rw [h, ite_self])

/-! What the registers show -/

/-- The words of PENDING_GROUPS and of UG_CFG.PENDING (R65). -/
def pendingWords : List Nat :=
  wordAt .update Reg.Update.PENDING_GROUPS :: (List.range 32).map (fun g => wordAt .update (Reg.Update.UG_CFG_PENDING g))

theorem State.showPending_only (s : State) : OnlyWords s s.showPending pendingWords := by
  have group (t : State) (g v : Nat) (hg : g ∈ List.range 32) :
      OnlyWords t (t.set .update (Reg.Update.UG_CFG_PENDING g) v) pendingWords :=
    (OnlyWords.refl t _).set_in _ _ _ (List.mem_cons_of_mem _ (List.mem_map_of_mem hg))
  unfold State.showPending State.setBit
  exact ((OnlyWords.refl s _).set_in .update Reg.Update.PENDING_GROUPS _ List.mem_cons_self).trans
    (OnlyWords.foldl (fun t g hg => group t g _ hg) _)

/-- No word of a seat's bank of UPDATE is a status word. -/
theorem bank_not_statusWord (q : Nat) (f : Fld) : wordAt (.updateBank q) f ∉ statusWords :=
  statusWords_below (by simp only [wordAt, Blk.base]; omega)

/-- The words of a seat's bank that show an event or a result (R76, R591). -/
def resultWords (q : Nat) : List Nat :=
  [wordAt (.updateBank q) Reg.Hdr.EVENTS, wordAt (.updateBank q) Reg.Update.UPD_RESULT_STATE]

/-- The event of a result is a bit of EVENTS of the seat's bank, or none (R76). -/
theorem State.resultEvent_seat_only (s : State) (q state reason : Nat) :
    OnlyWords s (s.resultEvent .seat q state reason) [wordAt (.updateBank q) Reg.Hdr.EVENTS] := by
  have event (i : Nat) : OnlyWords s (s.event (.updateBank q) i) [wordAt (.updateBank q) Reg.Hdr.EVENTS] :=
    OnlyWords.set s _ _ _
  unfold State.resultEvent
  dsimp only
  split
  · exact event 0
  · split
    · exact event 1
    · split
      · exact event 2
      · exact OnlyWords.refl s _

/-- The result of a seat's strobe raises its event and, of the seat's last strobe, shows in UPD_RESULT (R591). -/
theorem State.report_seat_eq (s : State) (q serial state reason page : Nat) :
    s.report .seat q serial state reason page =
      if Map.get 0 q (s.resultEvent .seat q state reason).fab.lastStrobe ≠ serial then s.resultEvent .seat q state reason
      else (((s.resultEvent .seat q state reason).set (.updateBank q) Reg.Update.UPD_RESULT_STATE state).set (.updateBank q)
        Reg.Update.UPD_RESULT_REASON reason).set (.updateBank q) Reg.Update.UPD_RESULT_PAGE page := by
  unfold State.report
  simp only [reduceCtorEq, if_false, decide_false, Bool.false_or, Strober.key, decide_eq_true_eq]

/-- The result of a seat's strobe changes its EVENTS and UPD_RESULT alone. -/
theorem State.report_seat_only (s : State) (q serial state reason page : Nat) :
    OnlyWords s (s.report .seat q serial state reason page) (resultWords q) := by
  have event := (s.resultEvent_seat_only q state reason).mono (vs := resultWords q)
    (fun k hk => List.mem_cons.mpr (.inl (List.mem_singleton.mp hk)))
  have result (t : State) (f : Fld) (v : Nat) (hf : f.off = Reg.Update.UPD_RESULT_STATE.off) (ht : OnlyWords s t (resultWords q)) :
      OnlyWords s (t.set (.updateBank q) f v) (resultWords q) :=
    ht.set_in _ f v (by simp only [resultWords, wordAt, hf, List.mem_cons, true_or, or_true])
  rw [State.report_seat_eq]
  split
  · exact event
  · exact result _ _ _ rfl (result _ _ _ rfl (result _ _ _ rfl event))

/-- The result of a seat's last strobe shows in UPD_RESULT (R591). -/
theorem State.report_seat_last (s : State) {q serial state reason page : Nat}
    (h : Map.get 0 q s.fab.lastStrobe = serial) (hs : state < 16) (hr : reason < 256) (hp : page < 4096) :
    (s.report .seat q serial state reason page).fld (.updateBank q) Reg.Update.UPD_RESULT_STATE = state ∧
    (s.report .seat q serial state reason page).fld (.updateBank q) Reg.Update.UPD_RESULT_REASON = reason ∧
    (s.report .seat q serial state reason page).fld (.updateBank q) Reg.Update.UPD_RESULT_PAGE = page := by
  have same (t : State) (f : Fld) (v : Nat) (hf : Fits f) (hv : v < 2 ^ f.width) :
      (t.set (.updateBank q) f v).fld (.updateBank q) f = v :=
    (State.fld_set_same t _ f v hf).trans (Nat.mod_eq_of_lt hv)
  have other (t : State) (f g : Fld) (v : Nat) (ha : Apart f g) :
      (t.set (.updateBank q) f v).fld (.updateBank q) g = t.fld (.updateBank q) g := regGet_regPut_apart _ _ _ ha
  have last : Map.get 0 q (s.resultEvent .seat q state reason).fab.lastStrobe = serial := by
    rw [(s.resultEvent_seat_only q state reason).keeps (·.fab.lastStrobe) (fun _ _ => rfl), h]
  rw [State.report_seat_eq, if_neg (not_not.mpr last)]
  refine ⟨?_, ?_, same _ _ _ ⟨by decide, by decide⟩ hp⟩
  · rw [other _ _ _ _ (by decide), other _ _ _ _ (by decide)]
    exact same _ _ _ ⟨by decide, by decide⟩ hs
  · rw [other _ _ _ _ (by decide)]
    exact same _ _ _ ⟨by decide, by decide⟩ hr

/-! Which strobes are accepted -/

/-- The seat may use every group that the mask names (R67). -/
def State.MayStrobe (s : State) (seat mask : Nat) : Prop :=
  ∀ g, g < 32 → mask.testBit g = true → s.mayUseGroup seat g = true

/-- A group that the mask names has a pending commit (R67). -/
def State.GroupPending (s : State) (mask : Nat) : Prop := ∃ c ∈ s.fab.commits, c.applied = false ∧ c.mask &&& mask ≠ 0

theorem mem_groupsOf {mask g : Nat} : g ∈ groupsOf mask ↔ g < 32 ∧ mask.testBit g = true := by
  simp only [groupsOf, List.mem_filter, List.mem_range]

theorem State.any_notOwner_iff (s : State) (seat mask : Nat) :
    (groupsOf mask).any (fun g => !s.mayUseGroup seat g) = true ↔ ¬ s.MayStrobe seat mask := by
  simp only [State.MayStrobe, List.any_eq_true, mem_groupsOf, not_forall, Bool.not_eq_true', exists_prop,
    Bool.not_eq_true, and_assoc]

theorem State.any_groupPending_iff (s : State) (mask : Nat) :
    s.fab.commits.any (fun c => c.pending && decide (c.mask &&& mask ≠ 0)) = true ↔ s.GroupPending mask := by
  simp only [State.GroupPending, List.any_eq_true, Commit.pending, Bool.and_eq_true, Bool.not_eq_true', decide_eq_true_eq]

theorem State.strobeRefusal_none (s : State) {seat mask : Nat} (hu : s.isUnderstudy = false) (ho : s.MayStrobe seat mask)
    (hp : ¬ s.GroupPending mask) : s.strobeRefusal seat mask = (none, s) := by
  have owner := Bool.eq_false_iff.mpr (fun h => (s.any_notOwner_iff seat mask).mp h ho)
  have pending := Bool.eq_false_iff.mpr (fun h => hp ((s.any_groupPending_iff mask).mp h))
  simp only [State.strobeRefusal, hu, owner, pending, Bool.false_eq_true, if_false, Bool.and_false]

theorem State.strobeRefusal_groupPending (s : State) {seat mask : Nat} (hu : s.isUnderstudy = false)
    (ho : s.MayStrobe seat mask) (hp : s.GroupPending mask) : s.strobeRefusal seat mask = (some rGroupPending, s) := by
  have owner := Bool.eq_false_iff.mpr (fun h => (s.any_notOwner_iff seat mask).mp h ho)
  have pending := (s.any_groupPending_iff mask).mpr hp
  simp only [State.strobeRefusal, hu, owner, pending, Bool.false_eq_true, if_false, Bool.false_and, if_true]

theorem State.strobeRefusal_notOwner (s : State) {seat mask : Nat} (hu : s.isUnderstudy = false)
    (ho : ¬ s.MayStrobe seat mask) (hp : ¬ s.GroupPending mask) : s.strobeRefusal seat mask = (some rNotOwner, s) := by
  have owner := (s.any_notOwner_iff seat mask).mpr ho
  have pending := Bool.eq_false_iff.mpr (fun h => hp ((s.any_groupPending_iff mask).mp h))
  simp only [State.strobeRefusal, hu, owner, pending, Bool.false_eq_true, if_false, Bool.and_false, if_true]

/-! A refused strobe -/

/-- A refused strobe: its reason shows, and nothing is captured (R67, R591). -/
theorem State.strobe_refused (s : State) {seat mask r : Nat} (at_ : Nat) (h0 : mask % 2 ^ 32 ≠ 0)
    (h : s.strobeRefusal seat mask = (some r, s)) (hr : r < 256) :
    let t := (s.strobe .seat seat mask at_).1
    t.fab.commits = s.fab.commits ∧ t.fab.serial = s.fab.serial ∧ t.fab.stg = s.fab.stg ∧
      t.fab.stagedPending = s.fab.stagedPending ∧
      t.fld (.updateBank seat) Reg.Update.UPD_RESULT_STATE = updRefused ∧
      t.fld (.updateBank seat) Reg.Update.UPD_RESULT_REASON = r := by
  have refused : (s.strobe .seat seat mask at_).1 = (s.noteStrobe .seat seat 0).report .seat seat 0 updRefused r 0 := by
    unfold State.strobe
    rw [if_neg h0, h]
  have noted : Map.get 0 seat (s.noteStrobe .seat seat 0).fab.lastStrobe = 0 := Map.get_put_same _ _ _ _
  obtain ⟨state, reason, -⟩ := (s.noteStrobe .seat seat 0).report_seat_last (state := updRefused) (page := 0) noted
    (by decide) hr (by decide)
  have shape := ((s.noteStrobe .seat seat 0).report_seat_only seat 0 updRefused r 0).shape
  rw [refused]
  refine ⟨?_, ?_, ?_, ?_, state, reason⟩ <;> rw [shape] <;> rfl

/-! An accepted strobe -/

theorem nextSerial_ne_zero (n : Nat) : nextSerial n ≠ 0 := by
  unfold nextSerial
  split <;> omega

/-- The state with a captured commit in flight: behind the others, with the next serial, told to the peer, its units'
STAGED_PENDING cleared (R57, R67, R68). -/
def State.withCapture (s : State) (c : Commit) : State :=
  let t := s.tellPeer (.commit c.serial c.seat c.mask c.at_ c.vals)
  c.wasPending.foldl (fun s b => s.setPending b false)
    { t with fab := { t.fab with serial := c.serial, commits := t.fab.commits ++ [c] } }

/-- A message to the peer changes the state of the twin link alone. -/
theorem State.tellPeer_shape (s : State) (m : PeerFrame) : ∃ tw, s.tellPeer m = { s with twin := tw } := by
  unfold State.tellPeer
  split
  · exact ⟨_, rfl⟩
  · exact ⟨s.twin, rfl⟩

/-- A new commit changes the commits, the serial and STAGED_PENDING, and what is told to the peer. -/
theorem State.withCapture_shape (s : State) (c : Commit) : ∃ p tw, s.withCapture c =
    { s with
      twin := tw
      fab := { s.fab with serial := c.serial, commits := s.fab.commits ++ [c], stagedPending := p } } := by
  obtain ⟨tw, told⟩ := s.tellPeer_shape (.commit c.serial c.seat c.mask c.at_ c.vals)
  obtain ⟨p, h⟩ := State.foldl_setPending_shape false c.wasPending
    { s with twin := tw, fab := { s.fab with serial := c.serial, commits := s.fab.commits ++ [c] } }
  refine ⟨p, tw, ?_⟩
  unfold State.withCapture
  rw [told]
  exact h

/-- No captured unit has STAGED_PENDING once the commit is in flight (R57). -/
theorem State.isPending_withCapture (s : State) (c : Commit) {b : Blk} (h : b ∈ c.wasPending ∨ s.isPending b = false) :
    (s.withCapture c).isPending b = false := by
  refine State.isPending_foldl_setPending false _ _ (h.imp_right (fun h => ?_))
  obtain ⟨tw, told⟩ := s.tellPeer_shape (.commit c.serial c.seat c.mask c.at_ c.vals)
  rw [told]
  exact h

/-- What the registers show of an accepted strobe (R65, R591). -/
def State.showStrobe (s : State) (seat serial : Nat) : State :=
  (((s.set .update Reg.Update.COMMIT_SERIAL serial).showPending).noteStrobe .seat seat serial).report .seat seat serial
    updPreparing rNone 0

theorem State.strobe_accepted_eq (s : State) {seat mask : Nat} (at_ : Nat) (h0 : mask % 2 ^ 32 ≠ 0)
    (h : s.strobeRefusal seat mask = (none, s)) :
    (s.strobe .seat seat mask at_).1 =
      (s.withCapture (s.capture .seat seat mask at_ (nextSerial s.fab.serial))).showStrobe seat (nextSerial s.fab.serial) := by
  unfold State.strobe
  rw [if_neg h0, h]
  rfl

/-- An accepted strobe of a seat is noted: its serial, and no apply sample yet (R591). -/
theorem State.noteStrobe_seat_eq (s : State) (q : Nat) {serial : Nat} (h0 : serial ≠ 0) :
    s.noteStrobe .seat q serial =
      (({ s with fab := { s.fab with lastStrobe := s.fab.lastStrobe.put 0 q serial } } : State).set (.updateBank q)
        Reg.Update.UPD_SERIAL serial).set64 (.updateBank q) Reg.Update.UPD_APPLIED_AT_LO Reg.Update.UPD_APPLIED_AT_HI 0 := by
  simp only [State.noteStrobe, if_neg h0, Strober.key]

/-- What shows an accepted strobe: active words, and whose strobe was the last. -/
theorem State.showStrobe_shape (s : State) (seat : Nat) {serial : Nat} (h0 : serial ≠ 0) : ∃ act,
    s.showStrobe seat serial =
      { s with fab := { s.fab with act := act, lastStrobe := s.fab.lastStrobe.put 0 seat serial } } := by
  have pending : ∃ m, (s.set .update Reg.Update.COMMIT_SERIAL serial).showPending = s.withAct m :=
    ⟨_, (s.set .update Reg.Update.COMMIT_SERIAL serial).showPending_only.shape⟩
  have noted (u : State) : ∃ act, u.noteStrobe .seat seat serial =
      { u with fab := { u.fab with act := act, lastStrobe := u.fab.lastStrobe.put 0 seat serial } } :=
    ⟨_, u.noteStrobe_seat_eq seat h0⟩
  have reported (u : State) : ∃ m, u.report .seat seat serial updPreparing rNone 0 = u.withAct m :=
    ⟨_, (u.report_seat_only seat serial updPreparing rNone 0).shape⟩
  obtain ⟨m, hp⟩ := pending
  obtain ⟨act, hn⟩ := noted (s.withAct m)
  unfold State.showStrobe
  rw [hp, hn]
  obtain ⟨m', hr⟩ := reported
    { s.withAct m with fab := { (s.withAct m).fab with act := act, lastStrobe := (s.withAct m).fab.lastStrobe.put 0 seat serial } }
  exact ⟨m', hr⟩

/-- A word of the UPDATE page lies outside every bank. -/
theorem update_ne_bank (q : Nat) {f : Fld} (g : Fld) (h : f.off < 0x1000) :
    wordAt .update f ≠ wordAt (.updateBank q) g := by
  simp only [wordAt, Blk.base]
  omega

/-- The strobe noted and reported: UPD_SERIAL and UPD_RESULT.STATE show it, and the common words of UPDATE stay. -/
theorem State.noteStrobe_report_fields (u : State) (seat : Nat) {serial : Nat} (h0 : serial ≠ 0) :
    let t := (u.noteStrobe .seat seat serial).report .seat seat serial updPreparing rNone 0
    t.fld (.updateBank seat) Reg.Update.UPD_SERIAL = serial % 2 ^ 32 ∧
      t.fld (.updateBank seat) Reg.Update.UPD_RESULT_STATE = updPreparing ∧
      t.fld .update Reg.Update.COMMIT_SERIAL = u.fld .update Reg.Update.COMMIT_SERIAL := by
  have noted := u.noteStrobe_seat_eq seat h0
  generalize u.noteStrobe .seat seat serial = v at noted
  have last : Map.get 0 seat v.fab.lastStrobe = serial := by
    rw [noted]
    exact Map.get_put_same _ _ _ _
  have only := v.report_seat_only seat serial updPreparing rNone 0
  refine ⟨?_, (v.report_seat_last last (by decide) (by decide) (by decide)).1, ?_⟩
  · refine (only.fld_eq ?_ (bank_not_statusWord _ _)).trans ?_
    · simp [resultWords, wordAt, Reg.Update.UPD_SERIAL, Reg.Hdr.EVENTS, Reg.Update.UPD_RESULT_STATE]
    · have apart (t : State) (f : Fld) (x : Nat) (h : Apart f Reg.Update.UPD_SERIAL) :
          (t.set (.updateBank seat) f x).fld (.updateBank seat) Reg.Update.UPD_SERIAL =
            t.fld (.updateBank seat) Reg.Update.UPD_SERIAL := regGet_regPut_apart _ _ _ h
      rw [noted, State.set64, apart _ _ _ (by decide), apart _ _ _ (by decide)]
      exact State.fld_set_same _ _ _ _ ⟨by decide, by decide⟩
  · refine (only.fld_eq ?_ (by decide)).trans ?_
    · simp [resultWords, update_ne_bank seat _ (show Reg.Update.COMMIT_SERIAL.off < 0x1000 by decide)]
    · have apart (t : State) (f : Fld) (x : Nat) : (t.set (.updateBank seat) f x).fld .update Reg.Update.COMMIT_SERIAL =
          t.fld .update Reg.Update.COMMIT_SERIAL :=
        State.fld_set_word _ _ _ _ _ _ (update_ne_bank seat f (f := Reg.Update.COMMIT_SERIAL) (by decide))
      rw [noted, State.set64, apart, apart, apart]
      rfl

/-- The serials and the result of an accepted strobe (R65, R66, R591). -/
theorem State.showStrobe_fields (s : State) (seat : Nat) {serial : Nat} (h0 : serial ≠ 0) :
    let t := s.showStrobe seat serial
    t.fld (.updateBank seat) Reg.Update.UPD_SERIAL = serial % 2 ^ 32 ∧
      t.fld .update Reg.Update.COMMIT_SERIAL = serial % 2 ^ 32 ∧
      t.fld (.updateBank seat) Reg.Update.UPD_RESULT_STATE = updPreparing := by
  obtain ⟨own, result, common⟩ :=
    (s.set .update Reg.Update.COMMIT_SERIAL serial).showPending.noteStrobe_report_fields seat h0
  refine ⟨own, common.trans ?_, result⟩
  refine ((s.set .update Reg.Update.COMMIT_SERIAL serial).showPending_only.fld_eq (by decide) (by decide)).trans ?_
  exact State.fld_set_same _ _ _ _ ⟨by decide, by decide⟩

/-- What a seat's commit captures: its groups with their kinds, the present units of these groups, and their staged
words (R68). -/
theorem State.capture_spec (s : State) (by_ : Strober) (seat mask at_ serial : Nat) :
    let c := s.capture by_ seat mask at_ serial
    (∀ g k, (g, k) ∈ c.kinds ↔ g < 32 ∧ mask.testBit g = true ∧ k = s.fld .update (Reg.Update.UG_CFG_KIND g)) ∧
      (∀ b, b ∈ c.blks ↔ b ∈ allBlks ∧ b.present s.model = true ∧ s.groupOf b < 32 ∧ mask.testBit (s.groupOf b) = true) ∧
      (∀ b ∈ c.blks, ∀ k, ownsKey b k = true → Map.get 0#32 k c.vals = Map.get 0#32 k s.fab.stg) ∧
      ∀ b ∈ c.blks, b ∈ c.wasPending ∨ s.isPending b = false := by
  refine ⟨fun g k => ?_, fun b => ?_, fun b hb k hk => ?_, fun b hb => ?_⟩
  · simp only [State.capture, List.mem_map, mem_groupsOf, Prod.mk.injEq]
    constructor
    · rintro ⟨_, ⟨h, h'⟩, rfl, rfl⟩
      exact ⟨h, h', rfl⟩
    · rintro ⟨h, h', rfl⟩
      exact ⟨g, ⟨h, h'⟩, rfl, rfl⟩
  · simp only [State.capture, State.members, List.mem_filter, Bool.and_eq_true, decide_eq_true_eq, and_assoc]
  · simp only [State.capture, Map.get_only]
    exact if_pos (List.any_eq_true.mpr ⟨b, hb, hk⟩)
  · simp only [State.capture, List.mem_filter]
    cases h : s.isPending b
    · exact .inr rfl
    · exact .inl ⟨hb, rfl⟩

/-- UPD_STROBE of a mask that names no group is ignored (R67). -/
theorem updStrobe_answers_ignored (s : State) (seat : Nat) {mask : Word} (h : mask = 0#32) :
    Answers (.updStrobe seat mask) s (fun t => OnlyWords s t []) := by
  subst h
  exact ⟨_, rfl, s.settled_only⟩

theorem mask_names_groups {mask : Word} (h : mask ≠ 0#32) : mask.toNat % 2 ^ 32 ≠ 0 := by
  rw [Nat.mod_eq_of_lt mask.isLt]
  exact fun h' => h (BitVec.eq_of_toNat_eq h')

/-- UPD_STROBE that is accepted (R67, R68, R591). -/
theorem updStrobe_answers_accepted {s : State} {seat : Nat} {mask : Word} (hm : mask ≠ 0#32) (hu : s.isUnderstudy = false)
    (ho : s.MayStrobe seat mask.toNat) (hp : ¬ s.GroupPending mask.toNat) :
    Answers (.updStrobe seat mask) s (fun t =>
      ∃ c : Commit, t.fab.commits = s.fab.commits ++ [c] ∧ c.serial = nextSerial s.fab.serial ∧ t.fab.serial = c.serial ∧
        c.seat = seat ∧ c.by_ = .seat ∧ c.mask = mask.toNat ∧ c.prepared = false ∧ c.applied = false ∧
        c.at_ = s.fld64 (.updateBank seat) Reg.Update.UPD_AT_LO Reg.Update.UPD_AT_HI ∧
        (∀ g k, (g, k) ∈ c.kinds ↔ g < 32 ∧ mask.toNat.testBit g = true ∧ k = s.fld .update (Reg.Update.UG_CFG_KIND g)) ∧
        (∀ b, b ∈ c.blks ↔ b ∈ allBlks ∧ b.present s.model = true ∧ s.groupOf b < 32 ∧
          mask.toNat.testBit (s.groupOf b) = true) ∧
        (∀ b ∈ c.blks, ∀ k, ownsKey b k = true → Map.get 0#32 k c.vals = Map.get 0#32 k s.fab.stg) ∧
        (∀ b ∈ c.blks, t.isPending b = false) ∧ (∀ k, Map.get 0#32 k t.fab.stg = Map.get 0#32 k s.fab.stg) ∧
        t.fld (.updateBank seat) Reg.Update.UPD_SERIAL = c.serial % 2 ^ 32 ∧
        t.fld .update Reg.Update.COMMIT_SERIAL = c.serial % 2 ^ 32 ∧
        t.fld (.updateBank seat) Reg.Update.UPD_RESULT_STATE = updPreparing) := by
  let at_ := s.fld64 (.updateBank seat) Reg.Update.UPD_AT_LO Reg.Update.UPD_AT_HI
  let c := s.capture .seat seat mask.toNat at_ (nextSerial s.fab.serial)
  have accepted : execUpdStrobe seat mask s = settle ((s.withCapture c).showStrobe seat c.serial) :=
    congrArg settle (s.strobe_accepted_eq at_ (mask_names_groups hm) (s.strobeRefusal_none hu ho hp))
  obtain ⟨kinds, blks, vals, pending⟩ := s.capture_spec .seat seat mask.toNat at_ (nextSerial s.fab.serial)
  have ne := nextSerial_ne_zero s.fab.serial
  obtain ⟨p, tw, inFlight⟩ := s.withCapture_shape c
  obtain ⟨act, shown⟩ := (s.withCapture c).showStrobe_shape seat (serial := c.serial) ne
  obtain ⟨serial, commitSerial, result⟩ := (s.withCapture c).showStrobe_fields seat (serial := c.serial) ne
  refine ⟨_, accepted, c, ?_, rfl, ?_, rfl, rfl, rfl, rfl, rfl, rfl, kinds, blks, vals, fun b hb => ?_, fun k => ?_, ?_, ?_, ?_⟩
  · rw [State.settled_fab_commits, shown, inFlight]
  · rw [State.settled_fab_serial, shown, inFlight]
  · rw [State.isPending_settled, shown]
    exact s.isPending_withCapture c (pending b hb)
  · rw [State.settled_fab_stg, shown, inFlight]
  · exact (State.settled_fld _ _ _ (bank_not_statusWord _ _)).trans serial
  · exact (State.settled_fld _ _ _ (by decide)).trans commitSerial
  · exact (State.settled_fld _ _ _ (bank_not_statusWord _ _)).trans result

/-- UPD_STROBE that is refused for one of the two causes (R67, R591). -/
theorem updStrobe_answers_refused {s : State} {seat : Nat} {mask : Word} (hm : mask ≠ 0#32) (hu : s.isUnderstudy = false)
    (h : s.MayStrobe seat mask.toNat → s.GroupPending mask.toNat)
    (h' : s.GroupPending mask.toNat → s.MayStrobe seat mask.toNat) :
    Answers (.updStrobe seat mask) s (fun t =>
      t.fab.commits = s.fab.commits ∧ t.fab.serial = s.fab.serial ∧ t.fab.stg = s.fab.stg ∧
      t.fab.stagedPending = s.fab.stagedPending ∧
      t.fld (.updateBank seat) Reg.Update.UPD_RESULT_STATE = updRefused ∧
      (s.MayStrobe seat mask.toNat → t.fld (.updateBank seat) Reg.Update.UPD_RESULT_REASON = rGroupPending) ∧
      (¬ s.GroupPending mask.toNat → t.fld (.updateBank seat) Reg.Update.UPD_RESULT_REASON = rNotOwner)) := by
  refine ⟨_, rfl, ?_⟩
  simp only [State.settled_fab_commits, State.settled_fab_serial, State.settled_fab_stg, State.settled_fab_stagedPending,
    State.settled_fld _ (.updateBank seat) _ (bank_not_statusWord seat _)]
  by_cases ho : s.MayStrobe seat mask.toNat
  · obtain ⟨commits, serial, stg, pending, state, reason⟩ := s.strobe_refused
      (s.fld64 (.updateBank seat) Reg.Update.UPD_AT_LO Reg.Update.UPD_AT_HI) (mask_names_groups hm)
      (s.strobeRefusal_groupPending hu ho (h ho)) (by decide)
    exact ⟨commits, serial, stg, pending, state, fun _ => reason, fun hp => absurd (h ho) hp⟩
  · have hp : ¬ s.GroupPending mask.toNat := fun hp => ho (h' hp)
    obtain ⟨commits, serial, stg, pending, state, reason⟩ := s.strobe_refused
      (s.fld64 (.updateBank seat) Reg.Update.UPD_AT_LO Reg.Update.UPD_AT_HI) (mask_names_groups hm)
      (s.strobeRefusal_notOwner hu ho hp) (by decide)
    exact ⟨commits, serial, stg, pending, state, fun h => absurd h ho, fun _ => reason⟩

/-- Settles O11: the three ways a strobe can go. -/
theorem strobeCapturesOrIsRefused : Obligations.StrobeCapturesOrIsRefused :=
  fun s seat _ _ hu => ⟨updStrobe_answers_ignored s seat, fun hm ho hp => updStrobe_answers_accepted hm hu ho hp,
    fun hm h h' => updStrobe_answers_refused hm hu h h'⟩

end Sys2Proof.Machine
end

section
/-! PROOFS. The end of prepare and the application of a commit: the apply sample, a failed prepare, and the captured values
of an object record in force (R56, R69 to R73, R591). -/

namespace Sys2Proof.Machine

open Sys2Proof

/-! The commits in flight -/

/-- The state with other commits in flight. -/
def State.withCommits (s : State) (l : List Commit) : State := { s with fab := { s.fab with commits := l } }

/-- Which words differ does not depend on the commits in flight. -/
theorem OnlyWords.withCommits {s t : State} {ws : List Nat} (h : OnlyWords s t ws) (l : List Commit) :
    OnlyWords (s.withCommits l) (t.withCommits l) ws := ⟨congrArg (State.withCommits · l) h.1, h.2⟩

/-- The commit found under a serial has it. -/
theorem State.commitOf_serial {s : State} {serial : Nat} {c : Commit} (h : s.commitOf serial = some c) :
    c.serial = serial := by
  simpa only [decide_eq_true_eq] using List.find?_some h

/-- A replaced commit is found under its serial. -/
theorem State.commitOf_setCommit {s : State} {c d : Commit} (h : s.commitOf c.serial = some d) :
    (s.setCommit c).commitOf c.serial = some c := by
  have serial : d.serial = c.serial := State.commitOf_serial h
  have keeps : (fun d : Commit => decide (d.serial = c.serial)) ∘ (fun d => if d.serial = c.serial then c else d) =
      fun d => decide (d.serial = c.serial) := by
    funext d
    simp only [Function.comp_apply]
    split
    · rename_i hd
      rw [hd]
    · rfl
  unfold State.commitOf at h
  unfold State.commitOf State.setCommit
  rw [List.find?_map, keeps, h]
  simp only [Option.map_some, serial, if_true]

/-- A commit that is taken out is found no more. -/
theorem find_filtered_serial (l : List Commit) (serial : Nat) :
    (l.filter (·.serial ≠ serial)).find? (·.serial = serial) = none := by
  rw [List.find?_eq_none]
  intro d hd
  simpa using (List.mem_filter.mp hd).2

@[simp] theorem State.commitOf_settled (s : State) (serial : Nat) : s.settled.commitOf serial = s.commitOf serial := by
  simp only [State.commitOf, State.settled_fab_commits]

/-! The apply sample -/

/-- The first multiple at or after a sample. -/
theorem roundUpTo_spec {m : Nat} (hm : 0 < m) (i : Nat) :
    i ≤ roundUpTo m i ∧ roundUpTo m i < i + m ∧ roundUpTo m i % m = 0 := by
  have total := Nat.div_add_mod (i + m - 1) m
  have rest := Nat.mod_lt (i + m - 1) hm
  have multiple : roundUpTo m i = m * ((i + m - 1) / m) := Nat.mul_comm _ _
  refine ⟨?_, ?_, ?_⟩
  · omega
  · omega
  · rw [multiple, Nat.mul_mod_right]

theorem State.blockSize_pos (s : State) : 0 < s.blockSize := Nat.mul_pos (by decide) (Nat.two_pow_pos _)

/-- While the render is stopped a commit applies at the held index (R72). -/
theorem State.applySample_stopped {s : State} (c : Commit) (h : s.stopped = true) :
    s.applySample c = (s.render.rsi, false) := by
  simp only [State.applySample, h, if_true]

/-- A group of a kind is among the commit's. -/
theorem Commit.any_kind_iff (c : Commit) (k : Nat) : c.kinds.any (·.2 = k) = true ↔ ∃ g, (g, k) ∈ c.kinds := by
  simp only [List.any_eq_true, decide_eq_true_eq, Prod.exists]
  exact ⟨fun ⟨g, _, h, rfl⟩ => ⟨g, h⟩, fun ⟨g, h⟩ => ⟨g, k, h, rfl⟩⟩

/-- While it runs: the earliest sample, or UPD_AT of a commit with a SAMPLE group if that is later; with a BLOCK group the
first block boundary from there on (R69, R71). -/
theorem State.applySample_running {s : State} {c : Commit} (hs : s.stopped = false) (hn : c.next = false)
    (ht : c.timed = false) (hb : c.newBlock s = false) :
    let p := s.render.rsi + 1
    let sample := ∃ g, (g, 0) ∈ c.kinds
    let block := ∃ g, (g, 1) ∈ c.kinds
    ∃ base, (sample → base = max c.at_ p) ∧ (¬ sample → base = p) ∧ (¬ block → (s.applySample c).1 = base) ∧
      (block → base ≤ (s.applySample c).1 ∧ (s.applySample c).1 < base + s.blockSize ∧
        (s.applySample c).1 % s.blockSize = 0) ∧
      ((s.applySample c).2 = true ↔ sample ∧ c.at_ < p) := by
  intro p sample block
  have sampleIff : c.kinds.any (·.2 = 0) = true ↔ sample := c.any_kind_iff 0
  have blockIff : c.kinds.any (·.2 = 1) = true ↔ block := c.any_kind_iff 1
  simp only [State.applySample, hs, hn, ht, hb, Bool.false_eq_true, if_false, Bool.or_false, Bool.not_false, Bool.and_true,
    Bool.false_and]
  refine ⟨if c.kinds.any (·.2 = 0) = true then max c.at_ p else p, fun h => if_pos (sampleIff.mpr h),
    fun h => if_neg (mt sampleIff.mp h), fun h => if_neg (mt blockIff.mp h), fun h => ?_, ?_⟩
  · rw [if_pos (blockIff.mpr h)]
    exact roundUpTo_spec s.blockSize_pos _
  · rw [Bool.and_eq_true, decide_eq_true_eq, sampleIff]

/-! PREPARE_DONE -/

/-- Outside LOCKSTEP the end of prepare depends on the commit's own checks alone (R70, R492). -/
theorem execPrepareDone_eq {s : State} {serial : Nat} {c : Commit} (hc : s.commitOf serial = some c)
    (hp : c.prepared = false) (ha : c.applied = false) (hby : c.by_ = .seat) (hl : s.lockPri = false)
    (ht : s.twin.prepared = []) :
    execPrepareDone serial s = if s.failures c = [] then settle (s.prepared c)
      else settle ((s.verdict (s.failures c)).2.endCommit c updFailed (s.verdict (s.failures c)).1.1
        (s.verdict (s.failures c)).1.2) := by
  have same : ({ s with twin := { s.twin with prepared := [] } } : State) = s := by
    rw [← ht]
  unfold execPrepareDone
  simp only [hc, hp, ha, hby, ht, hl, List.find?_nil, reduceCtorEq, decide_false, Bool.or_self, Bool.false_eq_true,
    Bool.false_and, if_false, List.append_nil, List.filter_nil, same]
  split
  · next none => rw [if_pos none]
  · next some => rw [if_neg some]

/-- A commit that has passed prepare is PENDING (R69 to R71). -/
theorem State.prepared_spec {s : State} {c : Commit} (hc : s.commitOf c.serial = some c) (hby : c.by_ = .seat) :
    (s.prepared c).commitOf c.serial =
        some { c with prepared := true, applyAt := (s.applySample c).1, late := (s.applySample c).2 } ∧
      (Map.get 0 c.seat s.fab.lastStrobe = c.serial →
        (s.prepared c).fld (.updateBank c.seat) Reg.Update.UPD_RESULT_STATE = updPending) := by
  let d : Commit := { c with prepared := true, applyAt := (s.applySample c).1, late := (s.applySample c).2 }
  obtain ⟨tw, told⟩ := (s.setCommit d).tellPeer_shape (.commitAt c.serial (some (s.applySample c).1))
  have eq : s.prepared c = ({ s.setCommit d with twin := tw } : State).report .seat c.seat c.serial updPending rNone 0 := by
    rw [← told, ← hby]
    rfl
  have only := ({ s.setCommit d with twin := tw } : State).report_seat_only c.seat c.serial updPending rNone 0
  rw [eq]
  refine ⟨?_, fun last => ?_⟩
  · unfold State.commitOf
    rw [only.keeps (·.fab.commits) (fun _ _ => rfl)]
    exact State.commitOf_setCommit (c := d) hc
  · exact (({ s.setCommit d with twin := tw } : State).report_seat_last last (by decide) (by decide) (by decide)).1

/-- PREPARE_DONE with no failed check (R69 to R72). -/
theorem prepareDone_answers_passed {s : State} {serial : Nat} {c : Commit} (hc : s.commitOf serial = some c)
    (hp : c.prepared = false) (ha : c.applied = false) (hby : c.by_ = .seat) (hn : c.next = false) (ht : c.timed = false)
    (hl : s.lockPri = false) (hpeer : s.twin.prepared = []) (hf : s.failures c = []) :
    let p := s.render.rsi + 1
    let sample := ∃ g, (g, 0) ∈ c.kinds
    let block := ∃ g, (g, 1) ∈ c.kinds
    Answers (.prepareDone serial) s (fun t => ∃ (i : Nat) (late : Bool),
      t.commitOf serial = some { c with prepared := true, applyAt := i, late := late } ∧
      (s.stopped = true → i = s.render.rsi ∧ late = false) ∧
      (s.stopped = false → c.newBlock s = false → ∃ base, (sample → base = max c.at_ p) ∧ (¬ sample → base = p) ∧
        (¬ block → i = base) ∧ (block → base ≤ i ∧ i < base + s.blockSize ∧ i % s.blockSize = 0) ∧
        (late = true ↔ sample ∧ c.at_ < p)) ∧
      (Map.get 0 c.seat s.fab.lastStrobe = serial →
        t.fld (.updateBank c.seat) Reg.Update.UPD_RESULT_STATE = updPending)) := by
  obtain rfl := State.commitOf_serial hc
  have passed : execPrepareDone c.serial s = settle (s.prepared c) := by
    rw [execPrepareDone_eq hc hp ha hby hl hpeer, if_pos hf]
  obtain ⟨found, shown⟩ := State.prepared_spec hc hby
  refine ⟨_, passed, (s.applySample c).1, (s.applySample c).2, ?_, fun hs => ?_, fun hs hb => ?_, fun last => ?_⟩
  · rw [State.commitOf_settled, found]
  · rw [State.applySample_stopped c hs]
    exact ⟨rfl, rfl⟩
  · exact State.applySample_running hs hn ht hb
  · exact (State.settled_fld _ _ _ (bank_not_statusWord _ _)).trans (shown last)

/-- One failed check gives its own reason and page (R70). -/
theorem State.verdict_single (s : State) {bad : Bad} (ha : bad.absent = false) (hp : bad.page < 4096) :
    s.verdict [bad] = ((bad.reason, bad.page), s) := by
  have low : min 0xFFFFFF bad.page = bad.page := Nat.min_eq_right (by omega)
  simp only [State.verdict, List.foldl_cons, List.foldl_nil, low, List.filter_cons, ha, Bool.false_eq_true, if_false,
    List.filter_nil, List.isEmpty_nil, Bool.true_or, decide_true, if_true, List.map_cons, List.map_nil]
  rfl

/-- A commit of a seat that ends without applying: it is gone, its units have STAGED_PENDING again, and its result shows
(R57, R70, R591). -/
theorem State.endCommit_spec (s : State) {c : Commit} {state reason page : Nat} (hby : c.by_ = .seat) (hs : state < 16)
    (hr : reason < 256) (hp : page < 4096) :
    let t := s.endCommit c state reason page
    t.commitOf c.serial = none ∧ (∀ b ∈ c.wasPending, t.isPending b = true) ∧
      (Map.get 0 c.seat s.fab.lastStrobe = c.serial →
        t.fld (.updateBank c.seat) Reg.Update.UPD_RESULT_STATE = state ∧
        t.fld (.updateBank c.seat) Reg.Update.UPD_RESULT_REASON = reason ∧
        t.fld (.updateBank c.seat) Reg.Update.UPD_RESULT_PAGE = page) := by
  let u := s.withCommits (s.fab.commits.filter (·.serial ≠ c.serial))
  obtain ⟨p, pending⟩ := State.foldl_setPending_shape true c.wasPending u
  have set (b : Blk) (hb : b ∈ c.wasPending) : Map.get false b.base p = true := by
    have := State.isPending_foldl_setPending true (b := b) c.wasPending u (.inl hb)
    rw [pending] at this
    exact this
  obtain ⟨tw, told⟩ := ({ u with fab := { u.fab with stagedPending := p } } : State).tellPeer_shape (.commitAt c.serial none)
  have eq : s.endCommit c state reason page =
      ({ u with twin := tw, fab := { u.fab with stagedPending := p } } : State).showPending.report .seat c.seat c.serial
        state reason page := by
    unfold State.endCommit
    dsimp only
    rw [show ({ s with fab := { s.fab with commits := s.fab.commits.filter (·.serial ≠ c.serial) } } : State) = u from rfl,
      pending, if_neg (by rw [hby]; decide), told, hby]
  have shown := ({ u with twin := tw, fab := { u.fab with stagedPending := p } } : State).showPending_only
  have only := shown.mono (vs := pendingWords ++ resultWords c.seat) (fun k hk => List.mem_append_left _ hk)
  have reported := ((({ u with twin := tw, fab := { u.fab with stagedPending := p } } : State).showPending.report_seat_only
    c.seat c.serial state reason page).mono (vs := pendingWords ++ resultWords c.seat) (fun k hk => List.mem_append_right _ hk))
  have all := only.trans reported
  rw [eq]
  refine ⟨?_, fun b hb => ?_, fun last => ?_⟩
  · unfold State.commitOf
    rw [all.keeps (·.fab.commits) (fun _ _ => rfl)]
    exact find_filtered_serial _ _
  · unfold State.isPending
    rw [all.keeps (·.fab.stagedPending) (fun _ _ => rfl)]
    exact set b hb
  · refine State.report_seat_last _ ?_ hs hr hp
    rw [shown.keeps (·.fab.lastStrobe) (fun _ _ => rfl)]
    exact last

/-- PREPARE_DONE with one failed check of a present unit (R70). -/
theorem prepareDone_answers_failed {s : State} {serial : Nat} {c : Commit} {bad : Bad} (hc : s.commitOf serial = some c)
    (hp : c.prepared = false) (ha : c.applied = false) (hby : c.by_ = .seat) (hl : s.lockPri = false)
    (hpeer : s.twin.prepared = []) (hf : s.failures c = [bad]) (habs : bad.absent = false) (hr : bad.reason < 256)
    (hpage : bad.page < 4096) :
    Answers (.prepareDone serial) s (fun t =>
      t.commitOf serial = none ∧ (∀ b ∈ c.wasPending, t.isPending b = true) ∧
      (Map.get 0 c.seat s.fab.lastStrobe = serial →
        t.fld (.updateBank c.seat) Reg.Update.UPD_RESULT_STATE = updFailed ∧
        t.fld (.updateBank c.seat) Reg.Update.UPD_RESULT_REASON = bad.reason ∧
        t.fld (.updateBank c.seat) Reg.Update.UPD_RESULT_PAGE = bad.page)) := by
  obtain rfl := State.commitOf_serial hc
  have failed : execPrepareDone c.serial s = settle (s.endCommit c updFailed bad.reason bad.page) := by
    rw [execPrepareDone_eq hc hp ha hby hl hpeer, hf, if_neg (List.cons_ne_nil _ _), s.verdict_single habs hpage]
  obtain ⟨gone, pending, shown⟩ := s.endCommit_spec (state := updFailed) hby (by decide) hr hpage
  refine ⟨_, failed, ?_, fun b hb => ?_, fun last => ?_⟩
  · rw [State.commitOf_settled, gone]
  · rw [State.isPending_settled, pending b hb]
  · simp only [State.settled_fld _ (.updateBank c.seat) _ (bank_not_statusWord c.seat _)]
    exact shown last

/-- Settles O12: a prepare that passes, and one that fails. -/
theorem prepareFixesTheApplySample : Obligations.PrepareFixesTheApplySample :=
  fun _ _ _ hc hp ha hby hn ht _ hl hpeer =>
    ⟨fun hf => prepareDone_answers_passed hc hp ha hby hn ht hl hpeer hf,
      fun _ hf habs hr hpage => prepareDone_answers_failed hc hp ha hby hl hpeer hf habs hr hpage⟩

end Sys2Proof.Machine
end

section
/-! PROOFS. The application of a commit of one object record: its captured values in force, its serial and its result shown
(R56, R71 to R73, R591). -/

namespace Sys2Proof.Machine

open Sys2Proof

/-! The fields of an object record -/

/-- The fields of an object record fit their words and lie apart from one another (R81). -/
theorem obj_fields_apart : ∀ f ∈ Reg.Obj.fields, Fits f ∧ ∀ g ∈ Reg.Obj.fields, g = f ∨ Apart g f := by
  unfold Fits
  decide +kernel

/-- A taken record: every RW field but MOTION.CMD has its captured value (R56, R82). -/
theorem takeFields_obj (act vals : RegMap) (n : Nat) {f : Fld}
    (hf : f ∈ (Blk.obj n).allFields) (hrw : f.acc = .rw) (hm : f ≠ Reg.Obj.MOTION_CMD) :
    regGet (takeFields act vals (.obj n)) (Blk.obj n).base f = regGet vals (Blk.obj n).base f := by
  obtain ⟨fits, apart⟩ := obj_fields_apart f hf
  unfold takeFields
  rw [← List.foldl_filter (p := fun f => f.acc = .rw &&
    !(f = Reg.Obj.MOTION_CMD && regGet vals (Blk.obj n).base f = 0))
    (f := fun m f => regPut m (Blk.obj n).base f (regGet vals (Blk.obj n).base f))]
  rw [regGet_foldl_regPut fits (List.mem_filter.mpr ⟨hf, by simp [hrw, hm]⟩)
    (fun g hg => apart g (List.mem_of_mem_filter hg))]
  exact Nat.mod_eq_of_lt (regGet_lt _ _ _ fits)

/-! The words that the application shows -/

/-- The words of HOLD, of pending groups, and of a seat's result: what the end of a commit shows beside its units. -/
def commitWords (q : Nat) : List Nat :=
  [Reg.Update.HOLD_COUNT, Reg.Update.HOLD_FIRST, Reg.Update.HOLD_SERIAL].map (wordAt .update) ++ pendingWords ++
    [wordAt (.updateBank q) Reg.Update.UPD_APPLIED_AT_LO, wordAt (.updateBank q) Reg.Update.UPD_APPLIED_AT_HI] ++
    resultWords q

/-- They lie in the UPDATE page and in its banks. -/
theorem commitWords_far (q : Nat) {k : Nat} (h : 0x2000 ≤ k) (h' : k < 0x2000000) : k ∉ commitWords q := by
  have low : ∀ k ∈ [Reg.Update.HOLD_COUNT, Reg.Update.HOLD_FIRST, Reg.Update.HOLD_SERIAL].map (wordAt .update) ++
    pendingWords, k < 0x2000 := by decide
  have bank (f : Fld) : 0x2000000 ≤ wordAt (.updateBank q) f := by simp only [wordAt, Blk.base]; omega
  intro hk
  rcases List.mem_append.mp hk with hk | hk
  · rcases List.mem_append.mp hk with hk | hk
    · exact Nat.not_le.mpr (low k hk) h
    · rcases List.mem_pair.mp hk with rfl | rfl <;> exact Nat.not_le.mpr h' (bank _)
  · rcases List.mem_pair.mp hk with rfl | rfl <;> exact Nat.not_le.mpr h' (bank _)

/-- HOLD shows the units in fault-hold (R443). -/
theorem State.showHeld_only (s : State) (q : Nat) : OnlyWords s s.showHeld (commitWords q) := by
  have hold (t : State) (f : Fld) (v : Nat) (hf : f ∈ [Reg.Update.HOLD_COUNT, Reg.Update.HOLD_FIRST, Reg.Update.HOLD_SERIAL])
      (ht : OnlyWords s t (commitWords q)) : OnlyWords s (t.set .update f v) (commitWords q) := by
    refine ht.set_in _ f v ?_
    simp only [commitWords, List.append_assoc]
    exact List.mem_append_left _ (List.mem_map_of_mem hf)
  unfold State.showHeld
  exact hold _ _ _ (by decide) (hold _ _ _ (by decide) (hold _ _ _ (by decide) (OnlyWords.refl s _)))

/-- An object record that leaves fault-hold changes what HOLD shows. -/
theorem State.unhold_obj (s : State) (q n : Nat) :
    ∃ held, OnlyWords { s with fab := { s.fab with held := held } } (s.unhold (.obj n)) (commitWords q) := by
  unfold State.unhold
  split
  · exact ⟨_, State.showHeld_only _ q⟩
  · exact ⟨s.fab.held, OnlyWords.refl s _⟩

/-- UPD_APPLIED_AT of a seat's strobe (R591). -/
theorem State.reportAppliedAt_seat_only (s : State) {c : Commit} (hby : c.by_ = .seat) (i : Nat) :
    OnlyWords s (s.reportAppliedAt c i) (commitWords c.seat) := by
  have shown (t : State) (f : Fld) (v : Nat)
      (hf : wordAt (.updateBank c.seat) f ∈ [wordAt (.updateBank c.seat) Reg.Update.UPD_APPLIED_AT_LO,
        wordAt (.updateBank c.seat) Reg.Update.UPD_APPLIED_AT_HI])
      (ht : OnlyWords s t (commitWords c.seat)) : OnlyWords s (t.set (.updateBank c.seat) f v) (commitWords c.seat) := by
    refine ht.set_in _ f v ?_
    exact List.mem_append_left _ (List.mem_append_right _ hf)
  unfold State.reportAppliedAt State.set64
  rw [hby]
  dsimp only
  split
  · exact shown _ _ _ (by simp) (shown _ _ _ (by simp) (OnlyWords.refl s _))
  · exact OnlyWords.refl s _

/-! One object record applies -/

/-- The state with the taken words of an object record. -/
def State.withTaken (s : State) (c : Commit) (n : Nat) (changes : List Change) (held : List (Blk × Nat)) : State :=
  { s with changes := changes, fab := { s.fab with act := takeFields s.fab.act c.vals (.obj n), held := held } }

/-- An object record of a seat's commit that commands no motion: its words are taken, its page shows the serial, and its
fault-hold ends (R73, R442). -/
theorem State.applyUnit_obj (s was : State) {c : Commit} (i n : Nat) (hby : c.by_ = .seat)
    (hcmd : regGet c.vals (Blk.obj n).base Reg.Obj.MOTION_CMD = 0) : ∃ changes held u,
    OnlyWords (s.withTaken c n changes held) u (commitWords c.seat) ∧
      s.applyUnit was c i (.obj n) = u.set (.objPage (n / 8)) Reg.Hdr.APPLIED_COMMIT c.serial := by
  have taken : ∃ changes, s.newWords (.obj n) (takeUnit s.fab.act c.vals (.obj n)) i = s.withTaken c n changes s.fab.held := by
    have unit : takeUnit s.fab.act c.vals (.obj n) = takeFields s.fab.act c.vals (.obj n) := rfl
    unfold State.newWords
    rw [unit]
    split
    · next same =>
      refine ⟨s.changes, ?_⟩
      unfold State.withTaken
      rw [same]
    · exact ⟨_, rfl⟩
  obtain ⟨changes, taken⟩ := taken
  obtain ⟨held, only⟩ := (s.withTaken c n changes s.fab.held).unhold_obj c.seat n
  refine ⟨changes, held, _, only, ?_⟩
  unfold State.applyUnit
  simp only [taken, hby, hcmd, reduceCtorEq, if_false, Nat.zero_ne_one, OfNat.zero_ne_ofNat, or_self]
  rfl

/-- The state in which a commit is in flight no more and its result shows (R72, R591). -/
def State.commitFinal (v : State) (c : Commit) : State :=
  (v.withCommits (v.fab.commits.filter (·.serial ≠ c.serial))).report .seat c.seat c.serial updApplied
    (if c.late then rLate else rNone) 0

/-- A commit as its units have applied at an index: it waits for none. -/
def Commit.appliedAt (c : Commit) (i tick : Nat) : Commit :=
  { c with applied := true, applyAt := i, tick := tick, waiting := [] }

/-- The end of a seat's commit that waits for no unit and lost none, from the state in which its units have applied: its
apply sample shows, and it is final (R72, R441, R591). -/
def State.commitDone (u : State) (c : Commit) (i : Nat) : State :=
  ((({ u with twin := { u.twin with commitSince := true } } : State).setCommit
    (c.appliedAt i u.render.tick)).showPending.reportAppliedAt (c.appliedAt i u.render.tick) i).commitFinal c

/-- A seat's commit that waits for no unit and lost none is final as APPLIED (R441, R591). -/
theorem State.finalResult_applied (v : State) {c : Commit} (i tick : Nat) (hl : c.lost = []) (hp : c.peerLost = none)
    (hby : c.by_ = .seat) : v.finalResult (c.appliedAt i tick) = v.commitFinal c := by
  have fields : (c.appliedAt i tick).waiting = [] ∧ (c.appliedAt i tick).lost = [] ∧
      (c.appliedAt i tick).peerLost = none ∧ (c.appliedAt i tick).by_ = .seat := ⟨rfl, hl, hp, hby⟩
  obtain ⟨waiting, lost, peer, by_⟩ := fields
  unfold State.finalResult
  simp only [waiting, lost, peer, by_, List.isEmpty_nil, Bool.not_true, Bool.false_eq_true, if_false, List.map_nil,
    Option.toList_none, List.append_nil]
  rfl

/-- A commit of one object record and nothing else applies as that unit, at the held index or at its apply sample, and is
final at once (R71, R72, R441). -/
theorem State.applyCommit_obj {s : State} {c : Commit} {n : Nat} (hb : c.blks = [.obj n]) (hl : c.lost = [])
    (hp : c.peerLost = none) (hby : c.by_ = .seat) :
    s.applyCommit c =
      (s.applyUnit s c (if s.stopped then s.render.rsi else c.applyAt) (.obj n)).commitDone c
        (if s.stopped then s.render.rsi else c.applyAt) := by
  have clock : s.waitsForClock c (.obj n) = false := rfl
  have rate : c.newRate s = false := by simp [Commit.newRate, Commit.has, hb]
  have block : c.newBlock s = false := by simp [Commit.newBlock, Commit.has, hb]
  have slow : c.blks.filter (s.waitsForClock c) = [] := by simp [hb, clock]
  have units (f : State → Blk → State) (t : State) :
      (c.blks.filter (fun b => !([] : List Blk).contains b)).foldl f t = f t (.obj n) := by
    simp [hb]
  unfold State.commitDone
  rw [← State.finalResult_applied _ (if s.stopped then s.render.rsi else c.applyAt)
    (s.applyUnit s c (if s.stopped then s.render.rsi else c.applyAt) (.obj n)).render.tick hl hp hby]
  unfold State.applyCommit
  simp only [rate, block, slow, units, Bool.false_and, Bool.false_eq_true, if_false]
  generalize s.applyUnit s c (if s.stopped then s.render.rsi else c.applyAt) (.obj n) = u
  rfl

/-- A final commit is in flight no more, and the result of the seat's last strobe shows. -/
theorem State.commitFinal_spec {x v : State} {c : Commit} (shown : OnlyWords x v (commitWords c.seat)) :
    ∃ l, l.find? (·.serial = c.serial) = none ∧
      OnlyWords (x.withCommits l) (v.commitFinal c) (commitWords c.seat) ∧
      (Map.get 0 c.seat x.fab.lastStrobe = c.serial →
        (v.commitFinal c).fld (.updateBank c.seat) Reg.Update.UPD_RESULT_STATE = updApplied ∧
        (v.commitFinal c).fld (.updateBank c.seat) Reg.Update.UPD_RESULT_REASON = (if c.late then rLate else rNone)) := by
  unfold State.commitFinal
  have reason : (if c.late then rLate else rNone) < 256 := by split <;> decide
  have cleared := shown.withCommits (v.fab.commits.filter (·.serial ≠ c.serial))
  generalize v.withCommits (v.fab.commits.filter (·.serial ≠ c.serial)) = w at cleared
  have reported := (w.report_seat_only c.seat c.serial updApplied (if c.late then rLate else rNone) 0).mono
    (vs := commitWords c.seat) (fun k hk => List.mem_append_right _ hk)
  refine ⟨_, find_filtered_serial v.fab.commits c.serial, cleared.trans reported, fun last => ?_⟩
  have before : Map.get 0 c.seat w.fab.lastStrobe = c.serial := by
    rw [cleared.keeps (·.fab.lastStrobe) (fun _ _ => rfl)]
    exact last
  obtain ⟨state, why, -⟩ := w.report_seat_last (state := updApplied) (page := 0) before (by decide) reason (by decide)
  exact ⟨state, why⟩

/-- The end of a commit changes words of UPDATE, the commits in flight and what is told to the peer; the result of the
seat's last strobe shows. -/
theorem State.commitDone_spec (u : State) {c : Commit} (i : Nat) (hby : c.by_ = .seat) :
    ∃ tw l, l.find? (·.serial = c.serial) = none ∧
      OnlyWords { u.withCommits l with twin := tw } (u.commitDone c i) (commitWords c.seat) ∧
      (Map.get 0 c.seat u.fab.lastStrobe = c.serial →
        (u.commitDone c i).fld (.updateBank c.seat) Reg.Update.UPD_RESULT_STATE = updApplied ∧
        (u.commitDone c i).fld (.updateBank c.seat) Reg.Update.UPD_RESULT_REASON = (if c.late then rLate else rNone)) := by
  have pendingIn : ∀ k ∈ pendingWords, k ∈ commitWords c.seat := fun k hk =>
    List.mem_append_left _ (List.mem_append_left _ (List.mem_append_right _ hk))
  have shown (x : State) (d : Commit) (hd : d.by_ = .seat) (hs : d.seat = c.seat) :
      OnlyWords x (x.showPending.reportAppliedAt d i) (commitWords c.seat) :=
    (x.showPending_only.mono pendingIn).trans (hs ▸ x.showPending.reportAppliedAt_seat_only hd i)
  obtain ⟨l, gone, only, result⟩ := State.commitFinal_spec
    (shown (({ u with twin := { u.twin with commitSince := true } } : State).setCommit (c.appliedAt i u.render.tick))
      (c.appliedAt i u.render.tick) hby rfl)
  exact ⟨_, l, gone, only, result⟩

/-- COMMIT_APPLY of one object record once its sample has come, or while the render is stopped (R71 to R73). -/
theorem commitApply_answers_due {s : State} {serial n : Nat} {c : Commit} (hc : s.commitOf serial = some c)
    (hp : c.prepared = true) (ha : c.applied = false) (hb : c.blks = [.obj n]) (hn : n < 1024) (hby : c.by_ = .seat)
    (hl : c.lost = []) (hpeer : c.peerLost = none) (hcmd : regGet c.vals (Blk.obj n).base Reg.Obj.MOTION_CMD = 0)
    (hdue : s.stopped = true ∨ c.applyAt ≤ s.render.rsi) :
    Answers (.commitApply serial) s (fun t =>
      (∀ f ∈ (Blk.obj n).allFields, f.acc = .rw → f ≠ Reg.Obj.MOTION_CMD →
        t.fld (.obj n) f = regGet c.vals (Blk.obj n).base f) ∧
      t.fld (.objPage (n / 8)) Reg.Hdr.APPLIED_COMMIT = serial % 2 ^ 32 ∧ t.commitOf serial = none ∧
      t.objs = s.objs ∧ t.fab.stg = s.fab.stg ∧
      (Map.get 0 c.seat s.fab.lastStrobe = serial →
        t.fld (.updateBank c.seat) Reg.Update.UPD_RESULT_STATE = updApplied ∧
        t.fld (.updateBank c.seat) Reg.Update.UPD_RESULT_REASON = (if c.late then rLate else rNone))) := by
  obtain rfl := State.commitOf_serial hc
  have applies : execCommitApply c.serial s = settle (s.applyCommit c) := by
    have due : (s.stopped || decide (c.applyAt ≤ s.render.rsi)) = true := by simpa using hdue
    simp only [execCommitApply, hc, hp, ha, due, Bool.not_false, Bool.and_self, if_true]
  obtain ⟨changes, held, u, unit, applied⟩ :=
    s.applyUnit_obj s (if s.stopped then s.render.rsi else c.applyAt) n hby hcmd
  obtain ⟨tw, l, gone, only, result⟩ := (u.set (.objPage (n / 8)) Reg.Hdr.APPLIED_COMMIT c.serial).commitDone_spec
    (if s.stopped then s.render.rsi else c.applyAt) hby
  rw [← applied, ← State.applyCommit_obj hb hl hpeer hby, applied] at only result
  have all := only.settled
  have field (b : Blk) (f : Fld) (h : 0x18000 ≤ wordAt b f) (h' : wordAt b f < 0x2000000) :
      (s.applyCommit c).settled.fld b f = (u.set (.objPage (n / 8)) Reg.Hdr.APPLIED_COMMIT c.serial).fld b f :=
    all.fld_eq (commitWords_far _ (by omega) h') (statusWords_below h)
  refine ⟨_, applies, fun f hf hrw hm => ?_, ?_, ?_, ?_, ?_, fun last => ?_⟩
  · have off : f.off < 0x80 := by
      have : ∀ f ∈ Reg.Obj.fields, f.off < 0x80 := by decide
      exact this f hf
    rw [field _ _ (by simp only [wordAt, Blk.base]; omega) (by simp only [wordAt, Blk.base]; omega),
      State.fld_set_word _ _ _ _ _ _ (by simp only [Blk.base, Reg.Hdr.APPLIED_COMMIT]; omega),
      unit.fld_eq (commitWords_far _ (by simp only [wordAt, Blk.base]; omega) (by simp only [wordAt, Blk.base]; omega))
        (obj_not_statusWord n f)]
    exact takeFields_obj _ _ n hf hrw hm
  · rw [field _ _ (by simp only [wordAt, Blk.base]; omega)
      (by simp only [wordAt, Blk.base, Reg.Hdr.APPLIED_COMMIT]; omega)]
    exact State.fld_set_same _ _ _ _ ⟨by decide, by decide⟩
  · rw [State.commitOf_settled]
    unfold State.commitOf
    rw [only.keeps (·.fab.commits) (fun _ _ => rfl)]
    exact gone
  · rw [all.keeps (·.objs) (fun _ _ => rfl)]
    exact unit.keeps (·.objs) (fun _ _ => rfl)
  · rw [all.keeps (·.fab.stg) (fun _ _ => rfl)]
    exact unit.keeps (·.fab.stg) (fun _ _ => rfl)
  · simp only [State.settled_fld _ (.updateBank c.seat) _ (bank_not_statusWord c.seat _)]
    exact result ((congrArg (Map.get 0 c.seat) (unit.keeps (·.fab.lastStrobe) (fun _ _ => rfl))).trans last)

/-- COMMIT_APPLY before the apply sample, while the render runs (R71). -/
theorem commitApply_answers_early {s : State} {serial : Nat} {c : Commit} (hc : s.commitOf serial = some c)
    (hs : s.stopped = false) (h : s.render.rsi < c.applyAt) : Answers (.commitApply serial) s (OnlyWords s · []) := by
  have waits : execCommitApply serial s = settle s := by
    simp only [execCommitApply, hc, hs, Nat.not_le.mpr h, decide_false, Bool.or_self, Bool.and_false, Bool.false_eq_true,
      if_false]
  exact ⟨_, waits, s.settled_only⟩

/-- Settles O13: the commit applies when its sample has come, and not before. -/
theorem commitApplyTakesTheCapturedValues : Obligations.CommitApplyTakesTheCapturedValues :=
  fun _ _ _ _ hc hp ha hb hn hby _ _ hl hpeer hcmd =>
    ⟨fun hdue => commitApply_answers_due hc hp ha hb hn hby hl hpeer hcmd hdue,
      fun hs h => commitApply_answers_early hc hs h⟩

end Sys2Proof.Machine
end

section
/-! PROOFS. Commands that begin and end at once: what the beginning, the end and the grants that follow leave alone, and
the completion that the seat is given (R27, R379, R401, R402). -/

namespace Sys2Proof.Machine

open Sys2Proof

/-- The words in which grants are counted (R379). -/
def grantWords : List Nat := [wordAt .ringmaster Reg.Ringmaster.GRANTS, wordAt .ringmaster Reg.Ringmaster.LEAD_WAIT_PEAK]

/-- The states differ in the commands of the seats, the engines' work, the pool, and active words that count grants or
report an engine's state: what a command changes by beginning and ending, whatever it does. -/
structure CommandFrame (s t : State) : Prop where
  rest : { t with seats := s.seats, sched := s.sched, pool := s.pool, fab := { t.fab with act := s.fab.act } } = s
  words : SameWords s t grantWords
  sd : ∀ q, (t.seat q).sd = (s.seat q).sd
  key : ∀ q, t.fld (.seat q) Reg.Seat.STATUS_KEY_VALID = s.fld (.seat q) Reg.Seat.STATUS_KEY_VALID

theorem CommandFrame.refl (s : State) : CommandFrame s s := ⟨rfl, fun _ _ _ => rfl, fun _ => rfl, fun _ => rfl⟩

theorem CommandFrame.trans {s t u : State} (h : CommandFrame s t) (k : CommandFrame t u) : CommandFrame s u where
  rest := (congrArg (fun x : State => { x with
    seats := s.seats, sched := s.sched, pool := s.pool, fab := { x.fab with act := s.fab.act } }) k.rest).trans h.rest
  words a ha hs := (k.words a ha hs).trans (h.words a ha hs)
  sd q := (k.sd q).trans (h.sd q)
  key q := (k.key q).trans (h.key q)

/-- What does not depend on what may differ is the same. -/
theorem CommandFrame.keeps {β : Type} {s t : State} (h : CommandFrame s t) (view : State → β)
    (hv : ∀ (r : State) (a : Map SeatState) (b : Sched) (c : Pool) (m : RegMap),
      view { r with seats := a, sched := b, pool := c, fab := { r.fab with act := m } } = view r) : view t = view s :=
  (hv t s.seats s.sched s.pool s.fab.act).symm.trans (congrArg view h.rest)

/-- A field in no such word is the same. -/
theorem CommandFrame.fld_eq {s t : State} (h : CommandFrame s t) {b : Blk} {f : Fld} (hw : wordAt b f ∉ grantWords)
    (hs : wordAt b f ∉ statusWords) : t.fld b f = s.fld b f := by
  have word := h.words _ hw hs
  simp only [State.fld, regGet]
  rw [show b.base + f.off = wordAt b f from rfl, word]

/-- So is a field of a page above those of the seats. -/
theorem CommandFrame.fld_above {s t : State} (h : CommandFrame s t) {b : Blk} (hb : 0x18000 ≤ b.base) (f : Fld) :
    t.fld b f = s.fld b f := by
  have low : ∀ k ∈ grantWords, k < 0x18000 := by decide
  have at_ : 0x18000 ≤ wordAt b f := Nat.le_add_right_of_le hb
  exact h.fld_eq (fun hk => Nat.not_lt.mpr at_ (low _ hk)) (statusWords_below at_)

theorem CommandFrame.obj_fld {s t : State} (h : CommandFrame s t) (n : Nat) (f : Fld) : t.fld (.obj n) f = s.fld (.obj n) f :=
  h.fld_above (by simp only [Blk.base]; omega) f

/-! Steps within the frame -/

/-- The seats' words lie above those of the other engines. -/
theorem CommandFrame.setRingmaster (s : State) {f : Fld} (v : Nat)
    (hf : wordAt .ringmaster f ∈ grantWords ∨ wordAt .ringmaster f ∈ statusWords) (ho : f.off < 0x1000) :
    CommandFrame s (s.set .ringmaster f v) where
  rest := rfl
  words k hk hs := State.set_word s _ f v k (fun e => hf.elim (fun h => hk (e ▸ h)) (fun h => hs (e ▸ h)))
  sd _ := rfl
  key q := State.fld_set_word _ _ _ _ _ _ (by simp only [Blk.base, Reg.Seat.STATUS_KEY_VALID]; omega)

theorem CommandFrame.setSched (s : State) (w : Sched) : CommandFrame s { s with sched := w } :=
  ⟨rfl, fun _ _ _ => rfl, fun _ => rfl, fun _ => rfl⟩

theorem CommandFrame.freePool (s : State) (seat tag : Nat) : CommandFrame s (s.freePool seat tag) :=
  ⟨rfl, fun _ _ _ => rfl, fun _ => rfl, fun _ => rfl⟩

/-- A seat of the module replaced by one with the same Stagedoor state. -/
theorem CommandFrame.setSeat (s : State) {n : Nat} (v : SeatState) (hn : n < 8) (hv : v.sd = (s.seat n).sd) :
    CommandFrame s (s.setSeat n v) where
  rest := rfl
  words k _ hs := State.set_word _ _ _ _ k (fun e => hs (by
    rw [e]
    exact List.mem_append_right _ (List.mem_map.mpr ⟨n, List.mem_range.mpr hn, rfl⟩)))
  sd q := by
    rw [State.seat_setSeat]
    split
    · next e => rw [e, hv]
    · rfl
  key q := State.fld_set_bits _ _ _ _ _ _ (by decide)

theorem CommandFrame.setCmd (s : State) {c : Cmd} (hc : c.seat < 8) : CommandFrame s (s.setCmd c) :=
  CommandFrame.setSeat s _ hc rfl

theorem CommandFrame.post (s : State) {c : Cmd} (hc : c.seat < 8) (st r0 r1 : Nat) (i : Bool) :
    CommandFrame s (s.post c st r0 r1 i) := by
  unfold State.post
  dsimp only
  split
  · exact CommandFrame.refl s
  · exact CommandFrame.setSeat s _ hc rfl

theorem CommandFrame.finish {s : State} {c : Cmd} (h : s.cmdOf c.seat c.tag = some c) (hf : c.final = false)
    (hw : c.waiters = []) (ht : c.tag < bootTag) (hc : c.seat < 8) (st r0 r1 : Nat) :
    CommandFrame s (s.finish c.seat c.tag st r0 r1) := by
  rw [State.finish_eq s _ _ _ _ _ c h hw, State.finish1_eq s c st r0 r1 h hf ht]
  exact ((CommandFrame.post s hc st r0 r1 false).trans (CommandFrame.setCmd _ (c := { c with
    started := true, final := true, waiters := [], bytes := [], work := [] }) hc)).trans (CommandFrame.freePool _ _ _)

theorem CommandFrame.opRuns (s : State) (flow : Nat) : CommandFrame s (s.opRuns flow) :=
  ⟨rfl, fun _ _ _ => rfl, fun q => by rw [State.seat_opRuns], fun _ => rfl⟩

theorem CommandFrame.grant (s : State) (e w : Nat) (r : Ready) : CommandFrame s (s.grant e w r) := by
  unfold State.grant State.setReady State.peak State.count
  dsimp only
  have queues (t : State) (l : List Ready) (w : Sched) : CommandFrame t
      { ({ t with sched := { t.sched with ready := l } } : State).set .ringmaster Reg.Ringmaster.READY_NOW l.length
        with sched := w } :=
    ((CommandFrame.setSched t _).trans (CommandFrame.setRingmaster _ _ (.inr (by decide)) (by decide))).trans
      (CommandFrame.setSched _ _)
  have runs (t : State) : CommandFrame t (if r.job.kind = .opStep then t.opRuns r.job.flow else t) := by
    split
    · exact CommandFrame.opRuns _ _
    · exact CommandFrame.refl _
  have peaks (t : State) (v : Nat) :
      CommandFrame t (if r.cls = 0 then t.set .ringmaster Reg.Ringmaster.LEAD_WAIT_PEAK v else t) := by
    split
    · exact CommandFrame.setRingmaster _ _ (.inl (by decide)) (by decide)
    · exact CommandFrame.refl _
  exact (((queues s _ _).trans (runs _)).trans (peaks _ _)).trans
    (CommandFrame.setRingmaster _ _ (.inl (by decide)) (by decide))

theorem CommandFrame.dispatch (s : State) : CommandFrame s s.dispatch := by
  unfold State.dispatch
  refine List.foldlRecOn (motive := CommandFrame s) _ _ (CommandFrame.refl s) (fun t ht e _ => ht.trans ?_)
  split
  · exact CommandFrame.refl t
  · split
    · exact CommandFrame.refl t
    · exact CommandFrame.grant _ _ _ _

/-- KEY_VALID shares its word with IN_FLIGHT, whose bits alone are brought up to date. -/
theorem State.settled_keyValid (s : State) (q : Nat) :
    s.settled.fld (.seat q) Reg.Seat.STATUS_KEY_VALID = s.fld (.seat q) Reg.Seat.STATUS_KEY_VALID := by
  have flight (t : State) (l : List Nat) : (l.foldl State.showFlight t).fld (.seat q) Reg.Seat.STATUS_KEY_VALID =
      t.fld (.seat q) Reg.Seat.STATUS_KEY_VALID :=
    foldl_keeps (f := State.showFlight) (State.fld · (.seat q) Reg.Seat.STATUS_KEY_VALID)
      (fun t _ _ => State.fld_set_bits _ _ _ _ _ _ (by decide)) t
  have below (t : State) (b : Blk) (f : Fld) (v : Nat) (h : b.base + f.off < 0x10000) :
      (t.set b f v).fld (.seat q) Reg.Seat.STATUS_KEY_VALID = t.fld (.seat q) Reg.Seat.STATUS_KEY_VALID :=
    State.fld_set_word _ _ _ _ _ _ (by simp only [Blk.base, Reg.Seat.STATUS_KEY_VALID] at h ⊢; omega)
  unfold State.settled State.showEngines State.setBit
  rw [flight, State.fld_set_bits _ _ _ _ _ _ (by decide), below _ _ _ _ (by decide), below _ _ _ _ (by decide),
    below _ _ _ _ (by decide)]

theorem CommandFrame.settled (s : State) : CommandFrame s s.settled where
  rest := by
    obtain ⟨m, shape⟩ := s.settled_shape
    rw [shape]
    rfl
  words k _ hs := State.settled_word s k hs
  sd q := by rw [State.seat_settled]
  key q := s.settled_keyValid q

/-! A command that may begin -/

/-- The state in which a command has begun. -/
def State.begun (s : State) (c : Cmd) : State := s.setCmd { c with started := true }

theorem State.begun_frame {s : State} {c : Cmd} {opcode : Nat} (h : Issued s c opcode) : CommandFrame s (s.begun c) := by
  obtain ⟨-, -, -, -, -, -, -, -, -, hq, -⟩ := h
  exact CommandFrame.setCmd s (c := { c with started := true }) hq

theorem State.begun_cmdOf {s : State} {c : Cmd} {opcode : Nat} (h : Issued s c opcode) :
    (s.begun c).cmdOf c.seat c.tag = some { c with started := true } := by
  obtain ⟨hc, -, -, -, hb, -⟩ := h
  exact State.cmdOf_setCmd s { c with started := true } c hc hb

theorem State.begun_done (s : State) (c : Cmd) (q : Nat) : ((s.begun c).seat q).done = (s.seat q).done :=
  State.done_setCmd _ _ _

theorem State.begun_cqOf (s : State) (c : Cmd) (seat sq : Nat) : (s.begun c).cqOf seat sq = s.cqOf seat sq :=
  State.cqOf_setCmd _ _ _ _

/-- The house seat may issue what only it may (R407). -/
theorem houseOnly_house {f : Cmd → State → State} {c : Cmd} (s : State) (h : c.seat = 0) : houseOnly f c s = f c s :=
  if_pos h

/-! A command that ends -/

/-- In a state in which the command stands as begun, it ends with its completion, and nothing else differs. -/
theorem completes_of_begun {s u : State} {c : Cmd} {opcode : Nat} (h : Issued s c opcode)
    (hc : u.cmdOf c.seat c.tag = some { c with started := true }) (hd : (u.seat c.seat).done = (s.seat c.seat).done)
    (hq : u.cqOf c.seat c.sq = s.cqOf c.seat c.sq) (st r0 r1 : Nat) :
    Completes s (u.finish c.seat c.tag st r0 r1) c st r0 r1 ∧ CommandFrame u (u.finish c.seat c.tag st r0 r1) := by
  obtain ⟨-, -, -, hf, -, hw, -, -, ht, h8, -⟩ := h
  refine ⟨?_, CommandFrame.finish (c := { c with started := true }) hc hf hw ht h8 st r0 r1⟩
  have entry : completionOf u { c with started := true } st r0 r1 false = completionOf s c st r0 r1 false := by
    rw [completionOf_started]
    simp only [completionOf, hq]
  rw [State.finish_eq u _ _ _ _ _ _ hc hw]
  refine ⟨?_, _, State.finish1_cmd u { c with started := true } st r0 r1 hc hf ht, rfl⟩
  rw [State.finish1_done u { c with started := true } st r0 r1 hc hf ht c.seat, if_pos rfl, entry, hd]

/-- The grants that follow and the status registers leave a completed command completed. -/
theorem Completes.after {s t : State} {c : Cmd} {st r0 r1 : Nat} (h : Completes s t c st r0 r1) :
    Completes s t.dispatch.settled c st r0 r1 := by
  obtain ⟨done, d, hd, final⟩ := h
  obtain ⟨d', hd', granted⟩ := State.cmdOf_dispatch _ _ _ _ hd
  refine ⟨?_, d', ?_, ?_⟩
  · rw [State.seat_settled, State.done_dispatch, done]
  · rw [State.cmdOf_settled, hd']
  · rcases granted with rfl | ⟨-, rfl⟩ <;> exact final

/-- A seat replaced by one with the same commands and completions. -/
theorem Completes.setSeat {s t : State} {c : Cmd} {st r0 r1 : Nat} (h : Completes s t c st r0 r1) (n : Nat) {v : SeatState}
    (hd : v.done = (t.seat n).done) (hc : v.cmds = (t.seat n).cmds) : Completes s (t.setSeat n v) c st r0 r1 := by
  obtain ⟨done, d, hd', final⟩ := h
  refine ⟨?_, d, ?_, final⟩
  · rw [State.seat_setSeat]
    split
    · next e => rw [hd, ← e, done]
    · exact done
  · unfold State.cmdOf at hd' ⊢
    rw [State.seat_setSeat]
    split
    · next e => rw [hc, ← e, hd']
    · exact hd'

/-- The step of a command that may begin, where what its opcode does ends it. -/
theorem answers_command {s : State} {c : Cmd} {opcode : Nat} {f : Cmd → State → State} {P : State → Prop} {i : Instr}
    (h : Issued s c opcode) (hi : exec i s = settle (s.command c.seat c.tag opcode f))
    (hP : P (f { c with started := true } (s.begun c)).dispatch.settled) : Answers i s P := by
  refine ⟨_, hi, ?_⟩
  rw [State.command_issued s c opcode f h]
  exact hP

/-- From the end of a command on: the grants that follow and the status registers. -/
theorem CommandFrame.after (t : State) : CommandFrame t t.dispatch.settled :=
  (CommandFrame.dispatch t).trans (CommandFrame.settled _)

/-- The step of a command that ends at once, after changes that leave the seats and their queues alone. -/
theorem answers_ended {s u : State} {c : Cmd} {opcode st r0 r1 : Nat} {f : Cmd → State → State} {P : State → Prop}
    {i : Instr} (h : Issued s c opcode) (hi : exec i s = settle (s.command c.seat c.tag opcode f))
    (hf : f { c with started := true } (s.begun c) = u.finish c.seat c.tag st r0 r1)
    (seats : u.seats = (s.begun c).seats) (queue : u.cqOf c.seat c.sq = (s.begun c).cqOf c.seat c.sq)
    (hP : ∀ t, CommandFrame u t → Completes s t c st r0 r1 → P t) : Answers i s P := by
  have same (q : Nat) : u.seat q = (s.begun c).seat q := by unfold State.seat; rw [seats]
  obtain ⟨ends, frame⟩ := completes_of_begun (u := u) h
    (by unfold State.cmdOf; rw [same]; exact State.begun_cmdOf h)
    (by rw [same, State.begun_done]) (queue.trans (State.begun_cqOf _ _ _ _)) st r0 r1
  refine answers_command h hi ?_
  rw [hf]
  exact hP _ (frame.trans (CommandFrame.after _)) ends.after

end Sys2Proof.Machine
end

section
/-! PROOFS. EQ_SET_LOAD writes sets that nothing names (R88, R91, R188), OBJ_BULK stages GAIN of a record (R94). -/

namespace Sys2Proof.Machine

open Sys2Proof

/-! Words written one after the other -/

/-- A store with words written from an address on. -/
def putWords (base : Nat) (ws : List Word) (m : Map Word) : Map Word :=
  ws.zipIdx.foldl (fun (m : Map Word) (e : Word × Nat) => m.put 0#32 (base + e.2) e.1) m

theorem get_putWords (base : Nat) (ws : List Word) (m : Map Word) (k : Nat) :
    Map.get 0#32 k (putWords base ws m) =
      if base ≤ k ∧ k < base + ws.length then ws.getD (k - base) 0#32 else Map.get 0#32 k m := by
  unfold putWords
  induction ws using List.reverseRecOn with
  | nil => exact (if_neg (by simp only [List.length_nil]; omega)).symm
  | append_singleton ws w ih =>
    have last : [w].zipIdx ws.length = [(w, ws.length)] := rfl
    rw [List.zipIdx_append, Nat.zero_add, last, List.foldl_append, List.foldl_cons, List.foldl_nil, Map.get_put, ih,
      List.length_append, List.length_singleton]
    by_cases at_ : k = base + ws.length
    · rw [if_pos at_, if_pos (by omega), at_, Nat.add_sub_cancel_left, List.getD_append_right _ _ _ _ (Nat.le_refl _),
        Nat.sub_self]
      rfl
    · rw [if_neg at_]
      by_cases inside : base ≤ k ∧ k < base + ws.length
      · rw [if_pos inside, if_pos (by omega), List.getD_append _ _ _ _ (by omega)]
      · rw [if_neg inside, if_neg (by omega)]

theorem length_fileWords (f : List Byte) : (fileWords f).length = f.length / 4 := by
  simp only [fileWords, List.length_map, List.length_range]

/-! The two stores of EQ sets -/

/-- The store of EQ sets that a load names: of the outputs, or of objects and buses. -/
def State.eqStore (s : State) (out : Bool) : Map Word := if out then s.outEq else s.motion.eqStore

def State.withEqStore (s : State) (out : Bool) (m : Map Word) : State :=
  if out then { s with outEq := m } else { s with motion := { s.motion with eqStore := m } }

theorem State.eqStore_withEqStore (s : State) (out : Bool) (m : Map Word) : (s.withEqStore out m).eqStore out = m := by
  cases out <;> rfl

theorem State.eqStore_withEqStore_other (s : State) (out : Bool) (m : Map Word) :
    (s.withEqStore out m).eqStore (!out) = s.eqStore (!out) := by
  cases out <;> rfl

theorem State.withEqStore_seats (s : State) (out : Bool) (m : Map Word) : (s.withEqStore out m).seats = s.seats := by
  cases out <;> rfl

theorem State.withEqStore_fab (s : State) (out : Bool) (m : Map Word) : (s.withEqStore out m).fab = s.fab := by
  cases out <;> rfl

theorem CommandFrame.eqStore {s t : State} (h : CommandFrame s t) (out : Bool) : t.eqStore out = s.eqStore out :=
  h.keeps (State.eqStore · out) (fun _ _ _ _ _ => rfl)

/-- A forwarded file joins what is told to the peer. -/
theorem State.forwardFile_shape (s : State) (c : Cmd) (f : List Byte) :
    ∃ l, s.forwardFile c f = { s with twin := { s.twin with out := l } } := by
  unfold State.forwardFile
  dsimp only
  split
  · exact ⟨_, rfl⟩
  · exact ⟨s.twin.out, rfl⟩

/-! EQ_SET_LOAD -/

/-- Which EQ sets the records name does not depend on the commands in flight. -/
theorem CommandFrame.eqSetUsed {s t : State} (h : CommandFrame s t) (out : Bool) (k : Nat) :
    t.eqSetUsed out k = s.eqSetUsed out k := by
  have staged (b : Blk) (f : Fld) : t.stg b f = s.stg b f := h.keeps (State.stg · b f) (fun _ _ _ _ _ => rfl)
  have commits : t.fab.commits = s.fab.commits := h.keeps (·.fab.commits) (fun _ _ _ _ _ => rfl)
  have model : t.model = s.model := h.keeps (·.model) (fun _ _ _ _ _ => rfl)
  have outs (n : Nat) : t.fld (.out n) Reg.Out.EQ_SET = s.fld (.out n) Reg.Out.EQ_SET :=
    h.fld_above (by simp only [Blk.base]; omega) _
  have objs (n : Nat) : t.fld (.obj n) Reg.Obj.EQ_SET = s.fld (.obj n) Reg.Obj.EQ_SET := h.obj_fld n _
  have buses (n : Nat) : t.fld (.bus n) Reg.Bus.EQ_SET = s.fld (.bus n) Reg.Bus.EQ_SET :=
    h.fld_above (by simp only [Blk.base]; omega) _
  unfold State.eqSetUsed
  simp only [outs, objs, buses, staged, commits, model]

/-- Words of one EQ set of a store, and its sets (R91, R188). -/
def eqSetWords (out : Bool) : Nat := if out then 80 else 40

/-- A load whose descriptor and length are right: refused where a set is in use, else written (R88, R91, R188). -/
theorem State.eqSetLoad_eq (s : State) {c : Cmd} {f : List Byte} {first count : Nat} {out : Bool}
    (hw : c.n 0 = first + 65536 * count + (if out then 2 ^ 31 else 0)) (h0 : 0 < count) (hc : count < 4096)
    (hfit : first + count ≤ (if out then 1024 else 4096)) (hf : f.length = 4 * eqSetWords out * count) :
    s.eqSetLoad c f =
      if first = 0 || (List.range count).any (fun k => s.eqSetUsed out (first + k)) then
        s.finish c.seat c.tag Status.busy
      else ((s.withEqStore out (putWords (eqSetWords out * first) (fileWords f) (s.eqStore out))).forwardFile c f).finish
        c.seat c.tag Status.ok count := by
  have hfirst : first < 4096 := by cases out <;> simp only [if_true, if_false, Bool.false_eq_true] at hfit <;> omega
  have store : decide (2 ^ 31 ≤ c.n 0) = out := by
    rw [hw]
    cases out <;> simp only [if_true, if_false, Bool.false_eq_true, decide_eq_true_eq, decide_eq_false_iff_not] <;> omega
  have firstIs : c.n 0 % 4096 = first := by rw [hw]; cases out <;> simp only [if_true, if_false, Bool.false_eq_true] <;> omega
  have countIs : c.n 0 / 65536 % 4096 = count := by
    rw [hw]; cases out <;> simp only [if_true, if_false, Bool.false_eq_true] <;> omega
  have reserved : c.n 0 / 4096 % 16 = 0 ∧ c.n 0 / 2 ^ 28 % 8 = 0 := by
    rw [hw]; cases out <;> simp only [if_true, if_false, Bool.false_eq_true] <;> omega
  unfold State.eqSetLoad
  simp only [store, firstIs, countIs, reserved.1, reserved.2]
  have valid : ¬ (0 ≠ 0 ∨ 0 ≠ 0 ∨ count = 0 ∨ (if out then 1024 else 4096) < first + count ∨
      f.length ≠ 4 * (if out then 80 else 40) * count) := by
    rintro (h | h | h | h | h)
    · exact h rfl
    · exact h rfl
    · exact Nat.ne_of_gt h0 h
    · exact Nat.not_lt.mpr hfit h
    · exact h hf
  rw [if_neg valid]
  cases out <;> rfl

/-- A command that reads a source that is right and at hand. -/
theorem State.withSource_eq {s : State} {c : Cmd} {opcode k : Nat} {host f : List Byte} (h : Issued s c opcode)
    (hs : s.sourceFault c k = none) (hb : s.sourceBytes c k host = some f) (g : Cmd → List Byte → State → State) :
    s.withSource c.seat c.tag opcode k host g = s.command c.seat c.tag opcode (fun c s => g c f s) := by
  unfold State.withSource
  simp only [h.1, hs, hb]

/-- EQ_SET_LOAD of sets that no record names (R91). -/
theorem eqSetLoad_answers_free {s : State} {c : Cmd} {data f : List Byte} {first count : Nat} {out : Bool}
    (h : Issued s c 0x22) (hs : s.sourceFault c 1 = none) (hb : s.sourceBytes c 1 data = some f)
    (hw : c.n 0 = first + 65536 * count + (if out then 2 ^ 31 else 0)) (h0 : 0 < count) (hc : count < 4096)
    (hfit : first + count ≤ (if out then 1024 else 4096)) (hf : f.length = 4 * eqSetWords out * count)
    (hfirst : 0 < first) (free : ∀ k, k < count → s.eqSetUsed out (first + k) = false) :
    Answers (.eqSetLoad c.seat c.tag data) s (fun t => Completes s t c Status.ok count 0 ∧
      t.eqStore (!out) = s.eqStore (!out) ∧
      ∀ w, Map.get 0#32 w (t.eqStore out) =
        if eqSetWords out * first ≤ w ∧ w < eqSetWords out * (first + count) then
          (fileWords f).getD (w - eqSetWords out * first) 0#32
        else Map.get 0#32 w (s.eqStore out)) := by
  have begun := State.begun_frame h
  have unused : ¬ (first = 0 || (List.range count).any (fun k => (s.begun c).eqSetUsed out (first + k))) = true := by
    simp only [Bool.or_eq_true, decide_eq_true_eq, List.any_eq_true, List.mem_range, not_or, not_exists, not_and,
      begun.eqSetUsed]
    exact ⟨Nat.ne_of_gt hfirst, fun k hk => by rw [free k hk]; decide⟩
  obtain ⟨l, told⟩ := ((s.begun c).withEqStore out
    (putWords (eqSetWords out * first) (fileWords f) ((s.begun c).eqStore out))).forwardFile_shape
      { c with started := true } f
  have words : eqSetWords out * first + (fileWords f).length = eqSetWords out * (first + count) := by
    rw [length_fileWords, hf, Nat.mul_assoc, Nat.mul_div_cancel_left _ (by decide), Nat.mul_add]
  refine answers_ended h (congrArg settle (State.withSource_eq h hs hb _))
    (((s.begun c).eqSetLoad_eq (c := { c with started := true }) hw h0 hc hfit hf).trans (if_neg unused)) ?_ ?_
    (fun t frame done => ⟨done, ?_, fun w => ?_⟩)
  · rw [told]
    exact State.withEqStore_seats _ _ _
  · rw [told]
    simp only [State.cqOf, State.fld, State.withEqStore_fab]
  · rw [frame.eqStore, told]
    exact (State.eqStore_withEqStore_other _ _ _).trans (begun.eqStore _)
  · rw [frame.eqStore, told]
    have stored (r : State) (m : Map Word) : ({ r.withEqStore out m with
        twin := { (r.withEqStore out m).twin with out := l } } : State).eqStore out = m :=
      State.eqStore_withEqStore r out m
    rw [stored, get_putWords, words, begun.eqStore]

/-- EQ_SET_LOAD of set 0, or of a set that a record names (R91, R188). -/
theorem eqSetLoad_answers_busy {s : State} {c : Cmd} {data f : List Byte} {first count : Nat} {out : Bool}
    (h : Issued s c 0x22) (hs : s.sourceFault c 1 = none) (hb : s.sourceBytes c 1 data = some f)
    (hw : c.n 0 = first + 65536 * count + (if out then 2 ^ 31 else 0)) (h0 : 0 < count) (hc : count < 4096)
    (hfit : first + count ≤ (if out then 1024 else 4096)) (hf : f.length = 4 * eqSetWords out * count)
    (used : first = 0 ∨ ∃ k, k < count ∧ s.eqSetUsed out (first + k) = true) :
    Answers (.eqSetLoad c.seat c.tag data) s (fun t => Completes s t c Status.busy 0 0 ∧
      ∀ o, t.eqStore o = s.eqStore o) := by
  have begun := State.begun_frame h
  have inUse : (first = 0 || (List.range count).any (fun k => (s.begun c).eqSetUsed out (first + k))) = true := by
    simpa only [Bool.or_eq_true, decide_eq_true_eq, List.any_eq_true, List.mem_range, begun.eqSetUsed] using used
  exact answers_ended h (congrArg settle (State.withSource_eq h hs hb _))
    (((s.begun c).eqSetLoad_eq (c := { c with started := true }) hw h0 hc hfit hf).trans (if_pos inUse)) rfl rfl
    (fun t frame done => ⟨done, fun o => (begun.trans frame).eqStore o⟩)

/-! OBJ_BULK -/

/-- OBJ_BULK of GAIN for one record whose values stand in the command: the checks in their order, then the staged value
(R49, R50, R94). -/
theorem State.objBulk_gain (s : State) {c : Cmd} {n : Nat} (hflag : c.flag 1 = false) (h0 : c.n 0 = n + 65536)
    (hn : n < 1024) (h1 : c.n 1 = 1) :
    s.objBulk c [] =
      if s.model.objects ≤ n then s.finish c.seat c.tag Status.absentUnit
      else if !s.owns c.seat (.obj n) || (c.seat ≠ 0 && s.bit (.objPage (n / 8)) Reg.Hdr.LOCK) then
        s.finish c.seat c.tag Status.notOwner
      else (s.stageFld (.obj n) Reg.Obj.GAIN (c.n 2)).finish c.seat c.tag Status.ok 1 := by
  have first : c.n 0 % 2048 = n := by omega
  have count : c.n 0 / 65536 % 2048 = 1 := by omega
  have reserved : c.n 0 / 2048 % 32 = 0 ∧ c.n 0 / 2 ^ 27 = 0 := by omega
  have value : ((((c.params.drop 2).take 8).getD 0 0#32) : Word).toNat = c.n 2 := by
    simp only [Cmd.n, Cmd.p, List.getD_eq_getElem?_getD, List.getElem?_take, List.getElem?_drop]
    rfl
  have good (law : Nat) (w : List Word) : s.bulkBad n 1 (c.flag 0) w = false := by
    simp [State.bulkBad, Nat.testBit]
  have stage (w : List Word) : s.bulkStage n 1 (c.flag 0) w = s.stageFld (.obj n) Reg.Obj.GAIN (w.getD 0 0#32).toNat := by
    simp [State.bulkStage, Nat.testBit]
  have valid : ¬ (0 ≠ 0 ∨ 0 ≠ 0 ∨ 1 = 0 ∨ 1024 < 1 ∨ 1024 < n + 1 ∨ 128 ≤ 1 ∨
      (c.flag 1 = true ∧ ([] : List Byte).length < 32 * 1)) := by
    simp only [hflag, Bool.false_eq_true, false_and, or_false]
    omega
  unfold State.objBulk
  simp only [first, count, reserved.1, reserved.2, h1]
  rw [if_neg valid]
  simp only [hflag, Bool.false_eq_true, if_false, List.range_one, List.any_cons, List.any_nil, List.foldl_cons,
    List.foldl_nil, Nat.add_zero, Bool.or_false, good 0, stage, value, Nat.lt_succ_iff, Blk.page]

/-- The step of OBJ_BULK whose values stand in the command. -/
theorem exec_objBulk_inline {s : State} {c : Cmd} (h : Issued s c 0x18) (hflag : c.flag 1 = false) :
    exec (.objBulk c.seat c.tag []) s = settle (s.command c.seat c.tag 0x18 (fun c s => s.objBulk c [])) := by
  have step : exec (.objBulk c.seat c.tag []) s = execObjBulk c.seat c.tag [] s := rfl
  rw [step]
  unfold execObjBulk
  simp only [h.1, hflag, Bool.false_eq_true, if_false]

/-- Words of the object pages are not among those that a command's beginning and end change. -/
theorem CommandFrame.objPage_bit {s t : State} (h : CommandFrame s t) (p : Nat) (f : Fld) :
    t.bit (.objPage p) f = s.bit (.objPage p) f := by
  unfold State.bit
  rw [h.fld_above (by simp only [Blk.base]; omega)]

theorem CommandFrame.owns_obj {s t : State} (h : CommandFrame s t) (seat n : Nat) :
    t.owns seat (.obj n) = s.owns seat (.obj n) :=
  h.keeps (State.owns · seat (.obj n)) (fun _ _ _ _ _ => rfl)

/-- OBJ_BULK of GAIN for a record that the seat may write (R57, R94). -/
theorem objBulk_answers_staged {s : State} {c : Cmd} {n : Nat} (h : Issued s c 0x18) (hflag : c.flag 1 = false)
    (h0 : c.n 0 = n + 65536) (hn : n < 1024) (h1 : c.n 1 = 1) (hm : n < s.model.objects)
    (howns : s.owns c.seat (.obj n) = true) (hlock : s.bit (.objPage (n / 8)) Reg.Hdr.LOCK = false)
    (hg : s.groupOf (.obj n) ≠ 0xFF) :
    Answers (.objBulk c.seat c.tag []) s (fun t => Completes s t c Status.ok 1 0 ∧
      t.stg (.obj n) Reg.Obj.GAIN = c.n 2 ∧ t.isPending (.obj n) = true ∧ SameWords s t grantWords) := by
  have begun := State.begun_frame h
  have model : (s.begun c).model = s.model := begun.keeps (·.model) (fun _ _ _ _ _ => rfl)
  have group : (s.begun c).groupOf (.obj n) ≠ 0xFF := by
    rw [begun.keeps (State.groupOf · (.obj n)) (fun _ _ _ _ _ => rfl)]
    exact hg
  have mayWrite : ¬ (!(s.begun c).owns c.seat (.obj n) ||
      (c.seat ≠ 0 && (s.begun c).bit (.objPage (n / 8)) Reg.Hdr.LOCK)) = true := by
    rw [begun.owns_obj, begun.objPage_bit, howns, hlock]
    simp
  have staged : (s.begun c).stageFld (.obj n) Reg.Obj.GAIN (c.n 2) =
      ((s.begun c).setStg (.obj n) Reg.Obj.GAIN (c.n 2)).setPending (.obj n) true := if_neg group
  refine answers_ended h (exec_objBulk_inline h hflag)
    (((s.begun c).objBulk_gain (c := { c with started := true }) hflag h0 hn h1).trans
      ((if_neg (by rw [model]; omega)).trans (if_neg mayWrite))) ?_ ?_ (fun t frame done => ⟨done, ?_, ?_, ?_⟩)
  · exact (congrArg State.seats staged).trans rfl
  · exact (congrArg (State.cqOf · c.seat c.sq) staged).trans rfl
  · rw [frame.keeps (State.stg · (.obj n) Reg.Obj.GAIN) (fun _ _ _ _ _ => rfl)]
    refine (congrArg (State.stg · (.obj n) Reg.Obj.GAIN) staged).trans ?_
    exact (State.stg_setStg_same _ _ _ _ ⟨by decide, by decide⟩).trans (Nat.mod_eq_of_lt (c.p 2).isLt)
  · rw [frame.keeps (State.isPending · (.obj n)) (fun _ _ _ _ _ => rfl)]
    refine (congrArg (State.isPending · (.obj n)) staged).trans ?_
    rw [State.isPending_setPending, if_pos rfl]
  · intro k hk hs
    refine (frame.words k hk hs).trans (Eq.trans ?_ (begun.words k hk hs))
    exact congrArg (Map.get 0#32 k ·.fab.act) staged

/-- OBJ_BULK of a record that the seat may not write (R50). -/
theorem objBulk_answers_notOwner {s : State} {c : Cmd} {n : Nat} (h : Issued s c 0x18) (hflag : c.flag 1 = false)
    (h0 : c.n 0 = n + 65536) (hn : n < 1024) (h1 : c.n 1 = 1) (hm : n < s.model.objects)
    (howns : s.owns c.seat (.obj n) = false) :
    Answers (.objBulk c.seat c.tag []) s (fun t => Completes s t c Status.notOwner 0 0 ∧ t.fab.stg = s.fab.stg) := by
  have begun := State.begun_frame h
  have model : (s.begun c).model = s.model := begun.keeps (·.model) (fun _ _ _ _ _ => rfl)
  have refused : (!(s.begun c).owns c.seat (.obj n) ||
      (c.seat ≠ 0 && (s.begun c).bit (.objPage (n / 8)) Reg.Hdr.LOCK)) = true := by
    rw [begun.owns_obj, howns]
    rfl
  exact answers_ended h (exec_objBulk_inline h hflag)
    (((s.begun c).objBulk_gain (c := { c with started := true }) hflag h0 hn h1).trans
      ((if_neg (by rw [model]; omega)).trans (if_pos refused))) rfl rfl
    (fun t frame done => ⟨done, (begun.trans frame).keeps (·.fab.stg) (fun _ _ _ _ _ => rfl)⟩)

/-- OBJ_BULK of a record beyond the model's (R408). -/
theorem objBulk_answers_absent {s : State} {c : Cmd} {n : Nat} (h : Issued s c 0x18) (hflag : c.flag 1 = false)
    (h0 : c.n 0 = n + 65536) (hn : n < 1024) (h1 : c.n 1 = 1) (hm : s.model.objects ≤ n) :
    Answers (.objBulk c.seat c.tag []) s (fun t => Completes s t c Status.absentUnit 0 0 ∧ t.fab.stg = s.fab.stg) := by
  have begun := State.begun_frame h
  have model : (s.begun c).model = s.model := begun.keeps (·.model) (fun _ _ _ _ _ => rfl)
  exact answers_ended h (exec_objBulk_inline h hflag)
    (((s.begun c).objBulk_gain (c := { c with started := true }) hflag h0 hn h1).trans (if_pos (by rw [model]; exact hm)))
    rfl rfl (fun t frame done => ⟨done, (begun.trans frame).keeps (·.fab.stg) (fun _ _ _ _ _ => rfl)⟩)

/-- Settles O34: the loads of EQ sets, free or in use, and the three answers of OBJ_BULK. -/
theorem eqAndBulkLoads : Obligations.EqAndBulkLoads := by
  refine ⟨?_, fun s c n h hflag h0 hn h1 =>
    ⟨objBulk_answers_staged h hflag h0 hn h1, objBulk_answers_notOwner h hflag h0 hn h1,
      objBulk_answers_absent h hflag h0 hn h1⟩⟩
  intro s c data f first count out h hs hb hw per store other h0 hc hfit hf
  refine ⟨fun hfirst free => ?_, fun used => ?_⟩
  · cases out <;> exact eqSetLoad_answers_free h hs hb hw h0 hc hfit hf hfirst free
  · obtain ⟨t, step, done, kept⟩ := eqSetLoad_answers_busy h hs hb hw h0 hc hfit hf used
    refine ⟨t, step, done, ?_⟩
    cases out
    · exact ⟨kept false, kept true⟩
    · exact ⟨kept true, kept false⟩

end Sys2Proof.Machine
end

section
/-! PROOFS. A record changes hands (R54, R396); a seat's key is set and cleared (R420, R421). -/

namespace Sys2Proof.Machine

open Sys2Proof

/-! OWNERSHIP_SET of one object record -/

/-- The staged store in which every RW field of a unit is its active value. -/
def State.stagedAsActive (s : State) (b : Blk) : RegMap :=
  (b.allFields.filter (·.acc = .rw)).foldl (fun m f => regPut m b.base f (s.fld b f)) s.fab.stg

theorem State.foldl_stageActive (s : State) (b : Blk) (l : List Fld) :
    l.foldl (fun s f => if f.acc = .rw then s.setStg b f (s.fld b f) else s) s =
      s.withStg ((l.filter (·.acc = .rw)).foldl (fun m f => regPut m b.base f (s.fld b f)) s.fab.stg) := by
  induction l generalizing s with
  | nil => rfl
  | cons f l ih =>
    rw [List.foldl_cons, ih]
    split
    · next hrw =>
      rw [List.filter_cons_of_pos (by simpa using hrw), List.foldl_cons]
      rfl
    · next hrw => rw [List.filter_cons_of_neg (by simpa using hrw)]

theorem State.discardStaged_eq (s : State) (b : Blk) :
    s.discardStaged b = { s with fab := { s.fab with
      stg := s.stagedAsActive b, stagedPending := s.fab.stagedPending.put false b.base false } } := by
  unfold State.discardStaged
  rw [State.foldl_stageActive]
  rfl

/-- An object record's staged GAIN is then the active one. -/
theorem State.stagedAsActive_gain (s : State) (n : Nat) :
    regGet (s.stagedAsActive (.obj n)) (Blk.obj n).base Reg.Obj.GAIN = s.fld (.obj n) Reg.Obj.GAIN := by
  obtain ⟨fits, apart⟩ := obj_fields_apart Reg.Obj.GAIN (by decide)
  have mem : Reg.Obj.GAIN ∈ (Blk.obj n).allFields := (by decide : Reg.Obj.GAIN ∈ Reg.Obj.fields)
  unfold State.stagedAsActive
  rw [regGet_foldl_regPut fits (List.mem_filter.mpr ⟨mem, rfl⟩)
    (fun g hg => apart g (List.mem_of_mem_filter hg))]
  exact Nat.mod_eq_of_lt (regGet_lt _ _ _ fits)

/-- Discarding the staged values of an object record: its staged fields are the active ones (R54). -/
theorem State.discardAll_obj (s : State) (n : Nat) : ∃ m p,
    s.discardAll (.obj n) = { s with fab := { s.fab with stg := m, stagedPending := p } } ∧
      Map.get false (Blk.obj n).base p = false ∧
      regGet m (Blk.obj n).base Reg.Obj.GAIN = s.fld (.obj n) Reg.Obj.GAIN := by
  have alone : (extraOf (.obj n)).2 = 0 := rfl
  have only : s.discardAll (.obj n) = s.discardStaged (.obj n) := by
    unfold State.discardAll
    simp only [alone, if_true]
  exact ⟨s.stagedAsActive (.obj n), s.fab.stagedPending.put false (Blk.obj n).base false,
    only.trans (s.discardStaged_eq _), (Map.get_put _ _ _ _ _).trans (if_pos rfl), s.stagedAsActive_gain n⟩

/-- The state in which an object record has an owner (R51). -/
def State.withObjOwner (s : State) (n q : Nat) (shared : Bool) : State :=
  { s with fab := { s.fab with recOwner := s.fab.recOwner.put 0 (Blk.obj n).base (q + if shared then 8 else 0) } }

theorem State.ownerOf_withObjOwner (s : State) (n : Nat) {q : Nat} (shared : Bool) (hq : q < 8) :
    (s.withObjOwner n q shared).ownerOf (.obj n) = (q, shared) := by
  have code : Map.get 0 (Blk.obj n).base (s.withObjOwner n q shared).fab.recOwner = q + if shared then 8 else 0 :=
    (Map.get_put _ _ _ _ _).trans (if_pos rfl)
  unfold State.ownerOf
  simp only [Blk.isRecord, if_true, code]
  have bit (x : Nat) : x.testBit 3 = decide (x / 8 % 2 = 1) := Nat.testBit_eq_decide_div_mod_eq
  refine Prod.ext ?_ ?_
  · cases shared <;> simp only [if_true, if_false, Bool.false_eq_true] <;> omega
  · rw [bit]
    cases shared <;> simp only [if_true, if_false, Bool.false_eq_true, decide_eq_true_eq, decide_eq_false_iff_not] <;> omega

/-- What an object record has given up with its owning seat: its group is UG0 and nothing is staged (R54). -/
def GivenUp (s u : State) (n : Nat) : Prop :=
  u.groupOf (.obj n) = 0 ∧ u.isPending (.obj n) = false ∧ u.stg (.obj n) Reg.Obj.GAIN = s.fld (.obj n) Reg.Obj.GAIN

/-- The pages of a unit, or its record, as their owner gives them up: staged values discarded, in group UG0 (R54). -/
def State.yieldUnit (s : State) (b : Blk) : State :=
  (ownPages b).foldl (fun s b =>
    let s := s.discardAll b
    if b.isRecord then { s with fab := { s.fab with recGroup := s.fab.recGroup.put 0 b.base 0 } }
    else s.setBoth b Reg.Hdr.UPD_GROUP 0) s

/-- The state with these staged values, STAGED_PENDING bits and groups of records. -/
def State.withStaging (s : State) (m : RegMap) (p : Map Bool) (g : Map Nat) : State :=
  { s with fab := { s.fab with stg := m, stagedPending := p, recGroup := g } }

/-- A record given up: only the stores of staged values and of groups differ. -/
theorem State.yieldUnit_obj (s : State) (n : Nat) : ∃ m p g,
    s.yieldUnit (.obj n) = s.withStaging m p g ∧ GivenUp s (s.withStaging m p g) n := by
  obtain ⟨m, p, eq, pending, gain⟩ := s.discardAll_obj n
  refine ⟨m, p, s.fab.recGroup.put 0 (Blk.obj n).base 0, ?_, ?_, pending, gain⟩
  · unfold State.yieldUnit
    simp only [ownPages, List.foldl_cons, List.foldl_nil, Blk.isRecord, if_true]
    rw [eq]
    rfl
  · exact (Map.get_put _ _ _ _ _).trans (if_pos rfl)

/-- Event OWNERSHIP of a seat: bit 2 of its EVENTS (R54). -/
theorem State.event_seat (s : State) (q : Nat) :
    s.event (.seat q) 2 = s.set (.seat q) Reg.Hdr.EVENTS (s.fld (.seat q) Reg.Hdr.EVENTS ||| 2 ^ 2) := rfl

theorem State.event_seat_bit (s : State) (q : Nat) :
    ((s.event (.seat q) 2).fld (.seat q) Reg.Hdr.EVENTS).testBit 2 = true := by
  rw [State.event_seat, State.fld_set_same _ _ _ _ ⟨by decide, by decide⟩, Nat.testBit_mod_two_pow, Nat.testBit_or,
    Nat.testBit_two_pow_self]
  simp [Reg.Hdr.EVENTS]

/-- An event of another seat leaves a seat's events as they are. -/
theorem State.event_seat_other (s : State) {q r : Nat} (h : r ≠ q) :
    (s.event (.seat q) 2).fld (.seat r) Reg.Hdr.EVENTS = s.fld (.seat r) Reg.Hdr.EVENTS :=
  State.fld_set_word _ _ _ _ _ _ (by simp only [Blk.base]; omega)

/-- An event leaves the assignment of a seat's queues as it is. -/
theorem State.event_seat_cqOf (s : State) (q seat sq : Nat) :
    (s.event (.seat q) 2).cqOf seat sq = s.cqOf seat sq :=
  State.fld_set_word _ _ _ _ _ _ (by simp only [Blk.base, Reg.Seat.SQ_CQ, Reg.Hdr.EVENTS]; omega)

/-- A record that keeps its owning seat: owner and sharing are set (R396, log entry 27). -/
theorem State.setOwner_obj_same (s : State) {n q : Nat} (shared : Bool) (h : (s.ownerOf (.obj n)).1 = q) :
    s.setOwner (.obj n) q shared = s.withObjOwner n q shared := by
  unfold State.setOwner
  exact if_pos h

/-- A record whose owning seat changes: it is given up, and both seats have event OWNERSHIP (R54). -/
theorem State.setOwner_obj_other (s : State) {n q : Nat} (shared : Bool) (h : (s.ownerOf (.obj n)).1 ≠ q) :
    ∃ m p g, s.setOwner (.obj n) q shared =
        (((s.withObjOwner n q shared).withStaging m p g).event (.seat (s.ownerOf (.obj n)).1) 2).event (.seat q) 2 ∧
      GivenUp s ((s.withObjOwner n q shared).withStaging m p g) n := by
  obtain ⟨m, p, g, eq, given⟩ := (s.withObjOwner n q shared).yieldUnit_obj n
  refine ⟨m, p, g, ?_, given⟩
  rw [← eq]
  unfold State.setOwner
  exact if_neg h

/-- What a new owner of an object record leaves alone, and what it changes (R54, R396). -/
theorem State.setOwner_obj_spec (s : State) (n : Nat) {q : Nat} (shared : Bool) (hq : q < 8) :
    let u := s.setOwner (.obj n) q shared
    u.seats = s.seats ∧ (∀ seat sq, u.cqOf seat sq = s.cqOf seat sq) ∧ u.ownerOf (.obj n) = (q, shared) ∧
      ((s.ownerOf (.obj n)).1 ≠ q → GivenUp s u n ∧ (u.fld (.seat q) Reg.Hdr.EVENTS).testBit 2 = true ∧
        (u.fld (.seat (s.ownerOf (.obj n)).1) Reg.Hdr.EVENTS).testBit 2 = true) := by
  dsimp only
  have owner := s.ownerOf_withObjOwner n shared hq
  by_cases h : (s.ownerOf (.obj n)).1 = q
  · rw [s.setOwner_obj_same shared h]
    exact ⟨rfl, fun _ _ => rfl, owner, fun other => absurd h other⟩
  · obtain ⟨m, p, g, eq, given⟩ := s.setOwner_obj_other shared h
    rw [eq]
    refine ⟨rfl, fun seat sq => ?_, owner, fun _ => ⟨given, State.event_seat_bit _ _, ?_⟩⟩
    · rw [State.event_seat_cqOf, State.event_seat_cqOf]
      rfl
    · rw [State.event_seat_other _ h]
      exact State.event_seat_bit _ _

/-- OWNERSHIP_SET of one object record, not in LOCKSTEP: its checks, then the owner (R396). -/
theorem State.ownershipSet_obj (s : State) {c : Cmd} {n q : Nat} {shared : Bool} (h0 : c.n 0 = 0) (h1 : c.n 1 = n)
    (h2 : c.n 2 = 1) (h3 : c.n 3 = q + (if shared then 256 else 0)) (hq : q < s.model.seats) (hl : s.lockPri = false) :
    s.ownershipSet c =
      if s.model.objects ≤ n then s.finish c.seat c.tag Status.absentUnit
      else if s.ownerOf (.obj n) = (q, shared) then s.finish c.seat c.tag Status.ok 0
      else (s.setOwner (.obj n) q shared).finish c.seat c.tag Status.ok 1 := by
  have few := Model.seats_le s.model
  have seat : c.n 3 % 8 = q := by rw [h3]; cases shared <;> simp only [if_true, if_false, Bool.false_eq_true] <;> omega
  have bit : (c.n 3).testBit 8 = shared := by
    rw [Nat.testBit_eq_decide_div_mod_eq, h3]
    cases shared <;>
      simp only [if_true, if_false, Bool.false_eq_true, decide_eq_true_eq, decide_eq_false_iff_not] <;> omega
  have valid : ¬ (0xB < 0 ∨ c.n 3 / 8 % 32 ≠ 0 ∨ c.n 3 / 512 ≠ 0) := by
    rw [h3]
    cases shared <;> simp only [if_true, if_false, Bool.false_eq_true] <;> omega
  have units : OwnSet.units { kind := 0, first := n, count := 1, seat := q, shared := shared } = [some (.obj n)] := rfl
  have absent : (4096 < n + 1 ∨ s.model.seats ≤ q ∨
      [some (Blk.obj n)].any (fun u => u.all (fun b => !b.present s.model)) = true) ↔ s.model.objects ≤ n := by
    have atMost := Model.objects_le s.model
    simp only [List.any_cons, List.any_nil, Bool.or_false, Option.all_some, Blk.present, Bool.not_eq_true',
      decide_eq_false_iff_not, Nat.not_lt]
    omega
  unfold State.ownershipSet
  simp only [h0, h1, h2, seat, bit, units, absent]
  rw [if_neg valid]
  split
  · rfl
  · unfold State.applyOwn
    simp only [units, List.foldl_cons, List.foldl_nil, hl, Bool.false_eq_true, if_false]
    split <;> rfl

/-- LOCKSTEP does not depend on the commands in flight. -/
theorem State.lockPri_begun (s : State) (c : Cmd) : (s.begun c).lockPri = s.lockPri := by
  have state : (s.begun c).fld .twin Reg.Twin.STATE = s.fld .twin Reg.Twin.STATE :=
    State.setSeat_fld _ _ _ _ _ (by simp only [Blk.base, Reg.Twin.STATE, Reg.Seat.STATUS_IN_FLIGHT]; omega)
  have mode : (s.begun c).twin = s.twin := rfl
  unfold State.lockPri
  rw [state, mode]

/-- The EVENTS words of the seats are not among those that a command's beginning and end change. -/
theorem CommandFrame.seat_events {s t : State} (h : CommandFrame s t) (q : Nat) :
    t.fld (.seat q) Reg.Hdr.EVENTS = s.fld (.seat q) Reg.Hdr.EVENTS := by
  have status : ∀ k ∈ statusWords, k < 0x10000 ∨ k % 0x1000 = 0x58 := by decide
  have grants : ∀ k ∈ grantWords, k < 0x10000 := by decide
  have at_ : 0x10000 ≤ wordAt (.seat q) Reg.Hdr.EVENTS ∧ wordAt (.seat q) Reg.Hdr.EVENTS % 0x1000 = 0xC := by
    simp only [wordAt, Blk.base, Reg.Hdr.EVENTS]
    omega
  exact h.fld_eq (fun hk => absurd (grants _ hk) (by omega)) (fun hk => absurd (status _ hk) (by omega))

theorem CommandFrame.ownerOf_obj {s t : State} (h : CommandFrame s t) (n : Nat) : t.ownerOf (.obj n) = s.ownerOf (.obj n) :=
  h.keeps (State.ownerOf · (.obj n)) (fun _ _ _ _ _ => rfl)

section
variable {s : State} {c : Cmd} {n q : Nat} {shared : Bool}

/-- What OWNERSHIP_SET runs, by the house seat. -/
theorem ownershipSet_begun (h : Issued s c 0x60) (hc : c.seat = 0) (hl : s.lockPri = false) (h0 : c.n 0 = 0)
    (h1 : c.n 1 = n) (h2 : c.n 2 = 1) (h3 : c.n 3 = q + (if shared then 256 else 0)) (hq : q < s.model.seats) :
    houseOnly (fun c s => s.ownershipSet c) { c with started := true } (s.begun c) =
      if s.model.objects ≤ n then (s.begun c).finish c.seat c.tag Status.absentUnit
      else if s.ownerOf (.obj n) = (q, shared) then (s.begun c).finish c.seat c.tag Status.ok 0
      else ((s.begun c).setOwner (.obj n) q shared).finish c.seat c.tag Status.ok 1 := by
  have begun := State.begun_frame h
  have model : (s.begun c).model = s.model := begun.keeps (·.model) (fun _ _ _ _ _ => rfl)
  rw [houseOnly_house (c := { c with started := true }) _ hc, (s.begun c).ownershipSet_obj (c := { c with started := true }) h0 h1 h2 h3
    (by rw [model]; exact hq) ((s.lockPri_begun c).trans hl), model, begun.ownerOf_obj]

/-- OWNERSHIP_SET of an object record of the model (R54, R396). -/
theorem ownershipSet_answers (h : Issued s c 0x60) (hc : c.seat = 0) (hl : s.lockPri = false) (h0 : c.n 0 = 0)
    (h1 : c.n 1 = n) (h2 : c.n 2 = 1) (h3 : c.n 3 = q + (if shared then 256 else 0)) (hq : q < s.model.seats)
    (hn : n < s.model.objects) :
    Answers (.ownershipSet c.seat c.tag) s (fun t => t.ownerOf (.obj n) = (q, shared) ∧
      Completes s t c Status.ok (if s.ownerOf (.obj n) = (q, shared) then 0 else 1) 0 ∧
      ((s.ownerOf (.obj n)).1 ≠ q → t.groupOf (.obj n) = 0 ∧ t.isPending (.obj n) = false ∧
        t.stg (.obj n) Reg.Obj.GAIN = s.fld (.obj n) Reg.Obj.GAIN ∧
        (t.fld (.seat q) Reg.Hdr.EVENTS).testBit 2 = true ∧
        (t.fld (.seat (s.ownerOf (.obj n)).1) Reg.Hdr.EVENTS).testBit 2 = true)) := by
  have begun := State.begun_frame h
  have runs := (ownershipSet_begun h hc hl h0 h1 h2 h3 hq).trans (if_neg (Nat.not_le.mpr hn))
  by_cases same : s.ownerOf (.obj n) = (q, shared)
  · rw [if_pos same] at runs ⊢
    refine answers_ended h rfl runs rfl rfl (fun t frame done => ⟨?_, done, fun other => absurd (by rw [same]) other⟩)
    rw [(begun.trans frame).ownerOf_obj, same]
  · rw [if_neg same] at runs ⊢
    obtain ⟨seats, queues, owner, gaveUp⟩ :=
      (s.begun c).setOwner_obj_spec n shared (q := q) (hq.trans_le (Model.seats_le _))
    rw [begun.ownerOf_obj] at gaveUp
    refine answers_ended h rfl runs seats (queues _ _) (fun t frame done => ⟨?_, done, fun other => ?_⟩)
    · rw [frame.ownerOf_obj, owner]
    · obtain ⟨⟨group, pending, gain⟩, events, was⟩ := gaveUp other
      refine ⟨?_, ?_, ?_, ?_, ?_⟩
      · exact (frame.keeps (State.groupOf · (.obj n)) (fun _ _ _ _ _ => rfl)).trans group
      · exact (frame.keeps (State.isPending · (.obj n)) (fun _ _ _ _ _ => rfl)).trans pending
      · exact ((frame.keeps (State.stg · (.obj n) Reg.Obj.GAIN) (fun _ _ _ _ _ => rfl)).trans gain).trans
          (begun.obj_fld n _)
      · rw [frame.seat_events, events]
      · rw [frame.seat_events, was]

/-- OWNERSHIP_SET of a record beyond the model's (R396). -/
theorem ownershipSet_answers_absent (h : Issued s c 0x60) (hc : c.seat = 0) (hl : s.lockPri = false) (h0 : c.n 0 = 0)
    (h1 : c.n 1 = n) (h2 : c.n 2 = 1) (h3 : c.n 3 = q + (if shared then 256 else 0)) (hq : q < s.model.seats)
    (hn : s.model.objects ≤ n) :
    Answers (.ownershipSet c.seat c.tag) s (fun t => Completes s t c Status.absentUnit 0 0 ∧
      t.fab.recOwner = s.fab.recOwner) :=
  answers_ended h rfl ((ownershipSet_begun h hc hl h0 h1 h2 h3 hq).trans (if_pos hn)) rfl rfl
    (fun _ frame done => ⟨done, ((State.begun_frame h).trans frame).keeps (·.fab.recOwner) (fun _ _ _ _ _ => rfl)⟩)

end

/-! KEY_SET and its CLEAR -/

/-- A seat with a Stagedoor state, KEY_VALID, and the keys of the flash store: what a KEY_SET changes (R420). -/
def State.keyed (s : State) (q : Nat) (sd : SdState) (keys : Map (List Byte)) (valid : Nat) : State :=
  ({ s.setSeat q { s.seat q with sd := sd } with boot := { s.boot with keys := keys } } : State).set (.seat q)
    Reg.Seat.STATUS_KEY_VALID valid

theorem State.seat_keyed (s : State) (q : Nat) (sd : SdState) (keys : Map (List Byte)) (valid r : Nat) :
    (s.keyed q sd keys valid).seat r = if r = q then { s.seat q with sd := sd } else s.seat r :=
  State.seat_setSeat _ _ _ _

theorem State.keyed_cmdOf (s : State) (q : Nat) (sd : SdState) (keys : Map (List Byte)) (valid seat tag : Nat) :
    (s.keyed q sd keys valid).cmdOf seat tag = s.cmdOf seat tag := by
  unfold State.cmdOf
  rw [State.seat_keyed]
  split
  · next e => rw [e]
  · rfl

theorem State.keyed_done (s : State) (q : Nat) (sd : SdState) (keys : Map (List Byte)) (valid seat : Nat) :
    ((s.keyed q sd keys valid).seat seat).done = (s.seat seat).done := by
  rw [State.seat_keyed]
  split
  · next e => rw [e]
  · rfl

theorem State.keyed_cqOf (s : State) (q : Nat) (sd : SdState) (keys : Map (List Byte)) (valid seat sq : Nat) :
    (s.keyed q sd keys valid).cqOf seat sq = s.cqOf seat sq := by
  refine (State.fld_set_word _ _ _ _ _ _ ?_).trans (s.cqOf_setSeat q _ seat sq)
  simp only [Blk.base, Reg.Seat.SQ_CQ, Reg.Seat.STATUS_KEY_VALID]
  omega

/-- The words of the seats alone decide whether a command has completed. -/
theorem Completes.of_seats {s t u : State} {c : Cmd} {st r0 r1 : Nat} (h : Completes s t c st r0 r1)
    (hu : u.seats = t.seats) : Completes s u c st r0 r1 := by
  unfold Completes State.cmdOf State.seat at h ⊢
  rw [hu]
  exact h

/-- What a seat keeps when its session ends (R421). -/
def SdState.ended (d : SdState) : SdState := { key := d.key, persisted := d.persisted, heardAt := d.heardAt }

/-- A session that ends leaves the seat's commands and its completions. -/
theorem Completes.endSession {s t : State} {c : Cmd} {st r0 r1 : Nat} (h : Completes s t c st r0 r1) (q : Nat) :
    Completes s (t.endSession q) c st r0 r1 :=
  (h.setSeat q (v := { t.seat q with sd := (t.seat q).sd.ended }) rfl rfl).of_seats rfl

theorem State.endSession_sd (s : State) (q : Nat) :
    ((s.endSession q).seat q).sd = (s.seat q).sd.ended := by
  unfold State.endSession State.showAttached State.setBit
  simp only [State.seat_set, State.seat_setSeat_same]
  rfl

theorem State.endSession_keyValid (s : State) (q : Nat) :
    (s.endSession q).fld (.seat q) Reg.Seat.STATUS_KEY_VALID = s.fld (.seat q) Reg.Seat.STATUS_KEY_VALID := by
  unfold State.endSession State.showAttached State.setBit State.setSeat
  rw [State.fld_set_bits _ _ _ _ _ _ (by decide), State.fld_set_word _ _ _ _ _ _ (by simp [Reg.Seat.STATUS_KEY_VALID,
    Reg.Seat.SD_SESSION]), State.fld_set_bits _ _ _ _ _ _ (by decide)]
  rfl

/-- The end of a KEY_SET from a state in which the command stands as begun: it completes, key, KEY_VALID and flash stay,
and a session of another seat ends (R420, R425). -/
theorem State.keyDone_spec {s u : State} {c : Cmd} {opcode : Nat} (h : Issued s c opcode) (h0 : c.seat = 0)
    (hc : u.cmdOf c.seat c.tag = some { c with started := true }) (hd : (u.seat c.seat).done = (s.seat c.seat).done)
    (hq : u.cqOf c.seat c.sq = s.cqOf c.seat c.sq) (q : Nat) :
    let v := u.keyDone { c with started := true } q
    Completes s v c Status.ok 0 0 ∧ (v.seat q).sd.key = (u.seat q).sd.key ∧
      v.fld (.seat q) Reg.Seat.STATUS_KEY_VALID = u.fld (.seat q) Reg.Seat.STATUS_KEY_VALID ∧ v.boot = u.boot ∧
      (q ≠ 0 → (v.seat q).sd.session = 0) := by
  dsimp only
  obtain ⟨done, frame⟩ := completes_of_begun h hc hd hq Status.ok 0 0
  have key : ((u.finish c.seat c.tag Status.ok).seat q).sd.key = (u.seat q).sd.key := by rw [frame.sd]
  have boot : (u.finish c.seat c.tag Status.ok).boot = u.boot := frame.keeps (·.boot) (fun _ _ _ _ _ => rfl)
  have valid := frame.key q
  unfold State.keyDone
  dsimp only
  generalize u.finish c.seat c.tag Status.ok = w at done key boot valid ⊢
  split
  · next own =>
    have house : q = 0 := by
      simp only [Bool.and_eq_true, decide_eq_true_eq] at own
      exact own.1.1.trans h0
    refine ⟨done.setSeat q rfl rfl, ?_, (State.fld_set_bits _ _ _ _ _ _ (by decide)).trans valid, boot,
      fun other => absurd house other⟩
    rw [State.seat_setSeat_same]
    exact key
  · refine ⟨done.endSession q, ?_, (w.endSession_keyValid q).trans valid, boot, fun _ => ?_⟩
    · rw [State.endSession_sd]
      exact key
    · rw [State.endSession_sd]
      rfl

section
variable {s : State} {c : Cmd} {q : Nat}

/-- The step of a KEY_SET by the house seat for a seat of the model whose effect is `keyed`. -/
theorem keyCommand_answers {i : Instr} {clear : Bool} {f : Cmd → State → State} {sd : SdState} {keys : Map (List Byte)}
    {valid : Nat} (h : Issued s c 0x61) (h0 : c.seat = 0) (hq : c.n 0 = q) (hm : q < s.model.seats)
    (hflag : c.flag 0 = clear) (hi : exec i s = settle (s.keyCommand c.seat c.tag clear f))
    (hf : f { c with started := true } (s.begun c) =
      ((s.begun c).keyed q sd keys valid).keyDone { c with started := true } q) :
    Answers i s (fun t => (t.seat q).sd.key = sd.key ∧ t.fld (.seat q) Reg.Seat.STATUS_KEY_VALID = valid % 2 ∧
      t.boot.keys = keys ∧ Completes s t c Status.ok 0 0 ∧ (q ≠ 0 → (t.seat q).sd.session = 0)) := by
  have model : (s.begun c).model = s.model := (State.begun_frame h).keeps (·.model) (fun _ _ _ _ _ => rfl)
  have few := Model.seats_le s.model
  have runs : s.keyCommand c.seat c.tag clear f = s.command c.seat c.tag 0x61 (houseOnly (fun c s =>
      if 8 ≤ c.n 0 then s.finish c.seat c.tag Status.badParam
      else if s.model.seats ≤ c.n 0 then s.finish c.seat c.tag Status.absentUnit
      else f c s)) := by
    unfold State.keyCommand
    simp only [h.1, hflag, ne_eq, not_true_eq_false, if_false]
  have number : ({ c with started := true } : Cmd).n 0 = q := hq
  refine answers_command h (hi.trans (congrArg settle runs)) ?_
  rw [houseOnly_house (c := { c with started := true }) _ h0]
  simp only [number, model, hf]
  rw [if_neg (by omega), if_neg (by omega)]
  obtain ⟨done, key, shows, boot, ended⟩ := State.keyDone_spec (u := (s.begun c).keyed q sd keys valid) h h0
    ((State.keyed_cmdOf _ _ _ _ _ _ _).trans (State.begun_cmdOf h))
    ((State.keyed_done _ _ _ _ _ _).trans (State.begun_done _ _ _))
    ((State.keyed_cqOf _ _ _ _ _ _ _).trans (State.begun_cqOf _ _ _ _)) q
  generalize ((s.begun c).keyed q sd keys valid).keyDone { c with started := true } q = v at done key shows boot ended
  have after := CommandFrame.after v
  refine ⟨?_, ?_, ?_, done.after, fun other => ?_⟩
  · rw [after.sd, key, State.seat_keyed, if_pos rfl]
  · rw [after.key, shows]
    exact State.fld_set_same _ _ _ _ ⟨by decide, by decide⟩
  · rw [after.keeps (·.boot) (fun _ _ _ _ _ => rfl), boot]
    rfl
  · rw [after.sd, ended other]

/-- The key that a KEY_SET carries. -/
def Cmd.keyBytes (c : Cmd) : List Byte := ((c.params.drop 1).take 8).flatMap bytesOf

/-- KEY_SET: the seat holds the key; the flash holds it where PERSIST asks for it (R420). -/
theorem keySet_answers (h : Issued s c 0x61) (h0 : c.seat = 0) (hq : c.n 0 = q) (hm : q < s.model.seats)
    (hflag : c.flag 0 = false) :
    Answers (.keySet c.seat c.tag) s (fun t => (t.seat q).sd.key = some c.keyBytes ∧
      t.fld (.seat q) Reg.Seat.STATUS_KEY_VALID = 1 ∧
      Map.get [] q t.boot.keys = (if c.flag 1 then c.keyBytes else Map.get [] q s.boot.keys) ∧
      Completes s t c Status.ok 0 0 ∧ (q ≠ 0 → (t.seat q).sd.session = 0)) := by
  have persist : ({ c with started := true } : Cmd).flag 1 = c.flag 1 := rfl
  obtain ⟨t, step, key, valid, keys, done, ended⟩ := keyCommand_answers (i := .keySet c.seat c.tag) (valid := 1)
    (sd := { ((s.begun c).seat q).sd with
      key := some c.keyBytes, persisted := ((s.begun c).seat q).sd.persisted || c.flag 1 })
    (keys := if c.flag 1 then s.boot.keys.put [] q c.keyBytes else s.boot.keys) h h0 hq hm hflag rfl (by
      have number : ({ c with started := true } : Cmd).n 0 = q := hq
      simp only [number, persist]
      split <;> rfl)
  refine ⟨t, step, key, valid, ?_, done, ended⟩
  rw [keys]
  split
  · exact (Map.get_put _ _ _ _ _).trans (if_pos rfl)
  · rfl

/-- KEY_SET with CLEAR: the key goes from the seat and from the flash (R420). -/
theorem keyClear_answers (h : Issued s c 0x61) (h0 : c.seat = 0) (hq : c.n 0 = q) (hm : q < s.model.seats)
    (hflag : c.flag 0 = true) :
    Answers (.keyClear c.seat c.tag) s (fun t => (t.seat q).sd.key = none ∧
      t.fld (.seat q) Reg.Seat.STATUS_KEY_VALID = 0 ∧ Map.get [] q t.boot.keys = [] ∧
      Completes s t c Status.ok 0 0 ∧ (q ≠ 0 → (t.seat q).sd.session = 0)) := by
  obtain ⟨t, step, key, valid, keys, done, ended⟩ := keyCommand_answers (i := .keyClear c.seat c.tag) (valid := 0)
    (sd := { ((s.begun c).seat q).sd with key := none, persisted := false })
    (keys := s.boot.keys.put [] q []) h h0 hq hm hflag rfl (by
      have number : ({ c with started := true } : Cmd).n 0 = q := hq
      simp only [number]
      rfl)
  refine ⟨t, step, key, valid, ?_, done, ended⟩
  rw [keys]
  exact (Map.get_put _ _ _ _ _).trans (if_pos rfl)

end

/-- Settles O30: OWNERSHIP_SET of one object record, KEY_SET and KEY_CLEAR. -/
theorem ownershipAndKeys : Obligations.OwnershipAndKeys :=
  ⟨fun _ _ _ _ _ h hc hl h0 h1 h2 h3 hq => ⟨ownershipSet_answers h hc hl h0 h1 h2 h3 hq,
      ownershipSet_answers_absent h hc hl h0 h1 h2 h3 hq⟩,
    fun _ _ _ h h0 hq hm hflag => keySet_answers h h0 hq hm hflag,
    fun _ _ _ h h0 hq hm hflag => keyClear_answers h h0 hq hm hflag⟩

end Sys2Proof.Machine
end

section
/-! PROOFS. The instruction at a context's program counter: what its execution stores, and what the object's record shows of
it (R81, R103, R108, R111). -/

namespace Sys2Proof.Machine

open Sys2Proof

/-! What a context shows -/

/-- A field that lies apart from the one written keeps its value. -/
theorem State.fld_set_apart (s : State) (b : Blk) {f g : Fld} (v : Nat) (h : Apart f g) : (s.set b f v).fld b g = s.fld b g :=
  regGet_regPut_apart _ _ _ h

/-- CTX.STATE of a context (R81). -/
def CtxState.code : CtxState → Nat
  | .idle => 0
  | .running => 1
  | .waitTime => 2
  | .waitFlag => 3
  | .halted => 4
  | .fault => 5

theorem CtxState.code_lt (c : CtxState) : c.code < 2 ^ Reg.Obj.CTX_STATE.width := by cases c <;> decide

/-- The word of CTX, by each of its fields. -/
def ctxWords (n : Nat) : List Nat :=
  [wordAt (.obj n) Reg.Obj.CTX_STATE, wordAt (.obj n) Reg.Obj.CTX_PC, wordAt (.obj n) Reg.Obj.CTX_FAULT,
    wordAt (.obj n) Reg.Obj.CTX_LOOP_DEPTH]

/-- A shown context is a write of each field of CTX. -/
theorem State.showCtx_eq (s : State) (n : Nat) (c : Ctx) : s.showCtx n c =
    (((s.set (.obj n) Reg.Obj.CTX_STATE c.state.code).set (.obj n) Reg.Obj.CTX_LOOP_DEPTH c.loops.length).set
      (.obj n) Reg.Obj.CTX_FAULT c.fault).set (.obj n) Reg.Obj.CTX_PC c.pc := by
  unfold State.showCtx
  cases c.state <;> rfl

theorem State.showCtx_only (s : State) (n : Nat) (c : Ctx) : OnlyWords s (s.showCtx n c) (ctxWords n) := by
  rw [State.showCtx_eq]
  exact ((((OnlyWords.refl s _).set_in _ _ _ (by simp [ctxWords])).set_in _ _ _ (by simp [ctxWords])).set_in _ _ _
    (by simp [ctxWords])).set_in _ _ _ (by simp [ctxWords])

/-- What CTX reads once a context is shown. -/
theorem State.showCtx_fields (s : State) (n : Nat) (c : Ctx) :
    (s.showCtx n c).fld (.obj n) Reg.Obj.CTX_STATE = c.state.code ∧
    (s.showCtx n c).fld (.obj n) Reg.Obj.CTX_LOOP_DEPTH = c.loops.length % 2 ^ Reg.Obj.CTX_LOOP_DEPTH.width ∧
    (s.showCtx n c).fld (.obj n) Reg.Obj.CTX_FAULT = c.fault % 2 ^ Reg.Obj.CTX_FAULT.width ∧
    (s.showCtx n c).fld (.obj n) Reg.Obj.CTX_PC = c.pc % 2 ^ Reg.Obj.CTX_PC.width := by
  have same (t : State) (f : Fld) (v : Nat) (hf : Fits f) : (t.set (.obj n) f v).fld (.obj n) f = v % 2 ^ f.width :=
    State.fld_set_same t _ f v hf
  rw [State.showCtx_eq]
  refine ⟨?_, ?_, ?_, same _ _ _ ⟨by decide, by decide⟩⟩
  · rw [State.fld_set_apart _ _ _ (by decide), State.fld_set_apart _ _ _ (by decide), State.fld_set_apart _ _ _ (by decide),
      same _ _ _ ⟨by decide, by decide⟩, Nat.mod_eq_of_lt c.state.code_lt]
  · rw [State.fld_set_apart _ _ _ (by decide), State.fld_set_apart _ _ _ (by decide), same _ _ _ ⟨by decide, by decide⟩]
  · rw [State.fld_set_apart _ _ _ (by decide), same _ _ _ ⟨by decide, by decide⟩]

/-! A stored context -/

theorem OnlyWords.obj_eq {s t : State} {ws : List Nat} (h : OnlyWords s t ws) (n : Nat) : t.obj n = s.obj n :=
  h.keeps (State.obj · n) (fun _ _ => rfl)

theorem State.setCtx_only (s : State) (n : Nat) (c : Ctx) :
    OnlyWords (s.setObj n { s.obj n with ctx := c }) (s.setCtx n c) (ctxWords n) := State.showCtx_only _ n c

/-- An object engine replaced, and words of registers written after it: the engines of objects and these words are all
that differ. -/
theorem OnlyWords.objs {s t : State} {ws : List Nat} {n : Nat} {o : ObjEngine} (h : OnlyWords (s.setObj n o) t ws) :
    OnlyWords { s with objs := t.objs } t ws := by
  rw [h.keeps (·.objs) (fun _ _ => rfl)]
  exact h

@[simp] theorem State.obj_setCtx (s : State) (n : Nat) (c : Ctx) : (s.setCtx n c).obj n = { s.obj n with ctx := c } := by
  rw [(s.setCtx_only n c).obj_eq, State.obj_setObj]

/-- Whatever follows the storing of a context and changes no more than register words leaves it stored and shown. -/
theorem ctxBecomes_of_setCtx {s t : State} {n : Nat} {c : Ctx} {ws : List Nat} (h : OnlyWords (s.setCtx n c) t ws)
    (hw : wordAt (.obj n) Reg.Obj.CTX_STATE ∉ ws) :
    CtxBecomes s t n c ws ∧ t.fld (.obj n) Reg.Obj.CTX_STATE = c.state.code ∧
      t.fld (.obj n) Reg.Obj.CTX_FAULT = c.fault % 2 ^ Reg.Obj.CTX_FAULT.width := by
  obtain ⟨state, depth, fault, pc⟩ := (s.setObj n { s.obj n with ctx := c }).showCtx_fields n c
  have shown (f : Fld) (hf : f.off = Reg.Obj.CTX_STATE.off) : t.fld (.obj n) f = (s.setCtx n c).fld (.obj n) f :=
    h.fld_eq (by rw [wordAt, hf]; exact hw) (obj_not_statusWord n f)
  have frame : OnlyWords (s.setObj n { s.obj n with ctx := c }) t (ctxWords n ++ ws) :=
    ((s.setCtx_only n c).mono (fun _ => List.mem_append_left _)).trans (h.mono (fun _ => List.mem_append_right _))
  refine ⟨⟨?_, fun m hm => ?_, ?_, ?_, frame.objs⟩, ?_, ?_⟩
  · rw [h.obj_eq, State.obj_setCtx]
  · rw [frame.obj_eq, State.obj_setObj_other _ _ _ _ hm]
  · exact (shown Reg.Obj.CTX_PC rfl).trans pc
  · exact (shown Reg.Obj.CTX_LOOP_DEPTH rfl).trans depth
  · exact (shown Reg.Obj.CTX_STATE rfl).trans state
  · exact (shown Reg.Obj.CTX_FAULT rfl).trans fault

/-! What an instruction raises -/

/-- The event word of an object lies in no mirror: an event is a bit set in it (R111). -/
theorem State.objEvent_eq (s : State) (n i : Nat) :
    s.objEvent n i = s.set (.obj n) Reg.Obj.EVT_FLAGS (s.fld (.obj n) Reg.Obj.EVT_FLAGS ||| 2 ^ i) := rfl

/-- EVT.FLAGS after an event of an object. -/
theorem State.objEvent_flags (s : State) (n : Nat) {i : Nat} (hi : i < 7) :
    (s.objEvent n i).fld (.obj n) Reg.Obj.EVT_FLAGS = s.fld (.obj n) Reg.Obj.EVT_FLAGS ||| 2 ^ i := by
  rw [State.objEvent_eq, State.fld_set_same _ _ _ _ ⟨by decide, by decide⟩]
  exact Nat.mod_eq_of_lt (Nat.or_lt_two_pow (regGet_lt _ _ _ ⟨by decide, by decide⟩)
    (Nat.pow_lt_pow_right (by decide) hi))

theorem State.objEvent_only (s : State) (n i : Nat) : OnlyWords s (s.objEvent n i) [wordAt (.obj n) Reg.Obj.EVT_FLAGS] :=
  OnlyWords.set s _ _ _

/-- EVT after a program event: its code, its flag, and one more event counted. -/
theorem State.objProgramEvent_fields (s : State) (n code : Nat) :
    (s.objProgramEvent n code).fld (.obj n) Reg.Obj.EVT_CODE = code % 256 ∧
    (s.objProgramEvent n code).fld (.obj n) Reg.Obj.EVT_COUNT =
      min (s.fld (.obj n) Reg.Obj.EVT_COUNT + 1) (2 ^ Reg.Obj.EVT_COUNT.width - 1) ∧
    (s.objProgramEvent n code).fld (.obj n) Reg.Obj.EVT_FLAGS = s.fld (.obj n) Reg.Obj.EVT_FLAGS ||| 1 := by
  unfold State.objProgramEvent State.countSat
  refine ⟨?_, ?_, ?_⟩
  · rw [State.objEvent_eq, State.fld_set_apart _ _ _ (by decide), State.fld_set_apart _ _ _ (by decide),
      State.fld_set_same _ _ _ _ ⟨by decide, by decide⟩]
    rfl
  · rw [State.objEvent_eq, State.fld_set_apart _ _ _ (by decide), State.fld_set_same _ _ _ _ ⟨by decide, by decide⟩,
      State.fld_set_apart _ _ _ (by decide)]
    exact Nat.mod_eq_of_lt (Nat.lt_of_le_of_lt (Nat.min_le_right _ _) (by decide))
  · rw [State.objEvent_flags _ _ (by decide), State.fld_set_apart _ _ _ (by decide), State.fld_set_apart _ _ _ (by decide),
      pow_zero]

/-- What an instruction raises shows in the object's EVT word alone. -/
theorem State.trapEffect_only (s : State) (n : Nat) (e : TrapEffect) :
    OnlyWords s (s.trapEffect n e) [wordAt (.obj n) Reg.Obj.EVT_FLAGS] := by
  cases e with
  | none => exact OnlyWords.refl s _
  | program code =>
    exact (((OnlyWords.refl s _).set_in _ _ _ (by simp [wordAt, Reg.Obj.EVT_CODE, Reg.Obj.EVT_FLAGS])).set_in _ _ _
      (by simp [wordAt, Reg.Obj.EVT_COUNT, Reg.Obj.EVT_FLAGS])).set_in _ _ _ (by simp)
  | fault => exact s.objEvent_only n 2

/-! The instruction at the program counter -/

/-- No interval of the overlay ends up to a sample before its next end (R109). -/
theorem Ctx.jitterTo_eq {c : Ctx} {i : Nat} (h : c.jitter.on = false ∨ c.jitter.n = 0 ∨ i < c.jitter.start + c.jitter.n) :
    c.jitterTo i = c := by
  have quiet : ¬ (c.jitter.on ∧ 0 < c.jitter.n ∧ c.jitter.start + c.jitter.n ≤ i) := by
    rintro ⟨on, pos, ends⟩
    rcases h with off | none | later
    · simp [off] at on
    · omega
    · omega
  unfold Ctx.jitterTo
  cases i - c.jitter.start with
  | zero => rfl
  | succ fuel => exact if_neg quiet

/-- The context with its program counter behind an instruction of `len` words. -/
def Ctx.past (c : Ctx) (len : Nat) : Ctx := { c with pc := c.pc + len }

/-- What executing `i`, of `len` words, at the program counter of object `n`'s context makes of it and raises. -/
def State.trapRuns (s : State) (n : Nat) (i : TrapInstr) (len : Nat) : Ctx × TrapEffect :=
  ((s.obj n).ctx.past len).exec1 s.fs s.rsiOfTime (s.motion.regionOf (s.obj n).ctx.entry) (s.obj n).ctx.pc i

section
variable {s : State} {n len : Nat} {i : TrapInstr}

theorem TrapAt.running (h : TrapAt s n i len) : (s.obj n).ctx.state = .running := h.1

theorem TrapAt.jitterTo_past (h : TrapAt s n i len) :
    ((s.obj n).ctx.past len).jitterTo (s.obj n).ctx.at_ = (s.obj n).ctx.past len := by
  obtain ⟨-, -, -, -, -, quiet⟩ := h
  exact Ctx.jitterTo_eq quiet

/-- The instruction that stands at the program counter is the one executed (R103). -/
theorem TrapAt.execute (h : TrapAt s n i len) :
    (s.obj n).ctx.execute s.motion s.fs s.rsiOfTime = s.trapRuns n i len := by
  obtain ⟨-, -, decodes, first, last, quiet⟩ := h
  unfold Ctx.execute
  simp only [Ctx.jitterTo_eq quiet, first, decodes, last, Bool.not_true, Bool.false_eq_true, if_false, if_true]
  rfl

theorem TrapAt.trapStep_eq (h : TrapAt s n i len) {p : TrapInstr → Bool} (hp : p i = true) :
    s.trapStep n p = (s.setCtx n (s.trapRuns n i len).1).trapEffect n (s.trapRuns n i len).2 := by
  have executes := h.execute
  obtain ⟨running, free, decodes, -⟩ := h
  unfold State.trapStep
  simp only [running, free, decodes, hp, executes, and_self, if_true]

/-- The step of an instruction: its context is stored, and what it raises is raised. -/
theorem TrapAt.answers (h : TrapAt s n i len) {instr : Instr} {p : TrapInstr → Bool}
    (hi : exec instr s = settle (s.trapStep n p)) (hp : p i = true) {c : Ctx} {e : TrapEffect}
    (hx : s.trapRuns n i len = (c, e)) {P : State → Prop} (hP : P ((s.setCtx n c).trapEffect n e).settled) :
    Answers instr s P := by
  refine ⟨_, hi, ?_⟩
  rw [h.trapStep_eq hp, hx]
  exact hP

/-- The step of an instruction that raises nothing. -/
theorem TrapAt.becomes (h : TrapAt s n i len) {instr : Instr} {p : TrapInstr → Bool}
    (hi : exec instr s = settle (s.trapStep n p)) (hp : p i = true) {c : Ctx} (hx : s.trapRuns n i len = (c, .none)) :
    Answers instr s (fun t => CtxBecomes s t n c [] ∧ t.fld (.obj n) Reg.Obj.CTX_STATE = c.state.code) := by
  obtain ⟨becomes, state, -⟩ := ctxBecomes_of_setCtx (State.settled_only (s.setCtx n c)) List.not_mem_nil
  exact h.answers hi hp hx ⟨becomes, state⟩

/-- The step of an instruction that faults (R108). -/
theorem TrapAt.faults (h : TrapAt s n i len) {instr : Instr} {p : TrapInstr → Bool}
    (hi : exec instr s = settle (s.trapStep n p)) (hp : p i = true) {code : Nat}
    (hc : code < 2 ^ Reg.Obj.CTX_FAULT.width) (hx : s.trapRuns n i len = ((s.obj n).ctx.past len).toFault code) :
    Answers instr s (fun t => (t.obj n).ctx.state = .fault ∧ (t.obj n).ctx.p = (s.obj n).ctx.p ∧
      t.fld (.obj n) Reg.Obj.CTX_STATE = 5 ∧ t.fld (.obj n) Reg.Obj.CTX_FAULT = code ∧
      t.fld (.obj n) Reg.Obj.EVT_FLAGS = s.fld (.obj n) Reg.Obj.EVT_FLAGS ||| 4) := by
  obtain ⟨⟨ctx, -⟩, state, fault⟩ := ctxBecomes_of_setCtx (n := n)
    ((State.objEvent_only (s.setCtx n (((s.obj n).ctx.past len).toFault code).1) n 2).settled)
    (by simp [wordAt, Reg.Obj.CTX_STATE, Reg.Obj.EVT_FLAGS])
  refine h.answers hi hp hx ⟨congrArg Ctx.state ctx, (congrArg Ctx.p ctx).trans rfl, state,
    fault.trans (Nat.mod_eq_of_lt hc), ?_⟩
  rw [State.settled_fld _ _ _ (obj_not_statusWord n _)]
  refine (State.objEvent_flags _ n (by decide)).trans (congrArg (· ||| 4) ?_)
  exact (s.setCtx_only n _).fld_eq (by simp [ctxWords, wordAt, Reg.Obj.CTX_STATE, Reg.Obj.CTX_PC, Reg.Obj.CTX_FAULT,
    Reg.Obj.CTX_LOOP_DEPTH, Reg.Obj.EVT_FLAGS]) (obj_not_statusWord n _)

/-- The step of an instruction that raises a program event (R111). -/
theorem TrapAt.notifies (h : TrapAt s n i len) {instr : Instr} {p : TrapInstr → Bool}
    (hi : exec instr s = settle (s.trapStep n p)) (hp : p i = true) {c : Ctx} {code : Nat}
    (hx : s.trapRuns n i len = (c, .program code)) :
    Answers instr s (fun t => (t.obj n).ctx = c ∧ t.fld (.obj n) Reg.Obj.EVT_CODE = code % 256 ∧
      t.fld (.obj n) Reg.Obj.EVT_COUNT = min (s.fld (.obj n) Reg.Obj.EVT_COUNT + 1) (2 ^ Reg.Obj.EVT_COUNT.width - 1) ∧
      t.fld (.obj n) Reg.Obj.EVT_FLAGS = s.fld (.obj n) Reg.Obj.EVT_FLAGS ||| 1) := by
  have kept (f : Fld) (hf : f.off = Reg.Obj.EVT_FLAGS.off) : (s.setCtx n c).fld (.obj n) f = s.fld (.obj n) f :=
    (s.setCtx_only n c).fld_eq (by simp [ctxWords, wordAt, hf, Reg.Obj.CTX_STATE, Reg.Obj.CTX_PC, Reg.Obj.CTX_FAULT,
      Reg.Obj.CTX_LOOP_DEPTH, Reg.Obj.EVT_FLAGS]) (obj_not_statusWord n f)
  obtain ⟨code_, count, flags⟩ := (s.setCtx n c).objProgramEvent_fields n code
  refine h.answers hi hp hx ⟨?_, ?_, ?_, ?_⟩
  · rw [((State.trapEffect_only _ n _).settled).obj_eq, State.obj_setCtx]
  · rw [State.settled_fld _ _ _ (obj_not_statusWord n _)]
    exact code_
  · rw [State.settled_fld _ _ _ (obj_not_statusWord n _)]
    exact count.trans (by rw [kept Reg.Obj.EVT_COUNT rfl])
  · rw [State.settled_fld _ _ _ (obj_not_statusWord n _)]
    exact flags.trans (by rw [kept Reg.Obj.EVT_FLAGS rfl])

end

/-- What follows from an answer is an answer. -/
theorem Answers.imp {c : Instr} {s : State} {P Q : State → Prop} (h : Answers c s P) (hPQ : ∀ t, P t → Q t) :
    Answers c s Q := by
  obtain ⟨t, ht, hP⟩ := h
  exact ⟨t, ht, hPQ t hP⟩

end Sys2Proof.Machine
end

section
/-! PROOFS. The Trapeze instructions one by one: what executing each makes of the context (R102, R105 to R109). -/

namespace Sys2Proof.Machine

open Sys2Proof

/-! Segments -/

/-- A duration in samples is rounded half up (R102). -/
theorem durSamples_rounds (fs scale d : Nat) :
    2 ^ 33 * durSamples fs scale d ≤ 2 * d * scale * fs + 2 ^ 32 ∧
      2 * d * scale * fs + 2 ^ 32 < 2 ^ 33 * (durSamples fs scale d + 1) :=
  ⟨Nat.mul_div_le _ _, Nat.lt_mul_div_succ _ (by decide)⟩

/-- An instruction that begins a segment of a duration (R102, R106). -/
theorem TrapAt.begins {s : State} {n len d : Nat} {i : TrapInstr} {k : SegKind} (h : TrapAt s n i len) {instr : Instr}
    {p : TrapInstr → Bool} (hi : exec instr s = settle (s.trapStep n p)) (hp : p i = true) (hk : k.state = .running)
    (hx : s.trapRuns n i len =
      (((s.obj n).ctx.past len).begin_ k (durSamples s.fs (s.obj n).ctx.timescale d), .none)) :
    Answers instr s (fun t => ∃ N, (2 ^ 33 * N ≤ 2 * d * (s.obj n).ctx.timescale * s.fs + 2 ^ 32 ∧
        2 * d * (s.obj n).ctx.timescale * s.fs + 2 ^ 32 < 2 ^ 33 * (N + 1)) ∧
      CtxBecomes s t n { (s.obj n).ctx with
        pc := (s.obj n).ctx.pc + len
        seg := some { kind := k, s0 := (s.obj n).ctx.at_, n := N, p0 := (s.obj n).ctx.p } } [] ∧
      t.fld (.obj n) Reg.Obj.CTX_STATE = 1) := by
  refine (h.becomes hi hp hx).imp (fun t ⟨becomes, state⟩ => ⟨_, durSamples_rounds s.fs _ d, ?_, ?_⟩)
  · unfold Ctx.begin_ at becomes
    rw [hk, ← h.running] at becomes
    exact becomes
  · exact state.trans (congrArg CtxState.code hk)

/-- Settles O18: each of the four begins its segment. -/
theorem motionSegmentsBegin : Obligations.MotionSegmentsBegin := by
  intro s n len
  exact ⟨fun d h => h.begins rfl rfl rfl rfl, fun p d smooth h => h.begins rfl rfl rfl rfl,
    fun p t0 t1 d h => h.begins rfl rfl rfl rfl, fun plane q w climb d h => h.begins rfl rfl rfl rfl⟩

/-! Waits and parameters -/

/-- HALT freezes the overlay; HALT with NOTIFY raises program event 0xFF besides (R107, R109, R111). -/
theorem State.trapRuns_halt (s : State) (n len : Nat) (notify : Bool) : s.trapRuns n (.halt notify) len =
    ({ ((s.obj n).ctx.past len).freeze (s.obj n).ctx.at_ with state := .halted, seg := none },
      if notify then .program 0xFF else .none) := rfl

section
variable {s : State} {n len d : Nat} {amp : V3}

/-- JITTER with amplitude 0 where no overlay is on (R109). -/
theorem TrapAt.jitter_stays_off (h : TrapAt s n (.jitter {} d) len) (off : (s.obj n).ctx.jitter.on = false) :
    s.trapRuns n (.jitter {} d) len = ((s.obj n).ctx.past len, .none) := by
  have still : ((s.obj n).ctx.past len).jitter.on = false := off
  unfold State.trapRuns Ctx.exec1
  simp only [show ((s.obj n).ctx.past len).at_ = (s.obj n).ctx.at_ from rfl, h.jitterTo_past, still, Bool.false_eq_true,
    if_false, if_true]

/-- The overlay of JITTER with amplitude 0: a last glide from its present value to zero (R109). -/
def Jitter.closes (j : Jitter) (i n : Nat) : Jitter :=
  { on := true, closing := true, start := i, n := n, from_ := j.at_ i, to_ := {} }

theorem TrapAt.jitter_closes (h : TrapAt s n (.jitter {} d) len) (on : (s.obj n).ctx.jitter.on = true) :
    s.trapRuns n (.jitter {} d) len = ({ (s.obj n).ctx.past len with
      jitter := (s.obj n).ctx.jitter.closes (s.obj n).ctx.at_ (durSamples s.fs (s.obj n).ctx.timescale d) }, .none) := by
  have still : ((s.obj n).ctx.past len).jitter.on = true := on
  unfold State.trapRuns Ctx.exec1
  simp only [show ((s.obj n).ctx.past len).at_ = (s.obj n).ctx.at_ from rfl, h.jitterTo_past, still, if_true]
  rfl

/-- The overlay of JITTER with an amplitude: it glides from its present value to a drawn target (R109). -/
def Jitter.opens (j : Jitter) (amp : V3) (i n : Nat) (seed : Word) : Jitter :=
  { on := true, amp := amp, start := i, n := n, from_ := j.at_ i, to_ := (drawTarget amp seed).1 }

theorem TrapAt.jitter_opens (h : TrapAt s n (.jitter amp d) len) (ha : amp ≠ {}) :
    s.trapRuns n (.jitter amp d) len = ({ (s.obj n).ctx.past len with
      lfsr := (drawTarget amp (s.obj n).ctx.lfsr).2
      jitter := (s.obj n).ctx.jitter.opens amp (s.obj n).ctx.at_ (durSamples s.fs (s.obj n).ctx.timescale d)
        (s.obj n).ctx.lfsr }, .none) := by
  unfold State.trapRuns Ctx.exec1
  simp only [show ((s.obj n).ctx.past len).at_ = (s.obj n).ctx.at_ from rfl, h.jitterTo_past, ha, if_false]
  rfl

end

/-- Settles O19, instruction by instruction. -/
theorem waitsHaltJitterAndParameters : Obligations.WaitsHaltJitterAndParameters := by
  intro s n len
  refine ⟨fun target h => h.becomes rfl rfl rfl, fun ns h => (h.becomes rfl rfl rfl).imp (fun _ => And.left),
    fun k clear h => h.becomes rfl rfl rfl, fun h => h.becomes rfl rfl (s.trapRuns_halt n len false), fun h => ?notify,
    fun d h off => (h.becomes rfl rfl (h.jitter_stays_off off)).imp (fun _ => And.left), fun d h on => ?closes,
    fun amp d h ha => ?opens, fun v h => (h.becomes rfl rfl rfl).imp (fun _ => And.left),
    fun p h => (h.becomes rfl rfl rfl).imp (fun _ => And.left), fun q h => (h.becomes rfl rfl rfl).imp (fun _ => And.left)⟩
  case notify =>
    exact (h.notifies rfl rfl (s.trapRuns_halt n len true)).imp
      (fun _ ⟨ctx, code, _, flags⟩ => ⟨congrArg Ctx.state ctx, code, flags⟩)
  case closes =>
    refine (h.becomes rfl rfl (h.jitter_closes on)).imp (fun _ ⟨⟨ctx, _⟩, _⟩ => ?_)
    rw [ctx]
    exact ⟨rfl, rfl, rfl, rfl, rfl⟩
  case opens =>
    refine (h.becomes rfl rfl (h.jitter_opens ha)).imp (fun _ ⟨⟨ctx, _⟩, _⟩ => ?_)
    rw [ctx]
    exact ⟨rfl, rfl, rfl, rfl, rfl, rfl, rfl⟩

/-! Loops and jumps -/

/-- A context goes on at an address within its program's region (R108). -/
theorem Ctx.goto_inside {c : Ctx} {r : Option (Nat × Nat)} {pc : Int} (h : inRegion r pc = true) :
    c.goto r pc = ({ c with pc := pc.toNat }, .none) := if_pos h

/-- Outside it faults with code REGION (R108). -/
theorem Ctx.goto_outside {c : Ctx} {r : Option (Nat × Nat)} {pc : Int} (h : inRegion r pc = false) :
    c.goto r pc = c.toFault 3 := if_neg (by rw [h]; decide)

section
variable {s : State} {n len a k : Nat} {rest : List (Nat × Nat)}

theorem State.trapRuns_loop (hl : (s.obj n).ctx.loops.length < 4) : s.trapRuns n (.loop k) len =
    ({ (s.obj n).ctx.past len with loops := ((s.obj n).ctx.pc + len, k) :: (s.obj n).ctx.loops }, .none) :=
  if_neg (Nat.not_le.mpr hl)

theorem State.trapRuns_loop_deep (hl : 4 ≤ (s.obj n).ctx.loops.length) :
    s.trapRuns n (.loop k) len = ((s.obj n).ctx.past len).toFault 1 := if_pos hl

/-- What ENDL does depends on the innermost loop (R107). -/
theorem State.trapRuns_endl (hl : (s.obj n).ctx.loops = (a, k) :: rest) : s.trapRuns n .endl len =
    if k = 0 then ((s.obj n).ctx.past len).goto (s.motion.regionOf (s.obj n).ctx.entry) a
    else if 1 < k then
      ({ (s.obj n).ctx.past len with loops := (a, k - 1) :: rest } : Ctx).goto (s.motion.regionOf (s.obj n).ctx.entry) a
    else ({ (s.obj n).ctx.past len with loops := rest }, .none) := by
  have still : ((s.obj n).ctx.past len).loops = (a, k) :: rest := hl
  unfold State.trapRuns Ctx.exec1
  simp only [still]

theorem State.trapRuns_endl_none (hl : (s.obj n).ctx.loops = []) :
    s.trapRuns n .endl len = ((s.obj n).ctx.past len).toFault 2 := by
  have still : ((s.obj n).ctx.past len).loops = [] := hl
  unfold State.trapRuns Ctx.exec1
  simp only [still]

end

/-- Settles O20, by the loops that are open and by where the jump leads. -/
theorem loopsJumpsAndEvents : Obligations.LoopsJumpsAndEvents := by
  intro s n len
  refine ⟨fun k h hl => (h.becomes rfl rfl (State.trapRuns_loop hl)).imp (fun _ => And.left),
    fun k h hl => h.faults rfl rfl (by decide) (State.trapRuns_loop_deep hl), fun a rest h hl hr => ?forever,
    fun a k rest h hl hk hr => ?counted, fun a rest h hl => ?last,
    fun h hl => h.faults rfl rfl (by decide) (State.trapRuns_endl_none hl),
    fun off h hr => (h.becomes rfl rfl (Ctx.goto_inside hr)).imp (fun _ => And.left),
    fun off h hr => h.faults rfl rfl (by decide) (Ctx.goto_outside hr), fun code h => h.notifies rfl rfl rfl⟩
  case forever =>
    have repeats := (State.trapRuns_endl (len := len) hl).trans ((if_pos rfl).trans (Ctx.goto_inside hr))
    exact (h.becomes rfl rfl repeats).imp (fun _ => And.left)
  case counted =>
    have repeats := (State.trapRuns_endl (len := len) hl).trans
      ((if_neg (by omega)).trans ((if_pos hk).trans (Ctx.goto_inside hr)))
    exact (h.becomes rfl rfl repeats).imp (fun _ => And.left)
  case last =>
    have leaves := (State.trapRuns_endl (len := len) hl).trans ((if_neg (by decide)).trans (if_neg (by decide)))
    exact (h.becomes rfl rfl leaves).imp (fun _ => And.left)

end Sys2Proof.Machine
end

section
/-! PROOFS. MOTION_LOAD puts a program into a region of free granules, or refuses it; FREE gives a region back that nothing
uses (R112, R113). -/

namespace Sys2Proof.Machine

open Sys2Proof

/-! The program in its region -/

/-- Granules of 64 words that a program takes (R112). -/
def granules (ws : List Word) : Nat := (ws.length + 63) / 64

/-- Zero words behind a list of words read as the words behind its end do. -/
theorem getD_append_zeros (ws : List Word) (m k : Nat) :
    (ws ++ List.replicate m 0#32).getD k 0#32 = ws.getD k 0#32 := by
  by_cases inside : k < ws.length
  · exact List.getD_append _ _ _ _ inside
  · have behind : ws.length ≤ k := Nat.not_lt.mp inside
    rw [List.getD_append_right _ _ _ _ behind, List.getD_eq_default ws _ behind]
    simp only [List.getD_eq_getElem?_getD, List.getElem?_replicate]
    split <;> rfl

/-- The words of a program's region: the program, then HALT to the end of its last granule (R112). -/
def regionWords (ws : List Word) : List Word := ws ++ List.replicate (64 * granules ws - ws.length) 0#32

theorem length_regionWords (ws : List Word) : (regionWords ws).length = 64 * granules ws := by
  rw [regionWords, List.length_append, List.length_replicate, granules]
  omega

/-- The state with a program in a region of its own from granule `at_` on. -/
def State.withProgram (s : State) (seat at_ : Nat) (ws : List Word) : State :=
  { s with motion := { s.motion with
    mem := putWords (64 * at_) (regionWords ws) s.motion.mem
    regions := s.motion.regions ++ [{ base := 64 * at_, words := 64 * granules ws, seat := seat }] } }

/-- Motion memory with a program in it: the program's words, HALT behind it, and every other word as before. -/
theorem State.withProgram_mem (s : State) (seat at_ : Nat) (ws : List Word) (a : Nat) :
    Map.get 0#32 a (s.withProgram seat at_ ws).motion.mem =
      if 64 * at_ ≤ a ∧ a < 64 * at_ + 64 * granules ws then ws.getD (a - 64 * at_) 0#32 else Map.get 0#32 a s.motion.mem := by
  rw [show (s.withProgram seat at_ ws).motion.mem = putWords (64 * at_) (regionWords ws) s.motion.mem from rfl,
    get_putWords, length_regionWords, regionWords, getD_append_zeros]

/-- The granules found lie in no region (R112). -/
theorem Motion.fit_free {m : Motion} {g at_ : Nat} (h : m.fit g = some at_) (r : Region) (hr : r ∈ m.regions) (k : Nat)
    (hk : k < g) : ¬ (r.base ≤ 64 * (at_ + k) ∧ 64 * (at_ + k) < r.base + r.words) := by
  have found := List.find?_some h
  simp only [Bool.and_eq_true, List.all_eq_true, List.mem_range, Bool.not_eq_eq_eq_not, Bool.not_true,
    List.any_eq_false, decide_eq_true_eq] at found
  exact found.2 k hk r hr

/-! MOTION_LOAD -/

section
variable {s : State} {c : Cmd} {data f : List Byte}

/-- A faulty program is refused with the offset of its first bad word (R112). -/
theorem State.motionLoad_faulty {o : Nat} (hv : motionFault (fileWords f) = some o) :
    s.motionLoad c f = s.finish c.seat c.tag Status.badParam o := by
  unfold State.motionLoad
  simp only [hv]

/-- A valid program that fits nowhere is refused (R112). -/
theorem State.motionLoad_unfitting (hv : motionFault (fileWords f) = none)
    (hg : s.motion.fit (granules (fileWords f)) = none) : s.motionLoad c f = s.finish c.seat c.tag Status.noCapacity := by
  unfold granules at hg
  unfold State.motionLoad
  simp only [hv, hg]

/-- A valid program that fits is written, with a region of its own (R112). -/
theorem State.motionLoad_fitting {at_ : Nat} (hv : motionFault (fileWords f) = none)
    (hg : s.motion.fit (granules (fileWords f)) = some at_) : s.motionLoad c f =
      ((s.withProgram c.seat at_ (fileWords f)).forwardFile c f).finish c.seat c.tag Status.ok (64 * at_) := by
  unfold granules at hg
  unfold State.motionLoad
  simp only [hv, hg]
  rfl

theorem CommandFrame.motion {s t : State} (h : CommandFrame s t) : t.motion = s.motion :=
  h.keeps (·.motion) (fun _ _ _ _ _ => rfl)

/-- The step of MOTION_LOAD whose source is right and at hand. -/
theorem exec_motionLoad (h : Issued s c 0x58) (hflag : c.flag 0 = false) (hs : s.sourceFault c 1 = none)
    (hb : s.sourceBytes c 1 data = some f) :
    exec (.motionLoad c.seat c.tag data) s = settle (s.command c.seat c.tag 0x58 (fun c s => s.motionLoad c f)) := by
  have step : exec (.motionLoad c.seat c.tag data) s = execMotionLoad c.seat c.tag data s := rfl
  rw [step]
  unfold execMotionLoad
  simp only [h.1, hflag, Bool.false_eq_true, if_false]
  rw [State.withSource_eq h hs hb]

/-- MOTION_LOAD that is refused: motion memory and its regions stay (R112). -/
theorem motionLoad_answers_refused (h : Issued s c 0x58) (hflag : c.flag 0 = false) (hs : s.sourceFault c 1 = none)
    (hb : s.sourceBytes c 1 data = some f) {st r0 : Nat}
    (refused : (s.begun c).motionLoad { c with started := true } f = (s.begun c).finish c.seat c.tag st r0) :
    Answers (.motionLoad c.seat c.tag data) s (fun t => Completes s t c st r0 0 ∧ t.motion = s.motion) :=
  answers_ended h (exec_motionLoad h hflag hs hb) refused rfl rfl
    (fun _ frame done => ⟨done, ((State.begun_frame h).trans frame).motion⟩)

/-- MOTION_LOAD of a valid program that fits (R112). -/
theorem motionLoad_answers_loaded (h : Issued s c 0x58) (hflag : c.flag 0 = false) (hs : s.sourceFault c 1 = none)
    (hb : s.sourceBytes c 1 data = some f) {at_ : Nat} (hv : motionFault (fileWords f) = none)
    (hg : s.motion.fit (granules (fileWords f)) = some at_) :
    Answers (.motionLoad c.seat c.tag data) s (fun t =>
      Completes s t c Status.ok (64 * at_) 0 ∧ t.motion = (s.withProgram c.seat at_ (fileWords f)).motion) := by
  have begun := (State.begun_frame h).motion
  obtain ⟨l, told⟩ := ((s.begun c).withProgram c.seat at_ (fileWords f)).forwardFile_shape { c with started := true } f
  refine answers_ended h (exec_motionLoad h hflag hs hb)
    (State.motionLoad_fitting (c := { c with started := true }) hv (by rw [begun]; exact hg)) ?_ ?_
    (fun t frame done => ⟨done, ?_⟩)
  · rw [told]
    rfl
  · rw [told]
    rfl
  · rw [frame.motion, told]
    simp only [State.withProgram, begun]

/-! FREE -/

/-- Whether a region is in use does not depend on the commands in flight. -/
theorem CommandFrame.regionUsed {s t : State} (h : CommandFrame s t) (r : Region) : t.regionUsed r = s.regionUsed r := by
  have model : t.model = s.model := h.keeps (·.model) (fun _ _ _ _ _ => rfl)
  have ctx (n : Nat) : t.obj n = s.obj n := h.keeps (State.obj · n) (fun _ _ _ _ _ => rfl)
  have staged (n : Nat) : t.stg (.obj n) Reg.Obj.MOTION_ENTRY = s.stg (.obj n) Reg.Obj.MOTION_ENTRY :=
    h.keeps (State.stg · (.obj n) Reg.Obj.MOTION_ENTRY) (fun _ _ _ _ _ => rfl)
  unfold State.regionUsed
  simp only [model, ctx, staged, h.obj_fld]

/-- What FREE does once it has begun: the region that begins at its operand goes, unless the seat may not give it back or
it is in use (R113). -/
def State.freeRegion (s : State) (c : Cmd) : State :=
  match s.motion.regions.find? (fun r => r.base = c.n 0) with
  | none => s.finish c.seat c.tag Status.badParam
  | some r =>
    if c.seat ≠ 0 ∧ c.seat ≠ r.seat then s.finish c.seat c.tag Status.notOwner
    else if s.regionUsed r then s.finish c.seat c.tag Status.busy
    else
      (({ s with motion := { s.motion with regions := s.motion.regions.filter (·.base ≠ r.base) } } : State).forwardFile
        c []).finish c.seat c.tag Status.ok (r.words / 64)

/-- The step of MOTION_LOAD with FREE. -/
theorem exec_motionFree (h : Issued s c 0x58) (hflag : c.flag 0 = true) :
    exec (.motionFree c.seat c.tag) s = settle (s.command c.seat c.tag 0x58 (fun c s => s.freeRegion c)) := by
  have step : exec (.motionFree c.seat c.tag) s = execMotionFree c.seat c.tag s := rfl
  rw [step]
  unfold execMotionFree
  simp only [h.1, hflag, Bool.not_true, Bool.false_eq_true, if_false]
  rfl

/-- The state without regions of motion memory. -/
def State.noRegions (s : State) : State := { s with motion := { s.motion with regions := [] } }

/-- FREE of the only region, by its own seat. -/
theorem State.freeRegion_only {r : Region} (hr : s.motion.regions = [r]) (hn : c.n 0 = r.base) (hq : r.seat = c.seat) :
    s.freeRegion c = if s.regionUsed r then s.finish c.seat c.tag Status.busy
      else (s.noRegions.forwardFile c []).finish c.seat c.tag Status.ok (r.words / 64) := by
  have found : s.motion.regions.find? (fun r => r.base = c.n 0) = some r := by
    rw [hr, hn]
    exact List.find?_cons_of_pos (decide_eq_true rfl)
  have none_left : s.motion.regions.filter (·.base ≠ r.base) = [] := by simp [hr]
  unfold State.freeRegion
  simp only [found, hq, ne_eq, not_true_eq_false, and_false, if_false]
  simp only [← ne_eq, none_left]
  rfl

/-- FREE of a region in use (R113). -/
theorem motionFree_answers_busy {r : Region} (h : Issued s c 0x58) (hflag : c.flag 0 = true)
    (hr : s.motion.regions = [r]) (hn : c.n 0 = r.base) (hq : r.seat = c.seat) (used : s.regionUsed r = true) :
    Answers (.motionFree c.seat c.tag) s (fun t => Completes s t c Status.busy 0 0 ∧ t.motion = s.motion) := by
  have begun := State.begun_frame h
  exact answers_ended h (exec_motionFree h hflag)
    ((State.freeRegion_only (c := { c with started := true }) (by rw [begun.motion]; exact hr) hn hq).trans
      (if_pos (by rw [begun.regionUsed]; exact used))) rfl rfl
    (fun _ frame done => ⟨done, (begun.trans frame).motion⟩)

/-- FREE of a region that nothing uses (R113). -/
theorem motionFree_answers_freed {r : Region} (h : Issued s c 0x58) (hflag : c.flag 0 = true)
    (hr : s.motion.regions = [r]) (hn : c.n 0 = r.base) (hq : r.seat = c.seat) (free : s.regionUsed r = false) :
    Answers (.motionFree c.seat c.tag) s (fun t => Completes s t c Status.ok (r.words / 64) 0 ∧
      t.motion.regions = [] ∧ t.motion.mem = s.motion.mem) := by
  have begun := State.begun_frame h
  obtain ⟨l, told⟩ := (s.begun c).noRegions.forwardFile_shape { c with started := true } []
  refine answers_ended h (exec_motionFree h hflag)
    ((State.freeRegion_only (c := { c with started := true }) (by rw [begun.motion]; exact hr) hn hq).trans
      (if_neg (by rw [begun.regionUsed, free]; decide))) ?_ ?_ (fun t frame done => ⟨done, ?_, ?_⟩)
  · rw [told]
    rfl
  · rw [told]
    rfl
  · rw [frame.motion, told]
    rfl
  · rw [frame.motion, told, ← begun.motion]
    rfl

end

/-- Settles O33: a program that fits is written into free granules, any other is refused; a region that nothing uses goes. -/
theorem motionLoads : Obligations.MotionLoads := by
  refine ⟨fun s c data f h hflag hs hb => ⟨fun at_ hv hg => ?_, fun o hv => ?_, fun hv hg => ?_⟩,
    fun s c r h hflag hr hn hq => ⟨motionFree_answers_freed h hflag hr hn hq, motionFree_answers_busy h hflag hr hn hq⟩⟩
  · refine (motionLoad_answers_loaded h hflag hs hb hv hg).imp (fun t ⟨done, motion⟩ => ?_)
    rw [motion]
    exact ⟨done, rfl, fun r hr k hk => Motion.fit_free hg r hr k hk, s.withProgram_mem c.seat at_ (fileWords f)⟩
  · exact motionLoad_answers_refused h hflag hs hb (State.motionLoad_faulty (c := { c with started := true }) hv)
  · have still := (State.begun_frame h).motion
    exact motionLoad_answers_refused h hflag hs hb
      (State.motionLoad_unfitting (c := { c with started := true }) hv (by rw [still]; exact hg))

end Sys2Proof.Machine
end

section
/-! PROOFS. Motion commands and flags of an object, the ends of its segments and of its jitter intervals, and the end of its
draining (R82, R86, R101, R102, R109, R110). -/

namespace Sys2Proof.Machine

open Sys2Proof

/-! START and STOP -/

/-- Showing a command in MOTION.CMD leaves the mode in force (R82). -/
theorem State.motionCmd_mode (s : State) (n v : Nat) :
    (s.set (.obj n) Reg.Obj.MOTION_CMD v).fld (.obj n) Reg.Obj.CTRL_MOTION_MODE =
      s.fld (.obj n) Reg.Obj.CTRL_MOTION_MODE := State.fld_set_apart _ _ _ (by decide)

section
variable {s : State} {n sa : Nat} {instr : Instr} {start : Bool}

/-- In DIRECT mode a motion command shows in MOTION.CMD alone (R101). -/
theorem motionCmd_answers_direct (hi : exec instr s = settle (s.motionCmd n start sa))
    (hm : s.fld (.obj n) Reg.Obj.CTRL_MOTION_MODE = 0) : Answers instr s (fun t =>
      t.fld (.obj n) Reg.Obj.MOTION_CMD = (if start then 1 else 2) ∧ OnlyWords s t [wordAt (.obj n) Reg.Obj.MOTION_CMD]) := by
  have shows : s.motionCmd n start sa = s.set (.obj n) Reg.Obj.MOTION_CMD (if start then 1 else 2) :=
    if_pos ((s.motionCmd_mode n _).trans hm)
  refine ⟨_, hi, ?_, ?_⟩
  · rw [State.settled_fld _ _ _ (obj_not_statusWord n _), shows, State.fld_set_same _ _ _ _ ⟨by decide, by decide⟩]
    cases start <;> rfl
  · rw [shows]
    exact (OnlyWords.set s _ _ _).settled

/-- In another mode the command waits in the object's context besides, behind earlier ones (R101, R592). -/
theorem motionCmd_answers_program (hi : exec instr s = settle (s.motionCmd n start sa))
    (hm : s.fld (.obj n) Reg.Obj.CTRL_MOTION_MODE ≠ 0) : Answers instr s (fun t =>
      t.obj n = { s.obj n with cmds := (s.obj n).cmds ++ [(start, sa)] } ∧
      t.fld (.obj n) Reg.Obj.MOTION_CMD = (if start then 1 else 2) ∧
      OnlyWords { s with objs := t.objs } t [wordAt (.obj n) Reg.Obj.MOTION_CMD]) := by
  have waits : s.motionCmd n start sa = (s.setObj n { s.obj n with cmds := (s.obj n).cmds ++ [(start, sa)] }).set
      (.obj n) Reg.Obj.MOTION_CMD (if start then 1 else 2) :=
    if_neg (by rw [State.motionCmd_mode]; exact hm)
  have only := (OnlyWords.set (s.setObj n { s.obj n with cmds := (s.obj n).cmds ++ [(start, sa)] }) (.obj n)
    Reg.Obj.MOTION_CMD (if start then 1 else 2)).settled
  rw [← waits] at only
  refine ⟨_, hi, ?_, ?_, only.objs⟩
  · rw [only.obj_eq, State.obj_setObj]
  · rw [State.settled_fld _ _ _ (obj_not_statusWord n _), waits, State.fld_set_same _ _ _ _ ⟨by decide, by decide⟩]
    cases start <;> rfl

/-- Motion flags to set and to clear outside LOCKSTEP are noted in the object's engine and nowhere else (R110). -/
theorem motionFlags_answers {set clr : Nat} (hi : exec instr s = settle (s.motionFlags n set clr)) (hl : s.lockPri = false) :
    Answers instr s (fun t =>
      t.obj n = { s.obj n with flagSet := (s.obj n).flagSet ||| set % 256, flagClr := (s.obj n).flagClr ||| clr % 256 } ∧
      OnlyWords { s with objs := t.objs } t []) := by
  have noted : s.motionFlags n set clr = s.setObj n
      { s.obj n with flagSet := (s.obj n).flagSet ||| set % 256, flagClr := (s.obj n).flagClr ||| clr % 256 } := by
    unfold State.motionFlags
    simp only [hl, Bool.false_eq_true, if_false]
  have only := State.settled_only (s.motionFlags n set clr)
  rw [noted] at only hi
  exact ⟨_, hi, by rw [only.obj_eq, State.obj_setObj], only.objs⟩

end

/-! Ends of segments and of jitter intervals -/

/-- A segment of a length: a HOLD or a MOVE (R106). -/
def SegKind.Timed (k : SegKind) : Prop := k = .hold ∨ ∃ p smooth, k = .move p smooth

/-- Such a segment ends where its samples have passed (R102). -/
theorem Segment.endAt_timed {g : Segment} (hk : g.kind.Timed) (now flags : Nat) : g.endAt now flags = some (g.s0 + g.n) := by
  unfold Segment.endAt
  rcases hk with hk | ⟨p, smooth, hk⟩ <;> simp only [hk]

section
variable {s : State} {n : Nat} {g : Segment}

/-- SEGMENT_END of a timed segment whose last sample has passed (R102). -/
theorem segmentEnd_answers_due (hg : (s.obj n).ctx.seg = some g) (hk : g.kind.Timed) (due : g.s0 + g.n ≤ s.render.rsi) :
    Answers (.segmentEnd n) s (fun t => (t.obj n).ctx = (s.obj n).ctx.segEnd s.fs g (g.s0 + g.n)) := by
  have ends : ∃ u, execSegmentEnd n s = settle u ∧ (u.obj n).ctx = (s.obj n).ctx.segEnd s.fs g (g.s0 + g.n) := by
    refine ⟨if g.steps then (s.setCtx n ((s.obj n).ctx.segEnd s.fs g (g.s0 + g.n))).setObj n
      { (s.setCtx n ((s.obj n).ctx.segEnd s.fs g (g.s0 + g.n))).obj n with relocs := (s.obj n).relocs ++ [g.s0 + g.n] }
      else s.setCtx n ((s.obj n).ctx.segEnd s.fs g (g.s0 + g.n)), ?_, ?_⟩
    · unfold execSegmentEnd
      simp only [hg, Segment.endAt_timed hk, due, if_true]
      rcases hk with hk | ⟨p, smooth, hk⟩ <;> simp only [hk]
    · split <;> simp only [State.obj_setObj, State.obj_setCtx]
  obtain ⟨u, step, ctx⟩ := ends
  exact ⟨_, step, (congrArg ObjEngine.ctx (u.settled_only.obj_eq n)).trans ctx⟩

/-- Before that it does nothing. -/
theorem segmentEnd_answers_early (hg : (s.obj n).ctx.seg = some g) (hk : g.kind.Timed) (early : s.render.rsi < g.s0 + g.n) :
    Answers (.segmentEnd n) s (OnlyWords s · []) := by
  have waits : execSegmentEnd n s = settle s := by
    unfold execSegmentEnd
    simp only [hg, Segment.endAt_timed hk, Nat.not_le.mpr early, if_false]
  exact ⟨_, waits, s.settled_only⟩

/-- JITTER_INTERVAL_END at an interval's end (R109). -/
theorem jitterIntervalEnd_answers (on : (s.obj n).ctx.jitter.on = true) (pos : 0 < (s.obj n).ctx.jitter.n)
    (due : (s.obj n).ctx.jitter.start + (s.obj n).ctx.jitter.n ≤ s.render.rsi) :
    Answers (.jitterIntervalEnd n) s (fun t => (t.obj n).ctx = (s.obj n).ctx.intervalEnd) := by
  have ends : execJitterIntervalEnd n s = settle (s.setCtx n (s.obj n).ctx.intervalEnd) := if_pos ⟨on, pos, due⟩
  exact ⟨_, ends, congrArg ObjEngine.ctx (((State.settled_only _).obj_eq n).trans (State.obj_setCtx _ _ _))⟩

end

/-- A closing glide ends with the overlay off (R109). -/
theorem Ctx.intervalEnd_closing {c : Ctx} (h : c.jitter.closing = true) : c.intervalEnd = { c with jitter := {} } := if_pos h

/-- Another interval is followed by a glide from where it ended to a drawn target (R109). -/
theorem Ctx.intervalEnd_open {c : Ctx} (h : c.jitter.closing = false) : c.intervalEnd = { c with
    lfsr := (drawTarget c.jitter.amp c.lfsr).2
    jitter := { c.jitter with start := c.jitter.start + c.jitter.n, from_ := c.jitter.to_
                              to_ := (drawTarget c.jitter.amp c.lfsr).1 } } := if_neg (by rw [h]; decide)

/-! Draining -/

/-- What the layout page's words leave alone of an object: its engine, its paths, and a field of its record. -/
def State.objectView (s : State) (n : Nat) (f : Fld) : ObjEngine × ObjPaths × Nat :=
  (s.obj n, s.pathsOf n, s.fld (.obj n) f)

theorem State.set_layout_objectView (s : State) (n : Nat) (f g : Fld) (v : Nat) (hg : g.off < 0x1000) :
    (s.set .layout g v).objectView n f = s.objectView n f := by
  unfold State.objectView
  rw [State.fld_set_word _ _ _ _ _ _ (by simp only [Blk.base]; omega)]
  rfl

/-- The four slots that the layout page shows. -/
theorem slotFields_off {k : Nat} (hk : k ∈ List.range 4) : (Reg.Layout.SLOT_ID k).off < 0x1000 ∧
    (Reg.Layout.SLOT_INFO_SPEAKERS k).off < 0x1000 ∧ (Reg.Layout.SLOT_INFO_VIRTUAL k).off < 0x1000 ∧
    (Reg.Layout.SLOT_INFO_TRIANGLES k).off < 0x1000 := by
  revert k
  decide

theorem State.showLayouts_objectView (s : State) (n : Nat) (f : Fld) : s.showLayouts.objectView n f = s.objectView n f := by
  have put (t : State) (g : Fld) (v : Nat) (hg : g.off < 0x1000) : (t.set .layout g v).objectView n f = t.objectView n f :=
    t.set_layout_objectView n f g v hg
  unfold State.showLayouts State.setBit
  dsimp only
  refine (foldl_keeps (State.objectView · n f) (fun t k hk => ?_) _).trans ?_
  · obtain ⟨id, speakers, virtual, triangles⟩ := slotFields_off hk
    rw [put _ _ _ triangles, put _ _ _ virtual, put _ _ _ speakers, put _ _ _ id]
  · rw [put _ _ _ (by decide), put _ _ _ (by decide), put _ _ _ (by decide), put _ _ _ (by decide), put _ _ _ (by decide)]
    split
    · rw [put _ _ _ (by decide), put _ _ _ (by decide), put _ _ _ (by decide)]
    · rw [put _ _ _ (by decide), put _ _ _ (by decide)]

theorem State.releaseOldBank_objectView (s : State) (n : Nat) (f : Fld) :
    s.releaseOldBank.objectView n f = s.objectView n f := by
  unfold State.releaseOldBank
  split
  · rfl
  · exact State.showLayouts_objectView _ n f

/-- An object that drops its paths holds none, and its record shows that none is granted (R119, R169). -/
theorem State.dropPaths_spec (s : State) (n : Nat) : (s.dropPaths n).obj n = s.obj n ∧ ((s.dropPaths n).pathsOf n).sets = [] ∧
    (s.dropPaths n).fld (.obj n) Reg.Obj.PATHS_GRANTED = 0 := by
  unfold State.dropPaths
  have kept (t : State) := t.releaseOldBank_objectView n Reg.Obj.PATHS_GRANTED
  refine ⟨congrArg (·.1) (kept _), ?_, (congrArg (·.2.2) (kept _)).trans ?_⟩
  · refine (congrArg (·.2.1.sets) (kept _)).trans ?_
    exact congrArg ObjPaths.sets (State.pathsOf_setPathsOf _ n _)
  · exact State.fld_set_same _ _ _ _ ⟨by decide, by decide⟩

/-- DRAINED of an object whose paths can read no more (R86). -/
theorem drained_answers {s : State} {n : Nat} (h : s.drained n = true) : Answers (.drained n) s (fun t =>
    (t.obj n).draining = none ∧ (t.obj n).near = [] ∧ (t.obj n).far = [] ∧ (t.pathsOf n).sets = [] ∧
      (t.fld (.obj n) Reg.Obj.EVT_FLAGS).testBit 6 = true ∧ t.fld (.obj n) Reg.Obj.PATHS_GRANTED = 0) := by
  let emptied := s.setObj n { s.obj n with draining := none, sections := [], near := [], far := [] }
  let dropped := (emptied.setPathsOf n { emptied.pathsOf n with onOld := false }).dropPaths n
  let shown := dropped.setBit (.obj n) Reg.Obj.PATHS_DRAINING false
  have ends : execDrained n s = settle (shown.objEvent n 6) := if_pos h
  obtain ⟨engine, sets, granted⟩ :=
    (emptied.setPathsOf n { emptied.pathsOf n with onOld := false }).dropPaths_spec n
  have only : OnlyWords shown (shown.objEvent n 6).settled [wordAt (.obj n) Reg.Obj.EVT_FLAGS] :=
    (shown.objEvent_only n 6).settled
  have empty : (shown.objEvent n 6).settled.obj n =
      { s.obj n with draining := none, sections := [], near := [], far := [] } :=
    (only.obj_eq n).trans (engine.trans (State.obj_setObj _ _ _))
  refine ⟨_, ends, ?_, ?_, ?_, ?_, ?_, ?_⟩
  · rw [empty]
  · rw [empty]
  · rw [empty]
  · exact (congrArg ObjPaths.sets (only.keeps (State.pathsOf · n) (fun _ _ => rfl))).trans sets
  · rw [State.settled_fld _ _ _ (obj_not_statusWord n _), State.objEvent_flags _ _ (by decide), Nat.testBit_or,
      Nat.testBit_two_pow_self, Bool.or_true]
  · rw [only.fld_eq (by simp [wordAt, Reg.Obj.PATHS_GRANTED, Reg.Obj.EVT_FLAGS]) (obj_not_statusWord n _)]
    exact (State.fld_set_apart _ _ _ (by decide)).trans granted

/-- Settles O21, command by command. -/
theorem motionCommandsAndEnds : Obligations.MotionCommandsAndEnds := by
  intro s n o
  refine ⟨fun sa hm => ⟨motionCmd_answers_program (start := true) rfl hm,
      motionCmd_answers_program (start := false) rfl hm⟩,
    fun sa hm => motionCmd_answers_direct (start := true) rfl hm,
    fun flags hl => ⟨?sets, ?clears⟩,
    fun g hg hk => ⟨fun due => ?ends, fun early => segmentEnd_answers_early hg hk early⟩,
    fun on pos due => ⟨fun closing => ?closes, fun going => ?goes⟩, drained_answers⟩
  case sets =>
    have noted := motionFlags_answers (s := s) (n := n) (instr := .motionFlagsSet n flags) (set := flags) (clr := 0) rfl hl
    rwa [Nat.zero_mod, Nat.or_zero] at noted
  case clears =>
    have noted := motionFlags_answers (s := s) (n := n) (instr := .motionFlagsClr n flags) (set := 0) (clr := flags) rfl hl
    rwa [Nat.zero_mod, Nat.or_zero] at noted
  case ends =>
    refine (segmentEnd_answers_due hg hk due).imp (fun t ctx => ctx.trans ?_)
    unfold Ctx.segEnd
    rw [Nat.add_sub_cancel_left]
  case closes => exact (jitterIntervalEnd_answers on pos due).imp (fun _ ctx => ctx.trans (Ctx.intervalEnd_closing closing))
  case goes => exact (jitterIntervalEnd_answers on pos due).imp (fun _ ctx => ctx.trans (Ctx.intervalEnd_open going))

end Sys2Proof.Machine
end

section
/-! PROOFS. The Trapeze's job of a block for an object in DIRECT mode, and that the jobs of a block run once in it (R95, R96,
R98, R373). -/

namespace Sys2Proof.Machine

open Sys2Proof

/-! The job of a DIRECT object -/

/-- An object whose record says DIRECT as its engine does, that has not just begun, and whose record changes at no sample of
the block: the block finds its engine as it is (R96, R97, R99). -/
theorem State.trapezeChanges_none (s : State) {n b : Nat} (hm : (s.obj n).mode = 0)
    (hc : s.fldAt (.obj n) Reg.Obj.CTRL_MOTION_MODE (s.blockStart b) = 0) (ha : (s.obj n).activatedAt = none)
    (hs : ∀ i ∈ s.blockSamples b, s.changedAt (.obj n) i = none) :
    (s.blockSamples b).foldl (fun o i => if (s.changedAt (.obj n) i).isSome then s.posChange n i o else o)
      (s.appear n (s.modeChange n (s.blockStart b)
        (s.fldAt (.obj n) Reg.Obj.CTRL_MOTION_MODE (s.blockStart b)) (s.obj n))) = s.obj n := by
  have mode : s.modeChange n (s.blockStart b) (s.fldAt (.obj n) Reg.Obj.CTRL_MOTION_MODE (s.blockStart b)) (s.obj n) =
      s.obj n := if_pos (hc.trans hm.symm)
  have begun : s.appear n (s.obj n) = s.obj n := by
    unfold State.appear
    rw [ha]
  rw [mode, begun]
  refine List.foldlRecOn (motive := fun o => o = s.obj n) _ _ rfl (fun o ho i hi => ?_)
  rw [hs i hi, ho]
  rfl

/-- The position of a DIRECT object is that of its ramp (R96). -/
theorem ObjEngine.position_direct {o : ObjEngine} (h : o.mode = 0) (fs i : Nat) : o.position fs i = o.direct.at_ i := by
  unfold ObjEngine.position
  simp only [h]

/-- CUR shows a position (R81). -/
theorem State.showCur_fields (s : State) (n : Nat) (p : V3) :
    (s.showCur n p).fld (.obj n) Reg.Obj.CUR_X = unsigned 32 p.x ∧ (s.showCur n p).fld (.obj n) Reg.Obj.CUR_Y = unsigned 32 p.y ∧
      (s.showCur n p).fld (.obj n) Reg.Obj.CUR_Z = unsigned 32 p.z := by
  have fits (x : Int) : unsigned 32 x % 2 ^ 32 = unsigned 32 x := by
    refine Nat.mod_eq_of_lt ?_
    unfold unsigned
    omega
  unfold State.showCur
  refine ⟨?_, ?_, ?_⟩
  · rw [State.fld_set_apart _ _ _ (by decide), State.fld_set_apart _ _ _ (by decide),
      State.fld_set_same _ _ _ _ ⟨by decide, by decide⟩]
    exact fits _
  · rw [State.fld_set_apart _ _ _ (by decide), State.fld_set_same _ _ _ _ ⟨by decide, by decide⟩]
    exact fits _
  · rw [State.fld_set_same _ _ _ _ ⟨by decide, by decide⟩]
    exact fits _

/-- The words of an object's record that its Trapeze job writes before CUR. -/
def trapezeWords (n : Nat) : List Nat :=
  ctxWords n ++ [wordAt (.obj n) Reg.Obj.EVT_FLAGS, wordAt (.obj n) Reg.Obj.FLAGS_STATE]

/-- The last part of a job: the context shows, what the block's instructions raised is raised, and the flags show (R98). -/
theorem State.trapezeShown_only (s : State) (n : Nat) (c : Ctx) (effects : List TrapEffect) (slip : Bool) :
    OnlyWords s ((if slip then (effects.foldl (fun s e => s.trapEffect n e) (s.showCtx n c)).objEvent n 1
      else effects.foldl (fun s e => s.trapEffect n e) (s.showCtx n c)).showFlags n) (trapezeWords n) := by
  have event : ∀ k ∈ [wordAt (.obj n) Reg.Obj.EVT_FLAGS], k ∈ trapezeWords n := by simp [trapezeWords]
  have raised : OnlyWords s (effects.foldl (fun s e => s.trapEffect n e) (s.showCtx n c)) (trapezeWords n) :=
    ((s.showCtx_only n c).mono (fun _ => List.mem_append_left _)).trans
      ((OnlyWords.foldl (fun t e _ => t.trapEffect_only n e) _).mono event)
  have flags (t : State) (ht : OnlyWords s t (trapezeWords n)) : OnlyWords s (t.showFlags n) (trapezeWords n) :=
    ht.set_in _ _ _ (by simp [trapezeWords])
  split
  · exact flags _ (raised.trans ((State.objEvent_only _ n 1).mono event))
  · exact flags _ raised

/-- The engine of a DIRECT object after the Trapeze's job of a block that ends at sample `s1`: it stands where its ramp does
there, and its context is empty (R96, R98, R101). -/
structure EvaluatedTo (o o' : ObjEngine) (s1 : Nat) : Prop where
  pb1 : o'.pb1 = (o.direct.at_ s1).sat
  pb : o'.pb = o.pb1
  pbAt : o'.pbAt = s1
  ctx : o'.ctx = {}

/-- The Trapeze's job of a block for such an object (R96, R98). -/
theorem State.trapezeJob_direct (s : State) {n b : Nat} (hm : (s.obj n).mode = 0)
    (hc : s.fldAt (.obj n) Reg.Obj.CTRL_MOTION_MODE (s.blockStart b) = 0) (ha : (s.obj n).activatedAt = none)
    (hs : ∀ i ∈ s.blockSamples b, s.changedAt (.obj n) i = none) : ∃ o u,
      EvaluatedTo (s.obj n) o (s.blockStart b + s.blockSize) ∧
      OnlyWords ((s.setObj n (s.obj n)).setObj n o) u (trapezeWords n) ∧
      s.trapezeJob n b = u.showCur n ((s.obj n).direct.at_ (s.blockStart b + s.blockSize)).sat := by
  have takes := s.trapezeChanges_none hm hc ha hs
  unfold State.trapezeJob
  dsimp only
  rw [takes]
  simp only [hm, if_true, ObjEngine.position_direct]
  exact ⟨_, _, ⟨rfl, rfl, rfl, rfl⟩, State.trapezeShown_only _ n {} _ _, rfl⟩

/-- TRAPEZE_JOB of a DIRECT object (R96, R98, R108). -/
theorem trapezeJob_answers_direct {s : State} {n b : Nat} (hg : s.granted .trapeze n b = true)
    (hr : s.render.released = true) (hb : b ≤ s.render.block) (hj : Map.get 0 n s.paths.jobs ≤ b) (hm : (s.obj n).mode = 0)
    (hc : s.fldAt (.obj n) Reg.Obj.CTRL_MOTION_MODE (s.blockStart b) = 0) (ha : (s.obj n).activatedAt = none)
    (hs : ∀ i ∈ s.blockSamples b, s.changedAt (.obj n) i = none) : Answers (.trapezeJob n b) s (fun t =>
      EvaluatedTo (s.obj n) (t.obj n) (s.blockStart b + s.blockSize) ∧
      (t.fld (.obj n) Reg.Obj.CUR_X = unsigned 32 ((s.obj n).direct.at_ (s.blockStart b + s.blockSize)).sat.x ∧
        t.fld (.obj n) Reg.Obj.CUR_Y = unsigned 32 ((s.obj n).direct.at_ (s.blockStart b + s.blockSize)).sat.y ∧
        t.fld (.obj n) Reg.Obj.CUR_Z = unsigned 32 ((s.obj n).direct.at_ (s.blockStart b + s.blockSize)).sat.z) ∧
      Map.get 0 n t.paths.jobs = b + 1) := by
  let noted : State := { s with paths := { s.paths with jobs := s.paths.jobs.put 0 n (b + 1) } }
  obtain ⟨o, u, evaluated, only, job⟩ := noted.trapezeJob_direct hm hc ha hs
  have runs : execTrapezeJob n b s = settle (noted.trapezeJob n b) :=
    congrArg settle (if_pos (by simp only [hg, hr, hb, hj, decide_true, Bool.and_self]))
  have shown (f : Fld) : (noted.trapezeJob n b).settled.fld (.obj n) f = (noted.trapezeJob n b).fld (.obj n) f :=
    State.settled_fld _ _ _ (obj_not_statusWord n f)
  have engines : (noted.trapezeJob n b).objs = u.objs := by rw [job]; rfl
  refine ⟨_, runs, ?_, ?_, ?_⟩
  · have engine : (noted.trapezeJob n b).settled.obj n = o := by
      rw [State.obj, State.settled_objs, engines]
      exact (only.obj_eq n).trans (State.obj_setObj _ _ _)
    rw [engine]
    exact evaluated
  · rw [shown, shown, shown, job]
    exact u.showCur_fields n _
  · have stage : (noted.trapezeJob n b).paths = noted.paths := by
      rw [job]
      exact only.keeps (·.paths) (fun _ _ => rfl)
    rw [State.settled_paths, stage]
    exact Map.get_put_same _ _ _ _

/-! Once a block -/

/-- A job that is not in service, that has run for the block, or whose block is not released, does nothing (R373). -/
theorem State.once_idle {s : State} {k : JobKind} {flow key b : Nat} (f : State → State)
    (h : s.granted k flow b = false ∨ s.render.released = false ∨ s.render.block < b ∨ b < Map.get 0 key s.paths.jobs) :
    s.once k flow key b f = s := by
  refine if_neg ?_
  simp only [Bool.and_eq_true, decide_eq_true_eq]
  rintro ⟨⟨⟨granted, released⟩, block⟩, jobs⟩
  rcases h with h | h | h | h
  · rw [h] at granted; cases granted
  · rw [h] at released; cases released
  · omega
  · omega

theorem once_answers_idle {s : State} {instr : Instr} {k : JobKind} {flow key b : Nat} {f : State → State}
    (hi : exec instr s = settle (s.once k flow key b f))
    (h : s.granted k flow b = false ∨ s.render.released = false ∨ s.render.block < b ∨ b < Map.get 0 key s.paths.jobs) :
    Answers instr s (OnlyWords s · []) := by
  rw [State.once_idle f h] at hi
  exact ⟨_, hi, s.settled_only⟩

/-- Settles O22: the job of a DIRECT object, and the four kinds of job that run once in their block. -/
theorem trapezeJobAndOnceABlock : Obligations.TrapezeJobAndOnceABlock := by
  refine ⟨fun s n b hg hr hb hj hm hc ha _ hs => ?_, ?_⟩
  · refine (trapezeJob_answers_direct hg hr hb hj hm hc ha hs).imp (fun t ⟨⟨pb1, pb, pbAt, ctx⟩, ⟨x, y, z⟩, jobs⟩ => ?_)
    exact ⟨pb1, pb, pbAt, ctx, x, y, z, jobs⟩
  · intro s n b toBus idle
    exact ⟨once_answers_idle rfl, once_answers_idle rfl, once_answers_idle rfl, once_answers_idle rfl⟩

end Sys2Proof.Machine
end

section
/-! PROOFS. LAYOUT_LOAD and HRIR_LOAD take their staging and are queued, LAYOUT_SELECT begins a copy, and ARMED ends it (R131,
R132, R198). -/

namespace Sys2Proof.Machine

open Sys2Proof

/-! A long operation that stages a file -/

/-- The fault of a source descriptor does not depend on whether its command has begun (R405). -/
theorem State.sourceFault_begun (s : State) (c : Cmd) (k : Nat) :
    (s.begun c).sourceFault { c with started := true } k = s.sourceFault c k := by
  have door : (s.begun c).isStagedoor c.seat = s.isStagedoor c.seat := by
    unfold State.isStagedoor
    rw [State.begun, State.setCmd, State.setSeat_fld _ _ _ _ _ (by simp [Reg.Seat.BIND_KIND, Reg.Seat.STATUS_IN_FLIGHT])]
  unfold State.sourceFault
  simp only [door]
  rfl

/-- Nor does what is free of the general pool (R36). -/
theorem State.poolFree_begun (s : State) (c : Cmd) : (s.begun c).poolFree = s.poolFree := by
  have size : (s.begun c).fld .dramc Reg.Dramc.POOL_SIZE = s.fld .dramc Reg.Dramc.POOL_SIZE :=
    State.setSeat_fld _ _ _ _ _ (by simp only [Blk.base, Reg.Dramc.POOL_SIZE]; omega)
  unfold State.poolFree
  rw [size]
  rfl

/-- The state in which a command has taken working memory (R38). -/
def State.staging (s : State) (c : Cmd) (bytes : Nat) : State :=
  { s with pool := { s.pool with taken := (c.seat, c.tag, bytes) :: s.pool.taken } }

/-- With a faultless source and room in the general pool, a load takes its staging and begins (R38, R405). -/
theorem State.startLoad_begun {s : State} {c : Cmd} {k : Nat} (hs : s.sourceFault c k = none) (hp : c.n (k + 3) ≤ s.poolFree) :
    (s.begun c).startLoad { c with started := true } k =
      ((s.begun c).staging c (c.n (k + 3))).begin_ { c with started := true } := by
  have fits : ({ c with started := true } : Cmd).n (k + 3) ≤ (s.begun c).poolFree := (s.poolFree_begun c).symm ▸ hp
  unfold State.startLoad State.takePool
  rw [s.sourceFault_begun c k, hs, if_pos fits]
  rfl

/-- A long operation that begins leaves the general pool alone. -/
theorem State.pool_begin (s : State) (c : Cmd) (work : List Nat) : (s.begin_ c work).pool = s.pool := by
  unfold State.begin_ State.pushReady
  dsimp only
  split <;> rfl

theorem State.pool_grant (s : State) (e w : Nat) (r : Ready) : (s.grant e w r).pool = s.pool := by
  unfold State.grant
  dsimp only
  split <;> split <;> rfl

/-- Grants leave the general pool alone. -/
theorem State.pool_dispatch (s : State) : s.dispatch.pool = s.pool := by
  refine foldl_keeps State.pool (fun t e _ => ?_) s
  split
  · rfl
  · split
    · rfl
    · exact t.pool_grant _ _ _

/-- The step of a command whose opcode loads a file from the source at `k`, faultless and with room for it (R38, R405, R410). -/
theorem load_answers_queued {s : State} {c : Cmd} {opcode k : Nat} {f : Cmd → State → State} {i : Instr}
    (h : Issued s c opcode) (hi : exec i s = settle (s.command c.seat c.tag opcode f))
    (hf : f { c with started := true } (s.begun c) = (s.begun c).startLoad { c with started := true } k)
    (hs : s.sourceFault c k = none) (hp : c.n (k + 3) ≤ s.poolFree) :
    Answers i s (fun t => Queued s t c ∧ t.pool.taken = (c.seat, c.tag, c.n (k + 3)) :: s.pool.taken) := by
  refine answers_command h hi ?_
  rw [hf, State.startLoad_begun hs hp]
  refine ⟨queued_begin s _ c opcode [] h (State.begun_cmdOf h) (State.begun_done s c c.seat), ?_⟩
  rw [State.settled_pool, State.pool_dispatch, State.pool_begin]
  rfl

/-! LAYOUT_LOAD -/

/-- LAYOUT_LOAD into a slot that no bank holds (R131). -/
theorem layoutLoad_answers_queued {s : State} {c : Cmd} (h : Issued s c 0x10) (h0 : c.seat = 0) (hk : c.n 0 < 4)
    (free : s.slotHeld (c.n 0) = false) (hs : s.sourceFault c 1 = none) (hp : c.n 4 ≤ s.poolFree) :
    Answers (.layoutLoad c.seat c.tag) s (fun t => Queued s t c ∧ t.pool.taken = (c.seat, c.tag, c.n 4) :: s.pool.taken) := by
  refine load_answers_queued (k := 1) h rfl ?_ hs hp
  rw [houseOnly_house (c := { c with started := true }) _ h0]
  exact (if_neg (Nat.not_le.mpr hk)).trans (if_neg (ne_true_of_eq_false free))

/-- LAYOUT_LOAD into a slot that a bank holds (R131). -/
theorem layoutLoad_answers_busy {s : State} {c : Cmd} (h : Issued s c 0x10) (h0 : c.seat = 0) (hk : c.n 0 < 4)
    (held : s.slotHeld (c.n 0) = true) :
    Answers (.layoutLoad c.seat c.tag) s (fun t => Completes s t c Status.busy 0 0) := by
  refine answers_ended (u := s.begun c) h rfl ?_ rfl rfl (fun t _ done => done)
  rw [houseOnly_house (c := { c with started := true }) _ h0]
  exact (if_neg (Nat.not_le.mpr hk)).trans (if_pos held)

/-! HRIR_LOAD -/

/-- A view of HRIR_SEL names slot `k` (R198). -/
def State.hrirNamed (s : State) (k : Nat) : Prop :=
  s.fld .monitor Reg.Monitor.CTRL_HRIR_SEL = k ∨ s.stg .monitor Reg.Monitor.CTRL_HRIR_SEL = k

theorem CommandFrame.hrirNamed {s t : State} (h : CommandFrame s t) (k : Nat) : t.hrirNamed k ↔ s.hrirNamed k := by
  have staged : t.stg .monitor Reg.Monitor.CTRL_HRIR_SEL = s.stg .monitor Reg.Monitor.CTRL_HRIR_SEL :=
    h.keeps (State.stg · .monitor Reg.Monitor.CTRL_HRIR_SEL) (fun _ _ _ _ _ => rfl)
  unfold State.hrirNamed
  rw [h.fld_above (by decide), staged]

theorem CommandFrame.owns_monitor {s t : State} (h : CommandFrame s t) (seat : Nat) :
    t.owns seat .monitor = s.owns seat .monitor := by
  have word (f : Fld) : t.fld .monitor f = s.fld .monitor f := h.fld_above (by decide) f
  have page : t.ownerOf .monitor = s.ownerOf .monitor :=
    Prod.ext (word Reg.Hdr.OWNER_SEAT) (congrArg (fun v => decide (v ≠ 0)) (word Reg.Hdr.OWNER_SHARED))
  unfold State.owns
  rw [page]

/-- HRIR_LOAD by a seat that may write the monitor, on a model that has it: only a slot that is named refuses it (R198). -/
theorem hrirLoad_begun {s : State} {c : Cmd} (h : Issued s c 0x28) (hk : c.n 0 < 2) (hm : s.model.monitor = true)
    (ho : s.owns c.seat .monitor = true) : ∃ f, exec (.hrirLoad c.seat c.tag) s = settle (s.command c.seat c.tag 0x28 f) ∧
      (s.hrirNamed (c.n 0) → f { c with started := true } (s.begun c) = (s.begun c).finish c.seat c.tag Status.busy) ∧
      (¬ s.hrirNamed (c.n 0) → f { c with started := true } (s.begun c) =
        (s.begun c).startLoad { c with started := true } 1) := by
  have begun := State.begun_frame h
  have present : (!(s.begun c).model.monitor) = false := congrArg not hm
  have owner : (!(s.begun c).owns c.seat .monitor) = false := congrArg not ((begun.owns_monitor _).trans ho)
  refine ⟨_, rfl, fun named => ?_, fun free => ?_⟩
  · exact (if_neg (Nat.not_le.mpr hk)).trans ((if_neg (ne_true_of_eq_false present)).trans
      ((if_neg (ne_true_of_eq_false owner)).trans (if_pos ((begun.hrirNamed _).mpr named))))
  · exact (if_neg (Nat.not_le.mpr hk)).trans ((if_neg (ne_true_of_eq_false present)).trans
      ((if_neg (ne_true_of_eq_false owner)).trans (if_neg (fun named => free ((begun.hrirNamed _).mp named)))))

/-! LAYOUT_SELECT -/

/-- The words in which the layout page shows its slots and banks (R127). -/
def layoutWords : List Nat := Reg.Layout.fields.map (wordAt .layout)

/-- Those of a slot are among them. -/
theorem slotWords_mem {k : Nat} (hk : k ∈ List.range 4) :
    wordAt .layout (Reg.Layout.SLOT_ID k) ∈ layoutWords ∧ wordAt .layout (Reg.Layout.SLOT_INFO_SPEAKERS k) ∈ layoutWords ∧
      wordAt .layout (Reg.Layout.SLOT_INFO_VIRTUAL k) ∈ layoutWords ∧
      wordAt .layout (Reg.Layout.SLOT_INFO_TRIANGLES k) ∈ layoutWords := by
  revert k
  decide

/-- Showing the slots and banks changes nothing else. -/
theorem State.showLayouts_only (s : State) : OnlyWords s s.showLayouts layoutWords := by
  have put (t : State) (f : Fld) (v : Nat) (hf : wordAt .layout f ∈ layoutWords) :
      OnlyWords t (t.set .layout f v) layoutWords := (OnlyWords.refl t _).set_in _ _ _ hf
  have armed (t : State) (o : Option (Nat × Layout)) : OnlyWords t (match o with
      | some (k, _) => t.set .layout Reg.Layout.STATUS_ARMED_SLOT k
      | none => t) layoutWords := by
    rcases o with _ | ⟨k, _⟩
    · exact OnlyWords.refl t _
    · exact put t _ _ (by decide)
  unfold State.showLayouts State.setBit
  dsimp only
  refine .trans (.trans (.trans (.trans (.trans (.trans (.trans (.trans (put _ _ _ ?_) (put _ _ _ ?_)) (armed _ _))
    (put _ _ _ ?_)) (put _ _ _ ?_)) (put _ _ _ ?_)) (put _ _ _ ?_)) (put _ _ _ ?_)) (OnlyWords.foldl (fun t k hk => ?slots) _)
  case slots =>
    obtain ⟨id, speakers, virtual, triangles⟩ := slotWords_mem hk
    exact (((put _ _ _ id).set_in _ _ _ speakers).set_in _ _ _ virtual).set_in _ _ _ triangles
  all_goals decide

/-- Whether a commit changes SEL does not depend on the commands in flight. -/
theorem CommandFrame.selCommit {s t : State} (h : CommandFrame s t) : t.selCommit = s.selCommit := by
  have commits : t.fab.commits = s.fab.commits := h.keeps (·.fab.commits) (fun _ _ _ _ _ => rfl)
  unfold State.selCommit
  rw [commits, h.fld_above (by decide)]

/-- LAYOUT_SELECT without COMMIT of a loaded slot, with nothing converting, held or being armed (R132). -/
theorem layoutSelect_begun {s : State} {c : Cmd} (h : Issued s c 0x11) (h0 : c.seat = 0) (hk : c.n 0 < 4)
    (loaded : s.layouts.slots.any (·.1 = c.n 0) = true) (hflag : c.flag 0 = false) (hconv : s.layouts.converting = false)
    (hold : s.layouts.old = none) (hsel : s.selCommit = false) (harm : s.layouts.arming = none) :
    ∃ f, exec (.layoutSelect c.seat c.tag) s = settle (s.command c.seat c.tag 0x11 f) ∧
      f { c with started := true } (s.begun c) =
        if s.layouts.active.any (·.1 = c.n 0) then (s.begun c).finish c.seat c.tag Status.ok
        else ({ s.begun c with layouts := { s.layouts with
          armed := s.layouts.armed.filter (·.1 = c.n 0)
          arming := some (c.n 0, false, c.seat, c.sq, c.tag) } } : State).showLayouts := by
  have same : (s.begun c).layouts = s.layouts := rfl
  have commit : (s.begun c).selCommit = false := (State.begun_frame h).selCommit.trans hsel
  refine ⟨_, rfl, ?_⟩
  rw [houseOnly_house (c := { c with started := true }) _ h0]
  have slot : ({ c with started := true } : Cmd).n 0 = c.n 0 := rfl
  have flag : ({ c with started := true } : Cmd).flag 0 = false := hflag
  simp only [slot, flag, same, loaded, hconv, hold, commit, harm, Nat.not_le.mpr hk, decide_false, Bool.false_and,
    Bool.not_true, Bool.or_false, Option.isSome_none, Bool.false_eq_true, if_false]

/-- After a command that began and set the banks, they stand as set, and no completion of its seat is made. -/
theorem State.begun_withLayouts_after (s : State) (c : Cmd) (l : Layouts) :
    let t := (({ s.begun c with layouts := l } : State).showLayouts).dispatch.settled
    t.layouts = l ∧ (t.seat c.seat).done = (s.seat c.seat).done := by
  have shown := ({ s.begun c with layouts := l } : State).showLayouts_only
  have seats : ({ s.begun c with layouts := l } : State).showLayouts.seat c.seat = (s.begun c).seat c.seat :=
    shown.keeps (State.seat · c.seat) (fun _ _ => rfl)
  refine ⟨?_, ?_⟩
  · exact ((CommandFrame.after _).keeps (·.layouts) (fun _ _ _ _ _ => rfl)).trans (shown.keeps (·.layouts) (fun _ _ => rfl))
  · rw [State.seat_settled, State.done_dispatch, seats, State.begun_done]

/-! ARMED -/

/-- A started command of a seat that nothing waits for ends with its completion, and nothing else differs (R401, R402). -/
theorem completes_in_flight {s u : State} {c : Cmd} (hc : u.cmdOf c.seat c.tag = some c) (hf : c.final = false)
    (hw : c.waiters = []) (ht : c.tag < bootTag) (h8 : c.seat < 8) (hd : (u.seat c.seat).done = (s.seat c.seat).done)
    (hq : u.cqOf c.seat c.sq = s.cqOf c.seat c.sq) (st r0 r1 : Nat) :
    Completes s (u.finish c.seat c.tag st r0 r1).settled c st r0 r1 ∧
      CommandFrame u (u.finish c.seat c.tag st r0 r1).settled := by
  refine ⟨?_, (CommandFrame.finish hc hf hw ht h8 st r0 r1).trans (CommandFrame.settled _)⟩
  have entry : completionOf u c st r0 r1 false = completionOf s c st r0 r1 false := by simp only [completionOf, hq]
  rw [State.finish_eq u _ _ _ _ _ _ hc hw]
  refine ⟨?_, _, (State.cmdOf_settled _ _ _).trans (State.finish1_cmd u c st r0 r1 hc hf ht), rfl⟩
  rw [State.seat_settled, State.finish1_done u c st r0 r1 hc hf ht c.seat, if_pos rfl, entry, hd]

/-- What the layout page shows of a slot lies apart from what it shows of the armed bank (R127). -/
theorem slotFields_apart {f : Fld} (hf : f = Reg.Layout.STATUS_ARMED_SLOT ∨ f = Reg.Layout.STATUS_ARMED) {k : Nat}
    (hk : k ∈ List.range 4) : Apart (Reg.Layout.SLOT_ID k) f ∧ Apart (Reg.Layout.SLOT_INFO_SPEAKERS k) f ∧
      Apart (Reg.Layout.SLOT_INFO_VIRTUAL k) f ∧ Apart (Reg.Layout.SLOT_INFO_TRIANGLES k) f := by
  rcases hf with rfl | rfl <;> revert k <;> decide

/-- STATUS shows an armed layout (R127). -/
theorem State.showLayouts_armed (s : State) {k : Nat} {l : Layout} (h : s.layouts.armed = some (k, l)) (hk : k < 4) :
    s.showLayouts.fld .layout Reg.Layout.STATUS_ARMED_SLOT = k ∧ s.showLayouts.fld .layout Reg.Layout.STATUS_ARMED = 1 := by
  have put (t : State) {f g : Fld} (v : Nat) (hg : Apart g f) : (t.set .layout g v).fld .layout f = t.fld .layout f :=
    t.fld_set_apart .layout v hg
  unfold State.showLayouts State.setBit
  simp only [h]
  refine ⟨(foldl_keeps (State.fld · .layout Reg.Layout.STATUS_ARMED_SLOT) (fun t j hj => ?_) _).trans ?_,
    (foldl_keeps (State.fld · .layout Reg.Layout.STATUS_ARMED) (fun t j hj => ?_) _).trans ?_⟩
  · obtain ⟨id, speakers, virtual, triangles⟩ := slotFields_apart (.inl rfl) hj
    rw [put _ _ triangles, put _ _ virtual, put _ _ speakers, put _ _ id]
  · rw [put _ _ (by decide), put _ _ (by decide), put _ _ (by decide), put _ _ (by decide), put _ _ (by decide),
      State.fld_set_same _ _ _ _ ⟨by decide, by decide⟩]
    exact Nat.mod_eq_of_lt hk
  · obtain ⟨id, speakers, virtual, triangles⟩ := slotFields_apart (.inr rfl) hj
    rw [put _ _ triangles, put _ _ virtual, put _ _ speakers, put _ _ id]
  · rw [put _ _ (by decide), put _ _ (by decide), put _ _ (by decide), put _ _ (by decide),
      State.fld_set_same _ _ _ _ ⟨by decide, by decide⟩]
    rfl

/-- An event of the layout page lies in no mirror: it is a bit set in EVENTS (R46). -/
theorem State.event_layout (s : State) (i : Nat) :
    s.event .layout i = s.set .layout Reg.Hdr.EVENTS (s.fld .layout Reg.Hdr.EVENTS ||| 2 ^ i) := rfl

/-- The state in which the copy into the idle bank has ended (R132). -/
def State.armedWith (s : State) (k : Nat) : State :=
  ({ s with layouts := { s.layouts with
    arming := none, armed := some (k, Map.get ({} : Layout) k s.layouts.slots) } } : State).showLayouts.event .layout 0

theorem State.armedWith_fields (s : State) {k : Nat} (hk : k < 4) :
    (s.armedWith k).fld .layout Reg.Layout.STATUS_ARMED_SLOT = k ∧ (s.armedWith k).fld .layout Reg.Layout.STATUS_ARMED = 1 ∧
      ((s.armedWith k).fld .layout Reg.Hdr.EVENTS).testBit 0 = true := by
  obtain ⟨slot, valid⟩ := ({ s with layouts := { s.layouts with
    arming := none, armed := some (k, Map.get ({} : Layout) k s.layouts.slots) } } : State).showLayouts_armed rfl hk
  unfold State.armedWith
  rw [State.event_layout]
  refine ⟨?_, ?_, ?_⟩
  · rw [State.fld_set_apart _ _ _ (by decide), slot]
  · rw [State.fld_set_apart _ _ _ (by decide), valid]
  · rw [State.fld_set_same _ _ _ _ ⟨by decide, by decide⟩, Nat.testBit_mod_two_pow, Nat.testBit_or, Nat.testBit_two_pow_self,
      Bool.or_true]
    rfl

/-- Besides the banks and the layout page, nothing differs. -/
theorem State.armedWith_only (s : State) (k : Nat) : OnlyWords { s with layouts := { s.layouts with
    arming := none, armed := some (k, Map.get ({} : Layout) k s.layouts.slots) } } (s.armedWith k)
    (wordAt .layout Reg.Hdr.EVENTS :: layoutWords) :=
  ((State.showLayouts_only _).mono (fun _ => List.mem_cons_of_mem _)).set_in _ _ _ List.mem_cons_self

/-- The layout page's words lie above those of the seats. -/
theorem layoutWords_above : ∀ w ∈ wordAt .layout Reg.Hdr.EVENTS :: layoutWords, 0x18000 ≤ w := by decide

/-- No status word holds the completion queue of a submission queue (R397). -/
theorem sqCq_not_statusWord (seat : Nat) {sq : Nat} (hq : sq < 4) : wordAt (.seat seat) (Reg.Seat.SQ_CQ sq) ∉ statusWords := by
  have status : ∀ w ∈ statusWords, 0x10000 ≤ w → ∀ q < 4, w % 0x1000 ≠ 0x68 + 0x20 * q := by decide
  refine fun h => status _ h (Nat.le_add_right_of_le (Nat.le_add_right _ _)) sq hq ?_
  simp only [wordAt, Blk.base, Reg.Seat.SQ_CQ]
  omega

/-- The end of a copy leaves the queues of the seats alone. -/
theorem State.armedWith_cqOf (s : State) (k : Nat) {seat sq : Nat} (h8 : seat < 8) (hq : sq < 4) :
    (s.armedWith k).cqOf seat sq = s.cqOf seat sq := by
  have below : wordAt (.seat seat) (Reg.Seat.SQ_CQ sq) < 0x18000 := by
    simp only [wordAt, Blk.base, Reg.Seat.SQ_CQ]
    omega
  exact (s.armedWith_only k).fld_eq (fun h => Nat.not_lt.mpr (layoutWords_above _ h) below) (sqCq_not_statusWord seat hq)

/-- ARMED, where the command that asked for the copy gave no COMMIT (R132). -/
theorem armed_answers {s : State} {c : Cmd} {k : Nat}
    (harm : s.layouts.arming = some (k, false, c.seat, c.sq, c.tag)) (hc : s.cmdOf c.seat c.tag = some c)
    (hf : c.final = false) (hw : c.waiters = []) (ht : c.tag < bootTag) (h8 : c.seat < 8) (hq : c.sq < 4) :
    Answers .armed s (fun t => CommandFrame (s.armedWith k) t ∧ Completes s t c Status.ok 0 0) := by
  have ends : execArmed s = settle ((s.armedWith k).finish c.seat c.tag Status.ok) := by
    unfold execArmed
    simp only [harm]
    rfl
  have seat : (s.armedWith k).seat c.seat = s.seat c.seat :=
    (s.armedWith_only k).keeps (State.seat · c.seat) (fun _ _ => rfl)
  obtain ⟨done, frame⟩ := completes_in_flight (s := s) (u := s.armedWith k) (c := c)
    (by unfold State.cmdOf; rw [seat]; exact hc) hf hw ht h8 (by rw [seat]) (s.armedWith_cqOf k h8 hq) Status.ok 0 0
  exact ⟨_, ends, frame, done⟩

/-- Settles O35: the loads, LAYOUT_SELECT and ARMED. -/
theorem layoutAndHrirLoads : Obligations.LayoutAndHrirLoads := by
  refine ⟨fun s c hs hp => ⟨fun h h0 hk => ⟨fun free => layoutLoad_answers_queued h h0 hk free hs hp,
      fun held => layoutLoad_answers_busy h h0 hk held⟩, fun h hk hm ho => ?hrir⟩,
    fun s c h h0 hk loaded hflag hconv hold hsel harm => ?select,
    fun s c k hk harm hc hf hw ht h8 hq => ?armed⟩
  case hrir =>
    obtain ⟨f, step, named, free⟩ := hrirLoad_begun h hk hm ho
    exact ⟨fun hn => load_answers_queued (k := 1) h step (free hn) hs hp,
      fun hn => answers_ended h step (named hn) rfl rfl (fun _ _ done => done)⟩
  case select =>
    obtain ⟨f, step, does⟩ := layoutSelect_begun h h0 hk loaded hflag hconv hold hsel harm
    refine ⟨fun other => answers_command h step ?_, fun active => ?_⟩
    · rw [does, if_neg (ne_true_of_eq_false other)]
      exact s.begun_withLayouts_after c _
    · exact answers_ended h step (does.trans (if_pos active)) rfl rfl
        (fun t frame done => ⟨frame.keeps (·.layouts) (fun _ _ _ _ _ => rfl), done⟩)
  case armed =>
    refine (armed_answers harm hc hf hw ht h8 hq).imp (fun t ⟨frame, done⟩ => ?_)
    have banks : t.layouts = (s.armedWith k).layouts := frame.keeps (·.layouts) (fun _ _ _ _ _ => rfl)
    have shown (f : Fld) : t.fld .layout f = (s.armedWith k).fld .layout f := frame.fld_above (by decide) f
    obtain ⟨slot, valid, event⟩ := s.armedWith_fields hk
    rw [banks, (s.armedWith_only k).keeps (·.layouts) (fun _ _ => rfl), shown, shown, shown]
    exact ⟨rfl, rfl, slot, valid, event, done⟩

end Sys2Proof.Machine
end

section
/-! PROOFS. A pan engine's job of an object that drops its paths or has just begun, a path job of one path, and far fetches
(R119, R136, R155 to R169). -/

namespace Sys2Proof.Machine

open Sys2Proof

/-! A job that runs -/

/-- The state in which the job that `key` names is noted as run for block `b` (R373). -/
def State.jobNoted (s : State) (key b : Nat) : State :=
  { s with paths := { s.paths with jobs := s.paths.jobs.put 0 key (b + 1) } }

/-- A job in service of a released block for which it has not run is noted and runs (R373). -/
theorem State.once_due {s : State} {k : JobKind} {flow key b : Nat} (f : State → State) (hg : s.granted k flow b = true)
    (hr : s.render.released = true) (hb : b ≤ s.render.block) (hj : Map.get 0 key s.paths.jobs ≤ b) :
    s.once k flow key b f = f (s.jobNoted key b) :=
  if_pos (by simp only [hg, hr, hb, hj, decide_true, Bool.and_self])

/-! PAN_JOB of an object that holds no path -/

/-- Dropped paths are not wanted either (R119, R169). -/
theorem State.dropPaths_wanted (s : State) (n : Nat) : (s.dropPaths n).fld (.obj n) Reg.Obj.PATHS_WANTED = 0 := by
  unfold State.dropPaths
  refine (congrArg (·.2.2) (State.releaseOldBank_objectView _ n Reg.Obj.PATHS_WANTED)).trans ?_
  exact (State.fld_set_apart _ _ _ (by decide)).trans (State.fld_set_same _ _ _ _ ⟨by decide, by decide⟩)

/-- While the pan engines are off, a rendering object drops its paths (R119). -/
theorem State.panJob_off (s : State) {n b : Nat} (hlive : (s.obj n).live = true) (hoff : s.panOn (s.blockStart b) = false) :
    s.panJob n b = (s.setObj n { s.obj n with relocs := [] }).dropPaths n := by
  unfold State.panJob
  simp only [hlive, hoff, Bool.not_true, Bool.false_and, Bool.false_eq_true, if_false, Bool.not_false, if_true]

/-- PAN_JOB of a rendering object while the pan engines are off (R119). -/
theorem panJob_answers_off {s : State} {n b : Nat} (hg : s.granted .pan n b = true) (hr : s.render.released = true)
    (hb : b ≤ s.render.block) (hj : Map.get 0 (1024 + n) s.paths.jobs ≤ b) (hlive : (s.obj n).live = true)
    (hoff : s.panOn (s.blockStart b) = false) : Answers (.panJob n b) s (fun t => (t.pathsOf n).sets = [] ∧
      t.fld (.obj n) Reg.Obj.PATHS_WANTED = 0 ∧ t.fld (.obj n) Reg.Obj.PATHS_GRANTED = 0) := by
  have runs : execPanJob n b s = settle ((s.jobNoted (1024 + n) b).panJob n b) :=
    congrArg settle (State.once_due (·.panJob n b) hg hr hb hj)
  have job := (s.jobNoted (1024 + n) b).panJob_off (n := n) (b := b) hlive hoff
  obtain ⟨-, sets, granted⟩ := State.dropPaths_spec ((s.jobNoted (1024 + n) b).setObj n { s.obj n with relocs := [] }) n
  refine ⟨_, runs.trans (congrArg settle job), ?_, ?_, ?_⟩
  · simp only [State.pathsOf, State.settled_paths]
    exact sets
  · rw [State.settled_fld _ _ _ (obj_not_statusWord n _)]
    exact State.dropPaths_wanted _ n
  · rw [State.settled_fld _ _ _ (obj_not_statusWord n _)]
    exact granted

/-! PAN_JOB of an object that has just begun -/

/-- The words in which a pan job reports its object's paths and events (R128, R153, R154, R166, R169). -/
def panWords (n : Nat) : List Nat :=
  [wordAt .pan Reg.Hdr.EVENTS, wordAt .path Reg.Hdr.EVENTS, wordAt .path Reg.Path.CLAMP_COUNT,
   wordAt .path Reg.Path.STARVED_COUNT, wordAt (.obj n) Reg.Obj.EVT_FLAGS, wordAt (.obj n) Reg.Obj.PATHS_WANTED]

/-- What an evaluation raises shows in these words alone (R128, R153, R154). -/
theorem State.panEvents_only (s : State) (n : Nat) (e : PanEvents) (limit : Bool) (clamps : Nat) :
    OnlyWords s (s.panEvents n e limit clamps) (panWords n) := by
  have put (t : State) (b : Blk) (f : Fld) (v : Nat) (hm : wordAt b f ∈ panWords n) :
      OnlyWords t (t.set b f v) (panWords n) := (OnlyWords.refl t _).set_in b f v hm
  have raise (t : State) (c : Bool) (b : Blk) (i : Nat) (hb : b = .pan ∨ b = .path) :
      OnlyWords t (if c then t.event b i else t) (panWords n) := by
    split
    · rcases hb with rfl | rfl
      · exact put t .pan Reg.Hdr.EVENTS _ (by simp [panWords])
      · exact put t .path Reg.Hdr.EVENTS _ (by simp [panWords])
    · exact OnlyWords.refl t _
  have events := (((raise s e.cap .pan 0 (.inl rfl)).trans (raise _ e.zone .pan 1 (.inl rfl))).trans
    (raise _ e.fill .pan 2 (.inl rfl))).trans (raise _ limit .path 2 (.inr rfl))
  unfold State.panEvents
  dsimp only
  split
  · exact events
  · exact events.trans (((put _ .path Reg.Hdr.EVENTS _ (by simp [panWords])).set_in (.obj n) Reg.Obj.EVT_FLAGS _
      (by simp [panWords])).set_in .path Reg.Path.CLAMP_COUNT _ (by simp [panWords]))

/-- The number of evaluations shows in none of them (R128). -/
theorem evals_not_panWord (n : Nat) : wordAt .pan Reg.Pan.EVALS ∉ panWords n := by
  simp only [panWords, wordAt, Blk.base, List.mem_cons, List.not_mem_nil, or_false, Reg.Pan.EVALS, Reg.Hdr.EVENTS,
    Reg.Path.CLAMP_COUNT, Reg.Path.STARVED_COUNT, Reg.Obj.EVT_FLAGS, Reg.Obj.PATHS_WANTED]
  omega

/-- So does what the job reports at its end of the paths it wanted and was granted (R166, R169). -/
theorem State.panShown_only (s : State) (n wanted granted : Nat) (starved : Prop) [Decidable starved] :
    let shown := (s.set (.obj n) Reg.Obj.PATHS_WANTED wanted).set (.obj n) Reg.Obj.PATHS_GRANTED granted
    OnlyWords s (if starved then ((shown.objEvent n 5).event .path 0).count .path Reg.Path.STARVED_COUNT else shown)
      (panWords n) := by
  have shown := ((OnlyWords.refl s (panWords n)).set_in (.obj n) Reg.Obj.PATHS_WANTED wanted (by simp [panWords])).set_in
    (.obj n) Reg.Obj.PATHS_GRANTED granted (by simp [panWords, wordAt, Reg.Obj.PATHS_GRANTED, Reg.Obj.PATHS_WANTED])
  dsimp only
  split
  · exact ((shown.set_in (.obj n) Reg.Obj.EVT_FLAGS _ (by simp [panWords])).set_in .path Reg.Hdr.EVENTS _
      (by simp [panWords])).set_in .path Reg.Path.STARVED_COUNT _ (by simp [panWords])
  · exact shown

/-- A fresh set has a path for each gain (R137). -/
@[simp] theorem length_freshPaths (dmin dmax : Nat) (r : List PanGain) : (freshPaths dmin dmax r).length = r.length :=
  List.length_map _

/-- Granting units leaves the registers alone. -/
theorem State.regrant_fab (s : State) (n per : Nat) (old new : List PathSet) : (s.regrant n per old new).1.fab = s.fab := rfl

/-- The pan engine's job of an object that has just begun to render on layout `l`: it evaluates the law, keeps its result
and wants a path for each gain, and reports (R136, R137). -/
theorem State.panJob_begins (s : State) {n b : Nat} {l : Layout} (hlive : (s.obj n).live = true)
    (hon : s.panOn (s.blockStart b) = true) (hq : s.pathsOf n = {}) (hl : s.layoutFor false (s.blockStart b) = some l)
    (hr : (s.obj n).relocs = []) (hlaw : ∀ i ∈ s.blockSamples b, s.lawReloc n i = false) :
    let r := (s.evaluate n (s.blockStart b) (s.blockStart b + s.blockSize) l (s.obj n).pb1).1
    ∃ x w, ((x.pathsOf n).result = some r ∧ (x.pathsOf n).wanted = s.unitsPer n (s.blockStart b) * r.length ∧
      (x.pathsOf n).dirty = false ∧ x.fab = s.fab) ∧ OnlyWords x w (panWords n) ∧
      OnlyWords (w.count .pan Reg.Pan.EVALS) (s.panJob n b) (panWords n) := by
  have law : (s.blockSamples b).filter (fun i => s.lawReloc n i) = [] :=
    List.filter_eq_nil_iff.mpr (fun i hi => ne_true_of_eq_false (hlaw i hi))
  unfold State.panJob
  simp only [hlive, hon, hq, hl, hr, law, Bool.not_true, Bool.false_and, Bool.false_eq_true, if_false, List.filter_nil,
    List.append_nil, Option.toList_none, List.mergeSort_nil, List.eraseDups_nil, List.isEmpty_nil, Option.isNone_none,
    Bool.or_true, Bool.true_or, if_true, Bool.and_false, Bool.or_false, Option.isSome_none, List.any_nil]
  generalize hg : State.regrant s _ _ _ _ = g
  have fab : g.1.fab = s.fab := hg ▸ State.regrant_fab s _ _ _ _
  clear hg
  refine ⟨_, _, ?kept, State.panEvents_only _ _ _ _ _, State.panShown_only _ _ _ _ _⟩
  rw [State.pathsOf_setPathsOf]
  exact ⟨rfl, by simp only [List.foldl_cons, List.foldl_nil, length_freshPaths, Nat.zero_add], rfl, fab⟩

/-- PAN_JOB of an object that has just begun to render on the active layout (R136, R137). -/
theorem panJob_answers_begins {s : State} {n b : Nat} {l : Layout} (hg : s.granted .pan n b = true)
    (hr : s.render.released = true) (hb : b ≤ s.render.block) (hj : Map.get 0 (1024 + n) s.paths.jobs ≤ b)
    (hlive : (s.obj n).live = true) (hon : s.panOn (s.blockStart b) = true) (hq : s.pathsOf n = {})
    (hl : s.layoutFor false (s.blockStart b) = some l) (hre : (s.obj n).relocs = [])
    (hlaw : ∀ i ∈ s.blockSamples b, s.lawReloc n i = false) : Answers (.panJob n b) s (fun t =>
      let r := (s.evaluate n (s.blockStart b) (s.blockStart b + s.blockSize) l (s.obj n).pb1).1
      (t.pathsOf n).result = some r ∧ (t.pathsOf n).wanted = s.unitsPer n (s.blockStart b) * r.length ∧
      (t.pathsOf n).dirty = false ∧ t.fld .pan Reg.Pan.EVALS = (s.fld .pan Reg.Pan.EVALS + 1) % 2 ^ 32) := by
  have runs : execPanJob n b s = settle ((s.jobNoted (1024 + n) b).panJob n b) :=
    congrArg settle (State.once_due (·.panJob n b) hg hr hb hj)
  obtain ⟨x, w, ⟨result, wanted, dirty, fab⟩, raised, shown⟩ :=
    (s.jobNoted (1024 + n) b).panJob_begins (n := n) (b := b) hlive hon hq hl hre hlaw
  have paths : ((s.jobNoted (1024 + n) b).panJob n b).settled.pathsOf n = x.pathsOf n :=
    (shown.settled.keeps (State.pathsOf · n) (fun _ _ => rfl)).trans (raised.keeps (State.pathsOf · n) (fun _ _ => rfl))
  have before : w.fld .pan Reg.Pan.EVALS = s.fld .pan Reg.Pan.EVALS :=
    (raised.fld_eq (evals_not_panWord n) (by decide)).trans (by unfold State.fld; rw [fab]; rfl)
  refine ⟨_, runs, ?_, ?_, ?_, ?_⟩
  · rw [paths]
    exact result
  · rw [paths]
    exact wanted
  · rw [paths]
    exact dirty
  · rw [shown.settled.fld_eq (evals_not_panWord n) (by decide), State.count,
      State.fld_set_same _ _ _ _ ⟨by decide, by decide⟩, Nat.mod_mod, before]
    rfl

/-! PATH_JOB -/

theorem State.accumulate_acc (s : State) (out j : Nat) (v : Int) (key : Nat) :
    Map.get 0 key (s.accumulate out j v).paths.acc = Map.get 0 key s.paths.acc + if key = 64 * out + j then v else 0 := by
  simp only [State.accumulate, Map.get_put]
  split
  · next h => rw [h]
  · exact (add_zero _).symm

/-- What `m` samples from `base` on of an output gain when each adds its value, worked out from the prefetch buffer as it
stands (R157, R167). -/
theorem State.foldl_accumulate (v : Map Int → Nat → Int) (out base : Nat) (s : State) {m : Nat} (hm : base + m ≤ 64) :
    let t := (List.range m).foldl (fun s k => s.accumulate out (base + k) (v s.paths.prefetch (base + k))) s
    t.pathsOf = s.pathsOf ∧ t.paths.prefetch = s.paths.prefetch ∧ ∀ o j, j < 64 →
      Map.get 0 (64 * o + j) t.paths.acc = Map.get 0 (64 * o + j) s.paths.acc +
        if o = out ∧ base ≤ j ∧ j < base + m then v s.paths.prefetch j else 0 := by
  induction m with
  | zero => exact ⟨rfl, rfl, fun o j _ => by rw [if_neg (by omega)]; exact (add_zero _).symm⟩
  | succ m ih =>
    obtain ⟨objs, prefetch, acc⟩ := ih (by omega)
    rw [List.range_succ, List.foldl_append, List.foldl_cons, List.foldl_nil]
    refine ⟨objs, prefetch, fun o j hj => ?_⟩
    rw [State.accumulate_acc, acc o j hj, prefetch, add_assoc]
    congr 1
    by_cases last : o = out ∧ j = base + m
    · obtain ⟨rfl, rfl⟩ := last
      rw [if_neg (by omega), if_pos rfl, if_pos (by omega), zero_add]
    · rw [if_neg (show 64 * o + j ≠ 64 * out + (base + m) by omega), add_zero]
      refine if_congr ?_ rfl rfl
      omega

/-- A block has 8, 16, 32 or 64 samples, and a slice 8 of the first and 16 of the others (R18, R159). -/
theorem State.sliceSize_blockSize (s : State) : (s.sliceSize = 8 ∧ s.blockSize = 8) ∨
    (s.sliceSize = 16 ∧ (s.blockSize = 16 ∨ s.blockSize = 32 ∨ s.blockSize = 64)) := by
  have code : s.fld .render Reg.Render.CFG_BLOCK < 4 := regGet_lt _ _ _ ⟨by decide, by decide⟩
  unfold State.sliceSize State.blockSize
  generalize s.fld .render Reg.Render.CFG_BLOCK = k at code ⊢
  interval_cases k <;> decide

/-- A slice of a block ends within the 64 samples that an output's accumulators hold (R159, R167). -/
theorem State.slice_fits (s : State) {slice : Nat} (h : slice * s.sliceSize < s.blockSize) :
    slice * s.sliceSize + s.sliceSize ≤ 64 := by
  rcases s.sliceSize_blockSize with ⟨hS, hB⟩ | ⟨hS, hB⟩ <;> rw [hS] at h ⊢ <;> omega

/-- The path job of an object with one path and no fade (R159, R166, R167). -/
theorem State.pathJob_single (s : State) {n b slice : Nat} {p : Path} (hin : s.inTime b = true)
    (hf : (s.pathsOf n).fetching = []) (hslice : slice = (s.pathsOf n).slice) (hfit : slice * s.sliceSize < s.blockSize)
    (hset : (s.pathsOf n).sets = [{ paths := [p] }]) (hcut : p.cut = false) (hout : s.sched.cutOuts = []) :
    let t := (List.range s.sliceSize).foldl (fun t k => t.accumulate p.out (slice * s.sliceSize + k)
      (p.contribution (s.unitsPer n (s.blockStart b) = 2) t.paths.prefetch (s.obj n) s.blockSize
        (s.blockStart b + (slice * s.sliceSize + k)) (slice * s.sliceSize + k) (1, 1))) s
    s.pathJob n b slice = t.setPathsOf n { t.pathsOf n with slice := slice + 1 } := by
  unfold State.pathJob
  simp only [hin, hf, ← hslice, Nat.not_le.mpr hfit, hset, hcut, hout, List.isEmpty_nil, Bool.not_true, Bool.or_self,
    ne_eq, not_true_eq_false, decide_false, Bool.false_eq_true, if_false, List.foldl_cons, List.foldl_nil,
    List.contains_nil, Bool.and_false]
  rfl

/-- PATH_JOB of an object with one path and no fade, for the next slice (R155 to R159, R167). -/
theorem pathJob_answers {s : State} {n b slice : Nat} {p : Path} (hg : s.granted .path n b slice = true)
    (hin : s.inTime b = true) (hf : (s.pathsOf n).fetching = []) (hslice : slice = (s.pathsOf n).slice)
    (hfit : slice * s.sliceSize < s.blockSize) (hset : (s.pathsOf n).sets = [{ paths := [p] }]) (hcut : p.cut = false)
    (hout : s.sched.cutOuts = []) : Answers (.pathJob n b slice) s (fun t => (t.pathsOf n).slice = slice + 1 ∧
      ∀ j, j < 64 → ∀ o, Map.get 0 (64 * o + j) t.paths.acc = Map.get 0 (64 * o + j) s.paths.acc +
        (if o = p.out ∧ slice * s.sliceSize ≤ j ∧ j < (slice + 1) * s.sliceSize then
          p.contribution (s.unitsPer n (s.blockStart b) = 2) s.paths.prefetch (s.obj n) s.blockSize (s.blockStart b + j) j (1, 1)
        else 0)) := by
  have runs : execPathJob n b slice s = settle (s.pathJob n b slice) := congrArg settle (if_pos hg)
  obtain ⟨-, -, acc⟩ := s.foldl_accumulate (fun m j => p.contribution (s.unitsPer n (s.blockStart b) = 2) m (s.obj n)
    s.blockSize (s.blockStart b + j) j (1, 1)) p.out (slice * s.sliceSize) (s.slice_fits hfit)
  refine ⟨_, runs, ?_, fun j hj o => ?_⟩
  · simp only [State.pathsOf, State.settled_paths]
    rw [s.pathJob_single hin hf hslice hfit hset hcut hout]
    exact congrArg ObjPaths.slice (State.pathsOf_setPathsOf _ _ _)
  · rw [State.settled_paths, s.pathJob_single hin hf hslice hfit hset hcut hout, Nat.succ_mul slice]
    exact acc o j hj

/-! FAR_FETCH_DONE and FETCH_LATE -/

/-- The first `m` samples of an arrived request, which begins in a window of 32 from `w` on, stand in the slots of unit `u`
as far as the window goes (R159, R160). -/
theorem get_foldl_window (far prefetch : Map Int) {a w : Int} (u : Nat) (hw : w ≤ a) (m : Nat) :
    ∀ k < m, a + k < w + 32 → Map.get 0 (32 * u + (a + k - w).toNat) ((List.range m).foldl (fun m (k : Nat) =>
      if w ≤ a + k && a + k < w + 32 then
        m.put 0 (32 * u + (a + k - w).toNat) (Map.get 0 ((a + k) % 32768).toNat far)
      else m) prefetch) = Map.get 0 ((a + k) % 32768).toNat far := by
  induction m with
  | zero => exact fun k hk => absurd hk (Nat.not_lt_zero k)
  | succ m ih =>
    intro k hk inside
    rw [List.range_succ, List.foldl_append, List.foldl_cons, List.foldl_nil]
    rcases Nat.lt_succ_iff_lt_or_eq.mp hk with hk | rfl
    · split
      · rw [Map.get_put_other _ _ _ _ (by omega)]
        exact ih k hk inside
      · exact ih k hk inside
    · rw [if_pos (by simp only [Bool.and_eq_true, decide_eq_true_eq]; omega), Map.get_put_same]

/-- The samples of an arrived request in the window of an object's only path (R159 to R161). -/
theorem State.fetched_single (s : State) {n : Nat} {a w : Int} {p : Path} {u : Nat}
    (hset : (s.pathsOf n).sets = [{ paths := [p] }]) (hwin : p.window = some w) (hu : p.units = [u]) (hw : w ≤ a)
    {k : Nat} (hk : k < 16) (inside : a + k < w + 32) :
    Map.get 0 (32 * u + (a + k - w).toNat) (s.fetched n a).paths.prefetch = Map.get 0 ((a + k) % 32768).toNat (s.obj n).far := by
  have filled := get_foldl_window (s.obj n).far s.paths.prefetch u hw 16 k hk inside
  unfold State.fetched
  simp only [hset, List.foldl_cons, List.foldl_nil, hwin, hu, List.headD_cons, List.length_singleton, Nat.cast_one, mul_one,
    List.foldl_map]
  exact filled

theorem State.pushSlice_paths (s : State) (n : Nat) : (s.pushSlice n).paths = s.paths := by
  unfold State.pushSlice State.pushReady
  dsimp only
  split
  · split <;> rfl
  · rfl

/-- FAR_FETCH_DONE (R159 to R161, R169). -/
theorem farFetchDone_answers {s : State} {n cycles : Nat} {a : Int} {rest : List Int}
    (h : (s.pathsOf n).fetching = a :: rest) : Answers (.farFetchDone n cycles) s (fun t =>
      (t.pathsOf n).fetching = rest ∧ t.paths.fetchMax = max s.paths.fetchMax cycles ∧
      ∀ (p : Path) (w : Int) (u : Nat), (s.pathsOf n).sets = [{ paths := [p] }] → p.window = some w → p.units = [u] → w ≤ a →
        ∀ k : Nat, k < 16 → a + k < w + 32 →
          Map.get 0 (32 * u + (a + k - w).toNat) t.paths.prefetch = Map.get 0 ((a + k) % 32768).toNat (s.obj n).far) := by
  let timed : State := { s with paths := { s.paths with fetchMax := max s.paths.fetchMax cycles } }
  let answered := timed.setPathsOf n { s.pathsOf n with fetching := rest }
  have arrives : execFarFetchDone n cycles s = settle ((answered.fetched n a).pushSlice n).dispatch := by
    unfold execFarFetchDone
    simp only [h]
    rfl
  have stage : ((answered.fetched n a).pushSlice n).dispatch.settled.paths = (answered.fetched n a).paths :=
    ((CommandFrame.after _).keeps (·.paths) (fun _ _ _ _ _ => rfl)).trans (State.pushSlice_paths _ n)
  have held : answered.pathsOf n = { s.pathsOf n with fetching := rest } := State.pathsOf_setPathsOf _ _ _
  refine ⟨_, arrives, ?_, ?_, fun p w u hset hwin hu hw k hk inside => ?_⟩
  · rw [State.pathsOf, stage]
    exact congrArg ObjPaths.fetching held
  · rw [stage]
    rfl
  · rw [stage]
    exact answered.fetched_single (by rw [held]; exact hset) hwin hu hw hk inside

/-- FETCH_LATE with a request outstanding (R162). -/
theorem fetchLate_answers {s : State} {n : Nat} (h : (s.pathsOf n).fetching ≠ []) : Answers (.fetchLate n) s (fun t =>
    t.fld .path Reg.Hdr.EVENTS = s.fld .path Reg.Hdr.EVENTS ||| 16 ∧ OnlyWords s t [wordAt .path Reg.Hdr.EVENTS]) := by
  have late : execFetchLate n s = settle (s.set .path Reg.Hdr.EVENTS (s.fld .path Reg.Hdr.EVENTS ||| 2 ^ 4)) :=
    congrArg settle (if_neg (by rw [List.isEmpty_iff]; exact h))
  refine ⟨_, late, ?_, (OnlyWords.set s _ _ _).settled⟩
  rw [State.settled_fld _ _ _ (pageStat_not_statusWord rfl), State.fld_set_same _ _ _ _ ⟨by decide, by decide⟩]
  exact Nat.mod_eq_of_lt (Nat.or_lt_two_pow (regGet_lt _ _ _ ⟨by decide, by decide⟩) (by decide))

/-- Settles O23, command by command. -/
theorem panAndPathJobs : Obligations.PanAndPathJobs :=
  ⟨fun _ _ _ hg hr hb hj hlive => ⟨fun hoff => panJob_answers_off hg hr hb hj hlive hoff,
      fun _ hon hq hl hre hlaw => panJob_answers_begins hg hr hb hj hlive hon hq hl hre hlaw⟩,
    fun _ _ _ _ _ hg hin hf hslice hfit hset hcut hout => pathJob_answers hg hin hf hslice hfit hset hcut hout,
    fun _ _ _ _ _ h => ⟨farFetchDone_answers h, fetchLate_answers (h ▸ List.cons_ne_nil _ _)⟩⟩

end Sys2Proof.Machine
end

section
/-! PROOFS. The jobs of an output: shaping, correction and limiting of a block in time (R168, R187, R192, R208), the end of
a deactivation ramp (R187), and the output cut-off (R378). -/

namespace Sys2Proof.Machine

open Sys2Proof

/-! An output replaced -/

@[simp] theorem State.out_setOut (s : State) (n : Nat) (e : OutEngine) : (s.setOut n e).out n = e :=
  Map.get_put_same _ _ _ _

/-- The same output engines, the same output. -/
theorem State.out_eq_of_outs {s t : State} (h : t.outs = s.outs) (n : Nat) : t.out n = s.out n :=
  congrArg (Map.get ({} : OutEngine) n) h

@[simp] theorem State.out_settled (s : State) (n : Nat) : s.settled.out n = s.out n := State.out_eq_of_outs s.settled_outs n

/-- A command that replaces one output leaves everything but the output engines. -/
theorem State.setOut_only (s : State) (n : Nat) (e : OutEngine) :
    OnlyWords { s with outs := (s.setOut n e).settled.outs } (s.setOut n e).settled [] := by
  rw [State.settled_outs]
  exact (s.setOut n e).settled_only

/-- A command that replaces one output and does nothing else. -/
theorem answers_setOut {c : Instr} {s : State} {n : Nat} {e : OutEngine} {P : OutEngine → Prop}
    (h : exec c s = settle (s.setOut n e)) (hP : P e) :
    Answers c s (fun t => P (t.out n) ∧ OnlyWords { s with outs := t.outs } t []) :=
  ⟨_, h, by rwa [State.out_settled, State.out_setOut], State.setOut_only s n e⟩

theorem State.showCorr_outs (s : State) (n : Nat) : (s.showCorr n).outs = s.outs := by
  simp only [State.showCorr, State.setBit, State.set_outs]

theorem State.showCorrect_outs (s : State) : s.showCorrect.outs = s.outs := by
  simp only [State.showCorrect, State.set_outs]

/-- The end of a cross-fade shows in registers alone (R222). -/
theorem State.fadeEnded_outs (s : State) (n : Nat) (was : Corr) : (s.fadeEnded n was).outs = s.outs :=
  when_keeps State.outs
    ((State.event_outs _ _ _).trans ((State.showCorrect_outs _).trans (State.showCorr_outs _ n)))

/-- Where no cross-fade ran, none ends (R222). -/
theorem State.fadeEnded_of_no_fade (s : State) (n : Nat) {was : Corr} (h : was.fade = none) : s.fadeEnded n was = s :=
  if_neg (by simp [h])

/-! One step per sample of a block -/

theorem State.mem_blockSamples (s : State) (b : Nat) {j : Nat} (h : j < s.blockSize) :
    s.blockStart b + j ∈ s.blockSamples b :=
  List.mem_map_of_mem (List.mem_range.mpr h)

/-- Steps over 0 to `m` - 1 that keep `I`, where step `j` brings about `Q j` and undoes no other. -/
theorem foldl_range_each {σ : Type} {f : σ → Nat → σ} {t : σ} {m : Nat} (I : σ → Prop) (Q : Nat → σ → Prop)
    (h0 : I t) (step : ∀ u j, j < m → I u → I (f u j) ∧ Q j (f u j) ∧ ∀ k, k ≠ j → Q k u → Q k (f u j)) :
    I ((List.range m).foldl f t) ∧ ∀ j < m, Q j ((List.range m).foldl f t) := by
  induction m with
  | zero => exact ⟨h0, fun j hj => absurd hj (Nat.not_lt_zero j)⟩
  | succ m ih =>
    obtain ⟨kept, each⟩ := ih (fun u j hj => step u j (Nat.lt_succ_of_lt hj))
    obtain ⟨keeps, brings, undoes⟩ := step _ m (Nat.lt_succ_self m) kept
    rw [List.range_succ, List.foldl_append, List.foldl_cons, List.foldl_nil]
    refine ⟨keeps, fun j hj => ?_⟩
    rcases Nat.lt_succ_iff_lt_or_eq.mp hj with hj | rfl
    · exact undoes j (Nat.ne_of_lt hj) (each j hj)
    · exact brings

/-- The same of the samples of a block. -/
theorem State.foldl_blockSamples_each (s : State) (b : Nat) {σ : Type} {f : σ → Nat → σ} {t r : σ}
    (hr : (s.blockSamples b).foldl f t = r) (I : σ → Prop) (Q : Nat → σ → Prop) (h0 : I t)
    (step : ∀ u j, j < s.blockSize → I u → I (f u (s.blockStart b + j)) ∧ Q j (f u (s.blockStart b + j)) ∧
      ∀ k, k ≠ j → Q k u → Q k (f u (s.blockStart b + j))) : I r ∧ ∀ j < s.blockSize, Q j r := by
  rw [← hr, State.blockSamples, List.foldl_map]
  exact foldl_range_each I Q h0 step

/-! SHAPE_PRE of an output whose gain stands -/

/-- The record of an active output at a sample: gain `g`, and no mute, inversion, EQ, bass management or dynamics. -/
def State.OutStands (s : State) (n : Nat) (g : Int) (i : Nat) : Prop :=
  s.outActiveAt n i = true ∧ s.fldAt (.out n) Reg.Out.GAIN i = g ∧ s.fldAt (.out n) Reg.Out.CTRL_MUTE i = 0 ∧
  s.fldAt (.out n) Reg.Out.CTRL_INVERT i = 0 ∧ s.fldAt (.out n) Reg.Out.EQ_SECTION_EN i = 0 ∧
  s.fldAt (.out n) Reg.Out.BM_ROLE i = 0 ∧ s.fldAt (.out n) Reg.Out.DYN_EN i = 0

/-- A stage that stands at the gain of its record stays there (R87). -/
theorem GainStage.follow_at0 (inv : Bool) (g : Int) (i n : Nat) :
    (GainStage.at0 inv g).follow i n inv g = GainStage.at0 inv g := by
  simp [GainStage.follow, GainStage.wantInv, GainStage.wantGain, GainStage.at0]

theorem GainStage.tick_at0 (inv : Bool) (g : Int) (i : Nat) : (GainStage.at0 inv g).tick i = GainStage.at0 inv g := by
  simp [GainStage.tick, GainStage.at_, GainStage.at0]

theorem State.outGain_stands {s : State} {n i : Nat} {g : Int} {e : OutEngine} (h : s.OutStands n g i) (live : e.live = true)
    (gain : e.gain = GainStage.at0 false g) : s.outGain n i e = e := by
  obtain ⟨active, hg, mute, invert, -⟩ := h
  unfold State.outGain
  simp only [active, live, mute, invert, hg, gain, Bool.not_true, Bool.and_false, Bool.and_true, Bool.false_eq_true,
    if_false, if_true, ne_eq, not_true_eq_false, decide_false, GainStage.follow_at0, GainStage.tick_at0]
  rw [← gain, ← live]

/-- A chain whose sections are all off and clear passes the signal, and they stay clear (R89, R188). -/
theorem eqChain_nil (coeff : Nat → Int × Int × Int × Int × Int) (sat : Int → Int) (n i count : Nat) (x : Int) :
    eqChain coeff sat n i count [] x = ([], x, false) :=
  List.foldl_fixed' (fun _ => rfl) _

/-- No section is enabled where no bit is set (R90). -/
theorem sectionsTake_nil (count i : Nat) : sectionsTake [] 0 count i = [] :=
  List.foldl_fixed' (fun j => by simp [Section.enable, Map.put]) _

theorem State.bassStage_off {s : State} {n i : Nat} (h : s.fldAt (.out n) Reg.Out.BM_ROLE i = 0) (j : Nat) (e : OutEngine)
    (x : Int) : s.bassStage n i j e x = (s, e, x) := by
  unfold State.bassStage
  simp only [h]

theorem State.dynamics_off {s : State} {n i : Nat} (h : s.fldAt (.out n) Reg.Out.DYN_EN i = 0) (env : Nat) (x : Int) :
    s.dynamics n i env x = (0, x) := if_pos h

theorem State.inject_none {s : State} (h : s.excites = none) (n i : Nat) (post : Bool) (x : Int) :
    s.inject n i post x = x := by
  unfold State.inject
  rw [h]

/-- The accumulated sum, saturated, times the gain, rounded and saturated again (R168, R187). -/
def State.shapedAt (s : State) (n : Nat) (g : Int) (j : Nat) : Int :=
  satQ17 (roundShift (satQ17 (Map.get 0 (64 * n + j) s.paths.acc) * g) 28)

/-- The shaping of an output whose gain stands: the stage counts as done, and every sample is shaped (R168, R187). -/
theorem State.shapePre_stands {s : State} {n b : Nat} {g : Int} (hin : s.inTime b = true)
    (hdone : (s.out n).preDone ≠ b + 1) (hlive : (s.out n).live = true) (hgain : (s.out n).gain = GainStage.at0 false g)
    (hsec : (s.out n).sections = []) (hex : s.excites = none) (stands : ∀ i ∈ s.blockSamples b, s.OutStands n g i) :
    ((s.shapePre n b).out n).preDone = b + 1 ∧
      ∀ j < s.blockSize, Map.get 0 j ((s.shapePre n b).out n).pre = s.shapedAt n g j := by
  have role : s.fldAt (.out n) Reg.Out.BM_ROLE (s.blockStart b) ≠ 2 := by
    obtain ⟨-, -, -, -, -, role, -⟩ := stands (s.blockStart b) (s.mem_blockSamples b s.blockSize_pos)
    rw [role]
    decide
  unfold State.shapePre
  extract_lets e0 s0 ready
  rw [if_neg (by simp only [hin, e0, hdone, decide_false, Bool.not_true, Bool.or_self, Bool.false_eq_true,
    not_false_eq_true])]
  have noLow : ready = s := if_neg role
  rw [noLow]
  generalize hr : List.foldl _ (s, e0, false) _ = r
  obtain ⟨-, shaped⟩ := s.foldl_blockSamples_each b hr
    (fun u => u.1 = s ∧ u.2.1.live = true ∧ u.2.1.gain = GainStage.at0 false g ∧ u.2.1.sections = [])
    (fun j u => Map.get 0 j u.2.1.pre = s.shapedAt n g j) ⟨rfl, hlive, hgain, hsec⟩ (by
      rintro ⟨t, e, sat⟩ j hj ⟨rfl, live, gain, sections⟩
      dsimp only at live gain sections
      have now := stands _ (t.mem_blockSamples b hj)
      have same := State.outGain_stands now live gain
      have here : t.blockStart b + j - s0 = j := Nat.add_sub_cancel_left _ _
      obtain ⟨-, -, -, -, eq, bass, dyn⟩ := now
      simp only [same, live, gain, sections, eq, sectionsTake_nil, eqChain_nil, State.bassStage_off bass,
        State.dynamics_off dyn, State.inject_none hex, here, Bool.not_true, Bool.false_and,
        Bool.false_eq_true, if_false, GainStage.at0]
      refine ⟨⟨trivial, trivial, trivial, trivial⟩, Map.get_put_same _ _ _ _, fun k hk h => ?_⟩
      rw [Map.get_put_other _ _ _ _ hk]
      exact h)
  obtain ⟨t, e, sat⟩ := r
  dsimp only
  have counted (u : State) : (if sat then (u.event .path 3).count .path Reg.Path.ACC_SAT_COUNT else u).outs = u.outs :=
    when_keeps State.outs ((State.count_outs _ _ _ _).trans (State.event_outs _ _ _))
  rw [State.out_eq_of_outs (counted _) n, State.out_eq_of_outs (State.fadeEnded_outs _ _ _) n, State.out_setOut]
  exact ⟨rfl, shaped⟩

/-- SHAPE_PRE of an output whose gain stands (R168, R187). -/
theorem shapePreJob_answers {s : State} {n b : Nat} {g : Int} (hg : s.granted .shapePre (0x400 + n) b = true)
    (hin : s.inTime b = true) (hdone : (s.out n).preDone ≠ b + 1) (hlive : (s.out n).live = true)
    (hgain : (s.out n).gain = GainStage.at0 false g) (hsec : (s.out n).sections = []) (hex : s.excites = none)
    (stands : ∀ i ∈ s.blockSamples b, s.OutStands n g i) : Answers (.shapePreJob n b) s (fun t =>
      (t.out n).preDone = b + 1 ∧ ∀ j, j < s.blockSize → Map.get 0 j (t.out n).pre = s.shapedAt n g j) := by
  have runs : execShapePreJob n b s = settle (s.shapePre n b) := congrArg settle (if_pos hg)
  refine ⟨_, runs, ?_⟩
  dsimp only
  rw [State.out_settled]
  exact State.shapePre_stands hin hdone hlive hgain hsec hex stands

/-! CONV_HEAD and CONV_SEG -/

/-- CONV_HEAD of a shaped block (R208). -/
theorem convHeadJob_answers {s : State} {n b : Nat} (hg : s.granted .convHead (0x400 + n) b = true) (hin : s.inTime b = true)
    (hpre : (s.out n).preDone = b + 1) : Answers (.convHeadJob n b) s (fun t =>
      (t.out n).corr = { (s.out n).corr with head := b + 1 } ∧ OnlyWords { s with outs := t.outs } t []) :=
  answers_setOut (P := fun e => e.corr = { (s.out n).corr with head := b + 1 }) (if_pos ⟨hg, hin, hpre⟩) rfl

/-- CONV_SEG, the last job of a group whose inputs are there (R208). -/
theorem convSegJob_answers {s : State} {n bank k start : Nat} (hbank : ((s.out n).corr.bank bank).usable = true)
    (hk : 1 ≤ k) (hspan : k ≤ spanOf ((s.out n).corr.bank bank).taps.length)
    (hphase : ((start : Int) - 64 * n) % (64 * 2 ^ (k - 1)) = 0) (hstart : start ≤ (s.out n).preDone * s.blockSize)
    (hg : s.granted .convSeg (segJob n (start / s.blockSize - 1) bank k (segPieces k - 1)).flow (start / s.blockSize - 1)
      (segJob n (start / s.blockSize - 1) bank k (segPieces k - 1)).slice = true) :
    Answers (.convSegJob n bank k start) s (fun t => Map.get 0 (16 * bank + k) (t.out n).corr.seg = start + 1 ∧
      OnlyWords { s with outs := t.outs } t []) := by
  have begins : groupStart n (64 * 2 ^ (k - 1)) start = start := by
    unfold groupStart
    push_cast
    rw [hphase, sub_zero]
  exact answers_setOut (P := fun e => Map.get 0 (16 * bank + k) e.corr.seg = start + 1)
    (if_pos ⟨hbank, hk, hspan, begins, hstart, hg⟩) (Map.get_put_same _ _ _ _)

/-! SHAPE_POST: what the limiter and the open curtain bound -/

/-- The bits of a field after the changes since a sample do not depend on other words of its unit (R31). -/
theorem State.fldAt_set_other (s : State) (b : Blk) {f g : Fld} (v i : Nat) (h : g.off ≠ f.off) :
    (s.set b f v).fldAt b g i = s.fldAt b g i := by
  have word : regGet (s.set b f v).fab.act b.base g = regGet s.fab.act b.base g :=
    regGet_regPut_word _ _ _ _ _ _ (by omega)
  unfold State.fldAt State.wordsAt
  rw [State.set_changes]
  generalize (s.set b f v).fab.act = m at word ⊢
  generalize s.fab.act = m' at word ⊢
  induction s.changes generalizing m m' with
  | nil => exact word
  | cons c l ih =>
    rw [List.foldl_cons, List.foldl_cons]
    refine ih _ _ ?_
    split
    · rfl
    · exact word

theorem State.fldAt_peak_other (s : State) (b : Blk) {f g : Fld} (v i : Nat) (h : g.off ≠ f.off) :
    (s.peak b f v).fldAt b g i = s.fldAt b g i := State.fldAt_set_other _ _ _ _ h

/-- A product with unity is exact, however it is rounded. -/
theorem roundOpen_mul_unity (y : Int) : roundOpen (y * unity) (2 ^ 28) = y := by
  unfold roundOpen
  rw [show ((unity : Nat) : Int) = 2 ^ 28 from rfl, if_pos (Int.mul_emod_left _ _), Int.mul_ediv_cancel _ (by decide)]

theorem absNat_clampInt_le (c : Nat) (x : Int) : absNat (clampInt (-(c : Int)) c x) ≤ c := by
  unfold clampInt absNat
  split
  · omega
  · split <;> omega

/-- Saturation makes no sample greater. -/
theorem absNat_satQ31_le (x : Int) : absNat (satQ31 x) ≤ absNat x := by
  unfold satQ31 clampInt absNat
  split
  · omega
  · split <;> omega

/-- The limiter's output stays within its ceiling (R192). -/
theorem limit_le (ceil a L : Nat) (ahead : List Int) (g : Nat) (x : Int) :
    absNat (limit ceil a L ahead g x).2.2.1 ≤ ceil :=
  (absNat_satQ31_le _).trans (absNat_clampInt_le ceil _)

/-- An open curtain passes the signal (R200). -/
theorem Curtain.gainAt_open {c : Curtain} (hphase : c.phase = .isOpen) (hn : c.n = 0) (hfrom : c.from_ = unity) (i : Nat) :
    c.gainAt i = unity := by
  simp only [Curtain.gainAt, hphase, hn, hfrom, if_true, ite_self]

/-- Behind an open curtain a sample within the ceiling stays within it, an announcement included: that has a limiter of its
own with the same ceiling (R192, R201). -/
theorem State.afterLimiter_le {s : State} {n i : Nat} (e : OutEngine) {y : Int} (hopen : s.curtain.gainAt i = unity)
    (hy : absNat y ≤ limiterCeiling (s.fldAt (.out n) Reg.Out.LIM_CEILING i)) :
    absNat (s.afterLimiter n i e y).2.1 ≤ limiterCeiling (s.fldAt (.out n) Reg.Out.LIM_CEILING i) := by
  unfold State.afterLimiter
  extract_lets _ z _ _ _ _ _
  have passed : z = y := by
    unfold z
    rw [hopen, roundOpen_mul_unity]
  split
  · exact passed.symm ▸ hy
  · exact limit_le _ _ _ _ _ _

theorem State.afterLimiter_egress (s : State) (n i : Nat) (e : OutEngine) (y : Int) :
    (s.afterLimiter n i e y).1.egress = e.egress := by
  unfold State.afterLimiter
  extract_lets
  split <;> rfl

theorem State.outEvent_outs (s : State) (n i : Nat) : (s.outEvent n i).outs = s.outs := State.stick_outs _ _ _ _

theorem State.protEvent_outs (s : State) (n i : Nat) : (s.protEvent n i).outs = s.outs := State.stick_outs _ _ _ _

/-- The end of an output's chain: the stage counts as done, and no egress sample of the block exceeds the ceiling
(R192, R201). -/
theorem State.shapePost_within {s : State} {n b : Nat} (hin : s.inTime b = true) (hpre : (s.out n).preDone = b + 1)
    (hpost : (s.out n).postDone ≠ b + 1) (hcorr : (s.out n).corr.complete n b (s.blockStart b) = true)
    (hopen : ∀ i, s.curtain.gainAt i = unity) : ∃ (t : State) (e : OutEngine),
      (s.shapePost n b).outs = (t.setOut n { e with postDone := b + 1 }).outs ∧
      ∀ j < s.blockSize, absNat (Map.get 0 j e.egress) ≤
        limiterCeiling (s.fldAt (.out n) Reg.Out.LIM_CEILING (s.blockStart b + j)) := by
  unfold State.shapePost
  extract_lets e0 s0
  rw [if_neg (by simp only [hin, e0, s0, hpre, hpost, hcorr, ne_eq, not_true_eq_false, decide_false, Bool.not_true,
    Bool.or_self, Bool.false_eq_true, not_false_eq_true])]
  generalize hr : List.foldl _ (s, _) _ = r
  obtain ⟨-, bounded⟩ := s.foldl_blockSamples_each b hr
    (fun u => u.1.curtain = s.curtain ∧
      ∀ i, u.1.fldAt (.out n) Reg.Out.LIM_CEILING i = s.fldAt (.out n) Reg.Out.LIM_CEILING i)
    (fun j u => absNat (Map.get 0 j u.2.1.egress) ≤
      limiterCeiling (s.fldAt (.out n) Reg.Out.LIM_CEILING (s.blockStart b + j))) ⟨rfl, fun _ => rfl⟩ (by
      rintro ⟨t, e, sat, above, lim, xover⟩ j hj ⟨curtain, ceiling⟩
      dsimp only at curtain ceiling ⊢
      generalize hp : State.peak (State.peak t _ _ _) (.out n) Reg.Out.PEAK _ = p
      generalize hl : limit _ _ _ _ _ _ = l
      generalize ha : p.afterLimiter _ _ _ _ = a
      have here : s.blockStart b + j - s0 = j := Nat.add_sub_cancel_left _ _
      have asBefore : p.curtain = s.curtain := by rw [← hp, State.peak_curtain, State.peak_curtain, curtain]
      have same : ∀ i, p.fldAt (.out n) Reg.Out.LIM_CEILING i = s.fldAt (.out n) Reg.Out.LIM_CEILING i := fun i => by
        rw [← hp, State.fldAt_peak_other _ _ _ _ (by decide), State.fldAt_peak_other _ _ _ _ (by decide), ceiling]
      have limited : absNat l.2.2.1 ≤ limiterCeiling (p.fldAt (.out n) Reg.Out.LIM_CEILING (s.blockStart b + j)) := by
        rw [same, ← ceiling, ← hl]
        exact limit_le _ _ _ _ _ _
      have within : absNat a.2.1 ≤ limiterCeiling (s.fldAt (.out n) Reg.Out.LIM_CEILING (s.blockStart b + j)) := by
        rw [← same, ← ha]
        exact State.afterLimiter_le _ (by rw [asBefore]; exact hopen _) limited
      have before : a.1.egress = e.egress := by
        rw [← ha]
        exact State.afterLimiter_egress _ _ _ _ _
      simp only [apply_ite OutEngine.egress, ite_self, here, before]
      refine ⟨⟨asBefore, same⟩, ?_, fun k hk h => ?_⟩
      · rw [Map.get_put_same]
        split
        · exact within
        · exact Nat.zero_le _
      · rw [Map.get_put_other _ _ _ _ hk]
        exact h)
  obtain ⟨t, e, sat, above, lim, xover⟩ := r
  refine ⟨t, e, ?_, bounded⟩
  dsimp -zeta only
  extract_lets stored xl flagged atten counted crossed saturated limited
  have tallied (u : State) (i : Nat) (f : Fld) : ((u.outEvent n i).count (.out n) f).outs = u.outs :=
    (State.count_outs _ _ _ _).trans (State.outEvent_outs _ _ _)
  calc
    _ = limited.outs := when_keeps State.outs (tallied limited 1 _)
    _ = saturated.outs := when_keeps State.outs (tallied saturated 0 _)
    _ = crossed.outs := when_keeps State.outs ((State.count_outs _ _ _ _).trans (State.event_outs crossed _ _))
    _ = counted.outs := when_keeps State.outs (State.protEvent_outs counted _ _)
    _ = atten.outs := when_keeps State.outs ((State.count_outs _ _ _ _).trans (State.protEvent_outs atten _ _))
    _ = stored.outs := (State.set_outs flagged _ _ _).trans (State.setBit_outs stored _ _ _)

/-- SHAPE_POST behind an open curtain (R192, R200, R201). -/
theorem shapePostJob_answers {s : State} {n b : Nat} (hg : s.granted .shapePost (0x400 + n) b = true)
    (hin : s.inTime b = true) (hpre : (s.out n).preDone = b + 1) (hpost : (s.out n).postDone ≠ b + 1)
    (hcorr : (s.out n).corr.complete n b (s.blockStart b) = true) (hphase : s.curtain.phase = .isOpen) (hn : s.curtain.n = 0)
    (hfrom : s.curtain.from_ = unity) : Answers (.shapePostJob n b) s (fun t => (t.out n).postDone = b + 1 ∧
      ∀ j, j < s.blockSize → absNat (Map.get 0 j (t.out n).egress) ≤
        limiterCeiling (s.fldAt (.out n) Reg.Out.LIM_CEILING (s.blockStart b + j))) := by
  have runs : execShapePostJob n b s = settle (s.shapePost n b) := congrArg settle (if_pos hg)
  obtain ⟨t, e, outs, bounded⟩ := State.shapePost_within hin hpre hpost hcorr (Curtain.gainAt_open hphase hn hfrom)
  refine ⟨_, runs, ?_⟩
  dsimp only
  rw [State.out_settled, State.out_eq_of_outs outs, State.out_setOut]
  exact ⟨rfl, bounded⟩

/-! OUTPUT_RAMP_ZERO -/

/-- A deactivation ramp that has reached 0 (R187). -/
theorem outputRampZero_answers {s : State} {n z : Nat} (hf : (s.out n).falling = some z)
    (hz : z ≤ s.blockStart s.render.block) (hfade : (s.out n).corr.fade = none) : Answers (.outputRampZero n) s (fun t =>
      (t.out n).falling = none ∧ (t.out n).sections = [] ∧ (t.out n).egress = [] ∧
      (t.out n).prot.dVc = (s.out n).prot.dVc ∧ (t.out n).prot.dMag = (s.out n).prot.dMag ∧
      OnlyWords { s with outs := t.outs } t []) := by
  have clears : execOutputRampZero n s =
      settle (s.setOut n { (s.out n).clear z with falling := none, pre := [], tap := [], egress := [] }) := by
    unfold execOutputRampZero
    simp only [hf, if_pos hz, State.fadeEnded_of_no_fade _ _ hfade]
  obtain ⟨t, ht, ⟨falling, sections, egress, dVc, dMag⟩, only⟩ := answers_setOut (c := .outputRampZero n) clears
    (P := fun e => e.falling = none ∧ e.sections = [] ∧ e.egress = [] ∧ e.prot.dVc = (s.out n).prot.dVc ∧
      e.prot.dMag = (s.out n).prot.dMag) ⟨rfl, rfl, rfl, rfl, rfl⟩
  exact ⟨t, ht, falling, sections, egress, dVc, dMag, only⟩

/-! OUTPUT_CUTOFF -/

/-- What the cut-off sets and the wake-ups and grants after it keep: the outputs cut, EXTRA_CUT and EVENTS of RENDER. -/
def State.cutView (s : State) : List Nat × Nat × Nat :=
  (s.sched.cutOuts, s.fld .render Reg.Render.EXTRA_CUT, s.fld .render Reg.Hdr.EVENTS)

theorem State.set_cutView (s : State) {b : Blk} {f : Fld} (v : Nat) (h : OffRender b f) :
    (s.set b f v).cutView = s.cutView := by
  have word (g : Fld) (hg : g.off < 0x1000) : (s.set b f v).fld .render g = s.fld .render g := by
    refine State.fld_set_word _ _ _ _ _ _ ?_
    unfold OffRender at h
    omega
  simp only [State.cutView, State.set_sched, word _ (show Reg.Render.EXTRA_CUT.off < 0x1000 by decide),
    word _ (show Reg.Hdr.EVENTS.off < 0x1000 by decide)]

theorem State.pushReady_cutView (s : State) (cls : Nat) (j : Job) : (s.pushReady cls j).cutView = s.cutView :=
  ite_keeps State.cutView rfl
    ((State.set_cutView _ _ (.inl (by decide))).trans (State.set_cutView _ _ (.inl (by decide))))

theorem State.wake_cutView (s : State) : s.wake.cutView = s.cutView := by
  unfold State.wake
  extract_lets b buses
  refine ite_keeps State.cutView rfl ((foldl_keeps State.cutView (fun t n _ => ?_) buses).trans
    (foldl_keeps State.cutView (fun t n _ => when_keeps State.cutView (t.pushReady_cutView _ _)) s))
  exact ite_keeps State.cutView (t.pushReady_cutView _ _) (when_keeps State.cutView (t.pushReady_cutView _ _))

theorem State.grant_cutView (s : State) (e w : Nat) (r : Ready) : (s.grant e w r).cutView = s.cutView := by
  unfold State.grant
  extract_lets listed _ sched granted runs waits
  have hGranted : granted.cutView = s.cutView :=
    State.set_cutView (b := .ringmaster) (f := Reg.Ringmaster.READY_NOW) _ _ (.inl (by decide))
  exact (State.set_cutView waits _ (.inl (by decide))).trans <|
    (when_keeps State.cutView (State.set_cutView runs _ (.inl (by decide)))).trans <|
    (when_keeps State.cutView (show (granted.opRuns r.job.flow).cutView = granted.cutView from rfl)).trans hGranted

theorem State.dispatch_cutView (s : State) : s.dispatch.cutView = s.cutView := by
  unfold State.dispatch
  refine foldl_keeps State.cutView (fun t e _ => ?_) s
  split
  · rfl
  · split
    · rfl
    · exact State.grant_cutView _ _ _ _

theorem State.settled_cutView (s : State) : s.settled.cutView = s.cutView := by
  simp only [State.cutView, State.settled_sched]
  rw [State.settled_fld _ _ _ (by decide), State.settled_fld _ _ _ (by decide)]

/-- An event of the RENDER page that is recorded reads 1 (R46). -/
theorem State.event_render_bit (s : State) {i : Nat} (hi : i < Reg.Hdr.EVENTS.width) :
    ((s.event .render i).fld .render Reg.Hdr.EVENTS).testBit i = true := by
  have flags : (s.event .render i).fld .render Reg.Hdr.EVENTS =
      (s.fld .render Reg.Hdr.EVENTS ||| 2 ^ i) % 2 ^ Reg.Hdr.EVENTS.width :=
    State.fld_set_same _ _ _ _ ⟨by decide, by decide⟩
  simp only [flags, Nat.testBit_mod_two_pow, hi, decide_true, Nat.testBit_or, Nat.testBit_two_pow_self,
    Bool.or_true, Bool.and_self]

/-- The cut-off leaves an output out (R378): the state in which output `o` is cut. -/
def State.cutOut (s : State) (o : Nat) : State :=
  ({ s with sched := { s.sched with cutOuts := s.sched.cutOuts ++ [o] } }.count .render Reg.Render.EXTRA_CUT).event .render 1

/-- With no output cut before, the only Lead output is cut where it has not been shaped and an Extra object owes it a
contribution (R378). -/
theorem State.cutoff_single {s : State} {o n : Nat} (hr : s.render.released = true) (hl : s.render.late = false)
    (ht : s.blockStart (s.render.block + 2) ≤ s.render.rsi + s.blockSize / 4) (hlead : s.sched.leadOuts = [o])
    (hcut : s.sched.cutOuts = []) (hpre : (s.out o).preDone ≠ s.render.block + 1) (hn : n ∈ s.owing o)
    (hc : s.classAt n (s.blockStart s.render.block) = 2) : s.cutoff = (s.cutOut o).wake := by
  have owes : (s.owing o).any (fun n => s.classAt n (s.blockStart s.render.block) = 2) = true :=
    List.any_eq_true.mpr ⟨n, hn, by simp only [hc, decide_true]⟩
  unfold State.cutoff
  simp only [hr, hl, Nat.not_lt.mpr ht, hlead, hcut, hpre, owes, decide_false, Bool.not_true, Bool.or_self,
    Bool.false_eq_true, if_false, List.foldl_cons, List.foldl_nil, List.contains_nil]
  simp only [State.cutOut, hcut, hlead]

/-- OUTPUT_CUTOFF after the deadline, or before a quarter block ahead of it (R378). -/
theorem outputCutoff_answers_not_due {s : State} (h : s.render.late = true ∨
    s.render.rsi + s.blockSize / 4 < s.blockStart (s.render.block + 2)) (hs : s.sched.stalled = []) :
    Answers .outputCutoff s (OnlyWords s · []) := by
  have idle : s.cutoff = s := if_pos (by rcases h with h | h <;> simp [h])
  have none_ : s.dispatch = s := by
    unfold State.dispatch
    rw [hs]
    rfl
  refine ⟨s.settled, ?_, s.settled_only⟩
  change settle s.cutoff.dispatch = _
  rw [idle, none_, settle_eq]

/-- OUTPUT_CUTOFF in time, with one Lead output that an Extra object holds up (R378). -/
theorem outputCutoff_answers_cut {s : State} {o n : Nat} (hr : s.render.released = true) (hl : s.render.late = false)
    (ht : s.blockStart (s.render.block + 2) ≤ s.render.rsi + s.blockSize / 4) (hlead : s.sched.leadOuts = [o])
    (hcut : s.sched.cutOuts = []) (hpre : (s.out o).preDone ≠ s.render.block + 1) (hn : n ∈ s.owing o)
    (hc : s.classAt n (s.blockStart s.render.block) = 2) : Answers .outputCutoff s (fun t => t.sched.cutOuts = [o] ∧
      t.fld .render Reg.Render.EXTRA_CUT = (s.fld .render Reg.Render.EXTRA_CUT + 1) % 2 ^ Reg.Render.EXTRA_CUT.width ∧
      (t.fld .render Reg.Hdr.EVENTS).testBit 1 = true) := by
  have view : (s.cutOut o).wake.dispatch.settled.cutView = (s.cutOut o).cutView :=
    (State.settled_cutView _).trans ((State.dispatch_cutView _).trans (State.wake_cutView _))
  simp only [State.cutView, Prod.mk.injEq] at view
  obtain ⟨cut, counted, raised⟩ := view
  have cuts := State.cutoff_single hr hl ht hlead hcut hpre hn hc
  refine ⟨_, congrArg (fun t : State => settle t.dispatch) cuts, ?_, ?_, ?_⟩
  · rw [cut, State.cutOut, State.event_sched, State.count_sched, hcut]
    rfl
  · rw [counted]
    exact (State.fld_set_apart _ _ _ (by decide)).trans
      ((State.fld_set_same _ _ _ _ ⟨by decide, by decide⟩).trans (Nat.mod_mod _ _))
  · rw [raised]
    exact State.event_render_bit _ (by decide)

/-- Settles O25, command by command. -/
theorem outputJobs : Obligations.OutputJobs :=
  ⟨fun _ _ _ _ hg hin hdone hlive hgain hsec hex stands => shapePreJob_answers hg hin hdone hlive hgain hsec hex stands,
    fun _ _ _ hg hin hpre => convHeadJob_answers hg hin hpre,
    fun _ _ _ _ _ hbank hk hspan hphase hstart hg => convSegJob_answers hbank hk hspan hphase hstart hg,
    fun _ _ _ hg hin hpre hpost hcorr hphase hn hfrom _ _ _ =>
      shapePostJob_answers hg hin hpre hpost hcorr hphase hn hfrom,
    fun _ _ _ hf hz hfade => outputRampZero_answers hf hz hfade,
    fun _ _ h hs => outputCutoff_answers_not_due h hs,
    fun _ _ _ hr hl ht hlead hcut hpre hn hc => outputCutoff_answers_cut hr hl ht hlead hcut hpre hn hc⟩

end Sys2Proof.Machine
end

section
/-! PROOFS. The jobs of a route that stands and of a bus that stands: what they add to an output and send (R176 to R178,
R181). -/

namespace Sys2Proof.Machine

open Sys2Proof

/-! What the samples and the routes of a job add -/

/-- Steps over 0 to `m` - 1 that keep `I`, where step `k` adds `d k` to a store read by key. -/
theorem foldl_range_adds {σ : Type} {f : σ → Nat → σ} {t : σ} {m : Nat} (I : σ → Prop) (view : σ → Nat → Int)
    (d : Nat → Nat → Int) (h0 : I t)
    (step : ∀ u k, k < m → I u → I (f u k) ∧ ∀ key, view (f u k) key = view u key + d k key) :
    I ((List.range m).foldl f t) ∧
      ∀ key, view ((List.range m).foldl f t) key = view t key + ∑ k ∈ Finset.range m, d k key := by
  induction m with
  | zero => exact ⟨h0, fun key => (add_zero _).symm⟩
  | succ m ih =>
    obtain ⟨kept, sum⟩ := ih (fun u k hk => step u k (Nat.lt_succ_of_lt hk))
    obtain ⟨keeps, adds⟩ := step _ m (Nat.lt_succ_self m) kept
    rw [List.range_succ, List.foldl_append, List.foldl_cons, List.foldl_nil]
    exact ⟨keeps, fun key => by rw [adds, sum, Finset.sum_range_succ, add_assoc]⟩

/-- Values that stand at successive places of one output's 64 reach a place once, if at all (R181). -/
theorem sum_at_output (v : Nat → Int) {m j : Nat} (o dest : Nat) (hm : m ≤ 64) (hj : j < 64) :
    ∑ k ∈ Finset.range m, (if 64 * o + j = 64 * dest + k then v k else 0) = if o = dest ∧ j < m then v j else 0 := by
  have place : ∀ k ∈ Finset.range m, (if 64 * o + j = 64 * dest + k then v k else 0) =
      if j = k then (if o = dest then v k else 0) else 0 := fun k hk => by
    have := Finset.mem_range.mp hk
    rw [← ite_and]
    exact if_congr (by omega) rfl rfl
  rw [Finset.sum_congr rfl place, Finset.sum_ite_eq]
  simp only [Finset.mem_range, ← ite_and, and_comm]

theorem State.blockSize_le (s : State) : s.blockSize ≤ 64 := by
  rcases s.sliceSize_blockSize with ⟨-, h⟩ | ⟨-, h⟩ <;> omega

/-- Rounding a quotient and dropping fraction bits agree (R178). -/
theorem roundDiv_two_pow (p : Int) : roundDiv p (2 ^ 28) = roundShift p 28 := by
  unfold roundDiv roundShift
  rw [show (2 * p + 2 ^ 28 : Int) = 2 * (p + 2 ^ (28 - 1)) by ring]
  exact Int.mul_fdiv_mul_of_pos _ _ (by decide)

/-- A sample times a gain, in one rounding and with the polarity of the stage (R178). -/
def scaled (inv : Bool) (g x : Int) : Int := roundShift (if inv then -(x * g) else x * g) 28

/-- Outside a cross-fade a contribution is the scaled sample (R178). -/
theorem mixTerm_whole (x g : Int) (inv : Bool) : mixTerm x g inv (1, 1) = scaled inv g x := by
  simp only [mixTerm, Nat.cast_one, mul_one]
  exact roundDiv_two_pow _

/-- The polarity that a record's INVERT asks for (R177, R184). -/
theorem decide_eq_of_polarity {x : Nat} {inv : Bool} (h : x ≠ 0 ↔ inv = true) : decide (x ≠ 0) = inv :=
  Bool.eq_iff_iff.mpr (decide_eq_true_iff.trans h)

/-! The engine of a route -/

/-- A route from `src` to output `dest` that stands at a gain: no cross-fade and no ramp. -/
def RouteEngine.standing (src : Source) (dest : Nat) (inv : Bool) (g : Int) : RouteEngine :=
  { on := true, src := src, dest := dest, gain := GainStage.at0 inv g }

/-- The record of a route to output `dest` at a sample. -/
def State.RouteStands (s : State) (r : Nat) (src : Source) (dest : Nat) (inv : Bool) (g : Int) (i : Nat) : Prop :=
  s.routeAt r i = (true, src, false, dest) ∧ s.fldAt (.route r) Reg.Route.GAIN i = g ∧
  (s.fldAt (.route r) Reg.Route.CTRL_INVERT i ≠ 0 ↔ inv = true)

/-- An engine that agrees with its record stays as it is (R183 to R185). -/
theorem State.routeStep_stands {s : State} {r i dest : Nat} {src : Source} {inv : Bool} {g : Int}
    (h : s.RouteStands r src dest inv g i) :
    s.routeStep r i (.standing src dest inv g) = .standing src dest inv g := by
  obtain ⟨names, gain, invert⟩ := h
  have polarity := decide_eq_of_polarity invert
  simp only [State.routeStep, names, gain, polarity, RouteEngine.step, RouteEngine.standing, Option.bind_none, ne_eq,
    not_true_eq_false, decide_false, Bool.or_self, Bool.and_false, Bool.false_eq_true, if_false, if_true,
    GainStage.follow_at0, GainStage.tick_at0]

theorem RouteEngine.term_standing (src : Source) (dest : Nat) (inv : Bool) (g : Int) (x : Source → Int) (i : Nat) :
    (RouteEngine.standing src dest inv g).term x false dest i = scaled inv g (x src) := by
  rw [← mixTerm_whole]
  simp [RouteEngine.term, RouteEngine.standing, GainStage.at_, GainStage.at0]

/-- An engine that is off, with nothing fading out. -/
def RouteEngine.Off (e : RouteEngine) : Prop := e.on = false ∧ e.old = none

/-- It stays as it is while it is to be off (R183). -/
theorem RouteEngine.Off.step {e : RouteEngine} (h : e.Off) (i : Nat) (src : Source) (toBus : Bool) (dest fade ramp : Nat)
    (inv : Bool) (target : Int) : e.step i false src toBus dest fade ramp inv target = e := by
  obtain ⟨on, src', toBus', dest', gain, fade', old⟩ := e
  obtain ⟨rfl, rfl⟩ := h
  rfl

/-- It adds nothing (R178). -/
theorem RouteEngine.Off.term {e : RouteEngine} (h : e.Off) (x : Source → Int) (toBus : Bool) (dest i : Nat) :
    e.term x toBus dest i = 0 := by
  obtain ⟨on, old⟩ := h
  simp only [RouteEngine.term, on, old, Bool.false_and, Bool.false_eq_true, if_false, add_zero]

theorem State.routeStep_off {s : State} {q i : Nat} {e : RouteEngine} (he : e.Off) (h : (s.routeAt q i).1 = false) :
    s.routeStep q i e = e := by
  simp only [State.routeStep, h]
  exact he.step _ _ _ _ _ _ _ _

/-! ROUTE_JOB of an output -/

/-- The state with other accumulators of the outputs, which is all that the routes to outputs change. -/
def State.withAcc (s : State) (acc : Map Int) : State := { s with paths := { s.paths with acc := acc } }

/-- One sample of a route's contribution in the job of its destination. -/
def State.routeSample (toBus : Bool) (dest s0 r : Nat) (x : Source → Nat → Int) (acc : State × RouteEngine) (i : Nat) :
    State × RouteEngine :=
  let e := acc.1.routeStep r i acc.2
  let v := e.term (fun src => x src i) toBus dest i
  (if v = 0 then acc.1 else if toBus then acc.1.accumulateBus dest (i - s0) v else acc.1.accumulate dest (i - s0) v, e)

/-- The contribution of one route in the job of its destination. -/
def State.routeInto (toBus : Bool) (dest b s0 : Nat) (s : State) (r : Nat) : State :=
  ((s.blockSamples b).foldl (State.routeSample toBus dest s0 r s.routeSource) (s, s.route r)).1

/-- In time, a route job takes the contributions one route after the other (R181). -/
theorem State.routeJob_in_time {s : State} {b : Nat} (toBus : Bool) (dest : Nat) (h : s.inTime b = true) :
    s.routeJob toBus dest b = (List.range 2048).foldl (State.routeInto toBus dest b (s.blockStart b)) s := by
  unfold State.routeJob
  rw [h]
  rfl

/-- A route that is off through the block adds nothing (R181). -/
theorem State.routeInto_off {s : State} {b q : Nat} (toBus : Bool) (dest s0 : Nat) (he : (s.route q).Off)
    (off : ∀ i ∈ s.blockSamples b, (s.routeAt q i).1 = false) : s.routeInto toBus dest b s0 q = s := by
  refine congrArg Prod.fst (List.foldlRecOn (motive := (· = (s, s.route q))) _ _ rfl fun u hu i hi => ?_)
  subst hu
  simp only [State.routeSample, State.routeStep_off he (off i hi), he.term, if_true]

/-- What a standing route adds to the places of an output's accumulator. -/
def State.routeAdds (s : State) (src : Source) (dest b : Nat) (inv : Bool) (g : Int) (key : Nat) : Int :=
  ∑ k ∈ Finset.range s.blockSize,
    if key = 64 * dest + k then scaled inv g (s.routeSource src (s.blockStart b + k)) else 0

/-- A route that stands through the block adds its scaled source (R178, R181). -/
theorem State.routeInto_stands {s : State} {b r dest : Nat} {src : Source} {inv : Bool} {g : Int}
    (he : s.route r = .standing src dest inv g) (stands : ∀ i ∈ s.blockSamples b, s.RouteStands r src dest inv g i) :
    (∃ a, s.routeInto false dest b (s.blockStart b) r = s.withAcc a) ∧
      ∀ key, Map.get 0 key (s.routeInto false dest b (s.blockStart b) r).paths.acc =
        Map.get 0 key s.paths.acc + s.routeAdds src dest b inv g key := by
  unfold State.routeInto
  rw [he, State.blockSamples, List.foldl_map]
  obtain ⟨⟨kept, -⟩, sum⟩ := foldl_range_adds (m := s.blockSize) (t := (s, RouteEngine.standing src dest inv g))
    (f := fun u k => State.routeSample false dest (s.blockStart b) r s.routeSource u (s.blockStart b + k))
    (fun u => (∃ a, u.1 = s.withAcc a) ∧ u.2 = .standing src dest inv g)
    (fun u key => Map.get 0 key u.1.paths.acc)
    (fun k key => if key = 64 * dest + k then scaled inv g (s.routeSource src (s.blockStart b + k)) else 0)
    ⟨⟨s.paths.acc, rfl⟩, rfl⟩ (by
      rintro ⟨u, e⟩ k hk ⟨⟨a, rfl⟩, rfl⟩
      have same : (s.withAcc a).routeStep r (s.blockStart b + k) (.standing src dest inv g) = .standing src dest inv g :=
        State.routeStep_stands (s := s.withAcc a) (stands _ (s.mem_blockSamples b hk))
      simp only [State.routeSample, same, RouteEngine.term_standing, Nat.add_sub_cancel_left, Bool.false_eq_true, if_false]
      generalize scaled inv g (s.routeSource src (s.blockStart b + k)) = v
      split
      · next h => exact ⟨⟨⟨a, rfl⟩, trivial⟩, fun key => by rw [h, ite_self, add_zero]⟩
      · exact ⟨⟨⟨_, rfl⟩, trivial⟩, fun key => State.accumulate_acc _ _ _ _ _⟩)
  exact ⟨kept, sum⟩

/-- ROUTE_JOB of an output that one route reaches, and that route stands: it adds its scaled source and nothing else
(R178, R181). -/
theorem State.routeJob_stands {s : State} {b r dest : Nat} {src : Source} {inv : Bool} {g : Int} (hin : s.inTime b = true)
    (hr : r < 2048) (he : s.route r = .standing src dest inv g)
    (stands : ∀ i ∈ s.blockSamples b, s.RouteStands r src dest inv g i)
    (off : ∀ q, q < 2048 → q ≠ r → (s.route q).Off ∧ ∀ i ∈ s.blockSamples b, (s.routeAt q i).1 = false) :
    (∃ a, s.routeJob false dest b = s.withAcc a) ∧ ∀ key, Map.get 0 key (s.routeJob false dest b).paths.acc =
      Map.get 0 key s.paths.acc + s.routeAdds src dest b inv g key := by
  obtain ⟨kept, sum⟩ := foldl_range_adds (m := 2048) (t := s) (f := State.routeInto false dest b (s.blockStart b))
    (fun u => ∃ a, u = s.withAcc a) (fun u key => Map.get 0 key u.paths.acc)
    (fun q key => if q = r then s.routeAdds src dest b inv g key else 0) ⟨s.paths.acc, rfl⟩ (by
      rintro u q hq ⟨a, rfl⟩
      by_cases h : q = r
      · subst h
        obtain ⟨⟨a', kept⟩, adds⟩ := State.routeInto_stands (s := s.withAcc a) he stands
        exact ⟨⟨a', kept⟩, fun key => (adds key).trans (by rw [if_pos rfl]; rfl)⟩
      · obtain ⟨idle, silent⟩ := off q hq h
        have same : (s.withAcc a).routeInto false dest b (s.blockStart b) q = s.withAcc a :=
          State.routeInto_off (s := s.withAcc a) _ _ _ idle silent
        exact ⟨⟨a, same⟩, fun key => by rw [same, if_neg h, add_zero]⟩)
  rw [State.routeJob_in_time _ _ hin]
  refine ⟨kept, fun key => (sum key).trans ?_⟩
  rw [Finset.sum_ite_eq', if_pos (Finset.mem_range.mpr hr)]

/-- A job in service of a block in time for which it has not run is noted and runs (R24, R373). -/
theorem State.once_in_time {s : State} {k : JobKind} {flow key b : Nat} (f : State → State)
    (hg : s.granted k flow b = true) (hin : s.inTime b = true) (hj : Map.get 0 key s.paths.jobs ≤ b) :
    s.once k flow key b f = f (s.jobNoted key b) := by
  simp only [State.inTime, Bool.and_eq_true, decide_eq_true_eq] at hin
  obtain ⟨⟨released, block⟩, -⟩ := hin
  exact State.once_due f hg released block.ge hj

/-- ROUTE_JOB of an output that one standing route reaches (R178, R181). -/
theorem routeJob_answers {s : State} {dest b r : Nat} {src : Source} {inv : Bool} {g : Int}
    (hg : s.granted .route (0x400 + dest) b = true) (hin : s.inTime b = true)
    (hj : Map.get 0 (2048 + dest) s.paths.jobs ≤ b) (hr : r < 2048) (he : s.route r = .standing src dest inv g)
    (stands : ∀ i ∈ s.blockSamples b, s.RouteStands r src dest inv g i)
    (off : ∀ q, q < 2048 → q ≠ r → (s.route q).Off ∧ ∀ i ∈ s.blockSamples b, (s.routeAt q i).1 = false) :
    Answers (.routeJob false dest b) s (fun t => Map.get 0 (2048 + dest) t.paths.jobs = b + 1 ∧
      ∀ j, j < 64 → ∀ o, Map.get 0 (64 * o + j) t.paths.acc = Map.get 0 (64 * o + j) s.paths.acc +
        (if o = dest ∧ j < s.blockSize then scaled inv g (s.routeSource src (s.blockStart b + j)) else 0)) := by
  have runs : execRouteJob false dest b s = settle ((s.jobNoted (2048 + dest) b).routeJob false dest b) :=
    congrArg settle (State.once_in_time (·.routeJob false dest b) hg hin hj)
  obtain ⟨⟨a, kept⟩, adds⟩ := State.routeJob_stands (s := s.jobNoted (2048 + dest) b) hin hr he stands off
  refine ⟨_, runs, ?_, fun j h o => ?_⟩
  · rw [State.settled_paths, kept]
    exact Map.get_put_same _ _ _ _
  · rw [State.settled_paths, adds]
    exact congrArg _ (sum_at_output _ o dest s.blockSize_le h)

/-! BUS_JOB -/

/-- A write of another word leaves what a field held at a sample (R31). -/
theorem State.fldAt_set_word (s : State) (b b' : Blk) (f f' : Fld) (v i : Nat) (h : b'.base + f'.off ≠ b.base + f.off) :
    (s.set b f v).fldAt b' f' i = s.fldAt b' f' i :=
  List.foldl_rel (r := fun m m' => regGet m b'.base f' = regGet m' b'.base f') (regGet_regPut_word _ _ _ _ _ _ h)
    (fun c _ m m' same => by
      split
      · rfl
      · exact same)

/-- A bus that stands at a gain, with no EQ and no direct output. -/
def BusEngine.standing (inv : Bool) (g : Int) : BusEngine := { live := true, gain := GainStage.at0 inv g }

@[simp] theorem BusEngine.idle_standing (inv : Bool) (g : Int) : (BusEngine.standing inv g).idle = false := rfl

@[simp] theorem BusEngine.direct_standing (inv : Bool) (g : Int) : (BusEngine.standing inv g).direct = {} := rfl

/-- The record of an active bus at a sample: gain `g`, and no mute, EQ or direct output. -/
def State.BusStands (s : State) (n : Nat) (inv : Bool) (g : Int) (i : Nat) : Prop :=
  s.busActiveAt n i = true ∧ s.fldAt (.bus n) Reg.Bus.GAIN i = g ∧ s.fldAt (.bus n) Reg.Bus.CTRL_MUTE i = 0 ∧
  (s.fldAt (.bus n) Reg.Bus.CTRL_INVERT i ≠ 0 ↔ inv = true) ∧ s.fldAt (.bus n) Reg.Bus.EQ_SECTION_EN i = 0 ∧
  s.fldAt (.bus n) Reg.Bus.DIRECT_EN i = 0

/-- A peak of the bus does not show in its record. -/
theorem State.BusStands.peak {s : State} {n : Nat} {inv : Bool} {g : Int} {i : Nat} (h : s.BusStands n inv g i) (v : Nat) :
    (s.peak (.bus n) Reg.Bus.PEAK v).BusStands n inv g i := by
  have page : (s.peak (.bus n) Reg.Bus.PEAK v).fldAt (Blk.bus n).page Reg.Hdr.ENABLE i =
      s.fldAt (Blk.bus n).page Reg.Hdr.ENABLE i :=
    State.fldAt_set_word _ _ _ _ _ _ _ (by simp only [Blk.page, Blk.base, Reg.Hdr.ENABLE, Reg.Bus.PEAK]; omega)
  have own (f : Fld) (hf : f.off ≠ Reg.Bus.PEAK.off) :
      (s.peak (.bus n) Reg.Bus.PEAK v).fldAt (.bus n) f i = s.fldAt (.bus n) f i := State.fldAt_peak_other _ _ _ _ hf
  unfold State.BusStands State.busActiveAt at h ⊢
  rwa [page, own _ (by decide), own _ (by decide), own _ (by decide), own _ (by decide), own _ (by decide),
    own _ (by decide)]

/-- The signal of a standing bus before saturation: the sum, in the polarity of the stage, times the gain (R177). -/
def busSignal (inv : Bool) (g sum : Int) : Int := applyGain (if inv then -sum else sum) g

/-- A sample of a standing bus: its signal, saturated (R177). -/
theorem State.busSample_stands {s : State} {n i : Nat} {inv : Bool} {g : Int} (h : s.BusStands n inv g i) (sum : Int) :
    s.busSample n i sum (.standing inv g) = (.standing inv g, satQ31 (busSignal inv g sum), absNat (busSignal inv g sum),
      decide (busSignal inv g sum ≠ satQ31 (busSignal inv g sum)), false) := by
  obtain ⟨active, gain, mute, invert, eq, -⟩ := h
  have polarity := decide_eq_of_polarity invert
  simp only [State.busSample, active, gain, mute, polarity, eq, BusEngine.standing, BusEngine.idle, Bool.not_true,
    Bool.false_and, Bool.and_false, ne_eq, not_true_eq_false, decide_false, Bool.or_self, Bool.false_eq_true, if_false,
    GainStage.follow_at0, GainStage.tick_at0, sectionsTake_nil, eqChain_nil]
  rfl

/-- Samples of one source within a block stand in different places (R15). -/
theorem sampleKey_ne (src : Source) {i j k : Nat} (hj : j < 64) (hk : k < 64) (h : k ≠ j) :
    sampleKey src (i + k) ≠ sampleKey src (i + j) := by
  unfold sampleKey
  omega

/-- BUS_JOB of a standing bus: every sample of the block is its signal, saturated (R177). -/
theorem State.busJob_stands {s : State} {n b : Nat} {inv : Bool} {g : Int} (hin : s.inTime b = true)
    (he : s.busEngine n = .standing inv g) (stands : ∀ i ∈ s.blockSamples b, s.BusStands n inv g i) :
    (s.busJob n b).paths = s.paths ∧ ∀ j < s.blockSize, (s.busJob n b).sample { type := 4, unit := n } (s.blockStart b + j) =
      satQ31 (busSignal inv g (Map.get 0 (64 * n + j) s.paths.busAcc)) := by
  have off : RouteEngine.Off {} := ⟨rfl, rfl⟩
  unfold State.busJob
  rw [if_neg (by rw [hin]; decide), he]
  extract_lets s0
  generalize hr : List.foldl _ _ _ = r
  obtain ⟨⟨-, paths, -⟩, sent⟩ := s.foldl_blockSamples_each b hr
    (fun u => (∀ i ∈ s.blockSamples b, u.1.BusStands n inv g i) ∧ u.1.paths = s.paths ∧ u.2.1 = .standing inv g)
    (fun j u => j < s.blockSize → u.1.sample { type := 4, unit := n } (s.blockStart b + j) =
      satQ31 (busSignal inv g (Map.get 0 (64 * n + j) s.paths.busAcc))) ⟨stands, rfl, rfl⟩ (by
    rintro ⟨t, e, sat⟩ j hj ⟨now, paths, rfl⟩
    dsimp only at now paths
    have here : s.blockStart b + j - s0 = j := Nat.add_sub_cancel_left _ _
    have sample := State.busSample_stands (now _ (s.mem_blockSamples b hj)) (Map.get 0 (64 * n + j) t.paths.busAcc)
    have after (y : Int) (v : Nat) : ∀ i ∈ s.blockSamples b, ((t.putSample { type := 4, unit := n } (s.blockStart b + j)
        y).peak (.bus n) Reg.Bus.PEAK v).BusStands n inv g i := fun i hi => State.BusStands.peak (now i hi) v
    have direct (y : Int) (v : Nat) : ((t.putSample { type := 4, unit := n } (s.blockStart b + j) y).peak (.bus n)
        Reg.Bus.PEAK v).fldAt (.bus n) Reg.Bus.DIRECT_EN (s.blockStart b + j) = 0 := by
      obtain ⟨-, -, -, -, -, direct⟩ := after y v _ (s.mem_blockSamples b hj)
      exact direct
    simp only [here, sample, direct, BusEngine.idle_standing, BusEngine.direct_standing, off.step, Bool.false_and,
      Bool.false_eq_true, if_false, ne_eq, not_true_eq_false, decide_false, Option.map_none, Option.toList_none,
      List.append_nil, List.eraseDups_nil, List.foldl_nil]
    refine ⟨⟨after _ _, paths, rfl⟩, fun _ => ?_, fun k hk sent hk' => ?_⟩
    · rw [paths]
      exact Map.get_put_same _ _ _ _
    · exact (Map.get_put_other _ _ _ _ (sampleKey_ne _ (hj.trans_le s.blockSize_le) (hk'.trans_le s.blockSize_le) hk) _).trans
        (sent hk'))
  obtain ⟨t, e, sat⟩ := r
  dsimp only
  have counted (u : State) : (if sat then (u.busEvent n 0).count (.bus n) Reg.Bus.OVER_COUNT else u).samples = u.samples ∧
      (if sat then (u.busEvent n 0).count (.bus n) Reg.Bus.OVER_COUNT else u).paths = u.paths :=
    ⟨when_keeps State.samples ((State.count_samples _ _ _ _).trans (State.stick_samples _ _ _ _)),
      when_keeps State.paths ((State.count_paths _ _ _ _).trans (State.stick_paths _ _ _ _))⟩
  simp only [State.sample, counted]
  exact ⟨paths, fun j hj => sent j hj hj⟩

/-- BUS_JOB of a bus that stands (R177). -/
theorem busJob_answers {s : State} {n b : Nat} {inv : Bool} {g : Int} (hg : s.granted .bus (0x600 + n) b = true)
    (hin : s.inTime b = true) (hj : Map.get 0 (4096 + n) s.paths.jobs ≤ b) (he : s.busEngine n = .standing inv g)
    (stands : ∀ i ∈ s.blockSamples b, s.BusStands n inv g i) :
    Answers (.busJob n b) s (fun t => Map.get 0 (4096 + n) t.paths.jobs = b + 1 ∧
      ∀ j, j < s.blockSize → t.sample { type := 4, unit := n } (s.blockStart b + j) =
        satQ31 (busSignal inv g (Map.get 0 (64 * n + j) s.paths.busAcc))) := by
  have runs : execBusJob n b s = settle ((s.jobNoted (4096 + n) b).busJob n b) :=
    congrArg settle (State.once_in_time (·.busJob n b) hg hin hj)
  obtain ⟨paths, sent⟩ := State.busJob_stands (s := s.jobNoted (4096 + n) b) hin he stands
  refine ⟨_, runs, ?_, fun j h => ?_⟩
  · rw [State.settled_paths, paths]
    exact Map.get_put_same _ _ _ _
  · simp only [State.sample, State.settled_samples]
    exact sent j h

/-- Settles O24, a job each. -/
theorem routeAndBusJobs : Obligations.RouteAndBusJobs := by
  refine ⟨fun s dest b r src inv g hg hin hj hr he stands off => ?_, fun s n b inv g hg hin hj he stands => ?_⟩
  · exact routeJob_answers hg hin hj hr he stands (fun q hq hne => by
      obtain ⟨on, old, silent⟩ := off q hq hne
      exact ⟨⟨on, old⟩, silent⟩)
  · exact busJob_answers hg hin hj he stands

end Sys2Proof.Machine
end

section
/-! PROOFS. The end of the curtain's closing ramp shows the code of its state, which is not CLOSED while a closing is due
(R200, R205). -/

namespace Sys2Proof.Machine

open Sys2Proof

/-- At a command's end STATUS.STATE shows the curtain (R205). -/
theorem State.settled_curtainState (s : State) :
    s.settled.fld .curtain Reg.Curtain.STATUS_STATE = s.curtain.code := by
  obtain ⟨-, -, shows, -⟩ := s.settled_reports
  rw [shows, State.settled_curtain]

/-- CURTAIN_CLOSED at gain 0, as the model answers it: STATE reads CLOSED unless a closing is due, which reads CLOSING
(R200, R205). -/
theorem curtainClosed_answers {s : State} (hp : s.curtain.phase = .closing) (hg : s.curtain.gainAt s.lastReleased = 0) :
    Answers .curtainClosed s (fun t =>
      t.fld .curtain Reg.Curtain.STATUS_STATE = (if s.curtain.due = true then 1 else 2) ∧
      OnlyWords { s with curtain := { s.curtain with phase := .closed } } t []) := by
  have closes : execCurtainClosed s = settle (s.setCurtain { s.curtain with phase := .closed }) := if_pos ⟨hp, hg⟩
  have shown := (OnlyWords.set { s with curtain := { s.curtain with phase := .closed } } .curtain
    Reg.Curtain.STATUS_STATE (Curtain.code { s.curtain with phase := .closed })).settled
  have status : wordAt .curtain Reg.Curtain.STATUS_STATE ∈ statusWords := by decide
  exact ⟨_, closes, State.settled_curtainState _, shown.1, fun k _ hk =>
    shown.2 k (fun hm => hk (List.mem_singleton.mp hm ▸ status)) hk⟩

/-- A state in which a closing ramp has ended and a further closing is due. -/
def dueWhileClosing : State := { curtain := { phase := .closing, due := true } }

/-- Refutes O37 by its clause on CURTAIN_CLOSED, which alone of the two ends of a ramp does not ask that no closing is due:
in `dueWhileClosing` STATE reads 1 (CLOSING) after the command, where the clause says 2 (CLOSED). The commands of the model
make a closing due only in a curtain that is open or opening (`State.latchCause`), but the clause is about every state. -/
theorem not_safetyCurtain : ¬ Obligations.SafetyCurtain := by
  rintro ⟨-, -, -, closed, -⟩
  obtain ⟨t, ht, reads, -⟩ := closed dueWhileClosing rfl (by decide +kernel)
  obtain ⟨u, hu, shows, -⟩ := curtainClosed_answers (s := dueWhileClosing) rfl (by decide +kernel)
  obtain rfl : t = u := Host.Outcome.next.inj (ht.symm.trans hu)
  exact absurd (reads.symm.trans shows) (by decide)

end Sys2Proof.Machine
end

section
/-! PROOFS. Capture chains: what a chain's registers show of it, the sample of a settled chain, STUCK, the scan and the end
of a change of set (R230 to R243). -/

namespace Sys2Proof.Machine

open Sys2Proof

/-! One chain replaced -/

@[simp] theorem State.chain_setChain (s : State) (c : Nat) (e : ChainEngine) : (s.setChain c e).chain c = e :=
  Map.get_put_same _ _ _ _

/-- The same chains, the same chain. -/
theorem State.chain_eq_of_chains {s t : State} (h : t.chains = s.chains) (c : Nat) : t.chain c = s.chain c :=
  congrArg (Map.get ({} : ChainEngine) c) h

@[simp] theorem State.chain_settled (s : State) (c : Nat) : s.settled.chain c = s.chain c :=
  State.chain_eq_of_chains s.settled_chains c

/-! Words of the CAPTURE page -/

/-- The CAPTURE page lies in no mirrored region: a sticky bit of it is a bit set in its field (R61). -/
theorem State.stick_capture (s : State) (f : Fld) (i : Nat) :
    s.stick .capture f i = s.set .capture f (s.fld .capture f ||| 2 ^ i) := rfl

theorem State.event_capture (s : State) (i : Nat) :
    s.event .capture i = s.set .capture Reg.Hdr.EVENTS (s.fld .capture Reg.Hdr.EVENTS ||| 2 ^ i) := rfl

/-- Nor does the MEASURE page. -/
theorem State.event_measurePage (s : State) (i : Nat) :
    s.event .measure i = s.set .measure Reg.Hdr.EVENTS (s.fld .measure Reg.Hdr.EVENTS ||| 2 ^ i) := rfl

/-- No word of the CAPTURE page is a status word. -/
theorem capture_not_statusWord (f : Fld) : wordAt .capture f ∉ statusWords :=
  statusWords_below (Nat.le_add_right_of_le (by decide))

theorem State.settled_capture (s : State) (f : Fld) : s.settled.fld .capture f = s.fld .capture f :=
  s.settled_fld _ _ (capture_not_statusWord f)

/-- A bit that is set in a value that fits its field. -/
theorem or_two_pow_mod_two_pow {v w i : Nat} (hv : v < 2 ^ w) (hi : i < w) : (v ||| 2 ^ i) % 2 ^ w = v ||| 2 ^ i :=
  Nat.mod_eq_of_lt (Nat.or_lt_two_pow hv (Nat.pow_lt_pow_right (by decide) hi))

/-! What a chain's registers show (R242, R243) -/

theorem chainFlags_fit (c : Nat) : Fits (Reg.Capture.CH_EVT_FLAGS c) := by simp [Fits, Reg.Capture.CH_EVT_FLAGS]

theorem chainStatus_fits (c : Nat) : Fits (Reg.Capture.CH_STATUS_VALID c) ∧ Fits (Reg.Capture.CH_STATUS_SWITCHING c) := by
  simp [Fits, Reg.Capture.CH_STATUS_VALID, Reg.Capture.CH_STATUS_SWITCHING]

/-- Showing a chain writes its STATUS, GROUP_DELAY and GD_MIN words. -/
theorem State.showChain_only (s : State) (c : Nat) : OnlyWords s (s.showChain c)
    [wordAt .capture (Reg.Capture.CH_STATUS_VALID c), wordAt .capture (Reg.Capture.CH_STATUS_GROUP_DELAY c),
      wordAt .capture (Reg.Capture.CH_STATUS_GD_MIN c)] := by
  unfold State.showChain State.setBit
  dsimp only
  refine ((((((OnlyWords.refl s _).set_in _ _ _ ?_).set_in _ _ _ ?_).set_in _ _ _ ?_).set_in _ _ _ ?_).set_in _ _ _ ?_).set_in
    _ _ _ ?_ <;> simp [wordAt, Reg.Capture.CH_STATUS_VALID, Reg.Capture.CH_STATUS_LINEAR, Reg.Capture.CH_STATUS_SWITCHING, Reg.Capture.CH_STATUS_SERVICE]

/-- The flags of a chain lie in another word than those. -/
theorem chainFlags_apart (c : Nat) : wordAt .capture (Reg.Capture.CH_EVT_FLAGS c) ∉
    [wordAt .capture (Reg.Capture.CH_STATUS_VALID c), wordAt .capture (Reg.Capture.CH_STATUS_GROUP_DELAY c),
      wordAt .capture (Reg.Capture.CH_STATUS_GD_MIN c)] := by
  simp [wordAt, Reg.Capture.CH_EVT_FLAGS, Reg.Capture.CH_STATUS_VALID, Reg.Capture.CH_STATUS_GROUP_DELAY,
    Reg.Capture.CH_STATUS_GD_MIN]

/-- So do VALID and SWITCHING lie in another word than the events. -/
theorem chainStatus_apart (c : Nat) : wordAt .capture (Reg.Capture.CH_STATUS_VALID c) ∉
    [wordAt .capture (Reg.Capture.CH_EVT_FLAGS c), wordAt .capture Reg.Hdr.EVENTS] := by
  simp [wordAt, Reg.Capture.CH_STATUS_VALID, Reg.Capture.CH_EVT_FLAGS, Reg.Hdr.EVENTS]

/-- VALID shows whether the chain's output carries data, SWITCHING whether a change of set is under way. -/
theorem State.showChain_status (s : State) (c : Nat) :
    (s.showChain c).fld .capture (Reg.Capture.CH_STATUS_VALID c) = (if s.chainCarries c then 1 else 0) ∧
    (s.showChain c).fld .capture (Reg.Capture.CH_STATUS_SWITCHING c) = if (s.chain c).phase.switching then 1 else 0 := by
  have bit (b : Bool) : (if b then 1 else 0) % 2 ^ 1 = if b then 1 else 0 := by cases b <;> rfl
  unfold State.showChain State.setBit
  dsimp only
  constructor
  · rw [State.fld_set_apart _ _ _ ?_, State.fld_set_apart _ _ _ ?_, State.fld_set_apart _ _ _ ?_,
      State.fld_set_apart _ _ _ ?_, State.fld_set_apart _ _ _ ?_, State.fld_set_same _ _ _ _ (chainStatus_fits c).1]
    · exact bit _
    all_goals simp [Apart, Reg.Capture.CH_STATUS_VALID, Reg.Capture.CH_STATUS_LINEAR, Reg.Capture.CH_STATUS_SWITCHING,
      Reg.Capture.CH_STATUS_SERVICE, Reg.Capture.CH_STATUS_GROUP_DELAY, Reg.Capture.CH_STATUS_GD_MIN]
  · rw [State.fld_set_apart _ _ _ ?_, State.fld_set_apart _ _ _ ?_, State.fld_set_apart _ _ _ ?_,
      State.fld_set_same _ _ _ _ (chainStatus_fits c).2]
    · exact bit _
    all_goals simp [Apart, Reg.Capture.CH_STATUS_SWITCHING, Reg.Capture.CH_STATUS_SERVICE,
      Reg.Capture.CH_STATUS_GROUP_DELAY, Reg.Capture.CH_STATUS_GD_MIN]

/-- A chain event is a bit of the chain's flags and, where it is enabled, one of the page's events. -/
theorem State.chainEvent_only (s : State) (c bit : Nat) : OnlyWords s (s.chainEvent c bit)
    [wordAt .capture (Reg.Capture.CH_EVT_FLAGS c), wordAt .capture Reg.Hdr.EVENTS] := by
  unfold State.chainEvent
  rw [State.stick_capture]
  have flag := (OnlyWords.refl s [wordAt .capture (Reg.Capture.CH_EVT_FLAGS c), wordAt .capture Reg.Hdr.EVENTS]).set_in
    .capture (Reg.Capture.CH_EVT_FLAGS c) (s.fld .capture (Reg.Capture.CH_EVT_FLAGS c) ||| 2 ^ bit) List.mem_cons_self
  dsimp only
  split
  · exact flag.set_in _ _ _ (List.mem_cons_of_mem _ List.mem_cons_self)
  · exact flag

/-- The flag of the event is set, and those that were set stay set. -/
theorem State.chainEvent_flags (s : State) (c bit i : Nat) :
    ((s.chainEvent c bit).fld .capture (Reg.Capture.CH_EVT_FLAGS c)).testBit i =
      (decide (i < 4) && ((s.fld .capture (Reg.Capture.CH_EVT_FLAGS c)).testBit i || decide (bit = i))) := by
  have page (t : State) : (t.event .capture 0).fld .capture (Reg.Capture.CH_EVT_FLAGS c) =
      t.fld .capture (Reg.Capture.CH_EVT_FLAGS c) :=
    regGet_regPut_apart _ _ _ (.inl (by simp only [Reg.Hdr.EVENTS, Reg.Capture.CH_EVT_FLAGS]; omega))
  unfold State.chainEvent
  rw [State.stick_capture]
  dsimp only
  rw [when_keeps (State.fld · .capture (Reg.Capture.CH_EVT_FLAGS c)) (page _), State.fld_set_same _ _ _ _ (chainFlags_fit c), Nat.testBit_mod_two_pow, Nat.testBit_or, Nat.testBit_two_pow]
  rfl

/-! CHAIN_OUTPUT_SAMPLE -/

/-- What a campaign or a probe notes of a sample: its own masks and, for a clip, an event of the MEASURE page. What depends
on neither is kept (R253, R257, R260). -/
theorem State.markChain_keeps {β : Type} (view : State → β) (hm : ∀ (t : State) (m : Measurement), view { t with measure := m } = view t)
    (he : ∀ t : State, view (t.event .measure 4) = view t) (s : State) (c i : Nat) (clip stuck bad : Bool) :
    view (s.markChain c i clip stuck bad) = view s := by
  have noted (t : State) (m : Measurement) : view (if clip then ({ t with measure := m } : State).event .measure 4
      else { t with measure := m }) = view t := ite_keeps view ((he _).trans (hm _ _)) (hm _ _)
  unfold State.markChain
  extract_lets m u
  have campaign : view u = view s := by
    subst u m
    split
    · extract_lets named
      split
      · refine ite_keeps view (when_keeps view (noted _ _)) ?_
        split
        · exact when_keeps view ((he _).trans (hm _ _))
        · rfl
      · rfl
    · rfl
  rw [← campaign]
  split
  · exact when_keeps view (hm _ _)
  · rfl

/-- What of the state decides over a chain's clock, its rate and where its samples go, and what it holds (R230, R233, R491). -/
def State.chainSetup (s : State) (c : Nat) : Map ChainEngine × Bool × Bool × Bool :=
  (s.chains, s.chainClocked c, s.renderRate c, s.lockUnd)

/-- The words in which it is set up. -/
def setupWords (c : Nat) : List Nat :=
  [wordAt .capture Reg.Capture.CLK_EN_PDM0, wordAt .capture (Reg.Capture.CH_CTRL_SCMODE c),
    wordAt .capture (Reg.Capture.CH_DECIM_R c), wordAt .render Reg.Render.CFG_RATE, wordAt .twin Reg.Twin.STATE]

theorem State.set_chainSetup (s : State) {b : Blk} {f : Fld} (v c : Nat) (h : wordAt b f ∉ setupWords c) :
    (s.set b f v).chainSetup c = s.chainSetup c := by
  have word (b' : Blk) (g : Fld) (hg : wordAt b' g ∈ setupWords c) : (s.set b f v).fld b' g = s.fld b' g :=
    State.fld_set_word _ _ _ _ _ _ (fun e => h ((show wordAt b' g = wordAt b f from e) ▸ hg))
  have clock (g : Fld) (hg : g.off = 0x44) := word .capture g (by simp [setupWords, wordAt, hg, Reg.Capture.CLK_EN_PDM0])
  have decim (g : Fld) (hg : g.off = 0x100 + 0x20 * c + 0x04) :=
    word .capture g (by simp [setupWords, wordAt, hg, Reg.Capture.CH_DECIM_R])
  unfold State.chainSetup State.chainClocked State.renderRate State.decim State.scMode State.fs State.lockUnd State.bit
  simp only [clock Reg.Capture.CLK_EN_PDM0 rfl, clock Reg.Capture.CLK_EN_PDM1 rfl, clock Reg.Capture.CLK_EN_SNS0 rfl,
    clock Reg.Capture.CLK_EN_SNS1 rfl, decim (Reg.Capture.CH_DECIM_R c) rfl, decim (Reg.Capture.CH_DECIM_HB_COUNT c) rfl,
    word .capture (Reg.Capture.CH_CTRL_SCMODE c) (by simp [setupWords]),
    word .render Reg.Render.CFG_RATE (by simp [setupWords]), word .twin Reg.Twin.STATE (by simp [setupWords]),
    State.set_chains]

/-- A chain sets up nothing by what it reports. -/
theorem reported_not_setupWords (c : Nat) : wordAt .capture (Reg.Capture.CH_STATUS_VALID c) ∉ setupWords c ∧
    wordAt .capture (Reg.Capture.CH_STATUS_GROUP_DELAY c) ∉ setupWords c ∧
    wordAt .capture (Reg.Capture.CH_STATUS_GD_MIN c) ∉ setupWords c ∧
    wordAt .capture (Reg.Capture.CH_EVT_FLAGS c) ∉ setupWords c ∧ wordAt .capture Reg.Hdr.EVENTS ∉ setupWords c ∧
    wordAt .measure Reg.Hdr.EVENTS ∉ setupWords c := by
  simp [setupWords, wordAt, Blk.base, Reg.Capture.CLK_EN_PDM0, Reg.Capture.CH_CTRL_SCMODE, Reg.Capture.CH_DECIM_R,
    Reg.Render.CFG_RATE, Reg.Twin.STATE, Reg.Capture.CH_STATUS_VALID, Reg.Capture.CH_STATUS_GROUP_DELAY,
    Reg.Capture.CH_STATUS_GD_MIN, Reg.Capture.CH_EVT_FLAGS, Reg.Hdr.EVENTS]
  omega

theorem State.chainEvent_chainSetup (s : State) (c bit : Nat) : (s.chainEvent c bit).chainSetup c = s.chainSetup c := by
  obtain ⟨-, -, -, flags, events, -⟩ := reported_not_setupWords c
  exact (when_keeps (State.chainSetup · c) (State.set_chainSetup _ _ _ events)).trans (State.set_chainSetup s _ _ flags)

theorem State.showChain_chainSetup (s : State) (c : Nat) : (s.showChain c).chainSetup c = s.chainSetup c := by
  obtain ⟨status, delay, least, -⟩ := reported_not_setupWords c
  have put (t : State) {f : Fld} (v : Nat) (h : wordAt .capture f ∉ setupWords c) :
      (t.set .capture f v).chainSetup c = t.chainSetup c := t.set_chainSetup v c h
  unfold State.showChain State.setBit
  dsimp only
  rw [put _ _ least, put _ _ delay, put _ (f := Reg.Capture.CH_STATUS_SERVICE c) _ status,
    put _ (f := Reg.Capture.CH_STATUS_SWITCHING c) _ status, put _ (f := Reg.Capture.CH_STATUS_LINEAR c) _ status,
    put _ _ status]

/-- What a chain reports of a sample that it delivers: OVER and CLIP, the marks of a measurement, PEAK and STATUS. -/
def State.chainReported (s : State) (c i peak : Nat) (isOver clip stuck bad : Bool) : State :=
  let s := if isOver then s.chainEvent c 0 else s
  let s := if clip then s.chainEvent c 1 else s
  ((s.markChain c i (isOver || clip) stuck bad).peak .capture (Reg.Capture.CH_PEAK c) peak).showChain c

theorem State.chainReported_chainSetup (s : State) (c i peak : Nat) (isOver clip stuck bad : Bool) :
    (s.chainReported c i peak isOver clip stuck bad).chainSetup c = s.chainSetup c := by
  obtain ⟨-, -, -, flags, -, measured⟩ := reported_not_setupWords c
  calc (s.chainReported c i peak isOver clip stuck bad).chainSetup c
      = _ := State.showChain_chainSetup _ c
    _ = _ := State.set_chainSetup _ _ _ flags
    _ = _ := State.markChain_keeps (State.chainSetup · c) (fun _ _ => rfl) (fun t => t.set_chainSetup _ _ measured) _ _ _ _ _ _
    _ = _ := when_keeps (State.chainSetup · c) (State.chainEvent_chainSetup _ c 1)
    _ = s.chainSetup c := when_keeps (State.chainSetup · c) (s.chainEvent_chainSetup c 0)

/-- Whether the output carries data is set up so. -/
theorem State.chainCarries_eq {s t : State} {c : Nat} (h : t.chainSetup c = s.chainSetup c) :
    t.chainCarries c = s.chainCarries c := by
  simp only [State.chainSetup, Prod.mk.injEq] at h
  obtain ⟨chains, clock, -⟩ := h
  simp only [State.chainCarries, State.chain_eq_of_chains chains, clock]

theorem State.chainReported_valid (s : State) (c i peak : Nat) (isOver clip stuck bad : Bool) :
    (s.chainReported c i peak isOver clip stuck bad).fld .capture (Reg.Capture.CH_STATUS_VALID c) =
      if s.chainCarries c then 1 else 0 := by
  rw [← State.chainCarries_eq (s.chainReported_chainSetup c i peak isOver clip stuck bad)]
  unfold State.chainReported
  dsimp only
  rw [State.chainCarries_eq (State.showChain_chainSetup _ c)]
  exact (State.showChain_status _ c).1

/-- OVER and CLIP are flagged where they occur. -/
theorem State.chainReported_flags (s : State) (c i peak : Nat) (isOver clip stuck bad : Bool) :
    let flags := (s.chainReported c i peak isOver clip stuck bad).fld .capture (Reg.Capture.CH_EVT_FLAGS c)
    (isOver = true → flags.testBit 0 = true) ∧ (clip = true → flags.testBit 1 = true) := by
  have kept (t : State) (both : Bool) : (((t.markChain c i both stuck bad).peak .capture (Reg.Capture.CH_PEAK c) peak).showChain
      c).fld .capture (Reg.Capture.CH_EVT_FLAGS c) = t.fld .capture (Reg.Capture.CH_EVT_FLAGS c) := by
    rw [(State.showChain_only _ c).fld_eq (chainFlags_apart c) (capture_not_statusWord _)]
    refine (State.fld_set_apart _ _ _ ?_).trans
      (State.markChain_keeps (State.fld · .capture (Reg.Capture.CH_EVT_FLAGS c)) (fun _ _ => rfl) (fun u => ?_) t _ _ _ _ _)
    · simp [Apart, Reg.Capture.CH_PEAK, Reg.Capture.CH_EVT_FLAGS]
    · refine State.fld_set_word _ _ _ _ _ _ ?_
      simp only [Blk.base, Reg.Capture.CH_EVT_FLAGS, Reg.Hdr.EVENTS]
      omega
  unfold State.chainReported
  dsimp only
  rw [kept]
  constructor
  · rintro rfl
    cases clip <;> simp only [if_true, if_false, Bool.false_eq_true, State.chainEvent_flags, Nat.zero_lt_succ, decide_true,
      Bool.or_true, Bool.true_or, Bool.and_true]
  · rintro rfl
    simp only [if_true, State.chainEvent_flags, Nat.one_lt_ofNat, decide_true, Bool.or_true, Bool.and_true]

/-- A settled chain stands: its output has no fade (R237). -/
theorem ChainEngine.at_settled {e : ChainEngine} (h : e.phase = .settled) (n i : Nat) (full : Bool) : e.at_ n i full = (e, 1, 1) := by
  unfold ChainEngine.at_
  simp only [h]

/-- The DC blocker, off, passes the sample (R235). -/
theorem State.dcBlock_off {s : State} {c : Nat} {e : ChainEngine} (hm : e.measure = 0)
    (hd : s.fld .capture (Reg.Capture.CH_CTRL_DCB c) = 2) (x : Int) : s.dcBlock c e x = (0, x) := by
  unfold State.dcBlock
  simp [hm, hd]

theorem roundDiv_one (x : Int) : roundDiv (x * 1) 1 = x := by
  unfold roundDiv
  rw [Int.fdiv_eq_ediv_of_nonneg _ (by decide)]
  omega

/-- A settled chain that has delivered a sample. -/
def ChainEngine.delivered (e : ChainEngine) (st : ChainStages) (integ : Int × Int) (i : Nat) (clip : Bool) : ChainEngine :=
  { e with
    stages := st, integrators := integ, dc := 0, valid := true
    since := some ((e.since.map (·.1)).getD i, (e.since.map (fun q => q.2 + 1)).getD 0)
    marks := ((i, true, clip) :: e.marks).take 256 }

/-- The state in which such a chain has reported its sample, which the gain made `g` (R232, R243). -/
def State.sampleReported (s : State) (c : Nat) (st : ChainStages) (integ : Int × Int) (isOver : Bool) (g : Int) : State :=
  let clip := decide (g ≠ satQ31 g)
  (s.setChain c ((s.chain c).delivered st integ s.render.rsi (isOver || clip))).chainReported c s.render.rsi
    (absNat (satQ31 g) / 2 ^ 16) isOver clip (s.chain c).stuck false

theorem State.sampleReported_chainSetup (s : State) (c : Nat) (st : ChainStages) (integ : Int × Int) (isOver : Bool) (g : Int) :
    (s.sampleReported c st integ isOver g).chain c =
      (s.chain c).delivered st integ s.render.rsi (isOver || decide (g ≠ satQ31 g)) ∧
    (s.sampleReported c st integ isOver g).chainClocked c = s.chainClocked c ∧
    (s.sampleReported c st integ isOver g).renderRate c = s.renderRate c ∧
    (s.sampleReported c st integ isOver g).lockUnd = s.lockUnd := by
  have after : (s.sampleReported c st integ isOver g).chainSetup c = (s.setChain c ((s.chain c).delivered st integ s.render.rsi
    (isOver || decide (g ≠ satQ31 g)))).chainSetup c := State.chainReported_chainSetup _ _ _ _ _ _ _ _
  simp only [State.chainSetup, Prod.mk.injEq] at after
  obtain ⟨chains, clock, rate, lock⟩ := after
  exact ⟨(State.chain_eq_of_chains chains c).trans (s.chain_setChain c _), clock, rate, lock⟩

/-- A render-rate chain that is clocked, settled and not stuck, with the DC blocker off and no measurement: its output goes
to the chain's input at the present sample (R232, R233, R235). -/
theorem State.chainSample_settled {s : State} {c n : Nat} {pin : List (Bool × Bool)} {aux : List (List Int)} {x : Int}
    {out : ChainStages × Option Int} (hp : chainPresent s.model c = true) (hc : s.chainClocked c = true)
    (he : (s.chain c).phase = .settled) (hs : (s.chain c).stuck = false) (hm : (s.chain c).measure = 0)
    (hr : s.renderRate c = true) (hd : s.fld .capture (Reg.Capture.CH_CTRL_DCB c) = 2) (hl : s.lockUnd = false)
    (hn : periods (s.chain c).cfg.scm (s.chain c).cfg.r (s.chain c).cfg.hb = n)
    (hrun : (s.chain c).stages.run (s.chain c).cfg (s.chain c).linear (s.chainBits c n pin aux).1 = out) (hx : out.2 = some x)
    {g : Int} (hg : roundOpen (x * s.fld .capture (Reg.Capture.CH_GAIN c)) (2 ^ (28 + Config.chainGuard)) = g) :
    s.chainSample c pin aux =
      (s.sampleReported c out.1 (s.chainBits c n pin aux).2 (overRun out.1.bits n) g).putSample { type := 6, unit := c }
        s.render.rsi (satQ31 g) := by
  have runs : ¬ (!chainPresent s.model c || decide ((s.chain c).phase = .off) || !s.chainClocked c) = true := by
    simp [hp, hc, he]
  have settled (q : ChainStages) (u : Int × Int) :
      ({ s.chain c with stages := q, integrators := u } : ChainEngine).phase = .settled := he
  have quiet (q : ChainStages) (u : Int × Int) :
      ({ s.chain c with stages := q, integrators := u } : ChainEngine).measure = 0 := hm
  have ok : (decide ((s.chain c).phase = .settled) && !(s.chain c).stuck) = true := by rw [he, hs]; rfl
  have moves : ¬ (s.chain c).stuck = true := ne_true_of_eq_false hs
  have clips (t u : State) : (if g ≠ satQ31 g then t else u) = if decide (g ≠ satQ31 g) = true then t else u := by
    simp only [decide_eq_true_eq]
  obtain ⟨-, -, rate, lock⟩ :=
    s.sampleReported_chainSetup c out.1 (s.chainBits c n pin aux).2 (overRun out.1.bits n) g
  have used (b : Bool) : ¬ ((s.sampleReported c out.1 (s.chainBits c n pin aux).2 (overRun out.1.bits n) g).lockUnd && b) =
      true := by rw [lock, hl]; exact Bool.false_ne_true
  unfold State.chainSample
  rw [if_neg runs]
  simp only [hn, hrun, hx, hg, ChainEngine.at_settled (settled _ _), State.dcBlock_off (quiet _ _) hd, ok, if_neg moves, clips,
    Option.getD_some, Nat.cast_one, roundDiv_one, Bool.not_true]
  exact (if_pos (rate.trans hr)).trans (if_neg (used _))

/-- VALID of a chain that has reported its sample, and the flags of what occurred (R242, R243). -/
theorem State.sampleReported_shows {s : State} {c : Nat} (hc : s.chainClocked c = true) (he : (s.chain c).phase = .settled)
    (hs : (s.chain c).stuck = false) (st : ChainStages) (integ : Int × Int) (isOver : Bool) (g : Int) :
    (s.sampleReported c st integ isOver g).fld .capture (Reg.Capture.CH_STATUS_VALID c) = 1 ∧
    (isOver = true → ((s.sampleReported c st integ isOver g).fld .capture (Reg.Capture.CH_EVT_FLAGS c)).testBit 0 = true) ∧
    (g ≠ satQ31 g → ((s.sampleReported c st integ isOver g).fld .capture (Reg.Capture.CH_EVT_FLAGS c)).testBit 1 = true) := by
  have carries (e : ChainEngine) (phase : e.phase = .settled) (stuck : e.stuck = false) :
      (s.setChain c e).chainCarries c = true := by
    have clock : (s.setChain c e).chainClocked c = true := hc
    simp [State.chainCarries, clock, phase, stuck]
  obtain ⟨flagOver, flagClip⟩ := State.chainReported_flags _ c _ _ _ _ _ _
  exact ⟨(State.chainReported_valid _ c _ _ _ _ _ _).trans (if_pos (carries ((s.chain c).delivered _ _ _ _) he hs)), flagOver,
    fun h => flagClip (decide_eq_true h)⟩

theorem State.chainSample_delivers {s : State} {c n : Nat} {pin : List (Bool × Bool)} {aux : List (List Int)} {x g : Int}
    {out : ChainStages × Option Int} (hp : chainPresent s.model c = true) (hc : s.chainClocked c = true)
    (he : (s.chain c).phase = .settled) (hs : (s.chain c).stuck = false) (hm : (s.chain c).measure = 0)
    (hr : s.renderRate c = true) (hd : s.fld .capture (Reg.Capture.CH_CTRL_DCB c) = 2) (hl : s.lockUnd = false)
    (hn : periods (s.chain c).cfg.scm (s.chain c).cfg.r (s.chain c).cfg.hb = n)
    (hrun : (s.chain c).stages.run (s.chain c).cfg (s.chain c).linear (s.chainBits c n pin aux).1 = out) (hx : out.2 = some x)
    (hg : roundOpen (x * s.fld .capture (Reg.Capture.CH_GAIN c)) (2 ^ (28 + Config.chainGuard)) = g) :
    ∃ u : State, s.chainSample c pin aux = u.putSample { type := 6, unit := c } s.render.rsi (satQ31 g) ∧
      (u.chain c).stages = out.1 ∧ (u.chain c).valid = true ∧ u.fld .capture (Reg.Capture.CH_STATUS_VALID c) = 1 ∧
      (overRun out.1.bits n = true → (u.fld .capture (Reg.Capture.CH_EVT_FLAGS c)).testBit 0 = true) ∧
      (g ≠ satQ31 g → (u.fld .capture (Reg.Capture.CH_EVT_FLAGS c)).testBit 1 = true) := by
  obtain ⟨chain, -⟩ := s.sampleReported_chainSetup c out.1 (s.chainBits c n pin aux).2 (overRun out.1.bits n) g
  exact ⟨_, State.chainSample_settled hp hc he hs hm hr hd hl hn hrun hx hg, congrArg ChainEngine.stages chain,
    congrArg ChainEngine.valid chain, State.sampleReported_shows hc he hs _ _ _ g⟩

/-- CHAIN_OUTPUT_SAMPLE of such a chain (R232, R235, R242, R243). -/
theorem chainOutputSample_answers {s : State} {c n : Nat} {pin : List (Bool × Bool)} {aux : List (List Int)} {x g : Int}
    {out : ChainStages × Option Int} (hp : chainPresent s.model c = true) (hc : s.chainClocked c = true)
    (he : (s.chain c).phase = .settled) (hs : (s.chain c).stuck = false) (hm : (s.chain c).measure = 0)
    (hr : s.renderRate c = true) (hd : s.fld .capture (Reg.Capture.CH_CTRL_DCB c) = 2) (hl : s.lockUnd = false)
    (hn : periods (s.chain c).cfg.scm (s.chain c).cfg.r (s.chain c).cfg.hb = n)
    (hrun : (s.chain c).stages.run (s.chain c).cfg (s.chain c).linear (s.chainBits c n pin aux).1 = out) (hx : out.2 = some x)
    (hg : roundOpen (x * s.fld .capture (Reg.Capture.CH_GAIN c)) (2 ^ (28 + Config.chainGuard)) = g) :
    Answers (.chainOutputSample c pin aux) s (fun t =>
      t.sample { type := 6, unit := c } s.render.rsi = satQ31 g ∧ (t.chain c).stages = out.1 ∧ (t.chain c).valid = true ∧
      t.fld .capture (Reg.Capture.CH_STATUS_VALID c) = 1 ∧
      (overRun out.1.bits n = true → (t.fld .capture (Reg.Capture.CH_EVT_FLAGS c)).testBit 0 = true) ∧
      (g ≠ satQ31 g → (t.fld .capture (Reg.Capture.CH_EVT_FLAGS c)).testBit 1 = true)) := by
  obtain ⟨u, delivers, stages, carried, valid, flagOver, flagClip⟩ :=
    State.chainSample_delivers (pin := pin) (aux := aux) hp hc he hs hm hr hd hl hn hrun hx hg
  refine ⟨_, congrArg settle delivers, ?_, ?_, ?_, ?_, fun h => ?_, fun h => ?_⟩
  · simp only [State.sample, State.settled_samples]
    exact u.sample_putSample _ _ _
  · rw [State.chain_settled]
    exact stages
  · rw [State.chain_settled]
    exact carried
  · rw [State.settled_capture]
    exact valid
  · rw [State.settled_capture]
    exact flagOver h
  · rw [State.settled_capture]
    exact flagClip h

/-- A chain that is off or not clocked (R230). -/
theorem idleChain_answers {s : State} {c : Nat} (h : s.chainClocked c = false ∨ (s.chain c).phase = .off)
    (pin : List (Bool × Bool)) (aux : List (List Int)) (on : Bool) :
    Answers (.chainOutputSample c pin aux) s (OnlyWords s · []) ∧ Answers (.stuck c on) s (OnlyWords s · []) := by
  have idle : (decide ((s.chain c).phase = .off) || !s.chainClocked c) = true := by
    rcases h with h | h <;> simp [h]
  have silent : (!chainPresent s.model c || decide ((s.chain c).phase = .off) || !s.chainClocked c) = true := by
    rw [Bool.or_assoc, idle, Bool.or_true]
  exact ⟨⟨_, congrArg settle (if_pos silent), s.settled_only⟩, ⟨_, if_pos idle, s.settled_only⟩⟩

/-! STUCK, SCAN_SWITCH and SWITCHED -/

/-- What STUCK does to the chain and its registers (R243). -/
def State.markStuck (s : State) (c : Nat) (on : Bool) : State :=
  let t := (s.setChain c { s.chain c with stuck := on }).showChain c
  if on && !(s.chain c).stuck then t.chainEvent c 2 else t

theorem State.markStuck_chain (s : State) (c : Nat) (on : Bool) : (s.markStuck c on).chain c = { s.chain c with stuck := on } := by
  have shown := (State.showChain_only (s.setChain c { s.chain c with stuck := on }) c).keeps (State.chain · c) (fun _ _ => rfl)
  exact (when_keeps (State.chain · c) ((State.chainEvent_only _ c 2).keeps (State.chain · c) (fun _ _ => rfl))).trans
    (shown.trans (s.chain_setChain c _))

theorem State.markStuck_valid {s : State} {c : Nat} (on : Bool) (hc : s.chainClocked c = true) :
    (s.markStuck c on).fld .capture (Reg.Capture.CH_STATUS_VALID c) = if (s.chain c).phase = .settled ∧ on = false then 1 else 0 := by
  have event (t : State) : (t.chainEvent c 2).fld .capture (Reg.Capture.CH_STATUS_VALID c) =
      t.fld .capture (Reg.Capture.CH_STATUS_VALID c) :=
    (t.chainEvent_only c 2).fld_eq (chainStatus_apart c) (capture_not_statusWord _)
  have clock (e : ChainEngine) : (s.setChain c e).chainClocked c = true := hc
  refine (when_keeps (State.fld · .capture (Reg.Capture.CH_STATUS_VALID c)) (event _)).trans
    ((State.showChain_status _ c).1.trans ?_)
  simp [State.chainCarries, clock]

/-- A bit that STUCK flags where the chain becomes stuck. -/
theorem State.markStuck_flag {s : State} {c : Nat} (hs : (s.chain c).stuck = false) :
    ((s.markStuck c true).fld .capture (Reg.Capture.CH_EVT_FLAGS c)).testBit 2 = true := by
  unfold State.markStuck
  simp only [hs, Bool.not_false, Bool.and_self, if_true, State.chainEvent_flags, decide_true, Bool.or_true, Bool.and_true]
  rfl

/-- An event of a channel's page lies in no mirror, and apart from the CAPTURE page. -/
theorem State.event_ps_capture (s : State) (k i : Nat) {f : Fld} (hf : f.off < 0x1000) :
    (s.event (.ps k) i).fld .capture f = s.fld .capture f := by
  refine State.fld_set_word s _ _ _ _ _ ?_
  simp only [Blk.base, Reg.Hdr.EVENTS]
  omega

/-- STUCK of a chain that is on and clocked (R243). -/
theorem stuck_answers {s : State} {c : Nat} (on : Bool) (hn : c < 56) (he : (s.chain c).phase ≠ .off)
    (hc : s.chainClocked c = true) : Answers (.stuck c on) s (fun t =>
      t.chain c = { s.chain c with stuck := on } ∧
      t.fld .capture (Reg.Capture.CH_STATUS_VALID c) = (if (s.chain c).phase = .settled ∧ on = false then 1 else 0) ∧
      (on = true → (s.chain c).stuck = false → (t.fld .capture (Reg.Capture.CH_EVT_FLAGS c)).testBit 2 = true)) := by
  have runs : ¬ (decide ((s.chain c).phase = .off) || !s.chainClocked c) = true := by simp [he, hc]
  have ends (f : Fld) (hf : f.off < 0x1000) (p : Prop) [Decidable p] :
      (if p then (s.markStuck c on).event (.ps (c - 32)) 3 else s.markStuck c on).settled.fld .capture f =
        (s.markStuck c on).fld .capture f :=
    (State.settled_capture _ f).trans (when_keeps (State.fld · .capture f) (State.event_ps_capture _ _ _ hf))
  refine ⟨_, if_neg runs, ?_, ?_, fun hon hs => ?_⟩
  · exact (State.chain_settled _ c).trans ((when_keeps (State.chain · c)
      (State.chain_eq_of_chains (State.event_chains _ _ _) c)).trans (s.markStuck_chain c on))
  · exact (ends _ (by simp only [Reg.Capture.CH_STATUS_VALID]; omega) _).trans (State.markStuck_valid on hc)
  · subst hon
    exact (congrArg (Nat.testBit · 2) (ends _ (by simp only [Reg.Capture.CH_EVT_FLAGS]; omega) _)).trans (State.markStuck_flag hs)

/-- SCAN_SWITCH of a chain in the single-cycle mode (R240). -/
theorem scanSwitch_answers {s : State} {c : Nat} (hm : s.scMode c = true) (he : (s.chain c).phase ≠ .off) :
    Answers (.scanSwitch c) s (fun t =>
      let len := s.fld .capture (Reg.Capture.CH_SCAN_LEN c)
      t.chain c = { s.chain c with scan := ((s.chain c).scan + 1) % (if len = 0 then 8 else len), integrators := (0, 0) } ∧
      OnlyWords { s with chains := t.chains } t []) := by
  refine ⟨_, if_pos ⟨hm, he⟩, (State.chain_settled _ _).trans (s.chain_setChain c _), ?_⟩
  rw [State.settled_chains]
  exact State.settled_only _

/-- SWITCHED at the end of a ramp up (R237). -/
theorem switched_answers {s : State} {c st : Nat} (he : (s.chain c).phase = .up st) (ht : st + s.ms ≤ s.render.rsi + 1) :
    Answers (.switched c) s (fun t =>
      t.chain c = { s.chain c with phase := .settled } ∧ t.fld .capture (Reg.Capture.CH_STATUS_SWITCHING c) = 0 ∧
      (t.fld .capture (Reg.Capture.CH_EVT_FLAGS c)).testBit 3 = true) := by
  have ends : execSwitched c s =
      settle (((s.setChain c { s.chain c with phase := .settled }).showChain c).chainEvent c 3) := by
    unfold execSwitched
    simp only [he, if_pos ht]
  refine ⟨_, ends, ?_, ?_, ?_⟩
  · rw [State.chain_settled, (State.chainEvent_only _ c 3).keeps (State.chain · c) (fun _ _ => rfl),
      (State.showChain_only _ c).keeps (State.chain · c) (fun _ _ => rfl), State.chain_setChain]
  · rw [State.settled_capture, (State.chainEvent_only _ c 3).fld_eq (show wordAt .capture (Reg.Capture.CH_STATUS_SWITCHING c) ∉ _ from chainStatus_apart c) (capture_not_statusWord _),
      (State.showChain_status _ c).2, State.chain_setChain]
    rfl
  · rw [State.settled_capture, State.chainEvent_flags]
    simp only [decide_true, Bool.or_true, Bool.and_true]
    rfl

/-! SERVICE_DONE -/

/-- SERVICE.STATE follows the reasons, a change is an event, and nothing else differs (R236, R241). -/
theorem State.serviceState_idle {s : State} (h0 : s.measure.startup = false) (h1 : s.measure.recovery = false) :
    s.serviceState.fld .capture Reg.Capture.SERVICE_STATE = 0 ∧
    (s.fld .capture Reg.Capture.SERVICE_STATE ≠ 0 →
      s.serviceState.fld .capture Reg.Hdr.EVENTS = s.fld .capture Reg.Hdr.EVENTS ||| 2) ∧
    OnlyWords s s.serviceState [wordAt .capture Reg.Capture.SERVICE_STATE, wordAt .capture Reg.Hdr.EVENTS] := by
  unfold State.serviceState
  simp only [h0, h1, Bool.false_eq_true, if_false, Nat.add_zero, State.event_capture]
  split
  · next h => exact ⟨h.symm, fun hne => absurd h.symm hne, OnlyWords.refl _ _⟩
  · refine ⟨?_, fun _ => ?_, ?_⟩
    · rw [State.fld_set_apart _ _ _ (by decide), State.fld_set_same _ _ _ _ ⟨by decide, by decide⟩]
      rfl
    · rw [State.fld_set_same _ _ _ _ ⟨by decide, by decide⟩, State.fld_set_apart _ _ _ (by decide)]
      exact or_two_pow_mod_two_pow (regGet_lt _ _ _ ⟨by decide, by decide⟩) (by decide)
    · exact ((OnlyWords.refl s _).set_in _ _ _ (by decide)).set_in _ _ _ (by decide)

/-- STARTUP and RECOVERY end (R236, R241). -/
theorem serviceDone_answers (s : State) : Answers .serviceDone s (fun t => t.fld .capture Reg.Capture.SERVICE_STATE = 0 ∧
    (s.fld .capture Reg.Capture.SERVICE_STATE ≠ 0 → t.fld .capture Reg.Hdr.EVENTS = s.fld .capture Reg.Hdr.EVENTS ||| 2) ∧
    OnlyWords { s with measure := { s.measure with startup := false, recovery := false } } t
      [wordAt .capture Reg.Capture.SERVICE_STATE, wordAt .capture Reg.Hdr.EVENTS]) := by
  obtain ⟨state, event, only⟩ := State.serviceState_idle
    (s := { s with measure := { s.measure with startup := false, recovery := false } }) rfl rfl
  exact ⟨_, rfl, (State.settled_capture _ _).trans state, fun h => (State.settled_capture _ _).trans (event h), only.settled⟩

end Sys2Proof.Machine
end

section
/-! PROOFS. CAPTURE_TO_MEMORY: its beginning with a buffer of its own, or its refusal; the start of its recording and the end
of a full one-shot (R244, R245). -/

namespace Sys2Proof.Machine

open Sys2Proof

/-! Buffers -/

/-- A written value that is no default is listed under its key. -/
theorem Map.any_put {α : Type} [DecidableEq α] {d v : α} (h : v ≠ d) (k : Nat) (m : Map α) :
    (m.put d k v).any (·.1 = k) = true := by
  induction m with
  | nil => simp [Map.put, h]
  | cons e m ih =>
    simp only [Map.put, h, if_false]
    split
    · simp
    · split
      · simp
      · rw [List.any_cons, ih, Bool.or_true]

/-- A buffer that is allocated is there (R406). -/
theorem State.buffer_of_put {s : State} {m : Map Buffer} {h : Nat} {b : Buffer} (hb : b ≠ {}) (hs : s.pool.bufs = m.put {} h b) :
    s.buffer h = some b := by
  unfold State.buffer
  rw [hs, if_pos (Map.any_put hb h m), Map.get_put_same]

/-- The handle that the next buffer takes (R406). -/
def Pool.next (p : Pool) : Nat := if (p.handle + 1) % 2 ^ 32 = 0 then 1 else (p.handle + 1) % 2 ^ 32

/-- With room in the general pool, a buffer is allocated (R406). -/
theorem State.newBuffer_fits {s : State} (seat : Nat) {size : Nat} (hp : size ≤ s.poolFree) :
    s.newBuffer seat size = some (s.pool.next, { s with pool := { s.pool with
      handle := s.pool.next, bufs := s.pool.bufs.put {} s.pool.next { seat := seat, size := size } } }) :=
  if_neg (Nat.not_lt.mpr hp)

/-! CAPTURE_TO_MEMORY -/

/-- The capture that a command asks for, into the buffer of a handle (R244). -/
def Cmd.capture (c : Cmd) (handle : Nat) : C2m :=
  { seat := c.seat, tag := c.tag, ring := c.flag 0, measure := c.flag 1, mask := c.n 0 + 2 ^ 32 * c.n 1, size := c.n 2
    start := if c.n 3 + 2 ^ 32 * c.n 4 = 2 ^ 64 - 1 then none else some (c.n 3 + 2 ^ 32 * c.n 4), handle := handle }

/-- A capture without MEASURE is there with its buffer (R244). -/
def State.capturing (s : State) (c : Cmd) : State :=
  ({ s with
    pool := { s.pool with
      handle := s.pool.next, bufs := s.pool.bufs.put {} s.pool.next { seat := c.seat, size := c.n 2 } }
    measure := { s.measure with c2m := s.measure.c2m ++ [c.capture s.pool.next] } } : State).set .capture
      Reg.Capture.C2M_ACTIVE (s.measure.c2m ++ [c.capture s.pool.next]).length

/-- Whether a command may name chains does not depend on the commands in flight (R231). -/
theorem CommandFrame.chainsFault {s t : State} (h : CommandFrame s t) (mask : Nat) :
    t.chainsFault mask false = s.chainsFault mask false := by
  have model : t.model = s.model := h.keeps (·.model) (fun _ _ _ _ _ => rfl)
  have enabled (c : Nat) : t.bit .capture (Reg.Capture.CH_CTRL_EN c) = s.bit .capture (Reg.Capture.CH_CTRL_EN c) := by
    unfold State.bit
    rw [h.fld_above (by decide)]
  unfold State.chainsFault
  simp only [model, enabled, Bool.false_eq_true, false_and, if_false]

/-- The operands of a capture are right: chains are named, at most 16, of those there may be, and a size (R244). -/
structure Cmd.Captures (c : Cmd) : Prop where
  named : 0 < c.n 0 + 2 ^ 32 * c.n 1
  within : c.n 0 + 2 ^ 32 * c.n 1 < 2 ^ 56
  few : (chainsOf (c.n 0 + 2 ^ 32 * c.n 1)).length ≤ 16
  sized : c.n 2 ≠ 0

theorem Cmd.Captures.valid {c : Cmd} (h : c.Captures) :
    ¬ (2 ^ 56 ≤ c.n 0 + 2 ^ 32 * c.n 1 ∨ c.n 0 + 2 ^ 32 * c.n 1 = 0 ∨
      16 < (chainsOf (c.n 0 + 2 ^ 32 * c.n 1)).length ∨ c.n 2 = 0) := by
  obtain ⟨h0, h56, h16, hsize⟩ := h
  omega

/-- With four captures there, a fifth is refused (R244). -/
theorem State.captureToMemory_busy {s : State} {c : Cmd} (h : c.Captures) (full : 4 ≤ s.measure.c2m.length) :
    s.captureToMemory c = s.finish c.seat c.tag Status.busy := by
  unfold State.captureToMemory
  extract_lets mask start
  rw [if_neg h.valid, if_pos full]

/-- With chains that may be named, a place and room for the buffer, the capture is there (R231, R244). -/
theorem State.captureToMemory_there {s : State} {c : Cmd} (h : c.Captures) (hroom : s.measure.c2m.length < 4)
    (hf : s.chainsFault (c.n 0 + 2 ^ 32 * c.n 1) false = none) (hp : c.n 2 ≤ s.poolFree) (hm : c.flag 1 = false) :
    s.captureToMemory c = s.capturing c := by
  unfold State.captureToMemory
  extract_lets mask start
  rw [if_neg h.valid, if_neg (Nat.not_le.mpr hroom)]
  have free : s.chainsFault mask false = none := hf
  rw [free, State.newBuffer_fits c.seat hp]
  exact if_neg (ne_true_of_eq_false hm)

/-- What the capture holds, with its buffer and the count of captures (R241, R244). -/
theorem State.capturing_shows {s : State} {c : Cmd} (hsize : c.n 2 ≠ 0) (hroom : s.measure.c2m.length < 4) :
    (s.capturing c).measure.c2m = s.measure.c2m ++ [c.capture s.pool.next] ∧
    (s.capturing c).buffer s.pool.next = some { seat := c.seat, size := c.n 2 } ∧
    (s.capturing c).fld .capture Reg.Capture.C2M_ACTIVE = s.measure.c2m.length + 1 := by
  refine ⟨rfl, State.buffer_of_put (fun e => hsize (congrArg Buffer.size e)) rfl, ?_⟩
  unfold State.capturing
  rw [State.fld_set_same _ _ _ _ ⟨by decide, by decide⟩, List.length_append]
  exact Nat.mod_eq_of_lt (by simp only [List.length_singleton, Reg.Capture.C2M_ACTIVE]; omega)

/-- A buffer is what the general pool holds. -/
theorem State.buffer_eq_of_pool {s t : State} (h : t.pool = s.pool) (k : Nat) : t.buffer k = s.buffer k := by
  simp only [State.buffer, h]

/-- CAPTURE_TO_MEMORY with room for it (R244). -/
theorem captureToMemory_answers_there {s : State} {c : Cmd} (h : Issued s c 0x38) (hc : c.Captures)
    (hroom : s.measure.c2m.length < 4) (hf : s.chainsFault (c.n 0 + 2 ^ 32 * c.n 1) false = none) (hp : c.n 2 ≤ s.poolFree)
    (hm : c.flag 1 = false) :
    Answers (.captureToMemory c.seat c.tag) s (fun t => ∃ q : C2m, t.measure.c2m = s.measure.c2m ++ [q] ∧
      q.mask = c.n 0 + 2 ^ 32 * c.n 1 ∧ q.size = c.n 2 ∧ q.on = false ∧ q.seat = c.seat ∧ q.tag = c.tag ∧
      t.buffer q.handle = some { seat := c.seat, size := c.n 2 } ∧
      t.fld .capture Reg.Capture.C2M_ACTIVE = s.measure.c2m.length + 1) := by
  have begun := State.begun_frame h
  have started : ({ c with started := true } : Cmd).Captures := ⟨hc.named, hc.within, hc.few, hc.sized⟩
  have does : State.captureToMemory { c with started := true } (s.begun c) = (s.begun c).capturing { c with started := true } :=
    State.captureToMemory_there started hroom ((begun.chainsFault _).trans hf) ((s.poolFree_begun c).symm ▸ hp) hm
  obtain ⟨there, buffer, active⟩ := State.capturing_shows (s := s.begun c) (c := { c with started := true }) hc.sized hroom
  have frame := CommandFrame.after ((s.begun c).capturing { c with started := true })
  refine answers_command h rfl ?_
  rw [does]
  generalize (s.begun c).capturing { c with started := true } = u at *
  refine ⟨c.capture s.pool.next, (congrArg Measurement.c2m (frame.keeps (·.measure) (fun _ _ _ _ _ => rfl))).trans there,
    rfl, rfl, rfl, rfl, rfl, ?_, (frame.fld_above (by decide) _).trans active⟩
  exact (State.buffer_eq_of_pool ((State.settled_pool _).trans u.pool_dispatch) _).trans buffer

/-- CAPTURE_TO_MEMORY beside four others (R244). -/
theorem captureToMemory_answers_busy {s : State} {c : Cmd} (h : Issued s c 0x38) (hc : c.Captures)
    (full : 4 ≤ s.measure.c2m.length) :
    Answers (.captureToMemory c.seat c.tag) s (fun t => Completes s t c Status.busy 0 0 ∧ t.measure = s.measure) :=
  answers_ended (u := s.begun c) h rfl
    (State.captureToMemory_busy (c := { c with started := true }) ⟨hc.named, hc.within, hc.few, hc.sized⟩ full) rfl rfl
    (fun _ frame done => ⟨done, frame.keeps (·.measure) (fun _ _ _ _ _ => rfl)⟩)

/-! C2M_START -/

/-- C2M_START of the one capture there, at its sample or at a boundary from it (R245). -/
theorem c2mStart_answers {s : State} {q : C2m} (hq : s.measure.c2m = [q]) (hon : q.on = false) (hm : q.measure = false)
    (due : q.start = some s.render.rsi ∨ (q.start.getD 0 ≤ s.render.rsi ∧ s.render.rsi % s.blockSize = 0)) :
    Answers (.c2mStart q.seat q.tag) s
      (OnlyWords { s with measure := { s.measure with c2m := [{ q with on := true, from_ := s.render.rsi }] } } · []) := by
  have starts : execC2mStart q.seat q.tag s =
      settle { s with measure := { s.measure with c2m := [{ q with on := true, from_ := s.render.rsi }] } } := by
    unfold execC2mStart
    simp only [hq, List.map_cons, List.map_nil, hon, hm, Bool.not_false, Bool.true_or, due, and_self, if_true]
  exact ⟨_, starts, State.settled_only _⟩

/-! C2M_DONE -/

/-- The state in which the last capture, one without MEASURE, has ended: the count is 0 and event 2 is set (R241). -/
def State.captureEnded (s : State) : State :=
  (({ s with measure := { s.measure with c2m := [] } } : State).set .capture Reg.Capture.C2M_ACTIVE 0).event .capture 2

theorem State.captureEnded_only (s : State) : OnlyWords { s with measure := { s.measure with c2m := [] } } s.captureEnded
    [wordAt .capture Reg.Capture.C2M_ACTIVE, wordAt .capture Reg.Hdr.EVENTS] :=
  ((OnlyWords.refl _ _).set_in _ _ _ (by decide)).set_in _ _ _ (by decide)

theorem State.captureEnded_shows (s : State) : s.captureEnded.fld .capture Reg.Capture.C2M_ACTIVE = 0 ∧
    s.captureEnded.fld .capture Reg.Hdr.EVENTS = s.fld .capture Reg.Hdr.EVENTS ||| 4 := by
  unfold State.captureEnded
  rw [State.event_capture]
  constructor
  · rw [State.fld_set_apart _ _ _ (by decide), State.fld_set_same _ _ _ _ ⟨by decide, by decide⟩]
    rfl
  · rw [State.fld_set_same _ _ _ _ ⟨by decide, by decide⟩, State.fld_set_apart _ _ _ (by decide)]
    exact or_two_pow_mod_two_pow (i := 2) (regGet_lt _ _ _ ⟨by decide, by decide⟩) (by decide)

/-- Words above the seats' pages leave the queues of the seats alone. -/
theorem OnlyWords.cqOf_eq {s t : State} {ws : List Nat} (h : OnlyWords s t ws) (hw : ∀ w ∈ ws, 0x18000 ≤ w) {seat sq : Nat}
    (h8 : seat < 8) (hq : sq < 4) : t.cqOf seat sq = s.cqOf seat sq := by
  have below : wordAt (.seat seat) (Reg.Seat.SQ_CQ sq) < 0x18000 := by
    simp only [wordAt, Blk.base, Reg.Seat.SQ_CQ]
    omega
  exact h.fld_eq (fun hm => Nat.not_lt.mpr (hw _ hm) below) (sqCq_not_statusWord seat hq)

/-- C2M_DONE of the one capture there, a one-shot that is full (R244). -/
theorem c2mDone_answers {s : State} {c : Cmd} {q : C2m} (hq : s.measure.c2m = [q]) (hseat : q.seat = c.seat) (htag : q.tag = c.tag)
    (hm : q.measure = false) (hr : q.ring = false) (full : q.pos = q.size) (hc : s.cmdOf c.seat c.tag = some c)
    (hcancel : c.cancel = none) (hf : c.final = false) (hw : c.waiters = []) (ht : c.tag < bootTag) (h8 : c.seat < 8)
    (hsq : c.sq < 4) : Answers (.c2mDone c.seat c.tag) s (fun t => t.measure.c2m = [] ∧
      Completes s t c Status.ok q.pos q.handle ∧ t.fld .capture Reg.Capture.C2M_ACTIVE = 0 ∧
      t.fld .capture Reg.Hdr.EVENTS = s.fld .capture Reg.Hdr.EVENTS ||| 4) := by
  have ends : execC2mDone c.seat c.tag s = settle (s.captureEnded.finish c.seat c.tag Status.ok q.pos q.handle) := by
    unfold execC2mDone State.c2mEnd
    simp [hq, hseat, htag, hc, hcancel, hm, hr, full, State.captureEnded]
  have only := s.captureEnded_only
  obtain ⟨active, event⟩ := s.captureEnded_shows
  have seat : s.captureEnded.seat c.seat = s.seat c.seat := only.keeps (State.seat · c.seat) (fun _ _ => rfl)
  obtain ⟨done, frame⟩ := completes_in_flight (s := s) (u := s.captureEnded) (c := c)
    (by unfold State.cmdOf; rw [seat]; exact hc) hf hw ht h8 (by rw [seat])
    (only.cqOf_eq (by decide) h8 hsq) Status.ok q.pos q.handle
  refine ⟨_, ends, ?_, done, (frame.fld_above (by decide) _).trans active, (frame.fld_above (by decide) _).trans event⟩
  exact congrArg Measurement.c2m ((frame.keeps (·.measure) (fun _ _ _ _ _ => rfl)).trans (only.keeps (·.measure) (fun _ _ => rfl)))

/-- Settles O38: the sample of a settled chain and of an idle one, STUCK, the scan, the end of a change, SERVICE_DONE, and the
captures to memory. -/
theorem captureChains : Obligations.CaptureChains := by
  refine ⟨fun s c pin aux x _ hp hc he hs hm hr hd hl hx => chainOutputSample_answers hp hc he hs hm hr hd hl rfl rfl hx rfl,
    fun s c pin aux on h => idleChain_answers h pin aux on, fun s c on hn he hc => stuck_answers on hn he hc,
    fun s c hm he => scanSwitch_answers hm he, fun s c st _ he ht => switched_answers he ht, serviceDone_answers,
    fun s c h h0 h56 h16 hsize => ?_, fun s q hq hon hm due => c2mStart_answers hq hon hm due,
    fun s c q hq hseat htag hm hr full hc hcancel hf hw ht h8 hsq =>
      c2mDone_answers hq hseat htag hm hr full hc hcancel hf hw ht h8 hsq⟩
  have valid : c.Captures := ⟨h0, h56, h16, hsize⟩
  exact ⟨fun hroom hf hp hm => captureToMemory_answers_there h valid hroom hf hp hm, captureToMemory_answers_busy h valid⟩

end Sys2Proof.Machine
end

section
/-! PROOFS. The end of a deconvolution writes its records into the campaign's buffer; in a store of buffers that is not
canonical the write may lose another buffer (R252, R253). -/

namespace Sys2Proof.Machine

open Sys2Proof

/-- A buffer of no size takes no byte: it is written back as a key without a buffer reads. -/
theorem State.bufWrite_empty {s : State} {h : Nat} (hb : s.buffer h = some {}) (off : Nat) (bs : List Byte) :
    s.bufWrite h off bs = s.freeBuffer h := by
  have empty : bs.zipIdx.filter (fun e => decide (off + e.2 < 0)) = [] := by simp
  unfold State.bufWrite State.freeBuffer
  rw [hb]
  simp only [empty, List.foldl_nil]

theorem State.setCampaign_pool (s : State) (q : Option Campaign) : (s.setCampaign q).pool = s.pool :=
  when_keeps State.pool (when_keeps State.pool rfl)

/-- The end of the deconvolution of one chain writes its record, and of the general pool nothing else (R253). -/
theorem execDeconvolutionDone_pool {s : State} {q : Campaign} {i t0 c : Nat} (hq : s.measure.campaign = some q)
    (hd : q.decon = some (i, t0)) (hc : chainsOf (q.desc.sets.getD (q.desc.stepSet i) 0) = [c]) :
    ∃ (u : State) (off : Nat) (ws : List Word), execDeconvolutionDone s = settle u ∧ u.pool = (s.bufWords q.buffer off ws).pool := by
  unfold execDeconvolutionDone
  simp only [hq, hd, hc, List.zipIdx_cons, List.zipIdx_nil, List.foldl_cons, List.foldl_nil, Bool.false_or]
  exact ⟨_, _, _, rfl, (State.setCampaign_pool _ _).trans (when_keeps State.pool (State.event_pool _ _ _))⟩

/-- A campaign of one output and one chain whose deconvolution is under way. -/
def deconvolving : Campaign :=
  { desc := { outs := [0], sets := [1] }, handle := 4, seat := 0, tag := 3, buffer := 5, rate := 0, decon := some (0, 0) }

/-- It is the device's, and the store of buffers is not canonical: it lists key 5 before key 3, each with what an unlisted
key reads as. -/
def uncanonicalPool : State :=
  { measure := { campaign := some deconvolving }, pool := { bufs := [(5, {}), (3, {})] } }

/-- Refutes O39 by its clause on DECONVOLUTION_DONE that no other buffer changes. In `uncanonicalPool` buffer 5 has no size, so
that its record is written back as the default; `Map.put` then drops key 5 and what stands behind it with no greater key,
buffer 3 among it. The commands of the model keep the store canonical (`Map.wf_put`), but the clause is about every state,
without the premise `Map.wf {} s.pool.bufs = true`. -/
theorem not_campaigns : ¬ Obligations.Campaigns := by
  rintro ⟨-, -, deconvolution, -⟩
  obtain ⟨t, ht, -, -, others⟩ := deconvolution uncanonicalPool deconvolving 0 0 rfl rfl
  obtain ⟨u, off, ws, hu, pool⟩ := execDeconvolutionDone_pool (s := uncanonicalPool) (q := deconvolving) (c := 0) rfl rfl
    (by decide)
  obtain rfl : t = u.settled := Host.Outcome.next.inj (ht.symm.trans hu)
  have emptied : u.pool.bufs = [] := by
    rw [pool, State.bufWords, State.bufWrite_empty (by decide)]
    decide
  have gone : u.settled.buffer 3 = none := by
    unfold State.buffer
    rw [State.settled_pool, emptied]
    rfl
  have there : uncanonicalPool.buffer 3 = some {} := by decide
  exact absurd (gone.symm.trans ((others 3 (by decide)).trans there)) nofun

end Sys2Proof.Machine
end

section
/-! PROOFS. Probes: PROBE_START is queued or refused, a frame is counted, a report is written, and PROBE_STOP ends both
commands (R256 to R260). -/

namespace Sys2Proof.Machine

open Sys2Proof

/-! PROBE_START -/

/-- Nothing measures: there is neither a campaign nor a probe. -/
theorem measures_iff (s : State) : (s.campaignThere || s.measure.probe.isSome) = true ↔
    s.campaignThere = true ∨ s.measure.probe ≠ none := by
  rw [Bool.or_eq_true, Option.isSome_iff_ne_none]

/-- A long operation that begins leaves the measurement engine alone. -/
theorem State.measure_begin (s : State) (c : Cmd) (work : List Nat) : (s.begin_ c work).measure = s.measure := by
  unfold State.begin_ State.pushReady
  dsimp only
  split <;> rfl

/-- PROBE_START with nothing measuring, a faultless source and room for it (R256). -/
theorem probeStart_answers_queued {s : State} {c : Cmd} (h : Issued s c 0x32) (hc : s.campaignThere = false)
    (hp : s.measure.probe = none) (hs : s.sourceFault c 0 = none) (hroom : c.n 3 ≤ s.poolFree) :
    Answers (.probeStart c.seat c.tag) s (fun t => Queued s t c ∧ t.measure = s.measure) := by
  have idle : ¬ (s.campaignThere || s.measure.probe.isSome) = true := by simp [hc, hp]
  refine answers_command h rfl ?_
  rw [if_neg (show ¬ ((s.begun c).campaignThere || (s.begun c).measure.probe.isSome) = true from idle),
    State.startLoad_begun hs hroom]
  refine ⟨queued_begin s _ c 0x32 [] h (State.begun_cmdOf h) (State.begun_done s c c.seat), ?_⟩
  rw [(CommandFrame.after _).keeps (·.measure) (fun _ _ _ _ _ => rfl), State.measure_begin]
  rfl

/-- PROBE_START while a campaign or a probe is there (R256). -/
theorem probeStart_answers_busy {s : State} {c : Cmd} (h : Issued s c 0x32)
    (busy : s.campaignThere = true ∨ s.measure.probe ≠ none) :
    Answers (.probeStart c.seat c.tag) s (fun t => Completes s t c Status.busy 0 0 ∧ t.measure = s.measure) :=
  answers_ended (u := s.begun c) h rfl (if_pos ((measures_iff s).mpr busy)) rfl rfl
    (fun _ frame done => ⟨done, frame.keeps (·.measure) (fun _ _ _ _ _ => rfl)⟩)

/-! PROBE_FRAME -/

/-- The frames and the reports of a probe so far, and the frames since the last report (R257, R258). -/
def Probe.counts (p : Probe) : Nat × Nat × Nat := (p.index, p.reports, p.since)

/-- A frame that is taken into the spectra counts nothing (R257). -/
theorem Probe.accumulate_counts (p : Probe) (o first : Nat) : (p.accumulate o first).counts = p.counts := by
  unfold Probe.accumulate
  generalize List.range 4097 = bins
  refine foldl_keeps Probe.counts (fun p k _ => ?_) p
  extract_lets x q
  refine (foldl_keeps Probe.counts (fun u m _ => ?_) q).trans ?_
  · rfl
  · rfl

/-- A counter of a page counts modulo its width. -/
theorem State.fld_count_same (s : State) (b : Blk) {f : Fld} (hf : Fits f) (n : Nat) :
    (s.count b f n).fld b f = (s.fld b f + n) % 2 ^ f.width :=
  (State.fld_set_same _ _ _ _ hf).trans (Nat.mod_mod _ _)

theorem measure_not_statusWord (f : Fld) : wordAt .measure f ∉ statusWords :=
  statusWords_below (Nat.le_add_right_of_le (by decide))

/-- The references of a frame that are accepted: with the curtain open and the chains good throughout, those loud enough
(R257). -/
def Probe.acceptedAt (p : Probe) (first : Nat) : List Nat :=
  (List.range p.outs.length).filter (fun o => decide (p.badUntil ≤ first) && p.loud o first)

/-- The probe after a frame (R257). -/
def Probe.afterFrame (p : Probe) (first : Nat) : Probe :=
  let u := (p.acceptedAt first).foldl (fun p o => p.accumulate o first) p
  { u with
    index := u.index + 1
    accepted := (p.acceptedAt first).foldl (fun (m : Map Nat) o => m.put 0 o (Map.get 0 o m + 1)) p.accepted
    since := if (p.acceptedAt first).isEmpty then u.since else u.since + 1
    lastEnd := first + 8192 }

/-- The state in which the frames of a probe have been counted (R257, R259). -/
def State.framesCounted (s : State) (used skipped : Nat) : State :=
  (s.count .measure Reg.Measure.FRAMES_USED used).count .measure Reg.Measure.FRAMES_SKIPPED skipped

theorem State.framesCounted_shows (s : State) (used skipped : Nat) :
    (s.framesCounted used skipped).fld .measure Reg.Measure.FRAMES_USED =
      (s.fld .measure Reg.Measure.FRAMES_USED + used) % 2 ^ 32 ∧
    (s.framesCounted used skipped).fld .measure Reg.Measure.FRAMES_SKIPPED =
      (s.fld .measure Reg.Measure.FRAMES_SKIPPED + skipped) % 2 ^ 32 := by
  have first : (s.count .measure Reg.Measure.FRAMES_USED used).fld .measure Reg.Measure.FRAMES_SKIPPED =
      s.fld .measure Reg.Measure.FRAMES_SKIPPED := State.fld_set_apart _ _ _ (by decide)
  unfold State.framesCounted
  refine ⟨(State.fld_set_apart _ _ _ (by decide)).trans (State.fld_count_same _ _ ⟨by decide, by decide⟩ _), ?_⟩
  rw [State.fld_count_same _ _ ⟨by decide, by decide⟩, first]
  rfl

theorem State.framesCounted_only (s : State) (used skipped : Nat) : OnlyWords s (s.framesCounted used skipped)
    [wordAt .measure Reg.Measure.FRAMES_USED, wordAt .measure Reg.Measure.FRAMES_SKIPPED] :=
  ((OnlyWords.refl s _).set_in _ _ _ (by decide)).set_in _ _ _ (by decide)

/-- The measurement engine lies apart from the register words. -/
theorem OnlyWords.withMeasure {s t : State} {ws : List Nat} (h : OnlyWords s t ws) (m : Measurement) :
    OnlyWords { s with measure := m } { t with measure := m } ws :=
  ⟨congrArg (fun x : State => { x with measure := m }) h.1, h.2⟩

/-- A command that writes words of the MEASURE page, replaces the probe, and does nothing else. -/
theorem State.setProbe_answers {s u : State} {ws : List Nat} (h : OnlyWords s u ws) (p : Option Probe) :
    (u.setProbe p).settled.measure.probe = p ∧ (∀ f, (u.setProbe p).settled.fld .measure f = u.fld .measure f) ∧
      OnlyWords { s with measure := (u.setProbe p).settled.measure } (u.setProbe p).settled ws := by
  refine ⟨congrArg Measurement.probe (State.settled_measure _), fun f => State.settled_fld _ _ f (measure_not_statusWord f), ?_⟩
  rw [State.settled_measure]
  exact (h.withMeasure _).settled

/-- A frame that has been rendered, of a probe that runs (R257). -/
theorem execProbeFrame_due {s : State} {p : Probe} {st first : Nat} {c : Cmd} (hp : s.measure.probe = some p)
    (hst : p.start = some st) (hc : s.cmdOf p.seat p.tag = some c) (hrun : c.state = .running)
    (hfirst : st + 4096 * p.index = first) (hdue : first + 8192 ≤ s.blockStart s.render.block) :
    execProbeFrame s = settle ((s.framesCounted (p.acceptedAt first).length
      (p.outs.length - (p.acceptedAt first).length)).setProbe (some (p.afterFrame first))) := by
  have runs : ¬ (s.cmdOf p.seat p.tag).all (fun c => c.state ≠ .running) = true := by simp [hc, hrun]
  unfold execProbeFrame
  simp only [hp, hst, hfirst]
  exact (if_neg (Nat.not_lt.mpr hdue)).trans (if_neg runs)

/-- The numbers of a probe after a frame (R257). -/
theorem Probe.afterFrame_counts (p : Probe) (first : Nat) : (p.afterFrame first).index = p.index + 1 ∧
    (p.afterFrame first).reports = p.reports ∧
    (p.afterFrame first).since = if p.acceptedAt first = [] then p.since else p.since + 1 := by
  have counts := foldl_keeps (l := p.acceptedAt first) Probe.counts (fun u o _ => u.accumulate_counts o first) p
  simp only [Probe.counts, Prod.mk.injEq] at counts
  obtain ⟨index, reports, since⟩ := counts
  refine ⟨congrArg (· + 1) index, reports, ?_⟩
  simp only [Probe.afterFrame, since, List.isEmpty_iff]

/-- PROBE_FRAME of such a frame (R257, R259). -/
theorem probeFrame_answers {s : State} {p : Probe} {st first : Nat} {c : Cmd} (hp : s.measure.probe = some p)
    (hst : p.start = some st) (hc : s.cmdOf p.seat p.tag = some c) (hrun : c.state = .running)
    (hfirst : st + 4096 * p.index = first) (hdue : first + 8192 ≤ s.blockStart s.render.block) :
    Answers .probeFrame s (fun t =>
      t.fld .measure Reg.Measure.FRAMES_USED =
        (s.fld .measure Reg.Measure.FRAMES_USED + (p.acceptedAt first).length) % 2 ^ 32 ∧
      t.fld .measure Reg.Measure.FRAMES_SKIPPED =
        (s.fld .measure Reg.Measure.FRAMES_SKIPPED + (p.outs.length - (p.acceptedAt first).length)) % 2 ^ 32 ∧
      (∃ u, t.measure.probe = some u ∧ u.index = p.index + 1 ∧ u.reports = p.reports ∧
        u.since = (if p.acceptedAt first = [] then p.since else p.since + 1)) ∧
      OnlyWords { s with measure := t.measure } t
        [wordAt .measure Reg.Measure.FRAMES_USED, wordAt .measure Reg.Measure.FRAMES_SKIPPED]) := by
  have takes := execProbeFrame_due hp hst hc hrun hfirst hdue
  obtain ⟨used, skipped⟩ := s.framesCounted_shows (p.acceptedAt first).length (p.outs.length - (p.acceptedAt first).length)
  obtain ⟨probe, shown, only⟩ := State.setProbe_answers (s.framesCounted_only (p.acceptedAt first).length
    (p.outs.length - (p.acceptedAt first).length)) (some (p.afterFrame first))
  exact ⟨_, takes, (shown _).trans used, (shown _).trans skipped, ⟨_, probe, p.afterFrame_counts first⟩, only⟩

/-! PROBE_REPORT -/

/-- What a report shows: the measurement engine and the events of its page (R258). -/
def State.reportView (s : State) : Measurement × Nat := (s.measure, s.fld .measure Reg.Hdr.EVENTS)

theorem State.setSeat_reportView (s : State) (n : Nat) (v : SeatState) : (s.setSeat n v).reportView = s.reportView :=
  congrArg (s.measure, ·) (State.setSeat_fld s n v .measure Reg.Hdr.EVENTS
    (by simp only [Blk.base, Reg.Hdr.EVENTS, Reg.Seat.STATUS_IN_FLIGHT]; omega))

theorem State.post_reportView (s : State) (c : Cmd) (st r0 r1 : Nat) (i : Bool) :
    (s.post c st r0 r1 i).reportView = s.reportView :=
  ite_keeps State.reportView rfl (s.setSeat_reportView _ _)

/-- The end of a command, whichever way it ends. -/
theorem State.finish1_reportView (s : State) (seat tag st r0 r1 : Nat) :
    (s.finish1 seat tag st r0 r1).reportView = s.reportView := by
  unfold State.finish1
  split
  · rfl
  · refine ite_keeps State.reportView rfl (ite_keeps State.reportView ?_ ?_)
    · exact s.setSeat_reportView _ _
    · exact ((s.post _ _ _ _ _).setSeat_reportView _ _).trans (s.post_reportView _ _ _ _ _)

/-- The end of a step, with the suspension that waited for it (R410, R412). -/
theorem State.stepped_reportView (s : State) (seat tag : Nat) : (s.stepped seat tag).reportView = s.reportView := by
  unfold State.stepped
  split
  · rfl
  · refine ite_keeps State.reportView rfl (ite_keeps State.reportView ?_ (s.setSeat_reportView _ _))
    refine (foldl_keeps State.reportView (fun t w _ => t.finish1_reportView _ _ _ _ _) _).trans ?_
    exact (State.post_reportView _ _ _ _ _ _).trans (s.setSeat_reportView _ _)

/-- Bytes that are written into a buffer leave all but the pool alone. -/
theorem State.bufWrite_pool (s : State) (h off : Nat) (bs : List Byte) : ∃ q, s.bufWrite h off bs = { s with pool := q } := by
  unfold State.bufWrite
  split
  · exact ⟨s.pool, rfl⟩
  · exact ⟨_, rfl⟩

/-- A report is in the buffer, counted, and its event set (R258). -/
theorem State.writeReport_eq (s : State) (p : Probe) : ∃ q, s.writeReport p =
    (({ s with pool := q } : State).setProbe (some { p with since := 0, reports := p.reports + 1 })).event .measure 3 := by
  obtain ⟨q, written⟩ := s.bufWrite_pool p.buffer (p.reports % 2 * slotBytes p.outs.length (chainsOf p.mask).length)
    (p.reportWords.flatMap bytesOf)
  exact ⟨q, by rw [State.writeReport, State.bufWords, written]⟩

theorem State.writeReport_shows (s : State) (p : Probe) :
    (s.writeReport p).measure.probe = some { p with since := 0, reports := p.reports + 1 } ∧
    (s.writeReport p).fld .measure Reg.Hdr.EVENTS = s.fld .measure Reg.Hdr.EVENTS ||| 8 ∧
    (s.writeReport p).seats = s.seats := by
  obtain ⟨q, eq⟩ := s.writeReport_eq p
  rw [eq, State.event_measurePage]
  refine ⟨rfl, (State.fld_set_same _ _ _ _ ⟨by decide, by decide⟩).trans ?_, rfl⟩
  exact or_two_pow_mod_two_pow (i := 3) (regGet_lt _ _ _ ⟨by decide, by decide⟩) (by decide)

/-- PROBE_REPORT once the frames are there, with no cancellation asked (R258). -/
theorem probeReport_answers {s : State} {p : Probe} (hp : s.measure.probe = some p) (due : p.report ≤ p.since)
    (kept : ∀ c, s.cmdOf p.seat p.tag = some c → c.cancel = none) :
    Answers .probeReport s (fun t => t.measure.probe = some { p with since := 0, reports := p.reports + 1 } ∧
      t.fld .measure Reg.Hdr.EVENTS = s.fld .measure Reg.Hdr.EVENTS ||| 8) := by
  obtain ⟨probe, event, seats⟩ := s.writeReport_shows p
  have same : (s.writeReport p).cmdOf p.seat p.tag = s.cmdOf p.seat p.tag := by
    simp only [State.cmdOf, State.seat, seats]
  obtain ⟨u, step, view⟩ : ∃ u, execProbeReport s = settle u ∧ u.reportView = (s.writeReport p).reportView := by
    unfold execProbeReport
    simp only [hp, if_pos due, same]
    cases hc : s.cmdOf p.seat p.tag with
    | none => exact ⟨_, rfl, rfl⟩
    | some c => simp only [kept c hc]; exact ⟨_, rfl, State.stepped_reportView _ _ _⟩
  simp only [State.reportView, Prod.mk.injEq] at view
  obtain ⟨engine, shown⟩ := view
  refine ⟨_, step, ?_, ?_⟩
  · rw [State.settled_measure, engine, probe]
  · rw [State.settled_fld _ _ _ (measure_not_statusWord _), shown, event]

/-! PROBE_STOP -/

/-- What the ends of commands of a seat depend on: the seats, and the queue that the completions of one of them go to. -/
def State.endsView (seat sq : Nat) (s : State) : Map SeatState × Nat := (s.seats, s.cqOf seat sq)

/-- The words of the MEASURE page lie apart from those of the seats. -/
theorem State.set_measure_endsView (s : State) (f : Fld) (v : Nat) {seat sq : Nat} (h8 : seat < 8) (hq : sq < 4) :
    (s.set .measure f v).endsView seat sq = s.endsView seat sq :=
  congrArg (s.seats, ·) (State.fld_set_word _ _ _ _ _ _
    (by simp only [Blk.base, Reg.Seat.SQ_CQ]; omega))

theorem State.showMeasure_endsView (s : State) {seat sq : Nat} (h8 : seat < 8) (hq : sq < 4) :
    s.showMeasure.endsView seat sq = s.endsView seat sq := by
  unfold State.showMeasure
  extract_lets c g t1 t2 t3 t4 t5 t6
  exact (t6.set_measure_endsView _ _ h8 hq).trans <| (t5.set_measure_endsView _ _ h8 hq).trans <|
    (t4.set_measure_endsView _ _ h8 hq).trans <| (t3.set_measure_endsView _ _ h8 hq).trans <|
    (t2.set_measure_endsView _ _ h8 hq).trans <| (t1.set_measure_endsView _ _ h8 hq).trans <|
    s.set_measure_endsView _ _ h8 hq

theorem State.writeReport_endsView (s : State) (p : Probe) {seat sq : Nat} (h8 : seat < 8) (hq : sq < 4) :
    (s.writeReport p).endsView seat sq = s.endsView seat sq := by
  obtain ⟨q, eq⟩ := s.writeReport_eq p
  rw [eq, State.event_measurePage]
  exact State.set_measure_endsView _ _ _ h8 hq

/-- The chains of a mask change their service, and nothing else does (R236). -/
theorem State.chainService_endsView (s : State) (mask : Nat) (on keep : Bool) (seat sq : Nat) :
    (s.chainService mask on keep).endsView seat sq = s.endsView seat sq := by
  unfold State.chainService
  refine foldl_keeps (State.endsView seat sq) (fun _ _ _ => ?_) s
  rfl

/-- The state in which a probe is over, its last report written (R258). -/
def State.probeOver (s : State) (p : Probe) : State :=
  (((s.writeReport p).chainService p.mask false p.keepDcb).setProbe none).showMeasure

theorem State.probeOver_endsView (s : State) (p : Probe) {seat sq : Nat} (h8 : seat < 8) (hq : sq < 4) :
    (s.probeOver p).endsView seat sq = s.endsView seat sq :=
  (State.showMeasure_endsView _ h8 hq).trans <| (State.chainService_endsView _ _ _ _ _ _).trans <|
    s.writeReport_endsView p h8 hq

/-- The end of one command leaves another as it was found. -/
theorem State.finish1_cmdOf_other {s : State} {d : Cmd} (hd : s.cmdOf d.seat d.tag = some d) (hf : d.final = false)
    (ht : d.tag < bootTag) (st r0 r1 : Nat) {seat tag : Nat} (h : (seat, tag) ≠ (d.seat, d.tag)) :
    (s.finish1 d.seat d.tag st r0 r1).cmdOf seat tag = s.cmdOf seat tag := by
  rw [State.finish1_eq s d st r0 r1 hd hf ht]
  have kept (t : State) : (t.freePool d.seat d.tag).cmdOf seat tag = t.cmdOf seat tag := rfl
  rw [kept, State.cmdOf_setCmd_other _ { d with started := true, final := true, waiters := [], bytes := [], work := [] } _ _ h,
    State.cmdOf_post]

/-- The words in which grants are counted are none of a seat's. -/
theorem CommandFrame.cqOf_eq {s t : State} (h : CommandFrame s t) (seat : Nat) {sq : Nat} (hq : sq < 4) :
    t.cqOf seat sq = s.cqOf seat sq := by
  have low : ∀ w ∈ grantWords, w < 0x10000 := by decide
  exact h.fld_eq (fun hw => Nat.not_lt.mpr (Nat.le_add_right_of_le (Nat.le_add_right _ _)) (low _ hw))
    (sqCq_not_statusWord seat hq)

/-- A command of a seat and then another one end: their completions stand in this order, and nothing else differs. -/
theorem State.finish_two {s : State} {c d : Cmd} (hc : s.cmdOf c.seat c.tag = some c) (hd : s.cmdOf d.seat d.tag = some d)
    (same : d.seat = c.seat) (other : d.tag ≠ c.tag) (fc : c.final = false) (fd : d.final = false) (wc : c.waiters = [])
    (wd : d.waiters = []) (tc : c.tag < bootTag) (td : d.tag < bootTag) (h8 : c.seat < 8) (hq : c.sq < 4) (st r0 r1 : Nat) :
    let t := (s.finish d.seat d.tag st r0 r1).finish c.seat c.tag Status.ok
    (t.seat c.seat).done = (s.seat c.seat).done ++ [completionOf s d st r0 r1 false, completionOf s c Status.ok 0 0 false] ∧
      CommandFrame s t := by
  have first := CommandFrame.finish hd fd wd td (same ▸ h8) st r0 r1
  have there : (s.finish d.seat d.tag st r0 r1).cmdOf c.seat c.tag = some c := by
    rw [State.finish_eq s _ _ _ _ _ d hd wd,
      State.finish1_cmdOf_other hd fd td _ _ _ (fun e => other (Prod.mk.inj e).2.symm), hc]
  have entry : completionOf (s.finish d.seat d.tag st r0 r1) c Status.ok 0 0 false = completionOf s c Status.ok 0 0 false := by
    simp only [completionOf, first.cqOf_eq c.seat hq]
  refine ⟨?_, first.trans (CommandFrame.finish there fc wc tc h8 _ _ _)⟩
  rw [State.finish_eq _ _ _ _ _ _ c there wc, State.finish1_done _ c _ _ _ there fc tc, if_pos rfl, entry,
    State.finish_eq s _ _ _ _ _ d hd wd, State.finish1_done s d _ _ _ hd fd td, if_pos same.symm, List.append_assoc]
  rfl

/-- Once the seat's probe is over, its command ends and then the one that stopped it (R258). -/
theorem State.probeOver_ends {s : State} {c d : Cmd} {p : Probe} (h : Issued s c 0x33)
    (hd : s.cmdOf c.seat p.tag = some d) (same : d.seat = c.seat) (fd : d.final = false) (wd : d.waiters = [])
    (td : p.tag < bootTag) (other : p.tag ≠ c.tag) (qd : d.sq < 4) :
    let t := (((s.begun c).probeOver p).finish c.seat p.tag Status.ok (p.reports + 1)).finish c.seat c.tag Status.ok
    (t.seat c.seat).done = (s.seat c.seat).done ++
      [completionOf s d Status.ok (p.reports + 1) 0 false, completionOf s c Status.ok 0 0 false] ∧
      CommandFrame ((s.begun c).probeOver p) t := by
  obtain ⟨-, dtag, -⟩ := State.cmdOf_some _ _ _ _ hd
  have begun := State.begun_cmdOf h
  obtain ⟨-, -, -, fc, -, wc, -, -, tc, h8, -, qc⟩ := h
  have view {sq : Nat} (hq : sq < 4) := (s.begun c).probeOver_endsView p h8 hq
  have seats : ((s.begun c).probeOver p).seats = (s.begun c).seats := congrArg Prod.fst (view qc)
  have queue {sq : Nat} (hq : sq < 4) : ((s.begun c).probeOver p).cqOf c.seat sq = s.cqOf c.seat sq :=
    (congrArg Prod.snd (view hq)).trans (State.begun_cqOf _ _ _ _)
  have found (tag : Nat) : ((s.begun c).probeOver p).cmdOf c.seat tag = (s.begun c).cmdOf c.seat tag := by
    simp only [State.cmdOf, State.seat, seats]
  have there : ((s.begun c).probeOver p).cmdOf d.seat d.tag = some d := by
    rw [same, dtag, found, ← hd]
    exact State.cmdOf_setCmd_other _ _ _ _ (fun e => other (Prod.mk.inj e).2)
  obtain ⟨done, frame⟩ := State.finish_two (c := { c with started := true }) ((found _).trans begun) there same
    (dtag ▸ other) fc fd wc wd tc (dtag ▸ td) h8 qc Status.ok (p.reports + 1) 0
  rw [same, dtag] at done frame
  refine ⟨done.trans ?_, frame⟩
  have old : (((s.begun c).probeOver p).seat c.seat).done = (s.seat c.seat).done :=
    (congrArg (fun m => (Map.get ({} : SeatState) c.seat m).done) seats).trans (State.begun_done _ _ _)
  simp only [completionOf, same, queue qd, queue qc, old]

/-- A probe that is over is there no longer (R258). -/
theorem State.probeOver_probe (s : State) (p : Probe) : (s.probeOver p).measure.probe = none := rfl

/-- PROBE_STOP of the seat's probe (R258). -/
theorem probeStop_answers_ended {s : State} {c d : Cmd} {p : Probe} (h : Issued s c 0x33) (hp : s.measure.probe = some p)
    (hseat : p.seat = c.seat) (htag : p.tag = c.n 0) (hd : s.cmdOf c.seat p.tag = some d) (same : d.seat = c.seat)
    (fd : d.final = false) (wd : d.waiters = []) (td : p.tag < bootTag) (other : p.tag ≠ c.tag) (qd : d.sq < 4) :
    Answers (.probeStop c.seat c.tag) s (fun t => t.measure.probe = none ∧
      (t.seat c.seat).done = (s.seat c.seat).done ++
        [completionOf s d Status.ok (p.reports + 1) 0 false, completionOf s c Status.ok 0 0 false]) := by
  obtain ⟨done, frame⟩ := State.probeOver_ends h hd same fd wd td other qd
  refine answers_command h rfl ?_
  rw [show (s.begun c).measure.probe = some p from hp]
  dsimp only
  obtain ⟨probe, -⟩ := (s.begun c).writeReport_shows p
  rw [if_pos ⟨hseat, htag⟩, probe, hseat]
  refine ⟨?_, ?_⟩
  · exact congrArg Measurement.probe ((frame.trans (CommandFrame.after _)).keeps (·.measure) (fun _ _ _ _ _ => rfl))
  · rw [State.seat_settled, State.done_dispatch]
    exact done

/-- PROBE_STOP with no probe (R258). -/
theorem probeStop_answers_none {s : State} {c : Cmd} (h : Issued s c 0x33) (hp : s.measure.probe = none) :
    Answers (.probeStop c.seat c.tag) s (fun t => Completes s t c Status.badParam 0 0) := by
  refine answers_ended (u := s.begun c) (st := Status.badParam) (r0 := 0) (r1 := 0) h rfl ?_ rfl rfl (fun _ _ done => done)
  rw [show (s.begun c).measure.probe = none from hp]

/-- Settles O40: PROBE_START queued or refused, a frame counted, a report written, and PROBE_STOP with and without a
probe. -/
theorem probes : Obligations.Probes := by
  refine ⟨fun s c h => ⟨fun hc hp hs hroom => probeStart_answers_queued h hc hp hs hroom, probeStart_answers_busy h⟩,
    fun s p st c hp hst hc hrun => ?frame, fun s p hp due kept => probeReport_answers hp due kept,
    fun s c h => ⟨fun p d hp hseat htag hd same fd wd td other qd =>
      probeStop_answers_ended h hp hseat htag hd same fd wd td other qd, probeStop_answers_none h⟩⟩
  case frame => exact fun hdue => probeFrame_answers hp hst hc hrun rfl hdue

end Sys2Proof.Machine
end

section
/-! PROOFS. Local channels: what each operation on a channel leaves in its page and its engine, and what a latch-off records
(R281 to R288). -/

namespace Sys2Proof.Machine

open Sys2Proof

/-! The registers of a channel -/

/-- No word of a channel's page is a status word. -/
theorem ps_not_statusWord (k : Nat) (f : Fld) : wordAt (.ps k) f ∉ statusWords :=
  statusWords_below (by simp only [wordAt, Blk.base]; omega)

@[simp] theorem State.ps_fld_settled (s : State) (k : Nat) (f : Fld) : s.settled.fld (.ps k) f = s.fld (.ps k) f :=
  s.settled_fld _ _ (ps_not_statusWord k f)

/-- A written field of a channel reads back; `simp` finds the width of a named field by `decide`. -/
@[simp] theorem State.ps_fld_set_same (s : State) (k : Nat) (f : Fld) (v : Nat)
    (h : f.lsb + f.width ≤ 32 ∧ f.reset < 2 ^ f.width) : (s.set (.ps k) f v).fld (.ps k) f = v % 2 ^ f.width :=
  s.fld_set_same _ _ _ h

@[simp] theorem State.ps_fld_set_apart (s : State) (k : Nat) (f g : Fld) (v : Nat) (h : Apart f g) :
    (s.set (.ps k) f v).fld (.ps k) g = s.fld (.ps k) g :=
  s.fld_set_apart _ _ h

@[simp] theorem State.ps_fld_count_apart (s : State) (k : Nat) (f g : Fld) (n : Nat) (h : Apart f g) :
    (s.count (.ps k) f n).fld (.ps k) g = s.fld (.ps k) g :=
  s.fld_set_apart _ _ h

@[simp] theorem State.ps_fld_set64_apart (s : State) (k : Nat) (lo hi g : Fld) (v : Nat) (hl : Apart lo g) (hh : Apart hi g) :
    (s.set64 (.ps k) lo hi v).fld (.ps k) g = s.fld (.ps k) g :=
  (State.fld_set_apart _ _ _ hh).trans (s.fld_set_apart _ _ hl)

/-- The low word of a 64-bit value (R13). -/
theorem State.ps_fld_set64_low (s : State) (k : Nat) (lo hi : Fld) (v : Nat) (h : Apart hi lo)
    (hf : lo.lsb + lo.width ≤ 32 ∧ lo.reset < 2 ^ lo.width) :
    (s.set64 (.ps k) lo hi v).fld (.ps k) lo = v % 2 ^ 32 % 2 ^ lo.width :=
  (State.fld_set_apart _ _ _ h).trans (s.fld_set_same _ _ _ hf)

/-- The page of a channel lies in no mirror below its offset 0x100: an event is a bit set in EVENTS (R46, R61). -/
theorem State.event_channel (s : State) (k i : Nat) :
    s.event (.ps k) i = s.set (.ps k) Reg.Hdr.EVENTS (s.fld (.ps k) Reg.Hdr.EVENTS ||| 2 ^ i) := rfl

@[simp] theorem State.ps_fld_event (s : State) (k i : Nat) (g : Fld) (h : Apart Reg.Hdr.EVENTS g) :
    (s.event (.ps k) i).fld (.ps k) g = s.fld (.ps k) g :=
  s.fld_set_apart _ _ h

/-- The event that is recorded reads 1, and those recorded before stay. -/
@[simp] theorem State.ps_event_bit (s : State) (k i j : Nat) (h : j < 31) :
    ((s.event (.ps k) i).fld (.ps k) Reg.Hdr.EVENTS).testBit j =
      ((s.fld (.ps k) Reg.Hdr.EVENTS).testBit j || decide (i = j)) := by
  have within : j < Reg.Hdr.EVENTS.width := h
  rw [State.event_channel, State.ps_fld_set_same _ _ _ _ (by decide), Nat.testBit_mod_two_pow, Nat.testBit_or,
    Nat.testBit_two_pow, decide_eq_true within, Bool.true_and]

/-! A channel replaced -/

@[simp] theorem State.psOf_setPs (s : State) (k : Nat) (e : PsEngine) : (s.setPs k e).psOf k = e :=
  Map.get_put_same _ _ _ _

theorem State.psOf_eq_of_ps {s t : State} (h : t.ps = s.ps) (k : Nat) : t.psOf k = s.psOf k :=
  congrArg (Map.get ({} : PsEngine) k) h

@[simp] theorem State.psOf_settled (s : State) (k : Nat) : s.settled.psOf k = s.psOf k := State.psOf_eq_of_ps s.settled_ps k

@[simp] theorem State.psOf_set (s : State) (b : Blk) (f : Fld) (v k : Nat) : (s.set b f v).psOf k = s.psOf k :=
  State.psOf_eq_of_ps (s.set_ps b f v) k

@[simp] theorem State.psOf_event (s : State) (b : Blk) (i k : Nat) : (s.event b i).psOf k = s.psOf k :=
  State.psOf_eq_of_ps (s.event_ps b i) k

@[simp] theorem State.psOf_count (s : State) (b : Blk) (f : Fld) (n k : Nat) : (s.count b f n).psOf k = s.psOf k :=
  State.psOf_set _ _ _ _ _

@[simp] theorem State.psOf_set64 (s : State) (b : Blk) (lo hi : Fld) (v k : Nat) : (s.set64 b lo hi v).psOf k = s.psOf k :=
  (State.psOf_set _ _ _ _ _).trans (State.psOf_set _ _ _ _ _)

/-- The masks of PSGLOBAL lie on another page. -/
theorem State.ps_fld_set_psGlobal (s : State) (k : Nat) {f g : Fld} (v : Nat) (hf : f.off < 0x1000) :
    (s.set .psGlobal f v).fld (.ps k) g = s.fld (.ps k) g :=
  s.fld_set_word _ _ _ _ _ (by simp only [Blk.base]; omega)

/-- A channel that is stored shows in STATE and FAULT_PIN and in the two masks of PSGLOBAL (R287, R288). -/
theorem State.setPs_shape (s : State) (k : Nat) (e : PsEngine) : ∃ running latched, s.setPs k e =
    (((({ s with ps := s.ps.put ({} : PsEngine) k e } : State).set (.ps k) Reg.Ps.STATE e.state.code).set (.ps k)
      Reg.Ps.FAULT_PIN (if e.faultPin then 1 else 0)).set .psGlobal Reg.PsGlobal.RUNNING running).set .psGlobal
      Reg.PsGlobal.LATCHED latched := ⟨_, _, rfl⟩

theorem State.ps_fld_setPs (s : State) (k : Nat) (e : PsEngine) (g : Fld) : (s.setPs k e).fld (.ps k) g =
    ((s.set (.ps k) Reg.Ps.STATE e.state.code).set (.ps k) Reg.Ps.FAULT_PIN (if e.faultPin then 1 else 0)).fld (.ps k) g := by
  obtain ⟨running, latched, h⟩ := s.setPs_shape k e
  rw [h, State.ps_fld_set_psGlobal _ _ _ (by decide), State.ps_fld_set_psGlobal _ _ _ (by decide)]
  rfl

@[simp] theorem State.setPs_state (s : State) (k : Nat) (e : PsEngine) :
    (s.setPs k e).fld (.ps k) Reg.Ps.STATE = e.state.code := by
  have code : e.state.code < 2 ^ Reg.Ps.STATE.width := by cases e.state <;> decide
  rw [State.ps_fld_setPs]
  simp (disch := decide) only [State.ps_fld_set_apart, State.ps_fld_set_same, Nat.mod_eq_of_lt code]

@[simp] theorem State.setPs_faultPin (s : State) (k : Nat) (e : PsEngine) :
    (s.setPs k e).fld (.ps k) Reg.Ps.FAULT_PIN = if e.faultPin then 1 else 0 := by
  rw [State.ps_fld_setPs, State.ps_fld_set_same _ _ _ _ (by decide)]
  cases e.faultPin <;> rfl

/-- Every other field of the page stays. -/
@[simp] theorem State.setPs_apart (s : State) (k : Nat) (e : PsEngine) (g : Fld) (h : Apart Reg.Ps.STATE g)
    (h' : Apart Reg.Ps.FAULT_PIN g) : (s.setPs k e).fld (.ps k) g = s.fld (.ps k) g := by
  rw [State.ps_fld_setPs, State.ps_fld_set_apart _ _ _ _ _ h', State.ps_fld_set_apart _ _ _ _ _ h]

@[simp] theorem State.setPs_render (s : State) (k : Nat) (e : PsEngine) : (s.setPs k e).render = s.render := rfl

/-! RECOVERY on the sense chains, and what the peer is told -/

/-- RECOVERY changes the capture chains alone. -/
theorem State.psRecovery_shape (s : State) (k : Nat) (on : Bool) : ∃ m, s.psRecovery k on = { s with chains := m } :=
  ⟨_, rfl⟩

@[simp] theorem State.psRecovery_fld (s : State) (k : Nat) (on : Bool) (b : Blk) (g : Fld) :
    (s.psRecovery k on).fld b g = s.fld b g := by
  obtain ⟨m, h⟩ := s.psRecovery_shape k on
  rw [h]
  rfl

@[simp] theorem State.psRecovery_psOf (s : State) (k : Nat) (on : Bool) (j : Nat) :
    (s.psRecovery k on).psOf j = s.psOf j := by
  obtain ⟨m, h⟩ := s.psRecovery_shape k on
  rw [h]
  rfl

/-- The sense chains of a channel have RECOVERY as it is set (R281). -/
theorem State.psRecovery_chains (s : State) (k : Nat) (on : Bool) :
    ((s.psRecovery k on).chain (16 + k)).psRecovery = on ∧ ((s.psRecovery k on).chain (32 + k)).psRecovery = on := by
  have current (t : State) (e : ChainEngine) : (t.setChain (32 + k) e).chain (16 + k) = t.chain (16 + k) :=
    Map.get_put_other _ _ _ _ (by omega) _
  simp only [State.psRecovery, List.foldl_cons, List.foldl_nil, current, State.chain_setChain, and_self]

@[simp] theorem State.tellPeer_fld (s : State) (m : PeerFrame) (b : Blk) (g : Fld) : (s.tellPeer m).fld b g = s.fld b g := by
  obtain ⟨tw, told⟩ := s.tellPeer_shape m
  rw [told]
  rfl

@[simp] theorem State.tellPeer_psOf (s : State) (m : PeerFrame) (k : Nat) : (s.tellPeer m).psOf k = s.psOf k := by
  obtain ⟨tw, told⟩ := s.tellPeer_shape m
  rw [told]
  rfl

/-! Latch-off (R283, R285) -/

/-- What decides over a latch-off and is recorded of it: RETRY_EN, ATTEMPTS, RETRY_MAX and the sample (R283, R285). -/
def State.latchInputs (s : State) (k : Nat) : Nat × Nat × Nat × Nat :=
  (s.fld (.ps k) Reg.Ps.RETRY_EN, s.fld (.ps k) Reg.Ps.ATTEMPTS, s.fld (.ps k) Reg.Ps.RETRY_MAX, s.render.rsi)

/-- Channel `k` of `t` has latched off, from a state with the settings of `s`: the gates are low, it waits for a retry where one
is left, and the cause, the sample and event 0 are recorded (R283, R285). -/
def State.Latched (s t : State) (k cause : Nat) : Prop :=
  (t.psOf k).switching = false ∧ (t.psOf k).legs = [] ∧
  (t.psOf k).state = (if s.bit (.ps k) Reg.Ps.RETRY_EN = true ∧
    s.fld (.ps k) Reg.Ps.ATTEMPTS < s.fld (.ps k) Reg.Ps.RETRY_MAX then .retryWait else .latched) ∧
  t.fld (.ps k) Reg.Ps.STATE = (t.psOf k).state.code ∧ t.fld (.ps k) Reg.Ps.LATCH_CAUSE = cause ∧
  t.fld (.ps k) Reg.Ps.LATCHED_AT_LO = (s.render.rsi + 1) % 2 ^ 32 ∧ (t.fld (.ps k) Reg.Hdr.EVENTS).testBit 0 = true

/-- A latch-off depends on its inputs alone. -/
theorem State.Latched.of_inputs {s u t : State} {k cause : Nat} (h : u.Latched t k cause)
    (same : u.latchInputs k = s.latchInputs k) : s.Latched t k cause := by
  simp only [State.latchInputs, Prod.mk.injEq] at same
  obtain ⟨enabled, attempts, most, rsi⟩ := same
  unfold State.Latched State.bit at h ⊢
  rwa [enabled, attempts, most, rsi] at h

/-- An event afterwards, a message to the peer and the status registers change nothing of it. -/
theorem State.Latched.event {s t : State} {k cause : Nat} (h : s.Latched t k cause) (i : Nat) :
    s.Latched (t.event (.ps k) i) k cause := by
  unfold State.Latched at h ⊢
  obtain ⟨gates, legs, state, shown, why, at_, flag⟩ := h
  simp (disch := decide) only [State.psOf_event, State.ps_fld_event, State.ps_event_bit, gates, legs, state, shown, why, at_,
    flag, Bool.true_or, and_self]

theorem State.Latched.tellPeer {s t : State} {k cause : Nat} (h : s.Latched t k cause) (m : PeerFrame) :
    s.Latched (t.tellPeer m) k cause := by
  unfold State.Latched at h ⊢
  simpa only [State.tellPeer_psOf, State.tellPeer_fld] using h

theorem State.Latched.settled {s t : State} {k cause : Nat} (h : s.Latched t k cause) : s.Latched t.settled k cause := by
  unfold State.Latched at h ⊢
  simpa only [State.psOf_settled, State.ps_fld_settled] using h

/-- The channel after a latch-off: its gates are low, and it waits for a retry where one is left (R283, R285). -/
def State.latchEngine (s : State) (k : Nat) : PsEngine :=
  { (s.psOf k).stopped (if s.bit (.ps k) Reg.Ps.RETRY_EN &&
        decide (s.fld (.ps k) Reg.Ps.ATTEMPTS < s.fld (.ps k) Reg.Ps.RETRY_MAX) then .retryWait else .latched) with
    waitEnd := s.render.tick + s.fld (.ps k) Reg.Ps.RETRY_DELAY * s.second / 10 }

/-- What a latch-off records, with the channel that it leaves: all of it but RETRY_EXHAUSTED (R283). -/
def State.recordLatch (s : State) (k cause : Nat) (e : PsEngine) : State :=
  ((((s.setPs k e).set (.ps k) Reg.Ps.LATCH_CAUSE cause).set64 (.ps k) Reg.Ps.LATCHED_AT_LO Reg.Ps.LATCHED_AT_HI
    (s.render.rsi + 1)).count (.ps k) Reg.Ps.LATCH_COUNT).event (.ps k) 0 |>.psRecovery k true

theorem State.recordLatch_shows (s : State) (k : Nat) {cause : Nat} (hc : cause < 8) (e : PsEngine) :
    let t := s.recordLatch k cause e
    t.psOf k = e ∧ t.fld (.ps k) Reg.Ps.STATE = e.state.code ∧ t.fld (.ps k) Reg.Ps.LATCH_CAUSE = cause ∧
      t.fld (.ps k) Reg.Ps.LATCHED_AT_LO = (s.render.rsi + 1) % 2 ^ 32 ∧ (t.fld (.ps k) Reg.Hdr.EVENTS).testBit 0 = true := by
  have code : cause % 2 ^ Reg.Ps.LATCH_CAUSE.width = cause := Nat.mod_eq_of_lt hc
  refine ⟨?_, ?_, ?_, ?_, ?_⟩ <;> unfold State.recordLatch
  · simp only [State.psRecovery_psOf, State.psOf_event, State.psOf_count, State.psOf_set64, State.psOf_set, State.psOf_setPs]
  · simp (disch := decide) only [State.psRecovery_fld, State.ps_fld_event, State.ps_fld_count_apart, State.ps_fld_set64_apart,
      State.ps_fld_set_apart, State.setPs_state]
  · simp (disch := decide) only [State.psRecovery_fld, State.ps_fld_event, State.ps_fld_count_apart, State.ps_fld_set64_apart,
      State.ps_fld_set_same, code]
  · simp (disch := decide) only [State.psRecovery_fld, State.ps_fld_event, State.ps_fld_count_apart, State.ps_fld_set64_low]
    exact Nat.mod_mod _ _
  · simp (disch := decide) only [State.psRecovery_fld, State.ps_event_bit, decide_true, Bool.or_true]

/-- A channel that latches off (R283, R285). -/
theorem State.latch_latched (s : State) (k : Nat) {cause : Nat} (hc : cause < 8) : s.Latched (s.latch k cause) k cause := by
  obtain ⟨engine, shown, why, at_, flag⟩ := s.recordLatch_shows k hc (s.latchEngine k)
  have off : s.Latched (s.recordLatch k cause (s.latchEngine k)) k cause := by
    unfold State.Latched
    rw [engine]
    refine ⟨rfl, rfl, ?_, shown, why, at_, flag⟩
    simp only [State.latchEngine, PsEngine.stopped, Bool.and_eq_true, decide_eq_true_eq]
  have cases : s.latch k cause = (s.recordLatch k cause (s.latchEngine k)).event (.ps k) 7 ∨
      s.latch k cause = s.recordLatch k cause (s.latchEngine k) := ite_eq_or_eq _ _ _
  rcases cases with h | h <;> rw [h]
  · exact off.event 7
  · exact off

end Sys2Proof.Machine
end

section
/-! PROOFS. Local channels: limit actions, the fault pin and the stuck sense input (R278, R282, R283). -/

namespace Sys2Proof.Machine

open Sys2Proof

/-! A limit action (R282, R283) -/

/-- The first limit action of a carrier period: LIMITING, CONSEC and LIMIT_COUNT, event 1, and the bridge freewheels (R282). -/
def State.limited (s : State) (k : Nat) : State :=
  ((((s.set (.ps k) Reg.Ps.LIMITING 1).event (.ps k) 1).setPs k { s.psOf k with limitNow := true, freewheel := true }).set
    (.ps k) Reg.Ps.CONSEC (min (s.fld (.ps k) Reg.Ps.CONSEC + 1) 32)).count (.ps k) Reg.Ps.LIMIT_COUNT

theorem State.limited_shows (s : State) (k : Nat) :
    let t := s.limited k
    t.psOf k = { s.psOf k with limitNow := true, freewheel := true } ∧
      t.fld (.ps k) Reg.Ps.CONSEC = min (s.fld (.ps k) Reg.Ps.CONSEC + 1) 32 ∧ t.fld (.ps k) Reg.Ps.LIMITING = 1 ∧
      t.fld (.ps k) Reg.Ps.LIMIT_COUNT = (s.fld (.ps k) Reg.Ps.LIMIT_COUNT + 1) % 2 ^ 32 ∧
      (t.fld (.ps k) Reg.Hdr.EVENTS).testBit 1 = true := by
  have fits : min (s.fld (.ps k) Reg.Ps.CONSEC + 1) 32 < 2 ^ Reg.Ps.CONSEC.width :=
    Nat.lt_of_le_of_lt (Nat.min_le_right _ _) (by decide)
  refine ⟨?_, ?_, ?_, ?_, ?_⟩ <;> unfold State.limited
  · simp only [State.psOf_count, State.psOf_set, State.psOf_setPs]
  · simp (disch := decide) only [State.ps_fld_count_apart, State.ps_fld_set_same, Nat.mod_eq_of_lt fits]
  · simp (disch := decide) only [State.ps_fld_count_apart, State.ps_fld_set_apart, State.setPs_apart, State.ps_fld_event,
      State.ps_fld_set_same]
    rfl
  · rw [State.fld_count_same _ _ ⟨by decide, by decide⟩]
    simp (disch := decide) only [State.ps_fld_set_apart, State.setPs_apart, State.ps_fld_event]
    rfl
  · simp (disch := decide) only [State.ps_fld_count_apart, State.ps_fld_set_apart, State.setPs_apart, State.ps_event_bit,
      decide_true, Bool.or_true]

/-- It decides nothing of a latch-off but that there is one. -/
theorem State.limited_latchInputs (s : State) (k : Nat) : (s.limited k).latchInputs k = s.latchInputs k := by
  unfold State.latchInputs
  refine Prod.ext ?_ (Prod.ext ?_ (Prod.ext ?_ (congrArg Render.rsi ?_))) <;> unfold State.limited
  case refine_4 => exact (State.set_render _ _ _ _).trans ((State.set_render _ _ _ _).trans ((State.setPs_render _ _ _).trans
    ((State.event_render _ _ _).trans (State.set_render _ _ _ _))))
  all_goals simp (disch := decide) only [State.ps_fld_count_apart, State.ps_fld_set_apart, State.setPs_apart,
    State.ps_fld_event]

/-- Of a channel that switches, in a period without a limit action so far: the 32nd period in a row latches it off. -/
theorem State.limitAction_first {s : State} {k : Nat} (hs : (s.psOf k).switching = true) (hn : (s.psOf k).limitNow = false)
    (current : Bool) : s.limitAction k current = if 32 ≤ s.fld (.ps k) Reg.Ps.CONSEC + 1 then
      ((s.limited k).latch k (if current then 1 else 2)).tellPeer (.latch k (if current then 1 else 2)) else s.limited k := by
  have consec : ((s.set (.ps k) Reg.Ps.LIMITING 1).event (.ps k) 1).fld (.ps k) Reg.Ps.CONSEC =
      s.fld (.ps k) Reg.Ps.CONSEC := by
    simp (disch := decide) only [State.ps_fld_event, State.ps_fld_set_apart]
  unfold State.limitAction State.limited
  simp only [hs, hn, Bool.not_true, Bool.false_eq_true, if_false, consec]

theorem State.limitAction_counts {s : State} {k : Nat} (hs : (s.psOf k).switching = true) (hn : (s.psOf k).limitNow = false)
    (few : s.fld (.ps k) Reg.Ps.CONSEC + 1 < 32) (current : Bool) : s.limitAction k current = s.limited k :=
  (State.limitAction_first hs hn current).trans (if_neg (Nat.not_le.mpr few))

theorem State.limitAction_latches {s : State} {k : Nat} (hs : (s.psOf k).switching = true) (hn : (s.psOf k).limitNow = false)
    (many : 32 ≤ s.fld (.ps k) Reg.Ps.CONSEC + 1) (current : Bool) :
    s.Latched (s.limitAction k current) k (if current then 1 else 2) := by
  rw [State.limitAction_first hs hn, if_pos many]
  exact (((s.limited k).latch_latched k (by cases current <;> decide)).of_inputs (s.limited_latchInputs k)).tellPeer _

theorem State.limitAction_idle {s : State} {k : Nat} (hs : (s.psOf k).switching = false) (current : Bool) :
    s.limitAction k current = s :=
  if_pos (by rw [hs]; rfl)

/-! LIMIT_ACTION -/

/-- What the peak register takes in leaves the other fields of the channel alone. -/
@[simp] theorem State.ps_fld_peak_apart (s : State) (k : Nat) (f g : Fld) (v : Nat) (h : Apart f g) :
    (s.peak (.ps k) f v).fld (.ps k) g = s.fld (.ps k) g :=
  s.fld_set_apart _ _ h

@[simp] theorem State.psOf_peak (s : State) (b : Blk) (f : Fld) (v k : Nat) : (s.peak b f v).psOf k = s.psOf k :=
  State.psOf_set _ _ _ _ _

theorem execLimitAction_eq {s : State} {k : Nat} (hk : k < s.model.pss) (i : Int) : execLimitAction k i s =
    settle (if s.fld (.ps k) Reg.Ps.ILIM < absNat i * 1024 then
      (s.peak (.ps k) Reg.Ps.I_PEAK (absNat i * 1024)).limitAction k true
    else s.peak (.ps k) Reg.Ps.I_PEAK (absNat i * 1024)) := by
  have there : k < (s.peak (.ps k) Reg.Ps.I_PEAK (absNat i * 1024)).model.pss := hk
  unfold execLimitAction
  simp (disch := decide) only [if_pos hk, there, true_and, State.ps_fld_peak_apart]

theorem limitAction_answers_counted {s : State} {k : Nat} {i : Int} (hk : k < s.model.pss)
    (above : s.fld (.ps k) Reg.Ps.ILIM < absNat i * 1024) (hs : (s.psOf k).switching = true) (hn : (s.psOf k).limitNow = false)
    (few : s.fld (.ps k) Reg.Ps.CONSEC + 1 < 32) : Answers (.limitAction k i) s (fun t =>
      t.psOf k = { s.psOf k with limitNow := true, freewheel := true } ∧
        t.fld (.ps k) Reg.Ps.CONSEC = s.fld (.ps k) Reg.Ps.CONSEC + 1 ∧ t.fld (.ps k) Reg.Ps.LIMITING = 1 ∧
        t.fld (.ps k) Reg.Ps.LIMIT_COUNT = (s.fld (.ps k) Reg.Ps.LIMIT_COUNT + 1) % 2 ^ 32 ∧
        (t.fld (.ps k) Reg.Hdr.EVENTS).testBit 1 = true) := by
  let u := s.peak (.ps k) Reg.Ps.I_PEAK (absNat i * 1024)
  have engine : u.psOf k = s.psOf k := State.psOf_peak _ _ _ _ _
  have kept (g : Fld) (h : Apart Reg.Ps.I_PEAK g) : u.fld (.ps k) g = s.fld (.ps k) g := State.ps_fld_peak_apart _ _ _ _ _ h
  have counts : u.limitAction k true = u.limited k :=
    State.limitAction_counts (by rwa [engine]) (by rwa [engine]) (by rwa [kept _ (by decide)]) true
  obtain ⟨wheel, consec, limiting, count, flag⟩ := u.limited_shows k
  rw [kept _ (by decide), Nat.min_eq_left (Nat.le_of_lt few)] at consec
  rw [kept _ (by decide)] at count
  rw [engine] at wheel
  refine ⟨_, (execLimitAction_eq hk i).trans (congrArg settle ((if_pos above).trans counts)), ?_⟩
  simp only [State.psOf_settled, State.ps_fld_settled]
  exact ⟨wheel, consec, limiting, count, flag⟩

theorem State.peak_latchInputs (s : State) (k v : Nat) :
    (s.peak (.ps k) Reg.Ps.I_PEAK v).latchInputs k = s.latchInputs k := by
  unfold State.latchInputs
  simp (disch := decide) only [State.ps_fld_peak_apart]
  rfl

theorem limitAction_answers_latched {s : State} {k : Nat} {i : Int} (hk : k < s.model.pss)
    (above : s.fld (.ps k) Reg.Ps.ILIM < absNat i * 1024) (hs : (s.psOf k).switching = true) (hn : (s.psOf k).limitNow = false)
    (many : 32 ≤ s.fld (.ps k) Reg.Ps.CONSEC + 1) : Answers (.limitAction k i) s (s.Latched · k 1) := by
  let u := s.peak (.ps k) Reg.Ps.I_PEAK (absNat i * 1024)
  have engine : u.psOf k = s.psOf k := State.psOf_peak _ _ _ _ _
  have kept (g : Fld) (h : Apart Reg.Ps.I_PEAK g) : u.fld (.ps k) g = s.fld (.ps k) g := State.ps_fld_peak_apart _ _ _ _ _ h
  have latched : u.Latched (u.limitAction k true) k 1 :=
    State.limitAction_latches (by rwa [engine]) (by rwa [engine]) (by rwa [kept _ (by decide)]) true
  exact ⟨_, (execLimitAction_eq hk i).trans (congrArg settle (if_pos above)),
    (latched.of_inputs (s.peak_latchInputs k _)).settled⟩

theorem limitAction_answers_within {s : State} {k : Nat} {i : Int} (hk : k < s.model.pss)
    (within : absNat i * 1024 ≤ s.fld (.ps k) Reg.Ps.ILIM) :
    Answers (.limitAction k i) s (OnlyWords s · [wordAt (.ps k) Reg.Ps.I_PEAK]) :=
  ⟨_, (execLimitAction_eq hk i).trans (congrArg settle (if_neg (Nat.not_lt.mpr within))), (OnlyWords.set s _ _ _).settled⟩

/-! FAULT_PIN_LOW and STUCK_SENSE -/

theorem execFaultPinLow_eq {s : State} {k : Nat} (hk : k < s.model.pss) (low : Bool) : execFaultPinLow k low s =
    settle (if low then (s.setPs k { s.psOf k with faultPin := low }).limitAction k false else
      s.setPs k { s.psOf k with faultPin := low }) :=
  if_neg (Nat.not_le.mpr hk)

theorem State.setPs_latchInputs (s : State) (k : Nat) (e : PsEngine) : (s.setPs k e).latchInputs k = s.latchInputs k := by
  unfold State.latchInputs
  simp (disch := decide) only [State.setPs_apart, State.setPs_render]

theorem faultPinLow_answers_idle {s : State} {k : Nat} (hk : k < s.model.pss) (hs : (s.psOf k).switching = false)
    (low : Bool) : Answers (.faultPinLow k low) s (fun t => t.psOf k = { s.psOf k with faultPin := low } ∧
      t.fld (.ps k) Reg.Ps.FAULT_PIN = (if low then 1 else 0)) := by
  have idle : (s.setPs k { s.psOf k with faultPin := low }).limitAction k false = s.setPs k { s.psOf k with faultPin := low } :=
    State.limitAction_idle (by rw [State.psOf_setPs]; exact hs) false
  refine ⟨_, (execFaultPinLow_eq hk low).trans (congrArg settle (by rw [idle, ite_self])), ?_⟩
  simp only [State.psOf_settled, State.ps_fld_settled, State.psOf_setPs, State.setPs_faultPin, and_self]

theorem faultPinLow_answers_latched {s : State} {k : Nat} (hk : k < s.model.pss) (hs : (s.psOf k).switching = true)
    (hn : (s.psOf k).limitNow = false) (many : 31 ≤ s.fld (.ps k) Reg.Ps.CONSEC) :
    Answers (.faultPinLow k true) s (s.Latched · k 2) := by
  let u := s.setPs k { s.psOf k with faultPin := true }
  have engine : u.psOf k = { s.psOf k with faultPin := true } := State.psOf_setPs _ _ _
  have consec : u.fld (.ps k) Reg.Ps.CONSEC = s.fld (.ps k) Reg.Ps.CONSEC := State.setPs_apart _ _ _ _ (by decide) (by decide)
  have latched : u.Latched (u.limitAction k false) k 2 :=
    State.limitAction_latches (by rw [engine]; exact hs) (by rw [engine]; exact hn)
      (by rw [consec]; exact Nat.succ_le_succ many) false
  exact ⟨_, execFaultPinLow_eq hk true, (latched.of_inputs (s.setPs_latchInputs k _)).settled⟩

theorem execStuckSense_eq {s : State} {k : Nat} (hk : k < s.model.pss) (on : Bool) : execStuckSense k on s =
    settle (if on && (s.psOf k).runs then
      (((s.setPs k { s.psOf k with stuck := on }).latch k 3).event (.ps k) 3).tellPeer (.latch k 3) else
      s.setPs k { s.psOf k with stuck := on }) :=
  if_neg (Nat.not_le.mpr hk)

theorem stuckSense_answers_kept {s : State} {k : Nat} (hk : k < s.model.pss) {on : Bool}
    (h : on = false ∨ (s.psOf k).runs = false) :
    Answers (.stuckSense k on) s (fun t => t.psOf k = { s.psOf k with stuck := on }) := by
  have stays : ¬ (on && (s.psOf k).runs) = true := by rcases h with h | h <;> simp [h]
  refine ⟨_, (execStuckSense_eq hk on).trans (congrArg settle (if_neg stays)), ?_⟩
  exact (State.psOf_settled _ _).trans (State.psOf_setPs _ _ _)

theorem stuckSense_answers_latched {s : State} {k : Nat} (hk : k < s.model.pss) (hr : (s.psOf k).runs = true) :
    Answers (.stuckSense k true) s (fun t => s.Latched t k 3 ∧ (t.fld (.ps k) Reg.Hdr.EVENTS).testBit 3 = true) := by
  have latched := (State.latch_latched (s.setPs k { s.psOf k with stuck := true }) k (cause := 3) (by decide)).of_inputs
    (s.setPs_latchInputs k _)
  refine ⟨_, (execStuckSense_eq hk true).trans (congrArg settle (if_pos hr)), ((latched.event 3).tellPeer _).settled, ?_⟩
  simp (disch := decide) only [State.ps_fld_settled, State.tellPeer_fld, State.ps_event_bit, decide_true, Bool.or_true]

end Sys2Proof.Machine
end

section
/-! PROOFS. Local channels: the end of a carrier period, recovery and its retries (R274 to R277, R283 to R285). -/

namespace Sys2Proof.Machine

open Sys2Proof

/-! CARRIER_PERIOD_END (R274 to R277, R283) -/

/-- What the end of a carrier period shows of it: its peak, LIMITING, and CONSEC cleared where it held no limit
action (R283). -/
def State.periodShown (s : State) (k peak : Nat) : State :=
  let t := (s.peak (.ps k) Reg.Ps.I_PEAK (peak * 1024)).setBit (.ps k) Reg.Ps.LIMITING (s.psOf k).limitNow
  if (s.psOf k).limitNow then t else t.set (.ps k) Reg.Ps.CONSEC 0

theorem State.periodShown_shows (s : State) (k peak : Nat) :
    (s.periodShown k peak).fld (.ps k) Reg.Ps.LIMITING = (if (s.psOf k).limitNow then 1 else 0) ∧
    (s.periodShown k peak).fld (.ps k) Reg.Ps.CONSEC =
      if (s.psOf k).limitNow then s.fld (.ps k) Reg.Ps.CONSEC else 0 := by
  unfold State.periodShown State.setBit
  cases (s.psOf k).limitNow with
  | false =>
    simp (disch := decide) only [if_false, Bool.false_eq_true, State.ps_fld_set_apart, State.ps_fld_set_same, Nat.zero_mod,
      and_self]
  | true =>
    simp (disch := decide) only [if_true, State.ps_fld_set_apart, State.ps_fld_set_same, State.ps_fld_peak_apart, and_true]
    rfl

/-- The channel at the end of a carrier period; one with leave to start switches from the next (R277, R283). -/
def PsEngine.nextPeriod (e : PsEngine) : PsEngine :=
  { e with limitNow := false, freewheel := false, gates := [], switching := e.switching || (e.start && e.runs), start := false }

/-- A channel that neither switches nor starts (R277). -/
theorem State.carrier_idle {s : State} {k : Nat} (hs : (s.psOf k).nextPeriod.switching = false) (c peak : Nat) :
    s.carrier k c peak = (s.periodShown k peak).setPs k (s.psOf k).nextPeriod := by
  have idle : (!(s.psOf k).nextPeriod.switching) = true := by rw [hs]; rfl
  exact if_pos idle

theorem carrierPeriodEnd_answers_idle {s : State} {k : Nat} (hk : k < s.model.pss) (hs : (s.psOf k).switching = false)
    (hstart : (s.psOf k).start = false) (c peak : Nat) : Answers (.carrierPeriodEnd k c peak) s (fun t =>
      t.psOf k = { s.psOf k with limitNow := false, freewheel := false, gates := [] } ∧
      t.fld (.ps k) Reg.Ps.LIMITING = (if (s.psOf k).limitNow then 1 else 0) ∧
      t.fld (.ps k) Reg.Ps.CONSEC = (if (s.psOf k).limitNow then s.fld (.ps k) Reg.Ps.CONSEC else 0)) := by
  obtain ⟨limiting, consec⟩ := s.periodShown_shows k peak
  have next : (s.psOf k).nextPeriod = { s.psOf k with limitNow := false, freewheel := false, gates := [] } := by
    simp only [PsEngine.nextPeriod, hs, hstart, Bool.false_and, Bool.or_false]
  have ends := State.carrier_idle (s := s) (k := k) (by rw [next]; exact hs) c peak
  refine ⟨_, congrArg settle ((if_pos hk).trans ends), ?_, ?_, ?_⟩
  · exact (State.psOf_settled _ _).trans ((State.psOf_setPs _ _ _).trans next)
  · exact (State.ps_fld_settled _ _ _).trans ((State.setPs_apart _ _ _ _ (by decide) (by decide)).trans limiting)
  · exact (State.ps_fld_settled _ _ _).trans ((State.setPs_apart _ _ _ _ (by decide) (by decide)).trans consec)

/-- The channel in a carrier period of its own: the modulation indices of both halves, four leg counts and eight gate
changes (R275, R276). -/
def PsEngine.modulated (e : PsEngine) (m0 m1 : Int) (base dead : Nat) : PsEngine :=
  { e with
    mod0 := m0, mod1 := m1, legs := [legCount m0, legCount (-m0), legCount m1, legCount (-m1)]
    gates := legEdges 0 base dead (legCount m0) (legCount m1) ++ legEdges 1 base dead (legCount (-m0)) (legCount (-m1)) }

/-- A channel that switches, its fault pin high: its period is modulated, with event 4 where the index is limited (R276). -/
theorem State.carrier_switching {s : State} {k : Nat} (hs : (s.psOf k).nextPeriod.switching = true)
    (hf : (s.psOf k).faultPin = false) (c peak : Nat) : ∃ m0 m1 base dead,
      (s.carrier k c peak).psOf k = (s.psOf k).nextPeriod.modulated m0 m1 base dead := by
  have runs : ¬ (!(s.psOf k).nextPeriod.switching) = true := by rw [hs]; decide
  have high : ¬ (s.psOf k).nextPeriod.faultPin = true := by
    rw [show (s.psOf k).nextPeriod.faultPin = false from hf]; decide
  exact ⟨_, _, _, _, (congrArg (State.psOf · k) ((if_neg runs).trans (if_neg high))).trans
    ((when_keeps (State.psOf · k) (State.psOf_event _ _ _ _)).trans (State.psOf_setPs _ _ _))⟩

theorem carrierPeriodEnd_answers_started {s : State} {k : Nat} (hk : k < s.model.pss) (hstart : (s.psOf k).start = true)
    (hr : (s.psOf k).runs = true) (hf : (s.psOf k).faultPin = false) (c peak : Nat) :
    Answers (.carrierPeriodEnd k c peak) s (fun t => (t.psOf k).switching = true ∧ (t.psOf k).start = false ∧
      (t.psOf k).legs.length = 4 ∧ (t.psOf k).gates.length = 8) := by
  have next : (s.psOf k).nextPeriod.switching = true := by
    simp only [PsEngine.nextPeriod, hstart, hr, Bool.and_self, Bool.or_true]
  obtain ⟨m0, m1, base, dead, engine⟩ := State.carrier_switching next hf c peak
  refine ⟨_, congrArg settle (if_pos hk), ?_⟩
  dsimp only
  rw [State.psOf_settled, engine]
  exact ⟨next, rfl, rfl, rfl⟩

/-! RECOVER, RETRY_WAIT_END, RECOVERED and ATTEMPTS_CLEAR (R284, R285) -/

/-- A channel that begins to recover (R277, R284). -/
theorem State.psStart_recovering (s : State) (k : Nat) :
    let t := s.psStart k .recovering
    (t.psOf k).state = .recovering ∧ (t.psOf k).start = true ∧ t.fld (.ps k) Reg.Ps.STATE = 4 ∧
      t.fld (.ps k) Reg.Ps.ATTEMPTS = s.fld (.ps k) Reg.Ps.ATTEMPTS := by
  obtain ⟨e, started, state, start⟩ : ∃ e, s.psStart k .recovering = (s.set (.ps k) Reg.Ps.R_VALID 0).setPs k e ∧
      e.state = .recovering ∧ e.start = true := ⟨_, rfl, rfl, rfl⟩
  rw [started]
  refine ⟨?_, ?_, ?_, ?_⟩
  · rw [State.psOf_setPs, state]
  · rw [State.psOf_setPs, start]
  · rw [State.setPs_state, state]
    rfl
  · simp (disch := decide) only [State.setPs_apart, State.ps_fld_set_apart]

/-- RECOVER of a channel that may: ATTEMPTS is cleared and the channel starts; the peer is told of it (R284, R290). -/
theorem State.recover_starts {s : State} {k : Nat} (hst : (s.psOf k).state = .latched ∨ (s.psOf k).state = .retryWait)
    (hm : s.mayRecover k = true) : let u := (s.set (.ps k) Reg.Ps.ATTEMPTS 0).psStart k .recovering
    (s.recover k).psOf k = u.psOf k ∧ ∀ f, (s.recover k).fld (.ps k) f = u.fld (.ps k) f := by
  rw [show s.recover k = _ from if_pos ⟨hst, hm⟩]
  exact ⟨when_keeps (State.psOf · k) (State.tellPeer_psOf _ _ k),
    fun f => when_keeps (State.fld · (.ps k) f) (State.tellPeer_fld _ _ _ f)⟩

theorem recover_answers_recovering {s : State} {k : Nat} (hk : k < s.model.pss)
    (hst : (s.psOf k).state = .latched ∨ (s.psOf k).state = .retryWait) (hm : s.mayRecover k = true) :
    Answers (.recover k) s (fun t => (t.psOf k).state = .recovering ∧ (t.psOf k).start = true ∧
      t.fld (.ps k) Reg.Ps.STATE = 4 ∧ t.fld (.ps k) Reg.Ps.ATTEMPTS = 0) := by
  obtain ⟨engine, page⟩ := State.recover_starts hst hm
  obtain ⟨state, start, shown, attempts⟩ := (s.set (.ps k) Reg.Ps.ATTEMPTS 0).psStart_recovering k
  rw [State.ps_fld_set_same _ _ _ _ (by decide)] at attempts
  refine ⟨_, congrArg settle (if_pos hk), ?_⟩
  simp only [State.psOf_settled, State.ps_fld_settled, engine, page]
  exact ⟨state, start, shown, attempts⟩

theorem recover_answers_refused {s : State} {k : Nat} (hk : k < s.model.pss)
    (h : (s.psOf k).state = .off ∨ (s.psOf k).state = .running ∨ s.mayRecover k = false) :
    Answers (.recover k) s (fun t => t.ps = s.ps ∧ (t.fld (.ps k) Reg.Hdr.EVENTS).testBit 6 = true) := by
  have refused : ¬ (((s.psOf k).state = .latched ∨ (s.psOf k).state = .retryWait) ∧ s.mayRecover k = true) := by
    rcases h with h | h | h <;> simp [h]
  refine ⟨_, congrArg settle ((if_pos hk).trans (if_neg refused)), ?_, ?_⟩
  · exact (State.settled_ps _).trans (State.event_ps _ _ _)
  · simp (disch := decide) only [State.ps_fld_settled, State.ps_event_bit, decide_true, Bool.or_true]

/-- A count of ATTEMPTS is none of the conditions of R284. -/
theorem State.mayRecover_attempts (s : State) (k v : Nat) :
    (s.set (.ps k) Reg.Ps.ATTEMPTS v).mayRecover k = s.mayRecover k := by
  have source : (s.set (.ps k) Reg.Ps.ATTEMPTS v).psSource k = s.psSource k :=
    State.ps_fld_set_apart _ _ _ _ _ (.inl (by simp [Reg.Ps.ATTEMPTS, Reg.Ps.SOURCE]))
  unfold State.mayRecover
  rw [source, State.psOf_set, State.out_eq_of_outs (State.set_outs _ _ _ _)]

theorem retryWaitEnd_answers {s : State} {k : Nat} (hst : (s.psOf k).state = .retryWait)
    (due : (s.psOf k).waitEnd ≤ s.render.tick) (hm : s.mayRecover k = true) : Answers (.retryWaitEnd k) s (fun t =>
      (t.psOf k).state = .recovering ∧ t.fld (.ps k) Reg.Ps.ATTEMPTS =
        min (s.fld (.ps k) Reg.Ps.ATTEMPTS + 1) (2 ^ Reg.Ps.ATTEMPTS.width - 1)) := by
  have may : (s.countSat (.ps k) Reg.Ps.ATTEMPTS).mayRecover k = true := (s.mayRecover_attempts k _).trans hm
  obtain ⟨state, -, -, attempts⟩ := (s.countSat (.ps k) Reg.Ps.ATTEMPTS).psStart_recovering k
  have fits : min (s.fld (.ps k) Reg.Ps.ATTEMPTS + 1) (2 ^ Reg.Ps.ATTEMPTS.width - 1) < 2 ^ Reg.Ps.ATTEMPTS.width :=
    Nat.lt_of_le_of_lt (Nat.min_le_right _ _) (by decide)
  refine ⟨_, (if_pos ⟨hst, due⟩).trans (if_pos may), ?_, ?_⟩
  · exact (congrArg PsEngine.state (State.psOf_settled _ _)).trans state
  · refine (State.ps_fld_settled _ _ _).trans (attempts.trans ?_)
    exact (State.ps_fld_set_same _ _ _ _ (by decide)).trans (Nat.mod_eq_of_lt fits)

theorem recovered_answers {s : State} {k : Nat} (hst : (s.psOf k).state = .recovering) (hf : (s.psOf k).feeding = true)
    (due : (s.psOf k).feed.start + (s.psOf k).feed.n ≤ s.render.rsi + 1) : Answers (.recovered k) s (fun t =>
      t.psOf k = { s.psOf k with state := .running, cleanFrom := some s.render.tick } ∧ t.fld (.ps k) Reg.Ps.STATE = 1 ∧
      (t.fld (.ps k) Reg.Hdr.EVENTS).testBit 5 = true ∧ (t.chain (16 + k)).psRecovery = false ∧
      (t.chain (32 + k)).psRecovery = false) := by
  refine ⟨_, if_pos ⟨hst, hf, due⟩, ?_, ?_, ?_, ?_⟩
  · simp only [State.psOf_settled, State.psRecovery_psOf, State.psOf_event, State.psOf_setPs]
  · simp (disch := decide) only [State.ps_fld_settled, State.psRecovery_fld, State.ps_fld_event, State.setPs_state]
    rfl
  · simp (disch := decide) only [State.ps_fld_settled, State.psRecovery_fld, State.ps_event_bit, decide_true, Bool.or_true]
  · simp only [State.chain_settled]
    exact State.psRecovery_chains _ _ _

theorem attemptsClear_answers {s : State} {k at_ : Nat} (hc : (s.psOf k).cleanFrom = some at_)
    (hst : (s.psOf k).state = .running) (due : at_ + 60 * s.second ≤ s.render.tick) : Answers (.attemptsClear k) s (fun t =>
      t.fld (.ps k) Reg.Ps.ATTEMPTS = 0 ∧ OnlyWords s t [wordAt (.ps k) Reg.Ps.ATTEMPTS]) := by
  have cleared : execAttemptsClear k s = settle (s.set (.ps k) Reg.Ps.ATTEMPTS 0) := by
    unfold execAttemptsClear
    simp only [hc, if_pos (And.intro hst due)]
  exact ⟨_, cleared, (State.ps_fld_settled _ _ _).trans (State.ps_fld_set_same _ _ _ _ (by decide)),
    (OnlyWords.set s _ _ _).settled⟩

end Sys2Proof.Machine
end

section
/-! PROOFS. Local channels: the resistance window; the thermal copy; the statement on both (R268, R279, R280). -/

namespace Sys2Proof.Machine

open Sys2Proof

/-! RESISTANCE_WINDOW (R279, R280) -/

/-- No field of a channel's page, nor the masks of PSGLOBAL, sets up a capture chain. -/
theorem ps_not_setupWords (k : Nat) (f : Fld) {c : Nat} (hc : c < 48) : wordAt (.ps k) f ∉ setupWords c := by
  simp only [setupWords, wordAt, Blk.base, Reg.Capture.CLK_EN_PDM0, Reg.Capture.CH_CTRL_SCMODE, Reg.Capture.CH_DECIM_R,
    Reg.Render.CFG_RATE, Reg.Twin.STATE, List.mem_cons, List.not_mem_nil, or_false]
  omega

theorem psMasks_not_setupWords {c : Nat} (hc : c < 48) : wordAt .psGlobal Reg.PsGlobal.RUNNING ∉ setupWords c := by
  simp only [setupWords, wordAt, Blk.base, Reg.PsGlobal.RUNNING, Reg.Capture.CLK_EN_PDM0, Reg.Capture.CH_CTRL_SCMODE,
    Reg.Capture.CH_DECIM_R, Reg.Render.CFG_RATE, Reg.Twin.STATE, List.mem_cons, List.not_mem_nil, or_false]
  omega

theorem State.setPs_chainSetup (s : State) (k : Nat) (e : PsEngine) {c : Nat} (hc : c < 48) :
    (s.setPs k e).chainSetup c = s.chainSetup c := by
  obtain ⟨running, latched, h⟩ := s.setPs_shape k e
  have masks := psMasks_not_setupWords hc
  rw [h, State.set_chainSetup (f := Reg.PsGlobal.LATCHED) _ _ c masks, State.set_chainSetup _ _ c masks,
    State.set_chainSetup _ _ c (ps_not_setupWords k _ hc), State.set_chainSetup _ _ c (ps_not_setupWords k _ hc)]
  rfl

theorem State.renderRate_eq {s t : State} {c : Nat} (h : t.chainSetup c = s.chainSetup c) : t.renderRate c = s.renderRate c :=
  congrArg (fun v => v.2.2.1) h

theorem State.lockUnd_eq {s t : State} {c : Nat} (h : t.chainSetup c = s.chainSetup c) : t.lockUnd = s.lockUnd :=
  congrArg (fun v => v.2.2.2) h

/-- The enable bits of the sense chains lie on the CAPTURE page. -/
theorem State.setPs_chainEnable (s : State) (k : Nat) (e : PsEngine) {c : Nat} (hc : c < 48) :
    (s.setPs k e).bit .capture (Reg.Capture.CH_CTRL_EN c) = s.bit .capture (Reg.Capture.CH_CTRL_EN c) := by
  have page (t : State) {b : Blk} {f : Fld} (v : Nat) (h : 0x68000 ≤ b.base) :
      (t.set b f v).fld .capture (Reg.Capture.CH_CTRL_EN c) = t.fld .capture (Reg.Capture.CH_CTRL_EN c) := by
    refine t.fld_set_word _ _ _ _ _ ?_
    simp only [Blk.base, Reg.Capture.CH_CTRL_EN] at h ⊢
    omega
  have channel : 0x68000 ≤ (Blk.ps k).base := by simp only [Blk.base]; omega
  obtain ⟨running, latched, h⟩ := s.setPs_shape k e
  unfold State.bit
  rw [h, page _ _ (Nat.le_refl _), page _ _ (Nat.le_refl _), page _ _ channel, page _ _ channel]
  rfl

/-- What a channel shows decides nothing over its closed loop. -/
theorem State.setPs_closedLoop (s : State) {k : Nat} (hk : k < 16) (e : PsEngine) :
    (s.setPs k e).closedLoop k = s.closedLoop k := by
  have enabled : (s.setPs k e).bit (.ps k) Reg.Ps.CTRL_CLOSED_EN = s.bit (.ps k) Reg.Ps.CTRL_CLOSED_EN := by
    unfold State.bit
    rw [State.setPs_apart _ _ _ _ (by decide) (by decide)]
  have chain {c : Nat} (hc : c < 48) := s.setPs_chainSetup k e hc
  have current : 16 + k < 48 := by omega
  have voltage : 32 + k < 48 := by omega
  simp only [State.closedLoop, List.all_cons, List.all_nil, enabled, State.setPs_chainEnable s k e current,
    State.setPs_chainEnable s k e voltage, State.renderRate_eq (chain current), State.renderRate_eq (chain voltage),
    State.chainCarries_eq (chain current), State.chainCarries_eq (chain voltage)]

/-- The window that ended is gone (R279). -/
def State.windowTaken (s : State) (k : Nat) : State := s.setPs k { s.psOf k with window := none }

/-- The channel and its resistance registers with an accepted estimate (R279). -/
def State.resistanceShown (s : State) (k r : Nat) : State :=
  let t := ((s.set (.ps k) Reg.Ps.R_COIL r).set (.ps k) Reg.Ps.R_VALID 1).set (.ps k) Reg.Ps.R_AGE 0
  t.setPs k { t.psOf k with rAt := some t.render.tick }

theorem State.resistanceShown_shows (s : State) (k : Nat) {r : Nat} (hr : r ≤ 0xFFFF) :
    let t := s.resistanceShown k r
    t.fld (.ps k) Reg.Ps.R_COIL = r ∧ t.fld (.ps k) Reg.Ps.R_VALID = 1 ∧
      t.psOf k = { s.psOf k with rAt := some s.render.tick } := by
  have fits : r < 2 ^ Reg.Ps.R_COIL.width := Nat.lt_of_le_of_lt hr (by decide)
  refine ⟨?_, ?_, ?_⟩ <;> unfold State.resistanceShown
  · simp (disch := decide) only [State.setPs_apart, State.ps_fld_set_apart, State.ps_fld_set_same, Nat.mod_eq_of_lt fits]
  · simp (disch := decide) only [State.setPs_apart, State.ps_fld_set_apart, State.ps_fld_set_same]
    rfl
  · simp only [State.psOf_setPs, State.psOf_set, State.set_render]

@[simp] theorem State.tellPeer_out (s : State) (m : PeerFrame) (n : Nat) : (s.tellPeer m).out n = s.out n := by
  obtain ⟨tw, told⟩ := s.tellPeer_shape m
  rw [told]
  rfl

/-- The temperature of the coil that an accepted estimate gives, for the output's thermal model (R280, R290). -/
def State.coilMeasured (s : State) (n : Nat) (temp : Int) : State :=
  let at_ := s.render.rsi / s.blockSize + 1
  if s.lockUnd then s
  else
    let q := { (s.out n).prot with measuredAt := some s.render.tick }
    let q := if s.lockPri then { q with temps := q.temps ++ [(at_, temp)] } else { q with measured := some temp }
    (s.setOut n { s.out n with prot := q }).tellPeer (.resistance n temp at_)

theorem State.coilMeasured_shape {s : State} (hu : s.lockUnd = false) (n : Nat) (temp : Int) : ∃ e m,
    e.prot.measuredAt = some s.render.tick ∧ s.coilMeasured n temp = (s.setOut n e).tellPeer m := by
  have own : ¬ s.lockUnd = true := by rw [hu]; decide
  refine ⟨_, _, ?_, if_neg own⟩
  cases s.lockPri <;> rfl

/-- Outside a LOCKSTEP understudy the output takes the estimate's time; the channel and its page stay. -/
theorem State.coilMeasured_shows {s : State} (hu : s.lockUnd = false) (n : Nat) (temp : Int) :
    let t := s.coilMeasured n temp
    (∀ k f, t.fld (.ps k) f = s.fld (.ps k) f) ∧ (∀ k, t.psOf k = s.psOf k) ∧
      (t.out n).prot.measuredAt = some s.render.tick := by
  obtain ⟨e, m, at_, h⟩ := State.coilMeasured_shape hu n temp
  rw [h]
  refine ⟨fun k f => State.tellPeer_fld _ _ _ _, fun k => State.tellPeer_psOf _ _ _, ?_⟩
  rw [State.tellPeer_out, State.out_setOut]
  exact at_

/-- Why the estimate of a window is not taken: no closed loop, no current, or a value out of bounds (R279). -/
def State.refusesZ (s : State) (k : Nat) (r x den : Int) (re0 : Nat) : Bool :=
  !s.closedLoop k || decide (den ≤ 0) || !acceptedZ r x re0

theorem State.refusesZ_iff (s : State) (k : Nat) (r x den : Int) (re0 : Nat) : s.refusesZ k r x den re0 = true ↔
    (s.closedLoop k = false ∨ ¬ (0 < den ∧ 4 * (absNat x : Int) ≤ r ∧ (re0 : Int) ≤ 2 * r ∧ r ≤ 3 * (re0 : Int))) := by
  simp only [State.refusesZ, acceptedZ, Bool.or_eq_true, Bool.not_eq_true', decide_eq_true_eq, Bool.and_eq_false_iff,
    decide_eq_false_iff_not]
  rw [or_assoc]
  refine or_congr_right ?_
  rw [not_and_or, not_and_or, not_and_or, not_lt, or_assoc]

/-- The end of a resistance window (R279). -/
theorem State.resistance_eq {s : State} {k : Nat} {d : Demod} (hk : k < 16) (hd : (s.psOf k).window = some d) (re im : Int) :
    let z := d.impedance (s.fld (.ps k) Reg.Ps.VSNS_SCALE) (s.fld (.ps k) Reg.Ps.ISNS_SCALE)
    let r := openPart z.1 z.2.2 re
    let re0 := s.fld .protect (Reg.Protect.P_RE0 (s.fld (.out (s.psSource k)) Reg.Out.PROT_PROFILE))
    ∃ temp, s.resistance k re im = if s.refusesZ k r (openPart z.2.1 z.2.2 im) z.2.2 re0 then s.windowTaken k else
      ((s.windowTaken k).resistanceShown k (min r.toNat 0xFFFF)).coilMeasured (s.psSource k) temp := by
  have scale (f : Fld) (h : Apart Reg.Ps.STATE f) (h' : Apart Reg.Ps.FAULT_PIN f) :
      (s.windowTaken k).fld (.ps k) f = s.fld (.ps k) f := State.setPs_apart _ _ _ _ h h'
  have loop : (s.windowTaken k).closedLoop k = s.closedLoop k := s.setPs_closedLoop hk _
  intro z r re0
  subst z r
  unfold State.refusesZ
  rw [← loop, ← scale Reg.Ps.VSNS_SCALE (by decide) (by decide), ← scale Reg.Ps.ISNS_SCALE (by decide) (by decide)]
  unfold State.resistance
  dsimp only
  rw [hd]
  exact ⟨_, rfl⟩


theorem State.resistanceShown_lockUnd (s : State) (k r : Nat) : (s.resistanceShown k r).lockUnd = s.lockUnd := by
  have page (t : State) (f : Fld) (v : Nat) : (t.set (.ps k) f v).chainSetup 0 = t.chainSetup 0 :=
    t.set_chainSetup v 0 (ps_not_setupWords k f (by decide))
  refine State.lockUnd_eq (c := 0) ((State.setPs_chainSetup _ _ _ (by decide)).trans ?_)
  rw [page, page, page]

theorem resistanceWindow_answers_none {s : State} {k : Nat} (hk : k < s.model.pss) (hd : (s.psOf k).window = none)
    (re im : Int) : Answers (.resistanceWindow k re im) s (OnlyWords s · []) := by
  have nothing : s.resistance k re im = s := by
    unfold State.resistance
    dsimp only
    rw [hd]
  exact ⟨_, congrArg settle ((if_pos hk).trans nothing), s.settled_only⟩

/-- A window that gives no estimate, or none that is accepted (R279). -/
theorem resistanceWindow_answers_refused {s : State} {k : Nat} {d : Demod} (hp : k < s.model.pss) (hk : k < 16)
    (hd : (s.psOf k).window = some d) {re im : Int} {z : Int × Int × Int} {re0 : Nat}
    (hz : d.impedance (s.fld (.ps k) Reg.Ps.VSNS_SCALE) (s.fld (.ps k) Reg.Ps.ISNS_SCALE) = z)
    (h0 : s.fld .protect (Reg.Protect.P_RE0 (s.fld (.out (s.psSource k)) Reg.Out.PROT_PROFILE)) = re0)
    (refused : s.refusesZ k (openPart z.1 z.2.2 re) (openPart z.2.1 z.2.2 im) z.2.2 re0 = true) :
    Answers (.resistanceWindow k re im) s (fun t => t.psOf k = { s.psOf k with window := none } ∧ t.outs = s.outs ∧
      t.fld (.ps k) Reg.Ps.R_COIL = s.fld (.ps k) Reg.Ps.R_COIL ∧
      t.fld (.ps k) Reg.Ps.R_VALID = s.fld (.ps k) Reg.Ps.R_VALID) := by
  subst hz h0
  obtain ⟨temp, h⟩ := State.resistance_eq hk hd re im
  rw [if_pos refused] at h
  refine ⟨_, congrArg settle ((if_pos hp).trans h), ?_, ?_, ?_, ?_⟩
  · exact (State.psOf_settled _ _).trans (State.psOf_setPs _ _ _)
  · exact State.settled_outs _
  · exact (State.ps_fld_settled _ _ _).trans (State.setPs_apart _ _ _ _ (by decide) (by decide))
  · exact (State.ps_fld_settled _ _ _).trans (State.setPs_apart _ _ _ _ (by decide) (by decide))

/-- A window whose resistance is accepted, outside a LOCKSTEP understudy (R279, R280). -/
theorem resistanceWindow_answers_accepted {s : State} {k : Nat} {d : Demod} (hp : k < s.model.pss) (hk : k < 16)
    (hu : s.lockUnd = false) (hd : (s.psOf k).window = some d) {re im : Int} {z : Int × Int × Int} {re0 : Nat}
    (hz : d.impedance (s.fld (.ps k) Reg.Ps.VSNS_SCALE) (s.fld (.ps k) Reg.Ps.ISNS_SCALE) = z)
    (h0 : s.fld .protect (Reg.Protect.P_RE0 (s.fld (.out (s.psSource k)) Reg.Out.PROT_PROFILE)) = re0)
    (taken : s.refusesZ k (openPart z.1 z.2.2 re) (openPart z.2.1 z.2.2 im) z.2.2 re0 = false) :
    Answers (.resistanceWindow k re im) s (fun t =>
      t.fld (.ps k) Reg.Ps.R_COIL = min (openPart z.1 z.2.2 re).toNat 0xFFFF ∧ t.fld (.ps k) Reg.Ps.R_VALID = 1 ∧
      (t.psOf k).window = none ∧ (t.psOf k).rAt = some s.render.tick ∧
      (t.out (s.psSource k)).prot.measuredAt = some s.render.tick) := by
  subst hz h0
  obtain ⟨temp, h⟩ := State.resistance_eq hk hd re im
  rw [if_neg (by rw [taken]; decide)] at h
  have own : (s.windowTaken k).lockUnd = false :=
    (State.lockUnd_eq (c := 0) (State.setPs_chainSetup _ _ _ (by decide))).trans hu
  obtain ⟨coil, valid, engine⟩ := (s.windowTaken k).resistanceShown_shows k (Nat.min_le_right _ 0xFFFF)
  obtain ⟨page, channel, at_⟩ :=
    State.coilMeasured_shows ((State.resistanceShown_lockUnd _ k _).trans own) (s.psSource k) temp
  refine ⟨_, congrArg settle ((if_pos hp).trans h), ?_, ?_, ?_, ?_, ?_⟩
  · exact (State.ps_fld_settled _ _ _).trans ((page _ _).trans coil)
  · exact (State.ps_fld_settled _ _ _).trans ((page _ _).trans valid)
  · rw [State.psOf_settled, channel, engine, State.windowTaken, State.psOf_setPs]
  · rw [State.psOf_settled, channel, engine]
    rfl
  · rw [State.out_settled]
    exact at_

/-! THERMAL_PERSIST (R268) -/

end Sys2Proof.Machine

namespace Sys2Proof

/-- The keys of a canonical store lie above its bound. -/
theorem Map.lt_of_mem {α : Type} [DecidableEq α] {d : α} {m : Map α} {l : Nat} (h : Map.wfFrom d (some l) m = true) :
    ∀ e ∈ m, l < e.1 := by
  induction m generalizing l with
  | nil => nofun
  | cons e m ih =>
    obtain ⟨k, v⟩ := e
    simp only [Map.wfFrom, Bool.and_eq_true, decide_eq_true_eq] at h
    obtain ⟨⟨hl, -⟩, hm⟩ := h
    intro e he
    rcases List.mem_cons.mp he with rfl | he
    · exact hl
    · exact Nat.lt_trans hl (ih hm e he)

/-- Writes at other keys leave a key alone. -/
theorem Map.get_foldl_put_other {α β : Type} [DecidableEq β] (d : β) (f : α → β) {m : Map α} {n : Nat}
    (h : ∀ e ∈ m, n ≠ e.1) (c : Map β) :
    Map.get d n (m.foldl (fun c e => c.put d e.1 (f e.2)) c) = Map.get d n c :=
  Machine.foldl_keeps (Map.get d n ·) (fun c e he => Map.get_put_other _ _ _ _ (h e he) c) c

/-- The image of a canonical store, written entry by entry over a store that holds the image of the default. -/
theorem Map.get_foldl_put {α β : Type} [DecidableEq α] [DecidableEq β] (d : α) (d' : β) (f : α → β) (n : Nat) {m : Map α}
    {lo : Option Nat} (h : Map.wfFrom d lo m = true) {c : Map β} (hc : Map.get d' n c = f d) :
    Map.get d' n (m.foldl (fun c e => c.put d' e.1 (f e.2)) c) = f (Map.get d n m) := by
  induction m generalizing lo c with
  | nil => exact hc
  | cons e m ih =>
    obtain ⟨k, v⟩ := e
    simp only [Map.wfFrom, Bool.and_eq_true] at h
    obtain ⟨-, hm⟩ := h
    have beyond := Map.lt_of_mem hm
    rw [List.foldl_cons, Map.get_cons]
    rcases Nat.lt_trichotomy n k with hn | rfl | hn
    · rw [if_pos hn, Map.get_foldl_put_other _ _ (fun e he => Nat.ne_of_lt (Nat.lt_trans hn (beyond e he))),
        Map.get_put_other _ _ _ _ (Nat.ne_of_lt hn), hc]
    · rw [if_neg (Nat.lt_irrefl n), if_pos rfl, Map.get_foldl_put_other _ _ (fun e he => Nat.ne_of_lt (beyond e he)),
        Map.get_put_same]
    · rw [if_neg (Nat.not_lt.mpr (Nat.le_of_lt hn)), if_neg (Nat.ne_of_gt hn)]
      exact ih hm ((Map.get_put_other _ _ _ _ (Nat.ne_of_gt hn) _).trans hc)

end Sys2Proof

namespace Sys2Proof.Machine

open Sys2Proof

/-- What the copy holds of an output (R268). -/
def OutEngine.thermalCopy (e : OutEngine) : ThermalCopy :=
  { dVc := e.prot.dVc, dMag := e.prot.dMag, atten := e.prot.atten, therm := e.prot.therm }

theorem thermalPersist_answers {s : State} (h : Map.wf ({} : OutEngine) s.outs = true) : Answers .thermalPersist s (fun t =>
    (∀ n, Map.get ({} : ThermalCopy) n t.thermals = (s.out n).thermalCopy) ∧
    OnlyWords { s with thermals := t.thermals } t []) := by
  refine ⟨_, rfl, fun n => ?_, ?_⟩
  · rw [State.settled_thermals]
    exact Map.get_foldl_put ({} : OutEngine) {} OutEngine.thermalCopy n h (c := []) rfl
  · rw [State.settled_thermals]
    exact State.settled_only _

/-- Settles O41: the thermal copy; limit actions and the fault pin counted and latched; the stuck sense input; the end of a
carrier period; recovery, its retries and its end; and the resistance window. -/
theorem localChannels : Obligations.LocalChannels := by
  refine ⟨fun s h => thermalPersist_answers h, fun s k hp hk _ hu => ?_⟩
  refine ⟨fun i above hs hn => ⟨limitAction_answers_counted hp above hs hn, limitAction_answers_latched hp above hs hn⟩,
    fun i => limitAction_answers_within hp, fun low hs => faultPinLow_answers_idle hp hs low,
    faultPinLow_answers_latched hp, fun on => stuckSense_answers_kept hp, stuckSense_answers_latched hp,
    fun c peak hs hstart => carrierPeriodEnd_answers_idle hp hs hstart c peak,
    fun c peak hstart hr hf => carrierPeriodEnd_answers_started hp hstart hr hf c peak, recover_answers_recovering hp,
    recover_answers_refused hp, retryWaitEnd_answers, recovered_answers, fun at_ => attemptsClear_answers,
    resistanceWindow_answers_none hp, fun d re im hd => ⟨fun hl ha => ?taken, fun h => ?refused⟩⟩
  case taken =>
    refine resistanceWindow_answers_accepted hp hk hu hd rfl rfl ?_
    rw [Bool.eq_false_iff, ne_eq, State.refusesZ_iff, not_or, not_not, Bool.not_eq_false]
    exact ⟨hl, ha⟩
  case refused => exact resistanceWindow_answers_refused hp hk hd rfl rfl ((State.refusesZ_iff _ _ _ _ _ _).mpr h)

end Sys2Proof.Machine
end

section
/-! PROOFS. Ports: what events, counters and a replaced section leave in the registers of a page, and what of a receive
section's configuration they keep (R298, R312, R313). -/

namespace Sys2Proof.Machine

open Sys2Proof

/-! The registers of a page -/

/-- An event is a bit set in EVENTS; the mark of its recording in a mirrored region is no register (R46, R63). -/
theorem State.fld_event (s : State) (b b' : Blk) (i : Nat) (g : Fld) :
    (s.event b i).fld b' g = (s.set b Reg.Hdr.EVENTS (s.fld b Reg.Hdr.EVENTS ||| 2 ^ i)).fld b' g := by
  unfold State.event State.stick
  dsimp only
  split <;> rfl

theorem State.fld_event_apart (s : State) (b : Blk) (i : Nat) {g : Fld} (h : Apart Reg.Hdr.EVENTS g) :
    (s.event b i).fld b g = s.fld b g :=
  (s.fld_event b b i g).trans (s.fld_set_apart _ _ h)

/-- The event that is recorded reads 1, and those recorded before stay. -/
theorem State.event_testBit (s : State) (b : Blk) (i : Nat) {j : Nat} (h : j < 31) :
    ((s.event b i).fld b Reg.Hdr.EVENTS).testBit j = ((s.fld b Reg.Hdr.EVENTS).testBit j || decide (i = j)) := by
  have within : j < Reg.Hdr.EVENTS.width := h
  rw [State.fld_event, State.fld_set_same _ _ _ _ ⟨by decide, by decide⟩, Nat.testBit_mod_two_pow, Nat.testBit_or,
    Nat.testBit_two_pow, decide_eq_true within, Bool.true_and]

theorem State.fld_count_apart (s : State) (b : Blk) {f g : Fld} (n : Nat) (h : Apart f g) :
    (s.count b f n).fld b g = s.fld b g :=
  s.fld_set_apart _ _ h

/-- No word of a port's page is a status word. -/
theorem State.tdm_fld_settled (s : State) (k : Nat) (f : Fld) : s.settled.fld (.tdm k) f = s.fld (.tdm k) f :=
  s.settled_fld _ _ (statusWords_below (by simp only [Blk.base]; omega))

theorem State.aesRx_fld_settled (s : State) (k : Nat) (f : Fld) : s.settled.fld (.aesRx k) f = s.fld (.aesRx k) f :=
  s.settled_fld _ _ (statusWords_below (by simp only [Blk.base]; omega))

theorem State.aesTx_fld_settled (s : State) (k : Nat) (f : Fld) : s.settled.fld (.aesTx k) f = s.fld (.aesTx k) f :=
  s.settled_fld _ _ (statusWords_below (by simp only [Blk.base]; omega))

/-! A section replaced -/

@[simp] theorem State.port_setPort (s : State) (p : Port) (e : PortState) : (s.setPort p e).port p = e := by
  cases p with
  | tdmRx k => exact Map.get_put_same _ _ _ _
  | tdmTx k => exact Map.get_put_same _ _ _ _
  | aesRx k => exact congrArg AesState.port (Map.get_put_same _ _ _ _)

/-- The same stores, the same section. -/
theorem State.port_eq_of {s t : State} (hrx : t.tdmRx = s.tdmRx) (htx : t.tdmTx = s.tdmTx) (haes : t.aesRx = s.aesRx)
    (p : Port) : t.port p = s.port p := by
  cases p with
  | tdmRx k => exact congrArg (Map.get ({} : PortState) k) hrx
  | tdmTx k => exact congrArg (Map.get ({} : PortState) k) htx
  | aesRx k => exact congrArg (fun m => (Map.get ({} : AesState) k m).port) haes

@[simp] theorem State.port_set (s : State) (b : Blk) (f : Fld) (v : Nat) (p : Port) : (s.set b f v).port p = s.port p :=
  State.port_eq_of rfl rfl rfl p

@[simp] theorem State.port_count (s : State) (b : Blk) (f : Fld) (n : Nat) (p : Port) : (s.count b f n).port p = s.port p :=
  State.port_set _ _ _ _ _

@[simp] theorem State.port_event (s : State) (b : Blk) (i : Nat) (p : Port) : (s.event b i).port p = s.port p :=
  State.port_eq_of (s.event_tdmRx b i) (s.event_tdmTx b i) (s.event_aesRx b i) p

@[simp] theorem State.port_settled (s : State) (p : Port) : s.settled.port p = s.port p :=
  State.port_eq_of s.settled_tdmRx s.settled_tdmTx s.settled_aesRx p

/-- A section that is stored shows in the word of STATE and SYNC alone (R312, R313). -/
theorem State.setPort_word (s : State) (p : Port) (e : PortState) {w : Nat} (h : w ≠ (portBlk p).base + 0x100) :
    Map.get 0#32 w (s.setPort p e).fab.act = Map.get 0#32 w s.fab.act := by
  cases p with
  | tdmRx k =>
    exact (State.set_word _ _ Reg.Tdm.STATUS_RX_SYNC _ _ h).trans (State.set_word _ _ Reg.Tdm.STATUS_RX_STATE _ _ h)
  | tdmTx k =>
    exact (State.set_word _ _ Reg.Tdm.STATUS_TX_SYNC _ _ h).trans (State.set_word _ _ Reg.Tdm.STATUS_TX_STATE _ _ h)
  | aesRx k => exact State.set_word _ _ Reg.AesRx.STATE _ _ h

theorem State.setPort_fld (s : State) (p : Port) (e : PortState) {b : Blk} {g : Fld}
    (h : b.base + g.off ≠ (portBlk p).base + 0x100) : (s.setPort p e).fld b g = s.fld b g := by
  simp only [State.fld, regGet, s.setPort_word p e h]

theorem State.setPort_tdmRx_fld (s : State) (k : Nat) (e : PortState) {g : Fld} (h : g.off ≠ 0x100) :
    (s.setPort (.tdmRx k) e).fld (.tdm k) g = s.fld (.tdm k) g :=
  s.setPort_fld _ _ (fun he => h (Nat.add_left_cancel he))

theorem State.setPort_aesRx_fld (s : State) (k : Nat) (e : PortState) {g : Fld} (h : g.off ≠ 0x100) :
    (s.setPort (.aesRx k) e).fld (.aesRx k) g = s.fld (.aesRx k) g :=
  s.setPort_fld _ _ (fun he => h (Nat.add_left_cancel he))

theorem State.setPort_rxState (s : State) (k : Nat) (e : PortState) :
    (s.setPort (.tdmRx k) e).fld (.tdm k) Reg.Tdm.STATUS_RX_STATE = portCode e.phase := by
  have code : portCode e.phase < 2 ^ Reg.Tdm.STATUS_RX_STATE.width := by cases e.phase <;> decide
  have shown := State.fld_set_same { s with tdmRx := s.tdmRx.put ({} : PortState) k e } (.tdm k) Reg.Tdm.STATUS_RX_STATE
    (portCode e.phase) ⟨by decide, by decide⟩
  exact (State.fld_set_apart _ _ _ (by decide)).trans (shown.trans (Nat.mod_eq_of_lt code))

theorem State.setPort_rxSync (s : State) (k : Nat) (e : PortState) :
    (s.setPort (.tdmRx k) e).fld (.tdm k) Reg.Tdm.STATUS_RX_SYNC = if e.sync then 1 else 0 := by
  refine (State.fld_set_same _ _ _ _ ⟨by decide, by decide⟩).trans ?_
  cases e.sync <;> rfl

/-! The configuration of a receive section -/

theorem tdm_lt_of_hasPort {s : State} {k : Nat} (h : s.hasPort (.tdmRx k) = true) : k < 16 := by
  have most : s.model.tdms ≤ 16 := by cases s.model <;> decide
  exact Nat.lt_of_lt_of_le (of_decide_eq_true h) most

/-- What the configuration says of a receive section: its ASRC, its slots, its frame, whether it is a MEDIA master at the
render rate (R295), and that rate. -/
def State.rxConfig (s : State) (k : Nat) : Bool × Nat × (Nat × Nat) × Bool × Nat :=
  (s.portAsrc (.tdmRx k), s.portSlots (.tdmRx k), s.portFrame (.tdmRx k), s.mediaSync (.tdmRx k), s.fs)

/-- It is read from the words of RX_CFG and of the render's CFG. -/
theorem State.rxConfig_eq_of {s t : State} {k : Nat}
    (cfg : ∀ g : Fld, g.off = 0x40 → t.fld (.tdm k) g = s.fld (.tdm k) g)
    (rate : t.fld .render Reg.Render.CFG_RATE = s.fld .render Reg.Render.CFG_RATE) : t.rxConfig k = s.rxConfig k := by
  have bit (g : Fld) (hg : g.off = 0x40) : t.bit (.tdm k) g = s.bit (.tdm k) g :=
    congrArg (fun x => decide (x ≠ 0)) (cfg g hg)
  have fs : t.fs = s.fs := by
    unfold State.fs
    simp only [rate]
  have slots : t.portSlots (.tdmRx k) = s.portSlots (.tdmRx k) := congrArg (· + 1) (cfg Reg.Tdm.RX_CFG_SLOTS rfl)
  have frame : t.portFrame (.tdmRx k) = s.portFrame (.tdmRx k) := by
    simp only [State.portFrame, slots, portBlk, portPick, cfg Reg.Tdm.RX_CFG_WIDTH rfl, cfg Reg.Tdm.RX_CFG_DATA_BITS rfl]
  have media : t.portMedia (.tdmRx k) = s.portMedia (.tdmRx k) :=
    congrArg₂ (fun master source => master && decide (source = 0)) (bit Reg.Tdm.RX_CFG_MASTER rfl)
      (cfg Reg.Tdm.RX_CFG_CLKSRC rfl)
  have divider : t.portDivider (.tdmRx k) = s.portDivider (.tdmRx k) := congrArg (· + 1) (cfg Reg.Tdm.RX_CFG_BCLK_DIV rfl)
  have bits : t.fs * (t.portDivider (.tdmRx k) * (t.portFrame (.tdmRx k)).1) =
      s.fs * (s.portDivider (.tdmRx k) * (s.portFrame (.tdmRx k)).1) := by rw [fs, divider, frame]
  have sync : t.mediaSync (.tdmRx k) = s.mediaSync (.tdmRx k) :=
    congrArg₂ (fun m x => m && decide (x = 49152000)) media bits
  have asrc : t.portAsrc (.tdmRx k) = s.portAsrc (.tdmRx k) := bit Reg.Tdm.RX_CFG_ASRC rfl
  simp only [State.rxConfig, asrc, slots, frame, sync, fs]

theorem State.set_rxConfig (s : State) {k : Nat} (hk : k < 16) {f : Fld} (v : Nat) (hf : f.off ≠ 0x40) (hl : f.off < 0x1000) :
    (s.set (.tdm k) f v).rxConfig k = s.rxConfig k := by
  refine State.rxConfig_eq_of (fun g hg => ?_) ?_
  · exact s.fld_set_apart _ _ (.inl (hg ▸ hf))
  · exact s.fld_set_word _ _ _ _ _ (by simp only [Blk.base, Reg.Render.CFG_RATE]; omega)

theorem State.event_rxConfig (s : State) {k : Nat} (hk : k < 16) (i : Nat) :
    (s.event (.tdm k) i).rxConfig k = s.rxConfig k :=
  (State.rxConfig_eq_of (fun g _ => s.fld_event _ _ i g) (s.fld_event _ _ i _)).trans
    (s.set_rxConfig hk _ (by decide) (by decide))

theorem State.setPort_rxConfig (s : State) {k : Nat} (hk : k < 16) (e : PortState) :
    (s.setPort (.tdmRx k) e).rxConfig k = s.rxConfig k := by
  refine State.rxConfig_eq_of (fun g hg => s.setPort_tdmRx_fld k e (by omega)) (s.setPort_fld _ _ ?_)
  simp only [portBlk, Blk.base, Reg.Render.CFG_RATE]
  omega

/-- The parts of an equal configuration. -/
theorem State.rxConfig_parts {s t : State} {k : Nat} (h : t.rxConfig k = s.rxConfig k) :
    t.portAsrc (.tdmRx k) = s.portAsrc (.tdmRx k) ∧ t.portSlots (.tdmRx k) = s.portSlots (.tdmRx k) ∧
      t.portFrame (.tdmRx k) = s.portFrame (.tdmRx k) ∧ t.mediaSync (.tdmRx k) = s.mediaSync (.tdmRx k) ∧ t.fs = s.fs := by
  simpa only [State.rxConfig, Prod.mk.injEq] using h

end Sys2Proof.Machine
end

section
/-! PROOFS. TDM receive sections: their locking, their synchrony, their stops and their measured rates (R295, R297, R300 to
R302, R312). -/

namespace Sys2Proof.Machine

open Sys2Proof

/-! SYNC lost and the rate shown -/

@[simp] theorem State.port_syncLost (s : State) (k : Nat) : (s.syncLost (.tdmRx k)).port (.tdmRx k) =
    { s.port (.tdmRx k) with sync := false, phase0 := none } := by
  have lost := s.port_setPort (.tdmRx k) { s.port (.tdmRx k) with sync := false, phase0 := none }
  exact (when_keeps (State.port · (.tdmRx k)) (State.port_event _ _ _ _)).trans lost

theorem State.syncLost_fld (s : State) (k : Nat) {g : Fld} (h : g.off ≠ 0x100) (he : Apart Reg.Hdr.EVENTS g) :
    (s.syncLost (.tdmRx k)).fld (.tdm k) g = s.fld (.tdm k) g :=
  (when_keeps (State.fld · (.tdm k) g) (State.fld_event_apart _ _ _ he)).trans (s.setPort_tdmRx_fld k _ h)

@[simp] theorem State.port_showRate (s : State) (k rate : Nat) :
    (s.showRate (.tdmRx k) rate).port (.tdmRx k) = s.port (.tdmRx k) :=
  (when_keeps (State.port · (.tdmRx k)) (State.port_set _ _ _ _ _)).trans (State.port_set _ _ _ _ _)

/-- RX_RATE, and RX_RATIO of a section in ASRC use (R297). -/
theorem State.showRate_tdmRx (s : State) (k rate : Nat) : s.showRate (.tdmRx k) rate =
    let t := s.set (.tdm k) Reg.Tdm.RX_RATE rate
    if t.portAsrc (.tdmRx k) then t.set (.tdm k) Reg.Tdm.RX_RATIO (portRatio t.fs rate).1 else t := rfl

theorem State.showRate_rate (s : State) (k rate : Nat) :
    (s.showRate (.tdmRx k) rate).fld (.tdm k) Reg.Tdm.RX_RATE = rate % 2 ^ Reg.Tdm.RX_RATE.width := by
  rw [State.showRate_tdmRx]
  exact (when_keeps (State.fld · (.tdm k) Reg.Tdm.RX_RATE) (State.fld_set_apart _ _ _ (by decide))).trans
    (State.fld_set_same s (.tdm k) Reg.Tdm.RX_RATE rate ⟨by decide, by decide⟩)

theorem State.showRate_rxConfig (s : State) {k : Nat} (hk : k < 16) (rate : Nat) :
    (s.showRate (.tdmRx k) rate).rxConfig k = s.rxConfig k := by
  rw [State.showRate_tdmRx]
  exact (when_keeps (State.rxConfig · k) (State.set_rxConfig _ hk _ (by decide) (by decide))).trans
    (s.set_rxConfig hk (f := Reg.Tdm.RX_RATE) rate (by decide) (by decide))

/-! STOP (R300) -/

/-- A section that is off or unlocked does not stop. -/
theorem State.stop1_idle {s : State} {p : Port} (h : (s.port p).phase = .off ∨ (s.port p).phase = .unlocked) :
    s.stop1 p = s :=
  if_pos (by simpa only [Bool.or_eq_true, decide_eq_true_eq] using h)

/-- A locked section that stops: it is unlocked, unsynchronous and filled by reflection, its gain goes to 0, and the stop is
counted with event 0 (R300). -/
theorem State.stop1_shape {s : State} {k : Nat} (h : (s.port (.tdmRx k)).phase = .locked) : ∃ e : PortState,
    s.stop1 (.tdmRx k) =
      (((s.syncLost (.tdmRx k)).setPort (.tdmRx k) e).count (.tdm k) Reg.Tdm.RX_STOPS).event (.tdm k) 0 ∧
    e.phase = .unlocked ∧ e.filling = true ∧ e.sync = false ∧
    ((s.port (.tdmRx k)).filling = false → (s.port (.tdmRx k)).env.flip = none → e.env.to_ = 0) := by
  have active : ¬ ((s.port (.tdmRx k)).phase = .off || (s.port (.tdmRx k)).phase = .unlocked) = true := by
    rw [h]
    decide
  refine ⟨_, if_neg active, rfl, rfl, congrArg PortState.sync (s.port_syncLost k), fun hf hn => ?_⟩
  have fades (g : GainStage) (i n : Nat) (hg : g.flip = none) : (g.retarget i 0 n).to_ = 0 := by
    simp only [GainStage.retarget, hg]
  simp only [hf, Bool.false_eq_true, if_false, fades _ _ _ hn]

theorem State.stop1_stops {s : State} {k : Nat} (h : (s.port (.tdmRx k)).phase = .locked) :
    let p := Port.tdmRx k
    let t := s.stop1 p
    (t.port p).phase = .unlocked ∧ (t.port p).filling = true ∧ (t.port p).sync = false ∧
      ((s.port p).filling = false → (s.port p).env.flip = none → (t.port p).env.to_ = 0) ∧
      t.fld (.tdm k) Reg.Tdm.STATUS_RX_STATE = 1 ∧
      t.fld (.tdm k) Reg.Tdm.RX_STOPS = (s.fld (.tdm k) Reg.Tdm.RX_STOPS + 1) % 2 ^ Reg.Tdm.RX_STOPS.width ∧
      (t.fld (.tdm k) Reg.Hdr.EVENTS).testBit 0 = true := by
  obtain ⟨e, stops, phase, filling, sync, fades⟩ := State.stop1_shape h
  dsimp only
  rw [stops]
  simp only [State.port_event, State.port_count, State.port_setPort]
  refine ⟨phase, filling, sync, fades, ?_, ?_, ?_⟩
  · simp (disch := decide) only [State.fld_event_apart, State.fld_count_apart, State.setPort_rxState, phase]
    rfl
  · rw [State.fld_event_apart _ _ _ (by decide), State.fld_count_same _ _ ⟨by decide, by decide⟩,
      State.setPort_tdmRx_fld _ _ _ (by decide), State.syncLost_fld _ _ (by decide) (by decide)]
  · simp (disch := decide) only [State.event_testBit, decide_true, Bool.or_true]

theorem stop_answers_none {s : State} {k : Nat} (h : (s.port (.tdmRx k)).phase = .off ∨
    (s.port (.tdmRx k)).phase = .unlocked ∨ s.stopDue (.tdmRx k) = false) :
    Answers (.stop (.tdmRx k)) s (OnlyWords s · []) := by
  have stays : (if s.hasPort (.tdmRx k) && s.stopDue (.tdmRx k) then s.portStop (.tdmRx k) else s) = s := by
    rcases or_assoc.mpr h with idle | early
    · exact (congrArg (ite _ · s) (State.stop1_idle idle)).trans (ite_self s)
    · rw [early, Bool.and_false]
      rfl
  exact ⟨_, congrArg settle stays, State.settled_only s⟩

theorem stop_answers_stopped {s : State} {k : Nat} (hp : s.hasPort (.tdmRx k) = true)
    (hl : (s.port (.tdmRx k)).phase = .locked) (due : s.stopDue (.tdmRx k) = true) :
    Answers (.stop (.tdmRx k)) s (fun t => (t.port (.tdmRx k)).phase = .unlocked ∧ (t.port (.tdmRx k)).filling = true ∧
      (t.port (.tdmRx k)).sync = false ∧
      ((s.port (.tdmRx k)).filling = false → (s.port (.tdmRx k)).env.flip = none → (t.port (.tdmRx k)).env.to_ = 0) ∧
      t.fld (.tdm k) Reg.Tdm.STATUS_RX_STATE = 1 ∧
      t.fld (.tdm k) Reg.Tdm.RX_STOPS = (s.fld (.tdm k) Reg.Tdm.RX_STOPS + 1) % 2 ^ Reg.Tdm.RX_STOPS.width ∧
      (t.fld (.tdm k) Reg.Hdr.EVENTS).testBit 0 = true) := by
  refine ⟨_, congrArg settle (if_pos (by rw [hp, due]; rfl)), ?_⟩
  simp only [State.port_settled, State.tdm_fld_settled]
  exact State.stop1_stops hl

/-! LOCKING (R297, R301) -/

/-- The section with a measured rate, which the registers show. -/
def State.rated (s : State) (k rate : Nat) : State :=
  (s.setPort (.tdmRx k) { s.port (.tdmRx k) with rate := rate }).showRate (.tdmRx k) rate

theorem State.port_rated (s : State) (k rate : Nat) :
    (s.rated k rate).port (.tdmRx k) = { s.port (.tdmRx k) with rate := rate } :=
  (State.port_showRate _ _ _).trans (State.port_setPort _ _ _)

theorem State.rated_rxConfig (s : State) {k : Nat} (hk : k < 16) (rate : Nat) : (s.rated k rate).rxConfig k = s.rxConfig k :=
  (State.showRate_rxConfig _ hk rate).trans (s.setPort_rxConfig hk _)

/-- A section in ASRC use after 64 good frames at a rate that it takes (R301). -/
theorem execLocking_asrc {s : State} {k rate : Nat} (hp : s.hasPort (.tdmRx k) = true)
    (hu : (s.port (.tdmRx k)).phase = .unlocked) (hg : 64 ≤ (s.port (.tdmRx k)).good) (ha : s.portAsrc (.tdmRx k) = true)
    (least : 8000 * 256 ≤ rate) (most : rate ≤ 192000 * 256) :
    let u := s.rated k rate
    execLocking (.tdmRx k) rate s = settle (if (portRatio s.fs rate).2 then
      u.setPort (.tdmRx k) { u.port (.tdmRx k) with phase := .locking } else u.event (.tdm k) 9) := by
  intro u
  obtain ⟨asrc, -, -, -, fs⟩ := State.rxConfig_parts (s.rated_rxConfig (tdm_lt_of_hasPort hp) rate)
  have takes : ¬ (!s.hasPort (.tdmRx k) || (s.port (.tdmRx k)).phase ≠ .unlocked || (s.port (.tdmRx k)).good < 64 ||
      !portAccepts (.tdmRx k) rate) = true := by
    simp [hp, hu, portAccepts, Nat.not_lt.mpr hg, least, most]
  refine (if_neg takes).trans ((if_pos (asrc.trans ha)).trans ?_)
  rw [apply_ite settle, ← fs]
  rfl

theorem locking_answers_locking {s : State} {k rate : Nat} (hp : s.hasPort (.tdmRx k) = true)
    (hu : (s.port (.tdmRx k)).phase = .unlocked) (hg : 64 ≤ (s.port (.tdmRx k)).good) (ha : s.portAsrc (.tdmRx k) = true)
    (least : 8000 * 256 ≤ rate) (most : rate ≤ 192000 * 256) (hr : (portRatio s.fs rate).2 = true) :
    Answers (.locking (.tdmRx k) rate) s (fun t =>
      t.port (.tdmRx k) = { s.port (.tdmRx k) with rate := rate, phase := .locking } ∧
      t.fld (.tdm k) Reg.Tdm.STATUS_RX_STATE = 2) := by
  refine ⟨_, (execLocking_asrc hp hu hg ha least most).trans (congrArg settle (if_pos hr)), ?_, ?_⟩
  · rw [State.port_settled, State.port_setPort, State.port_rated]
  · rw [State.tdm_fld_settled, State.setPort_rxState]
    rfl

theorem locking_answers_range {s : State} {k rate : Nat} (hp : s.hasPort (.tdmRx k) = true)
    (hu : (s.port (.tdmRx k)).phase = .unlocked) (hg : 64 ≤ (s.port (.tdmRx k)).good) (ha : s.portAsrc (.tdmRx k) = true)
    (least : 8000 * 256 ≤ rate) (most : rate ≤ 192000 * 256) (hr : (portRatio s.fs rate).2 = false) :
    Answers (.locking (.tdmRx k) rate) s (fun t => t.port (.tdmRx k) = { s.port (.tdmRx k) with rate := rate } ∧
      (t.fld (.tdm k) Reg.Hdr.EVENTS).testBit 9 = true) := by
  have range : ¬ (portRatio s.fs rate).2 = true := by
    rw [hr]
    decide
  refine ⟨_, (execLocking_asrc hp hu hg ha least most).trans (congrArg settle (if_neg range)), ?_, ?_⟩
  · rw [State.port_settled, State.port_event, State.port_rated]
  · simp (disch := decide) only [State.tdm_fld_settled, State.event_testBit, decide_true, Bool.or_true]

/-! LOCK and SYNC_ACQUIRE (R295, R301) -/

/-- A section that enters LOCKED: the rate at lock is its measured one, its synchrony stays, and event 1 is set; event 3 too
where it relocks after a large rate change (R301, R302). -/
theorem State.portLock_shape (s : State) (k : Nat) : ∃ e : PortState,
    s.portLock (.tdmRx k) = (if (s.port (.tdmRx k)).rateChange then
      ((s.setPort (.tdmRx k) e).event (.tdm k) 1).event (.tdm k) 3 else (s.setPort (.tdmRx k) e).event (.tdm k) 1) ∧
    e.phase = .locked ∧ e.lockRate = (s.port (.tdmRx k)).rate ∧ e.sync = (s.port (.tdmRx k)).sync :=
  ⟨_, rfl, rfl, rfl, rfl⟩

theorem State.portLock_locks (s : State) (k : Nat) :
    let t := s.portLock (.tdmRx k)
    (t.port (.tdmRx k)).phase = .locked ∧ (t.port (.tdmRx k)).lockRate = (s.port (.tdmRx k)).rate ∧
      (t.port (.tdmRx k)).sync = (s.port (.tdmRx k)).sync ∧ t.fld (.tdm k) Reg.Tdm.STATUS_RX_STATE = 3 ∧
      t.fld (.tdm k) Reg.Tdm.STATUS_RX_SYNC = (if (s.port (.tdmRx k)).sync then 1 else 0) ∧
      (t.fld (.tdm k) Reg.Hdr.EVENTS).testBit 1 = true := by
  obtain ⟨e, locks, phase, rate, sync⟩ := s.portLock_shape k
  dsimp only
  rw [locks]
  split <;>
    simp (disch := decide) only [State.port_event, State.port_setPort, State.fld_event_apart, State.setPort_rxState,
      State.setPort_rxSync, State.event_testBit, phase, rate, sync, portCode, decide_true, Bool.or_true, Bool.true_or, and_self]

theorem lock_answers {s : State} {k : Nat} (hp : s.hasPort (.tdmRx k) = true) (hl : (s.port (.tdmRx k)).phase = .locking) :
    Answers (.lock (.tdmRx k)) s (fun t => (t.port (.tdmRx k)).phase = .locked ∧
      (t.port (.tdmRx k)).lockRate = (s.port (.tdmRx k)).rate ∧ t.fld (.tdm k) Reg.Tdm.STATUS_RX_STATE = 3 ∧
      (t.fld (.tdm k) Reg.Hdr.EVENTS).testBit 1 = true) := by
  obtain ⟨phase, rate, -, state, -, flag⟩ := s.portLock_locks k
  refine ⟨_, if_pos ⟨hp, hl⟩, ?_⟩
  simp only [State.port_settled, State.tdm_fld_settled]
  exact ⟨phase, rate, state, flag⟩

/-- SYNC of an unsynchronous section whose frame sync has a phase: at once for a MEDIA master at the render rate, else after a
second at that rate (R295). -/
theorem execSyncAcquire_synced {s : State} {k : Nat} (hp : s.hasPort (.tdmRx k) = true) (hon : (s.port (.tdmRx k)).phase ≠ .off)
    (hs : (s.port (.tdmRx k)).sync = false) (h0 : (s.port (.tdmRx k)).phase0.isSome = true)
    (h : s.mediaSync (.tdmRx k) = true ∨ ((s.port (.tdmRx k)).rate = s.fs * 256 ∧
      (s.port (.tdmRx k)).since + s.second ≤ s.render.tick)) :
    let u := s.setPort (.tdmRx k) { s.port (.tdmRx k) with sync := true }
    execSyncAcquire (.tdmRx k) s =
      settle (if (s.port (.tdmRx k)).phase = .syncWait then u.portLock (.tdmRx k) else u) :=
  if_pos ⟨hp, rfl, hon, by rw [hs]; rfl, h0, h⟩

theorem syncAcquire_answers {s : State} {k : Nat} (hp : s.hasPort (.tdmRx k) = true) (hon : (s.port (.tdmRx k)).phase ≠ .off)
    (hs : (s.port (.tdmRx k)).sync = false) (h0 : (s.port (.tdmRx k)).phase0.isSome = true)
    (h : s.mediaSync (.tdmRx k) = true ∨ ((s.port (.tdmRx k)).rate = s.fs * 256 ∧
      (s.port (.tdmRx k)).since + s.second ≤ s.render.tick)) :
    Answers (.syncAcquire (.tdmRx k)) s (fun t => (t.port (.tdmRx k)).sync = true ∧
      t.fld (.tdm k) Reg.Tdm.STATUS_RX_SYNC = 1 ∧ (t.port (.tdmRx k)).phase =
        if (s.port (.tdmRx k)).phase = .syncWait then .locked else (s.port (.tdmRx k)).phase) := by
  refine ⟨_, execSyncAcquire_synced hp hon hs h0 h, ?_⟩
  simp only [State.port_settled, State.tdm_fld_settled]
  split
  · obtain ⟨phase, -, sync, -, shown, -⟩ :=
      (s.setPort (.tdmRx k) { s.port (.tdmRx k) with sync := true }).portLock_locks k
    rw [State.port_setPort] at sync shown
    exact ⟨sync, shown, phase⟩
  · rw [State.port_setPort, State.setPort_rxSync]
    exact ⟨rfl, rfl, rfl⟩

/-! RATE_MEASURE (R302) -/

/-- A locked section in ASRC use: a rate within 5 % of the one at lock is taken, a larger change stops it (R302). -/
theorem State.portMeasure_asrc {s : State} {k : Nat} (hl : (s.port (.tdmRx k)).phase = .locked)
    (ha : s.portAsrc (.tdmRx k) = true) (rate : Nat) :
    s.portMeasure (.tdmRx k) rate =
      if 20 * absNat ((rate : Int) - (s.port (.tdmRx k)).lockRate) ≤ (s.port (.tdmRx k)).lockRate then
        (if rate = (s.port (.tdmRx k)).rate then s else s.syncLost (.tdmRx k)).rated k rate
      else
        (s.stop1 (.tdmRx k)).setPort (.tdmRx k) { (s.stop1 (.tdmRx k)).port (.tdmRx k) with rateChange := true } := by
  unfold State.portMeasure
  simp only [hl, ha, if_true]
  rfl

theorem rateMeasure_answers_near {s : State} {k rate : Nat} (hp : s.hasPort (.tdmRx k) = true)
    (hl : (s.port (.tdmRx k)).phase = .locked) (ha : s.portAsrc (.tdmRx k) = true)
    (near : 20 * absNat ((rate : Int) - (s.port (.tdmRx k)).lockRate) ≤ (s.port (.tdmRx k)).lockRate) :
    Answers (.rateMeasure (.tdmRx k) rate) s (fun t =>
      t.port (.tdmRx k) = (if rate = (s.port (.tdmRx k)).rate then s.port (.tdmRx k)
        else { s.port (.tdmRx k) with rate := rate, sync := false, phase0 := none }) ∧
      t.fld (.tdm k) Reg.Tdm.RX_RATE = rate % 2 ^ Reg.Tdm.RX_RATE.width) := by
  have taken := (State.portMeasure_asrc hl ha rate).trans (if_pos near)
  refine ⟨_, congrArg settle ((if_pos hp).trans taken), ?_, ?_⟩
  · rw [State.port_settled, State.port_rated]
    by_cases same : rate = (s.port (.tdmRx k)).rate
    · simp only [if_pos same]
      rw [same]
    · simp only [if_neg same, State.port_syncLost]
  · exact (State.tdm_fld_settled _ _ _).trans (State.showRate_rate _ _ _)

theorem rateMeasure_answers_far {s : State} {k rate : Nat} (hp : s.hasPort (.tdmRx k) = true)
    (hl : (s.port (.tdmRx k)).phase = .locked) (ha : s.portAsrc (.tdmRx k) = true)
    (far : (s.port (.tdmRx k)).lockRate < 20 * absNat ((rate : Int) - (s.port (.tdmRx k)).lockRate)) :
    Answers (.rateMeasure (.tdmRx k) rate) s (fun t => (t.port (.tdmRx k)).phase = .unlocked ∧
      (t.port (.tdmRx k)).rateChange = true ∧ t.fld (.tdm k) Reg.Tdm.STATUS_RX_STATE = 1) := by
  have stops := (State.portMeasure_asrc hl ha rate).trans (if_neg (Nat.not_le.mpr far))
  obtain ⟨phase, -⟩ := State.stop1_stops hl
  refine ⟨_, congrArg settle ((if_pos hp).trans stops), ?_⟩
  simp only [State.port_settled, State.tdm_fld_settled, State.port_setPort, State.setPort_rxState, phase, portCode, and_self]

end Sys2Proof.Machine
end

section
/-! PROOFS. Frames of receive sections: what a good frame leaves in the history of a section and what a bad one counts (R294,
R299, R305); the statement on TDM sections. -/

namespace Sys2Proof.Machine

open Sys2Proof

/-! Good and bad frames -/

/-- A frame good in every channel, with no bad one before it to replace, joins the history (R299). -/
theorem PortState.take_frames {e : PortState} (hb : e.bads = 0) (hg : e.gaps = []) (asrc : Bool) (x : List Int) :
    (e.take asrc (x.map some)).frames = (x :: e.frames).take 256 := by
  have now (last : List Int) :
      (x.map some).zipIdx.map (fun (v, c) => v.getD (last.getD c 0)) = x := by
    rw [List.zipIdx_map, List.map_map]
    exact List.zipIdx_map_fst 0 x
  have mended (l : List (List Int)) : (x.map some).zipIdx.foldl (fun l (v, c) =>
      if v.isSome && 0 < e.gaps.getD c 0 + 0 then mendGap l c (e.gaps.getD c 0 + 0) else l) l = l :=
    foldl_keeps id (fun l a _ => if_neg (by simp [hg])) l
  simp only [PortState.take, hb, ite_self, List.replicate_zero, List.nil_append, now, mended]

/-- A bad frame ends the run of good ones, leaves the history, counts in BAD and sets event 2 (R299): of a section whose
counter is `f` on page `b`. -/
theorem State.badFrame_counts {s : State} {p : Port} {b : Blk} {f : Fld}
    (bad : s.badFrame p true = ((s.setPort p ((s.port p).note true)).count b f).event b 2)
    (kept : (s.setPort p ((s.port p).note true)).fld b f = s.fld b f) (hf : Fits f) (ha : Apart Reg.Hdr.EVENTS f) :
    let t := s.badFrame p true
    (t.port p).good = 0 ∧ (t.port p).frames = (s.port p).frames ∧ t.fld b f = (s.fld b f + 1) % 2 ^ f.width ∧
      (t.fld b Reg.Hdr.EVENTS).testBit 2 = true := by
  dsimp only
  rw [bad]
  simp only [State.port_event, State.port_count, State.port_setPort]
  refine ⟨rfl, rfl, ?_, ?_⟩
  · rw [State.fld_event_apart _ _ _ ha, State.fld_count_same _ _ hf, kept]
  · simp (disch := decide) only [State.event_testBit, decide_true, Bool.or_true]

theorem State.badFrame_tdmRx (s : State) (k : Nat) :
    let t := s.badFrame (.tdmRx k) true
    (t.port (.tdmRx k)).good = 0 ∧ (t.port (.tdmRx k)).frames = (s.port (.tdmRx k)).frames ∧
      t.fld (.tdm k) Reg.Tdm.RX_BAD = (s.fld (.tdm k) Reg.Tdm.RX_BAD + 1) % 2 ^ Reg.Tdm.RX_BAD.width ∧
      (t.fld (.tdm k) Reg.Hdr.EVENTS).testBit 2 = true :=
  State.badFrame_counts (b := .tdm k) (f := Reg.Tdm.RX_BAD) rfl (s.setPort_tdmRx_fld _ _ (by decide))
    ⟨by decide, by decide⟩ (by decide)

theorem State.badFrame_rxConfig (s : State) {k : Nat} (hk : k < 16) :
    (s.badFrame (.tdmRx k) true).rxConfig k = s.rxConfig k :=
  (State.event_rxConfig _ hk 2).trans
    ((State.set_rxConfig _ hk (f := Reg.Tdm.RX_BAD) _ (by decide) (by decide)).trans (s.setPort_rxConfig hk _))

/-! What the frame's phase and the masks leave alone -/

/-- The synchrony and the frames of a section: the good ones in a row, the history, and when the last one came. -/
def PortState.record (e : PortState) : Bool × Nat × List (List Int) × Nat × Nat × Option Nat :=
  (e.sync, e.good, e.frames, e.lastRsi, e.goodAt, e.edge)

/-- What a good frame of an unsynchronous section leaves as its history is left. -/
def State.frameView (s : State) (k : Nat) : (Bool × Nat × List (List Int) × Nat × Nat × Option Nat) × Nat ×
    (Bool × Nat × (Nat × Nat) × Bool × Nat) :=
  ((s.port (.tdmRx k)).record, s.fld (.tdm k) Reg.Tdm.RX_BAD, s.rxConfig k)

theorem State.setPort_frameView {s : State} {k : Nat} (hk : k < 16) (e : PortState) :
    (s.setPort (.tdmRx k) e).frameView k = (e.record, s.fld (.tdm k) Reg.Tdm.RX_BAD, s.rxConfig k) := by
  simp (disch := decide) only [State.frameView, State.port_setPort, State.setPort_tdmRx_fld, s.setPort_rxConfig hk]

theorem State.portPhase_frameView {s : State} {k : Nat} (hk : k < 16) (hs : (s.port (.tdmRx k)).sync = false) (phase : Nat) :
    (s.portPhase (.tdmRx k) phase).frameView k = s.frameView k := by
  have keeps (e : PortState) (he : e.record = (s.port (.tdmRx k)).record) :
      (s.setPort (.tdmRx k) e).frameView k = s.frameView k := by
    rw [State.setPort_frameView hk, he]
    rfl
  unfold State.portPhase
  dsimp only
  cases (s.port (.tdmRx k)).phase0 with
  | none => exact keeps _ rfl
  | some f =>
    have unsynced : ¬ (s.port (.tdmRx k)).sync = true := by
      rw [hs]
      decide
    exact (congrArg (State.frameView · k) (if_neg unsynced)).trans (when_keeps (State.frameView · k) (keeps _ rfl))

theorem State.portMasks_frameView {s : State} {k : Nat} (hk : k < 16) :
    (s.portMasks (.tdmRx k)).frameView k = s.frameView k :=
  ite_keeps (State.frameView · k) rfl (State.setPort_frameView hk _)

/-! TDM_FRAME -/

/-- The section with a good frame: one that filled its input while locked fades in again (R299, R300). -/
def State.received (s : State) (p : Port) (x : List (Option Int)) : PortState :=
  let e := (s.port p).note false
  let back := e.filling && decide (e.phase = .locked)
  let e := { e.take (s.portAsrc p) x with
    goodAt := s.render.tick, lastRsi := s.render.rsi, filling := e.filling && !back }
  if back then { e with env := e.env.retarget s.nextSample unity (s.portRamp p) } else e

theorem State.received_record {s : State} {p : Port} (hb : (s.port p).bads = 0) (hg : (s.port p).gaps = []) (x : List Int) :
    (s.received p (x.map some)).record = ((s.port p).sync, (s.port p).good + 1, (x :: (s.port p).frames).take 256,
      s.render.rsi, s.render.tick, (s.port p).edge) := by
  have frames := PortState.take_frames (e := (s.port p).note false) hb hg (s.portAsrc p) x
  rw [← show ((s.port p).note false).frames = (s.port p).frames from rfl, ← frames]
  exact ite_keeps PortState.record rfl rfl

/-- A frame of a receive section, good or bad, before a MEDIA master takes its synchrony from it. -/
def State.framed (s : State) (k bits : Nat) (pulse : Bool) (phase : Nat) (slots : List Int) : State :=
  let p := Port.tdmRx k
  let t := s.setPort p { s.port p with edge := some s.render.tick }
  let x := (List.range (t.portSlots p)).map (fun j => some (slots.getD j 0 * 2 ^ (32 - (t.portFrame p).2)))
  if bits = (t.portFrame p).1 && pulse then ((t.setPort p (t.received p x)).portPhase p phase).portMasks p
  else t.badFrame p true

/-- Of a section that is no MEDIA master at the render rate, that is all (R295). -/
theorem State.tdmFrame_eq_framed {s : State} {k bits phase : Nat} {pulse : Bool} {slots : List Int}
    (hon : (s.port (.tdmRx k)).phase ≠ .off)
    (hm : ((s.framed k bits pulse phase slots).rxConfig k) = s.rxConfig k) (h0 : s.mediaSync (.tdmRx k) = false) :
    s.tdmFrame (.tdmRx k) bits pulse phase slots = s.framed k bits pulse phase slots := by
  obtain ⟨-, -, -, media, -⟩ := State.rxConfig_parts hm
  have apart : ¬ ((s.framed k bits pulse phase slots).mediaSync (.tdmRx k) &&
      !((s.framed k bits pulse phase slots).port (.tdmRx k)).sync) = true := by
    rw [media, h0, Bool.false_and]
    decide
  exact (if_neg hon).trans (if_neg apart)

/-- A good frame of an unsynchronous section: its history and what else the frame leaves (R294, R295, R299). -/
theorem State.framed_good {s : State} {k bits : Nat} (hk : k < 16) (hs : (s.port (.tdmRx k)).sync = false)
    (hb : (s.port (.tdmRx k)).bads = 0) (hg : (s.port (.tdmRx k)).gaps = []) (good : bits = (s.portFrame (.tdmRx k)).1)
    (phase : Nat) (slots : List Int) :
    (s.framed k bits true phase slots).frameView k =
      ((false, (s.port (.tdmRx k)).good + 1, ((List.range (s.portSlots (.tdmRx k))).map (fun j =>
          slots.getD j 0 * 2 ^ (32 - (s.portFrame (.tdmRx k)).2)) :: (s.port (.tdmRx k)).frames).take 256,
        s.render.rsi, s.render.tick, some s.render.tick), s.fld (.tdm k) Reg.Tdm.RX_BAD, s.rxConfig k) := by
  let t := s.setPort (.tdmRx k) { s.port (.tdmRx k) with edge := some s.render.tick }
  have engine : t.port (.tdmRx k) = { s.port (.tdmRx k) with edge := some s.render.tick } := State.port_setPort _ _ _
  have config : t.rxConfig k = s.rxConfig k := s.setPort_rxConfig hk _
  obtain ⟨-, count, frame, -, -⟩ := State.rxConfig_parts config
  let x := (List.range (t.portSlots (.tdmRx k))).map (fun j => slots.getD j 0 * 2 ^ (32 - (t.portFrame (.tdmRx k)).2))
  let u := t.setPort (.tdmRx k) (t.received (.tdmRx k) (x.map some))
  have taken : s.framed k bits true phase slots = (u.portPhase (.tdmRx k) phase).portMasks (.tdmRx k) := by
    refine (if_pos ?_).trans ?_
    · exact (Bool.and_true _).trans (decide_eq_true (good.trans (congrArg Prod.fst frame).symm))
    · simp only [u, x, List.map_map]
      rfl
  have record := State.received_record (s := t) (p := .tdmRx k) (by rw [engine]; exact hb) (by rw [engine]; exact hg) x
  have unsynced : (u.port (.tdmRx k)).sync = false := by
    rw [State.port_setPort]
    exact (congrArg Prod.fst record).trans (by rw [engine]; exact hs)
  have bad : t.fld (.tdm k) Reg.Tdm.RX_BAD = s.fld (.tdm k) Reg.Tdm.RX_BAD := s.setPort_tdmRx_fld k _ (by decide)
  rw [taken, State.portMasks_frameView hk, State.portPhase_frameView hk unsynced, State.setPort_frameView hk, record, bad,
    config, engine]
  simp only [x, count, frame, hs]
  rfl

theorem tdmFrame_answers_good {s : State} {k bits phase : Nat} {slots : List Int} (hp : s.hasPort (.tdmRx k) = true)
    (hm : s.mediaSync (.tdmRx k) = false) (hu : (s.port (.tdmRx k)).phase = .unlocked)
    (hs : (s.port (.tdmRx k)).sync = false) (hb : (s.port (.tdmRx k)).bads = 0) (hg : (s.port (.tdmRx k)).gaps = [])
    (good : bits = (s.portFrame (.tdmRx k)).1) :
    Answers (.tdmFrame (.tdmRx k) bits true phase slots) s (fun t =>
      (t.port (.tdmRx k)).good = (s.port (.tdmRx k)).good + 1 ∧
      (t.port (.tdmRx k)).frames = ((List.range (s.portSlots (.tdmRx k))).map (fun j =>
        slots.getD j 0 * 2 ^ (32 - (s.portFrame (.tdmRx k)).2)) :: (s.port (.tdmRx k)).frames).take 256 ∧
      (t.port (.tdmRx k)).lastRsi = s.render.rsi ∧ (t.port (.tdmRx k)).goodAt = s.render.tick ∧
      (t.port (.tdmRx k)).edge = some s.render.tick ∧
      t.fld (.tdm k) Reg.Tdm.RX_BAD = s.fld (.tdm k) Reg.Tdm.RX_BAD) := by
  have view := State.framed_good (tdm_lt_of_hasPort hp) hs hb hg good phase slots
  simp only [State.frameView, PortState.record, Prod.mk.injEq] at view
  obtain ⟨⟨-, count, frames, rsi, at_, edge⟩, bad, config⟩ := view
  have framed := State.tdmFrame_eq_framed (by rw [hu]; decide) config hm
  refine ⟨_, congrArg settle ((if_pos hp).trans framed), ?_⟩
  simp only [State.port_settled, State.tdm_fld_settled]
  exact ⟨count, frames, rsi, at_, edge, bad⟩

theorem tdmFrame_answers_bad {s : State} {k bits phase : Nat} {pulse : Bool} {slots : List Int}
    (hp : s.hasPort (.tdmRx k) = true) (hm : s.mediaSync (.tdmRx k) = false) (hon : (s.port (.tdmRx k)).phase ≠ .off)
    (h : bits ≠ (s.portFrame (.tdmRx k)).1 ∨ pulse = false) :
    Answers (.tdmFrame (.tdmRx k) bits pulse phase slots) s (fun t => (t.port (.tdmRx k)).good = 0 ∧
      (t.port (.tdmRx k)).frames = (s.port (.tdmRx k)).frames ∧
      t.fld (.tdm k) Reg.Tdm.RX_BAD = (s.fld (.tdm k) Reg.Tdm.RX_BAD + 1) % 2 ^ Reg.Tdm.RX_BAD.width ∧
      (t.fld (.tdm k) Reg.Hdr.EVENTS).testBit 2 = true) := by
  have hk := tdm_lt_of_hasPort hp
  let t := s.setPort (.tdmRx k) { s.port (.tdmRx k) with edge := some s.render.tick }
  have config : t.rxConfig k = s.rxConfig k := s.setPort_rxConfig hk _
  obtain ⟨-, -, frame, -, -⟩ := State.rxConfig_parts config
  have refused : s.framed k bits pulse phase slots = t.badFrame (.tdmRx k) true := by
    refine if_neg ?_
    rw [Bool.and_eq_true, decide_eq_true_eq, frame]
    exact fun hg => h.elim (· hg.1) (fun hf => Bool.false_ne_true (hf.symm.trans hg.2))
  have framed : s.tdmFrame (.tdmRx k) bits pulse phase slots = t.badFrame (.tdmRx k) true :=
    (State.tdmFrame_eq_framed hon (by rw [refused, State.badFrame_rxConfig _ hk, config]) hm).trans refused
  obtain ⟨count, frames, bad, flag⟩ := t.badFrame_tdmRx k
  rw [State.port_setPort] at frames
  rw [State.setPort_tdmRx_fld _ _ _ (by decide)] at bad
  refine ⟨_, congrArg settle ((if_pos hp).trans framed), ?_⟩
  simp only [State.port_settled, State.tdm_fld_settled]
  exact ⟨count, frames, bad, flag⟩

/-- Settles O42: good and bad frames of a receive section, its stops, its locking, its synchrony and its measured rates. -/
theorem portSections : Obligations.PortSections := by
  refine ⟨fun s k bits phase pulse slots hp hm => ⟨fun hu hs hb hg good hpulse => ?_, tdmFrame_answers_bad hp hm⟩,
    fun s k hp => ⟨stop_answers_none, stop_answers_stopped hp, fun rate hu hg ha least most =>
      ⟨locking_answers_locking hp hu hg ha least most, locking_answers_range hp hu hg ha least most⟩,
      lock_answers hp, syncAcquire_answers hp, fun rate hl ha =>
      ⟨rateMeasure_answers_near hp hl ha, rateMeasure_answers_far hp hl ha⟩⟩⟩
  rw [hpulse]
  exact tdmFrame_answers_good hp hm hu hs hb hg good

end Sys2Proof.Machine
end

section
/-! PROOFS. AES3 receivers: their frames, their channel status and the return to audio (R299, R305 to R309). -/

namespace Sys2Proof.Machine

open Sys2Proof

/-! What the search for bursts and the copy of non-audio words leave alone -/

@[simp] theorem State.port_setAes (s : State) (k : Nat) (e : AesState) : (s.setAes k e).port (.aesRx k) = e.port :=
  congrArg AesState.port (Map.get_put_same _ _ _ _)

theorem State.fld_setAes (s : State) (k : Nat) (e : AesState) (b : Blk) (g : Fld) : (s.setAes k e).fld b g = s.fld b g := rfl

/-- A message of the module leaves the receivers alone (R419, R423). -/
theorem State.sdEvent_aesRx (s : State) (seat kind : Nat) (body : List Word) : (s.sdEvent seat kind body).aesRx = s.aesRx := by
  have frame (t : State) (type flags seq : Nat) (payload : List Word) (ack : Option Nat) :
      (t.sdFrame seat type flags seq payload ack).aesRx = t.aesRx := by
    unfold State.sdFrame
    dsimp only
    split
    · exact when_keeps State.aesRx rfl
    · rfl
  unfold State.sdEvent State.sdSend
  exact ite_keeps State.aesRx rfl (ite_keeps State.aesRx (frame _ _ _ _ _ _) rfl)

theorem State.port_naWord (s : State) (k : Nat) (w : Word) : (s.naWord k w).port (.aesRx k) = s.port (.aesRx k) := by
  have event (seat : Nat) : (s.sdEvent seat 3 [w]).port (.aesRx k) = s.port (.aesRx k) :=
    congrArg (fun m => (Map.get ({} : AesState) k m).port) (s.sdEvent_aesRx seat 3 [w])
  unfold State.naWord
  exact ite_keeps (State.port · (.aesRx k)) (event _) (ite_keeps (State.port · (.aesRx k)) rfl
    (ite_keeps (State.port · (.aesRx k)) (State.port_event _ _ _ _) (State.port_set _ _ _ _ _)))

theorem State.port_naCopy (s : State) (k x sub : Nat) : (s.naCopy k x sub).port (.aesRx k) = s.port (.aesRx k) :=
  when_keeps (State.port · (.aesRx k)) (State.port_naWord _ _ _)

theorem State.port_toNonAudio (s : State) (k source : Nat) :
    (s.toNonAudio k source).port (.aesRx k) = s.port (.aesRx k) := by
  refine ite_keeps (State.port · (.aesRx k)) rfl ?_
  simp only [State.port_event, State.port_set, State.port_setAes]
  rfl

theorem State.port_burst (s : State) (k x : Nat) : (s.burst k x).port (.aesRx k) = s.port (.aesRx k) :=
  ite_keeps (State.port · (.aesRx k)) ((State.port_toNonAudio _ _ _).trans (State.port_setAes _ _ _))
    (State.port_setAes _ _ _)

/-- Becoming non-audio shows in NONAUDIO, NA_SOURCE and the events (R308). -/
theorem State.toNonAudio_fld (s : State) (k source : Nat) {g : Fld} (h : Apart Reg.AesRx.NONAUDIO g)
    (h' : Apart Reg.AesRx.NA_SOURCE g) (he : Apart Reg.Hdr.EVENTS g) :
    (s.toNonAudio k source).fld (.aesRx k) g = s.fld (.aesRx k) g := by
  refine ite_keeps (State.fld · (.aesRx k) g) rfl ?_
  rw [State.fld_event_apart _ _ _ he, State.fld_set_apart _ _ _ h', State.fld_set_apart _ _ _ h, State.fld_setAes]

/-! AES3_FRAME -/

theorem State.badFrame_aesRx (s : State) (k : Nat) :
    let t := s.badFrame (.aesRx k) true
    (t.port (.aesRx k)).good = 0 ∧ (t.port (.aesRx k)).frames = (s.port (.aesRx k)).frames ∧
      t.fld (.aesRx k) Reg.AesRx.BAD = (s.fld (.aesRx k) Reg.AesRx.BAD + 1) % 2 ^ Reg.AesRx.BAD.width ∧
      (t.fld (.aesRx k) Reg.Hdr.EVENTS).testBit 2 = true :=
  State.badFrame_counts (b := .aesRx k) (f := Reg.AesRx.BAD) rfl (s.setPort_aesRx_fld _ _ (by decide))
    ⟨by decide, by decide⟩ (by decide)

theorem aes3Frame_answers_bad {s : State} {k : Nat} (hp : s.hasPort (.aesRx k) = true)
    (hon : (s.port (.aesRx k)).phase ≠ .off) (a b : Nat) (va vb : Bool) :
    Answers (.aes3Frame k true a b va vb) s (fun t => (t.port (.aesRx k)).good = 0 ∧
      (t.port (.aesRx k)).frames = (s.port (.aesRx k)).frames ∧
      t.fld (.aesRx k) Reg.AesRx.BAD = (s.fld (.aesRx k) Reg.AesRx.BAD + 1) % 2 ^ Reg.AesRx.BAD.width ∧
      (t.fld (.aesRx k) Reg.Hdr.EVENTS).testBit 2 = true) := by
  let t := s.setPort (.aesRx k) { s.port (.aesRx k) with edge := some s.render.tick }
  have discarded : s.aes3Frame k true a b va vb = t.badFrame (.aesRx k) true := (if_neg hon).trans (if_pos rfl)
  obtain ⟨count, frames, bad, flag⟩ := t.badFrame_aesRx k
  rw [State.port_setPort] at frames
  rw [State.setPort_aesRx_fld _ _ _ (by decide)] at bad
  refine ⟨_, congrArg settle ((if_pos hp).trans discarded), ?_⟩
  simp only [State.port_settled, State.aesRx_fld_settled]
  exact ⟨count, frames, bad, flag⟩

/-- A receiver with a good frame of two samples in its history. -/
def State.aesReceived (s : State) (k : Nat) (x : List (Option Int)) : PortState :=
  { ({ s.port (.aesRx k) with edge := some s.render.tick }.note false).take true x with
    goodAt := s.render.tick, lastRsi := s.render.rsi }

/-- Without validity muting a good frame is good in both channels; what follows it leaves the section alone (R305). -/
theorem State.aes3Frame_port {s : State} {k : Nat} (hon : (s.port (.aesRx k)).phase ≠ .off)
    (hm : s.bit (.aesRx k) Reg.AesRx.CTRL_VALIDITY_MUTE = false) (a b : Nat) (va vb : Bool) :
    (s.aes3Frame k false a b va vb).port (.aesRx k) =
      s.aesReceived k ([signed 24 (a % 2 ^ 24) * 256, signed 24 (b % 2 ^ 24) * 256].map some) := by
  let t := s.setPort (.aesRx k) { s.port (.aesRx k) with edge := some s.render.tick }
  have hears : t.bit (.aesRx k) Reg.AesRx.CTRL_VALIDITY_MUTE = false :=
    (congrArg (fun v => decide (v ≠ 0)) (s.setPort_aesRx_fld k _ (by decide))).trans hm
  have engine : t.port (.aesRx k) = { s.port (.aesRx k) with edge := some s.render.tick } := State.port_setPort _ _ _
  have followed (u : State) : ((((u.burst k a).naCopy k a 0).burst k b).naCopy k b 1).port (.aesRx k) = u.port (.aesRx k) := by
    rw [State.port_naCopy, State.port_burst, State.port_naCopy, State.port_burst]
  let mute := t.bit (.aesRx k) Reg.AesRx.CTRL_VALIDITY_MUTE
  let x := fun (v : Nat) (inv : Bool) => if mute && inv then none else some (signed 24 (v % 2 ^ 24) * 256)
  let e : PortState := { ((t.port (.aesRx k)).note false).take true [x a va, x b vb] with
    goodAt := s.render.tick, lastRsi := s.render.rsi }
  let u := if mute && (va || vb) then (t.setPort (.aesRx k) e).badFrame (.aesRx k) false else t.setPort (.aesRx k) e
  let w := (((u.burst k a).naCopy k a 0).burst k b).naCopy k b 1
  have frame : s.aes3Frame k false a b va vb = w.setAes k { w.aes k with sincePa := (w.aes k).sincePa + 1 } :=
    (if_neg hon).trans (if_neg Bool.false_ne_true)
  have heard : u = t.setPort (.aesRx k) e := if_neg (by
    rw [show mute = false from hears, Bool.false_and]
    exact Bool.false_ne_true)
  calc (s.aes3Frame k false a b va vb).port (.aesRx k)
      = w.port (.aesRx k) := by
        rw [frame, State.port_setAes]
        rfl
    _ = e := by rw [followed, heard, State.port_setPort]
    _ = s.aesReceived k ([signed 24 (a % 2 ^ 24) * 256, signed 24 (b % 2 ^ 24) * 256].map some) := by
        simp only [e, x, mute, hears, Bool.false_and, Bool.false_eq_true, if_false, engine]
        rfl

theorem aes3Frame_answers_good {s : State} {k : Nat} (hp : s.hasPort (.aesRx k) = true)
    (hon : (s.port (.aesRx k)).phase ≠ .off) (hb : (s.port (.aesRx k)).bads = 0) (hg : (s.port (.aesRx k)).gaps = [])
    (hm : s.bit (.aesRx k) Reg.AesRx.CTRL_VALIDITY_MUTE = false) (a b : Nat) (va vb : Bool) :
    Answers (.aes3Frame k false a b va vb) s (fun t => (t.port (.aesRx k)).good = (s.port (.aesRx k)).good + 1 ∧
      (t.port (.aesRx k)).frames = ([signed 24 (a % 2 ^ 24) * 256, signed 24 (b % 2 ^ 24) * 256] ::
        (s.port (.aesRx k)).frames).take 256) := by
  refine ⟨_, congrArg settle (if_pos hp), ?_⟩
  simp only [State.port_settled, State.aes3Frame_port hon hm a b va vb]
  have frames := PortState.take_frames (e := ({ s.port (.aesRx k) with edge := some s.render.tick } : PortState).note false)
    hb hg true [signed 24 (a % 2 ^ 24) * 256, signed 24 (b % 2 ^ 24) * 256]
  exact ⟨rfl, frames⟩

/-! CS_BLOCK (R306 to R308) -/

/-- The word `i` of the channel status of subframe A or B. -/
def csField (sub : Bool) (i : Nat) : Fld := if sub then Reg.AesRx.CS_B i else Reg.AesRx.CS_A i

theorem csField_fits (sub : Bool) (i : Nat) : Fits (csField sub i) ∧ (csField sub i).width = 32 := by
  have whole : (0 + 32 ≤ 32 ∧ 0 < 2 ^ 32) ∧ 32 = 32 := by decide
  cases sub <;> exact whole

theorem csField_off (sub : Bool) (i : Nat) : (csField sub i).off = (if sub then 0x128 else 0x110) + 4 * i := by
  cases sub <;> rfl

theorem csField_off_gt (sub : Bool) (i : Nat) : 0x100 < (csField sub i).off := by
  rw [csField_off]
  split <;> omega

/-- Words written one by one into fields that lie apart: each field holds the word of its number. -/
theorem State.fld_foldl_set (b : Blk) {f : Nat → Fld} (hf : ∀ i, Fits (f i)) (apart : ∀ i j, i ≠ j → Apart (f i) (f j))
    (ws : List Word) (s : State) {i : Nat} (hi : i < ws.length) :
    (ws.zipIdx.foldl (fun s (w, i) => s.set b (f i) w.toNat) s).fld b (f i) = (ws.getD i 0#32).toNat % 2 ^ (f i).width := by
  induction ws using List.reverseRecOn with
  | nil => exact absurd hi (Nat.not_lt_zero i)
  | append_singleton ws w ih =>
    have last : [w].zipIdx ws.length = [(w, ws.length)] := rfl
    rw [List.zipIdx_append, Nat.zero_add, last, List.foldl_append, List.foldl_cons, List.foldl_nil]
    by_cases at_ : i = ws.length
    · rw [at_, State.fld_set_same _ _ _ _ (hf _), List.getD_append_right _ _ _ _ (Nat.le_refl _), Nat.sub_self]
      rfl
    · rw [List.length_append, List.length_singleton] at hi
      have before : i < ws.length := by omega
      rw [State.fld_set_apart _ _ _ (apart _ _ (Ne.symm at_)), ih before, List.getD_append _ _ _ _ before]

/-- The words of a block, shown. -/
def State.csTaken (s : State) (k : Nat) (sub : Bool) (bs : List Byte) : State :=
  (csWords bs).zipIdx.foldl (fun s (w, i) => s.set (.aesRx k) (csField sub i) w.toNat) s

theorem State.csTaken_word (s : State) (k : Nat) (sub : Bool) (bs : List Byte) {i : Nat} (hi : i < 6) :
    (s.csTaken k sub bs).fld (.aesRx k) (csField sub i) = ((csWords bs).getD i 0#32).toNat := by
  have apart (i j : Nat) (h : i ≠ j) : Apart (csField sub i) (csField sub j) :=
    .inl (by rw [csField_off, csField_off]; omega)
  refine (State.fld_foldl_set _ (fun i => (csField_fits sub i).1) apart _ s hi).trans ?_
  rw [(csField_fits sub i).2]
  exact Nat.mod_eq_of_lt (BitVec.isLt _)

/-- A consumer block: its words, event 6 where one of them is new, CS_CRC_ERR and CONSUMER, and then EMPH and NONAUDIO, of
which the rest of the page's registers but EVENTS knows nothing (R306 to R308). -/
theorem State.csBlock_consumer_fld {s : State} {k : Nat} (hon : (s.port (.aesRx k)).phase ≠ .off) {bs : List Byte}
    (hc : leAt bs 0 1 % 2 = 0) (sub : Bool) :
    ∃ u : State, (u = s.csTaken k sub bs ∨ u = (s.csTaken k sub bs).event (.aesRx k) 6) ∧
      ∀ g, Apart Reg.AesRx.EMPH g → Apart Reg.AesRx.NONAUDIO g → Apart Reg.AesRx.NA_SOURCE g → Apart Reg.Hdr.EVENTS g →
        (s.csBlock k sub bs).fld (.aesRx k) g =
          ((u.set (.aesRx k) Reg.AesRx.CS_CRC_ERR 0).setBit (.aesRx k) Reg.AesRx.CONSUMER true).fld (.aesRx k) g := by
  let same := (csWords bs).zipIdx.all (fun (w, i) => s.fld (.aesRx k) (csField sub i) = w.toNat)
  refine ⟨if same then s.csTaken k sub bs else (s.csTaken k sub bs).event (.aesRx k) 6, ite_eq_or_eq _ _ _,
    fun g emph na source event => ?_⟩
  have valid : ¬ (!decide (leAt bs 0 1 % 2 = 0) && decide (bs.getD 23 0 ≠ crcc bs)) = true := by
    rw [decide_eq_true hc]
    exact Bool.false_ne_true
  unfold State.csBlock
  dsimp only
  rw [if_neg hon, if_neg valid]
  refine (when_keeps (State.fld · (.aesRx k) g) (State.toNonAudio_fld _ _ _ na source event)).trans ?_
  rw [State.fld_setAes, State.fld_set_apart _ _ _ emph, decide_eq_true hc]
  rfl

theorem csBlock_answers_consumer {s : State} {k : Nat} (hp : s.hasPort (.aesRx k) = true)
    (hon : (s.port (.aesRx k)).phase ≠ .off) (sub : Bool) {bs : List Byte} (hc : leAt bs 0 1 % 2 = 0) :
    Answers (.csBlock k sub bs) s (fun t =>
      (∀ i, i < 6 → t.fld (.aesRx k) (if sub then Reg.AesRx.CS_B i else Reg.AesRx.CS_A i) =
        ((csWords bs).getD i 0#32).toNat) ∧
      t.fld (.aesRx k) Reg.AesRx.CONSUMER = 1 ∧ t.fld (.aesRx k) Reg.AesRx.CS_CRC_ERR = 0) := by
  obtain ⟨u, taken, shown⟩ := State.csBlock_consumer_fld hon hc sub
  refine ⟨_, congrArg settle (if_pos hp), ?_⟩
  simp only [State.aesRx_fld_settled]
  refine ⟨fun i hi => ?_, ?_, ?_⟩
  · have apart (f : Fld) (h : f.off ≤ 0x100) : Apart f (csField sub i) :=
      .inl (Nat.ne_of_lt (Nat.lt_of_le_of_lt h (csField_off_gt sub i)))
    have word : u.fld (.aesRx k) (csField sub i) = (s.csTaken k sub bs).fld (.aesRx k) (csField sub i) := by
      rcases taken with rfl | rfl
      · rfl
      · exact State.fld_event_apart _ _ _ (apart _ (by decide))
    exact (shown _ (apart _ (by decide)) (apart _ (by decide)) (apart _ (by decide)) (apart _ (by decide))).trans
      ((State.fld_set_apart _ _ _ (apart _ (by decide))).trans ((State.fld_set_apart _ _ _ (apart _ (by decide))).trans
        (word.trans (s.csTaken_word k sub bs hi))))
  · rw [shown _ (by decide) (by decide) (by decide) (by decide)]
    exact State.fld_set_same _ _ _ _ ⟨by decide, by decide⟩
  · rw [shown _ (by decide) (by decide) (by decide) (by decide)]
    exact (State.fld_set_apart _ _ _ (by decide)).trans (State.fld_set_same _ _ _ _ ⟨by decide, by decide⟩)

theorem csBlock_answers_crc {s : State} {k : Nat} (hp : s.hasPort (.aesRx k) = true)
    (hon : (s.port (.aesRx k)).phase ≠ .off) (sub : Bool) {bs : List Byte} (hpro : leAt bs 0 1 % 2 = 1)
    (wrong : bs.getD 23 0 ≠ crcc bs) : Answers (.csBlock k sub bs) s (fun t =>
      t.fld (.aesRx k) Reg.AesRx.CS_CRC_ERR = 1 ∧ OnlyWords s t [wordAt (.aesRx k) Reg.AesRx.CS_CRC_ERR]) := by
  have fails : (!decide (leAt bs 0 1 % 2 = 0) && decide (bs.getD 23 0 ≠ crcc bs)) = true := by
    rw [hpro, decide_eq_true wrong]
    rfl
  refine ⟨_, congrArg settle ((if_pos hp).trans ((if_neg hon).trans (if_pos fails))), ?_, (OnlyWords.set s _ _ _).settled⟩
  exact (State.aesRx_fld_settled _ _ _).trans (State.fld_set_same _ _ _ _ ⟨by decide, by decide⟩)

/-! AUDIO (R308) -/

theorem audio_answers {s : State} {k : Nat} (hp : s.hasPort (.aesRx k) = true)
    (hn : s.bit (.aesRx k) Reg.AesRx.NONAUDIO = true) (ha : (s.aes k).naA = false) (hb : (s.aes k).naB = false)
    (since : 8192 ≤ (s.aes k).sincePa) : Answers (.audio k) s (fun t => t.fld (.aesRx k) Reg.AesRx.NONAUDIO = 0 ∧
      (t.fld (.aesRx k) Reg.Hdr.EVENTS).testBit 5 = true) := by
  refine ⟨_, if_pos ⟨hp, hn, by rw [ha]; rfl, by rw [hb]; rfl, since⟩, ?_, ?_⟩
  · rw [State.aesRx_fld_settled, State.fld_event_apart _ _ _ (by decide)]
    exact State.fld_set_same _ _ _ _ ⟨by decide, by decide⟩
  · simp (disch := decide) only [State.aesRx_fld_settled, State.event_testBit, decide_true, Bool.or_true]

end Sys2Proof.Machine
end

section
/-! PROOFS. AES3 transmitters and the clock inputs (R310, R311); the statement on both and on AES3 receivers. -/

namespace Sys2Proof.Machine

open Sys2Proof

/-! CS_APPLIED -/

/-- The channel status to send is read from the configuration of the transmitter and the rate of the render (R310): not from
CS_BLOCKS. -/
theorem State.csToSend_count (s : State) (k : Nat) (hk : k < 8) :
    (s.count (.aesTx k) Reg.AesTx.CS_BLOCKS).csToSend k = s.csToSend k := by
  let t := s.count (.aesTx k) Reg.AesTx.CS_BLOCKS
  have kept (g : Fld) (h : g.off < 0x100) : t.fld (.aesTx k) g = s.fld (.aesTx k) g :=
    s.fld_count_apart _ _ (.inl (Nat.ne_of_gt (Nat.lt_of_lt_of_le h (by decide))))
  have auto : t.bit (.aesTx k) Reg.AesTx.CTRL_AUTO_RATE = s.bit (.aesTx k) Reg.AesTx.CTRL_AUTO_RATE :=
    congrArg (fun v => decide (v ≠ 0)) (kept _ (by decide))
  have rate : t.rateMul = s.rateMul := by
    unfold State.rateMul
    rw [show t.fld .render Reg.Render.CFG_RATE = s.fld .render Reg.Render.CFG_RATE from s.fld_set_word _ _ _ _ _
      (by simp only [Blk.base, Reg.Render.CFG_RATE, Reg.AesTx.CS_BLOCKS]; omega)]
  have bytes (f : Nat → Fld) (hf : ∀ i, i < 6 → (f i).off < 0x100) :
      (List.range 6).flatMap (fun i => bytesOf (BitVec.ofNat 32 (t.fld (.aesTx k) (f i)))) =
        (List.range 6).flatMap (fun i => bytesOf (BitVec.ofNat 32 (s.fld (.aesTx k) (f i)))) :=
    List.flatMap_congr (fun i hi => by rw [kept _ (hf i (List.mem_range.mp hi))])
  have a := bytes Reg.AesTx.CS_A (fun i hi => by simp only [Reg.AesTx.CS_A]; omega)
  have b := bytes Reg.AesTx.CS_B (fun i hi => by simp only [Reg.AesTx.CS_B]; omega)
  unfold State.csToSend
  dsimp only
  rw [a, b, auto, rate]

theorem csApplied_answers {s : State} {k : Nat} (hp : Blk.present s.model (.aesTx k) = true)
    (hon : s.bit (.aesTx k) Reg.AesTx.CTRL_EN = true) : Answers (.csApplied k) s (fun t =>
      (Map.get ({} : AesTxState) k t.aesTx).cs = s.csToSend k ∧
      t.fld (.aesTx k) Reg.AesTx.CS_BLOCKS = (s.fld (.aesTx k) Reg.AesTx.CS_BLOCKS + 1) % 2 ^ Reg.AesTx.CS_BLOCKS.width ∧
      ((Map.get ({} : AesTxState) k s.aesTx).cs ≠ s.csToSend k → (t.fld (.aesTx k) Reg.Hdr.EVENTS).testBit 0 = true)) := by
  have hk : k < 8 := by
    have most : s.model.aes ≤ 8 := by cases s.model <;> decide
    exact Nat.lt_of_lt_of_le (of_decide_eq_true hp) most
  let t := s.count (.aesTx k) Reg.AesTx.CS_BLOCKS
  let e := Map.get ({} : AesTxState) k s.aesTx
  have status : t.csToSend k = s.csToSend k := s.csToSend_count k hk
  have blocks : t.fld (.aesTx k) Reg.AesTx.CS_BLOCKS =
      (s.fld (.aesTx k) Reg.AesTx.CS_BLOCKS + 1) % 2 ^ Reg.AesTx.CS_BLOCKS.width :=
    s.fld_count_same _ ⟨by decide, by decide⟩ 1
  by_cases same : e.cs = t.csToSend k
  · refine ⟨_, (if_pos ⟨hp, hon⟩).trans (congrArg settle (if_pos same)), ?_⟩
    simp only [State.settled_aesTx, State.aesTx_fld_settled]
    exact ⟨same.trans status, blocks, fun changed => absurd (same.trans status) changed⟩
  · let u : State := { t with aesTx := t.aesTx.put ({} : AesTxState) k { e with cs := t.csToSend k } }
    refine ⟨(u.event (.aesTx k) 0).settled, (if_pos ⟨hp, hon⟩).trans (congrArg settle (if_neg same)), ?_⟩
    simp (disch := decide) only [State.settled_aesTx, State.event_aesTx, State.aesTx_fld_settled, State.fld_event_apart,
      State.event_testBit, decide_true, Bool.or_true]
    exact ⟨(congrArg AesTxState.cs (Map.get_put_same _ _ _ _)).trans status, blocks, fun _ => trivial⟩

/-! MCLKIN_MEASURE -/

theorem mclkinMeasure_answers (s : State) {ix : Nat} (h : ix < 2) (freq : Nat) : Answers (.mclkinMeasure ix freq) s (fun t =>
    t.fld .clocks (Reg.Clocks.MCLKIN_FREQ ix) =
      (if freq < 1000000 then 0 else freq) % 2 ^ (Reg.Clocks.MCLKIN_FREQ ix).width ∧
    OnlyWords s t [wordAt .clocks (Reg.Clocks.MCLKIN_FREQ ix)]) := by
  have live : ∀ i < 2, Fits (Reg.Clocks.MCLKIN_FREQ i) ∧ wordAt .clocks (Reg.Clocks.MCLKIN_FREQ i) ∉ statusWords := by
    unfold Fits
    decide
  obtain ⟨fits, apart⟩ := live ix h
  exact ⟨_, congrArg settle (if_pos h), (State.settled_fld _ _ _ apart).trans (s.fld_set_same _ _ _ fits),
    (OnlyWords.set s _ _ _).settled⟩

/-- Settles O43: good and bad AES3 frames, channel status received and sent, the return to audio, and the clock inputs. -/
theorem aesAndClocks : Obligations.AesAndClocks := by
  refine ⟨fun s k hp hon => ⟨aes3Frame_answers_bad hp hon,
      fun a b va vb hb hg hm => aes3Frame_answers_good hp hon hb hg hm a b va vb,
      fun sub bs => csBlock_answers_consumer hp hon sub, fun sub bs => csBlock_answers_crc hp hon sub, audio_answers hp⟩,
    fun s k => csApplied_answers, fun s ix freq h => mclkinMeasure_answers s h freq⟩

end Sys2Proof.Machine
end

section
/-! PROOFS. The Ethernet ports and the streams: what changes of the network side, of the statistics and of sticky bits leave
alone, and what they leave in their own registers (R46, R317, R344). -/

namespace Sys2Proof.Machine

open Sys2Proof

/-! Changes of the network side and of register words -/

/-- From `s` to `t` the network side changes, and of the rest only the register words `ws`. -/
abbrev NetWords (s t : State) (ws : List Nat) : Prop := OnlyWords { s with net := t.net } t ws

theorem OnlyWords.net_eq {s t : State} {ws : List Nat} (h : OnlyWords s t ws) : t.net = s.net :=
  h.keeps State.net (fun _ _ => rfl)

theorem OnlyWords.eth_eq {s t : State} {ws : List Nat} (h : OnlyWords s t ws) (p : Nat) : t.eth p = s.eth p :=
  h.keeps (State.eth · p) (fun _ _ => rfl)

theorem OnlyWords.netWords {s t : State} {ws : List Nat} (h : OnlyWords s t ws) : NetWords s t ws := by
  unfold NetWords
  rw [h.net_eq]
  exact h

theorem OnlyWords.withNet {s t : State} {ws : List Nat} (h : OnlyWords s t ws) (m : Net) :
    OnlyWords { s with net := m } { t with net := m } ws :=
  ⟨congrArg (fun x : State => { x with net := m }) h.1, h.2⟩

theorem NetWords.trans {s t u : State} {ws : List Nat} (h : NetWords s t ws) (k : NetWords t u ws) : NetWords s u ws :=
  (h.withNet u.net).trans k

theorem NetWords.settled {s t : State} {ws : List Nat} (h : NetWords s t ws) : NetWords s t.settled ws :=
  h.trans (OnlyWords.settled (OnlyWords.refl t ws)).netWords

theorem NetWords.setEth (s : State) (p : Nat) (e : EthPort) (ws : List Nat) : NetWords s (s.setEth p e) ws :=
  OnlyWords.refl _ _

/-- What depends neither on the network side nor on active words is the same. -/
theorem NetWords.keeps {β : Type} {s t : State} {ws : List Nat} (h : NetWords s t ws) (view : State → β)
    (act : ∀ (r : State) (m : RegMap), view (r.withAct m) = view r)
    (net : ∀ (r : State) (m : Net), view { r with net := m } = view r) : view t = view s :=
  (OnlyWords.keeps h view act).trans (net s t.net)

theorem NetWords.fld_eq {s t : State} {ws : List Nat} (h : NetWords s t ws) {b : Blk} {f : Fld} (hw : wordAt b f ∉ ws)
    (hs : wordAt b f ∉ statusWords) : t.fld b f = s.fld b f :=
  OnlyWords.fld_eq h hw hs

/-! A port replaced -/

@[simp] theorem State.eth_setEth_same (s : State) (p : Nat) (e : EthPort) : (s.setEth p e).eth p = e :=
  Map.get_put_same _ _ _ _

@[simp] theorem State.fld_setEth (s : State) (p : Nat) (e : EthPort) (b : Blk) (f : Fld) :
    (s.setEth p e).fld b f = s.fld b f := rfl

@[simp] theorem State.bit_setEth (s : State) (p : Nat) (e : EthPort) (b : Blk) (f : Fld) :
    (s.setEth p e).bit b f = s.bit b f := rfl

@[simp] theorem State.eth_set (s : State) (b : Blk) (f : Fld) (v p : Nat) : (s.set b f v).eth p = s.eth p := rfl

@[simp] theorem State.eth_count (s : State) (b : Blk) (f : Fld) (n p : Nat) : (s.count b f n).eth p = s.eth p := rfl

@[simp] theorem State.eth_stick (s : State) (b : Blk) (f : Fld) (i p : Nat) : (s.stick b f i).eth p = s.eth p :=
  congrArg (fun m : Net => Map.get ({} : EthPort) p m.ports) (s.stick_net b f i)

@[simp] theorem State.eth_event (s : State) (b : Blk) (i p : Nat) : (s.event b i).eth p = s.eth p :=
  s.eth_stick b Reg.Hdr.EVENTS i p

@[simp] theorem State.eth_settled (s : State) (p : Nat) : s.settled.eth p = s.eth p :=
  congrArg (fun m : Net => Map.get ({} : EthPort) p m.ports) s.settled_net

@[simp] theorem EthPort.queue_setQueue_same (e : EthPort) (q : Nat) (l : List TxFrame) : (e.setQueue q l).queue q = l :=
  Map.get_put_same _ _ _ _

theorem EthPort.queue_setQueue_other (e : EthPort) {q r : Nat} (l : List TxFrame) (h : r ≠ q) :
    (e.setQueue q l).queue r = e.queue r :=
  Map.get_put_other _ _ _ _ h _

theorem State.eth_enqueue (s : State) (p q : Nat) (f : TxFrame) :
    (s.enqueue p q f).eth p = (s.eth p).setQueue q ((s.eth p).queue q ++ [f]) :=
  s.eth_setEth_same p _

/-! Where the pages and records lie -/

theorem ethMac_base (p : Nat) : (Blk.ethMac p).base = 0x040000 + 0x1000 * p := rfl

theorem ethCls_base (p : Nat) : (Blk.ethCls p).base = 0x044000 + 0x1000 * p := rfl

theorem ethGate_base (p : Nat) : (Blk.ethGate p).base = 0x048000 + 0x1000 * p := rfl

theorem ethStat_base (p : Nat) : (Blk.ethStat p).base = 0x04C000 + 0x1000 * p := rfl

theorem ingress_base (n : Nat) : (Blk.ingress n).base = 0x2400000 + 0x80 * n := rfl

theorem egress_base (n : Nat) : (Blk.egress n).base = 0x2500000 + 0x80 * n := rfl

/-- None of their words is a status word. -/
theorem State.ethMac_fld_settled (s : State) (p : Nat) (f : Fld) : s.settled.fld (.ethMac p) f = s.fld (.ethMac p) f :=
  s.settled_fld _ _ (statusWords_below (by rw [ethMac_base]; omega))

theorem State.ethCls_fld_settled (s : State) (p : Nat) (f : Fld) : s.settled.fld (.ethCls p) f = s.fld (.ethCls p) f :=
  s.settled_fld _ _ (statusWords_below (by rw [ethCls_base]; omega))

theorem State.ethGate_fld_settled (s : State) (p : Nat) (f : Fld) : s.settled.fld (.ethGate p) f = s.fld (.ethGate p) f :=
  s.settled_fld _ _ (statusWords_below (by rw [ethGate_base]; omega))

theorem State.ethStat_fld_settled (s : State) (p : Nat) (f : Fld) : s.settled.fld (.ethStat p) f = s.fld (.ethStat p) f :=
  s.settled_fld _ _ (statusWords_below (by rw [ethStat_base]; omega))

theorem State.ingress_fld_settled (s : State) (n : Nat) (f : Fld) : s.settled.fld (.ingress n) f = s.fld (.ingress n) f :=
  s.settled_fld _ _ (statusWords_below (by rw [ingress_base]; omega))

/-! Sticky bits and events -/

theorem State.stick_eq_set (s : State) {b : Blk} {f : Fld} (i : Nat) (h : mirrored b f.off = false) :
    s.stick b f i = s.set b f (s.fld b f ||| 2 ^ i) :=
  if_neg (by rw [h]; decide)

theorem State.stick_only (s : State) {b : Blk} {f : Fld} (i : Nat) (h : mirrored b f.off = false) :
    OnlyWords s (s.stick b f i) [wordAt b f] := by
  rw [s.stick_eq_set i h]
  exact OnlyWords.set s b f _

/-- The bit that is set reads 1, and those set before stay. -/
theorem State.stick_testBit (s : State) {b : Blk} {f : Fld} {i : Nat} (h : mirrored b f.off = false) (hf : Fits f)
    (hi : i < f.width) : ((s.stick b f i).fld b f).testBit i = true := by
  rw [s.stick_eq_set i h, State.fld_set_same _ _ _ _ hf, Nat.testBit_mod_two_pow, Nat.testBit_or, Nat.testBit_two_pow_self,
    decide_eq_true hi, Bool.or_true, Bool.true_and]

/-- The event that is recorded reads 1. -/
theorem State.event_recorded (s : State) (b : Blk) {i : Nat} (h : i < 31) :
    ((s.event b i).fld b Reg.Hdr.EVENTS).testBit i = true := by
  rw [s.event_testBit b i h, decide_eq_true rfl, Bool.or_true]

/-- A field in a word other than that of EVENTS. -/
theorem State.fld_event_word (s : State) (b : Blk) (i : Nat) {b' : Blk} {g : Fld} (h : wordAt b' g ≠ wordAt b Reg.Hdr.EVENTS) :
    (s.event b i).fld b' g = s.fld b' g :=
  (s.fld_event b b' i g).trans (s.fld_set_word _ _ _ _ _ h)

/-! Statistics (R344) -/

/-- The words of a port's statistics. -/
def statWords (p : Nat) : List Nat :=
  wordAt (.ethStat p) Reg.EthStat.HALF_LO :: wordAt (.ethStat p) Reg.EthStat.HALF_HI ::
    (List.range 48).map (fun i => wordAt (.ethStat p) (Reg.EthStat.COUNTER i))

/-- They lie in the page of the statistics. -/
theorem statWords_within {p k : Nat} (h : k ∈ statWords p) : 0x4C000 + 0x1000 * p ≤ k ∧ k < 0x4C000 + 0x1000 * p + 0x1000 := by
  simp only [statWords, List.mem_cons, List.mem_map, List.mem_range, wordAt] at h
  rcases h with rfl | rfl | ⟨i, hi, rfl⟩
  · exact ⟨Nat.le_add_right _ _, Nat.add_lt_add_left (by decide) _⟩
  · exact ⟨Nat.le_add_right _ _, Nat.add_lt_add_left (by decide) _⟩
  · exact ⟨Nat.le_add_right _ _, Nat.add_lt_add_left (by simp only [Reg.EthStat.COUNTER]; omega) _⟩

theorem counter_mem_statWords (p : Nat) {i : Nat} (h : i < 48) : wordAt (.ethStat p) (Reg.EthStat.COUNTER i) ∈ statWords p :=
  List.mem_cons_of_mem _ (List.mem_cons_of_mem _ (List.mem_map_of_mem (List.mem_range.mpr h)))

/-- A counter stands in a word of its own. -/
theorem counter_apart {i j : Nat} (h : i ≠ j) : Apart (Reg.EthStat.COUNTER i) (Reg.EthStat.COUNTER j) :=
  .inl (by simp only [Reg.EthStat.COUNTER]; omega)

theorem counter_fits (i : Nat) : Fits (Reg.EthStat.COUNTER i) := ⟨Nat.le_refl 32, Nat.two_pow_pos 32⟩

/-- A counter is stepped, and at most its HALF bit is set besides. -/
theorem State.stat_shape (s : State) (p i n : Nat) : ∃ half ∈ [Reg.EthStat.HALF_LO, Reg.EthStat.HALF_HI], ∃ j,
    let t := s.set (.ethStat p) (Reg.EthStat.COUNTER i) ((s.fld (.ethStat p) (Reg.EthStat.COUNTER i) + n) % 2 ^ 32)
    s.stat p i n = t ∨ s.stat p i n = t.stick (.ethStat p) half j := by
  unfold State.stat
  dsimp only
  split
  · split
    · exact ⟨_, List.mem_cons_self, _, .inr rfl⟩
    · exact ⟨_, List.mem_cons_of_mem _ List.mem_cons_self, _, .inr rfl⟩
  · exact ⟨_, List.mem_cons_self, 0, .inl rfl⟩

theorem State.stat_only (s : State) (p : Nat) {i : Nat} (n : Nat) (h : i < 48) : OnlyWords s (s.stat p i n) (statWords p) := by
  obtain ⟨half, hhalf, j, stepped⟩ := s.stat_shape p i n
  have counted := (OnlyWords.refl s (statWords p)).set_in (.ethStat p) (Reg.EthStat.COUNTER i)
    ((s.fld (.ethStat p) (Reg.EthStat.COUNTER i) + n) % 2 ^ 32) (counter_mem_statWords p h)
  rcases stepped with plain | halved
  · rwa [plain]
  · rw [halved]
    refine counted.trans ((State.stick_only _ j rfl).mono (fun k hk => ?_))
    rw [List.mem_singleton.mp hk]
    simp only [List.mem_cons, List.not_mem_nil, or_false] at hhalf
    rcases hhalf with rfl | rfl
    · exact List.mem_cons_self
    · exact List.mem_cons_of_mem _ List.mem_cons_self

/-- Of the counters only the one that is stepped changes. -/
theorem State.stat_counters (s : State) (p i n j : Nat) :
    (s.stat p i n).fld (.ethStat p) (Reg.EthStat.COUNTER j) =
      (s.set (.ethStat p) (Reg.EthStat.COUNTER i) ((s.fld (.ethStat p) (Reg.EthStat.COUNTER i) + n) % 2 ^ 32)).fld (.ethStat p)
        (Reg.EthStat.COUNTER j) := by
  obtain ⟨half, hhalf, b, plain | halved⟩ := s.stat_shape p i n
  · rw [plain]
  · have low : ∀ h ∈ [Reg.EthStat.HALF_LO, Reg.EthStat.HALF_HI], h.off < 0x100 := by decide
    have apart : half.off ≠ 0x100 + 4 * j := (Nat.lt_add_right _ (low half hhalf)).ne
    rw [halved, State.stick_eq_set _ b rfl]
    exact State.fld_set_apart _ _ _ (.inl apart)

theorem State.stat_counter_same (s : State) (p i n : Nat) : (s.stat p i n).fld (.ethStat p) (Reg.EthStat.COUNTER i) =
    (s.fld (.ethStat p) (Reg.EthStat.COUNTER i) + n) % 2 ^ 32 :=
  (s.stat_counters p i n i).trans ((s.fld_set_same _ _ _ (counter_fits i)).trans (Nat.mod_mod _ _))

theorem State.stat_counter_other (s : State) (p : Nat) {i j : Nat} (n : Nat) (h : j ≠ i) :
    (s.stat p i n).fld (.ethStat p) (Reg.EthStat.COUNTER j) = s.fld (.ethStat p) (Reg.EthStat.COUNTER j) :=
  (s.stat_counters p i n j).trans (s.fld_set_apart _ _ (counter_apart h.symm))

/-- Fields outside the pages of statistics keep their values where only words of these change. -/
theorem NetWords.fld_outside {s t : State} {p : Nat} (h : NetWords s t (statWords p)) (hp : p < 4) {b : Blk} {f : Fld}
    (low : 0x18000 ≤ b.base + f.off) (out : b.base + f.off < 0x4C000 ∨ 0x50000 ≤ b.base + f.off) : t.fld b f = s.fld b f := by
  refine h.fld_eq (fun hm => ?_) (statusWords_below low)
  obtain ⟨least, most⟩ := statWords_within hm
  unfold wordAt at least most
  omega

end Sys2Proof.Machine
end

section
/-! PROOFS. The classifier: where each instruction of a port's program leads, and what the end of a classification does with
the frame's local copy (R334 to R337). -/

namespace Sys2Proof.Machine

open Sys2Proof

/-! The instruction that stands at the PC -/

/-- Instruction `pc` lies in the program of port `p`, with opcode `op`. -/
def State.ClsAt (s : State) (p pc op : Nat) : Prop :=
  s.hasEth p = true ∧ pc < s.fld (.ethCls p) Reg.EthCls.LENGTH ∧ bitsOf (s.clsInstr p pc).1 31 28 = op

/-- The instruction that is skipped to. -/
def State.clsSkip (s : State) (p pc : Nat) : Nat := pc + 1 + bitsOf (s.clsInstr p pc).1 23 16

/-- The frame has the instruction's field, and under the mask it is the instruction's second word (R336). -/
def State.clsHit (s : State) (p pc : Nat) (f : List Byte) : Bool :=
  (clsField (bitsOf (s.clsInstr p pc).1 27 24) f).any (fun x =>
    x &&& s.fld (.ethCls p) (Reg.EthCls.MASK (bitsOf (s.clsInstr p pc).1 15 0 % 16)) = (s.clsInstr p pc).2.toNat)

theorem State.clsHit_iff (s : State) (p pc : Nat) (f : List Byte) : s.clsHit p pc f = true ↔
    ∃ x, clsField (bitsOf (s.clsInstr p pc).1 27 24) f = some x ∧
      x &&& s.fld (.ethCls p) (Reg.EthCls.MASK (bitsOf (s.clsInstr p pc).1 15 0 % 16)) = (s.clsInstr p pc).2.toNat := by
  simp only [State.clsHit, Option.any_eq_true, decide_eq_true_eq]

/-- The frame has the instruction's field, and its low half lies between the two bounds (R336). -/
def State.clsWithin (s : State) (p pc : Nat) (f : List Byte) : Bool :=
  (clsField (bitsOf (s.clsInstr p pc).1 27 24) f).any (fun x =>
    bitsOf (s.clsInstr p pc).1 15 0 ≤ x % 65536 && x % 65536 ≤ (s.clsInstr p pc).2.toNat % 65536)

theorem State.clsWithin_iff (s : State) (p pc : Nat) (f : List Byte) : s.clsWithin p pc f = true ↔
    ∃ x, clsField (bitsOf (s.clsInstr p pc).1 27 24) f = some x ∧ bitsOf (s.clsInstr p pc).1 15 0 ≤ x % 65536 ∧
      x % 65536 ≤ (s.clsInstr p pc).2.toNat % 65536 := by
  simp only [State.clsWithin, Option.any_eq_true, Bool.and_eq_true, decide_eq_true_eq]

section

variable {s : State} {p pc op : Nat} {f : List Byte}

theorem State.ClsAt.halt (h : s.ClsAt p pc 0) : s.clsStep p pc f = (s, .done .default) := by
  obtain ⟨-, hpc, hop⟩ := h
  unfold State.clsStep
  simp only [if_neg (Nat.not_le.mpr hpc), hop]

theorem State.ClsAt.match_ (h : s.ClsAt p pc 1) : s.clsStep p pc f =
    (s, if s.clsHit p pc f then .at_ (pc + 1) else .at_ (s.clsSkip p pc)) := by
  obtain ⟨-, hpc, hop⟩ := h
  unfold State.clsStep
  simp only [if_neg (Nat.not_le.mpr hpc), hop]
  rfl

theorem State.ClsAt.nmatch (h : s.ClsAt p pc 2) : s.clsStep p pc f =
    (s, if s.clsHit p pc f then .at_ (s.clsSkip p pc) else .at_ (pc + 1)) := by
  obtain ⟨-, hpc, hop⟩ := h
  unfold State.clsStep
  simp only [if_neg (Nat.not_le.mpr hpc), hop]
  rfl

theorem State.ClsAt.range (h : s.ClsAt p pc 3) : s.clsStep p pc f =
    (s, if s.clsWithin p pc f then .at_ (pc + 1) else .at_ (s.clsSkip p pc)) := by
  obtain ⟨-, hpc, hop⟩ := h
  unfold State.clsStep
  simp only [if_neg (Nat.not_le.mpr hpc), hop]
  rfl

theorem State.ClsAt.skip (h : s.ClsAt p pc 4) : s.clsStep p pc f = (s, .at_ (s.clsSkip p pc)) := by
  obtain ⟨-, hpc, hop⟩ := h
  unfold State.clsStep
  simp only [if_neg (Nat.not_le.mpr hpc), hop]
  rfl

theorem State.ClsAt.stream (h : s.ClsAt p pc 5) : s.clsStep p pc f =
    (s, .done (if s.bit (.ingress ((s.clsInstr p pc).2.toNat % 256)) Reg.Ingress.CTRL_ENABLE
      then .stream ((s.clsInstr p pc).2.toNat % 256) else .default)) := by
  obtain ⟨-, hpc, hop⟩ := h
  unfold State.clsStep
  simp only [if_neg (Nat.not_le.mpr hpc), hop]

theorem State.ClsAt.lookup (h : s.ClsAt p pc 6) : s.clsStep p pc f =
    (s, (s.clsLookup p f).elim (.at_ (pc + 1)) (fun n => .done (.stream n))) := by
  obtain ⟨-, hpc, hop⟩ := h
  unfold State.clsStep
  simp only [if_neg (Nat.not_le.mpr hpc), hop]
  cases s.clsLookup p f <;> rfl

theorem State.ClsAt.host (h : s.ClsAt p pc 7) : s.clsStep p pc f = (s, .done (.host ((s.clsInstr p pc).2.toNat % 4))) := by
  obtain ⟨-, hpc, hop⟩ := h
  unfold State.clsStep
  simp only [if_neg (Nat.not_le.mpr hpc), hop]

theorem State.ClsAt.count (h : s.ClsAt p pc 8) : s.clsStep p pc f =
    (s.count (.ethCls p) (Reg.EthCls.COUNT (bitsOf (s.clsInstr p pc).1 15 0 % 16)), .at_ (pc + 1)) := by
  obtain ⟨-, hpc, hop⟩ := h
  unfold State.clsStep
  simp only [if_neg (Nat.not_le.mpr hpc), hop]

theorem State.ClsAt.drop (h : s.ClsAt p pc 9) : s.clsStep p pc f =
    (s, .done (.drop (bitsOf (s.clsInstr p pc).1 15 0 % 2 = 1))) := by
  obtain ⟨-, hpc, hop⟩ := h
  unfold State.clsStep
  simp only [if_neg (Nat.not_le.mpr hpc), hop]

theorem State.ClsAt.wake (h : s.ClsAt p pc 10) : s.clsStep p pc f =
    (if p = 0 then (s.setEth p { s.eth p with wakeMark := true }).event .greenroom 5 else s, .at_ (pc + 1)) := by
  obtain ⟨-, hpc, hop⟩ := h
  unfold State.clsStep
  simp only [if_neg (Nat.not_le.mpr hpc), hop]
  split <;> rfl

/-! The step as a command -/

variable {at_ : Nat} {instr : Instr}

/-- The classification stands at instruction `k`, and nothing else changes. -/
def State.ClsGoes (s : State) (p k : Nat) (t : State) : Prop :=
  t.eth p = { s.eth p with clsPc := some k } ∧ NetWords s t []

/-- An instruction that leads on: the PC is stored. -/
theorem State.ClsAt.row_on (h : s.ClsAt p pc op) {u : State} {k : Nat} (step : s.clsStep p pc f = (u, .at_ k)) :
    s.clsRow p pc at_ f op = u.setEth p { u.eth p with clsPc := some k } := by
  obtain ⟨here, hpc, hop⟩ := h
  unfold State.clsRow
  rw [if_neg (by simp [here, hop, hpc]), step]

/-- An instruction that ends the classification: the local copy is delivered, and no PC is left. -/
theorem State.ClsAt.row_done (h : s.ClsAt p pc op) {e : ClsEnd} (step : s.clsStep p pc f = (s, .done e)) :
    s.clsRow p pc at_ f op = (s.clsDeliver p pc at_ f e).setEth p { (s.clsDeliver p pc at_ f e).eth p with clsPc := none } := by
  obtain ⟨here, hpc, hop⟩ := h
  unfold State.clsRow
  rw [if_neg (by simp [here, hop, hpc]), step]

theorem State.ClsAt.answers_goes (h : s.ClsAt p pc op) (run : exec instr s = settle (s.clsRow p pc at_ f op)) {k : Nat}
    (step : s.clsStep p pc f = (s, .at_ k)) : Answers instr s (s.ClsGoes p k) :=
  ⟨_, run.trans (congrArg settle (h.row_on step)), (State.eth_settled _ _).trans (State.eth_setEth_same _ _ _),
    (NetWords.setEth s p _ []).settled⟩

/-- A test leads to one instruction where it holds, else to another. -/
theorem State.ClsAt.answers_test (h : s.ClsAt p pc op) (run : exec instr s = settle (s.clsRow p pc at_ f op)) {c : Bool}
    {yes no : Nat} {P : Prop} (test : c = true ↔ P)
    (step : s.clsStep p pc f = (s, if c then .at_ yes else .at_ no)) :
    (P → Answers instr s (s.ClsGoes p yes)) ∧ (¬ P → Answers instr s (s.ClsGoes p no)) :=
  ⟨fun holds => h.answers_goes run (step.trans (congrArg (Prod.mk s) (if_pos (test.mpr holds)))),
    fun fails => h.answers_goes run (step.trans (congrArg (Prod.mk s) (if_neg (fun hc => fails (test.mp hc)))))⟩

/-! The end of a classification -/

/-- The frame is the last in the inbox of stream `n` (R337). -/
theorem State.ClsAt.answers_gets (h : s.ClsAt p pc op) (run : exec instr s = settle (s.clsRow p pc at_ f op)) {n : Nat}
    (step : s.clsStep p pc f = (s, .done (.stream n))) : Answers instr s (fun t => (t.eth p).clsPc = none ∧
      (Map.get ({} : IngState) n t.net.ing).inbox = (Map.get ({} : IngState) n s.net.ing).inbox ++ [(f, at_)]) := by
  refine ⟨_, run.trans (congrArg settle (h.row_done step)), ?_, ?_⟩
  · rw [State.eth_settled, State.eth_setEth_same]
  · rw [State.settled_net]
    exact congrArg IngState.inbox (Map.get_put_same _ _ _ _)

/-- An exception queue that is off takes no frame (R337). -/
theorem classifierHost_answers_off (h : s.ClsAt p pc 7)
    (off : s.bit (.ethMac p) (Reg.EthMac.XQ_EN ((s.clsInstr p pc).2.toNat % 4)) = false) :
    Answers (.classifierHost p pc at_ f) s (fun t => t.eth p = { s.eth p with clsPc := none } ∧ NetWords s t []) := by
  have unheard : s.clsDeliver p pc at_ f (.host ((s.clsInstr p pc).2.toNat % 4)) = s := if_pos (by rw [off]; rfl)
  have ends := h.row_done (at_ := at_) (f := f) h.host
  rw [unheard] at ends
  exact ⟨_, congrArg settle ends, (State.eth_settled _ _).trans (State.eth_setEth_same _ _ _), (NetWords.setEth s p _ []).settled⟩

end

/-- A message of the module is numbered by its seat and joins a queue: of the registers it changes the seat's alone (R419,
R423). -/
theorem State.sdEvent_fld (s : State) {seat : Nat} (hq : seat < 8) (kind : Nat) (body : List Word) {b : Blk} {g : Fld}
    (h : 0x18000 ≤ b.base + g.off) : (s.sdEvent seat kind body).fld b g = s.fld b g := by
  have seatWord (v : SeatState) : (s.setSeat seat v).fld b g = s.fld b g :=
    s.setSeat_fld seat v b g (by simp only [show (Blk.seat seat).base = 0x10000 + 0x1000 * seat from rfl, Reg.Seat.STATUS_IN_FLIGHT]; omega)
  have frame (t : State) (type flags seq : Nat) (payload : List Word) (ack : Option Nat) :
      (t.sdFrame seat type flags seq payload ack).fld b g = t.fld b g := by
    unfold State.sdFrame
    dsimp only
    split
    · exact when_keeps (State.fld · b g) rfl
    · rfl
  unfold State.sdEvent State.sdSend
  exact ite_keeps (State.fld · b g) rfl
    (ite_keeps (State.fld · b g) ((frame _ _ _ _ _ _).trans (seatWord _)) (seatWord _))

/-- An exception queue writes host memory, or sends to Stagedoor; of the registers beyond the MAC pages it changes none
(R337). -/
theorem State.xqWrite_fld (s : State) {p xq : Nat} (hp : p < 4) (hxq : xq < 4) (pc t : Nat) (f : List Byte) {b : Blk} {g : Fld}
    (h : 0x44000 ≤ b.base + g.off) : (s.xqWrite p xq pc t f).fld b g = s.fld b g := by
  have event (u : State) (i : Nat) : (u.event (.ethMac p) i).fld b g = u.fld b g :=
    u.fld_event_word _ _ (by simp only [wordAt, ethMac_base, Reg.Hdr.EVENTS]; omega)
  have pointer (u : State) (v : Nat) : (u.set (.ethMac p) (Reg.EthMac.XQ_WRPTR xq) v).fld b g = u.fld b g :=
    u.fld_set_word _ _ _ _ _ (by simp only [ethMac_base, Reg.EthMac.XQ_WRPTR]; omega)
  have seat : s.fld (.ethMac p) (Reg.EthMac.XQ_SEAT xq) < 8 := regGet_lt _ _ _ ⟨(by decide : 0 + 3 ≤ 32), Nat.two_pow_pos 3⟩
  unfold State.xqWrite
  dsimp only
  refine ite_keeps (State.fld · b g) rfl (ite_keeps (State.fld · b g) ?_ (ite_keeps (State.fld · b g) (event s 2) ?_))
  · exact (event _ _).trans (s.sdEvent_fld seat _ _ (by omega))
  · have bytes (u : State) (a : Nat) (v : List Byte) (q : Nat) : (u.hostWriteBytes q a v).fld b g = u.fld b g := rfl
    rw [event, pointer]
    exact foldl_keeps (State.fld · b g) (fun u e _ => bytes u _ _ _) s

/-- The default action sends the frame to an exception queue or counts it as dropped, and is itself counted with event 0
(R337). -/
theorem State.clsDeliver_default (s : State) {p : Nat} (hp : p < 4) (pc t : Nat) (f : List Byte) :
    let u := s.clsDeliver p pc t f .default
    u.fld (.ethCls p) Reg.EthCls.DEFAULT_HITS =
        (s.fld (.ethCls p) Reg.EthCls.DEFAULT_HITS + 1) % 2 ^ Reg.EthCls.DEFAULT_HITS.width ∧
      (u.fld (.ethCls p) Reg.Hdr.EVENTS).testBit 0 = true := by
  intro u
  let v := (s.count (.ethCls p) Reg.EthCls.DEFAULT_HITS).event (.ethCls p) 0
  have xq : v.fld (.ethCls p) Reg.EthCls.CFG_DEFAULT_XQ < 4 := regGet_lt _ _ _ ⟨by decide, by decide⟩
  have later (g : Fld) (hg : g.off < 0x1000) : u.fld (.ethCls p) g = v.fld (.ethCls p) g := by
    refine ite_keeps (State.fld · (.ethCls p) g) (v.xqWrite_fld hp xq pc t f ?_) ?_
    · rw [ethCls_base]
      omega
    · refine (v.stat_only p 1 (by decide)).netWords.fld_outside hp ?_ ?_ <;> rw [ethCls_base] <;> omega
  rw [later _ (by decide), later _ (by decide)]
  exact ⟨(State.fld_event_apart _ _ _ (by decide)).trans (s.fld_count_same _ ⟨by decide, by decide⟩ 1),
    State.event_recorded _ _ (by decide)⟩

theorem State.ClsAt.answers_default {s : State} {p pc op at_ : Nat} {f : List Byte} {instr : Instr} (h : s.ClsAt p pc op)
    (hp : p < 4) (run : exec instr s = settle (s.clsRow p pc at_ f op)) (step : s.clsStep p pc f = (s, .done .default)) :
    Answers instr s (fun t => (t.eth p).clsPc = none ∧ t.fld (.ethCls p) Reg.EthCls.DEFAULT_HITS =
        (s.fld (.ethCls p) Reg.EthCls.DEFAULT_HITS + 1) % 2 ^ Reg.EthCls.DEFAULT_HITS.width ∧
      (t.fld (.ethCls p) Reg.Hdr.EVENTS).testBit 0 = true) := by
  refine ⟨_, run.trans (congrArg settle (h.row_done step)), ?_⟩
  simp only [State.eth_settled, State.eth_setEth_same, State.ethCls_fld_settled, State.fld_setEth, true_and]
  exact s.clsDeliver_default hp pc at_ f

/-! Counting, dropping and waking -/

section

variable {s : State} {p pc at_ : Nat} {f : List Byte}

theorem classifierCount_answers (h : s.ClsAt p pc 8) (i : Nat) (hi : i = bitsOf (s.clsInstr p pc).1 15 0 % 16) :
    Answers (.classifierCount p pc at_ f) s (fun t => (t.eth p).clsPc = some (pc + 1) ∧
      t.fld (.ethCls p) (Reg.EthCls.COUNT i) =
        (s.fld (.ethCls p) (Reg.EthCls.COUNT i) + 1) % 2 ^ (Reg.EthCls.COUNT i).width ∧
      NetWords s t [wordAt (.ethCls p) (Reg.EthCls.COUNT i)]) := by
  subst hi
  refine ⟨_, congrArg settle (h.row_on h.count), ?_, ?_, ?_⟩
  · rw [State.eth_settled, State.eth_setEth_same]
  · rw [State.ethCls_fld_settled, State.fld_setEth]
    exact s.fld_count_same (.ethCls p) (f := Reg.EthCls.COUNT _) ⟨Nat.le_refl 32, Nat.two_pow_pos 32⟩ 1
  · exact ((OnlyWords.set s _ _ _).netWords.trans (NetWords.setEth _ _ _ _)).settled

theorem classifierDrop_answers (h : s.ClsAt p pc 9) :
    Answers (.classifierDrop p pc at_ f) s (fun t => (t.eth p).clsPc = none ∧
      t.fld (.ethStat p) (Reg.EthStat.COUNTER 22) = (s.fld (.ethStat p) (Reg.EthStat.COUNTER 22) + 1) % 2 ^ 32 ∧
      t.net.ing = s.net.ing) := by
  refine ⟨_, congrArg settle (h.row_done h.drop), ?_, ?_, ?_⟩
  · rw [State.eth_settled, State.eth_setEth_same]
  · rw [State.ethStat_fld_settled, State.fld_setEth]
    exact s.stat_counter_same p 22 1
  · have same : (s.stat p 22).net.ing = s.net.ing := congrArg Net.ing (s.stat_only p 1 (by decide)).net_eq
    rw [State.settled_net]
    exact same

theorem classifierWake_answers (h : s.ClsAt 0 pc 10) :
    Answers (.classifierWake 0 pc at_ f) s (fun t => (t.eth 0).wakeMark = true ∧ (t.eth 0).clsPc = some (pc + 1) ∧
      (t.fld .greenroom Reg.Hdr.EVENTS).testBit 5 = true) := by
  refine ⟨_, congrArg settle (h.row_on h.wake), ?_⟩
  simp only [State.eth_settled, State.eth_setEth_same, if_true, State.eth_event, true_and]
  rw [State.settled_fld _ _ _ (by decide), State.fld_setEth]
  exact State.event_recorded _ _ (by decide)

end

/-- Settles O44, instruction by instruction. -/
theorem classifierInstructions : Obligations.ClassifierInstructions := by
  intro s p pc at_ f hp here hpc w0 w1 op imm v hit goes gets skip default
  have stands (k : Nat) (h : op = k) : s.ClsAt p pc k := ⟨here, hpc, h⟩
  refine ⟨fun h => ?_, fun h => ?_, fun h => ?_, fun h => ?_, fun h => ?_, fun h => ?_, fun h => ?_, fun h off => ?_, fun h => ?_,
    fun h => ?_, fun h => ?_⟩
  · exact (stands 0 h).answers_default hp rfl (stands 0 h).halt
  · exact (stands 1 h).answers_test rfl (s.clsHit_iff p pc f) (stands 1 h).match_
  · exact (stands 2 h).answers_test rfl (s.clsHit_iff p pc f) (stands 2 h).nmatch
  · exact (stands 3 h).answers_test rfl (s.clsWithin_iff p pc f) (stands 3 h).range
  · exact (stands 4 h).answers_goes rfl (stands 4 h).skip
  · have ends := (stands 5 h).stream (f := f)
    exact ⟨fun on => (stands 5 h).answers_gets rfl (ends.trans (by rw [on]; rfl)),
      fun off => (stands 5 h).answers_default hp rfl (ends.trans (by rw [off]; rfl))⟩
  · have ends := (stands 6 h).lookup (f := f)
    exact ⟨fun n found => (stands 6 h).answers_gets rfl (ends.trans (by rw [found]; rfl)),
      fun none_ => (stands 6 h).answers_goes rfl (ends.trans (by rw [none_]; rfl))⟩
  · exact classifierHost_answers_off (stands 7 h) off
  · exact classifierCount_answers (stands 8 h) _ rfl
  · exact classifierDrop_answers (stands 9 h)
  · refine ⟨fun h0 => ?_, fun h0 => (stands 10 h).answers_goes rfl ((stands 10 h).wake.trans (by rw [if_neg h0]))⟩
    subst h0
    exact classifierWake_answers (stands 10 h)

end Sys2Proof.Machine
end

section
/-! PROOFS. Ethernet ports: links, PAUSE received and sent, and the watermarks of the receive buffer (R318, R341, R342). -/

namespace Sys2Proof.Machine

open Sys2Proof

/-! The registers of a MAC page -/

theorem State.bit_eq_of_fld {s t : State} {b : Blk} {f : Fld} (h : t.fld b f = s.fld b f) : t.bit b f = s.bit b f :=
  congrArg (fun x => decide (x ≠ 0)) h

@[simp] theorem State.ethMac_bit_settled (s : State) (p : Nat) (f : Fld) : s.settled.bit (.ethMac p) f = s.bit (.ethMac p) f :=
  State.bit_eq_of_fld (s.ethMac_fld_settled p f)

theorem State.bit_event_apart (s : State) (b : Blk) (i : Nat) {g : Fld} (h : Apart Reg.Hdr.EVENTS g) :
    (s.event b i).bit b g = s.bit b g :=
  State.bit_eq_of_fld (s.fld_event_apart b i h)

theorem State.bit_set_apart (s : State) (b : Blk) {f g : Fld} (v : Nat) (h : Apart f g) : (s.set b f v).bit b g = s.bit b g :=
  State.bit_eq_of_fld (s.fld_set_apart b v h)

/-- A bit of a register that is set reads 1. -/
theorem State.bit_set_one (s : State) (b : Blk) {f : Fld} (hf : Fits f) (h1 : f.width = 1) : (s.set b f 1).bit b f = true :=
  s.bit_setBit_same b f true hf h1

theorem State.bit_set_zero (s : State) (b : Blk) {f : Fld} (hf : Fits f) (h1 : f.width = 1) : (s.set b f 0).bit b f = false :=
  s.bit_setBit_same b f false hf h1

/-- Fields of the MAC pages keep their values where only words of the statistics change. -/
theorem NetWords.ethMac_fld {s t : State} {p : Nat} (h : NetWords s t (statWords p)) (hp : p < 4) {r : Nat} (hr : r < 4)
    {f : Fld} (hf : f.off < 0x1000) : t.fld (.ethMac r) f = s.fld (.ethMac r) f :=
  h.fld_outside hp (by rw [ethMac_base]; omega) (.inl (by rw [ethMac_base]; omega))

/-! LINK_UP (R318) -/

theorem linkUp_answers {s : State} {p : Nat} (here : s.hasEth p = true) (on : s.bit (.ethMac p) Reg.EthMac.CFG_EN = true)
    (down : s.bit (.ethMac p) Reg.EthMac.STATUS_LINK = false) : Answers (.linkUp p) s (fun t =>
      t.bit (.ethMac p) Reg.EthMac.STATUS_LINK = true ∧
      t.fld (.ethMac p) Reg.EthMac.STATUS_MODE = s.fld (.ethMac p) Reg.EthMac.CFG_MODE ∧
      (t.fld (.ethMac p) Reg.Hdr.EVENTS).testBit 0 = true ∧
      OnlyWords s t [wordAt (.ethMac p) Reg.EthMac.STATUS_LINK, wordAt (.ethMac p) Reg.EthMac.STATUS_MODE,
        wordAt (.ethMac p) Reg.Hdr.EVENTS]) := by
  let u := (s.set (.ethMac p) Reg.EthMac.STATUS_LINK 1).set (.ethMac p) Reg.EthMac.STATUS_MODE
    (s.fld (.ethMac p) Reg.EthMac.CFG_MODE)
  have mode : s.fld (.ethMac p) Reg.EthMac.CFG_MODE < 2 ^ Reg.EthMac.STATUS_MODE.width := regGet_lt _ _ _ ⟨by decide, by decide⟩
  have words : OnlyWords s u [wordAt (.ethMac p) Reg.EthMac.STATUS_LINK, wordAt (.ethMac p) Reg.EthMac.STATUS_MODE,
      wordAt (.ethMac p) Reg.Hdr.EVENTS] :=
    ((OnlyWords.refl s _).set_in _ _ _ (by simp)).set_in _ _ _ (by simp)
  refine ⟨(u.event (.ethMac p) 0).settled, if_pos ⟨here, on, by rw [down]; rfl⟩, ?_, ?_, ?_,
    (words.trans ((State.stick_only u 0 rfl).mono (by simp))).settled⟩
  · rw [State.ethMac_bit_settled, State.bit_event_apart _ _ _ (by decide), State.bit_set_apart _ _ _ (by decide)]
    exact State.bit_set_one _ _ ⟨by decide, by decide⟩ rfl
  · rw [State.ethMac_fld_settled, State.fld_event_apart _ _ _ (by decide), State.fld_set_same _ _ _ _ ⟨by decide, by decide⟩,
      Nat.mod_eq_of_lt mode]
  · rw [State.ethMac_fld_settled]
    exact u.event_recorded _ (by decide)

/-! The pauses of a port -/

/-- What STATUS.PAUSED shows. -/
def EthPort.pausedMask (e : EthPort) : Nat := (List.range 8).foldl (fun m q => if e.paused q then m + 2 ^ q else m) 0

theorem EthPort.pausedMask_none {e : EthPort} (h : ∀ q, q < 8 → e.paused q = false) : e.pausedMask = 0 :=
  (List.foldl_ext _ (fun m _ => m) 0 (fun m q hq => by rw [h q (List.mem_range.mp hq)]; rfl)).trans (by decide)

theorem EthPort.pausedMask_all {e : EthPort} (h : ∀ q, q < 8 → e.paused q = true) : e.pausedMask = 255 :=
  (List.foldl_ext _ (fun m q => m + 2 ^ q) 0 (fun m q hq => by rw [h q (List.mem_range.mp hq)]; rfl)).trans (by decide)

theorem State.showPaused_eq (s : State) (p : Nat) :
    s.showPaused p = s.set (.ethMac p) Reg.EthMac.STATUS_PAUSED (s.eth p).pausedMask := rfl

/-- Credits brought up to a time change nothing but the credits and that time (R340). -/
theorem State.creditTo_shape (s : State) (p t : Nat) : ∃ c d,
    s.creditTo p t = s.setEth p { s.eth p with credit := c, creditAt := d } := ⟨_, _, rfl⟩

/-- Every pause ends: none is left, none shows, and of the counters only that of quanta steps (R341). -/
theorem State.endPauses_spec (s : State) {p : Nat} (hp : p < 4) :
    let t := s.endPauses p
    (t.eth p).quanta = [] ∧ (t.eth p).pauses = [] ∧ t.fld (.ethMac p) Reg.EthMac.STATUS_PAUSED = 0 ∧
      (∀ g : Fld, Apart Reg.EthMac.STATUS_PAUSED g → g.off < 0x1000 → t.fld (.ethMac p) g = s.fld (.ethMac p) g) ∧
      ∀ i, i ≠ 40 → t.fld (.ethStat p) (Reg.EthStat.COUNTER i) = s.fld (.ethStat p) (Reg.EthStat.COUNTER i) := by
  let u := (List.range 8).foldl (fun s q => s.stat p 40 (s.pauseSpent p q s.deviceNs)) s
  let v := u.setEth p { u.eth p with quanta := [], pauses := [] }
  have words : OnlyWords s u (statWords p) := OnlyWords.foldl (fun t q _ => t.stat_only p _ (by decide)) s
  have ended : (v.eth p).quanta = [] ∧ (v.eth p).pauses = [] := by rw [State.eth_setEth_same]; exact ⟨rfl, rfl⟩
  have none_ : (v.eth p).pausedMask = 0 := EthPort.pausedMask_none (fun q _ => by rw [EthPort.paused, ended.1]; rfl)
  intro t
  have shown : t = v.set (.ethMac p) Reg.EthMac.STATUS_PAUSED 0 := (State.showPaused_eq v p).trans (by rw [none_])
  rw [shown, State.eth_set]
  refine ⟨ended.1, ended.2, State.fld_set_same _ _ _ _ ⟨by decide, by decide⟩, fun g apart hg => ?_, fun i hi => ?_⟩
  · exact (State.fld_set_apart _ _ _ apart).trans (words.netWords.ethMac_fld hp hp hg)
  · refine (State.fld_set_word _ _ _ _ _ _ ?_).trans ?_
    · simp only [ethMac_base, ethStat_base, Reg.EthStat.COUNTER, Reg.EthMac.STATUS_PAUSED]
      omega
    · exact foldl_keeps (State.fld · (.ethStat p) (Reg.EthStat.COUNTER i)) (fun t q _ => t.stat_counter_other p _ hi) s

/-! LINK_DOWN (R318, R331) -/

/-- A packet that is discarded counts in its stream's record alone. -/
theorem State.egDrop_only (s : State) (n : Nat) :
    OnlyWords s (s.egDrop n) [wordAt (.egress n) Reg.Egress.DROPS, wordAt (.egress n) Reg.Egress.EVT_FLAGS] :=
  (OnlyWords.refl s _).set_in (.egress n) Reg.Egress.DROPS _ List.mem_cons_self |>.trans
    ((State.stick_only _ 0 rfl).mono (by simp))

theorem State.egDrop_fld (s : State) (n : Nat) {b : Blk} {g : Fld} (low : 0x18000 ≤ b.base + g.off)
    (high : b.base + g.off < 0x2500000) : (s.egDrop n).fld b g = s.fld b g := by
  refine (s.egDrop_only n).fld_eq ?_ (statusWords_below low)
  simp only [wordAt, egress_base, List.mem_cons, List.not_mem_nil, or_false]
  omega

/-- A port without its transmit queues. -/
def EthPort.unqueued (e : EthPort) : EthPort := { e with queues := [] }

/-- Discarding the packets of streams changes the queues, and drops packets one by one. -/
theorem State.dropStreams_keeps {β : Type} (view : State → β) (s : State) (p : Nat)
    (queued : ∀ m, view (s.setEth p { s.eth p with queues := m }) = view s)
    (dropped : ∀ (u : State) (n : Nat), view (u.egDrop n) = view u) : view (s.dropStreams p) = view s := by
  have inQueues (d : EthPort) (h : d.unqueued = (s.eth p).unqueued) : view (s.setEth p d) = view s := by
    have same : d = { s.eth p with queues := d.queues } := congrArg (fun x : EthPort => { x with queues := d.queues }) h
    rw [same]
    exact queued _
  unfold State.dropStreams
  refine (foldl_keeps view (fun u f _ => ?_) _).trans (inQueues _ ?_)
  · split
    · exact dropped u _
    · rfl
  · exact foldl_keeps EthPort.unqueued (fun e q _ => (rfl : (e.setQueue q _).unqueued = e.unqueued)) _

/-- A link goes down: every pause ends, the packets of streams are discarded, and the loss is counted (R318, R331). -/
theorem State.linkDown_spec {s : State} {p : Nat} (hp : p < 4) (up : s.bit (.ethMac p) Reg.EthMac.STATUS_LINK = true) :
    let t := s.linkDown p
    t.bit (.ethMac p) Reg.EthMac.STATUS_LINK = false ∧ (t.eth p).quanta = [] ∧ (t.eth p).pauses = [] ∧
      t.fld (.ethMac p) Reg.EthMac.STATUS_PAUSED = 0 ∧
      t.fld (.ethStat p) (Reg.EthStat.COUNTER 45) = (s.fld (.ethStat p) (Reg.EthStat.COUNTER 45) + 1) % 2 ^ 32 ∧
      (t.fld (.ethMac p) Reg.Hdr.EVENTS).testBit 0 = true := by
  let u := s.set (.ethMac p) Reg.EthMac.STATUS_LINK 0
  let v := u.endPauses p
  let w := v.dropStreams p
  let x := w.stat p 45
  intro t
  have ends : t = x.event (.ethMac p) 0 := if_pos up
  obtain ⟨quanta, pauses, paused, mac, counters⟩ := u.endPauses_spec hp
  have outside (b : Blk) (g : Fld) (low : 0x18000 ≤ b.base + g.off) (high : b.base + g.off < 0x2500000) :
      w.fld b g = v.fld b g :=
    v.dropStreams_keeps (State.fld · b g) p (fun _ => rfl) (fun y n => y.egDrop_fld n low high)
  have words : OnlyWords w x (statWords p) := w.stat_only p 1 (by decide)
  have pausesKept : (w.eth p).quanta = (v.eth p).quanta ∧ (w.eth p).pauses = (v.eth p).pauses := by
    refine Prod.mk.inj (v.dropStreams_keeps (fun y => ((y.eth p).quanta, (y.eth p).pauses)) p (fun m => ?_) (fun y n => ?_))
    · rw [State.eth_setEth_same]
    · rw [(y.egDrop_only n).eth_eq]
  have macKept (g : Fld) (hg : g.off < 0x1000) : x.fld (.ethMac p) g = v.fld (.ethMac p) g := by
    refine (words.netWords.ethMac_fld hp hp hg).trans (outside _ _ ?_ ?_) <;> rw [ethMac_base] <;> omega
  have link : v.bit (.ethMac p) Reg.EthMac.STATUS_LINK = false :=
    (State.bit_eq_of_fld (mac _ (by decide) (by decide))).trans (State.bit_set_zero _ _ ⟨by decide, by decide⟩ rfl)
  rw [ends, State.eth_event, words.eth_eq]
  refine ⟨?_, pausesKept.1.trans quanta, pausesKept.2.trans pauses, ?_, ?_, x.event_recorded _ (by decide)⟩
  · rw [State.bit_event_apart _ _ _ (by decide), State.bit_eq_of_fld (macKept _ (by decide)), link]
  · rw [State.fld_event_apart _ _ _ (by decide), macKept _ (by decide), paused]
  · have other : wordAt (.ethStat p) (Reg.EthStat.COUNTER 45) ≠ wordAt (.ethMac p) Reg.Hdr.EVENTS := by
      simp only [wordAt, ethStat_base, ethMac_base, Reg.EthStat.COUNTER, Reg.Hdr.EVENTS]
      omega
    have before : v.fld (.ethStat p) (Reg.EthStat.COUNTER 45) = s.fld (.ethStat p) (Reg.EthStat.COUNTER 45) := by
      refine (counters 45 (by decide)).trans (State.fld_set_word _ _ _ _ _ _ ?_)
      simp only [ethStat_base, ethMac_base, Reg.EthStat.COUNTER, Reg.EthMac.STATUS_LINK]
      omega
    rw [State.fld_event_word _ _ _ other, State.stat_counter_same, outside, before] <;>
      simp only [ethStat_base, Reg.EthStat.COUNTER] <;> omega

theorem linkDown_answers {s : State} {p : Nat} (hp : p < 4) (here : s.hasEth p = true)
    (up : s.bit (.ethMac p) Reg.EthMac.STATUS_LINK = true) : Answers (.linkDown p) s (fun t =>
      t.bit (.ethMac p) Reg.EthMac.STATUS_LINK = false ∧ (t.eth p).quanta = [] ∧ (t.eth p).pauses = [] ∧
      t.fld (.ethMac p) Reg.EthMac.STATUS_PAUSED = 0 ∧
      t.fld (.ethStat p) (Reg.EthStat.COUNTER 45) = (s.fld (.ethStat p) (Reg.EthStat.COUNTER 45) + 1) % 2 ^ 32 ∧
      (t.fld (.ethMac p) Reg.Hdr.EVENTS).testBit 0 = true) := by
  refine ⟨_, congrArg settle (if_pos here), ?_⟩
  simp only [State.ethMac_bit_settled, State.ethMac_fld_settled, State.ethStat_fld_settled, State.eth_settled]
  exact State.linkDown_spec hp up

theorem linkDown_answers_unlinked {s : State} {p : Nat} (down : s.bit (.ethMac p) Reg.EthMac.STATUS_LINK = false) :
    Answers (.linkDown p) s (OnlyWords s · []) := by
  have stays : s.linkDown p = s := if_neg (by rw [down]; decide)
  exact ⟨_, congrArg settle (when_keeps id stays), State.settled_only s⟩

/-! PAUSE_RX (R341) -/

/-- A link PAUSE of `n` quanta that acts on queue `q` at `t`: what has passed of the queue's pause counts, and it begins anew
or ends. -/
def State.pauseQueue (s : State) (p t n q : Nat) : State :=
  let u := s.stat p 40 (s.pauseSpent p q t)
  u.setEth p { u.eth p with quanta := (u.eth p).quanta.put (0, 0) q (if n = 0 then (0, 0) else (t, n)) }

/-- With PAUSE_RX_EN and without exempt queues a link PAUSE acts on every queue. -/
theorem State.pauseRx_link {s : State} {p : Nat} (on : s.bit (.ethMac p) Reg.EthMac.PAUSE_RX_EN = true)
    (all : s.bit (.ethMac p) Reg.EthMac.PAUSE_EXEMPT = false) (t n : Nat) (prio : List (Option Nat)) :
    s.pauseRx p t (some n) prio =
      ((List.range 8).foldl (fun u q => u.pauseQueue p t n q) (s.creditTo p t)).showPaused p := by
  have all' : (s.creditTo p t).bit (.ethMac p) Reg.EthMac.PAUSE_EXEMPT = false := all
  unfold State.pauseRx
  simp only [on, all', Bool.not_true, Bool.false_and, Bool.false_eq_true, if_false, List.any_eq_true, and_false, exists_false]
  rfl

theorem State.pauseRx_link_spec {s : State} {p : Nat} (on : s.bit (.ethMac p) Reg.EthMac.PAUSE_RX_EN = true)
    (all : s.bit (.ethMac p) Reg.EthMac.PAUSE_EXEMPT = false) (t n : Nat) (prio : List (Option Nat)) :
    let u := s.pauseRx p t (some n) prio
    (∀ q, q < 8 → Map.get (0, 0) q (u.eth p).quanta = (if n = 0 then (0, 0) else (t, n))) ∧
      (u.eth p).pauses = (s.eth p).pauses ∧ (n ≠ 0 → u.fld (.ethMac p) Reg.EthMac.STATUS_PAUSED = 255) := by
  intro u
  let v := (List.range 8).foldl (fun u q => u.pauseQueue p t n q) (s.creditTo p t)
  have acts : (v.eth p).pauses = (s.eth p).pauses ∧
      ∀ q < 8, Map.get (0, 0) q (v.eth p).quanta = (if n = 0 then (0, 0) else (t, n)) := by
    refine foldl_range_each (fun w : State => (w.eth p).pauses = (s.eth p).pauses)
      (fun q w => Map.get (0, 0) q (w.eth p).quanta = (if n = 0 then (0, 0) else (t, n))) ?_ (fun w q hq hw => ?_)
    · obtain ⟨c, d, credited⟩ := s.creditTo_shape p t
      rw [credited, State.eth_setEth_same]
    · have counted := (w.stat_only p (w.pauseSpent p q t) (i := 40) (by decide)).eth_eq p
      simp only [State.pauseQueue, State.eth_setEth_same, counted]
      exact ⟨hw, Map.get_put_same _ _ _ _, fun r hr hQ => (Map.get_put_other _ _ _ _ hr _).trans hQ⟩
  have shown : u = v.set (.ethMac p) Reg.EthMac.STATUS_PAUSED (v.eth p).pausedMask := State.pauseRx_link on all t n prio
  rw [shown, State.eth_set]
  refine ⟨acts.2, acts.1, fun hn => ?_⟩
  have mask : (v.eth p).pausedMask = 255 := EthPort.pausedMask_all (fun q hq => by
    rw [EthPort.paused, acts.2 q hq, if_neg hn]
    exact decide_eq_true hn)
  rw [mask]
  exact State.fld_set_same _ _ _ _ ⟨by decide, by decide⟩

theorem execPauseRx_eq {s : State} {p at_ : Nat} {link : Option Nat} {prio : List (Option Nat)}
    {rest : List (Nat × Option Nat × List (Option Nat))} (h : (s.eth p).pauses = (at_, link, prio) :: rest) :
    execPauseRx p s = settle ((s.setEth p { s.eth p with pauses := rest }).pauseRx p at_ link prio) := by
  unfold execPauseRx
  rw [h]

section

variable {s : State} {p at_ tm : Nat} {rest : List (Nat × Option Nat × List (Option Nat))}

theorem pauseRx_answers (h : (s.eth p).pauses = (at_, some tm, []) :: rest)
    (on : s.bit (.ethMac p) Reg.EthMac.PAUSE_RX_EN = true) (all : s.bit (.ethMac p) Reg.EthMac.PAUSE_EXEMPT = false) :
    Answers (.pauseRx p) s (fun t =>
      (∀ q, q < 8 → Map.get (0, 0) q (t.eth p).quanta = (if tm = 0 then (0, 0) else (at_, tm))) ∧ (t.eth p).pauses = rest ∧
      (tm ≠ 0 → t.fld (.ethMac p) Reg.EthMac.STATUS_PAUSED = 255)) := by
  obtain ⟨quanta, pauses, paused⟩ :=
    State.pauseRx_link_spec (s := s.setEth p { s.eth p with pauses := rest }) on all at_ tm []
  refine ⟨_, execPauseRx_eq h, ?_⟩
  simp only [State.eth_settled, State.ethMac_fld_settled]
  exact ⟨quanta, pauses.trans (congrArg EthPort.pauses (State.eth_setEth_same _ _ _)), paused⟩

theorem pauseRx_answers_off (h : (s.eth p).pauses = (at_, some tm, []) :: rest)
    (off : s.bit (.ethMac p) Reg.EthMac.PAUSE_RX_EN = false) :
    Answers (.pauseRx p) s (fun t => t.eth p = { s.eth p with pauses := rest } ∧ NetWords s t []) := by
  let u := s.setEth p { s.eth p with pauses := rest }
  have ignored : u.pauseRx p at_ (some tm) [] = u := if_pos (by rw [State.bit_setEth, off]; rfl)
  refine ⟨_, (execPauseRx_eq h).trans (congrArg settle ignored), ?_, (NetWords.setEth s p _ []).settled⟩
  rw [State.eth_settled, State.eth_setEth_same]

end

/-! PAUSE_EXPIRE (R341) -/

theorem pauseExpire_answers {s : State} {p q : Nat} (here : s.hasEth p = true) (paused : (s.eth p).paused q = true)
    (due : s.pauseEnd p q ≤ 1000 * s.nextNs) : Answers (.pauseExpire p q) s (fun t => (t.eth p).paused q = false ∧
      t.fld (.ethStat p) (Reg.EthStat.COUNTER 40) =
        (s.fld (.ethStat p) (Reg.EthStat.COUNTER 40) + (Map.get (0, 0) q (s.eth p).quanta).2) % 2 ^ 32 ∧
      ∀ r, r ≠ q → Map.get (0, 0) r (t.eth p).quanta = Map.get (0, 0) r (s.eth p).quanta) := by
  obtain ⟨c, d, credited⟩ := s.creditTo_shape p (s.pauseEnd p q / 1000)
  let u := s.creditTo p (s.pauseEnd p q / 1000)
  let v := u.setEth p { u.eth p with quanta := (u.eth p).quanta.put (0, 0) q (0, 0) }
  let w := v.stat p 40 (Map.get (0, 0) q (s.eth p).quanta).2
  have quanta : (w.eth p).quanta = (s.eth p).quanta.put (0, 0) q (0, 0) := by
    rw [(v.stat_only p _ (by decide)).eth_eq, State.eth_setEth_same, show u = _ from credited, State.eth_setEth_same]
  refine ⟨(w.showPaused p).settled, if_pos ⟨here, paused, due⟩, ?_, ?_, ?_⟩
  · rw [State.eth_settled, State.showPaused_eq, State.eth_set, EthPort.paused, quanta, Map.get_put_same]
    rfl
  · have apart : (Blk.ethStat p).base + (Reg.EthStat.COUNTER 40).off ≠ (Blk.ethMac p).base + Reg.EthMac.STATUS_PAUSED.off := by
      simp only [ethStat_base, ethMac_base, Reg.EthStat.COUNTER, Reg.EthMac.STATUS_PAUSED]
      omega
    rw [State.ethStat_fld_settled, State.showPaused_eq, State.fld_set_word _ _ _ _ _ _ apart]
    exact v.stat_counter_same p 40 _
  · intro r hr
    rw [State.eth_settled, State.showPaused_eq, State.eth_set, quanta, Map.get_put_other _ _ _ _ hr]

theorem pauseExpire_answers_early {s : State} {p q : Nat} (early : 1000 * s.nextNs < s.pauseEnd p q) :
    Answers (.pauseExpire p q) s (OnlyWords s · []) :=
  ⟨_, if_neg (fun h => Nat.not_le.mpr early h.2.2), State.settled_only s⟩

/-! PAUSE sent (R342) -/

/-- A link PAUSE is sent and counted; the registers of the MAC page stay. -/
theorem State.sendPause_spec {s : State} {p : Nat} (hp : p < 4) (mode : s.fld (.ethMac p) Reg.EthMac.PAUSE_TX_MODE = 1)
    (n : Nat) :
    let t := (s.sendPause p n).settled
    (t.eth p).pauseTx = some (none, n) ∧
      t.fld (.ethStat p) (Reg.EthStat.COUNTER 29) = (s.fld (.ethStat p) (Reg.EthStat.COUNTER 29) + 1) % 2 ^ 32 ∧
      ∀ g : Fld, g.off < 0x1000 → t.fld (.ethMac p) g = s.fld (.ethMac p) g := by
  let u := s.setEth p { s.eth p with pauseTx := some (none, n), txEnd := max (s.eth p).txEnd s.deviceNs + s.wireNs p 64 }
  have sent : s.sendPause p n = u.stat p 29 := by
    unfold State.sendPause
    rw [mode]
    rfl
  have words : OnlyWords u (u.stat p 29) (statWords p) := u.stat_only p 1 (by decide)
  intro t
  simp only [t, sent, State.eth_settled, State.ethStat_fld_settled, State.ethMac_fld_settled, words.eth_eq]
  exact ⟨congrArg EthPort.pauseTx (State.eth_setEth_same _ _ _), u.stat_counter_same p 29 1,
    fun g hg => words.netWords.ethMac_fld hp hp hg⟩

section

variable {s : State} {p : Nat} (hp : p < 4) (here : s.hasEth p = true)
  (mode : s.fld (.ethMac p) Reg.EthMac.PAUSE_TX_MODE = 1)

include hp here mode

theorem highWater_answers (below : s.bit (.ethMac p) Reg.EthMac.STATUS_ABOVE_HIGH = false) :
    Answers (.highWater p) s (fun t => t.bit (.ethMac p) Reg.EthMac.STATUS_ABOVE_HIGH = true ∧
      (t.fld (.ethMac p) Reg.Hdr.EVENTS).testBit 4 = true ∧
      (t.eth p).pauseTx = some (none, s.fld (.ethMac p) Reg.EthMac.TX_QUANTA) ∧
      t.fld (.ethStat p) (Reg.EthStat.COUNTER 29) = (s.fld (.ethStat p) (Reg.EthStat.COUNTER 29) + 1) % 2 ^ 32) := by
  let v := s.set (.ethMac p) Reg.EthMac.STATUS_ABOVE_HIGH 1
  let u := v.event (.ethMac p) 4
  have kept (g : Fld) (h : Apart Reg.EthMac.STATUS_ABOVE_HIGH g) (h' : Apart Reg.Hdr.EVENTS g) :
      u.fld (.ethMac p) g = s.fld (.ethMac p) g :=
    (State.fld_event_apart _ _ _ h').trans (State.fld_set_apart _ _ _ h)
  have counter : u.fld (.ethStat p) (Reg.EthStat.COUNTER 29) = s.fld (.ethStat p) (Reg.EthStat.COUNTER 29) := by
    refine (State.fld_event_word _ _ _ ?_).trans (State.fld_set_word _ _ _ _ _ _ ?_) <;>
      simp only [wordAt, ethStat_base, ethMac_base, Reg.EthStat.COUNTER, Reg.EthMac.STATUS_ABOVE_HIGH, Reg.Hdr.EVENTS] <;>
      omega
  obtain ⟨sent, counted, mac⟩ := State.sendPause_spec (s := u) hp ((kept _ (by decide) (by decide)).trans mode)
    (s.fld (.ethMac p) Reg.EthMac.TX_QUANTA)
  refine ⟨_, if_pos ⟨here, by rw [below]; rfl⟩, ?_, ?_, sent, counted.trans (by rw [counter])⟩
  · exact (State.bit_eq_of_fld (mac _ (by decide))).trans ((State.bit_event_apart _ _ _ (by decide)).trans
      (State.bit_set_one _ _ ⟨by decide, by decide⟩ rfl))
  · rw [mac _ (by decide)]
    exact v.event_recorded _ (by decide)

theorem pauseTxRepeat_answers_above (above : s.bit (.ethMac p) Reg.EthMac.STATUS_ABOVE_HIGH = true) :
    Answers (.pauseTxRepeat p true) s (fun t => t.bit (.ethMac p) Reg.EthMac.STATUS_ABOVE_HIGH = true ∧
      (t.eth p).pauseTx = some (none, s.fld (.ethMac p) Reg.EthMac.TX_QUANTA) ∧
      t.fld (.ethStat p) (Reg.EthStat.COUNTER 29) = (s.fld (.ethStat p) (Reg.EthStat.COUNTER 29) + 1) % 2 ^ 32) := by
  obtain ⟨sent, counted, mac⟩ := State.sendPause_spec hp mode (s.fld (.ethMac p) Reg.EthMac.TX_QUANTA)
  exact ⟨_, if_pos ⟨here, above⟩, (State.bit_eq_of_fld (mac _ (by decide))).trans above, sent, counted⟩

theorem pauseTxRepeat_answers_below (above : s.bit (.ethMac p) Reg.EthMac.STATUS_ABOVE_HIGH = true) :
    Answers (.pauseTxRepeat p false) s (fun t => t.bit (.ethMac p) Reg.EthMac.STATUS_ABOVE_HIGH = false ∧
      (t.eth p).pauseTx = some (none, 0) ∧
      t.fld (.ethStat p) (Reg.EthStat.COUNTER 29) = (s.fld (.ethStat p) (Reg.EthStat.COUNTER 29) + 1) % 2 ^ 32) := by
  let u := s.set (.ethMac p) Reg.EthMac.STATUS_ABOVE_HIGH 0
  have counter : u.fld (.ethStat p) (Reg.EthStat.COUNTER 29) = s.fld (.ethStat p) (Reg.EthStat.COUNTER 29) := by
    refine State.fld_set_word _ _ _ _ _ _ ?_
    simp only [ethStat_base, ethMac_base, Reg.EthStat.COUNTER, Reg.EthMac.STATUS_ABOVE_HIGH]
    omega
  obtain ⟨sent, counted, mac⟩ := State.sendPause_spec (s := u) hp ((State.fld_set_apart _ _ _ (by decide)).trans mode) 0
  refine ⟨_, if_pos ⟨here, above⟩, ?_, sent, counted.trans (by rw [counter])⟩
  exact (State.bit_eq_of_fld (mac _ (by decide))).trans (State.bit_set_zero _ _ ⟨by decide, by decide⟩ rfl)

end

end Sys2Proof.Machine
end

section
/-! PROOFS. Ethernet ports: host frames, management and received frames (R318, R319, R338, R344, R345); the statement on ports. -/

namespace Sys2Proof.Machine

open Sys2Proof

/-! Host frames (R338) -/

section

variable {s : State} {p len q : Nat} (here : s.hasEth p = true) (hq : q < 8)

include here hq

theorem xtxSend_answers_queued (held : len ≤ (s.eth p).xtx.length) (use : s.queueUse p q = 0) (least : 60 ≤ len)
    (most : len ≤ s.ethMtu p + 18) : Answers (.xtxSend p len q) s (fun t => (t.eth p).xtx = [] ∧
      (t.eth p).queue q = (s.eth p).queue q ++ [{ len := len + 4, body := .host ((s.eth p).xtx.take len) }] ∧
      NetWords s t []) := by
  let u := s.setEth p { s.eth p with xtx := [] }
  let f : TxFrame := { len := len + 4, body := .host ((s.eth p).xtx.take len) }
  have sent : s.xtxSend p len (q % 8) = u.enqueue p q f := by
    rw [Nat.mod_eq_of_lt hq]
    refine if_neg ?_
    simp only [not_or, not_lt, ne_eq, not_not]
    exact ⟨held, use, least, most⟩
  have port : (u.enqueue p q f).eth p = (u.eth p).setQueue q ((u.eth p).queue q ++ [f]) := u.eth_enqueue p q f
  refine ⟨_, congrArg settle ((if_pos here).trans sent), ?_, ?_, ((NetWords.setEth s p _ []).trans (NetWords.setEth u p _ [])).settled⟩
  · rw [State.eth_settled, port, State.eth_setEth_same]
    rfl
  · rw [State.eth_settled, port, EthPort.queue_setQueue_same, State.eth_setEth_same]
    rfl

theorem xtxSend_answers_refused (bad : ¬ (len ≤ (s.eth p).xtx.length ∧ s.queueUse p q = 0 ∧ 60 ≤ len ∧ len ≤ s.ethMtu p + 18)) :
    Answers (.xtxSend p len q) s (fun t => t.eth p = { s.eth p with xtx := [] } ∧
      (t.fld (.ethMac p) Reg.Hdr.EVENTS).testBit 3 = true ∧ NetWords s t [wordAt (.ethMac p) Reg.Hdr.EVENTS]) := by
  let u := s.setEth p { s.eth p with xtx := [] }
  have refused : s.xtxSend p len (q % 8) = u.event (.ethMac p) 3 := by
    rw [Nat.mod_eq_of_lt hq]
    refine if_pos (by_contra fun fine => bad ?_)
    simp only [not_or, not_lt, ne_eq, not_not] at fine
    exact fine
  refine ⟨_, congrArg settle ((if_pos here).trans refused), ?_, ?_, ((NetWords.setEth s p _ _).trans (u.stick_only 3 rfl).netWords).settled⟩
  · rw [State.eth_settled, State.eth_event, State.eth_setEth_same]
  · rw [State.ethMac_fld_settled]
    exact u.event_recorded _ (by decide)

end

/-! Management (R345) -/

theorem mdioCmd_answers {s : State} {p : Nat} (here : s.hasEth p = true) (unit_ : 2 ≤ p) (w : Word) :
    Answers (.mdioCmd p w) s (fun t => t.eth p = { s.eth p with mdio := some w } ∧
      t.bit (.ethMac p) Reg.EthMac.STATUS_MDIO_BUSY = true) := by
  refine ⟨_, congrArg settle ((if_pos here).trans (if_neg (Nat.not_lt.mpr unit_))), ?_, ?_⟩
  · rw [State.eth_settled, State.eth_set, State.eth_setEth_same]
  · rw [State.ethMac_bit_settled]
    exact State.bit_set_one _ _ ⟨by decide, by decide⟩ rfl

theorem mdioCmd_answers_none {s : State} {p : Nat} (none_ : p < 2) (w : Word) : Answers (.mdioCmd p w) s (OnlyWords s · []) :=
  ⟨_, congrArg settle (when_keeps id (if_pos none_)), State.settled_only s⟩

theorem mdioDone_answers {s : State} {p : Nat} (here : s.hasEth p = true) {w : Word} (busy : (s.eth p).mdio = some w) (data : Nat) :
    Answers (.mdioDone p data) s (fun t => t.eth p = { s.eth p with mdio := none } ∧
      t.bit (.ethMac p) Reg.EthMac.STATUS_MDIO_BUSY = false ∧ (t.fld (.ethMac p) Reg.Hdr.EVENTS).testBit 5 = true ∧
      t.fld (.ethMac p) Reg.EthMac.MDIO_DATA = (if bitsOf w 11 10 = 2 ∨ (w.getLsbD 12 = true ∧ bitsOf w 11 10 = 3)
        then data % 2 ^ Reg.EthMac.MDIO_DATA.width else s.fld (.ethMac p) Reg.EthMac.MDIO_DATA)) := by
  let reads := bitsOf w 11 10 = 2 ∨ (w.getLsbD 12 = true ∧ bitsOf w 11 10 = 3)
  let u := (s.setEth p { s.eth p with mdio := none }).set (.ethMac p) Reg.EthMac.STATUS_MDIO_BUSY 0
  let v := if reads then u.set (.ethMac p) Reg.EthMac.MDIO_DATA data else u
  have done : execMdioDone p data s = settle (v.event (.ethMac p) 5) := by
    unfold execMdioDone
    simp only [busy, here, Bool.not_true, Bool.false_eq_true, if_false, Bool.or_eq_true, Bool.and_eq_true, decide_eq_true_eq]
    rfl
  have port : v.eth p = { s.eth p with mdio := none } :=
    (when_keeps (State.eth · p) (State.eth_set _ _ _ _ _)).trans ((State.eth_set _ _ _ _ _).trans (State.eth_setEth_same _ _ _))
  have free : v.bit (.ethMac p) Reg.EthMac.STATUS_MDIO_BUSY = false :=
    (when_keeps (State.bit · (.ethMac p) Reg.EthMac.STATUS_MDIO_BUSY) (State.bit_set_apart _ _ _ (by decide))).trans
      (State.bit_set_zero _ _ ⟨by decide, by decide⟩ rfl)
  refine ⟨_, done, ?_, ?_, ?_, ?_⟩
  · rw [State.eth_settled, State.eth_event, port]
  · rw [State.ethMac_bit_settled, State.bit_event_apart _ _ _ (by decide), free]
  · rw [State.ethMac_fld_settled]
    exact v.event_recorded _ (by decide)
  · rw [State.ethMac_fld_settled, State.fld_event_apart _ _ _ (by decide)]
    by_cases h : reads
    · rw [if_pos h, show v = _ from if_pos h]
      exact State.fld_set_same _ _ _ _ ⟨by decide, by decide⟩
    · rw [if_neg h, show v = _ from if_neg h]
      exact State.fld_set_apart _ _ _ (by decide)

/-! Counting received frames (R318, R344) -/

/-- From `s` to `t` only statistics of port `p` change, and of its counters none of `kept`. -/
def StatsBut (p : Nat) (kept : List Nat) (s t : State) : Prop :=
  OnlyWords s t (statWords p) ∧
    ∀ i ∈ kept, t.fld (.ethStat p) (Reg.EthStat.COUNTER i) = s.fld (.ethStat p) (Reg.EthStat.COUNTER i)

theorem StatsBut.refl (p : Nat) (kept : List Nat) (s : State) : StatsBut p kept s s := ⟨OnlyWords.refl s _, fun _ _ => rfl⟩

theorem StatsBut.stat {p : Nat} {kept : List Nat} {s t : State} (h : StatsBut p kept s t) {i : Nat} (n : Nat) (hi : i < 48)
    (hk : i ∉ kept) : StatsBut p kept s (t.stat p i n) :=
  ⟨h.1.trans (t.stat_only p n hi), fun j hj => (t.stat_counter_other p n (fun e : j = i => hk (e ▸ hj))).trans (h.2 j hj)⟩

theorem StatsBut.ite {p : Nat} {kept : List Nat} {s t u : State} {c : Prop} [Decidable c] (h : StatsBut p kept s t)
    (k : StatsBut p kept s u) : StatsBut p kept s (if c then t else u) := by
  split <;> assumption

theorem sizeBin_le (n : Nat) : sizeBin n ≤ 6 := by
  unfold sizeBin
  repeat' split
  all_goals omega

theorem castOf_le (f : List Byte) : castOf f ≤ 2 := by
  unfold castOf
  repeat' split
  all_goals omega

section

variable {s : State} {p : Nat} {f : List Byte} (least : 60 ≤ f.length) (most : clientData f ≤ s.ethMtu p)

include least most

theorem State.rxCount_fcs (hp : p < 4) :
    s.rxCount p f .fcs = ((s.stat p 23 (f.length + 4)).stat p 19, false) := by
  have mtu : (s.stat p 23 (f.length + 4)).ethMtu p = s.ethMtu p :=
    (s.stat_only p _ (by decide)).netWords.ethMac_fld hp hp (by decide)
  have fits : ¬ (s.stat p 23 (f.length + 4)).ethMtu p < clientData f := by rwa [mtu, Nat.not_lt]
  unfold State.rxCount
  simp only [if_neg (show ¬ f.length + 4 < 64 by omega), if_neg fits]

/-- A good frame: it counts among the frames received, and not among those with a bad FCS. -/
theorem State.rxCount_good (hp : p < 4) : ∃ u, s.rxCount p f .none = (u, true) ∧ OnlyWords s u (statWords p) ∧
    u.fld (.ethStat p) (Reg.EthStat.COUNTER 1) = (s.fld (.ethStat p) (Reg.EthStat.COUNTER 1) + 1) % 2 ^ 32 ∧
    u.fld (.ethStat p) (Reg.EthStat.COUNTER 19) = s.fld (.ethStat p) (Reg.EthStat.COUNTER 19) := by
  have mtu : (s.stat p 23 (f.length + 4)).ethMtu p = s.ethMtu p :=
    (s.stat_only p _ (by decide)).netWords.ethMac_fld hp hp (by decide)
  have fits : ¬ (s.stat p 23 (f.length + 4)).ethMtu p < clientData f := by rwa [mtu, Nat.not_lt]
  let octets := (s.stat p 23 (f.length + 4)).stat p 0 (f.length + 4)
  have before : StatsBut p [1, 19] s octets :=
    ((StatsBut.refl p _ s).stat _ (by decide) (by decide)).stat _ (by decide) (by decide)
  have later : ∃ u, s.rxCount p f .none = (u, true) ∧ StatsBut p [1, 19] (octets.stat p 1) u := by
    have cast := castOf_le f
    have bin := sizeBin_le (f.length + 4)
    unfold State.rxCount
    simp only [if_neg (show ¬ f.length + 4 < 64 by omega), if_neg fits]
    refine ⟨_, rfl, StatsBut.stat ?_ _ (by omega) (by simp; omega)⟩
    have tagged := ((StatsBut.refl p [1, 19] (octets.stat p 1)).stat (i := 2 + castOf f) 1 (by omega) (by simp; omega))
    split
    · exact (StatsBut.ite (tagged.stat _ (by decide) (by decide)) tagged).stat _ (by decide) (by decide)
    · exact (StatsBut.ite (tagged.stat _ (by decide) (by decide)) tagged).stat _ (by decide) (by decide)
    · exact StatsBut.ite (tagged.stat _ (by decide) (by decide)) tagged
  obtain ⟨u, counted, words, kept⟩ := later
  refine ⟨u, counted, (before.1.trans (octets.stat_only p 1 (by decide))).trans words, ?_, ?_⟩
  · rw [kept 1 (by simp), State.stat_counter_same, before.2 1 (by simp)]
  · rw [kept 19 (by simp), State.stat_counter_other _ _ _ (by decide), before.2 19 (by simp)]

end

/-- Whether a frame is forwarded does not depend on statistics (R343). -/
theorem State.forwards_eq {s t : State} {p : Nat} (hp : p < 4) (h : OnlyWords s t (statWords p)) (f : List Byte) :
    t.forwards p f = s.forwards p f := by
  have model : t.model = s.model := h.keeps State.model (fun _ _ => rfl)
  have mac (r : Nat) (hr : r < 4) (g : Fld) (hg : g.off < 0x1000) : t.fld (.ethMac r) g = s.fld (.ethMac r) g :=
    h.netWords.ethMac_fld hp hr hg
  have bridge : t.bridgeTo p = s.bridgeTo p := by
    unfold State.bridgeTo State.hasEth
    rw [State.bit_eq_of_fld (mac 2 (by decide) Reg.EthMac.BRIDGE_EN (by decide)), model]
  have own : t.macOf p = s.macOf p := by
    unfold State.macOf
    rw [mac p hp Reg.EthMac.MAC_HI (by decide), mac p hp Reg.EthMac.MAC_LO (by decide)]
  unfold State.forwards
  rw [bridge, own]

section

variable {s : State} {p : Nat} {f : List Byte} (hp : p < 4) (here : s.hasEth p = true)
  (link : s.bit (.ethMac p) Reg.EthMac.STATUS_LINK = true) (least : 60 ≤ f.length) (most : clientData f ≤ s.ethMtu p)

include hp here link least most

/-- A frame with a bad FCS that is not forwarded is counted, and no more (R318, R344). -/
theorem ethRxFrame_answers_fcs (at_ : Nat) (stays : s.forwards p f = false) : Answers (.ethRxFrame p at_ f .fcs) s (fun t =>
    t.fld (.ethStat p) (Reg.EthStat.COUNTER 19) = (s.fld (.ethStat p) (Reg.EthStat.COUNTER 19) + 1) % 2 ^ 32 ∧
    t.fld (.ethStat p) (Reg.EthStat.COUNTER 23) = (s.fld (.ethStat p) (Reg.EthStat.COUNTER 23) + (f.length + 4)) % 2 ^ 32 ∧
    t.net = s.net) := by
  let u := (s.stat p 23 (f.length + 4)).stat p 19
  have words : OnlyWords s u (statWords p) := (s.stat_only p _ (by decide)).trans (State.stat_only _ p 1 (by decide))
  have unforwarded : ((s.stat p 23 (f.length + 4)).stat p 19).forwards p f = false :=
    (State.forwards_eq hp words f).trans stays
  have counted : execEthRxFrame p at_ f .fcs s = settle u := by
    unfold execEthRxFrame
    simp only [here, link, State.rxCount_fcs least most hp, unforwarded, Bool.not_true, Bool.or_self, Bool.false_eq_true,
      if_false, Bool.and_false]
    rfl
  refine ⟨_, counted, ?_, ?_, ?_⟩
  · rw [State.ethStat_fld_settled, State.stat_counter_same, State.stat_counter_other _ _ _ (by decide)]
  · rw [State.ethStat_fld_settled, State.stat_counter_other _ _ _ (by decide), State.stat_counter_same]
  · rw [State.settled_net, words.net_eq]

/-- A PAUSE frame waits to act at the end of its reception (R319, R341). -/
theorem ethRxFrame_answers_pause (at_ : Nat) {times : Option Nat × List (Option Nat)} (type : (ethType f).1 = 0x8808)
    (pause : pauseTimes f = some times) : Answers (.ethRxFrame p at_ f .none) s (fun t =>
      t.eth p = { s.eth p with pauses := (s.eth p).pauses ++ [(at_ + s.bitsNs p (f.length + 4), times)] } ∧
      t.fld (.ethStat p) (Reg.EthStat.COUNTER 1) = (s.fld (.ethStat p) (Reg.EthStat.COUNTER 1) + 1) % 2 ^ 32 ∧
      t.fld (.ethStat p) (Reg.EthStat.COUNTER 19) = (s.fld (.ethStat p) (Reg.EthStat.COUNTER 19) + 0) % 2 ^ 32) := by
  obtain ⟨u, counted, words, good, bad⟩ := State.rxCount_good least most hp
  have stays : u.forwards p f = false := by simp only [State.forwards, pause, Option.isNone_some, Bool.and_false]
  have bits : u.bitsNs p (f.length + 4) = s.bitsNs p (f.length + 4) := by
    simp only [State.bitsNs, State.ethMbps, words.netWords.ethMac_fld hp hp (by decide : Reg.EthMac.CFG_MODE.off < 0x1000)]
  let v := u.setEth p { u.eth p with pauses := (u.eth p).pauses ++ [(at_ + u.bitsNs p (f.length + 4), times)] }
  have taken (stamp : Nat) : u.consume p at_ stamp f = (v, false) := by
    unfold State.consume
    simp only [type, if_true, pause]
    rfl
  have waits : execEthRxFrame p at_ f .none s = settle v := by
    unfold execEthRxFrame
    simp only [here, link, counted, stays, taken, Bool.not_true, Bool.or_self, Bool.false_eq_true, if_false, Bool.false_and]
  refine ⟨_, waits, ?_, ?_, ?_⟩
  · rw [State.eth_settled, State.eth_setEth_same, words.eth_eq, bits]
  · rw [State.ethStat_fld_settled, State.fld_setEth, good]
  · rw [State.ethStat_fld_settled, State.fld_setEth, bad]
    exact (Nat.mod_eq_of_lt (regGet_lt _ _ _ (counter_fits 19))).symm

end

/-- Settles O45, command by command. -/
theorem ethernetPorts : Obligations.EthernetPorts := by
  intro s p hp here m counted event
  refine ⟨fun on down => linkUp_answers here on down, fun up => linkDown_answers hp here up,
    fun down => linkDown_answers_unlinked down,
    fun at_ tm rest h => ⟨fun on all => pauseRx_answers h on all, fun off => pauseRx_answers_off h off⟩,
    fun q hq paused => ⟨fun due => pauseExpire_answers here paused due, fun early => pauseExpire_answers_early early⟩,
    fun mode => ⟨fun below => highWater_answers hp here mode below, fun above =>
      ⟨pauseTxRepeat_answers_below hp here mode above, pauseTxRepeat_answers_above hp here mode above⟩⟩,
    fun len q hq => ⟨fun ⟨held, use, least, most⟩ => xtxSend_answers_queued here hq held use least most,
      fun bad => xtxSend_answers_refused here hq bad⟩,
    fun w => ⟨fun unit_ => mdioCmd_answers here unit_ w, fun none_ => mdioCmd_answers_none none_ w,
      fun data busy => mdioDone_answers here busy data⟩,
    fun at_ f link least most => ⟨fun stays => ethRxFrame_answers_fcs hp here link least most at_ stays,
      fun times type pause => ethRxFrame_answers_pause hp here link least most at_ type pause⟩⟩

end Sys2Proof.Machine
end

section
/-! PROOFS. Transmission: which frame the MAC starts and what its start leaves in the port (R320, R321, R344). -/

namespace Sys2Proof.Machine

open Sys2Proof

/-! The highest-numbered queue -/

theorem find_highest {g : Nat → Bool} {n q : Nat} (hq : q < n) (here : g q = true) (above : ∀ r, q < r → r < n → g r = false) :
    (List.range n).reverse.find? g = some q := by
  induction n with
  | zero => cases hq
  | succ n ih =>
    rw [List.range_succ, List.reverse_append, List.reverse_singleton, List.singleton_append, List.find?_cons]
    rcases Nat.lt_succ_iff_lt_or_eq.mp hq with low | rfl
    · rw [above n low (Nat.lt_succ_self n)]
      exact ih low (fun r hr hn => above r hr (Nat.lt_succ_of_lt hn))
    · rw [here]

/-- Without a gate list no gate closes: every frame fits. -/
theorem State.fits_ungated {s : State} {p : Nat} (gcl : (s.eth p).gcl = none) (change : (s.eth p).change = none) (q t : Nat)
    (f : TxFrame) : s.fits p q t f = true := by
  have left : s.gateLeft p q t = none := by
    unfold State.gateLeft
    dsimp only
    rw [gcl, change]
  unfold State.fits
  rw [left]

/-! The frame that starts -/

/-- Port `p` may start frame `f` of queue `q` at `t`: its link is up and its last frame has ended, there is no gate list, the
gate is open, the queue neither paused nor shaped, the one-step channel of the frame free, and no higher queue holds a frame. -/
structure State.Sends (s : State) (p t q : Nat) (f : TxFrame) (rest : List TxFrame) : Prop where
  link : s.bit (.ethMac p) Reg.EthMac.STATUS_LINK = true
  ended : (s.eth p).txEnd ≤ t
  gcl : (s.eth p).gcl = none
  change : (s.eth p).change = none
  queue : q < 8
  head : (s.eth p).queue q = f :: rest
  highest : ∀ r, q < r → r < 8 → (s.eth p).queue r = []
  gate : (s.fld (.ethGate p) Reg.EthGate.IDLE_STATES).testBit q = true
  unpaused : (s.eth p).paused q = false
  unshaped : s.slope p q = 0
  free : ∀ c, s.oneStepOf f = some c → Map.get 0 c (s.eth p).oneStep ≤ t

/-- What the port is once frame `f` of queue `q` has started at `t`: the frame has left its queue, is on the wire until its
length has been sent, and holds its one-step channel until then. -/
structure State.Started (s : State) (p t q : Nat) (f : TxFrame) (rest : List TxFrame) (e : EthPort) : Prop where
  head : e.queue q = rest
  queues : ∀ r, r ≠ q → e.queue r = (s.eth p).queue r
  wire : e.wire = some (q, f)
  txEnd : e.txEnd = t + s.wireNs p f.len
  channel : ∀ c, s.oneStepOf f = some c → Map.get 0 c e.oneStep = t + s.wireNs p f.len

/-- Credits do not matter to it. -/
theorem State.Sends.credited {s : State} {p t q : Nat} {f : TxFrame} {rest : List TxFrame} (h : s.Sends p t q f rest) :
    (s.creditTo p t).Sends p t q f rest := by
  obtain ⟨c, d, credited⟩ := s.creditTo_shape p t
  rw [credited]
  constructor
  case link => exact h.link
  case queue => exact h.queue
  case gate => exact h.gate
  case unshaped => exact h.unshaped
  case free =>
    rw [State.eth_setEth_same]
    exact h.free
  all_goals rw [State.eth_setEth_same]
  exacts [h.ended, h.gcl, h.change, h.head, h.highest, h.unpaused]

theorem State.txCast_le (s : State) (f : TxFrame) : s.txCast f ≤ 2 := by
  have cast := castOf_le f.bytes
  unfold State.txCast
  dsimp only
  repeat' split
  all_goals omega

/-- The statistics of a frame that is sent (R344). -/
def State.countSent (s : State) (p : Nat) (f : TxFrame) : State :=
  let s := (s.stat p 24 f.len).stat p 25
  let s := s.stat p (26 + s.txCast f)
  let s := if s.txTagged f then s.stat p 31 else s
  s.stat p (32 + sizeBin f.len)

theorem State.countSent_spec (s : State) (p : Nat) (f : TxFrame) :
    OnlyWords s (s.countSent p f) (statWords p) ∧
    (s.countSent p f).fld (.ethStat p) (Reg.EthStat.COUNTER 24) =
      (s.fld (.ethStat p) (Reg.EthStat.COUNTER 24) + f.len) % 2 ^ 32 ∧
    (s.countSent p f).fld (.ethStat p) (Reg.EthStat.COUNTER 25) = (s.fld (.ethStat p) (Reg.EthStat.COUNTER 25) + 1) % 2 ^ 32 := by
  let u := (s.stat p 24 f.len).stat p 25
  have cast := u.txCast_le f
  have bin := sizeBin_le f.len
  have sent : OnlyWords s u (statWords p) := (s.stat_only p _ (by decide)).trans (State.stat_only _ p 1 (by decide))
  have kinds := (StatsBut.refl p [24, 25] u).stat (i := 26 + u.txCast f) 1 (by omega)
    (by simp only [List.mem_cons, List.not_mem_nil, or_false]; omega)
  have rest : StatsBut p [24, 25] u (s.countSent p f) :=
    (StatsBut.ite (kinds.stat 1 (by decide) (by decide)) kinds).stat 1 (by omega)
    (by simp only [List.mem_cons, List.not_mem_nil, or_false]; omega)
  refine ⟨sent.trans rest.1, ?_, ?_⟩
  · rw [rest.2 24 (by simp), State.stat_counter_other _ _ _ (by decide), State.stat_counter_same]
  · rw [rest.2 25 (by simp), State.stat_counter_same, State.stat_counter_other _ _ _ (by decide)]

/-- The frame is started and counted, and its departure follows (R321). -/
theorem State.Sends.frameStart_eq {s : State} {p t q : Nat} {f : TxFrame} {rest : List TxFrame} (h : s.Sends p t q f rest) :
    ∃ e, s.frameStart p t = (((s.creditTo p t).setEth p e).countSent p f).departed p t f ∧ s.Started p t q f rest e := by
  have k := h.credited
  obtain ⟨c, d, credited⟩ := s.creditTo_shape p t
  have fits (r : Nat) (g : TxFrame) : (s.creditTo p t).fits p r t g = true := State.fits_ungated k.gcl k.change r t g
  have gates : (s.creditTo p t).gates p = (s.creditTo p t).fld (.ethGate p) Reg.EthGate.IDLE_STATES := by
    unfold State.gates
    dsimp only
    rw [k.gcl]
  have going : ¬ (!(s.creditTo p t).bit (.ethMac p) Reg.EthMac.STATUS_LINK || decide (t < ((s.creditTo p t).eth p).txEnd)) = true := by
    simp [k.link, k.ended]
  have channel : ((s.creditTo p t).oneStepOf f).all (fun c => decide (Map.get 0 c ((s.creditTo p t).eth p).oneStep ≤ t)) = true := by
    simpa [Option.all_eq_true] using k.free
  have queues (r : Nat) : ((s.creditTo p t).eth p).queue r = (s.eth p).queue r := by
    rw [credited, State.eth_setEth_same]
    rfl
  unfold State.frameStart
  dsimp only
  rw [if_neg going, List.foldl_fixed', find_highest k.queue]
  case here => simp [k.head, gates, k.gate, k.unpaused, k.unshaped, fits, channel]
  case above =>
    intro r hr h8
    simp [k.highest r hr h8]
  case hf =>
    intro r
    split
    · simp [fits]
    · rfl
  simp only [k.head]
  refine ⟨_, rfl, EthPort.queue_setQueue_same _ _ _, fun r hr => ?_, rfl, rfl, fun c hc => ?_⟩
  · exact (EthPort.queue_setQueue_other _ _ hr).trans (queues r)
  · have own : (s.creditTo p t).oneStepOf f = some c := hc
    simp only [own]
    exact Map.get_put_same _ _ _ _

/-! Its departure -/

/-- What is on the wire with another body. -/
def EthPort.rewired (e : EthPort) (body : TxBody) : EthPort :=
  { e with wire := e.wire.map (fun w => (w.1, { w.2 with body := body })) }

/-- The departure time of a PTP event message, kept by the clock that sends it (R355). -/
def State.stampKept (s : State) (p t i kind : Nat) : State :=
  if kind = 0 || kind = 2 || kind = 4 then
    s.setInst i { s.inst i with stamps := (s.inst i).stamps.put 0 kind (s.txTime p t + (s.inst i).off) }
  else s

/-- A PTP clock's message departs: its time is kept, and where it is a Sync or a Pdelay_Resp its stamp goes on the wire
in the message itself or is queued in the one that follows (R355, R356). -/
theorem State.departed_ptp (s : State) (p t : Nat) {f : TxFrame} {i kind seq stamp : Nat} {corr rx : Int}
    (h : f.body = .ptp i kind seq stamp corr rx) : s.departed p t f =
      let u := s.stampKept p t i kind
      let at_ := s.txTime p t + (s.inst i).off
      if kind = 0 then
        (if u.oneStepOn i then u.setEth p ((u.eth p).rewired (.ptp i kind seq (at_ / 65536).toNat (corr + at_ % 65536)))
         else u.ptpEnqueue p (.ptp i 5 seq (at_ / 65536).toNat (at_ % 65536)))
      else if kind = 4 then
        (if u.oneStepOn i then u.setEth p ((u.eth p).rewired (.ptp i kind seq stamp (corr + (at_ - rx)) rx))
         else u.ptpEnqueue p (.ptp i 6 seq (at_ / 65536).toNat (at_ % 65536)))
      else u := by
  unfold State.departed
  rw [h]
  rfl

/-- What holds of a frame's start holds after its departure if it outlasts each thing that a departure can do: the frame on
the wire is restamped, a PTP clock's message follows it, stamps and records are kept, a forwarded frame is counted. -/
theorem State.departed_induction (I : State → Prop) {s : State} {p t : Nat} {f : TxFrame} (start : I s)
    (rewired : ∀ u body, I u → I (u.setEth p ((u.eth p).rewired body)))
    (queued : ∀ u body i kind seq stamp corr rx, f.body = .ptp i kind seq stamp corr rx → I u → I (u.ptpEnqueue p body))
    (inst : ∀ u i v, I u → I (u.setInst i v))
    (stream : ∀ u n k seq, I u → I { (u.count (.egress n) Reg.Egress.PACKETS).set (.egress n) Reg.Egress.LAST_SEQ seq with
      twin := { u.twin with sentSeq := u.twin.sentSeq.put 0 n k } })
    (stamped : ∀ u q, I u → I (u.setTsQueue p q))
    (forwarded : ∀ u i, i = 42 ∨ i = 43 → I u → I (u.stat p i)) : I (s.departed p t f) := by
  cases body : f.body with
  | ptp i kind seq stamp corr rx =>
    have kept : I (s.stampKept p t i kind) := by
      unfold State.stampKept
      split
      · exact inst _ _ _ start
      · exact start
    rw [State.departed_ptp s p t body]
    dsimp only
    repeat' split
    · exact rewired _ _ kept
    · exact queued _ _ _ _ _ _ _ _ body kept
    · exact rewired _ _ kept
    · exact queued _ _ _ _ _ _ _ _ body kept
    · exact kept
  | stream =>
    unfold State.departed
    simp only [body]
    exact stream _ _ _ _ start
  | host bytes =>
    unfold State.departed
    simp only [body]
    split
    · split
      · exact rewired _ _ start
      · exact stamped _ _ start
    · exact start
  | bridge bytes stomped rx =>
    unfold State.departed
    simp only [body]
    have counted := forwarded _ 42 (.inl rfl) (rewired s (.bridge (s.residence p bytes rx t) stomped rx) start)
    split
    · exact forwarded _ 43 (.inr rfl) counted
    · exact counted
  | _ =>
    unfold State.departed
    simp only [body]
    exact start

/-! What a departure leaves -/

theorem State.setInst_keeps {β : Type} (view : State → β) (h : ∀ (s : State) (tm : TimeState), view { s with time := tm } = view s)
    (s : State) (i : Nat) (v : Inst) : view (s.setInst i v) = view s := by
  unfold State.setInst
  split
  · exact h _ _
  · exact h _ _

theorem State.stampKept_keeps {β : Type} (view : State → β) (h : ∀ (s : State) (tm : TimeState), view { s with time := tm } = view s)
    (s : State) (p t i kind : Nat) : view (s.stampKept p t i kind) = view s :=
  when_keeps view (State.setInst_keeps view h s _ _)

theorem State.setTsQueue_fld (s : State) (p : Nat) (q : TsQueue) {b : Blk} {g : Fld} (h : b.base + g.off < 0x53000) :
    (s.setTsQueue p q).fld b g = s.fld b g := by
  have set_keeps (u : State) (f : Fld) (v : Nat) : (u.set .tsq f v).fld b g = u.fld b g :=
    u.fld_set_word _ _ _ _ _ (Nat.lt_of_lt_of_le h (Nat.le_add_right _ _)).ne
  unfold State.setTsQueue
  dsimp only
  simp only [set_keeps]
  rfl

theorem State.ptpEnqueue_cases (s : State) (p : Nat) (body : TxBody) :
    s.ptpEnqueue p body = s ∨ ∃ q f, s.ptpEnqueue p body = s.enqueue p q f := by
  unfold State.ptpEnqueue
  split
  · split
    · exact .inr ⟨_, _, rfl⟩
    · exact .inl rfl
  · exact .inl rfl

theorem State.ptpEnqueue_some {s : State} {p c : Nat} (here : s.hasEth p = true) (control : s.controlQueue p = some c)
    (body : TxBody) : s.ptpEnqueue p body = s.enqueue p c { len := 90, body := body } := by
  unfold State.ptpEnqueue
  rw [control]
  exact if_pos here

theorem State.ptpEnqueue_none {s : State} {p : Nat} (none_ : s.controlQueue p = none) (body : TxBody) :
    s.ptpEnqueue p body = s := by
  unfold State.ptpEnqueue
  rw [none_]

/-- A departure moves neither the frame's end nor the queue on the wire, and leaves the counters of frames and octets. -/
theorem State.departed_kept (s : State) {p : Nat} (hp : p < 4) (t : Nat) (f : TxFrame) :
    ((s.departed p t f).eth p).txEnd = (s.eth p).txEnd ∧
      ((s.departed p t f).eth p).wire.map (·.1) = (s.eth p).wire.map (·.1) ∧
      ∀ j, j < 42 → (s.departed p t f).fld (.ethStat p) (Reg.EthStat.COUNTER j) = s.fld (.ethStat p) (Reg.EthStat.COUNTER j) := by
  have page (j : Nat) (hj : j < 42) : (Blk.ethStat p).base + (Reg.EthStat.COUNTER j).off < 0x53000 := by
    simp only [ethStat_base, Reg.EthStat.COUNTER]
    omega
  refine State.departed_induction (fun u => (u.eth p).txEnd = (s.eth p).txEnd ∧
    (u.eth p).wire.map (·.1) = (s.eth p).wire.map (·.1) ∧
    ∀ j, j < 42 → u.fld (.ethStat p) (Reg.EthStat.COUNTER j) = s.fld (.ethStat p) (Reg.EthStat.COUNTER j))
    ⟨rfl, rfl, fun _ _ => rfl⟩ ?_ ?_ ?_ ?_ ?_ ?_
  case refine_1 =>
    rintro u body ⟨ends, wire, counters⟩
    rw [State.eth_setEth_same]
    refine ⟨ends, Eq.trans ?_ wire, counters⟩
    exact Option.map_map _ _ _
  case refine_2 =>
    rintro u body - - - - - - - ⟨ends, wire, counters⟩
    rcases u.ptpEnqueue_cases p body with same | ⟨q, g, queued⟩
    · rw [same]
      exact ⟨ends, wire, counters⟩
    · rw [queued, State.eth_enqueue]
      exact ⟨ends, wire, counters⟩
  case refine_3 =>
    rintro u i v ⟨ends, wire, counters⟩
    rw [State.setInst_keeps (State.eth · p) (fun _ _ => rfl)]
    exact ⟨ends, wire, fun j hj => (State.setInst_keeps (State.fld · _ _) (fun _ _ => rfl) u i v).trans (counters j hj)⟩
  case refine_4 =>
    rintro u n k seq ⟨ends, wire, counters⟩
    have apart (g : Fld) (j : Nat) (hj : j < 42) :
        (Blk.ethStat p).base + (Reg.EthStat.COUNTER j).off ≠ (Blk.egress n).base + g.off := by
      have := page j hj
      rw [egress_base]
      omega
    exact ⟨ends, wire, fun j hj => (State.fld_set_word _ _ _ _ _ _ (apart _ j hj)).trans
      ((State.fld_set_word _ _ _ _ _ _ (apart _ j hj)).trans (counters j hj))⟩
  case refine_5 =>
    rintro u q ⟨ends, wire, counters⟩
    exact ⟨ends, wire, fun j hj => (u.setTsQueue_fld p q (page j hj)).trans (counters j hj)⟩
  case refine_6 =>
    rintro u i hi ⟨ends, wire, counters⟩
    rw [(u.stat_only p 1 (by omega)).eth_eq]
    exact ⟨ends, wire, fun j hj => (u.stat_counter_other p 1 (by omega)).trans (counters j hj)⟩

/-- Only a PTP clock's message can be followed by another in a queue. -/
theorem State.departed_queues (s : State) (p t : Nat) {f : TxFrame}
    (h : (∀ i kind seq stamp corr rx, f.body ≠ .ptp i kind seq stamp corr rx) ∨ s.controlQueue p = none) :
    ((s.departed p t f).eth p).queues = (s.eth p).queues := by
  have other (plain : ∀ i kind seq stamp corr rx, f.body ≠ .ptp i kind seq stamp corr rx) :
      ((s.departed p t f).eth p).queues = (s.eth p).queues := by
    refine State.departed_induction (fun u => (u.eth p).queues = (s.eth p).queues) rfl ?_ ?_ ?_ ?_ ?_ ?_
    case refine_1 =>
      intro u body kept
      rwa [State.eth_setEth_same]
    case refine_2 => exact fun u body i kind seq stamp corr rx ptp => absurd ptp (plain i kind seq stamp corr rx)
    case refine_3 =>
      intro u i v kept
      rwa [State.setInst_keeps (State.eth · p) (fun _ _ => rfl)]
    case refine_4 => exact fun u n k seq kept => kept
    case refine_5 => exact fun u q kept => kept
    case refine_6 =>
      intro u i hi kept
      rwa [(u.stat_only p 1 (by omega)).eth_eq]
  rcases h with plain | none_
  · exact other plain
  · cases body : f.body with
    | ptp i kind seq stamp corr rx =>
      let u := s.stampKept p t i kind
      have port : u.eth p = s.eth p := State.stampKept_keeps (State.eth · p) (fun _ _ => rfl) s p t i kind
      have control : u.controlQueue p = none :=
        (State.stampKept_keeps (State.controlQueue · p) (fun _ _ => rfl) s p t i kind).trans none_
      have queues : (u.eth p).queues = (s.eth p).queues := congrArg EthPort.queues port
      have onWire (b : TxBody) : ((u.setEth p ((u.eth p).rewired b)).eth p).queues = (s.eth p).queues :=
        (congrArg EthPort.queues (State.eth_setEth_same _ _ _)).trans queues
      have follows (b : TxBody) : ((u.ptpEnqueue p b).eth p).queues = (s.eth p).queues := by
        rwa [State.ptpEnqueue_none control]
      rw [State.departed_ptp s p t body]
      dsimp only
      repeat' split
      · exact onWire _
      · exact follows _
      · exact onWire _
      · exact follows _
      · exact queues
    | _ => exact other (fun i kind seq stamp corr rx ptp => by rw [body] at ptp; cases ptp)

/-! What a start of a frame does not touch -/

theorem NetWords.inst {s v : State} {ws : List Nat} (h : NetWords s v ws) (i : Nat) : v.inst i = s.inst i :=
  h.keeps (State.inst · i) (fun _ _ => rfl) (fun _ _ => rfl)

theorem NetWords.hasEth {s v : State} {ws : List Nat} (h : NetWords s v ws) (p : Nat) : v.hasEth p = s.hasEth p :=
  h.keeps (State.hasEth · p) (fun _ _ => rfl) (fun _ _ => rfl)

section

variable {s v : State} {p : Nat} (hp : p < 4) (h : NetWords s v (statWords p))

include hp h

theorem NetWords.txTime (t : Nat) : v.txTime p t = s.txTime p t := by
  have mode : v.fld (.ethMac p) Reg.EthMac.CFG_MODE = s.fld (.ethMac p) Reg.EthMac.CFG_MODE := h.ethMac_fld hp hp (by decide)
  have latency : v.fld .tsq (Reg.Tsq.Q_TX_LAT p) = s.fld .tsq (Reg.Tsq.Q_TX_LAT p) :=
    h.fld_outside hp (Nat.le_add_right_of_le (by decide)) (.inr (Nat.le_add_right_of_le (by decide)))
  unfold State.txTime State.latOf State.ethMbps
  rw [mode, latency]

theorem NetWords.oneStepOn (i : Nat) : v.oneStepOn i = s.oneStepOn i :=
  State.bit_eq_of_fld (h.fld_outside hp (by rw [Blk.base]; omega) (.inr (by rw [Blk.base]; omega)))

theorem NetWords.controlQueue : v.controlQueue p = s.controlQueue p := by
  have use (q : Nat) (hq : q ∈ List.range 8) :
      decide (v.queueUse p q = 1) = decide (s.queueUse p q = 1) := by
    have below := List.mem_range.mp hq
    have kept : v.queueUse p q = s.queueUse p q := h.ethMac_fld hp hp (by simp only [Reg.EthMac.QUEUE_USE]; omega)
    rw [kept]
  exact List.find?_congr use

end

/-! FRAME_START (R321) -/

section

variable {s : State} {p t q : Nat} {f : TxFrame} {rest : List TxFrame} (hp : p < 4) (here : s.hasEth p = true)
  (h : s.Sends p t q f rest)

include h

/-- Before its departure the frame has left its queue, is on the wire and counted, and besides the network side only the
statistics have changed. -/
theorem State.Sends.frameStart_departed : ∃ v, s.frameStart p t = v.departed p t f ∧ s.Started p t q f rest (v.eth p) ∧
    NetWords s v (statWords p) ∧
    v.fld (.ethStat p) (Reg.EthStat.COUNTER 24) = (s.fld (.ethStat p) (Reg.EthStat.COUNTER 24) + f.len) % 2 ^ 32 ∧
    v.fld (.ethStat p) (Reg.EthStat.COUNTER 25) = (s.fld (.ethStat p) (Reg.EthStat.COUNTER 25) + 1) % 2 ^ 32 := by
  obtain ⟨e, starts, started⟩ := h.frameStart_eq
  obtain ⟨c, d, credited⟩ := s.creditTo_shape p t
  rw [credited] at starts
  obtain ⟨words, octets, frames⟩ :=
    ((s.setEth p { s.eth p with credit := c, creditAt := d }).setEth p e).countSent_spec p f
  refine ⟨_, starts, ?_, (NetWords.setEth s p _ _).trans ((NetWords.setEth _ p e _).trans words.netWords), octets, frames⟩
  rwa [words.eth_eq, State.eth_setEth_same]

include hp

theorem State.Sends.frameStart_oneStep {i seq stamp : Nat} {corr rx : Int} (sync : f.body = .ptp i 0 seq stamp corr rx)
    (oneStep : s.oneStepOn i = true) :
    let at_ := s.txTime p t + (s.inst i).off
    ((s.frameStart p t).eth p).queue q = rest ∧
      ((s.frameStart p t).eth p).wire =
        some (q, { f with body := .ptp i 0 seq (at_ / 65536).toNat (corr + at_ % 65536) }) ∧
      Map.get 0 i ((s.frameStart p t).eth p).oneStep = t + s.wireNs p f.len := by
  intro at_
  obtain ⟨v, starts, started, words, -⟩ := h.frameStart_departed
  let u := v.stampKept p t i 0
  have port : u.eth p = v.eth p := State.stampKept_keeps (State.eth · p) (fun _ _ => rfl) v p t i 0
  have one : u.oneStepOn i = true :=
    (State.stampKept_keeps (State.oneStepOn · i) (fun _ _ => rfl) v p t i 0).trans ((words.oneStepOn hp i).trans oneStep)
  have channel : s.oneStepOf f = some i := by
    unfold State.oneStepOf
    rw [sync]
    exact if_pos oneStep
  have restamped : s.frameStart p t =
      u.setEth p ((u.eth p).rewired (.ptp i 0 seq (at_ / 65536).toNat (corr + at_ % 65536))) := by
    rw [starts, State.departed_ptp v p t sync, words.txTime hp, words.inst]
    exact if_pos one
  rw [restamped, State.eth_setEth_same, port]
  refine ⟨started.head, ?_, started.channel i channel⟩
  rw [EthPort.rewired, started.wire]
  rfl

include here

theorem frameStart_answers_followUp {i c seq stamp : Nat} {corr rx : Int} (sync : f.body = .ptp i 0 seq stamp corr rx)
    (twoStep : s.oneStepOn i = false) (control : s.controlQueue p = some c) :
    let at_ := s.txTime p t + (s.inst i).off
    Answers (.frameStart p t) s (fun u => (u.eth p).queue c = (if c = q then rest else (s.eth p).queue c) ++
      [{ len := 90, body := .ptp i 5 seq (at_ / 65536).toNat (at_ % 65536) }]) := by
  intro at_
  obtain ⟨v, starts, started, words, -⟩ := h.frameStart_departed
  let u := v.stampKept p t i 0
  have port : u.eth p = v.eth p := State.stampKept_keeps (State.eth · p) (fun _ _ => rfl) v p t i 0
  have two : ¬ u.oneStepOn i = true := by
    rw [State.stampKept_keeps (State.oneStepOn · i) (fun _ _ => rfl) v p t i 0, words.oneStepOn hp, twoStep]
    decide
  have here' : u.hasEth p = true :=
    (State.stampKept_keeps (State.hasEth · p) (fun _ _ => rfl) v p t i 0).trans ((words.hasEth p).trans here)
  have control' : u.controlQueue p = some c :=
    (State.stampKept_keeps (State.controlQueue · p) (fun _ _ => rfl) v p t i 0).trans ((words.controlQueue hp).trans control)
  have follows : s.frameStart p t =
      u.enqueue p c { len := 90, body := .ptp i 5 seq (at_ / 65536).toNat (at_ % 65536) } := by
    rw [starts, State.departed_ptp v p t sync, words.txTime hp, words.inst]
    exact (if_neg two).trans (State.ptpEnqueue_some here' control' _)
  have queue : (v.eth p).queue c = if c = q then rest else (s.eth p).queue c := by
    split
    next same => rw [same, started.head]
    next other => exact started.queues c other
  refine ⟨_, congrArg settle ((if_pos here).trans follows), ?_⟩
  dsimp only
  rw [State.eth_settled, State.eth_enqueue, EthPort.queue_setQueue_same, port, queue]

theorem frameStart_answers : Answers (.frameStart p t) s (fun u => (u.eth p).txEnd = t + s.wireNs p f.len ∧
    (u.eth p).wire.map (·.1) = some q ∧
    ((∀ i kind seq stamp corr rx, f.body ≠ .ptp i kind seq stamp corr rx) ∨ s.controlQueue p = none →
      (u.eth p).queue q = rest ∧ ∀ r, r ≠ q → (u.eth p).queue r = (s.eth p).queue r) ∧
    (∀ i seq stamp corr rx, i < 2 → f.body = .ptp i 0 seq stamp corr rx → s.oneStepOn i = true →
      (u.eth p).queue q = rest ∧ (u.eth p).wire = some (q, { f with
        body := .ptp i 0 seq ((s.txTime p t + (s.inst i).off) / 65536).toNat
          (corr + (s.txTime p t + (s.inst i).off) % 65536) }) ∧
      Map.get 0 i (u.eth p).oneStep = t + s.wireNs p f.len) ∧
    u.fld (.ethStat p) (Reg.EthStat.COUNTER 24) = (s.fld (.ethStat p) (Reg.EthStat.COUNTER 24) + f.len) % 2 ^ 32 ∧
    u.fld (.ethStat p) (Reg.EthStat.COUNTER 25) = (s.fld (.ethStat p) (Reg.EthStat.COUNTER 25) + 1) % 2 ^ 32) := by
  obtain ⟨v, starts, started, words, octets, frames⟩ := h.frameStart_departed
  obtain ⟨ends, wire, counters⟩ := v.departed_kept hp t f
  rw [← starts] at ends wire counters
  refine ⟨_, congrArg settle (if_pos here), ?_⟩
  simp only [State.eth_settled, State.ethStat_fld_settled]
  refine ⟨ends.trans started.txEnd, wire.trans (congrArg (Option.map _) started.wire), fun quiet => ?_,
    fun i seq stamp corr rx _ sync oneStep => h.frameStart_oneStep hp sync oneStep,
    (counters 24 (by decide)).trans octets, (counters 25 (by decide)).trans frames⟩
  have queues : ((s.frameStart p t).eth p).queues = (v.eth p).queues := by
    rw [starts]
    exact v.departed_queues p t (quiet.imp_right (words.controlQueue hp).trans)
  have queue (r : Nat) : ((s.frameStart p t).eth p).queue r = (v.eth p).queue r := congrArg (Map.get [] r) queues
  exact ⟨(queue q).trans started.head, fun r hr => (queue r).trans (started.queues r hr)⟩

end

/-! GATE_ENTRY_CHANGE and GCL_CHANGE (R340) -/

/-- A port with other credits. -/
def EthPort.credited (e : EthPort) (c : Map Int) (d : Nat) : EthPort := { e with credit := c, creditAt := d }

theorem State.creditTo_credited (s : State) (p t : Nat) : ∃ c d, s.creditTo p t = s.setEth p ((s.eth p).credited c d) :=
  s.creditTo_shape p t

section

variable {s : State} {p : Nat} {l : List (Nat × Nat)} (here : s.hasEth p = true) (operates : (s.eth p).gcl = some l)
  (due : (s.eth p).entryEnd < s.nextNs)

include here operates due

/-- The end of an entry that is due moves to the next entry of the cycle, or begins the next cycle. -/
theorem execGateEntryChange_eq : ∃ c d, execGateEntryChange p s =
    let e := (s.eth p).credited c d
    let u := s.setEth p e
    if (s.eth p).entry + 1 < l.length ∧ (s.eth p).entryEnd < (s.eth p).cycleEnd then
      settle ((u.setEth p (e.enter l (e.entry + 1) (s.eth p).entryEnd)).set (.ethGate p) Reg.EthGate.OPER_ENTRY (e.entry + 1))
    else
      settle (((u.setEth p ({ e with cycleEnd := e.cycleEnd + e.cycle }.enter l 0 (s.eth p).entryEnd)).set (.ethGate p)
        Reg.EthGate.OPER_ENTRY 0).count (.ethGate p) Reg.EthGate.CYCLES) := by
  obtain ⟨c, d, credited⟩ := s.creditTo_credited p (s.eth p).entryEnd
  have going : ¬ (!s.hasEth p || decide (s.nextNs ≤ (s.eth p).entryEnd)) = true := by simp [here, due]
  refine ⟨c, d, ?_⟩
  unfold execGateEntryChange
  dsimp only
  rw [operates]
  dsimp only
  rw [if_neg going, credited, State.eth_setEth_same]
  rfl

theorem gateEntryChange_answers_next (more : (s.eth p).entry + 1 < l.length) (within : (s.eth p).entryEnd < (s.eth p).cycleEnd) :
    Answers (.gateEntryChange p) s (fun t => (t.eth p).entry = (s.eth p).entry + 1 ∧
      (t.eth p).cycleEnd = (s.eth p).cycleEnd ∧ (t.eth p).gcl = some l ∧
      t.fld (.ethGate p) Reg.EthGate.OPER_ENTRY = ((s.eth p).entry + 1) % 2 ^ Reg.EthGate.OPER_ENTRY.width) := by
  obtain ⟨c, d, changes⟩ := execGateEntryChange_eq here operates due
  refine ⟨_, changes.trans (if_pos ⟨more, within⟩), ?_⟩
  dsimp only
  rw [State.eth_settled, State.eth_set, State.eth_setEth_same, State.ethGate_fld_settled]
  exact ⟨rfl, rfl, operates, State.fld_set_same _ _ _ _ ⟨by decide, by decide⟩⟩

theorem gateEntryChange_answers_cycle (last : l.length ≤ (s.eth p).entry + 1 ∨ (s.eth p).cycleEnd ≤ (s.eth p).entryEnd) :
    Answers (.gateEntryChange p) s (fun t => (t.eth p).entry = 0 ∧
      (t.eth p).cycleEnd = (s.eth p).cycleEnd + (s.eth p).cycle ∧ t.fld (.ethGate p) Reg.EthGate.OPER_ENTRY = 0 ∧
      t.fld (.ethGate p) Reg.EthGate.CYCLES =
        (s.fld (.ethGate p) Reg.EthGate.CYCLES + 1) % 2 ^ Reg.EthGate.CYCLES.width) := by
  obtain ⟨c, d, changes⟩ := execGateEntryChange_eq here operates due
  refine ⟨_, changes.trans (if_neg (by omega)), ?_⟩
  dsimp only
  rw [State.eth_settled, State.eth_count, State.eth_set, State.eth_setEth_same, State.ethGate_fld_settled,
    State.ethGate_fld_settled]
  refine ⟨rfl, rfl, ?_, ?_⟩
  · rw [State.fld_count_apart _ _ _ (by decide)]
    exact State.fld_set_same _ _ _ _ ⟨by decide, by decide⟩
  · rw [State.fld_count_same _ _ ⟨by decide, by decide⟩, State.fld_set_apart _ _ _ (by decide)]
    rfl

end

theorem gclChange_answers {s : State} {p at_ : Nat} (here : s.hasEth p = true) (awaits : (s.eth p).change = some at_)
    (due : at_ < s.nextNs) : Answers (.gclChange p) s (fun t => (t.eth p).entry = 0 ∧ (t.eth p).change = none ∧
      (t.eth p).gcl = some (s.gateList p) ∧ (t.eth p).cycleEnd = at_ + s.fld (.ethGate p) Reg.EthGate.CYCLE_NS ∧
      t.fld (.ethGate p) Reg.EthGate.CHANGE_PENDING = 0 ∧ t.fld (.ethGate p) Reg.EthGate.OPER_ENTRY = 0 ∧
      t.fld (.ethGate p) Reg.EthGate.CYCLES =
        (s.fld (.ethGate p) Reg.EthGate.CYCLES + 1) % 2 ^ Reg.EthGate.CYCLES.width ∧
      (t.fld (.ethGate p) Reg.Hdr.EVENTS).testBit 0 = true) := by
  obtain ⟨c, d, credited⟩ := s.creditTo_credited p at_
  let g := Blk.ethGate p
  let e : EthPort := (s.eth p).credited c d
  let cycle := s.fld g Reg.EthGate.CYCLE_NS
  let u := (s.setEth p e).setEth p
    ({ e with gcl := some (s.gateList p), change := none, cycle := cycle, cycleEnd := at_ + cycle }.enter (s.gateList p) 0 at_)
  let v := (u.set g Reg.EthGate.CHANGE_PENDING 0).set g Reg.EthGate.OPER_ENTRY 0
  let w := v.count g Reg.EthGate.CYCLES
  have going : ¬ (!s.hasEth p || decide (s.nextNs ≤ at_)) = true := by simp [here, due]
  have changes : execGclChange p s = settle (w.event g 0) := by
    unfold execGclChange
    dsimp only
    rw [awaits]
    dsimp only
    rw [if_neg going, credited, State.eth_setEth_same]
    rfl
  have port : (w.event g 0).eth p = u.eth p := (State.eth_event _ _ _ _).trans rfl
  refine ⟨_, changes, ?_⟩
  simp only [State.eth_settled, State.ethGate_fld_settled, port, u, State.eth_setEth_same]
  refine ⟨rfl, rfl, rfl, rfl, ?_, ?_, ?_, w.event_recorded _ (by decide)⟩
  · rw [State.fld_event_apart _ _ _ (by decide), State.fld_count_apart _ _ _ (by decide),
      State.fld_set_apart _ _ _ (by decide)]
    exact State.fld_set_same _ _ _ _ ⟨by decide, by decide⟩
  · rw [State.fld_event_apart _ _ _ (by decide), State.fld_count_apart _ _ _ (by decide)]
    exact State.fld_set_same _ _ _ _ ⟨by decide, by decide⟩
  · rw [State.fld_event_apart _ _ _ (by decide), State.fld_count_same _ _ ⟨by decide, by decide⟩,
      State.fld_set_apart _ _ _ (by decide), State.fld_set_apart _ _ _ (by decide)]
    rfl

/-- Settles O46: a frame's start is its start, its count and its departure; the gate list steps as its entries and cycles end. -/
theorem transmissionAndGates : Obligations.TransmissionAndGates := by
  intro s p hp here e g
  refine ⟨fun at_ q f rest link ended gcl change queue head highest gate unpaused unshaped free => ?_,
    fun l operates due => ⟨gateEntryChange_answers_next here operates due, gateEntryChange_answers_cycle here operates due⟩,
    fun at_ awaits due => gclChange_answers here awaits due⟩
  have h : s.Sends p at_ q f rest :=
    ⟨link, ended, gcl, change, queue, head, highest, gate, unpaused, unshaped, free⟩
  exact ⟨fun i seq _ ⟨_, _, _, sync⟩ twoStep c control => frameStart_answers_followUp hp here h sync twoStep control,
    frameStart_answers hp here h⟩

end Sys2Proof.Machine
end

section
/-! PROOFS. Streams: received packets are checked and counted, a silent stream stalls, and the packets of an egress stream
enter their queue (R322, R328, R331, R333, R497). -/

namespace Sys2Proof.Machine

open Sys2Proof

/-! The state of a stream replaced -/

@[simp] theorem State.ing_setIng (s : State) (n : Nat) (e : IngState) : (s.setIng n e).ing n = e := Map.get_put_same _ _ _ _

@[simp] theorem State.samples_setIng (s : State) (n : Nat) (e : IngState) : (s.setIng n e).samples = s.samples := rfl

@[simp] theorem State.ing_settled (s : State) (n : Nat) : s.settled.ing n = s.ing n :=
  congrArg (fun m : Net => Map.get ({} : IngState) n m.ing) s.settled_net

@[simp] theorem State.egr_setEgr (s : State) (n : Nat) (e : EgState) : (s.setEgr n e).egr n = e := Map.get_put_same _ _ _ _

@[simp] theorem State.egr_settled (s : State) (n : Nat) : s.settled.egr n = s.egr n :=
  congrArg (fun m : Net => Map.get ({} : EgState) n m.eg) s.settled_net

theorem OnlyWords.ing_eq {s t : State} {ws : List Nat} (h : OnlyWords s t ws) (n : Nat) : t.ing n = s.ing n :=
  h.keeps (State.ing · n) (fun _ _ => rfl)

theorem OnlyWords.egr_eq {s t : State} {ws : List Nat} (h : OnlyWords s t ws) (n : Nat) : t.egr n = s.egr n :=
  h.keeps (State.egr · n) (fun _ _ => rfl)

@[simp] theorem State.ing_set (s : State) (b : Blk) (f : Fld) (v n : Nat) : (s.set b f v).ing n = s.ing n := rfl

/-- An event of an ingress stream is a bit of a register outside the mirrored regions. -/
theorem State.ingEvent_eq (s : State) (n i : Nat) : s.ingEvent n i =
    s.set (.ingress n) Reg.Ingress.EVT_FLAGS (s.fld (.ingress n) Reg.Ingress.EVT_FLAGS ||| 2 ^ i) :=
  s.stick_eq_set i rfl

theorem State.ingEvent_testBit (s : State) (n : Nat) {i : Nat} (h : i < 6) :
    ((s.ingEvent n i).fld (.ingress n) Reg.Ingress.EVT_FLAGS).testBit i = true :=
  s.stick_testBit rfl ⟨by decide, by decide⟩ h

theorem State.fld_ingEvent_apart (s : State) (n i : Nat) {g : Fld} (h : Apart Reg.Ingress.EVT_FLAGS g) :
    (s.ingEvent n i).fld (.ingress n) g = s.fld (.ingress n) g := by
  rw [State.ingEvent_eq]
  exact State.fld_set_apart _ _ _ h

/-- The pages below the records keep their fields when a word of a stream's record changes. -/
theorem State.fld_ingress_set_below (s : State) (n : Nat) (f : Fld) (v : Nat) {b : Blk} {g : Fld}
    (h : b.base + g.off < 0x2400000) : (s.set (.ingress n) f v).fld b g = s.fld b g :=
  s.fld_set_word _ _ _ _ _ (by rw [ingress_base]; omega)

theorem State.fld_ingEvent_below (s : State) (n i : Nat) {b : Blk} {g : Fld} (h : b.base + g.off < 0x2400000) :
    (s.ingEvent n i).fld b g = s.fld b g := by
  rw [State.ingEvent_eq]
  exact s.fld_ingress_set_below n _ _ h

@[simp] theorem State.ing_ingEvent (s : State) (n i m : Nat) : (s.ingEvent n i).ing m = s.ing m := by
  rw [State.ingEvent_eq]
  rfl

@[simp] theorem State.samples_ingEvent (s : State) (n i : Nat) : (s.ingEvent n i).samples = s.samples := by
  rw [State.ingEvent_eq]
  rfl

/-! Received packets (R322, R333) -/

section

variable {s : State} {n at_ : Nat} {f : List Byte} {rest : List (List Byte × Nat)}

/-- The packet is taken from the stream's inbox. -/
def State.takeRx (s : State) (n : Nat) (rest : List (List Byte × Nat)) : State := s.setIng n { s.ing n with inbox := rest }

theorem streamPacketRx_answers_disabled (oldest : (s.ing n).inbox = (f, at_) :: rest)
    (off : s.fld (.ingress n) Reg.Ingress.STATE = 0) : Answers (.streamPacketRx n) s (fun t =>
      t.ing n = { s.ing n with inbox := rest } ∧ NetWords s t []) := by
  have dropped : s.streamPacket n = s.takeRx n rest := by
    unfold State.streamPacket
    dsimp only
    rw [oldest]
    exact if_pos off
  refine ⟨_, congrArg settle dropped, ?_, NetWords.settled (OnlyWords.refl _ [])⟩
  exact (State.ing_settled _ _).trans (State.ing_setIng _ _ _)

/-- The last accepted sequence number again, within 100 ms, is a duplicate: it counts as one, and does not pass (R333). -/
theorem State.cbRecover_again {q : Nat} (on : s.bit (.ingress n) Reg.Ingress.CTRL_CB_ELIM = true)
    (tag : (l2 f).2.1 = some q) (last : (s.ing n).cbSeq = some q) (accepted : 0 ∈ (s.ing n).cbHist)
    (soon : s.render.tick - (s.ing n).cbAt < s.fs / 10) : s.cbRecover n f =
      ((s.count (.ingress n) Reg.Ingress.CB_DUPS).stat (s.fld (.ingress n) Reg.Ingress.CTRL_PORT) 46, false) := by
  have distance : signed 16 ((q + 65536 - q) % 65536) = 0 := by
    rw [Nat.add_sub_cancel_left]
    rfl
  unfold State.cbRecover
  rw [tag]
  dsimp only
  rw [on, last]
  dsimp only
  rw [if_neg (by decide), if_neg (Nat.not_le.mpr soon), distance, if_neg (by decide), if_pos (by decide)]
  exact if_pos accepted

/-- Without elimination every packet passes. -/
theorem State.cbRecover_off (off : s.bit (.ingress n) Reg.Ingress.CTRL_CB_ELIM = false) : s.cbRecover n f = (s, true) := by
  unfold State.cbRecover
  rw [off]
  split
  · rfl
  · rfl

theorem streamPacketRx_answers_again {q : Nat} (oldest : (s.ing n).inbox = (f, at_) :: rest)
    (enabled : s.fld (.ingress n) Reg.Ingress.STATE ≠ 0) (on : s.bit (.ingress n) Reg.Ingress.CTRL_CB_ELIM = true)
    (tag : (l2 f).2.1 = some q) (last : (s.ing n).cbSeq = some q) (accepted : 0 ∈ (s.ing n).cbHist)
    (soon : s.render.tick - (s.ing n).cbAt < s.fs / 10) : Answers (.streamPacketRx n) s (fun t =>
      t.ing n = { s.ing n with inbox := rest } ∧
      t.fld (.ingress n) Reg.Ingress.CB_DUPS =
        (s.fld (.ingress n) Reg.Ingress.CB_DUPS + 1) % 2 ^ Reg.Ingress.CB_DUPS.width ∧
      t.fld (.ingress n) Reg.Ingress.PACKETS = s.fld (.ingress n) Reg.Ingress.PACKETS ∧ t.samples = s.samples) := by
  let port := s.fld (.ingress n) Reg.Ingress.CTRL_PORT
  let v := (s.takeRx n rest).count (.ingress n) Reg.Ingress.CB_DUPS
  have hp : port < 4 := regGet_lt _ _ _ ⟨by decide, by decide⟩
  have entry : (s.takeRx n rest).ing n = { s.ing n with inbox := rest } := State.ing_setIng _ _ _
  have again : (s.takeRx n rest).cbRecover n f = (v.stat port 46, false) :=
    State.cbRecover_again on tag (by rw [entry]; exact last) (by rw [entry]; exact accepted) (by rw [entry]; exact soon)
  have dropped : s.streamPacket n = v.stat port 46 := by
    unfold State.takeRx at again
    unfold State.streamPacket
    dsimp only
    rw [oldest]
    refine (if_neg enabled).trans ?_
    rw [again]
  have words : OnlyWords v (v.stat port 46) (statWords port) := v.stat_only port 1 (by decide)
  have kept (g : Fld) : (v.stat port 46).fld (.ingress n) g = v.fld (.ingress n) g :=
    words.netWords.fld_outside hp (by rw [ingress_base]; omega) (.inr (by rw [ingress_base]; omega))
  refine ⟨_, congrArg settle dropped, ?_⟩
  simp only [State.ing_settled, State.ingress_fld_settled, State.settled_samples]
  refine ⟨(words.ing_eq n).trans entry, (kept _).trans ?_, (kept _).trans ?_, words.keeps State.samples (fun _ _ => rfl)⟩
  · exact State.fld_count_same _ _ ⟨by decide, by decide⟩ _
  · exact State.fld_count_apart _ _ _ (by decide)

/-- The number of a packet follows, and those missing before it count (R322). -/
def State.sawPacket (s : State) (n : Nat) (pk : StreamPacket) : State :=
  let lost := lostBefore (s.ing n).seq pk.seq pk.seqMod
  let s := if lost = 0 then s else (s.count (.ingress n) Reg.Ingress.LOST lost).ingEvent n 2
  s.setIng n { s.ing n with seq := some pk.seq }

theorem State.sawPacket_spec (s : State) (n : Nat) (pk : StreamPacket) :
    (s.sawPacket n pk).ing n = { s.ing n with seq := some pk.seq } ∧ (s.sawPacket n pk).samples = s.samples ∧
      (∀ g, Apart Reg.Ingress.LOST g → Apart Reg.Ingress.EVT_FLAGS g →
        (s.sawPacket n pk).fld (.ingress n) g = s.fld (.ingress n) g) ∧
      (∀ b g, b.base + g.off < 0x2400000 → (s.sawPacket n pk).fld b g = s.fld b g) := by
  unfold State.sawPacket
  dsimp only
  split
  · exact ⟨State.ing_setIng _ _ _, rfl, fun _ _ _ => rfl, fun _ _ _ => rfl⟩
  · rw [State.ing_setIng, State.ing_ingEvent, State.samples_setIng, State.samples_ingEvent]
    exact ⟨rfl, rfl,
      fun g lost event => (State.fld_ingEvent_apart _ _ _ event).trans (State.fld_count_apart _ _ _ lost),
      fun b g below => (State.fld_ingEvent_below _ _ _ below).trans (State.fld_ingress_set_below _ _ _ _ below)⟩

/-- An AAF packet of a stream without elimination (R322). -/
theorem State.streamPacket_aaf (oldest : (s.ing n).inbox = (f, at_) :: rest)
    (enabled : s.fld (.ingress n) Reg.Ingress.STATE ≠ 0) (off : s.bit (.ingress n) Reg.Ingress.CTRL_CB_ELIM = false)
    (aaf : s.fld (.ingress n) Reg.Ingress.CTRL_FORMAT = 0) : s.streamPacket n =
      let pk := s.aafPacket n f
      let u := (s.takeRx n rest).sawPacket n pk
      if !pk.good || (s.ing n).rate ≠ u.fs then (u.count (.ingress n) Reg.Ingress.FORMAT_ERR).ingEvent n 5
      else u.takePacket n at_ pk := by
  have passes : (s.takeRx n rest).cbRecover n f = (s.takeRx n rest, true) := State.cbRecover_off off
  have aaf' : (s.takeRx n rest).fld (.ingress n) Reg.Ingress.CTRL_FORMAT = 0 := aaf
  unfold State.takeRx at passes aaf'
  unfold State.streamPacket
  dsimp only
  rw [oldest]
  refine (if_neg enabled).trans ?_
  rw [passes]
  simp only [aaf']
  rfl

/-- The packet makes the stream run: STATE reads 2, with its event if it did not before; besides, only the stream's tick and
shift change. -/
theorem State.ingRun_spec (s : State) (n : Nat) :
    ((s.ingRun n).ing n).seq = (s.ing n).seq ∧ ((s.ingRun n).ing n).inbox = (s.ing n).inbox ∧
      (s.ingRun n).fld (.ingress n) Reg.Ingress.STATE = 2 ∧
      (s.fld (.ingress n) Reg.Ingress.STATE ≠ 2 →
        ((s.ingRun n).fld (.ingress n) Reg.Ingress.EVT_FLAGS).testBit 0 = true) ∧
      (s.ingRun n).fld (.ingress n) Reg.Ingress.PACKETS = s.fld (.ingress n) Reg.Ingress.PACKETS ∧
      (∀ b g, b.base + g.off < 0x2400000 → (s.ingRun n).fld b g = s.fld b g) := by
  unfold State.ingRun
  dsimp only
  split
  next runs =>
    rw [State.ing_setIng]
    exact ⟨rfl, rfl, runs, fun other => absurd runs other, rfl, fun _ _ _ => rfl⟩
  next other =>
    rw [State.ing_ingEvent, State.ing_set, State.ing_setIng, State.ing_setIng]
    refine ⟨rfl, rfl, ?_, fun _ => State.ingEvent_testBit _ _ (by decide), ?_,
      fun b g below => (State.fld_ingEvent_below _ _ _ below).trans (State.fld_ingress_set_below _ _ _ _ below)⟩
    · rw [State.fld_ingEvent_apart _ _ _ (by decide)]
      exact State.fld_set_same _ _ _ _ ⟨by decide, by decide⟩
    · rw [State.fld_ingEvent_apart _ _ _ (by decide)]
      exact State.fld_set_apart _ _ _ (by decide)

section

variable (oldest : (s.ing n).inbox = (f, at_) :: rest) (enabled : s.fld (.ingress n) Reg.Ingress.STATE ≠ 0)
  (off : s.bit (.ingress n) Reg.Ingress.CTRL_CB_ELIM = false) (aaf : s.fld (.ingress n) Reg.Ingress.CTRL_FORMAT = 0)

include oldest enabled off aaf

theorem streamPacketRx_answers_bad (bad : (s.aafPacket n f).good = false ∨ (s.ing n).rate ≠ s.fs) :
    Answers (.streamPacketRx n) s (fun t => (t.ing n).seq = some (s.aafPacket n f).seq ∧ (t.ing n).inbox = rest ∧
      t.fld (.ingress n) Reg.Ingress.FORMAT_ERR =
        (s.fld (.ingress n) Reg.Ingress.FORMAT_ERR + 1) % 2 ^ Reg.Ingress.FORMAT_ERR.width ∧
      (t.fld (.ingress n) Reg.Ingress.EVT_FLAGS).testBit 5 = true ∧ t.samples = s.samples) := by
  let u := (s.takeRx n rest).sawPacket n (s.aafPacket n f)
  let v := u.count (.ingress n) Reg.Ingress.FORMAT_ERR
  obtain ⟨entry, samples, fields, pages⟩ := (s.takeRx n rest).sawPacket_spec n (s.aafPacket n f)
  have rate : u.fs = s.fs := congrArg (fun r => if r = 1 then 96000 else 48000) (pages .render _ (by decide))
  have counted : s.streamPacket n = v.ingEvent n 5 := by
    rw [State.streamPacket_aaf oldest enabled off aaf]
    refine if_pos ?_
    rw [rate, Bool.or_eq_true, Bool.not_eq_true', decide_eq_true_eq]
    exact bad
  have port : v.ing n = { (s.takeRx n rest).ing n with seq := some (s.aafPacket n f).seq } := entry
  refine ⟨_, congrArg settle counted, ?_⟩
  simp only [State.ing_settled, State.ingress_fld_settled, State.settled_samples, State.ing_ingEvent, State.samples_ingEvent,
    port, State.takeRx, State.ing_setIng, true_and]
  refine ⟨?_, v.ingEvent_testBit n (by decide), samples⟩
  rw [State.fld_ingEvent_apart _ _ _ (by decide), State.fld_count_same _ _ ⟨by decide, by decide⟩,
    fields _ (by decide) (by decide)]
  rfl

theorem streamPacketRx_answers_good (good : (s.aafPacket n f).good = true) (rate : (s.ing n).rate = s.fs)
    (still : s.running = false) : Answers (.streamPacketRx n) s (fun t => (t.ing n).seq = some (s.aafPacket n f).seq ∧
      (t.ing n).inbox = rest ∧ t.fld (.ingress n) Reg.Ingress.STATE = 2 ∧
      t.fld (.ingress n) Reg.Ingress.PACKETS =
        (s.fld (.ingress n) Reg.Ingress.PACKETS + 1) % 2 ^ Reg.Ingress.PACKETS.width ∧
      (s.fld (.ingress n) Reg.Ingress.STATE ≠ 2 → (t.fld (.ingress n) Reg.Ingress.EVT_FLAGS).testBit 0 = true)) := by
  let u := (s.takeRx n rest).sawPacket n (s.aafPacket n f)
  let v := u.ingRun n
  obtain ⟨entry, -, fields, pages⟩ := (s.takeRx n rest).sawPacket_spec n (s.aafPacket n f)
  obtain ⟨seq, inbox, runs, event, packets, pages'⟩ := u.ingRun_spec n
  have rate' : u.fs = s.fs := congrArg (fun r => if r = 1 then 96000 else 48000) (pages .render _ (by decide))
  have still' : v.running = false :=
    (congrArg (fun r => decide (r = 1)) ((pages' .render _ (by decide)).trans (pages .render _ (by decide)))).trans still
  have entry' : u.ing n = { s.ing n with inbox := rest, seq := some (s.aafPacket n f).seq } :=
    entry.trans (by rw [State.takeRx, State.ing_setIng])
  have counted : s.streamPacket n = v.count (.ingress n) Reg.Ingress.PACKETS := by
    rw [State.streamPacket_aaf oldest enabled off aaf]
    have agrees : ¬ (!(s.aafPacket n f).good || decide ((s.ing n).rate ≠ u.fs)) = true := by
      simp [good, rate, rate']
    refine (if_neg agrees).trans (if_pos ?_)
    rw [show (u.ingRun n).running = false from still']
    rfl
  refine ⟨_, congrArg settle counted, ?_⟩
  simp only [State.ing_settled, State.ingress_fld_settled]
  refine ⟨seq.trans (congrArg IngState.seq entry'), inbox.trans (congrArg IngState.inbox entry'), ?_, ?_, fun other => ?_⟩
  · rw [State.fld_count_apart _ _ _ (by decide)]
    exact runs
  · rw [State.fld_count_same _ _ ⟨by decide, by decide⟩, packets, fields _ (by decide) (by decide)]
    rfl
  · rw [State.fld_count_apart _ _ _ (by decide)]
    refine event (fun two => other ?_)
    rw [← two, fields _ (by decide) (by decide)]
    rfl

end

end

/-! STALLED (R328) -/

theorem stalled_answers {s : State} {n : Nat} (hn : n < 256) (runs : s.fld (.ingress n) Reg.Ingress.STATE = 2)
    (packets : s.fld (.ingress n) Reg.Ingress.CTRL_FORMAT ≠ 2 →
      4 * s.fld (.ingress n) Reg.Ingress.FMT_SPF ≤ s.render.tick - (s.ing n).at_)
    (blocks : 2 * s.blockSize ≤ s.render.tick - (s.ing n).at_) : Answers (.stalled n) s (fun t =>
      t.fld (.ingress n) Reg.Ingress.STATE = 3 ∧ (t.fld (.ingress n) Reg.Ingress.EVT_FLAGS).testBit 1 = true ∧
      OnlyWords s t [wordAt (.ingress n) Reg.Ingress.STATE, wordAt (.ingress n) Reg.Ingress.EVT_FLAGS]) := by
  let u := s.set (.ingress n) Reg.Ingress.STATE 3
  have silent : max (if s.fld (.ingress n) Reg.Ingress.CTRL_FORMAT = 2 then 0 else 4 * s.fld (.ingress n) Reg.Ingress.FMT_SPF)
      (2 * s.blockSize) ≤ s.render.tick - (s.ing n).at_ := by
    refine max_le ?_ blocks
    split
    next => exact Nat.zero_le _
    next audio => exact packets audio
  have words : OnlyWords s u [wordAt (.ingress n) Reg.Ingress.STATE, wordAt (.ingress n) Reg.Ingress.EVT_FLAGS] :=
    (OnlyWords.refl s _).set_in _ _ _ List.mem_cons_self
  refine ⟨(u.ingEvent n 1).settled, if_pos ⟨hn, runs, silent⟩, ?_, ?_,
    (words.trans ((u.stick_only 1 rfl).mono (List.subset_cons_self _ _))).settled⟩
  · rw [State.ingress_fld_settled, State.fld_ingEvent_apart _ _ _ (by decide)]
    exact State.fld_set_same _ _ _ _ ⟨by decide, by decide⟩
  · rw [State.ingress_fld_settled]
    exact u.ingEvent_testBit n (by decide)

/-! Egress packets (R331, R497) -/

/-- The packets kept while egress is closed stay when one is formed. -/
theorem EgState.formed_kept (e : EgState) : e.formed.kept = e.kept := by
  unfold EgState.formed
  split
  · rfl
  · rfl

section

variable {s : State} {n k span : Nat}

theorem streamPacketEnqueue_answers_none (none_ : s.egNext n = none) :
    Answers (.streamPacketEnqueue n) s (OnlyWords s · []) := by
  have stays : s.egEnqueue n = s := by
    unfold State.egEnqueue
    rw [none_]
  exact ⟨_, congrArg settle stays, State.settled_only s⟩

variable (next : s.egNext n = some (k, span))

include next

theorem streamPacketEnqueue_answers_early (early : s.packetReady n k span = false) :
    Answers (.streamPacketEnqueue n) s (OnlyWords s · []) := by
  have stays : s.egEnqueue n = s := by
    unfold State.egEnqueue
    rw [next]
    exact if_pos (by rw [early]; rfl)
  exact ⟨_, congrArg settle stays, State.settled_only s⟩

variable (ready : s.packetReady n k span = true)

include ready

/-- With egress open and a link the packet takes the place of the stream's packets in its queue but for retained ones. -/
theorem streamPacketEnqueue_answers_open (opened : s.egOpen n = true) {p q : Nat} (hp : p < 4)
    (port : s.egRec n (k * span + span) Reg.Egress.CTRL_PORT = p)
    (queue : s.egRec n (k * span + span) Reg.Egress.CTRL_QUEUE = q)
    (link : s.bit (.ethMac p) Reg.EthMac.STATUS_LINK = true) : Answers (.streamPacketEnqueue n) s (fun t =>
      t.egr n = (s.egr n).formed ∧
      (t.eth p).queue q = ((s.eth p).queue q).filter (fun f => !(TxFrame.ofStream n f && !f.retained)) ++ [s.egPacket n k span] ∧
      ∀ r, r ≠ q → (t.eth p).queue r = (s.eth p).queue r) := by
  let u := s.setEgr n (s.egr n).formed
  let old := ((u.eth p).queue q).filter (fun f => TxFrame.ofStream n f && !f.retained)
  let v := old.foldl (fun v _ => v.egDrop n) u
  let e := (v.eth p).setQueue q (((v.eth p).queue q).filter (fun f => !(TxFrame.ofStream n f && !f.retained)))
  have drops {β : Type} (view : State → β) (h : ∀ w : State, view (w.egDrop n) = view w) : view v = view u :=
    foldl_keeps view (fun w _ _ => h w) u
  have ethv : v.eth p = s.eth p := drops (State.eth · p) (fun w => (w.egDrop_only n).eth_eq p)
  have egrv : v.egr n = (s.egr n).formed :=
    (drops (State.egr · n) (fun w => (w.egDrop_only n).egr_eq n)).trans (State.egr_setEgr _ _ _)
  have linkv : v.bit (.ethMac p) Reg.EthMac.STATUS_LINK = true := by
    refine (State.bit_eq_of_fld (drops (State.fld · _ _) (fun w => w.egDrop_fld n ?_ ?_))).trans link
    all_goals
      simp only [ethMac_base, Reg.EthMac.STATUS_LINK]
      omega
  have queued : s.egEnqueue n = (v.setEth p e).enqueue p q (s.egPacket n k span) := by
    unfold State.egEnqueue
    rw [next]
    dsimp only
    rw [port, queue]
    refine (if_neg ?_).trans ((if_neg ?_).trans (if_pos linkv))
    · rw [ready]
      decide
    · rw [show (s.setEgr n (s.egr n).formed).egOpen n = true from opened]
      decide
  refine ⟨_, congrArg settle queued, ?_⟩
  simp only [State.egr_settled, State.eth_settled, State.eth_enqueue, State.eth_setEth_same, e, EthPort.queue_setQueue_same, ethv,
    true_and]
  exact ⟨egrv, fun r hr => (EthPort.queue_setQueue_other _ _ hr).trans (EthPort.queue_setQueue_other _ _ hr)⟩

/-- A LOCKSTEP unit whose egress is closed keeps the packet (R497). -/
theorem streamPacketEnqueue_answers_closed (closed : s.egOpen n = false) (lockstep : s.twin.mode = 2) :
    Answers (.streamPacketEnqueue n) s (fun t =>
      t.egr n = { (s.egr n).formed with kept := s.keptOf (s.egr n).kept k span ++ [s.egPacket n k span] } ∧
      t.net.ports = s.net.ports ∧ NetWords s t []) := by
  let u := s.setEgr n (s.egr n).formed
  have kept : s.egEnqueue n =
      u.setEgr n { u.egr n with kept := u.keptOf (u.egr n).kept k span ++ [s.egPacket n k span] } := by
    unfold State.egEnqueue
    rw [next]
    refine (if_neg ?_).trans ((if_pos ?_).trans (if_pos lockstep))
    · rw [ready]
      decide
    · rw [show (s.setEgr n (s.egr n).formed).egOpen n = false from closed]
      rfl
  refine ⟨_, congrArg settle kept, ?_, ?_, NetWords.settled (OnlyWords.refl _ [])⟩
  · rw [State.egr_settled, State.egr_setEgr, State.egr_setEgr, EgState.formed_kept]
    rfl
  · rw [State.settled_net]
    rfl

end

/-- Settles O47, by the branches of the receipt of a packet, of the stall, and of the entry of a packet into its queue. -/
theorem streams : Obligations.Streams := by
  refine ⟨fun s n at_ f rest _ oldest => ⟨streamPacketRx_answers_disabled oldest, ?_, ?_⟩,
    fun s n hn runs packets blocks => stalled_answers hn runs packets blocks,
    fun s n _ none_ => streamPacketEnqueue_answers_none none_,
    fun s n k span _ next => ⟨streamPacketEnqueue_answers_early next, ?_, ?_⟩⟩
  · exact fun q enabled on tag _ last accepted soon => streamPacketRx_answers_again oldest enabled on tag last accepted soon
  · exact fun enabled off aaf => ⟨streamPacketRx_answers_bad oldest enabled off aaf,
      streamPacketRx_answers_good oldest enabled off aaf⟩
  · exact fun ready opened link hp => streamPacketEnqueue_answers_open next ready opened hp rfl rfl link
  · exact fun ready closed lockstep => streamPacketEnqueue_answers_closed next ready closed lockstep

end Sys2Proof.Machine
end

section
/-! PROOFS. The front of the queue; grants of the Ringmaster's engines and retirement (R373 to R379); requests at the bus
matrix (R385, R386). -/

namespace Sys2Proof.Machine

open Sys2Proof

/-- Settles O1: both branches of a step. -/
theorem stepRunsTheFrontCommand : Obligations.StepRunsTheFrontCommand := by
  refine ⟨fun c rest s queue => ?_, fun s empty => ?_⟩
  · simp only [step, queue]
  · simp only [step, empty]

/-! Which item is granted -/

/-- The first of two items, where one may be missing. -/
def firstItem (m : Option Ready) (r : Ready) : Option Ready :=
  match m with
  | none => some r
  | some x => if x.first r then some x else some r

theorem foldl_firstItem_mem : ∀ (l : List Ready) (m : Option Ready) (r : Ready), l.foldl firstItem m = some r → r ∈ l ∨ m = some r
  | [], _, _, h => .inr h
  | a :: l, m, r, h => by
    rcases foldl_firstItem_mem l (firstItem m a) r h with h | h
    · exact .inl (List.mem_cons_of_mem _ h)
    · have among : firstItem m a = some a ∨ firstItem m a = m := by
        cases m with
        | none => exact .inl rfl
        | some x => exact (ite_eq_or_eq (x.first a = true) (some x) (some a)).symm
      rcases among with e | e
      · exact .inl (Option.some.inj (e.symm.trans h) ▸ List.mem_cons_self)
      · exact .inr (e.symm.trans h)

theorem foldl_firstItem_isSome (l : List Ready) (m : Option Ready) (h : l ≠ [] ∨ m.isSome = true) :
    (l.foldl firstItem m).isSome = true := by
  induction l generalizing m with
  | nil => exact h.resolve_left (fun e => e rfl)
  | cons a l ih =>
    refine ih _ (.inr ?_)
    cases m with
    | none => rfl
    | some x =>
      show (if x.first a = true then some x else some a).isSome = true
      split <;> rfl

/-- The eligible items of a class, and the one among them that goes first. -/
def State.bestOf (s : State) (g left c : Nat) : Option Ready :=
  ((s.sched.ready.filter (s.eligible g left)).filter (·.cls = c)).foldl firstItem none

theorem State.bestOf_mem {s : State} {g left c : Nat} {r : Ready} (h : s.bestOf g left c = some r) :
    r ∈ s.sched.ready ∧ s.eligible g left r = true ∧ r.cls = c := by
  have found := (foldl_firstItem_mem _ _ _ h).resolve_right (fun e => nomatch e)
  simp only [List.mem_filter, decide_eq_true_eq] at found
  exact ⟨found.1.1, found.1.2, found.2⟩

theorem State.bestOf_isSome {s : State} {g left c : Nat} {r : Ready} (hr : r ∈ s.sched.ready)
    (he : s.eligible g left r = true) (hc : r.cls = c) : (s.bestOf g left c).isSome = true :=
  foldl_firstItem_isSome _ _ (.inl (List.ne_nil_of_mem (a := r) (by simp [hr, he, hc])))

theorem State.bestOf_none {s : State} {g left c : Nat}
    (h : ∀ r ∈ s.sched.ready, s.eligible g left r = true → r.cls ≠ c) : s.bestOf g left c = none := by
  cases best : s.bestOf g left c with
  | none => rfl
  | some r =>
    obtain ⟨there, may, cls⟩ := State.bestOf_mem best
    exact absurd cls (h r there may)

/-- An engine is granted the first Lead item; without one, Ensemble and Extra in the order that the share says (R375, R377). -/
theorem State.choose_cases (s : State) (g left : Nat) : s.choose g left =
    match s.bestOf g left 0 with
    | some r => some r
    | none => if decide (Map.get 0 g s.sched.busyExtra * 100 < s.sched.extraRes * (s.blockCycles *
        [4, 8, 8, 16, 16, 4].getD g 0)) && g < 5 then (s.bestOf g left 2 <|> s.bestOf g left 1)
        else (s.bestOf g left 1 <|> s.bestOf g left 2) := rfl

theorem State.choose_lead {s : State} {g left : Nat} (h : ∃ r ∈ s.sched.ready, s.eligible g left r = true ∧ r.cls = 0) :
    ∃ r ∈ s.sched.ready, s.eligible g left r = true ∧ r.cls = 0 ∧ s.choose g left = some r := by
  obtain ⟨r, there, may, lead⟩ := h
  obtain ⟨x, best⟩ := Option.isSome_iff_exists.mp (State.bestOf_isSome there may lead)
  obtain ⟨there', may', lead'⟩ := State.bestOf_mem best
  exact ⟨x, there', may', lead', by rw [State.choose_cases, best]⟩

/-- With no eligible item there is nothing to grant. -/
theorem State.choose_none {s : State} {g left : Nat} (h : ∀ r ∈ s.sched.ready, s.eligible g left r = false) :
    s.choose g left = none := by
  have none_ (c : Nat) : s.bestOf g left c = none :=
    State.bestOf_none (fun r hr may => absurd may (Bool.eq_false_iff.mp (h r hr)))
  rw [State.choose_cases, none_, none_, none_]
  exact ite_self none

/-- The one ready item is granted if it may be. -/
theorem State.choose_single {s : State} {g left : Nat} {r : Ready} (hr : s.sched.ready = [r]) (hc : r.cls ≤ 2)
    (he : s.eligible g left r = true) : s.choose g left = some r := by
  have best (c : Nat) : s.bestOf g left c = if r.cls = c then some r else none := by
    unfold State.bestOf
    rw [hr]
    by_cases hk : r.cls = c <;> simp [he, hk, firstItem]
  rw [State.choose_cases, best, best, best]
  have : r.cls = 0 ∨ r.cls = 1 ∨ r.cls = 2 := by omega
  rcases this with h | h | h <;> simp [h]

/-- What a grant does: the item goes into service, its flow has no ready item any more, and GRANTS counts (R375, R379). -/
theorem State.grant_spec (s : State) (e w : Nat) (r : Ready) :
    (s.grant e w r).sched.service = s.sched.service ++ [{ engine := e, cls := r.cls, job := r.job, lead := s.sched.leadPhase }] ∧
    (s.grant e w r).sched.ready = s.sched.ready.filter (fun x => x.job.flow ≠ r.job.flow) ∧
    (s.grant e w r).fld .ringmaster Reg.Ringmaster.GRANTS = (s.fld .ringmaster Reg.Ringmaster.GRANTS + 1) % 2 ^ 32 := by
  have counted (t : State) (h : t.fld .ringmaster Reg.Ringmaster.GRANTS = s.fld .ringmaster Reg.Ringmaster.GRANTS) :
      (t.count .ringmaster Reg.Ringmaster.GRANTS).fld .ringmaster Reg.Ringmaster.GRANTS =
        (s.fld .ringmaster Reg.Ringmaster.GRANTS + 1) % 2 ^ 32 := by
    rw [State.fld_count_same _ _ ⟨by decide, by decide⟩, h]
    rfl
  have shown (l : List Ready) : (s.setReady l).fld .ringmaster Reg.Ringmaster.GRANTS = s.fld .ringmaster Reg.Ringmaster.GRANTS :=
    State.fld_set_word _ _ _ _ _ _ (by decide)
  have runs (t : State) : (if r.job.kind = .opStep then t.opRuns r.job.flow else t).fld .ringmaster Reg.Ringmaster.GRANTS =
      t.fld .ringmaster Reg.Ringmaster.GRANTS := by
    split <;> rfl
  have peaks (t : State) : (if r.cls = 0 then t.peak .ringmaster Reg.Ringmaster.LEAD_WAIT_PEAK w else t).fld .ringmaster
      Reg.Ringmaster.GRANTS = t.fld .ringmaster Reg.Ringmaster.GRANTS := by
    split
    · exact State.fld_set_word _ _ _ _ _ _ (by decide)
    · rfl
  refine ⟨?_, ?_, counted _ ((peaks _).trans ((runs _).trans (shown _)))⟩
  · unfold State.grant State.opRuns
    dsimp only
    split <;> split <;> rfl
  · unfold State.grant State.opRuns
    dsimp only
    split <;> split <;> rfl

/-- What an engine without a job in service is given when it asks. -/
theorem State.ask_idle {s : State} {engine left wait g : Nat} (hg : engineGroup engine = some g)
    (idle : ∀ v ∈ s.sched.service, v.engine ≠ engine) : s.ask engine left wait =
      match s.choose g left with
      | none => { s with sched := { s.sched with stalled := s.sched.stalled.filter (· ≠ engine) ++ [engine] } }
      | some r => s.grant engine wait r := by
  unfold State.ask
  rw [hg]
  exact if_neg (by simpa using idle)

/-- The step of an engine that is granted item `r`. -/
theorem engineAsk_answers_granted {s : State} {engine left wait g : Nat} {r : Ready} (hg : engineGroup engine = some g)
    (idle : ∀ v ∈ s.sched.service, v.engine ≠ engine) (hr : s.choose g left = some r) :
    Answers (.engineAsk engine left wait) s (fun t =>
      t.sched.service = s.sched.service ++ [{ engine := engine, cls := r.cls, job := r.job, lead := s.sched.leadPhase }] ∧
      (∀ x ∈ t.sched.ready, x.job.flow ≠ r.job.flow) ∧
      t.fld .ringmaster Reg.Ringmaster.GRANTS = (s.fld .ringmaster Reg.Ringmaster.GRANTS + 1) % 2 ^ 32) := by
  obtain ⟨service, ready, grants⟩ := s.grant_spec engine wait r
  have asks : s.ask engine left wait = s.grant engine wait r := by rw [State.ask_idle hg idle, hr]
  refine ⟨_, congrArg settle asks, ?_, ?_, ?_⟩
  · rw [State.settled_sched, service]
  · rw [State.settled_sched, ready]
    exact fun x hx => of_decide_eq_true (List.mem_filter.mp hx).2
  · rw [State.settled_fld _ _ _ (by decide), grants]

theorem engineAsk_answers_stalled {s : State} {engine left wait g : Nat} (hg : engineGroup engine = some g)
    (idle : ∀ v ∈ s.sched.service, v.engine ≠ engine) (none_ : s.choose g left = none) :
    Answers (.engineAsk engine left wait) s
      (OnlyWords { s with sched := { s.sched with stalled := s.sched.stalled.filter (· ≠ engine) ++ [engine] } } · []) :=
  ⟨_, congrArg settle ((State.ask_idle hg idle).trans (by rw [none_])), State.settled_only _⟩

/-- Extra waits for the end of the Lead phase and for time enough before the release (R376). -/
theorem State.eligible_extra {s : State} {g left : Nat} {r : Ready} (hc : r.cls = 2) (hg : g ≠ 5)
    (h : s.sched.leadPhase = true ∨ left < r.job.kind.longest s.blockSize) : s.eligible g left r = false := by
  unfold State.eligible
  rcases h with h | h <;> simp [hc, hg, h]

/-- JOB_RETIRE of a Trapeze job: its cycles count, and the object's pan job is ready (R375). -/
theorem jobRetire_answers_trapeze {s : State} {engine time wait run since : Nat} {v : Service}
    (hv : s.sched.service = [v]) (he : v.engine = engine) (hk : v.job.kind = .trapeze) (ht : s.sched.trace = none)
    (hs : s.sched.stalled = []) (free : ∀ r ∈ s.sched.ready, r.job.flow ≠ v.job.flow) :
    Answers (.jobRetire engine time wait run since) s (fun t => t.sched.service = [] ∧
      Map.get 0 (engine / 16) t.sched.busy = Map.get 0 (engine / 16) s.sched.busy + run ∧
      ∃ r ∈ t.sched.ready, r.cls = v.cls ∧ r.job = { v.job with kind := .pan }) := by
  let counted : State := { s with sched := { s.sched with
    service := [], busy := s.sched.busy.put 0 (engine / 16) (Map.get 0 (engine / 16) s.sched.busy + run)
    busyExtra := if v.cls = 2 then s.sched.busyExtra.put 0 (engine / 16) (Map.get 0 (engine / 16) s.sched.busyExtra + run)
      else s.sched.busyExtra } }
  let item : Ready := { cls := v.cls, job := { v.job with kind := .pan }, order := s.sched.order, tick := s.render.tick }
  have retires : s.retire engine time wait run since = (counted.pushReady v.cls item.job).endLead since := by
    unfold State.retire
    rw [hv]
    have gone : s.sched.service.filter (fun x => decide (x.engine ≠ engine)) = [] := by simp [hv, he]
    simp only [List.find?_cons, he, decide_true, gone]
    unfold State.traceRecord
    simp only [ht]
    unfold State.nextJob
    simp only [hk, reduceCtorEq, false_and, if_false, counted, ht]
    rfl
  have pushed : (counted.pushReady v.cls item.job).sched =
      { counted.sched with ready := s.sched.ready ++ [item], order := s.sched.order + 1 } := by
    unfold State.pushReady
    rw [if_neg (by simpa using free)]
    rfl
  have lead (t : State) : ∃ on, (t.endLead since).sched = { t.sched with leadPhase := on } := by
    unfold State.endLead
    dsimp only
    split
    · exact ⟨t.sched.leadPhase, rfl⟩
    · split
      · exact ⟨false, State.stick_sched _ _ _ _⟩
      · exact ⟨false, rfl⟩
  obtain ⟨on, ended⟩ := lead (counted.pushReady v.cls item.job)
  have idle : ((counted.pushReady v.cls item.job).endLead since).sched.stalled = [] := by rw [ended, pushed]; exact hs
  have dispatched : (s.retire engine time wait run since).dispatch = (counted.pushReady v.cls item.job).endLead since := by
    rw [retires, State.dispatch, idle]
    rfl
  refine ⟨_, congrArg settle dispatched, ?_⟩
  dsimp only
  rw [State.settled_sched, ended, pushed]
  exact ⟨rfl, Map.get_put_same _ _ _ _, item, by simp, rfl, rfl⟩

/-- Settles O26: what the engine chooses decides what it is granted. -/
theorem grantsAndRetirement : Obligations.GrantsAndRetirement := by
  refine ⟨fun s engine left wait g hg idle => ⟨fun h => ?_, fun r hr hc he => ?_, fun h => ?_, fun r hc hg5 h => ?_⟩,
    fun s engine time wait run since v hv he hk ht hs free => jobRetire_answers_trapeze hv he hk ht hs free⟩
  · obtain ⟨r, there, may, lead, chosen⟩ := State.choose_lead h
    exact (engineAsk_answers_granted hg idle chosen).imp (fun t granted => ⟨r, there, may, lead, granted⟩)
  · exact engineAsk_answers_granted hg idle (State.choose_single hr hc he)
  · exact engineAsk_answers_stalled hg idle (State.choose_none h)
  · exact State.eligible_extra hc hg5 h

/-! The bus matrix -/

theorem busMatrix_not_statusWord {f : Fld} (h : f.off < 0x1000) : wordAt .busMatrix f ∉ statusWords := by
  have base : Blk.busMatrix.base = 0x1000 * (Blk.busMatrix.base / 0x1000) := by decide
  have apart : ∀ k ∈ statusWords, k / 0x1000 ≠ Blk.busMatrix.base / 0x1000 := by decide
  refine fun hm => apart _ hm ?_
  unfold wordAt
  omega

/-- With one request waiting, its target serves it unless it is held (R385, R386). -/
theorem State.winner_single {s : State} {r : MatrixReq} (hw : s.sched.waiting = [r]) (hm : r.master < 13) :
    s.winner r.target = if r.held then none else some r := by
  have only (f : Nat → Option MatrixReq) (h : ∀ m, f m = if m = r.master then (if r.held then none else some r) else none) :
      (List.range 13).filterMap f = (if r.held then none else some r : Option MatrixReq).toList := by
    obtain ⟨a, rest⟩ : ∃ a b, List.range 13 = a ++ r.master :: b ∧ (∀ m ∈ a, m ≠ r.master) ∧ ∀ m ∈ b, m ≠ r.master := by
      obtain ⟨a, b, e⟩ := List.append_of_mem (List.mem_range.mpr hm)
      have nodup : (a ++ r.master :: b).Nodup := e ▸ List.nodup_range
      rw [List.nodup_middle, List.nodup_cons, List.mem_append, not_or] at nodup
      exact ⟨a, b, e, fun m hm e => nodup.1.1 (e ▸ hm), fun m hm e => nodup.1.2 (e ▸ hm)⟩
    obtain ⟨b, e, ha, hb⟩ := rest
    have none_ (l : List Nat) (hl : ∀ m ∈ l, m ≠ r.master) : l.filterMap f = [] :=
      List.filterMap_eq_nil_iff.mpr (fun m hm => by rw [h, if_neg (hl m hm)])
    rw [e, List.filterMap_append, List.filterMap_cons, none_ a ha, none_ b hb, h, if_pos rfl]
    cases r.held <;> rfl
  unfold State.winner State.reqReady
  rw [hw]
  dsimp only
  rw [only _ (fun m => by
    by_cases hm : m = r.master
    · simp [hm]
    · simp [hm, Ne.symm hm])]
  cases r.held <;> rfl

/-- A held request waits, and HOLD_COUNT of its master counts (R386). -/
theorem matrixRequest_answers_held {s : State} {m t : Nat} (write : Bool) {unacked room : Bool} (waited : Nat) (hm : m < 13)
    (ht : t < 12) (hw : s.sched.waiting = []) (held : (orderedMaster m && unacked || !room) = true) :
    Answers (.matrixRequest m t write unacked room waited) s (fun u =>
      u.sched.waiting = [{ master := m, target := t, write := write, held := true }] ∧
      u.fld .busMatrix (Reg.BusMatrix.HOLD_COUNT m) =
        (s.fld .busMatrix (Reg.BusMatrix.HOLD_COUNT m) + 1) % 2 ^ (Reg.BusMatrix.HOLD_COUNT m).width) := by
  let kept : State := { s.count .busMatrix (Reg.BusMatrix.HOLD_COUNT m) with
    sched := { s.sched with waiting := [{ master := m, target := t, write := write, held := true }] } }
  have request : s.matrixRequest m t write unacked room waited = kept := by
    unfold State.matrixRequest
    rw [if_neg (by omega)]
    dsimp only
    rw [held, if_pos rfl]
    have queue : ∀ u : State, u = s.count .busMatrix (Reg.BusMatrix.HOLD_COUNT m) → u.sched.waiting = [] := fun u e => e ▸ hw
    simp only [queue _ rfl, List.map_nil, List.nil_append]
    have none_ : kept.winner t = none := (State.winner_single (s := kept) rfl hm).trans rfl
    split
    · rfl
    · next r wins => exact nomatch none_.symm.trans wins
  refine ⟨_, congrArg settle request, by rw [State.settled_sched], ?_⟩
  rw [State.settled_fld _ _ _ (busMatrix_not_statusWord (by simp only [Reg.BusMatrix.HOLD_COUNT]; omega))]
  exact State.fld_count_same _ _ ⟨by simp [Reg.BusMatrix.HOLD_COUNT], by simp [Reg.BusMatrix.HOLD_COUNT]⟩ 1

/-- A request that is not held and not old is served at once (R385). -/
theorem matrixRequest_answers_served {s : State} {m t : Nat} (write : Bool) {unacked room : Bool} {waited after : Nat}
    (hm : m < 13) (ht : t < 12) (hw : s.sched.waiting = []) (free : (orderedMaster m && unacked || !room) = false)
    (ha : after = if s.fld .busMatrix (Reg.BusMatrix.PARK t) = m then waited else max 1 waited)
    (young : after < s.fld .busMatrix Reg.BusMatrix.AGE_LIMIT) :
    Answers (.matrixRequest m t write unacked room waited) s (fun u =>
      u.sched = { s.sched with served := s.sched.served.put 0 t m } ∧
      u.fld .busMatrix (Reg.BusMatrix.WAIT_PEAK m) =
        max (s.fld .busMatrix (Reg.BusMatrix.WAIT_PEAK m)) (min after (2 ^ (Reg.BusMatrix.WAIT_PEAK m).width - 1)) ∧
      OnlyWords { s with sched := u.sched } u [wordAt .busMatrix (Reg.BusMatrix.WAIT_PEAK m)]) := by
  let r : MatrixReq := { master := m, target := t, write := write, held := false }
  let served : State := { s with sched := { s.sched with served := s.sched.served.put 0 t m } }
  have request : s.matrixRequest m t write unacked room waited = served.peak .busMatrix (Reg.BusMatrix.WAIT_PEAK m) after := by
    unfold State.matrixRequest
    rw [if_neg (by omega)]
    dsimp only
    rw [free, if_neg Bool.false_ne_true]
    simp only [hw, List.map_nil, List.nil_append]
    have wins : ({ s with sched := { s.sched with waiting := [r] } } : State).winner t = some r :=
      (State.winner_single (r := r) rfl hm).trans rfl
    have sched : { s.sched with waiting := ([r] : List MatrixReq).erase r, served := s.sched.served.put 0 t m } =
        served.sched := by
      simp only [List.erase_cons_head, served, ← hw]
    split
    · next none_ => exact nomatch wins.symm.trans none_
    · next x won =>
      obtain rfl : r = x := Option.some.inj (wins.symm.trans won)
      have old : (!r.aged && decide (s.fld .busMatrix Reg.BusMatrix.AGE_LIMIT ≤
          if s.fld .busMatrix (Reg.BusMatrix.PARK t) = r.master then waited else max 1 waited)) = false := by
        rw [show r.master = m from rfl, ← ha]
        simpa using fun _ => young
      rw [sched, ha]
      exact congrArg (State.peak · _ _ _) (if_neg (Bool.eq_false_iff.mp old))
  have fits : Fits (Reg.BusMatrix.WAIT_PEAK m) := ⟨by simp [Reg.BusMatrix.WAIT_PEAK], by simp [Reg.BusMatrix.WAIT_PEAK]⟩
  have outside := busMatrix_not_statusWord (f := Reg.BusMatrix.WAIT_PEAK m) (by simp only [Reg.BusMatrix.WAIT_PEAK]; omega)
  refine ⟨_, congrArg settle request, ?_, ?_, ?_⟩
  · rw [State.settled_sched]
    rfl
  · rw [State.settled_fld _ _ _ outside]
    refine (State.fld_set_same served _ _ _ fits).trans (Nat.mod_eq_of_lt ?_)
    have within : s.fld .busMatrix (Reg.BusMatrix.WAIT_PEAK m) < 2 ^ (Reg.BusMatrix.WAIT_PEAK m).width := regGet_lt _ _ _ fits
    have pos := Nat.two_pow_pos (Reg.BusMatrix.WAIT_PEAK m).width
    exact Nat.max_lt.mpr ⟨within, by omega⟩
  · rw [State.settled_sched]
    exact (OnlyWords.set served _ _ _).settled

/-- A request beyond the matrix changes nothing (log entry 18). -/
theorem matrixRequest_answers_absent {s : State} {m t : Nat} (write unacked room : Bool) (waited : Nat) (h : 13 ≤ m ∨ 12 ≤ t) :
    Answers (.matrixRequest m t write unacked room waited) s (OnlyWords s · []) :=
  ⟨_, congrArg settle (if_pos h), State.settled_only s⟩

/-- The one request that waits counts as aged (R386). -/
theorem aged_answers {s : State} {m t : Nat} {write held : Bool}
    (hw : s.sched.waiting = [{ master := m, target := t, write := write, held := held }]) :
    Answers (.aged m t) s (fun u =>
      u.sched.waiting = [{ master := m, target := t, write := write, held := held, aged := true }] ∧
      (u.fld .busMatrix Reg.Hdr.EVENTS).testBit 0 = true ∧
      OnlyWords { s with sched := u.sched } u [wordAt .busMatrix Reg.Hdr.EVENTS]) := by
  let older : State := { s with sched := { s.sched with
    waiting := [{ master := m, target := t, write := write, held := held, aged := true }] } }
  have ages : execAged m t s = settle (older.event .busMatrix 0) := by
    unfold execAged
    simp [hw, older]
  have sched : (older.event .busMatrix 0).sched = older.sched := State.stick_sched _ _ _ _
  refine ⟨_, ages, ?_, ?_, ?_⟩
  · rw [State.settled_sched, sched]
  · rw [State.settled_fld _ _ _ (by decide)]
    exact older.event_recorded .busMatrix (by decide)
  · rw [State.settled_sched, sched]
    exact (older.stick_only 0 rfl).settled

theorem orderedMaster_iff {m : Nat} : orderedMaster m = true ↔ m ∈ [5, 6, 7, 8, 9] := by
  simp [orderedMaster]
  omega

/-- Settles O27: the request is held or served, and AGED ages it. -/
theorem matrixRequests : Obligations.MatrixRequests := by
  refine ⟨fun s m t write unacked room waited hm ht hw => ?_,
    fun s m t write unacked room waited h => matrixRequest_answers_absent write unacked room waited h,
    fun s m t write held hw => aged_answers hw⟩
  have held : (orderedMaster m && unacked || !room) = true ↔ (m ∈ [5, 6, 7, 8, 9] ∧ unacked = true) ∨ room = false := by
    rw [Bool.or_eq_true, Bool.and_eq_true, orderedMaster_iff, Bool.not_eq_true']
  dsimp only
  rw [← held]
  exact ⟨fun free young => matrixRequest_answers_served write hm ht hw (Bool.eq_false_iff.mpr free) rfl young,
    fun h => matrixRequest_answers_held write waited hm ht hw h⟩

end Sys2Proof.Machine
end

section
/-! PROOFS. OP_RESUME of a campaign that stands before a new set: it suspends itself once more (R249, R412). -/

namespace Sys2Proof.Machine

open Sys2Proof

/-- A campaign that pauses at each set, between two steps: the next one begins a set before which it has not waited. -/
def pausingCampaign : Campaign :=
  { desc := { outs := [0], sets := [1, 1], pauseAtSet := true }, handle := 1, seat := 0, tag := 5, buffer := 1, rate := 0
    phase := .measure, step := 1 }

/-- Its operation, suspended. -/
def pausingOp : Cmd :=
  { seat := 0, sq := 0, tag := 5, opcode := 0x30, word0 := 0x00050030#32, context := 0#32, params := [], started := true
    state := .suspended, accepted := true }

/-- The OP_RESUME that names it. -/
def resumeOfPausing : Cmd :=
  { seat := 0, sq := 0, tag := 1, opcode := 0x71, word0 := 0x00010071#32, context := 0#32, params := [5#32] }

/-- Both are in flight, and the COMMAND job of the seat runs. -/
def resumesPausing : State :=
  { seats := [(0, { cmds := [pausingOp, resumeOfPausing] })], measure := { campaign := some pausingCampaign }
    sched := { service := [{ engine := 80, cls := 2, job := { kind := .command, flow := 0x3800, block := 0 } }] } }

/-- The OP_RESUME may begin. -/
theorem resumesPausing_issued : Issued resumesPausing resumeOfPausing 0x71 := by
  unfold Issued
  decide +kernel

/-- The state in which the OP_RESUME has acted: the operation was resumed, its campaign suspended it again with an interim
completion (`State.campaignNext`), and the OP_RESUME completed. -/
def pausingResumed : State :=
  ((resumesPausing.begun resumeOfPausing).resumeOp pausingOp).finish 0 1 Status.ok

theorem exec_resumesPausing : exec (.opResume 0 1) resumesPausing = settle pausingResumed.dispatch := by
  have target : (resumesPausing.begun resumeOfPausing).targetOf { resumeOfPausing with started := true } = some pausingOp := by
    decide +kernel
  refine congrArg settle ?_
  unfold State.control
  rw [show (0 : Nat) = resumeOfPausing.seat from rfl, show (1 : Nat) = resumeOfPausing.tag from rfl,
    State.command_issued _ _ 0x71 _ resumesPausing_issued]
  refine congrArg State.dispatch ?_
  rw [show resumesPausing.setCmd { resumeOfPausing with started := true } = resumesPausing.begun resumeOfPausing from rfl, target]
  rfl

/-- Refutes O31 by its clause on OP_RESUME. In `resumesPausing` the suspended operation is a campaign that pauses at each set
and stands before a set for which it has not waited (R249): OP_RESUME makes it RUNNING, and the campaign suspends itself again
at once with an interim SUSPENDED completion. So two completions join those of the seat, where the clause leaves one, that of
the OP_RESUME. -/
theorem not_suspendResumeCancel : ¬ Obligations.SuspendResumeCancel := by
  intro holds
  obtain ⟨-, named⟩ := holds resumesPausing resumeOfPausing 5 (by decide) (by decide)
  obtain ⟨-, resume, -⟩ := named pausingOp (by decide +kernel) rfl (by decide) (by decide) rfl rfl
  obtain ⟨t, answer, ⟨done, -⟩, -⟩ := resume resumesPausing_issued rfl
  obtain rfl : t = pausingResumed.dispatch.settled := Host.Outcome.next.inj (answer.symm.trans exec_resumesPausing)
  have two : (pausingResumed.seat 0).done.length = 2 := by decide +kernel
  have one := congrArg List.length done
  rw [State.seat_settled, State.done_dispatch] at one
  exact absurd (two.symm.trans one) (by decide +kernel)

end Sys2Proof.Machine
end

section
/-! PROOFS. The short commands: NOP, IDENTIFY, SYNC, and what a seat other than the house seat may not issue (R407). -/

namespace Sys2Proof.Machine

open Sys2Proof

/-! NOP -/

/-- What a command changes by beginning and ending: seats, pool, engines' work, and the words in which grants count. -/
theorem CommandFrame.only {s t : State} (h : CommandFrame s t) :
    OnlyWords { s with seats := t.seats, pool := t.pool, sched := t.sched } t grantWords := by
  have rest := congrArg (fun x : State => { x with seats := t.seats, pool := t.pool, sched := t.sched }) h.rest
  exact ⟨rest, h.words⟩

theorem nop_answers {s : State} {c : Cmd} (h : Issued s c 0x01) :
    Answers (.nop c.seat c.tag) s (fun t => Completes s t c Status.ok 0 0 ∧
      OnlyWords { s with seats := t.seats, pool := t.pool, sched := t.sched } t grantWords) :=
  answers_ended h rfl rfl rfl rfl (fun _ frame done => ⟨done, ((State.begun_frame h).trans frame).only⟩)

/-! The words of DEVICE that IDENTIFY answers -/

/-- The active words of the DEVICE page are the same. -/
def SameDevice (s t : State) : Prop := ∀ k, k < 0x1000 → Map.get 0#32 k t.fab.act = Map.get 0#32 k s.fab.act

theorem SameDevice.set {s t : State} (h : SameDevice s t) (f : Fld) (v : Nat) :
    SameDevice (s.set .device f v) (t.set .device f v) := by
  intro k hk
  refine (regPut_word _ _ _ _ _).trans (.trans ?_ (regPut_word _ _ _ _ _).symm)
  split
  · next at_ => rw [← at_, h k hk]
  · exact h k hk

theorem SameDevice.foldl {s t : State} (h : SameDevice s t) (l : List (Fld × Nat)) :
    SameDevice (l.foldl (fun s e => s.set .device e.1 e.2) s) (l.foldl (fun s e => s.set .device e.1 e.2) t) := by
  induction l generalizing s t with
  | nil => exact h
  | cons e l ih => exact ih (h.set e.1 e.2)

theorem SameDevice.wordIn_eq {s t : State} (h : SameDevice s t) (off : Nat) :
    wordIn t.fab.act .device off = wordIn s.fab.act .device off := by
  have within : ∀ f ∈ Blk.device.allFields, f.off < 0x1000 := by decide
  have same (f : Fld) (hf : f ∈ Blk.device.allFields) : regGet t.fab.act Blk.device.base f = regGet s.fab.act Blk.device.base f := by
    unfold regGet
    rw [h _ (by simp only [Blk.base, Nat.zero_add]; exact within f hf)]
  unfold wordIn
  refine List.foldl_ext _ _ _ (fun w f hf => ?_)
  rw [same f hf]

/-- What DEVICE shows of the module does not depend on the commands in flight (R77). -/
theorem CommandFrame.deviceWord {s t : State} (h : CommandFrame s t) (off : Nat) : t.deviceWord off = s.deviceWord off := by
  have model : t.model = s.model := h.keeps (·.model) (fun _ _ _ _ _ => rfl)
  have boot : t.boot = s.boot := h.keeps (·.boot) (fun _ _ _ _ _ => rfl)
  have ecc : t.fld .dramc Reg.Dramc.STATUS_ECC_ON = s.fld .dramc Reg.Dramc.STATUS_ECC_ON := h.fld_eq (by decide) (by decide)
  have rate : t.rateMul = s.rateMul := by
    unfold State.rateMul
    rw [h.fld_above (b := .render) (by decide)]
  have page : SameDevice s t := by
    have low : ∀ k ∈ grantWords ++ statusWords, 0x1000 ≤ k := by decide
    exact fun k hk => h.words k (fun hm => Nat.not_lt.mpr (low k (List.mem_append_left _ hm)) hk)
      (fun hm => Nat.not_lt.mpr (low k (List.mem_append_right _ hm)) hk)
  refine SameDevice.wordIn_eq (SameDevice.set (SameDevice.set (SameDevice.set ?_ _ _) _ _) _ _) off
  unfold State.showDevice State.nowObjects State.nowOutputs State.nowPaths
  dsimp only
  rw [model, boot, ecc, rate]
  exact page.foldl _

theorem identify_answers {s : State} {c : Cmd} (h : Issued s c 0x02) (hn : c.n 3 = 0) :
    Answers (.identify c.seat c.tag) s (fun t => Completes s t c Status.ok (s.deviceWord 0x40) (s.deviceWord 0x44)) := by
  refine answers_ended (u := s.begun c) h rfl ?_ rfl rfl (fun _ _ done => done)
  have frame := State.begun_frame h
  rw [← frame.deviceWord, ← frame.deviceWord]
  exact if_pos hn

theorem identify_answers_length {s : State} {c : Cmd} (h : Issued s c 0x02) (hn : c.n 3 ≠ 0) (h64 : c.n 3 ≠ 64) :
    Answers (.identify c.seat c.tag) s (fun t => Completes s t c Status.badParam 0 0) :=
  answers_ended (u := s.begun c) h rfl ((if_neg hn).trans (if_pos h64)) rfl rfl (fun _ _ done => done)

/-! A command that is no long operation is not what a grant makes RUNNING -/

theorem Cmd.runs_short {c : Cmd} (h : isLong c.opcode = false) (flow : Nat) : c.runs flow = c := by
  unfold Cmd.runs
  rw [h]
  exact if_neg (by simp)

theorem State.cmdOf_grant_eq {s : State} {q t : Nat} {c : Cmd} (hc : s.cmdOf q t = some c) (hr : ∀ flow, c.runs flow = c)
    (e w : Nat) (r : Ready) : (s.grant e w r).cmdOf q t = some c := by
  unfold State.cmdOf at hc ⊢
  rcases s.seat_grant e w r q with h | h
  · rw [h, hc]
  · have tags : (fun d : Cmd => decide (d.tag = t) && !d.bad) ∘ Cmd.runs r.job.flow = fun d => decide (d.tag = t) && !d.bad := by
      funext d
      simp
    rw [h, List.find?_map, tags, hc, Option.map_some, hr]

/-- Grants leave a command that they cannot make RUNNING as it is (R410). -/
theorem State.cmdOf_dispatch_eq {s : State} {q t : Nat} {c : Cmd} (hc : s.cmdOf q t = some c) (hr : ∀ flow, c.runs flow = c) :
    s.dispatch.cmdOf q t = some c := by
  refine List.foldlRecOn (motive := fun u : State => u.cmdOf q t = some c) _ _ hc (fun u hu e _ => ?_)
  split
  · exact hu
  · split
    · exact hu
    · exact State.cmdOf_grant_eq hu hr _ _ _

/-! SYNC -/

/-- The commands of its seat that a SYNC waits for. -/
def State.unretired (s : State) (c : Cmd) : List Cmd :=
  ((s.seat c.seat).before c.tag).filter (fun d => !(s.seat c.seat).retired d)

theorem exec_sync {s : State} {c : Cmd} (h : Issued s c 0x03) : exec (.sync c.seat c.tag) s =
    settle (s.command c.seat c.tag 0x03 (fun d t =>
      if (s.unretired c).length = 0 then t.finish d.seat d.tag Status.ok 0
      else t.setCmd { d with work := [(s.unretired c).length] })) := by
  obtain ⟨found, opcode, started, -⟩ := h
  refine congrArg settle ?_
  rw [found]
  dsimp only
  rw [if_pos opcode]
  unfold State.sync
  dsimp only
  rw [started]
  rfl

theorem sync_answers_none {s : State} {c : Cmd} (h : Issued s c 0x03) (none_ : s.unretired c = []) :
    Answers (.sync c.seat c.tag) s (fun t => Completes s t c Status.ok 0 0) :=
  answers_ended (u := s.begun c) h (exec_sync h) (if_pos (by rw [none_]; rfl)) rfl rfl (fun _ _ done => done)

theorem sync_answers_waits {s : State} {c : Cmd} (h : Issued s c 0x03) (some_ : s.unretired c ≠ []) :
    Answers (.sync c.seat c.tag) s (fun t => (t.seat c.seat).done = (s.seat c.seat).done ∧
      t.cmdOf c.seat c.tag = some { c with started := true, work := [(s.unretired c).length] }) := by
  refine answers_command h (exec_sync h) ?_
  rw [if_neg (fun e => some_ (List.eq_nil_of_length_eq_zero e))]
  have bad : c.bad = false := h.2.2.2.2.1
  have opcode : isLong c.opcode = false := by rw [h.2.1]; decide
  have there := State.cmdOf_setCmd (s.begun c) { c with started := true, work := [(s.unretired c).length] } _
    (State.begun_cmdOf h) bad
  refine ⟨?_, ?_⟩
  · rw [State.seat_settled, State.done_dispatch, State.done_setCmd, State.begun_done]
  · rw [State.cmdOf_settled]
    exact State.cmdOf_dispatch_eq there (Cmd.runs_short (c := { c with started := true, work := _ }) opcode)

theorem sync_answers_ends {s : State} {c : Cmd} {k : Nat} (hc : s.cmdOf c.seat c.tag = some c) (ho : c.opcode = 0x03)
    (hs : c.started = true) (hf : c.final = false) (hw : c.waiters = []) (ht : c.tag < bootTag) (h8 : c.seat < 8)
    (work : c.work = [k]) (none_ : s.unretired c = []) :
    Answers (.sync c.seat c.tag) s (fun t => Completes s t c Status.ok k 0) := by
  obtain ⟨done, -⟩ := completes_in_flight (s := s) hc hf hw ht h8 rfl rfl Status.ok k 0
  refine ⟨_, congrArg settle ?_, done⟩
  unfold State.unretired at none_
  rw [hc]
  dsimp only
  rw [if_pos ho]
  unfold State.sync
  simp only [hs, none_, hf, work, List.length_nil, List.headD_cons, Bool.not_false, and_self, if_true]

/-! Opcodes of the house seat -/

theorem houseOnly_answers {s : State} {c : Cmd} {opcode : Nat} {i : Instr} {f : Cmd → State → State} (h : Issued s c opcode)
    (h0 : c.seat ≠ 0) (hi : exec i s = settle (s.command c.seat c.tag opcode (houseOnly f))) :
    Answers i s (fun t => Completes s t c Status.notOwner 0 0) :=
  answers_ended (u := s.begun c) h hi (if_neg h0) rfl rfl (fun _ _ done => done)

/-- KEY_SET and its CLEAR are the house seat's (R420). -/
theorem keyCommand_answers_notOwner {s : State} {c : Cmd} {i : Instr} {clear : Bool} {f : Cmd → State → State}
    (h : Issued s c 0x61) (h0 : c.seat ≠ 0) (flag : c.flag 0 = clear)
    (hi : exec i s = settle (s.keyCommand c.seat c.tag clear f)) :
    Answers i s (fun t => Completes s t c Status.notOwner 0 0) := by
  have runs : s.keyCommand c.seat c.tag clear f = s.command c.seat c.tag 0x61 (houseOnly (fun c s =>
      if 8 ≤ c.n 0 then s.finish c.seat c.tag Status.badParam
      else if s.model.seats ≤ c.n 0 then s.finish c.seat c.tag Status.absentUnit
      else f c s)) := by
    unfold State.keyCommand
    rw [h.1]
    exact if_neg (fun n => n flag)
  exact houseOnly_answers h h0 (hi.trans (congrArg settle runs))

/-- Settles O29: each command begins and ends at once, or waits. -/
theorem shortCommands : Obligations.ShortCommands := by
  refine ⟨fun _ _ h => nop_answers h, fun _ _ h => ⟨identify_answers h, identify_answers_length h⟩,
    fun _ _ h => ⟨sync_answers_none h, sync_answers_waits h⟩,
    fun _ _ _ hc ho hs hf hw ht h8 work retired => sync_answers_ends hc ho hs hf hw ht h8 work ?_,
    fun s c h0 => ⟨fun h => houseOnly_answers h h0 rfl, fun h flag => keyCommand_answers_notOwner h h0 flag rfl,
      fun h flag => keyCommand_answers_notOwner h h0 flag rfl, fun h => houseOnly_answers h h0 rfl,
      fun h => houseOnly_answers h h0 rfl⟩⟩
  exact List.filter_eq_nil_iff.mpr (fun d hd => by rw [retired d hd]; decide)

end Sys2Proof.Machine
end

section
/-! PROOFS. OP_QUERY RELEASE where a second command stands under the tag of the query (R401, R413). -/

namespace Sys2Proof.Machine

open Sys2Proof

/-- An OP_QUERY that releases buffer 9. -/
def releaseQuery : Cmd :=
  { seat := 0, sq := 0, tag := 1, opcode := 0x73, word0 := 0x00010073#32, context := 0#32, params := [0x02000000#32, 9#32] }

/-- A FILTER_LOAD under way that reads buffer 9, under the same tag. -/
def loadUnderSameTag : Cmd :=
  { seat := 0, sq := 0, tag := 1, opcode := 0x20, word0 := 0x00010020#32, context := 0#32
    params := [1#32, 9#32, 0#32, 0#32], started := true, state := .running }

/-- Both are in flight, the query first, and the COMMAND job of the seat runs. -/
def releasesUsed : State :=
  { seats := [(0, { cmds := [releaseQuery, loadUnderSameTag] })], pool := { bufs := [(9, { seat := 0, size := 4 })] }
    sched := { service := [{ engine := 80, cls := 2, job := { kind := .command, flow := 0x3800, block := 0 } }] } }

theorem releasesUsed_issued : Issued releasesUsed releaseQuery 0x73 := by
  unfold Issued
  decide +kernel

/-- Once the query has begun, both stand as the query, and none uses the buffer: it is released, and the query ends with OK. -/
theorem exec_releasesUsed : exec (.opQueryRelease releaseQuery.seat releaseQuery.tag) releasesUsed =
    settle (((releasesUsed.begun releaseQuery).freeBuffer 9).finish 0 1 Status.ok).dispatch := by
  have mode : releaseQuery.queryMode = 2 := by decide
  have mine : (releasesUsed.begun releaseQuery).bufferFault 0 9 = none := by decide +kernel
  have unused : (releasesUsed.begun releaseQuery).bufferUsed 9 = false := by decide +kernel
  refine congrArg settle ?_
  unfold State.query
  rw [releasesUsed_issued.1]
  dsimp only
  rw [if_pos mode, State.command_issued _ _ 0x73 _ releasesUsed_issued]
  refine congrArg State.dispatch ?_
  rw [show (releasesUsed.setCmd { releaseQuery with started := true }).bufferFault ({ releaseQuery with started := true } : Cmd).seat
    (({ releaseQuery with started := true } : Cmd).n 1) = none from mine]
  exact if_neg (Bool.eq_false_iff.mp unused)

/-- Refutes O32 by its clause on RELEASE of a buffer in use. In `releasesUsed` two commands of the seat stand under tag 1, neither
noted as a tag that was taken: the query, and behind it a load that uses the buffer. Beginning replaces every such command of
the tag (`State.setCmd`), so that the load is gone before the buffer's use is asked, and the query completes with OK where the
clause says BUSY. The commands of the model note a tag taken twice (R401, `State.take`), but the clause is about every state. -/
theorem not_queries : ¬ Obligations.Queries := by
  rintro ⟨-, -, release⟩
  obtain ⟨own, -⟩ := release releasesUsed releaseQuery { seat := 0, size := 4 } releasesUsed_issued (by decide) (by decide)
  obtain ⟨t, answer, ⟨busy, -⟩, -⟩ := (own rfl).1 (by decide +kernel)
  obtain rfl := Host.Outcome.next.inj (answer.symm.trans exec_releasesUsed)
  have ok : ((((releasesUsed.begun releaseQuery).freeBuffer 9).finish 0 1 Status.ok).seat 0).done.map (·.status) =
      [Status.ok] := by decide +kernel
  have status := congrArg (List.map Completion.status) busy
  rw [State.seat_settled, State.done_dispatch] at status
  exact absurd (ok.symm.trans status) (by decide +kernel)

end Sys2Proof.Machine
end

section
/-! PROOFS. SNAPSHOT where a second command stands under the tag of the SNAPSHOT (R401, R411). -/

namespace Sys2Proof.Machine

open Sys2Proof

/-- A SNAPSHOT that stays in the module. -/
def moduleSnapshot : Cmd :=
  { seat := 0, sq := 0, tag := 1, opcode := 0x40, word0 := 0x00010040#32, context := 0#32, params := [0#32] }

/-- A RESTORE under way, in the list of the same seat under the same tag; its own record names SEAT 1. -/
def restoreUnderSameTag : Cmd :=
  { seat := 1, sq := 0, tag := 1, opcode := 0x41, word0 := 0x00010041#32, context := 0#32, params := [1#32]
    started := true, state := .running }

/-- Both are in flight, the SNAPSHOT first, and the COMMAND job of the seat runs. -/
def snapshotsBesideRestore : State :=
  { seats := [(0, { cmds := [moduleSnapshot, restoreUnderSameTag] })]
    sched := { service := [{ engine := 80, cls := 2, job := { kind := .command, flow := 0x3800, block := 0 } }] } }

theorem snapshotsBesideRestore_issued : Issued snapshotsBesideRestore moduleSnapshot 0x40 := by
  unfold Issued
  decide +kernel

/-- Once the SNAPSHOT has begun, both stand as the SNAPSHOT, and no other work on snapshots is seen: it is queued. -/
theorem exec_snapshotsBesideRestore : exec (.snapshot moduleSnapshot.seat moduleSnapshot.tag) snapshotsBesideRestore =
    settle ((snapshotsBesideRestore.begun moduleSnapshot).begin_ { moduleSnapshot with started := true }).dispatch := by
  have free : (snapshotsBesideRestore.begun moduleSnapshot).snapBusy { moduleSnapshot with started := true } = false := by
    decide +kernel
  refine congrArg settle ?_
  rw [State.command_issued _ _ 0x40 _ snapshotsBesideRestore_issued]
  refine congrArg State.dispatch ?_
  exact (if_neg (by decide)).trans ((if_neg (Bool.eq_false_iff.mp free)).trans (if_neg (by decide)))

/-- Refutes O50 by its clause on a SNAPSHOT beside other snapshot work. In `snapshotsBesideRestore` two commands stand under tag 1
of one seat, neither noted as a tag that was taken: the SNAPSHOT, and behind it a RESTORE under way. Beginning replaces every such
command of the tag (`State.setCmd`), so that the RESTORE is gone before other work is asked for, and the SNAPSHOT is queued where
the clause has it complete with BUSY. The commands of the model note a tag taken twice (R401, `State.take`), but the clause is
about every state. -/
theorem not_globalOperations : ¬ Obligations.GlobalOperations := by
  rintro ⟨snapshot, -⟩
  obtain ⟨-, busy⟩ := snapshot snapshotsBesideRestore moduleSnapshot snapshotsBesideRestore_issued (by decide)
  obtain ⟨t, answer, ⟨done, -⟩, -⟩ := busy (by decide +kernel)
  obtain rfl := Host.Outcome.next.inj (answer.symm.trans exec_snapshotsBesideRestore)
  have none_ : (((snapshotsBesideRestore.begun moduleSnapshot).begin_ { moduleSnapshot with started := true }).seat 0).done =
      [] := by decide +kernel
  rw [State.seat_settled, State.done_dispatch] at done
  exact absurd (none_.symm.trans done) (by decide +kernel)

end Sys2Proof.Machine
end

section
/-! PROOFS. Timestamp queues and the PTP messages sent (R351, R355 to R359). -/

namespace Sys2Proof.Machine

open Sys2Proof

/-- A command whose meaning settles in `u` answers what holds once the status registers are up to date. -/
theorem Answers.of_settle {c : Instr} {s u : State} {P : State → Prop} (h : exec c s = settle u) (hu : P u.settled) :
    Answers c s P := ⟨_, h, hu⟩

/-! A replaced queue and what its page shows of it -/

theorem State.tsQueue_setTsQueue_same (s : State) (p : Nat) (q : TsQueue) : (s.setTsQueue p q).tsQueue p = q :=
  Map.get_put_same _ _ _ _

theorem State.tsQueue_setTsQueue_other (s : State) {p r : Nat} (q : TsQueue) (h : r ≠ p) :
    (s.setTsQueue p q).tsQueue r = s.tsQueue r :=
  Map.get_put_other _ _ _ _ h _

theorem State.tsQueue_event (s : State) (b : Blk) (i p : Nat) : (s.event b i).tsQueue p = s.tsQueue p :=
  congrArg (fun x : TimeState => Map.get ({} : TsQueue) p x.tsq) (s.event_time b i)

theorem State.tsQueue_count (s : State) (b : Blk) (f : Fld) (n p : Nat) : (s.count b f n).tsQueue p = s.tsQueue p := rfl

theorem State.tsQueue_settled (s : State) (p : Nat) : s.settled.tsQueue p = s.tsQueue p :=
  congrArg (fun x : TimeState => Map.get ({} : TsQueue) p x.tsq) s.settled_time

theorem State.tsq_settled (s : State) (f : Fld) : s.settled.fld .tsq f = s.fld .tsq f :=
  s.settled_fld _ _ (statusWords_below (Nat.le_add_right_of_le (by decide)))

theorem level_fits (p : Nat) : Fits (Reg.Tsq.Q_LEVEL p) := ⟨show 0 + 7 ≤ 32 by decide, show 0 < 2 ^ 7 by decide⟩

theorem lostCount_fits (p : Nat) : Fits (Reg.Tsq.Q_OVF_COUNT p) := ⟨show 0 + 32 ≤ 32 by decide, show 0 < 2 ^ 32 by decide⟩

/-- LEVEL counts the entries of the queue (R357). -/
theorem State.level_setTsQueue (s : State) (p : Nat) (q : TsQueue) :
    (s.setTsQueue p q).fld .tsq (Reg.Tsq.Q_LEVEL p) = q.entries.length % 2 ^ 7 :=
  (State.fld_set_apart _ _ _ (.inl (by simp only [Reg.Tsq.Q_LEVEL, Reg.Tsq.Q_LOST_RUN]; omega))).trans
    (State.fld_set_same _ _ _ _ (level_fits p))

/-- A field of the page in none of the words that show the queue. -/
theorem State.fld_setTsQueue (s : State) (p : Nat) (q : TsQueue) {g : Fld}
    (h : g.off < 0x110 + 0x40 * p ∨ g.off = 0x124 + 0x40 * p) : (s.setTsQueue p q).fld .tsq g = s.fld .tsq g := by
  have aside (t : State) (f : Fld) (v : Nat) (hf : f.off ≠ g.off) : (t.set .tsq f v).fld .tsq g = t.fld .tsq g :=
    t.fld_set_apart _ _ (.inl hf)
  unfold State.setTsQueue
  dsimp only
  rw [aside _ _ _ (by simp only [Reg.Tsq.Q_LOST_RUN]; omega), aside _ _ _ (by simp only [Reg.Tsq.Q_LEVEL]; omega),
    aside _ _ _ (by simp only [Reg.Tsq.Q_ENTRY_W3]; omega), aside _ _ _ (by simp only [Reg.Tsq.Q_ENTRY_W2]; omega),
    aside _ _ _ (by simp only [Reg.Tsq.Q_ENTRY_W1]; omega), aside _ _ _ (by simp only [Reg.Tsq.Q_ENTRY_W0]; omega)]
  rfl

theorem State.events_setTsQueue (s : State) (p : Nat) (q : TsQueue) :
    (s.setTsQueue p q).fld .tsq Reg.Hdr.EVENTS = s.fld .tsq Reg.Hdr.EVENTS :=
  s.fld_setTsQueue p q (.inl (by simp only [Reg.Hdr.EVENTS]; omega))

/-- The events of a page after one of them. -/
theorem State.events_event (s : State) (b : Blk) {i : Nat} (h : i < 31) :
    (s.event b i).fld b Reg.Hdr.EVENTS = s.fld b Reg.Hdr.EVENTS ||| 2 ^ i := by
  rw [State.fld_event, State.fld_set_same _ _ _ _ ⟨by decide, by decide⟩]
  exact Nat.mod_eq_of_lt (Nat.or_lt_two_pow (regGet_lt _ _ _ ⟨by decide, by decide⟩) (Nat.pow_lt_pow_right (by decide) h))

/-! Stamps (R357, R358) -/

/-- Without a lost run no marker enters. -/
theorem TsQueue.mark_none {q : TsQueue} (h : q.runs = []) : q.mark = q := by
  unfold TsQueue.mark
  rw [h]

/-- Without a lost run a lost stamp starts one. -/
theorem TsQueue.lose_first {q : TsQueue} (h : q.runs = []) (type domain seq : Nat) :
    q.lose type domain seq = { q with runs := [{ type := type, domain := domain, seq := seq, count := 1 }] } := by
  unfold TsQueue.lose
  simp only [h, List.reverse_nil]

theorem State.txStamp_lost {s : State} {p type domain seq : Nat} {rest : List (Nat × Nat × Nat)}
    (sent : (s.tsQueue p).sent = (type, domain, seq) :: rest) (on : s.bit .tsq (Reg.Tsq.Q_CFG_EN p) = true)
    (noRun : (s.tsQueue p).runs = []) (full : 64 ≤ (s.tsQueue p).entries.length) (sec ns frac : Nat) :
    s.txStamp p sec ns frac = ((s.setTsQueue p { s.tsQueue p with
      sent := rest, runs := [{ type := type, domain := domain, seq := seq, count := 1 }] }).count .tsq
      (Reg.Tsq.Q_OVF_COUNT p)).event .tsq p := by
  unfold State.txStamp
  simp only [sent, on, Bool.not_true, Bool.false_eq_true, if_false,
    TsQueue.mark_none (q := { s.tsQueue p with sent := rest }) noRun, Nat.not_lt.mpr full, false_and,
    TsQueue.lose_first (q := { s.tsQueue p with sent := rest }) noRun]

/-- The stamp recorded for a departed frame, at its time in 2^-16 ns (R357). -/
def stampEntry (type domain seq x : Nat) : List Word :=
  [tsWord0 type domain seq 1, BitVec.ofNat 32 (x / 65536 / 1000000000),
    BitVec.ofNat 32 (x / 65536 / 1000000000 / 2 ^ 32 % 65536 + x % 65536 * 65536), BitVec.ofNat 32 (x / 65536 % 1000000000)]

theorem State.txStamp_recorded {s : State} {p type domain seq : Nat} {rest : List (Nat × Nat × Nat)}
    (sent : (s.tsQueue p).sent = (type, domain, seq) :: rest) (on : s.bit .tsq (Reg.Tsq.Q_CFG_EN p) = true)
    (noRun : (s.tsQueue p).runs = []) (room : (s.tsQueue p).entries.length < 64) (sec ns frac : Nat) :
    s.txStamp p sec ns frac = (s.setTsQueue p { s.tsQueue p with
      sent := rest, entries := (s.tsQueue p).entries ++ [stampEntry type domain seq
        (((sec * 1000000000 + ns % 2 ^ 30) * 65536 + frac % 65536 : Nat) +
          signed 32 (s.fld .tsq (Reg.Tsq.Q_TX_LAT p))).toNat] }).event .tsq (4 + p) := by
  have clear : (s.tsQueue p).runs.isEmpty = true := by rw [noRun]; rfl
  unfold State.txStamp
  simp only [sent, on, Bool.not_true, Bool.false_eq_true, if_false,
    TsQueue.mark_none (q := { s.tsQueue p with sent := rest }) noRun, room, clear, true_and, if_true, stampEntry]

theorem exec_txStamp (s : State) {p : Nat} (h : p < s.model.eths) (sec ns frac : Nat) :
    exec (.txStamp p sec ns frac) s = settle (s.txStamp p sec ns frac) := congrArg settle (if_pos h)

theorem exec_entryW0Read (s : State) {p : Nat} (h : p < s.model.eths) :
    exec (.entryW0Read p) s = settle (s.entryW0 p) := congrArg settle (if_pos h)

theorem exec_entryW3Read (s : State) {p : Nat} (h : p < s.model.eths) (seat : Nat) :
    exec (.entryW3Read seat p) s = settle (s.entryW3 seat p) := congrArg settle (if_pos h)

theorem txStamp_answers_recorded {s : State} {p type domain seq : Nat} {rest : List (Nat × Nat × Nat)}
    (there : p < s.model.eths) (hp : p < 4)
    (sent : (s.tsQueue p).sent = (type, domain, seq) :: rest) (on : s.bit .tsq (Reg.Tsq.Q_CFG_EN p) = true)
    (noRun : (s.tsQueue p).runs = []) (room : (s.tsQueue p).entries.length < 64) (sec ns frac : Nat) :
    Answers (.txStamp p sec ns frac) s (fun t =>
      t.tsQueue p = { s.tsQueue p with sent := rest, entries := (s.tsQueue p).entries ++ [stampEntry type domain seq
        (((sec * 1000000000 + ns % 2 ^ 30) * 65536 + frac % 65536 : Nat) +
          signed 32 (s.fld .tsq (Reg.Tsq.Q_TX_LAT p))).toNat] } ∧
      t.fld .tsq (Reg.Tsq.Q_LEVEL p) = (s.tsQueue p).entries.length + 1 ∧
      t.fld .tsq Reg.Hdr.EVENTS = s.fld .tsq Reg.Hdr.EVENTS ||| 2 ^ (4 + p)) := by
  refine Answers.of_settle (exec_txStamp s there sec ns frac) ?_
  rw [State.txStamp_recorded sent on noRun room, State.tsQueue_settled, State.tsq_settled, State.tsq_settled]
  refine ⟨?_, ?_, ?_⟩
  · rw [State.tsQueue_event, State.tsQueue_setTsQueue_same]
  · rw [State.fld_event_apart _ _ _ (.inl (by simp only [Reg.Hdr.EVENTS, Reg.Tsq.Q_LEVEL]; omega)), State.level_setTsQueue,
      List.length_append]
    exact Nat.mod_eq_of_lt (Nat.lt_of_lt_of_le (Nat.succ_lt_succ room) (by decide))
  · rw [State.events_event _ _ (by omega), State.events_setTsQueue]

theorem txStamp_answers_lost {s : State} {p type domain seq : Nat} {rest : List (Nat × Nat × Nat)}
    (there : p < s.model.eths) (hp : p < 4)
    (sent : (s.tsQueue p).sent = (type, domain, seq) :: rest) (on : s.bit .tsq (Reg.Tsq.Q_CFG_EN p) = true)
    (noRun : (s.tsQueue p).runs = []) (full : 64 ≤ (s.tsQueue p).entries.length) (sec ns frac : Nat) :
    Answers (.txStamp p sec ns frac) s (fun t => (t.tsQueue p).entries = (s.tsQueue p).entries ∧
      (t.tsQueue p).runs = [{ type := type, domain := domain, seq := seq, count := 1 }] ∧
      t.fld .tsq (Reg.Tsq.Q_OVF_COUNT p) =
        (s.fld .tsq (Reg.Tsq.Q_OVF_COUNT p) + 1) % 2 ^ (Reg.Tsq.Q_OVF_COUNT p).width ∧
      t.fld .tsq Reg.Hdr.EVENTS = s.fld .tsq Reg.Hdr.EVENTS ||| 2 ^ p) := by
  have aside : Apart (Reg.Tsq.Q_OVF_COUNT p) Reg.Hdr.EVENTS :=
    .inl (by simp only [Reg.Hdr.EVENTS, Reg.Tsq.Q_OVF_COUNT]; omega)
  refine Answers.of_settle (exec_txStamp s there sec ns frac) ?_
  rw [State.txStamp_lost sent on noRun full, State.tsQueue_settled, State.tsq_settled, State.tsq_settled, State.tsQueue_event,
    State.tsQueue_count, State.tsQueue_setTsQueue_same]
  refine ⟨rfl, rfl, ?_, ?_⟩
  · rw [State.fld_event_apart _ _ _ (.inl (by simp only [Reg.Hdr.EVENTS, Reg.Tsq.Q_OVF_COUNT]; omega)),
      State.fld_count_same _ _ (lostCount_fits p),
      State.fld_setTsQueue _ _ _ (.inr (by simp only [Reg.Tsq.Q_OVF_COUNT]; omega))]
  · rw [State.events_event _ _ (by omega), State.fld_count_apart _ _ _ aside, State.events_setTsQueue]

/-! Reads of an entry (R359) -/

theorem entryW0Read_answers {s : State} {p : Nat} (there : p < s.model.eths) :
    Answers (.entryW0Read p) s (fun t =>
      t.tsQueue p = { s.tsQueue p with latched := (s.tsQueue p).entries.headD [0, 0, 0, 0] } ∧
      ∀ r, r ≠ p → t.tsQueue r = s.tsQueue r) := by
  refine ⟨_, exec_entryW0Read s there, ?_, fun r hr => ?_⟩
  · exact (State.tsQueue_settled _ _).trans (State.tsQueue_setTsQueue_same _ _ _)
  · exact (State.tsQueue_settled _ _).trans (State.tsQueue_setTsQueue_other _ _ hr)

theorem entryW3Read_answers_seat {s : State} {p seat : Nat} (there : p < s.model.eths) (other : seat ≠ 0) :
    Answers (.entryW3Read seat p) s (OnlyWords s · []) := by
  have kept : s.entryW3 seat p = s := by
    unfold State.entryW3
    simp only [decide_eq_true other, Bool.true_or, if_true]
  exact ⟨_, exec_entryW3Read s there seat, kept.symm ▸ s.settled_only⟩

theorem entryW3Read_answers_house {s : State} {p : Nat} {e : List Word} {rest : List (List Word)} (there : p < s.model.eths)
    (head : (s.tsQueue p).entries = e :: rest) (noRun : (s.tsQueue p).runs = []) :
    Answers (.entryW3Read 0 p) s (fun t => t.tsQueue p = { s.tsQueue p with entries := rest } ∧
      t.fld .tsq (Reg.Tsq.Q_LEVEL p) = rest.length % 2 ^ 7) := by
  have removed : s.entryW3 0 p = s.setTsQueue p { s.tsQueue p with entries := rest } := by
    unfold State.entryW3
    simp only [head, List.isEmpty_cons, ne_eq, not_true_eq_false, decide_false, Bool.or_self, Bool.false_eq_true, if_false,
      List.drop_one, List.tail_cons]
    exact congrArg _ (TsQueue.mark_none noRun)
  refine Answers.of_settle (exec_entryW3Read s there 0) ?_
  rw [removed, State.tsQueue_settled, State.tsq_settled]
  exact ⟨State.tsQueue_setTsQueue_same _ _ _, State.level_setTsQueue _ _ _⟩

/-! PTP messages (R351) -/

theorem State.inst_setInst_same (s : State) (i : Nat) (v : Inst) : (s.setInst i v).inst i = v := by
  by_cases h : i = 0 <;> simp only [State.inst, State.setInst, h, if_true, if_false]

/-- A port other than ETH3 of the bridge pair shows its state in PORT_STATE (R369). -/
theorem State.ptpMaster_port {s : State} {i : Nat} (h : s.fld (.time i) (Reg.Time.CFG_PORT i) ≠ 4) (p : Nat) :
    s.ptpMaster i p = decide (s.fld (.time i) Reg.Time.PORT_STATE = 5) := by
  unfold State.ptpMaster State.ptpPortState
  rw [if_neg (fun both => h both.2)]

/-- The instance after a message of a kind has been numbered (R351). -/
def State.numbered (s : State) (i kind : Nat) : State :=
  s.setInst i { s.inst i with sent := (s.inst i).sent.put 0 kind ((Map.get 0 kind (s.inst i).sent + 1) % 65536) }

theorem State.numbered_keeps {β : Type} (view : State → β) (h : ∀ (s : State) (tm : TimeState), view { s with time := tm } = view s)
    (s : State) (i kind : Nat) : view (s.numbered i kind) = view s := State.setInst_keeps view h _ _ _

/-- An instance on one port sends as master, or a delay request. -/
theorem State.ptpSend_port {s : State} {i kind : Nat} (on : s.bit (.time i) Reg.Time.CFG_EN = true)
    (sends : kind = 2 ∨ s.fld (.time i) Reg.Time.PORT_STATE = 5) (single : s.fld (.time i) (Reg.Time.CFG_PORT i) ≠ 4) :
    s.ptpSend i kind = (s.numbered i kind).ptpEnqueue (s.fld (.time i) (Reg.Time.CFG_PORT i))
      (.ptp i kind (Map.get 0 kind (s.inst i).sent)) := by
  have port : [s.fld (.time i) (Reg.Time.CFG_PORT i)].filter (fun p => kind = 2 || s.ptpMaster i p) =
      [s.fld (.time i) (Reg.Time.CFG_PORT i)] := by
    refine List.filter_eq_self.mpr fun p _ => ?_
    rw [s.ptpMaster_port single]
    simpa using sends
  unfold State.ptpSend
  simp only [if_neg single, port, on, Bool.not_true, List.isEmpty_cons, Bool.or_self, Bool.false_eq_true, if_false,
    List.foldl_cons, List.foldl_nil]
  rfl

theorem exec_ptpMessageSend (s : State) {i kind : Nat} (hi : i < 2) (hk : kind < 3) :
    exec (.ptpMessageSend i kind) s = settle (s.ptpSend i kind) := congrArg settle (if_pos ⟨hi, hk⟩)

theorem ptpMessageSend_answers {s : State} {i kind q : Nat} (hi : i < 2) (hk : kind < 3)
    (on : s.bit (.time i) Reg.Time.CFG_EN = true) (sends : kind = 2 ∨ s.fld (.time i) Reg.Time.PORT_STATE = 5)
    (single : s.fld (.time i) (Reg.Time.CFG_PORT i) ≠ 4) (here : s.hasEth (s.fld (.time i) (Reg.Time.CFG_PORT i)) = true)
    (control : s.controlQueue (s.fld (.time i) (Reg.Time.CFG_PORT i)) = some q) :
    let p := s.fld (.time i) (Reg.Time.CFG_PORT i)
    Answers (.ptpMessageSend i kind) s (fun t =>
      (t.eth p).queue q = (s.eth p).queue q ++ [{ len := 90, body := .ptp i kind (Map.get 0 kind (s.inst i).sent) }] ∧
      Map.get 0 kind (t.inst i).sent = (Map.get 0 kind (s.inst i).sent + 1) % 65536 ∧ SameWords s t []) := by
  intro p
  let n := s.numbered i kind
  have ports : n.eth p = s.eth p := State.numbered_keeps (State.eth · p) (fun _ _ => rfl) s i kind
  have act : n.fab.act = s.fab.act := State.numbered_keeps (·.fab.act) (fun _ _ => rfl) s i kind
  have queued : s.ptpSend i kind = n.enqueue p q { len := 90, body := .ptp i kind (Map.get 0 kind (s.inst i).sent) } := by
    rw [State.ptpSend_port on sends single]
    exact State.ptpEnqueue_some ((State.numbered_keeps (State.hasEth · p) (fun _ _ => rfl) s i kind).trans here)
      ((State.numbered_keeps (State.controlQueue · p) (fun _ _ => rfl) s i kind).trans control) _
  have sent : (n.inst i).sent = (s.inst i).sent.put 0 kind ((Map.get 0 kind (s.inst i).sent + 1) % 65536) :=
    congrArg Inst.sent (State.inst_setInst_same _ _ _)
  refine Answers.of_settle (exec_ptpMessageSend s hi hk) ⟨?_, ?_, ?_⟩
  · rw [queued, State.eth_settled, State.eth_enqueue, EthPort.queue_setQueue_same, ports]
  · rw [queued, show (n.enqueue p q _).settled.inst i = n.inst i from
      congrArg (fun x : TimeState => if i = 0 then x.instA else x.instB) (State.settled_time _), sent]
    exact Map.get_put_same _ _ _ _
  · intro k _ status
    rw [queued, State.settled_word _ k status, ← act]
    rfl

/-- Settles O49: a stamp joins its queue or is lost, reads latch and remove the head entry, and a PTP message takes the next
sequence number and stands last in the CONTROL queue of its port. -/
theorem timestampsAndMessages : Obligations.TimestampsAndMessages := by
  refine ⟨fun s p there hp => ⟨?_, entryW0Read_answers there, fun seat other => entryW3Read_answers_seat there other,
    fun e rest head noRun => entryW3Read_answers_house there head noRun⟩, ?_⟩
  · intro type domain seq sec ns frac rest sent on noRun
    exact ⟨fun room => txStamp_answers_recorded there hp sent on noRun room sec ns frac,
      fun full => txStamp_answers_lost there hp sent on noRun full sec ns frac⟩
  · intro s i kind q hi hk on sends p single here control
    exact ptpMessageSend_answers hi hk on sends single here control

end Sys2Proof.Machine
end

section
/-! PROOFS. The frame of a chain of field writes, and PTP instances and the media clock (R351, R354, R360 to R369). -/

namespace Sys2Proof.Machine

open Sys2Proof

/-! What a chain of field writes leaves -/

/-- Two fields share no bit of a register word. -/
abbrev FldApart (b : Blk) (f : Fld) (c : Blk) (g : Fld) : Prop :=
  wordAt c g ≠ wordAt b f ∨ f.lsb + f.width ≤ g.lsb ∨ g.lsb + g.width ≤ f.lsb

/-- Every field that lies apart from the fields listed reads the same in both states. -/
def Writes (s t : State) (l : List (Blk × Fld)) : Prop :=
  ∀ c g, (∀ w ∈ l, FldApart w.1 w.2 c g) → t.fld c g = s.fld c g

theorem State.fld_set_other (s : State) {b c : Blk} {f g : Fld} (v : Nat) (h : FldApart b f c g) :
    (s.set b f v).fld c g = s.fld c g :=
  h.elim (s.fld_set_word b c f g v) (s.fld_set_bits b c f g v)

theorem State.fld_event_other (s : State) {b c : Blk} {g : Fld} (i : Nat) (h : FldApart b Reg.Hdr.EVENTS c g) :
    (s.event b i).fld c g = s.fld c g :=
  (s.fld_event b c i g).trans (s.fld_set_other _ h)

theorem Writes.of_act {s t : State} {l : List (Blk × Fld)} (h : t.fab.act = s.fab.act) : Writes s t l :=
  fun c g _ => congrArg (regGet · c.base g) h

theorem Writes.refl (s : State) (l : List (Blk × Fld)) : Writes s s l := fun _ _ _ => rfl

theorem Writes.trans {s t u : State} {l : List (Blk × Fld)} (h : Writes s t l) (k : Writes t u l) : Writes s u l :=
  fun c g hg => (k c g hg).trans (h c g hg)

theorem Writes.mono {s t : State} {l m : List (Blk × Fld)} (h : Writes s t l) (sub : ∀ w ∈ l, w ∈ m) : Writes s t m :=
  fun c g hg => h c g fun w hw => hg w (sub w hw)

theorem Writes.set {s t : State} {l : List (Blk × Fld)} (h : Writes s t l) {b : Blk} {f : Fld} (v : Nat) (hm : (b, f) ∈ l) :
    Writes s (t.set b f v) l :=
  fun c g hg => (t.fld_set_other v (hg _ hm)).trans (h c g hg)

theorem Writes.count {s t : State} {l : List (Blk × Fld)} (h : Writes s t l) {b : Blk} {f : Fld} (n : Nat) (hm : (b, f) ∈ l) :
    Writes s (t.count b f n) l := h.set _ hm

theorem Writes.event {s t : State} {l : List (Blk × Fld)} (h : Writes s t l) {b : Blk} (i : Nat)
    (hm : (b, Reg.Hdr.EVENTS) ∈ l) : Writes s (t.event b i) l :=
  fun c g hg => (t.fld_event_other i (hg _ hm)).trans (h c g hg)

theorem Writes.set64 {s t : State} {l : List (Blk × Fld)} (h : Writes s t l) {b : Blk} {lo hi : Fld} (v : Nat)
    (hlo : (b, lo) ∈ l) (hhi : (b, hi) ∈ l) : Writes s (t.set64 b lo hi v) l :=
  (h.set _ hlo).set _ hhi

theorem Writes.ite {s t u : State} {l : List (Blk × Fld)} {p : Prop} [Decidable p] (h : Writes s t l) (k : Writes s u l) :
    Writes s (if p then t else u) l := by
  split
  · exact h
  · exact k

/-- A 64-bit value reads back from its two words. -/
theorem State.fld64_set64 (s : State) (b : Blk) {lo hi : Fld} {v : Nat} (h : Apart hi lo) (hlo : Fits lo) (hhi : Fits hi)
    (wlo : lo.width = 32) (whi : hi.width = 32) (hv : v < 2 ^ 64) : (s.set64 b lo hi v).fld64 b lo hi = v := by
  unfold State.fld64 State.set64
  rw [State.fld_set_apart _ _ _ h, State.fld_set_same _ _ _ _ hlo, State.fld_set_same _ _ _ _ hhi, wlo, whi]
  omega

theorem unsigned_lt (n : Nat) (v : Int) : unsigned n v < 2 ^ n := by
  have pos : (0 : Int) < 2 ^ n := by positivity
  have bound := Int.emod_lt_of_pos v pos
  unfold unsigned
  zify
  rw [Int.toNat_of_nonneg (Int.emod_nonneg v pos.ne')]
  exact_mod_cast bound

theorem State.event_eq_set (s : State) {b : Blk} (i : Nat) (h : mirrored b Reg.Hdr.EVENTS.off = false) :
    s.event b i = s.set b Reg.Hdr.EVENTS (s.fld b Reg.Hdr.EVENTS ||| 2 ^ i) := s.stick_eq_set i h

theorem time_not_statusWord (i : Nat) (f : Fld) : wordAt (.time i) f ∉ statusWords :=
  statusWords_below (by simp only [wordAt, Blk.base]; omega)

theorem mediaClk_not_statusWord (f : Fld) : wordAt .mediaClk f ∉ statusWords :=
  statusWords_below (Nat.le_add_right_of_le (by decide))

theorem State.time_fld_settled (s : State) (i : Nat) (f : Fld) : s.settled.fld (.time i) f = s.fld (.time i) f :=
  s.settled_fld _ _ (time_not_statusWord i f)

theorem State.mediaClk_fld_settled (s : State) (f : Fld) : s.settled.fld .mediaClk f = s.fld .mediaClk f :=
  s.settled_fld _ _ (mediaClk_not_statusWord f)

/-! Instances -/

theorem State.inst_of_time {s t : State} (h : t.time = s.time) (i : Nat) : t.inst i = s.inst i :=
  congrArg (fun x : TimeState => if i = 0 then x.instA else x.instB) h

theorem State.setInst_inst (s : State) (i : Nat) : s.setInst i (s.inst i) = s := by
  by_cases h : i = 0 <;> simp only [State.setInst, State.inst, h, if_true, if_false]

theorem State.setInst_act (s : State) (i : Nat) (v : Inst) : (s.setInst i v).fab.act = s.fab.act :=
  State.setInst_keeps (·.fab.act) (fun _ _ => rfl) s i v

theorem Writes.setInst {s t : State} {l : List (Blk × Fld)} (h : Writes s t l) (i : Nat) (v : Inst) :
    Writes s (t.setInst i v) l := h.trans (.of_act (t.setInst_act i v))

theorem State.showInter_writes (s : State) : Writes s s.showInter [(.mediaClk, Reg.MediaClk.INTER_VALID)] :=
  (Writes.refl _ _).set _ List.mem_cons_self

/-- What a change of SERVO may write. -/
def servoFields (i : Nat) : List (Blk × Fld) :=
  [(.time i, Reg.Time.SERVO), (.time i, Reg.Hdr.EVENTS), (.mediaClk, Reg.MediaClk.INTER_VALID)]

theorem State.servoTo_writes (s : State) (i now : Nat) : Writes s (s.servoTo i now) (servoFields i) := by
  have events : (Blk.time i, Reg.Hdr.EVENTS) ∈ servoFields i := List.mem_cons_of_mem _ List.mem_cons_self
  have moved (v : Inst) := ((Writes.refl s (servoFields i)).set now List.mem_cons_self).setInst i v
  have locked (v : Inst) := Writes.ite (p := now = 2 ∧ s.servo i ≠ 2) ((moved v).event 0 events) (moved v)
  have told (v : Inst) (p : Prop) [Decidable p] := Writes.ite (p := p) ((locked v).event 1 events) (locked v)
  exact (told _ _).trans ((State.showInter_writes _).mono fun w hw => List.mem_cons_of_mem _ (List.mem_cons_of_mem _ hw))

/-- SERVO shows the state the servo has gone to (R369). -/
theorem State.servo_servoTo (s : State) {i : Nat} (hi : i < 2) {now : Nat} (hn : now < 4) : (s.servoTo i now).servo i = now := by
  have inter : ∀ j < 2, ∀ w ∈ [(Blk.mediaClk, Reg.MediaClk.INTER_VALID)], FldApart w.1 w.2 (.time j) Reg.Time.SERVO := by
    decide
  have aside : Apart Reg.Hdr.EVENTS Reg.Time.SERVO := by decide
  have event (t : State) (k : Nat) : (t.event (.time i) k).fld (.time i) Reg.Time.SERVO = t.fld (.time i) Reg.Time.SERVO :=
    t.fld_event_apart _ _ aside
  unfold State.servoTo State.servo
  dsimp only
  rw [State.showInter_writes _ _ _ (inter i hi), apply_ite (State.fld · (.time i) Reg.Time.SERVO), event, ite_self,
    apply_ite (State.fld · (.time i) Reg.Time.SERVO), event, ite_self]
  refine ((Writes.refl _ []).setInst i _ _ _ (fun _ hw => nomatch hw)).trans ?_
  rw [State.fld_set_same _ _ _ _ ⟨by decide, by decide⟩]
  exact Nat.mod_eq_of_lt hn

/-- A change of SERVO leaves of the instance all but the note of having been locked. -/
theorem State.inst_servoTo (s : State) (i now : Nat) : ∃ l, (s.servoTo i now).inst i = { s.inst i with locked := l } := by
  have kept (t u : State) (p : Prop) [Decidable p] (k : Nat) (h : u = if p then t.event (.time i) k else t) :
      u.inst i = t.inst i := by
    rw [h]
    split
    · exact State.inst_of_time (State.event_time _ _ _) i
    · rfl
  refine ⟨_, (kept _ _ _ _ rfl).trans ((kept _ _ _ _ rfl).trans (State.inst_setInst_same _ _ _))⟩

theorem State.time_ite_event (s : State) (b : Blk) (k : Nat) (p : Prop) [Decidable p] :
    (if p then s.event b k else s).time = s.time := by
  split
  · exact State.event_time _ _ _
  · rfl

/-- The instance whose servo has gone to a state (R369). -/
def Inst.gone (v : Inst) (now : Nat) : Inst :=
  { v with locked := now = 2 || (v.locked && !(v.locked && (now = 0 || now = 1))) }

theorem State.servoTo_time (s : State) (i now : Nat) :
    (s.servoTo i now).time = (s.setInst i ((s.inst i).gone now)).time := by
  have moved : ((s.set (.time i) Reg.Time.SERVO now).setInst i ((s.inst i).gone now)).time =
      (s.setInst i ((s.inst i).gone now)).time := by
    unfold State.setInst
    split <;> rfl
  exact (State.time_ite_event _ _ _ _).trans ((State.time_ite_event _ _ _ _).trans moved)

/-! Sync (R354, R360) -/

def interFields : List (Blk × Fld) :=
  [(.mediaClk, Reg.MediaClk.INTER_OFFSET_LO), (.mediaClk, Reg.MediaClk.INTER_OFFSET_HI), (.mediaClk, Reg.MediaClk.INTER_VALID)]

theorem State.interOffset_writes (s : State) (i : Nat) : Writes s (s.interOffset i) interFields := by
  have recorded (l : List Int) := (Writes.refl s interFields).trans
    (Writes.of_act (t := { s with time := { s.time with inter := l } }) rfl)
  have shown (l : List Int) (v : Nat) := (recorded l).set64 (b := .mediaClk) (lo := Reg.MediaClk.INTER_OFFSET_LO)
    (hi := Reg.MediaClk.INTER_OFFSET_HI) v (by decide) (by decide)
  exact Writes.ite (Writes.refl _ _) ((shown _ _).trans ((State.showInter_writes _).mono (by decide)))

theorem State.inst_interOffset (s : State) (i j : Nat) : (s.interOffset i).inst j = s.inst j := by
  unfold State.interOffset
  dsimp only
  generalize (if s.logSync 0 > s.logSync 1 then 0 else 1) = slower
  split <;> rfl

/-- The offset that a Sync measures (R354). -/
def State.measured (s : State) (i : Nat) (d : Int) : Int :=
  d - s.fld (.time i) Reg.Time.MEAN_DELAY - signed 32 (s.fld (.time i) Reg.Time.ASYMMETRY)

/-- The near Syncs in a row with this one (R360). -/
def State.nearNow (s : State) (i : Nat) (d : Int) : Nat :=
  if absNat (s.measured i d) ≤ 65536000 then (s.inst i).near + 1 else 0

/-- The frequencies that a Sync has shown: that of the instance, and that of the media clock which follows it. -/
def State.tuned (s : State) (i : Nat) : State :=
  let u := s.fresh.2.set (.time i) Reg.Time.FREQ s.fresh.1
  if u.deviceFollows i then u.fresh.2.set .mediaClk Reg.MediaClk.FREQ_ADJ u.fresh.1 else u

def syncFields (i : Nat) : List (Blk × Fld) := [(.time i, Reg.Time.FREQ), (.mediaClk, Reg.MediaClk.FREQ_ADJ)]

theorem State.tuned_writes (s : State) (i : Nat) : Writes s (s.tuned i) (syncFields i) := by
  have freq : Writes s (s.fresh.2.set (.time i) Reg.Time.FREQ s.fresh.1) (syncFields i) :=
    Writes.set (t := s.fresh.2) (.of_act rfl) _ List.mem_cons_self
  refine Writes.ite (Writes.set (t := (s.fresh.2.set (.time i) Reg.Time.FREQ s.fresh.1).fresh.2) ?_ _ ?_) freq
  · exact freq.trans (.of_act rfl)
  · exact List.mem_cons_of_mem _ List.mem_cons_self

theorem State.tuned_time (s : State) (i : Nat) : (s.tuned i).time = s.time := by
  unfold State.tuned
  dsimp only
  split <;> rfl

/-- The state in which the offset and the frequency of a Sync have been shown. -/
def State.syncShown (s : State) (i : Nat) (d : Int) : State :=
  (s.set64 (.time i) Reg.Time.OFFSET_LO Reg.Time.OFFSET_HI (unsigned 64 (s.measured i d))).tuned i

theorem State.syncShown_writes (s : State) (i : Nat) (d : Int) :
    Writes (s.set64 (.time i) Reg.Time.OFFSET_LO Reg.Time.OFFSET_HI (unsigned 64 (s.measured i d))) (s.syncShown i d)
      (syncFields i) := State.tuned_writes _ _

theorem State.syncShown_time (s : State) (i : Nat) (d : Int) : (s.syncShown i d).time = s.time := State.tuned_time _ _

/-- What the instance notes of a Sync (R360). -/
def State.syncNoted (s : State) (i : Nat) (o : Int) (near far : Nat) : Inst :=
  let v := s.inst i
  { v with near := near, far := far, off := if s.deviceFollows i then v.off else v.off - Config.servoStep i o
           syncAt := s.render.tick }

/-- A Sync as its parts. -/
theorem State.ptpSync_eq (s : State) (i : Nat) (d : Int) : s.ptpSync i d =
    let o := s.measured i d
    let t := s.syncShown i d
    let jump : Int := t.fld .mediaClk Reg.MediaClk.JUMP_THRESH * 1000 * 65536
    let near := if absNat o ≤ 65536000 then (t.inst i).near + 1 else 0
    let far := if jump < absNat o then (t.inst i).far + 1 else 0
    let u := t.setInst i (t.syncNoted i o near far)
    let v := u.servoTo i (if 16 ≤ near ∨ u.servo i = 2 then 2 else 1)
    (if far = 4 then v.instStep i (-o) else v).interOffset i := rfl

/-- A Sync without a fourth far one in a row: the instance notes it, the servo follows, and so does the offset between the
instances. -/
theorem State.ptpSync_near {s : State} {i : Nat} {d : Int} (few : (s.inst i).far < 3) : ∃ v : Inst,
    v.near = s.nearNow i d ∧ s.ptpSync i d = (((s.syncShown i d).setInst i v).servoTo i
      (if 16 ≤ s.nearNow i d ∨ ((s.syncShown i d).setInst i v).servo i = 2 then 2 else 1)).interOffset i := by
  have inst : (s.syncShown i d).inst i = s.inst i := State.inst_of_time (s.syncShown_time i d) i
  have far (p : Prop) [Decidable p] : ¬((if p then (s.inst i).far + 1 else 0) = 4) := by
    split <;> omega
  rw [State.ptpSync_eq]
  dsimp only
  rw [inst, if_neg (far _)]
  exact ⟨(s.syncShown i d).syncNoted i (s.measured i d) (s.nearNow i d) _, rfl, rfl⟩

theorem exec_ptpRx {s : State} {i : Nat} (hi : i < 2) (on : s.bit (.time i) Reg.Time.CFG_EN = true) (m : PtpMsg) :
    exec (.ptpRx i m) s = match (generalizing := false) m with
      | .sync d => settle (s.ptpSync i d)
      | .announce gm steps cls st => settle (s.ptpAnnounce i gm steps cls st false)
      | .delay mean => settle (s.set (.time i) Reg.Time.MEAN_DELAY mean)
      | .peerDelay mean ratio =>
        settle ((s.set (.time i) Reg.Time.MEAN_DELAY mean).set (.time i) Reg.Time.RATE_RATIO (unsigned 32 ratio)) := by
  refine if_neg ?_
  rw [on]
  simp only [Bool.not_true, Bool.false_eq_true, or_false]
  exact Nat.not_le.mpr hi

theorem sync_answers {s : State} {i : Nat} {d : Int} (hi : i < 2) (on : s.bit (.time i) Reg.Time.CFG_EN = true)
    (few : (s.inst i).far < 3) : Answers (.ptpRx i (.sync d)) s (fun t =>
      t.fld64 (.time i) Reg.Time.OFFSET_LO Reg.Time.OFFSET_HI = unsigned 64 (s.measured i d) ∧
      t.servo i = (if 16 ≤ s.nearNow i d ∨ s.servo i = 2 then 2 else 1) ∧ (t.inst i).near = s.nearNow i d) := by
  obtain ⟨v, near, eq⟩ := State.ptpSync_near (d := d) few
  let shown := s.syncShown i d
  let noted := shown.setInst i v
  have servo : noted.servo i = s.servo i := by
    have same : noted.servo i = shown.servo i := (Writes.refl shown []).setInst i v _ _ (fun _ hw => nomatch hw)
    rw [same]
    refine (s.syncShown_writes i d _ _ ?_).trans ?_
    · exact (show ∀ j < 2, ∀ w ∈ syncFields j, FldApart w.1 w.2 (.time j) Reg.Time.SERVO by decide) i hi
    · exact (State.fld_set_apart _ _ _ (by decide)).trans (State.fld_set_apart _ _ _ (by decide))
  have code : (if 16 ≤ s.nearNow i d ∨ noted.servo i = 2 then 2 else 1) < 4 := by split <;> decide
  refine Answers.of_settle ((exec_ptpRx hi on _).trans (congrArg settle eq)) ⟨?_, ?_, ?_⟩
  · have offset : ∀ g ∈ [Reg.Time.OFFSET_LO, Reg.Time.OFFSET_HI], ∀ j < 2,
        (∀ w ∈ interFields, FldApart w.1 w.2 (.time j) g) ∧ (∀ w ∈ servoFields j, FldApart w.1 w.2 (.time j) g) ∧
          ∀ w ∈ syncFields j, FldApart w.1 w.2 (.time j) g := by decide
    have kept (g : Fld) (hg : g ∈ [Reg.Time.OFFSET_LO, Reg.Time.OFFSET_HI]) (n : Nat) :
        ((noted.servoTo i n).interOffset i).settled.fld (.time i) g =
        (s.set64 (.time i) Reg.Time.OFFSET_LO Reg.Time.OFFSET_HI (unsigned 64 (s.measured i d))).fld (.time i) g := by
      obtain ⟨inter, servoing, syncing⟩ := offset g hg i hi
      rw [State.time_fld_settled, State.interOffset_writes _ _ _ _ inter, State.servoTo_writes _ _ _ _ _ servoing,
        (Writes.refl shown []).setInst i v _ _ (fun _ hw => nomatch hw), s.syncShown_writes i d _ _ syncing]
    unfold State.fld64
    rw [kept _ List.mem_cons_self, kept _ (List.mem_cons_of_mem _ List.mem_cons_self)]
    exact State.fld64_set64 _ _ (by decide) ⟨by decide, by decide⟩ ⟨by decide, by decide⟩ rfl rfl (unsigned_lt 64 _)
  · have inter : ∀ j < 2, ∀ w ∈ interFields, FldApart w.1 w.2 (.time j) Reg.Time.SERVO := by decide
    have shownServo : State.servo ((noted.servoTo i (if 16 ≤ s.nearNow i d ∨ noted.servo i = 2 then 2 else 1)).interOffset i).settled i =
        (if 16 ≤ s.nearNow i d ∨ noted.servo i = 2 then 2 else 1) := by
      unfold State.servo
      rw [State.time_fld_settled, State.interOffset_writes _ _ _ _ (inter i hi)]
      exact State.servo_servoTo _ hi code
    rw [shownServo, servo]
  · obtain ⟨l, kept⟩ := noted.inst_servoTo i (if 16 ≤ s.nearNow i d ∨ noted.servo i = 2 then 2 else 1)
    rw [State.inst_of_time (State.settled_time _), State.inst_interOffset, kept, State.inst_setInst_same]
    exact near

end Sys2Proof.Machine
end

section
/-! PROOFS. Announce, timeouts and the media clock (R351, R360, R363 to R369). -/

namespace Sys2Proof.Machine

open Sys2Proof

/-! Announce and delays (R351, R354, R369) -/

def gmFields (i : Nat) : List (Blk × Fld) := [(.time i, Reg.Time.GM_CHANGES), (.time i, Reg.Hdr.EVENTS)]

def portFields (i : Nat) : List (Blk × Fld) := [(.time i, Reg.Time.PORT_STATE), (.time i, Reg.Hdr.EVENTS)]

/-- The state in which an Announce has shown the grandmaster. -/
def State.gmShown (s : State) (i gm steps cls : Nat) : State :=
  (((s.setInst i { s.inst i with annAt := s.render.tick }).set64 (.time i) Reg.Time.GM_ID_LO Reg.Time.GM_ID_HI gm).set
    (.time i) Reg.Time.STEPS_REMOVED steps).set (.time i) Reg.Time.GM_CLASS cls

/-- A new grandmaster counts. -/
def State.gmCounted (s : State) (i : Nat) (new_ : Bool) : State :=
  if new_ then (s.count (.time i) Reg.Time.GM_CHANGES).event (.time i) 3 else s

/-- The port has a state. -/
def State.portShown (s : State) (i st : Nat) : State :=
  if s.fld (.time i) Reg.Time.PORT_STATE = st then s else (s.set (.time i) Reg.Time.PORT_STATE st).event (.time i) 4

theorem State.gmCounted_writes (s : State) (i : Nat) (new_ : Bool) : Writes s (s.gmCounted i new_) (gmFields i) :=
  Writes.ite (((Writes.refl _ _).count 1 List.mem_cons_self).event 3 (List.mem_cons_of_mem _ List.mem_cons_self)) (Writes.refl _ _)

theorem State.portShown_writes (s : State) (i st : Nat) : Writes s (s.portShown i st) (portFields i) :=
  Writes.ite (Writes.refl _ _) (((Writes.refl _ _).set st List.mem_cons_self).event 4 (List.mem_cons_of_mem _ List.mem_cons_self))

theorem State.portShown_state (s : State) (i : Nat) {st : Nat} (h : st < 8) :
    (s.portShown i st).fld (.time i) Reg.Time.PORT_STATE = st := by
  unfold State.portShown
  split
  case isTrue known => exact known
  case isFalse =>
    rw [State.fld_event_apart _ _ _ (by decide), State.fld_set_same _ _ _ _ ⟨by decide, by decide⟩]
    exact Nat.mod_eq_of_lt (Nat.lt_of_lt_of_le h (by decide))

theorem State.portShown_event (s : State) (i st : Nat) {k : Nat} (hk : k < 31)
    (h : (s.fld (.time i) Reg.Hdr.EVENTS).testBit k = true) :
    ((s.portShown i st).fld (.time i) Reg.Hdr.EVENTS).testBit k = true := by
  unfold State.portShown
  split
  · exact h
  · rw [State.event_testBit _ _ _ hk, State.fld_set_apart _ _ _ (by decide), h, Bool.true_or]

/-- The state an Announce gives the port: a slave-only instance listens (R351). -/
def State.announcedState (s : State) (i st : Nat) : Nat :=
  if s.bit (.time i) Reg.Time.CFG_SLAVE_ONLY = true ∧ st % 8 = 5 then 2 else st % 8

theorem State.announcedState_lt (s : State) (i st : Nat) : s.announcedState i st < 8 := by
  unfold State.announcedState
  split <;> omega

def announceFields (i : Nat) : List (Blk × Fld) :=
  [(.time i, Reg.Time.GM_ID_LO), (.time i, Reg.Time.GM_ID_HI), (.time i, Reg.Time.STEPS_REMOVED), (.time i, Reg.Time.GM_CLASS)]

theorem State.gmShown_writes (s : State) (i gm steps cls : Nat) : Writes s (s.gmShown i gm steps cls) (announceFields i) := by
  have noted := (Writes.refl s (announceFields i)).setInst i { s.inst i with annAt := s.render.tick }
  refine ((noted.set64 gm ?_ ?_).set steps ?_).set cls ?_ <;>
    simp only [announceFields, List.mem_cons, true_or, or_true]

theorem State.gmShown_steps (s : State) (i gm steps cls : Nat) : (s.gmShown i gm steps cls).fld (.time i)
    Reg.Time.STEPS_REMOVED = steps % 2 ^ Reg.Time.STEPS_REMOVED.width := by
  unfold State.gmShown
  rw [State.fld_set_apart _ _ _ (by decide)]
  exact State.fld_set_same _ _ _ _ ⟨by decide, by decide⟩

theorem State.gmShown_gm (s : State) (i : Nat) {gm : Nat} (steps cls : Nat) (h : gm < 2 ^ 64) :
    (s.gmShown i gm steps cls).fld64 (.time i) Reg.Time.GM_ID_LO Reg.Time.GM_ID_HI = gm := by
  let noted := s.setInst i { s.inst i with annAt := s.render.tick }
  have shown : (noted.set64 (.time i) Reg.Time.GM_ID_LO Reg.Time.GM_ID_HI gm).fld64 (.time i) Reg.Time.GM_ID_LO
      Reg.Time.GM_ID_HI = gm :=
    State.fld64_set64 _ _ (by decide) ⟨by decide, by decide⟩ ⟨by decide, by decide⟩ rfl rfl h
  unfold State.gmShown State.fld64
  rw [State.fld_set_apart _ _ _ (by decide), State.fld_set_apart _ _ _ (by decide), State.fld_set_apart _ _ _ (by decide),
    State.fld_set_apart _ _ _ (by decide)]
  exact shown

/-- An Announce as its parts. -/
theorem State.ptpAnnounce_eq (s : State) {i : Nat} (hi : i < 2) (gm steps cls st : Nat) (hgm : gm < 2 ^ 64) :
    let shown := s.gmShown i gm steps cls
    s.ptpAnnounce i gm steps cls st false =
      (shown.gmCounted i (decide (s.fld64 (.time i) Reg.Time.GM_ID_LO Reg.Time.GM_ID_HI ≠ gm))).portShown i (s.announcedState i st) := by
  intro shown
  let was := s.fld64 (.time i) Reg.Time.GM_ID_LO Reg.Time.GM_ID_HI
  let counted := shown.gmCounted i (decide (was ≠ gm))
  have cfg : counted.bit (.time i) Reg.Time.CFG_SLAVE_ONLY = s.bit (.time i) Reg.Time.CFG_SLAVE_ONLY := by
    refine bit_eq_of_fld ?_
    rw [shown.gmCounted_writes i _ _ _ ((show ∀ j < 2, ∀ w ∈ gmFields j, FldApart w.1 w.2 (.time j) Reg.Time.CFG_SLAVE_ONLY by
      decide) i hi)]
    refine (s.gmShown_writes i gm steps cls _ _ ?_).trans rfl
    exact (show ∀ j < 2, ∀ w ∈ announceFields j, FldApart w.1 w.2 (.time j) Reg.Time.CFG_SLAVE_ONLY by decide) i hi
  have count : (if was = gm % 2 ^ 64 then shown else (shown.count (.time i) Reg.Time.GM_CHANGES).event (.time i) 3) = counted := by
    rw [Nat.mod_eq_of_lt hgm]
    by_cases same : was = gm
    · rw [if_pos same]
      exact (if_neg (by simp [same])).symm
    · rw [if_neg same]
      exact (if_pos (by simp [same])).symm
  have state : counted.announcedState i st = s.announcedState i st := by
    unfold State.announcedState
    rw [cfg]
  rw [← state]
  exact congrArg (fun u : State => u.portShown i (u.announcedState i st)) count

theorem announce_answers {s : State} {i : Nat} (hi : i < 2) (on : s.bit (.time i) Reg.Time.CFG_EN = true)
    (gm steps cls st : Nat) (hgm : gm < 2 ^ 64) : Answers (.ptpRx i (.announce gm steps cls st)) s (fun t =>
      t.fld64 (.time i) Reg.Time.GM_ID_LO Reg.Time.GM_ID_HI = gm ∧
      t.fld (.time i) Reg.Time.STEPS_REMOVED = steps % 2 ^ Reg.Time.STEPS_REMOVED.width ∧
      t.fld (.time i) Reg.Time.GM_CLASS = cls % 2 ^ Reg.Time.GM_CLASS.width ∧
      t.fld (.time i) Reg.Time.PORT_STATE = s.announcedState i st ∧
      (s.fld64 (.time i) Reg.Time.GM_ID_LO Reg.Time.GM_ID_HI ≠ gm → (t.fld (.time i) Reg.Hdr.EVENTS).testBit 3 = true ∧
        t.fld (.time i) Reg.Time.GM_CHANGES = (s.fld (.time i) Reg.Time.GM_CHANGES + 1) % 2 ^ Reg.Time.GM_CHANGES.width)) := by
  let shown := s.gmShown i gm steps cls
  let new_ := decide (s.fld64 (.time i) Reg.Time.GM_ID_LO Reg.Time.GM_ID_HI ≠ gm)
  let t := (shown.gmCounted i new_).portShown i (s.announcedState i st)
  have kept (g : Fld) (h : g ∈ [Reg.Time.GM_ID_LO, Reg.Time.GM_ID_HI, Reg.Time.STEPS_REMOVED, Reg.Time.GM_CLASS]) :
      t.settled.fld (.time i) g = shown.fld (.time i) g := by
    obtain ⟨counting, porting⟩ := (show ∀ g ∈ [Reg.Time.GM_ID_LO, Reg.Time.GM_ID_HI, Reg.Time.STEPS_REMOVED, Reg.Time.GM_CLASS],
      ∀ j < 2, (∀ w ∈ gmFields j, FldApart w.1 w.2 (.time j) g) ∧ ∀ w ∈ portFields j, FldApart w.1 w.2 (.time j) g by decide)
      g h i hi
    rw [State.time_fld_settled, State.portShown_writes _ _ _ _ _ porting, State.gmCounted_writes _ _ _ _ _ counting]
  have newCount (changed : s.fld64 (.time i) Reg.Time.GM_ID_LO Reg.Time.GM_ID_HI ≠ gm) :
      shown.gmCounted i new_ = (shown.count (.time i) Reg.Time.GM_CHANGES).event (.time i) 3 := if_pos (decide_eq_true changed)
  refine Answers.of_settle (u := t) ((exec_ptpRx hi on _).trans (congrArg settle (s.ptpAnnounce_eq hi gm steps cls st hgm)))
    ⟨?_, ?_, ?_, ?_, fun changed => ⟨?_, ?_⟩⟩
  · unfold State.fld64
    rw [kept _ (by decide), kept _ (by decide)]
    exact s.gmShown_gm i steps cls hgm
  · rw [kept _ (by decide)]
    exact s.gmShown_steps i gm steps cls
  · rw [kept _ (by decide)]
    exact State.fld_set_same _ _ _ _ ⟨by decide, by decide⟩
  · rw [State.time_fld_settled]
    exact State.portShown_state _ _ (s.announcedState_lt i st)
  · rw [State.time_fld_settled]
    refine State.portShown_event _ _ _ (by decide) ?_
    rw [newCount changed]
    exact State.event_recorded _ _ (by decide)
  · rw [State.time_fld_settled, State.portShown_writes _ _ _ _ _ ((show ∀ j < 2, ∀ w ∈ portFields j,
      FldApart w.1 w.2 (.time j) Reg.Time.GM_CHANGES by decide) i hi), newCount changed, State.fld_event_apart _ _ _ (by decide),
      State.fld_count_same _ _ ⟨by decide, by decide⟩, s.gmShown_writes i gm steps cls _ _ ((show ∀ j < 2,
      ∀ w ∈ announceFields j, FldApart w.1 w.2 (.time j) Reg.Time.GM_CHANGES by decide) i hi)]

theorem delay_answers {s : State} {i : Nat} (hi : i < 2) (on : s.bit (.time i) Reg.Time.CFG_EN = true) (mean : Nat) :
    Answers (.ptpRx i (.delay mean)) s (fun t =>
      t.fld (.time i) Reg.Time.MEAN_DELAY = mean % 2 ^ Reg.Time.MEAN_DELAY.width ∧
      OnlyWords s t [wordAt (.time i) Reg.Time.MEAN_DELAY]) := by
  refine Answers.of_settle (exec_ptpRx hi on _) ⟨?_, (OnlyWords.set _ _ _ _).settled⟩
  rw [State.time_fld_settled]
  exact State.fld_set_same _ _ _ _ ⟨by decide, by decide⟩

/-! Coasting (R360) -/

theorem exec_coasting_early {s : State} {i : Nat} (h : s.render.tick < (s.inst i).syncAt + s.intervals 4 (s.logSync i)) :
    exec (.coasting i) s = settle s := if_neg fun both => Nat.not_le.mpr h both.2.2

theorem exec_coasting {s : State} {i : Nat} (hi : i < 2) (runs : s.servo i = 1 ∨ s.servo i = 2)
    (h : (s.inst i).syncAt + s.intervals 4 (s.logSync i) ≤ s.render.tick) :
    exec (.coasting i) s = settle (s.servoTo i 3) := if_pos ⟨hi, runs, h⟩

/-- A servo that coasts was not unlocked: no event, and the instance is as it was (R369). -/
theorem State.servoTo_coasting (s : State) (i : Nat) : s.servoTo i 3 = (s.set (.time i) Reg.Time.SERVO 3).showInter := by
  have gone : (s.inst i).gone 3 = s.inst i := by
    unfold Inst.gone
    simp
  have unmoved : (s.set (.time i) Reg.Time.SERVO 3).setInst i ((s.inst i).gone 3) = s.set (.time i) Reg.Time.SERVO 3 := by
    rw [gone]
    exact State.setInst_inst (s.set (.time i) Reg.Time.SERVO 3) i
  unfold State.servoTo
  dsimp only
  rw [if_neg (by simp), if_neg (by simp)]
  exact congrArg State.showInter unmoved

theorem coasting_answers {s : State} {i : Nat} (hi : i < 2) (runs : s.servo i = 1 ∨ s.servo i = 2)
    (h : (s.inst i).syncAt + s.intervals 4 (s.logSync i) ≤ s.render.tick) : Answers (.coasting i) s (fun t => t.servo i = 3 ∧
      OnlyWords s t [wordAt (.time i) Reg.Time.SERVO, wordAt .mediaClk Reg.MediaClk.INTER_VALID]) := by
  refine Answers.of_settle (exec_coasting hi runs h) ⟨?_, ?_⟩
  · exact (State.time_fld_settled _ _ _).trans (s.servo_servoTo hi (by decide))
  · rw [s.servoTo_coasting i]
    refine OnlyWords.settled (OnlyWords.set_in ?_ _ _ _ (List.mem_cons_of_mem _ List.mem_cons_self))
    exact (OnlyWords.set _ _ _ _).mono fun k hk => List.mem_cons.mpr (.inl (List.mem_singleton.mp hk))

/-! The media clock (R363 to R368) -/

theorem exec_instanceLocked {s : State} {i : Nat} (hi : i < 2) (locked : s.servo i = 2)
    (open_ : s.fld .mediaClk Reg.MediaClk.STATE = 0 ∨ s.fld .mediaClk Reg.MediaClk.STATE = 3)
    (follows : i = s.selInst ∨ s.bit .mediaClk Reg.MediaClk.AUTO_SWITCH = true) (free : s.time.switch = none)
    (busy : s.restful = false) :
    exec (.instanceLocked i) s = settle { s with time := { s.time with switch := some (i, true) } } := by
  have waits : ({ s with time := { s.time with switch := some (i, true) } } : State).restful = false := busy
  refine (if_pos ⟨hi, locked, open_, free, follows.symm⟩).trans (congrArg settle (if_neg ?_))
  rw [waits]
  decide

theorem freerun_answers {s : State} {since : Nat} (held : s.fld .mediaClk Reg.MediaClk.STATE = 3)
    (from_ : s.time.holdFrom = some since) (h : since + 60 * s.second ≤ s.render.tick) : Answers .freerun s (fun t =>
      t.fld .mediaClk Reg.MediaClk.STATE = 0 ∧ t.fld .mediaClk Reg.Hdr.EVENTS = s.fld .mediaClk Reg.Hdr.EVENTS ||| 4 ∧
      OnlyWords s t [wordAt .mediaClk Reg.MediaClk.STATE, wordAt .mediaClk Reg.Hdr.EVENTS]) := by
  have due : s.time.holdFrom.any (fun t => decide (t + 60 * s.second ≤ s.render.tick)) = true := by
    rw [from_]
    exact decide_eq_true h
  refine Answers.of_settle (if_pos ⟨held, due⟩) ⟨?_, ?_, ?_⟩
  · rw [State.mediaClk_fld_settled, State.fld_event_apart _ _ _ (by decide)]
    exact State.fld_set_same _ _ _ _ ⟨by decide, by decide⟩
  · rw [State.mediaClk_fld_settled, State.events_event _ _ (by decide)]
    exact congrArg (· ||| 4) (s.fld_set_apart .mediaClk (f := Reg.MediaClk.STATE) (g := Reg.Hdr.EVENTS) 0 (by decide))
  · rw [State.event_eq_set _ _ rfl]
    exact (((OnlyWords.refl _ _).set_in _ _ _ List.mem_cons_self).set_in _ _ _
      (List.mem_cons_of_mem _ List.mem_cons_self)).settled

theorem slewDone_answers {s : State} (slewing : s.time.slew.isSome = true) (ended : s.time.h = 0) : Answers .slewDone s (fun t =>
    t.fld .mediaClk Reg.MediaClk.STATE = 1 ∧ t.fld .mediaClk Reg.Hdr.EVENTS = s.fld .mediaClk Reg.Hdr.EVENTS ||| 64 ∧
    t.time = { s.time with slew := none }) := by
  refine Answers.of_settle (if_pos ⟨slewing, ended⟩) ⟨?_, ?_, ?_⟩
  · rw [State.mediaClk_fld_settled, State.fld_event_apart _ _ _ (by decide)]
    exact State.fld_set_same _ _ _ _ ⟨by decide, by decide⟩
  · rw [State.mediaClk_fld_settled, State.events_event _ _ (by decide)]
    exact congrArg (· ||| 64) (s.fld_set_apart .mediaClk (f := Reg.MediaClk.STATE) (g := Reg.Hdr.EVENTS) 1 (by decide))
  · rw [State.settled_time, State.event_time]
    rfl

/-- An event of the media clock is recorded, and nothing else changes. -/
theorem mediaEvent_answers {s : State} {c : Instr} {k : Nat} (hk : k < 31) (h : exec c s = settle (s.event .mediaClk k)) :
    Answers c s (fun t => t.fld .mediaClk Reg.Hdr.EVENTS = s.fld .mediaClk Reg.Hdr.EVENTS ||| 2 ^ k ∧
      OnlyWords s t [wordAt .mediaClk Reg.Hdr.EVENTS]) := by
  refine Answers.of_settle h ⟨?_, ?_⟩
  · rw [State.mediaClk_fld_settled, State.events_event _ _ hk]
  · rw [State.event_eq_set _ _ rfl]
    exact (OnlyWords.set _ _ _ _).settled

theorem State.realign_refused {s : State} (h : s.servo s.selInst = 0 ∨ s.servo s.selInst = 3) :
    s.realign = s.event .mediaClk 4 := if_pos h

theorem State.realign_allowed {s : State} (h : s.servo s.selInst = 1 ∨ s.servo s.selInst = 2) :
    s.realign = if s.restful then s.event .mediaClk 5 else { s with time := { s.time with realign := true } } :=
  if_neg (by omega)

/-! The announce timeout (R351, R360, R365, R367) -/

/-- A switch to an instance that is lost no longer follows. -/
def State.unswitched (s : State) (i : Nat) : State :=
  if s.time.switch.any (fun w => w.1 = i) then { s with time := { s.time with switch := none } } else s

theorem State.unswitched_act (s : State) (i : Nat) : (s.unswitched i).fab.act = s.fab.act := by
  unfold State.unswitched
  split <;> rfl

/-- The instance is idle and its counts of Syncs begin anew. -/
def State.idled (s : State) (i : Nat) : State :=
  let t := s.servoTo i 0
  t.setInst i { t.inst i with near := 0, far := 0 }

theorem State.instLost_eq (s : State) (i : Nat) : s.instLost i =
    let t := (s.idled i).unswitched i
    if i ≠ t.selInst then (if (s.idled i).time.switch.any (fun w => w.1 = i) then t.holdover else t)
    else if t.deviceFollows i && t.bit .mediaClk Reg.MediaClk.AUTO_SWITCH && t.servo (1 - i) = 2 then
      let u : State := { t with time := { t.time with switch := some (1 - i, false) } }
      if u.restful then u.takeSwitch else u
    else t.holdover := rfl

theorem State.idled_writes (s : State) (i : Nat) : Writes s ((s.idled i).unswitched i) (servoFields i) :=
  ((s.servoTo_writes i 0).setInst i _).trans (.of_act (State.unswitched_act _ _))

/-- The pages of the instances, as a loss of the selected one leaves them. -/
def State.timeFld (i : Nat) (g : Fld) (s : State) : Nat := s.fld (.time i) g

theorem State.timeFld_tellPeer (i : Nat) (g : Fld) (s : State) (m : PeerFrame) : (s.tellPeer m).timeFld i g = s.timeFld i g :=
  when_keeps (State.timeFld i g) rfl

section
variable {i : Nat} (hi : i < 2) {g : Fld} (hg : g.off < 0x1000)
include hi hg

theorem State.timeFld_media (s : State) (f : Fld) (v : Nat) : (s.set .mediaClk f v).timeFld i g = s.timeFld i g :=
  s.fld_set_word _ _ _ _ _ (by simp only [Blk.base]; omega)

theorem State.timeFld_mediaEvent (s : State) (k : Nat) : (s.event .mediaClk k).timeFld i g = s.timeFld i g := by
  rw [State.event_eq_set _ _ rfl, State.timeFld_media hi hg]

theorem State.timeFld_holdover (s : State) : s.holdover.timeFld i g = s.timeFld i g := by
  unfold State.holdover
  split
  · dsimp only
    rw [State.timeFld_mediaEvent hi hg, State.timeFld_media hi hg, State.mediaState, State.timeFld_media hi hg]
    rfl
  · rfl

theorem State.timeFld_showH (s : State) : s.showH.timeFld i g = s.timeFld i g :=
  (State.timeFld_media hi hg _ _ _).trans (State.timeFld_media hi hg _ _ _)

theorem State.timeFld_newH (s : State) (h : Int) : (s.newH h).timeFld i g = s.timeFld i g := by
  have shown (tm : TimeState) : ({ s with time := tm } : State).showH.timeFld i g = s.timeFld i g := State.timeFld_showH hi hg _
  have slewing (t : State) (tm : TimeState) (ht : t.timeFld i g = s.timeFld i g) :
      (({ t with time := tm } : State).mediaState 2).timeFld i g = s.timeFld i g := (State.timeFld_media hi hg _ _ _).trans ht
  refine ite_keeps (State.timeFld i g) ?_ (ite_keeps (State.timeFld i g) (slewing _ _ (shown _)) ?_)
  · exact (State.timeFld_media hi hg _ _ _).trans (shown _)
  · exact (State.timeFld_mediaEvent hi hg _ _).trans ((State.timeFld_media hi hg _ _ _).trans (shown _))

theorem State.timeFld_streamsSwitch (s : State) : s.streamsSwitch.timeFld i g = s.timeFld i g := by
  refine foldl_keeps (State.timeFld i g) (fun t n _ => ?_) s
  exact t.fld_set_word _ _ _ _ _ (by simp only [Blk.base]; omega)

theorem State.timeFld_selectInst (s : State) (j : Nat) (first : Bool) : (s.selectInst j first).timeFld i g = s.timeFld i g := by
  let t := s.set .mediaClk Reg.MediaClk.ACTIVE_SEL j
  let stepped := if t.stopped then (t.stepDevice (t.inst j).off).newH 0 else t.newH (t.inst j).off
  let counted := if s.selInst ≠ j then (stepped.count .mediaClk Reg.MediaClk.SWITCH_COUNT).event .mediaClk 0 else stepped
  let locked := if first then counted.event .mediaClk 3 else counted
  let shifted := ({ locked with time := { locked.time with switch := none, holdFrom := none } } : State).streamsSwitch
  have hstep : stepped.timeFld i g = s.timeFld i g := by
    have device : (t.stepDevice (t.inst j).off).timeFld i g = t.timeFld i g := rfl
    refine (ite_keeps (s := t) (State.timeFld i g) ?_ ?_).trans (State.timeFld_media hi hg s Reg.MediaClk.ACTIVE_SEL j)
    · rw [State.timeFld_newH hi hg, device]
    · exact State.timeFld_newH hi hg _ _
  have hcount : counted.timeFld i g = stepped.timeFld i g :=
    when_keeps (State.timeFld i g) ((State.timeFld_mediaEvent hi hg _ _).trans (State.timeFld_media hi hg _ _ _))
  have hlock : locked.timeFld i g = counted.timeFld i g :=
    when_keeps (State.timeFld i g) (State.timeFld_mediaEvent hi hg _ _)
  have hshift : shifted.timeFld i g = locked.timeFld i g := State.timeFld_streamsSwitch hi hg _
  have told : (if shifted.lockPri then shifted.tellPeer (.select j) else shifted).timeFld i g = shifted.timeFld i g :=
    when_keeps (State.timeFld i g) (State.timeFld_tellPeer _ _ _ _)
  exact told.trans (hshift.trans (hlock.trans (hcount.trans hstep)))

theorem State.timeFld_instLost (s : State) : (s.instLost i).timeFld i g = ((s.idled i).unswitched i).timeFld i g := by
  let t := (s.idled i).unswitched i
  have switched (u : State) (h : u.timeFld i g = t.timeFld i g) : u.takeSwitch.timeFld i g = t.timeFld i g := by
    unfold State.takeSwitch
    split
    · exact (State.timeFld_selectInst hi hg _ _ _).trans h
    · exact h
  rw [State.instLost_eq]
  refine ite_keeps (State.timeFld i g) (when_keeps (State.timeFld i g) (State.timeFld_holdover hi hg t))
    (ite_keeps (State.timeFld i g) (ite_keeps (State.timeFld i g) (switched _ rfl) rfl) (State.timeFld_holdover hi hg t))

end

/-- An event recorded before stays. -/
theorem State.event_stays (s : State) (b c : Blk) {k : Nat} (j : Nat) (hk : k < 31)
    (h : (s.fld c Reg.Hdr.EVENTS).testBit k = true) (p : Prop) [Decidable p] :
    ((if p then s.event b j else s).fld c Reg.Hdr.EVENTS).testBit k = true := by
  split
  case isFalse => exact h
  case isTrue =>
    by_cases same : c.base = b.base
    · have page : (s.event b j).fld c Reg.Hdr.EVENTS = (s.event b j).fld b Reg.Hdr.EVENTS :=
        congrArg (regGet _ · Reg.Hdr.EVENTS) same
      have was : s.fld b Reg.Hdr.EVENTS = s.fld c Reg.Hdr.EVENTS := congrArg (regGet _ · Reg.Hdr.EVENTS) same.symm
      rw [page, State.event_testBit _ _ _ hk, was, h, Bool.true_or]
    · rw [State.fld_event_other _ _ (.inl (fun he => same (Nat.add_right_cancel he)))]
      exact h

theorem State.servoTo_event (s : State) {i : Nat} (hi : i < 2) (now : Nat) {k : Nat} (hk : k < 31)
    (h : (s.fld (.time i) Reg.Hdr.EVENTS).testBit k = true) :
    ((s.servoTo i now).fld (.time i) Reg.Hdr.EVENTS).testBit k = true := by
  have moved (v : Inst) : (((s.set (.time i) Reg.Time.SERVO now).setInst i v).fld (.time i) Reg.Hdr.EVENTS).testBit k = true := by
    rw [(Writes.refl (s.set (.time i) Reg.Time.SERVO now) []).setInst i v _ _ (fun _ hw => nomatch hw),
      State.fld_set_apart _ _ _ (by decide)]
    exact h
  unfold State.servoTo
  dsimp only
  rw [State.showInter_writes _ _ _ ((show ∀ j < 2, ∀ w ∈ [(Blk.mediaClk, Reg.MediaClk.INTER_VALID)],
    FldApart w.1 w.2 (.time j) Reg.Hdr.EVENTS by decide) i hi)]
  exact State.event_stays _ _ _ _ hk (State.event_stays _ _ _ _ hk (moved _) _) _

/-- The announce timeout is noted: it counts, and the wait begins anew. -/
def State.annNoted (s : State) (i : Nat) : State :=
  let t := (s.count (.time i) Reg.Time.ANN_TIMEOUTS).event (.time i) 2
  t.setInst i { t.inst i with annAt := t.render.tick }

theorem State.annNoted_writes (s : State) (i : Nat) :
    Writes s (s.annNoted i) [(.time i, Reg.Time.ANN_TIMEOUTS), (.time i, Reg.Hdr.EVENTS)] :=
  (((Writes.refl _ _).count 1 List.mem_cons_self).event 2 (List.mem_cons_of_mem _ List.mem_cons_self)).setInst i _

theorem exec_annTimeout {s : State} {i : Nat} (hi : i < 2) (on : s.bit (.time i) Reg.Time.CFG_EN = true)
    (due : (s.inst i).annAt + s.annWait i ≤ s.render.tick) : exec (.annTimeout i) s = settle ((s.annNoted i).instLost i) :=
  if_pos ⟨hi, on, due⟩

theorem State.servoTo_render (s : State) (i now : Nat) : (s.servoTo i now).render = s.render := by
  have told (t : State) (k : Nat) (p : Prop) [Decidable p] : (if p then t.event (.time i) k else t).render = t.render :=
    when_keeps State.render (State.event_render _ _ _)
  refine (told _ _ _).trans ((told _ _ _).trans ?_)
  exact State.setInst_keeps (·.render) (fun _ _ => rfl) _ i _

/-- What a page shows of the time out of its instance (R351, R360). -/
theorem State.annTimeout_page (s : State) {i : Nat} (hi : i < 2) :
    let t := (s.annNoted i).instLost i
    t.servo i = 0 ∧ (t.fld (.time i) Reg.Hdr.EVENTS).testBit 2 = true ∧
      t.fld (.time i) Reg.Time.ANN_TIMEOUTS =
        (s.fld (.time i) Reg.Time.ANN_TIMEOUTS + 1) % 2 ^ Reg.Time.ANN_TIMEOUTS.width := by
  let counted := (s.count (.time i) Reg.Time.ANN_TIMEOUTS).event (.time i) 2
  have noted (g : Fld) : (s.annNoted i).fld (.time i) g = counted.fld (.time i) g :=
    (Writes.refl counted []).setInst i _ _ _ (fun _ hw => nomatch hw)
  have idle (g : Fld) : (((s.annNoted i).idled i).unswitched i).fld (.time i) g =
      ((s.annNoted i).servoTo i 0).fld (.time i) g :=
    ((Writes.refl _ []).setInst i _ |>.trans (.of_act (State.unswitched_act _ _))) _ _ (fun _ hw => nomatch hw)
  have page (g : Fld) (hg : g.off < 0x1000) : ((s.annNoted i).instLost i).fld (.time i) g =
      ((s.annNoted i).servoTo i 0).fld (.time i) g := (State.timeFld_instLost hi hg _).trans (idle g)
  refine ⟨?_, ?_, ?_⟩
  · exact (page _ (by decide)).trans (State.servo_servoTo _ hi (by decide))
  · rw [page _ (by decide)]
    refine State.servoTo_event _ hi _ (by decide) ?_
    rw [noted]
    exact State.event_recorded _ _ (by decide)
  · rw [page _ (by decide), State.servoTo_writes _ _ _ _ _ ((show ∀ j < 2, ∀ w ∈ servoFields j,
      FldApart w.1 w.2 (.time j) Reg.Time.ANN_TIMEOUTS by decide) i hi), noted, State.fld_event_apart _ _ _ (by decide)]
    exact State.fld_count_same _ _ ⟨by decide, by decide⟩ _

/-- The media clock that follows its instance is held over (R367). -/
theorem State.holdover_shows {s : State} (h : s.fld .mediaClk Reg.MediaClk.STATE = 1) :
    s.holdover.fld .mediaClk Reg.MediaClk.STATE = 3 ∧ s.holdover.fld .mediaClk Reg.MediaClk.HOLDOVER_MS = 0 ∧
      s.holdover.time.holdFrom = some s.render.tick ∧ (s.holdover.fld .mediaClk Reg.Hdr.EVENTS).testBit 1 = true := by
  have follows : s.deviceFollows s.selInst = true := by
    unfold State.deviceFollows
    simp only [h, decide_true, Bool.true_or, Bool.and_self]
  have held : s.holdover = ((({ s with time := { s.time with slew := none, holdFrom := some s.render.tick } } : State).mediaState
      3).set .mediaClk Reg.MediaClk.HOLDOVER_MS 0).event .mediaClk 1 := if_pos follows
  rw [held]
  refine ⟨?_, ?_, ?_, State.event_recorded _ _ (by decide)⟩
  · rw [State.fld_event_apart _ _ _ (by decide), State.fld_set_apart _ _ _ (by decide)]
    exact State.fld_set_same _ _ _ _ ⟨by decide, by decide⟩
  · rw [State.fld_event_apart _ _ _ (by decide)]
    exact State.fld_set_same _ _ _ _ ⟨by decide, by decide⟩
  · rw [State.event_time]
    rfl

theorem State.instLost_selected {s : State} {i : Nat} (hi : i < 2) (sel : i = s.selInst)
    (manual : s.bit .mediaClk Reg.MediaClk.AUTO_SWITCH = false) : s.instLost i = ((s.idled i).unswitched i).holdover := by
  let t := (s.idled i).unswitched i
  have page (g : Fld) (h : ∀ j < 2, ∀ w ∈ servoFields j, FldApart w.1 w.2 .mediaClk g) :
      t.fld .mediaClk g = s.fld .mediaClk g := s.idled_writes i _ _ (h i hi)
  have same : i = t.selInst := sel.trans (page Reg.MediaClk.ACTIVE_SEL (by decide)).symm
  have off : t.bit .mediaClk Reg.MediaClk.AUTO_SWITCH = false :=
    (State.bit_eq_of_fld (page Reg.MediaClk.AUTO_SWITCH (by decide))).trans manual
  rw [State.instLost_eq]
  dsimp only
  rw [if_neg (not_not.mpr same), off, Bool.and_false, Bool.false_and, if_neg (by decide)]

theorem annTimeout_answers {s : State} {i : Nat} (hi : i < 2) (on : s.bit (.time i) Reg.Time.CFG_EN = true)
    (due : (s.inst i).annAt + s.annWait i ≤ s.render.tick) : Answers (.annTimeout i) s (fun t => t.servo i = 0 ∧
      (t.fld (.time i) Reg.Hdr.EVENTS).testBit 2 = true ∧
      t.fld (.time i) Reg.Time.ANN_TIMEOUTS =
        (s.fld (.time i) Reg.Time.ANN_TIMEOUTS + 1) % 2 ^ Reg.Time.ANN_TIMEOUTS.width ∧
      (i = s.selInst → s.bit .mediaClk Reg.MediaClk.AUTO_SWITCH = false → s.fld .mediaClk Reg.MediaClk.STATE = 1 →
        t.fld .mediaClk Reg.MediaClk.STATE = 3 ∧ t.fld .mediaClk Reg.MediaClk.HOLDOVER_MS = 0 ∧
        t.time.holdFrom = some s.render.tick ∧ (t.fld .mediaClk Reg.Hdr.EVENTS).testBit 1 = true)) := by
  obtain ⟨idle, event, count⟩ := s.annTimeout_page hi
  let noted := s.annNoted i
  refine Answers.of_settle (exec_annTimeout hi on due) ⟨(State.time_fld_settled _ _ _).trans idle, ?_,
    (State.time_fld_settled _ _ _).trans count, fun sel manual locked => ?_⟩
  · rw [State.time_fld_settled]
    exact event
  have page (g : Fld) (h : ∀ j < 2, ∀ w ∈ [(Blk.time j, Reg.Time.ANN_TIMEOUTS), (Blk.time j, Reg.Hdr.EVENTS)],
      FldApart w.1 w.2 .mediaClk g) : noted.fld .mediaClk g = s.fld .mediaClk g := s.annNoted_writes i _ _ (h i hi)
  have lost := State.instLost_selected (s := noted) hi (sel.trans (page Reg.MediaClk.ACTIVE_SEL (by decide)).symm)
    ((State.bit_eq_of_fld (page Reg.MediaClk.AUTO_SWITCH (by decide))).trans manual)
  have still : ((noted.idled i).unswitched i).fld .mediaClk Reg.MediaClk.STATE = 1 :=
    ((noted.idled_writes i _ _ ((show ∀ j < 2, ∀ w ∈ servoFields j, FldApart w.1 w.2 .mediaClk Reg.MediaClk.STATE by decide)
      i hi)).trans (page _ (by decide))).trans locked
  have tick : ((noted.idled i).unswitched i).render.tick = s.render.tick := by
    have idled : (noted.idled i).render = noted.render := by
      refine (State.setInst_keeps (·.render) (fun _ _ => rfl) _ i _).trans ?_
      exact State.servoTo_render noted i 0
    have unswitched : ((noted.idled i).unswitched i).render = (noted.idled i).render :=
      when_keeps State.render rfl
    have start : noted.render = s.render := (State.setInst_keeps (·.render) (fun _ _ => rfl) _ i _).trans (State.event_render _ _ _)
    rw [unswitched, idled, start]
  obtain ⟨state, ms, from_, told⟩ := State.holdover_shows still
  rw [tick] at from_
  rw [State.mediaClk_fld_settled, State.mediaClk_fld_settled, State.mediaClk_fld_settled, State.settled_time, lost]
  exact ⟨state, ms, from_, told⟩

/-- Settles O48: the messages and timeouts of an instance act on its page and its servo, and the media clock follows the
selected one. -/
theorem timeInstances : Obligations.TimeInstances := by
  refine ⟨?_, fun s since held from_ due => freerun_answers held from_ due, fun s slewing ended => slewDone_answers slewing ended, ?_⟩
  · intro s i hi on b
    refine ⟨fun d few => sync_answers hi on few, fun gm steps cls st hgm => announce_answers hi on gm steps cls st hgm,
      fun mean => delay_answers hi on mean, fun due => annTimeout_answers hi on due, fun runs => ⟨?_, ?_⟩, ?_⟩
    · exact fun due => coasting_answers hi runs due
    · exact fun early => .of_settle (exec_coasting_early early) s.settled_only
    · intro locked open_ follows free busy
      exact .of_settle (exec_instanceLocked hi locked open_ follows free busy) (State.settled_only _)
  · intro s
    refine ⟨fun idle => mediaEvent_answers (k := 4) (by decide) (congrArg settle (State.realign_refused idle)), fun runs => ⟨?_, ?_⟩⟩
    · intro busy
      refine .of_settle (congrArg settle ((State.realign_allowed runs).trans (if_neg ?_))) (State.settled_only _)
      rw [busy]
      decide
    · exact fun rests => mediaEvent_answers (k := 5) (by decide)
        (congrArg settle ((State.realign_allowed runs).trans (if_pos rests)))

end Sys2Proof.Machine
end

section
/-! PROOFS. TRACE_START, the acceptance of its operation, and TRACE_STOP (R383, R410). -/

namespace Sys2Proof.Machine

open Sys2Proof

/-! What a new item, an end and grants leave -/

theorem State.trace_pushReady (s : State) (cls : Nat) (j : Job) : (s.pushReady cls j).sched.trace = s.sched.trace := by
  unfold State.pushReady
  split <;> rfl

theorem State.trace_begin (s : State) (c : Cmd) (work : List Nat) : (s.begin_ c work).sched.trace = s.sched.trace :=
  State.trace_pushReady _ _ _

theorem State.trace_grant (s : State) (e w : Nat) (r : Ready) : (s.grant e w r).sched.trace = s.sched.trace := by
  unfold State.grant State.opRuns
  dsimp only
  split <;> split <;> rfl

/-- Grants leave the running trace alone. -/
theorem State.trace_dispatch (s : State) : s.dispatch.sched.trace = s.sched.trace := by
  refine foldl_keeps (fun t : State => t.sched.trace) (fun t e _ => ?_) s
  split
  · rfl
  · split
    · rfl
    · exact t.trace_grant _ _ _

theorem State.trace_post (s : State) (c : Cmd) (st r0 r1 : Nat) (i : Bool) :
    (s.post c st r0 r1 i).sched.trace = s.sched.trace :=
  ite_keeps (fun t : State => t.sched.trace) rfl rfl

/-- The end of a command leaves the running trace alone. -/
theorem State.trace_finish {s : State} {c : Cmd} (h : s.cmdOf c.seat c.tag = some c) (hf : c.final = false) (hw : c.waiters = [])
    (ht : c.tag < bootTag) (st r0 r1 : Nat) : (s.finish c.seat c.tag st r0 r1).sched.trace = s.sched.trace := by
  rw [State.finish_eq s _ _ _ _ _ c h hw, State.finish1_eq s c st r0 r1 h hf ht]
  exact s.trace_post c st r0 r1 false

/-- The words of the TRACE page lie apart from those in which the seats and the ready items are reported. -/
theorem trace_word_apart {b : Blk} {f g : Fld} (hg : g.off < 0x1000) (hb : b.base < 0xC000 ∧ f.off < 0x1000 ∧ b.base ≤ 0xB000 ∨
    0xD000 ≤ b.base) : Blk.trace.base + g.off ≠ b.base + f.off := by
  have page : Blk.trace.base = 0xC000 := rfl
  omega

/-- The beginning of an operation leaves the TRACE page alone. -/
theorem State.fld_begin_trace (s : State) (c : Cmd) (work : List Nat) {g : Fld} (hg : g.off < 0x1000) :
    (s.begin_ c work).fld .trace g = s.fld .trace g := by
  have shown (t : State) (f : Fld) (v : Nat) (hf : f.off < 0x1000) : (t.set .ringmaster f v).fld .trace g = t.fld .trace g :=
    t.fld_set_word _ _ _ _ _ (trace_word_apart hg (.inl ⟨by decide, hf, by decide⟩))
  have pushed (t : State) (cls : Nat) (j : Job) : (t.pushReady cls j).fld .trace g = t.fld .trace g := by
    unfold State.pushReady State.peak
    split
    · rfl
    · exact (shown _ _ _ (by decide)).trans (shown _ _ _ (by decide))
  refine (pushed _ _ _).trans (State.setSeat_fld _ _ _ _ _ (trace_word_apart hg (.inr ?_)))
  exact Nat.le_add_right_of_le (by decide)

/-! TRACE_START -/

/-- The trace that a command asks for, into the ring of a handle (R383). -/
def Cmd.traceRun (c : Cmd) (handle size : Nat) : TraceRun :=
  { seat := c.seat, tag := c.tag, ring := c.flag 0, classes := c.n 0 % 8, types := c.n 1
    first := c.n 2 % 65536, last := c.n 2 / 65536, size := size, handle := handle }

/-- The trace runs and has its ring (R383). -/
def State.tracing (s : State) (c : Cmd) (size : Nat) : State :=
  let t : State := { s with
    pool := { s.pool with handle := s.pool.next, bufs := s.pool.bufs.put {} s.pool.next { seat := c.seat, size := size } }
    sched := { s.sched with trace := some (c.traceRun s.pool.next size), staged := [], seq := 0 } }
  (t.set .trace Reg.Trace.STATE 1).set .trace Reg.Trace.WRPTR 0

/-- The trace has begun and shows so (R383). -/
theorem State.tracing_begun (s : State) (c : Cmd) (size : Nat) :
    let u := ((s.tracing c size).begin_ c [s.pool.next]).dispatch.settled
    u.fld .trace Reg.Trace.STATE = 1 ∧ u.fld .trace Reg.Trace.WRPTR = 0 ∧ u.sched.trace = some (c.traceRun s.pool.next size) ∧
      Map.get ({} : Buffer) s.pool.next u.pool.bufs = { seat := c.seat, size := size } := by
  let t := s.tracing c size
  have after := CommandFrame.after (t.begin_ c [s.pool.next])
  refine ⟨?_, ?_, ?_, ?_⟩
  · refine (after.fld_eq (b := .trace) (by decide) (by decide)).trans ((State.fld_begin_trace _ _ _ (by decide)).trans ?_)
    exact (State.fld_set_apart _ _ _ (by decide)).trans (State.fld_set_same _ _ _ _ ⟨by decide, by decide⟩)
  · refine (after.fld_eq (b := .trace) (by decide) (by decide)).trans ((State.fld_begin_trace _ _ _ (by decide)).trans ?_)
    exact State.fld_set_same _ _ _ _ ⟨by decide, by decide⟩
  · exact (congrArg Sched.trace (State.settled_sched _)).trans ((State.trace_dispatch _).trans (State.trace_begin t c _))
  · have pool : (t.begin_ c [s.pool.next]).dispatch.settled.pool = t.pool :=
      (State.settled_pool _).trans ((State.pool_dispatch _).trans (State.pool_begin t c _))
    rw [pool]
    exact Map.get_put_same _ _ _ _

/-- What TRACE_START does with valid parameters, no trace running and room in the pool. -/
theorem exec_traceStart {s : State} {c : Cmd} {size : Nat} (h : Issued s c 0x50) (bits : c.n 0 / 8 % 32 = 0)
    (rest : c.n 0 / 2048 = 0) (lg : c.n 0 / 256 % 8 ≤ 6) (idle : s.sched.trace = none)
    (ring : 2 ^ (20 + c.n 0 / 256 % 8) = size) (room : size ≤ s.poolFree) : exec (.traceStart c.seat c.tag) s =
      settle (((s.begun c).tracing { c with started := true } size).begin_ { c with started := true }
        [(s.begun c).pool.next]).dispatch := by
  have valid : ¬(c.n 0 / 8 % 32 ≠ 0 ∨ c.n 0 / 2048 ≠ 0 ∨ 6 < c.n 0 / 256 % 8) := by
    rintro (wrong | wrong | wrong)
    · exact wrong bits
    · exact wrong rest
    · exact Nat.not_lt.mpr lg wrong
  have free : ¬(s.begun c).sched.trace.isSome = true := by
    rw [show (s.begun c).sched.trace = none from idle]
    decide
  have word (k : Nat) : ({ c with started := true } : Cmd).n k = c.n k := rfl
  have fits := State.newBuffer_fits (s := s.begun c) c.seat ((s.poolFree_begun c).symm ▸ room)
  refine (congrArg settle (State.command_issued s c 0x50 _ h)).trans (congrArg (fun t : State => settle t.dispatch) ?_)
  refine (if_neg valid).trans ((if_neg free).trans ?_)
  split
  next full =>
    rw [word, ring] at full
    exact nomatch full.symm.trans fits
  next handle t there =>
    rw [word, ring] at there
    obtain ⟨rfl, rfl⟩ := Prod.mk.inj (Option.some.inj (there.symm.trans fits))
    unfold State.tracing Cmd.traceRun
    rw [word, ring]

theorem traceStart_answers_queued {s : State} {c : Cmd} {size : Nat} (h : Issued s c 0x50) (bits : c.n 0 / 8 % 32 = 0)
    (rest : c.n 0 / 2048 = 0) (lg : c.n 0 / 256 % 8 ≤ 6) (ring : 2 ^ (20 + c.n 0 / 256 % 8) = size)
    (idle : s.sched.trace = none) (room : size ≤ s.poolFree) : Answers (.traceStart c.seat c.tag) s (fun t => Queued s t c ∧
      t.fld .trace Reg.Trace.STATE = 1 ∧ t.fld .trace Reg.Trace.WRPTR = 0 ∧ ∃ q, t.sched.trace = some q ∧ q.seat = c.seat ∧
      q.tag = c.tag ∧ q.ring = c.flag 0 ∧ q.classes = c.n 0 % 8 ∧ q.types = c.n 1 ∧ q.first = c.n 2 % 65536 ∧
      q.last = c.n 2 / 65536 ∧ q.size = size ∧
      (Map.get ({} : Buffer) q.handle t.pool.bufs).seat = c.seat ∧ (Map.get ({} : Buffer) q.handle t.pool.bufs).size = size) := by
  let c' : Cmd := { c with started := true }
  obtain ⟨state, place, run, buffer⟩ := (s.begun c).tracing_begun c' size
  refine Answers.of_settle (exec_traceStart h bits rest lg idle ring room) ⟨?_, state, place, _, run, rfl, rfl, rfl, rfl, rfl, rfl, rfl,
    rfl, congrArg Buffer.seat buffer, congrArg Buffer.size buffer⟩
  exact queued_begin s _ c 0x50 _ h (State.begun_cmdOf h) (State.begun_done s c c.seat)

theorem traceStart_answers_busy {s : State} {c : Cmd} (h : Issued s c 0x50) (bits : c.n 0 / 8 % 32 = 0)
    (rest : c.n 0 / 2048 = 0) (lg : c.n 0 / 256 % 8 ≤ 6) (runs : s.sched.trace.isSome = true) :
    Answers (.traceStart c.seat c.tag) s (fun t => Completes s t c Status.busy 0 0) := by
  refine answers_ended (u := s.begun c) h rfl ?_ rfl rfl (fun _ _ done => done)
  refine (if_neg ?_).trans (if_pos runs)
  rintro (wrong | wrong | wrong)
  · exact wrong bits
  · exact wrong rest
  · exact Nat.not_lt.mpr lg wrong

/-! The first step of the operation (R410) -/

theorem State.accept_first {s : State} {c : Cmd} (h : s.cmdOf c.seat c.tag = some c) (first : c.accepted = false) (r0 r1 : Nat) :
    s.accept c.seat c.tag r0 r1 = (s.post c Status.ok r0 r1 true).setCmd { c with accepted := true } := by
  unfold State.accept
  rw [h]
  exact if_neg (by rw [first]; decide)

theorem State.stepped_on {s : State} {c : Cmd} (h : s.cmdOf c.seat c.tag = some c) (open_ : c.final = false)
    (goes : c.suspend = false) : s.stepped c.seat c.tag = s.setCmd { c with steps := c.steps + 1 } := by
  unfold State.stepped
  rw [h]
  simp only [open_, goes, Bool.false_eq_true, if_false]

/-- A step leaves an operation that has not ended, is not degraded and is not to be cancelled. -/
theorem State.stepEnd_on {s : State} {c : Cmd} (h : s.cmdOf c.seat c.tag = some c) (sound : s.mon.degraded.contains (c.seat, c.tag) = false)
    (stays : c.cancel = none) (before : Nat) : s.stepEnd c.seat c.tag before = s := by
  unfold State.stepEnd
  rw [h]
  dsimp only
  rw [sound, stays, ite_eq_left_iff]
  exact fun _ => if_neg (by decide)

/-- The operation of a trace passes its checking step. -/
theorem State.traceAccepted {s : State} {c : Cmd} (h : s.cmdOf c.seat c.tag = some c) (first : c.accepted = false)
    (open_ : c.final = false) (goes : c.suspend = false) : s.stepTrace c =
      ((s.post c Status.ok (c.work.headD 0) 0 true).setCmd { c with accepted := true }).setCmd
        { c with accepted := true, steps := c.steps + 1 } := by
  obtain ⟨-, -, good⟩ := State.cmdOf_some _ _ _ _ h
  have posted : ((s.post c Status.ok (c.work.headD 0) 0 true).setCmd { c with accepted := true }).cmdOf c.seat c.tag =
      some { c with accepted := true } :=
    State.cmdOf_setCmd _ { c with accepted := true } c ((State.cmdOf_post _ _ _ _ _ _ _ _).trans h) good
  unfold State.stepTrace
  rw [if_neg (by rw [first]; decide), State.accept_first h first]
  exact State.stepped_on (c := { c with accepted := true }) posted open_ goes

/-- A step of a trace has no file to forward. -/
theorem State.forwardChecked_trace (s : State) {c : Cmd} (opcode : c.opcode = 0x50) : s.forwardChecked c = s :=
  if_neg (by simp [opcode])

theorem exec_opStep_trace {s : State} {c : Cmd} (data : List Byte) (h : s.cmdOf c.seat c.tag = some c) (opcode : c.opcode = 0x50)
    (started : c.started = true) (open_ : c.final = false) (runs : c.state ≠ .suspended)
    (serves : s.serving .opStep (0x3000 + c.slot) = true) : exec (.opStep c.seat c.tag data) s =
      settle ((((s.setCmd { c with state := .running }).stepTrace { c with state := .running })).stepEnd c.seat c.tag c.steps) := by
  have long : isLong c.opcode = true := by rw [opcode]; decide
  refine congrArg settle ?_
  rw [h]
  dsimp only
  rw [if_pos ⟨long, started, by rw [open_]; rfl, runs, serves⟩]
  rw [State.forwardChecked_trace _ (c := { c with state := .running }) opcode]
  refine congrArg (State.stepEnd · c.seat c.tag c.steps) ?_
  unfold State.runStep
  simp only [opcode]
  rfl

theorem exec_opStep_suspended {s : State} {c : Cmd} (data : List Byte) (h : s.cmdOf c.seat c.tag = some c)
    (waits : c.state = .suspended) : exec (.opStep c.seat c.tag data) s = settle s := by
  refine congrArg settle ?_
  rw [h]
  exact if_neg fun all => all.2.2.2.1 waits

theorem opStep_answers_accepted {s : State} {c : Cmd} (data : List Byte) (h : s.cmdOf c.seat c.tag = some c)
    (opcode : c.opcode = 0x50) (started : c.started = true) (open_ : c.final = false) (goes : c.suspend = false)
    (stays : c.cancel = none) (first : c.accepted = false) (tag : c.tag < bootTag)
    (serves : s.serving .opStep (0x3000 + c.slot) = true) (sound : s.mon.degraded.contains (c.seat, c.tag) = false)
    (runs : c.state ≠ .suspended) : Answers (.opStep c.seat c.tag data) s (fun t =>
      (t.seat c.seat).done = (s.seat c.seat).done ++ [completionOf s c Status.ok (c.work.headD 0) 0 true] ∧
      ∃ d, t.cmdOf c.seat c.tag = some d ∧ d.state = .running ∧ d.accepted = true ∧ d.steps = c.steps + 1 ∧ d.final = false) := by
  obtain ⟨-, -, good⟩ := State.cmdOf_some _ _ _ _ h
  let c1 : Cmd := { c with state := .running }
  let c2 : Cmd := { c1 with accepted := true }
  let c3 : Cmd := { c2 with steps := c.steps + 1 }
  let s1 := s.setCmd c1
  let s2 := (s1.post c1 Status.ok (c.work.headD 0) 0 true).setCmd c2
  have known : s1.cmdOf c.seat c.tag = some c1 := State.cmdOf_setCmd s c1 c h good
  have known2 : s2.cmdOf c.seat c.tag = some c2 :=
    State.cmdOf_setCmd _ c2 c1 ((State.cmdOf_post _ _ _ _ _ _ _ _).trans known) good
  have known3 : (s2.setCmd c3).cmdOf c.seat c.tag = some c3 := State.cmdOf_setCmd _ c3 c2 known2 good
  have degraded : (s2.setCmd c3).mon = s.mon := by
    have posted (t : State) : (t.post c1 Status.ok (c.work.headD 0) 0 true).mon = t.mon := ite_keeps State.mon rfl rfl
    exact posted s1
  have done_ : s1.stepTrace c1 = s2.setCmd c3 := State.traceAccepted (c := c1) known first open_ goes
  refine Answers.of_settle (exec_opStep_trace data h opcode started open_ runs serves) ?_
  rw [show State.stepTrace (s.setCmd { c with state := .running }) { c with state := .running } = s2.setCmd c3 from done_,
    State.stepEnd_on (c := c3) known3 (degraded.symm ▸ sound) stays]
  refine ⟨?_, c3, (State.cmdOf_settled _ _ _).trans known3, rfl, rfl, rfl, open_⟩
  rw [State.seat_settled, State.done_setCmd, State.done_setCmd, State.done_post _ c1 _ _ _ _ tag, if_pos rfl, State.done_setCmd,
    completionOf_setCmd]
  rfl

/-! TRACE_STOP -/

/-- The staging buffer of a ring trace is empty: nothing is written out. -/
theorem State.traceFlush_empty {s : State} {q : TraceRun} (runs : s.sched.trace = some q) (ring : q.ring = true)
    (empty : s.sched.staged = []) : s.traceFlush = s := by
  have same : ({ s with sched := { s.sched with staged := [] } } : State) = s := by rw [← empty]
  unfold State.traceFlush
  rw [empty]
  dsimp only [List.foldl_nil]
  rw [same, runs]
  exact if_neg (by simp [ring])

/-- The ring trace is over, and its operation has ended with its records (R383). -/
def State.traceOver (s : State) (q : TraceRun) : State :=
  let t := s.finish q.seat q.tag Status.ok q.records (s.traceOldest q)
  ({ t with sched := { t.sched with trace := none, staged := [] } } : State).set .trace Reg.Trace.STATE 0

theorem State.traceEnd_ring {s : State} {q : TraceRun} (runs : s.sched.trace = some q) : s.traceEnd false = s.traceOver q := by
  unfold State.traceEnd
  rw [runs]
  rfl

theorem traceStop_answers {s : State} {c d : Cmd} {q : TraceRun} (h : Issued s c 0x51) (runs : s.sched.trace = some q)
    (ring : q.ring = true) (empty : s.sched.staged = []) (names : c.n 0 % 65536 = q.tag) (may : q.seat = c.seat ∨ c.seat = 0)
    (other : (q.seat, q.tag) ≠ (c.seat, c.tag)) (q8 : q.seat < 8) (hd : s.cmdOf q.seat q.tag = some d) (same : d.seat = q.seat)
    (open_ : d.final = false) (alone : d.waiters = []) (tag : d.tag < bootTag) :
    Answers (.traceStop c.seat c.tag) s (fun t => t.sched.trace = none ∧ t.fld .trace Reg.Trace.STATE = 0 ∧
      completionOf s c Status.ok 0 0 false ∈ (t.seat c.seat).done ∧
      completionOf s d Status.ok q.records (if q.size / 32 ≤ q.records then s.fld .trace Reg.Trace.WRPTR else 0) false ∈
        (t.seat q.seat).done) := by
  obtain ⟨-, dtag, -⟩ := State.cmdOf_some _ _ _ _ hd
  have begun := State.begun_cmdOf h
  have start := State.begun_frame h
  let c' : Cmd := { c with started := true }
  have there : (s.begun c).cmdOf d.seat d.tag = some d := by
    rw [same, dtag, ← hd]
    exact State.cmdOf_setCmd_other _ _ _ _ other
  have oldest : (s.begun c).traceOldest q = if q.size / 32 ≤ q.records then s.fld .trace Reg.Trace.WRPTR else 0 := by
    unfold State.traceOldest
    rw [start.fld_eq (b := .trace) (by decide) (by decide)]
  let r1 := (s.begun c).traceOldest q
  let stopped := (s.begun c).traceOver q
  have finished : (s.begun c).finish q.seat q.tag Status.ok q.records r1 = (s.begun c).finish1 d.seat d.tag Status.ok q.records r1 := by
    rw [← same, ← dtag, State.finish_eq _ _ _ _ _ _ d there alone]
  have cmd : stopped.cmdOf c'.seat c'.tag = some c' := by
    have kept : stopped.cmdOf c.seat c.tag = ((s.begun c).finish q.seat q.tag Status.ok q.records r1).cmdOf c.seat c.tag := rfl
    rw [kept, finished, State.finish1_cmdOf_other there open_ tag _ _ _ (fun e => other (by rw [same, dtag] at e; exact e.symm)), begun]
  have done_ (r : Nat) : (stopped.seat r).done = if r = q.seat then
      (s.seat r).done ++ [completionOf s d Status.ok q.records r1 false] else (s.seat r).done := by
    have kept : stopped.seat r = ((s.begun c).finish q.seat q.tag Status.ok q.records r1).seat r := rfl
    rw [kept, finished, State.finish1_done _ d _ _ _ there open_ tag, same, State.begun_done]
    simp only [completionOf, State.begun_cqOf]
  have issued := h
  obtain ⟨-, -, -, fc, -, wc, -, -, tc, h8, -, qc⟩ := h
  have frame : CommandFrame s ((s.begun c).finish q.seat q.tag Status.ok q.records r1) := by
    rw [← same, ← dtag]
    exact start.trans (CommandFrame.finish there open_ alone tag (same ▸ q8) _ _ _)
  have queue : stopped.cqOf c.seat c.sq = s.cqOf c.seat c.sq := by
    refine (State.fld_set_word _ _ _ _ _ _ ?_).trans (frame.cqOf_eq c.seat qc)
    simp only [Blk.base, Reg.Seat.SQ_CQ, Reg.Trace.STATE]
    omega
  have last := CommandFrame.finish (c := c') cmd fc wc tc h8 Status.ok 0 0
  have after := CommandFrame.after (stopped.finish c'.seat c'.tag Status.ok 0 0)
  have final (r : Nat) : ((stopped.finish c'.seat c'.tag Status.ok 0 0).dispatch.settled.seat r).done =
      if r = c.seat then (stopped.seat r).done ++ [completionOf s c Status.ok 0 0 false] else (stopped.seat r).done := by
    rw [State.seat_settled, State.done_dispatch, State.finish_eq stopped _ _ _ _ _ c' cmd wc,
      State.finish1_done stopped c' _ _ _ cmd fc tc]
    simp only [completionOf, c', queue]
  have trace : (stopped.finish c'.seat c'.tag Status.ok 0 0).dispatch.settled.sched.trace = none := by
    rw [State.settled_sched, State.trace_dispatch]
    exact State.trace_finish (c := c') cmd fc wc tc _ _ _
  have state : (stopped.finish c'.seat c'.tag Status.ok 0 0).dispatch.settled.fld .trace Reg.Trace.STATE = 0 := by
    rw [(last.trans after).fld_eq (by decide) (by decide)]
    exact State.fld_set_same _ _ _ _ ⟨by decide, by decide⟩
  refine answers_command issued rfl ?_
  rw [show (s.begun c).sched.trace = some q from runs]
  dsimp only
  rw [if_pos ⟨names.symm, may⟩, State.traceFlush_empty (s := s.begun c) runs ring empty,
    if_pos (by rw [show (s.begun c).sched.trace = some q from runs]; rfl), State.traceEnd_ring (s := s.begun c) runs]
  refine ⟨trace, state, ?_, ?_⟩
  · rw [final, if_pos rfl]
    exact List.mem_append_right _ (List.mem_singleton.mpr rfl)
  · have there_ : completionOf s d Status.ok q.records r1 false ∈ (stopped.seat q.seat).done := by
      rw [done_, if_pos rfl]
      exact List.mem_append_right _ (List.mem_singleton.mpr rfl)
    rw [final, ← oldest]
    split
    · exact List.mem_append_left _ there_
    · exact there_

/-- Settles O28: TRACE_START, the acceptance of its operation, and TRACE_STOP of a ring trace. -/
theorem traceCommands : Obligations.TraceCommands := by
  refine ⟨fun s c h bits rest lg => ⟨fun idle room => traceStart_answers_queued h bits rest lg rfl idle room,
    fun runs => traceStart_answers_busy h bits rest lg runs⟩, ?_, ?_⟩
  · intro s c data h opcode _ started open_ goes stays first tag _ serves
    exact ⟨fun sound runs => opStep_answers_accepted data h opcode started open_ goes stays first tag serves sound runs,
      fun waits => .of_settle (exec_opStep_suspended data h waits) s.settled_only⟩
  · intro s c d q h runs ring empty names may other q8 hd same open_ alone tag
    exact traceStop_answers h runs ring empty names may other q8 hd same open_ alone tag

end Sys2Proof.Machine
end

section
/-! PROOFS. Queues of a seat: enabling, doorbells, fetching, completions, and uploads that time out (R397 to R405). -/

namespace Sys2Proof.Machine

open Sys2Proof

/-! The page of a seat -/

/-- A count of commands in flight leaves the other fields of the seats' pages alone. -/
theorem State.seat_fld_inFlight (s : State) (q r v : Nat) {f : Fld} (h : Apart Reg.Seat.STATUS_IN_FLIGHT f) (hf : f.off < 0x1000) :
    (s.set (.seat r) Reg.Seat.STATUS_IN_FLIGHT v).fld (.seat q) f = s.fld (.seat q) f := by
  refine s.fld_set_other _ ?_
  by_cases same : q = r
  · rcases h with off | bits
    · exact .inl (by simp only [wordAt, same]; omega)
    · exact .inr bits
  · exact .inl (by simp only [wordAt, Blk.base, Reg.Seat.STATUS_IN_FLIGHT]; omega)

theorem State.seat_fld_setSeat (s : State) (q r : Nat) (v : SeatState) {f : Fld} (h : Apart Reg.Seat.STATUS_IN_FLIGHT f)
    (hf : f.off < 0x1000) : (s.setSeat r v).fld (.seat q) f = s.fld (.seat q) f :=
  State.seat_fld_inFlight { s with seats := s.seats.put {} r v } q r _ h hf

/-- At a command's end a seat's page is as it was, but for its count of commands in flight. -/
theorem State.seat_fld_settled (s : State) (q : Nat) {f : Fld} (h : Apart Reg.Seat.STATUS_IN_FLIGHT f) (hf : f.off < 0x1000) :
    s.settled.fld (.seat q) f = s.fld (.seat q) f := by
  have below (t : State) {b : Blk} {g : Fld} (v : Nat) (hb : b.base + g.off < 0x10000) :
      (t.set b g v).fld (.seat q) f = t.fld (.seat q) f :=
    t.fld_set_word _ _ _ _ _ (by simp only [show (Blk.seat q).base = 0x10000 + 0x1000 * q from rfl]; omega)
  have flight (t : State) (r : Nat) : (t.showFlight r).fld (.seat q) f = t.fld (.seat q) f := t.seat_fld_inFlight q r _ h hf
  unfold State.settled
  rw [foldl_keeps (State.fld · (.seat q) f) (fun t r _ => flight t r)]
  unfold State.showEngines State.setBit
  rw [below _ _ (by decide), below _ _ (by decide), below _ _ (by decide), below _ _ (by decide)]

/-- The words of a seat's page other than that of STATUS are no status words. -/
theorem seat_not_statusWord (q : Nat) {f : Fld} (h : f.off ≠ 0x58) (hf : f.off < 0x1000) : wordAt (.seat q) f ∉ statusWords := by
  have status : ∀ w ∈ statusWords, 0x10000 ≤ w → w % 0x1000 = 0x58 := by decide
  intro hw
  have at_ := status _ hw (Nat.le_add_right_of_le (Nat.le_add_right _ _))
  simp only [wordAt, show (Blk.seat q).base = 0x10000 + 0x1000 * q from rfl] at at_
  omega

/-- What a write of a field in both views changes: its word, and the staged store. -/
theorem OnlyWords.setBoth (s : State) (b : Blk) (f : Fld) (v : Nat) :
    OnlyWords { s with fab := { s.fab with stg := (s.setBoth b f v).fab.stg } } (s.setBoth b f v) [wordAt b f] :=
  OnlyWords.set { s with fab := { s.fab with stg := (s.setBoth b f v).fab.stg } } b f v

theorem OnlyWords.setBoth_settled (s : State) (b : Blk) (f : Fld) (v : Nat) :
    OnlyWords { s with fab := { s.fab with stg := (s.setBoth b f v).settled.fab.stg } } (s.setBoth b f v).settled [wordAt b f] := by
  rw [State.settled_fab_stg]
  exact (OnlyWords.setBoth s b f v).settled

/-- A written field reads back, its width given as a bound. -/
theorem State.fld_set_below (s : State) (b : Blk) {f : Fld} (v : Nat) {n : Nat} (h : Fits f) (hn : 2 ^ f.width = n) :
    (s.set b f v).fld b f = v % n := hn ▸ s.fld_set_same b f v h

theorem State.fld_setBoth_same (s : State) (b : Blk) {f : Fld} (v : Nat) (h : Fits f) :
    (s.setBoth b f v).fld b f = v % 2 ^ f.width := s.fld_set_same b f v h

theorem State.fld_setBoth_apart (s : State) (b : Blk) {f g : Fld} (v : Nat) (h : Apart f g) :
    (s.setBoth b f v).fld b g = s.fld b g := s.fld_set_apart b v h

theorem State.bit_setBoth_apart (s : State) (b : Blk) {f g : Fld} (v : Nat) (h : Apart f g) :
    (s.setBoth b f v).bit b g = s.bit b g := State.bit_eq_of_fld (s.fld_setBoth_apart b v h)

theorem State.bit_iff_fld (s : State) (b : Blk) (f : Fld) (on : Bool) (h : s.fld b f = if on then 1 else 0) : s.bit b f = on := by
  unfold State.bit
  rw [h]
  cases on <;> rfl

/-- The fields of a submission queue: each lies apart from the others and from IN_FLIGHT, and fits its word. -/
theorem sq_fields {i : Nat} (h : i < 4) :
    Apart (Reg.Seat.SQ_TAIL i) (Reg.Seat.SQ_EN i) ∧ Apart (Reg.Seat.SQ_TAIL i) (Reg.Seat.SQ_SIZE i) ∧
      Apart (Reg.Seat.SQ_EN i) (Reg.Seat.SQ_ERR i) ∧ Apart (Reg.Seat.SQ_ERR i) (Reg.Seat.SQ_EN i) ∧
      Apart (Reg.Seat.SQ_EN i) (Reg.Seat.SQ_HEAD i) ∧ Apart (Reg.Seat.SQ_EN i) (Reg.Seat.SQ_TAIL i) ∧
      Apart (Reg.Seat.SQ_ERR i) (Reg.Seat.SQ_HEAD i) ∧ Apart (Reg.Seat.SQ_ERR i) (Reg.Seat.SQ_TAIL i) ∧
      Apart (Reg.Seat.SQ_HEAD i) (Reg.Seat.SQ_TAIL i) := by
  revert i
  decide

/-- A field of a queue: apart from IN_FLIGHT and the header, in its page, and within its word. -/
abbrev QueueFld (f : Fld) : Prop := Apart Reg.Seat.STATUS_IN_FLIGHT f ∧ f.off < 0x1000 ∧ Apart Reg.Hdr.EVENTS f ∧
  f.lsb + f.width ≤ 32 ∧ f.reset < 2 ^ f.width

theorem queue_fields {i : Nat} (h : i < 4) : QueueFld (Reg.Seat.SQ_TAIL i) ∧ QueueFld (Reg.Seat.SQ_EN i) ∧
    QueueFld (Reg.Seat.SQ_ERR i) ∧ QueueFld (Reg.Seat.SQ_HEAD i) ∧ QueueFld (Reg.Seat.CQ_HEAD i) ∧
    QueueFld (Reg.Seat.CQ_EN i) ∧ QueueFld (Reg.Seat.CQ_TAIL i) ∧ QueueFld (Reg.Seat.CQ_PHASE i) := by
  have all : ∀ j < 4, ∀ f ∈ [Reg.Seat.SQ_TAIL j, Reg.Seat.SQ_EN j, Reg.Seat.SQ_ERR j, Reg.Seat.SQ_HEAD j, Reg.Seat.CQ_HEAD j,
      Reg.Seat.CQ_EN j, Reg.Seat.CQ_TAIL j, Reg.Seat.CQ_PHASE j], QueueFld f := by decide
  have fields := all i h
  simp only [List.forall_mem_cons] at fields
  obtain ⟨sqTail, sqEn, sqErr, sqHead, cqHead, cqEn, cqTail, cqPhase, -⟩ := fields
  exact ⟨sqTail, sqEn, sqErr, sqHead, cqHead, cqEn, cqTail, cqPhase⟩

theorem State.queue_fld_settled (s : State) (q : Nat) {f : Fld} (h : QueueFld f) : s.settled.fld (.seat q) f = s.fld (.seat q) f :=
  s.seat_fld_settled q h.1 h.2.1

/-! Doorbells (R399, R402) -/

theorem exec_sqTail (s : State) {seat i : Nat} (hs : seat < s.model.seats) (hi : i < 4) (v : Nat) :
    exec (.sqTail seat i v) s = settle (s.sqTail seat i v) :=
  congrArg settle (if_pos (by rw [decide_eq_true hs, decide_eq_true hi]; rfl))

theorem exec_cqHead (s : State) {seat i : Nat} (hs : seat < s.model.seats) (hi : i < 4) (v : Nat) :
    exec (.cqHead seat i v) s = settle (s.cqHead seat i v) :=
  congrArg settle (if_pos (by rw [decide_eq_true hs, decide_eq_true hi]; rfl))

theorem exec_sqEnable (s : State) {seat i : Nat} (hs : seat < s.model.seats) (hi : i < 4) (cq on : Bool) :
    exec (.sqEnable seat i cq on) s = settle (s.ringWrite seat i cq on) :=
  congrArg settle (if_pos (by rw [decide_eq_true hs, decide_eq_true hi]; rfl))

/-- TAIL is written, and a queue that is enabled stops where it lies beyond SIZE. -/
theorem State.sqTail_eq (s : State) (seat : Nat) {i : Nat} (hi : i < 4) (v : Nat) : s.sqTail seat i v =
    let t := s.setBoth (.seat seat) (Reg.Seat.SQ_TAIL i) v
    if s.bit (.seat seat) (Reg.Seat.SQ_EN i) && s.fld (.seat seat) (Reg.Seat.SQ_SIZE i) ≤ v % 256 then t.ringStop seat i false 1
    else t := by
  obtain ⟨en, size, -⟩ := sq_fields hi
  unfold State.sqTail
  dsimp only
  rw [State.bit_setBoth_apart _ _ _ en, State.fld_setBoth_apart _ _ _ size]

theorem sqTail_answers_kept {s : State} {seat i v : Nat} (hs : seat < s.model.seats) (hi : i < 4)
    (within : s.bit (.seat seat) (Reg.Seat.SQ_EN i) = false ∨ v % 256 < s.fld (.seat seat) (Reg.Seat.SQ_SIZE i)) :
    Answers (.sqTail seat i v) s (fun t => t.fld (.seat seat) (Reg.Seat.SQ_TAIL i) = v % 256 ∧
      OnlyWords { s with fab := { s.fab with stg := t.fab.stg } } t [wordAt (.seat seat) (Reg.Seat.SQ_TAIL i)]) := by
  obtain ⟨tail, -⟩ := queue_fields hi
  have kept : s.sqTail seat i v = s.setBoth (.seat seat) (Reg.Seat.SQ_TAIL i) v := by
    rw [s.sqTail_eq seat hi v]
    refine if_neg ?_
    rcases within with off | below
    · rw [off, Bool.false_and]
      decide
    · rw [decide_eq_false (Nat.not_le.mpr below), Bool.and_false]
      decide
  refine Answers.of_settle ((exec_sqTail s hs hi v).trans (congrArg settle kept)) ⟨?_, OnlyWords.setBoth_settled _ _ _ _⟩
  rw [State.queue_fld_settled _ _ tail]
  exact State.fld_setBoth_same _ _ _ tail.2.2.2

/-- A submission queue that stops shows why (R399). -/
theorem State.ringStop_shows (s : State) (seat : Nat) {i err : Nat} (hi : i < 4) (he : err < 16) :
    let t := (s.ringStop seat i false err).settled
    t.bit (.seat seat) (Reg.Seat.SQ_EN i) = false ∧ t.fld (.seat seat) (Reg.Seat.SQ_ERR i) = err ∧
      (t.fld (.seat seat) Reg.Hdr.EVENTS).testBit 0 = true := by
  obtain ⟨-, en, err_, -⟩ := queue_fields hi
  obtain ⟨-, -, en_err, err_en, -⟩ := sq_fields hi
  refine ⟨State.bit_iff_fld _ _ _ false ?_, ?_, ?_⟩
  · rw [State.queue_fld_settled _ _ en]
    exact (State.fld_event_apart _ _ _ en.2.2.1).trans ((State.fld_set_apart _ _ _ err_en).trans
      (State.fld_setBoth_same _ _ 0 en.2.2.2))
  · rw [State.queue_fld_settled _ _ err_]
    exact (State.fld_event_apart _ _ _ err_.2.2.1).trans ((State.fld_set_same _ _ _ _ err_.2.2.2).trans (Nat.mod_eq_of_lt he))
  · rw [State.seat_fld_settled _ _ (by decide) (by decide)]
    exact State.event_recorded _ _ (by decide)

theorem sqTail_answers_stopped {s : State} {seat i v : Nat} (hs : seat < s.model.seats) (hi : i < 4)
    (on : s.bit (.seat seat) (Reg.Seat.SQ_EN i) = true) (beyond : s.fld (.seat seat) (Reg.Seat.SQ_SIZE i) ≤ v % 256) :
    Answers (.sqTail seat i v) s (fun t => t.bit (.seat seat) (Reg.Seat.SQ_EN i) = false ∧
      t.fld (.seat seat) (Reg.Seat.SQ_ERR i) = 1 ∧ (t.fld (.seat seat) Reg.Hdr.EVENTS).testBit 0 = true) := by
  have stops : s.sqTail seat i v = (s.setBoth (.seat seat) (Reg.Seat.SQ_TAIL i) v).ringStop seat i false 1 := by
    rw [s.sqTail_eq seat hi v]
    exact if_pos (by rw [on, decide_eq_true beyond]; rfl)
  exact Answers.of_settle ((exec_sqTail s hs hi v).trans (congrArg settle stops)) (State.ringStop_shows _ seat hi (by decide))

theorem cqHead_answers {s : State} {seat i : Nat} (v : Nat) (hs : seat < s.model.seats) (hi : i < 4) :
    Answers (.cqHead seat i v) s (fun t => t.fld (.seat seat) (Reg.Seat.CQ_HEAD i) = v % 256 ∧
      OnlyWords { s with fab := { s.fab with stg := t.fab.stg } } t [wordAt (.seat seat) (Reg.Seat.CQ_HEAD i)]) := by
  obtain ⟨-, -, -, -, head, -⟩ := queue_fields hi
  refine Answers.of_settle (exec_cqHead s hs hi v) ⟨?_, OnlyWords.setBoth_settled _ _ _ _⟩
  rw [State.queue_fld_settled _ _ head]
  exact State.fld_setBoth_same _ _ _ head.2.2.2

/-! Enabling (R398) -/

theorem sqEnable_answers_off {s : State} {seat i : Nat} (hs : seat < s.model.seats) (hi : i < 4) :
    Answers (.sqEnable seat i false false) s (fun t => t.bit (.seat seat) (Reg.Seat.SQ_EN i) = false ∧
      OnlyWords { s with fab := { s.fab with stg := t.fab.stg } } t [wordAt (.seat seat) (Reg.Seat.SQ_EN i)]) := by
  obtain ⟨-, en, -⟩ := queue_fields hi
  refine Answers.of_settle (exec_sqEnable s hs hi false false) ⟨State.bit_iff_fld _ _ _ false ?_, OnlyWords.setBoth_settled _ _ _ _⟩
  rw [State.queue_fld_settled _ _ en]
  exact State.fld_setBoth_same _ _ 0 en.2.2.2

theorem State.ringWrite_sq {s : State} {seat i : Nat} (off : s.bit (.seat seat) (Reg.Seat.SQ_EN i) = false) :
    s.ringWrite seat i false true = s.ringEnable seat i false := if_neg (by
  rw [show s.bit (.seat seat) (if false = true then Reg.Seat.CQ_EN i else Reg.Seat.SQ_EN i) = false from off]
  decide)

/-- A submission queue of a sound size on a page boundary (R398). -/
theorem State.ringEnable_sq_good {s : State} {seat i : Nat} (base : s.fld (.seat seat) (Reg.Seat.SQ_BASE_LO i) % 4096 = 0)
    (two : 2 ≤ s.fld (.seat seat) (Reg.Seat.SQ_SIZE i)) (most : s.fld (.seat seat) (Reg.Seat.SQ_SIZE i) ≤ 256) :
    s.ringEnable seat i false = (((s.setBoth (.seat seat) (Reg.Seat.SQ_TAIL i) 0).set (.seat seat) (Reg.Seat.SQ_HEAD i) 0).set
      (.seat seat) (Reg.Seat.SQ_ERR i) 0).setBoth (.seat seat) (Reg.Seat.SQ_EN i) 1 := by
  unfold State.ringEnable
  simp only [Bool.false_eq_true, if_false, two, most, base, decide_true, Bool.true_or, Bool.and_self, if_true]

theorem State.ringEnable_sq_bad {s : State} {seat i : Nat}
    (size : s.fld (.seat seat) (Reg.Seat.SQ_SIZE i) < 2 ∨ 256 < s.fld (.seat seat) (Reg.Seat.SQ_SIZE i)) :
    s.ringEnable seat i false = (s.set (.seat seat) (Reg.Seat.SQ_ERR i) 3).setBoth (.seat seat) (Reg.Seat.SQ_EN i) 0 := by
  unfold State.ringEnable
  simp only [Bool.false_eq_true, if_false]
  rcases size with few | many
  · simp only [Nat.not_le.mpr few, decide_false, Bool.false_and, Bool.false_eq_true, if_false]
  · simp only [Nat.not_le.mpr many, decide_false, Bool.and_false, Bool.false_and, Bool.false_eq_true, if_false]

theorem sqEnable_answers_on {s : State} {seat i : Nat} (hs : seat < s.model.seats) (hi : i < 4)
    (off : s.bit (.seat seat) (Reg.Seat.SQ_EN i) = false) (base : s.fld (.seat seat) (Reg.Seat.SQ_BASE_LO i) % 4096 = 0)
    (two : 2 ≤ s.fld (.seat seat) (Reg.Seat.SQ_SIZE i)) (most : s.fld (.seat seat) (Reg.Seat.SQ_SIZE i) ≤ 256) :
    Answers (.sqEnable seat i false true) s (fun t => t.bit (.seat seat) (Reg.Seat.SQ_EN i) = true ∧
      t.fld (.seat seat) (Reg.Seat.SQ_TAIL i) = 0 ∧ t.fld (.seat seat) (Reg.Seat.SQ_HEAD i) = 0 ∧
      t.fld (.seat seat) (Reg.Seat.SQ_ERR i) = 0) := by
  obtain ⟨tail, en, err, head, -⟩ := queue_fields hi
  obtain ⟨-, -, en_err, -, en_head, en_tail, err_head, err_tail, head_tail⟩ := sq_fields hi
  have ring := (State.ringWrite_sq off).trans (State.ringEnable_sq_good base two most)
  refine Answers.of_settle ((exec_sqEnable s hs hi false true).trans (congrArg settle ring))
    ⟨State.bit_iff_fld _ _ _ true ?_, ?_, ?_, ?_⟩
  · rw [State.queue_fld_settled _ _ en]
    exact State.fld_setBoth_same _ _ 1 en.2.2.2
  · rw [State.queue_fld_settled _ _ tail, State.fld_setBoth_apart _ _ _ en_tail, State.fld_set_apart _ _ _ err_tail,
      State.fld_set_apart _ _ _ head_tail]
    exact State.fld_setBoth_same _ _ 0 tail.2.2.2
  · rw [State.queue_fld_settled _ _ head, State.fld_setBoth_apart _ _ _ en_head, State.fld_set_apart _ _ _ err_head]
    exact State.fld_set_same _ _ _ 0 head.2.2.2
  · rw [State.queue_fld_settled _ _ err, State.fld_setBoth_apart _ _ _ en_err]
    exact State.fld_set_same _ _ _ 0 err.2.2.2

theorem sqEnable_answers_bad {s : State} {seat i : Nat} (hs : seat < s.model.seats) (hi : i < 4)
    (off : s.bit (.seat seat) (Reg.Seat.SQ_EN i) = false)
    (size : s.fld (.seat seat) (Reg.Seat.SQ_SIZE i) < 2 ∨ 256 < s.fld (.seat seat) (Reg.Seat.SQ_SIZE i)) :
    Answers (.sqEnable seat i false true) s (fun t => t.bit (.seat seat) (Reg.Seat.SQ_EN i) = false ∧
      t.fld (.seat seat) (Reg.Seat.SQ_ERR i) = 3) := by
  obtain ⟨-, en, err, -⟩ := queue_fields hi
  obtain ⟨-, -, en_err, -⟩ := sq_fields hi
  have ring := (State.ringWrite_sq off).trans (State.ringEnable_sq_bad size)
  refine Answers.of_settle ((exec_sqEnable s hs hi false true).trans (congrArg settle ring))
    ⟨State.bit_iff_fld _ _ _ false ?_, ?_⟩
  · rw [State.queue_fld_settled _ _ en]
    exact State.fld_setBoth_same _ _ 0 en.2.2.2
  · rw [State.queue_fld_settled _ _ err, State.fld_setBoth_apart _ _ _ en_err]
    exact State.fld_set_same _ _ _ 3 err.2.2.2

/-- The completions of aborted commands are made without a word of a queue. -/
theorem State.abortedPosts_fld (s : State) (seat : Nat) {f : Fld} (h : Apart Reg.Seat.STATUS_IN_FLIGHT f) :
    (s.abortedPosts seat).fld (.seat seat) f = s.fld (.seat seat) f := by
  have put (t : State) (v : SeatState) : (t.setSeat seat v).fld (.seat seat) f = t.fld (.seat seat) f :=
    State.fld_set_apart (s := { t with seats := t.seats.put {} seat v }) _ _ h
  refine (foldl_keeps (State.fld · (.seat seat) f) (fun t e _ => ?_) _).trans (put s _)
  exact put _ _

theorem cqEnable_answers {s : State} {seat i : Nat} (hs : seat < s.model.seats) (hi : i < 4)
    (off : s.bit (.seat seat) (Reg.Seat.CQ_EN i) = false) (base : s.fld (.seat seat) (Reg.Seat.CQ_BASE_LO i) % 4096 = 0)
    (two : 2 ≤ s.fld (.seat seat) (Reg.Seat.CQ_SIZE i)) (most : s.fld (.seat seat) (Reg.Seat.CQ_SIZE i) ≤ 256) :
    Answers (.sqEnable seat i true true) s (fun t => t.bit (.seat seat) (Reg.Seat.CQ_EN i) = true ∧
      t.fld (.seat seat) (Reg.Seat.CQ_HEAD i) = 0 ∧ t.fld (.seat seat) (Reg.Seat.CQ_TAIL i) = 0 ∧
      t.fld (.seat seat) (Reg.Seat.CQ_PHASE i) = 1) := by
  let ring := (((s.setBoth (.seat seat) (Reg.Seat.CQ_HEAD i) 0).set (.seat seat) (Reg.Seat.CQ_TAIL i) 0).set (.seat seat)
    (Reg.Seat.CQ_PHASE i) 1).setBoth (.seat seat) (Reg.Seat.CQ_EN i) 1
  have enabled : s.ringEnable seat i true = ring := by
    unfold State.ringEnable
    simp only [if_true, two, most, base, decide_true, Bool.true_or, Bool.and_self]
    rfl
  have written : ∃ u, s.ringWrite seat i true true = u ∧ ∀ f, Apart Reg.Seat.STATUS_IN_FLIGHT f →
      u.fld (.seat seat) f = ring.fld (.seat seat) f := by
    refine ⟨_, (if_neg ?_).trans (congrArg (fun t : State =>
      if true && i = 0 && t.bit (.seat seat) (Reg.Seat.CQ_EN i) then t.abortedPosts seat else t) enabled), fun f hf => ?_⟩
    · rw [show s.bit (.seat seat) (if true = true then Reg.Seat.CQ_EN i else Reg.Seat.SQ_EN i) = false from off]
      decide
    · exact when_keeps (State.fld · (.seat seat) f) (ring.abortedPosts_fld seat hf)
  obtain ⟨u, eq, page⟩ := written
  obtain ⟨-, -, -, -, head, en, tail, phase⟩ := queue_fields hi
  obtain ⟨en_head, en_tail, en_phase, phase_head, phase_tail, tail_head⟩ :=
    (show ∀ i < 4, Apart (Reg.Seat.CQ_EN i) (Reg.Seat.CQ_HEAD i) ∧ Apart (Reg.Seat.CQ_EN i) (Reg.Seat.CQ_TAIL i) ∧
      Apart (Reg.Seat.CQ_EN i) (Reg.Seat.CQ_PHASE i) ∧ Apart (Reg.Seat.CQ_PHASE i) (Reg.Seat.CQ_HEAD i) ∧
      Apart (Reg.Seat.CQ_PHASE i) (Reg.Seat.CQ_TAIL i) ∧ Apart (Reg.Seat.CQ_TAIL i) (Reg.Seat.CQ_HEAD i) by decide) i hi
  refine Answers.of_settle ((exec_sqEnable s hs hi true true).trans (congrArg settle eq))
    ⟨State.bit_iff_fld _ _ _ true ?_, ?_, ?_, ?_⟩
  · rw [State.queue_fld_settled _ _ en, page _ en.1]
    exact State.fld_setBoth_same _ _ 1 en.2.2.2
  · rw [State.queue_fld_settled _ _ head, page _ head.1]
    refine (State.fld_setBoth_apart _ _ _ en_head).trans ((State.fld_set_apart _ _ _ phase_head).trans
      ((State.fld_set_apart _ _ _ tail_head).trans (State.fld_setBoth_same _ _ 0 head.2.2.2)))
  · rw [State.queue_fld_settled _ _ tail, page _ tail.1]
    refine (State.fld_setBoth_apart _ _ _ en_tail).trans ((State.fld_set_apart _ _ _ phase_tail).trans
      (State.fld_set_same _ _ _ 0 tail.2.2.2))
  · rw [State.queue_fld_settled _ _ phase, page _ phase.1]
    exact (State.fld_setBoth_apart _ _ _ en_phase).trans (State.fld_set_same _ _ _ 1 phase.2.2.2)

end Sys2Proof.Machine
end

section
/-! PROOFS. Commands fetched, completions written, and uploads that time out (R399 to R402, R405). -/

namespace Sys2Proof.Machine

open Sys2Proof

/-! Fetching (R400) -/

/-- A queue whose turn it is is one of the four queues of one of the eight seats. -/
theorem State.fetchTurn_bounds {s : State} {seat i : Nat} (h : s.fetchTurn = some (seat, i)) :
    seat < 8 ∧ i < 4 := by
  obtain ⟨k, -, turn⟩ := List.exists_of_findSome?_eq_some h
  obtain ⟨j, found, pair⟩ := Option.map_eq_some_iff.mp turn
  obtain ⟨rfl, rfl⟩ := Prod.mk.inj pair
  refine ⟨Nat.mod_lt _ (by decide), ?_⟩
  unfold State.sqTurn at found
  split at found
  · have member := List.mem_of_find?_eq_some found
    obtain ⟨m, -, rfl⟩ := List.mem_map.mp member
    exact Nat.mod_lt _ (by decide)
  · exact nomatch found

/-- The turn of a seat's queue is noted (R400). -/
def State.turned (s : State) (seat i : Nat) : State :=
  { s with hosts := { s.hosts with lastSeat := seat } }.setSeat seat { s.seat seat with lastSq := i }

theorem State.seat_turned_same (s : State) (seat i : Nat) : (s.turned seat i).seat seat = { s.seat seat with lastSq := i } :=
  State.seat_setSeat_same _ _ _

theorem State.turned_render (s : State) (seat i : Nat) : (s.turned seat i).render = s.render := by
  rw [State.turned, State.setSeat, State.set_render]

theorem State.setSeat_sched (s : State) (n : Nat) (v : SeatState) : (s.setSeat n v).sched = s.sched := by
  rw [State.setSeat, State.set_sched]

theorem State.turned_sched (s : State) (seat i : Nat) : (s.turned seat i).sched = s.sched := by
  rw [State.turned, State.setSeat, State.set_sched]

theorem State.seat_ringStop (s : State) (seat i err q : Nat) : (s.ringStop seat i false err).seat q = s.seat q :=
  congrArg (Map.get ({} : SeatState) q) (State.event_seats _ _ _)

theorem exec_commandFetch {s : State} {seat i : Nat} (h : s.fetchTurn = some (seat, i)) (host : s.isStagedoor seat = false)
    (entry : List Word) (fault : Bool) : exec (.commandFetch entry fault) s = settle
      (if fault then (s.turned seat i).ringStop seat i false 2
       else ((s.turned seat i).set (.seat seat) (Reg.Seat.SQ_HEAD i) ((s.fld (.seat seat) (Reg.Seat.SQ_HEAD i) + 1) %
         s.fld (.seat seat) (Reg.Seat.SQ_SIZE i))).take seat i entry) := by
  have door : (s.turned seat i).isStagedoor seat = false := by
    rw [← host]
    unfold State.isStagedoor
    rw [State.turned, State.setSeat_fld _ _ _ _ _ (by simp [Reg.Seat.BIND_KIND, Reg.Seat.STATUS_IN_FLIGHT])]
    rfl
  refine congrArg settle ?_
  rw [h]
  exact if_neg (Bool.eq_false_iff.mp door)

theorem commandFetch_answers_fault {s : State} {seat i : Nat} (h : s.fetchTurn = some (seat, i))
    (host : s.isStagedoor seat = false) (entry : List Word) : Answers (.commandFetch entry true) s (fun t =>
      (t.seat seat).cmds = (s.seat seat).cmds ∧ t.bit (.seat seat) (Reg.Seat.SQ_EN i) = false ∧
      t.fld (.seat seat) (Reg.Seat.SQ_ERR i) = 2 ∧ (t.fld (.seat seat) Reg.Hdr.EVENTS).testBit 0 = true) := by
  obtain ⟨-, hi⟩ := State.fetchTurn_bounds h
  refine Answers.of_settle ((exec_commandFetch h host entry true).trans (congrArg settle (if_pos rfl))) ⟨?_, ?_⟩
  · rw [State.seat_settled, State.seat_ringStop, State.seat_turned_same]
  · exact State.ringStop_shows _ seat hi (by decide)

/-- The command that an entry of a queue holds (R401). -/
def entryCmd (seat sq tick : Nat) (entry : List Word) : Cmd :=
  let w := entry.getD 0 0#32
  { seat := seat, sq := sq, tag := w.toNat / 65536, opcode := w.toNat % 256, word0 := w
    context := entry.getD 1 0#32, params := (entry.drop 2).take 14, upAt := tick }

/-- A well-formed entry with no UPLOAD of its own enters flight, and the COMMAND job of its seat is ready. -/
theorem State.take_sound {s : State} {r : Render} {q : SeatState} {seat sq : Nat} {entry : List Word} (hr : s.render = r)
    (hq : s.seat seat = q) (good : (entryCmd seat sq r.tick entry).wellFormed = true) (principal : s.isUnderstudy = false)
    (still : (entryCmd seat sq r.tick entry).shortSource = none)
    (new_ : q.cmds.any (·.tag = (entryCmd seat sq r.tick entry).tag) = false) :
    s.take seat sq entry = ((s.setSeat seat { q with cmds := q.cmds ++ [entryCmd seat sq r.tick entry] }).pushReady 2
        { kind := .command, flow := 0x3800 + seat, block := r.block }).dispatch := by
  subst hr hq
  let c := entryCmd seat sq s.render.tick entry
  let t := s.setSeat seat { s.seat seat with cmds := (s.seat seat).cmds ++ [c] }
  have twin : t.isUnderstudy = false := by
    rw [← principal]
    unfold State.isUnderstudy
    rw [State.setSeat_fld _ _ _ _ _ (by simp only [Blk.base, Reg.Twin.ROLE, Reg.Seat.STATUS_IN_FLIGHT]; omega)]
    rfl
  have ill : (!c.wellFormed) = false := by rw [good]; rfl
  have refused : (t.isUnderstudy && !c.forUnderstudy) = false := by rw [twin]; rfl
  have upload : t.takeUpload c = t := by
    unfold State.takeUpload
    rw [still]
  have enters : s.take seat sq entry =
      ((t.takeUpload c).pushReady 2 { kind := .command, flow := 0x3800 + seat, block := t.render.block }).dispatch :=
    (if_neg (Bool.eq_false_iff.mp new_)).trans ((if_neg (Bool.eq_false_iff.mp ill)).trans (if_neg (Bool.eq_false_iff.mp refused)))
  rw [enters, upload]
  rfl

/-- Grants wait for a stalled engine (R377). -/
theorem State.dispatch_none {s : State} (h : s.sched.stalled = []) : s.dispatch = s := by
  unfold State.dispatch
  rw [h]
  rfl

theorem State.stalled_pushReady (s : State) (cls : Nat) (j : Job) : (s.pushReady cls j).sched.stalled = s.sched.stalled := by
  unfold State.pushReady
  split <;> rfl

/-- A new item leaves the pages of the seats alone. -/
theorem State.seat_fld_pushReady (s : State) (cls : Nat) (j : Job) (q : Nat) (f : Fld) :
    (s.pushReady cls j).fld (.seat q) f = s.fld (.seat q) f := by
  have shown (t : State) (g : Fld) (v : Nat) (hg : g.off < 0x1000) : (t.set .ringmaster g v).fld (.seat q) f = t.fld (.seat q) f :=
    t.fld_set_word _ _ _ _ _ (by simp only [Blk.base]; omega)
  unfold State.pushReady State.peak
  split
  · rfl
  · exact (shown _ _ _ (by decide)).trans (shown _ _ _ (by decide))

/-- With no engine stalled the entry waits for its seat's COMMAND job (R377). -/
theorem State.take_waits {s : State} {r : Render} {q : SeatState} {seat sq : Nat} {entry : List Word} (hr : s.render = r)
    (hq : s.seat seat = q) (good : (entryCmd seat sq r.tick entry).wellFormed = true) (principal : s.isUnderstudy = false)
    (still : (entryCmd seat sq r.tick entry).shortSource = none)
    (new_ : q.cmds.any (·.tag = (entryCmd seat sq r.tick entry).tag) = false) (idle : s.sched.stalled = []) :
    s.take seat sq entry = (s.setSeat seat { q with cmds := q.cmds ++ [entryCmd seat sq r.tick entry] }).pushReady 2
      { kind := .command, flow := 0x3800 + seat, block := r.block } := by
  rw [State.take_sound hr hq good principal still new_]
  refine State.dispatch_none ?_
  rw [State.stalled_pushReady, State.setSeat_sched, idle]

/-- The seat and a field of its page once the seat has been replaced and an item is ready. -/
theorem State.replaced_shows (s : State) (seat : Nat) (v : SeatState) (j : Job) {f : Fld} (h : QueueFld f) :
    ((s.setSeat seat v).pushReady 2 j).settled.seat seat = v ∧
      ((s.setSeat seat v).pushReady 2 j).settled.fld (.seat seat) f = s.fld (.seat seat) f := by
  refine ⟨?_, ?_⟩
  · rw [State.seat_settled, State.seat, State.seats_pushReady]
    exact State.seat_setSeat_same _ _ _
  · rw [State.queue_fld_settled _ _ h, State.seat_fld_pushReady, State.seat_fld_setSeat _ _ _ _ h.1 h.2.1]

/-- The twin's role is none of a seat's fields. -/
theorem State.isUnderstudy_seat (s : State) (n : Nat) (f : Fld) (v : Nat) : (s.set (.seat n) f v).isUnderstudy = s.isUnderstudy := by
  unfold State.isUnderstudy
  rw [State.set_twin, State.fld_set_word _ _ _ _ _ _ (by simp only [Blk.base, Reg.Twin.ROLE]; omega)]

theorem State.turned_isUnderstudy (s : State) (seat i : Nat) : (s.turned seat i).isUnderstudy = s.isUnderstudy := by
  rw [State.turned, State.setSeat, State.isUnderstudy_seat]
  rfl

theorem commandFetch_answers_taken {s : State} {seat i : Nat} {entry : List Word} (h : s.fetchTurn = some (seat, i))
    (host : s.isStagedoor seat = false) (good : (entryCmd seat i s.render.tick entry).wellFormed = true)
    (principal : s.isUnderstudy = false) (still : (entryCmd seat i s.render.tick entry).shortSource = none)
    (new_ : (s.seat seat).cmds.any (·.tag = (entryCmd seat i s.render.tick entry).tag) = false) (idle : s.sched.stalled = []) :
    Answers (.commandFetch entry false) s (fun t =>
      (t.seat seat).cmds = (s.seat seat).cmds ++ [entryCmd seat i s.render.tick entry] ∧
      (t.seat seat).done = (s.seat seat).done ∧ (t.seat seat).lastSq = i ∧
      t.fld (.seat seat) (Reg.Seat.SQ_HEAD i) =
        (s.fld (.seat seat) (Reg.Seat.SQ_HEAD i) + 1) % s.fld (.seat seat) (Reg.Seat.SQ_SIZE i) % 256) := by
  obtain ⟨-, hi⟩ := State.fetchTurn_bounds h
  obtain ⟨-, -, -, head, -⟩ := queue_fields hi
  generalize next : (s.fld (.seat seat) (Reg.Seat.SQ_HEAD i) + 1) % s.fld (.seat seat) (Reg.Seat.SQ_SIZE i) = n
  have fetched := exec_commandFetch h host entry false
  rw [if_neg Bool.false_ne_true, next] at fetched
  have moved := (s.turned seat i).fld_set_below (.seat seat) n (f := Reg.Seat.SQ_HEAD i) head.2.2.2 rfl
  have render := ((s.turned seat i).set_render (.seat seat) (Reg.Seat.SQ_HEAD i) n).trans (s.turned_render seat i)
  have sched := ((s.turned seat i).set_sched (.seat seat) (Reg.Seat.SQ_HEAD i) n).trans (s.turned_sched seat i)
  have role := ((s.turned seat i).isUnderstudy_seat seat (Reg.Seat.SQ_HEAD i) n).trans (s.turned_isUnderstudy seat i)
  have seat_ := ((s.turned seat i).seat_set (.seat seat) (Reg.Seat.SQ_HEAD i) n seat).trans (s.seat_turned_same seat i)
  generalize (s.turned seat i).set (.seat seat) (Reg.Seat.SQ_HEAD i) n = u at *
  rw [State.take_waits (seat := seat) (sq := i) (entry := entry) render seat_ good (role.trans principal) still new_
    (sched ▸ idle)] at fetched
  obtain ⟨there, page⟩ := u.replaced_shows seat { s.seat seat with
    lastSq := i, cmds := (s.seat seat).cmds ++ [entryCmd seat i s.render.tick entry] }
    { kind := .command, flow := 0x3800 + seat, block := s.render.block } head
  refine Answers.of_settle fetched ?_
  rw [there, page]
  exact ⟨rfl, rfl, rfl, moved⟩

/-! Completions (R402) -/

theorem exec_completionWrite {s : State} {seat i : Nat} {d : Completion} (hs : seat < s.model.seats)
    (oldest : (s.seat seat).done.find? (·.cq = i) = some d) (there : s.hostLost seat = false) (awake : s.asleep seat = false)
    (host : s.isStagedoor seat = false) (up : s.isAttached seat = true) (on : s.bit (.seat seat) (Reg.Seat.CQ_EN i) = true) :
    exec (.completionWrite seat i false) s = settle (
      if s.cqFull seat i then s.event (.seat seat) 1
      else
        let tail := s.fld (.seat seat) (Reg.Seat.CQ_TAIL i)
        let phase := s.bit (.seat seat) (Reg.Seat.CQ_PHASE i)
        let base := s.fld64 (.seat seat) (Reg.Seat.CQ_BASE_LO i) (Reg.Seat.CQ_BASE_HI i)
        let next := (tail + 1) % s.fld (.seat seat) (Reg.Seat.CQ_SIZE i)
        let t := (s.hostWriteBytes seat (base + 16 * tail) ((d.words phase).flatMap bytesOf)).set (.seat seat)
          (Reg.Seat.CQ_TAIL i) next
        (if next = 0 then t.setBit (.seat seat) (Reg.Seat.CQ_PHASE i) !phase else t).written seat d) := by
  have away : (decide (s.model.seats ≤ seat) || s.hostLost seat || s.asleep seat) = false := by
    rw [there, awake, decide_eq_false (Nat.not_le.mpr hs)]
    rfl
  have down : (!s.isAttached seat || !s.bit (.seat seat) (Reg.Seat.CQ_EN i)) = false := by
    rw [up, on]
    rfl
  refine congrArg settle ?_
  rw [oldest]
  refine (if_neg (Bool.eq_false_iff.mp away)).trans ((if_neg (Bool.eq_false_iff.mp host)).trans
    ((if_neg (Bool.eq_false_iff.mp down)).trans ?_))
  rfl

theorem completionWrite_answers_full {s : State} {seat i : Nat} {d : Completion} (hs : seat < s.model.seats)
    (oldest : (s.seat seat).done.find? (·.cq = i) = some d) (there : s.hostLost seat = false) (awake : s.asleep seat = false)
    (host : s.isStagedoor seat = false) (up : s.isAttached seat = true) (on : s.bit (.seat seat) (Reg.Seat.CQ_EN i) = true)
    (full : s.cqFull seat i = true) : Answers (.completionWrite seat i false) s (fun t => t.seat seat = s.seat seat ∧
      t.hostMem = s.hostMem ∧ (t.fld (.seat seat) Reg.Hdr.EVENTS).testBit 1 = true) := by
  refine Answers.of_settle ((exec_completionWrite hs oldest there awake host up on).trans (congrArg settle (if_pos full)))
    ⟨?_, ?_, ?_⟩
  · rw [State.seat_settled]
    exact congrArg (Map.get ({} : SeatState) seat) (State.event_seats _ _ _)
  · exact (State.settled_hostMem _).trans (State.event_hostMem _ _ _)
  · rw [State.seat_fld_settled _ _ (by decide) (by decide)]
    exact State.event_recorded _ _ (by decide)

/-- Host memory with bytes written from an address on. -/
def putBytes (base : Nat) (bs : List Byte) (m : Map Byte) : Map Byte :=
  bs.zipIdx.foldl (fun (m : Map Byte) (e : Byte × Nat) => m.put 0#8 (base + e.2) e.1) m

theorem State.hostMem_hostWriteBytes (s : State) (seat addr : Nat) (bs : List Byte) :
    (s.hostWriteBytes seat addr bs).hostMem = putBytes (2 ^ 64 * seat + addr) bs s.hostMem := rfl

/-- A byte written reads back. -/
theorem get_putBytes (base : Nat) (bs : List Byte) (m : Map Byte) (k : Nat) (h : k < bs.length) :
    Map.get 0#8 (base + k) (putBytes base bs m) = bs.getD k 0#8 := by
  induction bs using List.reverseRecOn generalizing m with
  | nil => exact absurd h (Nat.not_lt_zero k)
  | append_singleton bs b ih =>
    have last : [b].zipIdx bs.length = [(b, bs.length)] := rfl
    unfold putBytes
    rw [List.zipIdx_append, Nat.zero_add, last, List.foldl_append, List.foldl_cons, List.foldl_nil, Map.get_put]
    by_cases at_ : k = bs.length
    · subst at_
      simp
    · have before : k < bs.length := by
        rw [List.length_append, List.length_singleton] at h
        omega
      rw [if_neg (fun e => at_ (Nat.add_left_cancel e)), List.getD_append _ _ _ _ before]
      exact ih m before

/-- A completion holds 16 bytes. -/
theorem Completion.bytes_length (d : Completion) (phase : Bool) : ((d.words phase).flatMap bytesOf).length = 16 := rfl

/-- A completion has been written, with no session to end: it waits no more, and a final one ends its command. -/
theorem State.written_eq {s : State} {seat : Nat} {d : Completion} (stays : (s.seat seat).sd.endAfter = none) :
    s.written seat d = s.setSeat seat { s.seat seat with
      done := (s.seat seat).done.erase d
      cmds := if d.interim then (s.seat seat).cmds else (s.seat seat).cmds.filter (fun c => c.tag ≠ d.tag || c.bad ≠ d.dup) } := by
  refine if_neg ?_
  rw [State.seat_setSeat_same]
  simp [stays]

/-- The completion's bytes stand in host memory, the tail and the phase of its queue have moved on. -/
def State.completed (s : State) (seat i addr next : Nat) (d : Completion) (phase : Bool) : State :=
  let t := (s.hostWriteBytes seat addr ((d.words phase).flatMap bytesOf)).set (.seat seat) (Reg.Seat.CQ_TAIL i) next
  (if next = 0 then t.setBit (.seat seat) (Reg.Seat.CQ_PHASE i) !phase else t).written seat d

theorem State.completed_shows {s : State} {seat i : Nat} (hi : i < 4) (addr next : Nat) (d : Completion) (phase : Bool)
    (stays : (s.seat seat).sd.endAfter = none) : let t := (s.completed seat i addr next d phase).settled
    (t.seat seat).done = (s.seat seat).done.erase d ∧
      (d.interim = false → ∀ c ∈ (t.seat seat).cmds, ¬ (c.tag = d.tag ∧ c.bad = d.dup)) ∧
      t.fld (.seat seat) (Reg.Seat.CQ_TAIL i) = next % 256 ∧
      ∀ k, k < 16 → Map.get 0#8 (2 ^ 64 * seat + addr + k) t.hostMem = ((d.words phase).flatMap bytesOf).getD k 0#8 := by
  let bytes := (d.words phase).flatMap bytesOf
  let t := (s.hostWriteBytes seat addr bytes).set (.seat seat) (Reg.Seat.CQ_TAIL i) next
  let u := if next = 0 then t.setBit (.seat seat) (Reg.Seat.CQ_PHASE i) !phase else t
  obtain ⟨-, -, -, -, -, -, tail, -⟩ := queue_fields hi
  have aside : Apart (Reg.Seat.CQ_PHASE i) (Reg.Seat.CQ_TAIL i) :=
    (show ∀ i < 4, Apart (Reg.Seat.CQ_PHASE i) (Reg.Seat.CQ_TAIL i) by decide) i hi
  have seats : u.seat seat = s.seat seat :=
    congrArg (Map.get ({} : SeatState) seat) ((when_keeps (s := t) State.seats (State.set_seats _ _ _ _)).trans (State.set_seats _ _ _ _))
  have mem : u.hostMem = putBytes (2 ^ 64 * seat + addr) bytes s.hostMem :=
    (when_keeps (s := t) State.hostMem (State.setBit_hostMem _ _ _ _)).trans ((State.set_hostMem _ _ _ _).trans
      (s.hostMem_hostWriteBytes seat addr bytes))
  have moved : u.fld (.seat seat) (Reg.Seat.CQ_TAIL i) = next % 256 :=
    (when_keeps (s := t) (State.fld · (.seat seat) (Reg.Seat.CQ_TAIL i)) (State.fld_set_apart t _ _ aside)).trans
      (State.fld_set_below _ _ next tail.2.2.2 rfl)
  have eq : s.completed seat i addr next d phase = _ := State.written_eq (s := u) (by rw [seats]; exact stays)
  rw [seats] at eq
  rw [eq]
  dsimp only
  rw [State.seat_settled, State.seat_setSeat_same, State.queue_fld_settled _ _ tail,
    State.seat_fld_setSeat _ _ _ _ tail.1 tail.2.1, State.settled_hostMem]
  refine ⟨rfl, fun final c hc both => ?_, moved, fun k hk => ?_⟩
  · rw [final] at hc
    obtain ⟨-, kept⟩ := List.mem_filter.mp hc
    simp [both.1, both.2] at kept
  · exact (congrArg (Map.get 0#8 (2 ^ 64 * seat + addr + k)) mem).trans (get_putBytes _ _ _ k hk)

theorem completionWrite_answers_written {s : State} {seat i : Nat} {d : Completion} (hs : seat < s.model.seats) (hi : i < 4)
    (oldest : (s.seat seat).done.find? (·.cq = i) = some d) (there : s.hostLost seat = false) (awake : s.asleep seat = false)
    (host : s.isStagedoor seat = false) (up : s.isAttached seat = true) (on : s.bit (.seat seat) (Reg.Seat.CQ_EN i) = true)
    (room : s.cqFull seat i = false) (stays : (s.seat seat).sd.endAfter = none) :
    let tail := s.fld (.seat seat) (Reg.Seat.CQ_TAIL i)
    let addr := s.fld64 (.seat seat) (Reg.Seat.CQ_BASE_LO i) (Reg.Seat.CQ_BASE_HI i) + 16 * tail
    Answers (.completionWrite seat i false) s (fun t =>
      (t.seat seat).done = (s.seat seat).done.erase d ∧
      (d.interim = false → ∀ c ∈ (t.seat seat).cmds, ¬ (c.tag = d.tag ∧ c.bad = d.dup)) ∧
      t.fld (.seat seat) (Reg.Seat.CQ_TAIL i) = (tail + 1) % s.fld (.seat seat) (Reg.Seat.CQ_SIZE i) % 256 ∧
      ∀ k, k < 16 → Map.get 0#8 (2 ^ 64 * seat + addr + k) t.hostMem =
        ((d.words (s.bit (.seat seat) (Reg.Seat.CQ_PHASE i))).flatMap bytesOf).getD k 0#8) := by
  intro tail addr
  exact Answers.of_settle ((exec_completionWrite hs oldest there awake host up on).trans
    (congrArg settle (if_neg (Bool.eq_false_iff.mp room)))) (State.completed_shows hi addr _ d _ stays)

/-! Uploads (R405) -/

theorem uploadTimeout_answers {s : State} {c : Cmd} {k : Nat} (h : s.cmdOf c.seat c.tag = some c) (open_ : c.final = false)
    (alone : c.waiters = []) (tag : c.tag < bootTag) (h8 : c.seat < 8) (runs : c.state ≠ .suspended) (source : c.sourceAt = some k)
    (upload : c.n k % 4 = 2) (none_ : s.sourceBytes c k [] = none) (up : s.isAttached c.seat = true)
    (late : c.upAt + 10 * s.fs ≤ s.render.tick) (first : c.steps = 0) :
    Answers (.uploadTimeout c.seat c.tag) s (fun t => Completes s t c Status.timeout 0 0) := by
  have ends : exec (.uploadTimeout c.seat c.tag) s = settle (s.finish c.seat c.tag Status.timeout) := by
    refine congrArg settle ?_
    rw [h]
    dsimp only
    rw [source]
    refine if_neg ?_
    rw [open_, none_, up, first]
    simp only [Bool.false_eq_true, runs, upload, Option.isSome_none, Bool.not_true, Nat.not_lt.mpr late, lt_irrefl, and_false,
      ne_eq, not_true_eq_false, or_self, not_false_eq_true]
  exact .of_settle ends (completes_in_flight h open_ alone tag h8 rfl rfl _ _ _).1

/-- Settles O52: queues are enabled and rung, entries fetched, completions written, and an UPLOAD without bytes times out. -/
theorem seatQueues : Obligations.SeatQueues := by
  refine ⟨?_, ?_, ?_, ?_⟩
  · intro s seat i hs _ hi b staged size
    refine ⟨fun v => ⟨fun within => sqTail_answers_kept hs hi within, fun on beyond => sqTail_answers_stopped hs hi on beyond,
      cqHead_answers v hs hi⟩, sqEnable_answers_off hs hi, fun off base => ⟨fun two most => ?_, fun bad => ?_⟩, ?_⟩
    · exact sqEnable_answers_on hs hi off base two most
    · exact sqEnable_answers_bad hs hi off bad
    · exact fun off base two most => cqEnable_answers hs hi off base two most
  · intro s seat i entry turn host b w c
    exact ⟨fun good principal still new_ idle => commandFetch_answers_taken turn host good principal still new_ idle,
      commandFetch_answers_fault turn host entry⟩
  · intro s seat i d hs _ hi oldest there awake host up on b tail
    exact ⟨fun full => completionWrite_answers_full hs oldest there awake host up on full,
      fun room stays => completionWrite_answers_written hs hi oldest there awake host up on room stays⟩
  · intro s c k h open_ alone tag h8 runs source upload none_ up late first
    exact uploadTimeout_answers h open_ alone tag h8 runs source upload none_ up late first

end Sys2Proof.Machine
end

section
/-! PROOFS. The twin's states and its egress gate, and TWIN_CONTROL (R481, R501 to R505). -/

namespace Sys2Proof

/-- A read finds the default or an entry of the store. -/
theorem Map.mem_get {α : Type} (d : α) (k : Nat) (m : Map α) : Map.get d k m = d ∨ (k, Map.get d k m) ∈ m := by
  induction m with
  | nil => exact .inl rfl
  | cons e m ih =>
    rw [Map.get_cons]
    split
    · exact .inl rfl
    · split
      · next at_ => exact .inr (at_ ▸ List.mem_cons_self)
      · exact ih.imp_right (List.mem_cons_of_mem _)

/-- An entry of a written store is the one written or stood before. -/
theorem Map.mem_of_put {α : Type} [DecidableEq α] {d : α} {k : Nat} {v : α} {m : Map α} {e : Nat × α}
    (h : e ∈ m.put d k v) : e = (k, v) ∨ e ∈ m := by
  induction m with
  | nil =>
    unfold Map.put at h
    split at h
    · exact .inr h
    · exact .inl (List.mem_singleton.mp h)
  | cons x m ih =>
    unfold Map.put at h
    split at h
    · split at h
      · exact .inr h
      · exact List.mem_cons.mp h
    · split at h
      · split at h
        · exact .inr (List.mem_cons_of_mem _ ((List.dropWhile_suffix _).mem h))
        · exact (List.mem_cons.mp h).imp_right (List.mem_cons_of_mem _)
      · rcases List.mem_cons.mp h with rfl | h
        · exact .inr List.mem_cons_self
        · exact (ih h).imp_right (List.mem_cons_of_mem _)

end Sys2Proof

namespace Sys2Proof.Machine

open Sys2Proof

/-! What entering a state changes (R481, R501) -/

theorem State.egGate_keeps {β : Type} (view : State → β) (egress : ∀ t n f v, view (State.set t (.egress n) f v) = view t)
    (s : State) : view s.egGate = view s := by
  refine foldl_keeps view (fun t n _ => ?_) s
  refine ite_keeps view rfl (ite_keeps view (egress _ _ _ _) (ite_keeps view rfl ?_))
  rw [State.stick_eq_set _ _ rfl, egress, egress]

/-- What closing the egress may change: its flag, the pins, and the egress streams' words. -/
theorem State.gateEgress_keeps {β : Type} (view : State → β) (egress : ∀ t n f v, view (State.set t (.egress n) f v) = view t)
    (pins : ∀ (t : State) a b, view { t with tdmTx := a, aesTx := b } = view t)
    (claim : ∀ t v, view (State.set t .twin Reg.Twin.CLAIM_EGRESS_OPEN v) = view t) (s : State) : view s.gateEgress = view s :=
  when_keeps view ((pins _ _ _).trans ((State.egGate_keeps view egress _).trans (claim _ _)))

theorem State.enter_keeps {β : Type} (view : State → β) (egress : ∀ t n f v, view (State.set t (.egress n) f v) = view t)
    (pins : ∀ (t : State) a b, view { t with tdmTx := a, aesTx := b } = view t)
    (words : ∀ t f v, f ∈ [Reg.Twin.CLAIM_EGRESS_OPEN, Reg.Twin.STATE, Reg.Twin.ROLE, Reg.Twin.CLAIM_NOW] →
      view (State.set t .twin f v) = view t) (s : State) (c : Nat) : view (s.enter c) = view s :=
  calc view (s.enter c)
    _ = view _ := State.egGate_keeps view egress _
    _ = view _ := State.gateEgress_keeps view egress pins (fun t v => words t _ v (by simp)) _
    _ = view _ := words _ _ _ (by simp)
    _ = view _ := words _ _ _ (by simp)
    _ = view s := words _ _ _ (by simp)

theorem State.enter_twin (s : State) (c : Nat) : (s.enter c).twin = s.twin :=
  State.enter_keeps State.twin (fun _ _ _ _ => rfl) (fun _ _ _ => rfl) (fun _ _ _ _ => rfl) s c

theorem State.enter_seats (s : State) (c : Nat) : (s.enter c).seats = s.seats :=
  State.enter_keeps State.seats (fun _ _ _ _ => rfl) (fun _ _ _ => rfl) (fun _ _ _ _ => rfl) s c

theorem State.tw_egress (t : State) (n : Nat) (f : Fld) (v : Nat) : (t.set (.egress n) f v).tw = t.tw :=
  State.fld_set_word _ _ _ _ _ _ (by simp only [Blk.base, Reg.Twin.STATE]; omega)

theorem State.tw_enter (s : State) {c : Nat} (hc : c < 16) : (s.enter c).tw = c :=
  calc (s.enter c).tw
    _ = State.tw _ := State.egGate_keeps State.tw State.tw_egress _
    _ = State.tw _ := State.gateEgress_keeps State.tw State.tw_egress (fun _ _ _ => rfl)
        (fun t v => t.fld_set_bits _ _ _ _ _ (by decide)) _
    _ = State.tw _ := State.fld_set_word _ _ _ _ _ _ (by decide)
    _ = State.tw _ := State.fld_set_bits _ _ _ _ _ _ (by decide)
    _ = c := (State.fld_set_same _ _ _ _ ⟨by decide, by decide⟩).trans (Nat.mod_eq_of_lt hc)

theorem State.toPeer_twin (s : State) (f : PeerFrame) : ∃ l, s.toPeer f = { s with twin := { s.twin with out := l } } := by
  unfold State.toPeer
  split
  · exact ⟨_, rfl⟩
  · exact ⟨s.twin.out, rfl⟩

/-! What the end of a command leaves of the twin's state -/

theorem State.tw_settled (s : State) : s.settled.tw = s.tw := by
  unfold State.tw
  rw [State.settled_fld_engines _ _ _ (by decide)]
  unfold State.showEngines State.setBit
  rw [State.fld_set_bits _ _ _ _ _ _ (by decide), State.fld_set_word _ _ _ _ _ _ (by decide),
    State.fld_set_word _ _ _ _ _ _ (by decide), State.fld_set_word _ _ _ _ _ _ (by decide)]

theorem State.tw_ringmaster (s : State) {f : Fld} (v : Nat) (h : f.off < 0x1000) : (s.set .ringmaster f v).tw = s.tw :=
  State.fld_set_word _ _ _ _ _ _ (by simp only [Blk.base, Reg.Twin.STATE]; omega)

theorem State.tw_grant (s : State) (e w : Nat) (r : Ready) : (s.grant e w r).tw = s.tw := by
  unfold State.grant
  extract_lets listed _ sched granted runs waits
  have hRuns : runs.tw = s.tw := by
    refine ite_keeps State.tw (s := s) ?_ ?_ <;> exact State.tw_ringmaster _ _ (by decide)
  exact (State.tw_ringmaster _ _ (by decide)).trans
    ((when_keeps State.tw (State.tw_ringmaster _ _ (by decide))).trans hRuns)

theorem State.tw_dispatch (s : State) : s.dispatch.tw = s.tw := by
  unfold State.dispatch
  refine foldl_keeps State.tw (fun t e _ => ?_) s
  split
  · rfl
  · split
    · rfl
    · exact State.tw_grant _ _ _ _

theorem CommandFrame.twin {s t : State} (h : CommandFrame s t) : t.twin = s.twin :=
  h.keeps State.twin (fun _ _ _ _ _ => rfl)

/-! TWIN_CONTROL of the house seat (R502) -/

section
variable {s : State} {c : Cmd} (h : Issued s c 0x78) (house : c.seat = 0) {action : Nat} (act : c.n 0 % 16 = action)
include h act

theorem State.twinControl_acts (f : Cmd → State → State) :
    s.twinControl c.seat c.tag action f = s.command c.seat c.tag 0x78 (houseOnly f) := by
  obtain ⟨found, -⟩ := h
  unfold State.twinControl
  rw [found]
  exact if_pos act

include house

/-- A TWIN_CONTROL that is refused changes nothing of the twin. -/
theorem twinControl_refused {i : Instr} {f : Cmd → State → State} {st : Nat}
    (hi : exec i s = settle (s.twinControl c.seat c.tag action f))
    (hf : f { c with started := true } (s.begun c) = (s.begun c).finish c.seat c.tag st) :
    Answers i s (fun t => Completes s t c st 0 0 ∧ t.twin = s.twin) :=
  answers_ended h (hi.trans (congrArg settle (State.twinControl_acts h act f)))
    ((houseOnly_house (c := { c with started := true }) _ house).trans hf) rfl rfl
    fun _ frame ends => ⟨ends, ((State.begun_frame h).trans frame).twin⟩

/-- A TWIN_CONTROL that waits leaves its seat's completions as they are. -/
theorem twinControl_waits {i : Instr} {f : Cmd → State → State} {u : State} {P : State → Prop}
    (hi : exec i s = settle (s.twinControl c.seat c.tag action f))
    (hf : f { c with started := true } (s.begun c) = u) (seats : u.seats = (s.begun c).seats)
    (hP : ∀ t : State, t.tw = u.tw → t.twin = u.twin → (t.seat c.seat).done = (s.seat c.seat).done → P t) : Answers i s P := by
  refine answers_command h (hi.trans (congrArg settle (State.twinControl_acts h act f))) ?_
  rw [houseOnly_house (c := { c with started := true }) _ house, hf]
  refine hP _ ((State.tw_settled _).trans (State.tw_dispatch _)) (CommandFrame.after u).twin ?_
  have same : u.seat c.seat = (s.begun c).seat c.seat := by unfold State.seat; rw [seats]
  rw [State.seat_settled, State.done_dispatch, same, State.begun_done]

end

/-! JOIN (R502, R503) -/

/-- The state in which a JOIN has been noted. -/
def State.joining (s : State) (c : Cmd) : State :=
  { s.begun c with twin := { s.twin with join := some (some (c.seat, c.tag), s.render.tick) } }

/-- The beginning of a command is no write outside the pages of the seats. -/
theorem State.begun_fld (s : State) {c : Cmd} (h8 : c.seat < 8) (b : Blk) (f : Fld)
    (h : b.base + f.off < 0x10000 ∨ 0x18000 ≤ b.base + f.off) : (s.begun c).fld b f = s.fld b f :=
  State.setSeat_fld _ _ _ _ _ (by simp only [Blk.base, Reg.Seat.STATUS_IN_FLIGHT] at h ⊢; omega)

theorem State.begun_tw (s : State) {c : Cmd} (h8 : c.seat < 8) : (s.begun c).tw = s.tw :=
  s.begun_fld h8 _ _ (by decide)

theorem State.joining_fld (s : State) {c : Cmd} (h8 : c.seat < 8) (b : Blk) (f : Fld)
    (h : b.base + f.off < 0x10000 ∨ 0x18000 ≤ b.base + f.off) : (s.joining c).fld b f = s.fld b f := s.begun_fld h8 b f h

theorem State.joining_joinFault (s : State) {c : Cmd} (h8 : c.seat < 8) : (s.joining c).joinFault = s.joinFault := by
  have running : (s.joining c).running = s.running := by
    unfold State.running
    rw [s.joining_fld h8 _ _ (by decide)]
  have mode : (s.joining c).twin.mode = s.twin.mode := rfl
  have peer : (s.joining c).twin.peerMode = s.twin.peerMode ∧ (s.joining c).twin.peerRate = s.twin.peerRate ∧
    (s.joining c).twin.peerBlock = s.twin.peerBlock := ⟨rfl, rfl, rfl⟩
  unfold State.joinFault
  rw [running, mode, peer.1, peer.2.1, peer.2.2]
  simp (disch := decide) only [s.joining_fld h8]

theorem State.joining_peerWaits (s : State) {c : Cmd} (h8 : c.seat < 8) : (s.joining c).peerWaits = s.peerWaits := by
  have state : (s.joining c).twin.peerState = s.twin.peerState := rfl
  unfold State.peerWaits State.bit
  rw [state]
  simp (disch := decide) only [s.joining_fld h8]

/-- A start in LOCKSTEP enters JOIN_PRI, has a snapshot frozen, and sends to the peer. -/
theorem State.joinStart_shows {s : State} (fits : s.joinFault = none) (lockstep : s.twin.mode = 2) :
    ∃ l, s.joinStart = { s.enter Tw.joinPri with twin := { (s.enter Tw.joinPri).twin with out := l, freeze := true } } := by
  obtain ⟨l, hl⟩ := (s.enter Tw.joinPri).toPeer_twin .join
  have mode : (s.enter Tw.joinPri).twin.mode = 2 := (congrArg TwinState.mode (s.enter_twin _)).trans lockstep
  unfold State.joinStart
  rw [fits]
  dsimp only
  rw [hl]
  generalize s.enter Tw.joinPri = e at *
  obtain ⟨m, hm⟩ := ({ e with twin := { e.twin with out := l } } : State).toPeer_twin (.contentDone s.monitor.slots)
  rw [hm]
  exact ⟨m, if_pos mode⟩

theorem exec_join {s : State} {c : Cmd} (h : Issued s c 0x78) (act : c.n 0 % 16 = 1) : exec (.join c.seat c.tag) s =
    settle (s.twinControl c.seat c.tag 1 (fun c s =>
      if undState s.tw then s.finish c.seat c.tag Status.notPrincipal
      else if s.tw ≠ Tw.alone || s.twin.join.isSome then s.finish c.seat c.tag Status.busy
      else { s with twin := { s.twin with join := some (some (c.seat, c.tag), s.render.tick) } }.joinSeen)) := by
  obtain ⟨found, -⟩ := h
  refine congrArg settle ?_
  rw [found]
  exact if_neg (by simp [act])

section
variable {s : State} {c : Cmd} (h : Issued s c 0x78) (house : c.seat = 0) (act : c.n 0 % 16 = 1)
include h house act

/-- A JOIN of a lone unit is noted, and starts where a peer waits. -/
theorem join_noted {P : State → Prop} {u : State} (alone : s.tw = Tw.alone) (free : s.twin.join = none)
    (hu : (s.joining c).joinSeen = u) (seats : u.seats = (s.begun c).seats)
    (hP : ∀ t : State, t.tw = u.tw → t.twin = u.twin → (t.seat c.seat).done = (s.seat c.seat).done → P t) :
    Answers (.join c.seat c.tag) s P := by
  have h8 : c.seat < 8 := house ▸ by decide
  have hTw : (s.begun c).tw = Tw.alone := (s.begun_tw h8).trans alone
  have principal : undState (s.begun c).tw = false := (congrArg undState hTw).trans (by decide)
  have may : ¬ ((decide ((s.begun c).tw ≠ Tw.alone) || (s.begun c).twin.join.isSome) = true) := by
    have hJoin : (s.begun c).twin.join = none := free
    simp [hTw, hJoin]
  exact twinControl_waits h house act (exec_join h act)
    ((if_neg (Bool.eq_false_iff.mp principal)).trans ((if_neg may).trans hu)) seats hP

theorem join_answers_starts (alone : s.tw = Tw.alone) (free : s.twin.join = none) (peer : s.peerWaits = true)
    (fits : s.joinFault = none) (lockstep : s.twin.mode = 2) :
    Answers (.join c.seat c.tag) s (fun t => t.tw = Tw.joinPri ∧ t.twin.freeze = true ∧
      (t.seat c.seat).done = (s.seat c.seat).done ∧ t.twin.join = some (some (c.seat, c.tag), s.render.tick)) := by
  have h8 : c.seat < 8 := house ▸ by decide
  have hTw : (s.joining c).tw = Tw.alone := (s.joining_fld h8 _ _ (by decide)).trans alone
  have seen : (decide ((s.joining c).tw = Tw.alone) && (s.joining c).peerWaits) = true := by
    rw [hTw, s.joining_peerWaits h8, peer]
    rfl
  obtain ⟨l, ships⟩ := (s.joining c).joinStart_shows ((s.joining_joinFault h8).trans fits) lockstep
  have hl := (s.joining c).enter_twin Tw.joinPri
  have hs := (s.joining c).enter_seats Tw.joinPri
  have he := (s.joining c).tw_enter (c := Tw.joinPri) (by decide)
  have starts : (s.joining c).joinSeen = (s.joining c).joinStart := if_pos seen
  rw [ships] at starts
  generalize (s.joining c).enter Tw.joinPri = e at *
  refine join_noted h house act alone free starts hs (fun t htw htwin done => ⟨htw.trans he, ?_, done, ?_⟩) <;> rw [htwin]
  exact (congrArg TwinState.join hl)

theorem join_answers_waits (alone : s.tw = Tw.alone) (free : s.twin.join = none) (peer : s.peerWaits = false) :
    Answers (.join c.seat c.tag) s (fun t =>
      t.twin = { s.twin with join := some (some (c.seat, c.tag), s.render.tick) } ∧ t.tw = s.tw ∧
        (t.seat c.seat).done = (s.seat c.seat).done) := by
  refine join_noted h house act alone free (u := s.joining c) (if_neg ?_) rfl
    (fun t htw htwin done => ⟨htwin, htw.trans (s.joining_fld (house ▸ by decide) _ _ (by decide)), done⟩)
  rw [s.joining_peerWaits (house ▸ by decide), peer, Bool.and_false]
  exact Bool.false_ne_true

theorem join_answers_understudy (und : undState s.tw = true) :
    Answers (.join c.seat c.tag) s (fun t => Completes s t c Status.notPrincipal 0 0) :=
  (twinControl_refused h house act (exec_join h act)
    (if_pos ((congrArg undState (s.begun_tw (house ▸ by decide))).trans und))).imp fun _ ht => ht.1

theorem join_answers_busy (und : undState s.tw = false) (busy : s.tw ≠ Tw.alone ∨ s.twin.join ≠ none) :
    Answers (.join c.seat c.tag) s (fun t => Completes s t c Status.busy 0 0 ∧ t.twin = s.twin) := by
  have hTw : (s.begun c).tw = s.tw := s.begun_tw (house ▸ by decide)
  have taken : (decide (s.tw ≠ Tw.alone) || s.twin.join.isSome) = true := by
    simpa [Option.isSome_iff_ne_none] using busy
  rw [← hTw] at und taken
  exact twinControl_refused h house act (exec_join h act) ((if_neg (Bool.eq_false_iff.mp und)).trans (if_pos taken))

end

/-! DETACH and HANDOVER (R502, R504, R505) -/

theorem State.toPeer_tw (s : State) (f : PeerFrame) : (s.toPeer f).tw = s.tw := by
  obtain ⟨l, hl⟩ := s.toPeer_twin f
  rw [hl]
  rfl

theorem State.toPeer_seats (s : State) (f : PeerFrame) : (s.toPeer f).seats = s.seats := by
  obtain ⟨l, hl⟩ := s.toPeer_twin f
  rw [hl]

/-- What is noted of a command before a frame is sent to the peer stands after it. -/
theorem State.toPeer_noted {β : Type} (view : TwinState → β) (out : ∀ v l, view { v with out := l } = view v) (s : State)
    (f : PeerFrame) : view (s.toPeer f).twin = view s.twin := by
  obtain ⟨l, hl⟩ := s.toPeer_twin f
  rw [hl]
  exact out _ _

theorem State.resyncEnds_none {s : State} (hr : s.twin.resync = none) (st : Nat) : s.resyncEnds st = s := by
  unfold State.resyncEnds
  rw [hr]

/-- With no forwarded command in flight there is none to end. -/
theorem State.endForwarded_none {s : State} (hf : ∀ q ∈ s.seats, ∀ d ∈ q.2.cmds, d.peer = none) : s.endForwarded = s := by
  have empty : s.seats.flatMap (fun (e : Nat × SeatState) => e.2.cmds.filter (fun c => c.peer.isSome && c.opcode = 0x20)) = [] := by
    refine List.flatMap_eq_nil_iff.mpr (fun q hq => List.filter_eq_nil_iff.mpr (fun d hd => ?_))
    simp [hf q hq d hd]
  unfold State.endForwarded
  rw [empty]
  rfl

/-- A takeover from a joined state. -/
theorem State.takeOver_joined {s : State} (free : s.twin.resync = none) (peers : ∀ q ∈ s.seats, ∀ d ∈ q.2.cmds, d.peer = none)
    (warm : (decide (s.tw = Tw.verify) || decide (s.tw = Tw.lockUnd)) = true) : s.takeOver =
      ({ s with twin := { s.twin with cold := false, restored := false, handover := none, won := false } } : State).enter
        Tw.taking := by
  unfold State.takeOver
  rw [State.resyncEnds_none free, State.endForwarded_none peers, warm]
  rfl

/-- No command in flight has been forwarded by the peer, nor is it where one of them begins. -/
theorem State.begun_peers {s : State} {c : Cmd} {opcode : Nat} (h : Issued s c opcode)
    (hf : ∀ q ∈ s.seats, ∀ d ∈ q.2.cmds, d.peer = none) : ∀ q ∈ (s.begun c).seats, ∀ d ∈ q.2.cmds, d.peer = none := by
  obtain ⟨found, -⟩ := h
  have cmds : ∀ d ∈ (s.seat c.seat).cmds, d.peer = none := by
    rcases Map.mem_get ({} : SeatState) c.seat s.seats with empty | there
    · intro d hd
      unfold State.seat at hd
      rw [empty] at hd
      exact absurd hd List.not_mem_nil
    · exact hf _ there
  have own : c.peer = none := cmds c (List.mem_of_find?_eq_some found)
  intro q hq d hd
  rcases Map.mem_of_put hq with rfl | old
  · obtain ⟨x, hx, rfl⟩ := List.mem_map.mp hd
    split
    · exact own
    · exact cmds x hx
  · exact hf q old d hd

section
variable {s : State} {c : Cmd} (h : Issued s c 0x78) (house : c.seat = 0)
include h house

theorem detach_answers_waits (act : c.n 0 % 16 = 2) (joined : s.attached = true) :
    Answers (.detach c.seat c.tag) s (fun t => t.twin.detach = some (some (c.seat, c.tag)) ∧ t.tw = s.tw ∧
      (t.seat c.seat).done = (s.seat c.seat).done) := by
  have hTw := s.begun_tw (c := c) (house ▸ by decide)
  have hj : (s.begun c).attached = true := (congrArg _ hTw).trans joined
  refine twinControl_waits h house act rfl (if_neg ?_) (State.toPeer_seats _ _) (fun t htw htwin done => ⟨?_, ?_, done⟩)
  · rw [hj]
    exact Bool.false_ne_true
  · rw [htwin]
    exact State.toPeer_noted TwinState.detach (fun _ _ => rfl) _ _
  · exact htw.trans ((State.toPeer_tw _ _).trans hTw)

theorem detach_answers_busy (act : c.n 0 % 16 = 2) (lone : s.attached = false) :
    Answers (.detach c.seat c.tag) s (fun t => Completes s t c Status.busy 0 0 ∧ t.twin = s.twin) := by
  have hTw := s.begun_tw (c := c) (house ▸ by decide)
  have hj : (s.begun c).attached = false := (congrArg _ hTw).trans lone
  refine twinControl_refused h house act rfl (if_pos ?_)
  rw [hj]
  rfl

theorem handover_answers_pends (act : c.n 0 % 16 = 3) {at_ : Nat} (lock : s.tw = Tw.lockPri) (free : s.twin.handover = none)
    (named : c.n 1 + 2 ^ 32 * c.n 2 = at_) (some_ : at_ ≠ 0) (boundary : at_ % s.blockSize = 0)
    (ahead : s.render.rsi + 2 * s.blockSize ≤ at_) :
    Answers (.handover c.seat c.tag) s (fun t => t.twin.handover = some (at_, some (c.seat, c.tag)) ∧ t.tw = s.tw ∧
      (t.seat c.seat).done = (s.seat c.seat).done) := by
  have h8 : c.seat < 8 := house ▸ by decide
  have hTw := s.begun_tw h8
  have hB : (s.begun c).blockSize = s.blockSize := by
    unfold State.blockSize
    rw [s.begun_fld h8 _ _ (by decide)]
  have hRsi : (s.begun c).render.rsi = s.render.rsi := rfl
  have hJ : (s.begun c).twin.handover = none := free
  have may : ¬ ((decide ((s.begun c).tw ≠ Tw.lockPri) || (s.begun c).twin.handover.isSome) = true) := by
    simp [hTw, hJ, lock]
  have place : (if c.n 1 + 2 ^ 32 * c.n 2 = 0 then ((s.begun c).render.rsi / (s.begun c).blockSize + 8) * (s.begun c).blockSize
      else c.n 1 + 2 ^ 32 * c.n 2) = at_ := by
    rw [named]
    exact if_neg some_
  have fits : ¬ ((decide (at_ % (s.begun c).blockSize ≠ 0) ||
      decide (at_ < (s.begun c).render.rsi + 2 * (s.begun c).blockSize)) = true) := by
    simp [hB, hRsi, boundary]
    omega
  refine twinControl_waits h house act (u := ({ s.begun c with twin := { s.twin with
      handover := some (at_, some (c.seat, c.tag)) } } : State).toPeer (.handover at_)) rfl ?_ (State.toPeer_seats _ _)
    (fun t htw htwin done => ⟨?_, ?_, done⟩)
  · dsimp only
    rw [if_neg may, show ({ c with started := true } : Cmd).n 1 = c.n 1 from rfl,
      show ({ c with started := true } : Cmd).n 2 = c.n 2 from rfl, place, if_neg fits]
    rfl
  · rw [htwin]
    exact State.toPeer_noted TwinState.handover (fun _ _ => rfl) _ _
  · exact htw.trans ((State.toPeer_tw _ _).trans hTw)

theorem handover_answers_busy (act : c.n 0 % 16 = 3) (other : s.tw ≠ Tw.lockPri) :
    Answers (.handover c.seat c.tag) s (fun t => Completes s t c Status.busy 0 0 ∧ t.twin = s.twin) := by
  have hTw := s.begun_tw (c := c) (house ▸ by decide)
  refine twinControl_refused h house act rfl (if_pos ?_)
  rw [hTw, decide_eq_true other, Bool.true_or]

/-! TAKEOVER (R496, R502) -/

theorem takeover_answers_takes (act : c.n 0 % 16 = 4) (und : s.tw = Tw.verify ∨ s.tw = Tw.lockUnd)
    (free : s.twin.resync = none) (hf : ∀ q ∈ s.seats, ∀ d ∈ q.2.cmds, d.peer = none) :
    Answers (.takeover c.seat c.tag) s (fun t => t.tw = Tw.taking ∧ t.twin.take = some (c.seat, c.tag) ∧
      t.twin.cold = false ∧ (t.seat c.seat).done = (s.seat c.seat).done) := by
  have hTw := s.begun_tw (c := c) (house ▸ by decide)
  have warm : (decide ((s.begun c).tw = Tw.verify) || decide ((s.begun c).tw = Tw.lockUnd)) = true := by
    rcases und with e | e <;> simp [hTw, e]
  have hUnd : undState (s.begun c).tw = true := by
    rcases und with e | e <;> rw [hTw, e] <;> decide
  obtain ⟨u, hu⟩ : ∃ u : State, u = { s.begun c with twin := { s.twin with take := some (c.seat, c.tag) } } := ⟨_, rfl⟩
  have peers : ∀ q ∈ u.seats, ∀ d ∈ q.2.cmds, d.peer = none := by
    rw [hu]
    exact State.begun_peers h hf
  have uTw : u.tw = (s.begun c).tw := by
    rw [hu]
    rfl
  have uTwin : u.twin = { s.twin with take := some (c.seat, c.tag) } := by rw [hu]
  have uSeats : u.seats = (s.begun c).seats := by rw [hu]
  have takes := State.takeOver_joined (s := u) ((congrArg TwinState.resync uTwin).trans free) peers (by rw [uTw]; exact warm)
  have notBusy : ¬ ((!undState (s.begun c).tw) = true) := by
    rw [hUnd]
    exact Bool.false_ne_true
  have notBad : ¬ ((!(decide ((s.begun c).tw = Tw.verify) || decide ((s.begun c).tw = Tw.lockUnd)) &&
      (s.begun c).newestImage.isNone) = true) := by
    rw [warm]
    exact Bool.false_ne_true
  refine twinControl_waits h house act (u := u.takeOver) rfl ?_ ?_ (fun t htw htwin done => ?_)
  · rw [hu]
    exact (if_neg notBusy).trans (if_neg notBad)
  · rw [takes, State.enter_seats]
    exact uSeats
  · rw [takes] at htw htwin
    have twin := htwin.trans (State.enter_twin _ _)
    refine ⟨htw.trans (State.tw_enter _ (by decide)), ?_, ?_, done⟩ <;> rw [twin]
    exact congrArg TwinState.take uTwin

theorem takeover_answers_busy (act : c.n 0 % 16 = 4) (und : undState s.tw = false) :
    Answers (.takeover c.seat c.tag) s (fun t => Completes s t c Status.busy 0 0 ∧ t.twin = s.twin) := by
  have hTw := s.begun_tw (c := c) (house ▸ by decide)
  refine twinControl_refused h house act rfl (if_pos ?_)
  rw [hTw, und]
  rfl

/-! RESYNC (R494, R502) -/

theorem resync_answers_starts (act : c.n 0 % 16 = 5) (und : s.tw = Tw.verify ∨ s.tw = Tw.lockUnd) :
    Answers (.resync c.seat c.tag) s (fun t => t.tw = Tw.resync ∧ t.twin.resync = some (c.seat, c.tag) ∧
      t.twin.journal = [] ∧ (t.seat c.seat).done = (s.seat c.seat).done) := by
  have hTw := s.begun_tw (c := c) (house ▸ by decide)
  have warm : (decide ((s.begun c).tw = Tw.verify) || decide ((s.begun c).tw = Tw.lockUnd)) = true := by
    rcases und with e | e <;> simp [hTw, e]
  refine twinControl_waits h house act rfl (if_pos warm) ?_ (fun t htw htwin done => ?_)
  · exact (State.toPeer_seats _ _).trans (State.enter_seats _ _)
  · refine ⟨htw.trans ((State.toPeer_tw _ _).trans (State.tw_enter _ (by decide))), ?_, ?_, done⟩ <;> rw [htwin]
    · exact (State.toPeer_noted TwinState.resync (fun _ _ => rfl) _ _).trans (congrArg TwinState.resync (State.enter_twin _ _))
    · exact (State.toPeer_noted TwinState.journal (fun _ _ => rfl) _ _).trans (congrArg TwinState.journal (State.enter_twin _ _))

theorem resync_answers_busy (act : c.n 0 % 16 = 5) (verify : s.tw ≠ Tw.verify) (lock : s.tw ≠ Tw.lockUnd) :
    Answers (.resync c.seat c.tag) s (fun t => Completes s t c Status.busy 0 0 ∧ t.twin = s.twin) := by
  have hTw := s.begun_tw (c := c) (house ▸ by decide)
  refine twinControl_refused h house act rfl (if_neg ?_)
  rw [hTw, decide_eq_false verify, decide_eq_false lock]
  exact Bool.false_ne_true

end

/-- Settles O51: each action is a TWIN_CONTROL of the house seat that ends at once with its status, or notes itself and
waits; entering a state leaves the twin's record and the seats as they are. -/
theorem twinControl : Obligations.TwinControl := by
  unfold Obligations.TwinControl
  intro s c h house
  refine ⟨fun act => ⟨join_answers_starts h house act, join_answers_waits h house act, join_answers_understudy h house act,
      join_answers_busy h house act⟩,
    fun act => ⟨detach_answers_waits h house act, detach_answers_busy h house act⟩,
    fun act => ⟨fun _ => handover_answers_pends h house act, handover_answers_busy h house act⟩,
    fun act => ⟨takeover_answers_takes h house act, takeover_answers_busy h house act⟩,
    fun act => ⟨resync_answers_starts h house act, resync_answers_busy h house act⟩⟩

end Sys2Proof.Machine
end

section
/-! PROOFS. A seat's reset and binding, and what it leaves of the seat's words (R395, R416). -/

namespace Sys2Proof.Machine

open Sys2Proof

/-! The words of the seats' pages that no end of an operation writes -/

/-- The word of a seat's page at an offset at which neither the session, the sleep request nor STATUS stands. -/
def CalmWord (k : Nat) : Prop :=
  0x10000 ≤ k ∧ k < 0x18000 ∧ k % 0x1000 ≠ 0x50 ∧ k % 0x1000 ≠ 0x54 ∧ k % 0x1000 ≠ 0x58

/-- An active word of the register map. -/
def State.actWord (k : Nat) (s : State) : Word := Map.get 0#32 k s.fab.act

theorem State.actWord_of {s t : State} {k : Nat} (h : t.fab = s.fab) : t.actWord k = s.actWord k :=
  congrArg (fun f : Fabric => Map.get 0#32 k f.act) h

section
variable {k : Nat} (hk : CalmWord k)
include hk

theorem State.calm_set (s : State) {b : Blk} {f : Fld} (v : Nat) (h : b.base + f.off < 0x10000 ∨ 0x18000 ≤ b.base + f.off) :
    (s.set b f v).actWord k = s.actWord k := by
  obtain ⟨low, high, -⟩ := hk
  exact s.set_word b f v k (by omega)

theorem State.calm_event (s : State) {b : Blk} (i : Nat)
    (h : b.base + Reg.Hdr.EVENTS.off < 0x10000 ∨ 0x18000 ≤ b.base + Reg.Hdr.EVENTS.off) :
    (s.event b i).actWord k = s.actWord k := by
  have written := s.calm_set hk (b := b) (f := Reg.Hdr.EVENTS) (s.fld b Reg.Hdr.EVENTS ||| 2 ^ i) h
  unfold State.event State.stick
  dsimp only
  split <;> exact written

theorem State.calm_setSeat (s : State) (q : Nat) (v : SeatState) : (s.setSeat q v).actWord k = s.actWord k := by
  obtain ⟨-, -, -, -, status⟩ := hk
  exact State.set_word _ _ _ _ k (by simp only [Blk.base, Reg.Seat.STATUS_IN_FLIGHT]; omega)

/-! Ends of commands -/

theorem State.calm_finish1 (s : State) (seat tag st r0 r1 : Nat) : (s.finish1 seat tag st r0 r1).actWord k = s.actWord k := by
  have post (t : State) (c : Cmd) : (t.post c st r0 r1 false).actWord k = t.actWord k :=
    ite_keeps (State.actWord k) rfl (t.calm_setSeat hk _ _)
  unfold State.finish1
  split
  · rfl
  · refine ite_keeps (State.actWord k) rfl (ite_keeps (State.actWord k) (s.calm_setSeat hk _ _) ?_)
    exact (State.calm_setSeat hk _ _ _).trans (post s _)

theorem State.calm_finish (s : State) (seat tag st r0 r1 : Nat) : (s.finish seat tag st r0 r1).actWord k = s.actWord k :=
  (foldl_keeps (State.actWord k) (fun t _ _ => t.calm_finish1 hk _ _ _ _ _) _).trans (s.calm_finish1 hk _ _ _ _ _)

/-! Operations that are given up (R412) -/

theorem State.calm_setCorr (s : State) (n : Nat) (c : Corr) : (s.setCorr n c).actWord k = s.actWord k := by
  have out (t : State) (f : Fld) (v : Nat) : (t.set (.out n) f v).actWord k = t.actWord k :=
    t.calm_set hk v (.inr (by simp only [Blk.base]; omega))
  have page (t : State) (f : Fld) (v : Nat) : (t.set .correct f v).actWord k = t.actWord k :=
    t.calm_set hk v (.inr (by simp only [Blk.base]; omega))
  unfold State.setCorr State.showCorr State.showCorrect State.setBit
  simp only [page, out]
  rfl

theorem State.calm_settleBank (s : State) (n b : Nat) (keep : Bool) : (s.settleBank n b keep).actWord k = s.actWord k :=
  ite_keeps (State.actWord k) rfl (s.calm_setCorr hk _ _)

theorem State.calm_installFilters (s : State) (c : Cmd) (n : Nat) : (s.installFilters c n).1.actWord k = s.actWord k :=
  foldl_keeps (fun a : State × Nat × Bool => a.1.actWord k) (fun a _ _ => a.1.calm_settleBank hk _ _ _) _

theorem State.calm_cancelFilterLoad (s : State) (c : Cmd) (keep : Bool) :
    (s.cancelFilterLoad c keep).actWord k = s.actWord k := by
  refine ite_keeps (State.actWord k) ?_ (foldl_keeps (State.actWord k) (fun t _ _ => t.calm_settleBank hk _ _ _) s)
  exact (ite_keeps (State.actWord k) (State.calm_event hk _ _ (by decide)) rfl).trans (s.calm_installFilters hk _ _)

omit hk in
theorem State.calm_chainService (s : State) (mask : Nat) (on keep : Bool) :
    (s.chainService mask on keep).actWord k = s.actWord k := by
  unfold State.chainService
  refine foldl_keeps (State.actWord k) (fun t c _ => ?_) s
  exact State.actWord_of rfl

theorem State.calm_measure (s : State) (f : Fld) (v : Nat) : (s.set .measure f v).actWord k = s.actWord k :=
  s.calm_set hk v (.inr (by simp only [Blk.base]; omega))

theorem State.calm_showMeasure (s : State) : s.showMeasure.actWord k = s.actWord k := by
  unfold State.showMeasure
  simp only [State.calm_measure hk]

omit hk in
theorem State.setCampaign_act (s : State) (c : Option Campaign) : (s.setCampaign c).actWord k = s.actWord k :=
  ite_keeps (State.actWord k) (ite_keeps (State.actWord k) rfl rfl) rfl

theorem State.calm_campaignRelease (s : State) (q : Campaign) (held : Bool) :
    (s.campaignRelease q held).actWord k = s.actWord k := by
  unfold State.campaignRelease
  extract_lets served shown released bufs pool pooled
  have hServed : served.actWord k = s.actWord k := ite_keeps (State.actWord k) (s.calm_chainService _ _ _) rfl
  have hShown : shown.actWord k = s.actWord k := (served.calm_measure hk _ _).trans hServed
  have hPooled : pooled.actWord k = s.actWord k := (State.actWord_of rfl).trans hShown
  exact (State.calm_showMeasure hk _).trans ((pooled.setCampaign_act _).trans hPooled)

theorem State.calm_cancelCampaign (s : State) (c : Cmd) (keep : Bool) : (s.cancelCampaign c keep).actWord k = s.actWord k := by
  unfold State.cancelCampaign
  split
  · next q _ =>
    refine ite_keeps (State.actWord k) ?_ rfl
    have released := s.calm_campaignRelease hk q keep
    generalize s.campaignRelease q keep = u at released ⊢
    refine ite_keeps (State.actWord k) released ?_
    have closed : (u.freeBuffer q.buffer).closeJournal.actWord k = u.actWord k := State.actWord_of rfl
    generalize (u.freeBuffer q.buffer).closeJournal = v at closed ⊢
    exact (State.calm_showMeasure hk _).trans ((v.setCampaign_act _).trans (closed.trans released))
  · rfl

theorem State.calm_cancelProbe (s : State) (c : Cmd) (keep : Bool) : (s.cancelProbe c keep).actWord k = s.actWord k := by
  unfold State.cancelProbe
  split
  · next p _ =>
    have served := s.calm_chainService (k := k) p.mask false p.keepDcb
    generalize s.chainService p.mask false p.keepDcb = u at served ⊢
    have unset : (u.setProbe none).actWord k = u.actWord k := State.actWord_of rfl
    generalize u.setProbe none = v at unset ⊢
    have shown := v.calm_showMeasure hk
    generalize v.showMeasure = w at shown ⊢
    have freed : (w.freeBuffer p.buffer).actWord k = w.actWord k := State.actWord_of rfl
    have kept := shown.trans (unset.trans served)
    exact ite_keeps (State.actWord k) (ite_keeps (State.actWord k) kept (freed.trans kept)) rfl
  · rfl

theorem State.calm_trace (s : State) (f : Fld) (v : Nat) (h : f.off < 0x1000) : (s.set .trace f v).actWord k = s.actWord k :=
  s.calm_set hk v (.inl (by simp only [Blk.base]; omega))

omit hk in
theorem State.bufWords_act (s : State) (h off : Nat) (ws : List Word) : (s.bufWords h off ws).actWord k = s.actWord k := by
  unfold State.bufWords State.bufWrite
  split <;> rfl

theorem State.calm_traceWrite (s : State) (t : TraceRun) (r : List Word) : (s.traceWrite t r).actWord k = s.actWord k := by
  unfold State.traceWrite
  extract_lets at_ stored next_ moved
  have hStored : stored.actWord k = s.actWord k := s.bufWords_act _ _ _
  have hMoved : moved.actWord k = s.actWord k := ite_keeps (State.actWord k)
    ((State.calm_trace hk _ _ _ (by decide)).trans ((stored.calm_trace hk _ _ (by decide)).trans hStored))
    ((stored.calm_trace hk _ _ (by decide)).trans hStored)
  exact hMoved

theorem State.calm_traceEnd (s : State) (full : Bool) : (s.traceEnd full).actWord k = s.actWord k := by
  unfold State.traceEnd
  split
  · rfl
  · next t _ =>
    have ended := s.calm_finish hk t.seat t.tag Status.ok t.records (if full then 0 else s.traceOldest t)
    generalize s.finish t.seat t.tag Status.ok t.records (if full then 0 else s.traceOldest t) = u at ended ⊢
    refine ite_keeps (State.actWord k) ((State.calm_event hk _ _ (by decide)).trans ?_) ?_ <;>
      exact (State.calm_trace hk _ _ _ (by decide)).trans ended

theorem State.calm_traceFlush (s : State) : s.traceFlush.actWord k = s.actWord k := by
  have written : ∀ (t : State) (r : List Word), (match t.sched.trace with
      | some x => if !x.ring && x.size / 32 ≤ x.records then t else t.traceWrite x r
      | none => t).actWord k = t.actWord k := by
    intro t r
    split
    · exact ite_keeps (State.actWord k) rfl (t.calm_traceWrite hk _ _)
    · rfl
  have all := foldl_keeps (l := s.sched.staged) (State.actWord k) (fun t r _ => written t r) s
  unfold State.traceFlush
  extract_lets flushed u
  have hFlushed : flushed.actWord k = s.actWord k := all
  split
  · exact (ite_keeps (State.actWord k) (State.calm_traceEnd hk _ _) rfl).trans hFlushed
  · exact hFlushed

theorem State.calm_cancelTrace (s : State) (c : Cmd) (keep : Bool) : (s.cancelTrace c keep).actWord k = s.actWord k :=
  (State.calm_trace hk _ _ _ (by decide)).trans (ite_keeps (State.actWord k) (s.calm_traceFlush hk) rfl)

omit hk in
theorem State.flashWrite_fab (s : State) (off : Nat) (bs : List Byte) : (s.flashWrite off bs).fab = s.fab := rfl

theorem State.calm_giveUp (s : State) (c : Cmd) (keep : Bool) : (s.giveUp c keep).actWord k = s.actWord k := by
  unfold State.giveUp
  refine ite_keeps (State.actWord k) rfl ?_
  refine ite_keeps (State.actWord k) (s.calm_cancelFilterLoad hk c keep) ?_
  refine ite_keeps (State.actWord k) (s.calm_cancelCampaign hk c keep) ?_
  refine ite_keeps (State.actWord k) (s.calm_cancelProbe hk c keep) ?_
  refine ite_keeps (State.actWord k) rfl (ite_keeps (State.actWord k) rfl ?_)
  refine ite_keeps (State.actWord k) (s.calm_cancelTrace hk c keep) ?_
  refine ite_keeps (State.actWord k) (ite_keeps (State.actWord k) (State.actWord_of ?_) rfl) rfl
  exact State.flashWrite_fab s _ _

end

end Sys2Proof.Machine
end

section
/-! PROOFS. Seat reset, binding, and loss and return of the host (R395, R414 to R416). -/

namespace Sys2Proof.Machine

open Sys2Proof

/-! What a seat reset takes back, the seat it leaves, its queues, and the rest (R416) -/

/-- The seat's operations given up, and everything that other engines keep for the seat let go. -/
def State.letGo (s : State) (seat : Nat) : State :=
  let ops := (s.seat seat).cmds.filter (fun c => isLong c.opcode && c.started && !c.final && decide (c.tag < bootTag))
  ((((ops.foldl (fun s c => s.giveUp c c.keep) s).dropCaptures seat).dropTwinCommands seat).dropBuffers seat).dropWaiters seat

/-- A seat without commands of a host, completions and messages. -/
def SeatState.bare (q : SeatState) : SeatState :=
  { q with cmds := q.cmds.filter (bootTag ≤ ·.tag), done := [], sdRing := [], lastSq := 3 }

/-- A queue pair of a seat is disabled. -/
def State.pairOff (s : State) (seat i : Nat) : State :=
  let b := Blk.seat seat
  let s := ((s.setBoth b (Reg.Seat.SQ_EN i) 0).setBoth b (Reg.Seat.SQ_TAIL i) 0).set b (Reg.Seat.SQ_HEAD i) 0
  (((s.setBoth b (Reg.Seat.CQ_EN i) 0).setBoth b (Reg.Seat.CQ_HEAD i) 0).set b (Reg.Seat.CQ_TAIL i) 0).set b
    (Reg.Seat.CQ_PHASE i) 1

def State.queuesOff (s : State) (seat : Nat) : State := (List.range 4).foldl (fun s i => s.pairOff seat i) s

def State.undegraded (s : State) (seat : Nat) : State :=
  { s with mon := { s.mon with degraded := s.mon.degraded.filter (·.1 ≠ seat) } }

/-- The seat's session ends, its sleep request clears, and its interrupts and its Prompter are reset. -/
def State.unattended (s : State) (seat : Nat) : State :=
  let v := ((s.endSession seat).sleepClear seat).callReset seat true
  if seat < v.model.prompters then v.prReset seat else v

/-- A seat is bare, and its queues are disabled. -/
def State.bareSeat (s : State) (seat : Nat) : State :=
  ((s.setSeat seat (s.seat seat).bare).queuesOff seat).undegraded seat

theorem State.seatReset_eq (s : State) (seat : Nat) : s.seatReset seat = ((s.letGo seat).bareSeat seat).unattended seat := rfl

/-! Words that a seat reset leaves -/

section
variable {k : Nat} (hk : CalmWord k)
include hk

theorem State.calm_letGo (s : State) (seat : Nat) : (s.letGo seat).actWord k = s.actWord k := by
  have given := foldl_keeps (l := (s.seat seat).cmds.filter (fun c => isLong c.opcode && c.started && !c.final &&
    decide (c.tag < bootTag))) (State.actWord k) (fun t c _ => State.calm_giveUp hk t c c.keep) s
  unfold State.letGo
  dsimp only
  generalize List.foldl (fun s c => s.giveUp c c.keep) s _ = u at given ⊢
  have captures : (u.dropCaptures seat).actWord k = u.actWord k := by
    unfold State.dropCaptures
    refine (foldl_keeps (State.actWord k) (fun t c _ => ?_) _).trans ?_
    · exact ite_keeps (State.actWord k) (t.calm_chainService _ _ _) rfl
    · exact State.calm_set hk _ _ (.inr (by decide))
  generalize u.dropCaptures seat = v at captures ⊢
  have twin : ((v.dropTwinCommands seat).dropBuffers seat).actWord k = v.actWord k := State.actWord_of rfl
  generalize (v.dropTwinCommands seat).dropBuffers seat = w at twin ⊢
  have waiters : (w.dropWaiters seat).actWord k = w.actWord k := by
    unfold State.dropWaiters
    exact foldl_keeps (State.actWord k) (fun t c _ => t.calm_finish1 hk _ _ _ _ _) _
  exact waiters.trans (twin.trans (captures.trans given))

theorem State.calm_endSession (s : State) (seat : Nat) : (s.endSession seat).actWord k = s.actWord k := by
  obtain ⟨-, -, session, -, status⟩ := id hk
  have hSession (t : State) (v : Nat) : (t.set (.seat seat) Reg.Seat.SD_SESSION v).actWord k = t.actWord k :=
    State.set_word _ _ _ _ k (by simp only [Blk.base, Reg.Seat.SD_SESSION]; omega)
  have hAttached (t : State) (v : Nat) : (t.set (.seat seat) Reg.Seat.STATUS_ATTACHED v).actWord k = t.actWord k :=
    State.set_word _ _ _ _ k (by simp only [Blk.base, Reg.Seat.STATUS_ATTACHED]; omega)
  exact (hAttached _ _).trans ((hSession _ _).trans (s.calm_setSeat hk seat _))

omit hk in
/-- With no message waiting, a seat has none to send. -/
theorem State.sdFlush_none {s : State} {seat : Nat} (h : (s.seat seat).sd.waiting = []) :
    s.sdFlush seat = s ∨ s.sdFlush seat = s.setSeat seat { s.seat seat with sd := { (s.seat seat).sd with waiting := [] } } := by
  unfold State.sdFlush
  dsimp only
  split
  · exact .inl rfl
  · refine .inr ?_
    rw [h, List.drop_nil, List.take_nil]
    rfl

theorem State.calm_sleepClear {s : State} {seat : Nat} (h : (s.seat seat).sd.waiting = []) :
    (s.sleepClear seat).actWord k = s.actWord k := by
  have hReq (t : State) (v : Nat) : (t.setBoth (.seat seat) Reg.Seat.CTRL_SLEEP_REQ v).actWord k = t.actWord k :=
    State.set_word _ _ _ _ k (by obtain ⟨-, -, -, req, -⟩ := hk; simp only [Blk.base, Reg.Seat.CTRL_SLEEP_REQ]; omega)
  have hAck (t : State) (v : Nat) : (t.set (.seat seat) Reg.Seat.STATUS_SLEEP_ACK v).actWord k = t.actWord k :=
    State.set_word _ _ _ _ k (by obtain ⟨-, -, -, -, ack⟩ := hk; simp only [Blk.base, Reg.Seat.STATUS_SLEEP_ACK]; omega)
  have hWake (t : State) : (t.wakeDone seat).actWord k = t.actWord k := State.calm_set hk _ _ (.inl (by decide))
  unfold State.sleepClear
  dsimp only
  have before := (hWake _).trans ((hAck (s.setBoth (.seat seat) Reg.Seat.CTRL_SLEEP_REQ 0) 0).trans (hReq s 0))
  generalize hu : State.wakeDone _ seat = u at before ⊢
  have waiting : (u.seat seat).sd.waiting = [] := by
    rw [← hu]
    exact h
  rcases State.sdFlush_none waiting with e | e <;> rw [e]
  · exact before
  · exact (u.calm_setSeat hk seat _).trans before

theorem State.calm_resetPage (s : State) {b : Blk} (h : b.base + 0x800 ≤ 0x10000 ∨ 0x18000 ≤ b.base) :
    (s.resetPage b).actWord k = s.actWord k := by
  obtain ⟨low, high, -⟩ := hk
  unfold State.resetPage State.actWord
  refine (Map.get_drop 0#32 (fun j => decide (b.base + 0x40 ≤ j ∧ j < b.base + 0x800)) k s.fab.act).trans (if_neg ?_)
  simp only [decide_eq_true_eq]
  omega

theorem State.calm_callReset (s : State) (seat : Nat) (all : Bool) : (s.callReset seat all).actWord k = s.actWord k := by
  have set_ (t : State) (f : Fld) (v : Nat) : (t.set (.callSeat seat) f v).actWord k = t.actWord k :=
    t.calm_set hk v (.inr (by simp only [Blk.base]; omega))
  have reset_ (t : State) : (t.resetPage (.callSeat seat)).actWord k = t.actWord k := t.calm_resetPage hk (.inr (by simp only [Blk.base]; omega))
  have shown (t : State) (v : Nat) : (t.showVec seat v).actWord k = t.actWord k := by
    unfold State.showVec State.put64 State.set64 State.setBit
    simp only [set_]
  unfold State.callReset
  refine (foldl_keeps (State.actWord k) (fun t v _ => shown t v) _).trans ?_
  refine ite_keeps (State.actWord k) ((reset_ _).trans (State.actWord_of rfl)) ?_
  exact (set_ _ _ _).trans ((set_ _ _ _).trans (State.actWord_of rfl))

theorem State.calm_prReset (s : State) (seat : Nat) : (s.prReset seat).actWord k = s.actWord k := by
  exact (State.actWord_of rfl).trans (s.calm_resetPage hk (b := .prompter seat) (.inr (by simp only [Blk.base]; omega)))

end

/-! The seat after its reset -/

theorem State.seat_of_seats {s t : State} (h : t.seats = s.seats) (q : Nat) : t.seat q = s.seat q :=
  congrArg (Map.get ({} : SeatState) q) h

theorem State.pairOff_seats (s : State) (seat i : Nat) : (s.pairOff seat i).seats = s.seats := rfl

theorem State.queuesOff_seats (s : State) (seat : Nat) : (s.queuesOff seat).seats = s.seats := by
  unfold State.queuesOff
  exact foldl_keeps State.seats (fun t i _ => t.pairOff_seats seat i) s

/-- What a reset leaves of a seat: none of its host's commands, no completion, and no session. -/
def SeatState.Cleared (q : SeatState) : Prop :=
  q.done = [] ∧ (∀ c ∈ q.cmds, bootTag ≤ c.tag) ∧ q.sd.session = 0 ∧ q.sd.waiting = []

theorem State.cleared_endSession {s : State} {seat : Nat} (hd : (s.seat seat).done = [])
    (hc : ∀ c ∈ (s.seat seat).cmds, bootTag ≤ c.tag) : ((s.endSession seat).seat seat).Cleared := by
  have now : (s.endSession seat).seat seat = { s.seat seat with sd := (s.seat seat).sd.ended } := by
    unfold State.endSession State.showAttached State.setBit
    simp only [State.seat_set, State.seat_setSeat_same]
    rfl
  rw [now]
  exact ⟨hd, hc, rfl, rfl⟩

theorem State.cleared_sleepClear {s : State} {seat : Nat} (h : (s.seat seat).Cleared) :
    ((s.sleepClear seat).seat seat).Cleared := by
  unfold State.sleepClear
  dsimp only
  generalize hu : State.wakeDone _ seat = u
  have same : u.seats = s.seats := by
    rw [← hu]
    rfl
  rw [← State.seat_of_seats same] at h
  obtain ⟨done, cmds, session, waiting⟩ := h
  rcases State.sdFlush_none waiting with e | e <;> rw [e]
  · exact ⟨done, cmds, session, waiting⟩
  · rw [State.seat_setSeat_same]
    exact ⟨done, cmds, session, rfl⟩

theorem State.callReset_seats (s : State) (seat : Nat) (all : Bool) : (s.callReset seat all).seats = s.seats := by
  have shown (t : State) (v : Nat) : (t.showVec seat v).seats = t.seats := rfl
  unfold State.callReset
  dsimp only
  refine (foldl_keeps State.seats (fun t v _ => shown t v) _).trans ?_
  split <;> rfl

/-- A queue pair is disabled, its pointers at 0. -/
def State.PairOff (s : State) (seat i : Nat) : Prop :=
  s.bit (.seat seat) (Reg.Seat.SQ_EN i) = false ∧ s.bit (.seat seat) (Reg.Seat.CQ_EN i) = false ∧
    s.fld (.seat seat) (Reg.Seat.SQ_TAIL i) = 0 ∧ s.fld (.seat seat) (Reg.Seat.SQ_HEAD i) = 0

/-- The fields that disabling a queue pair writes. -/
def pairFields (i : Nat) : List Fld :=
  [Reg.Seat.SQ_EN i, Reg.Seat.SQ_TAIL i, Reg.Seat.SQ_HEAD i, Reg.Seat.CQ_EN i, Reg.Seat.CQ_HEAD i, Reg.Seat.CQ_TAIL i,
    Reg.Seat.CQ_PHASE i]

theorem pairFields_apart : ∀ j < 4, ∀ k < 4, k ≠ j → ∀ f ∈ pairFields j,
    ∀ g ∈ [Reg.Seat.SQ_EN k, Reg.Seat.CQ_EN k, Reg.Seat.SQ_TAIL k, Reg.Seat.SQ_HEAD k], g.off ≠ f.off := by decide

theorem State.pairOff_writes (s : State) (seat i : Nat) :
    Writes s (s.pairOff seat i) ((pairFields i).map (Blk.seat seat, ·)) := by
  have one {t : State} (h : Writes s t ((pairFields i).map (Blk.seat seat, ·))) {f : Fld} (v : Nat) (hm : f ∈ pairFields i) :
      Writes s (t.set (.seat seat) f v) ((pairFields i).map (Blk.seat seat, ·)) := h.set v (List.mem_map_of_mem hm)
  have both {t : State} (h : Writes s t ((pairFields i).map (Blk.seat seat, ·))) {f : Fld} (v : Nat) (hm : f ∈ pairFields i) :
      Writes s (t.setBoth (.seat seat) f v) ((pairFields i).map (Blk.seat seat, ·)) := (one h v hm).trans (.of_act rfl)
  have sq := one (both (both (Writes.refl s _) 0 (f := Reg.Seat.SQ_EN i) (by simp [pairFields])) 0 (f := Reg.Seat.SQ_TAIL i)
    (by simp [pairFields])) (f := Reg.Seat.SQ_HEAD i) 0 (by simp [pairFields])
  exact one (one (both (both sq 0 (f := Reg.Seat.CQ_EN i) (by simp [pairFields])) 0 (f := Reg.Seat.CQ_HEAD i)
    (by simp [pairFields])) (f := Reg.Seat.CQ_TAIL i) 0 (by simp [pairFields])) (f := Reg.Seat.CQ_PHASE i) 1
    (by simp [pairFields])

theorem State.pairOff_off (s : State) (seat : Nat) {i : Nat} (hi : i < 4) : (s.pairOff seat i).PairOff seat i := by
  have apart : ∀ j < 4, [Reg.Seat.SQ_EN j, Reg.Seat.SQ_TAIL j, Reg.Seat.SQ_HEAD j, Reg.Seat.CQ_EN j, Reg.Seat.CQ_HEAD j,
    Reg.Seat.CQ_TAIL j, Reg.Seat.CQ_PHASE j].Pairwise (fun f g => Apart g f) := by decide
  obtain ⟨sqEn, sqTail, sqHead, cqEn, -⟩ := List.pairwise_cons.mp (apart i hi) |>.imp_right fun h =>
    List.pairwise_cons.mp h |>.imp_right fun h => List.pairwise_cons.mp h |>.imp_right fun h => List.pairwise_cons.mp h
  simp only [List.forall_mem_cons] at sqEn sqTail sqHead cqEn
  obtain ⟨_, _, _, _, _, _, -⟩ := sqEn
  obtain ⟨_, _, _, _, _, -⟩ := sqTail
  obtain ⟨_, _, _, _, -⟩ := sqHead
  obtain ⟨_, _, _, -⟩ := cqEn
  obtain ⟨tail, en, -, head, -, cq, -⟩ := queue_fields hi
  refine ⟨State.bit_iff_fld _ _ _ false ?_, State.bit_iff_fld _ _ _ false ?_, ?_, ?_⟩ <;> unfold State.pairOff <;> dsimp only
  · simp (disch := assumption) only [State.fld_set_apart, State.fld_setBoth_apart]
    exact State.fld_setBoth_same _ _ 0 en.2.2.2
  · simp (disch := assumption) only [State.fld_set_apart, State.fld_setBoth_apart]
    exact State.fld_setBoth_same _ _ 0 cq.2.2.2
  · simp (disch := assumption) only [State.fld_set_apart, State.fld_setBoth_apart]
    exact State.fld_setBoth_same _ _ 0 tail.2.2.2
  · simp (disch := assumption) only [State.fld_set_apart, State.fld_setBoth_apart]
    exact State.fld_set_same _ _ _ 0 head.2.2.2

theorem State.pairOff_other (s : State) (seat : Nat) {j k : Nat} (hj : j < 4) (hk : k < 4) (ne : k ≠ j)
    (h : s.PairOff seat k) : (s.pairOff seat j).PairOff seat k := by
  have kept (g : Fld) (hg : g ∈ [Reg.Seat.SQ_EN k, Reg.Seat.CQ_EN k, Reg.Seat.SQ_TAIL k, Reg.Seat.SQ_HEAD k]) :
      (s.pairOff seat j).fld (.seat seat) g = s.fld (.seat seat) g := by
    refine s.pairOff_writes seat j (.seat seat) g (fun w hw => .inl ?_)
    obtain ⟨f, hf, rfl⟩ := List.mem_map.mp hw
    exact fun e => pairFields_apart j hj k hk ne f hf g hg (Nat.add_left_cancel e)
  obtain ⟨sqEn, cqEn, tail, head⟩ := h
  exact ⟨(State.bit_eq_of_fld (kept _ (by simp))).trans sqEn, (State.bit_eq_of_fld (kept _ (by simp))).trans cqEn,
    (kept _ (by simp)).trans tail, (kept _ (by simp)).trans head⟩

theorem State.queuesOff_off (s : State) (seat : Nat) {i : Nat} (hi : i < 4) : (s.queuesOff seat).PairOff seat i :=
  (foldl_range_each (fun _ => True) (fun i u => i < 4 → State.PairOff u seat i) trivial
    (fun (u : State) _ hj _ => ⟨trivial, fun _ => u.pairOff_off seat hj, fun _ ne off hk =>
      u.pairOff_other seat hj hk ne (off hk)⟩)).2 i hi hi

/-- The words of a seat's queues, and of its binding, are among those that stay. -/
theorem calm_seat {seat : Nat} (h8 : seat < 8) {f : Fld} (hf : f.off = 0x40 ∨ 0x60 ≤ f.off ∧ f.off < 0x1000) :
    CalmWord (wordAt (.seat seat) f) := by
  unfold CalmWord wordAt
  simp only [Blk.base]
  omega

theorem State.fld_of_actWord {s t : State} {b : Blk} {f : Fld} (h : t.actWord (wordAt b f) = s.actWord (wordAt b f)) :
    t.fld b f = s.fld b f := by
  unfold State.actWord at h
  unfold State.fld regGet
  rw [show b.base + f.off = wordAt b f from rfl, h]

/-- The words of a seat's binding and queues stay while the session ends, the sleep request clears and the interrupts and
the Prompter are reset. -/
theorem State.calm_unattended {k : Nat} (hk : CalmWord k) {s : State} {seat : Nat} (hd : (s.seat seat).done = [])
    (hc : ∀ c ∈ (s.seat seat).cmds, bootTag ≤ c.tag) : (s.unattended seat).actWord k = s.actWord k := by
  obtain ⟨-, -, -, waiting⟩ := State.cleared_endSession hd hc
  have before := (State.calm_callReset hk _ seat true).trans ((State.calm_sleepClear hk waiting).trans (s.calm_endSession hk seat))
  unfold State.unattended
  dsimp only
  generalize ((s.endSession seat).sleepClear seat).callReset seat true = v at before ⊢
  exact ite_keeps (State.actWord k) ((State.calm_prReset hk _ seat).trans before) before

theorem State.prReset_seats (s : State) (n : Nat) : (s.prReset n).seats = s.seats := rfl

theorem State.cleared_unattended {s : State} {seat : Nat} (hd : (s.seat seat).done = [])
    (hc : ∀ c ∈ (s.seat seat).cmds, bootTag ≤ c.tag) : ((s.unattended seat).seat seat).Cleared := by
  have cleared := State.cleared_sleepClear (State.cleared_endSession hd hc)
  have reset := State.seat_of_seats (((s.endSession seat).sleepClear seat).callReset_seats seat true) seat
  unfold State.unattended
  dsimp only
  generalize ((s.endSession seat).sleepClear seat).callReset seat true = v at reset ⊢
  have prompter : (if seat < v.model.prompters then v.prReset seat else v).seats = v.seats :=
    ite_keeps State.seats (v.prReset_seats seat) rfl
  rw [State.seat_of_seats prompter, reset]
  exact cleared

theorem State.queuesOff_bind (s : State) (seat : Nat) {f : Fld} (hf : f.off = 0x40) :
    (s.queuesOff seat).fld (.seat seat) f = s.fld (.seat seat) f := by
  have other : ∀ i < 4, ∀ g ∈ pairFields i, g.off ≠ 0x40 := by decide
  refine foldl_keeps (State.fld · (.seat seat) f) (fun t i hi => ?_) s
  refine t.pairOff_writes seat i (.seat seat) f (fun w hw => .inl ?_)
  obtain ⟨g, hg, rfl⟩ := List.mem_map.mp hw
  exact fun e => other i (List.mem_range.mp hi) g hg ((Nat.add_left_cancel e).symm.trans hf)

theorem State.undegraded_fld (s : State) (seat : Nat) (b : Blk) (f : Fld) : (s.undegraded seat).fld b f = s.fld b f := rfl

theorem State.undegraded_seats (s : State) (seat : Nat) : (s.undegraded seat).seats = s.seats := rfl

theorem State.PairOff.undegraded {s : State} {seat i : Nat} (h : s.PairOff seat i) : (s.undegraded seat).PairOff seat i := h

/-- What a reset of a seat shows: none of its host's commands, completions or sessions, no queue, and its binding. -/
structure State.SeatCleared (t : State) (seat : Nat) : Prop where
  record : (t.seat seat).Cleared
  queues : ∀ i < 4, t.PairOff seat i

theorem State.bareSeat_seat (s : State) (seat : Nat) : (s.bareSeat seat).seat seat = (s.seat seat).bare :=
  (State.seat_of_seats ((State.undegraded_seats _ seat).trans (State.queuesOff_seats _ seat)) seat).trans
    (s.seat_setSeat_same seat _)

theorem State.bareSeat_off (s : State) (seat : Nat) {i : Nat} (hi : i < 4) : (s.bareSeat seat).PairOff seat i :=
  (State.queuesOff_off _ seat hi).undegraded

theorem State.bareSeat_bind (s : State) {seat : Nat} (h8 : seat < 8) {f : Fld} (hf : f.off = 0x40) :
    (s.bareSeat seat).fld (.seat seat) f = s.fld (.seat seat) f :=
  (State.undegraded_fld _ seat _ f).trans ((State.queuesOff_bind _ seat hf).trans
    (State.fld_of_actWord (State.calm_setSeat (calm_seat h8 (.inl hf)) _ _ _)))

theorem State.SeatCleared.of_bare {s : State} {seat : Nat} (h8 : seat < 8) (hd : (s.seat seat).done = [])
    (hc : ∀ c ∈ (s.seat seat).cmds, bootTag ≤ c.tag) (off : ∀ i < 4, s.PairOff seat i) :
    (s.unattended seat).SeatCleared seat := by
  refine ⟨State.cleared_unattended hd hc, fun i hi => ?_⟩
  have place : ∀ j < 4, ∀ f ∈ pairFields j, 0x60 ≤ f.off ∧ f.off < 0x1000 := by decide
  obtain ⟨sqEn, cqEn, tail, head⟩ := off i hi
  have stays (f : Fld) (hf : f ∈ pairFields i) : (s.unattended seat).fld (.seat seat) f = s.fld (.seat seat) f :=
    State.fld_of_actWord (State.calm_unattended (calm_seat h8 (.inr (place i hi f hf))) hd hc)
  exact ⟨(State.bit_eq_of_fld (stays _ (by simp [pairFields]))).trans sqEn,
    (State.bit_eq_of_fld (stays _ (by simp [pairFields]))).trans cqEn, (stays _ (by simp [pairFields])).trans tail,
    (stays _ (by simp [pairFields])).trans head⟩

theorem State.seatReset_shows (s : State) {seat : Nat} (h8 : seat < 8) :
    (s.seatReset seat).SeatCleared seat ∧ ∀ f : Fld, f.off = 0x40 →
      (s.seatReset seat).fld (.seat seat) f = s.fld (.seat seat) f := by
  rw [State.seatReset_eq]
  have letGo (f : Fld) (hf : f.off = 0x40) : (s.letGo seat).fld (.seat seat) f = s.fld (.seat seat) f :=
    State.fld_of_actWord (s.calm_letGo (calm_seat h8 (.inl hf)) seat)
  generalize s.letGo seat = u at letGo ⊢
  have bare := u.bareSeat_seat seat
  have hd : ((u.bareSeat seat).seat seat).done = [] := congrArg SeatState.done bare
  have hc : ∀ c ∈ ((u.bareSeat seat).seat seat).cmds, bootTag ≤ c.tag := by
    rw [bare]
    exact fun c hc => of_decide_eq_true (List.mem_filter.mp hc).2
  refine ⟨.of_bare h8 hd hc (fun i hi => u.bareSeat_off seat hi), fun f hf => ?_⟩
  exact (State.fld_of_actWord (State.calm_unattended (calm_seat h8 (.inl hf)) hd hc)).trans
    ((u.bareSeat_bind h8 hf).trans (letGo f hf))

end Sys2Proof.Machine
end

section
/-! PROOFS. Seat reset and binding, loss and return of a host, the grace period (R395, R414 to R416). -/

namespace Sys2Proof.Machine

open Sys2Proof

/-! Reset and binding -/

/-- The status registers at a command's end leave a cleared seat cleared. -/
theorem State.SeatCleared.settled {t : State} {seat : Nat} (h : t.SeatCleared seat) : t.settled.SeatCleared seat := by
  obtain ⟨record, queues⟩ := h
  refine ⟨by rw [State.seat_settled]; exact record, fun i hi => ?_⟩
  obtain ⟨tail, en, -, head, -, cq, -⟩ := queue_fields hi
  obtain ⟨sqEn, cqEn, sqTail, sqHead⟩ := queues i hi
  exact ⟨(State.bit_eq_of_fld (t.queue_fld_settled seat en)).trans sqEn,
    (State.bit_eq_of_fld (t.queue_fld_settled seat cq)).trans cqEn, (t.queue_fld_settled seat tail).trans sqTail,
    (t.queue_fld_settled seat head).trans sqHead⟩

/-- What the statement asks of a cleared seat. -/
theorem State.SeatCleared.shows {t : State} {seat : Nat} (h : t.SeatCleared seat) :
    (t.seat seat).done = [] ∧ (∀ c ∈ (t.seat seat).cmds, bootTag ≤ c.tag) ∧ (t.seat seat).sd.session = 0 ∧
      ∀ i, i < 4 → t.bit (.seat seat) (Reg.Seat.SQ_EN i) = false ∧ t.bit (.seat seat) (Reg.Seat.CQ_EN i) = false ∧
        t.fld (.seat seat) (Reg.Seat.SQ_TAIL i) = 0 ∧ t.fld (.seat seat) (Reg.Seat.SQ_HEAD i) = 0 := by
  obtain ⟨⟨done, cmds, session, -⟩, queues⟩ := h
  exact ⟨done, cmds, session, queues⟩

theorem exec_seatReset {s : State} {seat : Nat} (hs : seat < s.model.seats) : exec (.seatReset seat) s = settle (s.seatReset seat) :=
  congrArg settle (if_pos hs)

theorem seatReset_answers {s : State} {seat : Nat} (hs : seat < s.model.seats) (h8 : seat < 8) :
    Answers (.seatReset seat) s (fun t => t.SeatCleared seat) :=
  Answers.of_settle (exec_seatReset hs) (s.seatReset_shows h8).1.settled

/-- The state in which a binding has been written. -/
def State.bound (s : State) (seat kind index : Nat) : State :=
  (s.setBoth (.seat seat) Reg.Seat.BIND_KIND kind).setBoth (.seat seat) Reg.Seat.BIND_INDEX index

theorem State.bound_kind (s : State) (seat : Nat) {kind index : Nat} (hk : kind < 4) :
    (s.bound seat kind index).fld (.seat seat) Reg.Seat.BIND_KIND = kind :=
  (State.fld_setBoth_apart _ _ _ (by decide)).trans ((State.fld_setBoth_same _ _ _ ⟨by decide, by decide⟩).trans
    (Nat.mod_eq_of_lt hk))

theorem State.bound_index (s : State) (seat : Nat) {kind index : Nat} (hi : index < 4) :
    (s.bound seat kind index).fld (.seat seat) Reg.Seat.BIND_INDEX = index :=
  (State.fld_setBoth_same _ _ _ ⟨by decide, by decide⟩).trans (Nat.mod_eq_of_lt hi)

/-- The host of a bound seat is there, and no grace period runs. -/
def State.hostHere (s : State) (seat : Nat) : State :=
  ((((s.set (.seat seat) Reg.Seat.STATUS_HOST_LOST 0).set (.seat seat) Reg.Seat.GRACE_LEFT 0)).showAttached seat).showWake

theorem State.hostHere_seats (s : State) (seat : Nat) : (s.hostHere seat).seats = s.seats := rfl

/-- Fields of the seat's page that stand apart from those of the host's presence. -/
theorem State.hostHere_fld (s : State) {seat : Nat} (h8 : seat < 8) {f : Fld} (lost : Apart Reg.Seat.STATUS_HOST_LOST f)
    (grace : Apart Reg.Seat.GRACE_LEFT f) (attached : Apart Reg.Seat.STATUS_ATTACHED f) (hf : f.off < 0x1000) :
    (s.hostHere seat).fld (.seat seat) f = s.fld (.seat seat) f := by
  unfold State.hostHere State.showWake State.showAttached State.setBit
  dsimp only
  rw [State.fld_set_word _ _ _ _ _ _ (by simp only [Blk.base, Reg.Greenroom.WAKE_DRIVEN]; omega),
    State.fld_set_apart _ _ _ attached, State.fld_set_apart _ _ _ grace, State.fld_set_apart _ _ _ lost]

theorem State.hostHere_lost (s : State) {seat : Nat} (h8 : seat < 8) : (s.hostHere seat).hostLost seat = false := by
  refine State.bit_iff_fld _ _ _ false ?_
  unfold State.hostHere State.showWake State.showAttached State.setBit
  dsimp only
  rw [State.fld_set_word _ _ _ _ _ _ (by simp only [Blk.base, Reg.Seat.STATUS_HOST_LOST, Reg.Greenroom.WAKE_DRIVEN]; omega),
    State.fld_set_apart _ _ _ (by decide), State.fld_set_apart _ _ _ (by decide)]
  exact State.fld_set_same _ _ _ _ ⟨by decide, by decide⟩

theorem State.SeatCleared.hostHere {s : State} {seat : Nat} (h8 : seat < 8) (h : s.SeatCleared seat) :
    (s.hostHere seat).SeatCleared seat := by
  obtain ⟨record, queues⟩ := h
  refine ⟨(congrArg SeatState.Cleared (State.seat_of_seats (s.hostHere_seats seat) seat)).mpr record, fun i hi => ?_⟩
  have aside : ∀ j < 4, ∀ f ∈ pairFields j, Apart Reg.Seat.STATUS_HOST_LOST f ∧ Apart Reg.Seat.GRACE_LEFT f ∧
    Apart Reg.Seat.STATUS_ATTACHED f ∧ f.off < 0x1000 := by decide
  have kept (f : Fld) (hf : f ∈ pairFields i) : (s.hostHere seat).fld (.seat seat) f = s.fld (.seat seat) f := by
    obtain ⟨lost, grace, attached, off⟩ := aside i hi f hf
    exact s.hostHere_fld h8 lost grace attached off
  obtain ⟨sqEn, cqEn, tail, head⟩ := queues i hi
  exact ⟨(State.bit_eq_of_fld (kept _ (by simp [pairFields]))).trans sqEn,
    (State.bit_eq_of_fld (kept _ (by simp [pairFields]))).trans cqEn, (kept _ (by simp [pairFields])).trans tail,
    (kept _ (by simp [pairFields])).trans head⟩

theorem exec_bind {s : State} {seat kind index : Nat} (hs : seat < s.model.seats) (hk : kind < 4) (hi : index < 4)
    (may : s.bindable kind index = true) :
    exec (.bind seat kind index) s = settle (((s.bound seat kind index).seatReset seat).hostHere seat) := by
  refine congrArg settle ((if_pos hs).trans ?_)
  rw [Nat.mod_eq_of_lt hk, Nat.mod_eq_of_lt hi]
  exact if_pos may

theorem bind_answers {s : State} {seat kind index : Nat} (hs : seat < s.model.seats) (h8 : seat < 8) (hk : kind < 4)
    (hi : index < 4) (may : s.bindable kind index = true) : Answers (.bind seat kind index) s (fun t =>
      t.SeatCleared seat ∧ t.fld (.seat seat) Reg.Seat.BIND_KIND = kind ∧ t.fld (.seat seat) Reg.Seat.BIND_INDEX = index ∧
        t.hostLost seat = false) := by
  obtain ⟨cleared, stays⟩ := (s.bound seat kind index).seatReset_shows h8
  refine Answers.of_settle (exec_bind hs hk hi may) ⟨(cleared.hostHere h8).settled, ?_, ?_, ?_⟩
  · rw [State.seat_fld_settled _ _ (by decide) (by decide), State.hostHere_fld _ h8 (by decide) (by decide) (by decide) (by decide),
      stays _ rfl]
    exact s.bound_kind seat hk
  · rw [State.seat_fld_settled _ _ (by decide) (by decide), State.hostHere_fld _ h8 (by decide) (by decide) (by decide) (by decide),
      stays _ rfl]
    exact s.bound_index seat hi
  · exact (State.bit_eq_of_fld (State.seat_fld_settled _ _ (by decide) (by decide))).trans (State.hostHere_lost _ h8)

/-- A seat's logged error is shown. -/
theorem State.logErr_valid (s : State) (b : Blk) (off reason seat : Nat) :
    (s.logErr b off reason seat).fld b Reg.Hdr.ERR_VALID = 1 := by
  unfold State.logErr
  split
  · next valid =>
    rw [State.fld_set_bits _ _ _ _ _ _ (by decide)]
    unfold State.bit at valid
    have small : s.fld b Reg.Hdr.ERR_VALID < 2 := regGet_lt _ _ _ ⟨by decide, by decide⟩
    have some_ : s.fld b Reg.Hdr.ERR_VALID ≠ 0 := by simpa using valid
    omega
  · exact State.fld_set_same _ _ _ _ ⟨by decide, by decide⟩

theorem bind_answers_refused {s : State} {seat kind index : Nat} (hs : seat < s.model.seats) (hk : kind < 4)
    (hi : index < 4) (mayNot : s.bindable kind index = false) : Answers (.bind seat kind index) s (fun t =>
      OnlyWords s t [wordAt (.seat seat) Reg.Hdr.ERR_VALID] ∧ t.fld (.seat seat) Reg.Hdr.ERR_VALID = 1) := by
  have refused : exec (.bind seat kind index) s = settle (s.logErr (.seat seat) 0x40 4 0) := by
    refine congrArg settle ((if_pos hs).trans ?_)
    rw [Nat.mod_eq_of_lt hk, Nat.mod_eq_of_lt hi]
    exact if_neg (Bool.eq_false_iff.mp mayNot)
  refine Answers.of_settle refused ⟨(s.logErr_only (.seat seat) 0x40 4 0).settled, ?_⟩
  rw [State.seat_fld_settled _ _ (by decide) (by decide)]
  exact s.logErr_valid _ _ _ _

theorem functionLevelReset_answers {s : State} {link fn q : Nat} (hl : link = 1 ∨ link = 2)
    (one : (s.seatsOn link).filter (fun q => s.bindIndex q = fn) = [q]) :
    Answers (.functionLevelReset link fn) s (fun t => exec (.seatReset q) s = .next t) := by
  have there : q ∈ (s.seatsOn link).filter (fun q => s.bindIndex q = fn) := by rw [one]; exact List.mem_singleton_self q
  have hq : q < s.model.seats := List.mem_range.mp (List.mem_filter.mp (List.mem_filter.mp there).1).1
  have link_ : (decide (link = 1) || decide (link = 2)) = true := by simpa using hl
  refine Answers.of_settle (u := s.seatReset q) (congrArg settle ?_) (exec_seatReset hq)
  rw [link_]
  simp only [Bool.and_true]
  rw [one]
  rfl

/-! Loss of the host (R415) -/

/-- A seat's fields that the count of its commands does not share a bit with stay while operations are suspended. -/
theorem State.seat_fld_setCmd (s : State) (c : Cmd) (q : Nat) {f : Fld} (h : Apart Reg.Seat.STATUS_IN_FLIGHT f)
    (hf : f.off < 0x1000) : (s.setCmd c).fld (.seat q) f = s.fld (.seat q) f := State.seat_fld_setSeat _ _ _ _ h hf

theorem State.seat_fld_post (s : State) (c : Cmd) (st r0 r1 : Nat) (i : Bool) (q : Nat) {f : Fld}
    (h : Apart Reg.Seat.STATUS_IN_FLIGHT f) (hf : f.off < 0x1000) : (s.post c st r0 r1 i).fld (.seat q) f = s.fld (.seat q) f :=
  ite_keeps (State.fld · (.seat q) f) rfl (State.seat_fld_setSeat _ _ _ _ h hf)

theorem State.seat_fld_suspendNow (s : State) (c : Cmd) (q : Nat) {f : Fld} (h : Apart Reg.Seat.STATUS_IN_FLIGHT f)
    (hf : f.off < 0x1000) : (s.suspendNow c).fld (.seat q) f = s.fld (.seat q) f :=
  (State.seat_fld_post _ _ _ _ _ _ q h hf).trans (State.seat_fld_setCmd _ _ q h hf)

/-- The seat's fields as its host is noted lost. -/
def State.lostNoted (s : State) (seat : Nat) : State :=
  ((s.set (.seat seat) Reg.Seat.STATUS_HOST_LOST 1).event (.seat seat) 3).set (.seat seat) Reg.Seat.GRACE_LEFT 10000

theorem State.loseHost_fld {s : State} {seat : Nat} (here : s.hostLost seat = false) {f : Fld}
    (h : Apart Reg.Seat.STATUS_IN_FLIGHT f) (attached : Apart Reg.Seat.STATUS_ATTACHED f) (hf : f.off < 0x1000) :
    (s.loseHost seat).fld (.seat seat) f = (s.lostNoted seat).fld (.seat seat) f := by
  refine (congrArg (State.fld · (.seat seat) f) (if_neg (Bool.eq_false_iff.mp here))).trans ?_
  refine (State.fld_set_apart _ _ _ attached).trans ((foldl_keeps (State.fld · (.seat seat) f) (fun t c _ => ?_) _).trans
    (State.seat_fld_setSeat _ _ _ _ h hf))
  split
  · exact t.seat_fld_suspendNow c seat h hf
  · exact ite_keeps (State.fld · (.seat seat) f) (t.seat_fld_suspendNow c seat h hf) (t.seat_fld_setCmd _ seat h hf)
  · rfl

theorem State.lostNoted_lost (s : State) (seat : Nat) : (s.lostNoted seat).fld (.seat seat) Reg.Seat.STATUS_HOST_LOST = 1 :=
  (State.fld_set_apart _ _ _ (by decide)).trans ((State.fld_event_apart _ _ _ (by decide)).trans
    (State.fld_set_same _ _ _ _ ⟨by decide, by decide⟩))

/-- A seat that loses its host has HOST_LOST set. -/
theorem State.loseHost_lost (s : State) (seat : Nat) : (s.loseHost seat).hostLost seat = true := by
  by_cases here : s.hostLost seat = false
  · exact State.bit_iff_fld _ _ _ true ((State.loseHost_fld here (by decide) (by decide) (by decide)).trans (s.lostNoted_lost seat))
  · have lost : s.hostLost seat = true := Bool.eq_true_of_not_eq_false here
    have shown : s.loseHost seat = s.showAttached seat := if_pos lost
    rw [shown]
    exact (State.bit_eq_of_fld (State.fld_set_apart _ _ _ (by decide))).trans lost

theorem State.loseHost_shows {s : State} {seat : Nat} (here : s.hostLost seat = false) :
    (s.loseHost seat).fld (.seat seat) Reg.Seat.GRACE_LEFT = 10000 ∧
      ((s.loseHost seat).fld (.seat seat) Reg.Hdr.EVENTS).testBit 3 = true := by
  refine ⟨?_, ?_⟩
  · rw [State.loseHost_fld here (by decide) (by decide) (by decide)]
    exact State.fld_set_same _ _ _ _ ⟨by decide, by decide⟩
  · rw [State.loseHost_fld here (by decide) (by decide) (by decide)]
    unfold State.lostNoted
    rw [State.fld_set_apart _ _ _ (by decide)]
    exact State.event_recorded _ _ (by decide)

theorem State.loseHost_hosts (s : State) (seat : Nat) : (s.loseHost seat).hosts = s.hosts := by
  have suspend (t : State) (c : Cmd) : (t.suspendNow c).hosts = t.hosts := ite_keeps (s := t) State.hosts rfl rfl
  have event (t : State) (i : Nat) : (t.event (.seat seat) i).hosts = t.hosts := State.event_hosts _ _ _
  unfold State.loseHost
  refine ite_keeps State.hosts rfl ((foldl_keeps State.hosts (fun t c _ => ?_) _).trans (event _ 3))
  split
  · exact suspend t c
  · exact ite_keeps State.hosts (suspend t c) rfl
  · rfl

theorem State.hostLost_settled (s : State) (q : Nat) : s.settled.hostLost q = s.hostLost q :=
  State.bit_eq_of_fld (State.seat_fld_settled _ _ (by decide) (by decide))

/-- The links of the hosts as one goes down, or comes up. -/
def Hosts.down (h : Hosts) (link : Nat) (perst : Bool) : Hosts :=
  if link = 1 then { h with upA := false, perstA := h.perstA || perst } else { h with upB := false, perstB := h.perstB || perst }

def Hosts.up (h : Hosts) (link : Nat) : Hosts :=
  if link = 1 then { h with upA := true, perstA := false } else { h with upB := true, perstB := false }

theorem exec_pcieLinkDown {s : State} {link q : Nat} (perst : Bool) (hl : link = 1 ∨ link = 2) (one : s.seatsOn link = [q]) :
    exec (.pcieLinkDown link perst) s = settle (({ s with hosts := s.hosts.down link perst } : State).loseHost q) := by
  refine congrArg settle ((if_pos hl).trans ?_)
  exact congrArg (List.foldl State.loseHost _) one

theorem pcieLinkDown_answers {s : State} {link q : Nat} (perst : Bool) (hl : link = 1 ∨ link = 2) (one : s.seatsOn link = [q]) :
    Answers (.pcieLinkDown link perst) s (fun t => t.linkUp link = false ∧ t.hostLost q = true ∧
      (s.hostLost q = false → t.fld (.seat q) Reg.Seat.GRACE_LEFT = 10000 ∧
        (t.fld (.seat q) Reg.Hdr.EVENTS).testBit 3 = true)) := by
  refine Answers.of_settle (exec_pcieLinkDown perst hl one) ⟨?_, ?_, fun here => ?_⟩
  · unfold State.linkUp
    rw [State.settled_hosts, State.loseHost_hosts]
    rcases hl with rfl | rfl <;> rfl
  · rw [State.hostLost_settled]
    exact State.loseHost_lost _ _
  · rw [State.seat_fld_settled _ _ (by decide) (by decide), State.seat_fld_settled _ _ (by decide) (by decide)]
    exact State.loseHost_shows here

theorem stagedoorSilence_answers {s : State} {seat : Nat} (hs : seat < s.model.seats) (door : s.isStagedoor seat = true)
    (session : (s.seat seat).sd.session ≠ 0) (silent : (s.seat seat).sd.heardAt + 3 * s.fs ≤ s.render.tick)
    (here : s.hostLost seat = false) : Answers (.stagedoorSilence seat) s (fun t => t.hostLost seat = true ∧
      t.fld (.seat seat) Reg.Seat.GRACE_LEFT = 10000 ∧ (t.fld (.seat seat) Reg.Hdr.EVENTS).testBit 3 = true) := by
  have due : (decide (seat < s.model.seats) && s.isStagedoor seat && decide ((s.seat seat).sd.session ≠ 0) &&
      decide ((s.seat seat).sd.heardAt + 3 * s.fs ≤ s.render.tick)) = true := by
    rw [door, decide_eq_true hs, decide_eq_true session, decide_eq_true silent]
    rfl
  refine Answers.of_settle (u := s.loseHost seat) (congrArg settle (if_pos due)) ⟨?_, ?_⟩
  · rw [State.hostLost_settled]
    exact State.loseHost_lost _ _
  · rw [State.seat_fld_settled _ _ (by decide) (by decide), State.seat_fld_settled _ _ (by decide) (by decide)]
    exact State.loseHost_shows here

/-! Return of the host (R405, R415) -/

theorem exec_pcieLinkUp {s : State} {link q : Nat} (hl : link = 1 ∨ link = 2) (one : s.seatsOn link = [q])
    (warm : (if link = 1 then s.hosts.perstA else s.hosts.perstB) = false) :
    exec (.pcieLinkUp link) s = settle (({ s with hosts := s.hosts.up link } : State).hostBack q) := by
  refine congrArg settle ((if_pos hl).trans ?_)
  refine (congrArg (List.foldl _ _) one).trans ?_
  exact if_neg (Bool.eq_false_iff.mp warm)

/-- The host of a seat is back. -/
theorem State.hostBack_shows {s : State} {seat : Nat} (lost : s.hostLost seat = true) :
    (s.hostBack seat).hosts = s.hosts ∧ (s.hostBack seat).hostLost seat = false ∧
      (s.hostBack seat).seat seat = { s.seat seat with
        graceEnd := 0, cmds := (s.seat seat).cmds.map (fun c => { c with upAt := s.render.tick }) } ∧
      ((s.hostBack seat).fld (.seat seat) Reg.Hdr.EVENTS).testBit 4 = true := by
  have back : s.hostBack seat = ((((s.setSeat seat { s.seat seat with
      graceEnd := 0, cmds := (s.seat seat).cmds.map (fun c => { c with upAt := s.render.tick }) }).set (.seat seat)
      Reg.Seat.STATUS_HOST_LOST 0).set (.seat seat) Reg.Seat.GRACE_LEFT 0).event (.seat seat) 4).showAttached seat := if_pos lost
  rw [back]
  generalize hq : s.setSeat seat _ = u
  have hosts : u.hosts = s.hosts := by rw [← hq]; rfl
  have seat_ := congrArg (State.seat · seat) hq
  rw [State.seat_setSeat_same] at seat_
  refine ⟨?_, State.bit_iff_fld _ _ _ false ?_, ?_, ?_⟩ <;> unfold State.showAttached State.setBit
  · exact (State.event_hosts _ _ _).trans hosts
  · rw [State.fld_set_apart _ _ _ (by decide), State.fld_event_apart _ _ _ (by decide), State.fld_set_apart _ _ _ (by decide)]
    exact State.fld_set_same _ _ _ _ ⟨by decide, by decide⟩
  · rw [State.seat_set, State.seat_of_seats (State.event_seats _ _ _), State.seat_set, State.seat_set]
    exact seat_.symm
  · rw [State.fld_set_apart _ _ _ (by decide)]
    exact State.event_recorded _ _ (by decide)

theorem pcieLinkUp_answers {s : State} {link q : Nat} (hl : link = 1 ∨ link = 2) (one : s.seatsOn link = [q])
    (warm : (if link = 1 then s.hosts.perstA else s.hosts.perstB) = false) (lost : s.hostLost q = true) :
    Answers (.pcieLinkUp link) s (fun t => t.linkUp link = true ∧ t.hostLost q = false ∧ (t.seat q).graceEnd = 0 ∧
      (t.seat q).cmds = (s.seat q).cmds.map (fun c => { c with upAt := s.render.tick }) ∧
      (t.fld (.seat q) Reg.Hdr.EVENTS).testBit 4 = true) := by
  obtain ⟨hosts, here, seat_, event⟩ := State.hostBack_shows (s := { s with hosts := s.hosts.up link }) (seat := q) lost
  refine Answers.of_settle (exec_pcieLinkUp hl one warm) ⟨?_, (State.hostLost_settled _ _).trans here, ?_, ?_, ?_⟩
  · unfold State.linkUp
    rw [State.settled_hosts, hosts]
    rcases hl with rfl | rfl <;> rfl
  · rw [State.seat_settled, seat_]
  · rw [State.seat_settled, seat_]
    rfl
  · rw [State.seat_fld_settled _ _ (by decide) (by decide)]
    exact event

/-! The end of the grace period (R415) -/

theorem graceExpire_answers {s : State} {seat : Nat} (lost : s.hostLost seat = true) (runs : 0 < (s.seat seat).graceEnd)
    (past : (s.seat seat).graceEnd ≤ s.render.tick)
    (none_ : ∀ c ∈ (s.seat seat).cmds, c.state ≠ .suspended ∨ c.final = true) :
    Answers (.graceExpire seat) s (fun t => (t.seat seat).graceEnd = 0 ∧ t.fld (.seat seat) Reg.Seat.GRACE_LEFT = 0 ∧
      (t.seat seat).cmds = (s.seat seat).cmds) := by
  have due : (s.hostLost seat && decide (0 < (s.seat seat).graceEnd) && decide ((s.seat seat).graceEnd ≤ s.render.tick)) = true := by
    rw [lost, decide_eq_true runs, decide_eq_true past]
    rfl
  have empty : (s.seat seat).cmds.filter (fun c => decide (c.state = .suspended) && !c.final) = [] := by
    refine List.filter_eq_nil_iff.mpr (fun c hc => ?_)
    rcases none_ c hc with h | h <;> simp [h]
  refine Answers.of_settle (u := (s.setSeat seat { s.seat seat with graceEnd := 0 }).set (.seat seat) Reg.Seat.GRACE_LEFT 0)
    (congrArg settle ((if_pos due).trans (congrArg (List.foldl _ _) empty))) ⟨?_, ?_, ?_⟩
  · rw [State.seat_settled, State.seat_set, State.seat_setSeat_same]
  · rw [State.seat_fld_settled _ _ (by decide) (by decide)]
    exact State.fld_set_same _ _ _ _ ⟨by decide, by decide⟩
  · rw [State.seat_settled, State.seat_set, State.seat_setSeat_same]

/-- Settles O53: a reset leaves the seat bare and its queues disabled and writes no word of its binding; losing and getting
back a host are chains of writes to fields of the seat's page that stand apart. -/
theorem seatsAndHosts : Obligations.SeatsAndHosts := by
  unfold Obligations.SeatsAndHosts
  refine ⟨fun s seat hs h8 => ⟨(seatReset_answers hs h8).imp fun _ h => h.shows, fun kind index hk hi => ⟨fun may => ?_,
      bind_answers_refused hs hk hi⟩, fun door session silent here => stagedoorSilence_answers hs door session silent here,
      graceExpire_answers⟩, fun s link fn q hl one => functionLevelReset_answers hl one,
    fun s link q perst hl _ one => ⟨pcieLinkDown_answers perst hl one, pcieLinkUp_answers hl one⟩⟩
  exact (bind_answers hs h8 hk hi may).imp fun _ ⟨cleared, kind_, index_, here⟩ => ⟨cleared.shows, kind_, index_, here⟩

end Sys2Proof.Machine
end

section
/-! PROOFS. Stagedoor: what an authenticated message changes before it acts, and what the module sends (R418 to R423). -/

namespace Sys2Proof.Machine

open Sys2Proof

/-! The Stagedoor state of a seat -/

theorem State.seat_setSd (s : State) (q : Nat) (d : SdState) : (s.setSd q d).seat q = { s.seat q with sd := d } :=
  s.seat_setSeat_same q _

theorem State.sdOf_setSd (s : State) (q : Nat) (d : SdState) : (s.setSd q d).sdOf q = d := congrArg SeatState.sd (s.seat_setSd q d)

theorem State.setSeat_writes (s : State) (q : Nat) (v : SeatState) :
    Writes s (s.setSeat q v) [(.seat q, Reg.Seat.STATUS_IN_FLIGHT)] :=
  (Writes.of_act (t := { s with seats := s.seats.put {} q v }) rfl).set _ List.mem_cons_self

/-- The fields of a seat that an authenticated message may write before it acts: the peer's address, and the return of its
host. -/
def heardFields (q : Nat) : List (Blk × Fld) :=
  [(.seat q, Reg.Seat.STATUS_IN_FLIGHT), (.seat q, Reg.Seat.SD_PEER_IP), (.seat q, Reg.Seat.SD_PEER_PORT),
    (.seat q, Reg.Seat.STATUS_HOST_LOST), (.seat q, Reg.Seat.GRACE_LEFT), (.seat q, Reg.Hdr.EVENTS),
    (.seat q, Reg.Seat.STATUS_ATTACHED)]

/-- What an authenticated message of seat `q` leaves before it acts: the seat's Stagedoor state is `d`, its commands may count
their upload time anew, and nothing beside the fields named differs. -/
structure Heard (s v : State) (q : Nat) (d : SdState) : Prop where
  sd : v.sdOf q = d
  net : v.net = s.net
  pool : v.pool = s.pool
  render : v.render = s.render
  model : v.model = s.model
  free : v.free = s.free
  words : Writes s v (heardFields q)
  ring : (v.seat q).sdRing = (s.seat q).sdRing
  cmds : (v.seat q).cmds = (s.seat q).cmds ∨
    (v.seat q).cmds = (s.seat q).cmds.map (fun c => { c with upAt := s.render.tick })

theorem Heard.setSd {s v : State} {q : Nat} {d : SdState} (h : Heard s v q d) (d' : SdState) : Heard s (v.setSd q d') q d' where
  sd := v.sdOf_setSd q d'
  net := h.net
  pool := h.pool
  render := h.render
  model := h.model
  free := h.free
  words := h.words.trans ((v.setSeat_writes q _).mono (by simp [heardFields]))
  ring := (congrArg SeatState.sdRing (v.seat_setSd q d')).trans h.ring
  cmds := by rw [v.seat_setSd q d']; exact h.cmds

theorem Heard.refl (s : State) (q : Nat) : Heard s s q (s.sdOf q) :=
  ⟨rfl, rfl, rfl, rfl, rfl, rfl, Writes.refl _ _, rfl, .inl rfl⟩

theorem Heard.set {s v : State} {q : Nat} {d : SdState} (h : Heard s v q d) {f : Fld} (x : Nat)
    (hf : (Blk.seat q, f) ∈ heardFields q) : Heard s (v.set (.seat q) f x) q d where
  sd := h.sd
  net := h.net
  pool := h.pool
  render := h.render
  model := h.model
  free := h.free
  words := h.words.set x hf
  ring := h.ring
  cmds := h.cmds

theorem State.hostBack_net (s : State) (q : Nat) : (s.hostBack q).net = s.net ∧ (s.hostBack q).pool = s.pool ∧
    (s.hostBack q).render = s.render ∧ (s.hostBack q).model = s.model ∧ (s.hostBack q).free = s.free := by
  unfold State.hostBack State.showAttached State.setBit
  split
  · simp only [State.set_net, State.event_net, State.set_pool, State.event_pool, State.set_render, State.event_render,
      State.set_model, State.event_model, State.set_free, State.event_free]
    exact ⟨rfl, rfl, rfl, rfl, rfl⟩
  · exact ⟨rfl, rfl, rfl, rfl, rfl⟩

theorem State.hostBack_writes (s : State) (q : Nat) : Writes s (s.hostBack q) (heardFields q) := by
  have attached {t : State} (h : Writes s t (heardFields q)) : Writes s (t.showAttached q) (heardFields q) :=
    h.set _ (by simp [heardFields])
  unfold State.hostBack
  refine .ite ?_ (attached (.refl _ _))
  have seat_ (v : SeatState) : Writes s (s.setSeat q v) (heardFields q) := (s.setSeat_writes q v).mono (by simp [heardFields])
  exact attached (.event (.set (.set (seat_ _) 0 (by simp [heardFields])) 0 (by simp [heardFields])) 4 (by simp [heardFields]))

/-- The return of a seat's host is all that may differ in the seat: its grace period ends, and upload times start again. -/
theorem State.seat_hostBack (s : State) (q : Nat) : (s.hostBack q).seat q = s.seat q ∨ (s.hostBack q).seat q =
    { s.seat q with graceEnd := 0, cmds := (s.seat q).cmds.map (fun c => { c with upAt := s.render.tick }) } := by
  by_cases lost : s.hostLost q = true
  · obtain ⟨-, -, seat_, -⟩ := State.hostBack_shows lost
    exact .inr seat_
  · have kept : s.hostBack q = s.showAttached q := if_neg lost
    rw [kept]
    exact .inl rfl

theorem Heard.hostBack {s v : State} {q : Nat} {d : SdState} (h : Heard s v q d) (seat_ : (v.seat q).cmds = (s.seat q).cmds) :
    Heard s (v.hostBack q) q d := by
  obtain ⟨net, pool, render, model, free⟩ := v.hostBack_net q
  refine ⟨?_, net.trans h.net, pool.trans h.pool, render.trans h.render, model.trans h.model, free.trans h.free,
    h.words.trans (v.hostBack_writes q), ?_, ?_⟩ <;> rcases v.seat_hostBack q with e | e
  · exact (congrArg SeatState.sd e).trans h.sd
  · exact (congrArg SeatState.sd e).trans h.sd
  · exact (congrArg SeatState.sdRing e).trans h.ring
  · exact (congrArg SeatState.sdRing e).trans h.ring
  · exact .inl ((congrArg SeatState.cmds e).trans seat_)
  · refine .inr ((congrArg SeatState.cmds e).trans ?_)
    rw [← h.render, ← seat_]

/-- An authenticated message is heard (R397, R414, R415). -/
theorem State.heard_sdHeard (s : State) (q ip udp : Nat) :
    Heard s (s.sdHeard q ip udp) q { s.sdOf q with heardAt := s.render.tick } := by
  have noted := (((Heard.refl s q).setSd { s.sdOf q with heardAt := s.render.tick }).set (f := Reg.Seat.SD_PEER_IP) ip
    (by simp [heardFields])).set (f := Reg.Seat.SD_PEER_PORT) udp (by simp [heardFields])
  have seat_ : (((s.setSd q { s.sdOf q with heardAt := s.render.tick }).set (.seat q) Reg.Seat.SD_PEER_IP ip).set (.seat q)
      Reg.Seat.SD_PEER_PORT udp).seat q = { s.seat q with sd := { s.sdOf q with heardAt := s.render.tick } } := s.seat_setSd q _
  exact noted.hostBack (congrArg SeatState.cmds seat_ :)

/-- What lies above the seats' pages reads the same. -/
theorem Heard.fld_above {s v : State} {q : Nat} {d : SdState} (h : Heard s v q d) (h8 : q < 8) {b : Blk} (f : Fld)
    (hb : 0x18000 ≤ b.base) : v.fld b f = s.fld b f := by
  have low : ∀ j < 8, ∀ w ∈ heardFields j, wordAt w.1 w.2 < 0x18000 := by decide
  exact h.words b f (fun w hw => .inl (Nat.ne_of_gt ((low q h8 w hw).trans_le (Nat.le_add_right_of_le hb))))

theorem Heard.controlQueue {s v : State} {q : Nat} {d : SdState} (h : Heard s v q d) (h8 : q < 8) (p : Nat) :
    v.controlQueue p = s.controlQueue p := by
  unfold State.controlQueue State.queueUse
  simp only [h.fld_above h8 _ (show 0x18000 ≤ (Blk.ethMac p).base by simp only [Blk.base]; omega)]

theorem Heard.bindIndex {s v : State} {q : Nat} {d : SdState} (h : Heard s v q d) (h8 : q < 8) : v.bindIndex q = s.bindIndex q :=
  h.words _ _ ((show ∀ j < 8, ∀ w ∈ heardFields j, FldApart w.1 w.2 (.seat j) Reg.Seat.BIND_INDEX by decide) q h8)

theorem Heard.buffer {s v : State} {q : Nat} {d : SdState} (h : Heard s v q d) (n : Nat) : v.buffer n = s.buffer n := by
  unfold State.buffer
  rw [h.pool]

theorem Heard.hasEth {s v : State} {q : Nat} {d : SdState} (h : Heard s v q d) (p : Nat) : v.hasEth p = s.hasEth p := by
  unfold State.hasEth
  rw [h.model]

/-! What the module sends -/

theorem State.sdFrame_shape (s : State) (q type flags seq : Nat) (ws : List Word) (ack : Option Nat) :
    ∃ n, s.sdFrame q type flags seq ws ack = { s with net := n } := by
  unfold State.sdFrame
  dsimp only
  split
  · split
    · exact ⟨_, rfl⟩
    · exact ⟨s.net, rfl⟩
  · exact ⟨s.net, rfl⟩

/-- A frame joins the CONTROL queue of the seat's port. -/
theorem State.sdFrame_queued {s : State} {q p c : Nat} (bound : s.bindIndex q = p) (control : s.controlQueue p = some c)
    (eth : s.hasEth p = true) (type flags seq : Nat) (ws : List Word) :
    s.sdFrame q type flags seq ws = s.enqueue p c
      { len := 86 + 4 * ws.length, body := .stagedoor q type flags seq (s.sdOf q).inOrder (s.sdOf q).session ws } := by
  subst bound
  unfold State.sdFrame
  dsimp only
  rw [show s.controlQueue (s.fld (.seat q) Reg.Seat.BIND_INDEX) = some c from control]
  exact if_pos eth

theorem State.sdNumbered_eq {s : State} {q : Nat} (session : (s.sdOf q).session ≠ 0) (type flags : Nat) (ws : List Word)
    (ack : Option Nat) : s.sdNumbered q type flags ws ack =
      (s.setSd q { s.sdOf q with txSeq := (s.sdOf q).txSeq + 1 }).sdFrame q type flags ((s.sdOf q).txSeq + 1) ws ack :=
  if_neg session

theorem State.sdOf_of_net (s : State) (n : Net) (q : Nat) : ({ s with net := n } : State).sdOf q = s.sdOf q := rfl

/-- A numbered message takes the next sequence number. -/
theorem State.sdOf_sdNumbered {s : State} {q : Nat} (session : (s.sdOf q).session ≠ 0) (type flags : Nat) (ws : List Word)
    (ack : Option Nat) :
    (s.sdNumbered q type flags ws ack).sdOf q = { s.sdOf q with txSeq := (s.sdOf q).txSeq + 1 } := by
  rw [State.sdNumbered_eq session]
  obtain ⟨n, hn⟩ := (s.setSd q { s.sdOf q with txSeq := (s.sdOf q).txSeq + 1 }).sdFrame_shape q type flags
    ((s.sdOf q).txSeq + 1) ws ack
  rw [hn, State.sdOf_of_net, State.sdOf_setSd]

/-- With nothing waiting, sending what waits changes nothing of the Stagedoor state. -/
theorem State.sdFlush_keeps {s : State} {q : Nat} (h : (s.sdOf q).waiting = []) : (s.sdFlush q).sdOf q = s.sdOf q ∧
    (s.sdFlush q).net = s.net ∧ ((s.sdFlush q).seat q).cmds = (s.seat q).cmds ∧
    ((s.sdFlush q).seat q).sdRing = (s.seat q).sdRing ∧ Writes s (s.sdFlush q) [(.seat q, Reg.Seat.STATUS_IN_FLIGHT)] := by
  rcases State.sdFlush_none h with e | e <;> rw [e]
  · exact ⟨rfl, rfl, rfl, rfl, Writes.refl _ _⟩
  · have seat_ := s.seat_setSeat_same q { s.seat q with sd := { (s.seat q).sd with waiting := [] } }
    have same : { (s.seat q).sd with waiting := [] } = (s.seat q).sd := by
      rw [← show (s.seat q).sd.waiting = [] from h]
    exact ⟨(congrArg SeatState.sd seat_).trans same, rfl, (congrArg SeatState.cmds seat_ :), (congrArg SeatState.sdRing seat_ :),
      s.setSeat_writes q _⟩

end Sys2Proof.Machine
end

section
/-! PROOFS. Stagedoor: authentication, sessions, replays, and the messages of a host (R418 to R424). -/

namespace Sys2Proof.Machine

open Sys2Proof

/-! Authentication (R420) -/

/-- A message carries the tag of the key of a seat bound to the port. -/
def State.Tagged (s : State) (p : Nat) (msg : List Byte) (m : SdHead) : Prop :=
  s.sdBound p m.seat = true ∧ s.bit (.seat m.seat) Reg.Seat.STATUS_KEY_VALID = true ∧
    ∃ key, (s.sdOf m.seat).key = some key ∧ sdTag key (msg.take (msg.length - 16)) = msg.drop (msg.length - 16)

/-- The check that the module makes. -/
def State.sdGood (s : State) (p : Nat) (msg : List Byte) (m : SdHead) : Bool :=
  match (s.sdOf m.seat).key with
  | some key => s.sdBound p m.seat && s.bit (.seat m.seat) Reg.Seat.STATUS_KEY_VALID &&
      sdTag key (msg.take (msg.length - 16)) = msg.drop (msg.length - 16)
  | none => false

theorem State.sdGood_iff (s : State) (p : Nat) (msg : List Byte) (m : SdHead) : s.sdGood p msg m = true ↔ s.Tagged p msg m := by
  unfold State.sdGood State.Tagged
  cases (s.sdOf m.seat).key with
  | none => simp
  | some key => simp [and_assoc]

theorem State.sdBound_first {s : State} {p q : Nat} (h : s.sdBound p q = true) :
    ∃ first, (List.range s.model.seats).find? (s.sdBound p) = some first := by
  have here := h
  simp only [State.sdBound, Bool.and_eq_true, decide_eq_true_eq] at here
  obtain ⟨⟨below, -⟩, -⟩ := here
  exact Option.isSome_iff_exists.mp (List.find?_isSome.mpr ⟨q, List.mem_range.mpr below, h⟩)

/-- What an authenticated message does. -/
def State.sdAuthentic (s : State) (p ip udp : Nat) (m : SdHead) : State :=
  let s := s.sdHeard m.seat ip udp
  let d := s.sdOf m.seat
  if m.type = 6 ∧ m.session = 0 then s.sdHello m.seat
  else if d.session = 0 ∨ m.session ≠ d.session ∨ !d.fresh m.seq then s.sdReject m.seat Reg.Seat.SD_REPLAYS
  else (((s.setSd m.seat ((d.accept m.seq).acked m.ack)).sdAct m).sdFlush m.seat)

theorem State.sdReceive_eq {s : State} {kinds : List Nat} {p ip udp first : Nat} {msg : List Byte} {m : SdHead}
    (parse : sdParse msg = some m) (kind : kinds.contains m.type = true)
    (port : (List.range s.model.seats).find? (s.sdBound p) = some first) : s.sdReceive kinds p ip udp msg =
      if !s.sdGood p msg m then s.sdReject (if m.seat < s.model.seats then m.seat else first) Reg.Seat.SD_AUTH_FAILS
      else s.sdAuthentic p ip udp m := by
  unfold State.sdReceive
  rw [parse]
  dsimp only
  rw [kind, if_neg (by decide), port]
  rfl

theorem State.sdReceive_tagged {s : State} {kinds : List Nat} {p ip udp : Nat} {msg : List Byte} {m : SdHead}
    (parse : sdParse msg = some m) (kind : kinds.contains m.type = true) (tagged : s.Tagged p msg m) :
    s.sdReceive kinds p ip udp msg = s.sdAuthentic p ip udp m := by
  obtain ⟨first, port⟩ := State.sdBound_first tagged.1
  rw [State.sdReceive_eq parse kind port, (s.sdGood_iff p msg m).mpr tagged]
  exact if_neg (by decide)

theorem State.sdReceive_untagged {s : State} {kinds : List Nat} {p q ip udp : Nat} {msg : List Byte} {m : SdHead}
    (parse : sdParse msg = some m) (kind : kinds.contains m.type = true) (tagged : ¬ s.Tagged p msg m)
    (bound : s.sdBound p q = true) (below : m.seat < s.model.seats) :
    s.sdReceive kinds p ip udp msg = s.sdReject m.seat Reg.Seat.SD_AUTH_FAILS := by
  obtain ⟨first, port⟩ := State.sdBound_first bound
  rw [State.sdReceive_eq parse kind port, Bool.eq_false_iff.mpr (fun h => tagged ((s.sdGood_iff p msg m).mp h)), if_pos below]
  exact if_pos (by decide)

/-- Each of the four commands is the arrival of a message of its type. -/
theorem exec_sdReceive {s : State} {p ip udp : Nat} {msg : List Byte} {m : SdHead} {c : Instr}
    (h : (m.type, c) ∈ [(1, Instr.stagedoorRead p ip udp msg), (2, .stagedoorWrite p ip udp msg),
      (3, .stagedoorSubmit p ip udp msg), (6, .keepalive p ip udp msg)]) :
    exec c s = settle (s.sdReceive [m.type] p ip udp msg) := by
  simp only [List.mem_cons, Prod.mk.injEq, List.not_mem_nil, or_false] at h
  rcases h with ⟨e, rfl⟩ | ⟨e, rfl⟩ | ⟨e, rfl⟩ | ⟨e, rfl⟩ <;> rw [e] <;> rfl

theorem contains_self (n : Nat) : [n].contains n = true := by simp

/-! A message that is dropped (R420, R422) -/

theorem State.sdReject_only (s : State) (q : Nat) (f : Fld) :
    OnlyWords s (s.sdReject q f) [wordAt (.seat q) f, wordAt (.seat q) Reg.Hdr.EVENTS] := by
  have counted : OnlyWords s (s.count (.seat q) f) [wordAt (.seat q) f] := OnlyWords.set s _ _ _
  have reported : OnlyWords (s.count (.seat q) f) (s.sdReject q f) [wordAt (.seat q) Reg.Hdr.EVENTS] := State.stick_only _ _ rfl
  exact (counted.mono (by simp)).trans (reported.mono (by simp))

/-- Its counter counts, and its event is set. -/
theorem State.sdReject_shows (s : State) (q : Nat) {f : Fld} (hf : Fits f) (aside : Apart Reg.Hdr.EVENTS f)
    (events : Apart f Reg.Hdr.EVENTS) :
    (s.sdReject q f).fld (.seat q) f = (s.fld (.seat q) f + 1) % 2 ^ f.width ∧
      (s.sdReject q f).fld (.seat q) Reg.Hdr.EVENTS = s.fld (.seat q) Reg.Hdr.EVENTS ||| 2 ^ 5 := by
  refine ⟨(State.fld_event_apart _ _ _ aside).trans ?_, (State.events_event _ _ (by decide)).trans ?_⟩
  · exact (State.fld_set_same _ _ _ _ hf).trans (Nat.mod_mod _ _)
  · rw [State.count, State.fld_set_apart _ _ _ events]

theorem message_answers_untagged {s : State} {p ip udp : Nat} {msg : List Byte} {m : SdHead} {c : Instr}
    (parse : sdParse msg = some m)
    (h : (m.type, c) ∈ [(1, Instr.stagedoorRead p ip udp msg), (2, .stagedoorWrite p ip udp msg),
      (3, .stagedoorSubmit p ip udp msg), (6, .keepalive p ip udp msg)])
    (tagged : ¬ s.Tagged p msg m) (below : m.seat < s.model.seats) (bound : ∃ q, s.sdBound p q = true) :
    Answers c s (fun t =>
      t.fld (.seat m.seat) Reg.Seat.SD_AUTH_FAILS =
        (s.fld (.seat m.seat) Reg.Seat.SD_AUTH_FAILS + 1) % 2 ^ Reg.Seat.SD_AUTH_FAILS.width ∧
      t.fld (.seat m.seat) Reg.Hdr.EVENTS = s.fld (.seat m.seat) Reg.Hdr.EVENTS ||| 2 ^ 5 ∧
      OnlyWords s t [wordAt (.seat m.seat) Reg.Seat.SD_AUTH_FAILS, wordAt (.seat m.seat) Reg.Hdr.EVENTS]) := by
  obtain ⟨q, bound⟩ := bound
  obtain ⟨counts, event⟩ := s.sdReject_shows m.seat (f := Reg.Seat.SD_AUTH_FAILS) ⟨by decide, by decide⟩ (by decide) (by decide)
  refine Answers.of_settle ((exec_sdReceive h).trans (congrArg settle
    (State.sdReceive_untagged parse (contains_self _) tagged bound below))) ⟨?_, ?_, (s.sdReject_only m.seat _).settled⟩
  · rw [State.seat_fld_settled _ _ (by decide) (by decide)]
    exact counts
  · rw [State.seat_fld_settled _ _ (by decide) (by decide)]
    exact event

theorem State.sdOf_settled (s : State) (q : Nat) : s.settled.sdOf q = s.sdOf q := congrArg SeatState.sd (s.seat_settled q)

theorem State.sdBound_seat {s : State} {p q : Nat} (h : s.sdBound p q = true) : q < 8 ∧ s.bindIndex q = p := by
  simp only [State.sdBound, Bool.and_eq_true, decide_eq_true_eq] at h
  obtain ⟨⟨below, -⟩, port⟩ := h
  exact ⟨below.trans_le (Model.seats_le _), port⟩

theorem message_answers_replay {s : State} {p ip udp : Nat} {msg : List Byte} {m : SdHead} {c : Instr}
    (parse : sdParse msg = some m)
    (h : (m.type, c) ∈ [(1, Instr.stagedoorRead p ip udp msg), (2, .stagedoorWrite p ip udp msg),
      (3, .stagedoorSubmit p ip udp msg), (6, .keepalive p ip udp msg)])
    (tagged : s.Tagged p msg m) (noHello : m.session = 0 → m.type ≠ 6)
    (old : m.session ≠ (s.sdOf m.seat).session ∨ (s.sdOf m.seat).session = 0 ∨ (s.sdOf m.seat).fresh m.seq = false) :
    Answers c s (fun t => t.sdOf m.seat = { s.sdOf m.seat with heardAt := s.render.tick } ∧
      t.fld (.seat m.seat) Reg.Seat.SD_REPLAYS =
        (s.fld (.seat m.seat) Reg.Seat.SD_REPLAYS + 1) % 2 ^ Reg.Seat.SD_REPLAYS.width ∧
      (t.fld (.seat m.seat) Reg.Hdr.EVENTS).testBit 5 = true) := by
  obtain ⟨h8, -⟩ := State.sdBound_seat tagged.1
  have heard := s.heard_sdHeard m.seat ip udp
  have received := State.sdReceive_tagged (ip := ip) (udp := udp) parse (contains_self m.type) tagged
  unfold State.sdAuthentic at received
  dsimp only at received
  rw [if_neg (fun e => noHello e.2 e.1), if_pos] at received
  · refine Answers.of_settle ((exec_sdReceive h).trans (congrArg settle received)) ?_
    generalize s.sdHeard m.seat ip udp = u at heard
    obtain ⟨counts, -⟩ := u.sdReject_shows m.seat (f := Reg.Seat.SD_REPLAYS) ⟨by decide, by decide⟩ (by decide) (by decide)
    refine ⟨?_, ?_, ?_⟩
    · rw [State.sdOf_settled]
      exact (congrArg SeatState.sd (State.seat_of_seats (State.event_seats _ _ _) m.seat)).trans heard.sd
    · rw [State.seat_fld_settled _ _ (by decide) (by decide), counts]
      rw [heard.words _ _ ((show ∀ j < 8, ∀ w ∈ heardFields j, FldApart w.1 w.2 (.seat j) Reg.Seat.SD_REPLAYS by decide) _ h8)]
    · rw [State.seat_fld_settled _ _ (by decide) (by decide)]
      exact State.event_recorded _ _ (by decide)
  · rw [heard.sd]
    rcases old with session | none_ | seq
    · exact .inr (.inl session)
    · exact .inl none_
    · refine .inr (.inr ?_)
      rw [show SdState.fresh { s.sdOf m.seat with heardAt := s.render.tick } m.seq = false from seq]
      rfl

end Sys2Proof.Machine
end

section
/-! PROOFS. Stagedoor: sessions, and the accepted messages of a host; what the module sends again (R421 to R424). -/

namespace Sys2Proof.Machine

open Sys2Proof

/-! Hello (R421) -/

/-- What a numbered message and the sending of what waits leave, where nothing waits: the next number, and no word. -/
theorem State.numbered_flushed {s : State} {q : Nat} (session : (s.sdOf q).session ≠ 0) (none_ : (s.sdOf q).waiting = [])
    (type flags : Nat) (ws : List Word) (ack : Option Nat) :
    ((s.sdNumbered q type flags ws ack).sdFlush q).sdOf q = { s.sdOf q with txSeq := (s.sdOf q).txSeq + 1 } ∧
      ((s.sdNumbered q type flags ws ack).sdFlush q).net = (s.sdNumbered q type flags ws ack).net ∧
      (((s.sdNumbered q type flags ws ack).sdFlush q).seat q).cmds = (s.seat q).cmds ∧
      Writes s ((s.sdNumbered q type flags ws ack).sdFlush q) [(.seat q, Reg.Seat.STATUS_IN_FLIGHT)] := by
  have now := State.sdOf_sdNumbered session type flags ws ack
  have quiet : ((s.sdNumbered q type flags ws ack).sdOf q).waiting = [] := by rw [now]; exact none_
  obtain ⟨sd, net, cmds, -, words⟩ := State.sdFlush_keeps quiet
  have numbered := State.sdNumbered_eq session type flags ws ack
  obtain ⟨n, hn⟩ := (s.setSd q { s.sdOf q with txSeq := (s.sdOf q).txSeq + 1 }).sdFrame_shape q type flags
    ((s.sdOf q).txSeq + 1) ws ack
  rw [hn] at numbered
  refine ⟨sd.trans now, net, cmds.trans ?_, Writes.trans ?_ words⟩
  · rw [numbered]
    exact (congrArg SeatState.cmds (s.seat_setSd q _) :)
  · rw [numbered]
    exact (s.setSeat_writes q _).trans (.of_act rfl)

/-- What a session begins with: the key, and the message just heard. -/
def SdState.opened (d : SdState) (session tick : Nat) : SdState :=
  { key := d.key, persisted := d.persisted, heardAt := d.heardAt, session := session, keptAt := tick }

/-- The number of a session that begins. -/
def State.newSession (s : State) : Nat := Config.free s.free % (2 ^ 32 - 1) + 1

theorem State.newSession_lt (s : State) : s.newSession < 2 ^ 32 :=
  Nat.add_lt_of_lt_sub (Nat.mod_lt _ (by decide))

/-- The state in which a hello has begun a session. -/
def State.sessionBegun (s : State) (q : Nat) : State :=
  ((({ s with free := s.free + 1 } : State).setSd q ((s.sdOf q).opened s.newSession s.render.tick)).set (.seat q)
    Reg.Seat.SD_SESSION s.newSession).showAttached q

theorem State.sdHello_new {s : State} {q : Nat} (none_ : (s.sdOf q).session = 0) : s.sdHello q =
    ((s.sessionBegun q).sdNumbered q 6 1 [] (some ((s.sessionBegun q).sdOf q).highest)).sdFlush q := by
  unfold State.sdHello
  rw [if_neg (fun h => h none_)]
  rfl

theorem State.sdHello_again {s : State} {q : Nat} (session : (s.sdOf q).session ≠ 0) : s.sdHello q =
    (s.sdNumbered q 6 1 [] (some (s.sdOf q).highest)).sdFlush q := by
  unfold State.sdHello
  rw [if_pos session]

theorem State.sessionBegun_sd (s : State) (q : Nat) : (s.sessionBegun q).sdOf q =
    (s.sdOf q).opened s.newSession s.render.tick := by
  unfold State.sessionBegun State.showAttached State.setBit
  refine (congrArg SeatState.sd (State.seat_set _ _ _ _ _)).trans ((congrArg SeatState.sd (State.seat_set _ _ _ _ _)).trans ?_)
  exact State.sdOf_setSd _ q _

theorem State.sessionBegun_shown (s : State) (q : Nat) :
    (s.sessionBegun q).fld (.seat q) Reg.Seat.SD_SESSION = s.newSession := by
  unfold State.sessionBegun State.showAttached State.setBit
  rw [State.fld_set_apart _ _ _ (by decide), State.fld_set_same _ _ _ _ ⟨by decide, by decide⟩]
  exact Nat.mod_eq_of_lt s.newSession_lt

section
variable {s : State} {p ip udp : Nat} {msg : List Byte} {m : SdHead} (parse : sdParse msg = some m)
  (tagged : s.Tagged p msg m)
include parse tagged

theorem exec_hello (type : m.type = 6) (hello : m.session = 0) : exec (.keepalive p ip udp msg) s =
    settle ((s.sdHeard m.seat ip udp).sdHello m.seat) := by
  have received := State.sdReceive_tagged (kinds := [6]) (ip := ip) (udp := udp) parse (by rw [type]; rfl) tagged
  exact congrArg settle (received.trans (if_pos ⟨type, hello⟩))

theorem hello_answers_begins (type : m.type = 6) (hello : m.session = 0) (none_ : (s.sdOf m.seat).session = 0) :
    Answers (.keepalive p ip udp msg) s (fun t => (t.sdOf m.seat).session ≠ 0 ∧
      t.fld (.seat m.seat) Reg.Seat.SD_SESSION = (t.sdOf m.seat).session ∧ (t.sdOf m.seat).highest = 0 ∧
      (t.sdOf m.seat).window = [] ∧ (t.sdOf m.seat).unacked = [] ∧ (t.sdOf m.seat).txSeq = 1) := by
  have heard := s.heard_sdHeard m.seat ip udp
  have answer := exec_hello (ip := ip) (udp := udp) parse tagged type hello
  generalize s.sdHeard m.seat ip udp = u at heard answer
  have absent : (u.sdOf m.seat).session = 0 := by rw [heard.sd]; exact none_
  rw [State.sdHello_new absent] at answer
  have begun := u.sessionBegun_sd m.seat
  have shown := u.sessionBegun_shown m.seat
  generalize u.sessionBegun m.seat = v at begun shown answer
  obtain ⟨sd, -, -, words⟩ := State.numbered_flushed (s := v) (q := m.seat) (by rw [begun]; exact Nat.succ_ne_zero _)
    (by rw [begun]; rfl) 6 1 [] (some (v.sdOf m.seat).highest)
  have session := words (.seat m.seat) Reg.Seat.SD_SESSION (by
    simp only [List.forall_mem_singleton]
    exact .inl (by simp [wordAt, Reg.Seat.SD_SESSION, Reg.Seat.STATUS_IN_FLIGHT]))
  refine Answers.of_settle answer ?_
  rw [State.sdOf_settled, sd, State.seat_fld_settled _ _ (by decide) (by decide), session, shown, begun]
  exact ⟨Nat.succ_ne_zero _, rfl, rfl, rfl, rfl, rfl⟩

theorem hello_answers_again (type : m.type = 6) (hello : m.session = 0) (quiet : (s.sdOf m.seat).waiting = [])
    (session : (s.sdOf m.seat).session ≠ 0) : Answers (.keepalive p ip udp msg) s (fun t =>
      t.sdOf m.seat = { s.sdOf m.seat with heardAt := s.render.tick, txSeq := (s.sdOf m.seat).txSeq + 1 }) := by
  have heard := s.heard_sdHeard m.seat ip udp
  have answer := exec_hello (ip := ip) (udp := udp) parse tagged type hello
  generalize s.sdHeard m.seat ip udp = u at heard answer
  have there : (u.sdOf m.seat).session ≠ 0 := by rw [heard.sd]; exact session
  rw [State.sdHello_again there] at answer
  obtain ⟨sd, -⟩ := State.numbered_flushed there (by rw [heard.sd]; exact quiet) 6 1 [] (some (u.sdOf m.seat).highest)
  refine Answers.of_settle answer ?_
  rw [State.sdOf_settled, sd, heard.sd]

end

/-! Accepted messages (R422, R424) -/

/-- Bytes that an UPLOAD has received. -/
def putUpload (off : Nat) (bs : List Byte) (m : Map (Option Byte)) : Map (Option Byte) :=
  bs.zipIdx.foldl (fun (m : Map (Option Byte)) e => m.put none (off + e.2) (some e.1)) m

theorem get_putUpload (off : Nat) (bs : List Byte) (m : Map (Option Byte)) (j : Nat) (hj : j < bs.length) :
    Map.get none (off + j) (putUpload off bs m) = bs[j]? := by
  induction bs using List.reverseRecOn generalizing m with
  | nil => exact absurd hj (Nat.not_lt_zero j)
  | append_singleton bs b ih =>
    have last : [b].zipIdx bs.length = [(b, bs.length)] := rfl
    unfold putUpload
    rw [List.zipIdx_append, Nat.zero_add, last, List.foldl_append, List.foldl_cons, List.foldl_nil, Map.get_put]
    by_cases at_ : j = bs.length
    · subst at_
      simp
    · have before : j < bs.length := by
        rw [List.length_append, List.length_singleton] at hj
        omega
      rw [if_neg (fun e => at_ (Nat.add_left_cancel e)), List.getElem?_append_left before]
      exact ih m before

/-- A command is found as it was, or with its upload time started again. -/
theorem Heard.cmdOf {s v : State} {q tag : Nat} {d : SdState} {u : Cmd} (h : Heard s v q d) (found : s.cmdOf q tag = some u) :
    v.cmdOf q tag = some u ∨ v.cmdOf q tag = some { u with upAt := s.render.tick } := by
  unfold State.cmdOf at found ⊢
  rcases h.cmds with e | e <;> rw [e]
  · exact .inl found
  · refine .inr ?_
    rw [List.find?_map]
    exact congrArg (Option.map _) found

theorem State.sdOf_setCmd (s : State) (c : Cmd) (q : Nat) : (s.setCmd c).sdOf q = s.sdOf q := by
  unfold State.sdOf State.setCmd
  rw [State.seat_setSeat]
  split
  · next e => rw [e]
  · rfl

/-- The bytes of a WRITE to upload space go to the source of the command that it names. -/
theorem State.sdUpload_stores {s : State} {q tag off k : Nat} {c : Cmd} {bs : List Byte} (found : s.cmdOf q tag = some c)
    (source : c.sourceAt = some k) (going : c.final = false) (upload : c.n k % 4 = 2) (room : off + bs.length ≤ c.n (k + 3)) :
    s.sdUpload q tag off bs =
      (s.setCmd { c with upload := putUpload off bs c.upload, upAt := s.render.tick }, true) := by
  unfold State.sdUpload
  rw [found]
  dsimp only
  rw [source]
  refine if_neg ?_
  rw [going]
  rintro (e | e | e)
  · exact absurd e (by decide)
  · exact e upload
  · exact absurd e (Nat.not_lt.mpr room)

/-- The Stagedoor state of a seat once a message has been accepted. -/
def State.sdAfter (s : State) (m : SdHead) : SdState :=
  { ((s.sdOf m.seat).accept m.seq).acked m.ack with heardAt := s.render.tick }

/-- The answer to a message joins the CONTROL queue of the seat's port. -/
theorem Heard.answered {s v : State} {q p c : Nat} {d : SdState} (heard : Heard s v q d) (h8 : q < 8) (port : s.bindIndex q = p)
    (control : s.controlQueue p = some c) (eth : s.hasEth p = true) (session : d.session ≠ 0) (quiet : d.waiting = [])
    (type flags : Nat) (ws : List Word) :
    (((v.sdNumbered q type flags ws).sdFlush q).eth p).queue c = (s.eth p).queue c ++
      [{ len := 86 + 4 * ws.length, body := .stagedoor q type flags (d.txSeq + 1) d.inOrder d.session ws }] := by
  have there : (v.sdOf q).session ≠ 0 := by rw [heard.sd]; exact session
  obtain ⟨-, net, -⟩ := State.numbered_flushed there (by rw [heard.sd]; exact quiet) type flags ws none
  have noted := heard.setSd { d with txSeq := d.txSeq + 1 }
  have sent := State.sdNumbered_eq there type flags ws none
  rw [heard.sd, State.sdFrame_queued ((noted.bindIndex h8).trans port) ((noted.controlQueue h8 p).trans control)
    ((noted.hasEth p).trans eth), noted.sd] at sent
  have ports (t u : State) (h : t.net = u.net) : t.eth p = u.eth p := congrArg (fun n : Net => Map.get ({} : EthPort) p n.ports) h
  rw [ports _ _ net, sent, State.eth_enqueue, EthPort.queue_setQueue_same, ports _ _ noted.net]

/-- The window does not depend on when the message was heard. -/
theorem SdState.accept_heard (d : SdState) (seq ack tick : Nat) :
    ({ d with heardAt := tick }.accept seq).acked ack = { (d.accept seq).acked ack with heardAt := tick } := by
  unfold SdState.accept SdState.acked
  dsimp only

/-- A ring entry and a tail that have been written. -/
theorem State.entered_shows (s : State) {q : Nat} {f : Fld} {entry : List Word} (hf : QueueFld f) (at_ tail : Nat) :
    let t := (s.setSeat q { s.seat q with sdRing := (s.seat q).sdRing.put [] at_ entry }).setBoth (.seat q) f tail
    t.sdOf q = s.sdOf q ∧ Map.get [] at_ (t.seat q).sdRing = entry ∧ t.fld (.seat q) f = tail % 2 ^ f.width := by
  have seat_ := s.seat_setSeat_same q { s.seat q with sdRing := (s.seat q).sdRing.put [] at_ entry }
  refine ⟨(congrArg SeatState.sd seat_ :), ?_, State.fld_setBoth_same _ _ _ hf.2.2.2⟩
  exact (congrArg (fun x : SeatState => Map.get [] at_ x.sdRing) seat_).trans (Map.get_put_same _ _ _ _)

/-- An entry goes to the tail of a queue that has room. -/
theorem State.sdEntry_stores (s : State) {q i : Nat} {entry : List Word}
    (size : 2 ≤ s.fld (.seat q) (Reg.Seat.SQ_SIZE i))
    (room : (s.fld (.seat q) (Reg.Seat.SQ_TAIL i) + 1) % s.fld (.seat q) (Reg.Seat.SQ_SIZE i) ≠
      s.fld (.seat q) (Reg.Seat.SQ_HEAD i)) : s.sdEntry q i entry =
    (s.setSeat q { s.seat q with
      sdRing := (s.seat q).sdRing.put [] (256 * i + s.fld (.seat q) (Reg.Seat.SQ_TAIL i)) entry }).setBoth (.seat q)
      (Reg.Seat.SQ_TAIL i) ((s.fld (.seat q) (Reg.Seat.SQ_TAIL i) + 1) % s.fld (.seat q) (Reg.Seat.SQ_SIZE i)) := by
  unfold State.sdEntry
  dsimp only
  rw [Nat.max_eq_left (Nat.le_of_succ_le size)]
  exact if_neg room

/-- An authenticated message of the seat's session is new. -/
structure State.Accepts (s : State) (p : Nat) (msg : List Byte) (m : SdHead) : Prop where
  parse : sdParse msg = some m
  tagged : s.Tagged p msg m
  session : (s.sdOf m.seat).session ≠ 0
  same : m.session = (s.sdOf m.seat).session
  fresh : (s.sdOf m.seat).fresh m.seq = true
  quiet : (s.sdOf m.seat).waiting = []

section
variable {s : State} {p ip udp : Nat} {msg : List Byte} {m : SdHead} (h : s.Accepts p msg m)
include h

/-- An accepted message acts on a state in which it has been heard and its sequence number taken. -/
theorem State.Accepts.acts {c : Instr}
    (hc : (m.type, c) ∈ [(1, Instr.stagedoorRead p ip udp msg), (2, .stagedoorWrite p ip udp msg),
      (3, .stagedoorSubmit p ip udp msg), (6, .keepalive p ip udp msg)]) :
    ∃ v, Heard s v m.seat (s.sdAfter m) ∧ exec c s = settle ((v.sdAct m).sdFlush m.seat) := by
  have heard := s.heard_sdHeard m.seat ip udp
  have received := State.sdReceive_tagged (ip := ip) (udp := udp) h.parse (contains_self m.type) h.tagged
  unfold State.sdAuthentic at received
  dsimp only at received
  rw [heard.sd, SdState.accept_heard, if_neg (fun e => h.session (h.same.symm.trans e.2)), if_neg] at received
  · exact ⟨_, heard.setSd (s.sdAfter m), (exec_sdReceive hc).trans (congrArg settle received)⟩
  · rintro (none_ | other | old)
    · exact h.session none_
    · exact other h.same
    · rw [show SdState.fresh { s.sdOf m.seat with heardAt := s.render.tick } m.seq = true from h.fresh] at old
      exact absurd old (by decide)

theorem State.Accepts.seat : m.seat < 8 ∧ s.bindIndex m.seat = p := State.sdBound_seat h.tagged.1

theorem keepalive_answers (type : m.type = 6) :
    Answers (.keepalive p ip udp msg) s (fun t => t.sdOf m.seat = s.sdAfter m) := by
  obtain ⟨v, heard, answer⟩ := h.acts (ip := ip) (udp := udp) (c := .keepalive p ip udp msg) (by simp [type])
  have act : v.sdAct m = v := by simp only [State.sdAct, type]
  rw [act] at answer
  obtain ⟨sd, -⟩ := State.sdFlush_keeps (s := v) (q := m.seat) (by rw [heard.sd]; exact h.quiet)
  refine Answers.of_settle answer ?_
  rw [State.sdOf_settled, sd, heard.sd]

/-- A READ of a buffer of the seat is answered with its words (R424). -/
theorem read_answers {n q : Nat} {b : Buffer} (type : m.type = 1) (count : m.count = some n) (space : m.word 0 % 4 = 2)
    (found : s.buffer (m.word 2) = some b) (own : b.seat = m.seat) (within : m.word 1 + 4 * n ≤ b.size)
    (control : s.controlQueue p = some q) (eth : s.hasEth p = true) :
    let ws := (List.range n).map (fun k => word32 (b.read (m.word 1 + 4 * k) 4))
    let d := s.sdAfter m
    Answers (.stagedoorRead p ip udp msg) s (fun t => t.sdOf m.seat = { d with txSeq := d.txSeq + 1 } ∧
      (t.eth p).queue q = (s.eth p).queue q ++
        [{ len := 86 + 4 * n, body := .stagedoor m.seat 1 1 (d.txSeq + 1) d.inOrder d.session ws }]) := by
  intro ws d
  obtain ⟨h8, port⟩ := h.seat
  obtain ⟨v, heard, answer⟩ := h.acts (ip := ip) (udp := udp) (c := .stagedoorRead p ip udp msg) (by simp [type])
  have act : v.sdAct m = v.sdNumbered m.seat 1 1 ws := by
    simp only [State.sdAct, State.sdRead, type, count, space, heard.buffer, found]
    rw [if_pos ⟨.inr own, within⟩]
    rfl
  rw [act] at answer
  have session : (v.sdOf m.seat).session ≠ 0 := by rw [heard.sd]; exact h.session
  have quiet : (v.sdOf m.seat).waiting = [] := by rw [heard.sd]; exact h.quiet
  obtain ⟨sd, -⟩ := State.numbered_flushed session quiet 1 1 ws none
  refine Answers.of_settle answer ⟨?_, ?_⟩
  · rw [State.sdOf_settled, sd, heard.sd]
  · rw [State.eth_settled, heard.answered h8 port control eth h.session h.quiet 1 1 ws, List.length_map, List.length_range]

/-- A WRITE to upload space stores its bytes in the source of the command named, and is answered (R424). -/
theorem write_answers {n k : Nat} {u : Cmd} (type : m.type = 2) (count : m.count = some n) (space : m.word 0 % 4 = 1)
    (length : m.payload.length = 12 + 4 * n) (found : s.cmdOf m.seat (m.word 2) = some u) (own : u.seat = m.seat)
    (source : u.sourceAt = some k) (going : u.final = false) (upload : u.n k % 4 = 2) (room : m.word 1 + 4 * n ≤ u.n (k + 3)) :
    let d := s.sdAfter m
    Answers (.stagedoorWrite p ip udp msg) s (fun t => t.sdOf m.seat = { d with txSeq := d.txSeq + 1 } ∧
      ∃ v, t.cmdOf m.seat (m.word 2) = some v ∧ v.upAt = s.render.tick ∧
        ∀ j, j < 4 * n → Map.get none (m.word 1 + j) v.upload = m.payload[12 + j]?) := by
  intro d
  obtain ⟨v, heard, answer⟩ := h.acts (ip := ip) (udp := udp) (c := .stagedoorWrite p ip udp msg) (by simp [type])
  have bytes : (m.payload.drop 12).length = 4 * n := by rw [List.length_drop, length, Nat.add_sub_cancel_left]
  have quiet : (v.sdOf m.seat).waiting = [] := by rw [heard.sd]; exact h.quiet
  have session : (v.sdOf m.seat).session ≠ 0 := by rw [heard.sd]; exact h.session
  have stored (old : Cmd) (there : v.cmdOf m.seat (m.word 2) = some old) (own : old.seat = m.seat) (source : old.sourceAt = some k)
      (going : old.final = false) (upload : old.n k % 4 = 2) (room : m.word 1 + 4 * n ≤ old.n (k + 3)) :
      Answers (.stagedoorWrite p ip udp msg) s (fun t => t.sdOf m.seat = { d with txSeq := d.txSeq + 1 } ∧
        ∃ v, t.cmdOf m.seat (m.word 2) = some v ∧ v.upAt = s.render.tick ∧
          ∀ j, j < 4 * n → Map.get none (m.word 1 + j) v.upload = m.payload[12 + j]?) := by
    obtain ⟨-, tag, sound⟩ := State.cmdOf_some v _ _ _ there
    let new : Cmd := { old with upload := putUpload (m.word 1) (m.payload.drop 12) old.upload, upAt := v.render.tick }
    have uploaded := State.sdUpload_stores (bs := m.payload.drop 12) (off := m.word 1) there source going upload (by rw [bytes]; exact room)
    have act : v.sdAct m = (v.setCmd new).sdNumbered m.seat 2 1 [] := by
      simp only [State.sdAct, State.sdWrite, type, count, space]
      rw [if_pos length, uploaded]
      rfl
    have replaced : (v.setCmd new).cmdOf m.seat (m.word 2) = some new := by
      rw [← own, ← tag] at there ⊢
      exact State.cmdOf_setCmd v new old there sound
    have sd := v.sdOf_setCmd new m.seat
    rw [act] at answer
    rw [← sd] at session quiet
    obtain ⟨now, -, cmds, -⟩ := State.numbered_flushed session quiet 2 1 [] none
    refine Answers.of_settle answer ⟨?_, new, ?_, heard.render ▸ rfl, fun j hj => ?_⟩
    · rw [State.sdOf_settled, now, sd, heard.sd]
    · rw [State.cmdOf_settled]
      exact (congrArg (List.find? _) cmds).trans replaced
    · exact (get_putUpload _ _ _ _ (bytes ▸ hj)).trans List.getElem?_drop
  rcases heard.cmdOf found with there | there
  · exact stored _ there own source going upload room
  · exact stored _ there own source going upload room

/-- A SUBMIT of one entry stores it at the tail of the queue (R424). -/
theorem submit_answers (type : m.type = 3) (count : m.word 0 / 2 ^ 8 % 32 = 1) (length : m.payload.length = 68)
    (on : s.bit (.seat m.seat) (Reg.Seat.SQ_EN (m.word 0 % 4)) = true)
    (size : 2 ≤ s.fld (.seat m.seat) (Reg.Seat.SQ_SIZE (m.word 0 % 4)))
    (room : (s.fld (.seat m.seat) (Reg.Seat.SQ_TAIL (m.word 0 % 4)) + 1) % s.fld (.seat m.seat) (Reg.Seat.SQ_SIZE (m.word 0 % 4)) ≠
      s.fld (.seat m.seat) (Reg.Seat.SQ_HEAD (m.word 0 % 4))) :
    Answers (.stagedoorSubmit p ip udp msg) s (fun t => t.sdOf m.seat = s.sdAfter m ∧
      Map.get [] (256 * (m.word 0 % 4) + s.fld (.seat m.seat) (Reg.Seat.SQ_TAIL (m.word 0 % 4))) (t.seat m.seat).sdRing =
        (List.range 16).map (fun k => BitVec.ofNat 32 (m.word (1 + k))) ∧
      t.fld (.seat m.seat) (Reg.Seat.SQ_TAIL (m.word 0 % 4)) = (s.fld (.seat m.seat) (Reg.Seat.SQ_TAIL (m.word 0 % 4)) + 1) %
        s.fld (.seat m.seat) (Reg.Seat.SQ_SIZE (m.word 0 % 4)) % 256) := by
  obtain ⟨h8, -⟩ := h.seat
  obtain ⟨v, heard, answer⟩ := h.acts (ip := ip) (udp := udp) (c := .stagedoorSubmit p ip udp msg) (by simp [type])
  have hi : m.word 0 % 4 < 4 := Nat.mod_lt _ (by decide)
  have apart : ∀ j < 8, ∀ i < 4, ∀ f ∈ [Reg.Seat.SQ_EN i, Reg.Seat.SQ_SIZE i, Reg.Seat.SQ_TAIL i, Reg.Seat.SQ_HEAD i],
      ∀ w ∈ heardFields j, FldApart w.1 w.2 (.seat j) f := by decide
  have fields (f : Fld) (hf : f ∈ [Reg.Seat.SQ_EN (m.word 0 % 4), Reg.Seat.SQ_SIZE (m.word 0 % 4), Reg.Seat.SQ_TAIL (m.word 0 % 4),
      Reg.Seat.SQ_HEAD (m.word 0 % 4)]) : v.fld (.seat m.seat) f = s.fld (.seat m.seat) f :=
    heard.words _ _ (apart _ h8 _ hi f hf)
  have act : v.sdAct m = v.sdEntry m.seat (m.word 0 % 4) ((List.range 16).map (fun k => BitVec.ofNat 32 (m.word (1 + k)))) := by
    simp only [State.sdAct, State.sdSubmit, type, count, length]
    rw [if_pos ⟨le_rfl, by decide, trivial, (State.bit_eq_of_fld (fields _ (by simp))).trans on⟩]
    rfl
  rw [act] at answer
  have quiet : (v.sdOf m.seat).waiting = [] := by rw [heard.sd]; exact h.quiet
  generalize m.word 0 % 4 = i at *
  have stored := v.sdEntry_stores (q := m.seat) (i := i) (entry := (List.range 16).map (fun k => BitVec.ofNat 32 (m.word (1 + k))))
    (by rw [fields _ (by simp)]; exact size) (by rw [fields _ (by simp), fields _ (by simp), fields _ (by simp)]; exact room)
  rw [fields _ (by simp), fields _ (by simp)] at stored
  have tail : QueueFld (Reg.Seat.SQ_TAIL i) := (queue_fields hi).1
  have shown := v.entered_shows (entry := (List.range 16).map (fun k => BitVec.ofNat 32 (m.word (1 + k)))) (q := m.seat) tail
    (256 * i + s.fld (.seat m.seat) (Reg.Seat.SQ_TAIL i))
    ((s.fld (.seat m.seat) (Reg.Seat.SQ_TAIL i) + 1) % s.fld (.seat m.seat) (Reg.Seat.SQ_SIZE i))
  rw [← stored] at shown
  generalize v.sdEntry m.seat i _ = x at answer shown
  obtain ⟨sd, ring, moved⟩ := shown
  obtain ⟨now, -, -, ringKept, words⟩ := State.sdFlush_keeps (s := x) (q := m.seat) (by rw [sd]; exact quiet)
  refine Answers.of_settle answer ⟨?_, ?_, ?_⟩
  · rw [State.sdOf_settled, now, sd, heard.sd]
  · rw [State.seat_settled, ringKept]
    exact ring
  · rw [State.queue_fld_settled _ _ tail]
    refine (words _ _ ?_).trans moved
    simp only [List.forall_mem_singleton]
    exact (tail.1.imp (fun off e => off (Nat.add_left_cancel e.symm)) id)

end

/-! What the module sends of its own accord (R423) -/

/-- A seat replaced, and frames sent, write no word but its count of commands. -/
theorem State.setSd_only {s : State} {q : Nat} (h8 : q < 8) (d : SdState) (n : Net) :
    OnlyWords { s with net := n, seats := (s.setSd q d).seats } { s.setSd q d with net := n } [] := by
  refine ⟨rfl, fun k _ hs => State.set_word _ _ _ _ k (fun e => hs ?_)⟩
  rw [e]
  exact List.mem_append_right _ (List.mem_map.mpr ⟨q, List.mem_range.mpr h8, rfl⟩)

theorem State.setSd_twice_only (s : State) {q : Nat} (h8 : q < 8) (d d' : SdState) (n : Net) :
    OnlyWords { s with net := n, seats := ((s.setSd q d).setSd q d').seats } { (s.setSd q d).setSd q d' with net := n } [] := by
  refine ⟨rfl, fun k _ hs => ?_⟩
  have off : k ≠ wordAt (.seat q) Reg.Seat.STATUS_IN_FLIGHT := fun e =>
    hs (e ▸ List.mem_append_right _ (List.mem_map.mpr ⟨q, List.mem_range.mpr h8, rfl⟩))
  exact (State.set_word _ _ _ _ k off).trans (State.set_word _ _ _ _ k off)

section
variable {s : State} {seat : Nat} (below : seat < s.model.seats) (door : s.isStagedoor seat = true)
include below door

theorem resend_answers {m : SdMessage} {q : Nat} (one : (s.sdOf seat).unacked = [m]) (due : m.sentAt + s.fs / 20 ≤ s.render.tick)
    (control : s.controlQueue (s.bindIndex seat) = some q) (eth : s.hasEth (s.bindIndex seat) = true) :
    let d := s.sdOf seat
    Answers (.stagedoorResend seat) s (fun t =>
      t.sdOf seat = { d with unacked := [{ m with sentAt := s.render.tick }] } ∧
      (t.eth (s.bindIndex seat)).queue q = (s.eth (s.bindIndex seat)).queue q ++
        [{ len := 86 + 4 * m.payload.length, body := .stagedoor seat m.type 0 m.seq d.inOrder d.session m.payload }] ∧
      OnlyWords { s with net := t.net, seats := t.seats } t []) := by
  intro d
  have h8 : seat < 8 := below.trans_le (Model.seats_le _)
  have acts : ¬ ((decide (s.model.seats ≤ seat) || !s.isStagedoor seat) = true) := by
    rw [door, decide_eq_false (Nat.not_le.mpr below)]
    decide
  have noted := (Heard.refl s seat).setSd { d with unacked := [{ m with sentAt := s.render.tick }] }
  have resent : exec (.stagedoorResend seat) s = settle
      ((s.setSd seat { d with unacked := [{ m with sentAt := s.render.tick }] }).sdFrame seat m.type 0 m.seq m.payload) := by
    refine congrArg settle ((if_neg acts).trans ?_)
    dsimp only
    rw [one]
    simp only [List.filter_cons, List.filter_nil, decide_eq_true due, if_true, List.map_cons, List.map_nil, List.foldl_cons,
      List.foldl_nil, if_pos due]
    rfl
  have sent := State.sdFrame_queued (noted.bindIndex h8) ((noted.controlQueue h8 _).trans control) ((noted.hasEth _).trans eth)
    m.type 0 m.seq m.payload
  rw [sent, noted.sd] at resent
  have ports := noted.net
  have only := s.setSd_only h8 { d with unacked := [{ m with sentAt := s.render.tick }] }
  have sd := noted.sd
  generalize s.setSd seat { d with unacked := [{ m with sentAt := s.render.tick }] } = v at resent ports only sd
  refine Answers.of_settle resent ⟨?_, ?_, ?_⟩
  · rw [State.sdOf_settled]
    exact sd
  · rw [State.eth_settled, State.eth_enqueue, EthPort.queue_setQueue_same]
    rw [show v.eth (s.bindIndex seat) = s.eth (s.bindIndex seat) from congrArg (fun n : Net => Map.get ({} : EthPort) _ n.ports) ports]
  · rw [State.settled_net, State.settled_seats]
    exact (only _).settled

theorem keepaliveSend_answers (session : (s.sdOf seat).session ≠ 0) (due : (s.sdOf seat).keptAt + s.fs / 2 ≤ s.render.tick) :
    let d := s.sdOf seat
    Answers (.keepaliveSend seat) s (fun t =>
      t.sdOf seat = { d with keptAt := s.render.tick, txSeq := d.txSeq + 1 } ∧
      OnlyWords { s with net := t.net, seats := t.seats } t []) := by
  intro d
  have h8 : seat < 8 := below.trans_le (Model.seats_le _)
  have acts : ¬ ((decide (s.model.seats ≤ seat) || !s.isStagedoor seat || decide (d.session = 0) ||
      decide (s.render.tick < d.keptAt + s.fs / 2)) = true) := by
    rw [door, decide_eq_false (Nat.not_le.mpr below), decide_eq_false session, decide_eq_false (Nat.not_lt.mpr due)]
    decide
  have kept := s.sdOf_setSd seat { d with keptAt := s.render.tick }
  have sent := State.sdNumbered_eq (s := s.setSd seat { d with keptAt := s.render.tick }) (q := seat) (by rw [kept]; exact session)
    6 0 [] none
  rw [kept] at sent
  obtain ⟨n, hn⟩ := ((s.setSd seat { d with keptAt := s.render.tick }).setSd seat
    { d with keptAt := s.render.tick, txSeq := d.txSeq + 1 }).sdFrame_shape seat 6 0 (d.txSeq + 1) [] none
  have done : exec (.keepaliveSend seat) s = settle { (s.setSd seat { d with keptAt := s.render.tick }).setSd seat
      { d with keptAt := s.render.tick, txSeq := d.txSeq + 1 } with net := n } :=
    (congrArg settle ((if_neg acts).trans sent)).trans (congrArg settle hn)
  refine Answers.of_settle done ⟨?_, ?_⟩
  · rw [State.sdOf_settled, State.sdOf_of_net, State.sdOf_setSd]
  · rw [State.settled_net, State.settled_seats]
    exact (s.setSd_twice_only h8 _ _ n).settled

end

/-- Settles O54: an authenticated message is first heard, which changes only the seat's Stagedoor state and fields of its page;
it is then dropped, answered or acts on that state, whose frames join the CONTROL queue of the seat's port. -/
theorem stagedoor : Obligations.Stagedoor := by
  unfold Obligations.Stagedoor
  refine ⟨fun s p ip udp msg m c parse hc => ⟨fun tagged below bound => message_answers_untagged parse hc tagged below bound,
      fun tagged noHello old => message_answers_replay parse hc tagged noHello old⟩,
    fun s p ip udp msg m parse tagged type hello quiet => ⟨hello_answers_begins parse tagged type hello,
      hello_answers_again parse tagged type hello quiet⟩,
    fun s p ip udp msg m ⟨parse, tagged, session, same, fresh, quiet⟩ => ?_,
    fun s seat below door => ⟨fun m q => resend_answers below door, keepaliveSend_answers below door⟩⟩
  have h : s.Accepts p msg m := ⟨parse, tagged, session, same, fresh, quiet⟩
  exact ⟨keepalive_answers h, fun n q b => read_answers h, fun n k u => write_answers h, submit_answers h⟩

end Sys2Proof.Machine
end

section
/-! PROOFS. DRAM upkeep and memory errors (R510 to R519). -/

namespace Sys2Proof.Machine

open Sys2Proof

/-! Monitors that do not run (R520) -/

theorem watching_off {s : State} (off : s.watching = false) (p : Bool) : (!s.watching || p) = true := by
  rw [off]
  rfl

/-- A step that changes nothing. -/
theorem Answers.unchanged {c : Instr} {s : State} (h : exec c s = settle s) : Answers c s (OnlyWords s · []) :=
  Answers.of_settle h s.settled_only

theorem monitors_off {s : State} (off : s.watching = false) {addr err region unit : Nat} {pass : Bool} {temps : List Int}
    {mv : List Nat} {c : Instr} (hc : c ∈ [Instr.refresh, .rowActivate, .patrolScrub addr err region unit pass,
      .sramScrub addr err unit, .tempSample temps, .vmonSample mv, .roSample mv, .avsRecompute unit]) :
    Answers c s (OnlyWords s · []) := by
  have idle : (!s.watching) = true := by rw [off]; rfl
  refine .unchanged ?_
  simp only [List.mem_cons, List.not_mem_nil, or_false] at hc
  rcases hc with rfl | rfl | rfl | rfl | rfl | rfl | rfl | rfl <;> refine congrArg settle ?_
  · exact if_pos idle
  · exact if_pos idle
  · exact if_pos (watching_off off _)
  · exact if_pos idle
  · exact if_pos (watching_off off _)
  · exact if_pos (watching_off off _)
  · exact if_pos (watching_off off _)
  · exact if_pos (by rw [off]; rfl)

/-! Refresh, calibration and row activates (R510 to R512) -/

/-- The monitors as a refresh stall begins: the delays measured off have moved. -/
def Monitors.stalled (m : Monitors) : Monitors :=
  { m with stall := true, tapMove := [],
           taps := m.tapMove.foldl (fun (t : Map Int) (e : Nat × Int) => t.put 0 e.1 (Map.get 0 e.1 t + e.2)) m.taps }

/-- The state with STATUS.REFRESH_2X as asked for. -/
def State.refreshed (s : State) : State :=
  let t : State := { s with mon := s.mon.stalled }
  t.setBit .dramc Reg.Dramc.STATUS_REFRESH_2X t.mon.want2x

theorem State.refreshed_mon (s : State) : s.refreshed.mon = s.mon.stalled := by
  unfold State.refreshed
  exact State.setBit_mon _ _ _ _

theorem State.refreshed_shows (s : State) :
    s.refreshed.bit .dramc Reg.Dramc.STATUS_REFRESH_2X = s.mon.want2x := by
  unfold State.refreshed
  exact State.bit_setBit_same _ _ _ _ ⟨by decide, by decide⟩ rfl

theorem exec_refresh {s : State} (on : s.watching = true) : exec .refresh s =
    settle (if s.refreshed.mon.want2x && !s.bit .dramc Reg.Dramc.STATUS_REFRESH_2X then s.refreshed.event .dramc 3
      else s.refreshed) := by
  unfold State.refreshed
  exact congrArg settle (if_neg (by rw [on]; decide))

theorem refresh_answers {s : State} (on : s.watching = true) :
    Answers .refresh s (fun t => t.mon.stall = true ∧ t.mon.tapMove = [] ∧
      t.bit .dramc Reg.Dramc.STATUS_REFRESH_2X = s.mon.want2x ∧
      (∀ ch v, s.mon.tapMove = [(ch, v)] → Map.get 0 ch t.mon.taps = Map.get 0 ch s.mon.taps + v) ∧
      (s.mon.want2x = true → s.bit .dramc Reg.Dramc.STATUS_REFRESH_2X = false →
        (t.fld .dramc Reg.Hdr.EVENTS).testBit 3 = true)) := by
  refine Answers.of_settle (exec_refresh on) ?_
  have mon := s.refreshed_mon
  have shown := s.refreshed_shows
  generalize s.refreshed = u at mon shown ⊢
  have want : u.mon.want2x = s.mon.want2x := by rw [mon]; rfl
  rw [want]
  have kept : (if s.mon.want2x && !s.bit .dramc Reg.Dramc.STATUS_REFRESH_2X then u.event .dramc 3 else u).mon = s.mon.stalled :=
    (when_keeps State.mon (State.event_mon _ _ _)).trans mon
  rw [State.settled_mon, kept]
  refine ⟨rfl, rfl, ?_, fun ch v one => ?_, fun want was => ?_⟩
  · rw [State.settled_bit _ _ _ (by decide)]
    exact (when_keeps (State.bit · .dramc Reg.Dramc.STATUS_REFRESH_2X) (State.bit_eq_of_fld
      (State.fld_event_apart _ _ _ (by decide)))).trans shown
  · unfold Monitors.stalled
    rw [one]
    exact Map.get_put_same _ _ _ _
  · rw [State.settled_fld _ _ _ (by decide), if_pos (by rw [want, was]; rfl)]
    exact State.event_recorded _ _ (by decide)

theorem rowActivate_answers {s : State} (on : s.watching = true) :
    Answers .rowActivate s (fun t => t.mon = { s.mon with stall := false } ∧
      (t.fld .dramc Reg.Dramc.NRR_COUNT = s.fld .dramc Reg.Dramc.NRR_COUNT ∨
        t.fld .dramc Reg.Dramc.NRR_COUNT = (s.fld .dramc Reg.Dramc.NRR_COUNT + 2) % 2 ^ 32)) := by
  let u : State := { s with mon := { s.mon with stall := false }, free := s.free + 1 }
  have done : exec .rowActivate s = settle (if Config.free s.free % 2 ^ s.fld .dramc Reg.Dramc.NRR_K = 0 then
      u.count .dramc Reg.Dramc.NRR_COUNT 2 else u) := congrArg settle (if_neg (by rw [on]; decide))
  have old : u.fld .dramc Reg.Dramc.NRR_COUNT = s.fld .dramc Reg.Dramc.NRR_COUNT := rfl
  have mon : u.mon = { s.mon with stall := false } := rfl
  generalize u = u at done old mon
  refine Answers.of_settle done ⟨?_, ?_⟩
  · rw [State.settled_mon]
    refine Eq.trans ?_ mon
    split <;> rfl
  · rw [State.settled_fld _ _ _ (by decide), ← old]
    split
    · exact .inr (State.fld_count_same _ _ ⟨by decide, by decide⟩ _)
    · exact .inl rfl

theorem zqLatch_answers {s : State} {ch : Nat} (stall : s.mon.stall = true) (hc : ch < 2) :
    Answers (.zqLatch ch) s (fun t => t.mon = { s.mon with zq := s.mon.zq.put 0 ch (Map.get 0 ch s.mon.zq + 1) } ∧
      OnlyWords { s with mon := t.mon } t []) := by
  refine Answers.of_settle (u := { s with mon := { s.mon with zq := s.mon.zq.put 0 ch (Map.get 0 ch s.mon.zq + 1) } })
    (congrArg settle (if_pos (by rw [stall, decide_eq_true hc]; rfl))) ⟨State.settled_mon _, ?_⟩
  rw [State.settled_mon]
  exact State.settled_only _

theorem wckMeasure_answers {s : State} {ch : Nat} {drift : Int} (stall : s.mon.stall = true) (hc : ch < 2) :
    Answers (.wckMeasure ch drift) s (fun t =>
      Map.get 0 ch t.mon.tapMove = (if 128 < drift then 1 else if drift < -128 then -1 else 0) ∧
      OnlyWords { s with mon := t.mon } t []) := by
  let v : Int := if 128 < drift then 1 else if drift < -128 then -1 else 0
  refine Answers.of_settle (u := { s with mon := { s.mon with tapMove := s.mon.tapMove.put 0 ch v } })
    (congrArg settle (if_pos (by rw [stall, decide_eq_true hc]; rfl))) ⟨?_, ?_⟩ <;> rw [State.settled_mon]
  · exact Map.get_put_same _ _ _ _
  · exact State.settled_only _

theorem calibration_answers_idle {s : State} {ch : Nat} {drift : Int} (idle : s.mon.stall = false) :
    Answers (.zqLatch ch) s (OnlyWords s · []) ∧ Answers (.wckMeasure ch drift) s (OnlyWords s · []) := by
  have off : ¬ ((s.mon.stall && decide (ch < 2)) = true) := by rw [idle, Bool.false_and]; decide
  exact ⟨.unchanged (congrArg settle (if_neg off)), .unchanged (congrArg settle (if_neg off))⟩

/-! ECC of the DRAM (R515 to R517) -/

theorem patrolScrub_answers_off {s : State} (off : s.bit .dramc Reg.Dramc.STATUS_ECC_ON = false) {addr err region unit : Nat}
    {pass : Bool} : Answers (.patrolScrub addr err region unit pass) s (OnlyWords s · []) := by
  refine .unchanged (congrArg settle (if_pos ?_))
  rw [off]
  exact Bool.or_true _

section
variable {s : State} (on : s.watching = true) (ecc : s.bit .dramc Reg.Dramc.STATUS_ECC_ON = true)
include on ecc

theorem scrub_runs : ¬ ((!s.watching || !s.bit .dramc Reg.Dramc.STATUS_ECC_ON) = true) := by
  rw [on, ecc]
  decide

theorem patrolScrub_answers_pass {addr region unit : Nat} : Answers (.patrolScrub addr 0 region unit true) s (fun t =>
    t.fld .dramc Reg.Dramc.SCRUB_PASSES = (s.fld .dramc Reg.Dramc.SCRUB_PASSES + 1) % 2 ^ 32 ∧
    OnlyWords s t [wordAt .dramc Reg.Dramc.SCRUB_PASSES]) := by
  have done : exec (.patrolScrub addr 0 region unit true) s = settle (s.count .dramc Reg.Dramc.SCRUB_PASSES) :=
    congrArg settle ((if_neg (scrub_runs on ecc)).trans ((if_neg (by decide)).trans (if_neg (fun h => absurd h.1 (by decide)))))
  refine Answers.of_settle done ⟨?_, (OnlyWords.set s _ _ _).settled⟩
  rw [State.settled_fld _ _ _ (by decide)]
  exact State.fld_count_same _ _ ⟨by decide, by decide⟩ _

/-- A corrected error counts and gives its address (R516). -/
def State.correctedAt (s : State) (addr : Nat) : State :=
  ((s.count .dramc Reg.Dramc.CE_COUNT).set64 .dramc Reg.Dramc.CE_ADDR_LO Reg.Dramc.CE_ADDR_HI (addr % 2 ^ 34)).event .dramc 0

omit on ecc in
theorem State.correctedAt_shows (s : State) (addr : Nat) :
    (s.correctedAt addr).fld .dramc Reg.Dramc.CE_COUNT = (s.fld .dramc Reg.Dramc.CE_COUNT + 1) % 2 ^ 32 ∧
      (s.correctedAt addr).fld64 .dramc Reg.Dramc.CE_ADDR_LO Reg.Dramc.CE_ADDR_HI = addr % 2 ^ 34 ∧
      ((s.correctedAt addr).fld .dramc Reg.Hdr.EVENTS).testBit 0 = true ∧
      (s.correctedAt addr).fld .dramc Reg.Dramc.STORM_LIMIT = s.fld .dramc Reg.Dramc.STORM_LIMIT := by
  refine ⟨?_, ?_, State.event_recorded _ _ (by decide), ?_⟩ <;> unfold State.correctedAt State.set64
  · rw [State.fld_event_apart _ _ _ (by decide), State.fld_set_apart _ _ _ (by decide), State.fld_set_apart _ _ _ (by decide)]
    exact State.fld_count_same _ _ ⟨by decide, by decide⟩ _
  · unfold State.fld64
    rw [State.fld_event_apart _ _ _ (by decide), State.fld_event_apart _ _ _ (by decide), State.fld_set_apart _ _ _ (by decide),
      State.fld_set_same _ _ _ _ ⟨by decide, by decide⟩, State.fld_set_same _ _ _ _ ⟨by decide, by decide⟩]
    simp only [Reg.Dramc.CE_ADDR_LO, Reg.Dramc.CE_ADDR_HI]
    omega
  · rw [State.fld_event_apart _ _ _ (by decide), State.fld_set_apart _ _ _ (by decide), State.fld_set_apart _ _ _ (by decide),
      State.fld_count_apart _ _ _ (by decide)]

theorem patrolScrub_answers_corrected {addr region unit : Nat} : Answers (.patrolScrub addr 1 region unit false) s (fun t =>
    t.fld .dramc Reg.Dramc.CE_COUNT = (s.fld .dramc Reg.Dramc.CE_COUNT + 1) % 2 ^ 32 ∧
    t.fld64 .dramc Reg.Dramc.CE_ADDR_LO Reg.Dramc.CE_ADDR_HI = addr % 2 ^ 34 ∧
    (t.fld .dramc Reg.Hdr.EVENTS).testBit 0 = true ∧
    (s.fld .dramc Reg.Dramc.STORM_LIMIT ≤ (s.mon.ces.filter (fun a => decide (s.render.tick < a + s.msTicks))).length →
      (t.fld .dramc Reg.Hdr.EVENTS).testBit 2 = true)) := by
  let ces := s.render.tick :: s.mon.ces.filter (fun a => decide (s.render.tick < a + s.msTicks))
  have done : exec (.patrolScrub addr 1 region unit false) s = settle (
      let u := ({ s with mon := { s.mon with ces := ces } } : State).correctedAt addr
      if u.fld .dramc Reg.Dramc.STORM_LIMIT < ces.length then u.event .dramc 2 else u) :=
    congrArg settle ((if_neg (scrub_runs on ecc)).trans (if_pos rfl))
  obtain ⟨count, at_, event, limit⟩ := State.correctedAt_shows { s with mon := { s.mon with ces := ces } } addr
  refine Answers.of_settle done ?_
  dsimp only
  generalize ({ s with mon := { s.mon with ces := ces } } : State).correctedAt addr = u at count at_ event limit
  have kept (f : Fld) (hf : Apart Reg.Hdr.EVENTS f) :
      (if u.fld .dramc Reg.Dramc.STORM_LIMIT < ces.length then u.event .dramc 2 else u).fld .dramc f = u.fld .dramc f :=
    when_keeps (State.fld · .dramc f) (State.fld_event_apart _ _ _ hf)
  refine ⟨?_, ?_, ?_, fun storm => ?_⟩
  · rw [State.settled_fld _ _ _ (by decide), kept _ (by decide)]
    exact count
  · unfold State.fld64 at at_ ⊢
    rw [State.settled_fld _ _ _ (by decide), State.settled_fld _ _ _ (by decide), kept _ (by decide), kept _ (by decide)]
    exact at_
  · rw [State.settled_fld _ _ _ (by decide)]
    exact State.event_stays u _ _ 2 (by decide) event _
  · have over_ : u.fld .dramc Reg.Dramc.STORM_LIMIT < ces.length := by
      rw [limit]
      exact Nat.lt_succ_of_le storm
    rw [State.settled_fld _ _ _ (by decide), if_pos over_]
    exact State.event_recorded _ _ (by decide)

end

end Sys2Proof.Machine
end

section
/-! PROOFS. Errors that are not corrected, in DRAM and in SRAM (R517, R519). -/

namespace Sys2Proof.Machine

open Sys2Proof

/-- Fields are read from the fabric alone. -/
theorem State.fld_of_fab {s t : State} (h : t.fab = s.fab) (b : Blk) (f : Fld) : t.fld b f = s.fld b f :=
  congrArg (fun x : Fabric => regGet x.act b.base f) h

theorem State.fld_setObj (s : State) (n : Nat) (o : ObjEngine) (b : Blk) (f : Fld) : (s.setObj n o).fld b f = s.fld b f :=
  State.fld_of_fab (t := s.setObj n o) rfl b f

/-! An uncorrected error in DRAM (R517) -/

/-- The registers of an uncorrected error: counted, with its address, region and unit. -/
def State.uncorrectedAt (s : State) (addr region unit : Nat) : State :=
  (((s.count .dramc Reg.Dramc.UE_COUNT).set64 .dramc Reg.Dramc.UE_ADDR_LO Reg.Dramc.UE_ADDR_HI (addr % 2 ^ 34)).set .dramc
    Reg.Dramc.UE_REGION region).set .dramc Reg.Dramc.UE_UNIT unit |>.event .dramc 1

theorem State.uncorrectedAt_shows (s : State) (addr region unit : Nat) :
    (s.uncorrectedAt addr region unit).fld .dramc Reg.Dramc.UE_COUNT = (s.fld .dramc Reg.Dramc.UE_COUNT + 1) % 2 ^ 32 ∧
      (s.uncorrectedAt addr region unit).fld .dramc Reg.Dramc.UE_REGION = region % 2 ^ 3 ∧
      (s.uncorrectedAt addr region unit).fld .dramc Reg.Dramc.UE_UNIT = unit % 2 ^ 10 ∧
      ((s.uncorrectedAt addr region unit).fld .dramc Reg.Hdr.EVENTS).testBit 1 = true := by
  unfold State.uncorrectedAt State.set64
  refine ⟨?_, ?_, ?_, State.event_recorded _ _ (by decide)⟩ <;> rw [State.fld_event_apart _ _ _ (by decide)]
  · rw [State.fld_set_apart _ _ _ (by decide), State.fld_set_apart _ _ _ (by decide), State.fld_set_apart _ _ _ (by decide),
      State.fld_set_apart _ _ _ (by decide)]
    exact State.fld_count_same _ _ ⟨by decide, by decide⟩ _
  · rw [State.fld_set_apart _ _ _ (by decide)]
    exact State.fld_set_same _ _ _ _ ⟨by decide, by decide⟩
  · exact State.fld_set_same _ _ _ _ ⟨by decide, by decide⟩

theorem State.uncorrectedAt_keeps {β : Type} (view : State → β) (hv : ∀ s b f v, view (State.set s b f v) = view s)
    (s : State) (addr region unit : Nat) : view (s.uncorrectedAt addr region unit) = view s := by
  unfold State.uncorrectedAt State.set64 State.count
  rw [State.event_eq_set _ _ (by decide)]
  simp only [hv]

/-- What is lost with the word, by region. -/
def State.regionLost (s : State) (region unit : Nat) : State :=
  match region with
  | 1 => if unit < s.model.objects then s.farLost unit else s
  | 2 => if unit < s.model.outputs then s.segmentLost unit else s
  | 3 => { s with snaps := s.snaps.setSlot (unit % 2) none }
  | 4 => { s with twin := { s.twin with
      journal := s.twin.journal.filter (·.block ≠ unit), ring := s.twin.ring.filter (·.block ≠ unit) } }
  | 5 => s.warmReset 5
  | 6 => { s with mon := { s.mon with degraded := (unit / 65536, unit % 65536) :: s.mon.degraded } }
  | _ => s

theorem State.uncorrected_eq (s : State) (addr region unit : Nat) : s.uncorrected addr region unit =
    (s.uncorrectedAt addr region (if region = 1 || region = 2 then unit else 0)).regionLost region unit := by
  unfold State.uncorrected State.uncorrectedAt State.regionLost
  rfl

theorem State.regionLost_slot (s : State) : (s.regionLost 3 0).fab = s.fab ∧
    (s.regionLost 3 0).snaps = s.snaps.setSlot 0 none := ⟨rfl, rfl⟩

theorem State.regionLost_pool (s : State) (unit : Nat) : (s.regionLost 6 unit).fab = s.fab ∧
    (s.regionLost 6 unit).mon = { s.mon with degraded := (unit / 65536, unit % 65536) :: s.mon.degraded } := ⟨rfl, rfl⟩

theorem State.regionLost_object (s : State) (n : Nat) :
    s.regionLost 1 n = if n < s.model.objects then s.farLost n else s := rfl

theorem exec_uncorrected {s : State} (on : s.watching = true) (ecc : s.bit .dramc Reg.Dramc.STATUS_ECC_ON = true)
    {addr region unit : Nat} (hr : 1 ≤ region ∧ region ≤ 7) :
    exec (.patrolScrub addr 2 region unit false) s = settle ((s.uncorrectedAt addr region
      (if region = 1 || region = 2 then unit else 0)).regionLost region unit) := by
  rw [← State.uncorrected_eq]
  exact congrArg settle ((if_neg (scrub_runs on ecc)).trans ((if_neg (by decide)).trans (if_pos ⟨rfl, hr⟩)))

theorem patrolScrub_answers_slot {s : State} (on : s.watching = true) (ecc : s.bit .dramc Reg.Dramc.STATUS_ECC_ON = true)
    {addr : Nat} : Answers (.patrolScrub addr 2 3 0 false) s (fun t =>
      t.snaps.slot0 = none ∧ t.snaps.slot1 = s.snaps.slot1 ∧ t.fld .dramc Reg.Dramc.UE_REGION = 3 ∧
      (t.fld .dramc Reg.Hdr.EVENTS).testBit 1 = true) := by
  obtain ⟨-, region, -, event⟩ := s.uncorrectedAt_shows addr 3 0
  have snaps := s.uncorrectedAt_keeps State.snaps (fun _ _ _ _ => rfl) addr 3 0
  have done := exec_uncorrected on ecc (addr := addr) (region := 3) (unit := 0) ⟨by decide, by decide⟩
  rw [if_neg (by decide)] at done
  generalize s.uncorrectedAt addr 3 0 = u at done region event snaps
  obtain ⟨fab, slots⟩ := u.regionLost_slot
  generalize u.regionLost 3 0 = t at done fab slots
  refine Answers.of_settle done ?_
  rw [State.settled_snaps, State.settled_fld _ _ _ (by decide), State.settled_fld _ _ _ (by decide), slots, snaps,
    State.fld_of_fab fab, State.fld_of_fab fab]
  exact ⟨rfl, rfl, region, event⟩

theorem patrolScrub_answers_pool {s : State} (on : s.watching = true) (ecc : s.bit .dramc Reg.Dramc.STATUS_ECC_ON = true)
    {addr unit : Nat} : Answers (.patrolScrub addr 2 6 unit false) s (fun t =>
      t.mon.degraded = (unit / 65536, unit % 65536) :: s.mon.degraded ∧ t.fld .dramc Reg.Dramc.UE_REGION = 6 ∧
      (t.fld .dramc Reg.Hdr.EVENTS).testBit 1 = true) := by
  obtain ⟨-, region, -, event⟩ := s.uncorrectedAt_shows addr 6 0
  have mon := s.uncorrectedAt_keeps State.mon (fun _ _ _ _ => rfl) addr 6 0
  have done := exec_uncorrected on ecc (addr := addr) (region := 6) (unit := unit) ⟨by decide, by decide⟩
  rw [if_neg (by decide)] at done
  generalize s.uncorrectedAt addr 6 0 = u at done region event mon
  obtain ⟨fab, lost⟩ := u.regionLost_pool unit
  generalize u.regionLost 6 unit = t at done fab lost
  refine Answers.of_settle done ?_
  rw [State.settled_mon, State.settled_fld _ _ _ (by decide), State.settled_fld _ _ _ (by decide), lost, mon,
    State.fld_of_fab fab, State.fld_of_fab fab]
  exact ⟨rfl, region, event⟩

/-- Samples of the object's far history read as zero; other objects and the registers stay. -/
theorem State.farLost_shows (s : State) (n : Nat) :
    (s.farLost n).fab = s.fab ∧ (∀ m, m ≠ n → (s.farLost n).obj m = s.obj m) ∧
      ∀ k, Map.get 0 k ((s.farLost n).obj n).far = 0 ∨ Map.get 0 k ((s.farLost n).obj n).far = Map.get 0 k (s.obj n).far := by
  refine ⟨rfl, fun m hm => ?_, fun k => ?_⟩
  · exact State.obj_setObj_other _ _ _ _ hm
  · unfold State.farLost
    dsimp only
    rw [State.obj_setObj, Map.get_drop]
    split
    · exact .inl rfl
    · exact .inr rfl

theorem patrolScrub_answers_object {s : State} (on : s.watching = true) (ecc : s.bit .dramc Reg.Dramc.STATUS_ECC_ON = true)
    {addr n : Nat} (hn : n < s.model.objects) (small : n < 1024) : Answers (.patrolScrub addr 2 1 n false) s (fun t =>
      t.fld .dramc Reg.Dramc.UE_COUNT = (s.fld .dramc Reg.Dramc.UE_COUNT + 1) % 2 ^ 32 ∧
      t.fld .dramc Reg.Dramc.UE_REGION = 1 ∧ t.fld .dramc Reg.Dramc.UE_UNIT = n ∧
      (t.fld .dramc Reg.Hdr.EVENTS).testBit 1 = true ∧ (∀ m, m ≠ n → t.obj m = s.obj m) ∧
      ∀ k, Map.get 0 k (t.obj n).far = 0 ∨ Map.get 0 k (t.obj n).far = Map.get 0 k (s.obj n).far) := by
  obtain ⟨count, region, unit, event⟩ := s.uncorrectedAt_shows addr 1 n
  have model := s.uncorrectedAt_keeps State.model (fun _ _ _ _ => rfl) addr 1 n
  have objs (m : Nat) := s.uncorrectedAt_keeps (State.obj · m) (fun _ _ _ _ => rfl) addr 1 n
  have done := exec_uncorrected on ecc (addr := addr) (region := 1) (unit := n) ⟨by decide, by decide⟩
  rw [if_pos (by decide)] at done
  generalize s.uncorrectedAt addr 1 n = u at done count region unit event model objs
  rw [u.regionLost_object, if_pos (by rw [model]; exact hn)] at done
  obtain ⟨fab, others, far⟩ := u.farLost_shows n
  generalize u.farLost n = t at done fab others far
  have same := State.fld_of_fab fab .dramc
  have obj (m : Nat) : t.settled.obj m = t.obj m := t.settled_only.obj_eq m
  refine Answers.of_settle done ⟨?_, ?_, ?_, ?_, fun m hm => ?_, fun k => ?_⟩
  · rw [State.settled_fld _ _ _ (by decide), same]
    exact count
  · rw [State.settled_fld _ _ _ (by decide), same]
    exact region
  · rw [State.settled_fld _ _ _ (by decide), same]
    exact unit.trans (Nat.mod_eq_of_lt small)
  · rw [State.settled_fld _ _ _ (by decide), same]
    exact event
  · rw [obj, others m hm, objs]
  · rw [obj, ← objs n]
    exact far k

/-! Errors in SRAM (R519) -/

/-- The registers of an uncorrected error in SRAM. -/
def State.sramLogged (s : State) : State := (s.count .health Reg.Health.SRAM_UE_COUNT).event .health 7

theorem State.sramLogged_shows (s : State) :
    s.sramLogged.fld .health Reg.Health.SRAM_UE_COUNT = (s.fld .health Reg.Health.SRAM_UE_COUNT + 1) % 2 ^ 32 ∧
      (s.sramLogged.fld .health Reg.Hdr.EVENTS).testBit 7 = true := by
  refine ⟨?_, State.event_recorded _ _ (by decide)⟩
  unfold State.sramLogged
  rw [State.fld_event_apart _ _ _ (by decide)]
  exact State.fld_count_same _ _ ⟨by decide, by decide⟩ _

theorem State.sramLogged_keeps {β : Type} (view : State → β) (hv : ∀ s b f v, view (State.set s b f v) = view s)
    (s : State) : view s.sramLogged = view s := by
  unfold State.sramLogged State.count
  rw [State.event_eq_set _ _ (by decide), hv, hv]

/-- What is lost with the word, by partition. -/
def State.sramLost (s : State) (part unit : Nat) : State :=
  match part with
  | 0 =>
    if unit < s.model.objects then
      let (v, s) := s.fresh
      let o := s.obj unit
      s.setObj unit { o with near := o.near.put 0 (v % 1024) 0 }
    else if 1024 ≤ unit && unit < 1024 + s.model.outputs then s.headLost (unit - 1024)
    else if 2048 ≤ unit && unit < 2304 then s.bufferLost (unit - 2048)
    else s
  | 1 =>
    if unit < s.model.objects || (1024 ≤ unit && unit < 1024 + s.model.outputs) then
      { s with mon := { s.mon with rebuild := s.mon.rebuild ++ [(decide (1024 ≤ unit), unit % 1024)] } }
    else s
  | 2 => s.wordLost unit
  | 3 => s.warmReset 6
  | _ => s

theorem State.sramLost_tables (s : State) {unit : Nat}
    (hu : unit < s.model.objects ∨ (1024 ≤ unit ∧ unit < 1024 + s.model.outputs)) : (s.sramLost 1 unit).fab = s.fab ∧
      (s.sramLost 1 unit).mon = { s.mon with rebuild := s.mon.rebuild ++ [(decide (1024 ≤ unit), unit % 1024)] } := by
  have lost : s.sramLost 1 unit = { s with
      mon := { s.mon with rebuild := s.mon.rebuild ++ [(decide (1024 ≤ unit), unit % 1024)] } } :=
    if_pos (by simpa using hu)
  rw [lost]
  exact ⟨rfl, rfl⟩

theorem State.sramLost_program (s : State) (unit : Nat) : s.sramLost 2 unit = s.wordLost unit := rfl

section
variable {s : State} (on : s.watching = true)
include on

theorem idle_neg : ¬ ((!s.watching) = true) := by
  rw [on]
  decide

theorem sramScrub_answers_corrected {part unit : Nat} : Answers (.sramScrub part 1 unit) s (fun t =>
    t.fld .health Reg.Health.SRAM_CE_COUNT = (s.fld .health Reg.Health.SRAM_CE_COUNT + 1) % 2 ^ 32 ∧
    (t.fld .health Reg.Hdr.EVENTS).testBit 6 = true ∧
    OnlyWords s t [wordAt .health Reg.Health.SRAM_CE_COUNT, wordAt .health Reg.Hdr.EVENTS]) := by
  have done : exec (.sramScrub part 1 unit) s = settle ((s.count .health Reg.Health.SRAM_CE_COUNT).event .health 6) :=
    congrArg settle ((if_neg (idle_neg on)).trans (if_pos rfl))
  refine Answers.of_settle done ⟨?_, ?_, OnlyWords.settled ?_⟩
  · rw [State.settled_fld _ _ _ (by decide), State.fld_event_apart _ _ _ (by decide)]
    exact State.fld_count_same _ _ ⟨by decide, by decide⟩ _
  · rw [State.settled_fld _ _ _ (by decide)]
    exact State.event_recorded _ _ (by decide)
  · rw [State.event_eq_set _ _ (by decide)]
    exact ((OnlyWords.refl s _).set_in _ _ _ (by decide)).set_in _ _ _ (by decide)

theorem exec_sramScrub_lost (part unit : Nat) :
    exec (.sramScrub part 2 unit) s = settle (s.sramLogged.sramLost part unit) := by
  refine congrArg settle ((if_neg (idle_neg on)).trans ((if_neg (by decide)).trans ((if_pos rfl).trans ?_)))
  unfold State.sramLogged State.sramLost
  rfl

theorem sramScrub_answers_tables {unit : Nat}
    (hu : unit < s.model.objects ∨ (1024 ≤ unit ∧ unit < 1024 + s.model.outputs)) :
    Answers (.sramScrub 1 2 unit) s (fun t =>
      t.fld .health Reg.Health.SRAM_UE_COUNT = (s.fld .health Reg.Health.SRAM_UE_COUNT + 1) % 2 ^ 32 ∧
      (t.fld .health Reg.Hdr.EVENTS).testBit 7 = true ∧
      t.mon.rebuild = s.mon.rebuild ++ [(decide (1024 ≤ unit), unit % 1024)]) := by
  obtain ⟨count, event⟩ := s.sramLogged_shows
  have model := s.sramLogged_keeps State.model (fun _ _ _ _ => rfl)
  have mon := s.sramLogged_keeps State.mon (fun _ _ _ _ => rfl)
  have done := exec_sramScrub_lost on 1 unit
  generalize s.sramLogged = u at done count event model mon
  obtain ⟨fab, lost⟩ := u.sramLost_tables (unit := unit) (by rw [model]; exact hu)
  generalize u.sramLost 1 unit = t at done fab lost
  refine Answers.of_settle done ?_
  rw [State.settled_mon, State.settled_fld _ _ _ (by decide), State.settled_fld _ _ _ (by decide), lost, mon,
    State.fld_of_fab fab, State.fld_of_fab fab]
  exact ⟨count, event, rfl⟩

omit on in
/-- The events of the health page stand apart from the words of a context. -/
theorem eventsNotCtx (n : Nat) : wordAt .health Reg.Hdr.EVENTS ∉ ctxWords n := by
  have low : ∀ w ∈ ctxWords n, 0x100000 ≤ w := by
    simp only [ctxWords, List.forall_mem_cons, wordAt, Blk.base]
    exact ⟨by omega, by omega, by omega, by omega, fun _ h => absurd h List.not_mem_nil⟩
  exact fun h => absurd (low _ h) (by decide)

theorem sramScrub_answers_program {unit : Nat} (hu : unit < 1024) (runs : (s.obj unit).ctx.state = .running) :
    Answers (.sramScrub 2 2 unit) s (fun t => (t.obj unit).ctx.state = .fault ∧
      t.fld (.obj unit) Reg.Obj.CTX_FAULT = 4 ∧ (t.fld .health Reg.Hdr.EVENTS).testBit 7 = true) := by
  obtain ⟨-, event⟩ := s.sramLogged_shows
  have obj := s.sramLogged_keeps (State.obj · unit) (fun _ _ _ _ => rfl)
  have done := exec_sramScrub_lost on 2 unit
  generalize s.sramLogged = u at done event obj
  have lost : u.wordLost unit = u.setCtx unit ((u.obj unit).ctx.toFault 4).1 := by
    unfold State.wordLost
    rw [if_pos hu]
    dsimp only
    rw [obj, runs]
  rw [u.sramLost_program, lost] at done
  obtain ⟨becomes, state, fault⟩ := ctxBecomes_of_setCtx (u.setCtx unit ((u.obj unit).ctx.toFault 4).1).settled_only
    List.not_mem_nil
  have ctx := u.obj_setCtx unit ((u.obj unit).ctx.toFault 4).1
  have kept := ((u.setCtx_only unit ((u.obj unit).ctx.toFault 4).1).fld_eq (eventsNotCtx unit) (by decide)).trans
    (u.fld_setObj _ _ _ _)
  have failed : ((u.obj unit).ctx.toFault 4).1.state = .fault ∧ ((u.obj unit).ctx.toFault 4).1.fault = 4 := ⟨rfl, rfl⟩
  generalize ((u.obj unit).ctx.toFault 4).1 = k at *
  generalize u.setCtx unit k = t at *
  refine Answers.of_settle done ⟨?_, ?_, ?_⟩
  · rw [t.settled_only.obj_eq, ctx]
    exact failed.1
  · rw [fault, failed.2]
    decide
  · rw [State.settled_fld _ _ _ (by decide), kept]
    exact event

end

end Sys2Proof.Machine
end

section
/-! PROOFS. The temperature (R520 to R523). -/

namespace Sys2Proof.Machine

open Sys2Proof

/-! Lists of samples -/

/-- A sample that each step stores stands after a whole list. -/
theorem foldl_zipIdx_each {σ α : Type} {f : σ → α × Nat → σ} {t : σ} (I : σ → Prop) (Q : Nat → α → σ → Prop) (l : List α)
    (h0 : I t) (step : ∀ u a j, I u → I (f u (a, j)) ∧ Q j a (f u (a, j)) ∧ ∀ k b, k ≠ j → Q k b u → Q k b (f u (a, j))) :
    I (l.zipIdx.foldl f t) ∧ ∀ j (hj : j < l.length), Q j l[j] (l.zipIdx.foldl f t) := by
  induction l using List.reverseRecOn with
  | nil => exact ⟨h0, fun j hj => absurd hj (Nat.not_lt_zero j)⟩
  | append_singleton l a ih =>
    obtain ⟨kept, each⟩ := ih
    have last : (l ++ [a]).zipIdx.foldl f t = f (l.zipIdx.foldl f t) (a, l.length) := by
      rw [List.zipIdx_append, List.foldl_append, Nat.zero_add]
      rfl
    obtain ⟨next, here, stays⟩ := step (l.zipIdx.foldl f t) a l.length kept
    rw [last]
    refine ⟨next, fun j hj => ?_⟩
    rcases Nat.lt_or_ge j l.length with hl | hl
    · rw [List.getElem_append_left hl]
      exact stays j _ hl.ne (each j hl)
    · obtain rfl : j = l.length := by
        rw [List.length_append, List.length_singleton] at hj
        omega
      rw [List.getElem_append_right (Nat.le_refl _)]
      simpa using here

/-! What a change of the curtain's causes leaves (R272, R493) -/

/-- The fields in which the curtain shows its state, its causes and their event. -/
def curtainFields : List (Blk × Fld) :=
  [(.curtain, Reg.Curtain.STATUS_CAUSE), (.curtain, Reg.Curtain.STATUS_STATE), (.curtain, Reg.Hdr.EVENTS)]

/-- A step of the curtain: its own fields alone, and neither the monitors nor the thermal cause. -/
structure CurtainActs (s t : State) : Prop where
  writes : Writes s t curtainFields
  mon : t.mon = s.mon
  therm : t.curtain.therm = s.curtain.therm

theorem CurtainActs.refl (s : State) : CurtainActs s s := ⟨.refl s _, rfl, rfl⟩

theorem CurtainActs.trans {s t u : State} (h : CurtainActs s t) (k : CurtainActs t u) : CurtainActs s u :=
  ⟨h.writes.trans k.writes, k.mon.trans h.mon, k.therm.trans h.therm⟩

theorem CurtainActs.ite {s t u : State} {p : Prop} [Decidable p] (h : CurtainActs s t) (k : CurtainActs s u) :
    CurtainActs s (if p then t else u) := by
  split
  · exact h
  · exact k

theorem CurtainActs.inCurtain {s t : State} {c : Curtain} (h : CurtainActs s t) (hc : c.therm = t.curtain.therm) :
    CurtainActs s { t with curtain := c } := ⟨h.writes.trans (.of_act rfl), h.mon, hc.trans h.therm⟩

theorem CurtainActs.setCurtain {s t : State} {c : Curtain} (h : CurtainActs s t) (hc : c.therm = t.curtain.therm) :
    CurtainActs s (t.setCurtain c) :=
  ⟨(h.inCurtain hc).writes.set _ (by simp [curtainFields]), h.mon, hc.trans h.therm⟩

theorem CurtainActs.event {s t : State} (h : CurtainActs s t) (i : Nat) : CurtainActs s (t.event .curtain i) :=
  ⟨h.writes.event i (by simp [curtainFields]), (State.event_mon _ _ _).trans h.mon,
    (congrArg Curtain.therm (State.event_curtain _ _ _)).trans h.therm⟩

theorem CurtainActs.tellPeer {s t : State} (h : CurtainActs s t) (m : PeerFrame) : CurtainActs s (t.tellPeer m) := by
  obtain ⟨tw, told⟩ := t.tellPeer_shape m
  rw [told]
  exact ⟨h.writes.trans (.of_act rfl), h.mon, h.therm⟩

theorem State.latchCause_acts (s : State) : CurtainActs s s.latchCause := by
  refine .ite (CurtainActs.event (CurtainActs.setCurtain (.refl s) ?_) 0) (CurtainActs.setCurtain (.refl s) ?_) <;> rfl

theorem State.reportCauses_acts (s : State) : CurtainActs s s.reportCauses := by
  have fresh : CurtainActs s s.fresh.2 := ⟨.of_act rfl, rfl, rfl⟩
  refine .ite (CurtainActs.tellPeer (CurtainActs.inCurtain fresh ?_) _) ((CurtainActs.refl s).tellPeer _)
  rfl

theorem State.setCauses_acts (s : State) (v : Nat) : CurtainActs s (s.setCauses v) := by
  have shown : CurtainActs s (s.set .curtain Reg.Curtain.STATUS_CAUSE v) :=
    ⟨(Writes.refl s _).set v (by simp [curtainFields]), rfl, rfl⟩
  generalize hu : s.set .curtain Reg.Curtain.STATUS_CAUSE v = u at shown
  have latched : CurtainActs s (if s.causes ≠ 0 ∧ v = 0 then
      { u with curtain := { u.curtain with clearedAt := some u.render.tick } } else if v ≠ 0 then u.latchCause else u) :=
    .ite (shown.inCurtain rfl) (.ite (shown.trans u.latchCause_acts) shown)
  unfold State.setCauses
  rw [hu]
  exact .ite (latched.trans (State.reportCauses_acts _)) latched

theorem State.thermEvent_shows (s : State) (on : Bool) : Writes s (s.thermEvent on) curtainFields ∧
    (s.thermEvent on).mon = s.mon ∧ (s.thermEvent on).curtain.therm = on := by
  have acts := ({ s with curtain := { s.curtain with therm := on } } : State).setCauses_acts
  exact ⟨(Writes.of_act rfl).trans (acts _).writes, (acts _).mon, (acts _).therm⟩

/-! A sample of the sixteen sensors (R520, R521) -/

def State.tempsShown (s : State) (temps : List Int) : State :=
  temps.zipIdx.foldl (fun s (e : Int × Nat) => s.set .health (Reg.Health.TEMP e.2) (e.1 % 65536).toNat) s

theorem temp_fits (i : Nat) : Fits (Reg.Health.TEMP i) := ⟨show 0 + 16 ≤ 32 by decide, show 0x1900 < 2 ^ 16 by decide⟩

theorem State.tempsShown_temp (s : State) (temps : List Int) {i : Nat} (hi : i < temps.length) :
    (s.tempsShown temps).fld .health (Reg.Health.TEMP i) = (temps.getD i 0 % 65536).toNat := by
  have each := (foldl_zipIdx_each (f := fun (s : State) (e : Int × Nat) =>
      s.set .health (Reg.Health.TEMP e.2) (e.1 % 65536).toNat) (t := s) (fun _ => True)
    (fun i (a : Int) u => u.fld .health (Reg.Health.TEMP i) = (a % 65536).toNat) temps trivial
    (fun u a j _ => ⟨trivial, ?_, fun k b hk hb => ?_⟩)).2 i hi
  · rw [List.getD_eq_getElem _ _ hi]
    exact each
  · refine (State.fld_set_same _ _ _ _ (temp_fits j)).trans (Nat.mod_eq_of_lt ?_)
    have := Int.emod_lt_of_pos a (show (0 : Int) < 65536 by decide)
    simp only [Reg.Health.TEMP]
    omega
  · refine (State.fld_set_other _ _ (.inl ?_)).trans hb
    simp only [wordAt, Blk.base, Reg.Health.TEMP]
    omega

theorem State.tempsShown_keeps (s : State) (temps : List Int) {f : Fld} (hf : f.off < 0x80) :
    (s.tempsShown temps).fld .health f = s.fld .health f := by
  refine foldl_keeps (State.fld · .health f) (fun u e _ => State.fld_set_other _ _ (.inl ?_)) s
  simp only [wordAt, Blk.base, Reg.Health.TEMP]
  omega

theorem State.tempsShown_mon (s : State) (temps : List Int) : (s.tempsShown temps).mon = s.mon := by
  unfold State.tempsShown
  exact foldl_keeps State.mon (fun _ _ _ => State.set_mon _ _ _ _) s

theorem hottest_lt (temps : List Int) : (hottest temps).2 < 2 ^ 4 := by
  refine List.foldlRecOn (motive := fun a : Int × Nat => a.2 < 2 ^ 4) (temps.take 14).zipIdx
    (fun (a : Int × Nat) (e : Int × Nat) => if a.1 < e.1 then e else a) (show 0 < 2 ^ 4 by decide) fun a ha e he => ?_
  have bound : e.2 < 14 := by
    have := List.snd_lt_of_mem_zipIdx he
    rw [List.length_take] at this
    omega
  split
  · omega
  · exact ha

/-- The hottest sensor is shown, and the highest temperature seen. -/
def State.hotShown (s : State) (hot : Int) (k : Nat) : State :=
  let s := (s.set .health Reg.Health.TEMP_HOT (hot % 65536).toNat).set .health Reg.Health.TEMP_HOT_SENSOR k
  if signed 16 (s.fld .health Reg.Health.TEMP_PEAK) < hot then s.set .health Reg.Health.TEMP_PEAK (hot % 65536).toNat else s

/-- The fields of the hottest sensor. -/
def hotFields : List (Blk × Fld) :=
  [(.health, Reg.Health.TEMP_HOT), (.health, Reg.Health.TEMP_HOT_SENSOR), (.health, Reg.Health.TEMP_PEAK)]

theorem State.hotShown_writes (s : State) (hot : Int) (k : Nat) : Writes s (s.hotShown hot k) hotFields := by
  have both := ((Writes.refl s hotFields).set (b := .health) (f := Reg.Health.TEMP_HOT) (hot % 65536).toNat (by simp [hotFields])).set
    (b := .health) (f := Reg.Health.TEMP_HOT_SENSOR) k (by simp [hotFields])
  exact .ite (both.set _ (by simp [hotFields])) both

theorem State.hotShown_shows (s : State) (hot : Int) {k : Nat} (hk : k < 2 ^ 4) :
    (s.hotShown hot k).fld .health Reg.Health.TEMP_HOT = (hot % 65536).toNat ∧
      (s.hotShown hot k).fld .health Reg.Health.TEMP_HOT_SENSOR = k ∧ (s.hotShown hot k).mon = s.mon := by
  have code : (hot % 65536).toNat < 2 ^ 16 := by
    have := Int.emod_lt_of_pos hot (show (0 : Int) < 65536 by decide)
    omega
  refine ⟨?_, ?_, (when_keeps State.mon (State.set_mon _ _ _ _)).trans ((State.set_mon _ _ _ _).trans (State.set_mon _ _ _ _))⟩
  · refine (when_keeps (State.fld · .health Reg.Health.TEMP_HOT) (State.fld_set_apart _ _ _ (by decide))).trans ?_
    rw [State.fld_set_apart _ _ _ (by decide), State.fld_set_same _ _ _ _ ⟨by decide, by decide⟩]
    exact Nat.mod_eq_of_lt code
  · refine (when_keeps (State.fld · .health Reg.Health.TEMP_HOT_SENSOR) (State.fld_set_apart _ _ _ (by decide))).trans ?_
    rw [State.fld_set_same _ _ _ _ ⟨by decide, by decide⟩]
    exact Nat.mod_eq_of_lt hk

/-- The refresh interval asked for and the times below the clear levels. -/
def State.cooling (s : State) (temps : List Int) (hot : Int) : State :=
  let t14 := temps.getD 14 0
  let t15 := temps.getD 15 0
  let want := if 85 * 256 < t14 ∨ 85 * 256 < t15 then true
    else if t14 ≤ 82 * 256 ∧ t15 ≤ 82 * 256 then false else s.mon.want2x
  { s with mon := { s.mon with want2x := want, cool := s.coolSince hot } }

def State.warned (s : State) (hot : Int) : State :=
  if !s.mon.warn && decide ((s.fld .health Reg.Health.WARN_TEMP : Int) * 256 ≤ hot) then
    ({ s with mon := { s.mon with warn := true } }.event .health 0).event .greenroom 8
  else s

def State.throttledAt (s : State) (hot : Int) : State :=
  if !s.mon.throttle && s.bit .health Reg.Health.THROTTLE_EN &&
      decide ((s.fld .health Reg.Health.THROTTLE_TEMP : Int) * 256 ≤ hot) then
    let s := { s with mon := { s.mon with throttle := true } }
    if s.clocked then s else s.throttleBoundary
  else s

def State.criticalAt (s : State) (hot : Int) : State :=
  if !s.mon.critical && decide (((115 : Nat) : Int) * 256 ≤ hot) then
    (({ s with mon := { s.mon with critical := true } }.thermEvent true).event .health 1).event .greenroom 8
  else s

theorem exec_tempSample {s : State} (on : s.watching = true) {temps : List Int} (len : temps.length = 16) :
    exec (.tempSample temps) s = settle ((((((s.tempsShown temps).hotShown (hottest temps).1 (hottest temps).2).cooling temps
      (hottest temps).1).warned (hottest temps).1).throttledAt (hottest temps).1).criticalAt (hottest temps).1).showThermal := by
  have runs : ¬ ((!s.watching || decide (temps.length ≠ 16)) = true) := by rw [on, len]; decide
  refine congrArg settle ((if_neg runs).trans ?_)
  unfold State.tempsShown State.hotShown State.cooling State.warned State.throttledAt State.criticalAt
  rfl

/-! What each part of the sample leaves -/

/-- The fields in which the alarms of the temperature show. -/
def alarmFields : List (Blk × Fld) :=
  [(.health, Reg.Hdr.EVENTS), (.greenroom, Reg.Hdr.EVENTS), (.health, Reg.Health.STATE_THROTTLED),
    (.health, Reg.Health.STATE_THERM)] ++ curtainFields

theorem State.event_still (s : State) (b c : Blk) {k : Nat} (j : Nat) (hk : k < 31)
    (h : (s.fld c Reg.Hdr.EVENTS).testBit k = true) : ((s.event b j).fld c Reg.Hdr.EVENTS).testBit k = true := by
  have stays := State.event_stays s b c j hk h True
  rwa [if_pos trivial] at stays

theorem State.cooling_fab (s : State) (temps : List Int) (hot : Int) : (s.cooling temps hot).fab = s.fab := rfl

theorem State.cooling_mon (s : State) (temps : List Int) (hot : Int) : (s.cooling temps hot).mon.warn = s.mon.warn ∧
    (s.cooling temps hot).mon.throttle = s.mon.throttle ∧ (s.cooling temps hot).mon.critical = s.mon.critical :=
  ⟨rfl, rfl, rfl⟩

/-- The readings as they show, before any alarm. -/
theorem State.sampled_shows (s : State) {temps : List Int} (len : temps.length = 16) (hot : Int) {k : Nat} (hk : k < 2 ^ 4) :
    let u := ((s.tempsShown temps).hotShown hot k).cooling temps hot
    (∀ i, i < 16 → u.fld .health (Reg.Health.TEMP i) = (temps.getD i 0 % 65536).toNat) ∧
      u.fld .health Reg.Health.TEMP_HOT = (hot % 65536).toNat ∧ u.fld .health Reg.Health.TEMP_HOT_SENSOR = k ∧
      (∀ f, f ∈ [Reg.Health.WARN_TEMP, Reg.Health.THROTTLE_EN, Reg.Health.THROTTLE_TEMP] →
        u.fld .health f = s.fld .health f) ∧
      u.mon.warn = s.mon.warn ∧ u.mon.throttle = s.mon.throttle ∧ u.mon.critical = s.mon.critical := by
  have temp (i : Nat) (hi : i < 16) := s.tempsShown_temp temps (i := i) (by omega)
  have low (f : Fld) := s.tempsShown_keeps temps (f := f)
  have mon := s.tempsShown_mon temps
  generalize s.tempsShown temps = a at *
  obtain ⟨hotAt, sensor, mon'⟩ := a.hotShown_shows hot hk
  have writes := a.hotShown_writes hot k
  generalize a.hotShown hot k = b at *
  obtain ⟨warn, throttle, critical⟩ := b.cooling_mon temps hot
  have same := State.fld_of_fab (b.cooling_fab temps hot) .health
  generalize b.cooling temps hot = u at *
  rw [mon', mon] at warn throttle critical
  refine ⟨fun i hi => ?_, (same _).trans hotAt, (same _).trans sensor, fun f hf => ?_, warn, throttle, critical⟩
  · exact (same _).trans ((writes _ _ ((show ∀ i < 16, ∀ w ∈ hotFields, FldApart w.1 w.2 .health (Reg.Health.TEMP i) by decide)
      i hi)).trans (temp i hi))
  · exact (same _).trans ((writes _ _ ((show ∀ f ∈ [Reg.Health.WARN_TEMP, Reg.Health.THROTTLE_EN, Reg.Health.THROTTLE_TEMP],
      ∀ w ∈ hotFields, FldApart w.1 w.2 .health f by decide) f hf)).trans (low f ((show ∀ f ∈ [Reg.Health.WARN_TEMP,
        Reg.Health.THROTTLE_EN, Reg.Health.THROTTLE_TEMP], f.off < 0x80 by decide) f hf)))

theorem State.warned_shows (s : State) (hot : Int) :
    let reach := decide ((s.fld .health Reg.Health.WARN_TEMP : Int) * 256 ≤ hot)
    Writes s (s.warned hot) alarmFields ∧ (s.warned hot).mon = { s.mon with warn := s.mon.warn || reach } ∧
      (s.mon.warn = false → reach = true → ((s.warned hot).fld .health Reg.Hdr.EVENTS).testBit 0 = true ∧
        ((s.warned hot).fld .greenroom Reg.Hdr.EVENTS).testBit 8 = true) := by
  dsimp only
  unfold State.warned
  generalize hr : decide ((s.fld .health Reg.Health.WARN_TEMP : Int) * 256 ≤ hot) = reach
  have writes : Writes s { s with mon := { s.mon with warn := true } } alarmFields := .of_act rfl
  have mon : ({ s with mon := { s.mon with warn := true } } : State).mon = { s.mon with warn := true } := rfl
  generalize ({ s with mon := { s.mon with warn := true } } : State) = u at writes mon
  cases hw : s.mon.warn
  case true =>
    rw [if_neg (by rw [Bool.not_true, Bool.false_and]; decide), Bool.true_or, ← hw]
    exact ⟨.refl s _, rfl, fun off => absurd (hw.symm.trans off) (by decide)⟩
  case false =>
    rw [Bool.false_or]
    cases reach
    case false =>
      rw [if_neg (by decide)]
      exact ⟨.refl s _, by rw [← hw], fun _ off => absurd off (by decide)⟩
    case true =>
      rw [if_pos (by decide)]
      refine ⟨(writes.event 0 (by simp [alarmFields])).event 8 (by simp [alarmFields]), ?_, fun _ _ => ⟨?_, ?_⟩⟩
      · rw [State.event_mon, State.event_mon, mon]
      · exact State.event_still _ _ _ _ (by decide) (State.event_recorded _ _ (by decide))
      · exact State.event_recorded _ _ (by decide)

/-- The fields in which throttling shows. -/
def throttleFields : List (Blk × Fld) := [(.health, Reg.Hdr.EVENTS), (.health, Reg.Health.STATE_THROTTLED)]

/-- A change of THROTTLED leaves the other alarms. -/
theorem State.throttleBoundary_shows (s : State) : Writes s s.throttleBoundary throttleFields ∧ s.throttleBoundary.mon = s.mon ∧
    ((s.fld .health Reg.Hdr.EVENTS).testBit 0 = true → (s.throttleBoundary.fld .health Reg.Hdr.EVENTS).testBit 0 = true) ∧
    s.throttleBoundary.bit .health Reg.Health.STATE_THROTTLED = s.mon.throttle := by
  unfold State.throttleBoundary
  dsimp only
  split
  case isTrue same => exact ⟨.refl s _, rfl, id, same⟩
  case isFalse other =>
    have writes : Writes s (s.setBit .health Reg.Health.STATE_THROTTLED s.mon.throttle) throttleFields :=
      (Writes.refl s _).set _ (by simp [throttleFields])
    have events : (s.setBit .health Reg.Health.STATE_THROTTLED s.mon.throttle).fld .health Reg.Hdr.EVENTS =
        s.fld .health Reg.Hdr.EVENTS := State.fld_set_apart _ _ _ (by decide)
    have mon := s.setBit_mon .health Reg.Health.STATE_THROTTLED s.mon.throttle
    have shown : (s.setBit .health Reg.Health.STATE_THROTTLED s.mon.throttle).bit .health Reg.Health.STATE_THROTTLED =
        s.mon.throttle := State.bit_setBit_same _ _ _ _ ⟨by decide, by decide⟩ rfl
    generalize s.setBit .health Reg.Health.STATE_THROTTLED s.mon.throttle = u at writes events mon shown
    split
    · exact ⟨writes, mon, fun h => events ▸ h, shown⟩
    · exact ⟨writes.event 3 (by simp [throttleFields]), (State.event_mon _ _ _).trans mon,
        fun h => State.event_still _ _ _ _ (by decide) (events ▸ h),
        (State.bit_event_apart _ _ _ (by decide)).trans shown⟩

theorem State.throttledAt_shows (s : State) (hot : Int) :
    let reach := s.bit .health Reg.Health.THROTTLE_EN && decide ((s.fld .health Reg.Health.THROTTLE_TEMP : Int) * 256 ≤ hot)
    Writes s (s.throttledAt hot) throttleFields ∧ (s.throttledAt hot).mon = { s.mon with throttle := s.mon.throttle || reach } ∧
      ((s.fld .health Reg.Hdr.EVENTS).testBit 0 = true → ((s.throttledAt hot).fld .health Reg.Hdr.EVENTS).testBit 0 = true) := by

  dsimp only
  unfold State.throttledAt
  rw [Bool.and_assoc]
  generalize (s.bit .health Reg.Health.THROTTLE_EN && decide ((s.fld .health Reg.Health.THROTTLE_TEMP : Int) * 256 ≤ hot)) = reach
  have writes : Writes s { s with mon := { s.mon with throttle := true } } throttleFields := .of_act rfl
  have mon : ({ s with mon := { s.mon with throttle := true } } : State).mon = { s.mon with throttle := true } := rfl
  have same := State.fld_of_fab (s := s) (t := { s with mon := { s.mon with throttle := true } }) rfl
  generalize ({ s with mon := { s.mon with throttle := true } } : State) = u at writes mon same
  cases ht : s.mon.throttle
  case true =>
    rw [if_neg (by rw [Bool.not_true, Bool.false_and]; decide), Bool.true_or, ← ht]
    exact ⟨.refl s _, rfl, id⟩
  case false =>
    rw [Bool.false_or]
    cases reach
    case false =>
      rw [if_neg (by decide), ← ht]
      exact ⟨.refl s _, rfl, id⟩
    case true =>
      rw [if_pos (by decide)]
      obtain ⟨shown, kept, event, -⟩ := u.throttleBoundary_shows
      dsimp only
      split
      · exact ⟨writes, mon, fun h => by rw [same]; exact h⟩
      · exact ⟨writes.trans shown, kept.trans mon, fun h => event (by rw [same]; exact h)⟩

theorem State.criticalAt_shows (s : State) (hot : Int) :
    let reach := decide ((115 : Int) * 256 ≤ hot)
    Writes s (s.criticalAt hot) alarmFields ∧ (s.criticalAt hot).mon = { s.mon with critical := s.mon.critical || reach } ∧
      (s.mon.critical = false → reach = true → ((s.criticalAt hot).fld .health Reg.Hdr.EVENTS).testBit 1 = true ∧
        (s.criticalAt hot).curtain.therm = true) ∧
      ∀ b k, k < 31 → b = .health ∨ b = .greenroom → (s.fld b Reg.Hdr.EVENTS).testBit k = true →
        ((s.criticalAt hot).fld b Reg.Hdr.EVENTS).testBit k = true := by
  dsimp only
  unfold State.criticalAt
  rw [show ((115 : Nat) : Int) * 256 = 115 * 256 from rfl]
  generalize decide ((115 : Int) * 256 ≤ hot) = reach
  obtain ⟨acts, kept, therm⟩ := ({ s with mon := { s.mon with critical := true } } : State).thermEvent_shows true
  have writes : Writes s { s with mon := { s.mon with critical := true } } alarmFields := .of_act rfl
  have mon : ({ s with mon := { s.mon with critical := true } } : State).mon = { s.mon with critical := true } := rfl
  have same := State.fld_of_fab (s := s) (t := { s with mon := { s.mon with critical := true } }) rfl
  generalize ({ s with mon := { s.mon with critical := true } } : State) = u at *
  have events (b : Blk) (h : b = .health ∨ b = .greenroom) : (u.thermEvent true).fld b Reg.Hdr.EVENTS = s.fld b Reg.Hdr.EVENTS :=
    (acts _ _ (by rcases h with rfl | rfl <;> decide)).trans (same _ _)
  have all := writes.trans (acts.mono fun _ => List.mem_append_right _)
  rw [mon] at kept
  generalize u.thermEvent true = v at *
  cases hc : s.mon.critical
  case true =>
    rw [if_neg (by rw [Bool.not_true, Bool.false_and]; decide), Bool.true_or]
    exact ⟨.refl s _, by rw [← hc], fun off => absurd off (by decide), fun _ _ _ _ => id⟩
  case false =>
    rw [Bool.false_or]
    cases reach
    case false =>
      rw [if_neg (by decide)]
      exact ⟨.refl s _, by rw [← hc], fun _ off => absurd off (by decide), fun _ _ _ _ => id⟩
    case true =>
      rw [if_pos (by decide)]
      refine ⟨(all.event 1 (by simp [alarmFields])).event 8 (by simp [alarmFields]), ?_, fun _ _ => ⟨?_, ?_⟩,
        fun b k hk hb h => ?_⟩
      · rw [State.event_mon, State.event_mon, kept]
      · exact State.event_still _ _ _ _ (by decide) (State.event_recorded _ _ (by decide))
      · rw [State.event_curtain, State.event_curtain, therm]
      · exact State.event_still _ _ _ _ hk (State.event_still _ _ _ _ hk (by rw [events b hb]; exact h))

theorem State.showThermal_shows (s : State) : Writes s s.showThermal [(.health, Reg.Health.STATE_THERM)] ∧
    s.showThermal.mon = s.mon ∧ s.showThermal.curtain = s.curtain ∧ s.showThermal.fld .health Reg.Health.STATE_THERM =
      if s.mon.critical then 2 else if s.mon.warn then 1 else 0 := by
  unfold State.showThermal
  generalize hv : (if s.mon.critical then 2 else if s.mon.warn then 1 else 0) = v
  have small : v < 2 ^ 2 := by
    subst hv
    split
    · decide
    · split <;> decide
  exact ⟨(Writes.refl s _).set _ (by simp), State.set_mon _ _ _ _, State.set_curtain _ _ _ _,
    (State.fld_set_same _ _ _ _ ⟨by decide, by decide⟩).trans (Nat.mod_eq_of_lt small)⟩

theorem tempSample_answers {s : State} (on : s.watching = true) {temps : List Int} (len : temps.length = 16) :
    let hot := (hottest temps).1
    let crit := s.mon.critical || decide (115 * 256 ≤ hot)
    let warn := s.mon.warn || decide ((s.fld .health Reg.Health.WARN_TEMP : Int) * 256 ≤ hot)
    Answers (.tempSample temps) s (fun t =>
      (∀ i, i < 16 → t.fld .health (Reg.Health.TEMP i) = (temps.getD i 0 % 65536).toNat) ∧
      t.fld .health Reg.Health.TEMP_HOT = (hot % 65536).toNat ∧
      t.fld .health Reg.Health.TEMP_HOT_SENSOR = (hottest temps).2 ∧ t.mon.warn = warn ∧ t.mon.critical = crit ∧
      t.mon.throttle = (s.mon.throttle || (s.bit .health Reg.Health.THROTTLE_EN &&
        decide ((s.fld .health Reg.Health.THROTTLE_TEMP : Int) * 256 ≤ hot))) ∧
      t.fld .health Reg.Health.STATE_THERM = (if crit then 2 else if warn then 1 else 0) ∧
      (s.mon.warn = false → warn = true → (t.fld .health Reg.Hdr.EVENTS).testBit 0 = true ∧
        (t.fld .greenroom Reg.Hdr.EVENTS).testBit 8 = true) ∧
      (s.mon.critical = false → crit = true → (t.fld .health Reg.Hdr.EVENTS).testBit 1 = true ∧
        t.curtain.therm = true)) := by
  intro hot crit warn
  have done := exec_tempSample on len
  obtain ⟨temp, hotAt, sensor, limits, warnIs, throttleIs, criticalIs⟩ := s.sampled_shows len hot (hottest_lt temps)
  change exec (.tempSample temps) s = settle (((((((s.tempsShown temps).hotShown hot (hottest temps).2).cooling temps
      hot).warned hot).throttledAt hot).criticalAt hot).showThermal) at done
  generalize ((s.tempsShown temps).hotShown hot (hottest temps).2).cooling temps hot = a at *
  obtain ⟨w1, m1, e1⟩ := a.warned_shows hot
  generalize a.warned hot = b at *
  obtain ⟨w2, m2, e2⟩ := b.throttledAt_shows hot
  generalize b.throttledAt hot = c at *
  obtain ⟨w3, m3, e3, stays⟩ := c.criticalAt_shows hot
  generalize c.criticalAt hot = d at *
  obtain ⟨w4, m4, curtain, therm⟩ := d.showThermal_shows
  generalize d.showThermal = t at *
  have low : ∀ f ∈ [Reg.Health.WARN_TEMP, Reg.Health.THROTTLE_EN, Reg.Health.THROTTLE_TEMP],
      ∀ w ∈ alarmFields, FldApart w.1 w.2 .health f := by decide
  rw [limits _ (by simp)] at m1 e1
  rw [State.bit_eq_of_fld ((w1 _ _ (low _ (by simp))).trans (limits _ (by simp))), w1 _ _ (low _ (by simp)),
    limits _ (by simp)] at m2
  have warnDef : warn = (s.mon.warn || decide ((s.fld .health Reg.Health.WARN_TEMP : Int) * 256 ≤ hot)) := rfl
  have critDef : crit = (s.mon.critical || decide (115 * 256 ≤ hot)) := rfl
  have critC : c.mon.critical = s.mon.critical := by
    rw [m2, m1]
    exact criticalIs
  have mon : t.mon = { a.mon with warn := warn, throttle := s.mon.throttle || (s.bit .health Reg.Health.THROTTLE_EN &&
      decide ((s.fld .health Reg.Health.THROTTLE_TEMP : Int) * 256 ≤ hot)), critical := crit } := by
    rw [m4, m3, m2, m1]
    dsimp only
    rw [warnIs, throttleIs, criticalIs]
  have all : Writes a t alarmFields := ((w1.trans (w2.mono (by simp [throttleFields, alarmFields]))).trans w3).trans
    (w4.mono (by simp [alarmFields]))
  have events (b : Blk) (k : Nat) (hb : b = .health ∨ b = .greenroom) (hk : k < 31)
      (h : (c.fld b Reg.Hdr.EVENTS).testBit k = true) : (t.settled.fld b Reg.Hdr.EVENTS).testBit k = true := by
    rw [State.settled_fld _ _ _ (by rcases hb with rfl | rfl <;> decide), w4 _ _ (by rcases hb with rfl | rfl <;> decide)]
    exact stays b k hk hb h
  refine Answers.of_settle done ⟨fun i hi => ?_, ?_, ?_, ?_, ?_, ?_, ?_, fun off on => ?_, fun off on => ⟨?_, ?_⟩⟩
  · rw [State.settled_fld _ _ _ ((show ∀ i < 16, Blk.health.base + (Reg.Health.TEMP i).off ∉ statusWords by decide) i hi),
      all _ _ ((show ∀ i < 16, ∀ w ∈ alarmFields, FldApart w.1 w.2 .health (Reg.Health.TEMP i) by decide) i hi)]
    exact temp i hi
  · rw [State.settled_fld _ _ _ (by decide), all _ _ (by decide)]
    exact hotAt
  · rw [State.settled_fld _ _ _ (by decide), all _ _ (by decide)]
    exact sensor
  · rw [State.settled_mon, mon]
  · rw [State.settled_mon, mon]
  · rw [State.settled_mon, mon]
  · rw [State.settled_fld _ _ _ (by decide), therm, ← m4, mon]
  · obtain ⟨health, greenroom⟩ := e1 (warnIs.trans off) (by rw [off] at warnDef; exact warnDef.symm.trans on)
    exact ⟨events _ _ (.inl rfl) (by decide) (e2 health), events _ _ (.inr rfl) (by decide) (by rwa [w2 _ _ (by decide)])⟩
  · rw [State.settled_fld _ _ _ (by decide), w4 _ _ (by decide)]
    exact (e3 (critC.trans off) (by rw [off] at critDef; exact critDef.symm.trans on)).1
  · rw [State.settled_curtain, curtain]
    exact (e3 (critC.trans off) (by rw [off] at critDef; exact critDef.symm.trans on)).2

end Sys2Proof.Machine
end

section
/-! PROOFS. Thermal trips, lost clocks, voltages and adaptive scaling (R521 to R526, R559). -/

namespace Sys2Proof.Machine

open Sys2Proof

/-- A step that changes the monitors alone. -/
theorem Answers.monitors {c : Instr} {s : State} {m : Monitors} (h : exec c s = settle { s with mon := m }) :
    Answers c s (fun t => t.mon = m ∧ OnlyWords { s with mon := t.mon } t []) := by
  have mon : ({ s with mon := m } : State).settled.mon = m := State.settled_mon _
  refine Answers.of_settle h ⟨mon, ?_⟩
  rw [mon]
  exact State.settled_only _

/-! The levels at which alarms clear (R521) -/

theorem State.withMon_shows (s : State) (m : Monitors) : ({ s with mon := m } : State).mon = m ∧
    ({ s with mon := m } : State).fab = s.fab ∧ ({ s with mon := m } : State).clocked = s.clocked := ⟨rfl, rfl, rfl⟩

section
variable {s : State}

theorem thresholdClear_answers_warning (warn : s.mon.warn = true) (cool : s.cooled 0 = true) :
    Answers (.thresholdClear 0) s (fun t => t.mon = { s.mon with warn := false } ∧
      t.fld .health Reg.Health.STATE_THERM = if s.mon.critical then 2 else 0) := by
  have done : exec (.thresholdClear 0) s = settle ({ s with mon := { s.mon with warn := false } } : State).showThermal :=
    congrArg settle ((if_neg (by rw [cool]; decide)).trans (if_pos (by rw [warn]; decide)))
  obtain ⟨mon, -, -⟩ := s.withMon_shows { s.mon with warn := false }
  generalize ({ s with mon := { s.mon with warn := false } } : State) = u at done mon
  obtain ⟨-, kept, -, therm⟩ := u.showThermal_shows
  rw [mon] at kept therm
  refine Answers.of_settle done ⟨(State.settled_mon _).trans kept, ?_⟩
  rw [State.settled_fld _ _ _ (by decide), therm]
  rfl

theorem thresholdClear_answers_throttle (throttle : s.mon.throttle = true) (cool : s.cooled 1 = true) :
    Answers (.thresholdClear 1) s (fun t => t.mon = { s.mon with throttle := false } ∧
      (s.clocked = false → t.bit .health Reg.Health.STATE_THROTTLED = false)) := by
  have done : exec (.thresholdClear 1) s = settle (if ({ s with mon := { s.mon with throttle := false } } : State).clocked then
      { s with mon := { s.mon with throttle := false } } else
      ({ s with mon := { s.mon with throttle := false } } : State).throttleBoundary) :=
    congrArg settle ((if_neg (by rw [cool]; decide)).trans ((if_neg (by simp)).trans (if_pos (by rw [throttle]; decide))))
  obtain ⟨mon, -, clocked⟩ := s.withMon_shows { s.mon with throttle := false }
  generalize ({ s with mon := { s.mon with throttle := false } } : State) = u at done mon clocked
  obtain ⟨-, kept, -, shown⟩ := u.throttleBoundary_shows
  rw [clocked] at done
  refine Answers.of_settle done ⟨?_, fun off => ?_⟩
  · rw [State.settled_mon, ← mon]
    split
    · rfl
    · exact kept
  · rw [State.settled_bit _ _ _ (by decide), off, if_neg (by decide), shown, mon]

theorem thresholdClear_answers_critical (critical : s.mon.critical = true) (cool : s.cooled 2 = true) :
    Answers (.thresholdClear 2) s (fun t => t.mon = { s.mon with critical := false } ∧
      (t.fld .health Reg.Hdr.EVENTS).testBit 2 = true ∧ t.curtain.therm = false ∧
      t.fld .health Reg.Health.STATE_THERM = if s.mon.warn then 1 else 0) := by
  have done : exec (.thresholdClear 2) s =
      settle ((({ s with mon := { s.mon with critical := false } } : State).thermEvent false).event .health 2).showThermal :=
    congrArg settle ((if_neg (by rw [cool]; decide)).trans ((if_neg (by simp)).trans ((if_neg (by simp)).trans
      (if_pos (by rw [critical]; decide)))))
  obtain ⟨mon, -, -⟩ := s.withMon_shows { s.mon with critical := false }
  generalize ({ s with mon := { s.mon with critical := false } } : State) = u at done mon
  obtain ⟨-, kept, curtain⟩ := u.thermEvent_shows false
  generalize u.thermEvent false = v at done kept curtain
  have monV := (v.event_mon .health 2).trans (kept.trans mon)
  have curtainV := v.event_curtain .health 2
  have event : ((v.event .health 2).fld .health Reg.Hdr.EVENTS).testBit 2 = true := State.event_recorded _ _ (by decide)
  generalize v.event .health 2 = w at done monV curtainV event
  obtain ⟨writes, keptW, curtainW, therm⟩ := w.showThermal_shows
  rw [monV] at keptW therm
  refine Answers.of_settle done ⟨(State.settled_mon _).trans keptW, ?_, ?_, ?_⟩
  · rw [State.settled_fld _ _ _ (by decide), writes _ _ (by decide)]
    exact event
  · rw [State.settled_curtain, curtainW, curtainV]
    exact curtain
  · rw [State.settled_fld _ _ _ (by decide), therm]
    rfl

theorem thresholdClear_answers_idle {k : Nat} (h : s.cooled k = false ∨ (k = 0 ∧ s.mon.warn = false) ∨
    (k = 1 ∧ s.mon.throttle = false) ∨ (k = 2 ∧ s.mon.critical = false)) :
    Answers (.thresholdClear k) s (OnlyWords s · []) := by
  refine .unchanged (congrArg settle ?_)
  cases hc : s.cooled k
  case false => exact if_pos rfl
  case true =>
    refine (if_neg (by decide)).trans ?_
    rcases h with off | ⟨rfl, off⟩ | ⟨rfl, off⟩ | ⟨rfl, off⟩
    · exact absurd (hc.symm.trans off) (by decide)
    · simp [off]
    · simp [off]
    · simp [off]

end

/-! Gates low: a thermal trip and a lost clock (R523, R559) -/

theorem State.psOf_setPs_other (s : State) {k j : Nat} (e : PsEngine) (h : j ≠ k) : (s.setPs k e).psOf j = s.psOf j :=
  Map.get_put_other _ _ _ _ h _

/-- The engine of a power stage with its gates low. -/
def PsEngine.lowered (e : PsEngine) : PsEngine :=
  { e with switching := false, start := false, legs := [], gates := [], freewheel := false }

theorem State.lowered_low (u : State) (j : Nat) :
    ((u.setPs j (u.psOf j).lowered).psOf j).switching = false ∧ ((u.setPs j (u.psOf j).lowered).psOf j).legs = [] := by
  rw [State.psOf_setPs]
  exact ⟨rfl, rfl⟩

theorem State.gatesLow_shows (s : State) : s.gatesLow.mon = s.mon ∧ s.gatesLow.tdmTx = s.tdmTx ∧
    ∀ k, k < s.model.pss → (s.gatesLow.psOf k).switching = false ∧ (s.gatesLow.psOf k).legs = [] := by
  obtain ⟨⟨mon, tx⟩, each⟩ := foldl_range_each (f := fun (u : State) (k : Nat) => u.setPs k (u.psOf k).lowered) (t := s)
    (m := s.model.pss) (fun u => u.mon = s.mon ∧ u.tdmTx = s.tdmTx)
    (fun k u => (u.psOf k).switching = false ∧ (u.psOf k).legs = []) ⟨rfl, rfl⟩
    (fun u j _ h => ⟨h, u.lowered_low j, fun k hk low => by rwa [State.psOf_setPs_other _ _ hk]⟩)
  exact ⟨mon, tx, each⟩

theorem thermalTrip_answers {s : State} (awake : s.fld .greenroom Reg.Greenroom.PWR_STATE ≠ 3) (first : s.mon.tripped = false) :
    Answers .thermalTrip s (fun t => t.mon = { s.mon with tripped := true, pmb := none, next := none } ∧
      ∀ k, k < s.model.pss → (t.psOf k).switching = false ∧ (t.psOf k).legs = []) := by
  have done : exec .thermalTrip s =
      settle ({ s with mon := { s.mon with tripped := true, pmb := none, next := none } } : State).gatesLow :=
    congrArg settle (if_neg (by rw [first, decide_eq_false awake]; decide))
  obtain ⟨mon, -, low⟩ :=
    ({ s with mon := { s.mon with tripped := true, pmb := none, next := none } } : State).gatesLow_shows
  refine Answers.of_settle done ⟨(State.settled_mon _).trans mon, fun k hk => ?_⟩
  rw [State.psOf_settled]
  exact low k hk

theorem thermalTrip_answers_idle {s : State} (h : s.fld .greenroom Reg.Greenroom.PWR_STATE = 3 ∨ s.mon.tripped = true) :
    Answers .thermalTrip s (OnlyWords s · []) := by
  refine .unchanged (congrArg settle (if_pos ?_))
  rw [Bool.or_eq_true, decide_eq_true_eq]
  exact h

/-- What is left on a transmit port that loses its clock is zero. -/
theorem lowered_sent {m : Map PortState} {e : Nat × PortState} (h : e ∈ m.update ({} : PortState)
    (fun p => { p with sent := p.sent.map (fun v => v.map (fun _ => 0)) })) {v} (hv : v ∈ e.2.sent) : v = none ∨ v = some 0 := by
  unfold Map.update at h
  obtain ⟨p, -, rfl⟩ := List.mem_map.mp (List.mem_of_mem_filter h)
  obtain ⟨w, -, rfl⟩ := List.mem_map.mp hv
  cases w with
  | none => exact .inl rfl
  | some _ => exact .inr rfl

theorem refclkLoss_answers (s : State) : Answers .refclkLoss s (fun t => t.mon = { s.mon with refclkLost := true } ∧
    (∀ k, k < s.model.pss → (t.psOf k).switching = false) ∧ ∀ e ∈ t.tdmTx, ∀ v ∈ e.2.sent, v = none ∨ v = some 0) := by
  have done : exec .refclkLoss s = settle (
      let u := ({ s with mon := { s.mon with refclkLost := true } } : State).gatesLow
      { u with
        tdmTx := u.tdmTx.update ({} : PortState) (fun p => { p with sent := p.sent.map (fun v => v.map (fun _ => 0)) })
        aesTx := u.aesTx.update ({} : AesTxState) (fun p => { p with sent := p.sent.map (fun _ => (0, 0)) }) }) := rfl
  obtain ⟨mon, -, low⟩ := ({ s with mon := { s.mon with refclkLost := true } } : State).gatesLow_shows
  generalize ({ s with mon := { s.mon with refclkLost := true } } : State).gatesLow = u at done mon low
  refine Answers.of_settle done ⟨(State.settled_mon _).trans mon, fun k hk => ?_, fun e he v hv => ?_⟩
  · rw [State.psOf_settled]
    exact (low k hk).1
  · rw [State.settled_tdmTx] at he
    exact lowered_sent he hv

end Sys2Proof.Machine
end

section
/-! PROOFS. Voltages, process monitors and adaptive scaling (R524 to R527). -/

namespace Sys2Proof.Machine

open Sys2Proof

/-! The rails (R524) -/

/-- What the sample of one rail does. -/
def State.railShown (s : State) (e : Nat × Nat) : State :=
  let s := s.set .health (Reg.Health.VMON e.2) e.1
  match s.railWindow e.2 with
  | some (lo, hi) =>
    if 2 * e.1 < lo ∨ hi < 2 * e.1 then (s.stick .health Reg.Health.VMON_FLAGS e.2).event .health 4 else s
  | none => s

/-- A rail as it shows after its sample, with the windows of the state `s`. -/
def State.RailShows (s : State) (m mv : Nat) (t : State) : Prop :=
  t.fld .health (Reg.Health.VMON m) = mv % 2 ^ 12 ∧
    ∀ lo hi, s.railWindow m = some (lo, hi) → 2 * mv < lo ∨ hi < 2 * mv → m < 12 →
      (t.fld .health Reg.Health.VMON_FLAGS).testBit m = true ∧ (t.fld .health Reg.Hdr.EVENTS).testBit 4 = true

theorem vmon_fits (m : Nat) : Fits (Reg.Health.VMON m) := ⟨show 0 + 12 ≤ 32 by decide, show 0 < 2 ^ 12 by decide⟩

/-- A word below those of the rails lies apart from them. -/
theorem vmon_apart (m : Nat) {f : Fld} (hf : f.off < 0x80) : FldApart .health (Reg.Health.VMON m) .health f :=
  .inl (by simp only [wordAt, Blk.base, Reg.Health.VMON]; omega)

theorem vmon_apart_low (m : Nat) {f : Fld} (hf : f.off < 0x80) : FldApart .health f .health (Reg.Health.VMON m) :=
  .inl (by simp only [wordAt, Blk.base, Reg.Health.VMON]; omega)

theorem State.fld_stick (s : State) (b b' : Blk) (f : Fld) (i : Nat) (g : Fld) :
    (s.stick b f i).fld b' g = (s.set b f (s.fld b f ||| 2 ^ i)).fld b' g := by
  unfold State.stick
  dsimp only
  split <;> rfl

/-- Bits that were set stay when another is. -/
theorem State.flags_stay (s : State) {i k : Nat} (hk : k < 12) (h : (s.fld .health Reg.Health.VMON_FLAGS).testBit k = true) :
    ((s.stick .health Reg.Health.VMON_FLAGS i).fld .health Reg.Health.VMON_FLAGS).testBit k = true := by
  rw [State.fld_stick, State.fld_set_same _ _ _ _ ⟨by decide, by decide⟩, Nat.testBit_mod_two_pow, Nat.testBit_or, h,
    Bool.true_or, Bool.and_true]
  exact decide_eq_true hk

/-- The words of the rails' window and flags. -/
theorem State.railShown_shows (s u : State) (mv j : Nat) (hu : ∀ m, u.railWindow m = s.railWindow m) :
    (∀ m, (u.railShown (mv, j)).railWindow m = s.railWindow m) ∧ s.RailShows j mv (u.railShown (mv, j)) ∧
      ∀ k b, k ≠ j → s.RailShows k b u → s.RailShows k b (u.railShown (mv, j)) := by
  have core (t : State) (h : t.fld .health Reg.Health.CORE_MV = u.fld .health Reg.Health.CORE_MV) (m : Nat) :
      t.railWindow m = s.railWindow m := by
    rw [← hu m]
    unfold State.railWindow
    rw [h]
  have set := State.fld_set_other u mv (vmon_apart j (f := Reg.Health.CORE_MV) (by decide))
  have flags := State.fld_set_other u mv (vmon_apart j (f := Reg.Health.VMON_FLAGS) (by decide))
  have events := State.fld_set_other u mv (vmon_apart j (f := Reg.Hdr.EVENTS) (by decide))
  have here : (u.set .health (Reg.Health.VMON j) mv).fld .health (Reg.Health.VMON j) = mv % 2 ^ 12 :=
    State.fld_set_same _ _ _ _ (vmon_fits j)
  have others (k : Nat) (hk : k ≠ j) : (u.set .health (Reg.Health.VMON j) mv).fld .health (Reg.Health.VMON k) =
      u.fld .health (Reg.Health.VMON k) :=
    State.fld_set_other _ _ (.inl (by simp only [wordAt, Blk.base, Reg.Health.VMON]; omega))
  have window : (u.set .health (Reg.Health.VMON j) mv).railWindow j = s.railWindow j := core _ set j
  unfold State.railShown
  dsimp only
  rw [window]
  generalize u.set .health (Reg.Health.VMON j) mv = v at *
  have plain (k b : Nat) (hk : k ≠ j) (h : s.RailShows k b u) : s.RailShows k b v := by
    obtain ⟨value, out⟩ := h
    refine ⟨(others k hk).trans value, fun lo hi hw hout h12 => ?_⟩
    rw [flags, events]
    exact out lo hi hw hout h12
  have within (hin : ∀ lo hi, s.railWindow j = some (lo, hi) → ¬ (2 * mv < lo ∨ hi < 2 * mv)) : s.RailShows j mv v :=
    ⟨here, fun lo hi hw hout => absurd hout (hin lo hi hw)⟩
  split
  case h_2 none_ => exact ⟨core v set, within (fun lo hi hw => absurd (none_.symm.trans hw) (by simp)), plain⟩
  case h_1 lo hi some_ =>
    split
    case isFalse hin =>
      refine ⟨core v set, within (fun lo' hi' hw => ?_), plain⟩
      obtain ⟨rfl, rfl⟩ : lo = lo' ∧ hi = hi' := by simpa using some_.symm.trans hw
      exact hin
    case isTrue =>
      have low (f : Fld) (h1 : Apart Reg.Hdr.EVENTS f) (h2 : Apart Reg.Health.VMON_FLAGS f) :
          ((v.stick .health Reg.Health.VMON_FLAGS j).event .health 4).fld .health f = v.fld .health f :=
        (State.fld_event_apart _ _ _ h1).trans ((State.fld_stick _ _ _ _ _ _).trans (State.fld_set_apart _ _ _ h2))
      have rail (k : Nat) : ((v.stick .health Reg.Health.VMON_FLAGS j).event .health 4).fld .health (Reg.Health.VMON k) =
          v.fld .health (Reg.Health.VMON k) :=
        (State.fld_event_other _ _ (vmon_apart_low k (by decide))).trans ((State.fld_stick _ _ _ _ _ _).trans
          (State.fld_set_other _ _ (vmon_apart_low k (by decide))))
      have flag : ((v.stick .health Reg.Health.VMON_FLAGS j).event .health 4).fld .health Reg.Health.VMON_FLAGS =
          (v.stick .health Reg.Health.VMON_FLAGS j).fld .health Reg.Health.VMON_FLAGS := State.fld_event_apart _ _ _ (by decide)
      refine ⟨core _ ((low _ (by decide) (by decide)).trans set), ⟨(rail j).trans here, fun _ _ _ _ h12 => ⟨?_, ?_⟩⟩,
        fun k b hk h => ?_⟩
      · rw [flag]
        exact State.stick_testBit _ (by decide) ⟨by decide, by decide⟩ h12
      · exact State.event_recorded _ _ (by decide)
      · obtain ⟨value, out⟩ := plain k b hk h
        refine ⟨(rail k).trans value, fun lo hi hw hout h12 => ⟨?_, ?_⟩⟩
        · rw [flag]
          exact State.flags_stay _ h12 (out lo hi hw hout h12).1
        · exact State.event_recorded _ _ (by decide)

theorem vmonSample_answers {s : State} (on : s.watching = true) {mv : List Nat} (len : mv.length = 12) :
    Answers (.vmonSample mv) s (fun t => ∀ m, m < 12 → t.fld .health (Reg.Health.VMON m) = mv.getD m 0 % 2 ^ 12 ∧
      ∀ lo hi, s.railWindow m = some (lo, hi) → 2 * mv.getD m 0 < lo ∨ hi < 2 * mv.getD m 0 →
        (t.fld .health Reg.Health.VMON_FLAGS).testBit m = true ∧ (t.fld .health Reg.Hdr.EVENTS).testBit 4 = true) := by
  have runs : ¬ ((!s.watching || decide (mv.length ≠ 12)) = true) := by rw [on, len]; decide
  have done : exec (.vmonSample mv) s = settle (mv.zipIdx.foldl State.railShown s) := congrArg settle (if_neg runs)
  have each := (foldl_zipIdx_each (f := State.railShown) (t := s) (fun u => ∀ m, u.railWindow m = s.railWindow m)
    (fun m a u => s.RailShows m a u) mv (fun _ => rfl) (fun u a j hu => s.railShown_shows u a j hu)).2
  generalize mv.zipIdx.foldl State.railShown s = t at done each
  refine Answers.of_settle done fun m hm => ?_
  obtain ⟨value, out⟩ := each m (by omega)
  rw [List.getD_eq_getElem _ _ (by omega), State.settled_fld _ _ _ ((show ∀ m < 12,
    Blk.health.base + (Reg.Health.VMON m).off ∉ statusWords by decide) m hm), State.settled_fld _ _ _ (by decide),
    State.settled_fld _ _ _ (by decide)]
  exact ⟨value, fun lo hi hw hout => out lo hi hw hout hm⟩

/-! Requests to the regulator (R526) -/

theorem State.pmbusNext_writes (s : State) : Writes s s.pmbusNext [(.health, Reg.Health.CORE_MV)] := by
  unfold State.pmbusNext
  split
  · exact .refl s _
  · cases s.mon.next with
    | none => exact .refl s _
    | some v => exact .ite ((Writes.of_act rfl).set v (by simp)) (.of_act rfl)

theorem State.requestCore_writes (s : State) (mv : Nat) : Writes s (s.requestCore mv) [(.health, Reg.Health.CORE_MV)] :=
  .ite (.refl s _) ((Writes.of_act rfl).trans (State.pmbusNext_writes _))

theorem State.coreStep_writes (s : State) (up down : Bool) : Writes s (s.coreStep up down) [(.health, Reg.Health.CORE_MV)] :=
  .ite (.ite (.refl s _) (s.requestCore_writes _)) (.ite (.ite (s.requestCore_writes _) (.refl s _))
    (.ite (.ite (s.requestCore_writes _) (.refl s _)) (.refl s _)))

theorem State.pmbusNext_waiting {s : State} (h : s.mon.next = none) : s.pmbusNext = s := by
  unfold State.pmbusNext
  rw [h]
  exact ite_self _

/-- A voltage is written at once where no request is out. -/
theorem State.requestCore_shows {s : State} {v : Nat} (hold : s.bit .health Reg.Health.STATE_AVS_HOLD = false)
    (free : s.mon.pmb = none) (alive : s.dead = false) (cold : s.boot.warm = none) (mode : s.mon.voutMode = true) :
    (s.requestCore v).mon.pmb = some (some v, 0) ∧ (s.requestCore v).fld .health Reg.Health.CORE_MV = v % 2 ^ 10 := by
  have next : (({ s with mon := { s.mon with next := some v } } : State).mon.pmb.isSome ||
      ({ s with mon := { s.mon with next := some v } } : State).dead ||
      ({ s with mon := { s.mon with next := some v } } : State).boot.warm.isSome ||
      ({ s with mon := { s.mon with next := some v } } : State).bit .health Reg.Health.STATE_AVS_HOLD) = false := by
    have dead : ({ s with mon := { s.mon with next := some v } } : State).dead = s.dead := rfl
    have bit : ({ s with mon := { s.mon with next := some v } } : State).bit .health Reg.Health.STATE_AVS_HOLD =
        s.bit .health Reg.Health.STATE_AVS_HOLD := State.bit_eq_of_fld (State.fld_of_fab rfl _ _)
    rw [dead, bit, alive, hold]
    dsimp only
    rw [free, cold]
    rfl
  have sent : s.requestCore v = ({ s with mon := { s.mon with next := none, pmb := some (some v, 0) } } : State).set .health
      Reg.Health.CORE_MV v := by
    unfold State.requestCore State.pmbusNext
    rw [if_neg (by rw [hold]; decide), if_neg (Bool.eq_false_iff.mp next)]
    exact if_pos mode
  rw [sent]
  exact ⟨congrArg Monitors.pmb (State.set_mon _ _ _ _), State.fld_set_same _ _ _ _ ⟨by decide, by decide⟩⟩

theorem pmbusRequestDone_answers_idle {s : State} {ok : Bool} (idle : s.mon.pmb = none) :
    Answers (.pmbusRequestDone ok) s (OnlyWords s · []) := by
  refine .unchanged (congrArg settle ?_)
  rw [idle]

section
variable {s : State} {v : Option Nat} {fails : Nat} (out : s.mon.pmb = some (v, fails))
include out

theorem pmbusRequestDone_answers_ok (next : s.mon.next = none) : Answers (.pmbusRequestDone true) s (fun t =>
    t.mon = { s.mon with pmb := none, voutMode := s.mon.voutMode || v.isNone } ∧ OnlyWords { s with mon := t.mon } t []) := by
  refine Answers.monitors (congrArg settle ?_)
  rw [out]
  exact (if_pos rfl).trans (State.pmbusNext_waiting next)

theorem pmbusRequestDone_answers_retry (few : fails < 2) : Answers (.pmbusRequestDone false) s (fun t =>
    t.mon = { s.mon with pmb := some (v, fails + 1) } ∧ OnlyWords { s with mon := t.mon } t []) := by
  refine Answers.monitors (congrArg settle ?_)
  rw [out]
  exact (if_neg (by decide)).trans (if_pos few)

theorem pmbusRequestDone_answers_hold (many : 2 ≤ fails) : Answers (.pmbusRequestDone false) s (fun t =>
    t.mon.pmb = none ∧ t.bit .health Reg.Health.STATE_AVS_HOLD = true ∧
      (t.fld .health Reg.Hdr.EVENTS).testBit 5 = true) := by
  have done : exec (.pmbusRequestDone false) s = settle ((({ s with mon := { s.mon with pmb := none, next := none } } :
      State).set .health Reg.Health.STATE_AVS_HOLD 1).event .health 5) := by
    refine congrArg settle ?_
    rw [out]
    exact (if_neg (by decide)).trans (if_neg (Nat.not_lt.mpr many))
  have mon : ({ s with mon := { s.mon with pmb := none, next := none } } : State).mon.pmb = none := rfl
  generalize ({ s with mon := { s.mon with pmb := none, next := none } } : State) = u at done mon
  refine Answers.of_settle done ⟨?_, ?_, ?_⟩
  · rw [State.settled_mon, State.event_mon]
    exact mon
  · rw [State.settled_bit _ _ _ (by decide), State.bit_event_apart _ _ _ (by decide)]
    exact State.bit_set_one _ _ ⟨by decide, by decide⟩ rfl
  · rw [State.settled_fld _ _ _ (by decide)]
    exact State.event_recorded _ _ (by decide)

end

/-! The process monitors (R525) -/

def State.countsShown (s : State) (counts : List Nat) : State :=
  counts.zipIdx.foldl (fun s (e : Nat × Nat) => s.set .health (Reg.Health.RO_COUNT e.2) e.1) s

theorem State.countsShown_count (s : State) (counts : List Nat) {r : Nat} (hr : r < counts.length) :
    (s.countsShown counts).fld .health (Reg.Health.RO_COUNT r) = counts.getD r 0 % 2 ^ 16 := by
  have each := (foldl_zipIdx_each (f := fun (s : State) (e : Nat × Nat) => s.set .health (Reg.Health.RO_COUNT e.2) e.1)
    (t := s) (fun _ => True) (fun r a u => u.fld .health (Reg.Health.RO_COUNT r) = a % 2 ^ 16) counts trivial
    (fun u a j _ => ⟨trivial, State.fld_set_same _ _ _ _ ⟨show 0 + 16 ≤ 32 by decide, show 0 < 2 ^ 16 by decide⟩,
      fun k b hk hb => (State.fld_set_other _ _ (.inl (by simp only [wordAt, Blk.base, Reg.Health.RO_COUNT]; omega))).trans
        hb⟩)).2 r hr
  rw [List.getD_eq_getElem _ _ hr]
  exact each

theorem State.countsShown_fld (s : State) (counts : List Nat) {f : Fld} (hf : f.off < 0x100) :
    (s.countsShown counts).fld .health f = s.fld .health f := by
  refine foldl_keeps (State.fld · .health f) (fun u e _ => State.fld_set_other _ _ (.inl ?_)) s
  simp only [wordAt, Blk.base, Reg.Health.RO_COUNT]
  omega

theorem State.countsShown_keeps {β : Type} (view : State → β) (hv : ∀ s b f v, view (State.set s b f v) = view s)
    (s : State) (counts : List Nat) : view (s.countsShown counts) = view s := by
  unfold State.countsShown
  exact foldl_keeps view (fun _ _ _ => hv _ _ _ _) s

/-- The step of adaptive scaling that follows the counts. -/
def State.scaled (s : State) (counts : List Nat) : State :=
  if s.bit .health Reg.Health.AVS_MODE || s.boot.warm.isSome then s
  else
    let slow := counts.foldl min (counts.headD 0)
    let v := s.fld .health Reg.Health.CORE_MV
    if 100 * slow < 101 * Config.roTarget then s.coreStep true false
    else s.coreStep (decide (v < s.mon.want)) (decide (s.mon.want ≠ 0 ∧ s.mon.want < v))

theorem State.scaled_writes (s : State) (counts : List Nat) : Writes s (s.scaled counts) [(.health, Reg.Health.CORE_MV)] :=
  .ite (.refl s _) (.ite (s.coreStep_writes _ _) (s.coreStep_writes _ _))

theorem roSample_answers {s : State} (on : s.watching = true) {counts : List Nat} (len : counts.length = 8) :
    Answers (.roSample counts) s (fun t =>
      (∀ r, r < 8 → t.fld .health (Reg.Health.RO_COUNT r) = counts.getD r 0 % 2 ^ 16) ∧
      (s.bit .health Reg.Health.AVS_MODE = true → t.mon = s.mon) ∧
      (let v := s.fld .health Reg.Health.CORE_MV
       s.bit .health Reg.Health.AVS_MODE = false → s.boot.warm = none →
        100 * counts.foldl min (counts.headD 0) < 101 * Config.roTarget →
        s.bit .health Reg.Health.STATE_AVS_HOLD = false → s.mon.pmb = none → s.mon.voutMode = true → v ≠ 0 → v + 5 ≤ 850 →
        t.fld .health Reg.Health.CORE_MV = v + 5 ∧ t.mon.pmb = some (some (v + 5), 0))) := by
  have runs : ¬ ((!s.watching || decide (counts.length ≠ 8)) = true) := by rw [on, len]; decide
  have done : exec (.roSample counts) s = settle ((s.countsShown counts).scaled counts) := congrArg settle (if_neg runs)
  have count (r : Nat) (hr : r < 8) := s.countsShown_count counts (r := r) (by omega)
  have low (f : Fld) := s.countsShown_fld counts (f := f)
  have mon := s.countsShown_keeps State.mon (fun _ _ _ _ => rfl) counts
  have boot := s.countsShown_keeps State.boot (fun _ _ _ _ => rfl) counts
  have dead := s.countsShown_keeps State.dead (fun _ _ _ _ => rfl) counts
  generalize s.countsShown counts = u at *
  have mode := State.bit_eq_of_fld (low Reg.Health.AVS_MODE (by decide))
  have hold := State.bit_eq_of_fld (low Reg.Health.STATE_AVS_HOLD (by decide))
  have core := low Reg.Health.CORE_MV (by decide)
  have writes := u.scaled_writes counts
  refine Answers.of_settle done ⟨fun r hr => ?_, fun fixed => ?_, fun adaptive cold slow free idle vout set_ room => ?_⟩
  · rw [State.settled_fld _ _ _ ((show ∀ r < 8, Blk.health.base + (Reg.Health.RO_COUNT r).off ∉ statusWords by decide) r hr),
      writes _ _ ((show ∀ r < 8, ∀ w ∈ [(Blk.health, Reg.Health.CORE_MV)], FldApart w.1 w.2 .health (Reg.Health.RO_COUNT r)
        by decide) r hr)]
    exact count r hr
  · rw [State.settled_mon, ← mon]
    exact congrArg State.mon (if_pos (by rw [mode, fixed]; rfl))
  · have alive : u.dead = false := by
      rw [dead]
      unfold State.watching at on
      simpa using (Bool.and_eq_true_iff.mp on).1
    have stepped : u.scaled counts = u.requestCore (u.fld .health Reg.Health.CORE_MV + 5) :=
      (if_neg (by rw [mode, adaptive, boot, cold]; decide)).trans ((if_pos slow).trans
        ((if_neg (by rw [core]; exact set_)).trans ((if_pos rfl).trans (if_pos (by rw [core]; exact room)))))
    obtain ⟨pmb, shown⟩ := State.requestCore_shows (s := u) (v := u.fld .health Reg.Health.CORE_MV + 5) (hold.trans free)
      (by rw [mon]; exact idle) alive (by rw [boot]; exact cold) (by rw [mon]; exact vout)
    rw [State.settled_fld _ _ _ (by decide), State.settled_mon, stepped, shown, pmb, core]
    exact ⟨Nat.mod_eq_of_lt (by omega), rfl⟩

theorem avsRecompute_answers {s : State} (on : s.watching = true) {want : Nat} (fits : s.bit .health Reg.Health.AVS_MODE = false ∧
    want % 5 = 0 ∧ 700 ≤ want ∧ want ≤ 850) : Answers (.avsRecompute want) s (fun t =>
      t.mon = { s.mon with want := want } ∧ OnlyWords { s with mon := t.mon } t []) := by
  obtain ⟨mode, step, low, high⟩ := fits
  exact Answers.monitors (congrArg settle (if_neg (by
    rw [on, mode]
    simp only [Bool.or_eq_true, decide_eq_true_eq, Bool.not_true, Bool.false_eq_true, false_or, not_or]
    omega)))

theorem avsRecompute_answers_idle {s : State} {want : Nat} (misfit : ¬ (s.bit .health Reg.Health.AVS_MODE = false ∧
    want % 5 = 0 ∧ 700 ≤ want ∧ want ≤ 850)) : Answers (.avsRecompute want) s (OnlyWords s · []) := by
  refine .unchanged (congrArg settle (if_pos ?_))
  simp only [Bool.or_eq_true, decide_eq_true_eq]
  cases hm : s.bit .health Reg.Health.AVS_MODE
  case true => simp
  case false =>
    have : ¬ (want % 5 = 0 ∧ 700 ≤ want ∧ want ≤ 850) := fun h => misfit ⟨hm, h⟩
    omega

/-! A write of AVS (R525, R527) -/

theorem State.avsWritten_writes (s : State) :
    Writes s s.avsWritten [(.health, Reg.Health.STATE_AVS_HOLD), (.health, Reg.Health.CORE_MV)] := by
  have cleared := (Writes.refl s [(Blk.health, Reg.Health.STATE_AVS_HOLD), (Blk.health, Reg.Health.CORE_MV)]).set
    (b := .health) (f := Reg.Health.STATE_AVS_HOLD) 0 (by simp)
  exact .ite (cleared.trans ((State.requestCore_writes _ _).mono (by simp))) cleared

theorem State.avsWritten_hold (s : State) : s.avsWritten.bit .health Reg.Health.STATE_AVS_HOLD = false := by
  have low := State.bit_set_zero s .health (f := Reg.Health.STATE_AVS_HOLD) ⟨by decide, by decide⟩ rfl
  unfold State.avsWritten
  dsimp only
  generalize s.set .health Reg.Health.STATE_AVS_HOLD 0 = u at low ⊢
  refine (when_keeps (State.bit · .health Reg.Health.STATE_AVS_HOLD) (State.bit_eq_of_fld ?_)).trans low
  exact u.requestCore_writes _ _ _ (by decide)

/-- The word of AVS once its fields are stored. -/
def State.avsStored (s : State) (data : Word) : State :=
  ((s.setBoth .health Reg.Health.AVS_MODE (Reg.Health.AVS_MODE.of data)).setBoth .health Reg.Health.AVS_FIXED_MV
    (Reg.Health.AVS_FIXED_MV.of data)).setBoth .health Reg.Health.AVS_ADDR (Reg.Health.AVS_ADDR.of data)

theorem State.resolve_avs (s : State) : s.resolve 0 (Blk.health.base + 0x48) = .word .health 0x48 := rfl

theorem wordFields_avs : wordFields .health 0x48 = [Reg.Health.AVS_MODE, Reg.Health.AVS_FIXED_MV, Reg.Health.AVS_ADDR] := rfl

theorem State.putWord_avs (s : State) (addr : Nat) (data : Word) (alone : s.lockPri = false) :
    s.putWord (.seat 0) .health 0x48 addr data = (s.avsStored data).avsWritten := by
  have m : Reg.Health.AVS_MODE.acc = .rwi := rfl
  have v : Reg.Health.AVS_FIXED_MV.acc = .rwi := rfl
  have a : Reg.Health.AVS_ADDR.acc = .rwi := rfl
  simp [State.putWord, slowWord, wordFields_avs, m, v, a, State.putNow, State.putStaged, State.strobes, alone, State.putRwi,
    State.takeWide, wide, ownEffect, State.rwiDone, State.takeWides, State.avsStored]

theorem State.wordReasons_avs (s : State) {data : Word} (low : 700 ≤ data.toNat / 64 % 1024) (high : data.toNat / 64 % 1024 ≤ 850) :
    s.wordReasons 0 .health 0x48 data = [] := by
  have fixed : Reg.Health.AVS_FIXED_MV.of data = data.toNat / 64 % 1024 := by
    simp only [Fld.of, Reg.Health.AVS_FIXED_MV, Nat.shiftRight_eq_div_pow]
    rfl
  have encoding : s.badEncoding .health [Reg.Health.AVS_MODE, Reg.Health.AVS_FIXED_MV, Reg.Health.AVS_ADDR] data = false := by
    have admits : Reg.Health.AVS_FIXED_MV.admits (Reg.Health.AVS_FIXED_MV.of data) = true := by
      rw [fixed]
      simp [Fld.admits, Reg.Health.AVS_FIXED_MV, low, high]
    have other : Reg.Health.AVS_MODE.admits (Reg.Health.AVS_MODE.of data) = true ∧
        Reg.Health.AVS_ADDR.admits (Reg.Health.AVS_ADDR.of data) = true := ⟨rfl, rfl⟩
    simp only [State.badEncoding, List.any_cons, List.any_nil, admits, other, Bool.not_true, Bool.false_and, Bool.or_false]
    rfl
  have group : changesGroup .health [Reg.Health.AVS_MODE, Reg.Health.AVS_FIXED_MV, Reg.Health.AVS_ADDR] = false := by decide
  simp only [State.wordReasons, wordFields_avs, State.recordRefusal, reduceCtorEq, if_false, encoding, group,
    Option.isSome_none, Bool.false_and, decide_false, reasonsOf]
  simp [Reg.Health.AVS_MODE, Reg.Health.AVS_FIXED_MV, Reg.Health.AVS_ADDR]

theorem State.hostWrite_avs (s : State) {data : Word} (single : s.isUnderstudy = false) (alone : s.lockPri = false)
    (low : 700 ≤ data.toNat / 64 % 1024) (high : data.toNat / 64 % 1024 ≤ 850) :
    s.hostWrite (.seat 0) (Blk.health.base + 0x48) data = (s.avsStored data).avsWritten := by
  have seats : ¬ (decide (s.model.seats ≤ 0) || decide (0x1000000 ≤ Blk.health.base + 0x48)) = true := by
    have := Model.seats_pos s.model
    simp [Blk.base]
    omega
  have push : ¬ (s.pushMode && decide (0 = 0) && true && decide (0x400000 ≤ Blk.health.base + 0x48) &&
      decide (Blk.health.base + 0x48 < 0x800000)) = true := by
    simp [Blk.base]
  have present : (Blk.health).page.present s.model = true := rfl
  have page := s.pageReasons_house (b := .health) present single rfl
  unfold State.hostWrite State.tryWrite
  rw [show (Writer.seat 0).seatOf = 0 from rfl, if_neg seats, if_neg push, s.resolve_avs]
  simp only [State.writePlace, Writer.seatOf, present, State.recordRefusal, wordFields_avs, State.absentWord, page,
    s.wordReasons_avs low high, Bool.and_true, if_true, List.append_nil, Bool.or_false]
  rw [if_neg (by simp [writable, Reg.Health.AVS_MODE])]
  exact s.putWord_avs _ data alone

theorem State.avsStored_shows (s : State) (data : Word) :
    (s.avsStored data).bit .health Reg.Health.AVS_MODE = data.getLsbD 0 ∧
      (s.avsStored data).fld .health Reg.Health.AVS_FIXED_MV = data.toNat / 64 % 1024 := by
  unfold State.avsStored
  refine ⟨?_, ?_⟩
  · rw [State.bit_setBoth_apart _ _ _ (by decide), State.bit_setBoth_apart _ _ _ (by decide)]
    refine State.bit_iff_fld _ _ _ _ ((State.fld_setBoth_same _ _ _ ⟨by decide, by decide⟩).trans ?_)
    simp only [Fld.of, Reg.Health.AVS_MODE, BitVec.getLsbD, Nat.testBit_zero, Nat.shiftRight_zero]
    rcases Nat.mod_two_eq_zero_or_one data.toNat with h | h <;> simp [h]
  · rw [State.fld_setBoth_apart _ _ _ (by decide), State.fld_setBoth_same _ _ _ ⟨by decide, by decide⟩]
    simp only [Fld.of, Reg.Health.AVS_FIXED_MV, Nat.shiftRight_eq_div_pow]
    omega

theorem avs_answers {s : State} {data : Word} (single : s.isUnderstudy = false) (alone : s.lockPri = false)
    (low : 700 ≤ data.toNat / 64 % 1024) (high : data.toNat / 64 % 1024 ≤ 850) : Answers (.avs data) s (fun t =>
      t.bit .health Reg.Health.AVS_MODE = data.getLsbD 0 ∧ t.fld .health Reg.Health.AVS_FIXED_MV = data.toNat / 64 % 1024 ∧
      t.bit .health Reg.Health.STATE_AVS_HOLD = false) := by
  have done : exec (.avs data) s = settle ((s.avsStored data).avsWritten) := congrArg settle (s.hostWrite_avs single alone low high)
  obtain ⟨mode, fixed⟩ := s.avsStored_shows data
  generalize s.avsStored data = u at done mode fixed
  refine Answers.of_settle done ⟨?_, ?_, ?_⟩
  · rw [State.settled_bit _ _ _ (by decide), State.bit_eq_of_fld (u.avsWritten_writes _ _ (by decide))]
    exact mode
  · rw [State.settled_fld _ _ _ (by decide), u.avsWritten_writes _ _ (by decide)]
    exact fixed
  · rw [State.settled_bit _ _ _ (by decide)]
    exact u.avsWritten_hold

/-! The obligation -/

/-- Settles O59, one lemma per command. -/
theorem memoryAndHealthMonitors : Obligations.MemoryAndHealthMonitors := by
  unfold Obligations.MemoryAndHealthMonitors
  refine ⟨fun s c off ⟨_, _, _, _, _, _, _, hc⟩ => monitors_off off hc, fun s on => ⟨refresh_answers on, rowActivate_answers on,
      fun _ _ _ _ _ off => patrolScrub_answers_off off, fun ecc _ _ _ => ⟨patrolScrub_answers_pass on ecc,
        patrolScrub_answers_corrected on ecc, fun _ hn small => patrolScrub_answers_object on ecc hn small,
        patrolScrub_answers_slot on ecc, patrolScrub_answers_pool on ecc⟩, fun _ _ => ⟨sramScrub_answers_corrected on,
        sramScrub_answers_tables on, sramScrub_answers_program on⟩, fun temps len => .unchanged (congrArg settle (if_pos ?_)),
      fun _ len => tempSample_answers on len, fun _ len => vmonSample_answers on len, fun _ len => roSample_answers on len,
      fun _ => ⟨avsRecompute_answers on, avsRecompute_answers_idle⟩⟩, fun s _ _ => ⟨fun stall hc => ⟨zqLatch_answers stall hc,
        wckMeasure_answers stall hc⟩, calibration_answers_idle⟩, fun s => ⟨thresholdClear_answers_warning,
      thresholdClear_answers_throttle, thresholdClear_answers_critical, fun _ h => thresholdClear_answers_idle h⟩,
    fun s => ⟨thermalTrip_answers, thermalTrip_answers_idle, refclkLoss_answers s⟩, fun s v fails out =>  ?_,
    fun s ok idle => pmbusRequestDone_answers_idle idle, fun s data single alone _ low high => avs_answers single alone low high⟩
  · rw [decide_eq_true len]
    exact Bool.or_true _
  · exact fun next => ⟨pmbusRequestDone_answers_ok out next, pmbusRequestDone_answers_retry out, pmbusRequestDone_answers_hold out⟩

end Sys2Proof.Machine
end

section
/-! PROOFS. Vectors of the Callboard: what each step of a vector shows and leaves (R452 to R457). -/

namespace Sys2Proof.Machine

open Sys2Proof

/-! One bit of a word set or cleared -/

/-- The word with bit `v` as `on` says. -/
def toggled (w v : Nat) (on : Bool) : Nat := if w.testBit v = on then w else if on then w + 2 ^ v else w - 2 ^ v

theorem testBit_toggled (w v : Nat) (on : Bool) : (toggled w v on).testBit v = on := by
  unfold toggled
  split
  case isTrue h => exact h
  case isFalse h =>
    cases on with
    | true =>
      rw [if_pos rfl, Nat.add_comm, Nat.testBit_two_pow_add_eq, Bool.eq_false_iff.mpr h]
      rfl
    | false =>
      rw [if_neg (by decide)]
      have set : w.testBit v = true := Bool.not_eq_false _ ▸ h
      have back : 2 ^ v + (w - 2 ^ v) = w := Nat.add_sub_cancel' (Nat.ge_two_pow_of_testBit set)
      have flip := Nat.testBit_two_pow_add_eq (w - 2 ^ v) v
      rw [back, set] at flip
      exact (Bool.not_eq_true' _).mp flip.symm

/-- A pair of full words reads back what was stored in it. -/
theorem State.fld64_set64_mod (s : State) (b : Blk) {lo hi : Fld} (v : Nat) (h : Apart hi lo) (hlo : Fits lo) (hhi : Fits hi)
    (wlo : lo.width = 32) (whi : hi.width = 32) : (s.set64 b lo hi v).fld64 b lo hi = v % 2 ^ 64 := by
  unfold State.fld64 State.set64
  rw [State.fld_set_apart _ _ _ h, State.fld_set_same _ _ _ _ hlo, State.fld_set_same _ _ _ _ hhi, wlo, whi]
  omega

/-- The bit of a pair of words that was put reads back. -/
theorem State.put64_testBit (s : State) (b : Blk) {lo hi : Fld} {v : Nat} (on : Bool) (h : Apart hi lo) (hlo : Fits lo)
    (hhi : Fits hi) (wlo : lo.width = 32) (whi : hi.width = 32) (hv : v < 64) :
    ((s.put64 b lo hi v on).fld64 b lo hi).testBit v = on := by
  have value : (s.put64 b lo hi v on).fld64 b lo hi = toggled (s.fld64 b lo hi) v on % 2 ^ 64 :=
    s.fld64_set64_mod b _ h hlo hhi wlo whi
  rw [value, Nat.testBit_mod_two_pow, testBit_toggled, decide_eq_true hv, Bool.true_and]

theorem State.put64_only (s : State) (b : Blk) (lo hi : Fld) (v : Nat) (on : Bool) :
    OnlyWords s (s.put64 b lo hi v on) [wordAt b lo, wordAt b hi] :=
  ((OnlyWords.refl s _).set_in _ _ _ (by simp)).set_in _ _ _ (by simp)

/-! The state of a seat's vectors -/

theorem State.callOf_setCall (s : State) (q : Nat) (c : CallState) : (s.setCall q c).callOf q = c := Map.get_put_same _ _ _ _

theorem State.callOf_setCall_other (s : State) {q p : Nat} (c : CallState) (h : p ≠ q) : (s.setCall q c).callOf p = s.callOf p :=
  Map.get_put_other _ _ _ _ h _

theorem State.setCall_fab (s : State) (q : Nat) (c : CallState) : (s.setCall q c).fab = s.fab := rfl

theorem State.setCall_levels (s : State) (q : Nat) (c : CallState) : (s.setCall q c).levels = s.levels := rfl

/-- The call state of a seat is read from its own part of the state. -/
theorem State.callOf_of_call {s t : State} (h : t.call = s.call) (q : Nat) : t.callOf q = s.callOf q :=
  congrArg (Map.get ({} : CallState) q) h

theorem State.vec_of_callOf {s t : State} {q : Nat} (h : (t.callOf q).vecs = (s.callOf q).vecs) (v : Nat) :
    t.vec q v = s.vec q v := congrArg (Map.get ({} : Vec) v) h

theorem State.vectorOf_of_callOf {s t : State} {q : Nat} (h : (t.callOf q).map = (s.callOf q).map) (n : Nat) :
    t.vectorOf q n = s.vectorOf q n := by
  unfold State.vectorOf
  rw [h]

theorem State.levelOf_of_levels {s t : State} (h : t.levels = s.levels) (n q : Nat) : t.levelOf n q = s.levelOf n q := by
  unfold State.levelOf
  rw [h]

theorem State.pendingOn_of {s t : State} {q : Nat} (hm : (t.callOf q).map = (s.callOf q).map) (hl : t.levels = s.levels)
    (v : Nat) : t.pendingOn q v = s.pendingOn q v := by
  unfold State.pendingOn
  simp only [hm, State.vectorOf_of_callOf hm, State.levelOf_of_levels hl]

/-- A source that asserts is pending on the vector it is mapped to. -/
theorem State.mem_pendingOn {s : State} {q n v : Nat} (mapped : s.vectorOf q n = some v) (level : s.levelOf n q = true) :
    n ∈ s.pendingOn q v := by
  have key : n ∈ (s.callOf q).map.map (·.1) := by
    unfold State.vectorOf at mapped
    dsimp only at mapped
    rcases Map.mem_get 0 n (s.callOf q).map with none_ | here
    · rw [none_] at mapped
      exact absurd mapped (by simp)
    · exact List.mem_map.mpr ⟨_, here, rfl⟩
  exact List.mem_filter.mpr ⟨key, by rw [level, mapped]; simp⟩

/-! VEC_PEND, VEC_INSERVICE and VEC_SRC (R460) -/

/-- The words in which a vector shows. -/
def vecWords (q v : Nat) : List Nat :=
  [wordAt (.callSeat q) Reg.CallSeat.VEC_PEND_LO, wordAt (.callSeat q) Reg.CallSeat.VEC_PEND_HI,
    wordAt (.callSeat q) Reg.CallSeat.VEC_INSERVICE_LO, wordAt (.callSeat q) Reg.CallSeat.VEC_INSERVICE_HI,
    wordAt (.callSeat q) (Reg.CallSeat.VEC_SRC_SOURCE v)]

theorem State.showVec_only (s : State) (q v : Nat) : OnlyWords s (s.showVec q v) (vecWords q v) := by
  unfold State.showVec
  exact ((((s.put64_only _ _ _ _ _).mono (by simp [vecWords])).trans ((State.put64_only _ _ _ _ _ _).mono
    (by simp [vecWords]))).set_in _ _ _ (by simp [vecWords])).set_in _ _ _ (by simp [vecWords, wordAt, Reg.CallSeat.VEC_SRC_SOURCE,
      Reg.CallSeat.VEC_SRC_VALID])

/-- Where a vector shows while its seat is one of the eight. -/
theorem vecWords_low {q v : Nat} (hv : v < 64) {w : Nat} (hw : w ∈ vecWords q v) :
    0x18000 + 0x1000 * q + 0x60 ≤ w ∧ w < 0x18000 + 0x1000 * q + 0x300 ∧
      (w < 0x18000 + 0x1000 * q + 0x78 ∨ 0x18000 + 0x1000 * q + 0x200 ≤ w) ∧ 0x18000 + 0x1000 * q + 0x68 ≤ w := by
  simp only [vecWords, List.mem_cons, List.not_mem_nil, or_false] at hw
  rcases hw with rfl | rfl | rfl | rfl | rfl <;>
    simp only [wordAt, Blk.base, Reg.CallSeat.VEC_PEND_LO, Reg.CallSeat.VEC_PEND_HI, Reg.CallSeat.VEC_INSERVICE_LO,
      Reg.CallSeat.VEC_INSERVICE_HI, Reg.CallSeat.VEC_SRC_SOURCE] <;> omega

theorem State.showVec_shows (s : State) (q : Nat) {v : Nat} (hv : v < 64) :
    ((s.showVec q v).fld64 (.callSeat q) Reg.CallSeat.VEC_PEND_LO Reg.CallSeat.VEC_PEND_HI).testBit v =
        !(s.pendingOn q v).isEmpty ∧
      ((s.showVec q v).fld64 (.callSeat q) Reg.CallSeat.VEC_INSERVICE_LO Reg.CallSeat.VEC_INSERVICE_HI).testBit v =
        (s.vec q v).service.isSome := by
  unfold State.showVec
  dsimp only
  generalize hp : (!(s.pendingOn q v).isEmpty) = p
  generalize hi : (s.vec q v).service.isSome = i
  have pend := s.put64_testBit (.callSeat q) (lo := Reg.CallSeat.VEC_PEND_LO) (hi := Reg.CallSeat.VEC_PEND_HI) p (by decide)
    ⟨by decide, by decide⟩ ⟨by decide, by decide⟩ rfl rfl hv
  generalize s.put64 (.callSeat q) Reg.CallSeat.VEC_PEND_LO Reg.CallSeat.VEC_PEND_HI v p = a at *
  have service := a.put64_testBit (.callSeat q) (lo := Reg.CallSeat.VEC_INSERVICE_LO) (hi := Reg.CallSeat.VEC_INSERVICE_HI) i
    (by decide) ⟨by decide, by decide⟩ ⟨by decide, by decide⟩ rfl rfl hv
  have kept (f : Fld) (lo : Apart Reg.CallSeat.VEC_INSERVICE_LO f) (hi : Apart Reg.CallSeat.VEC_INSERVICE_HI f) :
      (a.put64 (.callSeat q) Reg.CallSeat.VEC_INSERVICE_LO Reg.CallSeat.VEC_INSERVICE_HI v i).fld (.callSeat q) f =
        a.fld (.callSeat q) f := (State.fld_set_apart _ _ _ hi).trans (State.fld_set_apart _ _ _ lo)
  have pend' : (a.put64 (.callSeat q) Reg.CallSeat.VEC_INSERVICE_LO Reg.CallSeat.VEC_INSERVICE_HI v i).fld64 (.callSeat q)
      Reg.CallSeat.VEC_PEND_LO Reg.CallSeat.VEC_PEND_HI = a.fld64 (.callSeat q) Reg.CallSeat.VEC_PEND_LO
      Reg.CallSeat.VEC_PEND_HI := by
    unfold State.fld64
    rw [kept _ (by decide) (by decide), kept _ (by decide) (by decide)]
  generalize a.put64 (.callSeat q) Reg.CallSeat.VEC_INSERVICE_LO Reg.CallSeat.VEC_INSERVICE_HI v i = c at *
  have last (x : Nat) (y : Bool) (f : Fld) (hf : f.off < 0x200) :
      ((c.set (.callSeat q) (Reg.CallSeat.VEC_SRC_SOURCE v) x).setBit (.callSeat q) (Reg.CallSeat.VEC_SRC_VALID v) y).fld
        (.callSeat q) f = c.fld (.callSeat q) f := by
    refine (State.fld_set_other _ _ (.inl ?_)).trans (State.fld_set_other _ _ (.inl ?_)) <;>
      simp only [wordAt, Reg.CallSeat.VEC_SRC_SOURCE, Reg.CallSeat.VEC_SRC_VALID] <;> omega
  unfold State.fld64 at *
  simp only [last _ _ _ (show (Reg.CallSeat.VEC_PEND_LO).off < 0x200 by decide),
    last _ _ _ (show (Reg.CallSeat.VEC_PEND_HI).off < 0x200 by decide),
    last _ _ _ (show (Reg.CallSeat.VEC_INSERVICE_LO).off < 0x200 by decide),
    last _ _ _ (show (Reg.CallSeat.VEC_INSERVICE_HI).off < 0x200 by decide)]
  exact ⟨(congrArg (Nat.testBit · v) pend').trans pend, service⟩

/-! A vector stored -/

/-- The call state of a seat with one vector replaced. -/
def CallState.withVec (c : CallState) (v : Nat) (w : Vec) : CallState := { c with vecs := c.vecs.put {} v w }

theorem State.setVec_only (s : State) (q v : Nat) (w : Vec) :
    OnlyWords (s.setCall q ((s.callOf q).withVec v w)) (s.setVec q v w) (vecWords q v) := State.showVec_only _ q v

theorem State.callOf_setVec (s : State) (q v : Nat) (w : Vec) : (s.setVec q v w).callOf q = (s.callOf q).withVec v w := by
  rw [(s.setVec_only q v w).keeps (State.callOf · q) (fun _ _ => rfl), State.callOf_setCall]

theorem State.callOf_setVec_other (s : State) {q p : Nat} (v : Nat) (w : Vec) (h : p ≠ q) :
    (s.setVec q v w).callOf p = s.callOf p := by
  rw [(s.setVec_only q v w).keeps (State.callOf · p) (fun _ _ => rfl), State.callOf_setCall_other _ _ h]

theorem State.vec_setVec (s : State) (q v : Nat) (w : Vec) : (s.setVec q v w).vec q v = w := by
  unfold State.vec
  rw [State.callOf_setVec]
  exact Map.get_put_same _ _ _ _

theorem State.vec_setVec_other (s : State) (q : Nat) {v u : Nat} (w : Vec) (h : u ≠ v) :
    (s.setVec q v w).vec q u = s.vec q u := by
  unfold State.vec
  rw [State.callOf_setVec]
  exact Map.get_put_other _ _ _ _ h _

/-- What depends neither on register words nor on the vectors is the same. -/
theorem State.setVec_keeps {β : Type} (view : State → β) (hw : ∀ (r : State) (m : RegMap), view (r.withAct m) = view r)
    (hc : ∀ (r : State) (p : Nat) (c : CallState), view (r.setCall p c) = view r) (s : State) (q v : Nat) (w : Vec) :
    view (s.setVec q v w) = view s := ((s.setVec_only q v w).keeps view hw).trans (hc s q _)

theorem State.setVec_fld (s : State) {q v : Nat} (w : Vec) {b : Blk} {f : Fld} (hw : wordAt b f ∉ vecWords q v)
    (hs : wordAt b f ∉ statusWords) : (s.setVec q v w).fld b f = s.fld b f :=
  ((s.setVec_only q v w).fld_eq hw hs).trans (State.fld_of_fab (s.setCall_fab q _) b f)

theorem State.setVec_shows (s : State) (q : Nat) {v : Nat} (hv : v < 64) (w : Vec) :
    ((s.setVec q v w).fld64 (.callSeat q) Reg.CallSeat.VEC_PEND_LO Reg.CallSeat.VEC_PEND_HI).testBit v =
        !(s.pendingOn q v).isEmpty ∧
      ((s.setVec q v w).fld64 (.callSeat q) Reg.CallSeat.VEC_INSERVICE_LO Reg.CallSeat.VEC_INSERVICE_HI).testBit v =
        w.service.isSome := by
  obtain ⟨pend, service⟩ := (s.setCall q ((s.callOf q).withVec v w)).showVec_shows q hv
  have stored := s.callOf_setCall q ((s.callOf q).withVec v w)
  have pending : (s.setCall q ((s.callOf q).withVec v w)).pendingOn q v = s.pendingOn q v :=
    State.pendingOn_of (by rw [stored]; rfl) (s.setCall_levels q _) v
  have vec : (s.setCall q ((s.callOf q).withVec v w)).vec q v = w := by
    unfold State.vec
    rw [stored]
    exact Map.get_put_same _ _ _ _
  rw [pending] at pend
  rw [vec] at service
  exact ⟨pend, service⟩

end Sys2Proof.Machine
end

section
/-! PROOFS. The Callboard's deliveries, storms and EOI (R453 to R459). -/

namespace Sys2Proof.Machine

open Sys2Proof

/-! The words a delivery writes -/

/-- The words of a seat's Callboard page that its deliveries write. -/
def CallWord (q k : Nat) : Prop :=
  k = 0x18000 + 0x1000 * q + 0xc ∨ (0x18000 + 0x1000 * q + 0x60 ≤ k ∧ k < 0x18000 + 0x1000 * q + 0x80) ∨
    (0x18000 + 0x1000 * q + 0x200 ≤ k ∧ k < 0x18000 + 0x1000 * q + 0x300)

/-- Every other field is kept, but for the count of commands in flight of the seat. -/
def Rings (q : Nat) (s t : State) : Prop :=
  ∀ c g, ¬ CallWord q (wordAt c g) → FldApart (.seat q) Reg.Seat.STATUS_IN_FLIGHT c g → t.fld c g = s.fld c g

theorem Rings.refl (q : Nat) (s : State) : Rings q s s := fun _ _ _ _ => rfl

theorem Rings.trans {q : Nat} {s t u : State} (h : Rings q s t) (k : Rings q t u) : Rings q s u :=
  fun c g hw hf => (k c g hw hf).trans (h c g hw hf)

theorem Rings.of_fab {q : Nat} {s t : State} (h : t.fab = s.fab) : Rings q s t := fun c g _ _ => State.fld_of_fab h c g

theorem Rings.ite {q : Nat} {s t u : State} {p : Prop} [Decidable p] (h : Rings q s t) (k : Rings q s u) :
    Rings q s (if p then t else u) := by
  split
  · exact h
  · exact k

theorem Rings.set {q : Nat} {s t : State} (h : Rings q s t) {b : Blk} {f : Fld} (v : Nat) (hw : CallWord q (wordAt b f)) :
    Rings q s (t.set b f v) :=
  fun c g hc hf => (State.fld_set_other _ _ (.inl fun e => hc (by rw [e]; exact hw))).trans (h c g hc hf)

theorem Rings.inFlight {q : Nat} {s t : State} (h : Rings q s t) (v : Nat) :
    Rings q s (t.set (.seat q) Reg.Seat.STATUS_IN_FLIGHT v) :=
  fun c g hc hf => (State.fld_set_other _ _ hf).trans (h c g hc hf)

theorem Rings.stick {q : Nat} {s t : State} (h : Rings q s t) {b : Blk} {f : Fld} (i : Nat) (hw : CallWord q (wordAt b f)) :
    Rings q s (t.stick b f i) :=
  fun c g hc hf => (State.fld_stick _ _ _ _ _ _).trans (h.set _ hw c g hc hf)

theorem callWord_events (q : Nat) : CallWord q (wordAt (.callSeat q) Reg.Hdr.EVENTS) := .inl rfl

theorem callWord_low (q : Nat) {f : Fld} (h : 0x60 ≤ f.off) (k : f.off < 0x80) : CallWord q (wordAt (.callSeat q) f) :=
  .inr (.inl (by simp only [wordAt, Blk.base]; omega))

theorem callWord_high (q : Nat) {f : Fld} (h : 0x200 ≤ f.off) (k : f.off < 0x300) : CallWord q (wordAt (.callSeat q) f) :=
  .inr (.inr (by simp only [wordAt, Blk.base]; omega))

theorem State.setVec_rings (s : State) (q : Nat) {v : Nat} (hv : v < 64) (w : Vec) : Rings q s (s.setVec q v w) := by
  have stored : Rings q s (s.setCall q ((s.callOf q).withVec v w)) := .of_fab (s.setCall_fab q _)
  change Rings q s ((s.setCall q ((s.callOf q).withVec v w)).showVec q v)
  generalize s.setCall q ((s.callOf q).withVec v w) = u at stored
  unfold State.showVec State.put64 State.set64 State.setBit
  refine (((((stored.set _ ?_).set _ ?_).set _ ?_).set _ ?_).set _ ?_).set _ ?_
  · exact callWord_low q (by decide) (by decide)
  · exact callWord_low q (by decide) (by decide)
  · exact callWord_low q (by decide) (by decide)
  · exact callWord_low q (by decide) (by decide)
  · exact callWord_high q (by simp only [Reg.CallSeat.VEC_SRC_SOURCE]; omega) (by simp only [Reg.CallSeat.VEC_SRC_SOURCE]; omega)
  · exact callWord_high q (by simp only [Reg.CallSeat.VEC_SRC_VALID]; omega) (by simp only [Reg.CallSeat.VEC_SRC_VALID]; omega)

/-! Doorbells (R455) -/

/-- A step of a seat's doorbells: only its messages, and the count of its commands in flight is written again. -/
structure Belled (q : Nat) (s t : State) : Prop where
  writes : Writes s t [(.seat q, Reg.Seat.STATUS_IN_FLIGHT)]
  call : t.call = s.call
  levels : t.levels = s.levels
  green : t.green = s.green
  render : t.render = s.render

theorem Belled.refl (q : Nat) (s : State) : Belled q s s := ⟨.refl s _, rfl, rfl, rfl, rfl⟩

theorem Belled.trans {q : Nat} {s t u : State} (h : Belled q s t) (k : Belled q t u) : Belled q s u :=
  ⟨h.writes.trans k.writes, k.call.trans h.call, k.levels.trans h.levels, k.green.trans h.green, k.render.trans h.render⟩

theorem Belled.rings {q : Nat} {s t : State} (h : Belled q s t) : Rings q s t :=
  fun c g _ hf => h.writes c g fun w hw => by rw [List.mem_singleton.mp hw]; exact hf

theorem State.setSeat_belled (s : State) (q : Nat) (c : SeatState) : Belled q s (s.setSeat q c) := by
  have placed : Writes s { s with seats := s.seats.put {} q c } [(.seat q, Reg.Seat.STATUS_IN_FLIGHT)] := .of_act rfl
  exact ⟨placed.set _ (by simp), rfl, rfl, rfl, rfl⟩

theorem State.sdPut_belled (s : State) (q type : Nat) (ws : List Word) : Belled q s (s.sdPut q type ws) := by
  unfold State.sdPut
  dsimp only
  have stored := s.setSeat_belled q { s.seat q with sd := (s.seat q).sd.number type ws s.render.tick }
  generalize s.setSeat q { s.seat q with sd := (s.seat q).sd.number type ws s.render.tick } = u at stored
  obtain ⟨n, sent⟩ := u.sdFrame_shape q type 0 ((s.seat q).sd.number type ws s.render.tick).txSeq ws none
  rw [sent]
  exact stored.trans ⟨.of_act rfl, rfl, rfl, rfl, rfl⟩

theorem State.sdEvent_belled (s : State) (q kind : Nat) (ws : List Word) : Belled q s (s.sdEvent q kind ws) := by
  unfold State.sdEvent State.sdSend
  dsimp only
  split
  · exact .refl q s
  · split
    · exact s.sdPut_belled q _ _
    · exact s.setSeat_belled q _

theorem State.sdFlush_belled (s : State) (q : Nat) : Belled q s (s.sdFlush q) := by
  unfold State.sdFlush
  dsimp only
  split
  · exact .refl q s
  · exact List.foldlRecOn (motive := Belled q s) _ _ (s.setSeat_belled q _) fun _ ht _ _ => ht.trans (State.sdPut_belled _ q _ _)

/-- The call state of a seat once a doorbell has gone out. -/
def CallState.rung (c : CallState) (v n : Nat) : CallState := { c with bell := some (v, n), bells := c.bells + 1 }

theorem State.doorbell_belled (s : State) (q v n : Nat) :
    Belled q (s.setCall q ((s.callOf q).rung v n)) (s.doorbell q v n) := by
  unfold State.doorbell
  dsimp only
  change Belled q _ (if (s.setCall q ((s.callOf q).rung v n)).isStagedoor q then
    (s.setCall q ((s.callOf q).rung v n)).sdEvent q 1 [BitVec.ofNat 32 n] else s.setCall q ((s.callOf q).rung v n))
  split
  · exact State.sdEvent_belled _ _ _ _
  · exact .refl _ _

/-! A step of the deliveries of a seat -/

/-- A step of a seat's deliveries: its own words and its own call state but for the map. -/
structure Delivers (q : Nat) (s t : State) : Prop where
  rings : Rings q s t
  map : (t.callOf q).map = (s.callOf q).map
  levels : t.levels = s.levels
  green : t.green = s.green
  render : t.render = s.render

section
variable {q : Nat} {s t u : State}

theorem Delivers.refl (q : Nat) (s : State) : Delivers q s s := ⟨.refl q s, rfl, rfl, rfl, rfl⟩

theorem Delivers.trans (h : Delivers q s t) (k : Delivers q t u) : Delivers q s u :=
  ⟨h.rings.trans k.rings, k.map.trans h.map, k.levels.trans h.levels, k.green.trans h.green, k.render.trans h.render⟩

theorem Belled.delivers (h : Belled q s t) : Delivers q s t :=
  ⟨h.rings, congrArg CallState.map (State.callOf_of_call h.call q), h.levels, h.green, h.render⟩

theorem State.setCall_delivers (s : State) (q : Nat) {c : CallState} (h : c.map = (s.callOf q).map) : Delivers q s (s.setCall q c) :=
  ⟨.of_fab (s.setCall_fab q c), (congrArg CallState.map (s.callOf_setCall q c)).trans h, rfl, rfl, rfl⟩

theorem State.setVec_delivers (s : State) (q : Nat) {v : Nat} (hv : v < 64) (w : Vec) : Delivers q s (s.setVec q v w) := by
  refine ⟨s.setVec_rings q hv w, (congrArg CallState.map (s.callOf_setVec q v w)).trans rfl, ?_, ?_, ?_⟩
  · exact s.setVec_keeps State.levels (fun _ _ => rfl) (fun _ _ _ => rfl) q v w
  · exact s.setVec_keeps State.green (fun _ _ => rfl) (fun _ _ _ => rfl) q v w
  · exact s.setVec_keeps State.render (fun _ _ => rfl) (fun _ _ _ => rfl) q v w

theorem State.doorbell_delivers (s : State) (q v n : Nat) : Delivers q s (s.doorbell q v n) :=
  (s.setCall_delivers q (c := (s.callOf q).rung v n) rfl).trans (s.doorbell_belled q v n).delivers

/-- What a step of the deliveries leaves of a seat's registers. -/
theorem Delivers.call_fld (h : Delivers q s t) {f : Fld} (ho : f.off ≠ 0xc) (h1 : f.off < 0x60 ∨ 0x80 ≤ f.off)
    (h2 : f.off < 0x200) : t.fld (.callSeat q) f = s.fld (.callSeat q) f := by
  refine h.rings _ _ ?_ (.inl ?_)
  · simp only [CallWord, wordAt, Blk.base]
    omega
  · simp only [wordAt, Blk.base, Reg.Seat.STATUS_IN_FLIGHT]
    omega

theorem Delivers.seat_fld (h : Delivers q s t) {f : Fld} (hf : Apart Reg.Seat.STATUS_IN_FLIGHT f) (ho : f.off < 0x1000) :
    t.fld (.seat q) f = s.fld (.seat q) f := by
  refine h.rings _ _ ?_ ?_
  · simp only [CallWord, wordAt, Blk.base]
    omega
  · rcases hf with hf | hf
    · exact .inl (by simp only [wordAt]; omega)
    · exact .inr hf

theorem Delivers.pendingOn (h : Delivers q s t) (v : Nat) : t.pendingOn q v = s.pendingOn q v :=
  State.pendingOn_of h.map h.levels v

/-- The parts of a seat's call state that a delivery's guard leaves. -/
structure SameVecs (q : Nat) (s t : State) : Prop where
  vecs : (t.callOf q).vecs = (s.callOf q).vecs
  bell : (t.callOf q).bell = (s.callOf q).bell
  bells : (t.callOf q).bells = (s.callOf q).bells

theorem SameVecs.trans (h : SameVecs q s t) (k : SameVecs q t u) : SameVecs q s u :=
  ⟨k.vecs.trans h.vecs, k.bell.trans h.bell, k.bells.trans h.bells⟩

theorem SameVecs.of_call (h : t.call = s.call) : SameVecs q s t := by
  have same := State.callOf_of_call h q
  exact ⟨congrArg CallState.vecs same, congrArg CallState.bell same, congrArg CallState.bells same⟩

theorem SameVecs.vec (h : SameVecs q s t) (v : Nat) : t.vec q v = s.vec q v := State.vec_of_callOf h.vecs v

end

/-! The pin (R454, R458) -/

theorem State.releasePin_shows (s : State) (q : Nat) (write : Bool) : Delivers q s (s.releasePin q write) ∧
    SameVecs q s (s.releasePin q write) ∧ (s.releasePin q write).fab = s.fab := by
  have stored := s.callOf_setCall q { s.callOf q with
    pin := (s.callOf q).pin && (s.anyPending q && !(write && !s.anyReady q)) }
  exact ⟨s.setCall_delivers q rfl, ⟨(congrArg CallState.vecs stored).trans rfl, (congrArg CallState.bell stored).trans rfl,
    (congrArg CallState.bells stored).trans rfl⟩, rfl⟩

/-! The storm guard (R457) -/

/-- The deliveries of a vector within the last 1 ms. -/
def State.recent (s : State) (q v : Nat) : List Nat := (s.vec q v).times.filter (fun t => s.render.tick < t + s.msTicks)

/-- The vector masked by the storm guard. -/
def State.stormed (s : State) (q v : Nat) : State :=
  let b := Blk.callSeat q
  let s := s.put64 b Reg.CallSeat.VEC_MASK_LO Reg.CallSeat.VEC_MASK_HI v true
  let s := s.setStg b Reg.CallSeat.VEC_MASK_LO (s.fld b Reg.CallSeat.VEC_MASK_LO)
  let s := s.setStg b Reg.CallSeat.VEC_MASK_HI (s.fld b Reg.CallSeat.VEC_MASK_HI)
  let s := s.stick b (if v < 32 then Reg.CallSeat.VEC_STORM_LO else Reg.CallSeat.VEC_STORM_HI) (v % 32)
  (s.event b 0).releasePin q true

theorem State.storm_eq (s : State) (q v : Nat) : s.storm q v =
    if s.bit (.callSeat q) Reg.CallSeat.CFG_STORM_EN && s.bit (.callSeat q) Reg.CallSeat.CFG_GATE &&
      s.fld (.callSeat q) Reg.CallSeat.STORM_LIMIT ≤ (s.recent q v).length then s.stormed q v else s := rfl

theorem State.fld_setStg (s : State) (b c : Blk) (f g : Fld) (v : Nat) : (s.setStg b f v).fld c g = s.fld c g := rfl

/-- The word of VEC_STORM that holds a vector's bit. -/
def stormFld (v : Nat) : Fld := if v < 32 then Reg.CallSeat.VEC_STORM_LO else Reg.CallSeat.VEC_STORM_HI

theorem stormFld_cases (v : Nat) : stormFld v = Reg.CallSeat.VEC_STORM_LO ∨ stormFld v = Reg.CallSeat.VEC_STORM_HI := by
  unfold stormFld
  split
  · exact .inl rfl
  · exact .inr rfl

theorem State.fld64_testBit (s : State) (b : Blk) {lo : Fld} (hi : Fld) (hlo : Fits lo) (wlo : lo.width = 32) (v : Nat) :
    (s.fld64 b lo hi).testBit v = if v < 32 then (s.fld b lo).testBit v else (s.fld b hi).testBit (v - 32) := by
  have bound : s.fld b lo < 2 ^ 32 := wlo ▸ regGet_lt s.fab.act b.base lo hlo
  unfold State.fld64
  rw [Nat.add_comm, Nat.testBit_two_pow_mul_add _ bound]

/-- The flag of a vector's storm reads back from the pair of words. -/
theorem State.stormFlag (s : State) (q : Nat) {v : Nat} (hv : v < 64) :
    ((s.stick (.callSeat q) (stormFld v) (v % 32)).fld64 (.callSeat q) Reg.CallSeat.VEC_STORM_LO
      Reg.CallSeat.VEC_STORM_HI).testBit v = true := by
  rw [State.fld64_testBit _ _ _ ⟨by decide, by decide⟩ rfl]
  unfold stormFld
  split
  case isTrue low =>
    have flag := State.stick_testBit s (b := .callSeat q) (f := Reg.CallSeat.VEC_STORM_LO) (i := v % 32) rfl
      ⟨by decide, by decide⟩ (Nat.mod_lt _ (by decide))
    rw [Nat.mod_eq_of_lt low] at flag ⊢
    exact flag
  case isFalse high =>
    have flag := State.stick_testBit s (b := .callSeat q) (f := Reg.CallSeat.VEC_STORM_HI) (i := v % 32) rfl
      ⟨by decide, by decide⟩ (Nat.mod_lt _ (by decide))
    rw [show v - 32 = v % 32 by omega]
    exact flag

/-- What the flag and the event of a storm leave of the seat's other words. -/
theorem State.stormFlagged_fld (s : State) (q v : Nat) {f : Fld} (lo : Apart Reg.CallSeat.VEC_STORM_LO f)
    (hi : Apart Reg.CallSeat.VEC_STORM_HI f) (ev : Apart Reg.Hdr.EVENTS f) :
    ((s.stick (.callSeat q) (stormFld v) (v % 32)).event (.callSeat q) 0).fld (.callSeat q) f = s.fld (.callSeat q) f := by
  rw [State.fld_event_apart _ _ _ ev, State.fld_stick]
  refine State.fld_set_apart _ _ _ ?_
  rcases stormFld_cases v with e | e <;> rw [e]
  · exact lo
  · exact hi

/-- The mask of a storm, before its flag and its event. -/
def State.stormMasked (s : State) (q v : Nat) : State :=
  let b := Blk.callSeat q
  let s := s.put64 b Reg.CallSeat.VEC_MASK_LO Reg.CallSeat.VEC_MASK_HI v true
  let s := s.setStg b Reg.CallSeat.VEC_MASK_LO (s.fld b Reg.CallSeat.VEC_MASK_LO)
  s.setStg b Reg.CallSeat.VEC_MASK_HI (s.fld b Reg.CallSeat.VEC_MASK_HI)

theorem State.stormMasked_fld (s : State) (q v : Nat) (c : Blk) (f : Fld) : (s.stormMasked q v).fld c f =
    (s.put64 (.callSeat q) Reg.CallSeat.VEC_MASK_LO Reg.CallSeat.VEC_MASK_HI v true).fld c f := rfl

theorem State.stormMasked_shows (s : State) (q : Nat) {v : Nat} (hv : v < 64) :
    Delivers q s (s.stormMasked q v) ∧ SameVecs q s (s.stormMasked q v) ∧ (s.stormMasked q v).masked q v = true ∧
      ∀ f, Apart Reg.CallSeat.VEC_MASK_LO f → Apart Reg.CallSeat.VEC_MASK_HI f →
        (s.stormMasked q v).fld (.callSeat q) f = s.fld (.callSeat q) f := by
  have masks : Rings q s (s.put64 (.callSeat q) Reg.CallSeat.VEC_MASK_LO Reg.CallSeat.VEC_MASK_HI v true) :=
    ((Rings.refl q s).set _ (callWord_low q (by decide) (by decide))).set _ (callWord_low q (by decide) (by decide))
  refine ⟨⟨fun c g hw hf => (s.stormMasked_fld q v c g).trans (masks c g hw hf), rfl, rfl, rfl, rfl⟩, .of_call rfl, ?_,
    fun f lo hi => (s.stormMasked_fld q v _ f).trans ((State.fld_set_apart _ _ _ hi).trans (State.fld_set_apart _ _ _ lo))⟩
  unfold State.masked State.bit64 State.fld64
  rw [State.stormMasked_fld, State.stormMasked_fld]
  exact s.put64_testBit (.callSeat q) (lo := Reg.CallSeat.VEC_MASK_LO) (hi := Reg.CallSeat.VEC_MASK_HI) true (by decide)
    ⟨by decide, by decide⟩ ⟨by decide, by decide⟩ rfl rfl hv

theorem State.stormed_eq (s : State) (q v : Nat) : s.stormed q v =
    (((s.stormMasked q v).stick (.callSeat q) (stormFld v) (v % 32)).event (.callSeat q) 0).releasePin q true := by
  unfold State.stormed State.stormMasked stormFld
  rfl

theorem State.stick_delivers (s : State) (q : Nat) {f : Fld} (i : Nat) (hw : CallWord q (wordAt (.callSeat q) f)) :
    Delivers q s (s.stick (.callSeat q) f i) ∧ SameVecs q s (s.stick (.callSeat q) f i) :=
  ⟨⟨(Rings.refl q s).stick i hw, congrArg CallState.map (State.callOf_of_call (s.stick_call _ f i) q), s.stick_levels _ f i,
    s.stick_green _ f i, s.stick_render _ f i⟩, .of_call (s.stick_call _ f i)⟩

theorem State.stormed_shows (s : State) (q : Nat) {v : Nat} (hv : v < 64) :
    Delivers q s (s.stormed q v) ∧ SameVecs q s (s.stormed q v) ∧ (s.stormed q v).masked q v = true ∧
      ((s.stormed q v).fld (.callSeat q) Reg.Hdr.EVENTS).testBit 0 = true ∧
      ((s.stormed q v).fld64 (.callSeat q) Reg.CallSeat.VEC_STORM_LO Reg.CallSeat.VEC_STORM_HI).testBit v = true ∧
      (s.stormed q v).fld64 (.callSeat q) Reg.CallSeat.VEC_INSERVICE_LO Reg.CallSeat.VEC_INSERVICE_HI =
        s.fld64 (.callSeat q) Reg.CallSeat.VEC_INSERVICE_LO Reg.CallSeat.VEC_INSERVICE_HI := by
  rw [State.stormed_eq]
  obtain ⟨d1, v1, masked, kept⟩ := s.stormMasked_shows q hv
  generalize s.stormMasked q v = a at *
  have flagWord : CallWord q (wordAt (.callSeat q) (stormFld v)) := by
    rcases stormFld_cases v with e | e <;> rw [e] <;> exact callWord_low q (by decide) (by decide)
  obtain ⟨d2, v2⟩ := a.stick_delivers q (v % 32) flagWord
  have flag := a.stormFlag q hv
  have others (f : Fld) := a.stormFlagged_fld q v (f := f)
  generalize a.stick (.callSeat q) (stormFld v) (v % 32) = b at *
  obtain ⟨d3, v3⟩ := b.stick_delivers q (f := Reg.Hdr.EVENTS) 0 (callWord_events q)
  change Delivers q b (b.event (.callSeat q) 0) at d3
  change SameVecs q b (b.event (.callSeat q) 0) at v3
  have event : ((b.event (.callSeat q) 0).fld (.callSeat q) Reg.Hdr.EVENTS).testBit 0 = true :=
    State.event_recorded _ _ (by decide)
  have still (f : Fld) (h : Apart Reg.Hdr.EVENTS f) := State.fld_event_apart b (.callSeat q) 0 h
  generalize b.event (.callSeat q) 0 = c at *
  obtain ⟨d4, v4, fab⟩ := c.releasePin_shows q true
  generalize c.releasePin q true = d at *
  have same (f : Fld) := State.fld_of_fab fab (.callSeat q) f
  refine ⟨((d1.trans d2).trans d3).trans d4, ((v1.trans v2).trans v3).trans v4, ?_, ?_, ?_, ?_⟩
  · unfold State.masked State.bit64 State.fld64 at masked ⊢
    rw [same, same, others _ (by decide) (by decide) (by decide), others _ (by decide) (by decide) (by decide)]
    exact masked
  · rw [same]
    exact event
  · unfold State.fld64 at flag ⊢
    rw [same, same, still _ (by decide), still _ (by decide)]
    exact flag
  · unfold State.fld64
    rw [same, same, others _ (by decide) (by decide) (by decide), others _ (by decide) (by decide) (by decide),
      kept _ (by decide) (by decide), kept _ (by decide) (by decide)]

theorem State.storm_shows (s : State) (q : Nat) {v : Nat} (hv : v < 64) :
    Delivers q s (s.storm q v) ∧ SameVecs q s (s.storm q v) ∧
      (s.storm q v).fld64 (.callSeat q) Reg.CallSeat.VEC_INSERVICE_LO Reg.CallSeat.VEC_INSERVICE_HI =
        s.fld64 (.callSeat q) Reg.CallSeat.VEC_INSERVICE_LO Reg.CallSeat.VEC_INSERVICE_HI := by
  obtain ⟨frame, vecs, -, -, -, service⟩ := s.stormed_shows q hv
  rw [State.storm_eq]
  split
  · exact ⟨frame, vecs, service⟩
  · exact ⟨.refl q s, .of_call rfl, rfl⟩

theorem State.storm_off {s : State} {q : Nat} (off : s.bit (.callSeat q) Reg.CallSeat.CFG_STORM_EN = false) (v : Nat) :
    s.storm q v = s := by
  rw [State.storm_eq]
  exact if_neg (by rw [off, Bool.false_and, Bool.false_and]; decide)

end Sys2Proof.Machine
end

section
/-! PROOFS. Deliveries, EOI, GATE and seat sleep (R453 to R464). -/

namespace Sys2Proof.Machine

open Sys2Proof

/-- A field of the Callboard page of a seat is no status word. -/
theorem callSeat_not_statusWord (q : Nat) (f : Fld) : (Blk.callSeat q).base + f.off ∉ statusWords :=
  statusWords_below (by simp only [Blk.base]; omega)

theorem State.callOf_settled (s : State) (q : Nat) : s.settled.callOf q = s.callOf q :=
  State.callOf_of_call (State.settled_call s) q

theorem State.vec_settled (s : State) (q v : Nat) : s.settled.vec q v = s.vec q v :=
  State.vec_of_callOf (congrArg CallState.vecs (s.callOf_settled q)) v

theorem State.callSeat_fld_settled (s : State) {q : Nat} (f : Fld) :
    s.settled.fld (.callSeat q) f = s.fld (.callSeat q) f :=
  State.settled_fld _ _ _ (callSeat_not_statusWord q f)

theorem State.callSeat_fld64_settled (s : State) (q : Nat) (lo hi : Fld) :
    s.settled.fld64 (.callSeat q) lo hi = s.fld64 (.callSeat q) lo hi := by
  unfold State.fld64
  rw [State.callSeat_fld_settled, State.callSeat_fld_settled]

theorem State.callSeat_bit_settled (s : State) (q : Nat) (f : Fld) : s.settled.bit (.callSeat q) f = s.bit (.callSeat q) f :=
  State.bit_eq_of_fld (s.callSeat_fld_settled f)

theorem State.asleep_settled (s : State) (q : Nat) : s.settled.asleep q = s.asleep q :=
  State.bit_eq_of_fld (s.seat_fld_settled q (by decide) (by decide))

/-! The holdoff (R453) -/

section
variable {s : State} {seat v : Nat}

theorem holdoffExpire_answers (hv : v < 64) (some_ : 0 < (s.vec seat v).count)
    (passed : s.heldFor (s.vec seat v) (s.fld (.callSeat seat) (Reg.CallSeat.MOD_HOLDOFF v)) = true) :
    Answers (.holdoffExpire seat v) s (fun t => t.vec seat v = { s.vec seat v with heldOff := true }) := by
  have done : exec (.holdoffExpire seat v) s = settle (s.setVec seat v { s.vec seat v with heldOff := true }) :=
    congrArg settle (if_pos (by rw [decide_eq_true hv, decide_eq_true some_, passed]; rfl))
  refine Answers.of_settle done ?_
  rw [State.vec_settled]
  exact State.vec_setVec _ _ _ _

theorem holdoffExpire_answers_idle (h : (s.vec seat v).count = 0 ∨
    s.heldFor (s.vec seat v) (s.fld (.callSeat seat) (Reg.CallSeat.MOD_HOLDOFF v)) = false) :
    Answers (.holdoffExpire seat v) s (OnlyWords s · []) := by
  refine .unchanged (congrArg settle (if_neg ?_))
  simp only [Bool.and_eq_true, decide_eq_true_eq]
  rintro ⟨⟨-, some_⟩, passed⟩
  rcases h with none_ | off
  · omega
  · exact absurd (passed.symm.trans off) (by decide)

/-! A delivery (R454, R455) -/

theorem State.deliver_waits {now : Bool} (wait : s.vecReady seat v now = false) : s.deliver seat v now = s :=
  if_pos (by rw [wait]; rfl)

theorem delivery_answers_idle (wait : s.vecReady seat v = false) : Answers (.delivery seat v) s (OnlyWords s · []) := by
  refine .unchanged (congrArg settle ?_)
  rw [State.deliver_waits wait]
  exact ite_self _

/-- A vector once its doorbell has gone out for a source. -/
def Vec.delivered (w : Vec) (n : Nat) (times : List Nat) : Vec :=
  { w with service := some n, count := 0, heldOff := false, times := times }

/-- A vector once it has driven the pin. -/
def Vec.noted (w : Vec) (times : List Nat) : Vec := { w with told := true, times := times }

theorem State.deliver_rings {now : Bool} (ready : s.vecReady seat v now = true) (bells : s.doorbells seat = true) :
    s.deliver seat v now = ((s.doorbell seat v ((s.pendingOn seat v).headD 0)).setVec seat v
      ((s.vec seat v).delivered ((s.pendingOn seat v).headD 0) (s.render.tick :: s.recent seat v))).storm seat v :=
  (if_neg (by rw [ready]; decide)).trans (if_pos bells)

theorem State.deliver_drives {now : Bool} (ready : s.vecReady seat v now = true) (pin : s.doorbells seat = false) :
    s.deliver seat v now = if (s.vec seat v).told then s.setCall seat { s.callOf seat with pin := true } else
      ((s.setCall seat { s.callOf seat with pin := true }).setVec seat v
        ((s.vec seat v).noted (s.render.tick :: s.recent seat v))).storm seat v :=
  (if_neg (by rw [ready]; decide)).trans (if_neg (by rw [pin]; decide))

/-- What a doorbell leaves of the seat's vectors and shows in its call state. -/
theorem State.doorbell_shows (s : State) (seat v n : Nat) : Delivers seat s (s.doorbell seat v n) ∧
    (s.doorbell seat v n).callOf seat = (s.callOf seat).rung v n :=
  ⟨s.doorbell_delivers seat v n, (State.callOf_of_call (s.doorbell_belled seat v n).call seat).trans (s.callOf_setCall _ _)⟩

/-- A doorbell, a vector stored and the guard: what follows for the seat. -/
theorem State.rungStorm_shows (s : State) (seat : Nat) {v : Nat} (hv : v < 64) (n : Nat) (w : Vec) :
    let t := ((s.doorbell seat v n).setVec seat v w).storm seat v
    Delivers seat s t ∧ (t.callOf seat).bell = some (v, n) ∧ (t.callOf seat).bells = (s.callOf seat).bells + 1 ∧
      t.vec seat v = w ∧ (∀ u, u ≠ v → t.vec seat u = s.vec seat u) ∧
      (t.fld64 (.callSeat seat) Reg.CallSeat.VEC_INSERVICE_LO Reg.CallSeat.VEC_INSERVICE_HI).testBit v = w.service.isSome := by
  dsimp only
  obtain ⟨d1, rung⟩ := s.doorbell_shows seat v n
  generalize s.doorbell seat v n = a at *
  have d2 := a.setVec_delivers seat hv w
  have stored := a.callOf_setVec seat v w
  have here := a.vec_setVec seat v w
  have others (u : Nat) (hu : u ≠ v) : (a.setVec seat v w).vec seat u = s.vec seat u :=
    (a.vec_setVec_other seat w hu).trans (State.vec_of_callOf (by rw [rung]; rfl) u)
  have shown := (a.setVec_shows seat hv w).2
  generalize a.setVec seat v w = b at *
  obtain ⟨d3, vecs, service⟩ := b.storm_shows seat hv
  generalize b.storm seat v = t at *
  refine ⟨(d1.trans d2).trans d3, ?_, ?_, (vecs.vec v).trans here, fun u hu => (vecs.vec u).trans (others u hu), ?_⟩
  · rw [vecs.bell, stored, rung]
    rfl
  · rw [vecs.bells, stored, rung]
    rfl
  · rw [service]
    exact shown

theorem State.deliver_delivers (s : State) (seat : Nat) {v : Nat} (hv : v < 64) (now : Bool) :
    Delivers seat s (s.deliver seat v now) := by
  cases ready : s.vecReady seat v now
  case false => rw [State.deliver_waits ready]; exact .refl seat s
  case true =>
    cases bells : s.doorbells seat
    case true =>
      rw [State.deliver_rings ready bells]
      exact (s.rungStorm_shows seat hv _ _).1
    case false =>
      rw [State.deliver_drives ready bells]
      have pin : Delivers seat s (s.setCall seat { s.callOf seat with pin := true }) := s.setCall_delivers seat rfl
      generalize s.setCall seat { s.callOf seat with pin := true } = u at pin ⊢
      split
      · exact pin
      · exact (pin.trans (u.setVec_delivers seat hv _)).trans (State.storm_shows _ seat hv).1

theorem State.deliverAll_delivers (s : State) (seat : Nat) (now : Bool) : Delivers seat s (s.deliverAll seat now) :=
  List.foldlRecOn (motive := Delivers seat s) (List.range 64) (fun s v => s.deliver seat v now) (.refl seat s)
    fun t ht _ hv => ht.trans (t.deliver_delivers seat (List.mem_range.mp hv) now)

theorem State.msTicks_pos (s : State) : 0 < s.msTicks := by
  unfold State.msTicks State.fs
  split <;> decide

theorem Delivers.msTicks {t : State} (h : Delivers seat s t) : t.msTicks = s.msTicks := by
  have rate : t.fld .render Reg.Render.CFG_RATE = s.fld .render Reg.Render.CFG_RATE := by
    refine h.rings _ _ ?_ (.inl ?_)
    · simp only [CallWord, wordAt, Blk.base, Reg.Render.CFG_RATE]
      omega
    · simp only [wordAt, Blk.base, Reg.Render.CFG_RATE, Reg.Seat.STATUS_IN_FLIGHT]
      omega
  unfold State.msTicks State.fs
  rw [rate]

theorem delivery_answers_doorbell (hv : v < 64) (ready : s.vecReady seat v = true) (bells : s.doorbells seat = true) :
    Answers (.delivery seat v) s (fun t =>
      (t.callOf seat).bell = some (v, (s.pendingOn seat v).headD 0) ∧ (t.callOf seat).bells = (s.callOf seat).bells + 1 ∧
      (t.vec seat v).service = some ((s.pendingOn seat v).headD 0) ∧ (t.vec seat v).count = 0 ∧
      (t.fld64 (.callSeat seat) Reg.CallSeat.VEC_INSERVICE_LO Reg.CallSeat.VEC_INSERVICE_HI).testBit v = true ∧
      (s.bit (.callSeat seat) Reg.CallSeat.CFG_STORM_EN = true →
        s.fld (.callSeat seat) Reg.CallSeat.STORM_LIMIT ≤
          1 + ((s.vec seat v).times.filter (fun a => decide (s.render.tick < a + s.msTicks))).length →
        t.masked seat v = true ∧ (t.fld (.callSeat seat) Reg.Hdr.EVENTS).testBit 0 = true ∧
        (t.fld64 (.callSeat seat) Reg.CallSeat.VEC_STORM_LO Reg.CallSeat.VEC_STORM_HI).testBit v = true)) := by
  have done : exec (.delivery seat v) s = settle (s.deliver seat v false) := congrArg settle (if_pos hv)
  rw [State.deliver_rings ready bells] at done
  have gate : s.bit (.callSeat seat) Reg.CallSeat.CFG_GATE = true := by
    unfold State.vecReady at ready
    simp only [Bool.and_eq_true] at ready
    exact ready.1.1.1.2
  generalize hw : (s.vec seat v).delivered ((s.pendingOn seat v).headD 0) (s.render.tick :: s.recent seat v) = w at done
  have times : w.times = s.render.tick :: s.recent seat v := by rw [← hw]; rfl
  have served : w.service = some ((s.pendingOn seat v).headD 0) ∧ w.count = 0 := by rw [← hw]; exact ⟨rfl, rfl⟩
  clear hw
  obtain ⟨-, bell, count, vec, -, service⟩ := s.rungStorm_shows seat hv ((s.pendingOn seat v).headD 0) w
  have stored : Delivers seat s ((s.doorbell seat v ((s.pendingOn seat v).headD 0)).setVec seat v w) :=
    (s.doorbell_delivers seat v _).trans (State.setVec_delivers _ seat hv w)
  have kept : ((s.doorbell seat v ((s.pendingOn seat v).headD 0)).setVec seat v w).vec seat v = w := State.vec_setVec _ _ _ _
  generalize (s.doorbell seat v ((s.pendingOn seat v).headD 0)).setVec seat v w = a at *
  refine Answers.of_settle done ⟨?_, ?_, ?_, ?_, ?_, fun guard many => ?_⟩
  · rw [State.callOf_settled]
    exact bell
  · rw [State.callOf_settled]
    exact count
  · rw [State.vec_settled, vec]
    exact served.1
  · rw [State.vec_settled, vec]
    exact served.2
  · rw [State.callSeat_fld64_settled, service, served.1]
    rfl
  · have recent : a.recent seat v = w.times.filter (fun t => s.render.tick < t + s.msTicks) := by
      unfold State.recent
      rw [kept, stored.render, stored.msTicks]
    have all : s.recent seat v = (s.recent seat v).filter (fun t => s.render.tick < t + s.msTicks) := by
      unfold State.recent
      rw [List.filter_filter]
      simp only [Bool.and_self]
    have now : decide (s.render.tick < s.render.tick + s.msTicks) = true :=
      decide_eq_true (Nat.lt_add_of_pos_right s.msTicks_pos)
    have long : (a.recent seat v).length = 1 + (s.recent seat v).length := by
      rw [recent, times, List.filter_cons, if_pos now, ← all, List.length_cons, Nat.add_comm]
    have strikes : a.storm seat v = a.stormed seat v := by
      rw [State.storm_eq, State.bit_eq_of_fld (stored.call_fld (f := Reg.CallSeat.CFG_STORM_EN) (by decide) (by decide) (by decide)),
        State.bit_eq_of_fld (stored.call_fld (f := Reg.CallSeat.CFG_GATE) (by decide) (by decide) (by decide)),
        stored.call_fld (f := Reg.CallSeat.STORM_LIMIT) (by decide) (by decide) (by decide), guard, gate, long]
      exact if_pos (by rw [Bool.and_true, Bool.true_and]; exact decide_eq_true many)
    obtain ⟨-, -, masked, event, flag, -⟩ := a.stormed_shows seat hv
    rw [strikes]
    generalize a.stormed seat v = t at *
    refine ⟨?_, ?_, ?_⟩
    · unfold State.masked State.bit64 at masked ⊢
      rw [State.callSeat_fld64_settled]
      exact masked
    · rw [State.callSeat_fld_settled]
      exact event
    · rw [State.callSeat_fld64_settled]
      exact flag

theorem delivery_answers_pin (hv : v < 64) (ready : s.vecReady seat v = true) (pin : s.doorbells seat = false)
    (off : s.bit (.callSeat seat) Reg.CallSeat.CFG_STORM_EN = false) : Answers (.delivery seat v) s (fun t =>
      (t.callOf seat).pin = true ∧ (t.vec seat v).told = true ∧ (t.callOf seat).bells = (s.callOf seat).bells) := by
  have done : exec (.delivery seat v) s = settle (s.deliver seat v false) := congrArg settle (if_pos hv)
  rw [State.deliver_drives ready pin] at done
  have stored := s.callOf_setCall seat { s.callOf seat with pin := true }
  have vec : (s.setCall seat { s.callOf seat with pin := true }).vec seat v = s.vec seat v :=
    State.vec_of_callOf (by rw [stored]) v
  have guard := State.bit_eq_of_fld (State.fld_of_fab (s.setCall_fab seat { s.callOf seat with pin := true }) (.callSeat seat)
    Reg.CallSeat.CFG_STORM_EN)
  generalize s.setCall seat { s.callOf seat with pin := true } = u at *
  cases told : (s.vec seat v).told
  case true =>
    rw [if_pos told] at done
    refine Answers.of_settle done ?_
    rw [State.callOf_settled, State.vec_settled, stored, vec]
    exact ⟨rfl, told, rfl⟩
  case false =>
    have frame := u.setVec_delivers seat hv ((s.vec seat v).noted (s.render.tick :: s.recent seat v))
    have call := u.callOf_setVec seat v ((s.vec seat v).noted (s.render.tick :: s.recent seat v))
    have here := u.vec_setVec seat v ((s.vec seat v).noted (s.render.tick :: s.recent seat v))
    rw [if_neg (by rw [told]; decide)] at done
    generalize u.setVec seat v ((s.vec seat v).noted (s.render.tick :: s.recent seat v)) = t at *
    rw [State.storm_off ((State.bit_eq_of_fld (frame.call_fld (by decide) (by decide) (by decide))).trans (guard.trans off))] at done
    refine Answers.of_settle done ?_
    rw [State.callOf_settled, State.vec_settled, call, here, stored]
    exact ⟨rfl, rfl, rfl⟩

/-! EOI (R456) -/

theorem eoi_answers_idle {src : Nat} (none_ : ∀ v, v < 64 → (s.vec seat v).service ≠ some src) :
    Answers (.eoi seat src) s (OnlyWords s · []) := by
  have found : (List.range 64).find? (fun v => (s.vec seat v).service = some src) = none :=
    List.find?_eq_none.mpr fun v hv => by simpa using none_ v (List.mem_range.mp hv)
  refine .unchanged (congrArg settle ?_)
  unfold State.eoi
  rw [found]

/-- The vector in service for a source, where there is one. -/
theorem find_service {src : Nat} (hv : v < 64) (serves : (s.vec seat v).service = some src)
    (alone : ∀ u, u < 64 → u ≠ v → (s.vec seat u).service ≠ some src) :
    (List.range 64).find? (fun v => (s.vec seat v).service = some src) = some v := by
  obtain ⟨u, found⟩ : ∃ u, (List.range 64).find? (fun v => (s.vec seat v).service = some src) = some u :=
    Option.isSome_iff_exists.mp (List.find?_isSome.mpr ⟨v, List.mem_range.mpr hv, by simpa using serves⟩)
  have holds : (s.vec seat u).service = some src := by simpa using List.find?_some found
  by_cases same : u = v
  · rw [found, same]
  · exact absurd holds (alone u (List.mem_range.mp (List.mem_of_find?_eq_some found)) same)

section
variable {src : Nat} (hv : v < 64) (serves : (s.vec seat v).service = some src)
  (alone : ∀ u, u < 64 → u ≠ v → (s.vec seat u).service ≠ some src)
include hv serves alone

theorem eoi_answers_again (pending : src ∈ s.pendingOn seat v) (may : s.mayRing seat v = true) :
    Answers (.eoi seat src) s (fun t => (t.vec seat v).service = some src ∧ (t.callOf seat).bell = some (v, src) ∧
      (t.callOf seat).bells = (s.callOf seat).bells + 1) := by
  have done : exec (.eoi seat src) s = settle (((s.doorbell seat v src).setVec seat v { s.vec seat v with
      times := s.render.tick :: s.recent seat v }).storm seat v) := by
    refine congrArg settle ?_
    unfold State.eoi
    rw [find_service hv serves alone]
    exact if_pos (by rw [List.contains_iff_mem.mpr pending, may]; rfl)
  obtain ⟨-, bell, bells, vec, -, -⟩ := s.rungStorm_shows seat hv src { s.vec seat v with
    times := s.render.tick :: s.recent seat v }
  refine Answers.of_settle done ?_
  rw [State.vec_settled, State.callOf_settled, vec]
  exact ⟨serves, bell, bells⟩

theorem eoi_answers_end (held : src ∉ s.pendingOn seat v ∨ s.mayRing seat v = false) :
    Answers (.eoi seat src) s (fun t => (t.vec seat v).service = none ∧ (t.callOf seat).bells = (s.callOf seat).bells ∧
      (t.vec seat v).count = max (s.vec seat v).count (s.pendingOn seat v).length ∧
      (t.fld64 (.callSeat seat) Reg.CallSeat.VEC_INSERVICE_LO Reg.CallSeat.VEC_INSERVICE_HI).testBit v = false) := by
  let w : Vec := { s.vec seat v with
    service := none, count := max (s.vec seat v).count (s.pendingOn seat v).length,
    since := if (s.vec seat v).count = 0 then s.render.tick else (s.vec seat v).since }
  have done : exec (.eoi seat src) s = settle (s.setVec seat v w) := by
    refine congrArg settle ?_
    unfold State.eoi
    rw [find_service hv serves alone]
    refine if_neg ?_
    rw [Bool.and_eq_true, List.contains_iff_mem]
    rintro ⟨pending, may⟩
    rcases held with absent | off
    · exact absent pending
    · exact absurd (may.symm.trans off) (by decide)
  have served : w.service = none ∧ w.count = max (s.vec seat v).count (s.pendingOn seat v).length := ⟨rfl, rfl⟩
  generalize w = w at done served
  have call := s.callOf_setVec seat v w
  have vec := s.vec_setVec seat v w
  have shown := (s.setVec_shows seat hv w).2
  generalize s.setVec seat v w = t at *
  refine Answers.of_settle done ?_
  rw [State.vec_settled, State.callOf_settled, State.callSeat_fld64_settled, vec, call, shown, served.1]
  exact ⟨rfl, rfl, served.2, rfl⟩

end

/-! GATE (R458, R459) -/

theorem State.gate_shows (s : State) (seat : Nat) (on : Bool) :
    (s.setBoth (.callSeat seat) Reg.CallSeat.CFG_GATE (if on then 1 else 0)).bit (.callSeat seat) Reg.CallSeat.CFG_GATE = on :=
  State.bit_iff_fld _ _ _ _ ((State.fld_setBoth_same _ _ _ ⟨by decide, by decide⟩).trans (by cases on <;> rfl))

/-- With the gate closed no vector is ready. -/
theorem State.vecReady_closed (closed : s.bit (.callSeat seat) Reg.CallSeat.CFG_GATE = false) (v : Nat) (now : Bool) :
    s.vecReady seat v now = false := by
  unfold State.vecReady
  simp [closed]

theorem gate_answers_closed (s : State) (seat : Nat) : Answers (.gate seat false) s (fun t =>
    t.bit (.callSeat seat) Reg.CallSeat.CFG_GATE = false ∧ (t.callOf seat).pin = false) := by
  have done : exec (.gate seat false) s =
      settle ((s.setBoth (.callSeat seat) Reg.CallSeat.CFG_GATE (if false then 1 else 0)).gated seat) := rfl
  have closed := s.gate_shows seat false
  generalize s.setBoth (.callSeat seat) Reg.CallSeat.CFG_GATE (if false then 1 else 0) = u at done closed
  obtain ⟨-, -, fab⟩ := u.releasePin_shows seat true
  have gate := (State.bit_eq_of_fld (State.fld_of_fab fab (.callSeat seat) Reg.CallSeat.CFG_GATE)).trans closed
  have pin : ((u.releasePin seat true).callOf seat).pin = false := by
    have none_ : u.anyReady seat = false := by
      unfold State.anyReady
      rw [List.any_eq_false]
      exact fun v _ => by rw [State.vecReady_closed closed]; decide
    unfold State.releasePin
    rw [State.callOf_setCall, none_]
    simp
  have released : u.gated seat = u.releasePin seat true := if_neg (by rw [gate]; decide)
  rw [released] at done
  generalize u.releasePin seat true = t at *
  refine Answers.of_settle done ?_
  rw [State.callSeat_bit_settled, State.callOf_settled]
  exact ⟨gate, pin⟩

/-- Whether a vector is ready depends on these alone. -/
theorem State.vecReady_of {t : State} (vec : t.vec seat v = s.vec seat v) (frame : Delivers seat s t) (hv : v < 64)
    (mask : t.masked seat v = s.masked seat v) (now : Bool) : t.vecReady seat v now = s.vecReady seat v now := by
  unfold State.vecReady State.doorbells State.asleep
  dsimp only
  rw [vec, frame.pendingOn, mask,
    State.bit_eq_of_fld (frame.call_fld (f := Reg.CallSeat.CFG_GATE) (by decide) (by decide) (by decide)),
    State.bit_eq_of_fld (frame.call_fld (f := Reg.CallSeat.CFG_DELIVERY) (by decide) (by decide) (by decide)),
    State.bit_eq_of_fld (frame.seat_fld (f := Reg.Seat.STATUS_SLEEP_ACK) (by decide) (by decide)),
    frame.call_fld (f := Reg.CallSeat.MOD_COUNT v) (by simp only [Reg.CallSeat.MOD_COUNT]; omega)
      (by simp only [Reg.CallSeat.MOD_COUNT]; omega) (by simp only [Reg.CallSeat.MOD_COUNT]; omega),
    frame.call_fld (f := Reg.CallSeat.MOD_HOLDOFF v) (by simp only [Reg.CallSeat.MOD_HOLDOFF]; omega)
      (by simp only [Reg.CallSeat.MOD_HOLDOFF]; omega) (by simp only [Reg.CallSeat.MOD_HOLDOFF]; omega)]

theorem State.masked_of {t : State} (lo : t.fld (.callSeat seat) Reg.CallSeat.VEC_MASK_LO =
    s.fld (.callSeat seat) Reg.CallSeat.VEC_MASK_LO) (hi : t.fld (.callSeat seat) Reg.CallSeat.VEC_MASK_HI =
    s.fld (.callSeat seat) Reg.CallSeat.VEC_MASK_HI) (u : Nat) : t.masked seat u = s.masked seat u := by
  unfold State.masked State.bit64 State.fld64
  rw [lo, hi]

/-- A doorbell and a vector stored leave the masks. -/
theorem State.rung_masked (s : State) (seat : Nat) {v : Nat} (hv : v < 64) (n : Nat) (w : Vec) (u : Nat) :
    ((s.doorbell seat v n).setVec seat v w).masked seat u = s.masked seat u := by
  have kept (f : Fld) (low : f.off < 0x68) (high : 0x60 ≤ f.off) :
      ((s.doorbell seat v n).setVec seat v w).fld (.callSeat seat) f = s.fld (.callSeat seat) f := by
    refine (State.setVec_fld _ _ (fun h => ?_) (callSeat_not_statusWord seat f)).trans
      (((s.doorbell_belled seat v n).writes _ _ fun x hx => ?_).trans (State.fld_of_fab (s.setCall_fab seat _) _ _))
    · obtain ⟨-, -, -, above⟩ := vecWords_low hv h
      simp only [wordAt, Blk.base] at above
      omega
    · rw [List.mem_singleton.mp hx]
      exact .inl (by simp only [wordAt, Blk.base, Reg.Seat.STATUS_IN_FLIGHT]; omega)
  exact State.masked_of (kept _ (by decide) (by decide)) (kept _ (by decide) (by decide)) u

/-- In a chain of doorbells without a guard, a vector is as it was or in service. -/
structure Chained (q : Nat) (s t : State) : Prop where
  frame : Delivers q s t
  mask : ∀ u, t.masked q u = s.masked q u
  vec : ∀ u, t.vec q u = s.vec q u ∨ (t.vec q u).service.isSome = true

theorem Chained.deliver {q : Nat} {s t : State} (h : Chained q s t) {j : Nat} (hj : j < 64) (bells : s.doorbells q = true)
    (off : s.bit (.callSeat q) Reg.CallSeat.CFG_STORM_EN = false) :
    Chained q s (t.deliver q j false) ∧ (s.vecReady q j = true → ((t.deliver q j false).vec q j).service.isSome = true) ∧
      ∀ k, k ≠ j → (t.vec q k).service.isSome = true → ((t.deliver q j false).vec q k).service.isSome = true := by
  have rings : t.doorbells q = true := (State.bit_eq_of_fld (h.frame.call_fld (by decide) (by decide) (by decide))).trans bells
  have unguarded (u : State) (hu : Delivers q t u) : u.bit (.callSeat q) Reg.CallSeat.CFG_STORM_EN = false :=
    (State.bit_eq_of_fld ((h.frame.trans hu).call_fld (by decide) (by decide) (by decide))).trans off
  cases ready : t.vecReady q j false
  case false =>
    rw [State.deliver_waits ready]
    refine ⟨h, fun was => ?_, fun _ _ => id⟩
    rcases h.vec j with same | served
    · rw [State.vecReady_of same h.frame hj (h.mask j)] at ready
      exact absurd (was.symm.trans ready) (by decide)
    · exact served
  case true =>
    rw [State.deliver_rings ready rings]
    obtain ⟨frame, -, -, here, others, -⟩ := t.rungStorm_shows q hj ((t.pendingOn q j).headD 0)
      ((t.vec q j).delivered ((t.pendingOn q j).headD 0) (t.render.tick :: t.recent q j))
    have mask := t.rung_masked q hj ((t.pendingOn q j).headD 0)
      ((t.vec q j).delivered ((t.pendingOn q j).headD 0) (t.render.tick :: t.recent q j))
    have calm := State.storm_off (unguarded ((t.doorbell q j ((t.pendingOn q j).headD 0)).setVec q j
      ((t.vec q j).delivered ((t.pendingOn q j).headD 0) (t.render.tick :: t.recent q j)))
      ((t.doorbell_delivers q j _).trans (State.setVec_delivers _ q hj _))) j
    rw [calm] at frame here others ⊢
    generalize (t.doorbell q j ((t.pendingOn q j).headD 0)).setVec q j
      ((t.vec q j).delivered ((t.pendingOn q j).headD 0) (t.render.tick :: t.recent q j)) = u at *
    have served : (u.vec q j).service.isSome = true := by rw [here]; rfl
    refine ⟨⟨h.frame.trans frame, fun k => (mask k).trans (h.mask k), fun k => ?_⟩, fun _ => served, fun k hk was => ?_⟩
    · by_cases hk : k = j
      · exact .inr (hk ▸ served)
      · rw [others k hk]
        exact h.vec k
    · rw [others k hk]
      exact was

theorem State.deliverAll_serves (bells : s.doorbells seat = true)
    (off : s.bit (.callSeat seat) Reg.CallSeat.CFG_STORM_EN = false) :
    ∀ v, v < 64 → s.vecReady seat v = true → ((s.deliverAll seat false).vec seat v).service.isSome = true :=
  (foldl_range_each (t := s) (m := 64) (f := fun (s : State) v => s.deliver seat v false) (Chained seat s)
    (fun v u => s.vecReady seat v = true → (u.vec seat v).service.isSome = true)
    ⟨.refl seat s, fun _ => rfl, fun _ => .inl rfl⟩ fun u j hj h => by
      obtain ⟨next, served, stays⟩ := h.deliver hj bells off
      exact ⟨next, served, fun k hk was ready => stays k hk (was ready)⟩).2

theorem gate_answers_open (bells : s.doorbells seat = true)
    (off : s.bit (.callSeat seat) Reg.CallSeat.CFG_STORM_EN = false) : Answers (.gate seat true) s (fun t =>
      t.bit (.callSeat seat) Reg.CallSeat.CFG_GATE = true ∧
      ∀ v, v < 64 → (s.setBoth (.callSeat seat) Reg.CallSeat.CFG_GATE 1).vecReady seat v = true →
        (t.vec seat v).service.isSome = true) := by
  have done : exec (.gate seat true) s =
      settle (((s.setBoth (.callSeat seat) Reg.CallSeat.CFG_GATE 1).gated seat).deliverAll seat false) := rfl
  have opened : (s.setBoth (.callSeat seat) Reg.CallSeat.CFG_GATE 1).bit (.callSeat seat) Reg.CallSeat.CFG_GATE = true :=
    s.gate_shows seat true
  have bells' : (s.setBoth (.callSeat seat) Reg.CallSeat.CFG_GATE 1).doorbells seat = true :=
    (State.bit_setBoth_apart _ _ _ (by decide)).trans bells
  have off' : (s.setBoth (.callSeat seat) Reg.CallSeat.CFG_GATE 1).bit (.callSeat seat) Reg.CallSeat.CFG_STORM_EN = false :=
    (State.bit_setBoth_apart _ _ _ (by decide)).trans off
  generalize s.setBoth (.callSeat seat) Reg.CallSeat.CFG_GATE 1 = u at *
  obtain ⟨frame, vecs, fab⟩ := u.releasePin_shows seat true
  have quiet : u.gated seat = u.releasePin seat true := by
    unfold State.gated
    dsimp only
    split
    · exact List.foldlRecOn (motive := (· = u.releasePin seat true)) _ _ rfl fun t same v _ => by
        rw [same]
        exact State.storm_off ((State.bit_eq_of_fld (State.fld_of_fab fab _ _)).trans off') v
    · rfl
  rw [quiet] at done
  have fld := State.fld_of_fab fab
  have ready (v : Nat) (hv : v < 64) : (u.releasePin seat true).vecReady seat v = u.vecReady seat v :=
    State.vecReady_of (vecs.vec v) frame hv (State.masked_of (fld _ _) (fld _ _) v) false
  generalize u.releasePin seat true = r at *
  have all := State.deliverAll_serves ((State.bit_eq_of_fld (fld _ _)).trans bells') ((State.bit_eq_of_fld (fld _ _)).trans off')
  have gate := (State.bit_eq_of_fld ((r.deliverAll_delivers seat false).call_fld (f := Reg.CallSeat.CFG_GATE) (by decide)
    (by decide) (by decide))).trans ((State.bit_eq_of_fld (fld _ _)).trans opened)
  generalize r.deliverAll seat false = t at *
  refine Answers.of_settle done ⟨?_, fun v hv was => ?_⟩
  · rw [State.callSeat_bit_settled]
    exact gate
  · rw [State.vec_settled]
    exact all v hv ((ready v hv).trans was)

/-! Sleep (R462 to R464) -/

/-- SLEEP_REQ set and its time noted: the words that change. -/
theorem State.sleepNoted_only (s : State) (hq : seat < 8) (c : SeatState) :
    let u := (s.setBoth (.seat seat) Reg.Seat.CTRL_SLEEP_REQ 1).setSeat seat c
    OnlyWords { s with fab := { s.fab with stg := u.fab.stg }, seats := u.seats } u
      [wordAt (.seat seat) Reg.Seat.CTRL_SLEEP_REQ] := by
  refine ⟨rfl, fun k hw hs => ?_⟩
  refine (State.set_word _ _ _ _ k fun e => hs ?_).trans (State.set_word s (.seat seat) Reg.Seat.CTRL_SLEEP_REQ 1 k fun e => ?_)
  · rw [e]
    exact List.mem_append_right _ (List.mem_map.mpr ⟨seat, List.mem_range.mpr hq, rfl⟩)
  · exact hw (by rw [e]; exact List.mem_singleton.mpr rfl)

theorem sleepReq_answers (s : State) {seat : Nat} (hq : seat < 8) : Answers (.sleepReq seat) s (fun t =>
    t.bit (.seat seat) Reg.Seat.CTRL_SLEEP_REQ = true ∧
      (∀ q, t.seat q = if q = seat ∧ s.bit (.seat seat) Reg.Seat.CTRL_SLEEP_REQ = false then
        { s.seat q with sleepAt := s.render.tick } else s.seat q) ∧
      OnlyWords { s with fab := { s.fab with stg := t.fab.stg }, seats := t.seats } t
        [wordAt (.seat seat) Reg.Seat.CTRL_SLEEP_REQ]) := by
  have asked : (s.setBoth (.seat seat) Reg.Seat.CTRL_SLEEP_REQ 1).fld (.seat seat) Reg.Seat.CTRL_SLEEP_REQ = 1 :=
    State.fld_setBoth_same _ _ _ ⟨by decide, by decide⟩
  cases again : s.bit (.seat seat) Reg.Seat.CTRL_SLEEP_REQ
  case true =>
    have done : exec (.sleepReq seat) s = settle (s.setBoth (.seat seat) Reg.Seat.CTRL_SLEEP_REQ 1) :=
      congrArg settle (if_pos again)
    refine Answers.of_settle done ⟨?_, fun q => ?_, ?_⟩
    · refine State.bit_iff_fld _ _ _ true ((State.seat_fld_settled _ _ (by decide) (by decide)).trans asked)
    · rw [State.seat_settled, if_neg (fun h => absurd h.2 (by decide))]
      rfl
    · exact OnlyWords.setBoth_settled s (.seat seat) Reg.Seat.CTRL_SLEEP_REQ 1
  case false =>
    have done : exec (.sleepReq seat) s = settle ((s.setBoth (.seat seat) Reg.Seat.CTRL_SLEEP_REQ 1).setSeat seat
        { s.seat seat with sleepAt := s.render.tick }) := congrArg settle (if_neg (by rw [again]; decide))
    refine Answers.of_settle done ⟨?_, fun q => ?_, ?_⟩
    · refine State.bit_iff_fld _ _ _ true ((State.seat_fld_settled _ _ (by decide) (by decide)).trans ?_)
      exact (State.seat_fld_setSeat _ _ _ _ (by decide) (by decide)).trans asked
    · rw [State.seat_settled, State.seat_setSeat]
      by_cases same : q = seat
      · rw [if_pos same, if_pos ⟨same, rfl⟩, same]
      · rw [if_neg same, if_neg (fun h => same h.1)]
        rfl
    · rw [State.settled_fab_stg, State.settled_seats]
      exact (s.sleepNoted_only hq _).settled

theorem sleepAck_answers {expired : Bool} (req : s.bit (.seat seat) Reg.Seat.CTRL_SLEEP_REQ = true)
    (awake : s.asleep seat = false) (drained : s.isStagedoor seat = false ∨ (s.seat seat).sd.unacked = [] ∨
      (expired = true ∧ (s.seat seat).sleepAt + s.fs / 5 ≤ s.render.tick + 1)) :
    Answers (.sleepAck seat expired) s (fun t => t.asleep seat = true ∧ (t.callOf seat).pin = false) := by
  have may : (!s.isStagedoor seat || (s.seat seat).sd.unacked.isEmpty ||
      (expired && decide ((s.seat seat).sleepAt + s.fs / 5 ≤ s.render.tick + 1))) = true := by
    rcases drained with h | h | ⟨h, k⟩
    · simp [h]
    · simp [h]
    · simp [h, k]
  have done : exec (.sleepAck seat expired) s = settle (((s.deliverAll seat true).setCall seat
      { (s.deliverAll seat true).callOf seat with pin := false }).set (.seat seat) Reg.Seat.STATUS_SLEEP_ACK 1) :=
    congrArg settle (if_pos (by rw [req, awake, may]; rfl))
  generalize s.deliverAll seat true = u at done
  have stored := u.callOf_setCall seat { u.callOf seat with pin := false }
  generalize u.setCall seat { u.callOf seat with pin := false } = v at done stored
  refine Answers.of_settle done ⟨?_, ?_⟩
  · rw [State.asleep_settled]
    exact State.bit_set_one _ _ ⟨by decide, by decide⟩ rfl
  · rw [State.callOf_settled, State.callOf_of_call (State.set_call _ _ _ _) seat, stored]

theorem sleepAck_answers_idle {expired : Bool} (req : s.bit (.seat seat) Reg.Seat.CTRL_SLEEP_REQ = false) :
    Answers (.sleepAck seat expired) s (OnlyWords s · []) := by
  refine .unchanged (congrArg settle (if_neg ?_))
  rw [req, Bool.false_and, Bool.false_and]
  decide

theorem State.sleepClear_shows (s : State) (seat : Nat) : (s.sleepClear seat).asleep seat = false ∧
    (s.sleepClear seat).bit (.seat seat) Reg.Seat.CTRL_SLEEP_REQ = false ∧ seat ∉ (s.sleepClear seat).green.wakes := by
  unfold State.sleepClear
  dsimp only
  have req : (s.setBoth (.seat seat) Reg.Seat.CTRL_SLEEP_REQ 0).fld (.seat seat) Reg.Seat.CTRL_SLEEP_REQ = 0 :=
    State.fld_setBoth_same _ _ _ ⟨by decide, by decide⟩
  generalize s.setBoth (.seat seat) Reg.Seat.CTRL_SLEEP_REQ 0 = a at req
  have ack := State.bit_set_zero a (.seat seat) (f := Reg.Seat.STATUS_SLEEP_ACK) ⟨by decide, by decide⟩ rfl
  have req' := (State.fld_set_apart a (.seat seat) (f := Reg.Seat.STATUS_SLEEP_ACK) (g := Reg.Seat.CTRL_SLEEP_REQ) 0
    (by decide)).trans req
  generalize a.set (.seat seat) Reg.Seat.STATUS_SLEEP_ACK 0 = b at ack req'
  have wakes : seat ∉ (b.wakeDone seat).green.wakes := by
    unfold State.wakeDone State.showWake
    dsimp only
    rw [State.set_green]
    simp
  have kept (f : Fld) : (b.wakeDone seat).fld (.seat seat) f = b.fld (.seat seat) f := by
    unfold State.wakeDone State.showWake
    dsimp only
    refine (State.fld_set_other _ _ (.inl ?_)).trans (State.fld_of_fab rfl _ _)
    simp only [wordAt, Blk.base, Reg.Greenroom.WAKE_DRIVEN]
    omega
  generalize b.wakeDone seat = c at wakes kept
  have frame := c.sdFlush_belled seat
  have word (f : Fld) (hf : Apart Reg.Seat.STATUS_IN_FLIGHT f) (ho : f.off < 0x1000) :=
    (frame.delivers.seat_fld hf ho).trans (kept f)
  refine ⟨(State.bit_eq_of_fld (word _ (by decide) (by decide))).trans ack, ?_, by rw [frame.green]; exact wakes⟩
  exact State.bit_iff_fld _ _ _ false ((word _ (by decide) (by decide)).trans req')

theorem sleepEnd_answers (s : State) (seat : Nat) : Answers (.sleepEnd seat) s (fun t =>
    t.asleep seat = false ∧ t.bit (.seat seat) Reg.Seat.CTRL_SLEEP_REQ = false ∧ seat ∉ t.green.wakes) := by
  have done : exec (.sleepEnd seat) s = settle ((s.sleepClear seat).deliverAll seat false) := rfl
  obtain ⟨awake, req, wakes⟩ := s.sleepClear_shows seat
  generalize s.sleepClear seat = u at *
  have frame := u.deliverAll_delivers seat false
  have word (f : Fld) (hf : Apart Reg.Seat.STATUS_IN_FLIGHT f) (ho : f.off < 0x1000) :=
    State.bit_eq_of_fld (frame.seat_fld hf ho)
  generalize u.deliverAll seat false = t at *
  refine Answers.of_settle done ⟨?_, ?_, ?_⟩
  · rw [State.asleep_settled]
    exact (word _ (by decide) (by decide)).trans awake
  · rw [State.bit_eq_of_fld (State.seat_fld_settled t seat (by decide) (by decide))]
    exact (word _ (by decide) (by decide)).trans req
  · rw [State.settled_green, frame.green]
    exact wakes

end

end Sys2Proof.Machine
end

section
/-! PROOFS. The levels of sources and the vectors they make pending (R450 to R452). -/

namespace Sys2Proof.Machine

open Sys2Proof

/-! Arrivals (R452) -/

theorem State.arrivals_eq (s : State) (q v : Nat) (before : List Nat) :
    ∃ w, s.arrivals q v before = (s.setVec q v w).releasePin q false := ⟨_, rfl⟩

theorem State.releasePin_others (s : State) (q : Nat) (write : Bool) : (s.releasePin q write).seats = s.seats ∧
    ∀ p, p ≠ q → (s.releasePin q write).callOf p = s.callOf p :=
  ⟨rfl, fun _ hp => State.callOf_setCall_other _ _ hp⟩

theorem State.arrivals_shows (s : State) (q : Nat) {v : Nat} (hv : v < 64) (before : List Nat) :
    Delivers q s (s.arrivals q v before) ∧ (s.arrivals q v before).seats = s.seats ∧
      (∀ p, p ≠ q → (s.arrivals q v before).callOf p = s.callOf p) ∧
      ((s.arrivals q v before).fld64 (.callSeat q) Reg.CallSeat.VEC_PEND_LO Reg.CallSeat.VEC_PEND_HI).testBit v =
        !(s.pendingOn q v).isEmpty := by
  obtain ⟨w, arrived⟩ := s.arrivals_eq q v before
  rw [arrived]
  have stored := s.setVec_delivers q hv w
  have others (p : Nat) (hp : p ≠ q) := s.callOf_setVec_other v w hp
  have seats := s.setVec_keeps State.seats (fun _ _ => rfl) (fun _ _ _ => rfl) q v w
  have pend := (s.setVec_shows q hv w).1
  generalize s.setVec q v w = u at *
  obtain ⟨frame, -, fab⟩ := u.releasePin_shows q false
  obtain ⟨seats', others'⟩ := u.releasePin_others q false
  have fld := State.fld_of_fab fab
  refine ⟨stored.trans frame, seats'.trans seats, fun p hp => (others' p hp).trans (others p hp), ?_⟩
  unfold State.fld64 at pend ⊢
  rw [fld, fld]
  exact pend

/-! The watch list (R463, R467) -/

/-- A step of the greenroom: its own page and state alone. -/
structure Watched (s t : State) : Prop where
  fld : ∀ c g, wordAt c g < 0x6000 ∨ 0x7000 ≤ wordAt c g → t.fld c g = s.fld c g
  levels : t.levels = s.levels
  call : t.call = s.call
  seats : t.seats = s.seats

theorem Watched.refl (s : State) : Watched s s := ⟨fun _ _ _ => rfl, rfl, rfl, rfl⟩

theorem Watched.trans {s t u : State} (h : Watched s t) (k : Watched t u) : Watched s u :=
  ⟨fun c g hw => (k.fld c g hw).trans (h.fld c g hw), k.levels.trans h.levels, k.call.trans h.call, k.seats.trans h.seats⟩

theorem Watched.ite {s t u : State} {p : Prop} [Decidable p] (h : Watched s t) (k : Watched s u) :
    Watched s (if p then t else u) := by
  split
  · exact h
  · exact k

theorem State.inGreen_watched (s : State) (g : Green) : Watched s { s with green := g } :=
  ⟨fun c f _ => State.fld_of_fab (t := { s with green := g }) rfl c f, rfl, rfl, rfl⟩

theorem State.wakeSeat_watched (s : State) (q : Nat) : Watched s (s.wakeSeat q) := by
  have stored := s.inGreen_watched { s.green with wakes := (q :: s.green.wakes).eraseDups }
  unfold State.wakeSeat State.showWake
  generalize ({ s with green := { s.green with wakes := (q :: s.green.wakes).eraseDups } } : State) = u at stored
  dsimp only
  refine stored.trans ⟨fun c f hw => State.fld_set_other _ _ (.inl fun e => ?_), rfl, rfl, rfl⟩
  rw [e] at hw
  exact absurd hw (by decide)

theorem State.stickHit_watched (s : State) (i : Nat) : Watched s (s.stick .greenroom Reg.Greenroom.WATCH_HIT i) := by
  refine ⟨fun c f hw => (State.fld_stick _ _ _ _ _ _).trans (State.fld_set_other _ _ (.inl fun e => ?_)),
    State.stick_levels .., State.stick_call .., State.stick_seats ..⟩
  rw [e] at hw
  exact absurd hw (by decide)

theorem State.watch_watched (s : State) (n : Nat) : Watched s (s.watch n) := by
  unfold State.watch
  split
  · exact .refl s
  · refine List.foldlRecOn (motive := Watched s) _ _ (.refl s) fun t ht e _ => ?_
    dsimp only
    split
    case isFalse => exact ht
    case isTrue =>
      have hit := ht.trans (t.stickHit_watched e)
      generalize t.stick .greenroom Reg.Greenroom.WATCH_HIT e = u at hit ⊢
      have woken : Watched s (if u.lowPower then u else ((List.range 8).filter fun q =>
          (u.fld .greenroom (Reg.Greenroom.WATCH_SEATS e)).testBit q && u.asleep q).foldl State.wakeSeat u) := by
        refine .ite hit ?_
        exact List.foldlRecOn (motive := Watched s) _ _ hit fun x hx q _ => hx.trans (x.wakeSeat_watched q)
      generalize (if u.lowPower then u else ((List.range 8).filter fun q =>
        (u.fld .greenroom (Reg.Greenroom.WATCH_SEATS e)).testBit q && u.asleep q).foldl State.wakeSeat u) = v at woken ⊢
      exact .ite (woken.trans (v.inGreen_watched _)) woken

/-! A level taken (R450) -/

/-- The level stored. -/
def State.levelTaken (s : State) (key : Nat) (level : Bool) : State := { s with levels := s.levels.put false key level }

/-- The arrivals at a seat that the state `s` before the change asks for. -/
def State.arrived (s : State) (n : Nat) (u : State) (q : Nat) : State :=
  match s.vectorOf q n with
  | some v => u.arrivals q v (s.pendingOn q v)
  | none => u

theorem State.takeLevel_eq (s : State) (n key : Nat) (level : Bool) (seats : List Nat) : s.takeLevel n key level seats =
    if level && !Map.get false key s.levels then (seats.foldl (s.arrived n) (s.levelTaken key level)).watch n
    else seats.foldl (s.arrived n) (s.levelTaken key level) := by
  have step : (fun (u : State) (q : Nat) => match (s.vectorOf q n).map (fun v => (v, s.pendingOn q v)) with
      | some (v, p) => u.arrivals q v p
      | none => u) = s.arrived n := by
    funext u q
    unfold State.arrived
    cases s.vectorOf q n <;> rfl
  unfold State.takeLevel
  dsimp only
  rw [List.foldl_map]
  rw [← step]
  rfl

theorem State.vectorOf_lt {s : State} {q n v : Nat} (h : s.vectorOf q n = some v) : v < 64 := by
  unfold State.vectorOf at h
  dsimp only at h
  split at h
  · rw [← Option.some.inj h]
    exact Nat.mod_lt _ (by decide)
  · exact absurd h (by simp)

/-- A change of level: the vectors' words, the greenroom's page and the levels. -/
structure Levelled (s t : State) : Prop where
  fld : ∀ c g, wordAt c g ∉ statusWords → wordAt c g < 0x6000 ∨ 0x7000 ≤ wordAt c g →
    wordAt c g < 0x18000 ∨ wordAt c g % 0x1000 < 0x40 ∨ 0x2000000 ≤ wordAt c g → t.fld c g = s.fld c g
  seatFld : ∀ q f, Apart Reg.Seat.STATUS_IN_FLIGHT f → f.off < 0x1000 → q < 8 → t.fld (.seat q) f = s.fld (.seat q) f
  seats : t.seats = s.seats
  map : ∀ q, (t.callOf q).map = (s.callOf q).map

theorem Levelled.refl (s : State) : Levelled s s := ⟨fun _ _ _ _ _ => rfl, fun _ _ _ _ _ => rfl, rfl, fun _ => rfl⟩

theorem Levelled.trans {s t u : State} (h : Levelled s t) (k : Levelled t u) : Levelled s u :=
  ⟨fun c g h1 h2 h3 => (k.fld c g h1 h2 h3).trans (h.fld c g h1 h2 h3),
    fun q f h1 h2 h3 => (k.seatFld q f h1 h2 h3).trans (h.seatFld q f h1 h2 h3), k.seats.trans h.seats,
    fun q => (k.map q).trans (h.map q)⟩

theorem State.levelTaken_levelled (s : State) (key : Nat) (level : Bool) : Levelled s (s.levelTaken key level) :=
  ⟨fun c g _ _ _ => State.fld_of_fab (t := s.levelTaken key level) rfl c g,
    fun q f _ _ _ => State.fld_of_fab (t := s.levelTaken key level) rfl (.seat q) f, rfl, fun _ => rfl⟩

theorem Watched.levelled {s t : State} (h : Watched s t) : Levelled s t :=
  ⟨fun c g _ hw _ => h.fld c g hw, fun q f _ _ _ => h.fld _ _ (.inr (by simp only [wordAt, Blk.base]; omega)), h.seats,
    fun q => congrArg CallState.map (State.callOf_of_call h.call q)⟩

/-- The words of a seat's vectors alone, as seen from a field. -/
theorem State.arrivals_fld (s : State) (q : Nat) {v : Nat} (before : List Nat) {c : Blk} {g : Fld}
    (hw : wordAt c g ∉ vecWords q v) (hs : wordAt c g ∉ statusWords) : (s.arrivals q v before).fld c g = s.fld c g := by
  obtain ⟨w, arrived⟩ := s.arrivals_eq q v before
  rw [arrived]
  obtain ⟨-, -, fab⟩ := (s.setVec q v w).releasePin_shows q false
  exact (State.fld_of_fab fab c g).trans (s.setVec_fld w hw hs)

theorem State.arrivals_levelled (s : State) {q v : Nat} (hq : q < 8) (hv : v < 64) (before : List Nat) :
    Levelled s (s.arrivals q v before) := by
  obtain ⟨frame, seats, others, -⟩ := s.arrivals_shows q hv before
  refine ⟨fun c g hs _ hw => s.arrivals_fld q before (fun h => ?_) hs, fun p f hf ho hp => ?_, seats, fun p => ?_⟩
  · obtain ⟨low, high, -, -⟩ := vecWords_low hv h
    omega
  · refine frame.rings _ _ ?_ ?_
    · simp only [CallWord, wordAt, Blk.base]
      omega
    · rcases hf with hf | hf
      · exact .inl (by simp only [wordAt, Blk.base, Reg.Seat.STATUS_IN_FLIGHT] at *; omega)
      · exact .inr hf
  · by_cases same : p = q
    · rw [same]
      exact frame.map
    · rw [others p same]

theorem State.arrived_levelled (s u : State) (n : Nat) {q : Nat} (hq : q < 8) : Levelled u (s.arrived n u q) ∧
    (s.arrived n u q).levels = u.levels := by
  unfold State.arrived
  cases mapped : s.vectorOf q n with
  | none => exact ⟨.refl u, rfl⟩
  | some v =>
    have hv := State.vectorOf_lt mapped
    exact ⟨u.arrivals_levelled hq hv _, (u.arrivals_shows q hv _).1.levels⟩

theorem State.foldl_arrived (s u : State) (n : Nat) {seats : List Nat} (h8 : ∀ q ∈ seats, q < 8) :
    Levelled u (seats.foldl (s.arrived n) u) ∧ (seats.foldl (s.arrived n) u).levels = u.levels :=
  List.foldlRecOn (motive := fun t => Levelled u t ∧ t.levels = u.levels) seats (s.arrived n) ⟨.refl u, rfl⟩
    fun t ⟨ht, hl⟩ q hq => by
      obtain ⟨next, same⟩ := s.arrived_levelled t n (h8 q hq)
      exact ⟨ht.trans next, same.trans hl⟩

theorem State.takeLevel_levelled (s : State) (n key : Nat) (level : Bool) {seats : List Nat} (h8 : ∀ q ∈ seats, q < 8) :
    Levelled s (s.takeLevel n key level seats) ∧ (s.takeLevel n key level seats).levels = s.levels.put false key level := by
  obtain ⟨moved, levels⟩ := s.foldl_arrived (s.levelTaken key level) n h8
  have stored := (s.levelTaken_levelled key level).trans moved
  rw [State.takeLevel_eq]
  generalize seats.foldl (s.arrived n) (s.levelTaken key level) = u at *
  have watched := u.watch_watched n
  split
  · exact ⟨stored.trans watched.levelled, watched.levels.trans levels⟩
  · exact ⟨stored, levels⟩

/-! A banked source (R451) -/

theorem State.cause_updateBank (s : State) (q j : Nat) : s.cause (.updateBank q) j =
    decide (s.fld (.updateBank q) Reg.Hdr.EVENTS &&& s.fld (.updateBank q) Reg.Hdr.INT_EN &&& 2 ^ j ≠ 0) := rfl

theorem State.cause_callSeat (s : State) (q j : Nat) : s.cause (.callSeat q) j =
    decide (s.fld (.callSeat q) Reg.Hdr.EVENTS &&& s.fld (.callSeat q) Reg.Hdr.INT_EN &&& 2 ^ j ≠ 0) := rfl

theorem Levelled.intSrc {s t : State} (h : Levelled s t) {q : Nat} (hq : q < 8) : t.intSrc (.seat q) = s.intSrc (.seat q) := by
  have events := h.seatFld q Reg.Hdr.EVENTS (by decide) (by decide) hq
  have ack : t.bit (.seat q) Reg.Seat.STATUS_SLEEP_ACK = s.bit (.seat q) Reg.Seat.STATUS_SLEEP_ACK :=
    State.bit_eq_of_fld (h.seatFld q _ (by decide) (by decide) hq)
  have seat : t.seat q = s.seat q := State.seat_of_seats h.seats q
  have sources : (List.range 4).map (t.cqSource q) = (List.range 4).map (s.cqSource q) := by
    refine List.map_congr_left fun j hj => ?_
    unfold State.cqSource
    obtain ⟨tail, tailOff, head, headOff⟩ := (show ∀ j < 4, Apart Reg.Seat.STATUS_IN_FLIGHT (Reg.Seat.CQ_TAIL j) ∧
      (Reg.Seat.CQ_TAIL j).off < 0x1000 ∧ Apart Reg.Seat.STATUS_IN_FLIGHT (Reg.Seat.CQ_HEAD j) ∧
        (Reg.Seat.CQ_HEAD j).off < 0x1000 by decide) j (List.mem_range.mp hj)
    rw [h.seatFld q _ tail tailOff hq, h.seatFld q _ head headOff hq, ack, seat]
  unfold State.intSrc
  dsimp only
  rw [events, sources]

/-- The level of a banked source does not depend on what a change of level writes. -/
theorem Levelled.sourceLevel {s t : State} (h : Levelled s t) {n : Nat} (bank : banked n = true) (q : Nat) :
    t.sourceLevel n q = s.sourceLevel n q := by
  have update (f : Fld) (ho : f.off < 0x40) : t.fld (.updateBank q) f = s.fld (.updateBank q) f :=
    h.fld _ _ (statusWords_below (by simp only [wordAt, Blk.base]; omega)) (by simp only [wordAt, Blk.base]; omega)
      (by simp only [wordAt, Blk.base]; omega)
  have call (f : Fld) (ho : f.off < 0x40) : t.fld (.callSeat q) f = s.fld (.callSeat q) f :=
    h.fld _ _ (statusWords_below (by simp only [wordAt, Blk.base]; omega)) (by simp only [wordAt, Blk.base]; omega)
      (by simp only [wordAt, Blk.base]; omega)
  have bank_ (j : Nat) : t.cause (.updateBank q) j = s.cause (.updateBank q) j := by
    rw [State.cause_updateBank, State.cause_updateBank, update _ (by decide), update _ (by decide)]
  have any (u : State) : u.sourceLevel 7 q =
    (decide (q = 0) && (List.range 8).any (fun q => (u.intSrc (.seat q)).testBit 8)) := rfl
  have cases_ : n = 1 ∨ n = 2 ∨ n = 3 ∨ n = 7 ∨ n = 16 := by
    unfold banked at bank
    simpa [or_assoc] using bank
  rcases cases_ with rfl | rfl | rfl | rfl | rfl
  · exact bank_ 1
  · exact bank_ 2
  · exact bank_ 0
  · rw [any, any]
    refine congrArg (decide (q = 0) && ·) ?_
    rw [Bool.eq_iff_iff, List.any_eq_true, List.any_eq_true]
    exact exists_congr fun p => and_congr_right fun hp => by rw [h.intSrc (List.mem_range.mp hp)]
  · refine (t.cause_callSeat q 0).trans (Eq.trans ?_ (s.cause_callSeat q 0).symm)
    rw [call _ (by decide), call _ (by decide)]

theorem State.levelOf_put {s t : State} {n q key : Nat} {level : Bool} (h : t.levels = s.levels.put false key level)
    (hk : (if banked n then 2048 * (q + 1) + n else n) = key) : t.levelOf n q = level := by
  unfold State.levelOf
  rw [h, hk]
  exact Map.get_put_same _ _ _ _

theorem State.levelOf_put_other {s t : State} {n q key : Nat} {level : Bool} (h : t.levels = s.levels.put false key level)
    (hk : (if banked n then 2048 * (q + 1) + n else n) ≠ key) : t.levelOf n q = s.levelOf n q := by
  unfold State.levelOf
  rw [h]
  exact Map.get_put_other _ _ _ _ hk _

theorem exec_sourceChange {s : State} {src : Nat} : exec (.sourceChange src) s =
    settle (if s.heldSource src then (s.sourceChange src).watch src else s.sourceChange src) := rfl

/-- A source that is no completion queue's is not held. -/
theorem State.heldSource_banked (s : State) {n : Nat} (bank : banked n = true) : s.heldSource n = false := by
  have low : ¬ 64 ≤ n := by
    unfold banked at bank
    simp only [Bool.or_eq_true, decide_eq_true_eq] at bank
    omega
  unfold State.heldSource
  simp [low]

theorem sourceChange_answers_banked {s : State} {src : Nat} (hs : src < 2048) (bank : banked src = true) :
    Answers (.sourceChange src) s (fun t => ∀ q, q < 8 → t.levelOf src q = s.sourceLevel src q) := by
  have folded : s.sourceChange src = (List.range 8).foldl (fun s q =>
      s.takeLevel src (2048 * (q + 1) + src) (s.sourceLevel src q) [q]) s := (if_neg (by omega)).trans (if_pos bank)
  have done : exec (.sourceChange src) s = settle (s.sourceChange src) :=
    congrArg settle (if_neg (by rw [State.heldSource_banked s bank]; decide))
  obtain ⟨-, each⟩ := foldl_range_each (t := s) (m := 8) (f := fun (s : State) q =>
      s.takeLevel src (2048 * (q + 1) + src) (s.sourceLevel src q) [q]) (Levelled s)
    (fun q u => u.levelOf src q = s.sourceLevel src q) (.refl s) fun u j hj hu => by
      obtain ⟨moved, levels⟩ := u.takeLevel_levelled src (2048 * (j + 1) + src) (u.sourceLevel src j) (seats := [j])
        (fun q hq => List.mem_singleton.mp hq ▸ hj)
      refine ⟨hu.trans moved, ?_, fun k hk was => ?_⟩
      · rw [State.levelOf_put levels (if_pos bank)]
        exact hu.sourceLevel bank j
      · rw [State.levelOf_put_other levels (by rw [if_pos bank]; omega)]
        exact was
  rw [folded] at done
  generalize (List.range 8).foldl (fun s q => s.takeLevel src (2048 * (q + 1) + src) (s.sourceLevel src q) [q]) s = t at *
  refine Answers.of_settle done fun q hq => ?_
  rw [State.levelOf_of_levels (State.settled_levels t)]
  exact each q hq

/-! A source that every seat shares -/

/-- The bit of LEVEL that shows a source. -/
def State.levelShown (s : State) (n : Nat) (level : Bool) : State :=
  s.set .callGlobal (Reg.CallGlobal.LEVEL (n / 32)) (toggled (s.fld .callGlobal (Reg.CallGlobal.LEVEL (n / 32))) (n % 32) level)

theorem State.sourceChange_shared (s : State) {n : Nat} (hn : n < 2048) (shared : banked n = false) :
    s.sourceChange n = (s.takeLevel n n (s.sourceLevel n 0) (List.range 8)).levelShown n (s.sourceLevel n 0) :=
  (if_neg (by omega)).trans (if_neg (by rw [shared]; decide))

theorem State.levelShown_testBit (s : State) (n : Nat) (level : Bool) :
    ((s.levelShown n level).fld .callGlobal (Reg.CallGlobal.LEVEL (n / 32))).testBit (n % 32) = level := by
  unfold State.levelShown
  rw [State.fld_set_same _ _ _ _ ⟨show 0 + 32 ≤ 32 by decide, show 0 < 2 ^ 32 by decide⟩, Nat.testBit_mod_two_pow,
    testBit_toggled]
  have : decide (n % 32 < (Reg.CallGlobal.LEVEL (n / 32)).width) = true := decide_eq_true (Nat.mod_lt _ (by decide))
  rw [this, Bool.true_and]

theorem level_word {n : Nat} (hn : n < 2048) : 0x7100 ≤ wordAt .callGlobal (Reg.CallGlobal.LEVEL (n / 32)) ∧
    wordAt .callGlobal (Reg.CallGlobal.LEVEL (n / 32)) < 0x7200 := by
  simp only [wordAt, Blk.base, Reg.CallGlobal.LEVEL]
  omega

/-- VEC_PEND of a vector that a source asserts on. -/
def State.PendShown (s : State) (n q : Nat) (t : State) : Prop :=
  ∀ v, s.vectorOf q n = some v → (t.fld64 (.callSeat q) Reg.CallSeat.VEC_PEND_LO Reg.CallSeat.VEC_PEND_HI).testBit v = true

theorem State.PendShown.keep {s t u : State} {n q : Nat} (h : s.PendShown n q t)
    (lo : u.fld (.callSeat q) Reg.CallSeat.VEC_PEND_LO = t.fld (.callSeat q) Reg.CallSeat.VEC_PEND_LO)
    (hi : u.fld (.callSeat q) Reg.CallSeat.VEC_PEND_HI = t.fld (.callSeat q) Reg.CallSeat.VEC_PEND_HI) : s.PendShown n q u :=
  fun v hv => by
    have shown := h v hv
    unfold State.fld64 at shown ⊢
    rw [lo, hi]
    exact shown

theorem State.arrived_pend {s u : State} {n j : Nat} (map : (u.callOf j).map = (s.callOf j).map)
    (level : u.levelOf n j = true) : s.PendShown n j (s.arrived n u j) := by
  intro v mapped
  have arrived : s.arrived n u j = u.arrivals j v (s.pendingOn j v) := by
    unfold State.arrived
    rw [mapped]
  have pending : n ∈ u.pendingOn j v := State.mem_pendingOn ((State.vectorOf_of_callOf map n).trans mapped) level
  rw [arrived, (u.arrivals_shows j (State.vectorOf_lt mapped) _).2.2.2]
  cases h : u.pendingOn j v with
  | nil => rw [h] at pending; exact absurd pending List.not_mem_nil
  | cons a l => rfl

theorem State.arrived_pend_other (s u : State) (n : Nat) {j k : Nat} (hk : k ≠ j) (h : s.PendShown n k u) :
    s.PendShown n k (s.arrived n u j) := by
  unfold State.arrived
  cases mapped : s.vectorOf j n with
  | none => exact h
  | some v =>
    have apart (f : Fld) (hf : f.off < 0x1000) : (u.arrivals j v (s.pendingOn j v)).fld (.callSeat k) f = u.fld (.callSeat k) f := by
      refine u.arrivals_fld j _ (fun hw => ?_) (callSeat_not_statusWord k f)
      obtain ⟨low, high, -, -⟩ := vecWords_low (State.vectorOf_lt mapped) hw
      simp only [wordAt, Blk.base] at low high
      omega
    exact h.keep (apart _ (by decide)) (apart _ (by decide))

theorem Watched.pend {s t u : State} {n q : Nat} (h : Watched t u) (k : s.PendShown n q t) : s.PendShown n q u :=
  k.keep (h.fld _ _ (.inr (by simp only [wordAt, Blk.base]; omega))) (h.fld _ _ (.inr (by simp only [wordAt, Blk.base]; omega)))

theorem State.levelShown_fld (s : State) {n : Nat} (hn : n < 2048) (level : Bool) (c : Blk) (f : Fld)
    (h : 0x7200 ≤ wordAt c f) : (s.levelShown n level).fld c f = s.fld c f :=
  State.fld_set_other _ _ (.inl fun e => by have := (level_word hn).2; omega)

/-- A level taken for every seat shows on each vector that maps the source. -/
theorem State.takeLevel_pend (s : State) {n : Nat} (shared : banked n = false) :
    ∀ q, q < 8 → s.PendShown n q (s.takeLevel n n true (List.range 8)) := by
  intro q hq
  obtain ⟨-, each⟩ := foldl_range_each (t := s.levelTaken n true) (m := 8) (f := s.arrived n)
    (fun u => Levelled s u ∧ u.levels = s.levels.put false n true) (fun q u => s.PendShown n q u)
    ⟨s.levelTaken_levelled n true, rfl⟩ fun u j hj ⟨moved, levels⟩ => by
      obtain ⟨next, same⟩ := s.arrived_levelled u n hj
      exact ⟨⟨moved.trans next, same.trans levels⟩, State.arrived_pend (moved.map j) (State.levelOf_put levels (by
        rw [shared]; rfl)), fun k hk was => s.arrived_pend_other u n hk was⟩
  rw [State.takeLevel_eq]
  split
  · exact (State.watch_watched _ n).pend (each q hq)
  · exact each q hq

/-- A source that nobody maps and that does not assert: only its level is taken. -/
theorem State.takeLevel_quiet (s : State) {n : Nat} (none_ : ∀ q, q < 8 → s.vectorOf q n = none) :
    s.takeLevel n n false (List.range 8) = s.levelTaken n false := by
  rw [State.takeLevel_eq, Bool.false_and, if_neg (by decide)]
  refine List.foldlRecOn (motive := (· = s.levelTaken n false)) _ _ rfl fun u hu q hq => ?_
  unfold State.arrived
  rw [none_ q (List.mem_range.mp hq)]
  exact hu

theorem sourceChange_answers_shared {s : State} {src : Nat} (hs : src < 2048) (shared : banked src = false) :
    Answers (.sourceChange src) s (fun t =>
      (∀ q, t.levelOf src q = s.sourceLevel src 0) ∧
      (t.fld .callGlobal (Reg.CallGlobal.LEVEL (src / 32))).testBit (src % 32) = s.sourceLevel src 0 ∧
      (s.sourceLevel src 0 = true → ∀ q v, q < 8 → s.vectorOf q src = some v →
        (t.fld64 (.callSeat q) Reg.CallSeat.VEC_PEND_LO Reg.CallSeat.VEC_PEND_HI).testBit v = true) ∧
      (s.sourceLevel src 0 = false → (∀ q, q < 8 → s.vectorOf q src = none) →
        OnlyWords { s with levels := t.levels } t [wordAt .callGlobal (Reg.CallGlobal.LEVEL (src / 32))])) := by
  have done := exec_sourceChange (s := s) (src := src)
  have held : s.sourceLevel src 0 = false → s.heldSource src = false := fun low => by
    unfold State.heldSource
    rw [low, Bool.and_false]
  rw [s.sourceChange_shared hs shared] at done
  have pend := s.takeLevel_pend shared
  have quiet := fun none_ => s.takeLevel_quiet (n := src) none_
  generalize s.sourceLevel src 0 = level at *
  obtain ⟨-, levels⟩ := s.takeLevel_levelled src src level (seats := List.range 8) fun q hq => List.mem_range.mp hq
  have pend' : level = true → ∀ q, q < 8 → s.PendShown src q (s.takeLevel src src level (List.range 8)) :=
    fun high => by rw [high]; exact pend
  have quiet' : level = false → (∀ q, q < 8 → s.vectorOf q src = none) →
      s.takeLevel src src level (List.range 8) = s.levelTaken src level := fun low => by rw [low]; exact quiet
  generalize s.takeLevel src src level (List.range 8) = u at *
  have bit := u.levelShown_testBit src level
  have keep := u.levelShown_fld hs level
  have levels' : (u.levelShown src level).levels = s.levels.put false src level := levels
  have only : u = s.levelTaken src level → OnlyWords { s with levels := (u.levelShown src level).settled.levels }
      (u.levelShown src level).settled [wordAt .callGlobal (Reg.CallGlobal.LEVEL (src / 32))] := fun e => by
    rw [State.settled_levels, levels', e]
    exact (OnlyWords.set _ _ _ _).settled
  generalize u.levelShown src level = w at *
  have watched : Watched w (if s.heldSource src then w.watch src else w) := .ite (w.watch_watched src) (.refl w)
  have still : s.heldSource src = false → (if s.heldSource src then w.watch src else w) = w := fun off => by
    rw [off]
    rfl
  generalize (if s.heldSource src then w.watch src else w) = t at *
  have word := level_word hs
  refine Answers.of_settle done ⟨fun q => ?_, ?_, fun high q v hq mapped => ?_, fun low none_ => ?_⟩
  · exact State.levelOf_put (s := s) ((State.settled_levels t).trans (watched.levels.trans levels')) (by rw [shared]; rfl)
  · rw [State.settled_fld _ _ _ ?_, watched.fld _ _ (by omega)]
    · exact bit
    · exact fun h => by
        have apart : ∀ k ∈ statusWords, k < 0x7100 ∨ 0x7200 ≤ k := by decide
        have := apart _ h
        simp only [wordAt] at word
        omega
  · rw [State.callSeat_fld64_settled]
    refine watched.pend ((pend' high q hq).keep (keep _ _ ?_) (keep _ _ ?_)) v mapped <;>
      simp only [wordAt, Blk.base] <;> omega
  · rw [still (held low)]
    exact only (quiet' low none_)

/-! The obligation -/

/-- Settles O56, one lemma per command and case. -/
theorem callboard : Obligations.Callboard := by
  unfold Obligations.Callboard
  refine ⟨fun s src hs => ⟨sourceChange_answers_shared hs, sourceChange_answers_banked hs⟩, fun s seat v _ hv =>
      ⟨holdoffExpire_answers hv, holdoffExpire_answers_idle, delivery_answers_idle, delivery_answers_doorbell hv,
        delivery_answers_pin hv⟩, fun s seat src _ => ⟨eoi_answers_idle, fun v hv serves alone =>
      ⟨eoi_answers_again hv serves alone, eoi_answers_end hv serves alone⟩⟩, fun s seat _ hq => ⟨gate_answers_closed s seat,
      gate_answers_open, sleepReq_answers s hq, fun _ => sleepAck_answers, fun _ => sleepAck_answers_idle,
      sleepEnd_answers s seat⟩⟩

end Sys2Proof.Machine
end

section
/-! PROOFS. A sensed edge of a greenroom pin leaves more than its bit: the mark of the refresh that it came after (R62, R467). -/

namespace Sys2Proof.Machine

open Sys2Proof

/-- Pin 0 stands high, and the greenroom has not sensed it yet. -/
def edgeWaits : State := { gpio := [(0, { raw := true })], render := { tick := 100 } }

theorem exec_edgeWaits : exec (.greenroomGpioEdge 0) edgeWaits = settle (({ edgeWaits with
    gpio := edgeWaits.gpio.put ({} : GpioPin) 0 { edgeWaits.pin 0 with green := (edgeWaits.pin 0).raw } } : State).stick .greenroom
    Reg.Greenroom.GPIO_EDGE 0) :=
  congrArg settle (if_pos (by decide +kernel))

/-- Refutes O57 by its clause on a GPIO edge that stood for the debounce. GPIO_EDGE lies on a mirrored page, where a sticky bit
also notes the refresh after which it was set (`State.stick`, `Fabric.evMark`), so that a clearing read of the mirror does not
lose it (R62). That note is no register word, but the clause lets only the pin and the word of GPIO_EDGE differ. -/
theorem not_greenroomJacksAndPower : ¬ Obligations.GreenroomJacksAndPower := by
  rintro ⟨alone, -⟩
  obtain ⟨-, -, -, -, edge, -⟩ := alone edgeWaits
  obtain ⟨t, answer, -, -, same, -⟩ := (edge 0 (by decide)).1 (by decide) (by decide +kernel)
  obtain rfl := Host.Outcome.next.inj (answer.symm.trans exec_edgeWaits)
  have unmarked := congrArg (fun s : State => s.fab.evMark) same
  dsimp only at unmarked
  rw [State.settled_fab_evMark] at unmarked
  exact absurd unmarked (by decide +kernel)

end Sys2Proof.Machine
end

section
/-! PROOFS. The Prompter's engine and page: what a run's instructions do to them (R426 to R433). -/

namespace Sys2Proof.Machine

open Sys2Proof

/-- Only Prompter `n`'s engine may have changed, and of the registers the words `ws`. -/
def PrMoves (n : Nat) (ws : List Nat) (s t : State) : Prop :=
  (∀ m, m ≠ n → t.pr m = s.pr m) ∧ OnlyWords { s with prompters := t.prompters } t ws

/-- The words of Prompter `n`'s page that hold its STATE and its depths. -/
def prCore (n : Nat) : List Nat := [wordAt (.prompter n) Reg.Prompter.STATE, wordAt (.prompter n) Reg.Prompter.CALL_DEPTH]

section
variable {n : Nat} {ws : List Nat} {s t u : State}

theorem PrMoves.of_only (h : OnlyWords s t ws) : PrMoves n ws s t := by
  have same : t.prompters = s.prompters := h.keeps State.prompters (fun _ _ => rfl)
  refine ⟨fun m _ => congrArg (Map.get ({} : PrompterEngine) m) same, ?_⟩
  rw [same]
  exact h

theorem PrMoves.refl : PrMoves n ws s s := .of_only (.refl s ws)

theorem PrMoves.trans (h : PrMoves n ws s t) (k : PrMoves n ws t u) : PrMoves n ws s u := by
  have first : OnlyWords { s with prompters := u.prompters } { t with prompters := u.prompters } ws :=
    ⟨congrArg (fun x : State => { x with prompters := u.prompters }) h.2.1, h.2.2⟩
  exact ⟨fun m hm => (k.1 m hm).trans (h.1 m hm), first.trans k.2⟩

theorem PrMoves.mono {vs : List Nat} (h : PrMoves n ws s t) (sub : ∀ k ∈ ws, k ∈ vs) : PrMoves n vs s t := ⟨h.1, h.2.mono sub⟩

theorem PrMoves.set (h : PrMoves n ws s t) {b : Blk} {f : Fld} (v : Nat) (hm : wordAt b f ∈ ws) : PrMoves n ws s (t.set b f v) :=
  h.trans (.of_only ((OnlyWords.refl t ws).set_in b f v hm))

theorem PrMoves.settled (h : PrMoves n ws s t) : PrMoves n ws s t.settled :=
  h.trans (.of_only (OnlyWords.refl t ws).settled)

theorem State.pr_setPr_same (s : State) (n : Nat) (e : PrompterEngine) : (s.setPr n e).pr n = e := Map.get_put_same _ _ _ _

theorem State.pr_setPr_other (s : State) {n m : Nat} (e : PrompterEngine) (h : m ≠ n) : (s.setPr n e).pr m = s.pr m :=
  Map.get_put_other _ _ _ _ h _

theorem PrMoves.setPr (h : PrMoves n ws s t) (e : PrompterEngine) (hm : wordAt (.prompter n) Reg.Prompter.CALL_DEPTH ∈ ws) :
    PrMoves n ws s (t.setPr n e) := by
  refine h.trans ⟨fun m hm => t.pr_setPr_other e hm, ?_⟩
  exact ((OnlyWords.refl { t with prompters := t.prompters.put ({} : PrompterEngine) n e } ws).set_in
    (.prompter n) Reg.Prompter.CALL_DEPTH e.calls.length hm).set_in (.prompter n) Reg.Prompter.LOOP_DEPTH e.loops.length hm

end

/-! Fields of a Prompter's page -/

theorem prompter_not_statusWord (n : Nat) (f : Fld) : wordAt (.prompter n) f ∉ statusWords :=
  statusWords_below (by simp only [wordAt, Blk.base]; omega)

theorem State.pr_fld_settled (s : State) (n : Nat) (f : Fld) : s.settled.fld (.prompter n) f = s.fld (.prompter n) f :=
  s.settled_fld _ _ (prompter_not_statusWord n f)

theorem State.pr_settled (s : State) (n : Nat) : s.settled.pr n = s.pr n := s.settled_only.keeps (State.pr · n) (fun _ _ => rfl)

/-- A written field reads what was written, where that fits. -/
theorem State.fld_set_fit (s : State) (b : Blk) {f : Fld} {v : Nat} (hw : f.lsb + f.width ≤ 32) (hr : f.reset < 2 ^ f.width)
    (hv : v < 2 ^ f.width) : (s.set b f v).fld b f = v :=
  (s.fld_set_same b f v ⟨hw, hr⟩).trans (Nat.mod_eq_of_lt hv)

/-- An engine's replacement shows in the depths alone. -/
theorem State.fld_setPr (s : State) (n : Nat) (e : PrompterEngine) {b : Blk} {g : Fld}
    (h : b.base + g.off ≠ wordAt (.prompter n) Reg.Prompter.CALL_DEPTH) : (s.setPr n e).fld b g = s.fld b g := by
  have apart (t : State) (f : Fld) (v : Nat) (hf : f.off = Reg.Prompter.CALL_DEPTH.off) :
      (t.set (.prompter n) f v).fld b g = t.fld b g := State.fld_set_word _ _ _ _ _ _ (by rw [hf]; exact h)
  unfold State.setPr
  dsimp only
  rw [apart _ Reg.Prompter.LOOP_DEPTH _ rfl, apart _ Reg.Prompter.CALL_DEPTH _ rfl]
  rfl

theorem State.pr_fld_setPr (s : State) (n : Nat) (e : PrompterEngine) {g : Fld} (h : g.off ≠ 0x64) :
    (s.setPr n e).fld (.prompter n) g = s.fld (.prompter n) g := s.fld_setPr n e (fun he => h (Nat.add_left_cancel he))

theorem State.pr_fld_set64 (s : State) (b : Blk) {lo hi g : Fld} (v : Nat) (hl : Apart lo g) (hh : Apart hi g) :
    (s.set64 b lo hi v).fld b g = s.fld b g := (State.fld_set_apart _ _ _ hh).trans (State.fld_set_apart _ _ _ hl)

/-- Execution goes on at a word of the region. -/
theorem State.prGoto_inside (s : State) (n : Nat) {q : Int} {p : Nat} (hq : q = p) (hp : p < 4096) : s.prGoto n q = s.setPc n p := by
  subst hq
  exact if_pos ⟨Int.natCast_nonneg p, Int.ofNat_lt.mpr hp⟩

theorem State.prGoto_outside (s : State) (n : Nat) {q : Int} (h : q < 0 ∨ 4096 ≤ q) : s.prGoto n q = s.prFault n 5 :=
  if_neg (by omega)

/-- What a Prompter shows after a fault (R433). -/
theorem State.prFault_shows (s : State) (n : Nat) {code : Nat} (h : code < 16) :
    let t := s.prFault n code
    (t.pr n).runOver = true ∧ t.prState n = 4 ∧ t.fld (.prompter n) Reg.Prompter.FAULT = code ∧
      (t.fld (.prompter n) Reg.Hdr.EVENTS).testBit 2 = true := by
  have events := (((s.setPrState n 4).set (.prompter n) Reg.Prompter.FAULT code).set (.prompter n)
    Reg.Prompter.WAIT_KIND 0).event_recorded (.prompter n) (i := 2) (by decide)
  refine ⟨?_, ?_, ?_, ?_⟩
  · exact congrArg PrompterEngine.runOver (State.pr_setPr_same _ _ _)
  all_goals unfold State.prFault State.setPrState
  · unfold State.prState
    rw [State.pr_fld_setPr _ _ _ (by decide), State.fld_event_apart _ _ _ (by decide), State.fld_set_apart _ _ _ (by decide),
      State.fld_set_apart _ _ _ (by decide), State.fld_set_fit _ _ (by decide) (by decide) (by decide)]
  · rw [State.pr_fld_setPr _ _ _ (by decide), State.fld_event_apart _ _ _ (by decide), State.fld_set_apart _ _ _ (by decide),
      State.fld_set_fit _ _ (by decide) (by decide) h]
  · rw [State.pr_fld_setPr _ _ _ (by decide)]
    exact events

/-- A wait that is over: RUNNING, with no wait and no edge noted. -/
theorem State.prGo_shows (s : State) (n : Nat) :
    let t := s.prGo n
    t.pr n = { s.pr n with wait := none, edge := none } ∧ t.prState n = 1 ∧ t.fld (.prompter n) Reg.Prompter.WAIT_KIND = 0 ∧
      (∀ g : Fld, g.off ≠ 0x60 → g.off ≠ 0x64 → t.fld (.prompter n) g = s.fld (.prompter n) g) ∧ PrMoves n (prCore n) s t := by
  refine ⟨State.pr_setPr_same _ _ _, ?_, ?_, fun g h0 h4 => ?_, ?_⟩
  · exact (State.fld_set_apart _ _ _ (by decide)).trans (State.fld_set_fit _ _ (by decide) (by decide) (by decide))
  · exact State.fld_set_fit _ _ (by decide) (by decide) (by decide)
  · exact (State.fld_set_apart _ _ _ (.inl (Ne.symm h0))).trans ((State.fld_set_apart _ _ _ (.inl (Ne.symm h0))).trans
      (State.pr_fld_setPr _ _ _ h4))
  · exact ((PrMoves.refl.setPr _ (List.mem_cons_of_mem _ List.mem_cons_self)).set _ List.mem_cons_self).set _ List.mem_cons_self

/-- The mark, noted (R427). -/
theorem State.prMark_setMark (s : State) (n : Nat) {v : Nat} (h : v < 2 ^ 64) : (s.setMark n v).prMark n = v :=
  State.fld64_set64 _ _ (by decide) ⟨by decide, by decide⟩ ⟨by decide, by decide⟩ rfl rfl h

/-- What a Prompter shows in a wait (R429). -/
theorem State.prWait_shows (s : State) (n : Nat) {kind : Nat} (hk : kind < 16) {target : Option Nat} (ht : target.getD 0 < 2 ^ 64) :
    let t := s.prWait n kind target
    (t.pr n).runOver = true ∧ (t.pr n).run = (s.pr n).run ∧ t.prState n = 2 ∧ t.fld (.prompter n) Reg.Prompter.PC = s.fld (.prompter n) Reg.Prompter.PC ∧
      t.fld (.prompter n) Reg.Prompter.WAIT_KIND = kind ∧ t.prMark n = s.prMark n ∧
      t.fld64 (.prompter n) Reg.Prompter.TARGET_LO Reg.Prompter.TARGET_HI = target.getD 0 := by
  have other (g : Fld) (h : Apart Reg.Prompter.STATE g ∧ Apart Reg.Prompter.WAIT_KIND g ∧ Apart Reg.Prompter.TARGET_LO g ∧
      Apart Reg.Prompter.TARGET_HI g ∧ g.off ≠ 0x64) : (s.prWait n kind target).fld (.prompter n) g = s.fld (.prompter n) g := by
    obtain ⟨hs, hw, hl, hh, hd⟩ := h
    unfold State.prWait State.setPrState
    dsimp only
    rw [State.pr_fld_set64 _ _ _ hl hh, State.fld_set_apart _ _ _ hw, State.fld_set_apart _ _ _ hs, State.pr_fld_setPr _ _ _ hd]
  have engine : (s.prWait n kind target).pr n =
      { s.pr n with wait := some ((s.pr n).wait.getD (s.prBlock * s.blockSize)), runOver := true } := State.pr_setPr_same _ _ _
  refine ⟨congrArg PrompterEngine.runOver engine, by rw [engine], ?_, other _ (by decide), ?_, ?_, ?_⟩
  · unfold State.prWait State.prState State.setPrState
    dsimp only
    rw [State.pr_fld_set64 _ _ _ (by decide) (by decide), State.fld_set_apart _ _ _ (by decide),
      State.fld_set_fit _ _ (by decide) (by decide) (by decide)]
  · unfold State.prWait
    dsimp only
    rw [State.pr_fld_set64 _ _ _ (by decide) (by decide), State.fld_set_fit _ _ (by decide) (by decide) hk]
  · exact congrArg₂ (fun a b => a + 2 ^ 32 * b) (other _ (by decide)) (other _ (by decide))
  · exact State.fld64_set64 _ _ (by decide) ⟨by decide, by decide⟩ ⟨by decide, by decide⟩ rfl rfl ht

end Sys2Proof.Machine
end

section
/-! PROOFS. A Prompter's run: the step that runs one instruction, and how it ends (R426, R427). -/

namespace Sys2Proof.Machine

open Sys2Proof

theorem PrMoves.keeps {β : Type} {n : Nat} {ws : List Nat} {s t : State} (h : PrMoves n ws s t) (view : State → β)
    (hv : ∀ (r : State) (m : RegMap), view (r.withAct m) = view r)
    (hp : ∀ (r : State) (p : Map PrompterEngine), view { r with prompters := p } = view r) : view t = view s :=
  (h.2.keeps view hv).trans (hp s t.prompters)

/-- Prompter `n` may run, its run has room, and at its PC stands instruction `i` of `len` words (R426 to R428). -/
structure State.Prompts (s : State) (n : Nat) (i : CueInstr) (len : Nat) : Prop where
  may : s.prMay n = true
  decodes : cueDecode (s.prWords n (s.fld (.prompter n) Reg.Prompter.PC)) = some (i, len)
  fits : s.fld (.prompter n) Reg.Prompter.PC + len < 4096
  room : ((s.prBegin n).pr n).used < 63
  opened : ((s.prBegin n).pr n).runOver = false

/-- The state in which the instruction at the PC runs: it counts in the run of the block. -/
def State.prReady (s : State) (n : Nat) : State :=
  (s.prBegin n).setPr n { (s.prBegin n).pr n with used := ((s.prBegin n).pr n).used + 1 }

def depthWord (n : Nat) : Nat := wordAt (.prompter n) Reg.Prompter.CALL_DEPTH

section
variable (s : State) (n : Nat)

theorem State.prBegin_moves : PrMoves n [depthWord n] s (s.prBegin n) := by
  unfold State.prBegin
  dsimp only
  split
  · exact .refl
  · exact PrMoves.refl.setPr _ List.mem_cons_self

theorem State.prReady_moves : PrMoves n [depthWord n] s (s.prReady n) := (s.prBegin_moves n).setPr _ List.mem_cons_self

theorem State.prBegin_fld {b : Blk} {g : Fld} (h : b.base + g.off ≠ depthWord n) : (s.prBegin n).fld b g = s.fld b g := by
  unfold State.prBegin
  dsimp only
  split
  · rfl
  · exact s.fld_setPr n _ h

theorem State.prReady_fld {b : Blk} {g : Fld} (h : b.base + g.off ≠ depthWord n) : (s.prReady n).fld b g = s.fld b g :=
  (State.fld_setPr _ n _ h).trans (s.prBegin_fld n h)

theorem State.prReady_pr_fld {g : Fld} (h : g.off ≠ 0x64) : (s.prReady n).fld (.prompter n) g = s.fld (.prompter n) g :=
  s.prReady_fld n (fun he => h (Nat.add_left_cancel he))

theorem State.prReady_pr : (s.prReady n).pr n = { (s.prBegin n).pr n with used := ((s.prBegin n).pr n).used + 1 } :=
  State.pr_setPr_same _ _ _

theorem State.prReady_used : ((s.prReady n).pr n).used = ((s.prBegin n).pr n).used + 1 := by rw [s.prReady_pr n]

/-- A run that begins keeps the stacks, the wait, the edge and the flags cleared. -/
theorem State.prReady_keeps : ((s.prReady n).pr n).calls = (s.pr n).calls ∧ ((s.prReady n).pr n).loops = (s.pr n).loops ∧
    ((s.prReady n).pr n).edge = (s.pr n).edge ∧ ((s.prReady n).pr n).clearedIn = (s.pr n).clearedIn := by
  rw [s.prReady_pr n]
  unfold State.prBegin
  dsimp only
  split
  · exact ⟨rfl, rfl, rfl, rfl⟩
  · rw [State.pr_setPr_same]
    exact ⟨rfl, rfl, rfl, rfl⟩

theorem State.prBegin_run : ((s.prBegin n).pr n).run = s.prBlock + 1 := by
  unfold State.prBegin
  dsimp only
  split
  · assumption
  · rw [State.pr_setPr_same]

/-- A run that has begun does not begin again in its block. -/
theorem State.prBegin_of_run {s : State} {n : Nat} (h : (s.pr n).run = s.prBlock + 1) : s.prBegin n = s := if_pos h

theorem State.prReady_render : (s.prReady n).render = s.render :=
  (s.prReady_moves n).keeps State.render (fun _ _ => rfl) (fun _ _ => rfl)

theorem State.prReady_blockSize : (s.prReady n).blockSize = s.blockSize := by
  unfold State.blockSize
  rw [s.prReady_fld n (by simp only [depthWord, wordAt, Blk.base, Reg.Render.CFG_BLOCK, Reg.Prompter.CALL_DEPTH]; omega)]

theorem State.prReady_prBlock : (s.prReady n).prBlock = s.prBlock := by
  unfold State.prBlock
  rw [s.prReady_render n, s.prReady_blockSize n]

theorem State.prReady_horizon : (s.prReady n).horizon = s.horizon := by
  unfold State.horizon
  rw [s.prReady_prBlock n, s.prReady_blockSize n]

theorem State.prReady_prMark : (s.prReady n).prMark n = s.prMark n := by
  unfold State.prMark State.fld64
  rw [s.prReady_pr_fld n (by decide), s.prReady_pr_fld n (by decide)]

theorem State.prReady_prState : (s.prReady n).prState n = s.prState n := s.prReady_pr_fld n (by decide)

end

/-! The end of a step -/

/-- While the run goes on, nothing follows an instruction. -/
theorem State.prAfter_on {t : State} {n : Nat} (hu : (t.pr n).used < 64) (ho : (t.pr n).runOver = false) : t.prAfter n = t := by
  unfold State.prAfter
  dsimp only
  have slip : ¬ (decide ((t.pr n).used = 64) && !(t.pr n).runOver) = true := by
    rw [Bool.and_eq_true, decide_eq_true_eq]
    exact fun h => Nat.ne_of_lt hu h.1
  rw [if_neg slip]
  exact if_neg (by rw [ho]; exact Bool.false_ne_true)

/-- A run that is over shows its counts (R438). -/
theorem State.prAfter_over {t : State} {n : Nat} (ho : (t.pr n).runOver = true) :
    t.prAfter n = (t.set (.prompter n) Reg.Prompter.INSTR_LAST (t.pr n).used).peak (.prompter n) Reg.Prompter.INSTR_PEAK
      (t.pr n).used := by
  unfold State.prAfter
  dsimp only
  have slip : ¬ (decide ((t.pr n).used = 64) && !(t.pr n).runOver) = true := by
    rw [ho, Bool.and_eq_true]
    exact fun h => Bool.false_ne_true h.2
  rw [if_neg slip]
  exact if_pos ho

section
variable {s : State} {n len : Nat} {i : CueInstr} (h : s.Prompts n i len)
include h

theorem State.Prompts.on_ready : ((s.prReady n).pr n).runOver = false := by
  rw [s.prReady_pr n]
  exact h.opened

/-- The step that runs the instruction at the PC. -/
theorem State.Prompts.step {row : Option (Nat × Nat)} (hr : row = none ∨ row = some i.row) :
    s.prStep n row = ((s.prReady n).prExec n (s.fld (.prompter n) Reg.Prompter.PC) len i).prAfter n := by
  have words (a : Nat) : (s.prBegin n).prWords n a = s.prWords n a :=
    (s.prBegin_moves n).keeps (State.prWords · n a) (fun _ _ => rfl) (fun _ _ => rfl)
  have pc : (s.prBegin n).fld (.prompter n) Reg.Prompter.PC = s.fld (.prompter n) Reg.Prompter.PC :=
    s.prBegin_fld n (by simp [depthWord, wordAt, Reg.Prompter.PC, Reg.Prompter.CALL_DEPTH])
  have open_ : ¬ (((s.prBegin n).pr n).runOver || decide (64 ≤ ((s.prBegin n).pr n).used)) = true := by
    rw [h.opened, Bool.false_or, decide_eq_true_eq]
    exact Nat.not_le.mpr (Nat.lt_succ_of_lt h.room)
  have this_row : ¬ (row.isSome && decide (row ≠ some i.row)) = true := by
    rcases hr with rfl | rfl <;> simp
  unfold State.prStep
  dsimp only
  rw [if_neg (by rw [h.may]; decide), if_neg open_, pc, words, h.decodes]
  dsimp only
  rw [if_neg this_row, if_neg (Nat.not_lt.mpr (Nat.le_of_lt h.fits))]
  rfl

/-- The instruction goes on at a word, and the run with it. -/
theorem State.Prompts.goes {c : Instr} (hc : exec c s = settle (s.prStep n (some i.row))) {v : State} {q : Int} {p : Nat}
    (hx : (s.prReady n).prExec n (s.fld (.prompter n) Reg.Prompter.PC) len i = v.prGoto n q) (hq : q = p) (hp : p < 4096)
    (used : (v.pr n).used = ((s.prBegin n).pr n).used + 1) (on_ : (v.pr n).runOver = false) {P : State → Prop}
    (hP : P (v.setPc n p).settled) : Answers c s P := by
  have same : (v.setPc n p).pr n = v.pr n := rfl
  have room := h.room
  refine Answers.of_settle hc ?_
  rw [h.step (.inr rfl), hx, State.prGoto_inside _ _ hq hp, State.prAfter_on (by rw [same, used]; omega) (by rw [same, on_])]
  exact hP

/-- The instruction ends the run. -/
theorem State.Prompts.ends {c : Instr} (hc : exec c s = settle (s.prStep n (some i.row))) {v : State}
    (hx : (s.prReady n).prExec n (s.fld (.prompter n) Reg.Prompter.PC) len i = v) (over_ : (v.pr n).runOver = true)
    {P : State → Prop} (hP : ∀ t : State, (∀ g : Fld, g.off ≠ 0x94 → t.fld (.prompter n) g = v.fld (.prompter n) g) → P t) :
    Answers c s P := by
  refine Answers.of_settle hc (hP _ (fun g hg => ?_))
  rw [h.step (.inr rfl), hx, State.prAfter_over over_, State.pr_fld_settled]
  exact (State.fld_set_apart _ _ _ (.inl (Ne.symm hg))).trans (State.fld_set_apart _ _ _ (.inl (Ne.symm hg)))

end

/-! What the statement says of a step -/

/-- The run goes on at a word, the Prompter's STATE as before. -/
def State.PrGoes (s : State) (n to_ : Nat) (t : State) : Prop :=
  t.fld (.prompter n) Reg.Prompter.PC = to_ ∧ t.prState n = s.prState n ∧ (t.pr n).used = ((s.prBegin n).pr n).used + 1

/-- A wait is over, its target the mark (R427, R429). -/
def PrPassed (n next target : Nat) (t : State) : Prop :=
  t.fld (.prompter n) Reg.Prompter.PC = next ∧ t.prState n = 1 ∧ t.fld (.prompter n) Reg.Prompter.WAIT_KIND = 0 ∧ t.prMark n = target

/-- The Prompter waits at its PC (R429). -/
def State.PrWaits (s : State) (n kind : Nat) (target : Option Nat) (t : State) : Prop :=
  t.fld (.prompter n) Reg.Prompter.PC = s.fld (.prompter n) Reg.Prompter.PC ∧ t.prState n = 2 ∧
    t.fld (.prompter n) Reg.Prompter.WAIT_KIND = kind ∧ t.prMark n = s.prMark n ∧
    t.fld64 (.prompter n) Reg.Prompter.TARGET_LO Reg.Prompter.TARGET_HI = target.getD 0

/-- The Prompter is in FAULT (R433). -/
def PrFaults (n code : Nat) (t : State) : Prop :=
  t.prState n = 4 ∧ t.fld (.prompter n) Reg.Prompter.FAULT = code ∧ (t.fld (.prompter n) Reg.Hdr.EVENTS).testBit 2 = true

theorem State.setPc_fld (v : State) (n p : Nat) {g : Fld} (h : Apart Reg.Prompter.PC g) :
    (v.setPc n p).settled.fld (.prompter n) g = v.fld (.prompter n) g :=
  (State.pr_fld_settled _ _ _).trans (State.fld_set_apart _ _ _ h)

theorem State.setPc_pc (v : State) {n p : Nat} (hp : p < 4096) : (v.setPc n p).settled.fld (.prompter n) Reg.Prompter.PC = p :=
  (State.pr_fld_settled _ _ _).trans (State.fld_set_fit _ _ (by decide) (by decide) hp)

theorem State.setPc_pr (v : State) (n p m : Nat) : (v.setPc n p).settled.pr m = v.pr m :=
  (State.pr_settled _ _).trans (show (v.setPc n p).pr m = v.pr m from rfl)

theorem prCore_mem (n : Nat) (ws : List Nat) {f : Fld} (h : f.off = 0x60) : wordAt (.prompter n) f ∈ prCore n ++ ws := by
  have word : wordAt (.prompter n) f = wordAt (.prompter n) Reg.Prompter.STATE := congrArg ((Blk.prompter n).base + ·) h
  rw [word]
  exact List.mem_cons_self

theorem State.setPc_moves {s v : State} {n : Nat} {ws : List Nat} (hv : PrMoves n (prCore n ++ ws) s v) (p : Nat) :
    PrMoves n (prCore n ++ ws) s (v.setPc n p).settled := 
  (hv.set (b := .prompter n) (f := Reg.Prompter.PC) p (prCore_mem n ws rfl)).settled

/-- Going on at a word, from a state whose STATE and engine are the run's. -/
theorem State.setPc_goes {s v : State} {n p : Nat} (hp : p < 4096) (state : v.prState n = s.prState n)
    (used : (v.pr n).used = ((s.prBegin n).pr n).used + 1) : s.PrGoes n p (v.setPc n p).settled :=
  ⟨v.setPc_pc hp, (v.setPc_fld n p (by decide)).trans state, (congrArg PrompterEngine.used (v.setPc_pr n p n)).trans used⟩

section
variable {s : State} {n len : Nat} {i : CueInstr} (h : s.Prompts n i len)
include h

theorem State.Prompts.faults {c : Instr} (hc : exec c s = settle (s.prStep n (some i.row))) {v : State} {code : Nat} (hcode : code < 16)
    (hx : (s.prReady n).prExec n (s.fld (.prompter n) Reg.Prompter.PC) len i = v.prFault n code) : Answers c s (PrFaults n code) := by
  obtain ⟨over_, state, fault, event⟩ := v.prFault_shows n hcode
  refine h.ends hc hx over_ (fun t same => ⟨(same _ (by decide)).trans state, (same _ (by decide)).trans fault, ?_⟩)
  rw [same _ (by decide)]
  exact event

theorem State.Prompts.waits {c : Instr} (hc : exec c s = settle (s.prStep n (some i.row))) {kind : Nat} (hk : kind < 16)
    {target : Option Nat} (ht : target.getD 0 < 2 ^ 64)
    (hx : (s.prReady n).prExec n (s.fld (.prompter n) Reg.Prompter.PC) len i = (s.prReady n).prWait n kind target) :
    Answers c s (s.PrWaits n kind target) := by
  obtain ⟨over_, -, state, pc, wait, mark, shown⟩ := (s.prReady n).prWait_shows n hk ht
  refine h.ends hc hx over_ (fun t same => ⟨?_, (same _ (by decide)).trans state, (same _ (by decide)).trans wait, ?_, ?_⟩)
  · rw [same _ (by decide), pc, s.prReady_pr_fld n (by decide)]
  · rw [← s.prReady_prMark n, ← mark]
    exact congrArg₂ (fun a b => a + 2 ^ 32 * b) (same _ (by decide)) (same _ (by decide))
  · rw [← shown]
    exact congrArg₂ (fun a b => a + 2 ^ 32 * b) (same _ (by decide)) (same _ (by decide))

end

end Sys2Proof.Machine
end

section
/-! PROOFS. HALT, SIGNAL and the waits of a Prompter (R429 to R433). -/

namespace Sys2Proof.Machine

open Sys2Proof

/-! Bounds that decoding gives -/

/-- The bounds of an instruction's parameters that its encoding sets. -/
def CueInstr.Bounded : CueInstr → Prop
  | .signalHost code => code < 0xFF
  | .signalFlag flag _ => flag < 16
  | _ => True

theorem cueDecode_bounds {ws : List Word} {i : CueInstr} {len : Nat} (h : cueDecode ws = some (i, len)) : 1 ≤ len ∧ i.Bounded := by
  have need {k nops : Nat} {ok : Bool} {j : CueInstr}
      (hn : (if decide (nops = k) && ok then some (j, k + 1) else none) = some (i, len)) (hj : ok = true → j.Bounded) :
      1 ≤ len ∧ i.Bounded := by
    split at hn
    · next on =>
      obtain ⟨rfl, rfl⟩ := Prod.mk.inj (Option.some.inj hn)
      exact ⟨Nat.le_add_left 1 k, hj (Bool.and_eq_true_iff.mp on).2⟩
    · exact nomatch hn
  unfold cueDecode at h
  dsimp only at h
  split at h
  case h_3 | h_8 | h_15 => split at h <;> exact need h (fun _ => trivial)
  case h_7 =>
    split at h
    case h_4 => exact nomatch h
    all_goals exact need h (fun _ => trivial)
  case h_10 =>
    split at h
    case h_1 => exact need h (fun ok => (of_decide_eq_true ok : bitsOf (ws.headD 0#32) 15 0 < 0xFF))
    case h_2 => exact need h (fun _ => Nat.mod_lt _ (by decide))
    case h_3 => exact nomatch h
  case h_16 => exact nomatch h
  all_goals exact need h (fun _ => trivial)

/-! A run that is over -/

theorem PrMoves.event {n : Nat} {ws : List Nat} {s t : State} (h : PrMoves n ws s t) (i : Nat)
    (hm : wordAt (.prompter n) Reg.Hdr.EVENTS ∈ ws) : PrMoves n ws s (t.event (.prompter n) i) := by
  rw [State.event_eq_set _ _ rfl]
  exact h.set _ hm

theorem PrMoves.countSat {n : Nat} {ws : List Nat} {s t : State} (h : PrMoves n ws s t) {b : Blk} {f : Fld} (k : Nat)
    (hm : wordAt b f ∈ ws) : PrMoves n ws s (t.countSat b f k) := h.set _ hm

/-- What moves in the Prompter's own page leaves the block's count and size. -/
theorem PrMoves.prBlock {n : Nat} {ws : List Nat} {s t : State} (h : PrMoves n ws s t) (hw : ∀ w ∈ ws, 0x70000 ≤ w) :
    t.prBlock = s.prBlock := by
  have block : t.blockSize = s.blockSize := by
    have cfg : t.fld .render Reg.Render.CFG_BLOCK = s.fld .render Reg.Render.CFG_BLOCK :=
      h.2.fld_eq (fun hm => absurd (hw _ hm) (by decide)) (by decide)
    unfold State.blockSize
    rw [cfg]
  unfold State.prBlock
  rw [block, h.keeps State.render (fun _ _ => rfl) (fun _ _ => rfl)]

/-- Nothing more runs in a run that is over. -/
theorem State.prStep_over {s : State} {n : Nat} (run : (s.pr n).run = s.prBlock + 1) (over_ : (s.pr n).runOver = true)
    (row : Option (Nat × Nat)) : s.prStep n row = s := by
  unfold State.prStep
  dsimp only
  rw [State.prBegin_of_run run, over_]
  split
  · rfl
  · exact if_pos rfl

theorem iter_succ {α : Type} (f : α → α) (n : Nat) (a : α) : iter f (n + 1) a = iter f n (f a) := rfl

theorem iter_fixed {α : Type} {f : α → α} {a : α} (h : f a = a) (n : Nat) : iter f n a = a := by
  induction n with
  | zero => rfl
  | succ n ih => exact (congrArg (iter f n) h).trans ih

/-- A run whose first instruction ends it is that instruction. -/
theorem State.Prompts.run {s : State} {n len : Nat} {i : CueInstr} (h : s.Prompts n i len) {v : State} {ws : List Nat}
    (hx : (s.prReady n).prExec n (s.fld (.prompter n) Reg.Prompter.PC) len i = v) (moves : PrMoves n ws (s.prReady n) v)
    (hw : ∀ w ∈ ws, 0x70000 ≤ w) (over_ : (v.pr n).runOver = true) (run : (v.pr n).run = ((s.prReady n).pr n).run) :
    s.prRun n = s.prStep n (some i.row) := by
  have ended : s.prStep n none = v.prAfter n := (h.step (.inl rfl)).trans (congrArg (State.prAfter · n) hx)
  have counts : PrMoves n (wordAt (.prompter n) Reg.Prompter.INSTR_LAST :: ws) v (v.prAfter n) := by
    rw [State.prAfter_over over_]
    exact (PrMoves.refl.set (b := .prompter n) (f := Reg.Prompter.INSTR_LAST) _ List.mem_cons_self).set (b := .prompter n)
      (f := Reg.Prompter.INSTR_PEAK) _ List.mem_cons_self
  have engine : (v.prAfter n).pr n = v.pr n := by
    rw [State.prAfter_over over_]
    rfl
  have high : ∀ w ∈ wordAt (.prompter n) Reg.Prompter.INSTR_LAST :: ws, 0x70000 ≤ w := fun w hm => by
    rcases List.mem_cons.mp hm with rfl | hm
    · simp only [wordAt, Blk.base]
      omega
    · exact hw w hm
  have block : (v.prAfter n).prBlock = s.prBlock := by rw [counts.prBlock high, moves.prBlock hw, s.prReady_prBlock n]
  have begun : ((s.prReady n).pr n).run = s.prBlock + 1 := by
    rw [s.prReady_pr n]
    exact s.prBegin_run n
  calc s.prRun n
    _ = iter (fun t : State => t.prStep n none) 63 (s.prStep n none) := iter_succ (fun t : State => t.prStep n none) 63 s
    _ = iter (fun t : State => t.prStep n none) 63 (v.prAfter n) := by rw [ended]
    _ = v.prAfter n := iter_fixed (State.prStep_over (by rw [engine, block, run, begun]) (by rw [engine, over_]) none) 63
    _ = s.prStep n (some i.row) := ((h.step (.inr rfl)).trans (congrArg (State.prAfter · n) hx)).symm

/-! SIGNAL and HALT (R431, R433) -/

/-- The words that a SIGNAL to the host writes. -/
def signalWords (n : Nat) : List Nat :=
  [wordAt (.prompter n) Reg.Hdr.EVENTS, wordAt (.prompter n) Reg.Prompter.SIGNAL_CODE,
    wordAt (.prompter n) Reg.Prompter.SIGNAL_AT_LO, wordAt (.prompter n) Reg.Prompter.SIGNAL_AT_HI]

theorem State.prSignal_shows (s : State) (n : Nat) {code : Nat} (h : code < 256) :
    let t := s.prSignal n code
    t.pr n = s.pr n ∧ (t.fld (.prompter n) Reg.Hdr.EVENTS).testBit 0 = true ∧ t.fld (.prompter n) Reg.Prompter.SIGNAL_CODE = code ∧
      t.fld64 (.prompter n) Reg.Prompter.SIGNAL_AT_LO Reg.Prompter.SIGNAL_AT_HI = s.prMark n ∧
      (∀ g : Fld, g.off = 0x60 → t.fld (.prompter n) g = s.fld (.prompter n) g) ∧ PrMoves n (signalWords n) s t := by
  have mark : ((((s.event (.prompter n) 0).set (.prompter n) Reg.Prompter.SIGNAL_CODE code).countSat (.prompter n)
      Reg.Prompter.SIGNAL_COUNT)).prMark n = s.prMark n := by
    have other (g : Fld) (hg : Apart Reg.Prompter.SIGNAL_CODE g ∧ Apart Reg.Prompter.SIGNAL_COUNT g ∧ Apart Reg.Hdr.EVENTS g) :
        (((s.event (.prompter n) 0).set (.prompter n) Reg.Prompter.SIGNAL_CODE code).countSat (.prompter n)
          Reg.Prompter.SIGNAL_COUNT).fld (.prompter n) g = s.fld (.prompter n) g :=
      (State.fld_set_apart _ _ _ hg.2.1).trans ((State.fld_set_apart _ _ _ hg.1).trans (State.fld_event_apart _ _ _ hg.2.2))
    exact congrArg₂ (fun a b => a + 2 ^ 32 * b) (other _ (by decide)) (other _ (by decide))
  have markFits : s.prMark n < 2 ^ 64 := by
    have lo := regGet_lt s.fab.act (Blk.prompter n).base Reg.Prompter.MARK_LO ⟨by decide, by decide⟩
    have hi := regGet_lt s.fab.act (Blk.prompter n).base Reg.Prompter.MARK_HI ⟨by decide, by decide⟩
    have wlo : Reg.Prompter.MARK_LO.width = 32 := rfl
    have whi : Reg.Prompter.MARK_HI.width = 32 := rfl
    unfold State.prMark State.fld64 State.fld
    rw [wlo] at lo
    rw [whi] at hi
    omega
  unfold State.prSignal
  dsimp only
  rw [mark]
  refine ⟨?_, ?_, ?_, ?_, fun g hg => ?_, ?_⟩
  · exact congrArg (Map.get ({} : PrompterEngine) n) (s.event_prompters (.prompter n) 0)
  · rw [State.pr_fld_set64 _ _ _ (by decide) (by decide)]
    unfold State.countSat
    rw [State.fld_set_apart _ _ _ (by decide), State.fld_set_apart _ _ _ (by decide)]
    exact s.event_recorded _ (by decide)
  · rw [State.pr_fld_set64 _ _ _ (by decide) (by decide)]
    unfold State.countSat
    rw [State.fld_set_apart _ _ _ (by decide), State.fld_set_fit _ _ (by decide) (by decide) h]
  · exact State.fld64_set64 _ _ (by decide) ⟨by decide, by decide⟩ ⟨by decide, by decide⟩ rfl rfl markFits
  · have apart (f : Fld) (hf : f.off ≠ 0x60) : Apart f g := .inl (by rw [hg]; exact hf)
    rw [State.pr_fld_set64 _ _ _ (apart _ (by decide)) (apart _ (by decide))]
    unfold State.countSat
    rw [State.fld_set_apart _ _ _ (apart _ (by decide)), State.fld_set_apart _ _ _ (apart _ (by decide)),
      State.fld_event_apart _ _ _ (apart _ (by decide))]
  · have noted := PrMoves.event (ws := signalWords n) (.refl (s := s)) 0 List.mem_cons_self
    have coded := noted.set (b := .prompter n) (f := Reg.Prompter.SIGNAL_CODE) code (List.mem_cons_of_mem _ List.mem_cons_self)
    have counted := coded.countSat (b := .prompter n) (f := Reg.Prompter.SIGNAL_COUNT) 1
      (List.mem_cons_of_mem _ List.mem_cons_self)
    exact (counted.set (b := .prompter n) (f := Reg.Prompter.SIGNAL_AT_LO) _
      (List.mem_cons_of_mem _ (List.mem_cons_of_mem _ List.mem_cons_self))).set (b := .prompter n) (f := Reg.Prompter.SIGNAL_AT_HI) _
      (List.mem_cons_of_mem _ (List.mem_cons_of_mem _ (List.mem_cons_of_mem _ List.mem_cons_self)))

end Sys2Proof.Machine
end

section
/-! PROOFS. What HALT and the waits answer (R429, R430, R433). -/

namespace Sys2Proof.Machine

open Sys2Proof

theorem State.setPc_same_word (v : State) (n p : Nat) {g : Fld} (h : Apart Reg.Prompter.PC g) :
    (v.setPc n p).fld (.prompter n) g = v.fld (.prompter n) g := State.fld_set_apart _ _ _ h

/-- What a Prompter shows once halted (R433). -/
theorem State.prHalt_shows (u : State) (n : Nat) {pc : Nat} (hpc : pc + 1 < 4096) (notify : Bool) :
    let t := u.prHalt n pc notify
    t.pr n = { u.pr n with runOver := true } ∧ t.prState n = 3 ∧ t.fld (.prompter n) Reg.Prompter.PC = pc + 1 ∧
      (t.fld (.prompter n) Reg.Hdr.EVENTS).testBit 1 = true ∧
      (notify = true → t.fld (.prompter n) Reg.Prompter.SIGNAL_CODE = 0xFF ∧
        (t.fld (.prompter n) Reg.Hdr.EVENTS).testBit 0 = true) ∧
      PrMoves n (prCore n ++ signalWords n) u t := by
  obtain ⟨told, htold⟩ : ∃ v, (if notify = true then u.prSignal n 0xFF else u) = v := ⟨_, rfl⟩
  have signal : told.pr n = u.pr n ∧ (notify = true → told.fld (.prompter n) Reg.Prompter.SIGNAL_CODE = 0xFF ∧
      (told.fld (.prompter n) Reg.Hdr.EVENTS).testBit 0 = true) ∧ PrMoves n (prCore n ++ signalWords n) u told := by
    rw [← htold]
    split
    · obtain ⟨engine, event, code, -, -, moves⟩ := u.prSignal_shows n (code := 0xFF) (by decide)
      exact ⟨engine, fun _ => ⟨code, event⟩, moves.mono (fun k hk => List.mem_append_right _ hk)⟩
    · next off => exact ⟨rfl, fun on_ => absurd on_ off, .refl⟩
  obtain ⟨engine, said, moves⟩ := signal
  have eq : u.prHalt n pc notify = (((told.setPc n (pc + 1)).setPrState n 3).event (.prompter n) 1).setPr n
      { (told.setPc n (pc + 1)).pr n with runOver := true } := by
    unfold State.prHalt
    dsimp only
    rw [htold, if_pos hpc]
  rw [eq]
  refine ⟨?_, ?_, ?_, ?_, fun on_ => ⟨?_, ?_⟩, ?_⟩
  · rw [State.pr_setPr_same, ← engine]
    rfl
  · unfold State.prState
    rw [State.pr_fld_setPr _ _ _ (by decide), State.fld_event_apart _ _ _ (by decide)]
    exact State.fld_set_fit _ _ (by decide) (by decide) (by decide)
  · rw [State.pr_fld_setPr _ _ _ (by decide), State.fld_event_apart _ _ _ (by decide)]
    exact (State.fld_set_apart _ _ _ (by decide)).trans (State.fld_set_fit _ _ (by decide) (by decide) hpc)
  · rw [State.pr_fld_setPr _ _ _ (by decide)]
    exact State.event_recorded _ _ (by decide)
  · rw [State.pr_fld_setPr _ _ _ (by decide), State.fld_event_apart _ _ _ (by decide)]
    exact (State.fld_set_apart _ _ _ (by decide)).trans ((State.fld_set_apart _ _ _ (by decide)).trans (said on_).1)
  · rw [State.pr_fld_setPr _ _ _ (by decide)]
    rw [State.event_testBit _ _ _ (by decide), Bool.or_eq_true]
    refine .inl ?_
    unfold State.setPrState
    rw [State.fld_set_apart _ _ _ (by decide), State.setPc_same_word _ _ _ (by decide)]
    exact (said on_).2
  · have at_ := moves.set (b := .prompter n) (f := Reg.Prompter.PC) (pc + 1) (prCore_mem n _ rfl)
    have halted := at_.set (b := .prompter n) (f := Reg.Prompter.STATE) 3 (prCore_mem n _ rfl)
    exact (halted.event 1 (by simp [prCore, signalWords])).setPr _ (by simp [prCore])

/-- What a satisfied wait leaves: RUNNING, the target as the mark (R427, R429). -/
theorem State.prMarked_shows (u : State) (n : Nat) {a : Nat} (ha : a < 2 ^ 64) :
    let t := (u.prGo n).setMark n a
    (t.pr n).used = (u.pr n).used ∧ (t.pr n).runOver = (u.pr n).runOver ∧ t.prState n = 1 ∧
      t.fld (.prompter n) Reg.Prompter.WAIT_KIND = 0 ∧ t.prMark n = a ∧
      t.fld (.prompter n) Reg.Prompter.FLAGS = u.fld (.prompter n) Reg.Prompter.FLAGS ∧
      PrMoves n (prCore n ++ [wordAt (.prompter n) Reg.Prompter.MARK_LO, wordAt (.prompter n) Reg.Prompter.MARK_HI]) u t := by
  obtain ⟨engine, state, wait, other, moves⟩ := u.prGo_shows n
  have aside (g : Fld) (hl : Apart Reg.Prompter.MARK_LO g) (hh : Apart Reg.Prompter.MARK_HI g) :
      ((u.prGo n).setMark n a).fld (.prompter n) g = (u.prGo n).fld (.prompter n) g := State.pr_fld_set64 _ _ _ hl hh
  have same : ((u.prGo n).setMark n a).pr n = (u.prGo n).pr n := rfl
  refine ⟨?_, ?_, (aside _ (by decide) (by decide)).trans state, (aside _ (by decide) (by decide)).trans wait,
    State.prMark_setMark _ _ ha, (aside _ (by decide) (by decide)).trans (other _ (by decide) (by decide)), ?_⟩
  · rw [same, engine]
  · rw [same, engine]
  · exact ((moves.mono (fun k hk => List.mem_append_left _ hk)).set (b := .prompter n) (f := Reg.Prompter.MARK_LO) _
      (by simp)).set (b := .prompter n) (f := Reg.Prompter.MARK_HI) _ (by simp)

theorem State.prWait_moves (u : State) (n kind : Nat) (target : Option Nat) : PrMoves n
    (prCore n ++ [wordAt (.prompter n) Reg.Prompter.TARGET_LO, wordAt (.prompter n) Reg.Prompter.TARGET_HI]) u (u.prWait n kind target) := by
  have engine := PrMoves.setPr (n := n) (ws := prCore n ++ [wordAt (.prompter n) Reg.Prompter.TARGET_LO,
    wordAt (.prompter n) Reg.Prompter.TARGET_HI]) (.refl (s := u))
    { u.pr n with wait := some ((u.pr n).wait.getD (u.prBlock * u.blockSize)), runOver := true } (by simp [prCore])
  have waits := (engine.set (b := .prompter n) (f := Reg.Prompter.STATE) 2 (prCore_mem n _ rfl)).set (b := .prompter n)
    (f := Reg.Prompter.WAIT_KIND) kind (prCore_mem n _ rfl)
  exact (waits.set (b := .prompter n) (f := Reg.Prompter.TARGET_LO) _ (by simp)).set (b := .prompter n)
    (f := Reg.Prompter.TARGET_HI) _ (by simp)

theorem prompter_high {n : Nat} {f : Fld} : 0x70000 ≤ wordAt (.prompter n) f := by
  simp only [wordAt, Blk.base]
  omega

/-- A wait for a target sample: below the horizon it is over, with the target as the mark, else it stays. -/
def State.PrTimed (s : State) (n len : Nat) (c : Instr) (kind target : Nat) : Prop :=
  target < 2 ^ 64 →
    (target < s.horizon → Answers c s (fun t => PrPassed n (s.fld (.prompter n) Reg.Prompter.PC + len) target t ∧
      PrMoves n (prCore n ++ [wordAt (.prompter n) Reg.Prompter.MARK_LO, wordAt (.prompter n) Reg.Prompter.MARK_HI]) s t)) ∧
    (s.horizon ≤ target → Answers c s (s.PrWaits n kind (some target)))

section
variable {s : State} {n len : Nat} {i : CueInstr} (h : s.Prompts n i len)
include h

/-- A wait is over; then `w` may have followed it. -/
theorem State.Prompts.passes {c : Instr} (hc : exec c s = settle (s.prStep n (some i.row))) {a : Nat} (ha : a < 2 ^ 64)
    (hx : (s.prReady n).prExec n (s.fld (.prompter n) Reg.Prompter.PC) len i =
      (((s.prReady n).prGo n).setMark n a).prGoto n ((s.fld (.prompter n) Reg.Prompter.PC + len : Nat) : Int)) :
    Answers c s (fun t => PrPassed n (s.fld (.prompter n) Reg.Prompter.PC + len) a t ∧
      PrMoves n (prCore n ++ [wordAt (.prompter n) Reg.Prompter.MARK_LO, wordAt (.prompter n) Reg.Prompter.MARK_HI]) s t) := by
  obtain ⟨used, over_, state, wait, mark, -, moves⟩ := (s.prReady n).prMarked_shows n ha
  generalize ((s.prReady n).prGo n).setMark n a = w at hx used over_ state wait mark moves
  refine h.goes hc hx rfl h.fits (used.trans (s.prReady_used n)) (over_.trans h.on_ready)
    ⟨⟨w.setPc_pc h.fits, (w.setPc_fld n _ (by decide)).trans state, (w.setPc_fld n _ (by decide)).trans wait, ?_⟩,
      State.setPc_moves (((s.prReady_moves n).mono (by simp [depthWord, prCore])).trans moves) _⟩
  rw [← mark]
  exact congrArg₂ (fun a b => a + 2 ^ 32 * b) (w.setPc_fld n _ (by decide)) (w.setPc_fld n _ (by decide))

theorem State.Prompts.timed {c : Instr} (hc : exec c s = settle (s.prStep n (some i.row))) {kind target : Nat} (hk : kind < 16)
    (hx : (s.prReady n).prExec n (s.fld (.prompter n) Reg.Prompter.PC) len i =
      (s.prReady n).prUntil n kind ((s.fld (.prompter n) Reg.Prompter.PC + len : Nat) : Int) (some target)) :
    s.PrTimed n len c kind target := by
  intro ht
  have horizon := s.prReady_horizon n
  unfold State.prUntil at hx
  dsimp only at hx
  rw [horizon] at hx
  refine ⟨fun below => ?_, fun above => ?_⟩
  · rw [if_pos below] at hx
    exact h.passes hc ht hx
  · rw [if_neg (Nat.not_lt.mpr above)] at hx
    exact h.waits hc hk ht hx

end

section
variable {s : State} {n len : Nat}

theorem cueHalt_answers {b : Bool} (h : s.Prompts n (.halt b) len) :
    Answers (.cueHalt n) s (fun t => t.prState n = 3 ∧ t.fld (.prompter n) Reg.Prompter.PC = s.fld (.prompter n) Reg.Prompter.PC + 1 ∧
      (t.fld (.prompter n) Reg.Hdr.EVENTS).testBit 1 = true ∧ (b = true → t.fld (.prompter n) Reg.Prompter.SIGNAL_CODE = 0xFF ∧
        (t.fld (.prompter n) Reg.Hdr.EVENTS).testBit 0 = true)) ∧
    Answers (.prompterRun n) s (fun t => exec (.cueHalt n) s = .next t) := by
  have there : s.fld (.prompter n) Reg.Prompter.PC + 1 < 4096 :=
    Nat.lt_of_le_of_lt (Nat.add_le_add_left (cueDecode_bounds h.decodes).1 _) h.fits
  obtain ⟨engine, state, pc, event, said, moves⟩ := (s.prReady n).prHalt_shows n there b
  have over_ : (((s.prReady n).prHalt n (s.fld (.prompter n) Reg.Prompter.PC) b).pr n).runOver = true := by rw [engine]
  have run : (((s.prReady n).prHalt n (s.fld (.prompter n) Reg.Prompter.PC) b).pr n).run = ((s.prReady n).pr n).run := by
    rw [engine]
  refine ⟨h.ends rfl rfl over_ (fun t same => ⟨(same _ (by decide)).trans state, (same _ (by decide)).trans pc, ?_, fun on_ => ?_⟩), ?_⟩
  · rw [same _ (by decide)]
    exact event
  · rw [same _ (by decide), same _ (by decide)]
    exact said on_
  · have runs := h.run rfl moves (by simp [prCore, signalWords, prompter_high]) over_ run
    exact ⟨_, congrArg settle runs, rfl⟩

theorem waitTime_answers {sec ns : Nat} (h : s.Prompts n (.waitTime sec ns) len) :
    s.PrTimed n len (.waitTime n) 1 (s.timeTarget (sec * 1000000000 + ns)) :=
  h.timed (c := .waitTime n) rfl (kind := 1) (target := s.timeTarget (sec * 1000000000 + ns)) (by decide) (by
    have target : (s.prReady n).timeTarget (sec * 1000000000 + ns) = s.timeTarget (sec * 1000000000 + ns) := by
      unfold State.timeTarget State.fs
      rw [s.prReady_render n, s.prReady_fld n (by
        simp only [depthWord, wordAt, Blk.base, Reg.Render.CFG_RATE, Reg.Prompter.CALL_DEPTH]; omega)]
    rw [← target]
    rfl)

theorem waitRsi_answers {a : Nat} (h : s.Prompts n (.waitRsi a) len) : s.PrTimed n len (.waitRsi n) 2 a :=
  h.timed (c := .waitRsi n) rfl (kind := 2) (target := a) (by decide) rfl

theorem prompterRun_answers_waitRsi {a : Nat} (h : s.Prompts n (.waitRsi a) len) (ha : a < 2 ^ 64) (above : s.horizon ≤ a) :
    Answers (.prompterRun n) s (fun t => exec (.waitRsi n) s = .next t) := by
  have waits : (s.prReady n).prExec n (s.fld (.prompter n) Reg.Prompter.PC) len (.waitRsi a) = (s.prReady n).prWait n 2 (some a) :=
    if_neg (by rw [s.prReady_horizon n]; exact Nat.not_lt.mpr above)
  obtain ⟨over_, run, -⟩ := (s.prReady n).prWait_shows n (kind := 2) (by decide) (target := some a) ha
  have runs := h.run waits ((s.prReady n).prWait_moves n 2 (some a)) (by simp [prCore, prompter_high]) over_ run
  exact ⟨_, congrArg settle runs, rfl⟩

theorem waitRel_answers {d : Int} (h : s.Prompts n (.waitRel d) len) :
    s.PrTimed n len (.waitRsi n) 2 ((s.prMark n : Int) + d).toNat :=
  h.timed (c := .waitRsi n) rfl (kind := 2) (target := ((s.prMark n : Int) + d).toNat) (by decide) (by
    rw [← s.prReady_prMark n]
    rfl)

theorem State.prReady_tcTarget (s : State) (n : Nat) (g : Bool) (l : Nat) : (s.prReady n).tcTarget g l = s.tcTarget g l := by
  have glob (f : Fld) (hf : f.off < 0x1000) : (s.prReady n).fld .prompterGlobal f = s.fld .prompterGlobal f :=
    s.prReady_fld n (by simp only [depthWord, wordAt, Blk.base, Reg.Prompter.CALL_DEPTH]; omega)
  have tc : (s.prReady n).tc = s.tc := (s.prReady_moves n).keeps State.tc (fun _ _ => rfl) (fun _ _ => rfl)
  unfold State.tcTarget State.bit
  dsimp only
  rw [tc, glob _ (by decide), glob _ (by decide), glob _ (by decide)]

theorem waitTc_answers {g : Bool} {l : Nat} (h : s.Prompts n (.waitTc g l) len) :
    (∀ a, s.tcTarget g l = some a → s.PrTimed n len (.waitTc n) 3 a) ∧
    (s.tcTarget g l = none → Answers (.waitTc n) s (s.PrWaits n 3 none)) := by
  have runs (o : Option Nat) (ho : s.tcTarget g l = o) :
      (s.prReady n).prExec n (s.fld (.prompter n) Reg.Prompter.PC) len (.waitTc g l) =
        (s.prReady n).prUntil n 3 ((s.fld (.prompter n) Reg.Prompter.PC + len : Nat) : Int) o := by
    rw [← ho, ← s.prReady_tcTarget n]
    rfl
  exact ⟨fun a ha => h.timed (c := .waitTc n) rfl (by decide) (runs _ ha),
    fun none_ => h.waits (c := .waitTc n) rfl (by decide) (show 0 < 2 ^ 64 by decide) (runs _ none_)⟩

theorem waitGpio_answers {g k : Nat} (h : s.Prompts n (.waitGpio g k) len) :
    (∀ a, (s.pr n).edge = some a → a < 2 ^ 64 →
      Answers (.waitGpio n) s (PrPassed n (s.fld (.prompter n) Reg.Prompter.PC + len) a)) ∧
    ((s.pr n).edge = none → Answers (.waitGpio n) s (s.PrWaits n 4 none)) := by
  have edge := (s.prReady_keeps n).2.2.1
  refine ⟨fun a ha hfit => ?_, fun none_ => ?_⟩
  · obtain ⟨t, ht, passed, -⟩ := h.passes (c := .waitGpio n) rfl hfit (by
      unfold State.prExec
      dsimp only
      rw [edge, ha])
    exact ⟨t, ht, passed⟩
  · refine h.waits (c := .waitGpio n) rfl (by decide) (target := none) (show 0 < 2 ^ 64 by decide) ?_
    unfold State.prExec
    dsimp only
    rw [edge, none_]

end

end Sys2Proof.Machine
end

section
/-! PROOFS. What the Prompter's actions answer: flags, STROBE, WRITE, MOTION and SIGNAL (R429 to R431). -/

namespace Sys2Proof.Machine

open Sys2Proof

/-! Cue flags (R429) -/

theorem prFlags_lt (s : State) (n : Nat) : s.fld (.prompter n) Reg.Prompter.FLAGS < 2 ^ 16 :=
  regGet_lt s.fab.act _ Reg.Prompter.FLAGS ⟨by decide, by decide⟩

/-- Flags that no run has cleared in the block are set. -/
theorem State.cueFlagsSet_open {s : State} {n : Nat} (h : (s.pr n).clearedIn ≠ s.prBlock + 1) (bits : Nat) :
    s.cueFlagsSet n bits = s.set (.prompter n) Reg.Prompter.FLAGS (s.fld (.prompter n) Reg.Prompter.FLAGS ||| bits) := by
  unfold State.cueFlagsSet
  dsimp only
  rw [if_neg (show ¬ (s.pr n).clearedIn = s.render.rsi / s.blockSize + 1 from h)]

theorem State.fld_flags_set (s : State) (n : Nat) {bits : Nat} (hb : bits < 2 ^ 16) :
    (s.set (.prompter n) Reg.Prompter.FLAGS (s.fld (.prompter n) Reg.Prompter.FLAGS ||| bits)).fld (.prompter n) Reg.Prompter.FLAGS =
      s.fld (.prompter n) Reg.Prompter.FLAGS ||| bits :=
  State.fld_set_fit _ _ (by decide) (by decide) (Nat.or_lt_two_pow (prFlags_lt s n) hb)

theorem State.pr_set (s : State) (b : Blk) (f : Fld) (v n : Nat) : (s.set b f v).pr n = s.pr n := rfl

/-- Cleared flags read 0 and the others stay; the engine notes them, and nothing else moves. -/
theorem State.cueFlagsClr_shows (s : State) (n bits : Nat) :
    let t := s.cueFlagsClr n bits
    (∀ k, (t.fld (.prompter n) Reg.Prompter.FLAGS).testBit k =
      ((s.fld (.prompter n) Reg.Prompter.FLAGS).testBit k && !(bits % 65536).testBit k)) ∧
    (t.pr n).used = (s.pr n).used ∧ (t.pr n).runOver = (s.pr n).runOver ∧
    (∀ g : Fld, g.off ≠ 0x50 → g.off ≠ 0x64 → t.fld (.prompter n) g = s.fld (.prompter n) g) := by
  obtain ⟨e, he, hused, hover⟩ : ∃ e : PrompterEngine, s.cueFlagsClr n bits = (s.setPr n e).set (.prompter n) Reg.Prompter.FLAGS
      ((s.setPr n e).fld (.prompter n) Reg.Prompter.FLAGS &&& (0xFFFF ^^^ (bits % 65536))) ∧ e.used = (s.pr n).used ∧
      e.runOver = (s.pr n).runOver := ⟨_, rfl, rfl, rfl⟩
  have flags := s.pr_fld_setPr n e (g := Reg.Prompter.FLAGS) (by decide)
  have low := prFlags_lt s n
  have engine : ((s.cueFlagsClr n bits).pr n) = e := by
    rw [he, State.pr_set, State.pr_setPr_same]
  refine ⟨fun k => ?_, by rw [engine, hused], by rw [engine, hover], fun g h5 h6 => ?_⟩
  · rw [he, flags, State.fld_set_fit _ _ (by decide) (by decide) (Nat.lt_of_le_of_lt Nat.and_le_left low), Nat.testBit_and,
      Nat.testBit_xor]
    by_cases hk : k < 16
    · have ones : (0xFFFF : Nat).testBit k = true := by
        rw [show 0xFFFF = 2 ^ 16 - 1 from rfl, Nat.testBit_two_pow_sub_one, decide_eq_true hk]
      rw [ones, Bool.true_xor]
    · have off : (s.fld (.prompter n) Reg.Prompter.FLAGS).testBit k = false :=
        Nat.testBit_lt_two_pow (Nat.lt_of_lt_of_le low (Nat.pow_le_pow_right (by decide) (Nat.not_lt.mp hk)))
      rw [off, Bool.false_and, Bool.false_and]
  · rw [he, State.fld_set_apart _ _ _ (.inl (Ne.symm h5)), s.pr_fld_setPr n e h6]

/-! A refused write (R47) -/

theorem State.refuse_shape (s : State) (page : Blk) (off : Nat) (rs : List Nat) (seat : Nat) : ∃ free r,
    (s.refuse page off rs seat).1 = ({ s with free := free } : State).logErr page off r seat := by
  unfold State.refuse State.pick
  split
  next r u h =>
    split at h
    · obtain ⟨rfl, rfl⟩ := Prod.mk.inj h
      exact ⟨s.free, _, rfl⟩
    · obtain ⟨rfl, rfl⟩ := Prod.mk.inj h
      exact ⟨s.free + 1, _, rfl⟩

/-- A refused write logs it in a page's error log and changes nothing else. -/
def State.LogsAlone (s t : State) : Prop := ∃ page off r seat free, t = ({ s with free := free } : State).logErr page off r seat

theorem State.refuse_logs (s : State) (page : Blk) (off : Nat) (rs : List Nat) (seat : Nat) :
    s.LogsAlone (s.refuse page off rs seat).1 := by
  obtain ⟨free, r, h⟩ := s.refuse_shape page off rs seat
  exact ⟨page, off, r, seat, free, h⟩

theorem State.unless_logs {s : State} {page : Blk} {off : Nat} {rs : List Nat} {seat : Nat} {act : State → State}
    (h : (s.unless page off rs seat act).2 = false) : s.LogsAlone (s.unless page off rs seat act).1 := by
  unfold State.unless at h ⊢
  split at h
  · exact nomatch h
  · next no => rw [if_neg no]; exact s.refuse_logs page off rs seat

theorem State.LogsAlone.of_skip {s : State} {p : Prop} [Decidable p] {x : State × Bool}
    (hx : x.2 = false → s.LogsAlone x.1) (h : (if p then (s, true) else x).2 = false) : s.LogsAlone (if p then (s, true) else x).1 := by
  split at h
  · exact nomatch h
  · next no => rw [if_neg no]; exact hx h

theorem State.writePlace_logs {s : State} {w : Writer} {addr : Nat} {data : Word} {aligned : Bool} (p : Place)
    (h : (s.writePlace w addr data aligned p).2 = false) : s.LogsAlone (s.writePlace w addr data aligned p).1 := by
  cases p with
  | header b o => exact .of_skip State.unless_logs h
  | word b o => exact .of_skip State.unless_logs h
  | recWord b o =>
    unfold State.writePlace at h ⊢
    dsimp only at h ⊢
    split at h
    · next no => rw [if_pos no]; exact s.refuse_logs _ _ _ _
    · next yes => rw [if_neg yes]; exact .of_skip State.unless_logs h
  | recImage b o => exact .of_skip State.unless_logs h
  | image b o => exact .of_skip State.unless_logs h
  | prog q o active => exact .of_skip State.unless_logs h
  | map q k => exact State.unless_logs h
  | mapImage q k => exact .of_skip State.unless_logs h
  | motion k => exact s.refuse_logs _ _ _ _
  | cue k => exact s.refuse_logs _ _ _ _
  | table k => exact s.refuse_logs _ _ _ _
  | reserved b o => exact .of_skip (fun _ => s.refuse_logs _ _ _ _) h
  | nowhere => exact s.refuse_logs _ _ _ _

theorem State.tryWrite_logs {s : State} {w : Writer} {addr : Nat} {data : Word} {aligned : Bool}
    (h : (s.tryWrite w addr data aligned).2 = false) : s.LogsAlone (s.tryWrite w addr data aligned).1 := by
  unfold State.tryWrite at h ⊢
  split at h
  · exact nomatch h
  · next there =>
    rw [if_neg there]
    split at h
    · exact nomatch h
    · next unit => rw [if_neg unit]; exact State.writePlace_logs _ h

/-- A page begins on its own 4 KiB, a record lies above the pages of the first MiB. -/
theorem base_page_or_record (b : Blk) : b.base % 0x1000 = 0 ∨ 0x100000 ≤ b.base := by
  cases hb : b.isRecord with
  | false => exact .inl (Blk.base_page hb)
  | true =>
    refine .inr ?_
    cases b <;> simp only [Blk.isRecord, Blk.base, Bool.false_eq_true] at hb ⊢ <;> omega

theorem State.LogsAlone.keeps {β : Type} {s t : State} (h : s.LogsAlone t) (view : State → β)
    (hv : ∀ (r : State) (m : RegMap), view (r.withAct m) = view r) (hf : ∀ (r : State) f, view { r with free := f } = view r) :
    view t = view s := by
  obtain ⟨page, off, r, seat, free, rfl⟩ := h
  exact ((State.logErr_only _ page off r seat).keeps view hv).trans (hf s free)

theorem State.LogsAlone.pr_fld {s t : State} (h : s.LogsAlone t) {n : Nat} (hn : n < 8) {g : Fld} (hg : 0x40 ≤ g.off ∧ g.off < 0x1000) :
    t.fld (.prompter n) g = s.fld (.prompter n) g := by
  obtain ⟨page, off, r, seat, free, rfl⟩ := h
  refine ((State.logErr_only _ page off r seat).fld_eq ?_ (prompter_not_statusWord n g)).trans rfl
  have base := base_page_or_record page
  rw [List.mem_singleton]
  unfold wordAt
  generalize page.base = p at base ⊢
  simp only [Blk.base, Reg.Hdr.ERR_VALID]
  omega

end Sys2Proof.Machine
end

section
/-! PROOFS. STROBE by a Prompter and by the default configuration: what an accepted one leaves (R66 to R68, R430, R543). -/

namespace Sys2Proof.Machine

open Sys2Proof

/-- What shows an accepted strobe of any strober (R65, R591). -/
def State.showStrobeBy (s : State) (by_ : Strober) (seat serial : Nat) : State :=
  (((s.set .update Reg.Update.COMMIT_SERIAL serial).showPending).noteStrobe by_ seat serial).report by_ seat serial updPreparing rNone 0

theorem State.strobe_by_eq (s : State) (by_ : Strober) {seat mask : Nat} (at_ : Nat) (h0 : mask % 2 ^ 32 ≠ 0)
    (h : s.strobeRefusal seat mask = (none, s)) : s.strobe by_ seat mask at_ =
      ((s.withCapture (s.capture by_ seat mask at_ (nextSerial s.fab.serial))).showStrobeBy by_ seat (nextSerial s.fab.serial),
        nextSerial s.fab.serial) := by
  unfold State.strobe
  rw [if_neg h0, h]
  rfl

theorem State.resultEvent_preparing (s : State) (by_ : Strober) (seat : Nat) :
    s.resultEvent by_ seat updPreparing rNone = s := by
  cases by_ <;> rfl

theorem State.noteStrobe_shape (s : State) (by_ : Strober) (seat serial : Nat) : ∃ act last,
    s.noteStrobe by_ seat serial = { s with fab := { s.fab with act := act, lastStrobe := last } } := by
  unfold State.noteStrobe
  dsimp only
  split
  · exact ⟨_, _, rfl⟩
  · cases by_ <;> exact ⟨_, _, rfl⟩

theorem State.report_shape (s : State) (by_ : Strober) (seat serial : Nat) : ∃ act d,
    s.report by_ seat serial updPreparing rNone 0 = { s with fab := { s.fab with act := act, defcfg := d } } ∧
      (by_ = .defaultConfig → d = updPreparing) := by
  unfold State.report
  dsimp only
  rw [State.resultEvent_preparing]
  split
  · next isDefault =>
    subst isDefault
    split
    · exact ⟨_, _, rfl, fun _ => rfl⟩
    · exact ⟨_, _, rfl, fun _ => rfl⟩
  · next other =>
    split
    · exact ⟨s.fab.act, s.fab.defcfg, rfl, fun h => absurd h other⟩
    · cases by_ <;> exact ⟨_, s.fab.defcfg, rfl, fun h => absurd h other⟩

theorem State.showStrobeBy_shape (s : State) (by_ : Strober) (seat serial : Nat) : ∃ act last d,
    s.showStrobeBy by_ seat serial = { s with fab := { s.fab with act := act, lastStrobe := last, defcfg := d } } ∧
      (by_ = .defaultConfig → d = updPreparing) := by
  obtain ⟨a, pending⟩ : ∃ a, (s.set .update Reg.Update.COMMIT_SERIAL serial).showPending = s.withAct a :=
    ⟨_, (s.set .update Reg.Update.COMMIT_SERIAL serial).showPending_only.shape⟩
  unfold State.showStrobeBy
  rw [pending]
  obtain ⟨act, last, noted⟩ := (s.withAct a).noteStrobe_shape by_ seat serial
  rw [noted]
  obtain ⟨act', d, told, which⟩ := State.report_shape { s.withAct a with
    fab := { (s.withAct a).fab with act := act, lastStrobe := last } } by_ seat serial
  exact ⟨act', last, d, told, which⟩

/-- The engines that an accepted strobe leaves, and its commit behind the others. -/
theorem State.strobed_shape (s : State) (by_ : Strober) (seat serial : Nat) (c : Commit) : ∃ act p tw last d,
    (s.withCapture c).showStrobeBy by_ seat serial = { s with
      twin := tw
      fab := { s.fab with act := act, serial := c.serial, commits := s.fab.commits ++ [c], stagedPending := p, lastStrobe := last
                          defcfg := d } } ∧ (by_ = .defaultConfig → d = updPreparing) := by
  obtain ⟨p, tw, captured⟩ := s.withCapture_shape c
  rw [captured]
  obtain ⟨act, last, d, shown, which⟩ := State.showStrobeBy_shape { s with
    twin := tw
    fab := { s.fab with serial := c.serial, commits := s.fab.commits ++ [c], stagedPending := p } } by_ seat serial
  exact ⟨act, p, tw, last, d, shown, which⟩

/-- The commit of a serial that no other has takes its apply sample from its prepare (R68). -/
theorem commits_next {l : List Commit} {c : Commit} (h : ∀ d ∈ l, d.serial ≠ c.serial) :
    (l ++ [c]).map (fun d => if d.serial = c.serial then { d with next := true } else d) = l ++ [{ c with next := true }] := by
  have others : l.map (fun d => if d.serial = c.serial then { d with next := true } else d) = l :=
    (List.map_congr_left (fun d hd => if_neg (h d hd))).trans (List.map_id l)
  rw [List.map_append, others]
  exact congrArg (l ++ [·]) (if_pos rfl)

/-- Which strobes are accepted: of groups that the seat may use and that no pending commit holds (R67). -/
theorem State.strobe_free {s : State} {seat mask : Nat} (hu : s.isUnderstudy = false)
    (ho : ∀ g, g < 32 → mask.testBit g = true → s.mayUseGroup seat g = true)
    (hp : ∀ c ∈ s.fab.commits, c.pending = false ∨ c.mask &&& mask = 0) : s.strobeRefusal seat mask = (none, s) := by
  refine s.strobeRefusal_none hu ho ?_
  rintro ⟨c, hc, on_, shared⟩
  rcases hp c hc with off | none_
  · rw [Commit.pending, on_] at off
    exact nomatch off
  · exact shared none_

/-! A Prompter's STROBE (R430) -/

theorem State.noteStrobe_prompter_eq (s : State) (n : Nat) {serial : Nat} (h0 : serial ≠ 0) : s.noteStrobe .prompter n serial =
    (({ s with fab := { s.fab with lastStrobe := s.fab.lastStrobe.put 0 (8 + n) serial } } : State).set (.prompter n)
      Reg.Prompter.STROBE_SERIAL serial).set64 (.prompter n) Reg.Prompter.STROBE_APPLIED_AT_LO Reg.Prompter.STROBE_APPLIED_AT_HI 0 := by
  simp only [State.noteStrobe, if_neg h0, Strober.key]

theorem State.noted_last (s : State) (l : Map Nat) (b : Blk) (f lo hi : Fld) (v w : Nat) :
    ((({ s with fab := { s.fab with lastStrobe := l } } : State).set b f v).set64 b lo hi w).fab.lastStrobe = l := rfl

theorem State.noted_fld (s : State) (l : Map Nat) (b : Blk) (g : Fld) :
    ({ s with fab := { s.fab with lastStrobe := l } } : State).fld b g = s.fld b g := rfl

/-- A strobe that is noted leaves the words below those of the strobe. -/
theorem State.noteStrobe_prompter_fld (s : State) (n : Nat) {serial : Nat} (h0 : serial ≠ 0) {g : Fld} (hg : g.off = 0x60) :
    (s.noteStrobe .prompter n serial).fld (.prompter n) g = s.fld (.prompter n) g := by
  have apart (f : Fld) (hf : f.off ≠ 0x60) : Apart f g := .inl (by rw [hg]; exact hf)
  rw [s.noteStrobe_prompter_eq n h0, State.pr_fld_set64 _ _ _ (apart _ (by decide)) (apart _ (by decide)),
    State.fld_set_apart _ _ _ (apart _ (by decide)), State.noted_fld]

theorem State.report_prompter_eq {s : State} {n serial : Nat} (last : Map.get 0 (8 + n) s.fab.lastStrobe = serial) :
    s.report .prompter n serial updPreparing rNone 0 = ((s.set (.prompter n) Reg.Prompter.STROBE_STATE updPreparing).set (.prompter n)
      Reg.Prompter.STROBE_REASON rNone).set (.prompter n) Reg.Prompter.STROBE_PAGE 0 := by
  unfold State.report
  dsimp only
  rw [if_neg (show ¬ Strober.prompter = .defaultConfig by decide), State.resultEvent_preparing]
  exact if_neg (by simp [Strober.key, last])

theorem prompter_not_pending (n : Nat) (g : Fld) : wordAt (.prompter n) g ∉ pendingWords := by
  have low : ∀ w ∈ pendingWords, w < 0x2000 := by decide
  intro hm
  have := low _ hm
  simp only [wordAt, Blk.base] at this
  omega

/-- A Prompter's page once its STROBE is accepted: PREPARING, and STATE's word as it was. -/
theorem State.showStrobe_prompter (s : State) (n : Nat) {serial : Nat} (h0 : serial ≠ 0) :
    let t := s.showStrobeBy .prompter n serial
    t.fld (.prompter n) Reg.Prompter.STROBE_STATE = updPreparing ∧
      ∀ g : Fld, g.off = 0x60 → t.fld (.prompter n) g = s.fld (.prompter n) g := by
  have shown (g : Fld) : (s.set .update Reg.Update.COMMIT_SERIAL serial).showPending.fld (.prompter n) g = s.fld (.prompter n) g :=
    ((State.showPending_only _).fld_eq (prompter_not_pending n g) (prompter_not_statusWord n g)).trans
      (State.fld_set_word _ _ _ _ _ _ (by simp only [Blk.base, Reg.Update.COMMIT_SERIAL]; omega))
  unfold State.showStrobeBy
  generalize (s.set .update Reg.Update.COMMIT_SERIAL serial).showPending = v at shown
  have noted := v.noteStrobe_prompter_eq n h0
  have last : Map.get 0 (8 + n) (v.noteStrobe .prompter n serial).fab.lastStrobe = serial := by
    rw [noted, State.noted_last, Map.get_put_same]
  rw [State.report_prompter_eq last]
  refine ⟨?_, fun g hg => ?_⟩
  · rw [State.fld_set_apart _ _ _ (by decide), State.fld_set_apart _ _ _ (by decide),
      State.fld_set_fit _ _ (by decide) (by decide) (by decide)]
  · have apart (f : Fld) (hf : f.off ≠ 0x60) : Apart f g := .inl (by rw [hg]; exact hf)
    rw [State.fld_set_apart _ _ _ (apart _ (by decide)), State.fld_set_apart _ _ _ (apart _ (by decide)),
      State.fld_set_apart _ _ _ (apart _ (by decide)), v.noteStrobe_prompter_fld n h0 hg, shown g]

/-- What an accepted STROBE leaves of the run, and the commit that it adds. -/
theorem State.prStrobe_shows {u : State} {n mask : Nat} (at_ : Nat) (next : Bool) (h0 : mask % 2 ^ 32 ≠ 0)
    (hu : u.isUnderstudy = false) (ho : ∀ g, g < 32 → mask.testBit g = true → u.mayUseGroup n g = true)
    (hp : ∀ c ∈ u.fab.commits, (c.pending = false ∨ c.mask &&& mask = 0) ∧ c.serial ≠ nextSerial u.fab.serial) :
    let t := u.prStrobe n mask at_ next
    t.pr n = u.pr n ∧ (∀ g : Fld, g.off = 0x60 → t.fld (.prompter n) g = u.fld (.prompter n) g) ∧
      t.fld (.prompter n) Reg.Prompter.STROBE_STATE = updPreparing ∧
      ∃ c, t.fab.commits = u.fab.commits ++ [c] ∧ c.serial = nextSerial u.fab.serial ∧ c.seat = n ∧ c.by_ = .prompter ∧
        c.mask = mask ∧ c.at_ = at_ ∧ c.next = next := by
  have accepted := u.strobe_by_eq .prompter at_ h0 (State.strobe_free hu ho (fun c hc => (hp c hc).1))
  have serial := nextSerial_ne_zero u.fab.serial
  obtain ⟨c, hc⟩ : ∃ c, u.capture .prompter n mask at_ (nextSerial u.fab.serial) = c := ⟨_, rfl⟩
  have named : c.serial = nextSerial u.fab.serial ∧ c.seat = n ∧ c.by_ = .prompter ∧ c.mask = mask ∧ c.at_ = at_ ∧ c.next = false := by
    rw [← hc]
    exact ⟨rfl, rfl, rfl, rfl, rfl, rfl⟩
  obtain ⟨hserial, hseat, hby, hmask, hat, hnext⟩ := named
  rw [hc] at accepted
  obtain ⟨act, p, tw, last, d, shape, -⟩ := u.strobed_shape .prompter n (nextSerial u.fab.serial) c
  obtain ⟨state, same⟩ := (u.withCapture c).showStrobe_prompter n serial
  have captured (g : Fld) : (u.withCapture c).fld (.prompter n) g = u.fld (.prompter n) g := by
    obtain ⟨p, tw, h⟩ := u.withCapture_shape c
    rw [h]
    rfl
  have engine : ((u.withCapture c).showStrobeBy .prompter n (nextSerial u.fab.serial)).pr n = u.pr n := by
    rw [shape]
    rfl
  have commits : ((u.withCapture c).showStrobeBy .prompter n (nextSerial u.fab.serial)).fab.commits = u.fab.commits ++ [c] := by
    rw [shape]
  generalize (u.withCapture c).showStrobeBy .prompter n (nextSerial u.fab.serial) = v at accepted state same engine commits
  unfold State.prStrobe
  rw [accepted]
  dsimp only
  cases next with
  | false =>
    exact ⟨engine, fun g hg => (same g hg).trans (captured g), state, c, commits, hserial, hseat, hby, hmask, hat, hnext⟩
  | true =>
    rw [if_pos (by simp [serial])]
    refine ⟨engine, fun g hg => (same g hg).trans (captured g), state, { c with next := true }, ?_, hserial, hseat, hby, hmask, hat,
      rfl⟩
    rw [← hserial, commits]
    exact commits_next (fun e he => by rw [hserial]; exact (hp e he).2)

end Sys2Proof.Machine
end

section
/-! PROOFS. What the rows of a Prompter's actions answer (R429 to R431). -/

namespace Sys2Proof.Machine

open Sys2Proof

section
variable {s : State} {n len : Nat}

theorem State.Prompts.lt {i : CueInstr} (h : s.Prompts n i len) : n < 8 := by
  have may := h.may
  have below : s.model.prompters ≤ 8 := by cases s.model <;> decide
  simp only [State.prMay, Bool.and_eq_true, decide_eq_true_eq] at may
  omega

theorem State.Prompts.isUnderstudy {i : CueInstr} (h : s.Prompts n i len) : (s.prReady n).isUnderstudy = false := by
  have may := h.may
  have same : (s.prReady n).isUnderstudy = s.isUnderstudy := by
    unfold State.isUnderstudy
    rw [(s.prReady_moves n).keeps State.twin (fun _ _ => rfl) (fun _ _ => rfl),
      s.prReady_fld n (by simp only [depthWord, wordAt, Blk.base, Reg.Twin.ROLE, Reg.Prompter.CALL_DEPTH]; omega)]
  simp only [State.prMay, Bool.and_eq_true, Bool.not_eq_true'] at may
  rw [same, may.2]

/-! Flags -/

/-- The mark and STATE's word, after what a wait's end did to other words. -/
theorem State.prPassed_of {w : State} {p a : Nat} (hp : p < 4096) (state : w.prState n = 1)
    (wait : w.fld (.prompter n) Reg.Prompter.WAIT_KIND = 0) (mark : w.prMark n = a) : PrPassed n p a (w.setPc n p).settled := by
  refine ⟨w.setPc_pc hp, (w.setPc_fld n _ (by decide)).trans state, (w.setPc_fld n _ (by decide)).trans wait, ?_⟩
  rw [← mark]
  exact congrArg₂ (fun a b => a + 2 ^ 32 * b) (w.setPc_fld n _ (by decide)) (w.setPc_fld n _ (by decide))

/-- A satisfied wait for a flag: the run goes on, its first sample the mark, the flag cleared where the wait says so. -/
theorem waitFlag_answers_found {g : Bool} {k : Nat} (h : s.Prompts n (.waitFlag g k) len)
    (on_ : (s.fld (.prompter n) Reg.Prompter.FLAGS).testBit k = true) (ha : s.prBlock * s.blockSize < 2 ^ 64) :
    Answers (.waitFlag n) s (fun t => PrPassed n (s.fld (.prompter n) Reg.Prompter.PC + len) (s.prBlock * s.blockSize) t ∧
      (t.fld (.prompter n) Reg.Prompter.FLAGS).testBit k = !g) := by
  have flags : (s.prReady n).fld (.prompter n) Reg.Prompter.FLAGS = s.fld (.prompter n) Reg.Prompter.FLAGS :=
    s.prReady_pr_fld n (by decide)
  have hk : k < 16 := by
    by_contra high
    have zero := Nat.testBit_lt_two_pow (Nat.lt_of_lt_of_le (prFlags_lt s n) (Nat.pow_le_pow_right (by decide) (Nat.not_lt.mp high)))
    rw [zero] at on_
    exact nomatch on_
  obtain ⟨used, over_, state, wait, mark, kept, -⟩ := (s.prReady n).prMarked_shows n ha
  obtain ⟨w, hw⟩ : ∃ w, ((s.prReady n).prGo n).setMark n (s.prBlock * s.blockSize) = w := ⟨_, rfl⟩
  rw [hw] at used over_ state wait mark kept
  have runs : (s.prReady n).prExec n (s.fld (.prompter n) Reg.Prompter.PC) len (.waitFlag g k) =
      (if g = true then w.cueFlagsClr n (2 ^ k) else w).prGoto n ((s.fld (.prompter n) Reg.Prompter.PC + len : Nat) : Int) := by
    unfold State.prExec
    dsimp only
    rw [if_pos (by rw [flags]; exact on_), s.prReady_prBlock n, s.prReady_blockSize n, hw]
  cases g with
  | false =>
    refine h.goes rfl runs rfl h.fits (used.trans (s.prReady_used n)) (over_.trans h.on_ready)
      ⟨State.prPassed_of h.fits state wait mark, ?_⟩
    rw [if_neg Bool.false_ne_true, w.setPc_fld n _ (by decide), kept, flags, on_]
    rfl
  | true =>
    obtain ⟨bits, hused, hover, other⟩ := w.cueFlagsClr_shows n (2 ^ k)
    rw [if_pos rfl] at runs
    refine h.goes rfl runs rfl h.fits (hused.trans (used.trans (s.prReady_used n))) (hover.trans (over_.trans h.on_ready))
      ⟨State.prPassed_of h.fits ((other _ (by decide) (by decide)).trans state) ((other _ (by decide) (by decide)).trans wait) ?_, ?_⟩
    · rw [← mark]
      exact congrArg₂ (fun a b => a + 2 ^ 32 * b) (other _ (by decide) (by decide)) (other _ (by decide) (by decide))
    · rw [State.setPc_fld _ n _ (by decide), bits k, Nat.mod_eq_of_lt (show 2 ^ k < 65536 from Nat.pow_lt_pow_right (by decide) hk),
        Nat.testBit_two_pow_self]
      simp

theorem waitFlag_answers_none {g : Bool} {k : Nat} (h : s.Prompts n (.waitFlag g k) len)
    (off : (s.fld (.prompter n) Reg.Prompter.FLAGS).testBit k = false) : Answers (.waitFlag n) s (s.PrWaits n 5 none) := by
  refine h.waits (c := .waitFlag n) rfl (by decide) (target := none) (show 0 < 2 ^ 64 by decide) ?_
  unfold State.prExec
  dsimp only
  exact if_neg (by rw [s.prReady_pr_fld n (by decide), off]; exact Bool.false_ne_true)

/-! STROBE and WRITE -/

theorem strobe_answers {i : CueInstr} (h : s.Prompts n i len) {mask a : Nat} {w : Bool} (row : i.row = (0x06, 0))
    (hx : (s.prReady n).prExec n (s.fld (.prompter n) Reg.Prompter.PC) len i =
      ((s.prReady n).prStrobe n mask a w).prGoto n ((s.fld (.prompter n) Reg.Prompter.PC + len : Nat) : Int))
    (h0 : mask % 2 ^ 32 ≠ 0) (ho : ∀ g, g < 32 → mask.testBit g = true → s.mayUseGroup n g = true)
    (hp : ∀ c ∈ s.fab.commits, (c.pending = false ∨ c.mask &&& mask = 0) ∧ c.serial ≠ nextSerial s.fab.serial) :
    Answers (.strobe n) s (fun t => s.PrGoes n (s.fld (.prompter n) Reg.Prompter.PC + len) t ∧
      t.fld (.prompter n) Reg.Prompter.STROBE_STATE = updPreparing ∧
      ∃ c, t.fab.commits = s.fab.commits ++ [c] ∧ c.serial = nextSerial s.fab.serial ∧ c.seat = n ∧ c.by_ = .prompter ∧
        c.mask = mask ∧ c.at_ = a ∧ c.next = w) := by
  have commits := (s.prReady_moves n).keeps (fun x => x.fab.commits) (fun _ _ => rfl) (fun _ _ => rfl)
  have serial := (s.prReady_moves n).keeps (fun x => x.fab.serial) (fun _ _ => rfl) (fun _ _ => rfl)
  have groups (g : Nat) (hg : g < 32) : (s.prReady n).mayUseGroup n g = s.mayUseGroup n g := by
    have word (f : Fld) (hf : f.off < 0x1000) : (s.prReady n).fld .update f = s.fld .update f :=
      s.prReady_fld n (by simp only [depthWord, wordAt, Blk.base, Reg.Prompter.CALL_DEPTH]; omega)
    unfold State.mayUseGroup State.bit
    rw [word _ (by simp only [Reg.Update.UG_CFG_OWNER]; omega), word _ (by simp only [Reg.Update.UG_CFG_SHARED]; omega)]
  obtain ⟨engine, same, shown, c, added, hserial, named⟩ := (s.prReady n).prStrobe_shows a w h0 h.isUnderstudy
    (fun g hg hm => (groups g hg).trans (ho g hg hm)) (by rw [commits, serial]; exact hp)
  rw [commits] at added
  rw [serial] at hserial
  generalize (s.prReady n).prStrobe n mask a w = v at hx engine same shown added
  refine h.goes (show exec (.strobe n) s = settle (s.prStep n (some i.row)) by rw [row]; rfl) hx rfl h.fits
    ((congrArg PrompterEngine.used engine).trans (s.prReady_used n)) ((congrArg PrompterEngine.runOver engine).trans h.on_ready)
    ⟨State.setPc_goes h.fits ((same _ rfl).trans (s.prReady_prState n))
      ((congrArg PrompterEngine.used engine).trans (s.prReady_used n)), (v.setPc_fld n _ (by decide)).trans shown, c, ?_, hserial, named⟩
  rw [State.settled_fab_commits]
  exact added

theorem cueWrite_answers {addr value : Nat} (h : s.Prompts n (.write addr value none) len) :
    let r := (s.prReady n).tryWrite (.prompter n) addr (BitVec.ofNat 32 value) (addr % 4 = 0)
    (r.2 = true → Answers (.cueWrite n) s (fun t =>
      t = ((r.1.prGoto n ((s.fld (.prompter n) Reg.Prompter.PC + len : Nat) : Int)).prAfter n).settled)) ∧
    (r.2 = false → Answers (.cueWrite n) s (fun t => s.PrGoes n (s.fld (.prompter n) Reg.Prompter.PC + len) t ∧
      (t.fld (.prompter n) Reg.Hdr.EVENTS).testBit 8 = true)) := by
  intro r
  have runs : (s.prReady n).prExec n (s.fld (.prompter n) Reg.Prompter.PC) len (.write addr value none) =
      (match r with
        | (t, true) => t
        | (t, false) => t.event (.prompter n) 8).prGoto n ((s.fld (.prompter n) Reg.Prompter.PC + len : Nat) : Int) := rfl
  have logs : r.2 = false → (s.prReady n).LogsAlone r.1 := State.tryWrite_logs
  generalize r = q at runs logs
  obtain ⟨v, taken⟩ := q
  refine ⟨fun ok => ?_, fun no => ?_⟩
  · dsimp only at ok
    subst ok
    exact ⟨_, rfl, congrArg State.settled ((h.step (.inr rfl)).trans (congrArg (State.prAfter · n) runs))⟩
  · dsimp only at no
    subst no
    have log := logs rfl
    have engine : v.pr n = (s.prReady n).pr n := log.keeps (State.pr · n) (fun _ _ => rfl) (fun _ _ => rfl)
    have after : (v.event (.prompter n) 8).pr n = (s.prReady n).pr n :=
      (congrArg (Map.get ({} : PrompterEngine) n) (v.event_prompters _ _)).trans engine
    have state : (v.event (.prompter n) 8).prState n = s.prState n :=
      (State.fld_event_apart _ _ _ (by decide)).trans ((log.pr_fld h.lt (by decide)).trans (s.prReady_prState n))
    refine h.goes (c := .cueWrite n) rfl runs rfl h.fits ((congrArg PrompterEngine.used after).trans (s.prReady_used n))
      ((congrArg PrompterEngine.runOver after).trans h.on_ready)
      ⟨State.setPc_goes h.fits state ((congrArg PrompterEngine.used after).trans (s.prReady_used n)), ?_⟩
    rw [State.setPc_fld _ n _ (by decide)]
    exact v.event_recorded _ (by decide)

end

end Sys2Proof.Machine
end

section
/-! PROOFS. What the rows of a Prompter's MOTION, SIGNAL, branches and stacks answer (R430 to R433). -/

namespace Sys2Proof.Machine

open Sys2Proof

/-! MOTION -/

/-- The object with the cue flags of a MOTION noted. -/
def ObjEngine.flagged (o : ObjEngine) (clear : Bool) (flags : Nat) : ObjEngine :=
  if clear then { o with flagClr := o.flagClr ||| flags % 256 } else { o with flagSet := o.flagSet ||| flags % 256 }

theorem State.motionFlags_flagged {u : State} (lock : u.lockPri = false) (k flags : Nat) (clear : Bool) :
    u.motionFlags k (if clear then 0 else flags) (if clear then flags else 0) = u.setObj k ((u.obj k).flagged clear flags) := by
  unfold State.motionFlags ObjEngine.flagged
  rw [lock]
  cases clear <;> simp

/-- MOTION of objects that the seat may use notes the flags of each of them, and nothing else. -/
theorem State.prMotion_shows {u : State} {n o flags count : Nat} (clear : Bool) (lock : u.lockPri = false)
    (there : o + count ≤ u.nowObjects) (may : ∀ k, o ≤ k → k < o + count → u.mayWrite n (.obj k) = true) :
    ∃ p, u.prMotion n clear o flags count = { u with objs := p } ∧
      ∀ k, Map.get ({} : ObjEngine) k p = if o ≤ k ∧ k < o + count then (u.obj k).flagged clear flags else u.obj k := by
  unfold State.prMotion
  induction count with
  | zero => exact ⟨u.objs, rfl, fun k => (if_neg (by omega)).symm⟩
  | succ m ih =>
    obtain ⟨p, hp, each⟩ := ih (by omega) (fun k h1 h2 => may k h1 (by omega))
    have allowed : (decide (o + m < ({ u with objs := p } : State).nowObjects) &&
        ({ u with objs := p } : State).mayWrite n (.obj (o + m))) = true := by
      rw [Bool.and_eq_true, decide_eq_true_eq]
      exact ⟨show o + m < u.nowObjects by omega, may (o + m) (by omega) (by omega)⟩
    have own : ({ u with objs := p } : State).obj (o + m) = u.obj (o + m) := (each (o + m)).trans (if_neg (by omega))
    rw [List.range_succ, List.foldl_append, hp, List.foldl_cons, List.foldl_nil]
    dsimp only
    rw [if_pos allowed, State.motionFlags_flagged (u := { u with objs := p }) lock, own]
    refine ⟨p.put ({} : ObjEngine) (o + m) ((u.obj (o + m)).flagged clear flags), rfl, fun k => ?_⟩
    rw [Map.get_put]
    split
    · next here =>
      subst here
      exact (if_pos ⟨by omega, by omega⟩).symm
    · next other =>
      rw [each k]
      exact if_congr (by omega) rfl rfl

section
variable {s : State} {n len : Nat}

theorem State.prReady_objs (s : State) (n : Nat) : (s.prReady n).objs = s.objs :=
  (s.prReady_moves n).keeps State.objs (fun _ _ => rfl) (fun _ _ => rfl)

theorem motion_answers {clear : Bool} {o flags count : Nat} (h : s.Prompts n (.motion clear o flags count) len) (h1 : 1 ≤ count)
    (h1024 : count ≤ 1024) (there : o + count ≤ s.nowObjects) (lock : s.lockPri = false)
    (may : ∀ k, o ≤ k → k < o + count → s.mayWrite n (.obj k) = true) :
    Answers (if clear then .cueMotionClear n else .cueMotionSet n) s (fun t => s.PrGoes n (s.fld (.prompter n) Reg.Prompter.PC + len) t ∧
      (∀ k, o ≤ k → k < o + count → t.obj k = if clear then { s.obj k with flagClr := (s.obj k).flagClr ||| flags % 256 }
        else { s.obj k with flagSet := (s.obj k).flagSet ||| flags % 256 }) ∧
      (∀ k, k < o ∨ o + count ≤ k → t.obj k = s.obj k) ∧
      t.fld (.prompter n) Reg.Hdr.EVENTS = s.fld (.prompter n) Reg.Hdr.EVENTS) := by
  have objs : ∀ k, (s.prReady n).obj k = s.obj k := fun k => congrArg (Map.get ({} : ObjEngine) k) (s.prReady_objs n)
  have ready_lock : (s.prReady n).lockPri = false := by
    have twin := (s.prReady_moves n).keeps State.twin (fun _ _ => rfl) (fun _ _ => rfl)
    unfold State.lockPri at lock ⊢
    dsimp only at lock ⊢
    rw [twin, s.prReady_fld n (by simp only [depthWord, wordAt, Blk.base, Reg.Twin.STATE, Reg.Prompter.CALL_DEPTH]; omega)]
    exact lock
  have now : (s.prReady n).nowObjects = s.nowObjects := by
    unfold State.nowObjects State.rateMul
    rw [(s.prReady_moves n).keeps State.model (fun _ _ => rfl) (fun _ _ => rfl),
      s.prReady_fld n (by simp only [depthWord, wordAt, Blk.base, Reg.Render.CFG_RATE, Reg.Prompter.CALL_DEPTH]; omega)]
  have allowed (k : Nat) : (s.prReady n).mayWrite n (.obj k) = s.mayWrite n (.obj k) := by
    have owner := (s.prReady_moves n).keeps (fun x => x.fab.recOwner) (fun _ _ => rfl) (fun _ _ => rfl)
    unfold State.mayWrite State.ownerOf
    simp only [Blk.ownerClass, Blk.isRecord, if_true, owner]
  obtain ⟨p, moved, each⟩ := State.prMotion_shows (n := n) (flags := flags) clear ready_lock (by rw [now]; exact there)
    (fun k h1 h2 => (allowed k).trans (may k h1 h2))
  have runs : (s.prReady n).prExec n (s.fld (.prompter n) Reg.Prompter.PC) len (.motion clear o flags count) =
      ({ s.prReady n with objs := p } : State).prGoto n ((s.fld (.prompter n) Reg.Prompter.PC + len : Nat) : Int) := by
    unfold State.prExec
    dsimp only
    rw [if_pos ⟨h1, h1024⟩, moved]
  have fields (v : State) (b : Blk) (g : Fld) : ({ v with objs := p } : State).fld b g = v.fld b g := rfl
  have engine (v : State) (m : Nat) : ({ v with objs := p } : State).pr m = v.pr m := rfl
  have shown (v : State) (k : Nat) : (({ v with objs := p } : State).setPc n (s.fld (.prompter n) Reg.Prompter.PC + len)).settled.obj k =
      Map.get ({} : ObjEngine) k p := (State.settled_only _).obj_eq k
  have state : ({ s.prReady n with objs := p } : State).prState n = s.prState n := (fields _ _ _).trans (s.prReady_prState n)
  refine h.goes (by cases clear <;> rfl) runs rfl h.fits ((congrArg PrompterEngine.used (engine _ n)).trans (s.prReady_used n))
    ((congrArg PrompterEngine.runOver (engine _ n)).trans h.on_ready)
    ⟨State.setPc_goes h.fits state ((congrArg PrompterEngine.used (engine _ n)).trans (s.prReady_used n)), fun k h1 h2 => ?_,
      fun k hk => ?_, ?_⟩
  · rw [shown, each k, if_pos ⟨h1, h2⟩, objs k]
    rfl
  · rw [shown, each k, if_neg (by omega), objs k]
  · rw [State.setPc_fld _ n _ (by decide), fields, s.prReady_pr_fld n (by decide)]

/-! SIGNAL -/

theorem signalHost_answers {code : Nat} (h : s.Prompts n (.signalHost code) len) :
    Answers (.signalHost n) s (fun t => s.PrGoes n (s.fld (.prompter n) Reg.Prompter.PC + len) t ∧
      (t.fld (.prompter n) Reg.Hdr.EVENTS).testBit 0 = true ∧ t.fld (.prompter n) Reg.Prompter.SIGNAL_CODE = code ∧
      t.fld64 (.prompter n) Reg.Prompter.SIGNAL_AT_LO Reg.Prompter.SIGNAL_AT_HI = s.prMark n) := by
  have fits : code < 0xFF := (cueDecode_bounds h.decodes).2
  obtain ⟨engine, event, said, at_, same, -⟩ := (s.prReady n).prSignal_shows n (Nat.lt_succ_of_lt fits)
  have runs : (s.prReady n).prExec n (s.fld (.prompter n) Reg.Prompter.PC) len (.signalHost code) =
      ((s.prReady n).prSignal n code).prGoto n ((s.fld (.prompter n) Reg.Prompter.PC + len : Nat) : Int) := rfl
  generalize (s.prReady n).prSignal n code = v at runs engine event said at_ same
  refine h.goes rfl runs rfl h.fits ((congrArg PrompterEngine.used engine).trans (s.prReady_used n))
    ((congrArg PrompterEngine.runOver engine).trans h.on_ready)
    ⟨State.setPc_goes h.fits ((same _ rfl).trans (s.prReady_prState n))
      ((congrArg PrompterEngine.used engine).trans (s.prReady_used n)), ?_, (v.setPc_fld n _ (by decide)).trans said, ?_⟩
  · rw [v.setPc_fld n _ (by decide)]
    exact event
  · rw [← s.prReady_prMark n, ← at_]
    exact congrArg₂ (fun a b => a + 2 ^ 32 * b) (v.setPc_fld n _ (by decide)) (v.setPc_fld n _ (by decide))

/-- May Prompter `n` set a flag of Prompter `to_` (R431)? -/
def State.Admits (s : State) (n to_ : Nat) : Prop :=
  to_ < s.model.prompters ∧ (s.fld (.prompter to_) Reg.Prompter.FLAG_ACCEPT).testBit n = true

theorem State.prReady_fld_prompter (s : State) (n m : Nat) {g : Fld} (h : g.off % 0x1000 ≠ 0x64) :
    (s.prReady n).fld (.prompter m) g = s.fld (.prompter m) g :=
  s.prReady_fld n (by simp only [depthWord, wordAt, Blk.base, Reg.Prompter.CALL_DEPTH]; omega)

theorem State.prReady_admits (s : State) (n to_ : Nat) :
    (decide (to_ < (s.prReady n).model.prompters) && ((s.prReady n).fld (.prompter to_) Reg.Prompter.FLAG_ACCEPT).testBit n) = true ↔
      s.Admits n to_ := by
  rw [(s.prReady_moves n).keeps State.model (fun _ _ => rfl) (fun _ _ => rfl), s.prReady_fld_prompter n to_ (by decide),
    Bool.and_eq_true, decide_eq_true_eq]
  rfl

theorem signalFlag_answers_admitted {flag to_ : Nat} (h : s.Prompts n (.signalFlag flag to_) len) (admits : s.Admits n to_)
    (open_ : (s.pr to_).clearedIn ≠ s.prBlock + 1) :
    Answers (.signalFlag n) s (fun t => s.PrGoes n (s.fld (.prompter n) Reg.Prompter.PC + len) t ∧
      t.fld (.prompter to_) Reg.Prompter.FLAGS = s.fld (.prompter to_) Reg.Prompter.FLAGS ||| 2 ^ flag ∧
      PrMoves n (prCore n ++ [wordAt (.prompter to_) Reg.Prompter.FLAGS]) s t) := by
  have fits : flag < 16 := (cueDecode_bounds h.decodes).2
  have flags := s.prReady_fld_prompter n to_ (g := Reg.Prompter.FLAGS) (by decide)
  have cleared : ((s.prReady n).pr to_).clearedIn = (s.pr to_).clearedIn := by
    by_cases own : to_ = n
    · rw [own]
      exact (s.prReady_keeps n).2.2.2
    · rw [(s.prReady_moves n).1 to_ own]
  have set := State.cueFlagsSet_open (s := s.prReady n) (n := to_) (by rw [cleared, s.prReady_prBlock n]; exact open_) (2 ^ flag)
  have runs : (s.prReady n).prExec n (s.fld (.prompter n) Reg.Prompter.PC) len (.signalFlag flag to_) =
      ((s.prReady n).set (.prompter to_) Reg.Prompter.FLAGS ((s.prReady n).fld (.prompter to_) Reg.Prompter.FLAGS ||| 2 ^ flag)).prGoto n
        ((s.fld (.prompter n) Reg.Prompter.PC + len : Nat) : Int) := by
    rw [← set]
    unfold State.prExec State.prSignalFlag
    dsimp only
    rw [if_pos ((s.prReady_admits n to_).mpr admits)]
  have shown := (s.prReady n).fld_flags_set to_ (bits := 2 ^ flag) (Nat.pow_lt_pow_right (by decide) fits)
  have moves : PrMoves n (prCore n ++ [wordAt (.prompter to_) Reg.Prompter.FLAGS]) s ((s.prReady n).set (.prompter to_)
      Reg.Prompter.FLAGS ((s.prReady n).fld (.prompter to_) Reg.Prompter.FLAGS ||| 2 ^ flag)) :=
    ((s.prReady_moves n).mono (by simp [depthWord, prCore])).set _ (by simp)
  have state : ((s.prReady n).set (.prompter to_) Reg.Prompter.FLAGS
      ((s.prReady n).fld (.prompter to_) Reg.Prompter.FLAGS ||| 2 ^ flag)).prState n = s.prState n :=
    (State.fld_set_word _ _ _ _ _ _ (by simp only [Blk.base, Reg.Prompter.STATE, Reg.Prompter.FLAGS]; omega)).trans
      (s.prReady_prState n)
  have engine := (s.prReady n).pr_set (.prompter to_) Reg.Prompter.FLAGS
    ((s.prReady n).fld (.prompter to_) Reg.Prompter.FLAGS ||| 2 ^ flag) n
  generalize (s.prReady n).set (.prompter to_) Reg.Prompter.FLAGS
    ((s.prReady n).fld (.prompter to_) Reg.Prompter.FLAGS ||| 2 ^ flag) = v at runs shown moves state engine
  refine h.goes rfl runs rfl h.fits ((congrArg PrompterEngine.used engine).trans (s.prReady_used n))
    ((congrArg PrompterEngine.runOver engine).trans h.on_ready)
    ⟨State.setPc_goes h.fits state ((congrArg PrompterEngine.used engine).trans (s.prReady_used n)), ?_, State.setPc_moves moves _⟩
  rw [State.pr_fld_settled]
  exact (State.fld_set_word _ _ _ _ _ _ (by simp only [Blk.base, Reg.Prompter.PC, Reg.Prompter.FLAGS]; omega)).trans
    (shown.trans (by rw [flags]))

theorem signalFlag_answers_refused {flag to_ : Nat} (h : s.Prompts n (.signalFlag flag to_) len) (no : ¬ s.Admits n to_) :
    Answers (.signalFlag n) s (fun t => s.PrGoes n (s.fld (.prompter n) Reg.Prompter.PC + len) t ∧
      (t.fld (.prompter n) Reg.Hdr.EVENTS).testBit 8 = true) := by
  have runs : (s.prReady n).prExec n (s.fld (.prompter n) Reg.Prompter.PC) len (.signalFlag flag to_) =
      ((s.prReady n).event (.prompter n) 8).prGoto n ((s.fld (.prompter n) Reg.Prompter.PC + len : Nat) : Int) := by
    unfold State.prExec State.prSignalFlag
    dsimp only
    rw [if_neg (fun on_ => no ((s.prReady_admits n to_).mp on_))]
  have engine : ((s.prReady n).event (.prompter n) 8).pr n = (s.prReady n).pr n :=
    congrArg (Map.get ({} : PrompterEngine) n) (State.event_prompters _ _ _)
  have state : ((s.prReady n).event (.prompter n) 8).prState n = s.prState n :=
    (State.fld_event_apart _ _ _ (by decide)).trans (s.prReady_prState n)
  refine h.goes rfl runs rfl h.fits ((congrArg PrompterEngine.used engine).trans (s.prReady_used n))
    ((congrArg PrompterEngine.runOver engine).trans h.on_ready)
    ⟨State.setPc_goes h.fits state ((congrArg PrompterEngine.used engine).trans (s.prReady_used n)), ?_⟩
  rw [State.setPc_fld _ n _ (by decide)]
  exact State.event_recorded _ _ (by decide)

end

end Sys2Proof.Machine
end

section
/-! PROOFS. What the rows of a Prompter's branches, calls and loops answer (R432, R433). -/

namespace Sys2Proof.Machine

open Sys2Proof

/-- A branch's target lies in the region. -/
def InRegion (at_ : Nat) (off : Int) (p : Nat) : Prop := (at_ : Int) + off = p ∧ p < 4096

/-- The Prompter's engine with its stacks replaced. -/
def PrompterEngine.withStacks (e : PrompterEngine) (calls : List Nat) (loops : List (Nat × Nat)) : PrompterEngine :=
  { e with calls := calls, loops := loops }

section
variable {s : State} {n len : Nat}

/-- The state in which the stacks have moved. -/
def State.prStacked (s : State) (n : Nat) (calls : List Nat) (loops : List (Nat × Nat)) : State :=
  (s.prReady n).setPr n (((s.prReady n).pr n).withStacks calls loops)

theorem State.prStacked_pr (s : State) (n : Nat) (calls : List Nat) (loops : List (Nat × Nat)) :
    (s.prStacked n calls loops).pr n = ((s.prReady n).pr n).withStacks calls loops := State.pr_setPr_same _ _ _

theorem State.prStacked_moves (s : State) (n : Nat) (calls : List Nat) (loops : List (Nat × Nat)) :
    PrMoves n (prCore n ++ []) s (s.prStacked n calls loops) :=
  ((s.prReady_moves n).setPr _ List.mem_cons_self).mono (by simp [depthWord, prCore])

/-- Going on at a word with the stacks moved. -/
theorem State.Prompts.stacked {i : CueInstr} (h : s.Prompts n i len) {c : Instr} (hc : exec c s = settle (s.prStep n (some i.row)))
    {calls : List Nat} {loops : List (Nat × Nat)} {q : Int} {p : Nat}
    (hx : (s.prReady n).prExec n (s.fld (.prompter n) Reg.Prompter.PC) len i = (s.prStacked n calls loops).prGoto n q)
    (hq : q = p) (hp : p < 4096) :
    Answers c s (fun t => s.PrGoes n p t ∧ (t.pr n).calls = calls ∧ (t.pr n).loops = loops ∧
      t.fld (.prompter n) Reg.Prompter.CALL_DEPTH = calls.length % 16 ∧ PrMoves n (prCore n ++ []) s t) := by
  have engine := s.prStacked_pr n calls loops
  have moves := s.prStacked_moves n calls loops
  have used : ((s.prStacked n calls loops).pr n).used = ((s.prBegin n).pr n).used + 1 := by
    rw [engine]
    exact s.prReady_used n
  have on_ : ((s.prStacked n calls loops).pr n).runOver = false := by
    rw [engine]
    exact h.on_ready
  have state : (s.prStacked n calls loops).prState n = s.prState n :=
    (State.pr_fld_setPr _ _ _ (by decide)).trans (s.prReady_prState n)
  have depth : (s.prStacked n calls loops).fld (.prompter n) Reg.Prompter.CALL_DEPTH = calls.length % 16 :=
    (State.fld_set_apart _ _ _ (by decide)).trans (State.fld_set_same _ _ _ _ ⟨by decide, by decide⟩)
  generalize s.prStacked n calls loops = v at hx engine moves used on_ state depth
  refine h.goes hc hx hq hp used on_ ⟨State.setPc_goes hp state used, ?_, ?_, (v.setPc_fld n _ (by decide)).trans depth,
    State.setPc_moves moves _⟩
  · rw [v.setPc_pr, engine]
    rfl
  · rw [v.setPc_pr, engine]
    rfl

/-! Branches -/

theorem State.prReady_prompterGlobal (s : State) (n : Nat) {f : Fld} (hf : f.off < 0x1000) :
    (s.prReady n).fld .prompterGlobal f = s.fld .prompterGlobal f :=
  s.prReady_fld n (by simp only [depthWord, wordAt, Blk.base, Reg.Prompter.CALL_DEPTH]; omega)

theorem State.prReady_condWaits (s : State) (n cond : Nat) : (s.prReady n).condWaits n cond = s.condWaits n cond := by
  unfold State.condWaits
  dsimp only
  rw [s.prReady_pr_fld n (by decide)]

theorem State.prReady_prCond (s : State) (n cond : Nat) : (s.prReady n).prCond n cond = s.prCond n cond := by
  unfold State.prCond State.bit
  dsimp only
  rw [s.prReady_pr_fld n (by decide), s.prReady_pr_fld n (by decide), s.prReady_prompterGlobal n (by decide),
    s.prReady_prompterGlobal n (by decide),
    s.prReady_fld n (by simp only [depthWord, wordAt, Blk.base, Reg.MediaClk.STATE, Reg.Prompter.CALL_DEPTH]; omega)]

theorem branch_answers_waits {off : Int} {cond : Nat} {inv : Bool} (h : s.Prompts n (.branch off cond inv) len)
    (hw : s.condWaits n cond = true) : Answers (.branchIf n) s (s.PrWaits n 6 none) := by
  refine h.waits (c := .branchIf n) rfl (by decide) (target := none) (show 0 < 2 ^ 64 by decide) ?_
  unfold State.prExec
  dsimp only
  exact if_pos (by rw [s.prReady_condWaits n]; exact hw)

theorem branch_answers {off : Int} {cond : Nat} {inv : Bool} (h : s.Prompts n (.branch off cond inv) len) {p : Nat}
    (hw : s.condWaits n cond = false)
    (hp : if s.prCond n cond != inv then InRegion (s.fld (.prompter n) Reg.Prompter.PC) off p
      else p = s.fld (.prompter n) Reg.Prompter.PC + len) :
    Answers (.branchIf n) s (fun t => t.fld (.prompter n) Reg.Prompter.PC = p ∧ t.prState n = 1 ∧ PrMoves n (prCore n ++ []) s t) := by
  obtain ⟨engine, state, -, -, moves⟩ := (s.prReady n).prGo_shows n
  have target : (if s.prCond n cond != inv then ((s.fld (.prompter n) Reg.Prompter.PC : Nat) : Int) + off
      else ((s.fld (.prompter n) Reg.Prompter.PC + len : Nat) : Int)) = p ∧ p < 4096 := by
    split at hp
    · next taken => rw [if_pos taken]; exact hp
    · next on_ => rw [if_neg on_, hp]; exact ⟨rfl, h.fits⟩
  have runs : (s.prReady n).prExec n (s.fld (.prompter n) Reg.Prompter.PC) len (.branch off cond inv) =
      ((s.prReady n).prGo n).prGoto n (if s.prCond n cond != inv then ((s.fld (.prompter n) Reg.Prompter.PC : Nat) : Int) + off
        else ((s.fld (.prompter n) Reg.Prompter.PC + len : Nat) : Int)) := by
    unfold State.prExec
    dsimp only
    rw [if_neg (by rw [s.prReady_condWaits n, hw]; exact Bool.false_ne_true), s.prReady_prCond n]
  have used : (((s.prReady n).prGo n).pr n).used = ((s.prBegin n).pr n).used + 1 := by
    rw [engine]
    exact s.prReady_used n
  have on_ : (((s.prReady n).prGo n).pr n).runOver = false := by
    rw [engine]
    exact h.on_ready
  generalize (s.prReady n).prGo n = v at runs state moves used on_
  exact h.goes (c := .branchIf n) rfl runs target.1 target.2 used on_ ⟨v.setPc_pc target.2, (v.setPc_fld n _ (by decide)).trans state,
    State.setPc_moves (((s.prReady_moves n).mono (by simp [depthWord, prCore])).trans (moves.mono (by simp))) _⟩

theorem jump_answers {off : Int} (h : s.Prompts n (.jump off) len) {p : Nat}
    (hp : InRegion (s.fld (.prompter n) Reg.Prompter.PC) off p) :
    Answers (.cueJump n) s (fun t => s.PrGoes n p t ∧ PrMoves n (prCore n ++ []) s t) :=
  h.goes (c := .cueJump n) rfl rfl hp.1 hp.2 (s.prReady_used n) h.on_ready
    ⟨State.setPc_goes hp.2 (s.prReady_prState n) (s.prReady_used n),
      State.setPc_moves ((s.prReady_moves n).mono (by simp [depthWord, prCore])) _⟩

theorem jump_answers_outside {off : Int} (h : s.Prompts n (.jump off) len)
    (ho : ((s.fld (.prompter n) Reg.Prompter.PC : Nat) : Int) + off < 0 ∨ 4096 ≤ ((s.fld (.prompter n) Reg.Prompter.PC : Nat) : Int) + off) :
    Answers (.cueJump n) s (PrFaults n 5) :=
  h.faults (c := .cueJump n) rfl (by decide) (State.prGoto_outside _ _ ho)

/-! The stack of calls -/

theorem call_answers {off : Int} (h : s.Prompts n (.call off) len) {p : Nat}
    (hp : InRegion (s.fld (.prompter n) Reg.Prompter.PC) off p) (room : (s.pr n).calls.length < 8) :
    Answers (.call n) s (fun t => s.PrGoes n p t ∧
      (t.pr n).calls = (s.fld (.prompter n) Reg.Prompter.PC + len) :: (s.pr n).calls ∧
      t.fld (.prompter n) Reg.Prompter.CALL_DEPTH = (s.pr n).calls.length + 1 ∧ PrMoves n (prCore n ++ []) s t) := by
  obtain ⟨calls, loops, -, -⟩ := s.prReady_keeps n
  have full : ¬ decide (8 ≤ ((s.prReady n).pr n).calls.length) = true := by
    rw [calls, decide_eq_true_eq]
    exact Nat.not_le.mpr room
  have runs : (s.prReady n).prExec n (s.fld (.prompter n) Reg.Prompter.PC) len (.call off) =
      (s.prStacked n ((s.fld (.prompter n) Reg.Prompter.PC + len) :: (s.pr n).calls) (s.pr n).loops).prGoto n
        (((s.fld (.prompter n) Reg.Prompter.PC : Nat) : Int) + off) := by
    unfold State.prExec State.prCall
    dsimp only
    rw [if_neg (by rw [Bool.and_eq_true]; exact fun both => full both.1), if_neg full, Int.toNat_natCast, ← calls, ← loops]
    rfl
  obtain ⟨t, ht, goes, hcalls, -, depth, moves⟩ := h.stacked (c := .call n) rfl runs hp.1 hp.2
  exact ⟨t, ht, goes, hcalls, depth.trans (Nat.mod_eq_of_lt (by rw [List.length_cons]; omega)), moves⟩

theorem call_answers_full {off : Int} (h : s.Prompts n (.call off) len) {p : Nat}
    (hp : InRegion (s.fld (.prompter n) Reg.Prompter.PC) off p) (full : 8 ≤ (s.pr n).calls.length) :
    Answers (.call n) s (PrFaults n 1) := by
  have calls := (s.prReady_keeps n).1
  have inside : ¬ decide (((s.fld (.prompter n) Reg.Prompter.PC : Nat) : Int) + off < 0 ∨
      4096 ≤ ((s.fld (.prompter n) Reg.Prompter.PC : Nat) : Int) + off) = true := by
    obtain ⟨eq, lt⟩ := hp
    rw [decide_eq_true_eq, eq]
    omega
  refine h.faults (c := .call n) rfl (by decide) (v := s.prReady n) ?_
  unfold State.prExec State.prCall
  dsimp only
  rw [if_neg (by rw [Bool.and_eq_true]; exact fun both => inside both.2), if_pos (by rw [calls, decide_eq_true_eq]; exact full)]

theorem ret_answers {a : Nat} {rest : List Nat} (h : s.Prompts n .ret len) (hc : (s.pr n).calls = a :: rest) (ha : a < 4096) :
    Answers (.ret n) s (fun t => s.PrGoes n a t ∧ (t.pr n).calls = rest ∧ PrMoves n (prCore n ++ []) s t) := by
  obtain ⟨calls, -, -, -⟩ := s.prReady_keeps n
  have runs : (s.prReady n).prExec n (s.fld (.prompter n) Reg.Prompter.PC) len .ret =
      (s.prStacked n rest ((s.prReady n).pr n).loops).prGoto n (a : Int) := by
    unfold State.prExec State.prRet
    dsimp only
    rw [calls, hc]
    rfl
  obtain ⟨t, ht, goes, hcalls, -, -, moves⟩ := h.stacked (c := .ret n) rfl runs rfl ha
  exact ⟨t, ht, goes, hcalls, moves⟩

theorem ret_answers_empty (h : s.Prompts n .ret len) (hc : (s.pr n).calls = []) : Answers (.ret n) s (PrFaults n 2) := by
  refine h.faults (c := .ret n) rfl (by decide) (v := s.prReady n) ?_
  unfold State.prExec State.prRet
  dsimp only
  rw [(s.prReady_keeps n).1, hc]

/-! The stack of loops -/

theorem loop_answers {count : Nat} (h : s.Prompts n (.loop count) len) (room : (s.pr n).loops.length < 4) :
    Answers (.cueLoop n) s (fun t => s.PrGoes n (s.fld (.prompter n) Reg.Prompter.PC + len) t ∧
      (t.pr n).loops = (s.fld (.prompter n) Reg.Prompter.PC + len, count) :: (s.pr n).loops ∧ PrMoves n (prCore n ++ []) s t) := by
  have loops := (s.prReady_keeps n).2.1
  have runs : (s.prReady n).prExec n (s.fld (.prompter n) Reg.Prompter.PC) len (.loop count) =
      (s.prStacked n ((s.prReady n).pr n).calls ((s.fld (.prompter n) Reg.Prompter.PC + len, count) :: (s.pr n).loops)).prGoto n
        ((s.fld (.prompter n) Reg.Prompter.PC + len : Nat) : Int) := by
    unfold State.prExec State.prLoop
    dsimp only
    rw [if_neg (by rw [loops]; exact Nat.not_le.mpr room), Int.toNat_natCast, ← loops]
    rfl
  obtain ⟨t, ht, goes, -, hloops, -, moves⟩ := h.stacked (c := .cueLoop n) rfl runs rfl h.fits
  exact ⟨t, ht, goes, hloops, moves⟩

theorem loop_answers_full {count : Nat} (h : s.Prompts n (.loop count) len) (full : 4 ≤ (s.pr n).loops.length) :
    Answers (.cueLoop n) s (PrFaults n 3) := by
  refine h.faults (c := .cueLoop n) rfl (by decide) (v := s.prReady n) ?_
  unfold State.prExec State.prLoop
  dsimp only
  rw [if_pos (by rw [(s.prReady_keeps n).2.1]; exact full)]

theorem loopEnd_answers_empty (h : s.Prompts n .loopEnd len) (hl : (s.pr n).loops = []) : Answers (.cueLoopEnd n) s (PrFaults n 4) := by
  refine h.faults (c := .cueLoopEnd n) rfl (by decide) (v := s.prReady n) ?_
  unfold State.prExec State.prLoopEnd
  dsimp only
  rw [(s.prReady_keeps n).2.1, hl]

/-- LOOP END with iterations left goes back, with one fewer left unless the loop has no count; the last one goes on. -/
theorem loopEnd_answers {a left : Nat} {rest : List (Nat × Nat)} (h : s.Prompts n .loopEnd len) (hl : (s.pr n).loops = (a, left) :: rest)
    (ha : a < 4096) : Answers (.cueLoopEnd n) s (fun t => PrMoves n (prCore n ++ []) s t ∧
      (left = 1 → s.PrGoes n (s.fld (.prompter n) Reg.Prompter.PC + len) t ∧ (t.pr n).loops = rest) ∧
      (left ≠ 1 → s.PrGoes n a t ∧ (t.pr n).loops = (a, left - 1) :: rest)) := by
  have loops := (s.prReady_keeps n).2.1.trans hl
  by_cases last : left = 1
  · subst last
    have runs : (s.prReady n).prExec n (s.fld (.prompter n) Reg.Prompter.PC) len .loopEnd =
        (s.prStacked n ((s.prReady n).pr n).calls rest).prGoto n ((s.fld (.prompter n) Reg.Prompter.PC + len : Nat) : Int) := by
      unfold State.prExec State.prLoopEnd
      dsimp only
      rw [loops]
      dsimp only
      rw [if_neg (by decide), if_pos rfl]
      rfl
    obtain ⟨t, ht, goes, -, hloops, -, moves⟩ := h.stacked (c := .cueLoopEnd n) rfl runs rfl h.fits
    exact ⟨t, ht, moves, fun _ => ⟨goes, hloops⟩, fun no => absurd rfl no⟩
  · by_cases endless : left = 0
    · subst endless
      have runs : (s.prReady n).prExec n (s.fld (.prompter n) Reg.Prompter.PC) len .loopEnd = (s.prReady n).prGoto n (a : Int) := by
        unfold State.prExec State.prLoopEnd
        dsimp only
        rw [loops]
        dsimp only
        rw [if_pos rfl]
      have engine : ((s.prReady n).pr n).loops = (a, 0) :: rest := loops
      refine h.goes (c := .cueLoopEnd n) rfl runs rfl ha (s.prReady_used n) h.on_ready
        ⟨State.setPc_moves ((s.prReady_moves n).mono (by simp [depthWord, prCore])) _, fun no => absurd no last, fun _ =>
          ⟨State.setPc_goes ha (s.prReady_prState n) (s.prReady_used n), ?_⟩⟩
      rw [State.setPc_pr, engine]
    · have runs : (s.prReady n).prExec n (s.fld (.prompter n) Reg.Prompter.PC) len .loopEnd =
          (s.prStacked n ((s.prReady n).pr n).calls ((a, left - 1) :: rest)).prGoto n (a : Int) := by
        unfold State.prExec State.prLoopEnd
        dsimp only
        rw [loops]
        dsimp only
        rw [if_neg endless, if_neg last]
        rfl
      obtain ⟨t, ht, goes, -, hloops, -, moves⟩ := h.stacked (c := .cueLoopEnd n) rfl runs rfl ha
      exact ⟨t, ht, moves, fun no => absurd no last, fun _ => ⟨goes, hloops⟩⟩

end

end Sys2Proof.Machine
end

section
/-! PROOFS. A Prompter's buttons, and the contacts and timecode that Prompters read (R429, R435 to R437). -/

namespace Sys2Proof.Machine

open Sys2Proof

/-! Runs that may not be, starts and stops, flags (R427, R429, R435) -/

theorem prompterRun_answers_idle {s : State} {n : Nat} (h : s.prMay n = false) : Answers (.prompterRun n) s (OnlyWords s · []) := by
  have still : s.prStep n none = s := by
    unfold State.prStep
    rw [h]
    rfl
  exact .unchanged (congrArg settle (iter_fixed (f := fun t : State => t.prStep n none) still 64))

theorem prAsk_answers {c : Instr} {s : State} {n : Nat} {start : Bool} (hc : exec c s = settle (s.prAsk n start)) :
    Answers c s (fun t => (t.pr n).ask = some start ∧ t.prState n = s.prState n) := by
  refine .of_settle hc ⟨?_, ?_⟩
  · rw [State.pr_settled]
    exact congrArg PrompterEngine.ask (State.pr_setPr_same _ _ _)
  · exact (State.pr_fld_settled _ _ _).trans (State.pr_fld_setPr _ _ _ (by decide))

theorem cueFlagsSet_answers {s : State} {n bits : Nat} (hn : n < s.model.prompters) (open_ : (s.pr n).clearedIn ≠ s.prBlock + 1) :
    Answers (.cueFlagsSet n bits) s (fun t =>
      t.fld (.prompter n) Reg.Prompter.FLAGS = s.fld (.prompter n) Reg.Prompter.FLAGS ||| bits % 65536 ∧
      OnlyWords s t [wordAt (.prompter n) Reg.Prompter.FLAGS]) := by
  refine .of_settle (congrArg settle ((if_pos hn).trans (State.cueFlagsSet_open open_ _))) ⟨?_, (OnlyWords.set _ _ _ _).settled⟩
  rw [State.pr_fld_settled]
  exact s.fld_flags_set n (Nat.mod_lt _ (by decide))

theorem cueFlagsClr_answers {s : State} {n bits : Nat} (hn : n < s.model.prompters) :
    Answers (.cueFlagsClr n bits) s (fun t => ∀ k, (t.fld (.prompter n) Reg.Prompter.FLAGS).testBit k =
      ((s.fld (.prompter n) Reg.Prompter.FLAGS).testBit k && !(bits % 65536).testBit k)) := by
  refine .of_settle (congrArg settle (if_pos hn)) (fun k => ?_)
  rw [State.pr_fld_settled, (s.cueFlagsClr_shows n (bits % 65536)).1 k, Nat.mod_mod]

/-! Contacts (R436) -/

/-- A number made of the bits that are set. -/
theorem sum_of_bits (b : Nat → Bool) (m : Nat) : (List.range m).foldl (fun a k => if b k then a + 2 ^ k else a) 0 < 2 ^ m ∧
    ∀ j < m, ((List.range m).foldl (fun a k => if b k then a + 2 ^ k else a) 0).testBit j = b j := by
  induction m with
  | zero => exact ⟨Nat.one_pos, fun j hj => absurd hj (Nat.not_lt_zero j)⟩
  | succ m ih =>
    obtain ⟨low, bits⟩ := ih
    rw [List.range_succ, List.foldl_append, List.foldl_cons, List.foldl_nil]
    generalize (List.range m).foldl (fun a k => if b k then a + 2 ^ k else a) 0 = v at low bits
    have top : v.testBit m = false := Nat.testBit_lt_two_pow low
    cases hb : b m with
    | false =>
      rw [if_neg Bool.false_ne_true]
      refine ⟨Nat.lt_of_lt_of_le low (Nat.pow_le_pow_right (by decide) (Nat.le_succ m)), fun j hj => ?_⟩
      rcases Nat.lt_succ_iff_lt_or_eq.mp hj with hj | rfl
      · exact bits j hj
      · rw [top, hb]
    | true =>
      rw [if_pos rfl, Nat.add_comm]
      refine ⟨by rw [Nat.pow_succ]; omega, fun j hj => ?_⟩
      rcases Nat.lt_succ_iff_lt_or_eq.mp hj with hj | rfl
      · rw [Nat.testBit_two_pow_add_gt hj, bits j hj]
      · rw [Nat.testBit_two_pow_add_eq, top, hb]
        rfl

theorem gpioChange_answers {s : State} {k : Nat} {level : Bool} (hk : k < 16) (moves : (s.pin k).raw ≠ level) :
    Answers (.gpioChange k level) s (fun t => t.pin k = { s.pin k with
        raw := level, tick := s.render.tick + 1, since := if level = (s.pin k).level then none else some (s.render.rsi + 1) } ∧
      OnlyWords { s with gpio := t.gpio } t []) := by
  have runs : exec (.gpioChange k level) s = settle { s with gpio := s.gpio.put ({} : GpioPin) k { s.pin k with
      raw := level, since := if level = (s.pin k).level then none else some (s.render.rsi + 1), tick := s.render.tick + 1 } } :=
    if_neg (by
      rintro (far | same)
      · omega
      · exact moves same)
  refine .of_settle runs ?_
  generalize hp : s.gpio.put ({} : GpioPin) k { s.pin k with
    raw := level, since := if level = (s.pin k).level then none else some (s.render.rsi + 1), tick := s.render.tick + 1 } = p
  have gpio : ({ s with gpio := p } : State).settled.gpio = p := State.settled_gpio _
  refine ⟨?_, ?_⟩
  · unfold State.pin
    rw [gpio, ← hp, Map.get_put_same]
    rfl
  · rw [gpio]
    exact State.settled_only _

/-- GPIO_LEVEL shows each debounced level after its polarity (R436). -/
theorem State.showGpio_level (s : State) {k : Nat} (hk : k < 16) :
    (s.showGpio.fld .prompterGlobal Reg.PrompterGlobal.GPIO_LEVEL).testBit k =
      ((s.pin k).level ^^ (s.fld .prompterGlobal Reg.PrompterGlobal.GPIO_POL).testBit k) := by
  obtain ⟨low, bits⟩ := sum_of_bits (fun k => (s.pin k).level) 16
  have pol : s.fld .prompterGlobal Reg.PrompterGlobal.GPIO_POL < 2 ^ 16 :=
    regGet_lt s.fab.act Blk.prompterGlobal.base Reg.PrompterGlobal.GPIO_POL ⟨by decide, by decide⟩
  unfold State.showGpio
  dsimp only
  rw [State.fld_set_fit _ _ (by decide) (by decide) (Nat.xor_lt_two_pow low pol), Nat.testBit_xor, bits k hk]

theorem prompterGlobal_not_statusWord (f : Fld) : wordAt .prompterGlobal f ∉ statusWords :=
  statusWords_below (Nat.le_add_right_of_le (by decide))

/-- The record of a debounced edge: its direction, its stamp and the event. -/
def State.edgeShown (s : State) (k at_ : Nat) (rising : Bool) : State :=
  let dir := s.fld .prompterGlobal Reg.PrompterGlobal.GPIO_EDGE_DIR
  ((s.set .prompterGlobal Reg.PrompterGlobal.GPIO_EDGE_DIR (if rising then dir ||| 2 ^ k else dir &&& (0xFFFF ^^^ 2 ^ k))).set64
    .prompterGlobal (Reg.PrompterGlobal.EDGE_AT_LO k) (Reg.PrompterGlobal.EDGE_AT_HI k) at_).event .prompterGlobal 3

/-- A Prompter that waits for the edge has it. -/
def State.edgeSeen (s : State) (k at_ : Nat) (rising : Bool) (n : Nat) : State :=
  let e := s.pr n
  let w := (Map.get 0#32 (4096 * n + s.fld (.prompter n) Reg.Prompter.PC) s.cue).toNat
  match e.wait, e.edge with
  | some from_, none =>
    if s.fld (.prompter n) Reg.Prompter.WAIT_KIND = 4 ∧ w % 16 = k ∧ from_ ≤ at_ ∧
        (w / 65536 % 4 = 2 ∨ (w / 65536 % 4 = 0) = rising) then s.setPr n { e with edge := some at_ }
    else s
  | _, _ => s

theorem State.edgeShown_shows (s : State) {k at_ : Nat} (hk : k < 16) (ha : at_ < 2 ^ 64) (rising : Bool) :
    let t := s.edgeShown k at_ rising
    t.gpio = s.gpio ∧
      t.fld .prompterGlobal Reg.PrompterGlobal.GPIO_LEVEL = s.fld .prompterGlobal Reg.PrompterGlobal.GPIO_LEVEL ∧
      (t.fld .prompterGlobal Reg.PrompterGlobal.GPIO_EDGE_DIR).testBit k = rising ∧
      t.fld64 .prompterGlobal (Reg.PrompterGlobal.EDGE_AT_LO k) (Reg.PrompterGlobal.EDGE_AT_HI k) = at_ ∧
      (t.fld .prompterGlobal Reg.Hdr.EVENTS).testBit 3 = true := by
  have lo : ∀ f : Fld, f.off < 0xC0 → Apart (Reg.PrompterGlobal.EDGE_AT_LO k) f := fun f hf =>
    .inl (by simp only [Reg.PrompterGlobal.EDGE_AT_LO]; omega)
  have hi : ∀ f : Fld, f.off < 0xC0 → Apart (Reg.PrompterGlobal.EDGE_AT_HI k) f := fun f hf =>
    .inl (by simp only [Reg.PrompterGlobal.EDGE_AT_HI]; omega)
  have low : s.fld .prompterGlobal Reg.PrompterGlobal.GPIO_EDGE_DIR < 2 ^ 16 :=
    regGet_lt s.fab.act Blk.prompterGlobal.base Reg.PrompterGlobal.GPIO_EDGE_DIR ⟨by decide, by decide⟩
  unfold State.edgeShown
  dsimp only
  refine ⟨State.event_gpio _ _ _, ?_, ?_, ?_, State.event_recorded _ _ (by decide)⟩
  · rw [State.fld_event_apart _ _ _ (by decide), State.pr_fld_set64 _ _ _ (lo _ (by decide)) (hi _ (by decide)),
      State.fld_set_apart _ _ _ (by decide)]
  · rw [State.fld_event_apart _ _ _ (by decide), State.pr_fld_set64 _ _ _ (lo _ (by decide)) (hi _ (by decide))]
    cases rising with
    | false =>
      rw [if_neg Bool.false_ne_true, State.fld_set_fit _ _ (by decide) (by decide) (Nat.lt_of_le_of_lt Nat.and_le_left low),
        Nat.testBit_and, Nat.testBit_xor, show 0xFFFF = 2 ^ 16 - 1 from rfl, Nat.testBit_two_pow_sub_one, decide_eq_true hk,
        Nat.testBit_two_pow_self]
      simp
    | true =>
      rw [if_pos rfl, State.fld_set_fit _ _ (by decide) (by decide)
        (Nat.or_lt_two_pow low (Nat.pow_lt_pow_right (by decide) hk)), Nat.testBit_or, Nat.testBit_two_pow_self, Bool.or_true]
  · have events (f : Fld) (hf : 0xC0 ≤ f.off) : Apart Reg.Hdr.EVENTS f := .inl (by simp only [Reg.Hdr.EVENTS]; omega)
    unfold State.fld64
    rw [State.fld_event_apart _ _ _ (events _ (by simp only [Reg.PrompterGlobal.EDGE_AT_LO]; omega)),
      State.fld_event_apart _ _ _ (events _ (by simp only [Reg.PrompterGlobal.EDGE_AT_HI]; omega))]
    exact State.fld64_set64 _ _ (.inl (by simp only [Reg.PrompterGlobal.EDGE_AT_LO, Reg.PrompterGlobal.EDGE_AT_HI]; omega))
      ⟨show 0 + 32 ≤ 32 by decide, show 0 < 2 ^ 32 by decide⟩ ⟨show 0 + 32 ≤ 32 by decide, show 0 < 2 ^ 32 by decide⟩ rfl rfl ha

/-- The contacts and their words stay while the Prompters look. -/
theorem State.edgeSeen_keeps {β : Type} (view : State → β) (hv : ∀ t n e, view (State.setPr t n e) = view t) (s : State)
    (k at_ : Nat) (rising : Bool) (n : Nat) : view (s.edgeSeen k at_ rising n) = view s := by
  unfold State.edgeSeen
  dsimp only
  split
  · exact when_keeps view (hv _ _ _)
  · rfl

/-- The contact's level once its change has lasted (R436). -/
def State.pinSettled (s : State) (k : Nat) : State :=
  { s with gpio := s.gpio.put ({} : GpioPin) k { s.pin k with level := (s.pin k).raw, since := none } }

theorem execDebouncedEdge_due {s : State} {k a : Nat} (since : (s.pin k).since = some a)
    (due : (s.pin k).tick + s.rampSamples (s.fld .prompterGlobal (Reg.PrompterGlobal.DEBOUNCE k)) ≤ s.render.tick) :
    let u := s.pinSettled k
    let rising := (s.pin k).raw != (u.showGpio.fld .prompterGlobal Reg.PrompterGlobal.GPIO_POL).testBit k
    exec (.debouncedEdge k) s = settle ((List.range u.model.prompters).foldl (fun t n => t.edgeSeen k a rising n)
      (u.showGpio.edgeShown k a rising)) := by
  intro u rising
  have runs : exec (.debouncedEdge k) s = execDebouncedEdge k s := rfl
  rw [runs]
  unfold execDebouncedEdge
  dsimp only
  rw [since]
  dsimp only
  rw [if_neg (Nat.not_lt.mpr due)]
  have model : (u.showGpio.edgeShown k a rising).model = u.model := State.event_model _ _ _
  rw [← model]
  rfl

theorem debouncedEdge_answers {s : State} {k a : Nat} (hk : k < 16) (since : (s.pin k).since = some a) (ha : a < 2 ^ 64)
    (due : (s.pin k).tick + s.rampSamples (s.fld .prompterGlobal (Reg.PrompterGlobal.DEBOUNCE k)) ≤ s.render.tick) :
    let high := (s.pin k).raw != (s.fld .prompterGlobal Reg.PrompterGlobal.GPIO_POL).testBit k
    Answers (.debouncedEdge k) s (fun t =>
      t.pin k = { s.pin k with level := (s.pin k).raw, since := none } ∧
      (t.fld .prompterGlobal Reg.PrompterGlobal.GPIO_LEVEL).testBit k = high ∧
      (t.fld .prompterGlobal Reg.PrompterGlobal.GPIO_EDGE_DIR).testBit k = high ∧
      t.fld64 .prompterGlobal (Reg.PrompterGlobal.EDGE_AT_LO k) (Reg.PrompterGlobal.EDGE_AT_HI k) = a ∧
      (t.fld .prompterGlobal Reg.Hdr.EVENTS).testBit 3 = true) := by
  intro high
  have runs := execDebouncedEdge_due since due
  dsimp only at runs
  have own : (s.pinSettled k).pin k = { s.pin k with level := (s.pin k).raw, since := none } := Map.get_put_same _ _ _ _
  have polU : (s.pinSettled k).fld .prompterGlobal Reg.PrompterGlobal.GPIO_POL = s.fld .prompterGlobal Reg.PrompterGlobal.GPIO_POL := rfl
  generalize s.pinSettled k = u at runs own polU
  have pol : u.showGpio.fld .prompterGlobal Reg.PrompterGlobal.GPIO_POL = s.fld .prompterGlobal Reg.PrompterGlobal.GPIO_POL :=
    (State.fld_set_apart _ _ _ (by decide)).trans polU
  have level : (u.showGpio.fld .prompterGlobal Reg.PrompterGlobal.GPIO_LEVEL).testBit k = high := by
    rw [u.showGpio_level hk, own, polU]
  have gpio : u.showGpio.gpio = u.gpio := rfl
  rw [pol] at runs
  obtain ⟨kept, shownLevel, dir, at_, event⟩ := u.showGpio.edgeShown_shows hk ha high
  generalize u.showGpio.edgeShown k a high = v at runs kept shownLevel dir at_ event
  have fields (g : Fld) : ((List.range u.model.prompters).foldl (fun t n => t.edgeSeen k a high n) v).fld .prompterGlobal g =
      v.fld .prompterGlobal g ∨ 0x1000 ≤ g.off := by
    by_cases hg : g.off < 0x1000
    · exact .inl (foldl_keeps (State.fld · .prompterGlobal g) (fun t n _ => State.edgeSeen_keeps (State.fld · .prompterGlobal g)
        (fun t n e => t.fld_setPr n e (by simp only [wordAt, Blk.base, Reg.Prompter.CALL_DEPTH]; omega)) t k a high n) v)
    · exact .inr (Nat.not_lt.mp hg)
  have seen : ((List.range u.model.prompters).foldl (fun t n => t.edgeSeen k a high n) v).gpio = v.gpio :=
    foldl_keeps State.gpio (fun t n _ => State.edgeSeen_keeps State.gpio (fun _ _ _ => rfl) t k a high n) v
  generalize (List.range u.model.prompters).foldl (fun t n => t.edgeSeen k a high n) v = t at runs fields seen
  have shown (g : Fld) (hg : g.off < 0x1000) : t.settled.fld .prompterGlobal g = v.fld .prompterGlobal g :=
    (t.settled_fld _ _ (prompterGlobal_not_statusWord g)).trans ((fields g).resolve_right (Nat.not_le.mpr hg))
  refine .of_settle runs ⟨?_, ?_, ?_, ?_, ?_⟩
  · rw [← own]
    unfold State.pin
    rw [State.settled_gpio, seen, kept, gpio]
  · rw [shown _ (by decide), shownLevel, level]
  · rw [shown _ (by decide), dir]
  · rw [← at_]
    exact congrArg₂ (fun a b => a + 2 ^ 32 * b) (shown _ (by simp only [Reg.PrompterGlobal.EDGE_AT_LO]; omega))
      (shown _ (by simp only [Reg.PrompterGlobal.EDGE_AT_HI]; omega))
  · rw [shown _ (by decide)]
    exact event

end Sys2Proof.Machine
end

section
/-! PROOFS. The timecode reader (R437), and the Prompters' statement. -/

namespace Sys2Proof.Machine

open Sys2Proof

/-- What the registers show of a word of timecode (R437). -/
def State.tcShown (s : State) (label stamp rate : Nat) (reverse : Bool) (user : Nat) : State :=
  let g := Blk.prompterGlobal
  ((((s.set g Reg.PrompterGlobal.TC_LABEL label).set64 g Reg.PrompterGlobal.TC_EDGE_LO Reg.PrompterGlobal.TC_EDGE_HI stamp).set g
    Reg.PrompterGlobal.TC_RATE rate).setBit g Reg.PrompterGlobal.TC_REVERSE reverse).set g Reg.PrompterGlobal.TC_USERBITS user

/-- The error of a word's stamp against the period of the words before it. -/
def State.tcErrorShown (s : State) (t : TcReader) (stamp : Nat) (jump : Bool) : State :=
  match t.period, jump with
  | some d, false => s.set .prompterGlobal Reg.PrompterGlobal.TC_ERROR (unsigned 32 (((stamp : Int) - t.stamp - d) * 256))
  | _, _ => s

/-- A jump has its event, and the eighth word in a row locks the reader. -/
def State.tcCounted (s : State) (words : Nat) (jump : Bool) : State :=
  let s := if jump then s.event .prompterGlobal 2 else s
  if 8 ≤ words && !s.bit .prompterGlobal Reg.PrompterGlobal.TC_LOCKED then
    (s.set .prompterGlobal Reg.PrompterGlobal.TC_LOCKED 1).event .prompterGlobal 0
  else s

/-- The frames from the last word to this one. -/
def tcStep (t : TcReader) (rate f : Nat) (reverse : Bool) : Nat :=
  match t.frame with
  | some o => if reverse then (o + tcDay rate - f) % tcDay rate else (f + tcDay rate - o) % tcDay rate
  | none => 1

def tcJump (t : TcReader) (rate f : Nat) (reverse : Bool) : Bool := t.frame.isSome && tcStep t rate f reverse ≠ 1

/-- The reader after a word. -/
def tcRead (t : TcReader) (rate f stamp : Nat) (reverse : Bool) : TcReader :=
  { words := if tcJump t rate f reverse || t.frame.isNone then 1 else t.words + 1
    frame := some f, stamp := stamp, missed := 0
    period := if tcJump t rate f reverse || t.frame.isNone then t.period else some ((stamp : Int) - t.stamp) }

theorem State.tcWord_eq (s : State) (label stamp rate : Nat) (reverse : Bool) (user : Nat) :
    let f := tcFrame rate label % tcDay rate
    s.tcWord label stamp rate reverse user = State.tcCounted
      { (s.tcShown label stamp rate reverse user).tcErrorShown s.tc stamp (tcJump s.tc rate f reverse) with
        tc := tcRead s.tc rate f stamp reverse } (tcRead s.tc rate f stamp reverse).words (tcJump s.tc rate f reverse) := by
  unfold State.tcWord
  rfl

section
variable (s : State)

theorem State.tcShown_shows (label stamp : Nat) {rate : Nat} (hr : rate < 4) (reverse : Bool) (user : Nat) :
    let t := s.tcShown label stamp rate reverse user
    t.fld .prompterGlobal Reg.PrompterGlobal.TC_LABEL = label % 2 ^ 32 ∧ t.fld .prompterGlobal Reg.PrompterGlobal.TC_RATE = rate := by
  unfold State.tcShown State.setBit
  dsimp only
  refine ⟨?_, ?_⟩
  · rw [State.fld_set_apart _ _ _ (by decide), State.fld_set_apart _ _ _ (by decide), State.fld_set_apart _ _ _ (by decide),
      State.pr_fld_set64 _ _ _ (by decide) (by decide)]
    exact State.fld_set_same _ _ _ _ ⟨by decide, by decide⟩
  · rw [State.fld_set_apart _ _ _ (by decide), State.fld_set_apart _ _ _ (by decide)]
    exact State.fld_set_fit _ _ (by decide) (by decide) hr

theorem State.tcErrorShown_fld (t : TcReader) (stamp : Nat) (jump : Bool) {g : Fld} (h : Apart Reg.PrompterGlobal.TC_ERROR g) :
    (s.tcErrorShown t stamp jump).fld .prompterGlobal g = s.fld .prompterGlobal g := by
  unfold State.tcErrorShown
  split
  · exact State.fld_set_apart _ _ _ h
  · rfl

theorem State.tcCounted_shows (words : Nat) (jump : Bool) :
    let t := s.tcCounted words jump
    t.tc = s.tc ∧ (∀ g : Fld, Apart Reg.Hdr.EVENTS g → Apart Reg.PrompterGlobal.TC_LOCKED g →
      t.fld .prompterGlobal g = s.fld .prompterGlobal g) ∧
      (8 ≤ words → t.bit .prompterGlobal Reg.PrompterGlobal.TC_LOCKED = true) ∧
      (words < 8 → jump = true → (t.fld .prompterGlobal Reg.Hdr.EVENTS).testBit 2 = true) := by
  obtain ⟨u, hu⟩ : ∃ u, (if jump then s.event .prompterGlobal 2 else s) = u := ⟨_, rfl⟩
  have noted : u.tc = s.tc ∧ (∀ g : Fld, Apart Reg.Hdr.EVENTS g → u.fld .prompterGlobal g = s.fld .prompterGlobal g) ∧
      (jump = true → (u.fld .prompterGlobal Reg.Hdr.EVENTS).testBit 2 = true) := by
    rw [← hu]
    split
    · exact ⟨State.event_tc _ _ _, fun g hg => State.fld_event_apart _ _ _ hg, fun _ => State.event_recorded _ _ (by decide)⟩
    · next off => exact ⟨rfl, fun _ _ => rfl, fun on_ => absurd on_ off⟩
  obtain ⟨tc, same, event⟩ := noted
  unfold State.tcCounted
  dsimp only
  rw [hu]
  split
  · next locks =>
    have eight : 8 ≤ words := of_decide_eq_true (Bool.and_eq_true_iff.mp locks).1
    refine ⟨(State.event_tc _ _ _).trans tc, fun g he hl => ?_, fun _ => ?_, fun few => absurd eight (Nat.not_le.mpr few)⟩
    · exact (State.fld_event_apart _ _ _ he).trans ((State.fld_set_apart _ _ _ hl).trans (same g he))
    · rw [State.bit_event_apart _ _ _ (by decide)]
      exact State.bit_set_one _ _ ⟨by decide, by decide⟩ rfl
  · next stays =>
    refine ⟨tc, fun g he _ => same g he, fun eight => ?_, fun _ => event⟩
    rw [Bool.and_eq_true, decide_eq_true_eq, Bool.not_eq_true'] at stays
    cases locked : u.bit .prompterGlobal Reg.PrompterGlobal.TC_LOCKED with
    | true => rfl
    | false => exact absurd ⟨eight, locked⟩ stays

theorem State.prompterGlobal_settled (f : Fld) : s.settled.fld .prompterGlobal f = s.fld .prompterGlobal f :=
  s.settled_fld _ _ (prompterGlobal_not_statusWord f)

end

theorem tcWord_answers {s : State} (label stamp user : Nat) {rate : Nat} (reverse : Bool) (hr : rate < 4)
    (on_ : s.bit .prompterGlobal Reg.PrompterGlobal.TC_EN = true) :
    let g := Blk.prompterGlobal
    let f := tcFrame rate label % tcDay rate
    let day := tcDay rate
    Answers (.tcWord label stamp rate reverse user) s (fun t =>
      t.fld g Reg.PrompterGlobal.TC_LABEL = label % 2 ^ 32 ∧ t.fld g Reg.PrompterGlobal.TC_RATE = rate ∧
      t.tc.frame = some f ∧ t.tc.stamp = stamp ∧
      (s.tc.frame = none → t.tc.words = 1) ∧
      (∀ o, s.tc.frame = some o → (if reverse then (o + day - f) % day else (f + day - o) % day) = 1 →
        t.tc.words = s.tc.words + 1 ∧ t.tc.period = some ((stamp : Int) - s.tc.stamp) ∧
        (s.tc.words = 7 → t.bit g Reg.PrompterGlobal.TC_LOCKED = true)) ∧
      (∀ o, s.tc.frame = some o → (if reverse then (o + day - f) % day else (f + day - o) % day) ≠ 1 →
        t.tc.words = 1 ∧ (t.fld g Reg.Hdr.EVENTS).testBit 2 = true)) := by
  intro g f day
  have runs : exec (.tcWord label stamp rate reverse user) s = settle (s.tcWord label stamp rate reverse user) :=
    congrArg settle (if_pos (by rw [on_, Bool.true_and, decide_eq_true_eq]; exact hr))
  rw [s.tcWord_eq label stamp rate reverse user] at runs
  obtain ⟨shownLabel, shownRate⟩ := s.tcShown_shows label stamp hr reverse user
  obtain ⟨j, hj⟩ : ∃ j, tcJump s.tc rate f reverse = j := ⟨_, rfl⟩
  obtain ⟨r, hread⟩ : ∃ r, tcRead s.tc rate f stamp reverse = r := ⟨_, rfl⟩
  have frame : r.frame = some f := by rw [← hread]; rfl
  have stamped : r.stamp = stamp := by rw [← hread]; rfl
  have words : r.words = if j || s.tc.frame.isNone then 1 else s.tc.words + 1 := by rw [← hread, ← hj]; rfl
  have period : r.period = if j || s.tc.frame.isNone then s.tc.period else some ((stamp : Int) - s.tc.stamp) := by
    rw [← hread, ← hj]; rfl
  change exec _ s = settle (State.tcCounted { (s.tcShown label stamp rate reverse user).tcErrorShown s.tc stamp
    (tcJump s.tc rate f reverse) with tc := tcRead s.tc rate f stamp reverse } (tcRead s.tc rate f stamp reverse).words
    (tcJump s.tc rate f reverse)) at runs
  rw [hj, hread] at runs
  have error (h : Fld) := (s.tcShown label stamp rate reverse user).tcErrorShown_fld s.tc stamp j (g := h)
  generalize (s.tcShown label stamp rate reverse user).tcErrorShown s.tc stamp j = v at runs error
  have fields (h : Fld) : ({ v with tc := r } : State).fld .prompterGlobal h = v.fld .prompterGlobal h := rfl
  have reader : ({ v with tc := r } : State).tc = r := rfl
  obtain ⟨tc, same, locks, jumps⟩ := State.tcCounted_shows { v with tc := r } r.words j
  generalize State.tcCounted { v with tc := r } r.words j = w at runs tc same locks jumps
  have settledTc : w.settled.tc = r := (State.settled_tc w).trans (tc.trans reader)
  refine .of_settle runs ⟨?_, ?_, by rw [settledTc, frame], by rw [settledTc, stamped], fun first => ?_, fun o ho step => ?_,
    fun o ho step => ?_⟩
  · rw [State.prompterGlobal_settled, same _ (by decide) (by decide), fields, error _ (by decide), shownLabel]
  · rw [State.prompterGlobal_settled, same _ (by decide) (by decide), fields, error _ (by decide), shownRate]
  · rw [settledTc, words, first]
    exact if_pos (by simp)
  · have steady : j = false := by
      rw [← hj]
      unfold tcJump tcStep
      rw [ho]
      exact (Bool.and_eq_false_iff.mpr (.inr (decide_eq_false (not_not.mpr step))))
    have counted : r.words = s.tc.words + 1 := by
      rw [words, ho, steady]
      rfl
    refine ⟨by rw [settledTc, counted], ?_, fun seven => ?_⟩
    · rw [settledTc, period, ho, steady]
      rfl
    · rw [State.settled_bit _ _ _ (prompterGlobal_not_statusWord _)]
      exact locks (by rw [counted, seven])
  · have jumped : j = true := by
      rw [← hj]
      unfold tcJump tcStep
      rw [ho]
      exact Bool.and_eq_true_iff.mpr ⟨rfl, decide_eq_true step⟩
    have one : r.words = 1 := by
      rw [words, jumped]
      rfl
    refine ⟨by rw [settledTc, one], ?_⟩
    rw [State.prompterGlobal_settled]
    exact jumps (by rw [one]; decide) jumped

theorem tcLoss_answers {s : State} (h : s.bit .prompterGlobal Reg.PrompterGlobal.TC_LOCKED = true) : Answers .tcLoss s (fun t =>
    t.bit .prompterGlobal Reg.PrompterGlobal.TC_LOCKED = false ∧ t.tc.words = 0 ∧ t.tc.frame = none ∧
    (t.fld .prompterGlobal Reg.Hdr.EVENTS).testBit 1 = true) := by
  refine .of_settle (congrArg settle (if_pos h)) ?_
  obtain ⟨v, hv⟩ : ∃ v : State, v = { s with tc := { s.tc with words := 0, frame := none, period := none } } := ⟨_, rfl⟩
  have tc : v.tc = { s.tc with words := 0, frame := none, period := none } := by rw [hv]
  rw [← hv]
  refine ⟨?_, ?_, ?_, ?_⟩
  · rw [State.settled_bit _ _ _ (prompterGlobal_not_statusWord _), State.bit_event_apart _ _ _ (by decide)]
    exact State.bit_set_zero _ _ ⟨by decide, by decide⟩ rfl
  · rw [State.settled_tc, State.event_tc, State.set_tc, tc]
  · rw [State.settled_tc, State.event_tc, State.set_tc, tc]
  · rw [State.prompterGlobal_settled]
    exact State.event_recorded _ _ (by decide)

/-- Settles O55: the instruction at the PC of a run with room, by its row; the buttons; the contacts; the timecode. -/
theorem promptersContactsAndTimecode : Obligations.PromptersContactsAndTimecode := by
  unfold Obligations.PromptersContactsAndTimecode
  refine ⟨?_, fun s n => prompterRun_answers_idle, fun s n bits hn => ⟨prAsk_answers (congrArg settle (if_pos hn)),
    prAsk_answers (congrArg settle (if_pos hn)), cueFlagsSet_answers hn, cueFlagsClr_answers hn⟩, fun s k level => gpioChange_answers,
    fun s k a hk since ha => debouncedEdge_answers hk since ha, fun s label stamp rate user reverse hr =>
      tcWord_answers label stamp user reverse hr, fun s => tcLoss_answers⟩
  intro s n len i may decodes fits room opened
  have h : s.Prompts n i len := ⟨may, decodes, fits, room, opened⟩
  refine ⟨?_, ?_, ?_, ?_, ?_, ?_, ?_, ?_, ?_, ?_, ?_, ?_, ?_, ?_, ?_, ?_, ?_, ?_, ?_, ?_⟩
  · rintro b rfl
    exact cueHalt_answers h
  · rintro sec ns rfl
    exact waitTime_answers h
  · rintro a rfl
    exact waitRsi_answers h
  · rintro a rfl ha above
    exact prompterRun_answers_waitRsi h ha above
  · rintro d rfl
    exact waitRel_answers h
  · rintro g l rfl
    exact waitTc_answers h
  · rintro g k rfl
    exact waitGpio_answers h
  · rintro g k rfl
    exact ⟨waitFlag_answers_found h, waitFlag_answers_none h⟩
  · rintro mask a w (⟨d, rfl, rfl, rfl⟩ | ⟨rfl, rfl⟩ | ⟨rfl, rfl, rfl⟩) h0 ho hp
    · exact strobe_answers h rfl (by rw [← s.prReady_prMark n]; rfl) h0 ho hp
    · exact strobe_answers h rfl rfl h0 ho hp
    · exact strobe_answers h rfl rfl h0 ho hp
  · rintro addr value rfl
    exact cueWrite_answers h
  · rintro clear o flags count rfl h1 h1024 there lock may
    exact motion_answers h h1 h1024 there lock may
  · rintro code rfl
    exact signalHost_answers h
  · rintro flag to_ rfl
    exact ⟨signalFlag_answers_admitted h, signalFlag_answers_refused h⟩
  · rintro off cond inv rfl
    exact ⟨branch_answers_waits h, fun p => branch_answers h⟩
  · rintro off p rfl inside
    exact jump_answers h inside
  · rintro off rfl outside
    exact jump_answers_outside h outside
  · rintro off p rfl inside
    exact ⟨call_answers h inside, call_answers_full h inside⟩
  · rintro rfl
    exact ⟨fun a rest => ret_answers h, ret_answers_empty h⟩
  · rintro count rfl
    exact ⟨loop_answers h, loop_answers_full h⟩
  · rintro rfl
    exact ⟨loopEnd_answers_empty h, fun a left rest => loopEnd_answers h⟩

end Sys2Proof.Machine
end

section
/-! PROOFS. What the ends of commands, the entry of a state and the egress gate leave of the twin's and the link's pages
(R481, R482, R501). -/

namespace Sys2Proof.Machine

open Sys2Proof

/-! The words of the pages of the first 64 KiB -/

/-- The words below the seats' pages stay, the twin's state has become `v`, and the render's engine stays. -/
structure Turned (s t : State) (v : TwinState) : Prop where
  words : ∀ k, k < 0x10000 → t.actWord k = s.actWord k
  twin : t.twin = v
  render : t.render = s.render

section
variable {s t u : State} {v w : TwinState}

theorem Turned.refl (s : State) : Turned s s s.twin := ⟨fun _ _ => rfl, rfl, rfl⟩

theorem Turned.trans (h : Turned s t v) (k : Turned t u w) : Turned s u w :=
  ⟨fun x hx => (k.words x hx).trans (h.words x hx), k.twin, k.render.trans h.render⟩

theorem Turned.of (s : State) (v : TwinState) : Turned s { s with twin := v } v := ⟨fun _ _ => rfl, rfl, rfl⟩

theorem Turned.fld (h : Turned s t v) {b : Blk} {f : Fld} (hb : b.base + f.off < 0x10000) : t.fld b f = s.fld b f :=
  State.fld_of_actWord (h.words _ hb)

theorem Turned.bit (h : Turned s t v) {b : Blk} {f : Fld} (hb : b.base + f.off < 0x10000) : t.bit b f = s.bit b f := by
  unfold State.bit
  rw [h.fld hb]

theorem Turned.tw (h : Turned s t v) : t.tw = s.tw := h.fld (by decide)

theorem Turned.events (h : Turned s t v) {b : Blk} (hb : b.base + Reg.Hdr.EVENTS.off < 0x10000) (i : Nat)
    (hi : (s.fld b Reg.Hdr.EVENTS).testBit i = true) : (t.fld b Reg.Hdr.EVENTS).testBit i = true := by
  rw [h.fld hb]
  exact hi

end

theorem State.low_set (s : State) {b : Blk} {f : Fld} (v : Nat) (h : 0x10000 ≤ b.base + f.off) {k : Nat} (hk : k < 0x10000) :
    (s.set b f v).actWord k = s.actWord k := s.set_word b f v k (by omega)

theorem State.low_setSeat (s : State) (n : Nat) (v : SeatState) {k : Nat} (hk : k < 0x10000) :
    (s.setSeat n v).actWord k = s.actWord k :=
  State.low_set _ _ (by simp only [Blk.base]; omega) hk

theorem Turned.finish1 (s : State) (seat tag st r0 r1 : Nat) : Turned s (s.finish1 seat tag st r0 r1) s.twin := by
  have post (c : Cmd) : Turned s (s.post c st r0 r1 false) s.twin := by
    unfold State.post
    dsimp only
    split
    · exact .refl s
    · exact ⟨fun k hk => s.low_setSeat _ _ hk, rfl, rfl⟩
  unfold State.finish1
  split
  · exact .refl s
  · next c _ =>
    split
    · exact .refl s
    · split
      · exact ⟨fun k hk => s.low_setSeat _ _ hk, rfl, rfl⟩
      · exact ⟨fun k hk => (State.low_setSeat _ _ _ hk).trans ((post c).words k hk), (post c).twin, (post c).render⟩

theorem Turned.finish (s : State) (seat tag st r0 r1 : Nat) : Turned s (s.finish seat tag st r0 r1) s.twin := by
  have waiters (l : List (Nat × Nat)) (u : State) : Turned u (l.foldl (fun s w => s.finish1 w.1 w.2 Status.ok 0 0) u) u.twin := by
    induction l generalizing u with
    | nil => exact .refl u
    | cons w l ih =>
      have step := ih (u.finish1 w.1 w.2 Status.ok 0 0)
      rw [(Turned.finish1 u w.1 w.2 Status.ok 0 0).twin] at step
      exact (Turned.finish1 u w.1 w.2 Status.ok 0 0).trans step
  have first := Turned.finish1 s seat tag st r0 r1
  have rest := waiters (((s.cmdOf seat tag).map (·.waiters)).getD []) (s.finish1 seat tag st r0 r1)
  rw [first.twin] at rest
  exact first.trans rest

theorem Turned.joinEnds (s : State) (st r0 r1 : Nat) : Turned s (s.joinEnds st r0 r1) { s.twin with join := none } := by
  unfold State.joinEnds
  split
  · next none_ =>
    have same : { s.twin with join := none } = s.twin := by rw [← none_]
    rw [same]
    exact .refl s
  · dsimp only
    split
    · exact (Turned.of s _).trans (.finish _ _ _ _ _ _)
    · exact .of s _

theorem Turned.handoverEnds (s : State) : Turned s s.handoverEnds { s.twin with handover := none } := by
  unfold State.handoverEnds
  dsimp only
  split
  · exact (Turned.of s _).trans (.finish _ _ _ _ _ _)
  · exact .of s _

theorem Turned.resyncEnds (s : State) (st : Nat) : Turned s (s.resyncEnds st) { s.twin with resync := none } := by
  unfold State.resyncEnds
  split
  · exact (Turned.of s _).trans (.finish _ _ _ _ _ _)
  · next none_ =>
    have same : { s.twin with resync := none } = s.twin := by rw [← none_]
    rw [same]
    exact .refl s

theorem Turned.takeEnds (s : State) (st r0 : Nat) : Turned s (s.takeEnds st r0) { s.twin with take := none } := by
  unfold State.takeEnds
  split
  · exact (Turned.of s _).trans (.finish _ _ _ _ _ _)
  · next none_ =>
    have same : { s.twin with take := none } = s.twin := by rw [← none_]
    rw [same]
    exact .refl s

theorem Turned.toPeer {s : State} (link : s.bit .ndodom Reg.Ndodom.STATUS_LINK = true) (f : PeerFrame) :
    Turned s (s.toPeer f) { s.twin with out := s.twin.out ++ [f] } := by
  unfold State.toPeer
  rw [if_pos link]
  exact .of s _

/-! The egress gate (R481, R482) -/

/-- May egress be open in state `c` of the unit (R481)? -/
def State.mayOpenIn (s : State) (c : Nat) : Bool :=
  openState c && s.twin.won && !s.twin.tie &&
    match s.twin.barred with
    | some t => t + 3 * s.blockSize ≤ s.render.tick
    | none => true

theorem State.mayOpen_eq (s : State) : s.mayOpen = s.mayOpenIn s.tw := rfl

/-- What the gate of the egress streams reads and leaves: the words of the pages, the twin, the render and the block. -/
def State.gateView (s : State) : (Nat → Word) × TwinState × Render × Nat :=
  (fun k => if k < 0x10000 then s.actWord k else 0#32, s.twin, s.render, s.blockSize)

theorem State.gateView_egress (s : State) (n : Nat) (f : Fld) (v : Nat) : (s.set (.egress n) f v).gateView = s.gateView := by
  have block : (s.set (.egress n) f v).blockSize = s.blockSize := by
    unfold State.blockSize
    rw [State.fld_set_word _ _ _ _ _ _ (by simp only [Blk.base, Reg.Render.CFG_BLOCK]; omega)]
  unfold State.gateView
  rw [block]
  refine Prod.ext (funext fun k => ?_) rfl
  dsimp only
  split
  · next hk => exact s.low_set v (by simp only [Blk.base]; omega) hk
  · rfl

theorem State.gateView_of {s t : State} (h : t.gateView = s.gateView) :
    Turned s t s.twin ∧ t.blockSize = s.blockSize := by
  obtain ⟨words, twin, render, block⟩ : (fun k => if k < 0x10000 then t.actWord k else 0#32) =
      (fun k => if k < 0x10000 then s.actWord k else 0#32) ∧ t.twin = s.twin ∧ t.render = s.render ∧ t.blockSize = s.blockSize :=
    ⟨congrArg (·.1) h, congrArg (·.2.1) h, congrArg (·.2.2.1) h, congrArg (·.2.2.2) h⟩
  refine ⟨⟨fun k hk => ?_, twin, render⟩, block⟩
  have at_ := congrFun words k
  rwa [if_pos hk, if_pos hk] at at_

theorem State.egGate_view (s : State) : s.egGate.gateView = s.gateView := State.egGate_keeps _ State.gateView_egress s

theorem State.egResume_view (s : State) : s.egResume.gateView = s.gateView := by
  have drop (t : State) (n : Nat) : (t.egDrop n).gateView = t.gateView := by
    unfold State.egDrop
    rw [State.stick_eq_set _ _ rfl]
    exact (State.gateView_egress _ _ _ _).trans (State.gateView_egress _ _ _ _)
  have queued (t : State) (p q : Nat) (f : TxFrame) : (t.enqueue p q f).gateView = t.gateView := rfl
  refine (foldl_keeps State.gateView (fun t n _ => ?_) s.egGate).trans s.egGate_view
  refine ite_keeps State.gateView ?_ ?_
  · exact (foldl_keeps State.gateView (fun u f _ => queued u _ _ _) _).trans rfl
  · exact (foldl_keeps State.gateView (fun u f _ => drop u n) _).trans rfl

/-- The field of the egress' opening, and what reads it. -/
abbrev BesideOpen (b : Blk) (g : Fld) : Prop := b.base + g.off < 0x10000 ∧ FldApart .twin Reg.Twin.CLAIM_EGRESS_OPEN b g

theorem State.blockSize_set_twin (s : State) {f : Fld} (v : Nat) (hf : f.off < 0x1000) : (s.set .twin f v).blockSize = s.blockSize := by
  unfold State.blockSize
  rw [State.fld_set_word _ _ _ _ _ _ (by simp only [Blk.base, Reg.Render.CFG_BLOCK]; omega)]

/-- The gate closes egress that may not be open, and is idle otherwise. -/
theorem State.gateEgress_shows (s : State) :
    let t := s.gateEgress
    t.twin = s.twin ∧ t.render = s.render ∧ t.blockSize = s.blockSize ∧
      (∀ b g, BesideOpen b g → t.fld b g = s.fld b g) ∧
      (s.mayOpen = false → t.bit .twin Reg.Twin.CLAIM_EGRESS_OPEN = false) ∧ (s.mayOpen = true → t = s) := by
  unfold State.gateEgress
  split
  · next closes =>
    obtain ⟨turned, block⟩ := State.gateView_of (State.egGate_view (s.set .twin Reg.Twin.CLAIM_EGRESS_OPEN 0))
    have no : s.mayOpen = false := (Bool.not_eq_true' _).mp (Bool.and_eq_true_iff.mp closes).2
    refine ⟨turned.twin, turned.render, block.trans (s.blockSize_set_twin 0 (by decide)), fun b g hg => ?_, fun _ => ?_, fun yes => ?_⟩
    · exact (turned.fld hg.1).trans (s.fld_set_other 0 hg.2)
    · exact (turned.bit (by decide)).trans (State.bit_set_zero _ _ ⟨by decide, by decide⟩ rfl)
    · rw [no] at yes
      exact nomatch yes
  · next stays =>
    refine ⟨rfl, rfl, rfl, fun _ _ _ => rfl, fun no => ?_, fun _ => rfl⟩
    rw [no, Bool.not_false, Bool.and_true] at stays
    exact Bool.eq_false_iff.mpr stays

/-- Egress that may open is open after it (R481). -/
theorem State.openEgress_shows (s : State) :
    let t := s.openEgress
    t.twin = s.twin ∧ t.render = s.render ∧ (∀ b g, BesideOpen b g → t.fld b g = s.fld b g) ∧
      (s.mayOpen = true → t.bit .twin Reg.Twin.CLAIM_EGRESS_OPEN = true) := by
  unfold State.openEgress
  split
  · obtain ⟨turned, -⟩ := State.gateView_of (State.egResume_view (s.set .twin Reg.Twin.CLAIM_EGRESS_OPEN 1))
    exact ⟨turned.twin, turned.render, fun b g hg => (turned.fld hg.1).trans (s.fld_set_other 1 hg.2), fun _ =>
      (turned.bit (by decide)).trans (State.bit_set_one _ _ ⟨by decide, by decide⟩ rfl)⟩
  · next stays =>
    refine ⟨rfl, rfl, fun _ _ _ => rfl, fun may => ?_⟩
    rw [may, Bool.and_true, Bool.not_eq_true'] at stays
    exact Bool.not_eq_false _ ▸ stays

/-! Entering a state (R501) -/

/-- The fields that entering a state writes. -/
def enterFields : List (Blk × Fld) := [(.twin, Reg.Twin.STATE), (.twin, Reg.Twin.ROLE), (.twin, Reg.Twin.CLAIM_NOW),
  (.twin, Reg.Twin.CLAIM_EGRESS_OPEN)]

/-- What entering a state shows, and what it leaves. -/
structure Entered (s t : State) (c : Nat) : Prop where
  state : t.tw = c
  twin : t.twin = s.twin
  render : t.render = s.render
  block : t.blockSize = s.blockSize
  others : ∀ b g, b.base + g.off < 0x10000 → (∀ w ∈ enterFields, FldApart w.1 w.2 b g) → t.fld b g = s.fld b g
  closes : s.mayOpenIn c = false → t.bit .twin Reg.Twin.CLAIM_EGRESS_OPEN = false
  stays : s.mayOpenIn c = true → t.bit .twin Reg.Twin.CLAIM_EGRESS_OPEN = s.bit .twin Reg.Twin.CLAIM_EGRESS_OPEN

theorem State.mayOpenIn_of {s t : State} (twin : t.twin = s.twin) (render : t.render = s.render) (block : t.blockSize = s.blockSize)
    (c : Nat) : t.mayOpenIn c = s.mayOpenIn c := by
  unfold State.mayOpenIn
  rw [twin, render, block]

theorem State.enter_entered (s : State) {c : Nat} (hc : c < 16) : Entered s (s.enter c) c := by
  obtain ⟨u, hu⟩ : ∃ u, ((s.set .twin Reg.Twin.STATE c).setBit .twin Reg.Twin.ROLE (undState c)) = u := ⟨_, rfl⟩
  have marked : Writes s (u.set .twin Reg.Twin.CLAIM_NOW u.claim) enterFields := by
    rw [← hu]
    exact (((Writes.refl s enterFields).set (b := .twin) (f := Reg.Twin.STATE) c (by simp [enterFields])).set (b := .twin)
      (f := Reg.Twin.ROLE) _ (by simp [enterFields])).set (b := .twin) (f := Reg.Twin.CLAIM_NOW) _ (by simp [enterFields])
  have state : (u.set .twin Reg.Twin.CLAIM_NOW u.claim).tw = c := by
    rw [← hu]
    exact (State.fld_set_apart _ _ _ (by decide)).trans ((State.fld_set_apart _ _ _ (by decide)).trans
      (State.fld_set_fit _ _ (by decide) (by decide) hc))
  have engines : (u.set .twin Reg.Twin.CLAIM_NOW u.claim).twin = s.twin ∧ (u.set .twin Reg.Twin.CLAIM_NOW u.claim).render = s.render := by
    rw [← hu]
    exact ⟨rfl, rfl⟩
  have block : (u.set .twin Reg.Twin.CLAIM_NOW u.claim).blockSize = s.blockSize := by
    rw [State.blockSize_set_twin _ _ (by decide), ← hu]
    exact (State.blockSize_set_twin _ _ (by decide)).trans (State.blockSize_set_twin _ _ (by decide))
  have openSame : (u.set .twin Reg.Twin.CLAIM_NOW u.claim).fld .twin Reg.Twin.CLAIM_EGRESS_OPEN =
      s.fld .twin Reg.Twin.CLAIM_EGRESS_OPEN := by
    rw [← hu]
    exact (State.fld_set_apart _ _ _ (by decide)).trans ((State.fld_set_apart _ _ _ (by decide)).trans
      (State.fld_set_apart _ _ _ (by decide)))
  have entered : s.enter c = (u.set .twin Reg.Twin.CLAIM_NOW u.claim).gateEgress.egGate := by
    rw [← hu]
    rfl
  rw [entered]
  generalize u.set .twin Reg.Twin.CLAIM_NOW u.claim = v at marked state engines block openSame
  obtain ⟨twin, render, gateBlock, beside, closes, idle⟩ := v.gateEgress_shows
  have may : v.mayOpen = s.mayOpenIn c := by
    rw [v.mayOpen_eq, state]
    exact State.mayOpenIn_of engines.1 engines.2 block c
  obtain ⟨turned, last⟩ := State.gateView_of (State.egGate_view v.gateEgress)
  refine ⟨turned.tw.trans ((beside _ _ (by decide)).trans state), turned.twin.trans (twin.trans engines.1),
    turned.render.trans (render.trans engines.2), last.trans (gateBlock.trans block), fun b g hb hg => ?_, fun no => ?_, fun yes => ?_⟩
  · exact (turned.fld hb).trans ((beside b g ⟨hb, hg (.twin, Reg.Twin.CLAIM_EGRESS_OPEN) (by simp [enterFields])⟩).trans (marked b g hg))
  · exact (turned.bit (by decide)).trans (closes (may.trans no))
  · rw [turned.bit (by decide), idle (may.trans yes)]
    unfold State.bit
    rw [openSame]

theorem Entered.bit {s t : State} {c : Nat} (h : Entered s t c) {b : Blk} {g : Fld} (hb : b.base + g.off < 0x10000)
    (hg : ∀ w ∈ enterFields, FldApart w.1 w.2 b g) : t.bit b g = s.bit b g := by
  unfold State.bit
  rw [h.others b g hb hg]

theorem Entered.mayOpen {s t : State} {c : Nat} (h : Entered s t c) : t.mayOpen = s.mayOpenIn c := by
  rw [t.mayOpen_eq, h.state]
  exact State.mayOpenIn_of h.twin h.render h.block c

end Sys2Proof.Machine
end

section
/-! PROOFS. TWIN modes, claim cycles and the presence pin (R478, R480, R481, R483). -/

namespace Sys2Proof.Machine

open Sys2Proof

/-! Words of the pages once the status registers are up to date -/

theorem State.twin_fld_settled (s : State) {f : Fld} (hf : f.off < 0x1000) (h : Apart Reg.Twin.ROLE f) :
    s.settled.fld .twin f = s.fld .twin f := by
  have page (t : State) {b : Blk} {g : Fld} (v : Nat) (hb : b.base + g.off < 0xD000 ∨ 0xE000 ≤ b.base + g.off) :
      (t.set b g v).fld .twin f = t.fld .twin f := State.fld_set_word _ _ _ _ _ _ (by simp only [Blk.base] at hb ⊢; omega)
  rw [State.settled_fld_engines _ _ _ (fun q _ => by simp only [Blk.base, Reg.Seat.STATUS_IN_FLIGHT]; omega)]
  unfold State.showEngines State.setBit
  rw [State.fld_set_apart _ _ _ h, page _ _ (by decide), page _ _ (by decide), page _ _ (by decide)]

theorem State.twin_bit_settled (s : State) {f : Fld} (hf : f.off < 0x1000) (h : Apart Reg.Twin.ROLE f) :
    s.settled.bit .twin f = s.bit .twin f := by
  unfold State.bit
  rw [s.twin_fld_settled hf h]

theorem ndodom_not_statusWord {f : Fld} (hf : f.off < 0x1000) : wordAt .ndodom f ∉ statusWords := by
  have outside : ∀ k ∈ statusWords, k < 0xE000 ∨ 0xF000 ≤ k := by decide
  intro hm
  have := outside _ hm
  simp only [wordAt, Blk.base] at this
  omega

theorem State.ndodom_fld_settled (s : State) {f : Fld} (hf : f.off < 0x1000) : s.settled.fld .ndodom f = s.fld .ndodom f :=
  s.settled_fld _ _ (ndodom_not_statusWord hf)

theorem State.ndodom_bit_settled (s : State) {f : Fld} (hf : f.off < 0x1000) : s.settled.bit .ndodom f = s.bit .ndodom f :=
  s.settled_bit _ _ (ndodom_not_statusWord hf)

theorem State.green_events_settled (s : State) : s.settled.fld .greenroom Reg.Hdr.EVENTS = s.fld .greenroom Reg.Hdr.EVENTS :=
  s.settled_fld _ _ (by decide)

theorem State.mayOpenIn_closed (s : State) {c : Nat} (h : openState c = false) : s.mayOpenIn c = false := by
  unfold State.mayOpenIn
  rw [h]
  rfl

/-! Waiting and deposition (R501) -/

/-- The twin's state of a unit that gives up rendering. -/
def TwinState.waiting (v : TwinState) : TwinState := { v with resync := none, journal := [], matched := 0 }

theorem State.toWait_shows (s : State) :
    let t := s.toWait
    t.tw = Tw.wait ∧ t.twin = s.twin.waiting ∧ t.bit .twin Reg.Twin.CLAIM_EGRESS_OPEN = false ∧
      ∀ b g, b.base + g.off < 0x10000 → (∀ w ∈ enterFields, FldApart w.1 w.2 b g) → t.fld b g = s.fld b g := by
  have ended := Turned.resyncEnds s Status.timeout
  obtain ⟨u, hu, words, twin⟩ : ∃ u : State, s.toWait = u.enter Tw.wait ∧ (∀ k, k < 0x10000 → u.actWord k = s.actWord k) ∧
      u.twin = s.twin.waiting := by
    unfold State.toWait
    generalize s.resyncEnds Status.timeout = r at ended
    have same : ({ r.twin with journal := [], matched := 0 } : TwinState) = s.twin.waiting := by
      rw [ended.twin]
      rfl
    refine ⟨_, rfl, fun k hk => ?_, ?_⟩
    · dsimp only
      split <;> exact ended.words k hk
    · dsimp only
      split <;> exact same
  rw [hu]
  have entered := u.enter_entered (c := Tw.wait) (by decide)
  refine ⟨entered.state, entered.twin.trans twin, entered.closes (u.mayOpenIn_closed rfl), fun b g hb hg => ?_⟩
  exact (entered.others b g hb hg).trans (State.fld_of_actWord (words _ hb))

/-- The fields that a deposition writes. -/
def deposedFields : List (Blk × Fld) := (.twin, Reg.Hdr.EVENTS) :: enterFields

theorem State.deposed_shows (s : State) :
    let t := s.deposed
    (t.tw = if s.tw = Tw.lockPri ∧ s.bit .ndodom Reg.Ndodom.STATUS_LINK = true then Tw.lockUnd else Tw.wait) ∧
      t.twin.won = s.twin.won ∧ t.twin.cycleAt = s.twin.cycleAt ∧ t.bit .twin Reg.Twin.CLAIM_EGRESS_OPEN = false ∧
      (t.fld .twin Reg.Hdr.EVENTS).testBit 6 = true ∧
      ∀ b g, b.base + g.off < 0x10000 → (∀ w ∈ deposedFields, FldApart w.1 w.2 b g) → t.fld b g = s.fld b g := by
  obtain ⟨u, hu, low⟩ : ∃ u, ((({ s with twin := { s.twin with byTake := false } } : State).joinEnds
      Status.timeout).handoverEnds) = u ∧ Turned s u { s.twin with byTake := false, join := none, handover := none } := by
    have first := (Turned.of s { s.twin with byTake := false }).trans (Turned.joinEnds _ Status.timeout 0 0)
    have second := first.trans (Turned.handoverEnds _)
    rw [first.twin] at second
    exact ⟨_, rfl, second⟩
  have choice : ∃ v : State, s.deposed = v.event .twin 6 ∧
      (v.tw = if s.tw = Tw.lockPri ∧ s.bit .ndodom Reg.Ndodom.STATUS_LINK = true then Tw.lockUnd else Tw.wait) ∧
      v.twin.won = s.twin.won ∧ v.twin.cycleAt = s.twin.cycleAt ∧ v.bit .twin Reg.Twin.CLAIM_EGRESS_OPEN = false ∧
      ∀ b g, b.base + g.off < 0x10000 → (∀ w ∈ enterFields, FldApart w.1 w.2 b g) → v.fld b g = s.fld b g := by
    unfold State.deposed
    dsimp only
    rw [hu]
    refine ⟨_, rfl, ?_⟩
    by_cases lock : s.tw = Tw.lockPri ∧ s.bit .ndodom Reg.Ndodom.STATUS_LINK = true
    · have entered := u.enter_entered (c := Tw.lockUnd) (by decide)
      have twin := entered.twin.trans low.twin
      rw [if_pos (by rw [Bool.and_eq_true, decide_eq_true_eq]; exact lock), if_pos lock]
      exact ⟨entered.state, (congrArg TwinState.won twin :), (congrArg TwinState.cycleAt twin :), entered.closes (u.mayOpenIn_closed rfl),
        fun b g hb hg => (entered.others b g hb hg).trans (low.fld hb)⟩
    · obtain ⟨state, twin, closed, others⟩ := u.toWait_shows
      rw [if_neg (by rw [Bool.and_eq_true, decide_eq_true_eq]; exact lock), if_neg lock]
      rw [low.twin] at twin
      exact ⟨state, (congrArg TwinState.won twin :), (congrArg TwinState.cycleAt twin :), closed,
        fun b g hb hg => (others b g hb hg).trans (low.fld hb)⟩
  obtain ⟨v, hv, state, won, cycle, closed, others⟩ := choice
  rw [hv]
  refine ⟨(State.fld_event_apart _ _ _ (by decide)).trans state, ?_, ?_, ?_, v.event_recorded _ (by decide), fun b g hb hg => ?_⟩
  · rw [State.event_twin, won]
  · rw [State.event_twin, cycle]
  · rw [State.bit_event_apart _ _ _ (by decide), closed]
  · exact (v.fld_event_other 6 (hg _ List.mem_cons_self)).trans (others b g hb (fun w hw => hg w (List.mem_cons_of_mem _ hw)))

/-! CFG.MODE (R478, R506) -/

/-- A new mode outside an attached pair takes force (R478). -/
theorem State.modeSet_shows (s : State) :
    let t := s.modeSet
    let m := s.fld .twin Reg.Twin.CFG_MODE
    (s.attached = true ∨ m = s.twin.mode → t = s) ∧
      (s.attached = false → m ≠ s.twin.mode → t.twin.mode = m ∧ t.tw = if m = 0 then Tw.off
        else if s.twin.mode = 0 then (if s.bit .twin Reg.Twin.TWINID then Tw.wait else Tw.alone) else s.tw) ∧
      ∀ b g, b.base + g.off < 0x10000 → (∀ w ∈ enterFields, FldApart w.1 w.2 b g) → t.fld b g = s.fld b g := by
  have whole (stays : s.attached = true ∨ s.fld .twin Reg.Twin.CFG_MODE = s.twin.mode) : s.modeSet = s :=
    if_pos (by rw [Bool.or_eq_true, decide_eq_true_eq]; exact stays)
  obtain ⟨u, hu, low⟩ : ∃ u : State, { s with twin := { s.twin with mode := s.fld .twin Reg.Twin.CFG_MODE } } = u ∧
      Turned s u { s.twin with mode := s.fld .twin Reg.Twin.CFG_MODE } := ⟨_, rfl, .of s _⟩
  have acts (moves : ¬ (s.attached = true ∨ s.fld .twin Reg.Twin.CFG_MODE = s.twin.mode)) :
      s.modeSet = if s.fld .twin Reg.Twin.CFG_MODE = 0 then (u.enter Tw.off).egGate
        else if s.twin.mode = 0 then u.enter (if u.bit .twin Reg.Twin.TWINID then Tw.wait else Tw.alone) else u := by
    rw [← hu]
    exact if_neg (by rw [Bool.or_eq_true, decide_eq_true_eq]; exact moves)
  by_cases stays : s.attached = true ∨ s.fld .twin Reg.Twin.CFG_MODE = s.twin.mode
  · rw [whole stays]
    refine ⟨fun _ => rfl, fun lone other => ?_, fun _ _ _ _ => rfl⟩
    rcases stays with joined | same
    · rw [lone] at joined
      exact nomatch joined
    · exact absurd same other
  · rw [acts stays]
    have id_ : u.bit .twin Reg.Twin.TWINID = s.bit .twin Reg.Twin.TWINID := low.bit (by decide)
    have mode : u.twin.mode = s.fld .twin Reg.Twin.CFG_MODE := congrArg TwinState.mode low.twin
    refine ⟨fun yes => absurd yes stays, fun _ _ => ?_, fun b g hb hg => ?_⟩
    · by_cases off : s.fld .twin Reg.Twin.CFG_MODE = 0
      · have entered := u.enter_entered (c := Tw.off) (by decide)
        obtain ⟨turned, -⟩ := State.gateView_of (State.egGate_view (u.enter Tw.off))
        rw [if_pos off, if_pos off]
        exact ⟨(congrArg TwinState.mode (turned.twin.trans entered.twin)).trans mode, turned.tw.trans entered.state⟩
      · rw [if_neg off, if_neg off]
        by_cases was : s.twin.mode = 0
        · rw [if_pos was, if_pos was, id_]
          have entered := u.enter_entered (c := if s.bit .twin Reg.Twin.TWINID then Tw.wait else Tw.alone) (by split <;> decide)
          exact ⟨(congrArg TwinState.mode entered.twin).trans mode, entered.state⟩
        · rw [if_neg was, if_neg was]
          exact ⟨mode, low.tw⟩
    · split
      · obtain ⟨turned, -⟩ := State.gateView_of (State.egGate_view (u.enter Tw.off))
        exact (turned.fld hb).trans (((u.enter_entered (c := Tw.off) (by decide)).others b g hb hg).trans (low.fld hb))
      · split
        · exact ((u.enter_entered (c := if u.bit .twin Reg.Twin.TWINID then Tw.wait else Tw.alone)
            (by split <;> decide)).others b g hb hg).trans (low.fld hb)
        · exact low.fld hb

section
variable {s : State} {m : Nat}

theorem mode_answers_refused (h : 3 ≤ m ∨ (m = 2 ∧ s.model.lockstep = false)) (first : s.bit .twin Reg.Hdr.ERR_VALID = false) :
    Answers (.mode m) s (fun t => t.fld .twin Reg.Hdr.ERR_REASON = (if 3 ≤ m then eEncoding else eAbsent) ∧
      OnlyWords s t [wordAt .twin Reg.Hdr.ERR_VALID]) := by
  have logs (r : Nat) (hr : r < 256) (runs : exec (.mode m) s = settle (s.logErr .twin 0x40 r 0))
      (hm : (if 3 ≤ m then eEncoding else eAbsent) = r) : Answers (.mode m) s (fun t =>
        t.fld .twin Reg.Hdr.ERR_REASON = (if 3 ≤ m then eEncoding else eAbsent) ∧ OnlyWords s t [wordAt .twin Reg.Hdr.ERR_VALID]) := by
    refine .of_settle runs ⟨?_, (s.logErr_only .twin 0x40 r 0).settled⟩
    rw [State.twin_fld_settled _ (by decide) (by decide), hm]
    exact (s.logErr_first .twin first hr).2.1
  by_cases three : 3 ≤ m
  · exact logs 4 (by decide) (congrArg settle (if_pos three)) (if_pos three)
  · have absent : (decide (m = 2) && !s.model.lockstep) = true := by
      obtain ⟨two, no⟩ := h.resolve_left three
      rw [two, no]
      rfl
    exact logs 1 (by decide) (congrArg settle ((if_neg three).trans (if_pos absent))) (if_neg three)

theorem exec_mode_legal (h : m < 2 ∨ (m = 2 ∧ s.model.lockstep = true)) :
    exec (.mode m) s = settle (s.setBoth .twin Reg.Twin.CFG_MODE m).modeSet := by
  have few : ¬ 3 ≤ m := by omega
  have there : ¬ (decide (m = 2) && !s.model.lockstep) = true := by
    rw [Bool.and_eq_true, decide_eq_true_eq, Bool.not_eq_true']
    rintro ⟨two, no⟩
    rcases h with less | ⟨-, yes⟩
    · omega
    · rw [no] at yes
      exact nomatch yes
  exact congrArg settle ((if_neg few).trans (if_neg there))

theorem mode_answers (h : m < 2 ∨ (m = 2 ∧ s.model.lockstep = true)) :
    (s.attached = true ∨ m = s.twin.mode → Answers (.mode m) s (fun t => t.fld .twin Reg.Twin.CFG_MODE = m ∧
      t.twin = s.twin ∧ t.tw = s.tw)) ∧
    (s.attached = false → m ≠ s.twin.mode → Answers (.mode m) s (fun t => t.fld .twin Reg.Twin.CFG_MODE = m ∧
      t.twin.mode = m ∧ t.tw = if m = 0 then Tw.off
        else if s.twin.mode = 0 then (if s.bit .twin Reg.Twin.TWINID then Tw.wait else Tw.alone) else s.tw)) := by
  have runs := exec_mode_legal h
  obtain ⟨u, hu⟩ : ∃ u, s.setBoth .twin Reg.Twin.CFG_MODE m = u := ⟨_, rfl⟩
  have mode : u.fld .twin Reg.Twin.CFG_MODE = m := by
    rw [← hu]
    exact (State.fld_setBoth_same _ _ _ ⟨by decide, by decide⟩).trans
      (Nat.mod_eq_of_lt (by rw [show Reg.Twin.CFG_MODE.width = 2 from rfl]; omega))
  have twin : u.twin = s.twin := by
    rw [← hu]
    rfl
  have tw : u.tw = s.tw := by
    rw [← hu]
    exact State.fld_setBoth_apart _ _ _ (by decide)
  have id_ : u.bit .twin Reg.Twin.TWINID = s.bit .twin Reg.Twin.TWINID := by
    rw [← hu]
    exact State.bit_setBoth_apart _ _ _ (by decide)
  have attached : u.attached = s.attached := by
    unfold State.attached
    rw [tw]
  rw [hu] at runs
  obtain ⟨whole, acts, others⟩ := u.modeSet_shows
  rw [mode, twin, attached] at whole
  rw [mode, twin, attached, tw, id_] at acts
  have shown : u.modeSet.fld .twin Reg.Twin.CFG_MODE = m := (others _ _ (by decide) (by decide)).trans mode
  refine ⟨fun stays => ?_, fun lone other => ?_⟩
  · rw [whole stays] at runs
    refine .of_settle runs ⟨?_, ?_, ?_⟩
    · rw [State.twin_fld_settled _ (by decide) (by decide), mode]
    · rw [State.settled_twin, twin]
    · rw [State.tw_settled, tw]
  · obtain ⟨now, state⟩ := acts lone other
    refine .of_settle runs ⟨?_, ?_, ?_⟩
    · rw [State.twin_fld_settled _ (by decide) (by decide), shown]
    · rw [State.settled_twin, now]
    · rw [State.tw_settled, state]

end

end Sys2Proof.Machine
end

section
/-! PROOFS. Claim cycles and their timeout (R480, R481). -/

namespace Sys2Proof.Machine

open Sys2Proof

/-- The fields that a change of CLAIM_SEEN writes. -/
def seenFields : List (Blk × Fld) := [(.twin, Reg.Twin.CLAIM_SEEN), (.greenroom, Reg.Hdr.EVENTS)]

theorem State.seen_shows (s : State) (v : Nat) :
    let t := s.seen v
    t.twin = s.twin ∧ t.render = s.render ∧ t.fld .twin Reg.Twin.CLAIM_SEEN = v % 256 ∧
      (s.fld .twin Reg.Twin.CLAIM_SEEN ≠ v → (t.fld .greenroom Reg.Hdr.EVENTS).testBit 7 = true) ∧ Writes s t seenFields := by
  unfold State.seen
  split
  · next same =>
    have small : s.fld .twin Reg.Twin.CLAIM_SEEN < 256 := regGet_lt _ _ _ ⟨by decide, by decide⟩
    refine ⟨rfl, rfl, ?_, fun other => absurd same other, .refl _ _⟩
    omega
  · refine ⟨?_, ?_, ?_, fun _ => State.event_recorded _ _ (by decide), ?_⟩
    · rw [State.event_twin, State.set_twin]
    · rw [State.event_render, State.set_render]
    · exact (State.fld_event_other _ 7 (by decide)).trans (State.fld_set_same _ _ _ _ ⟨by decide, by decide⟩)
    · exact ((Writes.refl s seenFields).set (b := .twin) (f := Reg.Twin.CLAIM_SEEN) v (by simp [seenFields])).event
        (b := .greenroom) 7 (by simp [seenFields])

theorem Writes.fld {s t : State} {l : List (Blk × Fld)} (h : Writes s t l) (b : Blk) (f : Fld)
    (apart : ∀ w ∈ l, FldApart w.1 w.2 b f) : t.fld b f = s.fld b f := h b f apart

theorem Writes.bit {s t : State} {l : List (Blk × Fld)} (h : Writes s t l) (b : Blk) (f : Fld)
    (apart : ∀ w ∈ l, FldApart w.1 w.2 b f) : t.bit b f = s.bit b f := by
  unfold State.bit
  rw [h b f apart]

section
variable {s : State} {claim serial : Nat}

/-- A claim cycle that the unit's own word wins (R480). -/
abbrev State.winsCycle (s : State) (claim serial : Nat) : Prop := s.claim ≠ 0 ∧ arbWord claim serial ≤ s.ownWord

theorem claimCycle_won (hc : claim < 256) :
    (decide (s.claim ≠ 0) && decide (max s.ownWord (arbWord (claim % 256) serial) = s.ownWord)) =
      decide (s.winsCycle claim serial) := by
  have max_ : max s.ownWord (arbWord (claim % 256) serial) = s.ownWord ↔ arbWord claim serial ≤ s.ownWord := by
    rw [Nat.mod_eq_of_lt hc]
    exact max_eq_left_iff
  rw [← Bool.decide_and]
  exact decide_eq_decide.mpr (and_congr_right fun _ => max_)

/-- What CLAIM_SEEN reads after the cycle. -/
def State.cycleSeen (s : State) (claim serial : Nat) : Nat :=
  if s.claim = 0 ∧ claim = 0 then 0 else max s.ownWord (arbWord claim serial) / 2 ^ 16 % 256

/-- The state once the outcome of the cycle is noted. -/
theorem exec_claimCycle (hc : claim < 256) : ∃ u : State,
    exec (.claimCycle claim serial) s = settle (if (!decide (s.winsCycle claim serial) && openState u.tw && decide (u.tw ≠ Tw.taking)) = true
        then u.deposed
      else if (decide (s.winsCycle claim serial) && decide (u.tw ≠ Tw.taking)) = true then u.gateEgress.openEgress else u.gateEgress) ∧
      u.twin = { s.twin with won := decide (s.winsCycle claim serial), cycleAt := s.render.tick } ∧ u.render = s.render ∧
      u.fld .twin Reg.Twin.CLAIM_SEEN = s.cycleSeen claim serial ∧ Writes s u seenFields := by
  obtain ⟨v, hv⟩ : ∃ v, (if s.claim = 0 ∧ claim = 0 then 0 else max s.ownWord (arbWord claim serial) / 2 ^ 16) = v := ⟨_, rfl⟩
  have seen : v % 256 = s.cycleSeen claim serial := by
    unfold State.cycleSeen
    rw [← hv, apply_ite (· % 256)]
  obtain ⟨-, render, shows_, -, writes⟩ := s.seen_shows v
  have runs : exec (.claimCycle claim serial) s = execClaimCycle claim serial s := rfl
  have test : (s.claim = 0 && claim = 0 : Bool) = true ↔ s.claim = 0 ∧ claim = 0 := by
    rw [Bool.and_eq_true, decide_eq_true_eq, decide_eq_true_eq]
  refine ⟨{ (s.seen v) with twin := { s.twin with won := decide (s.winsCycle claim serial), cycleAt := s.render.tick } },
    ?_, rfl, render, shows_.trans seen, writes.trans (.of_act rfl)⟩
  rw [runs]
  unfold execClaimCycle
  dsimp only
  rw [claimCycle_won hc, Nat.mod_eq_of_lt hc]
  simp only [test, hv]

theorem claimCycle_answers (hc : claim < 256) :
    let w := Blk.twin
    let won := decide (s.winsCycle claim serial)
    Answers (.claimCycle claim serial) s (fun t => t.twin.won = won ∧ t.twin.cycleAt = s.render.tick ∧
      t.fld w Reg.Twin.CLAIM_SEEN = s.cycleSeen claim serial ∧
      (won = false → openState s.tw = true → s.tw ≠ Tw.taking → (t.fld w Reg.Hdr.EVENTS).testBit 6 = true ∧
        t.bit w Reg.Twin.CLAIM_EGRESS_OPEN = false ∧
        t.tw = if s.tw = Tw.lockPri ∧ s.bit .ndodom Reg.Ndodom.STATUS_LINK = true then Tw.lockUnd else Tw.wait) ∧
      (won = true → openState s.tw = true → s.tw ≠ Tw.taking → s.twin.tie = false → s.twin.barred = none →
        t.bit w Reg.Twin.CLAIM_EGRESS_OPEN = true ∧ t.tw = s.tw)) := by
  intro w won
  obtain ⟨u, runs, twin, render, seen, writes⟩ := exec_claimCycle (s := s) (serial := serial) hc
  have tw : u.tw = s.tw := writes.fld _ _ (by decide)
  have link : u.bit .ndodom Reg.Ndodom.STATUS_LINK = s.bit .ndodom Reg.Ndodom.STATUS_LINK := writes.bit _ _ (by decide)
  have won_ : u.twin.won = won := congrArg TwinState.won twin
  have cycle : u.twin.cycleAt = s.render.tick := congrArg TwinState.cycleAt twin
  rw [tw] at runs
  by_cases lost : won = false ∧ openState s.tw = true ∧ s.tw ≠ Tw.taking
  · obtain ⟨out, opens, other⟩ := lost
    obtain ⟨state, won2, cycle2, closed, told, others⟩ := u.deposed_shows
    have cond : (!won && openState s.tw && decide (s.tw ≠ Tw.taking)) = true := by
      rw [out, opens, decide_eq_true other]
      rfl
    rw [tw, link] at state
    refine .of_settle (runs.trans (congrArg settle (if_pos cond))) ⟨?_, ?_, ?_, fun _ _ _ => ⟨?_, ?_, ?_⟩, fun yes => ?_⟩
    · rw [State.settled_twin, won2, won_]
    · rw [State.settled_twin, cycle2, cycle]
    · rw [State.twin_fld_settled _ (by decide) (by decide), others _ _ (by decide) (by decide), seen]
    · rw [State.twin_fld_settled _ (by decide) (by decide)]
      exact told
    · rw [State.twin_bit_settled _ (by decide) (by decide), closed]
    · rw [State.tw_settled, state]
    · rw [out] at yes
      exact nomatch yes
  · have cond : ¬ (!won && openState s.tw && decide (s.tw ≠ Tw.taking)) = true := by
      rw [Bool.and_eq_true, Bool.and_eq_true, Bool.not_eq_true', decide_eq_true_eq]
      exact fun ⟨⟨out, opens⟩, other⟩ => lost ⟨out, opens, other⟩
    obtain ⟨gTwin, gRender, gBlock, gBeside, -, gIdle⟩ := u.gateEgress_shows
    obtain ⟨oTwin, oRender, oBeside, opened⟩ := u.gateEgress.openEgress_shows
    obtain ⟨t, runs, tTwin, beside, tOpens⟩ : ∃ t, exec (.claimCycle claim serial) s = settle t ∧ t.twin = u.twin ∧
        (∀ b g, BesideOpen b g → t.fld b g = u.fld b g) ∧
        (won = true → s.tw ≠ Tw.taking → u.mayOpen = true → t.bit w Reg.Twin.CLAIM_EGRESS_OPEN = true) := by
      rw [if_neg cond] at runs
      by_cases wins : (won && decide (s.tw ≠ Tw.taking)) = true
      · refine ⟨_, runs.trans (congrArg settle (if_pos wins)), oTwin.trans gTwin, fun b g h => (oBeside b g h).trans (gBeside b g h), ?_⟩
        exact fun _ _ may => opened ((congrArg State.mayOpen (gIdle may)).trans may)
      · refine ⟨_, runs.trans (congrArg settle (if_neg wins)), gTwin, gBeside, fun yes other => absurd ?_ wins⟩
        rw [yes, decide_eq_true other]
        rfl
    refine .of_settle runs ⟨?_, ?_, ?_, fun out opens other => absurd ⟨out, opens, other⟩ lost, fun yes opens other tie barred => ⟨?_, ?_⟩⟩
    · rw [State.settled_twin, tTwin, won_]
    · rw [State.settled_twin, tTwin, cycle]
    · rw [State.twin_fld_settled _ (by decide) (by decide), beside _ _ (by decide), seen]
    · rw [State.twin_bit_settled _ (by decide) (by decide)]
      refine tOpens yes other ?_
      have tie2 : u.twin.tie = false := (congrArg TwinState.tie twin).trans tie
      have barred2 : u.twin.barred = none := (congrArg TwinState.barred twin).trans barred
      unfold State.mayOpen
      rw [tw, opens, won_, yes, tie2, barred2]
      rfl
    · rw [State.tw_settled]
      exact (beside _ _ (by decide)).trans tw

end

theorem claimSeenTimeout_answers (s : State) :
    let passed := 100 * s.fs ≤ (s.render.tick + 1 - s.twin.cycleAt) * 1000000
    (passed → Answers .claimSeenTimeout s (fun t => t.fld .twin Reg.Twin.CLAIM_SEEN = 0 ∧
      (s.fld .twin Reg.Twin.CLAIM_SEEN ≠ 0 → (t.fld .greenroom Reg.Hdr.EVENTS).testBit 7 = true))) ∧
    (¬ passed → Answers .claimSeenTimeout s (OnlyWords s · [])) := by
  refine ⟨fun passed => ?_, fun early => Answers.unchanged (congrArg settle (if_neg early))⟩
  obtain ⟨-, -, shows_, told, -⟩ := s.seen_shows 0
  refine .of_settle (congrArg settle (if_pos passed)) ⟨?_, fun other => ?_⟩
  · rw [State.twin_fld_settled _ (by decide) (by decide)]
    exact shows_
  · rw [State.green_events_settled]
    exact told other

end Sys2Proof.Machine
end

section
/-! PROOFS. The link: presence, training, loss, lanes (R483, R484, R501). -/

namespace Sys2Proof.Machine

open Sys2Proof

/-- What a peer's disappearance leaves the unit in (R501). -/
def aloneOrWait (c : Nat) : Nat :=
  if c = Tw.joinPri ∨ c = Tw.coldPri ∨ c = Tw.lockPri then Tw.alone
  else if c = Tw.coldUnd ∨ c = Tw.ship ∨ c = Tw.replay then Tw.wait else c

/-- The words below the seats' pages stay but for `l`. -/
def LowStays (l : List (Blk × Fld)) (s t : State) : Prop :=
  ∀ b g, b.base + g.off < 0x10000 → (∀ w ∈ l, FldApart w.1 w.2 b g) → t.fld b g = s.fld b g

theorem LowStays.trans {l : List (Blk × Fld)} {s t u : State} (h : LowStays l s t) (k : LowStays l t u) : LowStays l s u :=
  fun b g hb hg => (k b g hb hg).trans (h b g hb hg)

theorem LowStays.mono {l m : List (Blk × Fld)} {s t : State} (h : LowStays l s t) (sub : ∀ w ∈ l, w ∈ m) : LowStays m s t :=
  fun b g hb hg => h b g hb fun w hw => hg w (sub w hw)

theorem LowStays.bit {l : List (Blk × Fld)} {s t : State} (h : LowStays l s t) {b : Blk} {g : Fld} (hb : b.base + g.off < 0x10000)
    (hg : ∀ w ∈ l, FldApart w.1 w.2 b g) : t.bit b g = s.bit b g := by
  unfold State.bit
  rw [h b g hb hg]

theorem Turned.low {s t : State} {v : TwinState} (h : Turned s t v) (l : List (Blk × Fld)) : LowStays l s t :=
  fun _ _ hb _ => h.fld hb

theorem Writes.low {s t : State} {l : List (Blk × Fld)} (h : Writes s t l) : LowStays l s t := fun b g _ hg => h b g hg

theorem Entered.low {s t : State} {c : Nat} (h : Entered s t c) : LowStays enterFields s t := h.others

theorem State.peerGone_shows (s : State) :
    let t := s.peerGone
    t.tw = aloneOrWait s.tw ∧ t.twin.peerpres = s.twin.peerpres ∧ LowStays enterFields s t := by
  have ended := Turned.handoverEnds s
  unfold State.peerGone aloneOrWait
  dsimp only
  generalize s.handoverEnds = u at ended
  have alone := u.enter_entered (c := Tw.alone) (by decide)
  have presence : u.twin.peerpres = s.twin.peerpres := (congrArg TwinState.peerpres ended.twin :)
  by_cases joining : s.tw = Tw.joinPri
  · have done := Turned.joinEnds (u.enter Tw.alone) Status.timeout 0 0
    rw [if_pos joining, if_pos (.inl joining)]
    exact ⟨done.tw.trans alone.state, (congrArg TwinState.peerpres (done.twin)).trans
      ((congrArg TwinState.peerpres alone.twin).trans presence), ((ended.low _).trans alone.low).trans (done.low _)⟩
  · by_cases leads : s.tw = Tw.coldPri ∨ s.tw = Tw.lockPri
    · rw [if_neg joining, if_pos (by rw [Bool.or_eq_true, decide_eq_true_eq, decide_eq_true_eq]; exact leads), if_pos (.inr leads)]
      exact ⟨alone.state, (congrArg TwinState.peerpres alone.twin).trans presence, (ended.low _).trans alone.low⟩
    · rw [if_neg joining, if_neg (by rw [Bool.or_eq_true, decide_eq_true_eq, decide_eq_true_eq]; exact leads),
        if_neg (not_or.mpr ⟨joining, leads⟩)]
      by_cases waits : s.tw = Tw.coldUnd ∨ s.tw = Tw.ship ∨ s.tw = Tw.replay
      · obtain ⟨state, twin, -, others⟩ := u.toWait_shows
        rw [if_pos (by simp only [Bool.or_eq_true, decide_eq_true_eq, or_assoc]; exact waits), if_pos waits]
        exact ⟨state, (congrArg TwinState.peerpres twin).trans presence, (ended.low _).trans others⟩
      · rw [if_neg (by simp only [Bool.or_eq_true, decide_eq_true_eq, or_assoc]; exact waits), if_neg waits]
        exact ⟨ended.tw, presence, ended.low _⟩

/-! Training -/

/-- The fields that the loss of the link writes. -/
def linkFields : List (Blk × Fld) := [(.ndodom, Reg.Ndodom.STATUS_LINK), (.ndodom, Reg.Ndodom.STATUS_LANES_UP),
  (.ndodom, Reg.Ndodom.STATUS_TRAINING), (.ndodom, Reg.Ndodom.LINK_DOWNS), (.ndodom, Reg.Hdr.EVENTS)] ++ enterFields

theorem State.training_writes (s : State) : Writes s s.training [(.ndodom, Reg.Ndodom.STATUS_TRAINING)] :=
  (Writes.refl s _).set (b := .ndodom) (f := Reg.Ndodom.STATUS_TRAINING) _ List.mem_cons_self

theorem bit_setBit (s : State) {b : Blk} {f : Fld} (v : Bool) (hf : Fits f) (one : f.width = 1) : (s.setBit b f v).bit b f = v :=
  State.bit_setBit_same s b f v hf one

theorem State.training_bit (s : State) : s.training.bit .ndodom Reg.Ndodom.STATUS_TRAINING =
    (s.twin.peerpres && s.bit .ndodom Reg.Ndodom.CFG_EN && !s.bit .ndodom Reg.Ndodom.STATUS_LINK) :=
  bit_setBit _ _ ⟨by decide, by decide⟩ rfl

/-- A link that is up is lost (R484). -/
theorem State.linkLost_shows (s : State) (up : s.bit .ndodom Reg.Ndodom.STATUS_LINK = true) :
    let t := s.linkLost
    t.bit .ndodom Reg.Ndodom.STATUS_LINK = false ∧ t.fld .ndodom Reg.Ndodom.STATUS_LANES_UP = 0 ∧
      t.bit .ndodom Reg.Ndodom.STATUS_TRAINING = (s.twin.peerpres && s.bit .ndodom Reg.Ndodom.CFG_EN) ∧
      (t.fld .ndodom Reg.Hdr.EVENTS).testBit 1 = true ∧
      t.fld .ndodom Reg.Ndodom.LINK_DOWNS = (s.fld .ndodom Reg.Ndodom.LINK_DOWNS + 1) % 2 ^ 32 ∧
      t.tw = aloneOrWait s.tw ∧ t.twin.peerpres = s.twin.peerpres ∧ LowStays linkFields s t := by
  obtain ⟨a, ha⟩ : ∃ a, (s.set .ndodom Reg.Ndodom.STATUS_LINK 0).set .ndodom Reg.Ndodom.STATUS_LANES_UP 0 = a := ⟨_, rfl⟩
  obtain ⟨u, hu⟩ : ∃ u, (a.training.count .ndodom Reg.Ndodom.LINK_DOWNS).event .ndodom 1 = u := ⟨_, rfl⟩
  have lost : s.linkLost = ({ u with twin := { u.twin with out := [] } } : State).peerGone := by
    unfold State.linkLost
    rw [if_pos up, ← hu, ← ha]
  have aLink : a.bit .ndodom Reg.Ndodom.STATUS_LINK = false := by
    rw [← ha, State.bit_set_apart _ _ _ (by decide)]
    exact State.bit_set_zero _ _ ⟨by decide, by decide⟩ rfl
  have aLanes : a.fld .ndodom Reg.Ndodom.STATUS_LANES_UP = 0 := by
    rw [← ha]
    exact State.fld_set_same _ _ _ _ ⟨by decide, by decide⟩
  have aWrites : Writes s a [(.ndodom, Reg.Ndodom.STATUS_LINK), (.ndodom, Reg.Ndodom.STATUS_LANES_UP)] := by
    rw [← ha]
    exact ((Writes.refl s _).set (b := .ndodom) (f := Reg.Ndodom.STATUS_LINK) 0 (by simp)).set (b := .ndodom)
      (f := Reg.Ndodom.STATUS_LANES_UP) 0 (by simp)
  have aTwin : a.twin = s.twin := by
    rw [← ha]
    rfl
  have trained := a.training_bit
  have aEn : a.bit .ndodom Reg.Ndodom.CFG_EN = s.bit .ndodom Reg.Ndodom.CFG_EN := aWrites.bit _ _ (by decide)
  rw [aTwin, aLink, Bool.not_false, Bool.and_true, aEn] at trained
  have tWrites := a.training_writes
  have tTwin : a.training.twin = s.twin := aTwin
  generalize a.training = b at *
  have uWrites : Writes b u [(.ndodom, Reg.Ndodom.LINK_DOWNS), (.ndodom, Reg.Hdr.EVENTS)] := by
    rw [← hu]
    exact ((Writes.refl b [(.ndodom, Reg.Ndodom.LINK_DOWNS), (.ndodom, Reg.Hdr.EVENTS)]).count (b := .ndodom)
      (f := Reg.Ndodom.LINK_DOWNS) 1 List.mem_cons_self).event (b := .ndodom) 1 (by simp)
  have whole : Writes s u linkFields :=
    ((aWrites.mono (by simp [linkFields])).trans (tWrites.mono (by simp [linkFields]))).trans (uWrites.mono (by simp [linkFields]))
  have counted : u.fld .ndodom Reg.Ndodom.LINK_DOWNS = (s.fld .ndodom Reg.Ndodom.LINK_DOWNS + 1) % 2 ^ 32 := by
    rw [← hu, State.fld_event_other _ 1 (by decide), State.fld_count_same _ _ ⟨by decide, by decide⟩,
      tWrites.fld _ _ (by decide), aWrites.fld _ _ (by decide)]
    rfl
  have told : (u.fld .ndodom Reg.Hdr.EVENTS).testBit 1 = true := by
    rw [← hu]
    exact State.event_recorded _ _ (by decide)
  have uTwin : u.twin = s.twin := by
    rw [← hu, State.event_twin]
    exact tTwin
  obtain ⟨state, presence, stays⟩ := ({ u with twin := { u.twin with out := [] } } : State).peerGone_shows
  have link : u.bit .ndodom Reg.Ndodom.STATUS_LINK = false := by
    rw [uWrites.bit _ _ (by decide), tWrites.bit _ _ (by decide), aLink]
  have lanes : u.fld .ndodom Reg.Ndodom.STATUS_LANES_UP = 0 := by
    rw [uWrites.fld _ _ (by decide), tWrites.fld _ _ (by decide), aLanes]
  have training : u.bit .ndodom Reg.Ndodom.STATUS_TRAINING = (s.twin.peerpres && s.bit .ndodom Reg.Ndodom.CFG_EN) := by
    rw [uWrites.bit _ _ (by decide), trained]
  have low : LowStays enterFields u s.linkLost := by
    rw [lost]
    exact stays
  have tw : u.tw = s.tw :=
    (uWrites.fld _ _ (by decide)).trans ((tWrites.fld _ _ (by decide)).trans (aWrites.fld _ _ (by decide)))
  have low2 : LowStays linkFields s s.linkLost := whole.low.trans (low.mono fun w hw => List.mem_append_right _ hw)
  refine ⟨(low.bit (by decide) (by decide)).trans link, (low _ _ (by decide) (by decide)).trans lanes,
    (low.bit (by decide) (by decide)).trans training, ?_, (low _ _ (by decide) (by decide)).trans counted, ?_, ?_, low2⟩
  · rw [low _ _ (by decide) (by decide)]
    exact told
  · rw [lost]
    exact state.trans (congrArg aloneOrWait tw)
  · rw [lost]
    exact presence.trans (congrArg TwinState.peerpres uTwin :)

theorem ndodomDown_answers (s : State) (up : s.bit .ndodom Reg.Ndodom.STATUS_LINK = true) :
    Answers .ndodomDown s (fun t => t.bit .ndodom Reg.Ndodom.STATUS_LINK = false ∧
      t.fld .ndodom Reg.Ndodom.STATUS_LANES_UP = 0 ∧ (t.fld .ndodom Reg.Hdr.EVENTS).testBit 1 = true ∧
      t.fld .ndodom Reg.Ndodom.LINK_DOWNS = (s.fld .ndodom Reg.Ndodom.LINK_DOWNS + 1) % 2 ^ 32 ∧ t.tw = aloneOrWait s.tw) := by
  obtain ⟨link, lanes, -, told, counted, state, -⟩ := s.linkLost_shows up
  refine .of_settle rfl ⟨?_, ?_, ?_, ?_, ?_⟩
  · rw [State.ndodom_bit_settled _ (by decide), link]
  · rw [State.ndodom_fld_settled _ (by decide), lanes]
  · rw [State.ndodom_fld_settled _ (by decide)]
    exact told
  · rw [State.ndodom_fld_settled _ (by decide), counted]
  · rw [State.tw_settled, state]

theorem peerpresChange_answers (s : State) (low : Bool) (moves : s.twin.peerpres ≠ low) :
    Answers (.peerpresChange low) s (fun t => t.twin.peerpres = low ∧
      t.bit .twin Reg.Twin.PEERPRES = low ∧ (t.fld .greenroom Reg.Hdr.EVENTS).testBit 6 = true ∧
      (low = true → t.bit .ndodom Reg.Ndodom.STATUS_TRAINING =
        (s.bit .ndodom Reg.Ndodom.CFG_EN && !s.bit .ndodom Reg.Ndodom.STATUS_LINK)) ∧
      (low = false → t.bit .ndodom Reg.Ndodom.STATUS_LINK = false ∧ t.bit .ndodom Reg.Ndodom.STATUS_TRAINING = false)) := by
  obtain ⟨u, hu⟩ : ∃ u, (({ s with twin := { s.twin with peerpres := low } } : State).setBit .twin Reg.Twin.PEERPRES low).event
      .greenroom 6 = u := ⟨_, rfl⟩
  have runs : exec (.peerpresChange low) s = settle (if low then u.training else u.linkLost).egGate := by
    rw [← hu]
    exact congrArg settle (if_neg moves)
  have writes : Writes s u [(.twin, Reg.Twin.PEERPRES), (.greenroom, Reg.Hdr.EVENTS)] := by
    rw [← hu]
    exact ((Writes.of_act (s := s) (t := { s with twin := { s.twin with peerpres := low } }) rfl).set (b := .twin)
      (f := Reg.Twin.PEERPRES) (if low then 1 else 0) List.mem_cons_self).event (b := .greenroom) 6 (by simp)
  have presence : u.twin.peerpres = low := by
    rw [← hu, State.event_twin]
    rfl
  have shown : u.bit .twin Reg.Twin.PEERPRES = low := by
    rw [← hu]
    unfold State.bit
    rw [State.fld_event_other _ 6 (by decide)]
    exact bit_setBit _ _ ⟨by decide, by decide⟩ rfl
  have told : (u.fld .greenroom Reg.Hdr.EVENTS).testBit 6 = true := by
    rw [← hu]
    exact State.event_recorded _ _ (by decide)
  have en : u.bit .ndodom Reg.Ndodom.CFG_EN = s.bit .ndodom Reg.Ndodom.CFG_EN := writes.bit _ _ (by decide)
  have link : u.bit .ndodom Reg.Ndodom.STATUS_LINK = s.bit .ndodom Reg.Ndodom.STATUS_LINK := writes.bit _ _ (by decide)
  obtain ⟨v, runs, vPresence, stays, trains, drops⟩ : ∃ v : State, exec (.peerpresChange low) s = settle v.egGate ∧
      v.twin.peerpres = low ∧ LowStays linkFields u v ∧ (low = true → v.bit .ndodom Reg.Ndodom.STATUS_TRAINING =
        (s.bit .ndodom Reg.Ndodom.CFG_EN && !s.bit .ndodom Reg.Ndodom.STATUS_LINK)) ∧
      (low = false → v.bit .ndodom Reg.Ndodom.STATUS_LINK = false ∧ v.bit .ndodom Reg.Ndodom.STATUS_TRAINING = false) := by
    have trained := u.training_bit
    rw [presence, en, link] at trained
    have writes := u.training_writes
    cases low with
    | true =>
      refine ⟨u.training, runs, presence, (writes.mono (by simp [linkFields])).low, fun _ => trained, fun no => nomatch no⟩
    | false =>
      refine ⟨u.linkLost, runs, ?_⟩
      by_cases up : u.bit .ndodom Reg.Ndodom.STATUS_LINK = true
      · obtain ⟨down, -, trains, -, -, -, kept, stays⟩ := u.linkLost_shows up
        rw [presence] at trains
        exact ⟨kept.trans presence, stays, fun no => (nomatch no), fun _ => ⟨down, trains⟩⟩
      · have same : u.linkLost = u.training := if_neg up
        rw [same]
        refine ⟨presence, (writes.mono (by simp [linkFields])).low, fun no => (nomatch no), fun _ => ⟨?_, trained⟩⟩
        rw [writes.bit _ _ (by decide)]
        exact Bool.eq_false_iff.mpr up
  obtain ⟨turned, -⟩ := State.gateView_of (State.egGate_view v)
  refine .of_settle runs ⟨?_, ?_, ?_, fun rises => ?_, fun falls => ⟨?_, ?_⟩⟩
  · rw [State.settled_twin, turned.twin, vPresence]
  · rw [State.twin_bit_settled _ (by decide) (by decide), turned.bit (by decide), stays.bit (by decide) (by decide), shown]
  · rw [State.green_events_settled, turned.fld (by decide), stays _ _ (by decide) (by decide)]
    exact told
  · rw [State.ndodom_bit_settled _ (by decide), turned.bit (by decide), trains rises]
  · rw [State.ndodom_bit_settled _ (by decide), turned.bit (by decide), (drops falls).1]
  · rw [State.ndodom_bit_settled _ (by decide), turned.bit (by decide), (drops falls).2]

/-! Training ends (R484) -/

/-- The fields that a unit's identity tells. -/
def identityFields : List (Blk × Fld) := [(.device, Reg.Device.VARIANT_CODE), (.device, Reg.Device.VARIANT_STEPPING),
  (.device, Reg.Device.FW_RELEASE_MINOR), (.device, Reg.Device.FW_RELEASE_MAJOR), (.device, Reg.Device.FW_RELEASE_BUILD),
  (.twin, Reg.Twin.CFG_MODE), (.render, Reg.Render.CFG_RATE), (.render, Reg.Render.CFG_BLOCK)]

theorem State.identity_of {s t : State} (h : ∀ w ∈ identityFields, t.fld w.1 w.2 = s.fld w.1 w.2) : t.identity = s.identity := by
  have same (b : Blk) (f : Fld) (hm : (b, f) ∈ identityFields) : t.fld b f = s.fld b f := h (b, f) hm
  unfold State.identity State.variantWord State.releaseWord
  rw [same .device Reg.Device.VARIANT_CODE (by simp [identityFields]), same .device Reg.Device.VARIANT_STEPPING (by simp [identityFields]),
    same .device Reg.Device.FW_RELEASE_MINOR (by simp [identityFields]),
    same .device Reg.Device.FW_RELEASE_MAJOR (by simp [identityFields]),
    same .device Reg.Device.FW_RELEASE_BUILD (by simp [identityFields]), same .twin Reg.Twin.CFG_MODE (by simp [identityFields]),
    same .render Reg.Render.CFG_RATE (by simp [identityFields]), same .render Reg.Render.CFG_BLOCK (by simp [identityFields])]

/-- The fields that the end of training writes. -/
def upFields : List (Blk × Fld) := [(.ndodom, Reg.Ndodom.STATUS_LINK), (.ndodom, Reg.Ndodom.STATUS_LANES_UP),
  (.ndodom, Reg.Ndodom.STATUS_TRAINING), (.ndodom, Reg.Ndodom.LATENCY), (.ndodom, Reg.Hdr.EVENTS)]

theorem upFields_identity {s t : State} (h : Writes s t upFields) : t.identity = s.identity := by
  have apart : ∀ w ∈ identityFields, ∀ x ∈ upFields, FldApart x.1 x.2 w.1 w.2 := by decide
  exact State.identity_of fun w hw => h w.1 w.2 (apart w hw)

theorem ndodomUp_answers (s : State) (lanes latency : Nat) :
    let n := Blk.ndodom
    let up := lanes &&& s.fld n Reg.Ndodom.CFG_LANE_EN
    (s.bit n Reg.Ndodom.STATUS_TRAINING = true → up ≠ 0 → Answers (.ndodomUp lanes latency) s (fun t =>
      t.bit n Reg.Ndodom.STATUS_LINK = true ∧ t.fld n Reg.Ndodom.STATUS_LANES_UP = up ∧
      t.bit n Reg.Ndodom.STATUS_TRAINING = false ∧ t.fld n Reg.Ndodom.LATENCY = min latency 65535 ∧
      (t.fld n Reg.Hdr.EVENTS).testBit 0 = true ∧ t.twin.out = [s.identity])) ∧
    (s.bit n Reg.Ndodom.STATUS_TRAINING = false ∨ up = 0 → Answers (.ndodomUp lanes latency) s (OnlyWords s · [])) := by
  intro n up
  have few : up < 2 ^ 2 := lt_of_le_of_lt Nat.and_le_right (regGet_lt _ _ _ ⟨by decide, by decide⟩)
  refine ⟨fun trains some_ => ?_, fun idle => Answers.unchanged (congrArg settle (if_neg ?_))⟩
  · obtain ⟨a, ha⟩ : ∃ a, (s.set n Reg.Ndodom.STATUS_LINK 1).set n Reg.Ndodom.STATUS_LANES_UP up = a := ⟨_, rfl⟩
    have aWrites : Writes s a upFields := by
      rw [← ha]
      exact ((Writes.refl s upFields).set (b := n) (f := Reg.Ndodom.STATUS_LINK) 1 (by simp [upFields, n])).set (b := n)
        (f := Reg.Ndodom.STATUS_LANES_UP) up (by simp [upFields, n])
    have aLink : a.bit n Reg.Ndodom.STATUS_LINK = true := by
      rw [← ha, State.bit_set_apart _ _ _ (by decide)]
      exact State.bit_set_one _ _ ⟨by decide, by decide⟩ rfl
    have aLanes : a.fld n Reg.Ndodom.STATUS_LANES_UP = up := by
      rw [← ha]
      exact State.fld_set_fit _ _ (by decide) (by decide) few
    have trained := a.training_bit
    rw [aLink, Bool.not_true, Bool.and_false] at trained
    have tWrites := a.training_writes
    obtain ⟨u, hu⟩ : ∃ u, (a.training.set n Reg.Ndodom.LATENCY (min latency 65535)).event n 0 = u := ⟨_, rfl⟩
    have runs : exec (.ndodomUp lanes latency) s =
        settle (({ u with twin := { u.twin with out := [] } } : State).toPeer u.identity) := by
      have cond : (s.bit n Reg.Ndodom.STATUS_TRAINING && decide (up ≠ 0)) = true := by
        rw [Bool.and_eq_true, decide_eq_true_eq]
        exact ⟨trains, some_⟩
      have body : exec (.ndodomUp lanes latency) s = execNdodomUp lanes latency s := rfl
      rw [body]
      unfold execNdodomUp
      dsimp only
      rw [if_pos cond, ha, hu]
    generalize a.training = b at *
    have bWrites : Writes b u [(.ndodom, Reg.Ndodom.LATENCY), (.ndodom, Reg.Hdr.EVENTS)] := by
      rw [← hu]
      exact ((Writes.refl b [(.ndodom, Reg.Ndodom.LATENCY), (.ndodom, Reg.Hdr.EVENTS)]).set (b := n) (f := Reg.Ndodom.LATENCY) _
        List.mem_cons_self).event (b := n) 0 (by simp [n])
    have latency_ : u.fld n Reg.Ndodom.LATENCY = min latency 65535 := by
      rw [← hu, State.fld_event_other _ 0 (by decide)]
      exact State.fld_set_fit _ _ (by decide) (by decide) (by show _ < 65536; omega)
    have told : (u.fld n Reg.Hdr.EVENTS).testBit 0 = true := by
      rw [← hu]
      exact State.event_recorded _ _ (by decide)
    have whole : Writes s u upFields := (aWrites.trans (tWrites.mono (by simp [upFields]))).trans (bWrites.mono (by simp [upFields]))
    have link : u.bit n Reg.Ndodom.STATUS_LINK = true := by
      rw [bWrites.bit _ _ (by decide), tWrites.bit _ _ (by decide), aLink]
    have identity : u.identity = s.identity := upFields_identity whole
    have sent := Turned.toPeer (s := { u with twin := { u.twin with out := [] } }) link s.identity
    rw [identity] at runs
    refine .of_settle runs ⟨?_, ?_, ?_, ?_, ?_, ?_⟩
    · rw [State.ndodom_bit_settled _ (by decide), sent.bit (by decide)]
      exact link
    · rw [State.ndodom_fld_settled _ (by decide), sent.fld (by decide)]
      exact (bWrites.fld _ _ (by decide)).trans ((tWrites.fld _ _ (by decide)).trans aLanes)
    · rw [State.ndodom_bit_settled _ (by decide), sent.bit (by decide)]
      exact (bWrites.bit _ _ (by decide)).trans trained
    · rw [State.ndodom_fld_settled _ (by decide), sent.fld (by decide)]
      exact latency_
    · rw [State.ndodom_fld_settled _ (by decide), sent.fld (by decide)]
      exact told
    · rw [State.settled_twin, sent.twin]
      rfl
  · rw [Bool.and_eq_true, decide_eq_true_eq]
    rintro ⟨trains, some_⟩
    rcases idle with off | none_
    · rw [show s.bit .ndodom Reg.Ndodom.STATUS_TRAINING = false from off] at trains
      exact nomatch trains
    · exact some_ none_

/-! Lanes (R484) -/

theorem laneLost_answers (s : State) {lane : Nat} (h : lane < 2) (up : s.fld .ndodom Reg.Ndodom.STATUS_LANES_UP = 3) :
    Answers (.laneLost lane) s (fun t => t.fld .ndodom Reg.Ndodom.STATUS_LANES_UP = 2 - lane ∧
      (t.fld .ndodom Reg.Hdr.EVENTS).testBit 2 = true) := by
  have cond : (decide (lane < 2) && decide (s.fld .ndodom Reg.Ndodom.STATUS_LANES_UP = 3)) = true := by
    rw [Bool.and_eq_true, decide_eq_true_eq, decide_eq_true_eq]
    exact ⟨h, up⟩
  refine .of_settle (congrArg settle (if_pos cond)) ⟨?_, ?_⟩
  · rw [State.ndodom_fld_settled _ (by decide), State.fld_event_other _ 2 (by decide)]
    exact State.fld_set_fit _ _ (by decide) (by decide) (by show _ < 4; omega)
  · rw [State.ndodom_fld_settled _ (by decide)]
    exact State.event_recorded _ _ (by decide)

theorem laneBack_answers (s : State) (up : s.fld .ndodom Reg.Ndodom.STATUS_LANES_UP = 1 ∨ s.fld .ndodom Reg.Ndodom.STATUS_LANES_UP = 2)
    (both : s.fld .ndodom Reg.Ndodom.CFG_LANE_EN = 3) :
    Answers .laneBack s (fun t => t.fld .ndodom Reg.Ndodom.STATUS_LANES_UP = 3 ∧
      (t.fld .ndodom Reg.Hdr.EVENTS).testBit 3 = true) := by
  have cond : ((decide (s.fld .ndodom Reg.Ndodom.STATUS_LANES_UP = 1) || decide (s.fld .ndodom Reg.Ndodom.STATUS_LANES_UP = 2)) &&
      decide (s.fld .ndodom Reg.Ndodom.CFG_LANE_EN = 3)) = true := by
    rw [Bool.and_eq_true, Bool.or_eq_true, decide_eq_true_eq, decide_eq_true_eq, decide_eq_true_eq]
    exact ⟨up, both⟩
  refine .of_settle (congrArg settle (if_pos cond)) ⟨?_, ?_⟩
  · rw [State.ndodom_fld_settled _ (by decide), State.fld_event_other _ 3 (by decide)]
    exact State.fld_set_fit _ _ (by decide) (by decide) (by decide)
  · rw [State.ndodom_fld_settled _ (by decide)]
    exact State.event_recorded _ _ (by decide)

end Sys2Proof.Machine
end

section
/-! PROOFS. What frames from the peer do (R485, R492, R503 to R505). -/

namespace Sys2Proof.Machine

open Sys2Proof

/-- A command that does nothing but move the twin's engine. -/
theorem onlyTwin_answers {c : Instr} {s : State} {v : TwinState} (h : exec c s = settle { s with twin := v }) :
    Answers c s (fun t => t.twin = v ∧ OnlyWords { s with twin := t.twin } t []) := by
  have only := State.settled_only ({ s with twin := v } : State)
  have twin := State.settled_twin ({ s with twin := v } : State)
  refine .of_settle h ⟨twin, ?_⟩
  rw [twin]
  exact only

section
variable {s : State} (up : s.bit .ndodom Reg.Ndodom.STATUS_LINK = true)

include up in
theorem exec_ndodomFrame (f : PeerFrame) : exec (.ndodomFrame f) s = settle (s.frameRx f) := congrArg settle (if_pos up)

theorem ndodomFrame_answers_down (down : s.bit .ndodom Reg.Ndodom.STATUS_LINK = false) (f : PeerFrame) :
    Answers (.ndodomFrame f) s (OnlyWords s · []) :=
  Answers.unchanged (congrArg settle (if_neg (by
    rw [down]
    exact Bool.false_ne_true)))

include up in
theorem identity_answers (v fw serial m rate block : Nat) : Answers (.ndodomFrame (.identity v fw serial m rate block)) s (fun t =>
    t.fld .ndodom Reg.Ndodom.PEER_VARIANT = v % 2 ^ 32 ∧ t.fld .ndodom Reg.Ndodom.PEER_FW = fw % 2 ^ 32 ∧
      t.twin = { s.twin with peerMode := m, peerRate := rate, peerBlock := block, peerSerial := serial }) := by
  obtain ⟨a, ha⟩ : ∃ a, (s.set .ndodom Reg.Ndodom.PEER_VARIANT v).set .ndodom Reg.Ndodom.PEER_FW fw = a := ⟨_, rfl⟩
  have twin : a.twin = s.twin := by
    rw [← ha]
    rfl
  have variant : a.fld .ndodom Reg.Ndodom.PEER_VARIANT = v % 2 ^ 32 := by
    rw [← ha, State.fld_set_other _ _ (by decide)]
    exact State.fld_set_same _ _ _ _ ⟨by decide, by decide⟩
  have release : a.fld .ndodom Reg.Ndodom.PEER_FW = fw % 2 ^ 32 := by
    rw [← ha]
    exact State.fld_set_same _ _ _ _ ⟨by decide, by decide⟩
  obtain ⟨u, hu⟩ : ∃ u, a.set64 .ndodom Reg.Ndodom.PEER_SERIAL_LO Reg.Ndodom.PEER_SERIAL_HI serial = u := ⟨_, rfl⟩
  have writes : Writes a u [(.ndodom, Reg.Ndodom.PEER_SERIAL_LO), (.ndodom, Reg.Ndodom.PEER_SERIAL_HI)] := by
    rw [← hu]
    exact (Writes.refl a _).set64 (b := .ndodom) _ (by simp) (by simp)
  have uTwin : u.twin = s.twin := by
    rw [← hu]
    exact twin
  have runs : exec (.ndodomFrame (.identity v fw serial m rate block)) s = settle { u with
      twin := { u.twin with peerMode := m, peerRate := rate, peerBlock := block, peerSerial := serial } } := by
    rw [exec_ndodomFrame up, ← hu, ← ha]
    rfl
  refine .of_settle runs ⟨?_, ?_, ?_⟩
  · rw [State.ndodom_fld_settled _ (by decide)]
    exact (writes.fld _ _ (by decide)).trans variant
  · rw [State.ndodom_fld_settled _ (by decide)]
    exact (writes.fld _ _ (by decide)).trans release
  · rw [State.settled_twin]
    exact congrArg (fun w : TwinState => { w with peerMode := m, peerRate := rate, peerBlock := block, peerSerial := serial }) uTwin

include up in
theorem joinFrame_answers (waits : s.tw = Tw.wait) :
    Answers (.ndodomFrame .join) s (fun t => t.tw = Tw.ship ∧ t.twin.journal = []) := by
  have runs : exec (.ndodomFrame .join) s = settle (State.enter { s with twin := { s.twin with journal := [] } } Tw.ship) :=
    (exec_ndodomFrame up _).trans (congrArg settle (if_pos waits))
  have entered := State.enter_entered { s with twin := { s.twin with journal := [] } } (c := Tw.ship) (by decide)
  refine .of_settle runs ⟨?_, ?_⟩
  · rw [State.tw_settled, entered.state]
  · rw [State.settled_twin, entered.twin]

include up in
theorem mirrored_answers (x : InSample) (und : undState s.tw = true) : Answers (.ndodomFrame (.mirrored [x])) s (fun t =>
    t.sample { type := x.type, unit := x.unit, chan := x.chan } x.at_ = x.v ∧ OnlyWords { s with samples := t.samples } t []) := by
  have runs : exec (.ndodomFrame (.mirrored [x])) s = settle (s.takeSample x) :=
    (exec_ndodomFrame up _).trans (congrArg settle (if_pos und))
  have only := State.settled_only (s.takeSample x)
  have samples : (s.takeSample x).settled.samples = (s.takeSample x).samples := only.keeps State.samples fun _ _ => rfl
  refine .of_settle runs ⟨?_, ?_⟩
  · unfold State.sample
    rw [samples]
    exact Map.get_put_same _ _ _ _
  · rw [samples]
    exact only

include up in
theorem joinedFrame_answers (joins : s.tw = Tw.joinPri) (lone : s.twin.join = none) :
    Answers (.ndodomFrame .joined) s (fun t => (t.fld .twin Reg.Hdr.EVENTS).testBit 3 = true ∧
      t.twin.byTake = false ∧ t.tw = if s.twin.mode = 2 then Tw.lockPri else Tw.coldPri) := by
  obtain ⟨c, hc, small⟩ : ∃ c, (if s.twin.mode = 2 then Tw.lockPri else Tw.coldPri) = c ∧ c < 16 := ⟨_, rfl, by split <;> decide⟩
  have entered := State.enter_entered { s with twin := { s.twin with byTake := false } } small
  obtain ⟨u, hu⟩ : ∃ u, State.enter { s with twin := { s.twin with byTake := false } } c = u := ⟨_, rfl⟩
  rw [hu] at entered
  have done : s.joinDone = u.event .twin 3 := by
    obtain ⟨v, hv⟩ : ∃ v, u.event .twin 3 = v := ⟨_, rfl⟩
    have none_ : v.twin.join = none := by
      rw [← hv, State.event_twin, entered.twin]
      exact lone
    unfold State.joinDone
    rw [if_pos joins]
    dsimp only
    rw [hc, hu, hv]
    unfold State.joinEnds
    rw [none_]
  have runs : exec (.ndodomFrame .joined) s = settle (u.event .twin 3) :=
    (exec_ndodomFrame up _).trans (congrArg settle done)
  rw [hc]
  refine .of_settle runs ⟨?_, ?_, ?_⟩
  · rw [State.twin_fld_settled _ (by decide) (by decide)]
    exact State.event_recorded _ _ (by decide)
  · rw [State.settled_twin, State.event_twin, entered.twin]
  · rw [State.tw_settled]
    exact (State.fld_event_other _ 3 (by decide)).trans entered.state

include up in
theorem joinedFrame_answers_again (locked : s.tw = Tw.lockPri) :
    Answers (.ndodomFrame .joined) s (fun t => (t.fld .twin Reg.Hdr.EVENTS).testBit 3 = true ∧
      OnlyWords s t [wordAt .twin Reg.Hdr.EVENTS]) := by
  have other : ¬ s.tw = Tw.joinPri := by
    rw [locked]
    decide
  have runs : exec (.ndodomFrame .joined) s = settle (s.event .twin 3) :=
    (exec_ndodomFrame up _).trans (congrArg settle ((if_neg other).trans (if_pos locked)))
  refine .of_settle runs ⟨?_, ?_⟩
  · rw [State.twin_fld_settled _ (by decide) (by decide)]
    exact State.event_recorded _ _ (by decide)
  · rw [State.event_eq_set _ _ rfl]
    exact (OnlyWords.set s _ _ _).settled

end

end Sys2Proof.Machine
end

section
/-! PROOFS. Heartbeats over the link and the network (R486). -/

namespace Sys2Proof.Machine

open Sys2Proof

theorem State.toPeer_up {s : State} (link : s.bit .ndodom Reg.Ndodom.STATUS_LINK = true) (f : PeerFrame) :
    s.toPeer f = { s with twin := { s.twin with out := s.twin.out ++ [f] } } := if_pos link

/-! Sending -/

/-- The heartbeat of the moment. -/
def State.beat (s : State) : PeerFrame :=
  .heartbeat s.tw (s.fld .twin Reg.Twin.ROLE) s.claim Config.serial s.render.rsi s.render.m0
    (s.twin.crcs.headD (0, 0)).1 (s.twin.crcs.headD (0, 0)).2 s.causes s.device

/-- What a unit says at a boundary: an unattached one says what it is, too. -/
def State.beatSaid (s : State) : List PeerFrame := (if s.attached = true then [] else [s.identity]) ++ [s.beat]

/-- The state once the link's heartbeat is sent. -/
def State.beatSent (s : State) : State :=
  { s with twin := { s.twin with sentAt := some s.time.m, out := s.twin.out ++ s.beatSaid } }

/-- The network's heartbeat, when it is on and the port has a queue for it. -/
def State.netBeat (s : State) : State :=
  if s.bit .twin Reg.Twin.NET_HB_EN then
    match s.controlQueue (s.fld .twin Reg.Twin.NET_HB_PORT) with
    | some q => if s.hasEth (s.fld .twin Reg.Twin.NET_HB_PORT)
        then s.enqueue (s.fld .twin Reg.Twin.NET_HB_PORT) q { len := 64, body := .heartbeat s.netHeartbeat } else s
    | none => s
  else s

/-- No heartbeat is due. -/
abbrev State.beatIdle (s : State) : Prop := s.twin.mode = 0 ∨ s.time.m % s.blockSize ≠ 0 ∨ s.twin.sentAt = some s.time.m

section
variable {s : State}

theorem beatIdle_iff : (decide (s.twin.mode = 0) || decide (s.time.m % s.blockSize ≠ 0) || decide (s.twin.sentAt = some s.time.m)) = true ↔
    s.beatIdle := by
  rw [Bool.or_eq_true, Bool.or_eq_true, decide_eq_true_eq, decide_eq_true_eq, decide_eq_true_eq, or_assoc]

theorem heartbeatSend_answers_idle (idle : s.beatIdle) : Answers .heartbeatSend s (OnlyWords s · []) :=
  Answers.unchanged (congrArg settle (if_pos (beatIdle_iff.mpr idle)))

theorem beatSent_of (link : s.bit .ndodom Reg.Ndodom.STATUS_LINK = true) {a : State}
    (ha : a = { s with twin := { s.twin with sentAt := some s.time.m } }) :
    (if a.attached = true then a else a.toPeer a.identity).toPeer s.beat = s.beatSent := by
  have up : a.bit .ndodom Reg.Ndodom.STATUS_LINK = true := by
    rw [ha]
    exact link
  have attached : a.attached = s.attached := by
    rw [ha]
    rfl
  have identity : a.identity = s.identity := by
    rw [ha]
    rfl
  unfold State.beatSent State.beatSaid
  rw [attached, identity]
  by_cases joined : s.attached = true
  · rw [if_pos joined, if_pos joined, State.toPeer_up up, ha]
    rfl
  · have up2 : (a.toPeer s.identity).bit .ndodom Reg.Ndodom.STATUS_LINK = true := by
      rw [State.toPeer_up up]
      exact up
    rw [if_neg joined, if_neg joined, State.toPeer_up up2, State.toPeer_up up, ha, ← List.append_assoc]

theorem beat_of {a : State} (ha : a = { s with twin := { s.twin with sentAt := some s.time.m } }) (l : PeerFrame) :
    (if a.attached = true then a else a.toPeer l).beat = s.beat := by
  have noted : a.beat = s.beat := by
    rw [ha]
    rfl
  split
  · exact noted
  · obtain ⟨l2, hl⟩ := a.toPeer_twin l
    rw [hl]
    exact noted

theorem exec_heartbeatSend (link : s.bit .ndodom Reg.Ndodom.STATUS_LINK = true) (due : ¬ s.beatIdle) :
    exec .heartbeatSend s = settle s.beatSent.netBeat := by
  obtain ⟨a, ha⟩ : ∃ a : State, a = { s with twin := { s.twin with sentAt := some s.time.m } } := ⟨_, rfl⟩
  have body : exec .heartbeatSend s = settle ((if a.attached = true then a else a.toPeer a.identity).toPeer
      (if a.attached = true then a else a.toPeer a.identity).beat).netBeat := by
    rw [ha]
    exact congrArg settle (if_neg (beatIdle_iff.not.mpr due))
  rw [body, beat_of ha, beatSent_of link ha]

theorem heartbeatSend_answers (link : s.bit .ndodom Reg.Ndodom.STATUS_LINK = true) (due : ¬ s.beatIdle)
    (quiet : s.bit .twin Reg.Twin.NET_HB_EN = false) : Answers .heartbeatSend s (fun t =>
      t.twin = { s.twin with sentAt := some s.time.m, out := s.twin.out ++ s.beatSaid } ∧ OnlyWords { s with twin := t.twin } t []) := by
  have off : ¬ s.beatSent.bit .twin Reg.Twin.NET_HB_EN = true := by
    intro on_
    rw [show s.bit .twin Reg.Twin.NET_HB_EN = true from on_] at quiet
    exact nomatch quiet
  exact onlyTwin_answers ((exec_heartbeatSend link due).trans (congrArg settle (if_neg off)))

theorem heartbeatSend_answers_net (link : s.bit .ndodom Reg.Ndodom.STATUS_LINK = true) (due : ¬ s.beatIdle) {q : Nat}
    (on_ : s.bit .twin Reg.Twin.NET_HB_EN = true) (queue : s.controlQueue (s.fld .twin Reg.Twin.NET_HB_PORT) = some q)
    (port : s.hasEth (s.fld .twin Reg.Twin.NET_HB_PORT) = true) : Answers .heartbeatSend s (fun t =>
      t.twin = { s.twin with sentAt := some s.time.m, out := s.twin.out ++ s.beatSaid } ∧
      (t.eth (s.fld .twin Reg.Twin.NET_HB_PORT)).queue q = (s.eth (s.fld .twin Reg.Twin.NET_HB_PORT)).queue q ++
        [{ len := 64, body := .heartbeat s.netHeartbeat }]) := by
  obtain ⟨u, hu⟩ : ∃ u, s.beatSent = u := ⟨_, rfl⟩
  have twin : u.twin = { s.twin with sentAt := some s.time.m, out := s.twin.out ++ s.beatSaid } := by
    rw [← hu]
    rfl
  have same : u.bit .twin Reg.Twin.NET_HB_EN = s.bit .twin Reg.Twin.NET_HB_EN ∧
      u.fld .twin Reg.Twin.NET_HB_PORT = s.fld .twin Reg.Twin.NET_HB_PORT ∧ u.netHeartbeat = s.netHeartbeat ∧ u.eth = s.eth := by
    rw [← hu]
    exact ⟨rfl, rfl, rfl, rfl⟩
  have there (p : Nat) : u.controlQueue p = s.controlQueue p ∧ u.hasEth p = s.hasEth p := by
    rw [← hu]
    exact ⟨rfl, rfl⟩
  obtain ⟨en, at_, bytes, eths⟩ := same
  have runs : exec .heartbeatSend s = settle (u.enqueue (s.fld .twin Reg.Twin.NET_HB_PORT) q
      { len := 64, body := .heartbeat s.netHeartbeat }) := by
    rw [exec_heartbeatSend link due, hu]
    unfold State.netBeat
    rw [if_pos (en.trans on_), at_, (there _).1, queue]
    dsimp only
    rw [if_pos ((there _).2.trans port), bytes]
  refine .of_settle runs ⟨?_, ?_⟩
  · rw [State.settled_twin]
    exact twin
  · rw [(State.settled_only _).eth_eq, State.eth_enqueue, eths]
    exact Map.get_put_same _ _ _ _

/-! Checking -/

/-- The block of device time has been checked. -/
abbrev State.beatChecked (s : State) : Prop := s.twin.mode = 0 ∨ s.twin.checkedAt = some (s.time.m / s.blockSize)

theorem beatChecked_iff : (decide (s.twin.mode = 0) || decide (s.twin.checkedAt = some (s.time.m / s.blockSize))) = true ↔
    s.beatChecked := by
  rw [Bool.or_eq_true, decide_eq_true_eq, decide_eq_true_eq]

theorem heartbeatCheck_answers_idle (idle : s.beatChecked) : Answers .heartbeatCheck s (OnlyWords s · []) :=
  Answers.unchanged (congrArg settle (if_pos (beatChecked_iff.mpr idle)))

theorem heartbeatCheck_answers_heard (due : ¬ s.beatChecked) (heard : s.twin.hb = true) : Answers .heartbeatCheck s (fun t =>
    t.twin = { s.twin with checkedAt := some (s.time.m / s.blockSize), hb := false, misses := 0, hbLost := false } ∧
      OnlyWords { s with twin := t.twin } t []) :=
  onlyTwin_answers (congrArg settle ((if_neg (beatChecked_iff.not.mpr due)).trans (if_pos heard)))

/-- The state once a miss is noted. -/
def State.missed (s : State) : State :=
  { s with twin := { s.twin with checkedAt := some (s.time.m / s.blockSize), misses := s.twin.misses + 1,
                                 hbLost := s.twin.hbLost || 3 ≤ s.twin.misses + 1 } }

/-- The third miss in a row: the peer's claim is unknown, and an understudy in lockstep that the network still hears waits. -/
def State.thirdMiss (s : State) : State :=
  let s := s.set .twin Reg.Twin.CLAIM_PEER_VALID 0
  let s := if undState s.tw && !(s.takeConds.all id) then s.event .twin 1 else s
  if !s.netLost && [Tw.lockUnd, Tw.verify, Tw.resync].contains s.tw then s.toWait else s

theorem exec_heartbeatCheck_missed (due : ¬ s.beatChecked) (silent : s.twin.hb = false) :
    exec .heartbeatCheck s = settle (if s.twin.misses + 1 ≠ 3 then s.missed else s.missed.thirdMiss) := by
  have no : ¬ s.twin.hb = true := by
    rw [silent]
    exact Bool.false_ne_true
  exact congrArg settle ((if_neg (beatChecked_iff.not.mpr due)).trans (if_neg no))

theorem heartbeatCheck_answers_missed (due : ¬ s.beatChecked) (silent : s.twin.hb = false) (few : s.twin.misses ≠ 2) :
    Answers .heartbeatCheck s (fun t => t.twin = { s.twin with
      checkedAt := some (s.time.m / s.blockSize), misses := s.twin.misses + 1,
      hbLost := s.twin.hbLost || decide (3 ≤ s.twin.misses + 1) } ∧ OnlyWords { s with twin := t.twin } t []) :=
  onlyTwin_answers ((exec_heartbeatCheck_missed due silent).trans (congrArg settle (if_pos (by omega))))

/-- The fields that a lost heartbeat writes. -/
def lostFields : List (Blk × Fld) := [(.twin, Reg.Twin.CLAIM_PEER_VALID), (.twin, Reg.Hdr.EVENTS)] ++ enterFields

theorem State.thirdMiss_shows (s : State) :
    let t := s.thirdMiss
    t.twin.hbLost = s.twin.hbLost ∧ t.bit .twin Reg.Twin.CLAIM_PEER_VALID = false ∧ (undState s.tw = false → t.tw = s.tw) := by
  obtain ⟨a, ha⟩ : ∃ a, s.set .twin Reg.Twin.CLAIM_PEER_VALID 0 = a := ⟨_, rfl⟩
  obtain ⟨b, hb⟩ : ∃ b, (if (undState a.tw && !(a.takeConds.all id)) = true then a.event .twin 1 else a) = b := ⟨_, rfl⟩
  have body : s.thirdMiss = if (!b.netLost && [Tw.lockUnd, Tw.verify, Tw.resync].contains b.tw) = true then b.toWait else b := by
    unfold State.thirdMiss
    dsimp only
    rw [ha, hb]
  have valid : a.bit .twin Reg.Twin.CLAIM_PEER_VALID = false := by
    rw [← ha]
    exact State.bit_set_zero _ _ ⟨by decide, by decide⟩ rfl
  have tw : a.tw = s.tw := by
    rw [← ha]
    exact State.fld_set_other _ 0 (by decide)
  have told : Writes a b [(.twin, Reg.Hdr.EVENTS)] := by
    rw [← hb]
    exact .ite ((Writes.refl a _).event (b := .twin) 1 List.mem_cons_self) (.refl a _)
  have twin : b.twin = s.twin := by
    have first : a.twin = s.twin := by
      rw [← ha]
      rfl
    rw [← hb, ← first]
    exact ite_keeps State.twin (a.event_twin .twin 1) rfl
  have bValid : b.bit .twin Reg.Twin.CLAIM_PEER_VALID = false := (told.bit _ _ (by decide)).trans valid
  have bTw : b.tw = s.tw := (told.fld _ _ (by decide)).trans tw
  rw [body]
  split
  · next waits =>
    obtain ⟨-, wTwin, -, stays⟩ := b.toWait_shows
    have stays2 : LowStays enterFields b b.toWait := stays
    refine ⟨(congrArg TwinState.hbLost wTwin).trans (congrArg TwinState.hbLost twin :),
      (stays2.bit (by decide) (by decide)).trans bValid, fun leads => ?_⟩
    have und : undState b.tw = true := by
      obtain ⟨-, there⟩ := Bool.and_eq_true_iff.mp waits
      have each : ∀ c ∈ [Tw.lockUnd, Tw.verify, Tw.resync], undState c = true := by decide
      exact each _ (List.contains_iff_mem.mp there)
    rw [bTw, leads] at und
    exact nomatch und
  · exact ⟨congrArg TwinState.hbLost twin, bValid, fun _ => bTw⟩

theorem heartbeatCheck_answers_lost (due : ¬ s.beatChecked) (silent : s.twin.hb = false) (third : s.twin.misses = 2) :
    Answers .heartbeatCheck s (fun t => t.twin.hbLost = true ∧ t.bit .twin Reg.Twin.CLAIM_PEER_VALID = false ∧
      (undState s.tw = false → t.tw = s.tw)) := by
  have runs : exec .heartbeatCheck s = settle s.missed.thirdMiss :=
    (exec_heartbeatCheck_missed due silent).trans (congrArg settle (if_neg (by omega)))
  obtain ⟨lost, valid, stays⟩ := s.missed.thirdMiss_shows
  have now : s.missed.twin.hbLost = true := by
    have three : decide (3 ≤ s.twin.misses + 1) = true := decide_eq_true (by omega)
    exact (congrArg (s.twin.hbLost || ·) three).trans (Bool.or_true _)
  refine .of_settle runs ⟨?_, ?_, fun leads => ?_⟩
  · rw [State.settled_twin, lost, now]
  · rw [State.twin_bit_settled _ (by decide) (by decide), valid]
  · rw [State.tw_settled]
    exact stays leads

/-! The network -/

theorem netHbRx_answers (s : State) (pair serial : Nat) :
    let ours := pair = s.fld .twin Reg.Twin.PAIR_ID ∧ serial ≠ Config.serial ∧ s.bit .twin Reg.Twin.NET_HB_EN = true
    (ours → Answers (.netHbRx pair serial) s (fun t => t.bit .twin Reg.Twin.NET_HB_OK = true ∧
      t.twin = { s.twin with netAt := s.render.tick })) ∧
    (¬ ours → Answers (.netHbRx pair serial) s (OnlyWords s · [])) := by
  intro ours
  have cond : (decide (pair = s.fld .twin Reg.Twin.PAIR_ID) && decide (serial ≠ Config.serial) && s.bit .twin Reg.Twin.NET_HB_EN) =
      true ↔ ours := by
    rw [Bool.and_eq_true, Bool.and_eq_true, decide_eq_true_eq, decide_eq_true_eq, and_assoc]
  refine ⟨fun yes => .of_settle (congrArg settle (if_pos (cond.mpr yes))) ⟨?_, State.settled_twin _⟩,
    fun no => Answers.unchanged (congrArg settle (if_neg (cond.not.mpr no)))⟩
  rw [State.twin_bit_settled _ (by decide) (by decide)]
  exact State.bit_set_one s .twin ⟨by decide, by decide⟩ rfl

theorem netHbLost_answers (s : State) (ok : s.bit .twin Reg.Twin.NET_HB_OK = true)
    (late : s.twin.netAt + 3 * s.blockSize ≤ s.render.tick) : Answers .netHbLost s (fun t =>
      t.bit .twin Reg.Twin.NET_HB_OK = false ∧ (t.fld .twin Reg.Hdr.EVENTS).testBit 2 = true) := by
  obtain ⟨u, hu⟩ : ∃ u, (s.set .twin Reg.Twin.NET_HB_OK 0).event .twin 2 = u := ⟨_, rfl⟩
  have cond : (s.bit .twin Reg.Twin.NET_HB_OK && decide (s.twin.netAt + 3 * s.blockSize ≤ s.render.tick)) = true := by
    rw [ok, decide_eq_true late]
    rfl
  have runs : exec .netHbLost s =
      settle (if (undState u.tw && !(u.takeConds.all id)) = true then u.event .twin 1 else u) := by
    rw [← hu]
    exact congrArg settle (if_pos cond)
  have off : u.bit .twin Reg.Twin.NET_HB_OK = false := by
    rw [← hu]
    unfold State.bit
    rw [State.fld_event_other _ 2 (by decide)]
    exact State.bit_set_zero s .twin ⟨by decide, by decide⟩ rfl
  have told : (u.fld .twin Reg.Hdr.EVENTS).testBit 2 = true := by
    rw [← hu]
    exact State.event_recorded _ _ (by decide)
  refine .of_settle runs ?_
  rw [State.twin_bit_settled _ (by decide) (by decide), State.twin_fld_settled _ (by decide) (by decide)]
  split
  · refine ⟨?_, ?_⟩
    · unfold State.bit
      rw [State.fld_event_other _ 1 (by decide)]
      exact off
    · rw [State.events_event _ _ (by decide), Nat.testBit_or, told, Bool.true_or]
  · exact ⟨off, told⟩

end

end Sys2Proof.Machine
end

section
/-! PROOFS. What the twins send each other at blocks, and where the states of lockstep end (R487, R490, R494, R495, R503). -/

namespace Sys2Proof.Machine

open Sys2Proof

section
variable {s : State}

/-! Holdings and departures (R490, R495) -/

theorem holdings_answers (link : s.bit .ndodom Reg.Ndodom.STATUS_LINK = true) {b : Nat}
    (locked : s.lockPri = true ∨ s.tw = Tw.verify ∨ s.tw = Tw.lockUnd) (runs : s.running = true)
    (ended : s.render.rsi / s.blockSize = b + 1) : Answers (.holdings b) s (fun t =>
      t.twin = { s.twin with out := s.twin.out ++ [.holdings b (s.holdings b)] } ∧ OnlyWords { s with twin := t.twin } t []) := by
  have cond : ((s.lockPri || decide (s.tw = Tw.verify) || decide (s.tw = Tw.lockUnd)) && s.running &&
      decide (s.render.rsi / s.blockSize = b + 1)) = true := by
    simp only [Bool.and_eq_true, Bool.or_eq_true, decide_eq_true_eq, or_assoc]
    exact ⟨⟨locked, runs⟩, ended⟩
  exact onlyTwin_answers ((congrArg settle (if_pos cond)).trans (congrArg settle (State.toPeer_up link _)))

theorem holdings_answers_idle {b : Nat} (other : s.render.rsi / s.blockSize ≠ b + 1) :
    Answers (.holdings b) s (OnlyWords s · []) :=
  Answers.unchanged (congrArg settle (if_neg (by
    rw [Bool.and_eq_true, decide_eq_true_eq]
    exact fun h => other h.2)))

theorem departureReport_answers (link : s.bit .ndodom Reg.Ndodom.STATUS_LINK = true) (leads : s.lockPri = true) :
    Answers .departureReport s (fun t => t.twin = { s.twin with
      out := s.twin.out ++ [.departures (s.twin.sentSeq.map (fun e => (e.1, e.2 - 1)))] } ∧ OnlyWords { s with twin := t.twin } t []) :=
  onlyTwin_answers ((congrArg settle (if_pos leads)).trans (congrArg settle (State.toPeer_up link _)))

/-! COLD snapshots (R487) -/

/-- The number of the next snapshot. -/
def State.nextSnap (s : State) : Nat := if s.snaps.id + 1 < 2 ^ 32 then s.snaps.id + 1 else 1

theorem State.nextSnap_lt (s : State) : s.nextSnap < 2 ^ 32 := by
  unfold State.nextSnap
  split
  · assumption
  · decide

theorem snapPeriod_answers (link : s.bit .ndodom Reg.Ndodom.STATUS_LINK = true) (cold : s.tw = Tw.coldPri)
    (due : s.twin.commitSince = true ∨ s.twin.shipAt + s.fld .twin Reg.Twin.SNAP_PERIOD * s.msTicks ≤ s.render.tick) :
    Answers .snapPeriod s (fun t => t.snaps.id = s.nextSnap ∧ t.fld .twin Reg.Twin.SNAP_ID = s.nextSnap ∧
      t.twin.commitSince = false ∧ t.twin.shipAt = s.render.tick ∧
      t.twin.out = s.twin.out ++ [.snapshot { s.image false with id := s.nextSnap }]) := by
  have cond : (decide (s.tw = Tw.coldPri) && (s.twin.commitSince ||
      decide (s.twin.shipAt + s.fld .twin Reg.Twin.SNAP_PERIOD * s.msTicks ≤ s.render.tick))) = true := by
    rw [Bool.and_eq_true, Bool.or_eq_true, decide_eq_true_eq, decide_eq_true_eq]
    exact ⟨cold, due⟩
  obtain ⟨a, ha⟩ : ∃ a : State, a = { s with
      snaps := { s.snaps with id := s.nextSnap }
      twin := { s.twin with shipAt := s.render.tick, freezeAt := some s.render.tick, commitSince := false } } := ⟨_, rfl⟩
  have runs : exec .snapPeriod s =
      settle ((a.set .twin Reg.Twin.SNAP_ID s.nextSnap).toPeer (.snapshot { s.image false with id := s.nextSnap })) := by
    rw [ha]
    exact congrArg settle (if_pos cond)
  have engines : a.snaps.id = s.nextSnap ∧ a.twin.commitSince = false ∧ a.twin.shipAt = s.render.tick ∧ a.twin.out = s.twin.out := by
    rw [ha]
    exact ⟨rfl, rfl, rfl, rfl⟩
  have up : a.bit .ndodom Reg.Ndodom.STATUS_LINK = true := by
    rw [ha]
    exact link
  have up2 : (a.set .twin Reg.Twin.SNAP_ID s.nextSnap).bit .ndodom Reg.Ndodom.STATUS_LINK = true := by
    unfold State.bit at up ⊢
    rw [State.fld_set_other _ _ (by decide)]
    exact up
  rw [State.toPeer_up up2] at runs
  obtain ⟨id_, since, at_, out⟩ := engines
  have shown : (a.set .twin Reg.Twin.SNAP_ID s.nextSnap).fld .twin Reg.Twin.SNAP_ID = s.nextSnap :=
    State.fld_set_fit _ _ (by decide) (by decide) s.nextSnap_lt
  refine .of_settle runs ⟨?_, ?_, ?_, ?_, ?_⟩
  · rw [State.settled_snaps]
    exact id_
  · rw [State.twin_fld_settled _ (by decide) (by decide)]
    exact shown
  · rw [State.settled_twin]
    exact since
  · rw [State.settled_twin]
    exact at_
  · rw [State.settled_twin]
    exact congrArg (· ++ _) out

/-! The states of lockstep (R494, R503) -/

theorem joined_answers (link : s.bit .ndodom Reg.Ndodom.STATUS_LINK = true) (verifies : s.tw = Tw.verify)
    (enough : s.fld .twin Reg.Twin.VERIFY_BLOCKS ≤ s.twin.matched) : Answers .joined s (fun t => t.tw = Tw.lockUnd ∧
      (t.fld .twin Reg.Hdr.EVENTS).testBit 3 = true ∧ t.twin.out = s.twin.out ++ [.joined]) := by
  have cond : (decide (s.tw = Tw.verify) && decide (s.fld .twin Reg.Twin.VERIFY_BLOCKS ≤ s.twin.matched)) = true := by
    rw [Bool.and_eq_true, decide_eq_true_eq, decide_eq_true_eq]
    exact ⟨verifies, enough⟩
  have entered := s.enter_entered (c := Tw.lockUnd) (by decide)
  obtain ⟨u, hu⟩ : ∃ u, (s.enter Tw.lockUnd).event .twin 3 = u := ⟨_, rfl⟩
  have runs : exec .joined s = settle ((u.toPeer .joined).resyncEnds Status.ok) := by
    rw [← hu]
    exact congrArg settle (if_pos cond)
  have tw : u.tw = Tw.lockUnd := by
    rw [← hu]
    exact (State.fld_event_other _ 3 (by decide)).trans entered.state
  have told : (u.fld .twin Reg.Hdr.EVENTS).testBit 3 = true := by
    rw [← hu]
    exact State.event_recorded _ _ (by decide)
  have twin : u.twin = s.twin := by
    rw [← hu, State.event_twin, entered.twin]
  have up : u.bit .ndodom Reg.Ndodom.STATUS_LINK = true := by
    rw [← hu]
    unfold State.bit
    rw [State.fld_event_other _ 3 (by decide)]
    exact (entered.bit (by decide) (by decide)).trans link
  have sent := (Turned.toPeer up .joined).trans (Turned.resyncEnds (u.toPeer .joined) Status.ok)
  have out : (u.toPeer .joined).twin.out = s.twin.out ++ [.joined] :=
    (congrArg TwinState.out (Turned.toPeer up .joined).twin).trans (congrArg (fun w : TwinState => w.out ++ [.joined]) twin)
  refine .of_settle runs ⟨?_, ?_, ?_⟩
  · rw [State.tw_settled, sent.tw, tw]
  · rw [State.twin_fld_settled _ (by decide) (by decide), sent.fld (by decide)]
    exact told
  · rw [State.settled_twin, sent.twin]
    exact out

theorem replayCaughtUp_answers (replays : s.tw = Tw.replay ∨ s.tw = Tw.resync) (drained : s.twin.journal = [])
    (nothing : s.twin.awaiting = false) (renders : s.running = true) : Answers .replayCaughtUp s (fun t =>
      t.tw = Tw.verify ∧ t.twin.matched = 0 ∧ t.fld .twin Reg.Twin.LAG = 0 ∧ t.render.rsi = max s.render.rsi s.twin.peerRsi) := by
  have cond : ((decide (s.tw = Tw.replay) || decide (s.tw = Tw.resync)) && s.twin.journal.isEmpty && !s.twin.awaiting && s.running) =
      true := by
    rw [drained, nothing, renders, Bool.and_true, Bool.not_false, Bool.and_true, List.isEmpty_nil, Bool.and_true, Bool.or_eq_true,
      decide_eq_true_eq, decide_eq_true_eq]
    exact replays
  obtain ⟨a, ha⟩ : ∃ a : State, a = ({ s with
      twin := { s.twin with matched := 0 }
      render := { s.render with rsi := max s.render.rsi s.twin.peerRsi, m0 := s.twin.peerM0 } } : State).set .twin Reg.Twin.LAG 0 :=
    ⟨_, rfl⟩
  have runs : exec .replayCaughtUp s = settle (a.enter Tw.verify) := by
    rw [ha]
    exact congrArg settle (if_pos cond)
  have engines : a.twin.matched = 0 ∧ a.render.rsi = max s.render.rsi s.twin.peerRsi := by
    rw [ha]
    exact ⟨rfl, rfl⟩
  have lag : a.fld .twin Reg.Twin.LAG = 0 := by
    rw [ha]
    exact State.fld_set_same _ _ _ _ ⟨by decide, by decide⟩
  have entered := a.enter_entered (c := Tw.verify) (by decide)
  refine .of_settle runs ⟨?_, ?_, ?_, ?_⟩
  · rw [State.tw_settled, entered.state]
  · rw [State.settled_twin, entered.twin, engines.1]
  · rw [State.twin_fld_settled _ (by decide) (by decide), entered.others _ _ (by decide) (by decide), lag]
  · rw [State.settled_render, entered.render, engines.2]

theorem joinTimeout_answers {c : Cmd} {a : Nat} (join : s.twin.join = some (some (c.seat, c.tag), a)) (alone : s.tw = Tw.alone)
    (late : a + s.fs ≤ s.render.tick) (flies : s.cmdOf c.seat c.tag = some c) (open_ : c.final = false) (single : c.waiters = [])
    (tag : c.tag < bootTag) (h8 : c.seat < 8) :
    Answers .joinTimeout s (fun t => t.twin.join = none ∧ Completes s t c Status.timeout 0 0) := by
  obtain ⟨u, hu⟩ : ∃ u : State, { s with twin := { s.twin with join := none } } = u := ⟨_, rfl⟩
  have cond : (decide (s.tw = Tw.alone) && decide (a + s.fs ≤ s.render.tick)) = true := by
    rw [Bool.and_eq_true, decide_eq_true_eq, decide_eq_true_eq]
    exact ⟨alone, late⟩
  have ends : s.joinEnds Status.timeout = u.finish c.seat c.tag Status.timeout 0 0 := by
    unfold State.joinEnds
    rw [join, ← hu]
  have runs : exec .joinTimeout s = settle (u.finish c.seat c.tag Status.timeout 0 0) := by
    have body : exec .joinTimeout s = execJoinTimeout s := rfl
    rw [body]
    unfold execJoinTimeout
    rw [join]
    dsimp only
    rw [if_pos cond, ends]
  have same : u.seats = s.seats ∧ u.twin.join = none ∧ (∀ seat tag, u.cmdOf seat tag = s.cmdOf seat tag) ∧
      (∀ seat, u.seat seat = s.seat seat) ∧ (∀ seat sq, u.cqOf seat sq = s.cqOf seat sq) := by
    rw [← hu]
    exact ⟨rfl, rfl, fun _ _ => rfl, fun _ => rfl, fun _ _ => rfl⟩
  obtain ⟨-, none_, cmds, seats, cqs⟩ := same
  obtain ⟨done, frame⟩ := completes_in_flight (s := s) (u := u) ((cmds _ _).trans flies) open_ single tag h8
    (congrArg SeatState.done (seats _)) (cqs _ _) Status.timeout 0 0
  exact .of_settle runs ⟨(congrArg TwinState.join frame.twin).trans none_, done⟩

/-! The CRCs of the outputs (R494) -/

theorem lockUnd_iff : s.lockUnd = true ↔ s.tw ∈ [Tw.replay, Tw.verify, Tw.lockUnd, Tw.resync] := List.contains_iff_mem

theorem exec_outputCrcCompare {b x y : Nat} (own : s.twin.crcs.lookup b = some x) (peer : s.twin.peerCrcs.lookup b = some y)
    {u : State} (hu : u = { s with twin := { s.twin with peerCrcs := s.twin.peerCrcs.filter (·.1 ≠ b) } })
    (locked : (s.lockPri || s.lockUnd) = true) : exec (.outputCrcCompare b) s = settle (
      if x = y then
        if s.tw = Tw.verify then { s with twin := { s.twin with
          peerCrcs := s.twin.peerCrcs.filter (·.1 ≠ b), matched := s.twin.matched + 1 } } else u
      else
        let v := ((u.event .twin 4).count .twin Reg.Twin.DIVERGE_COUNT).set64 .twin Reg.Twin.EVENT_AT_LO Reg.Twin.EVENT_AT_HI
          (((u.event .twin 4).count .twin Reg.Twin.DIVERGE_COUNT).blockStart b)
        if v.lockUnd then v.toResync else v) := by
  have body : exec (.outputCrcCompare b) s = execOutputCrcCompare b s := rfl
  have on_ : ¬ (!(u.lockPri || u.lockUnd)) = true := by
    have same : (u.lockPri || u.lockUnd) = (s.lockPri || s.lockUnd) := by
      rw [hu]
      rfl
    rw [same, locked]
    decide
  rw [body]
  unfold execOutputCrcCompare
  rw [own, peer]
  dsimp only
  rw [← hu, if_neg on_]

theorem outputCrcCompare_answers_equal {b x : Nat} (own : s.twin.crcs.lookup b = some x) (peer : s.twin.peerCrcs.lookup b = some x)
    (verifies : s.tw = Tw.verify) : Answers (.outputCrcCompare b) s (fun t => t.twin.matched = s.twin.matched + 1 ∧
      OnlyWords { s with twin := t.twin } t []) := by
  have locked : (s.lockPri || s.lockUnd) = true := by
    have und : s.lockUnd = true := by
      rw [lockUnd_iff, verifies]
      decide
    rw [und, Bool.or_true]
  have runs := exec_outputCrcCompare own peer rfl locked
  rw [if_pos rfl, if_pos verifies] at runs
  obtain ⟨t, steps, twin, only⟩ := onlyTwin_answers runs
  exact ⟨t, steps, congrArg TwinState.matched twin, only⟩

theorem outputCrcCompare_answers_differ {b x y : Nat} (own : s.twin.crcs.lookup b = some x) (peer : s.twin.peerCrcs.lookup b = some y)
    (differ : x ≠ y) (locked : s.lockPri = true ∨ s.lockUnd = true) : Answers (.outputCrcCompare b) s (fun t =>
      (t.fld .twin Reg.Hdr.EVENTS).testBit 4 = true ∧
      t.fld .twin Reg.Twin.DIVERGE_COUNT = (s.fld .twin Reg.Twin.DIVERGE_COUNT + 1) % 2 ^ 32 ∧
      t.tw = if s.lockUnd then Tw.resync else s.tw) := by
  obtain ⟨u, hu⟩ : ∃ u : State, u = { s with twin := { s.twin with peerCrcs := s.twin.peerCrcs.filter (·.1 ≠ b) } } := ⟨_, rfl⟩
  have runs := exec_outputCrcCompare own peer hu ((Bool.or_eq_true _ _).mpr locked)
  rw [if_neg differ] at runs
  obtain ⟨a, ha⟩ : ∃ a, (u.event .twin 4).count .twin Reg.Twin.DIVERGE_COUNT = a := ⟨_, rfl⟩
  obtain ⟨v, hv⟩ : ∃ v, a.set64 .twin Reg.Twin.EVENT_AT_LO Reg.Twin.EVENT_AT_HI (a.blockStart b) = v := ⟨_, rfl⟩
  dsimp only at runs
  rw [ha, hv] at runs
  have fields : u.fld .twin Reg.Twin.DIVERGE_COUNT = s.fld .twin Reg.Twin.DIVERGE_COUNT ∧ u.tw = s.tw := by
    rw [hu]
    exact ⟨rfl, rfl⟩
  have aWrites : Writes u a [(.twin, Reg.Hdr.EVENTS), (.twin, Reg.Twin.DIVERGE_COUNT)] := by
    rw [← ha]
    exact ((Writes.refl u _).event (b := .twin) 4 (by simp)).count (b := .twin) (f := Reg.Twin.DIVERGE_COUNT) 1 (by simp)
  have vWrites : Writes a v [(.twin, Reg.Twin.EVENT_AT_LO), (.twin, Reg.Twin.EVENT_AT_HI)] := by
    rw [← hv]
    exact (Writes.refl a _).set64 (b := .twin) _ (by simp) (by simp)
  have told : (v.fld .twin Reg.Hdr.EVENTS).testBit 4 = true := by
    have counts : Writes (u.event .twin 4) ((u.event .twin 4).count .twin Reg.Twin.DIVERGE_COUNT) [(.twin, Reg.Twin.DIVERGE_COUNT)] :=
      (Writes.refl _ _).count (b := .twin) (f := Reg.Twin.DIVERGE_COUNT) 1 List.mem_cons_self
    rw [vWrites.fld _ _ (by decide), ← ha, counts.fld _ _ (by decide)]
    exact State.event_recorded _ _ (by decide)
  have counted : v.fld .twin Reg.Twin.DIVERGE_COUNT = (s.fld .twin Reg.Twin.DIVERGE_COUNT + 1) % 2 ^ 32 := by
    rw [vWrites.fld _ _ (by decide), ← ha, State.fld_count_same _ _ ⟨by decide, by decide⟩, State.fld_event_other _ 4 (by decide),
      fields.1]
    rfl
  have tw : v.tw = s.tw := (vWrites.fld _ _ (by decide)).trans ((aWrites.fld _ _ (by decide)).trans fields.2)
  have und : v.lockUnd = s.lockUnd := congrArg (fun c => ([0xA, 0xB, 0xD, 0xE] : List Nat).contains c) tw
  rw [und] at runs
  by_cases follows : s.lockUnd = true
  · rw [if_pos follows] at runs
    rw [if_pos follows]
    obtain ⟨d, hd, low⟩ : ∃ d : State, v.toResync = (d.enter Tw.resync).toPeer .resync ∧ Turned v d d.twin :=
      ⟨_, rfl, .of v _⟩
    have entered := d.enter_entered (c := Tw.resync) (by decide)
    obtain ⟨l, hl⟩ := (d.enter Tw.resync).toPeer_twin .resync
    rw [hd, hl] at runs
    have sent := Turned.of (d.enter Tw.resync) { (d.enter Tw.resync).twin with out := l }
    refine .of_settle runs ⟨?_, ?_, ?_⟩
    · rw [State.twin_fld_settled _ (by decide) (by decide), sent.fld (by decide), entered.others _ _ (by decide) (by decide),
        low.fld (by decide)]
      exact told
    · rw [State.twin_fld_settled _ (by decide) (by decide), sent.fld (by decide), entered.others _ _ (by decide) (by decide),
        low.fld (by decide)]
      exact counted
    · rw [State.tw_settled, sent.tw, entered.state]
  · rw [if_neg follows] at runs
    rw [if_neg follows]
    refine .of_settle runs ⟨?_, ?_, ?_⟩
    · rw [State.twin_fld_settled _ (by decide) (by decide)]
      exact told
    · rw [State.twin_fld_settled _ (by decide) (by decide)]
      exact counted
    · rw [State.tw_settled, tw]

end

end Sys2Proof.Machine
end

section
/-! PROOFS. Takeover, the opening of egress, and the swap of a handover (R496, R497, R500, R504). -/

namespace Sys2Proof.Machine

open Sys2Proof

section
variable {s : State}

/-! Takeover (R496) -/

theorem State.takeOver_shows (s : State) :
    let t := s.takeOver
    t.tw = Tw.taking ∧ t.twin.cold = decide (s.tw ≠ Tw.verify ∧ s.tw ≠ Tw.lockUnd) ∧
      t.bit .twin Reg.Twin.CLAIM_EGRESS_OPEN = false := by
  have cold : (!(decide (s.tw = Tw.verify) || decide (s.tw = Tw.lockUnd))) = decide (s.tw ≠ Tw.verify ∧ s.tw ≠ Tw.lockUnd) := by
    rw [← Bool.decide_or, ← decide_not]
    exact decide_eq_decide.mpr not_or
  obtain ⟨u, hu⟩ : ∃ u, (s.resyncEnds Status.timeout).endForwarded = u := ⟨_, rfl⟩
  obtain ⟨v, hv⟩ : ∃ v : State, { u with twin := { u.twin with
      cold := decide (s.tw ≠ Tw.verify ∧ s.tw ≠ Tw.lockUnd), restored := false, handover := none, won := false } } = v := ⟨_, rfl⟩
  have body : s.takeOver = v.enter Tw.taking := by
    unfold State.takeOver
    dsimp only
    rw [hu, cold, hv]
  have noted : v.twin.cold = decide (s.tw ≠ Tw.verify ∧ s.tw ≠ Tw.lockUnd) ∧ v.twin.won = false := by
    rw [← hv]
    exact ⟨rfl, rfl⟩
  have closed : v.mayOpenIn Tw.taking = false := by
    unfold State.mayOpenIn
    rw [noted.2, Bool.and_false, Bool.false_and, Bool.false_and]
  have entered := v.enter_entered (c := Tw.taking) (by decide)
  rw [body]
  exact ⟨entered.state, (congrArg TwinState.cold entered.twin).trans noted.1, entered.closes closed⟩

theorem autoTakeover_answers (s : State) :
    let take := undState s.tw = true ∧ s.bit .twin Reg.Twin.CFG_AUTO_TAKE = true ∧ s.takeConds.all id = true
    (take → Answers .autoTakeover s (fun t => t.tw = Tw.taking ∧
      t.twin.cold = decide (s.tw ≠ Tw.verify ∧ s.tw ≠ Tw.lockUnd) ∧ t.bit .twin Reg.Twin.CLAIM_EGRESS_OPEN = false)) ∧
    (¬ take → Answers .autoTakeover s (OnlyWords s · [])) := by
  intro take
  have cond : (undState s.tw && s.bit .twin Reg.Twin.CFG_AUTO_TAKE && s.takeConds.all id) = true ↔ take := by
    rw [Bool.and_eq_true, Bool.and_eq_true, and_assoc]
  refine ⟨fun yes => ?_, fun no => Answers.unchanged (congrArg settle (if_neg (cond.not.mpr no)))⟩
  obtain ⟨state, cold, closed⟩ := s.takeOver_shows
  refine .of_settle (congrArg settle (if_pos (cond.mpr yes))) ⟨?_, ?_, ?_⟩
  · rw [State.tw_settled, state]
  · rw [State.settled_twin, cold]
  · rw [State.twin_bit_settled _ (by decide) (by decide), closed]

/-! A takeover without a running render (R500) -/

theorem coldTakeoverRestore_answers_idle (other : s.tw ≠ Tw.taking) : Answers .coldTakeoverRestore s (OnlyWords s · []) :=
  Answers.unchanged (congrArg settle (if_neg (by
    rw [decide_eq_false other, Bool.false_and, Bool.false_and]
    exact Bool.false_ne_true)))

/-- The restore of a cold takeover is still to be made. -/
theorem restores_cond (takes : s.tw = Tw.taking) (cold : s.twin.cold = true) (due : s.twin.restored = false) :
    (decide (s.tw = Tw.taking) && s.twin.cold && !s.twin.restored) = true := by
  rw [decide_eq_true takes, cold, due]
  rfl

theorem coldTakeoverRestore_answers_none (takes : s.tw = Tw.taking) (cold : s.twin.cold = true) (due : s.twin.restored = false)
    (none_ : s.newestImage = none) : Answers .coldTakeoverRestore s (fun t => t.tw = Tw.wait ∧
      (t.fld .twin Reg.Hdr.EVENTS).testBit 11 = true) := by
  obtain ⟨u, hu⟩ : ∃ u, s.toWait.event .twin 11 = u := ⟨_, rfl⟩
  have runs : exec .coldTakeoverRestore s = settle (u.takeEnds Status.badParam 6) := by
    have body : exec .coldTakeoverRestore s = execColdTakeoverRestore s := rfl
    rw [body]
    unfold execColdTakeoverRestore
    rw [if_pos (restores_cond takes cold due), none_]
    dsimp only
    rw [hu]
  have state : u.tw = Tw.wait := by
    rw [← hu]
    exact (State.fld_event_other _ 11 (by decide)).trans s.toWait_shows.1
  have told : (u.fld .twin Reg.Hdr.EVENTS).testBit 11 = true := by
    rw [← hu]
    exact State.event_recorded _ _ (by decide)
  have ended := Turned.takeEnds u Status.badParam 6
  refine .of_settle runs ⟨?_, ?_⟩
  · rw [State.tw_settled, ended.tw, state]
  · rw [State.twin_fld_settled _ (by decide) (by decide), ended.fld (by decide)]
    exact told

theorem coldTakeoverRestore_answers_image (takes : s.tw = Tw.taking) (cold : s.twin.cold = true) (due : s.twin.restored = false)
    (some_ : s.newestImage ≠ none) : Answers .coldTakeoverRestore s (fun t => t.twin.restored = true ∧ t.render.starting = true) := by
  obtain ⟨im, him⟩ := Option.ne_none_iff_exists'.mp some_
  obtain ⟨u, runs⟩ : ∃ u : State, exec .coldTakeoverRestore s = settle { u with
      render := { u.render with starting := true, stopping := false }, twin := { u.twin with restored := true } } := by
    have body : exec .coldTakeoverRestore s = execColdTakeoverRestore s := rfl
    rw [body]
    unfold execColdTakeoverRestore
    rw [if_pos (restores_cond takes cold due), him]
    exact ⟨_, rfl⟩
  refine .of_settle runs ⟨?_, ?_⟩
  · rw [State.settled_twin]
  · rw [State.settled_render]

/-! Egress opens (R497) -/

/-- The fields that the opening of egress by a takeover writes, beside those of its opening. -/
def takenFields : List (Blk × Fld) := curtainFields ++ [(.twin, Reg.Hdr.EVENTS), (.twin, Reg.Twin.TAKEOVER_COUNT),
  (.twin, Reg.Twin.EVENT_AT_LO), (.twin, Reg.Twin.EVENT_AT_HI), (.capture, Reg.Capture.SERVICE_STATE), (.capture, Reg.Hdr.EVENTS)]

theorem State.tellPeer_byTake (s : State) (f : PeerFrame) : (s.tellPeer f).twin.byTake = s.twin.byTake :=
  ite_keeps (fun t : State => t.twin.byTake) rfl rfl

theorem State.setCauses_byTake (s : State) (v : Nat) : (s.setCauses v).twin.byTake = s.twin.byTake := by
  have latched (t : State) : t.latchCause.twin.byTake = t.twin.byTake :=
    ite_keeps (fun t : State => t.twin.byTake) (congrArg TwinState.byTake (State.event_twin _ _ _)) rfl
  have told (t : State) : t.reportCauses.twin.byTake = t.twin.byTake :=
    ite_keeps (fun t : State => t.twin.byTake) (State.tellPeer_byTake _ _) (t.tellPeer_byTake _)
  obtain ⟨u, hu⟩ : ∃ u, s.set .curtain Reg.Curtain.STATUS_CAUSE v = u := ⟨_, rfl⟩
  have first : u.twin.byTake = s.twin.byTake := by
    rw [← hu]
    rfl
  have second : (if s.causes ≠ 0 ∧ v = 0 then ({ u with curtain := { u.curtain with clearedAt := some u.render.tick } } : State)
      else if v ≠ 0 then u.latchCause else u).twin.byTake = s.twin.byTake := by
    split
    · exact first
    · split
      · exact (latched u).trans first
      · exact first
  unfold State.setCauses
  rw [hu]
  exact (ite_keeps (fun t : State => t.twin.byTake) (told _) rfl).trans second

theorem State.beginRecovery_shows (s : State) : s.beginRecovery.twin = s.twin ∧
    Writes s s.beginRecovery [(.capture, Reg.Capture.SERVICE_STATE), (.capture, Reg.Hdr.EVENTS)] := by
  obtain ⟨u, hu⟩ : ∃ u : State, { s with measure := { s.measure with recovery := true } } = u := ⟨_, rfl⟩
  have first : Writes s u [(.capture, Reg.Capture.SERVICE_STATE), (.capture, Reg.Hdr.EVENTS)] ∧ u.twin = s.twin := by
    rw [← hu]
    exact ⟨.of_act rfl, rfl⟩
  have body : s.beginRecovery = u.serviceState := by
    rw [← hu]
    rfl
  rw [body]
  unfold State.serviceState
  refine ⟨?_, .trans first.1 (.ite (.refl _ _) ?_)⟩
  · generalize (if u.measure.startup then 1 else 0) + (if u.measure.recovery then 2 else 0) = v
    dsimp only
    split
    · exact first.2
    · rw [State.event_twin]
      exact first.2
  exact ((Writes.refl u _).set (b := .capture) (f := Reg.Capture.SERVICE_STATE) _ List.mem_cons_self).event (b := .capture) 1
    (by simp)

/-- The takeover counts, with its time. -/
def State.takeCounted (s : State) : State :=
  (s.count .twin Reg.Twin.TAKEOVER_COUNT).set64 .twin Reg.Twin.EVENT_AT_LO Reg.Twin.EVENT_AT_HI s.render.rsi

/-- What opening by a takeover adds to the state that has opened. -/
def State.takenOver (s : State) : State :=
  ((s.setCauses (s.causes &&& 7)).event .twin 5).takeCounted.beginRecovery.takeEnds Status.ok 0

theorem State.takenOver_shows (s : State) :
    let t := s.takenOver
    t.tw = s.tw ∧ t.bit .twin Reg.Twin.CLAIM_EGRESS_OPEN = s.bit .twin Reg.Twin.CLAIM_EGRESS_OPEN ∧
      t.twin.byTake = s.twin.byTake ∧ (t.fld .twin Reg.Hdr.EVENTS).testBit 5 = true ∧
      t.fld .twin Reg.Twin.TAKEOVER_COUNT = (s.fld .twin Reg.Twin.TAKEOVER_COUNT + 1) % 2 ^ 32 := by
  have acts := (s.setCauses_acts (s.causes &&& 7)).writes
  have kept := s.setCauses_byTake (s.causes &&& 7)
  obtain ⟨a, ha⟩ : ∃ a, s.setCauses (s.causes &&& 7) = a := ⟨_, rfl⟩
  obtain ⟨b, hb⟩ : ∃ b, (a.event .twin 5).count .twin Reg.Twin.TAKEOVER_COUNT = b := ⟨_, rfl⟩
  obtain ⟨d, hd⟩ : ∃ d, b.set64 .twin Reg.Twin.EVENT_AT_LO Reg.Twin.EVENT_AT_HI (a.event .twin 5).render.rsi = d := ⟨_, rfl⟩
  have body : s.takenOver = d.beginRecovery.takeEnds Status.ok 0 := by
    unfold State.takenOver State.takeCounted
    rw [ha, hb, hd]
  rw [ha] at acts kept
  have counts : Writes (a.event .twin 5) b [(.twin, Reg.Twin.TAKEOVER_COUNT)] := by
    rw [← hb]
    exact (Writes.refl _ _).count (b := .twin) (f := Reg.Twin.TAKEOVER_COUNT) 1 List.mem_cons_self
  have events : Writes a (a.event .twin 5) [(.twin, Reg.Hdr.EVENTS)] := (Writes.refl a _).event (b := .twin) 5 List.mem_cons_self
  have stamps : Writes b d [(.twin, Reg.Twin.EVENT_AT_LO), (.twin, Reg.Twin.EVENT_AT_HI)] := by
    rw [← hd]
    exact (Writes.refl b _).set64 (b := .twin) _ (by simp) (by simp)
  have told : (b.fld .twin Reg.Hdr.EVENTS).testBit 5 = true := by
    rw [counts.fld _ _ (by decide)]
    exact State.event_recorded _ _ (by decide)
  have counted : b.fld .twin Reg.Twin.TAKEOVER_COUNT = (s.fld .twin Reg.Twin.TAKEOVER_COUNT + 1) % 2 ^ 32 := by
    rw [← hb, State.fld_count_same _ _ ⟨by decide, by decide⟩, events.fld _ _ (by decide), acts.fld _ _ (by decide)]
    rfl
  have twin : d.twin = a.twin := by
    rw [← hd, ← hb, State.set64_twin, State.count_twin, State.event_twin]
  obtain ⟨rTwin, rWrites⟩ := d.beginRecovery_shows
  have ended := Turned.takeEnds d.beginRecovery Status.ok 0
  have last (f : Fld) (hf : f.off < 0x1000) (hs : ∀ w ∈ [(Blk.twin, Reg.Twin.EVENT_AT_LO), (Blk.twin, Reg.Twin.EVENT_AT_HI)],
      FldApart w.1 w.2 .twin f) (hc : ∀ w ∈ [(Blk.capture, Reg.Capture.SERVICE_STATE), (Blk.capture, Reg.Hdr.EVENTS)],
      FldApart w.1 w.2 .twin f) : s.takenOver.fld .twin f = b.fld .twin f := by
    rw [body, ended.fld (by simp only [Blk.base]; omega), rWrites.fld _ _ hc, stamps.fld _ _ hs]
  have first (f : Fld) (hs : ∀ w ∈ [(Blk.twin, Reg.Twin.TAKEOVER_COUNT)], FldApart w.1 w.2 .twin f)
      (he : ∀ w ∈ [(Blk.twin, Reg.Hdr.EVENTS)], FldApart w.1 w.2 .twin f) (hc : ∀ w ∈ curtainFields, FldApart w.1 w.2 .twin f) :
      b.fld .twin f = s.fld .twin f := by
    rw [counts.fld _ _ hs, events.fld _ _ he, acts.fld _ _ hc]
  refine ⟨?_, ?_, ?_, ?_, ?_⟩
  · exact (last _ (by decide) (by decide) (by decide)).trans (first _ (by decide) (by decide) (by decide))
  · unfold State.bit
    rw [last _ (by decide) (by decide) (by decide), first _ (by decide) (by decide) (by decide)]
  · rw [body]
    exact (congrArg TwinState.byTake ended.twin).trans ((congrArg TwinState.byTake (rTwin.trans twin)).trans kept)
  · rw [last _ (by decide) (by decide) (by decide)]
    exact told
  · rw [last _ (by decide) (by decide) (by decide), counted]

theorem egressOpen_answers_idle (other : s.tw ≠ Tw.taking) : Answers .egressOpen s (OnlyWords s · []) :=
  Answers.unchanged (congrArg settle (if_neg (by
    rw [decide_eq_false other, Bool.false_and, Bool.false_and]
    exact Bool.false_ne_true)))

theorem egressOpen_answers (takes : s.tw = Tw.taking) (may : s.mayOpen = true)
    (ready : s.twin.cold = false ∨ (s.twin.restored = true ∧ s.running = true)) : Answers .egressOpen s (fun t => t.tw = Tw.alone ∧
      t.bit .twin Reg.Twin.CLAIM_EGRESS_OPEN = true ∧ t.twin.byTake = true ∧ (t.fld .twin Reg.Hdr.EVENTS).testBit 5 = true ∧
      t.fld .twin Reg.Twin.TAKEOVER_COUNT = (s.fld .twin Reg.Twin.TAKEOVER_COUNT + 1) % 2 ^ 32) := by
  have cond : (decide (s.tw = Tw.taking) && s.mayOpen && (!s.twin.cold || (s.twin.restored && s.running))) = true := by
    rw [decide_eq_true takes, may, Bool.true_and, Bool.true_and, Bool.or_eq_true, Bool.not_eq_true', Bool.and_eq_true]
    exact ready
  obtain ⟨a, ha⟩ : ∃ a : State, a = { s with twin := { s.twin with byTake := true } } := ⟨_, rfl⟩
  have runs : exec .egressOpen s = settle (a.enter Tw.alone).openEgress.takenOver := by
    rw [ha]
    exact congrArg settle (if_pos cond)
  have mayAlone : a.mayOpenIn Tw.alone = true := by
    have same : a.mayOpenIn Tw.alone = s.mayOpenIn s.tw := by
      rw [ha, takes]
      rfl
    rw [same, ← s.mayOpen_eq, may]
  have counted : a.fld .twin Reg.Twin.TAKEOVER_COUNT = s.fld .twin Reg.Twin.TAKEOVER_COUNT := by
    rw [ha]
    rfl
  have byTake : a.twin.byTake = true := by rw [ha]
  have entered := a.enter_entered (c := Tw.alone) (by decide)
  obtain ⟨oTwin, -, beside, opens⟩ := (a.enter Tw.alone).openEgress_shows
  obtain ⟨state, open_, kept, told, count_⟩ := (a.enter Tw.alone).openEgress.takenOver_shows
  refine .of_settle runs ⟨?_, ?_, ?_, ?_, ?_⟩
  · rw [State.tw_settled, state]
    exact (beside _ _ (by decide)).trans entered.state
  · rw [State.twin_bit_settled _ (by decide) (by decide), open_]
    exact opens (entered.mayOpen.trans mayAlone)
  · rw [State.settled_twin, kept, oTwin, entered.twin, byTake]
  · rw [State.twin_fld_settled _ (by decide) (by decide)]
    exact told
  · rw [State.twin_fld_settled _ (by decide) (by decide), count_, beside _ _ (by decide), entered.others _ _ (by decide) (by decide),
      counted]

/-! Handover (R504) -/

theorem handoverBoundary_answers_early {at_ : Nat} {c : Option (Nat × Nat)} (h : s.twin.handover = some (at_, c))
    (early : s.render.rsi < at_) : Answers .handoverBoundary s (OnlyWords s · []) := by
  refine Answers.unchanged ?_
  have body : exec .handoverBoundary s = settle s.handoverNow := rfl
  rw [body]
  delta State.handoverNow
  rw [h]
  exact congrArg settle (if_neg (not_le.mpr early))

/-- The state whose roles are to swap. -/
def State.handing (s : State) : State := { s with twin := { s.twin with handover := none, byTake := false } }

/-- The swap of the roles. -/
def State.swapped (s : State) : State :=
  if s.tw = Tw.lockPri then s.enter Tw.lockUnd
  else if s.tw = Tw.lockUnd then
    State.openEgress { (s.enter Tw.lockPri) with twin := { s.twin with won := true, barred := none } }
  else s

theorem exec_handoverBoundary {at_ : Nat} (h : s.twin.handover = some (at_, none)) (due : at_ ≤ s.render.rsi) :
    exec .handoverBoundary s = settle ((s.handing.swapped.event .twin 7).set64 .twin Reg.Twin.EVENT_AT_LO Reg.Twin.EVENT_AT_HI at_) := by
  have body : exec .handoverBoundary s = settle s.handoverNow := rfl
  rw [body]
  delta State.handoverNow
  rw [h]
  exact congrArg settle (if_pos due)

/-- What the command leaves of the swapped state. -/
theorem handoverBoundary_answers_swapped {at_ : Nat} (h : s.twin.handover = some (at_, none)) (due : at_ ≤ s.render.rsi)
    {c : Nat} {o : Bool} (state : s.handing.swapped.tw = c) (open_ : s.handing.swapped.bit .twin Reg.Twin.CLAIM_EGRESS_OPEN = o)
    (ended : s.handing.swapped.twin.handover = none) : Answers .handoverBoundary s (fun t => t.tw = c ∧
      (t.fld .twin Reg.Hdr.EVENTS).testBit 7 = true ∧ t.bit .twin Reg.Twin.CLAIM_EGRESS_OPEN = o ∧ t.twin.handover = none) := by
  have runs := exec_handoverBoundary h due
  generalize s.handing.swapped = u at runs state open_ ended
  obtain ⟨v, hv⟩ : ∃ v, (u.event .twin 7).set64 .twin Reg.Twin.EVENT_AT_LO Reg.Twin.EVENT_AT_HI at_ = v := ⟨_, rfl⟩
  rw [hv] at runs
  have stamps : Writes (u.event .twin 7) v [(.twin, Reg.Twin.EVENT_AT_LO), (.twin, Reg.Twin.EVENT_AT_HI)] := by
    rw [← hv]
    exact (Writes.refl _ _).set64 (b := .twin) _ (by simp) (by simp)
  have twin : v.twin = u.twin := by
    rw [← hv, State.set64_twin, State.event_twin]
  refine .of_settle runs ⟨?_, ?_, ?_, ?_⟩
  · rw [State.tw_settled]
    exact (stamps.fld _ _ (by decide)).trans ((State.fld_event_other _ 7 (by decide)).trans state)
  · rw [State.twin_fld_settled _ (by decide) (by decide), stamps.fld _ _ (by decide)]
    exact State.event_recorded _ _ (by decide)
  · rw [State.twin_bit_settled _ (by decide) (by decide), stamps.bit _ _ (by decide)]
    unfold State.bit at open_ ⊢
    rw [State.fld_event_other _ 7 (by decide)]
    exact open_
  · rw [State.settled_twin, twin, ended]

theorem handoverBoundary_answers_yields {at_ : Nat} (h : s.twin.handover = some (at_, none)) (due : at_ ≤ s.render.rsi)
    (leads : s.tw = Tw.lockPri) : Answers .handoverBoundary s (fun t => t.tw = Tw.lockUnd ∧
      (t.fld .twin Reg.Hdr.EVENTS).testBit 7 = true ∧ t.bit .twin Reg.Twin.CLAIM_EGRESS_OPEN = false ∧ t.twin.handover = none) := by
  have entered := s.handing.enter_entered (c := Tw.lockUnd) (by decide)
  have swap : s.handing.swapped = s.handing.enter Tw.lockUnd := if_pos leads
  refine handoverBoundary_answers_swapped h due ?_ ?_ ?_
  · rw [swap, entered.state]
  · rw [swap, entered.closes (s.handing.mayOpenIn_closed rfl)]
  · rw [swap, entered.twin]
    rfl

theorem handoverBoundary_answers_takes {at_ : Nat} (h : s.twin.handover = some (at_, none)) (due : at_ ≤ s.render.rsi)
    (follows : s.tw = Tw.lockUnd) (tie : s.twin.tie = false) : Answers .handoverBoundary s (fun t => t.tw = Tw.lockPri ∧
      (t.fld .twin Reg.Hdr.EVENTS).testBit 7 = true ∧ t.bit .twin Reg.Twin.CLAIM_EGRESS_OPEN = true ∧ t.twin.handover = none) := by
  have tw : s.handing.tw = Tw.lockUnd := follows
  have entered := s.handing.enter_entered (c := Tw.lockPri) (by decide)
  obtain ⟨v, hv⟩ : ∃ v : State, { (s.handing.enter Tw.lockPri) with
      twin := { s.handing.twin with won := true, barred := none } } = v := ⟨_, rfl⟩
  have other : ¬ s.handing.tw = Tw.lockPri := by
    rw [tw]
    decide
  have swap : s.handing.swapped = v.openEgress := by
    rw [← hv]
    exact (if_neg other).trans (if_pos tw)
  have state : v.tw = Tw.lockPri := by
    rw [← hv]
    exact entered.state
  have engines : v.twin.won = true ∧ v.twin.barred = none ∧ v.twin.tie = s.twin.tie ∧ v.twin.handover = none := by
    rw [← hv]
    exact ⟨rfl, rfl, rfl, rfl⟩
  obtain ⟨won, barred, tie2, ended⟩ := engines
  have may : v.mayOpen = true := by
    unfold State.mayOpen
    rw [state, won, barred, tie2, tie]
    rfl
  obtain ⟨twin, -, beside, opens⟩ := v.openEgress_shows
  refine handoverBoundary_answers_swapped h due ?_ ?_ ?_
  · rw [swap]
    exact (beside _ _ (by decide)).trans state
  · rw [swap, opens may]
  · rw [swap, twin, ended]

end

end Sys2Proof.Machine
end

section
/-! PROOFS. Twins and Ndodom (O58). -/

namespace Sys2Proof.Machine

open Sys2Proof

/-- Frames from the peer, while the link is up. -/
theorem frames_answer (s : State) (up : s.bit .ndodom Reg.Ndodom.STATUS_LINK = true) :
    (s.attached = true → Answers (.ndodomFrame .detach) s (fun t => t.twin = { s.twin with detach := some none } ∧
      OnlyWords { s with twin := t.twin } t [])) ∧
    (∀ at_, s.tw = Tw.lockUnd → Answers (.ndodomFrame (.handover at_)) s (fun t =>
      t.twin = { s.twin with handover := some (at_, none) } ∧ OnlyWords { s with twin := t.twin } t [])) ∧
    (s.lockPri = true → Answers (.ndodomFrame .resync) s (fun t => t.twin = { s.twin with freeze := true } ∧
      OnlyWords { s with twin := t.twin } t [])) :=
  ⟨fun joined => onlyTwin_answers ((exec_ndodomFrame up _).trans (congrArg settle (if_pos joined))),
    fun _ follows => onlyTwin_answers ((exec_ndodomFrame up _).trans (congrArg settle (if_pos follows))),
    fun leads => onlyTwin_answers ((exec_ndodomFrame up _).trans (congrArg settle (if_pos leads)))⟩

/-- Settles O58: the cases of each command, with what entering a state, the gate of egress and the ends of commands leave
of the twin's and the link's pages. -/
theorem twinsAndNdodom : Obligations.TwinsAndNdodom := by
  unfold Obligations.TwinsAndNdodom
  refine ⟨fun s m => ⟨mode_answers_refused, mode_answers⟩, fun s claim serial hc => claimCycle_answers hc,
    claimSeenTimeout_answers, peerpresChange_answers, ndodomUp_answers,
    fun s lane => ⟨ndodomDown_answers s, laneLost_answers s, laneBack_answers s⟩,
    fun s down f => ndodomFrame_answers_down down f, fun s up => ?_, fun s => ?_,
    fun s pair serial => ⟨(netHbRx_answers s pair serial).1, (netHbRx_answers s pair serial).2, netHbLost_answers s⟩,
    fun s => ?_, fun s b link => ?_, fun s b x y own peer => ⟨fun same verifies => ?_, outputCrcCompare_answers_differ own peer⟩,
    fun s => ⟨replayCaughtUp_answers, ?_, ?_⟩⟩
  · obtain ⟨detach, handover, resync⟩ := frames_answer s up
    exact ⟨identity_answers up, joinFrame_answers up, detach, handover, mirrored_answers up, joinedFrame_answers up,
      joinedFrame_answers_again up, resync⟩
  · refine ⟨fun off => ⟨heartbeatSend_answers_idle (.inl off), heartbeatCheck_answers_idle (.inl off)⟩,
      fun idle => heartbeatSend_answers_idle (.inr idle), fun done => heartbeatCheck_answers_idle (.inr done),
      fun on_ link start fresh => ?_, fun on_ fresh => ?_⟩
    · have due : ¬ s.beatIdle := not_or.mpr ⟨on_, not_or.mpr ⟨not_not_intro start, fresh⟩⟩
      exact ⟨heartbeatSend_answers link due, fun q => heartbeatSend_answers_net link due⟩
    · have due : ¬ s.beatChecked := not_or.mpr ⟨on_, fresh⟩
      exact ⟨heartbeatCheck_answers_heard due, heartbeatCheck_answers_missed due, heartbeatCheck_answers_lost due⟩
  · exact ⟨(autoTakeover_answers s).1, (autoTakeover_answers s).2, egressOpen_answers,
      fun other => ⟨egressOpen_answers_idle other, coldTakeoverRestore_answers_idle other⟩, fun takes cold due =>
      ⟨coldTakeoverRestore_answers_none takes cold due, coldTakeoverRestore_answers_image takes cold due⟩⟩
  · exact ⟨holdings_answers link, holdings_answers_idle, departureReport_answers link, snapPeriod_answers link, joined_answers link⟩
  · subst same
    exact outputCrcCompare_answers_equal own peer verifies
  · exact fun c a join alone late flies open_ single tag h8 _ => joinTimeout_answers join alone late flies open_ single tag h8
  · exact fun at_ h => ⟨handoverBoundary_answers_early h, handoverBoundary_answers_yields h, handoverBoundary_answers_takes h⟩

end Sys2Proof.Machine
end

section
/-! PROOFS. The test access port, and what a reset leaves (R529, R530, R541, R570). -/

namespace Sys2Proof.Machine

open Sys2Proof

/-! The test access port (R570) -/

theorem Tap.clock_capture {t : Tap} {d : Bool} (on_ : t.trstB = true) (captures : t.state = .captureDr) (id_ : t.idcode = true) :
    t.clock false d = { trstB := true, state := .shiftDr, idcode := true, shift := (List.range 32).map tapIdcode.getLsbD } := by
  obtain ⟨trstB, state, idcode, shift⟩ := t
  subst on_ captures id_
  rfl

theorem Tap.clock_shift {t : Tap} (d : Bool) (on_ : t.trstB = true) (shifts : t.state = .shiftDr) :
    t.clock false d = { t with shift := t.shift.drop 1 ++ [d] } := by
  obtain ⟨trstB, state, idcode, shift⟩ := t
  subst on_ shifts
  exact congrArg (fun i => ({ trstB := true, state := .shiftDr, idcode := i, shift := shift.drop 1 ++ [d] } : Tap)) (Bool.or_false idcode)

/-- The next bit to leave a shifting register. -/
theorem Tap.shift_bits {l : List Bool} (bits : List Bool) {t : Tap} (on_ : t.trstB = true) (shifts : t.state = .shiftDr)
    (front : ∃ tail, t.shift = l ++ tail) (few : bits.length < l.length) :
    (bits.foldl (fun q d => q.clock false d) t).tdo = some (l[bits.length]'few) := by
  induction bits generalizing l t with
  | nil =>
    obtain ⟨tail, hl⟩ := front
    cases l with
    | nil => exact absurd few (Nat.lt_irrefl 0)
    | cons b l =>
      unfold Tap.tdo
      rw [List.foldl_nil, if_pos (.inl shifts), hl]
      rfl
  | cons d bits ih =>
    obtain ⟨tail, hl⟩ := front
    cases l with
    | nil => exact absurd few (Nat.not_lt_zero _)
    | cons b l =>
      rw [List.foldl_cons, Tap.clock_shift d on_ shifts]
      refine (ih (l := l) (t := { t with shift := t.shift.drop 1 ++ [d] }) on_ shifts ⟨tail ++ [d], ?_⟩ (Nat.lt_of_succ_lt_succ few)).trans ?_
      · rw [hl]
        exact List.append_assoc _ _ _
      · rfl

theorem tap_shows_idcode {t : Tap} (first : Bool) {bits : List Bool} (on_ : t.trstB = true) (captures : t.state = .captureDr)
    (id_ : t.idcode = true) (few : bits.length < 32) :
    (bits.foldl (fun q d => q.clock false d) (t.clock false first)).tdo = some (tapIdcode.getLsbD bits.length) := by
  have inside : bits.length < ((List.range 32).map tapIdcode.getLsbD).length := by
    rw [List.length_map, List.length_range]
    exact few
  rw [Tap.clock_capture on_ captures id_]
  refine (Tap.shift_bits bits rfl rfl ⟨[], (List.append_nil _).symm⟩ inside).trans ?_
  rw [List.getElem_map, List.getElem_range]

/-! Stores written from the entries of another -/

theorem Map.rising_sorted {α : Type} (m : Map α) (lo : Option Nat) :
    ((Map.rising lo m).Pairwise (fun a b => a.1 < b.1)) ∧ ∀ e ∈ Map.rising lo m, Map.above lo e.1 = true := by
  induction m generalizing lo with
  | nil => exact ⟨.nil, fun _ h => nomatch h⟩
  | cons e m ih =>
    obtain ⟨k, v⟩ := e
    rw [Map.rising_cons]
    split
    · next above =>
      obtain ⟨sorted, over_⟩ := ih (some k)
      have beyond (e : Nat × α) (he : e ∈ Map.rising (some k) m) : k < e.1 := of_decide_eq_true (over_ e he)
      refine ⟨List.pairwise_cons.mpr ⟨fun e he => beyond e he, sorted⟩, fun e he => ?_⟩
      rcases List.mem_cons.mp he with rfl | rest
      · exact above
      · cases lo with
        | none => rfl
        | some l => exact decide_eq_true ((of_decide_eq_true above).trans (beyond e rest))
    · exact ih lo

theorem Map.only_sorted {α : Type} (p : Nat → Bool) (m : Map α) : (Map.only p m).Pairwise (fun a b => a.1 < b.1) :=
  (Map.rising_sorted m none).1.filter _

/-- A store into which the entries of a sorted one are written. -/
theorem Map.get_foldl_put_sorted {α : Type} [DecidableEq α] (d : α) (k : Nat) (l : List (Nat × α))
    (sorted : l.Pairwise (fun a b => a.1 < b.1)) (m : Map α) :
    Map.get d k (l.foldl (fun (m : Map α) (e : Nat × α) => m.put d e.1 e.2) m) =
      if k ∈ l.map (·.1) then Map.get d k l else Map.get d k m := by
  induction l generalizing m with
  | nil => rfl
  | cons e l ih =>
    obtain ⟨k', v⟩ := e
    obtain ⟨above, rest⟩ := List.pairwise_cons.mp sorted
    rw [List.foldl_cons, ih rest, List.map_cons, Map.get_cons]
    by_cases here : k = k'
    · subst here
      have absent : k ∉ l.map (·.1) := fun hm => by
        obtain ⟨e, he, same⟩ := List.mem_map.mp hm
        exact absurd (above e he) (by omega)
      rw [if_neg absent, if_pos List.mem_cons_self, if_neg (lt_irrefl k), if_pos rfl, Map.get_put_same]
    · rw [Map.get_put_other _ _ _ _ here]
      by_cases there : k ∈ l.map (·.1)
      · obtain ⟨e, he, same⟩ := List.mem_map.mp there
        have later : ¬ k < k' := by
          have := above e he
          omega
        rw [if_pos there, if_pos (List.mem_cons_of_mem _ there), if_neg later, if_neg here]
      · rw [if_neg there, if_neg (by simp [here, there])]

/-- Pages written over a store in which their words are absent. -/
theorem Map.get_foldl_put_only {α : Type} [DecidableEq α] (d : α) (p : Nat → Bool) (k : Nat) (was m : Map α) :
    Map.get d k ((was.only p).foldl (fun (m : Map α) (e : Nat × α) => m.put d e.1 e.2) m) =
      if p k = true ∧ k ∈ (was.only p).map (·.1) then Map.get d k was else Map.get d k m := by
  rw [Map.get_foldl_put_sorted d k _ (Map.only_sorted p was)]
  have inside (h : k ∈ (was.only p).map (·.1)) : p k = true := by
    obtain ⟨e, he, same⟩ := List.mem_map.mp h
    have := (List.mem_filter.mp he).2
    rwa [same] at this
  by_cases there : k ∈ (was.only p).map (·.1)
  · rw [if_pos there, if_pos ⟨inside there, there⟩, Map.get_only, if_pos (inside there)]
  · rw [if_neg there, if_neg fun h => there h.2]

/-! What resets write beside the reset values -/

/-- The fields a reset sets. -/
def resetFieldList : List (Blk × Fld) := [(.resetPage, Reg.Reset.CAUSE), (.resetPage, Reg.Reset.BOOT_BOOTSEL),
  (.resetPage, Reg.Reset.ROLLBACK_FUSED), (.twin, Reg.Twin.TWINID), (.twin, Reg.Twin.PEERPRES)]

theorem State.resetFields_shows (s : State) (cause : Nat) :
    let t := s.resetFields cause
    (∃ m, t = s.withAct m) ∧ Writes s t resetFieldList ∧
      t.fld .resetPage Reg.Reset.CAUSE = cause % 16 ∧ t.fld .resetPage Reg.Reset.BOOT_BOOTSEL = s.boot.bootsel % 4 ∧
      t.fld .resetPage Reg.Reset.ROLLBACK_FUSED = s.boot.fused % 2 ^ Reg.Reset.ROLLBACK_FUSED.width ∧
      t.bit .twin Reg.Twin.TWINID = s.boot.twinid := by
  obtain ⟨a, ha⟩ : ∃ a, s.set .resetPage Reg.Reset.CAUSE cause = a := ⟨_, rfl⟩
  obtain ⟨b, hb⟩ : ∃ b, a.set .resetPage Reg.Reset.BOOT_BOOTSEL s.boot.bootsel = b := ⟨_, rfl⟩
  obtain ⟨c, hc⟩ : ∃ c, b.set .resetPage Reg.Reset.ROLLBACK_FUSED s.boot.fused = c := ⟨_, rfl⟩
  obtain ⟨d, hd⟩ : ∃ d, c.setBit .twin Reg.Twin.TWINID s.boot.twinid = d := ⟨_, rfl⟩
  have engines : c.boot = s.boot ∧ c.twin = s.twin := by
    rw [← hc, ← hb, ← ha]
    exact ⟨rfl, rfl⟩
  have dTwin : d.twin = s.twin := by
    rw [← hd]
    exact engines.2
  have body : s.resetFields cause = d.setBit .twin Reg.Twin.PEERPRES s.twin.peerpres := by
    rw [← dTwin, ← hd, ← hc, ← hb, ← ha]
    rfl
  have aWrites : Writes s a [(.resetPage, Reg.Reset.CAUSE)] := by
    rw [← ha]
    exact (Writes.refl s _).set (b := .resetPage) (f := Reg.Reset.CAUSE) _ List.mem_cons_self
  have bWrites : Writes a b [(.resetPage, Reg.Reset.BOOT_BOOTSEL)] := by
    rw [← hb]
    exact (Writes.refl a _).set (b := .resetPage) (f := Reg.Reset.BOOT_BOOTSEL) _ List.mem_cons_self
  have cWrites : Writes b c [(.resetPage, Reg.Reset.ROLLBACK_FUSED)] := by
    rw [← hc]
    exact (Writes.refl b _).set (b := .resetPage) (f := Reg.Reset.ROLLBACK_FUSED) _ List.mem_cons_self
  have dWrites : Writes c d [(.twin, Reg.Twin.TWINID)] := by
    rw [← hd]
    exact (Writes.refl c _).set (b := .twin) (f := Reg.Twin.TWINID) (if s.boot.twinid then 1 else 0) List.mem_cons_self
  have last : Writes d (s.resetFields cause) [(.twin, Reg.Twin.PEERPRES)] := by
    rw [body]
    exact (Writes.refl d _).set (b := .twin) (f := Reg.Twin.PEERPRES) (if s.twin.peerpres then 1 else 0) List.mem_cons_self
  have whole : Writes s (s.resetFields cause) resetFieldList :=
    ((((aWrites.mono (by simp [resetFieldList])).trans (bWrites.mono (by simp [resetFieldList]))).trans
      (cWrites.mono (by simp [resetFieldList]))).trans (dWrites.mono (by simp [resetFieldList]))).trans
      (last.mono (by simp [resetFieldList]))
  refine ⟨⟨_, rfl⟩, whole, ?_, ?_, ?_, ?_⟩
  · rw [last.fld _ _ (by decide), dWrites.fld _ _ (by decide), cWrites.fld _ _ (by decide), bWrites.fld _ _ (by decide), ← ha]
    exact State.fld_set_same _ _ _ _ ⟨by decide, by decide⟩
  · rw [last.fld _ _ (by decide), dWrites.fld _ _ (by decide), cWrites.fld _ _ (by decide), ← hb]
    exact State.fld_set_same _ _ _ _ ⟨by decide, by decide⟩
  · rw [last.fld _ _ (by decide), dWrites.fld _ _ (by decide), ← hc]
    exact State.fld_set_same _ _ _ _ ⟨by decide, by decide⟩
  · rw [last.bit _ _ (by decide), ← hd]
    exact bit_setBit _ _ ⟨by decide, by decide⟩ rfl

/-- Of the boot's words only those of some pages are not at their reset values. -/
theorem bootWords_get (m : Model) {k : Nat} (pool : k ≠ Blk.dramc.base + 0x44) (path : k ≠ Blk.path.base + 0x40)
    (seat : ∀ q, q < 8 → k ≠ (Blk.seat q).base + 0x40) : Map.get 0#32 k (bootWords m) = 0#32 := by
  refine (Map.mem_get 0#32 k (bootWords m)).resolve_right fun there => ?_
  have keys : k ∈ (bootWords m).map (·.1) := List.mem_map_of_mem (f := (·.1)) there
  have tail : k ∉ (match m with
      | .m960 => []
      | .m940 => [(Blk.path.base + 0x40, 0x3000#32)]
      | .m920 => [(Blk.path.base + 0x40, 0x2800#32)] : Map Word).map (·.1) := by
    cases m
    · exact fun h => nomatch h
    · exact fun h => path (List.mem_singleton.mp h)
    · exact fun h => path (List.mem_singleton.mp h)
  unfold bootWords at keys
  rw [List.cons_append, List.map_cons, List.map_append, List.mem_cons, List.mem_append] at keys
  rcases keys with first | mid | last
  · exact pool first
  · obtain ⟨e, he, same⟩ := List.mem_map.mp mid
    obtain ⟨q, hq, rfl⟩ := List.mem_map.mp he
    exact seat q (List.mem_range.mp (List.mem_filter.mp hq).1) same.symm
  · exact tail last

theorem bootWords_other (m : Model) {k : Nat} (pool : k ≠ Blk.dramc.base + 0x44) (path : k ≠ Blk.path.base + 0x40)
    (seat : k < 0x10000 ∨ 0x18000 ≤ k) : Map.get 0#32 k (bootWords m) = 0#32 := by
  refine bootWords_get m pool path fun q hq => ?_
  simp only [Blk.base]
  omega

theorem State.reset_fld_settled (s : State) {f : Fld} (hf : f ∈ Reg.Hdr.EVENTS :: Reg.Reset.fields) :
    s.settled.fld .resetPage f = s.fld .resetPage f := by
  have all : ∀ f ∈ Reg.Hdr.EVENTS :: Reg.Reset.fields, wordAt .resetPage f ∉ statusWords := by decide
  exact s.settled_fld _ _ (all f hf)

theorem State.render_state_settled (s : State) : s.settled.stopped = s.stopped := by
  unfold State.stopped
  rw [s.settled_fld .render Reg.Render.STATE (by decide)]

/-! A power-on reset (R529, R530) -/

/-- The state of a power-on reset before its fields are shown. -/
theorem exec_powerOnReset (s : State) (bootsel : Nat) (twinid : Bool) : ∃ n : State,
    exec (.powerOnReset bootsel twinid) s = settle ((n.setBit .dramc Reg.Dramc.STATUS_ECC_ON n.boot.cfg.ecc).resetFields 1) ∧
      n.fab.act = bootWords s.model ∧ n.fab.commits = [] ∧ n.seats = [] ∧ n.snaps.slot0 = none ∧ n.boot.flash = s.boot.flash ∧
      n.boot.keys = s.boot.keys ∧ n.boot.warm = some false ∧ n.boot.bootsel = bootsel % 4 ∧ n.boot.twinid = twinid ∧
      n.boot.fused = s.boot.fused :=
  ⟨_, rfl, rfl, rfl, rfl, rfl, rfl, rfl, rfl, rfl, rfl, rfl⟩

theorem powerOnReset_answers (s : State) (bootsel : Nat) (twinid : Bool) :
    let r := Blk.resetPage
    Answers (.powerOnReset bootsel twinid) s (fun t =>
    t.fld r Reg.Reset.CAUSE = 1 ∧ t.fld r Reg.Reset.BOOT_BOOTSEL = bootsel % 4 ∧ t.bit .twin Reg.Twin.TWINID = twinid ∧
    t.boot.flash = s.boot.flash ∧ t.boot.keys = s.boot.keys ∧ t.boot.warm = some false ∧ t.fab.commits = [] ∧ t.seats = [] ∧
    t.snaps.slot0 = none ∧ t.stopped = true ∧
    t.fld r Reg.Reset.ROLLBACK_FUSED = s.boot.fused % 2 ^ Reg.Reset.ROLLBACK_FUSED.width) := by
  obtain ⟨n, runs, act, commits, seats, slot, flash, keys, warm, sel, id_, fused⟩ := exec_powerOnReset s bootsel twinid
  obtain ⟨e, he⟩ : ∃ e, n.setBit .dramc Reg.Dramc.STATUS_ECC_ON n.boot.cfg.ecc = e := ⟨_, rfl⟩
  rw [he] at runs
  have engines : e.fab.commits = n.fab.commits ∧ e.seats = n.seats ∧ e.snaps = n.snaps ∧ e.boot = n.boot := by
    rw [← he]
    exact ⟨rfl, rfl, rfl, rfl⟩
  obtain ⟨eCommits, eSeats, eSnaps, eBoot⟩ := engines
  have eWrites : Writes n e [(.dramc, Reg.Dramc.STATUS_ECC_ON)] := by
    rw [← he]
    exact (Writes.refl n _).set (b := .dramc) (f := Reg.Dramc.STATUS_ECC_ON) (if n.boot.cfg.ecc then 1 else 0) List.mem_cons_self
  obtain ⟨⟨m, shape⟩, writes, cause, bootsel_, fused_, twinid_⟩ := e.resetFields_shows 1
  have stopped : (e.resetFields 1).stopped = true := by
    have zero : n.fld .render Reg.Render.STATE = 0 := by
      unfold State.fld regGet
      rw [act, bootWords_other _ (by decide) (by decide) (by decide)]
      rfl
    unfold State.stopped
    rw [writes.fld _ _ (by decide), eWrites.fld _ _ (by decide), zero]
    rfl
  have kept : (e.resetFields 1).boot = n.boot ∧ (e.resetFields 1).fab.commits = n.fab.commits ∧ (e.resetFields 1).seats = n.seats ∧
      (e.resetFields 1).snaps = n.snaps := by
    rw [shape]
    exact ⟨eBoot, eCommits, eSeats, eSnaps⟩
  obtain ⟨kBoot, kCommits, kSeats, kSnaps⟩ := kept
  rw [eBoot] at bootsel_ fused_ twinid_
  refine .of_settle runs ⟨?_, ?_, ?_, ?_, ?_, ?_, ?_, ?_, ?_, ?_, ?_⟩
  · rw [State.reset_fld_settled _ (by decide), cause]
  · rw [State.reset_fld_settled _ (by decide), bootsel_, sel, Nat.mod_mod]
  · rw [State.twin_bit_settled _ (by decide) (by decide), twinid_, id_]
  · rw [State.settled_boot, kBoot, flash]
  · rw [State.settled_boot, kBoot, keys]
  · rw [State.settled_boot, kBoot, warm]
  · rw [State.settled_fab_commits, kCommits, commits]
  · rw [State.settled_seats, kSeats, seats]
  · rw [State.settled_snaps, kSnaps, slot]
  · rw [State.render_state_settled, stopped]
  · rw [State.reset_fld_settled _ (by decide), fused_, fused]

end Sys2Proof.Machine
end

section
/-! PROOFS. What a warm reset keeps (R227, R466, R529, R541). -/

namespace Sys2Proof.Machine

open Sys2Proof

/-! The greenroom's pages -/

/-- The words of the greenroom and jack pages of `was`, written over `new`. -/
def keepPages (new was : RegMap) : RegMap :=
  ((pageWords .greenroom was) ++ (pageWords .jack was)).foldl (fun (m : RegMap) (e : Nat × Word) => m.put 0#32 e.1 e.2) new

theorem page_get (b : Blk) (was m : RegMap) (k : Nat) (zero : Map.get 0#32 k m = 0#32 ∨ Map.get 0#32 k m = Map.get 0#32 k was) :
    Map.get 0#32 k ((pageWords b was).foldl (fun (m : RegMap) (e : Nat × Word) => m.put 0#32 e.1 e.2) m) =
      if b.base ≤ k ∧ k < b.base + 0x1000 then Map.get 0#32 k was else Map.get 0#32 k m := by
  obtain ⟨p, hp⟩ : ∃ p : Nat → Bool, (fun k => decide (b.base ≤ k ∧ k < b.base + 0x1000)) = p := ⟨_, rfl⟩
  have inside : p k = true ↔ b.base ≤ k ∧ k < b.base + 0x1000 := by
    rw [← hp]
    exact decide_eq_true_iff
  have page : pageWords b was = Map.only p was := by
    rw [← hp]
    rfl
  rw [page, Map.get_foldl_put_only]
  by_cases here : b.base ≤ k ∧ k < b.base + 0x1000
  · rw [if_pos here]
    by_cases there : k ∈ (Map.only p was).map (·.1)
    · rw [if_pos ⟨inside.mpr here, there⟩]
    · have absent : Map.get 0#32 k was = 0#32 := by
        have kept := Map.get_only 0#32 p k was
        rw [if_pos (inside.mpr here)] at kept
        rw [← kept]
        exact (Map.mem_get 0#32 k _).resolve_right fun hm => there (List.mem_map_of_mem (f := (·.1)) hm)
      rw [if_neg fun h => there h.2]
      rcases zero with none_ | same
      · rw [none_, absent]
      · exact same
  · rw [if_neg here, if_neg fun h => here (inside.mp h.1)]

theorem keepPages_get {new was : RegMap} {k : Nat} (zero : Map.get 0#32 k new = 0#32) : Map.get 0#32 k (keepPages new was) =
    if (Blk.greenroom.base ≤ k ∧ k < Blk.greenroom.base + 0x1000) ∨ (Blk.jack.base ≤ k ∧ k < Blk.jack.base + 0x1000)
      then Map.get 0#32 k was else 0#32 := by
  unfold keepPages
  rw [List.foldl_append]
  have first := page_get .greenroom was new k (.inl zero)
  by_cases green : Blk.greenroom.base ≤ k ∧ k < Blk.greenroom.base + 0x1000
  · rw [if_pos green] at first
    rw [page_get .jack was _ k (.inr first), first, if_pos (Or.inl green), ite_self]
  · rw [if_neg green] at first
    rw [page_get .jack was _ k (.inl (first.trans zero))]
    by_cases jack : Blk.jack.base ≤ k ∧ k < Blk.jack.base + 0x1000
    · rw [if_pos jack, if_pos (.inr jack)]
    · rw [if_neg jack, if_neg (not_or.mpr ⟨green, jack⟩), first, zero]

/-! The twin's configuration -/

/-- The twin's fields that a host writes are those of `s`. -/
def State.twinKept (n s : State) : State :=
  Reg.Twin.fields.foldl (fun n f => if f.acc = .rw || f.acc = .rwi then n.setBoth .twin f (s.fld .twin f) else n) n

/-- A state but for the words of its registers. -/
def State.outside (s : State) : State := { s with fab := { s.fab with act := [], stg := [] } }

theorem State.outside_setBoth (s : State) (b : Blk) (f : Fld) (v : Nat) : (s.setBoth b f v).outside = s.outside := rfl

theorem State.outside_set (s : State) (b : Blk) (f : Fld) (v : Nat) : (s.set b f v).outside = s.outside := rfl

theorem State.outside_setBit (s : State) (b : Blk) (f : Fld) (v : Bool) : (s.setBit b f v).outside = s.outside := rfl

theorem State.outside_withAct (s : State) (m : RegMap) : (s.withAct m).outside = s.outside := rfl

theorem keptFold_writes (s : State) (l : List Fld) (n : State) :
    Writes n (l.foldl (fun n f => if f.acc = .rw || f.acc = .rwi then n.setBoth .twin f (s.fld .twin f) else n) n)
      (l.map fun f => (Blk.twin, f)) := by
  induction l generalizing n with
  | nil => exact .refl n _
  | cons f l ih =>
    rw [List.foldl_cons]
    have one : Writes n (if f.acc = .rw || f.acc = .rwi then n.setBoth .twin f (s.fld .twin f) else n) [(.twin, f)] :=
      .ite ((Writes.refl n _).set (b := .twin) (f := f) _ List.mem_cons_self |>.trans (.of_act rfl)) (.refl n _)
    exact (one.mono (by simp)).trans ((ih _).mono (fun w hw => List.mem_cons_of_mem _ hw))

theorem State.twinKept_shows (n s : State) :
    let t := n.twinKept s
    t.outside = n.outside ∧ t.fld .twin Reg.Twin.CFG_MODE = s.fld .twin Reg.Twin.CFG_MODE ∧
      ∀ b g, (b.base + g.off < 0xD000 ∨ 0xE000 ≤ b.base + g.off) → t.fld b g = n.fld b g := by
  have writes := keptFold_writes s Reg.Twin.fields n
  refine ⟨foldl_keeps State.outside (fun t f _ => ?_) n, ?_, fun b g far => writes b g fun w hw => .inl ?_⟩
  · exact ite_keeps State.outside (t.outside_setBoth _ _ _) rfl
  · obtain ⟨l, hl⟩ : ∃ l, Reg.Twin.fields = Reg.Twin.CFG_MODE :: l := ⟨_, rfl⟩
    have apart : ∀ f ∈ Reg.Twin.fields.tail, FldApart .twin f .twin Reg.Twin.CFG_MODE := by decide
    rw [hl, List.tail_cons] at apart
    unfold State.twinKept
    rw [hl, List.foldl_cons]
    refine (keptFold_writes s l _ _ _ ?_).trans ((State.fld_setBoth_same n .twin _ ⟨by decide, by decide⟩).trans ?_)
    · intro w hw
      obtain ⟨f, hf, rfl⟩ := List.mem_map.mp hw
      exact apart f hf
    · exact Nat.mod_eq_of_lt (regGet_lt _ _ _ ⟨by decide, by decide⟩)
  · obtain ⟨f, hf, rfl⟩ := List.mem_map.mp hw
    have inside : ∀ f ∈ Reg.Twin.fields, f.off < 0x1000 := by decide
    have near := inside f hf
    have twin_ : Blk.twin.base = 0xD000 := rfl
    show b.base + g.off ≠ Blk.twin.base + f.off
    omega

/-! A warm reset -/

/-- A warm reset acts (R541); `pin` for RESET_B, which acts in STANDBY too. -/
abbrev State.mayReset (s : State) (pin : Bool) : Prop :=
  s.fld .resetPage Reg.Reset.BOOT_STAGE ≠ 8 ∧ s.fld .resetPage Reg.Reset.BOOT_STAGE ≠ 9 ∧ s.dead = false ∧
    s.fld .greenroom Reg.Greenroom.PWR_STATE ≠ 3 ∧ (pin = false → s.fld .greenroom Reg.Greenroom.PWR_STATE ≠ 2)

theorem warmReset_cond {s : State} {cause : Nat} : (decide (s.fld .resetPage Reg.Reset.BOOT_STAGE = 8) ||
    decide (s.fld .resetPage Reg.Reset.BOOT_STAGE = 9) || s.dead || decide (s.fld .greenroom Reg.Greenroom.PWR_STATE = 3) ||
    (decide (s.fld .greenroom Reg.Greenroom.PWR_STATE = 2) && decide (cause ≠ 2))) = true ↔ ¬ s.mayReset (decide (cause = 2)) := by
  have runs : s.dead = false ↔ ¬ s.dead = true := by rw [Bool.not_eq_true]
  unfold State.mayReset
  rw [runs]
  by_cases two : cause = 2
  · simp only [two, Bool.or_eq_true, Bool.and_eq_true, decide_eq_true_eq]
    tauto
  · simp only [two, Bool.or_eq_true, Bool.and_eq_true, decide_eq_true_eq, decide_eq_false_iff_not]
    tauto

/-- The state of a warm reset before its words are shown. -/
theorem State.warmReset_eq {s : State} {cause : Nat} (may : s.mayReset (decide (cause = 2))) : ∃ n : State,
    s.warmReset cause = (((((n.twinKept s).setBit .dramc Reg.Dramc.STATUS_ECC_ON (s.bit .dramc Reg.Dramc.STATUS_ECC_ON)).set .dramc
      Reg.Dramc.SCRUB_PASSES (s.fld .dramc Reg.Dramc.SCRUB_PASSES)).set .greenroom Reg.Greenroom.PWR_STATE 1).set .resetPage
      Reg.Reset.WARM_COUNT ((s.fld .resetPage Reg.Reset.WARM_COUNT + 1) % 2 ^ 32)).resetFields cause ∧
      n.fab.act = keepPages (bootWords s.model) s.fab.act ∧ n.fab.commits = [] ∧ n.boot.flash = s.boot.flash ∧
      n.boot.warm = some !decide (s.boot.warm = some false) ∧
      n.boot.image = (if s.boot.warm = some false then none else s.boot.image) ∧ n.snaps.slot0 = s.snaps.slot0 ∧
      n.snaps.slot1 = s.snaps.slot1 ∧ n.thermals = s.thermals ∧ n.layouts.slots = [] ∧ n.outs = s.outs.update {} keepOut ∧
      n.seats = ((List.range 8).map (fun k => (k, s.keepSeat k))).filter (fun (e : Nat × SeatState) => e.2 ≠ ({} : SeatState)) :=
  ⟨_, if_neg (warmReset_cond.not.mpr (not_not_intro may)), rfl, rfl, rfl, rfl, rfl, rfl, rfl, rfl, rfl, rfl, rfl⟩

/-- What a warm reset leaves. -/
def State.WarmFrom (s : State) (cause : Nat) (t : State) : Prop :=
  t.fld .resetPage Reg.Reset.CAUSE = cause ∧
    t.fld .resetPage Reg.Reset.WARM_COUNT = (s.fld .resetPage Reg.Reset.WARM_COUNT + 1) % 2 ^ 32 ∧
    t.boot.warm = some (decide (s.boot.warm ≠ some false)) ∧ (s.boot.warm ≠ some false → t.boot.image = s.boot.image) ∧
    t.boot.flash = s.boot.flash ∧ t.snaps.slot0 = s.snaps.slot0 ∧ t.snaps.slot1 = s.snaps.slot1 ∧
    t.thermals = s.thermals ∧ t.layouts.slots = [] ∧ t.fab.commits = [] ∧ t.stopped = true ∧
    (∀ n, (t.out n).corr.bank0 = (s.out n).corr.bank0 ∧ (t.out n).corr.bank1 = (s.out n).corr.bank1) ∧
    (∀ q, (t.seat q).cmds = []) ∧ t.fld .twin Reg.Twin.CFG_MODE = s.fld .twin Reg.Twin.CFG_MODE ∧
    ∀ e, e < 32 → t.fld .greenroom (Reg.Greenroom.WATCH_SOURCE e) = s.fld .greenroom (Reg.Greenroom.WATCH_SOURCE e)

/-- The fields a warm reset shows beside those of every reset. -/
def warmFields : List (Blk × Fld) := [(.dramc, Reg.Dramc.STATUS_ECC_ON), (.dramc, Reg.Dramc.SCRUB_PASSES),
  (.greenroom, Reg.Greenroom.PWR_STATE), (.resetPage, Reg.Reset.WARM_COUNT)]

theorem State.watch_settled (s : State) {e : Nat} (h : e < 32) :
    s.settled.fld .greenroom (Reg.Greenroom.WATCH_SOURCE e) = s.fld .greenroom (Reg.Greenroom.WATCH_SOURCE e) := by
  have outside : ∀ e < 32, wordAt .greenroom (Reg.Greenroom.WATCH_SOURCE e) ∉ statusWords := by decide
  exact s.settled_fld _ _ (outside e h)

theorem keptSeats_cmds (s : State) (q : Nat) : (Map.get ({} : SeatState) q (((List.range 8).map (fun k => (k, s.keepSeat k))).filter
    (fun (e : Nat × SeatState) => e.2 ≠ ({} : SeatState)))).cmds = [] := by
  rcases Map.mem_get ({} : SeatState) q (((List.range 8).map (fun k => (k, s.keepSeat k))).filter
    (fun (e : Nat × SeatState) => e.2 ≠ ({} : SeatState))) with none_ | there
  · rw [none_]
  · obtain ⟨k, -, same⟩ := List.mem_map.mp (List.mem_filter.mp there).1
    have seat := congrArg Prod.snd same
    dsimp only at seat
    rw [← seat]
    rfl

theorem State.warmReset_shows {s : State} {cause : Nat} (may : s.mayReset (decide (cause = 2))) (small : cause < 16) :
    s.WarmFrom cause (s.warmReset cause).settled := by
  obtain ⟨n, body, act, commits, flash, warm, image, slot0, slot1, thermals, layouts, outs, seats⟩ := State.warmReset_eq may
  obtain ⟨kOut, kMode, kFar⟩ := n.twinKept_shows s
  obtain ⟨e, he⟩ : ∃ e, ((((n.twinKept s).setBit .dramc Reg.Dramc.STATUS_ECC_ON (s.bit .dramc Reg.Dramc.STATUS_ECC_ON)).set .dramc
      Reg.Dramc.SCRUB_PASSES (s.fld .dramc Reg.Dramc.SCRUB_PASSES)).set .greenroom Reg.Greenroom.PWR_STATE 1).set .resetPage
      Reg.Reset.WARM_COUNT ((s.fld .resetPage Reg.Reset.WARM_COUNT + 1) % 2 ^ 32) = e := ⟨_, rfl⟩
  rw [he] at body
  have eOut : e.outside = n.outside := by
    rw [← he, State.outside_set, State.outside_set, State.outside_set, State.outside_setBit, kOut]
  have eWrites : Writes (n.twinKept s) e warmFields := by
    rw [← he]
    exact ((((Writes.refl (n.twinKept s) warmFields).set (b := .dramc) (f := Reg.Dramc.STATUS_ECC_ON)
      (if s.bit .dramc Reg.Dramc.STATUS_ECC_ON then 1 else 0) (by simp [warmFields])).set (b := .dramc)
      (f := Reg.Dramc.SCRUB_PASSES) _ (by simp [warmFields])).set (b := .greenroom) (f := Reg.Greenroom.PWR_STATE) _
      (by simp [warmFields])).set (b := .resetPage) (f := Reg.Reset.WARM_COUNT) _ (by simp [warmFields])
  have counted : e.fld .resetPage Reg.Reset.WARM_COUNT = (s.fld .resetPage Reg.Reset.WARM_COUNT + 1) % 2 ^ 32 := by
    rw [← he]
    exact State.fld_set_fit _ _ (by decide) (by decide) (Nat.mod_lt _ (by decide))
  obtain ⟨⟨m, shape⟩, writes, shows_, -⟩ := e.resetFields_shows cause
  have tOut : (e.resetFields cause).outside = n.outside := by
    rw [shape, State.outside_withAct, eOut]
  rw [body]
  generalize e.resetFields cause = t at writes shows_ tOut
  have engine {β : Type} (view : State → β) (hv : ∀ r : State, view r.outside = view r) : view t = view n :=
    (hv t).symm.trans ((congrArg view tOut).trans (hv n))
  have stopped : t.stopped = true := by
    have zero : n.fld .render Reg.Render.STATE = 0 := by
      unfold State.fld regGet
      rw [act, keepPages_get (bootWords_other _ (by decide) (by decide) (by decide)), if_neg (by decide)]
      rfl
    unfold State.stopped
    rw [writes.fld _ _ (by decide), eWrites.fld _ _ (by decide), kFar _ _ (by decide), zero]
    rfl
  have bank (k : Nat) : t.out k = keepOut (s.out k) := by
    unfold State.out
    rw [engine State.outs fun _ => rfl, outs]
    exact Map.get_update _ _ rfl _ _
  refine ⟨?_, ?_, ?_, fun running => ?_, ?_, ?_, ?_, ?_, ?_, ?_, ?_, fun k => ⟨?_, ?_⟩, fun q => ?_, ?_, fun i hi => ?_⟩
  · rw [State.reset_fld_settled _ (by decide), shows_, Nat.mod_eq_of_lt small]
  · rw [State.reset_fld_settled _ (by decide), writes.fld _ _ (by decide), counted]
  · rw [State.settled_boot, engine State.boot fun _ => rfl, warm, decide_not]
  · rw [State.settled_boot, engine State.boot fun _ => rfl, image, if_neg running]
  · rw [State.settled_boot, engine State.boot fun _ => rfl, flash]
  · rw [State.settled_snaps, engine State.snaps fun _ => rfl, slot0]
  · rw [State.settled_snaps, engine State.snaps fun _ => rfl, slot1]
  · rw [State.settled_thermals, engine State.thermals fun _ => rfl, thermals]
  · rw [State.settled_layouts, engine State.layouts fun _ => rfl, layouts]
  · rw [State.settled_fab_commits, engine (fun r : State => r.fab.commits) fun _ => rfl, commits]
  · rw [State.render_state_settled, stopped]
  · rw [State.out_settled, bank]
    rfl
  · rw [State.out_settled, bank]
    rfl
  · rw [State.seat_settled]
    unfold State.seat
    rw [engine State.seats fun _ => rfl, seats]
    exact keptSeats_cmds s q
  · rw [State.twin_fld_settled _ (by decide) (by decide), writes.fld _ _ (by decide), eWrites.fld _ _ (by decide), kMode]
  · have far : ∀ e < 32, (∀ w ∈ resetFieldList, FldApart w.1 w.2 .greenroom (Reg.Greenroom.WATCH_SOURCE e)) ∧
        (∀ w ∈ warmFields, FldApart w.1 w.2 .greenroom (Reg.Greenroom.WATCH_SOURCE e)) ∧
        (wordAt .greenroom (Reg.Greenroom.WATCH_SOURCE e) < 0xD000 ∨ 0xE000 ≤ wordAt .greenroom (Reg.Greenroom.WATCH_SOURCE e)) ∧
        Blk.greenroom.base ≤ wordAt .greenroom (Reg.Greenroom.WATCH_SOURCE e) ∧
        wordAt .greenroom (Reg.Greenroom.WATCH_SOURCE e) < Blk.greenroom.base + 0x1000 ∧
        wordAt .greenroom (Reg.Greenroom.WATCH_SOURCE e) ≠ Blk.dramc.base + 0x44 ∧
        wordAt .greenroom (Reg.Greenroom.WATCH_SOURCE e) ≠ Blk.path.base + 0x40 ∧
        (wordAt .greenroom (Reg.Greenroom.WATCH_SOURCE e) < 0x10000 ∨ 0x18000 ≤ wordAt .greenroom (Reg.Greenroom.WATCH_SOURCE e)) := by
      decide
    obtain ⟨apartReset, apartWarm, twin_, low, high, pool, path, seat⟩ := far i hi
    have word : Map.get 0#32 (wordAt .greenroom (Reg.Greenroom.WATCH_SOURCE i)) n.fab.act =
        Map.get 0#32 (wordAt .greenroom (Reg.Greenroom.WATCH_SOURCE i)) s.fab.act := by
      rw [act, keepPages_get (bootWords_other _ pool path seat), if_pos (.inl ⟨low, high⟩)]
    rw [State.watch_settled _ hi, writes.fld _ _ apartReset, eWrites.fld _ _ apartWarm, kFar _ _ twin_]
    exact State.fld_of_actWord word

end Sys2Proof.Machine
end

section
/-! PROOFS. Warm resets by their causes, the fused rollback count, training and the image checks (R513, R517, R519, R529, R536 to
R538, R542). -/

namespace Sys2Proof.Machine

open Sys2Proof

/-! Warm resets by their causes -/

section
variable {s : State}

theorem resets_answer (s : State) :
    (s.mayReset true → Answers .resetBLow s (s.WarmFrom 2)) ∧
    (s.mayReset false → Answers .warm s (s.WarmFrom 3) ∧ Answers .watchdogExpire s (s.WarmFrom 4)) ∧
    (¬ s.mayReset true → Answers .resetBLow s (OnlyWords s · [])) ∧
    (¬ s.mayReset false → ∀ c, c ∈ ([.warm, .watchdogExpire] : List Instr) → Answers c s (OnlyWords s · [])) := by
  have stays {cause : Nat} (no : ¬ s.mayReset (decide (cause = 2))) : s.warmReset cause = s := if_pos (warmReset_cond.mpr no)
  refine ⟨fun may => ⟨_, rfl, State.warmReset_shows may (by decide)⟩, fun may => ⟨⟨_, rfl, State.warmReset_shows may (by decide)⟩,
    ⟨_, rfl, State.warmReset_shows may (by decide)⟩⟩, fun no => Answers.unchanged (congrArg settle (stays no)), fun no c hc => ?_⟩
  rcases List.mem_cons.mp hc with rfl | rest
  · exact Answers.unchanged (congrArg settle (stays (cause := 3) no))
  · obtain rfl := List.mem_singleton.mp rest
    exact Answers.unchanged (congrArg settle (stays (cause := 4) no))

theorem watching_of_mayReset (may : s.mayReset false) : s.watching = true := by
  obtain ⟨-, -, alive, dormant, standby⟩ := may
  have small : s.fld .greenroom Reg.Greenroom.PWR_STATE < 4 := regGet_lt _ _ _ ⟨by decide, by decide⟩
  have active : ¬ 2 ≤ s.fld .greenroom Reg.Greenroom.PWR_STATE := by
    have := standby rfl
    omega
  unfold State.watching State.lowPower
  rw [alive, decide_eq_false active]
  rfl

/-- A field write that leaves the words a warm reset reads leaves whether it acts. -/
theorem mayReset_of {t : State} {l : List (Blk × Fld)} (writes : Writes s t l) (dead : t.dead = s.dead)
    (stage : ∀ w ∈ l, FldApart w.1 w.2 .resetPage Reg.Reset.BOOT_STAGE)
    (power : ∀ w ∈ l, FldApart w.1 w.2 .greenroom Reg.Greenroom.PWR_STATE) {pin : Bool} (may : s.mayReset pin) : t.mayReset pin := by
  unfold State.mayReset at may ⊢
  rw [writes.fld _ _ stage, writes.fld _ _ power, dead]
  exact may

theorem sramScrub_answers_reset (may : s.mayReset false) (unit : Nat) :
    Answers (.sramScrub 3 2 unit) s (fun t => t.fld .resetPage Reg.Reset.CAUSE = 6) := by
  have runs := exec_sramScrub_lost (watching_of_mayReset may) 3 unit
  obtain ⟨u, hu⟩ : ∃ u, s.sramLogged = u := ⟨_, rfl⟩
  have writes : Writes s u [(.health, Reg.Health.SRAM_UE_COUNT), (.health, Reg.Hdr.EVENTS)] := by
    rw [← hu]
    exact ((Writes.refl s _).count (b := .health) (f := Reg.Health.SRAM_UE_COUNT) 1 List.mem_cons_self).event (b := .health) 7 (by simp)
  have dead : u.dead = s.dead := by
    rw [← hu]
    exact s.sramLogged_keeps State.dead fun _ _ _ _ => rfl
  have may2 : u.mayReset false := mayReset_of writes dead (by decide) (by decide) may
  rw [hu] at runs
  obtain ⟨cause, -⟩ := State.warmReset_shows (cause := 6) may2 (by decide)
  exact ⟨_, runs, cause⟩

theorem exec_patrolScrub_reset (on_ : s.watching = true) (ecc : s.bit .dramc Reg.Dramc.STATUS_ECC_ON = true) (addr unit : Nat)
    (pass : Bool) : exec (.patrolScrub addr 2 5 unit pass) s =
      settle (((if pass then s.count .dramc Reg.Dramc.SCRUB_PASSES else s).uncorrectedAt addr 5 0).warmReset 5) := by
  have lost := State.uncorrected_eq (if pass then s.count .dramc Reg.Dramc.SCRUB_PASSES else s) addr 5 unit
  rw [if_neg (show ¬ (decide ((5 : Nat) = 1) || decide ((5 : Nat) = 2)) = true by decide)] at lost
  have body : exec (.patrolScrub addr 2 5 unit pass) s =
      settle ((if pass then s.count .dramc Reg.Dramc.SCRUB_PASSES else s).uncorrected addr 5 unit) :=
    congrArg settle ((if_neg (scrub_runs on_ ecc)).trans ((if_neg (by decide)).trans (if_pos (by decide))))
  rw [body, lost]
  rfl

/-- The fields that an uncorrected error writes. -/
def uncorrectedFields : List (Blk × Fld) := [(.dramc, Reg.Dramc.UE_COUNT), (.dramc, Reg.Dramc.UE_ADDR_LO),
  (.dramc, Reg.Dramc.UE_ADDR_HI), (.dramc, Reg.Dramc.UE_REGION), (.dramc, Reg.Dramc.UE_UNIT), (.dramc, Reg.Hdr.EVENTS)]

theorem State.uncorrectedAt_writes (s : State) (addr region unit : Nat) :
    Writes s (s.uncorrectedAt addr region unit) uncorrectedFields := by
  have counted := (Writes.refl s uncorrectedFields).count (b := .dramc) (f := Reg.Dramc.UE_COUNT) 1 (by simp [uncorrectedFields])
  have located := counted.set64 (b := .dramc) (lo := Reg.Dramc.UE_ADDR_LO) (hi := Reg.Dramc.UE_ADDR_HI) (addr % 2 ^ 34)
    (by simp [uncorrectedFields]) (by simp [uncorrectedFields])
  exact ((located.set (b := .dramc) (f := Reg.Dramc.UE_REGION) region (by simp [uncorrectedFields])).set (b := .dramc)
    (f := Reg.Dramc.UE_UNIT) unit (by simp [uncorrectedFields])).event (b := .dramc) 1 (by simp [uncorrectedFields])

theorem patrolScrub_answers_reset (may : s.mayReset false) (addr unit : Nat) (pass : Bool)
    (ecc : s.bit .dramc Reg.Dramc.STATUS_ECC_ON = true) :
    Answers (.patrolScrub addr 2 5 unit pass) s (fun t => t.fld .resetPage Reg.Reset.CAUSE = 5) := by
  have runs := exec_patrolScrub_reset (watching_of_mayReset may) ecc addr unit pass
  obtain ⟨u, hu⟩ : ∃ u, (if pass then s.count .dramc Reg.Dramc.SCRUB_PASSES else s) = u := ⟨_, rfl⟩
  rw [hu] at runs
  have first : Writes s u [(.dramc, Reg.Dramc.SCRUB_PASSES)] := by
    rw [← hu]
    exact .ite ((Writes.refl s _).count (b := .dramc) (f := Reg.Dramc.SCRUB_PASSES) 1 List.mem_cons_self) (.refl s _)
  have dead : u.dead = s.dead := by
    rw [← hu]
    exact ite_keeps State.dead rfl rfl
  have mayU : u.mayReset false := mayReset_of first dead (by decide) (by decide) may
  have mayV : (u.uncorrectedAt addr 5 0).mayReset false := mayReset_of (u.uncorrectedAt_writes addr 5 0)
    (u.uncorrectedAt_keeps State.dead (fun _ _ _ _ => rfl) addr 5 0) (by decide) (by decide) mayU
  obtain ⟨cause, -⟩ := State.warmReset_shows (cause := 5) mayV (by decide)
  exact ⟨_, runs, cause⟩

/-! The fused rollback count (R536) -/

theorem commitRollback_answers {release rollback : Nat} (image : s.boot.image = some (release, rollback))
    (own : s.bit .resetPage Reg.Reset.FALLBACK = false) (up : s.boot.warm = none) : Answers .commitRollback s (fun t =>
      t.boot = { s.boot with fused := max s.boot.fused (min rollback 64) } ∧
      (t.fld .resetPage Reg.Hdr.EVENTS).testBit 4 = true) := by
  obtain ⟨u, hu⟩ : ∃ u : State, ({ s with boot := { s.boot with fused := max s.boot.fused (min rollback 64) } } : State).set
      .resetPage Reg.Reset.ROLLBACK_FUSED (max s.boot.fused (min rollback 64)) = u := ⟨_, rfl⟩
  have runs : exec .commitRollback s = settle (u.event .resetPage 4) := by
    have body : exec .commitRollback s = settle s.commitRollback := rfl
    have cond : ¬ (s.bit .resetPage Reg.Reset.FALLBACK || s.boot.warm.isSome) = true := by
      rw [own, up]
      decide
    rw [body]
    unfold State.commitRollback
    rw [image]
    dsimp only
    rw [if_neg cond, hu]
  have boot : u.boot = { s.boot with fused := max s.boot.fused (min rollback 64) } := by
    rw [← hu]
    rfl
  refine .of_settle runs ⟨?_, ?_⟩
  · rw [State.settled_boot, State.event_boot, boot]
  · rw [State.reset_fld_settled _ (by decide)]
    exact State.event_recorded _ _ (by decide)

theorem commitRollback_answers_fallback (other : s.bit .resetPage Reg.Reset.FALLBACK = true) :
    Answers .commitRollback s (OnlyWords s · []) := by
  refine Answers.unchanged ?_
  have body : exec .commitRollback s = settle s.commitRollback := rfl
  have cond : (s.bit .resetPage Reg.Reset.FALLBACK || s.boot.warm.isSome) = true := by
    rw [other]
    rfl
  rw [body]
  unfold State.commitRollback
  split
  · rw [if_pos cond]
  · rfl

/-! Training (R513, R542) -/

/-- The result of training. -/
def State.trained (s : State) (ok full : Bool) : State :=
  if ok then
    let s := s.set .dramc Reg.Dramc.STATUS_TRAINED 1
    if s.boot.warm = some true then s
    else if s.boot.bootsel = 1 || s.boot.bootsel = 2 then
      (s.set .resetPage Reg.Reset.BOOT_STAGE 0xA).set .resetPage Reg.Reset.PUSH_STATE 1
    else s.set .resetPage Reg.Reset.BOOT_STAGE 2
  else if full then ((s.set .dramc Reg.Dramc.STATUS_TRAINED 0).set .resetPage Reg.Reset.BOOT_STAGE 8).event .dramc 4
  else s

theorem dramc_settled (s : State) : s.settled.bit .dramc Reg.Dramc.STATUS_TRAINED = s.bit .dramc Reg.Dramc.STATUS_TRAINED ∧
    s.settled.fld .dramc Reg.Hdr.EVENTS = s.fld .dramc Reg.Hdr.EVENTS :=
  ⟨s.settled_bit _ _ (by decide), s.settled_fld _ _ (by decide)⟩

theorem exec_trainingDone {w : Bool} (warm : s.boot.warm = some w) (untrained : s.bit .dramc Reg.Dramc.STATUS_TRAINED = false)
    (runs : s.fld .resetPage Reg.Reset.BOOT_STAGE ≠ 8) (alive : s.dead = false) (ok full : Bool) :
    exec (.trainingDone ok full) s = settle ((s.setBit .dramc Reg.Dramc.STATUS_FULL_RETRAIN full).trained ok full) := by
  have cond : ¬ (s.boot.warm.isNone || s.bit .dramc Reg.Dramc.STATUS_TRAINED ||
      decide (s.fld .resetPage Reg.Reset.BOOT_STAGE = 8) || s.dead) = true := by
    rw [warm, untrained, decide_eq_false runs, alive]
    exact Bool.false_ne_true
  exact congrArg settle (if_neg cond)

theorem State.trained_ok (s : State) {w full : Bool} (warm : s.boot.warm = some w) :
    let t := s.trained true full
    t.bit .dramc Reg.Dramc.STATUS_TRAINED = true ∧
      (t.fld .resetPage Reg.Reset.BOOT_STAGE = if w then s.fld .resetPage Reg.Reset.BOOT_STAGE
        else if s.boot.bootsel = 1 ∨ s.boot.bootsel = 2 then 0xA else 2) ∧
      (w = false → s.boot.bootsel = 1 ∨ s.boot.bootsel = 2 → t.fld .resetPage Reg.Reset.PUSH_STATE = 1) := by
  obtain ⟨u, hu⟩ : ∃ u, s.set .dramc Reg.Dramc.STATUS_TRAINED 1 = u := ⟨_, rfl⟩
  have boot : u.boot = s.boot := by
    rw [← hu]
    rfl
  have body : s.trained true full = if s.boot.warm = some true then u
      else if s.boot.bootsel = 1 || s.boot.bootsel = 2 then
        (u.set .resetPage Reg.Reset.BOOT_STAGE 0xA).set .resetPage Reg.Reset.PUSH_STATE 1
      else u.set .resetPage Reg.Reset.BOOT_STAGE 2 := by
    rw [← boot, ← hu]
    rfl
  have done : u.bit .dramc Reg.Dramc.STATUS_TRAINED = true := by
    rw [← hu]
    exact State.bit_set_one s .dramc ⟨by decide, by decide⟩ rfl
  have stage : u.fld .resetPage Reg.Reset.BOOT_STAGE = s.fld .resetPage Reg.Reset.BOOT_STAGE := by
    rw [← hu]
    exact State.fld_set_other _ 1 (by decide)
  rw [body, warm]
  cases w with
  | true => exact ⟨done, stage, fun no => nomatch no⟩
  | false =>
    rw [if_neg (by decide)]
    by_cases push : s.boot.bootsel = 1 ∨ s.boot.bootsel = 2
    · have writes : Writes u ((u.set .resetPage Reg.Reset.BOOT_STAGE 0xA).set .resetPage Reg.Reset.PUSH_STATE 1)
          [(.resetPage, Reg.Reset.BOOT_STAGE), (.resetPage, Reg.Reset.PUSH_STATE)] :=
        ((Writes.refl u _).set (b := .resetPage) (f := Reg.Reset.BOOT_STAGE) _ (by simp)).set (b := .resetPage)
          (f := Reg.Reset.PUSH_STATE) _ (by simp)
      rw [if_pos (by rw [Bool.or_eq_true, decide_eq_true_eq, decide_eq_true_eq]; exact push), if_pos push]
      refine ⟨(writes.bit _ _ (by decide)).trans done, ?_, fun _ _ => State.fld_set_fit _ _ (by decide) (by decide) (by decide)⟩
      exact (State.fld_set_other _ 1 (by decide)).trans (State.fld_set_fit _ _ (by decide) (by decide) (by decide))
    · have writes : Writes u (u.set .resetPage Reg.Reset.BOOT_STAGE 2) [(.resetPage, Reg.Reset.BOOT_STAGE)] :=
        (Writes.refl u _).set (b := .resetPage) (f := Reg.Reset.BOOT_STAGE) _ List.mem_cons_self
      rw [if_neg (by rw [Bool.or_eq_true, decide_eq_true_eq, decide_eq_true_eq]; exact push), if_neg push]
      exact ⟨(writes.bit _ _ (by decide)).trans done, State.fld_set_fit _ _ (by decide) (by decide) (by decide),
        fun _ yes => absurd yes push⟩

theorem trainingDone_answers {w : Bool} (warm : s.boot.warm = some w) (untrained : s.bit .dramc Reg.Dramc.STATUS_TRAINED = false)
    (runs : s.fld .resetPage Reg.Reset.BOOT_STAGE ≠ 8) (alive : s.dead = false) (ok full : Bool) :
    (ok = true → Answers (.trainingDone ok full) s (fun t => t.bit .dramc Reg.Dramc.STATUS_TRAINED = true ∧
      (t.fld .resetPage Reg.Reset.BOOT_STAGE = if w then s.fld .resetPage Reg.Reset.BOOT_STAGE
        else if s.boot.bootsel = 1 ∨ s.boot.bootsel = 2 then 0xA else 2) ∧
      (w = false → s.boot.bootsel = 1 ∨ s.boot.bootsel = 2 → t.fld .resetPage Reg.Reset.PUSH_STATE = 1))) ∧
    (ok = false → full = true → Answers (.trainingDone ok full) s (fun t => t.fld .resetPage Reg.Reset.BOOT_STAGE = 8 ∧
      (t.fld .dramc Reg.Hdr.EVENTS).testBit 4 = true)) ∧
    (ok = false → full = false → Answers (.trainingDone ok full) s (fun t =>
      t.fld .resetPage Reg.Reset.BOOT_STAGE = s.fld .resetPage Reg.Reset.BOOT_STAGE ∧
      t.bit .dramc Reg.Dramc.STATUS_TRAINED = false)) := by
  have run := exec_trainingDone warm untrained runs alive ok full
  obtain ⟨u, hu⟩ : ∃ u, s.setBit .dramc Reg.Dramc.STATUS_FULL_RETRAIN full = u := ⟨_, rfl⟩
  rw [hu] at run
  have boot : u.boot = s.boot := by
    rw [← hu]
    rfl
  have writes : Writes s u [(.dramc, Reg.Dramc.STATUS_FULL_RETRAIN)] := by
    rw [← hu]
    exact (Writes.refl s _).set (b := .dramc) (f := Reg.Dramc.STATUS_FULL_RETRAIN) (if full then 1 else 0) List.mem_cons_self
  have stage : u.fld .resetPage Reg.Reset.BOOT_STAGE = s.fld .resetPage Reg.Reset.BOOT_STAGE := writes.fld _ _ (by decide)
  have off : u.bit .dramc Reg.Dramc.STATUS_TRAINED = false := (writes.bit _ _ (by decide)).trans untrained
  refine ⟨fun good => ?_, fun bad whole => ?_, fun bad part => ?_⟩
  · subst good
    obtain ⟨done, shows_, push⟩ := u.trained_ok (full := full) ((congrArg Boot.warm boot).trans warm)
    rw [stage, boot] at shows_
    rw [boot] at push
    refine .of_settle run ⟨?_, ?_, fun cold sel => ?_⟩
    · rw [(dramc_settled _).1, done]
    · rw [State.reset_fld_settled _ (by decide), shows_]
    · rw [State.reset_fld_settled _ (by decide), push cold sel]
  · subst bad whole
    obtain ⟨v, hv⟩ : ∃ v, (u.set .dramc Reg.Dramc.STATUS_TRAINED 0).set .resetPage Reg.Reset.BOOT_STAGE 8 = v := ⟨_, rfl⟩
    have body : u.trained false true = v.event .dramc 4 := by
      rw [← hv]
      rfl
    have stopped : v.fld .resetPage Reg.Reset.BOOT_STAGE = 8 := by
      rw [← hv]
      exact State.fld_set_fit _ _ (by decide) (by decide) (by decide)
    rw [body] at run
    refine .of_settle run ⟨?_, ?_⟩
    · rw [State.reset_fld_settled _ (by decide), State.fld_event_other _ 4 (by decide), stopped]
    · rw [(dramc_settled _).2]
      exact State.event_recorded _ _ (by decide)
  · subst bad part
    refine .of_settle run ⟨?_, ?_⟩
    · rw [State.reset_fld_settled _ (by decide)]
      exact stage
    · rw [(dramc_settled _).1]
      exact off

end

end Sys2Proof.Machine
end

section
/-! PROOFS. The image checks: the slots and the push (R537, R538). -/

namespace Sys2Proof.Machine

open Sys2Proof

section
variable {s : State}

/-- The result of the checks of the two slots. -/
def State.slotsChecked (s : State) (k : Nat) (f g : List Byte) : State :=
  if (imageFault s.boot.fused f).isNone then s.takeImage k f
  else if (imageFault s.boot.fused g).isNone then
    ((s.set .resetPage Reg.Reset.FALLBACK 1).event .resetPage 1).takeImage (1 - k) g
  else if s.boot.bootsel = 3 && s.boot.warm = some false then
    ({ s with boot := { s.boot with image := none } }.set .resetPage Reg.Reset.BOOT_STAGE 0xA).set .resetPage Reg.Reset.PUSH_STATE 1
  else { s with boot := { s.boot with image := none } }.set .resetPage Reg.Reset.BOOT_STAGE 9

theorem State.bootSlots_eq (s : State) : s.bootSlots = s.slotsChecked s.boot.cfg.slot (s.flashAt (imageSlot s.boot.cfg.slot) 0x400000)
    (s.flashAt (imageSlot (1 - s.boot.cfg.slot)) 0x400000) := rfl

theorem exec_imageCheck (warm : s.boot.warm = some false) (stage : s.fld .resetPage Reg.Reset.BOOT_STAGE = 2) (alive : s.dead = false) :
    exec .imageCheck s = settle ((s.set .resetPage Reg.Reset.BOOT_STAGE 3).slotsChecked s.boot.cfg.slot
      (s.flashAt (imageSlot s.boot.cfg.slot) 0x400000) (s.flashAt (imageSlot (1 - s.boot.cfg.slot)) 0x400000)) := by
  have cond : (decide (s.boot.warm = some false) && decide (s.fld .resetPage Reg.Reset.BOOT_STAGE = 2) && !s.dead) = true := by
    rw [decide_eq_true warm, decide_eq_true stage, alive]
    rfl
  have body : exec .imageCheck s = settle ((s.set .resetPage Reg.Reset.BOOT_STAGE 3).bootSlots) := congrArg settle (if_pos cond)
  rw [body, State.bootSlots_eq]
  rfl

/-- An image that is taken. -/
theorem State.takeImage_shows (s : State) {k : Nat} (f : List Byte) (hk : k < 2) :
    let t := s.takeImage k f
    t.fld .resetPage Reg.Reset.BOOT_SLOT = k ∧ t.boot.image = some (imageOf f) ∧ Writes s t [(.resetPage, Reg.Reset.BOOT_SLOT)] := by
  have writes : Writes s (s.set .resetPage Reg.Reset.BOOT_SLOT k) [(.resetPage, Reg.Reset.BOOT_SLOT)] :=
    (Writes.refl s _).set (b := .resetPage) (f := Reg.Reset.BOOT_SLOT) k List.mem_cons_self
  have slot : (s.set .resetPage Reg.Reset.BOOT_SLOT k).fld .resetPage Reg.Reset.BOOT_SLOT = k :=
    State.fld_set_fit _ _ (by decide) (by decide) hk
  exact ⟨slot, rfl, writes.trans (.of_act rfl)⟩

section
variable {k : Nat} {f g : List Byte}

theorem State.slotsChecked_own (s : State) (hk : k < 2) (good : imageFault s.boot.fused f = none) :
    let t := s.slotsChecked k f g
    t.fld .resetPage Reg.Reset.BOOT_STAGE = s.fld .resetPage Reg.Reset.BOOT_STAGE ∧ t.fld .resetPage Reg.Reset.BOOT_SLOT = k ∧
      t.boot.image = some (imageOf f) ∧ t.fld .resetPage Reg.Reset.FALLBACK = s.fld .resetPage Reg.Reset.FALLBACK := by
  obtain ⟨slot, image, writes⟩ := s.takeImage_shows f hk
  have body : s.slotsChecked k f g = s.takeImage k f := if_pos (by rw [good]; rfl)
  rw [body]
  exact ⟨writes.fld _ _ (by decide), slot, image, writes.fld _ _ (by decide)⟩

theorem State.slotsChecked_other (s : State) (bad : imageFault s.boot.fused f ≠ none) (good : imageFault s.boot.fused g = none) :
    let t := s.slotsChecked k f g
    t.fld .resetPage Reg.Reset.BOOT_STAGE = s.fld .resetPage Reg.Reset.BOOT_STAGE ∧ t.fld .resetPage Reg.Reset.BOOT_SLOT = 1 - k ∧
      t.boot.image = some (imageOf g) ∧ t.bit .resetPage Reg.Reset.FALLBACK = true ∧
      (t.fld .resetPage Reg.Hdr.EVENTS).testBit 1 = true := by
  obtain ⟨u, hu⟩ : ∃ u, (s.set .resetPage Reg.Reset.FALLBACK 1).event .resetPage 1 = u := ⟨_, rfl⟩
  have body : s.slotsChecked k f g = u.takeImage (1 - k) g := by
    rw [← hu]
    exact (if_neg fun h => bad (Option.isNone_iff_eq_none.mp h)).trans (if_pos (by rw [good]; rfl))
  obtain ⟨slot, image, writes⟩ := u.takeImage_shows g (k := 1 - k) (by omega)
  have first : Writes s u [(.resetPage, Reg.Reset.FALLBACK), (.resetPage, Reg.Hdr.EVENTS)] := by
    rw [← hu]
    exact ((Writes.refl s _).set (b := .resetPage) (f := Reg.Reset.FALLBACK) 1 List.mem_cons_self).event (b := .resetPage) 1 (by simp)
  have marked : u.bit .resetPage Reg.Reset.FALLBACK = true := by
    rw [← hu]
    unfold State.bit
    rw [State.fld_event_other _ 1 (by decide)]
    exact State.bit_set_one s .resetPage ⟨by decide, by decide⟩ rfl
  have told : (u.fld .resetPage Reg.Hdr.EVENTS).testBit 1 = true := by
    rw [← hu]
    exact State.event_recorded _ _ (by decide)
  rw [body]
  refine ⟨(writes.fld _ _ (by decide)).trans (first.fld _ _ (by decide)), slot, image, (writes.bit _ _ (by decide)).trans marked, ?_⟩
  rw [writes.fld _ _ (by decide)]
  exact told

theorem State.slotsChecked_none (s : State) (warm : s.boot.warm = some false) (bad : imageFault s.boot.fused f ≠ none)
    (worse : imageFault s.boot.fused g ≠ none) :
    let t := s.slotsChecked k f g
    (t.fld .resetPage Reg.Reset.BOOT_STAGE = if s.boot.bootsel = 3 then 0xA else 9) ∧ t.boot.image = none := by
  obtain ⟨u, hu⟩ : ∃ u : State, { s with boot := { s.boot with image := none } } = u := ⟨_, rfl⟩
  have image : u.boot.image = none := by
    rw [← hu]
  have body : s.slotsChecked k f g = if (decide (s.boot.bootsel = 3) && decide (s.boot.warm = some false)) = true then
      (u.set .resetPage Reg.Reset.BOOT_STAGE 0xA).set .resetPage Reg.Reset.PUSH_STATE 1 else u.set .resetPage Reg.Reset.BOOT_STAGE 9 := by
    rw [← hu]
    exact (if_neg fun h => bad (Option.isNone_iff_eq_none.mp h)).trans (if_neg fun h => worse (Option.isNone_iff_eq_none.mp h))
  rw [body, decide_eq_true warm, Bool.and_true]
  by_cases push : s.boot.bootsel = 3
  · rw [if_pos (decide_eq_true push), if_pos push]
    exact ⟨(State.fld_set_other _ 1 (by decide)).trans (State.fld_set_fit _ _ (by decide) (by decide) (by decide)), image⟩
  · rw [if_neg (by rw [decide_eq_true_eq]; exact push), if_neg push]
    exact ⟨State.fld_set_fit _ _ (by decide) (by decide) (by decide), image⟩

end

theorem imageCheck_answers (warm : s.boot.warm = some false) (stage : s.fld .resetPage Reg.Reset.BOOT_STAGE = 2)
    (hk : s.boot.cfg.slot < 2) (alive : s.dead = false) :
    let r := Blk.resetPage
    let k := s.boot.cfg.slot
    let f := s.flashAt (imageSlot k) 0x400000
    let g := s.flashAt (imageSlot (1 - k)) 0x400000
    (imageFault s.boot.fused f = none → Answers .imageCheck s (fun t => t.fld r Reg.Reset.BOOT_STAGE = 3 ∧
      t.fld r Reg.Reset.BOOT_SLOT = k ∧ t.boot.image = some (imageOf f) ∧ t.fld r Reg.Reset.FALLBACK = s.fld r Reg.Reset.FALLBACK)) ∧
    (imageFault s.boot.fused f ≠ none → imageFault s.boot.fused g = none → Answers .imageCheck s (fun t =>
      t.fld r Reg.Reset.BOOT_STAGE = 3 ∧ t.fld r Reg.Reset.BOOT_SLOT = 1 - k ∧ t.boot.image = some (imageOf g) ∧
      t.bit r Reg.Reset.FALLBACK = true ∧ (t.fld r Reg.Hdr.EVENTS).testBit 1 = true)) ∧
    (imageFault s.boot.fused f ≠ none → imageFault s.boot.fused g ≠ none → Answers .imageCheck s (fun t =>
      t.fld r Reg.Reset.BOOT_STAGE = (if s.boot.bootsel = 3 then 0xA else 9) ∧ t.boot.image = none)) := by
  intro r k f g
  have runs := exec_imageCheck warm stage alive
  obtain ⟨u, hu⟩ : ∃ u, s.set .resetPage Reg.Reset.BOOT_STAGE 3 = u := ⟨_, rfl⟩
  have boot : u.boot = s.boot := by
    rw [← hu]
    rfl
  have started : u.fld r Reg.Reset.BOOT_STAGE = 3 := by
    rw [← hu]
    exact State.fld_set_fit _ _ (by decide) (by decide) (by decide)
  have fallback : u.fld r Reg.Reset.FALLBACK = s.fld r Reg.Reset.FALLBACK := by
    rw [← hu]
    exact State.fld_set_other _ 3 (by decide)
  rw [hu] at runs
  change exec .imageCheck s = settle (u.slotsChecked k f g) at runs
  change k < 2 at hk
  clear_value f g k
  rw [← boot]
  refine ⟨fun good => ?_, fun bad good => ?_, fun bad worse => ?_⟩
  · obtain ⟨at_, slot, image, same⟩ := u.slotsChecked_own (g := g) hk good
    refine .of_settle runs ⟨?_, ?_, ?_, ?_⟩
    · rw [State.reset_fld_settled _ (by decide), at_, started]
    · rw [State.reset_fld_settled _ (by decide), slot]
    · rw [State.settled_boot, image]
    · rw [State.reset_fld_settled _ (by decide), same, fallback]
  · obtain ⟨at_, slot, image, marked, told⟩ := u.slotsChecked_other (k := k) bad good
    refine .of_settle runs ⟨?_, ?_, ?_, ?_, ?_⟩
    · rw [State.reset_fld_settled _ (by decide), at_, started]
    · rw [State.reset_fld_settled _ (by decide), slot]
    · rw [State.settled_boot, image]
    · rw [State.settled_bit _ _ _ (by decide), marked]
    · rw [State.reset_fld_settled _ (by decide)]
      exact told
  · obtain ⟨at_, image⟩ := u.slotsChecked_none (k := k) ((congrArg Boot.warm boot).trans warm) bad worse
    refine .of_settle runs ⟨?_, ?_⟩
    · rw [State.reset_fld_settled _ (by decide), at_]
    · rw [State.settled_boot, image]

/-! A push (R538) -/

/-- The bytes pushed. -/
def State.pushed (s : State) : List Byte := (List.range (s.fld .resetPage Reg.Reset.PUSH_LEN)).map (fun k => Map.get 0#8 k s.boot.window)

theorem pushGo_answers (warm : s.boot.warm = some false) (alive : s.dead = false) (stage : s.fld .resetPage Reg.Reset.BOOT_STAGE = 0xA)
    (waits : s.fld .resetPage Reg.Reset.PUSH_STATE = 1 ∨ s.fld .resetPage Reg.Reset.PUSH_STATE = 3) :
    let r := Blk.resetPage
    (imageFault s.boot.fused s.pushed = none → Answers .pushGo s (fun t => t.fld r Reg.Reset.PUSH_STATE = 4 ∧
      t.fld r Reg.Reset.BOOT_STAGE = 3 ∧ t.boot = { s.boot with image := some (imageOf s.pushed) })) ∧
    (imageFault s.boot.fused s.pushed ≠ none → Answers .pushGo s (fun t => t.fld r Reg.Reset.PUSH_STATE = 3 ∧
      t.fld r Reg.Reset.BOOT_STAGE = 0xA ∧ t.boot = s.boot)) := by
  intro r
  have cond : (decide (s.boot.warm = some false) && decide (s.fld .resetPage Reg.Reset.BOOT_STAGE = 0xA) &&
      (decide (s.fld .resetPage Reg.Reset.PUSH_STATE = 1) || decide (s.fld .resetPage Reg.Reset.PUSH_STATE = 3)) && !s.dead) = true := by
    rw [decide_eq_true warm, decide_eq_true stage, alive, Bool.not_false, Bool.and_true, Bool.true_and, Bool.true_and, Bool.or_eq_true,
      decide_eq_true_eq, decide_eq_true_eq]
    exact waits
  have runs : exec .pushGo s = settle (if (imageFault s.boot.fused s.pushed).isSome = true then s.set r Reg.Reset.PUSH_STATE 3
      else (({ s with boot := { s.boot with image := some (imageOf s.pushed) } } : State).set r Reg.Reset.PUSH_STATE 4).set r
        Reg.Reset.BOOT_STAGE 3) := congrArg settle (if_pos cond)
  refine ⟨fun good => ?_, fun bad => ?_⟩
  · obtain ⟨u, hu⟩ : ∃ u : State, { s with boot := { s.boot with image := some (imageOf s.pushed) } } = u := ⟨_, rfl⟩
    have boot : u.boot = { s.boot with image := some (imageOf s.pushed) } := by
      rw [← hu]
    rw [good, hu, if_neg (by decide)] at runs
    refine .of_settle runs ⟨?_, ?_, ?_⟩
    · rw [State.reset_fld_settled _ (by decide), State.fld_set_other _ 3 (by decide)]
      exact State.fld_set_fit _ _ (by decide) (by decide) (by decide)
    · rw [State.reset_fld_settled _ (by decide)]
      exact State.fld_set_fit _ _ (by decide) (by decide) (by decide)
    · rw [State.settled_boot]
      exact boot
  · rw [if_pos (Option.isSome_iff_ne_none.mpr bad)] at runs
    refine .of_settle runs ⟨?_, ?_, ?_⟩
    · rw [State.reset_fld_settled _ (by decide)]
      exact State.fld_set_fit _ _ (by decide) (by decide) (by decide)
    · rw [State.reset_fld_settled _ (by decide), State.fld_set_other _ 3 (by decide), stage]
    · rw [State.settled_boot]
      rfl

end

end Sys2Proof.Machine
end
